-- ==== Sys2Proof/Word.lean ====
section
/-!
DEFINITION. The word types of the model. Registers of the control die are 32 bits wide and memory is
addressed by bytes, little-endian (R6).
-/
set_option Elab.async false

namespace Sys2Proof

/-- A 32-bit register word. -/
abbrev Word := BitVec 32

/-- A byte of memory or of a message. -/
abbrev Byte := BitVec 8

/-- A 64-bit register, of the RV64 cores and of time stamps. -/
abbrev Dword := BitVec 64

end Sys2Proof
end

