-- ==== Sys2Proof/Syntax.lean ====
section
/-!
DEFINITION. The commands of the KX9256: one constructor of `Instr` for every row of
spec/opcode_table.json, with the operands the row's rule names. A command is one whole step of the
block (95_what_each_step_holds.md). Operands that a standard outside the manual decides (whether a
MAC, a CRC or a signature verifies, what a card or a vehicle answers) arrive as values of the command.
-/
set_option Elab.async false
namespace Sys2Proof

/-- The two ends of the sealed link (R28). -/
inductive Side where
  | control | sealed
  deriving DecidableEq, Repr

/-- Roles of R12, with firmware (FFh) of R283. -/
inductive Role where
  | pub | customer | operator | service | verifier | manufacturer | firmware
  deriving DecidableEq, Repr

/-- Status codes of R13. -/
inductive Status where
  | ok | busy | denied | range | state | sealed | timeout | integrity | absent | stale | limit
  deriving DecidableEq, Repr

/-- Who asks the sealed die: the role byte of R283 and the request tag of R28. -/
structure Rq where
  role : Role
  tag : Word
  deriving DecidableEq, Repr

/-- A sealed-link message without its MAC (R28). -/
structure LinkMsg where
  cls : BitVec 16
  seq : Nat
  tag : Word
  payload : List Byte
  deriving DecidableEq, Repr

/-- What a good application-lane frame asks of the power die (R24, R89, R345). Channels 0 to 63 are
the coils, 64 to 95 the loads. -/
inductive LaneCmd where
  | on (x : Fin 96) (fromGirth : Bool)
  | off (x : Fin 96)
  | pilot (p : Fin 64) (mode : BitVec 2) (duty : BitVec 10)
  | seq (k : Fin 8) (d2 v : Bool)
  | readerField (n : Fin 16) (on fromGirth : Bool)
  | lineDriver (m : Fin 2) (on fromGirth : Bool)
  | psq (v : BitVec 8)
  deriving DecidableEq, Repr

/-- What a good safety-lane frame of the Bridle asks of the power die (R24, R26). -/
inductive SafeCmd where
  | hold (x : Fin 96)
  | release (x : Fin 96)
  | holdPilot (p : Fin 64)
  | releasePilot (p : Fin 64)
  | pilotX1 (p : Fin 64)
  | sto (n : Fin 8) (stageB on : Bool)
  | seqOff (k : Fin 8)
  deriving DecidableEq, Repr

/-- How the checks of the boot chain come out (R403, R404, R402, R73). -/
structure BootChecks where
  flashOk : Bool
  dirOk : Bool
  loaderOk : Bool
  otherLoaderOk : Bool
  recoveryOk : Bool
  manifestOk : Bool
  tackRoomOk : Bool
  cantleOk : Bool
  agreeOk : Bool
  engines : BitVec 9
  /-- the Bridle's image verifies (R73). -/
  bridleOk : Bool
  /-- the Bridle pair's lockstep start-up test passes (15 R373). -/
  lockstepOk : Bool
  /-- the records of journal area A check, those of area B, and records with a bad CRC: area B?, entry key (R131). -/
  journalOk : Bool
  journalBOk : Bool
  badRecs : List (Bool × Nat)
  deriving DecidableEq, Repr

/-- A request registered at a Harness target (R80, R81): its address, its port, the test flag of R79, how long it has
waited in cycles, and its beats. -/
structure BurstReq where
  addr : BitVec 32
  port : Fin 24
  test : Bool
  wait : Nat
  beats : Nat
  deriving DecidableEq, Repr

/-- What the ECC of a memory finds in an access (01 R36). -/
inductive Ecc where
  | good | corrected | failed
  deriving DecidableEq, Repr

/-- The requests registered at a target (R80, R81), and what the ECC of its memory finds in the burst (R36). -/
structure BurstReqs where
  reqs : List BurstReq
  ecc : Ecc
  deriving DecidableEq, Repr

/-- The word that memory holds at the program counter of a hart (R99), and what the ECC finds in its accesses (R36). -/
structure Fetched where
  word : Word
  ecc : Ecc
  deriving DecidableEq, Repr

/-- What a shadow comparison measured (11 R273): the RMS values of the shadow and of the working channel in µV, and the
delay between the two in ns. -/
structure Comparison where
  shadowUv : Nat
  workUv : Nat
  delayNs : Nat
  deriving DecidableEq, Repr

/-- The bytes of a safe message after its counter: byte 5 and the CRC in bytes 6 and 7 (15 R386). -/
structure SafeTail where
  byte5 : Byte
  crc : BitVec 16
  deriving DecidableEq, Repr

/-- Accesses of the JTAG debug module (R103). -/
inductive DebugOp where
  | halt (hart : Fin 15)
  | resume (hart : Fin 15)
  | readReg (hart : Fin 15) (n : Fin 32)
  | writeReg (hart : Fin 15) (n : Fin 32) (v : BitVec 64)
  | readBus (addr : Word)
  | writeBus (addr v : Word)
  | progBuf (i : Fin 8) (v : Word)
  | readCsr (hart : Fin 15) (c : BitVec 12)
  | writeCsr (hart : Fin 15) (c : BitVec 12) (v : BitVec 64)
  | readF (hart : Fin 4) (n : Fin 32)
  | writeF (hart : Fin 4) (n : Fin 32) (v : BitVec 64)
  | runBuf (hart : Fin 15)
  | dmiRead (addr : BitVec 7)
  | dmiWrite (addr : BitVec 7) (v : Word)
  deriving DecidableEq, Repr

/-- A CANopen client (R124, R145). -/
inductive CanClient where
  | sdo (ch : Fin 8)
  | usdo (node : Fin 128)
  deriving DecidableEq, Repr

/-- USDO requests (R135). -/
inductive UsdoReq where
  | read (idx : BitVec 16) (sub : BitVec 8)
  | write (idx : BitVec 16) (sub : BitVec 8) (data : List Byte)
  | downInit (idx : BitVec 16) (sub : BitVec 8) (total : Nat) (data : List Byte)
  | downSeg (last : Bool) (data : List Byte)
  | upSeg
  deriving DecidableEq, Repr

/-- What a client offers in the Latigo TLS handshake (R139, R140). `anchors` are the Tack room slots
to which its chain verifies. -/
structure TlsHello where
  port : Fin 2
  tcpPort : BitVec 16
  tls12 : Bool
  suiteOk : Bool
  clientCert : Bool
  anchors : List (Fin 128)
  expiryMs : Nat
  commonName : List Byte
  deriving DecidableEq, Repr

/-- The header of a Latigo frame that is no request of R142 (R141): its version, operation, payload length, reserved field and
request ID. -/
structure LatHead where
  version : BitVec 8
  op : BitVec 8
  len : BitVec 16
  reserved : BitVec 16
  id : Word
  deriving DecidableEq, Repr

/-- The header fields of a Latigo request (R141). -/
structure LatigoReq where
  id : Word
  idx : BitVec 16
  sub : BitVec 8
  handle : Word
  serial : BitVec 64
  deriving DecidableEq, Repr

/-- What a received MPDU carries (08 R171, R182): an MSDU, a management message that the Stitcher handles, one that asks for
association, one that would invoke something unsupported (with or without a failure result of its own), any other one. -/
inductive MpduKind where
  | data
  | handled
  | associate
  | unsupported (result : Bool)
  | unknown
  deriving DecidableEq, Repr

/-- A received MPDU (08 R170, R179): frame control good, a ROBO mode, PBs whose CRC fails, unicast, under the network's
NEK. -/
structure Mpdu where
  fcOk : Bool
  robo : Bool
  badPbs : Nat
  unicast : Bool
  nek : Bool
  kind : MpduKind
  data : List Byte
  src : BitVec 48
  deriving DecidableEq, Repr

/-- A certificate chain presented (R230 to R232): the DER sizes of its certificates, leaf first, the Tack room slot whose
trust anchor it verifies to, whether its signatures verify, and whether each certificate's validity covers legal time. -/
structure CertChain where
  sizes : List Nat
  anchor : Fin 128
  sigsOk : Bool
  valid : Bool
  deriving DecidableEq, Repr

/-- The vehicle's side of a TLS 1.3 handshake (R230): what it offers, the validity of the OCSP responses that the host has
written, and the vehicle's certificate chain where it sends one. `resumes` says that it offers a session ticket, a PSK or
0-RTT data (R220). -/
structure V2gHello where
  tls13 : Bool
  suiteOk : Bool
  groupOk : Bool
  sigOk : Bool
  statusRequest : Bool
  ocspFresh : Bool
  resumes : Bool
  cert : Option CertChain
  deriving DecidableEq, Repr

/-- Protocol families of R217. -/
inductive Proto where
  | din | iso2 | iso20ac | iso20dc | iso20acdp
  deriving DecidableEq, Repr

/-- One entry of the vehicle's SupportedAppProtocol list (R218); `major` and `minor` say whether the
version numbers match those the point offers. -/
structure ProtoOffer where
  proto : Proto
  major : Bool
  minor : Bool
  priority : Nat
  deriving DecidableEq, Repr

/-- The V2G request messages of R219. -/
inductive V2gMsg where
  | sessionSetup | serviceDiscovery | serviceDetail | serviceSelection | paymentSelection
  | authorization | authorizationSetup | chargeParameterDiscovery | cableCheck | preCharge
  | powerDelivery | powerDeliveryStop | currentDemand | chargingStatus | chargeLoop
  | weldingDetection | scheduleExchange | meteringConfirmation | certificateInstallation
  | vehicleCheckIn | vehicleCheckOut | vehiclePositioning | acdpConnect | acdpSystemStatus | powerDeliveryPause
  | sessionStop | paymentDetails | certificateUpdate | meteringReceipt | wirelessPower | other
  deriving DecidableEq, Repr

/-- The services and energy transfer modes of R217. -/
inductive EvService where
  | dcExtended | acSinglePhaseCore | acThreePhaseCore | dcCore | ac | dc | dcBpt | dcAcdp | dcAcdpBpt | acBpt
  | basicAc | ieee2030 | other
  deriving DecidableEq, Repr

/-- What a V2G request carries of the values a session uses or publishes (R217, R220, R245, R246): EVCCID, the energy
transfer mode or service it requests, Contract as its payment option, state of charge, requested voltage in 0.1 V and
current in 0.1 A, and the vehicle's signature of a metering confirmation. -/
structure V2gVals where
  evccid : List Byte
  mode : EvService
  contract : Bool
  soc : Nat
  v : Nat
  i : Int
  sig : List Byte
  deriving DecidableEq, Repr

/-- A PnC AuthorizationReq (R232): its chain and whether it parses, the EMAID of the leaf, whether the request's signature
verifies over the digest of the signed element, and the challenge it carries. -/
structure PncCheck where
  parses : Bool
  chain : CertChain
  emaid : List Byte
  sigOk : Bool
  challenge : BitVec 128
  deriving DecidableEq, Repr

/-- A value of the structured form (R235). -/
inductive SkvVal where
  | complex | bool (b : Bool) | sint (i : Int) | uint (n : Nat) | str (b : List Byte) | bin (b : List Byte) | enum (n : Nat)
  deriving DecidableEq, Repr

/-- An item of a document, in document order (R235): its level, from 0; the position of its name; attribute and nil. -/
structure SkvItem where
  level : Nat
  id : BitVec 16
  attr : Bool
  isNil : Bool
  val : SkvVal
  deriving DecidableEq, Repr

/-- What the grammars of R234 make of a Skiver job, which the manual takes from the standards: whether the stream or the
structure follows them, with the position of the first failure; a decode's document; an encode's EXI stream; and the EXI
fragments of the elements that digests may name, by Id, or by the 4 bytes of the item's offset (R239). -/
structure SkvResult where
  ok : Bool
  errPos : Nat
  doc : List SkvItem
  exi : List Byte
  frags : List (List Byte × List Byte)
  deriving DecidableEq, Repr

/-- The samples of a cycle, block or slice of an element (11 R260, R262, R264): the raw samples of its voltage and its current
channel, in µV at the input, in pairs; the weights of the first and the last one in 1/64 (the interpolated boundaries);
the index of the first one within its ms; for bitstream channels the ones among the 256 clocks that cover each sample. -/
structure CycleRaw where
  x : List (Int × Int)
  first : Fin 65
  last : Fin 65
  phase : Fin 16
  dens : List (Nat × Nat)
  deriving DecidableEq, Repr

/-- The return of an element from block mode (11 R262): the element, the cycle that ends, and the cycles between the
qualifying crossings. -/
structure BlockReturn where
  elem : Fin 128
  c : CycleRaw
  cycles : List CycleRaw
  deriving DecidableEq, Repr

/-- A card found by anticollision (R336, R341). -/
structure CardId where
  typeB : Bool
  uid : List Byte
  sak : Byte
  deriving DecidableEq, Repr

/-- What comes back from a card during an exchange (R337, R338). -/
inductive CardBlock where
  | info (data : List Byte) (chain : Bool)
  | ack
  | wtx (m : Nat)
  | bad
  deriving DecidableEq, Repr

/-- Activation commands of an external field (R339). -/
inductive TagAct where
  | reqa | anticollision | selectUid | rats | reqb | attrib (cid : BitVec 4) | hltb
  deriving DecidableEq, Repr

/-- What a SELECT names (R339). -/
inductive TagFile where
  | app | cc | ndef | unknown
  deriving DecidableEq, Repr

/-- A warning-band change (R355). -/
inductive BandChange where
  | switch (x : Fin 96) (warn : Bool)
  | quadrant (q : Fin 4) (temp : BitVec 8)
  deriving DecidableEq, Repr

/-- The unit an earth-fault frame names (R365). -/
inductive EarthUnit where
  | rc (n : Fin 64)
  | im (k : Fin 16)
  deriving DecidableEq, Repr

/-- One sample of the motion monitor (R376, R381, R382). -/
structure MotionSample where
  /-- quadrature count. -/
  count : Int
  /-- A and B have changed together. -/
  illegal : Bool
  /-- counts between the last two Z indexes, where one has passed. -/
  z : Option Nat
  deriving DecidableEq, Repr

/-- An input path tested by R392. -/
inductive PathUnit where
  | mir (p : Fin 64)
  | si (i : Fin 16)
  deriving DecidableEq, Repr

/-- Fuse fields a request may name (R397). -/
inductive FuseField where
  | dbg | decom | svn | rrev | safe | other
  deriving DecidableEq, Repr

/-- A component of a manifest (R411). -/
structure Component where
  id : Nat
  offset : Nat
  length : Nat
  hash : BitVec 384
  deriving DecidableEq, Repr

/-- A manifest as R412 checks it: its fields (R411), and how the checks come out that need bytes it does not carry here:
magic, format and reserved bytes (`formOk`), the signature, and the component hashes against the image. `signer` is the
SHA-384 of the signer's public key, `blockHash` the SHA-384 of each block as it is to be. -/
structure Manifest where
  formOk : Bool
  svn : Nat
  build : Word
  raiseFloor : Bool
  revoke : BitVec 4
  signer : BitVec 384
  sigOk : Bool
  comps : List Component
  blockHashesAgree : Bool
  blockHash : List (Fin 192 × BitVec 384)
  deriving DecidableEq, Repr

/-- A delivered image block (R414): its number, the SHA-384 of the bytes received and of the block read back after
programming; `compsOk` is the check of the components after the last block. -/
structure BlockData where
  blk : Nat
  hash : BitVec 384
  readBack : BitVec 384
  compsOk : Bool
  deriving DecidableEq, Repr

/-- The commands, in the order of spec/opcode_table.json. -/
inductive Instr where
  /-- REGISTER_WRITE (R7): A write to a register that has no row of its own updates its writable fields under their access codes, ignoring reserved bits. -/
  | registerWrite (port : Fin 24) (addr val : Word)
  /-- SEALED_LINK_MESSAGE_RECEIVE (R30): A numbered sealed-link message arrives whole and is accepted if next in sequence, acknowledged again if a repeat, or discarded if out of order or its MAC fails. -/
  | sealedLinkMessageReceive (side : Side) (m : LinkMsg) (macOk : Bool)
  /-- LINK_KEY_AGREEMENT (R29): A kind-1 link-control message carries an ECDH share, and the link key is agreed afresh, at most one request per second being answered. -/
  | linkKeyAgreement (authentic : Bool)
  /-- LINK_ACK_RECEIVE (R31): A kind-2 link-control message is accepted when its MAC passes, acknowledging messages and updating the credit. -/
  | linkAckReceive (side : Side) (acked credit : Nat) (macOk : Bool)
  /-- SEALED_LINK_HEARTBEAT (R31): Each side sends a kind-2 message within 1 ms of accepting a message and at least every 10 ms. -/
  | sealedLinkHeartbeat (side : Side)
  /-- SEALED_LINK_RESEND_TIMEOUT (R31): With no acknowledgement 5 ms after sending, the sender resends from the oldest unacknowledged message onward. -/
  | sealedLinkResendTimeout (side : Side)
  /-- SEALED_LINK_SILENCE_TIMEOUT (R32): With no valid message or heartbeat for 100 ms, the side declares the link failed. -/
  | sealedLinkSilenceTimeout (side : Side)
  /-- BRIDLE_HEARTBEAT (R24): Every 1 ms the Bridle sends a heartbeat frame on the safety lane. -/
  | bridleHeartbeat (crcOk : Bool)
  /-- SAFETY_LANE_HEARTBEAT_LOSS (R25): With no valid safety-lane heartbeat for 5 ms, the power die enters its safe state by itself. -/
  | safetyLaneHeartbeatLoss
  /-- SAFE_STATE_REPORT (R25): The Bridle in RUN receives a report of safe-state entry and sends again every hold it has in force. -/
  | safeStateReport
  /-- SAFE_STATE_RELEASE (R25): After 10 valid heartbeats in a row the Bridle sends the release, which ends the safe state without changing any latch. -/
  | safeStateRelease
  /-- APP_LANE_COMMAND (R24): An application-lane frame arrives at the power die and, if its CRC is good, changes the addressed latch unless a safety-lane hold prevails. -/
  | appLaneCommand (crcOk : Bool) (c : LaneCmd)
  /-- SAFETY_LANE_COMMAND (R26): A safety-lane frame from the Bridle holds off or releases an output, and the safety lane prevails over the application lane. -/
  | safetyLaneCommand (crcOk : Bool) (c : SafeCmd)
  /-- POWER_DIE_CLOCK_FAIL (R66): The power-die oscillator fails, the power die enters its safe state, and frames sent meanwhile are lost. -/
  | powerDieClockFail
  /-- POWER_DIE_CLOCK_RETURN (R25): When its clock returns, the power die reports its safe-state entry on both lanes. -/
  | powerDieClockReturn
  /-- POWER_DIE_RESET (R70): A power-die power-on reset sets all latches to safe default and all power-die registers to their reset values. -/
  | powerDieReset
  /-- VCORE_TRIP (R50): VCORE falls below its trip level and the control die, Bridle included, takes a cold reset with cause VCORE_LOW. -/
  | vcoreTrip
  /-- VIO_TRIP (R50): VIO falls below its trip level and the control die takes a cold reset with cause VIO_LOW. -/
  | vioTrip
  /-- VANA_TRIP (R50): VANA trips, Green PHY transmit is disabled on all channels and every channel moves to OFF. -/
  | vanaTrip
  /-- SEALED_SUPPLY_TRIP (R50): VMCORE or VMIO trips and the sealed die is reset, keeping MTK, LT and MRAM. -/
  | sealedSupplyTrip (vmio : Bool)
  /-- SEALED_WATCHDOG_EXPIRY (R21): The sealed die's internal watchdog expires and resets the sealed die. -/
  | sealedWatchdogExpiry
  /-- VBAT_SAMPLE (R50): Hourly while VMCORE is present, VBAT is sampled and the battery-low flag set and logged if it lies below the trip. -/
  | vbatSample (mv : Nat)
  /-- LEGAL_CLOCK_STOP (R50): VBAT falls below 1.55 V with VMCORE absent and the legal clock stops. -/
  | legalClockStop
  /-- VLOAD_TRIP (R51): A VLOAD under- or overvoltage trip clears every coil and load latch and is reported on both lanes. -/
  | vloadTrip (above : Bool)
  /-- VLOAD_RELEASE (R51): VLOAD returns within range and STO and sequence-signal outputs stop being high impedance, with coils and loads still off. -/
  | vloadRelease
  /-- PILOT_SUPPLY_TRIP (R52): VPILP or VPILN trips, all pilot drivers are disabled and a pilot-supply fault is sent to the Bridle within 100 µs. -/
  | pilotSupplyTrip (neg : Bool)
  /-- PILOT_SUPPLY_RELEASE (R52): The pilot rail is released, allowing the Bridle to release the disabled drivers. -/
  | pilotSupplyRelease (neg : Bool)
  /-- VDRV_TRIP (R50): VDRV trips and all reader fields and line drivers are switched off with an event. -/
  | vdrvTrip
  /-- POWER_FAIL_WARNING (R50): PFIN falls below its threshold and a power-fail warning reaches both dies within 20 µs. -/
  | powerFailWarning
  /-- POWER_FAIL_RELEASE (R432): PFIN releases before the rails fall, slicing continues for 100 ms and then cycles resume with records still open. -/
  | powerFailRelease
  /-- POWER_ON_START (R71): The later of VCORE and VIO rises through its release and the control die runs the start sequence from power-on to ready. -/
  | powerOnStart (boot : BitVec 4) (b : BootChecks)
  /-- WARM_START (R72): An application reset is released and the control die runs the warm start sequence, reloading all engines except the Bridle. -/
  | warmStart (boot : BitVec 4) (b : BootChecks)
  /-- CLK_SSC_WRITE (R65): A write to CLK_SSC enables, sets depth of, disables or locks spread spectrum, and admission applies the grown bound from that write. -/
  | clkSscWrite (v : Word)
  /-- SPREAD_DISABLE_HOLD_EXPIRY (R65): 100 µs after a write that disables spreading, admission returns to the unspread bounds. -/
  | spreadDisableHoldExpiry
  /-- MAIN_REF_FAIL (R66): The main reference fails and an application reset with cause CLKFAIL is held. -/
  | mainRefFail
  /-- MAIN_REF_RECOVERED (R66): The main reference has been good for 1 ms and the CLKFAIL application reset is released. -/
  | mainRefRecovered
  /-- PLL_CH_UNLOCK (R66): PLL_C or PLL_H loses lock and an application reset with cause CLKFAIL follows. -/
  | pllChUnlock (h : Bool)
  /-- PLL_P_UNLOCK (R66): PLL_P loses lock, Green PHY transmit stops, CAN ports go recessive and CLK_PLLP is raised. -/
  | pllPUnlock
  /-- PLL_E_UNLOCK (R66): PLL_E loses lock or the SGMII reference is absent and the affected Ethernet links go down. -/
  | pllEUnlock (eth0 eth1 : Bool)
  /-- BRIDLE_OSC_FAIL (R371): The Bridle oscillator or PLL fails, SAFE_N goes low, the heartbeat stops and the Bridle stays in SAFE with cause 7 until a cold reset. -/
  | bridleOscFail
  /-- METROLOGY_REF_FAIL (R66): The metrology reference fails, the sealed die runs on its backup oscillator and suspends energy accumulation with CLOCK set. -/
  | metrologyRefFail
  /-- METROLOGY_REF_RETURN (R303): The metrology reference returns, accumulation resumes and the return is logged. -/
  | metrologyRefReturn
  /-- LEGAL_CRYSTAL_FAIL (R66): The legal-clock crystal fails with VMCORE present and MTK and LT are counted from the metrology reference, with a log entry. -/
  | legalCrystalFail
  /-- RESET_PIN (R70): RESET_N held low for at least 1 µs starts an application reset with cause PIN. -/
  | resetPin
  /-- WATCHDOG_EXPIRY (R70): The application watchdog expires and starts an application reset with cause WDOG. -/
  | watchdogExpiry
  /-- WATCHDOG_HALF_PERIOD (R107): The watchdog count reaches half its period and raises Buckle source 3. -/
  | watchdogHalfPeriod
  /-- WATCHDOG_KICK (R70): A write of A5h to RST_WDOG.KICK restarts the watchdog count. -/
  | watchdogKick (v : Word)
  /-- WATCHDOG_PERIOD_SET (R70): A write of PERIOD while it is zero sets the watchdog period once per application reset. -/
  | watchdogPeriodSet (v : Word)
  /-- APP_RESET_REQUEST (R70): A write of APP_RST with key 5A3Ch to RST_CTRL starts an application reset within 1 µs with cause SOFT. -/
  | appResetRequest (v : Word)
  /-- JTAG_RESET_REQUEST (R70): A JTAG reset request starts an application reset with cause JTAG. -/
  | jtagResetRequest
  /-- ENGINE_RUN (R73): A RUN bit written to 1 in RST_ENGRUN starts the engine if its LOADED flag is set, otherwise it is ignored and sets RUN_ERR. -/
  | engineRun (v : Word)
  /-- ENGINE_RESET (R70): A 0 written to an engine's RUN bit resets that Rein engine or the Stitcher, frees its contexts and clears LOADED. -/
  | engineReset (v : Word)
  /-- RECLAIM (R75): A write to RST_RECLAIM requests reclaim of active points, accepted only while the hold window runs and before their shutdown. -/
  | reclaim (hi : Bool) (v : Word)
  /-- HOLD_WINDOW_EXPIRY (R76): The hold window ends and the Bridle starts the orderly shutdown of every active point not reclaimed. -/
  | holdWindowExpiry
  /-- SHUTDOWN_CURRENT_TIMEOUT (R76): 500 ms after stop requested without a current report below 1 A, the Bridle holds the coil off and checks the mirror. -/
  | shutdownCurrentTimeout (p : Fin 64)
  /-- SHUTDOWN_LOCK_RELEASE (R76): 2000 ms after the coil is held off, a monostable lock channel is switched off. -/
  | shutdownLockRelease (p : Fin 64)
  /-- HARNESS_BURST (R81): A target grants its next burst to SAFE, forced TEST, rotating RT/BULK or idle TEST requesters and the burst runs to its end. -/
  | harnessBurst (t : Fin 30) (reqs : BurstReqs)
  /-- HRN_WAITMAX_READ (R84): A read of HRN_WAITMAX_t returns the longest wait and the port, and clears them. -/
  | hrnWaitmaxRead (t : Fin 30)
  /-- GIRTH_REQUEST (R90): A write of GRT_REQ_p is checked and accepted with a ticket and predicted grant time, or refused with RANGE, ABSENT, STATE or BUSY. -/
  | girthRequest (port : Fin 24) (v : Word)
  /-- GIRTH_GRANT (R91): An accepted request fits its class share and cap and is granted within 2 µs, with an on-command or grant source or GRANT event. -/
  | girthGrant (c : Fin 3)
  /-- GIRTH_RELEASE (R91): A write of GRT_REL_p ends the grant or withdraws the queued request of that ticket. -/
  | girthRelease (port : Fin 24) (v : Word)
  /-- GIRTH_HOLD_EXPIRY (R91): A grant's hold time ends and its transient cost stops counting. -/
  | girthHoldExpiry (ticket : BitVec 16)
  /-- UNIT_OFF_REPORT (R91): Girth receives the power-die report that a unit is off and ends its standing cost. -/
  | unitOffReport (kind : Fin 16) (unit : Nat)
  /-- GIRTH_DERATE_SAMPLE (R93): Every 1 ms Girth reads the hottest power-die sensor and derates the dissipation total for new acceptances. -/
  | girthDerateSample (temp : Int)
  /-- GIRTH_SHARE_WRITE (R86): A write of GRT_SHARE_c that would exceed a grantable total is ignored and sets CFG_ERR. -/
  | girthShareWrite (c : Fin 3) (v : Word)
  /-- GIRTH_REBUILD (R94): Within 1 ms after a reset is released Girth rebuilds standing costs from power-die on-states, refusing requests with BUSY until done. -/
  | girthRebuild
  /-- GRT_BYPASS_READ (R89): A read of GRT_BYPASS returns the count of ignored on-commands and clears it. -/
  | grtBypassRead
  /-- DELIVERY_TIMEOUT (R96): A monitored request passes its bound, completes with TIMEOUT, counts an event and raises source 501. -/
  | deliveryTimeout (q : Fin 14)
  /-- INSTRUCTION (R99): A core executes one RISC-V instruction, raising an exception for illegal, misaligned or faulting accesses. -/
  | instruction (hart : Fin 15) (w : Fetched)
  /-- TIMER_COMPARE_MATCH (R101): HT reaches CLK_MTIMECMP_h and mip.MTIP of hart h is set. -/
  | timerCompareMatch (h : Fin 6)
  /-- DEBUG_ACCESS (R103): The JTAG debug module halts a hart, accesses registers or the system bus, within the harts the fuses allow. -/
  | debugAccess (op : DebugOp)
  /-- BUCKLE_SOURCE_EDGE (R108): A rising edge on an edge source sets its pending latch, or sets OVR if already set. -/
  | buckleSourceEdge (src : Fin 512)
  /-- BUCKLE_LEVEL_CHANGE (R108): A level source changes and its pending bit follows the synchronised level. -/
  | buckleLevelChange (src : Fin 512) (level : Bool)
  /-- BUCKLE_CLAIM (R109): A read of BKL_CLAIM_t returns the highest-priority eligible source, sets INSVC and clears an edge latch. -/
  | buckleClaim (t : Fin 18)
  /-- BUCKLE_COMPLETE (R109): Writing a source number to BKL_CLAIM_t completes it, clears INSVC and re-samples a level source. -/
  | buckleComplete (t : Fin 18) (v : Word)
  /-- BUCKLE_C_PEND_READ (R111): A read of BKL_C_PEND_k returns pending bits and records them for the GUARD rule of that port. -/
  | buckleCPendRead (port : Fin 24) (k : Fin 16)
  /-- BUCKLE_C_PEND_WRITE (R111): A write of 0s to BKL_C_PEND_k clears edge sources, under GUARD only those read as 1. -/
  | buckleCPendWrite (port : Fin 24) (k : Fin 16) (v : Word)
  /-- BUCKLE_C_VEC_READ (R110): In KX7064 mode a read of BKL_C_VEC_t returns the next pending enabled source after the last returned one. -/
  | buckleCVecRead (t : Fin 18)
  /-- BUCKLE_PEND_CLEAR (R108): A write of 1s to BKL_PENDCLR_k clears the pending latches of those edge sources. -/
  | bucklePendClear (k : Fin 16) (v : Word)
  /-- BUCKLE_SOFTWARE_SET (R107): A write to BKL_SWSET sets the pending latches of software sources 504 to 511. -/
  | buckleSoftwareSet (v : Word)
  /-- BUCKLE_CFG_WRITE (R110): A write of BKL_CFG sets MODE and GUARD, a MODE change being ignored with CFG_ERR while a source is in service. -/
  | buckleCfgWrite (v : Word)
  /-- SLEEP_LATCH_WAKE (R113): While the Buckle clock is gated, a source captured in its sleep latch with WAKE set starts the clock and wakes its target. -/
  | sleepLatchWake (src : Fin 512)
  /-- PAIR_MAILBOX_COMMIT (R115): The write to word 7 of a pair mailbox commits the message, or fails with a bus error and BUSERR if full. -/
  | pairMailboxCommit (port : Fin 24) (m : Fin 20) (v : Word)
  /-- PAIR_MAILBOX_REMOVE (R115): The read of word 7 of a pair mailbox read window removes the oldest message. -/
  | pairMailboxRemove (port : Fin 24) (m : Fin 20)
  /-- HUB_MAILBOX_ACQUIRE (R116): A read of MBX_KEEP_h locks the hub mailbox to the port and reserves a slot, or returns BUSY or STATE. -/
  | hubMailboxAcquire (port : Fin 24) (h : Fin 8)
  /-- HUB_MAILBOX_COMMIT (R116): The lock holder's write to word 15 commits the message and releases the lock. -/
  | hubMailboxCommit (port : Fin 24) (h : Fin 8) (v : Word)
  /-- HUB_MAILBOX_RELEASE (R117): A RELEASE write by the holder discards the staged words and releases the lock. -/
  | hubMailboxRelease (port : Fin 24) (h : Fin 8)
  /-- KEEPER_TIMEOUT (R117): A lock not committed within 4096 cycles is released, its slot freed, and source 440 raised. -/
  | keeperTimeout (h : Fin 8)
  /-- HUB_MAILBOX_REMOVE (R116): The configured reader's read of word 15 removes the oldest hub-mailbox message. -/
  | hubMailboxRemove (port : Fin 24) (h : Fin 8)
  /-- MBX_DROPPED_READ (R116): A read of MBX_CTRL.DROPPED returns the count of ignored hub-mailbox writes and clears it. -/
  | mbxDroppedRead
  /-- COUNTER_WRAP (R118): A performance counter wraps, carrying into its chain or, at the top, setting OVF and raising source 500. -/
  | counterWrap (n : Fin 128)
  /-- PMC_SELECT (R120): A write of PMC_SEL_i selects the counted event or chaining, unlisted selections leaving it unchanged. -/
  | pmcSelect (n : Fin 128) (v : Word)
  /-- PMC_SNAPSHOT (R119): A 1 written to PMC_SNAP.TAKE copies all 128 counters into the snapshot registers in one cycle. -/
  | pmcSnapshot (v : Word)
  /-- SDO_INITIATE_DOWNLOAD (R137): A classic SDO initiate download starts an expedited or segmented write to an entry, aborting any open transfer on the channel. -/
  | sdoInitiateDownload (f : Fin 2) (ch : Fin 8) (idx : BitVec 16) (sub : BitVec 8) (expedited : Bool) (size : Nat) (data : List Byte)
  /-- SDO_DOWNLOAD_SEGMENT (R137): An SDO download segment is taken, and the last one submits the write for the checks of R126. -/
  | sdoDownloadSegment (f : Fin 2) (ch : Fin 8) (toggle last : Bool) (data : List Byte)
  /-- SDO_INITIATE_UPLOAD (R135): A classic SDO initiate upload reads an entry, answered expedited or segmented. -/
  | sdoInitiateUpload (f : Fin 2) (ch : Fin 8) (idx : BitVec 16) (sub : BitVec 8)
  /-- SDO_UPLOAD_SEGMENT (R135): An SDO upload segment request returns the next segment of the value. -/
  | sdoUploadSegment (f : Fin 2) (ch : Fin 8) (toggle : Bool)
  /-- SDO_UNSUPPORTED_COMMAND (R135): An SDO command specifier the server does not support is answered with abort 0504_0001h. -/
  | sdoUnsupportedCommand (f : Fin 2) (ch : Fin 8)
  /-- USDO_REQUEST (R135): A CANopen FD USDO request from a client node-ID reads or writes an entry, expedited or segmented. -/
  | usdoRequest (f : Fin 2) (node : Fin 128) (r : UsdoReq)
  /-- SDO_SEGMENT_TIMEOUT (R137): A segmented transfer whose next segment does not arrive within 1000 ms is aborted with TIMEOUT. -/
  | sdoSegmentTimeout (f : Fin 2) (client : CanClient)
  /-- NMT_START (R136): An NMT start command puts the field port into operational. -/
  | nmtStart (f : Fin 2)
  /-- NMT_STOP (R136): An NMT stop command puts the field port into stopped, serving only NMT and heartbeat. -/
  | nmtStop (f : Fin 2)
  /-- NMT_ENTER_PREOPERATIONAL (R136): An NMT enter pre-operational command puts the field port into pre-operational. -/
  | nmtEnterPreoperational (f : Fin 2)
  /-- NMT_RESET_COMMUNICATION (R136): NMT reset communication clears the port's selectors, open transfers and error counters and re-reads its configuration. -/
  | nmtResetCommunication (f : Fin 2)
  /-- NMT_RESET_NODE (R136): NMT reset node acts on the stack of that one port only, as reset communication does. -/
  | nmtResetNode (f : Fin 2)
  /-- CANOPEN_HEARTBEAT (R135): Each producer heartbeat period the field port sends its heartbeat. -/
  | canopenHeartbeat (f : Fin 2)
  /-- SYNC (R135): A SYNC frame received triggers the synchronous TPDOs of their transmission types. -/
  | sync (f : Fin 2)
  /-- TPDO_EVENT_TIMER (R135): A TPDO's event timer expires and the TPDO is sent subject to its inhibit time. -/
  | tpdoEventTimer (f : Fin 2) (n : Fin 32)
  /-- CAN_BUS_OFF (R138): A field port goes bus-off and its open transfers are aborted without reply. -/
  | canBusOff (f : Fin 2)
  /-- CAN_BUS_OFF_RECOVERY (R138): After 128 occurrences of 11 recessive bits the port recovers and sends EMCY 8140h. -/
  | canBusOffRecovery (f : Fin 2)
  /-- LATIGO_CONNECT (R139): A TCP connection runs the TLS handshake with client certificate and fixes the connection's role, or is reset or alerted. -/
  | latigoConnect (h : TlsHello)
  /-- LATIGO_READ (R142): A Latigo READ frame reads an entry under the connection's role. -/
  | latigoRead (c : Fin 16) (r : LatigoReq)
  /-- LATIGO_WRITE (R142): A Latigo WRITE frame writes an entry, checked under R126 and taking effect by its effect class. -/
  | latigoWrite (c : Fin 16) (r : LatigoReq) (data : List Byte)
  /-- LATIGO_SUBSCRIBE (R142): A SUBSCRIBE frame creates a subscription with a minimum interval and returns the current value. -/
  | latigoSubscribe (c : Fin 16) (r : LatigoReq) (interval : Nat)
  /-- LATIGO_UNSUBSCRIBE (R142): An UNSUBSCRIBE frame ends the subscription named by its request ID. -/
  | latigoUnsubscribe (c : Fin 16) (id : Word)
  /-- LATIGO_KEEPALIVE (R142): A KEEPALIVE frame is answered with an empty reply. -/
  | latigoKeepalive (c : Fin 16) (id : Word)
  /-- LATIGO_NOTIFY (R142): A subscribed value changes or its interval ends and the server sends NOTIFY, coalesced where needed. -/
  | latigoNotify (c : Fin 16) (id : Word) (intervalEnd : Bool)
  /-- LATIGO_BAD_FRAME (R141): A frame with a wrong version, oversize payload or non-zero reserved field is answered RANGE and the connection closed. -/
  | latigoBadFrame (c : Fin 16) (h : LatHead)
  /-- LATIGO_IDLE_TIMEOUT (R143): A connection with no host frame for the idle time is closed. -/
  | latigoIdleTimeout (c : Fin 16)
  /-- LATIGO_CERT_EXPIRY (R140): A connection whose client certificate expires in LT is closed at the expiry time. -/
  | latigoCertExpiry (c : Fin 16)
  /-- LATIGO_CLOSE (R143): A connection closes, accepted requests complete with replies discarded and its subscriptions end. -/
  | latigoClose (c : Fin 16)
  /-- JOURNAL_BATCH_CLOSE (R131): At each commit period or on save, the batch of persistent writes closes and is programmed to area A then area B. -/
  | journalBatchClose (save : Bool)
  /-- XSPI_OPERATION_DONE (R107): An xSPI program, erase or read completes and raises source 482, or 483 on error. -/
  | xspiOperationDone (err : Bool)
  /-- PILOT_COMMAND (R153): A write of PIL_CMD_p with WAKE 0 reaches the power die within 20 µs as the mode and duty to apply at the next period start. -/
  | pilotCommand (p : Fin 64) (v : Word)
  /-- PILOT_PERIOD_START (R153): At each common period start the last command's mode and duty take effect and the cable-capacity clamp is re-evaluated. -/
  | pilotPeriodStart
  /-- PILOT_WAKE (R154): A write of PIL_CMD_p with WAKE 1 under the 2017 edition in X2 switches the pilot to X1 for the wake duration, else sets CFG_ERR. -/
  | pilotWake (p : Fin 64) (v : Word)
  /-- PILOT_WAKE_END (R154): The wake duration expires, the pilot returns to X2 and WAKE_DONE is set. -/
  | pilotWakeEnd (p : Fin 64)
  /-- PILOT_PERIOD_TRIM (R151): Every 100 ms while the application domain runs the power die trims the pilot period against HT. -/
  | pilotPeriodTrim (periodNs : Nat)
  /-- PILOT_PLATEAU_EVALUATION (R158): At the end of a sampling window the power die classifies the 8 samples into plateau, E/F and negative-plateau results. -/
  | pilotPlateauEvaluation (p : Fin 64) (neg : Bool) (samples : List (Int × Int))
  /-- PILOT_FAULT_FRAME (R162): The Bridle receives a pilot-fault frame and commands hold-off of the assigned coils and −12 V on the pilot. -/
  | pilotFaultFrame (p : Fin 64) (cause : Fin 3)
  /-- OFF_WAIT_EXPIRY (R160): X1 has been in force for the OFF_WAIT time with the vehicle still in C or D and OFF_WAIT is set. -/
  | offWaitExpiry (p : Fin 64)
  /-- PROXIMITY_MEASUREMENT (R166): Every 10 ms the two-point proximity measurement yields Rth and Vth. -/
  | proximityMeasurement (p : Fin 64) (v1 v2 : Int)
  /-- PILOT_CFG_WRITE (R168): A write of PIL_CFG_p or PIL_RSRC_p updates pilot configuration, edition or form changes while active being ignored with CFG_ERR. -/
  | pilotCfgWrite (p : Fin 64) (rsrc : Bool) (v : Word)
  /-- PIL_TS_READ (R168): A read of PIL_TS_p low word latches the high word for the next read by the same port. -/
  | pilTsRead (port : Fin 24) (p : Fin 64)
  /-- PLC_START (R180): START with a valid kind-1 ticket in PLC_CTRL_n starts the channel into SLAC_WAIT, else it is refused with STATE. -/
  | plcStart (n : Fin 66) (v : Word)
  /-- PLC_STOP (R181): STOP moves the channel to STOPPING and no new posts are accepted. -/
  | plcStop (n : Fin 66)
  /-- PLC_STOPPING_END (R181): Transmissions complete or one beacon period elapses, the channel goes OFF and queued frames fail with STATE. -/
  | plcStoppingEnd (n : Fin 66)
  /-- PLC_RESLAC (R181): RESLAC discards the selection or match and NMK and returns the channel to SLAC_WAIT. -/
  | plcReslac (n : Fin 66)
  /-- BEACON (R176): At its staggered grid time each started channel sends its beacon in MINI-ROBO, or counts BEACON_SKIP. -/
  | beacon (n : Fin 66)
  /-- SLAC_PARM_REQ (R181): A CM_SLAC_PARM.REQ on an eligible channel is answered with CNF and the channel enters SLAC_RUN. -/
  | slacParmReq (n : Fin 66) (runId : BitVec 64)
  /-- START_ATTEN_CHAR (R185): The first CM_START_ATTEN_CHAR.IND of a RunID opens its attenuation collection. -/
  | startAttenChar (n : Fin 66) (runId : BitVec 64) (sounds : Nat)
  /-- SLAC_SOUND (R185): A sound of a RunID received on a channel adds to that channel's attenuation profile. -/
  | slacSound (n : Fin 66) (runId : BitVec 64) (groups : List Nat)
  /-- SLAC_COLLECTION_CLOSE (R185): A collection closes on all sounds received or 600 ms and the profiles are taken. -/
  | slacCollectionClose (runId : BitVec 64)
  /-- SLAC_VALIDATE_REQ (R186): A CM_VALIDATE.REQ on the selected channel is answered ready and opens a toggle-count window. -/
  | slacValidateReq (n : Fin 66) (runId : BitVec 64)
  /-- SLAC_VALIDATE_WINDOW_END (R186): The toggle window ends and validation succeeds only if counts match and no other point toggled. -/
  | slacValidateWindowEnd (n : Fin 66) (toggles : Nat)
  /-- SLAC_MATCH_REQ (R181): A CM_SLAC_MATCH.REQ from the selected RunID, validated where required, is answered with NID and NMK and the channel becomes MATCHED. -/
  | slacMatchReq (n : Fin 66) (runId : BitVec 64) (mac : BitVec 48)
  /-- SLAC_MATCH_TIMEOUT (R181): No match request within 10 s of selection withdraws the selection and returns to SLAC_WAIT. -/
  | slacMatchTimeout (n : Fin 66)
  /-- PLC_MPDU_RECEIVE (R179): A received MPDU is checked, bad PBs reported in the acknowledgement and good MSDUs placed in the receive ring or to the Stitcher. -/
  | plcMpduReceive (n : Fin 66) (m : Mpdu)
  /-- PLC_LINK_LOST (R181): No MPDU from the station for 5 s returns the channel to SLAC_WAIT with LINK_LOST and NMK discarded. -/
  | plcLinkLost (n : Fin 66)
  /-- NEK_RENEWAL (R181): Every 15 minutes the Stitcher renews a network's NEK. -/
  | nekRenewal (n : Fin 66)
  /-- PLC_TX_POST (R188): A write of PLC_TXPOST_n posts an MSDU or refuses it with BUSY, STATE, RANGE or INTEGRITY in PLC_TXRESP_n. -/
  | plcTxPost (n : Fin 66) (v : Word)
  /-- PLC_SACK_RECEIVED (R179): A selective acknowledgement is received, bad PBs are resent, and an MSDU completes OK or fails INTEGRITY after its last try. -/
  | plcSackReceived (n : Fin 66) (bad : BitVec 4)
  /-- PLC_TX_TIMEOUT (R179): An MSDU not sent within 2 beacon periods of acceptance fails with TIMEOUT. -/
  | plcTxTimeout (n : Fin 66)
  /-- PLC_RX_POP (R188): Any write to PLC_RXPOP_n frees the oldest receive-ring slot. -/
  | plcRxPop (n : Fin 66)
  /-- PLC_TXDONE_READ (R188): A read of PLC_TXDONE_n returns and removes the oldest completion. -/
  | plcTxdoneRead (n : Fin 66)
  /-- PLC_NTB_READ (R187): A read of PLC_NTB_n latches the HT of the same instant into PLC_NTBHT_n. -/
  | plcNtbRead (port : Fin 24) (n : Fin 66)
  /-- REIN_SOURCE_CLAIM (R196): A Rein engine claims a Buckle source and sets the class bit in the routing holder or SES_XR target, or counts MISROUTE. -/
  | reinSourceClaim (e : Fin 8)
  /-- REIN_MAILBOX_STASH (R197): A pair-mailbox message for a context is moved into its stash when there is room, or discarded if the context is FREE. -/
  | reinMailboxStash (e : Fin 8)
  /-- REIN_ACTIVATION (R199): The next READY context is chosen in rotation, everything pending is delivered and it runs from SES_ENTRY. -/
  | reinActivation (e : Fin 8)
  /-- SES_DONE (R206): A write to SES_DONE ends the activation, completing level sources, and the context becomes IDLE or READY. -/
  | sesDone (e : Fin 8)
  /-- SES_POST (R198): A write to SES_POST posts a software event code to a context of the same engine, status in POSTST. -/
  | sesPost (e : Fin 8) (v : Word)
  /-- SES_POSTR (R198): A write to SES_POSTR posts a software event to a context, refused with BUSY or STATE, status in SES_POSTST. -/
  | sesPostr (port : Fin 24) (e : Fin 8) (v : Word)
  /-- EV_TAKE (R199): A write of EV_TAKE takes classes 0 to 8 from EV_LIVE so the running activation delivers them. -/
  | evTake (e : Fin 8) (v : Word)
  /-- BUDGET_EXHAUSTED (R203): An activation's handler budget reaches 0 and the context is trapped with cause 01h. -/
  | budgetExhausted (e : Fin 8)
  /-- TRAP_NOTICE_COMMIT (R203): A held trap notice is committed to pair mailbox 12 + n once space frees. -/
  | trapNoticeCommit (e : Fin 8)
  /-- REIN_TIMER_EXPIRY (R194): HT reaches a context's TIMER deadline, TIMER is cleared and class TIMER becomes pending. -/
  | reinTimerExpiry (slot : Fin 256)
  /-- SES_START (R207): SES_CMD START checks the context, point and role, then increments the generation, writes HANDLE and sets the START class. -/
  | sesStart (port : Fin 24) (e : Fin 8) (v : Word)
  /-- SES_RESTART (R206): SES_CMD RESTART makes a TRAPPED context READY unless its cause is 03h. -/
  | sesRestart (port : Fin 24) (e : Fin 8) (v : Word)
  /-- SES_FREE (R206): SES_CMD FREE frees a context, discarding pending events and passing point-bound events to the next routing holder. -/
  | sesFree (port : Fin 24) (e : Fin 8) (v : Word)
  /-- SES_SETROLE (R208): SES_CMD SETROLE moves a context along the permitted role changes, else STATE. -/
  | sesSetrole (port : Fin 24) (e : Fin 8) (v : Word)
  /-- SES_USE_READ (R214): A read of SES_USE_c returns the largest budget use of the context and clears it. -/
  | sesUseRead (slot : Fin 256)
  /-- SDP_REQUEST (R223): An SDP request on UDP 15118 is answered within 50 ms with the TCP port for the requested security. -/
  | sdpRequest (n : Fin 64) (tls : Bool)
  /-- V2G_TCP_CONNECT (R223): A TCP connection on a pilot channel is accepted if the channel is matched and has none, else reset. -/
  | v2gTcpConnect (n : Fin 64) (tls : Bool)
  /-- V2G_TLS_HANDSHAKE (R230): A TLS 1.3 handshake for ISO 15118-20 runs with its PKA operations, failing with an alert and reason 8. -/
  | v2gTlsHandshake (n : Fin 64) (h : V2gHello)
  /-- V2GTP_MESSAGE (R224): A V2GTP header and payload are checked and passed to the context through the Skiver, or the connection is closed. -/
  | v2gtpMessage (n : Fin 64) (version inverse : BitVec 8) (ptype : BitVec 16) (len : Nat)
  /-- SUPPORTED_APP_PROTOCOL_REQ (R218): SupportedAppProtocol selects the highest-priority offered protocol and answers success, minor deviation or failure. -/
  | supportedAppProtocolReq (n : Fin 64) (offers : List ProtoOffer)
  /-- V2G_REQUEST (R219): A V2G request message is answered in sequence within Tr, or with FAILED_SequenceError when out of order or unsupported. -/
  | v2gRequest (n : Fin 64) (m : V2gMsg) (x : V2gVals)
  /-- AUTHORIZATION_SETUP_REQ (R227): AuthorizationSetupReq is answered with a fresh 16-byte challenge from the Tack room. -/
  | authorizationSetupReq (n : Fin 64)
  /-- AUTHORIZATION_REQ (R232): A PnC AuthorizationReq runs the chain, validity, challenge and host checks, answering Ongoing or final. -/
  | authorizationReq (n : Fin 64) (a : PncCheck)
  /-- CERTIFICATE_INSTALLATION_REQ (R233): CertificateInstallation is passed to the host and answered with the stream the host writes and accepts. -/
  | certificateInstallationReq (n : Fin 64) (stream : List Byte)
  /-- POWER_DELIVERY_START (R227): PowerDelivery start waits for the kind-0 grant, pull-in and mirror check, or answers FAILED_PowerDeliveryNotApplied. -/
  | powerDeliveryStart (n : Fin 64) (late : Bool)
  /-- ONGOING_TIME_EXPIRY (R228): The Ongoing time of a waiting request elapses and the context answers with Ongoing. -/
  | ongoingTimeExpiry (n : Fin 64)
  /-- HOST_DECISION_TIMEOUT (R228): No host decision within the host decision time and the next answer is final with the configured action. -/
  | hostDecisionTimeout (n : Fin 64)
  /-- HOST_DECISION (R229): A write of the decision entry answers the pending decision, refused with STATE if none is pending. -/
  | hostDecision (slot : Fin 256) (handle : Word) (serial : BitVec 64) (decision : BitVec 8)
  /-- V2G_SEQUENCE_TIMEOUT (R225): No next request within 60 s of the last answer ends the session with reason 8. -/
  | v2gSequenceTimeout (n : Fin 64)
  /-- V2G_SETUP_TIMEOUT (R225): No first SessionSetupReq within 20 s of MATCHED ends the session with reason 8. -/
  | v2gSetupTimeout (n : Fin 64)
  /-- SKIVER_SUBMIT (R237): A write of SKV_SUBMIT_p submits an EXI job, refused with BUSY, RANGE, ABSENT or INTEGRITY in SKV_SUBST_p. -/
  | skiverSubmit (port : Fin 24) (addr : Word)
  /-- SKIVER_COMPLETE (R238): A Skiver job completes, writes its result record and queues the completion or raises the CODEC event. -/
  | skiverComplete (tag : BitVec 16) (r : SkvResult)
  /-- SKIVER_CPL_READ (R238): A read of SKV_CPL returns and removes the oldest NOTIFY-0 completion. -/
  | skiverCplRead
  /-- AWL_JOB_COMPLETE (R95): An Awl symmetric or PKA job completes and raises its completion or error source. -/
  | awlJobComplete (pka : Bool) (ok : Bool) (slot : Option (Fin 256))
  /-- SEQUENCE_SIGNAL_CHANGE (R242): A change on SQk_PERM or SQk_PROX is accepted after equal samples and reaches the routing holder as a PILOT event. -/
  | sequenceSignalChange (k : Fin 8) (prox : Bool) (level : Bool)
  /-- VCAN_FRAME (R243): A vehicle frame 100h, 101h or 102h is received on Vk and checked, its current request published. -/
  | vcanFrame (k : Fin 8) (id : BitVec 11) (data : List Byte)
  /-- CHARGER_FRAME_PERIOD (R243): Every 100 ms the charger frames 108h and 109h are sent. -/
  | chargerFramePeriod (k : Fin 8)
  /-- VCAN_FIRST_FRAME_TIMEOUT (R243): No first 100h, 101h and 102h within 2000 ms of authorisation stops the session with reason 8. -/
  | vcanFirstFrameTimeout (k : Fin 8)
  /-- VCAN_FRAME_TIMEOUT (R244): No valid 102h for 1000 ms starts the fault stop. -/
  | vcanFrameTimeout (k : Fin 8)
  /-- ADC_OVERLOAD (R253): An autoranging channel overloads, its gain drops within 4 µs and up to 3 samples are replaced from the SAR path. -/
  | adcOverload (ch : Fin 80) (sar first : BitVec 12) (later : List (BitVec 12))
  /-- GAIN_RAISE (R255): After 2 full cycles below 40 % of the next gain's scale, the gain rises one step at the next cycle boundary. -/
  | gainRaise (ch : Fin 80)
  /-- BITSTREAM_MODFAIL (R251): A bitstream input unchanged for 64 clocks sets MODFAIL and FAULT on its elements. -/
  | bitstreamModfail (b : Fin 64)
  /-- ELEMENT_CYCLE_END (R266): An element's cycle or DC block ends, quantities are computed and its energy routed to registers, test registers or creep. -/
  | elementCycleEnd (e : Fin 128) (c : CycleRaw)
  /-- BLOCK_MODE_ENTRY (R262): An AC element with no qualifying crossing for 25 ms closes its span and enters 20 ms block mode. -/
  | blockModeEntry (e : Fin 128) (c : CycleRaw)
  /-- BLOCK_MODE_RETURN (R262): At the tenth qualifying crossing in block mode the element returns to zero-crossing cycles. -/
  | blockModeReturn (e : BlockReturn)
  /-- HARMONIC_WINDOW_END (R265): A harmonic window ends and group values and THD are computed for the channel. -/
  | harmonicWindowEnd (ch : Fin 144) (re im : List Int)
  /-- TEMPERATURE_BAND_SAMPLE (R258): Every 100 ms the sealed-die sensor is read and the temperature band moves with hysteresis. -/
  | temperatureBandSample (temp : Int)
  /-- SHADOW_CHECK_END (R273): A shadow comparison ends and moves the channel's check state, setting FAULT or retiring a shadow as due. -/
  | shadowCheckEnd (k : Fin 8) (ch : Fin 80) (x : Comparison)
  /-- PULSE_DUE (R269): A pulse output's register passes another 1/C kWh and a pulse is emitted or counted as pending. -/
  | pulseDue (k : Fin 8)
  /-- PULSE_ON_TIME_END (R269): A pulse's on time and minimum low time end and the next pending pulse may be emitted. -/
  | pulseOnTimeEnd (k : Fin 8)
  /-- SLICE_END (R268): After a power-fail warning each 1 ms slice closes as a short cycle and its energy is routed. -/
  | sliceEnd (e : Fin 128) (c : CycleRaw)
  /-- RESIDUE_UPDATE (R428): Every 100 µs after the power-fail commit the residue register is rewritten with the uncommitted energy. -/
  | residueUpdate (e : Fin 128) (c : CycleRaw)
  /-- PERIODIC_COMMIT (R427): Every 975 ms of MTK the sealed die commits registers, records, purses and calendar position with CRC. -/
  | periodicCommit
  /-- METROLOGY_READ (R277): A class 0001h request returns the last closed values of an element, channel, harmonics or point meter. -/
  | metrologyRead (rq : Rq) (kind : BitVec 8) (part : BitVec 8) (unit : BitVec 16)
  /-- SEAL_OPEN (R275): The Verifier opens the seal procedure for a channel selection, quiescing affected elements, or is refused with STATE. -/
  | sealOpen (rq : Rq) (sel : BitVec 144)
  /-- SEAL_PARAMETER_WRITE (R274): A Verifier write of a legal parameter of a selected channel is staged while the seal is open. -/
  | sealParameterWrite (rq : Rq) (idx : BitVec 16) (sub : BitVec 8) (data : List Byte)
  /-- SEAL_CLOSE_COMMIT (R275): Close with commit applies staged values at the next cycle boundaries, counts and logs the calibration and re-checks FAILED channels. -/
  | sealCloseCommit (rq : Rq) (recheckPass : BitVec 144)
  /-- SEAL_CLOSE_ABANDON (R275): Close with abandon discards staged values and logs it. -/
  | sealCloseAbandon (rq : Rq)
  /-- SEAL_TIMEOUT (R275): 3600 s after opening, the seal procedure closes with abandon. -/
  | sealTimeout
  /-- SEALED_LINK_SEND (R282): A write of MBX_SLSEND sends the staged payload with class, length and tag, status in MBX_SLSST. -/
  | sealedLinkSend (port : Fin 24) (v : Word)
  /-- SEALED_LINK_POP (R282): Any write to MBX_SLPOP removes the oldest received sealed-link message. -/
  | sealedLinkPop (port : Fin 24)
  /-- SEALED_OBJECT_READ (R283): A class 0003h to 0006h read of a 5000h–5FFFh entry returns a part of its value under the role check. -/
  | sealedObjectRead (rq : Rq) (idx : BitVec 16) (sub : BitVec 8) (off len : Nat) (serial : BitVec 64)
  /-- SEALED_OBJECT_WRITE (R283): A class 0003h to 0006h write part is staged and the value applied when its last byte arrives. -/
  | sealedObjectWrite (rq : Rq) (idx : BitVec 16) (sub : BitVec 8) (off total : Nat) (data : List Byte)
  /-- RECORD_OPEN (R297): A class 0002h open is checked in order and, if it passes, assigns the next serial and opens the record. -/
  | recordOpen (tag : Word) (p : Fin 64) (handle : Word) (method : BitVec 8) (ident : List Byte)
  /-- RECORD_CLOSE (R298): A class 0002h close moves the record to CLOSING, computes costs and issues a refund token. -/
  | recordClose (tag : Word) (p : Fin 64) (handle : Word) (serial : BitVec 64) (reason : BitVec 8)
  /-- RECORD_QUERY (R296): A class 0002h query returns a record's state and serial. -/
  | recordQuery (tag : Word) (p : Fin 64) (handle : Word) (serial : BitVec 64)
  /-- RECORD_SIGNED (R298): The record signature completes, the record is stored SIGNED and OP 4 of class 0002h is sent. -/
  | recordSigned (serial : BitVec 64)
  /-- RECORD_COLLECTION_ACK (R302): An Operator acknowledgement of collection up to a serial frees the SIGNED records it covers. -/
  | recordCollectionAck (rq : Rq) (serial : BitVec 64)
  /-- SESSION_NOTICE_PLUG (R299): A class 0009h plug notice informs the sealed die of a plug-in for the display. -/
  | sessionNoticePlug (tag : Word) (p : Fin 64) (handle : Word)
  /-- SESSION_NOTICE_AUTHORISE (R299): A class 0009h authorise notice informs the sealed die of an authorisation. -/
  | sessionNoticeAuthorise (tag : Word) (p : Fin 64) (handle : Word) (serial : BitVec 64)
  /-- SESSION_NOTICE_ENERGY_FLOW (R299): A class 0009h energy-flow notice starts the time-price basis 1. -/
  | sessionNoticeEnergyFlow (tag : Word) (p : Fin 64) (handle : Word) (serial : BitVec 64)
  /-- SESSION_NOTICE_STOP (R299): A class 0009h stop notice ends the time-price basis 1 and carries the reason. -/
  | sessionNoticeStop (tag : Word) (p : Fin 64) (handle : Word) (serial : BitVec 64) (reason : BitVec 8)
  /-- SESSION_NOTICE_METERING_CONFIRMATION (R299): A class 0009h kind-5 notice counts a metering confirmation and replaces the confirmation digest. -/
  | sessionNoticeMeteringConfirmation (tag : Word) (p : Fin 64) (handle : Word) (serial : BitVec 64) (reading : BitVec 16) (sig : List Byte)
  /-- SIGNED_READING (R301): A firmware-role read of the signed-reading entry takes and signs a new meter reading. -/
  | signedReading (rq : Rq) (slot : Fin 256) (serial : BitVec 64)
  /-- PURSE_QUERY (R311): A class 0007h OP 1 returns a point's purse unit, credit, remaining amount and refund token. -/
  | purseQuery (rq : Rq) (p : Fin 64) (serial : BitVec 64)
  /-- CALENDAR_WRITE (R287): The passive calendar is written whole and checked at its last part, becoming valid or invalid. -/
  | calendarWrite (rq : Rq) (off total : Nat) (data : List Byte)
  /-- CALENDAR_ACTIVATE_SET (R287): A write of the activation time schedules the passive calendar or activates it at once. -/
  | calendarActivateSet (rq : Rq) (sec : Nat)
  /-- CALENDAR_ACTIVATION (R287): LT reaches the activation time and the passive calendar becomes active as a tariff boundary, logged. -/
  | calendarActivation
  /-- LT_SET (R285): A target LT is set, checked against the role's step limit, logged and applied, splitting intervals and tariffs. -/
  | ltSet (rq : Rq) (target : Nat)
  /-- OFFSET_SET (R284): An Operator write of the local offset takes effect at once and is logged. -/
  | offsetSet (rq : Rq) (minutes : Int)
  /-- OFFSET_CHANGE_SCHEDULED (R289): A calendar offset change reaches its UTC instant and takes effect, logged. -/
  | offsetChangeScheduled
  /-- TARIFF_SWITCH (R291): A switching point is reached and energy from that millisecond goes to the new tariff. -/
  | tariffSwitch
  /-- DEMAND_INTERVAL_END (R290): A UTC-aligned demand interval closes, its entry enters the ring and maximum demand is updated. -/
  | demandIntervalEnd
  /-- SEALED_DIE_START (R430): The sealed die starts from its newest good commit, processes missed boundaries, closes open records with POWER and logs the start. -/
  | sealedDieStart (vbatHeld : Bool)
  /-- MAX_DEMAND_RESET (R304): A write of the maximum-demand reset clears a point's maximum demand and logs it. -/
  | maxDemandReset (rq : Rq) (p : Fin 64)
  /-- TOKEN_KEY_CHANGE (R315): A write of the token key replaces it, increments its generation and logs it. -/
  | tokenKeyChange (rq : Rq) (key : List Byte)
  /-- LEGAL_LOG_ARCHIVE (R304): A Verifier write of the archived index frees legal-log entries up to it. -/
  | legalLogArchive (rq : Rq) (idx : Nat)
  /-- PENDING_CREDIT_EXPIRY (R309): Pending credit not moved into a record within the hold time is refunded and logged as kind 16. -/
  | pendingCreditExpiry (p : Fin 64)
  /-- TOKEN_LOCKOUT_END (R308): The token-entry lockout elapses and token entry is allowed again. -/
  | tokenLockoutEnd
  /-- LEDGER_AGE_OUT (R308): A ledger TID falls below LT minutes − 576 000 and its entry is freed. -/
  | ledgerAgeOut
  /-- PANEL_ENABLE (R319): A panel enable starts the rail sequence, timing, Girth kind-6 request, clearing frames and first content frame to ON. -/
  | panelEnable (m : Fin 2) (loopOk : Bool)
  /-- PANEL_CLEAR_REQUEST_RETRY (R319): A kind-6 request refused with BUSY is made again 100 ms later. -/
  | panelClearRequestRetry (m : Fin 2)
  /-- PANEL_START_TIMEOUT (R319): No kind-6 grant within 2 s of enable sends the panel to FAILED. -/
  | panelStartTimeout (m : Fin 2)
  /-- PANEL_DISABLE (R320): Clearing a panel's enable runs the orderly stop and the panel goes through STOPPING to OFF. -/
  | panelDisable (m : Fin 2)
  /-- PANEL_FRAME_START (R324): At each frame start lines are driven or held under the ledger, changes applied, crack loop and line CRCs checked. -/
  | panelFrameStart (m : Fin 2) (mismatches : Nat) (bad : List (Fin 480))
  /-- BLINK_HALF_PERIOD (R325): Every H-th frame start the pixels of a blinking entry become due to change to the partner or back. -/
  | blinkHalfPeriod (m : Fin 2) (entry : BitVec 8)
  /-- LEGAL_REGION_REDRAW (R326): Every 250 ms of MTK the legal region is redrawn from the sealed die's values. -/
  | legalRegionRedraw (m : Fin 2)
  /-- SEAL_BORDER_ADVANCE (R326): Every 500 ms of MTK the seal-border dashes advance one pixel. -/
  | sealBorderAdvance (m : Fin 2)
  /-- LEGAL_REGION_GEOMETRY_WRITE (R326): A geometry write is checked and, on an ON panel, applied after a granted clearing pair. -/
  | legalRegionGeometryWrite (rq : Rq) (m : Fin 2) (x y w h : Nat)
  /-- OVERLAY_WRITE (R328): Class 0008h OP 1 writes a rectangle of palette indices into the overlay region. -/
  | overlayWrite (rq : Rq) (m : Fin 2) (x y w h : Nat) (data : List Byte)
  /-- OVERLAY_FILL (R328): Class 0008h OP 2 fills a rectangle of the overlay with one index. -/
  | overlayFill (rq : Rq) (m : Fin 2) (x y w h : Nat) (index : BitVec 8)
  /-- PALETTE_WRITE (R328): Class 0008h OP 3 writes overlay palette entries, SEALED for indices above 191. -/
  | paletteWrite (rq : Rq) (m : Fin 2) (first : Nat) (rgb : List (BitVec 24))
  /-- BLINK_SET (R328): Class 0008h OP 4 sets or clears blinking of a palette entry with partner and half-period. -/
  | blinkSet (rq : Rq) (m : Fin 2) (index partner : BitVec 8) (half : Nat) (enable : Bool)
  /-- TERMINAL_OBJECT_READ (R328): Class 0008h OP 5 reads a panel or keypad entry. -/
  | terminalObjectRead (rq : Rq) (idx : BitVec 16) (sub : BitVec 8)
  /-- TERMINAL_OBJECT_WRITE (R328): Class 0008h OP 6 writes a panel or keypad entry. -/
  | terminalObjectWrite (rq : Rq) (idx : BitVec 16) (sub : BitVec 8) (data : List Byte)
  /-- PANEL_STATUS_QUERY (R328): Class 0008h OP 7 returns panel state, frame counter and error counters. -/
  | panelStatusQuery (rq : Rq) (m : Fin 2)
  /-- OUT_PSQ_WRITE (R318): A port-21 write of OUT_PSQ changes the panel-sequencing latches, other masters getting a bus error. -/
  | outPsqWrite (port : Fin 24) (v : Word)
  /-- KEY_DIGIT (R332): An accepted digit key starts or extends point selection, or is appended in TOKEN. -/
  | keyDigit (d : Fin 10)
  /-- KEY_ACCEPT (R332): Key A selects the entered point or submits a 20-digit token. -/
  | keyAccept
  /-- KEY_DELETE (R332): Key B removes the last token digit. -/
  | keyDelete
  /-- KEY_CANCEL (R332): Key C cancels selection or clears the token buffer. -/
  | keyCancel
  /-- KEY_STOP (R332): Key D in SELECTED sends a stop request for the selected point. -/
  | keyStop
  /-- KEY_STAR (R332): Key * in SELECTED enters TOKEN when token entry is allowed. -/
  | keyStar
  /-- KEYPAD_ENTRY_TIMEOUT (R332): An entry idle for its timeout acts as key C. -/
  | keypadEntryTimeout
  /-- READER_PING (R334): A reader channel with its field off pings its antenna, updating the baseline or setting DETECT. -/
  | readerPing (n : Fin 16) (amp phase : Int)
  /-- READER_POLL_CYCLE (R335): With the field on, after 5.1 ms of carrier, the engine polls with WUPA/anticollision and WUPB, switching off after three empty cycles. -/
  | readerPollCycle (n : Fin 16) (cards : List CardId)
  /-- READER_MULTI_REPOLL (R336): With more than one card found, the engine polls again every 500 ms while the field is on. -/
  | readerMultiRepoll (n : Fin 16) (cards : List CardId)
  /-- READER_FIELD_IDLE (R335): A field with no exchange posted for FIELD_IDLE is switched off with FIELD_OFF. -/
  | readerFieldIdle (n : Fin 16)
  /-- READER_EXCHANGE (R337): EXCH in OUT_RDCTL_n starts an APDU exchange with the single active card. -/
  | readerExchange (n : Fin 16)
  /-- READER_ABORT (R341): ABORT ends an exchange or poll with STATUS TIMEOUT. -/
  | readerAbort (n : Fin 16)
  /-- READER_POLL (R341): POLL polls again with the field on. -/
  | readerPoll (n : Fin 16)
  /-- READER_FIELD_OFF (R341): FIELD_OFF switches the reader field off. -/
  | readerFieldOff (n : Fin 16)
  /-- READER_MODE_WRITE (R341): A write of MODE or TYPES sets the channel off, reader or emulation, ignored with CFG_ERR while the field is on. -/
  | readerModeWrite (n : Fin 16) (v : Word)
  /-- CARD_BLOCK_RECEIVE (R338): A block from the card is received, continuing the exchange or answered with R(NAK)/R(ACK) on error. -/
  | cardBlockReceive (n : Fin 16) (b : CardBlock)
  /-- CARD_FWT_EXPIRY (R338): The frame waiting time expires without a block, triggering retry, full re-exchange or INTEGRITY. -/
  | cardFwtExpiry (n : Fin 16)
  /-- READER_EXCHANGE_TIMEOUT (R337): XLIMIT passes and the exchange ends with TIMEOUT. -/
  | readerExchangeTimeout (n : Fin 16)
  /-- TAG_FIELD_ENTRY (R339): An external field is detected on an emulating channel and a fresh random UID or PUPI is drawn. -/
  | tagFieldEntry (n : Fin 16)
  /-- TAG_ACTIVATION (R339): REQA/WUPA, anticollision, RATS, REQB/WUPB or ATTRIB from the field is answered with the tag identity. -/
  | tagActivation (n : Fin 16) (c : TagAct)
  /-- TAG_SELECT (R339): A SELECT of the application or a file is answered 9000 and may open a field transaction. -/
  | tagSelect (n : Fin 16) (f : TagFile)
  /-- TAG_READ_BINARY (R339): READ BINARY returns data of the active bank's selected file, or 6B00 or 6986. -/
  | tagReadBinary (n : Fin 16) (off len : Nat)
  /-- TAG_UPDATE_BINARY (R339): UPDATE BINARY is answered 6982. -/
  | tagUpdateBinary (n : Fin 16)
  /-- TAG_OTHER_COMMAND (R340): Any other instruction or S(DESELECT) is answered and closes an open transaction. -/
  | tagOtherCommand (n : Fin 16) (deselect : Bool)
  /-- TAG_FIELD_LOSS (R340): Loss of the external field closes the open transaction. -/
  | tagFieldLoss (n : Fin 16)
  /-- TAG_TRANSACTION_IDLE (R340): 100 ms after the last response the field transaction closes and a pending swap may take place. -/
  | tagTransactionIdle (n : Fin 16)
  /-- TAG_COMMIT (R340): COMMIT sets SWAP_PENDING and the banks swap at the first moment no transaction is open. -/
  | tagCommit (k : Fin 4) (v : Word)
  /-- TAG_FORCED_SWAP (R340): 500 ms after COMMIT with a transaction still open, the banks swap before the next field command and the transaction closes. -/
  | tagForcedSwap (k : Fin 4)
  /-- OUTPUT_OFF (R345): OUT_CMD_x.OFF switches the channel off without a grant and withdraws a queued restart. -/
  | outputOff (x : Fin 96)
  /-- OUTPUT_CLEAR (R353): OUT_CMD_x.CLR moves a cooled LATCHED channel to OFF with RETRIES 0, else sets CLR_ERR. -/
  | outputClear (x : Fin 96)
  /-- OUTPUT_TEST_PULSE (R356): OUT_CMD_x.TPULSE runs an open-load test now on an ON channel of kind 0 or 1. -/
  | outputTestPulse (x : Fin 96) (sampleMv meanMa : Int)
  /-- OUTPUT_TEST_PERIOD (R356): Every TP_PER × 500 ms an ON channel is tested and the result of R357 recorded. -/
  | outputTestPeriod (x : Fin 96) (sampleMv meanMa : Int)
  /-- COIL_PULL_IN_END (R347): PULL_T elapses, the coil enters economy PWM and the end of pull-in is reported to Girth. -/
  | coilPullInEnd (n : Fin 64)
  /-- OUTPUT_CURRENT_LIMIT (R350): A channel's load reaches the current limit and the channel enters LIMIT. -/
  | outputCurrentLimit (x : Fin 96)
  /-- OUTPUT_LIMIT_EXIT (R354): The load current falls below the limit and the channel returns to PULL_IN or ON. -/
  | outputLimitExit (x : Fin 96)
  /-- OUTPUT_THERMAL_TRIP (R351): The switch reaches its thermal trip and turns off into THERM_WAIT or LATCHED. -/
  | outputThermalTrip (x : Fin 96)
  /-- OUTPUT_RESTART_LEVEL (R351): The switch cools to the restart level and Girth places a restart request, or the channel latches with cause 2. -/
  | outputRestartLevel (x : Fin 96)
  /-- OUTPUT_RESTART_RETRY (R351): 100 ms after a BUSY or ignored restart, Girth places the restart request again. -/
  | outputRestartRetry (x : Fin 96)
  /-- OUTPUT_WARNING_BAND (R355): A switch or quadrant enters or leaves a warning band, setting events and suspending or resuming test pulses. -/
  | outputWarningBand (b : BandChange)
  /-- OUTPUT_SUM_OVER (R344): The total output current has exceeded 24 A for 100 ms and OVER is set. -/
  | outputSumOver (sum : Nat)
  /-- OUTPUT_CFG_WRITE (R348): A write of OUT_CFG_x is applied if the channel is OFF or LATCHED and the economy on-time check passes, else CFG_ERR. -/
  | outputCfgWrite (x : Fin 96) (v : Word)
  /-- OUT_PROT_WRITE (R351): A write of OUT_PROT sets RUN, TEST and retry limits, latching THERM_WAIT channels when RUN clears or TEST sets. -/
  | outProtWrite (v : Word)
  /-- RC_WINDOW_END (R359): A 20 ms residual-current window ends, IDC and IAC are computed and WARN, trip or sensor fault judged. -/
  | rcWindowEnd (n : Fin 64) (meanUv : Int) (rmsUv : Nat)
  /-- RC_CLEAR (R360): IMD_RCCMD.CLR clears a trip whose last 5 windows lay below half the thresholds, else CLR_ERR. -/
  | rcClear (n : Fin 64)
  /-- RC_CFG_WRITE (R367): A write of IMD_RCCFG sets enable, thresholds and scale, ignored with CFG_ERR during a trip or out of range. -/
  | rcCfgWrite (n : Fin 64) (v : Word)
  /-- IM_HALF_PERIOD_END (R361): An injection half-period ends, the plateau is measured and a settled result moves the IM state. -/
  | imHalfPeriodEnd (k : Fin 16) (vp vn : Int) (span : Nat)
  /-- IM_ENABLE (R363): Setting EN starts injection and the channel enters SETTLING. -/
  | imEnable (k : Fin 16)
  /-- IM_DISABLE (R363): Clearing EN stops injection and the channel goes OFF, except in FAULT where CFG_ERR is set. -/
  | imDisable (k : Fin 16)
  /-- IM_PAUSE (R363): Setting PAUSE sets injection to 0 V and the channel enters PAUSED, except in FAULT. -/
  | imPause (k : Fin 16)
  /-- IM_RESUME (R363): Clearing PAUSE returns the channel to SETTLING. -/
  | imResume (k : Fin 16)
  /-- IM_CLEAR (R363): IMD_CMD.CLR clears FAULT when the last two results are at or above RWARN, else CLR_ERR. -/
  | imClear (k : Fin 16)
  /-- EARTH_FAULT_FRAME (R365): The Bridle receives an earth-fault frame and holds off the coils of the points concerned. -/
  | earthFaultFrame (u : EarthUnit)
  /-- BRIDLE_RELEASE (R373): Cantle 0 releases the loaded Bridle, which checks its configuration digest and runs, stays SAFE or runs UNSEALED. -/
  | bridleRelease (lockstepOk : Bool)
  /-- LOCKSTEP_MISMATCH (R371): The lockstep checker finds a mismatch, SAFE_N goes low, the heartbeat stops and the Bridle resets itself. -/
  | lockstepMismatch
  /-- BRIDLE_WATCHDOG_EXPIRY (R371): The Bridle watchdog expires after 5 ms without service with the same effect as a lockstep mismatch. -/
  | bridleWatchdogExpiry
  /-- BRIDLE_RESTART (R371): After its self-reset the Bridle re-verifies code and configuration and resumes its heartbeat with RESTART holds, or stays SAFE. -/
  | bridleRestart (codeOk configOk : Bool)
  /-- MIRROR_CHANGE (R377): A mirror input change is accepted and checked against the coil latch, setting WELD or DROP. -/
  | mirrorChange (p : Fin 64) (high : Bool)
  /-- MIRROR_OPEN_TIMEOUT (R377): T_OPEN after the latch went off without main open, WELD is set and the upstream release held off. -/
  | mirrorOpenTimeout (p : Fin 64)
  /-- MIRROR_CLOSE_TIMEOUT (R377): T_CLOSE after end of pull-in without main closed, NOCLOSE is set. -/
  | mirrorCloseTimeout (p : Fin 64)
  /-- TP_STUCK_REPORT (R378): A TP_STUCK report on a coil channel sets SWITCH_FAIL and holds the coil off until a cold reset. -/
  | tpStuckReport (n : Fin 64)
  /-- SAFETY_INPUT_CHANGE (R376): A safety input pair changes after filtering, stopping groups, driving devices or producing a reset edge. -/
  | safetyInputChange (n : Fin 16) (a b : Bool)
  /-- SAFETY_INPUT_DISCREPANCY (R376): The channels of a pair disagree beyond the discrepancy time and the pair goes to FAULT, treated as active. -/
  | safetyInputDiscrepancy (n : Fin 16)
  /-- DEVICE_MOTION_MONITOR (R381): Every 1 ms the Bridle checks device speed, position and SS1 limits, removing torque on violation. -/
  | deviceMotionMonitor (d : Fin 8) (m : MotionSample)
  /-- SS1_STANDSTILL (R381): Speed below standstill for 50 ms under SS1 removes torque and the device enters STOPPED. -/
  | ss1Standstill (d : Fin 8)
  /-- SS1_TIMEOUT (R381): T_SS1 elapses under SS1, torque is removed and the device enters STOPPED. -/
  | ss1Timeout (d : Fin 8)
  /-- DEVICE_MOVE_TIMEOUT (R382): T_MOVE elapses while extending or retracting and the device enters FAULT with torque removed. -/
  | deviceMoveTimeout (d : Fin 8)
  /-- STO_OFF_PULSE (R379): Every 10 s each on STO stage is switched off for 500 µs and its read-back checked. -/
  | stoOffPulse (n : Fin 8) (b : Bool) (readback : Bool)
  /-- STO_DISCREPANCY (R379): STO stages A and B disagree for 10 ms and STO fault is set with both stages held off. -/
  | stoDiscrepancy (n : Fin 8)
  /-- SAFE_MESSAGE_RECEIVE (R387): A safe-message copy is received and a complete pair is accepted, applied safe or discarded. -/
  | safeMessageReceive (n : Fin 16) (onF1 : Bool) (d : Word) (c : Byte) (x : SafeTail)
  /-- SAFE_MESSAGE_WINDOW_EXPIRY (R387): The second copy does not arrive within W and the pair is discarded and counted. -/
  | safeMessageWindowExpiry (n : Fin 16)
  /-- SAFE_MESSAGE_TIMEOUT (R387): T elapses since the last accepted pair and the governed bits take the safe value. -/
  | safeMessageTimeout (n : Fin 16)
  /-- SAFE_MESSAGE_TRANSMIT (R388): Each period the Bridle places a transmit safe message into the safe buffers of F0 and F1. -/
  | safeMessageTransmit (j : Fin 8)
  /-- SAFE_MESSAGE_READBACK_MISSING (R388): A transmitted copy not read back within 20 ms is counted and noted. -/
  | safeMessageReadbackMissing (j : Fin 8) (onF1 : Bool)
  /-- PILOT_RELEASE (R389): Safe message PILOT_RELEASE with the right challenge releases a pilot hold no sooner than 1000 ms after acceptance. -/
  | pilotRelease (unit : BitVec 8) (chal : BitVec 16) (tag : Word)
  /-- EARTH_RELEASE (R389): Safe message EARTH_RELEASE releases an EARTH hold once the trip or fault is cleared. -/
  | earthRelease (unit : BitVec 8) (chal : BitVec 16) (tag : Word)
  /-- CURRENT (R389): Safe message CURRENT reports the metered current for step 3 of the orderly shutdown. -/
  | current (unit : BitVec 8) (ma : Word) (tag : Word)
  /-- STOP_REQ (R389): Safe message STOP_REQ stops a group or a device without latching. -/
  | stopReq (unit : BitVec 8) (tag : Word)
  /-- MOTION_REQ (R382): Safe message MOTION_REQ extends or retracts a device when its conditions hold, else STATE. -/
  | motionReq (unit : BitVec 8) (dir : Word) (tag : Word)
  /-- HOLD_RELEASE (R389): Safe message HOLD_RELEASE releases NOCLOSE, DROP or RESTART holds on a point. -/
  | holdRelease (unit : BitVec 8) (chal : BitVec 16) (tag : Word)
  /-- NOTE_ACK (R389): Safe message NOTE_ACK acknowledges notices up to a sequence number and clears OVERRUN. -/
  | noteAck (seq : Word) (tag : Word)
  /-- UNKNOWN_SAFE_MESSAGE (R389): A firmware safe message of another type is answered RANGE. -/
  | unknownSafeMessage (ty : BitVec 8) (tag : Word)
  /-- MARCH_TEST (R392): The Bridle's background March test covers its data memory every 60 s and enters the safe state on failure. -/
  | marchTest (pass : Bool)
  /-- BRIDLE_CODE_CHECK (R392): Every 10 s the Bridle checks its code region against the load measurement. -/
  | bridleCodeCheck (pass : Bool)
  /-- INPUT_PATH_TEST (R392): Every 1 s per input an internal pull-down tests the MIR and SI input paths. -/
  | inputPathTest (u : PathUnit) (pass : Bool)
  /-- GENERATE (R408): Tack-room GENERATE creates a key in a slot with the given attributes. -/
  | generate (slot : BitVec 8) (attr : Word)
  /-- IMPORT (R408): Tack-room IMPORT loads a certificate, anchor or wrapped key into a slot. -/
  | importKey (slot : BitVec 8) (attr : Word) (addr len : Nat) (role : Role) (unwrapOk : Bool)
  /-- DERIVE (R408): Tack-room DERIVE derives a child key from a parent slot. -/
  | derive (slot : BitVec 8) (parent : BitVec 8) (labelAddr labelLen : Nat) (attr : Word)
  /-- DELETE (R408): Tack-room DELETE empties a slot, orphaning its children. -/
  | delete (slot : BitVec 8) (role : Role)
  /-- PUBLIC (R408): Tack-room PUBLIC returns a slot's public key or certificate. -/
  | publicKey (slot : BitVec 8) (addr : Word)
  /-- SIGN (R408): Tack-room SIGN signs a digest with a slot's key through Awl. -/
  | sign (slot : BitVec 8) (addr : Word)
  /-- VERIFY (R408): Tack-room VERIFY checks a signature with a slot's key through Awl. -/
  | verify (slot : BitVec 8) (addr : Word) (good : Bool)
  /-- AGREE (R408): Tack-room AGREE runs a key agreement with a peer key through Awl. -/
  | agree (slot : BitVec 8) (addr : Word)
  /-- MEASURE (R73): Tack-room MEASURE extends a measurement register with an engine's code and sets its LOADED flag. -/
  | measure (unit : BitVec 8) (addr len : Nat)
  /-- SUCCESSOR (R413): Tack-room SUCCESSOR derives successor keys from the manifest and re-wraps BIND-1 slots into the wrap set not in use. -/
  | successor (addr : Word)
  /-- CONFIRM (R419): Tack-room CONFIRM, when all trial conditions hold, installs the new manifest, stops the trial, raises SVN and revokes roots. -/
  | confirm
  /-- RANDOM (R408): Tack-room RANDOM writes up to 256 random bytes to a buffer. -/
  | random (addr : Word) (len : Nat)
  /-- FUSE (R397): Tack-room FUSE programs a permitted fuse field under Girth kind 10, re-wrapping slots first for debug-off bits. -/
  | fuse (field : FuseField) (v : BitVec 384)
  /-- DECOMMISSION (R397): Operator and Verifier writes of the decommission code within 600 s set DECOM, after which secret-key operations are refused. -/
  | decommission (role : Role) (v : Word)
  /-- MANIFEST_ACCEPT (R412): A manifest written to 7040h.01 is checked in order and, if accepted, the update prepares its successor keys and journal. -/
  | manifestAccept (role : Role) (latigo : Bool) (m : Manifest)
  /-- UPDATE_BLOCK (R414): A delivered image block is checked, saved to its journal slot, programmed and verified, or the update rolls back. -/
  | updateBlock (b : BlockData)
  /-- UPDATE_ABANDON (R416): A write of 1 to 7040h.05 abandons or rejects the update and starts the rollback. -/
  | updateAbandon (v : BitVec 8)
  /-- HANDOVER (R416): A write of 1 to 7040h.0A in WRITTEN logs TRIAL and makes an application reset into the new image. -/
  | handover (v : BitVec 8)
  /-- LDR_TRIAL_START (R417): START in LDR_TRIAL starts the trial countdown from REMAIN. -/
  | ldrTrialStart (v : Word)
  /-- LDR_TRIAL_STOP (R419): STOP in LDR_TRIAL stops the trial countdown. -/
  | ldrTrialStop (v : Word)
  /-- TRIAL_EXPIRY (R417): The trial countdown reaches 0, sets EXPIRED and starts an application reset that leads to rollback. -/
  | trialExpiry
  /-- ETHERNET_LINK_CHANGE (R107): An Ethernet port's link changes and raises its link-change source. -/
  | ethernetLinkChange (port : Fin 2) (up : Bool)
  /-- GPIO_EDGE (R107): An edge on a GPIO raises the Buckle source of its group. -/
  | gpioEdge (n : Fin 32)
  /-- PLL_P_RELOCK (R66): PLL_P regains lock by itself, the common 25 MHz counter runs again and the ports may be restarted by firmware. -/
  | pllPRelock
  /-- VANA_RELEASE (R50): VANA rises above its release level and Green PHY transmit is no longer disabled, so channels can be started again. -/
  | vanaRelease
  /-- VDRV_RELEASE (R50): VDRV rises above its release level and reader fields and line drivers may be switched on again. -/
  | vdrvRelease
  /-- CAN_ERROR_PASSIVE (R135): A field port's error counters reach error passive and EMCY 8120h is produced. -/
  | canErrorPassive (f : Fin 2)
  /-- APP_LANE_EVENT_FRAME (R444): A frame from the power die arrives at the control-die endpoint of the application lane and is queued toward the Buckle, or discarded with a repetition request on a CRC error, setting the fault flag after 3 in a row. -/
  | appLaneEventFrame (crcOk : Bool) (src : Fin 512)
  /-- RETRY_WINDOW_EXPIRY (R352): A restart ages out of the last RETRY_WIN seconds and RETRIES falls by one for a channel not LATCHED. -/
  | retryWindowExpiry (x : Fin 96)
  deriving DecidableEq, Repr

end Sys2Proof
end

