-- ==== Sys2Proof/Machine/Operands.lean ====
section
/-!
DEFINITION. Register words and their fields: reading a field, composing a word, and what a write does to
a field under each access code of R7; little-endian bytes (R6); status codes (R13).
-/
set_option Elab.async false
namespace Sys2Proof.Machine

/-- Field of `n` bits from bit `lo`. -/
def fld (w : Word) (lo n : Nat) : Nat := w.toNat / 2 ^ lo % 2 ^ n

/-- Bit `i`. -/
def bit (w : Word) (i : Nat) : Bool := w.getLsbD i

/-- The number of a Boolean. -/
def b2n (b : Bool) : Nat := if b then 1 else 0

/-- A word composed of fields, each a value and its lowest bit. Values are placed as they are. -/
def pack : List (Nat × Nat) → Word
  | [] => 0
  | (v, lo) :: r => (BitVec.ofNat 32 v <<< lo) ||| pack r

/-- `n` ones from bit `lo`. -/
def mask (lo n : Nat) : Word := BitVec.ofNat 32 ((2 ^ n - 1) * 2 ^ lo)

/-- A write under RW: the bits of `m` are taken, the rest stay. -/
def wRW (m old v : Word) : Word := (old &&& ~~~m) ||| (v &&& m)

/-- A write under W1C: a 1 clears the bit. -/
def wW1C (m old v : Word) : Word := old &&& ~~~(v &&& m)

/-- A write under W1S: a 1 sets the bit. -/
def wW1S (m old v : Word) : Word := old ||| (v &&& m)

/-- A write under RWL: RW until the lock bit is set, then ignored. -/
def wRWL (lock : Bool) (m old v : Word) : Word := if lock then old else wRW m old v

/-- Replacing the field of `n` bits from `lo` by `v`. -/
def putFld (w : Word) (lo n v : Nat) : Word := wRW (mask lo n) w (BitVec.ofNat 32 v <<< lo)

/-- `v` lies in the range `lo` to `hi`. -/
def within (lo v hi : Nat) : Bool := decide (lo ≤ v) && decide (v ≤ hi)

/-- Two's complement of `n` bits. -/
def ofInt (n : Nat) (i : Int) : Nat := (i % (2 ^ n : Int)).toNat

/-- The integer a two's-complement field of `n` bits shows. -/
def toInt (n : Nat) (v : Nat) : Int := if v < 2 ^ (n - 1) then v else (v : Int) - (2 ^ n : Int)

/-- Clamping an integer into a range, for a register field of limited width. -/
def clampInt (lo hi i : Int) : Int := max lo (min hi i)

/-- Little-endian bytes of a number (R6). -/
def toLE : Nat → Nat → List Byte
  | 0, _ => []
  | n + 1, v => BitVec.ofNat 8 v :: toLE n (v / 256)

/-- The number of little-endian bytes (R6). -/
def ofLE : List Byte → Nat
  | [] => 0
  | b :: r => b.toNat + 256 * ofLE r

/-- The integer of little-endian bytes in two's complement. -/
def intLE (l : List Byte) : Int := toInt (8 * l.length) (ofLE l)

/-- One bit of the CRC-32 of IEEE 802.3, reflected. -/
def crc32Bit (c : Word) : Word := if c.getLsbD 0 then (c >>> 1) ^^^ 0xEDB88320#32 else c >>> 1

/-- One byte of it. -/
def crc32Byte (c : Word) (b : Byte) : Word := Nat.rec (c ^^^ b.setWidth 32) (fun _ x => crc32Bit x) 8

/-- CRC-32 of IEEE 802.3 over bytes (R130, R288). -/
def crc32 (d : List Byte) : Word := ~~~(d.foldl crc32Byte 0xFFFFFFFF#32)

/-- One bit of the CRC-16 of polynomial 1021h, not reflected. -/
def crc16Bit (c : BitVec 16) : BitVec 16 := if c.getLsbD 15 then (c <<< 1) ^^^ 0x1021#16 else c <<< 1

/-- One byte of it. -/
def crc16Byte (c : BitVec 16) (b : Byte) : BitVec 16 := Nat.rec (c ^^^ (b.setWidth 16 <<< 8)) (fun _ x => crc16Bit x) 8

/-- CRC-16, polynomial 1021h, from an initial value, no final XOR (R386). -/
def crc16 (seed : BitVec 16) (d : List Byte) : BitVec 16 := d.foldl crc16Byte seed

/-- Quotient rounded half away from zero (R292). -/
def divRound (a : Int) (b : Nat) : Int :=
  let q : Int := ((2 * a.natAbs + b) / (2 * b) : Nat)
  if a < 0 then -q else q

/-- The power of two of the binary32 exponent of n / d, by search downward from 127. -/
def real32Exp (n d : Nat) : Nat → Int → Int
  | 0, e => e
  | f + 1, e =>
    let fits := if 0 ≤ e then decide (d * 2 ^ e.toNat ≤ n) else decide (d ≤ n * 2 ^ (-e).toNat)
    if fits then e else real32Exp n d f (e - 1)

/-- REAL32, IEEE 754 binary32, nearest even, of the quotient i / d (R122). -/
def real32 (i : Int) (d : Nat) : Word :=
  let n := i.natAbs
  if n = 0 || d = 0 then 0
  else
    let e := max (-126) (real32Exp n d 254 127)
    let num := if 23 - e ≥ 0 then n * 2 ^ (23 - e).toNat else n
    let den := if 23 - e ≥ 0 then d else d * 2 ^ (e - 23).toNat
    let q := num / den
    let r := num % den
    let m := if 2 * r > den || (2 * r = den && q % 2 = 1) then q + 1 else q
    let m' := if m < 2 ^ 23 then m else ((e + 126).toNat * 2 ^ 23 + m)
    BitVec.ofNat 32 m' ||| (if i < 0 then 0x80000000#32 else 0#32)

/-- Status codes of R13. -/
def statusCode : Status → Nat
  | .ok => 0 | .busy => 1 | .denied => 2 | .range => 3 | .state => 4 | .sealed => 5
  | .timeout => 6 | .integrity => 7 | .absent => 8 | .stale => 9 | .limit => 10

/-- Role bytes of R283: the roles of R12 in their order, and FFh for firmware. -/
def roleCode : Role → Nat
  | .pub => 0 | .customer => 1 | .operator => 2 | .service => 3 | .verifier => 4
  | .manufacturer => 5 | .firmware => 255

end Sys2Proof.Machine
end

