-- ==== Sys2Proof/Machine/Calendar.lean ====
section
/-!
DEFINITION. Calendars (12 R287 to R289): the layout, the checks at the last part, and the tariff a
calendar gives at an instant.
-/
set_option Elab.async false
namespace Sys2Proof.Machine

/-- A little-endian number in a calendar. -/
def calNum (c : List Byte) (off n : Nat) : Nat := ofLE ((c.drop off).take n)

/-- A signed little-endian number in a calendar. -/
def calInt (c : List Byte) (off n : Nat) : Int := toInt (8 * n) (calNum c off n)

/-- The counts T, D, W, S, X, Z of the header (R288). -/
def calT (c : List Byte) : Nat := calNum c 15 1
def calD (c : List Byte) : Nat := calNum c 16 1
def calW (c : List Byte) : Nat := calNum c 17 1
def calS (c : List Byte) : Nat := calNum c 18 1
def calX (c : List Byte) : Nat := calNum c 19 1
def calZ (c : List Byte) : Nat := calNum c 20 1

/-- Where the blocks lie (R288). -/
def calDays (c : List Byte) : Nat := 32 + 64 * calT c
def calWeeks (c : List Byte) : Nat := calDays c + 52 * calD c
def calSeasons (c : List Byte) : Nat := calWeeks c + 8 * calW c
def calSpecial (c : List Byte) : Nat := calSeasons c + 4 * calS c
def calOffsets (c : List Byte) : Nat := calSpecial c + 8 * calX c
def calLen (c : List Byte) : Nat := calOffsets c + 12 * calZ c

/-- The first of a block's entries whose first byte is `id`. -/
def calFind (c : List Byte) (base size n id : Nat) : Option Nat :=
  ((List.range n).map fun k => base + size * k).find? fun o => calNum c o 1 = id

/-- Days in a month; 29 for February. -/
def monthDays (m : Nat) : Nat :=
  if m = 2 then 29 else if m = 4 || m = 6 || m = 9 || m = 11 then 30 else 31

/-- A month and a day of it. -/
def dateOk (m d : Nat) : Bool := within 1 m 12 && within 1 d (monthDays m)

/-- No number occurs twice. -/
def noRepeats (l : List Nat) : Bool := decide l.Nodup

/-- Numbers rise strictly. -/
def rises : List Nat → Bool
  | a :: b :: r => decide (a < b) && rises (b :: r)
  | _ => true

/-- The switching points of a day profile at offset `o`: minute and tariff. -/
def dayPoints (c : List Byte) (o : Nat) : List (Nat × Nat) :=
  (List.range (calNum c (o + 1) 1)).map fun k => (calNum c (o + 4 + 4 * k) 2, calNum c (o + 6 + 4 * k) 1)

/-- A day profile passes R287. -/
def dayOk (c : List Byte) (o : Nat) : Bool :=
  let p := dayPoints c o
  within 1 (calNum c (o + 1) 1) 12 && (p.map (·.1)).head? = some 0 && rises (p.map (·.1)) &&
    p.all fun x => decide (x.1 ≤ 1439) && decide (x.2 < calT c)

/-- The checks at the last part (R287). -/
def calendarOk (c : List Byte) : Bool :=
  let days := (List.range (calD c)).map fun k => calDays c + 52 * k
  let weeks := (List.range (calW c)).map fun k => calWeeks c + 8 * k
  let seas := (List.range (calS c)).map fun k => calSeasons c + 4 * k
  let spec := (List.range (calX c)).map fun k => calSpecial c + 8 * k
  let isDay := fun i => days.any fun o => calNum c o 1 = i
  calNum c 0 4 = 0x4C43584B && decide (c.length ≤ 3712) && c.length = calLen c && calNum c 24 4 = c.length &&
  calNum c 28 4 = (crc32 (c.take 28 ++ toLE 4 0 ++ c.drop 32)).toNat &&
  decide (calNum c 14 1 ≤ 1) && within 1 (calT c) 16 && within 1 (calD c) 32 && within 1 (calW c) 8 &&
  within 1 (calS c) 8 && decide (calX c ≤ 64) && decide (calZ c ≤ 32) &&
  noRepeats (days.map fun o => calNum c o 1) && days.all (dayOk c) &&
  noRepeats (weeks.map fun o => calNum c o 1) &&
  weeks.all (fun o => (List.range 7).all fun k => isDay (calNum c (o + 1 + k) 1)) &&
  seas.all (fun o => dateOk (calNum c o 1) (calNum c (o + 1) 1) &&
    weeks.any fun w => calNum c w 1 = calNum c (o + 2) 1) &&
  rises (seas.map fun o => 100 * calNum c o 1 + calNum c (o + 1) 1) &&
  spec.all fun o => isDay (calNum c (o + 4) 1)

/-- Year, month and day of a day number since 1970-01-01. -/
def civil (days : Nat) : Nat × Nat × Nat :=
  let z := days + 719468
  let era := z / 146097
  let doe := z % 146097
  let yoe := (doe - doe / 1460 + doe / 36524 - doe / 146096) / 365
  let doy := doe - (365 * yoe + yoe / 4 - yoe / 100)
  let mp := (5 * doy + 2) / 153
  let d := doy - (153 * mp + 2) / 5 + 1
  let m := if mp < 10 then mp + 3 else mp - 9
  (yoe + era * 400 + (if m ≤ 2 then 1 else 0), m, d)

/-- The day profile of a day (R289): a dated special day, a yearly one, else the week profile's entry. -/
def dayProfile (c : List Byte) (days : Nat) : Nat :=
  let (y, m, d) := civil days
  let spec := ((List.range (calX c)).map fun k => calSpecial c + 8 * k).filter fun o =>
    calNum c (o + 2) 1 = m && calNum c (o + 3) 1 = d
  let pick := (spec.find? fun o => calNum c o 2 = y).orElse fun _ => spec.find? fun o => calNum c o 2 = 0xFFFF
  match pick with
  | some o => calNum c (o + 4) 1
  | none =>
    let seas := (List.range (calS c)).map fun k => calSeasons c + 4 * k
    let key := fun o => 100 * calNum c o 1 + calNum c (o + 1) 1
    let o := (((seas.filter fun o => decide (key o ≤ 100 * m + d)).getLast?).orElse fun _ => seas.getLast?).getD 0
    match calFind c (calWeeks c) 8 (calW c) (calNum c (o + 2) 1) with
    | some w => calNum c (w + 1 + (days + 3) % 7) 1
    | none => 0

/-- Local time of an LT, in ms (R284). -/
def localMs (lt : Nat) (offset : Int) : Nat := ((lt : Int) + offset * 60000).toNat

/-- The tariff a calendar gives at LT (R289); 0 without a calendar. -/
def calTariff (c : List Byte) (lt : Nat) (offset : Int) : Nat :=
  if c.isEmpty then 0
  else
    let t := localMs lt offset
    let minute := t / 60000 % 1440
    match calFind c (calDays c) 52 (calD c) (dayProfile c (t / 86400000)) with
    | none => 0
    | some o => ((((dayPoints c o).filter fun p => decide (p.1 ≤ minute)).getLast?).map (·.2)).getD 0

/-- Import price, export price, time price and session fee of a tariff and price group (R288). -/
def calPrice (c : List Byte) (t g k : Nat) : Int :=
  if c.isEmpty || decide (calT c ≤ t) then 0 else calInt c (32 + 64 * t + 16 * g + 4 * k) 4

/-- Offset changes: UTC s and the new offset (R288). -/
def calChanges (c : List Byte) : List (Nat × Int) :=
  if c.isEmpty then [] else
    (List.range (calZ c)).map fun k => (calNum c (calOffsets c + 12 * k) 8, calInt c (calOffsets c + 12 * k + 8) 2)

end Sys2Proof.Machine
end

