-- ==== Sys2Proof/Config.lean ====
section
/-!
DEFINITION. What the manual leaves open or takes from a published algorithm whose result no statement
of the model needs: constants with no body, so that no proof can rest on a value.
-/
set_option Elab.async false
namespace Sys2Proof.Config

/-- A free value of width `w` (assumption 1): the `n`-th value the manual does not state. -/
opaque freeValue (n w : Nat) : BitVec w

/-- A free count or number (assumption 1). -/
opaque freeNat (n : Nat) : Nat

/-- SHA-384 of a byte string, as published (R373, R404). -/
opaque sha384 (data : List Byte) : BitVec 384

/-- HMAC-SHA-384 and the key derivations built on it (R28, R401). -/
opaque hmac384 (key data : List Byte) : BitVec 384

/-- An ECDSA signature on P-384 over a digest under a key, as r and s (R300, R301, R408). -/
opaque ecdsaSign (key : BitVec 384) (digest : BitVec 384) : BitVec 768

/-- The SHA-2 and SHAKE digests of R238 over a byte string. -/
opaque digest (kind : Nat) (data : List Byte) : BitVec 512

/-- The CRC polynomials of external formats, over a byte string (R274, R386). -/
opaque crc (kind : Nat) (data : List Byte) : Word

/-- A contents byte of the mask boot ROM (R104): fixed at manufacture, not given in the manual. -/
opaque bootRom (addr : Nat) : Byte

/-- The quadrant sensor near output channel x (R57): the manual does not place the channels. -/
opaque quadrantOf (x : Nat) : Nat

/-- The stepping of the part: true for A0, false for B0 (R2, R100). -/
opaque stepping : Bool

/-- The version string of the Cantle image of a build (R133). -/
opaque imageVersion (build : Word) : List Byte

/-- The 52 bits of a HomePlug network identifier that are derived from an NMK (08 R181): the derivation is HomePlug's and is not
in the manual. -/
opaque nidOffset (nmk : BitVec 128) : BitVec 52

/-- Sample `n` of a channel delayed by `d` 1/1024 of a sample period (11 R260): the fractional-delay filter is not given. -/
opaque delayed (d : Int) (x : List Int) (n : Nat) : Int

/-- Sample `n` of the voltage passed through the Hilbert filter (11 R264), whose 255 taps are not given. -/
opaque hilbert (v : List Int) (n : Nat) : Int

/-- The factor that a sensor ratio of no finite value would be (11 R260): the manual states none. -/
opaque nonFinite (w : Word) : Int

end Sys2Proof.Config
end

