-- ==== Sys2Proof/Machine/Flags.lean ====
section
/-!
DEFINITION. Counters and event bits: counts that stick or wrap (R423), and event bits set by an event
and cleared by a 1 (R7).
-/
set_option Elab.async false
namespace Sys2Proof.Machine

/-- A count that sticks at `top` (R423). -/
def stick (top n k : Nat) : Nat := min top (n + k)

/-- A count of 16 bits that wraps to 0 (R423). -/
def wrap16 (n : Nat) : Nat := (n + 1) % 65536

/-- An identifier of 16 bits that wraps from FFFFh to 0001h (R425, R90). -/
def wrap16From1 (n : Nat) : Nat := if n ≥ 65535 then 1 else n + 1

/-- An 8-bit counter 1 to 255 whose 255 is followed by 1 (R386). -/
def succ8 (c : BitVec 8) : BitVec 8 := if c = 255 then 1 else c + 1

/-- The event word with bit `i` set. -/
def setEvt (w : Word) (i : Nat) : Word := w ||| (1#32 <<< i)

/-- The bits of a mask, as numbers. -/
def bitsOf {w : Nat} (m : BitVec w) : List Nat := (List.range w).filter (fun i => m.getLsbD i)

/-- Setting or clearing bit `i` of a mask. -/
def putBit {w : Nat} (m : BitVec w) (i : Nat) (b : Bool) : BitVec w :=
  if b then m ||| (1#w <<< i) else m &&& ~~~(1#w <<< i)

end Sys2Proof.Machine
end

