-- ==== Sys2Proof/Machine/Bank.lean ====
section
/-!
DEFINITION. `Bank α`: a fixed number of like things (a register file, a memory, a table) as plain data.
An unlisted index reads as `dflt`; the list is kept in one canonical form (indices strictly rising, no
listed entry equal to `dflt`), so equal banks are equal data.
-/
set_option Elab.async false
namespace Sys2Proof.Machine

/-- A table of like things by number. -/
structure Bank (α : Type) where
  dflt : α
  cells : List (Nat × α) := []
  deriving DecidableEq, Repr

/-- The entry listed at `k`, if any. -/
def cellFind {α : Type} (k : Nat) : List (Nat × α) → Option α
  | [] => none
  | (j, v) :: r => if j = k then some v else cellFind k r

/-- The list with `v` at `k`, in its place by rising index. -/
def cellPut {α : Type} (k : Nat) (v : α) : List (Nat × α) → List (Nat × α)
  | [] => [(k, v)]
  | (j, w) :: r =>
    if k < j then (k, v) :: (j, w) :: r
    else if j = k then (k, v) :: r
    else (j, w) :: cellPut k v r

/-- The list without the entry at `k`. -/
def cellDrop {α : Type} (k : Nat) : List (Nat × α) → List (Nat × α)
  | [] => []
  | (j, w) :: r => if j = k then cellDrop k r else (j, w) :: cellDrop k r

/-- Reading the entry at `k`. -/
def Bank.get {α : Type} (b : Bank α) (k : Nat) : α := (cellFind k b.cells).getD b.dflt

/-- Writing the entry at `k`; writing the default removes the listed entry. -/
def Bank.set {α : Type} [DecidableEq α] (b : Bank α) (k : Nat) (v : α) : Bank α :=
  if v = b.dflt then { b with cells := cellDrop k b.cells }
  else { b with cells := cellPut k v b.cells }

/-- Changing the entry at `k` by `f`. -/
def Bank.upd {α : Type} [DecidableEq α] (b : Bank α) (k : Nat) (f : α → α) : Bank α :=
  b.set k (f (b.get k))

/-- Changing the entries of a list of indices. -/
def Bank.updAll {α : Type} [DecidableEq α] (b : Bank α) (ks : List Nat) (f : Nat → α → α) : Bank α :=
  ks.foldl (fun b k => b.upd k (f k)) b

/-- Changing the entries 0 to n − 1. -/
def Bank.updRange {α : Type} [DecidableEq α] (b : Bank α) (n : Nat) (f : Nat → α → α) : Bank α :=
  b.updAll (List.range n) f

/-- The listed indices rise strictly from `lo` on. -/
def cellsSorted {α : Type} : Nat → List (Nat × α) → Bool
  | _, [] => true
  | lo, (j, _) :: r => decide (lo ≤ j) && cellsSorted (j + 1) r

/-- The canonical form. -/
def Bank.wf {α : Type} [DecidableEq α] (b : Bank α) : Bool :=
  cellsSorted 0 b.cells && b.cells.all (fun c => decide (c.2 ≠ b.dflt))

end Sys2Proof.Machine
end

