-- ==== Sys2Proof/Machine/StateControl.lean ====
section
/-!
DEFINITION. State of the control die's cores and shared blocks: harts, Buckle, mailboxes, performance
counters, Harness, Girth, clock and reset block, and the two ends of the sealed link. Field comments give
the width, the file and rule that name the field, and its reset value.
-/
set_option Elab.async false
namespace Sys2Proof.Machine

/-- One hart (05 R99 to R102). -/
structure Hart where
  /-- 64 bit (32 on RV32 cores); 05 R99; reset DESIGN CHOICE 0 (log 4). -/
  pc : Dword := 0
  /-- x1 to x31, 64 bit each; 05 R99; reset DESIGN CHOICE 0 (log 4). -/
  x : Bank Dword := ⟨0, []⟩
  /-- f0 to f31, 64 bit each, Cantle only; 05 R99; reset DESIGN CHOICE 0 (log 4). -/
  f : Bank Dword := ⟨0, []⟩
  /-- privilege mode 0 U, 1 S, 3 M, 2 bit; 05 R99; reset 3, PRESUMED published (log 4). -/
  priv : Nat := 3
  /-- CSRs by number, 64 bit each; 05 R99 to R102; reset PRESUMED 0 (log 4). -/
  csr : Bank Dword := ⟨0, []⟩
  /-- reservation of LR, an address; 05 R99; reset none, PRESUMED (log 4). -/
  resv : Option Nat := none
  /-- asleep in WFI, 1 bit; 05 R113; reset 0. -/
  wfi : Bool := false
  /-- halted by the debug module, 1 bit; 05 R103; reset 0. -/
  halted : Bool := false
  deriving DecidableEq, Repr

/-- One Buckle source, BKL_SRC_s (05 R108, R109). -/
structure BklSrc where
  /-- 1 bit; 05 R109; reset 0. -/
  insvc : Bool := false
  /-- 1 bit; 05 R108; reset 0. -/
  ovr : Bool := false
  /-- pending latch of an edge source, 1 bit; 05 R108; reset 0. -/
  latch : Bool := false
  /-- synchronised level of a level source, 1 bit; 05 R108; reset 0. -/
  lvl : Bool := false
  /-- 5 bit; 05 R109; reset 0. -/
  target : Nat := 0
  /-- 1 bit; 05 R113; reset 0. -/
  wake : Bool := false
  /-- 2 bit; 05 R109; reset 0. -/
  level : Nat := 0
  /-- sleep latch, 1 bit; 05 R113; reset 0. -/
  slp : Bool := false
  deriving DecidableEq, Repr

/-- The level sources asserted at reset: the mailboxes are empty, so "not full" (05 R107). -/
def notFullSources : List Nat :=
  [404, 405, 406, 407, 408, 409, 410, 411, 412, 413, 414, 415, 416, 417, 418, 419, 420, 421, 422, 423,
   432, 433, 434, 435, 436, 437, 438, 439]

/-- The Buckle (05 R106 to R114). -/
structure Buckle where
  /-- BKL_CFG.LOCK, 1 bit; 05 Buckle registers; reset 0. -/
  lock : Bool := false
  /-- BKL_CFG.CFG_ERR, 1 bit; 05 Buckle registers; reset 0. -/
  cfgErr : Bool := false
  /-- BKL_CFG.GUARD, 1 bit; 05 R111; reset 0. -/
  guard : Bool := false
  /-- BKL_CFG.MODE, 1 bit, 1 KX7064; 05 R110; reset 0. -/
  kx : Bool := false
  /-- sources 1 to 511; 05 R107; reset as BklSrc, with the levels of the empty mailboxes. -/
  src : Bank BklSrc := ⟨{}, notFullSources.map fun n => (n, { lvl := true })⟩
  /-- BKL_THR_t, 18 × 2 bit; 05 R109; reset 0. -/
  thr : Bank Nat := ⟨0, []⟩
  /-- last non-zero source returned by BKL_C_VEC_t, 18 × 9 bit; 05 R110; reset 0. -/
  vec : Bank Nat := ⟨0, []⟩
  /-- last read of BKL_C_PEND_k by each port, 24 × 16 × 32 bit (index 16 × port + k); 05 R111; reset 0. -/
  lastRead : Bank Word := ⟨0, []⟩
  deriving DecidableEq, Repr

/-- A pair mailbox (05 R115). -/
structure PairMbx where
  /-- words 0 to 6 written so far, 32 bit each; 05 R115; reset 0. -/
  staged : Bank Word := ⟨0, []⟩
  /-- up to 8 messages of 8 words; 05 R115; reset empty. -/
  queue : List (List Word) := []
  /-- 16 bit, wraps; 05 R115; reset 0. -/
  seq : Nat := 0
  /-- 1 bit; 05 R115; reset 0. -/
  busErr : Bool := false
  /-- MBX_PCFG_m.CANTLE, 2 bit; 05 R115; reset 0. -/
  cantle : Nat := 0
  deriving DecidableEq, Repr

/-- A hub mailbox (05 R116, R117). -/
structure HubMbx where
  /-- words 0 to 14 written so far, 32 bit each; 05 R116; reset 0. -/
  staged : Bank Word := ⟨0, []⟩
  /-- up to 32 messages of 16 words; 05 R116; reset empty. -/
  queue : List (List Word) := []
  /-- 16 bit, wraps; 05 R116; reset 0. -/
  seq : Nat := 0
  /-- lock and its holder, 1 + 8 bit; 05 R116; reset unlocked. -/
  holder : Option Nat := none
  /-- 1 bit; 05 R117; reset 0. -/
  timeout : Bool := false
  /-- MBX_HCFG_h.READER, 5 bit; 05 R116; reset 0. -/
  reader : Nat := 0
  deriving DecidableEq, Repr

/-- The mailbox block (05 R115 to R117). -/
structure Mailboxes where
  /-- 20 pair mailboxes; 05 R115; reset as PairMbx. -/
  pair : Bank PairMbx := ⟨{}, []⟩
  /-- 8 hub mailboxes; 05 R116; reset as HubMbx. -/
  hub : Bank HubMbx := ⟨{}, []⟩
  /-- MBX_CTRL.LOCK, 1 bit; 05 R116; reset 0. -/
  lock : Bool := false
  /-- MBX_CTRL.DROPPED, 16 bit, sticks; 05 R116; reset 0. -/
  dropped : Nat := 0
  deriving DecidableEq, Repr

/-- PMC_SEL_i (05 R118, R120). -/
structure PmcSel where
  /-- 1 bit; 05 R118; reset 0. -/
  chain : Bool := false
  /-- 1 bit; 05 R118; reset 0. -/
  ovf : Bool := false
  /-- 8 bit; 05 R120; reset 0. -/
  group : Nat := 0
  /-- 8 bit; 05 R120; reset 0. -/
  index : Nat := 0
  deriving DecidableEq, Repr

/-- The performance counters (05 R118 to R120). -/
structure Pmc where
  /-- PMC_CNT_i, 128 × 32 bit; 05 R118; reset 0. -/
  cnt : Bank Nat := ⟨0, []⟩
  /-- PMC_SEL_i, 128 × 32 bit; 05 R118; reset 0. -/
  sel : Bank PmcSel := ⟨{}, []⟩
  /-- PMC_SNAP.TAKEN, 16 bit, wraps; 05 R119; reset 0. -/
  taken : Nat := 0
  /-- PMC_SNAPV_i, 128 × 32 bit; 05 R119; reset 0. -/
  snap : Bank Nat := ⟨0, []⟩
  deriving DecidableEq, Repr

/-- The arbiter of one Harness target (04 R79 to R84). -/
structure HrnTarget where
  /-- port granted last in the main rotation; 04 R81; reset DESIGN CHOICE 23 (log 12). -/
  lastMain : Nat := 23
  /-- SAFE port granted last; 04 R81; reset DESIGN CHOICE 21 (log 12). -/
  lastSafe : Nat := 21
  /-- target cycles since the last SAFE grant of ports 20 and 21, up to 32; 04 R82; reset 32 (log 12). -/
  safeGap20 : Nat := 32
  /-- as above for port 21; 04 R82; reset 32 (log 12). -/
  safeGap21 : Nat := 32
  /-- cycles since the last forced TEST grant, up to 256; 04 R82; reset 256 (log 12). -/
  testGap : Nat := 256
  /-- HRN_WAITMAX_t.WAIT, 16 bit, sticks; 04 R84; reset 0. -/
  waitMax : Nat := 0
  /-- HRN_WAITMAX_t.PORT, 5 bit; 04 R84; reset 0. -/
  waitPort : Nat := 0
  /-- port of the burst granted last, observed; 04 R81; reset none. -/
  granted : Option Nat := none
  deriving DecidableEq, Repr

/-- A cost in 1 mA, 1 mA and 1 mW (04 R446). -/
structure Cost where
  vcore : Nat := 0
  vdrv : Nat := 0
  diss : Nat := 0
  deriving DecidableEq, Repr

/-- GRT_COST_k (04 R87). -/
structure GirthKind where
  t : Cost := {}
  s : Cost := {}
  cls : Nat := 0
  cap : Nat := 0
  maxHold : Nat := 0
  deriving DecidableEq, Repr

/-- A Girth request queued or a grant in force (04 R90, R91). -/
structure GirthReq where
  /-- 16 bit; 04 R90. -/
  ticket : Nat
  /-- requesting port; 04 R90. -/
  port : Nat
  /-- tagged context slot, Rein ports (04 R91). -/
  ctx : Option Nat := none
  /-- the tagged context has been freed since (04 R91). -/
  gone : Bool := false
  kind : Nat
  unit : Nat
  /-- hold in ms. -/
  hold : Nat
  /-- HT of the predicted grant time, ns (04 R92). -/
  pred : Nat := 0
  /-- HT of the end of the hold once granted, ns. -/
  holdEnd : Nat := 0
  /-- transient part in force (04 R87). -/
  tIn : Bool := false
  /-- standing part in force (04 R87). -/
  sIn : Bool := false
  deriving DecidableEq, Repr

/-- GRT_RESP_p and GRT_PRED_p (04 R90). -/
structure GirthPort where
  /-- 16 bit; 04 R90; reset 0. -/
  ticket : Nat := 0
  /-- 5 bit; 04 R91; reset 0. -/
  ctx : Nat := 0
  /-- 2 bit: 0 none, 1 queued, 2 granted, 3 ended; 04 R91; reset 0. -/
  state : Nat := 0
  /-- 8 bit status code; 04 R90; reset 0. -/
  status : Nat := 0
  /-- 32 bit, µs; 04 R92; reset 0. -/
  pred : Nat := 0
  deriving DecidableEq, Repr

/-- Girth's state that an application reset clears (04 R94). -/
structure Girth where
  /-- queued requests per class, oldest first; 04 R92; reset empty. -/
  queue : Bank (List GirthReq) := ⟨[], []⟩
  /-- grants whose transient or standing part is in force; 04 R91; reset empty. -/
  grants : List GirthReq := []
  /-- next ticket, 16 bit; 04 R90; reset DESIGN CHOICE 1 (log 13). -/
  next : Nat := 1
  /-- per port response registers; 04 R90; reset 0. -/
  ports : Bank GirthPort := ⟨{}, []⟩
  /-- rebuild after a reset not done yet, 1 bit; 04 R94; reset 1. -/
  rebuilding : Bool := true
  /-- GRT_STAT.DISS_EFF, 10 bit; 04 R93; reset 10Eh. -/
  dissEff : Nat := 0x10E
  /-- GRT_STAT.TEMP, 8 bit; 04 R93; reset measured: DESIGN CHOICE 0 until sampled (log 13). -/
  temp : BitVec 8 := 0
  /-- GRT_BYPASS.COUNT, 16 bit, sticks; 04 R89; reset 0. -/
  bypass : Nat := 0
  deriving DecidableEq, Repr

/-- The default costs of R87 (04). -/
def girthKinds : List (Nat × GirthKind) :=
  [(0, ⟨⟨0, 0, 200⟩, ⟨0, 0, 20⟩, 0, 8, 100⟩), (1, ⟨{}, ⟨12, 0, 0⟩, 0, 64, 0⟩),
   (2, ⟨{}, ⟨0, 200, 150⟩, 0, 2, 0⟩), (3, ⟨⟨300, 0, 0⟩, {}, 0, 2, 20⟩),
   (4, ⟨⟨0, 0, 200⟩, ⟨0, 0, 100⟩, 1, 4, 50⟩), (5, ⟨{}, ⟨0, 400, 60⟩, 1, 4, 0⟩),
   (6, ⟨⟨0, 0, 150⟩, {}, 1, 2, 40⟩), (7, ⟨⟨300, 0, 0⟩, {}, 1, 1, 20⟩),
   (8, ⟨⟨100, 0, 0⟩, {}, 2, 1, 400⟩), (9, ⟨⟨100, 0, 50⟩, {}, 2, 2, 100⟩),
   (10, ⟨⟨100, 0, 0⟩, {}, 2, 1, 50⟩)]

/-- What only a cold reset of the control die clears: CLK_SSC, RST_CAUSE, the Girth configuration and
the clock faults (03 R65, R70; 04 Girth registers). -/
structure ColdRegs where
  /-- CLK_SSC.LOCK, 1 bit; 03 R65; reset 0. -/
  sscLock : Bool := false
  /-- CLK_SSC.DEPTH, 2 bit; 03 R65; reset 0. -/
  sscDepth : Nat := 0
  /-- CLK_SSC.H_EN, 1 bit; 03 R65; reset 0. -/
  sscH : Bool := false
  /-- CLK_SSC.C_EN, 1 bit; 03 R65; reset 0. -/
  sscC : Bool := false
  /-- depth at which admission applies the grown bound, in 0.25 % steps; 03 R65; reset 0. -/
  grown : Nat := 0
  /-- 100 µs hold after a disabling write running, 1 bit; 03 R65; reset 0. -/
  sscHold : Bool := false
  /-- RST_CAUSE[7:0]; 03 R70; reset 01h, after power-on. -/
  cause : BitVec 8 := 1
  /-- RST_CAUSE.COUNT, 8 bit, sticks; 03 R70; reset 0. -/
  count : Nat := 0
  /-- GRT_CTRL.LOCK, 1 bit; 04 Girth registers; reset 0. -/
  grtLock : Bool := false
  /-- GRT_CTRL.CFG_ERR, 1 bit; 04 R86; reset 0. -/
  grtCfgErr : Bool := false
  /-- GRT_CTRL.DERATE_T, 8 bit; 04 R93; reset 64h. -/
  derateT : Nat := 0x64
  /-- GRT_CTRL.DERATE_STEP, 8 bit; 04 R93; reset 0Ah. -/
  derateStep : Nat := 0x0A
  /-- GRT_SHARE_c, 3 × 30 bit; 04 R85; reset 0BE0_A08Ch, 0462_8028h, 00A0_0014h. -/
  share : Bank Word := ⟨0, [(0, 0x0BE0A08C), (1, 0x04628028), (2, 0x00A00014)]⟩
  /-- GRT_COST_k, 11 × 3 words; 04 R87; reset the defaults of R87. -/
  kinds : Bank GirthKind := ⟨{}, girthKinds⟩
  /-- main reference failed, 1 bit; 03 R66; reset 0. -/
  mainFail : Bool := false
  /-- common 25 MHz counter of the beacon grid since PLL_P locked; 08 R175; reset 0. -/
  grid : Nat := 0
  /-- cold reset asserted and not yet released, 1 bit; 03 R70; reset 0. -/
  coldHeld : Bool := false
  /-- the start sequence of R71 has been run since the last cold reset, 1 bit; 03 R71; reset 0. -/
  started : Bool := false
  /-- Bridle start, R71 step 9, done since the last cold reset, 1 bit; 03 R73; reset 0. -/
  measured : Bool := false
  deriving DecidableEq, Repr

/-- The clock and reset block's registers that an application reset clears (03 R70, 05 R101). -/
structure ClockReset where
  /-- HT, 64 bit, ns; 00 R8, 03 R69; reset 0. -/
  ht : Nat := 0
  /-- HT disciplined to LT, 1 bit; 03 R69; reset 0. -/
  htDisciplined : Bool := false
  /-- CLK_MTIMECMP_h, 6 × 64 bit; 05 R101; reset all ones. -/
  mtimecmp : Bank Nat := ⟨2 ^ 64 - 1, []⟩
  /-- CLK_MSIP_h, 6 × 1 bit; 05 R101; reset 0. -/
  msip : Bank Bool := ⟨false, []⟩
  /-- RST_ENGRUN.RUN_ERR, 1 bit; 03 R73; reset 0. -/
  runErr : Bool := false
  /-- LOADED flags, engine 0 to 7 REIN, 8 Stitcher; 03 R73; reset 0. -/
  loaded : BitVec 9 := 0
  /-- RUN bits, engine 0 to 7 REIN, 8 Stitcher; 03 R73; reset 0. -/
  run : BitVec 9 := 0
  /-- RST_WDOG.PERIOD, 16 bit; 03 R70; reset 0. -/
  wdPeriod : Nat := 0
  /-- watchdog count, ms; 03 R70; reset 0. -/
  wdCount : Nat := 0
  /-- application reset held, awaiting its release condition, 1 bit; 03 R72; reset 0. -/
  appHeld : Bool := false
  /-- start step reached, of R71 after a cold reset and of R72 after an application reset, 0 to 12; reset 0. -/
  step : Nat := 0
  /-- the Cantle image runs and has released Cantle 1 to 3; 03 R71 step 7, R72 step 5; reset 0. -/
  cantle : Bool := false
  /-- what firmware reported of an engine's load, by engine, 8 the Stitcher, 9 the Bridle; 03 R73; reset OK. -/
  engSt : Bank Status := ⟨.ok, []⟩
  /-- why the start stopped on UART0, with the step (03 R78, 16 R404); reset none. -/
  bootStop : Option (Nat × Status) := none
  /-- recovery boot running (16 R402), 1 bit; reset 0. -/
  recovery : Bool := false
  /-- BOOT[3:0] as sampled, 4 bit; 03 R71; reset DESIGN CHOICE 0 (log 14). -/
  boot : BitVec 4 := 0
  /-- PLL_P out of lock, 1 bit; 03 R66; reset 0. -/
  pllP : Bool := false
  /-- VANA tripped, 1 bit; 02 R50; reset 0. -/
  vana : Bool := false
  /-- link down by PLL_E or SGMII reference, per Ethernet port; 03 R66; reset 0. -/
  ethClk : BitVec 2 := 0
  /-- Ethernet link up, per port; 05 R107; reset 0. -/
  ethUp : BitVec 2 := 0
  /-- F0, F1 and V0 to V7 driven recessive, 10 bit; 03 R66; reset 0. -/
  canRecessive : BitVec 10 := 0
  /-- last bus access of a master: bus error, and the data read; 05 R105; reset none. -/
  busErr : Bool := false
  /-- data of the last bus read, 32 bit; 05 R105; reset 0. -/
  busData : Word := 0
  /-- debug program buffer, 8 × 32 bit; 05 R103; reset 0. -/
  progBuf : Bank Word := ⟨0, []⟩
  /-- debug data register, 64 bit; 05 R103; reset 0. -/
  dbgData : Dword := 0
  /-- debug system-bus error, 1 bit; 05 R105; reset 0. -/
  dbgErr : Bool := false
  /-- dmcontrol.dmactive, 1 bit; 05 R103; reset PRESUMED published 0 (log 109). -/
  dmActive : Bool := false
  /-- dmcontrol.hartsel, 20 bit; 05 R103; reset PRESUMED published 0 (log 109). -/
  hartSel : Nat := 0
  /-- a resume asked for has happened, 1 bit; 05 R103; reset PRESUMED published 0 (log 109). -/
  resumeAck : Bool := false
  /-- abstractcs.cmderr, 3 bit; 05 R103; reset PRESUMED published 0 (log 109). -/
  cmdErr : Nat := 0
  /-- sbcs fields readonaddr, access, autoincrement, readondata, bits 20 to 15; 05 R103; reset PRESUMED published (log 109). -/
  sbCtl : BitVec 6 := 0b100100
  /-- sbaddress0, 32 bit; 05 R103; reset PRESUMED published 0 (log 109). -/
  sbAddr : Word := 0
  /-- sbdata0, 32 bit; 05 R103; reset PRESUMED published 0 (log 109). -/
  sbData : Word := 0
  /-- data of the last access through the transport module, 32 bit; 05 R103; reset PRESUMED 0 (log 109). -/
  dmiData : Word := 0
  deriving DecidableEq, Repr

/-- A message sent and not yet acknowledged: the message, its MAC field and how often it was sent (01 R28, R31, R32). -/
structure SentMsg where
  msg : LinkMsg
  sends : Nat := 1
  mac : List Byte := []
  deriving DecidableEq, Repr

/-- One end of the sealed link (01 R28 to R32). -/
structure LinkEnd where
  /-- link key, 384 bit, absent until agreed; 01 R29; reset none. -/
  key : Option (BitVec 384) := none
  /-- number of the next message sent, 64 bit; 01 R30; reset 1. -/
  txNext : Nat := 1
  /-- highest number accepted by the other side, 64 bit; 01 R31; reset 0. -/
  acked : Nat := 0
  /-- next number expected, 64 bit; 01 R30; reset 1. -/
  rxNext : Nat := 1
  /-- sent and unacknowledged, at most 32, oldest first; 01 R31; reset empty. -/
  unacked : List SentMsg := []
  /-- held back for want of credit; 01 R31; reset empty. -/
  held : List LinkMsg := []
  /-- credit received, 0 to 32; 01 R31; reset DESIGN CHOICE 32 after an agreement (log 15). -/
  credit : Nat := 32
  /-- times of the MAC failures of the last second, ms; 01 R32; reset empty. -/
  macFails : List Nat := []
  /-- declared failed, 1 bit; 01 R32; reset 0. -/
  failed : Bool := false
  /-- messages accepted and not yet taken; 12 R282 (control), 01 R31 (sealed); reset empty. -/
  rx : List LinkMsg := []
  /-- last kind-2 message sent: acknowledged number and credit; 01 R31; reset none. -/
  hb : Option (Nat × Nat) := none
  /-- MAC field of that message, 16 bytes; 01 R28; reset empty. -/
  hbMac : List Byte := []
  /-- this end's share in the last agreement, an uncompressed P-384 point of 97 bytes; 01 R29; reset empty. -/
  share : List Byte := []
  /-- what authenticates that share, the pairing tag or the device key's signature; 01 R29; reset empty. -/
  auth : List Byte := []
  deriving DecidableEq, Repr

/-- The message ports of one writer, a Cantle core 0 to 3 or debug 22 (12 R282). -/
structure SlPort where
  /-- MBX_SLTX, 60 × 32 bit; 12 R282; reset 0. -/
  staged : Bank Word := ⟨0, []⟩
  /-- MBX_SLTAG, 32 bit; 12 R282; reset 0. -/
  tag : Word := 0
  /-- MBX_SLSST.STATUS, 8 bit; 12 R282; reset OK. -/
  st : Status := .ok
  deriving DecidableEq, Repr

/-- The sealed-link message ports (12 R282). -/
structure SlPorts where
  port : Bank SlPort := ⟨{}, []⟩
  /-- tags of requests sent and not answered; 01 R32; reset empty. -/
  outst : List Word := []
  /-- tags of requests completed with TIMEOUT, newest first, the last 64; 01 R32; reset empty. -/
  timedOut : List Word := []
  deriving DecidableEq, Repr

/-- The application lane's control-die endpoint (01 R444). -/
structure AppLane where
  /-- bad frames received in a row, 0 to 3; 01 R444; reset 0. -/
  badRx : Nat := 0
  /-- repetitions of one sent frame requested in a row, 0 to 3; 01 R444; reset 0. -/
  repReq : Nat := 0
  /-- fault flag, 1 bit; 01 R444; reset 0. -/
  fault : Bool := false
  deriving DecidableEq, Repr

end Sys2Proof.Machine
end

