-- ==== Sys2Proof/Machine/StateBridle.lean ====
section
/-!
DEFINITION. State of the Bridle safety island (15). Only a cold reset of the control die returns it to
its reset values; its own resets act as R371 says.
-/
set_option Elab.async false
namespace Sys2Proof.Machine

/-- SAF_STAT.STATE (15 R393). -/
inductive BrSt where
  | load | verify | run | safe
  deriving DecidableEq, Repr

/-- A point in the safety configuration (15 R374, offset 16). -/
structure PtCfg where
  coil : Nat := 0xFF
  lock : Nat := 0xFF
  lockKind : Nat := 0
  upstream : Nat := 0xFF
  group : Nat := 0xFF
  supervised : Bool := false
  polarity : Bool := false
  tOpen : Nat := 10
  tClose : Nat := 10
  deriving DecidableEq, Repr

/-- A safety input pair in the configuration (15 R374, offset 656). -/
structure SiCfg where
  fn : Nat := 0
  antivalent : Bool := false
  mask : BitVec 16 := 0
  disc : Nat := 20
  deriving DecidableEq, Repr

/-- An encoder in the configuration (15 R374, offset 784). -/
structure EncCfg where
  perMetre : Nat := 0
  perZ : Nat := 0
  invert : Bool := false
  deriving DecidableEq, Repr

/-- A device in the configuration (15 R374, offset 848); positions in 0.1 mm. -/
structure DevCfg where
  enc : Nat := 0
  sto : Nat := 0
  pt : Nat := 0
  grp : Nat := 0
  posMin : Int := 0
  posMax : Int := 0
  winLo : Int := 0
  winHi : Int := 0
  home : Int := 0
  vmax : Nat := 0
  dec : Nat := 0
  dv : Nat := 0
  td : Nat := 0
  zero : Nat := 0
  tss1 : Nat := 0
  tmove : Nat := 0
  ss1 : Bool := false
  deriving DecidableEq, Repr

/-- A receive safe message in the configuration (15 R374, offset 1232). -/
structure RxCfg where
  cob0 : Nat := 0
  cob1 : Nat := 0
  groups : BitVec 16 := 0
  devs : BitVec 8 := 0
  enabled : Bool := false
  resetUsed : Bool := false
  t : Nat := 10
  w : Nat := 1
  deriving DecidableEq, Repr

/-- A transmit safe message in the configuration (15 R374, offset 1488). -/
structure TxCfg where
  cob0 : Nat := 0
  cob1 : Nat := 0
  period : Nat := 10
  enabled : Bool := false
  deriving DecidableEq, Repr

/-- The safety configuration block, parsed (15 R374). -/
structure SafCfg where
  holdWin : Nat := 150
  nomRate : Nat := 0
  dataRate : Nat := 0
  seed : BitVec 16 := 0
  pts : Bank PtCfg := ⟨{}, []⟩
  im : Bank (BitVec 64) := ⟨0, []⟩
  si : Bank SiCfg := ⟨{}, []⟩
  enc : Bank EncCfg := ⟨{}, []⟩
  dev : Bank DevCfg := ⟨{}, []⟩
  rx : Bank RxCfg := ⟨{}, []⟩
  tx : Bank TxCfg := ⟨{}, []⟩
  deriving DecidableEq, Repr

/-- A point as the Bridle sees it, SAF_PT_p (15 R393). -/
structure BrPt where
  /-- STOP_REQ, 1 bit; 03 R76, 15 R393; reset 0. -/
  stopReq : Bool := false
  /-- SHUT, step of R76 in progress, 3 bit; 15 R393; reset 0. -/
  shut : Nat := 0
  /-- MIRROR accepted, 1 main open, 1 bit; 15 R377; reset 0. -/
  mirror : Bool := false
  /-- SWITCH_FAIL, 1 bit; 15 R378; reset 0. -/
  switchFail : Bool := false
  /-- HOLD causes, 8 bit; 15 R383; reset 0. -/
  hold : BitVec 8 := 0
  /-- main closed seen since the latch went on, 1 bit; 15 R377; reset 0. -/
  seenClosed : Bool := false
  /-- Bridle time of the acceptance of the last pilot fault, µs; 15 R384, 07 R164; reset 0. -/
  faultAt : Nat := 0
  /-- recorded active at an application reset, 1 bit; 03 R74; reset 0. -/
  active : Bool := false
  /-- reclaim accepted, 1 bit; 03 R75; reset 0. -/
  reclaimed : Bool := false
  /-- EARTH causes standing by unit: RC, and IM channels mask; 15 R384; reset 0. -/
  earthRc : Bool := false
  earthIm : BitVec 16 := 0
  /-- the pilot stays held after GROUP or WELD until PILOT_RELEASE, 1 bit; 15 R384; reset 0. -/
  pilKeep : Bool := false
  deriving DecidableEq, Repr

/-- Device states (15 R382), in the order of SAF_DEV.STATE. -/
inductive DevSt where
  | retracted | extending | connected | retracting | stopping | stopped | fault
  deriving DecidableEq, Repr

/-- A connection device, SAF_DEV_d (15 R382, R393). -/
structure Device where
  /-- POS, 0.1 mm, 32 bit; 15 R393; reset 0. -/
  pos : Int := 0
  /-- SPEED, mm/s, 16 bit; 15 R393; reset 0. -/
  speed : Int := 0
  /-- FCAUSE, 8 bit; 15 R393; reset 0. -/
  fcause : Nat := 0
  /-- STATE, 3 bit; 15 R382; reset 0. -/
  st : DevSt := .retracted
  /-- permit bit in the transmit messages, 1 bit; 15 R381; reset 0. -/
  permit : Bool := false
  /-- |v| at the stop request, mm/s; 15 R381; reset 0. -/
  v0 : Nat := 0
  /-- time since the stop request, ms; 15 R381; reset 0. -/
  tStop : Nat := 0
  /-- time since the motion began, ms; 15 R382; reset 0. -/
  tMove : Nat := 0
  /-- time for which |v| has stayed below the standstill speed, ms; 15 R381; reset 0. -/
  still : Nat := 0
  /-- encoder counts of the last 8 ms, newest first; 15 R376; reset empty. -/
  counts : List Int := []
  /-- the last encoder sample was illegal, 1 bit; 15 R382; reset 0. -/
  encBad : Bool := false
  deriving DecidableEq, Repr

/-- A safety input pair (15 R376). -/
structure SiState where
  /-- accepted demand of channel A and B, 1 bit each; 15 R376; reset 0. -/
  a : Bool := false
  b : Bool := false
  /-- pair in discrepancy fault, 1 bit; 15 R376; reset 0. -/
  fault : Bool := false
  /-- the pair tests faulty and is treated as active, 1 bit; 15 R392; reset 0. -/
  testBad : Bool := false
  /-- Bridle time at which the present demand began, µs; 15 R385; reset none. -/
  since : Option Nat := none
  /-- no demand on both channels since, µs; 15 R376; reset none. -/
  clearSince : Option Nat := none
  deriving DecidableEq, Repr

/-- A receive safe message (15 R387). -/
structure SafeRx where
  /-- last accepted counter, 8 bit, 0 none since the Bridle's start; 15 R387; reset 0. -/
  last : BitVec 8 := 0
  /-- the first copy of a pair in progress: port F1?, counter, data; 15 R387; reset none. -/
  first : Option (Bool × BitVec 8 × Word) := none
  /-- last accepted data, 32 bit; 15 R387; reset 0, the safe value. -/
  d : Word := 0
  /-- within its timeout, 1 bit; 15 R393; reset 0. -/
  valid : Bool := false
  /-- Bridle time at which the reset bit rose, µs; 15 R385; reset none. -/
  rose : Option Nat := none
  deriving DecidableEq, Repr

/-- A transmit safe message (15 R388). -/
structure SafeTx where
  /-- last counter sent, 8 bit; 15 R386; reset 0. -/
  counter : BitVec 8 := 0
  /-- frames in the safe buffers of F0 and F1, 8 bytes each; 15 R388; reset none. -/
  buf : Option (List Byte × List Byte) := none
  /-- copies not seen, counted; 15 R388; reset 0. -/
  missing : Nat := 0
  deriving DecidableEq, Repr

/-- A notice (15 R393, SAF_NOTE_i). -/
structure Notice where
  seq : BitVec 16 := 0
  kind : Nat := 0
  unit : Nat := 0
  data : Word := 0
  time : Word := 0
  deriving DecidableEq, Repr

/-- A message in the FIFO into the Bridle (03 R67): words 0 to 2 of a safe message, or a write of RST_RECLAIM. -/
inductive BrMsg where
  | post (w0 w1 w2 : Word)
  | reclaim (hi : Bool) (v : Word)
  deriving DecidableEq, Repr

/-- The Bridle. -/
structure Bridle where
  /-- SAF_STAT.STATE, 2 bit; 15 R393; reset LOAD. -/
  st : BrSt := .load
  /-- SAF_STAT.CAUSE, 8 bit; 15 R393; reset 0. -/
  cause : Nat := 0
  /-- SAF_STAT.SLOT, 2 bit; 15 R393; reset 0. -/
  slot : Nat := 0
  /-- SAF_STAT.UNSEALED, 1 bit; 15 R373; reset 0. -/
  unsealed : Bool := false
  /-- SAF_STAT.RESTARTS, 4 bit; 15 R371; reset 0. -/
  restarts : Nat := 0
  /-- SAFE_N driven low, 1 bit; 15 R372; reset 1. -/
  safeNLow : Bool := true
  /-- heartbeat running, 1 bit; 15 R371; reset 0. -/
  hbOn : Bool := false
  /-- its oscillator has failed since the cold reset, 1 bit; 15 R371; reset 0. -/
  oscFail : Bool := false
  /-- in its own reset, awaiting BRIDLE_RESTART, 1 bit; 15 R371; reset 0. -/
  inReset : Bool := false
  /-- its code has been loaded and measured, 1 bit; 03 R73; reset 0. -/
  loaded : Bool := false
  /-- µs since the cold reset; 15 R393; reset 0. -/
  time : Nat := 0
  /-- SAF_CHAL, 16 bit, random: a free value; 15 R393; reset DESIGN CHOICE 0 before the first draw (log 23). -/
  chal : BitVec 16 := 0
  /-- SAF_POSTRES, TAG 16 bit, TYPE 8 bit, STATUS 8 bit; 15 R393; reset 0. -/
  postTag : BitVec 16 := 0
  postType : BitVec 8 := 0
  postSt : Status := .ok
  /-- SAF_NOTESEQ.OVERRUN, 1 bit; 15 R390; reset 0. -/
  overrun : Bool := false
  /-- last acknowledged notice, 16 bit; 15 R390; reset 0. -/
  acked : BitVec 16 := 0
  /-- newest notice, 16 bit; 15 R390; reset 0. -/
  newest : BitVec 16 := 0
  /-- SAF_NOTE_i, ring of 16; 15 R390; reset 0. -/
  notes : Bank Notice := ⟨{}, []⟩
  /-- SAF_PT_p; 15 R393; reset 0. -/
  pts : Bank BrPt := ⟨{}, []⟩
  /-- SAF_DEV_d; 15 R393; reset 0. -/
  dev : Bank Device := ⟨{}, []⟩
  /-- input pairs SI00 to SI15; 15 R376; reset 0. -/
  si : Bank SiState := ⟨{}, []⟩
  /-- SAF_STO.FAULT, 8 bit; 15 R379; reset 0. -/
  stoFault : BitVec 8 := 0
  /-- SAF_STO.RELEASED, 8 bit; 15 R379; reset 0. -/
  stoRel : BitVec 8 := 0
  /-- SAF_GRP.LATCHED, 16 bit; 15 R380; reset 0. -/
  latched : BitVec 16 := 0
  /-- SAF_GRP.RUNNING, 16 bit; 15 R380; reset 0. -/
  running : BitVec 16 := 0
  /-- SAF_SMR.DISCARD, 16 bit, sticks; 15 R393; reset 0. -/
  discard : Nat := 0
  /-- receive safe messages; 15 R387; reset as SafeRx. -/
  rx : Bank SafeRx := ⟨{}, []⟩
  /-- transmit safe messages; 15 R388; reset as SafeTx. -/
  tx : Bank SafeTx := ⟨{}, []⟩
  /-- reset edges that found a cause present, counted; 15 R385; reset 0. -/
  edgeIgnored : Nat := 0
  /-- SAF_POST_0 to _6 as written, 32 bit each; 15 R389; reset 0. -/
  post : Bank Word := ⟨0, []⟩
  /-- SAF_POSTST per port; 15 R393; reset 0. -/
  postStatus : Bank Nat := ⟨0, []⟩
  /-- messages in the FIFO into the Bridle, at most 8, oldest first; 03 R67; reset empty. -/
  fifo : List BrMsg := []
  /-- hold window running, 1 bit; 03 R75; reset 0. -/
  window : Bool := false
  /-- the configuration in force; 15 R374; reset none (defaults of R374). -/
  cfg : Option SafCfg := none
  /-- configuration bytes in Bridle local memory, 2048; 15 R373; reset 0. -/
  cfgBytes : Bank Byte := ⟨0, []⟩
  /-- local memory, 128 KB; 01 memory inventory; reset DESIGN CHOICE 0 (log 3). -/
  mem : Bank Byte := ⟨0, []⟩
  /-- hart 14, the lockstep pair as one hart; 15 R370, 05 R99; reset as Hart. -/
  hart : Hart := {}
  /-- MIR inputs whose path test failed, treated as main closed, 64 bit; 15 R392; reset 0. -/
  mirBad : BitVec 64 := 0
  deriving DecidableEq, Repr

end Sys2Proof.Machine
end

