-- ==== Sys2Proof/Machine/StateHost.lean ====
section
/-!
DEFINITION. State of the object dictionary's server and its transports (06): field ports F0 and F1, Latigo
connections, the request counters and the journal in the flash.
-/
set_option Elab.async false
namespace Sys2Proof.Machine

/-- A CAN frame sent. -/
structure CanFrame where
  id : Nat
  fd : Bool
  data : List Byte
  /-- it answers a request. -/
  reply : Bool := false
  deriving DecidableEq, Repr

/-- An open segmented transfer (06 R135, R137). -/
structure SdoXfer where
  idx : Nat
  sub : Nat
  down : Bool
  role : Role
  /-- bytes received so far, or bytes still to send. -/
  data : List Byte
  /-- bytes announced for a download; 0 where none. -/
  total : Nat := 0
  toggle : Bool := false
  deriving DecidableEq, Repr

/-- NMT state of a field port (06 R136); `off` before its boot-up and in mode 0. -/
inductive NmtSt where
  | off | preop | oper | stopped
  deriving DecidableEq, Repr

/-- Communication entries of a TPDO in force (06 R133). -/
structure TpdoCfg where
  cob : Nat := 0x80000000
  type : Nat := 0
  inhibit : Nat := 0
  timer : Nat := 0
  map : List Nat := []
  deriving DecidableEq, Repr

/-- A TPDO's running state (06 R135). -/
structure TpdoRun where
  /-- SYNC frames since the last sending of a cyclic TPDO; 06 R135; reset 0. -/
  syncs : Nat := 0
  /-- HT of the last sending, ns; 06 R133; reset none. -/
  sent : Option Nat := none
  /-- value sent last; 06 R135; reset empty. -/
  last : List Byte := []
  deriving DecidableEq, Repr

/-- A field port, F0 or F1 (06 R134 to R138). -/
structure FieldPort where
  /-- NMT state; 06 R136; reset off. -/
  nmt : NmtSt := .off
  /-- mode in force 0 off, 1 classic, 2 FD; 06 R134; reset 0. -/
  mode : Nat := 0
  /-- nominal rate in force, kbit/s; 06 R134; reset 0. -/
  rate : Nat := 0
  /-- data rate in force, kbit/s; 06 R134; reset 0. -/
  dataRate : Nat := 0
  /-- node-ID in force; 06 R146; reset 0. -/
  node : Nat := 0
  /-- COB-IDs of SDO channels 1 to 7 in force, client to server and server to client; 06 R133; reset off. -/
  cobs : Bank (Nat × Nat) := ⟨(0x80000000, 0x80000000), []⟩
  /-- TPDO 0 to 31 in force since the last entry into operational; 06 R133; reset off. -/
  tpdo : Bank TpdoCfg := ⟨{}, []⟩
  trun : Bank TpdoRun := ⟨{}, []⟩
  /-- bus-off, 1 bit; 06 R138; reset 0. -/
  busOff : Bool := false
  /-- error passive, 1 bit; 06 R135; reset 0. -/
  passive : Bool := false
  /-- open transfers of SDO channels 0 to 7; 06 R137; reset none. -/
  sdo : Bank (Option SdoXfer) := ⟨none, []⟩
  /-- open USDO transfers by client node-ID, at most 8; 06 R135; reset none. -/
  usdo : Bank (Option SdoXfer) := ⟨none, []⟩
  /-- session selector of a client, channel c at c, node n at 8 + n: handle and serial; 06 R125; reset 0. -/
  sel : Bank (Nat × Nat) := ⟨(0, 0), []⟩
  /-- status of a client's previous request; 06 R145; reset OK. -/
  last : Bank Status := ⟨.ok, []⟩
  /-- frames sent, newest first, the last 64; 06 R135; reset empty. -/
  sent : List CanFrame := []
  /-- frames waiting while the port cannot send, at most 32, oldest first; 04 R95, 06 R138; reset empty. -/
  txq : List CanFrame := []
  /-- a frame found the queue full, 1 bit; 06 R135; reset 0. -/
  overrun : Bool := false
  deriving DecidableEq, Repr

/-- A Latigo subscription (06 R142). -/
structure LatSub where
  id : Word
  idx : Nat
  sub : Nat
  handle : Nat
  serial : Nat
  /-- minimum interval, ms. -/
  interval : Nat
  /-- HT of the last NOTIFY, ns; none before the first. -/
  at_ : Option Nat := none
  /-- value sent last. -/
  value : List Byte
  /-- a change waits for the end of the interval. -/
  due : Bool := false
  deriving DecidableEq, Repr

/-- A Latigo frame sent (06 R141). -/
structure LatFrame where
  conn : Nat
  op : Nat
  reply : Bool := false
  coalesced : Bool := false
  id : Word
  idx : Nat := 0
  sub : Nat := 0
  status : Status := .ok
  handle : Nat := 0
  serial : Nat := 0
  payload : List Byte := []
  deriving DecidableEq, Repr

/-- A Latigo connection (06 R139 to R143). -/
structure Conn where
  /-- Ethernet port of the connection. -/
  port : Nat
  role : Role
  /-- end of validity of the client's certificate, LT ms. -/
  expiry : Nat
  /-- its subject common name. -/
  name : List Byte
  subs : List LatSub := []
  /-- status of the connection's previous request; 06 R145. -/
  last : Status := .ok
  /-- the session a Customer connection is bound to: handle and serial; 09 R216; reset none. -/
  bound : Option (Nat × Nat) := none
  /-- 2030h.05 as taken at the connection, s; 06 R143, R146. -/
  idle : Nat := 60
  /-- HT of the last frame from the host, ns; 06 R143. -/
  heard : Nat := 0
  deriving DecidableEq, Repr

/-- How the last TCP connection for Latigo ended (06 R139). -/
inductive LatOpen where
  | none | reset | alert | opened
  deriving DecidableEq, Repr

/-- What the server counts of a point's pilot since start (07 R169). -/
structure PtCount where
  /-- accepted state changes, 32 bit, sticks; 07 R169; reset 0. -/
  changes : Nat := 0
  /-- indeterminate periods, 32 bit, sticks; 07 R169; reset 0. -/
  indet : Nat := 0
  /-- faults, 32 bit, sticks; 07 R169; reset 0. -/
  faults : Nat := 0
  /-- last fault cause, 3 bit; 07 R169; reset 0. -/
  cause : BitVec 3 := 0
  deriving DecidableEq, Repr

/-- The dictionary server's volatile state. -/
structure Server where
  /-- served on the transports since step 12 of R71 or step 8 of R72, 1 bit; 03 R71; reset 0. -/
  ready : Bool := false
  /-- F0 and F1; 06 R134; reset as FieldPort. -/
  port : Bank FieldPort := ⟨{}, []⟩
  /-- Latigo connections 0 to 15; 06 R139; reset none. -/
  conn : Bank (Option Conn) := ⟨none, []⟩
  /-- outcome of the last TCP connection for Latigo, observed; 06 R139; reset none. -/
  latOpen : LatOpen := .none
  /-- Latigo frames sent, newest first, the last 64; 06 R141; reset empty. -/
  lat : List LatFrame := []
  /-- requests accepted since start, 32 bit, sticks; 06 R147; reset 0. -/
  accepted : Nat := 0
  /-- requests refused with BUSY, 32 bit, sticks; 06 R147; reset 0. -/
  busy : Nat := 0
  /-- requests completed with TIMEOUT, 32 bit, sticks; 06 R147; reset 0. -/
  timeouts : Nat := 0
  /-- values of volatile entries, by index × 256 + subindex; 06 R121; reset defaults. -/
  vol : Bank (Option (List Byte)) := ⟨none, []⟩
  /-- ETH0 and ETH1 mode in force since the start, 2 bit each; 06 R146; reset 0, not yet taken. -/
  ethMode : Bank Nat := ⟨0, []⟩
  /-- RGMII internal delay of ETH0 and ETH1 in force since the start, 2 bit each; 06 R146; reset 0, not yet taken. -/
  ethDelay : Bank Nat := ⟨0, []⟩
  /-- MDIO address of the external PHY of ETH0 and ETH1 in force since the start, 5 bit each; 06 R146; reset 0, not yet
  taken. -/
  ethMdio : Bank Nat := ⟨0, []⟩
  /-- IPv4 mode, address, mask and gateway of ETH0 and ETH1 since the last link up; 06 R146; reset 0, not yet taken. -/
  ip : Bank (Nat × Nat × Nat × Nat) := ⟨(0, 0, 0, 0), []⟩
  /-- pilot counts of points 0 to 63; 07 R169; reset as PtCount. -/
  pt : Bank PtCount := ⟨{}, []⟩
  /-- the point selected at the keypad, as the sealed die has reported it; 09 R216, 13 R332; reset none. -/
  termPoint : Option Nat := none
  /-- handle of the session that the terminal is bound to; 09 R216; reset none. -/
  termBound : Option Nat := none
  /-- points whose edition and proximity form wait for MODE_ACT 0, 64 bit; 07 R169; reset 0. -/
  pilDue : BitVec 64 := 0
  /-- records taken from area B at the last start, 16 bit; 06 R147; reset 0. -/
  fromB : Nat := 0
  deriving DecidableEq, Repr

/-- A journal area in the flash: the newest record of each entry, with its batch number (06 R130). -/
structure Area where
  /-- by entry key: batch number and value, none meaning the default; 06 R130; reset empty. -/
  recs : Bank (Option (Nat × Option (List Byte))) := ⟨none, []⟩
  /-- bytes in use of the area; 06 R131; reset 0. -/
  used : Nat := 0
  /-- the records as programmed, one behind the other; 06 R130; reset empty. -/
  image : List Byte := []
  deriving DecidableEq, Repr

/-- A record waiting for the flash: entry key and value. -/
abbrev JRec := Nat × Option (List Byte)

/-- A closed batch being programmed (06 R131). -/
structure Batch where
  num : Nat
  recs : List JRec
  /-- area being programmed: 0 A, 1 B. -/
  area : Nat := 0
  /-- the Girth ticket of its request, and granted. -/
  ticket : Nat := 0
  deriving DecidableEq, Repr

/-- Working state of the journal, lost at a reset. -/
structure Journal where
  /-- records accepted and in no closed batch, oldest first; 06 R131; reset empty. -/
  staged : List JRec := []
  /-- closed batches, oldest first; 06 R131; reset empty. -/
  batches : List Batch := []
  /-- area being compacted and the Girth ticket of it; 06 R131; reset none. -/
  compact : Option (Nat × Nat) := none
  deriving DecidableEq, Repr

/-- The journal in the flash, which a reset keeps (06 R130 to R132). -/
structure Flash where
  a : Area := {}
  b : Area := {}
  /-- last batch number used, 32 bit; 06 R130; reset 0. -/
  lastNo : Nat := 0
  /-- last batch number in both copies, 32 bit; 06 R147; reset 0. -/
  both : Nat := 0
  /-- compactions since manufacture, 32 bit, sticks; 06 R147; reset 0. -/
  compactions : Nat := 0
  /-- defaults to be applied at the next start, 1 bit; 06 R132; reset 0. -/
  restore : Bool := false
  deriving DecidableEq, Repr

end Sys2Proof.Machine
end

