-- ==== Sys2Proof/Machine/StateNv.lean ====
section
/-!
DEFINITION. State that outlives a reset of the control die: the fuses (16 R395, R396) and the values of
the object dictionary (06 R121 to R133).
-/
set_option Elab.async false
namespace Sys2Proof.Machine

/-- The fuse block (16 R395). Its contents are programmed at manufacture; a bit changes only from 0 to 1. -/
structure Fuses where
  /-- FUS_VENDOR, 32 bit; 16 R395; reset as programmed: DESIGN CHOICE 0 (log 5). -/
  vendor : Word := 0
  /-- FUS_SERIAL, 32 bit; 16 R395; reset as programmed: DESIGN CHOICE 0 (log 5). -/
  serial : Word := 0
  /-- FUS_MAC[47:0], 48 bit; 16 R395; reset as programmed: DESIGN CHOICE 0 (log 5). -/
  mac : BitVec 48 := 0
  /-- FUS_LIFE.ROLE_OFF, 6 bit; 16 R396; reset as programmed: DESIGN CHOICE 20h, Manufacturer off (00 R3, log 5). -/
  roleOff : BitVec 6 := 0x20
  /-- FUS_LIFE.DECOM, 1 bit; 16 R396; reset 0 (log 5). -/
  decom : Bool := false
  /-- FUS_LIFE.PROD, 1 bit; 16 R396; reset 1, a production part (log 5). -/
  prod : Bool := true
  /-- FUS_LIFE.MFG, 1 bit; 16 R396; reset 1 (log 5). -/
  mfg : Bool := true
  /-- FUS_DEBUG, 6 bit; 16 R396; reset as programmed: DESIGN CHOICE 0 (log 5). -/
  dbg : BitVec 6 := 0
  /-- FUS_PTOFF, 64 bit; 16 R395; reset as programmed: DESIGN CHOICE 0 (log 5). -/
  ptOff : BitVec 64 := 0
  /-- FUS_BLKOFF[19:0]; 16 R395; reset as programmed: DESIGN CHOICE 0 (log 5). -/
  blkOff : BitVec 20 := 0
  /-- FUS_SVN thermometer, as the floor 0 to 64; 16 R395; reset as programmed: DESIGN CHOICE 0 (log 5). -/
  svn : Nat := 0
  /-- FUS_ROOT_k, 4 × 384 bit; 16 R395; reset as programmed: DESIGN CHOICE 0 (log 5). -/
  root : Bank (BitVec 384) := ⟨0, []⟩
  /-- FUS_RREV[3:0]; 16 R395; reset as programmed: DESIGN CHOICE 0 (log 5). -/
  rrev : BitVec 4 := 0
  /-- FUS_SAFE_k, 4 × 384 bit, all zero while unprogrammed; 16 R395; reset DESIGN CHOICE 0 (log 5). -/
  safe : Bank (BitVec 384) := ⟨0, []⟩
  /-- hardware unique key, 256 bit; 16 R395; reset as programmed: DESIGN CHOICE 0 (log 5). -/
  huk : BitVec 256 := 0
  /-- pairing key, 384 bit; 16 R395; reset as programmed: DESIGN CHOICE 0 (log 5). -/
  pairing : BitVec 384 := 0
  deriving DecidableEq, Repr

/-- Values of object dictionary entries, by index × 256 + subindex (field port F1's own communication
entries at 2^24 above that). -/
structure Objects where
  /-- values accepted last, little-endian bytes; an unwritten entry has its default; 06 R122; reset defaults. -/
  live : Bank (Option (List Byte)) := ⟨none, []⟩
  /-- declarations of 2050h.01 to .0B in force since the last start, by subindex; 06 R445; reset 0. -/
  unfit : Bank (BitVec 64) := ⟨0, []⟩
  /-- points of type 5 treated as type 0 since the last start, 64 bit; 10 R241; reset 0. -/
  seqOut : BitVec 64 := 0
  deriving DecidableEq, Repr

end Sys2Proof.Machine
end

