-- ==== Sys2Proof/Machine/StatePlc.lean ====
section
/-!
DEFINITION. State of the Green PHY channels, the mains ports and the hub-wide SLAC arbitration (08). An
application reset returns all of it to its reset values (R188).
-/
set_option Elab.async false
namespace Sys2Proof.Machine

/-- Channel states of R181. -/
inductive PlcSt where
  | off | slacWait | slacRun | matched | linked | stopping
  deriving DecidableEq, Repr

/-- The ROBO modes (08 R170). -/
inductive Robo where
  | mini | std | hs
  deriving DecidableEq, Repr

/-- Where a frame is: waiting for the medium, on the air, sent and not yet acknowledged (08 R177, R179). -/
inductive TxPhase where
  | waiting | onAir | sent
  deriving DecidableEq, Repr

/-- A frame accepted and not completed (08 R179, R188). -/
structure PlcTx where
  tag : Nat
  cap : Nat
  len : Nat
  addr : Nat
  /-- sendings so far. -/
  tries : Nat := 0
  /-- numbers of the PBs not acknowledged yet. -/
  pbs : List Nat := []
  /-- mode of the sending. -/
  mode : Robo := .hs
  phase : TxPhase := .waiting
  deriving DecidableEq, Repr

/-- A beacon sent: its grid time, the schedule it carries with its persistence, and a change that it announces with the
number of beacons up to it (08 R176, R178). -/
structure PlcBeacon where
  time : Nat
  mode : Robo := .mini
  sched : BitVec 16
  persist : Nat := 3
  announce : Option (BitVec 16 × Nat) := none
  deriving DecidableEq, Repr

/-- The Stitcher's answer to a management message (08 R171). -/
inductive PlcReply where
  | failure | associated | refused
  deriving DecidableEq, Repr

/-- A completion in PLC_TXDONE_n (08 R188). -/
structure PlcDone where
  tag : Nat
  tries : Nat
  status : Status
  deriving DecidableEq, Repr

/-- The toggle window of a validation (08 R186). -/
structure ValWin where
  /-- the points of H(r) with their counts of accepted B to C changes at the window's opening. -/
  start : List (Nat × Nat)
  deriving DecidableEq, Repr

/-- A channel G00 to G63 at 0 to 63, a mains port M0, M1 at 64, 65 (08 R188). -/
structure PlcCh where
  /-- STATE, 4 bit; 08 R181; reset OFF. -/
  st : PlcSt := .off
  /-- a mains port started, awaiting its first beacon, 1 bit; 08 R181; reset 0. -/
  started : Bool := false
  /-- moved to OFF by an event of R183 and not started again, 1 bit; 08 R183; reset 0. -/
  halted : Bool := false
  /-- PLC_CFG_n, 32 bit; 08 R188; reset 0006_0240h. -/
  cfg : Word := 0x00060240
  /-- STATUS of the last START, 8 bit; 08 R188; reset OK. -/
  status : Status := .ok
  /-- PLC_EVT_n, 6 bit; 08 R188; reset 0. -/
  evt : Word := 0
  /-- PLC_TXADDR_n, 32 bit; 08 R188; reset 0. -/
  txaddr : Word := 0
  /-- frames accepted, not completed, at most 16; 08 R188; reset empty. -/
  txq : List PlcTx := []
  /-- PLC_TXRESP_n: TAG, STATUS; 08 R188; reset 0. -/
  txresp : Nat × Status := (0, .ok)
  /-- completions, at most 16; 08 R188; reset empty. -/
  done : List PlcDone := []
  /-- PLC_RXBASE_n, 32 bit; 08 R188; reset 0. -/
  rxbase : Word := 0
  /-- lengths of the unread MSDUs, oldest first, at most 16; 08 R188; reset empty. -/
  rx : List Nat := []
  /-- slot of the oldest; 08 R188; reset 0. -/
  slot : Nat := 0
  /-- RXDROP, 16 bit, sticks; 08 R188; reset 0. -/
  rxdrop : Nat := 0
  /-- SKIPS, 16 bit, sticks; 08 R188; reset 0. -/
  skips : Nat := 0
  /-- frame-control errors, counted (R170); reset 0. -/
  fcErr : Nat := 0
  /-- management messages dropped, counted (R182); reset 0. -/
  mgmtDrop : Nat := 0
  /-- the last acknowledgement sent: PBs reported bad; 08 R179; reset none. -/
  ack : Option Nat := none
  /-- the answer sent to the last management message that had one; 08 R171; reset none. -/
  reply : Option PlcReply := none
  /-- next grid time of the channel, common counter; 08 R176; reset 0. -/
  beaconAt : Nat := 0
  /-- the last beacon sent; 08 R178; reset none. -/
  lastBeacon : Option PlcBeacon := none
  /-- beacon-period schedule in force, by number, and an announced one with the beacons that precede it; 08 R178; reset 0, none. -/
  sched : BitVec 16 := 0
  change : Option (BitVec 16 × Nat) := none
  /-- common counter at which NTB reads 0, 25 MHz ticks; 08 R187; reset none, NTB reads 0. -/
  ntb0 : Option Int := none
  /-- PLC_NTBHT_n per Harness port, 64 bit; 08 R188; reset 0. -/
  ntbHt : Bank Nat := ⟨0, []⟩
  /-- RunIDs whose CM_SLAC_PARM.REQ the channel answered and whose collections are not closed; 08 R181; reset empty. -/
  runs : List (BitVec 64) := []
  /-- SELECTED: RunID awaiting its match; 08 R188; reset none. -/
  sel : Option (BitVec 64) := none
  /-- VALREQ, 1 bit; 08 R186; reset 0. -/
  valReq : Bool := false
  /-- H(r) of the selection; 08 R186; reset empty. -/
  hset : List Nat := []
  /-- A(b, r) of the selection as a quotient: sum of all group values and 58 times the sounds; 08 R186; reset 0, 1. -/
  figure : Nat × Nat := (0, 1)
  /-- toggle window open; 08 R186; reset none. -/
  win : Option ValWin := none
  /-- validation succeeded, 1 bit; 08 R186; reset 0. -/
  valid : Bool := false
  /-- PLC_ATTEN_n, 60 bytes; 08 R188; reset 0. -/
  atten : List Byte := []
  /-- RunID shown with it; 08 R188; reset 0. -/
  attenRun : BitVec 64 := 0
  /-- stations associated on a mains port, at most 16; 08 R171; reset empty. -/
  stations : List (BitVec 48) := []
  /-- MAC address of the matched station, 48 bit; 08 R189; reset none. -/
  mac : Option (BitVec 48) := none
  /-- NMK 128, NID 56 and NEK 128 bit; 08 R181; reset none. -/
  nmk : Option (BitVec 128) := none
  nid : BitVec 56 := 0
  nek : BitVec 128 := 0
  deriving DecidableEq, Repr

/-- What one channel measured of a RunID: sounds received and the sums of the 58 group values (08 R185). -/
structure Profile where
  count : Nat := 0
  sums : List Nat := []
  deriving DecidableEq, Repr

/-- An open collection (08 R185). -/
structure Collection where
  run : BitVec 64
  /-- announced number of sounds. -/
  sounds : Nat
  /-- HT at opening. -/
  opened : Nat := 0
  prof : Bank Profile := ⟨{}, []⟩
  deriving DecidableEq, Repr

/-- The Green PHY block. -/
structure Plc where
  /-- 66 channels; 08 R188; reset as PlcCh. -/
  ch : Bank PlcCh := ⟨{}, []⟩
  /-- open collections; 08 R185; reset none. -/
  colls : List Collection := []
  /-- accepted changes from B to C per point, as the Stitcher counts them; 08 R186; reset 0. -/
  toggles : Bank Nat := ⟨0, []⟩
  deriving DecidableEq, Repr

end Sys2Proof.Machine
end

