-- ==== Sys2Proof/Machine/StateReader.lean ====
section
/-!
DEFINITION. State of the reader channels and the tag-emulation slots on the power die (13 R333 to R341).
-/
set_option Elab.async false
namespace Sys2Proof.Machine

/-- States of a reader channel, in the order of OUT_RDSTAT.STATE (13 R341). -/
inductive RdSt where
  | off | pinging | detected | fieldWait | polling | active | exchange | emulating
  deriving DecidableEq, Repr

/-- An exchange in progress (13 R337, R338). -/
structure Xchg where
  /-- the command APDU, sent again from its start by the full retry. -/
  cmd : List Byte := []
  /-- retries of the block in progress, 0 to 2. -/
  retries : Nat := 0
  /-- the one full retry has been made. -/
  full : Bool := false
  /-- response received so far. -/
  data : List Byte := []
  /-- multiplier of the last S(WTX), for the block in progress; 1 without one. -/
  wtx : Nat := 1
  deriving DecidableEq, Repr

/-- A reader channel (13 R341). -/
structure Reader where
  /-- MODE, 2 bit: 0 off, 1 reader, 2 emulation; 13 R341; reset 0. -/
  mode : Nat := 0
  /-- TYPES, 2 bit; 13 R341; reset 0. -/
  types : BitVec 2 := 0
  /-- TXLEN, 9 bit; 13 R341; reset 0. -/
  txlen : Nat := 0
  /-- OUT_RDCFG_n, 32 bit; 13 R341; reset 5423_012Ch. -/
  cfg : Word := 0x5423012C
  /-- STATE, 4 bit; 13 R341; reset OFF. -/
  st : RdSt := .off
  /-- STATUS, 8 bit; 13 R341; reset OK. -/
  status : Status := .ok
  /-- CARDS, 4 bit, sticks at 15; 13 R341; reset 0. -/
  cards : Nat := 0
  /-- RXLEN, 9 bit; 13 R341; reset 0. -/
  rxlen : Nat := 0
  /-- OUT_RDEVT_n, 9 bit; 13 R341; reset 0. -/
  evt : Word := 0
  /-- identifier records, 64 bytes; 13 R341; reset 0. -/
  ids : List Byte := []
  /-- transmit buffer, 256 bytes; 13 R341; reset DESIGN CHOICE 0 (log 39). -/
  tx : Bank Byte := ⟨0, []⟩
  /-- receive buffer, 256 bytes; 13 R341; reset 0. -/
  rx : Bank Byte := ⟨0, []⟩
  /-- ping baseline, amplitude and phase as numerators over 16^k, with k; 13 R334; reset none. -/
  base : Option (Int × Int × Nat) := none
  /-- poll cycles in a row without a card, 0 to 3; 13 R335; reset 0. -/
  empty : Nat := 0
  /-- the single card found; 13 R336; reset none. -/
  card : Option CardId := none
  /-- exchange in progress; 13 R337; reset none. -/
  xch : Option Xchg := none
  /-- emulation: an external field is present, 1 bit; 13 R339; reset 0. -/
  ext : Bool := false
  /-- emulation: the UID or PUPI drawn at the field entry, 32 bit; 13 R339; reset 0. -/
  uid : BitVec 32 := 0
  /-- emulation: activated by RATS or ATTRIB, 1 bit; 13 R339; reset 0. -/
  activated : Bool := false
  /-- emulation: halted by HLTB, 1 bit; 13 R339; reset 0. -/
  halt : Bool := false
  /-- emulation: the NDEF application is selected, 1 bit; 13 R339; reset 0. -/
  appSel : Bool := false
  /-- emulation: file selected, 1 E103, 2 E104; 13 R339; reset none. -/
  file : Option Nat := none
  /-- emulation: a field transaction is open, 1 bit; 13 R340; reset 0. -/
  openT : Bool := false
  /-- emulation: bytes answered last; 13 R339; reset none. -/
  ans : Option (List Byte) := none
  deriving DecidableEq, Repr

/-- A tag-emulation slot (13 R340, R341). -/
structure TagSlot where
  /-- LEN, 11 bit; 13 R341; reset 0. -/
  len : Nat := 0
  /-- TYPE_B, 1 bit; 13 R341; reset 0. -/
  typeB : Bool := false
  /-- WR_ERR, 1 bit; 13 R340; reset 0. -/
  wrErr : Bool := false
  /-- ACTIVE_BANK, 1 bit; 13 R341; reset 0. -/
  bank : Bool := false
  /-- SWAP_PENDING, 1 bit; 13 R340; reset 0. -/
  pending : Bool := false
  /-- EN, 1 bit; 13 R341; reset 0. -/
  en : Bool := false
  /-- CHANNEL, 4 bit; 13 R341; reset 0. -/
  channel : Nat := 0
  /-- banks 0 and 1, 1024 bytes each; 13 R340; reset DESIGN CHOICE 0 (log 39). -/
  bank0 : Bank Byte := ⟨0, []⟩
  bank1 : Bank Byte := ⟨0, []⟩
  /-- LEN taken at the last COMMIT; 13 R341; reset 0. -/
  lenNext : Nat := 0
  /-- LEN of the active bank; 13 R341; reset 0. -/
  lenAct : Nat := 0
  deriving DecidableEq, Repr

end Sys2Proof.Machine
end

