-- ==== Sys2Proof/Machine/StatePower.lean ====
section
/-!
DEFINITION. State of the power die: rails, pilots, protected outputs, residual-current inputs, insulation
monitoring, STO stages and the lanes' ends on that die. A power-die reset returns all of it to its reset
values (03 R70).
-/
set_option Elab.async false
namespace Sys2Proof.Machine

/-- Channel states of R354, in the order of OUT_STAT.STATE. -/
inductive OutSt where
  | off | pullIn | on | limit | thermWait | latched | held
  deriving DecidableEq, Repr

/-- A coil (x below 64) or load channel (14 R367). -/
structure Output where
  /-- OUT_CFG_x, 32 bit; 14 R367; reset 2232_2890h (coil), 2200_0010h (load). -/
  cfg : Word := 0x22322890
  /-- STATE, 3 bit; 14 R354; reset OFF. -/
  st : OutSt := .off
  /-- CAUSE, 2 bit; 14 R367; reset 0. -/
  cause : Nat := 0
  /-- RETRIES, 4 bit; 14 R352; reset 0. -/
  retries : Nat := 0
  /-- IGNORED, 16 bit, sticks; 14 R345; reset 0. -/
  ignored : Nat := 0
  /-- OL, 1 bit; 14 R357; reset 0. -/
  ol : Bool := false
  /-- WARN, 1 bit; 14 R355; reset 0. -/
  warn : Bool := false
  /-- BHOLD, 1 bit; 14 R354, 01 R26; reset 0. -/
  bhold : Bool := false
  /-- the pull-in's PULL_T has not elapsed, 1 bit; 14 R354; reset 0. -/
  pulling : Bool := false
  /-- the switch is above its restart level, 1 bit; 14 R353; reset 0. -/
  hot : Bool := false
  /-- power-die time of the restarts made in the last RETRY_WIN s, ms, oldest first; 14 R352; reset empty. -/
  restartAt : List Nat := []
  /-- restart request placed at Girth and not yet granted, 1 bit; 14 R351; reset 0. -/
  restartQ : Bool := false
  /-- OUT_EVT_x, 13 bit; 14 R367; reset 0. -/
  evt : Word := 0
  /-- RESTARTS, 16 bit, sticks; 14 R367; reset 0. -/
  restarts : Nat := 0
  /-- TRIPS, 16 bit, sticks; 14 R367; reset 0. -/
  trips : Nat := 0
  /-- OUT_TP_x.VTP, 16 bit; 14 R367; reset 0. -/
  vtp : Int := 0
  /-- OUT_TP_x.RESULT, 2 bit; 14 R367; reset 0. -/
  tpRes : Nat := 0
  /-- OUT_MEAS_x, 32 bit; 14 R367; reset 0. -/
  meas : Word := 0
  deriving DecidableEq, Repr

/-- Pilot states of R160, in the order of PIL_STAT.STATE. -/
inductive PilSt where
  | off | start | a | b | c | d | invalid | faultEf | faultNeg | drivenF
  deriving DecidableEq, Repr

/-- A point's pilot and proximity (07 R168). -/
structure PilotPt where
  /-- PIL_CFG_p, 32 bit; 07 R168; reset 0000_0010h. -/
  cfg : Word := 0x10
  /-- PIL_RSRC_p, 32 bit; 07 R168; reset 0FA0_2710h. -/
  rsrc : Word := 0x0FA02710
  /-- PIL_CMD_p.MODE, 2 bit; 07 R152; reset 0. -/
  mode : BitVec 2 := 0
  /-- PIL_CMD_p.DUTY, 10 bit; 07 R152; reset 0. -/
  duty : BitVec 10 := 0
  /-- command waiting for the next period start; 07 R153; reset none. -/
  pend : Option (BitVec 2 × BitVec 10) := none
  /-- MODE_ACT, 2 bit; 07 R153; reset 3, the safe state's steady −12 V (01 R22, R25); PIL_STAT_p reads 0 until the
  control die's registers have been rebuilt. -/
  modeAct : BitVec 2 := 3
  /-- mode in force before clamping, 2 bit; 07 R153, R155; reset 3, as MODE_ACT. -/
  modeCmd : BitVec 2 := 3
  /-- duty in force before clamping, 10 bit; 07 R153; reset 0. -/
  dutyCmd : BitVec 10 := 0
  /-- DUTY_ACT, 10 bit; 07 R155; reset 0. -/
  dutyAct : BitVec 10 := 0
  /-- CLAMPED, 1 bit; 07 R155; reset 0. -/
  clamped : Bool := false
  /-- WAKING, 1 bit; 07 R154; reset 0. -/
  waking : Bool := false
  /-- HELD, 1 bit; 07 R160; reset 0. -/
  held : Bool := false
  /-- NEG_OK, 1 bit; 07 R168; reset 0. -/
  negOk : Bool := false
  /-- LAST, 4 bit; 07 R168; reset 0. -/
  last : Nat := 0
  /-- STATE, 4 bit; 07 R160; reset DRIVEN_F (01 R22, R25), with PIL_STAT_p as above. -/
  st : PilSt := .drivenF
  /-- PIL_MEAS_p.NEG, mV; 07 R168; reset 8000h, none. -/
  neg : Option Int := none
  /-- PIL_MEAS_p.POS, mV; 07 R168; reset 0. -/
  pos : Int := 0
  /-- VTH in mV; 07 R168; reset 0. -/
  vth : Int := 0
  /-- CLASS, 4 bit; 07 R167; reset 0. -/
  cls : Nat := 0
  /-- RTH, 16 bit; 07 R168; reset FFFFh. -/
  rth : Nat := 0xFFFF
  /-- PIL_EVT_p, 9 bit; 07 R168; reset 0. -/
  evt : Word := 0
  /-- PIL_TS_p, 64 bit; 07 R168; reset 0. -/
  ts : Nat := 0
  /-- INDET, 16 bit, sticks; 07 R168; reset 0. -/
  indet : Nat := 0
  /-- CHANGES, 16 bit, sticks; 07 R168; reset 0. -/
  changes : Nat := 0
  /-- an event accepted while the control die was in reset, whose source is raised when the registers are rebuilt;
  07 R168; reset 0. -/
  evtLate : Bool := false
  /-- result of the running positive run and its length (6 indeterminate); 07 R159; reset 0, 0. -/
  cand : Nat := 0
  candRun : Nat := 0
  /-- run of periods with the E/F condition; 07 R159; reset 0. -/
  efRun : Nat := 0
  /-- run of periods with the negative plateau lost; 07 R159; reset 0. -/
  negRun : Nat := 0
  /-- first period after a change of MODE_ACT, not evaluated (positive, negative); 07 R156; reset 0. -/
  skipPos : Bool := false
  skipNeg : Bool := false
  /-- candidate proximity class and its run; 07 R167; reset 0, 0. -/
  pcand : Nat := 0
  prun : Nat := 0
  /-- driver disabled by a pilot-supply fault; 02 R52; reset 0. -/
  supplyDis : Bool := false
  /-- supply fault not yet released by the Bridle; 07 R160; reset 0. -/
  supplyFault : Bool := false
  /-- the Bridle's release after a supply fault came before the rail's; 02 R52; reset 0. -/
  relWait : Bool := false
  /-- switch form latched maximum, Ω; 07 R167; reset 300. -/
  latchedMax : Nat := 300
  /-- switch form released maximum, Ω; 07 R167; reset 1000. -/
  releasedMax : Nat := 1000
  /-- set by OFF_WAIT once in the present X1; 07 R160; reset 0. -/
  offWait : Bool := false
  deriving DecidableEq, Repr

/-- A residual-current input (14 R367). -/
structure RcCh where
  /-- IMD_RCCFG, 32 bit; 14 R367; reset 1E3C_6400h. -/
  cfg : Word := 0x1E3C6400
  /-- IAC, 0.01 mA, 16 bit; 14 R367; reset 0. -/
  iac : Nat := 0
  /-- IDC, 0.01 mA, 16 bit; 14 R367; reset 0. -/
  idc : Int := 0
  /-- TRIPS, 16 bit, sticks; 14 R367; reset 0. -/
  trips : Nat := 0
  /-- STATE, 3 bit; 14 R367; reset 0. -/
  st : Nat := 0
  /-- IMD_RCEVT, 6 bit; 14 R367; reset 0. -/
  evt : Word := 0
  /-- runs of the six rows of R359; 14 R359; reset 0. -/
  runs : List Nat := [0, 0, 0, 0, 0, 0]
  /-- windows in a row below half of both thresholds, up to 5; 14 R360; reset 0. -/
  low : Nat := 0
  /-- last window within range; 14 R358; reset 1 (log 22). -/
  inRange : Bool := true
  deriving DecidableEq, Repr

/-- States of an insulation channel (14 R363), in the order of IMD_RES.STATE. -/
inductive ImSt where
  | off | settling | ok | warn | fault | paused
  deriving DecidableEq, Repr

/-- One plateau: Vp and Vn at the bus and the difference of its two last 10 % spans, in mV (14 R361, R362). -/
structure Plateau where
  vp : Int
  vn : Int
  span : Nat
  deriving DecidableEq, Repr

/-- An insulation-monitoring channel (14 R367). -/
structure ImCh where
  /-- IMD_CFG.HALF_T, 8 bit; 14 R367; reset 0Ah. -/
  halfT : Nat := 0x0A
  /-- IMD_CFG.VINJ, 4 bit; 14 R367; reset 5. -/
  vinj : Nat := 5
  /-- IMD_CFG.PAUSE, 1 bit; 14 R367; reset 0. -/
  pause : Bool := false
  /-- IMD_CFG.EN, 1 bit; 14 R367; reset 0. -/
  en : Bool := false
  /-- IMD_NET, 32 bit; 14 R367; reset 03E8_0064h. -/
  net : Word := 0x03E80064
  /-- IMD_DIV, 16 bit; 14 R367; reset C8h. -/
  div : Nat := 0xC8
  /-- IMD_THR, 32 bit; 14 R367; reset 0064_01F4h. -/
  thr : Word := 0x006401F4
  /-- RISO, 16 bit; 14 R367; reset 0. -/
  riso : Nat := 0
  /-- POLE, 2 bit; 14 R367; reset 0. -/
  pole : Nat := 0
  /-- STATE, 3 bit; 14 R363; reset OFF. -/
  st : ImSt := .off
  /-- VN and VP of IMD_VBUS, V, 16 bit each; 14 R367; reset 0. -/
  vn : Int := 0
  vp : Int := 0
  /-- IMD_EVT, 7 bit; 14 R367; reset 0. -/
  evt : Word := 0
  /-- the plateau measured last; 14 R361; reset none. -/
  plat : Option Plateau := none
  /-- the last two results, newest first; 14 R363; reset empty. -/
  results : List Nat := []
  deriving DecidableEq, Repr

/-- Latches of an STO output (15 R379). -/
structure StoLatch where
  a : Bool := false
  b : Bool := false
  deriving DecidableEq, Repr

/-- Sequence-signal latches of a type-5 port (10 R242). -/
structure SeqLatch where
  d1 : Bool := false
  d2 : Bool := false
  deriving DecidableEq, Repr

/-- The power die. -/
structure PowerDie where
  /-- in its safe state, 1 bit; 01 R25; reset 1 (entered at power-on). -/
  safe : Bool := true
  /-- its own oscillator runs, 1 bit; 03 R66; reset 1. -/
  clkOk : Bool := true
  /-- ms of its own oscillator since its power-on reset, the time base of the retry window; 14 R352; reset 0. -/
  ms : Nat := 0
  /-- a report of an entry into the safe state is on its way to the Bridle in RUN, 1 bit; 01 R25; reset 0: the Bridle
  does not run at power-on. -/
  report : Bool := false
  /-- valid safety-lane heartbeats in a row since that report, up to 10; 01 R25; reset 0. -/
  hbRun : Nat := 0
  /-- VLOAD outside its range, 1 bit; 02 R51; reset 0. -/
  vload : Bool := false
  /-- VPILP tripped, 1 bit; 02 R52; reset 0. -/
  vpilp : Bool := false
  /-- VPILN tripped, 1 bit; 02 R52; reset 0. -/
  vpiln : Bool := false
  /-- VDRV tripped, 1 bit; 02 R50; reset 0. -/
  vdrv : Bool := false
  /-- power-fail warning in force, 1 bit; 02 R50; reset 0. -/
  pfin : Bool := false
  /-- C00 to C63; 14 R367; reset as Output. -/
  coils : Bank Output := ⟨{}, []⟩
  /-- L00 to L31; 14 R367; reset as Output with OUT_CFG 2200_0010h. -/
  loads : Bank Output := ⟨{ cfg := 0x22000010 }, []⟩
  /-- P00 to P63; 07 R168; reset as PilotPt. -/
  pilots : Bank PilotPt := ⟨{}, []⟩
  /-- PIL_GSTAT.TRIMMED, 1 bit; 07 R151; reset 0. -/
  trimmed : Bool := false
  /-- PIL_GSTAT.PERIOD, 24 bit, ns; 07 R168; reset F4240h. -/
  period : Nat := 0xF4240
  /-- the control die's PIL_ registers rebuilt since the last application reset; 07 R168; reset 0. -/
  pilRebuilt : Bool := false
  /-- high words latched by reads of PIL_TS_p, per port; 07 R168; reset 0. -/
  tsLatch : Bank Word := ⟨0, []⟩
  /-- OUT_PROT.LOCK, 1 bit; 14 R367; reset 0. -/
  protLock : Bool := false
  /-- OUT_PROT.RETRY_WIN, 8 bit; 14 R352; reset 3Ch. -/
  retryWin : Nat := 0x3C
  /-- OUT_PROT.RETRY_MAX, 4 bit; 14 R352; reset 4. -/
  retryMax : Nat := 4
  /-- OUT_PROT.TEST, 1 bit; 14 R351; reset 0. -/
  test : Bool := false
  /-- OUT_PROT.RUN, 1 bit; 14 R351; reset 0. -/
  run : Bool := false
  /-- OUT_QTEMP, 4 × 8 bit; 14 R367; reset 0. -/
  qtemp : Bank (BitVec 8) := ⟨0, []⟩
  /-- OUT_QBAND.BAND, 4 × 2 bit; 14 R355; reset 0. -/
  qband : Bank Nat := ⟨0, []⟩
  /-- OUT_QBAND.QCHG, 4 bit; 14 R355; reset 0. -/
  qchg : BitVec 4 := 0
  /-- OUT_SUM.SUM, 16 bit; 14 R344; reset 0. -/
  sum : Nat := 0
  /-- OUT_SUM.OVER, 1 bit; 14 R344; reset 0. -/
  sumOver : Bool := false
  /-- RC00 to RC63; 14 R367; reset as RcCh. -/
  rc : Bank RcCh := ⟨{}, []⟩
  /-- IM00 to IM15; 14 R367; reset as ImCh. -/
  im : Bank ImCh := ⟨{}, []⟩
  /-- STO0 to STO7 stage latches; 01 R22, 15 R379; reset torque removed. -/
  sto : Bank StoLatch := ⟨{}, []⟩
  /-- sequence-signal latches of V0 to V7; 01 R22, 10 R242; reset off. -/
  seq : Bank SeqLatch := ⟨{}, []⟩
  /-- PERM and PROX sequence inputs, 2 × 8 bit; 10 R242; reset 0. -/
  seqPerm : Bank Bool := ⟨false, []⟩
  seqProx : Bank Bool := ⟨false, []⟩
  /-- panel-sequencing latches, 8 bit; 01 R22, 13 R318; reset 0. -/
  psq : BitVec 8 := 0
  /-- ms until PSQm_0 to PSQm_2 release by themselves; 13 R321; reset none. -/
  psqDue : Option Nat := none
  /-- reader fields on, N00 to N15, 16 bit; 04 R87, 13 R333; reset 0. -/
  fields : BitVec 16 := 0
  /-- mains line drivers on, M0 and M1, 2 bit; 04 R87; reset 0. -/
  lines : BitVec 2 := 0
  /-- N00 to N15; 13 R341; reset as Reader. -/
  readers : Bank Reader := ⟨{}, []⟩
  /-- emulation slots 0 to 3; 13 R341; reset as TagSlot. -/
  tags : Bank TagSlot := ⟨{}, []⟩
  deriving DecidableEq, Repr

end Sys2Proof.Machine
end

