-- ==== Sys2Proof/Machine/StateRein.lean ====
section
/-!
DEFINITION. State of the Rein engines and their session contexts (09). An application reset returns all
of it to its reset values.
-/
set_option Elab.async false
namespace Sys2Proof.Machine

/-- Hardware states of a context (09 R206), in the order of SES_CTX.STATE. -/
inductive CtxSt where
  | free | idle | ready | running | trapped
  deriving DecidableEq, Repr

/-- A session slot (09 R190 to R210). -/
structure Ctx where
  /-- STATE, 3 bit; 09 R206; reset FREE. -/
  st : CtxSt := .free
  /-- ROLE, 2 bit: 0 QUEUED, 1 ACTIVE, 2 CLOSING, 3 BILLING; 09 R208; reset 0. -/
  role : Nat := 0
  /-- POINT, 6 bit; 09 R207; reset 0. -/
  point : Nat := 0
  /-- GEN, 16 bit; 09 R209; reset 0. -/
  gen : Nat := 0
  /-- trap cause in STATUS, 8 bit; 09 R203; reset 0. -/
  cause : Nat := 0
  /-- TRAP_PC, 32 bit; 09 R193; reset 0. -/
  trapPc : Word := 0
  /-- TRAP_VAL, 32 bit; 09 R193; reset 0. -/
  trapVal : Word := 0
  /-- ACTIVATIONS, 32 bit, sticks; 09 R193; reset 0. -/
  acts : Nat := 0
  /-- pending classes 0 to 10, 16 bit; 09 R194; reset 0. -/
  pend : BitVec 16 := 0
  /-- EV_LIVE, 16 bit; 09 R199; reset 0. -/
  live : BitVec 16 := 0
  /-- SES_EVT and EV_WORD, 32 bit; 09 R199; reset 0. -/
  evWord : Word := 0
  /-- undelivered software codes, at most 8; 09 R198; reset empty. -/
  codes : List Byte := []
  /-- stashed messages, at most 8; 09 R197; reset empty. -/
  stash : List (List Word) := []
  /-- POSTST, 8 bit; 09 R198; reset OK. -/
  postSt : Status := .ok
  /-- SES_POSTST of the context, 8 bit; 09 R214; reset OK. -/
  postrSt : Status := .ok
  /-- SES_CMDST of the context: GEN, CTX, STATUS; 09 R214; reset 0. -/
  cmdSt : Nat × Nat × Status := (0, 0, .ok)
  /-- SES_USE_c.MAX, 16 bit; 09 R214; reset 0. -/
  useMax : Nat := 0
  /-- cycles left of the handler budget, 16 bit; 09 R202; reset 0. -/
  left : Nat := 0
  /-- classes that the running activation took through EV_TAKE, 16 bit; 09 R199; reset 0. -/
  taken : BitVec 16 := 0
  /-- level sources claimed for the context and not yet delivered, with their classes; 09 R196; reset empty. -/
  levels : List (Nat × Nat) := []
  /-- level sources that the running activation delivers, held in service until it ends; 09 R196; reset empty. -/
  inServ : List Nat := []
  /-- HT at START, 64 bit, ns; 09 R215; reset 0. -/
  startHt : Nat := 0
  /-- register bank; 09 R191; reset as Hart. -/
  regs : Hart := {}
  deriving DecidableEq, Repr

/-- A trap notice (09 R203), words 0 to 7. -/
abbrev TrapNotice := List Word

/-- A Rein engine's registers (09 R214). -/
structure Engine where
  /-- SES_ECFG.BUDGET, 16 bit; 09 R202; reset 4E20h. -/
  budget : Nat := 0x4E20
  /-- SES_ECFG.CFG_ERR, 1 bit; 09 R214; reset 0. -/
  cfgErr : Bool := false
  /-- SES_ENTRY, 17 bit; 09 R214; reset 0. -/
  entry : Nat := 0
  /-- MISROUTE, 8 bit, sticks; 09 R195; reset 0. -/
  misroute : Nat := 0
  /-- DROPMSG, 6 bit, sticks; 09 R197; reset 0. -/
  dropMsg : Nat := 0
  /-- context running, 5 bit; 09 R201; reset none. -/
  running : Option Nat := none
  /-- context that ran last, 5 bit; 09 R201; reset 31. -/
  lastRan : Nat := 31
  /-- trap notices waiting for mailbox space; 09 R203; reset empty. -/
  notices : List TrapNotice := []
  /-- SES_XR_k, 16 × 32 bit; 09 R214; reset 0. -/
  xr : Bank Word := ⟨0, []⟩
  /-- SES_CMDST per port other than the engine's: GEN, CTX, STATUS; 09 R214; reset 0. -/
  cmdSt : Bank (Nat × Nat × Status) := ⟨(0, 0, .ok), []⟩
  /-- SES_POSTST per port other than the engine's; 09 R214; reset OK. -/
  postrSt : Bank Status := ⟨.ok, []⟩
  deriving DecidableEq, Repr

end Sys2Proof.Machine
end

