-- ==== Sys2Proof/Machine/StateSealed.lean ====
section
/-!
DEFINITION. State of the sealed die: metrology (11), billing, legal time and credit (12), the Burnisher's
panels and the keypad (13), and what of it is in MRAM (17 R427). A reset of the control die changes none
of it (01 R21).
-/
set_option Elab.async false
namespace Sys2Proof.Machine

/-! ### Committed state (17 R427): lost back to the newest commit at a sealed-die reset -/

/-- One demand-interval entry (12 R290). -/
structure IntEntry where
  mtk : Nat
  /-- mWh × 2^32. -/
  imp : Int
  exp : Int
  lenS : Nat
  flags : BitVec 16
  tariff : Nat
  deriving DecidableEq, Repr

/-- States of a billing record (12 R298). -/
inductive RecSt where
  | open | closing | signed
  deriving DecidableEq, Repr

/-- A purse (12 R309); amounts in purse units. -/
structure Purse where
  /-- 0 none, 1 currency, 2 energy; 12 R313; reset 0. -/
  unit : Nat := 0
  /-- 32 bit; 12 R313; reset 0. -/
  credited : Nat := 0
  /-- 8 bit; 12 R313; reset 0. -/
  tokens : Nat := 0
  /-- the notice at 10 % and at 0 has been sent; 12 R309; reset 0. -/
  told10 : Bool := false
  told0 : Bool := false
  /-- refund token: TID, SUB, amount and 20 digits; 12 R310; reset none. -/
  refund : Option (Nat × List Byte) := none
  deriving DecidableEq, Repr

/-- A billing record (12 R296 to R301). -/
structure Rec where
  serial : Nat
  point : Nat
  handle : Nat
  method : Nat := 0
  ident : List Byte := []
  st : RecSt := .open
  mtkOpen : Nat := 0
  ltOpen : Nat := 0
  mtkClose : Nat := 0
  ltClose : Nat := 0
  offset : Int := 0
  reason : Nat := 0
  group : Nat := 0
  currency : Nat := 0
  calId : Nat := 0
  calVer : Nat := 0
  /-- tariff in force at open, for the session fee; 12 R292. -/
  feeTariff : Nat := 0
  /-- session fee fixed at open; 12 R292. -/
  fee : Int := 0
  /-- point import and export registers at open, mWh × 2^32; 12 R300. -/
  impOpen : Int := 0
  expOpen : Int := 0
  /-- the point's tariff registers at open, mWh × 2^32; 12 R292. -/
  tImp0 : Bank Int := ⟨0, []⟩
  tExp0 : Bank Int := ⟨0, []⟩
  /-- energy of the record by tariff so far, mWh × 2^32; 12 R292. -/
  tImp : Bank Int := ⟨0, []⟩
  tExp : Bank Int := ⟨0, []⟩
  /-- ms of MTK in each tariff under the time basis; 12 R292. -/
  tMs : Bank Nat := ⟨0, []⟩
  /-- tariffs in order of first use; 12 R300. -/
  used : List Nat := []
  /-- MTK up to which the time basis has been counted; none while it does not run; 12 R299. -/
  since : Option Nat := none
  flags : BitVec 32 := 0
  residue : Int := 0
  energyCost : Int := 0
  timeCost : Int := 0
  purse : Purse := {}
  confirms : Nat := 0
  digest : BitVec 384 := 0
  calib : Nat := 0
  /-- number of the last signed reading, 16 bit; 12 R301. -/
  reading : Nat := 0
  /-- the last signed reading, 144 bytes; 12 R301. -/
  lastReading : List Byte := []
  /-- the signed record, 576 bytes; 12 R300. -/
  bytes : List Byte := []
  /-- what a display showed last of the session import: rollovers logged; 17 R426. -/
  rolled : Nat := 0
  deriving DecidableEq, Repr

/-- Billing registers of a point, in mWh × 2^32 where not said otherwise (12 R291, R314). -/
structure PointBill where
  /-- import in tariff 0 to 15, 64 + 32 bit; 12 R291; reset 0. -/
  imp : Bank Int := ⟨0, []⟩
  /-- export in tariff 0 to 15, 64 + 32 bit; 12 R291; reset 0. -/
  exp : Bank Int := ⟨0, []⟩
  /-- unbilled import and export, 64 + 32 bit; 12 R291; reset 0. -/
  unbImp : Int := 0
  unbExp : Int := 0
  /-- import and export of the interval in progress; 12 R290; reset 0. -/
  intImp : Int := 0
  intExp : Int := 0
  /-- mean import of the last closed interval, W; 12 R314; reset 0. -/
  mean : Nat := 0
  /-- maximum demand, W, and its MTK; 12 R290; reset 0. -/
  maxW : Nat := 0
  maxMtk : Nat := 0
  /-- records opened, 32 bit; 12 R314; reset 0. -/
  opened : Nat := 0
  /-- interval ring, at most 96, oldest first; 12 R290; reset empty. -/
  ring : List IntEntry := []
  /-- pending credit: unit, amount, tokens, MTK of acceptance; 12 R309; reset none. -/
  pending : Option (Nat × Nat × Nat × Nat) := none
  deriving DecidableEq, Repr

/-- What a commit captures (17 R427). -/
structure Ledger where
  /-- A+, A−, Q1 to Q4 of element e at index 6 e, mWh × 2^32; 11 R267; reset 0. -/
  reg : Bank Nat := ⟨0, []⟩
  /-- points; 12 R314; reset as PointBill. -/
  pts : Bank PointBill := ⟨{}, []⟩
  /-- records that are OPEN, CLOSING or SIGNED, by serial, at most 4096; 12 R302; reset none. -/
  recs : List Rec := []
  /-- MTK at the start of the interval in progress; 12 R290; reset 0. -/
  intStart : Nat := 0
  /-- LT, ms, at which it ends; 12 R290; reset 15 minutes. -/
  intEnd : Nat := 900000
  /-- tariff changes of the last boundaries, newest first: MTK and the tariff from it on; 12 R291; reset empty. -/
  cuts : List (Nat × Nat) := []
  /-- interval length in force, min; 12 R290; reset 15. -/
  intLen : Nat := 15
  /-- flags that the interval in progress will carry; 12 R290, R293; reset SHORT, it began at the start. -/
  intFlags : BitVec 16 := 1
  /-- tariff index in force; 12 R289; reset 0. -/
  tariff : Nat := 0
  /-- MTK of the commit, ms; 17 R430; reset 0. -/
  mtk : Nat := 0
  /-- LT at the commit, ms UTC since 1970; 12 R286; reset 0 (log 30). -/
  lt : Nat := 0
  deriving DecidableEq, Repr

/-! ### Metrology (11) -/

/-- The computed quantities of one closed cycle, block or slice (R264, R266). Voltage in mV, current
in mA, power in mW and mvar; energies in mWh and mvarh times 2^32 (R267); `durUs` its length. `eaMs` is
the active energy of its samples by millisecond of MTK, the last entry ending at the cycle's end, so that
a boundary within the cycle splits it per sample (R291). -/
structure CycleData where
  v : Int
  i : Int
  p : Int
  q : Int
  sVa : Nat
  pf : Int
  f : Nat
  vrip : Nat
  irip : Nat
  eaMs : List Int
  er : Int
  durUs : Nat
  overrange : Bool
  replaced : Bool
  deriving DecidableEq, Repr

/-- Volatile state of an element (11 R262 to R278). -/
structure Elem where
  /-- in block mode, 1 bit; 11 R262; reset 0. -/
  block : Bool := false
  /-- the status of the last closed cycle, 10 bit; 11 R278; reset 0. -/
  status : BitVec 32 := 0
  /-- the last closed cycle's quantities and MTK; 11 R277; reset none. -/
  last : Option (CycleData × Nat) := none
  /-- sample index within that ms of the boundary; 11 R262; reset 0. -/
  lastIdx : Nat := 0
  /-- temperature band in force for the element, none before its first cycle; 11 R259; reset none. -/
  band : Option Nat := none
  /-- test registers, mWh × 2^32, in the order of R278; 11 R267; reset 0. -/
  test : Bank Nat := ⟨0, []⟩
  /-- staged parameters wait for the next cycle boundary, 1 bit; 11 R275; reset 0. -/
  due : Bool := false
  /-- samples replaced or overrange in the cycle in progress; 11 R278; reset 0. -/
  cycRep : Bool := false
  cycOver : Bool := false
  /-- the band changed at the start of the cycle in progress, 1 bit; 11 R259; reset 0. -/
  switched : Bool := false
  /-- residue register, µWh; 17 R428; reset 0. -/
  residue : Int := 0
  deriving DecidableEq, Repr

/-- Volatile state of a channel (11 R279). -/
structure Chan where
  /-- gain in force, 1, 4, 16, 64; 11 R252; reset 1. -/
  gain : Nat := 1
  /-- RMS and peak of the last reference cycle, mV or mA; 11 R277, R279; reset 0. -/
  rms : Nat := 0
  peak : Nat := 0
  /-- full cycles of the reference element below 40 % of the next gain's full scale; 11 R255; reset 0. -/
  low : Nat := 0
  /-- overloaded since the last boundary of the reference element, 1 bit; 11 R255; reset 0. -/
  loud : Bool := false
  /-- running fit of the SAR path: gain error in ppm and offset in µV; 11 R250; reset 0. -/
  sarGain : Int := 0
  sarOff : Int := 0
  /-- MODFAIL, 1 bit; 11 R251; reset 0. -/
  modfail : Bool := false
  /-- gain drops, 32 bit, sticks; 11 R253; reset 0. -/
  drops : Nat := 0
  /-- replaced samples, 32 bit, sticks; 11 R254; reset 0. -/
  replaced : Nat := 0
  /-- overrange samples, 32 bit, sticks; 11 R254; reset 0. -/
  overs : Nat := 0
  /-- check state 0 UNCHECKED, 1 PASS, 2 SUSPECT, 3 FAILED; 11 R273; reset 0. -/
  check : Nat := 0
  /-- the shadow whose failed check made it SUSPECT; 11 R273; reset none. -/
  suspectBy : Option Nat := none
  /-- group values G1 to G63 and THD at 64, by order, and the window's MTK; 11 R265; reset 0. -/
  g : Bank Nat := ⟨0, []⟩
  gMtk : Nat := 0
  /-- temperature band of the harmonic window in progress, none before the first; 11 R259; reset none. -/
  hBand : Option Nat := none
  deriving DecidableEq, Repr

/-- A pulse output (11 R269). -/
structure Pulse where
  /-- pending pulses, 16 bit, sticks; 11 R269; reset 0. -/
  pend : Nat := 0
  /-- PLS_OVF, 1 bit; 11 R269; reset 0. -/
  ovf : Bool := false
  /-- the output is high, 1 bit; 11 R269; reset 0. -/
  high : Bool := false
  /-- on time taken for the present pulse, ms; 11 R280; reset 20. -/
  ton : Nat := 20
  /-- what the output follows: source, register, constant, and whether the test registers; 11 R269; reset none. -/
  follows : Option (Nat × Nat × Nat × Bool) := none
  /-- pulses that had fallen due of it; 11 R269; reset 0. -/
  count : Nat := 0
  deriving DecidableEq, Repr

/-- A parameter written while a seal procedure is open (11 R275). -/
structure ParamWrite where
  idx : Nat
  sub : Nat
  off : Nat := 0
  data : List Byte
  deriving DecidableEq, Repr

/-- Metrology of the sealed die. -/
structure Metro where
  elem : Bank Elem := ⟨{}, []⟩
  chan : Bank Chan := ⟨{}, []⟩
  pls : Bank Pulse := ⟨{}, []⟩
  /-- coefficient table, 2160 entries of 8 bytes; 11 R260; reset per part: DESIGN CHOICE gain 1.0, no delay and offset (log 31). -/
  coef : Bank (BitVec 64) := ⟨0x40000000, []⟩
  /-- offset of the coefficient window, 16 bit; 11 R280; reset 0. -/
  coefOff : Nat := 0
  /-- temperature band, 0 to 14; 11 R258; reset DESIGN CHOICE 0 (log 31). -/
  band : Nat := 0
  /-- sealed-die temperature, °C; 11 R280; reset DESIGN CHOICE 0 (log 31). -/
  temp : Int := 0
  /-- shadows retired, 8 bit; 11 R273; reset 0. -/
  retired : BitVec 8 := 0
  /-- SHADOW_FAIL, 1 bit; 11 R273; reset 0. -/
  shadowFail : Bool := false
  /-- disagreements in succession, per shadow; 11 R273; reset 0. -/
  disagree : Bank Nat := ⟨0, []⟩
  /-- the channels under an open seal procedure; none while SEALED; 11 R275; reset none. -/
  sealSel : Option (BitVec 144) := none
  /-- parameters staged in the procedure; 11 R275; reset empty. -/
  staged : List ParamWrite := []
  /-- parameters committed that wait for an element's cycle boundary; 11 R275; reset empty. -/
  toApply : List ParamWrite := []
  /-- calibration counter, 32 bit, sticks; 11 R275; reset 0. -/
  calib : Nat := 0
  /-- metrology reference failed, 1 bit; 03 R66; reset 0. -/
  refFail : Bool := false
  deriving DecidableEq, Repr

/-! ### Legal time, calendar, log, tokens (12) -/

/-- A legal-log entry (12 R303); `data` is at most 104 bytes, the rest 0. -/
structure LogEntry where
  idx : Nat
  kind : Nat
  mtk : Nat
  lt : Nat
  data : List Byte
  deriving DecidableEq, Repr

/-- A value being written in parts (12 R283). -/
structure Staging where
  idx : Nat
  sub : Nat
  data : List Byte
  deriving DecidableEq, Repr

/-- Legal time, calendar, log and tokens: MRAM, kept through a sealed-die reset (12). -/
structure Legal where
  /-- MTK, 64 bit, ms; 00 R8; reset DESIGN CHOICE 0 (log 30). -/
  mtk : Nat := 0
  /-- LT, 64 bit, ms UTC since 1970; 12 R284; reset DESIGN CHOICE 0 (log 30). -/
  lt : Nat := 0
  /-- local offset, min; 12 R284; reset 0. -/
  offset : Int := 0
  /-- LT status: 0 LT_INTERRUPTED, 1 battery low, 2 crystal failed; 12 R315; reset 0. -/
  ltStat : BitVec 3 := 0
  /-- the legal clock stopped since the last start, 1 bit; 12 R286; reset 0. -/
  stopped : Bool := false
  /-- Operator steps: MTK and magnitude, ms; 12 R285; reset empty. -/
  steps : List (Nat × Nat) := []
  /-- active calendar, bytes of R288; 12 R287; reset empty. -/
  active : List Byte := []
  /-- passive calendar; 12 R287; reset empty. -/
  passive : List Byte := []
  /-- passive state 0 empty, 1 valid, 2 scheduled, 3 invalid; 12 R315; reset 0. -/
  passiveSt : Nat := 0
  /-- activation time, LT in s, while scheduled; 12 R287; reset 0. -/
  actAt : Nat := 0
  /-- scheduled offset changes up to this UTC instant, s, have been made; 12 R289; reset 0. -/
  chgDone : Nat := 0
  /-- legal log, oldest first, at most 8192; 12 R303; reset empty. -/
  log : List LogEntry := []
  /-- index of the next entry, 32 bit; 12 R303; reset DESIGN CHOICE 1 (log 32). -/
  logNext : Nat := 1
  /-- events not written, 32 bit, sticks; 12 R304; reset 0. -/
  notWritten : Nat := 0
  /-- last serial assigned, 64 bit; 12 R297; reset 0. -/
  lastSerial : Nat := 0
  /-- collected up to serial, 64 bit; 12 R302; reset 0. -/
  collected : Nat := 0
  /-- record key, private part, 384 bit; 12 R300; reset per part: DESIGN CHOICE 0 (log 33). -/
  recordKey : BitVec 384 := 0
  /-- approved device key, private, 384 bit; 01 R29; reset as at manufacture: DESIGN CHOICE 0 (log 104). -/
  deviceKey : BitVec 384 := 0
  /-- record key, public part, 97 bytes; 12 R315; reset per part: DESIGN CHOICE empty (log 33). -/
  recordPub : List Byte := []
  /-- token key TK, 32 bytes; none until loaded; 12 R306; reset none. -/
  tk : Option (List Byte) := none
  /-- token key generation, 8 bit, sticks; 12 R315; reset 0. -/
  tkGen : Nat := 0
  /-- token ledger: accepted TIDs as minute counts UTC since 2024, at most 65 536; 12 R308, 17 R424; reset empty. -/
  ledger : List Int := []
  /-- tokens accepted, 32 bit, sticks; 12 R315; reset 0. -/
  tokOk : Nat := 0
  /-- tokens refused, 32 bit, sticks; 12 R315; reset 0. -/
  tokBad : Nat := 0
  /-- INTEGRITY refusals in succession; 12 R308; reset 0. -/
  badRun : Nat := 0
  /-- end of the lockout, MTK; 12 R308; reset none. -/
  lockEnd : Option Nat := none
  /-- length of the last lockout, s; 12 R308; reset 0. -/
  lockLen : Nat := 0
  /-- fuse-held role set of the sealed die: roles off, 6 bit; 01 R35; reset as programmed: DESIGN CHOICE 20h (log 5). -/
  roleOff : BitVec 6 := 0x20
  /-- device serial number 1018h.04, 32 bit; 12 R300; reset as programmed: DESIGN CHOICE 0 (log 5). -/
  devSerial : Word := 0
  deriving DecidableEq, Repr

/-! ### Panels and keypad (13) -/

/-- Panel states of R330, in the order of 7800h+m.0A. -/
inductive PanelSt where
  | off | starting | on | failed | stopping
  deriving DecidableEq, Repr

/-- One line of a panel. All pixels of a line are driven or held together, and odd columns mirror the
even ones, so the ledger code of a line is that of its even columns (13 R322, R324). -/
structure PLine where
  /-- ledger code of the even columns, 0 to 3; 13 R322; reset 2. -/
  code : Nat := 2
  /-- palette indices in frame memory, by column; 13 R328; reset DESIGN CHOICE 0 (log 34). -/
  mem : Bank Byte := ⟨0, []⟩
  /-- palette indices shown, blink phases applied; 13 R323; reset DESIGN CHOICE 0 (log 34). -/
  shown : Bank Byte := ⟨0, []⟩
  /-- a change is due, 1 bit; 13 R323; reset 0. -/
  due : Bool := false
  /-- a redraw is pending, 1 bit; 13 R324; reset 0. -/
  redraw : Bool := false
  deriving DecidableEq, Repr

/-- A blinking palette entry (13 R325). -/
structure Blink where
  partner : Nat := 0
  half : Nat := 8
  on : Bool := false
  phase : Bool := false
  /-- frame starts since the last half-period; 13 R325; reset 0. -/
  age : Nat := 0
  deriving DecidableEq, Repr

/-- What the legal region shows (13 R326), as values. -/
structure LegalView where
  point : Option Nat := none
  recSt : Nat := 0
  tariff : Nat := 0
  price : Int := 0
  currency : Nat := 0
  /-- displayed import, Wh modulo 10^9; 17 R426. -/
  importWh : Nat := 0
  cost : Int := 0
  digits : List Nat := []
  remaining : Nat := 0
  refund : List Byte := []
  lt : Nat := 0
  /-- the keypad's message and the result of a token, where the panel is the keypad's; 13 R332. -/
  msg : Nat := 0
  result : Status × Nat := (.ok, 0)
  deriving DecidableEq, Repr

/-- Where a panel's start or stop stands between its steps (13 R319, R320). -/
inductive PanelWait where
  | none | clear | stop
  deriving DecidableEq, Repr

/-- A panel (13 R316 to R330). -/
structure Panel where
  /-- STATE; 13 R330; reset OFF. -/
  st : PanelSt := .off
  /-- enable as it stands: written 0 since the failure; 13 R330; reset 0. -/
  rearm : Bool := false
  /-- waiting for a kind-6 grant, or for the link to run a stop; 13 R319, R321; reset none. -/
  wait : PanelWait := .none
  /-- refused with BUSY, made again 100 ms later; 13 R319; reset 0. -/
  retry : Bool := false
  /-- geometry waiting for its clearing pair: x, y, w, h; 13 R326; reset none. -/
  newGeom : Option (Nat × Nat × Nat × Nat) := none
  /-- faulty frames in a row; 13 R330; reset 0. -/
  faulty : Nat := 0
  /-- bad lines, 32 bit, sticks; 13 R342; reset 0. -/
  badLines : Nat := 0
  /-- loop mismatches, 32 bit, sticks; 13 R342; reset 0. -/
  loopBad : Nat := 0
  /-- frame counter, 32 bit; 13 R328; reset 0. -/
  frames : Nat := 0
  /-- clearing frames drawn, observed; 13 R319, R320; reset 0. -/
  clears : Nat := 0
  /-- half rate in force since the last frame start, 1 bit; 13 R324; reset 0. -/
  halfRate : Bool := false
  /-- temperature band whose drive table is sent; 13 R327; reset 0. -/
  driveBand : Nat := 0
  /-- lines 0 to 479; 13 R322; reset as PLine. -/
  lines : Bank PLine := ⟨{}, []⟩
  /-- palette entries 0 to 191, 24 bit; 13 R328; reset DESIGN CHOICE 0 (log 34). -/
  palette : Bank (BitVec 24) := ⟨0, []⟩
  /-- blinking entries; 13 R325; reset none. -/
  blink : Bank Blink := ⟨{}, []⟩
  /-- phase of the seal border, pixels modulo 4; 13 R326; reset 0. -/
  border : Nat := 0
  /-- what the legal region shows; 13 R326; reset empty. -/
  view : LegalView := {}
  deriving DecidableEq, Repr

/-- Keypad states (13 R332). -/
inductive KeySt where
  | idle | select | selected | token
  deriving DecidableEq, Repr

/-- The keypad (13 R331, R332). -/
structure Keypad where
  /-- 2 bit; 13 R332; reset IDLE. -/
  st : KeySt := .idle
  /-- digits in the buffer; 13 R332; reset empty. -/
  buf : List Nat := []
  /-- point selected; 13 R342; reset none, FFh. -/
  point : Option Nat := none
  /-- message shown: 0 none, 1 invalid point, 2 token entry refused, 3 a token's result; 13 R332; reset 0. -/
  msg : Nat := 0
  /-- status and amount of the result shown; 13 R332; reset OK, 0. -/
  result : Status × Nat := (.ok, 0)
  deriving DecidableEq, Repr

/-! ### The die -/

/-- Power-fail sequence of the sealed die (17 R427). -/
inductive PfSt where
  | none | warned | landed | released
  deriving DecidableEq, Repr

/-- The sealed die. -/
structure SealedDie where
  /-- running: VMCORE and VMIO good and its start done, 1 bit; 01 R21; reset 0. -/
  running : Bool := false
  /-- internal watchdog or supply reset of the die not yet followed by its start, 1 bit; 01 R21; reset 1. -/
  inReset : Bool := true
  /-- sealed-side end of the link; 01 R28; reset as LinkEnd. -/
  link : LinkEnd := {}
  /-- MTK of the last agreement request answered; 01 R29; reset none. -/
  agreedAt : Option Nat := none
  /-- state in work; 17 R427; reset as Ledger. -/
  cur : Ledger := {}
  /-- the newest commit with a good CRC; 17 R427, R430; reset as Ledger. -/
  saved : Ledger := {}
  met : Metro := {}
  legal : Legal := {}
  /-- power-fail sequence; 17 R427; reset none. -/
  pf : PfSt := .none
  /-- MTK of the last power-fail warning; 12 R294; reset 0. -/
  pfAt : Nat := 0
  /-- the newest commit is a power-fail or slice commit of an outage, 1 bit; 17 R430; reset 0. -/
  pfSaved : Bool := false
  /-- objects of 5000h to 5FFFh, 7800h to 7807h and 7840h of persistence S, by index × 256 + subindex, as
  written; 12 R313 to R315, 11 R278 to R280, 13 R342; reset their defaults. -/
  obj : Bank (Option (List Byte)) := ⟨none, []⟩
  /-- entries being written in parts; 12 R283; reset empty. -/
  staging : List Staging := []
  /-- record and log selectors by client role; 12 R315; reset 0. -/
  sel : Bank Nat := ⟨0, []⟩
  /-- kind of the last session notice 1 or 2 of a point, for the display; 12 R299; reset 0. -/
  noticed : Bank Nat := ⟨0, []⟩
  panels : Bank Panel := ⟨{}, []⟩
  key : Keypad := {}
  deriving DecidableEq, Repr

end Sys2Proof.Machine
end

