-- ==== Sys2Proof/Machine/Kdf.lean ====
section
/-!
DEFINITION. The key derivations of 16 R400 and R401: the counter-mode KDF with HMAC-SHA-384 and the keys it gives.
-/
set_option Elab.async false
namespace Sys2Proof.Machine

/-- A number as `n` bytes, most significant first. -/
def toBE (n v : Nat) : List Byte := (List.range n).map fun k => BitVec.ofNat 8 (v / 256 ^ (n - 1 - k))

/-- The bytes of a label, without terminator (R400). -/
def ascii (l : String) : List Byte := l.toList.map fun c => BitVec.ofNat 8 c.toNat

/-- The 48 bytes of a digest, most significant first. -/
def digestBytes (d : BitVec 384) : List Byte := (List.range 48).map fun k => d.extractLsb' (8 * (47 - k)) 8

/-- K(i) of R400: HMAC-SHA-384 under K of counter, label, 00h, context and L. -/
def kdfBlock (key label context : List Byte) (bits i : Nat) : List Byte :=
  digestBytes (Config.hmac384 key (toBE 4 i ++ label ++ [0] ++ context ++ toBE 4 bits))

/-- KDF(K, label, context, L) of R400: the first L bits of K(1), K(2) and so on; L in whole bytes. -/
def kdf (key label context : List Byte) (bits : Nat) : List Byte :=
  ((List.range ((bits + 383) / 384)).flatMap fun i => kdfBlock key label context bits (i + 1)).take (bits / 8)

/-- The device wrap key (R401). -/
def dwkOf (huk : List Byte) (mr0 : BitVec 384) : List Byte := kdf huk (ascii "KX-DEV") (digestBytes mr0) 256

/-- The storage key (R401). -/
def skOf (huk : List Byte) (mr0 mr2 mr3 : BitVec 384) : List Byte :=
  kdf huk (ascii "KX-STORE") (digestBytes mr0 ++ digestBytes mr2 ++ digestBytes mr3) 384

/-- The image wrap key of a wrap set's sequence (R401). -/
def iwkOf (sk : List Byte) (seq : Nat) : List Byte := kdf sk (ascii "KX-WRAP") (toBE 4 seq) 256

/-- The sealed-link key from the shared secret and both shares (R401). -/
def linkKeyOf (z qc qs : List Byte) : List Byte := kdf z (ascii "KX-SLINK") (qc ++ qs) 384

/-- The pairing tag that authenticates the control share (R29, R401). -/
def pairingTag (pairing qc qs : List Byte) : List Byte :=
  digestBytes (Config.hmac384 pairing (ascii "KX-PAIR" ++ qc ++ qs))

end Sys2Proof.Machine
end

