-- ==== Sys2Proof/Machine/StateSec.lean ====
section
/-!
DEFINITION. State of the Tack room, its wrap sets in the flash, the flash directory, the firmware update and
LDR_TRIAL (16).
-/
set_option Elab.async false
namespace Sys2Proof.Machine

/-- A key slot (16 R405, R406). -/
structure KeySlot where
  /-- attribute word, 32 bit; 16 R406; reset 0, empty. -/
  attr : Word := 0
  /-- generation, 16 bit, wraps; 16 R406; reset 0. -/
  gen : Nat := 0
  /-- parent's generation at the child's creation, 16 bit; 16 R406; reset 0. -/
  pgen : Nat := 0
  /-- private or secret part, never exported; 16 R406; reset empty. -/
  content : List Byte := []
  /-- public key or certificate; 16 R408; reset empty. -/
  pub : List Byte := []
  deriving DecidableEq, Repr

/-- What a wrap set's slots are wrapped under (16 R398, R401). -/
structure WrapKeys where
  /-- the SHA-384 of MR0 recorded in the set, 384 bit; 16 R398. -/
  mr0 : BitVec 384
  /-- DWK, of slots with BIND 0, 256 bit; 16 R401. -/
  dwk : List Byte
  /-- IWK, of slots with BIND 1, 256 bit; 16 R401. -/
  iwk : List Byte
  deriving DecidableEq, Repr

/-- The keys for given measurement registers and a wrap set's sequence (16 R401). -/
def wrapKeys (huk : BitVec 256) (mr0 mr2 mr3 : BitVec 384) (seq : Nat) : WrapKeys :=
  let h := (List.range 32).map fun k => huk.extractLsb' (8 * (31 - k)) 8
  ⟨Config.sha384 (digestBytes mr0), dwkOf h mr0, iwkOf (skOf h mr0 mr2 mr3) seq⟩

/-- A wrap set in the flash (16 R398, R410, R413). -/
structure WrapSet where
  /-- sequence, 32 bit; 16 R413; reset 0. -/
  seq : Nat := 0
  /-- the digest of MR0 recorded and the keys its slots are wrapped under; 16 R398, R401; reset none, an erased set. -/
  under : Option WrapKeys := none
  /-- slots with PERSIST 1; 16 R406; reset none. -/
  slots : Bank KeySlot := ⟨{}, []⟩
  deriving DecidableEq, Repr

/-- The bytes of 64-bit and shorter fuse fields that MR0 measures: offsets 000h to 017h (16 R395, R399). -/
def fuseBytes (f : Fuses) (bits : BitVec 6) : List Byte :=
  let le := fun (n v : Nat) => (List.range n).map fun k => BitVec.ofNat 8 (v / 256 ^ k)
  le 4 f.vendor.toNat ++ le 4 f.serial.toNat ++ le 8 f.mac.toNat ++
    le 4 (f.roleOff.toNat * 256 + (if f.decom then 4 else 0) + (if f.prod then 2 else 0) + (if f.mfg then 1 else 0)) ++
    le 4 bits.toNat

/-- The 96 bytes of an ECDSA P-384 signature, r then s, each big-endian (12 R300, R301). -/
def signature (key digest : BitVec 384) : List Byte :=
  (List.range 96).map fun k => (Config.ecdsaSign key digest).extractLsb' (8 * (95 - k)) 8

/-- MRk ← SHA-384(MRk ‖ h), h being the SHA-384 of the data (16 R399). -/
def mrExtend (mr h : BitVec 384) : BitVec 384 := Config.sha384 (digestBytes mr ++ digestBytes h)

/-- MR0 of a fuse block with the given debug bits (16 R399). -/
def mr0Of (f : Fuses) (bits : BitVec 6) : BitVec 384 := mrExtend 0 (Config.sha384 (fuseBytes f bits))

/-- The components of the image set installed at manufacture (16 R411): ids 1 to 12; their hashes are not given
in the manual: DESIGN CHOICE 0 (log 48). -/
def factoryComps : List Component := (List.range 12).map fun k => ⟨k + 1, 0, 0, 0⟩

/-- The slots given at manufacture (16 R405): the device identity key and its certificate; their contents are
not given: DESIGN CHOICE empty (log 48). -/
def factorySlots : Bank KeySlot := ⟨{}, [(0, { attr := 0xFFFF4061, gen := 1 }), (1, { attr := 0xFFFF9060, gen := 1 })]⟩

/-- The wrap set written at manufacture. -/
def factoryWrap : WrapSet :=
  { seq := 1, under := some (wrapKeys 0 (mr0Of {} 0) (mrExtend 0 0) (mrExtend 0 0) 1), slots := factorySlots }

/-- The directory in the flash (16 R410). -/
structure Directory where
  /-- sequence, 32 bit; 16 R410; reset DESIGN CHOICE 1 (log 48). -/
  seq : Nat := 1
  /-- loader copy in use, 0 LA, 1 LB; 16 R410; reset DESIGN CHOICE 0 (log 48). -/
  loader : Nat := 0
  /-- active wrap set, 0 or 1; 16 R410; reset DESIGN CHOICE 0 (log 48). -/
  wrap : Nat := 0
  /-- SVN of the installed manifest, 32 bit; 16 R411; reset DESIGN CHOICE 0 (log 48). -/
  svn : Nat := 0
  /-- build identifier, 32 bit; 16 R411; reset DESIGN CHOICE 0 (log 48). -/
  build : Word := 0
  /-- components of the installed manifest; 16 R411; reset as at manufacture (log 48). -/
  comps : List Component := factoryComps
  deriving DecidableEq, Repr

/-- Update states (16 R416), in the order of 7040h.06. -/
inductive UpSt where
  | idle | prepared | copying | written | trial | rollback
  deriving DecidableEq, Repr

/-- Kinds of update-log records (16 R415). -/
inductive LogKind where
  | start | saved | written | allWritten | trial | confirmed | restored | rolledBack
  deriving DecidableEq, Repr

/-- A record of the update log (16 R415): kind, block (FFFFh where none applies), byte 11, and the block's hash whose
first 16 bytes it keeps. -/
structure UpLog where
  kind : LogKind
  blk : Nat := 0xFFFF
  aux : Nat := 0
  hash : BitVec 384 := 0
  deriving DecidableEq, Repr

/-- The code of a record's kind (16 R415). -/
def LogKind.code (k : LogKind) : Nat :=
  match k with
  | .start => 1 | .saved => 2 | .written => 3 | .allWritten => 4 | .trial => 5 | .confirmed => 6 | .restored => 7 | .rolledBack => 8

/-- The 32 bytes of a record of update `num` (16 R415). -/
def UpLog.bytes (num : Nat) (r : UpLog) : List Byte :=
  let b := toLE 4 0x4A55584B ++ toLE 4 num ++ toLE 2 r.blk ++ toLE 1 r.kind.code ++ toLE 1 r.aux ++ (digestBytes r.hash).take 16
  b ++ toLE 4 (crc32 b).toNat

/-- The update in the flash: its number, its log and its manifest (16 R414 to R416). -/
structure Update where
  /-- update number, 32 bit, for the life of the part; 16 R415, 17 R425; reset 0. -/
  num : Nat := 0
  /-- state; 16 R416; reset IDLE. -/
  st : UpSt := .idle
  /-- manifest of the present update; 16 R412; reset none. -/
  man : Option Manifest := none
  /-- log records of the present update, newest first; 16 R415; reset empty. -/
  log : List UpLog := []
  /-- log records of the update before, newest first; 16 R410, R415; reset empty. -/
  prev : List UpLog := []
  /-- blocks saved and not restored, in journal-slot order; 16 R414, R418; reset empty. -/
  saved : List Nat := []
  /-- SHA-384 of what each block's journal slot holds; 16 R410, R414; reset 0. -/
  journal : Bank (BitVec 384) := ⟨0, []⟩
  /-- blocks written; 16 R414; reset empty. -/
  written : List Nat := []
  /-- start count of the trial, 2 bit; 16 R415; reset 0. -/
  count : Nat := 0
  deriving DecidableEq, Repr

/-- The bytes of update log U0 (k = 0) or U1: an odd update number has U0 (log 129). -/
def Update.image (u : Update) (k : Nat) : List Byte :=
  let here := decide (u.num % 2 ≠ k % 2)
  ((if here then u.log else u.prev).reverse.map fun r => r.bytes (if here then u.num else u.num - 1)).flatten

/-- LDR_TRIAL, reset only by a cold reset (16 registers). -/
structure Trial where
  /-- ACTIVE, 1 bit; 16 R417; reset 0. -/
  active : Bool := false
  /-- EXPIRED, 1 bit; 16 R417; reset 0. -/
  expired : Bool := false
  /-- REMAIN, 22 bit; 16 registers; reset 927C0h. -/
  remain : Nat := 0x927C0
  deriving DecidableEq, Repr

/-- The Tack room's state that an application reset clears (16 R399, R405). -/
structure TackRoom where
  /-- key slots 0 to 127 as unwrapped at the start; 16 R405; reset empty. -/
  slots : Bank KeySlot := ⟨{}, []⟩
  /-- MR0 to MR12 and MR15, 48 bytes each; 16 R399; reset 0. -/
  mr : Bank (BitVec 384) := ⟨0, []⟩
  /-- DWK and IWK derived at the start; 16 R401, R403; reset none. -/
  keys : Option WrapKeys := none
  /-- TKR_STAT.STATE, 2 bit; 16 registers; reset 0. -/
  st : Nat := 0
  /-- a decommission write awaiting the other role, with its HT, ns; 16 R397; reset none. -/
  decomBy : Option (Role × Nat) := none
  /-- status of the last block or check, 8 bit; 16 R422; reset OK. -/
  lastSt : Status := .ok
  deriving DecidableEq, Repr

/-- What the external flash holds beside the journal (16 R410). -/
structure FlashSec where
  /-- directory; 16 R410; reset as Directory. -/
  dir : Directory := {}
  /-- wrap sets W0 and W1; 16 R410; reset W0 as at manufacture, W1 erased (log 48). -/
  wrap : Bank WrapSet := ⟨{}, [(0, factoryWrap)]⟩
  /-- update logs U0, U1 and the image region; 16 R410; reset as Update. -/
  upd : Update := {}
  /-- SHA-384 of each of the 192 blocks of the image region; 16 R410, R414; reset DESIGN CHOICE 0 (log 48). -/
  image : Bank (BitVec 384) := ⟨0, []⟩
  /-- hashes of the loader copies LA and LB; 16 R410; reset DESIGN CHOICE 0 (log 48). -/
  loaders : Bank (BitVec 384) := ⟨0, []⟩
  /-- fitted size of the flash, 64 MB to 256 MB; 01 (memory table), 05 R104; reset DESIGN CHOICE 256 MB (log 108). -/
  flashSize : Nat := 0x10000000
  /-- bytes read through the flash window at 2000_0000h; 05 R104; reset DESIGN CHOICE FFh, erased (log 48). -/
  mem : Bank Byte := ⟨0xFF, []⟩
  deriving DecidableEq, Repr

end Sys2Proof.Machine
end

