-- ==== Sys2Proof/Machine/StateVehicle.lean ====
section
/-!
DEFINITION. State of the vehicle protocols (10): the V2G transport's connections, the session values of the
shipped firmware, the Skiver and the vehicle CAN ports. An application reset returns all of it to its reset
values.
-/
set_option Elab.async false
namespace Sys2Proof.Machine

/-- The last answer of a session to its vehicle (10 R218, R219, R227, R232). -/
inductive V2gAns where
  | none | ok | okMinor | noNegotiation | ongoing | failed | sequenceError | powerNotApplied | chainFailed
  | stream | closed
  deriving DecidableEq, Repr

/-- How the last TCP connection or TLS handshake on a channel ended (10 R223, R230). -/
inductive TcpEnd where
  | none | accepted | reset | tlsUp | alert
  deriving DecidableEq, Repr

/-- The V2G transport of one pilot channel (10 R223 to R233). -/
structure V2gConn where
  /-- a TCP connection is open, 1 bit; 10 R223; reset 0. -/
  isOpen : Bool := false
  /-- on the TLS port, 1 bit; 10 R223; reset 0. -/
  tls : Bool := false
  /-- the TLS handshake has completed, 1 bit; 10 R230; reset 0. -/
  tlsUp : Bool := false
  /-- 2200h.04 as taken at the connection; 10 R247; reset 0. -/
  askCert : Bool := false
  /-- an OCSP response was stapled, 1 bit; 10 R230; reset 0. -/
  stapled : Bool := false
  /-- outcome of the last connection or handshake; 10 R223; reset none. -/
  tcp : TcpEnd := .none
  /-- last SDP answer: TCP port and security TLS; 10 R223; reset none. -/
  sdp : Option (Nat × Bool) := none
  /-- protocol negotiated; 10 R218; reset none. -/
  proto : Option Proto := none
  /-- schema code given to the Skiver for the last payload; 10 R224; reset none. -/
  schema : Option Nat := none
  /-- message answered last; 10 R219; reset none. -/
  prev : Option V2gMsg := none
  /-- challenge issued and not yet used, 128 bit; 10 R232; reset none. -/
  chal : Option (BitVec 128) := none
  /-- a request waits for a result, 1 bit; 10 R228; reset 0. -/
  waiting : Bool := false
  /-- last answer; 10 R219; reset none. -/
  ans : V2gAns := .none
  /-- Bridle's device state in the last ACDP answer; 10 R221; reset none. -/
  acdp : Option Nat := none
  /-- IPv6 link-local address of the last SDP answer; 10 R223; reset empty. -/
  sdpAddr : List Byte := []
  /-- services listed in the last ServiceDiscovery answer; 10 R217, R220; reset none. -/
  offer : List EvService := []
  /-- present voltage, mV, and current, mA, of the last answer that carries them; 10 R222; reset 0. -/
  present : Int × Int := (0, 0)
  /-- limits reported last: maximum and minimum voltage, 0.1 V, maximum current, 0.1 A, maximum power, W, maximum
  discharge current, 0.1 A; 10 R222; reset 0. -/
  limits : Nat × Nat × Nat × Nat × Nat := (0, 0, 0, 0, 0)
  /-- tariff and price reported last; 10 R222; reset none. -/
  price : Option (Nat × Int) := none
  /-- signed reading reported last; 10 R222; reset empty. -/
  signed : List Byte := []
  /-- the first request has been handed to the context, 1 bit; 10 R236; reset 0. -/
  handed : Bool := false
  /-- where the Skiver puts the decode output of the last request and takes the encode input of its answer; 10 R236; reset
  none. -/
  area : Option (Nat × Nat) := none
  deriving DecidableEq, Repr

/-- Values of a session kept by the shipped firmware, by slot (09 R215, 10 R246). -/
structure VSess where
  /-- (q + 2).01, 8 bit; 10 R246; reset 0. -/
  proto : Nat := 0
  /-- (q + 2).02, 8 bit; 10 R246; reset 0. -/
  service : Nat := 0
  /-- EVCCID; 10 R246; reset empty. -/
  evccid : List Byte := []
  /-- EMAID or identifier; 10 R246; reset empty. -/
  ident : List Byte := []
  /-- pending decision 0 none, 1 authorise, 2 certificate installation; 10 R246; reset 0. -/
  pendDec : Nat := 0
  /-- outcome of the last decision: 0 none, 1 accepted, 2 refused; 10 R229; reset 0. -/
  decided : Nat := 0
  /-- status of the last decision write; 10 R229; reset OK. -/
  decSt : Status := .ok
  /-- state of charge, %; 10 R246; reset 0. -/
  soc : Nat := 0
  /-- vehicle's requested voltage, 0.1 V, and current, 0.1 A; 10 R246; reset 0. -/
  reqV : Nat := 0
  reqI : Int := 0
  /-- certificate installation request and response; 10 R246; reset empty. -/
  certReq : List Byte := []
  certRsp : List Byte := []
  /-- window offset (q + 3).07 and response length (q + 3).08; 10 R246; reset 0. -/
  winOff : Nat := 0
  rspLen : Nat := 0
  /-- authorisation method (q + 1).03; 09 R215; reset 0. -/
  method : Nat := 0
  /-- current limit (q + 1).02, A; 09 R215; reset 0. -/
  limit : Nat := 0
  /-- pre-authorised flag; 09 R211; reset 0. -/
  preAuth : Bool := false
  /-- spill region in Hall SRAM assigned at the connection; 10 R236; reset none. -/
  spill : Option Nat := none
  /-- the close request has been sent, 1 bit; 09 R211; reset 0. -/
  closeSent : Bool := false
  /-- the record of the session is signed, 1 bit; 09 R211; reset 0. -/
  signed : Bool := false
  /-- the kind-0 request is to be made again, 1 bit; 10 R227; reset 0. -/
  coilRetry : Bool := false
  /-- (b + 8).01 and .03 as taken at the session's start; 10 R245; reset 7, 1Fh. -/
  protoEn : BitVec 3 := 7
  svcEn : BitVec 5 := 0x1F
  /-- PnC confirmation by the host as taken at the session's start; 10 R247; reset 1. -/
  confirm : Bool := true
  /-- sequence-signal port k as taken at the session's start; 10 R245; reset 0. -/
  port : Nat := 0
  deriving DecidableEq, Repr

/-- A Skiver job accepted and not completed: the fields of its descriptor (10 R237). -/
structure SkvJob where
  op : Nat
  schema : Nat
  notify : Bool
  target : Nat
  tag : Nat
  dalg : Nat
  dcount : Nat
  inAddr : Nat
  inLen : Nat
  outAddr : Nat
  outCap : Nat
  spillAddr : Nat
  spillCap : Nat
  dlistAddr : Nat
  resAddr : Nat
  port : Nat
  deriving DecidableEq, Repr

/-- The Skiver (10 R234 to R240). -/
structure Skiver where
  /-- SKV_CFG.LOCK, 1 bit; 10 R240; reset 0. -/
  lock : Bool := false
  /-- SKV_CFG.SCHEMA_EN, 7 bit; 10 R234; reset 7Fh. -/
  schemas : BitVec 7 := 0x7F
  /-- jobs in order of submission, at most 64; 10 R240; reset empty. -/
  jobs : List SkvJob := []
  /-- completions of NOTIFY 0 jobs, oldest first, at most 64: TAG, STATUS; 10 R238; reset empty. -/
  cpl : List (Nat × Status) := []
  /-- SKV_ERRCNT.RANGE and OTHER, 16 bit, stick; 10 R238; reset 0. -/
  errRange : Nat := 0
  errOther : Nat := 0
  /-- SKV_SUBST_p: TAG, STATUS; 10 R237; reset 0. -/
  subst : Bank (Nat × Status) := ⟨(0, .ok), []⟩
  deriving DecidableEq, Repr

/-- A vehicle CAN port in a type-5 session (10 R241 to R244). -/
structure VPort where
  /-- frames 100h, 101h and 102h received since the session's authorisation; 10 R243; reset 0. -/
  got : BitVec 3 := 0
  /-- charger-fault status of the 109h frames; 10 R244; reset 0. -/
  fault : Bool := false
  /-- SQk_D2 has been commanded on in the session, 1 bit; 10 R243; reset 0. -/
  ready : Bool := false
  /-- fault confinement of ISO 11898-1: 0 error active, 1 error passive, 2 bus-off; 10 R241; reset 0. -/
  err : Nat := 0
  /-- identifiers and charger-fault status of the frames sent, newest first, the last 16; 10 R243; reset empty. -/
  sent : List (Nat × Bool) := []
  deriving DecidableEq, Repr

/-- The vehicle side of the control die. -/
structure Vehicle where
  conn : Bank V2gConn := ⟨{}, []⟩
  sess : Bank VSess := ⟨{}, []⟩
  skv : Skiver := {}
  vport : Bank VPort := ⟨{}, []⟩
  deriving DecidableEq, Repr

end Sys2Proof.Machine
end

