-- ==== Sys2Proof/Machine/State.lean ====
section
/-!
DEFINITION. The state of the block, grouped by die and reset scope (03 R70), the outcomes of a command,
and the state after reset.
-/
set_option Elab.async false
namespace Sys2Proof.Machine

/-- What an application reset of the control die returns to its reset values (03 R70). -/
structure App where
  clk : ClockReset := {}
  bkl : Buckle := {}
  mbx : Mailboxes := {}
  pmc : Pmc := {}
  /-- Harness targets 0 to 29; 04 R80; reset as HrnTarget. -/
  hrn : Bank HrnTarget := ⟨{}, []⟩
  girth : Girth := {}
  /-- harts 0 to 4 and 13; 05 R99; reset as Hart. -/
  harts : Bank Hart := ⟨{}, []⟩
  /-- SRAM of R104 by address; 05 R104; reset DESIGN CHOICE 0 (log 3). -/
  mem : Bank Byte := ⟨0, []⟩
  /-- model's own: per byte, 1 a DMA master wrote it and 2 a Cantle core wrote it last, with no line maintenance since; 05
  R99; reset 0. -/
  incoh : Bank Nat := ⟨0, []⟩
  lane : AppLane := {}
  /-- control-side end of the sealed link; 01 R28; reset as LinkEnd. -/
  link : LinkEnd := {}
  sl : SlPorts := {}
  eng : Bank Engine := ⟨{}, []⟩
  ctx : Bank Ctx := ⟨{}, []⟩
  plc : Plc := {}
  veh : Vehicle := {}
  server : Server := {}
  journal : Journal := {}
  tack : TackRoom := {}
  deriving DecidableEq, Repr

/-- The block. -/
structure State where
  app : App := {}
  cold : ColdRegs := {}
  /-- MR13 and MR14, which only a cold reset clears; 16 R399; reset 0. -/
  coldMr : Bank (BitVec 384) := ⟨0, []⟩
  trial : Trial := {}
  bridle : Bridle := {}
  power : PowerDie := {}
  die : SealedDie := {}
  fuses : Fuses := {}
  obj : Objects := {}
  flash : Flash := {}
  sec : FlashSec := {}
  /-- model's own: how many free values have been used (log 1); reset DESIGN CHOICE 0. -/
  fresh : Nat := 0
  /-- model's own: commands waiting, first in, first out; reset empty. -/
  pending : List Instr := []
  deriving DecidableEq, Repr

/-- Reasons a command can stop with a fault. There is none: every fault the manual describes is state. -/
inductive Fault where
  deriving DecidableEq, Repr

/-- Reasons a command can be refused. -/
inductive Refusal where
  /-- The command has no meaning in the model. Raised by no arm of `exec` that has a meaning; safe. -/
  | notModelled (mnemonic : String)
  deriving DecidableEq, Repr

/-- The block right after reset. -/
def State.reset : State := {}

end Sys2Proof.Machine
end

