-- ==== Sys2Proof/Machine/Ops.lean ====
section
/-!
DEFINITION. Operations shared by the commands: free values, memory bytes, performance counters, Buckle
sources, class bits of session contexts, Girth's grants.
-/
set_option Elab.async false
namespace Sys2Proof.Machine

/-- The outcome type of a command. -/
abbrev Res := Host.Outcome State Fault Refusal

/-- HT, in ns (R8). -/
def State.ht (s : State) : Nat := s.app.clk.ht

/-! ### Free values -/

/-- The next free value of `w` bits (assumption 1). -/
def State.freeBits (w : Nat) (s : State) : BitVec w := Config.freeValue s.fresh w

/-- The counter after one free value has been used. -/
def State.used (s : State) : State := { s with fresh := s.fresh + 1 }

/-! ### Memory (R6, R104) -/

/-- A byte of SRAM. -/
def State.byte (s : State) (a : Nat) : Byte := s.app.mem.get a

/-- Writing a byte of SRAM. -/
def State.setByte (s : State) (a : Nat) (b : Byte) : State :=
  { s with app.mem := s.app.mem.set a b }

/-- Bytes from `a` on. -/
def State.bytes (s : State) (a : Nat) : Nat → List Byte
  | 0 => []
  | n + 1 => s.byte a :: s.bytes (a + 1) n

/-- Writing bytes from `a` on. -/
def State.setBytes (s : State) (a : Nat) : List Byte → State
  | [] => s
  | b :: r => (s.setByte a b).setBytes (a + 1) r

/-- A little-endian number of `n` bytes at `a` (R6). -/
def State.num (s : State) (a n : Nat) : Nat := ofLE (s.bytes a n)

/-- Writing a little-endian number of `n` bytes at `a` (R6). -/
def State.setNum (s : State) (a n v : Nat) : State := s.setBytes a (toLE n v)

/-! ### Buckle sources (R107, R108, R113) -/

/-- Level sources of R107. -/
def isLevel (n : Nat) : Bool :=
  within 112 n 177 || n = 281 || within 288 n 303 || within 384 n 439 || n = 448 || n = 450 ||
  n = 451 || n = 456 || n = 464 || n = 465 || n = 467 || n = 468 || within 472 n 482 ||
  within 484 n 487 || n = 497

/-- Reserved sources of R107, and numbers that are no source. -/
def isReserved (n : Nat) : Bool :=
  n = 0 || n = 6 || n = 7 || within 41 n 47 || within 178 n 183 || within 282 n 287 ||
  within 441 n 447 || n = 454 || n = 455 || within 460 n 463 || n = 471 || within 492 n 495 ||
  n = 502 || n = 503 || decide (511 < n)

/-- The hart behind target t = 0 to 9 (R106). -/
def targetHart (t : Nat) : Nat := if t < 4 then t else if t < 8 then t - 4 else if t = 8 then 4 else 13

/-- Target t asleep: a core in WFI, a Rein engine idle (R113). -/
def State.asleep (s : State) (t : Nat) : Bool :=
  if t < 10 then (s.app.harts.get (targetHart t)).wfi
  else (s.app.eng.get (t - 10)).running.isNone

/-- The Buckle's clock is gated while every target is asleep (R113). -/
def State.gated (s : State) : Bool := (List.range 18).all s.asleep

/-- The control die's application domain is held in reset (R70, R72). -/
def State.inReset (s : State) : Bool := s.app.clk.appHeld || s.cold.coldHeld

/-- A source is pending: its latch, or its synchronised level (R108). -/
def srcPend (n : Nat) (e : BklSrc) : Bool := if isLevel n then e.lvl else e.latch

/-- Changing a source's entry. -/
def State.updSrc (s : State) (n : Nat) (f : BklSrc → BklSrc) : State :=
  { s with app.bkl.src := s.app.bkl.src.upd n f }

/-- The counters that count event `idx` of `group` (R118, R120). -/
def pmcListeners (p : Pmc) (group idx : Nat) : List Nat :=
  (if group = 0 then List.range 128 else p.sel.cells.map (·.1)).filter fun i =>
    let e := p.sel.get i
    e.group = group && e.index = idx && !(e.chain && i ≠ 0)

/-- An edge on a source (R108): it sets the pending latch or merges with OVR; while the Buckle's clock
is gated the sleep latch captures it (R113). Level and reserved sources have no latch. DESIGN CHOICE (log 110): a second
edge that meets a set sleep latch is captured with it and sets no OVR. -/
def edgeLatch (g : Bool) (e : BklSrc) : BklSrc :=
  if g then { e with slp := true }
  else if e.latch then { e with ovr := true }
  else { e with latch := true }

/-- Adding `k` to counter `i`, with carry into a chained successor; a top counter that wraps sets OVF
and raises source 500 (R118). -/
def pmcAdd : Nat → Nat → Nat → State → State
  | 0, _, _, s => s
  | fuel + 1, i, k, s =>
    let c := s.app.pmc.cnt.get i + k
    let s1 := { s with app.pmc.cnt := s.app.pmc.cnt.set i (c % 2 ^ 32) }
    let w := c / 2 ^ 32
    if w = 0 then s1
    else if i + 1 < 128 && (s1.app.pmc.sel.get (i + 1)).chain then pmcAdd fuel (i + 1) w s1
    else
      let s2 := { s1 with app.pmc.sel := s1.app.pmc.sel.upd i fun e => { e with ovf := true } }
      let merged := !s2.gated && (s2.app.bkl.src.get 500).latch
      let s3 := s2.updSrc 500 (edgeLatch s2.gated)
      if merged then (pmcListeners s3.app.pmc 5 1).foldl (fun t j => pmcAdd fuel j 1 t) s3 else s3

/-- `k` events of `group` and `idx` (R118, R120). -/
def countEvents (group idx k : Nat) (s : State) : State :=
  (pmcListeners s.app.pmc group idx).foldl (fun t i => pmcAdd (256 - i) i k t) s

/-- A rising edge on source `n`. -/
def raise (n : Nat) (s : State) : State :=
  if isReserved n || isLevel n || s.inReset then s
  else
    let merged := !s.gated && (s.app.bkl.src.get n).latch
    let s1 := s.updSrc n (edgeLatch s.gated)
    if merged then countEvents 5 1 1 s1 else s1

/-- The level at source `n` becomes `b` (R108); while the clock is gated an asserted level is captured. -/
def setLevel (n : Nat) (b : Bool) (s : State) : State :=
  if isReserved n || !isLevel n then s
  else
    let g := s.gated
    s.updSrc n fun e => { e with lvl := b, slp := e.slp || (g && b) }

/-- An event of the power die on its way over the application lane: while the lane's fault flag is set
it may be missing (R444), which a free value decides. -/
def laneRaise (n : Nat) (s : State) : State :=
  if s.app.lane.fault then
    if s.freeBits 1 = 1 then raise n s.used else s.used
  else raise n s

/-! ### Session contexts (R194, R199, R206) -/

/-- Changing a context. -/
def State.updCtx (s : State) (slot : Nat) (f : Ctx → Ctx) : State :=
  { s with app.ctx := s.app.ctx.upd slot f }

/-- Changing an engine. -/
def State.updEng (s : State) (e : Nat) (f : Engine → Engine) : State :=
  { s with app.eng := s.app.eng.upd e f }

/-- A class becomes pending in a context: an IDLE context becomes READY; classes 0 to 8 that become
pending while it runs show in EV_LIVE (R199, R206). Nothing pends in a FREE context. -/
def pendClass (k : Nat) (c : Ctx) : Ctx :=
  match c.st with
  | .free => c
  | .idle => { c with pend := putBit c.pend k true, st := .ready }
  | .running =>
    { c with pend := putBit c.pend k true, live := if k ≤ 8 then putBit c.live k true else c.live }
  | _ => { c with pend := putBit c.pend k true }


/-- The type of a point, 3000h + 40h × p, subindex 01 (R148, R169); 0 while unwritten. -/
def State.pointType (s : State) (p : Nat) : Nat :=
  ofLE ((s.obj.live.get ((0x3000 + 0x40 * p) * 256 + 1)).getD [])

/-- The IEEE 2030.1.1 port written for a point, (b + 8).09; p mod 8 while unwritten (R245). -/
def State.seqPortOf (s : State) (p : Nat) : Nat :=
  match s.obj.live.get ((0x3008 + 0x40 * p) * 256 + 9) with
  | some v => ofLE v
  | none => p % 8

/-- Point p is absent: fused off (R395), of type 0 (R445), or treated as type 0 since the start because a lower point of
type 5 names its port (R241). -/
def State.pointAbsent (s : State) (p : Nat) : Bool :=
  s.fuses.ptOff.getLsbD p || s.pointType p = 0 || s.obj.seqOut.getLsbD p

/-- The type whose rules hold for a point (R148): 0 for an absent one. -/
def State.typeNow (s : State) (p : Nat) : Nat := if s.pointAbsent p then 0 else s.pointType p

/-- The slots of an engine. -/
def engineSlots (e : Nat) : List Nat := (List.range 32).map (32 * e + ·)

/-- The slots whose contexts serve point `p`. -/
def State.pointSlots (s : State) (p : Nat) : List Nat :=
  (engineSlots (p % 8)).filter fun i =>
    let c := s.app.ctx.get i
    decide (c.st ≠ .free) && c.point = p

/-- The slot of point `p` that holds role `r`. -/
def State.slotOfRole (s : State) (p r : Nat) : Option Nat :=
  (s.pointSlots p).find? fun i => (s.app.ctx.get i).role = r

/-- The routing holder of a point: ACTIVE, else CLOSING, else QUEUED (R195). -/
def State.holder (s : State) (p : Nat) : Option Nat :=
  (s.slotOfRole p 1).orElse fun _ => (s.slotOfRole p 2).orElse fun _ => s.slotOfRole p 0

/-- The port a type-5 point is bound to: as its session took it at its start (10 R245); what is written where the point
holds no session yet. -/
def State.boundPort (s : State) (p : Nat) : Nat :=
  match s.holder p with
  | some slot => (s.app.veh.sess.get slot).port
  | none => s.seqPortOf p

/-- The base of a context's 12 KB window (R192). -/
def ctxBase (slot : Nat) : Nat :=
  0x04000000 + slot / 32 * 0x80000 + 0x20000 + 0x3000 * (slot % 32)

/-- The hardware state of a context as SES_CTX_c and STATUS show it (R206). -/
def ctxStCode : CtxSt → Nat
  | .free => 0 | .idle => 1 | .ready => 2 | .running => 3 | .trapped => 4

/-- STATUS of the context header (R193). -/
def Ctx.statusWord (c : Ctx) : Word := pack [(ctxStCode c.st, 0), (c.role, 6), (c.point, 8), (c.cause, 16)]

/-- The words of the context memory that the engine itself keeps (R193): STATUS, TRAP_PC, TRAP_VAL,
ACTIVATIONS, EV_LIVE and POSTST. -/
def syncCtx (slot : Nat) (s : State) : State :=
  let c := s.app.ctx.get slot
  let b := ctxBase slot
  let w := fun (t : State) (x : Nat × Nat) => t.setNum (b + x.1) 4 x.2
  [(0x04, c.statusWord.toNat), (0x08, c.trapPc.toNat), (0x0C, c.trapVal.toNat), (0x10, c.acts),
   (0x44, c.live.toNat), (0x4C, statusCode c.postSt)].foldl w s

/-- An event of class `k` for the context in `slot`. -/
def postClass (slot k : Nat) (s : State) : State :=
  if (s.app.ctx.get slot).st = .free then s else syncCtx slot (s.updCtx slot (pendClass k))

/-- SERIAL in the context's header (R193). -/
def State.serialOf (s : State) (slot : Nat) : Nat := s.num (ctxBase slot + 0x20) 8

/-- The session handle (R9, R209). -/
def State.handleOf (s : State) (slot : Nat) : Nat :=
  let c := s.app.ctx.get slot
  slot * 2 ^ 24 + c.gen * 2 ^ 8 + c.point

/-- A request names the live session in a slot by handle and serial (R11, R210). -/
def State.namesSession (s : State) (handle : Nat) (serial : Nat) : Option Nat :=
  let slot := handle / 2 ^ 24 % 256
  if decide ((s.app.ctx.get slot).st ≠ .free) && s.handleOf slot = handle && s.serialOf slot = serial
  then some slot else none

/-- The Harness port of a hart (R79). -/
def hartPort (h : Nat) : Nat :=
  if h < 4 then h else if h = 4 then 12 else if h < 13 then h - 1 else 14

/-- The Rein engine behind a Harness port (R79). -/
def portEngine (p : Nat) : Option Nat := if within 4 p 11 then some (p - 4) else none

/-- The slot of the context running on the engine of a port (SES_CTX). -/
def State.runningSlot (s : State) (p : Nat) : Option Nat :=
  (portEngine p).bind fun e => (s.app.eng.get e).running.map (32 * e + ·)

/-! ### Girth's grants (R87, R91) -/

/-- Ending the transient part of the grants that satisfy `f`; a grant with no part left in force is
dropped (R91). -/
def girthEnd (f : GirthReq → Bool) (part : Bool) (s : State) : State :=
  let gs := s.app.girth.grants.map fun g =>
    if f g then (if part then { g with tIn := false } else { g with sIn := false }) else g
  let gone := gs.filter fun g => !g.tIn && !g.sIn
  let s1 := { s with app.girth.grants := gs.filter fun g => g.tIn || g.sIn }
  gone.foldl (fun t g =>
    { t with app.girth.ports := t.app.girth.ports.upd g.port fun r =>
        if g.ticket ≠ 0 && r.ticket = g.ticket then { r with state := 3 } else r }) s1

/-- The power die reports a unit off: the standing part ends (R91). -/
def girthUnitOff (kind unit : Nat) (s : State) : State :=
  girthEnd (fun g => g.kind = kind && g.unit = unit) false s

/-- A transient part of a unit ends before its hold (R91). -/
def girthTransientEnd (kind unit : Nat) (s : State) : State :=
  girthEnd (fun g => g.kind = kind && g.unit = unit) true s

/-- The port under which Girth places restart requests on a channel's behalf (R351): no Harness port. -/
def restartPort : Nat := 24

/-- Withdrawing the queued requests that satisfy `f` (R91); their requesters read STATE 3. -/
def girthWithdraw (f : GirthReq → Bool) (s : State) : State :=
  (List.range 3).foldl (fun t c =>
    let q := t.app.girth.queue.get c
    let t1 := { t with app.girth.queue := t.app.girth.queue.set c (q.filter fun r => !f r) }
    (q.filter f).foldl (fun u g =>
      { u with app.girth.ports := u.app.girth.ports.upd g.port fun r =>
          if r.ticket = g.ticket then { r with state := 3 } else r }) t1) s

/-- Withdrawing the restart request of a unit (R354). -/
def withdrawRestart (kind unit : Nat) (s : State) : State :=
  girthWithdraw (fun r => r.port = restartPort && r.kind = kind && r.unit = unit) s

/-! ### Outcome of a bus access (R105) -/

/-- A completed access with its data. -/
def busOk (v : Word) (s : State) : State := { s with app.clk.busErr := false, app.clk.busData := v }

/-- An access that completes with a bus error. -/
def busFail (s : State) : State := { s with app.clk.busErr := true, app.clk.busData := 0 }

end Sys2Proof.Machine
end

