-- ==== Sys2Proof/Machine/Dictionary.lean ====
section
/-!
DEFINITION. The object dictionary's table (06 R121 to R123): for every entry its type, access by role,
default, effect class and persistence, as the object tables of the chapters give them.
-/
set_option Elab.async false
namespace Sys2Proof.Machine

/-- Effect classes of R127. -/
inductive Eff where
  | I | A | N | L | none
  deriving DecidableEq, Repr

/-- Persistence of R121. -/
inductive Pers where
  | V | J | S | fixed
  deriving DecidableEq, Repr

/-- Data types of R122, by width; strings and domains with their stated maximum. -/
inductive OTy where
  | bool | u (bytes : Nat) | i (bytes : Nat) | real | vstr (max : Nat) | ostr (max : Nat) | dom (max : Nat) | hs
  deriving DecidableEq, Repr

/-- One entry (R121). Role masks: 1 Public, 2 Customer, 4 Operator, 8 Service, 16 Verifier, 32 Manufacturer. -/
structure Obj where
  ty : OTy
  /-- roles that may read. -/
  rd : Nat
  /-- roles that may write. -/
  wr : Nat
  dflt : List Byte
  eff : Eff
  pers : Pers
  /-- accepted values of a number. -/
  lo : Int := 0
  hi : Int := 0xFFFFFFFFFFFFFFFF
  /-- TPDO-mappable. -/
  pdo : Bool := false
  /-- writable over Latigo only. -/
  latigo : Bool := false
  deriving DecidableEq, Repr

/-- Every role. -/
def rAll : Nat := 63
/-- Operator. -/
def rO : Nat := 4
/-- Service. -/
def rS : Nat := 8
/-- Verifier. -/
def rV : Nat := 16
/-- Operator and Service. -/
def rOS : Nat := 12
/-- Customer, Operator, Service. -/
def rCOS : Nat := 14
/-- Customer, Operator, Service, Verifier. -/
def rCOSV : Nat := 30
/-- Operator, Service, Verifier. -/
def rOSV : Nat := 28
/-- Service, Verifier. -/
def rSV : Nat := 24
/-- Operator, Verifier. -/
def rOV : Nat := 20
/-- Customer, Operator, Verifier. -/
def rCOV : Nat := 22

/-- A status entry of `n` bytes, unsigned, default `d`. -/
def oStat (n rd : Nat) (d : Nat := 0) (pdo : Bool := false) : Obj :=
  { ty := .u n, rd := rd, wr := 0, dflt := toLE n d, eff := .none, pers := .V, pdo := pdo }

/-- A signed status entry of `n` bytes. -/
def oStatI (n rd : Nat) (pdo : Bool := false) : Obj :=
  { ty := .i n, rd := rd, wr := 0, dflt := toLE n 0, eff := .none, pers := .V, pdo := pdo }

/-- A configuration number of `n` bytes in the journal. -/
def oCfg (n wr d : Nat) (eff : Eff) (lo : Int := 0) (hi : Int := 0xFFFFFFFFFFFFFFFF) : Obj :=
  { ty := .u n, rd := rAll, wr := wr, dflt := toLE n d, eff := eff, pers := .J, lo := lo, hi := hi }

/-- A Boolean configuration in the journal. -/
def oFlag (wr d : Nat) (eff : Eff) : Obj :=
  { ty := .bool, rd := rAll, wr := wr, dflt := toLE 1 d, eff := eff, pers := .J, hi := 1 }

/-- A write-only command. -/
def oCmd (ty : OTy) (wr : Nat) (eff : Eff) (latigo : Bool := false) : Obj :=
  { ty := ty, rd := 0, wr := wr, dflt := [], eff := eff, pers := .V, latigo := latigo }

/-- A number kept by the sealed die. -/
def oSeal (n rd wr d : Nat) (lo : Int := 0) (hi : Int := 0xFFFFFFFFFFFFFFFF) : Obj :=
  { ty := .u n, rd := rd, wr := wr, dflt := toLE n d, eff := .L, pers := .S, lo := lo, hi := hi }

/-! ### Communication and identity (R133) -/

/-- 1000h to 1FFFh. -/
def objComm (idx sub : Nat) : Option Obj :=
  if idx = 0x1000 && sub = 0 then some { oStat 4 rAll with pers := .fixed }
  else if idx = 0x1001 && sub = 0 then some (oStat 1 rAll)
  else if idx = 0x1008 && sub = 0 then
    some { ty := .vstr 256, rd := rAll, wr := 0, dflt := [0x4B, 0x58, 0x39, 0x32, 0x35, 0x36], eff := .none, pers := .fixed }
  else if (idx = 0x1009 || idx = 0x100A) && sub = 0 then
    some { ty := .vstr 256, rd := rAll, wr := 0, dflt := [], eff := .none, pers := .fixed }
  else if idx = 0x1010 && sub = 1 then some { oCfg 4 rOS 3 .I with pers := .V, lo := 0x65766173, hi := 0x65766173 }
  else if idx = 0x1011 && sub = 1 then some { oCfg 4 rOS 1 .N with pers := .V, lo := 0x64616F6C, hi := 0x64616F6C }
  else if idx = 0x1014 && sub = 0 then some (oStat 4 rAll)
  else if idx = 0x1017 && sub = 0 then some (oCfg 2 rO 1000 .A)
  else if idx = 0x1018 && within 1 sub 4 then some { oStat 4 rAll (if sub = 2 then 0x9256 else 0) with pers := .fixed }
  else if idx = 0x1200 && within 1 sub 2 then some (oStat 4 rAll)
  else if within 0x1201 idx 0x1207 && within 1 sub 2 then some (oCfg 4 rO 0x80000000 .N)
  else if within 0x1201 idx 0x1207 && sub = 3 then some (oCfg 1 rO 0 .N)
  else if within 0x1800 idx 0x181F && sub = 1 then some (oCfg 4 rO 0x80000000 .N)
  else if within 0x1800 idx 0x181F && sub = 2 then some (oCfg 1 rO 0 .N)
  else if within 0x1800 idx 0x181F && (sub = 3 || sub = 5) then some (oCfg 2 rO 0 .N)
  else if within 0x1A00 idx 0x1A1F && sub = 0 then some (oCfg 1 rO 0 .N 0 8)
  else if within 0x1A00 idx 0x1A1F && within 1 sub 8 then some (oCfg 4 rO 0 .N)
  else none

/-! ### Device-wide configuration (R146, R445; 08 R189; 10 R247) -/

/-- 2050h: declarations of unfitted units (R445). -/
def objUnfit (sub : Nat) : Option Obj :=
  if sub = 1 || sub = 5 || sub = 0xB then some { oCfg 8 rOS 0 .N with ty := .ostr 8 }
  else if sub = 2 then some (oCfg 4 rOS 0 .N)
  else if sub = 3 || sub = 4 || sub = 0xA then some (oCfg 2 rOS 0 .N)
  else if within 6 sub 9 then some (oCfg 1 rOS 0 .N 0 (if sub = 8 then 3 else 255))
  else none

/-- 2000h to 2FFFh. -/
def objDevice (idx sub : Nat) : Option Obj :=
  if idx = 0x2000 && sub = 1 then
    some { ty := .vstr 32, rd := rAll, wr := rO, dflt := [], eff := .A, pers := .J }
  else if (idx = 0x2010 || idx = 0x2011) && sub = 1 then some (oCfg 1 rOS 1 .N 0 2)
  else if (idx = 0x2010 || idx = 0x2011) && sub = 2 then some (oCfg 1 rOS 3 .N 0 3)
  else if (idx = 0x2010 || idx = 0x2011) && sub = 3 then some (oCfg 1 rOS (idx - 0x2010) .N 0 31)
  else if (idx = 0x2012 || idx = 0x2013) && sub = 1 then some (oCfg 1 rO 1 .N 0 1)
  else if (idx = 0x2012 || idx = 0x2013) && within 2 sub 4 then some (oCfg 4 rO 0 .N)
  else if (idx = 0x2020 || idx = 0x2021) && sub = 1 then some (oCfg 1 rO 2 .N 0 2)
  else if (idx = 0x2020 || idx = 0x2021) && sub = 2 then some (oCfg 2 rO 500 .N)
  else if (idx = 0x2020 || idx = 0x2021) && sub = 3 then some (oCfg 2 rO 2000 .N)
  else if (idx = 0x2020 || idx = 0x2021) && sub = 4 then some (oCfg 1 rO 16 .N 1 127)
  else if (idx = 0x2020 || idx = 0x2021) && sub = 6 then some (oCfg 1 rO 0 .N 0 1)
  else if (idx = 0x2022 || idx = 0x2023) && within 1 sub 8 then
    some { oCfg 1 rO 0 .N 0 2 with latigo := true }
  else if (idx = 0x2024 || idx = 0x2025) && within 1 sub 0x7F then
    some { oCfg 1 rO 0 .N with latigo := true }
  else if idx = 0x2030 && (sub = 1 || sub = 4) then some (oFlag rOS (if sub = 1 then 1 else 0) .N)
  else if idx = 0x2030 && sub = 2 then some (oCfg 2 rOS 7146 .N)
  else if idx = 0x2030 && sub = 3 then some (oCfg 2 rOS 16 .N 1 16)
  else if idx = 0x2030 && sub = 5 then some (oCfg 2 rOS 60 .N 10 600)
  else if idx = 0x2040 && sub = 1 then some (oCfg 2 rOS 250 .N 250 10000)
  else if idx = 0x2050 then objUnfit sub
  else if idx = 0x2100 && sub = 1 then some (oCfg 1 rO 0 .N 0 1)
  else if idx = 0x2100 && sub = 2 then some (oCfg 1 rO 6 .A 3 20)
  else if idx = 0x2100 && sub = 3 then some (oCfg 1 rO 3 .A 1 10)
  else if (idx = 0x2101 || idx = 0x2102) && sub = 1 then some (oFlag rO 0 .A)
  else if (idx = 0x2101 || idx = 0x2102) && sub = 2 then some (oCfg 1 rOS 0 .N 0 1)
  else if (idx = 0x2101 || idx = 0x2102) && sub = 3 then some (oCfg 1 rOS 0 .A 0 31)
  else if idx = 0x2200 && sub = 1 then some (oCfg 1 rO 40 .A 5 55)
  else if idx = 0x2200 && sub = 2 then some (oCfg 1 rO 0 .A 0 1)
  else if idx = 0x2200 && sub = 3 then some (oCfg 2 rO 1500 .A 200 1800)
  else if idx = 0x2200 && sub = 4 then some (oFlag rOS 0 .N)
  else if idx = 0x2200 && sub = 5 then some (oFlag rO 1 .N)
  else if idx = 0x2200 && sub = 6 then some { oCmd (.dom 4096) rO .A with pers := .J }
  else if idx = 0x2200 && sub = 7 then some { oCfg 2 rO 0 .I with pers := .V, rd := rO }
  else if idx = 0x2F00 && sub = 1 then
    some { ty := .hs, rd := rAll, wr := rAll, dflt := toLE 12 0, eff := .I, pers := .V }
  else none

/-! ### Points (07 R169, 08 R189, 10 R245) -/

/-- 3000h to 3FFFh: entry `k` of point `p`. -/
def objPoint (p k sub : Nat) : Option Obj :=
  match k, sub with
  | 0, 0x1 => some (oCfg 1 rO 0 .A 0 5)
  | 0, 0x2 => some (oCfg 1 rO 1 .N 0 1)
  | 0, 0x3 => some (oCfg 1 rO 1 .N 0 2)
  | 0, 0x4 => some (oCfg 1 rO 32 .A 6 80)
  | 0, 0x5 => some (oCfg 1 rOS 1 .A 0 2)
  | 0, 0x6 => some (oFlag rO 1 .A)
  | 0, 0x7 => some (oCfg 2 rS 10000 .A 9800 10200)
  | 0, 0x8 => some (oCfg 2 rO 0 .A 0 25500)
  | 0, 0x9 => some (oCfg 2 rO 4000 .A 100 5000)
  | 0, 0xA => some (oCfg 2 rO 300 .A)
  | 0, 0xB => some (oCfg 2 rO 1000 .A)
  | 1, 0x1 => some (oStat 1 rAll 0 true)
  | 1, 0x2 => some (oStat 1 rAll 0 true)
  | 1, 0x3 => some (oStat 2 rAll 0 true)
  | 1, 0x4 => some (oStatI 2 rOS)
  | 1, 0x5 => some (oStatI 2 rOS)
  | 1, 0x6 => some (oStat 1 rAll)
  | 1, 0x7 => some (oStat 8 rOS)
  | 2, 0x1 => some (oStat 1 rAll 0 true)
  | 2, 0x2 => some (oStat 2 rOS 0xFFFF)
  | 2, 0x3 => some (oStat 1 rAll)
  | 2, 0x4 => some (oStatI 2 rS)
  | 3, 0x1 => some (oStat 4 rS)
  | 3, 0x2 => some (oStat 4 rS)
  | 3, 0x3 => some (oStat 4 rS)
  | 4, 0x1 => some (oStat 1 rAll 0 true)
  | 4, 0x2 => some { ty := .ostr 6, rd := rOS, wr := 0, dflt := [], eff := .none, pers := .V }
  | 4, 0x3 => some (oStat 1 rOS)
  | 4, 0x4 => some (oCfg 1 rOS 6 .A 0 31)
  | 4, 0x5 => some (oCfg 1 rOS 2 .N 1 2)
  | 4, 0x6 => some (oStat 2 rS)
  | 4, 0x7 => some (oStat 2 rS)
  | 8, 0x1 => some (oCfg 1 rO 7 .N 0 7)
  | 8, 0x3 => some (oCfg 1 rO 0x1F .N 0 0x1F)
  | 8, 0x4 => some (oCfg 2 rO 0 .A)
  | 8, 0x5 => some (oCfg 2 rO 0 .A)
  | 8, 0x6 => some (oCfg 4 rO 0 .A)
  | 8, 0x7 => some (oCfg 2 rO 0 .A)
  | 8, 0x8 => some (oCfg 2 rO 0 .A)
  | 8, 0x9 => some (oCfg 1 rO (p % 8) .N 0 7)
  | 9, 0x1 => some (oStat 2 rAll 0 true)
  | 9, 0x2 => some (oStatI 4 rAll true)
  | 9, 0x3 => some { oStat 1 rAll 0 true with ty := .bool }
  | 9, 0x4 => some (oStat 2 rAll 0 true)
  | 9, 0x5 => some { oCfg 2 rO 0 .A with pers := .V }
  | _, _ => none

/-! ### Sessions (09 R216, 10 R246, 12 R313) -/

/-- 4000h to 47FFh: entry `k` of a slot. -/
def objSession (k sub : Nat) : Option Obj :=
  match k, sub with
  | 0, 0x1 => some (oStat 4 rCOS)
  | 0, 0x2 => some (oStat 8 rCOSV)
  | 0, 0x3 => some (oStat 1 15)
  | 0, 0x4 => some (oStat 1 rOS)
  | 0, 0x5 => some (oStat 1 15 0 true)
  | 0, 0x6 => some (oStat 1 rCOS)
  | 0, 0x7 => some (oStat 8 rOS)
  | 1, 0x1 => some { oCmd .bool 6 .A with lo := 1, hi := 1 }
  | 1, 0x2 => some { oCfg 2 rO 0 .A with pers := .V, rd := rCOS }
  | 1, 0x3 => some (oStat 1 rCOS)
  | 2, 0x1 => some (oStat 1 rCOS)
  | 2, 0x2 => some (oStat 1 rCOS)
  | 2, 0x3 => some { ty := .vstr 255, rd := rOS, wr := 0, dflt := [], eff := .none, pers := .V }
  | 2, 0x4 => some { ty := .vstr 255, rd := rOS, wr := 0, dflt := [], eff := .none, pers := .V }
  | 2, 0x5 => some (oStat 1 rO 0 true)
  | 2, 0x6 => some { oCmd (.u 1) rO .I with lo := 1, hi := 2 }
  | 2, 0x7 => some (oStat 1 rCOS 0 true)
  | 3, 0x1 => some (oStat 2 rOS 0 true)
  | 3, 0x2 => some (oStatI 4 rOS true)
  | 3, 0x5 => some { ty := .dom 4096, rd := rO, wr := 0, dflt := [], eff := .none, pers := .V }
  | 3, 0x6 => some (oCmd (.dom 4096) rO .I)
  | 3, 0x7 => some { oCfg 2 rO 0 .I with pers := .V, rd := rO }
  | 3, 0x8 => some { oCfg 2 rO 0 .I with pers := .V, rd := rO }
  | 4, 0x1 => some (oStat 1 rCOSV 0 true)
  | 4, 0x2 => some (oStat 8 rCOSV 0 true)
  | 4, 0x3 => some (oStat 8 rCOSV 0 true)
  | 4, 0x4 => some (oStatI 8 rCOSV)
  | 4, 0x5 => some (oStat 4 rCOSV)
  | 4, 0x6 => some (oStat 4 rCOSV)
  | 5, 0x1 => some (oStat 1 rCOS)
  | 5, 0x2 => some (oStat 4 rCOS)
  | 5, 0x3 => some (oStat 4 rCOS)
  | 5, 0x4 => some (oStat 1 rCOS)
  | 5, 0x5 => some { ty := .vstr 20, rd := 6, wr := 0, dflt := [], eff := .none, pers := .V }
  | 6, 0x1 => some { ty := .dom 144, rd := rCOV, wr := 0, dflt := [], eff := .none, pers := .V }
  | 6, 0x2 => some (oStat 2 rOS)
  | 7, 0x1 => some (oStat 2 rOSV)
  | 7, 0x2 => some { ty := .dom 576, rd := rCOV, wr := 0, dflt := [], eff := .none, pers := .S }
  | _, _ => none

/-! ### Metrology and billing (11 R278 to R280, 12 R314, R315) -/

/-- An element, 5000h + e; `dc` says whether its type is DC. -/
def objElem (dc : Bool) (sub : Nat) : Option Obj :=
  match sub with
  | 0x01 => some (oSeal 1 rAll rV 0 0 2)
  | 0x02 => some (oSeal 1 rAll rV 0 0 143)
  | 0x03 => some (oSeal 1 rAll rV 0 0 143)
  | 0x04 => some (oSeal 1 rAll rV 50 50 60)
  | 0x05 => some (oSeal 4 rAll rV 0)
  | 0x06 => some (oSeal 4 rAll rV 0)
  | 0x07 => some (oSeal 4 rAll rV 0)
  | 0x08 => some (oSeal 2 rAll rV (if dc then 20 else 10))
  | 0x09 => some (oSeal 4 rAll rV 0)
  | 0x0A => some (oStat 4 rAll 0 true)
  | 0x0B => some (oSeal 2 rAll rV 100)
  | _ =>
    if within 0x10 sub 0x15 then some { oStat 8 rAll with pers := .S }
    else if within 0x16 sub 0x1B then some { oStat 8 rOSV with pers := .S }
    else if within 0x20 sub 0x26 then some { oStat 4 rAll 0 true with ty := .real }
    else if within 0x27 sub 0x28 then some { oStat 4 rOSV with ty := .real }
    else none

/-- A channel, 5100h + c. -/
def objChan (c sub : Nat) : Option Obj :=
  match sub with
  | 0x1 => some (oSeal 1 rAll rV 0 0 2)
  | 0x2 => some { oSeal 4 rAll rV 0x3F800000 with ty := .real }
  | 0x3 => if c < 80 then some (oSeal 1 rAll rV 1 0 3) else none
  | 0x4 => some (oSeal 1 rAll rV 1)
  | 0x5 => some (oStat 1 rOSV 1)
  | 0x6 => some { oStat 4 rAll with ty := .real }
  | 0x7 => some (oStat 4 rSV)
  | 0x8 => some (oStat 4 rSV)
  | 0x9 => some (oStat 4 rSV)
  | 0xA => some { oStat 1 rAll with pers := .S }
  | _ => none

/-- A point's billing entries, 5400h + p. -/
def objBill (sub : Nat) : Option Obj :=
  if within 1 sub 0x22 then some { oStat 8 rOSV with pers := .S }
  else match sub with
    | 0x23 => some (oStat 8 rOSV)
    | 0x24 => some (oStat 2 rAll 0 true)
    | 0x25 => some (oStat 4 rOSV)
    | 0x26 => some (oStat 4 rOSV)
    | 0x27 => some { oStat 4 rOSV with pers := .S }
    | 0x28 => some { oStat 8 rOSV with pers := .S }
    | 0x29 => some { oCmd .bool rO .L with lo := 1, hi := 1, pers := .S }
    | 0x2A => some { oStat 4 rOSV with pers := .S }
    | 0x30 => some (oSeal 1 rAll rO 0 0 3)
    | 0x31 => some { ty := .dom 2304, rd := rOSV, wr := 0, dflt := [], eff := .none, pers := .S }
    | _ => none

/-- The hub's billing entries, 5480h to 5800h (12 R315). -/
def objHub (idx sub : Nat) : Option Obj :=
  match idx, sub with
  | 0x5480, 0x1 => some (oSeal 1 rAll rO 15 5 60)
  | 0x5480, 0x2 => some { oStat 8 rOSV with pers := .S }
  | 0x5480, 0x3 => some { oStat 2 rOSV with pers := .S }
  | 0x5480, 0x4 => some { oCmd (.u 8) rO .L with pers := .S }
  | 0x5480, 0x5 => some { oStat 8 rOV with pers := .S }
  | 0x5480, 0x6 => some { oStat 8 rOV with pers := .S }
  | 0x5480, 0x7 => some { ty := .ostr 97, rd := rAll, wr := 0, dflt := [], eff := .none, pers := .fixed }
  | 0x5480, 0x8 => some { oCfg 8 rCOV 0 .I with rd := rCOV, pers := .V }
  | 0x5480, 0x9 => some { ty := .dom 576, rd := rCOV, wr := 0, dflt := [], eff := .none, pers := .S }
  | 0x5500, 0x1 => some (oStat 8 rAll)
  | 0x5500, 0x2 => some { oStatI 2 rAll with pers := .S }
  | 0x5500, 0x3 => some { oCmd (.u 8) rOV .L with pers := .S }
  | 0x5500, 0x4 => some { oCmd (.i 2) rO .L with pers := .S, lo := -720, hi := 840 }
  | 0x5500, 0x5 => some (oStat 4 rOV)
  | 0x5500, 0x6 => some { oStat 1 rAll with pers := .S }
  | 0x5500, 0x7 => some (oStat 8 rAll)
  | 0x5600, 0x1 => some { ty := .dom 3712, rd := rOSV, wr := rO, dflt := [], eff := .L, pers := .S }
  | 0x5600, 0x2 => some { oCmd (.u 8) rO .L with pers := .S }
  | 0x5600, 0x3 => some { oStat 1 rAll with pers := .S }
  | 0x5600, 0x4 => some { ty := .dom 3712, rd := rAll, wr := 0, dflt := [], eff := .none, pers := .S }
  | 0x5600, 0x5 => some (oStat 1 rAll 0 true)
  | 0x5700, 0x1 => some { oStat 4 rOSV with pers := .S }
  | 0x5700, 0x2 => some { oStat 4 rOSV with pers := .S }
  | 0x5700, 0x3 => some { oStat 2 rAll 8192 with pers := .S }
  | 0x5700, 0x4 => some { oCfg 4 rOSV 0 .I with rd := rOSV, pers := .V }
  | 0x5700, 0x5 => some { ty := .dom 128, rd := rOSV, wr := 0, dflt := [], eff := .none, pers := .S }
  | 0x5700, 0x6 => some { oCmd (.u 4) rV .L with pers := .S }
  | 0x5700, 0x7 => some { oStat 4 rOSV with pers := .S }
  | 0x5800, 0x1 => some { oCmd (.ostr 32) rO .L with latigo := true, pers := .S }
  | 0x5800, 0x2 => some { oStat 1 rAll with pers := .S }
  | 0x5800, 0x3 => some (oSeal 4 rAll rO 50000)
  | 0x5800, 0x4 => some (oSeal 4 rAll rO 20000)
  | 0x5800, 0x5 => some { oSeal 1 rAll rO 1 0 1 with ty := .bool }
  | 0x5800, 0x6 => some (oSeal 2 rAll rO 300 60 900)
  | 0x5800, 0x7 => some { oStat 4 rOSV with pers := .S }
  | 0x5800, 0x8 => some { oStat 4 rOSV with pers := .S }
  | 0x5800, 0x9 => some { oStat 4 rOSV with pers := .S }
  | 0x5800, 0xA => some (oStat 2 rAll)
  | _, _ => none

/-- 5000h to 5FFFh. -/
def objSealed (dc : Bool) (idx sub : Nat) : Option Obj :=
  if within 0x5000 idx 0x507F then objElem dc sub
  else if within 0x5100 idx 0x518F then objChan (idx - 0x5100) sub
  else if within 0x5200 idx 0x528F && within 1 sub 0x40 then some { oStat 4 rAll with ty := .real }
  else if idx = 0x5300 && sub = 1 then some (oStat 1 rAll)
  else if idx = 0x5300 && sub = 2 then some (oStatI 1 rAll)
  else if idx = 0x5300 && sub = 3 then some { oStat 1 rAll with pers := .S }
  else if within 0x5308 idx 0x530F then
    match sub with
    | 1 => some (oSeal 2 rAll rV 0 0 0x1FF)
    | 2 => some (oSeal 1 rAll rV 0 0 3)
    | 3 => some (oSeal 4 rAll rV 1000 1 100000)
    | 4 => some (oSeal 1 rAll rOS 20 2 100)
    | 5 => some (oStat 4 rOSV)
    | _ => none
  else if idx = 0x5310 && sub = 1 then some { ty := .dom 4096, rd := rSV, wr := rV, dflt := [], eff := .L, pers := .S }
  else if idx = 0x5310 && sub = 2 then some { oCfg 2 rSV 0 .I with rd := rSV, pers := .V }
  else if within 0x5320 idx 0x535F && within 1 sub 4 then
    some (oSeal 1 rAll rV 0 0 (if sub = 1 then 3 else 127))
  else if idx = 0x53F0 && sub = 1 then some { oStat 1 rAll with pers := .S }
  else if idx = 0x53F0 && sub = 2 then some { oCmd (.ostr 18) rV .L with pers := .S }
  else if idx = 0x53F0 && sub = 3 then some { oCmd (.u 1) rV .L with pers := .S, lo := 1, hi := 2 }
  else if idx = 0x53F0 && sub = 4 then some { oStat 4 rAll with pers := .S }
  else if within 0x5400 idx 0x543F then objBill sub
  else objHub idx sub

/-! ### Outputs and earth faults (14 R367) -/

/-- 6000h to 68FFh. -/
def objPower (idx sub : Nat) : Option Obj :=
  if within 0x6000 idx 0x605F then
    let coil := decide (idx < 0x6040)
    match sub with
    | 0x1 => some (oCfg 1 rOS 0 .A 0 (if coil then 2 else 1))
    | 0x2 => some (oCfg 1 rOS 0 .A 0 1)
    | 0x3 => some (oCfg 1 rOS 1 .A 0 2)
    | 0x4 => if coil then some (oCfg 1 rOS 50 .A 10 100) else none
    | 0x5 => if coil then some (oCfg 1 rOS 40 .A 10 100) else none
    | 0x6 => if coil then some (oCfg 1 rOS 2 .A 0 3) else none
    | 0x7 => some (oCfg 1 rOS 2 .A 0 15)
    | 0x8 => some (oCfg 1 rOS 20 .A 0 150)
    | 0x10 => some (oStat 1 rAll 0 true)
    | 0x11 => some (oStat 2 rOS 0 true)
    | 0x12 => some (oStatI 1 rOS)
    | 0x13 => some (oStat 2 rS)
    | 0x14 => some (oStat 2 rS)
    | 0x15 => some (oStat 1 rOS)
    | 0x16 => some (oStat 1 rOS)
    | 0x20 => some { oCmd (.u 1) rS .A with lo := 1, hi := 4 }
    | _ => none
  else if idx = 0x6080 then
    match sub with
    | 1 => some { oStat 1 rAll with ty := .bool }
    | 2 => some { oFlag rS 0 .A with pers := .V }
    | 3 => some (oCfg 1 rOS 4 .N 1 15)
    | 4 => some (oCfg 1 rOS 60 .N 10 255)
    | 5 => some (oStat 2 rOS)
    | 6 => some { ty := .ostr 4, rd := rOS, wr := 0, dflt := [], eff := .none, pers := .V }
    | _ => none
  else if within 0x6800 idx 0x680F then
    match sub with
    | 0x1 => some (oFlag rO 0 .A)
    | 0x2 => some { ty := .ostr 8, rd := rAll, wr := 0, dflt := toLE 8 0, eff := .none, pers := .V }
    | 0x3 => some (oCfg 1 rOS 5 .A)
    | 0x4 => some (oCfg 2 rOS 1000 .A)
    | 0x5 => some (oCfg 2 rS 100 .A)
    | 0x6 => some (oCfg 2 rS 1000 .A)
    | 0x7 => some (oCfg 2 rS 200 .A)
    | 0x8 => some (oCfg 2 rO 500 .A)
    | 0x9 => some (oCfg 2 rO 100 .A)
    | 0xA => some (oStat 2 rAll 0 true)
    | 0xB => some (oStat 1 rAll 0 true)
    | 0xC => some (oStat 1 rAll 0 true)
    | 0xD => some { oCmd .bool rO .A with lo := 1, hi := 1 }
    | _ => none
  else if within 0x6840 idx 0x687F then
    match sub with
    | 1 => some (oFlag rO 0 .A)
    | 2 => some (oCfg 1 rS 100 .A)
    | 3 => some (oCfg 1 rO 60 .A)
    | 4 => some (oCfg 1 rO 30 .A)
    | 5 => some (oStatI 2 rOS true)
    | 6 => some (oStat 2 rOS 0 true)
    | 7 => some (oStat 1 rAll 0 true)
    | 8 => some (oStat 2 rS)
    | 9 => some { oCmd .bool rO .A with lo := 1, hi := 1 }
    | _ => none
  else none

/-! ### Safety and security (15 R394, 16 R419) -/

/-- 6900h to 70FFh. -/
def objSafe (idx sub : Nat) : Option Obj :=
  if idx = 0x6900 then
    match sub with
    | 1 => some { ty := .dom 2048, rd := rAll, wr := rS, dflt := [], eff := .N, pers := .J }
    | 2 => some { oCfg 2 rS 0 .I with rd := rS, pers := .V }
    | 3 => some { ty := .ostr 48, rd := rAll, wr := 0, dflt := [], eff := .none, pers := .V }
    | 4 => some { ty := .ostr 48, rd := rAll, wr := 0, dflt := [], eff := .none, pers := .V }
    | 5 => some (oStat 4 rAll 0 true)
    | _ => none
  else if idx = 0x6901 then
    match sub with
    | 1 => some (oStat 2 rAll 0 true)
    | 2 => some (oStat 2 rAll 0 true)
    | 3 => some (oStat 1 rAll)
    | 4 => some (oStat 1 rAll)
    | _ => none
  else if within 0x6920 idx 0x6927 then
    match sub with
    | 1 => some (oStat 1 rAll 0 true)
    | 2 => some (oStatI 4 rAll true)
    | 3 => some (oStatI 2 rAll true)
    | _ => none
  else if within 0x6940 idx 0x697F then
    match sub with
    | 1 => some (oStat 2 rAll 0 true)
    | 2 => some { oStat 1 rAll with ty := .bool }
    | _ => none
  else if idx = 0x7000 && (sub = 1 || sub = 2) then some { oStat 4 rAll with pers := .fixed }
  else if idx = 0x7000 && sub = 3 then some { oStat 1 rAll with pers := .fixed }
  else if idx = 0x7000 && (sub = 4 || sub = 5) then some (oStat 4 rAll)
  else if idx = 0x7001 && sub = 1 then some (oCmd (.u 4) rS .I true)
  else if idx = 0x7001 && sub = 2 then some { oCmd (.u 4) rOV .I true with lo := 0x444D4F43, hi := 0x444D4F43 }
  else if idx = 0x7008 && within 1 sub 0x10 then
    some { ty := .ostr 48, rd := rOSV, wr := 0, dflt := [], eff := .none, pers := .V }
  else if idx = 0x7040 then
    match sub with
    | 0x1 => some (oCmd (.dom 10260) rOS .I true)
    | 0x2 => some { oCfg 2 rOS 0 .I with rd := rOS, pers := .V }
    | 0x3 => some { oCfg 1 rOS 0 .I with rd := rOS, pers := .V }
    | 0x4 => some (oCmd (.dom 65536) rOS .A true)
    | 0x5 => some { oCmd .bool rOS .A true with lo := 1, hi := 1 }
    | 0x6 => some (oStat 1 rAll 0 true)
    | 0x7 => some (oStat 1 rOS 0xFF)
    | 0x8 => some (oStat 1 rOS)
    | 0x9 => some (oCfg 2 rOS 600 .N 60 3600)
    | 0xA => some { oCmd .bool rOS .A true with lo := 1, hi := 1 }
    | _ => none
  else if idx = 0x7050 && sub = 1 then some (oCmd (.ostr 48) rS .I true)
  else if within 0x7080 idx 0x70FF then
    match sub with
    | 1 => some (oStat 4 rOSV)
    | 2 => some (oStat 2 rOSV)
    | 3 => some { ty := .dom 4096, rd := rAll, wr := 0, dflt := [], eff := .none, pers := .V }
    | 4 => if within 0x7090 idx 0x70AF then some (oCmd (.dom 4096) 28 .I true) else none
    | 5 => if within 0x7090 idx 0x70AF then some { oCmd .bool 28 .I true with lo := 1, hi := 1 } else none
    | _ => none
  else none

/-! ### Terminal (13 R342) -/

/-- 7800h to 78FFh. -/
def objTerm (idx sub : Nat) : Option Obj :=
  if idx = 0x7800 || idx = 0x7801 then
    match sub with
    | 0x1 => some { oSeal 1 rAll rO 0 0 1 with ty := .bool }
    | 0x2 => some (oSeal 2 rAll rO 800 320 800)
    | 0x3 => some (oSeal 2 rAll rO 480 240 480)
    | 0x4 => some (oSeal 2 rAll rO 4)
    | 0x5 => some (oSeal 2 rAll rO 4)
    | 0x6 => some (oSeal 2 rAll rO 400)
    | 0x7 => some (oSeal 2 rAll rO 120)
    | 0x8 => some { oSeal 8 rAll rO 0 with ty := .ostr 8 }
    | 0x9 => some (oSeal 1 rAll rOS 0 0 1)
    | 0xA => some (oStat 1 rAll 0 true)
    | 0xB => some (oStat 4 rS)
    | 0xC => some (oStat 4 rS)
    | 0xD => some { ty := .ostr 60, rd := rS, wr := rS, dflt := [], eff := .L, pers := .S }
    | 0xE => some { oSeal 1 rAll rO 0 0 1 with ty := .bool }
    | _ => none
  else if within 0x7810 idx 0x781F then
    match sub with
    | 1 => some (oCfg 1 rO 0 .A 0 2)
    | 2 => some (oCfg 1 rO 3 .A 0 3)
    | 3 => some (oCfg 2 rOS 300 .A 50 2000)
    | 4 => some (oCfg 1 rS 3 .A 1 15)
    | 5 => some (oCfg 1 rS 2 .A 1 15)
    | 6 => some (oStat 1 rAll)
    | 7 => some (oStat 1 rOS)
    | _ => none
  else if within 0x7830 idx 0x7833 then
    match sub with
    | 1 => some (oCfg 1 rO 0xFF .A)
    | 2 => some { ty := .ostr 1024, rd := rAll, wr := rO, dflt := [0, 0], eff := .A, pers := .J }
    | 3 => some { oStat 1 rAll with ty := .bool }
    | 4 => some (oCfg 1 rO 0 .A 0 1)
    | _ => none
  else if idx = 0x7840 then
    match sub with
    | 1 => some (oSeal 1 rAll rO 0 0 1)
    | 2 => some (oSeal 1 rAll rO 60 10 120)
    | 3 => some { oSeal 1 rAll rO 1 0 1 with ty := .bool }
    | 4 => some (oStat 1 rAll 0xFF)
    | _ => none
  else none

/-- 8000h to 8FFFh (06 R147). -/
def objDiag (idx sub : Nat) : Option Obj :=
  if idx = 0x8000 && sub = 1 then some (oStat 1 rAll)
  else if idx = 0x8001 && within 1 sub 3 then some (oStat 4 rS)
  else if idx = 0x8001 && sub = 4 then some (oStat 1 rS)
  else if idx = 0x8002 && (sub = 1 || sub = 2) then some (oStat 4 rOS)
  else if idx = 0x8002 && sub = 3 then some (oStat 4 rS)
  else if idx = 0x8002 && sub = 4 then some (oStat 2 rS)
  else if idx = 0x8010 && within 1 sub 0x80 then some (oStat 4 rS)
  else if idx = 0x8011 && sub = 1 then some { oCmd .bool rS .I with lo := 1, hi := 1 }
  else if idx = 0x8020 && within 1 sub 0x1E then some (oStat 4 rS)
  else none

/-- The entry at an index and subindex; `dc` says whether a metrology element is of type DC. -/
def objAt (dc : Bool) (idx sub : Nat) : Option Obj :=
  if within 0x1000 idx 0x1FFF then objComm idx sub
  else if within 0x2000 idx 0x2FFF then objDevice idx sub
  else if within 0x3000 idx 0x3FFF then objPoint ((idx - 0x3000) / 64) (idx % 64) sub
  else if within 0x4000 idx 0x47FF then objSession (idx % 8) sub
  else if within 0x5000 idx 0x5FFF then objSealed dc idx sub
  else if within 0x6000 idx 0x68FF then objPower idx sub
  else if within 0x6900 idx 0x70FF then objSafe idx sub
  else if within 0x7800 idx 0x78FF then objTerm idx sub
  else if within 0x8000 idx 0x8FFF then objDiag idx sub
  else none

/-! ### Checks on a value (R122, check 6 of R126) -/

/-- A printable ASCII character. -/
def printable (b : Byte) : Bool := within 0x20 b.toNat 0x7E

/-- The value has the length of its type (R122). -/
def Obj.lenOk (o : Obj) (d : List Byte) : Bool :=
  match o.ty with
  | .bool => d.length = 1
  | .u n => d.length = n
  | .i n => d.length = n
  | .real => d.length = 4
  | .vstr m => decide (d.length ≤ m)
  | .ostr m => decide (d.length ≤ m)
  | .dom m => decide (d.length ≤ m)
  | .hs => d.length = 12

/-- The number a value shows. -/
def Obj.num (o : Obj) (d : List Byte) : Int :=
  match o.ty with
  | .i _ => intLE d
  | _ => ofLE d

/-- The value has the type and lies in the range of the entry (R122, R126). -/
def Obj.valOk (o : Obj) (d : List Byte) : Bool :=
  o.lenOk d && match o.ty with
    | .bool => decide (ofLE d ≤ 1) && decide (o.lo ≤ ofLE d)
    | .u _ => decide (o.lo ≤ o.num d) && decide (o.num d ≤ o.hi)
    | .i _ => decide (o.num d ≤ o.hi) && (decide (o.lo = 0) || decide (o.lo ≤ o.num d))
    | .vstr _ => d.all printable
    | _ => true

/-- The role's bit in an access mask. -/
def roleBit : Role → Nat
  | .pub => 0 | .customer => 1 | .operator => 2 | .service => 3 | .verifier => 4
  | .manufacturer => 5 | .firmware => 6

/-- The mask grants the role. -/
def granted (mask : Nat) (r : Role) : Bool := decide (mask / 2 ^ roleBit r % 2 = 1)

end Sys2Proof.Machine
end

