-- ==== Sys2Proof/Machine/LinkOps.lean ====
section
/-!
DEFINITION. The two ends of the sealed link (01 R28 to R32): sending, the window of unacknowledged
messages and the credit.
-/
set_option Elab.async false
namespace Sys2Proof.Machine

/-- An end of the link. -/
def State.linkEnd (s : State) : Side → LinkEnd
  | .control => s.app.link
  | .sealed => s.die.link

/-- Changing an end of the link. -/
def State.updLink (s : State) (d : Side) (f : LinkEnd → LinkEnd) : State :=
  match d with
  | .control => { s with app.link := f s.app.link }
  | .sealed => { s with die.link := f s.die.link }

/-- A counter of group 0Ch for the control-side end (R120). -/
def linkCount (d : Side) (idx k : Nat) (s : State) : State :=
  match d with
  | .control => countEvents 0x0C idx k s
  | .sealed => s

/-- The last sequence number of 64 bits has been used (17 R423). -/
def LinkEnd.spent (e : LinkEnd) : Bool := decide (2 ^ 64 ≤ e.txNext)

/-- A message may be sent: fewer unacknowledged than the last credit, and at most 32 (R31), with a number left. -/
def LinkEnd.maySend (e : LinkEnd) : Bool :=
  e.key.isSome && !e.spent && decide (e.unacked.length < e.credit) && decide (e.unacked.length < 32)

/-- Bytes 0 to 15 + n of a message (R28). -/
def linkBytes (m : LinkMsg) : List Byte :=
  toLE 2 m.cls.toNat ++ toLE 2 m.payload.length ++ toLE 8 m.seq ++ toLE 4 m.tag.toNat ++ m.payload

/-- The MAC field of a message under a link key: the first 16 bytes of HMAC-SHA-384 over bytes 0 to 15 + n (R28). -/
def linkMac (key : BitVec 384) (m : LinkMsg) : List Byte :=
  (digestBytes (Config.hmac384 (digestBytes key) (linkBytes m))).take 16

/-- The MAC field an end gives a message. -/
def LinkEnd.macOf (e : LinkEnd) (m : LinkMsg) : List Byte :=
  match e.key with
  | some k => linkMac k m
  | none => List.replicate 16 0

/-- A kind-2 message (R31): class 000Ah, sequence number 0; its request tag is 0 (the model's choice, assumption 35). -/
def beatMsg (acked credit : Nat) : LinkMsg :=
  { cls := 0x000A, seq := 0, tag := 0, payload := [2, 0, 0, 0] ++ toLE 8 acked ++ [BitVec.ofNat 8 credit, 0, 0, 0] }

/-- Sending what is held back, as far as the credit goes (R31); the message takes the next number (R30). -/
def linkFlush (d : Side) : Nat → State → State
  | 0, s => s
  | n + 1, s =>
    let e := s.linkEnd d
    match e.held with
    | [] => s
    | m :: r =>
      if e.maySend then
        linkFlush d n (linkCount d 0 1 (s.updLink d fun e =>
          { e with held := r, txNext := e.txNext + 1,
                   unacked := e.unacked ++ [{ msg := { m with seq := e.txNext }, mac := e.macOf { m with seq := e.txNext } }] }))
      else s

/-- Offering a message to an end; without a link key it is dropped (assumption 35). -/
def linkOffer (d : Side) (cls : Nat) (tag : Word) (payload : List Byte) (s : State) : State :=
  if (s.linkEnd d).key.isNone then s
  else linkFlush d 33 (s.updLink d fun e =>
    { e with held := e.held ++ [{ cls := BitVec.ofNat 16 cls, seq := 0, tag := tag, payload := payload }] })

/-- The sealed die sends a message of its own, with tag 0 (R282). -/
def dieSend (cls : Nat) (payload : List Byte) (s : State) : State := linkOffer .sealed cls 0 payload s

/-- The sealed die answers a request: the reply echoes its tag (R28). -/
def dieReply (tag : Word) (cls : Nat) (payload : List Byte) (s : State) : State :=
  linkOffer .sealed cls tag payload s

/-- The link is agreed: both ends hold the key. -/
def State.linkUp (s : State) : Bool := s.app.link.key.isSome && s.die.link.key.isSome && s.die.running

end Sys2Proof.Machine
end

