-- ==== Sys2Proof/Machine/SealedOps.lean ====
section
/-!
DEFINITION. Shared operations of the sealed die: legal parameters, the legal log (12 R303), routing of
energy to point registers, intervals and records (12 R291), costs and purses (12 R292, R309), records
(12 R298) and boundaries (12 R294).
-/
set_option Elab.async false
namespace Sys2Proof.Machine

/-! ### Parameters -/

/-- An element's type is DC, by its entry as written (11 R278). -/
def State.elemDc (s : State) (idx : Nat) : Bool :=
  within 0x5000 idx 0x507F && ofLE ((s.die.obj.get (idx * 256 + 1)).getD []) = 2

/-- A value kept by the sealed die: as written, or its default. -/
def State.sobj (s : State) (idx sub : Nat) : List Byte :=
  match s.die.obj.get (idx * 256 + sub) with
  | some v => v
  | none => ((objAt (s.elemDc idx) idx sub).map (·.dflt)).getD []

/-- The number of such a value. -/
def State.snum (s : State) (idx sub : Nat) : Nat := ofLE (s.sobj idx sub)

/-- An entry of an ADC or bitstream channel whose kind is 0, which is unfitted (06 R445), other than the kind itself. -/
def State.chanUnfit (s : State) (idx sub : Nat) : Bool :=
  (within 0x5100 idx 0x518F && sub ≠ 1 && s.snum idx 1 = 0) || (within 0x5200 idx 0x528F && s.snum (idx - 0x100) 1 = 0)

/-- Writing such a value. -/
def State.setSobj (s : State) (idx sub : Nat) (v : List Byte) : State :=
  { s with die.obj := s.die.obj.set (idx * 256 + sub) (some v) }

/-- The sealed die acts for a role of its fuse-held set; firmware acts for a session (R35). -/
def State.dieRole (s : State) (r : Role) : Bool :=
  r = .firmware || !s.die.legal.roleOff.getLsbD (roleBit r)

/-! ### Elements and point meters (11 R261 to R263) -/

/-- An element that is configured. -/
def State.elemOn (s : State) (e : Nat) : Bool := s.snum (0x5000 + e) 1 ≠ 0

/-- The elements of the point meter of `p` (5320h + p). -/
def State.meterElems (s : State) (p : Nat) : List Nat :=
  (List.range (min 3 (s.snum (0x5320 + p) 1))).map fun k => s.snum (0x5320 + p) (2 + k)

/-- The point whose meter has element `e`. -/
def State.elemPoint (s : State) (e : Nat) : Option Nat :=
  (List.range 64).find? fun p => (s.meterElems p).contains e

/-- An element uses a channel of the selection of an open seal procedure: it is quiesced (R276). -/
def State.elemSelected (s : State) (sel : BitVec 144) (e : Nat) : Bool :=
  s.elemOn e && (sel.getLsbD (s.snum (0x5000 + e) 2) || sel.getLsbD (s.snum (0x5000 + e) 3))

/-- An element is quiesced. -/
def State.quiesced (s : State) (e : Nat) : Bool :=
  match s.die.met.sealSel with
  | none => false
  | some sel => s.elemSelected sel e

/-- Changing an element. -/
def State.updElem (s : State) (e : Nat) (f : Elem → Elem) : State :=
  { s with die.met.elem := s.die.met.elem.upd e f }

/-- Changing a channel. -/
def State.updChan (s : State) (c : Nat) (f : Chan → Chan) : State :=
  { s with die.met.chan := s.die.met.chan.upd c f }

/-- The elements that use a channel. -/
def State.chanElems (s : State) (c : Nat) : List Nat :=
  (List.range 128).filter fun e =>
    s.elemOn e && (s.snum (0x5000 + e) 2 = c || s.snum (0x5000 + e) 3 = c)

/-- The reference element of a channel: the lowest-numbered that uses it (R262). -/
def State.refElem (s : State) (c : Nat) : Option Nat := (s.chanElems c).head?

/-! ### Legal log (12 R303, R304) -/

/-- Free entries. -/
def State.logFree (s : State) : Nat := 8192 - s.die.legal.log.length

/-- Fewer than 256 entries are free: what can be refused is refused (R304). -/
def State.logLow (s : State) : Bool := decide (s.logFree < 256)

/-- An entry is written; with none free the event is counted (R304). -/
def logAdd (kind : Nat) (data : List Byte) (s : State) : State :=
  if s.logFree = 0 then { s with die.legal.notWritten := stick 0xFFFFFFFF s.die.legal.notWritten 1 }
  else { s with
    die.legal.log := s.die.legal.log ++ [⟨s.die.legal.logNext, kind, s.die.legal.mtk, s.die.legal.lt, data⟩],
    die.legal.logNext := s.die.legal.logNext + 1 }

/-! ### Records (12 R296 to R298) -/

/-- The record of a serial. -/
def State.bill (s : State) (serial : Nat) : Option Rec := s.die.cur.recs.find? (·.serial = serial)

/-- The OPEN record of a point. -/
def State.openRec (s : State) (p : Nat) : Option Rec :=
  s.die.cur.recs.find? fun r => r.point = p && r.st = .open

/-- Changing the records. -/
def State.mapRecs (s : State) (f : Rec → Rec) : State := { s with die.cur.recs := s.die.cur.recs.map f }

/-- Changing the record of a serial. -/
def State.updRec (s : State) (serial : Nat) (f : Rec → Rec) : State :=
  s.mapRecs fun r => if r.serial = serial then f r else r

/-- Changing a point's billing registers. -/
def State.updPt (s : State) (p : Nat) (f : PointBill → PointBill) : State :=
  { s with die.cur.pts := s.die.cur.pts.upd p f }

/-- Record flag bits of R300. -/
def fLINK : Nat := 0
def fPOWER : Nat := 1
def fUNCLEAN : Nat := 2
def fCOINC : Nat := 3
def fSTEP : Nat := 4
def fUNSYNC : Nat := 5
def fFAULT : Nat := 6
def fGAP : Nat := 7
def fDISPLAY : Nat := 8
def fOVERRUN : Nat := 9
def fRESIDUE : Nat := 10

/-- Setting a flag of a record. -/
def Rec.flag (i : Nat) (r : Rec) : Rec := { r with flags := putBit r.flags i true }

/-- Setting a flag of a point's OPEN record. -/
def flagOpen (p i : Nat) (s : State) : State :=
  s.mapRecs fun r => if r.point = p && r.st = .open then r.flag i else r

/-- Setting a flag of every OPEN record. -/
def flagAllOpen (i : Nat) (s : State) : State := s.mapRecs fun r => if r.st = .open then r.flag i else r

/-- Whole mWh of a register. -/
def wholeMwh (x : Int) : Int := x / (2 ^ 32 : Int)

/-- A record's import in tariff `t`: a difference of the point's tariff registers, whole mWh (R300). -/
def Rec.impIn (r : Rec) (t : Nat) : Int := wholeMwh (r.tImp0.get t + r.tImp.get t) - wholeMwh (r.tImp0.get t)

/-- A record's export in tariff `t`. -/
def Rec.expIn (r : Rec) (t : Nat) : Int := wholeMwh (r.tExp0.get t + r.tExp.get t) - wholeMwh (r.tExp0.get t)

/-- Sum over the 16 tariffs. -/
def sum16 (f : Nat → Int) : Int := ((List.range 16).map f).sum

/-- Session import, whole mWh: the difference of the point's register (R292). -/
def Rec.imp (r : Rec) : Int := wholeMwh (r.impOpen + sum16 r.tImp.get) - wholeMwh r.impOpen

/-- Session export, whole mWh. -/
def Rec.exp (r : Rec) : Int := wholeMwh (r.expOpen + sum16 r.tExp.get) - wholeMwh r.expOpen

/-- Seconds of MTK in tariff `t` under the time basis, up to `now` (R292). -/
def Rec.secIn (r : Rec) (tariff now t : Nat) : Nat :=
  (r.tMs.get t + (match r.since with | some m => if t = tariff then now - m else 0 | none => 0)) / 1000

/-- The costs of a record under a calendar (R292). -/
def State.recCosts (s : State) (r : Rec) : Int × Int :=
  let c := s.die.legal.active
  let now := s.die.legal.mtk
  (sum16 fun t => divRound (r.impIn t * calPrice c t r.group 0 - r.expIn t * calPrice c t r.group 1) 1000000,
   sum16 fun t => divRound ((r.secIn s.die.cur.tariff now t : Int) * calPrice c t r.group 2) 60)

/-- The running total of a record. -/
def State.recTotal (s : State) (r : Rec) : Int :=
  if r.st = .open then (s.recCosts r).1 + (s.recCosts r).2 + r.fee else r.energyCost + r.timeCost + r.fee

/-! ### Purses and tokens (12 R305 to R311) -/

/-- What the purse has used, in its unit; the amount is rounded up (assumption 36). -/
def State.purseUsed (s : State) (r : Rec) : Nat :=
  match r.purse.unit with
  | 1 => ((s.recTotal r).toNat + 99) / 100
  | 2 => (r.imp.toNat + 9999) / 10000
  | _ => 0

/-- The remaining amount; never below 0 (R309). -/
def State.purseLeft (s : State) (r : Rec) : Nat := r.purse.credited - s.purseUsed r

/-- LT in minutes since 2024-01-01 00:00 UTC (R306). -/
def ltMinutes (lt : Nat) : Int := (lt / 60000 : Nat) - 28401120

/-- The Feistel function of R306 under TK. -/
def tokF (tk : List Byte) (cls i : Nat) (x : BitVec 32) : BitVec 32 :=
  let d := [0x4B, BitVec.ofNat 8 cls, BitVec.ofNat 8 i] ++ (toLE 4 x.toNat).reverse
  (Config.hmac384 tk d).extractLsb' 352 32

/-- One round of encryption (R306). -/
def tokRound (tk : List Byte) (cls : Nat) (p : BitVec 32 × BitVec 32) (i : Nat) : BitVec 32 × BitVec 32 :=
  (p.2, p.1 ^^^ tokF tk cls i p.2)

/-- One round of decryption. -/
def tokUnround (tk : List Byte) (cls : Nat) (p : BitVec 32 × BitVec 32) (i : Nat) : BitVec 32 × BitVec 32 :=
  (p.2 ^^^ tokF tk cls i p.1, p.1)

/-- Encryption of a block (R306). -/
def tokEnc (tk : List Byte) (cls : Nat) (b : BitVec 64) : BitVec 64 :=
  let r := (List.range 8).foldl (tokRound tk cls) (b.extractLsb' 32 32, b.extractLsb' 0 32)
  r.1 ++ r.2

/-- Decryption of a block (R306). -/
def tokDec (tk : List Byte) (cls : Nat) (e : BitVec 64) : BitVec 64 :=
  let r := (List.range 8).reverse.foldl (tokUnround tk cls) (e.extractLsb' 32 32, e.extractLsb' 0 32)
  r.1 ++ r.2

/-- CHK of a block (R306): the ones' complement of the sum of its three upper words. -/
def tokChk (b : BitVec 64) : BitVec 16 :=
  ~~~(b.extractLsb' 48 16 + b.extractLsb' 32 16 + b.extractLsb' 16 16)

/-- The smallest exponent for which the mantissa fits (R310). -/
def tokExp (amount : Nat) : Nat :=
  if amount ≤ 262143 then 0 else if amount / 10 ≤ 262143 then 1 else if amount / 100 ≤ 262143 then 2 else 3

/-- The 20 digits of a refund token of an amount (R310), as ASCII. -/
def refundDigits (tk : List Byte) (sub : Nat) (tid : Nat) (amount : Nat) : List Byte :=
  let e := tokExp amount
  let m := min 262143 (amount / 10 ^ e)
  let b0 : BitVec 64 := BitVec.ofNat 64 (sub * 2 ^ 60 + tid % 2 ^ 24 * 2 ^ 36 + e * 2 ^ 34 + m * 2 ^ 16)
  let b := b0 ||| (tokChk b0).setWidth 64
  let n := 2 ^ 64 + (tokEnc tk 1 b).toNat
  (List.range 20).map fun k => BitVec.ofNat 8 (48 + n / 10 ^ (19 - k) % 10)

/-- A refund token of an amount above 0, where refunds are enabled and a key is loaded (R310). -/
def State.refundOf (s : State) (unit amount : Nat) (lt : Nat) : Option (Nat × List Byte) :=
  match s.die.legal.tk with
  | none => none
  | some tk =>
    if amount = 0 || s.snum 0x5800 5 = 0 then none
    else
      let e := tokExp amount
      some (min 262143 (amount / 10 ^ e) * 10 ^ e, refundDigits tk (unit - 1) (ltMinutes lt).toNat amount)

/-- The purse notices of R309: OP 3 at 10 % left, OP 4 at 0; energy beyond 0 sets OVERRUN. -/
def purseCheck (serial : Nat) (s : State) : State :=
  match s.bill serial with
  | none => s
  | some r =>
    if r.st ≠ .open || r.purse.unit = 0 then s
    else
      let left := s.purseLeft r
      let s1 := if r.purse.told10 || decide (r.purse.credited < left * 10) then s
        else dieSend 7 ([0xFF, 3, BitVec.ofNat 8 r.point] ++ toLE 8 serial ++ toLE 4 left)
          (s.updRec serial fun r => { r with purse.told10 := true })
      let s2 := if left = 0 && !r.purse.told0 then
          dieSend 7 ([0xFF, 4, BitVec.ofNat 8 r.point] ++ toLE 8 serial)
            (s1.updRec serial fun r => { r with purse.told0 := true })
        else s1
      if r.purse.credited < s.purseUsed r then s2.updRec serial (Rec.flag fOVERRUN) else s2

/-! ### Routing energy (12 R291) -/

/-- The tariff in force at an MTK. -/
def State.tariffAt (s : State) (t : Nat) : Nat :=
  match s.die.cur.cuts.find? fun c => decide (c.1 ≤ t) with
  | some c => c.2
  | none => s.die.cur.tariff

/-- The record that takes energy of a point at an MTK: open then, and its costs not yet fixed. -/
def State.recAt (s : State) (p t : Nat) : Option Rec :=
  s.die.cur.recs.find? fun r =>
    r.point = p && r.st ≠ .signed && decide (r.mtkOpen ≤ t) && (r.st = .open || decide (t < r.mtkClose))

/-- Mean power, W, of energy in mWh × 2^32 over a length in s. -/
def meanW (e : Int) (lenS : Nat) : Nat := if lenS = 0 then 0 else (wholeMwh e).toNat * 36 / (lenS * 10)

/-- Taking the mean of a full-length interval into the maximum demand (R290). -/
def PointBill.demand (b : PointBill) (e : IntEntry) : PointBill :=
  let w := meanW e.imp e.lenS
  if e.flags.getLsbD 0 || decide (w ≤ b.maxW) then { b with mean := w }
  else { b with mean := w, maxW := w, maxMtk := e.mtk }

/-- Energy of an MTK into the interval it belongs to: the one in progress, or the last one closed. -/
def PointBill.addInt (b : PointBill) (intStart t : Nat) (i e : Int) : PointBill :=
  if intStart ≤ t then { b with intImp := b.intImp + i, intExp := b.intExp + e }
  else match b.ring.reverse with
    | [] => { b with intImp := b.intImp + i, intExp := b.intExp + e }
    | last :: before =>
      let last' := { last with imp := last.imp + i, exp := last.exp + e }
      { b with ring := (last' :: before).reverse }.demand last'

/-- Energy of a point at an MTK: to the tariff and the record in force then, or to the unbilled registers,
and to its interval. -/
def routeMs (p t : Nat) (i e : Int) (s : State) : State :=
  let k := s.tariffAt t
  let s1 := s.updPt p fun b => b.addInt s.die.cur.intStart t i e
  match s.recAt p t with
  | none => s1.updPt p fun b => { b with unbImp := b.unbImp + i, unbExp := b.unbExp + e }
  | some r =>
    let s2 := s1.updPt p fun b => { b with imp := b.imp.upd k (· + i), exp := b.exp.upd k (· + e) }
    let s3 := s2.updRec r.serial fun r =>
      { r with tImp := r.tImp.upd k (· + i), tExp := r.tExp.upd k (· + e),
               used := if r.used.contains k then r.used else r.used ++ [k] }
    s3.updRec r.serial fun r =>
      if r.st = .closing then { r with energyCost := (s3.recCosts r).1 } else r

/-- Energy of a point by millisecond, the last ending at the present MTK; `sell` says the cycle's energy
is export. -/
def routePoint (p : Nat) (sell : Bool) (ms : List Int) (s : State) : State :=
  let t0 := s.die.legal.mtk - ms.length
  let s1 := (ms.zipIdx).foldl (fun u x =>
    if x.1 = 0 then u else if sell then routeMs p (t0 + x.2) 0 (-x.1) u else routeMs p (t0 + x.2) x.1 0 u) s
  match s1.openRec p with
  | none => s1
  | some r => purseCheck r.serial s1

/-! ### Boundaries (12 R290 to R294) -/

/-- Counting the time basis of a record up to an MTK in a tariff. -/
def Rec.time (tariff now : Nat) (r : Rec) : Rec :=
  match r.since with
  | none => r
  | some m => { r with tMs := r.tMs.upd tariff (· + (now - m)), since := some now,
                       used := if r.used.contains tariff then r.used else r.used ++ [tariff] }

/-- The end of the demand interval that holds an LT, for a length in minutes. -/
def intervalEnd (lt len : Nat) : Nat := (lt / (len * 60000) + 1) * (len * 60000)

/-- The interval length in force once LT has gone from `a` to `b`: a new one from the next full UTC hour on (R290). -/
def State.lenAt (s : State) (a b : Nat) : Nat :=
  if a / 3600000 < b / 3600000 then s.snum 0x5480 1 else s.die.cur.intLen

/-- The interval in progress closes at the present MTK, with more flags, and the next begins (R290, R293). -/
def closeInterval (extra next : BitVec 16) (s : State) : State :=
  let now := s.die.legal.mtk
  let fl := s.die.cur.intFlags ||| extra
  let len := (now - s.die.cur.intStart) / 1000
  let pts := (List.range 64).foldl (fun (b : Bank PointBill) p =>
    b.upd p fun q =>
      let e : IntEntry := ⟨now, q.intImp, q.intExp, len, fl, s.die.cur.tariff⟩
      let ring := q.ring ++ [e]
      { q with ring := if 96 < ring.length then ring.drop 1 else ring, intImp := 0, intExp := 0 }.demand e)
    s.die.cur.pts
  let newLen := if s.die.legal.lt % 3600000 = 0 then s.snum 0x5480 1 else s.die.cur.intLen
  { s with
    die.cur.pts := pts, die.cur.intStart := now, die.cur.intLen := newLen, die.cur.intFlags := next,
    die.cur.intEnd := intervalEnd s.die.legal.lt newLen }

/-- The tariff in force becomes the one the calendar gives: a boundary of every open record (R289, R291). -/
def switchTariff (s : State) : State :=
  let now := s.die.legal.mtk
  let old := s.die.cur.tariff
  let t := calTariff s.die.legal.active s.die.legal.lt s.die.legal.offset
  if t = old then s
  else
    let s1 := s.mapRecs fun r => if r.st = .open then r.time old now else r
    { s1 with die.cur.tariff := t,
              die.cur.cuts := ((now, t) :: (if s.die.cur.cuts.isEmpty then [(0, old)] else s.die.cur.cuts)).take 8 }

/-- Whether a power-fail warning is in force: a record opened in it is COINCIDENT (R294). -/
def State.warned (s : State) : Bool := s.die.pf = .warned || s.die.pf = .landed

/-- COINCIDENT of an interval entry closed in the millisecond of the warning (R294). -/
def State.coincident (s : State) : BitVec 16 := if s.warned && s.die.pfAt = s.die.legal.mtk then 4 else 0

/-- The entries closed in the present millisecond take COINCIDENT (R294). -/
def PointBill.markAt (now : Nat) (b : PointBill) : PointBill :=
  { b with ring := b.ring.map fun e => if e.mtk = now then { e with flags := e.flags ||| 4 } else e }

/-- The same of every point. -/
def markIntervals (s : State) : State :=
  { s with die.cur.pts := s.die.cur.pts.updRange 64 fun _ b => b.markAt s.die.legal.mtk }

/-- The boundaries due at the present instant, in the order of R294: the interval, then the tariff. -/
def settle (s : State) : State :=
  switchTariff (if s.die.cur.intEnd ≤ s.die.legal.lt then
    closeInterval s.coincident 0 s else s)

/-! ### Closing a record (12 R298) -/

/-- An OPEN record becomes CLOSING: costs and the refund token (R292, R310). -/
def closeRec (serial reason : Nat) (f : Rec → Rec) (s : State) : State :=
  match s.bill serial with
  | none => s
  | some r =>
    if r.st ≠ .open then s
    else
      let now := s.die.legal.mtk
      let r1 := f ({ r with reason := reason, mtkClose := now, ltClose := s.die.legal.lt,
                            offset := s.die.legal.offset, calib := s.die.met.calib }.time s.die.cur.tariff now)
      let c := s.recCosts { r1 with since := none }
      let r2 := { r1 with st := .closing, since := none, energyCost := c.1, timeCost := c.2 }
      let refund := s.refundOf r2.purse.unit (s.purseLeft r2) s.die.legal.lt
      s.updRec serial fun _ => { r2 with purse.refund := refund }

/-- Every OPEN record closes. -/
def closeAll (reason : Nat) (f : Rec → Rec) (s : State) : State :=
  (s.die.cur.recs.filter (·.st = .open)).foldl (fun t r => closeRec r.serial reason f t) s

/-- How many records are OPEN. -/
def State.openCount (s : State) : Nat := (s.die.cur.recs.filter (·.st = .open)).length

/-! ### The panel that serves a point (13 R330) -/

/-- A panel serves a point (7800h + m, sub .08). -/
def State.panelServes (s : State) (m p : Nat) : Bool :=
  (BitVec.ofNat 64 (s.snum (0x7800 + m) 8)).getLsbD p

/-- A panel that is ON serves the point. -/
def State.pointShown (s : State) (p : Nat) : Bool :=
  (List.range 2).any fun m => s.panelServes m p && (s.die.panels.get m).st = .on

/-- DISPLAY for the OPEN records of points that no panel that is ON serves (R298, R330). -/
def displayCheck (s : State) : State :=
  s.mapRecs fun r => if r.st = .open && !s.pointShown r.point then r.flag fDISPLAY else r

/-! ### Commits (17 R427) -/

/-- The state as it stands is committed. -/
def commit (s : State) : State :=
  let l := { s.die.cur with mtk := s.die.legal.mtk, lt := s.die.legal.lt }
  { s with die.cur := l, die.saved := l }

/-! ### Sealed-link failure (01 R32) -/

/-- The seal procedure closes with abandon: staged values discarded, logged (R275). -/
def sealAbandon (s : State) : State :=
  match s.die.met.sealSel with
  | none => s
  | some sel =>
    logAdd 5 (toLE 18 sel.toNat ++ [2]) { s with die.met.sealSel := none, die.met.staged := [] }

/-- What the sealed die does at a link failure: open records close with reason 12 and LINK, kind 13 is
logged, an open seal procedure is abandoned (12 R298, R303, 11 R275). -/
def dieLinkFailed (cause : Nat) (s : State) : State :=
  let n := s.openCount
  sealAbandon (logAdd 13 [BitVec.ofNat 8 cause, BitVec.ofNat 8 n] (closeAll 12 (Rec.flag fLINK) (settle s)))

/-- A byte of the coefficient table (11 R260). -/
def State.coefByte (s : State) (i : Nat) : Byte := (s.die.met.coef.get (i / 8)).extractLsb' (8 * (i % 8)) 8

/-- Writing a byte of it. -/
def coefSet (b : Bank (BitVec 64)) (i : Nat) (v : Byte) : Bank (BitVec 64) :=
  b.upd (i / 8) fun w =>
    (w &&& ~~~((0xFF : BitVec 64) <<< (8 * (i % 8)))) ||| (v.setWidth 64 <<< (8 * (i % 8)))

/-- A channel is FAILED: an element that uses one has FAULT (11 R273). -/
def State.hasFault (s : State) (e : Nat) : Bool :=
  s.elemOn e && [2, 3].any fun k => (s.die.met.chan.get (s.snum (0x5000 + e) k)).check = 3

/-- An element uses a channel with MODFAIL (11 R251). -/
def State.hasModfail (s : State) (e : Nat) : Bool :=
  s.elemOn e && [2, 3].any fun k => (s.die.met.chan.get (s.snum (0x5000 + e) k)).modfail

/-- A parameter takes its new value. -/
def applyParam (w : ParamWrite) (s : State) : State :=
  if w.idx = 0x5310 then
    { s with die.met.coef := w.data.zipIdx.foldl (fun b x => coefSet b (w.off + x.2) x.1) s.die.met.coef }
  else s.setSobj w.idx w.sub w.data

/-! ### Replies (12 R283) -/

/-- What a request does while the sealed die runs; otherwise it is lost. -/
def whenDie (f : State → State) (s : State) : State := if s.die.running then f s else s

/-- The class that carries an entry (01 R33). -/
def objClass (idx : Nat) : Nat :=
  if within 0x5600 idx 0x56FF then 4 else if within 0x5500 idx 0x55FF then 5
  else if within 0x5000 idx 0x53FF then 6 else 3

/-- The reply layout of R283: OP 1 read, 2 write. -/
def objReply (tag : Word) (op : Nat) (st : Status) (idx sub off total serial : Nat) (data : List Byte)
    (s : State) : State :=
  dieReply tag (objClass idx) ([BitVec.ofNat 8 (statusCode st), BitVec.ofNat 8 op] ++ toLE 2 idx ++
    [BitVec.ofNat 8 sub, 0] ++ toLE 2 data.length ++ toLE 4 off ++ toLE 4 total ++ toLE 8 serial ++ data) s

/-- The reply to a write of a value in one part. -/
def writeReply (tag : Word) (idx sub len : Nat) (r : Status × State) : State :=
  objReply tag 2 r.1 idx sub 0 len 0 [] r.2

end Sys2Proof.Machine
end

