-- ==== Sys2Proof/Machine/Billing.lean ====
section
/-!
DEFINITION. Billing records, session notices, legal time, the calendar, tokens and the sealed die's start
(12; 17 R430, R431).
-/
set_option Elab.async false
namespace Sys2Proof.Machine

/-! ### Class 0002h (R296 to R298) -/

/-- Record state codes of R296. -/
def recCode : RecSt → Nat
  | .open => 1 | .closing => 2 | .signed => 3

/-- The reply of class 0002h. -/
def recReply (tag : Word) (st : Status) (cause : Nat) (r : Option Rec) (s : State) : State :=
  let code := match r with | some r => recCode r.st | none => 0
  let serial := match r with | some r => r.serial | none => 0
  let flags := match r with | some r => r.flags.toNat | none => 0
  dieReply tag 2 ([BitVec.ofNat 8 (statusCode st), BitVec.ofNat 8 code, BitVec.ofNat 8 cause, 0] ++
    toLE 8 serial ++ toLE 4 flags) s

/-- The causes of R297 that hold for a point, in order. -/
def State.refusals (s : State) (p : Nat) : List Nat :=
  let es := s.meterElems p
  [(1, es.isEmpty), (2, (s.openRec p).isSome), (3, es.any s.hasFault),
   (4, es.any s.quiesced), (5, s.die.met.refFail), (6, !s.pointShown p), (7, s.die.legal.active.isEmpty),
   (8, decide (4096 ≤ s.die.cur.recs.length)), (9, s.logLow)].filterMap fun x => if x.2 then some x.1 else none

/-- The status of a cause (R297). -/
def causeStatus (k : Nat) : Status := if k = 1 then .absent else if 8 ≤ k then .limit else .state

/-- Pending credit whose hold time has not passed moves into the purse (R309). -/
def State.pendingPurse (s : State) (p : Nat) : Option Purse :=
  match (s.die.cur.pts.get p).pending with
  | some (u, a, n, t) =>
    if s.die.legal.mtk ≤ t + 1000 * s.snum 0x5800 6 then some { unit := u, credited := a, tokens := n } else none
  | none => none

/-- A point's energy register, mWh × 2^32: the sum over its elements (11 R263); 0 import, 1 export. -/
def State.pointReg (s : State) (p i : Nat) : Int :=
  ((s.meterElems p).map fun e => (s.die.cur.reg.get (6 * e + i) : Int)).sum

/-- The record of an open that passes (R297, R300). -/
def State.newRec (s : State) (p handle method : Nat) (ident : List Byte) : Rec :=
  let c := s.die.legal.active
  let t := s.die.cur.tariff
  let g := s.snum (0x5400 + p) 0x30
  let b := s.die.cur.pts.get p
  let fl : BitVec 32 := pack [(b2n s.warned, fCOINC), (b2n (s.die.legal.ltStat.getLsbD 0), fUNSYNC)]
  { serial := s.die.legal.lastSerial + 1, point := p, handle := handle, method := method, ident := ident,
    mtkOpen := s.die.legal.mtk, ltOpen := s.die.legal.lt, group := g, currency := calNum c 12 2,
    calId := calNum c 4 4, calVer := calNum c 8 4, feeTariff := t, fee := calPrice c t g 3,
    impOpen := s.pointReg p 0, expOpen := s.pointReg p 1, tImp0 := b.imp, tExp0 := b.exp,
    since := if calNum c 14 1 = 0 then some s.die.legal.mtk else none, flags := fl,
    purse := (s.pendingPurse p).getD {} }

/-- An open (R297): status, cause and the record. With the last serial assigned it is refused with LIMIT (17 R423);
the manual gives no cause for that. -/
def recOpen (p handle method : Nat) (ident : List Byte) (s : State) : Status × Nat × Option Rec × State :=
  match (s.refusals p).head? with
  | some k => (causeStatus k, k, none, s)
  | none =>
    if 2 ^ 64 - 1 ≤ s.die.legal.lastSerial then (.limit, (s.freeBits 8).toNat, none, s.used) else
    let r := s.newRec p handle method ident
    let s1 := { s with die.cur.recs := s.die.cur.recs ++ [r], die.legal.lastSerial := r.serial }
    (.ok, 0, some r, s1.updPt p fun b =>
      { b with opened := b.opened + 1, pending := if (s.pendingPurse p).isSome then none else b.pending })

/-- RECORD_OPEN (R297): what falls due at the same millisecond comes first (R294). -/
def execRecordOpen (tag : Word) (p : Fin 64) (handle : Word) (method : BitVec 8) (ident : List Byte) (s : State) :
    Res :=
  .next (whenDie (fun s =>
    let r := recOpen p handle.toNat method.toNat ident (settle s)
    recReply tag r.1 r.2.1 r.2.2.1 r.2.2.2) s)

/-- The record that a close or query names (R298): none if the serial is not the point's or the handle does
not match. -/
def State.named (s : State) (p handle serial : Nat) : Option Rec :=
  (s.bill serial).filter fun r => r.point = p && r.handle = handle

/-- A close (R298). -/
def recClose (p handle serial reason : Nat) (s : State) : Status × Option Rec × State :=
  match s.named p handle serial with
  | none => (.stale, none, s)
  | some _ =>
    let s1 := closeRec serial reason id s
    (.ok, s1.bill serial, s1)

/-- RECORD_CLOSE (R298). -/
def execRecordClose (tag : Word) (p : Fin 64) (handle : Word) (serial : BitVec 64) (reason : BitVec 8) (s : State) :
    Res :=
  .next (whenDie (fun s =>
    let r := recClose p handle.toNat serial.toNat reason.toNat (settle s)
    recReply tag r.1 0 r.2.1 r.2.2) s)

/-- A query (R296): serial 0 asks for the point's OPEN record. -/
def State.recQuery (s : State) (p handle serial : Nat) : Status × Option Rec :=
  if serial = 0 then
    match s.openRec p with
    | none => (.ok, none)
    | some r => if r.handle = handle then (.ok, some r) else (.stale, none)
  else match s.named p handle serial with
    | some r => (.ok, some r)
    | none => (.stale, none)

/-- RECORD_QUERY (R296). -/
def execRecordQuery (tag : Word) (p : Fin 64) (handle : Word) (serial : BitVec 64) (s : State) : Res :=
  .next (whenDie (fun s =>
    let r := s.recQuery p handle.toNat serial.toNat
    recReply tag r.1 0 r.2 s) s)

/-! ### Signed records (R300) -/

/-- A breakdown entry. -/
def breakdown (t secs : Nat) (imp exp : Int) : List Byte :=
  [BitVec.ofNat 8 t, 0, 0, 0] ++ toLE 4 secs ++ toLE 8 (ofInt 64 imp) ++ toLE 8 (ofInt 64 exp)

/-- The 8 breakdown entries: a ninth tariff is merged into entry 7, whose index reads FFh. -/
def Rec.breakdowns (r : Rec) : List Byte :=
  let one := fun t => breakdown t (r.secIn 0 0 t) (r.impIn t) (r.expIn t)
  if r.used.length ≤ 8 then (r.used.map one).flatten ++ List.replicate (24 * (8 - r.used.length)) 0
  else
    let rest := r.used.drop 7
    ((r.used.take 7).map one).flatten ++
      breakdown 0xFF ((rest.map (r.secIn 0 0)).sum) ((rest.map r.impIn).sum) ((rest.map r.expIn).sum)

/-- Bytes 0 to 479 of a record. -/
def State.recBody (s : State) (r : Rec) : List Byte :=
  let pad := fun (n : Nat) (l : List Byte) => l.take n ++ List.replicate (n - l.length) 0
  let refund := match r.purse.refund with | some x => x | none => (0, List.replicate 20 0)
  toLE 4 0x5242584B ++ [1, BitVec.ofNat 8 r.point] ++ toLE 2 576 ++ toLE 8 r.serial ++
  toLE 4 s.die.legal.devSerial.toNat ++ toLE 4 r.handle ++ toLE 8 r.mtkOpen ++ toLE 8 r.mtkClose ++
  toLE 8 r.ltOpen ++ toLE 8 r.ltClose ++ toLE 2 (ofInt 16 r.offset) ++
  [BitVec.ofNat 8 r.method, BitVec.ofNat 8 r.ident.length] ++ pad 40 r.ident ++
  [BitVec.ofNat 8 r.reason, BitVec.ofNat 8 r.group] ++ toLE 2 r.currency ++ toLE 4 r.calId ++ toLE 4 r.calVer ++
  toLE 8 (ofInt 64 (wholeMwh r.impOpen)) ++ toLE 8 (ofInt 64 (wholeMwh r.impOpen + r.imp)) ++
  toLE 8 (ofInt 64 (wholeMwh r.expOpen)) ++ toLE 8 (ofInt 64 (wholeMwh r.expOpen + r.exp)) ++
  toLE 8 (ofInt 64 r.imp) ++ toLE 8 (ofInt 64 r.exp) ++
  toLE 4 (if r.flags.getLsbD fRESIDUE then ofInt 32 r.residue else 0) ++ toLE 4 r.flags.toNat ++ r.breakdowns ++
  toLE 8 (ofInt 64 r.energyCost) ++ toLE 8 (ofInt 64 r.timeCost) ++ toLE 8 (ofInt 64 r.fee) ++
  toLE 8 (ofInt 64 (r.energyCost + r.timeCost + r.fee)) ++ toLE 4 r.purse.credited ++ toLE 4 refund.1 ++
  pad 20 refund.2 ++ toLE 2 r.confirms ++ [0, 0] ++ digestBytes r.digest ++ toLE 4 r.calib ++ [0, 0, 0, 0]

/-- The signature completes (R298): the record is stored and OP 4 of class 0002h is sent. -/
def recSigned (serial : Nat) (s : State) : State :=
  match s.bill serial with
  | none => s
  | some r =>
    if r.st ≠ .closing then s
    else
      let body := s.recBody r
      let bytes := body ++ signature s.die.legal.recordKey (Config.sha384 body)
      dieSend 2 ([4, BitVec.ofNat 8 r.point] ++ toLE 4 r.handle ++ [0, 0] ++ toLE 8 serial ++ List.replicate 42 0)
        (s.updRec serial fun r => { r with st := .signed, bytes := bytes })

/-- RECORD_SIGNED (R298). -/
def execRecordSigned (serial : BitVec 64) (s : State) : Res := .next (whenDie (recSigned serial.toNat) s)

/-- Collection up to a serial is acknowledged (R302). -/
def recCollect (serial : Nat) (s : State) : Status × State :=
  let n := max s.die.legal.collected serial
  (.ok, { s with die.legal.collected := n,
                 die.cur.recs := s.die.cur.recs.filter fun r => !(r.st = .signed && decide (r.serial ≤ n)) })

/-- The check on a writer of a sealed entry (01 R35, 12 R312). -/
def State.mayWrite (s : State) (role : Role) (mask : Nat) : Bool := s.dieRole role && granted mask role

/-- RECORD_COLLECTION_ACK (R302). -/
def execRecordCollectionAck (rq : Rq) (serial : BitVec 64) (s : State) : Res :=
  .next (whenDie (fun s => writeReply rq.tag 0x5480 4 8
    (if s.mayWrite rq.role rO then recCollect serial.toNat s else (.denied, s))) s)

/-! ### Session notices (R299) -/

/-- The status byte that answers a notice. -/
def noticeReply (tag : Word) (st : Status) (s : State) : State := dieReply tag 9 [BitVec.ofNat 8 (statusCode st)] s

/-- A notice about a record: STALE unless it is OPEN or CLOSING. -/
def notice (tag : Word) (serial : Nat) (f : Rec → State → State) (s : State) : State :=
  match (s.bill serial).filter fun r => r.st ≠ .signed with
  | none => noticeReply tag .stale s
  | some r => noticeReply tag .ok (f r s)

/-- SESSION_NOTICE_PLUG: kind 1 serves the display. -/
def execSessionNoticePlug (tag : Word) (p : Fin 64) (_handle : Word) (s : State) : Res :=
  .next (whenDie (fun s => noticeReply tag .ok { s with die.noticed := s.die.noticed.set p 1 }) s)

/-- SESSION_NOTICE_AUTHORISE: kind 2 serves the display. -/
def execSessionNoticeAuthorise (tag : Word) (p : Fin 64) (_handle : Word) (serial : BitVec 64) (s : State) : Res :=
  .next (whenDie (notice tag serial.toNat fun _ s => { s with die.noticed := s.die.noticed.set p 2 }) s)

/-- The calendar's time basis is 1. -/
def State.basis1 (s : State) : Bool := calNum s.die.legal.active 14 1 = 1

/-- SESSION_NOTICE_ENERGY_FLOW: the time basis 1 starts. -/
def execSessionNoticeEnergyFlow (tag : Word) (_p : Fin 64) (_handle : Word) (serial : BitVec 64) (s : State) : Res :=
  .next (whenDie (notice tag serial.toNat fun r s =>
    if s.basis1 && r.st = .open && r.since.isNone then
      s.updRec r.serial fun r => { r with since := some s.die.legal.mtk }
    else s) s)

/-- SESSION_NOTICE_STOP: the time basis 1 ends. -/
def execSessionNoticeStop (tag : Word) (_p : Fin 64) (_handle : Word) (serial : BitVec 64) (_reason : BitVec 8)
    (s : State) : Res :=
  .next (whenDie (notice tag serial.toNat fun r s =>
    if s.basis1 then
      s.updRec r.serial fun r => { r.time s.die.cur.tariff s.die.legal.mtk with since := none }
    else s) s)

/-- SESSION_NOTICE_METERING_CONFIRMATION: the count, and the SHA-384 of bytes 16 to 18 + length. -/
def execSessionNoticeMeteringConfirmation (tag : Word) (_p : Fin 64) (_handle : Word) (serial : BitVec 64)
    (reading : BitVec 16) (sig : List Byte) (s : State) : Res :=
  .next (whenDie (notice tag serial.toNat fun r s =>
    s.updRec r.serial fun r =>
      { r with confirms := stick 65535 r.confirms 1,
               digest := Config.sha384 (toLE 2 reading.toNat ++ [BitVec.ofNat 8 sig.length] ++ sig) }) s)

/-! ### Signed readings (R301) and purses (R311) -/

/-- A new reading of an OPEN record. -/
def State.newReading (s : State) (r : Rec) : List Byte :=
  let body := toLE 4 0x5253584B ++ [1, BitVec.ofNat 8 r.point] ++ toLE 2 (wrap16From1 r.reading) ++ toLE 8 r.serial ++
    toLE 8 s.die.legal.mtk ++ toLE 8 s.die.legal.lt ++ toLE 8 (ofInt 64 r.imp) ++ toLE 8 (ofInt 64 r.exp)
  body ++ signature s.die.legal.recordKey (Config.sha384 body)

/-- A read of (q + 6).01: firmware takes a new reading, another role gets the last one. -/
def takeReading (role : Role) (serial : Nat) (s : State) : Status × List Byte × State :=
  match s.bill serial with
  | none => (.stale, [], s)
  | some r =>
    if !(s.dieRole role && (role = .firmware || granted rCOV role)) then (.denied, [], s)
    else if role = .firmware && r.st = .open then
      let b := s.newReading r
      (.ok, b, s.updRec serial fun r => { r with reading := wrap16From1 r.reading, lastReading := b })
    else (.ok, r.lastReading, s)

/-- SIGNED_READING (R301). -/
def execSignedReading (rq : Rq) (slot : Fin 256) (serial : BitVec 64) (s : State) : Res :=
  .next (whenDie (fun s =>
    let r := takeReading rq.role serial.toNat s
    objReply rq.tag 1 r.1 (0x4006 + 8 * slot) 1 0 r.2.1.length serial.toNat r.2.1 r.2.2) s)

/-- PURSE_QUERY (R311): status, unit, credited, remaining and the refund token. -/
def execPurseQuery (rq : Rq) (p : Fin 64) (serial : BitVec 64) (s : State) : Res :=
  .next (whenDie (fun s =>
    let role := rq.role
    let ok := s.dieRole role && (role = .firmware || role = .customer || role = .operator)
    let r := if ok then (s.bill serial.toNat).filter (·.point = p.val) else none
    let st : Status := if !ok then .denied else if r.isNone then .stale else .ok
    let body := match r with
      | none => List.replicate 29 0
      | some r => [BitVec.ofNat 8 r.purse.unit] ++ toLE 4 r.purse.credited ++ toLE 4 (s.purseLeft r) ++
          (match r.purse.refund with | some x => x.2 | none => List.replicate 20 0)
    dieReply rq.tag 7 ([BitVec.ofNat 8 (roleCode role), 1, BitVec.ofNat 8 (statusCode st)] ++ body) s) s)

/-! ### Legal time (R284 to R286, R293) -/

/-- The magnitudes of the Operator's steps within the last 24 h of MTK (R285). -/
def State.stepSum (s : State) : Nat :=
  ((s.die.legal.steps.filter fun x => decide (s.die.legal.mtk < x.1 + 86400000)).map (·.2)).sum

/-- The passive calendar becomes active (R287): logged; offset changes already past are not made. -/
def activate (s : State) : State :=
  let c := s.die.legal.passive
  let s1 := logAdd 4 ((c.drop 4).take 8 ++ (c.drop 28).take 4) s
  switchTariff { s1 with
    die.legal.active := c, die.legal.passive := [], die.legal.passiveSt := 0,
    die.legal.chgDone := s.die.legal.lt / 1000 }

/-- A scheduled activation whose time has come, unless the log is nearly full (R287, R304). -/
def activateDue (s : State) : State :=
  if s.die.legal.passiveSt = 2 && decide (s.die.legal.actAt * 1000 ≤ s.die.legal.lt) && !s.logLow then activate s else s

/-- A new local offset: logged, and the tariff follows (R284). -/
def newOffset (source : Nat) (minutes : Int) (s : State) : State :=
  if minutes = s.die.legal.offset then s
  else
    let s1 := logAdd 2 (toLE 2 (ofInt 16 s.die.legal.offset) ++ toLE 2 (ofInt 16 minutes) ++ [BitVec.ofNat 8 source]) s
    switchTariff { s1 with die.legal.offset := minutes }

/-- The scheduled offset change that is due: the latest past one that has not been made. -/
def State.dueChange (s : State) : Option (Nat × Int) :=
  ((calChanges s.die.legal.active).filter fun c =>
    decide (s.die.legal.chgDone < c.1) && decide (c.1 * 1000 ≤ s.die.legal.lt)).foldl
    (fun a c => match a with | some b => if b.1 ≤ c.1 then some c else a | none => some c) none

/-- Making a due offset change (R289). -/
def offsetDue (s : State) : State :=
  match s.dueChange with
  | none => s
  | some c => newOffset 0 c.2 { s with die.legal.chgDone := c.1 }

/-- What an accepted step does (R285, R293), after it has been logged. -/
def stepLt (target : Nat) (s : State) : State :=
  let s1 := closeInterval 3 1 (flagAllOpen fSTEP s)
  let s2 := { s1 with
    die.legal.lt := target, die.legal.ltStat := putBit s1.die.legal.ltStat 0 false,
    die.cur.intLen := s1.lenAt s1.die.legal.lt target,
    die.cur.intEnd := intervalEnd target (s1.lenAt s1.die.legal.lt target) }
  offsetDue (activateDue (switchTariff s2))

/-- Setting LT (R285, R286). -/
def ltSet (role : Role) (target : Nat) (s0 : State) : Status × State :=
  let s := settle s0
  let d := (target : Int) - s.die.legal.lt
  let after := s.die.legal.ltStat.getLsbD 0
  let exempt := role = .verifier || after
  if !(s.dieRole role && (role = .operator || role = .verifier)) then (.denied, s0)
  else if d = 0 then (.ok, s0)
  else if !exempt && decide (60000 < s.stepSum + d.natAbs) then (.denied, s0)
  else if s.logLow then (.limit, s0)
  else
    let s1 := logAdd 1 (toLE 8 s.die.legal.lt ++ toLE 8 target ++ [BitVec.ofNat 8 (roleCode role), BitVec.ofNat 8 (b2n after)]) s
    let s2 := if exempt then s1 else { s1 with die.legal.steps := (s1.die.legal.mtk, d.natAbs) :: s1.die.legal.steps }
    (.ok, stepLt target s2)

/-- LT_SET (R285). -/
def execLtSet (rq : Rq) (target : Nat) (s : State) : Res :=
  .next (whenDie (fun s => writeReply rq.tag 0x5500 3 8 (ltSet rq.role target s)) s)

/-- An Operator write of the offset (R284). -/
def offsetSet (role : Role) (minutes : Int) (s : State) : Status × State :=
  if !s.mayWrite role rO then (.denied, s)
  else if !(decide (-720 ≤ minutes) && decide (minutes ≤ 840) && minutes % 15 = 0) then (.range, s)
  else (.ok, newOffset 1 minutes (settle s))

/-- OFFSET_SET (R284). -/
def execOffsetSet (rq : Rq) (minutes : Int) (s : State) : Res :=
  .next (whenDie (fun s => writeReply rq.tag 0x5500 4 2 (offsetSet rq.role minutes s)) s)

/-- OFFSET_CHANGE_SCHEDULED (R289). -/
def execOffsetChangeScheduled (s : State) : Res := .next (whenDie (fun s => offsetDue (settle s)) s)

/-! ### Calendar (R287 to R291) -/

/-- The whole passive calendar has been written (R287). -/
def calendarWritten (c : List Byte) (s : State) : Status × State :=
  if calendarOk c then (.ok, { s with die.legal.passive := c, die.legal.passiveSt := 1 })
  else (.range, { s with die.legal.passiveSt := 3 })

/-- A part of a value of an entry (R283): the value once its last byte has arrived. A part that is not the
next expected restarts the staging: the first part begins it anew, any other is refused with RANGE (log 43). -/
def stagePart (idx sub off total : Nat) (data : List Byte) (s : State) : Status × Option (List Byte) × State :=
  let mine := fun g : Staging => g.idx = idx && g.sub = sub
  let had := ((s.die.staging.find? mine).map (·.data)).getD []
  let rest := s.die.staging.filter fun g => !mine g
  let put := fun l => { s with die.staging := l }
  if 216 < data.length || total < off + data.length then (.range, none, put rest)
  else if off ≠ 0 && off ≠ had.length then (.range, none, put rest)
  else
    let v := (if off = 0 then [] else had) ++ data
    if v.length = total then (.ok, some v, put rest) else (.ok, none, put (rest ++ [⟨idx, sub, v⟩]))

/-- CALENDAR_WRITE (R287). -/
def execCalendarWrite (rq : Rq) (off total : Nat) (data : List Byte) (s : State) : Res :=
  .next (whenDie (fun s =>
    let r : Status × State :=
      if !s.mayWrite rq.role rO then (.denied, s)
      else if 3712 < total then (.range, s)
      else match stagePart 0x5600 1 off total data s with
        | (.ok, some v, s1) => calendarWritten v s1
        | (st, _, s1) => (st, s1)
    objReply rq.tag 2 r.1 0x5600 1 off data.length total [] r.2) s)

/-- A write of the activation time (R287): 0, or a time already past, takes effect at once. -/
def activateSet (role : Role) (sec : Nat) (s : State) : Status × State :=
  if !s.mayWrite role rO then (.denied, s)
  else if s.die.legal.passiveSt ≠ 1 && s.die.legal.passiveSt ≠ 2 then (.state, s)
  else if s.logLow then (.limit, s)
  else if decide (sec * 1000 ≤ s.die.legal.lt) then (.ok, activate (settle s))
  else (.ok, { s with die.legal.passiveSt := 2, die.legal.actAt := sec })

/-- CALENDAR_ACTIVATE_SET (R287). -/
def execCalendarActivateSet (rq : Rq) (sec : Nat) (s : State) : Res :=
  .next (whenDie (fun s => writeReply rq.tag 0x5600 2 8 (activateSet rq.role sec s)) s)

/-- CALENDAR_ACTIVATION (R287). -/
def execCalendarActivation (s : State) : Res := .next (whenDie (fun s => activateDue (settle s)) s)

/-- TARIFF_SWITCH (R291). -/
def execTariffSwitch (s : State) : Res := .next (whenDie settle s)

/-- DEMAND_INTERVAL_END (R290): the interval is closed before a tariff switch of the same millisecond. -/
def execDemandIntervalEnd (s : State) : Res := .next (whenDie settle s)

/-! ### Legal log and tokens (R303 to R310) -/

/-- A maximum-demand reset (R304): logged. -/
def demandReset (role : Role) (p : Nat) (s : State) : Status × State :=
  if !s.mayWrite role rO then (.denied, s)
  else if s.logLow then (.limit, s)
  else
    let old := (s.die.cur.pts.get p).maxW
    (.ok, (logAdd 11 ([BitVec.ofNat 8 p] ++ toLE 4 old) s).updPt p fun b => { b with maxW := 0, maxMtk := 0 })

/-- MAX_DEMAND_RESET (R304). -/
def execMaxDemandReset (rq : Rq) (p : Fin 64) (s : State) : Res :=
  .next (whenDie (fun s => writeReply rq.tag (0x5400 + p) 0x29 1 (demandReset rq.role p s)) s)

/-- A write of the token key (R315): the ledger is kept; a key generation at its limit refuses (17 R423). -/
def tokenKey (role : Role) (key : List Byte) (s : State) : Status × State :=
  if !s.mayWrite role rO then (.denied, s)
  else if key.length ≠ 32 then (.range, s)
  else if s.logLow || decide (255 ≤ s.die.legal.tkGen) then (.limit, s)
  else
    let g := s.die.legal.tkGen + 1
    (.ok, logAdd 12 [BitVec.ofNat 8 g] { s with die.legal.tk := some key, die.legal.tkGen := g })

/-- TOKEN_KEY_CHANGE (R315). -/
def execTokenKeyChange (rq : Rq) (key : List Byte) (s : State) : Res :=
  .next (whenDie (fun s => writeReply rq.tag 0x5800 1 32 (tokenKey rq.role key s)) s)

/-- Entries archived up to an index are freed (R304). -/
def logArchive (role : Role) (idx : Nat) (s : State) : Status × State :=
  if !s.mayWrite role rV then (.denied, s)
  else (.ok, { s with die.legal.log := s.die.legal.log.filter fun e => decide (idx < e.idx) })

/-- LEGAL_LOG_ARCHIVE (R304). -/
def execLegalLogArchive (rq : Rq) (idx : Nat) (s : State) : Res :=
  .next (whenDie (fun s => writeReply rq.tag 0x5700 6 4 (logArchive rq.role idx s)) s)

/-- A change of the ledger's working state and of the commit alike: never lost (17 R431). -/
def bothLedgers (f : Ledger → Ledger) (s : State) : State := { s with die.cur := f s.die.cur, die.saved := f s.die.saved }

/-- Pending credit whose hold time has passed is refunded (R309). -/
def creditExpire (p : Nat) (s : State) : State :=
  match (s.die.cur.pts.get p).pending with
  | none => s
  | some (u, a, _, t) =>
    if s.die.legal.mtk ≤ t + 1000 * s.snum 0x5800 6 then s
    else
      let digits := match s.refundOf u a s.die.legal.lt with | some x => x.2 | none => List.replicate 20 0
      let s1 := logAdd 16 ([BitVec.ofNat 8 p] ++ digits)
        (bothLedgers (fun l => { l with pts := l.pts.upd p fun b => { b with pending := none } }) s)
      dieSend 7 ([0xFF, 5, BitVec.ofNat 8 p] ++ toLE 4 a) s1

/-- PENDING_CREDIT_EXPIRY (R309). -/
def execPendingCreditExpiry (p : Fin 64) (s : State) : Res := .next (whenDie (creditExpire p) s)

/-- TOKEN_LOCKOUT_END (R308). -/
def execTokenLockoutEnd (s : State) : Res :=
  .next (whenDie (fun s => match s.die.legal.lockEnd with
    | some t => if t ≤ s.die.legal.mtk then { s with die.legal.lockEnd := none } else s
    | none => s) s)

/-- The oldest TID that the ledger keeps (R308). -/
def State.tidFloor (s : State) : Int := ltMinutes s.die.legal.lt - 576000

/-- The minute count that a 24-bit TID stands for (17 R424): the one congruent to it modulo 2^24 in the window of
R307, or, with none there, the one nearest to the window (assumption 98). -/
def State.tidCount (s : State) (tid : Nat) : Int :=
  let lo := s.tidFloor
  let t := lo + ((tid : Int) - lo) % 16777216
  let hi := ltMinutes s.die.legal.lt + 1440
  if t ≤ hi then t else if t - hi < lo - (t - 16777216) then t else t - 16777216

/-- LEDGER_AGE_OUT (R308). -/
def execLedgerAgeOut (s : State) : Res :=
  .next (whenDie (fun s =>
    { s with die.legal.ledger := s.die.legal.ledger.filter fun t => decide (s.tidFloor ≤ t) }) s)

/-- What a token's digits say: class, SUB, TID, amount, and whether CHK is correct under the key (R305, R306). -/
structure TokenView where
  cls : Nat
  sub : Nat
  tid : Nat
  amount : Nat
  chkOk : Bool
  deriving DecidableEq, Repr

/-- Decoding 20 digits (R305, R306). -/
def tokenView (tk : Option (List Byte)) (n : Nat) : TokenView :=
  let cls := n / 2 ^ 64
  match tk with
  | none => ⟨cls, 0, 0, 0, false⟩
  | some k =>
    let b := tokDec k cls (BitVec.ofNat 64 n)
    let f := fun (lo w : Nat) => b.toNat / 2 ^ lo % 2 ^ w
    ⟨cls, f 60 4, f 36 24, f 16 18 * 10 ^ f 34 2, decide (b.extractLsb' 0 16 = tokChk b)⟩

/-- The purse unit already set for a point, and what it holds (R307). -/
def State.purseOf (s : State) (p : Nat) : Nat × Nat :=
  match s.openRec p with
  | some r => (r.purse.unit, s.purseLeft r)
  | none => match (s.die.cur.pts.get p).pending with
    | some (u, a, _, _) => (u, a)
    | none => (0, 0)

/-- The checks of R307 on a token entered for a point. -/
def State.tokenStatus (s : State) (p n : Nat) : Status :=
  let v := tokenView s.die.legal.tk n
  let now := ltMinutes s.die.legal.lt
  let pu := s.purseOf p
  if s.die.legal.lockEnd.isSome then .busy
  else if 2 ^ 66 ≤ n || v.cls = 3 then .range
  else if v.cls = 1 then .state
  else if s.die.legal.ltStat.getLsbD 0 then .state
  else if !v.chkOk then .integrity
  else if 1 < v.sub then .range
  else if v.cls = 2 then .ok
  else if pu.1 ≠ 0 && pu.1 ≠ v.sub + 1 then .state
  else if now + 1440 < s.tidCount v.tid then .range
  else if decide (s.tidCount v.tid < s.tidFloor) || s.die.legal.ledger.contains (s.tidCount v.tid) then .stale
  else if s.snum 0x5800 (3 + v.sub) < pu.2 + v.amount then .range
  else if 65536 ≤ s.die.legal.ledger.length then .limit
  else .ok

/-- An INTEGRITY refusal: from the third in succession token entry is locked, 60 s and then doubling (R308). -/
def tokenBad (s : State) : State :=
  let n := s.die.legal.badRun + 1
  let len := if n = 3 then 60 else min 3600 (2 * s.die.legal.lockLen)
  if n < 3 then { s with die.legal.badRun := n }
  else { s with die.legal.badRun := n, die.legal.lockLen := len,
                die.legal.lockEnd := some (s.die.legal.mtk + 1000 * len) }

/-- Credit to a point: its OPEN record's purse, else pending credit (R309). -/
def creditPoint (p unit amount : Nat) (s : State) : State :=
  let now := s.die.legal.mtk
  match s.openRec p with
  | some r => bothLedgers (fun l => { l with recs := l.recs.map fun x =>
      if x.serial = r.serial then
        { x with purse := { x.purse with unit := unit, credited := x.purse.credited + amount,
                                         tokens := x.purse.tokens + 1, told10 := false, told0 := false } }
      else x }) s
  | none => bothLedgers (fun l => { l with pts := l.pts.upd p fun b =>
      { b with pending := some (match (s.die.cur.pts.get p).pending with
          | some (_, a, n, _) => (unit, a + amount, n + 1, now)
          | none => (unit, amount, 1, now)) } }) s

/-- A token is entered for a point (R307, R308, R311): its result, and OP 2 of class 0007h. -/
def tokenEnter (p n : Nat) (s : State) : Status × Nat × State :=
  let v := tokenView s.die.legal.tk n
  let st := s.tokenStatus p n
  let s1 :=
    if st = .ok then
      if v.cls = 0 then
        creditPoint p (v.sub + 1) v.amount { s with
          die.legal.ledger := s.die.legal.ledger ++ [s.tidCount v.tid], die.legal.tokOk := stick 0xFFFFFFFF s.die.legal.tokOk 1,
          die.legal.badRun := 0, die.legal.lockLen := 0 }
      else s
    else
      let s2 := { s with die.legal.tokBad := stick 0xFFFFFFFF s.die.legal.tokBad 1 }
      if st = .integrity then tokenBad s2
      else if st = .busy || decide (3 ≤ s.die.legal.badRun) then s2 else { s2 with die.legal.badRun := 0 }
  (st, v.amount, dieSend 7 ([0xFF, 2, BitVec.ofNat 8 p, BitVec.ofNat 8 (statusCode st), BitVec.ofNat 8 v.cls,
    BitVec.ofNat 8 v.sub] ++ toLE 4 v.amount ++ toLE 3 v.tid) s1)

/-! ### The start of the sealed die (R295; 17 R430, R431) -/

/-- Residue of a point's elements, µWh. -/
def State.pointResidue (s : State) (p : Nat) : Int := ((s.meterElems p).map fun e => (s.die.met.elem.get e).residue).sum

/-- Records OPEN in the commit taken close at its MTK with reason 10 (R298; 17 R430). -/
def startClose (coinc : Bool) (s : State) : State :=
  let late := s.die.pfSaved
  let mark := fun r : Rec =>
    let r1 := r.flag fPOWER
    let r2 := if late then { r1.flag fRESIDUE with residue := s.pointResidue r.point } else r1.flag fUNCLEAN
    if coinc then r2.flag fCOINC else r2
  closeAll 10 mark s

/-- Totals of residue import and export over the hub, µWh (17 R430). -/
def State.residueTotals (s : State) : Int × Int :=
  (List.range 128).foldl (fun a e =>
    let r := (s.die.met.elem.get e).residue
    if 0 ≤ r then (a.1 + r, a.2) else (a.1, a.2 - r)) (0, 0)

/-- Volatile metrology starts anew: the next cycle of an element takes the band as it is then (11 R259). -/
def startElems (s : State) : State :=
  let s1 := (List.range 128).foldl (fun t e => t.updElem e fun x => { test := x.test }) s
  { s1 with die.met.chan := s1.die.met.chan.updRange 144 fun _ c => { c with low := 0, loud := false, hBand := none } }

/-- The panels at a start: those whose enable is set start (13 R319), once no power-fail warning is in force (17 R432). -/
def panelsAtStart (s : State) : Bank Panel :=
  [0, 1].foldl (fun b m => if s.snum (0x7800 + m) 1 = 1 && !s.power.pfin then b.set m { st := .starting } else b) ⟨{}, []⟩

/-- What a start leaves fresh (17 R430): the link, the displays, staged values; MTK and LT stand as given, and
the next demand interval is SHORT. -/
def startFresh (through : Bool) (mtk lt : Nat) (s : State) : State :=
  { s with
    die.legal.mtk := mtk, die.legal.lt := lt, die.legal.stopped := false,
    die.legal.ltStat := if through then s.die.legal.ltStat else putBit s.die.legal.ltStat 0 true,
    die.cur.intStart := mtk, die.cur.intLen := s.lenAt s.die.legal.lt lt,
    die.cur.intEnd := intervalEnd lt (s.lenAt s.die.legal.lt lt), die.cur.intFlags := 1,
    die.running := true, die.inReset := false, die.link := {}, die.staging := [], die.sel := ⟨0, []⟩,
    die.met.disagree := ⟨0, []⟩, die.met.pls := ⟨{}, []⟩, die.met.toApply := [],
    die.panels := panelsAtStart s, die.key := {}, die.noticed := ⟨0, []⟩ }

/-- The start (17 R430): the newest commit; MTK and LT counted through, or resumed from it; the interval in
progress closes SHORT and POWER at the outage's first MTK; what fell due meanwhile is made up. -/
def dieStart (held : Bool) (s : State) : State :=
  let through := held && !s.die.legal.stopped
  let mtk := if through then s.die.legal.mtk else s.die.saved.mtk
  let lt := if through then s.die.legal.lt else s.die.saved.lt
  let n := (s.die.saved.recs.filter (·.st = .open)).length
  let coinc := decide (s.die.saved.intEnd ≤ lt) ||
    decide (calTariff s.die.legal.active lt s.die.legal.offset ≠ s.die.saved.tariff) ||
    (s.die.legal.passiveSt = 2 && decide (s.die.legal.actAt * 1000 ≤ lt)) ||
    (calChanges s.die.legal.active).any fun c => decide (s.die.legal.chgDone < c.1) && decide (c.1 * 1000 ≤ lt)
  let res := if s.die.pfSaved then s.residueTotals else (0, 0)
  -- at the outage's first MTK
  let s1 := { s with die.cur := s.die.saved, die.legal.mtk := s.die.saved.mtk, die.legal.lt := s.die.saved.lt,
                     die.pf := .none }
  let s2 := closeInterval 9 1 (startClose coinc s1)
  -- at the start
  let s3 := startFresh through mtk lt s2
  let s4 := s.die.met.toApply.foldl (fun t w => applyParam w t) s3
  let s5 := if through then s4 else logAdd 3 (toLE 8 s.die.saved.mtk ++ toLE 8 s.die.saved.lt) s4
  let s6 := sealAbandon (offsetDue (activateDue (switchTariff s5)))
  let s7 := (List.range 64).foldl (fun t p => creditExpire p t) s6
  let s8 := logAdd 15 ([BitVec.ofNat 8 (b2n !s.die.pfSaved), BitVec.ofNat 8 n] ++ toLE 8 (ofInt 64 res.1) ++
    toLE 8 (ofInt 64 res.2)) s7
  { commit (startElems s8) with die.pfSaved := false }

/-- SEALED_DIE_START (17 R430): the start follows a reset of the die. -/
def execSealedDieStart (vbatHeld : Bool) (s : State) : Res :=
  .next (if s.die.inReset then dieStart vbatHeld s else s)

end Sys2Proof.Machine
end

