-- ==== Sys2Proof/Machine/PowerOps.lean ====
section
/-!
DEFINITION. Shared operations of the power die: output channels (14 R354), pilots (07 R160) and the safe
state (01 R25). A channel number x below 64 is coil Cx, from 64 on load L(x − 64).
-/
set_option Elab.async false
namespace Sys2Proof.Machine

/-! ### Output channels -/

/-- A channel. -/
def State.out (s : State) (x : Nat) : Output :=
  if x < 64 then s.power.coils.get x else s.power.loads.get (x - 64)

/-- Changing a channel. -/
def State.updOut (s : State) (x : Nat) (f : Output → Output) : State :=
  if x < 64 then { s with power.coils := s.power.coils.upd x f }
  else { s with power.loads := s.power.loads.upd (x - 64) f }

/-- The Buckle source of a channel (R107). -/
def outSrc (x : Nat) : Nat := if x < 64 then 184 + x else 248 + (x - 64)

/-- An event bit of a channel: a new one raises its source (R367). -/
def outEvt (x i : Nat) (s : State) : State :=
  if bit (s.out x).evt i then s
  else laneRaise (outSrc x) (s.updOut x fun o => { o with evt := setEvt o.evt i })

/-- The switch is on (R354). -/
def outIsOn (o : Output) : Bool := o.st = .pullIn || o.st = .on || o.st = .limit

/-- KIND of OUT_CFG_x (R346). -/
def outKind (o : Output) : Nat := fld o.cfg 0 2

/-- The Girth kind of a channel (R87). -/
def outGirthKind (x : Nat) : Nat := if x < 64 then 0 else 4

/-- The unit number of a channel within its Girth kind. -/
def outUnit (x : Nat) : Nat := if x < 64 then x else x - 64

/-- Switching a channel to a state without its switch on; a queued restart request is withdrawn. -/
def outTo (x : Nat) (st : OutSt) (s : State) : State :=
  withdrawRestart (outGirthKind x) (outUnit x)
    (s.updOut x fun o => { o with st := st, restartQ := false, pulling := false })

/-- A Bridle hold on a channel (R354, rows 2 and 3). -/
def outHold (x : Nat) (s : State) : State :=
  let o := s.out x
  let s1 := s.updOut x fun o => { o with bhold := true }
  if o.st = .off || o.st = .latched then s1 else outEvt x 12 (outTo x .held s1)

/-- The Bridle's release of a channel (R354, rows 4 and 5). -/
def outRelease (x : Nat) (s : State) : State :=
  s.updOut x fun o => { o with bhold := false, st := if o.st = .held then .off else o.st }

/-- Entering LATCHED with a cause (R354). -/
def outLatch (x cause : Nat) (s : State) : State :=
  outEvt x 3 (outTo x .latched (s.updOut x fun o => { o with cause := cause }))

/-- A channel waiting for a restart latches with cause 3: a reset, RUN cleared, TEST set or a refused
restart request (R354). -/
def outWaitLatch (x : Nat) (s : State) : State :=
  if (s.out x).st = .thermWait then outLatch x 3 s else s

/-- Every channel that waits for a restart latches with cause 3. -/
def outWaitLatchAll (s : State) : State := (List.range 96).foldl (fun t x => outWaitLatch x t) s

/-- A VLOAD trip on a channel (R354, R51). -/
def outVload (x : Nat) (s : State) : State :=
  let o := s.out x
  if outIsOn o || o.st = .thermWait then outEvt x 12 (outTo x .off s) else s

/-- Safe state or power-die reset on a channel (R354, row 1): off, RETRIES 0. The hold of before is no
longer known to the power die; the Bridle sends it again before it releases the safe state (R25). -/
def outSafe (o : Output) : Output :=
  { o with st := .off, retries := 0, bhold := false, restartQ := false, pulling := false, cause := 0, restartAt := [] }

/-- Channel in LATCH mode (R351). -/
def outLatchMode (s : State) (o : Output) : Bool :=
  bit o.cfg 3 || !s.power.run || s.power.test

/-- The duty of a coil channel of kind 0 that is ON, 0.01 %: min(100 %, HOLD_DUTY × 24 V / VLOAD) for VLOAD in mV (R347). -/
def coilDuty (o : Output) (vload : Nat) : Nat := min 10000 (fld o.cfg 8 8 * 2400000 / vload)

/-- The duty a channel's switch runs at, 0.01 %: fully on but for the economy of a coil of kind 0 in ON (R346, R347). -/
def outDuty (x : Nat) (o : Output) (vload : Nat) : Nat :=
  if !outIsOn o then 0 else if decide (x < 64) && outKind o = 0 && o.st = .on then coilDuty o vload else 10000

/-! ### Pilots -/

/-- A point's pilot. -/
def State.pil (s : State) (p : Nat) : PilotPt := s.power.pilots.get p

/-- A point's status registers at their reset values, as the control die shows them until they are rebuilt (R168). -/
def pilBlank : PilotPt := { modeAct := 0, modeCmd := 0, st := .off }

/-- Changing a point's pilot. -/
def State.updPil (s : State) (p : Nat) (f : PilotPt → PilotPt) : State :=
  { s with power.pilots := s.power.pilots.upd p f }

/-- An event bit of a point; any new bit raises an edge on source 48 + p, and one accepted while the control die is in
reset raises it when the registers are rebuilt (R168). -/
def pilEvt (p i : Nat) (s : State) : State :=
  laneRaise (48 + p) (s.updPil p fun q => { q with evt := setEvt q.evt i, evtLate := q.evtLate || s.inReset })

/-- What the server counts of a point (07 R169). -/
def countPt (p : Nat) (f : PtCount → PtCount) (s : State) : State :=
  { s with app.server.pt := s.app.server.pt.upd p f }

/-- STATE changes: STATE_CHG, its HT and the count (R160, R168); a change from B to C is a toggle (R186). -/
def pilGo (p : Nat) (st : PilSt) (s : State) : State :=
  let was := (s.pil p).st
  if was = st then s
  else
    let s0 := countPt p (fun c => { c with changes := stick (2 ^ 32 - 1) c.changes 1 }) s
    let s1 := pilEvt p 0 (s0.updPil p fun q =>
      { q with st := st, ts := s.ht, changes := stick 65535 q.changes 1 })
    if was = .b && st = .c then { s1 with app.plc.toggles := s1.app.plc.toggles.upd p (· + 1) } else s1

/-- A fault state (R160). -/
def pilFaulted (q : PilotPt) : Bool := q.st = .faultEf || q.st = .faultNeg

/-- A new MODE_ACT: the first period is not evaluated, and neither counts toward a run nor breaks one (R156). -/
def pilMode (m : BitVec 2) (q : PilotPt) : PilotPt :=
  if q.modeAct = m then q
  else { q with modeAct := m, skipPos := true, skipNeg := true, offWait := false }

/-- Entry into START clears the runs (R160). -/
def pilRunsCleared (q : PilotPt) : PilotPt := { q with cand := 0, candRun := 0, efRun := 0, negRun := 0 }

/-- The pilot enters START (R160). -/
def pilStart (p : Nat) (s : State) : State := pilGo p .start (s.updPil p pilRunsCleared)

/-- The pilot driven to a steady −12 V, by the Bridle (`held`) or the safe state: DRIVEN_F, except in a
fault state (R160). A waiting command and a wake sequence are lost (R164, R165). -/
def pilDriveF (held : Bool) (p : Nat) (s : State) : State :=
  let s1 := s.updPil p fun q =>
    { pilMode 3 q with modeCmd := 3, held := held, relWait := false, waking := false, pend := none, dutyAct := 0, clamped := false }
  if pilFaulted (s1.pil p) then s1 else pilGo p .drivenF s1

/-- The rail of the pilots is within range (R52). -/
def State.pilotRail (s : State) : Bool := !s.power.vpilp && !s.power.vpiln

/-- The pilot goes to X1 and START (R160, R164). -/
def pilToX1 (p : Nat) (s : State) : State :=
  pilEvt p 8 (pilStart p (s.updPil p fun q =>
    { pilMode 1 q with modeCmd := 1, dutyAct := 0, supplyDis := false, supplyFault := false, relWait := false }))

/-- The Bridle releases the pilot of a point (R160, R164); after a pilot-supply fault the rail must also be released
(R52), and a release given before that takes effect with the rail's (`pilRailBack`). -/
def pilRelease (p : Nat) (s : State) : State :=
  let s1 := s.updPil p fun q => { q with held := false, relWait := q.supplyFault }
  if (s1.pil p).supplyFault && !s1.pilotRail then s1 else pilToX1 p s1

/-- The rails of the pilots are released (R52): a driver whose hold the Bridle has released meanwhile goes to X1. One
disabled at a point whose pilot was not enabled has no hold and no pilot fault, so nothing more is to be released: it
is enabled again as it was, OFF or at −12 V (assumption 100). -/
def pilRailBack (p : Nat) (s : State) : State :=
  let q := s.pil p
  if !s.pilotRail || !q.supplyDis then s
  else if q.supplyFault then (if q.relWait then pilToX1 p s else s)
  else s.updPil p fun q => { q with supplyDis := false }

/-! ### Outputs without their rail (02 R44, R51) -/

/-- What an STO output's stages drive: nothing, high impedance, while VLOAD is outside its range, which removes torque. -/
def State.stoDriven (s : State) (n : Nat) : Option StoLatch := if s.power.vload then none else some (s.power.sto.get n)

/-- Torque is permitted at an STO output: both stages on and supplied (15 R379). -/
def State.torqueOn (s : State) (n : Nat) : Bool := (s.stoDriven n).any fun l => l.a && l.b

/-- What the sequence signals of a type-5 port drive: nothing while VLOAD is outside its range, which deasserts them. -/
def State.seqDriven (s : State) (k : Nat) : Option SeqLatch := if s.power.vload then none else some (s.power.seq.get k)

/-- What the panel-sequencing outputs drive, on VDRV. -/
def State.psqDriven (s : State) : Option (BitVec 8) := if s.power.vdrv then none else some s.power.psq

/-- What a pilot driver drives: its mode in force; high impedance under mode 0, while it is disabled, or without one of
its rails. -/
def State.pilDriven (s : State) (p : Nat) : Option (BitVec 2) :=
  let q := s.pil p
  if !s.pilotRail || q.supplyDis || q.modeAct = 0 then none else some q.modeAct

/-! ### Safe state (R25) -/

/-- The power die releases PSQm_3 of both panels at once, and PSQm_0 to PSQm_2 20 ms later (R321). -/
def psqSelfRelease (s : State) : State :=
  { s with power.psq := s.power.psq &&& 0x77,
           power.psqDue := if s.power.psqDue.isSome then s.power.psqDue else some 20 }

/-- A report of an entry into the safe state (R25): on the safety lane it reaches a Bridle in RUN, and on the
application lane it is the event of source 280 (the model's choice, assumption 101: R107 gives the sources of R50 to R52
there and none for this report). -/
def safeReport (s : State) : State :=
  laneRaise 280 { s with power.report := decide (s.bridle.st = .run), power.hbRun := 0 }

/-- The power die enters its safe state: every output at its safe default, RUN cleared (R351). -/
def safeLatches (s : State) : State :=
  let s1 := { s with
    power.safe := true, power.run := false,
    power.coils := s.power.coils.updRange 64 (fun _ => outSafe),
    power.loads := s.power.loads.updRange 32 (fun _ => outSafe),
    power.sto := ⟨{}, []⟩, power.seq := ⟨{}, []⟩ }
  (List.range 64).foldl (fun t p => pilDriveF false p t)
    (girthWithdraw (fun r => r.port = restartPort) (psqSelfRelease s1))

/-- An entry into the safe state with its report on both lanes (R25). -/
def safeEnter (s : State) : State := safeReport (safeLatches s)

/-! ### Sequence signals (10 R242) -/

/-- A sequence-signal latch (10 R242): the safe state keeps it off. -/
def seqSet (k : Nat) (d2 on : Bool) (s : State) : State :=
  let v := on && !s.power.safe
  if on && (s.obj.unfit.get 7).getLsbD k then s
  else { s with power.seq := s.power.seq.upd k fun l => if d2 then { l with d2 := v } else { l with d1 := v } }

end Sys2Proof.Machine
end

