-- ==== Sys2Proof/Machine/BridleOps.lean ====
section
/-!
DEFINITION. Shared operations of the Bridle: its configuration (15 R374), notices (R390), hold causes
(R383) and the commands they send over the safety lane (01 R26).
-/
set_option Elab.async false
namespace Sys2Proof.Machine

/-! ### The configuration in force -/

/-- A point in the configuration; before one is in force the defaults of R374 hold: coil channel p. -/
def State.ptCfg (s : State) (p : Nat) : PtCfg :=
  match s.bridle.cfg with
  | none => { coil := p }
  | some c => c.pts.get p

/-- The hold window of the configuration, in 10 ms (R75). -/
def State.holdWin (s : State) : Nat := (s.bridle.cfg.map (·.holdWin)).getD 150

/-- The points an IM channel serves (R364). -/
def State.imMask (s : State) (k : Nat) : BitVec 64 := (s.bridle.cfg.map (·.im.get k)).getD 0

/-- A safety input pair in the configuration. -/
def State.siCfg (s : State) (i : Nat) : SiCfg := (s.bridle.cfg.map (·.si.get i)).getD {}

/-- An encoder in the configuration. -/
def State.encCfg (s : State) (j : Nat) : EncCfg := (s.bridle.cfg.map (·.enc.get j)).getD {}

/-- A device in the configuration, if the configuration has one: a device is configured when its v_max
is not 0 (assumption 24). -/
def State.devCfg (s : State) (d : Nat) : DevCfg := (s.bridle.cfg.map (·.dev.get d)).getD {}

/-- A receive safe message in the configuration. -/
def State.rxCfg (s : State) (i : Nat) : RxCfg := (s.bridle.cfg.map (·.rx.get i)).getD {}

/-- A transmit safe message in the configuration. -/
def State.txCfg (s : State) (j : Nat) : TxCfg := (s.bridle.cfg.map (·.tx.get j)).getD {}

/-- The points whose coil channel is x. -/
def State.coilPoints (s : State) (x : Nat) : List Nat :=
  (List.range 64).filter fun p => (s.ptCfg p).coil = x

/-! ### Registers of the read window -/

/-- Changing a point as the Bridle sees it. -/
def State.updBp (s : State) (p : Nat) (f : BrPt → BrPt) : State :=
  { s with bridle.pts := s.bridle.pts.upd p f }

/-- A point as the Bridle sees it. -/
def State.bp (s : State) (p : Nat) : BrPt := s.bridle.pts.get p

/-- The Bridle's status changed (R107, source 498). -/
def bridleStatus (s : State) : State := raise 498 s

/-- A notice (R390, R393): numbered, in a ring of 16; an overwritten unacknowledged one sets OVERRUN;
source 497 is asserted while NEWEST differs from ACKED. -/
def note (kind unit : Nat) (data : Word) (s : State) : State :=
  let n := s.bridle.newest + 1
  let full := decide (16 ≤ (s.bridle.newest - s.bridle.acked).toNat)
  let e : Notice := ⟨n, kind, unit, data, BitVec.ofNat 32 s.bridle.time⟩
  let s1 := { s with
    bridle.newest := n, bridle.overrun := s.bridle.overrun || full,
    bridle.acked := if full then s.bridle.acked + 1 else s.bridle.acked,
    bridle.notes := s.bridle.notes.set (n.toNat % 16) e }
  setLevel 497 (s1.bridle.newest ≠ s1.bridle.acked) s1

/-! ### Holds (R383) -/

/-- Hold-cause bits of SAF_PT_p. -/
inductive HoldCause where
  | pilot | earth | group | weld | noclose | drop | restart | device
  deriving DecidableEq, Repr

/-- The bit of a hold cause. -/
def HoldCause.bit : HoldCause → Nat
  | .pilot => 0 | .earth => 1 | .group => 2 | .weld => 3 | .noclose => 4 | .drop => 5
  | .restart => 6 | .device => 7

/-- The point carries the cause. -/
def State.holds (s : State) (p : Nat) (c : HoldCause) : Bool := (s.bp p).hold.getLsbD c.bit

/-- The causes that also hold the pilot (R383). -/
def holdsPilot (h : BitVec 8) : Bool := decide (h &&& 0x4F ≠ 0)

/-- The Bridle wants channel x held off: a held point's coil, SWITCH_FAIL (R378), step 4 of the orderly
shutdown (R76), or an upstream release after WELD (R377). -/
def State.wantHeld (s : State) (x : Nat) : Bool :=
  (List.range 64).any fun p =>
    let c := s.ptCfg p
    let b := s.bp p
    (c.coil = x && (decide (b.hold ≠ 0) || b.switchFail || decide (4 ≤ b.shut))) ||
      (decide (c.upstream < 32) && c.upstream + 64 = x && b.hold.getLsbD 3)

/-- Bringing a channel's hold in line with what the Bridle wants; frames sent while the power die's
clock has failed are lost (R66). -/
def syncOut (x : Nat) (s : State) : State :=
  if !s.power.clkOk || decide (96 ≤ x) then s
  else if s.wantHeld x && !(s.out x).bhold then outHold x s
  else if !s.wantHeld x && (s.out x).bhold then outRelease x s
  else s

/-- The Bridle wants the pilot held: a cause that holds it, or one of GROUP and WELD that has ended and
whose pilot part still needs PILOT_RELEASE (R384). -/
def State.wantPilot (s : State) (p : Nat) : Bool := holdsPilot (s.bp p).hold || (s.bp p).pilKeep

/-- Bringing a pilot's hold in line with the hold causes of its point. -/
def syncPilot (p : Nat) (s : State) : State :=
  if !s.power.clkOk then s
  else if s.wantPilot p && !(s.pil p).held then pilDriveF true p s
  else if !s.wantPilot p && (s.pil p).held then pilRelease p s
  else s

/-- The commands that follow a change of a point's holds. -/
def syncPoint (p : Nat) (s : State) : State :=
  let c := s.ptCfg p
  syncPilot p (syncOut (c.upstream + 64) (syncOut c.coil s))

/-- A hold cause is set: notice kind 1 and the commands (R383, R393). -/
def setCause (p : Nat) (c : HoldCause) (s : State) : State :=
  if s.holds p c then s
  else
    let s1 := s.updBp p fun b => { b with hold := putBit b.hold c.bit true }
    syncPoint p (note 1 p ((s1.bp p).hold.setWidth 32) s1)

/-- A hold cause is released: notice kind 2 and the commands. -/
def clearCause (p : Nat) (c : HoldCause) (s : State) : State :=
  if s.holds p c then
    let s1 := s.updBp p fun b => { b with hold := putBit b.hold c.bit false }
    syncPoint p (note 2 p ((s1.bp p).hold.setWidth 32) s1)
  else s

/-- Every hold in force is sent again (R25). -/
def resendHolds (s : State) : State :=
  (List.range 64).foldl (fun t p => syncPoint p t) s

/-- The Bridle is in RUN. -/
def State.bridleRuns (s : State) : Bool := s.bridle.st = .run

/-- A point whose firmware commands the power die ignores: active, not reclaimed, while the window runs
or its shutdown is in progress (R77). -/
def State.blocked (s : State) (p : Nat) : Bool :=
  let b := s.bp p
  b.active && !b.reclaimed && (s.bridle.window || decide (b.shut ≠ 0))

/-- A channel of a blocked point: its coil or its lock (R77). -/
def State.outBlocked (s : State) (x : Nat) : Bool :=
  (List.range 64).any fun p =>
    s.blocked p && (decide ((s.ptCfg p).coil = x) || (decide ((s.ptCfg p).lock < 32) && (s.ptCfg p).lock + 64 = x))

/-- The coil latch of a point is on (SAF_PT_p.COIL). -/
def State.coilOn (s : State) (p : Nat) : Bool :=
  decide ((s.ptCfg p).coil < 64) && outIsOn (s.out (s.ptCfg p).coil)

end Sys2Proof.Machine
end

