-- ==== Sys2Proof/Machine/GirthOps.lean ====
section
/-!
DEFINITION. Girth's admission (04 R85 to R93): units that are absent or on, costs in force, the predicted
grant time, and the acceptance or refusal of a request.
-/
set_option Elab.async false
namespace Sys2Proof.Machine

/-! ### Units -/

/-- Units of a Girth kind (R87, R90). -/
def girthUnits (k : Nat) : Nat :=
  match k with
  | 0 => 64 | 1 => 64 | 2 => 2 | 4 => 32 | 5 => 16 | 6 => 2 | _ => 1

/-- A unit fused off or declared unfitted (R90, R395, R445). -/
def State.unitAbsent (s : State) (k u : Nat) : Bool :=
  match k with
  | 0 => (s.obj.unfit.get 1).getLsbD u
  | 1 => s.pointAbsent u
  | 2 => s.fuses.blkOff.getLsbD (16 + u) || (s.obj.unfit.get 8).getLsbD u
  | 4 => (s.obj.unfit.get 2).getLsbD u
  | 5 => s.fuses.blkOff.getLsbD u || (s.obj.unfit.get 3).getLsbD u
  | _ => false

/-! ### Costs (R86, R87, R446) -/

/-- Sum of two costs. -/
def Cost.add (a b : Cost) : Cost := ⟨a.vcore + b.vcore, a.vdrv + b.vdrv, a.diss + b.diss⟩

/-- The grants in force and the queued requests of a class. -/
def State.girthKind (s : State) (k : Nat) : GirthKind := s.cold.kinds.get k

/-- A kind whose operations keep a standing cost until the unit is off (R87). -/
def hasStanding (k : Nat) : Bool := k ≤ 2 || k = 4 || k = 5

/-- The cost a grant has in force. -/
def State.grantCost (s : State) (g : GirthReq) : Cost :=
  let k := s.girthKind g.kind
  (if g.tIn then k.t else {}).add (if g.sIn then k.s else {})

/-- The costs in force of a class (GRT_USE_c). -/
def State.classUse (s : State) (c : Nat) : Cost :=
  (s.app.girth.grants.filter fun g => (s.girthKind g.kind).cls = c).foldl
    (fun a g => a.add (s.grantCost g)) {}

/-- A cost fits the share of a class; the dissipation share is scaled by the derated total (R93). -/
def State.fitsShare (s : State) (c : Nat) (dissEff : Nat) (x : Cost) : Bool :=
  let w := s.cold.share.get c
  decide (x.vcore ≤ 10 * fld w 0 10) && decide (x.vdrv ≤ 10 * fld w 10 10) &&
    decide (x.diss * 270 ≤ 10 * fld w 20 10 * dissEff)

/-- What a grant of a kind costs from its start on: the transient part where the kind has one, and the standing part
where it has one (R87). -/
def State.reqCost (s : State) (kind : Nat) : Cost :=
  let k := s.girthKind kind
  (if k.maxHold = 0 then {} else k.t).add (if hasStanding kind then k.s else {})

/-- At most 8 coils pull in and at most 4 reader fields are on at once, whatever the configuration (R88). -/
def State.hardCap (s : State) (kind : Nat) : Bool :=
  match kind with
  | 0 => decide (((List.range 64).filter fun x => (s.out x).pulling).length < 8)
  | 5 => decide ((s.app.girth.grants.filter fun g => g.kind = 5 && g.sIn).length < 4)
  | _ => true

/-- The grants of a kind that count against its cap (R87). -/
def State.capUsed (s : State) (k : Nat) : Nat :=
  (s.app.girth.grants.filter fun g =>
    decide (g.kind = k) && (if (s.girthKind k).maxHold = 0 then g.sIn else g.tIn)).length

/-- A request fits its class share and cap now (R91). -/
def State.fitsNow (s : State) (dissEff : Nat) (r : GirthReq) : Bool :=
  let k := s.girthKind r.kind
  s.fitsShare k.cls dissEff ((s.classUse k.cls).add (s.reqCost r.kind)) &&
    decide (s.capUsed r.kind < k.cap) && s.hardCap r.kind

/-! ### The predicted grant time (R92) -/

/-- A step of the prediction: transient parts in force with their ends, standing costs, standing counts. -/
structure GirthSim where
  now : Nat
  trans : List (Nat × Nat × Cost)
  stand : Cost
  kinds : List Nat

/-- The moment the request fits, given the parts in force at each of the times at which one ends. -/
def GirthSim.fitsAt (s : State) (m : GirthSim) (r : GirthReq) (t : Nat) : Bool :=
  let k := s.girthKind r.kind
  let alive := m.trans.filter fun e => decide (t < e.1)
  let use := alive.foldl (fun a e => a.add e.2.2) m.stand
  let cnt := if k.maxHold = 0 then (m.kinds.filter (· = r.kind)).length
    else (alive.filter fun e => e.2.1 = r.kind).length
  s.fitsShare k.cls s.app.girth.dissEff (use.add (s.reqCost r.kind)) && decide (cnt < k.cap) &&
    (r.kind ≠ 5 || decide ((m.kinds.filter (· = 5)).length < 4))

/-- The earliest fitting time not before the request ahead, if any. -/
def GirthSim.earliest (s : State) (m : GirthSim) (r : GirthReq) : Option Nat :=
  ((m.now :: (m.trans.map (·.1)).filter fun e => decide (m.now < e)).filter (m.fitsAt s r)).min?

/-- The simulation after a request has been granted at `t`. -/
def GirthSim.grant (s : State) (m : GirthSim) (r : GirthReq) (t : Nat) : GirthSim :=
  let k := s.girthKind r.kind
  { now := t,
    trans := if k.maxHold = 0 then m.trans else (t + r.hold * 1000000, r.kind, k.t) :: m.trans,
    stand := if hasStanding r.kind then m.stand.add k.s else m.stand,
    kinds := if hasStanding r.kind then r.kind :: m.kinds else m.kinds }

/-- The predicted grant time of the last of a list of requests. -/
def girthPredict (s : State) : GirthSim → List GirthReq → Option Nat
  | m, [] => some m.now
  | m, r :: rs => (m.earliest s r).bind fun t => girthPredict s (m.grant s r t) rs

/-- The simulation's start for a class: what is in force now. -/
def State.girthSim (s : State) (c : Nat) : GirthSim :=
  let gs := s.app.girth.grants.filter fun g => (s.girthKind g.kind).cls = c
  { now := s.ht,
    trans := (gs.filter (·.tIn)).map fun g => (g.holdEnd, g.kind, (s.girthKind g.kind).t),
    stand := (gs.filter (·.sIn)).foldl (fun a g => a.add (s.girthKind g.kind).s) {},
    kinds := (gs.filter (·.sIn)).map (·.kind) }

/-- Queue depth of a class (R92). -/
def girthDepth (c : Nat) : Nat := if c = 0 then 64 else if c = 1 then 32 else 16

/-- Maximum deferral of a class, ns (R92). -/
def girthDefer (c : Nat) : Nat := (if c = 0 then 1000 else if c = 1 then 200 else 10000) * 1000000

/-! ### Acceptance (R90) -/

/-- A unit of kind 0, 1, 2, 4 or 5 is on. -/
def State.unitOn (s : State) (k u : Nat) : Bool :=
  match k with
  | 0 => outIsOn (s.out u)
  | 4 => outIsOn (s.out (64 + u))
  | 1 => (s.app.plc.ch.get u).st ≠ .off
  | 2 => s.power.lines.getLsbD u
  | 5 => s.power.fields.getLsbD u
  | _ => false

/-- The unit already is on or already has a grant in force or queued (R90). -/
def State.unitTaken (s : State) (k u : Nat) : Bool :=
  let mine := fun g : GirthReq => decide (g.kind = k) && decide (g.unit = u)
  (k ≤ 2 || k = 4 || k = 5 || k = 6) &&
    (s.unitOn k u || s.app.girth.grants.any mine || (s.app.girth.queue.get (s.girthKind k).cls).any mine)

/-- Ticket `t` is in use. -/
def State.ticketUsed (s : State) (t : Nat) : Bool :=
  s.app.girth.grants.any (·.ticket = t) || (List.range 3).any fun c =>
    (s.app.girth.queue.get c).any (·.ticket = t)

/-- The next ticket not in use, of all there are (R90, R423). -/
def freeTicket (s : State) : Nat → Nat → Nat
  | 0, t => t
  | n + 1, t => if s.ticketUsed t then freeTicket s n (wrap16From1 t) else t

/-- A request is checked in the order of R90: the status, and on OK the state with it queued and the
queued request. -/
def girthAccept (port : Nat) (ctx : Option Nat) (kind unit hold : Nat) (s : State) :
    Status × State × Option GirthReq :=
  let k := s.girthKind kind
  if s.app.girth.rebuilding then (.busy, s, none)
  else if 10 < kind || girthUnits kind ≤ unit || k.maxHold < hold then (.range, s, none)
  else if s.unitAbsent kind unit then (.absent, s, none)
  else if s.unitTaken kind unit then (.state, s, none)
  else
    let q := s.app.girth.queue.get k.cls
    let t := freeTicket s 65535 s.app.girth.next
    let r : GirthReq :=
      { ticket := t, port := port, ctx := ctx, kind := kind, unit := unit,
        hold := if hold = 0 then k.maxHold else hold }
    if girthDepth k.cls ≤ q.length then (.busy, s, none)
    else
      match girthPredict s (s.girthSim k.cls) (q ++ [r]) with
      | none => (.busy, s, none)
      | some at' =>
        if s.ht + girthDefer k.cls < at' then (.busy, s, none)
        else
          let r := { r with pred := at' }
          (.ok, { s with app.girth.queue := s.app.girth.queue.set k.cls (q ++ [r]),
                         app.girth.next := wrap16From1 t }, some r)

/-- A write of GRT_REQ_p (R90, R91): the port's response registers take the outcome. -/
def girthSubmit (port : Nat) (ctx : Option Nat) (kind unit hold : Nat) (s : State) : Status × State :=
  let r := girthAccept port ctx kind unit hold s
  let s1 := if r.1 = .busy then countEvents 3 (3 + (s.girthKind kind).cls) 1 r.2.1 else r.2.1
  let resp : GirthPort :=
    match r.2.2 with
    | some q => { ticket := q.ticket, ctx := (ctx.getD 0) % 32, state := 1, status := statusCode r.1,
                  pred := (q.pred - s.ht + 999) / 1000 }
    | none => { ctx := (ctx.getD 0) % 32, status := statusCode r.1 }
  (r.1, { s1 with app.girth.ports := s1.app.girth.ports.set port resp })

/-! ### Operations of the kinds without a unit (R87, R89) -/

/-- The wrapped operation is admitted: its request would be accepted (R90). -/
def State.admits (s : State) (port kind : Nat) : Bool := (girthAccept port none kind 0 0 s).1 = .ok

/-- An operation of kind 3 or 7 to 10 with its request placed, granted when it fits, and released at the operation's end:
all of it within one command (assumption 51). The ticket is used up, the grant is counted and the port's registers show
it ended. -/
def girthUsed (port : Nat) (ctx : Option Nat) (kind : Nat) (s : State) : State :=
  let r := girthAccept port ctx kind 0 0 s
  match r.2.2 with
  | some q =>
    countEvents 3 (s.girthKind kind).cls 1 { s with
      app.girth.next := wrap16From1 q.ticket,
      app.girth.ports := s.app.girth.ports.set port
        { ticket := q.ticket, ctx := (ctx.getD 0) % 32, state := 3, status := 0, pred := (q.pred - s.ht + 999) / 1000 } }
  | none => s

/-- The operations of several kinds that a command needs, one after the other; none where one is not admitted. -/
def girthRun (port : Nat) : List Nat → State → Option State
  | [], s => some s
  | k :: r, s => if s.admits port k then girthRun port r (girthUsed port none k s) else none

/-- A command whose work needs grants: what is refused for another reason needs none; with a grant refused it is BUSY and
has no effect (R89, 06 R126). -/
def underGrants (port : Nat) (kinds : List Nat) (f : State → Status × State) (s : State) : Status × State :=
  let r := f s
  if r.1 ≠ .ok || kinds.isEmpty then r
  else match girthRun port kinds s with
    | none => (.busy, s)
    | some s1 => f s1

/-- A freed context's queued requests will end at their grant (R91). -/
def girthOrphan (slot : Nat) (s : State) : State :=
  let mark := fun r : GirthReq => if r.ctx = some slot then { r with gone := true } else r
  (List.range 3).foldl (fun t c =>
    { t with app.girth.queue := t.app.girth.queue.upd c (·.map mark) }) s

end Sys2Proof.Machine
end

