-- ==== Sys2Proof/Machine/Outputs.lean ====
section
/-!
DEFINITION. Protected outputs (14 R343 to R357): the on-command of a grant, switching off, thermal
protection, restarts, warning bands and test pulses.
-/
set_option Elab.async false
namespace Sys2Proof.Machine

/-- A write to the power-die output window (R68, R444): a bus error while the lane's fault flag is set;
a frame sent while the power die's clock has failed is lost (R66). -/
def powerWrite (f : State → State) (s : State) : State :=
  if s.app.lane.fault then busFail s
  else if s.power.clkOk then busOk 0 (f s) else busOk 0 s

/-! ### The on-command (R345, R354) -/

/-- An on-command is ignored: IGNORED and its count (R345). -/
def outIgnore (x : Nat) (s : State) : State :=
  outEvt x 9 (s.updOut x fun o => { o with ignored := stick 65535 o.ignored 1 })

/-- The points of a coil whose supervised mirror shows main closed (R377, last row). -/
def State.weldedPoints (s : State) (x : Nat) : List Nat :=
  if decide (x < 64) && s.bridleRuns then
    (s.coilPoints x).filter fun p => (s.ptCfg p).supervised && !(s.bp p).mirror
  else []

/-- The switch turns on: a coil of kind 0 with its pull-in (R347, R354). -/
def outStart (x : Nat) (s : State) : State :=
  let s1 := s.updOut x fun o =>
    if decide (x < 64) && outKind o = 0 then { o with st := .pullIn, pulling := true, restartQ := false }
    else { o with st := .on, pulling := false, restartQ := false }
  (s.coilPoints x).foldl (fun t p => t.updBp p fun b => { b with seenClosed := false }) s1

/-- An ignored on-command of a grant: the unit is reported off, so that the grant's standing cost ends
(R345, R351). -/
def outIgnoreOff (x : Nat) (s : State) : State :=
  girthUnitOff (outGirthKind x) (outUnit x) (outIgnore x s)

/-- The on-command that Girth sends at a grant meets the channel (R354, R26, R51, R77, R377). -/
def outOn (x : Nat) (s : State) : State :=
  let o := s.out x
  if outIsOn o then outIgnore x s
  else if o.st = .latched || o.st = .held then outIgnoreOff x s
  else if o.bhold || s.power.safe || s.power.vload || s.outBlocked x then outIgnoreOff x s
  else if s.weldedPoints x ≠ [] then
    outIgnoreOff x ((s.weldedPoints x).foldl (fun t p => setCause p .weld t) s)
  else if o.st = .thermWait then
    outEvt x 2 ((outStart x s).updOut x fun o =>
      { o with retries := o.retries + 1, restartAt := o.restartAt ++ [s.power.ms], restarts := stick 65535 o.restarts 1 })
  else outStart x s

/-! ### Restarts (R351, R352) -/

/-- Girth places a restart request on a channel's behalf (R351). -/
def outRestart (x : Nat) (s : State) : State :=
  match girthAccept restartPort none (outGirthKind x) (outUnit x) 0 s with
  | (.ok, s1, _) => s1.updOut x fun o => { o with restartQ := true }
  | (.busy, _, _) => s
  | _ => outLatch x 3 s

/-- A restart falls due (R352): at RETRY_MAX the channel latches with cause 2. -/
def outRestartDue (x : Nat) (s : State) : State :=
  let o := s.out x
  if o.st ≠ .thermWait || o.restartQ || o.hot then s
  else if s.power.retryMax ≤ o.retries then outLatch x 2 s
  else outRestart x s

/-! ### Commands -/

/-- A channel switched off, with a restart that it waits for withdrawn (R354). -/
def outSwitchOff (x : Nat) (s : State) : State :=
  let o := s.out x
  if outIsOn o || o.st = .thermWait then outTo x .off s else s

/-- A command of firmware to a channel: ignored while its point is not reclaimed (03 R77). -/
def outFirmware (x : Nat) (f : State → State) (s : State) : State := if s.outBlocked x then s else f s

/-- OUTPUT_OFF: OUT_CMD_x.OFF (R345, R354). -/
def outCmdOff (x : Nat) (s : State) : State := outFirmware x (outSwitchOff x) s

def execOutputOff (x : Fin 96) (s : State) : Res := .next (powerWrite (outCmdOff x) s)

/-- A clear edge meets the channel (R353). -/
def outClear (x : Nat) (s : State) : State :=
  let o := s.out x
  if o.st = .latched && !o.hot then
    s.updOut x fun o => { o with st := .off, retries := 0, restartAt := [], cause := 0 }
  else outEvt x 11 s

/-- OUTPUT_CLEAR: a clear edge of firmware. -/
def outCmdClear (x : Nat) (s : State) : State := outFirmware x (outClear x) s

def execOutputClear (x : Fin 96) (s : State) : Res := .next (powerWrite (outCmdClear x) s)

/-- Test pulses on the channel are suspended (R355). -/
def testSuspended (s : State) (x : Nat) : Bool :=
  (s.out x).warn || s.power.qband.get (Config.quadrantOf x) = 2

/-- The channel's load is inductive (R346). -/
def outInductive (x : Nat) (o : Output) : Bool := x < 64 || outKind o = 1

/-- The result of a test pulse, in the order of R357: RESULT of OUT_TP_x, and the event. -/
def testResult (x : Nat) (o : Output) (sampleMv meanMa : Int) : Nat × Option Nat :=
  let thr := fld o.cfg 28 4
  if 2000 < sampleMv then (2, some 7)
  else if thr ≠ 0 && decide (meanMa < (thr : Int) * 10) then (3, some 6)
  else if outInductive x o then (if -200 < sampleMv then (3, some 8) else (1, none))
  else if 1000 < sampleMv then (2, some 7)
  else (1, none)

/-- A test of a channel that is ON, of kind 0 or 1 and not suspended (R356, R357). -/
def outTest (x : Nat) (sampleMv meanMa : Int) (s : State) : State :=
  let o := s.out x
  if o.st ≠ .on || outKind o = 2 || testSuspended s x then s
  else
    let r := testResult x o sampleMv meanMa
    let s1 := s.updOut x fun o =>
      { o with vtp := clampInt (-32768) 32767 sampleMv, tpRes := r.1,
               ol := if r.2 = some 6 then true else if r.1 = 1 then false else o.ol }
    match r.2 with
    | none => s1
    | some i => outEvt x i s1

def execOutputTestPulse (x : Fin 96) (sampleMv meanMa : Int) (s : State) : Res :=
  .next (powerWrite (outFirmware x (outTest x sampleMv meanMa)) s)

/-- OUTPUT_TEST_PERIOD: the periodic test, where TP_PER is not 0 (R356). -/
def execOutputTestPeriod (x : Fin 96) (sampleMv meanMa : Int) (s : State) : Res :=
  .next (if fld (s.out x).cfg 24 4 = 0 then s else outTest x sampleMv meanMa s)

/-- COIL_PULL_IN_END: PULL_T has elapsed (R347, R354, R91). -/
def execCoilPullInEnd (n : Fin 64) (s : State) : Res :=
  .next (
    let o := s.out n
    if !o.pulling then s
    else girthTransientEnd 0 n (outEvt n 0 (s.updOut n fun o =>
      { o with pulling := false, st := if o.st = .pullIn then .on else o.st })))

/-- OUTPUT_CURRENT_LIMIT (R350, R354). -/
def execOutputCurrentLimit (x : Fin 96) (s : State) : Res :=
  .next (
    let o := s.out x
    if o.st = .pullIn || o.st = .on then outEvt x 4 (s.updOut x fun o => { o with st := .limit }) else s)

/-- OUTPUT_LIMIT_EXIT: back to PULL_IN while its pull-in still runs, otherwise to ON (R354). -/
def execOutputLimitExit (x : Fin 96) (s : State) : Res :=
  .next (
    if (s.out x).st = .limit then
      s.updOut x fun o => { o with st := if o.pulling then .pullIn else .on }
    else s)

/-- OUTPUT_THERMAL_TRIP (R351, R354). -/
def execOutputThermalTrip (x : Fin 96) (s : State) : Res :=
  .next (
    let o := s.out x
    if !outIsOn o then s
    else
      let s1 := s.updOut x fun o => { o with hot := true, trips := stick 65535 o.trips 1 }
      if outLatchMode s o then outLatch x 1 (outEvt x 1 s1)
      else girthUnitOff (outGirthKind x) (outUnit x) (outEvt x 1 (outTo x .thermWait s1)))

/-- OUTPUT_RESTART_LEVEL: the switch has cooled to the restart level (R351, R352). -/
def execOutputRestartLevel (x : Fin 96) (s : State) : Res :=
  .next (outRestartDue x (s.updOut x fun o => { o with hot := false }))

/-- OUTPUT_RESTART_RETRY: 100 ms later the request is placed again (R351). -/
def execOutputRestartRetry (x : Fin 96) (s : State) : Res := .next (outRestartDue x s)

/-- RETRIES counts the restarts of the last RETRY_WIN seconds (R352). -/
def retryAge (win now : Nat) (o : Output) : Output :=
  let l := o.restartAt.filter fun t => decide (now < t + 1000 * win)
  { o with restartAt := l, retries := l.length }

/-- RETRY_WINDOW_EXPIRY: a restart is older than RETRY_WIN (R352); a LATCHED channel keeps RETRIES. -/
def execRetryWindowExpiry (x : Fin 96) (s : State) : Res :=
  .next (if (s.out x).st = .latched then s else s.updOut x (retryAge s.power.retryWin s.power.ms))

/-- The band of a quadrant's temperature, °C: 0 below 100, 1 from 100, 2 from 110, each left 2 °C below (R355). -/
def quadBand (was : Nat) (t : Int) : Nat :=
  if 110 ≤ t || (was = 2 && decide (108 ≤ t)) then 2 else if 100 ≤ t || (decide (1 ≤ was) && decide (98 ≤ t)) then 1 else 0

/-- OUTPUT_WARNING_BAND (R355). -/
def execOutputWarningBand (b : BandChange) (s : State) : Res :=
  .next (match b with
    | .switch x w =>
      if (s.out x).warn = w then s else outEvt x 5 (s.updOut x fun o => { o with warn := w })
    | .quadrant q temp =>
      let band := quadBand (s.power.qband.get q) temp.toInt
      let s1 := { s with power.qtemp := s.power.qtemp.set q temp }
      if s.power.qband.get q = band then s1
      else laneRaise 280 { s1 with power.qband := s1.power.qband.set q band,
                                   power.qchg := putBit s1.power.qchg q true })

/-- OUTPUT_SUM_OVER: OVER is set when the sum has exceeded 24 A for 100 ms; no channel switches (R344). -/
def execOutputSumOver (sum : Nat) (s : State) : Res :=
  .next { s with power.sum := min 65535 sum,
                 power.sumOver := s.power.sumOver || decide (2400 < sum) }

/-! ### Configuration (R348, R367) -/

/-- The new OUT_CFG_x of a write: SLEW 11b keeps the field; a load channel reads 0 in PULL_T, HOLD_DUTY
and ECO_F; bit 2 is reserved (R367). -/
def outCfgNext (x : Nat) (old v : Word) : Word :=
  let v1 := wRW 0xFFFFFFFB 0 v
  let v2 := if fld v 4 2 = 3 then putFld v1 4 2 (fld old 4 2) else v1
  if x < 64 then v2 else wRW 0xFF00003F 0 v2

/-- The values of R367 and the economy on-time of R348. -/
def outCfgOk (x : Nat) (c : Word) : Bool :=
  if x < 64 then
    decide (fld c 0 2 ≤ 2) && within 10 (fld c 16 8) 100 && within 10 (fld c 8 8) 100 &&
      (fld c 0 2 ≠ 0 || decide (32 * 2 ^ fld c 4 2 * 2 ^ fld c 6 2 ≤ fld c 8 8 * 10))
  else decide (fld c 0 2 ≤ 1)

/-- A write of OUT_CFG_x: only in OFF or LATCHED, else ignored with CFG_ERR (R346, R348). -/
def outCfgWrite (x : Nat) (v : Word) (s : State) : State :=
  let o := s.out x
  let c := outCfgNext x o.cfg v
  if (o.st = .off || o.st = .latched) && outCfgOk x c then s.updOut x fun o => { o with cfg := c }
  else outEvt x 10 s

def execOutputCfgWrite (x : Fin 96) (v : Word) (s : State) : Res := .next (powerWrite (outCfgWrite x v) s)

/-- A write of OUT_PROT (R351, R352, R367). -/
def outProtWrite (v : Word) (s : State) : State :=
  let lock := s.power.protLock
  let win := fld v 16 8
  let mx := fld v 8 4
  let s1 := { s with
    power.protLock := lock || bit v 31,
    power.retryWin := if lock || decide (win < 10) then s.power.retryWin else win,
    power.retryMax := if lock || mx = 0 then s.power.retryMax else mx,
    power.test := bit v 1, power.run := bit v 0 }
  if (s.power.run && !bit v 0) || (!s.power.test && bit v 1) then outWaitLatchAll s1 else s1

def execOutProtWrite (v : Word) (s : State) : Res := .next (powerWrite (outProtWrite v) s)

end Sys2Proof.Machine
end

