-- ==== Sys2Proof/Machine/Pilot.lean ====
section
/-!
DEFINITION. Control pilot and proximity (07): commands, period start and clamp, wake, plateau evaluation,
fault path, proximity.
-/
set_option Elab.async false
namespace Sys2Proof.Machine

/-! ### Fields of PIL_CFG_p and PIL_RSRC_p (R168) -/

/-- The 2017 edition. -/
def pilEd17 (q : PilotPt) : Bool := bit q.cfg 2

/-- PROX_FORM. -/
def pilForm (q : PilotPt) : Nat := fld q.cfg 0 2

/-- The effective cable capacity, A; 0 none (R155, R167). -/
def pilCapacity (q : PilotPt) : Nat :=
  match pilForm q with
  | 0 => fld q.cfg 8 8
  | 1 => (match q.cls with | 2 => 63 | 3 => 32 | 4 => 20 | 5 => 13 | _ => 0)
  | 2 => if q.cls = 8 then fld q.cfg 8 8 else 0
  | _ => 0

/-- The clamp duty of a capacity of 6 A to 80 A (R155). -/
def clampDuty (i : Nat) : Nat := if i ≤ 51 then i * 50 / 3 else 4 * i + 640

/-- What is sent for the mode and duty in force: mode, duty and CLAMPED (R155). -/
def pilClamp (q : PilotPt) : BitVec 2 × BitVec 10 × Bool :=
  if !bit q.cfg 6 || q.modeCmd ≠ 2 || q.dutyCmd = 50 then (q.modeCmd, q.dutyCmd, false)
  else
    let i := pilCapacity q
    if i < 6 then (1, 0, true)
    else if clampDuty i < q.dutyCmd.toNat then (2, BitVec.ofNat 10 (clampDuty i), true)
    else (2, q.dutyCmd, false)

/-! ### Commands (R152 to R154, R164) -/

/-- A duty that X2 takes (R152). -/
def dutyOk (d : Nat) : Bool := d = 50 || within 100 d 960

/-- A wake request: a PIL_CMD_p write with WAKE 1 (R154); while the Bridle holds the pilot, or the point is blocked under
R77, it is ignored as any command is (R164). X1 begins with the request, and X2 returns with the end of the wake
duration, both within a period: R153 gives the period start for commands only (the model's choice, assumption 102). -/
def pilWakeReq (p : Nat) (s : State) : State :=
  let q := s.pil p
  if !s.power.clkOk then s
  else if q.held || s.blocked p then pilEvt p 5 s
  else if pilEd17 q && q.modeAct = 2 then
    s.updPil p fun q => { pilMode 1 q with waking := true, dutyAct := 0, clamped := false }
  else pilEvt p 6 s

/-- A command: a PIL_CMD_p write with WAKE 0 (R152, R153, R164). While the Bridle holds the pilot, or
the point is blocked under R77, it is ignored; in the safe state the power die keeps −12 V (R25). -/
def pilCommand (p : Nat) (v : Word) (s : State) : State :=
  let q := s.pil p
  let m := BitVec.ofNat 2 (fld v 0 2)
  let d := BitVec.ofNat 10 (fld v 4 10)
  if !s.power.clkOk then s
  else if q.held || s.blocked p then pilEvt p 5 s
  else if s.power.safe then s
  else if m = 2 && !dutyOk d.toNat then pilEvt p 6 s
  else s.updPil p fun q =>
    if q.waking then { q with mode := m, duty := d, pend := some (m, d), waking := false }
    else { q with mode := m, duty := d, pend := some (m, d) }

/-- PILOT_COMMAND. -/
def execPilotCommand (p : Fin 64) (v : Word) (s : State) : Res :=
  .next (if bit v 15 then pilWakeReq p s else pilCommand p v s)

/-- PILOT_WAKE. -/
def execPilotWake (p : Fin 64) (v : Word) (s : State) : Res :=
  .next (if bit v 15 then pilWakeReq p s else pilCommand p v s)

/-! ### Period start (R153, R155) -/

/-- The state that follows a new MODE_ACT (R160). A fault state is left by the Bridle's release alone. -/
def pilAfterMode (p : Nat) (s : State) : State :=
  let q := s.pil p
  if pilFaulted q then s
  else if q.modeAct = 0 then pilGo p .off s
  else if q.modeAct = 3 then pilGo p .drivenF s
  else if q.st = .off || q.st = .drivenF then pilStart p s
  else s

/-- The pilot of a point runs IEC 61851-1; the driver of a point of another type is disabled (R148). -/
def State.pilotUsed (s : State) (p : Nat) : Bool := within 1 (s.typeNow p) 4

/-- The driver of a point without a pilot: disabled at the period start, whatever was commanded. -/
def pilNone (p : Nat) (s : State) : State :=
  let q := s.pil p
  if q.modeAct = 0 && q.pend.isNone then s
  else pilAfterMode p (s.updPil p fun q =>
    { pilMode 0 q with modeCmd := 0, dutyCmd := 0, dutyAct := 0, clamped := false, waking := false, pend := none })

/-- One point's period start: the last command takes effect and the clamp is evaluated again. -/
def pilPeriod (p : Nat) (s : State) : State :=
  let q := s.pil p
  if q.held || s.power.safe || q.supplyDis then s
  else if !s.pilotUsed p then pilNone p s
  else
    let q1 := match q.pend with
      | none => q
      | some (m, d) => { q with modeCmd := m, dutyCmd := d, pend := none }
    if q1.waking then s.updPil p fun _ => q1
    else if q.pend.isNone && q1.modeCmd ≠ 2 then s
    else
      let c := pilClamp q1
      pilAfterMode p (s.updPil p fun _ =>
        { pilMode c.1 q1 with dutyAct := if c.1 = 2 then c.2.1 else 0, clamped := c.2.2 })

/-- PILOT_WAKE_END: back to X2 at the duty in force, WAKE_DONE (R154). -/
def execPilotWakeEnd (p : Fin 64) (s : State) : Res :=
  .next (
    let q := s.pil p
    if !q.waking then s
    else
      let c := pilClamp q
      pilEvt p 7 (s.updPil p fun q =>
        { pilMode c.1 q with waking := false, dutyAct := if c.1 = 2 then c.2.1 else 0, clamped := c.2.2 }))

/-- PILOT_PERIOD_TRIM: while the application domain runs (R151). -/
def execPilotPeriodTrim (periodNs : Nat) (s : State) : Res :=
  .next (if s.inReset || !s.power.clkOk then s
    else { s with power.trimmed := true, power.period := periodNs % 2 ^ 24 })

/-! ### Sampling (R156 to R160) -/

/-- Bands of R157, highest first. -/
inductive Band where
  | a | b | c | d | e | f | none
  deriving DecidableEq, Repr

/-- Limits of the bands in mV for an edition, highest band first. -/
def bandLimits (ed17 : Bool) : List (Band × Int × Int) :=
  if ed17 then
    [(.a, 11000, 13000), (.b, 8000, 10000), (.c, 5000, 7000), (.d, 2000, 4000), (.e, -1000, 1000),
     (.f, -13000, -11000)]
  else
    [(.a, 10500, 13500), (.b, 7500, 10500), (.c, 4500, 7500), (.d, 1500, 4500), (.e, -1500, 1500),
     (.f, -13500, -10500)]

/-- A sample of a plateau: V(CPn) in mV and I(CPn), positive out of the ball, in µA. -/
abbrev PilSample := Int × Int

/-- The cable-side voltage of a sample, Vcable = V(CPn) − I(CPn) × Rsrc, in 0.1 µV (R149): Rsrc of PIL_RSRC_p is in
0.1 Ω. -/
def vCable (q : PilotPt) (x : PilSample) : Int := 10000 * x.1 - x.2 * (fld q.rsrc 0 16 : Int)

/-- The band of a cable-side voltage in 0.1 µV; one on a boundary belongs to the higher band (R157). -/
def bandOf (ed17 : Bool) (v : Int) : Band :=
  match (bandLimits ed17).find? fun l => decide (10000 * l.2.1 ≤ v) && decide (v ≤ 10000 * l.2.2) with
  | some l => l.1
  | none => .none

/-- At least 5 of the samples satisfy `f`. -/
def fiveOf (f : Int → Bool) (mv : List Int) : Bool := decide (5 ≤ (mv.filter f).length)

/-- LAST of PIL_STAT_p for the positive plateau (R158, R168). -/
def posResult (ed17 : Bool) (mv : List Int) : Nat :=
  let is := fun (x : Band) => fiveOf (fun v => bandOf ed17 v = x) mv
  if is .a then 2 else if is .b then 3 else if is .c then 4 else if is .d then 5
  else if is .e then 0xA else if is .f then 0xB else 6

/-- The E/F condition: at least 5 samples below the upper limit of band E (R158). -/
def efCond (ed17 : Bool) (mv : List Int) : Bool :=
  fiveOf (fun v => decide (v < 10000 * if ed17 then 1000 else 1500)) mv

/-- The state a positive result stands for. -/
def posState (r : Nat) : PilSt :=
  match r with | 2 => .a | 3 => .b | 4 => .c | 5 => .d | _ => .invalid

/-- The mean of cable-side voltages in mV, toward zero: how the mean of a plateau is rounded is not given (the model's
choice, assumption 103). -/
def meanOf (mv : List Int) : Int := if mv.length = 0 then 0 else mv.sum.tdiv (10000 * mv.length)

/-- States in which plateaus are judged (R160). -/
def pilJudged (q : PilotPt) : Bool :=
  (q.modeAct = 1 || q.modeAct = 2) && !q.supplyDis && !pilFaulted q &&
    decide (q.st ≠ .off) && decide (q.st ≠ .drivenF)

/-- A fault is accepted (R160, R162): fault state, event bit, cause; a wake sequence ends (R165). -/
def pilFault (p : Nat) (st : PilSt) (evt : Nat) (cause : BitVec 3) (s : State) : State :=
  let s0 := countPt p (fun c => { c with cause := cause, faults := stick (2 ^ 32 - 1) c.faults 1 }) s
  let s1 := s0.updPil p fun q => { q with waking := false }
  pilEvt p evt (pilGo p st s1)

/-- The end of a positive window (R158, R159). -/
def pilPositive (p : Nat) (mv : List Int) (s : State) : State :=
  let q := s.pil p
  if q.skipPos then s.updPil p fun q => { q with skipPos := false }
  else
    let ed := pilEd17 q
    let r := posResult ed mv
    let ef := efCond ed mv
    let counts := (within 2 r 6) && decide (posState r ≠ q.st)
    let run := if counts then (if q.cand = r then q.candRun + 1 else 1) else 0
    let s0 := if r = 6 then countPt p (fun c => { c with indet := stick (2 ^ 32 - 1) c.indet 1 }) s else s
    let s1 := s0.updPil p fun q =>
      { q with last := r, pos := clampInt (-32768) 32767 (meanOf mv),
               indet := if r = 6 then stick 65535 q.indet 1 else q.indet,
               cand := if counts then r else 0, candRun := run, efRun := if ef then q.efRun + 1 else 0 }
    if ef && decide (2 ≤ q.efRun + 1) then pilFault p .faultEf 1 1 s1
    else if 3 ≤ run then
      pilGo p (posState r) (s1.updPil p fun q => { q with cand := 0, candRun := 0 })
    else s1

/-- The end of a negative window, in X2 (R158, R159). -/
def pilNegative (p : Nat) (mv : List Int) (s : State) : State :=
  let q := s.pil p
  if q.modeAct ≠ 2 then s
  else if q.skipNeg then s.updPil p fun q => { q with skipNeg := false }
  else
    let good := fiveOf (fun v => bandOf (pilEd17 q) v = .f) mv
    let s1 := s.updPil p fun q =>
      { q with neg := some (clampInt (-32767) 32767 (meanOf mv)), negOk := good,
               negRun := if good then 0 else q.negRun + 1 }
    if !good && decide (2 ≤ q.negRun + 1) then pilFault p .faultNeg 2 2 s1 else s1

/-- PILOT_PLATEAU_EVALUATION: 8 samples of a plateau at the end of its window. -/
def execPilotPlateauEvaluation (p : Fin 64) (neg : Bool) (samples : List PilSample) (s : State) : Res :=
  .next (
    let mv := samples.map (vCable (s.pil p))
    if !s.power.clkOk || !pilJudged (s.pil p) then s
    else if neg then pilNegative p mv s else pilPositive p mv s)

/-! ### The fault path and OFF_WAIT (R160 to R165) -/

/-- PILOT_FAULT_FRAME at the Bridle in RUN: hold cause PILOT; the 1000 ms of R164 count from here. -/
def pilotFaultFrame (p : Nat) (s : State) : State :=
  if !s.bridleRuns then s
  else setCause p .pilot (s.updBp p fun b => { b with faultAt := s.bridle.time })

def execPilotFaultFrame (p : Fin 64) (_cause : Fin 3) (s : State) : Res := .next (pilotFaultFrame p s)

/-- OFF_WAIT_EXPIRY (R160, R161): X1 has been in force for the OFF_WAIT time with the vehicle in C or D. -/
def execOffWaitExpiry (p : Fin 64) (s : State) : Res :=
  .next (
    let q := s.pil p
    if q.modeAct = 1 && (q.st = .c || q.st = .d) && !q.offWait then
      pilEvt p 4 (s.updPil p fun q => { q with offWait := true })
    else s)

/-! ### Proximity (R166, R167) -/

/-- Rth below `r` ohm, exactly, with d = V1 − V2 in mV (R166). -/
def rthBelow (d : Int) (r : Nat) : Bool := decide (1000 * d < (r : Int) * (2000 - d))

/-- The class of a measurement under a proximity form (R167). -/
def proxClass (q : PilotPt) (d : Int) : Nat :=
  let open' := decide (2000 ≤ d) || decide (10000 * (2000 - d) < 1000 * d)
  if open' then 7
  else if rthBelow d 50 then 1
  else if pilForm q = 1 then
    if rthBelow d 150 then 2 else if rthBelow d 400 then 3 else if rthBelow d 1000 then 4
    else if rthBelow d 2500 then 5 else 6
  else if rthBelow d q.latchedMax then 8 else if rthBelow d q.releasedMax then 9 else 6

/-- PROXIMITY_MEASUREMENT: V1 and V2 in mV. Under form 0, which firmware gives the points of types 0, 4 and 5 (R148), PPn is
not measured. From 1.96 V on Rth reads FFFFh, and Vth
follows from the exact Rth of the two formulas; at 2 V and above they give none, and Vth is a free value. -/
def proxMeasure (p : Nat) (v1 v2 : Int) (s : State) : State :=
  let q := s.pil p
  if pilForm q = 0 then s
  else
    let d := v1 - v2
    let none' := decide (2000 ≤ d)
    let rth := if 1960 ≤ d then 0xFFFF else (1000 * d).toNat / (2000 - d).toNat
    let vth := if none' then toInt 8 (s.freeBits 8).toNat * 25 else (2000 * v1 - 4000 * d).tdiv (2000 - d)
    let s0 := if none' then s.used else s
    let c := proxClass q d
    let run := if c = q.cls then 0 else if c = q.pcand then q.prun + 1 else 1
    let s1 := s0.updPil p fun q => { q with rth := min 0xFFFF rth, vth := vth, pcand := c, prun := run }
    if 3 ≤ run then pilEvt p 3 (s1.updPil p fun q => { q with cls := c, prun := 0 }) else s1

def execProximityMeasurement (p : Fin 64) (v1 v2 : Int) (s : State) : Res :=
  .next (proxMeasure p v1 v2 s)

/-! ### Configuration and time stamp (R168) -/

/-- A write of PIL_CFG_p. -/
def pilCfgWrite (p : Nat) (v : Word) (s : State) : State :=
  let q := s.pil p
  let okCap := within 6 (fld v 8 8) 80
  let locked := decide (q.modeAct ≠ 0)
  let form := if fld v 0 2 = 3 then pilForm q else fld v 0 2
  let chg := decide (bit v 2 ≠ bit q.cfg 2) || decide (form ≠ pilForm q)
  let c1 := wRW (mask 24 8 ||| (if okCap then mask 8 8 else 0) ||| mask 6 1 |||
    (if fld v 4 2 = 3 then 0 else mask 4 2)) q.cfg v
  let c2 := if locked then c1 else putFld (putFld c1 2 1 (fld v 2 1)) 0 2 form
  let s1 := s.updPil p fun q => { q with cfg := c2, cls := if form = 0 && !locked then 0 else q.cls }
  if okCap && !(locked && chg) then s1 else pilEvt p 6 s1

/-- A write of PIL_RSRC_p. -/
def pilRsrcWrite (p : Nat) (v : Word) (s : State) : State :=
  let okW := within 100 (fld v 16 16) 5000
  let okR := within 9800 (fld v 0 16) 10200
  let s1 := s.updPil p fun q => { q with
    rsrc := wRW ((if okW then mask 16 16 else 0) ||| (if okR then mask 0 16 else 0)) q.rsrc v }
  if okW && okR then s1 else pilEvt p 6 s1

/-- PILOT_CFG_WRITE: PIL_CFG_p, or PIL_RSRC_p where `rsrc`. -/
def execPilotCfgWrite (p : Fin 64) (rsrc : Bool) (v : Word) (s : State) : Res :=
  .next (if !s.power.clkOk then s else if rsrc then pilRsrcWrite p v s else pilCfgWrite p v s)

/-- A read of PIL_TS_p's low word, the high word latched for the port (R168). -/
def pilTsRead (port p : Nat) (s : State) : State :=
  let t := if s.power.pilRebuilt then (s.pil p).ts else 0
  busOk (BitVec.ofNat 32 t) { s with power.tsLatch := s.power.tsLatch.set port (BitVec.ofNat 32 (t / 2 ^ 32)) }

/-- PIL_TS_READ. -/
def execPilTsRead (port : Fin 24) (p : Fin 64) (s : State) : Res := .next (pilTsRead port p s)

end Sys2Proof.Machine
end

