-- ==== Sys2Proof/Machine/SafetyConfig.lean ====
section
/-!
DEFINITION. The safety configuration block (15 R374): reading its 2048 bytes and the ranges of its fields.
-/
set_option Elab.async false
namespace Sys2Proof.Machine

/-- A little-endian field of `n` bytes at `o` of a byte table. -/
def cfgNum (b : Bank Byte) (o n : Nat) : Nat := ofLE ((List.range n).map fun i => b.get (o + i))

/-- The same in two's complement. -/
def cfgInt (b : Bank Byte) (o n : Nat) : Int := toInt (8 * n) (cfgNum b o n)

/-- Filling a table of `n` entries. -/
def tabulate {α : Type} [DecidableEq α] (d : α) (n : Nat) (f : Nat → α) : Bank α :=
  (List.range n).foldl (fun b i => b.set i (f i)) ⟨d, []⟩

/-- A point, at offset 16 + 8 × p. -/
def cfgPoint (b : Bank Byte) (p : Nat) : PtCfg :=
  let o := 16 + 8 * p
  { coil := cfgNum b o 1, lock := cfgNum b (o + 1) 1, lockKind := cfgNum b (o + 2) 1,
    upstream := cfgNum b (o + 3) 1, group := cfgNum b (o + 4) 1,
    supervised := (b.get (o + 5)).getLsbD 0, polarity := (b.get (o + 5)).getLsbD 1,
    tOpen := cfgNum b (o + 6) 1, tClose := cfgNum b (o + 7) 1 }

/-- A safety input pair, at offset 656 + 8 × i. -/
def cfgSi (b : Bank Byte) (i : Nat) : SiCfg :=
  let o := 656 + 8 * i
  { fn := cfgNum b o 1, antivalent := decide (b.get (o + 1) = 1),
    mask := BitVec.ofNat 16 (cfgNum b (o + 2) 2), disc := cfgNum b (o + 4) 1 }

/-- An encoder, at offset 784 + 8 × j. -/
def cfgEnc (b : Bank Byte) (j : Nat) : EncCfg :=
  let o := 784 + 8 * j
  { perMetre := cfgNum b o 4, perZ := cfgNum b (o + 4) 2, invert := decide (b.get (o + 6) = 1) }

/-- A device, at offset 848 + 48 × d. -/
def cfgDev (b : Bank Byte) (d : Nat) : DevCfg :=
  let o := 848 + 48 * d
  { enc := cfgNum b o 1, sto := cfgNum b (o + 1) 1, pt := cfgNum b (o + 2) 1, grp := cfgNum b (o + 3) 1,
    posMin := cfgInt b (o + 4) 4, posMax := cfgInt b (o + 8) 4, winLo := cfgInt b (o + 12) 4,
    winHi := cfgInt b (o + 16) 4, home := cfgInt b (o + 20) 4, vmax := cfgNum b (o + 24) 2,
    dec := cfgNum b (o + 26) 2, dv := cfgNum b (o + 28) 2, td := cfgNum b (o + 30) 2,
    zero := cfgNum b (o + 32) 2, tss1 := cfgNum b (o + 34) 2, tmove := cfgNum b (o + 36) 2,
    ss1 := decide (b.get (o + 38) = 1) }

/-- A receive safe message, at offset 1232 + 16 × i. -/
def cfgRx (b : Bank Byte) (i : Nat) : RxCfg :=
  let o := 1232 + 16 * i
  { cob0 := cfgNum b o 2, cob1 := cfgNum b (o + 2) 2, groups := BitVec.ofNat 16 (cfgNum b (o + 4) 2),
    devs := b.get (o + 6), enabled := (b.get (o + 7)).getLsbD 0, resetUsed := (b.get (o + 7)).getLsbD 1,
    t := cfgNum b (o + 8) 2, w := cfgNum b (o + 10) 2 }

/-- A transmit safe message, at offset 1488 + 16 × j. -/
def cfgTx (b : Bank Byte) (j : Nat) : TxCfg :=
  let o := 1488 + 16 * j
  { cob0 := cfgNum b o 2, cob1 := cfgNum b (o + 2) 2, period := cfgNum b (o + 4) 2,
    enabled := (b.get (o + 6)).getLsbD 0 }

/-- The block, parsed. -/
def parseCfg (b : Bank Byte) : SafCfg :=
  { holdWin := cfgNum b 8 1, nomRate := cfgNum b 9 1, dataRate := cfgNum b 10 1,
    seed := BitVec.ofNat 16 (cfgNum b 12 2),
    pts := tabulate {} 64 (cfgPoint b), im := tabulate 0 16 (fun k => BitVec.ofNat 64 (cfgNum b (528 + 8 * k) 8)),
    si := tabulate {} 16 (cfgSi b), enc := tabulate {} 8 (cfgEnc b), dev := tabulate {} 8 (cfgDev b),
    rx := tabulate {} 16 (cfgRx b), tx := tabulate {} 8 (cfgTx b) }

/-- Bytes that must be 0. -/
def cfgZero (b : Bank Byte) (o n : Nat) : Bool := (List.range n).all fun i => b.get (o + i) = 0

/-- FFh, or a number below `n`. -/
def orNone (v n : Nat) : Bool := v = 0xFF || decide (v < n)

/-- Ranges of a point. -/
def ptCfgOk (b : Bank Byte) (p : Nat) : Bool :=
  let c := cfgPoint b p
  orNone c.coil 64 && orNone c.lock 32 && decide (c.lockKind ≤ 2) && orNone c.upstream 32 &&
    orNone c.group 16 && decide (cfgNum b (16 + 8 * p + 5) 1 ≤ 3) && within 2 c.tOpen 50 && within 2 c.tClose 50

/-- Ranges of the IM assignment: at most 3 points a channel and 24 in all (R364). -/
def imCfgOk (c : SafCfg) : Bool :=
  let n := (List.range 16).map fun k => (bitsOf (c.im.get k)).length
  n.all (fun x => decide (x ≤ 3)) && decide (n.sum ≤ 24)

/-- Ranges of a pair. -/
def siCfgOk (b : Bank Byte) (i : Nat) : Bool :=
  let o := 656 + 8 * i
  let c := cfgSi b i
  decide (c.fn ≤ 4) && decide (cfgNum b (o + 1) 1 ≤ 1) && cfgZero b (o + 5) 3 &&
    (c.fn = 0 || decide (5 ≤ c.disc)) && (decide (c.fn < 3) || decide (c.mask.toNat < 8))

/-- Ranges of an encoder. -/
def encCfgOk (b : Bank Byte) (j : Nat) : Bool :=
  decide (cfgNum b (784 + 8 * j + 6) 1 ≤ 1) && cfgZero b (784 + 8 * j + 7) 1

/-- Ranges of a device. -/
def devCfgOk (b : Bank Byte) (d : Nat) : Bool :=
  let c := cfgDev b d
  let o := 848 + 48 * d
  decide (c.enc < 8) && decide (c.sto < 8) && decide (c.pt < 64) && decide (c.grp < 16) &&
    decide (cfgNum b (o + 38) 1 ≤ 1) && cfgZero b (o + 39) 9

/-- Ranges of a receive message. -/
def rxCfgOk (b : Bank Byte) (i : Nat) : Bool :=
  let c := cfgRx b i
  let o := 1232 + 16 * i
  decide (cfgNum b (o + 7) 1 ≤ 3) && cfgZero b (o + 12) 4 &&
    (!c.enabled || (within 10 c.t 1000 && within 1 c.w 20 && decide (c.cob0 < 2048) && decide (c.cob1 < 2048)))

/-- Ranges of a transmit message. -/
def txCfgOk (b : Bank Byte) (j : Nat) : Bool :=
  let c := cfgTx b j
  let o := 1488 + 16 * j
  decide (cfgNum b (o + 6) 1 ≤ 1) && cfgZero b (o + 7) 9 &&
    (!c.enabled || (within 10 c.period 1000 && decide (c.cob0 < 2048) && decide (c.cob1 < 2048)))

/-- Every field lies in its range and reserved bytes are 0 (R373, R374). -/
def cfgInRange (b : Bank Byte) : Bool :=
  cfgNum b 0 4 = 0x4353584B && cfgNum b 4 2 = 1 && cfgNum b 6 2 = 2048 && decide (cfgNum b 8 1 ≤ 200) &&
    decide (cfgNum b 9 1 ≤ 3) && decide (cfgNum b 10 1 ≤ 4) && cfgZero b 11 1 && cfgZero b 14 2 &&
    (List.range 64).all (ptCfgOk b) && imCfgOk (parseCfg b) && (List.range 16).all (siCfgOk b) &&
    (List.range 8).all (encCfgOk b) && (List.range 8).all (devCfgOk b) && (List.range 16).all (rxCfgOk b) &&
    (List.range 8).all (txCfgOk b) && cfgZero b 1616 432

/-- SHA-384 of the block over its full length (R373). -/
def cfgDigest (b : Bank Byte) : BitVec 384 := Config.sha384 ((List.range 2048).map b.get)

/-- The digest slot in force: the highest programmed one (R373). -/
def State.safeSlot (s : State) : Option Nat :=
  ([3, 2, 1, 0] : List Nat).find? fun k => decide (s.fuses.safe.get k ≠ 0)

end Sys2Proof.Machine
end

