-- ==== Sys2Proof/Machine/Bridle.lean ====
section
/-!
DEFINITION. The Bridle's commands (15): faults and restart, mirrors, safety inputs, stop groups, devices,
STO, safe messages, and firmware's messages.
-/
set_option Elab.async false
namespace Sys2Proof.Machine

/-! ### STO outputs (R379) -/

/-- Commanding an STO output's stages; lost while the power die's clock has failed, kept off in its safe
state (R25, R66). -/
def stoSet (n : Nat) (on : Bool) (s : State) : State :=
  let s1 := { s with bridle.stoRel := putBit s.bridle.stoRel n on }
  if !s.power.clkOk || (on && s.power.safe) then s1
  else { s1 with power.sto := s1.power.sto.set n ⟨on, on⟩ }

/-- STO fault: both stages held off until a reset edge (R379). -/
def stoFault (n : Nat) (s : State) : State :=
  if s.bridle.stoFault.getLsbD n then stoSet n false s
  else note 6 n 0 (stoSet n false { s with bridle.stoFault := putBit s.bridle.stoFault n true })

/-! ### Connection devices (R381, R382) -/

/-- A device. -/
def State.device (s : State) (d : Nat) : Device := s.bridle.dev.get d

/-- Changing a device. -/
def State.updDev (s : State) (d : Nat) (f : Device → Device) : State :=
  { s with bridle.dev := s.bridle.dev.upd d f }

/-- A device is configured when its v_max is not 0 (assumption 24). -/
def State.hasDev (s : State) (d : Nat) : Bool := decide ((s.devCfg d).vmax ≠ 0)

/-- The point of a device carries DEVICE in any state other than RETRACTED or CONNECTED (R382). -/
def syncDevice (d : Nat) (s : State) : State :=
  if !s.hasDev d then s
  else
    let st := (s.device d).st
    if st = .retracted || st = .connected then clearCause (s.devCfg d).pt .device s
    else setCause (s.devCfg d).pt .device s

/-- A device enters a state: notice kind 5. -/
def devGo (d : Nat) (st : DevSt) (s : State) : State :=
  if (s.device d).st = st then s
  else syncDevice d (note 5 d 0 (s.updDev d fun v => { v with st := st }))

/-- Torque removed and the permit bit cleared. -/
def devOff (d : Nat) (s : State) : State :=
  stoSet (s.devCfg d).sto false (s.updDev d fun v => { v with permit := false })

/-- A device enters FAULT with a cause; STO is removed at once (R382). -/
def devFault (d cause : Nat) (s : State) : State :=
  devGo d .fault (devOff d (s.updDev d fun v => { v with fcause := cause }))

/-- A pair's demand: both channels, or the pair in fault or testing faulty (R376, R392). -/
def siActive (v : SiState) : Bool := (v.a && v.b) || v.fault || v.testBad

/-- An input of function `fn` for device `d` is active (R374). -/
def State.devInput (s : State) (fn d : Nat) : Bool :=
  (List.range 16).any fun i =>
    (s.siCfg i).fn = fn && (s.siCfg i).mask.toNat = d && siActive (s.bridle.si.get i)

/-- Position within the contact window. -/
def State.inWindow (s : State) (d : Nat) : Bool :=
  let c := s.devCfg d
  let p := (s.device d).pos
  decide (c.winLo ≤ p) && decide (p ≤ c.winHi)

/-- The input and position rows of R382. -/
def devInputs (d : Nat) (s : State) : State :=
  if !s.hasDev d then s
  else match (s.device d).st with
    | .extending => if s.devInput 4 d && s.inWindow d then devGo d .connected (devOff d s) else s
    | .retracting =>
      if s.devInput 3 d && decide ((s.device d).pos < (s.devCfg d).home) then
        devGo d .retracted (devOff d s) else s
    | .connected =>
      if !s.inWindow d then devFault d 2 s else if !s.devInput 4 d then devFault d 6 s else s
    | _ => s

/-- A stop of a moving device: category 0 removes torque at once, SS1 monitors the stop (R381). -/
def devStop (d : Nat) (s : State) : State :=
  let st := (s.device d).st
  if !s.hasDev d || (st ≠ .extending && st ≠ .retracting) then s
  else if (s.devCfg d).ss1 then
    devGo d .stopping (s.updDev d fun v =>
      { v with permit := false, v0 := v.speed.natAbs, tStop := 0, still := 0 })
  else devGo d .stopped (devOff d s)

/-- The speed limit of SS1 at t ms, in 0.1 µm/s (R381). -/
def ss1Limit (c : DevCfg) (v0 t : Nat) : Nat :=
  let start := (v0 + c.dv) * 10000
  if t < c.td then start else max (start - c.dec * (t - c.td) * 10) (2 * c.zero * 1000)

/-! ### Stop groups (R380) -/

/-- A cause of a stop that latches the group: an active emergency-stop pair, or a 0 in a governing
receive message. -/
def State.groupCause (s : State) (g : Nat) : Bool :=
  ((List.range 16).any fun i =>
    (s.siCfg i).fn = 1 && (s.siCfg i).mask.getLsbD g && siActive (s.bridle.si.get i)) ||
  ((List.range 16).any fun i =>
    (s.rxCfg i).enabled && (s.rxCfg i).groups.getLsbD g && !(s.bridle.rx.get i).d.getLsbD g)

/-- The motion permit of a governing receive message is missing for a device (R386). -/
def State.motionBarred (s : State) (d : Nat) : Bool :=
  (List.range 16).any fun i =>
    (s.rxCfg i).enabled && (s.rxCfg i).devs.getLsbD d && !(s.bridle.rx.get i).d.getLsbD (16 + d)

/-- The points of a group. -/
def State.groupPoints (s : State) (g : Nat) : List Nat :=
  (List.range 64).filter fun p => (s.ptCfg p).group = g

/-- The devices of a group. -/
def State.groupDevs (s : State) (g : Nat) : List Nat :=
  (List.range 8).filter fun d => s.hasDev d && (s.devCfg d).grp = g

/-- A group stops: notice kind 4, its points take GROUP, its devices stop (R380). -/
def groupStop (g : Nat) (s : State) : State :=
  let s1 := note 4 g 0 { s with bridle.running := putBit s.bridle.running g false }
  let s2 := (s.groupPoints g).foldl (fun t p => setCause p .group t) s1
  (s.groupDevs g).foldl (fun t d => devStop d t) s2

/-- A group runs again: GROUP is released; its pilot part then needs PILOT_RELEASE (R384). -/
def groupRun (g : Nat) (s : State) : State :=
  let s1 := { s with bridle.running := putBit s.bridle.running g true }
  (s.groupPoints g).foldl (fun t p =>
    if t.holds p .group then clearCause p .group (t.updBp p fun b => { b with pilKeep := true }) else t) s1

/-- Judging a group: a present cause latches it; it runs when no cause is present and it is not latched. -/
def evalGroup (g : Nat) (s : State) : State :=
  let s1 := if s.groupCause g then { s with bridle.latched := putBit s.bridle.latched g true } else s
  let run := !s1.bridle.latched.getLsbD g
  if run = s1.bridle.running.getLsbD g then s1 else if run then groupRun g s1 else groupStop g s1

/-- Judging all groups, and the motion permits of the receive messages. -/
def evalGroups (s : State) : State :=
  let s1 := (List.range 16).foldl (fun t g => evalGroup g t) s
  (List.range 8).foldl (fun t d => if t.motionBarred d then devStop d t else t) s1

/-- The cause of a device's FAULT is still present (R382). -/
def State.devCauseHere (s : State) (d : Nat) : Bool :=
  let v := s.device d
  let c := s.devCfg d
  match v.fcause with
  | 1 => decide (c.vmax < v.speed.natAbs)
  | 2 => decide (v.pos < c.posMin) || decide (c.posMax < v.pos)
  | 5 => v.encBad
  | _ => false

/-- A reset edge on a device: FAULT to STOPPED where its cause is gone, else counted (R382, R385). -/
def edgeDevice (d : Nat) (s : State) : State :=
  if (s.device d).st ≠ .fault then s
  else if s.devCauseHere d then { s with bridle.edgeIgnored := s.bridle.edgeIgnored + 1 }
  else devGo d .stopped (s.updDev d fun v => { v with fcause := 0 })

/-- A reset edge on a pair in FAULT: it leaves FAULT after 100 ms without demand (R376). -/
def edgePair (i : Nat) (s : State) : State :=
  let v := s.bridle.si.get i
  match v.clearSince with
  | some t =>
    if v.fault && decide (t + 100000 ≤ s.bridle.time) then
      { s with bridle.si := s.bridle.si.set i { v with fault := false } }
    else s
  | none => s

/-- A reset edge on a point of the group: WELD is released with the mirror showing main open; the pilot
part then needs PILOT_RELEASE (R384). -/
def edgePoint (p : Nat) (s : State) : State :=
  if s.holds p .weld && (s.bp p).mirror then
    clearCause p .weld (s.updBp p fun b => { b with pilKeep := true })
  else s

/-- A reset edge on a group (R385): pairs, the latch, STO faults of its devices, WELD of its points. -/
def edgeGroup (g : Nat) (s : State) : State :=
  let s1 := ((List.range 16).filter fun i => (s.siCfg i).fn = 1 && (s.siCfg i).mask.getLsbD g).foldl
    (fun t i => edgePair i t) s
  let s2 := if s1.groupCause g then { s1 with bridle.edgeIgnored := s1.bridle.edgeIgnored + 1 }
    else { s1 with bridle.latched := putBit s1.bridle.latched g false }
  let s3 := (s2.groupDevs g).foldl (fun t d =>
    edgeDevice d { t with bridle.stoFault := putBit t.bridle.stoFault (t.devCfg d).sto false }) s2
  (s3.groupPoints g).foldl (fun t p => edgePoint p t) s3

/-- A reset edge on the groups and devices it governs: notice kind 11 (R385, R393). -/
def resetEdge (groups : BitVec 16) (devs : BitVec 8) (unit : Nat) (s : State) : State :=
  let s1 := note 11 unit (groups.setWidth 32) s
  let s2 := (bitsOf groups).foldl (fun t g => edgeGroup g t) s1
  evalGroups ((bitsOf devs).foldl (fun t d => edgeDevice d t) s2)

/-- A demand of 100 ms to 3000 ms, in µs (R385). -/
def demandOk (start now : Nat) : Bool := within (start + 100000) now (start + 3000000)

/-! ### The FIFO into the Bridle (03 R67, R68, R75) -/

/-- The Bridle takes no message: before it first leaves LOAD, and in its own reset (R389). -/
def State.bridleDeaf (s : State) : Bool := s.bridle.st = .load || s.bridle.inReset

/-- A reclaim that the Bridle takes (R75): in RUN, for the active points while the window runs and before their shutdown
has begun; any other bit is ignored. -/
def reclaimTake (hi : Bool) (v : Word) (s : State) : State :=
  if !s.bridleRuns then s
  else
    let o := if hi then 32 else 0
    (bitsOf v).foldl (fun t i =>
      let p := o + i
      if t.bridle.window && (t.bp p).active && (t.bp p).shut = 0 then
        t.updBp p fun b => { b with reclaimed := true } else t) s

/-- The reclaims at the front of a list of messages, taken in order. -/
def reclaimFront : List BrMsg → State → State
  | .reclaim hi v :: r, s => reclaimFront r (reclaimTake hi v s)
  | l, s => { s with bridle.fifo := l }

/-- The Bridle takes the reclaims that stand at the front of its FIFO; a safe message in front of one is taken first. -/
def takeReclaims (s : State) : State := if s.bridleDeaf then s else reclaimFront s.bridle.fifo s

/-! ### Faults and start (R371 to R373) -/

/-- A fault of R371: SAFE_N low, heartbeat stopped, the Bridle resets itself; its FIFO is discarded
(R389). On the fourth reset it stays in SAFE. -/
def bridleFault (cause : Nat) (s : State) : State :=
  if s.bridle.st = .load || s.bridle.st = .safe || s.bridle.inReset then s
  else
    let n := s.bridle.restarts + 1
    bridleStatus { s with
      bridle.safeNLow := true, bridle.hbOn := false, bridle.cause := cause, bridle.restarts := min 15 n,
      bridle.fifo := [], power.report := false, bridle.inReset := decide (n ≤ 3),
      bridle.st := if n ≤ 3 then .verify else .safe }

/-- The Bridle stays in SAFE with a cause (R373). -/
def bridleSafe (cause : Nat) (s : State) : State :=
  bridleStatus { s with bridle.st := .safe, bridle.cause := cause, bridle.safeNLow := true, bridle.hbOn := false,
                        power.report := false }

/-- The state in which a device begins (R382). -/
def devBegin (d : Nat) (s : State) : State :=
  if !s.hasDev d then s
  else
    let st : DevSt :=
      if s.devInput 3 d && decide ((s.device d).pos < (s.devCfg d).home) then .retracted
      else if s.devInput 4 d && s.inWindow d then .connected else .stopped
    syncDevice d (s.updDev d fun v => { v with st := st })

/-- The Bridle enters RUN with a configuration: heartbeat, devices, groups (R373, R382). -/
def bridleRun (c : SafCfg) (unsealed : Bool) (slot : Nat) (s : State) : State :=
  let s1 := { s with
    bridle.st := .run, bridle.safeNLow := false, bridle.hbOn := true, bridle.cfg := some c,
    bridle.unsealed := unsealed, bridle.slot := slot, bridle.chal := s.freeBits 16,
    bridle.running := 0xFFFF }.used
  bridleStatus (evalGroups ((List.range 8).foldl (fun t d => devBegin d t) s1))

/-- BRIDLE_RELEASE (R373): only when loaded and measured (R73), else RUN_ERR. -/
def bridleRelease (lockstepOk : Bool) (s : State) : State :=
  if s.bridle.st ≠ .load then s
  else if !s.bridle.loaded then raise 4 { s with app.clk.runErr := true }
  else
    let c := parseCfg s.bridle.cfgBytes
    let s1 := { s with bridle.st := .verify }
    if !lockstepOk then bridleFault 6 s1
    else match s.safeSlot with
      | none => if cfgInRange s.bridle.cfgBytes then bridleRun c true 0 s1 else bridleSafe 5 s1
      | some k =>
        if cfgDigest s.bridle.cfgBytes ≠ s.fuses.safe.get k then bridleSafe 4 { s1 with bridle.slot := k }
        else if cfgInRange s.bridle.cfgBytes then bridleRun c false k s1
        else bridleSafe 5 { s1 with bridle.slot := k }

/-- BRIDLE_RELEASE (R373); messages that waited during LOAD are taken from then on (R389). -/
def execBridleRelease (lockstepOk : Bool) (s : State) : Res := .next (takeReclaims (bridleRelease lockstepOk s))

/-- LOCKSTEP_MISMATCH (R371). -/
def execLockstepMismatch (s : State) : Res := .next (bridleFault 1 s)

/-- BRIDLE_WATCHDOG_EXPIRY (R371). -/
def execBridleWatchdogExpiry (s : State) : Res := .next (bridleFault 2 s)

/-- MARCH_TEST (R392). -/
def execMarchTest (pass : Bool) (s : State) : Res := .next (if pass then s else bridleFault 6 s)

/-- BRIDLE_CODE_CHECK (R392). -/
def execBridleCodeCheck (pass : Bool) (s : State) : Res := .next (if pass then s else bridleFault 3 s)

/-- BRIDLE_OSC_FAIL (R66, R371): SAFE with cause 7 until a cold reset. -/
def execBridleOscFail (s : State) : Res :=
  .next (bridleSafe 7 { s with bridle.oscFail := true, bridle.inReset := false })

/-- BRIDLE_RESTART after its self-reset (R371): heartbeat again with notice kind 12 and RESTART on every
point with a coil channel, or SAFE. Torque stays removed after the safe state, and a device begins as at any start of
the Bridle (R382, assumption 99). -/
def bridleRestart (codeOk configOk : Bool) (s : State) : State :=
  if !s.bridle.inReset then s
  else
    let s1 := { s with bridle.inReset := false }
    if !codeOk then bridleSafe 3 s1
    else if !configOk then bridleSafe 4 s1
    else if s.bridle.cfg.isNone then bridleSafe 5 s1
    else
      let s2 := note 12 s.bridle.cause (BitVec.ofNat 32 s.bridle.restarts)
        { s1 with bridle.st := .run, bridle.hbOn := true, bridle.safeNLow := false,
                  bridle.rx := s1.bridle.rx.updRange 16 fun _ r => { r with last := 0, first := none, rose := none } }
      let s3 := (List.range 8).foldl (fun t d => devBegin d (devOff d t)) s2
      bridleStatus ((List.range 64).foldl (fun t p =>
        if (t.ptCfg p).coil = 0xFF then t else setCause p .restart t) s3)

def execBridleRestart (codeOk configOk : Bool) (s : State) : Res := .next (bridleRestart codeOk configOk s)

/-! ### Mirrors (R377, R378) -/

/-- Main open for a level of the mirror input and the configured polarity (R374). -/
def mainOpen (c : PtCfg) (high : Bool) : Bool := if c.polarity then !high else high

/-- The checks of R377 on a change of the accepted mirror. -/
def mirrorCheck (p : Nat) (s : State) : State :=
  if !(s.ptCfg p).supervised then s
  else if s.coilOn p then
    if !(s.bp p).mirror then s.updBp p fun b => { b with seenClosed := true }
    else if (s.bp p).seenClosed then setCause p .drop s else s
  else if !(s.bp p).mirror then setCause p .weld s else s

/-- MIRROR_CHANGE: 5 equal samples (R376, R377); an input whose path test failed counts as main closed. -/
def execMirrorChange (p : Fin 64) (high : Bool) (s : State) : Res :=
  .next (
    if !s.bridleRuns then s
    else
      let o := mainOpen (s.ptCfg p) high && !s.bridle.mirBad.getLsbD p
      if (s.bp p).mirror = o then s
      else mirrorCheck p (s.updBp p fun b => { b with mirror := o }))

/-- MIRROR_OPEN_TIMEOUT: T_OPEN after the latch went off (R377, first row). -/
def execMirrorOpenTimeout (p : Fin 64) (s : State) : Res :=
  .next (if s.bridleRuns && (s.ptCfg p).supervised && !s.coilOn p && !(s.bp p).mirror then
    setCause p .weld s else s)

/-- MIRROR_CLOSE_TIMEOUT: T_CLOSE after the end of pull-in (R377, third row). -/
def execMirrorCloseTimeout (p : Fin 64) (s : State) : Res :=
  .next (if s.bridleRuns && (s.ptCfg p).supervised && s.coilOn p && (s.bp p).mirror && !(s.bp p).seenClosed then
    setCause p .noclose s else s)

/-- TP_STUCK_REPORT: SWITCH_FAIL for the points of the coil (R378). -/
def execTpStuckReport (n : Fin 64) (s : State) : Res :=
  .next (if !s.bridleRuns then s
    else (s.coilPoints n).foldl (fun t p =>
      if (t.bp p).switchFail then t
      else syncPoint p (note 9 p 0 (t.updBp p fun b => { b with switchFail := true }))) s)

/-! ### Safety inputs (R376, R385, R392) -/

/-- What follows a change of a pair, by its function. -/
def siReact (i : Nat) (was : Bool) (since : Option Nat) (s : State) : State :=
  let c := s.siCfg i
  let now := siActive (s.bridle.si.get i)
  match c.fn with
  | 1 => evalGroups s
  | 2 =>
    (match since with
      | some t => if was && !now && demandOk t s.bridle.time then resetEdge c.mask 0 i s else s
      | none => s)
  | 3 => devInputs c.mask.toNat s
  | 4 => devInputs c.mask.toNat s
  | _ => s

/-- SAFETY_INPUT_CHANGE: the accepted demand of the two channels. -/
def safetyInput (i : Nat) (a b : Bool) (s : State) : State :=
  if !s.bridleRuns then s
  else
    let v := s.bridle.si.get i
    let v1 := { v with a := a, b := b }
    let v2 := { v1 with
      since := if siActive v1 then (if siActive v then v.since else some s.bridle.time) else none,
      clearSince := if a || b then none else if v.clearSince.isSome then v.clearSince else some s.bridle.time }
    siReact i (siActive v) v.since { s with bridle.si := s.bridle.si.set i v2 }

def execSafetyInputChange (i : Fin 16) (a b : Bool) (s : State) : Res := .next (safetyInput i a b s)

/-- SAFETY_INPUT_DISCREPANCY: the pair goes to FAULT and is treated as active (R376). -/
def execSafetyInputDiscrepancy (i : Fin 16) (s : State) : Res :=
  .next (
    let v := s.bridle.si.get i
    if !s.bridleRuns || v.a = v.b || v.fault then s
    else siReact i (siActive v) none
      (note 7 i 0 { s with bridle.si := s.bridle.si.set i { v with fault := true } }))

/-- INPUT_PATH_TEST: a failing input is treated as demand, or as main closed, and noticed (R392). -/
def inputPathTest (u : PathUnit) (pass : Bool) (s : State) : State :=
  if !s.bridleRuns then s
  else match u with
    | .mir p =>
      let bad := s.bridle.mirBad.getLsbD p
      let s1 := { s with bridle.mirBad := putBit s.bridle.mirBad p (!pass) }
      if pass || bad then s1
      else
        let s2 := note 10 p 0 s1
        if (s2.bp p).mirror then mirrorCheck p (s2.updBp p fun b => { b with mirror := false }) else s2
    | .si i =>
      let v := s.bridle.si.get i
      let s1 := { s with bridle.si := s.bridle.si.set i { v with testBad := !pass } }
      if v.testBad = !pass then s1
      else siReact i (siActive v) none (if pass then s1 else note 10 i 0 s1)

def execInputPathTest (u : PathUnit) (pass : Bool) (s : State) : Res := .next (inputPathTest u pass s)

/-! ### Motion (R381, R382) -/

/-- Position in 0.1 mm of a quadrature count (R374, R376); a configuration of no counts per metre gives a free value. -/
def encPos (c : EncCfg) (count : Int) (free : Int) : Int :=
  if c.perMetre = 0 then free else ((if c.invert then -count else count) * 10000).tdiv c.perMetre

/-- Speed in mm/s of a count over the counts of the last 8 ms, newest first (R376). -/
def encSpeed (c : EncCfg) (count : Int) (before : List Int) (free : Int) : Int :=
  if c.perMetre = 0 then free
  else match before.getLast? with
    | none => 0
    | some b => ((if c.invert then b - count else count - b) * 1000000).tdiv (c.perMetre * before.length : Nat)

/-- The Z count is off by more than 4 (R382). -/
def zOff (c : EncCfg) (z : Option Nat) : Bool :=
  match z with
  | none => false
  | some n => c.perZ ≠ 0 && decide (4 < ((n : Int) - c.perZ).natAbs)

/-- The 1 ms sample of a device's encoder (R376, R381). -/
def motionSample (d : Nat) (m : MotionSample) (s : State) : State :=
  let c := s.encCfg (s.devCfg d).enc
  let f := toInt 32 (s.freeBits 32).toNat
  (s.updDev d fun v =>
    let sp := encSpeed c m.count v.counts f
    { v with pos := encPos c m.count f, speed := sp, encBad := m.illegal || zOff c m.z,
             counts := (m.count :: v.counts).take 8, tStop := v.tStop + 1, tMove := v.tMove + 1,
             still := if sp.natAbs * 10 < (s.devCfg d).zero then v.still + 1 else 0 }).used

/-- What follows from a sample (R381, R382). -/
def motionJudge (d : Nat) (s : State) : State :=
  let c := s.devCfg d
  let v := s.device d
  if v.encBad then devFault d 5 s
  else match v.st with
    | .extending | .retracting =>
      if c.vmax < v.speed.natAbs then devFault d 1 s
      else if decide (v.pos < c.posMin) || decide (c.posMax < v.pos) then devFault d 2 s
      else devInputs d s
    | .stopping => if ss1Limit c v.v0 v.tStop < v.speed.natAbs * 10000 then devFault d 4 s else s
    | .connected => devInputs d s
    | _ => s

/-- DEVICE_MOTION_MONITOR. -/
def motionMonitor (d : Nat) (m : MotionSample) (s : State) : State :=
  if !s.bridleRuns || !s.hasDev d then s else motionJudge d (motionSample d m s)

def execDeviceMotionMonitor (d : Fin 8) (m : MotionSample) (s : State) : Res := .next (motionMonitor d m s)

/-- SS1 ends with torque removed (R381). -/
def ss1End (d : Nat) (s : State) : State :=
  if s.bridleRuns && (s.device d).st = .stopping then devGo d .stopped (devOff d s) else s

/-- SS1_STANDSTILL: |v| has stayed below the standstill speed for 50 ms. -/
def execSs1Standstill (d : Fin 8) (s : State) : Res := .next (if 50 ≤ (s.device d).still then ss1End d s else s)

/-- SS1_TIMEOUT: T_SS1 has elapsed. -/
def execSs1Timeout (d : Fin 8) (s : State) : Res :=
  .next (if (s.devCfg d).tss1 ≤ (s.device d).tStop then ss1End d s else s)

/-- DEVICE_MOVE_TIMEOUT: T_MOVE elapsed while moving (R382). -/
def execDeviceMoveTimeout (d : Fin 8) (s : State) : Res :=
  .next (
    let st := (s.device d).st
    if s.bridleRuns && (st = .extending || st = .retracting) && decide (100 * (s.devCfg d).tmove ≤ (s.device d).tMove) then
      devFault d 3 s
    else s)

/-- STO_OFF_PULSE: a stage that is on is switched off for 500 µs; its read-back must follow (R379). -/
def execStoOffPulse (n : Fin 8) (b readback : Bool) (s : State) : Res :=
  .next (
    let l := s.power.sto.get n
    if s.bridleRuns && (if b then l.b else l.a) && !readback then stoFault n s else s)

/-- STO_DISCREPANCY: the stages disagree for 10 ms (R379). -/
def execStoDiscrepancy (n : Fin 8) (s : State) : Res :=
  .next (if s.bridleRuns then stoFault n s else s)

/-! ### Safe messages (R386 to R388) -/

/-- A receive message. -/
def State.updRx (s : State) (i : Nat) (f : SafeRx → SafeRx) : State :=
  { s with bridle.rx := s.bridle.rx.upd i f }

/-- A pair is discarded and counted (R387). -/
def discardPair (s : State) : State := { s with bridle.discard := stick 65535 s.bridle.discard 1 }

/-- A pair is accepted with data `d` (R387); bit 24 gives a reset edge where used (R385). -/
def acceptPair (i : Nat) (c : BitVec 8) (d : Word) (s : State) : State :=
  let cfg := s.rxCfg i
  let r := s.bridle.rx.get i
  let up := bit d 24
  let s1 := s.updRx i fun r =>
    { r with last := c, first := none, d := d, valid := true,
             rose := if up then (if r.rose.isSome then r.rose else some s.bridle.time) else none }
  let s2 := evalGroups s1
  match r.rose with
  | some t =>
    if cfg.resetUsed && !up && demandOk t s.bridle.time then resetEdge cfg.groups cfg.devs i s2 else s2
  | none => s2

/-- The governed bits take the safe value (R387). -/
def safeValue (i : Nat) (s : State) : State := evalGroups (s.updRx i fun r => { r with d := 0, rose := none })

/-- SAFE_MESSAGE_RECEIVE: a copy on F0 or F1 (R387). -/
def safeReceive (i : Nat) (onF1 crcOk : Bool) (c : BitVec 8) (d : Word) (s : State) : State :=
  let cfg := s.rxCfg i
  let r := s.bridle.rx.get i
  if !s.bridleRuns || !cfg.enabled then s
  else if crcOk && decide (r.last ≠ 0) && c = r.last then s
  else match r.first with
    | none => if crcOk then s.updRx i fun r => { r with first := some (onF1, c, d) } else discardPair s
    | some (f1, c1, d1) =>
      let s0 := s.updRx i fun r => { r with first := none }
      if !crcOk then discardPair s0
      else if f1 = onF1 || c1 ≠ c then discardPair (s0.updRx i fun r => { r with first := some (onF1, c, d) })
      else if d ≠ ~~~d1 then safeValue i (discardPair s0)
      else if c ≠ 0 && (r.last = 0 || c = succ8 r.last) then
        acceptPair i c (if onF1 then d1 else d) s0
      else discardPair s0

/-- The CRC of a safe message: over the COB-ID, low byte first, and bytes 0 to 5 (R386). -/
def safeCrc (seed : BitVec 16) (cob : Nat) (body : List Byte) : BitVec 16 := crc16 seed (toLE 2 cob ++ body)

/-- The 8 bytes of a safe message (R386). -/
def safeFrame (seed : BitVec 16) (cob : Nat) (d : Word) (c : BitVec 8) : List Byte :=
  let body := toLE 4 d.toNat ++ [c, 0]
  body ++ toLE 2 (safeCrc seed cob body).toNat

/-- The CRC seed of the configuration. -/
def State.safeSeed (s : State) : BitVec 16 := (s.bridle.cfg.map (·.seed)).getD 0

/-- The CRC of a copy with data `d`, counter `c` and the tail `x` is good (R386). -/
def State.safeCrcOk (s : State) (i : Nat) (onF1 : Bool) (d : Word) (c : BitVec 8) (x : SafeTail) : Bool :=
  x.crc = safeCrc s.safeSeed (if onF1 then (s.rxCfg i).cob1 else (s.rxCfg i).cob0) (toLE 4 d.toNat ++ [c, x.byte5])

/-- SAFE_MESSAGE_RECEIVE: its CRC is computed over the bytes of the frame (R386, R387). -/
def execSafeMessageReceive (i : Fin 16) (onF1 : Bool) (d : Word) (c : Byte) (x : SafeTail) (s : State) : Res :=
  .next (safeReceive i onF1 (s.safeCrcOk i onF1 d c x) c d s)

/-- SAFE_MESSAGE_WINDOW_EXPIRY: the second copy has not arrived within W (R387). -/
def execSafeMessageWindowExpiry (i : Fin 16) (s : State) : Res :=
  .next (if s.bridleRuns && (s.bridle.rx.get i).first.isSome then
    discardPair (s.updRx i fun r => { r with first := none }) else s)

/-- SAFE_MESSAGE_TIMEOUT: T since the last accepted pair (R387). -/
def execSafeMessageTimeout (i : Fin 16) (s : State) : Res :=
  .next (if s.bridleRuns && (s.rxCfg i).enabled then
    safeValue i (note 8 i 0 (s.updRx i fun r => { r with valid := false })) else s)

/-- D of a transmit message (R386). -/
def State.txData (s : State) : Word :=
  let dev := (List.range 8).foldl (fun a d => a + (if (s.device d).permit then 2 ^ d else 0)) 0
  pack [(s.bridle.running.toNat, 0), (dev, 16),
    (b2n ((List.range 64).any fun p => s.holds p .weld), 24), (b2n (decide (s.bridle.restarts ≠ 0)), 25)]

/-- SAFE_MESSAGE_TRANSMIT: into the safe buffers of F0 and F1, which stop during an application reset
(R388). -/
def execSafeMessageTransmit (j : Fin 8) (s : State) : Res :=
  .next (if s.bridleRuns && (s.txCfg j).enabled && !s.inReset then
    { s with bridle.tx := s.bridle.tx.upd j fun t =>
        let c := succ8 t.counter
        { t with counter := c, buf := some (safeFrame s.safeSeed (s.txCfg j).cob0 s.txData c,
                                            safeFrame s.safeSeed (s.txCfg j).cob1 (~~~s.txData) c) } }
    else s)

/-- SAFE_MESSAGE_READBACK_MISSING: counted and noted (R388); the notice is kind 8 with the port in DATA
(assumption 25). -/
def execSafeMessageReadbackMissing (j : Fin 8) (onF1 : Bool) (s : State) : Res :=
  .next (if s.bridleRuns && (s.txCfg j).enabled then
    note 8 j (pack [(1, 31), (b2n onF1, 0)])
      { s with bridle.tx := s.bridle.tx.upd j fun t => { t with missing := t.missing + 1 } }
    else s)

/-! ### Firmware's messages (R389) -/

/-- The Bridle takes a message: in RUN it acts, in VERIFY and SAFE it answers STATE, before that the
message waits; the outcome goes to SAF_POSTRES. The reclaims behind the message in the FIFO are taken next. -/
def bridleTake (ty : BitVec 8) (tag : Word) (f : State → Status × State) (s : State) : State :=
  if s.bridleDeaf then s
  else
    let s0 := { s with bridle.fifo := s.bridle.fifo.drop 1 }
    let r := if s0.bridleRuns then f s0 else (.state, s0)
    takeReclaims { r.2 with bridle.postTag := tag.setWidth 16, bridle.postType := ty, bridle.postSt := r.1 }

/-- A new challenge after an accepted release (R384). -/
def newChallenge (s : State) : State := { s with bridle.chal := s.freeBits 16 }.used

/-- PILOT_RELEASE (R384, R389). -/
def pilotReleaseMsg (u : Nat) (chal : BitVec 16) (s : State) : Status × State :=
  let b := s.bp u
  if 64 ≤ u then (.range, s)
  else if chal ≠ s.bridle.chal then (.stale, s)
  else if !(s.holds u .pilot || b.pilKeep) then (.state, s)
  else if s.holds u .pilot && decide (s.bridle.time < b.faultAt + 1000000) then (.state, s)
  else if s.holds u .earth || s.holds u .group || s.holds u .weld || s.holds u .restart then (.state, s)
  else
    let s1 := s.updBp u fun b => { b with pilKeep := false }
    (.ok, newChallenge (syncPilot u (clearCause u .pilot s1)))

def execPilotRelease (unit : BitVec 8) (chal : BitVec 16) (tag : Word) (s : State) : Res :=
  .next (bridleTake 1 tag (pilotReleaseMsg unit.toNat chal) s)

/-- A point's EARTH cause ends with its last standing unit. -/
def earthDrop (p : Nat) (s : State) : State :=
  if (s.bp p).earthRc || decide ((s.bp p).earthIm ≠ 0) then s else clearCause p .earth s

/-- EARTH_RELEASE (R366, R384, R389): unit 0 to 63 RCp, 64 + k IMk; STATE while the trip or fault stands. -/
def earthReleaseMsg (u : Nat) (chal : BitVec 16) (s : State) : Status × State :=
  if 80 ≤ u then (.range, s)
  else if chal ≠ s.bridle.chal then (.stale, s)
  else if u < 64 then
    if decide (3 ≤ (s.power.rc.get u).st) || !(s.bp u).earthRc then (.state, s)
    else (.ok, newChallenge (earthDrop u (s.updBp u fun b => { b with earthRc := false })))
  else
    let k := u - 64
    let ps := (List.range 64).filter fun p => (s.bp p).earthIm.getLsbD k
    if (s.power.im.get k).st = .fault || ps = [] then (.state, s)
    else (.ok, newChallenge (ps.foldl (fun t p =>
      earthDrop p (t.updBp p fun b => { b with earthIm := putBit b.earthIm k false })) s))

def execEarthRelease (unit : BitVec 8) (chal : BitVec 16) (tag : Word) (s : State) : Res :=
  .next (bridleTake 2 tag (earthReleaseMsg unit.toNat chal) s)

/-- Step 4 of the orderly shutdown: the coil channel is held off (R76). -/
def shutdownCoil (p : Nat) (s : State) : State :=
  let s1 := syncPoint p (s.updBp p fun b => { b with shut := 4 })
  if s.typeNow p = 5 then seqSet (s.boundPort p) true false (seqSet (s.boundPort p) false false s1) else s1

/-- CURRENT (R76, R389): below 1 A the shutdown goes on to step 4. -/
def currentMsg (u : Nat) (ma : Word) (s : State) : Status × State :=
  if 64 ≤ u then (.range, s)
  else if (s.bp u).shut ≠ 2 && (s.bp u).shut ≠ 3 then (.state, s)
  else if ma.toNat < 1000 then (.ok, shutdownCoil u s)
  else (.ok, s.updBp u fun b => { b with shut := 3 })

def execCurrent (unit : BitVec 8) (ma tag : Word) (s : State) : Res :=
  .next (bridleTake 3 tag (currentMsg unit.toNat ma) s)

/-- STOP_REQ (R380, R389): a group stops and, with no cause that latches, runs again (assumption 26);
a device stops. -/
def stopReqMsg (u : Nat) (s : State) : Status × State :=
  if u < 16 then
    (.ok, if s.bridle.running.getLsbD u then evalGroup u (groupStop u s) else s)
  else if u < 24 then (.ok, devStop (u - 16) s)
  else (.range, s)

def execStopReq (unit : BitVec 8) (tag : Word) (s : State) : Res :=
  .next (bridleTake 4 tag (stopReqMsg unit.toNat) s)

/-- The conditions of a motion request (R382). -/
def State.motionOk (s : State) (d : Nat) : Bool :=
  let c := s.devCfg d
  s.hasDev d && s.bridle.running.getLsbD c.grp && !s.motionBarred d && !s.coilOn c.pt && (s.bp c.pt).mirror &&
    !s.bridle.unsealed && !s.bridle.stoFault.getLsbD c.sto

/-- MOTION_REQ (R382, R389). -/
def motionReqMsg (d : Nat) (dir : Word) (s : State) : Status × State :=
  let st := (s.device d).st
  let go := fun (t : DevSt) =>
    (Status.ok, devGo d t (stoSet (s.devCfg d).sto true (s.updDev d fun v => { v with permit := true, tMove := 0 })))
  if 8 ≤ d || (dir ≠ 1 && dir ≠ 2) then (.range, s)
  else if !s.motionOk d then (.state, s)
  else if dir = 1 && (st = .retracted || st = .stopped) then go .extending
  else if dir = 2 && (st = .connected || st = .stopped) then go .retracting
  else (.state, s)

def execMotionReq (unit : BitVec 8) (dir tag : Word) (s : State) : Res :=
  .next (bridleTake 5 tag (motionReqMsg unit.toNat dir) s)

/-- HOLD_RELEASE (R384, R389): NOCLOSE, DROP and RESTART. -/
def holdReleaseMsg (u : Nat) (chal : BitVec 16) (s : State) : Status × State :=
  if 64 ≤ u then (.range, s)
  else if chal ≠ s.bridle.chal then (.stale, s)
  else if !(s.holds u .noclose || s.holds u .drop || s.holds u .restart) then (.state, s)
  else (.ok, newChallenge (clearCause u .restart (clearCause u .drop (clearCause u .noclose s))))

def execHoldRelease (unit : BitVec 8) (chal : BitVec 16) (tag : Word) (s : State) : Res :=
  .next (bridleTake 6 tag (holdReleaseMsg unit.toNat chal) s)

/-- NOTE_ACK (R389, R390). -/
def noteAckMsg (seq : Word) (s : State) : Status × State :=
  let q : BitVec 16 := seq.setWidth 16
  if 65535 < seq.toNat || (s.bridle.newest - s.bridle.acked).toNat < (q - s.bridle.acked).toNat then (.range, s)
  else
    let s1 := { s with bridle.acked := q, bridle.overrun := false }
    (.ok, setLevel 497 (s1.bridle.newest ≠ q) s1)

def execNoteAck (seq tag : Word) (s : State) : Res := .next (bridleTake 7 tag (noteAckMsg seq) s)

/-- UNKNOWN_SAFE_MESSAGE: RANGE (R389). -/
def execUnknownSafeMessage (ty : BitVec 8) (tag : Word) (s : State) : Res :=
  .next (bridleTake ty tag (fun s => (.range, s)) s)

/-! ### Hold window and orderly shutdown (03 R74 to R77) -/

/-- Active points: coil on, lock channel on, or pilot PWM running (R74). -/
def State.pointActive (s : State) (p : Nat) : Bool :=
  s.coilOn p || (decide ((s.ptCfg p).lock < 32) && outIsOn (s.out ((s.ptCfg p).lock + 64))) ||
    (s.pil p).modeAct = 2

/-- The assertion of an application reset: the Bridle records the active points and starts the window;
a further reset within the window does not restart it (R74, R75). -/
def holdWindowStart (s : State) : State :=
  if !s.bridleRuns || s.bridle.window then s
  else { s with bridle.window := true,
                bridle.pts := s.bridle.pts.updRange 64 fun p b =>
                  if b.shut ≠ 0 then b else { b with active := s.pointActive p, reclaimed := false } }

/-- Step 2 of R76 for a point: stop requested, notice kind 3, PWM off. -/
def shutdownStart (p : Nat) (s : State) : State :=
  let s1 := note 3 p 0 (s.updBp p fun b => { b with shut := 2, stopReq := true })
  let s2 := raise 496 s1
  if !s2.power.clkOk || (s2.pil p).held || (s2.pil p).modeAct ≠ 2 && !(s2.pil p).waking then s2
  else s2.updPil p fun q => { q with pend := some (1, 0), waking := false }

/-- HOLD_WINDOW_EXPIRY (R76). -/
def execHoldWindowExpiry (s : State) : Res :=
  .next (
    if !s.bridle.window then s
    else ((List.range 64).filter fun p => (s.bp p).active && !(s.bp p).reclaimed && (s.bp p).shut = 0).foldl
      (fun t p => shutdownStart p t)
      { s with bridle.window := false,
               bridle.pts := s.bridle.pts.updRange 64 fun _ b => if b.reclaimed then { b with active := false } else b })

/-- SHUTDOWN_CURRENT_TIMEOUT: 500 ms after stop requested (R76 step 3). -/
def execShutdownCurrentTimeout (p : Fin 64) (s : State) : Res :=
  .next (if s.bridleRuns && ((s.bp p).shut = 2 || (s.bp p).shut = 3) then shutdownCoil p s else s)

/-- SHUTDOWN_LOCK_RELEASE: 2000 ms after the coil, a monostable lock channel is switched off and the
shutdown of the point ends (R76 step 5). -/
def execShutdownLockRelease (p : Fin 64) (s : State) : Res :=
  .next (
    if !s.bridleRuns || (s.bp p).shut ≠ 4 then s
    else
      let c := s.ptCfg p
      let s1 := if c.lockKind = 1 && decide (c.lock < 32) && s.power.clkOk then outSwitchOff (c.lock + 64) s else s
      syncPoint p (s1.updBp p fun b => { b with shut := 0, stopReq := false, active := false }))

/-- A write of RST_RECLAIM_LO or _HI (R75): a message into the FIFO, refused with BUSY while that is full (R68); the
Bridle takes it when the messages before it are taken. -/
def reclaimWrite (hi : Bool) (v : Word) (s : State) : State :=
  if 8 ≤ s.bridle.fifo.length then busOk 1 s
  else busOk 0 (takeReclaims { s with bridle.fifo := s.bridle.fifo ++ [.reclaim hi v] })

/-- RECLAIM (R75). -/
def execReclaim (hi : Bool) (v : Word) (s : State) : Res := .next (reclaimWrite hi v s)

end Sys2Proof.Machine
end

