-- ==== Sys2Proof/Machine/Buckle.lean ====
section
/-!
DEFINITION. The Buckle interrupt controller (05 R106 to R114): claiming and completing, the KX7064
interface, clears, the sleep latches.
-/
set_option Elab.async false
namespace Sys2Proof.Machine

/-- A source is pending. -/
def State.pends (s : State) (n : Nat) : Bool := !isReserved n && srcPend n (s.app.bkl.src.get n)

/-- Native mode: the source is eligible for target t (R109). -/
def State.eligible (s : State) (t n : Nat) : Bool :=
  let e := s.app.bkl.src.get n
  s.pends n && e.target = t && decide (s.app.bkl.thr.get t < e.level) && !e.insvc

/-- KX7064 mode: enabled, pending and routed to t (R110). -/
def State.kxEligible (s : State) (t n : Nat) : Bool :=
  let e := s.app.bkl.src.get n
  s.pends n && e.target = t && decide (0 < e.level)

/-- A target of the KX7064 interface: 0 to 9 while MODE is 1 (R110). -/
def State.kxTarget (s : State) (t : Nat) : Bool := s.app.bkl.kx && decide (t < 10)

/-- The target's interrupt line (R109, R110). -/
def State.line (s : State) (t : Nat) : Bool :=
  (List.range 512).any fun n => if s.kxTarget t then s.kxEligible t n else s.eligible t n

/-- The eligible source with the highest LEVEL, and among those the lowest number; 0 for none (R109). -/
def State.claimable (s : State) (t : Nat) : Nat :=
  let l := (List.range 512).filter (s.eligible t)
  (([3, 2, 1].filterMap fun v => l.find? fun n => (s.app.bkl.src.get n).level = v).head?).getD 0

/-- A claim sets INSVC and clears an edge source's latch (R109). -/
def claimSource (n : Nat) (s : State) : State :=
  countEvents 5 0 1 (s.updSrc n fun e => { e with insvc := true, latch := false })

/-- A read of BKL_CLAIM_t: 0 for the engines' targets, in KX7064 mode and with nothing eligible. -/
def bklClaim (t : Nat) (s : State) : State :=
  if decide (10 ≤ t) || s.app.bkl.kx then busOk 0 s
  else
    let n := s.claimable t
    if n = 0 then busOk 0 s else busOk (BitVec.ofNat 32 n) (claimSource n s)

/-- BUCKLE_CLAIM (R109). -/
def execBuckleClaim (t : Fin 18) (s : State) : Res := .next (bklClaim t s)

/-- Completing a source in service for t (R109); any other write is ignored. DESIGN CHOICE (log 110): where TARGET was
changed while the source was in service, the target of now completes it. -/
def completeSource (t n : Nat) (s : State) : State :=
  let e := s.app.bkl.src.get n
  if e.insvc && e.target = t then s.updSrc n fun e => { e with insvc := false } else s

/-- A write of BKL_CLAIM_t. -/
def bklComplete (t : Nat) (v : Word) (s : State) : State :=
  if decide (10 ≤ t) || s.app.bkl.kx then s else completeSource t (fld v 0 9) s

/-- BUCKLE_COMPLETE (R109). -/
def execBuckleComplete (t : Fin 18) (v : Word) (s : State) : Res := .next (bklComplete t v s)

/-- The pending bits of sources 32 k to 32 k + 31. -/
def State.pendWord (s : State) (k : Nat) : Word :=
  ((List.range 32).filter fun i => s.pends (32 * k + i)).foldl setEvt 0

/-- A read of BKL_PEND_k; in KX7064 mode it is recorded for its Harness port (R111). -/
def bklPendRead (port k : Nat) (s : State) : State :=
  let w := s.pendWord k
  busOk w (if s.app.bkl.kx then
    { s with app.bkl.lastRead := s.app.bkl.lastRead.set (16 * port + k) w } else s)

/-- BUCKLE_C_PEND_READ (R111). -/
def execBuckleCPendRead (port : Fin 24) (k : Fin 16) (s : State) : Res := .next (bklPendRead port k s)

/-- The pending latches of the edge sources of word k named in `m` are cleared (R108). -/
def clearLatches (k : Nat) (m : Word) (s : State) : State :=
  (bitsOf m).foldl (fun t i =>
    let n := 32 * k + i
    if isReserved n || isLevel n then t else t.updSrc n fun e => { e with latch := false }) s

/-- A write of BKL_C_PEND_k (R110, R111); in native mode the register is read only. -/
def bklPendWrite (port k : Nat) (v : Word) (s : State) : State :=
  if !s.app.bkl.kx then s
  else
    let m := if s.app.bkl.guard then s.app.bkl.lastRead.get (16 * port + k) else 0xFFFFFFFF#32
    clearLatches k (~~~v &&& m) s

/-- BUCKLE_C_PEND_WRITE (R111). -/
def execBuckleCPendWrite (port : Fin 24) (k : Fin 16) (v : Word) (s : State) : Res :=
  .next (bklPendWrite port k v s)

/-- The next source of BKL_C_VEC_t after the last non-zero one returned, with wrap-around (R110). -/
def State.kxNext (s : State) (t : Nat) : Nat :=
  (((List.range 511).map fun i => (s.app.bkl.vec.get t + i) % 511 + 1).find? (s.kxEligible t)).getD 0

/-- A read of BKL_C_VEC_t. -/
def bklVec (t : Nat) (s : State) : State :=
  if s.kxTarget t then
    let n := s.kxNext t
    busOk (BitVec.ofNat 32 n) (if n = 0 then s else { s with app.bkl.vec := s.app.bkl.vec.set t n })
  else busOk 0 s

/-- BUCKLE_C_VEC_READ (R110). -/
def execBuckleCVecRead (t : Fin 18) (s : State) : Res := .next (bklVec t s)

/-- BUCKLE_PEND_CLEAR: a write of BKL_PENDCLR_k (R108). -/
def execBucklePendClear (k : Fin 16) (v : Word) (s : State) : Res := .next (clearLatches k v s)

/-- A write of BKL_SWSET (R107). -/
def bklSwset (v : Word) (s : State) : State :=
  (bitsOf (v.setWidth 8)).foldl (fun t i => raise (504 + i) t) s

/-- BUCKLE_SOFTWARE_SET (R107). -/
def execBuckleSoftwareSet (v : Word) (s : State) : Res := .next (bklSwset v s)

/-- A source is in service. -/
def State.anyInService (s : State) : Bool := s.app.bkl.src.cells.any fun c => c.2.insvc

/-- A write of BKL_CFG (R110): a MODE change is ignored with CFG_ERR while a source is in service; a
change of MODE restarts the search of BKL_C_VEC. -/
def bklCfgWrite (v : Word) (s : State) : State :=
  let b := s.app.bkl
  let locked := b.lock
  let want := if locked then b.kx else bit v 0
  let bad := want ≠ b.kx && s.anyInService
  let kx := if bad then b.kx else want
  { s with
    app.bkl.lock := b.lock || bit v 31,
    app.bkl.cfgErr := (b.cfgErr && !bit v 30) || bad,
    app.bkl.guard := if locked then b.guard else bit v 1,
    app.bkl.kx := kx,
    app.bkl.vec := if kx = b.kx then b.vec else ⟨0, []⟩ }

/-- BUCKLE_CFG_WRITE (R110). -/
def execBuckleCfgWrite (v : Word) (s : State) : Res := .next (bklCfgWrite v s)

/-- BUCKLE_SOURCE_EDGE (R108). -/
def execBuckleSourceEdge (src : Fin 512) (s : State) : Res := .next (raise src s)

/-- BUCKLE_LEVEL_CHANGE (R108). -/
def execBuckleLevelChange (src : Fin 512) (level : Bool) (s : State) : Res := .next (setLevel src level s)

/-- Transfer of one sleep latch into the pending latch (R113). -/
def BklSrc.transfer (n : Nat) (e : BklSrc) : BklSrc :=
  if !e.slp then e
  else if isLevel n then { e with slp := false }
  else { e with slp := false, ovr := e.ovr || e.latch, latch := true }

/-- The sleep latches are transferred into the pending latches once the clock runs (R113); an edge that meets a set
latch is merged (R108, R120). -/
def transferSleep (s : State) : State :=
  let merged := (s.app.bkl.src.cells.filter fun c => c.2.slp && !isLevel c.1 && c.2.latch).length
  let src := s.app.bkl.src.updAll ((s.app.bkl.src.cells.filter fun c => c.2.slp).map (·.1)) BklSrc.transfer
  countEvents 5 1 merged { s with app.bkl.src := src }

/-- Waking a target: a core leaves WFI; a Rein engine takes its event (R113). -/
def wakeTarget (t : Nat) (s : State) : State :=
  if t < 10 then { s with app.harts := s.app.harts.upd (targetHart t) fun h => { h with wfi := false } } else s

/-- The captured sources whose WAKE bit is 1. -/
def State.waking (s : State) : List Nat :=
  (s.app.bkl.src.cells.filter fun c => !isReserved c.1 && c.2.slp && c.2.wake).map (·.1)

/-- A captured source with WAKE set starts the clock; every such source wakes its target (R113). -/
def sleepWake (n : Nat) (s : State) : State :=
  if s.gated && s.waking.contains n then
    s.waking.foldl (fun t m => wakeTarget (s.app.bkl.src.get m).target t)
      (transferSleep (countEvents 5 2 s.waking.length s))
  else s

/-- SLEEP_LATCH_WAKE (R113). -/
def execSleepLatchWake (src : Fin 512) (s : State) : Res := .next (sleepWake src s)

/-! ### BKL_SRC_s and the other registers, for the bus -/

/-- The word of BKL_SRC_s. -/
def State.bklSrcWord (s : State) (n : Nat) : Word :=
  if isReserved n then 0
  else
    let e := s.app.bkl.src.get n
    pack [(b2n (!isLevel n), 31), (b2n e.insvc, 18), (b2n e.ovr, 17), (b2n (srcPend n e), 16),
      (e.target, 8), (b2n e.wake, 3), (e.level, 0)]

/-- A write of BKL_SRC_s: a TARGET of 18 to 31 leaves the field unchanged. -/
def bklSrcWrite (n : Nat) (v : Word) (s : State) : State :=
  if isReserved n then s
  else
    let t := fld v 8 5
    let lock := s.app.bkl.lock
    s.updSrc n fun e =>
      { e with ovr := e.ovr && !bit v 17, target := if lock || decide (18 ≤ t) then e.target else t,
               wake := bit v 3, level := fld v 0 2 }

end Sys2Proof.Machine
end

