-- ==== Sys2Proof/Machine/Earth.lean ====
section
/-!
DEFINITION. Earth supervision (14 R358 to R367): residual-current inputs, insulation monitoring and the
earth-fault frame at the Bridle. Measured voltages are operands; rounding of the shown values is toward
zero (assumption 22).
-/
set_option Elab.async false
namespace Sys2Proof.Machine

/-! ### Residual current -/

/-- Changing an input. -/
def State.updRc (s : State) (n : Nat) (f : RcCh → RcCh) : State :=
  { s with power.rc := s.power.rc.upd n f }

/-- An event bit of an input; a new one raises source 320 + n (R367). -/
def rcEvt (n i : Nat) (s : State) : State :=
  if bit (s.power.rc.get n).evt i then s
  else laneRaise (320 + n) (s.updRc n fun c => { c with evt := setEvt c.evt i })

/-- A trip is in force: states TRIP_DC, TRIP_AC, SENSOR. -/
def rcTripped (c : RcCh) : Bool := decide (3 ≤ c.st)

/-- A 20 ms window as R359 judges it. -/
structure RcWindow where
  /-- |IDC| × SCALE in 0.01 mA. -/
  dc : Nat
  /-- IAC × SCALE in 0.01 mA. -/
  ac : Nat
  /-- mean input voltage outside 0.10 V to 3.20 V (R358). -/
  out : Bool

/-- The window's deviation from 1.650 V and its RMS, in µV (R358). -/
def rcWindow (meanUv : Int) (rmsUv : Nat) : RcWindow :=
  { dc := (meanUv - 1650000).natAbs, ac := rmsUv, out := decide (meanUv < 100000) || decide (3200000 < meanUv) }

/-- The rows of R359 that a window meets, with the windows each needs. THR_DC counts 0.1 mA, THR_AC mA. -/
def rcRows (cfg : Word) (w : RcWindow) : List (Bool × Nat) :=
  let sc := fld cfg 8 8
  let dc := fld cfg 16 8 * 10 * sc
  let ac := fld cfg 24 8 * 100 * sc
  [(decide (dc ≤ w.dc), 50), (decide (10 * dc ≤ w.dc), 5), (decide (33 * dc ≤ w.dc), 2),
   (decide (ac ≤ w.ac), 5), (decide (5 * ac ≤ w.ac), 2), (w.out, 2)]

/-- The runs after a window: a row the window does not meet starts again (R359). -/
def rcRuns : List (Bool × Nat) → List Nat → List Nat
  | [], _ => []
  | (m, _) :: rs, [] => (if m then 1 else 0) :: rcRuns rs []
  | (m, _) :: rs, n :: ns => (if m then n + 1 else 0) :: rcRuns rs ns

/-- The first row whose run is complete. -/
def rcDecides : List (Bool × Nat) → List Nat → Nat → Option Nat
  | (_, need) :: rs, n :: ns, i => if need ≤ n then some i else rcDecides rs ns (i + 1)
  | _, _, _ => none

/-- Both quantities below 50 % of their thresholds (R359, R360). -/
def rcLow (cfg : Word) (w : RcWindow) : Bool :=
  let sc := fld cfg 8 8
  decide (2 * w.dc < fld cfg 16 8 * 10 * sc) && decide (2 * w.ac < fld cfg 24 8 * 100 * sc)

/-- The state a deciding row leads to. -/
def rcTripState (row : Nat) : Nat := if row ≤ 2 then 3 else if row ≤ 4 then 4 else 5

/-- RC_WINDOW_END (R358, R359). -/
def rcEnd (n : Nat) (meanUv : Int) (rmsUv : Nat) (s : State) : State :=
  let c := s.power.rc.get n
  if !bit c.cfg 0 then s
  else
    let w := rcWindow meanUv rmsUv
    let sc := fld c.cfg 8 8
    let rows := rcRows c.cfg w
    let runs := rcRuns rows c.runs
    let low := rcLow c.cfg w
    let s1 := s.updRc n fun c =>
      { c with idc := clampInt (-32768) 32767 ((meanUv - 1650000).tdiv sc), iac := min 65535 (rmsUv / sc),
               runs := runs, low := if low then min 5 (c.low + 1) else 0, inRange := !w.out }
    if rcTripped c then s1
    else
      match rcDecides rows runs 0 with
      | some row =>
        let s2 := s1.updRc n fun c => { c with st := rcTripState row, trips := stick 65535 c.trips 1 }
        rcEvt n (if row = 5 then 2 else 0) s2
      | none =>
        let s2 := s1.updRc n fun c => { c with st := if low then 1 else 2 }
        if !low && c.st ≠ 2 then rcEvt n 1 s2 else s2

def execRcWindowEnd (n : Fin 64) (meanUv : Int) (rmsUv : Nat) (s : State) : Res :=
  .next (rcEnd n meanUv rmsUv s)

/-- RC_CLEAR (R360). -/
def rcClear (n : Nat) (s : State) : State :=
  let c := s.power.rc.get n
  if rcTripped c && c.low = 5 && c.inRange then
    rcEvt n 3 (s.updRc n fun c => { c with st := 1, runs := [0, 0, 0, 0, 0, 0] })
  else rcEvt n 4 s

def execRcClear (n : Fin 64) (s : State) : Res := .next (powerWrite (rcClear n) s)

/-- RC_CFG_WRITE (R367): ignored as a whole during a trip; a value outside its range is ignored. -/
def rcCfgWrite (n : Nat) (v : Word) (s : State) : State :=
  let c := s.power.rc.get n
  if rcTripped c then rcEvt n 5 s
  else
    let okAc := decide (6 ≤ fld v 24 8)
    let okDc := decide (20 ≤ fld v 16 8)
    let okSc := decide (10 ≤ fld v 8 8)
    let m := (if okAc then mask 24 8 else 0) ||| (if okDc then mask 16 8 else 0) |||
      (if okSc then mask 8 8 else 0) ||| 1
    let cfg := wRW m c.cfg v
    let s1 := s.updRc n fun c =>
      { c with cfg := cfg, st := if bit cfg 0 then (if c.st = 0 then 1 else c.st) else 0,
               runs := if bit cfg 0 then c.runs else [0, 0, 0, 0, 0, 0] }
    if okAc && okDc && okSc then s1 else rcEvt n 5 s1

def execRcCfgWrite (n : Fin 64) (v : Word) (s : State) : Res := .next (powerWrite (rcCfgWrite n v) s)

/-! ### Insulation monitoring -/

/-- Changing a channel. -/
def State.updIm (s : State) (k : Nat) (f : ImCh → ImCh) : State :=
  { s with power.im := s.power.im.upd k f }

/-- An event bit of a channel; a new one raises source 304 + k (R367). -/
def imEvt (k i : Nat) (s : State) : State :=
  if bit (s.power.im.get k).evt i then s
  else laneRaise (304 + k) (s.updIm k fun c => { c with evt := setEvt c.evt i })

/-- A channel injects while enabled and not paused (R362). -/
def imInjects (c : ImCh) : Bool := c.st = .settling || c.st = .ok || c.st = .warn || c.st = .fault

/-- Four times ΔV of two plateaus, in µV (R361). -/
def imDelta (a b : Plateau) : Nat := ((a.vp + a.vn) - (b.vp + b.vn)).natAbs

/-- Riso in kΩ from 4 × ΔV in µV (R361); FFFFh above the range of 5 MΩ and where 1/Rp ≤ 2/Rs. -/
def imRiso (c : ImCh) (d4 : Nat) : Nat :=
  let rs := fld c.net 16 16 * 10
  let n := fld c.net 0 16 * d4
  let d := 4000000 * c.vinj - d4
  let q := n * rs / (d * rs - 2 * n)
  if d * rs ≤ 2 * n then 0xFFFF else if 5000 < q then 0xFFFF else q

/-- The pole of R361. -/
def imPole (a b : Plateau) : Nat :=
  let vp := a.vp + b.vp
  let vn := a.vn + b.vn
  if decide (4 * (vp.natAbs : Int) < vp - vn) then 1
  else if decide (4 * (vn.natAbs : Int) < vp - vn) then 2 else 0

/-- A result moves the channel (R363). -/
def imResult (k r : Nat) (s : State) : State :=
  let c := s.power.im.get k
  let rwarn := fld c.thr 0 16
  let rfault := fld c.thr 16 16
  let two := decide (r < rfault) && (match c.results with | p :: _ => decide (p < rfault) | [] => false)
  let s1 := imEvt k 0 (s.updIm k fun c => { c with riso := r, results := r :: c.results.take 1 })
  if c.st = .fault then s1
  else if rwarn ≤ r then s1.updIm k fun c => { c with st := .ok }
  else if two then imEvt k 2 (s1.updIm k fun c => { c with st := .fault })
  else
    let s2 := s1.updIm k fun c => { c with st := .warn }
    if c.st = .warn then s2 else imEvt k 1 s2

/-- IM_HALF_PERIOD_END (R361, R362): `vp`, `vn` and `span` are sense-ball voltages in µV; DIV times them is at the bus. -/
def imHalf (k : Nat) (vp vn : Int) (span : Nat) (s : State) : State :=
  let c := s.power.im.get k
  if !imInjects c then s
  else
    let p : Plateau := ⟨vp * c.div, vn * c.div, span * c.div⟩
    let s1 := s.updIm k fun c => { c with plat := some p }
    match c.plat with
    | none => s1
    | some q =>
      let d4 := imDelta p q
      if decide (200 * p.span < d4) && decide (200 * q.span < d4) then
        imResult k (imRiso c d4) (s1.updIm k fun c =>
          { c with pole := imPole p q, vp := (p.vp + q.vp).tdiv 2000000, vn := (p.vn + q.vn).tdiv 2000000 })
      else imEvt k 3 s1

def execImHalfPeriodEnd (k : Fin 16) (vp vn : Int) (span : Nat) (s : State) : Res :=
  .next (imHalf k vp vn span s)

/-- Entering a state with the measurement started afresh. -/
def imStart (k : Nat) (st : ImSt) (s : State) : State :=
  s.updIm k fun c => { c with st := st, plat := none, results := [] }

/-- IM_ENABLE: EN is set (R363). -/
def imEnable (k : Nat) (s : State) : State :=
  let c := s.power.im.get k
  let s1 := s.updIm k fun c => { c with en := true }
  if c.st = .off then imStart k (if c.pause then .paused else .settling) s1 else s1

def execImEnable (k : Fin 16) (s : State) : Res := .next (powerWrite (imEnable k) s)

/-- IM_DISABLE: EN is cleared; in FAULT it is ignored with CFG_ERR (R363). -/
def imDisable (k : Nat) (s : State) : State :=
  if (s.power.im.get k).st = .fault then imEvt k 6 s
  else imStart k .off (s.updIm k fun c => { c with en := false })

def execImDisable (k : Fin 16) (s : State) : Res := .next (powerWrite (imDisable k) s)

/-- IM_PAUSE: PAUSE is set; in FAULT it is ignored with CFG_ERR (R362, R363). -/
def imPause (k : Nat) (s : State) : State :=
  let c := s.power.im.get k
  if c.st = .fault then imEvt k 6 s
  else
    let s1 := s.updIm k fun c => { c with pause := true }
    if c.st = .off || c.st = .paused then s1 else imStart k .paused s1

def execImPause (k : Fin 16) (s : State) : Res := .next (powerWrite (imPause k) s)

/-- IM_RESUME: PAUSE is cleared (R363). -/
def imResume (k : Nat) (s : State) : State :=
  let c := s.power.im.get k
  let s1 := s.updIm k fun c => { c with pause := false }
  if c.st = .paused then imStart k .settling s1 else s1

def execImResume (k : Fin 16) (s : State) : Res := .next (powerWrite (imResume k) s)

/-- IM_CLEAR (R363). -/
def imClear (k : Nat) (s : State) : State :=
  let c := s.power.im.get k
  let rwarn := fld c.thr 0 16
  if c.st = .fault && c.results.length = 2 && c.results.all (fun r => decide (rwarn ≤ r)) then
    imEvt k 4 (s.updIm k fun c => { c with st := .ok })
  else imEvt k 5 s

def execImClear (k : Fin 16) (s : State) : Res := .next (powerWrite (imClear k) s)

/-- The channel takes configuration writes: OFF or PAUSED (R367). -/
def imOpen (c : ImCh) : Bool := c.st = .off || c.st = .paused

/-- A write of IMD_CFG: EN and PAUSE are always taken, subject to R363; the rest only in OFF and PAUSED,
else CFG_ERR where it would change (R367). -/
def imCfgWrite (k : Nat) (v : Word) (s : State) : State :=
  let c := s.power.im.get k
  let ht := fld v 8 8
  let vi := fld v 4 4
  let changes := decide (ht ≠ c.halfT) || decide (vi ≠ c.vinj)
  let okH := within 2 ht 50
  let okV := within 1 vi 5
  let s1 := if imOpen c then
      s.updIm k fun c => { c with halfT := if okH then ht else c.halfT, vinj := if okV then vi else c.vinj }
    else s
  let s2 := if (!imOpen c && changes) || (imOpen c && !(okH && okV)) then imEvt k 6 s1 else s1
  let s3 := if bit v 1 = c.pause then s2 else if bit v 1 then imPause k s2 else imResume k s2
  if bit v 0 = c.en then s3 else if bit v 0 then imEnable k s3 else imDisable k s3

/-- A write of IMD_NET (R367). -/
def imNetWrite (k : Nat) (v : Word) (s : State) : State :=
  let okS := decide (1 ≤ fld v 16 16)
  let okI := decide (10 ≤ fld v 0 16)
  if !imOpen (s.power.im.get k) then imEvt k 6 s
  else
    let s1 := s.updIm k fun c => { c with
      net := wRW ((if okS then mask 16 16 else 0) ||| (if okI then mask 0 16 else 0)) c.net v }
    if okS && okI then s1 else imEvt k 6 s1

/-- A write of IMD_DIV (R367). -/
def imDivWrite (k : Nat) (v : Word) (s : State) : State :=
  if imOpen (s.power.im.get k) && within 1 (fld v 0 16) 1000 then
    s.updIm k fun c => { c with div := fld v 0 16 }
  else imEvt k 6 s

/-- A write of IMD_THR: RWARN must exceed RFAULT (R367). -/
def imThrWrite (k : Nat) (v : Word) (s : State) : State :=
  if imOpen (s.power.im.get k) && decide (fld v 16 16 < fld v 0 16) then
    s.updIm k fun c => { c with thr := v }
  else imEvt k 6 s

/-! ### The earth-fault frame at the Bridle (R365, R383) -/

/-- The Bridle in RUN holds off the points concerned with the cause EARTH. -/
def earthFrame (u : EarthUnit) (s : State) : State :=
  if !s.bridleRuns then s
  else match u with
    | .rc n => setCause n .earth (s.updBp n fun b => { b with earthRc := true })
    | .im k =>
      (bitsOf (s.imMask k)).foldl (fun t p =>
        setCause p .earth (t.updBp p fun b => { b with earthIm := putBit b.earthIm k true })) s

def execEarthFaultFrame (u : EarthUnit) (s : State) : Res := .next (earthFrame u s)

end Sys2Proof.Machine
end

