-- ==== Sys2Proof/Machine/Values.lean ====
section
/-!
DEFINITION. The values of dictionary entries kept by the control die, as written last (06 R122, R128).
-/
set_option Elab.async false
namespace Sys2Proof.Machine

/-- The value of an entry: as written, or its default. -/
def State.oval (s : State) (idx sub : Nat) : List Byte :=
  match s.obj.live.get (idx * 256 + sub) with
  | some v => v
  | none => ((objAt false idx sub).map (·.dflt)).getD []

/-- The number of an entry's value. -/
def State.onum (s : State) (idx sub : Nat) : Nat := ofLE (s.oval idx sub)

/-- Writing an entry's value. -/
def State.setObj (s : State) (idx sub : Nat) (v : List Byte) : State :=
  { s with obj.live := s.obj.live.set (idx * 256 + sub) (some v) }

/-- The base index of a point's entries (R123). -/
def ptBase (p : Nat) : Nat := 0x3000 + 0x40 * p

/-- A volatile entry's value. -/
def State.vval (s : State) (idx sub : Nat) : List Byte :=
  match s.app.server.vol.get (idx * 256 + sub) with
  | some v => v
  | none => ((objAt false idx sub).map (·.dflt)).getD []

/-- Writing a volatile entry's value. -/
def State.setVol (s : State) (idx sub : Nat) (v : List Byte) : State :=
  { s with app.server.vol := s.app.server.vol.set (idx * 256 + sub) (some v) }

end Sys2Proof.Machine
end

