-- ==== Sys2Proof/Machine/Plc.lean ====
section
/-!
DEFINITION. The Green PHY channels and mains ports: lifecycle, SLAC arbitration and frames (08 R170 to
R188). Channel n below 64 is Gn; 64 and 65 are M0 and M1.
-/
set_option Elab.async false
namespace Sys2Proof.Machine

/-! ### A channel and its source -/

/-- A channel. -/
def State.plc (s : State) (n : Nat) : PlcCh := s.app.plc.ch.get n

/-- A channel asks for service (R188). -/
def PlcCh.asks (c : PlcCh) : Bool := c.evt ≠ 0 || !c.rx.isEmpty || !c.done.isEmpty

/-- Changing a channel; source 112 + n follows (R188). -/
def State.updPlc (s : State) (n : Nat) (f : PlcCh → PlcCh) : State :=
  let s1 := { s with app.plc.ch := s.app.plc.ch.upd n f }
  setLevel (112 + n) (s1.plc n).asks s1

/-- An event bit of PLC_EVT_n. -/
def plcEvt (i : Nat) (c : PlcCh) : PlcCh := { c with evt := setEvt c.evt i }

/-- STATE takes a value; a change sets STATE_CHG. -/
def plcGo (st : PlcSt) (c : PlcCh) : PlcCh := if c.st = st then c else plcEvt 0 { c with st := st }

/-- A mains port. -/
def isMains (n : Nat) : Bool := decide (64 ≤ n)

/-- Transmission is disabled by PLL_P or VANA (R183). -/
def State.txDisabled (s : State) : Bool := s.app.clk.pllP || s.app.clk.vana

/-- A selection and what came of it are discarded (R181). -/
def plcUnselect (c : PlcCh) : PlcCh := { c with sel := none, valReq := false, win := none, valid := false, hset := [] }

/-- NMK, station and selection are discarded. -/
def plcForget (c : PlcCh) : PlcCh := { plcUnselect c with nmk := none, mac := none, runs := [], stations := [] }

/-- A completion is queued; the queue holds 16 (assumption 38). -/
def plcDone (x : PlcDone) (c : PlcCh) : PlcCh :=
  if 16 ≤ c.done.length then c else { c with done := c.done ++ [x] }

/-- Queued frames fail with STATE (R181). -/
def plcFailAll (c : PlcCh) : PlcCh :=
  { c.txq.foldl (fun d t => plcDone ⟨t.tag, t.tries, .state⟩ d) c with txq := [] }

/-! ### Beacon grid (R175, R176, R187) -/

/-- The beacon period in 25 MHz ticks. -/
def beaconTicks (c : PlcCh) : Nat := if bit c.cfg 0 then 833333 else 1000000

/-- Offset of a channel in the beacon period (R176). -/
def beaconOffset (n : Nat) (c : PlcCh) : Nat :=
  let t := beaconTicks c
  if n < 64 then n % 8 * (t / 8) else if n = 64 then 0 else t / 2

/-- The channel's next grid time at or after a counter value. -/
def nextBeacon (n : Nat) (c : PlcCh) (now : Nat) : Nat :=
  let t := beaconTicks c
  let o := beaconOffset n c
  if now ≤ o then o else o + (now - o + t - 1) / t * t

/-! ### Lifecycle (R180, R181) -/

/-- A ticket of kind 1 that is granted for the channel (R89). -/
def State.plcTicket (s : State) (n ticket : Nat) : Bool :=
  s.app.girth.grants.any fun g => g.ticket = ticket && g.kind = 1 && g.unit = n

/-- A channel is started: any state but OFF, or a mains port awaiting its first beacon. -/
def PlcCh.on (c : PlcCh) : Bool := c.st ≠ .off || c.started

/-- A channel started with another beacon period (R175). -/
def State.bpDiffers (s : State) (n : Nat) : Bool :=
  (List.range 66).any fun m => m ≠ n && (s.plc m).on && bit (s.plc m).cfg 0 ≠ bit (s.plc n).cfg 0

/-- The status of START (R175, R180). -/
def State.plcStartStatus (s : State) (n ticket : Nat) : Status :=
  let c := s.plc n
  if c.on || s.txDisabled then .state
  else if (if isMains n then !s.power.lines.getLsbD (n - 64) else !s.plcTicket n ticket) then .state
  else if s.bpDiffers n then .range
  else .ok

/-- The entries that firmware takes at a channel's start (R189): the highest unicast mode of a pilot channel, the
coupling of a mains port, where the host has written them. -/
def plcTake (n : Nat) (s : State) : State :=
  let key := if isMains n then (0x2101 + (n - 64)) * 256 + 2 else (ptBase n + 4) * 256 + 5
  match s.obj.live.get key with
  | some v => if (s.plc n).on then s else s.updPlc n fun c =>
      { c with cfg := if isMains n then putFld c.cfg 28 2 (ofLE v) else putFld c.cfg 8 4 (ofLE v) }
  | none => s

/-- The NMK that the Tack room holds for a mains port, slots 6 and 7 (R181; 16 R405). -/
def State.mainsNmk (s : State) (n : Nat) : Option (BitVec 128) :=
  let k := s.app.tack.slots.get (6 + (n - 64))
  if s.app.tack.st = 2 && fld k.attr 12 4 = 8 then some (BitVec.ofNat 128 (ofLE (k.content.take 16))) else none

/-- The NID of an NMK at security level 0 (R181). The level stands above the 52 derived bits (PRESUMED, assumption 121). -/
def nidOf (nmk : BitVec 128) : BitVec 56 := (Config.nidOffset nmk).setWidth 56

/-- START with the ticket of the same write (R180): the first beacon comes at the channel's next grid time, where NTB will
read 0 (R187). A mains port runs with the Tack room's NMK (R181). -/
def plcStart (n : Nat) (v : Word) (s : State) : State :=
  let st := s.plcStartStatus n (fld v 16 16)
  if st ≠ .ok then s.updPlc n fun c => { c with status := st }
  else
    let first := nextBeacon n (s.plc n) s.cold.grid
    let start := fun c : PlcCh =>
      { plcForget c with status := .ok, halted := false, ntb0 := some (first : Int), beaconAt := first, change := none }
    if isMains n then
      let k := s.mainsNmk n
      (s.updPlc n fun c =>
        { start c with started := true, nmk := k, nid := (k.map nidOf).getD 0, nek := s.freeBits 128 }).used
    else s.updPlc n fun c => plcGo .slacWait (start c)

/-- PLC_START (R180). -/
def execPlcStart (n : Fin 66) (v : Word) (s : State) : Res := .next (plcStart n v (plcTake n s))

/-- STOP (R181): in any state except OFF and STOPPING. -/
def plcStop (n : Nat) (s : State) : State :=
  let c := s.plc n
  if c.st = .off || c.st = .stopping then s
  else s.updPlc n fun c => plcGo .stopping { c with started := false }

/-- PLC_STOP (R181). -/
def execPlcStop (n : Fin 66) (s : State) : Res := .next (plcStop n s)

/-- The channel reaches OFF: queued frames fail, the standing cost of kind 1 ends. -/
def plcOff (n : Nat) (s : State) : State :=
  let s1 := s.updPlc n fun c => plcGo .off (plcFailAll { plcForget c with started := false })
  if isMains n then s1 else girthUnitOff 1 n s1

/-- PLC_STOPPING_END (R181). -/
def execPlcStoppingEnd (n : Fin 66) (s : State) : Res :=
  .next (if (s.plc n).st = .stopping then plcOff n s else s)

/-- An event of R183 moves every channel to OFF with TX_HALT. -/
def plcHalt (s : State) : State :=
  (List.range 66).foldl (fun t n =>
    if (t.plc n).on then (plcOff n t).updPlc n fun c => plcEvt 5 { c with halted := true } else t) s

/-- RESLAC (R181); mains ports ignore it. -/
def plcReslac (n : Nat) (s : State) : State :=
  let st := (s.plc n).st
  if isMains n || !(st = .slacRun || st = .matched || st = .linked) then s
  else s.updPlc n fun c => plcGo .slacWait (plcForget c)

/-- PLC_RESLAC (R181). -/
def execPlcReslac (n : Fin 66) (s : State) : Res := .next (plcReslac n s)

/-- The beacon of a channel's grid time is sent in MINI-ROBO (R170, R176). It carries the schedule, persistent for 3 periods,
and in the 3 beacons before it a change; when the Stitcher changes a schedule, and to what, is a free value (R178). -/
def sendBeacon (s : State) (c : PlcCh) : PlcCh :=
  let ch := match c.change with
    | some x => some x
    | none => if (s.freeBits 17).getLsbD 16 then some ((s.freeBits 17).setWidth 16, 3) else none
  let c1 := { c with lastBeacon := some { time := c.beaconAt, sched := c.sched, announce := ch },
                     beaconAt := c.beaconAt + beaconTicks c }
  match ch with
  | some (x, 1) => { c1 with sched := x, change := none }
  | some (x, k) => { c1 with change := some (x, k - 1) }
  | none => { c1 with change := none }

/-- The grid time of a channel has come: it lies in the present ms, the resolution of the model's counter (assumption 2). -/
def State.gridTime (s : State) (n : Nat) : Bool := decide ((s.plc n).beaconAt < s.cold.grid + 25000)

/-- A channel's grid time (R176, R178): the beacon is sent, in one of the 8 places that the arbiter reserves, so that nothing
delays it (R177); or it is skipped because of an event of R183. -/
def beacon (n : Nat) (s : State) : State :=
  let c := s.plc n
  if c.halted && s.txDisabled then
    s.updPlc n fun c => plcEvt 3 { c with skips := stick 65535 c.skips 1 }
  else if !c.on || !s.gridTime n then s
  else (s.updPlc n fun c =>
    let c1 := sendBeacon s c
    if isMains n && c.started then plcGo .linked { c1 with started := false } else c1).used

/-- BEACON (R176). -/
def execBeacon (n : Fin 66) (s : State) : Res := .next (beacon n s)

/-- No MPDU from the station for 5 s (R181). -/
def plcLinkLost (n : Nat) (s : State) : State :=
  let st := (s.plc n).st
  if isMains n || !(st = .matched || st = .linked) then s
  else s.updPlc n fun c => plcEvt 2 (plcGo .slacWait (plcForget c))

/-- PLC_LINK_LOST (R181). -/
def execPlcLinkLost (n : Fin 66) (s : State) : Res := .next (plcLinkLost n s)

/-- NEK_RENEWAL (R181): a fresh NEK for a network that has one. -/
def execNekRenewal (n : Fin 66) (s : State) : Res :=
  let st := (s.plc n).st
  .next (if st = .matched || st = .linked then
    (s.updPlc n fun c => { c with nek := s.freeBits 128 }).used else s)

/-! ### SLAC (R184 to R186) -/

/-- The point's accepted pilot state is B, C or D and DUTY_ACT is 50 (R184). -/
def State.pilotReady (s : State) (n : Nat) : Bool :=
  let q := s.pil n
  (q.st = .b || q.st = .c || q.st = .d) && q.dutyAct = 50

/-- The channel is in SLAC_WAIT or SLAC_RUN and its point is ready. -/
def State.slacReady (s : State) (n : Nat) : Bool :=
  let st := (s.plc n).st
  !isMains n && (st = .slacWait || st = .slacRun) && s.pilotReady n

/-- Eligible for a new RunID (R184). -/
def State.slacEligible (s : State) (n : Nat) (r : BitVec 64) : Bool :=
  s.slacReady n && ((s.plc n).sel = none || (s.plc n).sel = some r)

/-- CM_SLAC_PARM.REQ (R181). -/
def slacParm (n : Nat) (r : BitVec 64) (s : State) : State :=
  if s.slacEligible n r then
    s.updPlc n fun c => plcGo .slacRun { c with runs := if c.runs.contains r then c.runs else c.runs ++ [r] }
  else s

/-- SLAC_PARM_REQ (R181). -/
def execSlacParmReq (n : Fin 66) (runId : BitVec 64) (s : State) : Res := .next (slacParm n runId s)

/-- The channel measures attenuation (R184). -/
def State.slacHears (s : State) (n : Nat) : Bool :=
  let st := (s.plc n).st
  !isMains n && (st = .slacWait || st = .slacRun || st = .matched || st = .linked)

/-- The open collection of a RunID. -/
def State.coll (s : State) (r : BitVec 64) : Option Collection := s.app.plc.colls.find? (·.run = r)

/-- The first CM_START_ATTEN_CHAR.IND of a RunID opens its collection (R185). -/
def startAttenChar (n : Nat) (r : BitVec 64) (sounds : Nat) (s : State) : State :=
  if s.slacHears n && (s.coll r).isNone then
    { s with app.plc.colls := s.app.plc.colls ++ [{ run := r, sounds := sounds, opened := s.ht }] }
  else s

/-- START_ATTEN_CHAR (R185). -/
def execStartAttenChar (n : Fin 66) (runId : BitVec 64) (sounds : Nat) (s : State) : Res :=
  .next (startAttenChar n runId sounds s)

/-- One sound more in a profile: group values are added. -/
def Profile.add (p : Profile) (g : List Nat) : Profile :=
  { count := p.count + 1, sums := (List.range 58).map fun i => p.sums.getD i 0 + g.getD i 0 }

/-- A channel's figure as a quotient: the sum of all group values over 58 times the sounds (R185). -/
def Profile.figure (p : Profile) : Nat × Nat := (p.sums.sum, 58 * p.count)

/-- A figure is less than another plus `m` dB. -/
def figLess (a b : Nat × Nat) (m : Nat) : Bool := decide (a.1 * b.2 < (b.1 + m * b.2) * a.2)

/-- H(r): the channels with a valid profile (R185). -/
def State.hset (s : State) (c : Collection) : List Nat :=
  (List.range 64).filter fun n => decide (max 1 (s.onum 0x2100 3) ≤ (c.prof.get n).count)

/-- The channel with the smallest figure; ties to the lower number (R186). -/
def bestChannel (c : Collection) : List Nat → Option Nat
  | [] => none
  | n :: rest => match bestChannel c rest with
    | none => some n
    | some m => if figLess (c.prof.get m).figure (c.prof.get n).figure 0 then some m else some n

/-- The bytes of PLC_ATTEN_n for a profile. Where a mean is not a whole number of dB, whether it is shown
rounded down or up is a free value: the manual states no rounding. -/
def attenBytes (p : Profile) (free : BitVec 64) : List Byte :=
  let rnd := fun (i a b : Nat) =>
    BitVec.ofNat 8 (if b = 0 then 0 else if a % b = 0 then a / b else a / b + b2n (free.getLsbD i))
  ((List.range 58).map fun i => rnd i (p.sums.getD i 0) p.count) ++
    [BitVec.ofNat 8 p.count, rnd 58 p.figure.1 p.figure.2]

/-- The selection of channel b for RunID r (R186). -/
def slacSelect (b : Nat) (c : Collection) (h : List Nat) (need : Bool) (s : State) : State :=
  let p := c.prof.get b
  (s.updPlc b fun x =>
    { plcUnselect x with sel := some c.run, valReq := need, hset := h, figure := p.figure,
                         atten := attenBytes p (s.freeBits 64), attenRun := c.run }).used

/-- The decision on a closed collection (R186). -/
def slacDecide (c : Collection) (s : State) : State :=
  let h := s.hset c
  match bestChannel c h with
  | none => s
  | some b =>
    let fb := (c.prof.get b).figure
    let need := h.any fun n => n ≠ b && figLess (c.prof.get n).figure fb (s.onum 0x2100 2)
    if !s.slacReady b then s
    else match (s.plc b).sel with
      | some _ =>
        if figLess fb (s.plc b).figure 0 then slacSelect b c h need s else s
      | none => slacSelect b c h need s

/-- A channel in SLAC_RUN whose collections are all closed without its selection (R181). -/
def slacBack (n : Nat) (r : BitVec 64) (s : State) : State :=
  if !(s.plc n).runs.contains r then s
  else s.updPlc n fun c =>
    let c1 := { c with runs := c.runs.filter (· ≠ r) }
    if c1.st = .slacRun && c1.sel.isNone && c1.runs.isEmpty then plcGo .slacWait c1 else c1

/-- A collection closes (R185) and is decided (R186). -/
def slacClose (r : BitVec 64) (s : State) : State :=
  match s.coll r with
  | none => s
  | some c =>
    let s1 := { s with app.plc.colls := s.app.plc.colls.filter (·.run ≠ r) }
    (List.range 64).foldl (fun t n => slacBack n r t) (slacDecide c s1)

/-- The collection of a RunID has stood open for 600 ms (R185). -/
def State.collOld (s : State) (r : BitVec 64) : Bool :=
  match s.coll r with
  | some c => decide (c.opened + 600000000 ≤ s.ht)
  | none => false

/-- SLAC_COLLECTION_CLOSE (R185): 600 ms after opening. -/
def execSlacCollectionClose (runId : BitVec 64) (s : State) : Res :=
  .next (if s.collOld runId then slacClose runId s else s)

/-- A channel has received the announced number of sounds of a RunID (R185). -/
def State.collFull (s : State) (n : Nat) (r : BitVec 64) : Bool :=
  match s.coll r with
  | some c => decide (c.sounds ≤ (c.prof.get n).count)
  | none => false

/-- A sound of a RunID on a channel is added to its profile (R185). -/
def soundAdd (n : Nat) (r : BitVec 64) (g : List Nat) (s : State) : State :=
  { s with app.plc.colls := s.app.plc.colls.map fun c =>
      if c.run = r then { c with prof := c.prof.upd n fun p => p.add g } else c }

/-- A sound on a channel that measures; with the last announced one the collection closes (R185). -/
def slacSound (n : Nat) (r : BitVec 64) (g : List Nat) (s : State) : State :=
  if !s.slacHears n then s
  else
    let s1 := soundAdd n r g s
    if s1.collFull n r then slacClose r s1 else s1

/-- SLAC_SOUND (R185). -/
def execSlacSound (n : Fin 66) (runId : BitVec 64) (groups : List Nat) (s : State) : Res :=
  .next (slacSound n runId groups s)

/-- CM_VALIDATE.REQ on the selected channel opens the toggle window (R186). -/
def slacValidate (n : Nat) (r : BitVec 64) (s : State) : State :=
  let c := s.plc n
  if c.sel = some r && c.valReq then
    s.updPlc n fun c => { c with win := some ⟨c.hset.map fun p => (p, s.app.plc.toggles.get p)⟩ }
  else s

/-- SLAC_VALIDATE_REQ (R186). -/
def execSlacValidateReq (n : Fin 66) (runId : BitVec 64) (s : State) : Res := .next (slacValidate n runId s)

/-- The toggle window ends: the vehicle reports `k` toggles (R186). -/
def slacWindowEnd (n k : Nat) (s : State) : State :=
  match (s.plc n).win with
  | none => s
  | some w =>
    let seen := fun x : Nat × Nat => s.app.plc.toggles.get x.1 - x.2
    let ok := w.start.all fun x => if x.1 = n then seen x = k else seen x = 0
    s.updPlc n fun c => { c with win := none, valid := ok }

/-- SLAC_VALIDATE_WINDOW_END (R186). -/
def execSlacValidateWindowEnd (n : Fin 66) (toggles : Nat) (s : State) : Res := .next (slacWindowEnd n toggles s)

/-- CM_SLAC_MATCH.REQ (R181, R186): answered with a fresh NID and NMK. -/
def slacMatch (n : Nat) (r : BitVec 64) (mac : BitVec 48) (s : State) : State :=
  let c := s.plc n
  if c.st = .slacRun && c.sel = some r && (!c.valReq || c.valid) then
    let k := s.freeBits 128
    (s.used.updPlc n fun c =>
      plcEvt 1 (plcGo .matched
        { plcUnselect c with mac := some mac, nmk := some k, nid := nidOf k, runs := [], nek := s.used.freeBits 128 })).used
  else s

/-- SLAC_MATCH_REQ (R181). -/
def execSlacMatchReq (n : Fin 66) (runId : BitVec 64) (mac : BitVec 48) (s : State) : Res :=
  .next (slacMatch n runId mac s)

/-- No match request within 10 s of the selection (R181). -/
def slacMatchTimeout (n : Nat) (s : State) : State :=
  if (s.plc n).sel.isNone then s
  else s.updPlc n fun c =>
    let c1 := plcUnselect c
    if c1.st = .slacRun then plcGo .slacWait c1 else c1

/-- SLAC_MATCH_TIMEOUT (R181). -/
def execSlacMatchTimeout (n : Fin 66) (s : State) : Res := .next (slacMatchTimeout n s)

/-! ### Frames (R170, R179, R182, R188) -/

/-- An MSDU is put into the receive ring, or discarded on a full one (R188); of a ring that goes past the end of PLC buffer
SRAM nothing beyond it is stored (assumption 122). -/
def plcRing (n : Nat) (data : List Byte) (s : State) : State :=
  let c := s.plc n
  if 16 ≤ c.rx.length then s.updPlc n fun c => { c with rxdrop := stick 65535 c.rxdrop 1 }
  else
    let a := c.rxbase.toNat + 1536 * ((c.slot + c.rx.length) % 16)
    (s.setBytes a (data.take (0x08200000 - a))).updPlc n fun c => { c with rx := c.rx ++ [data.length] }

/-- A station asks for association (R171): one on a pilot network, the matched one; at most 16 on a mains network. -/
def plcAssociate (n : Nat) (src : BitVec 48) (c : PlcCh) : PlcCh :=
  if isMains n then
    (if c.stations.contains src then { c with reply := some .associated }
    else if 16 ≤ c.stations.length then { c with reply := some .refused }
    else { c with stations := c.stations ++ [src], reply := some .associated })
  else { c with reply := some (if c.mac = some src then .associated else .refused) }

/-- The station of a pilot network; on a mains network any station under its NEK. -/
def PlcCh.fromStation (n : Nat) (c : PlcCh) (m : Mpdu) : Bool :=
  m.nek && (c.st = .linked || c.st = .matched) && (isMains n || c.mac = some m.src)

/-- What an accepted MPDU does by its kind (R171, R182, R188). -/
def plcKind (n : Nat) (m : Mpdu) (s : State) : State :=
  match m.kind with
  | .data => if (s.plc n).fromStation n m && m.badPbs = 0 then plcRing n m.data s else s
  | .handled => s
  | .associate => s.updPlc n (plcAssociate n m.src)
  | .unsupported true => s.updPlc n fun c => { c with reply := some .failure }
  | .unsupported false => s.updPlc n fun c => { c with mgmtDrop := c.mgmtDrop + 1 }
  | .unknown => s.updPlc n fun c => { c with mgmtDrop := c.mgmtDrop + 1 }

/-- A received MPDU (R170, R179, R181, R182): a unicast one is acknowledged, and the first one of the station under the NEK
links the network. -/
def plcReceive (n : Nat) (m : Mpdu) (s : State) : State :=
  let c := s.plc n
  if c.st = .off || !m.fcOk then s
  else if !m.robo then s.updPlc n fun c => { c with fcErr := c.fcErr + 1 }
  else
    let s1 := if m.badPbs = 0 then s else countEvents 0x0B n m.badPbs s
    let mine := m.kind ≠ .data || c.fromStation n m
    let s2 := if m.unicast && mine then s1.updPlc n fun c => { c with ack := some m.badPbs } else s1
    plcKind n m (if c.st = .matched && c.fromStation n m then s2.updPlc n (plcGo .linked) else s2)

/-- PLC_MPDU_RECEIVE (R179). -/
def execPlcMpduReceive (n : Fin 66) (m : Mpdu) (s : State) : Res := .next (plcReceive n m s)

/-- The MSDU lies in Hall SRAM or PLC buffer SRAM (R188). -/
def plcAddrOk (a len : Nat) : Bool :=
  (decide (0x01000000 ≤ a) && decide (a + len ≤ 0x02000000)) ||
    (decide (0x08000000 ≤ a) && decide (a + len ≤ 0x08200000))

/-- The status of a post (R188). -/
def PlcCh.postStatus (n : Nat) (c : PlcCh) (len : Nat) : Status :=
  if 16 ≤ c.txq.length then .busy
  else if !(c.st = .linked || (c.st = .matched && !isMains n)) then .state
  else if !within 60 len 1518 then .range
  else if !plcAddrOk c.txaddr.toNat len then .integrity
  else .ok

/-- The PBs of an MSDU: 512 bytes of it in each PB of 520 (PRESUMED, assumption 123). -/
def pbsOf (len : Nat) : List Nat := List.range ((len + 511) / 512)

/-- The mode of a unicast frame, from MODE_MAX (R170). -/
def PlcCh.uniMode (c : PlcCh) : Robo := if fld c.cfg 8 4 = 1 then .std else .hs

/-- A write of PLC_TXPOST_n (R188). -/
def plcPost (n : Nat) (v : Word) (s : State) : State :=
  let st := (s.plc n).postStatus n (fld v 0 11)
  s.updPlc n fun c =>
    let x : PlcTx :=
      { tag := fld v 16 16, cap := fld v 14 2, len := fld v 0 11, addr := c.txaddr.toNat, pbs := pbsOf (fld v 0 11) }
    { c with txresp := (fld v 16 16, st), txq := if st = .ok then c.txq ++ [x] else c.txq }

/-- PLC_TX_POST (R188). -/
def execPlcTxPost (n : Fin 66) (v : Word) (s : State) : Res := .next (plcPost n v s)

/-- The oldest frame is on the air. -/
def PlcCh.sending (c : PlcCh) : Bool := (c.txq.head?.map (·.phase)) = some .onAir

/-- Pilot channels with a transmission other than a beacon in progress, of which the arbiter allows 8 (R177). -/
def State.dataOnAir (s : State) : Nat := ((List.range 64).filter fun n => (s.plc n).sending).length

/-- The backoff of a channel expires (R177): its oldest frame goes on the air; with all 8 data places taken it defers, and
stays as it is. Mains ports are not counted. -/
def plcSend (n : Nat) (s : State) : State :=
  match (s.plc n).txq with
  | [] => s
  | t :: rest =>
    if t.phase ≠ .waiting || (!isMains n && decide (8 ≤ s.dataOnAir)) then s
    else s.updPlc n fun c => { c with txq := { t with phase := .onAir, mode := c.uniMode } :: rest }

/-- One ms of a channel's frames: whether a waiting frame's backoff expires, and whether a transmission has ended, is a free
value (R177). -/
def plcAir (n : Nat) (s : State) : State :=
  match (s.plc n).txq with
  | [] => s
  | t :: rest =>
    let go := (s.freeBits 1).getLsbD 0
    match t.phase with
    | .waiting => if go then plcSend n s.used else s.used
    | .onAir => if go then s.used.updPlc n fun c => { c with txq := { t with phase := .sent } :: rest } else s.used
    | .sent => s

/-- A selective acknowledgement of the oldest frame, with the PBs it reports bad (R179): only those are sent again, in the
next transmit opportunity, up to TRIES sendings. A frame that still waits has been sent before it; with no place for it
there is nothing to acknowledge. -/
def plcSack (n : Nat) (bad : BitVec 4) (s : State) : State :=
  let s0 := plcSend n s
  match (s0.plc n).txq with
  | [] => s
  | t :: rest =>
    if t.phase = .waiting then s
    else
      let k := t.tries + 1
      let left := t.pbs.filter fun i => bad.getLsbD i
      let s1 := countEvents 9 n 1 s0
      if left.isEmpty then s1.updPlc n fun c => plcDone ⟨t.tag, k, .ok⟩ { c with txq := rest }
      else if fld (s.plc n).cfg 4 4 ≤ k then s1.updPlc n fun c => plcDone ⟨t.tag, k, .integrity⟩ { c with txq := rest }
      else countEvents 0x0A n 1
        (s1.updPlc n fun c => { c with txq := { t with tries := k, pbs := left, phase := .waiting } :: rest })

/-- PLC_SACK_RECEIVED (R179). -/
def execPlcSackReceived (n : Fin 66) (bad : BitVec 4) (s : State) : Res := .next (plcSack n bad s)

/-- A monitored request of queue `q`, in the row order of R95, completed with TIMEOUT (R96). -/
def deliveryTimeout (q : Nat) (s : State) : State := raise 501 (countEvents 8 q 1 s)

/-- A frame that has not been sent yet. -/
def PlcTx.unsent (t : PlcTx) : Bool := t.tries = 0 && t.phase = .waiting

/-- The oldest frame that has not been sent within 2 beacon periods fails (R179). -/
def plcTxTimeout (n : Nat) (s : State) : State :=
  match (s.plc n).txq.find? PlcTx.unsent with
  | none => s
  | some t =>
    deliveryTimeout 13 (s.updPlc n fun c => plcDone ⟨t.tag, 0, .timeout⟩ { c with txq := c.txq.erase t })

/-- PLC_TX_TIMEOUT (R179). -/
def execPlcTxTimeout (n : Fin 66) (s : State) : Res := .next (plcTxTimeout n s)

/-- A write of PLC_RXPOP_n (R188). -/
def plcRxPop (n : Nat) (s : State) : State :=
  match (s.plc n).rx with
  | [] => s
  | _ :: rest => s.updPlc n fun c => { c with rx := rest, slot := (c.slot + 1) % 16 }

/-- PLC_RX_POP (R188). -/
def execPlcRxPop (n : Fin 66) (s : State) : Res := .next (plcRxPop n s)

/-- The word of a completion. -/
def doneWord (x : PlcDone) : Word := pack [(x.tag, 16), (x.tries, 12), (statusCode x.status, 0)]

/-- A read of PLC_TXDONE_n (R188). -/
def plcDoneRead (n : Nat) (s : State) : State :=
  match (s.plc n).done with
  | [] => busOk 0 s
  | x :: rest => busOk (doneWord x) (s.updPlc n fun c => { c with done := rest })

/-- PLC_TXDONE_READ (R188). -/
def execPlcTxdoneRead (n : Fin 66) (s : State) : Res := .next (plcDoneRead n s)

/-- A channel's NTB (R187); 0 from an application reset to its START (R188). -/
def State.ntb (s : State) (n : Nat) : Word :=
  match (s.plc n).ntb0 with
  | some z => BitVec.ofInt 32 ((s.cold.grid : Int) - z)
  | none => 0

/-- A read of PLC_NTB_n latches HT for the port (R187). -/
def ntbRead (port n : Nat) (s : State) : State :=
  busOk (s.ntb n) (s.updPlc n fun c => { c with ntbHt := c.ntbHt.set port s.ht })

/-- PLC_NTB_READ (R187). -/
def execPlcNtbRead (port : Fin 24) (n : Fin 66) (s : State) : Res := .next (ntbRead port n s)

/-! ### Registers, for the bus -/

/-- STATE's code. -/
def plcStCode : PlcSt → Nat
  | .off => 0 | .slacWait => 2 | .slacRun => 3 | .matched => 4 | .linked => 5 | .stopping => 6

/-- A write of PLC_CFG_n (R188). -/
def plcCfgWrite (n : Nat) (v : Word) (s : State) : State :=
  s.updPlc n fun c =>
    let att := fld v 16 8
    let mode := fld v 8 4
    let tries := fld v 4 4
    let coup := if isMains n then fld v 28 2 else 0
    let same := mode = fld c.cfg 8 4 && tries = fld c.cfg 4 4 && bit v 0 = bit c.cfg 0 && (!isMains n || coup = fld c.cfg 28 2)
    let c1 := if att ≤ 31 then { c with cfg := putFld c.cfg 16 8 att } else plcEvt 4 c
    if c.st ≠ .off then (if same then c1 else plcEvt 4 c1)
    else
      let c2 := if within 1 mode 2 then { c1 with cfg := putFld c1.cfg 8 4 mode } else plcEvt 4 c1
      let c3 := if within 1 tries 4 then { c2 with cfg := putFld c2.cfg 4 4 tries } else plcEvt 4 c2
      let c4 := { c3 with cfg := putFld c3.cfg 0 1 (b2n (bit v 0)) }
      if isMains n && coup ≤ 1 then { c4 with cfg := putFld c4.cfg 28 2 coup } else c4

/-- A write of PLC_CTRL_n: STOP, RESLAC and START are each taken. -/
def plcCtrlWrite (n : Nat) (v : Word) (s : State) : State :=
  let s1 := if bit v 1 then plcStop n s else s
  let s2 := if bit v 2 then plcReslac n s1 else s1
  if bit v 0 then plcStart n v (plcTake n s2) else s2

/-- A write of PLC_RXBASE_n: only while OFF, in PLC buffer SRAM and aligned to 512 bytes. -/
def plcBaseWrite (n : Nat) (v : Word) (s : State) : State :=
  let a := v.toNat
  s.updPlc n fun c =>
    if c.st = .off && a % 512 = 0 && decide (0x08000000 ≤ a) && decide (a < 0x08200000) then { c with rxbase := v }
    else plcEvt 4 c

/-- A read of a channel's register at an offset; unlisted offsets read 0. -/
def plcRead (port n off : Nat) (s : State) : State :=
  let c := s.plc n
  let word := fun k => BitVec.ofNat 32 (ofLE ((List.range 4).map fun i => c.atten.getD (4 * k + i) 0))
  match off with
  | 0x04 => busOk c.cfg s
  | 0x08 => busOk (pack [(plcStCode c.st, 24), (c.txq.length, 16), (b2n c.valReq, 9), (b2n c.sel.isSome, 8),
      (statusCode c.status, 0)]) s
  | 0x0C => busOk c.evt s
  | 0x10 => busOk c.txaddr s
  | 0x18 => busOk (pack [(c.txresp.1, 16), (statusCode c.txresp.2, 0)]) s
  | 0x1C => plcDoneRead n s
  | 0x20 => busOk c.rxbase s
  | 0x24 => busOk (pack [(c.rx.headD 0, 16), (if c.rx.isEmpty then 0 else c.slot, 12), (c.rx.length, 0)]) s
  | 0x30 => ntbRead port n s
  | 0x34 => busOk (BitVec.ofNat 32 (c.ntbHt.get port)) s
  | 0x38 => busOk (BitVec.ofNat 32 (c.ntbHt.get port / 2 ^ 32)) s
  | 0x3C => busOk (pack [(c.rxdrop, 16), (c.skips, 0)]) s
  | 0x140 => busOk (if isMains n then 0 else c.attenRun.setWidth 32) s
  | 0x144 => busOk (if isMains n then 0 else (c.attenRun >>> 32).setWidth 32) s
  | _ => busOk (if within 0x100 off 0x13C && !isMains n then word ((off - 0x100) / 4) else 0) s

/-- A write of a channel's register at an offset; unlisted offsets ignore it. -/
def plcWrite (n off : Nat) (v : Word) (s : State) : State :=
  busOk 0 (match off with
    | 0x00 => plcCtrlWrite n v s
    | 0x04 => plcCfgWrite n v s
    | 0x0C => s.updPlc n fun c => { c with evt := wW1C 0x3F c.evt v }
    | 0x10 => s.updPlc n fun c => { c with txaddr := v }
    | 0x14 => plcPost n v s
    | 0x20 => plcBaseWrite n v s
    | 0x28 => plcRxPop n s
    | _ => s)

end Sys2Proof.Machine
end

