-- ==== Sys2Proof/Machine/CanOps.lean ====
section
/-!
DEFINITION. Sending on the field ports F0 and F1 (06 R134 to R136): frames, emergency messages and the error
register.
-/
set_option Elab.async false
namespace Sys2Proof.Machine

/-- A field port. -/
def State.fport (s : State) (x : Nat) : FieldPort := s.app.server.port.get x

/-- Changing a field port. -/
def State.updPort (s : State) (x : Nat) (f : FieldPort → FieldPort) : State :=
  { s with app.server.port := s.app.server.port.upd x f }

/-- The port sends at all: it has booted, is not off, not at bus-off and not driven recessive (R134, R138; 03
R66). -/
def State.portSends (s : State) (x : Nat) : Bool :=
  let p := s.fport x
  p.nmt ≠ .off && p.mode ≠ 0 && !p.busOff && !s.app.clk.canRecessive.getLsbD x

/-- A frame is sent; while the port is at bus-off or held recessive it waits in the port's queue of 32, and one that finds
the queue full is an overrun (R135, R138; 04 R95). -/
def canSend (x : Nat) (f : CanFrame) (s : State) : State :=
  if s.portSends x then s.updPort x fun p => { p with sent := (f :: p.sent).take 64 }
  else if (s.fport x).nmt = .off || (s.fport x).mode = 0 then s
  else s.updPort x fun p =>
    if p.txq.length < 32 then { p with txq := p.txq ++ [f] } else { p with overrun := true }

/-- What waited goes out. -/
def canFlush (x : Nat) (s : State) : State :=
  s.updPort x fun p => { p with txq := [], sent := (p.txq.reverse ++ p.sent).take 64 }

/-- The error register 1001h of a port (R133): communication errors of the port, the sealed link as the
device-specific one (assumption 46). -/
def State.errorReg (s : State) (x : Nat) : Byte :=
  let c := (s.fport x).passive || (s.fport x).busOff
  let d := s.app.link.failed
  (if c || d then 1#8 else 0) ||| (if c then 0x10#8 else 0) ||| (if d then 0x80#8 else 0)

/-- An emergency message of a port (R135); `b3` is its byte 3. -/
def emcy (x : Nat) (code : Nat) (b3 : Byte) (s : State) : State :=
  let p := s.fport x
  if p.nmt = .preop || p.nmt = .oper then
    canSend x { id := 0x80 + p.node, fd := p.mode = 2, data := toLE 2 code ++ [s.errorReg x, b3, 0, 0, 0, 0] } s
  else s

/-- The port sends again: what waited, then EMCY 8110h where frames were lost to a full queue (R135, R138). -/
def canResume (x : Nat) (s : State) : State :=
  let s1 := canFlush x s
  if (s1.fport x).overrun then emcy x 0x8110 0 (s1.updPort x fun p => { p with overrun := false }) else s1

/-- Error frames on a port, one or more: how many the bus saw is free (05 R120, group 0Dh). -/
def canErrors (x : Nat) (s : State) : State := countEvents 13 (2 + x) (1 + Config.freeNat s.fresh) s.used

/-- The fault confinement of ISO 11898-1 leaves error passive once frames have passed; when is free (R138). -/
def canConfine (x : Nat) (s : State) : State :=
  if (s.fport x).passive && s.portSends x then
    (s.updPort x fun p => { p with passive := s.freeBits 1 = 1 }).used
  else s

/-- An emergency message of both ports. -/
def emcyBoth (code : Nat) (b3 : Byte) (s : State) : State := emcy 1 code b3 (emcy 0 code b3 s)

end Sys2Proof.Machine
end

