-- ==== Sys2Proof/Machine/Fp.lean ====
section
/-!
DEFINITION. Floating-point arithmetic of the Cantle cores, extensions F and D as published (05 R99): values are exact
numbers that one function rounds. Flags: 16 NV, 8 DZ, 4 OF, 2 UF, 1 NX. Rounding modes: 0 RNE, 1 RTZ, 2 RDN, 3 RUP,
4 RMM.
-/
set_option Elab.async false
namespace Sys2Proof.Machine

/-- A format: exponent bits and fraction bits. -/
structure FFmt where
  eb : Nat
  mb : Nat
  deriving DecidableEq, Repr

/-- Single and double. -/
def fmtS : FFmt := ⟨8, 23⟩
def fmtD : FFmt := ⟨11, 52⟩

def FFmt.bias (f : FFmt) : Nat := 2 ^ (f.eb - 1) - 1
def FFmt.width (f : FFmt) : Nat := 1 + f.eb + f.mb
def FFmt.infBits (f : FFmt) : Nat := (2 ^ f.eb - 1) * 2 ^ f.mb
def FFmt.nanBits (f : FFmt) : Nat := f.infBits + 2 ^ (f.mb - 1)
def FFmt.signBit (f : FFmt) (neg : Bool) : Nat := if neg then 2 ^ (f.eb + f.mb) else 0

/-- A value: a finite one is m × 2^e with its sign. -/
inductive FV where
  | nan (signaling : Bool)
  | inf (neg : Bool)
  | fin (neg : Bool) (m : Nat) (e : Int)
  deriving DecidableEq, Repr

/-- A result with its flags. -/
abbrev FRes := Nat × Nat

/-- The value of a bit pattern. -/
def FFmt.unpack (f : FFmt) (v : Nat) : FV :=
  let neg := v / 2 ^ (f.eb + f.mb) % 2 = 1
  let ex := v / 2 ^ f.mb % 2 ^ f.eb
  let fr := v % 2 ^ f.mb
  if ex = 2 ^ f.eb - 1 then (if fr = 0 then .inf neg else .nan (fr < 2 ^ (f.mb - 1)))
  else if ex = 0 then .fin neg fr (1 - (f.bias : Int) - f.mb)
  else .fin neg (fr + 2 ^ f.mb) ((ex : Int) - f.bias - f.mb)

/-- Whether m / 2^k rounds up. -/
def roundsUp (rm : Nat) (neg : Bool) (m k : Nat) : Bool :=
  let r := m % 2 ^ k
  match rm with
  | 0 => decide (2 ^ k < 2 * r) || (decide (2 * r = 2 ^ k) && decide (m / 2 ^ k % 2 = 1))
  | 1 => false
  | 2 => neg && decide (r ≠ 0)
  | 3 => !neg && decide (r ≠ 0)
  | _ => decide (r ≠ 0) && decide (2 ^ k ≤ 2 * r)

/-- m / 2^k rounded, and whether it is inexact. -/
def roundShift (rm : Nat) (neg : Bool) (m : Nat) (k : Int) : Nat × Bool :=
  if k ≤ 0 then (m * 2 ^ (-k).toNat, false)
  else (m / 2 ^ k.toNat + b2n (roundsUp rm neg m k.toNat), decide (m % 2 ^ k.toNat ≠ 0))

/-- The number m × 2^e rounded into a format. -/
def FFmt.round (f : FFmt) (rm : Nat) (neg : Bool) (m : Nat) (e : Int) : FRes :=
  if m = 0 then (f.signBit neg, 0)
  else
    let top : Int := e + Nat.log2 m
    let emin : Int := 1 - (f.bias : Int)
    let q := max (top - f.mb) (emin - f.mb)
    let r := roundShift rm neg m (q - e)
    let free := roundShift rm neg m (top - f.mb - e)
    let tiny := decide (top < emin) && !(decide (top + 1 = emin) && decide (2 ^ (f.mb + 1) ≤ free.1))
    let bits := ((q + f.mb + f.bias).toNat - 1) * 2 ^ f.mb + r.1
    if f.infBits ≤ bits then
      let keep := rm = 1 || (rm = 2 && !neg) || (rm = 3 && neg)
      (f.signBit neg + (if keep then f.infBits - 1 else f.infBits), 5)
    else (f.signBit neg + bits, if r.2 then (if tiny then 3 else 1) else 0)

/-- The canonical NaN, with NV where an operand signals or `inv`. -/
def FFmt.nan (f : FFmt) (inv : Bool) : FRes := (f.nanBits, if inv then 16 else 0)

/-- A signalling NaN. -/
def FV.sig : FV → Bool
  | .nan b => b
  | _ => false

def FV.isNan : FV → Bool
  | .nan _ => true
  | _ => false

/-- The sign-reversed value. -/
def FV.flip : FV → FV
  | .nan b => .nan b
  | .inf n => .inf (!n)
  | .fin n m e => .fin (!n) m e

/-- The signed integer of a finite value at exponent `e0`, at most its own. -/
def atExp (neg : Bool) (m : Nat) (e e0 : Int) : Int :=
  let v : Int := (m * 2 ^ (e - e0).toNat : Nat)
  if neg then -v else v

/-- A sum, rounded. -/
def FFmt.addV (f : FFmt) (rm : Nat) (a b : FV) : FRes :=
  match a, b with
  | .fin n m e, .fin n2 m2 e2 =>
    let e0 := min e e2
    let v := atExp n m e e0 + atExp n2 m2 e2 e0
    if v = 0 then (f.signBit (if n = n2 then n else rm = 2), 0) else f.round rm (v < 0) v.natAbs e0
  | .inf n, .inf n2 => if n = n2 then (f.signBit n + f.infBits, 0) else f.nan true
  | .inf n, .fin _ _ _ => (f.signBit n + f.infBits, 0)
  | .fin _ _ _, .inf n => (f.signBit n + f.infBits, 0)
  | x, y => f.nan (x.sig || y.sig)

/-- A product as an exact value; none where it is invalid. -/
def mulV (a b : FV) : Option FV :=
  match a, b with
  | .fin n m e, .fin n2 m2 e2 => some (.fin (n ≠ n2) (m * m2) (e + e2))
  | .inf n, .inf n2 => some (.inf (n ≠ n2))
  | .inf n, .fin n2 m _ => if m = 0 then none else some (.inf (n ≠ n2))
  | .fin n m _, .inf n2 => if m = 0 then none else some (.inf (n ≠ n2))
  | x, y => some (.nan (x.sig || y.sig))

/-- A value rounded into a format. -/
def FFmt.ofV (f : FFmt) (rm : Nat) : FV → FRes
  | .nan s => f.nan s
  | .inf n => (f.signBit n + f.infBits, 0)
  | .fin n m e => f.round rm n m e

/-- A product. -/
def FFmt.mulR (f : FFmt) (rm : Nat) (a b : FV) : FRes :=
  match mulV a b with
  | none => f.nan true
  | some v => f.ofV rm v

/-- a × b + c, rounded once. -/
def FFmt.fmaR (f : FFmt) (rm : Nat) (a b c : FV) : FRes :=
  match mulV a b with
  | none => f.nan true
  | some v => f.addV rm v c

/-- A quotient. -/
def FFmt.divR (f : FFmt) (rm : Nat) (a b : FV) : FRes :=
  match a, b with
  | .fin n m e, .fin n2 m2 e2 =>
    let neg := n ≠ n2
    if m2 = 0 then (if m = 0 then f.nan true else (f.signBit neg + f.infBits, 8))
    else
      let k := f.mb + 5 + Nat.log2 m2
      let x := m * 2 ^ k
      f.round rm neg (2 * (x / m2) + b2n (decide (x % m2 ≠ 0))) (e - e2 - k - 1)
  | .inf n, .fin n2 _ _ => (f.signBit (n ≠ n2) + f.infBits, 0)
  | .fin n _ _, .inf n2 => (f.signBit (n ≠ n2), 0)
  | .inf _, .inf _ => f.nan true
  | x, y => f.nan (x.sig || y.sig)

/-- The integer square root, by bits downward. -/
def isqrt (n : Nat) : Nat → Nat → Nat
  | 0, r => r
  | k + 1, r => if (r + 2 ^ k) * (r + 2 ^ k) ≤ n then isqrt n k (r + 2 ^ k) else isqrt n k r

/-- A square root. -/
def FFmt.sqrtR (f : FFmt) (rm : Nat) : FV → FRes
  | .nan s => f.nan s
  | .inf n => if n then f.nan true else (f.infBits, 0)
  | .fin n m e =>
    if m = 0 then (f.signBit n, 0)
    else if n then f.nan true
    else
      let k := 2 * (f.mb + 4) + (e % 2).toNat
      let x := m * 2 ^ k
      let r := isqrt x (2 * f.mb + 10) 0
      f.round rm false (2 * r + b2n (decide (r * r ≠ x))) ((e - k) / 2 - 1)

/-- The order of two values that are no NaN: a < b. -/
def ltV (a b : FV) : Bool :=
  match a, b with
  | .inf n, .inf n2 => n && !n2
  | .inf n, .fin _ _ _ => n
  | .fin _ _ _, .inf n2 => !n2
  | .fin n m e, .fin n2 m2 e2 => decide (atExp n m e (min e e2) < atExp n2 m2 e2 (min e e2))
  | _, _ => false

/-- FEQ, FLT and FLE (funct3 2, 1, 0): the result and the flags. -/
def cmpR (f3 : Nat) (a b : FV) : FRes :=
  if a.isNan || b.isNan then (0, if f3 ≠ 2 || a.sig || b.sig then 16 else 0)
  else match f3 with
    | 2 => (b2n (!ltV a b && !ltV b a), 0)
    | 1 => (b2n (ltV a b), 0)
    | _ => (b2n (!ltV b a), 0)

/-- The sign of a pattern. -/
def FFmt.neg (f : FFmt) (v : Nat) : Bool := v / 2 ^ (f.eb + f.mb) % 2 = 1

/-- FMIN and FMAX of two patterns; −0 is below +0. -/
def FFmt.minmax (f : FFmt) (mx : Bool) (x y : Nat) : FRes :=
  let a := f.unpack x
  let b := f.unpack y
  let fl := if a.sig || b.sig then 16 else 0
  if a.isNan && b.isNan then (f.nanBits, fl)
  else if a.isNan then (y, fl)
  else if b.isNan then (x, fl)
  else
    let less := ltV a b || (!ltV b a && f.neg x && !f.neg y)
    (if less = mx then y else x, fl)

/-- FCLASS. -/
def FFmt.fclass (f : FFmt) (v : Nat) : Nat :=
  match f.unpack v with
  | .nan s => if s then 256 else 512
  | .inf n => if n then 1 else 128
  | .fin n m _ =>
    let k := if m = 0 then 0 else if m < 2 ^ f.mb then 1 else 2
    if n then 2 ^ (3 - k) else 2 ^ (4 + k)

/-- A value rounded to an integer of `w` bits, saturating, with its flags. -/
def toIntR (rm w : Nat) (signed : Bool) (v : FV) : FRes :=
  let lo : Int := if signed then -(2 ^ (w - 1) : Int) else 0
  let hi : Int := if signed then 2 ^ (w - 1) - 1 else 2 ^ w - 1
  match v with
  | .nan _ => (ofInt w hi, 16)
  | .inf n => (ofInt w (if n then lo else hi), 16)
  | .fin n m e =>
    let r := roundShift rm n m (-e)
    let i : Int := if n then -(r.1 : Int) else r.1
    if i < lo then (ofInt w lo, 16) else if hi < i then (ofInt w hi, 16)
    else (ofInt w i, b2n r.2)

/-- An integer rounded into a format. -/
def FFmt.ofIntR (f : FFmt) (rm : Nat) (i : Int) : FRes := f.round rm (i < 0) i.natAbs 0

/-- A sign injection: 0 copies, 1 inverts, 2 takes the difference of the signs. -/
def FFmt.sgnj (f : FFmt) (k x y : Nat) : Nat :=
  let n := match k with
    | 0 => f.neg y
    | 1 => !f.neg y
    | _ => f.neg x ≠ f.neg y
  x % 2 ^ (f.eb + f.mb) + f.signBit n

end Sys2Proof.Machine
end

