-- ==== Sys2Proof/Machine/Samples.lean ====
section
/-!
DEFINITION. From raw samples to the quantities of a cycle (11 R250, R258 to R266): calibration, weights, sums. The products
are exact; what is kept is cut to 1 µV or µA per sample and to the units of CycleData (DESIGN CHOICE, assumption 124: the
manual bounds the error, R270, and states no rounding).
-/
set_option Elab.async false
namespace Sys2Proof.Machine

/-! ### Calibration (R260) -/

/-- A finite REAL32 as a whole number times a power of 2. -/
def f32Parts (w : Word) : Int × Int :=
  let e := fld w 23 8
  let m : Int := if e = 0 then fld w 0 23 else fld w 0 23 + 2 ^ 23
  (if bit w 31 then -m else m, (if e = 0 then 1 else (e : Int)) - 150)

/-- A whole number times a power of 2, cut. -/
def scaleBy (m e : Int) : Int := if 0 ≤ e then m * 2 ^ e.toNat else m / 2 ^ (-e).toNat

/-- Gain factor, delay and offset of a channel in a band. -/
def State.coefOf (s : State) (ch band : Nat) : Nat × Int × Int :=
  let w := s.die.met.coef.get (15 * ch + band)
  ((w.setWidth 32).toNat, (w.extractLsb' 32 16).toInt, (w.extractLsb' 48 16).toInt)

/-- K × g × x, for x in µV: µV or µA of the primary. -/
def State.calib1 (s : State) (ch band : Nat) (x : Int) : Int :=
  let k : Word := BitVec.ofNat 32 (s.snum (0x5100 + ch) 2)
  let g := (s.coefOf ch band).1
  if fld k 23 8 = 255 then scaleBy (Config.nonFinite k * (g * x)) (-30)
  else scaleBy ((f32Parts k).1 * (g * x)) ((f32Parts k).2 - 30)

/-- The calibrated samples of a channel: K × g × (x[n − d] − o). -/
def State.calib (s : State) (ch band : Nat) (x : List Int) : List Int :=
  let c := s.coefOf ch band
  x.zipIdx.map fun y => s.calib1 ch band ((if c.2.1 = 0 then y.1 else Config.delayed c.2.1 x y.2) - c.2.2)

/-! ### Sums (R264) -/

/-- Weights in 1/64: 64 but for the samples at the boundaries. -/
def rawWeights (r : CycleRaw) : List Nat :=
  let n := r.x.length
  (List.range n).map fun k => if k = 0 then r.first.val else if k + 1 = n then r.last.val else 64

/-- W in 1/64. -/
def rawW (r : CycleRaw) : Nat := (rawWeights r).sum

/-- The weighted sum of products of two lists of samples. -/
def wsum (w : List Nat) (a b : List Int) : Int := ((w.zip (a.zip b)).map fun x => (x.1 : Int) * (x.2.1 * x.2.2)).sum

/-- The weighted terms v i, for the energy by ms. -/
def wterms (w : List Nat) (a b : List Int) : List Int := (w.zip (a.zip b)).map fun x => (x.1 : Int) * (x.2.1 * x.2.2)

/-- Terms summed by ms of 16 samples, the first at index `phase` of its ms. -/
def byMs (phase : Nat) (l : List Int) : List Int :=
  (List.range ((phase + l.length + 15) / 16)).map fun j =>
    ((l.drop (16 * j - phase)).take (if j = 0 then 16 - phase else 16)).sum

/-- The integer square root. -/
def sqrtOf (n : Int) : Int := (isqrt n.toNat 160 0 : Nat)

/-- Energy of a weighted sum, in 2⁻³² mWh: µV × µA / 64 over 62.5 µs. -/
def energyOf (x : Int) : Int := (x * 2 ^ 32 * 625).tdiv (2304 * 10 ^ 18)

/-- The band that an element's cycle uses (R259). -/
def State.bandOfElem (s : State) (e : Nat) : Nat := ((s.die.met.elem.get e).band).getD s.die.met.band

/-- Current and voltage channel of an element. -/
def State.iChan (s : State) (e : Nat) : Nat := s.snum (0x5000 + e) 2
def State.vChan (s : State) (e : Nat) : Nat := s.snum (0x5000 + e) 3

/-- The calibrated voltage and current of a cycle. -/
def State.cycleV (s : State) (e : Nat) (r : CycleRaw) : List Int := s.calib (s.vChan e) (s.bandOfElem e) (r.x.map (·.1))
def State.cycleI (s : State) (e : Nat) (r : CycleRaw) : List Int := s.calib (s.iChan e) (s.bandOfElem e) (r.x.map (·.2))

/-- A density outside 5 % to 95 % of 256 clocks (R251). -/
def densOut (d : Nat) : Bool := decide (100 * d < 5 * 256) || decide (95 * 256 < 100 * d)

/-- Samples of a bitstream channel that the density marks overrange. -/
def overBy (ch : Nat) (l : List Nat) : Nat := if ch < 80 then 0 else (l.filter densOut).length

/-- Overrange samples of the voltage and of the current channel. -/
def State.cycleOvers (s : State) (e : Nat) (r : CycleRaw) : Nat × Nat :=
  (overBy (s.vChan e) (r.dens.map (·.1)), overBy (s.iChan e) (r.dens.map (·.2)))

/-- The current is below the starting current (R266, R278), for a current in mA. -/
def State.belowStart (s : State) (e : Nat) (ma : Int) : Bool :=
  decide (ma.natAbs * 1000 < s.snum (0x5000 + e) 5 * s.snum (0x5000 + e) 8)

/-- The quantities of R264 over a cycle. Where S is 0 above the starting current, P / S has no value: a free value. -/
def State.cycleOf (s : State) (e : Nat) (r : CycleRaw) : CycleData :=
  let w := rawWeights r
  let v := s.cycleV e r
  let i := s.cycleI e r
  let n : Int := max 1 (rawW r)
  let ones := List.replicate r.x.length (1 : Int)
  let terms := wterms w v i
  let dc := s.snum (0x5000 + e) 1 = 2
  let mv := wsum w v ones / n
  let mi := wsum w i ones / n
  let rv := wsum w v v / n
  let ri := wsum w i i / n
  let p := terms.sum.tdiv (n * 10 ^ 9)
  let q90 := wsum w ((List.range r.x.length).map (Config.hilbert v)) i
  let vv := if dc then mv.tdiv 1000 else sqrtOf rv / 1000
  let ii := if dc then mi.tdiv 1000 else sqrtOf ri / 1000
  let sv := if dc then 0 else (vv * ii / 1000).toNat
  let ov := s.cycleOvers e r
  { v := vv, i := ii, p := p, q := if dc then 0 else q90.tdiv (n * 10 ^ 9), sVa := sv,
    pf := if dc then 0 else if s.belowStart e ii then 10000 else if sv = 0 then (s.freeBits 15).toNat else (p * 10000).tdiv sv,
    f := if dc then 0 else 1024000000 / n.toNat,
    vrip := if dc then (sqrtOf (rv - mv * mv) / 1000).toNat else 0,
    irip := if dc then (sqrtOf (ri - mi * mi) / 1000).toNat else 0,
    eaMs := (byMs r.phase terms).map energyOf, er := if dc then 0 else energyOf q90, durUs := n.toNat * 125 / 128,
    overrange := ov.1 + ov.2 ≠ 0, replaced := false }

/-! ### Cycles that qualify (R262) -/

/-- A cycle's length is between 1/65 s and 1/45 s, and its voltage at least 10 % of Vn. -/
def State.qualifies (s : State) (e : Nat) (r : CycleRaw) : Bool :=
  decide (1024000 ≤ 65 * (rawW r)) && decide (45 * (rawW r) ≤ 1024000) && decide ((10 * s.snum (0x5000 + e) 7 : Int) ≤ (s.cycleOf e r).v)

/-- A block of 20 ms on the sample grid: 320 samples. -/
def rawBlock (r : CycleRaw) : Bool := r.x.length = 320 && r.first.val = 64 && r.last.val = 64

/-- The sample index within its ms of the boundary that ends a cycle. -/
def rawEnd (r : CycleRaw) : Nat := (r.phase.val + r.x.length) % 16

/-! ### The SAR path (R250) -/

/-- What the SAR path reads, µV: 12 bits over ±600 mV. -/
def sarUv (code : BitVec 12) : Int := ((code.toNat : Int) - 2048) * 600000 / 2048

/-- At either end of its range a SAR sample is clipped. -/
def sarClipped (code : BitVec 12) : Bool := code = 0 || code = 0xFFF

/-- The reading with the running fit. -/
def Chan.sarFitted (c : Chan) (code : BitVec 12) : Int :=
  let r := sarUv code
  r + r * c.sarGain / 1000000 + c.sarOff

end Sys2Proof.Machine
end

