-- ==== Sys2Proof/Machine/Metrology.lean ====
section
/-!
DEFINITION. Metrology on the sealed die (11): ranging, cycles and their routing, pulses, shadow checks, the
seal procedure and the readings of class 0001h; slices and commits at a power failure (17 R427, R428).
-/
set_option Elab.async false
namespace Sys2Proof.Machine

/-! ### Channels (R251 to R258) -/

/-- Changing the elements that use a channel. -/
def updUsers (c : Nat) (f : Elem → Elem) (s : State) : State :=
  (s.chanElems c).foldl (fun t e => t.updElem e f) s

/-- The range mode of a channel (R252); bitstream channels have a fixed gain. -/
def State.rangeMode (s : State) (c : Nat) : Nat := if c < 80 then s.snum (0x5100 + c) 3 else 1

/-- The gain in force of a channel. -/
def State.gainOf (s : State) (c : Nat) : Nat :=
  if s.rangeMode c = 0 then (s.die.met.chan.get c).gain else s.snum (0x5100 + c) 4

/-- The gain after a drop from `g` at a SAR reading in µV: the highest lower gain whose full scale exceeds
it by a factor of at least 1.25, else 1 (R253). -/
def dropGain (g uv : Nat) : Nat :=
  ([64, 16, 4].find? fun k => decide (k < g) && decide (5 * uv * k ≤ 4 * 500000)).getD 1

/-- An overload of a channel (R253, R254, R256): `code` is the SAR sample at the detection, `repl` those that replace
samples, 3 at most for a drop. The low member of a pair takes them from the high member instead. -/
def adcOverload (c : Nat) (code : BitVec 12) (repl : List (BitVec 12)) (s : State) : State :=
  let x := s.die.met.chan.get c
  let drops := s.rangeMode c = 0 && decide (1 < x.gain)
  let taken := if drops then repl.take 3 else repl
  let clipped := if s.rangeMode c = 2 then 0 else (taken.filter sarClipped).length
  let s1 := s.updChan c fun x =>
    { x with gain := if drops then dropGain x.gain (x.sarFitted code).natAbs else x.gain,
             drops := if drops then stick 0xFFFFFFFF x.drops 1 else x.drops,
             replaced := stick 0xFFFFFFFF x.replaced taken.length,
             overs := stick 0xFFFFFFFF x.overs clipped, low := 0, loud := true }
  if taken.isEmpty then s1
  else updUsers c (fun x => { x with cycRep := true, cycOver := x.cycOver || clipped ≠ 0 }) s1

/-- ADC_OVERLOAD (R253): the overloaded sample is replaced by `first`, later ones by `later` (R254). -/
def execAdcOverload (ch : Fin 80) (sar first : BitVec 12) (later : List (BitVec 12)) (s : State) : Res :=
  .next (whenDie (adcOverload ch sar (first :: later)) s)

/-- GAIN_RAISE: one step, in mode 0, after 2 full cycles of the reference element below 40 % of the next full scale
(R255). -/
def execGainRaise (ch : Fin 80) (s : State) : Res :=
  .next (whenDie (fun s =>
    if s.rangeMode ch = 0 && decide (2 ≤ (s.die.met.chan.get ch).low) then
      s.updChan ch fun x => { x with gain := min 64 (x.gain * 4), low := 0 } else s) s)

/-- The OPEN record of an element's point is marked when the element gets FAULT (R273, 12 R298). -/
def elemFault (e : Nat) (s : State) : State :=
  match s.elemPoint e with
  | some p => flagOpen p fFAULT s
  | none => s

/-- A channel FAILED: FAULT on every element that uses it, logged (R273). -/
def chanFail (c : Nat) (s : State) : State :=
  let s1 := s.updChan c fun x => { x with check := 3, suspectBy := none }
  logAdd 6 [BitVec.ofNat 8 c] ((s.chanElems c).foldl (fun t e => elemFault e t) s1)

/-- BITSTREAM_MODFAIL (R251): MODFAIL is the channel's, and its elements get FAULT. -/
def execBitstreamModfail (b : Fin 64) (s : State) : Res :=
  .next (whenDie (fun s =>
    let s1 := s.updChan (80 + b) fun x => { x with modfail := true }
    if (s.die.met.chan.get (80 + b)).check = 3 then s1 else chanFail (80 + b) s1) s)

/-! ### Cycles (R262 to R268) -/

/-- Irms, or the magnitude of Imean, is below the starting current (R266, R278). -/
def State.creeps (s : State) (e : Nat) (c : CycleData) : Bool :=
  s.belowStart e c.i

/-- The register that takes active energy, and reactive energy if any (R266): 0 A+, 1 A−, 2 to 5 Q1 to Q4. -/
def activeReg (c : CycleData) : Nat := if 0 ≤ c.p then 0 else 1

/-- The quadrant of a cycle. -/
def reactiveReg (c : CycleData) : Option Nat :=
  if c.q = 0 then none else some (if 0 ≤ c.p then (if 0 < c.q then 2 else 5) else (if 0 < c.q then 3 else 4))

/-- Adding energy to registers of 64 + 32 bits that wrap (R267; 17 R423). -/
def addReg (k v : Nat) (b : Bank Nat) : Bank Nat := b.upd k fun x => (x + v) % 2 ^ 96

/-- The energies of a cycle into a set of six registers from `base` (R266). -/
def addCycle (base : Nat) (c : CycleData) (b : Bank Nat) : Bank Nat :=
  let b1 := addReg (base + activeReg c) c.eaMs.sum.natAbs b
  match reactiveReg c with
  | some k => addReg (base + k) c.er.natAbs b1
  | none => b1

/-! ### What a pulse output follows (R269) -/

/-- Changing a pulse output. -/
def State.updPls (s : State) (k : Nat) (f : Pulse → Pulse) : State :=
  { s with die.met.pls := s.die.met.pls.upd k f }

/-- The elements of a pulse output's source. -/
def State.pulseElems (s : State) (k : Nat) : List Nat :=
  let src := s.snum (0x5308 + k) 1
  if src < 256 then [src] else s.meterElems (src % 64)

/-- A pulse output's source is quiesced: it follows the test registers. -/
def State.pulseTest (s : State) (k : Nat) : Bool := (s.pulseElems k).any s.quiesced

/-- What it follows: source, register, constant, test registers. -/
def State.pulseKey (s : State) (k : Nat) : Nat × Nat × Nat × Bool :=
  (s.snum (0x5308 + k) 1, s.snum (0x5308 + k) 2, s.snum (0x5308 + k) 3, s.pulseTest k)

/-- The registers of R278 that an output's register code names. -/
def pulseRegs : Nat → List Nat
  | 0 => [0] | 1 => [1] | 2 => [2, 3] | _ => [4, 5]

/-- The pulses of the register so far: one for each 1/C kWh. -/
def State.pulsesOf (s : State) (k : Nat) : Nat :=
  let reg := fun e i => if s.pulseTest k then (s.die.met.elem.get e).test.get i else s.die.cur.reg.get (6 * e + i)
  let sum := ((s.pulseElems k).map fun e => ((pulseRegs (s.snum (0x5308 + k) 2)).map (reg e)).sum).sum
  sum * s.snum (0x5308 + k) 3 / (1000000 * 2 ^ 32)

/-- An output that follows something new counts from its present value; one whose register has wrapped too. -/
def pulseSync (k : Nat) (s : State) : State :=
  let x := s.die.met.pls.get k
  if x.follows = some (s.pulseKey k) && decide (x.count ≤ s.pulsesOf k) then s
  else s.updPls k fun x => { x with follows := some (s.pulseKey k), count := s.pulsesOf k }

/-- All outputs. -/
def pulseSyncAll (s : State) : State := (List.range 8).foldl (fun t k => pulseSync k t) s

/-- Routing a closed cycle's energy (R266, R267): quiesced elements to the test registers, others to their
registers and to the point. -/
def routeCycle (e : Nat) (c : CycleData) (s : State) : State :=
  if s.creeps e c then s
  else if s.quiesced e then s.updElem e fun x => { x with test := addCycle 0 c x.test }
  else
    let s1 := { s with die.cur.reg := addCycle (6 * e) c s.die.cur.reg }
    match s.elemPoint e with
    | some p => routePoint p (decide (c.p < 0)) c.eaMs s1
    | none => s1

/-- The element status of a closing cycle (R278). -/
def State.cycleStatus (s : State) (e : Nat) (c : CycleData) (block short : Bool) : BitVec 32 :=
  let x := s.die.met.elem.get e
  pack [(b2n (s.hasFault e), 0), (b2n (s.quiesced e), 1), (b2n (block || x.block), 2), (b2n (c.overrange || x.cycOver), 3),
    (b2n (c.replaced || x.cycRep), 4), (b2n x.switched, 6), (b2n short, 7), (b2n (s.creeps e c), 8),
    (b2n (s.hasModfail e), 9)]

/-- A parameter concerns an element that runs: its own entries, and those of its channels. -/
def State.concerns (s : State) (e : Nat) (w : ParamWrite) : Bool :=
  s.elemOn e && (w.idx = 0x5000 + e || w.idx = 0x5100 + s.snum (0x5000 + e) 2 || w.idx = 0x5100 + s.snum (0x5000 + e) 3)

/-- At an element's cycle boundary: committed parameters that wait for it (R275), and the temperature band
(R259). -/
def cycleBoundary (e : Nat) (s : State) : State :=
  let mine := s.die.met.toApply.filter (s.concerns e)
  let s1 := { s with die.met.toApply := s.die.met.toApply.filter fun w => !s.concerns e w }
  let s2 := mine.foldl (fun t w => applyParam w t) s1
  s2.updElem e fun x =>
    { x with due := false, cycRep := false, cycOver := false, switched := x.band.any (· ≠ s.die.met.band),
             band := some s.die.met.band }

/-- The largest magnitude in a list. -/
def peakOf (l : List Int) : Nat := l.foldl (fun a x => max a x.natAbs) 0

/-- Every sample of a cycle is below 40 % of the full scale of the next higher gain, and none was overloaded (R255). -/
def Chan.quiet (c : Chan) (peakUv : Nat) : Bool := !c.loud && decide (c.gain < 64) && decide (5 * peakUv * (4 * c.gain) < 1000000)

/-- At a boundary of a channel's reference element (R255, R262, R279): RMS and peak, the count toward a raise, the SAR fit
renewed from the samples that were not overloaded. What the fit gives is a free value within the agreement of R250. -/
def refCycle (e ch : Nat) (v : Int) (cal raw : List Int) (overs : Nat) (s : State) : State :=
  if s.refElem ch ≠ some e then s
  else
    let f := s.freeBits 32
    (s.updChan ch fun x =>
      { x with rms := v.natAbs, peak := peakOf cal / 1000, overs := stick 0xFFFFFFFF x.overs overs,
               low := if s.rangeMode ch = 0 && x.quiet (peakOf raw) then x.low + 1 else 0, loud := false,
               sarGain := if x.loud then x.sarGain else ((f.extractLsb' 0 16).toNat % 10001 : Nat) - 5000,
               sarOff := if x.loud then x.sarOff else ((f.extractLsb' 16 16).toNat % 1173 : Nat) - 586 }).used

/-- The values of the channels whose reference element this is. -/
def cycleRms (e : Nat) (r : CycleRaw) (c : CycleData) (s : State) : State :=
  let ov := s.cycleOvers e r
  refCycle e (s.iChan e) c.i (s.cycleI e r) (r.x.map (·.2)) ov.2
    (refCycle e (s.vChan e) c.v (s.cycleV e r) (r.x.map (·.1)) ov.1 s)

/-- An element's cycle closes (R262, R266): nothing while the reference has failed (R268). Its end is stamped with MTK and
the sample index (R262). -/
def closeCycle (e : Nat) (r : CycleRaw) (block short : Bool) (s : State) : State :=
  if !s.elemOn e || s.die.met.refFail then s
  else
    let c := s.cycleOf e r
    let st := s.cycleStatus e c block short
    let s1 := (routeCycle e c (pulseSyncAll s)).updElem e fun x =>
      { x with status := st, last := some (c, s.die.legal.mtk), lastIdx := rawEnd r }
    (cycleBoundary e (cycleRms e r c s1)).used

/-- What ends an element's cycle: a crossing that qualifies, or with DC elements and in block mode a block of 320
samples (R262). -/
def State.cycleOk (s : State) (e : Nat) (r : CycleRaw) : Bool :=
  if s.snum (0x5000 + e) 1 = 2 || (s.die.met.elem.get e).block then rawBlock r else s.qualifies e r

/-- A cycle ends in the ordinary way: not during a power-fail warning, whose spans are slices (R268); after
its release the element resumes cycles (17 R432). A crossing that does not qualify ends no cycle. -/
def cycleEnd (e : Nat) (r : CycleRaw) (s : State) : State :=
  if s.warned || !s.cycleOk e r then s
  else closeCycle e r false false { s with die.pf := .none }

/-- ELEMENT_CYCLE_END (R266). -/
def execElementCycleEnd (e : Fin 128) (c : CycleRaw) (s : State) : Res := .next (whenDie (cycleEnd e c) s)

/-- Entry into block mode, 25 ms after the last qualifying crossing: the span closes with BLOCK (R262). -/
def blockEntry (e : Nat) (r : CycleRaw) (s : State) : State :=
  if s.snum (0x5000 + e) 1 ≠ 1 || (s.die.met.elem.get e).block || s.warned || decide (r.x.length < 400) then s
  else (closeCycle e r true false s).updElem e fun x => { x with block := true }

/-- BLOCK_MODE_ENTRY (R262). -/
def execBlockModeEntry (e : Fin 128) (c : CycleRaw) (s : State) : Res := .next (whenDie (blockEntry e c) s)

/-- Return from block mode: at the crossing that ends the tenth qualifying cycle in a row the block in progress ends
(R262). -/
def blockReturn (e : Nat) (r : CycleRaw) (cycles : List CycleRaw) (s : State) : State :=
  if !(s.die.met.elem.get e).block || s.warned || cycles.length ≠ 10 || !cycles.all (s.qualifies e) then s
  else (closeCycle e r true false s).updElem e fun x => { x with block := false }

/-- BLOCK_MODE_RETURN (R262). -/
def execBlockModeReturn (x : BlockReturn) (s : State) : Res :=
  .next (whenDie (blockReturn x.elem x.c x.cycles) s)

/-- The square of the group value of order h, from the bins of 5 Hz (R265): `sixty` for a nominal 60 Hz. -/
def groupSq (sixty : Bool) (c : List Nat) (h : Nat) : Nat :=
  let m := (if sixty then 12 else 10) * h
  let j := if sixty then 5 else 4
  let sq := fun k => c.getD k 0 * c.getD k 0
  (sq (m - j - 1) + sq (m + j + 1)) / 2 + ((List.range (2 * j + 1)).map fun k => sq (m - j + k)).sum

/-- A channel's reference element has a nominal frequency of 60 Hz. -/
def State.sixtyHz (s : State) (ch : Nat) : Bool := (s.refElem ch).any fun e => s.snum (0x5000 + e) 4 = 60

/-- The band of a channel's harmonic window (R259). -/
def State.harmBand (s : State) (ch : Nat) : Nat := ((s.die.met.chan.get ch).hBand).getD s.die.met.band

/-- THD in 1/10000: without a fundamental it has no value, a free value (R265). -/
def State.thdOf (s : State) (g : List Nat) : Nat :=
  let g1 := g.getD 0 0
  if g1 = 0 then (s.freeBits 32).toNat else isqrt ((g.drop 1).map fun x => x * x).sum 160 0 * 10000 / g1

/-- A harmonic window ends: the RMS values of the bins, µV at the input, give the calibrated group values in mV or mA by
order, THD at 64 (R265); a band change takes effect with the next window (R259). -/
def harmonicEnd (ch : Nat) (bins : List Nat) (s : State) : State :=
  if s.snum (0x5100 + ch) 1 = 0 then s
  else
    let c := bins.map fun x : Nat => (s.calib1 ch (s.harmBand ch) (x : Int)).natAbs
    let g := (List.range 63).map fun h => isqrt (groupSq (s.sixtyHz ch) c (h + 1)) 160 0 / 1000
    (s.updChan ch fun x =>
      { x with g := g.zipIdx.foldl (fun b y => b.set (y.2 + 1) y.1) (x.g.set 64 (s.thdOf g)), gMtk := s.die.legal.mtk,
               hBand := some s.die.met.band }).used

/-- The RMS value of each bin, from the RMS of its in-phase and its quadrature part (R265). -/
def binRms (re im : List Int) : List Nat :=
  List.zipWith (fun a b => isqrt (a.natAbs * a.natAbs + b.natAbs * b.natAbs) 80 0) re im

/-- HARMONIC_WINDOW_END (R265). -/
def execHarmonicWindowEnd (ch : Fin 144) (re im : List Int) (s : State) : Res :=
  .next (whenDie (harmonicEnd ch (binRms re im)) s)

/-- The band after a reading in °C (R258). -/
def nextBand (b : Nat) (t : Int) : Nat :=
  if t ≥ -30 + 10 * (b : Int) + 1 then min 14 (b + 1)
  else if t ≤ -40 + 10 * (b : Int) - 1 then b - 1
  else b

/-- TEMPERATURE_BAND_SAMPLE (R258). -/
def execTemperatureBandSample (temp : Int) (s : State) : Res :=
  .next (whenDie (fun s => { s with die.met.temp := temp, die.met.band := nextBand s.die.met.band temp }) s)

/-! ### Shadow checks (R272, R273) -/

/-- A shadow disagrees again; at 2 in succession it is retired. -/
def shadowDisagree (k : Nat) (s : State) : State :=
  let n := s.die.met.disagree.get k + 1
  let s1 := { s with die.met.disagree := s.die.met.disagree.set k n }
  if n < 2 then s1
  else logAdd 7 [BitVec.ofNat 8 k]
    { s1 with die.met.retired := putBit s1.die.met.retired k true, die.met.shadowFail := true }

/-- A shadow agrees with the outcome: its succession ends. -/
def shadowAgree (k : Nat) (s : State) : State := { s with die.met.disagree := s.die.met.disagree.set k 0 }

/-- The high member of a dual-range pair (R256). -/
def State.highMember (s : State) (c : Nat) : Bool :=
  c < 80 && (s.rangeMode c = 3 || (c % 2 = 1 && s.rangeMode (c - 1) = 2))

/-- The shadow that checks a channel: SH(c mod 8), or where that one is retired, one of the others, to which its channels go
in ascending order (R272, R273). -/
def State.shadowFor (s : State) (c : Nat) : Option Nat :=
  let left := (List.range 8).filter fun k => !s.die.met.retired.getLsbD k
  if left.contains (c % 8) then some (c % 8) else left[c / 8 % max 1 left.length]?

/-- The next available shadow after SHj, for a second check (R273). -/
def State.nextShadow (s : State) (j : Nat) : Option Nat :=
  ((List.range 7).map fun k => (j + 1 + k) % 8).find? fun k => !s.die.met.retired.getLsbD k

/-- The shadow that is to check a channel now. -/
def State.checker (s : State) (c : Nat) : Option Nat :=
  match (s.die.met.chan.get c).suspectBy with
  | some j => s.nextShadow j
  | none => s.shadowFor c

/-- A comparison passes (R273): within 0.1 % of the working value plus 0.01 % of full scale, all in µV, and at most 2.5 µs
apart. -/
def State.shadowPass (s : State) (c shadowUv workUv delayNs : Nat) : Bool :=
  decide (10000 * ((shadowUv : Int) - workUv).natAbs ≤ 10 * workUv + 500000 / max 1 (s.gainOf c)) && decide (delayNs ≤ 2500)

/-- A comparison ends (R273). Unused channels and the high members of pairs are not checked (R272). -/
def shadowCheck (k c : Nat) (pass : Bool) (s : State) : State :=
  let x := s.die.met.chan.get c
  if s.checker c ≠ some k || s.snum (0x5100 + c) 1 = 0 || s.highMember c || x.check = 3 then s
  else match x.suspectBy with
    | some j =>
      if pass then shadowDisagree j (s.updChan c fun x => { x with check := 1, suspectBy := none })
      else shadowAgree j (chanFail c s)
    | none =>
      if pass then shadowAgree k (s.updChan c fun x => { x with check := 1 })
      else s.updChan c fun x => { x with check := 2, suspectBy := some k }

/-- SHADOW_CHECK_END (R273). -/
def execShadowCheckEnd (k : Fin 8) (ch : Fin 80) (x : Comparison) (s : State) : Res :=
  .next (whenDie (fun s => shadowCheck k ch (s.shadowPass ch x.shadowUv x.workUv x.delayNs) s) s)

/-! ### Pulses (R269) -/

/-- A pulse is emitted with the on time in force. -/
def emitPulse (s : State) (k : Nat) (x : Pulse) : Pulse := { x with high := true, ton := s.snum (0x5308 + k) 4 }

/-- Another pulse falls due: the register followed has passed the next 1/C kWh. -/
def State.pulseOwed (s : State) (k : Nat) : Bool :=
  let x := s.die.met.pls.get k
  x.follows = some (s.pulseKey k) && decide (x.count < s.pulsesOf k)

/-- It is emitted, or pending while one is out (R269). -/
def pulseDue (k : Nat) (s : State) : State :=
  if !s.pulseOwed k then s
  else s.updPls k fun x =>
    let y := { x with count := x.count + 1 }
    if x.high then { y with pend := min 65535 (x.pend + 1), ovf := x.ovf || x.pend = 65535 } else emitPulse s k y

/-- PULSE_DUE (R269). -/
def execPulseDue (k : Fin 8) (s : State) : Res := .next (whenDie (pulseDue k) s)

/-- The pulse and its low time end: a pending one is emitted. -/
def pulseEnd (k : Nat) (s : State) : State :=
  s.updPls k fun x =>
    if !x.high then x
    else if x.pend = 0 then { x with high := false }
    else emitPulse s k { x with pend := x.pend - 1 }

/-- PULSE_ON_TIME_END (R269). -/
def execPulseOnTimeEnd (k : Fin 8) (s : State) : Res := .next (whenDie (pulseEnd k) s)

/-! ### Power failure (R268; 17 R427, R428) -/

/-- A slice ends: a short cycle, then the commit of what it routed; the first commit is the power-fail
commit (17 R427). The residue starts anew. -/
def sliceEnd (e : Nat) (c : CycleRaw) (s : State) : State :=
  if s.die.pf = .none then s
  else
    let s1 := commit ((closeCycle e c false true s).updElem e fun x => { x with residue := 0 })
    { s1 with die.pf := if s.die.pf = .warned then .landed else s.die.pf, die.pfSaved := true }

/-- SLICE_END (R268). -/
def execSliceEnd (e : Fin 128) (c : CycleRaw) (s : State) : Res := .next (whenDie (sliceEnd e c) s)

/-- The energy of the samples since the last slice, µWh: what the residue register holds (17 R428). -/
def State.residueOf (s : State) (e : Nat) (r : CycleRaw) : Int := ((s.cycleOf e r).eaMs.sum * 1000).tdiv (2 ^ 32)

/-- RESIDUE_UPDATE: after the power-fail commit (17 R428). -/
def execResidueUpdate (e : Fin 128) (c : CycleRaw) (s : State) : Res :=
  .next (whenDie (fun s => if s.die.pf = .landed || s.die.pf = .released then
    s.updElem e fun x => { x with residue := s.residueOf e c } else s) s)

/-- PERIODIC_COMMIT: abandoned while a warning is in force (17 R427). -/
def execPeriodicCommit (s : State) : Res :=
  .next (whenDie (fun s => if s.warned then s else { commit s with die.pfSaved := false }) s)

/-! ### Readings (R277) -/

/-- V, I, P, Q, S, PF and f of a cycle as REAL32. -/
def cycleReals (c : CycleData) : List Byte :=
  ([real32 c.v 1000, real32 c.i 1000, real32 c.p 1000, real32 c.q 1000, real32 c.sVa 1000, real32 c.pf 10000,
    real32 c.f 1000].map fun w => toLE 4 w.toNat).flatten

/-- The six registers of an element, whole mWh. -/
def State.elemRegs (s : State) (e : Nat) : List Nat := (List.range 6).map fun i => s.die.cur.reg.get (6 * e + i) / 2 ^ 32

/-- Status, echo, MTK and flags of a reading (R277). -/
def readHead (st : Status) (kind part unit : Nat) : List Byte :=
  [BitVec.ofNat 8 (statusCode st), BitVec.ofNat 8 kind, BitVec.ofNat 8 part, BitVec.ofNat 8 unit]

/-- An element's status as it stands (11 R278). -/
def State.elemStatus (s : State) (e : Nat) : Word :=
  let x := s.die.met.elem.get e
  let w := (x.status &&& ~~~(0x223 : Word)) |||
    pack [(b2n (s.hasFault e), 0), (b2n (s.quiesced e), 1), (b2n s.die.met.refFail, 5), (b2n (s.hasModfail e), 9)]
  w

/-- MTK and flags of an element. -/
def State.elemStamp (s : State) (e : Nat) : Nat × BitVec 32 :=
  let x := s.die.met.elem.get e
  ((x.last.map (·.2)).getD 0, s.elemStatus e)

/-- KIND 0. -/
def State.readElem (s : State) (kind part unit : Nat) : List Byte :=
  let t := s.elemStamp unit
  let x := (s.die.met.elem.get unit).last
  readHead .ok kind part unit ++ toLE 8 t.1 ++ toLE 4 t.2.toNat ++
    (match x with | some (c, _) => cycleReals c | none => List.replicate 28 0) ++
    ((s.elemRegs unit).map fun v => toLE 8 v).flatten

/-- KIND 1. -/
def State.readChan (s : State) (kind part unit : Nat) : List Byte :=
  let t := ((s.refElem unit).map s.elemStamp).getD (0, 0)
  readHead .ok kind part unit ++ toLE 8 t.1 ++ toLE 4 t.2.toNat ++
    toLE 4 (real32 (s.die.met.chan.get unit).rms 1000).toNat ++ toLE 4 (real32 (s.die.met.chan.get unit).peak 1000).toNat ++
    toLE 4 (real32 (s.gainOf unit) 1).toNat

/-- KIND 2. -/
def State.readHarm (s : State) (kind part unit : Nat) : List Byte :=
  let x := s.die.met.chan.get unit
  let t := ((s.refElem unit).map s.elemStamp).getD (0, 0)
  readHead .ok kind part unit ++ toLE 8 x.gMtk ++ toLE 4 t.2.toNat ++
    ((List.range 32).map fun i => toLE 4 (real32 (x.g.get (32 * part + i + 1)) 1000).toNat).flatten

/-- KIND 3. -/
def State.readPoint (s : State) (kind part unit : Nat) : List Byte :=
  let es := s.meterElems unit
  let t := es.foldl (fun (a : Nat × BitVec 32) e => (max a.1 (s.elemStamp e).1, a.2 ||| (s.elemStamp e).2)) (0, 0)
  readHead .ok kind part unit ++ toLE 8 t.1 ++ toLE 4 t.2.toNat ++ List.replicate 28 0 ++
    ((List.range 6).map fun i => toLE 8 ((es.map fun e => (s.elemRegs e).getD i 0).sum % 2 ^ 64)).flatten

/-- A class 0001h request (R277). -/
def State.metrology (s : State) (kind part unit : Nat) : List Byte :=
  if kind = 0 && part = 0 then (if unit < 128 && s.elemOn unit then s.readElem kind part unit else readHead .absent kind part unit)
  else if kind = 1 && part = 0 then
    (if unit < 144 && s.snum (0x5100 + unit) 1 ≠ 0 then s.readChan kind part unit else readHead .absent kind part unit)
  else if kind = 2 && decide (part ≤ 1) then
    (if unit < 144 && s.snum (0x5100 + unit) 1 ≠ 0 then s.readHarm kind part unit else readHead .absent kind part unit)
  else if kind = 3 && part = 0 then
    (if unit < 64 && s.meterElems unit ≠ [] then s.readPoint kind part unit else readHead .absent kind part unit)
  else readHead .range kind part unit

/-- The roles that may read measured quantities (01 R33), of those the fuse set has (R35). -/
def State.mayMeter (s : State) (r : Role) : Bool :=
  s.dieRole r && !(r = .manufacturer || r = .firmware)

/-- The answer to a class 0001h request of a role. -/
def metrologyAnswer (role : Role) (kind part unit : Nat) (s : State) : List Byte × State :=
  if s.mayMeter role then (s.metrology kind part unit, s)
  else (readHead .denied kind part unit, s)

/-- METROLOGY_READ (R277). -/
def execMetrologyRead (rq : Rq) (kind part : BitVec 8) (unit : BitVec 16) (s : State) : Res :=
  .next (whenDie (fun s =>
    let r := metrologyAnswer rq.role kind.toNat part.toNat unit.toNat s
    dieReply rq.tag 1 r.1 r.2) s)

/-! ### The seal procedure (R274, R275) -/

/-- A legal parameter (R274). -/
def isLegalParam (idx sub : Nat) : Bool :=
  (within 0x5000 idx 0x507F && (within 1 sub 9 || sub = 0x0B)) || (within 0x5100 idx 0x518F && within 1 sub 4) ||
    (within 0x5308 idx 0x530F && within 1 sub 3) || (idx = 0x5310 && sub = 1) || (within 0x5320 idx 0x535F && within 1 sub 4)

/-- The parameters as they will be once all that is staged has been applied. -/
def State.staged (s : State) : State := s.die.met.staged.foldl (fun t w => applyParam w t) s

/-- A parameter belongs to the channels selected, in the parameters as they will be. -/
def State.inSelection (s : State) (sel : BitVec 144) (w : ParamWrite) : Bool :=
  let t := applyParam w s.staged
  let el := fun e => sel.getLsbD (t.snum (0x5000 + e) 2) || sel.getLsbD (t.snum (0x5000 + e) 3)
  let pm := fun p => [2, 3, 4].any fun k => el (t.snum (0x5320 + p) k)
  if within 0x5000 w.idx 0x507F then el (w.idx - 0x5000)
  else if within 0x5100 w.idx 0x518F then sel.getLsbD (w.idx - 0x5100)
  else if within 0x5308 w.idx 0x530F then
    let src := t.snum w.idx 1
    if src < 256 then el (src % 128) else pm (src % 64)
  else if w.idx = 0x5310 then (List.range w.data.length).all fun i => sel.getLsbD ((w.off + i) / 120)
  else pm (w.idx - 0x5320)

/-- Every delay of the coefficient table is within −1024 to 1024 (R260). -/
def coefOk (s : State) : Bool := s.die.met.coef.cells.all fun c =>
  let d := (c.2.extractLsb' 32 16).toInt
  decide (-1024 ≤ d) && decide (d ≤ 1024)

/-- A write of a legal parameter (R274, R275): its status, and the state with it staged. -/
def paramWrite (role : Role) (idx sub : Nat) (data : List Byte) (s : State) : Status × State :=
  match s.die.met.sealSel with
  | none => (.sealed, s)
  | some sel =>
    let w : ParamWrite := ⟨idx, sub, 8 * s.die.met.coefOff, data⟩
    if role ≠ .verifier then (.sealed, s)
    else if !((objAt (s.elemDc idx) idx sub).map (·.valOk data)).getD false ||
        (idx = 0x5310 && decide (17280 < w.off + data.length)) ||
        (idx = 0x5310 && !coefOk (applyParam w s.staged)) then (.range, s)
    else if !s.inSelection sel w then (.state, s)
    else (.ok, { s with die.met.staged := s.die.met.staged ++ [w] })

/-- SEAL_PARAMETER_WRITE (R274). -/
def execSealParameterWrite (rq : Rq) (idx : BitVec 16) (sub : BitVec 8) (data : List Byte) (s : State) : Res :=
  .next (whenDie (fun s => writeReply rq.tag idx.toNat sub.toNat data.length
    (if !s.dieRole rq.role then (.denied, s)
     else if isLegalParam idx.toNat sub.toNat then paramWrite rq.role idx.toNat sub.toNat data s
     else (.absent, s))) s)

/-- The seal procedure opens (R275). -/
def sealOpen (sel : BitVec 144) (s : State) : Status × State :=
  if s.die.met.sealSel.isSome then (.state, s)
  else
    let hit := (List.range 128).filter (s.elemSelected sel)
    if hit.any fun e => ((s.elemPoint e).bind s.openRec).isSome then (.state, s)
    else
      let s1 := hit.foldl (fun t e => t.updElem e fun x => { x with test := ⟨0, []⟩ }) s
      (.ok, { s1 with die.met.sealSel := some sel, die.met.staged := [] })

/-- SEAL_OPEN (R275). -/
def execSealOpen (rq : Rq) (sel : BitVec 144) (s : State) : Res :=
  .next (whenDie (fun s => writeReply rq.tag 0x53F0 2 18
    (if !s.dieRole rq.role || rq.role ≠ .verifier then (.denied, s) else sealOpen sel s)) s)

/-- The largest pulse rate of R269 is kept for a maximum power, a constant and an on time. -/
def pulseRateOk (pmax const ton : Nat) : Bool := decide (pmax * const * 2 * ton ≤ 3240000000)

/-- The sum of the maximum powers of a pulse output's source. -/
def State.pulsePower (s : State) (k : Nat) : Nat :=
  ((s.pulseElems k).map fun e => s.snum (0x5000 + e) 9).sum

/-- Each element belongs to at most one point meter (R263). -/
def State.metersOk (s : State) : Bool := decide ((List.range 64).map s.meterElems).flatten.Nodup

/-- A parameter set keeps R261, R263, R269 and the Imin range of R270. -/
def State.paramsOk (s : State) : Bool :=
  let on := (List.range 128).filter s.elemOn
  let usable := fun c kind => decide (c < 144) && s.snum (0x5100 + c) 1 = kind && !s.highMember c
  (on.all fun e =>
    usable (s.snum (0x5000 + e) 2) 2 && usable (s.snum (0x5000 + e) 3) 1 &&
    (on.filter fun f => s.snum (0x5000 + f) 2 = s.snum (0x5000 + e) 2).length = 1 &&
    (s.snum (0x5000 + e) 1 ≠ 2 ||
      within (2 * s.snum (0x5000 + e) 8) (s.snum (0x5000 + e) 0x0B) 500)) &&
  s.metersOk && (List.range 8).all fun k => pulseRateOk (s.pulsePower k) (s.snum (0x5308 + k) 3) (s.snum (0x5308 + k) 4)

/-- The bytes of the legal parameters as written, for the digests of R275. -/
def State.paramBytes (s : State) : List Byte :=
  (s.die.obj.cells.map fun x => if isLegalParam (x.1 / 256) (x.1 % 256) then toLE 3 x.1 ++ x.2.getD [] else []).flatten ++
    (s.die.met.coef.cells.map fun x => toLE 2 x.1 ++ toLE 8 x.2.toNat).flatten

/-- A selected FAILED channel is checked again: on a pass it is PASS, and an element with no other FAILED
channel loses FAULT (R273). -/
def recheck (c : Nat) (s : State) : State :=
  logAdd 6 [BitVec.ofNat 8 c] (s.updChan c fun x => { x with check := 1, suspectBy := none, modfail := false })

/-- Close with commit (R275): the parameters of elements that run wait for their next cycle boundary. -/
def sealCommit (pass : BitVec 144) (s : State) : Status × State :=
  match s.die.met.sealSel with
  | none => (.state, s)
  | some sel =>
    if !s.staged.paramsOk then (.range, s)
    else
      let waits := fun w => (List.range 128).any fun e => s.concerns e w
      let dig := fun (t : State) => toBE 32 (Config.digest 1 t.paramBytes).toNat
      let n := stick 0xFFFFFFFF s.die.met.calib 1
      let s1 := { s with
        die.met.sealSel := none, die.met.staged := [], die.met.calib := n,
        die.met.toApply := s.die.met.toApply ++ s.die.met.staged.filter waits }
      let s2 := (s.die.met.staged.filter fun w => !waits w).foldl (fun t w => applyParam w t) s1
      let s3 := ((List.range 128).filter fun e => s.die.met.staged.any (s.concerns e)).foldl
        (fun t e => t.updElem e fun x => { x with due := true }) s2
      let s4 := logAdd 5 (toLE 18 sel.toNat ++ [1] ++ toLE 4 n ++ dig s ++ dig s.staged) s3
      (.ok, ((List.range 144).filter fun c => sel.getLsbD c && (s.die.met.chan.get c).check = 3 && pass.getLsbD c).foldl
        (fun t c => recheck c t) s4)

/-- SEAL_CLOSE_COMMIT (R275). -/
def execSealCloseCommit (rq : Rq) (recheckPass : BitVec 144) (s : State) : Res :=
  .next (whenDie (fun s => writeReply rq.tag 0x53F0 3 1
    (if !s.dieRole rq.role || rq.role ≠ .verifier then (.denied, s) else sealCommit recheckPass s)) s)

/-- Close with abandon (R275). -/
def sealClose (s : State) : Status × State :=
  if s.die.met.sealSel.isNone then (.state, s) else (.ok, sealAbandon s)

/-- SEAL_CLOSE_ABANDON (R275). -/
def execSealCloseAbandon (rq : Rq) (s : State) : Res :=
  .next (whenDie (fun s => writeReply rq.tag 0x53F0 3 1
    (if !s.dieRole rq.role || rq.role ≠ .verifier then (.denied, s) else sealClose s)) s)

/-- SEAL_TIMEOUT (R275). -/
def execSealTimeout (s : State) : Res := .next (whenDie sealAbandon s)

end Sys2Proof.Machine
end

