-- ==== Sys2Proof/Machine/SealedObjects.lean ====
section
/-!
DEFINITION. Object access of classes 0003h to 0006h (12 R283, R312 to R315; 11 R278 to R280): the values of
the entries the sealed die serves, and its writes. The object server on the control die (06) uses the same
operations.
-/
set_option Elab.async false
namespace Sys2Proof.Machine

/-! ### Values -/

/-- The computed quantities of an element, by subindex from 20h. -/
def State.elemReal (s : State) (e k : Nat) : List Byte :=
  match (s.die.met.elem.get e).last with
  | none => List.replicate 4 0
  | some (c, _) =>
    toLE 4 (match k with
      | 0 => real32 c.v 1000 | 1 => real32 c.i 1000 | 2 => real32 c.p 1000 | 3 => real32 c.q 1000
      | 4 => real32 c.sVa 1000 | 5 => real32 c.pf 10000 | 6 => real32 c.f 1000 | 7 => real32 c.vrip 1000
      | _ => real32 c.irip 1000).toNat

/-- Status entries of an element; none where the entry is a parameter. -/
def State.elemEntry (s : State) (e sub : Nat) : Option (List Byte) :=
  if sub = 0x0A then some (toLE 4 (s.elemStatus e).toNat)
  else if within 0x10 sub 0x15 then some (toLE 8 (s.die.cur.reg.get (6 * e + (sub - 0x10)) / 2 ^ 32))
  else if within 0x16 sub 0x1B then some (toLE 8 ((s.die.met.elem.get e).test.get (sub - 0x16) / 2 ^ 32))
  else if within 0x20 sub 0x28 then some (s.elemReal e (sub - 0x20))
  else none

/-- Status entries of a channel. -/
def State.chanEntry (s : State) (c sub : Nat) : Option (List Byte) :=
  let x := s.die.met.chan.get c
  match sub with
  | 5 => some (toLE 1 (s.gainOf c))
  | 6 => some (toLE 4 (real32 x.rms 1000).toNat)
  | 7 => some (toLE 4 x.drops)
  | 8 => some (toLE 4 x.replaced)
  | 9 => some (toLE 4 x.overs)
  | 0x0A => some (toLE 1 x.check)
  | _ => none

/-- 5300h to 53FFh. -/
def State.metroEntry (s : State) (idx sub : Nat) : Option (List Byte) :=
  let m := s.die.met
  if within 0x5308 idx 0x530F && sub = 5 then
    let x := m.pls.get (idx - 0x5308)
    some (toLE 4 (x.pend + 65536 * b2n x.ovf))
  else match idx, sub with
    | 0x5300, 1 => some (toLE 1 m.band)
    | 0x5300, 2 => some (toLE 1 (ofInt 8 m.temp))
    | 0x5300, 3 => some (toLE 1 m.retired.toNat)
    | 0x5310, 1 => some ((List.range (min 4096 (17280 - 8 * m.coefOff))).map fun i => s.coefByte (8 * m.coefOff + i))
    | 0x5310, 2 => some (toLE 2 m.coefOff)
    | 0x53F0, 1 => some (toLE 1 (b2n m.sealSel.isSome))
    | 0x53F0, 4 => some (toLE 4 m.calib)
    | _, _ => none

/-- A register value, whole mWh, as UNSIGNED64. -/
def mwhBytes (n : Nat) (x : Int) : List Byte := toLE n (ofInt (8 * n) (wholeMwh x))

/-- An interval's energy, whole mWh, as UNSIGNED32 that sticks at its largest value (17 R423). -/
def intervalBytes (x : Int) : List Byte := toLE 4 (min 0xFFFFFFFF (wholeMwh x).toNat)

/-- The bytes of an interval entry (R290). -/
def IntEntry.bytes (e : IntEntry) : List Byte :=
  toLE 8 e.mtk ++ intervalBytes e.imp ++ intervalBytes e.exp ++ toLE 2 e.lenS ++ toLE 2 e.flags.toNat ++ [BitVec.ofNat 8 e.tariff, 0, 0, 0]

/-- Entries of a point (R314). -/
def State.billEntry (s : State) (p sub : Nat) : Option (List Byte) :=
  let b := s.die.cur.pts.get p
  if within 1 sub 0x10 then some (mwhBytes 8 (b.imp.get (sub - 1)))
  else if within 0x11 sub 0x20 then some (mwhBytes 8 (b.exp.get (sub - 0x11)))
  else match sub with
    | 0x21 => some (mwhBytes 8 b.unbImp)
    | 0x22 => some (mwhBytes 8 b.unbExp)
    | 0x23 => some (toLE 8 (match s.openRec p with | some r => r.serial | none => 0))
    | 0x24 => some (toLE 2 ((s.refusals p).foldl (fun a k => a + 2 ^ k) 0))
    | 0x25 => some (intervalBytes b.intImp)
    | 0x26 => some (toLE 4 b.mean)
    | 0x27 => some (toLE 4 b.maxW)
    | 0x28 => some (toLE 8 b.maxMtk)
    | 0x2A => some (toLE 4 b.opened)
    | 0x31 => some ((b.ring.map IntEntry.bytes).flatten)
    | _ => none

/-- The bytes of a legal-log entry (R303). -/
def LogEntry.bytes (e : LogEntry) : List Byte :=
  toLE 4 e.idx ++ toLE 2 e.kind ++ [0, 0] ++ toLE 8 e.mtk ++ toLE 8 e.lt ++ e.data.take 104 ++
    List.replicate (104 - e.data.length) 0

/-- The selector of a client: record (0) or log entry (1), by role (R315). -/
def selKey (role : Role) (which : Nat) : Nat := 2 * roleCode role + which

/-- Records stored. -/
def State.serials (s : State) : List Nat := s.die.cur.recs.map (·.serial)

/-- 5480h to 58FFh (R315). -/
def State.hubEntry (s : State) (role : Role) (idx sub : Nat) : Option (List Byte) :=
  let l := s.die.legal
  match idx, sub with
  | 0x5480, 2 => some (toLE 8 l.lastSerial)
  | 0x5480, 3 => some (toLE 2 s.die.cur.recs.length)
  | 0x5480, 5 => some (toLE 8 (s.serials.min?.getD 0))
  | 0x5480, 6 => some (toLE 8 (s.serials.max?.getD 0))
  | 0x5480, 7 => some l.recordPub
  | 0x5480, 8 => some (toLE 8 (s.die.sel.get (selKey role 0)))
  | 0x5480, 9 => some (match s.bill (s.die.sel.get (selKey role 0)) with | some r => r.bytes | none => [])
  | 0x5500, 1 => some (toLE 8 l.lt)
  | 0x5500, 2 => some (toLE 2 (ofInt 16 l.offset))
  | 0x5500, 5 => some (toLE 4 s.stepSum)
  | 0x5500, 6 => some (toLE 1 l.ltStat.toNat)
  | 0x5500, 7 => some (toLE 8 l.mtk)
  | 0x5600, 1 => some l.passive
  | 0x5600, 3 => some (toLE 1 l.passiveSt)
  | 0x5600, 4 => some l.active
  | 0x5600, 5 => some (toLE 1 s.die.cur.tariff)
  | 0x5700, 1 => some (toLE 4 ((l.log.head?.map (·.idx)).getD 0))
  | 0x5700, 2 => some (toLE 4 ((l.log.getLast?.map (·.idx)).getD 0))
  | 0x5700, 3 => some (toLE 2 s.logFree)
  | 0x5700, 4 => some (toLE 4 (s.die.sel.get (selKey role 1)))
  | 0x5700, 5 => some (match l.log.find? (·.idx = s.die.sel.get (selKey role 1)) with | some e => e.bytes | none => [])
  | 0x5700, 7 => some (toLE 4 l.notWritten)
  | 0x5800, 2 => some (toLE 1 l.tkGen)
  | 0x5800, 7 => some (toLE 4 l.ledger.length)
  | 0x5800, 8 => some (toLE 4 l.tokOk)
  | 0x5800, 9 => some (toLE 4 l.tokBad)
  | 0x5800, 0x0A => some (toLE 2 (match l.lockEnd with | some t => (t - l.mtk + 999) / 1000 | none => 0))
  | _, _ => none

/-- Entries of a session, k = 4 to 7 at q + k (R313). -/
def State.sessEntry (s : State) (r : Rec) (k sub : Nat) : Option (List Byte) :=
  match k, sub with
  | 4, 1 => some (toLE 1 (match r.st with | .open => 1 | .closing => 2 | .signed => 3))
  | 4, 2 => some (toLE 8 (ofInt 64 r.imp))
  | 4, 3 => some (toLE 8 (ofInt 64 r.exp))
  | 4, 4 => some (toLE 8 (ofInt 64 (s.recTotal r)))
  | 4, 5 => some (toLE 4 r.flags.toNat)
  | 4, 6 => some (toLE 4 ((List.range 16).map (r.secIn s.die.cur.tariff s.die.legal.mtk)).sum)
  | 5, 1 => some (toLE 1 r.purse.unit)
  | 5, 2 => some (toLE 4 r.purse.credited)
  | 5, 3 => some (toLE 4 (s.purseLeft r))
  | 5, 4 => some (toLE 1 r.purse.tokens)
  | 5, 5 => some (match r.purse.refund with | some x => x.2 | none => [])
  | 6, 1 => some r.lastReading
  | 6, 2 => some (toLE 2 r.reading)
  | 7, 1 => some (toLE 2 r.confirms)
  | 7, 2 => some r.bytes
  | _, _ => none

/-- The value of an entry of 5000h to 5FFFh for a client. -/
def State.sealedValue (s : State) (role : Role) (idx sub : Nat) : List Byte :=
  let v :=
    if within 0x5000 idx 0x507F then s.elemEntry (idx - 0x5000) sub
    else if within 0x5100 idx 0x518F then s.chanEntry (idx - 0x5100) sub
    else if within 0x5200 idx 0x528F then some (toLE 4 (real32 ((s.die.met.chan.get (idx - 0x5200)).g.get sub) 1000).toNat)
    else if within 0x5300 idx 0x53FF then s.metroEntry idx sub
    else if within 0x5400 idx 0x543F then s.billEntry (idx - 0x5400) sub
    else s.hubEntry role idx sub
  v.getD (s.sobj idx sub)

/-! ### Reads -/

/-- A role may read an entry; firmware reads for a session. -/
def State.mayRead (s : State) (role : Role) (o : Obj) : Bool := s.dieRole role && (role = .firmware || granted o.rd role)

/-- A read of a session's entry (R313): the record that the serial names. -/
def sealedSession (role : Role) (idx sub serial : Nat) (s : State) : Status × List Byte × State :=
  let k := idx % 8
  match objSession k sub with
  | none => (.absent, [], s)
  | some o =>
    if !s.mayRead role o then (.denied, [], s)
    else if k = 6 && sub = 1 then takeReading role serial s
    else match s.bill serial with
      | none => (.stale, [], s)
      | some r =>
        if k = 7 && sub = 2 && r.st ≠ .signed then (.state, [], s)
        else match s.sessEntry r k sub with
          | some v => (.ok, v, s)
          | none => (.absent, [], s)

/-- A read by the sealed die (R283): status, value and what reading it does. -/
def sealedRead (role : Role) (idx sub serial : Nat) (s : State) : Status × List Byte × State :=
  if within 0x4000 idx 0x47FF && decide (4 ≤ idx % 8) then sealedSession role idx sub serial s
  else if !within 0x5000 idx 0x5FFF then (.absent, [], s)
  else if s.chanUnfit idx sub then (.absent, [], s)
  else match objSealed (s.elemDc idx) idx sub with
    | none => (.absent, [], s)
    | some o =>
      if !s.mayRead role o then (.denied, [], s)
      else if idx = 0x5480 && sub = 9 && (s.sealedValue role idx sub).isEmpty then (.state, [], s)
      else (.ok, s.sealedValue role idx sub, s)

/-- The part of a value that a read asks for (R283). -/
def partOf (v : List Byte) (off len : Nat) : List Byte := (v.drop off).take (min 216 len)

/-- SEALED_OBJECT_READ (R283). -/
def execSealedObjectRead (rq : Rq) (idx : BitVec 16) (sub : BitVec 8) (off len : Nat) (serial : BitVec 64)
    (s : State) : Res :=
  .next (whenDie (fun s =>
    let r := sealedRead rq.role idx.toNat sub.toNat serial.toNat s
    let st : Status := if r.1 = .ok && decide (r.2.1.length < off) then .range else r.1
    let d := if st = .ok then partOf r.2.1 off len else []
    objReply rq.tag 1 st idx.toNat sub.toNat off r.2.1.length serial.toNat d r.2.2) s)

/-! ### Writes -/

/-- A pulse output's on time (11 R269). -/
def onTimeWrite (idx : Nat) (data : List Byte) (s : State) : Status × State :=
  if pulseRateOk (s.pulsePower (idx - 0x5308)) (s.snum idx 3) (ofLE data) then (.ok, s.setSobj idx 4 data) else (.range, s)

/-- Close of the seal procedure (11 R275); how the re-checks of this path come out is a free value. -/
def sealCloseWrite (n : Nat) (s : State) : Status × State :=
  if n = 1 then sealCommit (s.freeBits 144) s.used else sealClose s

/-- What a write of a whole value does, once the role and the value have passed. -/
def sealedApply (role : Role) (idx sub : Nat) (data : List Byte) (s : State) : Status × State :=
  let n := ofLE data
  let sel := fun w => (Status.ok, { s with die.sel := s.die.sel.set (selKey role w) n })
  if within 0x5308 idx 0x530F && sub = 4 then onTimeWrite idx data s
  else if within 0x5400 idx 0x543F && sub = 0x29 then demandReset role (idx - 0x5400) s
  else match idx, sub with
    | 0x5310, 2 => (.ok, { s with die.met.coefOff := n })
    | 0x53F0, 2 => sealOpen (BitVec.ofNat 144 n) s
    | 0x53F0, 3 => sealCloseWrite n s
    | 0x5480, 1 => if [5, 10, 15, 30, 60].contains n then (.ok, s.setSobj idx sub data) else (.range, s)
    | 0x5480, 4 => recCollect n s
    | 0x5480, 8 => sel 0
    | 0x5500, 3 => ltSet role n s
    | 0x5500, 4 => offsetSet role (toInt 16 n) s
    | 0x5600, 1 => calendarWritten data s
    | 0x5600, 2 => activateSet role n s
    | 0x5700, 4 => sel 1
    | 0x5700, 6 => logArchive role n s
    | 0x5800, 1 => tokenKey role data s
    | _, _ => (.ok, s.setSobj idx sub data)

/-- A write that asks for what no message does (01 R34): to set MTK, to change an interval or tariff register, or to
alter a signed record. -/
def isSealedWrite (idx sub : Nat) : Bool :=
  (idx = 0x5500 && sub = 7) || (within 0x5400 idx 0x543F && sub ≠ 0x29 && sub ≠ 0x30) || (idx = 0x5480 && sub = 9)

/-- A write of a whole value by the sealed die (R283, 11 R274). -/
def sealedWrite (role : Role) (idx sub : Nat) (data : List Byte) (s : State) : Status × State :=
  if !within 0x5000 idx 0x5FFF then (.absent, s)
  else match objSealed (s.elemDc idx) idx sub with
    | none => (.absent, s)
    | some o =>
      if !s.dieRole role then (.denied, s)
      else if isSealedWrite idx sub then (.sealed, s)
      else if isLegalParam idx sub then paramWrite role idx sub data s
      else if !granted o.wr role then (.denied, s)
      else if !o.valOk data then (if idx = 0x5600 && sub = 1 then calendarWritten data s else (.range, s))
      else sealedApply role idx sub data s

/-- SEALED_OBJECT_WRITE (R283). -/
def execSealedObjectWrite (rq : Rq) (idx : BitVec 16) (sub : BitVec 8) (off total : Nat) (data : List Byte)
    (s : State) : Res :=
  .next (whenDie (fun s =>
    let r : Status × State :=
      if !s.dieRole rq.role then (.denied, s)
      else match stagePart idx.toNat sub.toNat off total data s with
      | (.ok, some v, s1) => sealedWrite rq.role idx.toNat sub.toNat v s1
      | (st, _, s1) => (st, s1)
    objReply rq.tag 2 r.1 idx.toNat sub.toNat off data.length total [] r.2) s)

end Sys2Proof.Machine
end

