-- ==== Sys2Proof/Machine/Panels.lean ====
section
/-!
DEFINITION. The Burnisher's panels and the keypad (13 R316 to R332): rail sequences, the DC-balance ledger,
blink, the legal region, overlay content of class 0008h, and key handling.
-/
set_option Elab.async false
namespace Sys2Proof.Machine

/-! ### Shared operations -/

/-- A panel. -/
def State.panel (s : State) (m : Nat) : Panel := s.die.panels.get m

/-- Changing a panel. -/
def State.updPanel (s : State) (m : Nat) (f : Panel → Panel) : State :=
  { s with die.panels := s.die.panels.upd m f }

/-- An entry of 7800h + m. -/
def State.pobj (s : State) (m sub : Nat) : Nat := s.snum (0x7800 + m) sub

/-- W and H of a panel. -/
def State.panelW (s : State) (m : Nat) : Nat := s.pobj m 2
def State.panelH (s : State) (m : Nat) : Nat := s.pobj m 3

/-- Codes of the panel states (R342). -/
def panelCode : PanelSt → Nat
  | .off => 0 | .starting => 1 | .on => 2 | .failed => 3 | .stopping => 4

/-- OP 17 of class 0008h: the cause byte has no coding in the manual, a free value. -/
def panelNotice (m : Nat) (s : State) : State :=
  (dieSend 8 [0xFF, 17, BitVec.ofNat 8 m, 0, BitVec.ofNat 8 m, BitVec.ofNat 8 (panelCode (s.panel m).st),
    s.freeBits 8] s).used

/-- A panel takes a state: the notice, and what it means for the records of its points (R330). -/
def panelTo (m : Nat) (st : PanelSt) (s : State) : State :=
  displayCheck (panelNotice m (s.updPanel m fun x => { x with st := st }))

/-- The Burnisher drives a panel's sequencing latches through port 21, over the sealed link (R318). -/
def psqDrive (m : Nat) (mask : BitVec 4) (low : Bool) (s : State) : State :=
  let w : BitVec 8 := (mask.setWidth 8) <<< (4 * m)
  if s.app.lane.fault || !s.power.clkOk || !s.linkUp || (low && s.power.safe) then s
  else { s with power.psq := if low then s.power.psq ||| w else s.power.psq &&& ~~~w }

/-- Two clearing frames: every pixel's ledger is set (R319, R322). -/
def clearFrames (m : Nat) (s : State) : State :=
  s.updPanel m fun x =>
    { x with clears := x.clears + 2, lines := x.lines.updRange 480 fun _ l => { l with code := 2 } }

/-- The rails fall in the order of R320 after two clearing frames; a panel that stops because it is
disabled is OFF then. -/
def panelStopped (m : Nat) (s : State) : State :=
  let s1 := psqDrive m 7 false (clearFrames m (psqDrive m 8 false s))
  let s2 := s1.updPanel m fun x => { x with wait := .none }
  if (s2.panel m).st = .stopping then panelTo m .off s2 else s2

/-- The orderly stop (R320): while the link is down it waits for the link (R321). -/
def orderlyStop (m : Nat) (s : State) : State :=
  if s.linkUp then panelStopped m s else s.updPanel m fun x => { x with wait := .stop }

/-- The link is agreed again: the stops that waited run (R321). -/
def panelsLinked (s : State) : State :=
  (List.range 2).foldl (fun t m => if (t.panel m).wait = .stop then panelStopped m t else t) s

/-- The panel fails (R330). -/
def panelFail (m : Nat) (s : State) : State :=
  let s1 := girthWithdraw (fun r => r.port = 21 && r.kind = 6 && r.unit = m) s
  orderlyStop m (panelTo m .failed (s1.updPanel m fun x =>
    { x with rearm := false, wait := .none, retry := false, newGeom := none, faulty := 0 }))

/-- A request of kind 6 for the panel, through port 21 (R319): made again after BUSY. -/
def panelRequest (m : Nat) (s : State) : State :=
  let r := girthSubmit 21 none 6 m 0 s
  r.2.updPanel m fun x => { x with wait := .clear, retry := decide (r.1 = .busy) }

/-! ### Start and stop (R319, R320, R330) -/

/-- The enable is set: a panel that is OFF, or FAILED with its enable written 0 since, starts; during a power-fail warning it
waits for the release (17 R432). -/
def panelEnableSet (m : Nat) (s : State) : State :=
  let x := s.panel m
  let s1 := s.setSobj (0x7800 + m) 1 [1]
  if !s.power.pfin && (x.st = .off || (x.st = .failed && x.rearm)) then
    panelTo m .starting (s1.updPanel m fun x => { x with wait := .none, retry := false, faulty := 0 })
  else s1

/-- Steps 2 to 6 of the start: rails, timing, crack loop, the request. -/
def panelStart (m : Nat) (loopOk : Bool) (s : State) : State :=
  let s1 := panelEnableSet m s
  if (s1.panel m).st ≠ .starting || (s1.panel m).wait ≠ .none || !s1.linkUp then s1
  else
    let s2 := psqDrive m 7 true s1
    if loopOk then panelRequest m s2 else panelFail m s2

/-- PANEL_ENABLE (R319). -/
def execPanelEnable (m : Fin 2) (loopOk : Bool) (s : State) : Res := .next (whenDie (panelStart m loopOk) s)

/-- PANEL_CLEAR_REQUEST_RETRY (R319). -/
def execPanelClearRequestRetry (m : Fin 2) (s : State) : Res :=
  .next (whenDie (fun s => if (s.panel m).wait = .clear && (s.panel m).retry && s.linkUp then panelRequest m s else s) s)

/-- PANEL_START_TIMEOUT (R319). -/
def execPanelStartTimeout (m : Fin 2) (s : State) : Res :=
  .next (whenDie (fun s => if (s.panel m).st = .starting then panelFail m s else s) s)

/-- The enable is cleared (R330). -/
def panelDisable (m : Nat) (s : State) : State :=
  let x := s.panel m
  let s1 := s.setSobj (0x7800 + m) 1 [0]
  if x.st = .on || x.st = .starting then
    let s2 := girthWithdraw (fun r => r.port = 21 && r.kind = 6 && r.unit = m) s1
    orderlyStop m (panelTo m .stopping (s2.updPanel m fun x => { x with wait := .none, retry := false, newGeom := none }))
  else s1.updPanel m fun x => { x with rearm := true }

/-- PANEL_DISABLE (R320). -/
def execPanelDisable (m : Fin 2) (s : State) : Res := .next (whenDie (panelDisable m) s)

/-- Pixels of a line as they are shown: blink phases applied (R325). -/
def Panel.shownOf (x : Panel) (b : Bank Byte) : Bank Byte :=
  let f := fun v : Byte =>
    let k := x.blink.get v.toNat
    if k.on && k.phase then BitVec.ofNat 8 k.partner else v
  ⟨f b.dflt, (b.cells.map fun c => (c.1, f c.2)).filter fun c => c.2 ≠ f b.dflt⟩

/-- A line is driven in a frame (R322, R323): a change takes effect where L = 0. -/
def driveLine (x : Panel) (l : PLine) : PLine :=
  let next := match l.code with | 0 => 3 | 1 => 2 | 2 => 1 | _ => 0
  let free := l.code % 2 = 0
  { l with code := next, redraw := false,
           shown := if free && l.due then x.shownOf l.mem else l.shown, due := if free then false else l.due }

/-- A line may be held in this frame (R324). -/
def mayHold (half : Bool) (l : PLine) : Bool := half && l.code % 2 = 0 && !l.due && !l.redraw

/-- One frame of a panel's content lines. -/
def frameLines (h : Nat) (half : Bool) (x : Panel) : Panel :=
  { x with lines := x.lines.updRange h fun _ l => if mayHold half l then { l with code := l.code + 1 } else driveLine x l }

/-- A frame start is counted for every blinking entry (R325). -/
def blinkAge (x : Panel) : Panel :=
  { x with blink := x.blink.updAll (x.blink.cells.map (·.1)) fun _ b => { b with age := b.age + 1 } }

/-- A clearing frame under the ledger: every line is driven, with the polarity its ledger calls for (R320, R321). -/
def clearUnderLedger (m : Nat) (s : State) : State :=
  s.updPanel m fun x => { x with clears := x.clears + 1, lines := x.lines.updRange 480 fun _ l => { l with code := (driveLine x l).code } }

/-- The legal region with its border, of an entry's geometry: x, y, w, h. -/
def State.legalRect (s : State) (m : Nat) : Nat × Nat × Nat × Nat :=
  (s.pobj m 4 - 4, s.pobj m 5 - 4, s.pobj m 6 + 8, s.pobj m 7 + 8)

/-- The lines from y on, h of them, have a change due. -/
def linesDue (m y h : Nat) (s : State) : State :=
  s.updPanel m fun x => { x with lines := x.lines.updAll ((List.range h).map (y + ·)) fun _ l => { l with due := true } }

/-- A rectangle of frame memory takes an index per pixel. -/
def putRect (m x y w h : Nat) (v : Nat → Nat → Byte) (s : State) : State :=
  s.updPanel m fun q =>
    { q with lines := q.lines.updAll ((List.range h).map (y + ·)) fun k l =>
        { l with due := true, mem := (List.range w).foldl (fun b i => b.set (x + i) (v i (k - y))) l.mem } }

/-- The clearing pair has been granted (R319 steps 7 to 9, R326): a panel that starts goes ON, one that is ON
takes its new geometry; what was legal before shows overlay entry 0. With the link down the Burnisher does not hear of the
grant, and asks again (the model's choice, assumption 125). -/
def panelGranted (m : Nat) (s : State) : State :=
  let x := s.panel m
  if x.wait ≠ .clear || x.retry then s
  else if !s.linkUp then s.updPanel m fun x => { x with retry := true }
  else
    let s1 := (clearFrames m s).updPanel m fun x => { x with wait := .none }
    if x.st = .starting then
      let s2 := s1.updPanel m fun x =>
        let y := frameLines (s1.panelH m) false { x with lines := x.lines.updRange 480 fun _ l => { l with due := true } }
        { y with frames := (y.frames + 1) % 2 ^ 32, halfRate := decide (s1.pobj m 9 = 1), driveBand := s1.die.met.band, faulty := 0 }
      panelTo m .on (psqDrive m 8 true s2)
    else match x.newGeom with
      | none => s1
      | some g =>
        let r := s1.legalRect m
        let s2 := putRect m r.1 r.2.1 r.2.2.1 r.2.2.2 (fun _ _ => 0) s1
        let put := fun (sub v : Nat) (t : State) => t.setSobj (0x7800 + m) sub (toLE 2 v)
        (put 7 g.2.2.2 (put 6 g.2.2.1 (put 5 g.2.1 (put 4 g.1 s2)))).updPanel m fun x => { x with newGeom := none }

/-- PANEL_FRAME_START (R324, R327, R329): more than 2 mismatches or 16 bad lines make a faulty frame; three
in a row fail the panel. A stop that waits for the link drives clearing frames (R321). -/
def frameStart (m mism : Nat) (bad : List Nat) (s : State) : State :=
  if (s.panel m).wait = .stop then clearUnderLedger m s
  else if (s.panel m).st ≠ .on then s
  else
    let half := s.pobj m 9 = 1
    let s1 := s.updPanel m fun x =>
      let n := if 2 < mism || 16 < bad.length then x.faulty + 1 else 0
      let y := frameLines (s.panelH m) half (blinkAge { x with halfRate := half, driveBand := s.die.met.band })
      { y with
        frames := (y.frames + 1) % 2 ^ 32, faulty := n,
        loopBad := stick 0xFFFFFFFF y.loopBad mism, badLines := stick 0xFFFFFFFF y.badLines bad.length,
        lines := y.lines.updAll bad fun _ l => { l with redraw := true } }
    if 3 ≤ (s1.panel m).faulty then panelFail m s1 else s1

/-- PANEL_FRAME_START (R324). -/
def execPanelFrameStart (m : Fin 2) (mismatches : Nat) (bad : List (Fin 480)) (s : State) : Res :=
  .next (whenDie (frameStart m mismatches (bad.map (·.val))) s)

/-- The lines that hold a palette entry have a change due. -/
def entryDue (m : Nat) (e : Byte) (s : State) : State :=
  s.updPanel m fun x =>
    { x with lines := x.lines.updRange 480 fun _ l =>
        if l.mem.dflt = e || l.mem.cells.any (·.2 = e) then { l with due := true } else l }

/-- A half-period of an entry is over: H frame starts since the last, or since the setting (R325). -/
def Blink.due (b : Blink) : Bool := b.on && decide (b.half ≤ b.age)

/-- BLINK_HALF_PERIOD (R325): every pixel showing the entry is due to change. -/
def execBlinkHalfPeriod (m : Fin 2) (entry : BitVec 8) (s : State) : Res :=
  .next (whenDie (fun s =>
    if ((s.panel m).blink.get entry.toNat).due then
      entryDue m entry (s.updPanel m fun x =>
        { x with blink := x.blink.upd entry.toNat fun b => { b with phase := !b.phase, age := b.age - b.half } })
    else s) s)

/-! ### The legal region (R326) -/

/-- The point that the legal region shows: the one selected at the keypad, else the lowest with an OPEN
record. -/
def State.viewPoint (s : State) (m : Nat) : Option Nat :=
  match s.die.key.point with
  | some p => if s.snum 0x7840 1 = m then some p else (List.range 64).find? fun p => (s.openRec p).isSome
  | none => (List.range 64).find? fun p => (s.openRec p).isSome

/-- The record that the legal region shows. -/
def State.viewRec (s : State) (m : Nat) : Option Rec :=
  (s.viewPoint m).bind fun p => (s.die.cur.recs.filter (·.point = p)).getLast?

/-- What the legal region shows (R326; 17 R426). -/
def State.legalView (s : State) (m : Nat) : LegalView :=
  let c := s.die.legal.active
  let t := s.die.cur.tariff
  let price := fun g => if c.isEmpty then 0 else calPrice c t g 0
  let v : LegalView :=
    { point := s.viewPoint m, tariff := t, currency := calNum c 12 2, lt := s.die.legal.lt,
      price := price (match s.viewPoint m with | some p => s.snum (0x5400 + p) 0x30 | none => 0),
      msg := (if s.snum 0x7840 1 = m then s.die.key.msg else 0),
      result := (if s.snum 0x7840 1 = m then s.die.key.result else (.ok, 0)),
      digits := (if s.die.key.st = .token && s.snum 0x7840 1 = m then s.die.key.buf else []) }
  match s.viewRec m with
  | none => v
  | some r => { v with recSt := recCode r.st, price := price r.group, cost := s.recTotal r,
                       importWh := r.imp.toNat / 1000 % 1000000000, remaining := s.purseLeft r,
                       refund := (r.purse.refund.map (·.2)).getD [] }

/-- The import that a redraw shows has passed a multiple of 10^9 Wh since it was shown last: kind 10 for the point, once
for each record (17 R426; 95, LEGAL_REGION_REDRAW). -/
def rolloverCheck (m : Nat) (s : State) : State :=
  match s.viewRec m with
  | none => s
  | some r =>
    let n := r.imp.toNat / 1000000000000
    if r.rolled < n then logAdd 10 [BitVec.ofNat 8 r.point] (s.updRec r.serial fun r => { r with rolled := n }) else s

/-- LEGAL_REGION_REDRAW (R326). -/
def execLegalRegionRedraw (m : Fin 2) (s : State) : Res :=
  .next (whenDie (fun s =>
    if (s.panel m).st ≠ .on then s
    else
      let r := s.legalRect m
      linesDue m r.2.1 r.2.2.2 (rolloverCheck m (s.updPanel m fun x => { x with view := s.legalView m }))) s)

/-- SEAL_BORDER_ADVANCE (R326). -/
def execSealBorderAdvance (m : Fin 2) (s : State) : Res :=
  .next (whenDie (fun s =>
    if (s.panel m).st ≠ .on then s
    else
      let r := s.legalRect m
      linesDue m r.2.1 r.2.2.2 (s.updPanel m fun x => { x with border := (x.border + 1) % 4 })) s)

/-- A geometry is valid (R326). -/
def State.geomOk (s : State) (m x y w h : Nat) : Bool :=
  decide (400 ≤ w) && decide (120 ≤ h) && decide (4 ≤ x) && decide (4 ≤ y) &&
    decide (x + w + 4 ≤ s.panelW m) && decide (y + h + 4 ≤ s.panelH m)

/-- A record is OPEN on a point that the panel serves. -/
def State.panelBusy (s : State) (m : Nat) : Bool :=
  s.die.cur.recs.any fun r => r.st = .open && s.panelServes m r.point

/-- A write of the geometry (R326): on a panel that is ON it waits for a granted clearing pair. -/
def geomWrite (role : Role) (m x y w h : Nat) (s : State) : Status × State :=
  if !s.mayWrite role rO then (.denied, s)
  else if !s.geomOk m x y w h then (.range, s)
  else if s.panelBusy m then (.state, s)
  else if (s.panel m).st = .on then
    (.ok, panelRequest m (s.updPanel m fun q => { q with newGeom := some (x, y, w, h) }))
  else
    let put := fun (sub v : Nat) (t : State) => t.setSobj (0x7800 + m) sub (toLE 2 v)
    (.ok, put 7 h (put 6 w (put 5 y (put 4 x s))))

/-- The reply of class 0008h: status, OP and panel. -/
def ovReply (tag : Word) (op m : Nat) (r : Status × State) : State :=
  dieReply tag 8 [BitVec.ofNat 8 (statusCode r.1), BitVec.ofNat 8 op, BitVec.ofNat 8 m, 0] r.2

/-- LEGAL_REGION_GEOMETRY_WRITE (R326). -/
def execLegalRegionGeometryWrite (rq : Rq) (m : Fin 2) (x y w h : Nat) (s : State) : Res :=
  .next (whenDie (fun s => ovReply rq.tag 6 m (geomWrite rq.role m x y w h s)) s)

/-! ### Overlay content (R328) -/

/-- Firmware and the Operator may send OP 1 to 4. -/
def State.mayDraw (s : State) (role : Role) : Bool := s.dieRole role && (role = .firmware || role = .operator)

/-- Two rectangles meet. -/
def rectsMeet (x y w h : Nat) (r : Nat × Nat × Nat × Nat) : Bool :=
  decide (0 < w) && decide (0 < h) && decide (x < r.1 + r.2.2.1) && decide (r.1 < x + w) &&
    decide (y < r.2.1 + r.2.2.2) && decide (r.2.1 < y + h)

/-- A rectangle of the overlay: within the panel, and clear of the legal region and its border. -/
def State.overlayCheck (s : State) (role : Role) (m x y w h : Nat) : Status :=
  if !s.mayDraw role then .denied
  else if s.panelW m < x + w || s.panelH m < y + h then .range
  else if rectsMeet x y w h (s.legalRect m) then .sealed
  else .ok

/-- OVERLAY_WRITE (R328). -/
def execOverlayWrite (rq : Rq) (m : Fin 2) (x y w h : Nat) (data : List Byte) (s : State) : Res :=
  .next (whenDie (fun s =>
    let c := s.overlayCheck rq.role m x y w h
    let st : Status := if c ≠ .denied && (w * h ≠ data.length || 224 < data.length) then .range else c
    ovReply rq.tag 1 m (st, if st = .ok then putRect m x y w h (fun i k => data.getD (k * w + i) 0) s else s)) s)

/-- OVERLAY_FILL (R328). -/
def execOverlayFill (rq : Rq) (m : Fin 2) (x y w h : Nat) (index : BitVec 8) (s : State) : Res :=
  .next (whenDie (fun s =>
    let st := s.overlayCheck rq.role m x y w h
    ovReply rq.tag 2 m (st, if st = .ok then putRect m x y w h (fun _ _ => index) s else s)) s)

/-- PALETTE_WRITE (R328). -/
def execPaletteWrite (rq : Rq) (m : Fin 2) (first : Nat) (rgb : List (BitVec 24)) (s : State) : Res :=
  .next (whenDie (fun s =>
    let st : Status := if !s.mayDraw rq.role then .denied else if 56 < rgb.length then .range
      else if 191 < first + rgb.length - 1 then .sealed else .ok
    ovReply rq.tag 3 m (st, if st = .ok then
      rgb.zipIdx.foldl (fun t c => entryDue m (BitVec.ofNat 8 (first + c.2))
        (t.updPanel m fun x => { x with palette := x.palette.set (first + c.2) c.1 })) s
      else s)) s)

/-- BLINK_SET (R325, R328). -/
def execBlinkSet (rq : Rq) (m : Fin 2) (index partner : BitVec 8) (half : Nat) (enable : Bool) (s : State) : Res :=
  .next (whenDie (fun s =>
    let st : Status := if !s.mayDraw rq.role then .denied
      else if half % 2 ≠ 0 || !within 8 half 120 then .range
      else if 191 < index.toNat then .sealed else .ok
    ovReply rq.tag 4 m (st, if st = .ok then
      entryDue m index (s.updPanel m fun x =>
        { x with blink := x.blink.set index.toNat (if enable then ⟨partner.toNat, half, true, false, 0⟩ else {}) })
      else s)) s)

/-! ### Panel and keypad entries (R328 OP 5 to 7, R342) -/

/-- The value of an entry of 7800h + m or 7840h. -/
def State.termValue (s : State) (idx sub : Nat) : List Byte :=
  if idx = 0x7840 then
    (if sub = 4 then [BitVec.ofNat 8 (s.die.key.point.getD 0xFF)] else s.sobj idx sub)
  else
    let x := s.panel (idx - 0x7800)
    match sub with
    | 0x0A => [BitVec.ofNat 8 (panelCode x.st)]
    | 0x0B => toLE 4 x.badLines
    | 0x0C => toLE 4 x.loopBad
    | _ => s.sobj idx sub

/-- The entries that class 0008h serves. -/
def isTermEntry (idx : Nat) : Bool := within 0x7800 idx 0x7807 || idx = 0x7840

/-- A read (R328 OP 5). -/
def termRead (role : Role) (idx sub : Nat) (s : State) : Status × List Byte :=
  if !isTermEntry idx then (.absent, [])
  else match objTerm idx sub with
    | none => (.absent, [])
    | some o => if !s.mayRead role o then (.denied, []) else (.ok, s.termValue idx sub)

/-- The senders of OP 5 and 6 (R328), of those the fuse set has (01 R35). A read that the dictionary server makes for a
client follows the entry's own access list (assumption 105). -/
def State.termSender (s : State) (r : Role) : Bool := s.dieRole r && (r = .operator || r = .service)

/-- W runs in steps of 8 (R316). -/
def stepOk (idx sub n : Nat) : Bool := !(decide (idx < 0x7840) && sub = 2) || n % 8 = 0

/-- A write of an entry whose role and value have passed. -/
def termApply (role : Role) (idx sub : Nat) (data : List Byte) (s : State) : Status × State :=
  let n := ofLE data
  let m := idx - 0x7800
  let set := s.setSobj idx sub data
  if idx = 0x7840 then (if sub = 4 then (.denied, s) else (.ok, set))
  else match sub with
    | 1 => (.ok, if n = 1 then panelEnableSet m s else panelDisable m s)
    | 2 | 3 | 0x0E => if (s.panel m).st = .off then (.ok, set) else (.state, s)
    | 4 => geomWrite role m n (s.pobj m 5) (s.pobj m 6) (s.pobj m 7) s
    | 5 => geomWrite role m (s.pobj m 4) n (s.pobj m 6) (s.pobj m 7) s
    | 6 => geomWrite role m (s.pobj m 4) (s.pobj m 5) n (s.pobj m 7) s
    | 7 => geomWrite role m (s.pobj m 4) (s.pobj m 5) (s.pobj m 6) n s
    | 8 => (.ok, displayCheck set)
    | _ => (.ok, set)

/-- A write (R328 OP 6). -/
def termWrite (role : Role) (idx sub : Nat) (data : List Byte) (s : State) : Status × State :=
  if !isTermEntry idx then (.absent, s)
  else match objTerm idx sub with
    | none => (.absent, s)
    | some o =>
      if !s.mayWrite role o.wr then (.denied, s)
      else if !o.valOk data || !stepOk idx sub (ofLE data) then (.range, s)
      else termApply role idx sub data s

/-- The reply of OP 5 and 6: bytes 2 onward of R283. -/
def termReply (tag : Word) (op : Nat) (st : Status) (idx sub : Nat) (data : List Byte) (s : State) : State :=
  dieReply tag 8 ([BitVec.ofNat 8 (statusCode st), BitVec.ofNat 8 op] ++ toLE 2 idx ++ [BitVec.ofNat 8 sub, 0] ++
    toLE 2 data.length ++ toLE 4 0 ++ toLE 4 data.length ++ toLE 8 0 ++ data) s

/-- TERMINAL_OBJECT_READ (R328). -/
def execTerminalObjectRead (rq : Rq) (idx : BitVec 16) (sub : BitVec 8) (s : State) : Res :=
  .next (whenDie (fun s =>
    let r : Status × List Byte := if s.termSender rq.role then termRead rq.role idx.toNat sub.toNat s else (.denied, [])
    termReply rq.tag 5 r.1 idx.toNat sub.toNat r.2 s) s)

/-- TERMINAL_OBJECT_WRITE (R328). -/
def execTerminalObjectWrite (rq : Rq) (idx : BitVec 16) (sub : BitVec 8) (data : List Byte) (s : State) : Res :=
  .next (whenDie (fun s =>
    let r : Status × State := if s.termSender rq.role then termWrite rq.role idx.toNat sub.toNat data s else (.denied, s)
    termReply rq.tag 6 r.1 idx.toNat sub.toNat [] r.2) s)

/-- PANEL_STATUS_QUERY (R328 OP 7). -/
def execPanelStatusQuery (rq : Rq) (m : Fin 2) (s : State) : Res :=
  .next (whenDie (fun s =>
    let x := s.panel m
    let st : Status := if s.dieRole rq.role && rq.role = .firmware then .ok else .denied
    let body := if st = .ok then [BitVec.ofNat 8 (panelCode x.st)] ++ toLE 4 x.frames ++ toLE 4 x.badLines ++ toLE 4 x.loopBad
      else []
    dieReply rq.tag 8 ([BitVec.ofNat 8 (statusCode st), 7, BitVec.ofNat 8 m, 0] ++ body) s) s)

/-- A write of OUT_PSQ (R318): only port 21; any other master gets a bus error. While the safe state holds the
latches stay released (R25, R321). -/
def psqWrite (port : Nat) (v : Word) (s : State) : State :=
  if port ≠ 21 then busFail s
  else powerWrite (fun s => { s with power.psq := if s.power.safe then 0 else v.setWidth 8 }) s

/-- OUT_PSQ_WRITE (R318). -/
def execOutPsqWrite (port : Fin 24) (v : Word) (s : State) : Res := .next (psqWrite port v s)

/-! ### Keypad (R332) -/

/-- Changing the keypad. -/
def State.updKey (s : State) (f : Keypad → Keypad) : State := { s with die.key := f s.die.key }

/-- OP 16 of class 0008h: kind and point. -/
def keyNotice (kind : Nat) (p : Option Nat) (s : State) : State :=
  dieSend 8 [0xFF, 16, BitVec.ofNat 8 (s.snum 0x7840 1), 0, BitVec.ofNat 8 kind, BitVec.ofNat 8 (p.getD 0xFF)] s

/-- A digit. -/
def keyDigit (d : Nat) (s : State) : State :=
  let k := s.die.key
  match k.st with
  | .idle | .selected => s.updKey fun k => { k with st := .select, buf := [d], msg := 0 }
  | .select => if k.buf.length = 1 then s.updKey fun k => { k with buf := k.buf ++ [d] } else s
  | .token => if k.buf.length < 20 then s.updKey fun k => { k with buf := k.buf ++ [d] } else s

/-- KEY_DIGIT (R332). -/
def execKeyDigit (d : Fin 10) (s : State) : Res := .next (whenDie (keyDigit d) s)

/-- The number that a buffer of digits spells. -/
def digitsNum (l : List Nat) : Nat := l.foldl (fun a d => 10 * a + d) 0

/-- Key A: a point is selected, or a whole token is submitted. -/
def keyAccept (s : State) : State :=
  let k := s.die.key
  let n := digitsNum k.buf
  match k.st with
  | .select =>
    if n < 64 && s.panelServes (s.snum 0x7840 1) n then
      keyNotice 1 (some n) (s.updKey fun k => { k with st := .selected, buf := [], point := some n, msg := 0 })
    else s.updKey fun k => { k with msg := 1 }
  | .token =>
    if k.buf.length < 20 then s
    else
      let r := tokenEnter (k.point.getD 0) n s
      r.2.2.updKey fun k => { k with st := .selected, buf := [], msg := 3, result := (r.1, r.2.1) }
  | .idle | .selected => s

/-- KEY_ACCEPT (R332). -/
def execKeyAccept (s : State) : Res := .next (whenDie keyAccept s)

/-- KEY_DELETE (R332). -/
def execKeyDelete (s : State) : Res :=
  .next (whenDie (fun s => if s.die.key.st = .token then s.updKey fun k => { k with buf := k.buf.dropLast } else s) s)

/-- Key C. -/
def keyCancel (s : State) : State :=
  match s.die.key.st with
  | .select | .selected =>
    keyNotice 3 s.die.key.point (s.updKey fun k => { k with st := .idle, buf := [], point := none, msg := 0 })
  | .token => s.updKey fun k => { k with st := .selected, buf := [] }
  | .idle => s

/-- KEY_CANCEL (R332). -/
def execKeyCancel (s : State) : Res := .next (whenDie keyCancel s)

/-- KEY_STOP (R332). -/
def execKeyStop (s : State) : Res :=
  .next (whenDie (fun s => if s.die.key.st = .selected then keyNotice 2 s.die.key.point s else s) s)

/-- Key *: token entry where it is allowed. -/
def keyStar (s : State) : State :=
  if s.die.key.st ≠ .selected then s
  else if s.snum 0x7840 3 = 1 && s.die.legal.lockEnd.isNone && !s.die.legal.ltStat.getLsbD 0 then
    s.updKey fun k => { k with st := .token, buf := [], msg := 0 }
  else s.updKey fun k => { k with msg := 2 }

/-- KEY_STAR (R332). -/
def execKeyStar (s : State) : Res := .next (whenDie keyStar s)

/-- KEYPAD_ENTRY_TIMEOUT: an idle entry acts as C (R332). -/
def execKeypadEntryTimeout (s : State) : Res := .next (whenDie keyCancel s)

end Sys2Proof.Machine
end

