-- ==== Sys2Proof/Machine/Mailbox.lean ====
section
/-!
DEFINITION. Pair and hub mailboxes and the Keeper (05 R115 to R117).
-/
set_option Elab.async false
namespace Sys2Proof.Machine

/-! ### Pair mailboxes -/

/-- The Harness port of engine e of R115: the Stitcher, the Tack room, REIN(e − 2). -/
def mbxEnginePort (e : Nat) : Nat := if e = 0 then 12 else if e = 1 then 14 else e + 2

/-- The port that writes pair mailbox m (R115). -/
def State.pairWriter (s : State) (m : Nat) : Nat :=
  if m < 10 then (s.app.mbx.pair.get m).cantle else mbxEnginePort (m - 10)

/-- Changing a pair mailbox; its two level sources follow (R107). -/
def State.updPair (s : State) (m : Nat) (f : PairMbx → PairMbx) : State :=
  let s1 := { s with app.mbx.pair := s.app.mbx.pair.upd m f }
  let n := (s1.app.mbx.pair.get m).queue.length
  setLevel (404 + m) (decide (n < 8)) (setLevel (384 + m) (decide (0 < n)) s1)

/-- The eight words of a staged message, word 7 being `v`. -/
def staged8 (b : Bank Word) (v : Word) : List Word := (List.range 7).map b.get ++ [v]

/-- A message is put into pair mailbox m, or refused because it is full (R115). DESIGN CHOICE (log 110): the staged words 0
to 6 stay after a commit and after a refusal; the pair bus errors of R120 are those of a full mailbox, not those of a wrong
writer, which changes nothing. -/
def pairPut (m : Nat) (msg : List Word) (s : State) : Bool × State :=
  if 8 ≤ (s.app.mbx.pair.get m).queue.length then
    (false, countEvents 6 28 1 (s.updPair m fun b => { b with busErr := true }))
  else
    (true, countEvents 6 m 1 (s.updPair m fun b => { b with queue := b.queue ++ [msg], seq := wrap16 b.seq }))

/-- A write to word i of the write window (R115). -/
def pairWrite (port m i : Nat) (v : Word) (s : State) : State :=
  if port ≠ s.pairWriter m then busFail s
  else if i < 7 then busOk 0 (s.updPair m fun b => { b with staged := b.staged.set i v })
  else
    let r := pairPut m (staged8 (s.app.mbx.pair.get m).staged v) s
    if r.1 then busOk 0 r.2 else busFail r.2

/-- PAIR_MAILBOX_COMMIT (R115): the write to word 7. -/
def execPairMailboxCommit (port : Fin 24) (m : Fin 20) (v : Word) (s : State) : Res :=
  .next (pairWrite port m 7 v s)

/-- A read of word i of the read window; the read of word 7 removes the message, whichever port reads: the
manual restricts the writer only (assumption 37). -/
def pairRead (m i : Nat) (s : State) : State :=
  match (s.app.mbx.pair.get m).queue with
  | [] => busOk 0 s
  | msg :: rest =>
    let s1 := busOk (msg.getD i 0) s
    if i = 7 then s1.updPair m fun b => { b with queue := rest } else s1

/-- PAIR_MAILBOX_REMOVE (R115): the read of word 7. -/
def execPairMailboxRemove (_port : Fin 24) (m : Fin 20) (s : State) : Res := .next (pairRead m 7 s)

/-! ### Hub mailboxes -/

/-- Changing a hub mailbox; its two level sources follow (R107). DEDUCED (log 110): a slot that the lock reserves (R116)
is not free. -/
def State.updHub (s : State) (h : Nat) (f : HubMbx → HubMbx) : State :=
  let s1 := { s with app.mbx.hub := s.app.mbx.hub.upd h f }
  let b := s1.app.mbx.hub.get h
  let n := b.queue.length
  setLevel (432 + h) (decide (n + b2n b.holder.isSome < 32)) (setLevel (424 + h) (decide (0 < n)) s1)

/-- A read of MBX_KEEP_h (R116): OK and the lock, BUSY when full, STATE when another port holds it. The
holder's own read returns OK and keeps the lock. -/
def hubAcquire (port h : Nat) (s : State) : State :=
  let b := s.app.mbx.hub.get h
  let word := fun (holder : Nat) (st : Status) => pack [(holder, 8), (statusCode st, 0)]
  match b.holder with
  | some p => if p = port then busOk (word p .ok) s else busOk (word p .state) s
  | none =>
    if 32 ≤ b.queue.length then busOk (word 0 .busy) s
    else busOk (word port .ok) (s.updHub h fun b => { b with holder := some port, staged := ⟨0, []⟩ })

/-- HUB_MAILBOX_ACQUIRE (R116). -/
def execHubMailboxAcquire (port : Fin 24) (h : Fin 8) (s : State) : Res := .next (hubAcquire port h s)

/-- A write to word i of the hub write window (R116); a write by another port is ignored and counted. -/
def hubWrite (port h i : Nat) (v : Word) (s : State) : State :=
  let b := s.app.mbx.hub.get h
  if b.holder ≠ some port then
    busOk 0 { s with app.mbx.dropped := stick 65535 s.app.mbx.dropped 1 }
  else if i < 15 then busOk 0 (s.updHub h fun b => { b with staged := b.staged.set i v })
  else
    busOk 0 (countEvents 6 (20 + h) 1 (s.updHub h fun b =>
      { b with queue := b.queue ++ [(List.range 15).map b.staged.get ++ [v]], seq := wrap16 b.seq,
               holder := none, staged := ⟨0, []⟩ }))

/-- HUB_MAILBOX_COMMIT (R116): the write to word 15. -/
def execHubMailboxCommit (port : Fin 24) (h : Fin 8) (v : Word) (s : State) : Res :=
  .next (hubWrite port h 15 v s)

/-- RELEASE by the holder (R117). -/
def hubRelease (port h : Nat) (s : State) : State :=
  if (s.app.mbx.hub.get h).holder = some port then
    s.updHub h fun b => { b with holder := none, staged := ⟨0, []⟩ }
  else s

/-- HUB_MAILBOX_RELEASE (R117). -/
def execHubMailboxRelease (port : Fin 24) (h : Fin 8) (s : State) : Res := .next (hubRelease port h s)

/-- The Keeper's timeout of a lock that is held (R117). -/
def keeperTimeout (h : Nat) (s : State) : State :=
  if (s.app.mbx.hub.get h).holder.isNone then s
  else
    raise 440 (countEvents 6 29 1 (s.updHub h fun b =>
      { b with holder := none, staged := ⟨0, []⟩, timeout := true }))

/-- KEEPER_TIMEOUT (R117). -/
def execKeeperTimeout (h : Fin 8) (s : State) : Res := .next (keeperTimeout h s)

/-- A read of word i of the hub read window: only the port of MBX_HCFG_h reads it (R116). -/
def hubRead (port h i : Nat) (s : State) : State :=
  let b := s.app.mbx.hub.get h
  if port ≠ b.reader then busOk 0 s
  else match b.queue with
    | [] => busOk 0 s
    | msg :: rest =>
      let s1 := busOk (msg.getD i 0) s
      if i = 15 then s1.updHub h fun b => { b with queue := rest } else s1

/-- HUB_MAILBOX_REMOVE (R116): the read of word 15. -/
def execHubMailboxRemove (port : Fin 24) (h : Fin 8) (s : State) : Res := .next (hubRead port h 15 s)

/-- A read of MBX_CTRL returns DROPPED and clears it. -/
def mbxCtrlRead (s : State) : State :=
  busOk (pack [(b2n s.app.mbx.lock, 31), (s.app.mbx.dropped, 0)]) { s with app.mbx.dropped := 0 }

/-- MBX_DROPPED_READ (R116). -/
def execMbxDroppedRead (s : State) : Res := .next (mbxCtrlRead s)

end Sys2Proof.Machine
end

