-- ==== Sys2Proof/Machine/Rein.lean ====
section
/-!
DEFINITION. The Rein engines (09 R190 to R214): claiming events, delivery, budget and traps, software
events and the context commands.
-/
set_option Elab.async false
namespace Sys2Proof.Machine

/-! ### Small operations -/

/-- REIN_RUN of an engine. -/
def State.engRuns (s : State) (e : Nat) : Bool := s.app.clk.run.getLsbD e

/-- The hart of REINe (R100), whose `halted` says that debug holds the engine (R103). -/
def reinHart (e : Nat) : Nat := 5 + e

/-- The engine is halted by debug. -/
def State.engHalted (s : State) (e : Nat) : Bool := (s.app.harts.get (reinHart e)).halted

/-- Changing a context together with the words the engine keeps in its memory. -/
def putCtx (slot : Nat) (f : Ctx → Ctx) (s : State) : State := syncCtx slot (s.updCtx slot f)

/-- Level sources held in service are completed and re-sampled. -/
def completeSources (l : List Nat) (s : State) : State :=
  l.foldl (fun t n => t.updSrc n fun e => { e with insvc := false }) s

/-- The level sources that the activation which ends has delivered are completed (R196); those claimed meanwhile are
held until the activation that delivers them ends. -/
def completeDelivered (slot : Nat) (s : State) : State :=
  (completeSources (s.app.ctx.get slot).inServ s).updCtx slot fun c => { c with inServ := [] }

/-- All level sources held in service for a context are completed: it is freed (R206). -/
def completeLevels (slot : Nat) (s : State) : State :=
  let c := s.app.ctx.get slot
  (completeSources (c.inServ ++ c.levels.map (·.1)) s).updCtx slot fun c => { c with inServ := [], levels := [] }

/-- The level sources of the classes `m` become those of the running activation. -/
def Ctx.deliverLevels (m : BitVec 16) (c : Ctx) : Ctx :=
  { c with inServ := c.inServ ++ (c.levels.filter fun x => m.getLsbD x.2).map (·.1),
           levels := c.levels.filter fun x => !m.getLsbD x.2 }

/-- Writing bytes of a context's window from offset `off`. -/
def ctxBytes (slot off : Nat) (b : List Byte) (s : State) : State := s.setBytes (ctxBase slot + off) b

/-- The bytes of a message of words. -/
def wordBytes (l : List Word) : List Byte := (l.map fun w => toLE 4 w.toNat).flatten

/-! ### Claims (R195, R196) -/

/-- The class and point of a point-bound source (R194). -/
def pointSource (n : Nat) : Option (Nat × Nat) :=
  if within 48 n 111 then some (1, n - 48)
  else if within 112 n 175 then some (6, n - 112)
  else if within 184 n 247 then some (2, n - 184)
  else if within 320 n 383 then some (3, n - 320)
  else none

/-- The SES_XR entry that names a source: the lowest that is in use (R214). -/
def State.xrOf (s : State) (e n : Nat) : Option Word :=
  ((List.range 16).map fun k => (s.app.eng.get e).xr.get k).find? fun w => bit w 31 && fld w 16 9 = n

/-- A source is left unclaimed while its point has no routing holder (R195). -/
def State.waitsForHolder (s : State) (e n : Nat) : Bool :=
  match pointSource n with
  | some (_, p) => p % 8 = e && (s.holder p).isNone
  | none => false

/-- The source the engine claims next: under R109, leaving out what waits for a routing holder. -/
def State.engineClaim (s : State) (e : Nat) : Nat :=
  let l := (List.range 512).filter fun n => s.eligible (10 + e) n && !s.waitsForHolder e n
  (([3, 2, 1].filterMap fun v => l.find? fun n => (s.app.bkl.src.get n).level = v).head?).getD 0

/-- A claimed source is delivered to a context: an edge source is completed at once, a level source is
held in service (R196). -/
def claimFor (n slot k : Nat) (s : State) : State :=
  let s1 := claimSource n s
  if isLevel n then postClass slot k (s1.updCtx slot fun c => { c with levels := c.levels ++ [(n, k)] })
  else postClass slot k (s1.updSrc n fun e => { e with insvc := false })

/-- A claimed source that nothing takes is completed and counted in MISROUTE (R195, R214). -/
def claimMisroute (e n : Nat) (s : State) : State :=
  ((claimSource n s).updSrc n fun x => { x with insvc := false }).updEng e fun x =>
    { x with misroute := stick 255 x.misroute 1 }

/-- One claim by an engine that runs. -/
def reinClaim (e : Nat) (s : State) : State :=
  if !s.engRuns e then s
  else
    let n := s.engineClaim e
    if n = 0 then s
    else match pointSource n with
      | some (k, p) =>
        if p % 8 = e then
          match s.holder p with
          | some slot => claimFor n slot k s
          | none => s
        else claimMisroute e n s
      | none =>
        match s.xrOf e n with
        | none => claimMisroute e n s
        | some w =>
          let slot := 32 * e + fld w 8 5
          if (s.app.ctx.get slot).st = .free then claimMisroute e n s else claimFor n slot (fld w 0 4) s

/-- REIN_SOURCE_CLAIM (R196). -/
def execReinSourceClaim (e : Fin 8) (s : State) : Res := .next (reinClaim e s)

/-! ### Mailbox messages (R197) -/

/-- The message at the head of pair mailbox 2 + e is moved to its context's stash, or discarded. -/
def reinStash (e : Nat) (s : State) : State :=
  match (s.app.mbx.pair.get (2 + e)).queue with
  | [] => s
  | m :: rest =>
    if !s.engRuns e then s
    else
      let slot := 32 * e + fld (m.getD 0 0) 0 5
      let c := s.app.ctx.get slot
      let s1 := s.updPair (2 + e) fun b => { b with queue := rest }
      if c.st = .free then s1.updEng e fun x => { x with dropMsg := stick 63 x.dropMsg 1 }
      else if c.st = .running || decide (8 ≤ c.stash.length) then s
      else postClass slot 9 (s1.updCtx slot fun c => { c with stash := c.stash ++ [m] })

/-- REIN_MAILBOX_STASH (R197). -/
def execReinMailboxStash (e : Fin 8) (s : State) : Res := .next (reinStash e s)

/-! ### Delivery and end of an activation (R199 to R202) -/

/-- The next context in READY after the one that ran last (R201). -/
def State.nextReady (s : State) (e : Nat) : Option Nat :=
  ((List.range 32).map fun k => ((s.app.eng.get e).lastRan + 1 + k) % 32).find? fun c =>
    (s.app.ctx.get (32 * e + c)).st = .ready

/-- The lowest class number present. -/
def leadClass (m : BitVec 16) : Nat := ((bitsOf m).head?).getD 0

/-- SES_EVT of a delivery (R199). -/
def evWordOf (c : Ctx) : Word :=
  pack [(leadClass c.pend, 24), (c.stash.length, 20), (c.codes.length, 16), (c.pend.toNat, 0)]

/-- A context starts to run: everything pending is delivered at once (R199). -/
def deliver (e k : Nat) (s : State) : State :=
  let slot := 32 * e + k
  let c := s.app.ctx.get slot
  let w := evWordOf c
  let msgs := (c.stash.map wordBytes).flatten
  let s1 := ctxBytes slot 0x80 msgs (ctxBytes slot 0x50 c.codes (ctxBytes slot 0x40 (toLE 4 w.toNat) s))
  let pc : Dword := BitVec.ofNat 64 (0x04000000 + e * 0x80000 + (s.app.eng.get e).entry)
  let s2 := putCtx slot (fun c =>
    { c.deliverLevels c.pend with
             st := .running, evWord := w, codes := [], stash := [], pend := 0, live := 0, taken := 0,
             acts := stick 0xFFFFFFFF c.acts 1, left := (s.app.eng.get e).budget, regs.pc := pc }) s1
  countEvents 4 (8 * e) 1 (s2.updEng e fun x => { x with running := some k, lastRan := k })

/-- The engine turns to the next context in READY (R201). -/
def reinActivate (e : Nat) (s : State) : State :=
  if !s.engRuns e || s.engHalted e || (s.app.eng.get e).running.isSome then s
  else match s.nextReady e with
    | none => s
    | some k => deliver e k (if s.gated then transferSleep s else s)

/-- REIN_ACTIVATION (R199). -/
def execReinActivation (e : Fin 8) (s : State) : Res := .next (reinActivate e s)

/-- Cycles of the budget used by the activation in progress. -/
def usedCycles (s : State) (e slot : Nat) : Nat := (s.app.eng.get e).budget - (s.app.ctx.get slot).left

/-- The running activation ends: level sources are completed and re-sampled, SES_USE_c keeps the longest. -/
def endActivation (e slot : Nat) (s : State) : State :=
  let u := usedCycles s e slot
  ((completeDelivered slot s).updCtx slot fun c => { c with useMax := max c.useMax (min 65535 u) }).updEng e fun x =>
    { x with running := none }

/-- A write to SES_DONE by the running context (R206). -/
def sesDone (e : Nat) (s : State) : State :=
  match (s.app.eng.get e).running with
  | none => s
  | some k =>
    let slot := 32 * e + k
    putCtx slot (fun c => { c with st := if c.pend = 0 then .idle else .ready }) (endActivation e slot s)

/-! ### Traps (R203) -/

/-- HANDLE in the context's header. -/
def State.handleWord (s : State) (slot : Nat) : Word := BitVec.ofNat 32 (s.num (ctxBase slot) 4)

/-- Held trap notices are committed to pair mailbox 12 + e as far as it has space (R203). -/
def commitNotices (e : Nat) : Nat → State → State
  | 0, s => s
  | n + 1, s =>
    match (s.app.eng.get e).notices with
    | [] => s
    | m :: rest =>
      if 8 ≤ (s.app.mbx.pair.get (12 + e)).queue.length then s
      else commitNotices e n ((pairPut (12 + e) m s).2.updEng e fun x => { x with notices := rest })

/-- The context running on an engine is trapped with a cause and a value (R203). -/
def ctxTrap (e cause : Nat) (val : Word) (s : State) : State :=
  match (s.app.eng.get e).running with
  | none => s
  | some k =>
    let slot := 32 * e + k
    let pc : Word := ((s.app.ctx.get slot).regs.pc).setWidth 32
    let s1 := putCtx slot (fun c =>
      { c with st := .trapped, cause := cause, trapPc := pc, trapVal := val }) (endActivation e slot s)
    let s2 := if cause = 1 then countEvents 4 (8 * e + 1) 1 s1
      else if cause = 3 then countEvents 4 (8 * e + 2) 1 s1 else s1
    let m : TrapNotice := [pack [(0xFF, 24), (k, 8), (cause, 0)], s.handleWord slot, pc, val,
      BitVec.ofNat 32 s.ht, BitVec.ofNat 32 (s.ht / 2 ^ 32), 0, 0]
    commitNotices e 33 (s2.updEng e fun x => { x with notices := x.notices ++ [m] })

/-- mtval of the context running on an engine, which TRAP_VAL takes for the causes that write no mtval (R193). -/
def State.ctxMtval (s : State) (e : Nat) : Word :=
  match (s.app.eng.get e).running with
  | some k => ((s.app.ctx.get (32 * e + k)).regs.csr.get 0x343).setWidth 32
  | none => 0

/-- The handler budget of the context running on an engine is used up. -/
def State.budgetGone (s : State) (e : Nat) : Bool :=
  match (s.app.eng.get e).running with
  | some k => (s.app.ctx.get (32 * e + k)).left = 0
  | none => false

/-- BUDGET_EXHAUSTED (R203): cause 01h, once the budget has reached 0; not while the engine is halted (05 R103). -/
def execBudgetExhausted (e : Fin 8) (s : State) : Res :=
  .next (if s.engHalted e || !s.budgetGone e then s else ctxTrap e 1 (s.ctxMtval e) s)

/-- TRAP_NOTICE_COMMIT (R203). -/
def execTrapNoticeCommit (e : Fin 8) (s : State) : Res := .next (commitNotices e 33 s)

/-! ### Software events (R198, R199) -/

/-- Posting a code to a context: its status and effect. -/
def postCode (e k : Nat) (code : Byte) (s : State) : Status × State :=
  let slot := 32 * e + k
  let c := s.app.ctx.get slot
  if c.st = .free then (.state, s)
  else if 8 ≤ c.codes.length then (.busy, countEvents 4 (8 * e + 3) 1 s)
  else (.ok, postClass slot 10 (s.updCtx slot fun c => { c with codes := c.codes ++ [code] }))

/-- A write of SES_POST by the running context; its status goes to the poster's POSTST. -/
def sesPost (e : Nat) (v : Word) (s : State) : State :=
  match (s.app.eng.get e).running with
  | none => s
  | some k =>
    let r := postCode e (fld v 0 5) (BitVec.ofNat 8 (fld v 8 8)) s
    putCtx (32 * e + k) (fun c => { c with postSt := r.1 }) r.2

/-- SES_POST (R198). -/
def execSesPost (e : Fin 8) (v : Word) (s : State) : Res := .next (sesPost e v s)

/-- The ports that write an engine's registers: Cantle cores, its own contexts, debug (R214). -/
def sesWriter (port e : Nat) : Bool := decide (port < 4) || port = 4 + e || port = 22

/-- A write of SES_POSTR; its status goes to the writer's SES_POSTST. -/
def sesPostr (port e : Nat) (v : Word) (s : State) : State :=
  if !sesWriter port e then busFail s
  else
    let r := postCode e (fld v 0 5) (BitVec.ofNat 8 (fld v 8 8)) s
    let s1 := busOk 0 r.2
    if port = 4 + e then
      match (s.app.eng.get e).running with
      | none => s1
      | some k => s1.updCtx (32 * e + k) fun c => { c with postrSt := r.1 }
    else s1.updEng e fun x => { x with postrSt := x.postrSt.set port r.1 }

/-- SES_POSTR (R198). -/
def execSesPostr (port : Fin 24) (e : Fin 8) (v : Word) (s : State) : Res := .next (sesPostr port e v s)

/-- A write of EV_TAKE by the running context: classes 0 to 8 shown in EV_LIVE are taken (R199). -/
def evTake (e : Nat) (v : Word) (s : State) : State :=
  match (s.app.eng.get e).running with
  | none => s
  | some k =>
    putCtx (32 * e + k) (fun c =>
      let m : BitVec 16 := c.live &&& v.setWidth 16 &&& 0x1FF
      { c.deliverLevels m with live := c.live &&& ~~~m, pend := c.pend &&& ~~~m, taken := c.taken ||| m }) s

/-- EV_TAKE (R199). -/
def execEvTake (e : Fin 8) (v : Word) (s : State) : Res := .next (evTake e v s)

/-- A context's TIMER deadline is reached (R194). -/
def timerExpiry (slot : Nat) (s : State) : State :=
  let a := ctxBase slot + 0x28
  let d := s.num a 8
  if d = 0 || decide (s.ht < d) || (s.app.ctx.get slot).st = .free then s
  else postClass slot 5 (s.setNum a 8 0)

/-- REIN_TIMER_EXPIRY (R194). -/
def execReinTimerExpiry (slot : Fin 256) (s : State) : Res := .next (timerExpiry slot s)

/-! ### Context commands (R206 to R209) -/

/-- The status of START for context `k` of engine `e` (R207). -/
def State.startStatus (s : State) (e k p r : Nat) : Status :=
  if (s.app.ctx.get (32 * e + k)).st ≠ .free then .state
  else if p % 8 ≠ e then .range
  else if s.pointAbsent p then .absent
  else if 4 ≤ (s.pointSlots p).length then .limit
  else if (s.slotOfRole p r).isSome then .state
  else .ok

/-! ### Edition and proximity form (07 R148, R169) -/

/-- EDITION and PROX_FORM that firmware gives a point: form 0, a fixed capacity, where proximity is not measured (R148). -/
def State.pilWant (s : State) (p : Nat) : Nat × Nat :=
  (s.onum (ptBase p) 2, if within 1 (s.typeNow p) 3 then s.onum (ptBase p) 3 else 0)

/-- Firmware writes EDITION and PROX_FORM, which are written with MODE_ACT at 0 only (R168): else they wait for it. -/
def pilTakes (p : Nat) (s : State) : State :=
  let q := s.pil p
  if q.modeAct ≠ 0 || !s.power.clkOk then { s with app.server.pilDue := putBit s.app.server.pilDue p true }
  else
    let w := s.pilWant p
    pilCfgWrite p (putFld (putFld q.cfg 2 1 w.1) 0 2 w.2)
      { s with app.server.pilDue := putBit s.app.server.pilDue p false }

/-- What waits for MODE_ACT 0 is written. -/
def pilDueTakes (p : Nat) (s : State) : State := if s.app.server.pilDue.getLsbD p then pilTakes p s else s

/-- PILOT_PERIOD_START: the common period start, for every point (R153). -/
def execPilotPeriodStart (s : State) : Res :=
  .next (if s.power.clkOk then (List.range 64).foldl (fun t p => pilDueTakes p (pilPeriod p t)) s else s)

/-- What a session takes at its start: the vehicle-protocol entries of its point (10 R245, R247), and the edition and
proximity form (07 R169). -/
def sessionTakes (slot p : Nat) (s : State) : State :=
  let b := ptBase p
  let v : VSess :=
    { protoEn := BitVec.ofNat 3 (s.onum (b + 8) 1), svcEn := BitVec.ofNat 5 (s.onum (b + 8) 3),
      confirm := s.onum 0x2200 5 = 1, port := s.seqPortOf p }
  pilTakes p { s with app.veh.sess := s.app.veh.sess.set slot v }

/-- A context without a session: what stays is the slot's generation (R209) and the engine registers kept per context,
which a read or an application reset clears (R214). -/
def Ctx.blank (c : Ctx) : Ctx := { gen := c.gen, useMax := c.useMax, cmdSt := c.cmdSt, postrSt := c.postrSt }

/-- START's effect (R193, R206, R209): generation + 1, HANDLE written, bank cleared, START class set. -/
def ctxStart (slot p r : Nat) (s : State) : State :=
  let g := wrap16From1 (s.app.ctx.get slot).gen
  let s1 := ctxBytes slot 0 (List.replicate 0x180 0) s
  let s2 := s1.updCtx slot fun c => { c.blank with gen := g, st := .ready, role := r, point := p, pend := 1, startHt := s.ht }
  sessionTakes slot p (syncCtx slot (s2.setNum (ctxBase slot) 4 (s2.handleOf slot)))

/-- A new QUEUED context is started in a free slot of the point's engine (R195). -/
def startQueued (p : Nat) (s : State) : State :=
  match (engineSlots (p % 8)).find? fun i => (s.app.ctx.get i).st = .free with
  | some i => if s.startStatus (p % 8) (i % 32) p 0 = .ok then ctxStart i p 0 s else s
  | none => s

/-- RESTART (R206). -/
def ctxRestart (slot : Nat) (s : State) : Status × State :=
  let c := s.app.ctx.get slot
  if c.st = .trapped && c.cause ≠ 3 then
    (.ok, putCtx slot (fun c => { c with st := .ready, pend := putBit c.pend 0 true }) s)
  else (.state, s)

/-- FREE (R206): what was pending is discarded. -/
def ctxFree (slot : Nat) (s : State) : Status × State :=
  let c := s.app.ctx.get slot
  if c.st = .free || c.st = .running then (.state, s)
  else (.ok, putCtx slot (fun c =>
    { c with st := .free, pend := 0, live := 0, codes := [], stash := [] }) (girthOrphan slot (completeLevels slot s)))

/-- The permitted changes of role (R208). -/
def roleStep (a b : Nat) : Bool := (a = 0 && b = 1) || (a = 1 && b = 2) || (a = 1 && b = 3) || (a = 2 && b = 3)

/-- SETROLE (R208). -/
def ctxSetRole (slot r : Nat) (s : State) : Status × State :=
  let c := s.app.ctx.get slot
  if c.st = .free || !roleStep c.role r || (s.slotOfRole c.point r).isSome then (.state, s)
  else (.ok, putCtx slot (fun c => { c with role := r }) s)

/-- The result of a context command in its writer's SES_CMDST (R214). -/
def putCmdSt (port e : Nat) (x : Nat × Nat × Status) (s : State) : State :=
  if port = 4 + e then
    match (s.app.eng.get e).running with
    | none => s
    | some k => s.updCtx (32 * e + k) fun c => { c with cmdSt := x }
  else s.updEng e fun g => { g with cmdSt := g.cmdSt.set port x }

/-- A read of SES_USE_c returns the longest activation and clears it (R214). -/
def sesUseRead (slot : Nat) (s : State) : State :=
  busOk (BitVec.ofNat 32 (s.app.ctx.get slot).useMax) (s.updCtx slot fun c => { c with useMax := 0 })

/-- SES_USE_READ (R214). -/
def execSesUseRead (slot : Fin 256) (s : State) : Res := .next (sesUseRead slot s)

/-! ### Engine reset (R70, R206) -/

/-- All contexts of an engine become FREE and its registers return to their reset values; the slots keep their generations
and the local memory its contents (R70, R209), and what SES_USE_c, SES_CMDST and SES_POSTST hold per reader stays until a
read or an application reset (R214). -/
def engineReset (e : Nat) (s : State) : State :=
  let s1 := (engineSlots e).foldl (fun t i => girthOrphan i (completeLevels i t)) s
  let s2 := (engineSlots e).foldl (fun t i => t.updCtx i Ctx.blank) s1
  { s2 with app.eng := s2.app.eng.upd e fun x => { cmdSt := x.cmdSt, postrSt := x.postrSt },
            app.clk.run := putBit s2.app.clk.run e false,
            app.clk.loaded := putBit s2.app.clk.loaded e false }

end Sys2Proof.Machine
end

