-- ==== Sys2Proof/Machine/Sessions.lean ====
section
/-!
DEFINITION. The lifecycle of a session (09 R210, R211, R216): what the shipped firmware does with a context's PHASE, its
messages over the sealed link, its authorisation, its setpoints, and the terminal's binding.
-/
set_option Elab.async false
namespace Sys2Proof.Machine

/-! ### Values of a session -/

/-- Session values of a slot. -/
def State.vs (s : State) (slot : Nat) : VSess := s.app.veh.sess.get slot

/-- Changing them. -/
def State.updVs (s : State) (slot : Nat) (f : VSess → VSess) : State :=
  { s with app.veh.sess := s.app.veh.sess.upd slot f }

/-- The slot whose session serves the vehicle at a point (R208). -/
def State.session (s : State) (p : Nat) : Option Nat := s.slotOfRole p 1

/-- PHASE of a context (R193, R211). -/
def State.phase (s : State) (slot : Nat) : Nat := s.num (ctxBase slot + 0x30) 1

/-- Firmware writes PHASE. -/
def setPhase (slot v : Nat) (s : State) : State := s.setNum (ctxBase slot + 0x30) 1 v

/-- REASON of a context (R193). -/
def State.reason (s : State) (slot : Nat) : Nat := s.num (ctxBase slot + 0x31) 1

/-- Firmware writes REASON. -/
def setReason (slot v : Nat) (s : State) : State := s.setNum (ctxBase slot + 0x31) 1 v

/-- Firmware writes TIMER, the HT at which class TIMER is to come (R193). -/
def setTimer (slot ht : Nat) (s : State) : State := s.setNum (ctxBase slot + 0x28) 8 ht

/-- The phase of a point's session; 0 without one. -/
def State.pointPhase (s : State) (p : Nat) : Nat := ((s.session p).map s.phase).getD 0

/-- Doing something to a point's session. -/
def withSession (p : Nat) (f : Nat → State → State) (s : State) : State :=
  match s.session p with
  | some slot => f slot s
  | none => s

/-! ### Setpoints (10 R245) -/

/-- The setpoints of a point are published; the sequence counts changes. -/
def publish (p v : Nat) (i : Int) (en : Bool) (s : State) : State :=
  let b := ptBase p + 9
  let new := [toLE 2 v, toLE 4 (ofInt 32 i), [if en then 1 else 0]]
  if new = [s.vval b 1, s.vval b 2, s.vval b 3] then s
  else
    let n := (ofLE (s.vval b 4) + 1) % 65536
    (((s.setVol b 1 (toLE 2 v)).setVol b 2 (toLE 4 (ofInt 32 i))).setVol b 3 [if en then 1 else 0]).setVol b 4 (toLE 2 n)

/-- The setpoint of a session that stops. -/
def setpointOff (p : Nat) (s : State) : State := publish p 0 0 false s

/-- The most current a point gives, 0.1 A: its limit, and the available current (10 R222). -/
def State.pointTop (s : State) (p : Nat) : Nat := min (s.onum (ptBase p + 8) 5) (ofLE (s.vval (ptBase p + 9) 5))

/-! ### Requests of firmware over the sealed link (12 R281, R282, R296, R299) -/

/-- The request tag that firmware gives a session's request: any but 0 would do (the model's choice, assumption 115). -/
def fwTag (slot op : Nat) : Word := BitVec.ofNat 32 (0x80000000 + 16 * slot + op)

/-- The Cantle side sends a request of a session; without a link it has none. -/
def fwSend (cls : Nat) (tag : Word) (b : List Byte) (s : State) : State :=
  if s.app.link.key.isNone then s
  else linkOffer .control cls tag b { s with app.sl.outst := s.app.sl.outst ++ [tag] }

/-- A request of class 0002h (12 R296). -/
def recRequest (op p handle serial a : Nat) (ident : List Byte) : List Byte :=
  let i := ident.take 40
  [BitVec.ofNat 8 op, BitVec.ofNat 8 p] ++ toLE 4 handle ++ [0, 0] ++ toLE 8 serial ++
    [BitVec.ofNat 8 a, BitVec.ofNat 8 i.length] ++ i ++ List.replicate (40 - i.length) 0

/-- A session notice, class 0009h, kinds 1 to 4 (12 R299); kinds 2 to 4 name a record, so they need a serial. -/
def sessionNotice (kind slot reason : Nat) (s : State) : State :=
  let n := if kind = 1 then 0 else s.serialOf slot
  if kind ≠ 1 && n = 0 then s
  else fwSend 9 (fwTag slot (8 + kind)) ([BitVec.ofNat 8 kind, BitVec.ofNat 8 (s.app.ctx.get slot).point] ++
    toLE 4 (s.handleOf slot) ++ [0, 0] ++ toLE 8 n ++ [BitVec.ofNat 8 reason]) s

/-- The close request of a session whose serial is assigned. -/
def closeRecord (slot : Nat) (s : State) : State :=
  if s.serialOf slot = 0 || (s.vs slot).closeSent then s
  else fwSend 2 (fwTag slot 2) (recRequest 2 (s.app.ctx.get slot).point (s.handleOf slot) (s.serialOf slot) (s.reason slot) [])
    (s.updVs slot fun v => { v with closeSent := true })

/-! ### Ends of a session (R211) -/

/-- Entry into CLOSING: SETROLE CLOSING, and the close request where a serial is assigned; `tell` sends the stop notice. -/
def toClosing (slot reason : Nat) (tell : Bool) (s : State) : State :=
  let s1 := setReason slot reason s
  let s2 := if tell then sessionNotice 4 slot reason s1 else s1
  let s3 := if (s2.app.ctx.get slot).role = 1 then (ctxSetRole slot 2 s2).2 else s2
  setPhase slot 9 (closeRecord slot s3)

/-- Basic charging: the pilot's duty is taken back to X1. -/
def dutyOff (slot : Nat) (s : State) : State :=
  if (s.vs slot).proto = 1 then powerWrite (pilCommand (s.app.ctx.get slot).point 1) s else s

/-- Energy stops: zero current is requested or the duty reduced, per protocol, with the stop notice; under IEEE 2030.1.1
the contactor opens after 500 ms at the latest (10 R244). -/
def toStopping (slot reason : Nat) (s : State) : State :=
  let p := (s.app.ctx.get slot).point
  let s1 := sessionNotice 4 slot reason (setReason slot reason (dutyOff slot (setpointOff p s)))
  let s2 := if (s.vs slot).proto = 5 then setTimer slot (s.ht + 500000000) s1 else s1
  setPhase slot 8 s2

/-- The session of a slot ends with a reason: before energy flows it goes to CLOSING, while it flows to STOPPING. A
pending decision is cleared (10 R229). -/
def endSlot (slot reason : Nat) (s : State) : State :=
  let ph := s.phase slot
  let s1 := s.updVs slot fun v => { v with pendDec := 0, decided := 0 }
  if within 2 ph 6 then toClosing slot reason true s1
  else if ph = 7 then toStopping slot reason s1
  else s

/-- The session that serves a point's vehicle ends. -/
def endSession (p reason : Nat) (s : State) : State := withSession p (fun slot s => endSlot slot reason s) s

/-! ### IEEE 2030.1.1 (10 R243) -/

/-- A port's values. -/
def State.vp (s : State) (k : Nat) : VPort := s.app.veh.vport.get k

/-- Changing them. -/
def State.updVp (s : State) (k : Nat) (f : VPort → VPort) : State := { s with app.veh.vport := s.app.veh.vport.upd k f }

/-- Step 2 of R243: the session is authorised, SQk_D1 goes on and the frames are sent. -/
def seqAuthorised (k : Nat) (s : State) : State :=
  powerWrite (seqSet k false true) (s.updVp k fun v => { v with got := 0, fault := false, ready := false })

/-! ### Commands to contexts (R206 to R208, R214) -/

/-- FREE by a master: for a trapped context whose record is open the Cantle side sends the stop notice with reason 11
(R211). -/
def freeCmd (port slot : Nat) (s : State) : Status × State :=
  let c := s.app.ctx.get slot
  let tell := c.st = .trapped && decide (port < 4) && s.serialOf slot ≠ 0 && !(s.vs slot).signed
  ctxFree slot (if tell then sessionNotice 4 slot 11 (setReason slot 11 s) else s)

/-- A write of SES_CMD (R214); CMD values not listed are ignored. -/
def sesCmd (cmd port e : Nat) (v : Word) (s : State) : State :=
  if !sesWriter port e then busFail s
  else
    let k := fld v 0 5
    let slot := 32 * e + k
    let r : Option (Nat × Status × State) :=
      match cmd with
      | 1 =>
        let st := s.startStatus e k (fld v 8 6) (fld v 6 2)
        if st = .ok then
          let s1 := ctxStart slot (fld v 8 6) (fld v 6 2) s
          some ((s1.app.ctx.get slot).gen, .ok, s1)
        else some (0, st, s)
      | 2 => some (0, ctxRestart slot s)
      | 3 => some (0, freeCmd port slot s)
      | 4 => some (0, ctxSetRole slot (fld v 6 2) s)
      | _ => none
    match r with
    | none => busOk 0 s
    | some (g, st, s1) => busOk 0 (putCmdSt port e (g, k, st) s1)

/-- SES_START (R207). -/
def execSesStart (port : Fin 24) (e : Fin 8) (v : Word) (s : State) : Res := .next (sesCmd 1 port e v s)

/-- SES_RESTART (R206). -/
def execSesRestart (port : Fin 24) (e : Fin 8) (v : Word) (s : State) : Res := .next (sesCmd 2 port e v s)

/-- SES_FREE (R206). -/
def execSesFree (port : Fin 24) (e : Fin 8) (v : Word) (s : State) : Res := .next (sesCmd 3 port e v s)

/-- SES_SETROLE (R208). -/
def execSesSetrole (port : Fin 24) (e : Fin 8) (v : Word) (s : State) : Res := .next (sesCmd 4 port e v s)

/-! ### Authorisation and the record (R211, R216) -/

/-- The session is authorised: the open request of its record is sent (OPENING); without a link it cannot be opened, and
with SWITCH_FAIL of the point it must not be (15 R378). Under
IEEE 2030.1.1 step 2 of R243 follows the grant. -/
def openRecord (slot : Nat) (s : State) : State :=
  let v := s.vs slot
  let s1 := s.updVs slot fun v => { v with pendDec := 0, decided := 0 }
  let s0 := if v.proto = 5 then seqAuthorised v.port s1 else s1
  if s.app.link.key.isNone || (s.bp (s.app.ctx.get slot).point).switchFail then toClosing slot 13 true s0
  else setPhase slot 5
    (fwSend 2 (fwTag slot 1) (recRequest 1 (s.app.ctx.get slot).point (s.handleOf slot) 0 v.method v.ident) s0)

/-- AUTHORISING begins where no vehicle message asks for it: pre-authorised, or the host decides (R211). -/
def authorise (slot : Nat) (s : State) : State :=
  let s1 := setPhase slot 4 s
  if (s.vs slot).preAuth then openRecord slot s1 else s1.updVs slot fun v => { v with pendDec := 1, decided := 0 }

/-- The duty of basic charging, 0.1 %, for a current in A (07 R155); none below 6 A. -/
def basicDuty (a : Nat) : Option Nat := if a < 6 then none else some (clampDuty (min 80 a))

/-- The current of basic charging, A: the point's, the vehicle's own limit (R215), at most what the cable carries is the
clamp's. -/
def State.basicAmps (s : State) (slot : Nat) : Nat :=
  let top := s.pointTop (s.app.ctx.get slot).point / 10
  let own := (s.vs slot).limit
  if own = 0 then top else min own top

/-- Basic charging: PWM at the permitted duty, X1 where none is permitted. -/
def dutyOn (slot : Nat) (s : State) : State :=
  let p := (s.app.ctx.get slot).point
  match basicDuty (s.basicAmps slot) with
  | some d => powerWrite (pilCommand p (pack [(d, 4), (2, 0)])) s
  | none => powerWrite (pilCommand p 1) s

/-- The reply to the open request (R210, R211): OK writes SERIAL and the session is READY, with the authorise notice; any
other, or TIMEOUT, ends it with reason 13. A session that ended meanwhile closes the record it got. -/
def openReply (slot : Nat) (ok : Bool) (serial : Nat) (s : State) : State :=
  let ph := s.phase slot
  let write := s.setNum (ctxBase slot + 0x20) 8 serial
  if ph = 5 then
    (if ok then
      let s1 := sessionNotice 2 slot 0 (setPhase slot 6 write)
      if (s.vs slot).proto = 1 then dutyOn slot s1 else s1
    else toClosing slot 13 true s)
  else if ph = 9 && ok then closeRecord slot write
  else s

/-- The signed record of a session is reported (R211): a context that waits for it is freed. -/
def recordSigned (slot : Nat) (s : State) : State :=
  let s1 := s.updVs slot fun v => { v with signed := true }
  if s.phase slot = 10 then (ctxFree slot s1).2 else s1

/-- The live session that holds a serial at a point. -/
def State.slotOfSerial (s : State) (p serial : Nat) : Option Nat :=
  (s.pointSlots p).find? fun i => serial ≠ 0 && s.serialOf i = serial

/-- The session that a card, token or host authorises at a point: one in AUTHORISING, else the WAITING one (R211). -/
def State.authSlot (s : State) (p : Nat) : Option Nat :=
  ((s.session p).filter fun i => s.phase i = 4).orElse fun _ => (s.slotOfRole p 0).filter fun i => s.phase i = 1

/-- An authorisation is granted: a WAITING context keeps it as a pre-authorisation, one in AUTHORISING opens its record. -/
def authGranted (slot : Nat) (s : State) : State :=
  if s.phase slot = 1 then s.updVs slot fun v => { v with preAuth := true, pendDec := 0, decided := 0 }
  else if s.phase slot = 4 then openRecord slot s
  else s

/-- Digits of a number in decimal, most significant first. -/
def decimalOf : Nat → Nat → List Byte
  | 0, _ => []
  | f + 1, n => if n < 10 then [BitVec.ofNat 8 (0x30 + n)] else decimalOf f (n / 10) ++ [BitVec.ofNat 8 (0x30 + n % 10)]

/-- A digit in hexadecimal capitals. -/
def hexDigit (n : Nat) : Byte := BitVec.ofNat 8 (if n < 10 then 0x30 + n else 0x37 + n)

/-- Bytes in hexadecimal capitals. -/
def hexOf (b : List Byte) : List Byte := (b.map fun x => [hexDigit (x.toNat / 16), hexDigit (x.toNat % 16)]).flatten

/-- A credit token accepted at a point authorises its session (R211, 12 R307): the identifier is the TID in decimal. -/
def tokenAuth (p tid : Nat) (s : State) : State :=
  match s.authSlot p with
  | none => s
  | some slot => authGranted slot (s.updVs slot fun v => { v with method := 3, ident := decimalOf 8 tid })

/-- A single card in the field (R211, 13 R336): its UID is the identifier to be authorised, and the host decides on it (the
model's reading, assumption 117). -/
def cardAuth (uid : List Byte) (s : State) : State :=
  match s.app.server.termPoint.bind s.authSlot with
  | none => s
  | some slot => s.updVs slot fun v =>
      if v.preAuth then v else { v with method := 1, ident := hexOf uid, pendDec := 1, decided := 0 }

/-! ### The terminal's binding (R216) -/

/-- The session at a point that the terminal is bound to when the point is selected: ACTIVE, else CLOSING, else BILLING. -/
def State.termSession (s : State) (p : Nat) : Option Nat :=
  (s.slotOfRole p 1).orElse fun _ => (s.slotOfRole p 2).orElse fun _ => s.slotOfRole p 3

/-- A point is selected at the keypad, or the selection ends. -/
def termSelect (p : Option Nat) (s : State) : State :=
  { s with app.server.termPoint := p, app.server.termBound := (p.bind s.termSession).map s.handleOf }

/-- The slot of the session that the terminal is bound to; none once its context has been freed. -/
def State.termSlot (s : State) : Option Nat :=
  s.app.server.termBound.bind fun h => s.namesSession h (s.serialOf (h / 2 ^ 24 % 256))

/-- A stop by the Customer at the terminal (13 R332), where (q + 1).01 would take it (R215). -/
def termStop (s : State) : State :=
  match s.termSlot with
  | some slot => if within 4 (s.phase slot) 7 then endSlot slot 2 s else s
  | none => s

/-! ### What the Cantle side does with a message of the sealed die (R211, R216; 12 R296, R311; 13 R328) -/

/-- The slot of a session's own request tag, and which request it was. -/
def fwRequest (tag : Word) : Option (Nat × Nat) :=
  if tag.toNat < 0x80000000 || 0x80000000 + 4096 ≤ tag.toNat then none
  else some ((tag.toNat - 0x80000000) / 16, tag.toNat % 16)

/-- A reply of class 0002h to a session's open request, or to the query of a record that is waited for. -/
def recordReply (m : LinkMsg) (s : State) : State :=
  match fwRequest m.tag with
  | some (slot, 1) => openReply slot (m.payload.getD 0 0 = 0) (ofLE ((m.payload.drop 4).take 8)) s
  | some (slot, 3) => if m.payload.getD 0 0 = 0 && m.payload.getD 1 0 = 3 then recordSigned slot s else s
  | _ => s

/-- A message of the sealed die's own, tag 0. -/
def dieNotice (m : LinkMsg) (s : State) : State :=
  let b := fun i => (m.payload.getD i 0).toNat
  let num := fun i n => ofLE ((m.payload.drop i).take n)
  match m.cls.toNat with
  | 2 => if b 0 = 4 then (match s.slotOfSerial (b 1) (num 8 8) with | some i => recordSigned i s | none => s) else s
  | 7 =>
    if b 1 = 2 && b 3 = 0 then tokenAuth (b 2) (num 10 3) s
    else if b 1 = 4 then (match s.slotOfSerial (b 2) (num 3 8) with | some i => endSlot i 6 s | none => s)
    else s
  | 8 =>
    if b 1 ≠ 16 then s
    else if b 4 = 1 then termSelect (some (b 5)) s
    else if b 4 = 2 then termStop s
    else if b 4 = 3 then termSelect none s
    else s
  | _ => s

/-- A received message is taken from the queue by a Cantle core. -/
def cantleTakes (m : LinkMsg) (s : State) : State :=
  if m.tag = 0 then dieNotice m s else if m.cls = 2 then recordReply m s else s

/-- After a link has been agreed again the contexts in BILLING_PENDING query their records (R211). -/
def sessionsRelinked (s : State) : State :=
  ((List.range 256).filter fun i => (s.app.ctx.get i).st ≠ .free && s.phase i = 10).foldl (fun t i =>
    fwSend 2 (fwTag i 3) (recRequest 3 (t.app.ctx.get i).point (t.handleOf i) (t.serialOf i) 0 []) t) s

/-- The sealed link has failed (R211; 12 R298): a session whose record is being opened gets no reply, and every session
that had an open record stops with reason 12. -/
def sessionsUnlinked (s : State) : State :=
  (List.range 256).foldl (fun t slot =>
    if (t.app.ctx.get slot).st = .free then t
    else if t.phase slot = 5 then openReply slot false 0 t
    else if t.serialOf slot ≠ 0 then endSlot slot 12 t
    else t) s

end Sys2Proof.Machine
end

