-- ==== Sys2Proof/Machine/Readers.lean ====
section
/-!
DEFINITION. Reader channels and tag emulation (13 R333 to R341).
-/
set_option Elab.async false
namespace Sys2Proof.Machine

/-! ### Shared operations -/

/-- A reader channel. -/
def State.rd (s : State) (n : Nat) : Reader := s.power.readers.get n

/-- Changing a reader channel. -/
def State.updRd (s : State) (n : Nat) (f : Reader → Reader) : State :=
  { s with power.readers := s.power.readers.upd n f }

/-- The field of channel n is on. -/
def State.fieldIsOn (s : State) (n : Nat) : Bool := s.power.fields.getLsbD n

/-- A level of the power die on its way over the application lane: while the lane's fault flag is set the
change may be missing (R444), which a free value decides. -/
def laneLevel (n : Nat) (b : Bool) (s : State) : State :=
  if s.app.lane.fault then
    if s.freeBits 1 = 1 then setLevel n b s.used else s.used
  else setLevel n b s

/-- An event bit of OUT_RDEVT_n; source 288 + n is asserted while any is set (R341). -/
def rdEvt (n i : Nat) (s : State) : State :=
  laneLevel (288 + n) true (s.updRd n fun r => { r with evt := setEvt r.evt i })

/-- The status codes in order, for a status that the manual does not state. -/
def statusOf (n : Nat) : Status :=
  match n with
  | 0 => .ok | 1 => .busy | 2 => .denied | 3 => .range | 4 => .state | 5 => .sealed | 6 => .timeout
  | 7 => .integrity | 8 => .absent | 9 => .stale | _ => .limit

/-- A status that the manual does not state (log 1). -/
def State.freeStatus (s : State) : Status := statusOf ((s.freeBits 8).toNat % 11)

/-- The exchange in progress ends with a status (R337). -/
def xchEnd (n : Nat) (st : Status) (s : State) : State :=
  rdEvt n 2 (s.updRd n fun r => { r with xch := none, status := st, st := .active })

/-- The field is switched off (R335, R341). An exchange in progress ends with a status that the manual
does not state. -/
def fieldOff (n : Nat) (s : State) : State :=
  if !s.fieldIsOn n then s
  else
    let s1 := if (s.rd n).xch.isSome then xchEnd n s.freeStatus s.used else s
    { (s1.updRd n fun r => { r with card := none, empty := 0, st := if r.mode = 1 then .pinging else .off }) with
      power.fields := putBit s1.power.fields n false }

/-- The on-command of a kind-5 grant: only a channel in reader mode takes it (R333). -/
def fieldOn (n : Nat) (s : State) : State :=
  if (s.rd n).mode ≠ 1 || s.power.vdrv || s.fieldIsOn n then girthUnitOff 5 n s
  else { (s.updRd n fun r => { r with st := .fieldWait, empty := 0, card := none }) with
         power.fields := putBit s.power.fields n true }

/-! ### Detection and polling (R334 to R336) -/

/-- A reading differs from the baseline by more than a threshold of OUT_RDCFG_n (R334). Amplitude in any
unit, phase in 0.001°; the baseline is (a, p) / 16^k. -/
def pingDetects (cfg : Word) (a p : Int) (k : Nat) (amp phase : Int) : Bool :=
  decide (((amp * 16 ^ k - a).natAbs : Int) * 100 > (fld cfg 16 4 : Int) * a.natAbs) ||
    decide (((phase * 16 ^ k - p).natAbs : Int) > (fld cfg 20 4 : Int) * 1000 * 16 ^ k)

/-- A ping of channel n (R334). -/
def readerPing (n : Nat) (amp phase : Int) (s : State) : State :=
  let r := s.rd n
  if r.st ≠ .pinging || s.power.fields ≠ 0 then s
  else match r.base with
    | none => s.updRd n fun r => { r with base := some (amp, phase, 0) }
    | some (a, p, k) =>
      if pingDetects r.cfg a p k amp phase then rdEvt n 0 (s.updRd n fun r => { r with st := .detected })
      else s.updRd n fun r =>
        { r with base := some (15 * a + amp * 16 ^ k, 15 * p + phase * 16 ^ k, k + 1) }

/-- READER_PING (R334). -/
def execReaderPing (n : Fin 16) (amp phase : Int) (s : State) : Res := .next (readerPing n amp phase s)

/-- The bytes on the air of a type A identifier, with the cascade tags of ISO/IEC 14443-3. -/
def cascade (uid : List Byte) : List Byte :=
  if uid.length ≤ 4 then uid
  else if uid.length ≤ 7 then 0x88 :: uid
  else 0x88 :: uid.take 3 ++ 0x88 :: uid.drop 3

/-- Identifier `a` comes before `b` with the bit-0 branch taken at a collision; bits go least first. -/
def uidBefore : List Byte → List Byte → Bool
  | [], _ => true
  | _, [] => false
  | x :: xs, y :: ys => if x = y then uidBefore xs ys else
      match ((List.range 8).find? fun i => x.getLsbD i ≠ y.getLsbD i) with
      | some i => !x.getLsbD i
      | none => true

/-- Insertion in the order of `uidBefore`. -/
def uidInsert (c : CardId) : List CardId → List CardId
  | [] => [c]
  | d :: r => if uidBefore (cascade c.uid) (cascade d.uid) then c :: d :: r else d :: uidInsert c r

/-- The order in which the engine finds type A cards: the bit-1 branch for the first, then the bit-0
branch (R336). -/
def pollOrder (cs : List CardId) : List CardId :=
  match (cs.foldr uidInsert []).reverse with
  | [] => []
  | c :: r => c :: r.reverse

/-- The 16 bytes of an identifier record (R341). -/
def idRecord (c : CardId) : List Byte :=
  let u := c.uid.take 10
  [if c.typeB then 2 else 1, BitVec.ofNat 8 u.length] ++ u ++ List.replicate (10 - u.length) 0 ++ [c.sak, 0, 0, 0]

/-- The cards that a poll finds, in order, of the types enabled (R335, R336). -/
def pollFinds (types : BitVec 2) (cards : List CardId) : List CardId :=
  (if types.getLsbD 0 then pollOrder (cards.filter (!·.typeB)) else []) ++
    (if types.getLsbD 1 then cards.filter (·.typeB) else [])

/-- A poll cycle with the cards present in the field (R335, R336). -/
def pollCycle (n : Nat) (cards : List CardId) (s : State) : State :=
  let r := s.rd n
  let found := pollFinds r.types cards
  match found with
  | [] =>
    let s1 := s.updRd n fun r => { r with empty := r.empty + 1, cards := 0, ids := [], card := none, st := .polling }
    if 3 ≤ r.empty + 1 then
      let s2 := rdEvt n 1 (rdEvt n 5 (fieldOff n s1))
      (s2.updRd n fun r => { r with base := none, status := s2.freeStatus }).used
    else s1
  | c :: rest =>
    let one := rest.isEmpty
    let s1 := s.updRd n fun r =>
      { r with empty := 0, cards := min 15 found.length, ids := ((found.take 4).map idRecord).flatten,
               card := if one then some c else none, st := if one then .active else .polling, status := .ok }
    let s2 := rdEvt n 1 s1
    if one then cardAuth c.uid s2 else rdEvt n 4 s2

/-- READER_POLL_CYCLE (R335). -/
def execReaderPollCycle (n : Fin 16) (cards : List CardId) (s : State) : Res :=
  .next (if s.fieldIsOn n && ((s.rd n).st = .fieldWait || (s.rd n).st = .polling) then pollCycle n cards s else s)

/-- READER_MULTI_REPOLL: every 500 ms while more than one card was found (R336). -/
def execReaderMultiRepoll (n : Fin 16) (cards : List CardId) (s : State) : Res :=
  .next (if s.fieldIsOn n && decide (1 < (s.rd n).cards) && (s.rd n).xch.isNone then pollCycle n cards s else s)

/-- READER_FIELD_IDLE (R335). -/
def execReaderFieldIdle (n : Fin 16) (s : State) : Res :=
  .next (if s.fieldIsOn n && (s.rd n).xch.isNone then rdEvt n 3 (fieldOff n s) else s)

/-! ### Exchanges (R337, R338) -/

/-- EXCH: with a single active card the exchange starts, otherwise it ends with STATE (R337). -/
def readerExchange (n : Nat) (s : State) : State :=
  let r := s.rd n
  if r.xch.isSome then s
  else if s.fieldIsOn n && r.st = .active && r.card.isSome then
    s.updRd n fun r => { r with st := .exchange, xch := some { cmd := (List.range (min 256 r.txlen)).map r.tx.get } }
  else rdEvt n 2 (s.updRd n fun r => { r with status := .state })

/-- READER_EXCHANGE (R337). -/
def execReaderExchange (n : Fin 16) (s : State) : Res := .next (powerWrite (readerExchange n) s)

/-- ABORT: an exchange or a poll ends with TIMEOUT (R341). -/
def readerAbort (n : Nat) (s : State) : State :=
  let r := s.rd n
  if r.xch.isSome then xchEnd n .timeout s
  else if r.st = .fieldWait || r.st = .polling then
    rdEvt n 1 (s.updRd n fun r => { r with status := .timeout, st := .active })
  else s

/-- READER_ABORT (R341). -/
def execReaderAbort (n : Fin 16) (s : State) : Res := .next (powerWrite (readerAbort n) s)

/-- POLL: polls again with the field on (R341). -/
def readerPoll (n : Nat) (s : State) : State :=
  if s.fieldIsOn n && (s.rd n).xch.isNone then
    s.updRd n fun r => { r with st := .polling, empty := 0, card := none }
  else s

/-- READER_POLL (R341). -/
def execReaderPoll (n : Fin 16) (s : State) : Res := .next (powerWrite (readerPoll n) s)

/-- READER_FIELD_OFF (R341). -/
def execReaderFieldOff (n : Fin 16) (s : State) : Res := .next (powerWrite (fieldOff n) s)

/-- A block failed or is missing: up to two retries, then one retry of the exchange in full, then
INTEGRITY (R338). -/
def xchBad (n : Nat) (x : Xchg) (s : State) : State :=
  if x.retries < 2 then s.updRd n fun r => { r with xch := some { x with retries := x.retries + 1, wtx := 1 } }
  else if !x.full then s.updRd n fun r => { r with xch := some { cmd := x.cmd, full := true } }
  else xchEnd n .integrity s

/-- The response is placed in the receive buffer and the exchange ends with OK (R337). The manual states no
RXLEN for a response longer than the buffer. -/
def xchDone (n : Nat) (data : List Byte) (s : State) : State :=
  let s1 := xchEnd n .ok (s.updRd n fun r =>
    { r with rx := (data.take 256).zipIdx.foldl (fun b x => b.set x.2 x.1) r.rx, rxlen := data.length })
  if data.length ≤ 256 then s1
  else (s1.updRd n fun r => { r with rxlen := (s1.freeBits 9).toNat }).used

/-- A block from the card (R337, R338). -/
def cardBlock (n : Nat) (b : CardBlock) (s : State) : State :=
  match (s.rd n).xch with
  | none => s
  | some x => match b with
    | .info d chain =>
      if chain then s.updRd n fun r => { r with xch := some { x with data := x.data ++ d, retries := 0, wtx := 1 } }
      else xchDone n (x.data ++ d) s
    | .ack => s.updRd n fun r => { r with xch := some { x with retries := 0, wtx := 1 } }
    | .wtx m => s.updRd n fun r => { r with xch := some { x with retries := 0, wtx := m } }
    | .bad => xchBad n x s

/-- CARD_BLOCK_RECEIVE (R338). -/
def execCardBlockReceive (n : Fin 16) (b : CardBlock) (s : State) : Res := .next (cardBlock n b s)

/-- CARD_FWT_EXPIRY (R338). -/
def execCardFwtExpiry (n : Fin 16) (s : State) : Res := .next (cardBlock n .bad s)

/-- READER_EXCHANGE_TIMEOUT: XLIMIT has passed (R337). -/
def execReaderExchangeTimeout (n : Fin 16) (s : State) : Res :=
  .next (if (s.rd n).xch.isSome then xchEnd n .timeout s else s)

/-! ### Mode (R333, R341) -/

/-- A tag slot. -/
def State.tag (s : State) (k : Nat) : TagSlot := s.power.tags.get k

/-- Changing a tag slot. -/
def State.updTag (s : State) (k : Nat) (f : TagSlot → TagSlot) : State :=
  { s with power.tags := s.power.tags.upd k f }

/-- The slot bound to a channel (R339). -/
def State.slotOfChannel (s : State) (n : Nat) : Option Nat :=
  (List.range 4).find? fun k => (s.tag k).en && (s.tag k).channel = n

/-- The banks of a slot swap (R340): SWAP_PENDING clears, TAG_SWAP is set. -/
def tagSwap (k : Nat) (s : State) : State :=
  let t := s.tag k
  if !t.pending then s
  else rdEvt t.channel 6 (s.updTag k fun t => { t with bank := !t.bank, lenAct := t.lenNext, pending := false })

/-- The field transaction of a channel closes (R340): TAG_READ, and a pending swap takes place. -/
def tagClose (n : Nat) (s : State) : State :=
  if !(s.rd n).openT then s
  else
    let s1 := rdEvt n 7 (s.updRd n fun r => { r with openT := false })
    match s.slotOfChannel n with
    | some k => tagSwap k s1
    | none => s1

/-- The channel enters a mode. -/
def readerMode (n m : Nat) (s : State) : State :=
  (tagClose n s).updRd n fun r =>
    { r with mode := m, st := if m = 1 then .pinging else if m = 2 then .emulating else .off,
             base := none, empty := 0, card := none, ext := false, activated := false, appSel := false, file := none }

/-- MODE, TYPES and TXLEN of a write of OUT_RDCTL_n (R341). A write that changes neither MODE nor TYPES is
not a write to them in the sense of CFG_ERR (log 40). -/
def readerModeWrite (n : Nat) (v : Word) (s : State) : State :=
  let r := s.rd n
  let m := if fld v 0 2 = 3 then r.mode else fld v 0 2
  let ty : BitVec 2 := BitVec.ofNat 2 (fld v 2 2)
  let s1 := s.updRd n fun r => { r with txlen := fld v 16 9 }
  if m = r.mode && ty = r.types then s1
  else if s.fieldIsOn n then rdEvt n 8 s1
  else if m = 2 && r.mode ≠ 2 && (s.slotOfChannel n).isNone then
    rdEvt n 8 (s1.updRd n fun r => { r with types := ty })
  else
    let s2 := s1.updRd n fun r => { r with types := ty }
    if m = r.mode then s2 else readerMode n m s2

/-- READER_MODE_WRITE (R341). -/
def execReaderModeWrite (n : Fin 16) (v : Word) (s : State) : Res := .next (powerWrite (readerModeWrite n v) s)

/-- A whole write of OUT_RDCTL_n: the fields, then the actions (R341). -/
def rdCtlWrite (n : Nat) (v : Word) (s : State) : State :=
  let s1 := readerModeWrite n v s
  let s2 := if bit v 7 then readerAbort n s1 else s1
  let s3 := if bit v 4 then fieldOff n s2 else s2
  let s4 := if bit v 6 then readerPoll n s3 else s3
  if bit v 5 then readerExchange n s4 else s4

/-- A write of OUT_RDCFG_n, each field only within its range (R341). -/
def rdCfgWrite (n : Nat) (v : Word) (s : State) : State :=
  let fields : List (Nat × Nat × Nat × Nat) := [(28, 4, 1, 15), (24, 4, 1, 15), (20, 4, 1, 15), (16, 4, 1, 15), (0, 16, 50, 2000)]
  let ok := fun f : Nat × Nat × Nat × Nat => within f.2.2.1 (fld v f.1 f.2.1) f.2.2.2
  let c := fields.foldl (fun c f => if ok f then putFld c f.1 f.2.1 (fld v f.1 f.2.1) else c) (s.rd n).cfg
  let s1 := s.updRd n fun r => { r with cfg := c }
  if fields.all ok then s1 else rdEvt n 8 s1

/-- A write of OUT_RDEVT_n clears bits; the source falls with the last (R341). -/
def rdEvtWrite (n : Nat) (v : Word) (s : State) : State :=
  let e := wW1C 0x1FF (s.rd n).evt v
  setLevel (288 + n) (e ≠ 0) (s.updRd n fun r => { r with evt := e })

/-! ### Tag emulation (R339, R340) -/

/-- A field command to a channel that emulates, in a field, with its slot. -/
def State.tagHears (s : State) (n : Nat) : Option Nat :=
  if (s.rd n).mode = 2 && (s.rd n).ext then s.slotOfChannel n else none

/-- The channel answers (none: it stays silent). -/
def tagAnswer (n : Nat) (a : Option (List Byte)) (s : State) : State := s.updRd n fun r => { r with ans := a }

/-- The external field arrives: a fresh UID beginning with 08h, or a fresh PUPI (R339). -/
def tagEntry (n : Nat) (s : State) : State :=
  if (s.rd n).mode ≠ 2 then s
  else
    let b := match s.slotOfChannel n with
      | some k => (s.tag k).typeB
      | none => false
    let f : BitVec 32 := s.freeBits 32
    let u : BitVec 32 := if b then f else (f &&& 0xFFFFFF00) ||| 0x08
    (s.updRd n fun r =>
      { r with ext := true, uid := u, activated := false, halt := false, appSel := false, file := none, ans := none }).used

/-- TAG_FIELD_ENTRY (R339). -/
def execTagFieldEntry (n : Fin 16) (s : State) : Res := .next (tagEntry n s)

/-- The four identity bytes. -/
def uidBytes (u : BitVec 32) : List Byte := toLE 4 u.toNat

/-- Activation as type A (R339): the ATS of 256-byte frames and FWI 4 has TL, T0 and TB1 (log 41). -/
def tagActA (n : Nat) (c : TagAct) (s : State) : State :=
  let u := uidBytes (s.rd n).uid
  match c with
  | .reqa => tagAnswer n (some [0x04, 0x00]) s
  | .anticollision => tagAnswer n (some (u ++ [u.foldl (· ^^^ ·) 0])) s
  | .selectUid => tagAnswer n (some [0x20]) s
  | .rats => tagAnswer n (some [0x03, 0x28, 0x40]) (s.updRd n fun r => { r with activated := true })
  | .reqb | .attrib _ | .hltb => tagAnswer n none s

/-- Activation as type B (R339). -/
def tagActB (n : Nat) (c : TagAct) (s : State) : State :=
  match c with
  | .reqb => tagAnswer n (some ([0x50] ++ uidBytes (s.rd n).uid ++ [0, 0, 0, 0, 0x00, 0x81, 0x40]))
      (s.updRd n fun r => { r with halt := false })
  | .attrib cid =>
    if cid = 0 && !(s.rd n).halt then tagAnswer n (some [0x00]) (s.updRd n fun r => { r with activated := true })
    else tagAnswer n none s
  | .hltb => tagAnswer n (some [0x00]) (s.updRd n fun r => { r with halt := true, activated := false })
  | .reqa | .anticollision | .selectUid | .rats => tagAnswer n none s

/-- An activation command of the field; it closes an open transaction (R340). -/
def tagAct (n : Nat) (c : TagAct) (s : State) : State :=
  match s.tagHears n with
  | none => s
  | some k => if (s.tag k).typeB then tagActB n c (tagClose n s) else tagActA n c (tagClose n s)

/-- TAG_ACTIVATION (R339). -/
def execTagActivation (n : Fin 16) (c : TagAct) (s : State) : Res := .next (tagAct n c s)

/-- A command of an activated tag. -/
def State.tagActive (s : State) (n : Nat) : Bool := (s.tagHears n).isSome && (s.rd n).activated

/-- An answer of two status bytes that the manual does not state. -/
def freeSw (n : Nat) (s : State) : State := (tagAnswer n (some (toLE 2 (s.freeBits 16).toNat)) s).used

/-- SELECT (R339, R340): the application, then a file, which opens a transaction. Another SELECT has no
answer in the manual. -/
def tagSelect (n : Nat) (f : TagFile) (s : State) : State :=
  if !s.tagActive n then s
  else
    let s1 := tagClose n s
    let ok := tagAnswer n (some [0x90, 0x00])
    let file := fun i => if (s.rd n).appSel then ok (s1.updRd n fun r => { r with file := some i, openT := true })
      else freeSw n s1
    match f with
    | .app => ok (s1.updRd n fun r => { r with appSel := true, file := none })
    | .cc => file 1
    | .ndef => file 2
    | .unknown => freeSw n s1

/-- TAG_SELECT (R339). -/
def execTagSelect (n : Fin 16) (f : TagFile) (s : State) : Res := .next (tagSelect n f s)

/-- The capability container, file E103 (R339). -/
def ccFile : List Byte := [0x00, 0x0F, 0x20, 0x00, 0xFF, 0x00, 0x01, 0x04, 0x06, 0xE1, 0x04, 0x04, 0x00, 0x00, 0xFF]

/-- The bank that the field reads, or its shadow. -/
def TagSlot.bytes (t : TagSlot) (shadow : Bool) : Bank Byte := if t.bank = !shadow then t.bank1 else t.bank0

/-- The bytes of the selected file. -/
def State.tagFile (s : State) (n k : Nat) : Option (List Byte) :=
  (s.rd n).file.map fun i => if i = 1 then ccFile
    else (List.range (min 1024 (s.tag k).lenAct)).map ((s.tag k).bytes false).get

/-- READ BINARY (R339): data cut at the file's end, then 9000. -/
def tagRead (n off len : Nat) (s : State) : State :=
  match s.tagHears n with
  | none => s
  | some k =>
    if !(s.rd n).activated then s
    else tagAnswer n (some (match s.tagFile n k with
      | none => [0x69, 0x86]
      | some f => if f.length ≤ off then [0x6B, 0x00] else (f.drop off).take len ++ [0x90, 0x00])) s

/-- TAG_READ_BINARY (R339). -/
def execTagReadBinary (n : Fin 16) (off len : Nat) (s : State) : Res := .next (tagRead n off len s)

/-- A command answered with two bytes that closes the transaction. -/
def tagOther (n : Nat) (a : List Byte) (s : State) : State :=
  if !s.tagActive n then s else tagAnswer n (some a) (tagClose n s)

/-- TAG_UPDATE_BINARY (R339). -/
def execTagUpdateBinary (n : Fin 16) (s : State) : Res := .next (tagOther n [0x69, 0x82] s)

/-- S(DESELECT) deactivates the tag; its answer is the S(DESELECT) block of ISO/IEC 14443-4 (log 41). -/
def tagOtherCommand (n : Nat) (deselect : Bool) (s : State) : State :=
  if !s.tagActive n then s
  else if deselect then
    (tagOther n [0xC2] s).updRd n fun r => { r with activated := false, appSel := false, file := none }
  else tagOther n [0x6D, 0x00] s

/-- TAG_OTHER_COMMAND (R340). -/
def execTagOtherCommand (n : Fin 16) (deselect : Bool) (s : State) : Res := .next (tagOtherCommand n deselect s)

/-- TAG_FIELD_LOSS (R340). -/
def execTagFieldLoss (n : Fin 16) (s : State) : Res :=
  .next (if (s.rd n).mode ≠ 2 then s
    else (tagClose n s).updRd n fun r =>
      { r with ext := false, activated := false, appSel := false, file := none, ans := none })

/-- TAG_TRANSACTION_IDLE (R340). -/
def execTagTransactionIdle (n : Fin 16) (s : State) : Res := .next (tagClose n s)

/-- A transaction is open on the slot's channel. -/
def State.tagOpen (s : State) (k : Nat) : Bool := (s.tag k).en && (s.rd (s.tag k).channel).openT

/-- A write of OUT_TAGCTL_k (R340, R341). LEN outside 2 to 1024 leaves the field (log 42). -/
def tagCtlWrite (k : Nat) (v : Word) (s : State) : State :=
  let s1 := s.updTag k fun t =>
    { t with len := if within 2 (fld v 16 11) 1024 then fld v 16 11 else t.len,
             typeB := if t.en then t.typeB else bit v 13,
             channel := if t.en then t.channel else fld v 0 4,
             wrErr := t.wrErr && !bit v 12, en := bit v 8 }
  if !bit v 9 then s1
  else if (s.tag k).pending then s1.updTag k fun t => { t with wrErr := true }
  else
    let s2 := s1.updTag k fun t => { t with pending := true, lenNext := t.len }
    if s2.tagOpen k then s2 else tagSwap k s2

/-- TAG_COMMIT: a write of OUT_TAGCTL_k with COMMIT (R340). -/
def execTagCommit (k : Fin 4) (v : Word) (s : State) : Res := .next (powerWrite (tagCtlWrite k (v ||| 0x200)) s)

/-- A write to the shadow window, byte `i`: ignored with WR_ERR while a swap is pending (R340). -/
def tagShadowWrite (k i : Nat) (b : Byte) (s : State) : State :=
  s.updTag k fun t =>
    if t.pending then { t with wrErr := true }
    else if t.bank then { t with bank0 := t.bank0.set i b } else { t with bank1 := t.bank1.set i b }

/-- 500 ms after the COMMIT with the transaction still open: it is closed, its file no longer selected, and
the banks swap (R340). -/
def tagForced (k : Nat) (s : State) : State :=
  if !(s.tag k).pending || !s.tagOpen k then s
  else
    let n := (s.tag k).channel
    tagClose n (s.updRd n fun r => { r with file := none })

/-- TAG_FORCED_SWAP (R340). -/
def execTagForcedSwap (k : Fin 4) (s : State) : Res := .next (tagForced k s)

end Sys2Proof.Machine
end

