-- ==== Sys2Proof/Machine/Girth.lean ====
section
/-!
DEFINITION. Girth (04 R85 to R94): requests, grants with their on-commands and signals, releases, holds,
derating, the rebuild after a reset and the GRT_ registers.
-/
set_option Elab.async false
namespace Sys2Proof.Machine

/-! ### Requests (R90, R91) -/

/-- A write of GRT_REQ_p. -/
def girthReqWrite (port : Nat) (v : Word) (s : State) : State :=
  (girthSubmit port (s.runningSlot port) (fld v 28 4) (fld v 16 8) (fld v 0 16) s).2

/-- GIRTH_REQUEST (R90). -/
def execGirthRequest (port : Fin 24) (v : Word) (s : State) : Res := .next (girthReqWrite port v s)

/-! ### Grants (R89, R91) -/

/-- Kinds whose on-command Girth sends itself (R89). -/
def sendsOn (k : Nat) : Bool := k = 0 || k = 2 || k = 4 || k = 5

/-- The on-command of a mains-port driver: without VDRV it does not turn on (R50). -/
def lineOn (m : Nat) (s : State) : State :=
  if s.power.vdrv || s.power.lines.getLsbD m then girthUnitOff 2 m s
  else { s with power.lines := putBit s.power.lines m true }

/-- The on-command of a grant, sent over the application lane; it is lost while the power die's clock has
failed (R66). -/
def girthOnCommand (kind unit : Nat) (s : State) : State :=
  if !s.power.clkOk then s
  else match kind with
    | 0 => outOn unit s
    | 2 => lineOn unit s
    | 4 => outOn (64 + unit) s
    | 5 => fieldOn unit s
    | _ => s

/-- The grant is signalled: the GRANT class for a tagged context of a Rein port, else the port's source
(R91). Restart requests of channels have no port. -/
def girthSignal (r : GirthReq) (s : State) : State :=
  if (portEngine r.port).isSome then
    match r.ctx with
    | some slot => postClass slot 4 s
    | none => s
  else if r.port < 24 then raise (16 + r.port) s
  else s

/-- The state of a ticket in its port's response register. -/
def girthMark (r : GirthReq) (st : Nat) (s : State) : State :=
  { s with app.girth.ports := s.app.girth.ports.upd r.port fun g =>
      if r.ticket ≠ 0 && g.ticket = r.ticket then { g with state := st } else g }

/-- What a grant starts: an on-command, or the panel's clearing frames. -/
def girthStart (r : GirthReq) (s : State) : State :=
  if sendsOn r.kind then girthOnCommand r.kind r.unit s
  else if r.kind = 6 && r.port = 21 then panelGranted r.unit s
  else s

/-- A request is granted (R89, R91). -/
def girthGrantReq (r : GirthReq) (s : State) : State :=
  let s0 := if r.port = restartPort then s.updOut (if r.kind = 0 then r.unit else 64 + r.unit)
      fun o => { o with restartQ := false } else s
  let s1 := countEvents 3 (s.girthKind r.kind).cls 1 s0
  if r.gone then girthMark r 3 s1
  else if s1.app.lane.fault && sendsOn r.kind then girthSignal r (girthMark r 3 s1)
  else
    let g : GirthReq :=
      { r with holdEnd := s.ht + r.hold * 1000000, tIn := (s.girthKind r.kind).maxHold ≠ 0,
               sIn := hasStanding r.kind }
    girthSignal r (girthStart r (girthMark r 2 { s1 with app.girth.grants := s1.app.girth.grants ++ [g] }))

/-- The oldest request of a class is granted when it fits, and at its predicted time at the latest (R91 to
R93), but never beyond the limits of R88 (the model's choice between the two, assumption 107). -/
def girthGrant (c : Nat) (s : State) : State :=
  match s.app.girth.queue.get c with
  | [] => s
  | r :: rest =>
    if s.fitsNow s.app.girth.dissEff r || (decide (r.pred ≤ s.ht) && s.hardCap r.kind) then
      girthGrantReq r { s with app.girth.queue := s.app.girth.queue.set c rest }
    else s

/-- GIRTH_GRANT (R91). -/
def execGirthGrant (c : Fin 3) (s : State) : Res := .next (girthGrant c s)

/-! ### Releases and holds (R91) -/

/-- A write of GRT_REL_p: the port's own ticket; other tickets are ignored. -/
def girthRelWrite (port : Nat) (v : Word) (s : State) : State :=
  let t := fld v 0 16
  let f := fun r : GirthReq => t ≠ 0 && r.ticket = t && r.port = port
  girthWithdraw f (girthEnd f true (girthEnd f false s))

/-- GIRTH_RELEASE (R91). -/
def execGirthRelease (port : Fin 24) (v : Word) (s : State) : Res := .next (girthRelWrite port v s)

/-- GIRTH_HOLD_EXPIRY (R91): the transient part of a grant ends. -/
def execGirthHoldExpiry (ticket : BitVec 16) (s : State) : Res :=
  .next (girthEnd (fun g => g.ticket = ticket.toNat && ticket.toNat ≠ 0) true s)

/-- UNIT_OFF_REPORT (R91): the standing part of a unit that is off ends; for a pilot-channel transmitter as well. -/
def execUnitOffReport (kind : Fin 16) (unit : Nat) (s : State) : Res :=
  .next (if s.unitOn kind unit then s else girthUnitOff kind unit s)

/-! ### Derating (R93) -/

/-- A sample of the hottest power-die sensor; a changed total raises source 40 (R107). -/
def girthDerate (temp : Int) (s : State) : State :=
  let excess := (temp - (s.cold.derateT : Int)).toNat
  let eff := 270 - s.cold.derateStep * excess
  let s1 := { s with app.girth.temp := BitVec.ofInt 8 (clampInt (-128) 127 temp), app.girth.dissEff := eff }
  if eff = s.app.girth.dissEff then s1 else raise 40 s1

/-- GIRTH_DERATE_SAMPLE (R93). -/
def execGirthDerateSample (temp : Int) (s : State) : Res := .next (girthDerate temp s)

/-! ### Configuration (R86, R88, R446) -/

/-- The sum of a field of the three shares, in 10 mA or 10 mW. -/
def shareSum (sh : Bank Word) (lo : Nat) : Nat :=
  fld (sh.get 0) lo 10 + fld (sh.get 1) lo 10 + fld (sh.get 2) lo 10

/-- The shares keep within the grantable totals of R85. -/
def sharesOk (sh : Bank Word) : Bool :=
  decide (shareSum sh 0 ≤ 200) && decide (shareSum sh 10 ≤ 200) && decide (shareSum sh 20 ≤ 270)

/-- A write of GRT_SHARE_c; a new CFG_ERR raises source 40 (R107). -/
def girthShareWrite (c : Nat) (v : Word) (s : State) : State :=
  if s.cold.grtLock then s
  else
    let sh := s.cold.share.set c (v &&& 0x3FFFFFFF)
    if sharesOk sh then { s with cold.share := sh } else raise 40 { s with cold.grtCfgErr := true }

/-- GIRTH_SHARE_WRITE (R86). -/
def execGirthShareWrite (c : Fin 3) (v : Word) (s : State) : Res := .next (girthShareWrite c v s)

/-- A write of GRT_CTRL. -/
def girthCtrlWrite (v : Word) (s : State) : State :=
  let lock := s.cold.grtLock
  { s with cold.grtLock := lock || bit v 31, cold.grtCfgErr := s.cold.grtCfgErr && !bit v 30,
           cold.derateT := if lock then s.cold.derateT else fld v 8 8,
           cold.derateStep := if lock then s.cold.derateStep else fld v 0 8 }

/-- The word of GRT_CTRL. -/
def State.girthCtrl (s : State) : Word :=
  pack [(b2n s.cold.grtLock, 31), (b2n s.cold.grtCfgErr, 30), (s.cold.derateT, 8), (s.cold.derateStep, 0)]

/-- A cost as the three fields of a word. -/
def Cost.word (c : Cost) : Word := pack [(c.diss, 20), (c.vdrv, 10), (c.vcore, 0)]

/-- The three fields of a word as a cost. -/
def costOf (v : Word) : Cost := ⟨fld v 0 10, fld v 10 10, fld v 20 10⟩

/-- Word i of GRT_COST_k; kinds 11 to 15 read 0. -/
def State.girthCostWord (s : State) (k i : Nat) : Word :=
  let g := s.girthKind k
  if 10 < k then 0
  else match i with
    | 0 => g.t.word
    | 1 => g.s.word
    | 2 => pack [(g.cls, 24), (g.cap, 16), (g.maxHold, 0)]
    | _ => 0

/-- A write of word i of GRT_COST_k; a write that raises the cap of kind 0 above 8 or of kind 5 above 4 is
ignored (R88). -/
def girthCostWrite (k i : Nat) (v : Word) (s : State) : State :=
  let cap := fld v 16 8
  if s.cold.grtLock || decide (10 < k) then s
  else match i with
    | 0 => { s with cold.kinds := s.cold.kinds.upd k fun g => { g with t := costOf v } }
    | 1 => { s with cold.kinds := s.cold.kinds.upd k fun g => { g with s := costOf v } }
    | 2 =>
      if (k = 0 && decide (8 < cap)) || (k = 5 && decide (4 < cap)) then s
      else { s with cold.kinds := s.cold.kinds.upd k fun g => { g with cap := cap, maxHold := fld v 0 16 } }
    | _ => s

/-- The word of GRT_USE_c (R446): each sum divided by 10 and rounded up. -/
def State.girthUseWord (s : State) (c : Nat) : Word :=
  let u := s.classUse c
  pack [((u.diss + 9) / 10, 20), ((u.vdrv + 9) / 10, 10), ((u.vcore + 9) / 10, 0)]

/-- The word of GRT_STAT. -/
def State.girthStat (s : State) : Word := pack [(s.app.girth.dissEff, 12), (s.app.girth.temp.toNat, 0)]

/-- The word of GRT_QLEN. -/
def State.girthQlen (s : State) : Word :=
  let n := fun c => (s.app.girth.queue.get c).length
  pack [(n 2, 16), (n 1, 8), (n 0, 0)]

/-- The word of GRT_RESP_p. -/
def State.girthResp (s : State) (p : Nat) : Word :=
  let r := s.app.girth.ports.get p
  pack [(r.ticket, 16), (r.ctx, 10), (r.state, 8), (r.status, 0)]

/-! ### Rebuild after a reset (R94) -/

/-- The units that the power die reports on: coils and loads, mains drivers, reader fields. -/
def State.unitsOn (s : State) : List (Nat × Nat) :=
  ((List.range 64).filter fun x => outIsOn (s.out x)).map (fun x => (0, x)) ++
  ((List.range 2).filter fun m => s.power.lines.getLsbD m).map (fun m => (2, m)) ++
  ((List.range 32).filter fun x => outIsOn (s.out (64 + x))).map (fun x => (4, x)) ++
  ((List.range 16).filter fun n => s.power.fields.getLsbD n).map (fun n => (5, n))

/-- The standing costs are entered, with no ticket. -/
def girthRebuild (s : State) : State :=
  if !s.app.girth.rebuilding || s.inReset then s
  else
    { s with
      app.girth.grants := s.app.girth.grants ++ s.unitsOn.map fun x =>
        { ticket := 0, port := restartPort, kind := x.1, unit := x.2, hold := 0, sIn := true },
      app.girth.rebuilding := false }

/-- GIRTH_REBUILD (R94). -/
def execGirthRebuild (s : State) : Res := .next (girthRebuild s)

/-- A read of GRT_BYPASS returns the count and clears it (R89). -/
def girthBypassRead (s : State) : State :=
  busOk (BitVec.ofNat 32 s.app.girth.bypass) { s with app.girth.bypass := 0 }

/-- GRT_BYPASS_READ (R89). -/
def execGrtBypassRead (s : State) : Res := .next (girthBypassRead s)

/-- An on-command that does not come from Girth is ignored at the power die and counted (R89). -/
def girthBypass (s : State) : State :=
  countEvents 3 6 1 { s with app.girth.bypass := stick 65535 s.app.girth.bypass 1 }

end Sys2Proof.Machine
end

