-- ==== Sys2Proof/Machine/Links.lean ====
section
/-!
DEFINITION. The links between the dies (01 R20 to R35, R444): the sealed link with its message ports (12 R281,
R282), the safety lane and the application lane.
-/
set_option Elab.async false
namespace Sys2Proof.Machine

/-! ### Sealed link: acknowledgement and failure (R30 to R32) -/

/-- Free places of an end's receive queue, its credit (R31). -/
def LinkEnd.room (e : LinkEnd) : Nat := 32 - e.rx.length

/-- An end sends a kind-2 message (R31). -/
def linkBeat (d : Side) (s : State) : State :=
  if (s.linkEnd d).key.isNone then s
  else s.updLink d fun e =>
    { e with hb := some (e.rxNext - 1, e.room), hbMac := e.macOf (beatMsg (e.rxNext - 1) e.room) }

/-- The control side's queue of received messages; source 456 is asserted while it holds one. -/
def slQueue (l : List LinkMsg) (s : State) : State :=
  setLevel 456 (!l.isEmpty) { s with app.link.rx := l }

/-- The link is failed (R32): both sides discard the key, the control side's outstanding requests complete with
TIMEOUT, and the sealed die does what it must (12 R298). -/
def linkFail (cause : Nat) (s : State) : State :=
  let s1 := { s with
    app.link := { failed := true, rx := s.app.link.rx }, die.link := { failed := true },
    app.sl.timedOut := (s.app.sl.outst ++ s.app.sl.timedOut).take 64, app.sl.outst := [] }
  let s2 := emcyBoth 0xFF01 (BitVec.ofNat 8 cause) (raise 457 (sessionsUnlinked s1))
  if s2.die.running then dieLinkFailed cause s2 else s2

/-- The time base of an end. -/
def State.endMs (s : State) : Side → Nat
  | .control => s.ht / 1000000
  | .sealed => s.die.legal.mtk

/-- A MAC failure: counted, and the third within 1 s fails the link (R30, R32). -/
def macFail (d : Side) (s : State) : State :=
  let now := s.endMs d
  let l := now :: (s.linkEnd d).macFails.filter fun t => decide (now < t + 1000)
  let s1 := linkCount d 3 1 (s.updLink d fun e => { e with macFails := l })
  let s2 := if d = .control then raise 459 s1 else s1
  if 3 ≤ l.length then linkFail 2 s2 else s2

/-- An end can receive. -/
def State.endUp (s : State) (d : Side) : Bool :=
  (s.linkEnd d).key.isSome && (if d = .sealed then s.die.running else !s.inReset)

/-- A class of R33 that a request may carry. -/
def knownClass (c : BitVec 16) : Bool := within 1 c.toNat 9

/-- What an end does with a message it has accepted: the control side queues it and its reply completes the
request; the sealed die answers a class it does not know with RANGE (R33). -/
def linkTake (d : Side) (m : LinkMsg) (s : State) : State :=
  match d with
  | .control =>
    slQueue (s.app.link.rx ++ [m]) { s with app.sl.outst := if m.tag = 0 then s.app.sl.outst else s.app.sl.outst.erase m.tag }
  | .sealed => if knownClass m.cls then s else dieReply m.tag m.cls.toNat [BitVec.ofNat 8 (statusCode .range)] s

/-- A numbered message arrives (R30). -/
def linkReceive (d : Side) (m : LinkMsg) (macOk : Bool) (s : State) : State :=
  let e := s.linkEnd d
  if !s.endUp d then s
  else if !macOk then macFail d s
  else if m.seq = e.rxNext then
    if e.room = 0 then s
    else linkBeat d (linkTake d m (linkCount d 1 1 (s.updLink d fun e => { e with rxNext := e.rxNext + 1 })))
  else if m.seq < e.rxNext then linkBeat d s
  else s

/-- SEALED_LINK_MESSAGE_RECEIVE (R30, R33). -/
def execSealedLinkMessageReceive (side : Side) (m : LinkMsg) (macOk : Bool) (s : State) : Res :=
  .next (linkReceive side m macOk s)

/-- A kind-2 message arrives (R31): accepted when its MAC passes and its number is not lower than the last. -/
def linkAck (d : Side) (acked credit : Nat) (macOk : Bool) (s : State) : State :=
  let e := s.linkEnd d
  if !s.endUp d then s
  else if !macOk then macFail d s
  else if acked < e.acked then s
  else linkFlush d 33 (s.updLink d fun e =>
    { e with acked := acked, credit := min 32 credit, unacked := e.unacked.filter fun u => decide (acked < u.msg.seq) })

/-- LINK_ACK_RECEIVE (R31). -/
def execLinkAckReceive (side : Side) (acked credit : Nat) (macOk : Bool) (s : State) : Res :=
  .next (linkAck side acked credit macOk s)

/-- A heartbeat; an end that has used its last sequence number declares the link failed (17 R423). -/
def linkHeart (side : Side) (s : State) : State :=
  if s.endUp side && (s.linkEnd side).spent then linkFail 4 s else linkBeat side s

/-- SEALED_LINK_HEARTBEAT (R31, 17 R423). -/
def execSealedLinkHeartbeat (side : Side) (s : State) : Res := .next (linkHeart side s)

/-- 5 ms without an acknowledgement: the sender resends from the oldest on; a message sent 3 times without one
fails the link (R31, R32). -/
def linkResend (d : Side) (s : State) : State :=
  match (s.linkEnd d).unacked with
  | [] => s
  | u :: r =>
    if 3 ≤ u.sends then linkFail 1 s
    else linkCount d 2 (r.length + 1)
      (s.updLink d fun e => { e with unacked := e.unacked.map fun x => { x with sends := x.sends + 1 } })

/-- SEALED_LINK_RESEND_TIMEOUT (R31, R32). -/
def execSealedLinkResendTimeout (side : Side) (s : State) : Res := .next (linkResend side s)

/-- SEALED_LINK_SILENCE_TIMEOUT (R32). -/
def execSealedLinkSilenceTimeout (side : Side) (s : State) : Res :=
  .next (if s.endUp side then linkFail 3 s else s)

/-! ### Agreement (R29) -/

/-- The sealed die answers an agreement request: at most one in a second of MTK. -/
def State.mayAgree (s : State) : Bool :=
  s.die.running && match s.die.agreedAt with
    | none => true
    | some t => decide (t + 1000 ≤ s.die.legal.mtk)

/-- The control die can make a request: its Tack room runs and has the pairing key, which decommissioning takes from
it (R29, 16 R397). -/
def State.mayRequest (s : State) : Bool := s.app.tack.st = 2 && !s.fuses.decom && !s.inReset

/-- An uncompressed P-384 point drawn afresh: a free value (R29). -/
def State.freePoint (s : State) : List Byte :=
  4 :: ((List.range 96).map fun k => (s.freeBits 768).extractLsb' (8 * k) 8)

/-- The pairing key of the fuses as bytes. -/
def Fuses.pairingBytes (f : Fuses) : List Byte := digestBytes f.pairing

/-- The agreement (R29, 16 R401): ephemeral shares Qc and Qs and their shared secret Z, which no one states, as free
values; Qc with the pairing tag, Qs signed by the sealed die's device key; the link key derived from Z. Both
directions number from 1 (R30), HT is disciplined (03 R69), and the panel stops that waited run (13 R321). -/
def linkAgree (s : State) : State :=
  let s1 := s.used
  let s2 := s1.used
  let qc := s.freePoint
  let qs := s1.freePoint
  let k := some (BitVec.ofNat 384 (ofLE (linkKeyOf (digestBytes (s2.freeBits 384)) qc qs).reverse))
  let s3 := { s2.used with
    app.link := { key := k, rx := s.app.link.rx, share := qc, auth := pairingTag s.fuses.pairingBytes qc qs },
    die.link := { key := k, share := qs, auth := signature s.die.legal.deviceKey (Config.sha384 qs) },
    die.agreedAt := some s.die.legal.mtk, app.clk.htDisciplined := true }
  sessionsRelinked (panelsLinked (emcyBoth 0xFF02 0 (raise 458 s3)))

/-- An agreement request that the sealed die acts on: one whose share is not authenticated gets no key, and it counts
toward the one per second (the model's reading, assumption 104). -/
def linkRequest (authentic : Bool) (s : State) : State :=
  if authentic then linkAgree s else { s with die.agreedAt := some s.die.legal.mtk }

/-- LINK_KEY_AGREEMENT (R29). -/
def execLinkKeyAgreement (authentic : Bool) (s : State) : Res :=
  .next (if s.mayRequest && s.mayAgree then linkRequest authentic s else s)

/-! ### Message ports (12 R281, R282) -/

/-- Masters that reach the message ports (R281). -/
def slMaster (port : Nat) : Bool := decide (port < 4) || port = 22

/-- Changing a writer's ports. -/
def State.updSl (s : State) (port : Nat) (f : SlPort → SlPort) : State :=
  { s with app.sl.port := s.app.sl.port.upd port f }

/-- The outcome of a send, in the order STATE, RANGE, BUSY of 06 R126. -/
def State.slStatus (s : State) (port cls len : Nat) : Status :=
  let e := s.app.link
  if e.key.isNone then .state
  else if !within 1 cls 9 || decide (240 < len) || (s.app.sl.port.get port).tag = 0 then .range
  else if 32 ≤ e.unacked.length + e.held.length then .busy
  else .ok

/-- A write of MBX_SLSEND. -/
def slSend (port : Nat) (v : Word) (s : State) : State :=
  if !slMaster port then busFail s
  else
    let cls := fld v 16 16
    let len := fld v 0 8
    let st := s.slStatus port cls len
    let q := s.app.sl.port.get port
    let s1 := busOk 0 (s.updSl port fun q => { q with st := st })
    if st ≠ .ok then s1
    else
      let payload := (((List.range 60).map fun i => toLE 4 (q.staged.get i).toNat).flatten).take len
      linkOffer .control cls q.tag payload { s1 with app.sl.outst := s1.app.sl.outst ++ [q.tag] }

/-- SEALED_LINK_SEND (R282). -/
def execSealedLinkSend (port : Fin 24) (v : Word) (s : State) : Res := .next (slSend port v s)

/-- Any write of MBX_SLPOP: the oldest message leaves the queue; a Cantle core acts on it (09 R211). -/
def slPop (port : Nat) (s : State) : State :=
  if !slMaster port then busFail s
  else
    let s1 := busOk 0 (slQueue (s.app.link.rx.drop 1) s)
    match s.app.link.rx with
    | m :: _ => if port < 4 then cantleTakes m s1 else s1
    | [] => s1

/-- SEALED_LINK_POP (R282). -/
def execSealedLinkPop (port : Fin 24) (s : State) : Res := .next (slPop port s)

/-- Word i of MBX_SLRX: the bytes of the received message without its MAC (R282). -/
def State.slRxWord (s : State) (i : Nat) : Word :=
  match s.app.link.rx with
  | [] => 0
  | m :: _ => BitVec.ofNat 32 (ofLE (((linkBytes m).drop (4 * i)).take 4))

/-- The word of MBX_SLSTAT. -/
def State.slStat (s : State) : Word :=
  let e := s.app.link
  pack [(if e.key.isSome then 2 else if e.failed then 3 else 0, 24), (e.unacked.length, 16), (e.rx.length, 0)]

/-! ### Safety lane (R24 to R26) -/

/-- A heartbeat frame of the Bridle (R24, R25): valid ones are counted from the last report on. -/
def heartbeat (crcOk : Bool) (s : State) : State :=
  if !s.power.clkOk || !s.bridle.hbOn then s
  else { s with power.hbRun := if crcOk then min 10 (s.power.hbRun + 1) else 0 }

/-- BRIDLE_HEARTBEAT (R24). -/
def execBridleHeartbeat (crcOk : Bool) (s : State) : Res := .next (heartbeat crcOk s)

/-- The power die enters its safe state, unless it is in it (R25). -/
def safeIfNot (s : State) : State :=
  if s.power.safe then { s with power.hbRun := 0 } else safeEnter s

/-- SAFETY_LANE_HEARTBEAT_LOSS (R25): no valid heartbeat for 5 ms. -/
def execSafetyLaneHeartbeatLoss (s : State) : Res := .next (if s.power.clkOk then safeIfNot s else s)

/-- The Bridle in RUN takes a report of entry into the safe state: it sends again every hold it has in force, and only
heartbeats that follow count toward the release (R25); the report counts as the safety-lane fault of source 499
(assumption 47). -/
def safeReportTaken (s : State) : State :=
  raise 499 { (resendHolds s) with power.report := false, power.hbRun := 0 }

/-- SAFE_STATE_REPORT (R25). -/
def execSafeStateReport (s : State) : Res :=
  .next (if s.bridleRuns && s.power.report && s.power.clkOk then safeReportTaken s else s)

/-- The Bridle sends the release (R25): in RUN, with no report of the safe state still to be taken, after 10 valid
heartbeats in a row. -/
def State.mayReleaseSafe (s : State) : Bool :=
  s.bridleRuns && s.power.safe && s.power.clkOk && !s.power.report && decide (10 ≤ s.power.hbRun)

/-- The release ends the safe state and changes no latch (R25). -/
def safeRelease (s : State) : State := { s with power.safe := false }

/-- SAFE_STATE_RELEASE (R25). -/
def execSafeStateRelease (s : State) : Res := .next (if s.mayReleaseSafe then safeRelease s else s)

/-- A latch of an STO stage (15 R379): the safe state keeps torque removed. -/
def stoLane (n : Nat) (b on : Bool) (s : State) : State :=
  let v := on && !s.power.safe
  { s with power.sto := s.power.sto.upd n fun l => if b then { l with b := v } else { l with a := v } }

/-- What a good safety-lane frame does (R26). -/
def safetyCommand (c : SafeCmd) (s : State) : State :=
  match c with
  | .hold x => outHold x s
  | .release x => outRelease x s
  | .holdPilot p => pilDriveF true p s
  | .releasePilot p => pilRelease p s
  | .pilotX1 p => pilToX1 p s
  | .sto n b on => stoLane n b on s
  | .seqOff k => seqSet k true false (seqSet k false false s)

/-- SAFETY_LANE_COMMAND (R26): a frame with a CRC error is discarded; while the power die's clock has failed
frames are lost (R66). -/
def execSafetyLaneCommand (crcOk : Bool) (c : SafeCmd) (s : State) : Res :=
  .next (if crcOk && s.power.clkOk then safetyCommand c s else s)

/-! ### Application lane (R24, R444) -/

/-- The lane's fault flag is set: source 281 (R444, R107). -/
def laneFault (s : State) : State := setLevel 281 true { s with app.lane.fault := true }

/-- What a good application-lane frame does at the power die (R89, R345). -/
def laneCommand (c : LaneCmd) (s : State) : State :=
  match c with
  | .on x girth => if girth then outOn x s else girthBypass s
  | .off x => outCmdOff x s
  | .pilot p m d => pilCommand p (pack [(d.toNat, 4), (m.toNat, 0)]) s
  | .seq k d2 v => seqSet k d2 v s
  | .readerField n on girth => if !on then fieldOff n s else if girth then fieldOn n s else girthBypass s
  | .lineDriver m on girth =>
    if !on then girthUnitOff 2 m { s with power.lines := putBit s.power.lines m false }
    else if girth then lineOn m s else girthBypass s
  | .psq v => psqWrite 21 (v.setWidth 32) s

/-- A frame of the application lane arrives at the power die (R24): with a CRC error it is discarded and
repetition is requested, the third time in a row the flag is set. -/
def laneArrives (crcOk : Bool) (c : LaneCmd) (s : State) : State :=
  if !s.power.clkOk then s
  else if crcOk then laneCommand c { s with app.lane.repReq := 0 }
  else
    let n := s.app.lane.repReq + 1
    let s1 := { s with app.lane.repReq := min 3 n }
    if 3 ≤ n then laneFault s1 else s1

/-- APP_LANE_COMMAND (R24). -/
def execAppLaneCommand (crcOk : Bool) (c : LaneCmd) (s : State) : Res := .next (laneArrives crcOk c s)

/-- A frame of the power die arrives at the control die (R444): good ones go toward the Buckle, three discarded
in a row set the flag. -/
def laneEvent (crcOk : Bool) (src : Nat) (s : State) : State :=
  if s.inReset || !s.power.clkOk then s
  else if crcOk then laneRaise src { s with app.lane.badRx := 0 }
  else
    let n := s.app.lane.badRx + 1
    let s1 := { s with app.lane.badRx := min 3 n }
    if 3 ≤ n then laneFault s1 else s1

/-- APP_LANE_EVENT_FRAME (R444). -/
def execAppLaneEventFrame (crcOk : Bool) (src : Fin 512) (s : State) : Res := .next (laneEvent crcOk src s)

/-! ### Power-die clock and reset (03 R66, R70) -/

/-- The power die's oscillator fails (R66): it enters its safe state, and reports the entry when its clock returns. -/
def powerClockFail (s : State) : State :=
  { (if s.power.safe then s else safeLatches s) with power.clkOk := false, power.report := false, power.hbRun := 0 }

/-- POWER_DIE_CLOCK_FAIL (R66). -/
def execPowerDieClockFail (s : State) : Res := .next (powerClockFail s)

/-- POWER_DIE_CLOCK_RETURN (R25): the entry is reported now, on both lanes; on the application lane as source 280 (the
model's choice, assumption 101). -/
def execPowerDieClockReturn (s : State) : Res :=
  .next (if s.power.clkOk then s else safeReport { s with power.clkOk := true })

/-- The power die after its own power-on reset (R70): every register and latch at its reset value, in the safe
state, which it reports (R25); its supply supervision shows the rails as they are. -/
def powerDieReset (s : State) : State :=
  let p := s.power
  let s1 := { s with power := { vload := p.vload, vpilp := p.vpilp, vpiln := p.vpiln, vdrv := p.vdrv, pfin := p.pfin,
                                seqPerm := p.seqPerm, seqProx := p.seqProx } }
  let s2 := girthWithdraw (fun r => r.port = restartPort) s1
  safeReport (girthEnd (fun g => g.kind = 0 || g.kind = 2 || g.kind = 4 || g.kind = 5) false s2)

/-- POWER_DIE_RESET (R70). -/
def execPowerDieReset (s : State) : Res := .next (powerDieReset s)

end Sys2Proof.Machine
end

