-- ==== Sys2Proof/Machine/Resets.lean ====
section
/-!
DEFINITION. Reset scopes of the control die (03 R70), the clock and reset block's registers, clock faults (R66),
the watchdog and LDR_TRIAL's countdown (16).
-/
set_option Elab.async false
namespace Sys2Proof.Machine

/-! ### What a reset does (03 R70) -/

/-- The PIL_ registers of the control die after an application reset (07 R168): they read as at reset until the power
die's report has rebuilt them from what the power die holds; the events of before the reset are gone. Configuration and
commands are the power die's and stay. -/
def pilCleared (q : PilotPt) : PilotPt := { q with evt := 0, evtLate := false }

/-- What the power die notices of a reset of the control die: channels waiting for a restart latch with cause 3
and RUN is cleared (14 R351, R354), the pilot period runs untrimmed (07 R151). -/
def powerAtReset (s : State) : State :=
  let s1 := outWaitLatchAll s
  { s1 with power.run := false, power.trimmed := false, power.pilRebuilt := false,
            power.pilots := s1.power.pilots.updRange 64 fun _ => pilCleared }

/-- The application domain at its reset values (R70); what belongs to a supply, a PLL or a pin stays. -/
def freshApp (s : State) : App :=
  { clk := { pllP := s.app.clk.pllP, vana := s.app.clk.vana, boot := s.app.clk.boot,
             canRecessive := if s.app.clk.pllP then 0x3FF else 0, appHeld := true } }

/-- Assertion of an application reset (R70) with a cause bit of RST_CAUSE: the Bridle records the active points and
starts the hold window (R74). A cold reset in progress covers it. -/
def appReset (causeBit : Nat) (s : State) : State :=
  if s.cold.coldHeld then s
  else
    let s1 := powerAtReset (holdWindowStart s)
    { s1 with app := freshApp s1,
              cold.cause := putBit s1.cold.cause causeBit true,
              cold.count := stick 255 s1.cold.count 1 }

/-- A cold reset of the control die (R70), by the VCORE (bit 1) or the VIO (bit 2) supervisor: a cause of the span up
to the release is kept; a trip before the first release records POR only. The Bridle's heartbeat ends with it, and
the power die falls to its safe state through R25. -/
def coldReset (causeBit : Nat) (s : State) : State :=
  let cause := if s.cold.coldHeld then putBit s.cold.cause causeBit true
    else if !s.cold.started && s.cold.cause = 1 then 1
    else putBit 0 causeBit true
  let s1 := powerAtReset s
  { s1 with app := { clk := { vana := s.app.clk.vana } }, bridle := {}, trial := {}, coldMr := ⟨0, []⟩,
            cold := { cause := cause, coldHeld := s.cold.coldHeld || s.cold.started,
                      mainFail := s.cold.mainFail } }

/-- VCORE_TRIP (02 R50). -/
def execVcoreTrip (s : State) : Res := .next (coldReset 1 s)

/-- VIO_TRIP (02 R50). -/
def execVioTrip (s : State) : Res := .next (coldReset 2 s)

/-- RESET_PIN (R70). -/
def execResetPin (s : State) : Res := .next (appReset 3 s)

/-- JTAG_RESET_REQUEST (R70): not while JTAG is disabled (16 R396). -/
def execJtagResetRequest (s : State) : Res := .next (if s.fuses.dbg.getLsbD 4 then s else appReset 7 s)

/-- A write of RST_CTRL: ignored without the key. -/
def rstCtrlWrite (v : Word) (s : State) : State :=
  if fld v 16 16 = 0x5A3C && bit v 0 then appReset 5 s else s

/-- APP_RESET_REQUEST (R70). -/
def execAppResetRequest (v : Word) (s : State) : Res := .next (rstCtrlWrite v s)

/-! ### Watchdog (R70) -/

/-- WATCHDOG_EXPIRY (R70): only a watchdog that runs expires. -/
def execWatchdogExpiry (s : State) : Res :=
  .next (if s.app.clk.wdPeriod = 0 || s.inReset then s else appReset 4 s)

/-- WATCHDOG_HALF_PERIOD (05 R107): source 3. -/
def execWatchdogHalfPeriod (s : State) : Res := .next (if s.app.clk.wdPeriod = 0 then s else raise 3 s)

/-- A write of RST_WDOG: KICK A5h restarts the count; PERIOD is taken while it is 0. -/
def wdogWrite (v : Word) (s : State) : State :=
  let s1 := if fld v 24 8 = 0xA5 then { s with app.clk.wdCount := 0 } else s
  if s1.app.clk.wdPeriod = 0 then { s1 with app.clk.wdPeriod := fld v 0 16, app.clk.wdCount := 0 } else s1

/-- WATCHDOG_KICK (R70). -/
def execWatchdogKick (v : Word) (s : State) : Res := .next (wdogWrite v s)

/-- WATCHDOG_PERIOD_SET (R70). -/
def execWatchdogPeriodSet (v : Word) (s : State) : Res := .next (wdogWrite v s)

/-! ### Spread spectrum (R65) -/

/-- The depth of a DEPTH code, in 0.25 % steps. -/
def sscSteps (d : Nat) : Nat := if d = 0 then 1 else if d = 1 then 2 else 4

/-- A write of CLK_SSC: admission applies the grown bound from a write that enables spreading; after one that disables or
lessens it, the larger bound stays for 100 µs. -/
def sscWrite (v : Word) (s : State) : State :=
  let c := s.cold
  if c.sscLock then s
  else
    let d := if fld v 2 2 = 3 then c.sscDepth else fld v 2 2
    let now := if bit v 0 || bit v 1 then sscSteps d else 0
    { s with cold := { c with
        sscLock := bit v 31, sscDepth := d, sscH := bit v 1, sscC := bit v 0,
        grown := max c.grown now, sscHold := c.sscHold || decide (now < c.grown) } }

/-- CLK_SSC_WRITE (R65). -/
def execClkSscWrite (v : Word) (s : State) : Res := .next (sscWrite v s)

/-- The depth at which the clocks spread, in 0.25 % steps; 0 while neither does. -/
def State.spreadNow (s : State) : Nat := if s.cold.sscC || s.cold.sscH then sscSteps s.cold.sscDepth else 0

/-- SPREAD_DISABLE_HOLD_EXPIRY (R65). -/
def execSpreadDisableHoldExpiry (s : State) : Res :=
  .next (if s.cold.sscHold then { s with cold.sscHold := false, cold.grown := s.spreadNow } else s)

/-! ### Clock faults (R66) -/

/-- MAIN_REF_FAIL: the application reset is held. -/
def execMainRefFail (s : State) : Res := .next (let s1 := appReset 6 s; { s1 with cold.mainFail := true })

/-- MAIN_REF_RECOVERED: good for 1 ms; the reset may be released (R72 step 2). -/
def execMainRefRecovered (s : State) : Res := .next { s with cold.mainFail := false }

/-- PLL_CH_UNLOCK: an application reset. -/
def execPllChUnlock (_h : Bool) (s : State) : Res := .next (appReset 6 s)

/-- PLL_P_UNLOCK: transmit disabled, the CAN ports recessive, source 1. -/
def execPllPUnlock (s : State) : Res :=
  .next (let s1 := plcHalt (raise 1 s); { s1 with app.clk.pllP := true, app.clk.canRecessive := 0x3FF })

/-- PLL_E_UNLOCK: links down on the affected ports; source 2. -/
def execPllEUnlock (eth0 eth1 : Bool) (s : State) : Res :=
  .next (
    let m : BitVec 2 := putBit (putBit 0 0 eth0) 1 eth1
    raise 2 { s with app.clk.ethClk := s.app.clk.ethClk ||| m, app.clk.ethUp := s.app.clk.ethUp &&& ~~~m })

/-! ### Engines (R70, R73) -/

/-- The Stitcher's reset: its registers and LOADED flag (R70). -/
def stitcherReset (s0 : State) : State :=
  let s := if s0.gated then transferSleep s0 else s0
  { s with app.harts := s.app.harts.set 4 {},
           app.clk.run := putBit s.app.clk.run 8 false, app.clk.loaded := putBit s.app.clk.loaded 8 false }

/-- An engine's reset: REIN0 to REIN7 at 0 to 7 with the measurement register of 16 R399, the Stitcher at 8. -/
def anyEngineReset (e : Nat) (s : State) : State :=
  if e = 8 then stitcherReset s
  else
    let s1 := engineReset e s
    { s1 with app.harts := s1.app.harts.set (reinHart e) {}, app.tack.mr := s1.app.tack.mr.set (5 + e) 0 }

/-- The word of RST_ENGRUN. -/
def State.engRunWord (s : State) : Word :=
  pack [(b2n s.app.clk.runErr, 31), (s.app.clk.loaded.toNat, 16), (s.app.clk.run.toNat, 0)]

/-- The word of RST_CAUSE. -/
def State.causeWord (s : State) : Word := pack [(s.cold.count, 24), (s.cold.cause.toNat, 0)]

/-! ### LDR_TRIAL (16) -/

/-- A write of LDR_TRIAL: EXPIRED by W1C, REMAIN and START while not ACTIVE, STOP. -/
def trialWrite (v : Word) (s : State) : State :=
  let t := s.trial
  let t1 : Trial := { t with expired := t.expired && !bit v 30,
                             remain := if t.active then t.remain else fld v 0 22 }
  let t2 : Trial := if bit v 29 then { t1 with active := false } else t1
  let start := bit v 28 && !t.active
  { s with trial := if start then { t2 with active := !bit v 29 } else t2 }

/-- LDR_TRIAL_START (R417). -/
def execLdrTrialStart (v : Word) (s : State) : Res := .next (trialWrite v s)

/-- LDR_TRIAL_STOP (R419). -/
def execLdrTrialStop (v : Word) (s : State) : Res := .next (trialWrite v s)

/-- TRIAL_EXPIRY: EXPIRED set, ACTIVE cleared, an application reset as by RST_CTRL. -/
def execTrialExpiry (s : State) : Res :=
  .next (if s.trial.active then appReset 5 { s with trial := { active := false, expired := true, remain := 0 } } else s)

end Sys2Proof.Machine
end

