-- ==== Sys2Proof/Machine/Mem.lean ====
section
/-!
DEFINITION. The regions of the address map, who reaches them (05 R104, R105), and writes of memory bytes
under the rules of the regions (09 R192, R193).
-/
set_option Elab.async false
namespace Sys2Proof.Machine

/-- Regions of R104. -/
inductive Region where
  | bootRom | hall | rein (e : Nat) | stitcher | tackRoom | plcBuf | crypto | regs | flash | hole
  deriving DecidableEq, Repr

/-- The region of an address. -/
def regionOf (a : Nat) : Region :=
  if a < 0x40000 then .bootRom
  else if within 0x01000000 a 0x01FFFFFF then .hall
  else if within 0x04000000 a 0x043FFFFF then .rein ((a - 0x04000000) / 0x80000)
  else if within 0x04800000 a 0x0483FFFF then .stitcher
  else if within 0x04840000 a 0x0487FFFF then .tackRoom
  else if within 0x08000000 a 0x081FFFFF then .plcBuf
  else if within 0x08800000 a 0x089FFFFF then .crypto
  else if within 0x10000000 a 0x1040FFFF then .regs
  else if within 0x20000000 a 0x2FFFFFFF then .flash
  else .hole

/-- The region at an address; beyond the fitted size of the flash it is a hole (R104). -/
def State.region (s : State) (a : Nat) : Region :=
  if regionOf a = .flash && decide (s.sec.flashSize ≤ a - 0x20000000) then .hole else regionOf a

/-- The Tack room is held in reset: the start has not released it yet (03 R71, 16 R403). -/
def State.tackHeld (s : State) : Bool := decide (s.app.tack.st < 2)

/-- Tack-room debug is enabled (16 R396). -/
def State.tackDebug (s : State) : Bool := s.fuses.dbg.getLsbD 2 && !s.fuses.dbg.getLsbD 3

/-- A master on a Harness port reaches a region for reading (R105). -/
def State.reads (s : State) (port : Nat) (r : Region) : Bool :=
  let cantle := decide (port < 4)
  let rein := within 4 port 11
  let stitch := port = 12
  let tack := port = 14
  let crypt := port = 15 || port = 16
  let dma := within 17 port 19
  let dbg := port = 22
  match r with
  | .bootRom => cantle || dbg
  | .hall => cantle || rein || stitch || tack || crypt || port = 13 || dma || dbg
  | .rein e => cantle || (rein && decide (port = 4 + e)) || stitch || crypt || dbg
  | .stitcher => cantle || stitch || dbg
  | .tackRoom => (port = 0 && s.tackHeld) || tack || (dbg && s.tackDebug)
  | .plcBuf => cantle || rein || stitch || crypt || port = 13 || dbg
  | .crypto => cantle || tack || crypt || dbg
  | .regs => cantle || rein || stitch || tack || dbg || port = 20 || port = 21
  | .flash => cantle || stitch || port = 19 || dbg
  | .hole => false

/-- A region that can be written at all: the boot ROM and the flash window are read only. -/
def Region.writable : Region → Bool
  | .bootRom => false
  | .flash => false
  | .hole => false
  | _ => true

/-- A range of addresses lies in one region that the master reaches. -/
def State.reaches (s : State) (port a n : Nat) (write : Bool) : Bool :=
  let r := s.region a
  decide (r = s.region (a + n - 1)) && s.reads port r && (!write || r.writable) && r ≠ .regs

/-- The offset of an address in its context window, if it is in one (R192). -/
def ctxOffset (a : Nat) : Option Nat :=
  match regionOf a with
  | .rein _ =>
    let o := a % 0x80000
    if 0x20000 ≤ o then some ((o - 0x20000) % 0x3000) else none
  | _ => none

/-- The address is in the code region of an engine. -/
def codeOf (a : Nat) : Option Nat :=
  match regionOf a with
  | .rein e => if a % 0x80000 < 0x18000 then some e else none
  | _ => none

/-- Words of a context's window that the engine itself keeps: writes to them are ignored (R193). -/
def hwOffset (o : Nat) : Bool := decide (o < 0x20) || within 0x40 o 0x4B || within 0x4C o 0x1FF

/-- A byte written by a master: a word kept by an engine stays. -/
def memPut (a : Nat) (b : Byte) (s : State) : State :=
  match ctxOffset a with
  | some o => if hwOffset o then s else s.setByte a b
  | none => s.setByte a b

/-- Bytes written from `a` on. -/
def memPuts (a : Nat) : List Byte → State → State
  | [], s => s
  | b :: r, s => memPuts (a + 1) r (memPut a b s)

/-- A range may be written over the Harness: engine code only while the engine does not run (R192). -/
def State.mayStore (s : State) (port a n : Nat) : Bool :=
  s.reaches port a n true &&
    match codeOf a with
    | some e => !s.app.clk.run.getLsbD e
    | none => true

/-- Bytes `a` to `a + n − 1` marked as written by a DMA master (1), by a Cantle core (2), or the same for both (0): the
caches of Cantle and the DMA masters do not see each other's writes until firmware maintains the lines (R99). -/
def markBytes (k a n : Nat) (s : State) : State :=
  { s with app.incoh := (List.range n).foldl (fun m i => m.set (a + i) k) s.app.incoh }

/-- A range holds a byte with a mark. -/
def State.marked (s : State) (k a n : Nat) : Bool := (List.range n).any fun i => s.app.incoh.get (a + i) = k

/-- A DMA master reads and writes all of a range; an empty range asks for nothing. -/
def State.dmaReads (s : State) (port a n : Nat) : Bool := n = 0 || s.reaches port a n false
def State.dmaWrites (s : State) (port a n : Nat) : Bool := n = 0 || s.mayStore port a n

/-- A job's output: written where its master reaches, nothing otherwise (R105). -/
def dmaPut (port a : Nat) (l : List Byte) (s : State) : State :=
  if l.isEmpty || !s.mayStore port a l.length then s else markBytes 1 a l.length (memPuts a l s)

/-- Bytes as a DMA master reads them: free where a Cantle core has written them since the last line maintenance. -/
def dmaGet (a n : Nat) (s : State) : List Byte × State :=
  if s.marked 2 a n then (toLE n (s.freeBits (8 * n)).toNat, s.used) else ((List.range n).map fun i => s.byte (a + i), s)

end Sys2Proof.Machine
end

