-- ==== Sys2Proof/Machine/Skiver.lean ====
section
/-!
DEFINITION. The Skiver (10 R234 to R240): jobs, the structured form, digests and completions. What the EXI grammars make of a
stream or a structure is an operand: the manual takes the grammars from the standards.
-/
set_option Elab.async false
namespace Sys2Proof.Machine

/-! ### Structured form (R235) -/

/-- TYPE of an item. -/
def skvCode : SkvVal → Nat
  | .complex => 0 | .bool _ => 1 | .sint _ => 2 | .uint _ => 3 | .str _ => 4 | .bin _ => 5 | .enum _ => 6

/-- Bytes padded with 00h to a multiple of 4. -/
def pad4 (b : List Byte) : List Byte := b ++ List.replicate ((4 - b.length % 4) % 4) 0

/-- A string or binary value: longer than 64 bytes it goes to the spill area at `at_` and is carried by reference. -/
def skvBytes (b : List Byte) (at_ : Nat) : List Byte × Bool × List Byte :=
  if 64 < b.length then (toLE 4 at_ ++ toLE 4 b.length, true, b) else (b, false, [])

/-- The value of an item, whether it is carried by reference, and what goes to the spill area; none where it does not fit its
encoding. A boolean takes one byte (the model's choice, assumption 119); spilled values lie one behind the other (assumption
119). -/
def skvValue (v : SkvVal) (at_ : Nat) : Option (List Byte × Bool × List Byte) :=
  match v with
  | .complex => some ([], false, [])
  | .bool b => some ([BitVec.ofNat 8 (b2n b)], false, [])
  | .sint i => if decide (-(2 ^ 63 : Int) ≤ i) && decide (i < 2 ^ 63) then some (toLE 8 (ofInt 64 i), false, []) else none
  | .uint n => if n < 2 ^ 64 then some (toLE 8 n, false, []) else none
  | .enum n => if n < 2 ^ 32 then some (toLE 4 n, false, []) else none
  | .str b => some (skvBytes b at_)
  | .bin b => some (skvBytes b at_)

/-- Bytes of an item without its children. -/
def itemSize (x : SkvItem) : Nat :=
  match skvValue x.val 0 with
  | some v => 8 + (pad4 v.1).length
  | none => 8

/-- The header of an item: ID, TYPE, FLAGS and LEN. -/
def itemHeader (x : SkvItem) (byRef : Bool) (len : Nat) : List Byte :=
  toLE 2 x.id.toNat ++ [BitVec.ofNat 8 (skvCode x.val), BitVec.ofNat 8 (b2n x.attr + 2 * b2n byRef + 4 * b2n x.isNil)] ++ toLE 4 len

/-- The structured form of a document and its spill area, the spill area counted from `at_`. -/
def skvForm : List SkvItem → Nat → List Byte × List Byte
  | [], _ => ([], [])
  | x :: r, at_ =>
    let v := (skvValue x.val at_).getD ([], false, [])
    let kids := ((r.takeWhile fun y => decide (x.level < y.level)).map itemSize).sum
    let rest := skvForm r (at_ + v.2.2.length)
    (itemHeader x v.2.1 (if x.val = .complex then kids else v.1.length) ++ pad4 v.1 ++ rest.1, v.2.2 ++ rest.2)

/-- An item of a document cannot be given: an integer beyond 64 bits, or deeper than 24 levels. -/
def itemBad (x : SkvItem) : Bool := (skvValue x.val 0).isNone || decide (24 ≤ x.level)

/-! ### The structure given to an encode (R235, R238) -/

/-- A number in the bytes of a structure. -/
def skvNum (b : List Byte) (o n : Nat) : Nat := ofLE ((b.drop o).take n)

/-- The LEN a simple value may have, by TYPE; a nil item has none. -/
def skvLenOk (ty len : Nat) (byRef isNil : Bool) : Bool :=
  if isNil && len = 0 then true
  else match ty with
    | 1 => len = 1
    | 2 => len = 8
    | 3 => len = 8
    | 6 => len = 4
    | _ => if byRef then len = 8 else decide (len ≤ 64)

/-- The item at an offset follows R235, with the ends of the complex items around it, innermost first. -/
def skvItemOk (b : List Byte) (spillCap o : Nat) (ends : List Nat) : Bool :=
  let stop := ends.headD b.length
  let ty := skvNum b (o + 2) 1
  let fl := skvNum b (o + 3) 1
  let len := skvNum b (o + 4) 4
  let byRef := fl / 2 % 2 = 1
  decide (o + 8 ≤ stop) && decide (ty ≤ 6) && decide (fl < 8) && decide (ends.length < 24) &&
    (if ty = 0 then !byRef && len % 4 = 0 && decide (o + 8 + len ≤ stop)
    else
      let wide := (len + 3) / 4 * 4
      (!byRef || ty = 4 || ty = 5) && skvLenOk ty len byRef (fl / 4 = 1) && decide (o + 8 + wide ≤ stop) &&
        (((b.drop (o + 8 + len)).take (wide - len)).all (· = 0)) &&
        (!byRef || decide (skvNum b (o + 8) 4 + skvNum b (o + 12) 4 ≤ spillCap)))

/-- The offsets of the items of a structure, and the first that does not follow R235. -/
def skvScan (b : List Byte) (spillCap : Nat) : Nat → Nat → List Nat → List Nat × Option Nat
  | 0, o, _ => ([], some o)
  | f + 1, o, ends0 =>
    let ends := ends0.dropWhile fun e => decide (e ≤ o)
    if b.length ≤ o then ([], none)
    else if !skvItemOk b spillCap o ends then ([], some o)
    else
      let len := skvNum b (o + 4) 4
      let r := if skvNum b (o + 2) 1 = 0 then skvScan b spillCap f (o + 8) ((o + 8 + len) :: ends)
        else skvScan b spillCap f (o + 8 + (len + 3) / 4 * 4) ends
      (o :: r.1, r.2)

/-! ### Submission (R237) -/

/-- The Skiver's Harness port. -/
def skvPort : Nat := 16

/-- Bytes counted for a job: IN_LEN for a decode, OUT_CAP for an encode. -/
def SkvJob.bytes (j : SkvJob) : Nat := if j.op = 1 then j.inLen else j.outCap

/-- Bytes counted for the accepted jobs (R237). -/
def State.skvBytes (s : State) : Nat := (s.app.veh.skv.jobs.map (·.bytes)).sum

/-- A limit of R95 scaled by (1 − s) while spread is applied (R65). -/
def State.spread (s : State) (n : Nat) : Nat := n * (400 - s.cold.grown) / 400

/-- The descriptor at an address. -/
def State.skvDesc (s : State) (port a : Nat) : SkvJob :=
  let f := fun o n => s.num (a + o) n
  { op := f 0 1, schema := f 1 1, notify := f 2 1 = 1, target := f 3 1, tag := f 4 2, dalg := f 6 1, dcount := f 7 1,
    inAddr := f 8 4, inLen := f 12 4, outAddr := f 16 4, outCap := f 20 4, spillAddr := f 24 4, spillCap := f 28 4,
    dlistAddr := f 32 4, resAddr := f 36 4, port := port }

/-- A field is outside R237; `n2` is the NOTIFY byte, `rsv` the reserved bytes. -/
def SkvJob.rangeBad (j : SkvJob) (n2 rsv : Nat) : Bool :=
  !(j.op = 1 || j.op = 2) || decide (6 < j.schema) || decide (1 < n2) || decide (3 < j.dalg) || decide (4 < j.dcount) ||
    decide (16384 < j.spillCap) || rsv ≠ 0 || (j.op = 1 && decide (8192 < j.inLen)) || (j.op = 2 && decide (16384 < j.outCap)) ||
    ((portEngine j.port).isSome && portEngine j.port ≠ some (j.target / 32))

/-- The status of a submission. -/
def State.skvStatus (s : State) (port a : Nat) : Status :=
  let k := s.app.veh.skv
  let j := s.skvDesc port a
  if a % 16 ≠ 0 then .range
  else if !((regionOf a = .hall || regionOf a = .crypto) && s.reaches skvPort a 48 false) then .integrity
  else if j.rangeBad (s.num (a + 2) 1) (s.num (a + 40) 8) then .range
  else if !k.schemas.getLsbD j.schema then .absent
  else if decide (64 ≤ k.jobs.length) || decide (s.spread 48000 < s.skvBytes + j.bytes) then .busy
  else .ok

/-- A write of SKV_SUBMIT_p (R237). -/
def skvSubmit (port a : Nat) (s : State) : State :=
  let st := s.skvStatus port a
  let tag := if st = .integrity || a % 16 ≠ 0 then 0 else s.num (a + 4) 2
  let s1 := { s with app.veh.skv.subst := s.app.veh.skv.subst.set port (tag, st) }
  if st ≠ .ok then s1 else { s1 with app.veh.skv.jobs := s1.app.veh.skv.jobs ++ [s.skvDesc port a] }

/-- SKIVER_SUBMIT (R237). -/
def execSkiverSubmit (port : Fin 24) (addr : Word) (s : State) : Res := .next (skvSubmit port addr.toNat s)

/-! ### Completion (R238, R239) -/

/-- What a job comes out as. -/
structure SkvEnd where
  status : Status
  out : List Byte
  spill : List Byte
  errPos : Nat
  digests : List (List Byte)
  deriving DecidableEq, Repr

/-- The 64 bytes of a digest: SHA-256 fills the first 32. -/
def digestOf (alg : Nat) (fragment : List Byte) : List Byte :=
  let d := toLE 64 (Config.digest alg fragment).toNat
  match alg with
  | 0 => List.replicate 64 0
  | 1 => d.take 32 ++ List.replicate 32 0
  | _ => d

/-- What the entries of a DLIST name: an Id padded with 00h, or an item's offset in the first 4 bytes. -/
def SkvJob.dlistKeys (j : SkvJob) (b : List Byte) : List (List Byte) :=
  (List.range j.dcount).map fun i =>
    let e := (b.drop (32 * i)).take 32
    if j.op = 1 then e.takeWhile (· ≠ 0) else e.take 4

/-- The digests of a job in DLIST order (R239); what is not found is all 00h. -/
def SkvJob.digests (j : SkvJob) (frags : List (List Byte × List Byte)) (keys : List (List Byte)) : List (Option (List Byte)) :=
  keys.map fun k => (frags.find? (·.1 = k)).map fun f => digestOf j.dalg f.2

/-- The outcome of a job that follows the grammar and R235, within its capacities (R238). -/
def SkvJob.outcome (j : SkvJob) (out spill : List Byte) (ds : List (Option (List Byte))) : SkvEnd :=
  let st : Status := if decide (j.outCap < out.length) || decide (j.spillCap < spill.length) then .limit
    else if ds.any (·.isNone) then .range else .ok
  ⟨st, out.take j.outCap, spill.take j.spillCap, 0, ds.map (·.getD (List.replicate 64 0))⟩

/-- A job that fails with RANGE; the position of the failure. -/
def skvRange (p : Nat) : SkvEnd := ⟨.range, [], [], p, []⟩

/-- What a job comes out as, with the bytes it reads (R235, R238, R239). -/
def SkvJob.run (j : SkvJob) (r : SkvResult) (input dlist : List Byte) : SkvEnd :=
  let keys := j.dlistKeys dlist
  if j.op = 1 then
    (if !r.ok || r.doc.any itemBad then skvRange r.errPos
    else let f := skvForm r.doc 0; j.outcome f.1 f.2 (j.digests r.frags keys))
  else
    let scan := skvScan input j.spillCap (input.length / 8 + 2) 0 []
    match scan.2 with
    | some o => skvRange o
    | none =>
      if !r.ok then skvRange r.errPos
      else
        let known := r.frags.filter fun f => scan.1.any fun o => f.1 = toLE 4 o
        j.outcome r.exi [] (j.digests known keys)

/-- An address of a job cannot be reached (R238, 05 R105); `e` is what it would write. -/
def State.skvUnreached (s : State) (j : SkvJob) (e : SkvEnd) : Bool :=
  !(s.dmaReads skvPort j.inAddr j.inLen && (j.dcount = 0 || s.dmaReads skvPort j.dlistAddr (32 * j.dcount)) &&
    s.dmaWrites skvPort j.outAddr e.out.length && s.dmaWrites skvPort j.spillAddr e.spill.length &&
    s.dmaWrites skvPort j.resAddr 272 && (j.op = 1 || s.dmaReads skvPort j.spillAddr j.spillCap))

/-- The outcome of a job, with INTEGRITY where an address cannot be reached. -/
def State.skvFinal (s : State) (j : SkvJob) (e : SkvEnd) : SkvEnd :=
  if s.skvUnreached j e then ⟨.integrity, [], [], 0, []⟩ else e

/-- The result record of R238. -/
def skvRecord (tag : Nat) (e : SkvEnd) : List Byte :=
  [BitVec.ofNat 8 (statusCode e.status), 0] ++ toLE 2 tag ++ toLE 4 e.out.length ++ toLE 4 e.spill.length ++
    toLE 4 (if e.status = .ok then 0 else e.errPos) ++
    ((List.range 4).map fun i => e.digests.getD i (List.replicate 64 0)).flatten

/-- Completions of NOTIFY 0 jobs; source 448 is asserted while there is one. -/
def skvCpl (l : List (Nat × Status)) (s : State) : State :=
  setLevel 448 (!l.isEmpty) { s with app.veh.skv.cpl := l }

/-- A job completes (R238): the output and the record are written, then the completion is queued or the CODEC event
raised. -/
def skvDone (j : SkvJob) (e : SkvEnd) (s : State) : State :=
  let s1 := dmaPut skvPort j.resAddr (skvRecord j.tag e) (dmaPut skvPort j.spillAddr e.spill (dmaPut skvPort j.outAddr e.out s))
  let s2 := { s1 with
    app.veh.skv.jobs := s1.app.veh.skv.jobs.erase j,
    app.veh.skv.errRange := if e.status = .range then stick 65535 s1.app.veh.skv.errRange 1 else s1.app.veh.skv.errRange,
    app.veh.skv.errOther := if e.status = .limit || e.status = .integrity then stick 65535 s1.app.veh.skv.errOther 1
      else s1.app.veh.skv.errOther }
  let s3 := if e.status = .ok then s2 else raise 449 s2
  if j.notify then postClass j.target 8 s3
  else skvCpl (if 64 ≤ s3.app.veh.skv.cpl.length then s3.app.veh.skv.cpl else s3.app.veh.skv.cpl ++ [(j.tag, e.status)]) s3

/-- A job of those in work runs to its end. -/
def skvRun (j : SkvJob) (r : SkvResult) (s : State) : State :=
  let i := dmaGet j.inAddr (if j.op = 2 then j.inLen else 0) s
  let d := dmaGet j.dlistAddr (32 * j.dcount) i.2
  skvDone j (d.2.skvFinal j (j.run r i.1 d.1)) d.2

/-- SKIVER_COMPLETE (R238, R240): one of the four jobs in work. -/
def execSkiverComplete (tag : BitVec 16) (r : SkvResult) (s : State) : Res :=
  .next (match (s.app.veh.skv.jobs.take 4).find? fun j => j.tag = tag.toNat with
    | none => s
    | some j => skvRun j r s)

/-- A read of SKV_CPL removes the oldest completion; an empty queue reads 0. -/
def skvCplRead (s : State) : State :=
  match s.app.veh.skv.cpl with
  | [] => busOk 0 s
  | x :: rest => busOk (pack [(x.1, 16), (statusCode x.2, 0)]) (skvCpl rest s)

/-- SKIVER_CPL_READ (R238). -/
def execSkiverCplRead (s : State) : Res := .next (skvCplRead s)

/-- A write of SKV_CFG (R240). -/
def skvCfgWrite (v : Word) (s : State) : State :=
  let k := s.app.veh.skv
  { s with app.veh.skv.lock := k.lock || bit v 31,
           app.veh.skv.schemas := if k.lock then k.schemas else BitVec.ofNat 7 (fld v 0 7) }

end Sys2Proof.Machine
end

