-- ==== Sys2Proof/Machine/Vehicle.lean ====
section
/-!
DEFINITION. The vehicle protocols (10): discovery, TCP and TLS, protocol choice, the V2G requests and their
answers, host decisions, Awl's completions, and IEEE 2030.1.1.
-/
set_option Elab.async false
namespace Sys2Proof.Machine

/-! ### Setpoints and transports -/

/-- The transport of a channel. -/
def State.vc (s : State) (n : Nat) : V2gConn := s.app.veh.conn.get n

/-- Changing it. -/
def State.updVc (s : State) (n : Nat) (f : V2gConn → V2gConn) : State :=
  { s with app.veh.conn := s.app.veh.conn.upd n f }

/-- A requested current within the point's limits and the available current (R222, R245); discharge only
under a BPT service. -/
def State.limitI (s : State) (p v : Nat) (bpt : Bool) (i : Int) : Int :=
  let b := ptBase p + 8
  let top := s.pointTop p
  let byPower := if v = 0 then top else min top (s.onum b 6 * 100 / v)
  let low : Int := if bpt then -(s.onum b 7 : Int) else 0
  max low (min i byPower)

/-- A requested voltage within the point's limits. -/
def State.limitV (s : State) (p v : Nat) : Nat :=
  if v = 0 then 0 else max (s.onum (ptBase p + 8) 8) (min v (s.onum (ptBase p + 8) 4))

/-- The vehicle's request of a session is kept and published, within the session's current limit (09 R215). -/
def vehicleRequest (p slot v : Nat) (i : Int) (s : State) : State :=
  let bpt := (s.vs slot).service = 3 || (s.vs slot).service = 5
  let lv := s.limitV p v
  let own := (s.vs slot).limit
  let want := if own = 0 then i else min i (10 * own : Nat)
  publish p lv (s.limitI p lv bpt want) true
    (s.updVs slot fun x => { x with reqV := min 65535 v, reqI := clampInt (-2147483648) 2147483647 i })

/-! ### Discovery, TCP and TLS (R223, R224, R230) -/

/-- The channel is MATCHED or LINKED. -/
def State.vLinked (s : State) (n : Nat) : Bool :=
  let st := (s.app.plc.ch.get n).st
  st = .matched || st = .linked

/-- The MAC address of a pilot channel: the fuse-held base plus n (R223). -/
def State.v2gMac (s : State) (n : Nat) : BitVec 48 := s.fuses.mac + BitVec.ofNat 48 n

/-- The bytes of a MAC address in the order of transmission. -/
def macBytes (m : BitVec 48) : List Byte := (List.range 6).map fun k => m.extractLsb' (8 * (5 - k)) 8

/-- The IPv6 link-local address formed from a MAC address as EUI-64 (R223). -/
def linkLocal (m : BitVec 48) : List Byte :=
  let b := macBytes m
  [0xFE, 0x80, 0, 0, 0, 0, 0, 0, b.getD 0 0 ^^^ 2] ++ (b.drop 1).take 2 ++ [0xFF, 0xFE] ++ b.drop 3

/-- An SDP request is answered with the channel's address and the port of the security it asks for (R223). -/
def sdpAnswer (n : Nat) (tls : Bool) (s : State) : State :=
  s.updVc n fun c =>
    { c with sdp := some (if tls then (50001, true) else (50000, false)), sdpAddr := linkLocal (s.v2gMac n) }

/-- SDP_REQUEST (R223). -/
def execSdpRequest (n : Fin 64) (tls : Bool) (s : State) : Res :=
  .next (if s.vLinked n then sdpAnswer n tls s else s)

/-- The spill regions of live sessions (R236). -/
def State.spillsUsed (s : State) : List Nat :=
  (List.range 256).filterMap fun i => if (s.app.ctx.get i).st = .free then none else (s.vs i).spill

/-- A free spill region: 16 KB of Hall SRAM, aligned to 4 KB (R236). -/
def State.spillFree (s : State) : Option Nat :=
  let used := s.spillsUsed
  ((List.range 257).map fun k => 0x01000000 + 0x4000 * k).find? fun a => !used.contains a

/-- The session of a channel gets its spill region when its connection opens, and keeps it (R236). -/
def spillAssign (n : Nat) (s : State) : State :=
  withSession n (fun slot s =>
    if (s.vs slot).spill.isSome then s else let a := s.spillFree; s.updVs slot fun v => { v with spill := a }) s

/-- A TCP connection of a channel (R223). -/
def tcpConnect (n : Nat) (tls : Bool) (s : State) : State :=
  if !s.vLinked n || (s.vc n).isOpen then s.updVc n fun c => { c with tcp := .reset }
  else spillAssign n (s.updVc n fun c =>
    { sdp := c.sdp, sdpAddr := c.sdpAddr, isOpen := true, tls := tls, tcp := .accepted,
      askCert := decide (s.onum 0x2200 4 = 1) })

/-- V2G_TCP_CONNECT (R223). -/
def execV2gTcpConnect (n : Fin 64) (tls : Bool) (s : State) : Res := .next (tcpConnect n tls s)

/-- The connection of a channel is closed. -/
def connClose (n : Nat) (s : State) : State :=
  s.updVc n fun c => { c with isOpen := false, tlsUp := false, waiting := false }

/-- The connection is closed and the session takes reason 8. -/
def connFail (n : Nat) (s : State) : State :=
  endSession n 8 ((connClose n s).updVc n fun c => { c with ans := .closed })

/-- Legal time is uninterrupted, so that certificates can be checked against it (R231). -/
def State.ltGood (s : State) : Bool := !s.die.legal.ltStat.getLsbD 0

/-- A slot of the Tack room in use: its attribute word's TYPE, 0 for an empty one (16 R406). -/
def State.tackType (s : State) (k : Nat) : Nat := fld (s.app.tack.slots.get k).attr 12 4

/-- The SECC key and leaf certificate are held in the Tack room, slots 2 and 3 (R230, 16 R405). -/
def State.seccReady (s : State) : Bool :=
  s.app.tack.st = 2 && (s.tackType 2 = 5 || s.tackType 2 = 7) && s.tackType 3 = 9

/-- A slot holds a trust anchor of one of the classes 2 V2G root, 3 mobility-operator root, 4 OEM root (16 R406). -/
def State.anchorOf (s : State) (classes : List Nat) (k : Nat) : Bool :=
  s.app.tack.st = 2 && s.tackType k = 10 && classes.contains (fld (s.app.tack.slots.get k).attr 8 4)

/-- A chain within the limits of R231: sizes, a leaf and at most two sub-CAs, a trust anchor held. -/
def State.chainFits (s : State) (classes : List Nat) (c : CertChain) : Bool :=
  within 1 c.sizes.length 3 && c.sizes.all (fun n => decide (n ≤ 1600)) && s.anchorOf classes c.anchor

/-- A chain is accepted: within its limits, its signatures verify, and it is valid in uninterrupted legal time (R231). -/
def State.chainOk (s : State) (classes : List Nat) (c : CertChain) : Bool :=
  s.chainFits classes c && c.sigsOk && c.valid && s.ltGood

/-- The vehicle's certificate, where 2200h.04 asks for one (R230). -/
def State.vehicleCertOk (s : State) (c : V2gConn) (h : V2gHello) : Bool :=
  !c.askCert || (match h.cert with | some x => s.chainOk [4] x | none => false)

/-- The handshake of R230 succeeds. It is a full one always: tickets, PSK and 0-RTT data are not supported (R220). -/
def State.helloOk (s : State) (c : V2gConn) (h : V2gHello) : Bool :=
  h.tls13 && h.suiteOk && h.groupOk && h.sigOk && s.seccReady && s.vehicleCertOk c h

/-- PKA operations of a handshake (R230): 3, and with a vehicle certificate one for each signature of its chain, 5 to 6 in
all for a chain of 2 or 3. -/
def helloOps (c : V2gConn) (h : V2gHello) : Nat :=
  3 + (if c.askCert then (match h.cert with | some x => min 3 x.sizes.length | none => 0) else 0)

/-- Firmware's request port for the PKA operations of the V2G transport, Cantle 0. -/
def pkaPort : Nat := 0

/-- The OCSP responses that the host has written are stapled where the vehicle asks and they are unexpired in LT (R230). -/
def State.staples (s : State) (h : V2gHello) : Bool :=
  h.statusRequest && !(s.oval 0x2200 6).isEmpty && h.ocspFresh && s.ltGood

/-- A TLS handshake on an open connection of the TLS port; each PKA operation is granted as Girth kind 3 (R230). -/
def tlsHandshake (n : Nat) (h : V2gHello) (s : State) : State :=
  let c := s.vc n
  let fail := fun (t : State) => connFail n (t.updVc n fun c => { c with tcp := .alert })
  if !c.isOpen || !c.tls || c.tlsUp then s
  else if !s.helloOk c h then fail s
  else match girthRun pkaPort (List.replicate (helloOps c h) 3) s with
    | none => fail s
    | some s1 => s1.updVc n fun c => { c with tlsUp := true, tcp := .tlsUp, stapled := s.staples h }

/-- V2G_TLS_HANDSHAKE (R230). -/
def execV2gTlsHandshake (n : Fin 64) (h : V2gHello) (s : State) : Res := .next (tlsHandshake n h s)

/-- The transport carries V2G messages. -/
def V2gConn.up (c : V2gConn) : Bool := c.isOpen && (!c.tls || c.tlsUp)

/-- The schema code of a payload type under the negotiated standard (R224, R234); the payload types are
taken from the standards (assumption 44). -/
def schemaOf (proto : Option Proto) (ty : Nat) : Option Nat :=
  match proto, ty with
  | none, 0x8001 => some 0
  | some .din, 0x8001 => some 1
  | some .iso2, 0x8001 => some 2
  | some .iso20ac, 0x8002 => some 3
  | some .iso20ac, 0x8003 => some 4
  | some .iso20dc, 0x8002 => some 3
  | some .iso20dc, 0x8004 => some 5
  | some .iso20acdp, 0x8002 => some 3
  | some .iso20acdp, 0x8004 => some 5
  | some .iso20acdp, 0x8005 => some 6
  | some .din, _ => none
  | some .iso2, _ => none
  | none, _ => none
  | some _, t => if within 0x8101 t 0x8103 then some 3 else none

/-- Where the context's V2G area takes the decode output and holds the encode input (R236). -/
def v2gArea (slot : Nat) : Nat × Nat := (ctxBase slot + 0x200, ctxBase slot + 0xC00)

/-- The first request is handed over: its pair-mailbox message names the context in word 0 (09 R197) and carries the address
of the spill region (R236), in word 1 (the model's choice, assumption 119). -/
def handOver (n slot : Nat) (s : State) : State :=
  if (s.vc n).handed then s
  else
    let r := pairPut (2 + slot / 32) [BitVec.ofNat 32 (slot % 32), BitVec.ofNat 32 ((s.vs slot).spill.getD 0), 0, 0, 0, 0, 0, 0] s
    if r.1 then r.2.updVc n fun c => { c with handed := true } else r.2

/-- A V2GTP header is checked in the order of R224. -/
def v2gtp (n ver inv ty len : Nat) (s : State) : State :=
  let c := s.vc n
  if !c.up then s
  else if ver ≠ 1 || inv ≠ 0xFE then connFail n s
  else match schemaOf c.proto ty with
    | none => connFail n s
    | some k =>
      if 8192 < len then connFail n s
      else withSession n (fun slot s => handOver n slot (s.updVc n fun c => { c with area := some (v2gArea slot) }))
        (s.updVc n fun c => { c with schema := some k })

/-- V2GTP_MESSAGE (R224). -/
def execV2gtpMessage (n : Fin 64) (version inverse : BitVec 8) (ptype : BitVec 16) (len : Nat) (s : State) : Res :=
  .next (v2gtp n version.toNat inverse.toNat ptype.toNat len s)

/-! ### Protocol choice (R217, R218) -/

/-- The services of R217 that a type offers under a protocol. -/
def typeServices (ty : Nat) : Proto → List EvService
  | .din => if ty = 3 then [.dcExtended] else []
  | .iso2 => if ty = 1 then [.acSinglePhaseCore] else if ty = 2 then [.acThreePhaseCore]
      else if ty = 3 then [.dcCore, .dcExtended] else []
  | .iso20ac => if ty = 1 || ty = 2 then [.ac] else []
  | .iso20dc => if ty = 3 then [.dc, .dcBpt] else []
  | .iso20acdp => if ty = 4 then [.dcAcdp, .dcAcdpBpt] else []

/-- The bit of (b + 8).03 that enables an ISO 15118-20 service, and its code in (q + 2).02 (R245, R246). -/
def svcBit : EvService → Option Nat
  | .ac => some 0 | .dc => some 1 | .dcBpt => some 2 | .dcAcdp => some 3 | .dcAcdpBpt => some 4
  | _ => none

/-- The bit of (b + 8).01 that enables a protocol (R245). -/
def protoBit : Proto → Nat
  | .din => 0 | .iso2 => 1 | _ => 2

/-- The services that a session offers under a protocol: those of its point's type that are enabled (R217). -/
def State.services (s : State) (p slot : Nat) (x : Proto) : List EvService :=
  let v := s.vs slot
  if !v.protoEn.getLsbD (protoBit x) then []
  else (typeServices (s.typeNow p) x).filter fun e =>
    match svcBit e with
    | some k => v.svcEn.getLsbD k
    | none => true

/-- The point offers a protocol on its connection: with TLS ISO 15118-20 only, without it the others only (R218). -/
def State.offers (s : State) (n slot : Nat) (tls : Bool) (x : Proto) : Bool :=
  (tls = (protoBit x = 2)) && !(s.services n slot x).isEmpty

/-- Protocols offered beside the V2G messages (R217): basic charging by pilot duty, IEEE 2030.1.1. -/
def State.otherService (s : State) (p : Nat) : Option EvService :=
  let ty := s.typeNow p
  if ty = 1 || ty = 2 then some .basicAc else if ty = 5 then some .ieee2030 else none

/-- The entry with the highest priority, the lowest number (assumption 44). -/
def bestOffer : List ProtoOffer → Option ProtoOffer
  | [] => none
  | o :: r =>
    match bestOffer r with
    | some q => if q.priority < o.priority then some q else some o
    | none => some o

/-- (q + 2).01 of a protocol. -/
def protoCode : Proto → Nat
  | .din => 2
  | .iso2 => 3
  | _ => 4

/-- SupportedAppProtocol (R218). A second one on a connection comes out of order; the message has no sequence-error code, so
the connection is closed (R220). -/
def sapRequest (n : Nat) (l : List ProtoOffer) (s : State) : State :=
  let c := s.vc n
  match s.session n with
  | none => s
  | some slot =>
    if !c.up then s
    else if c.proto.isSome then connFail n s
    else match bestOffer (l.filter fun o => o.major && s.offers n slot c.tls o.proto) with
      | none => endSession n 8 ((connClose n s).updVc n fun c => { c with ans := .noNegotiation })
      | some o =>
        (s.updVc n fun c => { c with proto := some o.proto, ans := if o.minor then .ok else .okMinor }).updVs slot
          fun v => { v with proto := protoCode o.proto }

/-- SUPPORTED_APP_PROTOCOL_REQ (R218). -/
def execSupportedAppProtocolReq (n : Fin 64) (offers : List ProtoOffer) (s : State) : Res :=
  .next (sapRequest n offers s)

/-! ### Order of the requests (R219, R220; the orders are those of the standards, assumption 44) -/

/-- What may follow under DIN SPEC 70121. -/
def nextDin : V2gMsg → List V2gMsg
  | .sessionSetup => [.serviceDiscovery]
  | .serviceDiscovery => [.paymentSelection]
  | .paymentSelection => [.authorization]
  | .authorization => [.authorization, .chargeParameterDiscovery]
  | .chargeParameterDiscovery => [.chargeParameterDiscovery, .cableCheck]
  | .cableCheck => [.cableCheck, .preCharge]
  | .preCharge => [.preCharge, .powerDelivery]
  | .powerDelivery => [.currentDemand, .powerDeliveryStop]
  | .currentDemand => [.currentDemand, .powerDeliveryStop]
  | .powerDeliveryStop => [.weldingDetection]
  | .weldingDetection => [.weldingDetection]
  | _ => []

/-- What may follow under ISO 15118-2. -/
def nextIso2 (dc : Bool) : V2gMsg → List V2gMsg
  | .sessionSetup => [.serviceDiscovery]
  | .serviceDiscovery => [.serviceDetail, .paymentSelection]
  | .serviceDetail => [.serviceDetail, .paymentSelection]
  | .paymentSelection => [.authorization]
  | .authorization => [.authorization, .chargeParameterDiscovery]
  | .chargeParameterDiscovery => .chargeParameterDiscovery :: (if dc then [.cableCheck] else [.powerDelivery])
  | .cableCheck => [.cableCheck, .preCharge]
  | .preCharge => [.preCharge, .powerDelivery]
  | .powerDelivery =>
    [if dc then .currentDemand else .chargingStatus, .chargeParameterDiscovery, .powerDeliveryStop, .powerDeliveryPause]
  | .currentDemand => [.currentDemand, .powerDelivery, .powerDeliveryStop, .powerDeliveryPause]
  | .chargingStatus => [.chargingStatus, .powerDelivery, .powerDeliveryStop, .powerDeliveryPause]
  | .powerDeliveryPause => [.powerDelivery, .chargeParameterDiscovery]
  | .powerDeliveryStop => if dc then [.weldingDetection] else []
  | .weldingDetection => [.weldingDetection]
  | _ => []

/-- What may follow under ISO 15118-20. -/
def nextIso20 (dc acdp : Bool) : V2gMsg → List V2gMsg
  | .sessionSetup => [.authorizationSetup]
  | .authorizationSetup => [.certificateInstallation, .authorization]
  | .certificateInstallation => [.certificateInstallation, .authorization]
  | .authorization => [.authorization, .serviceDiscovery]
  | .serviceDiscovery => [.serviceDetail]
  | .serviceDetail => [.serviceDetail, .serviceSelection]
  | .serviceSelection => if acdp then [.vehicleCheckIn] else [.chargeParameterDiscovery]
  | .vehicleCheckIn => [.vehicleCheckIn, .vehiclePositioning]
  | .vehiclePositioning => [.vehiclePositioning, .acdpConnect]
  | .acdpConnect => [.acdpConnect, .acdpSystemStatus, .chargeParameterDiscovery, .vehicleCheckOut]
  | .acdpSystemStatus => [.acdpSystemStatus, .chargeParameterDiscovery, .chargeLoop, .acdpConnect, .vehicleCheckOut]
  | .chargeParameterDiscovery => [.scheduleExchange]
  | .scheduleExchange => .scheduleExchange :: (if dc then [.cableCheck] else [.powerDelivery])
  | .cableCheck => [.cableCheck, .preCharge]
  | .preCharge => [.preCharge, .powerDelivery]
  | .powerDelivery => [.chargeLoop, .scheduleExchange, .powerDeliveryStop, .powerDeliveryPause]
  | .powerDeliveryPause => [.powerDelivery, .scheduleExchange, .powerDeliveryStop]
  | .chargeLoop => [.chargeLoop, .meteringConfirmation, .powerDelivery, .powerDeliveryStop, .powerDeliveryPause] ++
      (if acdp then [.acdpSystemStatus] else [])
  | .meteringConfirmation => [.chargeLoop, .powerDelivery, .powerDeliveryStop]
  | .powerDeliveryStop => (if dc then [.weldingDetection] else []) ++ (if acdp then [.acdpConnect] else [])
  | .weldingDetection => .weldingDetection :: (if acdp then [.acdpConnect] else [])
  | .vehicleCheckOut => [.vehicleCheckOut]
  | _ => []

/-- The standard's table of R219 lists the message. -/
def listed (x : Proto) (m : V2gMsg) : Bool :=
  let mine : List V2gMsg := match x with
    | .din => [.sessionSetup, .serviceDiscovery, .paymentSelection, .authorization, .chargeParameterDiscovery,
        .cableCheck, .preCharge, .powerDelivery, .powerDeliveryStop, .currentDemand, .weldingDetection, .sessionStop]
    | .iso2 => [.sessionSetup, .serviceDiscovery, .serviceDetail, .paymentSelection, .authorization,
        .chargeParameterDiscovery, .powerDelivery, .powerDeliveryStop, .powerDeliveryPause, .chargingStatus, .cableCheck,
        .preCharge, .currentDemand, .weldingDetection, .sessionStop]
    | _ => [.sessionSetup, .authorizationSetup, .authorization, .certificateInstallation, .serviceDiscovery,
        .serviceDetail, .serviceSelection, .scheduleExchange, .powerDelivery, .powerDeliveryStop, .powerDeliveryPause,
        .meteringConfirmation, .sessionStop, .chargeParameterDiscovery, .chargeLoop] ++
        (if x = .iso20ac then [] else [.cableCheck, .preCharge, .weldingDetection]) ++
        (if x = .iso20acdp then
          [.vehicleCheckIn, .vehicleCheckOut, .vehiclePositioning, .acdpConnect, .acdpSystemStatus] else [])
  mine.contains m

/-- A request comes in its order. -/
def State.inOrder (s : State) (n : Nat) (x : Proto) (m : V2gMsg) : Bool :=
  let dc := s.pointType n = 3 || s.pointType n = 4
  listed x m && match (s.vc n).prev with
    | none => m = .sessionSetup
    | some q =>
      m = .sessionStop || (match x with
        | .din => nextDin q
        | .iso2 => nextIso2 dc q
        | y => nextIso20 dc (y = Proto.iso20acdp) q).contains m

/-! ### Answers -/

/-- A final answer. -/
def answer (n : Nat) (m : V2gMsg) (a : V2gAns) (s : State) : State :=
  s.updVc n fun c => { c with ans := a, prev := some m, waiting := false }

/-- A request whose answer waits for a result (R228). -/
def waitFor (n : Nat) (m : V2gMsg) (s : State) : State :=
  s.updVc n fun c => { c with prev := some m, waiting := true }

/-- A request that cannot be answered (R220): FAILED_SequenceError where a standard was negotiated, else
the connection is closed; reason 8. -/
def seqError (n : Nat) (s : State) : State :=
  if (s.vc n).proto.isNone then connFail n s
  else endSession n 8 (s.updVc n fun c => { c with ans := .sequenceError, waiting := false })

/-- Handling a request of a connection that is up, in its order. -/
def onRequest (n : Nat) (m : V2gMsg) (f : Nat → Proto → State → State) (s : State) : State :=
  match s.session n with
  | none => s
  | some slot =>
    let c := s.vc n
    if !c.up then s
    else match c.proto with
      | none => seqError n s
      | some x => if s.inOrder n x m then f slot x s else seqError n s

/-- The answers that may carry Ongoing (R219). -/
def ongoingAllowed (x : Proto) (m : V2gMsg) : Bool :=
  match x with
  | .din => m = .authorization || m = .chargeParameterDiscovery || m = .cableCheck
  | .iso2 => m = .authorization || m = .chargeParameterDiscovery || m = .cableCheck
  | .iso20ac => m = .authorization || m = .scheduleExchange
  | _ => m = .authorization || m = .scheduleExchange || m = .cableCheck

/-- The authorisation is granted or refused, or a host decision is awaited (R211, R228, R229). -/
def authDecide (n slot : Nat) (s : State) : State :=
  let v := s.vs slot
  if within 5 (s.phase slot) 8 then answer n .authorization .ok s
  else if v.preAuth || v.decided = 1 then
    openRecord slot (answer n .authorization .ok (s.updVs slot fun v => { v with method := if v.method = 0 then 4 else v.method }))
  else if v.decided = 2 then endSession n 7 (answer n .authorization .failed s)
  else waitFor n .authorization (s.updVs slot fun v => { v with pendDec := 1 })

/-- The code of a device state, as SAF_DEV_d shows it (15 R393). -/
def devStCode : DevSt → Nat
  | .retracted => 0 | .extending => 1 | .connected => 2 | .retracting => 3 | .stopping => 4 | .stopped => 5 | .fault => 6

/-- The device that serves a point under ACDP, with the state the Bridle shows (R221). -/
def State.acdpState (s : State) (n : Nat) : Option Nat :=
  ((List.range 8).find? fun d => (s.devCfg d).vmax ≠ 0 && (s.devCfg d).pt = n).map fun d => devStCode (s.bridle.dev.get d).st

/-- The isolation result of a point (R222): none while its IM channel has no result. -/
def State.isolation (s : State) (n : Nat) : Option Bool :=
  ((List.range 16).find? fun k => (s.imMask k).getLsbD n).bind fun k =>
    match (s.power.im.get k).st with
    | .ok => some true
    | .warn => some true
    | .fault => some false
    | _ => none

/-- The kind-0 request at the end of ChargeParameterDiscovery (R227), under the tag of the context; refused with BUSY it is
made again after 100 ms. -/
def requestCoil (n slot : Nat) (s : State) : State :=
  let coil := (s.ptCfg n).coil
  if 64 ≤ coil then s
  else
    let r := girthSubmit (4 + slot / 32) (some slot) 0 coil 0 s
    if r.1 = .busy then setTimer slot (s.ht + 100000000) (r.2.updVs slot fun v => { v with coilRetry := true })
    else r.2.updVs slot fun v => { v with coilRetry := false }

/-- The point contactor is closed: its coil is on under its grant with the pull-in ended, and a supervised mirror shows it
(R227, 15 R377). -/
def State.contactorClosed (s : State) (p : Nat) : Bool :=
  let c := s.ptCfg p
  decide (c.coil < 64) && (s.out c.coil).st = .on && !(s.out c.coil).pulling && !(c.supervised && (s.bp p).mirror)

/-- The metering elements' present voltage, mV, and current, mA, of a point: the largest over its elements (R222). -/
def State.pointNow (s : State) (p : Nat) : Int × Int :=
  ((s.meterElems p).filterMap fun e => (s.die.met.elem.get e).last).foldl
    (fun a c => (max a.1 c.1.v, if a.2.natAbs < c.1.i.natAbs then c.1.i else a.2)) (0, 0)

/-- The limits reported to the vehicle: those of the point and the available current (R222). -/
def State.limitsNow (s : State) (p : Nat) : Nat × Nat × Nat × Nat × Nat :=
  let b := ptBase p + 8
  (s.onum b 4, s.onum b 8, s.pointTop p, s.onum b 6, s.onum b 7)

/-- The tariff in force and its price for the point (R222). -/
def State.priceNow (s : State) (p : Nat) : Option (Nat × Int) :=
  let c := s.die.legal.active
  if c.isEmpty then none else some (s.die.cur.tariff, calPrice c s.die.cur.tariff (s.snum (0x5400 + p) 0x30) 0)

/-- The values that an answer carries (R222). -/
def report (n : Nat) (m : V2gMsg) (s : State) : State :=
  let meas := m = .cableCheck || m = .preCharge || m = .currentDemand || m = .chargeLoop || m = .weldingDetection ||
    m = .chargingStatus
  let lims := m = .chargeParameterDiscovery || m = .currentDemand || m = .chargeLoop
  let cost := m = .chargeParameterDiscovery || m = .scheduleExchange
  s.updVc n fun c =>
    { c with present := if meas then s.pointNow n else c.present, limits := if lims then s.limitsNow n else c.limits,
             price := if cost then s.priceNow n else c.price }

/-- An answer with the values it carries. -/
def answerWith (n : Nat) (m : V2gMsg) (a : V2gAns) (s : State) : State := answer n m a (report n m s)

/-- (q + 2).02 of a service. -/
def serviceCode : EvService → Nat
  | .ac => 1 | .acSinglePhaseCore => 1 | .acThreePhaseCore => 1 | .basicAc => 1
  | .dc => 2 | .dcExtended => 2 | .dcCore => 2 | .ieee2030 => 2
  | .dcBpt => 3 | .dcAcdp => 4 | .dcAcdpBpt => 5 | _ => 0

/-- The final answer to CableCheck once the insulation result is there; before it, the request waits (R222, R228). -/
def cableCheck (n : Nat) (s : State) : State :=
  match s.isolation n with
  | some true => answerWith n .cableCheck .ok s
  | some false => answerWith n .cableCheck .failed s
  | none => waitFor n .cableCheck s

/-- A request that needs the tariff in force, which the sealed die gives over the link (R222): without the link it waits. -/
def withTariff (n : Nat) (m : V2gMsg) (f : State → State) (s : State) : State :=
  if s.linkUp then f s else waitFor n m s

/-- ChargeParameterDiscovery (R217, R222, R227): under DIN SPEC 70121 and ISO 15118-2 it requests an energy transfer mode. -/
def chargeParams (n slot : Nat) (pr : Proto) (x : V2gVals) (s : State) : State :=
  if (pr = .din || pr = .iso2) && !(s.services n slot pr).contains x.mode then answer n .chargeParameterDiscovery .failed s
  else withTariff n .chargeParameterDiscovery
    (fun s => requestCoil n slot (answerWith n .chargeParameterDiscovery .ok s)) s

/-- MeteringConfirmation (R222): the sealed die's signed reading is reported, and the vehicle's confirmation goes to the
record as a notice of kind 5 (12 R299, R301). -/
def meteringConfirm (n slot : Nat) (sig : List Byte) (s : State) : State :=
  withTariff n .meteringConfirmation (fun s =>
    let serial := s.serialOf slot
    let r := takeReading .firmware serial s
    let num := ofLE ((r.2.1.drop 6).take 2)
    let body := [5, BitVec.ofNat 8 n] ++ toLE 4 (r.2.2.handleOf slot) ++ [0, 0] ++ toLE 8 serial ++ toLE 2 num ++
      [BitVec.ofNat 8 (min 132 sig.length)] ++ sig.take 132
    answer n .meteringConfirmation .ok (fwSend 9 (fwTag slot 13) body (r.2.2.updVc n fun c => { c with signed := r.2.1 }))) s

/-- Requests that carry the vehicle's voltage and current. -/
def demand (n slot : Nat) (m : V2gMsg) (x : V2gVals) (s : State) : State :=
  answerWith n m .ok (vehicleRequest n slot x.v x.i (s.updVs slot fun v => { v with soc := x.soc % 256 }))

/-- The contactor is opened: the coil is switched off (R211). -/
def contactorOff (p : Nat) (s : State) : State :=
  let coil := (s.ptCfg p).coil
  if coil < 64 then powerWrite (outCmdOff coil) s else s

/-- The end of STOPPING (R211, R244): the contactor opens, the sequence signals go off, and the session is CLOSING. -/
def stopDone (slot : Nat) (s : State) : State :=
  let p := (s.app.ctx.get slot).point
  let s1 := contactorOff p s
  let s2 := if s.pointType p = 5 then
      powerWrite (fun s => seqSet (s.vs slot).port true false (seqSet (s.vs slot).port false false s)) s1 else s1
  toClosing slot (s.reason slot) false s2

/-- SessionStop: the connection closes; a session that is stopping closes with it. -/
def sessionStop (n slot : Nat) (s : State) : State :=
  let s1 := connClose n (answer n .sessionStop .ok s)
  if s.phase slot = 8 then stopDone slot s1 else endSession n 1 (setpointOff n s1)

/-- PowerDelivery with pause (R219): the setpoint goes to 0 and the contactor opens; the session is kept, ready for a new
start (the model's reading, assumption 118). -/
def powerPause (n slot : Nat) (s : State) : State :=
  answer n .powerDeliveryPause .ok (setPhase slot 6 (contactorOff n (setpointOff n s)))

/-- AuthorizationSetup: a fresh challenge from the Tack room (R227). -/
def authSetup (n : Nat) (s : State) : State :=
  (answer n .authorizationSetup .ok (s.updVc n fun c => { c with chal := some (s.freeBits 128) })).used

/-- CertificateInstallation is passed to the host (R233): the request's stream, and decision 2. -/
def certInstall (n slot : Nat) (stream : List Byte) (f : State → State) (s : State) : State :=
  if (s.vs slot).decided ≠ 0 then f s
  else if (s.vs slot).pendDec = 2 then waitFor n .certificateInstallation s
  else waitFor n .certificateInstallation (s.updVs slot fun v =>
    { v with certReq := stream, certRsp := [], rspLen := 0, pendDec := 2 })

/-- The answer to CertificateInstallation once the host has decided (R233). -/
def certAnswer (n slot : Nat) (s : State) : State :=
  let v := s.vs slot
  if v.decided = 1 then answer n .certificateInstallation .stream (s.updVs slot fun v => { v with decided := 0 })
  else endSession n 7 (answer n .certificateInstallation .failed s)

/-- The meaning of a request that comes in its order. PowerDelivery without start or stop is a renegotiation, which DIN SPEC
70121 does not have (R219). -/
def v2gServe (n : Nat) (m : V2gMsg) (x : V2gVals) (slot : Nat) (pr : Proto) (s : State) : State :=
  match m with
  | .sessionSetup =>
    let s1 := s.updVs slot fun v => { v with evccid := x.evccid }
    answer n m .ok (if s1.phase slot = 3 then setPhase slot 4 s1 else s1)
  | .serviceDiscovery => answer n m .ok (s.updVc n fun c => { c with offer := s.services n slot pr })
  | .authorizationSetup => authSetup n s
  | .authorization => authDecide n slot s
  | .certificateInstallation => certInstall n slot [] (certAnswer n slot) s
  | .paymentSelection =>
    if x.contract then seqError n s
    else answer n m .ok (s.updVs slot fun v => { v with service := if s.typeNow n = 3 then 2 else 1 })
  | .serviceSelection =>
    if (s.services n slot pr).contains x.mode then answer n m .ok (s.updVs slot fun v => { v with service := serviceCode x.mode })
    else answer n m .failed s
  | .chargeParameterDiscovery => chargeParams n slot pr x s
  | .scheduleExchange => withTariff n m (answerWith n m .ok) s
  | .cableCheck => cableCheck n s
  | .preCharge => demand n slot m x s
  | .currentDemand => demand n slot m x s
  | .chargeLoop => demand n slot m x s
  | .powerDelivery => if pr = .din || s.phase slot ≠ 7 then seqError n s else answer n m .ok s
  | .powerDeliveryStop => answer n m .ok (endSession n 1 s)
  | .powerDeliveryPause => powerPause n slot s
  | .meteringConfirmation => meteringConfirm n slot x.sig s
  | .acdpConnect => answer n m .ok (s.updVc n fun c => { c with acdp := s.acdpState n })
  | .acdpSystemStatus => answer n m .ok (s.updVc n fun c => { c with acdp := s.acdpState n })
  | .sessionStop => sessionStop n slot s
  | _ => answerWith n m .ok s

/-- V2G_REQUEST (R219). -/
def execV2gRequest (n : Fin 64) (m : V2gMsg) (x : V2gVals) (s : State) : Res :=
  .next (onRequest n m (v2gServe n m x) s)

/-- AUTHORIZATION_SETUP_REQ (R227): a fresh challenge from the Tack room. -/
def execAuthorizationSetupReq (n : Fin 64) (s : State) : Res :=
  .next (onRequest n .authorizationSetup (fun _ _ s => authSetup n s) s)

/-- The checks 1 to 3 of R232, in order: none where all pass. Roots of vehicles' contracts are those of V2G and of the
mobility operators (R231). -/
def State.chainCheck (s : State) (a : PncCheck) : Option V2gAns :=
  if a.parses && s.chainOk [2, 3] a.chain then none else some .chainFailed

/-- Check 5: the request's signature, and the challenge issued in this session (R232). -/
def State.pncSigned (s : State) (n : Nat) (a : PncCheck) : Bool := a.sigOk && (s.vc n).chal = some a.challenge

/-- The checks of R232 with their PKA operations done: the EMAID is taken once the chain is good, and the challenge is used
by the check that asks for it. -/
def pncRun (n slot : Nat) (a : PncCheck) (s : State) : State :=
  match s.chainCheck a with
  | some e => endSession n 7 (answer n .authorization e s)
  | none =>
    let s1 := (s.updVc n fun c => { c with chal := none }).updVs slot fun v => { v with ident := a.emaid, method := 2 }
    if s.pncSigned n a then authDecide n slot (if (s.vs slot).confirm then s1 else s1.updVs slot fun v => { v with decided := 1 })
    else endSession n 7 (answer n .authorization .failed s1)

/-- A PnC AuthorizationReq (R232): one PKA operation for each signature of the chain and one for the challenge, each granted
as kind 3; while they cannot be had the answer waits for them (R228). A repeated request, whose decision is pending or has
come, is not checked again. -/
def pncAuth (n slot : Nat) (a : PncCheck) (s : State) : State :=
  let v := s.vs slot
  if v.pendDec = 1 || v.decided ≠ 0 || within 5 (s.phase slot) 8 then authDecide n slot s
  else match girthRun pkaPort (List.replicate (1 + min 3 a.chain.sizes.length) 3) s with
    | none => waitFor n .authorization s
    | some s1 => pncRun n slot a s1

/-- AUTHORIZATION_REQ (R232); PnC is a message of ISO 15118-20 only (R219, R220). -/
def execAuthorizationReq (n : Fin 64) (a : PncCheck) (s : State) : Res :=
  .next (onRequest n .authorization (fun slot x s =>
    if x = .din || x = .iso2 then seqError n s else pncAuth n slot a s) s)

/-- CERTIFICATE_INSTALLATION_REQ (R233). -/
def execCertificateInstallationReq (n : Fin 64) (stream : List Byte) (s : State) : Res :=
  .next (onRequest n .certificateInstallation (fun slot _ s => certInstall n slot stream (certAnswer n slot) s) s)

/-- The session goes to STOPPING with a failure code (R227). -/
def failStop (n slot : Nat) (m : V2gMsg) (a : V2gAns) (s : State) : State := toStopping slot (s.reason slot) (answer n m a s)

/-- A point that may give energy: its maximum voltage and current are not 0 (R245). -/
def State.mayEnergise (s : State) (p : Nat) : Bool := s.onum (ptBase p + 8) 4 ≠ 0 && s.onum (ptBase p + 8) 5 ≠ 0

/-- Energy flows: ENERGISING, with its notice (R211). -/
def energise (slot : Nat) (s : State) : State := sessionNotice 3 slot 0 (setPhase slot 7 s)

/-- PowerDelivery (start) (R227, R211): answered once the contactor is closed; at the bound of 1100 ms, or where the point
refuses energy, with FAILED_PowerDeliveryNotApplied. -/
def powerStart (n slot : Nat) (late : Bool) (s : State) : State :=
  let may := s.phase slot = 6 && s.mayEnergise n
  if may && s.contactorClosed n then answer n .powerDelivery .ok (energise slot (s.updVs slot fun v => { v with coilRetry := false }))
  else if may && !late then waitFor n .powerDelivery s
  else failStop n slot .powerDelivery .powerNotApplied s

/-- POWER_DELIVERY_START (R227); `late` says that the bound from the request has passed. -/
def execPowerDeliveryStart (n : Fin 64) (late : Bool) (s : State) : Res :=
  .next (onRequest n .powerDelivery (fun slot _ s => powerStart n slot late s) s)

/-- The Ongoing time of a waiting request elapses (R228): Ongoing where the standard allows it; CertificateInstallation, which
does not, fails at its bound, and the session moves to STOPPING (R227). -/
def ongoingExpiry (n : Nat) (s : State) : State :=
  let c := s.vc n
  match c.proto, c.prev with
  | some x, some m =>
    if !c.waiting then s
    else if ongoingAllowed x m then s.updVc n fun c => { c with ans := .ongoing, waiting := false }
    else if m = .certificateInstallation then
      withSession n (fun slot s => failStop n slot m .failed (s.updVs slot fun v => { v with pendDec := 0, decided := 0 })) s
    else s
  | _, _ => s

/-- ONGOING_TIME_EXPIRY (R228). -/
def execOngoingTimeExpiry (n : Fin 64) (s : State) : Res := .next (ongoingExpiry n s)

/-- A request that waits is answered when what it waits for has come (R227, R228). -/
def answerWaiting (n slot : Nat) (s : State) : State :=
  if !(s.vc n).waiting then s
  else match (s.vc n).prev with
    | some .authorization => if (s.vs slot).decided = 0 then s else authDecide n slot s
    | some .certificateInstallation => if (s.vs slot).decided = 0 then s else certAnswer n slot s
    | some .cableCheck => if (s.isolation n).isNone then s else cableCheck n s
    | some .powerDelivery => if s.contactorClosed n then powerStart n slot false s else s
    | _ => s

/-- A decision has been taken (R229): a WAITING context keeps an acceptance, one without V2G messages goes on or ends at
once; a waiting request is answered; else the next answer is final, or the session ends where no request can come. -/
def decisionTaken (n slot : Nat) (s : State) : State :=
  let v := s.vs slot
  let own := s.phase slot = 1 || v.proto = 1 || v.proto = 5
  if own && v.decided = 1 then authGranted slot s
  else if own then
    (if s.phase slot = 1 then s.updVs slot fun v => { v with decided := 0 } else endSlot slot 7 s)
  else if (s.vc n).waiting then answerWaiting n slot s
  else if v.decided = 2 && !(s.vc n).isOpen then endSlot slot 7 s
  else s

/-- HOST_DECISION_TIMEOUT (R228): the action of 2200h.02 decides. -/
def execHostDecisionTimeout (n : Fin 64) (s : State) : Res :=
  .next (withSession n (fun slot s =>
    let v := s.vs slot
    if v.pendDec = 0 then s
    else
      let accept := s.onum 0x2200 2 = 1 && (v.pendDec = 1 || decide (v.rspLen ≠ 0 && v.certRsp.length = v.rspLen))
      decisionTaken n slot (s.updVs slot fun v => { v with pendDec := 0, decided := if accept then 1 else 2 })) s)

/-- The status of a decision write (R229, R233). -/
def State.decisionStatus (s : State) (slot d : Nat) : Status :=
  let v := s.vs slot
  if v.pendDec = 0 then .state
  else if d ≠ 1 && d ≠ 2 then .range
  else if d = 1 && v.pendDec = 2 && v.certRsp.length ≠ v.rspLen then .range
  else .ok

/-- An authorisation by the host alone: the method is 4, and the identifier is the one the host supplied; no entry of the
manual takes it, so it is a free value (assumption 117). -/
def hostIdent (slot : Nat) (s : State) : State :=
  if (s.vs slot).method ≠ 0 then s
  else
    let n := (s.freeBits 8).toNat
    let id := (List.range n).map fun k => (s.freeBits 2048).extractLsb' (8 * k) 8
    (s.updVs slot fun v => { v with method := 4, ident := id }).used

/-- A write of (q + 2).06 to a live session. -/
def hostDecide (slot d : Nat) (s : State) : Status × State :=
  let st := s.decisionStatus slot d
  if st = .ok then
    let s1 := if d = 1 && (s.vs slot).pendDec = 1 then hostIdent slot s else s
    (.ok, decisionTaken (s.app.ctx.get slot).point slot (s1.updVs slot fun v => { v with pendDec := 0, decided := d, decSt := .ok }))
  else (st, s.updVs slot fun v => { v with decSt := st })

/-- HOST_DECISION (R229, R11): the write names the session by handle and serial. -/
def execHostDecision (slot : Fin 256) (handle : Word) (serial : BitVec 64) (decision : BitVec 8) (s : State) : Res :=
  .next (if s.namesSession handle.toNat serial.toNat = some slot.val then (hostDecide slot decision.toNat s).2
    else s.updVs slot fun v => { v with decSt := .stale })

/-- V2G_SEQUENCE_TIMEOUT (R225): no next request within 60 s of the last answer. -/
def execV2gSequenceTimeout (n : Fin 64) (s : State) : Res :=
  .next (if (s.vc n).isOpen && !(s.vc n).waiting then connFail n s else s)

/-- V2G_SETUP_TIMEOUT (R225): the session is still in LINKING 20 s after MATCHED. -/
def execV2gSetupTimeout (n : Fin 64) (s : State) : Res :=
  .next (if s.pointPhase n = 3 then endSession n 8 s else s)

/-! ### Awl (R95, R107) -/

/-- AWL_JOB_COMPLETE: a CODEC event to the context that submitted it, else the completion's source; the error
source where it failed. -/
def execAwlJobComplete (pka ok : Bool) (slot : Option (Fin 256)) (s : State) : Res :=
  .next (
    let s1 := if ok then s else raise 452 s
    match slot with
    | some k => postClass k 8 s1
    | none => setLevel (if pka then 451 else 450) true s1)

/-! ### IEEE 2030.1.1 (R241 to R244) -/

/-- The type-5 point bound to a port. -/
def State.pointOfPort (s : State) (k : Nat) : Option Nat :=
  if (s.obj.unfit.get 7).getLsbD k then none
  else (List.range 64).find? fun p => s.typeNow p = 5 && s.boundPort p = k

/-- Doing something for the point bound to a port. -/
def withPort (k : Nat) (f : Nat → State → State) (s : State) : State :=
  match s.pointOfPort k with
  | some p => f p s
  | none => s

/-- A port takes part in its bus: its clock runs and it is not bus-off (R241; 03 R66). -/
def State.vpUp (s : State) (k : Nat) : Bool := !s.app.clk.canRecessive.getLsbD (2 + k) && (s.vp k).err ≠ 2

/-- The fault stop (R244): the setpoint goes to 0, the charger-fault status is set in the frames that follow. -/
def faultStop (k p reason : Nat) (s : State) : State :=
  if within 4 (s.pointPhase p) 7 then setpointOff p (endSession p reason (s.updVp k fun v => { v with fault := true })) else s

/-- The connector lock of a point is on, or it has none. -/
def State.lockOn (s : State) (p : Nat) : Bool :=
  let l := (s.ptCfg p).lock
  decide (32 ≤ l) || outIsOn (s.out (64 + l))

/-- The lock of a point is requested of Girth, kind 4. -/
def requestLock (p slot : Nat) (s : State) : State :=
  let l := (s.ptCfg p).lock
  if l < 32 && !s.lockOn p then (girthSubmit (4 + slot / 32) (some slot) 4 l 0 s).2 else s

/-- Steps 4 to 6 of R243 as far as they can be taken now: with every vehicle frame received and SQk_PERM accepted the lock goes
on, with the lock on and the insulation good SQk_D2 goes on and the contactor is requested, and with it closed energy
flows. -/
def seqAdvance (k p slot : Nat) (s : State) : State :=
  if s.phase slot ≠ 6 || (s.vp k).got ≠ 7 || !s.power.seqPerm.get k || !s.mayEnergise p then s
  else if !s.lockOn p then requestLock p slot s
  else if s.isolation p ≠ some true then s
  else if !(s.vp k).ready then
    requestCoil p slot (powerWrite (seqSet k true true) (s.updVp k fun v => { v with ready := true }))
  else if s.contactorClosed p then energise slot s
  else s

/-- SEQUENCE_SIGNAL_CHANGE (R242, R244): an accepted change reaches the routing holder; a falling SQk_PERM stops
a session. -/
def execSequenceSignalChange (k : Fin 8) (prox level : Bool) (s : State) : Res :=
  .next (
    let was := if prox then s.power.seqProx.get k else s.power.seqPerm.get k
    if was = level then s
    else
      let s1 := if prox then { s with power.seqProx := s.power.seqProx.set k level }
        else { s with power.seqPerm := s.power.seqPerm.set k level }
      withPort k (fun p s =>
        let s2 := laneRaise (48 + p) s
        if !prox && !level then faultStop k p 1 s2
        else if !prox then withSession p (seqAdvance k p) s2
        else s2) s1)

/-- The voltage and current of a vehicle frame are within the point's limits (R243 step 3); the layout of the frames is that of
the standard (assumption 45). -/
def State.frameFits (s : State) (p v i : Nat) : Bool :=
  decide (v ≤ s.onum (ptBase p + 8) 4) && decide (i ≤ s.onum (ptBase p + 8) 5)

/-- The target voltage of a 102h frame, 0.1 V, and its current request, 0.1 A (assumption 45). -/
def frameV (data : List Byte) : Nat := 10 * ofLE ((data.drop 1).take 2)
def frameI (data : List Byte) : Nat := 10 * (data.getD 3 0).toNat

/-- The current request of a 102h frame (layout: assumption 45): voltage in V, current in A, fault flags, state of
charge. -/
def vcan102 (k p slot : Nat) (data : List Byte) (s : State) : State :=
  let s1 := s.updVs slot fun x => { x with soc := (data.getD 6 0).toNat }
  if data.getD 4 0 ≠ 0 then faultStop k p 1 s1
  else if s1.phase slot ≠ 7 then s1
  else if frameI data = 0 then endSession p 1 s1
  else vehicleRequest p slot (frameV data) (frameI data : Int) s1

/-- A vehicle frame of a session (R243): the first ones are checked against the point's limits, and one outside them does not
count as received. -/
def vcanTake (k p slot n : Nat) (data : List Byte) (s : State) : State :=
  let fits := n ≠ 2 || s.frameFits p (frameV data) (frameI data)
  let s1 := if fits then s.updVp k fun v => { v with got := putBit v.got n true } else s
  seqAdvance k p slot (if n = 2 then vcan102 k p slot data s1 else s1)

/-- VCAN_FRAME (R241, R243): frames 100h, 101h and 102h of a session of type 5; others are ignored. -/
def execVcanFrame (k : Fin 8) (id : BitVec 11) (data : List Byte) (s : State) : Res :=
  .next (
    if !within 0x100 id.toNat 0x102 || !s.vpUp k then s
    else withPort k (fun p s => withSession p (fun slot s => vcanTake k p slot (id.toNat - 0x100) data s) s) s)

/-- CHARGER_FRAME_PERIOD (R243, R244): 108h and 109h with the charger-fault status, from the authorisation on. -/
def execChargerFramePeriod (k : Fin 8) (s : State) : Res :=
  .next (
    if !s.vpUp k then s
    else withPort k (fun p s =>
      if within 5 (s.pointPhase p) 9 then
        s.updVp k fun v => { v with sent := ((0x109, v.fault) :: (0x108, v.fault) :: v.sent).take 16 }
      else s) s)

/-- VCAN_FIRST_FRAME_TIMEOUT (R243): a frame is still missing 2000 ms after the authorisation. -/
def execVcanFirstFrameTimeout (k : Fin 8) (s : State) : Res :=
  .next (withPort k (fun p s =>
    if (s.vp k).got ≠ 7 && within 5 (s.pointPhase p) 6 then endSession p 8 s else s) s)

/-- VCAN_FRAME_TIMEOUT (R244): no valid 102h for 1000 ms. -/
def execVcanFrameTimeout (k : Fin 8) (s : State) : Res := .next (withPort k (fun p s => faultStop k p 8 s) s)

/-- Fault confinement of the port of a type-5 point under ISO 11898-1: which errors occur is not the manual's to say, a free
value (R241). -/
def vcanConfine (k : Nat) (s : State) : State :=
  withPort k (fun _ s => (s.updVp k fun v => { v with err := (s.freeBits 2).toNat % 3 }).used) s

end Sys2Proof.Machine
end

