-- ==== Sys2Proof/Machine/Handlers.lean ====
section
/-!
DEFINITION. What the shipped firmware of a Rein engine does in an activation (09 R200, R211; 10 R227, R243, R244), and what
the Cantle side rebuilds after a reset (09 R212, R213). The manual gives these duties to firmware; here they are done where
an activation ends by SES_DONE, for the classes that it was given (DESIGN CHOICE, log 116).
-/
set_option Elab.async false
namespace Sys2Proof.Machine

/-! ### Conditions -/

/-- A vehicle is plugged in: state B, C or D accepted, or the plug of a sequence-signal port (R211). -/
def State.plugged (s : State) (p slot : Nat) : Bool :=
  if s.typeNow p = 5 then s.power.seqProx.get (s.vs slot).port
  else (s.pil p).st = .b || (s.pil p).st = .c || (s.pil p).st = .d

/-- The plug-out is accepted. -/
def State.unplugged (s : State) (p slot : Nat) : Bool :=
  if s.typeNow p = 5 then !s.power.seqProx.get (s.vs slot).port else (s.pil p).st = .a

/-- The vehicle asks for energy under basic charging: state C or D. -/
def State.wantsEnergy (s : State) (p : Nat) : Bool := (s.pil p).st = .c || (s.pil p).st = .d

/-- An earth-fault trip of a point: its RC channel, or its IM channel. -/
def State.earthTrip (s : State) (p : Nat) : Bool := rcTripped (s.power.rc.get p) || s.isolation p = some false

/-- The ticket under which a kind is in force for a unit (04 R89). -/
def State.ticketOf (s : State) (kind unit : Nat) : Option Nat :=
  (s.app.girth.grants.find? fun g => g.kind = kind && g.unit = unit && g.ticket ≠ 0).map (·.ticket)

/-- The connector lock is released, or the point has none. -/
def State.lockOff (s : State) (p : Nat) : Bool :=
  let l := (s.ptCfg p).lock
  decide (32 ≤ l) || !outIsOn (s.out (64 + l))

/-- The point's coil is off. -/
def State.coilOff (s : State) (p : Nat) : Bool :=
  let c := (s.ptCfg p).coil
  decide (64 ≤ c) || !outIsOn (s.out c)

/-- The present voltage is below 10 V (10 R244). -/
def State.voltageGone (s : State) (p : Nat) : Bool := decide ((s.pointNow p).1.natAbs < 10000)

/-- The present current is below the bound at which STOPPING ends: 1 A, and 5 A under IEEE 2030.1.1 (R211, 10 R244). -/
def State.currentGone (s : State) (p slot : Nat) : Bool :=
  decide ((s.pointNow p).2.natAbs < (if (s.vs slot).proto = 5 then 5000 else 1000))

/-! ### CONNECTED (R211) -/

/-- LINKING: 5 % duty, and the grant of kind 1 under which the channel is started; refused with BUSY it is made again. -/
def toLinking (p slot : Nat) (s : State) : State :=
  let r := girthSubmit (4 + slot / 32) (some slot) 1 p 0 (setPhase slot 3 (powerWrite (pilCommand p (pack [(50, 4), (2, 0)])) s))
  if r.1 = .busy then setTimer slot (s.ht + 100000000) r.2 else r.2

/-- A protocol of V2G messages is offered at the point. -/
def State.highLevel (s : State) (p slot : Nat) : Bool :=
  ([.din, .iso2, .iso20ac, .iso20dc, .iso20acdp] : List Proto).any fun x => !(s.services p slot x).isEmpty

/-- Basic charging: the pilot is held at X1, and AUTHORISING begins. -/
def toBasic (p slot : Nat) (s : State) : State :=
  authorise slot (powerWrite (pilCommand p 1) (s.updVs slot fun v => { v with proto := 1, service := 1 }))

/-- What follows CONNECTED: IEEE 2030.1.1 on type 5, high-level communication, or basic charging. On types 1 and 2 with a
protocol enabled either may be used; which one is a free value (assumption 116). -/
def connected (p slot : Nat) (s : State) : State :=
  let ty := s.typeNow p
  if ty = 5 then authorise slot (s.updVs slot fun v => { v with proto := 5, service := 2 })
  else if ty = 1 || ty = 2 then
    (if !s.highLevel p slot then toBasic p slot s
    else if (s.freeBits 1).getLsbD 0 then toLinking p slot s.used
    else toBasic p slot s.used)
  else toLinking p slot s

/-- WAITING to CONNECTED: SETROLE ACTIVE, the plug notice, a new QUEUED context. -/
def connect (p slot : Nat) (s : State) : State :=
  let r := ctxSetRole slot 1 s
  if r.1 ≠ .ok then s
  else connected p slot (startQueued p (sessionNotice 1 slot 0 (setPhase slot 2 r.2)))

/-! ### Ends -/

/-- A pilot fault or an earth trip (R211): the protocol ends, with no coil command (R200). -/
def faultEnd (p slot reason : Nat) (s : State) : State := toClosing slot reason true (connClose p (setpointOff p s))

/-- CLOSING goes on: the role, the coil (not after a fault, R200), the lock, the close request, and with the plug out and the
lock released the end of the session; without its signed record it becomes BILLING. -/
def closingOn (p slot : Nat) (s : State) : State :=
  let s1 := if (s.app.ctx.get slot).role = 1 then (ctxSetRole slot 2 s).2 else s
  let s2 := if s1.coilOff p || s1.reason slot = 4 || s1.reason slot = 5 then s1 else contactorOff p s1
  let s3 := if s2.coilOff p then closeRecord slot s2 else s2
  let s4 := if s3.coilOff p && !s3.lockOff p && (s3.typeNow p ≠ 5 || s3.voltageGone p) then
      powerWrite (outCmdOff (64 + (s3.ptCfg p).lock)) s3 else s3
  if s4.unplugged p slot && s4.lockOff p && s4.serialOf slot ≠ 0 && !(s4.vs slot).signed then
    setPhase slot 10 (ctxSetRole slot 3 s4).2
  else s4

/-- STOPPING ends when the current is gone. -/
def stoppingOn (p slot : Nat) (s : State) : State := if s.currentGone p slot then stopDone slot s else s

/-- A session has reached its end: in CLOSING with the plug out, the lock released and its record signed or never opened. -/
def State.sessionEnded (s : State) (slot : Nat) : Bool :=
  let p := (s.app.ctx.get slot).point
  s.phase slot = 9 && s.unplugged p slot && s.lockOff p && (s.serialOf slot = 0 || (s.vs slot).signed)

/-! ### The classes (R194, R200) -/

/-- PILOT. -/
def servePilot (p slot : Nat) (s : State) : State :=
  let ph := s.phase slot
  if ph = 1 then (if s.plugged p slot then connect p slot s else s)
  else if !within 2 ph 8 then s
  else if s.typeNow p ≠ 5 && pilFaulted (s.pil p) then faultEnd p slot 4 s
  else if s.unplugged p slot && ph ≠ 8 then endSlot slot 1 s
  else if (s.vs slot).proto ≠ 1 then s
  else if ph = 6 && s.wantsEnergy p && (s.ticketOf 0 (s.ptCfg p).coil).isNone then requestCoil p slot s
  else if ph = 7 && !s.wantsEnergy p then endSlot slot 1 s
  else s

/-- EARTH. -/
def serveEarth (p slot : Nat) (s : State) : State :=
  if within 2 (s.phase slot) 8 && s.earthTrip p then faultEnd p slot 5 s else s

/-- GRANT: the channel is started under its ticket; basic charging energises; a request that waits is answered. -/
def serveGrant (p slot : Nat) (s : State) : State :=
  let ph := s.phase slot
  if ph = 3 then
    match s.ticketOf 1 p with
    | some t => if (s.plc p).st = .off then plcStart p (pack [(t, 16), (1, 0)]) (plcTake p s) else s
    | none => s
  else if ph = 6 && (s.vs slot).proto = 1 then
    (if s.wantsEnergy p && (s.ticketOf 0 (s.ptCfg p).coil).isSome then energise slot s else s)
  else if ph = 6 && (s.vs slot).proto = 5 then seqAdvance (s.vs slot).port p slot s
  else s

/-- TIMER: a refused Girth request is made again, or the time of a stop has passed. -/
def serveTimer (p slot : Nat) (s : State) : State :=
  let ph := s.phase slot
  if ph = 3 && (s.plc p).st = .off && (s.ticketOf 1 p).isNone then toLinking p slot s
  else if (s.vs slot).coilRetry && within 4 ph 6 then requestCoil p slot s
  else if ph = 8 then stopDone slot s
  else s

/-- PLC: a link lost ends a session of V2G messages; the events are cleared (R196). -/
def servePlc (p slot : Nat) (s : State) : State :=
  let lost := bit (s.plc p).evt 2 || bit (s.plc p).evt 5
  let s1 := s.updPlc p fun c => { c with evt := 0 }
  if lost && within 3 (s.phase slot) 7 && (s.vs slot).proto ≠ 1 then endSlot slot 8 (connClose p s1) else s1

/-- One class. -/
def serveClass (k p slot : Nat) (s : State) : State :=
  match k with
  | 0 => if s.phase slot = 0 && (s.app.ctx.get slot).role = 0 then setPhase slot 1 s else s
  | 1 => servePilot p slot s
  | 3 => serveEarth p slot s
  | 4 => serveGrant p slot s
  | 5 => serveTimer p slot s
  | 6 => servePlc p slot s
  | _ => s

/-- The classes of an activation in ascending order (R200), then what the phase goes on with. -/
def serveAll (slot : Nat) (s : State) : State :=
  let c := s.app.ctx.get slot
  let p := c.point
  let m := c.evWord.setWidth 16 ||| c.taken
  let s1 := (bitsOf m).foldl (fun t k => serveClass k p slot t) s
  let s2 := answerWaiting p slot s1
  let s3 := if s2.phase slot = 8 then stoppingOn p slot s2 else s2
  if s3.phase slot = 9 then closingOn p slot s3 else s3

/-- SES_DONE (R206): the activation has done its duties and ends; a session at its end is freed by the Cantle side. -/
def doneServed (e : Nat) (s : State) : State :=
  match (s.app.eng.get e).running with
  | none => s
  | some k =>
    let slot := 32 * e + k
    let s1 := sesDone e (serveAll slot s)
    if s1.sessionEnded slot then (ctxFree slot s1).2 else s1

def execSesDone (e : Fin 8) (s : State) : Res := .next (doneServed e s)

/-! ### Rebuilding (R212, R213) -/

/-- A free slot of a point's engine. -/
def State.freeSlot (s : State) (p : Nat) : Option Nat := (engineSlots (p % 8)).find? fun i => (s.app.ctx.get i).st = .free

/-- A point whose session can be resumed: basic charging goes on by the pilot alone, which the reset has left as it was; a
session of V2G messages has lost its connection (the model's reading of `a point it can resume`, assumption 120). -/
def State.resumable (s : State) (p : Nat) : Bool :=
  (s.typeNow p = 1 || s.typeNow p = 2) && s.wantsEnergy p && decide (100 ≤ (s.pil p).dutyAct.toNat) && !s.coilOff p

/-- A point with an open record: resumed in ENERGISING and reclaimed, else CLOSING with reason 9. -/
def rebuildRecord (p serial slot : Nat) (s : State) : State :=
  let go := s.resumable p
  let s1 := ctxStart slot p (if go then 1 else 2) s
  let s2 := s1.setNum (ctxBase slot + 0x20) 8 serial
  if go then
    reclaimWrite (decide (32 ≤ p)) (BitVec.ofNat 32 (2 ^ (p % 32)))
      (setPhase slot 7 (s2.updVs slot fun v => { v with proto := 1, service := 1 }))
  else setReason slot 9 (setPhase slot 9 s2)

/-- One point rebuilt: its open record, which the sealed die reports over the link, then a QUEUED context where none is
ACTIVE or CLOSING. -/
def rebuildPoint (p : Nat) (s : State) : State :=
  if !within 1 (s.typeNow p) 5 || !s.engRuns (p % 8) then s
  else
    let s1 := match (if s.linkUp then s.openRec p else none), s.freeSlot p with
      | some r, some slot =>
        if (s.holder p).isSome || (s.startStatus (p % 8) (slot % 32) p 1) ≠ .ok then s else rebuildRecord p r.serial slot s
      | _, _ => s
    if (s1.holder p).isSome then s1 else startQueued p s1

/-- The points of an engine. -/
def rebuildEngine (e : Nat) (s : State) : State :=
  (List.range 8).foldl (fun t k => rebuildPoint (e + 8 * k) t) s

/-- Every point, at a warm start (R212). -/
def rebuildAll (s : State) : State := (List.range 64).foldl (fun t p => rebuildPoint p t) s

/-- Steps 2, 4 and 5 of 03 R76, which the Cantle side runs itself for a point of a reset engine that is not resumed: PWM off,
the coil off, a monostable lock off (R213). The waits of those steps are timing (assumption 8). -/
def cantleShutdown (p : Nat) (s : State) : State :=
  if s.coilOff p then s
  else
    let c := s.ptCfg p
    let s1 := contactorOff p (powerWrite (pilCommand p 1) s)
    if c.lockKind = 1 && decide (c.lock < 32) then powerWrite (outCmdOff (64 + c.lock)) s1 else s1

/-- An engine that runs again after a reload: its points are rebuilt; those not resumed are shut down (R213). -/
def engineBack (e : Nat) (s : State) : State :=
  let s1 := rebuildEngine e s
  (List.range 8).foldl (fun t k =>
    let p := e + 8 * k
    if within 1 (t.typeNow p) 5 && (t.slotOfRole p 1).isNone then cantleShutdown p t else t) s1

/-- A write of RST_ENGRUN: a 1 runs a loaded engine, or sets RUN_ERR and raises source 4; a 0 resets the engine,
whether it runs or not (03 R70, R73). -/
def engRunWrite (v : Word) (s : State) : State :=
  let s0 := { s with app.clk.runErr := s.app.clk.runErr && !bit v 31 }
  (List.range 9).foldl (fun t e =>
    if bit v e then
      if t.app.clk.run.getLsbD e then t
      else if t.app.clk.loaded.getLsbD e then
        (let t1 := { t with app.clk.run := putBit t.app.clk.run e true }
         if e < 8 && t1.app.server.ready then engineBack e t1 else t1)
      else raise 4 { t with app.clk.runErr := true }
    else anyEngineReset e t) s0

/-- ENGINE_RUN (03 R73). -/
def execEngineRun (v : Word) (s : State) : Res := .next (engRunWrite v s)

/-- ENGINE_RESET (03 R70). -/
def execEngineReset (v : Word) (s : State) : Res := .next (engRunWrite v s)

end Sys2Proof.Machine
end

