-- ==== Sys2Proof/Machine/Counters.lean ====
section
/-!
DEFINITION. The performance counters (05 R118 to R120).
-/
set_option Elab.async false
namespace Sys2Proof.Machine

/-- How many indices an event group has (R120); 0 for a group that is not listed. -/
def pmcIndices (group : Nat) : Nat :=
  match group with
  | 0 => 1 | 1 => 30 | 2 => 30 | 3 => 7 | 4 => 64 | 5 => 3 | 6 => 30 | 7 => 8 | 8 => 14
  | 9 => 66 | 10 => 66 | 11 => 66 | 12 => 4 | 13 => 12 | _ => 0

/-- INDEX values listed for group 4 are 8 × n + k with k at most 4. -/
def pmcListed (group index : Nat) : Bool :=
  decide (index < pmcIndices group) && (group ≠ 4 || decide (index % 8 ≤ 4))

/-- COUNTER_WRAP (R118): the counter passes its largest value. -/
def execCounterWrap (i : Fin 128) (s : State) : Res :=
  .next (pmcAdd (256 - i) i (2 ^ 32 - s.app.pmc.cnt.get i) s)

/-- A write of PMC_SEL_i (R118, R120): an unlisted selection leaves the register unchanged. -/
def pmcSelect (i : Nat) (v : Word) (s : State) : State :=
  let g := fld v 8 8
  let x := fld v 0 8
  if pmcListed g x then
    { s with app.pmc.sel := s.app.pmc.sel.upd i fun e =>
        { chain := bit v 31, ovf := e.ovf && !bit v 30, group := g, index := x } }
  else s

/-- PMC_SELECT (R120). -/
def execPmcSelect (i : Fin 128) (v : Word) (s : State) : Res := .next (pmcSelect i v s)

/-- A write of PMC_SNAP (R119). -/
def pmcSnapshot (v : Word) (s : State) : State :=
  if bit v 0 then
    { s with app.pmc.snap := s.app.pmc.cnt, app.pmc.taken := wrap16 s.app.pmc.taken }
  else s

/-- PMC_SNAPSHOT (R119). -/
def execPmcSnapshot (v : Word) (s : State) : Res := .next (pmcSnapshot v s)

end Sys2Proof.Machine
end

