-- ==== Sys2Proof/Machine/Harness.lean ====
section
/-!
DEFINITION. The Harness's arbitration at a target (04 R79 to R84).
-/
set_option Elab.async false
namespace Sys2Proof.Machine

/-- A port of class SAFE (R79). -/
def isSafePort (p : Nat) : Bool := p = 20 || p = 21

/-- A request arbitrated in class TEST: the scrubber's, or one flagged as test traffic (R79). -/
def isTestReq (r : BurstReq) : Bool := r.test || r.port.val = 23

/-- The target of an address (R80, 05 R104): Hall banks by bits 11 to 8, engine, Stitcher and Tack-room local memory, PLC
buffer, crypto SRAM, register fabric, flash window. -/
def targetOf (a : Nat) : Option Nat :=
  match regionOf a with
  | .hall => some (a / 256 % 16)
  | .rein e => some (16 + e)
  | .stitcher => some 24
  | .tackRoom => some 25
  | .plcBuf => some 26
  | .crypto => some 27
  | .regs => some 28
  | .flash => some 29
  | .bootRom | .hole => none

/-- A local memory's own port is private and never waits for the Harness (R80). -/
def isPrivate (t p : Nat) : Bool := (within 16 t 23 && decide (p + 12 = t)) || (t = 24 && p = 12) || (t = 25 && p = 14)

/-- A request takes part at target `t`: its address lies there and its port is not the memory's private one. -/
def BurstReq.atTarget (t : Nat) (r : BurstReq) : Bool := targetOf r.addr.toNat = some t && !isPrivate t r.port

/-- Burst limit in beats (R79, R80). -/
def burstLimit (t : Nat) (r : BurstReq) : Nat :=
  if t = 28 then 1
  else if isTestReq r then 4
  else if isSafePort r.port then 2
  else if within 4 r.port 13 then 8
  else 16

/-- The first port of a list after `last` in ascending order with wrap-around (R81). -/
def nextInRotation (last : Nat) (ports : List Nat) : Option Nat :=
  ((List.range 24).map fun k => (last + 1 + k) % 24).find? fun p => ports.contains p

/-- The request that has waited longest. -/
def oldestReq : List BurstReq → Option BurstReq
  | [] => none
  | r :: rs => match oldestReq rs with
    | none => some r
    | some o => if o.wait ≤ r.wait then some r else some o

/-- A SAFE port is eligible again 32 target cycles after its previous grant started (R82). -/
def safeEligible (h : HrnTarget) (p : Nat) : Bool :=
  decide (32 ≤ if p = 20 then h.safeGap20 else h.safeGap21)

/-- How a grant is made. -/
inductive GrantWay where
  | safe | forced | main | idle
  deriving DecidableEq, Repr

/-- The decision at a target (R81, R82). -/
def harnessPick (h : HrnTarget) (reqs : List BurstReq) : Option (GrantWay × BurstReq) :=
  let safes := reqs.filter fun r => isSafePort r.port && !isTestReq r
  let ready := safes.filter fun r => safeEligible h r.port
  let tests := reqs.filter isTestReq
  let mains := reqs.filter fun r => !isSafePort r.port && !isTestReq r
  let of := fun (l : List BurstReq) (last : Nat) =>
    (nextInRotation last (l.map fun r => r.port.val)).bind fun p => l.find? fun r => r.port.val = p
  match of ready h.lastSafe with
  | some r => some (.safe, r)
  | none =>
    match oldestReq tests with
    | some r =>
      if 256 ≤ r.wait && decide (256 ≤ h.testGap) then some (.forced, r)
      else match of mains h.lastMain with
        | some m => some (.main, m)
        | none => if safes.isEmpty then some (.idle, r) else none
    | none => (of mains h.lastMain).map fun m => (.main, m)

/-- `n` target cycles pass. -/
def HrnTarget.cycles (n : Nat) (h : HrnTarget) : HrnTarget :=
  { h with safeGap20 := min 32 (h.safeGap20 + n), safeGap21 := min 32 (h.safeGap21 + n),
           testGap := min 256 (h.testGap + n) }

/-- The target after a grant of `beats` beats. -/
def HrnTarget.grant (w : GrantWay) (r : BurstReq) (beats : Nat) (h : HrnTarget) : HrnTarget :=
  let h1 := h.cycles beats
  let h2 := match w with
    | .safe => if r.port.val = 20 then { h1 with lastSafe := 20, safeGap20 := min 32 beats }
        else { h1 with lastSafe := 21, safeGap21 := min 32 beats }
    | .forced => { h1 with testGap := min 256 beats }
    | .main => { h1 with lastMain := r.port }
    | .idle => h1
  { h2 with granted := some r.port,
            waitMax := if h.waitMax < r.wait then min 65535 r.wait else h.waitMax,
            waitPort := if h.waitMax < r.wait then r.port else h.waitPort }

/-- One decision of a target and the burst that follows; with nothing to grant one cycle passes. -/
def harnessBurst (t : Nat) (reqs : List BurstReq) (s : State) : State :=
  let h := s.app.hrn.get t
  match harnessPick h reqs with
  | none =>
    let s1 := { s with app.hrn := s.app.hrn.set t { h.cycles 1 with granted := none } }
    if reqs.isEmpty then s1 else countEvents 2 t 1 s1
  | some (w, r) =>
    let beats := min (burstLimit t r) r.beats
    let s1 := countEvents 1 t 1 { s with app.hrn := s.app.hrn.set t (h.grant w r beats) }
    if reqs.length ≤ 1 then s1 else countEvents 2 t beats s1

/-- The memory behind a target, in the order of sources 8 to 15 (05 R107). -/
def targetMemory (t : Nat) : Nat :=
  if t < 16 then 0 else if t < 24 then 2 else if t = 24 then 3 else if t = 25 then 4 else if t = 26 then 5 else if t = 27 then 6 else 7

/-- The ECC outcome of an access to a memory (01 R36): a corrected error is counted and raises source 5, an
uncorrectable one raises the memory's source. -/
def eccReport (m : Nat) (e : Ecc) (s : State) : State :=
  match e with
  | .good => s
  | .corrected => raise 5 (countEvents 7 m 1 s)
  | .failed => raise (8 + m) s

/-- HARNESS_BURST (R81), with the ECC outcome of the memory it reads (01 R36); the flash window has no ECC. -/
def execHarnessBurst (t : Fin 30) (b : BurstReqs) (s : State) : Res :=
  .next (
    let s1 := harnessBurst t (b.reqs.filter (BurstReq.atTarget t)) s
    if t = 29 then s1 else eccReport (targetMemory t) b.ecc s1)

/-- The word of HRN_WAITMAX_t. -/
def waitMaxWord (h : HrnTarget) : Word := pack [(h.waitPort, 24), (h.waitMax, 0)]

/-- A read of HRN_WAITMAX_t returns the longest wait and its port, and clears them (R84). -/
def waitMaxRead (t : Nat) (s : State) : State :=
  let h := s.app.hrn.get t
  busOk (waitMaxWord h) { s with app.hrn := s.app.hrn.set t { h with waitMax := 0, waitPort := 0 } }

/-- HRN_WAITMAX_READ (R84). -/
def execHrnWaitmaxRead (t : Fin 30) (s : State) : Res := .next (waitMaxRead t s)

end Sys2Proof.Machine
end

