-- ==== Sys2Proof/Machine/Journal.lean ====
section
/-!
DEFINITION. The persistence journal in the flash (06 R129 to R132): staging, batches, their programming into area A
and then area B, compaction, and the reading of both areas at a start.
-/
set_option Elab.async false
namespace Sys2Proof.Machine

/-! ### Sizes (R130, 16 R410) -/

/-- The bytes of a record: 14 of head, the value, padding to a multiple of 4, the CRC. -/
def recSize (r : JRec) : Nat :=
  let n := (r.2.getD []).length
  14 + n + (4 - (14 + n) % 4) % 4 + 4

/-- The bytes of records. -/
def recsSize (l : List JRec) : Nat := (l.map recSize).sum

/-- The bytes of a record with batch number `num` (R130): marker, number, index, subindex, flags, length, value, padding and
CRC. -/
def recImage (num : Nat) (r : JRec) : List Byte :=
  let v := r.2.getD []
  let body := toLE 4 0x4A524E4B ++ toLE 4 num ++ toLE 2 (r.1 / 256) ++ toLE 1 (r.1 % 256) ++
    [if r.2.isNone then 1#8 else 0#8] ++ toLE 2 v.length ++ v ++ List.replicate ((4 - (14 + v.length) % 4) % 4) 0#8
  body ++ toLE 4 (crc32 body).toNat

/-- The size of an area. -/
def areaSize : Nat := 0x100000

/-- Bytes accepted and not yet in copy A (8002h.01). -/
def State.stagedBytes (s : State) : Nat :=
  recsSize s.app.journal.staged + ((s.app.journal.batches.filter (·.area = 0)).map fun b => recsSize b.recs).sum

/-- A persistent write is BUSY if it would raise the staged bytes above 65 536 (R129). -/
def State.journalFull (s : State) (r : JRec) : Bool := decide (65536 < s.stagedBytes + recSize r)

/-- A record accepted. -/
def stageRec (r : JRec) (s : State) : State := { s with app.journal.staged := s.app.journal.staged ++ [r] }

/-! ### Areas (R131) -/

/-- An area of the flash: 0 A, 1 B. -/
def State.area (s : State) (k : Nat) : Area := if k = 0 then s.flash.a else s.flash.b

/-- Changing an area. -/
def setArea (k : Nat) (a : Area) (s : State) : State :=
  if k = 0 then { s with flash.a := a } else { s with flash.b := a }

/-- A record programmed. -/
def Area.put (num : Nat) (a : Area) (r : JRec) : Area :=
  { recs := a.recs.set r.1 (some (num, r.2)), used := a.used + recSize r, image := a.image ++ recImage num r }

/-- An area erased and rewritten with the current value of every entry it holds (R131). -/
def Area.compacted (a : Area) : Area :=
  { a with used := recsSize (a.recs.cells.map fun c => (c.1, (c.2.bind fun x => x.2))),
           image := (a.recs.cells.map fun c => recImage ((c.2.map (·.1)).getD 0) (c.1, (c.2.bind fun x => x.2))).flatten }

/-- An area with less than 8 KB free is compacted before the next batch. -/
def Area.short (a : Area) : Bool := decide (areaSize - a.used < 8192)

/-- A Girth grant of kind 8 of Cantle 0 is in force under a ticket. -/
def State.flashGrant (s : State) (ticket : Nat) : Bool :=
  ticket ≠ 0 && s.app.girth.grants.any fun g => g.ticket = ticket && g.port = 0 && g.kind = 8

/-! ### Batches (R131) -/

/-- The oldest batch asks Girth for its program, by Cantle 0; where its area is short, for the compaction before it. A BUSY
request is repeated later. -/
def batchRequest (s : State) : State :=
  match s.app.journal.batches with
  | [] => s
  | b :: r =>
    if b.ticket ≠ 0 || s.app.journal.compact.isSome then s
    else
      let g := girthSubmit 0 none 8 0 0 s
      let k := (g.2.app.girth.ports.get 0).ticket
      if g.1 ≠ .ok then g.2
      else if (s.area b.area).short then { g.2 with app.journal.compact := some (b.area, k) }
      else { g.2 with app.journal.batches := { b with ticket := k } :: r }

/-- The batch closes with the next number; nothing is staged, nothing closes. -/
def batchClose (s : State) : State :=
  let s1 : State :=
    if s.app.journal.staged.isEmpty then s
    else
      let n := s.flash.lastNo + 1
      { s with flash.lastNo := n,
               app.journal.staged := [],
               app.journal.batches := s.app.journal.batches ++ [{ num := n, recs := s.app.journal.staged }] }
  batchRequest s1

/-- JOURNAL_BATCH_CLOSE (R131): each commit period, or a save. -/
def execJournalBatchClose (_save : Bool) (s : State) : Res := .next (if s.app.server.ready then batchClose s else s)

/-- An area has been erased and rewritten. -/
def areaCompacted (k ticket : Nat) (s : State) : State :=
  let s1 := girthRelWrite 0 (BitVec.ofNat 32 ticket) (setArea k (s.area k).compacted s)
  { s1 with app.journal.compact := none, flash.compactions := stick (2 ^ 32 - 1) s1.flash.compactions 1 }

/-- The program of the oldest batch has completed in its area: A first, then B, then the batch is in both. -/
def batchProgrammed (s : State) : State :=
  match s.app.journal.batches with
  | [] => s
  | b :: r =>
    if !s.flashGrant b.ticket then s
    else
      let s1 := girthRelWrite 0 (BitVec.ofNat 32 b.ticket) (setArea b.area (b.recs.foldl (Area.put b.num) (s.area b.area)) s)
      let s2 : State :=
        if b.area = 0 then { s1 with app.journal.batches := { b with area := 1, ticket := 0 } :: r }
        else { s1 with app.journal.batches := r, flash.both := b.num }
      batchRequest s2

/-- A flash operation of the journal has completed: the compaction asked for first, else the program. -/
def journalDone (s : State) : State :=
  match s.app.journal.compact with
  | some (a, k) => if s.flashGrant k then batchRequest (areaCompacted a k s) else s
  | none => batchProgrammed s

/-- XSPI_OPERATION_DONE (05 R107): source 482 is the level "operation done", 483 the edge "error". A batch that was
being programmed is in its area; after an error its program is repeated. -/
def execXspiOperationDone (err : Bool) (s : State) : Res :=
  .next (if s.inReset then s
    else
      let s1 := setLevel 482 true s
      if err then raise 483 s1 else journalDone s1)

/-! ### Reading the areas at a start (R131, R132) -/

/-- The newest record of an entry in two areas, and whether it came from area B. -/
def newestRec (a b : Area) (k : Nat) : Option (Option (List Byte) × Bool) :=
  match a.recs.get k, b.recs.get k with
  | some x, some y => some (if x.1 < y.1 then (y.2, true) else (x.2, false))
  | some x, none => some (x.2, false)
  | none, some y => some (y.2, true)
  | none, none => none

/-- The keys of the entries an area holds. -/
def Area.keys (a : Area) : List Nat := a.recs.cells.map (·.1)

/-- An area as it checks at a start: nothing of it, or what is left without the records whose CRC is bad (R131). -/
def Area.good (a : Area) (ok : Bool) (bad : List Nat) : Area :=
  if !ok then {} else { a with recs := bad.foldl (fun t k => t.set k none) a.recs }

/-- The values of the persistent entries at a start: by entry the record with the highest batch number whose CRC is
good; `aOk`, `bOk` and `bad` say which records check. Areas found short or damaged are rewritten. -/
def journalRead (aOk bOk : Bool) (bad : List (Bool × Nat)) (s : State) : State :=
  let a := s.flash.a.good aOk ((bad.filter fun x => !x.1).map (·.2))
  let b := s.flash.b.good bOk ((bad.filter fun x => x.1).map (·.2))
  let keys := a.keys ++ b.keys.filter fun k => !a.keys.contains k
  let pick := fun k => newestRec a b k
  let live := keys.foldl (fun (t : Bank (Option (List Byte))) k => t.set k ((pick k).bind (·.1))) ⟨none, []⟩
  let merged := keys.foldl (fun (t : Area) k =>
    match a.recs.get k, b.recs.get k with
    | some x, some y => t.put (max x.1 y.1) (k, if x.1 < y.1 then y.2 else x.2)
    | some x, none => t.put x.1 (k, x.2)
    | none, some y => t.put y.1 (k, y.2)
    | none, none => t) ({} : Area)
  let fromB := (keys.filter fun k => ((pick k).map (·.2)).getD false).length
  let done := fun (t : Area) => decide (t.recs = merged.recs)
  let s1 := { s with obj.live := live, app.server.fromB := stick 65535 fromB 0 }
  let s2 := if done s.flash.a && aOk then s1 else setArea 0 merged s1
  if done s.flash.b && bOk then s2 else setArea 1 merged s2

/-- A restore of defaults takes effect (R132): every persistent entry has its default again, recorded as such. -/
def restoreDefaults (s : State) : State :=
  if !s.flash.restore then s
  else
    let keys := s.obj.live.cells.map (·.1)
    { s with obj.live := ⟨none, []⟩, flash.restore := false,
             app.journal.staged := s.app.journal.staged ++ keys.map fun k => (k, none) }

end Sys2Proof.Machine
end

