-- ==== Sys2Proof/Machine/SafRegs.lean ====
section
/-!
DEFINITION. The words of the Bridle's read window (15 R393).
-/
set_option Elab.async false
namespace Sys2Proof.Machine

/-- The word of SAF_STAT. -/
def State.safStat (s : State) : Word :=
  let b := s.bridle
  pack [(b.restarts, 24), (b.cause, 16), (b.slot, 8), (b2n b.unsealed, 7), (b.st.ctorIdx, 0)]

/-- Units whose inputs and outputs are reported: those not declared unfitted (06 R445). -/
def State.fitted (s : State) (k n : Nat) : Bool := !(s.obj.unfit.get k).getLsbD n

/-- The STO outputs reported. -/
def State.stoFitted (s : State) : BitVec 8 := ~~~((s.obj.unfit.get 6).setWidth 8)

/-- The word of SAF_PT_p. -/
def State.safPt (s : State) (p : Nat) : Word :=
  let b := s.bp p
  pack [(b2n b.stopReq, 15), (b.shut, 12), (b2n (b.mirror && s.fitted 11 p), 11), (b2n (s.coilOn p), 10), (b2n b.switchFail, 8),
    (b.hold.toNat, 0)]

/-- The two words of SAF_DEV_d. -/
def State.safDev (s : State) (d i : Nat) : Word :=
  let x := s.device d
  match i with
  | 0 => BitVec.ofInt 32 x.pos
  | 1 => pack [(ofInt 16 x.speed, 16), (x.fcause, 8), (x.st.ctorIdx, 0)]
  | _ => 0

/-- A 16-bit mask of numbers that satisfy `f`. -/
def mask16 (f : Nat → Bool) : Nat := ((List.range 16).map fun i => if f i then 2 ^ i else 0).sum

/-- The word of the read window at an offset; unlisted offsets read 0. -/
def State.safWord (s : State) (o : Nat) : Word :=
  let b := s.bridle
  let n := b.notes.get ((o - 0x400) / 16)
  if within 0x100 o 0x1FC then s.safPt ((o - 0x100) / 4)
  else if within 0x200 o 0x27C then s.safDev ((o - 0x200) / 16) ((o - 0x200) % 16 / 4)
  else if within 0x400 o 0x4FC then
    match (o - 0x400) % 16 / 4 with
    | 0 => pack [(n.seq.toNat, 16), (n.kind, 8), (n.unit, 0)]
    | 1 => n.data
    | 2 => n.time
    | _ => 0
  else match o with
    | 0x000 => s.safStat
    | 0x004 => pack [(b.chal.toNat, 0)]
    | 0x008 => pack [(b.postTag.toNat, 16), (b.postType.toNat, 8), (statusCode b.postSt, 0)]
    | 0x00C => pack [(b2n b.overrun, 31), (b.acked.toNat % 32768, 16), (b.newest.toNat, 0)]
    | 0x300 => pack [(mask16 fun i => (b.si.get i).fault && s.fitted 10 i, 16),
      (mask16 fun i => siActive (b.si.get i) && s.fitted 10 i, 0)]
    | 0x304 => pack [((b.stoFault &&& s.stoFitted).toNat, 8), ((b.stoRel &&& s.stoFitted).toNat, 0)]
    | 0x308 => pack [(b.latched.toNat, 16), (b.running.toNat, 0)]
    | 0x310 => pack [(b.discard, 16), (mask16 fun i => (b.rx.get i).valid, 0)]
    | _ => 0

end Sys2Proof.Machine
end

