-- ==== Sys2Proof/Machine/Tack.lean ====
section
/-!
DEFINITION. The Tack room (16 R395 to R409): key slots, measurements, fuses. Girth requests of kinds 7, 8 and 10
that a command places through port 14 are granted and released within it (assumption 51).
-/
set_option Elab.async false
namespace Sys2Proof.Machine

/-! ### Attribute words (R406) -/

/-- Fields of the attribute word. -/
def KeySlot.parent (k : KeySlot) : Nat := fld k.attr 24 8
def KeySlot.role (k : KeySlot) : Nat := fld k.attr 16 8
def KeySlot.type (k : KeySlot) : Nat := fld k.attr 12 4
def KeySlot.cls (k : KeySlot) : Nat := fld k.attr 8 4
def KeySlot.bind (k : KeySlot) : Bool := bit k.attr 7
def KeySlot.persist (k : KeySlot) : Bool := bit k.attr 6
def KeySlot.lock (k : KeySlot) : Bool := bit k.attr 5
def KeySlot.orphan (k : KeySlot) : Bool := bit k.attr 4
def KeySlot.use (k : KeySlot) (i : Nat) : Bool := bit k.attr i

/-- A slot that holds nothing. -/
def KeySlot.isEmpty (k : KeySlot) : Bool := k.type = 0

/-- CLASS and ROLE as R406 gives them by type: a class only for an anchor, a role only for a Latigo anchor. -/
def attrOk (v : Word) : Bool :=
  let anchor := decide (fld v 12 4 = 10)
  let latigo := anchor && decide (fld v 8 4 = 1)
  (if anchor then within 1 (fld v 8 4) 4 else decide (fld v 8 4 = 0)) &&
    (if latigo then decide (fld v 16 8 ≤ 5) else decide (fld v 16 8 = 0xFF)) && decide (fld v 12 4 ≤ 10)

/-- A type with a private or secret part. -/
def secretType (t : Nat) : Bool := within 1 t 8

/-! ### Slots -/

/-- A slot. -/
def State.slot (s : State) (i : Nat) : KeySlot := s.app.tack.slots.get i

/-- The Tack room runs: it serves commands (R408). -/
def State.tackUp (s : State) : Bool := decide (2 ≤ s.app.tack.st) && !s.inReset

/-- One pass of the orphan rule (R407): a child whose parent has another generation, or is an orphan, is one. -/
def orphanPass (b : Bank KeySlot) : Bank KeySlot :=
  (b.cells.map (·.1)).foldl (fun b i =>
    let k := b.get i
    let p := b.get k.parent
    if k.parent = 0xFF || k.isEmpty then b
    else if p.gen ≠ k.pgen || p.orphan then b.set i { k with attr := setEvt k.attr 4 } else b) b

/-- Orphans of every generation: each pass reaches one deeper, and there are 128 slots. -/
def orphanAll : Nat → Bank KeySlot → Bank KeySlot
  | 0, b => b
  | n + 1, b => let c := orphanPass b; if c = b then b else orphanAll n c

/-- The slots kept in the wrap set (R406). -/
def persistOf (b : Bank KeySlot) : Bank KeySlot :=
  b.cells.foldl (fun (a : Bank KeySlot) c => if c.2.persist || (c.2.isEmpty && decide (c.2.gen ≠ 0)) then a.set c.1 c.2 else a) ⟨{}, []⟩

/-- The wrap set the Tack room works on: the directory's, in a trial the successor's (R398, R413). -/
def State.activeWrap (s : State) : Nat := if s.sec.upd.st = .trial then 1 - s.sec.dir.wrap else s.sec.dir.wrap

/-- Writing the slots, and the wrap set with them. -/
def putSlots (b : Bank KeySlot) (s : State) : State :=
  let b := orphanAll 128 b
  let s1 := { s with app.tack.slots := b }
  { s1 with sec.wrap := s1.sec.wrap.upd s.activeWrap fun w => { w with slots := persistOf b } }

/-- A new content in a slot: the generation rises (R406). -/
def putSlot (i : Nat) (k : KeySlot) (s : State) : State :=
  let g := stick 65535 (s.slot i).gen 1
  putSlots (s.app.tack.slots.set i { k with gen := g, attr := k.attr &&& ~~~(0x10 : Word) }) s

/-- The reply in pair mailbox 11 (R408): command, slot and status in word 0 (assumption 49). -/
def tackReply (cmd slot : Nat) (st : Status) (s : State) : State :=
  (pairPut 11 [pack [(cmd, 0), (slot, 8), (statusCode st, 16)], 0, 0, 0, 0, 0, 0, 0] s).2

/-- A command of R408: served while the Tack room runs, under the Girth kinds its work needs (04 R87), answered with its
status. A public-key operation of Awl is kind 7, a derivation or a fuse word kind 10, a write of the wrap set kind 8. -/
def tackServe (cmd slot : Nat) (kinds : List Nat) (f : State → Status × State) (s : State) : State :=
  if s.tackUp then let r := underGrants 14 kinds f s; tackReply cmd slot r.1 r.2 else s

/-- A secret or private key is used: not after decommissioning (R397). -/
def State.secretsOff (s : State) : Bool := s.fuses.decom

/-! ### Who may write a slot (R405, R409) -/

/-- A role that the fuses leave present (R12, R396); after decommissioning only Public stays (R397). -/
def State.rolePresent (s : State) (r : Role) : Bool :=
  r = .firmware || (!s.fuses.roleOff.getLsbD (roleBit r) && (!s.fuses.decom || r = .pub))

/-- The role that may write or delete an anchor or certificate (R409). -/
def anchorRole (attr : Word) (r : Role) : Bool :=
  if fld attr 12 4 = 10 && fld attr 8 4 = 1 then
    let a := fld attr 16 8
    (r = .operator && decide (a ≤ 3)) || (r = .verifier && a = 4) || (r = .manufacturer && a = 5)
  else r = .operator

/-- Whether a slot can take a new content from a role: reserved slots are ABSENT (R405), a role fused off is refused (00
R3, R12), LOCK needs the Manufacturer (R406), slots 16 to 47 follow R409, a generation at its limit refuses (17 R423). -/
def State.slotWritable (s : State) (i : Nat) (r : Role) : Status :=
  let k := s.slot i
  if 128 ≤ i || within 8 i 15 then .absent
  else if !s.rolePresent r then .denied
  else if (k.lock || decide (i < 8)) && r ≠ .manufacturer then .denied
  else if within 16 i 47 && !k.isEmpty && !anchorRole k.attr r then .denied
  else if k.gen = 65535 then .limit
  else .ok

/-- An orphan can only be deleted: nothing takes its slot before (R407). -/
def State.slotFillable (s : State) (i : Nat) (r : Role) : Status :=
  let st := s.slotWritable i r
  if (st = .ok || st = .limit) && (s.slot i).orphan then .stale else st

/-! ### Commands 01h to 08h (R408) -/

/-- GENERATE: a key without a parent, of a secret type, outside the slots for anchors and certificates. -/
def tackGenerate (i : Nat) (attr : Word) (s : State) : Status × State :=
  let st := s.slotFillable i .firmware
  if st = .absent || st = .denied then (st, s)
  else if s.secretsOff then (.state, s)
  else if within 16 i 47 || !attrOk attr || !secretType (fld attr 12 4) || fld attr 24 8 ≠ 0xFF then (.range, s)
  else if st ≠ .ok then (st, s)
  else
    let c := (List.range 66).map fun k => (s.freeBits 1056).extractLsb' (8 * k) 8
    let s1 := s.used
    let pub := if fld attr 12 4 = 3 || within 3 (fld attr 12 4) 7 then
      (List.range 97).map fun k => (s1.freeBits 1056).extractLsb' (8 * k) 8 else []
    (.ok, putSlot i { attr := attr, content := c, pub := pub } s1.used)

/-- A key of the field role: 16 to 47 hold anchors and certificates only. -/
def importKind (i t : Nat) : Bool := if within 16 i 47 then t = 9 || t = 10 else t ≠ 0

/-- IMPORT: a certificate or anchor, or a key wrapped under its parent (R407, R408). -/
def tackImport (i : Nat) (attr : Word) (data : Option (List Byte)) (r : Role) (unwrapOk : Bool) (s : State) :
    Status × State :=
  let st := s.slotFillable i r
  let t := fld attr 12 4
  let p := fld attr 24 8
  let par := s.slot p
  if st = .absent || st = .denied then (st, s)
  else if within 16 i 47 && !anchorRole attr r then (.denied, s)
  else if secretType t && s.secretsOff then (.state, s)
  else if !attrOk attr || !importKind i t then (.range, s)
  else match data with
    | none => (.range, s)
    | some d =>
      if secretType t then
        if par.isEmpty || decide (128 ≤ p) then (.absent, s)
        else if !par.use 3 then (.denied, s)
        else if par.orphan then (.stale, s)
        else if par.type ≠ 1 || (par.bind && !bit attr 7) then (.range, s)
        else if !unwrapOk then (.integrity, s)
        else if st ≠ .ok then (st, s)
        else (.ok, putSlot i { attr := attr, pgen := par.gen, content := d } s)
      else if p ≠ 0xFF || 4096 < d.length then (.range, s)
      else if st ≠ .ok then (st, s)
      else (.ok, putSlot i { attr := attr, pub := d } s)

/-- Bytes of a buffer the Tack room reaches through port 14 (05 R105). -/
def State.tackBuf (s : State) (a n : Nat) : Option (List Byte) :=
  if n = 0 then some [] else if s.reaches 14 a n false then some (s.bytes a n) else none

/-- The length of a key of a type (R406), in bits. -/
def keyBits (t : Nat) : Nat :=
  match t with
  | 1 | 3 => 256
  | 2 | 4 => 384
  | 5 => 528
  | 6 => 448
  | 7 => 456
  | 8 => 128
  | _ => 0

/-- DERIVE: a child of a parent with USE bit 2 (R407), by the KDF of R400 under the parent's key with the label given
and an empty context (assumption 49). -/
def tackDerive (i p : Nat) (label : Option (List Byte)) (attr : Word) (s : State) : Status × State :=
  let st := s.slotFillable i .firmware
  let par := s.slot p
  if st = .absent || st = .denied then (st, s)
  else if par.isEmpty || decide (128 ≤ p) then (.absent, s)
  else if !par.use 2 then (.denied, s)
  else if s.secretsOff then (.state, s)
  else if par.orphan then (.stale, s)
  else match label with
    | none => (.range, s)
    | some l =>
      if within 16 i 47 || !attrOk attr || !secretType (fld attr 12 4) || (par.bind && !bit attr 7) then (.range, s)
      else if st ≠ .ok then (st, s)
      else
        (.ok, putSlot i { attr := putFld attr 24 8 p, pgen := par.gen,
                          content := kdf par.content l [] (keyBits (fld attr 12 4)) } s)

/-- DELETE: the slot is emptied, its children become orphans (R407). -/
def tackDelete (i : Nat) (r : Role) (s : State) : Status × State :=
  let st := s.slotWritable i r
  if st = .absent || st = .denied then (st, s)
  else if (s.slot i).isEmpty then (.absent, s)
  else (.ok, putSlot i {} s)

/-- A use of a slot: present, granted by USE bit `u`, not an orphan, and no secret after decommissioning. -/
def State.slotUse (s : State) (i u : Nat) (secret : Bool) : Status :=
  let k := s.slot i
  if 128 ≤ i || k.isEmpty then .absent
  else if !k.use u then .denied
  else if secret && s.secretsOff then .state
  else if k.orphan then .stale
  else .ok

/-- Writing an answer into a buffer the Tack room reaches. -/
def tackPut (a : Nat) (l : List Byte) (s : State) : Status × State :=
  if s.mayStore 14 a l.length then (.ok, memPuts a l s) else (.range, s)

/-- PUBLIC. -/
def tackPublic (i a : Nat) (s : State) : Status × State :=
  let k := s.slot i
  if 128 ≤ i || k.isEmpty then (.absent, s)
  else if k.orphan then (.stale, s)
  else if k.pub.isEmpty then (.ok, s)
  else tackPut a k.pub s

/-- SIGN: the digest at the address, and the signature in its place (assumption 49). -/
def tackSign (i a : Nat) (s : State) : Status × State :=
  match s.slotUse i 0 true with
  | .ok =>
    match s.tackBuf a 48 with
    | none => (.range, s)
    | some d => tackPut a (signature (BitVec.ofNat 384 (ofLE (s.slot i).content)) (BitVec.ofNat 384 (ofLE d))) s
  | st => (st, s)

/-- VERIFY. -/
def tackVerify (i a : Nat) (good : Bool) (s : State) : Status × State :=
  match s.slotUse i 1 false with
  | .ok => if (s.tackBuf a 48).isNone then (.range, s) else (if good then .ok else .integrity, s)
  | st => (st, s)

/-- AGREE: the shared secret in the place of the peer key, a free value (assumption 49). -/
def tackAgree (i a : Nat) (s : State) : Status × State :=
  match s.slotUse i 2 true with
  | .ok =>
    if (s.tackBuf a 48).isNone then (.range, s)
    else tackPut a (digestBytes (s.freeBits 384)) s.used
  | st => (st, s)

/-- The flash program that a change of a slot needs: the wrap set holds the slots with PERSIST 1 (R408). -/
def wrapKinds (persist : Bool) : List Nat := if persist then [8] else []

/-- GENERATE (R408). -/
def execGenerate (slot : BitVec 8) (attr : Word) (s : State) : Res :=
  .next (tackServe 1 slot.toNat ([7] ++ wrapKinds (bit attr 6)) (tackGenerate slot.toNat attr) s)

/-- IMPORT (R408). -/
def execImportKey (slot : BitVec 8) (attr : Word) (addr len : Nat) (role : Role) (unwrapOk : Bool) (s : State) : Res :=
  .next (tackServe 2 slot.toNat (wrapKinds (bit attr 6))
    (fun s => tackImport slot.toNat attr (if 4096 < len then none else s.tackBuf addr len) role unwrapOk s) s)

/-- DERIVE (R408). -/
def execDerive (slot parent : BitVec 8) (labelAddr labelLen : Nat) (attr : Word) (s : State) : Res :=
  .next (tackServe 3 slot.toNat ([10] ++ wrapKinds (bit attr 6)) (fun s => tackDerive slot.toNat parent.toNat
    (if 4096 < labelLen then none else s.tackBuf labelAddr labelLen) attr s) s)

/-- DELETE (R408). -/
def execDelete (slot : BitVec 8) (role : Role) (s : State) : Res :=
  .next (tackServe 4 slot.toNat (wrapKinds (s.slot slot.toNat).persist) (tackDelete slot.toNat role) s)

/-- PUBLIC (R408). -/
def execPublicKey (slot : BitVec 8) (addr : Word) (s : State) : Res :=
  .next (tackServe 5 slot.toNat [] (tackPublic slot.toNat addr.toNat) s)

/-- SIGN (R408). -/
def execSign (slot : BitVec 8) (addr : Word) (s : State) : Res :=
  .next (tackServe 6 slot.toNat [7] (tackSign slot.toNat addr.toNat) s)

/-- VERIFY (R408). -/
def execVerify (slot : BitVec 8) (addr : Word) (good : Bool) (s : State) : Res :=
  .next (tackServe 7 slot.toNat [7] (tackVerify slot.toNat addr.toNat good) s)

/-- AGREE (R408). -/
def execAgree (slot : BitVec 8) (addr : Word) (s : State) : Res :=
  .next (tackServe 8 slot.toNat [7] (tackAgree slot.toNat addr.toNat) s)

/-! ### Measurements (R73, R399) -/

/-- A measurement of `h` into register k, and the LOADED flag of the engine whose register it is. -/
def measureInto (k : Nat) (h : BitVec 384) (s : State) : State :=
  let s1 := if k = 13 || k = 14 then { s with coldMr := s.coldMr.upd k fun m => mrExtend m h }
    else { s with app.tack.mr := s.app.tack.mr.upd k fun m => mrExtend m h }
  if k = 4 then { s1 with app.clk.loaded := putBit s1.app.clk.loaded 8 true }
  else if within 5 k 12 then { s1 with app.clk.loaded := putBit s1.app.clk.loaded (k - 5) true }
  else if k = 13 then { s1 with bridle.loaded := true }
  else s1

/-- A value of a measurement register. -/
def State.mrOf (s : State) (k : Nat) : BitVec 384 := if k = 13 || k = 14 then s.coldMr.get k else s.app.tack.mr.get k

/-- MEASURE: registers 4 to 15 by number (assumption 49); the Tack room reaches what it measures through the crypto
port (05 R105). -/
def tackMeasure (k a n : Nat) (s : State) : Status × State :=
  if !within 4 k 15 || decide (0x800000 < n) || !s.reads 15 (regionOf a) then (.range, s)
  else (.ok, measureInto k (Config.sha384 (s.bytes a n)) s)

/-- MEASURE (R408). -/
def execMeasure (unit : BitVec 8) (addr len : Nat) (s : State) : Res :=
  .next (tackServe 9 unit.toNat [] (tackMeasure unit.toNat addr len) s)

/-- RANDOM: up to 256 bytes, free values. -/
def tackRandom (a n : Nat) (s : State) : Status × State :=
  if 256 < n then (.range, s)
  else tackPut a ((List.range n).map fun k => (s.freeBits 2048).extractLsb' (8 * k) 8) s.used

/-- RANDOM (R408). -/
def execRandom (addr : Word) (len : Nat) (s : State) : Res :=
  .next (tackServe 12 0 [] (tackRandom addr.toNat len) s)

/-! ### Successor keys (R413) -/

/-- The hash of a component of a list, if it has it. -/
def compHash (l : List Component) (id : Nat) : Option (BitVec 384) := (l.find? (·.id = id)).map (·.hash)

/-- A register that follows from a component's hash (R399): the present value where the manifest leaves it out. -/
def State.mrAfter (s : State) (k id : Nat) (l : List Component) : BitVec 384 :=
  match compHash l id with
  | some h => mrExtend 0 h
  | none => s.mrOf k

/-- The slots with PERSIST 1 wrapped for measurements into the wrap set not in use, with the next sequence. -/
def rewrap (mr0 mr2 mr3 : BitVec 384) (s : State) : State :=
  let o := 1 - s.sec.dir.wrap
  let n := (s.sec.wrap.get s.sec.dir.wrap).seq + 1
  let w : WrapSet :=
    { seq := n, under := some (wrapKeys s.fuses.huk mr0 mr2 mr3 n), slots := persistOf s.app.tack.slots }
  { s with sec.wrap := s.sec.wrap.set o w }

/-- The successor wrap set of a manifest (R413). -/
def successorWrite (m : Manifest) (s : State) : State :=
  rewrap (s.mrOf 0) (s.mrAfter 2 1 m.comps) (s.mrAfter 3 2 m.comps) s

/-- The wrap set not in use is erased. -/
def eraseSpare (s : State) : State :=
  let w : WrapSet := {}
  { s with sec.wrap := s.sec.wrap.set (1 - s.sec.dir.wrap) w }

/-- SUCCESSOR: only for a manifest that passed R412 in the present update. -/
def tackSuccessor (s : State) : Status × State :=
  if s.secretsOff then (.state, s)
  else match s.sec.upd.man, s.sec.upd.st with
    | some m, .prepared => (.ok, successorWrite m s)
    | some m, .copying => (.ok, successorWrite m s)
    | some m, .written => (.ok, successorWrite m s)
    | _, _ => (.state, s)

/-- SUCCESSOR (R413). -/
def execSuccessor (_addr : Word) (s : State) : Res := .next (tackServe 10 0 [8] tackSuccessor s)

/-! ### Fuses (R397, R398) -/

/-- Debug-off bits may be blown only through R398: the slots re-wrapped first for the bytes as they will read. -/
def fuseDebug (v : BitVec 384) (s : State) : Status × State :=
  if v &&& ~~~(0x3B : BitVec 384) ≠ 0 then (.range, s)
  else if s.sec.upd.st ≠ .idle then (.state, s)
  else
    let d := s.fuses.dbg ||| v.setWidth 6
    let s1 := rewrap (mr0Of s.fuses d) (s.mrOf 2) (s.mrOf 3) s
    (.ok, { s1 with fuses.dbg := d })

/-- The next free safety-digest slot takes the digest of the staged configuration (R397). -/
def fuseSafe (v staged : BitVec 384) (s : State) : Status × State :=
  if v ≠ staged then (.range, s)
  else match (List.range 4).find? fun k => s.fuses.safe.get k = 0 with
    | none => (.limit, s)
    | some k => (.ok, { s with fuses.safe := s.fuses.safe.set k v })

/-- SHA-384 of the staged safety configuration, 6900h.03 (15 R394). -/
def State.stagedDigest (s : State) : BitVec 384 := Config.sha384 (s.oval 0x6900 1)

/-- FUSE: what R397 allows in the field. SVN and revocations are the loader's at a confirmation, decommissioning is
the two roles'; other fields are RANGE. -/
def tackFuse (f : FuseField) (v : BitVec 384) (s : State) : Status × State :=
  match f with
  | .dbg => fuseDebug v s
  | .safe => fuseSafe v s.stagedDigest s
  | .decom => (.denied, s)
  | .svn => (.denied, s)
  | .rrev => (.denied, s)
  | .other => (.range, s)

/-- FUSE (R397, R408). -/
def execFuse (field : FuseField) (v : BitVec 384) (s : State) : Res := .next (tackServe 13 0 (if field = .dbg then [8, 10] else [10]) (tackFuse field v) s)

/-- A decommission write: the second of the two roles within 600 s programs DECOM (R397). -/
def decommission (r : Role) (v : Word) (s : State) : Status × State :=
  if !s.rolePresent r || !(r = .operator || r = .verifier) then (.denied, s)
  else if s.fuses.decom || s.openCount ≠ 0 then (.state, s)
  else if v ≠ 0x444D4F43 then (.range, s)
  else match s.app.tack.decomBy with
    | some (r0, t) =>
      if r0 ≠ r && decide (s.ht ≤ t + 600000000000) then
        (.ok, { s with fuses.decom := true, app.tack.decomBy := none, app.tack.st := 3 })
      else (.ok, { s with app.tack.decomBy := some (r, s.ht) })
    | none => (.ok, { s with app.tack.decomBy := some (r, s.ht) })

/-- DECOMMISSION (R397): 7001h.02 over Latigo. -/
def execDecommission (role : Role) (v : Word) (s : State) : Res :=
  .next (if s.tackUp then (decommission role v s).2 else s)

/-! ### Registers (16) -/

/-- Slots in use and orphans. -/
def State.slotCount (s : State) (f : KeySlot → Bool) : Nat :=
  (s.app.tack.slots.cells.filter fun c => !c.2.isEmpty && f c.2).length

/-- The word of TKR_STAT. -/
def State.tackStat (s : State) : Word :=
  pack [(s.slotCount fun _ => true, 16), (s.slotCount KeySlot.orphan, 8), (s.activeWrap, 3),
    (b2n (s.sec.wrap.get (1 - s.sec.dir.wrap)).under.isSome, 2), (s.app.tack.st, 0)]

/-- Word i of TKR_MR_k. -/
def State.mrWord (s : State) (k i : Nat) : Word :=
  BitVec.ofNat 32 (ofLE (((digestBytes (s.mrOf k)).drop (4 * i)).take 4))

/-- The word of LDR_TRIAL. -/
def State.trialWord (s : State) : Word :=
  pack [(b2n s.trial.active, 31), (b2n s.trial.expired, 30), (s.trial.remain, 0)]

end Sys2Proof.Machine
end

