-- ==== Sys2Proof/Machine/Update.lean ====
section
/-!
DEFINITION. Replacing the firmware (16 R410 to R421): manifests, blocks, rollback, handover, confirmation and what
the loader does at a start. A flash keeps what was programmed into it, so a journal slot always matches (R418).
-/
set_option Elab.async false
namespace Sys2Proof.Machine

/-- Changing the update. -/
def State.updUpd (s : State) (f : Update → Update) : State := { s with sec.upd := f s.sec.upd }

/-- A log record with a block's hash (R415). -/
def upLogHash (k : LogKind) (blk aux : Nat) (h : BitVec 384) (s : State) : State :=
  s.updUpd fun u => { u with log := ⟨k, blk, aux, h⟩ :: u.log }

/-- A log record of no block's hash. -/
def upLog (k : LogKind) (blk aux : Nat) (s : State) : State := upLogHash k blk aux 0 s

/-- A block of the image region programmed (R414). -/
def imageSet (b : Nat) (h : BitVec 384) (s : State) : State := { s with sec.image := s.sec.image.set b h }

/-! ### Checks of a manifest (R412) -/

/-- Maximum length of a component (R411). -/
def compMax (id : Nat) : Nat :=
  if id = 2 then 0x800000 else if within 4 id 12 then 0x20000 else 0x40000

/-- A component within its limits and within the image region; the loader's offset is ignored (R411). -/
def compOk (c : Component) : Bool :=
  within 1 c.id 13 && decide (c.length ≤ compMax c.id) &&
    (c.id = 13 || (decide (c.offset % 65536 = 0) && decide (c.offset + c.length ≤ 0xC00000)))

/-- Two components that do not overlap in the image region. -/
def compApart (a b : Component) : Bool :=
  a.id = 13 || b.id = 13 || decide (a.offset + a.length ≤ b.offset) || decide (b.offset + b.length ≤ a.offset)

/-- Components unique, aligned, within their limits and not overlapping (R412). -/
def compsOk : List Component → Bool
  | [] => true
  | c :: r => compOk c && r.all (fun d => decide (d.id ≠ c.id) && compApart c d) && compsOk r

/-- Revocations leave the signer's own root and at least one (R412). -/
def revokeOk (rrev revoke : BitVec 4) (signer : Fin 4) : Bool :=
  !revoke.getLsbD signer && decide (rrev ||| revoke ≠ 15)

/-- The FUS_ROOT_k that a signer's key hashes to (R395, R412). -/
def State.signerRoot (s : State) (m : Manifest) : Option (Fin 4) :=
  ([0, 1, 2, 3] : List (Fin 4)).find? fun k => s.fuses.root.get k.val = m.signer && !s.fuses.rrev.getLsbD k

/-- The checks of R412, in order. -/
def State.manifestStatus (s : State) (role : Role) (latigo : Bool) (m : Manifest) : Status :=
  if !latigo || !s.rolePresent role || !(role = .operator || role = .service) then .denied
  else if s.sec.upd.st ≠ .idle then .state
  else if !m.formOk || !within 1 m.comps.length 13 then .range
  else match s.signerRoot m with
    | none => .denied
    | some k =>
      if !m.sigOk then .integrity
      else if m.svn < s.fuses.svn then .stale
      else if m.raiseFloor && 64 < m.svn then .range
      else if !compsOk m.comps || !revokeOk s.fuses.rrev m.revoke k then .range
      else if !m.blockHashesAgree then .integrity
      else .ok

/-- The hash a manifest gives a block; 0 where its table has 0. -/
def blockHashOf (m : Manifest) (b : Nat) : BitVec 384 := ((m.blockHash.find? fun c => c.1.val = b).map (·.2)).getD 0

/-- The hash of a block of the image region as it was before the present update: a saved block's stands in its journal
slot. -/
def State.blockWas (s : State) (b : Nat) : BitVec 384 :=
  if s.sec.upd.saved.contains b then s.sec.upd.journal.get b else s.sec.image.get b

/-- The changed blocks in ascending order (R414). -/
def State.manifestBlocks (s : State) (m : Manifest) : List Nat :=
  (List.range 192).filter fun b => s.blockWas b ≠ blockHashOf m b

/-- The preparation (R414): START, the successor wrap set, PREPARED; with no changed block nothing is left to write. -/
def updatePrepare (m : Manifest) (s : State) : State :=
  let s1 := s.updUpd fun u => { num := u.num + 1, st := .prepared, man := some m, log := [⟨.start, 0xFFFF, 0, 0⟩], prev := u.log }
  let s2 := successorWrite m s1
  if (s.manifestBlocks m).isEmpty then upLog .allWritten 0xFFFF 0 (s2.updUpd fun u => { u with st := .written }) else s2

/-- A manifest written to 7040h.01. -/
def manifestAccept (role : Role) (latigo : Bool) (m : Manifest) (s : State) : Status × State :=
  let st := s.manifestStatus role latigo m
  let st' : Status := if st = .ok && s.secretsOff then .state else st
  let s1 := { s with app.tack.lastSt := st' }
  (st', if st' = .ok then updatePrepare m s1 else s1)

/-- MANIFEST_ACCEPT (R412). -/
def execManifestAccept (role : Role) (latigo : Bool) (m : Manifest) (s : State) : Res :=
  .next (if s.inReset then s
    else
      let r := underGrants 14 [7, 8] (manifestAccept role latigo m) s
      { r.2 with app.tack.lastSt := r.1 })

/-! ### Rollback (R416, R418) -/

/-- A block restored from its journal slot: RESTORED (R418). -/
def restoreBlock (b : Nat) (s : State) : State :=
  let h := s.sec.upd.journal.get b
  upLogHash .restored b (s.sec.upd.saved.idxOf b) h (imageSet b h s)

/-- Every SAVED block is restored, in descending order of block. -/
def restoreAll (s : State) : State :=
  let l := ((List.range 192).filter fun b => s.sec.upd.saved.contains b).reverse
  (l.foldl (fun t b => restoreBlock b t) s).updUpd fun u => { u with saved := [], written := [] }

/-- The update ends without the new image: ROLLEDBACK, the successor wrap set erased, IDLE. -/
def updateUndone (s : State) : State :=
  eraseSpare ((upLog .rolledBack 0xFFFF 0 s).updUpd fun u => { u with st := .idle, man := none, count := 0 })

/-- The rollback with the application reset that ends it. -/
def rollback (s : State) : State := appReset 5 (updateUndone (restoreAll s))

/-! ### Blocks (R414) -/

/-- The next block expected: the first changed one not written (7040h.07). -/
def State.nextBlock (s : State) : Option Nat :=
  match s.sec.upd.man, s.sec.upd.st with
  | some m, .prepared => (s.manifestBlocks m).find? fun b => !s.sec.upd.written.contains b
  | some m, .copying => (s.manifestBlocks m).find? fun b => !s.sec.upd.written.contains b
  | _, _ => none

/-- The hash the present manifest gives a block. -/
def State.blockWanted (s : State) (b : Nat) : BitVec 384 := match s.sec.upd.man with | some m => blockHashOf m b | none => 0

/-- A block delivered (R414): a wrong hash refuses it, and it may be sent again; a failure after programming, or of
the components after the last block, rolls back. -/
def updateBlock (b : BlockData) (s : State) : Status × State :=
  if s.sec.upd.st ≠ .prepared && s.sec.upd.st ≠ .copying then (.state, s)
  else if s.nextBlock ≠ some b.blk then (.range, s)
  else if b.hash ≠ s.blockWanted b.blk then (.integrity, s)
  else
    let j := s.sec.upd.written.length
    let old := s.sec.image.get b.blk
    let s1 := imageSet b.blk b.readBack (upLogHash .saved b.blk j old (s.updUpd fun u =>
      { u with st := .copying, saved := u.saved ++ [b.blk], journal := u.journal.set b.blk old }))
    if b.readBack ≠ b.hash then (.integrity, rollback s1)
    else
      let s2 := upLogHash .written b.blk j b.hash (s1.updUpd fun u => { u with written := u.written ++ [b.blk] })
      if s2.nextBlock.isSome then (.ok, s2)
      else if b.compsOk then (.ok, upLog .allWritten 0xFFFF 0 (s2.updUpd fun u => { u with st := .written }))
      else (.integrity, rollback s2)

/-- UPDATE_BLOCK (R414). -/
def execUpdateBlock (b : BlockData) (s : State) : Res :=
  .next (if s.inReset then s
    else let r := underGrants 14 [8] (updateBlock b) s; { r.2 with app.tack.lastSt := r.1 })

/-! ### Abandon and handover (R416) -/

/-- A write of 7040h.05. -/
def updateAbandon (v : Nat) (s : State) : Status × State :=
  let st := s.sec.upd.st
  if st = .idle || st = .rollback then (.state, s)
  else if v ≠ 1 then (.range, s)
  else (.ok, rollback s)

/-- UPDATE_ABANDON (R416). -/
def execUpdateAbandon (v : BitVec 8) (s : State) : Res :=
  .next (if s.inReset then s else (updateAbandon v.toNat s).2)

/-- A write of 7040h.0A: TRIAL with count 1, and the application reset into the new image. -/
def handover (v : Nat) (s : State) : Status × State :=
  if s.sec.upd.st ≠ .written then (.state, s)
  else if v ≠ 1 then (.range, s)
  else (.ok, appReset 5 (upLog .trial 0xFFFF 1 (s.updUpd fun u => { u with st := .trial, count := 1 })))

/-- HANDOVER (R416). -/
def execHandover (v : BitVec 8) (s : State) : Res := .next (if s.inReset then s else (handover v.toNat s).2)

/-! ### Confirmation (R419) -/

/-- The bit of RST_ENGRUN of a component's engine: the Stitcher 8, REINn n. -/
def compEngine (id : Nat) : Option Nat := if id = 3 then some 8 else if within 4 id 11 then some (id - 4) else none

/-- Every Rein engine and the Stitcher that a manifest names are LOADED and running. -/
def State.enginesUp (s : State) (l : List Component) : Bool :=
  l.all fun c => match compEngine c.id with
    | some e => s.app.clk.loaded.getLsbD e && s.app.clk.run.getLsbD e
    | none => true

/-- The conditions of R419; HT is disciplined from the first agreement of the start on (03 R69). -/
def State.mayConfirm (s : State) (m : Manifest) : Bool :=
  s.sec.upd.st = .trial && s.trial.active && s.app.clk.htDisciplined && s.enginesUp m.comps && s.bridle.st = .run &&
    s.app.server.ready

/-- Components of the installed set after an update: those the manifest leaves out stay. -/
def compsAfter (old new : List Component) : List Component :=
  new ++ old.filter fun c => !(new.any fun d => d.id = c.id)

/-- Steps 1 to 5 of R419. -/
def confirmUpdate (m : Manifest) (s : State) : State :=
  let d := s.sec.dir
  let withLoader := m.comps.any fun c => c.id = 13
  let s1 := { s with sec.dir := { d with
    seq := d.seq + 1, wrap := 1 - d.wrap, svn := m.svn, build := m.build, comps := compsAfter d.comps m.comps,
    loader := if withLoader then 1 - d.loader else d.loader } }
  let s2 := if withLoader then { s1 with sec.loaders := s1.sec.loaders.set s1.sec.dir.loader ((compHash m.comps 13).getD 0) }
    else s1
  let s3 := (upLog .confirmed 0xFFFF 0 s2).updUpd fun u =>
    { u with st := .idle, man := none, saved := [], written := [], count := 0 }
  let s4 := { s3 with trial.active := false,
                      fuses.svn := if m.raiseFloor then max s3.fuses.svn m.svn else s3.fuses.svn,
                      fuses.rrev := s3.fuses.rrev ||| m.revoke }
  eraseSpare s4

/-- CONFIRM. -/
def tackConfirm (s : State) : Status × State :=
  match s.sec.upd.man with
  | none => (.state, s)
  | some m => if s.mayConfirm m then (.ok, confirmUpdate m s) else (.state, s)

/-- CONFIRM (R419). -/
def execConfirm (s : State) : Res := .next (tackServe 11 0 [8] tackConfirm s)

/-! ### The loader at a start (R417) -/

/-- The trial countdown of a start: STOP, REMAIN from 7040h.09, START. -/
def trialBegin (s : State) : State := { s with trial.active := true, trial.remain := 1000 * s.onum 0x7040 9 }

/-- What the loader does on the state found; `compsGood` is the check of the components (R417). Whether the boot goes
on, and the state. -/
def loaderResume (compsGood : Bool) (s : State) : Bool × State :=
  match s.sec.upd.st with
  | .idle => (true, s)
  | .prepared => (true, updateUndone s)
  | .copying => (false, rollback { s with app.clk.appHeld := false })
  | .rollback => (false, rollback { s with app.clk.appHeld := false })
  | .written =>
    if compsGood then
      (true, trialBegin (upLog .trial 0xFFFF 1 (s.updUpd fun u => { u with st := .trial, count := 1 })))
    else (false, rollback { s with app.clk.appHeld := false })
  | .trial =>
    if s.trial.expired then (false, rollback { s with trial.expired := false, app.clk.appHeld := false })
    else
      let n := s.sec.upd.count + 1
      let s1 := upLog .trial 0xFFFF n (s.updUpd fun u => { u with count := n })
      if 3 ≤ n then (false, rollback { s1 with app.clk.appHeld := false }) else (true, trialBegin s1)

/-- The components of the image set that a start runs: in a trial the update's. -/
def State.bootComps (s : State) : List Component :=
  match s.sec.upd.st, s.sec.upd.man with
  | .trial, some m => compsAfter s.sec.dir.comps m.comps
  | _, _ => s.sec.dir.comps

end Sys2Proof.Machine
end

