-- ==== Sys2Proof/Machine/Served.lean ====
section
/-!
DEFINITION. What the dictionary server answers to a read of an entry of the control die (06 R121 to R133; 07 R169;
08 R189; 09 R215; 10 R245 to R247; 13 R342; 14 R368, R369; 15 R394; 16 R422), and which entries exist (R123).
-/
set_option Elab.async false
namespace Sys2Proof.Machine

/-- The transport of a request with its client (R124, R145): a CANopen client of F0 or F1 (SDO channel c at c, USDO
node n at 8 + n), or a Latigo connection. -/
inductive Via where
  | can (f client : Nat)
  | latigo (c : Nat)
  deriving DecidableEq, Repr

/-- Who asks: the role the server fixed (R124) and the session named (R125). -/
structure Asker where
  via : Via
  role : Role
  handle : Nat
  serial : Nat
  deriving DecidableEq, Repr

/-- The field port whose communication entries a request reaches (R133); Latigo reaches F0's. -/
def Via.port : Via → Nat
  | .can f _ => f
  | .latigo _ => 0

/-- The index under which an entry's value is kept: the communication area of F1 is its own (R133). -/
def Asker.key (a : Asker) (idx : Nat) : Nat :=
  if within 0x1000 idx 0x1FFF && a.via.port = 1 then idx + 0x10000 else idx

/-! ### Which entries exist (R123, R126 check 1) -/

/-- A point with its engine stopped (09 R213, 03 R73) or fused off (16 R395). -/
def State.pointGone (s : State) (p : Nat) : Bool := s.fuses.ptOff.getLsbD p || !s.app.clk.run.getLsbD (p % 8)

/-- The entries of a point that stay while it is of type 0, so that they can be written: its type, and its port, which is
set before the type (R148, 10 R241). -/
def typeEntry (k sub : Nat) : Bool := (k = 0 && sub = 1) || (k = 8 && sub = 9)

/-- The vehicle-protocol entries that apply to a point's type (10 R245). The manual names none: protocols and services apply
where R217 offers one, discharge where a BPT service exists, the minimum voltage and the setpoints of a converter to DC
(the model's choice, assumption 114). -/
def vehEntry (ty k sub : Nat) : Bool :=
  match k, sub with
  | 8, 1 => within 1 ty 4
  | 8, 3 => within 1 ty 4
  | 8, 7 => ty = 3 || ty = 4
  | 8, 8 => within 3 ty 5
  | 9, 5 => true
  | 9, _ => within 3 ty 5
  | _, _ => true

/-- The unit of an entry is fused off or declared unfitted (R445); an ADC or bitstream channel of kind 0 keeps its kind
(5100h + c.01) alone. The declaration of a safety input, an encoder or a mirror governs what is reported of it. -/
def State.unitGone (s : State) (idx sub : Nat) : Bool :=
  let unfit := fun i n => (s.obj.unfit.get i).getLsbD n
  if within 0x3000 idx 0x3FFF then
    let p := (idx - 0x3000) / 64
    let k := idx % 64
    s.pointGone p || (s.pointAbsent p && !typeEntry k sub) || !(s.pointAbsent p || vehEntry (s.pointType p) k sub)
  else if within 0x4000 idx 0x47FF then !s.app.clk.run.getLsbD ((idx - 0x4000) / 256)
  else if within 0x5100 idx 0x518F || within 0x5200 idx 0x528F then s.chanUnfit idx sub
  else if within 0x5400 idx 0x543F then s.fuses.ptOff.getLsbD (idx - 0x5400)
  else if idx = 0x2101 || idx = 0x2102 then s.unitAbsent 2 (idx - 0x2101)
  else if idx = 0x2010 || idx = 0x2011 then s.fuses.blkOff.getLsbD (18 + (idx - 0x2010))
  else if idx = 0x2012 || idx = 0x2013 then s.fuses.blkOff.getLsbD (18 + (idx - 0x2012))
  else if within 0x6000 idx 0x603F then unfit 1 (idx - 0x6000)
  else if within 0x6040 idx 0x605F then unfit 2 (idx - 0x6040)
  else if within 0x6800 idx 0x680F then unfit 4 (idx - 0x6800)
  else if within 0x6840 idx 0x687F then unfit 5 (idx - 0x6840)
  else if within 0x6920 idx 0x6927 then decide (2 ≤ sub) && unfit 9 (s.devCfg (idx - 0x6920)).enc
  else if within 0x6940 idx 0x697F then s.fuses.ptOff.getLsbD (idx - 0x6940) || (sub = 2 && unfit 11 (idx - 0x6940))
  else if within 0x7810 idx 0x781F then s.unitAbsent 5 (idx - 0x7810)
  else false

/-- The index is in the dictionary: some subindex of it is (R144 tells the two cases of ABSENT apart). -/
def State.indexThere (s : State) (idx : Nat) : Bool := (List.range 256).any fun k => (objAt (s.elemDc idx) idx k).isSome

/-- The entry, where it exists and its unit is fitted. -/
def State.entry (s : State) (idx sub : Nat) : Option Obj := if s.unitGone idx sub then none else objAt (s.elemDc idx) idx sub

/-! ### Values -/

/-- The value of a stored entry: as written, or its default. -/
def State.stored (s : State) (a : Asker) (o : Obj) (idx sub : Nat) : List Byte :=
  (s.obj.live.get (a.key idx * 256 + sub)).getD o.dflt

/-- The client's record at its port or connection: its last status (R145) and its selector (R125). -/
def State.lastStatus (s : State) : Via → Status
  | .can f c => (s.fport f).last.get c
  | .latigo c => ((s.app.server.conn.get c).map (·.last)).getD .ok

/-- SVN and build of the image set that runs: in a trial the update's (16 R422). -/
def State.running (s : State) : Nat × Word :=
  match s.sec.upd.st, s.sec.upd.man with
  | .trial, some m => (m.svn, m.build)
  | _, _ => (s.sec.dir.svn, s.sec.dir.build)

/-- 1000h to 1FFFh (R133). -/
def State.commValue (s : State) (a : Asker) (idx sub : Nat) : Option (List Byte) :=
  let node := (s.fport a.via.port).node
  match idx, sub with
  | 0x1001, _ => some [s.errorReg a.via.port]
  | 0x1009, _ => some (if Config.stepping then [0x41, 0x30] else [0x42, 0x30])
  | 0x100A, _ => some (Config.imageVersion s.running.2)
  | 0x1010, _ => some (toLE 4 3)
  | 0x1011, _ => some (toLE 4 1)
  | 0x1014, _ => some (toLE 4 (0x80 + node))
  | 0x1018, 1 => some (toLE 4 s.fuses.vendor.toNat)
  | 0x1018, 3 => some (toLE 4 (if Config.stepping then 0xA0 else 0xB0))
  | 0x1018, 4 => some (toLE 4 s.fuses.serial.toNat)
  | 0x1200, 1 => some (toLE 4 (0x600 + node))
  | 0x1200, 2 => some (toLE 4 (0x580 + node))
  | _, _ => none

/-- 2F00h.01 and the window offset of 2200h (R125, R247). -/
def State.devValue (s : State) (a : Asker) (idx sub : Nat) : Option (List Byte) :=
  match idx, sub, a.via with
  | 0x2F00, 1, .can f c => let x := (s.fport f).sel.get c; some (toLE 4 x.1 ++ toLE 8 x.2)
  | 0x2F00, 1, .latigo _ => some (toLE 12 0)
  | 0x2200, 7, _ => some (s.vval idx sub)
  | _, _, _ => none

/-- The entries of a point that firmware takes from the pilot registers (07 R169). -/
def State.pilotValue (s : State) (p k sub : Nat) : Option (List Byte) :=
  let q : PilotPt := if s.power.pilRebuilt then s.pil p else pilBlank
  let c := s.app.server.pt.get p
  match k, sub with
  | 1, 1 => some (toLE 1 q.st.ctorIdx)
  | 1, 2 => some (toLE 1 q.modeAct.toNat)
  | 1, 3 => some (toLE 2 q.dutyAct.toNat)
  | 1, 4 => some (toLE 2 (ofInt 16 q.pos))
  | 1, 5 => some (toLE 2 (match q.neg with | some v => ofInt 16 v | none => 0x8000))
  | 1, 6 => some (toLE 1 c.cause.toNat)
  | 1, 7 => some (toLE 8 q.ts)
  | 2, 1 => some (toLE 1 q.cls)
  | 2, 2 => some (toLE 2 q.rth)
  | 2, 3 => some (toLE 1 (pilCapacity q))
  | 2, 4 => some (toLE 2 (ofInt 16 q.vth))
  | 3, 1 => some (toLE 4 c.changes)
  | 3, 2 => some (toLE 4 c.indet)
  | 3, 3 => some (toLE 4 c.faults)
  | _, _ => none

/-- The entries of a point's Green PHY channel (08 R189). The rounding of A(n, r) is not given: a free bit. -/
def State.chanValue (s : State) (p sub : Nat) : Option (List Byte) :=
  let c := s.plc p
  match sub with
  | 1 => some (toLE 1 (plcStCode c.st))
  | 2 => some (match c.mac with | some m => (toLE 6 m.toNat).reverse | none => [])
  | 3 => some (toLE 1 (if c.figure.2 = 0 then 0 else c.figure.1 / c.figure.2 +
      (if c.figure.1 % c.figure.2 = 0 then 0 else (s.freeBits 1).toNat)))
  | 6 => some (toLE 2 c.skips)
  | 7 => some (toLE 2 c.rxdrop)
  | _ => none

/-- 3000h to 3FFFh. -/
def State.pointValue (s : State) (idx sub : Nat) : Option (List Byte) :=
  let p := (idx - 0x3000) / 64
  match idx % 64 with
  | 4 => s.chanValue p sub
  | 9 => some (s.vval idx sub)
  | k => s.pilotValue p k sub

/-- A window of 4096 bytes from an offset (R122). -/
def windowOf (v : List Byte) (off : Nat) : List Byte := (v.drop off).take 4096

/-- 4000h to 47FFh, the indices q to q + 3 (09 R215, 10 R246). -/
def State.slotValue (s : State) (slot k sub : Nat) : Option (List Byte) :=
  let c := s.app.ctx.get slot
  let v := s.vs slot
  match k, sub with
  | 0, 1 => some (toLE 4 (s.handleOf slot))
  | 0, 2 => some (toLE 8 (s.serialOf slot))
  | 0, 3 => some (toLE 1 c.point)
  | 0, 4 => some (toLE 1 c.role)
  | 0, 5 => some (toLE 1 (s.phase slot))
  | 0, 6 => some (toLE 1 (s.num (ctxBase slot + 0x31) 1))
  | 0, 7 => some (toLE 8 c.startHt)
  | 1, 2 => some (toLE 2 v.limit)
  | 1, 3 => some (toLE 1 v.method)
  | 2, 1 => some (toLE 1 v.proto)
  | 2, 2 => some (toLE 1 v.service)
  | 2, 3 => some v.evccid
  | 2, 4 => some v.ident
  | 2, 5 => some (toLE 1 v.pendDec)
  | 2, 7 => some (toLE 1 v.soc)
  | 3, 1 => some (toLE 2 v.reqV)
  | 3, 2 => some (toLE 4 (ofInt 32 v.reqI))
  | 3, 5 => some (windowOf v.certReq v.winOff)
  | 3, 7 => some (toLE 2 v.winOff)
  | 3, 8 => some (toLE 2 v.certReq.length)
  | _, _ => none

/-- An output's status entries (14 R368). -/
def State.outValue (s : State) (x sub : Nat) : Option (List Byte) :=
  let o := s.out x
  match sub with
  | 0x10 => some (toLE 1 o.st.ctorIdx)
  | 0x11 => some (toLE 2 (fld o.meas 0 16))
  | 0x12 => some (toLE 1 (fld o.meas 16 8))
  | 0x13 => some (toLE 2 o.trips)
  | 0x14 => some (toLE 2 o.restarts)
  | 0x15 => some (toLE 1 o.cause)
  | 0x16 => some (toLE 1 o.tpRes)
  | _ => none

/-- 6000h to 68FFh (14 R368, R369). -/
def State.powerValue (s : State) (idx sub : Nat) : Option (List Byte) :=
  if within 0x6000 idx 0x605F then s.outValue (idx - 0x6000) sub
  else if within 0x6800 idx 0x680F then
    let k := idx - 0x6800
    let c := s.power.im.get k
    match sub with
    | 0x2 => some (toLE 8 (s.imMask k).toNat)
    | 0xA => some (toLE 2 c.riso)
    | 0xB => some (toLE 1 c.st.ctorIdx)
    | 0xC => some (toLE 1 c.pole)
    | _ => none
  else if within 0x6840 idx 0x687F then
    let c := s.power.rc.get (idx - 0x6840)
    match sub with
    | 5 => some (toLE 2 (ofInt 16 c.idc))
    | 6 => some (toLE 2 c.iac)
    | 7 => some (toLE 1 c.st)
    | 8 => some (toLE 2 c.trips)
    | _ => none
  else match idx, sub with
    | 0x6080, 1 => some (toLE 1 (b2n s.power.run))
    | 0x6080, 2 => some (toLE 1 (b2n s.power.test))
    | 0x6080, 5 => some (toLE 2 s.power.sum)
    | 0x6080, 6 => some ((List.range 4).map fun q => s.power.qtemp.get q)
    | _, _ => none

/-- The digest in force (15 R373); empty while no slot is programmed. -/
def State.digestInForce (s : State) : List Byte :=
  match s.safeSlot with
  | some k => digestBytes (s.fuses.safe.get k)
  | none => []

/-- 6900h to 69FFh (15 R394). -/
def State.safeValue (s : State) (a : Asker) (o : Obj) (idx sub : Nat) : Option (List Byte) :=
  if within 0x6920 idx 0x6927 then
    let d := s.device (idx - 0x6920)
    match sub with
    | 1 => some (toLE 1 d.st.ctorIdx)
    | 2 => some (toLE 4 (ofInt 32 d.pos))
    | 3 => some (toLE 2 (ofInt 16 d.speed))
    | _ => none
  else if within 0x6940 idx 0x697F then
    let w := s.safPt (idx - 0x6940)
    some (if sub = 1 then toLE 2 (fld w 0 9) else toLE 1 (fld w 11 1))
  else match idx, sub with
    | 0x6900, 1 => some (windowOf (s.stored a o idx sub) (ofLE (s.vval 0x6900 2)))
    | 0x6900, 2 => some (s.vval idx sub)
    | 0x6900, 3 => some (digestBytes s.stagedDigest)
    | 0x6900, 4 => some s.digestInForce
    | 0x6900, 5 => some (toLE 4 s.safStat.toNat)
    | 0x6901, 1 => some (toLE 2 s.bridle.running.toNat)
    | 0x6901, 2 => some (toLE 2 s.bridle.latched.toNat)
    | 0x6901, 3 => some (toLE 1 (s.bridle.stoRel &&& s.stoFitted).toNat)
    | 0x6901, 4 => some (toLE 1 (s.bridle.stoFault &&& s.stoFitted).toNat)
    | _, _ => none

/-- The word of FUS_LIFE (16 R395, R396). -/
def State.fusLife (s : State) : Word :=
  pack [(s.fuses.roleOff.toNat, 8), (b2n s.fuses.decom, 2), (b2n s.fuses.prod, 1), (b2n s.fuses.mfg, 0)]

/-- 7000h to 70FFh (16 R422). -/
def State.secValue (s : State) (idx sub : Nat) : Option (List Byte) :=
  if within 0x7080 idx 0x70FF then
    let k := s.slot (idx - 0x7080)
    match sub with
    | 1 => some (toLE 4 k.attr.toNat)
    | 2 => some (toLE 2 k.gen)
    | 3 => some (if k.isEmpty || k.orphan then [] else k.pub)
    | _ => none
  else match idx, sub with
    | 0x7000, 1 => some (toLE 4 s.fusLife.toNat)
    | 0x7000, 2 => some (toLE 4 s.fuses.dbg.toNat)
    | 0x7000, 3 => some (toLE 1 s.fuses.svn)
    | 0x7000, 4 => some (toLE 4 s.running.1)
    | 0x7000, 5 => some (toLE 4 s.running.2.toNat)
    | 0x7008, k => some (digestBytes (s.mrOf (k - 1)))
    | 0x7040, 2 => some (s.vval idx sub)
    | 0x7040, 3 => some (s.vval idx sub)
    | 0x7040, 6 => some (toLE 1 s.sec.upd.st.ctorIdx)
    | 0x7040, 7 => some (toLE 1 (s.nextBlock.getD 0xFF))
    | 0x7040, 8 => some (toLE 1 (statusCode s.app.tack.lastSt))
    | _, _ => none

/-- 7800h to 78FFh as far as the control die serves it (13 R342). -/
def State.termOwnValue (s : State) (idx sub : Nat) : Option (List Byte) :=
  if within 0x7810 idx 0x781F then
    let r := s.rd (idx - 0x7810)
    match sub with
    | 6 => some (toLE 1 r.st.ctorIdx)
    | 7 => some (toLE 1 r.cards)
    | _ => none
  else if within 0x7830 idx 0x7833 && sub = 3 then some (toLE 1 (b2n (s.tag (idx - 0x7830)).pending))
  else none

/-- Requests accepted and not yet answered (R129, R147): the replies that wait in the queues of F0 and F1. Every other request
is answered within its command (assumption 111). -/
def State.unanswered (s : State) : Nat :=
  ([0, 1] : List Nat).foldl (fun n x => n + ((s.fport x).txq.filter (·.reply)).length) 0

/-- 8000h to 8FFFh (R147). -/
def State.diagValue (s : State) (a : Asker) (idx sub : Nat) : Option (List Byte) :=
  let v := s.app.server
  match idx, sub with
  | 0x8000, _ => some (toLE 1 (statusCode (s.lastStatus a.via)))
  | 0x8001, 1 => some (toLE 4 v.accepted)
  | 0x8001, 2 => some (toLE 4 v.busy)
  | 0x8001, 3 => some (toLE 4 v.timeouts)
  | 0x8001, 4 => some (toLE 1 s.unanswered)
  | 0x8002, 1 => some (toLE 4 s.stagedBytes)
  | 0x8002, 2 => some (toLE 4 s.flash.both)
  | 0x8002, 3 => some (toLE 4 s.flash.compactions)
  | 0x8002, 4 => some (toLE 2 v.fromB)
  | 0x8010, k => some (toLE 4 (s.app.pmc.snap.get (k - 1)))
  | 0x8020, k => some (toLE 4 (waitMaxWord (s.app.hrn.get (k - 1))).toNat)
  | _, _ => none

/-- The value an entry of the control die reads. -/
def State.ownValue (s : State) (a : Asker) (o : Obj) (idx sub : Nat) : List Byte :=
  let v :=
    if within 0x1000 idx 0x1FFF then s.commValue a idx sub
    else if within 0x2000 idx 0x2FFF then s.devValue a idx sub
    else if within 0x3000 idx 0x3FFF then s.pointValue idx sub
    else if within 0x4000 idx 0x47FF then s.slotValue ((idx - 0x4000) / 8) (idx % 8) sub
    else if within 0x6000 idx 0x68FF then s.powerValue idx sub
    else if within 0x6900 idx 0x69FF then s.safeValue a o idx sub
    else if within 0x7000 idx 0x70FF then s.secValue idx sub
    else if within 0x7800 idx 0x78FF then s.termOwnValue idx sub
    else s.diagValue a idx sub
  v.getD (s.stored a o idx sub)

/-- What reading does: 8020h clears the register read (R147), a rounded value uses a free bit. -/
def ownRead (idx sub : Nat) (s : State) : State :=
  if idx = 0x8020 then { s with app.hrn := s.app.hrn.upd (sub - 1) fun h => { h with waitMax := 0, waitPort := 0 } }
  else if within 0x3000 idx 0x3FFF && idx % 64 = 4 && sub = 3 then s.used
  else s

end Sys2Proof.Machine
end

