-- ==== Sys2Proof/Machine/BusBlocks.lean ====
section
/-!
DEFINITION. Register reads and writes by block, for the bus: Buckle, mailboxes, session engines, Harness, Girth,
performance counters, clock and reset, pilots, Skiver, Tack room, message ports, fuses (03 to 16, "registers").
Offsets of a block that the manual does not list read 0 and ignore writes.
-/
set_option Elab.async false
namespace Sys2Proof.Machine

/-! ### Buckle (05), offsets from 1000_0000h -/

/-- The word of BKL_CFG. -/
def State.bklCfg (s : State) : Word :=
  let b := s.app.bkl
  pack [(b2n b.lock, 31), (b2n b.cfgErr, 30), (b2n b.guard, 1), (b2n b.kx, 0)]

/-- The word of BKL_SLEEP_t. -/
def State.bklSleep (s : State) (t : Nat) : Word :=
  let pend := s.app.bkl.src.cells.any fun c => c.2.slp && c.2.wake && c.2.target = t && !isReserved c.1
  pack [(b2n pend, 1), (b2n (s.asleep t), 0)]

/-- A read. -/
def bklRead (port o : Nat) (s : State) : State :=
  if o = 0 then busOk s.bklCfg s
  else if within 0x200 o 0x23C then bklPendRead port ((o - 0x200) / 4) s
  else if within 0x1004 o 0x17FC then busOk (s.bklSrcWord ((o - 0x1000) / 4)) s
  else if within 0x2000 o 0x211C then
    let t := (o - 0x2000) / 16
    match o % 16 with
    | 0 => busOk (BitVec.ofNat 32 (s.app.bkl.thr.get t)) s
    | 4 => bklClaim t s
    | 8 => busOk (s.bklSleep t) s
    | _ => bklVec t s
  else busOk 0 s

/-- A write. -/
def bklWrite (port o : Nat) (v : Word) (s : State) : State :=
  if o = 0 then bklCfgWrite v s
  else if within 0x200 o 0x23C then bklPendWrite port ((o - 0x200) / 4) v s
  else if within 0x240 o 0x27C then clearLatches ((o - 0x240) / 4) v s
  else if o = 0x280 then bklSwset v s
  else if within 0x1004 o 0x17FC then bklSrcWrite ((o - 0x1000) / 4) v s
  else if within 0x2000 o 0x211C then
    let t := (o - 0x2000) / 16
    match o % 16 with
    | 0 => { s with app.bkl.thr := s.app.bkl.thr.set t (fld v 0 2) }
    | 4 => bklComplete t v s
    | _ => s
  else s

/-! ### Mailboxes (05), offsets from 1001_0000h -/

/-- A read of pair mailbox m. -/
def pairRegRead (m o : Nat) (s : State) : State :=
  let b := s.app.mbx.pair.get m
  if within 0x20 o 0x3C then pairRead m ((o - 0x20) / 4) s
  else if o = 0x40 then busOk (pack [(b.seq, 16), (b2n b.busErr, 5), (b.queue.length, 0)]) s
  else if o = 0x44 then busOk (pack [(b.cantle, 0)]) s
  else busOk 0 s

/-- A write of pair mailbox m. -/
def pairRegWrite (port m o : Nat) (v : Word) (s : State) : State :=
  if o ≤ 0x1C then pairWrite port m (o / 4) v s
  else if o = 0x40 then busOk 0 (if bit v 5 then s.updPair m fun b => { b with busErr := false } else s)
  else if o = 0x44 && !s.app.mbx.lock then busOk 0 (s.updPair m fun b => { b with cantle := fld v 0 2 })
  else busOk 0 s

/-- A read of hub mailbox h. -/
def hubRegRead (port h o : Nat) (s : State) : State :=
  let b := s.app.mbx.hub.get h
  if within 0x40 o 0x7C then hubRead port h ((o - 0x40) / 4) s
  else if o = 0x80 then hubAcquire port h s
  else if o = 0x84 then
    busOk (pack [(b.seq, 16), (b2n b.holder.isSome, 9), (b2n b.timeout, 8), (b.queue.length, 0)]) s
  else if o = 0x88 then busOk (pack [(b.reader, 0)]) s
  else busOk 0 s

/-- A write of hub mailbox h. -/
def hubRegWrite (port h o : Nat) (v : Word) (s : State) : State :=
  if o ≤ 0x3C then hubWrite port h (o / 4) v s
  else if o = 0x80 then busOk 0 (if bit v 0 then hubRelease port h s else s)
  else if o = 0x84 then busOk 0 (if bit v 8 then s.updHub h fun b => { b with timeout := false } else s)
  else if o = 0x88 && !s.app.mbx.lock then busOk 0 (s.updHub h fun b => { b with reader := fld v 0 5 })
  else busOk 0 s

/-! ### Session engines (09 R214), offsets from Sn -/

/-- Contexts of an engine in a state. -/
def State.ctxIn (s : State) (e : Nat) (st : CtxSt) : List Nat :=
  (List.range 32).filter fun k => (s.app.ctx.get (32 * e + k)).st = st

/-- The word of SES_ESTAT. -/
def State.sesEstat (s : State) (e : Nat) : Word :=
  let x := s.app.eng.get e
  pack [(x.misroute, 24), (x.dropMsg, 18), (b2n x.running.isNone, 17), (b2n (!x.notices.isEmpty), 16),
    (x.running.getD 0, 8), ((s.ctxIn e .ready).length, 0)]

/-- What a reader finds in SES_CMDST and SES_POSTST: a context its own, another port its own. -/
def State.sesOwn (s : State) (port e : Nat) : (Nat × Nat × Status) × Status :=
  let x := s.app.eng.get e
  if port = 4 + e then
    match x.running with
    | some k => let c := s.app.ctx.get (32 * e + k); (c.cmdSt, c.postrSt)
    | none => ((0, 0, .ok), .ok)
  else (x.cmdSt.get port, x.postrSt.get port)

/-- The word of SES_CTX_c. -/
def State.sesCtxWord (s : State) (slot : Nat) : Word :=
  let c := s.app.ctx.get slot
  pack [(c.gen, 16), (c.point, 8), (c.role, 6), (ctxStCode c.st, 0)]

/-- A read. -/
def sesRead (port e o : Nat) (s : State) : State :=
  let x := s.app.eng.get e
  let own := s.sesOwn port e
  if within 0x40 o 0x7C then busOk (x.xr.get ((o - 0x40) / 4)) s
  else if within 0x100 o 0x17C then busOk (s.sesCtxWord (32 * e + (o - 0x100) / 4)) s
  else if within 0x200 o 0x27C then sesUseRead (32 * e + (o - 0x200) / 4) s
  else match o with
    | 0x00 => busOk (pack [(b2n x.cfgErr, 16), (x.budget, 0)]) s
    | 0x04 => busOk (pack [(x.entry, 0)]) s
    | 0x08 => busOk (s.sesEstat e) s
    | 0x0C => busOk ((s.ctxIn e .trapped).foldl setEvt 0) s
    | 0x14 => busOk (pack [(own.1.1, 16), (own.1.2.1, 8), (statusCode own.1.2.2, 0)]) s
    | 0x1C => busOk (pack [(statusCode own.2, 0)]) s
    | _ => busOk 0 s

/-- A write of SES_ECFG: BUDGET only while the engine does not run and within its range; a BUDGET as it stands is not
a write to it in the sense of CFG_ERR (log 40). -/
def sesEcfgWrite (e : Nat) (v : Word) (s : State) : State :=
  let b := fld v 0 16
  s.updEng e fun x =>
    let ok := !s.engRuns e && within 1000 b 20000
    { x with budget := if ok then b else x.budget,
             cfgErr := (x.cfgErr && !bit v 16) || (!ok && decide (b ≠ x.budget)) }

/-- A write of SES_ENTRY. -/
def sesEntryWrite (e : Nat) (v : Word) (s : State) : State :=
  let a := fld v 0 17
  if !s.engRuns e && a % 2 = 0 && decide (a < 0x18000) then s.updEng e fun x => { x with entry := a }
  else s.updEng e fun x => { x with cfgErr := true }

/-- A write of SES_XR_k, each field only with a value it takes. -/
def sesXrWrite (e k : Nat) (v : Word) (s : State) : State :=
  let n := fld v 16 9
  let c := fld v 0 4
  let okN := (pointSource n).isNone
  let okC := c = 2 || c = 3 || c = 7
  s.updEng e fun x =>
    let w := wRW (mask 31 1 ||| mask 8 5 ||| (if okN then mask 16 9 else 0) ||| (if okC then mask 0 4 else 0)) (x.xr.get k) v
    { x with xr := x.xr.set k w, cfgErr := x.cfgErr || !(okN && okC) }

/-- A write: only by Cantle cores, contexts of the engine and debug. -/
def sesWrite (port e o : Nat) (v : Word) (s : State) : State :=
  if !sesWriter port e then busFail s
  else if within 0x40 o 0x7C then busOk 0 (sesXrWrite e ((o - 0x40) / 4) v s)
  else match o with
    | 0x00 => busOk 0 (sesEcfgWrite e v s)
    | 0x04 => busOk 0 (sesEntryWrite e v s)
    | 0x10 => sesCmd (fld v 16 3) port e v s
    | 0x18 => sesPostr port e v s
    | _ => busOk 0 s

/-! ### The block of mailboxes, Keeper and session engines, offsets from 1001_0000h -/

/-- A read. -/
def mbxRead (port o : Nat) (s : State) : State :=
  if o < 0x1400 then pairRegRead (o / 0x100) (o % 0x100) s
  else if within 0x2000 o 0x27FF then hubRegRead port ((o - 0x2000) / 0x100) (o % 0x100) s
  else if o = 0x3000 then mbxCtrlRead s
  else if within 0x8000 o 0xBFFF then sesRead port ((o - 0x8000) / 0x800) (o % 0x800) s
  else busOk 0 s

/-- A write. -/
def mbxWrite (port o : Nat) (v : Word) (s : State) : State :=
  if o < 0x1400 then pairRegWrite port (o / 0x100) (o % 0x100) v s
  else if within 0x2000 o 0x27FF then hubRegWrite port ((o - 0x2000) / 0x100) (o % 0x100) v s
  else if o = 0x3000 then busOk 0 { s with app.mbx.lock := s.app.mbx.lock || bit v 31 }
  else if within 0x8000 o 0xBFFF then sesWrite port ((o - 0x8000) / 0x800) (o % 0x800) v s
  else busOk 0 s

/-! ### Girth (04), offsets from 1003_0000h -/

/-- A read. -/
def grtRead (o : Nat) (s : State) : State :=
  if within 0x10 o 0x18 then busOk (s.cold.share.get ((o - 0x10) / 4)) s
  else if within 0x30 o 0x38 then busOk (s.girthUseWord ((o - 0x30) / 4)) s
  else if within 0x100 o 0x1FC then busOk (s.girthCostWord ((o - 0x100) / 16) (o % 16 / 4)) s
  else if within 0x200 o 0x37C then
    let p := (o - 0x200) / 16
    match o % 16 with
    | 4 => busOk (s.girthResp p) s
    | 8 => busOk (BitVec.ofNat 32 (s.app.girth.ports.get p).pred) s
    | _ => busOk 0 s
  else match o with
    | 0x00 => busOk s.girthCtrl s
    | 0x20 => busOk s.girthStat s
    | 0x24 => girthBypassRead s
    | 0x3C => busOk s.girthQlen s
    | _ => busOk 0 s

/-- A write. -/
def grtWrite (o : Nat) (v : Word) (s : State) : State :=
  if o = 0 then girthCtrlWrite v s
  else if within 0x10 o 0x18 then girthShareWrite ((o - 0x10) / 4) v s
  else if within 0x100 o 0x1FC then girthCostWrite ((o - 0x100) / 16) (o % 16 / 4) v s
  else if within 0x200 o 0x37C then
    match o % 16 with
    | 0 => girthReqWrite ((o - 0x200) / 16) v s
    | 12 => girthRelWrite ((o - 0x200) / 16) v s
    | _ => s
  else s

/-! ### Performance counters (05), offsets from 1004_0000h -/

/-- The word of PMC_SEL_i. -/
def State.pmcSelWord (s : State) (i : Nat) : Word :=
  let e := s.app.pmc.sel.get i
  pack [(b2n e.chain, 31), (b2n e.ovf, 30), (e.group, 8), (e.index, 0)]

/-- A read. -/
def pmcRead (o : Nat) (s : State) : State :=
  if o ≤ 0x1FC then busOk (BitVec.ofNat 32 (s.app.pmc.cnt.get (o / 4))) s
  else if within 0x200 o 0x3FC then busOk (s.pmcSelWord ((o - 0x200) / 4)) s
  else if o = 0x400 then busOk (pack [(s.app.pmc.taken, 16)]) s
  else if within 0x600 o 0x7FC then busOk (BitVec.ofNat 32 (s.app.pmc.snap.get ((o - 0x600) / 4))) s
  else busOk 0 s

/-- A write. -/
def pmcWrite (o : Nat) (v : Word) (s : State) : State :=
  if within 0x200 o 0x3FC then pmcSelect ((o - 0x200) / 4) v s
  else if o = 0x400 then pmcSnapshot v s
  else s

/-! ### Clock and reset (03, 05 R101, 15 R393, 16), offsets from 1005_0000h -/

/-- The word of CLK_SSC. -/
def State.sscWord (s : State) : Word :=
  let c := s.cold
  pack [(b2n c.sscLock, 31), (c.sscDepth, 2), (b2n c.sscH, 1), (b2n c.sscC, 0)]

/-- The word of RST_HOLD (03 R75). -/
def State.holdWord (s : State) : Word :=
  let shut := (List.range 64).any fun p => decide ((s.bp p).shut ≠ 0)
  pack [(b2n shut, 9), (b2n s.bridle.window, 8), (s.holdWin, 0)]

/-- The word of RST_RECLAIM_LO or _HI: the points whose reclaim the Bridle has accepted. -/
def State.reclaimWord (s : State) (o : Nat) : Word :=
  ((List.range 32).filter fun i => (s.bp (o + i)).reclaimed).foldl setEvt 0

/-- One half of a 64-bit register: 0 the low word. -/
def half (v i : Nat) : Word := BitVec.ofNat 32 (v / 2 ^ (32 * i))

/-- A 64-bit register with one half written. -/
def putHalf (v i : Nat) (w : Word) : Nat :=
  if i = 0 then v / 2 ^ 32 * 2 ^ 32 + w.toNat else v % 2 ^ 32 + w.toNat * 2 ^ 32

/-- A read. -/
def clkRead (port o : Nat) (s : State) : State :=
  let c := s.app.clk
  if within 0x200 o 0x22C then busOk (half (c.mtimecmp.get ((o - 0x200) / 8)) (o % 8 / 4)) s
  else if within 0x240 o 0x254 then busOk (pack [(b2n (c.msip.get ((o - 0x240) / 4)), 0)]) s
  else match o with
    | 0x004 => busOk s.sscWord s
    | 0x100 => busOk s.causeWord s
    | 0x108 => busOk s.engRunWord s
    | 0x10C => busOk (pack [(c.wdPeriod, 0)]) s
    | 0x110 => busOk s.holdWord s
    | 0x118 => busOk (s.reclaimWord 0) s
    | 0x11C => busOk (s.reclaimWord 32) s
    | 0x320 => busOk (pack [(s.bridle.postStatus.get port, 0)]) s
    | 0x400 => busOk s.trialWord s
    | _ => busOk 0 s

/-- A write of SAF_POST_i: word 7 commits the message into the FIFO, or is refused with BUSY (15 R389). -/
def safPost (port i : Nat) (v : Word) (s : State) : State :=
  let b := s.bridle
  if i < 7 then { s with bridle.post := b.post.set i v }
  else if 8 ≤ b.fifo.length then { s with bridle.postStatus := b.postStatus.set port (statusCode .busy) }
  else { s with bridle.fifo := b.fifo ++ [.post (b.post.get 0) (b.post.get 1) (b.post.get 2)],
                bridle.postStatus := b.postStatus.set port 0 }

/-- A write. -/
def clkWrite (port o : Nat) (v : Word) (s : State) : State :=
  let c := s.app.clk
  if within 0x200 o 0x22C then
    busOk 0 { s with app.clk.mtimecmp := c.mtimecmp.upd ((o - 0x200) / 8) fun x => putHalf x (o % 8 / 4) v }
  else if within 0x240 o 0x254 then busOk 0 { s with app.clk.msip := c.msip.set ((o - 0x240) / 4) (bit v 0) }
  else if within 0x300 o 0x31C then busOk 0 (safPost port ((o - 0x300) / 4) v s)
  else match o with
    | 0x004 => busOk 0 (sscWrite v s)
    | 0x100 => busOk 0 { s with cold.cause := s.cold.cause &&& ~~~(v.setWidth 8) }
    | 0x104 => rstCtrlWrite v (busOk 0 s)
    | 0x108 => busOk 0 (engRunWrite v s)
    | 0x10C => busOk 0 (wdogWrite v s)
    | 0x118 => reclaimWrite false v s
    | 0x11C => reclaimWrite true v s
    | 0x400 => busOk 0 (trialWrite v s)
    | _ => busOk 0 s

/-! ### Pilots (07 R168), offsets from 1006_0000h -/

/-- The word of PIL_STAT_p. -/
def pilStatWord (q : PilotPt) : Word :=
  pack [(q.dutyAct.toNat, 16), (q.modeAct.toNat, 12), (b2n q.clamped, 11), (b2n q.waking, 10), (b2n q.held, 9),
    (b2n q.negOk, 8), (q.last, 4), (q.st.ctorIdx, 0)]

/-- The word of PIL_MEAS_p. -/
def pilMeasWord (q : PilotPt) : Word :=
  pack [(match q.neg with | some v => ofInt 16 v | none => 0x8000, 16), (ofInt 16 q.pos, 0)]

/-- VTH of PIL_PROX_p, 25 mV units. The rounding of a value between two units, and a value outside the field, are not
given: free values. -/
def State.pilVth (s : State) (q : PilotPt) : Nat :=
  let u := q.vth / 25
  if !(decide (-128 ≤ u) && decide (u ≤ 126)) then (s.freeBits 8).toNat
  else if q.vth % 25 = 0 then ofInt 8 u
  else ofInt 8 (u + (s.freeBits 1).toNat)

/-- The pilot a register read sees: cleared until the power die's report has rebuilt it. -/
def State.pilSeen (s : State) (p : Nat) : PilotPt := if s.power.pilRebuilt then s.pil p else pilBlank

/-- A read. -/
def pilRead (port o : Nat) (s : State) : State :=
  if o = 0x4000 then
    busOk (if s.power.pilRebuilt then pack [(b2n s.power.trimmed, 24), (s.power.period, 0)] else 0x000F4240) s
  else if 0x4000 < o then busOk 0 s
  else
    let p := o / 0x100
    let q := s.pil p
    let z := s.pilSeen p
    match o % 0x100 with
    | 0x00 => busOk q.cfg s
    | 0x04 => busOk q.rsrc s
    | 0x08 => busOk (pack [(q.duty.toNat, 4), (q.mode.toNat, 0)]) s
    | 0x0C => busOk (pilStatWord z) s
    | 0x10 => busOk (pilMeasWord z) s
    | 0x14 => busOk (pack [(s.pilVth z, 24), (z.cls, 16), (z.rth, 0)]) s.used
    | 0x18 => busOk z.evt s
    | 0x20 => pilTsRead port p s
    | 0x24 => busOk (s.power.tsLatch.get port) s
    | 0x28 => busOk (pack [(z.indet, 16), (z.changes, 0)]) s
    | _ => busOk 0 s

/-- A write. -/
def pilWrite (o : Nat) (v : Word) (s : State) : State :=
  if 0x4000 ≤ o then s
  else
    let p := o / 0x100
    match o % 0x100 with
    | 0x00 => if s.power.clkOk then pilCfgWrite p v s else s
    | 0x04 => if s.power.clkOk then pilRsrcWrite p v s else s
    | 0x08 => if bit v 15 then pilWakeReq p s else pilCommand p v s
    | 0x18 => s.updPil p fun q => { q with evt := wW1C 0x1FF q.evt v }
    | _ => s

/-! ### Skiver (10 R237 to R240), offsets from 100A_0000h -/

/-- A read. -/
def skvRead (o : Nat) (s : State) : State :=
  let k := s.app.veh.skv
  if within 0x100 o 0x1BC then
    let x := k.subst.get ((o - 0x100) / 8)
    busOk (if o % 8 = 4 then pack [(x.1, 16), (statusCode x.2, 0)] else 0) s
  else match o with
    | 0x0 => busOk (pack [(b2n k.lock, 31), (k.schemas.toNat, 0)]) s
    | 0x4 => busOk (pack [(k.jobs.length, 16), (s.skvBytes, 0)]) s
    | 0x8 => skvCplRead s
    | 0xC => busOk (pack [(k.errRange, 16), (k.errOther, 0)]) s
    | _ => busOk 0 s

/-- A write. -/
def skvWrite (o : Nat) (v : Word) (s : State) : State :=
  if within 0x100 o 0x1BC then (if o % 8 = 0 then skvSubmit ((o - 0x100) / 8) v.toNat s else s)
  else if o = 0 then skvCfgWrite v s
  else s

/-! ### Tack room (16), offsets from 100B_0000h -/

/-- A read; every register is read only. -/
def tkrRead (o : Nat) (s : State) : State :=
  if o < 0x400 then busOk (if o % 0x40 < 0x30 then s.mrWord (o / 0x40) (o % 0x40 / 4) else 0) s
  else if o = 0x800 then busOk s.tackStat s
  else busOk 0 s

/-! ### Sealed-link message ports (12 R281, R282), offsets from 1030_0000h -/

/-- A read: only by Cantle cores and debug. -/
def slRead (port o : Nat) (s : State) : State :=
  if !slMaster port then busFail s
  else if within 0x200 o 0x2FC then busOk (s.slRxWord ((o - 0x200) / 4)) s
  else match o with
    | 0x100 => busOk (s.app.sl.port.get port).tag s
    | 0x108 => busOk (pack [(statusCode (s.app.sl.port.get port).st, 0)]) s
    | 0x304 => busOk s.slStat s
    | _ => busOk 0 s

/-- A write. -/
def slWrite (port o : Nat) (v : Word) (s : State) : State :=
  if !slMaster port then busFail s
  else if o ≤ 0xEC then busOk 0 (s.updSl port fun q => { q with staged := q.staged.set (o / 4) v })
  else match o with
    | 0x100 => busOk 0 (s.updSl port fun q => { q with tag := v })
    | 0x104 => slSend port v s
    | 0x300 => slPop port s
    | _ => busOk 0 s

/-! ### Fuse read-out (16 R395), offsets from 1040_0000h -/

/-- Word i of a digest. -/
def digestWord (d : BitVec 384) (i : Nat) : Word := BitVec.ofNat 32 (ofLE (((digestBytes d).drop (4 * i)).take 4))

/-- A word of the fuse block; offsets not listed read 0. FUS_SVN is a thermometer code. -/
def State.fuseWord (s : State) (o : Nat) : Word :=
  let f := s.fuses
  if within 0x30 o 0xEC then digestWord (f.root.get ((o - 0x30) / 48)) ((o - 0x30) % 48 / 4)
  else if within 0x100 o 0x1BC then digestWord (f.safe.get ((o - 0x100) / 48)) ((o - 0x100) % 48 / 4)
  else match o with
    | 0x00 => f.vendor
    | 0x04 => f.serial
    | 0x08 => half f.mac.toNat 0
    | 0x0C => half f.mac.toNat 1
    | 0x10 => s.fusLife
    | 0x14 => pack [(f.dbg.toNat, 0)]
    | 0x18 => half f.ptOff.toNat 0
    | 0x1C => half f.ptOff.toNat 1
    | 0x20 => pack [(f.blkOff.toNat, 0)]
    | 0x28 => half (2 ^ f.svn - 1) 0
    | 0x2C => half (2 ^ f.svn - 1) 1
    | 0xF0 => pack [(f.rrev.toNat, 0)]
    | _ => 0

end Sys2Proof.Machine
end

