-- ==== Sys2Proof/Machine/BusPower.lean ====
section
/-!
DEFINITION. The power-die output window (14 R367, 13 R341), offsets from 1020_0000h.
-/
set_option Elab.async false
namespace Sys2Proof.Machine

/-- A change of the power die's state. -/
def powerUpd (f : PowerDie → PowerDie) (s : State) : State := { s with power := f s.power }

/-! ### Output channels -/

/-- The word of OUT_STAT_x. -/
def outStatWord (o : Output) : Word :=
  pack [(o.ignored, 16), (b2n o.ol, 15), (b2n o.warn, 14), (o.cause, 12), (o.retries, 8), (b2n o.bhold, 3),
    (o.st.ctorIdx, 0)]

/-- A register of a channel. -/
def outRead (o : Output) (off : Nat) : Word :=
  match off with
  | 0x00 => o.cfg
  | 0x08 => outStatWord o
  | 0x0C => o.meas
  | 0x10 => o.evt
  | 0x14 => pack [(o.restarts, 16), (o.trips, 0)]
  | 0x18 => pack [(ofInt 16 o.vtp, 16), (o.tpRes, 0)]
  | _ => 0

/-- OUT_CMD_x: a test pulse, whose sample is a free value and whose mean current is the one measured last, the clear edge and
the switch-off. -/
def outCmdWrite (x : Nat) (v : Word) (s : State) : State :=
  let s0 := if bit v 2 then outFirmware x (outTest x (toInt 16 (s.freeBits 16).toNat) (fld (s.out x).meas 0 16)) s.used else s
  let s1 := if bit v 1 then outCmdClear x s0 else s0
  if bit v 0 then outCmdOff x s1 else s1

/-- A write of a register of a channel. -/
def outRegWrite (x off : Nat) (v : Word) (s : State) : State :=
  match off with
  | 0x00 => outCfgWrite x v s
  | 0x04 => outCmdWrite x v s
  | 0x10 => s.updOut x fun o => { o with evt := wW1C 0x1FFF o.evt v }
  | _ => s

/-! ### Device-wide registers -/

/-- OUT_PROT to OUT_SUM. -/
def outDevRead (p : PowerDie) (off : Nat) : Word :=
  match off with
  | 0x0 => pack [(b2n p.protLock, 31), (p.retryWin, 16), (p.retryMax, 8), (b2n p.test, 1), (b2n p.run, 0)]
  | 0x4 => pack ((List.range 4).map fun q => ((p.qtemp.get q).toNat, 8 * q))
  | 0x8 => pack ((p.qchg.toNat, 8) :: (List.range 4).map fun q => (p.qband.get q, 2 * q))
  | 0xC => pack [(b2n p.sumOver, 31), (p.sum, 0)]
  | _ => 0

/-- A write of OUT_PROT to OUT_SUM. -/
def outDevWrite (off : Nat) (v : Word) (s : State) : State :=
  match off with
  | 0x0 => outProtWrite v s
  | 0x8 => powerUpd (fun p => { p with qchg := p.qchg &&& ~~~(BitVec.ofNat 4 (fld v 8 4)) }) s
  | 0xC => powerUpd (fun p => { p with sumOver := p.sumOver && !bit v 31 }) s
  | _ => s

/-! ### Residual-current inputs -/

/-- A register of an input. -/
def rcRead (c : RcCh) (off : Nat) : Word :=
  match off with
  | 0x00 => c.cfg
  | 0x04 => pack [(c.iac, 16), (ofInt 16 c.idc, 0)]
  | 0x08 => pack [(c.trips, 16), (c.st, 0)]
  | 0x0C => c.evt
  | _ => 0

/-- A write of a register of an input. -/
def rcRegWrite (n off : Nat) (v : Word) (s : State) : State :=
  match off with
  | 0x00 => rcCfgWrite n v s
  | 0x0C => s.updRc n fun c => { c with evt := wW1C 0x3F c.evt v }
  | 0x10 => if bit v 0 then rcClear n s else s
  | _ => s

/-! ### Insulation channels -/

/-- A register of a channel; IMD_ASSIGN mirrors the Bridle configuration (R364). -/
def State.imRead (s : State) (k off : Nat) : Word :=
  let c := s.power.im.get k
  match off with
  | 0x00 => pack [(c.halfT, 8), (c.vinj, 4), (b2n c.pause, 1), (b2n c.en, 0)]
  | 0x04 => c.net
  | 0x08 => pack [(c.div, 0)]
  | 0x0C => c.thr
  | 0x10 => pack [(c.riso, 16), (c.pole, 6), (c.st.ctorIdx, 0)]
  | 0x14 => pack [(ofInt 16 c.vn, 16), (ofInt 16 c.vp, 0)]
  | 0x18 => half (s.imMask k).toNat 0
  | 0x1C => half (s.imMask k).toNat 1
  | 0x20 => c.evt
  | _ => 0

/-- A write of a register of a channel. -/
def imRegWrite (k off : Nat) (v : Word) (s : State) : State :=
  match off with
  | 0x00 => imCfgWrite k v s
  | 0x04 => imNetWrite k v s
  | 0x08 => imDivWrite k v s
  | 0x0C => imThrWrite k v s
  | 0x20 => s.updIm k fun c => { c with evt := wW1C 0x7F c.evt v }
  | 0x24 => if bit v 0 then imClear k s else s
  | _ => s

/-! ### Reader channels and tag slots (13 R341) -/

/-- Word i of a byte table. -/
def wordAt (b : Bank Byte) (i : Nat) : Word :=
  BitVec.ofNat 32 (ofLE ((List.range 4).map fun j => b.get (4 * i + j)))

/-- A byte table with word i written. -/
def putWordAt (b : Bank Byte) (i : Nat) (v : Word) : Bank Byte :=
  (List.range 4).foldl (fun b j => b.set (4 * i + j) (BitVec.ofNat 8 (fld v (8 * j) 8))) b

/-- A register of a reader channel. -/
def rdRead (r : Reader) (off : Nat) : Word :=
  if within 0x40 off 0x7C then BitVec.ofNat 32 (ofLE ((r.ids.drop (off - 0x40)).take 4))
  else if within 0x200 off 0x2FC then wordAt r.rx ((off - 0x200) / 4)
  else match off with
    | 0x0 => pack [(r.txlen, 16), (r.types.toNat, 2), (r.mode, 0)]
    | 0x4 => r.cfg
    | 0x8 => pack [(statusCode r.status, 24), (r.st.ctorIdx, 16), (r.cards, 12), (r.rxlen, 0)]
    | 0xC => r.evt
    | _ => 0

/-- A write of a register of a reader channel. -/
def rdRegWrite (n off : Nat) (v : Word) (s : State) : State :=
  if within 0x100 off 0x1FC then s.updRd n fun r => { r with tx := putWordAt r.tx ((off - 0x100) / 4) v }
  else match off with
    | 0x0 => rdCtlWrite n v s
    | 0x4 => rdCfgWrite n v s
    | 0xC => rdEvtWrite n v s
    | _ => s

/-- The word of OUT_TAGCTL_k. -/
def tagCtlWord (t : TagSlot) : Word :=
  pack [(t.len, 16), (b2n t.typeB, 13), (b2n t.wrErr, 12), (b2n t.bank, 11), (b2n t.pending, 10), (b2n t.en, 8),
    (t.channel, 0)]

/-- A word written to the shadow bank of slot k. -/
def tagShadowWord (k i : Nat) (v : Word) (s : State) : State :=
  (List.range 4).foldl (fun t j => tagShadowWrite k (4 * i + j) (BitVec.ofNat 8 (fld v (8 * j) 8)) t) s

/-! ### The window -/

/-- The word at an offset of the window; offsets not listed read 0. -/
def State.powerWord (s : State) (o : Nat) : Word :=
  if o < 0x1000 then outRead (s.out (o / 0x40)) (o % 0x40)
  else if within 0x1000 o 0x17FC then outRead (s.out (64 + (o - 0x1000) / 0x40)) (o % 0x40)
  else if within 0x2000 o 0x200C then outDevRead s.power (o - 0x2000)
  else if within 0x4000 o 0x47FC then rcRead (s.power.rc.get ((o - 0x4000) / 0x20)) (o % 0x20)
  else if within 0x5000 o 0x53FC then s.imRead ((o - 0x5000) / 0x40) (o % 0x40)
  else if within 0xC000 o 0xFFFC then rdRead (s.rd ((o - 0xC000) / 0x400)) (o % 0x400)
  else if within 0x10000 o 0x1003C then (if o % 16 = 0 then tagCtlWord (s.tag ((o - 0x10000) / 16)) else 0)
  else if o = 0x10100 then pack [(s.power.psq.toNat, 0)]
  else if within 0x11000 o 0x11FFC then
    wordAt ((s.tag ((o - 0x11000) / 0x400)).bytes true) (o % 0x400 / 4)
  else 0

/-- The effect of a word written at an offset of the window. -/
def powerRegWrite (o : Nat) (v : Word) (s : State) : State :=
  if o < 0x1000 then outRegWrite (o / 0x40) (o % 0x40) v s
  else if within 0x1000 o 0x17FC then outRegWrite (64 + (o - 0x1000) / 0x40) (o % 0x40) v s
  else if within 0x2000 o 0x200C then outDevWrite (o - 0x2000) v s
  else if within 0x4000 o 0x47FC then rcRegWrite ((o - 0x4000) / 0x20) (o % 0x20) v s
  else if within 0x5000 o 0x53FC then imRegWrite ((o - 0x5000) / 0x40) (o % 0x40) v s
  else if within 0xC000 o 0xFFFC then rdRegWrite ((o - 0xC000) / 0x400) (o % 0x400) v s
  else if within 0x10000 o 0x1003C then (if o % 16 = 0 then tagCtlWrite ((o - 0x10000) / 16) v s else s)
  else if within 0x11000 o 0x11FFC then tagShadowWord ((o - 0x11000) / 0x400) (o % 0x400 / 4) v s
  else s

/-- A read of the window. -/
def outWinRead (o : Nat) (s : State) : State := busOk (s.powerWord o) s

/-- A write of the window: OUT_PSQ only from port 21 (R318), the rest by R68. -/
def outWinWrite (port o : Nat) (v : Word) (s : State) : State :=
  if o = 0x10100 then psqWrite port v s else powerWrite (powerRegWrite o v) s

end Sys2Proof.Machine
end

