-- ==== Sys2Proof/Machine/Bus.lean ====
section
/-!
DEFINITION. Accesses over the Harness (05 R104, R105): register words by block, memory bytes, and the write of a
register (01 R7).
-/
set_option Elab.async false
namespace Sys2Proof.Machine

/-! ### Register words -/

/-- The Green PHY channel behind an address of the channel windows: 64 and 65 are M0 and M1. -/
def plcOf (a : Nat) : Option (Nat × Nat) :=
  if within 0x10080000 a 0x1008FFFF then some ((a - 0x10080000) / 0x400, a % 0x400)
  else if within 0x10090000 a 0x100907FF then some (64 + (a - 0x10090000) / 0x400, a % 0x400)
  else none

/-- A read of the register block at an address: a window of 1009_0000h that no port fills is a hole. -/
def blockRead (port a : Nat) (s : State) : State :=
  let o := a % 0x10000
  match plcOf a with
  | some (n, off) => plcRead port n off s
  | none =>
    match a / 0x10000 with
    | 0x1000 => bklRead port o s
    | 0x1001 => mbxRead port o s
    | 0x1002 => if o / 4 < 30 then waitMaxRead (o / 4) s else busOk 0 s
    | 0x1003 => grtRead o s
    | 0x1004 => pmcRead o s
    | 0x1005 => clkRead port o s
    | 0x1006 => pilRead port o s
    | 0x1009 => busFail s
    | 0x100A => skvRead o s
    | 0x100B => tkrRead o s
    | 0x1010 => busOk (s.safWord o) s
    | 0x1020 => outWinRead o s
    | 0x1021 => outWinRead (0x10000 + o) s
    | 0x1030 => slRead port o s
    | 0x1040 => busOk (s.fuseWord o) s
    | _ => busOk 0 s

/-- A write of the register block at an address; the Bridle read window and the fuse read-out are read only. -/
def blockWrite (port a : Nat) (v : Word) (s : State) : State :=
  let o := a % 0x10000
  match plcOf a with
  | some (n, off) => plcWrite n off v s
  | none =>
    match a / 0x10000 with
    | 0x1000 => busOk 0 (bklWrite port o v s)
    | 0x1001 => mbxWrite port o v s
    | 0x1003 => busOk 0 (grtWrite o v s)
    | 0x1004 => busOk 0 (pmcWrite o v s)
    | 0x1005 => clkWrite port o v s
    | 0x1006 => busOk 0 (pilWrite o v s)
    | 0x1009 => busFail s
    | 0x100A => busOk 0 (skvWrite o v s)
    | 0x1020 => outWinWrite port o v s
    | 0x1021 => outWinWrite port (0x10000 + o) v s
    | 0x1030 => slWrite port o v s
    | 0x1040 => busFail s
    | _ =>
      if within 0x1010 (a / 0x10000) 0x101F || (s.app.lane.fault && within 0x1020 (a / 0x10000) 0x102F) then busFail s
      else busOk 0 s

/-- The Girth registers of the sealed-link endpoint (R105). -/
def girth21 (a : Nat) : Bool := within 0x10030350 a 0x1003035C

/-- A master reaches a register word for reading or writing (R105): port 20 none, port 21 its own few. -/
def State.regAllowed (s : State) (port a : Nat) (write : Bool) : Bool :=
  a % 4 = 0 && regionOf a = .regs &&
    (if port = 21 then girth21 a || (write && a = 0x10210100) else port ≠ 20 && s.reads port .regs)

/-- A read of a register word: the outcome in `busErr` and `busData`. -/
def busRead (port a : Nat) (s : State) : State :=
  if s.regAllowed port a false then blockRead port a s else busFail s

/-- A write of a register word: the outcome in `busErr`. -/
def busWrite (port a : Nat) (v : Word) (s : State) : State :=
  if s.regAllowed port a true then blockWrite port a v s else busFail s

/-! ### Loads and stores of 1, 2, 4 or 8 bytes -/

/-- A byte of the flash at an offset from the base of the window: the journal areas and the update logs hold their records (16 R410). -/
def State.flashByte (s : State) (o : Nat) : Byte :=
  if within 0x120000 o 0x21FFFF then (s.flash.a.image[o - 0x120000]?).getD 0xFF
  else if within 0x220000 o 0x31FFFF then (s.flash.b.image[o - 0x220000]?).getD 0xFF
  else if within 0x320000 o 0x32FFFF then ((s.sec.upd.image 0)[o - 0x320000]?).getD 0xFF
  else if within 0x330000 o 0x33FFFF then ((s.sec.upd.image 1)[o - 0x330000]?).getD 0xFF
  else s.sec.mem.get o

/-- A byte as a master reads it in memory, the boot ROM or the flash window. -/
def State.readByte (s : State) (a : Nat) : Byte :=
  match regionOf a with
  | .bootRom => Config.bootRom a
  | .flash => s.flashByte (a - 0x20000000)
  | _ => s.byte a

/-- A load over the Harness: no value at a bus error. A register is read word by word, the lower word first; a part
of a word is taken from the word. -/
def busLoad (port a n : Nat) (s : State) : State × Option Nat :=
  if regionOf a = .regs then
    let s1 := busRead port (a / 4 * 4) s
    if s1.app.clk.busErr then (s1, none)
    else if n ≤ 4 then (s1, some (s1.app.clk.busData.toNat / 2 ^ (8 * (a % 4)) % 2 ^ (8 * n)))
    else
      let s2 := busRead port (a + 4) s1
      if s2.app.clk.busErr then (s2, none)
      else (s2, some (s1.app.clk.busData.toNat + 2 ^ 32 * s2.app.clk.busData.toNat))
  else if s.reaches port a n false then (s, some (ofLE ((List.range n).map fun i => s.readByte (a + i))))
  else (s, none)

/-- A store to EV_TAKE of the context that runs on the engine of the address (R193, R199). -/
def takeAt (a v : Nat) (s : State) : State :=
  match regionOf a, ctxOffset a with
  | .rein e, some o =>
    if within 0x48 o 0x4B && (s.app.eng.get e).running = some ((a % 0x80000 - 0x20000) / 0x3000)
    then evTake e (BitVec.ofNat 32 (v * 2 ^ (8 * (o - 0x48)))) s else s
  | _, _ => s

/-- A store over the Harness: false at a bus error. A register takes whole words only, the lower word first. -/
def busStore (port a n v : Nat) (s : State) : State × Bool :=
  if regionOf a = .regs then
    if n < 4 then (busFail s, false)
    else
      let s1 := busWrite port a (BitVec.ofNat 32 v) s
      if n = 4 || s1.app.clk.busErr then (s1, !s1.app.clk.busErr)
      else
        let s2 := busWrite port (a + 4) (BitVec.ofNat 32 (v / 2 ^ 32)) s1
        (s2, !s2.app.clk.busErr)
  else if s.mayStore port a n then (takeAt a v (memPuts a (toLE n v) s), true)
  else (s, false)

/-- REGISTER_WRITE (R7). -/
def execRegisterWrite (port : Fin 24) (addr val : Word) (s : State) : Res := .next (busWrite port addr.toNat val s)

end Sys2Proof.Machine
end

