-- ==== Sys2Proof/Machine/Applied.lean ====
section
/-!
DEFINITION. What firmware does with a written entry (06 R127; 07 R148, R169; 08 R189; 10 R245; 13 R342; 14 R363, R368,
R369): class A entries reach the registers at once.
-/
set_option Elab.async false
namespace Sys2Proof.Machine

/-! ### Outputs and earth supervision (14 R368, R369) -/

/-- OUT_CFG_x from the entries of the channel. -/
def State.outCfgOf (s : State) (x : Nat) : Word :=
  let n := s.onum (0x6000 + x)
  let coil := decide (x < 64)
  pack [(n 8 / 10, 28), (n 7, 24), (if coil then n 4 else 0, 16), (if coil then n 5 else 0, 8),
    (if coil then n 6 else 0, 6), (n 3, 4), (n 2, 3), (n 1, 0)]

/-- The entries of an output applied. -/
def applyOut (x : Nat) (s : State) : State :=
  let v := s.outCfgOf x
  if v = (s.out x).cfg then s else powerWrite (outCfgWrite x v) s

/-- An IM register written: a channel that runs is paused for it (14 R367). -/
def imThrough (k : Nat) (f : State → State) (s : State) : State :=
  let c := s.power.im.get k
  if imOpen c then f s else imResume k (f (imPause k s))

/-- The highest maximum voltage of the points a channel serves, 0.1 V (R363). -/
def State.imVmax (s : State) (k : Nat) : Nat :=
  ((bitsOf (s.imMask k)).map fun p => s.onum (ptBase p + 8) 4).foldl max 0

/-- The thresholds of a channel from the entries (R363), whole kΩ. -/
def applyImThr (k : Nat) (s : State) : State :=
  let v := s.imVmax k
  let w := pack [(v * s.onum (0x6800 + k) 9 / 10000, 16), (v * s.onum (0x6800 + k) 8 / 10000, 0)]
  if w = (s.power.im.get k).thr then s else imThrough k (imThrWrite k w) s

/-- The entries of an IM channel applied. -/
def applyIm (k sub : Nat) (s : State) : State :=
  let n := s.onum (0x6800 + k)
  let c := s.power.im.get k
  match sub with
  | 1 => if n 1 = 1 then imEnable k (applyImThr k s) else imDisable k s
  | 3 | 4 => imThrough k (imCfgWrite k (pack [(n 4 / 100, 8), (n 3, 4), (b2n true, 1), (b2n c.en, 0)])) s
  | 5 | 6 => imThrough k (imNetWrite k (pack [(n 6, 16), (n 5, 0)])) s
  | 7 => imThrough k (imDivWrite k (BitVec.ofNat 32 (n 7))) s
  | _ => applyImThr k s

/-- The half-period of a channel in OFF is written without a pause. -/
def applyImCfg (k sub : Nat) (s : State) : State :=
  let n := s.onum (0x6800 + k)
  let c := s.power.im.get k
  if (sub = 3 || sub = 4) && imOpen c then imCfgWrite k (pack [(n 4 / 100, 8), (n 3, 4), (b2n c.pause, 1), (b2n c.en, 0)]) s
  else applyIm k sub s

/-- The entries of a residual-current input applied. -/
def applyRc (n : Nat) (s : State) : State :=
  let v := s.onum (0x6840 + n)
  let w := pack [(v 4, 24), (v 3, 16), (v 2, 8), (v 1, 0)]
  if w = (s.power.rc.get n).cfg then s else powerWrite (rcCfgWrite n w) s

/-- 6080h.02: the Service output test. -/
def applyTest (on : Bool) (s : State) : State :=
  powerWrite (outProtWrite (pack [(s.power.retryWin, 16), (s.power.retryMax, 8), (b2n on, 1), (b2n s.power.run, 0)])) s

/-- The points that use a channel: those whose coil or lock it is in the safety configuration. -/
def State.outPoints (s : State) (x : Nat) : List Nat :=
  (List.range 64).filter fun p => if x < 64 then (s.ptCfg p).coil = x else (s.ptCfg p).lock = x - 64

/-- 6000h + x.20: an output test; "on" is a Girth request of the channel's kind. -/
def outTestCmd (x n : Nat) (s : State) : Status × State :=
  match n with
  | 1 => girthSubmit 0 none (outGirthKind x) (outUnit x) 0 s
  | 2 => (.ok, powerWrite (outCmdOff x) s)
  | 3 => (.ok, powerWrite (outCmdClear x) s)
  | _ => (.ok, s)

/-! ### Points (07 R148, R169; 08 R189; 10 R245) -/

/-- OFF_WAIT in 100 ms units: how a value between two is rounded is not given, a free bit decides. -/
def State.offWaitOf (s : State) (p : Nat) : Nat :=
  let v := s.onum (ptBase p) 8
  v / 100 + (if v % 100 = 0 then 0 else (s.freeBits 1).toNat)

/-- PIL_CFG_p and PIL_RSRC_p from the entries; EDITION and PROX_FORM stay until the next session. -/
def applyPilot (p : Nat) (s : State) : State :=
  let n := s.onum (ptBase p)
  let q := s.pil p
  let c := pack [(s.offWaitOf p, 24), (n 4, 8), (n 6, 6), (n 5, 4), (b2n (pilEd17 q), 2), (pilForm q, 0)]
  let r := pack [(n 9, 16), (n 7, 0)]
  if !s.power.clkOk then s
  else
    let s1 := if c = q.cfg then s else pilCfgWrite p c s
    let s2 := if r = q.rsrc then s1 else pilRsrcWrite p r s1
    let s3 := s2.updPil p fun q => { q with latchedMax := n 0xA, releasedMax := n 0xB }
    if n 8 % 100 = 0 then s3 else s3.used

/-- The QUEUED context of a point is freed; one that runs, when its activation has ended. -/
def freeQueued (p : Nat) (s : State) : State :=
  match s.slotOfRole p 0 with
  | some i =>
    let s1 := if (s.app.ctx.get i).st = .running then sesDone (i / 32) s else s
    (ctxFree i s1).2
  | none => s

/-- A new point type takes effect (R148): steps 1 to 3. -/
def applyType (p : Nat) (s : State) : State :=
  let s1 := applyPilot p (freeQueued p s)
  let s2 := pilTakes p (powerWrite (pilCommand p 0) s1)
  if within 1 (s2.pointType p) 5 then startQueued p s2 else s2

/-- A change of type is barred (R148, R241). -/
def State.typeBarred (s : State) (p t : Nat) : Bool :=
  t ≠ s.pointType p &&
    ((s.pointSlots p).any (fun i =>
        let c := s.app.ctx.get i
        c.role ≠ 0 || (s.vs i).preAuth) ||
      (t = 5 && (List.range 64).any fun q => q ≠ p && s.pointType q = 5 && s.seqPortOf q = s.seqPortOf p))

/-- Points of type 5 (R148). -/
def State.type5 (s : State) : Nat := ((List.range 64).filter fun q => s.pointType q = 5).length

/-- PLC_CFG_n's transmit attenuation (R189). -/
def applyAtten (n v : Nat) (s : State) : State := plcCfgWrite n (putFld (s.plc n).cfg 16 8 v) s

/-- The enable of a mains port, which a start takes with the Green PHY channels. -/
def isMainsEnable (idx sub : Nat) : Bool := (idx = 0x2101 || idx = 0x2102) && sub = 1

/-- A mains port enabled: the line driver's Girth request, after whose grant firmware starts the port; disabled: STOP. -/
def applyMains (m : Nat) (on : Bool) (s : State) : State :=
  if on then (if (s.plc (64 + m)).on then s else (girthSubmit 0 none 2 m 0 s).2) else plcStop (64 + m) s

/-! ### Readers and tag slots (13 R342) -/

/-- The entries of a reader channel applied. -/
def applyReader (n : Nat) (s : State) : State :=
  let v := s.onum (0x7810 + n)
  let r := s.rd n
  let s1 := powerWrite (readerModeWrite n (pack [(r.txlen, 16), (v 2, 2), (v 1, 0)])) s
  let c := putFld (putFld (putFld r.cfg 20 4 (v 5)) 16 4 (v 4)) 0 16 (v 3)
  if c = r.cfg then s1 else powerWrite (rdCfgWrite n c) s1

/-- The control word of a slot from its entries. -/
def State.tagWord (s : State) (k : Nat) (en : Bool) : Word :=
  let ch := s.onum (0x7830 + k) 1
  pack [((s.tag k).len, 16), (s.onum (0x7830 + k) 4, 13), (b2n (en && decide (ch < 16)), 8), (ch % 16, 0)]

/-- Channel or type of a slot: not in use, then in use with the new ones. -/
def applyTag (k : Nat) (s : State) : State :=
  powerWrite (fun s => tagCtlWrite k (s.tagWord k true) (tagCtlWrite k (s.tagWord k false) s)) s

/-- The content of a slot: the shadow bank, LEN and COMMIT (R340). -/
def applyTagFile (k : Nat) (d : List Byte) (s : State) : State :=
  powerWrite (fun s =>
    let s1 := ((List.range d.length).zip d).foldl (fun t x => tagShadowWrite k x.1 x.2 t) s
    tagCtlWrite k (putFld (s1.tagWord k (s1.tag k).en) 16 11 d.length ||| 0x200) s1) s

/-! ### One entry applied -/

/-- A stored entry of a point's block, 3000h + 40h × p, applied. -/
def applyPoint (idx sub : Nat) (s : State) : State :=
  let p := (idx - 0x3000) / 64
  if idx % 64 = 0 then applyPilot p s
  else if idx % 64 = 4 && sub = 4 then applyAtten p (s.onum idx 4) s
  else if idx % 64 = 8 && sub = 4 then
    (List.range 16).foldl (fun t k => if (t.imMask k).getLsbD p then applyImThr k t else t) s
  else s

/-- A stored entry applied to the hardware, as at a write or at a start. -/
def applyEntry (idx sub : Nat) (s : State) : State :=
  if within 0x3000 idx 0x3FFF then applyPoint idx sub s
  else if within 0x6000 idx 0x605F then applyOut (idx - 0x6000) s
  else if within 0x6800 idx 0x680F then applyImCfg (idx - 0x6800) sub s
  else if within 0x6840 idx 0x687F then applyRc (idx - 0x6840) s
  else if within 0x7810 idx 0x781F then applyReader (idx - 0x7810) s
  else if within 0x7830 idx 0x7833 then
    (if sub = 2 then applyTagFile (idx - 0x7830) (s.oval idx 2) s else applyTag (idx - 0x7830) s)
  else if (idx = 0x2101 || idx = 0x2102) && sub = 1 then applyMains (idx - 0x2101) (s.onum idx 1 = 1) s
  else if (idx = 0x2101 || idx = 0x2102) && sub = 3 then applyAtten (64 + (idx - 0x2101)) (s.onum idx 3) s
  else s

end Sys2Proof.Machine
end

