-- ==== Sys2Proof/Machine/Server.lean ====
section
/-!
DEFINITION. The dictionary server (06 R121 to R147): the checks of a request in the order of R126, reads, writes with
their effects, and the status each client gets.
-/
set_option Elab.async false
namespace Sys2Proof.Machine

/-! ### Checks common to reads and writes (R124 to R126) -/

/-- The role is in the fuse-held set and the transport carries it (R124; 16 R409). -/
def State.carries (s : State) (a : Asker) : Bool :=
  s.rolePresent a.role && match a.via with
    | .can _ _ => a.role = .pub || a.role = .operator
    | .latigo _ => a.role ≠ .firmware

/-- An entry of a session slot. -/
def isSession (idx : Nat) : Bool := within 0x4000 idx 0x47FF

/-- The handle and serial match the live session of the entry's slot (R125, R126 check 4). -/
def State.namesSlot (s : State) (a : Asker) (idx : Nat) : Bool :=
  !isSession idx || s.namesSession a.handle a.serial = some ((idx - 0x4000) / 8)

/-- The connection of a Customer. -/
def State.conn (s : State) (c : Nat) : Option Conn := s.app.server.conn.get c

/-- Changing a connection that is open. -/
def State.updConn (s : State) (c : Nat) (f : Conn → Conn) : State :=
  { s with app.server.conn := s.app.server.conn.upd c (·.map f) }

/-- The session of a handle is live: its slot has not been freed since (09 R209, R216). -/
def State.handleLive (s : State) (h : Nat) : Bool :=
  let slot := h / 2 ^ 24 % 256
  (s.app.ctx.get slot).st ≠ .free && s.handleOf slot = h

/-- A Customer's connection is bound to the named session, or binds to it now: no other live session is bound and the
authorised identifier is the certificate's common name (09 R216). -/
def State.mayBind (s : State) (c : Nat) (a : Asker) (idx : Nat) : Bool :=
  match s.conn c with
  | none => false
  | some x =>
    match x.bound with
    | some b =>
      if b.1 = a.handle then true
      else !s.handleLive b.1 && (s.vs ((idx - 0x4000) / 8)).ident = x.name
    | none => (s.vs ((idx - 0x4000) / 8)).ident = x.name

/-- A Customer reaches a session, and a signed record, only through its binding (09 R216). -/
def State.bindingOk (s : State) (a : Asker) (idx sub : Nat) (data : List Byte) : Bool :=
  if a.role ≠ .customer then true
  else match a.via with
    | .can _ _ => false
    | .latigo c =>
      if isSession idx then s.mayBind c a idx
      else if idx = 0x5480 && sub = 8 && !data.isEmpty then ((s.conn c).bind (·.bound)).map (·.2) = some (ofLE data)
      else if idx = 0x5480 && sub = 9 then
        ((s.conn c).bind (·.bound)).map (·.2) = some (s.die.sel.get (selKey .customer 0))
      else true

/-- The binding made by a request that names a session. -/
def makeBinding (a : Asker) (idx : Nat) (s : State) : State :=
  match a.via with
  | .can _ _ => s
  | .latigo c =>
    if a.role = .customer && isSession idx then s.updConn c fun x => { x with bound := some (a.handle, a.serial) } else s

/-- Entries that the sealed die answers (R123; 12 R313; 13 R342). -/
def isSealedEntry (idx : Nat) : Bool :=
  within 0x5000 idx 0x5FFF || (isSession idx && decide (4 ≤ idx % 8)) || isTermEntry idx

/-! ### Reads -/

/-- The sealed link has 32 unacknowledged messages: a request that needs it is BUSY (R126 check 7; 04 R95). -/
def State.linkBusy (s : State) : Bool := decide (32 ≤ s.app.link.unacked.length)

/-- A read carried over the sealed link: TIMEOUT where it cannot be completed (R127). -/
def readSealed (a : Asker) (idx sub : Nat) (s : State) : Status × List Byte × State :=
  if !s.linkUp then (.timeout, [], s)
  else if s.linkBusy then (.busy, [], s)
  else if isTermEntry idx then let r := termRead a.role idx sub s; (r.1, r.2, s)
  else sealedRead a.role idx sub a.serial s

/-- 64 accepted requests are not yet answered (R129). -/
def State.serverFull (s : State) : Bool := decide (64 ≤ s.unanswered)

/-- A read (R126). -/
def serveRead (a : Asker) (idx sub : Nat) (s : State) : Status × List Byte × State :=
  match s.entry idx sub with
  | none => (.absent, [], s)
  | some o =>
    if !s.carries a then (.denied, [], s)
    else if !granted o.rd a.role then (.denied, [], s)
    else if !s.namesSlot a idx then (.stale, [], s)
    else if !s.bindingOk a idx sub [] then (.denied, [], s)
    else if s.serverFull then (.busy, [], s)
    else
      let r := if isSealedEntry idx then readSealed a idx sub s else (.ok, s.ownValue a o idx sub, ownRead idx sub s)
      (r.1, r.2.1, if r.1 = .ok then makeBinding a idx r.2.2 else r.2.2)

/-! ### Rules of writes: state (check 5) -/

/-- State rules of the configuration entries of 1000h to 2FFFh (R133, R146). -/
def State.devStateOk (s : State) (a : Asker) (idx sub n : Nat) : Bool :=
  if within 0x1800 idx 0x181F || within 0x1A00 idx 0x1A1F then (s.fport a.via.port).nmt = .preop
  else match a.via with
    | .can _ _ => true
    | .latigo c =>
      if (idx = 0x2010 || idx = 0x2011) && sub = 1 && n = 0 then (s.conn c).map (·.port) ≠ some (idx - 0x2010)
      else !(idx = 0x2030 && sub = 1 && n = 0)

/-- State rules of the points and sessions (07 R148; 09 R215; 10 R229, R241). -/
def State.pointStateOk (s : State) (idx sub n : Nat) : Bool :=
  if within 0x3000 idx 0x3FFF then
    let p := (idx - 0x3000) / 64
    if idx % 64 = 0 && sub = 1 then !s.typeBarred p n
    else if idx % 64 = 8 && sub = 9 && s.pointType p = 5 then
      !(List.range 64).any fun q => q ≠ p && s.pointType q = 5 && s.seqPortOf q = n
    else true
  else
    let slot := (idx - 0x4000) / 8
    if idx % 8 = 1 && sub = 1 then within 4 (s.phase slot) 7
    else if idx % 8 = 2 && sub = 6 then (s.vs slot).pendDec ≠ 0
    else true

/-- State rules of the outputs and of earth supervision (14 R368, R369). -/
def State.powerStateOk (s : State) (idx sub : Nat) : Bool :=
  if within 0x6000 idx 0x605F then
    let x := idx - 0x6000
    let o := s.out x
    if sub = 0x20 then
      s.power.test && !(s.outPoints x).any fun p => (s.pointSlots p).any fun i =>
        (s.app.ctx.get i).role = 1 || (s.app.ctx.get i).role = 2
    else o.st = .off || o.st = .latched
  else if within 0x6800 idx 0x680F then
    let c := s.power.im.get (idx - 0x6800)
    if sub = 0xD then c.st = .fault else !(within 3 sub 9 && c.st = .fault)
  else if within 0x6840 idx 0x687F then
    let c := s.power.rc.get (idx - 0x6840)
    if sub = 9 then rcTripped c else !rcTripped c
  else true

/-- State rules of security and of the terminal (13 R342; 16 R416, R422). -/
def State.otherStateOk (s : State) (idx sub : Nat) : Bool :=
  let st := s.sec.upd.st
  if within 0x7830 idx 0x7833 && sub = 4 then !(s.tag (idx - 0x7830)).en
  else match idx, sub with
    | 0x7040, 1 => st = .idle
    | 0x7040, 4 => st = .prepared || st = .copying
    | 0x7040, 5 => !(st = .idle || st = .rollback)
    | 0x7040, 0xA => st = .written
    | 0x7001, 1 => st = .idle
    | _, _ => true

/-- The entry's state rules allow the write now. -/
def State.stateOk (s : State) (a : Asker) (idx sub n : Nat) : Bool :=
  if idx < 0x3000 then s.devStateOk a idx sub n
  else if idx < 0x4800 then s.pointStateOk idx sub n
  else if within 0x6000 idx 0x68FF then s.powerStateOk idx sub
  else s.otherStateOk idx sub

/-! ### Rules of writes: range (check 6) -/

/-- A rate of R134 for the port's mode. -/
def nominalOk (mode n : Nat) : Bool := (mode ≠ 2 && n = 125) || n = 250 || n = 500 || n = 1000
def dataRateOk (n : Nat) : Bool := n = 1000 || n = 2000 || n = 5000 || n = 8000

/-- Bytes of the entries mapped into a PDO, the first `n` of them, with entry `k` as `v` (R133). -/
def State.pdoBytes (s : State) (a : Asker) (idx n k v : Nat) : Nat :=
  ((List.range n).map fun i =>
    (if i + 1 = k then v else ofLE ((s.obj.live.get (a.key idx * 256 + i + 1)).getD [])) % 256 / 8).sum

/-- The most a PDO carries: 64 bytes in FD frames, 8 in classic ones (R133). -/
def State.pdoRoom (s : State) (a : Asker) : Nat := if (s.fport a.via.port).mode = 2 then 64 else 8

/-- Bytes of a type in a PDO; 0 where it has no fixed length. -/
def OTy.pdoBytes : OTy → Nat
  | .bool => 1 | .u n => n | .i n => n | .real => 4 | _ => 0

/-- A mapping entry names a mappable entry with its length in bits, or is empty (R133, R135). -/
def State.mapOk (s : State) (v : Nat) : Bool :=
  v = 0 || match objAt (s.elemDc (v / 65536)) (v / 65536) (v / 256 % 256) with
    | some o => o.pdo && o.ty.pdoBytes ≠ 0 && v % 256 = 8 * o.ty.pdoBytes
    | none => false

/-- Ranges of 1000h to 2FFFh beyond those of the type (R124, R133, R134). -/
def State.devRangeOk (s : State) (a : Asker) (idx sub : Nat) (d : List Byte) : Bool :=
  let n := ofLE d
  if within 0x1800 idx 0x181F && sub = 2 then decide (n ≤ 240) || n = 254 || n = 255
  else if within 0x1A00 idx 0x1A1F && 1 ≤ sub then
    s.mapOk n && decide (s.pdoBytes a idx (ofLE ((s.obj.live.get (a.key idx * 256)).getD [])) sub n ≤ s.pdoRoom a)
  else if within 0x1A00 idx 0x1A1F then decide (s.pdoBytes a idx n 0 0 ≤ s.pdoRoom a)
  else if (idx = 0x2020 || idx = 0x2021) && sub = 1 then n ≠ 2 || nominalOk 2 (s.onum idx 2)
  else if (idx = 0x2020 || idx = 0x2021) && sub = 2 then nominalOk (s.onum idx 1) n
  else if (idx = 0x2020 || idx = 0x2021) && sub = 3 then dataRateOk n
  else if idx = 0x2022 || idx = 0x2023 then n ≠ 1
  else if idx = 0x2024 || idx = 0x2025 then n = 0 || n = 2 || n = 255
  else if idx = 0x2200 && sub = 6 then decide (ofLE (s.vval 0x2200 7) + d.length ≤ 65536)
  else true

/-- Bounds of the entries of earth supervision beyond those of the type (14 R369). -/
def powerBounds (idx sub : Nat) : Option (Nat × Nat) :=
  let top := 0xFFFFFFFF
  if within 0x6800 idx 0x680F then
    match sub with
    | 3 => some (1, 5)
    | 4 => some (200, 5000)
    | 5 => some (10, top)
    | 6 => some (1, top)
    | 7 => some (1, 1000)
    | _ => none
  else if within 0x6840 idx 0x687F then
    match sub with
    | 2 => some (10, top)
    | 3 => some (20, top)
    | 4 => some (6, top)
    | _ => none
  else none

/-- Ranges of the outputs and of earth supervision (14 R367, R368). -/
def powerRangeOk (idx sub n : Nat) : Bool :=
  if within 0x6000 idx 0x605F && sub = 8 then n % 10 = 0
  else match powerBounds idx sub with
    | some (lo, hi) => within lo n hi
    | none => true

/-- Ranges of the rest: OFF_WAIT, the port types, windows, slots (07 R169; 13 R342; 15 R394; 16 R422). -/
def State.otherRangeOk (s : State) (idx sub : Nat) (d : List Byte) : Bool :=
  let n := ofLE d
  if within 0x3000 idx 0x3FFF && idx % 64 = 0 && sub = 8 then n = 0 || decide (100 ≤ n)
  else if within 0x3000 idx 0x3FFF && idx % 64 = 0 && sub = 1 then
    n ≠ 5 || s.pointType ((idx - 0x3000) / 64) = 5 || decide (s.type5 < 8)
  else if within 0x7830 idx 0x7833 && sub = 1 then decide (n < 16) || n = 255
  else if within 0x7830 idx 0x7833 && sub = 2 then decide (2 ≤ d.length)
  else match idx, sub with
    | 0x6900, 1 => decide (ofLE (s.vval 0x6900 2) + d.length ≤ 2048)
    | 0x7040, 1 => decide (ofLE (s.vval 0x7040 2) + d.length ≤ 10260)
    | 0x7040, 4 => decide (ofLE (s.vval 0x7040 2) + d.length ≤ 65536) && s.nextBlock = some (ofLE (s.vval 0x7040 3))
    | 0x7050, 1 => d.length = 48
    | _, _ => true

/-- Length, type and range of a value. -/
def State.rangeOk (s : State) (a : Asker) (o : Obj) (idx sub : Nat) (d : List Byte) : Bool :=
  o.valOk d && decide (d.length ≤ 4096) &&
    (if idx < 0x3000 then s.devRangeOk a idx sub d
     else if within 0x6000 idx 0x68FF then powerRangeOk idx sub (ofLE d)
     else s.otherRangeOk idx sub d)

/-! ### Effects -/

/-- Bytes written into a value from an offset on. -/
def overlay (v : List Byte) (off : Nat) (d : List Byte) : List Byte :=
  v.take off ++ List.replicate (off - v.length) 0 ++ d ++ v.drop (off + d.length)

/-- The value that a write of an entry leaves stored: a window writes its part of the whole. -/
def State.newValue (s : State) (a : Asker) (o : Obj) (idx sub : Nat) (d : List Byte) : List Byte :=
  match idx, sub with
  | 0x6900, 1 => overlay (s.stored a o idx sub) (ofLE (s.vval 0x6900 2)) d
  | 0x2200, 6 => overlay (s.stored a o idx sub) (ofLE (s.vval 0x2200 7)) d
  | 0x7040, 1 => overlay (s.vval idx sub) (ofLE (s.vval 0x7040 2)) d
  | 0x7040, 4 => overlay (s.vval idx sub) (ofLE (s.vval 0x7040 2)) d
  | _, _ => d

/-- A persistent entry: its value, and its record staged (R129, R131). -/
def writeStored (a : Asker) (idx sub : Nat) (v : List Byte) (s : State) : State :=
  let k := a.key idx * 256 + sub
  stageRec (k, some v) { s with obj.live := s.obj.live.set k (some v) }

/-- The attribute word of an imported certificate or anchor: how the bytes tell it is not given, a free value; the
fields the slot's kind fixes are fixed (16 R406, R408). -/
def State.importAttr (s : State) : Word :=
  let f := s.freeBits 8
  if f.getLsbD 0 then pack [(0xFF, 24), (0xFF, 16), (9, 12), (2, 0)]
  else
    let cls := 1 + f.toNat / 2 % 4
    pack [(0xFF, 24), (if cls = 1 then f.toNat / 8 % 6 else 0xFF, 16), (10, 12), (cls, 8), (2, 0)]

/-- 7000h to 70FFh (16 R397, R409, R416, R422). -/
def writeSec (a : Asker) (idx sub : Nat) (d : List Byte) (s : State) : Status × State :=
  let n := ofLE d
  if within 0x7080 idx 0x70FF then
    let i := idx - 0x7080
    if sub = 4 then tackImport i s.importAttr (some d) a.role true s.used
    else tackDelete i a.role s
  else if idx = 0x7001 then
    (if sub = 1 then fuseDebug (BitVec.ofNat 384 n) s else decommission a.role (BitVec.ofNat 32 n) s)
  else if idx = 0x7050 then fuseSafe (BitVec.ofNat 384 (ofLE d.reverse)) s.stagedDigest s
  else if idx = 0x7040 && sub = 5 then updateAbandon n s
  else if idx = 0x7040 && sub = 0xA then handover n s
  else (.ok, s.setVol idx sub d)

/-- 4000h to 47FFh (09 R215; 10 R246). -/
def writeSession (a : Asker) (idx sub : Nat) (d : List Byte) (s : State) : Status × State :=
  let slot := (idx - 0x4000) / 8
  let n := ofLE d
  match idx % 8, sub with
  | 1, 1 => (.ok, endSlot slot (if a.role = .customer then 2 else 3) s)
  | 1, 2 => (.ok, s.updVs slot fun v => { v with limit := n })
  | 2, 6 => hostDecide slot n s
  | 3, 6 => (.ok, s.updVs slot fun v => { v with certRsp := overlay v.certRsp v.winOff d })
  | 3, 7 => (.ok, s.updVs slot fun v => { v with winOff := n })
  | 3, 8 => (.ok, s.updVs slot fun v => { v with rspLen := n })
  | _, _ => (.ok, s)

/-- The selector of a CANopen client (R125): refused with STALE where no live session matches. DESIGN CHOICE (log 112): a
Latigo connection has no selector; over it the entry reads 0 and a write is answered OK without effect. -/
def writeSelector (a : Asker) (d : List Byte) (s : State) : Status × State :=
  let h := ofLE (d.take 4)
  let n := ofLE (d.drop 4)
  match a.via with
  | .latigo _ => (.ok, s)
  | .can f c =>
    if (s.namesSession h n).isSome then (.ok, s.updPort f fun p => { p with sel := p.sel.set c (h, n) }) else (.stale, s)

/-- Commands of the server's own area (R131, R132, R147). -/
def writeServer (idx sub : Nat) (d : List Byte) (s : State) : State :=
  match idx, sub with
  | 0x1010, _ => batchClose s
  | 0x1011, _ => { s with flash.restore := true }
  | 0x8011, _ => pmcSnapshot 1 s
  | 0x6080, 2 => applyTest (ofLE d = 1) s
  | _, _ => if within 0x6800 idx 0x680F && sub = 0xD then powerWrite (imClear (idx - 0x6800)) s
    else if within 0x6840 idx 0x687F && sub = 9 then powerWrite (rcClear (idx - 0x6840)) s
    else s.setVol idx sub d

/-- A point whose port is changed no longer names another's: where it was treated as type 0, it is of type 5 again, with
its QUEUED context (10 R241, 09 R195). -/
def portChanged (p : Nat) (s : State) : State :=
  if !s.obj.seqOut.getLsbD p then s
  else applyType p { s with obj.seqOut := putBit s.obj.seqOut p false }

/-- A write of an entry kept in the journal: stored, staged and applied. -/
def writeConfig (a : Asker) (o : Obj) (idx sub : Nat) (d : List Byte) (s : State) : State :=
  let s1 := writeStored a idx sub (s.newValue a o idx sub d) s
  if within 0x3000 idx 0x3FFF && idx % 64 = 0 && sub = 1 then
    let p := (idx - 0x3000) / 64
    if ofLE d = s.pointType p then s1 else applyType p s1
  else if within 0x3000 idx 0x3FFF && idx % 64 = 8 && sub = 9 then portChanged ((idx - 0x3000) / 64) s1
  else if o.eff = .A then applyEntry idx sub s1
  else s1

/-- The effect of an accepted write on the control die. -/
def writeOwn (a : Asker) (o : Obj) (idx sub : Nat) (d : List Byte) (s : State) : Status × State :=
  if idx = 0x2F00 then writeSelector a d s
  else if o.pers = .J then (.ok, writeConfig a o idx sub d s)
  else if within 0x7000 idx 0x70FF then writeSec a idx sub (if idx = 0x7040 then s.newValue a o idx sub d else d) s
  else if isSession idx then writeSession a idx sub d s
  else if within 0x6000 idx 0x605F then outTestCmd (idx - 0x6000) (ofLE d) s
  else (.ok, writeServer idx sub d s)

/-- A write carried over the sealed link. -/
def writeSealed (a : Asker) (idx sub : Nat) (d : List Byte) (s : State) : Status × State :=
  if !s.linkUp then (.timeout, s)
  else if s.linkBusy then (.busy, s)
  else if isTermEntry idx then termWrite a.role idx sub d s
  else sealedWrite a.role idx sub d s

/-- What would make the write wait (check 7): a full server or journal, a swap pending (13 R340). -/
def State.writeBusy (s : State) (a : Asker) (o : Obj) (idx sub : Nat) (d : List Byte) : Bool :=
  s.serverFull || (o.pers = .J && s.journalFull (a.key idx * 256 + sub, some (s.newValue a o idx sub d))) ||
    (within 0x7830 idx 0x7833 && sub = 2 && (s.tag (idx - 0x7830)).pending)

/-- Writable over Latigo only (R146; 16 R422). -/
def overCan : Via → Bool
  | .can _ _ => true
  | .latigo _ => false

/-- A write (R126). -/
def serveWrite (a : Asker) (idx sub : Nat) (d : List Byte) (s : State) : Status × State :=
  match s.entry idx sub with
  | none => (.absent, s)
  | some o =>
    if !s.carries a then (.denied, s)
    else if !granted o.wr a.role then ((if o.pers = .S then .sealed else .denied), s)
    else if o.latigo && overCan a.via then (.denied, s)
    else if !s.namesSlot a idx then (.stale, s)
    else if !s.bindingOk a idx sub d then (.denied, s)
    else if idx = 0x2F00 && decide (d.length ≠ 12) then (.range, s)
    else if !isSealedEntry idx && !s.stateOk a idx sub (ofLE d) then (.state, s)
    else if !isSealedEntry idx && !s.rangeOk a o idx sub d then (.range, s)
    else if s.writeBusy a o idx sub d then (.busy, s)
    else
      let r := if isSealedEntry idx then writeSealed a idx sub d s else writeOwn a o idx sub d s
      (r.1, if r.1 = .ok then makeBinding a idx r.2 else r.2)

/-! ### Answers (R144, R145, R147) -/

/-- The client's last status (R145). -/
def setLast (v : Via) (st : Status) (s : State) : State :=
  match v with
  | .can f c => s.updPort f fun p => { p with last := p.last.set c st }
  | .latigo c => s.updConn c fun x => { x with last := st }

/-- A request is answered: counters and last status. -/
def answered (v : Via) (st : Status) (s : State) : State :=
  let top := 2 ^ 32 - 1
  let s1 := setLast v st s
  match st with
  | .busy => { s1 with app.server.busy := stick top s1.app.server.busy 1 }
  | .timeout => { s1 with app.server.accepted := stick top s1.app.server.accepted 1,
                          app.server.timeouts := stick top s1.app.server.timeouts 1 }
  | .ok => { s1 with app.server.accepted := stick top s1.app.server.accepted 1 }
  | _ => s1

/-- A read with its bookkeeping. -/
def readRequest (a : Asker) (idx sub : Nat) (s : State) : Status × List Byte × State :=
  let r := serveRead a idx sub s
  (r.1, r.2.1, answered a.via r.1 r.2.2)

/-- A write with its bookkeeping. -/
def writeRequest (a : Asker) (idx sub : Nat) (d : List Byte) (s : State) : Status × State :=
  let r := serveWrite a idx sub d s
  (r.1, answered a.via r.1 r.2)

/-- The abort code of a status (R144); `w` says whether the request was a write. -/
def State.abortCode (s : State) (st : Status) (w : Bool) (idx sub : Nat) (d : List Byte) : Nat :=
  let o := objAt (s.elemDc idx) idx sub
  match st with
  | .busy => 0x08000021
  | .denied =>
    (match o with
    | some o => if !w && o.rd = 0 then 0x06010001 else if w && o.wr = 0 then 0x06010002 else 0x06010000
    | none => 0x06010000)
  | .range =>
    (match o with
    | some o =>
      let num := match o.ty with
        | .u _ => true
        | .i _ => true
        | .bool => true
        | _ => false
      if !o.lenOk d then 0x06070010
      else if num && decide (o.hi < o.num d) then 0x06090031
      else if num && decide (o.num d < o.lo) then 0x06090032
      else match powerBounds idx sub with
        | some (lo, hi) => if hi < ofLE d then 0x06090031 else if ofLE d < lo then 0x06090032 else 0x06090030
        | none => 0x06090030
    | none => 0x06090030)
  | .state => 0x08000022
  | .sealed => 0x08000020
  | .timeout => 0x05040000
  | .integrity => 0x05040004
  | .absent => if s.indexThere idx then 0x06090011 else 0x06020000
  | .stale => 0x08000000
  | .limit => 0x08000000
  | .ok => 0

end Sys2Proof.Machine
end

