-- ==== Sys2Proof/Machine/CanOpen.lean ====
section
/-!
DEFINITION. The dictionary over the field ports F0 and F1 (06 R133 to R138): SDO and USDO servers, NMT, heartbeat, SYNC,
TPDOs, bus-off.
-/
set_option Elab.async false
namespace Sys2Proof.Machine

/-! ### The port and its configuration -/

/-- The port hears frames: it has booted, its mode is not off, it is not at bus-off nor held recessive. -/
def State.portHears (s : State) (f : Nat) : Bool := s.portSends f && !s.inReset

/-- SDO and USDO are served in pre-operational and operational (R136). -/
def State.portServes (s : State) (f : Nat) : Bool :=
  s.portHears f && ((s.fport f).nmt = .preop || (s.fport f).nmt = .oper)

/-- A communication entry of a port. -/
def State.comm (s : State) (f idx sub : Nat) : Nat :=
  let k := (if f = 1 then idx + 0x10000 else idx) * 256 + sub
  ofLE ((s.obj.live.get k).getD (((objAt false idx sub).map (·.dflt)).getD []))

/-- The TPDOs in force from the entry into operational on (R133). -/
def State.tpdoOf (s : State) (f n : Nat) : TpdoCfg :=
  { cob := s.comm f (0x1800 + n) 1, type := s.comm f (0x1800 + n) 2, inhibit := s.comm f (0x1800 + n) 3,
    timer := s.comm f (0x1800 + n) 5,
    map := (List.range (s.comm f (0x1A00 + n) 0)).map fun k => s.comm f (0x1A00 + n) (k + 1) }

/-- The port enters operational. -/
def enterOper (f : Nat) (s : State) : State :=
  s.updPort f fun p => { p with nmt := .oper, trun := ⟨{}, []⟩,
                                tpdo := tabulate {} 32 (s.tpdoOf f) }

/-- The port's stack starts (R136): its configuration is read, the boot-up message sent, pre-operational entered;
operational with autostart. Selectors, transfers and error counters are clear. -/
def bootPort (f : Nat) (s : State) : State :=
  let n := s.onum (0x2020 + f)
  let p := s.fport f
  let p1 : FieldPort :=
    { mode := n 1, rate := n 2, dataRate := n 3, node := n 4, nmt := if n 1 = 0 then .off else .preop, sent := p.sent,
      last := p.last, cobs := tabulate (0x80000000, 0x80000000) 8 fun c =>
        if c = 0 then (0x600 + n 4, 0x580 + n 4) else (s.comm f (0x1200 + c) 1, s.comm f (0x1200 + c) 2) }
  let s1 := s.updPort f fun _ => p1
  let s2 := canSend f { id := 0x700 + n 4, fd := false, data := [0] } s1
  if n 1 ≠ 0 && n 6 = 1 then enterOper f s2 else s2

/-! ### SDO (R135, R137) -/

/-- The role of a classic SDO channel (R124, R146). -/
def State.sdoRole (s : State) (f ch : Nat) : Role := if s.onum (0x2022 + f) (ch + 1) = 2 then .operator else .pub

/-- Who asks on a CANopen client of a port, with its session selector (R125). -/
def State.canAsker (s : State) (f client : Nat) (role : Role) : Asker :=
  let x := (s.fport f).sel.get client
  { via := .can f client, role := role, handle := x.1, serial := x.2 }

/-- The channel is on. -/
def State.sdoOn (s : State) (f ch : Nat) : Bool := s.portServes f && decide (((s.fport f).cobs.get ch).1 < 0x80000000)

/-- A frame of the server on a channel. -/
def sdoSend (f ch : Nat) (data : List Byte) (s : State) : State :=
  canSend f { id := ((s.fport f).cobs.get ch).2 % 2048, fd := false, data := data, reply := true } s

/-- A reply with its multiplexer. -/
def sdoReply (f ch : Nat) (cmd : Byte) (idx sub : Nat) (data : List Byte) (s : State) : State :=
  sdoSend f ch ([cmd] ++ toLE 2 idx ++ toLE 1 sub ++ data ++ List.replicate (4 - data.length) 0) s

/-- An abort. -/
def sdoAbort (f ch idx sub code : Nat) (s : State) : State := sdoReply f ch 0x80 idx sub (toLE 4 code) s

/-- The channel's open transfer. -/
def setSdo (f ch : Nat) (x : Option SdoXfer) (s : State) : State := s.updPort f fun p => { p with sdo := p.sdo.set ch x }

/-- A second initiate aborts the open transfer (R137). -/
def sdoFresh (f ch : Nat) (s : State) : State :=
  match (s.fport f).sdo.get ch with
  | some x => sdoAbort f ch x.idx x.sub 0x05040001 (setSdo f ch none s)
  | none => s

/-- A whole write on a channel, answered with `cmd` or an abort. -/
def sdoWrite (f ch : Nat) (role : Role) (cmd : Byte) (idx sub : Nat) (d : List Byte) (s : State) : State :=
  let r := writeRequest (s.canAsker f ch role) idx sub d s
  if r.1 = .ok then
    (if cmd = 0x60 then sdoReply f ch cmd idx sub [] r.2 else sdoSend f ch (cmd :: List.replicate 7 0) r.2)
  else sdoAbort f ch idx sub (s.abortCode r.1 true idx sub d) r.2

/-- SDO_INITIATE_DOWNLOAD (R137). -/
def execSdoInitiateDownload (f : Fin 2) (ch : Fin 8) (idx : BitVec 16) (sub : BitVec 8) (expedited : Bool) (size : Nat)
    (data : List Byte) (s : State) : Res :=
  .next (if !s.sdoOn f ch then s
    else
      let s1 := sdoFresh f ch s
      let role := s1.sdoRole f ch
      if expedited then sdoWrite f ch role 0x60 idx.toNat sub.toNat data s1
      else
        sdoReply f ch 0x60 idx.toNat sub.toNat []
          (setSdo f ch (some { idx := idx.toNat, sub := sub.toNat, down := true, role := role, data := [], total := size }) s1))

/-- A segment of a download: the last submits the write (R137). A toggle that does not alternate aborts, as CiA 301
says (PRESUMED, log 52). -/
def sdoDownSeg (f ch : Nat) (toggle last : Bool) (d : List Byte) (s : State) : State :=
  match (s.fport f).sdo.get ch with
  | none => sdoAbort f ch 0 0 0x05040001 s
  | some x =>
    if !x.down then sdoAbort f ch x.idx x.sub 0x05040001 (setSdo f ch none s)
    else if toggle ≠ x.toggle then sdoAbort f ch x.idx x.sub 0x05030000 (setSdo f ch none s)
    else
      let v := x.data ++ d
      let cmd : Byte := if toggle then 0x30 else 0x20
      if !last then sdoSend f ch (cmd :: List.replicate 7 0) (setSdo f ch (some { x with data := v, toggle := !x.toggle }) s)
      else
        let s1 := setSdo f ch none s
        if x.total ≠ 0 && v.length ≠ x.total then
          sdoAbort f ch x.idx x.sub 0x06070010 (answered (.can f ch) .range s1)
        else sdoWrite f ch x.role cmd x.idx x.sub v s1

/-- SDO_DOWNLOAD_SEGMENT (R137). -/
def execSdoDownloadSegment (f : Fin 2) (ch : Fin 8) (toggle last : Bool) (data : List Byte) (s : State) : Res :=
  .next (if s.sdoOn f ch then sdoDownSeg f ch toggle last data s else s)

/-- SDO_INITIATE_UPLOAD (R135): up to 4 bytes expedited, else segmented. -/
def execSdoInitiateUpload (f : Fin 2) (ch : Fin 8) (idx : BitVec 16) (sub : BitVec 8) (s : State) : Res :=
  .next (if !s.sdoOn f ch then s
    else
      let s1 := sdoFresh f ch s
      let role := s1.sdoRole f ch
      let r := readRequest (s1.canAsker f ch role) idx.toNat sub.toNat s1
      let v := r.2.1
      if r.1 ≠ .ok then sdoAbort f ch idx.toNat sub.toNat (s.abortCode r.1 false idx.toNat sub.toNat []) r.2.2
      else if within 1 v.length 4 then
        sdoReply f ch (BitVec.ofNat 8 (0x43 + 4 * (4 - v.length))) idx.toNat sub.toNat v r.2.2
      else
        sdoReply f ch 0x41 idx.toNat sub.toNat (toLE 4 v.length)
          (setSdo f ch (some { idx := idx.toNat, sub := sub.toNat, down := false, role := role, data := v }) r.2.2))

/-- The next segment of an upload. -/
def sdoUpSeg (f ch : Nat) (toggle : Bool) (s : State) : State :=
  match (s.fport f).sdo.get ch with
  | none => sdoAbort f ch 0 0 0x05040001 s
  | some x =>
    if x.down then sdoAbort f ch x.idx x.sub 0x05040001 (setSdo f ch none s)
    else if toggle ≠ x.toggle then sdoAbort f ch x.idx x.sub 0x05030000 (setSdo f ch none s)
    else
      let part := x.data.take 7
      let rest := x.data.drop 7
      let cmd := BitVec.ofNat 8 (16 * b2n toggle + 2 * (7 - part.length) + b2n rest.isEmpty)
      sdoSend f ch (cmd :: part ++ List.replicate (7 - part.length) 0)
        (setSdo f ch (if rest.isEmpty then none else some { x with data := rest, toggle := !x.toggle }) s)

/-- SDO_UPLOAD_SEGMENT (R135). -/
def execSdoUploadSegment (f : Fin 2) (ch : Fin 8) (toggle : Bool) (s : State) : Res :=
  .next (if s.sdoOn f ch then sdoUpSeg f ch toggle s else s)

/-- SDO_UNSUPPORTED_COMMAND (R135): abort 0504_0001h, which ends the channel's transfer (PRESUMED, log 52). -/
def execSdoUnsupportedCommand (f : Fin 2) (ch : Fin 8) (s : State) : Res :=
  .next (if s.sdoOn f ch then
      let x := (s.fport f).sdo.get ch
      sdoAbort f ch ((x.map (·.idx)).getD 0) ((x.map (·.sub)).getD 0) 0x05040001 (setSdo f ch none s)
    else s)

/-! ### USDO (R135, R137). The layout of its frames is that of CiA 1301, not given: only the client, the outcome and the
data are kept (PRESUMED, log 52). -/

/-- A USDO reply: client, the abort code (0 for a response), the data. -/
def usdoSend (f node code : Nat) (d : List Byte) (s : State) : State :=
  canSend f { id := 0x580 + (s.fport f).node, fd := true, data := toLE 1 node ++ toLE 4 code ++ d, reply := true } s

/-- The client's open transfer. -/
def setUsdo (f node : Nat) (x : Option SdoXfer) (s : State) : State :=
  s.updPort f fun p => { p with usdo := p.usdo.set node x }

/-- Transfers open on a port. -/
def State.usdoOpen (s : State) (f : Nat) : Nat := ((s.fport f).usdo.cells.filter (·.2.isSome)).length

/-- A new request of a client aborts its open transfer (R137). -/
def usdoFresh (f node : Nat) (s : State) : State :=
  if ((s.fport f).usdo.get node).isSome then usdoSend f node 0x05040001 [] (setUsdo f node none s) else s

/-- Opening a segmented transfer: at most 8 are open on a port, a further one is BUSY. -/
def usdoBegin (f node : Nat) (x : SdoXfer) (d : List Byte) (s : State) : State :=
  if 8 ≤ s.usdoOpen f then usdoSend f node 0x08000021 [] (answered (.can f (8 + node)) .busy s)
  else usdoSend f node 0 d (setUsdo f node (some x) s)

/-- A whole write of a client. -/
def usdoWrite (f node : Nat) (role : Role) (idx sub : Nat) (d : List Byte) (s : State) : State :=
  let r := writeRequest (s.canAsker f (8 + node) role) idx sub d s
  usdoSend f node (if r.1 = .ok then 0 else s.abortCode r.1 true idx sub d) [] r.2

/-- Bytes of data in one USDO frame of 64 bytes (PRESUMED, log 52). -/
def usdoPart : Nat := 56

/-- A USDO request of a served client. -/
def usdoServe (f node : Nat) (role : Role) (r : UsdoReq) (s : State) : State :=
  match r with
  | .read idx sub =>
    let s1 := usdoFresh f node s
    let x := readRequest (s1.canAsker f (8 + node) role) idx.toNat sub.toNat s1
    let v := x.2.1
    if x.1 ≠ .ok then usdoSend f node (s.abortCode x.1 false idx.toNat sub.toNat []) [] x.2.2
    else if v.length ≤ usdoPart then usdoSend f node 0 v x.2.2
    else usdoBegin f node { idx := idx.toNat, sub := sub.toNat, down := false, role := role, data := v.drop usdoPart }
      (v.take usdoPart) x.2.2
  | .write idx sub d => usdoWrite f node role idx.toNat sub.toNat d (usdoFresh f node s)
  | .downInit idx sub total d =>
    usdoBegin f node { idx := idx.toNat, sub := sub.toNat, down := true, role := role, data := d, total := total } []
      (usdoFresh f node s)
  | .downSeg last d =>
    (match (s.fport f).usdo.get node with
    | none => usdoSend f node 0x05040001 [] s
    | some x =>
      if !x.down then usdoSend f node 0x05040001 [] (setUsdo f node none s)
      else
        let v := x.data ++ d
        if !last then usdoSend f node 0 [] (setUsdo f node (some { x with data := v }) s)
        else if x.total ≠ 0 && v.length ≠ x.total then
          usdoSend f node 0x06070010 [] (answered (.can f (8 + node)) .range (setUsdo f node none s))
        else usdoWrite f node x.role x.idx x.sub v (setUsdo f node none s))
  | .upSeg =>
    (match (s.fport f).usdo.get node with
    | none => usdoSend f node 0x05040001 [] s
    | some x =>
      if x.down then usdoSend f node 0x05040001 [] (setUsdo f node none s)
      else
        let rest := x.data.drop usdoPart
        usdoSend f node 0 (x.data.take usdoPart)
          (setUsdo f node (if rest.isEmpty then none else some { x with data := rest }) s))

/-- USDO_REQUEST (R135): in mode 2 only; a client with role FFh is not served (R146). -/
def execUsdoRequest (f : Fin 2) (node : Fin 128) (r : UsdoReq) (s : State) : Res :=
  .next (
    let v := s.onum (0x2024 + f) node
    if !s.portServes f || (s.fport f).mode ≠ 2 || node.val = 0 || v = 255 then s
    else usdoServe f node (if v = 2 then .operator else .pub) r s)

/-- SDO_SEGMENT_TIMEOUT (R137). -/
def execSdoSegmentTimeout (f : Fin 2) (client : CanClient) (s : State) : Res :=
  .next (
    let lost := fun (c : Nat) (t : State) =>
      let t1 := setLast (.can f c) .timeout t
      { t1 with app.server.timeouts := stick (2 ^ 32 - 1) t1.app.server.timeouts 1 }
    match client with
    | .sdo ch =>
      (match (s.fport f).sdo.get ch with
      | some x => sdoAbort f ch x.idx x.sub 0x05040000 (lost ch (setSdo f ch none s))
      | none => s)
    | .usdo node =>
      if ((s.fport f).usdo.get node).isSome then usdoSend f node 0x05040000 [] (lost (8 + node) (setUsdo f node none s))
      else s)

/-! ### NMT and heartbeat (R135, R136) -/

/-- NMT_START. -/
def execNmtStart (f : Fin 2) (s : State) : Res := .next (if s.portHears f then enterOper f s else s)

/-- NMT_STOP: open transfers end with it, since SDO and USDO are no longer served. -/
def execNmtStop (f : Fin 2) (s : State) : Res :=
  .next (if s.portHears f then s.updPort f fun p => { p with nmt := .stopped, sdo := ⟨none, []⟩, usdo := ⟨none, []⟩ } else s)

/-- NMT_ENTER_PREOPERATIONAL. -/
def execNmtEnterPreoperational (f : Fin 2) (s : State) : Res :=
  .next (if s.portHears f then s.updPort f fun p => { p with nmt := .preop } else s)

/-- NMT_RESET_COMMUNICATION (R136). -/
def execNmtResetCommunication (f : Fin 2) (s : State) : Res := .next (if s.portHears f then bootPort f s else s)

/-- NMT_RESET_NODE (R136): the stack of that port only. -/
def execNmtResetNode (f : Fin 2) (s : State) : Res := .next (if s.portHears f then bootPort f s else s)

/-- The NMT state code in a heartbeat (CiA 301). -/
def nmtCode : NmtSt → Nat
  | .off => 0 | .preop => 0x7F | .oper => 5 | .stopped => 4

/-- CANOPEN_HEARTBEAT (R135): period 1017h.00, 0 off. -/
def execCanopenHeartbeat (f : Fin 2) (s : State) : Res :=
  .next (if s.comm f 0x1017 0 = 0 then s
    else canSend f { id := 0x700 + (s.fport f).node, fd := false, data := toLE 1 (nmtCode (s.fport f).nmt) } s)

/-! ### TPDOs (R133, R135) -/

/-- The value of a mapped entry. -/
def State.mapped (s : State) (v : Nat) : List Byte :=
  let idx := v / 65536
  let sub := v / 256 % 256
  let a : Asker := { via := .latigo 0, role := .firmware, handle := 0, serial := 0 }
  let b := match objAt (s.elemDc idx) idx sub with
    | some o =>
      if isSession idx && decide (4 ≤ idx % 8) then
        match s.bill (s.serialOf ((idx - 0x4000) / 8)) with
        | some r => (s.sessEntry r (idx % 8) sub).getD []
        | none => []
      else if within 0x5000 idx 0x5FFF then s.sealedValue .firmware idx sub
      else if isTermEntry idx then s.termValue idx sub
      else s.ownValue a o idx sub
    | none => []
  (b ++ List.replicate 8 0).take (v % 256 / 8)

/-- The value of a TPDO. -/
def State.tpdoValue (s : State) (c : TpdoCfg) : List Byte := (c.map.map s.mapped).flatten

/-- A TPDO is on. -/
def TpdoCfg.on (c : TpdoCfg) : Bool := decide (c.cob < 0x80000000)

/-- A TPDO is sent. -/
def tpdoSend (f n : Nat) (s : State) : State :=
  let p := s.fport f
  let c := p.tpdo.get n
  let v := s.tpdoValue c
  canSend f { id := c.cob % 2048, fd := p.mode = 2, data := v }
    (s.updPort f fun p => { p with trun := p.trun.set n { syncs := 0, sent := some s.ht, last := v } })

/-- The inhibit time has passed since the last sending. -/
def State.uninhibited (s : State) (c : TpdoCfg) (r : TpdoRun) : Bool :=
  match r.sent with
  | none => true
  | some t => decide (t + c.inhibit * 100000 ≤ s.ht)

/-- What a SYNC does to one TPDO: type 0 goes out when its value has changed, type 1 to 240 at every n-th SYNC. -/
def tpdoSync (f : Nat) (s : State) (n : Nat) : State :=
  let p := s.fport f
  let c := p.tpdo.get n
  let r := p.trun.get n
  if !c.on then s
  else if c.type = 0 then (if r.sent.isNone || r.last ≠ s.tpdoValue c then tpdoSend f n s else s)
  else if c.type ≤ 240 then
    (if c.type ≤ r.syncs + 1 then tpdoSend f n s
     else s.updPort f fun p => { p with trun := p.trun.set n { r with syncs := r.syncs + 1 } })
  else s

/-- SYNC (R135). -/
def execSync (f : Fin 2) (s : State) : Res :=
  .next (if s.portHears f && (s.fport f).nmt = .oper then (List.range 32).foldl (tpdoSync f) s else s)

/-- TPDO_EVENT_TIMER (R135): an event-driven TPDO with an event timer, subject to its inhibit time. -/
def execTpdoEventTimer (f : Fin 2) (n : Fin 32) (s : State) : Res :=
  .next (
    let c := (s.fport f).tpdo.get n
    if s.portHears f && (s.fport f).nmt = .oper && c.on && decide (254 ≤ c.type) && c.timer ≠ 0 &&
        s.uninhibited c ((s.fport f).trun.get n) then tpdoSend f n s
    else s)

/-- An event-driven TPDO whose value has changed goes out when its inhibit time allows. -/
def tpdoChange (f : Nat) (s : State) (n : Nat) : State :=
  let c := (s.fport f).tpdo.get n
  let r := (s.fport f).trun.get n
  if c.on && decide (254 ≤ c.type) && (r.sent.isNone || r.last ≠ s.tpdoValue c) && s.uninhibited c r then tpdoSend f n s
  else s

/-- The event-driven TPDOs of both ports, looked at once per tick. -/
def tpdoPoll (s : State) : State :=
  (List.range 2).foldl (fun t f =>
    if t.portHears f && (t.fport f).nmt = .oper then (List.range 32).foldl (tpdoChange f) t else t) s

/-! ### Bus-off (R135, R138) -/

/-- CAN_BUS_OFF: open transfers are aborted without a reply. -/
def execCanBusOff (f : Fin 2) (s : State) : Res :=
  .next ((canErrors f s).updPort f fun p => { p with busOff := true, sdo := ⟨none, []⟩, usdo := ⟨none, []⟩ })

/-- CAN_BUS_OFF_RECOVERY: what waited in the port's queue, then EMCY 8140h. -/
def execCanBusOffRecovery (f : Fin 2) (s : State) : Res :=
  .next (if (s.fport f).busOff then
      emcy f 0x8140 0 (canResume f (s.updPort f fun p => { p with busOff := false, passive := false }))
    else s)

/-- CAN_ERROR_PASSIVE: EMCY 8120h. -/
def execCanErrorPassive (f : Fin 2) (s : State) : Res :=
  .next (if (s.fport f).passive then s else emcy f 0x8120 0 ((canErrors f s).updPort f fun p => { p with passive := true }))

/-! ### PLL_P (03 R66) -/

/-- PLL_P is in lock again: the beacon grid counts from its lock (08 R175), and firmware, whose part is in this command,
boots the field ports anew (assumption 106); the Green PHY channels wait for their PLC_START. -/
def pllPRelock (s : State) : State :=
  let s1 := { s with app.clk.pllP := false, app.clk.canRecessive := 0, cold.grid := 0 }
  if s1.app.server.ready then bootPort 1 (bootPort 0 s1) else s1

/-- PLL_P_RELOCK (03 R66). -/
def execPllPRelock (s : State) : Res := .next (if s.app.clk.pllP then pllPRelock s else s)

end Sys2Proof.Machine
end

