-- ==== Sys2Proof/Machine/RvCode.lean ====
section
/-!
DEFINITION. RISC-V instruction words (05 R99, as published): fields and immediates, the 32-bit form of each compressed
instruction, integer arithmetic of I and M.
-/
set_option Elab.async false
namespace Sys2Proof.Machine

/-! ### Fields and immediates -/

def rvOp (w : Word) : Nat := fld w 0 7
def rvRd (w : Word) : Nat := fld w 7 5
def rvF3 (w : Word) : Nat := fld w 12 3
def rvRs1 (w : Word) : Nat := fld w 15 5
def rvRs2 (w : Word) : Nat := fld w 20 5
def rvF7 (w : Word) : Nat := fld w 25 7

def immI (w : Word) : Dword := (w.extractLsb' 20 12).signExtend 64
def immS (w : Word) : Dword := (w.extractLsb' 25 7 ++ w.extractLsb' 7 5).signExtend 64
def immB (w : Word) : Dword :=
  (w.extractLsb' 31 1 ++ w.extractLsb' 7 1 ++ w.extractLsb' 25 6 ++ w.extractLsb' 8 4 ++ 0#1).signExtend 64
def immU (w : Word) : Dword := (w.extractLsb' 12 20 ++ 0#12).signExtend 64
def immJ (w : Word) : Dword :=
  (w.extractLsb' 31 1 ++ w.extractLsb' 12 8 ++ w.extractLsb' 20 1 ++ w.extractLsb' 21 10 ++ 0#1).signExtend 64

/-! ### Compressed instructions -/

def encR (f7 rs2 rs1 f3 rd op : Nat) : Word :=
  pack [(f7, 25), (rs2, 20), (rs1, 15), (f3, 12), (rd, 7), (op, 0)]
def encI (imm : BitVec 12) (rs1 f3 rd op : Nat) : Word :=
  pack [(imm.toNat, 20), (rs1, 15), (f3, 12), (rd, 7), (op, 0)]
def encS (imm : BitVec 12) (rs2 rs1 f3 op : Nat) : Word :=
  pack [(imm.toNat / 32, 25), (rs2, 20), (rs1, 15), (f3, 12), (imm.toNat % 32, 7), (op, 0)]
def encB (imm : BitVec 13) (rs1 f3 : Nat) : Word :=
  let i := imm.toNat
  pack [(i / 4096, 31), (i / 32 % 64, 25), (rs1, 15), (f3, 12), (i / 2 % 16, 8), (i / 2048 % 2, 7), (0x63, 0)]
def encJ (imm : BitVec 21) (rd : Nat) : Word :=
  let i := imm.toNat
  pack [(i / 2 ^ 20, 31), (i / 2 % 1024, 21), (i / 2048 % 2, 20), (i / 4096 % 256, 12), (rd, 7), (0x6F, 0)]

/-- The 32-bit form of a compressed instruction of quadrant 0. -/
def expandC0 (r64 : Bool) (w : Word) : Option Word :=
  let a := 8 + fld w 7 3
  let b := 8 + fld w 2 3
  let d : BitVec 12 := BitVec.ofNat 12 (fld w 10 3 * 8 + fld w 5 2 * 64)
  let i : BitVec 12 := BitVec.ofNat 12 (fld w 10 3 * 8 + fld w 6 1 * 4 + fld w 5 1 * 64)
  match fld w 13 3 with
  | 0 =>
    let n := fld w 7 4 * 64 + fld w 11 2 * 16 + fld w 5 1 * 8 + fld w 6 1 * 4
    if n = 0 then none else some (encI (BitVec.ofNat 12 n) 2 0 b 0x13)
  | 1 => if r64 then some (encI d a 3 b 0x07) else none
  | 2 => some (encI i a 2 b 0x03)
  | 3 => if r64 then some (encI d a 3 b 0x03) else none
  | 5 => if r64 then some (encS d b a 3 0x27) else none
  | 6 => some (encS i b a 2 0x23)
  | 7 => if r64 then some (encS d b a 3 0x23) else none
  | _ => none

/-- Quadrant 1. -/
def expandC1 (r64 : Bool) (w : Word) : Option Word :=
  let rd := fld w 7 5
  let a := 8 + fld w 7 3
  let b := 8 + fld w 2 3
  let i6 : BitVec 12 := (w.extractLsb' 12 1 ++ w.extractLsb' 2 5).signExtend 12
  let sh := fld w 12 1 * 32 + fld w 2 5
  let j : BitVec 21 := (w.extractLsb' 12 1 ++ w.extractLsb' 8 1 ++ w.extractLsb' 9 2 ++ w.extractLsb' 6 1 ++
    w.extractLsb' 7 1 ++ w.extractLsb' 2 1 ++ w.extractLsb' 11 1 ++ w.extractLsb' 3 3 ++ 0#1).signExtend 21
  let br : BitVec 13 := (w.extractLsb' 12 1 ++ w.extractLsb' 5 2 ++ w.extractLsb' 2 1 ++ w.extractLsb' 10 2 ++
    w.extractLsb' 3 2 ++ 0#1).signExtend 13
  match fld w 13 3 with
  | 0 => some (encI i6 rd 0 rd 0x13)
  | 1 => if !r64 then some (encJ j 1) else if rd = 0 then none else some (encI i6 rd 0 rd 0x1B)
  | 2 => some (encI i6 0 0 rd 0x13)
  | 3 =>
    if i6 = 0 then none
    else if rd = 2 then
      let n : BitVec 12 := (w.extractLsb' 12 1 ++ w.extractLsb' 3 2 ++ w.extractLsb' 5 1 ++ w.extractLsb' 2 1 ++
        w.extractLsb' 6 1 ++ 0#4).signExtend 12
      some (encI n 2 0 2 0x13)
    else some (pack [((i6.signExtend 20).toNat, 12), (rd, 7), (0x37, 0)])
  | 4 =>
    match fld w 10 2 with
    | 0 => if !r64 && decide (32 ≤ sh) then none else some (encI (BitVec.ofNat 12 sh) a 5 a 0x13)
    | 1 => if !r64 && decide (32 ≤ sh) then none else some (encI (BitVec.ofNat 12 (0x400 + sh)) a 5 a 0x13)
    | 2 => some (encI i6 a 7 a 0x13)
    | _ =>
      if bit w 12 then
        match r64, fld w 5 2 with
        | true, 0 => some (encR 0x20 b a 0 a 0x3B)
        | true, 1 => some (encR 0 b a 0 a 0x3B)
        | _, _ => none
      else match fld w 5 2 with
        | 0 => some (encR 0x20 b a 0 a 0x33)
        | 1 => some (encR 0 b a 4 a 0x33)
        | 2 => some (encR 0 b a 6 a 0x33)
        | _ => some (encR 0 b a 7 a 0x33)
  | 5 => some (encJ j 0)
  | 6 => some (encB br a 0)
  | _ => some (encB br a 1)

/-- Quadrant 2. -/
def expandC2 (r64 : Bool) (w : Word) : Option Word :=
  let rd := fld w 7 5
  let r2 := fld w 2 5
  let sh := fld w 12 1 * 32 + fld w 2 5
  let ld : BitVec 12 := BitVec.ofNat 12 (fld w 12 1 * 32 + fld w 5 2 * 8 + fld w 2 3 * 64)
  let lw : BitVec 12 := BitVec.ofNat 12 (fld w 12 1 * 32 + fld w 4 3 * 4 + fld w 2 2 * 64)
  let sd : BitVec 12 := BitVec.ofNat 12 (fld w 10 3 * 8 + fld w 7 3 * 64)
  let sw : BitVec 12 := BitVec.ofNat 12 (fld w 9 4 * 4 + fld w 7 2 * 64)
  match fld w 13 3 with
  | 0 => if !r64 && decide (32 ≤ sh) then none else some (encI (BitVec.ofNat 12 sh) rd 1 rd 0x13)
  | 1 => if r64 then some (encI ld 2 3 rd 0x07) else none
  | 2 => if rd = 0 then none else some (encI lw 2 2 rd 0x03)
  | 3 => if r64 && rd ≠ 0 then some (encI ld 2 3 rd 0x03) else none
  | 4 =>
    if !bit w 12 then
      if r2 = 0 then (if rd = 0 then none else some (encI 0 rd 0 0 0x67)) else some (encR 0 r2 0 0 rd 0x33)
    else if r2 = 0 then (if rd = 0 then some 0x00100073 else some (encI 0 rd 0 1 0x67))
    else some (encR 0 r2 rd 0 rd 0x33)
  | 5 => if r64 then some (encS sd r2 2 3 0x27) else none
  | 6 => some (encS sw r2 2 2 0x23)
  | _ => if r64 then some (encS sd r2 2 3 0x23) else none

/-- An instruction word as its 32-bit form and its length in bytes; none for a reserved compressed form. -/
def rvExpand (r64 : Bool) (w : Word) : Option Word × Nat :=
  match fld w 0 2 with
  | 0 => (expandC0 r64 w, 2)
  | 1 => (expandC1 r64 w, 2)
  | 2 => (expandC2 r64 w, 2)
  | _ => (some w, 4)

/-! ### Integer arithmetic -/

/-- The operations of OP and OP-IMM; `alt` is subtraction or the arithmetic shift. -/
def aluOp {n : Nat} (f3 : Nat) (alt : Bool) (a b : BitVec n) (sh : Nat) : BitVec n :=
  match f3 with
  | 0 => if alt then a - b else a + b
  | 1 => a <<< sh
  | 2 => BitVec.ofNat n (b2n (a.slt b))
  | 3 => BitVec.ofNat n (b2n (a.ult b))
  | 4 => a ^^^ b
  | 5 => if alt then a.sshiftRight sh else a >>> sh
  | 6 => a ||| b
  | _ => a &&& b

/-- The operations of M. -/
def mulOp {n : Nat} (f3 : Nat) (a b : BitVec n) : BitVec n :=
  match f3 with
  | 0 => a * b
  | 1 => BitVec.ofInt n (a.toInt * b.toInt / 2 ^ n)
  | 2 => BitVec.ofInt n (a.toInt * b.toNat / 2 ^ n)
  | 3 => BitVec.ofNat n (a.toNat * b.toNat / 2 ^ n)
  | 4 => if b = 0 then BitVec.allOnes n else a.sdiv b
  | 5 => if b = 0 then BitVec.allOnes n else a.udiv b
  | 6 => if b = 0 then a else a.srem b
  | _ => if b = 0 then a else a.umod b

/-- A branch's condition; none for a reserved one. -/
def rvBranch {n : Nat} (f3 : Nat) (a b : BitVec n) : Option Bool :=
  match f3 with
  | 0 => some (a == b)
  | 1 => some (a != b)
  | 4 => some (a.slt b)
  | 5 => some (!a.slt b)
  | 6 => some (a.ult b)
  | 7 => some (!a.ult b)
  | _ => none

/-- An atomic operation's new value; none for a reserved one. -/
def amoOp {n : Nat} (f5 : Nat) (old v : BitVec n) : Option (BitVec n) :=
  match f5 with
  | 0 => some (old + v)
  | 1 => some v
  | 4 => some (old ^^^ v)
  | 8 => some (old ||| v)
  | 12 => some (old &&& v)
  | 16 => some (if old.slt v then old else v)
  | 20 => some (if old.slt v then v else old)
  | 24 => some (if old.ult v then old else v)
  | 28 => some (if old.ult v then v else old)
  | _ => none

/-- An operation on 64-bit values at the width of 32 bits, the result sign-extended. -/
def at32 (f : BitVec 32 → BitVec 32 → BitVec 32) (a b : Dword) : Dword :=
  (f (a.setWidth 32) (b.setWidth 32)).signExtend 64

end Sys2Proof.Machine
end

