-- ==== Sys2Proof/Machine/RvCsr.lean ====
section
/-!
DEFINITION. The harts (05 R99 to R102): which runs, its registers, its CSRs with their legal values (published
privileged specification, PRESUMED where the manual names no option: log 4), interrupts and trap entry.
-/
set_option Elab.async false
namespace Sys2Proof.Machine

/-! ### Harts -/

/-- A Cantle core: RV64GC with S and U modes. -/
def isCantle (h : Nat) : Bool := decide (h < 4)

/-- The engine of a Rein hart (R100). -/
def hartEngine (h : Nat) : Option Nat := if within 5 h 12 then some (h - 5) else none

/-- A core with U mode: Cantle and Stitcher. -/
def hasU (h : Nat) : Bool := decide (h ≤ 4)

/-- PMP entries of a hart. -/
def pmpCount (h : Nat) : Nat := if h < 4 then 16 else if within 5 h 12 then 0 else 8

/-- The slot of the context that runs on a Rein hart. -/
def State.hartSlot (s : State) (h : Nat) : Option Nat :=
  (hartEngine h).bind fun e => (s.app.eng.get e).running.map (32 * e + ·)

/-- The register set a hart runs on: a Rein engine's is its running context's bank (R191). -/
def State.hart (s : State) (h : Nat) : Hart :=
  if h = 14 then s.bridle.hart
  else match s.hartSlot h with
    | some k => (s.app.ctx.get k).regs
    | none => s.app.harts.get h

/-- Changing it. -/
def State.updHart (s : State) (h : Nat) (f : Hart → Hart) : State :=
  if h = 14 then { s with bridle.hart := f s.bridle.hart }
  else match s.hartSlot h with
    | some k => s.updCtx k fun c => { c with regs := f c.regs }
    | none => { s with app.harts := s.app.harts.upd h f }

/-- The registers a hart keeps outside its contexts: the counters. -/
def State.core (s : State) (h : Nat) : Hart := if h = 14 then s.bridle.hart else s.app.harts.get h

/-- Changing them. -/
def State.updCore (s : State) (h : Nat) (f : Hart → Hart) : State :=
  if h = 14 then { s with bridle.hart := f s.bridle.hart } else { s with app.harts := s.app.harts.upd h f }

/-- The hart executes instructions: out of reset, not halted, and a Rein engine with a context running. -/
def State.hartRuns (s : State) (h : Nat) : Bool :=
  !(s.core h).halted &&
    (if h = 14 then s.bridle.loaded && !s.cold.coldHeld
     else !s.inReset && (
      if h = 0 then true
      else if h < 4 then s.app.clk.cantle
      else if h = 4 then s.app.clk.run.getLsbD 8
      else if h = 13 then !s.tackHeld
      else match hartEngine h with
        | some e => s.engRuns e && (s.app.eng.get e).running.isSome
        | none => false))

/-- A register x0 to x31. -/
def Hart.get (r : Hart) (i : Nat) : Dword := if i = 0 then 0 else r.x.get i

/-- Writing a register; x0 keeps 0. -/
def Hart.put (r : Hart) (i : Nat) (v : Dword) : Hart := if i = 0 then r else { r with x := r.x.set i v }

/-- A value at the hart's width. -/
def rvFit (h : Nat) (v : Dword) : Dword := if isCantle h then v else (v.setWidth 32).setWidth 64

/-- Bit `i` of a doubleword. -/
def dbit (v : Dword) (i : Nat) : Bool := v.getLsbD i

/-- Field of `n` bits from `lo`. -/
def dfld (v : Dword) (lo n : Nat) : Nat := v.toNat / 2 ^ lo % 2 ^ n

/-- A field replaced. -/
def dput (v : Dword) (lo n x : Nat) : Dword :=
  let m : Dword := BitVec.ofNat 64 ((2 ^ n - 1) * 2 ^ lo)
  (v &&& ~~~m) ||| (BitVec.ofNat 64 (x * 2 ^ lo) &&& m)

/-- The bits of `m` replaced. -/
def dmix (m old v : Dword) : Dword := (old &&& ~~~m) ||| (v &&& m)

/-! ### Interrupts -/

/-- The compare register and software-interrupt bit of a hart (R101). -/
def timerOf (h : Nat) : Option Nat := if h ≤ 4 then some h else if h = 13 then some 5 else none

/-- mip: the lines of the Buckle, the timer and the software-interrupt bit, and the bits software sets (R101, R106). -/
def State.mip (s : State) (h : Nat) : Dword :=
  let soft := (s.hart h).csr.get 0x344 &&& 0x222
  let ext := if h < 4 then s.line h else if h = 4 then s.line 8 else if h = 13 then s.line 9 else false
  let sei := h < 4 && s.line (4 + h)
  let t := match timerOf h with
    | some i => (decide (s.app.clk.mtimecmp.get i ≤ s.ht), s.app.clk.msip.get i)
    | none => (false, false)
  soft ||| BitVec.ofNat 64 (b2n ext * 2048 + b2n t.1 * 128 + b2n t.2 * 8) ||| (if sei then 0x200 else 0)

/-- The interrupt a hart takes next, with whether it goes to S mode. -/
def State.interrupt (s : State) (h : Nat) : Option (Nat × Bool) :=
  let r := s.hart h
  let p := s.mip h &&& r.csr.get 0x304
  let del := r.csr.get 0x303
  let st := r.csr.get 0x300
  let pick := fun m : Dword => [11, 3, 7, 9, 1, 5].find? fun i => dbit m i
  let m := if r.priv < 3 || dbit st 3 then pick (p &&& ~~~del) else none
  match m with
  | some i => some (i, false)
  | none =>
    if r.priv = 0 || (r.priv = 1 && dbit st 1) then (pick (p &&& del)).map fun i => (i, true) else none

/-! ### Traps -/

/-- Where a trap goes: the base, or with vectored mode and an interrupt the entry of its cause. -/
def vectorOf (tvec : Dword) (intr : Bool) (cause : Nat) : Dword :=
  let base := tvec &&& ~~~3#64
  if intr && dbit tvec 0 then base + BitVec.ofNat 64 (4 * cause) else base

/-- The cause register's value. -/
def causeWordOf (h : Nat) (intr : Bool) (cause : Nat) : Dword :=
  BitVec.ofNat 64 (cause + if intr then 2 ^ (if isCantle h then 63 else 31) else 0)

/-- Trap entry into M mode. -/
def trapM (h : Nat) (intr : Bool) (cause : Nat) (val : Dword) (r : Hart) : Hart :=
  let st := r.csr.get 0x300
  let st1 := dput (dput (dput st 7 1 (b2n (dbit st 3))) 3 1 0) 11 2 r.priv
  { r with csr := (((r.csr.set 0x300 st1).set 0x341 r.pc).set 0x342 (causeWordOf h intr cause)).set 0x343 val,
           priv := 3, pc := vectorOf (r.csr.get 0x305) intr cause }

/-- Trap entry into S mode. -/
def trapS (h : Nat) (intr : Bool) (cause : Nat) (val : Dword) (r : Hart) : Hart :=
  let st := r.csr.get 0x300
  let st1 := dput (dput (dput st 5 1 (b2n (dbit st 1))) 1 1 0) 8 1 r.priv
  { r with csr := (((r.csr.set 0x300 st1).set 0x141 r.pc).set 0x142 (causeWordOf h intr cause)).set 0x143 val,
           priv := 1, pc := vectorOf (r.csr.get 0x105) intr cause }

/-- A synchronous exception on a hart that handles its own. -/
def hartTrap (h cause : Nat) (val : Dword) (s : State) : State :=
  s.updHart h fun r =>
    if r.priv ≤ 1 && isCantle h && dbit (r.csr.get 0x302) cause then trapS h false cause (rvFit h val) r
    else trapM h false cause (rvFit h val) r

/-- A taken interrupt. -/
def takeInterrupt (h i : Nat) (sMode : Bool) (s : State) : State :=
  s.updHart h fun r => if sMode then trapS h true i 0 r else trapM h true i 0 r

/-- MRET. -/
def mretTo (h : Nat) (r : Hart) : Hart :=
  let st := r.csr.get 0x300
  let pp := if hasU h then dfld st 11 2 else 3
  let st1 := dput (dput (dput st 3 1 (b2n (dbit st 7))) 7 1 1) 11 2 (if hasU h then 0 else 3)
  { r with csr := r.csr.set 0x300 (if pp = 3 then st1 else dput st1 17 1 0), priv := pp, pc := r.csr.get 0x341 }

/-- SRET. -/
def sretTo (r : Hart) : Hart :=
  let st := r.csr.get 0x300
  let st1 := dput (dput (dput (dput st 1 1 (b2n (dbit st 5))) 5 1 1) 8 1 0) 17 1 0
  { r with csr := r.csr.set 0x300 st1, priv := dfld st 8 1, pc := r.csr.get 0x141 }

/-! ### CSRs -/

/-- The word of mimpid (R100): the stepping. -/
def mimpid : Dword := if Config.stepping then 0xA0 else 0xB0

/-- misa: the extensions of the core. -/
def misaOf (h : Nat) : Dword := if isCantle h then 0x800000000014112D else if h = 4 then 0x40101104 else 0x40001104

/-- Writable bits of mstatus. -/
def mstatusMask (h : Nat) : Dword := if isCantle h then 0x7E79AA else if h = 4 then 0x221888 else 0x88

/-- Bits of mstatus that sstatus shows. -/
def sstatusMask : Dword := 0xC6122

/-- mstatus as read: SXL, UXL and SD on Cantle, MPP M on a core with M only. -/
def mstatusWord (h : Nat) (v : Dword) : Dword :=
  if isCantle h then v ||| 0xA00000000#64 ||| (if dfld v 13 2 = 3 then 0x8000000000000000 else 0)
  else if h = 4 then v else v ||| 0x1800

/-- mstatus after a write: MPP takes only modes of the core. -/
def mstatusPut (h : Nat) (old v : Dword) : Dword :=
  let x := dmix (mstatusMask h) old v
  let pp := dfld v 11 2
  if pp = 3 || pp = 0 || (pp = 1 && isCantle h) then x else dput x 11 2 (dfld old 11 2)

/-- The configuration byte of a PMP entry. -/
def Hart.pmpcfg (r : Hart) (i : Nat) : Nat := dfld (r.csr.get (0x3A0 + i / 8 * 2)) (8 * (i % 8)) 8

/-- A PMP entry is locked. -/
def Hart.pmpLocked (r : Hart) (i : Nat) : Bool := decide (128 ≤ r.pmpcfg i)

/-- A configuration byte after a write: locked entries stay, W without R is reserved, and NA4 lies below the
granularity of 4 KB; reserved bits read 0. -/
def pmpByte (old v : Nat) : Nat :=
  if 128 ≤ old then old
  else
    let x := v % 8 + v / 8 % 4 * 8 + v / 128 * 128
    if v % 4 = 2 then old else if v / 8 % 4 = 2 then x - 16 + old / 8 % 4 * 8 else x

/-- The PMP configuration bytes from entry `i` on, written from a register of `n` bytes. -/
def pmpWrite (h i n : Nat) (v : Dword) (r : Hart) : Hart :=
  (List.range n).foldl (fun r k =>
    if i + k < pmpCount h then
      let c := 0x3A0 + (i + k) / 8 * 2
      { r with csr := r.csr.set c (dput (r.csr.get c) (8 * ((i + k) % 8)) 8 (pmpByte (r.pmpcfg (i + k)) (dfld v (8 * k) 8))) }
    else r) r

/-- pmpaddr_i as read: the granule's bits read 0, or 1 in NAPOT mode. -/
def Hart.pmpaddr (r : Hart) (i : Nat) : Dword :=
  let v := r.csr.get (0x3B0 + i)
  if r.pmpcfg i / 8 % 4 = 3 then v ||| 0x1FF else v &&& ~~~0x3FF#64

/-- The hart's number CSR: a lower half, an upper half on RV32. -/
def halfOf (h : Nat) (hi : Bool) (v : Dword) : Dword := if hi then v >>> 32 else rvFit h v

/-- CSRs that read 0 and ignore writes: the counters mhpmcounter3 to 31 with their selectors (R101), the identity
CSRs of value 0, mconfigptr, and on RV32 the upper halves. -/
def zeroCsr (h c : Nat) : Bool :=
  within 0xB03 c 0xB1F || within 0x323 c 0x33F || within 0xF11 c 0xF12 || c = 0xF15 ||
    (!isCantle h && (within 0xB83 c 0xB9F || c = 0x310 || (c = 0x31A && h = 4)))

/-- A CSR that the core implements for the present mode (R99, R102); others raise an illegal-instruction exception. PRESUMED
(log 4): the Bridle's hart has the time CSR as well, which R101 does not list for it; it reads HT. -/
def csrExists (h c : Nat) : Bool :=
  let can := isCantle h
  zeroCsr h c || c = 0x300 || c = 0x301 || within 0x304 c 0x305 || within 0x340 c 0x344 ||
  c = 0xB00 || c = 0xB02 || within 0xF13 c 0xF14 || c = 0xC01 || (!can && (c = 0xB80 || c = 0xB82 || c = 0xC81)) ||
  (can && (within 1 c 3 || within 0x302 c 0x303 || c = 0x100 || within 0x104 c 0x106 || c = 0x10A ||
    within 0x140 c 0x144 || c = 0x180)) ||
  (hasU h && (c = 0x306 || c = 0x30A)) ||
  (decide (0 < pmpCount h) && (within 0x3B0 c 0x3BF || c = 0x3A0 || c = 0x3A2 || (!can && (c = 0x3A1 || c = 0x3A3)))) ||
  ((hartEngine h).isSome && (within 0xFC0 c 0xFC2 || within 0x7C0 c 0x7C1))

/-- The mode reaches the CSR: its level, satp under TVM, time under the counter-enable registers. -/
def csrAllowed (h : Nat) (r : Hart) (c : Nat) : Bool :=
  decide (c / 256 % 4 ≤ r.priv) && !(c = 0x180 && r.priv = 1 && dbit (r.csr.get 0x300) 20) &&
  !(within 0xC00 c 0xC9F && r.priv < 3 && !dbit (r.csr.get 0x306) 1) &&
  !(within 0xC00 c 0xC9F && r.priv = 0 && isCantle h && !dbit (r.csr.get 0x106) 1) &&
  !(within 1 c 3 && dfld (r.csr.get 0x300) 13 2 = 0)

/-- A CSR's value. -/
def State.csrRead (s : State) (h c : Nat) : Dword :=
  let r := s.hart h
  let k := s.core h
  let ctx := ((s.hartSlot h).map s.app.ctx.get).getD {}
  if zeroCsr h c then 0
  else if within 0x3B0 c 0x3BF then rvFit h (r.pmpaddr (c - 0x3B0))
  else match c with
    | 0x001 => BitVec.ofNat 64 (dfld (r.csr.get 3) 0 5)
    | 0x002 => BitVec.ofNat 64 (dfld (r.csr.get 3) 5 3)
    | 0x100 => mstatusWord h (r.csr.get 0x300) &&& (sstatusMask ||| 0x8000000300000000)
    | 0x104 => r.csr.get 0x304 &&& r.csr.get 0x303
    | 0x144 => s.mip h &&& r.csr.get 0x303
    | 0x300 => mstatusWord h (r.csr.get 0x300)
    | 0x301 => misaOf h
    | 0x305 => if (hartEngine h).isSome then 0 else r.csr.get 0x305
    | 0x344 => if (hartEngine h).isSome then 0 else s.mip h
    | 0x3A0 => rvFit h (r.csr.get 0x3A0)
    | 0x3A1 => r.csr.get 0x3A0 >>> 32
    | 0x3A2 => rvFit h (r.csr.get 0x3A2)
    | 0x3A3 => r.csr.get 0x3A2 >>> 32
    | 0xB00 => halfOf h false (k.csr.get 0xB00)
    | 0xB02 => halfOf h false (k.csr.get 0xB02)
    | 0xB80 => halfOf h true (k.csr.get 0xB00)
    | 0xB82 => halfOf h true (k.csr.get 0xB02)
    | 0xC01 => halfOf h false (BitVec.ofNat 64 s.ht)
    | 0xC81 => halfOf h true (BitVec.ofNat 64 s.ht)
    | 0xF13 => mimpid
    | 0xF14 => BitVec.ofNat 64 h
    | 0xFC0 => BitVec.ofNat 64 (((s.hartSlot h).getD 0) % 32)
    | 0xFC1 => ctx.evWord.setWidth 64
    | 0xFC2 => BitVec.ofNat 64 ctx.left
    | 0x7C0 => 0
    | 0x7C1 => 0
    | _ => r.csr.get c

/-- A counter with one half written on RV32. -/
def counterPut (h : Nat) (hi : Bool) (old v : Dword) : Dword :=
  if isCantle h then v else if hi then dput old 32 32 (v.toNat % 2 ^ 32) else dput old 0 32 (v.toNat % 2 ^ 32)

/-- A plain CSR written. -/
def putCsr (h c : Nat) (v : Dword) (s : State) : State := s.updHart h fun r => { r with csr := r.csr.set c v }

/-- A counter of the core written. -/
def putCounter (h c : Nat) (hi : Bool) (v : Dword) (s : State) : State :=
  s.updCore h fun r => { r with csr := r.csr.set c (counterPut h hi (r.csr.get c) v) }

/-- Floating-point state written: FS becomes dirty. -/
def fsDirty (r : Hart) : Hart := { r with csr := r.csr.set 0x300 (dput (r.csr.get 0x300) 13 2 3) }

/-- fcsr written. -/
def putFcsr (h : Nat) (v : Dword) (s : State) : State :=
  s.updHart h fun r => fsDirty { r with csr := r.csr.set 3 (v &&& 0xFF) }

/-- A PMP address written, unless its entry or a TOR entry above it is locked. -/
def putPmpaddr (h i : Nat) (v : Dword) (s : State) : State :=
  s.updHart h fun r =>
    let next := r.pmpLocked (i + 1) && r.pmpcfg (i + 1) / 8 % 4 = 1
    if i ≥ pmpCount h || r.pmpLocked i || next then r
    else { r with csr := r.csr.set (0x3B0 + i) (if isCantle h then v &&& 0x3FFFFFFFFFFFFF else rvFit h v) }

/-- The effect of writing a CSR (published; R101, R102, R191). -/
def csrWrite (h c : Nat) (v : Dword) (s : State) : State :=
  let r := s.hart h
  let m := r.csr.get 0x303
  if zeroCsr h c then s
  else if within 0x3B0 c 0x3BF then putPmpaddr h (c - 0x3B0) v s
  else match c with
    | 0x001 => putFcsr h (dput (r.csr.get 3) 0 5 (dfld v 0 5)) s
    | 0x002 => putFcsr h (dput (r.csr.get 3) 5 3 (dfld v 0 3)) s
    | 0x003 => putFcsr h v s
    | 0x100 => putCsr h 0x300 (dmix sstatusMask (r.csr.get 0x300) v) s
    | 0x104 => putCsr h 0x304 (dmix m (r.csr.get 0x304) v) s
    | 0x105 => putCsr h c (v &&& ~~~2#64) s
    | 0x106 => putCsr h c (v &&& 2) s
    | 0x10A => putCsr h c (v &&& 1) s
    | 0x141 => putCsr h c (v &&& ~~~1#64) s
    | 0x144 => putCsr h 0x344 (dmix (m &&& 2) (r.csr.get 0x344) v) s
    | 0x180 => if dfld v 60 4 = 0 || dfld v 60 4 = 8 then putCsr h c v s else s
    | 0x300 => putCsr h c (mstatusPut h (r.csr.get c) v) s
    | 0x301 => s
    | 0x302 => putCsr h c (v &&& 0xB3FF) s
    | 0x303 => putCsr h c (v &&& 0x222) s
    | 0x304 => putCsr h c (v &&& (if isCantle h then 0xAAA else if (hartEngine h).isSome then 0 else 0x888)) s
    | 0x305 => if (hartEngine h).isSome then s else putCsr h c (rvFit h (v &&& ~~~2#64)) s
    | 0x306 => putCsr h c (v &&& 2) s
    | 0x30A => putCsr h c (v &&& 1) s
    | 0x341 => putCsr h c (rvFit h (v &&& ~~~1#64)) s
    | 0x344 => if isCantle h then putCsr h c (dmix 0x222 (r.csr.get c) v) s else s
    | 0x3A0 => s.updHart h (pmpWrite h 0 (if isCantle h then 8 else 4) v)
    | 0x3A1 => s.updHart h (pmpWrite h 4 4 v)
    | 0x3A2 => s.updHart h (pmpWrite h 8 (if isCantle h then 8 else 4) v)
    | 0x3A3 => s.updHart h (pmpWrite h 12 4 v)
    | 0xB00 => putCounter h 0xB00 false v s
    | 0xB02 => putCounter h 0xB02 false v s
    | 0xB80 => putCounter h 0xB00 true v s
    | 0xB82 => putCounter h 0xB02 true v s
    | 0x7C0 => match hartEngine h with
      | some e => sesDone e s
      | none => s
    | 0x7C1 => match hartEngine h with
      | some e => sesPost e (v.setWidth 32) s
      | none => s
    | _ => putCsr h c (rvFit h v) s

end Sys2Proof.Machine
end

