-- ==== Sys2Proof/Machine/RvMem.lean ====
section
/-!
DEFINITION. Memory accesses of the harts (05 R99, R105; 09 R192): alignment, Sv39, physical memory protection, and the
access itself.
-/
set_option Elab.async false
namespace Sys2Proof.Machine

/-- Kinds of access. -/
inductive Acc where
  | load | store | fetch
  deriving DecidableEq, Repr

/-- Exception causes of an access: misaligned, access fault, page fault. -/
def Acc.misaligned : Acc → Nat
  | .load => 4 | .store => 6 | .fetch => 0
def Acc.fault : Acc → Nat
  | .load => 5 | .store => 7 | .fetch => 1
def Acc.page : Acc → Nat
  | .load => 13 | .store => 15 | .fetch => 12

/-- The range of bytes a PMP entry covers; none where it is off. -/
def Hart.pmpRange (r : Hart) (i : Nat) : Option (Nat × Nat) :=
  let a := (r.csr.get (0x3B0 + i)).toNat
  let floor := fun x : Nat => x / 1024 * 4096
  match r.pmpcfg i / 8 % 4 with
  | 1 => some (if i = 0 then 0 else floor (r.csr.get (0x3B0 + (i - 1))).toNat, floor a)
  | 3 =>
    let b := a ||| 0x1FF
    let size := 2 * ((b ^^^ (b + 1)) + 1) * 2
    some (4 * b / size * size, 4 * b / size * size + size)
  | _ => none

/-- The lowest entry that covers an address. -/
def Hart.pmpMatch (r : Hart) (n a : Nat) : Option Nat :=
  (List.range n).find? fun i =>
    match r.pmpRange i with
    | some (lo, hi) => decide (lo ≤ a) && decide (a < hi)
    | none => false

/-- Physical memory protection allows the access. -/
def pmpAllows (h priv : Nat) (r : Hart) (k : Acc) (a : Nat) : Bool :=
  match r.pmpMatch (pmpCount h) a with
  | some i =>
    let c := r.pmpcfg i
    (priv = 3 && !r.pmpLocked i) ||
      match k with
      | .load => c % 2 = 1
      | .store => c / 2 % 2 = 1
      | .fetch => c / 4 % 2 = 1
  | none => priv = 3 || pmpCount h = 0

/-- The mode an access is made in: MPRV gives loads and stores of M mode the mode of MPP. -/
def accessPriv (r : Hart) (k : Acc) : Nat :=
  let st := r.csr.get 0x300
  if k ≠ .fetch && r.priv = 3 && dbit st 17 then dfld st 11 2 else r.priv

/-- A leaf entry permits the access: X, R or W, the U bit against the mode, A, and D for a store. -/
def leafAllows (st : Dword) (priv : Nat) (k : Acc) (pte : Dword) : Bool :=
  let user := dbit pte 4
  (match k with
    | .fetch => dbit pte 3
    | .load => dbit pte 1 || (dbit st 19 && dbit pte 3)
    | .store => dbit pte 2) &&
  (if priv = 0 then user else !user || (k ≠ .fetch && dbit st 18)) &&
  dbit pte 6 && (k ≠ .store || dbit pte 7)

/-- The walk of Sv39 from level `n − 1` at table `a`: the physical address, or the cause. -/
def State.walk (s : State) (h priv : Nat) (r : Hart) (k : Acc) (va : Nat) : Nat → Nat → Except Nat Nat
  | 0, _ => .error k.page
  | n + 1, a =>
    let p := a + va / 2 ^ (12 + 9 * n) % 512 * 8
    if !(s.reaches (hartPort h) p 8 false && pmpAllows h 1 r .load p) then .error k.fault
    else
      let pte : Dword := BitVec.ofNat 64 (ofLE ((List.range 8).map fun i => s.readByte (p + i)))
      let ppn := dfld pte 10 44
      if !dbit pte 0 || (!dbit pte 1 && dbit pte 2) || dfld pte 54 10 ≠ 0 then .error k.page
      else if dbit pte 1 || dbit pte 3 then
        if ppn % 2 ^ (9 * n) ≠ 0 || !leafAllows (r.csr.get 0x300) priv k pte then .error k.page
        else .ok (ppn * 4096 + va % 2 ^ (12 + 9 * n))
      else if dbit pte 4 || dbit pte 6 || dbit pte 7 then .error k.page
      else s.walk h priv r k va n (ppn * 4096)

/-- The physical address of an access, or the cause of its exception. -/
def State.translate (s : State) (h : Nat) (k : Acc) (va : Dword) : Except Nat Nat :=
  let r := s.hart h
  let priv := accessPriv r k
  let satp := r.csr.get 0x180
  let pa : Except Nat Nat :=
    if isCantle h && priv < 3 && dfld satp 60 4 = 8 then
      if ((va.setWidth 39).signExtend 64 : Dword) ≠ va then .error k.page
      else s.walk h priv r k va.toNat 3 (dfld satp 0 44 * 4096)
    else .ok va.toNat
  match pa with
  | .ok a => if pmpAllows h priv r k a then .ok a else .error k.fault
  | .error c => .error c

/-- A context's own accesses within the local memory of its engine: code and tables to read, its window to read and
write, code to execute (R192). -/
def State.ctxMay (s : State) (e : Nat) (k : Acc) (a n : Nat) : Bool :=
  let o := a % 0x80000
  if regionOf a = .rein e then
    if o + n ≤ 0x18000 then k ≠ .store
    else if o + n ≤ 0x20000 then k = .load
    else match (s.app.eng.get e).running with
      | some c => k ≠ .fetch && decide (0x20000 + 0x3000 * c ≤ o) && decide (o + n ≤ 0x20000 + 0x3000 * (c + 1))
      | none => false
  else true

/-- The hart reaches the bytes at all: the Bridle only its local memory, a context its own windows. -/
def State.hartMay (s : State) (h : Nat) (k : Acc) (a n : Nat) : Bool :=
  if h = 14 then decide (a + n ≤ 0x20000)
  else match hartEngine h with
    | some e => s.ctxMay e k a n
    | none => true

/-- A load at a physical address. A Cantle core's load of bytes that a DMA master wrote is free: the caches are not coherent
with DMA masters (R99). -/
def physLoad (h a n : Nat) (s : State) : State × Option Nat :=
  if !s.hartMay h .load a n then (s, none)
  else if h = 14 then (s, some (ofLE ((List.range n).map fun i => s.bridle.mem.get (a + i))))
  else
    let r := busLoad (hartPort h) a n s
    if isCantle h && r.1.marked 1 a n then (r.1.used, r.2.map fun _ => (r.1.freeBits (8 * n)).toNat) else r

/-- Reservations of other harts on the stored bytes are lost. -/
def breakReservations (h a n : Nat) (s : State) : State :=
  { s with app.harts := s.app.harts.updAll ((List.range 4).filter fun i => i ≠ h) fun _ r =>
      match r.resv with
      | some p => if p / 8 = a / 8 || p / 8 = (a + n - 1) / 8 then { r with resv := none } else r
      | none => r }

/-- A store at a physical address: false at a bus error. -/
def physStore (h a n v : Nat) (s : State) : State × Bool :=
  if !s.hartMay h .store a n then (s, false)
  else if h = 14 then
    ({ s with bridle.mem := (List.range n).foldl (fun m i => m.set (a + i) (BitVec.ofNat 8 (v / 256 ^ i))) s.bridle.mem }, true)
  else
    let r := busStore (hartPort h) a n v s
    if !r.2 then r
    else (breakReservations h a n (if regionOf a = .regs then r.1 else markBytes (if isCantle h then 2 else 0) a n r.1), true)

/-- A fetch of `n` bytes reaches memory or a register block that the hart reads. -/
def State.fetchOk (s : State) (h a n : Nat) : Bool :=
  s.hartMay h .fetch a n &&
    (h = 14 || s.reaches (hartPort h) a n false || (regionOf a = .regs && s.reads (hartPort h) .regs))

end Sys2Proof.Machine
end

