-- ==== Sys2Proof/Machine/Riscv.lean ====
section
/-!
DEFINITION. Executing one instruction on a hart (05 R99, published semantics), its exceptions (R105; 09 R203), the
compare match of a hart's timer (R101) and how a hart enters debug mode (R103).
-/
set_option Elab.async false
namespace Sys2Proof.Machine

/-- How an instruction ends. -/
inductive RvOut where
  | done (s : State)
  | exc (cause : Nat) (val : Dword) (s : State)

/-- The state an outcome carries. -/
def RvOut.state : RvOut → State
  | .done s => s
  | .exc _ _ s => s

/-- An instruction that writes a register and goes on. -/
def rvRet (h rd : Nat) (v next : Dword) (s : State) : RvOut :=
  .done (s.updHart h fun r => { r.put rd (rvFit h v) with pc := next })

/-- An illegal-instruction exception. -/
def rvIllegal (s : State) : RvOut := .exc 2 0 s

/-! ### Integer instructions -/

/-- OP and OP-IMM at the core's width. -/
def aluX (h f3 : Nat) (alt : Bool) (a b : Dword) : Dword :=
  if isCantle h then aluOp f3 alt a b (b.toNat % 64)
  else (aluOp f3 alt (a.setWidth 32) (b.setWidth 32) (b.toNat % 32)).setWidth 64

/-- M at the core's width. -/
def mulX (h f3 : Nat) (a b : Dword) : Dword :=
  if isCantle h then mulOp f3 a b else (mulOp f3 (a.setWidth 32) (b.setWidth 32)).setWidth 64

/-- OP-IMM. -/
def rvOpImm (h : Nat) (w : Word) (next : Dword) (s : State) : RvOut :=
  let a := (s.hart h).get (rvRs1 w)
  let f := rvF3 w
  let hi := if isCantle h then rvF7 w / 2 * 2 else rvF7 w
  if (f = 1 && hi ≠ 0) || (f = 5 && hi ≠ 0 && hi ≠ 32) then rvIllegal s
  else
    let b := if f = 1 || f = 5 then BitVec.ofNat 64 (fld w 20 6) else immI w
    rvRet h (rvRd w) (aluX h f (f = 5 && hi = 32) a b) next s

/-- OP. -/
def rvOpReg (h : Nat) (w : Word) (next : Dword) (s : State) : RvOut :=
  let r := s.hart h
  let a := r.get (rvRs1 w)
  let b := r.get (rvRs2 w)
  let f := rvF3 w
  match rvF7 w with
  | 0 => rvRet h (rvRd w) (aluX h f false a b) next s
  | 1 => rvRet h (rvRd w) (mulX h f a b) next s
  | 32 => if f = 0 || f = 5 then rvRet h (rvRd w) (aluX h f true a b) next s else rvIllegal s
  | _ => rvIllegal s

/-- OP-IMM-32 of RV64. -/
def rvOpImm32 (h : Nat) (w : Word) (next : Dword) (s : State) : RvOut :=
  let a := (s.hart h).get (rvRs1 w)
  let sh := BitVec.ofNat 64 (rvRs2 w)
  let go := fun f alt b => rvRet h (rvRd w) (at32 (fun x y => aluOp f alt x y (rvRs2 w)) a b) next s
  match isCantle h, rvF3 w, rvF7 w with
  | true, 0, _ => go 0 false (immI w)
  | true, 1, 0 => go 1 false sh
  | true, 5, 0 => go 5 false sh
  | true, 5, 32 => go 5 true sh
  | _, _, _ => rvIllegal s

/-- OP-32 of RV64. -/
def rvOpReg32 (h : Nat) (w : Word) (next : Dword) (s : State) : RvOut :=
  let r := s.hart h
  let a := r.get (rvRs1 w)
  let b := r.get (rvRs2 w)
  let f := rvF3 w
  let go := fun alt => rvRet h (rvRd w) (at32 (fun x y => aluOp f alt x y (b.toNat % 32)) a b) next s
  if !isCantle h then rvIllegal s
  else match rvF7 w with
    | 0 => if f = 0 || f = 1 || f = 5 then go false else rvIllegal s
    | 32 => if f = 0 || f = 5 then go true else rvIllegal s
    | 1 => if f = 0 || 4 ≤ f then rvRet h (rvRd w) (at32 (mulOp f) a b) next s else rvIllegal s
    | _ => rvIllegal s

/-- A conditional branch. -/
def rvBranchTo (h : Nat) (w : Word) (next : Dword) (s : State) : RvOut :=
  let r := s.hart h
  let a := r.get (rvRs1 w)
  let b := r.get (rvRs2 w)
  let c := if isCantle h then rvBranch (rvF3 w) a b else rvBranch (rvF3 w) (a.setWidth 32) (b.setWidth 32)
  match c with
  | none => rvIllegal s
  | some t => rvRet h 0 0 (if t then rvFit h (r.pc + immB w) else next) s

/-! ### Memory -/

/-- The physical address of an aligned access, or the cause of its exception: misalignment first. -/
def State.accessAt (s : State) (h : Nat) (k : Acc) (va : Dword) (n : Nat) : Except Nat Nat :=
  if va.toNat % n ≠ 0 then .error k.misaligned else s.translate h k va

/-- A load of `n` bytes, its value given to `f`. -/
def rvLoadAt (h n : Nat) (va : Dword) (s : State) (f : Nat → State → RvOut) : RvOut :=
  match s.accessAt h .load va n with
  | .error c => .exc c va s
  | .ok a =>
    match physLoad h a n s with
    | (s1, some v) => f v s1
    | (s1, none) => .exc 5 va s1

/-- A store of `n` bytes. -/
def rvStoreAt (h n : Nat) (va v next : Dword) (s : State) : RvOut :=
  match s.accessAt h .store va n with
  | .error c => .exc c va s
  | .ok a =>
    match physStore h a n (v.toNat % 256 ^ n) s with
    | (s1, true) => rvRet h 0 0 next s1
    | (s1, false) => .exc 7 va s1

/-- LOAD. -/
def rvLoad (h : Nat) (w : Word) (next : Dword) (s : State) : RvOut :=
  let f := rvF3 w
  let n := 2 ^ (f % 4)
  if f = 7 || ((f = 3 || f = 6) && !isCantle h) then rvIllegal s
  else rvLoadAt h n (rvFit h ((s.hart h).get (rvRs1 w) + immI w)) s fun v s1 =>
    rvRet h (rvRd w) (if f < 4 then BitVec.ofInt 64 (toInt (8 * n) v) else BitVec.ofNat 64 v) next s1

/-- STORE. -/
def rvStore (h : Nat) (w : Word) (next : Dword) (s : State) : RvOut :=
  let f := rvF3 w
  let r := s.hart h
  if 4 ≤ f || (f = 3 && !isCantle h) then rvIllegal s
  else rvStoreAt h (2 ^ f) (rvFit h (r.get (rvRs1 w) + immS w)) (r.get (rvRs2 w)) next s

/-- Memory that takes atomic accesses: the SRAMs. -/
def atomicAt (a : Nat) : Bool := (regionOf a).writable && regionOf a ≠ .regs

/-- LR, SC and the atomic operations of extension A, on Cantle. -/
def rvAmo (h : Nat) (w : Word) (next : Dword) (s : State) : RvOut :=
  let r := s.hart h
  let n := 2 ^ rvF3 w
  let va := r.get (rvRs1 w)
  let b := r.get (rvRs2 w)
  let f5 := rvF7 w / 4
  let ext := fun v : Nat => BitVec.ofInt 64 (toInt (8 * n) v)
  if !isCantle h || !(n = 4 || n = 8) then rvIllegal s
  else if f5 = 2 then
    if rvRs2 w ≠ 0 then rvIllegal s
    else match s.accessAt h .load va n with
      | .error c => .exc c va s
      | .ok a =>
        if !atomicAt a then .exc 5 va s
        else match physLoad h a n s with
          | (s1, none) => .exc 5 va s1
          | (s1, some v) => rvRet h (rvRd w) (ext v) next (s1.updHart h fun r => { r with resv := some a })
  else if f5 ≠ 3 && (amoOp f5 0#64 0#64).isNone then rvIllegal s
  else match s.accessAt h .store va n with
    | .error c => .exc c va s
    | .ok a =>
      if !atomicAt a || !s.reaches (hartPort h) a n true then .exc 7 va s
      else if f5 = 3 then
        let s1 := s.updHart h fun r => { r with resv := none }
        if r.resv ≠ some a then rvRet h (rvRd w) 1 next s1
        else match physStore h a n (b.toNat % 256 ^ n) s1 with
          | (s2, true) => rvRet h (rvRd w) 0 next s2
          | (s2, false) => .exc 7 va s2
      else match physLoad h a n s with
        | (s1, none) => .exc 7 va s1
        | (s1, some v) =>
          let new : Nat := if n = 4
            then ((amoOp f5 (BitVec.ofNat 32 v) (b.setWidth 32)).getD 0).toNat
            else ((amoOp f5 (BitVec.ofNat 64 v) b).getD 0).toNat
          match physStore h a n new s1 with
          | (s2, true) => rvRet h (rvRd w) (ext v) next s2
          | (s2, false) => .exc 7 va s2

/-! ### Floating point, on Cantle -/

/-- The floating-point unit is there and on. -/
def fpOn (h : Nat) (r : Hart) : Bool := isCantle h && dfld (r.csr.get 0x300) 13 2 ≠ 0

/-- A single in a register: a value that is not boxed reads as the canonical NaN. -/
def fpGet (r : Hart) (f : FFmt) (i : Nat) : Nat :=
  let v := r.f.get i
  if f.mb = 52 then v.toNat else if v >>> 32 = 0xFFFFFFFF#64 then v.toNat % 2 ^ 32 else fmtS.nanBits

/-- A pattern as the register holds it. -/
def fpBox (f : FFmt) (v : Nat) : Dword :=
  if f.mb = 52 then BitVec.ofNat 64 v else BitVec.ofNat 64 (0xFFFFFFFF * 2 ^ 32 + v)

/-- The rounding mode of an instruction; none where it is reserved. -/
def fpRm (r : Hart) (f3 : Nat) : Option Nat :=
  let m := if f3 = 7 then dfld (r.csr.get 3) 5 3 else f3
  if m ≤ 4 then some m else none

/-- A result for an x register (true) or an f register, with its flags. -/
abbrev FpRes := Bool × Dword × Nat

/-- The result of an OP-FP instruction; none for a reserved one. -/
def fpCalc (r : Hart) (w : Word) : Option FpRes :=
  if 1 < rvF7 w % 4 then none
  else
    let f := if rvF7 w % 4 = 0 then fmtS else fmtD
    let p := fpGet r f (rvRs1 w)
    let q := fpGet r f (rvRs2 w)
    let a := f.unpack p
    let b := f.unpack q
    let f3 := rvF3 w
    let k := rvRs2 w
    let x := r.get (rvRs1 w)
    let toF := fun g : Nat → FRes => (fpRm r f3).map fun m => ((false, fpBox f (g m).1, (g m).2) : FpRes)
    let toX := fun v : FRes => some ((true, BitVec.ofNat 64 v.1, v.2) : FpRes)
    match rvF7 w / 4 with
    | 0 => toF fun m => f.addV m a b
    | 1 => toF fun m => f.addV m a b.flip
    | 2 => toF fun m => f.mulR m a b
    | 3 => toF fun m => f.divR m a b
    | 11 => if k ≠ 0 then none else toF fun m => f.sqrtR m a
    | 4 => if f3 ≤ 2 then some (false, fpBox f (f.sgnj f3 p q), 0) else none
    | 5 => if f3 ≤ 1 then some (false, fpBox f (f.minmax (f3 = 1) p q).1, (f.minmax (f3 = 1) p q).2) else none
    | 8 =>
      if f.mb = 23 && k = 1 then toF fun m => f.ofV m (fmtD.unpack (fpGet r fmtD (rvRs1 w)))
      else if f.mb = 52 && k = 0 then toF fun m => f.ofV m (fmtS.unpack (fpGet r fmtS (rvRs1 w)))
      else none
    | 20 => if f3 ≤ 2 then toX (cmpR f3 a b) else none
    | 24 =>
      if 4 ≤ k then none
      else (fpRm r f3).map fun m =>
        let n := if k < 2 then 32 else 64
        let v := toIntR m n (k % 2 = 0) a
        (true, BitVec.ofInt 64 (toInt n v.1), v.2)
    | 26 =>
      if 4 ≤ k then none
      else
        let i : Int := match k with
          | 0 => (x.setWidth 32 : Word).toInt
          | 1 => (x.setWidth 32 : Word).toNat
          | 2 => x.toInt
          | _ => x.toNat
        toF fun m => f.ofIntR m i
    | 28 =>
      if k ≠ 0 then none
      else if f3 = 1 then toX (f.fclass p, 0)
      else if f3 = 0 then
        some (true, if f.mb = 52 then r.f.get (rvRs1 w) else ((r.f.get (rvRs1 w)).setWidth 32 : Word).signExtend 64, 0)
      else none
    | 30 => if k = 0 && f3 = 0 then some (false, fpBox f (x.toNat % 2 ^ f.width), 0) else none
    | _ => none

/-- The fused operations: FMADD, FMSUB, FNMSUB, FNMADD. -/
def fpFused (r : Hart) (w : Word) : Option FpRes :=
  let k := fld w 25 2
  if 1 < k then none
  else
    let f := if k = 0 then fmtS else fmtD
    let v := fun i => f.unpack (fpGet r f i)
    let a := v (rvRs1 w)
    let c := v (fld w 27 5)
    let neg := fld w 3 1 = 1
    let sub := fld w 2 1 = 1
    (fpRm r (rvF3 w)).map fun m =>
      let z := f.fmaR m (if neg then a.flip else a) (v (rvRs2 w)) (if sub then c.flip else c)
      (false, fpBox f z.1, z.2)

/-- The result of a floating-point operation taken: register, flags, FS. -/
def rvFp (h : Nat) (w : Word) (next : Dword) (s : State) (comp : Hart → Word → Option FpRes) : RvOut :=
  let r := s.hart h
  if !fpOn h r then rvIllegal s
  else match comp r w with
    | none => rvIllegal s
    | some (x, v, fl) =>
      .done (s.updHart h fun r =>
        let r1 := if x then r.put (rvRd w) v else fsDirty { r with f := r.f.set (rvRd w) v }
        let r2 := if fl = 0 then r1 else fsDirty { r1 with csr := r1.csr.set 3 (r1.csr.get 3 ||| BitVec.ofNat 64 fl) }
        { r2 with pc := next })

/-- FLW and FLD. -/
def rvLoadFp (h : Nat) (w : Word) (next : Dword) (s : State) : RvOut :=
  let r := s.hart h
  let f := if rvF3 w = 2 then fmtS else fmtD
  if !fpOn h r || !(rvF3 w = 2 || rvF3 w = 3) then rvIllegal s
  else rvLoadAt h (2 ^ rvF3 w) (r.get (rvRs1 w) + immI w) s fun v s1 =>
    .done (s1.updHart h fun r => { fsDirty { r with f := r.f.set (rvRd w) (fpBox f v) } with pc := next })

/-- FSW and FSD. -/
def rvStoreFp (h : Nat) (w : Word) (next : Dword) (s : State) : RvOut :=
  let r := s.hart h
  if !fpOn h r || !(rvF3 w = 2 || rvF3 w = 3) then rvIllegal s
  else rvStoreAt h (2 ^ rvF3 w) (r.get (rvRs1 w) + immS w) (r.f.get (rvRs2 w)) next s

/-! ### Debug mode (R103, R396; published) -/

/-- Debug reaches a hart. -/
def State.debugs (s : State) (h : Nat) : Bool :=
  let f := s.fuses.dbg
  !f.getLsbD 4 &&
    (if h < 4 then !f.getLsbD 0 else if h ≤ 12 then !f.getLsbD 1 else if h = 13 then s.tackDebug else false)

/-- The hart halts: dcsr keeps the cause and the mode, dpc is the pc. -/
def enterDebug (h cause : Nat) (s : State) : State :=
  let p := (s.hart h).priv
  s.updCore h fun r =>
    { r with halted := true, csr := r.csr.set 0x7B0 (dput (dput (r.csr.get 0x7B0) 6 3 cause) 0 2 p) }

/-- dcsr.ebreakm, ebreaks or ebreaku of the mode: ebreak halts the hart. -/
def State.ebreakHalts (s : State) (h : Nat) : Bool :=
  let d := (s.core h).csr.get 0x7B0
  s.debugs h && (match (s.hart h).priv with
    | 3 => dbit d 15
    | 1 => dbit d 13
    | _ => dbit d 12)

/-- dcsr.step: the hart that ran halts again behind one instruction. -/
def stepHalt (h : Nat) (s t : State) : State :=
  if s.hartRuns h && s.debugs h && dbit ((s.core h).csr.get 0x7B0) 2 && !(t.core h).halted then enterDebug h 4 t else t

/-! ### System instructions -/

/-- A CSR instruction: the register and the pc first, then the CSR, so that SES_DONE ends an instruction that has
retired. -/
def rvCsr (h : Nat) (w : Word) (next : Dword) (s : State) : RvOut :=
  let r := s.hart h
  let c := fld w 20 12
  let f := rvF3 w
  let v := if f < 4 then r.get (rvRs1 w) else BitVec.ofNat 64 (rvRs1 w)
  let writes := f % 4 = 1 || rvRs1 w ≠ 0
  if !csrExists h c || !csrAllowed h r c || (writes && c / 1024 = 3) then rvIllegal s
  else
    let old := s.csrRead h c
    let base := if c = 0x344 then dmix 0x200 old (r.csr.get c) else old
    let new := match f % 4 with
      | 1 => v
      | 2 => base ||| v
      | _ => base &&& ~~~v
    match rvRet h (rvRd w) old next s with
    | .done s1 => .done (if writes then csrWrite h c new s1 else s1)
    | o => o

/-- WFI: the hart sleeps unless an enabled interrupt is pending; a core with no interrupt goes on. -/
def rvWfi (h : Nat) (next : Dword) (s : State) : RvOut :=
  let r := s.hart h
  let tw := dbit (r.csr.get 0x300) 21
  if (r.priv < 3 && tw) || (r.priv = 0 && isCantle h) then rvIllegal s
  else
    let sleeps := (timerOf h).isSome && s.mip h &&& r.csr.get 0x304 = 0
    .done (s.updHart h fun r => { r with pc := next, wfi := sleeps })

/-- SYSTEM. -/
def rvSystem (h : Nat) (w : Word) (next : Dword) (s : State) : RvOut :=
  let r := s.hart h
  let st := r.csr.get 0x300
  if rvF3 w = 4 then rvIllegal s
  else if rvF3 w ≠ 0 then rvCsr h w next s
  else if w = 0x00000073 then .exc (8 + r.priv) 0 s
  else if w = 0x00100073 then (if s.ebreakHalts h then .done (enterDebug h 1 s) else .exc 3 r.pc s)
  else if w = 0x30200073 then (if r.priv = 3 then .done (s.updHart h (mretTo h)) else rvIllegal s)
  else if w = 0x10200073 then
    if isCantle h && decide (1 ≤ r.priv) && !(r.priv = 1 && dbit st 22) then .done (s.updHart h sretTo) else rvIllegal s
  else if w = 0x10500073 then rvWfi h next s
  else if rvF7 w = 9 && rvRd w = 0 && isCantle h && decide (1 ≤ r.priv) && !(r.priv = 1 && dbit st 20) then
    rvRet h 0 0 next s
  else rvIllegal s

/-! ### One instruction -/

/-- The instruction of a 32-bit word; `next` is the address behind it. -/
def rvExec (h : Nat) (w : Word) (next : Dword) (s : State) : RvOut :=
  let r := s.hart h
  match rvOp w with
  | 0x03 => rvLoad h w next s
  | 0x07 => rvLoadFp h w next s
  | 0x0F => if rvF3 w = 0 || (rvF3 w = 1 && isCantle h) then rvRet h 0 0 next s else rvIllegal s
  | 0x13 => rvOpImm h w next s
  | 0x17 => rvRet h (rvRd w) (r.pc + immU w) next s
  | 0x1B => rvOpImm32 h w next s
  | 0x23 => rvStore h w next s
  | 0x27 => rvStoreFp h w next s
  | 0x2F => rvAmo h w next s
  | 0x33 => rvOpReg h w next s
  | 0x37 => rvRet h (rvRd w) (immU w) next s
  | 0x3B => rvOpReg32 h w next s
  | 0x43 => rvFp h w next s fpFused
  | 0x47 => rvFp h w next s fpFused
  | 0x4B => rvFp h w next s fpFused
  | 0x4F => rvFp h w next s fpFused
  | 0x53 => rvFp h w next s fpCalc
  | 0x63 => rvBranchTo h w next s
  | 0x67 =>
    if rvF3 w = 0 then rvRet h (rvRd w) next (rvFit h ((r.get (rvRs1 w) + immI w) &&& ~~~1#64)) s else rvIllegal s
  | 0x6F => rvRet h (rvRd w) next (rvFit h (r.pc + immJ w)) s
  | 0x73 => rvSystem h w next s
  | _ => rvIllegal s

/-- Clock cycles of one instruction: at least one, the rest a free value. -/
def State.cycles (s : State) : Nat := 1 + Config.freeNat s.fresh

/-- Cycles pass: mcycle counts them, and a running context's budget loses them (R202). -/
def passCycles (h : Nat) (s : State) : State :=
  let n := s.cycles
  let s1 := s.used.updCore h fun r => { r with csr := r.csr.set 0xB00 (r.csr.get 0xB00 + BitVec.ofNat 64 n) }
  match s1.hartSlot h with
  | some k => countEvents 4 (8 * (k / 32) + 4) n (s1.updCtx k fun c => { c with left := c.left - n })
  | none => s1

/-- The instruction writes minstret itself. -/
def writesInstret (w : Word) : Bool :=
  rvOp w = 0x73 && rvF3 w % 4 ≠ 0 && (fld w 20 12 = 0xB02 || fld w 20 12 = 0xB82) && (rvF3 w % 4 = 1 || rvRs1 w ≠ 0)

/-- An instruction has retired. -/
def retire (h : Nat) (w : Word) (s : State) : State :=
  if writesInstret w then s
  else s.updCore h fun r => { r with csr := r.csr.set 0xB02 (r.csr.get 0xB02 + 1) }

/-- The value mtval takes: where the published specification leaves two, a free value chooses. -/
def trapVal (cause : Nat) (w : Word) (val : Dword) (s : State) : Dword :=
  if cause = 2 then (if s.freeBits 1 = 1 then w.setWidth 64 else 0)
  else if cause = 3 then (if s.freeBits 1 = 1 then val else 0)
  else val

/-- An exception: a Rein context is trapped by the hardware, with cause 04h for a bus error (R105, R203); another
hart enters its handler. -/
def rvException (h cause : Nat) (w : Word) (val : Dword) (s : State) : State :=
  match hartEngine h with
  | some e =>
    if cause = 1 || cause = 5 || cause = 7 then ctxTrap e 4 (val.setWidth 32) s
    else ctxTrap e 2 (BitVec.ofNat 32 cause) s
  | none => hartTrap h cause (trapVal cause w val s) s.used

/-- A fetch of `n` bytes that lie in one page: the cause of its exception, or none. -/
def State.fetchPart (s : State) (h : Nat) (va : Dword) (n : Nat) : Option Nat :=
  match s.translate h .fetch va with
  | .error c => some c
  | .ok a => if s.fetchOk h a n then none else some 1

/-- A fetch of an instruction of `n` bytes: the cause and the address of its exception. One that crosses a page is
translated and checked in both pages. -/
def State.fetchFault (s : State) (h : Nat) (pc : Dword) (n : Nat) : Option (Nat × Dword) :=
  if pc.toNat % 4096 + n ≤ 4096 then (s.fetchPart h pc n).map fun c => (c, pc)
  else match s.fetchPart h pc 2 with
    | some c => some (c, pc)
    | none => (s.fetchPart h (rvFit h (pc + 2)) (n - 2)).map fun c => (c, rvFit h (pc + 2))

/-- The instruction fetched at the pc: the fetch's own exceptions, then its effect. -/
def rvOutcome (h : Nat) (w : Word) (s : State) : RvOut :=
  let pc := (s.hart h).pc
  let x := rvExpand (isCantle h) w
  match s.fetchFault h pc x.2 with
  | some (c, v) => .exc c v s
  | none =>
    match x.1 with
    | none => rvIllegal s
    | some i => rvExec h i (rvFit h (pc + BitVec.ofNat 64 x.2)) s

/-- The memory behind a hart's accesses, in the order of sources 8 to 15 (R107): the Cantle caches, Rein local memory
outside contexts, Stitcher local, Tack-room local. -/
def hartMemory (h : Nat) : Nat := if h < 4 then 1 else if h = 4 then 3 else if h = 13 then 4 else 2

/-- The ECC outcome of an instruction's accesses (01 R36). The Bridle's local memory has neither a source nor a count. -/
def hartEcc (h : Nat) (ecc : Ecc) (s : State) : State := if h = 14 then s else eccReport (hartMemory h) ecc s

/-- A load whose data has an uncorrectable error: the manual gives no data, so its destination is free. -/
def eccPoison (h : Nat) (i : Word) (s : State) : State :=
  if rvOp i = 0x03 || rvOp i = 0x2F then (s.updHart h fun r => r.put (rvRd i) (rvFit h (s.freeBits 64))).used
  else if rvOp i = 0x07 then (s.updHart h fun r => { r with f := r.f.set (rvRd i) (s.freeBits 64) }).used
  else s

/-- The instruction fetched at the pc runs; an uncorrectable error in a context's bank or memory traps it (R203). -/
def rvFetched (h : Nat) (w : Word) (ecc : Ecc) (s : State) : State :=
  match ecc, hartEngine h with
  | .failed, some e => ctxTrap e 3 (s.ctxMtval e) s
  | _, _ =>
    let i := (rvExpand (isCantle h) w).1.getD 0
    match rvOutcome h w s with
    | .done t => hartEcc h ecc (retire h i (if ecc = .failed then eccPoison h i t else t))
    | .exc c v t => hartEcc h ecc (rvException h c w v t)

/-- A pending enabled interrupt ends a WFI; a gated Buckle takes over its sleep latches (R113). -/
def rvWake (h : Nat) (s : State) : State :=
  if (s.core h).wfi && s.mip h &&& (s.hart h).csr.get 0x304 ≠ 0 then
    (if s.gated then transferSleep s else s).updCore h fun r => { r with wfi := false }
  else s

/-- One instruction of a hart that runs; an interrupt due is taken in its place. -/
def rvStep (h : Nat) (w : Word) (ecc : Ecc) (s : State) : State :=
  if !s.hartRuns h then s
  else
    let s1 := rvWake h s
    if (s1.core h).wfi then s1
    else match s1.interrupt h with
      | some (i, sm) => takeInterrupt h i sm s1
      | none => rvFetched h w ecc (passCycles h s1)

/-- INSTRUCTION (R99), with the ECC outcome of its accesses (01 R36). -/
def execInstruction (hart : Fin 15) (w : Fetched) (s : State) : Res :=
  .next (stepHalt hart s (rvStep hart w.word w.ecc s))

/-! ### Timer (R101) -/

/-- The hart of a compare register. -/
def timerHart (i : Nat) : Nat := if i < 5 then i else 13

/-- mip.MTIP of a hart follows HT ≥ CMP; where it is enabled it ends a WFI. -/
def timerMatch (i : Nat) (s : State) : State :=
  let due := decide (s.app.clk.mtimecmp.get i ≤ s.ht)
  let h := timerHart i
  rvWake h (s.updCore h fun r => { r with csr := r.csr.set 0x344 (dput (r.csr.get 0x344) 7 1 (b2n due)) })

/-- TIMER_COMPARE_MATCH (R101). -/
def execTimerCompareMatch (h : Fin 6) (s : State) : Res := .next (timerMatch h s)

end Sys2Proof.Machine
end

