-- ==== Sys2Proof/Machine/Debug.lean ====
section
/-!
DEFINITION. The debug module behind the JTAG transport module (05 R103, R105; 16 R396): halting and resuming, abstract
register access, the program buffer, system-bus access through Harness port 22, and the registers that the published
debug specification gives the module (PRESUMED, log 109).
-/
set_option Elab.async false
namespace Sys2Proof.Machine

/-! ### Registers of a halted hart -/

/-- A register of the abstract commands exists: CSRs, x0 to x31, f0 to f31. -/
def debugHas (h n : Nat) : Bool :=
  within 0x7B0 n 0x7B3 || (decide (n < 0x1000) && csrExists h n) || within 0x1000 n 0x101F ||
    (isCantle h && within 0x1020 n 0x103F)

/-- Its value; dpc is the pc of the halted hart. -/
def State.debugGet (s : State) (h n : Nat) : Dword :=
  if n = 0x7B1 then (s.hart h).pc
  else if n = 0x7B0 then (s.core h).csr.get 0x7B0 ||| 0x40000000
  else if within 0x7B2 n 0x7B3 then (s.core h).csr.get n
  else if n < 0x1000 then s.csrRead h n
  else if n < 0x1020 then (s.hart h).get (n - 0x1000)
  else (s.hart h).f.get (n - 0x1020)

/-- Writing it; of dcsr the ebreak bits, step and the mode are written. -/
def debugPut (h n : Nat) (v : Dword) (s : State) : State :=
  if n = 0x7B1 then s.updHart h fun r => { r with pc := rvFit h (v &&& ~~~1#64) }
  else if n = 0x7B0 then s.updCore h fun r => { r with csr := r.csr.set n (dmix 0xB007 (r.csr.get n) v) }
  else if within 0x7B2 n 0x7B3 then s.updCore h fun r => { r with csr := r.csr.set n (rvFit h v) }
  else if n < 0x1000 then (if n / 1024 = 3 then s else csrWrite h n v s)
  else if n < 0x1020 then s.updHart h fun r => r.put (n - 0x1000) (rvFit h v)
  else s.updHart h fun r => { r with f := r.f.set (n - 0x1020) v }

/-- Debug reaches the hart, and it is halted. -/
def State.debugHalted (s : State) (h : Nat) : Bool := s.debugs h && (s.core h).halted

/-- A halt request (cause 3 in dcsr). -/
def debugHalt (h : Nat) (s : State) : State :=
  if s.debugs h && !(s.core h).halted then enterDebug h 3 s else s

/-- Resuming: the hart goes on at dpc, in the mode of dcsr. -/
def debugResume (h : Nat) (s : State) : State :=
  if s.debugHalted h then
    let p := dfld ((s.core h).csr.get 0x7B0) 0 2
    let s1 := s.updCore h fun r => { r with halted := false }
    { (if hasU h then s1.updHart h fun r => { r with priv := p } else s1) with app.clk.resumeAck := true }
  else s

/-! ### The program buffer -/

/-- The instruction word at halfword `i` of the buffer. -/
def State.bufWord (s : State) (i : Nat) : Word :=
  let half := fun k : Nat => fld (s.app.clk.progBuf.get (k / 2)) (16 * (k % 2)) 16
  BitVec.ofNat 32 (half i + 65536 * (if i + 1 < 16 then half (i + 1) else 0))

/-- The buffer runs from halfword `i` on, in M mode, until ebreak or its end; false at an exception. -/
def bufRun (h : Nat) : Nat → Nat → State → Bool × State
  | 0, _, s => (true, s)
  | n + 1, i, s =>
    let x := rvExpand (isCantle h) (s.bufWord i)
    if 16 ≤ i || x.1 = some 0x00100073 then (true, s)
    else match x.1 with
      | none => (false, s)
      | some w =>
        match rvExec h w (s.hart h).pc s with
        | .done t => bufRun h n (i + x.2 / 2) t
        | .exc _ _ t => (false, t)

/-- Executing the program buffer on a halted hart: dpc and the mode stay; an exception sets cmderr 3. -/
def runBuffer (h : Nat) (s : State) : State :=
  let r := s.hart h
  let t := bufRun h 16 0 (s.updHart h fun x => { x with priv := 3 })
  let s1 := t.2.updHart h fun x => { x with pc := r.pc, priv := r.priv, wfi := r.wfi }
  if t.1 then s1 else { s1 with app.clk.cmdErr := 3 }

/-! ### System bus -/

/-- A read of the system bus. -/
def debugBusRead (a : Word) (s : State) : State :=
  let r := busLoad 22 a.toNat 4 s
  { r.1 with app.clk.dbgErr := r.2.isNone, app.clk.dbgData := BitVec.ofNat 64 (r.2.getD 0) }

/-- A write of the system bus. -/
def debugBusWrite (a v : Word) (s : State) : State :=
  let r := busStore 22 a.toNat 4 v.toNat s
  { r.1 with app.clk.dbgErr := !r.2 }

/-- Behind an access with autoincrement the address moves on. -/
def sbNext (s : State) : State :=
  if s.app.clk.sbCtl.getLsbD 1 then { s with app.clk.sbAddr := s.app.clk.sbAddr + 4 } else s

/-- A read started by sbaddress0 or sbdata0; none while an error stands. -/
def sbFetch (s : State) : State :=
  if s.app.clk.dbgErr then s
  else
    let r := busLoad 22 s.app.clk.sbAddr.toNat 4 s
    sbNext { r.1 with app.clk.dbgErr := r.2.isNone, app.clk.sbData := BitVec.ofNat 32 (r.2.getD 0) }

/-! ### The registers of the module -/

/-- An abstract command that cannot run: its cmderr. -/
def cmdFail (e : Nat) (s : State) : State := { s with app.clk.cmdErr := e }

/-- A register transfer, and where asked the program buffer behind it. -/
def abstractReg (h : Nat) (v : Word) (s : State) : State :=
  let n := fld v 0 16
  let wide := fld v 20 3 = 3
  let s1 :=
    if !bit v 17 then s
    else if bit v 16 then debugPut h n (if wide then s.app.clk.dbgData else (s.app.clk.dbgData.setWidth 32).setWidth 64) s
    else { s with app.clk.dbgData := if wide then s.debugGet h n else ((s.debugGet h n).setWidth 32).setWidth 64 }
  if bit v 18 then runBuffer h s1 else s1

/-- A write of command. -/
def abstractCmd (v : Word) (s : State) : State :=
  let h := s.app.clk.hartSel
  if s.app.clk.cmdErr ≠ 0 then s
  else if fld v 24 8 ≠ 0 || (bit v 17 && !(fld v 20 3 = 2 || (fld v 20 3 = 3 && isCantle h))) then cmdFail 2 s
  else if !s.debugHalted h then cmdFail 4 s
  else if bit v 17 && !debugHas h (fld v 0 16) then cmdFail 3 s
  else abstractReg h v s

/-- A write of dmcontrol: dmactive 0 resets the module. -/
def dmControl (v : Word) (s : State) : State :=
  if !bit v 0 then
    { s with app.clk.dmActive := false, app.clk.hartSel := 0, app.clk.resumeAck := false, app.clk.cmdErr := 0,
             app.clk.dbgData := 0, app.clk.progBuf := ⟨0, []⟩, app.clk.sbCtl := 0b100100, app.clk.dbgErr := false }
  else
    let h := fld v 16 10
    let s1 := { s with app.clk.dmActive := true, app.clk.hartSel := h }
    if 14 ≤ h then s1
    else if bit v 31 then debugHalt h s1
    else if bit v 30 then debugResume h { s1 with app.clk.resumeAck := false }
    else s1

/-- dmstatus of the selected hart; one that debug cannot reach reads as not existent. -/
def State.dmStatus (s : State) : Word :=
  let h := s.app.clk.hartSel
  let has := s.debugs h
  let halt := has && (s.core h).halted
  let both := fun (b : Bool) (i : Nat) => [(b2n b, i), (b2n b, i + 1)]
  pack ([(1, 22), (1, 7), (3, 0)] ++ both halt 8 ++ both (has && !halt) 10 ++ both (!has) 14 ++
    both (has && s.app.clk.resumeAck) 16)

/-- A register of the module read. -/
def State.dmiWord (s : State) (a : Nat) : Word :=
  let c := s.app.clk
  if within 0x20 a 0x27 then c.progBuf.get (a - 0x20)
  else match a with
    | 0x04 => c.dbgData.setWidth 32
    | 0x05 => (c.dbgData >>> 32).setWidth 32
    | 0x10 => pack [(c.hartSel, 16), (b2n c.dmActive, 0)]
    | 0x11 => s.dmStatus
    | 0x16 => pack [(8, 24), (c.cmdErr, 8), (2, 0)]
    | 0x38 => pack [(1, 29), (c.sbCtl.toNat, 15), (if c.dbgErr then 2 else 0, 12), (32, 5), (1, 2)]
    | 0x39 => c.sbAddr
    | 0x3C => c.sbData
    | _ => 0

/-- A read through the transport module. -/
def dmiRead (a : Nat) (s : State) : State :=
  let s1 := { s with app.clk.dmiData := s.dmiWord a }
  if a = 0x3C && s.app.clk.sbCtl.getLsbD 0 then sbFetch s1 else s1

/-- A write through the transport module. -/
def dmiWrite (a : Nat) (v : Word) (s : State) : State :=
  let c := s.app.clk
  if a = 0x10 then dmControl v s
  else if !c.dmActive then s
  else if within 0x20 a 0x27 then { s with app.clk.progBuf := c.progBuf.set (a - 0x20) v }
  else match a with
    | 0x04 => { s with app.clk.dbgData := dput c.dbgData 0 32 v.toNat }
    | 0x05 => { s with app.clk.dbgData := dput c.dbgData 32 32 v.toNat }
    | 0x16 => { s with app.clk.cmdErr := c.cmdErr &&& (7 - fld v 8 3) }
    | 0x17 => abstractCmd v s
    | 0x38 => { s with app.clk.sbCtl := BitVec.ofNat 6 (fld v 15 6), app.clk.dbgErr := c.dbgErr && fld v 12 3 &&& 2 = 0 }
    | 0x39 =>
      let s1 := { s with app.clk.sbAddr := v }
      if c.sbCtl.getLsbD 5 then sbFetch s1 else s1
    | 0x3C =>
      if c.dbgErr then s
      else
        let r := busStore 22 c.sbAddr.toNat 4 v.toNat { s with app.clk.sbData := v }
        sbNext { r.1 with app.clk.dbgErr := !r.2 }
    | _ => s

/-! ### The commands -/

/-- What the debug module does. -/
def debugAccess (op : DebugOp) (s : State) : State :=
  match op with
  | .halt h => debugHalt h s
  | .resume h => debugResume h s
  | .readReg h n =>
    if s.debugs h && (s.core h).halted then { s with app.clk.dbgData := (s.hart h).get n } else s
  | .writeReg h n v =>
    if s.debugs h && (s.core h).halted then s.updHart h fun r => r.put n (rvFit h v) else s
  | .readCsr h c => if s.debugHalted h && debugHas h c.toNat then { s with app.clk.dbgData := s.debugGet h c.toNat } else s
  | .writeCsr h c v => if s.debugHalted h && debugHas h c.toNat then debugPut h c.toNat v s else s
  | .readF h n => if s.debugHalted h then { s with app.clk.dbgData := (s.hart h).f.get n } else s
  | .writeF h n v => if s.debugHalted h then s.updHart h fun r => { r with f := r.f.set n v } else s
  | .runBuf h => if s.debugHalted h then runBuffer h s else s
  | .readBus a => if s.fuses.dbg.getLsbD 4 then s else debugBusRead a s
  | .writeBus a v => if s.fuses.dbg.getLsbD 4 then s else debugBusWrite a v s
  | .progBuf i v =>
    if s.fuses.dbg.getLsbD 4 then s else { s with app.clk.progBuf := s.app.clk.progBuf.set i v }
  | .dmiRead a => if s.fuses.dbg.getLsbD 4 then s else dmiRead a.toNat s
  | .dmiWrite a v => if s.fuses.dbg.getLsbD 4 then s else dmiWrite a.toNat v s

/-- DEBUG_ACCESS (R103). -/
def execDebugAccess (op : DebugOp) (s : State) : Res := .next (debugAccess op s)

end Sys2Proof.Machine
end

