-- ==== Sys2Proof/Machine/Latigo.lean ====
section
/-!
DEFINITION. The Latigo transport (06 R139 to R143): connections with their role, requests, subscriptions, closing.
-/
set_option Elab.async false
namespace Sys2Proof.Machine

/-! ### Frames and connections -/

/-- The 28 bytes of a frame's header (R141). -/
def LatFrame.header (f : LatFrame) : List Byte :=
  [1#8] ++ toLE 1 f.op ++ toLE 2 (b2n f.reply + 2 * b2n f.coalesced) ++ toLE 4 f.id.toNat ++ toLE 2 f.idx ++ toLE 1 f.sub ++
    toLE 1 (statusCode f.status) ++ toLE 4 f.handle ++ toLE 8 f.serial ++ toLE 2 f.payload.length ++ toLE 2 0

/-- A frame on the wire. -/
def LatFrame.bytes (f : LatFrame) : List Byte := f.header ++ f.payload

/-- A frame to the host (R141); the last 64 are kept. While the link of the connection's port is down, its transmit request
completes with TIMEOUT (04 R95, R96). -/
def latSend (f : LatFrame) (s : State) : State :=
  match s.conn f.conn with
  | none => s
  | some x =>
    if s.app.clk.ethUp.getLsbD x.port then { s with app.server.lat := (f :: s.app.server.lat).take 64 }
    else deliveryTimeout 11 s

/-- Connections open across both ports. -/
def State.connCount (s : State) : Nat := ((List.range 16).filter fun c => (s.conn c).isSome).length

/-- A connection ends with its subscriptions (R143). -/
def latClose (c : Nat) (s : State) : State := { s with app.server.conn := s.app.server.conn.set c none }

/-! ### The handshake (R139, R140) -/

/-- The role of a trust anchor, by its code in the attribute word (16 R406). -/
def anchorClient (k : KeySlot) : Role :=
  match k.role with
  | 0 => .pub | 1 => .customer | 2 => .operator | 3 => .service | 4 => .verifier | _ => .manufacturer

/-- A slot with an anchor that fixes a role: class 1 and in use; an anchor of Manufacturer only while that role is
present (16 R406, R409). -/
def State.roleAnchor (s : State) (i : Nat) : Bool :=
  let k := s.slot i
  k.type = 10 && k.cls = 1 && !k.orphan && !(anchorClient k = .manufacturer && s.fuses.roleOff.getLsbD 5)

/-- The anchor that fixes the connection's role: the one with the lowest slot number (R140). -/
def State.roleAnchorOf (s : State) (l : List (Fin 128)) : Option Nat :=
  (List.range 128).find? fun i => l.any (fun a => a.val = i) && s.roleAnchor i

/-- The Tack room runs and holds the device identity key in slot 0, with which the server authenticates (R139; 16 R405). -/
def State.serverKey (s : State) : Bool :=
  decide (2 ≤ s.app.tack.st) && !(s.slot 0).isEmpty && !(s.slot 0).orphan

/-- The handshake succeeds (R139): a suite offered, a certificate shown and valid now. -/
def State.tlsOk (s : State) (h : TlsHello) : Bool :=
  h.suiteOk && h.clientCert && (!h.tls12 || s.onum 0x2030 4 = 1) && decide (s.die.legal.lt < h.expiryMs) && s.serverKey

/-- The port's link is up in a mode that is not off (R146). -/
def State.ethOn (s : State) (port : Nat) : Bool := s.app.server.ethMode.get port ≠ 0 && s.app.clk.ethUp.getLsbD port

/-- A TCP connection can be made: the server runs, Latigo is enabled, the port is on and its link up. -/
def State.latUp (s : State) (port : Nat) : Bool :=
  s.app.server.ready && s.onum 0x2030 1 = 1 && s.ethOn port && !s.inReset

/-- LATIGO_CONNECT (R139, R140): a TCP connection to the port of 2030h.02; one to another port is reset, since nothing listens
there. -/
def execLatigoConnect (h : TlsHello) (s : State) : Res :=
  .next (
    if !s.latUp h.port then s
    else if h.tcpPort.toNat ≠ s.onum 0x2030 2 then { s with app.server.latOpen := .reset }
    else match (List.range 16).find? (fun c => (s.conn c).isNone) with
      | none => { s with app.server.latOpen := .reset }
      | some c =>
        if s.onum 0x2030 3 ≤ s.connCount then { s with app.server.latOpen := .reset }
        else match s.roleAnchorOf h.anchors with
          | none => { s with app.server.latOpen := .alert }
          | some i =>
            if s.tlsOk h then
              let x : Conn :=
                { port := h.port, role := anchorClient (s.slot i), expiry := h.expiryMs, name := h.commonName,
                  idle := s.onum 0x2030 5, heard := s.ht }
              { s with app.server.conn := s.app.server.conn.set c (some x), app.server.latOpen := .opened }
            else { s with app.server.latOpen := .alert })

/-! ### Requests (R142) -/

/-- Who asks over a connection. -/
def latAsker (c : Nat) (x : Conn) (r : LatigoReq) : Asker :=
  { via := .latigo c, role := x.role, handle := r.handle.toNat, serial := r.serial.toNat }

/-- A reply to a request. -/
def latReply (c op : Nat) (r : LatigoReq) (st : Status) (d : List Byte) (s : State) : State :=
  latSend { conn := c, op := op, reply := true, id := r.id, idx := r.idx.toNat, sub := r.sub.toNat, status := st,
            handle := r.handle.toNat, serial := r.serial.toNat, payload := d } s

/-- What is done for an open connection; nothing for a closed one. -/
def onConn (c : Nat) (f : Conn → State → State) (s : State) : State :=
  match s.conn c with
  | none => s
  | some x => f x s

/-- What a frame of the host on an open connection does; its time is kept (R143). -/
def onFrame (c : Nat) (f : Conn → State → State) (s : State) : State :=
  onConn c (fun x t => f x (t.updConn c fun z => { z with heard := t.ht })) s

/-- LATIGO_READ (R142). -/
def execLatigoRead (c : Fin 16) (r : LatigoReq) (s : State) : Res :=
  .next (onFrame c (fun x t =>
    let y := readRequest (latAsker c x r) r.idx.toNat r.sub.toNat t
    latReply c 1 r y.1 y.2.1 y.2.2) s)

/-- LATIGO_WRITE (R142). -/
def execLatigoWrite (c : Fin 16) (r : LatigoReq) (data : List Byte) (s : State) : Res :=
  .next (onFrame c (fun x t =>
    let y := writeRequest (latAsker c x r) r.idx.toNat r.sub.toNat data t
    latReply c 2 r y.1 [] y.2) s)

/-! ### Subscriptions (R142, R143) -/

/-- Subscriptions across all connections. -/
def State.subCount (s : State) : Nat := ((List.range 16).map fun c => ((s.conn c).map (·.subs.length)).getD 0).sum

/-- What a SUBSCRIBE is answered, given how the read went: an interval outside its range, then the limits. -/
def State.subStatus (s : State) (x : Conn) (st : Status) (interval : Nat) : Status :=
  if st ≠ .ok then st
  else if !within 100 interval 60000 then .range
  else if 256 ≤ x.subs.length || decide (1024 ≤ s.subCount) then .busy
  else .ok

/-- LATIGO_SUBSCRIBE (R142). -/
def execLatigoSubscribe (c : Fin 16) (r : LatigoReq) (interval : Nat) (s : State) : Res :=
  .next (onFrame c (fun x t =>
    let y := serveRead (latAsker c x r) r.idx.toNat r.sub.toNat t
    let st := t.subStatus x y.1 interval
    let sub : LatSub := { id := r.id, idx := r.idx.toNat, sub := r.sub.toNat, handle := r.handle.toNat,
                          serial := r.serial.toNat, interval := interval, value := y.2.1 }
    let t1 := answered (.latigo c) st y.2.2
    if st = .ok then
      latReply c 3 r st y.2.1 (t1.updConn c fun z => { z with subs := z.subs.filter (·.id ≠ r.id) ++ [sub] })
    else latReply c 3 r st [] t1) s)

/-- A reply that names no entry. -/
def latPlain (c op : Nat) (id : Word) (st : Status) (s : State) : State :=
  latSend { conn := c, op := op, reply := true, id := id, status := st } s

/-- LATIGO_UNSUBSCRIBE (R142). The status for an identifier of no subscription is not given: a free value. -/
def execLatigoUnsubscribe (c : Fin 16) (id : Word) (s : State) : Res :=
  .next (onFrame c (fun x t =>
    if x.subs.any (·.id = id) then
      latPlain c 4 id .ok (answered (.latigo c) .ok (t.updConn c fun z => { z with subs := z.subs.filter (·.id ≠ id) }))
    else
      let st := t.freeStatus
      latPlain c 4 id st (answered (.latigo c) st t.used)) s)

/-- LATIGO_KEEPALIVE (R142). -/
def execLatigoKeepalive (c : Fin 16) (id : Word) (s : State) : Res :=
  .next (onFrame c (fun _ t => latPlain c 6 id .ok (answered (.latigo c) .ok t)) s)

/-- Changing a subscription. -/
def State.updSub (s : State) (c : Nat) (id : Word) (f : LatSub → LatSub) : State :=
  s.updConn c fun z => { z with subs := z.subs.map fun u => if u.id = id then f u else u }

/-- A NOTIFY goes out. -/
def latNotify (c : Nat) (u : LatSub) (st : Status) (co : Bool) (v : List Byte) (s : State) : State :=
  latSend { conn := c, op := 5, coalesced := co, id := u.id, idx := u.idx, sub := u.sub, status := st,
            handle := u.handle, serial := u.serial, payload := v } s

/-- The minimum interval since the last NOTIFY has run. -/
def State.intervalRun (s : State) (u : LatSub) : Bool :=
  match u.at_ with
  | none => true
  | some t => decide (t + u.interval * 1000000 ≤ s.ht)

/-- What a subscription sends for the value read now. -/
def notifyValue (c : Nat) (u : LatSub) (atEnd : Bool) (v : List Byte) (s : State) : State :=
  if !s.intervalRun u then s.updSub c u.id fun w => { w with due := w.due || (!atEnd && decide (v ≠ u.value)) }
  else if u.due && atEnd then
    latNotify c u .ok true v (s.updSub c u.id fun w => { w with value := v, at_ := some s.ht, due := false })
  else if v ≠ u.value then
    latNotify c u .ok false v (s.updSub c u.id fun w => { w with value := v, at_ := some s.ht, due := false })
  else s

/-- LATIGO_NOTIFY (R142). -/
def execLatigoNotify (c : Fin 16) (id : Word) (intervalEnd : Bool) (s : State) : Res :=
  .next (onConn c (fun x t =>
    match x.subs.find? (·.id = id) with
    | none => t
    | some u =>
      let a : Asker := { via := .latigo c, role := x.role, handle := u.handle, serial := u.serial }
      let y := serveRead a u.idx u.sub t
      match y.1 with
      | .stale => latNotify c u .stale false [] (t.updConn c fun z => { z with subs := z.subs.filter (·.id ≠ id) })
      | .ok => notifyValue c u intervalEnd y.2.1 y.2.2
      | _ => t) s)

/-! ### Closing (R140, R141, R143) -/

/-- The frame cannot be framed further: another version, more than 4096 bytes of payload, a reserved field not 0 (R141). -/
def badHead (h : LatHead) : Bool := h.version ≠ 1 || decide (4096 < h.len.toNat) || h.reserved ≠ 0

/-- Its operation code is none of R142; NOTIFY is sent by the server only. -/
def unknownOp (h : LatHead) : Bool := h.op = 0 || h.op = 5 || decide (6 < h.op.toNat)

/-- LATIGO_BAD_FRAME (R141, R142): a frame that cannot be framed further is answered with RANGE and closes the connection; one
with an operation code that R142 does not list is answered with RANGE. -/
def execLatigoBadFrame (c : Fin 16) (h : LatHead) (s : State) : Res :=
  .next (onFrame c (fun _ t =>
    if badHead h then latClose c (latPlain c h.op.toNat h.id .range t)
    else if unknownOp h then latPlain c h.op.toNat h.id .range (answered (.latigo c) .range t)
    else t) s)

/-- A connection has been quiet for the idle time it was opened with, s (R143). -/
def Conn.quiet (x : Conn) (now : Nat) : Bool := decide (x.heard + 1000000000 * x.idle ≤ now)

/-- LATIGO_IDLE_TIMEOUT (R143): no frame from the host for the idle time. -/
def execLatigoIdleTimeout (c : Fin 16) (s : State) : Res :=
  .next (onConn c (fun x t => if x.quiet t.ht then latClose c t else t) s)

/-- LATIGO_CERT_EXPIRY (R140): at the expiry time, measured in LT. -/
def execLatigoCertExpiry (c : Fin 16) (s : State) : Res :=
  .next (onConn c (fun x t => if x.expiry ≤ t.die.legal.lt then latClose c t else t) s)

/-- LATIGO_CLOSE (R143). -/
def execLatigoClose (c : Fin 16) (s : State) : Res := .next (latClose c s)

end Sys2Proof.Machine
end

