-- ==== Sys2Proof/Machine/Ports.lean ====
section
/-!
DEFINITION. Ethernet link and GPIO events (05 R107) and the monitors of the bounded queues (04 R96).
-/
set_option Elab.async false
namespace Sys2Proof.Machine

/-- The IPv4 configuration of a port as it is taken at a link up; what DHCP gives is free (06 R146). -/
def ipTaken (port : Nat) (s : State) : State :=
  let n := s.onum (0x2012 + port)
  if n 1 = 1 then
    let f := s.freeBits 96
    let w := fun i => (f.extractLsb' i 32).toNat
    { s.used with app.server.ip := s.app.server.ip.set port (1, w 0, w 32, w 64) }
  else { s with app.server.ip := s.app.server.ip.set port (n 1, n 2, n 3, n 4) }

/-- A port's link changes; frames on their way to the host when it drops complete with TIMEOUT at their next sending. A link
comes up again with its clock (03 R66). -/
def linkChange (port : Nat) (up : Bool) (s : State) : State :=
  raise (466 + 3 * port)
    { (if up then ipTaken port s else s) with
      app.clk.ethUp := putBit s.app.clk.ethUp port up,
      app.clk.ethClk := if up then putBit s.app.clk.ethClk port false else s.app.clk.ethClk }

/-- ETHERNET_LINK_CHANGE (05 R107): the link-change source of ETH0 is 466, of ETH1 469. A port in mode 0 is off and has no
link (06 R146). -/
def execEthernetLinkChange (port : Fin 2) (up : Bool) (s : State) : Res :=
  .next (if s.inReset || (up && s.app.server.ethMode.get port = 0) then s else linkChange port up s)

/-- GPIO_EDGE (05 R107): one source for eight pins, 488 to 491. -/
def execGpioEdge (n : Fin 32) (s : State) : Res := .next (raise (488 + n.val / 8) s)

/-- The oldest Skiver job in work, past its bound, completes with TIMEOUT; it leaves no output. -/
def skvTimeout (s : State) : State :=
  match s.app.veh.skv.jobs with
  | [] => s
  | j :: _ => skvDone j { status := .timeout, out := [], spill := [], errPos := 0, digests := [] } s

/-- The oldest request on the sealed link not answered completes with TIMEOUT (01 R32). -/
def sealedTimeout (s : State) : State :=
  match s.app.sl.outst with
  | [] => s
  | t :: r => { s with app.sl.outst := r, app.sl.timedOut := (t :: s.app.sl.timedOut).take 64 }

/-- The frame that waits longest on a field port is dropped (06 R138). -/
def canTimeout (s : State) : State :=
  ([0, 1] : List Nat).foldl (fun t x => t.updPort x fun p => { p with txq := p.txq.drop 1 }) s

/-- The oldest Girth request still queued is withdrawn; its requester reads STATE. -/
def girthTimeout (s : State) : State :=
  match ([0, 1, 2].filterMap fun c => (s.app.girth.queue.get c).head?).head? with
  | some r => girthWithdraw (fun g => g.ticket = r.ticket) s
  | none => s

/-- What the bound of queue `q` does to the request it monitors, in the row order of R95; the frame of a Green PHY
channel completes with PLC_TX_TIMEOUT. -/
def monitored (q : Nat) (s : State) : State :=
  if q = 1 then girthTimeout s
  else if q = 6 then { s with bridle.postSt := .timeout, bridle.fifo := s.bridle.fifo.drop 1 }
  else if q = 7 then sealedTimeout s
  else if q = 8 then skvTimeout s
  else if q = 12 then canTimeout s
  else s

/-- DELIVERY_TIMEOUT (04 R96). -/
def execDeliveryTimeout (q : Fin 14) (s : State) : Res :=
  .next (if s.inReset then s else deliveryTimeout q (monitored q s))

end Sys2Proof.Machine
end

