-- ==== Sys2Proof/Machine/Start.lean ====
section
/-!
DEFINITION. The start sequences of the control die (03 R71 to R73; 16 R402 to R404, R417): boot ROM, loader, Tack
room, Cantle image, sealed link, engines, the Bridle's load and release, heartbeat and the end of the safe state, Green
PHY, dictionary server, in the order of the tables. Pilot channels are started by their sessions (08 R180).
-/
set_option Elab.async false
namespace Sys2Proof.Machine

/-- The start stops, reported on UART0 with its step and status (R404). -/
def bootStop (step : Nat) (st : Status) (s : State) : State := { s with app.clk.bootStop := some (step, st) }

/-- The step of R72 that does what a step of R71 does. -/
def warmStep (n : Nat) : Nat :=
  match n with
  | 4 => 2 | 5 => 3 | 6 => 4 | 7 => 5 | 8 => 6 | 9 => 7 | 10 => 7 | _ => 8

/-- The step of R71 reached, shown as R72's number in a warm start. -/
def atStep (warm : Bool) (n : Nat) (s : State) : State := { s with app.clk.step := if warm then warmStep n else n }

/-- A component's hash in the image set that starts; none where the set has no such component. -/
def State.bootHash (s : State) (id : Nat) : BitVec 384 := (compHash s.bootComps id).getD 0

/-- A measurement register written with a component's hash (R399). -/
def bootMeasure (k : Nat) (h : BitVec 384) (s : State) : State := { s with app.tack.mr := s.app.tack.mr.set k (mrExtend 0 h) }

/-! ### The boot ROM (R402, R403 steps 1 to 4) -/

/-- FUS_DEBUG.CNT_DBG_OFF, JTAG_OFF and RECOV_OFF (R396). -/
def State.debugBoot (s : State) (boot : BitVec 4) : Bool :=
  boot.extractLsb' 0 2 = 3 && !s.fuses.dbg.getLsbD 0 && !s.fuses.dbg.getLsbD 4

def State.recoveryBoot (s : State) (boot : BitVec 4) : Bool := boot.extractLsb' 0 2 = 1 && !s.fuses.dbg.getLsbD 5

/-- The loader copy that verifies: the directory's, in its place the other; with BOOT[2] the other only (R402, R404). -/
def State.bootLoader (s : State) (boot : BitVec 4) (b : BootChecks) : Option Nat :=
  let d := s.sec.dir.loader
  if boot.getLsbD 2 then (if b.otherLoaderOk then some (1 - d) else none)
  else if b.loaderOk then some d
  else if b.otherLoaderOk then some (1 - d)
  else none

/-- The ROM: whether the loader runs, and the state. -/
def bootRomRun (boot : BitVec 4) (b : BootChecks) (s : State) : Bool × State :=
  if s.debugBoot boot then (false, { s with app.harts := s.app.harts.upd 0 fun h => { h with halted := true } })
  else
    let s1 : State := { s with app.tack.mr := s.app.tack.mr.set 0 (mr0Of s.fuses s.fuses.dbg) }
    if !s.fuses.prod && s.fuses.mfg then (false, bootStop 1 s1.freeStatus s1.used)
    else if s.recoveryBoot boot then
      (false, if b.recoveryOk then { s1 with app.clk.recovery := true } else bootStop 4 .integrity s1)
    else if !b.flashOk then (false, bootStop 2 .absent s1)
    else if !b.dirOk then (false, bootStop 3 .integrity s1)
    else match s1.bootLoader boot b with
      | none => (false, bootStop 4 .integrity s1)
      | some k => (true, bootMeasure 1 (s1.sec.loaders.get k) s1)

/-! ### The Tack room (R398, R401, R403 steps 7 to 9) -/

/-- The wrap set chosen: the directory's, or the other one where only its MR0 digest fits, which then becomes the
directory's (R398); in a trial the successor's (R413). -/
def chooseWrap (s : State) : State :=
  let d := Config.sha384 (digestBytes (s.app.tack.mr.get 0))
  let fits := fun k => decide (((s.sec.wrap.get k).under.map (·.mr0)) = some d)
  let k := s.activeWrap
  if !fits k && fits (1 - k) && s.sec.upd.st ≠ .trial then { s with sec.dir.wrap := 1 - k, sec.dir.seq := s.sec.dir.seq + 1 }
  else s

/-- A wrapped slot opens under the keys derived now: with BIND 0 under DWK, with BIND 1 under IWK (R401, R406). -/
def slotOpens (w : WrapSet) (d : WrapKeys) (k : KeySlot) : Bool :=
  match w.under with
  | none => false
  | some u => if k.bind then u.iwk = d.iwk else u.dwk = d.dwk

/-- The Tack room started: DWK, SK and IWK derived (R401), its slots unwrapped; MR3 as the Cantle image will make it. -/
def tackStart (s : State) : State :=
  let s1 := chooseWrap s
  let w := s1.sec.wrap.get s1.activeWrap
  let m := fun k => s1.app.tack.mr.get k
  let d := wrapKeys s1.fuses.huk (m 0) (m 2) (mrExtend 0 (s1.bootHash 2)) w.seq
  let opened := w.slots.cells.foldl (fun (t : Bank KeySlot) c =>
    if slotOpens w d c.2 then t.set c.1 c.2 else t) ⟨{}, []⟩
  { s1 with app.tack.slots := opened, app.tack.keys := some d, app.tack.st := if s1.fuses.decom then 3 else 2 }

/-- Loader and Tack room: manifest, Tack-room image, wrap set, Cantle image (R403 steps 5 to 9). Whether the Cantle
image runs, and the state. -/
def loaderRun (b : BootChecks) (s : State) : Bool × State :=
  let r := loaderResume (b.tackRoomOk && b.cantleOk) s
  if !r.1 then (false, r.2)
  else if !b.manifestOk then (false, bootStop 6 .integrity r.2)
  else if !b.tackRoomOk then (false, bootStop 7 .integrity r.2)
  else
    let s1 := tackStart (bootMeasure 2 (r.2.bootHash 1) r.2)
    if !b.cantleOk then (false, bootStop 9 .integrity s1)
    else (true, bootMeasure 3 (s1.bootHash 2) s1)

/-! ### Firmware's part -/

/-- An engine's image verified, loaded, measured and run (R73): 0 to 7 REIN0 to REIN7, 8 the Stitcher. -/
def loadEngine (e : Nat) (s : State) : State :=
  let s1 := bootMeasure (if e = 8 then 4 else 5 + e) (s.bootHash (if e = 8 then 3 else 4 + e)) s
  { s1 with app.clk.loaded := putBit s1.app.clk.loaded e true, app.clk.run := putBit s1.app.clk.run e true }

/-- report(e, INTEGRITY) of R73: an image that does not verify; the engine stays stopped. -/
def loadFailed (e : Nat) (s : State) : State := { s with app.clk.engSt := s.app.clk.engSt.set e .integrity }

/-- The engines whose images verify; the others stay stopped. -/
def loadEngines (ok : BitVec 9) (s : State) : State :=
  ([8, 0, 1, 2, 3, 4, 5, 6, 7] : List Nat).foldl (fun t e => if ok.getLsbD e then loadEngine e t else loadFailed e t) s

/-- The defaults that R374 gives the fields of the safety configuration, the others 0. -/
def defaultSafety : List Byte :=
  let pt := fun p : Nat => [BitVec.ofNat 8 p, 0xFF, 0, 0xFF, 0xFF, 0, 10, 10]
  let si : List Byte := [0, 0, 0, 0, 20, 0, 0, 0]
  toLE 4 0x4353584B ++ toLE 2 1 ++ toLE 2 2048 ++ [150, 0, 0, 0, 0, 0, 0, 0] ++ ((List.range 64).map pt).flatten ++
    List.replicate 128 0 ++ (List.replicate 16 si).flatten ++ List.replicate 1264 0

/-- The safety configuration written at a load: 6900h.01, or the defaults where nothing is staged. -/
def State.safetyBlock (s : State) : List Byte := let v := s.oval 0x6900 1; if v.isEmpty then defaultSafety else v

/-- The Bridle loaded and measured, once per cold reset: MR13 its image, MR14 its configuration (R73, R399). -/
def loadBridle (ok : Bool) (s : State) : State :=
  if s.cold.measured then s
  else if !ok then loadFailed 9 s
  else
    let c := s.safetyBlock
    let bytes := ((List.range 2048).zip c).foldl (fun (t : Bank Byte) x => t.set x.1 x.2) ⟨0, []⟩
    { s with bridle.cfgBytes := bytes, bridle.loaded := true, cold.measured := true,
             coldMr := (s.coldMr.set 13 (mrExtend 0 (s.bootHash 12))).set 14 (mrExtend 0 (Config.sha384 c)) }

/-- The points of type 5 whose port a lower-numbered point of type 5 names (10 R241). -/
def State.seqClash (s : State) : BitVec 64 :=
  ((List.range 64).filter fun p =>
    s.pointType p = 5 && (List.range p).any fun q => s.pointType q = 5 && s.seqPortOf q = s.seqPortOf p).foldl
      (fun m p => putBit m p true) 0

/-- The journal read, the defaults restored, the unfitted units taken (06 R131, R132, R445). -/
def readObjects (b : BootChecks) (s : State) : State :=
  let s1 := restoreDefaults (journalRead b.journalOk b.journalBOk b.badRecs s)
  { s1 with obj.unfit := tabulate 0 12 fun k => if within 1 k 11 then BitVec.ofNat 64 (s1.onum 0x2050 k) else 0,
            obj.seqOut := s1.seqClash }

/-- The stored configuration applied to the hardware; nothing is driven of a unit declared unfitted (06 R445). -/
def applyStored (s : State) : State :=
  let s1 := s.obj.live.cells.foldl (fun t c =>
    let i := c.1 / 256
    let k := c.1 % 256
    if t.unitGone i k || isMainsEnable i k then t else applyEntry i k t) s
  let s2 := powerWrite (outProtWrite (pack [(s1.onum 0x6080 4, 16), (s1.onum 0x6080 3, 8), (b2n s1.power.test, 1),
    (b2n s1.power.run, 0)])) s1
  let s3 := (List.range 66).foldl (fun t n => plcCfgWrite n (putFld (t.plc n).cfg 0 1 (t.onum 0x2100 1)) t) s2
  ([0, 1] : List Nat).foldl (fun t m => applyAtten (64 + m) (t.onum (0x2101 + m) 3) t) s3

/-- Step 10 (R71): the Bridle's heartbeat runs, and after 10 valid ones the power die leaves its safe state (01 R25). -/
def bootHeartbeat (s : State) : State :=
  let s1 := if s.bridle.hbOn && s.power.clkOk then { s with power.hbRun := 10 } else s
  if s1.mayReleaseSafe then safeRelease s1 else s1

/-- A mains port that is enabled is started under the grant of its line driver (08 R180, R189). -/
def bootMains (m : Nat) (s : State) : State :=
  if s.onum (0x2101 + m) 1 ≠ 1 || s.unitAbsent 2 m then s
  else
    let s1 := girthGrant 0 (applyMains m true s)
    plcStart (64 + m) 1 (plcTake (64 + m) s1)

/-- Step 11 (R71): Girth has rebuilt its standing costs (04 R94), and the Green PHY channels that need no session are
started. -/
def bootPhy (s : State) : State := bootMains 1 (bootMains 0 (girthRebuild s))

/-- The dictionary server ready: Ethernet modes taken, the field ports booted (06 R136, R146). -/
def serveObjects (warm : Bool) (s : State) : State :=
  let two := fun (b : Bank Nat) (k : Nat) => (b.set 0 (s.onum 0x2010 k)).set 1 (s.onum 0x2011 k)
  let v := s.app.server
  let s1 : State := { s with app.server.ethMode := two v.ethMode 1, app.server.ethDelay := two v.ethDelay 2,
                             app.server.ethMdio := two v.ethMdio 3 }
  let s2 := bootPort 1 (bootPort 0 s1)
  atStep warm 12 { s2 with app.server.ready := true }

/-- The Bridle's part of a start from power-on (R71 steps 9 and 10); a warm start leaves it alone (R72). -/
def bootBridle (b : BootChecks) (s : State) : State :=
  bootHeartbeat (atStep false 10 (takeReclaims (if s.bridle.loaded then bridleRelease b.lockstepOk s else s)))

/-- Everything from the Cantle image on (R71 steps 7 to 12, R72 steps 5 to 8). -/
def firmwareStart (warm : Bool) (b : BootChecks) (s : State) : State :=
  let s1 := readObjects b (atStep warm 7 { s with app.clk.cantle := true })
  let s2 := if s1.mayRequest && s1.mayAgree then linkRequest b.agreeOk s1 else s1
  let s3 := loadBridle b.bridleOk (loadEngines b.engines (atStep warm 9 (atStep warm 8 s2)))
  let s4 := if warm then s3 else bootBridle b s3
  serveObjects warm (rebuildAll (bootPhy (applyStored (atStep warm 11 s4))))

/-- A start from the sampling of BOOT[3:0] on. -/
def startFrom (warm : Bool) (boot : BitVec 4) (b : BootChecks) (s : State) : State :=
  let s1 := atStep warm 4 { s with app.clk.appHeld := false, app.clk.boot := boot, app.clk.bootStop := none, app.clk.recovery := false }
  let r := bootRomRun boot b s1
  if !r.1 then r.2
  else
    let l := loaderRun b (atStep warm 5 r.2)
    if l.1 then firmwareStart warm b (atStep warm 6 l.2) else l.2

/-- POWER_ON_START (R71): the cold reset is released; once between cold resets. The beacon grid counts from the lock
of PLL_P (08 R175). It waits for the main reference (step 2). -/
def execPowerOnStart (boot : BitVec 4) (b : BootChecks) (s : State) : Res :=
  .next (if (s.cold.started && !s.cold.coldHeld) || s.cold.mainFail then s
    else startFrom false boot b { s with cold.coldHeld := false, cold.started := true, cold.grid := 0 })

/-- WARM_START (R72): the application reset is released, not before a failed reference is good again. -/
def execWarmStart (boot : BitVec 4) (b : BootChecks) (s : State) : Res :=
  .next (if s.app.clk.appHeld && !s.cold.mainFail && !s.cold.coldHeld then startFrom true boot b s else s)

end Sys2Proof.Machine
end

