-- ==== Sys2Proof/Machine/Supplies.lean ====
section
/-!
DEFINITION. Supply supervisors (02 R50 to R52), the power-fail warning (13 R320, R330; 17 R427, R432), the resets
of the sealed die (01 R21) and its clocks (03 R66).
-/
set_option Elab.async false
namespace Sys2Proof.Machine

/-! ### Control and power die -/

/-- VANA_TRIP (R50, 08 R183): transmission disabled, the channels move to OFF; the event is source 280. -/
def execVanaTrip (s : State) : Res :=
  .next (if s.app.clk.vana then s
    else let s1 := plcHalt (raise 280 s); { s1 with app.clk.vana := true })

/-- VANA_RELEASE (R50): firmware starts the channels again (08 R183). -/
def execVanaRelease (s : State) : Res := .next { s with app.clk.vana := false }

/-- The safety-lane report of a VLOAD trip (R51): it reaches a Bridle in RUN while the power die's clock runs, and shows
as source 499 (the model's choice, assumption 47). -/
def vloadFrame (s : State) : State := if s.bridleRuns && s.power.clkOk then raise 499 s else s

/-- A VLOAD trip clears every coil and load latch (R51); it is reported on both lanes. STO and sequence latches stay;
their outputs are high impedance from now on (`stoDriven`, `seqDriven`). -/
def vloadTrip (s : State) : State :=
  let s1 := { s with power.vload := true }
  vloadFrame (laneRaise 280 ((List.range 96).foldl (fun t x => outVload x t) s1))

/-- VLOAD_TRIP (R51), under- or overvoltage. -/
def execVloadTrip (_over : Bool) (s : State) : Res := .next (vloadTrip s)

/-- VLOAD_RELEASE (R51): no latch changes. -/
def execVloadRelease (s : State) : Res := .next { s with power.vload := false }

/-- A pilot is enabled: MODE_ACT is X1 or PWM (R52, 07 R152). -/
def pilEnabled (q : PilotPt) : Bool := q.modeAct = 1 || q.modeAct = 2

/-- The pilot-supply fault at one point (07 R160): the driver disabled; an evaluated pilot goes to FAULT_EF with the
FAULT_EF event and cause bit 2. The fault is one of a point whose pilot is enabled only; another driver is disabled
until the rail is released (assumption 100). -/
def pilSupplyFault (p : Nat) (s : State) : State :=
  let q := s.pil p
  let s1 := s.updPil p fun q => { q with
    supplyDis := true, supplyFault := q.supplyFault || pilEnabled q, waking := false }
  if pilEnabled q && pilJudged q then pilFault p .faultEf 1 4 s1 else s1

/-- A pilot rail trips (R52): every driver is disabled, and the Bridle takes it as a pilot fault of every point whose
pilot is enabled; frames of a power die without a clock are lost (03 R66). -/
def pilotSupplyTrip (neg : Bool) (s : State) : State :=
  let was := (List.range 64).filter fun p => pilEnabled (s.pil p)
  let s1 := if neg then { s with power.vpiln := true } else { s with power.vpilp := true }
  let s2 := (List.range 64).foldl (fun t p => pilSupplyFault p t) s1
  let s3 := laneRaise 280 s2
  if s.power.clkOk then was.foldl (fun t p => pilotFaultFrame p t) s3 else s3

/-- PILOT_SUPPLY_TRIP (R52). -/
def execPilotSupplyTrip (neg : Bool) (s : State) : Res :=
  .next (if (if neg then s.power.vpiln else s.power.vpilp) then s else pilotSupplyTrip neg s)

/-- PILOT_SUPPLY_RELEASE (R52): the drivers stay disabled until the Bridle releases them; one that it has released before
goes on now. -/
def pilotSupplyRelease (neg : Bool) (s : State) : State :=
  let s1 := if neg then { s with power.vpiln := false } else { s with power.vpilp := false }
  (List.range 64).foldl (fun t p => pilRailBack p t) s1

/-- PILOT_SUPPLY_RELEASE (R52). -/
def execPilotSupplyRelease (neg : Bool) (s : State) : Res := .next (pilotSupplyRelease neg s)

/-- VDRV_TRIP (R50): reader fields and line drivers off, with an event. -/
def vdrvTrip (s : State) : State :=
  let s1 := { s with power.vdrv := true }
  let s2 := (List.range 16).foldl (fun t n => if t.fieldIsOn n then girthUnitOff 5 n (fieldOff n t) else t) s1
  let s3 := (List.range 2).foldl (fun t m =>
    if t.power.lines.getLsbD m then girthUnitOff 2 m { t with power.lines := putBit t.power.lines m false } else t) s2
  laneRaise 280 s3

/-- VDRV_TRIP (R50). -/
def execVdrvTrip (s : State) : Res := .next (vdrvTrip s)

/-- VDRV_RELEASE (R50). -/
def execVdrvRelease (s : State) : Res := .next { s with power.vdrv := false }

/-! ### Power fail -/

/-- The power-fail stop of a panel that is not OFF (13 R320, R330): one clearing frame, and OFF. -/
def panelPowerFail (m : Nat) (s : State) : State :=
  if (s.panel m).st = .off then s
  else
    let s1 := girthWithdraw (fun r => r.port = 21 && r.kind = 6 && r.unit = m) s
    panelTo m .off ((clearUnderLedger m s1).updPanel m fun x =>
      { x with wait := .none, retry := false, newGeom := none })

/-- What the sealed die does at a warning (12 R294, 17 R427): what falls due at it comes first; the records open during it,
and the intervals closed in its millisecond, are COINCIDENT; the panels stop; the commit lands with the next slice. -/
def dieWarned (s : State) : State :=
  (List.range 2).foldl (fun t m => panelPowerFail m t)
    (markIntervals (flagAllOpen fCOINC { settle s with
      die.pf := .warned, die.pfSaved := false, die.pfAt := s.die.legal.mtk }))

/-- POWER_FAIL_WARNING (R50). -/
def execPowerFailWarning (s : State) : Res :=
  .next (if s.power.pfin then s
    else
      let s1 := laneRaise 280 (psqSelfRelease { s with power.pfin := true })
      whenDie dieWarned s1)

/-- POWER_FAIL_RELEASE (17 R432): the die goes on with slices and then with cycles; each panel whose enable is set
starts again. -/
def execPowerFailRelease (s : State) : Res :=
  .next (if !s.power.pfin then s
    else
      let s1 := { s with power.pfin := false }
      whenDie (fun s => (List.range 2).foldl (fun t m => if t.pobj m 1 = 1 then panelEnableSet m t else t)
        { s with die.pf := .released }) s1)

/-! ### Sealed die -/

/-- A reset of the sealed die (01 R21, 03 R70): everything but MTK, LT and MRAM; its start follows. -/
def dieReset (s : State) : State := { s with die.running := false, die.inReset := true, die.link := {}, die.pf := .none }

/-- SEALED_SUPPLY_TRIP (R50). -/
def execSealedSupplyTrip (_vmio : Bool) (s : State) : Res := .next (dieReset s)

/-- SEALED_WATCHDOG_EXPIRY (01 R21). -/
def execSealedWatchdogExpiry (s : State) : Res := .next (if s.die.running then dieReset s else s)

/-- VBAT_SAMPLE (R50): the battery-low flag falls at 1.85 V, typical, and releases at 1.90 V; a new one is logged. -/
def vbatSample (mv : Nat) (s : State) : State :=
  let low := s.die.legal.ltStat.getLsbD 1
  if mv < 1850 && !low then
    logAdd 14 (toLE 2 mv) { s with die.legal.ltStat := putBit s.die.legal.ltStat 1 true }
  else if 1900 ≤ mv && low then { s with die.legal.ltStat := putBit s.die.legal.ltStat 1 false }
  else s

/-- VBAT_SAMPLE (R50). -/
def execVbatSample (mv : Nat) (s : State) : Res := .next (whenDie (vbatSample mv) s)

/-- LEGAL_CLOCK_STOP (R50): only with VMCORE absent. -/
def execLegalClockStop (s : State) : Res :=
  .next (if s.die.running then s else { s with die.legal.stopped := true })

/-- METROLOGY_REF_FAIL (03 R66, 12 R303): accumulation suspended, the open records carry GAP. -/
def execMetrologyRefFail (s : State) : Res :=
  .next (whenDie (fun s => if s.die.met.refFail then s
    else logAdd 8 [] (flagAllOpen fGAP { s with die.met.refFail := true })) s)

/-- METROLOGY_REF_RETURN (12 R303). -/
def execMetrologyRefReturn (s : State) : Res :=
  .next (whenDie (fun s => if s.die.met.refFail then logAdd 8 [] { s with die.met.refFail := false } else s) s)

/-- LEGAL_CRYSTAL_FAIL (03 R66): MTK and LT are counted from the metrology reference, and it is logged. -/
def execLegalCrystalFail (s : State) : Res :=
  .next (whenDie (fun s => if s.die.legal.ltStat.getLsbD 2 then s
    else logAdd 9 [] { s with die.legal.ltStat := putBit s.die.legal.ltStat 2 true }) s)

end Sys2Proof.Machine
end

