-- ==== Sys2Proof/Machine/Dispatch.lean ====
section
/-!
DEFINITION. One arm per command: each arm is one direct call of the meaning of its command.
-/
namespace Sys2Proof.Machine

/-- The effect of a command on everything but the queue. -/
def exec (i : Instr) (s : State) : Host.Outcome State Fault Refusal :=
  match i with
  | .registerWrite port addr val => Sys2Proof.Machine.execRegisterWrite port addr val s
  | .sealedLinkMessageReceive side m macOk => Sys2Proof.Machine.execSealedLinkMessageReceive side m macOk s
  | .linkKeyAgreement authentic => Sys2Proof.Machine.execLinkKeyAgreement authentic s
  | .linkAckReceive side acked credit macOk => Sys2Proof.Machine.execLinkAckReceive side acked credit macOk s
  | .sealedLinkHeartbeat side => Sys2Proof.Machine.execSealedLinkHeartbeat side s
  | .sealedLinkResendTimeout side => Sys2Proof.Machine.execSealedLinkResendTimeout side s
  | .sealedLinkSilenceTimeout side => Sys2Proof.Machine.execSealedLinkSilenceTimeout side s
  | .bridleHeartbeat crcOk => Sys2Proof.Machine.execBridleHeartbeat crcOk s
  | .safetyLaneHeartbeatLoss => Sys2Proof.Machine.execSafetyLaneHeartbeatLoss s
  | .safeStateReport => Sys2Proof.Machine.execSafeStateReport s
  | .safeStateRelease => Sys2Proof.Machine.execSafeStateRelease s
  | .appLaneCommand crcOk c => Sys2Proof.Machine.execAppLaneCommand crcOk c s
  | .safetyLaneCommand crcOk c => Sys2Proof.Machine.execSafetyLaneCommand crcOk c s
  | .powerDieClockFail => Sys2Proof.Machine.execPowerDieClockFail s
  | .powerDieClockReturn => Sys2Proof.Machine.execPowerDieClockReturn s
  | .powerDieReset => Sys2Proof.Machine.execPowerDieReset s
  | .vcoreTrip => Sys2Proof.Machine.execVcoreTrip s
  | .vioTrip => Sys2Proof.Machine.execVioTrip s
  | .vanaTrip => Sys2Proof.Machine.execVanaTrip s
  | .sealedSupplyTrip vmio => Sys2Proof.Machine.execSealedSupplyTrip vmio s
  | .sealedWatchdogExpiry => Sys2Proof.Machine.execSealedWatchdogExpiry s
  | .vbatSample mv => Sys2Proof.Machine.execVbatSample mv s
  | .legalClockStop => Sys2Proof.Machine.execLegalClockStop s
  | .vloadTrip above => Sys2Proof.Machine.execVloadTrip above s
  | .vloadRelease => Sys2Proof.Machine.execVloadRelease s
  | .pilotSupplyTrip neg => Sys2Proof.Machine.execPilotSupplyTrip neg s
  | .pilotSupplyRelease neg => Sys2Proof.Machine.execPilotSupplyRelease neg s
  | .vdrvTrip => Sys2Proof.Machine.execVdrvTrip s
  | .powerFailWarning => Sys2Proof.Machine.execPowerFailWarning s
  | .powerFailRelease => Sys2Proof.Machine.execPowerFailRelease s
  | .powerOnStart boot b => Sys2Proof.Machine.execPowerOnStart boot b s
  | .warmStart boot b => Sys2Proof.Machine.execWarmStart boot b s
  | .clkSscWrite v => Sys2Proof.Machine.execClkSscWrite v s
  | .spreadDisableHoldExpiry => Sys2Proof.Machine.execSpreadDisableHoldExpiry s
  | .mainRefFail => Sys2Proof.Machine.execMainRefFail s
  | .mainRefRecovered => Sys2Proof.Machine.execMainRefRecovered s
  | .pllChUnlock h => Sys2Proof.Machine.execPllChUnlock h s
  | .pllPUnlock => Sys2Proof.Machine.execPllPUnlock s
  | .pllEUnlock eth0 eth1 => Sys2Proof.Machine.execPllEUnlock eth0 eth1 s
  | .bridleOscFail => Sys2Proof.Machine.execBridleOscFail s
  | .metrologyRefFail => Sys2Proof.Machine.execMetrologyRefFail s
  | .metrologyRefReturn => Sys2Proof.Machine.execMetrologyRefReturn s
  | .legalCrystalFail => Sys2Proof.Machine.execLegalCrystalFail s
  | .resetPin => Sys2Proof.Machine.execResetPin s
  | .watchdogExpiry => Sys2Proof.Machine.execWatchdogExpiry s
  | .watchdogHalfPeriod => Sys2Proof.Machine.execWatchdogHalfPeriod s
  | .watchdogKick v => Sys2Proof.Machine.execWatchdogKick v s
  | .watchdogPeriodSet v => Sys2Proof.Machine.execWatchdogPeriodSet v s
  | .appResetRequest v => Sys2Proof.Machine.execAppResetRequest v s
  | .jtagResetRequest => Sys2Proof.Machine.execJtagResetRequest s
  | .engineRun v => Sys2Proof.Machine.execEngineRun v s
  | .engineReset v => Sys2Proof.Machine.execEngineReset v s
  | .reclaim hi v => Sys2Proof.Machine.execReclaim hi v s
  | .holdWindowExpiry => Sys2Proof.Machine.execHoldWindowExpiry s
  | .shutdownCurrentTimeout p => Sys2Proof.Machine.execShutdownCurrentTimeout p s
  | .shutdownLockRelease p => Sys2Proof.Machine.execShutdownLockRelease p s
  | .harnessBurst t reqs => Sys2Proof.Machine.execHarnessBurst t reqs s
  | .hrnWaitmaxRead t => Sys2Proof.Machine.execHrnWaitmaxRead t s
  | .girthRequest port v => Sys2Proof.Machine.execGirthRequest port v s
  | .girthGrant c => Sys2Proof.Machine.execGirthGrant c s
  | .girthRelease port v => Sys2Proof.Machine.execGirthRelease port v s
  | .girthHoldExpiry ticket => Sys2Proof.Machine.execGirthHoldExpiry ticket s
  | .unitOffReport kind unit => Sys2Proof.Machine.execUnitOffReport kind unit s
  | .girthDerateSample temp => Sys2Proof.Machine.execGirthDerateSample temp s
  | .girthShareWrite c v => Sys2Proof.Machine.execGirthShareWrite c v s
  | .girthRebuild => Sys2Proof.Machine.execGirthRebuild s
  | .grtBypassRead => Sys2Proof.Machine.execGrtBypassRead s
  | .deliveryTimeout q => Sys2Proof.Machine.execDeliveryTimeout q s
  | .instruction hart w => Sys2Proof.Machine.execInstruction hart w s
  | .timerCompareMatch h => Sys2Proof.Machine.execTimerCompareMatch h s
  | .debugAccess op => Sys2Proof.Machine.execDebugAccess op s
  | .buckleSourceEdge src => Sys2Proof.Machine.execBuckleSourceEdge src s
  | .buckleLevelChange src level => Sys2Proof.Machine.execBuckleLevelChange src level s
  | .buckleClaim t => Sys2Proof.Machine.execBuckleClaim t s
  | .buckleComplete t v => Sys2Proof.Machine.execBuckleComplete t v s
  | .buckleCPendRead port k => Sys2Proof.Machine.execBuckleCPendRead port k s
  | .buckleCPendWrite port k v => Sys2Proof.Machine.execBuckleCPendWrite port k v s
  | .buckleCVecRead t => Sys2Proof.Machine.execBuckleCVecRead t s
  | .bucklePendClear k v => Sys2Proof.Machine.execBucklePendClear k v s
  | .buckleSoftwareSet v => Sys2Proof.Machine.execBuckleSoftwareSet v s
  | .buckleCfgWrite v => Sys2Proof.Machine.execBuckleCfgWrite v s
  | .sleepLatchWake src => Sys2Proof.Machine.execSleepLatchWake src s
  | .pairMailboxCommit port m v => Sys2Proof.Machine.execPairMailboxCommit port m v s
  | .pairMailboxRemove port m => Sys2Proof.Machine.execPairMailboxRemove port m s
  | .hubMailboxAcquire port h => Sys2Proof.Machine.execHubMailboxAcquire port h s
  | .hubMailboxCommit port h v => Sys2Proof.Machine.execHubMailboxCommit port h v s
  | .hubMailboxRelease port h => Sys2Proof.Machine.execHubMailboxRelease port h s
  | .keeperTimeout h => Sys2Proof.Machine.execKeeperTimeout h s
  | .hubMailboxRemove port h => Sys2Proof.Machine.execHubMailboxRemove port h s
  | .mbxDroppedRead => Sys2Proof.Machine.execMbxDroppedRead s
  | .counterWrap n => Sys2Proof.Machine.execCounterWrap n s
  | .pmcSelect n v => Sys2Proof.Machine.execPmcSelect n v s
  | .pmcSnapshot v => Sys2Proof.Machine.execPmcSnapshot v s
  | .sdoInitiateDownload f ch idx sub expedited size data => Sys2Proof.Machine.execSdoInitiateDownload f ch idx sub expedited size data s
  | .sdoDownloadSegment f ch toggle last data => Sys2Proof.Machine.execSdoDownloadSegment f ch toggle last data s
  | .sdoInitiateUpload f ch idx sub => Sys2Proof.Machine.execSdoInitiateUpload f ch idx sub s
  | .sdoUploadSegment f ch toggle => Sys2Proof.Machine.execSdoUploadSegment f ch toggle s
  | .sdoUnsupportedCommand f ch => Sys2Proof.Machine.execSdoUnsupportedCommand f ch s
  | .usdoRequest f node r => Sys2Proof.Machine.execUsdoRequest f node r s
  | .sdoSegmentTimeout f client => Sys2Proof.Machine.execSdoSegmentTimeout f client s
  | .nmtStart f => Sys2Proof.Machine.execNmtStart f s
  | .nmtStop f => Sys2Proof.Machine.execNmtStop f s
  | .nmtEnterPreoperational f => Sys2Proof.Machine.execNmtEnterPreoperational f s
  | .nmtResetCommunication f => Sys2Proof.Machine.execNmtResetCommunication f s
  | .nmtResetNode f => Sys2Proof.Machine.execNmtResetNode f s
  | .canopenHeartbeat f => Sys2Proof.Machine.execCanopenHeartbeat f s
  | .sync f => Sys2Proof.Machine.execSync f s
  | .tpdoEventTimer f n => Sys2Proof.Machine.execTpdoEventTimer f n s
  | .canBusOff f => Sys2Proof.Machine.execCanBusOff f s
  | .canBusOffRecovery f => Sys2Proof.Machine.execCanBusOffRecovery f s
  | .latigoConnect h => Sys2Proof.Machine.execLatigoConnect h s
  | .latigoRead c r => Sys2Proof.Machine.execLatigoRead c r s
  | .latigoWrite c r data => Sys2Proof.Machine.execLatigoWrite c r data s
  | .latigoSubscribe c r interval => Sys2Proof.Machine.execLatigoSubscribe c r interval s
  | .latigoUnsubscribe c id => Sys2Proof.Machine.execLatigoUnsubscribe c id s
  | .latigoKeepalive c id => Sys2Proof.Machine.execLatigoKeepalive c id s
  | .latigoNotify c id intervalEnd => Sys2Proof.Machine.execLatigoNotify c id intervalEnd s
  | .latigoBadFrame c h => Sys2Proof.Machine.execLatigoBadFrame c h s
  | .latigoIdleTimeout c => Sys2Proof.Machine.execLatigoIdleTimeout c s
  | .latigoCertExpiry c => Sys2Proof.Machine.execLatigoCertExpiry c s
  | .latigoClose c => Sys2Proof.Machine.execLatigoClose c s
  | .journalBatchClose save => Sys2Proof.Machine.execJournalBatchClose save s
  | .xspiOperationDone err => Sys2Proof.Machine.execXspiOperationDone err s
  | .pilotCommand p v => Sys2Proof.Machine.execPilotCommand p v s
  | .pilotPeriodStart => Sys2Proof.Machine.execPilotPeriodStart s
  | .pilotWake p v => Sys2Proof.Machine.execPilotWake p v s
  | .pilotWakeEnd p => Sys2Proof.Machine.execPilotWakeEnd p s
  | .pilotPeriodTrim periodNs => Sys2Proof.Machine.execPilotPeriodTrim periodNs s
  | .pilotPlateauEvaluation p neg samples => Sys2Proof.Machine.execPilotPlateauEvaluation p neg samples s
  | .pilotFaultFrame p cause => Sys2Proof.Machine.execPilotFaultFrame p cause s
  | .offWaitExpiry p => Sys2Proof.Machine.execOffWaitExpiry p s
  | .proximityMeasurement p v1 v2 => Sys2Proof.Machine.execProximityMeasurement p v1 v2 s
  | .pilotCfgWrite p rsrc v => Sys2Proof.Machine.execPilotCfgWrite p rsrc v s
  | .pilTsRead port p => Sys2Proof.Machine.execPilTsRead port p s
  | .plcStart n v => Sys2Proof.Machine.execPlcStart n v s
  | .plcStop n => Sys2Proof.Machine.execPlcStop n s
  | .plcStoppingEnd n => Sys2Proof.Machine.execPlcStoppingEnd n s
  | .plcReslac n => Sys2Proof.Machine.execPlcReslac n s
  | .beacon n => Sys2Proof.Machine.execBeacon n s
  | .slacParmReq n runId => Sys2Proof.Machine.execSlacParmReq n runId s
  | .startAttenChar n runId sounds => Sys2Proof.Machine.execStartAttenChar n runId sounds s
  | .slacSound n runId groups => Sys2Proof.Machine.execSlacSound n runId groups s
  | .slacCollectionClose runId => Sys2Proof.Machine.execSlacCollectionClose runId s
  | .slacValidateReq n runId => Sys2Proof.Machine.execSlacValidateReq n runId s
  | .slacValidateWindowEnd n toggles => Sys2Proof.Machine.execSlacValidateWindowEnd n toggles s
  | .slacMatchReq n runId mac => Sys2Proof.Machine.execSlacMatchReq n runId mac s
  | .slacMatchTimeout n => Sys2Proof.Machine.execSlacMatchTimeout n s
  | .plcMpduReceive n m => Sys2Proof.Machine.execPlcMpduReceive n m s
  | .plcLinkLost n => Sys2Proof.Machine.execPlcLinkLost n s
  | .nekRenewal n => Sys2Proof.Machine.execNekRenewal n s
  | .plcTxPost n v => Sys2Proof.Machine.execPlcTxPost n v s
  | .plcSackReceived n bad => Sys2Proof.Machine.execPlcSackReceived n bad s
  | .plcTxTimeout n => Sys2Proof.Machine.execPlcTxTimeout n s
  | .plcRxPop n => Sys2Proof.Machine.execPlcRxPop n s
  | .plcTxdoneRead n => Sys2Proof.Machine.execPlcTxdoneRead n s
  | .plcNtbRead port n => Sys2Proof.Machine.execPlcNtbRead port n s
  | .reinSourceClaim e => Sys2Proof.Machine.execReinSourceClaim e s
  | .reinMailboxStash e => Sys2Proof.Machine.execReinMailboxStash e s
  | .reinActivation e => Sys2Proof.Machine.execReinActivation e s
  | .sesDone e => Sys2Proof.Machine.execSesDone e s
  | .sesPost e v => Sys2Proof.Machine.execSesPost e v s
  | .sesPostr port e v => Sys2Proof.Machine.execSesPostr port e v s
  | .evTake e v => Sys2Proof.Machine.execEvTake e v s
  | .budgetExhausted e => Sys2Proof.Machine.execBudgetExhausted e s
  | .trapNoticeCommit e => Sys2Proof.Machine.execTrapNoticeCommit e s
  | .reinTimerExpiry slot => Sys2Proof.Machine.execReinTimerExpiry slot s
  | .sesStart port e v => Sys2Proof.Machine.execSesStart port e v s
  | .sesRestart port e v => Sys2Proof.Machine.execSesRestart port e v s
  | .sesFree port e v => Sys2Proof.Machine.execSesFree port e v s
  | .sesSetrole port e v => Sys2Proof.Machine.execSesSetrole port e v s
  | .sesUseRead slot => Sys2Proof.Machine.execSesUseRead slot s
  | .sdpRequest n tls => Sys2Proof.Machine.execSdpRequest n tls s
  | .v2gTcpConnect n tls => Sys2Proof.Machine.execV2gTcpConnect n tls s
  | .v2gTlsHandshake n h => Sys2Proof.Machine.execV2gTlsHandshake n h s
  | .v2gtpMessage n version inverse ptype len => Sys2Proof.Machine.execV2gtpMessage n version inverse ptype len s
  | .supportedAppProtocolReq n offers => Sys2Proof.Machine.execSupportedAppProtocolReq n offers s
  | .v2gRequest n m x => Sys2Proof.Machine.execV2gRequest n m x s
  | .authorizationSetupReq n => Sys2Proof.Machine.execAuthorizationSetupReq n s
  | .authorizationReq n a => Sys2Proof.Machine.execAuthorizationReq n a s
  | .certificateInstallationReq n stream => Sys2Proof.Machine.execCertificateInstallationReq n stream s
  | .powerDeliveryStart n late => Sys2Proof.Machine.execPowerDeliveryStart n late s
  | .ongoingTimeExpiry n => Sys2Proof.Machine.execOngoingTimeExpiry n s
  | .hostDecisionTimeout n => Sys2Proof.Machine.execHostDecisionTimeout n s
  | .hostDecision slot handle serial decision => Sys2Proof.Machine.execHostDecision slot handle serial decision s
  | .v2gSequenceTimeout n => Sys2Proof.Machine.execV2gSequenceTimeout n s
  | .v2gSetupTimeout n => Sys2Proof.Machine.execV2gSetupTimeout n s
  | .skiverSubmit port addr => Sys2Proof.Machine.execSkiverSubmit port addr s
  | .skiverComplete tag r => Sys2Proof.Machine.execSkiverComplete tag r s
  | .skiverCplRead => Sys2Proof.Machine.execSkiverCplRead s
  | .awlJobComplete pka ok slot => Sys2Proof.Machine.execAwlJobComplete pka ok slot s
  | .sequenceSignalChange k prox level => Sys2Proof.Machine.execSequenceSignalChange k prox level s
  | .vcanFrame k id data => Sys2Proof.Machine.execVcanFrame k id data s
  | .chargerFramePeriod k => Sys2Proof.Machine.execChargerFramePeriod k s
  | .vcanFirstFrameTimeout k => Sys2Proof.Machine.execVcanFirstFrameTimeout k s
  | .vcanFrameTimeout k => Sys2Proof.Machine.execVcanFrameTimeout k s
  | .adcOverload ch sar first later => Sys2Proof.Machine.execAdcOverload ch sar first later s
  | .gainRaise ch => Sys2Proof.Machine.execGainRaise ch s
  | .bitstreamModfail b => Sys2Proof.Machine.execBitstreamModfail b s
  | .elementCycleEnd e c => Sys2Proof.Machine.execElementCycleEnd e c s
  | .blockModeEntry e c => Sys2Proof.Machine.execBlockModeEntry e c s
  | .blockModeReturn e => Sys2Proof.Machine.execBlockModeReturn e s
  | .harmonicWindowEnd ch re im => Sys2Proof.Machine.execHarmonicWindowEnd ch re im s
  | .temperatureBandSample temp => Sys2Proof.Machine.execTemperatureBandSample temp s
  | .shadowCheckEnd k ch x => Sys2Proof.Machine.execShadowCheckEnd k ch x s
  | .pulseDue k => Sys2Proof.Machine.execPulseDue k s
  | .pulseOnTimeEnd k => Sys2Proof.Machine.execPulseOnTimeEnd k s
  | .sliceEnd e c => Sys2Proof.Machine.execSliceEnd e c s
  | .residueUpdate e c => Sys2Proof.Machine.execResidueUpdate e c s
  | .periodicCommit => Sys2Proof.Machine.execPeriodicCommit s
  | .metrologyRead rq kind part unit => Sys2Proof.Machine.execMetrologyRead rq kind part unit s
  | .sealOpen rq sel => Sys2Proof.Machine.execSealOpen rq sel s
  | .sealParameterWrite rq idx sub data => Sys2Proof.Machine.execSealParameterWrite rq idx sub data s
  | .sealCloseCommit rq recheckPass => Sys2Proof.Machine.execSealCloseCommit rq recheckPass s
  | .sealCloseAbandon rq => Sys2Proof.Machine.execSealCloseAbandon rq s
  | .sealTimeout => Sys2Proof.Machine.execSealTimeout s
  | .sealedLinkSend port v => Sys2Proof.Machine.execSealedLinkSend port v s
  | .sealedLinkPop port => Sys2Proof.Machine.execSealedLinkPop port s
  | .sealedObjectRead rq idx sub off len serial => Sys2Proof.Machine.execSealedObjectRead rq idx sub off len serial s
  | .sealedObjectWrite rq idx sub off total data => Sys2Proof.Machine.execSealedObjectWrite rq idx sub off total data s
  | .recordOpen tag p handle method ident => Sys2Proof.Machine.execRecordOpen tag p handle method ident s
  | .recordClose tag p handle serial reason => Sys2Proof.Machine.execRecordClose tag p handle serial reason s
  | .recordQuery tag p handle serial => Sys2Proof.Machine.execRecordQuery tag p handle serial s
  | .recordSigned serial => Sys2Proof.Machine.execRecordSigned serial s
  | .recordCollectionAck rq serial => Sys2Proof.Machine.execRecordCollectionAck rq serial s
  | .sessionNoticePlug tag p handle => Sys2Proof.Machine.execSessionNoticePlug tag p handle s
  | .sessionNoticeAuthorise tag p handle serial => Sys2Proof.Machine.execSessionNoticeAuthorise tag p handle serial s
  | .sessionNoticeEnergyFlow tag p handle serial => Sys2Proof.Machine.execSessionNoticeEnergyFlow tag p handle serial s
  | .sessionNoticeStop tag p handle serial reason => Sys2Proof.Machine.execSessionNoticeStop tag p handle serial reason s
  | .sessionNoticeMeteringConfirmation tag p handle serial reading sig => Sys2Proof.Machine.execSessionNoticeMeteringConfirmation tag p handle serial reading sig s
  | .signedReading rq slot serial => Sys2Proof.Machine.execSignedReading rq slot serial s
  | .purseQuery rq p serial => Sys2Proof.Machine.execPurseQuery rq p serial s
  | .calendarWrite rq off total data => Sys2Proof.Machine.execCalendarWrite rq off total data s
  | .calendarActivateSet rq sec => Sys2Proof.Machine.execCalendarActivateSet rq sec s
  | .calendarActivation => Sys2Proof.Machine.execCalendarActivation s
  | .ltSet rq target => Sys2Proof.Machine.execLtSet rq target s
  | .offsetSet rq minutes => Sys2Proof.Machine.execOffsetSet rq minutes s
  | .offsetChangeScheduled => Sys2Proof.Machine.execOffsetChangeScheduled s
  | .tariffSwitch => Sys2Proof.Machine.execTariffSwitch s
  | .demandIntervalEnd => Sys2Proof.Machine.execDemandIntervalEnd s
  | .sealedDieStart vbatHeld => Sys2Proof.Machine.execSealedDieStart vbatHeld s
  | .maxDemandReset rq p => Sys2Proof.Machine.execMaxDemandReset rq p s
  | .tokenKeyChange rq key => Sys2Proof.Machine.execTokenKeyChange rq key s
  | .legalLogArchive rq idx => Sys2Proof.Machine.execLegalLogArchive rq idx s
  | .pendingCreditExpiry p => Sys2Proof.Machine.execPendingCreditExpiry p s
  | .tokenLockoutEnd => Sys2Proof.Machine.execTokenLockoutEnd s
  | .ledgerAgeOut => Sys2Proof.Machine.execLedgerAgeOut s
  | .panelEnable m loopOk => Sys2Proof.Machine.execPanelEnable m loopOk s
  | .panelClearRequestRetry m => Sys2Proof.Machine.execPanelClearRequestRetry m s
  | .panelStartTimeout m => Sys2Proof.Machine.execPanelStartTimeout m s
  | .panelDisable m => Sys2Proof.Machine.execPanelDisable m s
  | .panelFrameStart m mismatches bad => Sys2Proof.Machine.execPanelFrameStart m mismatches bad s
  | .blinkHalfPeriod m entry => Sys2Proof.Machine.execBlinkHalfPeriod m entry s
  | .legalRegionRedraw m => Sys2Proof.Machine.execLegalRegionRedraw m s
  | .sealBorderAdvance m => Sys2Proof.Machine.execSealBorderAdvance m s
  | .legalRegionGeometryWrite rq m x y w h => Sys2Proof.Machine.execLegalRegionGeometryWrite rq m x y w h s
  | .overlayWrite rq m x y w h data => Sys2Proof.Machine.execOverlayWrite rq m x y w h data s
  | .overlayFill rq m x y w h index => Sys2Proof.Machine.execOverlayFill rq m x y w h index s
  | .paletteWrite rq m first rgb => Sys2Proof.Machine.execPaletteWrite rq m first rgb s
  | .blinkSet rq m index partner half enable => Sys2Proof.Machine.execBlinkSet rq m index partner half enable s
  | .terminalObjectRead rq idx sub => Sys2Proof.Machine.execTerminalObjectRead rq idx sub s
  | .terminalObjectWrite rq idx sub data => Sys2Proof.Machine.execTerminalObjectWrite rq idx sub data s
  | .panelStatusQuery rq m => Sys2Proof.Machine.execPanelStatusQuery rq m s
  | .outPsqWrite port v => Sys2Proof.Machine.execOutPsqWrite port v s
  | .keyDigit d => Sys2Proof.Machine.execKeyDigit d s
  | .keyAccept => Sys2Proof.Machine.execKeyAccept s
  | .keyDelete => Sys2Proof.Machine.execKeyDelete s
  | .keyCancel => Sys2Proof.Machine.execKeyCancel s
  | .keyStop => Sys2Proof.Machine.execKeyStop s
  | .keyStar => Sys2Proof.Machine.execKeyStar s
  | .keypadEntryTimeout => Sys2Proof.Machine.execKeypadEntryTimeout s
  | .readerPing n amp phase => Sys2Proof.Machine.execReaderPing n amp phase s
  | .readerPollCycle n cards => Sys2Proof.Machine.execReaderPollCycle n cards s
  | .readerMultiRepoll n cards => Sys2Proof.Machine.execReaderMultiRepoll n cards s
  | .readerFieldIdle n => Sys2Proof.Machine.execReaderFieldIdle n s
  | .readerExchange n => Sys2Proof.Machine.execReaderExchange n s
  | .readerAbort n => Sys2Proof.Machine.execReaderAbort n s
  | .readerPoll n => Sys2Proof.Machine.execReaderPoll n s
  | .readerFieldOff n => Sys2Proof.Machine.execReaderFieldOff n s
  | .readerModeWrite n v => Sys2Proof.Machine.execReaderModeWrite n v s
  | .cardBlockReceive n b => Sys2Proof.Machine.execCardBlockReceive n b s
  | .cardFwtExpiry n => Sys2Proof.Machine.execCardFwtExpiry n s
  | .readerExchangeTimeout n => Sys2Proof.Machine.execReaderExchangeTimeout n s
  | .tagFieldEntry n => Sys2Proof.Machine.execTagFieldEntry n s
  | .tagActivation n c => Sys2Proof.Machine.execTagActivation n c s
  | .tagSelect n f => Sys2Proof.Machine.execTagSelect n f s
  | .tagReadBinary n off len => Sys2Proof.Machine.execTagReadBinary n off len s
  | .tagUpdateBinary n => Sys2Proof.Machine.execTagUpdateBinary n s
  | .tagOtherCommand n deselect => Sys2Proof.Machine.execTagOtherCommand n deselect s
  | .tagFieldLoss n => Sys2Proof.Machine.execTagFieldLoss n s
  | .tagTransactionIdle n => Sys2Proof.Machine.execTagTransactionIdle n s
  | .tagCommit k v => Sys2Proof.Machine.execTagCommit k v s
  | .tagForcedSwap k => Sys2Proof.Machine.execTagForcedSwap k s
  | .outputOff x => Sys2Proof.Machine.execOutputOff x s
  | .outputClear x => Sys2Proof.Machine.execOutputClear x s
  | .outputTestPulse x sampleMv meanMa => Sys2Proof.Machine.execOutputTestPulse x sampleMv meanMa s
  | .outputTestPeriod x sampleMv meanMa => Sys2Proof.Machine.execOutputTestPeriod x sampleMv meanMa s
  | .coilPullInEnd n => Sys2Proof.Machine.execCoilPullInEnd n s
  | .outputCurrentLimit x => Sys2Proof.Machine.execOutputCurrentLimit x s
  | .outputLimitExit x => Sys2Proof.Machine.execOutputLimitExit x s
  | .outputThermalTrip x => Sys2Proof.Machine.execOutputThermalTrip x s
  | .outputRestartLevel x => Sys2Proof.Machine.execOutputRestartLevel x s
  | .outputRestartRetry x => Sys2Proof.Machine.execOutputRestartRetry x s
  | .outputWarningBand b => Sys2Proof.Machine.execOutputWarningBand b s
  | .outputSumOver sum => Sys2Proof.Machine.execOutputSumOver sum s
  | .outputCfgWrite x v => Sys2Proof.Machine.execOutputCfgWrite x v s
  | .outProtWrite v => Sys2Proof.Machine.execOutProtWrite v s
  | .rcWindowEnd n meanUv rmsUv => Sys2Proof.Machine.execRcWindowEnd n meanUv rmsUv s
  | .rcClear n => Sys2Proof.Machine.execRcClear n s
  | .rcCfgWrite n v => Sys2Proof.Machine.execRcCfgWrite n v s
  | .imHalfPeriodEnd k vp vn span => Sys2Proof.Machine.execImHalfPeriodEnd k vp vn span s
  | .imEnable k => Sys2Proof.Machine.execImEnable k s
  | .imDisable k => Sys2Proof.Machine.execImDisable k s
  | .imPause k => Sys2Proof.Machine.execImPause k s
  | .imResume k => Sys2Proof.Machine.execImResume k s
  | .imClear k => Sys2Proof.Machine.execImClear k s
  | .earthFaultFrame u => Sys2Proof.Machine.execEarthFaultFrame u s
  | .bridleRelease lockstepOk => Sys2Proof.Machine.execBridleRelease lockstepOk s
  | .lockstepMismatch => Sys2Proof.Machine.execLockstepMismatch s
  | .bridleWatchdogExpiry => Sys2Proof.Machine.execBridleWatchdogExpiry s
  | .bridleRestart codeOk configOk => Sys2Proof.Machine.execBridleRestart codeOk configOk s
  | .mirrorChange p high => Sys2Proof.Machine.execMirrorChange p high s
  | .mirrorOpenTimeout p => Sys2Proof.Machine.execMirrorOpenTimeout p s
  | .mirrorCloseTimeout p => Sys2Proof.Machine.execMirrorCloseTimeout p s
  | .tpStuckReport n => Sys2Proof.Machine.execTpStuckReport n s
  | .safetyInputChange n a b => Sys2Proof.Machine.execSafetyInputChange n a b s
  | .safetyInputDiscrepancy n => Sys2Proof.Machine.execSafetyInputDiscrepancy n s
  | .deviceMotionMonitor d m => Sys2Proof.Machine.execDeviceMotionMonitor d m s
  | .ss1Standstill d => Sys2Proof.Machine.execSs1Standstill d s
  | .ss1Timeout d => Sys2Proof.Machine.execSs1Timeout d s
  | .deviceMoveTimeout d => Sys2Proof.Machine.execDeviceMoveTimeout d s
  | .stoOffPulse n b readback => Sys2Proof.Machine.execStoOffPulse n b readback s
  | .stoDiscrepancy n => Sys2Proof.Machine.execStoDiscrepancy n s
  | .safeMessageReceive n onF1 d c x => Sys2Proof.Machine.execSafeMessageReceive n onF1 d c x s
  | .safeMessageWindowExpiry n => Sys2Proof.Machine.execSafeMessageWindowExpiry n s
  | .safeMessageTimeout n => Sys2Proof.Machine.execSafeMessageTimeout n s
  | .safeMessageTransmit j => Sys2Proof.Machine.execSafeMessageTransmit j s
  | .safeMessageReadbackMissing j onF1 => Sys2Proof.Machine.execSafeMessageReadbackMissing j onF1 s
  | .pilotRelease unit chal tag => Sys2Proof.Machine.execPilotRelease unit chal tag s
  | .earthRelease unit chal tag => Sys2Proof.Machine.execEarthRelease unit chal tag s
  | .current unit ma tag => Sys2Proof.Machine.execCurrent unit ma tag s
  | .stopReq unit tag => Sys2Proof.Machine.execStopReq unit tag s
  | .motionReq unit dir tag => Sys2Proof.Machine.execMotionReq unit dir tag s
  | .holdRelease unit chal tag => Sys2Proof.Machine.execHoldRelease unit chal tag s
  | .noteAck seq tag => Sys2Proof.Machine.execNoteAck seq tag s
  | .unknownSafeMessage ty tag => Sys2Proof.Machine.execUnknownSafeMessage ty tag s
  | .marchTest pass => Sys2Proof.Machine.execMarchTest pass s
  | .bridleCodeCheck pass => Sys2Proof.Machine.execBridleCodeCheck pass s
  | .inputPathTest u pass => Sys2Proof.Machine.execInputPathTest u pass s
  | .generate slot attr => Sys2Proof.Machine.execGenerate slot attr s
  | .importKey slot attr addr len role unwrapOk => Sys2Proof.Machine.execImportKey slot attr addr len role unwrapOk s
  | .derive slot parent labelAddr labelLen attr => Sys2Proof.Machine.execDerive slot parent labelAddr labelLen attr s
  | .delete slot role => Sys2Proof.Machine.execDelete slot role s
  | .publicKey slot addr => Sys2Proof.Machine.execPublicKey slot addr s
  | .sign slot addr => Sys2Proof.Machine.execSign slot addr s
  | .verify slot addr good => Sys2Proof.Machine.execVerify slot addr good s
  | .agree slot addr => Sys2Proof.Machine.execAgree slot addr s
  | .measure unit addr len => Sys2Proof.Machine.execMeasure unit addr len s
  | .successor addr => Sys2Proof.Machine.execSuccessor addr s
  | .confirm => Sys2Proof.Machine.execConfirm s
  | .random addr len => Sys2Proof.Machine.execRandom addr len s
  | .fuse field v => Sys2Proof.Machine.execFuse field v s
  | .decommission role v => Sys2Proof.Machine.execDecommission role v s
  | .manifestAccept role latigo m => Sys2Proof.Machine.execManifestAccept role latigo m s
  | .updateBlock b => Sys2Proof.Machine.execUpdateBlock b s
  | .updateAbandon v => Sys2Proof.Machine.execUpdateAbandon v s
  | .handover v => Sys2Proof.Machine.execHandover v s
  | .ldrTrialStart v => Sys2Proof.Machine.execLdrTrialStart v s
  | .ldrTrialStop v => Sys2Proof.Machine.execLdrTrialStop v s
  | .trialExpiry => Sys2Proof.Machine.execTrialExpiry s
  | .ethernetLinkChange port up => Sys2Proof.Machine.execEthernetLinkChange port up s
  | .gpioEdge n => Sys2Proof.Machine.execGpioEdge n s
  | .pllPRelock => Sys2Proof.Machine.execPllPRelock s
  | .vanaRelease => Sys2Proof.Machine.execVanaRelease s
  | .vdrvRelease => Sys2Proof.Machine.execVdrvRelease s
  | .canErrorPassive f => Sys2Proof.Machine.execCanErrorPassive f s
  | .appLaneEventFrame crcOk src => Sys2Proof.Machine.execAppLaneEventFrame crcOk src s
  | .retryWindowExpiry x => Sys2Proof.Machine.execRetryWindowExpiry x s

end Sys2Proof.Machine
end

