-- ==== Sys2Proof/Machine/Tick.lean ====
section
/-!
DEFINITION. A millisecond passes with no command waiting: the time bases and counters move on (DESIGN CHOICE, log 2).
Every other timed event of the manual is a command of its own.
-/
set_option Elab.async false
namespace Sys2Proof.Machine

/-- The power die's report rebuilds the PIL_ registers within 1 ms after a reset is released; events accepted during the
reset then raise their sources (07 R168). -/
def pilRebuild (s : State) : State :=
  if s.power.pilRebuilt || s.app.lane.fault || !s.power.clkOk then s
  else
    let late := (List.range 64).filter fun p => (s.pil p).evtLate
    let s1 := { s with power.pilRebuilt := true,
                       power.pilots := s.power.pilots.updAll late fun _ q => { q with evtLate := false } }
    late.foldl (fun t p => raise (48 + p) t) s1

/-- 1 ms of an engine at 800 MHz: while a context runs and the engine is not halted, its cycles count as not idle and the
handler budget, at most 20 000 cycles, is used up (05 R120; 09 R202). -/
def tickEngine (e : Nat) (s : State) : State :=
  match (s.app.eng.get e).running with
  | none => s
  | some k =>
    if s.engHalted e then s
    else countEvents 4 (8 * e + 4) 800000 (s.updCtx (32 * e + k) fun c => { c with left := 0 })

/-- The application domain's time: HT in ns, the watchdog's count, Harness cycles at 800 MHz with the gaps of every
target, the PIL_ registers' rebuilding and the engines (00 R8; 03 R70; 04 R82; 05 R120; 07 R168; 09 R202). -/
def tickApp (s : State) : State :=
  if s.inReset then s
  else (List.range 8).foldl (fun t e => tickEngine e t) <| countEvents 0 0 800000 (pilRebuild { s with
    app.clk.ht := s.app.clk.ht + 1000000,
    app.clk.wdCount := if s.app.clk.wdPeriod = 0 then s.app.clk.wdCount else s.app.clk.wdCount + 1,
    app.hrn := s.app.hrn.updAll (s.app.hrn.cells.map (·.1)) fun _ h => h.cycles 800000 })

/-- What a cold reset alone stops: the beacon grid at 25 MHz while PLL_P is locked, the Bridle's µs, and the
trial timer (08 R175, 15 R393, 16 R417). -/
def tickCold (s : State) : State :=
  if s.cold.coldHeld then s
  else { s with cold.grid := if s.app.clk.pllP then s.cold.grid else s.cold.grid + 25000,
                bridle.time := s.bridle.time + 1000,
                trial.remain := if s.trial.active then s.trial.remain - 1 else s.trial.remain }

/-- The legal time bases, in ms (00 R8, 12 R284). -/
def tickLegal (s : State) : State :=
  if s.die.legal.stopped then s
  else { s with die.legal.mtk := s.die.legal.mtk + 1, die.legal.lt := s.die.legal.lt + 1 }

/-- The power die releases PSQm_0 to PSQm_2 at the end of its 20 ms (13 R321). -/
def tickPsq (s : State) : State :=
  match s.power.psqDue with
  | none => s
  | some n =>
    if n ≤ 1 then { s with power.psq := s.power.psq &&& 0x88, power.psqDue := none }
    else { s with power.psqDue := some (n - 1) }

/-- The power die's time; OUT_MEAS_x is updated every 1 ms with what the channel measures: free values (14 R352, R367). -/
def tickMeas (s : State) : State :=
  if !s.power.clkOk then s
  else (List.range 96).foldl (fun t x => (t.updOut x fun o => { o with meas := t.freeBits 32 }).used)
    { s with power.ms := s.power.ms + 1 }

/-- The vehicle CAN ports' fault confinement (10 R241). -/
def tickVcan (s : State) : State := (List.range 8).foldl (fun t k => vcanConfine k t) s

/-- The Green PHY channels' frames (08 R177). -/
def tickPlc (s : State) : State := if s.inReset then s else (List.range 66).foldl (fun t n => plcAir n t) s

/-- One millisecond. -/
def tick (s : State) : State := tickPlc <| tickVcan <| canConfine 1 <| canConfine 0 <| tpdoPoll (tickMeas (tickPsq (tickLegal (tickCold (tickApp s)))))

end Sys2Proof.Machine
end

