-- ==== Sys2Proof/Safety.lean ====
section
/-!
DEFINITION. What counts as a safe run, in the terms the statements use.
-/
set_option Elab.async false
namespace Sys2Proof.Machine

/-- While the power die is in its safe state no output channel has its switch on (01 R25). -/
def OutsOff (s : State) : Prop :=
  s.power.safe = true → ∀ x, x < 96 → outIsOn (s.out x) = false

/-- The fuses of a part have at most been programmed further (16 R395): fields programmed at manufacture
stay, and the fields a command may program only gain. -/
structure FuseLe (a b : Fuses) : Prop where
  vendor : b.vendor = a.vendor
  serial : b.serial = a.serial
  mac : b.mac = a.mac
  roleOff : b.roleOff = a.roleOff
  prod : b.prod = a.prod
  mfg : b.mfg = a.mfg
  ptOff : b.ptOff = a.ptOff
  blkOff : b.blkOff = a.blkOff
  root : b.root = a.root
  huk : b.huk = a.huk
  pairing : b.pairing = a.pairing
  decom : a.decom = true → b.decom = true
  dbg : a.dbg &&& b.dbg = a.dbg
  svn : a.svn ≤ b.svn
  rrev : a.rrev &&& b.rrev = a.rrev
  safe : ∀ k, a.safe.get k &&& b.safe.get k = a.safe.get k

/-- What an application reset with a cause bit of RST_CAUSE leaves (03 R70, R74): the application domain at its
reset values and held, the cause and the count, the sealed die and what a cold reset clears as they were, and
every channel that was on still on. -/
structure AppReset (causeBit : Nat) (s t : State) : Prop where
  held : t.app.clk.appHeld = true
  cause : t.cold.cause = putBit s.cold.cause causeBit true
  count : t.cold.count = min 255 (s.cold.count + 1)
  contexts : t.app.ctx = ⟨{}, []⟩
  engines : t.app.eng = ⟨{}, []⟩
  girth : t.app.girth = {}
  memory : t.app.mem = ⟨0, []⟩
  sealed : t.die = s.die
  trial : t.trial = s.trial
  registers : t.coldMr = s.coldMr
  outputs : ∀ x, x < 96 → outIsOn (s.out x) = true → outIsOn (t.out x) = true

/-- What a cold reset leaves (03 R70): the control die's state at its reset values with the given causes, the sealed
die and the stored values as they were. -/
structure ColdReset (cause : BitVec 8) (s t : State) : Prop where
  cause : t.cold.cause = cause
  count : t.cold.count = 0
  contexts : t.app.ctx = ⟨{}, []⟩
  girth : t.app.girth = {}
  girthKinds : t.cold.kinds = ⟨{}, girthKinds⟩
  bridle : t.bridle = {}
  trial : t.trial = {}
  registers : t.coldMr = ⟨0, []⟩
  sealed : t.die = s.die
  stored : t.obj = s.obj

/-- A hart runs and takes the instruction word `w` at its pc, of `n` bytes, as its 32-bit form `i`: it does not
sleep, no interrupt is due, the fetch raises no exception (05 R99, R105), and no debugger steps it (05 R103). -/
structure Fetches (h : Nat) (w i : Word) (n : Nat) (s : State) : Prop where
  runs : s.hartRuns h = true
  awake : (s.core h).wfi = false
  quiet : s.interrupt h = none
  place : s.fetchFault h (s.hart h).pc n = none
  word : rvExpand (isCantle h) w = (some i, n)
  free : (s.debugs h && dbit ((s.core h).csr.get 0x7B0) 2) = false

end Sys2Proof.Machine

namespace Sys2Proof

/-- The commands that may change the sealed die: messages and requests carried over the sealed link, what its own
die meters, shows and keeps, its supplies, starts of the part, and the object accesses and requests of a vehicle that send such a request
(01 R20, R21). -/
def Instr.writesDie : Instr → Bool
  | .adcOverload .. | .bitstreamModfail .. | .blinkHalfPeriod .. | .blinkSet .. | .blockModeEntry ..
  | .blockModeReturn .. | .calendarActivateSet .. | .calendarActivation | .calendarWrite .. | .demandIntervalEnd
  | .elementCycleEnd .. | .gainRaise .. | .girthGrant .. | .harmonicWindowEnd .. | .keyAccept | .keyCancel
  | .keyDelete | .keyDigit .. | .keyStar | .keyStop | .keypadEntryTimeout | .latigoNotify .. | .latigoRead ..
  | .latigoSubscribe .. | .latigoWrite .. | .ledgerAgeOut | .legalClockStop | .legalCrystalFail
  | .legalLogArchive .. | .legalRegionGeometryWrite .. | .legalRegionRedraw .. | .linkAckReceive ..
  | .linkKeyAgreement .. | .ltSet .. | .maxDemandReset .. | .metrologyRead .. | .metrologyRefFail
  | .metrologyRefReturn | .offsetChangeScheduled | .offsetSet .. | .overlayFill .. | .overlayWrite ..
  | .paletteWrite .. | .panelClearRequestRetry .. | .panelDisable .. | .panelEnable .. | .panelFrameStart ..
  | .panelStartTimeout .. | .panelStatusQuery .. | .pendingCreditExpiry .. | .periodicCommit | .powerFailRelease
  | .powerFailWarning | .powerOnStart .. | .pulseDue .. | .pulseOnTimeEnd .. | .purseQuery .. | .recordClose ..
  | .recordCollectionAck .. | .recordOpen .. | .recordQuery .. | .recordSigned .. | .residueUpdate ..
  | .sdoDownloadSegment .. | .sdoInitiateDownload .. | .sdoInitiateUpload .. | .sealBorderAdvance ..
  | .sealCloseAbandon .. | .sealCloseCommit .. | .sealOpen .. | .sealParameterWrite .. | .sealTimeout
  | .sealedDieStart .. | .sealedLinkHeartbeat .. | .sealedLinkMessageReceive .. | .sealedLinkResendTimeout ..
  | .sealedLinkSilenceTimeout .. | .sealedObjectRead .. | .sealedObjectWrite .. | .sealedSupplyTrip ..
  | .sealedWatchdogExpiry | .sessionNoticeAuthorise .. | .sessionNoticeEnergyFlow ..
  | .sessionNoticeMeteringConfirmation .. | .sessionNoticePlug .. | .sessionNoticeStop .. | .shadowCheckEnd ..
  | .signedReading .. | .sliceEnd .. | .tariffSwitch | .temperatureBandSample .. | .terminalObjectRead ..
  | .terminalObjectWrite .. | .tokenKeyChange .. | .tokenLockoutEnd | .usdoRequest .. | .v2gRequest ..
  | .vbatSample .. | .warmStart .. => true
  | _ => false

/-- The commands that may change the Bridle: its own checks, messages, inputs and devices, the lane and the faults that
it records, resets that start its hold window or stop an engine, starts of the part, and the bus or object accesses to
what it takes from the application domain (01 R17). -/
def Instr.writesBridle : Instr → Bool
  | .appLaneCommand .. | .appResetRequest .. | .bridleCodeCheck .. | .bridleOscFail | .bridleRelease ..
  | .bridleRestart .. | .bridleWatchdogExpiry | .current .. | .debugAccess .. | .deliveryTimeout ..
  | .deviceMotionMonitor .. | .deviceMoveTimeout .. | .earthFaultFrame .. | .earthRelease .. | .engineReset ..
  | .engineRun .. | .girthGrant .. | .handover .. | .holdRelease .. | .holdWindowExpiry | .inputPathTest ..
  | .instruction .. | .jtagResetRequest | .latigoWrite .. | .lockstepMismatch | .mainRefFail | .marchTest ..
  | .measure .. | .mirrorChange .. | .mirrorCloseTimeout .. | .mirrorOpenTimeout .. | .motionReq .. | .noteAck ..
  | .pilotFaultFrame .. | .pilotRelease .. | .pilotSupplyTrip .. | .pllChUnlock .. | .powerOnStart .. | .reclaim ..
  | .registerWrite .. | .resetPin | .safeMessageReadbackMissing .. | .safeMessageReceive ..
  | .safeMessageTimeout .. | .safeMessageTransmit .. | .safeMessageWindowExpiry .. | .safetyInputChange ..
  | .safetyInputDiscrepancy .. | .sdoDownloadSegment .. | .sdoInitiateDownload .. | .shutdownCurrentTimeout ..
  | .shutdownLockRelease .. | .ss1Standstill .. | .ss1Timeout .. | .stoDiscrepancy .. | .stoOffPulse ..
  | .stopReq .. | .timerCompareMatch .. | .tpStuckReport .. | .trialExpiry | .unknownSafeMessage ..
  | .updateAbandon .. | .updateBlock .. | .usdoRequest .. | .vcoreTrip | .vioTrip | .warmStart .. | .watchdogExpiry => true
  | _ => false

/-- The commands that may change the power die: lane frames and their faults, what the die itself switches, measures and
hears, its supplies, grants that turn a unit on, resets and starts that reach it, the holds of the Bridle and its
failures, what a vehicle or the host decides of a session's energy, what the sealed link answers, and the bus or object
accesses to its window (01 R22 to R26; 14 R367). -/
def Instr.writesPower : Instr → Bool
  | .appLaneCommand .. | .appResetRequest .. | .authorizationReq .. | .authorizationSetupReq ..
  | .bridleCodeCheck .. | .bridleHeartbeat .. | .bridleOscFail | .bridleRelease .. | .bridleRestart ..
  | .bridleWatchdogExpiry | .cardBlockReceive .. | .cardFwtExpiry .. | .certificateInstallationReq ..
  | .coilPullInEnd .. | .current .. | .debugAccess .. | .deviceMotionMonitor .. | .deviceMoveTimeout ..
  | .earthFaultFrame .. | .earthRelease .. | .engineReset .. | .engineRun .. | .girthGrant .. | .handover ..
  | .holdRelease .. | .holdWindowExpiry | .hostDecision .. | .hostDecisionTimeout .. | .imClear .. | .imDisable ..
  | .imEnable .. | .imHalfPeriodEnd .. | .imPause .. | .imResume .. | .inputPathTest .. | .instruction ..
  | .jtagResetRequest | .latigoWrite .. | .linkAckReceive .. | .linkKeyAgreement .. | .lockstepMismatch
  | .mainRefFail | .marchTest .. | .mirrorChange .. | .mirrorCloseTimeout .. | .mirrorOpenTimeout ..
  | .motionReq .. | .offWaitExpiry .. | .ongoingTimeExpiry .. | .outProtWrite .. | .outPsqWrite ..
  | .outputCfgWrite .. | .outputClear .. | .outputCurrentLimit .. | .outputLimitExit .. | .outputOff ..
  | .outputRestartLevel .. | .outputRestartRetry .. | .outputSumOver .. | .outputTestPeriod ..
  | .outputTestPulse .. | .outputThermalTrip .. | .outputWarningBand .. | .panelDisable .. | .panelEnable ..
  | .panelFrameStart .. | .panelStartTimeout .. | .pilTsRead .. | .pilotCfgWrite .. | .pilotCommand ..
  | .pilotFaultFrame .. | .pilotPeriodStart | .pilotPeriodTrim .. | .pilotPlateauEvaluation .. | .pilotRelease ..
  | .pilotSupplyRelease .. | .pilotSupplyTrip .. | .pilotWake .. | .pilotWakeEnd .. | .pllChUnlock ..
  | .powerDeliveryStart .. | .powerDieClockFail | .powerDieClockReturn | .powerDieReset | .powerFailRelease
  | .powerFailWarning | .powerOnStart .. | .proximityMeasurement .. | .rcCfgWrite .. | .rcClear ..
  | .rcWindowEnd .. | .readerAbort .. | .readerExchange .. | .readerExchangeTimeout .. | .readerFieldIdle ..
  | .readerFieldOff .. | .readerModeWrite .. | .readerMultiRepoll .. | .readerPing .. | .readerPoll ..
  | .readerPollCycle .. | .registerWrite .. | .resetPin | .retryWindowExpiry .. | .safeMessageReceive ..
  | .safeMessageTimeout .. | .safeStateRelease | .safeStateReport | .safetyInputChange ..
  | .safetyInputDiscrepancy .. | .safetyLaneCommand .. | .safetyLaneHeartbeatLoss | .sdoDownloadSegment ..
  | .sdoInitiateDownload .. | .sealedLinkHeartbeat .. | .sealedLinkMessageReceive .. | .sealedLinkPop ..
  | .sealedLinkResendTimeout .. | .sealedLinkSilenceTimeout .. | .sequenceSignalChange .. | .sesDone ..
  | .sesFree .. | .sesRestart .. | .sesSetrole .. | .sesStart .. | .shutdownCurrentTimeout ..
  | .shutdownLockRelease .. | .ss1Standstill .. | .ss1Timeout .. | .stoDiscrepancy .. | .stoOffPulse ..
  | .stopReq .. | .supportedAppProtocolReq .. | .tagActivation .. | .tagCommit .. | .tagFieldEntry ..
  | .tagFieldLoss .. | .tagForcedSwap .. | .tagOtherCommand .. | .tagReadBinary .. | .tagSelect ..
  | .tagTransactionIdle .. | .tagUpdateBinary .. | .terminalObjectWrite .. | .tpStuckReport .. | .trialExpiry
  | .updateAbandon .. | .updateBlock .. | .usdoRequest .. | .v2gRequest .. | .v2gSequenceTimeout ..
  | .v2gSetupTimeout .. | .v2gTlsHandshake .. | .v2gtpMessage .. | .vcanFirstFrameTimeout .. | .vcanFrame ..
  | .vcanFrameTimeout .. | .vcoreTrip | .vdrvRelease | .vdrvTrip | .vioTrip | .vloadRelease | .vloadTrip ..
  | .warmStart .. | .watchdogExpiry => true
  | _ => false

end Sys2Proof
end

