-- ==== Sys2Proof/Certificates/Slice0/Obligations.lean ====
section
/-!
DEFINITION. The statements about the block that are given to the provers.
-/
set_option Elab.async false
open Sys2Proof Sys2Proof.Machine

/-- Of the requests whose address lies at the target and whose port is not its private one, the target grants what
its decision picks, whatever the ECC outcome, and every other target stays as it was. Where one of them is a
SAFE request, not a test, whose port is eligible again, a SAFE port is granted; where all are of classes RT and
BULK, the next port of the main rotation after the one granted last. HRN_WAITMAX_READ returns the longest wait
with its port, clears both and leaves every other target as it was. A selection that R120 lists is taken into
PMC_SEL_i, any other leaves it as it was. A snapshot copies every counter at once and counts itself, wrapping
at 16 bits. A counter that passes its largest value reads 0 and carries 1 into a chained successor; the top
counter of a chain sets OVF instead, reading 0 where no edge of source 500 is merged. A snapshot with TAKE 0
does nothing. -/
def Obligations.HarnessGrantsAndCounters : Prop :=
  (∀ (g : Fin 30) (reqs : List BurstReq) (e : Ecc) (s : State), ∃ t, exec (.harnessBurst g ⟨reqs, e⟩) s =
    .next t ∧ (t.app.hrn.get g).granted = (harnessPick (s.app.hrn.get g) (reqs.filter (BurstReq.atTarget
    g))).map (fun x => x.2.port.val) ∧ ∀ u, u ≠ g.val → t.app.hrn.get u = s.app.hrn.get u) ∧
  (∀ (g : Fin 30) (reqs : List BurstReq) (e : Ecc) (s : State), ((∃ r ∈ reqs, BurstReq.atTarget g r = true ∧
    isSafePort r.port = true ∧ isTestReq r = false ∧ safeEligible (s.app.hrn.get g) r.port = true)) → ∃ t, exec
    (.harnessBurst g ⟨reqs, e⟩) s = .next t ∧ ∃ p, (t.app.hrn.get g).granted = some p ∧ isSafePort p = true) ∧
  (∀ (g : Fin 30) (reqs : List BurstReq) (e : Ecc) (s : State), (reqs ≠ [] ∧ (∀ r ∈ reqs, BurstReq.atTarget g
    r = true ∧ isSafePort r.port = false ∧ isTestReq r = false)) → ∃ t, exec (.harnessBurst g ⟨reqs, e⟩) s =
    .next t ∧ (t.app.hrn.get g).granted = nextInRotation (s.app.hrn.get g).lastMain (reqs.map fun r =>
    r.port.val) ∧ (t.app.hrn.get g).granted ≠ none) ∧
  (∀ (g : Fin 30) (s : State), ∃ t, exec (.hrnWaitmaxRead g) s = .next t ∧ t.app.clk.busErr = false ∧
    t.app.clk.busData = pack [((s.app.hrn.get g).waitPort, 24), ((s.app.hrn.get g).waitMax, 0)] ∧
    (t.app.hrn.get g).waitMax = 0 ∧ (t.app.hrn.get g).waitPort = 0 ∧ ∀ u, u ≠ g.val → t.app.hrn.get u =
    s.app.hrn.get u) ∧
  (∀ (i : Fin 128) (v : Word) (s : State), pmcListed (fld v 8 8) (fld v 0 8) = true → ∃ t, exec (.pmcSelect i
    v) s = .next t ∧ (t.app.pmc.sel.get i).group = fld v 8 8 ∧ (t.app.pmc.sel.get i).index = fld v 0 8 ∧
    (t.app.pmc.sel.get i).chain = bit v 31 ∧ t.app.pmc.cnt = s.app.pmc.cnt) ∧
  (∀ (i : Fin 128) (v : Word) (s : State), pmcListed (fld v 8 8) (fld v 0 8) = false → ∃ t, exec (.pmcSelect i
    v) s = .next t ∧ t = s) ∧
  (∀ (v : Word) (s : State), bit v 0 = true → ∃ t, exec (.pmcSnapshot v) s = .next t ∧ t.app.pmc.snap =
    s.app.pmc.cnt ∧ t.app.pmc.taken = (s.app.pmc.taken + 1) % 65536 ∧ t.app.pmc.cnt = s.app.pmc.cnt) ∧
  (∀ (i : Fin 128) (s : State), s.app.pmc.cnt.get i < 2 ^ 32 ∧ (i.val = 127 ∨ (s.app.pmc.sel.get (i.val +
    1)).chain = false) ∧ (s.app.bkl.src.get 500).latch = false → ∃ t, exec (.counterWrap i) s = .next t ∧
    t.app.pmc.cnt.get i = 0 ∧ (t.app.pmc.sel.get i).ovf = true) ∧
  (∀ (i : Fin 128) (s : State), s.app.pmc.cnt.get i < 2 ^ 32 ∧ i.val < 127 ∧ (s.app.pmc.sel.get (i.val +
    1)).chain = true ∧ s.app.pmc.cnt.get (i.val + 1) < 2 ^ 32 - 1 → ∃ t, exec (.counterWrap i) s = .next t ∧
    t.app.pmc.cnt.get i = 0 ∧ t.app.pmc.cnt.get (i.val + 1) = s.app.pmc.cnt.get (i.val + 1) + 1) ∧
  (∀ (v : Word) (s : State), bit v 0 = false → ∃ t, exec (.pmcSnapshot v) s = .next t ∧ t = s)

/-- A request while Girth rebuilds is BUSY; a reserved kind, a unit out of range or too long a hold is RANGE; an
absent unit is ABSENT; a unit on, granted or queued is STATE; none of them queues anything. A request that
Girth accepts is OK: it is last in its class queue, with its kind, unit and port, under a ticket that its port
reads with STATE queued. GIRTH_GRANT takes the oldest request of its class off the queue once it fits or its
predicted time has come; a kind whose start takes the ticket itself then is a grant in force with its hold
running, signalled granted. The ticket of a port that writes GIRTH_RELEASE has no part in force afterwards and
is not queued; at GIRTH_HOLD_EXPIRY the ticket has no transient part, at UNIT_OFF_REPORT a unit that is off no
standing part, while one that is on keeps it; grants of others keep their parts. A grant of any kind whose
request fits does what the granting of that request does, with the request off the queue. With nothing queued
in its class, or its oldest request neither fitting nor at its predicted time, GIRTH_GRANT does nothing. -/
def Obligations.GirthAdmissionAndGrants : Prop :=
  (∀ (p : Fin 24) (v : Word) (s : State), s.app.girth.rebuilding = true → ∃ t, exec (.girthRequest p v) s =
    .next t ∧ (t.app.girth.ports.get p).status = statusCode .busy ∧ (t.app.girth.ports.get p).ticket = 0 ∧
    t.app.girth.queue = s.app.girth.queue) ∧
  (∀ (p : Fin 24) (v : Word) (s : State), s.app.girth.rebuilding = false ∧ (10 < fld v 28 4 ∨ girthUnits (fld
    v 28 4) ≤ fld v 16 8 ∨ (s.cold.kinds.get (fld v 28 4)).maxHold < fld v 0 16) → ∃ t, exec (.girthRequest p
    v) s = .next t ∧ (t.app.girth.ports.get p).status = statusCode .range ∧ (t.app.girth.ports.get p).ticket =
    0 ∧ t.app.girth.queue = s.app.girth.queue) ∧
  (∀ (p : Fin 24) (v : Word) (s : State), s.app.girth.rebuilding = false ∧ fld v 28 4 ≤ 10 ∧ fld v 16 8 <
    girthUnits (fld v 28 4) ∧ fld v 0 16 ≤ (s.cold.kinds.get (fld v 28 4)).maxHold ∧ s.unitAbsent (fld v 28 4)
    (fld v 16 8) = true → ∃ t, exec (.girthRequest p v) s = .next t ∧ (t.app.girth.ports.get p).status =
    statusCode .absent ∧ (t.app.girth.ports.get p).ticket = 0 ∧ t.app.girth.queue = s.app.girth.queue) ∧
  (∀ (p : Fin 24) (v : Word) (s : State), s.app.girth.rebuilding = false ∧ fld v 28 4 ≤ 10 ∧ fld v 16 8 <
    girthUnits (fld v 28 4) ∧ fld v 0 16 ≤ (s.cold.kinds.get (fld v 28 4)).maxHold ∧ s.unitAbsent (fld v 28 4)
    (fld v 16 8) = false ∧ s.unitTaken (fld v 28 4) (fld v 16 8) = true → ∃ t, exec (.girthRequest p v) s =
    .next t ∧ (t.app.girth.ports.get p).status = statusCode .state ∧ (t.app.girth.ports.get p).ticket = 0 ∧
    t.app.girth.queue = s.app.girth.queue) ∧
  (∀ (p : Fin 24) (v : Word) (r : GirthReq) (s : State), (girthAccept p (s.runningSlot p) (fld v 28 4) (fld v
    16 8) (fld v 0 16) s).1 = .ok ∧ (girthAccept p (s.runningSlot p) (fld v 28 4) (fld v 16 8) (fld v 0 16)
    s).2.2 = some r → ∃ t, exec (.girthRequest p v) s = .next t ∧ (t.app.girth.ports.get p).status = statusCode
    .ok ∧ (t.app.girth.ports.get p).state = 1 ∧ (t.app.girth.ports.get p).ticket = r.ticket ∧
    t.app.girth.queue.get (s.cold.kinds.get (fld v 28 4)).cls = s.app.girth.queue.get (s.cold.kinds.get (fld v
    28 4)).cls ++ [r] ∧ r.kind = fld v 28 4 ∧ r.unit = fld v 16 8 ∧ r.port = p.val) ∧
  (∀ (c : Fin 3) (r : GirthReq) (q : List GirthReq) (s : State), s.app.girth.queue.get c = r :: q ∧ (s.fitsNow
    s.app.girth.dissEff r = true ∨ (r.pred ≤ s.ht ∧ s.hardCap r.kind = true)) ∧ sendsOn r.kind = false ∧ r.kind
    ≠ 6 ∧ r.gone = false ∧ r.port < 24 → ∃ t, exec (.girthGrant c) s = .next t ∧ t.app.girth.queue.get c = q ∧
    (∃ g ∈ t.app.girth.grants, g.ticket = r.ticket ∧ g.kind = r.kind ∧ g.unit = r.unit ∧ g.holdEnd = s.ht +
    r.hold * 1000000) ∧ (r.ticket ≠ 0 → (s.app.girth.ports.get r.port).ticket = r.ticket →
    (t.app.girth.ports.get r.port).state = 2)) ∧
  (∀ (p : Fin 24) (v : Word) (s : State), fld v 0 16 ≠ 0 → ∃ t, exec (.girthRelease p v) s = .next t ∧ (∀ g ∈
    t.app.girth.grants, ¬(g.ticket = fld v 0 16 ∧ g.port = p.val)) ∧ (∀ c, c < 3 → ∀ r ∈ t.app.girth.queue.get
    c, ¬(r.ticket = fld v 0 16 ∧ r.port = p.val)) ∧ (∀ g ∈ s.app.girth.grants, (g.ticket ≠ fld v 0 16 ∨ g.port
    ≠ p.val) → (g.tIn = true ∨ g.sIn = true) → g ∈ t.app.girth.grants)) ∧
  (∀ (k : BitVec 16) (s : State), k ≠ 0 → ∃ t, exec (.girthHoldExpiry k) s = .next t ∧ (∀ g ∈
    t.app.girth.grants, g.ticket = k.toNat → g.tIn = false) ∧ (∀ g ∈ s.app.girth.grants, g.ticket ≠ k.toNat →
    (g.tIn = true ∨ g.sIn = true) → g ∈ t.app.girth.grants) ∧ t.app.girth.queue = s.app.girth.queue) ∧
  (∀ (c : Fin 3) (r : GirthReq) (q : List GirthReq) (s : State), s.app.girth.queue.get c = r :: q ∧ (s.fitsNow
    s.app.girth.dissEff r = true ∨ (r.pred ≤ s.ht ∧ s.hardCap r.kind = true)) → ∃ t, exec (.girthGrant c) s =
    .next t ∧ t = girthGrantReq r { s with app.girth.queue := s.app.girth.queue.set c q }) ∧
  (∀ (k : Fin 16) (u : Nat) (s : State), s.unitOn k u = false → ∃ t, exec (.unitOffReport k u) s = .next t ∧
    (∀ g ∈ t.app.girth.grants, g.kind = k.val → g.unit = u → g.sIn = false) ∧ (∀ g ∈ s.app.girth.grants,
    (g.kind ≠ k.val ∨ g.unit ≠ u) → (g.tIn = true ∨ g.sIn = true) → g ∈ t.app.girth.grants) ∧ t.app.girth.queue
    = s.app.girth.queue) ∧
  (∀ (k : Fin 16) (u : Nat) (s : State), s.unitOn k u = true → ∃ t, exec (.unitOffReport k u) s = .next t ∧ t
    = s) ∧
  (∀ (c : Fin 3) (s : State), s.app.girth.queue.get c = [] → ∃ t, exec (.girthGrant c) s = .next t ∧ t = s) ∧
  (∀ (c : Fin 3) (r : GirthReq) (q : List GirthReq) (s : State), s.app.girth.queue.get c = r :: q ∧ s.fitsNow
    s.app.girth.dissEff r = false ∧ (s.ht < r.pred ∨ s.hardCap r.kind = false) → ∃ t, exec (.girthGrant c) s =
    .next t ∧ t = s)

/-- A sample above DERATE_T lowers the dissipation total by DERATE_STEP for each whole degree. A share write that
would exceed a budget total changes no share and sets CFG_ERR; one within the totals is taken; while
GRT_CTRL.LOCK is set it changes nothing. After a reset the rebuild enters the units that are on with their
standing parts and ends the BUSY span. GRT_BYPASS_READ returns the count and clears it. A rebuild in reset, or
when none is due, does nothing. -/
def Obligations.GirthSettings : Prop :=
  (∀ (k : Int) (s : State), ∃ t, exec (.girthDerateSample k) s = .next t ∧ t.app.girth.dissEff = 270 -
    s.cold.derateStep * (k - (s.cold.derateT : Int)).toNat ∧ t.app.girth.grants = s.app.girth.grants) ∧
  (∀ (c : Fin 3) (v : Word) (s : State), s.cold.grtLock = false ∧ sharesOk (s.cold.share.set c (v &&&
    0x3FFFFFFF)) = false → ∃ t, exec (.girthShareWrite c v) s = .next t ∧ t.cold.share = s.cold.share ∧
    t.cold.grtCfgErr = true) ∧
  (∀ (c : Fin 3) (v : Word) (s : State), s.cold.grtLock = false ∧ sharesOk (s.cold.share.set c (v &&&
    0x3FFFFFFF)) = true → ∃ t, exec (.girthShareWrite c v) s = .next t ∧ t.cold.share = s.cold.share.set c (v
    &&& 0x3FFFFFFF) ∧ t.cold.grtCfgErr = s.cold.grtCfgErr) ∧
  (∀ (c : Fin 3) (v : Word) (s : State), s.cold.grtLock = true → ∃ t, exec (.girthShareWrite c v) s = .next t
    ∧ t = s) ∧
  (∀ (s : State), s.app.girth.rebuilding = true ∧ s.inReset = false → ∃ t, exec .girthRebuild s = .next t ∧
    t.app.girth.rebuilding = false ∧ (∀ x ∈ s.unitsOn, ∃ g ∈ t.app.girth.grants, g.kind = x.1 ∧ g.unit = x.2 ∧
    g.sIn = true) ∧ t.app.girth.queue = s.app.girth.queue) ∧
  (∀ (s : State), ∃ t, exec .grtBypassRead s = .next t ∧ t.app.clk.busData = BitVec.ofNat 32
    s.app.girth.bypass ∧ t.app.clk.busErr = false ∧ t.app.girth.bypass = 0) ∧
  (∀ (s : State), s.app.girth.rebuilding = false ∨ s.inReset = true → ∃ t, exec .girthRebuild s = .next t ∧ t
    = s)

/-- In native mode a claim at a target with something eligible returns the eligible source of the highest level and
lowest number, sets INSVC and clears its latch; with nothing eligible, at the target of an engine or in KX7064
mode it returns 0. A completion clears INSVC of a source in service for that target and changes no other
source. An edge on an unlatched source sets its latch; a level source follows its level; BKL_PENDCLR clears the
latches of the edge sources it names. A completion of another target's source, of one not in service, at an
engine's target or in KX7064 mode does nothing. A reserved source takes no edge. BKL_CFG: a mode change with no
source in service is taken and restarts the vector search; with one in service the mode stays and CFG_ERR is
set. In KX7064 mode BKL_C_VEC returns the next eligible source after the last one returned and a read of
BKL_C_PEND is recorded for its port; with GUARD set a write clears the latch only of sources that the port has
seen pending. When the clock starts for a captured source with WAKE set, every core that such a source targets
wakes; with the clock running, SLEEP_LATCH_WAKE does nothing. In native mode BKL_C_PEND cannot be written, and
BKL_C_VEC returns 0 outside KX7064 mode and at the engines' targets. -/
def Obligations.BuckleSources : Prop :=
  (∀ (g : Fin 18) (s : State), g.val < 10 ∧ s.app.bkl.kx = false ∧ s.claimable g ≠ 0 ∧ s.claimable g ≠ 500 → ∃
    t, exec (.buckleClaim g) s = .next t ∧ t.app.clk.busData = BitVec.ofNat 32 (s.claimable g) ∧
    (t.app.bkl.src.get (s.claimable g)).insvc = true ∧ (t.app.bkl.src.get (s.claimable g)).latch = false) ∧
  (∀ (g : Fin 18) (s : State), 10 ≤ g.val ∨ s.app.bkl.kx = true ∨ s.claimable g = 0 → ∃ t, exec (.buckleClaim
    g) s = .next t ∧ t.app.clk.busData = 0 ∧ t.app.bkl = s.app.bkl) ∧
  (∀ (g : Fin 18) (v : Word) (s : State), g.val < 10 ∧ s.app.bkl.kx = false ∧ (s.app.bkl.src.get (fld v 0
    9)).insvc = true ∧ (s.app.bkl.src.get (fld v 0 9)).target = g.val → ∃ t, exec (.buckleComplete g v) s =
    .next t ∧ (t.app.bkl.src.get (fld v 0 9)).insvc = false ∧ ∀ n, n ≠ fld v 0 9 → t.app.bkl.src.get n =
    s.app.bkl.src.get n) ∧
  (∀ (n : Fin 512) (s : State), isReserved n = false ∧ isLevel n = false ∧ s.inReset = false ∧ s.gated = false
    ∧ (s.app.bkl.src.get n).latch = false → ∃ t, exec (.buckleSourceEdge n) s = .next t ∧ (t.app.bkl.src.get
    n).latch = true ∧ (t.app.bkl.src.get n).ovr = (s.app.bkl.src.get n).ovr) ∧
  (∀ (n : Fin 512) (s : State), isReserved n = false ∧ isLevel n = false ∧ s.inReset = false ∧ s.gated = false
    ∧ (s.app.bkl.src.get n).latch = true ∧ n.val ≠ 500 → ∃ t, exec (.buckleSourceEdge n) s = .next t ∧
    (t.app.bkl.src.get n).latch = true ∧ (t.app.bkl.src.get n).ovr = true) ∧
  (∀ (n : Fin 512) (b : Bool) (s : State), isReserved n = false ∧ isLevel n = true → ∃ t, exec
    (.buckleLevelChange n b) s = .next t ∧ (t.app.bkl.src.get n).lvl = b ∧ ∀ k, k ≠ n.val → t.app.bkl.src.get k
    = s.app.bkl.src.get k) ∧
  (∀ (k : Fin 16) (v : Word) (s : State), ∃ t, exec (.bucklePendClear k v) s = .next t ∧ (∀ i, i < 32 →
    v.getLsbD i = true → isReserved (32 * k + i) = false → isLevel (32 * k + i) = false → (t.app.bkl.src.get
    (32 * k + i)).latch = false) ∧ ∀ n, (t.app.bkl.src.get n).insvc = (s.app.bkl.src.get n).insvc) ∧
  (∀ (v : Word) (s : State), s.inReset = false ∧ s.gated = false → ∃ t, exec (.buckleSoftwareSet v) s = .next
    t ∧ ∀ i, i < 8 → v.getLsbD i = true → (t.app.bkl.src.get (504 + i)).latch = true) ∧
  (∀ (g : Fin 18) (v : Word) (s : State), 10 ≤ g.val ∨ s.app.bkl.kx = true ∨ (s.app.bkl.src.get (fld v 0
    9)).insvc = false ∨ (s.app.bkl.src.get (fld v 0 9)).target ≠ g.val → ∃ t, exec (.buckleComplete g v) s =
    .next t ∧ t = s) ∧
  (∀ (v : Word) (s : State), s.app.bkl.lock = false ∧ s.anyInService = false → ∃ t, exec (.buckleCfgWrite v) s
    = .next t ∧ t.app.bkl.kx = bit v 0 ∧ (bit v 0 ≠ s.app.bkl.kx → t.app.bkl.vec = ⟨0, []⟩) ∧ t.app.bkl.src =
    s.app.bkl.src) ∧
  (∀ (v : Word) (s : State), s.app.bkl.lock = false ∧ s.anyInService = true ∧ bit v 0 ≠ s.app.bkl.kx → ∃ t,
    exec (.buckleCfgWrite v) s = .next t ∧ t.app.bkl.kx = s.app.bkl.kx ∧ t.app.bkl.cfgErr = true) ∧
  (∀ (g : Fin 18) (s : State), s.kxTarget g = true → ∃ t, exec (.buckleCVecRead g) s = .next t ∧
    t.app.clk.busData = BitVec.ofNat 32 (s.kxNext g) ∧ (s.kxNext g ≠ 0 → t.app.bkl.vec.get g = s.kxNext g) ∧
    t.app.bkl.src = s.app.bkl.src) ∧
  (∀ (p : Fin 24) (k : Fin 16) (s : State), ∃ t, exec (.buckleCPendRead p k) s = .next t ∧ t.app.clk.busData =
    s.pendWord k ∧ t.app.bkl.src = s.app.bkl.src ∧ (s.app.bkl.kx = true → t.app.bkl.lastRead.get (16 * p + k) =
    s.pendWord k)) ∧
  (∀ (p : Fin 24) (k : Fin 16) (v : Word) (s : State), s.app.bkl.kx = true ∧ s.app.bkl.guard = true → ∃ t,
    exec (.buckleCPendWrite p k v) s = .next t ∧ t = clearLatches k (~~~v &&& s.app.bkl.lastRead.get (16 * p +
    k)) s) ∧
  (∀ (p : Fin 24) (k : Fin 16) (v : Word) (s : State), s.app.bkl.kx = true ∧ s.app.bkl.guard = false → ∃ t,
    exec (.buckleCPendWrite p k v) s = .next t ∧ t = clearLatches k (~~~v) s) ∧
  (∀ (n : Fin 512) (s : State), s.gated = true ∧ s.waking.contains n.val = true → ∃ t, exec (.sleepLatchWake
    n) s = .next t ∧ (∀ m ∈ s.waking, (s.app.bkl.src.get m).target < 10 → (t.app.harts.get (targetHart
    (s.app.bkl.src.get m).target)).wfi = false) ∧ t.app.mbx = s.app.mbx ∧ t.power = s.power) ∧
  (∀ (n : Fin 512) (s : State), s.gated = false → ∃ t, exec (.sleepLatchWake n) s = .next t ∧ t = s) ∧
  (∀ (p : Fin 24) (k : Fin 16) (v : Word) (s : State), s.app.bkl.kx = false → ∃ t, exec (.buckleCPendWrite p k
    v) s = .next t ∧ t = s) ∧
  (∀ (g : Fin 18) (s : State), s.kxTarget g = false → ∃ t, exec (.buckleCVecRead g) s = .next t ∧ t = busOk 0
    s)

/-- A commit to a pair mailbox by its writer appends the eight words and counts the sequence, or, when eight wait,
ends in a bus error with the queue unchanged; a remove takes the oldest message. A free hub mailbox with room
gives its slot to the port that asks and refuses others with STATE; the holder commits sixteen words in order
and frees it, or releases it; the Keeper frees a slot held too long and says so; only the configured reader
removes. A commit by another port than the writer is a bus error and nothing else, a read of an empty mailbox
gives 0; a free hub mailbox that is full answers BUSY; a hub write of a port that does not hold the slot is
counted and dropped, its release does nothing; a timeout of a free slot does nothing. -/
def Obligations.Mailboxes : Prop :=
  (∀ (p : Fin 24) (m : Fin 20) (v : Word) (s : State), s.pairWriter m = p.val ∧ (s.app.mbx.pair.get
    m).queue.length < 8 → ∃ t, exec (.pairMailboxCommit p m v) s = .next t ∧ (t.app.mbx.pair.get m).queue =
    (s.app.mbx.pair.get m).queue ++ [staged8 (s.app.mbx.pair.get m).staged v] ∧ (t.app.mbx.pair.get m).seq =
    ((s.app.mbx.pair.get m).seq + 1) % 65536 ∧ t.app.clk.busErr = false) ∧
  (∀ (p : Fin 24) (m : Fin 20) (v : Word) (s : State), s.pairWriter m = p.val ∧ 8 ≤ (s.app.mbx.pair.get
    m).queue.length → ∃ t, exec (.pairMailboxCommit p m v) s = .next t ∧ (t.app.mbx.pair.get m).queue =
    (s.app.mbx.pair.get m).queue ∧ (t.app.mbx.pair.get m).busErr = true ∧ t.app.clk.busErr = true) ∧
  (∀ (p : Fin 24) (m : Fin 20) (g : List Word) (r : List (List Word)) (s : State), (s.app.mbx.pair.get
    m).queue = g :: r → ∃ t, exec (.pairMailboxRemove p m) s = .next t ∧ (t.app.mbx.pair.get m).queue = r ∧
    t.app.clk.busData = g.getD 7 0) ∧
  (∀ (p : Fin 24) (m : Fin 8) (s : State), (s.app.mbx.hub.get m).holder = none ∧ (s.app.mbx.hub.get
    m).queue.length < 32 → ∃ t, exec (.hubMailboxAcquire p m) s = .next t ∧ (t.app.mbx.hub.get m).holder = some
    p.val ∧ t.app.clk.busData = pack [(p.val, 8), (statusCode .ok, 0)]) ∧
  (∀ (p : Fin 24) (m : Fin 8) (q : Nat) (s : State), (s.app.mbx.hub.get m).holder = some q ∧ q ≠ p.val → ∃ t,
    exec (.hubMailboxAcquire p m) s = .next t ∧ t.app.mbx = s.app.mbx ∧ t.app.clk.busData = pack [(q, 8),
    (statusCode .state, 0)]) ∧
  (∀ (p : Fin 24) (m : Fin 8) (v : Word) (s : State), (s.app.mbx.hub.get m).holder = some p.val → ∃ t, exec
    (.hubMailboxCommit p m v) s = .next t ∧ (t.app.mbx.hub.get m).queue = (s.app.mbx.hub.get m).queue ++
    [(List.range 15).map (s.app.mbx.hub.get m).staged.get ++ [v]] ∧ (t.app.mbx.hub.get m).holder = none) ∧
  (∀ (p : Fin 24) (m : Fin 8) (s : State), (s.app.mbx.hub.get m).holder = some p.val → ∃ t, exec
    (.hubMailboxRelease p m) s = .next t ∧ (t.app.mbx.hub.get m).holder = none ∧ (t.app.mbx.hub.get m).queue =
    (s.app.mbx.hub.get m).queue) ∧
  (∀ (m : Fin 8) (q : Nat) (s : State), (s.app.mbx.hub.get m).holder = some q → ∃ t, exec (.keeperTimeout m) s
    = .next t ∧ (t.app.mbx.hub.get m).holder = none ∧ (t.app.mbx.hub.get m).timeout = true ∧ (t.app.mbx.hub.get
    m).queue = (s.app.mbx.hub.get m).queue) ∧
  (∀ (p : Fin 24) (m : Fin 8) (g : List Word) (r : List (List Word)) (s : State), (s.app.mbx.hub.get m).queue
    = g :: r ∧ (s.app.mbx.hub.get m).reader = p.val → ∃ t, exec (.hubMailboxRemove p m) s = .next t ∧
    (t.app.mbx.hub.get m).queue = r ∧ t.app.clk.busData = g.getD 15 0) ∧
  (∀ (p : Fin 24) (m : Fin 8) (s : State), (s.app.mbx.hub.get m).reader ≠ p.val → ∃ t, exec (.hubMailboxRemove
    p m) s = .next t ∧ t.app.mbx = s.app.mbx ∧ t.app.clk.busData = 0) ∧
  (∀ (s : State), ∃ t, exec .mbxDroppedRead s = .next t ∧ t.app.clk.busData = pack [(b2n s.app.mbx.lock, 31),
    (s.app.mbx.dropped, 0)] ∧ t.app.mbx.dropped = 0) ∧
  (∀ (p : Fin 24) (m : Fin 20) (v : Word) (s : State), p.val ≠ s.pairWriter m → ∃ t, exec (.pairMailboxCommit
    p m v) s = .next t ∧ t = busFail s) ∧
  (∀ (p : Fin 24) (m : Fin 20) (s : State), (s.app.mbx.pair.get m).queue = [] → ∃ t, exec (.pairMailboxRemove
    p m) s = .next t ∧ t = busOk 0 s) ∧
  (∀ (p : Fin 24) (m : Fin 8) (s : State), (s.app.mbx.hub.get m).holder = none ∧ 32 ≤ (s.app.mbx.hub.get
    m).queue.length → ∃ t, exec (.hubMailboxAcquire p m) s = .next t ∧ t = busOk (pack [(0, 8), (statusCode
    .busy, 0)]) s) ∧
  (∀ (p : Fin 24) (m : Fin 8) (s : State), (s.app.mbx.hub.get m).holder = some p.val → ∃ t, exec
    (.hubMailboxAcquire p m) s = .next t ∧ t = busOk (pack [(p.val, 8), (statusCode .ok, 0)]) s) ∧
  (∀ (p : Fin 24) (m : Fin 8) (v : Word) (s : State), (s.app.mbx.hub.get m).holder ≠ some p.val → ∃ t, exec
    (.hubMailboxCommit p m v) s = .next t ∧ t = busOk 0
    { s with app.mbx.dropped := stick 65535 s.app.mbx.dropped 1 }) ∧
  (∀ (p : Fin 24) (m : Fin 8) (s : State), (s.app.mbx.hub.get m).holder ≠ some p.val → ∃ t, exec
    (.hubMailboxRelease p m) s = .next t ∧ t = s) ∧
  (∀ (m : Fin 8) (s : State), (s.app.mbx.hub.get m).holder = none → ∃ t, exec (.keeperTimeout m) s = .next t ∧
    t = s)

/-- While the lane carries commands: OUTPUT_OFF turns a channel off that is on or waits for a restart and leaves
any other as it was; OUTPUT_CLEAR takes a cool LATCHED channel to OFF with RETRIES and CAUSE 0, and of another
sets its clear-ignored event only. On a channel of a point not reclaimed both do nothing. At the end of PULL_T
a coil in PULL_IN is ON; a current limit takes PULL_IN and ON to LIMIT, its exit back to PULL_IN while the
pull-in runs, else to ON. A thermal trip of a channel in LATCH mode latches it with cause 1; of another it
waits for a restart. Other channels keep their state. The end of PULL_T of a coil that is not pulling, a
current limit in another state than PULL_IN and ON, an exit of a channel not in LIMIT and a thermal trip of a
channel that is off do nothing. When the switch has cooled, or 100 ms after a BUSY, a channel that waits with
no request queued latches with cause 2 once RETRIES has reached RETRY_MAX, and with cause 3 when Girth refuses
the request otherwise than by BUSY; an accepted request is queued. RETRY_WINDOW_EXPIRY drops the restarts older
than RETRY_WIN from the count; a LATCHED channel keeps it. OUTPUT_WARNING_BAND stores the warning or the band
and temperature; OUTPUT_SUM_OVER sets OVER above 24 A and leaves every channel alone. -/
def Obligations.OutputsAndRestarts : Prop :=
  (∀ (x : Fin 96) (s : State), s.app.lane.fault = false ∧ s.power.clkOk = true ∧ s.outBlocked x = false ∧
    (outIsOn (s.out x) = true ∨ (s.out x).st = .thermWait) → ∃ t, exec (.outputOff x) s = .next t ∧ (t.out
    x).st = .off ∧ (t.out x).restartQ = false ∧ ∀ y, y ≠ x.val → t.out y = s.out y) ∧
  (∀ (x : Fin 96) (s : State), s.app.lane.fault = false ∧ s.power.clkOk = true ∧ s.outBlocked x = false ∧
    (s.out x).st = .latched ∧ (s.out x).hot = false → ∃ t, exec (.outputClear x) s = .next t ∧ (t.out x).st =
    .off ∧ (t.out x).retries = 0 ∧ (t.out x).cause = 0 ∧ ∀ y, y ≠ x.val → t.out y = s.out y) ∧
  (∀ (x : Fin 96) (s : State), s.app.lane.fault = false ∧ s.power.clkOk = true ∧ s.outBlocked x = false ∧
    ¬((s.out x).st = .latched ∧ (s.out x).hot = false) → ∃ t, exec (.outputClear x) s = .next t ∧ (t.out x).st
    = (s.out x).st ∧ bit (t.out x).evt 11 = true) ∧
  (∀ (x : Fin 96) (s : State), s.app.lane.fault = false ∧ s.power.clkOk = true ∧ (s.outBlocked x = true ∨
    (outIsOn (s.out x) = false ∧ (s.out x).st ≠ .thermWait)) → ∃ t, exec (.outputOff x) s = .next t ∧ ∀ y,
    t.out y = s.out y) ∧
  (∀ (x : Fin 96) (s : State), s.app.lane.fault = false ∧ s.power.clkOk = true ∧ s.outBlocked x = true → ∃ t,
    exec (.outputClear x) s = .next t ∧ ∀ y, t.out y = s.out y) ∧
  (∀ (n : Fin 64) (s : State), (s.out n).pulling = true → ∃ t, exec (.coilPullInEnd n) s = .next t ∧ (t.out
    n).pulling = false ∧ ((s.out n).st = .pullIn → (t.out n).st = .on) ∧ ((s.out n).st ≠ .pullIn → (t.out n).st
    = (s.out n).st)) ∧
  (∀ (x : Fin 96) (s : State), (s.out x).st = .pullIn ∨ (s.out x).st = .on → ∃ t, exec (.outputCurrentLimit x)
    s = .next t ∧ (t.out x).st = .limit) ∧
  (∀ (x : Fin 96) (s : State), (s.out x).st = .limit → ∃ t, exec (.outputLimitExit x) s = .next t ∧ (t.out
    x).st = if (s.out x).pulling then .pullIn else .on) ∧
  (∀ (x : Fin 96) (s : State), outIsOn (s.out x) = true ∧ outLatchMode s (s.out x) = true → ∃ t, exec
    (.outputThermalTrip x) s = .next t ∧ (t.out x).st = .latched ∧ (t.out x).cause = 1 ∧ (t.out x).hot = true) ∧
  (∀ (x : Fin 96) (s : State), outIsOn (s.out x) = true ∧ outLatchMode s (s.out x) = false → ∃ t, exec
    (.outputThermalTrip x) s = .next t ∧ (t.out x).st = .thermWait ∧ (t.out x).hot = true ∧ outIsOn (t.out x) =
    false) ∧
  (∀ (n : Fin 64) (s : State), (s.out n).pulling = false → ∃ t, exec (.coilPullInEnd n) s = .next t ∧ t = s) ∧
  (∀ (x : Fin 96) (s : State), (s.out x).st ≠ .pullIn ∧ (s.out x).st ≠ .on → ∃ t, exec (.outputCurrentLimit x)
    s = .next t ∧ t = s) ∧
  (∀ (x : Fin 96) (s : State), (s.out x).st ≠ .limit → ∃ t, exec (.outputLimitExit x) s = .next t ∧ t = s) ∧
  (∀ (x : Fin 96) (s : State), outIsOn (s.out x) = false → ∃ t, exec (.outputThermalTrip x) s = .next t ∧ t =
    s) ∧
  (∀ (x : Fin 96) (s : State), (s.out x).st = .thermWait ∧ (s.out x).restartQ = false ∧ s.power.retryMax ≤
    (s.out x).retries → ∃ t, exec (.outputRestartLevel x) s = .next t ∧ (t.out x).st = .latched ∧ (t.out
    x).cause = 2) ∧
  (∀ (x : Fin 96) (s : State), (s.out x).st = .thermWait ∧ (s.out x).restartQ = false ∧ (s.out x).hot = false
    ∧ (s.out x).retries < s.power.retryMax ∧ (girthAccept restartPort none (outGirthKind x) (outUnit x) 0 s).1
    ≠ .ok ∧ (girthAccept restartPort none (outGirthKind x) (outUnit x) 0 s).1 ≠ .busy → ∃ t, exec
    (.outputRestartRetry x) s = .next t ∧ (t.out x).st = .latched ∧ (t.out x).cause = 3) ∧
  (∀ (x : Fin 96) (s : State), (s.out x).st = .thermWait ∧ (s.out x).restartQ = false ∧ (s.out x).hot = false
    ∧ (s.out x).retries < s.power.retryMax ∧ (girthAccept restartPort none (outGirthKind x) (outUnit x) 0 s).1
    = .ok → ∃ t, exec (.outputRestartRetry x) s = .next t ∧ (t.out x).restartQ = true ∧ t.app.girth =
    (girthAccept restartPort none (outGirthKind x) (outUnit x) 0 s).2.1.app.girth) ∧
  (∀ (x : Fin 96) (s : State), (s.out x).st ≠ .latched → ∃ t, exec (.retryWindowExpiry x) s = .next t ∧ (t.out
    x).restartAt = (s.out x).restartAt.filter (fun k => decide (s.power.ms < k + 1000 * s.power.retryWin)) ∧
    (t.out x).retries = (t.out x).restartAt.length ∧ (t.out x).st = (s.out x).st ∧ ∀ y, y ≠ x.val → t.out y =
    s.out y) ∧
  (∀ (x : Fin 96) (s : State), (s.out x).st = .latched → ∃ t, exec (.retryWindowExpiry x) s = .next t ∧ t = s) ∧
  (∀ (x : Fin 96) (w : Bool) (s : State), ∃ t, exec (.outputWarningBand (.switch x w)) s = .next t ∧ (t.out
    x).warn = w ∧ (t.out x).st = (s.out x).st) ∧
  (∀ (q : Fin 4) (k : BitVec 8) (s : State), ∃ t, exec (.outputWarningBand (.quadrant q k)) s = .next t ∧
    t.power.qtemp.get q = k ∧ t.power.qband.get q = quadBand (s.power.qband.get q) k.toInt ∧ ∀ x, t.out x =
    s.out x) ∧
  (∀ (v : Nat) (s : State), ∃ t, exec (.outputSumOver v) s = .next t ∧ t.power.sum = min 65535 v ∧ (2400 < v →
    t.power.sumOver = true) ∧ ∀ x, t.out x = s.out x)

/-- OUT_CFG_x takes a valid value in OFF or LATCHED and keeps its value otherwise, with CFG_ERR set; OUT_PROT takes
RUN and TEST, its window and limit until it is locked, and clearing RUN latches every channel that waits for a
restart. A test pulse on a channel ON of kind 0 or 1, not suspended, stores its sample and result; the periodic
test runs only where TP_PER is not 0. A test pulse or a periodic test of a channel not ON, of kind 2 or
suspended does nothing of its own. -/
def Obligations.OutputSettingsAndTests : Prop :=
  (∀ (x : Fin 96) (v : Word) (s : State), s.app.lane.fault = false ∧ s.power.clkOk = true ∧ ((s.out x).st =
    .off ∨ (s.out x).st = .latched) ∧ outCfgOk x (outCfgNext x (s.out x).cfg v) = true → ∃ t, exec
    (.outputCfgWrite x v) s = .next t ∧ (t.out x).cfg = outCfgNext x (s.out x).cfg v ∧ (t.out x).st = (s.out
    x).st) ∧
  (∀ (x : Fin 96) (v : Word) (s : State), s.app.lane.fault = false ∧ s.power.clkOk = true ∧ ((s.out x).st ≠
    .off ∧ (s.out x).st ≠ .latched ∨ outCfgOk x (outCfgNext x (s.out x).cfg v) = false) → ∃ t, exec
    (.outputCfgWrite x v) s = .next t ∧ (t.out x).cfg = (s.out x).cfg ∧ (t.out x).st = (s.out x).st ∧ bit
    (t.out x).evt 10 = true) ∧
  (∀ (v : Word) (s : State), s.app.lane.fault = false ∧ s.power.clkOk = true ∧ s.power.protLock = false ∧ fld
    v 8 4 ≠ 0 ∧ 10 ≤ fld v 16 8 ∧ s.power.run = false ∧ bit v 1 = false → ∃ t, exec (.outProtWrite v) s = .next
    t ∧ t.power.run = bit v 0 ∧ t.power.test = bit v 1 ∧ (t.power.retryMax = fld v 8 4) ∧ t.power.retryWin =
    fld v 16 8) ∧
  (∀ (v : Word) (s : State), s.app.lane.fault = false ∧ s.power.clkOk = true ∧ s.power.run = true ∧ bit v 0 =
    false → ∃ t, exec (.outProtWrite v) s = .next t ∧ ∀ x, x < 96 → (t.out x).st ≠ .thermWait) ∧
  (∀ (x : Fin 96) (a b : Int) (s : State), s.app.lane.fault = false ∧ s.power.clkOk = true ∧ s.outBlocked x =
    false ∧ (s.out x).st = .on ∧ outKind (s.out x) ≠ 2 ∧ testSuspended s x = false → ∃ t, exec
    (.outputTestPulse x a b) s = .next t ∧ (t.out x).tpRes = (testResult x (s.out x) a b).1 ∧ (t.out x).vtp =
    clampInt (-32768) 32767 a ∧ (t.out x).st = (s.out x).st) ∧
  (∀ (x : Fin 96) (a b : Int) (s : State), fld (s.out x).cfg 24 4 = 0 → ∃ t, exec (.outputTestPeriod x a b) s
    = .next t ∧ t = s) ∧
  (∀ (x : Fin 96) (a b : Int) (s : State), fld (s.out x).cfg 24 4 ≠ 0 ∧ (s.out x).st = .on ∧ outKind (s.out x)
    ≠ 2 ∧ testSuspended s x = false → ∃ t, exec (.outputTestPeriod x a b) s = .next t ∧ (t.out x).tpRes =
    (testResult x (s.out x) a b).1 ∧ (t.out x).st = (s.out x).st) ∧
  (∀ (x : Fin 96) (a b : Int) (s : State), fld (s.out x).cfg 24 4 ≠ 0 ∧ ((s.out x).st ≠ .on ∨ outKind (s.out
    x) = 2 ∨ testSuspended s x = true) → ∃ t, exec (.outputTestPeriod x a b) s = .next t ∧ t = s)

/-- VANA_TRIP moves every Green PHY channel and mains port to OFF; VLOAD_TRIP turns every coil and load off, and no
channel waits for a restart any more; PILOT_SUPPLY_TRIP disables the driver of every pilot. The releases of
VANA, VLOAD and VDRV end the condition and change no channel, no output and no line driver or reader field. The
release of a pilot rail ends its condition; with the other rail still out of range it changes no pilot,
otherwise it enables again every driver whose point had no pilot-supply fault. VDRV_TRIP turns every mains line
driver off. It rests also on the model's choices of assumption 63. -/
def Obligations.SupplyEvents : Prop :=
  (∀ (s : State), s.app.clk.vana = false → ∃ t, exec .vanaTrip s = .next t ∧ t.app.clk.vana = true ∧ ∀ n, n <
    66 → (t.plc n).on = false) ∧
  (∀ (s : State), ∃ t, exec .vanaRelease s = .next t ∧ t.app.clk.vana = false ∧ t.app.plc = s.app.plc) ∧
  (∀ (above : Bool) (s : State), ∃ t, exec (.vloadTrip above) s = .next t ∧ t.power.vload = true ∧ ∀ x, x < 96
    → outIsOn (t.out x) = false ∧ (t.out x).st ≠ .thermWait) ∧
  (∀ (s : State), ∃ t, exec .vloadRelease s = .next t ∧ t.power.vload = false ∧ ∀ x, t.out x = s.out x) ∧
  (∀ (neg : Bool) (s : State), (if neg then s.power.vpiln else s.power.vpilp) = false → ∃ t, exec
    (.pilotSupplyTrip neg) s = .next t ∧ t.pilotRail = false ∧ ∀ p, p < 64 → (t.pil p).supplyDis = true) ∧
  (∀ (neg : Bool) (s : State), ∃ t, exec (.pilotSupplyRelease neg) s = .next t ∧ (if neg then t.power.vpiln
    else t.power.vpilp) = false ∧ (if neg then t.power.vpilp else t.power.vpiln) = (if neg then s.power.vpilp
    else s.power.vpiln) ∧ (t.pilotRail = false → t.power.pilots = s.power.pilots) ∧ (∀ p, p < 64 → t.pilotRail
    = true → (s.pil p).supplyFault = false → (t.pil p).supplyDis = false)) ∧
  (∀ (s : State), ∃ t, exec .vdrvTrip s = .next t ∧ t.power.vdrv = true ∧ ∀ m, m < 2 → t.power.lines.getLsbD m
    = false) ∧
  (∀ (s : State), ∃ t, exec .vdrvRelease s = .next t ∧ t.power.vdrv = false ∧ t.power.lines = s.power.lines ∧
    t.power.fields = s.power.fields)

/-- POWER_FAIL_WARNING puts the warning in force and the running sealed die into its sequence with no commit landed
yet; POWER_FAIL_RELEASE ends both. A supply trip of the sealed die, or its watchdog while it runs, stops it and
keeps its legal time, its registers and its commits. A battery below 1.85 V is flagged and logged once, from
1.90 V on the flag falls. The legal clock stops only without VMCORE. A failed metrology reference suspends
accumulation and flags the open records, its return ends that; each is logged, as is a failed crystal. -/
def Obligations.PowerFailAndSealedSupply : Prop :=
  (∀ (s : State), s.power.pfin = false ∧ s.die.running = true → ∃ t, exec .powerFailWarning s = .next t ∧
    t.power.pfin = true ∧ t.die.pf = .warned ∧ t.die.pfSaved = false) ∧
  (∀ (s : State), s.power.pfin = true ∧ s.die.running = true → ∃ t, exec .powerFailRelease s = .next t ∧
    t.power.pfin = false ∧ t.die.pf = .released) ∧
  (∀ (v : Bool) (s : State), ∃ t, exec (.sealedSupplyTrip v) s = .next t ∧ t.die.running = false ∧
    t.die.inReset = true ∧ t.die.legal = s.die.legal ∧ t.die.saved = s.die.saved) ∧
  (∀ (s : State), ∃ t, exec .sealedWatchdogExpiry s = .next t ∧ t.die.running = false ∧ t.die.legal =
    s.die.legal ∧ t.die.saved = s.die.saved) ∧
  (∀ (mv : Nat) (s : State), s.die.running = true ∧ mv < 1850 ∧ s.die.legal.ltStat.getLsbD 1 = false ∧
    s.logFree ≠ 0 → ∃ t, exec (.vbatSample mv) s = .next t ∧ t.die.legal.ltStat.getLsbD 1 = true ∧
    t.die.legal.logNext = s.die.legal.logNext + 1) ∧
  (∀ (mv : Nat) (s : State), s.die.running = true ∧ 1900 ≤ mv → ∃ t, exec (.vbatSample mv) s = .next t ∧
    t.die.legal.ltStat.getLsbD 1 = false ∧ t.die.legal.log = s.die.legal.log) ∧
  (∀ (s : State), ∃ t, exec .legalClockStop s = .next t ∧ t.die.legal.stopped = if s.die.running then
    s.die.legal.stopped else true) ∧
  (∀ (s : State), s.die.running = true ∧ s.die.met.refFail = false → ∃ t, exec .metrologyRefFail s = .next t ∧
    t.die.met.refFail = true ∧ (∀ r ∈ t.die.cur.recs, r.st = .open → r.flags.getLsbD fGAP = true)) ∧
  (∀ (s : State), s.die.running = true → ∃ t, exec .metrologyRefReturn s = .next t ∧ t.die.met.refFail = false) ∧
  (∀ (s : State), s.die.running = true → ∃ t, exec .legalCrystalFail s = .next t ∧ t.die.legal.ltStat.getLsbD
    2 = true)

/-- RESET_PIN, RST_CTRL with its key and APP_RST, an enabled JTAG request, the expiry of a running watchdog, a
PLL_C or PLL_H unlock and the failure of the main reference each make an application reset with their cause
bit: the application domain is at its reset values and held, the sealed die, LDR_TRIAL and MR13 and MR14 stay,
and every output that was on stays on. A VCORE or VIO trip makes a cold reset: the Bridle, LDR_TRIAL, MR13 and
MR14 and the Girth configuration are at their reset values too, the sealed die and the stored objects stay. The
end of a running hold window stops every active point that was not reclaimed: step 2, stop requested. 500 ms
later a point still at step 2 or 3 is at step 4; the lock release ends the shutdown of a point at step 4; at
another step, or without a running window, these change nothing. A write of RST_RECLAIM that finds the FIFO of
a Bridle in RUN empty reclaims, within the window, every active point of its bits that is not shutting down;
behind a waiting safe message it waits in the FIFO; with the FIFO full it answers BUSY and changes nothing
else. -/
def Obligations.ResetsAndHoldWindow : Prop :=
  (∀ (s : State), s.cold.coldHeld = false → ∃ t, exec .resetPin s = .next t ∧ AppReset 3 s t) ∧
  (∀ (v : Word) (s : State), s.cold.coldHeld = false ∧ fld v 16 16 = 0x5A3C ∧ bit v 0 = true → ∃ t, exec
    (.appResetRequest v) s = .next t ∧ AppReset 5 s t) ∧
  (∀ (v : Word) (s : State), fld v 16 16 ≠ 0x5A3C → ∃ t, exec (.appResetRequest v) s = .next t ∧ t = s) ∧
  (∀ (s : State), s.cold.coldHeld = false ∧ s.fuses.dbg.getLsbD 4 = false → ∃ t, exec .jtagResetRequest s =
    .next t ∧ AppReset 7 s t) ∧
  (∀ (s : State), s.inReset = false ∧ s.app.clk.wdPeriod ≠ 0 → ∃ t, exec .watchdogExpiry s = .next t ∧
    AppReset 4 s t) ∧
  (∀ (s : State), s.cold.coldHeld = false → ∃ t, exec .mainRefFail s = .next t ∧ t.cold.mainFail = true ∧
    AppReset 6 s { t with cold.mainFail := s.cold.mainFail }) ∧
  (∀ (s : State), ∃ t, exec .mainRefRecovered s = .next t ∧ t = { s with cold.mainFail := false }) ∧
  (∀ (b : Bool) (s : State), s.cold.coldHeld = false → ∃ t, exec (.pllChUnlock b) s = .next t ∧ AppReset 6 s t) ∧
  (∀ (s : State), s.cold.coldHeld = false ∧ s.cold.started = true → ∃ t, exec .vcoreTrip s = .next t ∧
    ColdReset 2 s t) ∧
  (∀ (s : State), s.cold.coldHeld = true → ∃ t, exec .vcoreTrip s = .next t ∧ ColdReset (putBit s.cold.cause 1
    true) s t) ∧
  (∀ (s : State), s.cold.coldHeld = false ∧ s.cold.started = true → ∃ t, exec .vioTrip s = .next t ∧ ColdReset
    4 s t) ∧
  (∀ (s : State), s.cold.coldHeld = true → ∃ t, exec .vioTrip s = .next t ∧ ColdReset (putBit s.cold.cause 2
    true) s t) ∧
  (∀ (s : State), s.bridle.window = true → ∃ t, exec .holdWindowExpiry s = .next t ∧ t.bridle.window = false ∧
    ∀ p, p < 64 → (s.bp p).active = true → (s.bp p).reclaimed = false → (s.bp p).shut = 0 → (t.bp p).shut = 2 ∧
    (t.bp p).stopReq = true) ∧
  (∀ (p : Fin 64) (s : State), s.bridleRuns = true ∧ ((s.bp p).shut = 2 ∨ (s.bp p).shut = 3) → ∃ t, exec
    (.shutdownCurrentTimeout p) s = .next t ∧ (t.bp p).shut = 4) ∧
  (∀ (p : Fin 64) (s : State), (s.bp p).shut ≠ 2 ∧ (s.bp p).shut ≠ 3 → ∃ t, exec (.shutdownCurrentTimeout p) s
    = .next t ∧ t = s) ∧
  (∀ (p : Fin 64) (s : State), s.bridleRuns = true ∧ (s.bp p).shut = 4 → ∃ t, exec (.shutdownLockRelease p) s
    = .next t ∧ (t.bp p).shut = 0 ∧ (t.bp p).stopReq = false ∧ (t.bp p).active = false) ∧
  (∀ (p : Fin 64) (s : State), (s.bp p).shut ≠ 4 → ∃ t, exec (.shutdownLockRelease p) s = .next t ∧ t = s) ∧
  (∀ (s : State), s.bridle.window = false → ∃ t, exec .holdWindowExpiry s = .next t ∧ t = s) ∧
  (∀ (hi : Bool) (v : Word) (s : State), s.bridle.fifo = [] ∧ s.bridleRuns = true ∧ s.bridle.inReset = false →
    ∃ t, exec (.reclaim hi v) s = .next t ∧ t.bridle.fifo = [] ∧ ∀ k, k < 32 → v.getLsbD k = true →
    s.bridle.window = true → (s.bp ((if hi then 32 else 0) + k)).active = true → (s.bp ((if hi then 32 else 0)
    + k)).shut = 0 → (t.bp ((if hi then 32 else 0) + k)).reclaimed = true) ∧
  (∀ (hi : Bool) (v a b c : Word) (r : List BrMsg) (s : State), s.bridle.fifo = .post a b c :: r ∧ r.length <
    7 → ∃ t, exec (.reclaim hi v) s = .next t ∧ t = busOk 0
    { s with bridle.fifo := s.bridle.fifo ++ [.reclaim hi v] }) ∧
  (∀ (hi : Bool) (v : Word) (s : State), 8 ≤ s.bridle.fifo.length → ∃ t, exec (.reclaim hi v) s = .next t ∧ t
    = busOk 1 s)

/-- RST_WDOG takes a period while it is 0 and keeps it afterwards; KICK A5h restarts the count; half the period
raises source 3. A write of LDR_TRIAL with START starts the countdown with its REMAIN, one with STOP stops it;
the expiry of a running one sets EXPIRED and makes an application reset. An unlocked CLK_SSC takes C_EN, H_EN
and a DEPTH that is not reserved; after a disabling write the grown bound stays until the hold ends. PLL_P
unlocked drives every CAN port recessive, its relock releases them and restarts the beacon grid; PLL_E unlocked
takes the links of the affected ports down. -/
def Obligations.WatchdogTrialAndSpread : Prop :=
  (∀ (v : Word) (s : State), s.app.clk.wdPeriod = 0 → ∃ t, exec (.watchdogPeriodSet v) s = .next t ∧
    t.app.clk.wdPeriod = fld v 0 16 ∧ t.app.clk.wdCount = 0) ∧
  (∀ (v : Word) (s : State), s.app.clk.wdPeriod ≠ 0 → ∃ t, exec (.watchdogPeriodSet v) s = .next t ∧
    t.app.clk.wdPeriod = s.app.clk.wdPeriod) ∧
  (∀ (v : Word) (s : State), fld v 24 8 = 0xA5 → ∃ t, exec (.watchdogKick v) s = .next t ∧ t.app.clk.wdCount =
    0) ∧
  (∀ (s : State), s.app.clk.wdPeriod ≠ 0 ∧ s.inReset = false ∧ s.gated = false ∧ (s.app.bkl.src.get 3).latch =
    false → ∃ t, exec .watchdogHalfPeriod s = .next t ∧ (t.app.bkl.src.get 3).latch = true) ∧
  (∀ (v : Word) (s : State), s.cold.sscLock = false → ∃ t, exec (.clkSscWrite v) s = .next t ∧ t.cold.sscC =
    bit v 0 ∧ t.cold.sscH = bit v 1 ∧ t.cold.sscDepth = (if fld v 2 2 = 3 then s.cold.sscDepth else fld v 2 2)
    ∧ t.cold.sscLock = bit v 31 ∧ s.cold.grown ≤ t.cold.grown) ∧
  (∀ (v : Word) (s : State), s.cold.sscLock = true → ∃ t, exec (.clkSscWrite v) s = .next t ∧ t = s) ∧
  (∀ (s : State), s.cold.sscHold = true → ∃ t, exec .spreadDisableHoldExpiry s = .next t ∧ t.cold.grown =
    s.spreadNow ∧ t.cold.sscHold = false) ∧
  (∀ (v : Word) (s : State), s.trial.active = false ∧ bit v 28 = true ∧ bit v 29 = false → ∃ t, exec
    (.ldrTrialStart v) s = .next t ∧ t.trial.active = true ∧ t.trial.remain = fld v 0 22) ∧
  (∀ (v : Word) (s : State), bit v 29 = true → ∃ t, exec (.ldrTrialStop v) s = .next t ∧ t.trial.active =
    false) ∧
  (∀ (s : State), s.trial.active = true ∧ s.cold.coldHeld = false → ∃ t, exec .trialExpiry s = .next t ∧
    t.trial.expired = true ∧ t.trial.active = false ∧ t.app.clk.appHeld = true) ∧
  (∀ (s : State), ∃ t, exec .pllPUnlock s = .next t ∧ t.app.clk.pllP = true ∧ t.app.clk.canRecessive = 0x3FF) ∧
  (∀ (s : State), s.app.clk.pllP = true → ∃ t, exec .pllPRelock s = .next t ∧ t.app.clk.pllP = false ∧
    t.app.clk.canRecessive = 0 ∧ t.cold.grid = 0) ∧
  (∀ (a b : Bool) (s : State), ∃ t, exec (.pllEUnlock a b) s = .next t ∧ (a = true → t.app.clk.ethUp.getLsbD 0
    = false) ∧ (b = true → t.app.clk.ethUp.getLsbD 1 = false) ∧ (a = false → b = false → t.app.clk.ethUp =
    s.app.clk.ethUp))

/-- Outside reset an Ethernet link that comes up on a port whose mode is not off, or that drops, shows in the
port's link bit; in reset, or a link of a port that is off, changes nothing. A GPIO edge is the edge on the one
source of its eight pins. Outside reset a delivery timeout has its queue's effect and then counts and raises
its source; for queue 7 the oldest sealed-link request is moved to those timed out; in reset it changes
nothing. After a write of RST_ENGRUN an engine runs exactly where its bit was written 1 and it ran or was
loaded, and is loaded exactly where it was loaded and its bit was written 1. A 1 for an engine that neither
runs nor is loaded sets RUN_ERR. -/
def Obligations.DeliveryPortsAndEngines : Prop :=
  (∀ (port : Fin 2) (up : Bool) (s : State), (s.inReset = false ∧ (up = true → s.app.server.ethMode.get port ≠
    0)) → ∃ t, exec (.ethernetLinkChange port up) s = .next t ∧ t.app.clk.ethUp.getLsbD port = up) ∧
  (∀ (port : Fin 2) (up : Bool) (s : State), s.inReset = true ∨ (up = true ∧ s.app.server.ethMode.get port =
    0) → ∃ t, exec (.ethernetLinkChange port up) s = .next t ∧ t = s) ∧
  (∀ (n : Fin 32) (s : State), ∃ t, exec (.gpioEdge n) s = .next t ∧ t = raise (488 + n.val / 8) s) ∧
  (∀ (q : Fin 14) (s : State), s.inReset = false ∧ q = 7 ∧ s.app.sl.timedOut.length ≤ 64 → ∃ t, exec
    (.deliveryTimeout q) s = .next t ∧ t.app.sl.outst = s.app.sl.outst.drop 1 ∧ t.app.sl.timedOut =
    (s.app.sl.outst.take 1 ++ s.app.sl.timedOut).take 64) ∧
  (∀ (q : Fin 14) (s : State), s.inReset = false → ∃ t, exec (.deliveryTimeout q) s = .next t ∧ t =
    deliveryTimeout q (monitored q s)) ∧
  (∀ (q : Fin 14) (s : State), s.inReset = true → ∃ t, exec (.deliveryTimeout q) s = .next t ∧ t = s) ∧
  (∀ (v : Word) (s : State), ∃ t, exec (.engineRun v) s = .next t ∧ ∀ e, e < 9 → t.app.clk.run.getLsbD e =
    (bit v e && (s.app.clk.run.getLsbD e || s.app.clk.loaded.getLsbD e)) ∧ t.app.clk.loaded.getLsbD e =
    (s.app.clk.loaded.getLsbD e && bit v e)) ∧
  (∀ (v : Word) (e : Fin 9) (s : State), bit v e = true ∧ s.app.clk.run.getLsbD e = false ∧
    s.app.clk.loaded.getLsbD e = false → ∃ t, exec (.engineRun v) s = .next t ∧ t.app.clk.runErr = true) ∧
  (∀ (v : Word) (s : State), ∃ t, exec (.engineReset v) s = .next t ∧ ∀ e, e < 9 → t.app.clk.run.getLsbD e =
    (bit v e && (s.app.clk.run.getLsbD e || s.app.clk.loaded.getLsbD e)) ∧ t.app.clk.loaded.getLsbD e =
    (s.app.clk.loaded.getLsbD e && bit v e))

/-- With the link up at its end, a message with a good MAC and the next number is put at the end of the control
side's receive queue when it holds fewer than 32, and the next number expected rises by one; with a lower
number queue and number stay; with a higher one nothing changes. With the link down at the end every message,
acknowledgement or silence changes nothing. An acknowledgement with a good MAC and a number not lower than the
last sets the number acknowledged and the credit (at most 32); one with a lower number changes nothing. A
heartbeat of an end that holds the key and has numbers left carries the last number received and the free
places; one of an end without the key changes nothing. A resend timeout counts one more sending of every
unacknowledged message when the oldest was sent fewer than 3 times, and changes nothing when none is
unacknowledged; when the oldest was sent 3 times, or on silence, both ends discard the key and the control side
is marked failed. An authentic agreement that the control die may request and the sealed die may take gives
both ends the key derived from the two shares and the shared secret (all three free values); one not authentic
only counts toward the one per second (the model's reading, log 104); one that may not be made changes nothing.
From a core or the debug port a write of MBX_SLSEND shows its status in the order STATE, RANGE, BUSY; one that
is OK puts the tag among the outstanding requests, any other leaves the link and the requests as they were. A
write of MBX_SLPOP removes the oldest received message, if there is one; a core acts on it. From any other
master both end in a bus error and change nothing else. -/
def Obligations.SealedLink : Prop :=
  (∀ (m : LinkMsg) (s : State), s.endUp .control = true ∧ m.seq = s.app.link.rxNext ∧ s.app.link.rx.length <
    32 → ∃ t, exec (.sealedLinkMessageReceive .control m true) s = .next t ∧ t.app.link.rx = s.app.link.rx ++
    [m] ∧ t.app.link.rxNext = s.app.link.rxNext + 1) ∧
  (∀ (m : LinkMsg) (s : State), s.endUp .control = true ∧ m.seq < s.app.link.rxNext → ∃ t, exec
    (.sealedLinkMessageReceive .control m true) s = .next t ∧ t.app.link.rx = s.app.link.rx ∧ t.app.link.rxNext
    = s.app.link.rxNext) ∧
  (∀ (side : Side) (m : LinkMsg) (s : State), s.endUp side = true ∧ (s.linkEnd side).rxNext < m.seq → ∃ t,
    exec (.sealedLinkMessageReceive side m true) s = .next t ∧ t = s) ∧
  (∀ (side : Side) (m : LinkMsg) (macOk : Bool) (s : State), s.endUp side = false → ∃ t, exec
    (.sealedLinkMessageReceive side m macOk) s = .next t ∧ t = s) ∧
  (∀ (side : Side) (acked credit : Nat) (s : State), s.endUp side = true ∧ (s.linkEnd side).acked ≤ acked → ∃
    t, exec (.linkAckReceive side acked credit true) s = .next t ∧ (t.linkEnd side).acked = acked ∧ (t.linkEnd
    side).credit = min 32 credit) ∧
  (∀ (side : Side) (acked credit : Nat) (s : State), s.endUp side = true ∧ acked < (s.linkEnd side).acked → ∃
    t, exec (.linkAckReceive side acked credit true) s = .next t ∧ t = s) ∧
  (∀ (side : Side) (acked credit : Nat) (macOk : Bool) (s : State), s.endUp side = false → ∃ t, exec
    (.linkAckReceive side acked credit macOk) s = .next t ∧ t = s) ∧
  (∀ (side : Side) (s : State), (s.linkEnd side).key.isSome = true ∧ (s.linkEnd side).spent = false → ∃ t,
    exec (.sealedLinkHeartbeat side) s = .next t ∧ (t.linkEnd side).hb = some ((s.linkEnd side).rxNext - 1, 32
    - (s.linkEnd side).rx.length)) ∧
  (∀ (side : Side) (s : State), (s.linkEnd side).key = none → ∃ t, exec (.sealedLinkHeartbeat side) s = .next
    t ∧ t = s) ∧
  (∀ (side : Side) (u : SentMsg) (r : List SentMsg) (s : State), (s.linkEnd side).unacked = u :: r ∧ u.sends <
    3 → ∃ t, exec (.sealedLinkResendTimeout side) s = .next t ∧ (t.linkEnd side).unacked = (u :: r).map (fun x
    => { x with sends := x.sends + 1 })) ∧
  (∀ (side : Side) (s : State), (s.linkEnd side).unacked = [] → ∃ t, exec (.sealedLinkResendTimeout side) s =
    .next t ∧ t = s) ∧
  (∀ (side : Side) (u : SentMsg) (r : List SentMsg) (s : State), (s.linkEnd side).unacked = u :: r ∧ 3 ≤
    u.sends → ∃ t, exec (.sealedLinkResendTimeout side) s = .next t ∧ t.app.link.key = none ∧ t.app.link.failed
    = true ∧ t.die.link.key = none) ∧
  (∀ (side : Side) (s : State), s.endUp side = true → ∃ t, exec (.sealedLinkSilenceTimeout side) s = .next t ∧
    t.app.link.key = none ∧ t.app.link.failed = true ∧ t.die.link.key = none) ∧
  (∀ (side : Side) (s : State), s.endUp side = false → ∃ t, exec (.sealedLinkSilenceTimeout side) s = .next t
    ∧ t = s) ∧
  (∀ (s : State), s.mayAgree = true ∧ s.mayRequest = true → ∃ t, exec (.linkKeyAgreement true) s = .next t ∧
    t.app.link.key = some (BitVec.ofNat 384 (ofLE (linkKeyOf (digestBytes (s.used.used.freeBits 384))
    s.freePoint s.used.freePoint).reverse)) ∧ t.die.link.key = t.app.link.key) ∧
  (∀ (s : State), s.mayAgree = true ∧ s.mayRequest = true → ∃ t, exec (.linkKeyAgreement false) s = .next t ∧
    t = { s with die.agreedAt := some s.die.legal.mtk }) ∧
  (∀ (k : Bool) (s : State), (s.mayRequest && s.mayAgree) = false → ∃ t, exec (.linkKeyAgreement k) s = .next
    t ∧ t = s) ∧
  (∀ (port : Fin 24) (v : Word) (s : State), slMaster port = true ∧ s.slStatus port (fld v 16 16) (fld v 0 8)
    = .ok → ∃ t, exec (.sealedLinkSend port v) s = .next t ∧ (t.app.sl.port.get port).st = .ok ∧ t.app.sl.outst
    = s.app.sl.outst ++ [(s.app.sl.port.get port).tag]) ∧
  (∀ (port : Fin 24) (v : Word) (s : State), slMaster port = true ∧ s.slStatus port (fld v 16 16) (fld v 0 8)
    ≠ .ok → ∃ t, exec (.sealedLinkSend port v) s = .next t ∧ (t.app.sl.port.get port).st = s.slStatus port (fld
    v 16 16) (fld v 0 8) ∧ t.app.sl.outst = s.app.sl.outst ∧ t.app.link = s.app.link) ∧
  (∀ (port : Fin 24) (v : Word) (s : State), slMaster port = false → ∃ t, exec (.sealedLinkSend port v) s =
    .next t ∧ t = busFail s) ∧
  (∀ (port : Fin 24) (m : LinkMsg) (r : List LinkMsg) (s : State), slMaster port = true ∧ s.app.link.rx = m ::
    r → ∃ t, exec (.sealedLinkPop port) s = .next t ∧ t = (if port.val < 4 then cantleTakes m else id) (busOk 0
    (setLevel 456 (!r.isEmpty) { s with app.link.rx := r }))) ∧
  (∀ (port : Fin 24) (s : State), slMaster port = true ∧ s.app.link.rx = [] → ∃ t, exec (.sealedLinkPop port)
    s = .next t ∧ t.app.link.rx = []) ∧
  (∀ (port : Fin 24) (s : State), slMaster port = false → ∃ t, exec (.sealedLinkPop port) s = .next t ∧ t =
    busFail s)

/-- While the power die's clock runs and the Bridle sends heartbeats, a valid heartbeat counts up to 10 in a row
and an invalid one sets the run to 0; otherwise a heartbeat changes nothing. A heartbeat loss while the clock
runs leaves the power die in its safe state with the run at 0, every output off where it was not in that state;
without the clock it changes nothing. A report of the safe state that is due is taken by the Bridle in RUN with
the clock running: it sends its holds again, the run is 0 and source 499 is raised; else nothing changes. The
release needs RUN, the clock, the safe state, its report taken and 10 valid heartbeats in a row: it ends the
safe state and changes no output, STO latch or sequence latch; else nothing changes. A safety-lane frame with a
CRC error, or without the clock, changes nothing; a good one has its command's effect: a hold turns its channel
off, an STO command writes its latch (never on in the safe state), a sequence-off command turns both latches of
the pair off. -/
def Obligations.SafetyLane : Prop :=
  (∀ (s : State), s.power.clkOk = true ∧ s.bridle.hbOn = true → ∃ t, exec (.bridleHeartbeat true) s = .next t
    ∧ t.power.hbRun = min 10 (s.power.hbRun + 1)) ∧
  (∀ (s : State), s.power.clkOk = true ∧ s.bridle.hbOn = true → ∃ t, exec (.bridleHeartbeat false) s = .next t
    ∧ t.power.hbRun = 0) ∧
  (∀ (crcOk : Bool) (s : State), s.power.clkOk = false ∨ s.bridle.hbOn = false → ∃ t, exec (.bridleHeartbeat
    crcOk) s = .next t ∧ t = s) ∧
  (∀ (s : State), s.power.clkOk = true → ∃ t, exec .safetyLaneHeartbeatLoss s = .next t ∧ t.power.safe = true
    ∧ t.power.hbRun = 0 ∧ (s.power.safe = false → ∀ x, x < 96 → outIsOn (t.out x) = false)) ∧
  (∀ (s : State), s.power.clkOk = false → ∃ t, exec .safetyLaneHeartbeatLoss s = .next t ∧ t = s) ∧
  (∀ (s : State), s.bridleRuns = true ∧ s.power.report = true ∧ s.power.clkOk = true → ∃ t, exec
    .safeStateReport s = .next t ∧ t = raise 499
    { (resendHolds s) with power.report := false, power.hbRun := 0 }) ∧
  (∀ (s : State), s.bridleRuns = false ∨ s.power.report = false ∨ s.power.clkOk = false → ∃ t, exec
    .safeStateReport s = .next t ∧ t = s) ∧
  (∀ (s : State), s.bridleRuns = true ∧ s.power.safe = true ∧ s.power.clkOk = true ∧ s.power.report = false ∧
    10 ≤ s.power.hbRun → ∃ t, exec .safeStateRelease s = .next t ∧ t.power.safe = false ∧ (∀ x, t.out x = s.out
    x) ∧ t.power.sto = s.power.sto ∧ t.power.seq = s.power.seq) ∧
  (∀ (s : State), s.mayReleaseSafe = false → ∃ t, exec .safeStateRelease s = .next t ∧ t = s) ∧
  (∀ (crcOk : Bool) (c : SafeCmd) (s : State), (crcOk && s.power.clkOk) = false → ∃ t, exec
    (.safetyLaneCommand crcOk c) s = .next t ∧ t = s) ∧
  (∀ (c : SafeCmd) (s : State), s.power.clkOk = true → ∃ t, exec (.safetyLaneCommand true c) s = .next t ∧ t =
    safetyCommand c s) ∧
  (∀ (x : Fin 96) (s : State), s.power.clkOk = true → ∃ t, exec (.safetyLaneCommand true (.hold x)) s = .next
    t ∧ (t.out x).bhold = true ∧ outIsOn (t.out x) = false) ∧
  (∀ (n : Fin 8) (b on : Bool) (s : State), s.power.clkOk = true → ∃ t, exec (.safetyLaneCommand true (.sto n
    b on)) s = .next t ∧ (if b then (t.power.sto.get n).b else (t.power.sto.get n).a) = (on && !s.power.safe)) ∧
  (∀ (k : Fin 8) (s : State), s.power.clkOk = true → ∃ t, exec (.safetyLaneCommand true (.seqOff k)) s = .next
    t ∧ (t.power.seq.get k).d1 = false ∧ (t.power.seq.get k).d2 = false)

/-- A frame to the power die with a CRC error acts on nothing there and the third in a row sets the lane's fault
flag; a good one clears the run and has its command's effect, a sequence command of a fitted pair switching its
latch, never on in the safe state; without the power die's clock a frame changes nothing. A frame to the
control die with a CRC error changes no output and the third in a row sets the fault flag; a good one clears
the run and raises its source; in reset or without the clock it changes nothing. A power-die clock failure puts
the power die into its safe state, unreported, with no run of heartbeats; when the clock returns, the entry is
reported to a Bridle in RUN, source 280 is raised (the model's choice, log 101) and the run starts at 0; a
return of a running clock changes nothing. A power-die reset leaves the safe state with every channel off and
changes neither the application domain's memory and clock block nor the sealed die. -/
def Obligations.ApplicationLaneAndPowerDie : Prop :=
  (∀ (c : LaneCmd) (s : State), s.power.clkOk = true → ∃ t, exec (.appLaneCommand false c) s = .next t ∧
    t.power = s.power ∧ t.app.lane.repReq = min 3 (s.app.lane.repReq + 1) ∧ (2 ≤ s.app.lane.repReq →
    t.app.lane.fault = true)) ∧
  (∀ (c : LaneCmd) (s : State), s.power.clkOk = true → ∃ t, exec (.appLaneCommand true c) s = .next t ∧ t =
    laneCommand c { s with app.lane.repReq := 0 }) ∧
  (∀ (crcOk : Bool) (c : LaneCmd) (s : State), s.power.clkOk = false → ∃ t, exec (.appLaneCommand crcOk c) s =
    .next t ∧ t = s) ∧
  (∀ (k : Fin 8) (d2 v : Bool) (s : State), s.power.clkOk = true ∧ (s.obj.unfit.get 7).getLsbD k = false → ∃
    t, exec (.appLaneCommand true (.seq k d2 v)) s = .next t ∧ (if d2 then (t.power.seq.get k).d2 else
    (t.power.seq.get k).d1) = (v && !s.power.safe)) ∧
  (∀ (src : Fin 512) (s : State), s.inReset = false ∧ s.power.clkOk = true → ∃ t, exec (.appLaneEventFrame
    false src) s = .next t ∧ t.app.lane.badRx = min 3 (s.app.lane.badRx + 1) ∧ (2 ≤ s.app.lane.badRx →
    t.app.lane.fault = true) ∧ t.power = s.power) ∧
  (∀ (src : Fin 512) (s : State), s.inReset = false ∧ s.power.clkOk = true → ∃ t, exec (.appLaneEventFrame
    true src) s = .next t ∧ t.app.lane.badRx = 0 ∧ t = laneRaise src { s with app.lane.badRx := 0 }) ∧
  (∀ (crcOk : Bool) (src : Fin 512) (s : State), s.inReset = true ∨ s.power.clkOk = false → ∃ t, exec
    (.appLaneEventFrame crcOk src) s = .next t ∧ t = s) ∧
  (∀ (s : State), ∃ t, exec .powerDieClockFail s = .next t ∧ t.power.safe = true ∧ t.power.clkOk = false ∧
    t.power.report = false ∧ t.power.hbRun = 0) ∧
  (∀ (s : State), s.power.clkOk = false → ∃ t, exec .powerDieClockReturn s = .next t ∧ t.power =
    { s.power with clkOk := true, report := decide (s.bridle.st = .run), hbRun := 0 } ∧ t = laneRaise 280
    { s with power.clkOk := true, power.report := decide (s.bridle.st = .run), power.hbRun := 0 }) ∧
  (∀ (s : State), s.power.clkOk = true → ∃ t, exec .powerDieClockReturn s = .next t ∧ t = s) ∧
  (∀ (s : State), ∃ t, exec .powerDieReset s = .next t ∧ t.power.safe = true ∧ (∀ x, x < 96 → outIsOn (t.out
    x) = false) ∧ t.die = s.die ∧ t.app.mem = s.app.mem ∧ t.app.clk = s.app.clk)

/-- A command with an accepted mode and duty to a point that is neither held nor blocked, outside the safe state,
waits for the next period start and changes neither the mode in force nor the duty; a command to a held or
blocked point leaves the waiting command and the mode in force as they were. A wake request on a 2017-edition
point in X2 that is neither held nor blocked puts X1 in force and starts the wake; the end of a wake puts the
clamped mode in force and sets WAKE_DONE. Outside the safe state a period start takes the waiting X1 command of
a point with a pilot, neither held nor disabled nor waking, into force; without the power die's clock it
changes nothing. A trim sets the common period. A write of PIL_RSRC_p with both fields in range replaces them
and leaves the mode in force. A read of PIL_TS_p's low word gives it and latches the high word for the port
once the registers are rebuilt. -/
def Obligations.PilotCommands : Prop :=
  (∀ (p : Fin 64) (v : Word) (s : State), (bit v 15 = false ∧ s.power.clkOk = true ∧ s.power.safe = false ∧
    (s.pil p).held = false ∧ s.blocked p = false ∧ (BitVec.ofNat 2 (fld v 0 2) = 2 → dutyOk (BitVec.ofNat 10
    (fld v 4 10)).toNat = true)) → ∃ t, exec (.pilotCommand p v) s = .next t ∧ (t.pil p).pend = some
    (BitVec.ofNat 2 (fld v 0 2), BitVec.ofNat 10 (fld v 4 10)) ∧ (t.pil p).modeAct = (s.pil p).modeAct ∧ (t.pil
    p).dutyAct = (s.pil p).dutyAct) ∧
  (∀ (p : Fin 64) (v : Word) (s : State), bit v 15 = false ∧ ((s.pil p).held = true ∨ s.blocked p = true) → ∃
    t, exec (.pilotCommand p v) s = .next t ∧ (t.pil p).pend = (s.pil p).pend ∧ (t.pil p).modeAct = (s.pil
    p).modeAct) ∧
  (∀ (p : Fin 64) (v : Word) (s : State), bit v 15 = true ∧ s.power.clkOk = true ∧ pilEd17 (s.pil p) = true ∧
    (s.pil p).modeAct = 2 ∧ (s.pil p).held = false ∧ s.blocked p = false → ∃ t, exec (.pilotWake p v) s = .next
    t ∧ (t.pil p).waking = true ∧ (t.pil p).modeAct = 1 ∧ (t.pil p).dutyAct = 0) ∧
  (∀ (s : State), s.power.clkOk = false → ∃ t, exec .pilotPeriodStart s = .next t ∧ t = s) ∧
  (∀ (s : State), s.power.clkOk = true ∧ s.power.safe = false → ∃ t, exec .pilotPeriodStart s = .next t ∧ ∀ p,
    p < 64 → s.pilotUsed p = true → (s.pil p).held = false → (s.pil p).supplyDis = false → (s.pil p).waking =
    false → (s.pil p).pend = some (1, 0) → (t.pil p).modeAct = 1 ∧ (t.pil p).modeCmd = 1 ∧ (t.pil p).pend =
    none) ∧
  (∀ (p : Fin 64) (s : State), (s.pil p).waking = true → ∃ t, exec (.pilotWakeEnd p) s = .next t ∧ (t.pil
    p).waking = false ∧ (t.pil p).modeAct = (pilClamp (s.pil p)).1 ∧ bit (t.pil p).evt 7 = true) ∧
  (∀ (n : Nat) (s : State), s.inReset = false ∧ s.power.clkOk = true → ∃ t, exec (.pilotPeriodTrim n) s =
    .next t ∧ t.power = { s.power with trimmed := true, period := n % 2 ^ 24 } ∧ t.app = s.app) ∧
  (∀ (p : Fin 64) (v : Word) (s : State), s.power.clkOk = true ∧ within 100 (fld v 16 16) 5000 = true ∧ within
    9800 (fld v 0 16) 10200 = true → ∃ t, exec (.pilotCfgWrite p true v) s = .next t ∧ (t.pil p).rsrc = v ∧
    (t.pil p).modeAct = (s.pil p).modeAct) ∧
  (∀ (port : Fin 24) (p : Fin 64) (s : State), s.power.pilRebuilt = true → ∃ t, exec (.pilTsRead port p) s =
    .next t ∧ t.app.clk.busErr = false ∧ t.app.clk.busData = BitVec.ofNat 32 (s.pil p).ts ∧ t.power.tsLatch.get
    port = BitVec.ofNat 32 ((s.pil p).ts / 2 ^ 32))

/-- On a judged point whose positive plateau is not skipped, a second positive window with the E/F condition of its
cable-side voltages puts the point into FAULT_EF, and a third equal result of another state, with no E/F
condition, puts it into that state; the frame to the Bridle is its own command, so the Bridle is unchanged. A
second bad negative window in X2 that is not skipped puts it into FAULT_NEG. A point that is not judged, or a
power die without a clock, takes nothing from a plateau. In RUN the Bridle answers a fault frame with hold
cause PILOT and leaves the other points alone; else nothing changes. X1 in force with the vehicle in C and
OFF_WAIT not yet set sets it and its event. Proximity is not measured under form 0; under another form the
third equal new class is taken. It rests also on the model's choices of assumption 62. -/
def Obligations.PilotFaultsAndProximity : Prop :=
  (∀ (p : Fin 64) (w : List (Int × Int)) (s : State), s.power.clkOk = true ∧ pilJudged (s.pil p) = true ∧
    (s.pil p).skipPos = false ∧ efCond (pilEd17 (s.pil p)) (w.map (vCable (s.pil p))) = true ∧ 1 ≤ (s.pil
    p).efRun → ∃ t, exec (.pilotPlateauEvaluation p false w) s = .next t ∧ (t.pil p).st = .faultEf ∧ t.bridle =
    s.bridle) ∧
  (∀ (p : Fin 64) (w : List (Int × Int)) (s : State), s.power.clkOk = true ∧ pilJudged (s.pil p) = true ∧
    (s.pil p).skipPos = false ∧ efCond (pilEd17 (s.pil p)) (w.map (vCable (s.pil p))) = false ∧ within 2
    (posResult (pilEd17 (s.pil p)) (w.map (vCable (s.pil p)))) 6 = true ∧ (s.pil p).cand = posResult (pilEd17
    (s.pil p)) (w.map (vCable (s.pil p))) ∧ 2 ≤ (s.pil p).candRun ∧ posState (posResult (pilEd17 (s.pil p))
    (w.map (vCable (s.pil p)))) ≠ (s.pil p).st → ∃ t, exec (.pilotPlateauEvaluation p false w) s = .next t ∧
    (t.pil p).st = posState (posResult (pilEd17 (s.pil p)) (w.map (vCable (s.pil p))))) ∧
  (∀ (p : Fin 64) (w : List (Int × Int)) (s : State), s.power.clkOk = true ∧ pilJudged (s.pil p) = true ∧
    (s.pil p).modeAct = 2 ∧ (s.pil p).skipNeg = false ∧ fiveOf (fun v => bandOf (pilEd17 (s.pil p)) v = .f)
    (w.map (vCable (s.pil p))) = false ∧ 1 ≤ (s.pil p).negRun → ∃ t, exec (.pilotPlateauEvaluation p true w) s
    = .next t ∧ (t.pil p).st = .faultNeg) ∧
  (∀ (p : Fin 64) (c : Fin 3) (s : State), s.bridleRuns = true → ∃ t, exec (.pilotFaultFrame p c) s = .next t
    ∧ t.holds p .pilot = true ∧ ∀ q, p.val ≠ q → t.bp q = s.bp q) ∧
  (∀ (p : Fin 64) (c : Fin 3) (s : State), s.bridleRuns = false → ∃ t, exec (.pilotFaultFrame p c) s = .next t
    ∧ t = s) ∧
  (∀ (p : Fin 64) (neg : Bool) (w : List (Int × Int)) (s : State), s.power.clkOk = false ∨ pilJudged (s.pil p)
    = false → ∃ t, exec (.pilotPlateauEvaluation p neg w) s = .next t ∧ t = s) ∧
  (∀ (p : Fin 64) (s : State), (s.pil p).modeAct = 1 ∧ (s.pil p).st = .c ∧ (s.pil p).offWait = false → ∃ t,
    exec (.offWaitExpiry p) s = .next t ∧ (t.pil p).offWait = true ∧ bit (t.pil p).evt 4 = true) ∧
  (∀ (p : Fin 64) (v1 v2 : Int) (s : State), pilForm (s.pil p) = 0 → ∃ t, exec (.proximityMeasurement p v1 v2)
    s = .next t ∧ t = s) ∧
  (∀ (p : Fin 64) (v1 v2 : Int) (s : State), pilForm (s.pil p) ≠ 0 ∧ (s.pil p).pcand = proxClass (s.pil p) (v1
    - v2) ∧ proxClass (s.pil p) (v1 - v2) ≠ (s.pil p).cls ∧ 2 ≤ (s.pil p).prun → ∃ t, exec
    (.proximityMeasurement p v1 v2) s = .next t ∧ (t.pil p).cls = proxClass (s.pil p) (v1 - v2))

/-- A window at an enabled residual-current input that is not tripped leads to the trip state of its deciding row
and counts a trip, and with no deciding row to OK when both quantities are low, else to WARN; at a disabled
input or during a trip it keeps the state and the trip count. With the application lane and the power die's
clock good: a clear ends a trip after five low windows with the input in range and clears the runs, and with
fewer windows or out of range it keeps state and runs; a configuration write during a trip keeps configuration
and state; one that writes 0 without a trip disables the input. An insulation channel that does not inject
takes nothing from a half period; the first plateau of an injecting one is kept, scaled by the divider, with
the result as it was. Enabling an OFF channel starts settling, or the pause; disabling turns it off except in a
fault, which it leaves as it is; pausing sets PAUSE and pauses a channel that is not OFF, outside a fault;
resuming clears PAUSE and lets a paused channel settle; a clear ends a fault when the last two results reach
RWARN, and without two results changes no state. In RUN the Bridle answers an earth-fault frame, of a
residual-current input with hold cause EARTH; else a frame changes nothing. -/
def Obligations.EarthSupervision : Prop :=
  (∀ (n : Fin 64) (u : Int) (r : Nat) (row : Nat) (s : State), bit (s.power.rc.get n).cfg 0 = true ∧ rcTripped
    (s.power.rc.get n) = false ∧ rcDecides (rcRows (s.power.rc.get n).cfg (rcWindow u r)) (rcRuns (rcRows
    (s.power.rc.get n).cfg (rcWindow u r)) (s.power.rc.get n).runs) 0 = some row → ∃ t, exec (.rcWindowEnd n u
    r) s = .next t ∧ (t.power.rc.get n).st = rcTripState row ∧ (t.power.rc.get n).trips = stick 65535
    (s.power.rc.get n).trips 1) ∧
  (∀ (n : Fin 64) (u : Int) (r : Nat) (s : State), bit (s.power.rc.get n).cfg 0 = true ∧ rcTripped
    (s.power.rc.get n) = false ∧ rcDecides (rcRows (s.power.rc.get n).cfg (rcWindow u r)) (rcRuns (rcRows
    (s.power.rc.get n).cfg (rcWindow u r)) (s.power.rc.get n).runs) 0 = none → ∃ t, exec (.rcWindowEnd n u r) s
    = .next t ∧ (t.power.rc.get n).st = (if rcLow (s.power.rc.get n).cfg (rcWindow u r) then 1 else 2)) ∧
  (∀ (n : Fin 64) (u : Int) (r : Nat) (s : State), rcTripped (s.power.rc.get n) = true ∨ bit (s.power.rc.get
    n).cfg 0 = false → ∃ t, exec (.rcWindowEnd n u r) s = .next t ∧ (t.power.rc.get n).st = (s.power.rc.get
    n).st ∧ (t.power.rc.get n).trips = (s.power.rc.get n).trips) ∧
  (∀ (n : Fin 64) (s : State), s.app.lane.fault = false ∧ s.power.clkOk = true ∧ rcTripped (s.power.rc.get n)
    = true ∧ (s.power.rc.get n).low = 5 ∧ (s.power.rc.get n).inRange = true → ∃ t, exec (.rcClear n) s = .next
    t ∧ (t.power.rc.get n).st = 1 ∧ (t.power.rc.get n).runs = [0, 0, 0, 0, 0, 0]) ∧
  (∀ (n : Fin 64) (s : State), s.app.lane.fault = false ∧ s.power.clkOk = true ∧ ((s.power.rc.get n).low ≠ 5 ∨
    (s.power.rc.get n).inRange = false) → ∃ t, exec (.rcClear n) s = .next t ∧ (t.power.rc.get n).st =
    (s.power.rc.get n).st ∧ (t.power.rc.get n).runs = (s.power.rc.get n).runs) ∧
  (∀ (n : Fin 64) (v : Word) (s : State), s.app.lane.fault = false ∧ s.power.clkOk = true ∧ rcTripped
    (s.power.rc.get n) = true → ∃ t, exec (.rcCfgWrite n v) s = .next t ∧ (t.power.rc.get n).cfg =
    (s.power.rc.get n).cfg ∧ (t.power.rc.get n).st = (s.power.rc.get n).st) ∧
  (∀ (n : Fin 64) (s : State), s.app.lane.fault = false ∧ s.power.clkOk = true ∧ rcTripped (s.power.rc.get n)
    = false → ∃ t, exec (.rcCfgWrite n 0) s = .next t ∧ bit (t.power.rc.get n).cfg 0 = false ∧ (t.power.rc.get
    n).st = 0) ∧
  (∀ (k : Fin 16) (vp vn : Int) (span : Nat) (s : State), imInjects (s.power.im.get k) = false → ∃ t, exec
    (.imHalfPeriodEnd k vp vn span) s = .next t ∧ t = s) ∧
  (∀ (k : Fin 16) (vp vn : Int) (span : Nat) (s : State), imInjects (s.power.im.get k) = true ∧
    (s.power.im.get k).plat = none → ∃ t, exec (.imHalfPeriodEnd k vp vn span) s = .next t ∧ (t.power.im.get
    k).plat = some ⟨vp * (s.power.im.get k).div, vn * (s.power.im.get k).div, span * (s.power.im.get k).div⟩ ∧
    (t.power.im.get k).riso = (s.power.im.get k).riso) ∧
  (∀ (k : Fin 16) (s : State), s.app.lane.fault = false ∧ s.power.clkOk = true ∧ (s.power.im.get k).st = .off
    → ∃ t, exec (.imEnable k) s = .next t ∧ (t.power.im.get k).en = true ∧ (t.power.im.get k).st = (if
    (s.power.im.get k).pause then .paused else .settling)) ∧
  (∀ (k : Fin 16) (s : State), s.app.lane.fault = false ∧ s.power.clkOk = true ∧ (s.power.im.get k).st ≠
    .fault → ∃ t, exec (.imDisable k) s = .next t ∧ (t.power.im.get k).en = false ∧ (t.power.im.get k).st =
    .off) ∧
  (∀ (k : Fin 16) (s : State), s.app.lane.fault = false ∧ s.power.clkOk = true ∧ (s.power.im.get k).st =
    .fault → ∃ t, exec (.imDisable k) s = .next t ∧ (t.power.im.get k).en = (s.power.im.get k).en ∧
    (t.power.im.get k).st = .fault) ∧
  (∀ (k : Fin 16) (s : State), s.app.lane.fault = false ∧ s.power.clkOk = true ∧ (s.power.im.get k).st ≠
    .fault → ∃ t, exec (.imPause k) s = .next t ∧ (t.power.im.get k).pause = true ∧ (t.power.im.get k).st = (if
    (s.power.im.get k).st = .off then .off else .paused)) ∧
  (∀ (k : Fin 16) (s : State), s.app.lane.fault = false ∧ s.power.clkOk = true → ∃ t, exec (.imResume k) s =
    .next t ∧ (t.power.im.get k).pause = false ∧ (t.power.im.get k).st = (if (s.power.im.get k).st = .paused
    then .settling else (s.power.im.get k).st)) ∧
  (∀ (k : Fin 16) (s : State), s.app.lane.fault = false ∧ s.power.clkOk = true ∧ (s.power.im.get k).st =
    .fault ∧ (s.power.im.get k).results.length = 2 ∧ (s.power.im.get k).results.all (fun r => decide (fld
    (s.power.im.get k).thr 0 16 ≤ r)) = true → ∃ t, exec (.imClear k) s = .next t ∧ (t.power.im.get k).st = .ok) ∧
  (∀ (k : Fin 16) (s : State), s.app.lane.fault = false ∧ s.power.clkOk = true ∧ (s.power.im.get
    k).results.length ≠ 2 → ∃ t, exec (.imClear k) s = .next t ∧ (t.power.im.get k).st = (s.power.im.get k).st) ∧
  (∀ (u : EarthUnit) (s : State), s.bridleRuns = false → ∃ t, exec (.earthFaultFrame u) s = .next t ∧ t = s) ∧
  (∀ (k : Fin 16) (s : State), s.bridleRuns = true → ∃ t, exec (.earthFaultFrame (.im k)) s = .next t ∧ t =
    (bitsOf (s.imMask k)).foldl (fun u p => setCause p .earth (u.updBp p fun b =>
    { b with earthIm := putBit b.earthIm k true })) s) ∧
  (∀ (n : Fin 64) (s : State), s.bridleRuns = true → ∃ t, exec (.earthFaultFrame (.rc n)) s = .next t ∧
    t.holds n .earth = true ∧ (t.bp n).earthRc = true)

/-- Outside LOAD, SAFE and its own reset a lockstep mismatch, a watchdog expiry, a failed march test and a failed
code check each record their cause, drive SAFE_N low, stop the heartbeat and discard the FIFO; up to the third
the Bridle goes back to VERIFY, from the fourth on it stays in SAFE; of the power die only a waiting report is
dropped. Passed tests change nothing, nor does a mismatch or an expiry in LOAD, in SAFE or in its own reset. An
oscillator failure leaves it in SAFE with cause 7. With no sealed slot and a passed lockstep test the release
runs the loaded configuration when it is in range and else stays in SAFE; it is refused with RUN_ERR while the
Bridle is not loaded, and outside LOAD it has no effect of its own, but waiting reclaims are taken. After its
reset the Bridle with good code and configuration is in RUN again and every point with a coil channel carries
RESTART. -/
def Obligations.BridleFaultsAndStart : Prop :=
  (∀ (s : State), s.bridle.st = .load ∧ s.bridle.loaded = true ∧ s.safeSlot = none → ∃ t, exec (.bridleRelease
    true) s = .next t ∧ t.bridle.st = (if cfgInRange s.bridle.cfgBytes then .run else .safe) ∧ t.bridle.hbOn =
    cfgInRange s.bridle.cfgBytes ∧ t.bridle.cfg = (if cfgInRange s.bridle.cfgBytes then some (parseCfg
    s.bridle.cfgBytes) else s.bridle.cfg)) ∧
  (∀ (k : Bool) (s : State), s.bridle.st = .load ∧ s.bridle.loaded = false → ∃ t, exec (.bridleRelease k) s =
    .next t ∧ t.app.clk.runErr = true ∧ t.bridle = s.bridle) ∧
  (∀ (k : Bool) (s : State), s.bridle.st ≠ .load → ∃ t, exec (.bridleRelease k) s = .next t ∧ t = takeReclaims
    s) ∧
  (∀ (s : State), s.bridle.st ≠ .load ∧ s.bridle.st ≠ .safe ∧ s.bridle.inReset = false → ∃ t, exec
    .lockstepMismatch s = .next t ∧ t.bridle.cause = 1 ∧ t.bridle.safeNLow = true ∧ t.bridle.hbOn = false ∧
    t.bridle.fifo = [] ∧ t.bridle.st = (if s.bridle.restarts + 1 ≤ 3 then .verify else .safe) ∧ t.power =
    { s.power with report := false }) ∧
  (∀ (s : State), s.bridle.st ≠ .load ∧ s.bridle.st ≠ .safe ∧ s.bridle.inReset = false → ∃ t, exec
    .bridleWatchdogExpiry s = .next t ∧ t.bridle.cause = 2 ∧ t.bridle.safeNLow = true ∧ t.bridle.hbOn = false ∧
    t.bridle.fifo = [] ∧ t.bridle.st = (if s.bridle.restarts + 1 ≤ 3 then .verify else .safe) ∧ t.power =
    { s.power with report := false }) ∧
  (∀ (s : State), s.bridle.st ≠ .load ∧ s.bridle.st ≠ .safe ∧ s.bridle.inReset = false → ∃ t, exec (.marchTest
    false) s = .next t ∧ t.bridle.cause = 6 ∧ t.bridle.safeNLow = true ∧ t.bridle.hbOn = false ∧ t.bridle.fifo
    = [] ∧ t.bridle.st = (if s.bridle.restarts + 1 ≤ 3 then .verify else .safe) ∧ t.power =
    { s.power with report := false }) ∧
  (∀ (s : State), s.bridle.st ≠ .load ∧ s.bridle.st ≠ .safe ∧ s.bridle.inReset = false → ∃ t, exec
    (.bridleCodeCheck false) s = .next t ∧ t.bridle.cause = 3 ∧ t.bridle.safeNLow = true ∧ t.bridle.hbOn =
    false ∧ t.bridle.fifo = [] ∧ t.bridle.st = (if s.bridle.restarts + 1 ≤ 3 then .verify else .safe) ∧ t.power
    = { s.power with report := false }) ∧
  (∀ (s : State), ∃ t, exec (.marchTest true) s = .next t ∧ t = s) ∧
  (∀ (s : State), ∃ t, exec (.bridleCodeCheck true) s = .next t ∧ t = s) ∧
  (∀ (s : State), s.bridle.st = .load ∨ s.bridle.st = .safe ∨ s.bridle.inReset = true → ∃ t, exec
    .lockstepMismatch s = .next t ∧ t = s) ∧
  (∀ (s : State), s.bridle.st = .load ∨ s.bridle.st = .safe ∨ s.bridle.inReset = true → ∃ t, exec
    .bridleWatchdogExpiry s = .next t ∧ t = s) ∧
  (∀ (s : State), ∃ t, exec .bridleOscFail s = .next t ∧ t.bridle.st = .safe ∧ t.bridle.cause = 7 ∧
    t.bridle.safeNLow = true ∧ t.bridle.hbOn = false ∧ t.bridle.oscFail = true) ∧
  (∀ (s : State), s.bridle.inReset = true ∧ s.bridle.cfg.isNone = false → ∃ t, exec (.bridleRestart true true)
    s = .next t ∧ t.bridle.st = .run ∧ t.bridle.hbOn = true ∧ ∀ p, p < 64 → (t.ptCfg p).coil ≠ 0xFF → t.holds p
    .restart = true)

/-- In RUN: a changed mirror of a point is taken (a mirror input found bad reads closed); main closed where it was
open, at a supervised point whose coil is off, sets WELD; main open where it was closed, at a supervised point
whose coil is on and that was seen closed, sets DROP. At T_OPEN a supervised point whose coil is off with main
closed gets WELD, at T_CLOSE one whose coil is on with main open and never seen closed NOCLOSE. A stuck test
pulse sets SWITCH_FAIL at every point of the coil. A change of a pair of safety inputs is taken; a discrepancy
of a pair that differs puts it into FAULT; a path test of a pair shows its result there, a failed one of a
mirror input counts that input as bad. Where the Bridle is not in RUN each of these does nothing. -/
def Obligations.MirrorsAndSafetyInputs : Prop :=
  (∀ (p : Fin 64) (high : Bool) (s : State), s.bridleRuns = true → ∃ t, exec (.mirrorChange p high) s = .next
    t ∧ (t.bp p).mirror = (mainOpen (s.ptCfg p) high && !s.bridle.mirBad.getLsbD p)) ∧
  (∀ (p : Fin 64) (high : Bool) (s : State), s.bridleRuns = true ∧ (s.ptCfg p).supervised = true ∧ s.coilOn p
    = false ∧ (s.bp p).mirror = true ∧ (mainOpen (s.ptCfg p) high && !s.bridle.mirBad.getLsbD p) = false → ∃ t,
    exec (.mirrorChange p high) s = .next t ∧ t.holds p .weld = true) ∧
  (∀ (p : Fin 64) (high : Bool) (s : State), s.bridleRuns = true ∧ (s.ptCfg p).supervised = true ∧ s.coilOn p
    = true ∧ (s.bp p).mirror = false ∧ (s.bp p).seenClosed = true ∧ (mainOpen (s.ptCfg p) high &&
    !s.bridle.mirBad.getLsbD p) = true → ∃ t, exec (.mirrorChange p high) s = .next t ∧ t.holds p .drop = true) ∧
  (∀ (p : Fin 64) (s : State), s.bridleRuns = true ∧ (s.ptCfg p).supervised = true ∧ s.coilOn p = false ∧
    (s.bp p).mirror = false → ∃ t, exec (.mirrorOpenTimeout p) s = .next t ∧ t.holds p .weld = true) ∧
  (∀ (p : Fin 64) (s : State), s.bridleRuns = true ∧ (s.ptCfg p).supervised = true ∧ s.coilOn p = true ∧ (s.bp
    p).mirror = true ∧ (s.bp p).seenClosed = false → ∃ t, exec (.mirrorCloseTimeout p) s = .next t ∧ t.holds p
    .noclose = true) ∧
  (∀ (n : Fin 64) (s : State), s.bridleRuns = true → ∃ t, exec (.tpStuckReport n) s = .next t ∧ ∀ p, p < 64 →
    (s.ptCfg p).coil = n → (t.bp p).switchFail = true) ∧
  (∀ (k : Fin 16) (a b : Bool) (s : State), s.bridleRuns = true → ∃ t, exec (.safetyInputChange k a b) s =
    .next t ∧ (t.bridle.si.get k).a = a ∧ (t.bridle.si.get k).b = b) ∧
  (∀ (k : Fin 16) (s : State), s.bridleRuns = true ∧ (s.bridle.si.get k).a ≠ (s.bridle.si.get k).b ∧
    (s.bridle.si.get k).fault = false → ∃ t, exec (.safetyInputDiscrepancy k) s = .next t ∧ (t.bridle.si.get
    k).fault = true) ∧
  (∀ (k : Fin 16) (pass : Bool) (s : State), s.bridleRuns = true → ∃ t, exec (.inputPathTest (.si k) pass) s =
    .next t ∧ (t.bridle.si.get k).testBad = !pass) ∧
  (∀ (p : Fin 64) (s : State), s.bridleRuns = true → ∃ t, exec (.inputPathTest (.mir p) false) s = .next t ∧
    t.bridle.mirBad.getLsbD p = true) ∧
  (∀ (p : Fin 64) (b : Bool) (s : State), s.bridleRuns = false → ∃ t, exec (.mirrorChange p b) s = .next t ∧ t
    = s) ∧
  (∀ (p : Fin 64) (s : State), s.bridleRuns = false → ∃ t, exec (.mirrorOpenTimeout p) s = .next t ∧ t = s) ∧
  (∀ (p : Fin 64) (s : State), s.bridleRuns = false → ∃ t, exec (.mirrorCloseTimeout p) s = .next t ∧ t = s) ∧
  (∀ (n : Fin 64) (s : State), s.bridleRuns = false → ∃ t, exec (.tpStuckReport n) s = .next t ∧ t = s) ∧
  (∀ (k : Fin 16) (a b : Bool) (s : State), s.bridleRuns = false → ∃ t, exec (.safetyInputChange k a b) s =
    .next t ∧ t = s) ∧
  (∀ (k : Fin 16) (s : State), s.bridleRuns = false → ∃ t, exec (.safetyInputDiscrepancy k) s = .next t ∧ t =
    s) ∧
  (∀ (k : PathUnit) (b : Bool) (s : State), s.bridleRuns = false → ∃ t, exec (.inputPathTest k b) s = .next t
    ∧ t = s)

/-- In RUN the monitor takes a configured device's position and speed from the count and those of the last samples,
a free value where the encoder has no counts per metre; an illegal transition or a Z count off its range puts
the device into FAULT with cause 5 and the permit removed. Outside RUN or without a device it changes nothing.
In RUN standstill for 50 ms, and the SS1 time, end a stop in STOPPED with the permit removed; a move that has
lasted T_MOVE ends in FAULT with cause 3; before that nothing changes. In RUN a stage that is on and does not
follow its off-pulse, and a discrepancy of the stages, are an STO fault of the output; a pulse that is followed
changes nothing. -/
def Obligations.DevicesAndTorque : Prop :=
  (∀ (d : Fin 8) (m : MotionSample) (s : State), s.bridleRuns = true ∧ s.hasDev d = true → ∃ t, exec
    (.deviceMotionMonitor d m) s = .next t ∧ (t.device d).pos = encPos (s.encCfg (s.devCfg d).enc) m.count
    (toInt 32 (s.freeBits 32).toNat) ∧ (t.device d).speed = encSpeed (s.encCfg (s.devCfg d).enc) m.count
    (s.device d).counts (toInt 32 (s.freeBits 32).toNat)) ∧
  (∀ (d : Fin 8) (m : MotionSample) (s : State), s.bridleRuns = true ∧ s.hasDev d = true ∧ (m.illegal || zOff
    (s.encCfg (s.devCfg d).enc) m.z) = true → ∃ t, exec (.deviceMotionMonitor d m) s = .next t ∧ (t.device
    d).st = .fault ∧ (t.device d).fcause = 5 ∧ (t.device d).permit = false) ∧
  (∀ (d : Fin 8) (m : MotionSample) (s : State), s.bridleRuns = false ∨ s.hasDev d = false → ∃ t, exec
    (.deviceMotionMonitor d m) s = .next t ∧ t = s) ∧
  (∀ (d : Fin 8) (s : State), s.bridleRuns = true ∧ (s.device d).st = .stopping ∧ 50 ≤ (s.device d).still → ∃
    t, exec (.ss1Standstill d) s = .next t ∧ (t.device d).st = .stopped ∧ (t.device d).permit = false) ∧
  (∀ (d : Fin 8) (s : State), (s.device d).st ≠ .stopping ∨ (s.device d).still < 50 → ∃ t, exec
    (.ss1Standstill d) s = .next t ∧ t = s) ∧
  (∀ (d : Fin 8) (s : State), s.bridleRuns = true ∧ (s.device d).st = .stopping ∧ (s.devCfg d).tss1 ≤
    (s.device d).tStop → ∃ t, exec (.ss1Timeout d) s = .next t ∧ (t.device d).st = .stopped ∧ (t.device
    d).permit = false) ∧
  (∀ (d : Fin 8) (s : State), (s.device d).st ≠ .stopping ∨ (s.device d).tStop < (s.devCfg d).tss1 → ∃ t, exec
    (.ss1Timeout d) s = .next t ∧ t = s) ∧
  (∀ (d : Fin 8) (s : State), s.bridleRuns = true ∧ ((s.device d).st = .extending ∨ (s.device d).st =
    .retracting) ∧ 100 * (s.devCfg d).tmove ≤ (s.device d).tMove → ∃ t, exec (.deviceMoveTimeout d) s = .next t
    ∧ (t.device d).st = .fault ∧ (t.device d).fcause = 3 ∧ (t.device d).permit = false) ∧
  (∀ (d : Fin 8) (s : State), (s.device d).tMove < 100 * (s.devCfg d).tmove → ∃ t, exec (.deviceMoveTimeout d)
    s = .next t ∧ t = s) ∧
  (∀ (n : Fin 8) (b : Bool) (s : State), s.bridleRuns = true ∧ (if b then (s.power.sto.get n).b else
    (s.power.sto.get n).a) = true → ∃ t, exec (.stoOffPulse n b false) s = .next t ∧ t.bridle.stoFault.getLsbD
    n = true) ∧
  (∀ (n : Fin 8) (b : Bool) (s : State), ∃ t, exec (.stoOffPulse n b true) s = .next t ∧ t = s) ∧
  (∀ (n : Fin 8) (s : State), s.bridleRuns = true → ∃ t, exec (.stoDiscrepancy n) s = .next t ∧
    t.bridle.stoFault.getLsbD n = true)

/-- In RUN, at an enabled receive message: a first copy with a good CRC that does not repeat the last counter waits
for the second; a second good copy from the other port with the same counter, the complement of the data and
the counter that follows is accepted, and its pair gives the data; a first copy with a bad CRC is discarded and
counted. Elsewhere a copy changes nothing. In RUN the end of the window discards a lone copy; the timeout of an
enabled message takes the safe value 0 and makes the message invalid. In RUN and outside an application reset
an enabled transmit message gets the next counter and is put into both buffers, the second with the complement
of the data; a missing read-back is counted and noted. -/
def Obligations.SafeMessages : Prop :=
  (∀ (k : Fin 16) (f1 : Bool) (d : Word) (c : Byte) (x : SafeTail) (s : State), s.bridleRuns = true ∧ (s.rxCfg
    k).enabled = true ∧ (s.bridle.rx.get k).first = none ∧ s.safeCrcOk k f1 d c x = true ∧ ((s.bridle.rx.get
    k).last = 0 ∨ c ≠ (s.bridle.rx.get k).last) → ∃ t, exec (.safeMessageReceive k f1 d c x) s = .next t ∧
    (t.bridle.rx.get k).first = some (f1, c, d) ∧ (t.bridle.rx.get k).last = (s.bridle.rx.get k).last) ∧
  (∀ (k : Fin 16) (f1 g1 : Bool) (d e1 : Word) (c : Byte) (x : SafeTail) (s : State), s.bridleRuns = true ∧
    (s.rxCfg k).enabled = true ∧ s.safeCrcOk k f1 d c x = true ∧ (s.bridle.rx.get k).first = some (g1, c, e1) ∧
    g1 ≠ f1 ∧ d = ~~~e1 ∧ c ≠ 0 ∧ c ≠ (s.bridle.rx.get k).last ∧ ((s.bridle.rx.get k).last = 0 ∨ c = succ8
    (s.bridle.rx.get k).last) → ∃ t, exec (.safeMessageReceive k f1 d c x) s = .next t ∧ (t.bridle.rx.get
    k).last = c ∧ (t.bridle.rx.get k).valid = true ∧ (t.bridle.rx.get k).d = (if f1 then e1 else d)) ∧
  (∀ (k : Fin 16) (f1 : Bool) (d : Word) (c : Byte) (x : SafeTail) (s : State), s.bridleRuns = true ∧ (s.rxCfg
    k).enabled = true ∧ (s.bridle.rx.get k).first = none ∧ s.safeCrcOk k f1 d c x = false → ∃ t, exec
    (.safeMessageReceive k f1 d c x) s = .next t ∧ t.bridle.discard = stick 65535 s.bridle.discard 1 ∧
    t.bridle.rx = s.bridle.rx) ∧
  (∀ (k : Fin 16) (f1 : Bool) (d : Word) (c : Byte) (x : SafeTail) (s : State), s.bridleRuns = false ∨
    (s.rxCfg k).enabled = false → ∃ t, exec (.safeMessageReceive k f1 d c x) s = .next t ∧ t = s) ∧
  (∀ (k : Fin 16) (s : State), s.bridleRuns = true ∧ (s.bridle.rx.get k).first.isSome = true → ∃ t, exec
    (.safeMessageWindowExpiry k) s = .next t ∧ (t.bridle.rx.get k).first = none ∧ t.bridle.discard = stick
    65535 s.bridle.discard 1) ∧
  (∀ (k : Fin 16) (s : State), s.bridleRuns = true ∧ (s.rxCfg k).enabled = true → ∃ t, exec
    (.safeMessageTimeout k) s = .next t ∧ (t.bridle.rx.get k).valid = false ∧ (t.bridle.rx.get k).d = 0) ∧
  (∀ (j : Fin 8) (s : State), s.bridleRuns = true ∧ (s.txCfg j).enabled = true ∧ s.inReset = false → ∃ t, exec
    (.safeMessageTransmit j) s = .next t ∧ (t.bridle.tx.get j).counter = succ8 (s.bridle.tx.get j).counter ∧
    (t.bridle.tx.get j).buf = some (safeFrame s.safeSeed (s.txCfg j).cob0 s.txData (succ8 (s.bridle.tx.get
    j).counter), safeFrame s.safeSeed (s.txCfg j).cob1 (~~~s.txData) (succ8 (s.bridle.tx.get j).counter))) ∧
  (∀ (j : Fin 8) (f1 : Bool) (s : State), s.bridleRuns = true ∧ (s.txCfg j).enabled = true → ∃ t, exec
    (.safeMessageReadbackMissing j f1) s = .next t ∧ (t.bridle.tx.get j).missing = (s.bridle.tx.get j).missing
    + 1 ∧ t.bridle.newest = s.bridle.newest + 1)

/-- Each clause takes one safe message of firmware at the head of the Bridle's FIFO in RUN, outside the Bridle's
reset; it reports its tag, its type and its outcome. A pilot release (point below 64) or hold release (point
below 64) or earth release (unit below 80) with a wrong challenge is STALE, with a unit above that RANGE, and
no hold changes. A pilot release with the right challenge of a point held for its pilot, its fault 1 s old or
older and no earth, group, weld or restart cause on it, is OK and ends that cause. An earth release of an RC
monitor that does not stand and that the point carries is OK; without an IM on the point the EARTH cause ends.
A hold release of a point that carries NOCLOSE, DROP or RESTART is OK and ends these three. A current report at
a point at step 2 or 3 of its shutdown is OK: below 1 A the point is at step 4, else at step 3; at another step
it is STATE. A motion request for a device of 8 or above or with a direction other than 1 and 2 is RANGE; with
a condition unmet, STATE; with every condition met and the device retracted or stopped, direction 1 extends it
with the permit set. A stop request of 24 or above is RANGE; for a group that does not run it is OK and no hold
changes; for a moving device without SS1 it is OK, the device is stopped and its permit gone. An
acknowledgement of a notice that exists is OK, moves ACKED and clears the overrun; of one that does not, RANGE.
An unknown type is RANGE. In VERIFY and SAFE each of the eight messages is answered STATE and no hold changes. -/
def Obligations.BridleMessages : Prop :=
  (∀ (u : BitVec 8) (c : BitVec 16) (g : Word) (s : State), s.bridleRuns = true ∧ s.bridle.inReset = false ∧
    u.toNat < 64 ∧ c ≠ s.bridle.chal → ∃ t, exec (.pilotRelease u c g) s = .next t ∧ t.bridle.postTag =
    g.setWidth 16 ∧ t.bridle.postType = 1 ∧ t.bridle.postSt = .stale ∧ (∀ q, (t.bp q).hold = (s.bp q).hold)) ∧
  (∀ (u : BitVec 8) (c : BitVec 16) (g : Word) (s : State), s.bridleRuns = true ∧ s.bridle.inReset = false ∧
    64 ≤ u.toNat → ∃ t, exec (.pilotRelease u c g) s = .next t ∧ t.bridle.postTag = g.setWidth 16 ∧
    t.bridle.postType = 1 ∧ t.bridle.postSt = .range ∧ (∀ q, (t.bp q).hold = (s.bp q).hold)) ∧
  (∀ (u : BitVec 8) (g : Word) (s : State), s.bridleRuns = true ∧ s.bridle.inReset = false ∧ u.toNat < 64 ∧
    s.holds u.toNat .pilot = true ∧ (s.bp u.toNat).faultAt + 1000000 ≤ s.bridle.time ∧ (s.holds u.toNat .earth
    || s.holds u.toNat .group || s.holds u.toNat .weld || s.holds u.toNat .restart) = false → ∃ t, exec
    (.pilotRelease u s.bridle.chal g) s = .next t ∧ t.bridle.postTag = g.setWidth 16 ∧ t.bridle.postType = 1 ∧
    t.bridle.postSt = .ok ∧ t.holds u.toNat .pilot = false ∧ (t.bp u.toNat).pilKeep = false) ∧
  (∀ (u : BitVec 8) (c : BitVec 16) (g : Word) (s : State), s.bridleRuns = true ∧ s.bridle.inReset = false ∧
    u.toNat < 80 ∧ c ≠ s.bridle.chal → ∃ t, exec (.earthRelease u c g) s = .next t ∧ t.bridle.postTag =
    g.setWidth 16 ∧ t.bridle.postType = 2 ∧ t.bridle.postSt = .stale ∧ (∀ q, (t.bp q).hold = (s.bp q).hold)) ∧
  (∀ (u : BitVec 8) (c : BitVec 16) (g : Word) (s : State), s.bridleRuns = true ∧ s.bridle.inReset = false ∧
    80 ≤ u.toNat → ∃ t, exec (.earthRelease u c g) s = .next t ∧ t.bridle.postTag = g.setWidth 16 ∧
    t.bridle.postType = 2 ∧ t.bridle.postSt = .range ∧ (∀ q, (t.bp q).hold = (s.bp q).hold)) ∧
  (∀ (u : BitVec 8) (g : Word) (s : State), s.bridleRuns = true ∧ s.bridle.inReset = false ∧ u.toNat < 64 ∧
    (s.power.rc.get u.toNat).st < 3 ∧ (s.bp u.toNat).earthRc = true → ∃ t, exec (.earthRelease u s.bridle.chal
    g) s = .next t ∧ t.bridle.postTag = g.setWidth 16 ∧ t.bridle.postType = 2 ∧ t.bridle.postSt = .ok ∧ (t.bp
    u.toNat).earthRc = false ∧ ((s.bp u.toNat).earthIm = 0 → t.holds u.toNat .earth = false)) ∧
  (∀ (u : BitVec 8) (ma g : Word) (s : State), s.bridleRuns = true ∧ s.bridle.inReset = false ∧ u.toNat < 64 ∧
    ((s.bp u.toNat).shut = 2 ∨ (s.bp u.toNat).shut = 3) → ∃ t, exec (.current u ma g) s = .next t ∧
    t.bridle.postTag = g.setWidth 16 ∧ t.bridle.postType = 3 ∧ t.bridle.postSt = .ok ∧ (t.bp u.toNat).shut =
    (if ma.toNat < 1000 then 4 else 3)) ∧
  (∀ (u : BitVec 8) (ma g : Word) (s : State), s.bridleRuns = true ∧ s.bridle.inReset = false ∧ u.toNat < 64 ∧
    (s.bp u.toNat).shut ≠ 2 ∧ (s.bp u.toNat).shut ≠ 3 → ∃ t, exec (.current u ma g) s = .next t ∧
    t.bridle.postTag = g.setWidth 16 ∧ t.bridle.postType = 3 ∧ t.bridle.postSt = .state ∧ (∀ q, (t.bp q).hold =
    (s.bp q).hold)) ∧
  (∀ (u : BitVec 8) (g : Word) (s : State), s.bridleRuns = true ∧ s.bridle.inReset = false ∧ 24 ≤ u.toNat → ∃
    t, exec (.stopReq u g) s = .next t ∧ t.bridle.postTag = g.setWidth 16 ∧ t.bridle.postType = 4 ∧
    t.bridle.postSt = .range ∧ (∀ q, (t.bp q).hold = (s.bp q).hold) ∧ t.bridle.running = s.bridle.running ∧
    t.bridle.dev = s.bridle.dev) ∧
  (∀ (u : BitVec 8) (g : Word) (s : State), s.bridleRuns = true ∧ s.bridle.inReset = false ∧ u.toNat < 16 ∧
    s.bridle.running.getLsbD u.toNat = false → ∃ t, exec (.stopReq u g) s = .next t ∧ t.bridle.postTag =
    g.setWidth 16 ∧ t.bridle.postType = 4 ∧ t.bridle.postSt = .ok ∧ (∀ q, (t.bp q).hold = (s.bp q).hold) ∧
    t.bridle.running = s.bridle.running ∧ t.bridle.dev = s.bridle.dev) ∧
  (∀ (u : BitVec 8) (g : Word) (s : State), s.bridleRuns = true ∧ s.bridle.inReset = false ∧ 16 ≤ u.toNat ∧
    u.toNat < 24 ∧ s.hasDev (u.toNat - 16) = true ∧ (s.devCfg (u.toNat - 16)).ss1 = false ∧ ((s.device (u.toNat
    - 16)).st = .extending ∨ (s.device (u.toNat - 16)).st = .retracting) → ∃ t, exec (.stopReq u g) s = .next t
    ∧ t.bridle.postTag = g.setWidth 16 ∧ t.bridle.postType = 4 ∧ t.bridle.postSt = .ok ∧ (t.device (u.toNat -
    16)).st = .stopped ∧ (t.device (u.toNat - 16)).permit = false) ∧
  (∀ (u : BitVec 8) (dir g : Word) (s : State), s.bridleRuns = true ∧ s.bridle.inReset = false ∧ (8 ≤ u.toNat
    ∨ (dir ≠ 1 ∧ dir ≠ 2)) → ∃ t, exec (.motionReq u dir g) s = .next t ∧ t.bridle.postTag = g.setWidth 16 ∧
    t.bridle.postType = 5 ∧ t.bridle.postSt = .range ∧ (∀ q, (t.bp q).hold = (s.bp q).hold) ∧ t.bridle.dev =
    s.bridle.dev) ∧
  (∀ (u : BitVec 8) (dir g : Word) (s : State), s.bridleRuns = true ∧ s.bridle.inReset = false ∧ u.toNat < 8 ∧
    (dir = 1 ∨ dir = 2) ∧ s.motionOk u.toNat = false → ∃ t, exec (.motionReq u dir g) s = .next t ∧
    t.bridle.postTag = g.setWidth 16 ∧ t.bridle.postType = 5 ∧ t.bridle.postSt = .state ∧ (∀ q, (t.bp q).hold =
    (s.bp q).hold) ∧ t.bridle.dev = s.bridle.dev) ∧
  (∀ (u : BitVec 8) (g : Word) (s : State), s.bridleRuns = true ∧ s.bridle.inReset = false ∧ u.toNat < 8 ∧
    s.motionOk u.toNat = true ∧ ((s.device u.toNat).st = .retracted ∨ (s.device u.toNat).st = .stopped) → ∃ t,
    exec (.motionReq u 1 g) s = .next t ∧ t.bridle.postTag = g.setWidth 16 ∧ t.bridle.postType = 5 ∧
    t.bridle.postSt = .ok ∧ (t.device u.toNat).st = .extending ∧ (t.device u.toNat).permit = true) ∧
  (∀ (u : BitVec 8) (c : BitVec 16) (g : Word) (s : State), s.bridleRuns = true ∧ s.bridle.inReset = false ∧
    u.toNat < 64 ∧ c ≠ s.bridle.chal → ∃ t, exec (.holdRelease u c g) s = .next t ∧ t.bridle.postTag =
    g.setWidth 16 ∧ t.bridle.postType = 6 ∧ t.bridle.postSt = .stale ∧ (∀ q, (t.bp q).hold = (s.bp q).hold)) ∧
  (∀ (u : BitVec 8) (c : BitVec 16) (g : Word) (s : State), s.bridleRuns = true ∧ s.bridle.inReset = false ∧
    64 ≤ u.toNat → ∃ t, exec (.holdRelease u c g) s = .next t ∧ t.bridle.postTag = g.setWidth 16 ∧
    t.bridle.postType = 6 ∧ t.bridle.postSt = .range ∧ (∀ q, (t.bp q).hold = (s.bp q).hold)) ∧
  (∀ (u : BitVec 8) (g : Word) (s : State), s.bridleRuns = true ∧ s.bridle.inReset = false ∧ u.toNat < 64 ∧
    (s.holds u.toNat .noclose || s.holds u.toNat .drop || s.holds u.toNat .restart) = true → ∃ t, exec
    (.holdRelease u s.bridle.chal g) s = .next t ∧ t.bridle.postTag = g.setWidth 16 ∧ t.bridle.postType = 6 ∧
    t.bridle.postSt = .ok ∧ t.holds u.toNat .noclose = false ∧ t.holds u.toNat .drop = false ∧ t.holds u.toNat
    .restart = false) ∧
  (∀ (q g : Word) (s : State), s.bridleRuns = true ∧ s.bridle.inReset = false ∧ q.toNat ≤ 65535 ∧ (q.setWidth
    16 - s.bridle.acked).toNat ≤ (s.bridle.newest - s.bridle.acked).toNat → ∃ t, exec (.noteAck q g) s = .next
    t ∧ t.bridle.postTag = g.setWidth 16 ∧ t.bridle.postType = 7 ∧ t.bridle.postSt = .ok ∧ t.bridle.acked =
    q.setWidth 16 ∧ t.bridle.overrun = false) ∧
  (∀ (q g : Word) (s : State), s.bridleRuns = true ∧ s.bridle.inReset = false ∧ (65535 < q.toNat ∨
    (s.bridle.newest - s.bridle.acked).toNat < (q.setWidth 16 - s.bridle.acked).toNat) → ∃ t, exec (.noteAck q
    g) s = .next t ∧ t.bridle.postTag = g.setWidth 16 ∧ t.bridle.postType = 7 ∧ t.bridle.postSt = .range ∧
    t.bridle.acked = s.bridle.acked) ∧
  (∀ (ty : BitVec 8) (g : Word) (s : State), s.bridleRuns = true ∧ s.bridle.inReset = false → ∃ t, exec
    (.unknownSafeMessage ty g) s = .next t ∧ t.bridle.postTag = g.setWidth 16 ∧ t.bridle.postType = ty ∧
    t.bridle.postSt = .range ∧ (∀ q, (t.bp q).hold = (s.bp q).hold)) ∧
  (∀ (u : BitVec 8) (c : BitVec 16) (g : Word) (s : State), (s.bridle.st = .verify ∨ s.bridle.st = .safe) ∧
    s.bridle.inReset = false → ∃ t, exec (.pilotRelease u c g) s = .next t ∧ t.bridle.postTag = g.setWidth 16 ∧
    t.bridle.postType = 1 ∧ t.bridle.postSt = .state ∧ (∀ q, (t.bp q).hold = (s.bp q).hold)) ∧
  (∀ (u : BitVec 8) (c : BitVec 16) (g : Word) (s : State), (s.bridle.st = .verify ∨ s.bridle.st = .safe) ∧
    s.bridle.inReset = false → ∃ t, exec (.earthRelease u c g) s = .next t ∧ t.bridle.postTag = g.setWidth 16 ∧
    t.bridle.postType = 2 ∧ t.bridle.postSt = .state ∧ (∀ q, (t.bp q).hold = (s.bp q).hold)) ∧
  (∀ (u : BitVec 8) (ma g : Word) (s : State), (s.bridle.st = .verify ∨ s.bridle.st = .safe) ∧
    s.bridle.inReset = false → ∃ t, exec (.current u ma g) s = .next t ∧ t.bridle.postTag = g.setWidth 16 ∧
    t.bridle.postType = 3 ∧ t.bridle.postSt = .state ∧ (∀ q, (t.bp q).hold = (s.bp q).hold)) ∧
  (∀ (u : BitVec 8) (g : Word) (s : State), (s.bridle.st = .verify ∨ s.bridle.st = .safe) ∧ s.bridle.inReset =
    false → ∃ t, exec (.stopReq u g) s = .next t ∧ t.bridle.postTag = g.setWidth 16 ∧ t.bridle.postType = 4 ∧
    t.bridle.postSt = .state ∧ (∀ q, (t.bp q).hold = (s.bp q).hold)) ∧
  (∀ (u : BitVec 8) (dir g : Word) (s : State), (s.bridle.st = .verify ∨ s.bridle.st = .safe) ∧
    s.bridle.inReset = false → ∃ t, exec (.motionReq u dir g) s = .next t ∧ t.bridle.postTag = g.setWidth 16 ∧
    t.bridle.postType = 5 ∧ t.bridle.postSt = .state ∧ (∀ q, (t.bp q).hold = (s.bp q).hold)) ∧
  (∀ (u : BitVec 8) (c : BitVec 16) (g : Word) (s : State), (s.bridle.st = .verify ∨ s.bridle.st = .safe) ∧
    s.bridle.inReset = false → ∃ t, exec (.holdRelease u c g) s = .next t ∧ t.bridle.postTag = g.setWidth 16 ∧
    t.bridle.postType = 6 ∧ t.bridle.postSt = .state ∧ (∀ q, (t.bp q).hold = (s.bp q).hold)) ∧
  (∀ (q g : Word) (s : State), (s.bridle.st = .verify ∨ s.bridle.st = .safe) ∧ s.bridle.inReset = false → ∃ t,
    exec (.noteAck q g) s = .next t ∧ t.bridle.postTag = g.setWidth 16 ∧ t.bridle.postType = 7 ∧
    t.bridle.postSt = .state ∧ (∀ q, (t.bp q).hold = (s.bp q).hold)) ∧
  (∀ (ty : BitVec 8) (g : Word) (s : State), (s.bridle.st = .verify ∨ s.bridle.st = .safe) ∧ s.bridle.inReset
    = false → ∃ t, exec (.unknownSafeMessage ty g) s = .next t ∧ t.bridle.postTag = g.setWidth 16 ∧
    t.bridle.postType = ty ∧ t.bridle.postSt = .state ∧ (∀ q, (t.bp q).hold = (s.bp q).hold))

/-- A start that meets no check leaves a pilot channel in SLAC_WAIT without a network key, and a mains port started
with the Tack room's key; else it shows the status that bars it and the state stays. A stop takes a channel
that is neither OFF nor STOPPING to STOPPING, and changes nothing at one that is; the end of STOPPING is OFF
with no key and no queued frame, and changes nothing at a channel in another state. A re-match of a pilot
channel in SLAC_RUN, MATCHED or LINKED, and a lost link of one MATCHED or LINKED, forget key and station and
wait; else they change nothing. At a grid time with transmission disabled a halted channel counts a skipped
beacon; else a started channel sends it and the next is one period on, and a mains port's first one links it;
before the grid time, or at a channel not started, nothing changes. A renewal gives a channel MATCHED or LINKED
a fresh NEK, and else changes nothing. A frame that does not check, or at a channel OFF, changes nothing; one
of unknown modulation is counted. Clean unicast data of the station is put in the ring with room, acknowledged
and leaves the channel LINKED. Of a multicast management message an unsupported one is answered with failure
where it has a result and else counted as dropped, as is an unknown one; a handled one changes nothing; a
request of association at a pilot channel is answered by the station. A post shows its status and queues the
frame when that is OK. An acknowledgement with no bad PB of the oldest frame on the air completes it with OK; a
timeout completes the oldest frame not sent with TIMEOUT and without one changes nothing. A pop takes the
oldest received frame, a read of PLC_TXDONE the oldest completion; a read of PLC_NTB latches HT for the port. -/
def Obligations.PlcLifecycleAndFrames : Prop :=
  (∀ (n : Fin 66) (v : Word) (s : State), n.val < 64 ∧ (plcTake n s).plcStartStatus n (fld v 16 16) = .ok → ∃
    t, exec (.plcStart n v) s = .next t ∧ (t.plc n).st = .slacWait ∧ (t.plc n).status = .ok ∧ (t.plc n).nmk =
    none ∧ (t.plc n).halted = false) ∧
  (∀ (n : Fin 66) (v : Word) (s : State), 64 ≤ n.val ∧ (plcTake n s).plcStartStatus n (fld v 16 16) = .ok → ∃
    t, exec (.plcStart n v) s = .next t ∧ (t.plc n).started = true ∧ (t.plc n).status = .ok ∧ (t.plc n).nmk =
    (plcTake n s).mainsNmk n ∧ (t.plc n).halted = false) ∧
  (∀ (n : Fin 66) (v : Word) (s : State), (plcTake n s).plcStartStatus n (fld v 16 16) ≠ .ok → ∃ t, exec
    (.plcStart n v) s = .next t ∧ (t.plc n).status = (plcTake n s).plcStartStatus n (fld v 16 16) ∧ (t.plc
    n).st = ((plcTake n s).plc n).st) ∧
  (∀ (n : Fin 66) (s : State), (s.plc n).st ≠ .off ∧ (s.plc n).st ≠ .stopping → ∃ t, exec (.plcStop n) s =
    .next t ∧ (t.plc n).st = .stopping ∧ (t.plc n).started = false) ∧
  (∀ (n : Fin 66) (s : State), (s.plc n).st = .off ∨ (s.plc n).st = .stopping → ∃ t, exec (.plcStop n) s =
    .next t ∧ t = s) ∧
  (∀ (n : Fin 66) (s : State), (s.plc n).st = .stopping → ∃ t, exec (.plcStoppingEnd n) s = .next t ∧ (t.plc
    n).st = .off ∧ (t.plc n).txq = [] ∧ (t.plc n).nmk = none) ∧
  (∀ (n : Fin 66) (s : State), (s.plc n).st ≠ .stopping → ∃ t, exec (.plcStoppingEnd n) s = .next t ∧ t = s) ∧
  (∀ (n : Fin 66) (s : State), n.val < 64 ∧ ((s.plc n).st = .slacRun ∨ (s.plc n).st = .matched ∨ (s.plc n).st
    = .linked) → ∃ t, exec (.plcReslac n) s = .next t ∧ (t.plc n).st = .slacWait ∧ (t.plc n).nmk = none ∧
    (t.plc n).mac = none) ∧
  (∀ (n : Fin 66) (s : State), 64 ≤ n.val ∨ ((s.plc n).st ≠ .slacRun ∧ (s.plc n).st ≠ .matched ∧ (s.plc n).st
    ≠ .linked) → ∃ t, exec (.plcReslac n) s = .next t ∧ t = s) ∧
  (∀ (n : Fin 66) (s : State), (s.plc n).halted = true ∧ s.txDisabled = true → ∃ t, exec (.beacon n) s = .next
    t ∧ (t.plc n).skips = stick 65535 (s.plc n).skips 1 ∧ (t.plc n).st = (s.plc n).st) ∧
  (∀ (n : Fin 66) (s : State), ((s.plc n).halted && s.txDisabled) = false ∧ (s.plc n).on = true ∧ s.gridTime n
    = true → ∃ t, exec (.beacon n) s = .next t ∧ ((t.plc n).lastBeacon.map (·.time)) = some (s.plc n).beaconAt
    ∧ (t.plc n).beaconAt = (s.plc n).beaconAt + beaconTicks (s.plc n) ∧ (t.plc n).st = (if 64 ≤ n.val ∧ (s.plc
    n).started = true then .linked else (s.plc n).st)) ∧
  (∀ (n : Fin 66) (s : State), ((s.plc n).halted && s.txDisabled) = false ∧ ((s.plc n).on = false ∨ s.gridTime
    n = false) → ∃ t, exec (.beacon n) s = .next t ∧ t = s) ∧
  (∀ (n : Fin 66) (s : State), n.val < 64 ∧ ((s.plc n).st = .matched ∨ (s.plc n).st = .linked) → ∃ t, exec
    (.plcLinkLost n) s = .next t ∧ (t.plc n).st = .slacWait ∧ (t.plc n).nmk = none ∧ (t.plc n).mac = none) ∧
  (∀ (n : Fin 66) (s : State), 64 ≤ n.val ∨ ((s.plc n).st ≠ .matched ∧ (s.plc n).st ≠ .linked) → ∃ t, exec
    (.plcLinkLost n) s = .next t ∧ t = s) ∧
  (∀ (n : Fin 66) (s : State), (s.plc n).st = .matched ∨ (s.plc n).st = .linked → ∃ t, exec (.nekRenewal n) s
    = .next t ∧ (t.plc n).nek = s.freeBits 128 ∧ (t.plc n).nmk = (s.plc n).nmk ∧ (t.plc n).st = (s.plc n).st) ∧
  (∀ (n : Fin 66) (s : State), (s.plc n).st ≠ .matched ∧ (s.plc n).st ≠ .linked → ∃ t, exec (.nekRenewal n) s
    = .next t ∧ t = s) ∧
  (∀ (n : Fin 66) (m : Mpdu) (s : State), m.fcOk = false ∨ (s.plc n).st = .off → ∃ t, exec (.plcMpduReceive n
    m) s = .next t ∧ t = s) ∧
  (∀ (n : Fin 66) (m : Mpdu) (s : State), (s.plc n).st ≠ .off ∧ m.fcOk = true ∧ m.robo = false → ∃ t, exec
    (.plcMpduReceive n m) s = .next t ∧ (t.plc n).fcErr = (s.plc n).fcErr + 1 ∧ (t.plc n).rx = (s.plc n).rx) ∧
  (∀ (n : Fin 66) (m : Mpdu) (s : State), (s.plc n).fromStation n m = true ∧ m.fcOk = true ∧ m.robo = true ∧
    m.badPbs = 0 ∧ m.unicast = true ∧ m.kind = .data ∧ (s.plc n).rx.length < 16 → ∃ t, exec (.plcMpduReceive n
    m) s = .next t ∧ (t.plc n).rx = (s.plc n).rx ++ [m.data.length] ∧ (t.plc n).ack = some 0 ∧ (t.plc n).st =
    .linked) ∧
  (∀ (n : Fin 66) (m : Mpdu) (s : State), (s.plc n).st ≠ .off ∧ (s.plc n).fromStation n m = false ∧ m.fcOk =
    true ∧ m.robo = true ∧ m.badPbs = 0 ∧ m.unicast = false ∧ m.kind = .handled → ∃ t, exec (.plcMpduReceive n
    m) s = .next t ∧ t = s) ∧
  (∀ (n : Fin 66) (m : Mpdu) (s : State), (s.plc n).st ≠ .off ∧ (s.plc n).fromStation n m = false ∧ m.fcOk =
    true ∧ m.robo = true ∧ m.badPbs = 0 ∧ m.unicast = false ∧ m.kind = .unsupported true → ∃ t, exec
    (.plcMpduReceive n m) s = .next t ∧ (t.plc n).reply = some .failure) ∧
  (∀ (n : Fin 66) (m : Mpdu) (s : State), (s.plc n).st ≠ .off ∧ (s.plc n).fromStation n m = false ∧ m.fcOk =
    true ∧ m.robo = true ∧ m.badPbs = 0 ∧ m.unicast = false ∧ (m.kind = .unknown ∨ m.kind = .unsupported false)
    → ∃ t, exec (.plcMpduReceive n m) s = .next t ∧ (t.plc n).mgmtDrop = (s.plc n).mgmtDrop + 1 ∧ (t.plc
    n).reply = (s.plc n).reply) ∧
  (∀ (n : Fin 66) (m : Mpdu) (s : State), n.val < 64 ∧ (s.plc n).st = .linked ∧ m.fcOk = true ∧ m.robo = true
    ∧ m.badPbs = 0 ∧ m.unicast = false ∧ m.kind = .associate → ∃ t, exec (.plcMpduReceive n m) s = .next t ∧
    (t.plc n).reply = some (if (s.plc n).mac = some m.src then .associated else .refused)) ∧
  (∀ (n : Fin 66) (v : Word) (s : State), ∃ t, exec (.plcTxPost n v) s = .next t ∧ (t.plc n).txresp = (fld v
    16 16, (s.plc n).postStatus n (fld v 0 11)) ∧ (t.plc n).txq.length = (s.plc n).txq.length + (if (s.plc
    n).postStatus n (fld v 0 11) = .ok then 1 else 0)) ∧
  (∀ (n : Fin 66) (x : PlcTx) (r : List PlcTx) (s : State), (s.plc n).txq = x :: r ∧ x.phase ≠ .waiting ∧
    (s.plc n).done.length < 16 → ∃ t, exec (.plcSackReceived n 0) s = .next t ∧ (t.plc n).txq = r ∧ (t.plc
    n).done = (s.plc n).done ++ [⟨x.tag, x.tries + 1, .ok⟩]) ∧
  (∀ (n : Fin 66) (b : BitVec 4) (s : State), (s.plc n).txq = [] → ∃ t, exec (.plcSackReceived n b) s = .next
    t ∧ t = s) ∧
  (∀ (n : Fin 66) (x : PlcTx) (s : State), (s.plc n).txq.find? PlcTx.unsent = some x ∧ (s.plc n).done.length <
    16 → ∃ t, exec (.plcTxTimeout n) s = .next t ∧ (t.plc n).txq = (s.plc n).txq.erase x ∧ (t.plc n).done =
    (s.plc n).done ++ [⟨x.tag, 0, .timeout⟩]) ∧
  (∀ (n : Fin 66) (s : State), (s.plc n).txq.find? PlcTx.unsent = none → ∃ t, exec (.plcTxTimeout n) s = .next
    t ∧ t = s) ∧
  (∀ (n : Fin 66) (s : State), ∃ t, exec (.plcRxPop n) s = .next t ∧ (t.plc n).rx = (s.plc n).rx.drop 1) ∧
  (∀ (n : Fin 66) (s : State), ∃ t, exec (.plcTxdoneRead n) s = .next t ∧ (t.plc n).done = (s.plc n).done.drop
    1 ∧ t.app.clk.busErr = false) ∧
  (∀ (port : Fin 24) (n : Fin 66) (s : State), ∃ t, exec (.plcNtbRead port n) s = .next t ∧ t.app.clk.busData
    = s.ntb n ∧ (t.plc n).ntbHt.get port = s.ht)

/-- An eligible channel answers a parameter request with SLAC_RUN and notes the RunID; one that is not eligible
changes nothing. The first start indication of a RunID on a channel that measures opens its collection with the
announced number of sounds; a further one, or one on a channel that does not measure, changes nothing. A sound
on a channel that measures adds to that channel's profile in the collection of its RunID and in no other while
the channel has fewer sounds than announced; with the last announced one the collection closes; on a channel
that does not measure it changes nothing. A collection open for 600 ms closes, and the others stay; a younger
or unknown one stays as it is. A validation request of the selected RunID that needs one opens the toggle
window with the present toggle counts, any other changes nothing; the window's end notes whether the selected
channel alone saw the reported toggles, and changes nothing without a window. A match request of the selected
RunID in SLAC_RUN, validated where needed, gives a fresh NMK and the station in MATCHED, and any other changes
nothing; the timeout drops the selection and a channel in SLAC_RUN waits again; without a selection it changes
nothing. -/
def Obligations.SlacMatching : Prop :=
  (∀ (n : Fin 66) (r : BitVec 64) (s : State), s.slacEligible n r = true → ∃ t, exec (.slacParmReq n r) s =
    .next t ∧ (t.plc n).st = .slacRun ∧ r ∈ (t.plc n).runs) ∧
  (∀ (n : Fin 66) (r : BitVec 64) (s : State), s.slacEligible n r = false → ∃ t, exec (.slacParmReq n r) s =
    .next t ∧ t = s) ∧
  (∀ (n : Fin 66) (r : BitVec 64) (k : Nat) (s : State), s.slacHears n = true ∧ s.coll r = none → ∃ t, exec
    (.startAttenChar n r k) s = .next t ∧ t.coll r = some { run := r, sounds := k, opened := s.ht }) ∧
  (∀ (n : Fin 66) (r : BitVec 64) (k : Nat) (s : State), s.slacHears n = false ∨ (s.coll r).isSome = true → ∃
    t, exec (.startAttenChar n r k) s = .next t ∧ t = s) ∧
  (∀ (n : Fin 66) (r : BitVec 64) (g : List Nat) (s : State), s.slacHears n = true ∧ (soundAdd n r g
    s).collFull n r = false → ∃ t, exec (.slacSound n r g) s = .next t ∧ t.app.plc.colls = s.app.plc.colls.map
    (fun c => if c.run = r then { c with prof := c.prof.upd n (fun p => p.add g) } else c)) ∧
  (∀ (n : Fin 66) (r : BitVec 64) (g : List Nat) (s : State), s.slacHears n = true ∧ (soundAdd n r g
    s).collFull n r = true → ∃ t, exec (.slacSound n r g) s = .next t ∧ t.coll r = none) ∧
  (∀ (n : Fin 66) (r : BitVec 64) (g : List Nat) (s : State), s.slacHears n = false → ∃ t, exec (.slacSound n
    r g) s = .next t ∧ t = s) ∧
  (∀ (r : BitVec 64) (s : State), s.collOld r = true → ∃ t, exec (.slacCollectionClose r) s = .next t ∧ t.coll
    r = none ∧ ∀ c, c ∈ s.app.plc.colls → c.run ≠ r → c ∈ t.app.plc.colls) ∧
  (∀ (r : BitVec 64) (s : State), s.collOld r = false → ∃ t, exec (.slacCollectionClose r) s = .next t ∧ t = s) ∧
  (∀ (n : Fin 66) (r : BitVec 64) (s : State), (s.plc n).sel = some r ∧ (s.plc n).valReq = true → ∃ t, exec
    (.slacValidateReq n r) s = .next t ∧ (t.plc n).win = some ⟨(s.plc n).hset.map fun p => (p,
    s.app.plc.toggles.get p)⟩) ∧
  (∀ (n : Fin 66) (r : BitVec 64) (s : State), (s.plc n).sel ≠ some r ∨ (s.plc n).valReq = false → ∃ t, exec
    (.slacValidateReq n r) s = .next t ∧ t = s) ∧
  (∀ (n : Fin 66) (k : Nat) (w : ValWin) (s : State), (s.plc n).win = some w → ∃ t, exec
    (.slacValidateWindowEnd n k) s = .next t ∧ (t.plc n).win = none ∧ (t.plc n).valid = w.start.all (fun x =>
    if x.1 = n then s.app.plc.toggles.get x.1 - x.2 = k else s.app.plc.toggles.get x.1 - x.2 = 0)) ∧
  (∀ (n : Fin 66) (k : Nat) (s : State), (s.plc n).win = none → ∃ t, exec (.slacValidateWindowEnd n k) s =
    .next t ∧ t = s) ∧
  (∀ (n : Fin 66) (r : BitVec 64) (m : BitVec 48) (s : State), (s.plc n).st = .slacRun ∧ (s.plc n).sel = some
    r ∧ ((s.plc n).valReq = false ∨ (s.plc n).valid = true) → ∃ t, exec (.slacMatchReq n r m) s = .next t ∧
    (t.plc n).st = .matched ∧ (t.plc n).mac = some m ∧ (t.plc n).nmk = some (s.freeBits 128) ∧ (t.plc n).nid =
    nidOf (s.freeBits 128) ∧ (t.plc n).sel = none) ∧
  (∀ (n : Fin 66) (r : BitVec 64) (m : BitVec 48) (s : State), (s.plc n).st ≠ .slacRun ∨ (s.plc n).sel ≠ some
    r ∨ ((s.plc n).valReq = true ∧ (s.plc n).valid = false) → ∃ t, exec (.slacMatchReq n r m) s = .next t ∧ t =
    s) ∧
  (∀ (n : Fin 66) (s : State), (s.plc n).sel.isSome = true → ∃ t, exec (.slacMatchTimeout n) s = .next t ∧
    (t.plc n).sel = none ∧ (t.plc n).st = (if (s.plc n).st = .slacRun then .slacWait else (s.plc n).st)) ∧
  (∀ (n : Fin 66) (s : State), (s.plc n).sel = none → ∃ t, exec (.slacMatchTimeout n) s = .next t ∧ t = s)

/-- An engine that runs and may claim a point source of its own point posts the source's class to the context that
holds the point; one of another engine's point, or one of no point that no SES_XR entry names, is completed and
counted in MISROUTE; an engine that does not run, or has nothing to claim, changes nothing. The head of its
mailbox goes to its context with class 9 when that neither runs nor holds 8 messages, is discarded and counted
for a FREE context, and stays otherwise; an empty mailbox or a stopped engine changes nothing. An activation
runs the next READY context at the engine's entry with everything pending delivered; a stopped, halted or busy
engine, or one without a READY context, changes nothing. SES_DONE leaves the engine without a running context;
where it was delivered no class, no request waits for its answer and the session is in neither STOPPING nor
CLOSING, the context is IDLE, or READY with something pending; with none running it changes nothing. A budget
used up traps the context with cause 1 and its mtval; while budget is left, halted or with none running nothing
changes. A trap notice is committed to a mailbox with room; with it full nothing changes. A software event to a
context that is not FREE with fewer than 8 codes puts its code there and answers OK; to a FREE one STATE, to a
full one BUSY; from no running context, nothing; SES_POSTR from a port that may not write is a bus error.
EV_TAKE takes the classes 0 to 8 that are shown as live; a deadline reached posts class 5, and one not set, not
reached or of a FREE context changes nothing. -/
def Obligations.SessionActivations : Prop :=
  (∀ (e : Fin 8) (k p slot : Nat) (s : State), s.engRuns e = true ∧ s.engineClaim e ≠ 0 ∧ pointSource
    (s.engineClaim e) = some (k, p) ∧ p % 8 = e ∧ s.holder p = some slot ∧ (s.app.ctx.get slot).st ≠ .free ∧ k
    < 16 → ∃ t, exec (.reinSourceClaim e) s = .next t ∧ (t.app.ctx.get slot).pend.getLsbD k = true) ∧
  (∀ (e : Fin 8) (k p : Nat) (s : State), s.engRuns e = true ∧ s.engineClaim e ≠ 0 ∧ pointSource
    (s.engineClaim e) = some (k, p) ∧ p % 8 ≠ e → ∃ t, exec (.reinSourceClaim e) s = .next t ∧ (t.app.eng.get
    e).misroute = stick 255 (s.app.eng.get e).misroute 1 ∧ t.app.ctx = s.app.ctx) ∧
  (∀ (e : Fin 8) (s : State), s.engRuns e = true ∧ s.engineClaim e ≠ 0 ∧ pointSource (s.engineClaim e) = none
    ∧ s.xrOf e (s.engineClaim e) = none → ∃ t, exec (.reinSourceClaim e) s = .next t ∧ (t.app.eng.get
    e).misroute = stick 255 (s.app.eng.get e).misroute 1 ∧ t.app.ctx = s.app.ctx) ∧
  (∀ (e : Fin 8) (s : State), s.engRuns e = false ∨ s.engineClaim e = 0 → ∃ t, exec (.reinSourceClaim e) s =
    .next t ∧ t = s) ∧
  (∀ (e : Fin 8) (s : State), (s.app.mbx.pair.get (2 + e)).queue = [] ∨ s.engRuns e = false → ∃ t, exec
    (.reinMailboxStash e) s = .next t ∧ t = s) ∧
  (∀ (e : Fin 8) (m : List Word) (r : List (List Word)) (slot : Nat) (s : State), (s.app.mbx.pair.get (2 +
    e)).queue = m :: r ∧ slot = 32 * e + fld (m.getD 0 0) 0 5 ∧ (s.app.ctx.get slot).st ≠ .free ∧
    ((s.app.ctx.get slot).st = .running ∨ 8 ≤ (s.app.ctx.get slot).stash.length) → ∃ t, exec (.reinMailboxStash
    e) s = .next t ∧ t = s) ∧
  (∀ (e : Fin 8) (m : List Word) (r : List (List Word)) (s : State), (s.app.mbx.pair.get (2 + e)).queue = m ::
    r ∧ s.engRuns e = true ∧ (s.app.ctx.get (32 * e + fld (m.getD 0 0) 0 5)).st = .free → ∃ t, exec
    (.reinMailboxStash e) s = .next t ∧ (t.app.mbx.pair.get (2 + e)).queue = r ∧ (t.app.eng.get e).dropMsg =
    stick 63 (s.app.eng.get e).dropMsg 1) ∧
  (∀ (e : Fin 8) (m : List Word) (r : List (List Word)) (slot : Nat) (s : State), (s.app.mbx.pair.get (2 +
    e)).queue = m :: r ∧ s.engRuns e = true ∧ slot = 32 * e + fld (m.getD 0 0) 0 5 ∧ (s.app.ctx.get slot).st ≠
    .free ∧ (s.app.ctx.get slot).st ≠ .running ∧ (s.app.ctx.get slot).stash.length < 8 → ∃ t, exec
    (.reinMailboxStash e) s = .next t ∧ (t.app.mbx.pair.get (2 + e)).queue = r ∧ (t.app.ctx.get slot).stash =
    (s.app.ctx.get slot).stash ++ [m] ∧ (t.app.ctx.get slot).pend.getLsbD 9 = true) ∧
  (∀ (e : Fin 8) (k : Nat) (s : State), s.engRuns e = true ∧ s.engHalted e = false ∧ (s.app.eng.get e).running
    = none ∧ s.nextReady e = some k → ∃ t, exec (.reinActivation e) s = .next t ∧ (t.app.eng.get e).running =
    some k ∧ (t.app.ctx.get (32 * e + k)).st = .running ∧ (t.app.ctx.get (32 * e + k)).pend = 0 ∧
    (t.app.ctx.get (32 * e + k)).regs.pc = BitVec.ofNat 64 (0x04000000 + e * 0x80000 + (s.app.eng.get e).entry)) ∧
  (∀ (e : Fin 8) (s : State), s.engRuns e = false ∨ s.engHalted e = true ∨ (s.app.eng.get e).running.isSome =
    true ∨ s.nextReady e = none → ∃ t, exec (.reinActivation e) s = .next t ∧ t = s) ∧
  (∀ (e : Fin 8) (s : State), (s.app.eng.get e).running.isSome = true → ∃ t, exec (.sesDone e) s = .next t ∧
    (t.app.eng.get e).running = none) ∧
  (∀ (e : Fin 8) (s : State), (s.app.eng.get e).running = none → ∃ t, exec (.sesDone e) s = .next t ∧ t = s) ∧
  (∀ (e : Fin 8) (k : Nat) (s : State), (s.app.eng.get e).running = some k ∧ ((s.app.ctx.get (32 * e +
    k)).evWord.setWidth 16 ||| (s.app.ctx.get (32 * e + k)).taken) = 0 ∧ (s.vc (s.app.ctx.get (32 * e +
    k)).point).waiting = false ∧ s.phase (32 * e + k) ≠ 8 ∧ s.phase (32 * e + k) ≠ 9 ∧ (sesDone e
    s).sessionEnded (32 * e + k) = false → ∃ t, exec (.sesDone e) s = .next t ∧ (t.app.eng.get e).running =
    none ∧ (t.app.ctx.get (32 * e + k)).st = (if (s.app.ctx.get (32 * e + k)).pend = 0 then .idle else .ready)) ∧
  (∀ (e : Fin 8) (k : Nat) (s : State), s.engHalted e = false ∧ (s.app.eng.get e).running = some k ∧
    (s.app.ctx.get (32 * e + k)).left = 0 → ∃ t, exec (.budgetExhausted e) s = .next t ∧ (t.app.ctx.get (32 * e
    + k)).st = .trapped ∧ (t.app.ctx.get (32 * e + k)).cause = 1 ∧ (t.app.ctx.get (32 * e + k)).trapVal =
    s.ctxMtval e ∧ (t.app.eng.get e).running = none) ∧
  (∀ (e : Fin 8) (s : State), s.engHalted e = true ∨ s.budgetGone e = false → ∃ t, exec (.budgetExhausted e) s
    = .next t ∧ t = s) ∧
  (∀ (e : Fin 8) (s : State), 8 ≤ (s.app.mbx.pair.get (12 + e)).queue.length → ∃ t, exec (.trapNoticeCommit e)
    s = .next t ∧ t = s) ∧
  (∀ (e : Fin 8) (m : List Word) (s : State), (s.app.eng.get e).notices = [m] ∧ (s.app.mbx.pair.get (12 +
    e)).queue.length < 8 → ∃ t, exec (.trapNoticeCommit e) s = .next t ∧ (t.app.mbx.pair.get (12 + e)).queue =
    (s.app.mbx.pair.get (12 + e)).queue ++ [m] ∧ (t.app.eng.get e).notices = []) ∧
  (∀ (e : Fin 8) (v : Word) (k : Nat) (s : State), (s.app.eng.get e).running = some k ∧ (s.app.ctx.get (32 * e
    + fld v 0 5)).st ≠ .free ∧ (s.app.ctx.get (32 * e + fld v 0 5)).codes.length < 8 → ∃ t, exec (.sesPost e v)
    s = .next t ∧ (t.app.ctx.get (32 * e + fld v 0 5)).codes = (s.app.ctx.get (32 * e + fld v 0 5)).codes ++
    [BitVec.ofNat 8 (fld v 8 8)] ∧ (t.app.ctx.get (32 * e + k)).postSt = .ok) ∧
  (∀ (e : Fin 8) (v : Word) (k : Nat) (s : State), (s.app.eng.get e).running = some k ∧ ((s.app.ctx.get (32 *
    e + fld v 0 5)).st = .free ∨ 8 ≤ (s.app.ctx.get (32 * e + fld v 0 5)).codes.length) → ∃ t, exec (.sesPost e
    v) s = .next t ∧ (t.app.ctx.get (32 * e + k)).postSt = (if (s.app.ctx.get (32 * e + fld v 0 5)).st = .free
    then .state else .busy)) ∧
  (∀ (e : Fin 8) (v : Word) (s : State), (s.app.eng.get e).running = none → ∃ t, exec (.sesPost e v) s = .next
    t ∧ t = s) ∧
  (∀ (port : Fin 24) (e : Fin 8) (v : Word) (s : State), sesWriter port e = true ∧ port.val ≠ 4 + e ∧
    (s.app.ctx.get (32 * e + fld v 0 5)).st ≠ .free ∧ (s.app.ctx.get (32 * e + fld v 0 5)).codes.length < 8 → ∃
    t, exec (.sesPostr port e v) s = .next t ∧ (t.app.ctx.get (32 * e + fld v 0 5)).codes = (s.app.ctx.get (32
    * e + fld v 0 5)).codes ++ [BitVec.ofNat 8 (fld v 8 8)] ∧ (t.app.eng.get e).postrSt.get port = .ok) ∧
  (∀ (port : Fin 24) (e : Fin 8) (v : Word) (s : State), sesWriter port e = false → ∃ t, exec (.sesPostr port
    e v) s = .next t ∧ t = busFail s) ∧
  (∀ (port : Fin 24) (e : Fin 8) (v : Word) (s : State), sesWriter port e = true ∧ port.val ≠ 4 + e ∧
    ((s.app.ctx.get (32 * e + fld v 0 5)).st = .free ∨ 8 ≤ (s.app.ctx.get (32 * e + fld v 0 5)).codes.length) →
    ∃ t, exec (.sesPostr port e v) s = .next t ∧ (t.app.eng.get e).postrSt.get port = (if (s.app.ctx.get (32 *
    e + fld v 0 5)).st = .free then .state else .busy)) ∧
  (∀ (e : Fin 8) (v : Word) (k : Nat) (s : State), (s.app.eng.get e).running = some k → ∃ t, exec (.evTake e
    v) s = .next t ∧ (t.app.ctx.get (32 * e + k)).live = (s.app.ctx.get (32 * e + k)).live &&&
    ~~~((s.app.ctx.get (32 * e + k)).live &&& v.setWidth 16 &&& 0x1FF) ∧ (t.app.ctx.get (32 * e + k)).pend =
    (s.app.ctx.get (32 * e + k)).pend &&& ~~~((s.app.ctx.get (32 * e + k)).live &&& v.setWidth 16 &&& 0x1FF)) ∧
  (∀ (e : Fin 8) (v : Word) (s : State), (s.app.eng.get e).running = none → ∃ t, exec (.evTake e v) s = .next
    t ∧ t = s) ∧
  (∀ (slot : Fin 256) (s : State), s.num (ctxBase slot + 0x28) 8 = 0 ∨ s.ht < s.num (ctxBase slot + 0x28) 8 ∨
    (s.app.ctx.get slot).st = .free → ∃ t, exec (.reinTimerExpiry slot) s = .next t ∧ t = s) ∧
  (∀ (slot : Fin 256) (s : State), s.num (ctxBase slot + 0x28) 8 ≠ 0 ∧ s.num (ctxBase slot + 0x28) 8 ≤ s.ht ∧
    (s.app.ctx.get slot).st ≠ .free → ∃ t, exec (.reinTimerExpiry slot) s = .next t ∧ (t.app.ctx.get
    slot).pend.getLsbD 5 = true)

/-- From a core, the engine's own context or debug: a start that meets no check makes the slot READY with the point
and role written, the next generation and the START class; one that meets a check changes no context's state. A
restart makes a trapped context READY unless its cause is 3, and else changes no context's state; a free makes
a context that is neither FREE nor RUNNING FREE with nothing pending, and else changes no context's state; a
permitted change of role is taken, and another changes no context's role. From another master each of the four
writes is a bus error. A read of SES_USE returns the longest activation and clears it. -/
def Obligations.ContextCommands : Prop :=
  (∀ (port : Fin 24) (e : Fin 8) (v : Word) (s : State), sesWriter port e = true ∧ s.startStatus e (fld v 0 5)
    (fld v 8 6) (fld v 6 2) = .ok → ∃ t, exec (.sesStart port e v) s = .next t ∧ (t.app.ctx.get (32 * e + fld v
    0 5)).st = .ready ∧ (t.app.ctx.get (32 * e + fld v 0 5)).role = fld v 6 2 ∧ (t.app.ctx.get (32 * e + fld v
    0 5)).point = fld v 8 6 ∧ (t.app.ctx.get (32 * e + fld v 0 5)).gen = wrap16From1 (s.app.ctx.get (32 * e +
    fld v 0 5)).gen ∧ (t.app.ctx.get (32 * e + fld v 0 5)).pend = 1) ∧
  (∀ (port : Fin 24) (e : Fin 8) (v : Word) (s : State), sesWriter port e = true ∧ s.startStatus e (fld v 0 5)
    (fld v 8 6) (fld v 6 2) ≠ .ok → ∃ t, exec (.sesStart port e v) s = .next t ∧ ∀ j, (t.app.ctx.get j).st =
    (s.app.ctx.get j).st) ∧
  (∀ (port : Fin 24) (e : Fin 8) (v : Word) (s : State), sesWriter port e = false → ∃ t, exec (.sesStart port
    e v) s = .next t ∧ t = busFail s) ∧
  (∀ (port : Fin 24) (e : Fin 8) (v : Word) (s : State), sesWriter port e = true ∧ (s.app.ctx.get (32 * e +
    fld v 0 5)).st = .trapped ∧ (s.app.ctx.get (32 * e + fld v 0 5)).cause ≠ 3 → ∃ t, exec (.sesRestart port e
    v) s = .next t ∧ (t.app.ctx.get (32 * e + fld v 0 5)).st = .ready ∧ (t.app.ctx.get (32 * e + fld v 0
    5)).pend.getLsbD 0 = true) ∧
  (∀ (port : Fin 24) (e : Fin 8) (v : Word) (s : State), sesWriter port e = true ∧ ((s.app.ctx.get (32 * e +
    fld v 0 5)).st ≠ .trapped ∨ (s.app.ctx.get (32 * e + fld v 0 5)).cause = 3) → ∃ t, exec (.sesRestart port e
    v) s = .next t ∧ ∀ j, (t.app.ctx.get j).st = (s.app.ctx.get j).st) ∧
  (∀ (port : Fin 24) (e : Fin 8) (v : Word) (s : State), sesWriter port e = false → ∃ t, exec (.sesRestart
    port e v) s = .next t ∧ t = busFail s) ∧
  (∀ (port : Fin 24) (e : Fin 8) (v : Word) (s : State), sesWriter port e = true ∧ (s.app.ctx.get (32 * e +
    fld v 0 5)).st ≠ .free ∧ (s.app.ctx.get (32 * e + fld v 0 5)).st ≠ .running → ∃ t, exec (.sesFree port e v)
    s = .next t ∧ (t.app.ctx.get (32 * e + fld v 0 5)).st = .free ∧ (t.app.ctx.get (32 * e + fld v 0 5)).pend =
    0) ∧
  (∀ (port : Fin 24) (e : Fin 8) (v : Word) (s : State), sesWriter port e = true ∧ ((s.app.ctx.get (32 * e +
    fld v 0 5)).st = .free ∨ (s.app.ctx.get (32 * e + fld v 0 5)).st = .running) → ∃ t, exec (.sesFree port e
    v) s = .next t ∧ ∀ j, (t.app.ctx.get j).st = (s.app.ctx.get j).st) ∧
  (∀ (port : Fin 24) (e : Fin 8) (v : Word) (s : State), sesWriter port e = false → ∃ t, exec (.sesFree port e
    v) s = .next t ∧ t = busFail s) ∧
  (∀ (port : Fin 24) (e : Fin 8) (v : Word) (s : State), sesWriter port e = true ∧ (s.app.ctx.get (32 * e +
    fld v 0 5)).st ≠ .free ∧ roleStep (s.app.ctx.get (32 * e + fld v 0 5)).role (fld v 6 2) = true ∧
    s.slotOfRole (s.app.ctx.get (32 * e + fld v 0 5)).point (fld v 6 2) = none → ∃ t, exec (.sesSetrole port e
    v) s = .next t ∧ (t.app.ctx.get (32 * e + fld v 0 5)).role = fld v 6 2 ∧ (t.app.ctx.get (32 * e + fld v 0
    5)).st = (s.app.ctx.get (32 * e + fld v 0 5)).st) ∧
  (∀ (port : Fin 24) (e : Fin 8) (v : Word) (s : State), sesWriter port e = true ∧ ((s.app.ctx.get (32 * e +
    fld v 0 5)).st = .free ∨ roleStep (s.app.ctx.get (32 * e + fld v 0 5)).role (fld v 6 2) = false ∨
    (s.slotOfRole (s.app.ctx.get (32 * e + fld v 0 5)).point (fld v 6 2)).isSome = true) → ∃ t, exec
    (.sesSetrole port e v) s = .next t ∧ ∀ j, (t.app.ctx.get j).role = (s.app.ctx.get j).role) ∧
  (∀ (port : Fin 24) (e : Fin 8) (v : Word) (s : State), sesWriter port e = false → ∃ t, exec (.sesSetrole
    port e v) s = .next t ∧ t = busFail s) ∧
  (∀ (slot : Fin 256) (s : State), ∃ t, exec (.sesUseRead slot) s = .next t ∧ t.app.clk.busData = BitVec.ofNat
    32 (s.app.ctx.get slot).useMax ∧ (t.app.ctx.get slot).useMax = 0)

/-- On a served SDO channel without an open transfer a segmented download opens one; an expedited download is
served as a write, and an upload answered OK with 1 to 4 bytes as a read. A download segment of the right
toggle that is not the last adds its bytes and flips the toggle; one of the wrong toggle, or of an upload, ends
the transfer. The upload segment of the right toggle that takes the last 7 bytes or fewer ends it, one of the
wrong toggle or of a download too; an unsupported command ends it. On a channel not served each of the five
changes nothing. In mode 2 a client that is served and has no open transfer has a read of at most 56 bytes
answered at once, a write served, and a segmented download opened when fewer than 8 are open; a segment without
an open transfer is aborted; a download segment that is not the last adds its bytes; the upload segment that
takes the last 56 bytes or fewer ends the transfer. In another mode, from node 0, or for a client that is not
served, a USDO request changes nothing. A segment timeout ends the open transfer of its client and counts a
TIMEOUT; without one it changes nothing. It rests also on the model's choices of assumption 52. -/
def Obligations.SdoAndUsdoTransfers : Prop :=
  (∀ (f : Fin 2) (ch : Fin 8) (i : BitVec 16) (j : BitVec 8) (n : Nat) (d : List Byte) (s : State), s.sdoOn f
    ch = true ∧ (s.fport f).sdo.get ch = none → ∃ t, exec (.sdoInitiateDownload f ch i j false n d) s = .next t
    ∧ (t.fport f).sdo.get ch = some
    { idx := i.toNat, sub := j.toNat, down := true, role := s.sdoRole f ch, data := [], total := n }) ∧
  (∀ (f : Fin 2) (ch : Fin 8) (i : BitVec 16) (j : BitVec 8) (n : Nat) (d : List Byte) (s : State), s.sdoOn f
    ch = true ∧ (s.fport f).sdo.get ch = none → ∃ t, exec (.sdoInitiateDownload f ch i j true n d) s = .next t
    ∧ t = sdoWrite f ch (s.sdoRole f ch) 0x60 i.toNat j.toNat d s) ∧
  (∀ (f : Fin 2) (ch : Fin 8) (i : BitVec 16) (j : BitVec 8) (x : Bool) (n : Nat) (d : List Byte) (s : State),
    s.sdoOn f ch = false → ∃ t, exec (.sdoInitiateDownload f ch i j x n d) s = .next t ∧ t = s) ∧
  (∀ (f : Fin 2) (ch : Fin 8) (g : Bool) (d : List Byte) (x : SdoXfer) (s : State), s.sdoOn f ch = true ∧
    (s.fport f).sdo.get ch = some x ∧ x.down = true ∧ g = x.toggle → ∃ t, exec (.sdoDownloadSegment f ch g
    false d) s = .next t ∧ (t.fport f).sdo.get ch = some { x with data := x.data ++ d, toggle := !x.toggle }) ∧
  (∀ (f : Fin 2) (ch : Fin 8) (g last : Bool) (d : List Byte) (x : SdoXfer) (s : State), s.sdoOn f ch = true ∧
    (s.fport f).sdo.get ch = some x ∧ (x.down = false ∨ g ≠ x.toggle) → ∃ t, exec (.sdoDownloadSegment f ch g
    last d) s = .next t ∧ (t.fport f).sdo.get ch = none) ∧
  (∀ (f : Fin 2) (ch : Fin 8) (g last : Bool) (d : List Byte) (s : State), s.sdoOn f ch = false → ∃ t, exec
    (.sdoDownloadSegment f ch g last d) s = .next t ∧ t = s) ∧
  (∀ (f : Fin 2) (ch : Fin 8) (i : BitVec 16) (j : BitVec 8) (s : State), s.sdoOn f ch = true ∧ (s.fport
    f).sdo.get ch = none ∧ (readRequest (s.canAsker f ch (s.sdoRole f ch)) i.toNat j.toNat s).1 = .ok ∧ within
    1 (readRequest (s.canAsker f ch (s.sdoRole f ch)) i.toNat j.toNat s).2.1.length 4 = true → ∃ t, exec
    (.sdoInitiateUpload f ch i j) s = .next t ∧ t = sdoReply f ch (BitVec.ofNat 8 (0x43 + 4 * (4 - (readRequest
    (s.canAsker f ch (s.sdoRole f ch)) i.toNat j.toNat s).2.1.length))) i.toNat j.toNat (readRequest
    (s.canAsker f ch (s.sdoRole f ch)) i.toNat j.toNat s).2.1 (readRequest (s.canAsker f ch (s.sdoRole f ch))
    i.toNat j.toNat s).2.2) ∧
  (∀ (f : Fin 2) (ch : Fin 8) (i : BitVec 16) (j : BitVec 8) (s : State), s.sdoOn f ch = false → ∃ t, exec
    (.sdoInitiateUpload f ch i j) s = .next t ∧ t = s) ∧
  (∀ (f : Fin 2) (ch : Fin 8) (g : Bool) (x : SdoXfer) (s : State), s.sdoOn f ch = true ∧ (s.fport f).sdo.get
    ch = some x ∧ (x.down = true ∨ g ≠ x.toggle ∨ x.data.length ≤ 7) → ∃ t, exec (.sdoUploadSegment f ch g) s =
    .next t ∧ (t.fport f).sdo.get ch = none) ∧
  (∀ (f : Fin 2) (ch : Fin 8) (g : Bool) (s : State), s.sdoOn f ch = false → ∃ t, exec (.sdoUploadSegment f ch
    g) s = .next t ∧ t = s) ∧
  (∀ (f : Fin 2) (ch : Fin 8) (s : State), s.sdoOn f ch = true → ∃ t, exec (.sdoUnsupportedCommand f ch) s =
    .next t ∧ (t.fport f).sdo.get ch = none) ∧
  (∀ (f : Fin 2) (ch : Fin 8) (s : State), s.sdoOn f ch = false → ∃ t, exec (.sdoUnsupportedCommand f ch) s =
    .next t ∧ t = s) ∧
  (∀ (f : Fin 2) (n : Fin 128) (r : UsdoReq) (s : State), (s.fport f).mode ≠ 2 ∨ n.val = 0 ∨ s.onum (0x2024 +
    f) n = 255 ∨ s.portServes f = false → ∃ t, exec (.usdoRequest f n r) s = .next t ∧ t = s) ∧
  (∀ (f : Fin 2) (n : Fin 128) (i : BitVec 16) (j : BitVec 8) (role : Role) (s : State), s.portServes f = true
    ∧ (s.fport f).mode = 2 ∧ n.val ≠ 0 ∧ s.onum (0x2024 + f) n ≠ 255 ∧ role = (if s.onum (0x2024 + f) n = 2
    then .operator else .pub) ∧ (s.fport f).usdo.get n = none ∧ (readRequest (s.canAsker f (8 + n) role)
    i.toNat j.toNat s).1 = .ok ∧ (readRequest (s.canAsker f (8 + n) role) i.toNat j.toNat s).2.1.length ≤ 56 →
    ∃ t, exec (.usdoRequest f n (.read i j)) s = .next t ∧ t = usdoSend f n 0 (readRequest (s.canAsker f (8 +
    n) role) i.toNat j.toNat s).2.1 (readRequest (s.canAsker f (8 + n) role) i.toNat j.toNat s).2.2) ∧
  (∀ (f : Fin 2) (n : Fin 128) (i : BitVec 16) (j : BitVec 8) (d : List Byte) (s : State), s.portServes f =
    true ∧ (s.fport f).mode = 2 ∧ n.val ≠ 0 ∧ s.onum (0x2024 + f) n ≠ 255 ∧ (s.fport f).usdo.get n = none → ∃
    t, exec (.usdoRequest f n (.write i j d)) s = .next t ∧ t = usdoWrite f n (if s.onum (0x2024 + f) n = 2
    then .operator else .pub) i.toNat j.toNat d s) ∧
  (∀ (f : Fin 2) (n : Fin 128) (i : BitVec 16) (j : BitVec 8) (k : Nat) (d : List Byte) (s : State),
    s.portServes f = true ∧ (s.fport f).mode = 2 ∧ n.val ≠ 0 ∧ s.onum (0x2024 + f) n ≠ 255 ∧ (s.fport
    f).usdo.get n = none ∧ s.usdoOpen f < 8 → ∃ t, exec (.usdoRequest f n (.downInit i j k d)) s = .next t ∧
    (t.fport f).usdo.get n = some
    { idx := i.toNat, sub := j.toNat, down := true, role := (if s.onum (0x2024 + f) n = 2 then .operator else .pub), data := d, total := k }) ∧
  (∀ (f : Fin 2) (n : Fin 128) (l : Bool) (d : List Byte) (s : State), s.portServes f = true ∧ (s.fport
    f).mode = 2 ∧ n.val ≠ 0 ∧ s.onum (0x2024 + f) n ≠ 255 ∧ (s.fport f).usdo.get n = none → ∃ t, exec
    (.usdoRequest f n (.downSeg l d)) s = .next t ∧ t = usdoSend f n 0x05040001 [] s) ∧
  (∀ (f : Fin 2) (n : Fin 128) (d : List Byte) (x : SdoXfer) (s : State), s.portServes f = true ∧ (s.fport
    f).mode = 2 ∧ n.val ≠ 0 ∧ s.onum (0x2024 + f) n ≠ 255 ∧ (s.fport f).usdo.get n = some x ∧ x.down = true → ∃
    t, exec (.usdoRequest f n (.downSeg false d)) s = .next t ∧ (t.fport f).usdo.get n = some
    { x with data := x.data ++ d }) ∧
  (∀ (f : Fin 2) (n : Fin 128) (s : State), s.portServes f = true ∧ (s.fport f).mode = 2 ∧ n.val ≠ 0 ∧ s.onum
    (0x2024 + f) n ≠ 255 ∧ (s.fport f).usdo.get n = none → ∃ t, exec (.usdoRequest f n .upSeg) s = .next t ∧ t
    = usdoSend f n 0x05040001 [] s) ∧
  (∀ (f : Fin 2) (n : Fin 128) (x : SdoXfer) (s : State), s.portServes f = true ∧ (s.fport f).mode = 2 ∧ n.val
    ≠ 0 ∧ s.onum (0x2024 + f) n ≠ 255 ∧ (s.fport f).usdo.get n = some x ∧ x.down = false ∧ x.data.length ≤ 56 →
    ∃ t, exec (.usdoRequest f n .upSeg) s = .next t ∧ (t.fport f).usdo.get n = none) ∧
  (∀ (f : Fin 2) (ch : Fin 8) (x : SdoXfer) (s : State), (s.fport f).sdo.get ch = some x → ∃ t, exec
    (.sdoSegmentTimeout f (.sdo ch)) s = .next t ∧ (t.fport f).sdo.get ch = none ∧ t.app.server.timeouts =
    stick (2 ^ 32 - 1) s.app.server.timeouts 1) ∧
  (∀ (f : Fin 2) (n : Fin 128) (s : State), ((s.fport f).usdo.get n).isSome = true → ∃ t, exec
    (.sdoSegmentTimeout f (.usdo n)) s = .next t ∧ (t.fport f).usdo.get n = none ∧ t.app.server.timeouts =
    stick (2 ^ 32 - 1) s.app.server.timeouts 1) ∧
  (∀ (f : Fin 2) (ch : Fin 8) (s : State), (s.fport f).sdo.get ch = none → ∃ t, exec (.sdoSegmentTimeout f
    (.sdo ch)) s = .next t ∧ t = s) ∧
  (∀ (f : Fin 2) (n : Fin 128) (s : State), (s.fport f).usdo.get n = none → ∃ t, exec (.sdoSegmentTimeout f
    (.usdo n)) s = .next t ∧ t = s)

/-- A port that hears enters operational, stopped (its transfers end) or pre-operational as commanded, and a reset
of the communication or the node boots its stack again with the stored mode and node and no transfer; a port
that does not hear changes nothing at any of the five. A heartbeat with a period of 0 changes nothing, else at
a port that sends its frame is the newest sent. A SYNC outside operational changes nothing and in operational
is answered by the port's process data in order; an event timer at an operational port that hears, of a TPDO
that is on, event-driven, timed and not inhibited, sends it, and else changes nothing. A bus-off ends the
transfers; its recovery ends it and the error-passive state, and changes nothing at a port not at bus-off; the
error-passive state is kept once. -/
def Obligations.FieldPortStatesAndPdos : Prop :=
  (∀ (f : Fin 2) (s : State), s.portHears f = true → ∃ t, exec (.nmtStart f) s = .next t ∧ (t.fport f).nmt =
    .oper ∧ (t.fport f).sdo = (s.fport f).sdo) ∧
  (∀ (f : Fin 2) (s : State), s.portHears f = false → ∃ t, exec (.nmtStart f) s = .next t ∧ t = s) ∧
  (∀ (f : Fin 2) (s : State), s.portHears f = true → ∃ t, exec (.nmtStop f) s = .next t ∧ (t.fport f).nmt =
    .stopped ∧ ∀ c, (t.fport f).sdo.get c = none ∧ (t.fport f).usdo.get c = none) ∧
  (∀ (f : Fin 2) (s : State), s.portHears f = false → ∃ t, exec (.nmtStop f) s = .next t ∧ t = s) ∧
  (∀ (f : Fin 2) (s : State), s.portHears f = true → ∃ t, exec (.nmtEnterPreoperational f) s = .next t ∧
    (t.fport f).nmt = .preop) ∧
  (∀ (f : Fin 2) (s : State), s.portHears f = false → ∃ t, exec (.nmtEnterPreoperational f) s = .next t ∧ t =
    s) ∧
  (∀ (f : Fin 2) (s : State), s.portHears f = true → ∃ t, exec (.nmtResetCommunication f) s = .next t ∧
    (t.fport f).mode = s.onum (0x2020 + f) 1 ∧ (t.fport f).node = s.onum (0x2020 + f) 4 ∧ ∀ c, (t.fport
    f).sdo.get c = none) ∧
  (∀ (f : Fin 2) (s : State), s.portHears f = false → ∃ t, exec (.nmtResetCommunication f) s = .next t ∧ t = s) ∧
  (∀ (f : Fin 2) (s : State), s.portHears f = true → ∃ t, exec (.nmtResetNode f) s = .next t ∧ (t.fport
    f).mode = s.onum (0x2020 + f) 1 ∧ (t.fport f).node = s.onum (0x2020 + f) 4 ∧ ∀ c, (t.fport f).sdo.get c =
    none) ∧
  (∀ (f : Fin 2) (s : State), s.portHears f = false → ∃ t, exec (.nmtResetNode f) s = .next t ∧ t = s) ∧
  (∀ (f : Fin 2) (s : State), s.comm f 0x1017 0 = 0 → ∃ t, exec (.canopenHeartbeat f) s = .next t ∧ t = s) ∧
  (∀ (f : Fin 2) (s : State), s.comm f 0x1017 0 ≠ 0 ∧ s.portSends f = true → ∃ t, exec (.canopenHeartbeat f) s
    = .next t ∧ (t.fport f).sent =
    ({ id := 0x700 + (s.fport f).node, fd := false, data := toLE 1 (nmtCode (s.fport f).nmt) } :: (s.fport
    f).sent).take 64) ∧
  (∀ (f : Fin 2) (s : State), s.portHears f = false ∨ (s.fport f).nmt ≠ .oper → ∃ t, exec (.sync f) s = .next
    t ∧ t = s) ∧
  (∀ (f : Fin 2) (s : State), s.portHears f = true ∧ (s.fport f).nmt = .oper → ∃ t, exec (.sync f) s = .next t
    ∧ t = (List.range 32).foldl (tpdoSync f) s) ∧
  (∀ (f : Fin 2) (n : Fin 32) (s : State), s.portHears f = false ∨ (s.fport f).nmt ≠ .oper ∨ ((s.fport
    f).tpdo.get n).on = false ∨ ((s.fport f).tpdo.get n).type < 254 ∨ ((s.fport f).tpdo.get n).timer = 0 ∨
    s.uninhibited ((s.fport f).tpdo.get n) ((s.fport f).trun.get n) = false → ∃ t, exec (.tpdoEventTimer f n) s
    = .next t ∧ t = s) ∧
  (∀ (f : Fin 2) (n : Fin 32) (s : State), s.portHears f = true ∧ (s.fport f).nmt = .oper ∧ ((s.fport
    f).tpdo.get n).on = true ∧ 254 ≤ ((s.fport f).tpdo.get n).type ∧ ((s.fport f).tpdo.get n).timer ≠ 0 ∧
    s.uninhibited ((s.fport f).tpdo.get n) ((s.fport f).trun.get n) = true → ∃ t, exec (.tpdoEventTimer f n) s
    = .next t ∧ (t.fport f).trun.get n =
    { syncs := 0, sent := some s.ht, last := s.tpdoValue ((s.fport f).tpdo.get n) }) ∧
  (∀ (f : Fin 2) (s : State), ∃ t, exec (.canBusOff f) s = .next t ∧ (t.fport f).busOff = true ∧ ∀ c, (t.fport
    f).sdo.get c = none ∧ (t.fport f).usdo.get c = none) ∧
  (∀ (f : Fin 2) (s : State), (s.fport f).busOff = true → ∃ t, exec (.canBusOffRecovery f) s = .next t ∧
    (t.fport f).busOff = false ∧ (t.fport f).passive = false) ∧
  (∀ (f : Fin 2) (s : State), (s.fport f).busOff = false → ∃ t, exec (.canBusOffRecovery f) s = .next t ∧ t =
    s) ∧
  (∀ (f : Fin 2) (s : State), ∃ t, exec (.canErrorPassive f) s = .next t ∧ (t.fport f).passive = true) ∧
  (∀ (f : Fin 2) (s : State), (s.fport f).passive = true → ∃ t, exec (.canErrorPassive f) s = .next t ∧ t = s)

/-- With the server up, the TCP port of 2030h.02, a free connection below the limit, an anchor that fixes a role
and a handshake that succeeds, a connection opens with that anchor's role, expiry and name; with another TCP
port or at the limit it is reset, with a handshake that fails it is an alert, and both open nothing; with the
server down nothing changes. Each frame on an open connection sets the time it was heard; on a closed
connection each of the commands changes nothing. A read and a write are the dictionary's with the connection's
role, answered by latReply. A subscription that meets no check is answered with the value and kept under its
identifier, one that meets a check is answered with its status. An unsubscription of a kept identifier drops it
and is answered OK while the port's link is up, as is a keep-alive; one of another identifier is answered with
a free status (log 51). A notification whose entry has become STALE drops the subscription, and one of an
identifier not kept changes nothing. A frame that cannot be framed further is answered with RANGE and closes;
one of an unknown operation is answered with RANGE and does not. The idle timeout closes a connection that was
not heard for its idle time and the certificate's expiry one whose time in LT has come, and else both change
nothing; a close ends its connection and no other. It rests also on the model's choices of assumption 73. -/
def Obligations.LatigoConnections : Prop :=
  (∀ (k : TlsHello) (c a : Nat) (s : State), s.latUp k.port = true ∧ k.tcpPort.toNat = s.onum 0x2030 2 ∧
    (List.range 16).find? (fun c => (s.conn c).isNone) = some c ∧ s.connCount < s.onum 0x2030 3 ∧
    s.roleAnchorOf k.anchors = some a ∧ s.tlsOk k = true → ∃ t, exec (.latigoConnect k) s = .next t ∧ t.conn c
    = some
    { port := k.port, role := anchorClient (s.slot a), expiry := k.expiryMs, name := k.commonName, idle := s.onum 0x2030 5, heard := s.ht }
    ∧ t.app.server.latOpen = .opened) ∧
  (∀ (k : TlsHello) (s : State), s.latUp k.port = true ∧ (k.tcpPort.toNat ≠ s.onum 0x2030 2 ∨ (List.range
    16).find? (fun c => (s.conn c).isNone) = none ∨ s.onum 0x2030 3 ≤ s.connCount) → ∃ t, exec (.latigoConnect
    k) s = .next t ∧ t = { s with app.server.latOpen := .reset }) ∧
  (∀ (k : TlsHello) (c : Nat) (s : State), s.latUp k.port = true ∧ k.tcpPort.toNat = s.onum 0x2030 2 ∧
    (List.range 16).find? (fun c => (s.conn c).isNone) = some c ∧ s.connCount < s.onum 0x2030 3 ∧
    (s.roleAnchorOf k.anchors = none ∨ s.tlsOk k = false) → ∃ t, exec (.latigoConnect k) s = .next t ∧ t =
    { s with app.server.latOpen := .alert }) ∧
  (∀ (k : TlsHello) (s : State), s.latUp k.port = false → ∃ t, exec (.latigoConnect k) s = .next t ∧ t = s) ∧
  (∀ (c : Fin 16) (r : LatigoReq) (x : Conn) (w : State) (s : State), s.conn c = some x ∧ w = s.updConn c (fun
    z => { z with heard := s.ht }) → ∃ t, exec (.latigoRead c r) s = .next t ∧ t = latReply c 1 r (readRequest
    (latAsker c x r) r.idx.toNat r.sub.toNat w).1 (readRequest (latAsker c x r) r.idx.toNat r.sub.toNat w).2.1
    (readRequest (latAsker c x r) r.idx.toNat r.sub.toNat w).2.2) ∧
  (∀ (c : Fin 16) (r : LatigoReq) (s : State), s.conn c = none → ∃ t, exec (.latigoRead c r) s = .next t ∧ t =
    s) ∧
  (∀ (c : Fin 16) (r : LatigoReq) (d : List Byte) (x : Conn) (w : State) (s : State), s.conn c = some x ∧ w =
    s.updConn c (fun z => { z with heard := s.ht }) → ∃ t, exec (.latigoWrite c r d) s = .next t ∧ t = latReply
    c 2 r (writeRequest (latAsker c x r) r.idx.toNat r.sub.toNat d w).1 [] (writeRequest (latAsker c x r)
    r.idx.toNat r.sub.toNat d w).2) ∧
  (∀ (c : Fin 16) (r : LatigoReq) (d : List Byte) (s : State), s.conn c = none → ∃ t, exec (.latigoWrite c r
    d) s = .next t ∧ t = s) ∧
  (∀ (c : Fin 16) (r : LatigoReq) (n : Nat) (x : Conn) (w : State) (y : Status × List Byte × State) (s :
    State), s.conn c = some x ∧ w = s.updConn c (fun z => { z with heard := s.ht }) ∧ y = serveRead (latAsker c
    x r) r.idx.toNat r.sub.toNat w ∧ w.subStatus x y.1 n = .ok → ∃ t, exec (.latigoSubscribe c r n) s = .next t
    ∧ t = latReply c 3 r .ok y.2.1 ((answered (.latigo c) .ok y.2.2).updConn c fun z =>
    { z with subs := z.subs.filter (·.id ≠ r.id) ++ [{ id := r.id, idx := r.idx.toNat, sub := r.sub.toNat, handle := r.handle.toNat, serial := r.serial.toNat, interval := n, value := y.2.1 }] })) ∧
  (∀ (c : Fin 16) (r : LatigoReq) (n : Nat) (x : Conn) (w : State) (y : Status × List Byte × State) (s :
    State), s.conn c = some x ∧ w = s.updConn c (fun z => { z with heard := s.ht }) ∧ y = serveRead (latAsker c
    x r) r.idx.toNat r.sub.toNat w ∧ w.subStatus x y.1 n ≠ .ok → ∃ t, exec (.latigoSubscribe c r n) s = .next t
    ∧ t = latReply c 3 r (w.subStatus x y.1 n) [] (answered (.latigo c) (w.subStatus x y.1 n) y.2.2)) ∧
  (∀ (c : Fin 16) (r : LatigoReq) (n : Nat) (s : State), s.conn c = none → ∃ t, exec (.latigoSubscribe c r n)
    s = .next t ∧ t = s) ∧
  (∀ (c : Fin 16) (id : Word) (x : Conn) (s : State), s.conn c = some x ∧ x.subs.any (·.id = id) = true ∧
    s.app.clk.ethUp.getLsbD x.port = true → ∃ t, exec (.latigoUnsubscribe c id) s = .next t ∧ t.conn c = some
    { x with subs := x.subs.filter (·.id ≠ id), last := .ok, heard := s.ht } ∧ t.app.server.lat.head? = some
    { conn := c, op := 4, reply := true, id := id, status := .ok }) ∧
  (∀ (c : Fin 16) (id : Word) (x : Conn) (w : State) (s : State), s.conn c = some x ∧ w = s.updConn c (fun z
    => { z with heard := s.ht }) ∧ x.subs.any (·.id = id) = false → ∃ t, exec (.latigoUnsubscribe c id) s =
    .next t ∧ t = latPlain c 4 id w.freeStatus (answered (.latigo c) w.freeStatus w.used)) ∧
  (∀ (c : Fin 16) (id : Word) (s : State), s.conn c = none → ∃ t, exec (.latigoUnsubscribe c id) s = .next t ∧
    t = s) ∧
  (∀ (c : Fin 16) (id : Word) (x : Conn) (s : State), s.conn c = some x ∧ s.app.clk.ethUp.getLsbD x.port =
    true → ∃ t, exec (.latigoKeepalive c id) s = .next t ∧ t.conn c = some
    { x with last := .ok, heard := s.ht } ∧ t.app.server.lat.head? = some
    { conn := c, op := 6, reply := true, id := id, status := .ok }) ∧
  (∀ (c : Fin 16) (id : Word) (s : State), s.conn c = none → ∃ t, exec (.latigoKeepalive c id) s = .next t ∧ t
    = s) ∧
  (∀ (c : Fin 16) (id : Word) (e : Bool) (x : Conn) (u : LatSub) (s : State), s.conn c = some x ∧ x.subs.find?
    (·.id = id) = some u ∧ (serveRead
    { via := .latigo c, role := x.role, handle := u.handle, serial := u.serial } u.idx u.sub s).1 = .stale ∧
    s.app.clk.ethUp.getLsbD x.port = true → ∃ t, exec (.latigoNotify c id e) s = .next t ∧ t.conn c = some
    { x with subs := x.subs.filter (·.id ≠ id) } ∧ t.app.server.lat.head? = some
    { conn := c, op := 5, coalesced := false, id := u.id, idx := u.idx, sub := u.sub, status := .stale, handle := u.handle, serial := u.serial, payload := [] }) ∧
  (∀ (c : Fin 16) (id : Word) (e : Bool) (x : Conn) (s : State), s.conn c = some x ∧ x.subs.find? (·.id = id)
    = none → ∃ t, exec (.latigoNotify c id e) s = .next t ∧ t = s) ∧
  (∀ (c : Fin 16) (id : Word) (e : Bool) (s : State), s.conn c = none → ∃ t, exec (.latigoNotify c id e) s =
    .next t ∧ t = s) ∧
  (∀ (c : Fin 16) (k : LatHead) (x : Conn) (s : State), s.conn c = some x ∧ badHead k = true ∧
    s.app.clk.ethUp.getLsbD x.port = true → ∃ t, exec (.latigoBadFrame c k) s = .next t ∧ t.conn c = none ∧
    t.app.server.lat.head? = some { conn := c, op := k.op.toNat, reply := true, id := k.id, status := .range }) ∧
  (∀ (c : Fin 16) (k : LatHead) (x : Conn) (s : State), s.conn c = some x ∧ badHead k = false ∧ unknownOp k =
    true ∧ s.app.clk.ethUp.getLsbD x.port = true → ∃ t, exec (.latigoBadFrame c k) s = .next t ∧ t.conn c =
    some { x with last := .range, heard := s.ht } ∧ t.app.server.lat.head? = some
    { conn := c, op := k.op.toNat, reply := true, id := k.id, status := .range }) ∧
  (∀ (c : Fin 16) (k : LatHead) (s : State), s.conn c = none → ∃ t, exec (.latigoBadFrame c k) s = .next t ∧ t
    = s) ∧
  (∀ (c : Fin 16) (x : Conn) (s : State), s.conn c = some x ∧ x.quiet s.ht = true → ∃ t, exec
    (.latigoIdleTimeout c) s = .next t ∧ t.conn c = none ∧ ∀ d, d ≠ c.val → t.conn d = s.conn d) ∧
  (∀ (c : Fin 16) (x : Conn) (s : State), s.conn c = some x ∧ x.quiet s.ht = false → ∃ t, exec
    (.latigoIdleTimeout c) s = .next t ∧ t = s) ∧
  (∀ (c : Fin 16) (s : State), s.conn c = none → ∃ t, exec (.latigoIdleTimeout c) s = .next t ∧ t = s) ∧
  (∀ (c : Fin 16) (x : Conn) (s : State), s.conn c = some x → ∃ t, exec (.latigoCertExpiry c) s = .next t ∧
    t.conn c = (if x.expiry ≤ s.die.legal.lt then none else some x)) ∧
  (∀ (c : Fin 16) (s : State), s.conn c = none → ∃ t, exec (.latigoCertExpiry c) s = .next t ∧ t = s) ∧
  (∀ (c : Fin 16) (s : State), ∃ t, exec (.latigoClose c) s = .next t ∧ t.conn c = none ∧ ∀ d, d ≠ c.val →
    t.conn d = s.conn d)

/-- Each of GENERATE, IMPORT, DERIVE and DELETE is the Tack room's service of its command number under its Girth
kinds, with the named operation; while the Tack room does not run it changes nothing. With the grants obtained
(state u): GENERATE into a slot the firmware may fill, of a secret type, without a parent and outside slots 16
to 47, gives it a content of 66 free bytes; IMPORT of a certificate or an anchor gives it the bytes of the
buffer as its public part, and of a wrapped key under a parent that grants it, unwrapped well, the bytes as its
content; DERIVE under a parent with that use gives it the key derivation of the parent's content with the label
and an empty context; DELETE of a slot that holds something leaves it without a content. In each of these the
slot's generation is one higher (it stops at 65535) and every other slot keeps content, public part and
generation. That the context is empty is the model's choice (log 49), and that grants come and end within the
command (log 51). It rests also on the model's choices of assumptions 48 and 51. -/
def Obligations.TackSlots : Prop :=
  (∀ (i : BitVec 8) (a : Word) (u : State) (s : State), s.tackUp = true ∧ girthRun 14 ([7] ++ wrapKinds (bit a
    6)) s = some u ∧ s.slotFillable i.toNat .firmware = .ok ∧ s.fuses.decom = false ∧ within 16 i.toNat 47 =
    false ∧ attrOk a = true ∧ secretType (fld a 12 4) = true ∧ fld a 24 8 = 0xFF → ∃ t, exec (.generate i a) s
    = .next t ∧ (t.slot i.toNat).gen = stick 65535 (s.slot i.toNat).gen 1 ∧ (t.slot i.toNat).content =
    (List.range 66).map (fun k => (s.freeBits 1056).extractLsb' (8 * k) 8) ∧ ∀ j, j ≠ i.toNat → (t.slot
    j).content = (s.slot j).content ∧ (t.slot j).pub = (s.slot j).pub ∧ (t.slot j).gen = (s.slot j).gen) ∧
  (∀ (i : BitVec 8) (a : Word) (p n : Nat) (r : Role) (o : Bool) (d : List Byte) (u : State) (s : State),
    (s.tackUp = true ∧ girthRun 14 (wrapKinds (bit a 6)) s = some u ∧ s.slotFillable i.toNat r = .ok ∧ (within
    16 i.toNat 47 = true → anchorRole a r = true) ∧ secretType (fld a 12 4) = false ∧ attrOk a = true ∧
    importKind i.toNat (fld a 12 4) = true ∧ s.tackBuf p n = some d ∧ fld a 24 8 = 0xFF ∧ n ≤ 4096 ∧ d.length ≤
    4096) → ∃ t, exec (.importKey i a p n r o) s = .next t ∧ (t.slot i.toNat).gen = stick 65535 (s.slot
    i.toNat).gen 1 ∧ (t.slot i.toNat).pub = d ∧ ∀ j, j ≠ i.toNat → (t.slot j).content = (s.slot j).content ∧
    (t.slot j).pub = (s.slot j).pub ∧ (t.slot j).gen = (s.slot j).gen) ∧
  (∀ (i : BitVec 8) (a : Word) (p n : Nat) (r : Role) (d : List Byte) (u : State) (s : State), (s.tackUp =
    true ∧ girthRun 14 (wrapKinds (bit a 6)) s = some u ∧ s.slotFillable i.toNat r = .ok ∧ (within 16 i.toNat
    47 = true → anchorRole a r = true) ∧ secretType (fld a 12 4) = true ∧ s.fuses.decom = false ∧ attrOk a =
    true ∧ importKind i.toNat (fld a 12 4) = true ∧ s.tackBuf p n = some d ∧ n ≤ 4096 ∧ (s.slot (fld a 24
    8)).isEmpty = false ∧ fld a 24 8 < 128 ∧ (s.slot (fld a 24 8)).use 3 = true ∧ (s.slot (fld a 24 8)).orphan
    = false ∧ (s.slot (fld a 24 8)).type = 1 ∧ (s.slot (fld a 24 8)).bind = false) → ∃ t, exec (.importKey i a
    p n r true) s = .next t ∧ (t.slot i.toNat).gen = stick 65535 (s.slot i.toNat).gen 1 ∧ (t.slot
    i.toNat).content = d ∧ ∀ j, j ≠ i.toNat → (t.slot j).content = (s.slot j).content ∧ (t.slot j).pub =
    (s.slot j).pub ∧ (t.slot j).gen = (s.slot j).gen) ∧
  (∀ (i q : BitVec 8) (la ln : Nat) (a : Word) (d : List Byte) (u : State) (s : State), (s.tackUp = true ∧
    girthRun 14 ([10] ++ wrapKinds (bit a 6)) s = some u ∧ s.slotFillable i.toNat .firmware = .ok ∧ (s.slot
    q.toNat).isEmpty = false ∧ q.toNat < 128 ∧ (s.slot q.toNat).use 2 = true ∧ s.fuses.decom = false ∧ (s.slot
    q.toNat).orphan = false ∧ s.tackBuf la ln = some d ∧ ln ≤ 4096 ∧ within 16 i.toNat 47 = false ∧ attrOk a =
    true ∧ secretType (fld a 12 4) = true ∧ ((s.slot q.toNat).bind = true → bit a 7 = true)) → ∃ t, exec
    (.derive i q la ln a) s = .next t ∧ (t.slot i.toNat).gen = stick 65535 (s.slot i.toNat).gen 1 ∧ (t.slot
    i.toNat).content = kdf (s.slot q.toNat).content d [] (keyBits (fld a 12 4)) ∧ ∀ j, j ≠ i.toNat → (t.slot
    j).content = (s.slot j).content ∧ (t.slot j).pub = (s.slot j).pub ∧ (t.slot j).gen = (s.slot j).gen) ∧
  (∀ (i : BitVec 8) (r : Role) (u : State) (s : State), s.tackUp = true ∧ girthRun 14 (wrapKinds (s.slot
    i.toNat).persist) s = some u ∧ s.slotWritable i.toNat r ≠ .absent ∧ s.slotWritable i.toNat r ≠ .denied ∧
    (s.slot i.toNat).isEmpty = false → ∃ t, exec (.delete i r) s = .next t ∧ (t.slot i.toNat).gen = stick 65535
    (s.slot i.toNat).gen 1 ∧ (t.slot i.toNat).content = [] ∧ ∀ j, j ≠ i.toNat → (t.slot j).content = (s.slot
    j).content ∧ (t.slot j).pub = (s.slot j).pub ∧ (t.slot j).gen = (s.slot j).gen) ∧
  (∀ (i : BitVec 8) (a : Word) (s : State), ∃ t, exec (.generate i a) s = .next t ∧ t = tackServe 1 i.toNat
    ([7] ++ wrapKinds (bit a 6)) (tackGenerate i.toNat a) s) ∧
  (∀ (i : BitVec 8) (a : Word) (s : State), s.tackUp = false → ∃ t, exec (.generate i a) s = .next t ∧ t = s) ∧
  (∀ (i : BitVec 8) (a : Word) (p n : Nat) (r : Role) (o : Bool) (s : State), ∃ t, exec (.importKey i a p n r
    o) s = .next t ∧ t = tackServe 2 i.toNat (wrapKinds (bit a 6)) (fun v => tackImport i.toNat a (if 4096 < n
    then none else v.tackBuf p n) r o v) s) ∧
  (∀ (i : BitVec 8) (a : Word) (p n : Nat) (r : Role) (o : Bool) (s : State), s.tackUp = false → ∃ t, exec
    (.importKey i a p n r o) s = .next t ∧ t = s) ∧
  (∀ (i q : BitVec 8) (la ln : Nat) (a : Word) (s : State), ∃ t, exec (.derive i q la ln a) s = .next t ∧ t =
    tackServe 3 i.toNat ([10] ++ wrapKinds (bit a 6)) (fun v => tackDerive i.toNat q.toNat (if 4096 < ln then
    none else v.tackBuf la ln) a v) s) ∧
  (∀ (i q : BitVec 8) (la ln : Nat) (a : Word) (s : State), s.tackUp = false → ∃ t, exec (.derive i q la ln a)
    s = .next t ∧ t = s) ∧
  (∀ (i : BitVec 8) (r : Role) (s : State), ∃ t, exec (.delete i r) s = .next t ∧ t = tackServe 4 i.toNat
    (wrapKinds (s.slot i.toNat).persist) (tackDelete i.toNat r) s) ∧
  (∀ (i : BitVec 8) (r : Role) (s : State), s.tackUp = false → ∃ t, exec (.delete i r) s = .next t ∧ t = s)

/-- Each of PUBLIC, SIGN, VERIFY, AGREE, MEASURE, RANDOM and SUCCESSOR is the Tack room's service of its command
number under its Girth kinds, with the named operation; while the Tack room does not run it changes nothing.
PUBLIC of a used slot that is no orphan answers OK and writes its public part where there is one. With the
grants obtained (state u): SIGN with a slot that grants it writes the signature of the 48 bytes, VERIFY answers
OK or INTEGRITY as the signature is, AGREE writes a free shared secret, SUCCESSOR in an update whose manifest
passed writes the wrap set not in use under the successor's wrap key with the next sequence and leaves the
slots. SIGN, VERIFY and AGREE of a slot that does not grant the use, was left by no key or may not be used
answer why, and nothing else. RANDOM writes the free bytes asked for; over 256 it is RANGE. MEASURE into a
register from 4 to 15 extends it with the SHA-384 of the bytes and leaves the others. SUCCESSOR outside an
update is STATE. The buffers' layout and that a signature replaces its digest are the model's choice (log 49);
grants come and end within the command (log 51). It rests also on the model's choices of assumptions 49 and 51. -/
def Obligations.TackUses : Prop :=
  (∀ (i : BitVec 8) (a : Word) (s : State), s.tackUp = true ∧ i.toNat < 128 ∧ (s.slot i.toNat).isEmpty = false
    ∧ (s.slot i.toNat).orphan = false ∧ (s.slot i.toNat).pub = [] → ∃ t, exec (.publicKey i a) s = .next t ∧ t
    = tackReply 5 i.toNat .ok s) ∧
  (∀ (i : BitVec 8) (a : Word) (s : State), s.tackUp = true ∧ i.toNat < 128 ∧ (s.slot i.toNat).isEmpty = false
    ∧ (s.slot i.toNat).orphan = false ∧ (s.slot i.toNat).pub ≠ [] ∧ s.mayStore 14 a.toNat (s.slot
    i.toNat).pub.length = true → ∃ t, exec (.publicKey i a) s = .next t ∧ t = tackReply 5 i.toNat .ok (memPuts
    a.toNat (s.slot i.toNat).pub s)) ∧
  (∀ (i : BitVec 8) (a : Word) (d : List Byte) (u : State) (s : State), s.tackUp = true ∧ girthRun 14 [7] s =
    some u ∧ s.slotUse i.toNat 0 true = .ok ∧ s.tackBuf a.toNat 48 = some d ∧ s.mayStore 14 a.toNat 96 = true →
    ∃ t, exec (.sign i a) s = .next t ∧ t = tackReply 6 i.toNat .ok (memPuts a.toNat (signature (BitVec.ofNat
    384 (ofLE (s.slot i.toNat).content)) (BitVec.ofNat 384 (ofLE d))) u)) ∧
  (∀ (i : BitVec 8) (a : Word) (s : State), s.tackUp = true ∧ s.slotUse i.toNat 0 true ≠ .ok → ∃ t, exec
    (.sign i a) s = .next t ∧ t = tackReply 6 i.toNat (s.slotUse i.toNat 0 true) s) ∧
  (∀ (i : BitVec 8) (a : Word) (u : State) (s : State), s.tackUp = true ∧ girthRun 14 [7] s = some u ∧
    s.slotUse i.toNat 1 false = .ok ∧ (s.tackBuf a.toNat 48).isSome = true → ∃ t, exec (.verify i a true) s =
    .next t ∧ t = tackReply 7 i.toNat .ok u) ∧
  (∀ (i : BitVec 8) (a : Word) (s : State), s.tackUp = true ∧ s.slotUse i.toNat 1 false = .ok ∧ (s.tackBuf
    a.toNat 48).isSome = true → ∃ t, exec (.verify i a false) s = .next t ∧ t = tackReply 7 i.toNat .integrity
    s) ∧
  (∀ (i : BitVec 8) (a : Word) (g : Bool) (s : State), s.tackUp = true ∧ s.slotUse i.toNat 1 false ≠ .ok → ∃
    t, exec (.verify i a g) s = .next t ∧ t = tackReply 7 i.toNat (s.slotUse i.toNat 1 false) s) ∧
  (∀ (i : BitVec 8) (a : Word) (u : State) (s : State), s.tackUp = true ∧ girthRun 14 [7] s = some u ∧
    s.slotUse i.toNat 2 true = .ok ∧ (s.tackBuf a.toNat 48).isSome = true ∧ s.used.mayStore 14 a.toNat 48 =
    true → ∃ t, exec (.agree i a) s = .next t ∧ t = tackReply 8 i.toNat .ok (memPuts a.toNat (digestBytes
    (u.freeBits 384)) u.used)) ∧
  (∀ (i : BitVec 8) (a : Word) (s : State), s.tackUp = true ∧ s.slotUse i.toNat 2 true ≠ .ok → ∃ t, exec
    (.agree i a) s = .next t ∧ t = tackReply 8 i.toNat (s.slotUse i.toNat 2 true) s) ∧
  (∀ (a : Word) (n : Nat) (s : State), s.tackUp = true ∧ n ≤ 256 ∧ s.used.mayStore 14 a.toNat n = true → ∃ t,
    exec (.random a n) s = .next t ∧ t = tackReply 12 0 .ok (memPuts a.toNat ((List.range n).map fun k =>
    (s.freeBits 2048).extractLsb' (8 * k) 8) s.used)) ∧
  (∀ (a : Word) (n : Nat) (s : State), s.tackUp = true ∧ 256 < n → ∃ t, exec (.random a n) s = .next t ∧ t =
    tackReply 12 0 .range s) ∧
  (∀ (u : BitVec 8) (a n : Nat) (s : State), s.tackUp = true ∧ within 4 u.toNat 15 = true ∧ n ≤ 0x800000 ∧
    s.reads 15 (regionOf a) = true → ∃ t, exec (.measure u a n) s = .next t ∧ t.mrOf u.toNat = mrExtend (s.mrOf
    u.toNat) (Config.sha384 (s.bytes a n)) ∧ ∀ j, j ≠ u.toNat → t.mrOf j = s.mrOf j) ∧
  (∀ (a : Word) (m : Manifest) (u : State) (s : State), s.tackUp = true ∧ girthRun 14 [8] s = some u ∧
    s.fuses.decom = false ∧ s.sec.upd.man = some m ∧ (s.sec.upd.st = .prepared ∨ s.sec.upd.st = .copying ∨
    s.sec.upd.st = .written) → ∃ t, exec (.successor a) s = .next t ∧ t.sec.wrap = s.sec.wrap.set (1 -
    s.sec.dir.wrap)
    { seq := (s.sec.wrap.get s.sec.dir.wrap).seq + 1, under := some (wrapKeys s.fuses.huk (s.mrOf 0) (s.mrAfter 2 1 m.comps) (s.mrAfter 3 2 m.comps) ((s.sec.wrap.get s.sec.dir.wrap).seq + 1)), slots := persistOf s.app.tack.slots }
    ∧ t.app.tack = s.app.tack) ∧
  (∀ (a : Word) (s : State), s.tackUp = true ∧ s.sec.upd.st = .idle → ∃ t, exec (.successor a) s = .next t ∧ t
    = tackReply 10 0 .state s) ∧
  (∀ (i : BitVec 8) (a : Word) (s : State), ∃ t, exec (.publicKey i a) s = .next t ∧ t = tackServe 5 i.toNat
    ([]) (tackPublic i.toNat a.toNat) s) ∧
  (∀ (i : BitVec 8) (a : Word) (s : State), s.tackUp = false → ∃ t, exec (.publicKey i a) s = .next t ∧ t = s) ∧
  (∀ (i : BitVec 8) (a : Word) (s : State), ∃ t, exec (.sign i a) s = .next t ∧ t = tackServe 6 i.toNat ([7])
    (tackSign i.toNat a.toNat) s) ∧
  (∀ (i : BitVec 8) (a : Word) (s : State), s.tackUp = false → ∃ t, exec (.sign i a) s = .next t ∧ t = s) ∧
  (∀ (i : BitVec 8) (a : Word) (g : Bool) (s : State), ∃ t, exec (.verify i a g) s = .next t ∧ t = tackServe 7
    i.toNat ([7]) (tackVerify i.toNat a.toNat g) s) ∧
  (∀ (i : BitVec 8) (a : Word) (g : Bool) (s : State), s.tackUp = false → ∃ t, exec (.verify i a g) s = .next
    t ∧ t = s) ∧
  (∀ (i : BitVec 8) (a : Word) (s : State), ∃ t, exec (.agree i a) s = .next t ∧ t = tackServe 8 i.toNat ([7])
    (tackAgree i.toNat a.toNat) s) ∧
  (∀ (i : BitVec 8) (a : Word) (s : State), s.tackUp = false → ∃ t, exec (.agree i a) s = .next t ∧ t = s) ∧
  (∀ (u : BitVec 8) (a n : Nat) (s : State), ∃ t, exec (.measure u a n) s = .next t ∧ t = tackServe 9 u.toNat
    ([]) (tackMeasure u.toNat a n) s) ∧
  (∀ (u : BitVec 8) (a n : Nat) (s : State), s.tackUp = false → ∃ t, exec (.measure u a n) s = .next t ∧ t = s) ∧
  (∀ (a : Word) (n : Nat) (s : State), ∃ t, exec (.random a n) s = .next t ∧ t = tackServe 12 0 ([])
    (tackRandom a.toNat n) s) ∧
  (∀ (a : Word) (n : Nat) (s : State), s.tackUp = false → ∃ t, exec (.random a n) s = .next t ∧ t = s) ∧
  (∀ (a : Word) (s : State), ∃ t, exec (.successor a) s = .next t ∧ t = tackServe 10 0 ([8]) (tackSuccessor) s) ∧
  (∀ (a : Word) (s : State), s.tackUp = false → ∃ t, exec (.successor a) s = .next t ∧ t = s)

/-- FUSE is the Tack room's service 13 under its Girth kinds with the fuse operation; while the Tack room does not
run it and DECOMMISSION change nothing. With the grants obtained (state u), FUSE of debug-off bits outside an
update blows the bits asked for beside those blown, and the wrap set not in use holds the slots under the keys
for the new value; FUSE of the safety digest that the staged configuration has takes the first free digest
slot. FUSE of the SVN, a revocation or DECOM is DENIED and blows nothing; of any other field it is RANGE. A
first decommission write is remembered with its time; the second, of the other role within 600 s, blows DECOM;
a wrong value, a role that is absent or neither Operator nor Verifier, an open point and a decommissioned
device change nothing. Grants come and end within the command (log 51). It rests also on the model's choices of
assumption 51. -/
def Obligations.TackFusesAndDecommission : Prop :=
  (∀ (v : BitVec 384) (u : State) (s : State), s.tackUp = true ∧ girthRun 14 [8, 10] s = some u ∧ v &&&
    ~~~(0x3B : BitVec 384) = 0 ∧ s.sec.upd.st = .idle → ∃ t, exec (.fuse .dbg v) s = .next t ∧ t.fuses =
    { s.fuses with dbg := s.fuses.dbg ||| v.setWidth 6 } ∧ (t.sec.wrap.get (1 - s.sec.dir.wrap)).under = some
    (wrapKeys s.fuses.huk (mr0Of s.fuses (s.fuses.dbg ||| v.setWidth 6)) (s.mrOf 2) (s.mrOf 3) ((s.sec.wrap.get
    s.sec.dir.wrap).seq + 1))) ∧
  (∀ (v : BitVec 384) (s : State), s.tackUp = true → ∃ t, exec (.fuse .svn v) s = .next t ∧ t = tackReply 13 0
    .denied s) ∧
  (∀ (v : BitVec 384) (s : State), s.tackUp = true → ∃ t, exec (.fuse .rrev v) s = .next t ∧ t = tackReply 13
    0 .denied s) ∧
  (∀ (v : BitVec 384) (s : State), s.tackUp = true → ∃ t, exec (.fuse .decom v) s = .next t ∧ t = tackReply 13
    0 .denied s) ∧
  (∀ (v : BitVec 384) (s : State), s.tackUp = true → ∃ t, exec (.fuse .other v) s = .next t ∧ t = tackReply 13
    0 .range s) ∧
  (∀ (v : BitVec 384) (k : Nat) (u : State) (s : State), s.tackUp = true ∧ girthRun 14 [10] s = some u ∧ v =
    s.stagedDigest ∧ (List.range 4).find? (fun k => s.fuses.safe.get k = 0) = some k → ∃ t, exec (.fuse .safe
    v) s = .next t ∧ t.fuses = { s.fuses with safe := s.fuses.safe.set k v }) ∧
  (∀ (f : FuseField) (v : BitVec 384) (s : State), ∃ t, exec (.fuse f v) s = .next t ∧ t = tackServe 13 0 (if
    f = .dbg then [8, 10] else [10]) (tackFuse f v) s) ∧
  (∀ (f : FuseField) (v : BitVec 384) (s : State), s.tackUp = false → ∃ t, exec (.fuse f v) s = .next t ∧ t =
    s) ∧
  (∀ (r : Role) (s : State), s.tackUp = true ∧ s.rolePresent r = true ∧ (r = .operator ∨ r = .verifier) ∧
    s.fuses.decom = false ∧ s.openCount = 0 ∧ s.app.tack.decomBy = none → ∃ t, exec (.decommission r
    0x444D4F43) s = .next t ∧ t.app.tack.decomBy = some (r, s.ht) ∧ t.fuses = s.fuses) ∧
  (∀ (r q : Role) (u : Nat) (s : State), s.tackUp = true ∧ s.rolePresent r = true ∧ (r = .operator ∨ r =
    .verifier) ∧ s.fuses.decom = false ∧ s.openCount = 0 ∧ s.app.tack.decomBy = some (q, u) ∧ q ≠ r ∧ s.ht ≤ u
    + 600000000000 → ∃ t, exec (.decommission r 0x444D4F43) s = .next t ∧ t.fuses =
    { s.fuses with decom := true }) ∧
  (∀ (r : Role) (v : Word) (s : State), (s.rolePresent r = false ∨ v ≠ 0x444D4F43 ∨ (r ≠ .operator ∧ r ≠
    .verifier) ∨ s.fuses.decom = true ∨ s.openCount ≠ 0) → ∃ t, exec (.decommission r v) s = .next t ∧ t = s) ∧
  (∀ (r : Role) (v : Word) (s : State), s.tackUp = false → ∃ t, exec (.decommission r v) s = .next t ∧ t = s)

/-- Inside a reset none of MANIFEST_ACCEPT, UPDATE_BLOCK, UPDATE_ABANDON and HANDOVER changes anything. With the
grants obtained (state u): a manifest that passes the checks raises the update number, is PREPARED (WRITTEN
where no block changed), and the wrap set not in use holds the slots under the successor's keys; a block that
is next and has the manifest's hash, reads back right and is not already saved is saved, programmed and
written, and the update goes on COPYING, or, with no block left and good components, is WRITTEN. A manifest
that does not pass changes only the last status; so does a block with a wrong hash (INTEGRITY), one that is not
next (RANGE) and one outside PREPARED and COPYING (STATE). A block that reads back wrong, and an abandon of 1
in an update, roll back: the update is IDLE without a manifest, every block of the image is again as before the
update, the directory and the fuses stay, and an application reset is made; an abandon erases the successor
wrap set. Other abandons change nothing. A handover of 1 of a WRITTEN update makes it TRIAL with count 1 and
resets; other handovers change nothing. CONFIRM with the conditions met switches the directory to the successor
wrap set with its next sequence, the manifest's SVN and build, ends the update and the trial countdown and
raises the SVN floor and the revocations as the manifest says; without them it is STATE, and while the Tack
room does not run it changes nothing. It rests also on the model's choices of assumption 51. -/
def Obligations.UpdateLifecycle : Prop :=
  (∀ (r : Role) (l : Bool) (m : Manifest) (u : State) (s : State), s.inReset = false ∧ girthRun 14 [7, 8] s =
    some u ∧ s.manifestStatus r l m = .ok ∧ s.fuses.decom = false → ∃ t, exec (.manifestAccept r l m) s = .next
    t ∧ t.sec.upd.num = s.sec.upd.num + 1 ∧ t.sec.upd.st = (if (s.manifestBlocks m).isEmpty then .written else
    .prepared) ∧ t.sec.upd.man = some m ∧ t.sec.wrap = s.sec.wrap.set (1 - s.sec.dir.wrap)
    { seq := (s.sec.wrap.get s.sec.dir.wrap).seq + 1, under := some (wrapKeys s.fuses.huk (s.mrOf 0) (s.mrAfter 2 1 m.comps) (s.mrAfter 3 2 m.comps) ((s.sec.wrap.get s.sec.dir.wrap).seq + 1)), slots := persistOf s.app.tack.slots }
    ∧ t.app.tack.lastSt = .ok) ∧
  (∀ (r : Role) (l : Bool) (m : Manifest) (s : State), s.inReset = false ∧ s.manifestStatus r l m ≠ .ok → ∃ t,
    exec (.manifestAccept r l m) s = .next t ∧ t = { s with app.tack.lastSt := s.manifestStatus r l m }) ∧
  (∀ (r : Role) (l : Bool) (m : Manifest) (s : State), s.inReset = true → ∃ t, exec (.manifestAccept r l m) s
    = .next t ∧ t = s) ∧
  (∀ (b : BlockData) (m : Manifest) (u : State) (s : State), s.inReset = false ∧ girthRun 14 [8] s = some u ∧
    s.sec.upd.man = some m ∧ (s.sec.upd.st = .prepared ∨ s.sec.upd.st = .copying) ∧ s.nextBlock = some b.blk ∧
    b.hash = s.blockWanted b.blk ∧ b.readBack = b.hash ∧ s.sec.upd.saved.contains b.blk = false ∧
    (s.manifestBlocks m).find? (fun k => !(s.sec.upd.written ++ [b.blk]).contains k) = none ∧ b.compsOk = true
    → ∃ t, exec (.updateBlock b) s = .next t ∧ t.sec.upd.written = s.sec.upd.written ++ [b.blk] ∧
    t.sec.upd.saved = s.sec.upd.saved ++ [b.blk] ∧ t.sec.image = s.sec.image.set b.blk b.readBack ∧
    t.sec.upd.st = .written ∧ t.app.tack.lastSt = .ok) ∧
  (∀ (b : BlockData) (m : Manifest) (u : State) (k : Nat) (s : State), s.inReset = false ∧ girthRun 14 [8] s =
    some u ∧ s.sec.upd.man = some m ∧ (s.sec.upd.st = .prepared ∨ s.sec.upd.st = .copying) ∧ s.nextBlock = some
    b.blk ∧ b.hash = s.blockWanted b.blk ∧ b.readBack = b.hash ∧ s.sec.upd.saved.contains b.blk = false ∧
    (s.manifestBlocks m).find? (fun k => !(s.sec.upd.written ++ [b.blk]).contains k) = some k → ∃ t, exec
    (.updateBlock b) s = .next t ∧ t.sec.upd.written = s.sec.upd.written ++ [b.blk] ∧ t.sec.upd.saved =
    s.sec.upd.saved ++ [b.blk] ∧ t.sec.image = s.sec.image.set b.blk b.readBack ∧ t.sec.upd.st = .copying ∧
    t.app.tack.lastSt = .ok) ∧
  (∀ (b : BlockData) (s : State), s.inReset = false ∧ (s.sec.upd.st = .prepared ∨ s.sec.upd.st = .copying) ∧
    s.nextBlock = some b.blk ∧ b.hash ≠ s.blockWanted b.blk → ∃ t, exec (.updateBlock b) s = .next t ∧ t =
    { s with app.tack.lastSt := .integrity }) ∧
  (∀ (b : BlockData) (s : State), s.inReset = false ∧ (s.sec.upd.st = .prepared ∨ s.sec.upd.st = .copying) ∧
    s.nextBlock ≠ some b.blk → ∃ t, exec (.updateBlock b) s = .next t ∧ t =
    { s with app.tack.lastSt := .range }) ∧
  (∀ (b : BlockData) (s : State), s.inReset = false ∧ s.sec.upd.st ≠ .prepared ∧ s.sec.upd.st ≠ .copying → ∃
    t, exec (.updateBlock b) s = .next t ∧ t = { s with app.tack.lastSt := .state }) ∧
  (∀ (b : BlockData) (s : State), s.inReset = false ∧ (s.sec.upd.st = .prepared ∨ s.sec.upd.st = .copying) ∧
    s.nextBlock = some b.blk ∧ b.hash = s.blockWanted b.blk ∧ b.readBack ≠ b.hash ∧ s.sec.upd.saved.contains
    b.blk = false → ∃ t, exec (.updateBlock b) s = .next t ∧ t.app.tack.lastSt = .integrity ∧ t.sec.upd.st =
    .idle ∧ t.sec.upd.man = none ∧ t.sec.upd.written = [] ∧ t.sec.dir = s.sec.dir ∧ t.fuses = s.fuses ∧ (∀ k, k
    < 192 → t.sec.image.get k = s.blockWas k) ∧ AppReset 5 s { t with app.tack.lastSt := .ok }) ∧
  (∀ (b : BlockData) (s : State), s.inReset = true → ∃ t, exec (.updateBlock b) s = .next t ∧ t = s) ∧
  (∀ (s : State), s.inReset = false ∧ s.sec.upd.st ≠ .idle ∧ s.sec.upd.st ≠ .rollback → ∃ t, exec
    (.updateAbandon 1) s = .next t ∧ AppReset 5 s t ∧ t.sec.upd.st = .idle ∧ t.sec.upd.man = none ∧
    t.sec.upd.written = [] ∧ t.sec.wrap = s.sec.wrap.set (1 - s.sec.dir.wrap) {} ∧ t.sec.dir = s.sec.dir ∧
    t.fuses = s.fuses ∧ ∀ k, k < 192 → t.sec.image.get k = s.blockWas k) ∧
  (∀ (v : BitVec 8) (s : State), (s.inReset = true ∨ s.sec.upd.st = .idle ∨ s.sec.upd.st = .rollback ∨ v.toNat
    ≠ 1) → ∃ t, exec (.updateAbandon v) s = .next t ∧ t = s) ∧
  (∀ (s : State), s.inReset = false ∧ s.sec.upd.st = .written → ∃ t, exec (.handover 1) s = .next t ∧ AppReset
    5 s t ∧ t.sec.upd.st = .trial ∧ t.sec.upd.count = 1) ∧
  (∀ (v : BitVec 8) (s : State), (s.inReset = true ∨ s.sec.upd.st ≠ .written ∨ v.toNat ≠ 1) → ∃ t, exec
    (.handover v) s = .next t ∧ t = s) ∧
  (∀ (m : Manifest) (u : State) (s : State), s.tackUp = true ∧ girthRun 14 [8] s = some u ∧ s.sec.upd.man =
    some m ∧ s.mayConfirm m = true → ∃ t, exec .confirm s = .next t ∧ t.sec.dir.wrap = 1 - s.sec.dir.wrap ∧
    t.sec.dir.seq = s.sec.dir.seq + 1 ∧ t.sec.dir.svn = m.svn ∧ t.sec.dir.build = m.build ∧ t.sec.upd.st =
    .idle ∧ t.sec.upd.man = none ∧ t.trial.active = false ∧ t.fuses =
    { s.fuses with svn := if m.raiseFloor then max s.fuses.svn m.svn else s.fuses.svn, rrev := s.fuses.rrev ||| m.revoke }) ∧
  (∀ (s : State), (s.tackUp = true ∧ ∀ m, s.sec.upd.man = some m → s.mayConfirm m = false) → ∃ t, exec
    .confirm s = .next t ∧ t = tackReply 11 0 .state s) ∧
  (∀ (s : State), s.tackUp = false → ∃ t, exec .confirm s = .next t ∧ t = s)

/-- POWER_ON_START from a held cold reset, or before the first start, and WARM_START from a held application reset
outside a cold reset, each with the main reference good, run the steps: with BOOT[1:0] = 3 where the fuses
allow it the boot hart is halted at step 4 (2 of the warm table); a manufacturing part that is not a production
part stops at step 1 with a free status; a recovery boot with a good image is in recovery and otherwise stops
at step 4; a flash that does not answer, a directory that does not verify and no loader that verifies stop at
steps 2, 3 and 4; an update found COPYING or in ROLLBACK is undone, every block of the image as before it, with
the reset held again; and with no update, or one only PREPARED, a manifest, Tack-room image or Cantle image
that fails stops at steps 6, 7 and 9, and with all good the last step (12, or 8 of the warm table) is reached
with the server ready. Otherwise neither changes anything. It rests also on the model's choices of assumption
71. -/
def Obligations.StartSequences : Prop :=
  (∀ (boot : BitVec 4) (b : BootChecks) (s : State), (s.cold.mainFail = false ∧ (s.cold.started = false ∨
    s.cold.coldHeld = true)) ∧ s.debugBoot boot = true → ∃ t, exec (.powerOnStart boot b) s = .next t ∧
    (t.app.harts.get 0).halted = true ∧ t.app.clk.step = 4) ∧
  (∀ (boot : BitVec 4) (b : BootChecks) (s : State), (s.cold.mainFail = false ∧ (s.cold.started = false ∨
    s.cold.coldHeld = true)) ∧ s.fuses.prod = false ∧ s.fuses.mfg = true ∧ s.debugBoot boot = false → ∃ t, exec
    (.powerOnStart boot b) s = .next t ∧ t.app.clk.bootStop = some (1, s.freeStatus)) ∧
  (∀ (boot : BitVec 4) (b : BootChecks) (s : State), (s.cold.mainFail = false ∧ (s.cold.started = false ∨
    s.cold.coldHeld = true)) ∧ (s.fuses.prod = true ∨ s.fuses.mfg = false) ∧ s.debugBoot boot = false ∧
    s.recoveryBoot boot = true ∧ b.recoveryOk = true → ∃ t, exec (.powerOnStart boot b) s = .next t ∧
    t.app.clk.recovery = true) ∧
  (∀ (boot : BitVec 4) (b : BootChecks) (s : State), (s.cold.mainFail = false ∧ (s.cold.started = false ∨
    s.cold.coldHeld = true)) ∧ (s.fuses.prod = true ∨ s.fuses.mfg = false) ∧ s.debugBoot boot = false ∧
    s.recoveryBoot boot = true ∧ b.recoveryOk = false → ∃ t, exec (.powerOnStart boot b) s = .next t ∧
    t.app.clk.bootStop = some (4, .integrity)) ∧
  (∀ (boot : BitVec 4) (b : BootChecks) (s : State), (s.cold.mainFail = false ∧ (s.cold.started = false ∨
    s.cold.coldHeld = true)) ∧ (s.fuses.prod = true ∨ s.fuses.mfg = false) ∧ s.debugBoot boot = false ∧
    s.recoveryBoot boot = false ∧ b.flashOk = false → ∃ t, exec (.powerOnStart boot b) s = .next t ∧
    t.app.clk.bootStop = some (2, .absent)) ∧
  (∀ (boot : BitVec 4) (b : BootChecks) (s : State), (s.cold.mainFail = false ∧ (s.cold.started = false ∨
    s.cold.coldHeld = true)) ∧ (s.fuses.prod = true ∨ s.fuses.mfg = false) ∧ s.debugBoot boot = false ∧
    s.recoveryBoot boot = false ∧ b.flashOk = true ∧ b.dirOk = false → ∃ t, exec (.powerOnStart boot b) s =
    .next t ∧ t.app.clk.bootStop = some (3, .integrity)) ∧
  (∀ (boot : BitVec 4) (b : BootChecks) (s : State), (s.cold.mainFail = false ∧ (s.cold.started = false ∨
    s.cold.coldHeld = true)) ∧ (s.fuses.prod = true ∨ s.fuses.mfg = false) ∧ s.debugBoot boot = false ∧
    s.recoveryBoot boot = false ∧ b.flashOk = true ∧ b.dirOk = true ∧ s.bootLoader boot b = none → ∃ t, exec
    (.powerOnStart boot b) s = .next t ∧ t.app.clk.bootStop = some (4, .integrity)) ∧
  (∀ (boot : BitVec 4) (b : BootChecks) (s : State), (s.cold.mainFail = false ∧ (s.cold.started = false ∨
    s.cold.coldHeld = true)) ∧ (s.fuses.prod = true ∨ s.fuses.mfg = false) ∧ s.debugBoot boot = false ∧
    s.recoveryBoot boot = false ∧ b.flashOk = true ∧ b.dirOk = true ∧ (s.bootLoader boot b).isSome = true ∧
    (s.sec.upd.st = .copying ∨ s.sec.upd.st = .rollback) → ∃ t, exec (.powerOnStart boot b) s = .next t ∧
    t.app.clk.appHeld = true ∧ t.sec.upd.st = .idle ∧ t.sec.upd.man = none ∧ ∀ k, k < 192 → t.sec.image.get k =
    s.blockWas k) ∧
  (∀ (boot : BitVec 4) (b : BootChecks) (s : State), (s.cold.mainFail = false ∧ (s.cold.started = false ∨
    s.cold.coldHeld = true)) ∧ (s.fuses.prod = true ∨ s.fuses.mfg = false) ∧ s.debugBoot boot = false ∧
    s.recoveryBoot boot = false ∧ b.flashOk = true ∧ b.dirOk = true ∧ (s.bootLoader boot b).isSome = true ∧
    (s.sec.upd.st = .idle ∨ s.sec.upd.st = .prepared) ∧ b.manifestOk = false → ∃ t, exec (.powerOnStart boot b)
    s = .next t ∧ t.app.clk.bootStop = some (6, .integrity)) ∧
  (∀ (boot : BitVec 4) (b : BootChecks) (s : State), (s.cold.mainFail = false ∧ (s.cold.started = false ∨
    s.cold.coldHeld = true)) ∧ (s.fuses.prod = true ∨ s.fuses.mfg = false) ∧ s.debugBoot boot = false ∧
    s.recoveryBoot boot = false ∧ b.flashOk = true ∧ b.dirOk = true ∧ (s.bootLoader boot b).isSome = true ∧
    (s.sec.upd.st = .idle ∨ s.sec.upd.st = .prepared) ∧ b.manifestOk = true ∧ b.tackRoomOk = false → ∃ t, exec
    (.powerOnStart boot b) s = .next t ∧ t.app.clk.bootStop = some (7, .integrity)) ∧
  (∀ (boot : BitVec 4) (b : BootChecks) (s : State), (s.cold.mainFail = false ∧ (s.cold.started = false ∨
    s.cold.coldHeld = true)) ∧ (s.fuses.prod = true ∨ s.fuses.mfg = false) ∧ s.debugBoot boot = false ∧
    s.recoveryBoot boot = false ∧ b.flashOk = true ∧ b.dirOk = true ∧ (s.bootLoader boot b).isSome = true ∧
    (s.sec.upd.st = .idle ∨ s.sec.upd.st = .prepared) ∧ b.manifestOk = true ∧ b.tackRoomOk = true ∧ b.cantleOk
    = false → ∃ t, exec (.powerOnStart boot b) s = .next t ∧ t.app.clk.bootStop = some (9, .integrity)) ∧
  (∀ (boot : BitVec 4) (b : BootChecks) (s : State), (s.cold.mainFail = false ∧ (s.cold.started = false ∨
    s.cold.coldHeld = true)) ∧ (s.fuses.prod = true ∨ s.fuses.mfg = false) ∧ s.debugBoot boot = false ∧
    s.recoveryBoot boot = false ∧ b.flashOk = true ∧ b.dirOk = true ∧ (s.bootLoader boot b).isSome = true ∧
    (s.sec.upd.st = .idle ∨ s.sec.upd.st = .prepared) ∧ b.manifestOk = true ∧ b.tackRoomOk = true ∧ b.cantleOk
    = true → ∃ t, exec (.powerOnStart boot b) s = .next t ∧ t.app.clk.step = 12 ∧ t.app.server.ready = true) ∧
  (∀ (boot : BitVec 4) (b : BootChecks) (s : State), (s.app.clk.appHeld = true ∧ s.cold.mainFail = false ∧
    s.cold.coldHeld = false) ∧ s.debugBoot boot = true → ∃ t, exec (.warmStart boot b) s = .next t ∧
    (t.app.harts.get 0).halted = true ∧ t.app.clk.step = 2) ∧
  (∀ (boot : BitVec 4) (b : BootChecks) (s : State), (s.app.clk.appHeld = true ∧ s.cold.mainFail = false ∧
    s.cold.coldHeld = false) ∧ s.fuses.prod = false ∧ s.fuses.mfg = true ∧ s.debugBoot boot = false → ∃ t, exec
    (.warmStart boot b) s = .next t ∧ t.app.clk.bootStop = some (1, s.freeStatus)) ∧
  (∀ (boot : BitVec 4) (b : BootChecks) (s : State), (s.app.clk.appHeld = true ∧ s.cold.mainFail = false ∧
    s.cold.coldHeld = false) ∧ (s.fuses.prod = true ∨ s.fuses.mfg = false) ∧ s.debugBoot boot = false ∧
    s.recoveryBoot boot = true ∧ b.recoveryOk = true → ∃ t, exec (.warmStart boot b) s = .next t ∧
    t.app.clk.recovery = true) ∧
  (∀ (boot : BitVec 4) (b : BootChecks) (s : State), (s.app.clk.appHeld = true ∧ s.cold.mainFail = false ∧
    s.cold.coldHeld = false) ∧ (s.fuses.prod = true ∨ s.fuses.mfg = false) ∧ s.debugBoot boot = false ∧
    s.recoveryBoot boot = true ∧ b.recoveryOk = false → ∃ t, exec (.warmStart boot b) s = .next t ∧
    t.app.clk.bootStop = some (4, .integrity)) ∧
  (∀ (boot : BitVec 4) (b : BootChecks) (s : State), (s.app.clk.appHeld = true ∧ s.cold.mainFail = false ∧
    s.cold.coldHeld = false) ∧ (s.fuses.prod = true ∨ s.fuses.mfg = false) ∧ s.debugBoot boot = false ∧
    s.recoveryBoot boot = false ∧ b.flashOk = false → ∃ t, exec (.warmStart boot b) s = .next t ∧
    t.app.clk.bootStop = some (2, .absent)) ∧
  (∀ (boot : BitVec 4) (b : BootChecks) (s : State), (s.app.clk.appHeld = true ∧ s.cold.mainFail = false ∧
    s.cold.coldHeld = false) ∧ (s.fuses.prod = true ∨ s.fuses.mfg = false) ∧ s.debugBoot boot = false ∧
    s.recoveryBoot boot = false ∧ b.flashOk = true ∧ b.dirOk = false → ∃ t, exec (.warmStart boot b) s = .next
    t ∧ t.app.clk.bootStop = some (3, .integrity)) ∧
  (∀ (boot : BitVec 4) (b : BootChecks) (s : State), (s.app.clk.appHeld = true ∧ s.cold.mainFail = false ∧
    s.cold.coldHeld = false) ∧ (s.fuses.prod = true ∨ s.fuses.mfg = false) ∧ s.debugBoot boot = false ∧
    s.recoveryBoot boot = false ∧ b.flashOk = true ∧ b.dirOk = true ∧ s.bootLoader boot b = none → ∃ t, exec
    (.warmStart boot b) s = .next t ∧ t.app.clk.bootStop = some (4, .integrity)) ∧
  (∀ (boot : BitVec 4) (b : BootChecks) (s : State), (s.app.clk.appHeld = true ∧ s.cold.mainFail = false ∧
    s.cold.coldHeld = false) ∧ (s.fuses.prod = true ∨ s.fuses.mfg = false) ∧ s.debugBoot boot = false ∧
    s.recoveryBoot boot = false ∧ b.flashOk = true ∧ b.dirOk = true ∧ (s.bootLoader boot b).isSome = true ∧
    (s.sec.upd.st = .copying ∨ s.sec.upd.st = .rollback) → ∃ t, exec (.warmStart boot b) s = .next t ∧
    t.app.clk.appHeld = true ∧ t.sec.upd.st = .idle ∧ t.sec.upd.man = none ∧ ∀ k, k < 192 → t.sec.image.get k =
    s.blockWas k) ∧
  (∀ (boot : BitVec 4) (b : BootChecks) (s : State), (s.app.clk.appHeld = true ∧ s.cold.mainFail = false ∧
    s.cold.coldHeld = false) ∧ (s.fuses.prod = true ∨ s.fuses.mfg = false) ∧ s.debugBoot boot = false ∧
    s.recoveryBoot boot = false ∧ b.flashOk = true ∧ b.dirOk = true ∧ (s.bootLoader boot b).isSome = true ∧
    (s.sec.upd.st = .idle ∨ s.sec.upd.st = .prepared) ∧ b.manifestOk = false → ∃ t, exec (.warmStart boot b) s
    = .next t ∧ t.app.clk.bootStop = some (6, .integrity)) ∧
  (∀ (boot : BitVec 4) (b : BootChecks) (s : State), (s.app.clk.appHeld = true ∧ s.cold.mainFail = false ∧
    s.cold.coldHeld = false) ∧ (s.fuses.prod = true ∨ s.fuses.mfg = false) ∧ s.debugBoot boot = false ∧
    s.recoveryBoot boot = false ∧ b.flashOk = true ∧ b.dirOk = true ∧ (s.bootLoader boot b).isSome = true ∧
    (s.sec.upd.st = .idle ∨ s.sec.upd.st = .prepared) ∧ b.manifestOk = true ∧ b.tackRoomOk = false → ∃ t, exec
    (.warmStart boot b) s = .next t ∧ t.app.clk.bootStop = some (7, .integrity)) ∧
  (∀ (boot : BitVec 4) (b : BootChecks) (s : State), (s.app.clk.appHeld = true ∧ s.cold.mainFail = false ∧
    s.cold.coldHeld = false) ∧ (s.fuses.prod = true ∨ s.fuses.mfg = false) ∧ s.debugBoot boot = false ∧
    s.recoveryBoot boot = false ∧ b.flashOk = true ∧ b.dirOk = true ∧ (s.bootLoader boot b).isSome = true ∧
    (s.sec.upd.st = .idle ∨ s.sec.upd.st = .prepared) ∧ b.manifestOk = true ∧ b.tackRoomOk = true ∧ b.cantleOk
    = false → ∃ t, exec (.warmStart boot b) s = .next t ∧ t.app.clk.bootStop = some (9, .integrity)) ∧
  (∀ (boot : BitVec 4) (b : BootChecks) (s : State), (s.app.clk.appHeld = true ∧ s.cold.mainFail = false ∧
    s.cold.coldHeld = false) ∧ (s.fuses.prod = true ∨ s.fuses.mfg = false) ∧ s.debugBoot boot = false ∧
    s.recoveryBoot boot = false ∧ b.flashOk = true ∧ b.dirOk = true ∧ (s.bootLoader boot b).isSome = true ∧
    (s.sec.upd.st = .idle ∨ s.sec.upd.st = .prepared) ∧ b.manifestOk = true ∧ b.tackRoomOk = true ∧ b.cantleOk
    = true → ∃ t, exec (.warmStart boot b) s = .next t ∧ t.app.clk.step = 8 ∧ t.app.server.ready = true) ∧
  (∀ (boot : BitVec 4) (b : BootChecks) (s : State), (s.cold.mainFail = true ∨ (s.cold.started = true ∧
    s.cold.coldHeld = false)) → ∃ t, exec (.powerOnStart boot b) s = .next t ∧ t = s) ∧
  (∀ (boot : BitVec 4) (b : BootChecks) (s : State), (s.app.clk.appHeld = false ∨ s.cold.mainFail = true ∨
    s.cold.coldHeld = true) → ∃ t, exec (.warmStart boot b) s = .next t ∧ t = s)

/-- On a matched or linked channel an SDP request is answered with the link-local address of the channel and port
50001 or 50000; elsewhere it changes nothing. A connection on such a channel without one is accepted, forgets
what an earlier one negotiated and gets its spill region; another is reset. A TLS handshake that is accepted
and whose operations are granted (state u) brings TLS up; one that is not accepted, or not granted, is an alert
that closes the connection; on a connection that is not for TLS, is up or closed it changes nothing. A V2GTP
header of the negotiated standard selects its schema, with the area and the hand-over; a wrong one closes the
connection. Of the offers the highest priority is chosen; none, or a second offer, closes the connection. A
sequence timeout closes an open connection that waits for the vehicle; a setup timeout acts in LINKING; a
waiting request at the end of its time is answered Ongoing where the standard allows it. Where a connection is
closed for a failure the session ends with reason 8: while energy flows to STOPPING, before it to CLOSING.
Which port places the handshake's grants is the model's choice (log 51), which offer number ranks higher and
the payload types are the family's (log 44). It rests also on the model's choices of assumption 44. -/
def Obligations.VehicleConnections : Prop :=
  (∀ (n : Fin 64) (b : Bool) (s : State), s.vLinked n = true → ∃ t, exec (.sdpRequest n b) s = .next t ∧ (t.vc
    n).sdp = some (if b then (50001, true) else (50000, false)) ∧ (t.vc n).sdpAddr = linkLocal (s.fuses.mac +
    BitVec.ofNat 48 n.val) ∧ ∀ m, m ≠ n.val → t.vc m = s.vc m) ∧
  (∀ (n : Fin 64) (b : Bool) (s : State), s.vLinked n = false → ∃ t, exec (.sdpRequest n b) s = .next t ∧ t =
    s) ∧
  (∀ (n : Fin 64) (b : Bool) (s : State), s.vLinked n = true ∧ (s.vc n).isOpen = false → ∃ t, exec
    (.v2gTcpConnect n b) s = .next t ∧ t = spillAssign n (s.updVc n fun c =>
    { sdp := c.sdp, sdpAddr := c.sdpAddr, isOpen := true, tls := b, tcp := .accepted, askCert := decide (s.onum 0x2200 4 = 1) })) ∧
  (∀ (n : Fin 64) (b : Bool) (s : State), s.vLinked n = false ∨ (s.vc n).isOpen = true → ∃ t, exec
    (.v2gTcpConnect n b) s = .next t ∧ t.vc n = { s.vc n with tcp := .reset }) ∧
  (∀ (n : Fin 64) (a : V2gHello) (u : State) (s : State), (s.vc n).isOpen = true ∧ (s.vc n).tls = true ∧ (s.vc
    n).tlsUp = false ∧ s.helloOk (s.vc n) a = true ∧ girthRun pkaPort (List.replicate (helloOps (s.vc n) a) 3)
    s = some u → ∃ t, exec (.v2gTlsHandshake n a) s = .next t ∧ t = u.updVc n (fun c =>
    { c with tlsUp := true, tcp := .tlsUp, stapled := s.staples a })) ∧
  (∀ (n : Fin 64) (a : V2gHello) (k : Nat) (s : State), (s.vc n).isOpen = true ∧ (s.vc n).tls = true ∧ (s.vc
    n).tlsUp = false ∧ (s.helloOk (s.vc n) a = false ∨ girthRun pkaPort (List.replicate (helloOps (s.vc n) a)
    3) s = none) ∧ s.session n = some k ∧ within 2 (s.phase k) 7 = true → ∃ t, exec (.v2gTlsHandshake n a) s =
    .next t ∧ t = connFail n (s.updVc n fun c => { c with tcp := .alert }) ∧ t.phase k = if s.phase k = 7 then
    8 else 9) ∧
  (∀ (n : Fin 64) (a : V2gHello) (s : State), ((s.vc n).isOpen = false ∨ (s.vc n).tls = false ∨ (s.vc n).tlsUp
    = true) → ∃ t, exec (.v2gTlsHandshake n a) s = .next t ∧ t = s) ∧
  (∀ (n : Fin 64) (ty : BitVec 16) (l j : Nat) (s : State), (s.vc n).up = true ∧ schemaOf (s.vc n).proto
    ty.toNat = some j ∧ l ≤ 8192 → ∃ t, exec (.v2gtpMessage n 1 0xFE ty l) s = .next t ∧ t = withSession n (fun
    slot s => handOver n slot (s.updVc n fun c => { c with area := some (v2gArea slot) })) (s.updVc n fun c =>
    { c with schema := some j })) ∧
  (∀ (n : Fin 64) (ve iv : BitVec 8) (ty : BitVec 16) (l k : Nat) (s : State), (s.vc n).up = true ∧ (schemaOf
    (s.vc n).proto ty.toNat = none ∨ ve ≠ 1 ∨ iv ≠ 0xFE ∨ 8192 < l) ∧ s.session n = some k ∧ within 2 (s.phase
    k) 7 = true → ∃ t, exec (.v2gtpMessage n ve iv ty l) s = .next t ∧ t = connFail n s ∧ t.phase k = if
    s.phase k = 7 then 8 else 9) ∧
  (∀ (n : Fin 64) (ve iv : BitVec 8) (ty : BitVec 16) (l : Nat) (s : State), (s.vc n).up = false → ∃ t, exec
    (.v2gtpMessage n ve iv ty l) s = .next t ∧ t = s) ∧
  (∀ (n : Fin 64) (l : List ProtoOffer) (k : Nat) (o : ProtoOffer) (s : State), s.session n = some k ∧ (s.vc
    n).up = true ∧ (s.vc n).proto = none ∧ bestOffer (l.filter fun o => o.major && s.offers n k (s.vc n).tls
    o.proto) = some o → ∃ t, exec (.supportedAppProtocolReq n l) s = .next t ∧ (t.vc n).proto = some o.proto ∧
    (t.vc n).ans = (if o.minor then .ok else .okMinor) ∧ (t.vs k).proto = protoCode o.proto) ∧
  (∀ (n : Fin 64) (l : List ProtoOffer) (k : Nat) (s : State), (s.vc n).up = true ∧ (s.vc n).proto = none ∧
    bestOffer (l.filter fun o => o.major && s.offers n k (s.vc n).tls o.proto) = none ∧ s.session n = some k ∧
    within 2 (s.phase k) 7 = true → ∃ t, exec (.supportedAppProtocolReq n l) s = .next t ∧ t = endSession n 8
    ((connClose n s).updVc n fun c => { c with ans := .noNegotiation }) ∧ t.phase k = if s.phase k = 7 then 8
    else 9) ∧
  (∀ (n : Fin 64) (l : List ProtoOffer) (k : Nat) (s : State), (s.vc n).up = true ∧ (s.vc n).proto.isSome =
    true ∧ s.session n = some k ∧ within 2 (s.phase k) 7 = true → ∃ t, exec (.supportedAppProtocolReq n l) s =
    .next t ∧ t = connFail n s ∧ t.phase k = if s.phase k = 7 then 8 else 9) ∧
  (∀ (n : Fin 64) (l : List ProtoOffer) (s : State), (s.session n = none ∨ (s.vc n).up = false) → ∃ t, exec
    (.supportedAppProtocolReq n l) s = .next t ∧ t = s) ∧
  (∀ (n : Fin 64) (k : Nat) (s : State), (s.vc n).isOpen = true ∧ (s.vc n).waiting = false ∧ s.session n =
    some k ∧ within 2 (s.phase k) 7 = true → ∃ t, exec (.v2gSequenceTimeout n) s = .next t ∧ t = connFail n s ∧
    t.phase k = if s.phase k = 7 then 8 else 9) ∧
  (∀ (n : Fin 64) (s : State), ((s.vc n).isOpen = false ∨ (s.vc n).waiting = true) → ∃ t, exec
    (.v2gSequenceTimeout n) s = .next t ∧ t = s) ∧
  (∀ (n : Fin 64) (k : Nat) (s : State), s.session n = some k ∧ s.phase k = 3 → ∃ t, exec (.v2gSetupTimeout n)
    s = .next t ∧ t = endSession n 8 s ∧ t.phase k = 9) ∧
  (∀ (n : Fin 64) (s : State), s.pointPhase n ≠ 3 → ∃ t, exec (.v2gSetupTimeout n) s = .next t ∧ t = s) ∧
  (∀ (n : Fin 64) (x : Proto) (m : V2gMsg) (s : State), (s.vc n).waiting = true ∧ (s.vc n).proto = some x ∧
    (s.vc n).prev = some m ∧ ongoingAllowed x m = true → ∃ t, exec (.ongoingTimeExpiry n) s = .next t ∧ t =
    s.updVc n (fun c => { c with ans := .ongoing, waiting := false })) ∧
  (∀ (n : Fin 64) (x : Proto) (k : Nat) (s : State), (s.vc n).waiting = true ∧ (s.vc n).proto = some x ∧ (s.vc
    n).prev = some .certificateInstallation ∧ s.session n = some k → ∃ t, exec (.ongoingTimeExpiry n) s = .next
    t ∧ t = failStop n k .certificateInstallation .failed (s.updVs k fun v =>
    { v with pendDec := 0, decided := 0 }) ∧ t.phase k = 8) ∧
  (∀ (n : Fin 64) (s : State), (s.vc n).waiting = false → ∃ t, exec (.ongoingTimeExpiry n) s = .next t ∧ t = s)

/-- A request of a session on a connection that is up, in its order, is served: SessionSetup keeps the EVCCID and
takes LINKING to AUTHORISING; ServiceDiscovery offers the services of the point; PreCharge, CurrentDemand and
the charge loops keep the state of charge and the requested voltage and current; a selection of a service
offered, and of external payment, keep the service; another service is FAILED and Contract a sequence error;
the cable check is answered by the insulation result or waits; ChargeParameterDiscovery of an offered mode
requests the contactor once the tariff can be had, waits for it, or is FAILED for another mode (under ISO
15118-20 the mode is not asked); ScheduleExchange is answered or waits for the tariff; a renegotiation in
ENERGISING is answered, elsewhere it is a sequence error; PowerDelivery (stop) ends the session with reason 1,
(pause) takes energy off and keeps the session; MeteringConfirmation reports the signed reading and its
confirmation; the ACDP messages carry the device state; SessionStop closes the connection and ends the session,
or completes a session that is stopping; the authorisation opens the record, ends the session or waits for the
host; AuthorizationSetup and CertificateInstallation are served as their own commands; the others are answered
OK with the values they carry. One before a standard is negotiated closes the connection, and one out of order
is FAILED_SequenceError; both end the session with reason 8. Without a session or a connection that is up
nothing changes. The order of the messages is that of the standards (log 44); the pause is the model's reading
(log 118). It rests also on the model's choices of assumptions 44 and 45. -/
def Obligations.VehicleRequests : Prop :=
  (∀ (n : Fin 64) (a : V2gVals) (k : Nat) (x : Proto) (s : State), s.session n = some k ∧ (s.vc n).up = true ∧
    (s.vc n).proto = some x ∧ s.inOrder n x .sessionSetup = true → ∃ t, exec (.v2gRequest n .sessionSetup a) s
    = .next t ∧ (t.vc n).ans = .ok ∧ (t.vc n).prev = some .sessionSetup ∧ (t.vs k).evccid = a.evccid ∧ t.phase
    k = (if s.phase k = 3 then 4 else s.phase k)) ∧
  (∀ (n : Fin 64) (a : V2gVals) (k : Nat) (x : Proto) (s : State), s.session n = some k ∧ (s.vc n).up = true ∧
    (s.vc n).proto = some x ∧ s.inOrder n x .serviceDiscovery = true → ∃ t, exec (.v2gRequest n
    .serviceDiscovery a) s = .next t ∧ t = answer n .serviceDiscovery .ok (s.updVc n fun c =>
    { c with offer := s.services n k x })) ∧
  (∀ (n : Fin 64) (a : V2gVals) (k : Nat) (x : Proto) (m : V2gMsg) (s : State), s.session n = some k ∧ (s.vc
    n).up = true ∧ (s.vc n).proto = some x ∧ s.inOrder n x m = true ∧ (m = .preCharge ∨ m = .currentDemand ∨ m
    = .chargeLoop) → ∃ t, exec (.v2gRequest n m a) s = .next t ∧ t = demand n k m a s ∧ (t.vs k).soc = a.soc %
    256 ∧ (t.vs k).reqV = min 65535 a.v ∧ (t.vs k).reqI = clampInt (-2147483648) 2147483647 a.i) ∧
  (∀ (n : Fin 64) (a : V2gVals) (k : Nat) (x : Proto) (s : State), s.session n = some k ∧ (s.vc n).up = true ∧
    (s.vc n).proto = some x ∧ s.inOrder n x .paymentSelection = true ∧ a.contract = false → ∃ t, exec
    (.v2gRequest n .paymentSelection a) s = .next t ∧ t = answer n .paymentSelection .ok (s.updVs k fun v =>
    { v with service := if s.typeNow n = 3 then 2 else 1 })) ∧
  (∀ (n : Fin 64) (a : V2gVals) (k : Nat) (x : Proto) (s : State), s.session n = some k ∧ (s.vc n).up = true ∧
    (s.vc n).proto = some x ∧ s.inOrder n x .paymentSelection = true ∧ a.contract = true ∧ within 2 (s.phase k)
    7 = true → ∃ t, exec (.v2gRequest n .paymentSelection a) s = .next t ∧ t = endSession n 8 (s.updVc n fun c
    => { c with ans := .sequenceError, waiting := false }) ∧ t.phase k = if s.phase k = 7 then 8 else 9) ∧
  (∀ (n : Fin 64) (a : V2gVals) (k : Nat) (x : Proto) (s : State), s.session n = some k ∧ (s.vc n).up = true ∧
    (s.vc n).proto = some x ∧ s.inOrder n x .serviceSelection = true ∧ (s.services n k x).contains a.mode =
    true → ∃ t, exec (.v2gRequest n .serviceSelection a) s = .next t ∧ t = answer n .serviceSelection .ok
    (s.updVs k fun v => { v with service := serviceCode a.mode })) ∧
  (∀ (n : Fin 64) (a : V2gVals) (k : Nat) (x : Proto) (s : State), s.session n = some k ∧ (s.vc n).up = true ∧
    (s.vc n).proto = some x ∧ s.inOrder n x .serviceSelection = true ∧ (s.services n k x).contains a.mode =
    false → ∃ t, exec (.v2gRequest n .serviceSelection a) s = .next t ∧ t = answer n .serviceSelection .failed
    s) ∧
  (∀ (n : Fin 64) (a : V2gVals) (k : Nat) (x : Proto) (s : State), s.session n = some k ∧ (s.vc n).up = true ∧
    (s.vc n).proto = some x ∧ s.inOrder n x .cableCheck = true ∧ s.isolation n = some true → ∃ t, exec
    (.v2gRequest n .cableCheck a) s = .next t ∧ t = answerWith n .cableCheck .ok s) ∧
  (∀ (n : Fin 64) (a : V2gVals) (k : Nat) (x : Proto) (s : State), s.session n = some k ∧ (s.vc n).up = true ∧
    (s.vc n).proto = some x ∧ s.inOrder n x .cableCheck = true ∧ s.isolation n = some false → ∃ t, exec
    (.v2gRequest n .cableCheck a) s = .next t ∧ t = answerWith n .cableCheck .failed s) ∧
  (∀ (n : Fin 64) (a : V2gVals) (k : Nat) (x : Proto) (s : State), s.session n = some k ∧ (s.vc n).up = true ∧
    (s.vc n).proto = some x ∧ s.inOrder n x .cableCheck = true ∧ s.isolation n = none → ∃ t, exec (.v2gRequest
    n .cableCheck a) s = .next t ∧ t = waitFor n .cableCheck s) ∧
  (∀ (n : Fin 64) (a : V2gVals) (k : Nat) (x : Proto) (s : State), s.session n = some k ∧ (s.vc n).up = true ∧
    (s.vc n).proto = some x ∧ s.inOrder n x .chargeParameterDiscovery = true ∧ ((s.services n k x).contains
    a.mode = true ∨ (x ≠ .din ∧ x ≠ .iso2)) ∧ s.linkUp = true → ∃ t, exec (.v2gRequest n
    .chargeParameterDiscovery a) s = .next t ∧ t = requestCoil n k (answerWith n .chargeParameterDiscovery .ok
    s)) ∧
  (∀ (n : Fin 64) (a : V2gVals) (k : Nat) (x : Proto) (s : State), s.session n = some k ∧ (s.vc n).up = true ∧
    (s.vc n).proto = some x ∧ s.inOrder n x .chargeParameterDiscovery = true ∧ ((s.services n k x).contains
    a.mode = true ∨ (x ≠ .din ∧ x ≠ .iso2)) ∧ s.linkUp = false → ∃ t, exec (.v2gRequest n
    .chargeParameterDiscovery a) s = .next t ∧ t = waitFor n .chargeParameterDiscovery s) ∧
  (∀ (n : Fin 64) (a : V2gVals) (k : Nat) (x : Proto) (s : State), s.session n = some k ∧ (s.vc n).up = true ∧
    (s.vc n).proto = some x ∧ s.inOrder n x .chargeParameterDiscovery = true ∧ (x = .din ∨ x = .iso2) ∧
    (s.services n k x).contains a.mode = false → ∃ t, exec (.v2gRequest n .chargeParameterDiscovery a) s =
    .next t ∧ t = answer n .chargeParameterDiscovery .failed s) ∧
  (∀ (n : Fin 64) (a : V2gVals) (k : Nat) (x : Proto) (s : State), s.session n = some k ∧ (s.vc n).up = true ∧
    (s.vc n).proto = some x ∧ s.inOrder n x .scheduleExchange = true ∧ s.linkUp = true → ∃ t, exec (.v2gRequest
    n .scheduleExchange a) s = .next t ∧ t = answerWith n .scheduleExchange .ok s) ∧
  (∀ (n : Fin 64) (a : V2gVals) (k : Nat) (x : Proto) (s : State), s.session n = some k ∧ (s.vc n).up = true ∧
    (s.vc n).proto = some x ∧ s.inOrder n x .scheduleExchange = true ∧ s.linkUp = false → ∃ t, exec
    (.v2gRequest n .scheduleExchange a) s = .next t ∧ t = waitFor n .scheduleExchange s) ∧
  (∀ (n : Fin 64) (a : V2gVals) (k : Nat) (x : Proto) (s : State), s.session n = some k ∧ (s.vc n).up = true ∧
    (s.vc n).proto = some x ∧ s.inOrder n x .powerDelivery = true ∧ x ≠ .din ∧ s.phase k = 7 → ∃ t, exec
    (.v2gRequest n .powerDelivery a) s = .next t ∧ t = answer n .powerDelivery .ok s) ∧
  (∀ (n : Fin 64) (a : V2gVals) (k : Nat) (x : Proto) (s : State), s.session n = some k ∧ (s.vc n).up = true ∧
    (s.vc n).proto = some x ∧ s.inOrder n x .powerDelivery = true ∧ (x = .din ∨ s.phase k ≠ 7) ∧ within 2
    (s.phase k) 7 = true → ∃ t, exec (.v2gRequest n .powerDelivery a) s = .next t ∧ t = endSession n 8 (s.updVc
    n fun c => { c with ans := .sequenceError, waiting := false }) ∧ t.phase k = if s.phase k = 7 then 8 else 9) ∧
  (∀ (n : Fin 64) (a : V2gVals) (k : Nat) (x : Proto) (s : State), s.session n = some k ∧ (s.vc n).up = true ∧
    (s.vc n).proto = some x ∧ s.inOrder n x .powerDeliveryStop = true ∧ within 2 (s.phase k) 7 = true → ∃ t,
    exec (.v2gRequest n .powerDeliveryStop a) s = .next t ∧ t = answer n .powerDeliveryStop .ok (endSession n 1
    s) ∧ t.phase k = if s.phase k = 7 then 8 else 9) ∧
  (∀ (n : Fin 64) (a : V2gVals) (k : Nat) (x : Proto) (s : State), s.session n = some k ∧ (s.vc n).up = true ∧
    (s.vc n).proto = some x ∧ s.inOrder n x .powerDeliveryPause = true → ∃ t, exec (.v2gRequest n
    .powerDeliveryPause a) s = .next t ∧ t = powerPause n k s ∧ t.phase k = 6) ∧
  (∀ (n : Fin 64) (a : V2gVals) (k : Nat) (x : Proto) (s : State), s.session n = some k ∧ (s.vc n).up = true ∧
    (s.vc n).proto = some x ∧ s.inOrder n x .meteringConfirmation = true → ∃ t, exec (.v2gRequest n
    .meteringConfirmation a) s = .next t ∧ t = meteringConfirm n k a.sig s) ∧
  (∀ (n : Fin 64) (a : V2gVals) (k : Nat) (x : Proto) (m : V2gMsg) (s : State), s.session n = some k ∧ (s.vc
    n).up = true ∧ (s.vc n).proto = some x ∧ s.inOrder n x m = true ∧ (m = .acdpConnect ∨ m =
    .acdpSystemStatus) → ∃ t, exec (.v2gRequest n m a) s = .next t ∧ t = answer n m .ok (s.updVc n fun c =>
    { c with acdp := s.acdpState n })) ∧
  (∀ (n : Fin 64) (a : V2gVals) (k : Nat) (x : Proto) (s : State), s.session n = some k ∧ (s.vc n).up = true ∧
    (s.vc n).proto = some x ∧ s.inOrder n x .sessionStop = true ∧ within 2 (s.phase k) 7 = true → ∃ t, exec
    (.v2gRequest n .sessionStop a) s = .next t ∧ t = endSession n 1 (setpointOff n (connClose n (answer n
    .sessionStop .ok s))) ∧ t.phase k = if s.phase k = 7 then 8 else 9) ∧
  (∀ (n : Fin 64) (a : V2gVals) (k : Nat) (x : Proto) (s : State), s.session n = some k ∧ (s.vc n).up = true ∧
    (s.vc n).proto = some x ∧ s.inOrder n x .sessionStop = true ∧ s.phase k = 8 → ∃ t, exec (.v2gRequest n
    .sessionStop a) s = .next t ∧ t = stopDone k (connClose n (answer n .sessionStop .ok s))) ∧
  (∀ (n : Fin 64) (a : V2gVals) (k : Nat) (x : Proto) (s : State), s.session n = some k ∧ (s.vc n).up = true ∧
    (s.vc n).proto = some x ∧ s.inOrder n x .authorization = true ∧ within 5 (s.phase k) 8 = false ∧ ((s.vs
    k).preAuth = true ∨ (s.vs k).decided = 1) → ∃ t, exec (.v2gRequest n .authorization a) s = .next t ∧ t =
    openRecord k (answer n .authorization .ok (s.updVs k fun v =>
    { v with method := if v.method = 0 then 4 else v.method }))) ∧
  (∀ (n : Fin 64) (a : V2gVals) (k : Nat) (x : Proto) (s : State), s.session n = some k ∧ (s.vc n).up = true ∧
    (s.vc n).proto = some x ∧ s.inOrder n x .authorization = true ∧ within 5 (s.phase k) 8 = false ∧ (s.vs
    k).preAuth = false ∧ (s.vs k).decided = 2 → ∃ t, exec (.v2gRequest n .authorization a) s = .next t ∧ t =
    endSession n 7 (answer n .authorization .failed s)) ∧
  (∀ (n : Fin 64) (a : V2gVals) (k : Nat) (x : Proto) (s : State), s.session n = some k ∧ (s.vc n).up = true ∧
    (s.vc n).proto = some x ∧ s.inOrder n x .authorization = true ∧ within 5 (s.phase k) 8 = false ∧ (s.vs
    k).preAuth = false ∧ (s.vs k).decided = 0 → ∃ t, exec (.v2gRequest n .authorization a) s = .next t ∧ t =
    waitFor n .authorization (s.updVs k fun v => { v with pendDec := 1 })) ∧
  (∀ (n : Fin 64) (a : V2gVals) (k : Nat) (x : Proto) (s : State), s.session n = some k ∧ (s.vc n).up = true ∧
    (s.vc n).proto = some x ∧ s.inOrder n x .authorization = true ∧ within 5 (s.phase k) 8 = true → ∃ t, exec
    (.v2gRequest n .authorization a) s = .next t ∧ t = answer n .authorization .ok s) ∧
  (∀ (n : Fin 64) (a : V2gVals) (k : Nat) (x : Proto) (s : State), s.session n = some k ∧ (s.vc n).up = true ∧
    (s.vc n).proto = some x ∧ s.inOrder n x .authorizationSetup = true → ∃ t, exec (.v2gRequest n
    .authorizationSetup a) s = .next t ∧ t = authSetup n s) ∧
  (∀ (n : Fin 64) (a : V2gVals) (k : Nat) (x : Proto) (s : State), s.session n = some k ∧ (s.vc n).up = true ∧
    (s.vc n).proto = some x ∧ s.inOrder n x .certificateInstallation = true → ∃ t, exec (.v2gRequest n
    .certificateInstallation a) s = .next t ∧ t = certInstall n k [] (certAnswer n k) s) ∧
  (∀ (n : Fin 64) (a : V2gVals) (k : Nat) (x : Proto) (m : V2gMsg) (s : State), s.session n = some k ∧ (s.vc
    n).up = true ∧ (s.vc n).proto = some x ∧ s.inOrder n x m = true ∧ m ∈ [V2gMsg.serviceDetail,
    .chargingStatus, .weldingDetection, .vehicleCheckIn, .vehicleCheckOut, .vehiclePositioning] → ∃ t, exec
    (.v2gRequest n m a) s = .next t ∧ t = answerWith n m .ok s) ∧
  (∀ (n : Fin 64) (a : V2gVals) (k : Nat) (x : Proto) (m : V2gMsg) (s : State), s.session n = some k ∧ (s.vc
    n).up = true ∧ (s.vc n).proto = some x ∧ s.inOrder n x m = false ∧ within 2 (s.phase k) 7 = true → ∃ t,
    exec (.v2gRequest n m a) s = .next t ∧ t = endSession n 8 (s.updVc n fun c =>
    { c with ans := .sequenceError, waiting := false }) ∧ t.phase k = if s.phase k = 7 then 8 else 9) ∧
  (∀ (n : Fin 64) (a : V2gVals) (k : Nat) (m : V2gMsg) (s : State), s.session n = some k ∧ (s.vc n).up = true
    ∧ (s.vc n).proto = none ∧ within 2 (s.phase k) 7 = true → ∃ t, exec (.v2gRequest n m a) s = .next t ∧ t =
    connFail n s ∧ t.phase k = if s.phase k = 7 then 8 else 9) ∧
  (∀ (n : Fin 64) (a : V2gVals) (m : V2gMsg) (s : State), (s.session n = none ∨ (s.vc n).up = false) → ∃ t,
    exec (.v2gRequest n m a) s = .next t ∧ t = s)

/-- In order, on a connection that is up: AuthorizationSetup issues a fresh challenge; a PnC AuthorizationReq whose
operations are granted (state u) with a chain that fails, or a signature or challenge that fails, ends the
session with reason 7 (the EMAID is taken once the chain is good, the challenge used up), and with all good
goes to the authorisation decision, decided already where no confirmation is configured; not granted it waits;
a repeated one goes to the decision; under DIN SPEC 70121 and ISO 15118-2 it is a sequence error. A certificate
installation request is kept for the host and waits; once the host has accepted it the stream is the answer; a
refusal ends the session with reason 7. PowerDelivery (start) with the contactor closed and energy allowed
gives ENERGISING; before its bound it waits; at the bound, or where energy is not allowed, it fails and the
session is STOPPING. A decision for a waiting AuthorizationReq of a session that negotiates V2G, from the host
or at the timeout by the configured action, opens the record or ends the session with reason 7; a host decision
that does not apply keeps its status, one that names another session is STALE, and one for no session's pending
decision at the timeout changes nothing. Out of order, early or without a connection these commands do what a
V2G request does. A host's identifier is a free value (log 117). -/
def Obligations.VehicleAuthorisation : Prop :=
  (∀ (n : Fin 64) (k : Nat) (x : Proto) (s : State), s.session n = some k ∧ (s.vc n).up = true ∧ (s.vc
    n).proto = some x ∧ s.inOrder n x .authorizationSetup = true → ∃ t, exec (.authorizationSetupReq n) s =
    .next t ∧ (t.vc n).chal = some (s.freeBits 128) ∧ (t.vc n).ans = .ok ∧ (t.vc n).prev = some
    .authorizationSetup) ∧
  (∀ (n : Fin 64) (a : PncCheck) (k : Nat) (x : Proto) (u : State) (s : State), s.session n = some k ∧ (s.vc
    n).up = true ∧ (s.vc n).proto = some x ∧ s.inOrder n x .authorization = true ∧ x ≠ .din ∧ x ≠ .iso2 ∧ (s.vs
    k).pendDec ≠ 1 ∧ (s.vs k).decided = 0 ∧ within 5 (s.phase k) 8 = false ∧ girthRun pkaPort (List.replicate
    (1 + min 3 a.chain.sizes.length) 3) s = some u ∧ u.chainCheck a = none ∧ u.pncSigned n a = true ∧ (u.vs
    k).confirm = (s.vs k).confirm → ∃ t, exec (.authorizationReq n a) s = .next t ∧ t = authDecide n k (if
    (s.vs k).confirm then (u.updVc n fun c => { c with chal := none }).updVs k fun v =>
    { v with ident := a.emaid, method := 2 } else ((u.updVc n fun c => { c with chal := none }).updVs k fun v
    => { v with ident := a.emaid, method := 2 }).updVs k fun v => { v with decided := 1 })) ∧
  (∀ (n : Fin 64) (a : PncCheck) (k : Nat) (x : Proto) (e : V2gAns) (u : State) (s : State), s.session n =
    some k ∧ (s.vc n).up = true ∧ (s.vc n).proto = some x ∧ s.inOrder n x .authorization = true ∧ x ≠ .din ∧ x
    ≠ .iso2 ∧ (s.vs k).pendDec ≠ 1 ∧ (s.vs k).decided = 0 ∧ within 5 (s.phase k) 8 = false ∧ girthRun pkaPort
    (List.replicate (1 + min 3 a.chain.sizes.length) 3) s = some u ∧ u.chainCheck a = some e → ∃ t, exec
    (.authorizationReq n a) s = .next t ∧ t = endSession n 7 (answer n .authorization e u)) ∧
  (∀ (n : Fin 64) (a : PncCheck) (k : Nat) (x : Proto) (u : State) (s : State), s.session n = some k ∧ (s.vc
    n).up = true ∧ (s.vc n).proto = some x ∧ s.inOrder n x .authorization = true ∧ x ≠ .din ∧ x ≠ .iso2 ∧ (s.vs
    k).pendDec ≠ 1 ∧ (s.vs k).decided = 0 ∧ within 5 (s.phase k) 8 = false ∧ girthRun pkaPort (List.replicate
    (1 + min 3 a.chain.sizes.length) 3) s = some u ∧ u.chainCheck a = none ∧ u.pncSigned n a = false → ∃ t,
    exec (.authorizationReq n a) s = .next t ∧ t = endSession n 7 (answer n .authorization .failed ((u.updVc n
    fun c => { c with chal := none }).updVs k fun v => { v with ident := a.emaid, method := 2 }))) ∧
  (∀ (n : Fin 64) (a : PncCheck) (k : Nat) (x : Proto) (s : State), s.session n = some k ∧ (s.vc n).up = true
    ∧ (s.vc n).proto = some x ∧ s.inOrder n x .authorization = true ∧ x ≠ .din ∧ x ≠ .iso2 ∧ (s.vs k).pendDec ≠
    1 ∧ (s.vs k).decided = 0 ∧ within 5 (s.phase k) 8 = false ∧ girthRun pkaPort (List.replicate (1 + min 3
    a.chain.sizes.length) 3) s = none → ∃ t, exec (.authorizationReq n a) s = .next t ∧ t = waitFor n
    .authorization s) ∧
  (∀ (n : Fin 64) (a : PncCheck) (k : Nat) (x : Proto) (s : State), s.session n = some k ∧ (s.vc n).up = true
    ∧ (s.vc n).proto = some x ∧ s.inOrder n x .authorization = true ∧ x ≠ .din ∧ x ≠ .iso2 ∧ ((s.vs k).pendDec
    = 1 ∨ (s.vs k).decided ≠ 0 ∨ within 5 (s.phase k) 8 = true) → ∃ t, exec (.authorizationReq n a) s = .next t
    ∧ t = authDecide n k s) ∧
  (∀ (n : Fin 64) (a : PncCheck) (k : Nat) (x : Proto) (s : State), s.session n = some k ∧ (s.vc n).up = true
    ∧ (s.vc n).proto = some x ∧ s.inOrder n x .authorization = true ∧ (x = .din ∨ x = .iso2) → ∃ t, exec
    (.authorizationReq n a) s = .next t ∧ t = seqError n s) ∧
  (∀ (n : Fin 64) (l : List Byte) (k : Nat) (x : Proto) (s : State), s.session n = some k ∧ (s.vc n).up = true
    ∧ (s.vc n).proto = some x ∧ s.inOrder n x .certificateInstallation = true ∧ (s.vs k).decided = 0 ∧ (s.vs
    k).pendDec ≠ 2 → ∃ t, exec (.certificateInstallationReq n l) s = .next t ∧ t = waitFor n
    .certificateInstallation (s.updVs k fun v =>
    { v with certReq := l, certRsp := [], rspLen := 0, pendDec := 2 })) ∧
  (∀ (n : Fin 64) (l : List Byte) (k : Nat) (x : Proto) (s : State), s.session n = some k ∧ (s.vc n).up = true
    ∧ (s.vc n).proto = some x ∧ s.inOrder n x .certificateInstallation = true ∧ (s.vs k).decided = 0 ∧ (s.vs
    k).pendDec = 2 → ∃ t, exec (.certificateInstallationReq n l) s = .next t ∧ t = waitFor n
    .certificateInstallation s) ∧
  (∀ (n : Fin 64) (l : List Byte) (k : Nat) (x : Proto) (s : State), s.session n = some k ∧ (s.vc n).up = true
    ∧ (s.vc n).proto = some x ∧ s.inOrder n x .certificateInstallation = true ∧ (s.vs k).decided = 1 → ∃ t,
    exec (.certificateInstallationReq n l) s = .next t ∧ t = answer n .certificateInstallation .stream (s.updVs
    k fun v => { v with decided := 0 })) ∧
  (∀ (n : Fin 64) (l : List Byte) (k : Nat) (x : Proto) (s : State), s.session n = some k ∧ (s.vc n).up = true
    ∧ (s.vc n).proto = some x ∧ s.inOrder n x .certificateInstallation = true ∧ (s.vs k).decided ≠ 0 ∧ (s.vs
    k).decided ≠ 1 → ∃ t, exec (.certificateInstallationReq n l) s = .next t ∧ t = endSession n 7 (answer n
    .certificateInstallation .failed s)) ∧
  (∀ (n : Fin 64) (l : Bool) (k : Nat) (x : Proto) (s : State), s.session n = some k ∧ (s.vc n).up = true ∧
    (s.vc n).proto = some x ∧ s.inOrder n x .powerDelivery = true ∧ s.phase k = 6 ∧ s.mayEnergise n = true ∧
    s.contactorClosed n = true → ∃ t, exec (.powerDeliveryStart n l) s = .next t ∧ t = answer n .powerDelivery
    .ok (energise k (s.updVs k fun v => { v with coilRetry := false }))) ∧
  (∀ (n : Fin 64) (k : Nat) (x : Proto) (s : State), s.session n = some k ∧ (s.vc n).up = true ∧ (s.vc
    n).proto = some x ∧ s.inOrder n x .powerDelivery = true ∧ s.phase k = 6 ∧ s.mayEnergise n = true ∧
    s.contactorClosed n = false → ∃ t, exec (.powerDeliveryStart n false) s = .next t ∧ t = waitFor n
    .powerDelivery s) ∧
  (∀ (n : Fin 64) (l : Bool) (k : Nat) (x : Proto) (s : State), s.session n = some k ∧ (s.vc n).up = true ∧
    (s.vc n).proto = some x ∧ s.inOrder n x .powerDelivery = true ∧ (s.phase k ≠ 6 ∨ s.mayEnergise n = false ∨
    (l = true ∧ s.contactorClosed n = false)) → ∃ t, exec (.powerDeliveryStart n l) s = .next t ∧ t = failStop
    n k .powerDelivery .powerNotApplied s ∧ t.phase k = 8) ∧
  (∀ (n : Fin 64) (k : Nat) (s : State), s.session n = some k ∧ (s.vs k).pendDec = 1 ∧ (s.vc n).waiting = true
    ∧ (s.vc n).prev = some .authorization ∧ within 2 (s.phase k) 4 = true ∧ s.phase k ≠ 1 ∧ (s.vs k).proto ≠ 1
    ∧ (s.vs k).proto ≠ 5 ∧ (s.vs k).preAuth = false ∧ s.onum 0x2200 2 = 1 → ∃ t, exec (.hostDecisionTimeout n)
    s = .next t ∧ t = openRecord k (answer n .authorization .ok ((s.updVs k fun v =>
    { v with pendDec := 0, decided := 1 }).updVs k fun v =>
    { v with method := if v.method = 0 then 4 else v.method }))) ∧
  (∀ (n : Fin 64) (k : Nat) (s : State), s.session n = some k ∧ (s.vs k).pendDec = 1 ∧ (s.vc n).waiting = true
    ∧ (s.vc n).prev = some .authorization ∧ within 2 (s.phase k) 4 = true ∧ s.phase k ≠ 1 ∧ (s.vs k).proto ≠ 1
    ∧ (s.vs k).proto ≠ 5 ∧ (s.vs k).preAuth = false ∧ s.onum 0x2200 2 ≠ 1 → ∃ t, exec (.hostDecisionTimeout n)
    s = .next t ∧ t = endSession n 7 (answer n .authorization .failed (s.updVs k fun v =>
    { v with pendDec := 0, decided := 2 }))) ∧
  (∀ (n : Fin 64) (s : State), ((s.session n = none ∨ ∃ k, s.session n = some k ∧ (s.vs k).pendDec = 0)) → ∃
    t, exec (.hostDecisionTimeout n) s = .next t ∧ t = s) ∧
  (∀ (k : Fin 256) (a : Word) (b : BitVec 64) (n : Nat) (s : State), s.namesSession a.toNat b.toNat = some
    k.val ∧ (s.app.ctx.get k).point = n ∧ (s.vs k).pendDec = 1 ∧ (s.vc n).waiting = true ∧ (s.vc n).prev = some
    .authorization ∧ within 2 (s.phase k) 4 = true ∧ s.phase k ≠ 1 ∧ (s.vs k).proto ≠ 1 ∧ (s.vs k).proto ≠ 5 ∧
    (s.vs k).preAuth = false → ∃ t, exec (.hostDecision k a b 1) s = .next t ∧ t = openRecord k (answer n
    .authorization .ok (((hostIdent k s).updVs k fun v =>
    { v with pendDec := 0, decided := 1, decSt := .ok }).updVs k fun v =>
    { v with method := if v.method = 0 then 4 else v.method }))) ∧
  (∀ (k : Fin 256) (a : Word) (b : BitVec 64) (s : State), s.namesSession a.toNat b.toNat = some k.val ∧ (s.vs
    k).pendDec = 1 ∧ (s.vc (s.app.ctx.get k).point).waiting = true ∧ (s.vc (s.app.ctx.get k).point).prev = some
    .authorization ∧ within 2 (s.phase k) 4 = true ∧ s.phase k ≠ 1 ∧ (s.vs k).proto ≠ 1 ∧ (s.vs k).proto ≠ 5 ∧
    (s.vs k).preAuth = false → ∃ t, exec (.hostDecision k a b 2) s = .next t ∧ t = endSession (s.app.ctx.get
    k).point 7 (answer (s.app.ctx.get k).point .authorization .failed (s.updVs k fun v =>
    { v with pendDec := 0, decided := 2, decSt := .ok }))) ∧
  (∀ (k : Fin 256) (a : Word) (b : BitVec 64) (d : BitVec 8) (s : State), s.namesSession a.toNat b.toNat =
    some k.val ∧ s.decisionStatus k d.toNat ≠ .ok → ∃ t, exec (.hostDecision k a b d) s = .next t ∧ t = s.updVs
    k (fun v => { v with decSt := s.decisionStatus k d.toNat })) ∧
  (∀ (k : Fin 256) (a : Word) (b : BitVec 64) (d : BitVec 8) (s : State), s.namesSession a.toNat b.toNat ≠
    some k.val → ∃ t, exec (.hostDecision k a b d) s = .next t ∧ t = s.updVs k (fun v =>
    { v with decSt := .stale })) ∧
  (∀ (n : Fin 64) (k : Nat) (x : Proto) (s : State), s.session n = some k ∧ (s.vc n).up = true ∧ (s.vc
    n).proto = some x ∧ s.inOrder n x .authorizationSetup = false ∧ within 2 (s.phase k) 7 = true → ∃ t, exec
    (.authorizationSetupReq n) s = .next t ∧ t = endSession n 8 (s.updVc n fun c =>
    { c with ans := .sequenceError, waiting := false }) ∧ t.phase k = if s.phase k = 7 then 8 else 9) ∧
  (∀ (n : Fin 64) (k : Nat) (s : State), s.session n = some k ∧ (s.vc n).up = true ∧ (s.vc n).proto = none ∧
    within 2 (s.phase k) 7 = true → ∃ t, exec (.authorizationSetupReq n) s = .next t ∧ t = connFail n s ∧
    t.phase k = if s.phase k = 7 then 8 else 9) ∧
  (∀ (n : Fin 64) (s : State), (s.session n = none ∨ (s.vc n).up = false) → ∃ t, exec (.authorizationSetupReq
    n) s = .next t ∧ t = s) ∧
  (∀ (n : Fin 64) (a : PncCheck) (k : Nat) (x : Proto) (s : State), s.session n = some k ∧ (s.vc n).up = true
    ∧ (s.vc n).proto = some x ∧ s.inOrder n x .authorization = false ∧ within 2 (s.phase k) 7 = true → ∃ t,
    exec (.authorizationReq n a) s = .next t ∧ t = endSession n 8 (s.updVc n fun c =>
    { c with ans := .sequenceError, waiting := false }) ∧ t.phase k = if s.phase k = 7 then 8 else 9) ∧
  (∀ (n : Fin 64) (a : PncCheck) (k : Nat) (s : State), s.session n = some k ∧ (s.vc n).up = true ∧ (s.vc
    n).proto = none ∧ within 2 (s.phase k) 7 = true → ∃ t, exec (.authorizationReq n a) s = .next t ∧ t =
    connFail n s ∧ t.phase k = if s.phase k = 7 then 8 else 9) ∧
  (∀ (n : Fin 64) (a : PncCheck) (s : State), (s.session n = none ∨ (s.vc n).up = false) → ∃ t, exec
    (.authorizationReq n a) s = .next t ∧ t = s) ∧
  (∀ (n : Fin 64) (l : List Byte) (k : Nat) (x : Proto) (s : State), s.session n = some k ∧ (s.vc n).up = true
    ∧ (s.vc n).proto = some x ∧ s.inOrder n x .certificateInstallation = false ∧ within 2 (s.phase k) 7 = true
    → ∃ t, exec (.certificateInstallationReq n l) s = .next t ∧ t = endSession n 8 (s.updVc n fun c =>
    { c with ans := .sequenceError, waiting := false }) ∧ t.phase k = if s.phase k = 7 then 8 else 9) ∧
  (∀ (n : Fin 64) (l : List Byte) (k : Nat) (s : State), s.session n = some k ∧ (s.vc n).up = true ∧ (s.vc
    n).proto = none ∧ within 2 (s.phase k) 7 = true → ∃ t, exec (.certificateInstallationReq n l) s = .next t ∧
    t = connFail n s ∧ t.phase k = if s.phase k = 7 then 8 else 9) ∧
  (∀ (n : Fin 64) (l : List Byte) (s : State), (s.session n = none ∨ (s.vc n).up = false) → ∃ t, exec
    (.certificateInstallationReq n l) s = .next t ∧ t = s) ∧
  (∀ (n : Fin 64) (l : Bool) (k : Nat) (x : Proto) (s : State), s.session n = some k ∧ (s.vc n).up = true ∧
    (s.vc n).proto = some x ∧ s.inOrder n x .powerDelivery = false ∧ within 2 (s.phase k) 7 = true → ∃ t, exec
    (.powerDeliveryStart n l) s = .next t ∧ t = endSession n 8 (s.updVc n fun c =>
    { c with ans := .sequenceError, waiting := false }) ∧ t.phase k = if s.phase k = 7 then 8 else 9) ∧
  (∀ (n : Fin 64) (l : Bool) (k : Nat) (s : State), s.session n = some k ∧ (s.vc n).up = true ∧ (s.vc n).proto
    = none ∧ within 2 (s.phase k) 7 = true → ∃ t, exec (.powerDeliveryStart n l) s = .next t ∧ t = connFail n s
    ∧ t.phase k = if s.phase k = 7 then 8 else 9) ∧
  (∀ (n : Fin 64) (l : Bool) (s : State), (s.session n = none ∨ (s.vc n).up = false) → ∃ t, exec
    (.powerDeliveryStart n l) s = .next t ∧ t = s)

/-- A descriptor that passes the checks becomes a job, and its port reads the tag with OK; another one leaves the
jobs, and its port reads the status. A completion runs the oldest job of its tag among the four in work, which
then is no job any more: with NOTIFY its context, in use, gets class 8 pending, else the completion joins the
queue; without such a job nothing changes. A read of SKV_CPL takes the oldest completion; an empty queue reads
0. An Awl completion of a context in use makes class 8 pending there, another one asserts the source of its
engine. A sequence signal at its level changes nothing; a change is taken over: without a point of the port no
more, SQk_PROX with the point's event, SQk_PERM falling with the fault stop of reason 1, rising with the next
step of the sequence. A frame 100h to 102h of a port in use is taken by the point's session; in ENERGISING a
102h frame within the limits, without fault and with a current, gives the vehicle's request and state of
charge. Others, and without a point or session, change nothing. 108h and 109h are sent with the charger-fault
status from the authorisation on. Frames still missing 2000 ms after the authorisation end the session with
reason 8; a 102h frame missing for 1000 ms is a fault stop with reason 8. A fault stop from AUTHORISING to
ENERGISING sets the charger fault, ends the session and takes the setpoint off. The layout of the frames is
that of the standard (log 45). -/
def Obligations.SkiverAndSequencePorts : Prop :=
  (∀ (p : Fin 24) (a : Word) (s : State), s.skvStatus p a.toNat = .ok ∧ a.toNat % 16 = 0 → ∃ t, exec
    (.skiverSubmit p a) s = .next t ∧ t.app.veh.skv.jobs = s.app.veh.skv.jobs ++ [s.skvDesc p a.toNat] ∧
    t.app.veh.skv.subst.get p = (s.num (a.toNat + 4) 2, .ok)) ∧
  (∀ (p : Fin 24) (a : Word) (s : State), s.skvStatus p a.toNat ≠ .ok → ∃ t, exec (.skiverSubmit p a) s =
    .next t ∧ t.app.veh.skv.jobs = s.app.veh.skv.jobs ∧ (t.app.veh.skv.subst.get p).2 = s.skvStatus p a.toNat) ∧
  (∀ (g : BitVec 16) (r : SkvResult) (j : SkvJob) (s : State), (s.app.veh.skv.jobs.take 4).find? (fun j =>
    j.tag = g.toNat) = some j ∧ j.notify = true ∧ (s.app.ctx.get j.target).st ≠ .free → ∃ t, exec
    (.skiverComplete g r) s = .next t ∧ t = skvRun j r s ∧ (t.app.ctx.get j.target).pend.getLsbD 8 = true ∧
    t.app.veh.skv.jobs = s.app.veh.skv.jobs.erase j) ∧
  (∀ (g : BitVec 16) (r : SkvResult) (j : SkvJob) (s : State), (s.app.veh.skv.jobs.take 4).find? (fun j =>
    j.tag = g.toNat) = some j ∧ j.notify = false ∧ s.app.veh.skv.cpl.length < 64 → ∃ t, exec (.skiverComplete g
    r) s = .next t ∧ t = skvRun j r s ∧ t.app.veh.skv.jobs = s.app.veh.skv.jobs.erase j ∧ ∃ st,
    t.app.veh.skv.cpl = s.app.veh.skv.cpl ++ [(j.tag, st)]) ∧
  (∀ (g : BitVec 16) (r : SkvResult) (s : State), (s.app.veh.skv.jobs.take 4).find? (fun j => j.tag = g.toNat)
    = none → ∃ t, exec (.skiverComplete g r) s = .next t ∧ t = s) ∧
  (∀ (x : Nat × Status) (l : List (Nat × Status)) (s : State), s.app.veh.skv.cpl = x :: l → ∃ t, exec
    .skiverCplRead s = .next t ∧ t.app.clk.busData = pack [(x.1, 16), (statusCode x.2, 0)] ∧ t.app.veh.skv.cpl
    = l) ∧
  (∀ (s : State), s.app.veh.skv.cpl = [] → ∃ t, exec .skiverCplRead s = .next t ∧ t = busOk 0 s) ∧
  (∀ (a b : Bool) (k : Fin 256) (s : State), (s.app.ctx.get k).st ≠ .free → ∃ t, exec (.awlJobComplete a b
    (some k)) s = .next t ∧ (t.app.ctx.get k).pend.getLsbD 8 = true) ∧
  (∀ (a b : Bool) (s : State), ∃ t, exec (.awlJobComplete a b none) s = .next t ∧ (t.app.bkl.src.get (if a
    then 451 else 450)).lvl = true) ∧
  (∀ (k : Fin 8) (q l : Bool) (s : State), (if q then s.power.seqProx.get k else s.power.seqPerm.get k) = l →
    ∃ t, exec (.sequenceSignalChange k q l) s = .next t ∧ t = s) ∧
  (∀ (k : Fin 8) (q l : Bool) (s : State), (if q then s.power.seqProx.get k else s.power.seqPerm.get k) ≠ l ∧
    s.pointOfPort k = none → ∃ t, exec (.sequenceSignalChange k q l) s = .next t ∧ t = (if q then
    { s with power.seqProx := s.power.seqProx.set k l } else
    { s with power.seqPerm := s.power.seqPerm.set k l })) ∧
  (∀ (k : Fin 8) (l : Bool) (p : Nat) (s : State), s.power.seqProx.get k ≠ l ∧ s.pointOfPort k = some p → ∃ t,
    exec (.sequenceSignalChange k true l) s = .next t ∧ t = laneRaise (48 + p)
    { s with power.seqProx := s.power.seqProx.set k l }) ∧
  (∀ (k : Fin 8) (p : Nat) (s : State), s.power.seqPerm.get k = true ∧ s.pointOfPort k = some p → ∃ t, exec
    (.sequenceSignalChange k false false) s = .next t ∧ t = faultStop k p 1 (laneRaise (48 + p)
    { s with power.seqPerm := s.power.seqPerm.set k false })) ∧
  (∀ (k : Fin 8) (p : Nat) (s : State), s.power.seqPerm.get k = false ∧ s.pointOfPort k = some p → ∃ t, exec
    (.sequenceSignalChange k false true) s = .next t ∧ t = withSession p (seqAdvance k p) (laneRaise (48 + p)
    { s with power.seqPerm := s.power.seqPerm.set k true })) ∧
  (∀ (k : Fin 8) (i : BitVec 11) (d : List Byte) (p j : Nat) (s : State), within 0x100 i.toNat 0x102 = true ∧
    s.vpUp k = true ∧ s.pointOfPort k = some p ∧ s.session p = some j → ∃ t, exec (.vcanFrame k i d) s = .next
    t ∧ t = vcanTake k p j (i.toNat - 0x100) d s) ∧
  (∀ (k : Fin 8) (d : List Byte) (p j : Nat) (s : State), s.vpUp k = true ∧ s.pointOfPort k = some p ∧
    s.session p = some j ∧ s.frameFits p (frameV d) (frameI d) = true ∧ d.getD 4 0 = 0 ∧ s.phase j = 7 ∧ frameI
    d ≠ 0 → ∃ t, exec (.vcanFrame k 0x102 d) s = .next t ∧ t = vehicleRequest p j (frameV d) (frameI d : Int)
    ((s.updVp k fun v => { v with got := putBit v.got 2 true }).updVs j fun x =>
    { x with soc := (d.getD 6 0).toNat })) ∧
  (∀ (k : Fin 8) (i : BitVec 11) (d : List Byte) (s : State), (within 0x100 i.toNat 0x102 = false ∨ s.vpUp k =
    false ∨ s.pointOfPort k = none) → ∃ t, exec (.vcanFrame k i d) s = .next t ∧ t = s) ∧
  (∀ (k : Fin 8) (p : Nat) (s : State), s.vpUp k = true ∧ s.pointOfPort k = some p ∧ within 5 (s.pointPhase p)
    9 = true → ∃ t, exec (.chargerFramePeriod k) s = .next t ∧ t = s.updVp k (fun v =>
    { v with sent := ((0x109, v.fault) :: (0x108, v.fault) :: v.sent).take 16 })) ∧
  (∀ (k : Fin 8) (s : State), (s.vpUp k = false ∨ s.pointOfPort k = none) → ∃ t, exec (.chargerFramePeriod k)
    s = .next t ∧ t = s) ∧
  (∀ (k : Fin 8) (p j : Nat) (s : State), s.pointOfPort k = some p ∧ s.session p = some j ∧ (s.vp k).got ≠ 7 ∧
    within 5 (s.phase j) 6 = true → ∃ t, exec (.vcanFirstFrameTimeout k) s = .next t ∧ t = endSession p 8 s ∧
    t.phase j = 9) ∧
  (∀ (k : Fin 8) (s : State), (s.pointOfPort k = none ∨ (s.vp k).got = 7) → ∃ t, exec (.vcanFirstFrameTimeout
    k) s = .next t ∧ t = s) ∧
  (∀ (k : Fin 8) (p j : Nat) (s : State), s.pointOfPort k = some p ∧ s.session p = some j ∧ within 4 (s.phase
    j) 7 = true → ∃ t, exec (.vcanFrameTimeout k) s = .next t ∧ t = setpointOff p (endSession p 8 (s.updVp k
    fun v => { v with fault := true })) ∧ t.phase j = if s.phase j = 7 then 8 else 9) ∧
  (∀ (k : Fin 8) (s : State), s.pointOfPort k = none → ∃ t, exec (.vcanFrameTimeout k) s = .next t ∧ t = s)

/-- While the sealed die runs. An overload in mode 0 above gain 1 drops the gain by the fitted SAR reading, counts
the drop and takes at most 3 replacing samples; otherwise gain and drops stay and all are taken; samples taken
are counted, clipped ones as overrange unless the channel is the low member of a pair. A gain raise, in mode 0
after 2 low cycles, multiplies the gain by 4 up to 64, else nothing changes. A modulator failure sets MODFAIL
and makes the channel FAILED. A harmonic window of a used channel gives its group values, THD and their time;
of an unused one nothing. A temperature reading moves the band by at most one. A shadow comparison by the
shadow due, of a used channel that is no high member and not FAILED: a first failure makes it SUSPECT by that
shadow, a second FAILED and the first shadow is right; a pass of a suspect clears it and counts against the
first shadow, which is retired at 2; another pass gives PASS. Any other comparison changes nothing. A pulse
owed is emitted or kept pending, one not owed changes nothing; the end of a pulse emits a pending one. A
reading is answered on class 0001h by role. While the die does not run, none of these changes anything. -/
def Obligations.MetrologyChannels : Prop :=
  (∀ (c : Fin 80) (v a : BitVec 12) (l : List (BitVec 12)) (s : State), s.die.running = true ∧ s.rangeMode c =
    0 ∧ 1 < (s.die.met.chan.get c).gain → ∃ t, exec (.adcOverload c v a l) s = .next t ∧ (t.die.met.chan.get
    c).gain = dropGain (s.die.met.chan.get c).gain ((s.die.met.chan.get c).sarFitted v).natAbs ∧
    (t.die.met.chan.get c).drops = stick 0xFFFFFFFF (s.die.met.chan.get c).drops 1 ∧ (t.die.met.chan.get
    c).replaced = stick 0xFFFFFFFF (s.die.met.chan.get c).replaced ((a :: l).take 3).length ∧
    (t.die.met.chan.get c).overs = stick 0xFFFFFFFF (s.die.met.chan.get c).overs (((a :: l).take 3).filter
    sarClipped).length ∧ (∀ j, j ≠ c.val → t.die.met.chan.get j = s.die.met.chan.get j)) ∧
  (∀ (c : Fin 80) (v a : BitVec 12) (l : List (BitVec 12)) (s : State), s.die.running = true ∧ ¬ (s.rangeMode
    c = 0 ∧ 1 < (s.die.met.chan.get c).gain) → ∃ t, exec (.adcOverload c v a l) s = .next t ∧
    (t.die.met.chan.get c).gain = (s.die.met.chan.get c).gain ∧ (t.die.met.chan.get c).drops =
    (s.die.met.chan.get c).drops ∧ (t.die.met.chan.get c).replaced = stick 0xFFFFFFFF (s.die.met.chan.get
    c).replaced (l.length + 1) ∧ (t.die.met.chan.get c).overs = stick 0xFFFFFFFF (s.die.met.chan.get c).overs
    (if s.rangeMode c = 2 then 0 else ((a :: l).filter sarClipped).length) ∧ (∀ j, j ≠ c.val →
    t.die.met.chan.get j = s.die.met.chan.get j)) ∧
  (∀ (c : Fin 80) (s : State), s.die.running = true ∧ s.rangeMode c = 0 ∧ 2 ≤ (s.die.met.chan.get c).low → ∃
    t, exec (.gainRaise c) s = .next t ∧ (t.die.met.chan.get c).gain = min 64 ((s.die.met.chan.get c).gain * 4)
    ∧ (t.die.met.chan.get c).low = 0 ∧ (∀ j, j ≠ c.val → t.die.met.chan.get j = s.die.met.chan.get j)) ∧
  (∀ (c : Fin 80) (s : State), s.rangeMode c ≠ 0 ∨ (s.die.met.chan.get c).low < 2 → ∃ t, exec (.gainRaise c) s
    = .next t ∧ t = s) ∧
  (∀ (b : Fin 64) (s : State), s.die.running = true → ∃ t, exec (.bitstreamModfail b) s = .next t ∧
    (t.die.met.chan.get (80 + b)).check = 3 ∧ (t.die.met.chan.get (80 + b)).modfail = true) ∧
  (∀ (c : Fin 144) (re im : List Int) (s : State), s.die.running = true ∧ s.snum (0x5100 + c) 1 ≠ 0 → ∃ t,
    exec (.harmonicWindowEnd c re im) s = .next t ∧ (t.die.met.chan.get c).gMtk = s.die.legal.mtk ∧
    (t.die.met.chan.get c).hBand = some s.die.met.band ∧ (t.die.met.chan.get c).g = ((List.range 63).map fun h
    => isqrt (groupSq (s.sixtyHz c) ((binRms re im).map fun x : Nat => (s.calib1 c (s.harmBand c) (x :
    Int)).natAbs) (h + 1)) 160 0 / 1000).zipIdx.foldl (fun b y => b.set (y.2 + 1) y.1) ((s.die.met.chan.get
    c).g.set 64 (s.thdOf ((List.range 63).map fun h => isqrt (groupSq (s.sixtyHz c) ((binRms re im).map fun x :
    Nat => (s.calib1 c (s.harmBand c) (x : Int)).natAbs) (h + 1)) 160 0 / 1000))) ∧ (∀ j, j ≠ c.val →
    t.die.met.chan.get j = s.die.met.chan.get j)) ∧
  (∀ (c : Fin 144) (re im : List Int) (s : State), s.snum (0x5100 + c) 1 = 0 → ∃ t, exec (.harmonicWindowEnd c
    re im) s = .next t ∧ t = s) ∧
  (∀ (v : Int) (s : State), s.die.running = true → ∃ t, exec (.temperatureBandSample v) s = .next t ∧ t =
    { s with die.met.temp := v, die.met.band := if v ≥ -30 + 10 * (s.die.met.band : Int) + 1 then min 14 (s.die.met.band + 1) else if v ≤ -40 + 10 * (s.die.met.band : Int) - 1 then s.die.met.band - 1 else s.die.met.band }) ∧
  (∀ (k : Fin 8) (c : Fin 80) (a b d : Nat) (s : State), s.die.running = true ∧ s.checker c = some k.val ∧
    s.snum (0x5100 + c) 1 ≠ 0 ∧ s.highMember c = false ∧ (s.die.met.chan.get c).check ≠ 3 ∧ (s.die.met.chan.get
    c).suspectBy = none ∧ s.shadowPass c a b d = false → ∃ t, exec (.shadowCheckEnd k c ⟨a, b, d⟩) s = .next t
    ∧ (t.die.met.chan.get c).check = 2 ∧ (t.die.met.chan.get c).suspectBy = some k.val ∧ (∀ j, j ≠ c.val →
    t.die.met.chan.get j = s.die.met.chan.get j)) ∧
  (∀ (k : Fin 8) (c : Fin 80) (a b d : Nat) (s : State), s.die.running = true ∧ s.checker c = some k.val ∧
    s.snum (0x5100 + c) 1 ≠ 0 ∧ s.highMember c = false ∧ (s.die.met.chan.get c).check ≠ 3 ∧ (s.die.met.chan.get
    c).suspectBy = none ∧ s.shadowPass c a b d = true → ∃ t, exec (.shadowCheckEnd k c ⟨a, b, d⟩) s = .next t ∧
    (t.die.met.chan.get c).check = 1 ∧ t.die.met.disagree.get k = 0 ∧ (∀ j, j ≠ c.val → t.die.met.chan.get j =
    s.die.met.chan.get j)) ∧
  (∀ (k : Fin 8) (c : Fin 80) (a b d j : Nat) (s : State), s.die.running = true ∧ s.checker c = some k.val ∧
    s.snum (0x5100 + c) 1 ≠ 0 ∧ s.highMember c = false ∧ (s.die.met.chan.get c).check ≠ 3 ∧ (s.die.met.chan.get
    c).suspectBy = some j ∧ s.shadowPass c a b d = false → ∃ t, exec (.shadowCheckEnd k c ⟨a, b, d⟩) s = .next
    t ∧ (t.die.met.chan.get c).check = 3 ∧ t.die.met.disagree.get j = 0) ∧
  (∀ (k : Fin 8) (c : Fin 80) (a b d j : Nat) (s : State), s.die.running = true ∧ s.checker c = some k.val ∧
    s.snum (0x5100 + c) 1 ≠ 0 ∧ s.highMember c = false ∧ (s.die.met.chan.get c).check ≠ 3 ∧ (s.die.met.chan.get
    c).suspectBy = some j ∧ s.shadowPass c a b d = true → ∃ t, exec (.shadowCheckEnd k c ⟨a, b, d⟩) s = .next t
    ∧ (t.die.met.chan.get c).check = 1 ∧ (t.die.met.chan.get c).suspectBy = none ∧ t.die.met.disagree.get j =
    s.die.met.disagree.get j + 1 ∧ (1 ≤ s.die.met.disagree.get j → t.die.met.retired.getLsbD j = decide (j <
    8)) ∧ (∀ j, j ≠ c.val → t.die.met.chan.get j = s.die.met.chan.get j)) ∧
  (∀ (k : Fin 8) (c : Fin 80) (a b d : Nat) (s : State), s.checker c ≠ some k.val ∨ s.snum (0x5100 + c) 1 = 0
    ∨ s.highMember c = true ∨ (s.die.met.chan.get c).check = 3 → ∃ t, exec (.shadowCheckEnd k c ⟨a, b, d⟩) s =
    .next t ∧ t = s) ∧
  (∀ (k : Fin 8) (s : State), s.die.running = true ∧ s.pulseOwed k = true ∧ (s.die.met.pls.get k).high = false
    → ∃ t, exec (.pulseDue k) s = .next t ∧ t.die.met.pls.get k =
    { s.die.met.pls.get k with count := (s.die.met.pls.get k).count + 1, high := true, ton := s.snum (0x5308 + k) 4 }) ∧
  (∀ (k : Fin 8) (s : State), s.die.running = true ∧ s.pulseOwed k = true ∧ (s.die.met.pls.get k).high = true
    → ∃ t, exec (.pulseDue k) s = .next t ∧ t.die.met.pls.get k =
    { s.die.met.pls.get k with count := (s.die.met.pls.get k).count + 1, pend := min 65535 ((s.die.met.pls.get k).pend + 1), ovf := (s.die.met.pls.get k).ovf || decide ((s.die.met.pls.get k).pend = 65535) }) ∧
  (∀ (k : Fin 8) (s : State), s.pulseOwed k = false → ∃ t, exec (.pulseDue k) s = .next t ∧ t = s) ∧
  (∀ (k : Fin 8) (s : State), s.die.running = true → ∃ t, exec (.pulseOnTimeEnd k) s = .next t ∧
    t.die.met.pls.get k = (if (s.die.met.pls.get k).high = false then s.die.met.pls.get k else if
    (s.die.met.pls.get k).pend = 0 then { s.die.met.pls.get k with high := false } else
    { s.die.met.pls.get k with pend := (s.die.met.pls.get k).pend - 1, high := true, ton := s.snum (0x5308 + k) 4 })) ∧
  (∀ (q : Rq) (a p : BitVec 8) (u : BitVec 16) (s : State), s.die.running = true → ∃ t, exec (.metrologyRead q
    a p u) s = .next t ∧ t = dieReply q.tag 1 (if s.mayMeter q.role then s.metrology a.toNat p.toNat u.toNat
    else readHead .denied a.toNat p.toNat u.toNat) s) ∧
  (∀ (c : Fin 80) (v a : BitVec 12) (l : List (BitVec 12)) (s : State), s.die.running = false → ∃ t, exec
    (.adcOverload c v a l) s = .next t ∧ t = s) ∧
  (∀ (c : Fin 80) (s : State), s.die.running = false → ∃ t, exec (.gainRaise c) s = .next t ∧ t = s) ∧
  (∀ (b : Fin 64) (s : State), s.die.running = false → ∃ t, exec (.bitstreamModfail b) s = .next t ∧ t = s) ∧
  (∀ (c : Fin 144) (re im : List Int) (s : State), s.die.running = false → ∃ t, exec (.harmonicWindowEnd c re
    im) s = .next t ∧ t = s) ∧
  (∀ (v : Int) (s : State), s.die.running = false → ∃ t, exec (.temperatureBandSample v) s = .next t ∧ t = s) ∧
  (∀ (k : Fin 8) (c : Fin 80) (a b d : Nat) (s : State), s.die.running = false → ∃ t, exec (.shadowCheckEnd k
    c ⟨a, b, d⟩) s = .next t ∧ t = s) ∧
  (∀ (k : Fin 8) (s : State), s.die.running = false → ∃ t, exec (.pulseDue k) s = .next t ∧ t = s) ∧
  (∀ (k : Fin 8) (s : State), s.die.running = false → ∃ t, exec (.pulseOnTimeEnd k) s = .next t ∧ t = s) ∧
  (∀ (q : Rq) (a p : BitVec 8) (u : BitVec 16) (s : State), s.die.running = false → ∃ t, exec (.metrologyRead
    q a p u) s = .next t ∧ t = s)

/-- While the sealed die runs. A cycle that qualifies, of an element in use with a working reference and outside a
power-fail warning, is kept with its time and adds its energies to the registers, to the test registers while
quiesced, or nowhere while creeping. A block entry after 400 samples of an AC element not in block mode does
the same and enters block mode; a return after 10 qualifying cycles does so and leaves it; an element out of
use or a failed reference routes nothing. A slice after a power-fail warning routes its cycle, commits and
starts the residue anew; a residue is kept after that commit; a periodic commit outside a warning keeps the
ledger. In every other case these change nothing. The Verifier opens a seal procedure while none is open and no
selected element serves an open record (else STATE), which clears the selected test registers; stages a legal
parameter of its selection (SEALED with none open or from another role, RANGE for a bad value, STATE outside
the selection, ABSENT for another entry); closes with commit (STATE with none open, RANGE for a parameter set
out of limits), which counts the calibration and leaves the registers; or abandons. Other roles get DENIED. A
timeout abandons an open procedure. While the die does not run none of these changes anything. It rests also on
the model's choices of assumption 66. -/
def Obligations.MetrologyCyclesAndSeal : Prop :=
  (∀ (e : Fin 128) (r : CycleRaw) (s : State), s.die.running = true ∧ s.elemOn e = true ∧ s.die.met.refFail =
    false ∧ s.warned = false ∧ s.cycleOk e r = true → ∃ t, exec (.elementCycleEnd e r) s = .next t ∧
    t.die.cur.reg = (if s.creeps e (s.cycleOf e r) || s.quiesced e then s.die.cur.reg else addCycle (6 * e)
    (s.cycleOf e r) s.die.cur.reg) ∧ (t.die.met.elem.get e).last = some ((s.cycleOf e r), s.die.legal.mtk) ∧
    (t.die.met.elem.get e).test = (if s.quiesced e && !s.creeps e (s.cycleOf e r) then addCycle 0 (s.cycleOf e
    r) (s.die.met.elem.get e).test else (s.die.met.elem.get e).test) ∧ t.die.pf = .none) ∧
  (∀ (e : Fin 128) (r : CycleRaw) (s : State), s.die.running = true ∧ (s.elemOn e = false ∨ s.die.met.refFail
    = true) ∧ s.warned = false ∧ s.cycleOk e r = true → ∃ t, exec (.elementCycleEnd e r) s = .next t ∧ t =
    { s with die.pf := .none }) ∧
  (∀ (e : Fin 128) (r : CycleRaw) (s : State), s.warned = true ∨ s.cycleOk e r = false → ∃ t, exec
    (.elementCycleEnd e r) s = .next t ∧ t = s) ∧
  (∀ (e : Fin 128) (r : CycleRaw) (s : State), s.die.running = true ∧ s.snum (0x5000 + e) 1 = 1 ∧
    (s.die.met.elem.get e).block = false ∧ s.warned = false ∧ 400 ≤ r.x.length ∧ s.die.met.refFail = false → ∃
    t, exec (.blockModeEntry e r) s = .next t ∧ t.die.cur.reg = (if s.creeps e (s.cycleOf e r) || s.quiesced e
    then s.die.cur.reg else addCycle (6 * e) (s.cycleOf e r) s.die.cur.reg) ∧ (t.die.met.elem.get e).last =
    some ((s.cycleOf e r), s.die.legal.mtk) ∧ (t.die.met.elem.get e).test = (if s.quiesced e && !s.creeps e
    (s.cycleOf e r) then addCycle 0 (s.cycleOf e r) (s.die.met.elem.get e).test else (s.die.met.elem.get
    e).test) ∧ (t.die.met.elem.get e).block = true) ∧
  (∀ (e : Fin 128) (r : CycleRaw) (s : State), s.die.running = true ∧ s.snum (0x5000 + e) 1 = 1 ∧
    (s.die.met.elem.get e).block = false ∧ s.warned = false ∧ 400 ≤ r.x.length ∧ s.die.met.refFail = true → ∃
    t, exec (.blockModeEntry e r) s = .next t ∧ t = s.updElem e fun x => { x with block := true }) ∧
  (∀ (e : Fin 128) (r : CycleRaw) (s : State), ¬ (s.snum (0x5000 + e) 1 = 1 ∧ (s.die.met.elem.get e).block =
    false ∧ s.warned = false ∧ 400 ≤ r.x.length) → ∃ t, exec (.blockModeEntry e r) s = .next t ∧ t = s) ∧
  (∀ (e : Fin 128) (r : CycleRaw) (l : List CycleRaw) (s : State), s.die.running = true ∧ (s.die.met.elem.get
    e).block = true ∧ s.warned = false ∧ l.length = 10 ∧ l.all (s.qualifies e) = true ∧ s.elemOn e = true ∧
    s.die.met.refFail = false → ∃ t, exec (.blockModeReturn ⟨e, r, l⟩) s = .next t ∧ t.die.cur.reg = (if
    s.creeps e (s.cycleOf e r) || s.quiesced e then s.die.cur.reg else addCycle (6 * e) (s.cycleOf e r)
    s.die.cur.reg) ∧ (t.die.met.elem.get e).last = some ((s.cycleOf e r), s.die.legal.mtk) ∧
    (t.die.met.elem.get e).test = (if s.quiesced e && !s.creeps e (s.cycleOf e r) then addCycle 0 (s.cycleOf e
    r) (s.die.met.elem.get e).test else (s.die.met.elem.get e).test) ∧ (t.die.met.elem.get e).block = false) ∧
  (∀ (e : Fin 128) (r : CycleRaw) (l : List CycleRaw) (s : State), s.die.running = true ∧ (s.die.met.elem.get
    e).block = true ∧ s.warned = false ∧ l.length = 10 ∧ l.all (s.qualifies e) = true ∧ (s.elemOn e = false ∨
    s.die.met.refFail = true) → ∃ t, exec (.blockModeReturn ⟨e, r, l⟩) s = .next t ∧ t = s.updElem e fun x =>
    { x with block := false }) ∧
  (∀ (e : Fin 128) (r : CycleRaw) (l : List CycleRaw) (s : State), ¬ ((s.die.met.elem.get e).block = true ∧
    s.warned = false ∧ l.length = 10 ∧ l.all (s.qualifies e) = true) → ∃ t, exec (.blockModeReturn ⟨e, r, l⟩) s
    = .next t ∧ t = s) ∧
  (∀ (e : Fin 128) (r : CycleRaw) (s : State), s.die.running = true ∧ s.elemOn e = true ∧ s.die.met.refFail =
    false ∧ s.die.pf ≠ .none → ∃ t, exec (.sliceEnd e r) s = .next t ∧ t.die.cur.reg = (if s.creeps e
    (s.cycleOf e r) || s.quiesced e then s.die.cur.reg else addCycle (6 * e) (s.cycleOf e r) s.die.cur.reg) ∧
    t.die.saved = t.die.cur ∧ t.die.pfSaved = true ∧ t.die.pf = (if s.die.pf = .warned then .landed else
    s.die.pf) ∧ (t.die.met.elem.get e).residue = 0) ∧
  (∀ (e : Fin 128) (r : CycleRaw) (s : State), s.die.running = true ∧ (s.elemOn e = false ∨ s.die.met.refFail
    = true) ∧ s.die.pf ≠ .none → ∃ t, exec (.sliceEnd e r) s = .next t ∧ t.die.cur.reg = s.die.cur.reg ∧
    t.die.saved = t.die.cur ∧ t.die.pfSaved = true ∧ t.die.pf = (if s.die.pf = .warned then .landed else
    s.die.pf) ∧ (t.die.met.elem.get e).residue = 0) ∧
  (∀ (e : Fin 128) (r : CycleRaw) (s : State), s.die.pf = .none → ∃ t, exec (.sliceEnd e r) s = .next t ∧ t =
    s) ∧
  (∀ (e : Fin 128) (r : CycleRaw) (s : State), s.die.running = true ∧ (s.die.pf = .landed ∨ s.die.pf =
    .released) → ∃ t, exec (.residueUpdate e r) s = .next t ∧ t = s.updElem e fun x =>
    { x with residue := s.residueOf e r }) ∧
  (∀ (e : Fin 128) (r : CycleRaw) (s : State), s.die.pf ≠ .landed ∧ s.die.pf ≠ .released → ∃ t, exec
    (.residueUpdate e r) s = .next t ∧ t = s) ∧
  (∀ (s : State), s.die.running = true ∧ s.warned = false → ∃ t, exec .periodicCommit s = .next t ∧ t =
    { s with die.cur := { s.die.cur with mtk := s.die.legal.mtk, lt := s.die.legal.lt }, die.saved := { s.die.cur with mtk := s.die.legal.mtk, lt := s.die.legal.lt }, die.pfSaved := false }) ∧
  (∀ (s : State), s.warned = true → ∃ t, exec .periodicCommit s = .next t ∧ t = s) ∧
  (∀ (q : Rq) (z : BitVec 144) (s : State), s.die.running = true ∧ s.dieRole q.role = true ∧ q.role =
    .verifier ∧ s.die.met.sealSel = none ∧ (((List.range 128).filter (s.elemSelected z)).any fun e =>
    ((s.elemPoint e).bind s.openRec).isSome) = false → ∃ t, exec (.sealOpen q z) s = .next t ∧
    t.die.met.sealSel = some z ∧ t.die.met.staged = [] ∧ (∀ e, e < 128 → s.elemSelected z e = true →
    (t.die.met.elem.get e).test = ⟨0, []⟩)) ∧
  (∀ (q : Rq) (z : BitVec 144) (s : State), s.die.running = true ∧ s.dieRole q.role = true ∧ q.role =
    .verifier ∧ (s.die.met.sealSel.isSome = true ∨ (((List.range 128).filter (s.elemSelected z)).any fun e =>
    ((s.elemPoint e).bind s.openRec).isSome) = true) → ∃ t, exec (.sealOpen q z) s = .next t ∧ t = writeReply
    q.tag 0x53F0 2 18 (.state, s)) ∧
  (∀ (q : Rq) (z : BitVec 144) (s : State), s.die.running = true ∧ (s.dieRole q.role = false ∨ q.role ≠
    .verifier) → ∃ t, exec (.sealOpen q z) s = .next t ∧ t = writeReply q.tag 0x53F0 2 18 (.denied, s)) ∧
  (∀ (q : Rq) (i : BitVec 16) (j : BitVec 8) (d : List Byte) (z : BitVec 144) (s : State), s.die.running =
    true ∧ s.dieRole q.role = true ∧ q.role = .verifier ∧ s.die.met.sealSel = some z ∧ isLegalParam i.toNat
    j.toNat = true ∧ i ≠ 0x5310 ∧ ((objAt (s.elemDc i.toNat) i.toNat j.toNat).map (·.valOk d)).getD false =
    true ∧ s.inSelection z ⟨i.toNat, j.toNat, 8 * s.die.met.coefOff, d⟩ = true → ∃ t, exec (.sealParameterWrite
    q i j d) s = .next t ∧ t.die.met.staged = s.die.met.staged ++ [⟨i.toNat, j.toNat, 8 * s.die.met.coefOff,
    d⟩] ∧ t.die.obj = s.die.obj) ∧
  (∀ (q : Rq) (i : BitVec 16) (j : BitVec 8) (d : List Byte) (z : BitVec 144) (s : State), s.die.running =
    true ∧ s.dieRole q.role = true ∧ q.role = .verifier ∧ s.die.met.sealSel = some z ∧ isLegalParam i.toNat
    j.toNat = true ∧ i = 0x5310 ∧ ((objAt (s.elemDc i.toNat) i.toNat j.toNat).map (·.valOk d)).getD false =
    true ∧ 8 * s.die.met.coefOff + d.length ≤ 17280 ∧ coefOk (applyParam ⟨i.toNat, j.toNat, 8 *
    s.die.met.coefOff, d⟩ s.staged) = true ∧ s.inSelection z ⟨i.toNat, j.toNat, 8 * s.die.met.coefOff, d⟩ =
    true → ∃ t, exec (.sealParameterWrite q i j d) s = .next t ∧ t.die.met.staged = s.die.met.staged ++
    [⟨i.toNat, j.toNat, 8 * s.die.met.coefOff, d⟩] ∧ t.die.obj = s.die.obj) ∧
  (∀ (q : Rq) (i : BitVec 16) (j : BitVec 8) (d : List Byte) (z : BitVec 144) (s : State), s.die.running =
    true ∧ s.dieRole q.role = true ∧ q.role = .verifier ∧ s.die.met.sealSel = some z ∧ isLegalParam i.toNat
    j.toNat = true ∧ (((objAt (s.elemDc i.toNat) i.toNat j.toNat).map (·.valOk d)).getD false = false ∨ (i =
    0x5310 ∧ (17280 < 8 * s.die.met.coefOff + d.length ∨ coefOk (applyParam ⟨i.toNat, j.toNat, 8 *
    s.die.met.coefOff, d⟩ s.staged) = false))) → ∃ t, exec (.sealParameterWrite q i j d) s = .next t ∧ t =
    writeReply q.tag i.toNat j.toNat d.length (.range, s)) ∧
  (∀ (q : Rq) (i : BitVec 16) (j : BitVec 8) (d : List Byte) (z : BitVec 144) (s : State), s.die.running =
    true ∧ s.dieRole q.role = true ∧ q.role = .verifier ∧ s.die.met.sealSel = some z ∧ isLegalParam i.toNat
    j.toNat = true ∧ i ≠ 0x5310 ∧ ((objAt (s.elemDc i.toNat) i.toNat j.toNat).map (·.valOk d)).getD false =
    true ∧ s.inSelection z ⟨i.toNat, j.toNat, 8 * s.die.met.coefOff, d⟩ = false → ∃ t, exec
    (.sealParameterWrite q i j d) s = .next t ∧ t = writeReply q.tag i.toNat j.toNat d.length (.state, s)) ∧
  (∀ (q : Rq) (i : BitVec 16) (j : BitVec 8) (d : List Byte) (s : State), s.die.running = true ∧ s.dieRole
    q.role = true ∧ isLegalParam i.toNat j.toNat = true ∧ (s.die.met.sealSel = none ∨ q.role ≠ .verifier) → ∃
    t, exec (.sealParameterWrite q i j d) s = .next t ∧ t = writeReply q.tag i.toNat j.toNat d.length (.sealed,
    s)) ∧
  (∀ (q : Rq) (i : BitVec 16) (j : BitVec 8) (d : List Byte) (s : State), s.die.running = true ∧ (s.dieRole
    q.role = false ∨ isLegalParam i.toNat j.toNat = false) → ∃ t, exec (.sealParameterWrite q i j d) s = .next
    t ∧ t = writeReply q.tag i.toNat j.toNat d.length (if s.dieRole q.role = false then .denied else .absent,
    s)) ∧
  (∀ (q : Rq) (w z : BitVec 144) (s : State), s.die.running = true ∧ s.dieRole q.role = true ∧ q.role =
    .verifier ∧ s.die.met.sealSel = some z ∧ s.staged.paramsOk = true → ∃ t, exec (.sealCloseCommit q w) s =
    .next t ∧ t.die.met.sealSel = none ∧ t.die.met.staged = [] ∧ t.die.met.calib = stick 0xFFFFFFFF
    s.die.met.calib 1 ∧ t.die.cur.reg = s.die.cur.reg) ∧
  (∀ (q : Rq) (w z : BitVec 144) (s : State), s.die.running = true ∧ s.dieRole q.role = true ∧ q.role =
    .verifier ∧ s.die.met.sealSel = some z ∧ s.staged.paramsOk = false → ∃ t, exec (.sealCloseCommit q w) s =
    .next t ∧ t = writeReply q.tag 0x53F0 3 1 (.range, s)) ∧
  (∀ (q : Rq) (w : BitVec 144) (s : State), s.die.running = true ∧ s.dieRole q.role = true ∧ q.role =
    .verifier ∧ s.die.met.sealSel = none → ∃ t, exec (.sealCloseCommit q w) s = .next t ∧ t = writeReply q.tag
    0x53F0 3 1 (.state, s)) ∧
  (∀ (q : Rq) (w : BitVec 144) (s : State), s.die.running = true ∧ (s.dieRole q.role = false ∨ q.role ≠
    .verifier) → ∃ t, exec (.sealCloseCommit q w) s = .next t ∧ t = writeReply q.tag 0x53F0 3 1 (.denied, s)) ∧
  (∀ (q : Rq) (z : BitVec 144) (s : State), s.die.running = true ∧ s.dieRole q.role = true ∧ q.role =
    .verifier ∧ s.die.met.sealSel = some z → ∃ t, exec (.sealCloseAbandon q) s = .next t ∧ t.die.met.sealSel =
    none ∧ t.die.met.staged = [] ∧ t.die.obj = s.die.obj) ∧
  (∀ (q : Rq) (s : State), s.die.running = true ∧ s.dieRole q.role = true ∧ q.role = .verifier ∧
    s.die.met.sealSel = none → ∃ t, exec (.sealCloseAbandon q) s = .next t ∧ t = writeReply q.tag 0x53F0 3 1
    (.state, s)) ∧
  (∀ (q : Rq) (s : State), s.die.running = true ∧ (s.dieRole q.role = false ∨ q.role ≠ .verifier) → ∃ t, exec
    (.sealCloseAbandon q) s = .next t ∧ t = writeReply q.tag 0x53F0 3 1 (.denied, s)) ∧
  (∀ (z : BitVec 144) (s : State), s.die.running = true ∧ s.die.met.sealSel = some z → ∃ t, exec .sealTimeout
    s = .next t ∧ t.die.met.sealSel = none ∧ t.die.met.staged = [] ∧ t.die.obj = s.die.obj) ∧
  (∀ (s : State), s.die.met.sealSel = none → ∃ t, exec .sealTimeout s = .next t ∧ t = s) ∧
  (∀ (e : Fin 128) (r : CycleRaw) (s : State), s.die.running = false → ∃ t, exec (.elementCycleEnd e r) s =
    .next t ∧ t = s) ∧
  (∀ (e : Fin 128) (r : CycleRaw) (s : State), s.die.running = false → ∃ t, exec (.blockModeEntry e r) s =
    .next t ∧ t = s) ∧
  (∀ (e : Fin 128) (r : CycleRaw) (l : List CycleRaw) (s : State), s.die.running = false → ∃ t, exec
    (.blockModeReturn ⟨e, r, l⟩) s = .next t ∧ t = s) ∧
  (∀ (e : Fin 128) (r : CycleRaw) (s : State), s.die.running = false → ∃ t, exec (.sliceEnd e r) s = .next t ∧
    t = s) ∧
  (∀ (e : Fin 128) (r : CycleRaw) (s : State), s.die.running = false → ∃ t, exec (.residueUpdate e r) s =
    .next t ∧ t = s) ∧
  (∀ (s : State), s.die.running = false → ∃ t, exec .periodicCommit s = .next t ∧ t = s) ∧
  (∀ (q : Rq) (z : BitVec 144) (s : State), s.die.running = false → ∃ t, exec (.sealOpen q z) s = .next t ∧ t
    = s) ∧
  (∀ (q : Rq) (i : BitVec 16) (j : BitVec 8) (d : List Byte) (s : State), s.die.running = false → ∃ t, exec
    (.sealParameterWrite q i j d) s = .next t ∧ t = s) ∧
  (∀ (q : Rq) (w : BitVec 144) (s : State), s.die.running = false → ∃ t, exec (.sealCloseCommit q w) s = .next
    t ∧ t = s) ∧
  (∀ (q : Rq) (s : State), s.die.running = false → ∃ t, exec (.sealCloseAbandon q) s = .next t ∧ t = s) ∧
  (∀ (s : State), s.die.running = false → ∃ t, exec .sealTimeout s = .next t ∧ t = s)

/-- While the sealed die runs. An open without a cause to refuse it and with serials left appends the new record
with the next serial and counts it; one with a cause is answered with the cause and opens nothing; without
serials it is LIMIT. A close of an open record makes it CLOSING with the reason and the times of the close; of
a record no longer open it answers that record; of none it is STALE. A query is answered and changes no record.
A signature completes a CLOSING record and does nothing otherwise. A collection acknowledgement by a role that
may frees the signed records up to the serial, another is DENIED. Plug and authorisation notices are kept for
the display; the energy-flow and stop notices start and end the time basis where it counts, else are only
answered; a metering confirmation is counted with its digest; a notice about no unsigned record is STALE. A
firmware reading of an open record is the next one; another permitted reading gives the last; STALE without a
record, DENIED to others. A purse query is answered from the record of the point, STALE without one, DENIED to
other roles. While the die does not run none of these changes anything. It rests also on the model's choices of
assumption 67. -/
def Obligations.BillingRecordsAndNotices : Prop :=
  (∀ (g : Word) (p : Fin 64) (a : Word) (m : BitVec 8) (d : List Byte) (s : State), s.die.running = true ∧
    (settle s).refusals p = [] ∧ (settle s).die.legal.lastSerial < 2 ^ 64 - 1 → ∃ t, exec (.recordOpen g p a m
    d) s = .next t ∧ t.die.cur.recs = (settle s).die.cur.recs ++ [(settle s).newRec p a.toNat m.toNat d] ∧
    t.die.legal.lastSerial = (settle s).die.legal.lastSerial + 1 ∧ (t.die.cur.pts.get p).opened = ((settle
    s).die.cur.pts.get p).opened + 1) ∧
  (∀ (g : Word) (p : Fin 64) (a : Word) (m : BitVec 8) (d : List Byte) (k : Nat) (s : State), s.die.running =
    true ∧ ((settle s).refusals p).head? = some k → ∃ t, exec (.recordOpen g p a m d) s = .next t ∧ t =
    recReply g (causeStatus k) k none (settle s)) ∧
  (∀ (g : Word) (p : Fin 64) (a : Word) (n : BitVec 64) (c : BitVec 8) (r : Rec) (s : State), s.die.running =
    true ∧ (settle s).bill n.toNat = some r ∧ r.point = p.val ∧ r.handle = a.toNat ∧ r.st = .open → ∃ t, exec
    (.recordClose g p a n c) s = .next t ∧ ∃ r2, t.bill n.toNat = some r2 ∧ r2.st = .closing ∧ r2.reason =
    c.toNat ∧ r2.mtkClose = (settle s).die.legal.mtk ∧ r2.ltClose = (settle s).die.legal.lt ∧ r2.since = none ∧
    r2.impOpen = r.impOpen ∧ r2.tImp = r.tImp ∧ r2.tExp = r.tExp) ∧
  (∀ (g : Word) (p : Fin 64) (a : Word) (n : BitVec 64) (c : BitVec 8) (s : State), s.die.running = true ∧
    (settle s).named p a.toNat n.toNat = none → ∃ t, exec (.recordClose g p a n c) s = .next t ∧ t = recReply g
    .stale 0 none (settle s)) ∧
  (∀ (g : Word) (p : Fin 64) (a : Word) (n : BitVec 64) (s : State), s.die.running = true → ∃ t, exec
    (.recordQuery g p a n) s = .next t ∧ t = recReply g (s.recQuery p a.toNat n.toNat).1 0 (s.recQuery p
    a.toNat n.toNat).2 s) ∧
  (∀ (n : BitVec 64) (r : Rec) (s : State), s.die.running = true ∧ s.bill n.toNat = some r ∧ r.st = .closing →
    ∃ t, exec (.recordSigned n) s = .next t ∧ t.bill n.toNat = some
    { r with st := .signed, bytes := s.recBody r ++ signature s.die.legal.recordKey (Config.sha384 (s.recBody r)) }) ∧
  (∀ (q : Rq) (n : BitVec 64) (s : State), s.die.running = true ∧ s.mayWrite q.role rO = true → ∃ t, exec
    (.recordCollectionAck q n) s = .next t ∧ t.die.legal.collected = max s.die.legal.collected n.toNat ∧
    t.die.cur.recs = s.die.cur.recs.filter (fun r => !(r.st = .signed && decide (r.serial ≤ max
    s.die.legal.collected n.toNat)))) ∧
  (∀ (g : Word) (p : Fin 64) (a : Word) (s : State), s.die.running = true → ∃ t, exec (.sessionNoticePlug g p
    a) s = .next t ∧ t.die.noticed = s.die.noticed.set p 1) ∧
  (∀ (g : Word) (p : Fin 64) (a : Word) (n : BitVec 64) (r : Rec) (s : State), s.die.running = true ∧ s.bill
    n.toNat = some r ∧ r.st ≠ .signed → ∃ t, exec (.sessionNoticeAuthorise g p a n) s = .next t ∧ t.die.noticed
    = s.die.noticed.set p 2) ∧
  (∀ (g : Word) (p : Fin 64) (a : Word) (n : BitVec 64) (r : Rec) (s : State), s.die.running = true ∧ s.bill
    n.toNat = some r ∧ r.st = .open ∧ s.basis1 = true ∧ r.since = none → ∃ t, exec (.sessionNoticeEnergyFlow g
    p a n) s = .next t ∧ t.bill n.toNat = some { r with since := some s.die.legal.mtk }) ∧
  (∀ (g : Word) (p : Fin 64) (a : Word) (n : BitVec 64) (c : BitVec 8) (r : Rec) (s : State), s.die.running =
    true ∧ s.bill n.toNat = some r ∧ r.st ≠ .signed ∧ s.basis1 = true → ∃ t, exec (.sessionNoticeStop g p a n
    c) s = .next t ∧ t.bill n.toNat = some { r.time s.die.cur.tariff s.die.legal.mtk with since := none }) ∧
  (∀ (g : Word) (p : Fin 64) (a : Word) (n : BitVec 64) (i : BitVec 16) (d : List Byte) (r : Rec) (s : State),
    s.die.running = true ∧ s.bill n.toNat = some r ∧ r.st ≠ .signed → ∃ t, exec
    (.sessionNoticeMeteringConfirmation g p a n i d) s = .next t ∧ t.bill n.toNat = some
    { r with confirms := stick 65535 r.confirms 1, digest := Config.sha384 (toLE 2 i.toNat ++ [BitVec.ofNat 8 d.length] ++ d) }) ∧
  (∀ (q : Rq) (k : Fin 256) (n : BitVec 64) (r : Rec) (s : State), s.die.running = true ∧ s.bill n.toNat =
    some r ∧ q.role = .firmware ∧ r.st = .open → ∃ t, exec (.signedReading q k n) s = .next t ∧ t.bill n.toNat
    = some { r with reading := wrap16From1 r.reading, lastReading := s.newReading r }) ∧
  (∀ (q : Rq) (k : Fin 256) (n : BitVec 64) (s : State), s.die.running = true ∧ s.bill n.toNat = none → ∃ t,
    exec (.signedReading q k n) s = .next t ∧ t = objReply q.tag 1 .stale (0x4006 + 8 * k) 1 0 0 n.toNat [] s) ∧
  (∀ (q : Rq) (p : Fin 64) (n : BitVec 64) (r : Rec) (s : State), s.die.running = true ∧ s.bill n.toNat = some
    r ∧ r.point = p.val ∧ (q.role = .firmware ∨ q.role = .customer ∨ q.role = .operator) ∧ s.dieRole q.role =
    true → ∃ t, exec (.purseQuery q p n) s = .next t ∧ t = dieReply q.tag 7 ([BitVec.ofNat 8 (roleCode q.role),
    1, BitVec.ofNat 8 (statusCode .ok)] ++ ([BitVec.ofNat 8 r.purse.unit] ++ toLE 4 r.purse.credited ++ toLE 4
    (s.purseLeft r) ++ (match r.purse.refund with | some x => x.2 | none => List.replicate 20 0))) s) ∧
  (∀ (g : Word) (p : Fin 64) (a : Word) (m : BitVec 8) (d : List Byte) (s : State), s.die.running = true ∧
    (settle s).refusals p = [] ∧ 2 ^ 64 - 1 ≤ (settle s).die.legal.lastSerial → ∃ t, exec (.recordOpen g p a m
    d) s = .next t ∧ t = recReply g .limit ((settle s).freeBits 8).toNat none (settle s).used) ∧
  (∀ (g : Word) (p : Fin 64) (a : Word) (n : BitVec 64) (c : BitVec 8) (r : Rec) (s : State), s.die.running =
    true ∧ (settle s).bill n.toNat = some r ∧ r.point = p.val ∧ r.handle = a.toNat ∧ r.st ≠ .open → ∃ t, exec
    (.recordClose g p a n c) s = .next t ∧ t = recReply g .ok 0 (some r) (settle s)) ∧
  (∀ (n : BitVec 64) (s : State), (∀ r, s.bill n.toNat = some r → r.st ≠ .closing) → ∃ t, exec (.recordSigned
    n) s = .next t ∧ t = s) ∧
  (∀ (q : Rq) (n : BitVec 64) (s : State), s.die.running = true ∧ s.mayWrite q.role rO = false → ∃ t, exec
    (.recordCollectionAck q n) s = .next t ∧ t = writeReply q.tag 0x5480 4 8 (.denied, s)) ∧
  (∀ (g : Word) (p : Fin 64) (a : Word) (n : BitVec 64) (r : Rec) (s : State), s.die.running = true ∧ s.bill
    n.toNat = some r ∧ r.st ≠ .signed ∧ (r.st ≠ .open ∨ s.basis1 = false ∨ r.since ≠ none) → ∃ t, exec
    (.sessionNoticeEnergyFlow g p a n) s = .next t ∧ t = noticeReply g .ok s) ∧
  (∀ (g : Word) (p : Fin 64) (a : Word) (n : BitVec 64) (c : BitVec 8) (r : Rec) (s : State), s.die.running =
    true ∧ s.bill n.toNat = some r ∧ r.st ≠ .signed ∧ s.basis1 = false → ∃ t, exec (.sessionNoticeStop g p a n
    c) s = .next t ∧ t = noticeReply g .ok s) ∧
  (∀ (q : Rq) (k : Fin 256) (n : BitVec 64) (r : Rec) (s : State), s.die.running = true ∧ s.bill n.toNat =
    some r ∧ s.dieRole q.role = true ∧ (q.role = .firmware ∨ granted rCOV q.role = true) ∧ ¬ (q.role =
    .firmware ∧ r.st = .open) → ∃ t, exec (.signedReading q k n) s = .next t ∧ t = objReply q.tag 1 .ok (0x4006
    + 8 * k) 1 0 r.lastReading.length n.toNat r.lastReading s) ∧
  (∀ (q : Rq) (k : Fin 256) (n : BitVec 64) (r : Rec) (s : State), s.die.running = true ∧ s.bill n.toNat =
    some r ∧ (s.dieRole q.role = false ∨ (q.role ≠ .firmware ∧ granted rCOV q.role = false)) → ∃ t, exec
    (.signedReading q k n) s = .next t ∧ t = objReply q.tag 1 .denied (0x4006 + 8 * k) 1 0 0 n.toNat [] s) ∧
  (∀ (q : Rq) (p : Fin 64) (n : BitVec 64) (s : State), s.die.running = true ∧ (s.bill n.toNat).filter (fun r
    => r.point = p.val) = none ∧ (q.role = .firmware ∨ q.role = .customer ∨ q.role = .operator) ∧ s.dieRole
    q.role = true → ∃ t, exec (.purseQuery q p n) s = .next t ∧ t = dieReply q.tag 7 ([BitVec.ofNat 8 (roleCode
    q.role), 1, BitVec.ofNat 8 (statusCode .stale)] ++ List.replicate 29 0) s) ∧
  (∀ (q : Rq) (p : Fin 64) (n : BitVec 64) (s : State), s.die.running = true ∧ (s.dieRole q.role = false ∨
    (q.role ≠ .firmware ∧ q.role ≠ .customer ∧ q.role ≠ .operator)) → ∃ t, exec (.purseQuery q p n) s = .next t
    ∧ t = dieReply q.tag 7 ([BitVec.ofNat 8 (roleCode q.role), 1, BitVec.ofNat 8 (statusCode .denied)] ++
    List.replicate 29 0) s) ∧
  (∀ (g : Word) (p : Fin 64) (a : Word) (n : BitVec 64) (s : State), s.die.running = true ∧ (s.bill
    n.toNat).filter (fun r => r.st ≠ .signed) = none → ∃ t, exec (.sessionNoticeAuthorise g p a n) s = .next t
    ∧ t = noticeReply g .stale s) ∧
  (∀ (g : Word) (p : Fin 64) (a : Word) (n : BitVec 64) (s : State), s.die.running = true ∧ (s.bill
    n.toNat).filter (fun r => r.st ≠ .signed) = none → ∃ t, exec (.sessionNoticeEnergyFlow g p a n) s = .next t
    ∧ t = noticeReply g .stale s) ∧
  (∀ (g : Word) (p : Fin 64) (a : Word) (n : BitVec 64) (c : BitVec 8) (s : State), s.die.running = true ∧
    (s.bill n.toNat).filter (fun r => r.st ≠ .signed) = none → ∃ t, exec (.sessionNoticeStop g p a n c) s =
    .next t ∧ t = noticeReply g .stale s) ∧
  (∀ (g : Word) (p : Fin 64) (a : Word) (n : BitVec 64) (i : BitVec 16) (d : List Byte) (s : State),
    s.die.running = true ∧ (s.bill n.toNat).filter (fun r => r.st ≠ .signed) = none → ∃ t, exec
    (.sessionNoticeMeteringConfirmation g p a n i d) s = .next t ∧ t = noticeReply g .stale s) ∧
  (∀ (g : Word) (p : Fin 64) (a : Word) (n : BitVec 64) (s : State), s.die.running = false → ∃ t, exec
    (.sessionNoticeAuthorise g p a n) s = .next t ∧ t = s) ∧
  (∀ (g : Word) (p : Fin 64) (a : Word) (n : BitVec 64) (s : State), s.die.running = false → ∃ t, exec
    (.sessionNoticeEnergyFlow g p a n) s = .next t ∧ t = s) ∧
  (∀ (g : Word) (p : Fin 64) (a : Word) (n : BitVec 64) (c : BitVec 8) (s : State), s.die.running = false → ∃
    t, exec (.sessionNoticeStop g p a n c) s = .next t ∧ t = s) ∧
  (∀ (g : Word) (p : Fin 64) (a : Word) (n : BitVec 64) (i : BitVec 16) (d : List Byte) (s : State),
    s.die.running = false → ∃ t, exec (.sessionNoticeMeteringConfirmation g p a n i d) s = .next t ∧ t = s) ∧
  (∀ (g : Word) (p : Fin 64) (a : Word) (m : BitVec 8) (d : List Byte) (s : State), s.die.running = false → ∃
    t, exec (.recordOpen g p a m d) s = .next t ∧ t = s) ∧
  (∀ (g : Word) (p : Fin 64) (a : Word) (n : BitVec 64) (c : BitVec 8) (s : State), s.die.running = false → ∃
    t, exec (.recordClose g p a n c) s = .next t ∧ t = s) ∧
  (∀ (g : Word) (p : Fin 64) (a : Word) (n : BitVec 64) (s : State), s.die.running = false → ∃ t, exec
    (.recordQuery g p a n) s = .next t ∧ t = s) ∧
  (∀ (n : BitVec 64) (s : State), s.die.running = false → ∃ t, exec (.recordSigned n) s = .next t ∧ t = s) ∧
  (∀ (q : Rq) (n : BitVec 64) (s : State), s.die.running = false → ∃ t, exec (.recordCollectionAck q n) s =
    .next t ∧ t = s) ∧
  (∀ (g : Word) (p : Fin 64) (a : Word) (s : State), s.die.running = false → ∃ t, exec (.sessionNoticePlug g p
    a) s = .next t ∧ t = s) ∧
  (∀ (q : Rq) (k : Fin 256) (n : BitVec 64) (s : State), s.die.running = false → ∃ t, exec (.signedReading q k
    n) s = .next t ∧ t = s) ∧
  (∀ (q : Rq) (p : Fin 64) (n : BitVec 64) (s : State), s.die.running = false → ∃ t, exec (.purseQuery q p n)
    s = .next t ∧ t = s)

/-- While the sealed die runs. A setting of LT by the Operator or the Verifier takes the target and ends the
unsynchronised state, for the Operator in step within the 60 s of a day; to the present LT it changes nothing,
with the log nearly full it is LIMIT, beyond the bound or from another role DENIED. An offset in the range is
the offset from then on; other values are RANGE. A due offset change is made. A calendar part is staged; a
calendar written whole becomes passive if correct, else it is marked wrong and RANGE; more than 3712 bytes are
RANGE. Its activation at a past time is immediate, at a later one scheduled, LIMIT with the log nearly full,
STATE with no calendar; a scheduled one that is due is made. At a tariff switch the tariff is the calendar's;
at the end of a demand interval the next begins. A maximum-demand reset and a token-key change by the Operator
have their effect or are LIMIT; a key of another length is RANGE; the Verifier archives the log. Other roles
are DENIED. A pending credit past its time is refunded, a lockout past its time ends, the ledger forgets what
is too old. While the die does not run none of these changes anything. A start after a reset resumes from the
newest commit, with its MTK and LT where they were not counted through; without a reset it does nothing. It
rests also on the model's choices of assumption 67. -/
def Obligations.LegalTimeCalendarAndTokens : Prop :=
  (∀ (q : Rq) (v : Nat) (s : State), s.die.running = true ∧ s.dieRole q.role = true ∧ (q.role = .operator ∨
    q.role = .verifier) ∧ (v : Int) ≠ s.die.legal.lt ∧ (q.role = .verifier ∨ s.die.legal.ltStat.getLsbD 0 =
    true ∨ s.stepSum + ((v : Int) - s.die.legal.lt).natAbs ≤ 60000) ∧ s.logLow = false → ∃ t, exec (.ltSet q v)
    s = .next t ∧ t.die.legal.lt = v ∧ t.die.legal.ltStat.getLsbD 0 = false) ∧
  (∀ (q : Rq) (v : Nat) (s : State), s.die.running = true ∧ s.dieRole q.role = true ∧ (q.role = .operator ∨
    q.role = .verifier) ∧ (v : Int) = s.die.legal.lt → ∃ t, exec (.ltSet q v) s = .next t ∧ t = writeReply
    q.tag 0x5500 3 8 (.ok, s)) ∧
  (∀ (q : Rq) (v : Nat) (s : State), s.die.running = true ∧ (s.dieRole q.role = false ∨ ¬ (q.role = .operator
    ∨ q.role = .verifier) ∨ ((v : Int) ≠ s.die.legal.lt ∧ q.role ≠ .verifier ∧ s.die.legal.ltStat.getLsbD 0 =
    false ∧ 60000 < s.stepSum + ((v : Int) - s.die.legal.lt).natAbs)) → ∃ t, exec (.ltSet q v) s = .next t ∧ t
    = writeReply q.tag 0x5500 3 8 (.denied, s)) ∧
  (∀ (q : Rq) (v : Nat) (s : State), s.die.running = true ∧ s.dieRole q.role = true ∧ (q.role = .operator ∨
    q.role = .verifier) ∧ (v : Int) ≠ s.die.legal.lt ∧ (q.role = .verifier ∨ s.die.legal.ltStat.getLsbD 0 =
    true ∨ s.stepSum + ((v : Int) - s.die.legal.lt).natAbs ≤ 60000) ∧ s.logLow = true → ∃ t, exec (.ltSet q v)
    s = .next t ∧ t = writeReply q.tag 0x5500 3 8 (.limit, s)) ∧
  (∀ (q : Rq) (m : Int) (s : State), s.die.running = true ∧ s.mayWrite q.role rO = true ∧ -720 ≤ m ∧ m ≤ 840 ∧
    m % 15 = 0 → ∃ t, exec (.offsetSet q m) s = .next t ∧ t.die.legal.offset = m) ∧
  (∀ (q : Rq) (m : Int) (s : State), s.die.running = true ∧ s.mayWrite q.role rO = true ∧ ¬ (-720 ≤ m ∧ m ≤
    840 ∧ m % 15 = 0) → ∃ t, exec (.offsetSet q m) s = .next t ∧ t = writeReply q.tag 0x5500 4 2 (.range, s)) ∧
  (∀ (q : Rq) (m : Int) (s : State), s.die.running = true ∧ s.mayWrite q.role rO = false → ∃ t, exec
    (.offsetSet q m) s = .next t ∧ t = writeReply q.tag 0x5500 4 2 (.denied, s)) ∧
  (∀ (c : Nat × Int) (s : State), s.die.running = true ∧ (settle s).dueChange = some c → ∃ t, exec
    .offsetChangeScheduled s = .next t ∧ t.die.legal.offset = c.2 ∧ t.die.legal.chgDone = c.1) ∧
  (∀ (s : State), s.die.running = true ∧ (settle s).dueChange = none → ∃ t, exec .offsetChangeScheduled s =
    .next t ∧ t = settle s) ∧
  (∀ (q : Rq) (o n : Nat) (d v : List Byte) (u : State) (s : State), s.die.running = true ∧ s.mayWrite q.role
    rO = true ∧ n ≤ 3712 ∧ stagePart 0x5600 1 o n d s = (.ok, some v, u) → ∃ t, exec (.calendarWrite q o n d) s
    = .next t ∧ (if calendarOk v then t.die.legal.passive = v ∧ t.die.legal.passiveSt = 1 else
    t.die.legal.passive = s.die.legal.passive ∧ t.die.legal.passiveSt = 3) ∧ t.die.legal.active =
    s.die.legal.active) ∧
  (∀ (q : Rq) (o n : Nat) (d : List Byte) (x : Status) (u : State) (s : State), s.die.running = true ∧
    s.mayWrite q.role rO = true ∧ n ≤ 3712 ∧ stagePart 0x5600 1 o n d s = (x, none, u) → ∃ t, exec
    (.calendarWrite q o n d) s = .next t ∧ t = objReply q.tag 2 x 0x5600 1 o d.length n [] u) ∧
  (∀ (q : Rq) (o n : Nat) (d : List Byte) (s : State), s.die.running = true ∧ s.mayWrite q.role rO = true ∧
    3712 < n → ∃ t, exec (.calendarWrite q o n d) s = .next t ∧ t = objReply q.tag 2 .range 0x5600 1 o d.length
    n [] s) ∧
  (∀ (q : Rq) (o n : Nat) (d : List Byte) (s : State), s.die.running = true ∧ s.mayWrite q.role rO = false → ∃
    t, exec (.calendarWrite q o n d) s = .next t ∧ t = objReply q.tag 2 .denied 0x5600 1 o d.length n [] s) ∧
  (∀ (q : Rq) (v : Nat) (s : State), s.die.running = true ∧ s.mayWrite q.role rO = true ∧
    (s.die.legal.passiveSt = 1 ∨ s.die.legal.passiveSt = 2) ∧ s.logLow = false ∧ s.die.legal.lt < v * 1000 → ∃
    t, exec (.calendarActivateSet q v) s = .next t ∧ t.die.legal.passiveSt = 2 ∧ t.die.legal.actAt = v ∧
    t.die.legal.active = s.die.legal.active) ∧
  (∀ (q : Rq) (v : Nat) (s : State), s.die.running = true ∧ s.mayWrite q.role rO = true ∧
    (s.die.legal.passiveSt = 1 ∨ s.die.legal.passiveSt = 2) ∧ s.logLow = false ∧ v * 1000 ≤ s.die.legal.lt → ∃
    t, exec (.calendarActivateSet q v) s = .next t ∧ t.die.legal.active = s.die.legal.passive ∧
    t.die.legal.passiveSt = 0 ∧ t.die.legal.passive = []) ∧
  (∀ (q : Rq) (v : Nat) (s : State), s.die.running = true ∧ s.mayWrite q.role rO = true ∧
    (s.die.legal.passiveSt = 1 ∨ s.die.legal.passiveSt = 2) ∧ s.logLow = true → ∃ t, exec (.calendarActivateSet
    q v) s = .next t ∧ t = writeReply q.tag 0x5600 2 8 (.limit, s)) ∧
  (∀ (q : Rq) (v : Nat) (s : State), s.die.running = true ∧ s.mayWrite q.role rO = true ∧ ¬
    (s.die.legal.passiveSt = 1 ∨ s.die.legal.passiveSt = 2) → ∃ t, exec (.calendarActivateSet q v) s = .next t
    ∧ t = writeReply q.tag 0x5600 2 8 (.state, s)) ∧
  (∀ (q : Rq) (v : Nat) (s : State), s.die.running = true ∧ s.mayWrite q.role rO = false → ∃ t, exec
    (.calendarActivateSet q v) s = .next t ∧ t = writeReply q.tag 0x5600 2 8 (.denied, s)) ∧
  (∀ (s : State), s.die.running = true ∧ s.die.legal.passiveSt = 2 ∧ s.die.legal.actAt * 1000 ≤ s.die.legal.lt
    ∧ s.logLow = false → ∃ t, exec .calendarActivation s = .next t ∧ t.die.legal.active = s.die.legal.passive ∧
    t.die.legal.passiveSt = 0 ∧ t.die.legal.passive = []) ∧
  (∀ (s : State), s.die.running = true ∧ (s.die.legal.passiveSt ≠ 2 ∨ s.die.legal.lt < s.die.legal.actAt *
    1000 ∨ s.logLow = true) → ∃ t, exec .calendarActivation s = .next t ∧ t = settle s) ∧
  (∀ (s : State), s.die.running = true → ∃ t, exec .tariffSwitch s = .next t ∧ t.die.cur.tariff = calTariff
    s.die.legal.active s.die.legal.lt s.die.legal.offset ∧ t.die.legal = s.die.legal) ∧
  (∀ (s : State), s.die.running = true ∧ s.die.cur.intEnd ≤ s.die.legal.lt → ∃ t, exec .demandIntervalEnd s =
    .next t ∧ t.die.cur.intStart = s.die.legal.mtk ∧ t.die.cur.intLen = (if s.die.legal.lt % 3600000 = 0 then
    s.snum 0x5480 1 else s.die.cur.intLen) ∧ t.die.cur.intEnd = intervalEnd s.die.legal.lt t.die.cur.intLen ∧
    t.die.legal = s.die.legal) ∧
  (∀ (s : State), s.die.running = true ∧ s.die.legal.lt < s.die.cur.intEnd → ∃ t, exec .demandIntervalEnd s =
    .next t ∧ t = switchTariff s) ∧
  (∀ (q : Rq) (p : Fin 64) (s : State), s.die.running = true ∧ (s.mayWrite q.role rO = false ∨ s.logLow =
    true) → ∃ t, exec (.maxDemandReset q p) s = .next t ∧ t = writeReply q.tag (0x5400 + p) 0x29 1 (if
    s.mayWrite q.role rO then .limit else .denied, s)) ∧
  (∀ (q : Rq) (d : List Byte) (s : State), s.die.running = true ∧ (s.mayWrite q.role rO = false ∨ d.length ≠
    32 ∨ s.logLow = true ∨ 255 ≤ s.die.legal.tkGen) → ∃ t, exec (.tokenKeyChange q d) s = .next t ∧ t =
    writeReply q.tag 0x5800 1 32 (if s.mayWrite q.role rO = false then .denied else if d.length ≠ 32 then
    .range else .limit, s)) ∧
  (∀ (b : Bool) (s : State), s.die.inReset = true → ∃ t, exec (.sealedDieStart b) s = .next t ∧ t.die.running
    = true ∧ t.die.inReset = false ∧ t.die.pfSaved = false ∧ t.die.saved = t.die.cur ∧ t.die.legal.mtk = (if b
    && !s.die.legal.stopped then s.die.legal.mtk else s.die.saved.mtk) ∧ t.die.legal.lt = (if b &&
    !s.die.legal.stopped then s.die.legal.lt else s.die.saved.lt)) ∧
  (∀ (b : Bool) (s : State), s.die.inReset = false → ∃ t, exec (.sealedDieStart b) s = .next t ∧ t = s) ∧
  (∀ (q : Rq) (p : Fin 64) (s : State), s.die.running = true ∧ s.mayWrite q.role rO = true ∧ s.logLow = false
    → ∃ t, exec (.maxDemandReset q p) s = .next t ∧ (t.die.cur.pts.get p).maxW = 0 ∧ (t.die.cur.pts.get
    p).maxMtk = 0 ∧ ∀ j, j ≠ p.val → t.die.cur.pts.get j = s.die.cur.pts.get j) ∧
  (∀ (q : Rq) (d : List Byte) (s : State), s.die.running = true ∧ s.mayWrite q.role rO = true ∧ d.length = 32
    ∧ s.logLow = false ∧ s.die.legal.tkGen < 255 → ∃ t, exec (.tokenKeyChange q d) s = .next t ∧ t.die.legal.tk
    = some d ∧ t.die.legal.tkGen = s.die.legal.tkGen + 1 ∧ t.die.legal.ledger = s.die.legal.ledger) ∧
  (∀ (q : Rq) (n : Nat) (s : State), s.die.running = true ∧ s.mayWrite q.role rV = true → ∃ t, exec
    (.legalLogArchive q n) s = .next t ∧ t.die.legal.log = s.die.legal.log.filter (fun e => decide (n < e.idx))) ∧
  (∀ (q : Rq) (n : Nat) (s : State), s.die.running = true ∧ s.mayWrite q.role rV = false → ∃ t, exec
    (.legalLogArchive q n) s = .next t ∧ t = writeReply q.tag 0x5700 6 4 (.denied, s)) ∧
  (∀ (p : Fin 64) (x : Nat × Nat × Nat × Nat) (s : State), s.die.running = true ∧ (s.die.cur.pts.get
    p).pending = some x ∧ x.2.2.2 + 1000 * s.snum 0x5800 6 < s.die.legal.mtk → ∃ t, exec (.pendingCreditExpiry
    p) s = .next t ∧ (t.die.cur.pts.get p).pending = none ∧ (t.die.saved.pts.get p).pending = none) ∧
  (∀ (p : Fin 64) (s : State), s.die.running = true ∧ (s.die.cur.pts.get p).pending = none → ∃ t, exec
    (.pendingCreditExpiry p) s = .next t ∧ t = s) ∧
  (∀ (p : Fin 64) (x : Nat × Nat × Nat × Nat) (s : State), s.die.running = true ∧ (s.die.cur.pts.get
    p).pending = some x ∧ s.die.legal.mtk ≤ x.2.2.2 + 1000 * s.snum 0x5800 6 → ∃ t, exec (.pendingCreditExpiry
    p) s = .next t ∧ t = s) ∧
  (∀ (k : Nat) (s : State), s.die.running = true ∧ s.die.legal.lockEnd = some k ∧ k ≤ s.die.legal.mtk → ∃ t,
    exec .tokenLockoutEnd s = .next t ∧ t = { s with die.legal.lockEnd := none }) ∧
  (∀ (s : State), (∀ k, s.die.legal.lockEnd = some k → s.die.legal.mtk < k) → ∃ t, exec .tokenLockoutEnd s =
    .next t ∧ t = s) ∧
  (∀ (s : State), s.die.running = true → ∃ t, exec .ledgerAgeOut s = .next t ∧ t.die.legal.ledger =
    s.die.legal.ledger.filter (fun t => decide (s.tidFloor ≤ t))) ∧
  (∀ (q : Rq) (v : Nat) (s : State), s.die.running = false → ∃ t, exec (.ltSet q v) s = .next t ∧ t = s) ∧
  (∀ (q : Rq) (m : Int) (s : State), s.die.running = false → ∃ t, exec (.offsetSet q m) s = .next t ∧ t = s) ∧
  (∀ (s : State), s.die.running = false → ∃ t, exec .offsetChangeScheduled s = .next t ∧ t = s) ∧
  (∀ (q : Rq) (o n : Nat) (d : List Byte) (s : State), s.die.running = false → ∃ t, exec (.calendarWrite q o n
    d) s = .next t ∧ t = s) ∧
  (∀ (q : Rq) (v : Nat) (s : State), s.die.running = false → ∃ t, exec (.calendarActivateSet q v) s = .next t
    ∧ t = s) ∧
  (∀ (s : State), s.die.running = false → ∃ t, exec .calendarActivation s = .next t ∧ t = s) ∧
  (∀ (s : State), s.die.running = false → ∃ t, exec .tariffSwitch s = .next t ∧ t = s) ∧
  (∀ (s : State), s.die.running = false → ∃ t, exec .demandIntervalEnd s = .next t ∧ t = s) ∧
  (∀ (q : Rq) (p : Fin 64) (s : State), s.die.running = false → ∃ t, exec (.maxDemandReset q p) s = .next t ∧
    t = s) ∧
  (∀ (q : Rq) (d : List Byte) (s : State), s.die.running = false → ∃ t, exec (.tokenKeyChange q d) s = .next t
    ∧ t = s) ∧
  (∀ (q : Rq) (n : Nat) (s : State), s.die.running = false → ∃ t, exec (.legalLogArchive q n) s = .next t ∧ t
    = s) ∧
  (∀ (p : Fin 64) (s : State), s.die.running = false → ∃ t, exec (.pendingCreditExpiry p) s = .next t ∧ t = s) ∧
  (∀ (s : State), s.die.running = false → ∃ t, exec .tokenLockoutEnd s = .next t ∧ t = s) ∧
  (∀ (s : State), s.die.running = false → ∃ t, exec .ledgerAgeOut s = .next t ∧ t = s)

/-- While the sealed die runs. Outside a power-fail warning, enabling a panel that is OFF, or FAILED and written 0
since, starts it; with the link agreed a good crack loop drives its rails where the lane, the clock and the
safe state allow it and requests the clearing pair, a bad one fails it; with the link down the start waits. The
same holds of a start that waited. Any other enable is only recorded. A retry asks the Girth again exactly
while a request is due and the link agreed. A start not done in time fails the panel. Disabling a panel that is
ON or starting draws two clearing frames and ends OFF, or waits for the link while that is down; any other
panel may be enabled again. A frame start counts frames, loop mismatches and bad lines; the third faulty frame
in a row fails the panel; a panel waiting to stop draws a clearing frame under its ledger; another panel does
nothing. A blink half-period that is due turns the entry's phase. On a panel that is ON the legal region is
redrawn from what the die holds and its border advances. A geometry by the Operator is stored at once on a
panel that is not ON, waits for a clearing pair on one that is, is STATE while a record of its points is open,
RANGE if wrong, DENIED to others. OUT_PSQ takes port 21 only, fails with the lane, and the latches stay
released in the safe state. While the die does not run the panel commands change nothing. It rests also on the
model's choices of assumptions 34 and 68. -/
def Obligations.PanelSequencesAndFrames : Prop :=
  (∀ (m : Fin 2) (s : State), s.die.running = true ∧ s.power.pfin = false ∧ ((s.panel m).st = .off ∨ ((s.panel
    m).st = .failed ∧ (s.panel m).rearm = true)) ∧ s.linkUp = true → ∃ t, exec (.panelEnable m true) s = .next
    t ∧ (t.panel m).st = .starting ∧ (t.panel m).wait = .clear ∧ (s.app.lane.fault = false → s.power.clkOk =
    true → s.power.safe = false → t.power.psq = s.power.psq ||| (7 : BitVec 8) <<< (4 * m.val))) ∧
  (∀ (m : Fin 2) (s : State), s.die.running = true ∧ s.power.pfin = false ∧ ((s.panel m).st = .off ∨ ((s.panel
    m).st = .failed ∧ (s.panel m).rearm = true)) ∧ s.linkUp = true → ∃ t, exec (.panelEnable m false) s = .next
    t ∧ (t.panel m).st = .failed) ∧
  (∀ (m : Fin 2) (b : Bool) (s : State), s.die.running = true ∧ s.power.pfin = false ∧ ((s.panel m).st = .off
    ∨ ((s.panel m).st = .failed ∧ (s.panel m).rearm = true)) ∧ s.linkUp = false → ∃ t, exec (.panelEnable m b)
    s = .next t ∧ (t.panel m).st = .starting ∧ (t.panel m).wait = .none) ∧
  (∀ (m : Fin 2) (b : Bool) (s : State), s.die.running = true ∧ (s.panel m).st = .starting ∧ (s.panel m).wait
    = .none ∧ s.linkUp = true → ∃ t, exec (.panelEnable m b) s = .next t ∧ (t.panel m).st = (if b then
    .starting else .failed) ∧ (b = true → (t.panel m).wait = .clear)) ∧
  (∀ (m : Fin 2) (b : Bool) (s : State), s.die.running = true ∧ (s.power.pfin = true ∨ ((s.panel m).st ≠ .off
    ∧ ¬ ((s.panel m).st = .failed ∧ (s.panel m).rearm = true))) ∧ ((s.panel m).st ≠ .starting ∨ (s.panel
    m).wait ≠ .none ∨ s.linkUp = false) → ∃ t, exec (.panelEnable m b) s = .next t ∧ t = s.setSobj (0x7800 + m)
    1 [1]) ∧
  (∀ (m : Fin 2) (s : State), s.die.running = true ∧ (s.panel m).wait = .clear ∧ (s.panel m).retry = true ∧
    s.linkUp = true → ∃ t, exec (.panelClearRequestRetry m) s = .next t ∧ (t.panel m).wait = .clear ∧ (t.panel
    m).retry = decide ((girthSubmit 21 none 6 m 0 s).1 = .busy)) ∧
  (∀ (m : Fin 2) (s : State), s.die.running = true ∧ ((s.panel m).wait ≠ .clear ∨ (s.panel m).retry = false ∨
    s.linkUp = false) → ∃ t, exec (.panelClearRequestRetry m) s = .next t ∧ t = s) ∧
  (∀ (m : Fin 2) (s : State), s.die.running = true ∧ (s.panel m).st = .starting → ∃ t, exec
    (.panelStartTimeout m) s = .next t ∧ (t.panel m).st = .failed) ∧
  (∀ (m : Fin 2) (s : State), s.die.running = true ∧ (s.panel m).st ≠ .starting → ∃ t, exec
    (.panelStartTimeout m) s = .next t ∧ t = s) ∧
  (∀ (m : Fin 2) (s : State), s.die.running = true ∧ ((s.panel m).st = .on ∨ (s.panel m).st = .starting) ∧
    s.linkUp = true → ∃ t, exec (.panelDisable m) s = .next t ∧ (t.panel m).st = .off ∧ (t.panel m).clears =
    (s.panel m).clears + 2) ∧
  (∀ (m : Fin 2) (s : State), s.die.running = true ∧ ((s.panel m).st = .on ∨ (s.panel m).st = .starting) ∧
    s.linkUp = false → ∃ t, exec (.panelDisable m) s = .next t ∧ (t.panel m).st = .stopping ∧ (t.panel m).wait
    = .stop) ∧
  (∀ (m : Fin 2) (s : State), s.die.running = true ∧ (s.panel m).st ≠ .on ∧ (s.panel m).st ≠ .starting → ∃ t,
    exec (.panelDisable m) s = .next t ∧ t = (s.setSobj (0x7800 + m) 1 [0]).updPanel m fun x =>
    { x with rearm := true }) ∧
  (∀ (m : Fin 2) (k : Nat) (l : List (Fin 480)) (s : State), s.die.running = true ∧ (s.panel m).st = .on ∧
    (s.panel m).wait ≠ .stop ∧ (¬ (2 < k ∨ 16 < l.length) ∨ (s.panel m).faulty < 2) → ∃ t, exec
    (.panelFrameStart m k l) s = .next t ∧ (t.panel m).frames = ((s.panel m).frames + 1) % 2 ^ 32 ∧ (t.panel
    m).faulty = (if (2 < k ∨ 16 < l.length) then (s.panel m).faulty + 1 else 0) ∧ (t.panel m).loopBad = stick
    0xFFFFFFFF (s.panel m).loopBad k ∧ (t.panel m).badLines = stick 0xFFFFFFFF (s.panel m).badLines l.length ∧
    (t.panel m).st = .on) ∧
  (∀ (m : Fin 2) (k : Nat) (l : List (Fin 480)) (s : State), s.die.running = true ∧ (s.panel m).st = .on ∧
    (s.panel m).wait ≠ .stop ∧ (2 < k ∨ 16 < l.length) ∧ 2 ≤ (s.panel m).faulty → ∃ t, exec (.panelFrameStart m
    k l) s = .next t ∧ (t.panel m).st = .failed) ∧
  (∀ (m : Fin 2) (k : Nat) (l : List (Fin 480)) (s : State), s.die.running = true ∧ (s.panel m).wait = .stop →
    ∃ t, exec (.panelFrameStart m k l) s = .next t ∧ t = clearUnderLedger m s) ∧
  (∀ (m : Fin 2) (k : Nat) (l : List (Fin 480)) (s : State), s.die.running = true ∧ (s.panel m).st ≠ .on ∧
    (s.panel m).wait ≠ .stop → ∃ t, exec (.panelFrameStart m k l) s = .next t ∧ t = s) ∧
  (∀ (m : Fin 2) (e : BitVec 8) (s : State), s.die.running = true ∧ ((s.panel m).blink.get e.toNat).due = true
    → ∃ t, exec (.blinkHalfPeriod m e) s = .next t ∧ (t.panel m).blink.get e.toNat =
    { ((s.panel m).blink.get e.toNat) with phase := !((s.panel m).blink.get e.toNat).phase, age := ((s.panel m).blink.get e.toNat).age - ((s.panel m).blink.get e.toNat).half }) ∧
  (∀ (m : Fin 2) (e : BitVec 8) (s : State), s.die.running = true ∧ ((s.panel m).blink.get e.toNat).due =
    false → ∃ t, exec (.blinkHalfPeriod m e) s = .next t ∧ t = s) ∧
  (∀ (m : Fin 2) (s : State), s.die.running = true ∧ (s.panel m).st = .on → ∃ t, exec (.legalRegionRedraw m) s
    = .next t ∧ (t.panel m).view = s.legalView m) ∧
  (∀ (m : Fin 2) (s : State), s.die.running = true ∧ (s.panel m).st ≠ .on → ∃ t, exec (.legalRegionRedraw m) s
    = .next t ∧ t = s) ∧
  (∀ (m : Fin 2) (s : State), s.die.running = true ∧ (s.panel m).st = .on → ∃ t, exec (.sealBorderAdvance m) s
    = .next t ∧ (t.panel m).border = ((s.panel m).border + 1) % 4) ∧
  (∀ (m : Fin 2) (s : State), s.die.running = true ∧ (s.panel m).st ≠ .on → ∃ t, exec (.sealBorderAdvance m) s
    = .next t ∧ t = s) ∧
  (∀ (q : Rq) (m : Fin 2) (x y w k : Nat) (s : State), s.die.running = true ∧ (s.panel m).st ≠ .on ∧
    s.mayWrite q.role rO = true ∧ s.geomOk m x y w k = true ∧ s.panelBusy m = false → ∃ t, exec
    (.legalRegionGeometryWrite q m x y w k) s = .next t ∧ t.sobj (0x7800 + m) 4 = toLE 2 x ∧ t.sobj (0x7800 +
    m) 5 = toLE 2 y ∧ t.sobj (0x7800 + m) 6 = toLE 2 w ∧ t.sobj (0x7800 + m) 7 = toLE 2 k) ∧
  (∀ (q : Rq) (m : Fin 2) (x y w k : Nat) (s : State), s.die.running = true ∧ (s.panel m).st = .on ∧
    s.mayWrite q.role rO = true ∧ s.geomOk m x y w k = true ∧ s.panelBusy m = false → ∃ t, exec
    (.legalRegionGeometryWrite q m x y w k) s = .next t ∧ (t.panel m).newGeom = some (x, y, w, k) ∧ (t.panel
    m).wait = .clear ∧ t.die.obj = s.die.obj) ∧
  (∀ (q : Rq) (m : Fin 2) (x y w k : Nat) (s : State), s.die.running = true ∧ s.mayWrite q.role rO = true ∧
    s.geomOk m x y w k = true ∧ s.panelBusy m = true → ∃ t, exec (.legalRegionGeometryWrite q m x y w k) s =
    .next t ∧ t = ovReply q.tag 6 m (.state, s)) ∧
  (∀ (q : Rq) (m : Fin 2) (x y w k : Nat) (s : State), s.die.running = true ∧ s.mayWrite q.role rO = true ∧
    s.geomOk m x y w k = false → ∃ t, exec (.legalRegionGeometryWrite q m x y w k) s = .next t ∧ t = ovReply
    q.tag 6 m (.range, s)) ∧
  (∀ (q : Rq) (m : Fin 2) (x y w k : Nat) (s : State), s.die.running = true ∧ s.mayWrite q.role rO = false → ∃
    t, exec (.legalRegionGeometryWrite q m x y w k) s = .next t ∧ t = ovReply q.tag 6 m (.denied, s)) ∧
  (∀ (p : Fin 24) (v : Word) (s : State), p.val ≠ 21 ∨ s.app.lane.fault = true → ∃ t, exec (.outPsqWrite p v)
    s = .next t ∧ t = busFail s) ∧
  (∀ (v : Word) (s : State), s.app.lane.fault = false ∧ s.power.clkOk = true → ∃ t, exec (.outPsqWrite 21 v) s
    = .next t ∧ t = busOk 0 { s with power.psq := if s.power.safe then 0 else v.setWidth 8 }) ∧
  (∀ (v : Word) (s : State), s.app.lane.fault = false ∧ s.power.clkOk = false → ∃ t, exec (.outPsqWrite 21 v)
    s = .next t ∧ t = busOk 0 s) ∧
  (∀ (m : Fin 2) (b : Bool) (s : State), s.die.running = false → ∃ t, exec (.panelEnable m b) s = .next t ∧ t
    = s) ∧
  (∀ (m : Fin 2) (s : State), s.die.running = false → ∃ t, exec (.panelClearRequestRetry m) s = .next t ∧ t =
    s) ∧
  (∀ (m : Fin 2) (s : State), s.die.running = false → ∃ t, exec (.panelStartTimeout m) s = .next t ∧ t = s) ∧
  (∀ (m : Fin 2) (s : State), s.die.running = false → ∃ t, exec (.panelDisable m) s = .next t ∧ t = s) ∧
  (∀ (m : Fin 2) (k : Nat) (l : List (Fin 480)) (s : State), s.die.running = false → ∃ t, exec
    (.panelFrameStart m k l) s = .next t ∧ t = s) ∧
  (∀ (m : Fin 2) (e : BitVec 8) (s : State), s.die.running = false → ∃ t, exec (.blinkHalfPeriod m e) s =
    .next t ∧ t = s) ∧
  (∀ (m : Fin 2) (s : State), s.die.running = false → ∃ t, exec (.legalRegionRedraw m) s = .next t ∧ t = s) ∧
  (∀ (m : Fin 2) (s : State), s.die.running = false → ∃ t, exec (.sealBorderAdvance m) s = .next t ∧ t = s) ∧
  (∀ (q : Rq) (m : Fin 2) (x y w k : Nat) (s : State), s.die.running = false → ∃ t, exec
    (.legalRegionGeometryWrite q m x y w k) s = .next t ∧ t = s)

/-- While the sealed die runs. An overlay rectangle that passes the check, with its pixels, is stored pixel by
pixel and its lines are due to change; any other is answered with DENIED, RANGE or what the check says and
changes nothing. Palette entries up to 191 take their colours; another role is DENIED, too many RANGE, higher
entries SEALED. A blink setting names partner and half-period; another role is DENIED, a bad half-period RANGE,
a higher entry SEALED. An entry of the terminal is read and written for the senders of these requests with the
status of its checks, an unknown one is ABSENT, another sender DENIED; among them the panel state is read by
its code and the Operator writes whether tokens are entered at the keypad. A status query by the firmware is
answered with the state and counters, DENIED to others. The keypad collects digits up to two for a point and
twenty for a token, selects a point of its panel with A or shows message 1, submits a whole token, enters a
token with * where that is allowed or shows message 2, deletes, cancels, and passes a stop on while a point is
selected; an idle entry acts as C; any other key changes nothing. While the die does not run none of these
changes anything. It rests also on the model's choices of assumptions 34 and 68. -/
def Obligations.OverlayEntriesAndKeypad : Prop :=
  (∀ (q : Rq) (m : Fin 2) (x y w k : Nat) (d : List Byte) (s : State), s.die.running = true ∧ s.overlayCheck
    q.role m x y w k = .ok ∧ w * k = d.length ∧ d.length ≤ 224 → ∃ t, exec (.overlayWrite q m x y w k d) s =
    .next t ∧ ∀ i j, i < w → j < k → (((t.panel m).lines.get (y + j)).mem.get (x + i)) = d.getD (j * w + i) 0 ∧
    ((t.panel m).lines.get (y + j)).due = true) ∧
  (∀ (q : Rq) (m : Fin 2) (x y w k : Nat) (d : List Byte) (s : State), s.die.running = true ∧ (s.overlayCheck
    q.role m x y w k ≠ .ok ∨ (w * k ≠ d.length ∨ 224 < d.length)) → ∃ t, exec (.overlayWrite q m x y w k d) s =
    .next t ∧ t = ovReply q.tag 1 m (if s.overlayCheck q.role m x y w k = .denied then .denied else if (w * k ≠
    d.length ∨ 224 < d.length) then .range else s.overlayCheck q.role m x y w k, s)) ∧
  (∀ (q : Rq) (m : Fin 2) (x y w k : Nat) (v : BitVec 8) (s : State), s.die.running = true ∧ s.overlayCheck
    q.role m x y w k = .ok → ∃ t, exec (.overlayFill q m x y w k v) s = .next t ∧ ∀ i j, i < w → j < k →
    (((t.panel m).lines.get (y + j)).mem.get (x + i)) = v ∧ ((t.panel m).lines.get (y + j)).due = true) ∧
  (∀ (q : Rq) (m : Fin 2) (x y w k : Nat) (v : BitVec 8) (s : State), s.die.running = true ∧ s.overlayCheck
    q.role m x y w k ≠ .ok → ∃ t, exec (.overlayFill q m x y w k v) s = .next t ∧ t = ovReply q.tag 2 m
    (s.overlayCheck q.role m x y w k, s)) ∧
  (∀ (q : Rq) (m : Fin 2) (f : Nat) (l : List (BitVec 24)) (s : State), s.die.running = true ∧ s.mayDraw
    q.role = true ∧ l.length ≤ 56 ∧ f + l.length ≤ 192 → ∃ t, exec (.paletteWrite q m f l) s = .next t ∧ ∀ j,
    (t.panel m).palette.get j = if f ≤ j ∧ j < f + l.length then l.getD (j - f) 0 else (s.panel m).palette.get
    j) ∧
  (∀ (q : Rq) (m : Fin 2) (f : Nat) (l : List (BitVec 24)) (s : State), s.die.running = true ∧ (s.mayDraw
    q.role = false ∨ 56 < l.length ∨ 192 < f + l.length) → ∃ t, exec (.paletteWrite q m f l) s = .next t ∧ t =
    ovReply q.tag 3 m (if s.mayDraw q.role = false then .denied else if 56 < l.length then .range else .sealed,
    s)) ∧
  (∀ (q : Rq) (m : Fin 2) (i p : BitVec 8) (n : Nat) (b : Bool) (s : State), s.die.running = true ∧ s.mayDraw
    q.role = true ∧ n % 2 = 0 ∧ 8 ≤ n ∧ n ≤ 120 ∧ i.toNat ≤ 191 → ∃ t, exec (.blinkSet q m i p n b) s = .next t
    ∧ (t.panel m).blink.get i.toNat = if b then ⟨p.toNat, n, true, false, 0⟩ else {}) ∧
  (∀ (q : Rq) (m : Fin 2) (i p : BitVec 8) (n : Nat) (b : Bool) (s : State), s.die.running = true ∧ (s.mayDraw
    q.role = false ∨ ¬ (n % 2 = 0 ∧ 8 ≤ n ∧ n ≤ 120) ∨ 191 < i.toNat) → ∃ t, exec (.blinkSet q m i p n b) s =
    .next t ∧ t = ovReply q.tag 4 m (if s.mayDraw q.role = false then .denied else if n % 2 = 0 ∧ 8 ≤ n ∧ n ≤
    120 then .sealed else .range, s)) ∧
  (∀ (g : Word) (m : Fin 2) (s : State), s.die.running = true ∧ s.dieRole .operator = true → ∃ t, exec
    (.terminalObjectRead ⟨.operator, g⟩ (BitVec.ofNat 16 (0x7800 + m)) 0x0A) s = .next t ∧ t = termReply g 5
    .ok (0x7800 + m) 0x0A [BitVec.ofNat 8 (panelCode (s.panel m).st)] s) ∧
  (∀ (q : Rq) (i : BitVec 16) (j : BitVec 8) (s : State), s.die.running = true ∧ s.termSender q.role = true →
    ∃ t, exec (.terminalObjectRead q i j) s = .next t ∧ t = termReply q.tag 5 (termRead q.role i.toNat j.toNat
    s).1 i.toNat j.toNat (termRead q.role i.toNat j.toNat s).2 s ∧ (isTermEntry i.toNat = false → termRead
    q.role i.toNat j.toNat s = (.absent, []))) ∧
  (∀ (q : Rq) (i : BitVec 16) (j : BitVec 8) (s : State), s.die.running = true ∧ s.termSender q.role = false →
    ∃ t, exec (.terminalObjectRead q i j) s = .next t ∧ t = termReply q.tag 5 .denied i.toNat j.toNat [] s) ∧
  (∀ (g : Word) (v : Byte) (s : State), s.die.running = true ∧ v.toNat ≤ 1 ∧ s.dieRole .operator = true → ∃ t,
    exec (.terminalObjectWrite ⟨.operator, g⟩ 0x7840 3 [v]) s = .next t ∧ t.sobj 0x7840 3 = [v]) ∧
  (∀ (q : Rq) (i : BitVec 16) (j : BitVec 8) (d : List Byte) (s : State), s.die.running = true ∧ s.termSender
    q.role = true → ∃ t, exec (.terminalObjectWrite q i j d) s = .next t ∧ t = termReply q.tag 6 (termWrite
    q.role i.toNat j.toNat d s).1 i.toNat j.toNat [] (termWrite q.role i.toNat j.toNat d s).2 ∧ (isTermEntry
    i.toNat = false → termWrite q.role i.toNat j.toNat d s = (.absent, s))) ∧
  (∀ (q : Rq) (i : BitVec 16) (j : BitVec 8) (d : List Byte) (s : State), s.die.running = true ∧ s.termSender
    q.role = false → ∃ t, exec (.terminalObjectWrite q i j d) s = .next t ∧ t = termReply q.tag 6 .denied
    i.toNat j.toNat [] s) ∧
  (∀ (g : Word) (m : Fin 2) (s : State), s.die.running = true → ∃ t, exec (.panelStatusQuery ⟨.firmware, g⟩ m)
    s = .next t ∧ t = dieReply g 8 ([BitVec.ofNat 8 (statusCode .ok), 7, BitVec.ofNat 8 m, 0] ++ ([BitVec.ofNat
    8 (panelCode (s.panel m).st)] ++ toLE 4 (s.panel m).frames ++ toLE 4 (s.panel m).badLines ++ toLE 4
    (s.panel m).loopBad)) s) ∧
  (∀ (q : Rq) (m : Fin 2) (s : State), s.die.running = true ∧ q.role ≠ .firmware → ∃ t, exec
    (.panelStatusQuery q m) s = .next t ∧ t = dieReply q.tag 8 [BitVec.ofNat 8 (statusCode .denied), 7,
    BitVec.ofNat 8 m, 0] s) ∧
  (∀ (d : Fin 10) (s : State), s.die.running = true ∧ (s.die.key.st = .idle ∨ s.die.key.st = .selected) → ∃ t,
    exec (.keyDigit d) s = .next t ∧ t.die.key = { s.die.key with st := .select, buf := [d.val], msg := 0 }) ∧
  (∀ (d : Fin 10) (s : State), s.die.running = true ∧ (s.die.key.st = .select ∧ s.die.key.buf.length = 1 ∨
    s.die.key.st = .token ∧ s.die.key.buf.length < 20) → ∃ t, exec (.keyDigit d) s = .next t ∧ t.die.key =
    { s.die.key with buf := s.die.key.buf ++ [d.val] }) ∧
  (∀ (d : Fin 10) (s : State), s.die.running = true ∧ (s.die.key.st = .select ∧ s.die.key.buf.length ≠ 1 ∨
    s.die.key.st = .token ∧ 20 ≤ s.die.key.buf.length) → ∃ t, exec (.keyDigit d) s = .next t ∧ t = s) ∧
  (∀ (s : State), s.die.running = true ∧ s.die.key.st = .select ∧ digitsNum s.die.key.buf < 64 ∧ s.panelServes
    (s.snum 0x7840 1) (digitsNum s.die.key.buf) = true → ∃ t, exec .keyAccept s = .next t ∧ t.die.key =
    { s.die.key with st := .selected, buf := [], point := some (digitsNum s.die.key.buf), msg := 0 }) ∧
  (∀ (s : State), s.die.running = true ∧ s.die.key.st = .select ∧ (64 ≤ digitsNum s.die.key.buf ∨
    s.panelServes (s.snum 0x7840 1) (digitsNum s.die.key.buf) = false) → ∃ t, exec .keyAccept s = .next t ∧
    t.die.key = { s.die.key with msg := 1 }) ∧
  (∀ (s : State), s.die.running = true ∧ s.die.key.st = .token ∧ 20 ≤ s.die.key.buf.length → ∃ t, exec
    .keyAccept s = .next t ∧ t.die.key.st = .selected ∧ t.die.key.buf = [] ∧ t.die.key.result = ((tokenEnter
    (s.die.key.point.getD 0) (digitsNum s.die.key.buf) s).1, (tokenEnter (s.die.key.point.getD 0) (digitsNum
    s.die.key.buf) s).2.1)) ∧
  (∀ (s : State), s.die.running = true ∧ (s.die.key.st = .idle ∨ s.die.key.st = .selected ∨ (s.die.key.st =
    .token ∧ s.die.key.buf.length < 20)) → ∃ t, exec .keyAccept s = .next t ∧ t = s) ∧
  (∀ (s : State), s.die.running = true ∧ s.die.key.st = .token → ∃ t, exec .keyDelete s = .next t ∧ t.die.key
    = { s.die.key with buf := s.die.key.buf.dropLast }) ∧
  (∀ (s : State), s.die.running = true ∧ s.die.key.st ≠ .token → ∃ t, exec .keyDelete s = .next t ∧ t = s) ∧
  (∀ (s : State), s.die.running = true ∧ s.die.key.st = .selected → ∃ t, exec .keyStop s = .next t ∧ t =
    keyNotice 2 s.die.key.point s) ∧
  (∀ (s : State), s.die.running = true ∧ s.die.key.st ≠ .selected → ∃ t, exec .keyStop s = .next t ∧ t = s) ∧
  (∀ (s : State), s.die.running = true ∧ s.die.key.st = .selected ∧ s.snum 0x7840 3 = 1 ∧ s.die.legal.lockEnd
    = none ∧ s.die.legal.ltStat.getLsbD 0 = false → ∃ t, exec .keyStar s = .next t ∧ t.die.key =
    { s.die.key with st := .token, buf := [], msg := 0 }) ∧
  (∀ (s : State), s.die.running = true ∧ s.die.key.st = .selected ∧ (s.snum 0x7840 3 ≠ 1 ∨ s.die.legal.lockEnd
    ≠ none ∨ s.die.legal.ltStat.getLsbD 0 = true) → ∃ t, exec .keyStar s = .next t ∧ t.die.key =
    { s.die.key with msg := 2 }) ∧
  (∀ (s : State), s.die.running = true ∧ s.die.key.st ≠ .selected → ∃ t, exec .keyStar s = .next t ∧ t = s) ∧
  (∀ (s : State), s.die.running = true ∧ (s.die.key.st = .select ∨ s.die.key.st = .selected) → ∃ t, exec
    .keyCancel s = .next t ∧ t.die.key = { s.die.key with st := .idle, buf := [], point := none, msg := 0 }) ∧
  (∀ (s : State), s.die.running = true ∧ s.die.key.st = .token → ∃ t, exec .keyCancel s = .next t ∧ t.die.key
    = { s.die.key with st := .selected, buf := [] }) ∧
  (∀ (s : State), s.die.running = true ∧ s.die.key.st = .idle → ∃ t, exec .keyCancel s = .next t ∧ t = s) ∧
  (∀ (s : State), s.die.running = true ∧ (s.die.key.st = .select ∨ s.die.key.st = .selected) → ∃ t, exec
    .keypadEntryTimeout s = .next t ∧ t.die.key =
    { s.die.key with st := .idle, buf := [], point := none, msg := 0 }) ∧
  (∀ (s : State), s.die.running = true ∧ s.die.key.st = .token → ∃ t, exec .keypadEntryTimeout s = .next t ∧
    t.die.key = { s.die.key with st := .selected, buf := [] }) ∧
  (∀ (s : State), s.die.running = true ∧ s.die.key.st = .idle → ∃ t, exec .keypadEntryTimeout s = .next t ∧ t
    = s) ∧
  (∀ (q : Rq) (m : Fin 2) (x y w k : Nat) (d : List Byte) (s : State), s.die.running = false → ∃ t, exec
    (.overlayWrite q m x y w k d) s = .next t ∧ t = s) ∧
  (∀ (q : Rq) (m : Fin 2) (x y w k : Nat) (v : BitVec 8) (s : State), s.die.running = false → ∃ t, exec
    (.overlayFill q m x y w k v) s = .next t ∧ t = s) ∧
  (∀ (q : Rq) (m : Fin 2) (f : Nat) (l : List (BitVec 24)) (s : State), s.die.running = false → ∃ t, exec
    (.paletteWrite q m f l) s = .next t ∧ t = s) ∧
  (∀ (q : Rq) (m : Fin 2) (i p : BitVec 8) (n : Nat) (b : Bool) (s : State), s.die.running = false → ∃ t, exec
    (.blinkSet q m i p n b) s = .next t ∧ t = s) ∧
  (∀ (q : Rq) (i : BitVec 16) (j : BitVec 8) (s : State), s.die.running = false → ∃ t, exec
    (.terminalObjectRead q i j) s = .next t ∧ t = s) ∧
  (∀ (q : Rq) (i : BitVec 16) (j : BitVec 8) (d : List Byte) (s : State), s.die.running = false → ∃ t, exec
    (.terminalObjectWrite q i j d) s = .next t ∧ t = s) ∧
  (∀ (q : Rq) (m : Fin 2) (s : State), s.die.running = false → ∃ t, exec (.panelStatusQuery q m) s = .next t ∧
    t = s) ∧
  (∀ (d : Fin 10) (s : State), s.die.running = false → ∃ t, exec (.keyDigit d) s = .next t ∧ t = s) ∧
  (∀ (s : State), s.die.running = false → ∃ t, exec .keyAccept s = .next t ∧ t = s) ∧
  (∀ (s : State), s.die.running = false → ∃ t, exec .keyDelete s = .next t ∧ t = s) ∧
  (∀ (s : State), s.die.running = false → ∃ t, exec .keyCancel s = .next t ∧ t = s) ∧
  (∀ (s : State), s.die.running = false → ∃ t, exec .keyStop s = .next t ∧ t = s) ∧
  (∀ (s : State), s.die.running = false → ∃ t, exec .keyStar s = .next t ∧ t = s) ∧
  (∀ (s : State), s.die.running = false → ∃ t, exec .keypadEntryTimeout s = .next t ∧ t = s)

/-- A ping of a pinging channel with every field off takes the first response as baseline, detects a card where the
response leaves it, and else follows it; any other ping does nothing. A poll cycle of a channel that waits or
polls with its field on makes a single card active and records its identifier, goes on polling with more than
one, and after the third without a card switches the field off and forgets the baseline; it, and a repoll with
several cards, are the same operation, and do nothing otherwise. An idle field with no exchange goes off. EXCH
starts an exchange with the active card, ends with STATE without one and does nothing during one. Its blocks
are gathered; a last one is the response and ends it with OK, of which 256 bytes are placed; a bad or missing
one is retried twice, then the exchange once in full, then it ends with INTEGRITY; its limit or ABORT ends it
with TIMEOUT; ABORT ends a poll with TIMEOUT. POLL polls again with the field on and no exchange, FIELD_OFF
switches the field off, else they do nothing. A mode write with the field on is refused with its event, with
the field off the detection mode starts pinging. A write over the power-die window fails with the lane and is
lost while the die has no clock. It rests also on the model's choices of assumption 39. -/
def Obligations.ReaderChannels : Prop :=
  (∀ (n : Fin 16) (a p : Int) (s : State), (s.rd n).st = .pinging ∧ s.power.fields = 0 ∧ (s.rd n).base = none
    → ∃ t, exec (.readerPing n a p) s = .next t ∧ (t.rd n).base = some (a, p, 0)) ∧
  (∀ (n : Fin 16) (a p b q : Int) (k : Nat) (s : State), (s.rd n).st = .pinging ∧ s.power.fields = 0 ∧ (s.rd
    n).base = some (b, q, k) → ∃ t, exec (.readerPing n a p) s = .next t ∧ if pingDetects (s.rd n).cfg b q k a
    p then (t.rd n).st = .detected ∧ (t.rd n).evt = setEvt (s.rd n).evt 0 else (t.rd n).base = some (15 * b + a
    * 16 ^ k, 15 * q + p * 16 ^ k, k + 1)) ∧
  (∀ (n : Fin 16) (a p : Int) (s : State), (s.rd n).st ≠ .pinging ∨ s.power.fields ≠ 0 → ∃ t, exec
    (.readerPing n a p) s = .next t ∧ t = s) ∧
  (∀ (n : Fin 16) (l : List CardId) (c : CardId) (s : State), s.fieldIsOn n = true ∧ ((s.rd n).st = .fieldWait
    ∨ (s.rd n).st = .polling) ∧ pollFinds (s.rd n).types l = [c] → ∃ t, exec (.readerPollCycle n l) s = .next t
    ∧ (t.rd n).st = .active ∧ (t.rd n).card = some c ∧ (t.rd n).cards = 1 ∧ (t.rd n).ids = idRecord c ∧ (t.rd
    n).status = .ok) ∧
  (∀ (n : Fin 16) (l : List CardId) (s : State), s.fieldIsOn n = true ∧ ((s.rd n).st = .fieldWait ∨ (s.rd
    n).st = .polling) ∧ 1 < (pollFinds (s.rd n).types l).length → ∃ t, exec (.readerPollCycle n l) s = .next t
    ∧ (t.rd n).st = .polling ∧ (t.rd n).card = none ∧ (t.rd n).cards = min 15 (pollFinds (s.rd n).types
    l).length ∧ (t.rd n).ids = (((pollFinds (s.rd n).types l).take 4).map idRecord).flatten) ∧
  (∀ (n : Fin 16) (l : List CardId) (s : State), s.fieldIsOn n = true ∧ ((s.rd n).st = .fieldWait ∨ (s.rd
    n).st = .polling) ∧ pollFinds (s.rd n).types l = [] ∧ (s.rd n).xch = none → ∃ t, exec (.readerPollCycle n
    l) s = .next t ∧ (t.rd n).cards = 0 ∧ (if (s.rd n).empty < 2 then (t.rd n).st = .polling ∧ (t.rd n).empty =
    (s.rd n).empty + 1 else t.power.fields = putBit s.power.fields n false ∧ (t.rd n).base = none)) ∧
  (∀ (n : Fin 16) (l : List CardId) (s : State), s.fieldIsOn n = true ∧ ((s.rd n).st = .fieldWait ∨ (s.rd
    n).st = .polling) → ∃ t, exec (.readerPollCycle n l) s = .next t ∧ t = pollCycle n l s) ∧
  (∀ (n : Fin 16) (l : List CardId) (s : State), ¬ (s.fieldIsOn n = true ∧ ((s.rd n).st = .fieldWait ∨ (s.rd
    n).st = .polling)) → ∃ t, exec (.readerPollCycle n l) s = .next t ∧ t = s) ∧
  (∀ (n : Fin 16) (l : List CardId) (c : CardId) (s : State), s.fieldIsOn n = true ∧ 1 < (s.rd n).cards ∧
    (s.rd n).xch = none ∧ pollFinds (s.rd n).types l = [c] → ∃ t, exec (.readerMultiRepoll n l) s = .next t ∧
    (t.rd n).st = .active ∧ (t.rd n).card = some c ∧ (t.rd n).cards = 1) ∧
  (∀ (n : Fin 16) (l : List CardId) (s : State), s.fieldIsOn n = true ∧ 1 < (s.rd n).cards ∧ (s.rd n).xch =
    none → ∃ t, exec (.readerMultiRepoll n l) s = .next t ∧ t = pollCycle n l s) ∧
  (∀ (n : Fin 16) (l : List CardId) (s : State), ¬ (s.fieldIsOn n = true ∧ 1 < (s.rd n).cards ∧ (s.rd n).xch =
    none) → ∃ t, exec (.readerMultiRepoll n l) s = .next t ∧ t = s) ∧
  (∀ (n : Fin 16) (s : State), s.fieldIsOn n = true ∧ (s.rd n).xch = none → ∃ t, exec (.readerFieldIdle n) s =
    .next t ∧ t.power.fields = putBit s.power.fields n false ∧ (t.rd n).evt = setEvt (s.rd n).evt 3 ∧ (t.rd
    n).card = none) ∧
  (∀ (n : Fin 16) (s : State), s.fieldIsOn n = false ∨ (s.rd n).xch ≠ none → ∃ t, exec (.readerFieldIdle n) s
    = .next t ∧ t = s) ∧
  (∀ (n : Fin 16) (s : State), s.app.lane.fault = false ∧ s.power.clkOk = true ∧ s.fieldIsOn n = true ∧ (s.rd
    n).st = .active ∧ (s.rd n).card ≠ none ∧ (s.rd n).xch = none → ∃ t, exec (.readerExchange n) s = .next t ∧
    (t.rd n).st = .exchange ∧ (t.rd n).xch = some
    { cmd := (List.range (min 256 (s.rd n).txlen)).map (s.rd n).tx.get }) ∧
  (∀ (n : Fin 16) (s : State), s.app.lane.fault = false ∧ s.power.clkOk = true ∧ ¬ (s.fieldIsOn n = true ∧
    (s.rd n).st = .active ∧ (s.rd n).card ≠ none) ∧ (s.rd n).xch = none → ∃ t, exec (.readerExchange n) s =
    .next t ∧ (t.rd n).status = .state ∧ (t.rd n).evt = setEvt (s.rd n).evt 2 ∧ (t.rd n).xch = none) ∧
  (∀ (n : Fin 16) (s : State), s.app.lane.fault = false ∧ s.power.clkOk = true ∧ (s.rd n).xch ≠ none → ∃ t,
    exec (.readerExchange n) s = .next t ∧ t = busOk 0 s) ∧
  (∀ (n : Fin 16) (s : State), s.app.lane.fault = false ∧ s.power.clkOk = true ∧ (s.rd n).xch ≠ none → ∃ t,
    exec (.readerAbort n) s = .next t ∧ (t.rd n).status = .timeout ∧ (t.rd n).xch = none ∧ (t.rd n).st =
    .active ∧ (t.rd n).evt = setEvt (s.rd n).evt 2) ∧
  (∀ (n : Fin 16) (s : State), s.app.lane.fault = false ∧ s.power.clkOk = true ∧ (s.rd n).xch = none ∧ ((s.rd
    n).st = .fieldWait ∨ (s.rd n).st = .polling) → ∃ t, exec (.readerAbort n) s = .next t ∧ (t.rd n).status =
    .timeout ∧ (t.rd n).st = .active ∧ (t.rd n).evt = setEvt (s.rd n).evt 1) ∧
  (∀ (n : Fin 16) (s : State), s.app.lane.fault = false ∧ s.power.clkOk = true ∧ (s.rd n).xch = none ∧ (s.rd
    n).st ≠ .fieldWait ∧ (s.rd n).st ≠ .polling → ∃ t, exec (.readerAbort n) s = .next t ∧ t = busOk 0 s) ∧
  (∀ (n : Fin 16) (s : State), s.app.lane.fault = false ∧ s.power.clkOk = true ∧ s.fieldIsOn n = true ∧ (s.rd
    n).xch = none → ∃ t, exec (.readerPoll n) s = .next t ∧ (t.rd n).st = .polling ∧ (t.rd n).empty = 0) ∧
  (∀ (n : Fin 16) (s : State), s.app.lane.fault = false ∧ s.power.clkOk = true ∧ (s.fieldIsOn n = false ∨
    (s.rd n).xch ≠ none) → ∃ t, exec (.readerPoll n) s = .next t ∧ t = busOk 0 s) ∧
  (∀ (n : Fin 16) (s : State), s.app.lane.fault = false ∧ s.power.clkOk = true ∧ s.fieldIsOn n = true → ∃ t,
    exec (.readerFieldOff n) s = .next t ∧ t.power.fields = putBit s.power.fields n false ∧ (t.rd n).card =
    none) ∧
  (∀ (n : Fin 16) (s : State), s.app.lane.fault = false ∧ s.power.clkOk = true ∧ s.fieldIsOn n = false → ∃ t,
    exec (.readerFieldOff n) s = .next t ∧ t = busOk 0 s) ∧
  (∀ (n : Fin 16) (v : Word) (s : State), s.app.lane.fault = false ∧ s.power.clkOk = true → ∃ t, exec
    (.readerModeWrite n v) s = .next t ∧ t = busOk 0 (readerModeWrite n v s)) ∧
  (∀ (n : Fin 16) (v : Word) (s : State), s.app.lane.fault = false ∧ s.power.clkOk = true ∧ s.fieldIsOn n =
    false ∧ fld v 0 2 = 1 ∧ (s.rd n).mode = 0 ∧ (s.rd n).openT = false → ∃ t, exec (.readerModeWrite n v) s =
    .next t ∧ (t.rd n).mode = 1 ∧ (t.rd n).st = .pinging ∧ (t.rd n).types = BitVec.ofNat 2 (fld v 2 2) ∧ (t.rd
    n).txlen = fld v 16 9 ∧ (t.rd n).base = none) ∧
  (∀ (n : Fin 16) (v : Word) (s : State), s.app.lane.fault = false ∧ s.power.clkOk = true ∧ s.fieldIsOn n =
    true ∧ fld v 0 2 ≠ 3 ∧ fld v 0 2 ≠ (s.rd n).mode → ∃ t, exec (.readerModeWrite n v) s = .next t ∧ (t.rd
    n).mode = (s.rd n).mode ∧ (t.rd n).types = (s.rd n).types ∧ (t.rd n).evt = setEvt (s.rd n).evt 8) ∧
  (∀ (n : Fin 16) (d : List Byte) (x : Xchg) (s : State), (s.rd n).xch = some x → ∃ t, exec (.cardBlockReceive
    n (.info d true)) s = .next t ∧ (t.rd n).xch = some { x with data := x.data ++ d, retries := 0, wtx := 1 }) ∧
  (∀ (n : Fin 16) (d : List Byte) (x : Xchg) (s : State), (s.rd n).xch = some x ∧ (x.data ++ d).length ≤ 256 →
    ∃ t, exec (.cardBlockReceive n (.info d false)) s = .next t ∧ (t.rd n).xch = none ∧ (t.rd n).status = .ok ∧
    (t.rd n).st = .active ∧ (t.rd n).rxlen = (x.data ++ d).length ∧ (t.rd n).rx = (x.data ++ d).zipIdx.foldl
    (fun b x => b.set x.2 x.1) (s.rd n).rx) ∧
  (∀ (n : Fin 16) (d : List Byte) (x : Xchg) (s : State), (s.rd n).xch = some x ∧ 256 < (x.data ++ d).length →
    ∃ t, exec (.cardBlockReceive n (.info d false)) s = .next t ∧ (t.rd n).xch = none ∧ (t.rd n).status = .ok ∧
    (t.rd n).st = .active ∧ (t.rd n).rx = ((x.data ++ d).take 256).zipIdx.foldl (fun b x => b.set x.2 x.1)
    (s.rd n).rx) ∧
  (∀ (n : Fin 16) (x : Xchg) (s : State), (s.rd n).xch = some x → ∃ t, exec (.cardBlockReceive n .bad) s =
    .next t ∧ t = xchBad n x s) ∧
  (∀ (n : Fin 16) (s : State), (s.rd n).xch = none → ∃ t, exec (.cardFwtExpiry n) s = .next t ∧ t = s) ∧
  (∀ (n : Fin 16) (x : Xchg) (s : State), (s.rd n).xch = some x → ∃ t, exec (.cardBlockReceive n .ack) s =
    .next t ∧ (t.rd n).xch = some { x with retries := 0, wtx := 1 }) ∧
  (∀ (n : Fin 16) (x : Xchg) (k : Nat) (s : State), (s.rd n).xch = some x → ∃ t, exec (.cardBlockReceive n
    (.wtx k)) s = .next t ∧ (t.rd n).xch = some { x with retries := 0, wtx := k }) ∧
  (∀ (n : Fin 16) (b : CardBlock) (s : State), (s.rd n).xch = none → ∃ t, exec (.cardBlockReceive n b) s =
    .next t ∧ t = s) ∧
  (∀ (n : Fin 16) (x : Xchg) (s : State), (s.rd n).xch = some x ∧ x.retries < 2 → ∃ t, exec (.cardFwtExpiry n)
    s = .next t ∧ (t.rd n).xch = some { x with retries := x.retries + 1, wtx := 1 }) ∧
  (∀ (n : Fin 16) (x : Xchg) (s : State), (s.rd n).xch = some x ∧ 2 ≤ x.retries ∧ x.full = false → ∃ t, exec
    (.cardFwtExpiry n) s = .next t ∧ (t.rd n).xch = some { cmd := x.cmd, full := true }) ∧
  (∀ (n : Fin 16) (x : Xchg) (s : State), (s.rd n).xch = some x ∧ 2 ≤ x.retries ∧ x.full = true → ∃ t, exec
    (.cardFwtExpiry n) s = .next t ∧ (t.rd n).xch = none ∧ (t.rd n).status = .integrity ∧ (t.rd n).evt = setEvt
    (s.rd n).evt 2) ∧
  (∀ (n : Fin 16) (s : State), (s.rd n).xch ≠ none → ∃ t, exec (.readerExchangeTimeout n) s = .next t ∧ (t.rd
    n).status = .timeout ∧ (t.rd n).xch = none ∧ (t.rd n).st = .active) ∧
  (∀ (n : Fin 16) (s : State), (s.rd n).xch = none → ∃ t, exec (.readerExchangeTimeout n) s = .next t ∧ t = s) ∧
  (∀ (n : Fin 16) (s : State), s.app.lane.fault = true → ∃ t, exec (.readerExchange n) s = .next t ∧ t =
    busFail s) ∧
  (∀ (n : Fin 16) (s : State), s.app.lane.fault = false ∧ s.power.clkOk = false → ∃ t, exec (.readerExchange
    n) s = .next t ∧ t = busOk 0 s) ∧
  (∀ (n : Fin 16) (s : State), s.app.lane.fault = true → ∃ t, exec (.readerAbort n) s = .next t ∧ t = busFail
    s) ∧
  (∀ (n : Fin 16) (s : State), s.app.lane.fault = false ∧ s.power.clkOk = false → ∃ t, exec (.readerAbort n) s
    = .next t ∧ t = busOk 0 s) ∧
  (∀ (n : Fin 16) (s : State), s.app.lane.fault = true → ∃ t, exec (.readerPoll n) s = .next t ∧ t = busFail s) ∧
  (∀ (n : Fin 16) (s : State), s.app.lane.fault = false ∧ s.power.clkOk = false → ∃ t, exec (.readerPoll n) s
    = .next t ∧ t = busOk 0 s) ∧
  (∀ (n : Fin 16) (s : State), s.app.lane.fault = true → ∃ t, exec (.readerFieldOff n) s = .next t ∧ t =
    busFail s) ∧
  (∀ (n : Fin 16) (s : State), s.app.lane.fault = false ∧ s.power.clkOk = false → ∃ t, exec (.readerFieldOff
    n) s = .next t ∧ t = busOk 0 s) ∧
  (∀ (n : Fin 16) (v : Word) (s : State), s.app.lane.fault = true → ∃ t, exec (.readerModeWrite n v) s = .next
    t ∧ t = busFail s) ∧
  (∀ (n : Fin 16) (v : Word) (s : State), s.app.lane.fault = false ∧ s.power.clkOk = false → ∃ t, exec
    (.readerModeWrite n v) s = .next t ∧ t = busOk 0 s)

/-- In emulation mode a field entry draws a fresh identity, beginning with 08h for type A; another mode hears
nothing. A tag in a field answers the activation commands of its type, which close its transaction: among them
the answers to REQA, RATS and ATTRIB 0; a channel that hears no field does nothing. An activated tag selects
its application, then a file, which opens a transaction; a SELECT with no answer stated gets a free one. A read
answers with the bytes of the selected file from the offset and 9000h, 6B00h beyond it, without a selected file
6986h; an update is refused with 6982h, another command with 6D00h, a deselection ends the activation; these
close the transaction. Without an activated tag they do nothing. A lost field ends everything in emulation
mode. A transaction that idles closes; with a swap pending its close exchanges the banks. A COMMIT exchanges
the banks at once with no transaction open, waits with one open, and while a swap is pending sets WR_ERR; it
fails with the lane and is lost without the power-die clock. A forced swap closes the open transaction of a
pending slot and leaves its file unselected; otherwise it does nothing. It rests also on the model's choices of
assumptions 39 and 41. -/
def Obligations.TagEmulation : Prop :=
  (∀ (n : Fin 16) (s : State), (s.rd n).mode = 2 → ∃ t, exec (.tagFieldEntry n) s = .next t ∧ (t.rd n).ext =
    true ∧ (t.rd n).activated = false ∧ (t.rd n).appSel = false ∧ (t.rd n).file = none) ∧
  (∀ (n : Fin 16) (k : Nat) (s : State), (s.rd n).mode = 2 ∧ s.slotOfChannel n = some k ∧ (s.tag k).typeB =
    false → ∃ t, exec (.tagFieldEntry n) s = .next t ∧ (t.rd n).uid.setWidth 8 = 8) ∧
  (∀ (n : Fin 16) (s : State), (s.rd n).mode ≠ 2 → ∃ t, exec (.tagFieldEntry n) s = .next t ∧ t = s) ∧
  (∀ (n : Fin 16) (k : Nat) (s : State), s.tagHears n = some k ∧ (s.tag k).typeB = false → ∃ t, exec
    (.tagActivation n .reqa) s = .next t ∧ (t.rd n).ans = some [0x04, 0x00]) ∧
  (∀ (n : Fin 16) (k : Nat) (s : State), s.tagHears n = some k ∧ (s.tag k).typeB = false → ∃ t, exec
    (.tagActivation n .rats) s = .next t ∧ (t.rd n).activated = true ∧ (t.rd n).ans = some [0x03, 0x28, 0x40] ∧
    (t.rd n).openT = false) ∧
  (∀ (n : Fin 16) (k : Nat) (s : State), s.tagHears n = some k ∧ (s.tag k).typeB = true ∧ (s.rd n).halt =
    false → ∃ t, exec (.tagActivation n (.attrib 0)) s = .next t ∧ (t.rd n).activated = true ∧ (t.rd n).ans =
    some [0x00]) ∧
  (∀ (n : Fin 16) (c : TagAct) (k : Nat) (s : State), s.tagHears n = some k → ∃ t, exec (.tagActivation n c) s
    = .next t ∧ t = if (s.tag k).typeB then tagActB n c (tagClose n s) else tagActA n c (tagClose n s)) ∧
  (∀ (n : Fin 16) (c : TagAct) (s : State), s.tagHears n = none → ∃ t, exec (.tagActivation n c) s = .next t ∧
    t = s) ∧
  (∀ (n : Fin 16) (s : State), s.tagActive n = true → ∃ t, exec (.tagSelect n .app) s = .next t ∧ (t.rd
    n).appSel = true ∧ (t.rd n).file = none ∧ (t.rd n).ans = some [0x90, 0x00] ∧ (t.rd n).openT = false) ∧
  (∀ (n : Fin 16) (s : State), s.tagActive n = true ∧ (s.rd n).appSel = true → ∃ t, exec (.tagSelect n .cc) s
    = .next t ∧ (t.rd n).file = some 1 ∧ (t.rd n).openT = true ∧ (t.rd n).ans = some [0x90, 0x00]) ∧
  (∀ (n : Fin 16) (s : State), s.tagActive n = true ∧ (s.rd n).appSel = true → ∃ t, exec (.tagSelect n .ndef)
    s = .next t ∧ (t.rd n).file = some 2 ∧ (t.rd n).openT = true ∧ (t.rd n).ans = some [0x90, 0x00]) ∧
  (∀ (n : Fin 16) (f : TagFile) (s : State), s.tagActive n = true ∧ (f = .unknown ∨ (f ≠ .app ∧ (s.rd
    n).appSel = false)) → ∃ t, exec (.tagSelect n f) s = .next t ∧ t = freeSw n (tagClose n s)) ∧
  (∀ (n : Fin 16) (f : TagFile) (s : State), s.tagActive n = false → ∃ t, exec (.tagSelect n f) s = .next t ∧
    t = s) ∧
  (∀ (n : Fin 16) (o l : Nat) (s : State), s.tagActive n = false → ∃ t, exec (.tagReadBinary n o l) s = .next
    t ∧ t = s) ∧
  (∀ (n : Fin 16) (s : State), s.tagActive n = false → ∃ t, exec (.tagUpdateBinary n) s = .next t ∧ t = s) ∧
  (∀ (n : Fin 16) (b : Bool) (s : State), s.tagActive n = false → ∃ t, exec (.tagOtherCommand n b) s = .next t
    ∧ t = s) ∧
  (∀ (n : Fin 16) (s : State), (s.rd n).mode ≠ 2 → ∃ t, exec (.tagFieldLoss n) s = .next t ∧ t = s) ∧
  (∀ (n : Fin 16) (s : State), ∃ t, exec (.tagTransactionIdle n) s = .next t ∧ (t.rd n).openT = false) ∧
  (∀ (k : Fin 4) (v : Word) (s : State), s.app.lane.fault = false ∧ s.power.clkOk = true ∧ (s.tag k).pending =
    false ∧ (s.tag k).en = true ∧ bit v 8 = true ∧ (s.rd (s.tag k).channel).openT = true ∧ within 2 (fld v 16
    11) 1024 = true → ∃ t, exec (.tagCommit k v) s = .next t ∧ (t.tag k).pending = true ∧ (t.tag k).lenNext =
    fld v 16 11 ∧ (t.tag k).bank = (s.tag k).bank) ∧
  (∀ (k : Fin 4) (v : Word) (s : State), s.app.lane.fault = false ∧ s.power.clkOk = true → ∃ t, exec
    (.tagCommit k v) s = .next t ∧ t = busOk 0 (tagCtlWrite k (v ||| 0x200) s)) ∧
  (∀ (k : Fin 4) (s : State), (s.tag k).pending = true ∧ s.tagOpen k = true → ∃ t, exec (.tagForcedSwap k) s =
    .next t ∧ t = tagClose (s.tag k).channel (s.updRd (s.tag k).channel fun r => { r with file := none })) ∧
  (∀ (n : Fin 16) (o l k : Nat) (f : List Byte) (s : State), s.tagHears n = some k ∧ (s.rd n).activated = true
    ∧ s.tagFile n k = some f → ∃ t, exec (.tagReadBinary n o l) s = .next t ∧ (t.rd n).ans = some (if f.length
    ≤ o then [0x6B, 0x00] else (f.drop o).take l ++ [0x90, 0x00])) ∧
  (∀ (n : Fin 16) (o l : Nat) (s : State), s.tagActive n = true ∧ (s.rd n).file = none → ∃ t, exec
    (.tagReadBinary n o l) s = .next t ∧ (t.rd n).ans = some [0x69, 0x86]) ∧
  (∀ (n : Fin 16) (s : State), s.tagActive n = true → ∃ t, exec (.tagUpdateBinary n) s = .next t ∧ (t.rd
    n).ans = some [0x69, 0x82] ∧ (t.rd n).openT = false) ∧
  (∀ (n : Fin 16) (s : State), s.tagActive n = true → ∃ t, exec (.tagOtherCommand n true) s = .next t ∧ (t.rd
    n).activated = false ∧ (t.rd n).ans = some [0xC2] ∧ (t.rd n).openT = false) ∧
  (∀ (n : Fin 16) (s : State), s.tagActive n = true → ∃ t, exec (.tagOtherCommand n false) s = .next t ∧ (t.rd
    n).ans = some [0x6D, 0x00] ∧ (t.rd n).openT = false) ∧
  (∀ (n : Fin 16) (s : State), (s.rd n).mode = 2 → ∃ t, exec (.tagFieldLoss n) s = .next t ∧ (t.rd n).ext =
    false ∧ (t.rd n).activated = false ∧ (t.rd n).openT = false ∧ (t.rd n).file = none) ∧
  (∀ (n : Fin 16) (k : Nat) (s : State), (s.rd n).openT = true ∧ s.slotOfChannel n = some k ∧ (s.tag
    k).pending = true → ∃ t, exec (.tagTransactionIdle n) s = .next t ∧ (t.rd n).openT = false ∧ (t.tag k).bank
    = !(s.tag k).bank ∧ (t.tag k).lenAct = (s.tag k).lenNext ∧ (t.tag k).pending = false) ∧
  (∀ (k : Fin 4) (v : Word) (s : State), s.app.lane.fault = false ∧ s.power.clkOk = true ∧ (s.tag k).pending =
    true → ∃ t, exec (.tagCommit k v) s = .next t ∧ (t.tag k).wrErr = true ∧ (t.tag k).pending = true ∧ (t.tag
    k).bank = (s.tag k).bank) ∧
  (∀ (k : Fin 4) (v : Word) (s : State), s.app.lane.fault = false ∧ s.power.clkOk = true ∧ (s.tag k).pending =
    false ∧ (s.tag k).en = true ∧ (s.rd (s.tag k).channel).openT = false ∧ within 2 (fld v 16 11) 1024 = true →
    ∃ t, exec (.tagCommit k v) s = .next t ∧ (t.tag k).bank = (!(s.tag k).bank) ∧ (t.tag k).lenAct = fld v 16
    11 ∧ (t.tag k).pending = false) ∧
  (∀ (k : Fin 4) (s : State), (s.tag k).pending = true ∧ s.tagOpen k = true ∧ s.slotOfChannel (s.tag
    k).channel = some k.val → ∃ t, exec (.tagForcedSwap k) s = .next t ∧ (t.tag k).bank = !(s.tag k).bank ∧
    (t.tag k).lenAct = (s.tag k).lenNext ∧ (t.tag k).pending = false ∧ (t.rd (s.tag k).channel).openT = false ∧
    (t.rd (s.tag k).channel).file = none) ∧
  (∀ (k : Fin 4) (s : State), (s.tag k).pending = false ∨ s.tagOpen k = false → ∃ t, exec (.tagForcedSwap k) s
    = .next t ∧ t = s) ∧
  (∀ (k : Fin 4) (v : Word) (s : State), s.app.lane.fault = true → ∃ t, exec (.tagCommit k v) s = .next t ∧ t
    = busFail s) ∧
  (∀ (k : Fin 4) (v : Word) (s : State), s.app.lane.fault = false ∧ s.power.clkOk = false → ∃ t, exec
    (.tagCommit k v) s = .next t ∧ t = busOk 0 s)

/-- For a hart that no context owns, that fetches without an exception and that no debugger steps, with no memory
error: ADDI puts rs1 plus the immediate into rd (x0 stays 0), keeps the other registers and memory, moves the
pc past the instruction and counts it in minstret; SW of a Cantle hart to the Hall SRAM writes its four bytes,
keeps every other byte and every register; MRET in M mode goes to mepc in the mode of MPP; ECALL in M mode
enters the vector of mtvec with mcause 11 and mepc at the instruction, every register and memory kept. A due
M-mode interrupt of cause c is entered in the instruction's place, with mepc at the pc. A hart that does not
run ignores the command. An illegal instruction of a Rein context traps it with cause 02h, an uncorrectable
memory error with cause 03h. In every case the command does what rvStep does, and stepHalt behind it. The
compare match makes mip.MTIP of its hart the comparison of HT with the compare register. A debug halt of a hart
that debug reaches and that is not halted halts it and keeps its registers; a debug resume of a halted one lets
it go on; each is otherwise without effect. Register, CSR and floating-point accesses and the program buffer
act on a hart that debug reaches and that is halted, and else have no effect; system-bus, program-buffer and
module accesses act unless fuse bit 4 of DBG shuts debug, and else have no effect. It rests also on the model's
choices of assumption 4. -/
def Obligations.HartInstructions : Prop :=
  (∀ (h : Fin 15) (w i : Word) (n : Nat) (s : State), hartEngine h = none ∧ Fetches h w i n s ∧ rvOp i = 0x13
    ∧ rvF3 i = 0 → ∃ t, exec (.instruction h ⟨w, .good⟩) s = .next t ∧ (t.hart h).pc = rvFit h ((s.hart h).pc +
    BitVec.ofNat 64 n) ∧ (∀ k, (t.hart h).get k = if k = rvRd i ∧ k ≠ 0 then rvFit h ((s.hart h).get (rvRs1 i)
    + immI i) else (s.hart h).get k) ∧ (t.hart h).csr.get 0xB02 = (s.hart h).csr.get 0xB02 + 1 ∧ t.app.mem =
    s.app.mem) ∧
  (∀ (h : Fin 15) (w i : Word) (n a : Nat) (s : State), h.val < 4 ∧ Fetches h w i n s ∧ rvOp i = 0x23 ∧ rvF3 i
    = 2 ∧ s.accessAt h .store ((s.hart h).get (rvRs1 i) + immS i) 4 = .ok a ∧ regionOf a = .hall ∧ regionOf (a
    + 3) = .hall → ∃ t, exec (.instruction h ⟨w, .good⟩) s = .next t ∧ (t.hart h).pc = rvFit h ((s.hart h).pc +
    BitVec.ofNat 64 n) ∧ (∀ k, (t.hart h).get k = (s.hart h).get k) ∧ ∀ j, t.byte j = if a ≤ j ∧ j < a + 4 then
    (toLE 4 (((s.hart h).get (rvRs2 i)).toNat % 256 ^ 4)).getD (j - a) 0 else s.byte j) ∧
  (∀ (h : Fin 15) (w : Word) (n : Nat) (s : State), hartEngine h = none ∧ Fetches h w 0x30200073 n s ∧ (s.hart
    h).priv = 3 → ∃ t, exec (.instruction h ⟨w, .good⟩) s = .next t ∧ (t.hart h).pc = (s.hart h).csr.get 0x341
    ∧ (t.hart h).priv = (if hasU h then dfld ((s.hart h).csr.get 0x300) 11 2 else 3) ∧ (∀ k, (t.hart h).get k =
    (s.hart h).get k) ∧ t.app.mem = s.app.mem) ∧
  (∀ (h : Fin 15) (w : Word) (n : Nat) (s : State), hartEngine h = none ∧ Fetches h w 0x00000073 n s ∧ (s.hart
    h).priv = 3 → ∃ t, exec (.instruction h ⟨w, .good⟩) s = .next t ∧ (t.hart h).pc = vectorOf ((s.hart
    h).csr.get 0x305) false 11 ∧ (t.hart h).priv = 3 ∧ (t.hart h).csr.get 0x341 = (s.hart h).pc ∧ (t.hart
    h).csr.get 0x342 = 11 ∧ (∀ k, (t.hart h).get k = (s.hart h).get k) ∧ t.app.mem = s.app.mem) ∧
  (∀ (h : Fin 15) (w : Word) (c : Nat) (s : State), hartEngine h = none ∧ s.hartRuns h = true ∧ (s.core h).wfi
    = false ∧ s.interrupt h = some (c, false) ∧ (s.debugs h && dbit ((s.core h).csr.get 0x7B0) 2) = false → ∃
    t, exec (.instruction h ⟨w, .good⟩) s = .next t ∧ (t.hart h).pc = vectorOf ((s.hart h).csr.get 0x305) true
    c ∧ (t.hart h).priv = 3 ∧ (t.hart h).csr.get 0x341 = (s.hart h).pc ∧ (t.hart h).csr.get 0x342 = causeWordOf
    h true c ∧ (∀ k, (t.hart h).get k = (s.hart h).get k) ∧ t.app.mem = s.app.mem) ∧
  (∀ (h : Fin 15) (w : Word) (e : Ecc) (s : State), s.hartRuns h = false → ∃ t, exec (.instruction h ⟨w, e⟩) s
    = .next t ∧ t = s) ∧
  (∀ (h : Fin 15) (w : Word) (e : Nat) (v : Dword) (u : State) (s : State), hartEngine h = some e ∧ s.hartRuns
    h = true ∧ (s.core h).wfi = false ∧ s.interrupt h = none ∧ (s.debugs h && dbit ((s.core h).csr.get 0x7B0)
    2) = false ∧ rvOutcome h w (passCycles h s) = .exc 2 v u → ∃ t, exec (.instruction h ⟨w, .good⟩) s = .next
    t ∧ t = ctxTrap e 2 2 u) ∧
  (∀ (h : Fin 15) (w : Word) (e : Nat) (s : State), hartEngine h = some e ∧ s.hartRuns h = true ∧ (s.core
    h).wfi = false ∧ s.interrupt h = none ∧ (s.debugs h && dbit ((s.core h).csr.get 0x7B0) 2) = false → ∃ t,
    exec (.instruction h ⟨w, .failed⟩) s = .next t ∧ t = ctxTrap e 3 ((passCycles h s).ctxMtval e) (passCycles
    h s)) ∧
  (∀ (h : Fin 15) (w : Word) (e : Ecc) (s : State), ∃ t, exec (.instruction h ⟨w, e⟩) s = .next t ∧ t =
    stepHalt h s (rvStep h w e s)) ∧
  (∀ (k : Fin 6) (s : State), ∃ t, exec (.timerCompareMatch k) s = .next t ∧ (t.core (timerHart k)).csr.get
    0x344 = dput ((s.core (timerHart k)).csr.get 0x344) 7 1 (b2n (decide (s.app.clk.mtimecmp.get k ≤ s.ht)))) ∧
  (∀ (h : Fin 15) (s : State), s.debugs h = true ∧ (s.core h).halted = false → ∃ t, exec (.debugAccess (.halt
    h)) s = .next t ∧ (t.core h).halted = true ∧ (t.core h).x = (s.core h).x ∧ t = enterDebug h 3 s) ∧
  (∀ (h : Fin 15) (s : State), s.debugs h = false ∨ (s.core h).halted = true → ∃ t, exec (.debugAccess (.halt
    h)) s = .next t ∧ t = s) ∧
  (∀ (h : Fin 15) (s : State), s.debugHalted h = true → ∃ t, exec (.debugAccess (.resume h)) s = .next t ∧
    (t.core h).halted = false ∧ t.app.clk.resumeAck = true) ∧
  (∀ (h : Fin 15) (s : State), s.debugHalted h = false → ∃ t, exec (.debugAccess (.resume h)) s = .next t ∧ t
    = s) ∧
  (∀ (h : Fin 15) (n : Fin 32) (s : State), ∃ t, exec (.debugAccess (.readReg h n)) s = .next t ∧ t = (if
    s.debugHalted h then { s with app.clk.dbgData := (s.hart h).get n } else s)) ∧
  (∀ (h : Fin 15) (n : Fin 32) (v : BitVec 64) (s : State), s.debugHalted h = true ∧ hartEngine h = none → ∃
    t, exec (.debugAccess (.writeReg h n v)) s = .next t ∧ (t.hart h).get n = if n.val = 0 then 0 else rvFit h
    v) ∧
  (∀ (h : Fin 15) (n : Fin 32) (v : BitVec 64) (s : State), ∃ t, exec (.debugAccess (.writeReg h n v)) s =
    .next t ∧ t = (if s.debugHalted h then s.updHart h fun r => r.put n (rvFit h v) else s)) ∧
  (∀ (h : Fin 15) (n : BitVec 12) (s : State), ∃ t, exec (.debugAccess (.readCsr h n)) s = .next t ∧ t = (if
    s.debugHalted h && debugHas h n.toNat then { s with app.clk.dbgData := s.debugGet h n.toNat } else s)) ∧
  (∀ (h : Fin 15) (n : BitVec 12) (v : BitVec 64) (s : State), ∃ t, exec (.debugAccess (.writeCsr h n v)) s =
    .next t ∧ t = (if s.debugHalted h && debugHas h n.toNat then debugPut h n.toNat v s else s)) ∧
  (∀ (h : Fin 4) (n : Fin 32) (s : State), ∃ t, exec (.debugAccess (.readF h n)) s = .next t ∧ t = (if
    s.debugHalted h then { s with app.clk.dbgData := (s.hart h).f.get n } else s)) ∧
  (∀ (h : Fin 4) (n : Fin 32) (v : BitVec 64) (s : State), ∃ t, exec (.debugAccess (.writeF h n v)) s = .next
    t ∧ t = (if s.debugHalted h then s.updHart h fun r => { r with f := r.f.set n v } else s)) ∧
  (∀ (h : Fin 15) (s : State), ∃ t, exec (.debugAccess (.runBuf h)) s = .next t ∧ t = (if s.debugHalted h then
    runBuffer h s else s)) ∧
  (∀ (a : Word) (s : State), ∃ t, exec (.debugAccess (.readBus a)) s = .next t ∧ t = (if s.fuses.dbg.getLsbD 4
    then s else debugBusRead a s)) ∧
  (∀ (a v : Word) (s : State), ∃ t, exec (.debugAccess (.writeBus a v)) s = .next t ∧ t = (if
    s.fuses.dbg.getLsbD 4 then s else debugBusWrite a v s)) ∧
  (∀ (i : Fin 8) (v : Word) (s : State), ∃ t, exec (.debugAccess (.progBuf i v)) s = .next t ∧ t = (if
    s.fuses.dbg.getLsbD 4 then s else { s with app.clk.progBuf := s.app.clk.progBuf.set i v })) ∧
  (∀ (a : BitVec 7) (s : State), ∃ t, exec (.debugAccess (.dmiRead a)) s = .next t ∧ t = (if
    s.fuses.dbg.getLsbD 4 then s else dmiRead a.toNat s)) ∧
  (∀ (a : BitVec 7) (v : Word) (s : State), ∃ t, exec (.debugAccess (.dmiWrite a v)) s = .next t ∧ t = (if
    s.fuses.dbg.getLsbD 4 then s else dmiWrite a.toNat v s))

/-- A register write that its master may not make is a bus error and nothing else; any other is the write of its
register block: to the fuse read-out window a bus error and nothing else, to the Buckle, the Girth, the
performance counters, the pilots or Skiver that block's write, to a Green PHY channel window that channel's
write. A ready server closes its staged records, where there are any, into a batch with the next number, for
area A; a server that is not ready does nothing. While application logic runs, an operation done raises level
482; with an error also the edge 483, and nothing else. Where no compaction is in progress and the oldest batch
holds its grant, its records enter the area it names and it is next for area B, or, after B, out of the queue
and in both areas; without the grant nothing more happens. A compaction in progress that holds its grant ends
with its area rewritten. While the sealed die runs, a firmware read of an entry it may read is answered with
the part asked for, an index out of the die's ranges is ABSENT, a write of a role the fuses turn off is DENIED
and nothing else, and the operator may set the demand interval to 5, 10, 15, 30 or 60; a die that does not run
does nothing. In every case the answer is that of sealedRead or, where the parts sent make up a value, of
sealedWrite, and where they do not, that of staging. It rests also on the model's choices of assumption 59. -/
def Obligations.RegisterAndObjectAccess : Prop :=
  (∀ (p : Fin 24) (a v : Word) (s : State), s.regAllowed p a.toNat true = false → ∃ t, exec (.registerWrite p
    a v) s = .next t ∧ t = busFail s) ∧
  (∀ (p : Fin 24) (a v : Word) (s : State), s.regAllowed p a.toNat true = true → ∃ t, exec (.registerWrite p a
    v) s = .next t ∧ t = blockWrite p a.toNat v s) ∧
  (∀ (p : Fin 24) (a v : Word) (n o : Nat) (s : State), s.regAllowed p a.toNat true = true ∧ plcOf a.toNat =
    some (n, o) → ∃ t, exec (.registerWrite p a v) s = .next t ∧ t = plcWrite n o v s) ∧
  (∀ (p : Fin 24) (a v : Word) (s : State), s.regAllowed p a.toNat true = true ∧ plcOf a.toNat = none ∧
    a.toNat / 0x10000 = 0x1040 → ∃ t, exec (.registerWrite p a v) s = .next t ∧ t = busFail s) ∧
  (∀ (p : Fin 24) (a v : Word) (s : State), s.regAllowed p a.toNat true = true ∧ plcOf a.toNat = none ∧
    a.toNat / 0x10000 = 0x1000 → ∃ t, exec (.registerWrite p a v) s = .next t ∧ t = busOk 0 (bklWrite p
    (a.toNat % 0x10000) v s)) ∧
  (∀ (p : Fin 24) (a v : Word) (s : State), s.regAllowed p a.toNat true = true ∧ plcOf a.toNat = none ∧
    a.toNat / 0x10000 = 0x1003 → ∃ t, exec (.registerWrite p a v) s = .next t ∧ t = busOk 0 (grtWrite (a.toNat
    % 0x10000) v s)) ∧
  (∀ (p : Fin 24) (a v : Word) (s : State), s.regAllowed p a.toNat true = true ∧ plcOf a.toNat = none ∧
    a.toNat / 0x10000 = 0x1004 → ∃ t, exec (.registerWrite p a v) s = .next t ∧ t = busOk 0 (pmcWrite (a.toNat
    % 0x10000) v s)) ∧
  (∀ (p : Fin 24) (a v : Word) (s : State), s.regAllowed p a.toNat true = true ∧ plcOf a.toNat = none ∧
    a.toNat / 0x10000 = 0x1006 → ∃ t, exec (.registerWrite p a v) s = .next t ∧ t = busOk 0 (pilWrite (a.toNat
    % 0x10000) v s)) ∧
  (∀ (p : Fin 24) (a v : Word) (s : State), s.regAllowed p a.toNat true = true ∧ plcOf a.toNat = none ∧
    a.toNat / 0x10000 = 0x100A → ∃ t, exec (.registerWrite p a v) s = .next t ∧ t = busOk 0 (skvWrite (a.toNat
    % 0x10000) v s)) ∧
  (∀ (b : Bool) (s : State), s.app.server.ready = true ∧ s.app.journal.staged ≠ [] → ∃ t, exec
    (.journalBatchClose b) s = .next t ∧ t.app.journal.staged = [] ∧ t.flash.lastNo = s.flash.lastNo + 1 ∧
    t.app.journal.batches.map (fun b => (b.num, b.area)) = s.app.journal.batches.map (fun b => (b.num, b.area))
    ++ [(s.flash.lastNo + 1, 0)]) ∧
  (∀ (b : Bool) (s : State), s.app.server.ready = false → ∃ t, exec (.journalBatchClose b) s = .next t ∧ t = s) ∧
  (∀ (s : State), s.inReset = false → ∃ t, exec (.xspiOperationDone true) s = .next t ∧ t = raise 483
    (setLevel 482 true s)) ∧
  (∀ (b : Batch) (r : List Batch) (s : State), s.inReset = false ∧ s.app.journal.batches = b :: r ∧
    s.flashGrant b.ticket = true ∧ b.area = 0 ∧ s.app.journal.compact = none → ∃ t, exec (.xspiOperationDone
    false) s = .next t ∧ t.app.journal.batches.map (fun b => (b.num, b.area)) = (b.num, 1) :: r.map (fun b =>
    (b.num, b.area)) ∧ t.flash.a = b.recs.foldl (Area.put b.num) s.flash.a ∧ t.flash.both = s.flash.both) ∧
  (∀ (b : Batch) (r : List Batch) (s : State), s.inReset = false ∧ s.app.journal.batches = b :: r ∧
    s.flashGrant b.ticket = true ∧ b.area = 1 ∧ s.app.journal.compact = none → ∃ t, exec (.xspiOperationDone
    false) s = .next t ∧ t.app.journal.batches.map (fun b => (b.num, b.area)) = r.map (fun b => (b.num,
    b.area)) ∧ t.flash.b = b.recs.foldl (Area.put b.num) s.flash.b ∧ t.flash.both = b.num) ∧
  (∀ (b : Batch) (r : List Batch) (s : State), s.inReset = false ∧ s.app.journal.batches = b :: r ∧
    s.flashGrant b.ticket = false ∧ s.app.journal.compact = none → ∃ t, exec (.xspiOperationDone false) s =
    .next t ∧ t = setLevel 482 true s) ∧
  (∀ (a k : Nat) (s : State), s.inReset = false ∧ s.app.journal.compact = some (a, k) ∧ s.flashGrant k = true
    → ∃ t, exec (.xspiOperationDone false) s = .next t ∧ t.app.journal.batches.map (fun b => (b.num, b.area)) =
    s.app.journal.batches.map (fun b => (b.num, b.area)) ∧ t.flash =
    { (setArea a (s.area a).compacted s).flash with compactions := stick (2 ^ 32 - 1) s.flash.compactions 1 }) ∧
  (∀ (b : Bool) (s : State), s.inReset = true → ∃ t, exec (.xspiOperationDone b) s = .next t ∧ t = s) ∧
  (∀ (g : Word) (i : BitVec 16) (j : BitVec 8) (o l : Nat) (k : BitVec 64) (b : Obj) (s : State),
    s.die.running = true ∧ 0x5000 ≤ i.toNat ∧ i.toNat ≤ 0x5FFF ∧ i.toNat ≠ 0x5480 ∧ objSealed (s.elemDc
    i.toNat) i.toNat j.toNat = some b ∧ s.chanUnfit i.toNat j.toNat = false ∧ o ≤ (s.sealedValue .firmware
    i.toNat j.toNat).length → ∃ t, exec (.sealedObjectRead ⟨.firmware, g⟩ i j o l k) s = .next t ∧ t = objReply
    g 1 .ok i.toNat j.toNat o (s.sealedValue .firmware i.toNat j.toNat).length k.toNat (partOf (s.sealedValue
    .firmware i.toNat j.toNat) o l) s) ∧
  (∀ (q : Rq) (i : BitVec 16) (j : BitVec 8) (o l : Nat) (k : BitVec 64) (s : State), s.die.running = true ∧
    (i.toNat < 0x4000 ∨ 0x6000 ≤ i.toNat) → ∃ t, exec (.sealedObjectRead q i j o l k) s = .next t ∧ t =
    objReply q.tag 1 .absent i.toNat j.toNat o 0 k.toNat [] s) ∧
  (∀ (q : Rq) (i : BitVec 16) (j : BitVec 8) (o l : Nat) (k : BitVec 64) (c : Status) (v : List Byte) (u :
    State) (s : State), s.die.running = true ∧ sealedRead q.role i.toNat j.toNat k.toNat s = (c, v, u) → ∃ t,
    exec (.sealedObjectRead q i j o l k) s = .next t ∧ t = objReply q.tag 1 (if c = .ok && decide (v.length <
    o) then .range else c) i.toNat j.toNat o v.length k.toNat (if (if c = .ok && decide (v.length < o) then
    .range else c) = .ok then partOf v o l else []) u) ∧
  (∀ (q : Rq) (i : BitVec 16) (j : BitVec 8) (o l : Nat) (k : BitVec 64) (s : State), s.die.running = false →
    ∃ t, exec (.sealedObjectRead q i j o l k) s = .next t ∧ t = s) ∧
  (∀ (q : Rq) (i : BitVec 16) (j : BitVec 8) (o n : Nat) (d : List Byte) (s : State), s.die.running = false →
    ∃ t, exec (.sealedObjectWrite q i j o n d) s = .next t ∧ t = s) ∧
  (∀ (q : Rq) (i : BitVec 16) (j : BitVec 8) (o n : Nat) (d : List Byte) (s : State), s.die.running = true ∧
    s.dieRole q.role = false → ∃ t, exec (.sealedObjectWrite q i j o n d) s = .next t ∧ t = objReply q.tag 2
    .denied i.toNat j.toNat o d.length n [] s) ∧
  (∀ (q : Rq) (i : BitVec 16) (j : BitVec 8) (o n : Nat) (d v : List Byte) (u : State) (s : State),
    s.die.running = true ∧ s.dieRole q.role = true ∧ stagePart i.toNat j.toNat o n d s = (.ok, some v, u) → ∃
    t, exec (.sealedObjectWrite q i j o n d) s = .next t ∧ t = objReply q.tag 2 (sealedWrite q.role i.toNat
    j.toNat v u).1 i.toNat j.toNat o d.length n [] (sealedWrite q.role i.toNat j.toNat v u).2) ∧
  (∀ (q : Rq) (i : BitVec 16) (j : BitVec 8) (o n : Nat) (d : List Byte) (c : Status) (u : State) (s : State),
    s.die.running = true ∧ s.dieRole q.role = true ∧ stagePart i.toNat j.toNat o n d s = (c, none, u) → ∃ t,
    exec (.sealedObjectWrite q i j o n d) s = .next t ∧ t = objReply q.tag 2 c i.toNat j.toNat o d.length n []
    u) ∧
  (∀ (g : Word) (v : Byte) (s : State), s.die.running = true ∧ [5, 10, 15, 30, 60].contains v.toNat = true ∧
    s.dieRole .operator = true → ∃ t, exec (.sealedObjectWrite ⟨.operator, g⟩ 0x5480 1 0 1 [v]) s = .next t ∧
    t.sobj 0x5480 1 = [v])

/-- For every command and state, a step of the state with the command at the front of its queue is that command run
on the state with the rest of the queue. With an empty queue, a step is a tick of 1 ms: this second part is the
model's choice (assumption 2). -/
def Obligations.StepTakesTheFront : Prop :=
  (∀ (c : Instr) (rest : List Instr) (s : State), step { s with pending := c :: rest } = exec c { s with pending := rest }) ∧
  (∀ s : State, s.pending = [] → step s = .next (tick s))

/-- For every command, with any operands, and every state there is a next state that exec answers, and its queue is
the queue the command ran on: no command faults or is refused. -/
def Obligations.EveryCommandCompletes : Prop :=
  ∀ (i : Instr) (s : State), ∃ t, exec i s = .next t ∧ t.pending = s.pending

/-- For every command and state, where the command gives a next state, the queue of that state is the queue it ran
on. Where a step gives a next state, its queue is the tail of the queue it ran on. -/
def Obligations.QueueOnlyAdvances : Prop :=
  (∀ (i : Instr) (s t : State), exec i s = .next t → t.pending = s.pending) ∧
  (∀ s t : State, step s = .next t → t.pending = s.pending.tail)

/-- From every state, a command or a step that gives a next state leaves the fuses at most programmed further
(FuseLe): the identity, key and manufacture fields as they were, the decommission fuse set where it was set,
every debug-off, revocation and safety-digest bit that was programmed still programmed, and the lowest version
no lower. -/
def Obligations.FusesOnlyRise : Prop :=
  (∀ (i : Instr) (s t : State), exec i s = .next t → FuseLe s.fuses t.fuses) ∧
  (∀ s t : State, step s = .next t → FuseLe s.fuses t.fuses)

/-- In every state, a command outside the list Instr.writesDie that gives a next state leaves every piece of the
sealed die as it was. -/
def Obligations.SealedDieFrame : Prop :=
  ∀ (i : Instr) (s t : State), i.writesDie = false → exec i s = .next t → t.die = s.die

/-- In every state, a command outside the list Instr.writesBridle that gives a next state leaves every piece of the
Bridle as it was. -/
def Obligations.BridleFrame : Prop :=
  ∀ (i : Instr) (s t : State), i.writesBridle = false → exec i s = .next t → t.bridle = s.bridle

/-- A 1 written to PMC_SNAP.TAKE copies all 128 counters into the snapshot registers in the one command: each
snapshot register then reads as the value its counter had in the state the command ran on, whatever the
counters do afterwards, so values of a chain read from it belong together, whereas a live counter reads as its
value at the moment of that read. The counters themselves do not change. A 0 written to TAKE does nothing. -/
def Obligations.CounterSnapshot : Prop :=
  (∀ (v : Word) (s : State), bit v 0 = true → ∃ t, exec (.pmcSnapshot v) s = .next t ∧ t.app.pmc.cnt = s.app.pmc.cnt ∧
    (∀ i : Fin 128, t.app.pmc.snap.get i = s.app.pmc.cnt.get i) ∧
    (∀ (later : Bank Nat) (i : Fin 128),
      (pmcRead (0x600 + 4 * i) { t with app.pmc.cnt := later }).app.clk.busData = BitVec.ofNat 32 (s.app.pmc.cnt.get i) ∧
      (pmcRead (4 * i) { t with app.pmc.cnt := later }).app.clk.busData = BitVec.ofNat 32 (later.get i))) ∧
  (∀ (v : Word) (s : State), bit v 0 = false → exec (.pmcSnapshot v) s = .next s)

/-- On every hart and in every state mhartid reads the hart's number (0 to 3 on the Cantle cores, 4 on the
Stitcher, 5 to 12 on the Rein engines, 13 in the Tack room, 14 on the Bridle), mvendorid and marchid read 0,
and mimpid reads 0000_00A0h on stepping A0 and 0000_00B0h on stepping B0. All four exist on each hart, and
machine mode may read them. -/
def Obligations.IdentityRegisters : Prop :=
  ∀ (h : Fin 15) (s : State) (r : Hart), s.csrRead h 0xF14 = BitVec.ofNat 64 h ∧ s.csrRead h 0xF11 = 0 ∧ s.csrRead h 0xF12 = 0 ∧
    s.csrRead h 0xF13 = (if Config.stepping then 0xA0 else 0xB0) ∧
    (∀ c, c = 0xF11 ∨ c = 0xF12 ∨ c = 0xF13 ∨ c = 0xF14 →
      csrExists h c = true ∧ (r.priv = 3 → csrAllowed h r c = true))

/-- A start of a slot gives it the next generation: 1 after FFFFh, otherwise one more, and so never 0, which a slot
has only until its first start. A read or write of a session entry that carries the present handle of the slot
with a serial other than the slot's is refused with STALE, with no effect, once the entry exists, the transport
carries it and the role may use it. -/
def Obligations.RecurringGenerations : Prop :=
  (∀ (port : Fin 24) (e : Fin 8) (v : Word) (s : State), sesWriter port e = true →
    s.startStatus e (fld v 0 5) (fld v 8 6) (fld v 6 2) = .ok →
    ∃ t, exec (.sesStart port e v) s = .next t ∧ (t.app.ctx.get (32 * e + fld v 0 5)).gen ≠ 0 ∧
      ((s.app.ctx.get (32 * e + fld v 0 5)).gen = 0xFFFF → (t.app.ctx.get (32 * e + fld v 0 5)).gen = 1) ∧
      ((s.app.ctx.get (32 * e + fld v 0 5)).gen < 0xFFFF → (t.app.ctx.get (32 * e + fld v 0 5)).gen = (s.app.ctx.get (32 * e + fld v 0 5)).gen + 1)) ∧
  (∀ (s : State) (a : Asker) (idx sub slot : Nat) (o : Obj) (d : List Byte), s.entry idx sub = some o → s.carries a = true →
    isSession idx = true → slot = (idx - 0x4000) / 8 → a.handle = s.handleOf slot → a.serial ≠ s.serialOf slot →
    (granted o.rd a.role = true → serveRead a idx sub s = (.stale, [], s)) ∧
    (granted o.wr a.role = true → (o.latigo && overCan a.via) = false → serveWrite a idx sub d s = (.stale, s)))

/-- In every state, a command outside the list Instr.writesPower that gives a next state leaves every piece of the
power die as it was. -/
def Obligations.PowerDieFrame : Prop :=
  ∀ (i : Instr) (s t : State), i.writesPower = false → exec i s = .next t → t.power = s.power
end

