-- ==== Sys2Proof/Decode.lean ====
section
/-!
DEFINITION. The command a word spells by the table's bits. The KX9256 is a block: its commands come from
outside as events and accesses, and no row of spec/opcode_table.json gives bits, so no word spells one.
-/
set_option Elab.async false
namespace Sys2Proof

/-- No row of the table has bits: no word spells a command. -/
def decodeTableWord (_nbits _w : Nat) : Option Instr := none

end Sys2Proof
end

