-- ==== Sys2Proof/Laws/Bank.lean ====
section
/-!
SUPPORT. Laws of `Bank`: reading after writing, and the canonical form, which every operation keeps.
-/
set_option Elab.async false
set_option linter.all false
namespace Sys2Proof.Machine

theorem cellFind_put {α : Type} (l : List (Nat × α)) (k j : Nat) (v : α) :
    cellFind j (cellPut k v l) = if k = j then some v else cellFind j l := by
  induction l with
  | nil => simp [cellPut, cellFind]
  | cons c r ih =>
    obtain ⟨i, w⟩ := c
    unfold cellPut
    split
    · simp [cellFind]
    · split
      · rename_i h; subst h; simp only [cellFind]; split <;> rfl
      · rename_i h1 h2
        simp only [cellFind, ih]
        by_cases h : i = j <;> by_cases h' : k = j <;> simp [h, h']
        omega

theorem cellFind_drop {α : Type} (l : List (Nat × α)) (k j : Nat) :
    cellFind j (cellDrop k l) = if k = j then none else cellFind j l := by
  induction l with
  | nil => simp [cellDrop, cellFind]
  | cons c r ih =>
    obtain ⟨i, w⟩ := c
    simp only [cellDrop]
    split
    · rename_i h; subst h; rw [ih]; simp only [cellFind]; split <;> rfl
    · rename_i h1
      simp only [cellFind, ih]
      by_cases h : i = j <;> by_cases h' : k = j <;> simp [h, h']
      omega

/-- Reading after writing. -/
theorem Bank.get_set {α : Type} [DecidableEq α] (b : Bank α) (k j : Nat) (v : α) :
    (b.set k v).get j = if k = j then v else b.get j := by
  unfold Bank.set Bank.get
  split
  · rename_i h; simp only [cellFind_drop]; split <;> simp [h]
  · simp only [cellFind_put]; split <;> simp

@[simp] theorem Bank.get_set_same {α : Type} [DecidableEq α] (b : Bank α) (k : Nat) (v : α) :
    (b.set k v).get k = v := by simp [Bank.get_set]

theorem Bank.get_set_other {α : Type} [DecidableEq α] (b : Bank α) {k j : Nat} (v : α) (h : k ≠ j) :
    (b.set k v).get j = b.get j := by simp [Bank.get_set, h]

theorem Bank.get_upd {α : Type} [DecidableEq α] (b : Bank α) (k j : Nat) (f : α → α) :
    (b.upd k f).get j = if k = j then f (b.get j) else b.get j := by
  unfold Bank.upd; rw [Bank.get_set]; split <;> simp_all

@[simp] theorem Bank.get_upd_same {α : Type} [DecidableEq α] (b : Bank α) (k : Nat) (f : α → α) :
    (b.upd k f).get k = f (b.get k) := by simp [Bank.get_upd]

@[simp] theorem Bank.get_empty {α : Type} (d : α) (k : Nat) : (Bank.mk d []).get k = d := rfl

@[simp] theorem Bank.set_dflt {α : Type} [DecidableEq α] (b : Bank α) (k : Nat) (v : α) :
    (b.set k v).dflt = b.dflt := by unfold Bank.set; split <;> rfl

/-! ### The canonical form -/

theorem cellsSorted_put {α : Type} (l : List (Nat × α)) (k lo : Nat) (v : α) (h : lo ≤ k)
    (hs : cellsSorted lo l = true) : cellsSorted lo (cellPut k v l) = true := by
  induction l generalizing lo with
  | nil => simp [cellPut, cellsSorted, h]
  | cons c r ih =>
    obtain ⟨i, w⟩ := c
    simp only [cellsSorted, Bool.and_eq_true, decide_eq_true_eq] at hs
    unfold cellPut
    split
    · rename_i hk
      simp only [cellsSorted, Bool.and_eq_true, decide_eq_true_eq]
      exact ⟨h, by omega, hs.2⟩
    · split
      · rename_i hi
        subst hi
        simp only [cellsSorted, Bool.and_eq_true, decide_eq_true_eq]; exact ⟨h, hs.2⟩
      · simp only [cellsSorted, Bool.and_eq_true, decide_eq_true_eq]
        exact ⟨hs.1, ih (i + 1) (by omega) hs.2⟩

theorem cellsSorted_mono {α : Type} (l : List (Nat × α)) (lo lo' : Nat) (h : lo ≤ lo')
    (hs : cellsSorted lo' l = true) : cellsSorted lo l = true := by
  cases l with
  | nil => rfl
  | cons c r =>
    obtain ⟨i, w⟩ := c
    simp only [cellsSorted, Bool.and_eq_true, decide_eq_true_eq] at hs ⊢
    exact ⟨by omega, hs.2⟩

theorem cellsSorted_drop {α : Type} (l : List (Nat × α)) (k lo : Nat)
    (hs : cellsSorted lo l = true) : cellsSorted lo (cellDrop k l) = true := by
  induction l generalizing lo with
  | nil => rfl
  | cons c r ih =>
    obtain ⟨i, w⟩ := c
    simp only [cellsSorted, Bool.and_eq_true, decide_eq_true_eq] at hs
    simp only [cellDrop]
    split
    · exact ih lo (cellsSorted_mono r lo (i + 1) (by omega) hs.2)
    · simp only [cellsSorted, Bool.and_eq_true, decide_eq_true_eq]
      exact ⟨hs.1, ih (i + 1) hs.2⟩

theorem cellPut_all {α : Type} (p : Nat × α → Bool) (l : List (Nat × α)) (k : Nat) (v : α)
    (hv : p (k, v) = true) (h : l.all p = true) : (cellPut k v l).all p = true := by
  induction l with
  | nil => simp [cellPut, hv]
  | cons c r ih =>
    obtain ⟨i, w⟩ := c
    simp only [List.all_cons, Bool.and_eq_true] at h
    unfold cellPut
    split
    · simp [hv, h.1, h.2]
    · split
      · simp [hv, h.2]
      · simp [h.1, ih h.2]

theorem cellDrop_all {α : Type} (p : Nat × α → Bool) (l : List (Nat × α)) (k : Nat)
    (h : l.all p = true) : (cellDrop k l).all p = true := by
  induction l with
  | nil => rfl
  | cons c r ih =>
    obtain ⟨i, w⟩ := c
    simp only [List.all_cons, Bool.and_eq_true] at h
    simp only [cellDrop]
    split
    · exact ih h.2
    · simp [h.1, ih h.2]

/-- Every write keeps the canonical form. -/
theorem Bank.set_wf {α : Type} [DecidableEq α] (b : Bank α) (k : Nat) (v : α) (h : b.wf = true) :
    (b.set k v).wf = true := by
  unfold Bank.wf at h ⊢
  simp only [Bool.and_eq_true] at h
  unfold Bank.set
  split
  · simp only [Bool.and_eq_true]
    exact ⟨cellsSorted_drop _ _ _ h.1, cellDrop_all _ _ _ h.2⟩
  · rename_i hv
    simp only [Bool.and_eq_true]
    exact ⟨cellsSorted_put _ _ _ _ (Nat.zero_le _) h.1, cellPut_all _ _ _ _ (by simp [hv]) h.2⟩

theorem Bank.upd_wf {α : Type} [DecidableEq α] (b : Bank α) (k : Nat) (f : α → α) (h : b.wf = true) :
    (b.upd k f).wf = true := Bank.set_wf b k _ h

theorem Bank.updAll_wf {α : Type} [DecidableEq α] (b : Bank α) (ks : List Nat) (f : Nat → α → α)
    (h : b.wf = true) : (b.updAll ks f).wf = true := by
  unfold Bank.updAll
  induction ks generalizing b with
  | nil => exact h
  | cons k r ih => exact ih _ (Bank.upd_wf b k _ h)

theorem Bank.get_updAll {α : Type} [DecidableEq α] (ks : List Nat) (hk : ks.Nodup) (b : Bank α) (j : Nat)
    (f : Nat → α → α) : (b.updAll ks f).get j = if j ∈ ks then f j (b.get j) else b.get j := by
  unfold Bank.updAll
  induction ks generalizing b with
  | nil => simp
  | cons k r ih =>
    rw [List.nodup_cons] at hk
    simp only [List.foldl_cons, ih hk.2, Bank.get_upd, List.mem_cons]
    by_cases h : k = j
    · subst h; simp [hk.1]
    · simp [h, Ne.symm h]

/-- Reading after a change of the entries 0 to n − 1. -/
theorem Bank.get_updRange {α : Type} [DecidableEq α] (b : Bank α) (n j : Nat) (f : Nat → α → α) :
    (b.updRange n f).get j = if j < n then f j (b.get j) else b.get j := by
  unfold Bank.updRange
  rw [Bank.get_updAll _ List.nodup_range]
  simp

end Sys2Proof.Machine
end

