-- ==== Sys2Proof/Laws/Shared.lean ====
section
/-!
SUPPORT. What the shared operations can change: one lemma says all of it as an equation, and a second
gives, as simp rules, the parts of the state that stay.
-/
set_option Elab.async false
set_option linter.all false
namespace Sys2Proof.Machine

/-- A fold of steps each of which only replaces a part of the state replaces only that part. -/
theorem foldl_part {α β : Type} (put : β → State → State) (g : State → α → State)
    (h0 : ∀ s, ∃ b, s = put b s) (h2 : ∀ b c s, put b (put c s) = put b s)
    (h1 : ∀ s a, ∃ b, g s a = put b s) (l : List α) (s : State) : ∃ b, l.foldl g s = put b s := by
  induction l generalizing s with
  | nil => exact h0 s
  | cons a r ih =>
    obtain ⟨b, hb⟩ := h1 s a
    obtain ⟨c, hc⟩ := ih (g s a)
    exact ⟨c, by rw [List.foldl_cons, hc, hb, h2]⟩

/-- A fold whose step at `a` makes `P a` true, and no step unmakes it, makes it true for every entry. -/
theorem foldl_each {α : Type} (g : State → α → State) (P : α → State → Prop)
    (keep : ∀ a b s, P b s → P b (g s a)) (mk : ∀ a s, P a (g s a)) (l : List α) (s : State) :
    ∀ a ∈ l, P a (l.foldl g s) := by
  have stay : ∀ (l : List α) (s : State) (a : α), P a s → P a (l.foldl g s) := by
    intro l
    induction l with
    | nil => intro s a h; exact h
    | cons b r ih => intro s a h; exact ih _ _ (keep b a s h)
  induction l generalizing s with
  | nil => intro a h; simp at h
  | cons b r ih =>
    intro a h
    rcases List.mem_cons.mp h with e | e
    · subst e; exact stay r _ _ (mk a s)
    · exact ih _ a e

/-- A property that every step keeps is kept by the fold. -/
theorem foldl_keep {α : Type} (g : State → α → State) (P : State → Prop)
    (keep : ∀ a s, P s → P (g s a)) (l : List α) (s : State) (h : P s) : P (l.foldl g s) := by
  induction l generalizing s with
  | nil => exact h
  | cons a r ih => exact ih _ (keep a s h)

/-! ### Sources and counters (05 R108, R118) -/

/-- Replacing the Buckle and the performance counters. -/
def putEvents (x : Buckle × Pmc) (s : State) : State := { s with app.bkl := x.1, app.pmc := x.2 }

theorem putEvents_self (s : State) : s = putEvents (s.app.bkl, s.app.pmc) s := rfl

theorem pmcAdd_eq (n i k : Nat) (s : State) : ∃ x, pmcAdd n i k s = putEvents x s := by
  induction n generalizing i k s with
  | zero => exact ⟨_, putEvents_self s⟩
  | succ n ih =>
    simp only [pmcAdd]
    split
    · exact ⟨(s.app.bkl, _), rfl⟩
    · split
      · obtain ⟨x, hx⟩ := ih (i + 1) ((s.app.pmc.cnt.get i + k) / 2 ^ 32)
          { s with app.pmc.cnt := s.app.pmc.cnt.set i ((s.app.pmc.cnt.get i + k) % 2 ^ 32) }
        exact ⟨x, hx⟩
      · split
        · obtain ⟨x, hx⟩ := foldl_part putEvents _ (fun t => ⟨_, putEvents_self t⟩) (fun _ _ _ => rfl)
            (fun t j => ih j 1 t) _ _
          exact ⟨x, hx⟩
        · exact ⟨(_, _), rfl⟩

/-- Counting an event changes only the Buckle's source 500 and the counters. -/
theorem countEvents_eq (group idx k : Nat) (s : State) : ∃ x, countEvents group idx k s = putEvents x s := by
  unfold countEvents
  exact foldl_part putEvents _ (fun t => ⟨_, putEvents_self t⟩) (fun _ _ _ => rfl)
    (fun t i => pmcAdd_eq _ _ _ t) _ s

/-- An edge on a source changes only the Buckle and, when it merges, the counters. -/
theorem raise_eq (n : Nat) (s : State) : ∃ x, raise n s = putEvents x s := by
  unfold raise
  split
  · exact ⟨_, putEvents_self s⟩
  · dsimp only
    split
    · obtain ⟨x, hx⟩ := countEvents_eq 5 1 1 (s.updSrc n (edgeLatch s.gated))
      exact ⟨x, hx⟩
    · exact ⟨(_, _), rfl⟩

/-- A level at a source changes only the Buckle. -/
theorem setLevel_eq (n : Nat) (b : Bool) (s : State) : ∃ x, setLevel n b s = { s with app.bkl := x } := by
  unfold setLevel
  split
  · exact ⟨s.app.bkl, rfl⟩
  · exact ⟨_, rfl⟩

/-- An event of the power die changes the Buckle, the counters and the count of free values. -/
theorem laneRaise_eq (n : Nat) (s : State) :
    ∃ (x : Buckle × Pmc) (k : Nat), laneRaise n s = { s with app.bkl := x.1, app.pmc := x.2, fresh := k } := by
  unfold laneRaise
  split
  · split
    · obtain ⟨x, hx⟩ := raise_eq n s.used; exact ⟨x, _, hx⟩
    · exact ⟨(s.app.bkl, s.app.pmc), s.fresh + 1, rfl⟩
  · obtain ⟨x, hx⟩ := raise_eq n s; exact ⟨x, s.fresh, hx⟩

/-! ### Memory (05 R104) and contexts (09 R193) -/

theorem setBytes_eq (l : List Byte) (a : Nat) (s : State) : ∃ m, s.setBytes a l = { s with app.mem := m } := by
  induction l generalizing a s with
  | nil => exact ⟨s.app.mem, rfl⟩
  | cons b r ih => obtain ⟨m, hm⟩ := ih (a + 1) (s.setByte a b); exact ⟨m, hm⟩

theorem syncCtx_eq (slot : Nat) (s : State) : ∃ m, syncCtx slot s = { s with app.mem := m } := by
  unfold syncCtx
  exact foldl_part (fun m (t : State) => { t with app.mem := m }) _ (fun t => ⟨t.app.mem, rfl⟩)
    (fun _ _ _ => rfl) (fun t x => setBytes_eq _ _ t) _ s

theorem postClass_eq (slot k : Nat) (s : State) :
    ∃ m c, postClass slot k s = { s with app.mem := m, app.ctx := c } := by
  unfold postClass
  split
  · exact ⟨s.app.mem, s.app.ctx, rfl⟩
  · obtain ⟨m, hm⟩ := syncCtx_eq slot (s.updCtx slot (pendClass k)); exact ⟨m, _, hm⟩

/-! ### Girth (04 R91) -/

theorem girthEnd_eq (f : GirthReq → Bool) (part : Bool) (s : State) :
    ∃ g, girthEnd f part s = { s with app.girth := g } := by
  unfold girthEnd
  obtain ⟨g, hg⟩ := foldl_part (fun g (t : State) => { t with app.girth := g })
    (fun t (g : GirthReq) => { t with app.girth.ports := t.app.girth.ports.upd g.port fun r =>
        if g.ticket ≠ 0 && r.ticket = g.ticket then { r with state := 3 } else r })
    (fun t => ⟨t.app.girth, rfl⟩) (fun _ _ _ => rfl) (fun _ _ => ⟨_, rfl⟩) _ _
  exact ⟨g, hg⟩

theorem girthWithdraw_eq (f : GirthReq → Bool) (s : State) :
    ∃ g, girthWithdraw f s = { s with app.girth := g } := by
  unfold girthWithdraw
  refine foldl_part (fun g (t : State) => { t with app.girth := g }) _ (fun t => ⟨t.app.girth, rfl⟩)
    (fun _ _ _ => rfl) (fun t c => ?_) _ s
  obtain ⟨g, hg⟩ := foldl_part (fun g (t : State) => { t with app.girth := g })
    (fun u (g : GirthReq) => { u with app.girth.ports := u.app.girth.ports.upd g.port fun r =>
          if r.ticket = g.ticket then { r with state := 3 } else r })
    (fun t => ⟨t.app.girth, rfl⟩) (fun _ _ _ => rfl) (fun _ _ => ⟨_, rfl⟩)
    ((t.app.girth.queue.get c).filter f)
    { t with app.girth.queue := t.app.girth.queue.set c ((t.app.girth.queue.get c).filter fun r => !f r) }
  exact ⟨g, hg⟩

/-! ### What stays -/

@[simp] theorem countEvents_same (g i k : Nat) (s : State) :
    (countEvents g i k s).app.clk = s.app.clk ∧ (countEvents g i k s).app.mbx = s.app.mbx ∧
    (countEvents g i k s).app.hrn = s.app.hrn ∧ (countEvents g i k s).app.girth = s.app.girth ∧
    (countEvents g i k s).app.harts = s.app.harts ∧ (countEvents g i k s).app.mem = s.app.mem ∧
    (countEvents g i k s).app.lane = s.app.lane ∧ (countEvents g i k s).app.link = s.app.link ∧
    (countEvents g i k s).app.sl = s.app.sl ∧ (countEvents g i k s).app.eng = s.app.eng ∧
    (countEvents g i k s).app.ctx = s.app.ctx ∧ (countEvents g i k s).app.plc = s.app.plc ∧
    (countEvents g i k s).app.veh = s.app.veh ∧ (countEvents g i k s).app.server = s.app.server ∧
    (countEvents g i k s).app.journal = s.app.journal ∧ (countEvents g i k s).app.incoh = s.app.incoh ∧
    (countEvents g i k s).app.tack = s.app.tack ∧ (countEvents g i k s).cold = s.cold ∧
    (countEvents g i k s).coldMr = s.coldMr ∧ (countEvents g i k s).trial = s.trial ∧
    (countEvents g i k s).bridle = s.bridle ∧ (countEvents g i k s).power = s.power ∧
    (countEvents g i k s).die = s.die ∧ (countEvents g i k s).fuses = s.fuses ∧
    (countEvents g i k s).obj = s.obj ∧ (countEvents g i k s).flash = s.flash ∧
    (countEvents g i k s).sec = s.sec ∧ (countEvents g i k s).fresh = s.fresh ∧
    (countEvents g i k s).pending = s.pending := by
  obtain ⟨x, h⟩ := countEvents_eq g i k s; simp [h, putEvents]

@[simp] theorem raise_same (n : Nat) (s : State) :
    (raise n s).app.clk = s.app.clk ∧ (raise n s).app.mbx = s.app.mbx ∧
    (raise n s).app.hrn = s.app.hrn ∧ (raise n s).app.girth = s.app.girth ∧
    (raise n s).app.harts = s.app.harts ∧ (raise n s).app.mem = s.app.mem ∧
    (raise n s).app.lane = s.app.lane ∧ (raise n s).app.link = s.app.link ∧
    (raise n s).app.sl = s.app.sl ∧ (raise n s).app.eng = s.app.eng ∧
    (raise n s).app.ctx = s.app.ctx ∧ (raise n s).app.plc = s.app.plc ∧
    (raise n s).app.veh = s.app.veh ∧ (raise n s).app.server = s.app.server ∧
    (raise n s).app.journal = s.app.journal ∧ (raise n s).app.incoh = s.app.incoh ∧ (raise n s).app.tack = s.app.tack ∧
    (raise n s).cold = s.cold ∧ (raise n s).coldMr = s.coldMr ∧ (raise n s).trial = s.trial ∧
    (raise n s).bridle = s.bridle ∧ (raise n s).power = s.power ∧ (raise n s).die = s.die ∧
    (raise n s).fuses = s.fuses ∧ (raise n s).obj = s.obj ∧ (raise n s).flash = s.flash ∧
    (raise n s).sec = s.sec ∧ (raise n s).fresh = s.fresh ∧ (raise n s).pending = s.pending := by
  obtain ⟨x, h⟩ := raise_eq n s; simp [h, putEvents]

@[simp] theorem setLevel_same (n : Nat) (b : Bool) (s : State) :
    (setLevel n b s).app.clk = s.app.clk ∧ (setLevel n b s).app.mbx = s.app.mbx ∧
    (setLevel n b s).app.pmc = s.app.pmc ∧ (setLevel n b s).app.hrn = s.app.hrn ∧
    (setLevel n b s).app.girth = s.app.girth ∧ (setLevel n b s).app.harts = s.app.harts ∧
    (setLevel n b s).app.mem = s.app.mem ∧ (setLevel n b s).app.lane = s.app.lane ∧
    (setLevel n b s).app.link = s.app.link ∧ (setLevel n b s).app.sl = s.app.sl ∧
    (setLevel n b s).app.eng = s.app.eng ∧ (setLevel n b s).app.ctx = s.app.ctx ∧
    (setLevel n b s).app.plc = s.app.plc ∧ (setLevel n b s).app.veh = s.app.veh ∧
    (setLevel n b s).app.server = s.app.server ∧ (setLevel n b s).app.journal = s.app.journal ∧ (setLevel n b s).app.incoh = s.app.incoh ∧
    (setLevel n b s).app.tack = s.app.tack ∧ (setLevel n b s).cold = s.cold ∧
    (setLevel n b s).coldMr = s.coldMr ∧ (setLevel n b s).trial = s.trial ∧
    (setLevel n b s).bridle = s.bridle ∧ (setLevel n b s).power = s.power ∧
    (setLevel n b s).die = s.die ∧ (setLevel n b s).fuses = s.fuses ∧
    (setLevel n b s).obj = s.obj ∧ (setLevel n b s).flash = s.flash ∧
    (setLevel n b s).sec = s.sec ∧ (setLevel n b s).fresh = s.fresh ∧
    (setLevel n b s).pending = s.pending := by
  obtain ⟨x, h⟩ := setLevel_eq n b s; simp [h]

@[simp] theorem laneRaise_same (n : Nat) (s : State) :
    (laneRaise n s).app.clk = s.app.clk ∧ (laneRaise n s).app.mbx = s.app.mbx ∧
    (laneRaise n s).app.hrn = s.app.hrn ∧ (laneRaise n s).app.girth = s.app.girth ∧
    (laneRaise n s).app.harts = s.app.harts ∧ (laneRaise n s).app.mem = s.app.mem ∧
    (laneRaise n s).app.lane = s.app.lane ∧ (laneRaise n s).app.link = s.app.link ∧
    (laneRaise n s).app.sl = s.app.sl ∧ (laneRaise n s).app.eng = s.app.eng ∧
    (laneRaise n s).app.ctx = s.app.ctx ∧ (laneRaise n s).app.plc = s.app.plc ∧
    (laneRaise n s).app.veh = s.app.veh ∧ (laneRaise n s).app.server = s.app.server ∧
    (laneRaise n s).app.journal = s.app.journal ∧ (laneRaise n s).app.incoh = s.app.incoh ∧ (laneRaise n s).app.tack = s.app.tack ∧
    (laneRaise n s).cold = s.cold ∧ (laneRaise n s).coldMr = s.coldMr ∧
    (laneRaise n s).trial = s.trial ∧ (laneRaise n s).bridle = s.bridle ∧
    (laneRaise n s).power = s.power ∧ (laneRaise n s).die = s.die ∧
    (laneRaise n s).fuses = s.fuses ∧ (laneRaise n s).obj = s.obj ∧
    (laneRaise n s).flash = s.flash ∧ (laneRaise n s).sec = s.sec ∧
    (laneRaise n s).pending = s.pending := by
  obtain ⟨x, k, h⟩ := laneRaise_eq n s; simp [h]

@[simp] theorem setNum_same (a n v : Nat) (s : State) :
    (s.setNum a n v).app.clk = s.app.clk ∧ (s.setNum a n v).app.bkl = s.app.bkl ∧
    (s.setNum a n v).app.mbx = s.app.mbx ∧ (s.setNum a n v).app.pmc = s.app.pmc ∧
    (s.setNum a n v).app.hrn = s.app.hrn ∧ (s.setNum a n v).app.girth = s.app.girth ∧
    (s.setNum a n v).app.harts = s.app.harts ∧ (s.setNum a n v).app.lane = s.app.lane ∧
    (s.setNum a n v).app.link = s.app.link ∧ (s.setNum a n v).app.sl = s.app.sl ∧
    (s.setNum a n v).app.eng = s.app.eng ∧ (s.setNum a n v).app.ctx = s.app.ctx ∧
    (s.setNum a n v).app.plc = s.app.plc ∧ (s.setNum a n v).app.veh = s.app.veh ∧
    (s.setNum a n v).app.server = s.app.server ∧ (s.setNum a n v).app.journal = s.app.journal ∧ (s.setNum a n v).app.incoh = s.app.incoh ∧
    (s.setNum a n v).app.tack = s.app.tack ∧ (s.setNum a n v).cold = s.cold ∧
    (s.setNum a n v).coldMr = s.coldMr ∧ (s.setNum a n v).trial = s.trial ∧
    (s.setNum a n v).bridle = s.bridle ∧ (s.setNum a n v).power = s.power ∧
    (s.setNum a n v).die = s.die ∧ (s.setNum a n v).fuses = s.fuses ∧
    (s.setNum a n v).obj = s.obj ∧ (s.setNum a n v).flash = s.flash ∧
    (s.setNum a n v).sec = s.sec ∧ (s.setNum a n v).fresh = s.fresh ∧
    (s.setNum a n v).pending = s.pending := by
  obtain ⟨x, h⟩ := setBytes_eq (toLE n v) a s; simp [State.setNum, h]

@[simp] theorem syncCtx_same (k : Nat) (s : State) :
    (syncCtx k s).app.clk = s.app.clk ∧ (syncCtx k s).app.bkl = s.app.bkl ∧
    (syncCtx k s).app.mbx = s.app.mbx ∧ (syncCtx k s).app.pmc = s.app.pmc ∧
    (syncCtx k s).app.hrn = s.app.hrn ∧ (syncCtx k s).app.girth = s.app.girth ∧
    (syncCtx k s).app.harts = s.app.harts ∧ (syncCtx k s).app.lane = s.app.lane ∧
    (syncCtx k s).app.link = s.app.link ∧ (syncCtx k s).app.sl = s.app.sl ∧
    (syncCtx k s).app.eng = s.app.eng ∧ (syncCtx k s).app.ctx = s.app.ctx ∧
    (syncCtx k s).app.plc = s.app.plc ∧ (syncCtx k s).app.veh = s.app.veh ∧
    (syncCtx k s).app.server = s.app.server ∧ (syncCtx k s).app.journal = s.app.journal ∧ (syncCtx k s).app.incoh = s.app.incoh ∧
    (syncCtx k s).app.tack = s.app.tack ∧ (syncCtx k s).cold = s.cold ∧
    (syncCtx k s).coldMr = s.coldMr ∧ (syncCtx k s).trial = s.trial ∧
    (syncCtx k s).bridle = s.bridle ∧ (syncCtx k s).power = s.power ∧ (syncCtx k s).die = s.die ∧
    (syncCtx k s).fuses = s.fuses ∧ (syncCtx k s).obj = s.obj ∧ (syncCtx k s).flash = s.flash ∧
    (syncCtx k s).sec = s.sec ∧ (syncCtx k s).fresh = s.fresh ∧ (syncCtx k s).pending = s.pending := by
  obtain ⟨x, h⟩ := syncCtx_eq k s; simp [h]

@[simp] theorem postClass_same (k c : Nat) (s : State) :
    (postClass k c s).app.clk = s.app.clk ∧ (postClass k c s).app.bkl = s.app.bkl ∧
    (postClass k c s).app.mbx = s.app.mbx ∧ (postClass k c s).app.pmc = s.app.pmc ∧
    (postClass k c s).app.hrn = s.app.hrn ∧ (postClass k c s).app.girth = s.app.girth ∧
    (postClass k c s).app.harts = s.app.harts ∧ (postClass k c s).app.lane = s.app.lane ∧
    (postClass k c s).app.link = s.app.link ∧ (postClass k c s).app.sl = s.app.sl ∧
    (postClass k c s).app.eng = s.app.eng ∧ (postClass k c s).app.plc = s.app.plc ∧
    (postClass k c s).app.veh = s.app.veh ∧ (postClass k c s).app.server = s.app.server ∧
    (postClass k c s).app.journal = s.app.journal ∧ (postClass k c s).app.incoh = s.app.incoh ∧ (postClass k c s).app.tack = s.app.tack ∧
    (postClass k c s).cold = s.cold ∧ (postClass k c s).coldMr = s.coldMr ∧
    (postClass k c s).trial = s.trial ∧ (postClass k c s).bridle = s.bridle ∧
    (postClass k c s).power = s.power ∧ (postClass k c s).die = s.die ∧
    (postClass k c s).fuses = s.fuses ∧ (postClass k c s).obj = s.obj ∧
    (postClass k c s).flash = s.flash ∧ (postClass k c s).sec = s.sec ∧
    (postClass k c s).fresh = s.fresh ∧ (postClass k c s).pending = s.pending := by
  obtain ⟨x, c, h⟩ := postClass_eq k c s; simp [h]

@[simp] theorem girthEnd_same (f : GirthReq → Bool) (p : Bool) (s : State) :
    (girthEnd f p s).app.clk = s.app.clk ∧ (girthEnd f p s).app.bkl = s.app.bkl ∧
    (girthEnd f p s).app.mbx = s.app.mbx ∧ (girthEnd f p s).app.pmc = s.app.pmc ∧
    (girthEnd f p s).app.hrn = s.app.hrn ∧ (girthEnd f p s).app.harts = s.app.harts ∧
    (girthEnd f p s).app.mem = s.app.mem ∧ (girthEnd f p s).app.lane = s.app.lane ∧
    (girthEnd f p s).app.link = s.app.link ∧ (girthEnd f p s).app.sl = s.app.sl ∧
    (girthEnd f p s).app.eng = s.app.eng ∧ (girthEnd f p s).app.ctx = s.app.ctx ∧
    (girthEnd f p s).app.plc = s.app.plc ∧ (girthEnd f p s).app.veh = s.app.veh ∧
    (girthEnd f p s).app.server = s.app.server ∧ (girthEnd f p s).app.journal = s.app.journal ∧ (girthEnd f p s).app.incoh = s.app.incoh ∧
    (girthEnd f p s).app.tack = s.app.tack ∧ (girthEnd f p s).cold = s.cold ∧
    (girthEnd f p s).coldMr = s.coldMr ∧ (girthEnd f p s).trial = s.trial ∧
    (girthEnd f p s).bridle = s.bridle ∧ (girthEnd f p s).power = s.power ∧
    (girthEnd f p s).die = s.die ∧ (girthEnd f p s).fuses = s.fuses ∧
    (girthEnd f p s).obj = s.obj ∧ (girthEnd f p s).flash = s.flash ∧
    (girthEnd f p s).sec = s.sec ∧ (girthEnd f p s).fresh = s.fresh ∧
    (girthEnd f p s).pending = s.pending := by
  obtain ⟨x, h⟩ := girthEnd_eq f p s; simp [h]

@[simp] theorem girthWithdraw_same (f : GirthReq → Bool) (s : State) :
    (girthWithdraw f s).app.clk = s.app.clk ∧ (girthWithdraw f s).app.bkl = s.app.bkl ∧
    (girthWithdraw f s).app.mbx = s.app.mbx ∧ (girthWithdraw f s).app.pmc = s.app.pmc ∧
    (girthWithdraw f s).app.hrn = s.app.hrn ∧ (girthWithdraw f s).app.harts = s.app.harts ∧
    (girthWithdraw f s).app.mem = s.app.mem ∧ (girthWithdraw f s).app.lane = s.app.lane ∧
    (girthWithdraw f s).app.link = s.app.link ∧ (girthWithdraw f s).app.sl = s.app.sl ∧
    (girthWithdraw f s).app.eng = s.app.eng ∧ (girthWithdraw f s).app.ctx = s.app.ctx ∧
    (girthWithdraw f s).app.plc = s.app.plc ∧ (girthWithdraw f s).app.veh = s.app.veh ∧
    (girthWithdraw f s).app.server = s.app.server ∧
    (girthWithdraw f s).app.journal = s.app.journal ∧ (girthWithdraw f s).app.incoh = s.app.incoh ∧ (girthWithdraw f s).app.tack = s.app.tack ∧
    (girthWithdraw f s).cold = s.cold ∧ (girthWithdraw f s).coldMr = s.coldMr ∧
    (girthWithdraw f s).trial = s.trial ∧ (girthWithdraw f s).bridle = s.bridle ∧
    (girthWithdraw f s).power = s.power ∧ (girthWithdraw f s).die = s.die ∧
    (girthWithdraw f s).fuses = s.fuses ∧ (girthWithdraw f s).obj = s.obj ∧
    (girthWithdraw f s).flash = s.flash ∧ (girthWithdraw f s).sec = s.sec ∧
    (girthWithdraw f s).fresh = s.fresh ∧ (girthWithdraw f s).pending = s.pending := by
  obtain ⟨x, h⟩ := girthWithdraw_eq f s; simp [h]

@[simp] theorem busOk_same (v : Word) (s : State) :
    (busOk v s).app.bkl = s.app.bkl ∧ (busOk v s).app.mbx = s.app.mbx ∧
    (busOk v s).app.pmc = s.app.pmc ∧ (busOk v s).app.hrn = s.app.hrn ∧
    (busOk v s).app.girth = s.app.girth ∧ (busOk v s).app.harts = s.app.harts ∧
    (busOk v s).app.mem = s.app.mem ∧ (busOk v s).app.lane = s.app.lane ∧
    (busOk v s).app.link = s.app.link ∧ (busOk v s).app.sl = s.app.sl ∧
    (busOk v s).app.eng = s.app.eng ∧ (busOk v s).app.ctx = s.app.ctx ∧
    (busOk v s).app.plc = s.app.plc ∧ (busOk v s).app.veh = s.app.veh ∧
    (busOk v s).app.server = s.app.server ∧ (busOk v s).app.journal = s.app.journal ∧ (busOk v s).app.incoh = s.app.incoh ∧
    (busOk v s).app.tack = s.app.tack ∧ (busOk v s).cold = s.cold ∧ (busOk v s).coldMr = s.coldMr ∧
    (busOk v s).trial = s.trial ∧ (busOk v s).bridle = s.bridle ∧ (busOk v s).power = s.power ∧
    (busOk v s).die = s.die ∧ (busOk v s).fuses = s.fuses ∧ (busOk v s).obj = s.obj ∧
    (busOk v s).flash = s.flash ∧ (busOk v s).sec = s.sec ∧ (busOk v s).fresh = s.fresh ∧
    (busOk v s).pending = s.pending := by
  simp [busOk]

@[simp] theorem busFail_same (s : State) :
    (busFail s).app.bkl = s.app.bkl ∧ (busFail s).app.mbx = s.app.mbx ∧
    (busFail s).app.pmc = s.app.pmc ∧ (busFail s).app.hrn = s.app.hrn ∧
    (busFail s).app.girth = s.app.girth ∧ (busFail s).app.harts = s.app.harts ∧
    (busFail s).app.mem = s.app.mem ∧ (busFail s).app.lane = s.app.lane ∧
    (busFail s).app.link = s.app.link ∧ (busFail s).app.sl = s.app.sl ∧
    (busFail s).app.eng = s.app.eng ∧ (busFail s).app.ctx = s.app.ctx ∧
    (busFail s).app.plc = s.app.plc ∧ (busFail s).app.veh = s.app.veh ∧
    (busFail s).app.server = s.app.server ∧ (busFail s).app.journal = s.app.journal ∧ (busFail s).app.incoh = s.app.incoh ∧
    (busFail s).app.tack = s.app.tack ∧ (busFail s).cold = s.cold ∧ (busFail s).coldMr = s.coldMr ∧
    (busFail s).trial = s.trial ∧ (busFail s).bridle = s.bridle ∧ (busFail s).power = s.power ∧
    (busFail s).die = s.die ∧ (busFail s).fuses = s.fuses ∧ (busFail s).obj = s.obj ∧
    (busFail s).flash = s.flash ∧ (busFail s).sec = s.sec ∧ (busFail s).fresh = s.fresh ∧
    (busFail s).pending = s.pending := by
  simp [busFail]

end Sys2Proof.Machine
end

