-- ==== Sys2Proof/Laws/Power.lean ====
section
/-!
SUPPORT. Laws of the output channels and pilots of the power die: reading one after a change of another,
and what the shared operations leave.
-/
set_option Elab.async false
set_option linter.all false
namespace Sys2Proof.Machine

theorem out_updOut (s : State) (x y : Nat) (f : Output → Output) :
    (s.updOut x f).out y = if x = y then f (s.out y) else s.out y := by
  unfold State.updOut State.out
  by_cases hx : x < 64 <;> by_cases hy : y < 64 <;> simp only [hx, hy, if_true, if_false]
  · rw [Bank.get_upd]
  · rw [if_neg (by omega)]
  · rw [if_neg (by omega)]
  · rw [Bank.get_upd]
    by_cases h : x = y
    · simp [h]
    · rw [if_neg h, if_neg (by omega)]

@[simp] theorem out_updOut_same (s : State) (x : Nat) (f : Output → Output) :
    (s.updOut x f).out x = f (s.out x) := by simp [out_updOut]

@[simp] theorem pil_updPil_same (s : State) (p : Nat) (f : PilotPt → PilotPt) :
    (s.updPil p f).pil p = f (s.pil p) := by simp [State.updPil, State.pil]

theorem pil_updPil (s : State) (p q : Nat) (f : PilotPt → PilotPt) :
    (s.updPil p f).pil q = if p = q then f (s.pil q) else s.pil q := by
  simp [State.updPil, State.pil, Bank.get_upd]

/-- A state with the same power die shows the same channels. -/
theorem out_congr {s t : State} (h : s.power = t.power) (x : Nat) : s.out x = t.out x := by
  unfold State.out; rw [h]

theorem pil_congr {s t : State} (h : s.power = t.power) (p : Nat) : s.pil p = t.pil p := by
  unfold State.pil; rw [h]

@[simp] theorem laneRaise_out (n : Nat) (s : State) (x : Nat) : (laneRaise n s).out x = s.out x :=
  out_congr (by simp) x

@[simp] theorem laneRaise_pil (n : Nat) (s : State) (p : Nat) : (laneRaise n s).pil p = s.pil p :=
  pil_congr (by simp) p

@[simp] theorem girthEnd_out (f : GirthReq → Bool) (b : Bool) (s : State) (x : Nat) :
    (girthEnd f b s).out x = s.out x := out_congr (by simp) x

@[simp] theorem girthWithdraw_out (f : GirthReq → Bool) (s : State) (x : Nat) :
    (girthWithdraw f s).out x = s.out x := out_congr (by simp) x

@[simp] theorem busOk_out (v : Word) (s : State) (x : Nat) : (busOk v s).out x = s.out x := rfl

@[simp] theorem busOk_pil (v : Word) (s : State) (p : Nat) : (busOk v s).pil p = s.pil p := rfl

/-- A write to the power-die window while both lanes are up (01 R444, 03 R66). -/
theorem powerWrite_ok (f : State → State) (s : State) (h : s.app.lane.fault = false) (h' : s.power.clkOk = true) :
    powerWrite f s = busOk 0 (f s) := by simp [powerWrite, h, h']

/-- An event bit changes only OUT_EVT of its channel. -/
theorem outEvt_out (x i : Nat) (s : State) (y : Nat) :
    (outEvt x i s).out y = if x = y ∧ bit (s.out x).evt i = false then
      { s.out y with evt := setEvt (s.out y).evt i } else s.out y := by
  unfold outEvt
  split
  · rename_i h; simp [h]
  · rename_i h
    simp only [laneRaise_out, out_updOut]
    by_cases e : x = y <;> simp [e]
    subst e; simp_all

/-- Leaving the switched-on states changes the state, the queued restart and the pull-in of that channel only. -/
theorem outTo_out (x : Nat) (st : OutSt) (s : State) (y : Nat) :
    (outTo x st s).out y = if x = y then { s.out y with st := st, restartQ := false, pulling := false } else s.out y := by
  simp only [outTo, withdrawRestart, girthWithdraw_out, out_updOut]

/-! ### What stays -/

@[simp] theorem updOut_same (x : Nat) (f : Output → Output) (s : State) :
    (s.updOut x f).app.clk = s.app.clk ∧ (s.updOut x f).app.bkl = s.app.bkl ∧
    (s.updOut x f).app.mbx = s.app.mbx ∧ (s.updOut x f).app.pmc = s.app.pmc ∧
    (s.updOut x f).app.hrn = s.app.hrn ∧ (s.updOut x f).app.girth = s.app.girth ∧
    (s.updOut x f).app.harts = s.app.harts ∧ (s.updOut x f).app.mem = s.app.mem ∧
    (s.updOut x f).app.lane = s.app.lane ∧ (s.updOut x f).app.link = s.app.link ∧
    (s.updOut x f).app.sl = s.app.sl ∧ (s.updOut x f).app.eng = s.app.eng ∧
    (s.updOut x f).app.ctx = s.app.ctx ∧ (s.updOut x f).app.plc = s.app.plc ∧
    (s.updOut x f).app.veh = s.app.veh ∧ (s.updOut x f).app.server = s.app.server ∧
    (s.updOut x f).app.journal = s.app.journal ∧ (s.updOut x f).app.tack = s.app.tack ∧
    (s.updOut x f).cold = s.cold ∧ (s.updOut x f).coldMr = s.coldMr ∧
    (s.updOut x f).trial = s.trial ∧ (s.updOut x f).bridle = s.bridle ∧
    (s.updOut x f).power.safe = s.power.safe ∧ (s.updOut x f).power.clkOk = s.power.clkOk ∧
    (s.updOut x f).power.report = s.power.report ∧ (s.updOut x f).power.hbRun = s.power.hbRun ∧
    (s.updOut x f).power.vload = s.power.vload ∧ (s.updOut x f).power.vpilp = s.power.vpilp ∧
    (s.updOut x f).power.vpiln = s.power.vpiln ∧ (s.updOut x f).power.vdrv = s.power.vdrv ∧
    (s.updOut x f).power.pfin = s.power.pfin ∧ (s.updOut x f).power.pilots = s.power.pilots ∧
    (s.updOut x f).power.trimmed = s.power.trimmed ∧ (s.updOut x f).power.period = s.power.period ∧
    (s.updOut x f).power.pilRebuilt = s.power.pilRebuilt ∧
    (s.updOut x f).power.tsLatch = s.power.tsLatch ∧
    (s.updOut x f).power.protLock = s.power.protLock ∧
    (s.updOut x f).power.retryWin = s.power.retryWin ∧
    (s.updOut x f).power.retryMax = s.power.retryMax ∧ (s.updOut x f).power.test = s.power.test ∧
    (s.updOut x f).power.run = s.power.run ∧ (s.updOut x f).power.qtemp = s.power.qtemp ∧
    (s.updOut x f).power.qband = s.power.qband ∧ (s.updOut x f).power.qchg = s.power.qchg ∧
    (s.updOut x f).power.sum = s.power.sum ∧ (s.updOut x f).power.sumOver = s.power.sumOver ∧
    (s.updOut x f).power.rc = s.power.rc ∧ (s.updOut x f).power.im = s.power.im ∧
    (s.updOut x f).power.sto = s.power.sto ∧ (s.updOut x f).power.seq = s.power.seq ∧
    (s.updOut x f).power.seqPerm = s.power.seqPerm ∧
    (s.updOut x f).power.seqProx = s.power.seqProx ∧ (s.updOut x f).power.psq = s.power.psq ∧
    (s.updOut x f).power.psqDue = s.power.psqDue ∧ (s.updOut x f).power.fields = s.power.fields ∧
    (s.updOut x f).power.lines = s.power.lines ∧ (s.updOut x f).power.readers = s.power.readers ∧
    (s.updOut x f).power.tags = s.power.tags ∧ (s.updOut x f).die = s.die ∧
    (s.updOut x f).fuses = s.fuses ∧ (s.updOut x f).obj = s.obj ∧ (s.updOut x f).flash = s.flash ∧
    (s.updOut x f).sec = s.sec ∧ (s.updOut x f).fresh = s.fresh ∧ (s.updOut x f).pending = s.pending := by
  unfold State.updOut; split <;> simp

@[simp] theorem outEvt_same (x i : Nat) (s : State) :
    (outEvt x i s).app.clk = s.app.clk ∧ (outEvt x i s).app.mbx = s.app.mbx ∧
    (outEvt x i s).app.hrn = s.app.hrn ∧ (outEvt x i s).app.girth = s.app.girth ∧
    (outEvt x i s).app.harts = s.app.harts ∧ (outEvt x i s).app.mem = s.app.mem ∧
    (outEvt x i s).app.lane = s.app.lane ∧ (outEvt x i s).app.link = s.app.link ∧
    (outEvt x i s).app.sl = s.app.sl ∧ (outEvt x i s).app.eng = s.app.eng ∧
    (outEvt x i s).app.ctx = s.app.ctx ∧ (outEvt x i s).app.plc = s.app.plc ∧
    (outEvt x i s).app.veh = s.app.veh ∧ (outEvt x i s).app.server = s.app.server ∧
    (outEvt x i s).app.journal = s.app.journal ∧ (outEvt x i s).app.tack = s.app.tack ∧
    (outEvt x i s).cold = s.cold ∧ (outEvt x i s).coldMr = s.coldMr ∧
    (outEvt x i s).trial = s.trial ∧ (outEvt x i s).bridle = s.bridle ∧
    (outEvt x i s).power.safe = s.power.safe ∧ (outEvt x i s).power.clkOk = s.power.clkOk ∧
    (outEvt x i s).power.report = s.power.report ∧ (outEvt x i s).power.hbRun = s.power.hbRun ∧
    (outEvt x i s).power.vload = s.power.vload ∧ (outEvt x i s).power.vpilp = s.power.vpilp ∧
    (outEvt x i s).power.vpiln = s.power.vpiln ∧ (outEvt x i s).power.vdrv = s.power.vdrv ∧
    (outEvt x i s).power.pfin = s.power.pfin ∧ (outEvt x i s).power.pilots = s.power.pilots ∧
    (outEvt x i s).power.trimmed = s.power.trimmed ∧ (outEvt x i s).power.period = s.power.period ∧
    (outEvt x i s).power.pilRebuilt = s.power.pilRebuilt ∧
    (outEvt x i s).power.tsLatch = s.power.tsLatch ∧
    (outEvt x i s).power.protLock = s.power.protLock ∧
    (outEvt x i s).power.retryWin = s.power.retryWin ∧
    (outEvt x i s).power.retryMax = s.power.retryMax ∧ (outEvt x i s).power.test = s.power.test ∧
    (outEvt x i s).power.run = s.power.run ∧ (outEvt x i s).power.qtemp = s.power.qtemp ∧
    (outEvt x i s).power.qband = s.power.qband ∧ (outEvt x i s).power.qchg = s.power.qchg ∧
    (outEvt x i s).power.sum = s.power.sum ∧ (outEvt x i s).power.sumOver = s.power.sumOver ∧
    (outEvt x i s).power.rc = s.power.rc ∧ (outEvt x i s).power.im = s.power.im ∧
    (outEvt x i s).power.sto = s.power.sto ∧ (outEvt x i s).power.seq = s.power.seq ∧
    (outEvt x i s).power.seqPerm = s.power.seqPerm ∧
    (outEvt x i s).power.seqProx = s.power.seqProx ∧ (outEvt x i s).power.psq = s.power.psq ∧
    (outEvt x i s).power.psqDue = s.power.psqDue ∧ (outEvt x i s).power.fields = s.power.fields ∧
    (outEvt x i s).power.lines = s.power.lines ∧ (outEvt x i s).power.readers = s.power.readers ∧
    (outEvt x i s).power.tags = s.power.tags ∧ (outEvt x i s).die = s.die ∧
    (outEvt x i s).fuses = s.fuses ∧ (outEvt x i s).obj = s.obj ∧ (outEvt x i s).flash = s.flash ∧
    (outEvt x i s).sec = s.sec ∧ (outEvt x i s).pending = s.pending := by
  unfold outEvt; split <;> simp

@[simp] theorem outTo_same (x : Nat) (st : OutSt) (s : State) :
    (outTo x st s).app.clk = s.app.clk ∧ (outTo x st s).app.bkl = s.app.bkl ∧
    (outTo x st s).app.mbx = s.app.mbx ∧ (outTo x st s).app.pmc = s.app.pmc ∧
    (outTo x st s).app.hrn = s.app.hrn ∧ (outTo x st s).app.harts = s.app.harts ∧
    (outTo x st s).app.mem = s.app.mem ∧ (outTo x st s).app.lane = s.app.lane ∧
    (outTo x st s).app.link = s.app.link ∧ (outTo x st s).app.sl = s.app.sl ∧
    (outTo x st s).app.eng = s.app.eng ∧ (outTo x st s).app.ctx = s.app.ctx ∧
    (outTo x st s).app.plc = s.app.plc ∧ (outTo x st s).app.veh = s.app.veh ∧
    (outTo x st s).app.server = s.app.server ∧ (outTo x st s).app.journal = s.app.journal ∧
    (outTo x st s).app.tack = s.app.tack ∧ (outTo x st s).cold = s.cold ∧
    (outTo x st s).coldMr = s.coldMr ∧ (outTo x st s).trial = s.trial ∧
    (outTo x st s).bridle = s.bridle ∧ (outTo x st s).power.safe = s.power.safe ∧
    (outTo x st s).power.clkOk = s.power.clkOk ∧ (outTo x st s).power.report = s.power.report ∧
    (outTo x st s).power.hbRun = s.power.hbRun ∧ (outTo x st s).power.vload = s.power.vload ∧
    (outTo x st s).power.vpilp = s.power.vpilp ∧ (outTo x st s).power.vpiln = s.power.vpiln ∧
    (outTo x st s).power.vdrv = s.power.vdrv ∧ (outTo x st s).power.pfin = s.power.pfin ∧
    (outTo x st s).power.pilots = s.power.pilots ∧ (outTo x st s).power.trimmed = s.power.trimmed ∧
    (outTo x st s).power.period = s.power.period ∧
    (outTo x st s).power.pilRebuilt = s.power.pilRebuilt ∧
    (outTo x st s).power.tsLatch = s.power.tsLatch ∧
    (outTo x st s).power.protLock = s.power.protLock ∧
    (outTo x st s).power.retryWin = s.power.retryWin ∧
    (outTo x st s).power.retryMax = s.power.retryMax ∧ (outTo x st s).power.test = s.power.test ∧
    (outTo x st s).power.run = s.power.run ∧ (outTo x st s).power.qtemp = s.power.qtemp ∧
    (outTo x st s).power.qband = s.power.qband ∧ (outTo x st s).power.qchg = s.power.qchg ∧
    (outTo x st s).power.sum = s.power.sum ∧ (outTo x st s).power.sumOver = s.power.sumOver ∧
    (outTo x st s).power.rc = s.power.rc ∧ (outTo x st s).power.im = s.power.im ∧
    (outTo x st s).power.sto = s.power.sto ∧ (outTo x st s).power.seq = s.power.seq ∧
    (outTo x st s).power.seqPerm = s.power.seqPerm ∧
    (outTo x st s).power.seqProx = s.power.seqProx ∧ (outTo x st s).power.psq = s.power.psq ∧
    (outTo x st s).power.psqDue = s.power.psqDue ∧ (outTo x st s).power.fields = s.power.fields ∧
    (outTo x st s).power.lines = s.power.lines ∧ (outTo x st s).power.readers = s.power.readers ∧
    (outTo x st s).power.tags = s.power.tags ∧ (outTo x st s).die = s.die ∧
    (outTo x st s).fuses = s.fuses ∧ (outTo x st s).obj = s.obj ∧ (outTo x st s).flash = s.flash ∧
    (outTo x st s).sec = s.sec ∧ (outTo x st s).fresh = s.fresh ∧ (outTo x st s).pending = s.pending := by
  simp [outTo, withdrawRestart]

@[simp] theorem updPil_same (p : Nat) (f : PilotPt → PilotPt) (s : State) :
    (s.updPil p f).app.clk = s.app.clk ∧ (s.updPil p f).app.bkl = s.app.bkl ∧
    (s.updPil p f).app.mbx = s.app.mbx ∧ (s.updPil p f).app.pmc = s.app.pmc ∧
    (s.updPil p f).app.hrn = s.app.hrn ∧ (s.updPil p f).app.girth = s.app.girth ∧
    (s.updPil p f).app.harts = s.app.harts ∧ (s.updPil p f).app.mem = s.app.mem ∧
    (s.updPil p f).app.lane = s.app.lane ∧ (s.updPil p f).app.link = s.app.link ∧
    (s.updPil p f).app.sl = s.app.sl ∧ (s.updPil p f).app.eng = s.app.eng ∧
    (s.updPil p f).app.ctx = s.app.ctx ∧ (s.updPil p f).app.plc = s.app.plc ∧
    (s.updPil p f).app.veh = s.app.veh ∧ (s.updPil p f).app.server = s.app.server ∧
    (s.updPil p f).app.journal = s.app.journal ∧ (s.updPil p f).app.tack = s.app.tack ∧
    (s.updPil p f).cold = s.cold ∧ (s.updPil p f).coldMr = s.coldMr ∧
    (s.updPil p f).trial = s.trial ∧ (s.updPil p f).bridle = s.bridle ∧
    (s.updPil p f).power.safe = s.power.safe ∧ (s.updPil p f).power.clkOk = s.power.clkOk ∧
    (s.updPil p f).power.report = s.power.report ∧ (s.updPil p f).power.hbRun = s.power.hbRun ∧
    (s.updPil p f).power.vload = s.power.vload ∧ (s.updPil p f).power.vpilp = s.power.vpilp ∧
    (s.updPil p f).power.vpiln = s.power.vpiln ∧ (s.updPil p f).power.vdrv = s.power.vdrv ∧
    (s.updPil p f).power.pfin = s.power.pfin ∧ (s.updPil p f).power.coils = s.power.coils ∧
    (s.updPil p f).power.loads = s.power.loads ∧ (s.updPil p f).power.trimmed = s.power.trimmed ∧
    (s.updPil p f).power.period = s.power.period ∧
    (s.updPil p f).power.pilRebuilt = s.power.pilRebuilt ∧
    (s.updPil p f).power.tsLatch = s.power.tsLatch ∧
    (s.updPil p f).power.protLock = s.power.protLock ∧
    (s.updPil p f).power.retryWin = s.power.retryWin ∧
    (s.updPil p f).power.retryMax = s.power.retryMax ∧ (s.updPil p f).power.test = s.power.test ∧
    (s.updPil p f).power.run = s.power.run ∧ (s.updPil p f).power.qtemp = s.power.qtemp ∧
    (s.updPil p f).power.qband = s.power.qband ∧ (s.updPil p f).power.qchg = s.power.qchg ∧
    (s.updPil p f).power.sum = s.power.sum ∧ (s.updPil p f).power.sumOver = s.power.sumOver ∧
    (s.updPil p f).power.rc = s.power.rc ∧ (s.updPil p f).power.im = s.power.im ∧
    (s.updPil p f).power.sto = s.power.sto ∧ (s.updPil p f).power.seq = s.power.seq ∧
    (s.updPil p f).power.seqPerm = s.power.seqPerm ∧
    (s.updPil p f).power.seqProx = s.power.seqProx ∧ (s.updPil p f).power.psq = s.power.psq ∧
    (s.updPil p f).power.psqDue = s.power.psqDue ∧ (s.updPil p f).power.fields = s.power.fields ∧
    (s.updPil p f).power.lines = s.power.lines ∧ (s.updPil p f).power.readers = s.power.readers ∧
    (s.updPil p f).power.tags = s.power.tags ∧ (s.updPil p f).die = s.die ∧
    (s.updPil p f).fuses = s.fuses ∧ (s.updPil p f).obj = s.obj ∧ (s.updPil p f).flash = s.flash ∧
    (s.updPil p f).sec = s.sec ∧ (s.updPil p f).fresh = s.fresh ∧ (s.updPil p f).pending = s.pending := by
  simp [State.updPil]

@[simp] theorem pilEvt_same (p i : Nat) (s : State) :
    (pilEvt p i s).app.clk = s.app.clk ∧ (pilEvt p i s).app.mbx = s.app.mbx ∧
    (pilEvt p i s).app.hrn = s.app.hrn ∧ (pilEvt p i s).app.girth = s.app.girth ∧
    (pilEvt p i s).app.harts = s.app.harts ∧ (pilEvt p i s).app.mem = s.app.mem ∧
    (pilEvt p i s).app.lane = s.app.lane ∧ (pilEvt p i s).app.link = s.app.link ∧
    (pilEvt p i s).app.sl = s.app.sl ∧ (pilEvt p i s).app.eng = s.app.eng ∧
    (pilEvt p i s).app.ctx = s.app.ctx ∧ (pilEvt p i s).app.plc = s.app.plc ∧
    (pilEvt p i s).app.veh = s.app.veh ∧ (pilEvt p i s).app.server = s.app.server ∧
    (pilEvt p i s).app.journal = s.app.journal ∧ (pilEvt p i s).app.tack = s.app.tack ∧
    (pilEvt p i s).cold = s.cold ∧ (pilEvt p i s).coldMr = s.coldMr ∧
    (pilEvt p i s).trial = s.trial ∧ (pilEvt p i s).bridle = s.bridle ∧
    (pilEvt p i s).power.safe = s.power.safe ∧ (pilEvt p i s).power.clkOk = s.power.clkOk ∧
    (pilEvt p i s).power.report = s.power.report ∧ (pilEvt p i s).power.hbRun = s.power.hbRun ∧
    (pilEvt p i s).power.vload = s.power.vload ∧ (pilEvt p i s).power.vpilp = s.power.vpilp ∧
    (pilEvt p i s).power.vpiln = s.power.vpiln ∧ (pilEvt p i s).power.vdrv = s.power.vdrv ∧
    (pilEvt p i s).power.pfin = s.power.pfin ∧ (pilEvt p i s).power.coils = s.power.coils ∧
    (pilEvt p i s).power.loads = s.power.loads ∧ (pilEvt p i s).power.trimmed = s.power.trimmed ∧
    (pilEvt p i s).power.period = s.power.period ∧
    (pilEvt p i s).power.pilRebuilt = s.power.pilRebuilt ∧
    (pilEvt p i s).power.tsLatch = s.power.tsLatch ∧
    (pilEvt p i s).power.protLock = s.power.protLock ∧
    (pilEvt p i s).power.retryWin = s.power.retryWin ∧
    (pilEvt p i s).power.retryMax = s.power.retryMax ∧ (pilEvt p i s).power.test = s.power.test ∧
    (pilEvt p i s).power.run = s.power.run ∧ (pilEvt p i s).power.qtemp = s.power.qtemp ∧
    (pilEvt p i s).power.qband = s.power.qband ∧ (pilEvt p i s).power.qchg = s.power.qchg ∧
    (pilEvt p i s).power.sum = s.power.sum ∧ (pilEvt p i s).power.sumOver = s.power.sumOver ∧
    (pilEvt p i s).power.rc = s.power.rc ∧ (pilEvt p i s).power.im = s.power.im ∧
    (pilEvt p i s).power.sto = s.power.sto ∧ (pilEvt p i s).power.seq = s.power.seq ∧
    (pilEvt p i s).power.seqPerm = s.power.seqPerm ∧
    (pilEvt p i s).power.seqProx = s.power.seqProx ∧ (pilEvt p i s).power.psq = s.power.psq ∧
    (pilEvt p i s).power.psqDue = s.power.psqDue ∧ (pilEvt p i s).power.fields = s.power.fields ∧
    (pilEvt p i s).power.lines = s.power.lines ∧ (pilEvt p i s).power.readers = s.power.readers ∧
    (pilEvt p i s).power.tags = s.power.tags ∧ (pilEvt p i s).die = s.die ∧
    (pilEvt p i s).fuses = s.fuses ∧ (pilEvt p i s).obj = s.obj ∧ (pilEvt p i s).flash = s.flash ∧
    (pilEvt p i s).sec = s.sec ∧ (pilEvt p i s).pending = s.pending := by
  simp [pilEvt]

@[simp] theorem pilGo_same (p : Nat) (st : PilSt) (s : State) :
    (pilGo p st s).app.clk = s.app.clk ∧ (pilGo p st s).app.mbx = s.app.mbx ∧
    (pilGo p st s).app.hrn = s.app.hrn ∧ (pilGo p st s).app.girth = s.app.girth ∧
    (pilGo p st s).app.harts = s.app.harts ∧ (pilGo p st s).app.mem = s.app.mem ∧
    (pilGo p st s).app.lane = s.app.lane ∧ (pilGo p st s).app.link = s.app.link ∧
    (pilGo p st s).app.sl = s.app.sl ∧ (pilGo p st s).app.eng = s.app.eng ∧
    (pilGo p st s).app.ctx = s.app.ctx ∧ (pilGo p st s).app.veh = s.app.veh ∧
    (pilGo p st s).app.journal = s.app.journal ∧ (pilGo p st s).app.tack = s.app.tack ∧
    (pilGo p st s).cold = s.cold ∧ (pilGo p st s).coldMr = s.coldMr ∧
    (pilGo p st s).trial = s.trial ∧ (pilGo p st s).bridle = s.bridle ∧
    (pilGo p st s).power.safe = s.power.safe ∧ (pilGo p st s).power.clkOk = s.power.clkOk ∧
    (pilGo p st s).power.report = s.power.report ∧ (pilGo p st s).power.hbRun = s.power.hbRun ∧
    (pilGo p st s).power.vload = s.power.vload ∧ (pilGo p st s).power.vpilp = s.power.vpilp ∧
    (pilGo p st s).power.vpiln = s.power.vpiln ∧ (pilGo p st s).power.vdrv = s.power.vdrv ∧
    (pilGo p st s).power.pfin = s.power.pfin ∧ (pilGo p st s).power.coils = s.power.coils ∧
    (pilGo p st s).power.loads = s.power.loads ∧ (pilGo p st s).power.trimmed = s.power.trimmed ∧
    (pilGo p st s).power.period = s.power.period ∧
    (pilGo p st s).power.pilRebuilt = s.power.pilRebuilt ∧
    (pilGo p st s).power.tsLatch = s.power.tsLatch ∧
    (pilGo p st s).power.protLock = s.power.protLock ∧
    (pilGo p st s).power.retryWin = s.power.retryWin ∧
    (pilGo p st s).power.retryMax = s.power.retryMax ∧ (pilGo p st s).power.test = s.power.test ∧
    (pilGo p st s).power.run = s.power.run ∧ (pilGo p st s).power.qtemp = s.power.qtemp ∧
    (pilGo p st s).power.qband = s.power.qband ∧ (pilGo p st s).power.qchg = s.power.qchg ∧
    (pilGo p st s).power.sum = s.power.sum ∧ (pilGo p st s).power.sumOver = s.power.sumOver ∧
    (pilGo p st s).power.rc = s.power.rc ∧ (pilGo p st s).power.im = s.power.im ∧
    (pilGo p st s).power.sto = s.power.sto ∧ (pilGo p st s).power.seq = s.power.seq ∧
    (pilGo p st s).power.seqPerm = s.power.seqPerm ∧
    (pilGo p st s).power.seqProx = s.power.seqProx ∧ (pilGo p st s).power.psq = s.power.psq ∧
    (pilGo p st s).power.psqDue = s.power.psqDue ∧ (pilGo p st s).power.fields = s.power.fields ∧
    (pilGo p st s).power.lines = s.power.lines ∧ (pilGo p st s).power.readers = s.power.readers ∧
    (pilGo p st s).power.tags = s.power.tags ∧ (pilGo p st s).die = s.die ∧
    (pilGo p st s).fuses = s.fuses ∧ (pilGo p st s).obj = s.obj ∧ (pilGo p st s).flash = s.flash ∧
    (pilGo p st s).sec = s.sec ∧ (pilGo p st s).pending = s.pending := by
  unfold pilGo
  dsimp only
  split
  · simp
  · split <;> simp [countPt]

@[simp] theorem laneLevel_same (n : Nat) (b : Bool) (s : State) :
    (laneLevel n b s).app.clk = s.app.clk ∧ (laneLevel n b s).app.mbx = s.app.mbx ∧
    (laneLevel n b s).app.pmc = s.app.pmc ∧ (laneLevel n b s).app.hrn = s.app.hrn ∧
    (laneLevel n b s).app.girth = s.app.girth ∧ (laneLevel n b s).app.harts = s.app.harts ∧
    (laneLevel n b s).app.mem = s.app.mem ∧ (laneLevel n b s).app.lane = s.app.lane ∧
    (laneLevel n b s).app.link = s.app.link ∧ (laneLevel n b s).app.sl = s.app.sl ∧
    (laneLevel n b s).app.eng = s.app.eng ∧ (laneLevel n b s).app.ctx = s.app.ctx ∧
    (laneLevel n b s).app.plc = s.app.plc ∧ (laneLevel n b s).app.veh = s.app.veh ∧
    (laneLevel n b s).app.server = s.app.server ∧ (laneLevel n b s).app.journal = s.app.journal ∧
    (laneLevel n b s).app.tack = s.app.tack ∧ (laneLevel n b s).cold = s.cold ∧
    (laneLevel n b s).coldMr = s.coldMr ∧ (laneLevel n b s).trial = s.trial ∧
    (laneLevel n b s).bridle = s.bridle ∧ (laneLevel n b s).power = s.power ∧
    (laneLevel n b s).die = s.die ∧ (laneLevel n b s).fuses = s.fuses ∧
    (laneLevel n b s).obj = s.obj ∧ (laneLevel n b s).flash = s.flash ∧
    (laneLevel n b s).sec = s.sec ∧ (laneLevel n b s).pending = s.pending := by
  unfold laneLevel; (repeat' split) <;> simp [State.used]

@[simp] theorem rdEvt_same (n i : Nat) (s : State) :
    (rdEvt n i s).app.clk = s.app.clk ∧ (rdEvt n i s).app.mbx = s.app.mbx ∧
    (rdEvt n i s).app.pmc = s.app.pmc ∧ (rdEvt n i s).app.hrn = s.app.hrn ∧
    (rdEvt n i s).app.girth = s.app.girth ∧ (rdEvt n i s).app.harts = s.app.harts ∧
    (rdEvt n i s).app.mem = s.app.mem ∧ (rdEvt n i s).app.lane = s.app.lane ∧
    (rdEvt n i s).app.link = s.app.link ∧ (rdEvt n i s).app.sl = s.app.sl ∧
    (rdEvt n i s).app.eng = s.app.eng ∧ (rdEvt n i s).app.ctx = s.app.ctx ∧
    (rdEvt n i s).app.plc = s.app.plc ∧ (rdEvt n i s).app.veh = s.app.veh ∧
    (rdEvt n i s).app.server = s.app.server ∧ (rdEvt n i s).app.journal = s.app.journal ∧
    (rdEvt n i s).app.tack = s.app.tack ∧ (rdEvt n i s).cold = s.cold ∧
    (rdEvt n i s).coldMr = s.coldMr ∧ (rdEvt n i s).trial = s.trial ∧
    (rdEvt n i s).bridle = s.bridle ∧ (rdEvt n i s).power.safe = s.power.safe ∧
    (rdEvt n i s).power.clkOk = s.power.clkOk ∧ (rdEvt n i s).power.report = s.power.report ∧
    (rdEvt n i s).power.hbRun = s.power.hbRun ∧ (rdEvt n i s).power.vload = s.power.vload ∧
    (rdEvt n i s).power.vpilp = s.power.vpilp ∧ (rdEvt n i s).power.vpiln = s.power.vpiln ∧
    (rdEvt n i s).power.vdrv = s.power.vdrv ∧ (rdEvt n i s).power.pfin = s.power.pfin ∧
    (rdEvt n i s).power.coils = s.power.coils ∧ (rdEvt n i s).power.loads = s.power.loads ∧
    (rdEvt n i s).power.pilots = s.power.pilots ∧ (rdEvt n i s).power.trimmed = s.power.trimmed ∧
    (rdEvt n i s).power.period = s.power.period ∧
    (rdEvt n i s).power.pilRebuilt = s.power.pilRebuilt ∧
    (rdEvt n i s).power.tsLatch = s.power.tsLatch ∧
    (rdEvt n i s).power.protLock = s.power.protLock ∧
    (rdEvt n i s).power.retryWin = s.power.retryWin ∧
    (rdEvt n i s).power.retryMax = s.power.retryMax ∧ (rdEvt n i s).power.test = s.power.test ∧
    (rdEvt n i s).power.run = s.power.run ∧ (rdEvt n i s).power.qtemp = s.power.qtemp ∧
    (rdEvt n i s).power.qband = s.power.qband ∧ (rdEvt n i s).power.qchg = s.power.qchg ∧
    (rdEvt n i s).power.sum = s.power.sum ∧ (rdEvt n i s).power.sumOver = s.power.sumOver ∧
    (rdEvt n i s).power.rc = s.power.rc ∧ (rdEvt n i s).power.im = s.power.im ∧
    (rdEvt n i s).power.sto = s.power.sto ∧ (rdEvt n i s).power.seq = s.power.seq ∧
    (rdEvt n i s).power.seqPerm = s.power.seqPerm ∧ (rdEvt n i s).power.seqProx = s.power.seqProx ∧
    (rdEvt n i s).power.psq = s.power.psq ∧ (rdEvt n i s).power.psqDue = s.power.psqDue ∧
    (rdEvt n i s).power.fields = s.power.fields ∧ (rdEvt n i s).power.lines = s.power.lines ∧
    (rdEvt n i s).power.tags = s.power.tags ∧ (rdEvt n i s).die = s.die ∧
    (rdEvt n i s).fuses = s.fuses ∧ (rdEvt n i s).obj = s.obj ∧ (rdEvt n i s).flash = s.flash ∧
    (rdEvt n i s).sec = s.sec ∧ (rdEvt n i s).pending = s.pending := by
  simp [rdEvt, State.updRd]

end Sys2Proof.Machine
end

