-- ==== Sys2Proof/Laws/State.lean ====
section
/-!
SUPPORT. One lemma for each update of State: what it writes, and that every other field stays.
-/
set_option Elab.async false
set_option linter.all false
namespace Sys2Proof.Machine

/-- What `updBp` writes. -/
@[simp] theorem updBp_get (s : State) (p : Nat) (f : BrPt → BrPt) (j : Nat) : (s.updBp p f).bridle.pts.get j = if p = j then f (s.bridle.pts.get j) else s.bridle.pts.get j := by
  simp [State.updBp, Bank.get_upd]

@[simp] theorem updBp_same (s : State) (p : Nat) (f : BrPt → BrPt) :
    (s.updBp p f).app.clk = s.app.clk ∧ (s.updBp p f).app.bkl = s.app.bkl ∧
    (s.updBp p f).app.mbx = s.app.mbx ∧ (s.updBp p f).app.pmc = s.app.pmc ∧
    (s.updBp p f).app.hrn = s.app.hrn ∧ (s.updBp p f).app.girth = s.app.girth ∧
    (s.updBp p f).app.harts = s.app.harts ∧ (s.updBp p f).app.mem = s.app.mem ∧
    (s.updBp p f).app.lane = s.app.lane ∧ (s.updBp p f).app.link = s.app.link ∧
    (s.updBp p f).app.sl = s.app.sl ∧ (s.updBp p f).app.eng = s.app.eng ∧
    (s.updBp p f).app.ctx = s.app.ctx ∧ (s.updBp p f).app.plc = s.app.plc ∧
    (s.updBp p f).app.veh = s.app.veh ∧ (s.updBp p f).app.server = s.app.server ∧
    (s.updBp p f).app.journal = s.app.journal ∧ (s.updBp p f).app.incoh = s.app.incoh ∧ (s.updBp p f).app.tack = s.app.tack ∧
    (s.updBp p f).cold = s.cold ∧ (s.updBp p f).coldMr = s.coldMr ∧ (s.updBp p f).trial = s.trial ∧
    (s.updBp p f).power = s.power ∧ (s.updBp p f).die = s.die ∧ (s.updBp p f).fuses = s.fuses ∧
    (s.updBp p f).obj = s.obj ∧ (s.updBp p f).flash = s.flash ∧ (s.updBp p f).sec = s.sec ∧
    (s.updBp p f).fresh = s.fresh ∧ (s.updBp p f).pending = s.pending := by
  simp [State.updBp]

/-- What `updDev` writes. -/
@[simp] theorem updDev_get (s : State) (d : Nat) (f : Device → Device) (j : Nat) : (s.updDev d f).bridle.dev.get j = if d = j then f (s.bridle.dev.get j) else s.bridle.dev.get j := by
  simp [State.updDev, Bank.get_upd]

@[simp] theorem updDev_same (s : State) (d : Nat) (f : Device → Device) :
    (s.updDev d f).app.clk = s.app.clk ∧ (s.updDev d f).app.bkl = s.app.bkl ∧
    (s.updDev d f).app.mbx = s.app.mbx ∧ (s.updDev d f).app.pmc = s.app.pmc ∧
    (s.updDev d f).app.hrn = s.app.hrn ∧ (s.updDev d f).app.girth = s.app.girth ∧
    (s.updDev d f).app.harts = s.app.harts ∧ (s.updDev d f).app.mem = s.app.mem ∧
    (s.updDev d f).app.lane = s.app.lane ∧ (s.updDev d f).app.link = s.app.link ∧
    (s.updDev d f).app.sl = s.app.sl ∧ (s.updDev d f).app.eng = s.app.eng ∧
    (s.updDev d f).app.ctx = s.app.ctx ∧ (s.updDev d f).app.plc = s.app.plc ∧
    (s.updDev d f).app.veh = s.app.veh ∧ (s.updDev d f).app.server = s.app.server ∧
    (s.updDev d f).app.journal = s.app.journal ∧ (s.updDev d f).app.incoh = s.app.incoh ∧ (s.updDev d f).app.tack = s.app.tack ∧
    (s.updDev d f).cold = s.cold ∧ (s.updDev d f).coldMr = s.coldMr ∧
    (s.updDev d f).trial = s.trial ∧ (s.updDev d f).power = s.power ∧ (s.updDev d f).die = s.die ∧
    (s.updDev d f).fuses = s.fuses ∧ (s.updDev d f).obj = s.obj ∧ (s.updDev d f).flash = s.flash ∧
    (s.updDev d f).sec = s.sec ∧ (s.updDev d f).fresh = s.fresh ∧ (s.updDev d f).pending = s.pending := by
  simp [State.updDev]

/-- What `updRx` writes. -/
@[simp] theorem updRx_get (s : State) (i : Nat) (f : SafeRx → SafeRx) (j : Nat) : (s.updRx i f).bridle.rx.get j = if i = j then f (s.bridle.rx.get j) else s.bridle.rx.get j := by
  simp [State.updRx, Bank.get_upd]

@[simp] theorem updRx_same (s : State) (i : Nat) (f : SafeRx → SafeRx) :
    (s.updRx i f).app.clk = s.app.clk ∧ (s.updRx i f).app.bkl = s.app.bkl ∧
    (s.updRx i f).app.mbx = s.app.mbx ∧ (s.updRx i f).app.pmc = s.app.pmc ∧
    (s.updRx i f).app.hrn = s.app.hrn ∧ (s.updRx i f).app.girth = s.app.girth ∧
    (s.updRx i f).app.harts = s.app.harts ∧ (s.updRx i f).app.mem = s.app.mem ∧
    (s.updRx i f).app.lane = s.app.lane ∧ (s.updRx i f).app.link = s.app.link ∧
    (s.updRx i f).app.sl = s.app.sl ∧ (s.updRx i f).app.eng = s.app.eng ∧
    (s.updRx i f).app.ctx = s.app.ctx ∧ (s.updRx i f).app.plc = s.app.plc ∧
    (s.updRx i f).app.veh = s.app.veh ∧ (s.updRx i f).app.server = s.app.server ∧
    (s.updRx i f).app.journal = s.app.journal ∧ (s.updRx i f).app.incoh = s.app.incoh ∧ (s.updRx i f).app.tack = s.app.tack ∧
    (s.updRx i f).cold = s.cold ∧ (s.updRx i f).coldMr = s.coldMr ∧ (s.updRx i f).trial = s.trial ∧
    (s.updRx i f).power = s.power ∧ (s.updRx i f).die = s.die ∧ (s.updRx i f).fuses = s.fuses ∧
    (s.updRx i f).obj = s.obj ∧ (s.updRx i f).flash = s.flash ∧ (s.updRx i f).sec = s.sec ∧
    (s.updRx i f).fresh = s.fresh ∧ (s.updRx i f).pending = s.pending := by
  simp [State.updRx]

/-- What `updPort` writes. -/
@[simp] theorem updPort_get (s : State) (x : Nat) (f : FieldPort → FieldPort) (j : Nat) : (s.updPort x f).app.server.port.get j = if x = j then f (s.app.server.port.get j) else s.app.server.port.get j := by
  simp [State.updPort, Bank.get_upd]

@[simp] theorem updPort_same (s : State) (x : Nat) (f : FieldPort → FieldPort) :
    (s.updPort x f).app.clk = s.app.clk ∧ (s.updPort x f).app.bkl = s.app.bkl ∧
    (s.updPort x f).app.mbx = s.app.mbx ∧ (s.updPort x f).app.pmc = s.app.pmc ∧
    (s.updPort x f).app.hrn = s.app.hrn ∧ (s.updPort x f).app.girth = s.app.girth ∧
    (s.updPort x f).app.harts = s.app.harts ∧ (s.updPort x f).app.mem = s.app.mem ∧
    (s.updPort x f).app.lane = s.app.lane ∧ (s.updPort x f).app.link = s.app.link ∧
    (s.updPort x f).app.sl = s.app.sl ∧ (s.updPort x f).app.eng = s.app.eng ∧
    (s.updPort x f).app.ctx = s.app.ctx ∧ (s.updPort x f).app.plc = s.app.plc ∧
    (s.updPort x f).app.veh = s.app.veh ∧ (s.updPort x f).app.journal = s.app.journal ∧ (s.updPort x f).app.incoh = s.app.incoh ∧
    (s.updPort x f).app.tack = s.app.tack ∧ (s.updPort x f).cold = s.cold ∧
    (s.updPort x f).coldMr = s.coldMr ∧ (s.updPort x f).trial = s.trial ∧
    (s.updPort x f).bridle = s.bridle ∧ (s.updPort x f).power = s.power ∧
    (s.updPort x f).die = s.die ∧ (s.updPort x f).fuses = s.fuses ∧ (s.updPort x f).obj = s.obj ∧
    (s.updPort x f).flash = s.flash ∧ (s.updPort x f).sec = s.sec ∧
    (s.updPort x f).fresh = s.fresh ∧ (s.updPort x f).pending = s.pending := by
  simp [State.updPort]

/-- What `updRc` writes. -/
@[simp] theorem updRc_get (s : State) (n : Nat) (f : RcCh → RcCh) (j : Nat) : (s.updRc n f).power.rc.get j = if n = j then f (s.power.rc.get j) else s.power.rc.get j := by
  simp [State.updRc, Bank.get_upd]

@[simp] theorem updRc_same (s : State) (n : Nat) (f : RcCh → RcCh) :
    (s.updRc n f).app.clk = s.app.clk ∧ (s.updRc n f).app.bkl = s.app.bkl ∧
    (s.updRc n f).app.mbx = s.app.mbx ∧ (s.updRc n f).app.pmc = s.app.pmc ∧
    (s.updRc n f).app.hrn = s.app.hrn ∧ (s.updRc n f).app.girth = s.app.girth ∧
    (s.updRc n f).app.harts = s.app.harts ∧ (s.updRc n f).app.mem = s.app.mem ∧
    (s.updRc n f).app.lane = s.app.lane ∧ (s.updRc n f).app.link = s.app.link ∧
    (s.updRc n f).app.sl = s.app.sl ∧ (s.updRc n f).app.eng = s.app.eng ∧
    (s.updRc n f).app.ctx = s.app.ctx ∧ (s.updRc n f).app.plc = s.app.plc ∧
    (s.updRc n f).app.veh = s.app.veh ∧ (s.updRc n f).app.server = s.app.server ∧
    (s.updRc n f).app.journal = s.app.journal ∧ (s.updRc n f).app.incoh = s.app.incoh ∧ (s.updRc n f).app.tack = s.app.tack ∧
    (s.updRc n f).cold = s.cold ∧ (s.updRc n f).coldMr = s.coldMr ∧ (s.updRc n f).trial = s.trial ∧
    (s.updRc n f).bridle = s.bridle ∧ (s.updRc n f).power.safe = s.power.safe ∧
    (s.updRc n f).power.clkOk = s.power.clkOk ∧ (s.updRc n f).power.report = s.power.report ∧
    (s.updRc n f).power.hbRun = s.power.hbRun ∧ (s.updRc n f).power.vload = s.power.vload ∧
    (s.updRc n f).power.vpilp = s.power.vpilp ∧ (s.updRc n f).power.vpiln = s.power.vpiln ∧
    (s.updRc n f).power.vdrv = s.power.vdrv ∧ (s.updRc n f).power.pfin = s.power.pfin ∧
    (s.updRc n f).power.coils = s.power.coils ∧ (s.updRc n f).power.loads = s.power.loads ∧
    (s.updRc n f).power.pilots = s.power.pilots ∧ (s.updRc n f).power.trimmed = s.power.trimmed ∧
    (s.updRc n f).power.period = s.power.period ∧
    (s.updRc n f).power.pilRebuilt = s.power.pilRebuilt ∧
    (s.updRc n f).power.tsLatch = s.power.tsLatch ∧
    (s.updRc n f).power.protLock = s.power.protLock ∧
    (s.updRc n f).power.retryWin = s.power.retryWin ∧
    (s.updRc n f).power.retryMax = s.power.retryMax ∧ (s.updRc n f).power.test = s.power.test ∧
    (s.updRc n f).power.run = s.power.run ∧ (s.updRc n f).power.qtemp = s.power.qtemp ∧
    (s.updRc n f).power.qband = s.power.qband ∧ (s.updRc n f).power.qchg = s.power.qchg ∧
    (s.updRc n f).power.sum = s.power.sum ∧ (s.updRc n f).power.sumOver = s.power.sumOver ∧
    (s.updRc n f).power.im = s.power.im ∧ (s.updRc n f).power.sto = s.power.sto ∧
    (s.updRc n f).power.seq = s.power.seq ∧ (s.updRc n f).power.seqPerm = s.power.seqPerm ∧
    (s.updRc n f).power.seqProx = s.power.seqProx ∧ (s.updRc n f).power.psq = s.power.psq ∧
    (s.updRc n f).power.psqDue = s.power.psqDue ∧ (s.updRc n f).power.fields = s.power.fields ∧
    (s.updRc n f).power.lines = s.power.lines ∧ (s.updRc n f).power.readers = s.power.readers ∧
    (s.updRc n f).power.tags = s.power.tags ∧ (s.updRc n f).die = s.die ∧
    (s.updRc n f).fuses = s.fuses ∧ (s.updRc n f).obj = s.obj ∧ (s.updRc n f).flash = s.flash ∧
    (s.updRc n f).sec = s.sec ∧ (s.updRc n f).fresh = s.fresh ∧ (s.updRc n f).pending = s.pending := by
  simp [State.updRc]

/-- What `updIm` writes. -/
@[simp] theorem updIm_get (s : State) (k : Nat) (f : ImCh → ImCh) (j : Nat) : (s.updIm k f).power.im.get j = if k = j then f (s.power.im.get j) else s.power.im.get j := by
  simp [State.updIm, Bank.get_upd]

@[simp] theorem updIm_same (s : State) (k : Nat) (f : ImCh → ImCh) :
    (s.updIm k f).app.clk = s.app.clk ∧ (s.updIm k f).app.bkl = s.app.bkl ∧
    (s.updIm k f).app.mbx = s.app.mbx ∧ (s.updIm k f).app.pmc = s.app.pmc ∧
    (s.updIm k f).app.hrn = s.app.hrn ∧ (s.updIm k f).app.girth = s.app.girth ∧
    (s.updIm k f).app.harts = s.app.harts ∧ (s.updIm k f).app.mem = s.app.mem ∧
    (s.updIm k f).app.lane = s.app.lane ∧ (s.updIm k f).app.link = s.app.link ∧
    (s.updIm k f).app.sl = s.app.sl ∧ (s.updIm k f).app.eng = s.app.eng ∧
    (s.updIm k f).app.ctx = s.app.ctx ∧ (s.updIm k f).app.plc = s.app.plc ∧
    (s.updIm k f).app.veh = s.app.veh ∧ (s.updIm k f).app.server = s.app.server ∧
    (s.updIm k f).app.journal = s.app.journal ∧ (s.updIm k f).app.incoh = s.app.incoh ∧ (s.updIm k f).app.tack = s.app.tack ∧
    (s.updIm k f).cold = s.cold ∧ (s.updIm k f).coldMr = s.coldMr ∧ (s.updIm k f).trial = s.trial ∧
    (s.updIm k f).bridle = s.bridle ∧ (s.updIm k f).power.safe = s.power.safe ∧
    (s.updIm k f).power.clkOk = s.power.clkOk ∧ (s.updIm k f).power.report = s.power.report ∧
    (s.updIm k f).power.hbRun = s.power.hbRun ∧ (s.updIm k f).power.vload = s.power.vload ∧
    (s.updIm k f).power.vpilp = s.power.vpilp ∧ (s.updIm k f).power.vpiln = s.power.vpiln ∧
    (s.updIm k f).power.vdrv = s.power.vdrv ∧ (s.updIm k f).power.pfin = s.power.pfin ∧
    (s.updIm k f).power.coils = s.power.coils ∧ (s.updIm k f).power.loads = s.power.loads ∧
    (s.updIm k f).power.pilots = s.power.pilots ∧ (s.updIm k f).power.trimmed = s.power.trimmed ∧
    (s.updIm k f).power.period = s.power.period ∧
    (s.updIm k f).power.pilRebuilt = s.power.pilRebuilt ∧
    (s.updIm k f).power.tsLatch = s.power.tsLatch ∧
    (s.updIm k f).power.protLock = s.power.protLock ∧
    (s.updIm k f).power.retryWin = s.power.retryWin ∧
    (s.updIm k f).power.retryMax = s.power.retryMax ∧ (s.updIm k f).power.test = s.power.test ∧
    (s.updIm k f).power.run = s.power.run ∧ (s.updIm k f).power.qtemp = s.power.qtemp ∧
    (s.updIm k f).power.qband = s.power.qband ∧ (s.updIm k f).power.qchg = s.power.qchg ∧
    (s.updIm k f).power.sum = s.power.sum ∧ (s.updIm k f).power.sumOver = s.power.sumOver ∧
    (s.updIm k f).power.rc = s.power.rc ∧ (s.updIm k f).power.sto = s.power.sto ∧
    (s.updIm k f).power.seq = s.power.seq ∧ (s.updIm k f).power.seqPerm = s.power.seqPerm ∧
    (s.updIm k f).power.seqProx = s.power.seqProx ∧ (s.updIm k f).power.psq = s.power.psq ∧
    (s.updIm k f).power.psqDue = s.power.psqDue ∧ (s.updIm k f).power.fields = s.power.fields ∧
    (s.updIm k f).power.lines = s.power.lines ∧ (s.updIm k f).power.readers = s.power.readers ∧
    (s.updIm k f).power.tags = s.power.tags ∧ (s.updIm k f).die = s.die ∧
    (s.updIm k f).fuses = s.fuses ∧ (s.updIm k f).obj = s.obj ∧ (s.updIm k f).flash = s.flash ∧
    (s.updIm k f).sec = s.sec ∧ (s.updIm k f).fresh = s.fresh ∧ (s.updIm k f).pending = s.pending := by
  simp [State.updIm]

/-- What `updSl` writes. -/
@[simp] theorem updSl_get (s : State) (port : Nat) (f : SlPort → SlPort) (j : Nat) : (s.updSl port f).app.sl.port.get j = if port = j then f (s.app.sl.port.get j) else s.app.sl.port.get j := by
  simp [State.updSl, Bank.get_upd]

@[simp] theorem updSl_same (s : State) (port : Nat) (f : SlPort → SlPort) :
    (s.updSl port f).app.clk = s.app.clk ∧ (s.updSl port f).app.bkl = s.app.bkl ∧
    (s.updSl port f).app.mbx = s.app.mbx ∧ (s.updSl port f).app.pmc = s.app.pmc ∧
    (s.updSl port f).app.hrn = s.app.hrn ∧ (s.updSl port f).app.girth = s.app.girth ∧
    (s.updSl port f).app.harts = s.app.harts ∧ (s.updSl port f).app.mem = s.app.mem ∧
    (s.updSl port f).app.lane = s.app.lane ∧ (s.updSl port f).app.link = s.app.link ∧
    (s.updSl port f).app.eng = s.app.eng ∧ (s.updSl port f).app.ctx = s.app.ctx ∧
    (s.updSl port f).app.plc = s.app.plc ∧ (s.updSl port f).app.veh = s.app.veh ∧
    (s.updSl port f).app.server = s.app.server ∧ (s.updSl port f).app.journal = s.app.journal ∧ (s.updSl port f).app.incoh = s.app.incoh ∧
    (s.updSl port f).app.tack = s.app.tack ∧ (s.updSl port f).cold = s.cold ∧
    (s.updSl port f).coldMr = s.coldMr ∧ (s.updSl port f).trial = s.trial ∧
    (s.updSl port f).bridle = s.bridle ∧ (s.updSl port f).power = s.power ∧
    (s.updSl port f).die = s.die ∧ (s.updSl port f).fuses = s.fuses ∧
    (s.updSl port f).obj = s.obj ∧ (s.updSl port f).flash = s.flash ∧
    (s.updSl port f).sec = s.sec ∧ (s.updSl port f).fresh = s.fresh ∧
    (s.updSl port f).pending = s.pending := by
  simp [State.updSl]

/-- What `updPls` writes. -/
@[simp] theorem updPls_get (s : State) (k : Nat) (f : Pulse → Pulse) (j : Nat) : (s.updPls k f).die.met.pls.get j = if k = j then f (s.die.met.pls.get j) else s.die.met.pls.get j := by
  simp [State.updPls, Bank.get_upd]

@[simp] theorem updPls_same (s : State) (k : Nat) (f : Pulse → Pulse) :
    (s.updPls k f).app.clk = s.app.clk ∧ (s.updPls k f).app.bkl = s.app.bkl ∧
    (s.updPls k f).app.mbx = s.app.mbx ∧ (s.updPls k f).app.pmc = s.app.pmc ∧
    (s.updPls k f).app.hrn = s.app.hrn ∧ (s.updPls k f).app.girth = s.app.girth ∧
    (s.updPls k f).app.harts = s.app.harts ∧ (s.updPls k f).app.mem = s.app.mem ∧
    (s.updPls k f).app.lane = s.app.lane ∧ (s.updPls k f).app.link = s.app.link ∧
    (s.updPls k f).app.sl = s.app.sl ∧ (s.updPls k f).app.eng = s.app.eng ∧
    (s.updPls k f).app.ctx = s.app.ctx ∧ (s.updPls k f).app.plc = s.app.plc ∧
    (s.updPls k f).app.veh = s.app.veh ∧ (s.updPls k f).app.server = s.app.server ∧
    (s.updPls k f).app.journal = s.app.journal ∧ (s.updPls k f).app.incoh = s.app.incoh ∧ (s.updPls k f).app.tack = s.app.tack ∧
    (s.updPls k f).cold = s.cold ∧ (s.updPls k f).coldMr = s.coldMr ∧
    (s.updPls k f).trial = s.trial ∧ (s.updPls k f).bridle = s.bridle ∧
    (s.updPls k f).power = s.power ∧ (s.updPls k f).die.running = s.die.running ∧
    (s.updPls k f).die.inReset = s.die.inReset ∧ (s.updPls k f).die.link = s.die.link ∧
    (s.updPls k f).die.agreedAt = s.die.agreedAt ∧ (s.updPls k f).die.cur = s.die.cur ∧
    (s.updPls k f).die.saved = s.die.saved ∧ (s.updPls k f).die.legal = s.die.legal ∧
    (s.updPls k f).die.pf = s.die.pf ∧ (s.updPls k f).die.pfSaved = s.die.pfSaved ∧
    (s.updPls k f).die.obj = s.die.obj ∧ (s.updPls k f).die.staging = s.die.staging ∧
    (s.updPls k f).die.sel = s.die.sel ∧ (s.updPls k f).die.noticed = s.die.noticed ∧
    (s.updPls k f).die.panels = s.die.panels ∧ (s.updPls k f).die.key = s.die.key ∧
    (s.updPls k f).fuses = s.fuses ∧ (s.updPls k f).obj = s.obj ∧ (s.updPls k f).flash = s.flash ∧
    (s.updPls k f).sec = s.sec ∧ (s.updPls k f).fresh = s.fresh ∧ (s.updPls k f).pending = s.pending := by
  simp [State.updPls]

/-- What `updSrc` writes. -/
@[simp] theorem updSrc_get (s : State) (n : Nat) (f : BklSrc → BklSrc) (j : Nat) : (s.updSrc n f).app.bkl.src.get j = if n = j then f (s.app.bkl.src.get j) else s.app.bkl.src.get j := by
  simp [State.updSrc, Bank.get_upd]

@[simp] theorem updSrc_same (s : State) (n : Nat) (f : BklSrc → BklSrc) :
    (s.updSrc n f).app.clk = s.app.clk ∧ (s.updSrc n f).app.mbx = s.app.mbx ∧
    (s.updSrc n f).app.pmc = s.app.pmc ∧ (s.updSrc n f).app.hrn = s.app.hrn ∧
    (s.updSrc n f).app.girth = s.app.girth ∧ (s.updSrc n f).app.harts = s.app.harts ∧
    (s.updSrc n f).app.mem = s.app.mem ∧ (s.updSrc n f).app.lane = s.app.lane ∧
    (s.updSrc n f).app.link = s.app.link ∧ (s.updSrc n f).app.sl = s.app.sl ∧
    (s.updSrc n f).app.eng = s.app.eng ∧ (s.updSrc n f).app.ctx = s.app.ctx ∧
    (s.updSrc n f).app.plc = s.app.plc ∧ (s.updSrc n f).app.veh = s.app.veh ∧
    (s.updSrc n f).app.server = s.app.server ∧ (s.updSrc n f).app.journal = s.app.journal ∧ (s.updSrc n f).app.incoh = s.app.incoh ∧
    (s.updSrc n f).app.tack = s.app.tack ∧ (s.updSrc n f).cold = s.cold ∧
    (s.updSrc n f).coldMr = s.coldMr ∧ (s.updSrc n f).trial = s.trial ∧
    (s.updSrc n f).bridle = s.bridle ∧ (s.updSrc n f).power = s.power ∧
    (s.updSrc n f).die = s.die ∧ (s.updSrc n f).fuses = s.fuses ∧ (s.updSrc n f).obj = s.obj ∧
    (s.updSrc n f).flash = s.flash ∧ (s.updSrc n f).sec = s.sec ∧ (s.updSrc n f).fresh = s.fresh ∧
    (s.updSrc n f).pending = s.pending := by
  simp [State.updSrc]

/-- What `updCtx` writes. -/
@[simp] theorem updCtx_get (s : State) (slot : Nat) (f : Ctx → Ctx) (j : Nat) : (s.updCtx slot f).app.ctx.get j = if slot = j then f (s.app.ctx.get j) else s.app.ctx.get j := by
  simp [State.updCtx, Bank.get_upd]

@[simp] theorem updCtx_same (s : State) (slot : Nat) (f : Ctx → Ctx) :
    (s.updCtx slot f).app.clk = s.app.clk ∧ (s.updCtx slot f).app.bkl = s.app.bkl ∧
    (s.updCtx slot f).app.mbx = s.app.mbx ∧ (s.updCtx slot f).app.pmc = s.app.pmc ∧
    (s.updCtx slot f).app.hrn = s.app.hrn ∧ (s.updCtx slot f).app.girth = s.app.girth ∧
    (s.updCtx slot f).app.harts = s.app.harts ∧ (s.updCtx slot f).app.mem = s.app.mem ∧
    (s.updCtx slot f).app.lane = s.app.lane ∧ (s.updCtx slot f).app.link = s.app.link ∧
    (s.updCtx slot f).app.sl = s.app.sl ∧ (s.updCtx slot f).app.eng = s.app.eng ∧
    (s.updCtx slot f).app.plc = s.app.plc ∧ (s.updCtx slot f).app.veh = s.app.veh ∧
    (s.updCtx slot f).app.server = s.app.server ∧ (s.updCtx slot f).app.journal = s.app.journal ∧ (s.updCtx slot f).app.incoh = s.app.incoh ∧
    (s.updCtx slot f).app.tack = s.app.tack ∧ (s.updCtx slot f).cold = s.cold ∧
    (s.updCtx slot f).coldMr = s.coldMr ∧ (s.updCtx slot f).trial = s.trial ∧
    (s.updCtx slot f).bridle = s.bridle ∧ (s.updCtx slot f).power = s.power ∧
    (s.updCtx slot f).die = s.die ∧ (s.updCtx slot f).fuses = s.fuses ∧
    (s.updCtx slot f).obj = s.obj ∧ (s.updCtx slot f).flash = s.flash ∧
    (s.updCtx slot f).sec = s.sec ∧ (s.updCtx slot f).fresh = s.fresh ∧
    (s.updCtx slot f).pending = s.pending := by
  simp [State.updCtx]

/-- What `updEng` writes. -/
@[simp] theorem updEng_get (s : State) (e : Nat) (f : Engine → Engine) (j : Nat) : (s.updEng e f).app.eng.get j = if e = j then f (s.app.eng.get j) else s.app.eng.get j := by
  simp [State.updEng, Bank.get_upd]

@[simp] theorem updEng_same (s : State) (e : Nat) (f : Engine → Engine) :
    (s.updEng e f).app.clk = s.app.clk ∧ (s.updEng e f).app.bkl = s.app.bkl ∧
    (s.updEng e f).app.mbx = s.app.mbx ∧ (s.updEng e f).app.pmc = s.app.pmc ∧
    (s.updEng e f).app.hrn = s.app.hrn ∧ (s.updEng e f).app.girth = s.app.girth ∧
    (s.updEng e f).app.harts = s.app.harts ∧ (s.updEng e f).app.mem = s.app.mem ∧
    (s.updEng e f).app.lane = s.app.lane ∧ (s.updEng e f).app.link = s.app.link ∧
    (s.updEng e f).app.sl = s.app.sl ∧ (s.updEng e f).app.ctx = s.app.ctx ∧
    (s.updEng e f).app.plc = s.app.plc ∧ (s.updEng e f).app.veh = s.app.veh ∧
    (s.updEng e f).app.server = s.app.server ∧ (s.updEng e f).app.journal = s.app.journal ∧ (s.updEng e f).app.incoh = s.app.incoh ∧
    (s.updEng e f).app.tack = s.app.tack ∧ (s.updEng e f).cold = s.cold ∧
    (s.updEng e f).coldMr = s.coldMr ∧ (s.updEng e f).trial = s.trial ∧
    (s.updEng e f).bridle = s.bridle ∧ (s.updEng e f).power = s.power ∧
    (s.updEng e f).die = s.die ∧ (s.updEng e f).fuses = s.fuses ∧ (s.updEng e f).obj = s.obj ∧
    (s.updEng e f).flash = s.flash ∧ (s.updEng e f).sec = s.sec ∧ (s.updEng e f).fresh = s.fresh ∧
    (s.updEng e f).pending = s.pending := by
  simp [State.updEng]

/-- What `updPanel` writes. -/
@[simp] theorem updPanel_get (s : State) (m : Nat) (f : Panel → Panel) (j : Nat) : (s.updPanel m f).die.panels.get j = if m = j then f (s.die.panels.get j) else s.die.panels.get j := by
  simp [State.updPanel, Bank.get_upd]

@[simp] theorem updPanel_same (s : State) (m : Nat) (f : Panel → Panel) :
    (s.updPanel m f).app.clk = s.app.clk ∧ (s.updPanel m f).app.bkl = s.app.bkl ∧
    (s.updPanel m f).app.mbx = s.app.mbx ∧ (s.updPanel m f).app.pmc = s.app.pmc ∧
    (s.updPanel m f).app.hrn = s.app.hrn ∧ (s.updPanel m f).app.girth = s.app.girth ∧
    (s.updPanel m f).app.harts = s.app.harts ∧ (s.updPanel m f).app.mem = s.app.mem ∧
    (s.updPanel m f).app.lane = s.app.lane ∧ (s.updPanel m f).app.link = s.app.link ∧
    (s.updPanel m f).app.sl = s.app.sl ∧ (s.updPanel m f).app.eng = s.app.eng ∧
    (s.updPanel m f).app.ctx = s.app.ctx ∧ (s.updPanel m f).app.plc = s.app.plc ∧
    (s.updPanel m f).app.veh = s.app.veh ∧ (s.updPanel m f).app.server = s.app.server ∧
    (s.updPanel m f).app.journal = s.app.journal ∧ (s.updPanel m f).app.incoh = s.app.incoh ∧ (s.updPanel m f).app.tack = s.app.tack ∧
    (s.updPanel m f).cold = s.cold ∧ (s.updPanel m f).coldMr = s.coldMr ∧
    (s.updPanel m f).trial = s.trial ∧ (s.updPanel m f).bridle = s.bridle ∧
    (s.updPanel m f).power = s.power ∧ (s.updPanel m f).die.running = s.die.running ∧
    (s.updPanel m f).die.inReset = s.die.inReset ∧ (s.updPanel m f).die.link = s.die.link ∧
    (s.updPanel m f).die.agreedAt = s.die.agreedAt ∧ (s.updPanel m f).die.cur = s.die.cur ∧
    (s.updPanel m f).die.saved = s.die.saved ∧ (s.updPanel m f).die.met = s.die.met ∧
    (s.updPanel m f).die.legal = s.die.legal ∧ (s.updPanel m f).die.pf = s.die.pf ∧
    (s.updPanel m f).die.pfSaved = s.die.pfSaved ∧ (s.updPanel m f).die.obj = s.die.obj ∧
    (s.updPanel m f).die.staging = s.die.staging ∧ (s.updPanel m f).die.sel = s.die.sel ∧
    (s.updPanel m f).die.noticed = s.die.noticed ∧ (s.updPanel m f).die.key = s.die.key ∧
    (s.updPanel m f).fuses = s.fuses ∧ (s.updPanel m f).obj = s.obj ∧
    (s.updPanel m f).flash = s.flash ∧ (s.updPanel m f).sec = s.sec ∧
    (s.updPanel m f).fresh = s.fresh ∧ (s.updPanel m f).pending = s.pending := by
  simp [State.updPanel]

/-- What `updRd` writes. -/
@[simp] theorem updRd_get (s : State) (n : Nat) (f : Reader → Reader) (j : Nat) : (s.updRd n f).power.readers.get j = if n = j then f (s.power.readers.get j) else s.power.readers.get j := by
  simp [State.updRd, Bank.get_upd]

@[simp] theorem updRd_same (s : State) (n : Nat) (f : Reader → Reader) :
    (s.updRd n f).app.clk = s.app.clk ∧ (s.updRd n f).app.bkl = s.app.bkl ∧
    (s.updRd n f).app.mbx = s.app.mbx ∧ (s.updRd n f).app.pmc = s.app.pmc ∧
    (s.updRd n f).app.hrn = s.app.hrn ∧ (s.updRd n f).app.girth = s.app.girth ∧
    (s.updRd n f).app.harts = s.app.harts ∧ (s.updRd n f).app.mem = s.app.mem ∧
    (s.updRd n f).app.lane = s.app.lane ∧ (s.updRd n f).app.link = s.app.link ∧
    (s.updRd n f).app.sl = s.app.sl ∧ (s.updRd n f).app.eng = s.app.eng ∧
    (s.updRd n f).app.ctx = s.app.ctx ∧ (s.updRd n f).app.plc = s.app.plc ∧
    (s.updRd n f).app.veh = s.app.veh ∧ (s.updRd n f).app.server = s.app.server ∧
    (s.updRd n f).app.journal = s.app.journal ∧ (s.updRd n f).app.incoh = s.app.incoh ∧ (s.updRd n f).app.tack = s.app.tack ∧
    (s.updRd n f).cold = s.cold ∧ (s.updRd n f).coldMr = s.coldMr ∧ (s.updRd n f).trial = s.trial ∧
    (s.updRd n f).bridle = s.bridle ∧ (s.updRd n f).power.safe = s.power.safe ∧
    (s.updRd n f).power.clkOk = s.power.clkOk ∧ (s.updRd n f).power.report = s.power.report ∧
    (s.updRd n f).power.hbRun = s.power.hbRun ∧ (s.updRd n f).power.vload = s.power.vload ∧
    (s.updRd n f).power.vpilp = s.power.vpilp ∧ (s.updRd n f).power.vpiln = s.power.vpiln ∧
    (s.updRd n f).power.vdrv = s.power.vdrv ∧ (s.updRd n f).power.pfin = s.power.pfin ∧
    (s.updRd n f).power.coils = s.power.coils ∧ (s.updRd n f).power.loads = s.power.loads ∧
    (s.updRd n f).power.pilots = s.power.pilots ∧ (s.updRd n f).power.trimmed = s.power.trimmed ∧
    (s.updRd n f).power.period = s.power.period ∧
    (s.updRd n f).power.pilRebuilt = s.power.pilRebuilt ∧
    (s.updRd n f).power.tsLatch = s.power.tsLatch ∧
    (s.updRd n f).power.protLock = s.power.protLock ∧
    (s.updRd n f).power.retryWin = s.power.retryWin ∧
    (s.updRd n f).power.retryMax = s.power.retryMax ∧ (s.updRd n f).power.test = s.power.test ∧
    (s.updRd n f).power.run = s.power.run ∧ (s.updRd n f).power.qtemp = s.power.qtemp ∧
    (s.updRd n f).power.qband = s.power.qband ∧ (s.updRd n f).power.qchg = s.power.qchg ∧
    (s.updRd n f).power.sum = s.power.sum ∧ (s.updRd n f).power.sumOver = s.power.sumOver ∧
    (s.updRd n f).power.rc = s.power.rc ∧ (s.updRd n f).power.im = s.power.im ∧
    (s.updRd n f).power.sto = s.power.sto ∧ (s.updRd n f).power.seq = s.power.seq ∧
    (s.updRd n f).power.seqPerm = s.power.seqPerm ∧ (s.updRd n f).power.seqProx = s.power.seqProx ∧
    (s.updRd n f).power.psq = s.power.psq ∧ (s.updRd n f).power.psqDue = s.power.psqDue ∧
    (s.updRd n f).power.fields = s.power.fields ∧ (s.updRd n f).power.lines = s.power.lines ∧
    (s.updRd n f).power.tags = s.power.tags ∧ (s.updRd n f).die = s.die ∧
    (s.updRd n f).fuses = s.fuses ∧ (s.updRd n f).obj = s.obj ∧ (s.updRd n f).flash = s.flash ∧
    (s.updRd n f).sec = s.sec ∧ (s.updRd n f).fresh = s.fresh ∧ (s.updRd n f).pending = s.pending := by
  simp [State.updRd]

/-- What `updTag` writes. -/
@[simp] theorem updTag_get (s : State) (k : Nat) (f : TagSlot → TagSlot) (j : Nat) : (s.updTag k f).power.tags.get j = if k = j then f (s.power.tags.get j) else s.power.tags.get j := by
  simp [State.updTag, Bank.get_upd]

@[simp] theorem updTag_same (s : State) (k : Nat) (f : TagSlot → TagSlot) :
    (s.updTag k f).app.clk = s.app.clk ∧ (s.updTag k f).app.bkl = s.app.bkl ∧
    (s.updTag k f).app.mbx = s.app.mbx ∧ (s.updTag k f).app.pmc = s.app.pmc ∧
    (s.updTag k f).app.hrn = s.app.hrn ∧ (s.updTag k f).app.girth = s.app.girth ∧
    (s.updTag k f).app.harts = s.app.harts ∧ (s.updTag k f).app.mem = s.app.mem ∧
    (s.updTag k f).app.lane = s.app.lane ∧ (s.updTag k f).app.link = s.app.link ∧
    (s.updTag k f).app.sl = s.app.sl ∧ (s.updTag k f).app.eng = s.app.eng ∧
    (s.updTag k f).app.ctx = s.app.ctx ∧ (s.updTag k f).app.plc = s.app.plc ∧
    (s.updTag k f).app.veh = s.app.veh ∧ (s.updTag k f).app.server = s.app.server ∧
    (s.updTag k f).app.journal = s.app.journal ∧ (s.updTag k f).app.incoh = s.app.incoh ∧ (s.updTag k f).app.tack = s.app.tack ∧
    (s.updTag k f).cold = s.cold ∧ (s.updTag k f).coldMr = s.coldMr ∧
    (s.updTag k f).trial = s.trial ∧ (s.updTag k f).bridle = s.bridle ∧
    (s.updTag k f).power.safe = s.power.safe ∧ (s.updTag k f).power.clkOk = s.power.clkOk ∧
    (s.updTag k f).power.report = s.power.report ∧ (s.updTag k f).power.hbRun = s.power.hbRun ∧
    (s.updTag k f).power.vload = s.power.vload ∧ (s.updTag k f).power.vpilp = s.power.vpilp ∧
    (s.updTag k f).power.vpiln = s.power.vpiln ∧ (s.updTag k f).power.vdrv = s.power.vdrv ∧
    (s.updTag k f).power.pfin = s.power.pfin ∧ (s.updTag k f).power.coils = s.power.coils ∧
    (s.updTag k f).power.loads = s.power.loads ∧ (s.updTag k f).power.pilots = s.power.pilots ∧
    (s.updTag k f).power.trimmed = s.power.trimmed ∧ (s.updTag k f).power.period = s.power.period ∧
    (s.updTag k f).power.pilRebuilt = s.power.pilRebuilt ∧
    (s.updTag k f).power.tsLatch = s.power.tsLatch ∧
    (s.updTag k f).power.protLock = s.power.protLock ∧
    (s.updTag k f).power.retryWin = s.power.retryWin ∧
    (s.updTag k f).power.retryMax = s.power.retryMax ∧ (s.updTag k f).power.test = s.power.test ∧
    (s.updTag k f).power.run = s.power.run ∧ (s.updTag k f).power.qtemp = s.power.qtemp ∧
    (s.updTag k f).power.qband = s.power.qband ∧ (s.updTag k f).power.qchg = s.power.qchg ∧
    (s.updTag k f).power.sum = s.power.sum ∧ (s.updTag k f).power.sumOver = s.power.sumOver ∧
    (s.updTag k f).power.rc = s.power.rc ∧ (s.updTag k f).power.im = s.power.im ∧
    (s.updTag k f).power.sto = s.power.sto ∧ (s.updTag k f).power.seq = s.power.seq ∧
    (s.updTag k f).power.seqPerm = s.power.seqPerm ∧
    (s.updTag k f).power.seqProx = s.power.seqProx ∧ (s.updTag k f).power.psq = s.power.psq ∧
    (s.updTag k f).power.psqDue = s.power.psqDue ∧ (s.updTag k f).power.fields = s.power.fields ∧
    (s.updTag k f).power.lines = s.power.lines ∧ (s.updTag k f).power.readers = s.power.readers ∧
    (s.updTag k f).die = s.die ∧ (s.updTag k f).fuses = s.fuses ∧ (s.updTag k f).obj = s.obj ∧
    (s.updTag k f).flash = s.flash ∧ (s.updTag k f).sec = s.sec ∧ (s.updTag k f).fresh = s.fresh ∧
    (s.updTag k f).pending = s.pending := by
  simp [State.updTag]

/-- What `updElem` writes. -/
@[simp] theorem updElem_get (s : State) (e : Nat) (f : Elem → Elem) (j : Nat) : (s.updElem e f).die.met.elem.get j = if e = j then f (s.die.met.elem.get j) else s.die.met.elem.get j := by
  simp [State.updElem, Bank.get_upd]

@[simp] theorem updElem_same (s : State) (e : Nat) (f : Elem → Elem) :
    (s.updElem e f).app.clk = s.app.clk ∧ (s.updElem e f).app.bkl = s.app.bkl ∧
    (s.updElem e f).app.mbx = s.app.mbx ∧ (s.updElem e f).app.pmc = s.app.pmc ∧
    (s.updElem e f).app.hrn = s.app.hrn ∧ (s.updElem e f).app.girth = s.app.girth ∧
    (s.updElem e f).app.harts = s.app.harts ∧ (s.updElem e f).app.mem = s.app.mem ∧
    (s.updElem e f).app.lane = s.app.lane ∧ (s.updElem e f).app.link = s.app.link ∧
    (s.updElem e f).app.sl = s.app.sl ∧ (s.updElem e f).app.eng = s.app.eng ∧
    (s.updElem e f).app.ctx = s.app.ctx ∧ (s.updElem e f).app.plc = s.app.plc ∧
    (s.updElem e f).app.veh = s.app.veh ∧ (s.updElem e f).app.server = s.app.server ∧
    (s.updElem e f).app.journal = s.app.journal ∧ (s.updElem e f).app.incoh = s.app.incoh ∧ (s.updElem e f).app.tack = s.app.tack ∧
    (s.updElem e f).cold = s.cold ∧ (s.updElem e f).coldMr = s.coldMr ∧
    (s.updElem e f).trial = s.trial ∧ (s.updElem e f).bridle = s.bridle ∧
    (s.updElem e f).power = s.power ∧ (s.updElem e f).die.running = s.die.running ∧
    (s.updElem e f).die.inReset = s.die.inReset ∧ (s.updElem e f).die.link = s.die.link ∧
    (s.updElem e f).die.agreedAt = s.die.agreedAt ∧ (s.updElem e f).die.cur = s.die.cur ∧
    (s.updElem e f).die.saved = s.die.saved ∧ (s.updElem e f).die.legal = s.die.legal ∧
    (s.updElem e f).die.pf = s.die.pf ∧ (s.updElem e f).die.pfSaved = s.die.pfSaved ∧
    (s.updElem e f).die.obj = s.die.obj ∧ (s.updElem e f).die.staging = s.die.staging ∧
    (s.updElem e f).die.sel = s.die.sel ∧ (s.updElem e f).die.noticed = s.die.noticed ∧
    (s.updElem e f).die.panels = s.die.panels ∧ (s.updElem e f).die.key = s.die.key ∧
    (s.updElem e f).fuses = s.fuses ∧ (s.updElem e f).obj = s.obj ∧
    (s.updElem e f).flash = s.flash ∧ (s.updElem e f).sec = s.sec ∧
    (s.updElem e f).fresh = s.fresh ∧ (s.updElem e f).pending = s.pending := by
  simp [State.updElem]

/-- What `updChan` writes. -/
@[simp] theorem updChan_get (s : State) (c : Nat) (f : Chan → Chan) (j : Nat) : (s.updChan c f).die.met.chan.get j = if c = j then f (s.die.met.chan.get j) else s.die.met.chan.get j := by
  simp [State.updChan, Bank.get_upd]

@[simp] theorem updChan_same (s : State) (c : Nat) (f : Chan → Chan) :
    (s.updChan c f).app.clk = s.app.clk ∧ (s.updChan c f).app.bkl = s.app.bkl ∧
    (s.updChan c f).app.mbx = s.app.mbx ∧ (s.updChan c f).app.pmc = s.app.pmc ∧
    (s.updChan c f).app.hrn = s.app.hrn ∧ (s.updChan c f).app.girth = s.app.girth ∧
    (s.updChan c f).app.harts = s.app.harts ∧ (s.updChan c f).app.mem = s.app.mem ∧
    (s.updChan c f).app.lane = s.app.lane ∧ (s.updChan c f).app.link = s.app.link ∧
    (s.updChan c f).app.sl = s.app.sl ∧ (s.updChan c f).app.eng = s.app.eng ∧
    (s.updChan c f).app.ctx = s.app.ctx ∧ (s.updChan c f).app.plc = s.app.plc ∧
    (s.updChan c f).app.veh = s.app.veh ∧ (s.updChan c f).app.server = s.app.server ∧
    (s.updChan c f).app.journal = s.app.journal ∧ (s.updChan c f).app.incoh = s.app.incoh ∧ (s.updChan c f).app.tack = s.app.tack ∧
    (s.updChan c f).cold = s.cold ∧ (s.updChan c f).coldMr = s.coldMr ∧
    (s.updChan c f).trial = s.trial ∧ (s.updChan c f).bridle = s.bridle ∧
    (s.updChan c f).power = s.power ∧ (s.updChan c f).die.running = s.die.running ∧
    (s.updChan c f).die.inReset = s.die.inReset ∧ (s.updChan c f).die.link = s.die.link ∧
    (s.updChan c f).die.agreedAt = s.die.agreedAt ∧ (s.updChan c f).die.cur = s.die.cur ∧
    (s.updChan c f).die.saved = s.die.saved ∧ (s.updChan c f).die.legal = s.die.legal ∧
    (s.updChan c f).die.pf = s.die.pf ∧ (s.updChan c f).die.pfSaved = s.die.pfSaved ∧
    (s.updChan c f).die.obj = s.die.obj ∧ (s.updChan c f).die.staging = s.die.staging ∧
    (s.updChan c f).die.sel = s.die.sel ∧ (s.updChan c f).die.noticed = s.die.noticed ∧
    (s.updChan c f).die.panels = s.die.panels ∧ (s.updChan c f).die.key = s.die.key ∧
    (s.updChan c f).fuses = s.fuses ∧ (s.updChan c f).obj = s.obj ∧
    (s.updChan c f).flash = s.flash ∧ (s.updChan c f).sec = s.sec ∧
    (s.updChan c f).fresh = s.fresh ∧ (s.updChan c f).pending = s.pending := by
  simp [State.updChan]

/-- What `updPt` writes. -/
@[simp] theorem updPt_get (s : State) (p : Nat) (f : PointBill → PointBill) (j : Nat) : (s.updPt p f).die.cur.pts.get j = if p = j then f (s.die.cur.pts.get j) else s.die.cur.pts.get j := by
  simp [State.updPt, Bank.get_upd]

@[simp] theorem updPt_same (s : State) (p : Nat) (f : PointBill → PointBill) :
    (s.updPt p f).app.clk = s.app.clk ∧ (s.updPt p f).app.bkl = s.app.bkl ∧
    (s.updPt p f).app.mbx = s.app.mbx ∧ (s.updPt p f).app.pmc = s.app.pmc ∧
    (s.updPt p f).app.hrn = s.app.hrn ∧ (s.updPt p f).app.girth = s.app.girth ∧
    (s.updPt p f).app.harts = s.app.harts ∧ (s.updPt p f).app.mem = s.app.mem ∧
    (s.updPt p f).app.lane = s.app.lane ∧ (s.updPt p f).app.link = s.app.link ∧
    (s.updPt p f).app.sl = s.app.sl ∧ (s.updPt p f).app.eng = s.app.eng ∧
    (s.updPt p f).app.ctx = s.app.ctx ∧ (s.updPt p f).app.plc = s.app.plc ∧
    (s.updPt p f).app.veh = s.app.veh ∧ (s.updPt p f).app.server = s.app.server ∧
    (s.updPt p f).app.journal = s.app.journal ∧ (s.updPt p f).app.incoh = s.app.incoh ∧ (s.updPt p f).app.tack = s.app.tack ∧
    (s.updPt p f).cold = s.cold ∧ (s.updPt p f).coldMr = s.coldMr ∧ (s.updPt p f).trial = s.trial ∧
    (s.updPt p f).bridle = s.bridle ∧ (s.updPt p f).power = s.power ∧
    (s.updPt p f).die.running = s.die.running ∧ (s.updPt p f).die.inReset = s.die.inReset ∧
    (s.updPt p f).die.link = s.die.link ∧ (s.updPt p f).die.agreedAt = s.die.agreedAt ∧
    (s.updPt p f).die.saved = s.die.saved ∧ (s.updPt p f).die.met = s.die.met ∧
    (s.updPt p f).die.legal = s.die.legal ∧ (s.updPt p f).die.pf = s.die.pf ∧
    (s.updPt p f).die.pfSaved = s.die.pfSaved ∧ (s.updPt p f).die.obj = s.die.obj ∧
    (s.updPt p f).die.staging = s.die.staging ∧ (s.updPt p f).die.sel = s.die.sel ∧
    (s.updPt p f).die.noticed = s.die.noticed ∧ (s.updPt p f).die.panels = s.die.panels ∧
    (s.updPt p f).die.key = s.die.key ∧ (s.updPt p f).fuses = s.fuses ∧ (s.updPt p f).obj = s.obj ∧
    (s.updPt p f).flash = s.flash ∧ (s.updPt p f).sec = s.sec ∧ (s.updPt p f).fresh = s.fresh ∧
    (s.updPt p f).pending = s.pending := by
  simp [State.updPt]

/-- What `updVs` writes. -/
@[simp] theorem updVs_get (s : State) (slot : Nat) (f : VSess → VSess) (j : Nat) : (s.updVs slot f).app.veh.sess.get j = if slot = j then f (s.app.veh.sess.get j) else s.app.veh.sess.get j := by
  simp [State.updVs, Bank.get_upd]

@[simp] theorem updVs_same (s : State) (slot : Nat) (f : VSess → VSess) :
    (s.updVs slot f).app.clk = s.app.clk ∧ (s.updVs slot f).app.bkl = s.app.bkl ∧
    (s.updVs slot f).app.mbx = s.app.mbx ∧ (s.updVs slot f).app.pmc = s.app.pmc ∧
    (s.updVs slot f).app.hrn = s.app.hrn ∧ (s.updVs slot f).app.girth = s.app.girth ∧
    (s.updVs slot f).app.harts = s.app.harts ∧ (s.updVs slot f).app.mem = s.app.mem ∧
    (s.updVs slot f).app.lane = s.app.lane ∧ (s.updVs slot f).app.link = s.app.link ∧
    (s.updVs slot f).app.sl = s.app.sl ∧ (s.updVs slot f).app.eng = s.app.eng ∧
    (s.updVs slot f).app.ctx = s.app.ctx ∧ (s.updVs slot f).app.plc = s.app.plc ∧
    (s.updVs slot f).app.server = s.app.server ∧ (s.updVs slot f).app.journal = s.app.journal ∧ (s.updVs slot f).app.incoh = s.app.incoh ∧
    (s.updVs slot f).app.tack = s.app.tack ∧ (s.updVs slot f).cold = s.cold ∧
    (s.updVs slot f).coldMr = s.coldMr ∧ (s.updVs slot f).trial = s.trial ∧
    (s.updVs slot f).bridle = s.bridle ∧ (s.updVs slot f).power = s.power ∧
    (s.updVs slot f).die = s.die ∧ (s.updVs slot f).fuses = s.fuses ∧
    (s.updVs slot f).obj = s.obj ∧ (s.updVs slot f).flash = s.flash ∧
    (s.updVs slot f).sec = s.sec ∧ (s.updVs slot f).fresh = s.fresh ∧
    (s.updVs slot f).pending = s.pending := by
  simp [State.updVs]

/-- What `updVc` writes. -/
@[simp] theorem updVc_get (s : State) (n : Nat) (f : V2gConn → V2gConn) (j : Nat) : (s.updVc n f).app.veh.conn.get j = if n = j then f (s.app.veh.conn.get j) else s.app.veh.conn.get j := by
  simp [State.updVc, Bank.get_upd]

@[simp] theorem updVc_same (s : State) (n : Nat) (f : V2gConn → V2gConn) :
    (s.updVc n f).app.clk = s.app.clk ∧ (s.updVc n f).app.bkl = s.app.bkl ∧
    (s.updVc n f).app.mbx = s.app.mbx ∧ (s.updVc n f).app.pmc = s.app.pmc ∧
    (s.updVc n f).app.hrn = s.app.hrn ∧ (s.updVc n f).app.girth = s.app.girth ∧
    (s.updVc n f).app.harts = s.app.harts ∧ (s.updVc n f).app.mem = s.app.mem ∧
    (s.updVc n f).app.lane = s.app.lane ∧ (s.updVc n f).app.link = s.app.link ∧
    (s.updVc n f).app.sl = s.app.sl ∧ (s.updVc n f).app.eng = s.app.eng ∧
    (s.updVc n f).app.ctx = s.app.ctx ∧ (s.updVc n f).app.plc = s.app.plc ∧
    (s.updVc n f).app.server = s.app.server ∧ (s.updVc n f).app.journal = s.app.journal ∧ (s.updVc n f).app.incoh = s.app.incoh ∧
    (s.updVc n f).app.tack = s.app.tack ∧ (s.updVc n f).cold = s.cold ∧
    (s.updVc n f).coldMr = s.coldMr ∧ (s.updVc n f).trial = s.trial ∧
    (s.updVc n f).bridle = s.bridle ∧ (s.updVc n f).power = s.power ∧ (s.updVc n f).die = s.die ∧
    (s.updVc n f).fuses = s.fuses ∧ (s.updVc n f).obj = s.obj ∧ (s.updVc n f).flash = s.flash ∧
    (s.updVc n f).sec = s.sec ∧ (s.updVc n f).fresh = s.fresh ∧ (s.updVc n f).pending = s.pending := by
  simp [State.updVc]

@[simp] theorem setSobj_same (s : State) (i j : Nat) (v : List Byte) :
    (s.setSobj i j v).app.clk = s.app.clk ∧ (s.setSobj i j v).app.bkl = s.app.bkl ∧
    (s.setSobj i j v).app.mbx = s.app.mbx ∧ (s.setSobj i j v).app.pmc = s.app.pmc ∧
    (s.setSobj i j v).app.hrn = s.app.hrn ∧ (s.setSobj i j v).app.girth = s.app.girth ∧
    (s.setSobj i j v).app.harts = s.app.harts ∧ (s.setSobj i j v).app.mem = s.app.mem ∧
    (s.setSobj i j v).app.lane = s.app.lane ∧ (s.setSobj i j v).app.link = s.app.link ∧
    (s.setSobj i j v).app.sl = s.app.sl ∧ (s.setSobj i j v).app.eng = s.app.eng ∧
    (s.setSobj i j v).app.ctx = s.app.ctx ∧ (s.setSobj i j v).app.plc = s.app.plc ∧
    (s.setSobj i j v).app.veh = s.app.veh ∧ (s.setSobj i j v).app.server = s.app.server ∧
    (s.setSobj i j v).app.journal = s.app.journal ∧ (s.setSobj i j v).app.incoh = s.app.incoh ∧ (s.setSobj i j v).app.tack = s.app.tack ∧
    (s.setSobj i j v).cold = s.cold ∧ (s.setSobj i j v).coldMr = s.coldMr ∧
    (s.setSobj i j v).trial = s.trial ∧ (s.setSobj i j v).bridle = s.bridle ∧
    (s.setSobj i j v).power = s.power ∧ (s.setSobj i j v).die.running = s.die.running ∧
    (s.setSobj i j v).die.inReset = s.die.inReset ∧ (s.setSobj i j v).die.link = s.die.link ∧
    (s.setSobj i j v).die.agreedAt = s.die.agreedAt ∧ (s.setSobj i j v).die.cur = s.die.cur ∧
    (s.setSobj i j v).die.saved = s.die.saved ∧ (s.setSobj i j v).die.met = s.die.met ∧
    (s.setSobj i j v).die.legal = s.die.legal ∧ (s.setSobj i j v).die.pf = s.die.pf ∧
    (s.setSobj i j v).die.pfSaved = s.die.pfSaved ∧ (s.setSobj i j v).die.staging = s.die.staging ∧
    (s.setSobj i j v).die.sel = s.die.sel ∧ (s.setSobj i j v).die.noticed = s.die.noticed ∧
    (s.setSobj i j v).die.panels = s.die.panels ∧ (s.setSobj i j v).die.key = s.die.key ∧
    (s.setSobj i j v).fuses = s.fuses ∧ (s.setSobj i j v).obj = s.obj ∧
    (s.setSobj i j v).flash = s.flash ∧ (s.setSobj i j v).sec = s.sec ∧
    (s.setSobj i j v).fresh = s.fresh ∧ (s.setSobj i j v).pending = s.pending := by
  simp [State.setSobj]

@[simp] theorem setObj_same (s : State) (i j : Nat) (v : List Byte) :
    (s.setObj i j v).app.clk = s.app.clk ∧ (s.setObj i j v).app.bkl = s.app.bkl ∧
    (s.setObj i j v).app.mbx = s.app.mbx ∧ (s.setObj i j v).app.pmc = s.app.pmc ∧
    (s.setObj i j v).app.hrn = s.app.hrn ∧ (s.setObj i j v).app.girth = s.app.girth ∧
    (s.setObj i j v).app.harts = s.app.harts ∧ (s.setObj i j v).app.mem = s.app.mem ∧
    (s.setObj i j v).app.lane = s.app.lane ∧ (s.setObj i j v).app.link = s.app.link ∧
    (s.setObj i j v).app.sl = s.app.sl ∧ (s.setObj i j v).app.eng = s.app.eng ∧
    (s.setObj i j v).app.ctx = s.app.ctx ∧ (s.setObj i j v).app.plc = s.app.plc ∧
    (s.setObj i j v).app.veh = s.app.veh ∧ (s.setObj i j v).app.server = s.app.server ∧
    (s.setObj i j v).app.journal = s.app.journal ∧ (s.setObj i j v).app.incoh = s.app.incoh ∧ (s.setObj i j v).app.tack = s.app.tack ∧
    (s.setObj i j v).cold = s.cold ∧ (s.setObj i j v).coldMr = s.coldMr ∧
    (s.setObj i j v).trial = s.trial ∧ (s.setObj i j v).bridle = s.bridle ∧
    (s.setObj i j v).power = s.power ∧ (s.setObj i j v).die = s.die ∧
    (s.setObj i j v).fuses = s.fuses ∧ (s.setObj i j v).flash = s.flash ∧
    (s.setObj i j v).sec = s.sec ∧ (s.setObj i j v).fresh = s.fresh ∧
    (s.setObj i j v).pending = s.pending := by
  simp [State.setObj]

@[simp] theorem setVol_same (s : State) (i j : Nat) (v : List Byte) :
    (s.setVol i j v).app.clk = s.app.clk ∧ (s.setVol i j v).app.bkl = s.app.bkl ∧
    (s.setVol i j v).app.mbx = s.app.mbx ∧ (s.setVol i j v).app.pmc = s.app.pmc ∧
    (s.setVol i j v).app.hrn = s.app.hrn ∧ (s.setVol i j v).app.girth = s.app.girth ∧
    (s.setVol i j v).app.harts = s.app.harts ∧ (s.setVol i j v).app.mem = s.app.mem ∧
    (s.setVol i j v).app.lane = s.app.lane ∧ (s.setVol i j v).app.link = s.app.link ∧
    (s.setVol i j v).app.sl = s.app.sl ∧ (s.setVol i j v).app.eng = s.app.eng ∧
    (s.setVol i j v).app.ctx = s.app.ctx ∧ (s.setVol i j v).app.plc = s.app.plc ∧
    (s.setVol i j v).app.veh = s.app.veh ∧ (s.setVol i j v).app.journal = s.app.journal ∧ (s.setVol i j v).app.incoh = s.app.incoh ∧
    (s.setVol i j v).app.tack = s.app.tack ∧ (s.setVol i j v).cold = s.cold ∧
    (s.setVol i j v).coldMr = s.coldMr ∧ (s.setVol i j v).trial = s.trial ∧
    (s.setVol i j v).bridle = s.bridle ∧ (s.setVol i j v).power = s.power ∧
    (s.setVol i j v).die = s.die ∧ (s.setVol i j v).fuses = s.fuses ∧
    (s.setVol i j v).obj = s.obj ∧ (s.setVol i j v).flash = s.flash ∧
    (s.setVol i j v).sec = s.sec ∧ (s.setVol i j v).fresh = s.fresh ∧
    (s.setVol i j v).pending = s.pending := by
  simp [State.setVol]

@[simp] theorem updKey_same (s : State) (f : Keypad → Keypad) :
    (s.updKey f).app.clk = s.app.clk ∧ (s.updKey f).app.bkl = s.app.bkl ∧
    (s.updKey f).app.mbx = s.app.mbx ∧ (s.updKey f).app.pmc = s.app.pmc ∧
    (s.updKey f).app.hrn = s.app.hrn ∧ (s.updKey f).app.girth = s.app.girth ∧
    (s.updKey f).app.harts = s.app.harts ∧ (s.updKey f).app.mem = s.app.mem ∧
    (s.updKey f).app.lane = s.app.lane ∧ (s.updKey f).app.link = s.app.link ∧
    (s.updKey f).app.sl = s.app.sl ∧ (s.updKey f).app.eng = s.app.eng ∧
    (s.updKey f).app.ctx = s.app.ctx ∧ (s.updKey f).app.plc = s.app.plc ∧
    (s.updKey f).app.veh = s.app.veh ∧ (s.updKey f).app.server = s.app.server ∧
    (s.updKey f).app.journal = s.app.journal ∧ (s.updKey f).app.incoh = s.app.incoh ∧ (s.updKey f).app.tack = s.app.tack ∧
    (s.updKey f).cold = s.cold ∧ (s.updKey f).coldMr = s.coldMr ∧ (s.updKey f).trial = s.trial ∧
    (s.updKey f).bridle = s.bridle ∧ (s.updKey f).power = s.power ∧
    (s.updKey f).die.running = s.die.running ∧ (s.updKey f).die.inReset = s.die.inReset ∧
    (s.updKey f).die.link = s.die.link ∧ (s.updKey f).die.agreedAt = s.die.agreedAt ∧
    (s.updKey f).die.cur = s.die.cur ∧ (s.updKey f).die.saved = s.die.saved ∧
    (s.updKey f).die.met = s.die.met ∧ (s.updKey f).die.legal = s.die.legal ∧
    (s.updKey f).die.pf = s.die.pf ∧ (s.updKey f).die.pfSaved = s.die.pfSaved ∧
    (s.updKey f).die.obj = s.die.obj ∧ (s.updKey f).die.staging = s.die.staging ∧
    (s.updKey f).die.sel = s.die.sel ∧ (s.updKey f).die.noticed = s.die.noticed ∧
    (s.updKey f).die.panels = s.die.panels ∧ (s.updKey f).fuses = s.fuses ∧
    (s.updKey f).obj = s.obj ∧ (s.updKey f).flash = s.flash ∧ (s.updKey f).sec = s.sec ∧
    (s.updKey f).fresh = s.fresh ∧ (s.updKey f).pending = s.pending := by
  simp [State.updKey]

@[simp] theorem updUpd_same (s : State) (f : Update → Update) :
    (s.updUpd f).app.clk = s.app.clk ∧ (s.updUpd f).app.bkl = s.app.bkl ∧
    (s.updUpd f).app.mbx = s.app.mbx ∧ (s.updUpd f).app.pmc = s.app.pmc ∧
    (s.updUpd f).app.hrn = s.app.hrn ∧ (s.updUpd f).app.girth = s.app.girth ∧
    (s.updUpd f).app.harts = s.app.harts ∧ (s.updUpd f).app.mem = s.app.mem ∧
    (s.updUpd f).app.lane = s.app.lane ∧ (s.updUpd f).app.link = s.app.link ∧
    (s.updUpd f).app.sl = s.app.sl ∧ (s.updUpd f).app.eng = s.app.eng ∧
    (s.updUpd f).app.ctx = s.app.ctx ∧ (s.updUpd f).app.plc = s.app.plc ∧
    (s.updUpd f).app.veh = s.app.veh ∧ (s.updUpd f).app.server = s.app.server ∧
    (s.updUpd f).app.journal = s.app.journal ∧ (s.updUpd f).app.incoh = s.app.incoh ∧ (s.updUpd f).app.tack = s.app.tack ∧
    (s.updUpd f).cold = s.cold ∧ (s.updUpd f).coldMr = s.coldMr ∧ (s.updUpd f).trial = s.trial ∧
    (s.updUpd f).bridle = s.bridle ∧ (s.updUpd f).power = s.power ∧ (s.updUpd f).die = s.die ∧
    (s.updUpd f).fuses = s.fuses ∧ (s.updUpd f).obj = s.obj ∧ (s.updUpd f).flash = s.flash ∧
    (s.updUpd f).fresh = s.fresh ∧ (s.updUpd f).pending = s.pending := by
  simp [State.updUpd]

@[simp] theorem updConn_same (s : State) (c : Nat) (f : Conn → Conn) :
    (s.updConn c f).app.clk = s.app.clk ∧ (s.updConn c f).app.bkl = s.app.bkl ∧
    (s.updConn c f).app.mbx = s.app.mbx ∧ (s.updConn c f).app.pmc = s.app.pmc ∧
    (s.updConn c f).app.hrn = s.app.hrn ∧ (s.updConn c f).app.girth = s.app.girth ∧
    (s.updConn c f).app.harts = s.app.harts ∧ (s.updConn c f).app.mem = s.app.mem ∧
    (s.updConn c f).app.lane = s.app.lane ∧ (s.updConn c f).app.link = s.app.link ∧
    (s.updConn c f).app.sl = s.app.sl ∧ (s.updConn c f).app.eng = s.app.eng ∧
    (s.updConn c f).app.ctx = s.app.ctx ∧ (s.updConn c f).app.plc = s.app.plc ∧
    (s.updConn c f).app.veh = s.app.veh ∧ (s.updConn c f).app.journal = s.app.journal ∧ (s.updConn c f).app.incoh = s.app.incoh ∧
    (s.updConn c f).app.tack = s.app.tack ∧ (s.updConn c f).cold = s.cold ∧
    (s.updConn c f).coldMr = s.coldMr ∧ (s.updConn c f).trial = s.trial ∧
    (s.updConn c f).bridle = s.bridle ∧ (s.updConn c f).power = s.power ∧
    (s.updConn c f).die = s.die ∧ (s.updConn c f).fuses = s.fuses ∧ (s.updConn c f).obj = s.obj ∧
    (s.updConn c f).flash = s.flash ∧ (s.updConn c f).sec = s.sec ∧
    (s.updConn c f).fresh = s.fresh ∧ (s.updConn c f).pending = s.pending := by
  simp [State.updConn]

@[simp] theorem updPlc_same (s : State) (n : Nat) (f : PlcCh → PlcCh) :
    (s.updPlc n f).app.clk = s.app.clk ∧ (s.updPlc n f).app.mbx = s.app.mbx ∧
    (s.updPlc n f).app.pmc = s.app.pmc ∧ (s.updPlc n f).app.hrn = s.app.hrn ∧
    (s.updPlc n f).app.girth = s.app.girth ∧ (s.updPlc n f).app.harts = s.app.harts ∧
    (s.updPlc n f).app.mem = s.app.mem ∧ (s.updPlc n f).app.lane = s.app.lane ∧
    (s.updPlc n f).app.link = s.app.link ∧ (s.updPlc n f).app.sl = s.app.sl ∧
    (s.updPlc n f).app.eng = s.app.eng ∧ (s.updPlc n f).app.ctx = s.app.ctx ∧
    (s.updPlc n f).app.veh = s.app.veh ∧ (s.updPlc n f).app.server = s.app.server ∧
    (s.updPlc n f).app.journal = s.app.journal ∧ (s.updPlc n f).app.incoh = s.app.incoh ∧ (s.updPlc n f).app.tack = s.app.tack ∧
    (s.updPlc n f).cold = s.cold ∧ (s.updPlc n f).coldMr = s.coldMr ∧
    (s.updPlc n f).trial = s.trial ∧ (s.updPlc n f).bridle = s.bridle ∧
    (s.updPlc n f).power = s.power ∧ (s.updPlc n f).die = s.die ∧ (s.updPlc n f).fuses = s.fuses ∧
    (s.updPlc n f).obj = s.obj ∧ (s.updPlc n f).flash = s.flash ∧ (s.updPlc n f).sec = s.sec ∧
    (s.updPlc n f).fresh = s.fresh ∧ (s.updPlc n f).pending = s.pending := by
  simp [State.updPlc]

@[simp] theorem updPair_same (s : State) (m : Nat) (f : PairMbx → PairMbx) :
    (s.updPair m f).app.clk = s.app.clk ∧ (s.updPair m f).app.pmc = s.app.pmc ∧
    (s.updPair m f).app.hrn = s.app.hrn ∧ (s.updPair m f).app.girth = s.app.girth ∧
    (s.updPair m f).app.harts = s.app.harts ∧ (s.updPair m f).app.mem = s.app.mem ∧
    (s.updPair m f).app.lane = s.app.lane ∧ (s.updPair m f).app.link = s.app.link ∧
    (s.updPair m f).app.sl = s.app.sl ∧ (s.updPair m f).app.eng = s.app.eng ∧
    (s.updPair m f).app.ctx = s.app.ctx ∧ (s.updPair m f).app.plc = s.app.plc ∧
    (s.updPair m f).app.veh = s.app.veh ∧ (s.updPair m f).app.server = s.app.server ∧
    (s.updPair m f).app.journal = s.app.journal ∧ (s.updPair m f).app.incoh = s.app.incoh ∧ (s.updPair m f).app.tack = s.app.tack ∧
    (s.updPair m f).cold = s.cold ∧ (s.updPair m f).coldMr = s.coldMr ∧
    (s.updPair m f).trial = s.trial ∧ (s.updPair m f).bridle = s.bridle ∧
    (s.updPair m f).power = s.power ∧ (s.updPair m f).die = s.die ∧
    (s.updPair m f).fuses = s.fuses ∧ (s.updPair m f).obj = s.obj ∧
    (s.updPair m f).flash = s.flash ∧ (s.updPair m f).sec = s.sec ∧
    (s.updPair m f).fresh = s.fresh ∧ (s.updPair m f).pending = s.pending := by
  simp [State.updPair]

@[simp] theorem updHub_same (s : State) (m : Nat) (f : HubMbx → HubMbx) :
    (s.updHub m f).app.clk = s.app.clk ∧ (s.updHub m f).app.pmc = s.app.pmc ∧
    (s.updHub m f).app.hrn = s.app.hrn ∧ (s.updHub m f).app.girth = s.app.girth ∧
    (s.updHub m f).app.harts = s.app.harts ∧ (s.updHub m f).app.mem = s.app.mem ∧
    (s.updHub m f).app.lane = s.app.lane ∧ (s.updHub m f).app.link = s.app.link ∧
    (s.updHub m f).app.sl = s.app.sl ∧ (s.updHub m f).app.eng = s.app.eng ∧
    (s.updHub m f).app.ctx = s.app.ctx ∧ (s.updHub m f).app.plc = s.app.plc ∧
    (s.updHub m f).app.veh = s.app.veh ∧ (s.updHub m f).app.server = s.app.server ∧
    (s.updHub m f).app.journal = s.app.journal ∧ (s.updHub m f).app.incoh = s.app.incoh ∧ (s.updHub m f).app.tack = s.app.tack ∧
    (s.updHub m f).cold = s.cold ∧ (s.updHub m f).coldMr = s.coldMr ∧
    (s.updHub m f).trial = s.trial ∧ (s.updHub m f).bridle = s.bridle ∧
    (s.updHub m f).power = s.power ∧ (s.updHub m f).die = s.die ∧ (s.updHub m f).fuses = s.fuses ∧
    (s.updHub m f).obj = s.obj ∧ (s.updHub m f).flash = s.flash ∧ (s.updHub m f).sec = s.sec ∧
    (s.updHub m f).fresh = s.fresh ∧ (s.updHub m f).pending = s.pending := by
  simp [State.updHub]

@[simp] theorem used_same (s : State) :
    s.used.app.clk = s.app.clk ∧ s.used.app.bkl = s.app.bkl ∧ s.used.app.mbx = s.app.mbx ∧
    s.used.app.pmc = s.app.pmc ∧ s.used.app.hrn = s.app.hrn ∧ s.used.app.girth = s.app.girth ∧
    s.used.app.harts = s.app.harts ∧ s.used.app.mem = s.app.mem ∧ s.used.app.lane = s.app.lane ∧
    s.used.app.link = s.app.link ∧ s.used.app.sl = s.app.sl ∧ s.used.app.eng = s.app.eng ∧
    s.used.app.ctx = s.app.ctx ∧ s.used.app.plc = s.app.plc ∧ s.used.app.veh = s.app.veh ∧
    s.used.app.server = s.app.server ∧ s.used.app.journal = s.app.journal ∧ s.used.app.incoh = s.app.incoh ∧
    s.used.app.tack = s.app.tack ∧ s.used.cold = s.cold ∧ s.used.coldMr = s.coldMr ∧
    s.used.trial = s.trial ∧ s.used.bridle = s.bridle ∧ s.used.power = s.power ∧
    s.used.die = s.die ∧ s.used.fuses = s.fuses ∧ s.used.obj = s.obj ∧ s.used.flash = s.flash ∧
    s.used.sec = s.sec ∧ s.used.pending = s.pending := by
  simp [State.used]

/-- What `updVp` writes. -/
@[simp] theorem updVp_get (s : State) (k : Nat) (f : VPort → VPort) (j : Nat) : (s.updVp k f).app.veh.vport.get j = if k = j then f (s.app.veh.vport.get j) else s.app.veh.vport.get j := by
  simp [State.updVp, Bank.get_upd]

@[simp] theorem updVp_same (s : State) (k : Nat) (f : VPort → VPort) :
    (s.updVp k f).app.clk = s.app.clk ∧ (s.updVp k f).app.bkl = s.app.bkl ∧ (s.updVp k f).app.mbx = s.app.mbx ∧
    (s.updVp k f).app.pmc = s.app.pmc ∧ (s.updVp k f).app.hrn = s.app.hrn ∧
    (s.updVp k f).app.girth = s.app.girth ∧ (s.updVp k f).app.harts = s.app.harts ∧
    (s.updVp k f).app.mem = s.app.mem ∧ (s.updVp k f).app.incoh = s.app.incoh ∧
    (s.updVp k f).app.lane = s.app.lane ∧ (s.updVp k f).app.link = s.app.link ∧
    (s.updVp k f).app.sl = s.app.sl ∧ (s.updVp k f).app.eng = s.app.eng ∧ (s.updVp k f).app.ctx = s.app.ctx ∧
    (s.updVp k f).app.plc = s.app.plc ∧ (s.updVp k f).app.server = s.app.server ∧
    (s.updVp k f).app.journal = s.app.journal ∧ (s.updVp k f).app.tack = s.app.tack ∧
    (s.updVp k f).cold = s.cold ∧ (s.updVp k f).coldMr = s.coldMr ∧ (s.updVp k f).trial = s.trial ∧
    (s.updVp k f).bridle = s.bridle ∧ (s.updVp k f).power = s.power ∧ (s.updVp k f).die = s.die ∧
    (s.updVp k f).fuses = s.fuses ∧ (s.updVp k f).obj = s.obj ∧ (s.updVp k f).flash = s.flash ∧
    (s.updVp k f).sec = s.sec ∧ (s.updVp k f).fresh = s.fresh ∧ (s.updVp k f).pending = s.pending := by
  simp [State.updVp]

@[simp] theorem updCore_same (s : State) (h : Nat) (f : Hart → Hart) :
    (s.updCore h f).app.clk = s.app.clk ∧ (s.updCore h f).app.bkl = s.app.bkl ∧
    (s.updCore h f).app.mbx = s.app.mbx ∧ (s.updCore h f).app.pmc = s.app.pmc ∧
    (s.updCore h f).app.hrn = s.app.hrn ∧ (s.updCore h f).app.girth = s.app.girth ∧
    (s.updCore h f).app.mem = s.app.mem ∧ (s.updCore h f).app.incoh = s.app.incoh ∧
    (s.updCore h f).app.lane = s.app.lane ∧ (s.updCore h f).app.link = s.app.link ∧
    (s.updCore h f).app.sl = s.app.sl ∧ (s.updCore h f).app.eng = s.app.eng ∧
    (s.updCore h f).app.ctx = s.app.ctx ∧ (s.updCore h f).app.plc = s.app.plc ∧
    (s.updCore h f).app.veh = s.app.veh ∧ (s.updCore h f).app.server = s.app.server ∧
    (s.updCore h f).app.journal = s.app.journal ∧ (s.updCore h f).app.tack = s.app.tack ∧
    (s.updCore h f).cold = s.cold ∧ (s.updCore h f).coldMr = s.coldMr ∧ (s.updCore h f).trial = s.trial ∧
    (s.updCore h f).power = s.power ∧ (s.updCore h f).die = s.die ∧ (s.updCore h f).fuses = s.fuses ∧
    (s.updCore h f).obj = s.obj ∧ (s.updCore h f).flash = s.flash ∧ (s.updCore h f).sec = s.sec ∧
    (s.updCore h f).fresh = s.fresh ∧ (s.updCore h f).pending = s.pending := by
  unfold State.updCore; split <;> simp

@[simp] theorem updHart_same (s : State) (h : Nat) (f : Hart → Hart) :
    (s.updHart h f).app.clk = s.app.clk ∧ (s.updHart h f).app.bkl = s.app.bkl ∧
    (s.updHart h f).app.mbx = s.app.mbx ∧ (s.updHart h f).app.pmc = s.app.pmc ∧
    (s.updHart h f).app.hrn = s.app.hrn ∧ (s.updHart h f).app.girth = s.app.girth ∧
    (s.updHart h f).app.mem = s.app.mem ∧ (s.updHart h f).app.incoh = s.app.incoh ∧
    (s.updHart h f).app.lane = s.app.lane ∧ (s.updHart h f).app.link = s.app.link ∧
    (s.updHart h f).app.sl = s.app.sl ∧ (s.updHart h f).app.eng = s.app.eng ∧
    (s.updHart h f).app.plc = s.app.plc ∧ (s.updHart h f).app.veh = s.app.veh ∧
    (s.updHart h f).app.server = s.app.server ∧ (s.updHart h f).app.journal = s.app.journal ∧
    (s.updHart h f).app.tack = s.app.tack ∧ (s.updHart h f).cold = s.cold ∧ (s.updHart h f).coldMr = s.coldMr ∧
    (s.updHart h f).trial = s.trial ∧ (s.updHart h f).power = s.power ∧ (s.updHart h f).die = s.die ∧
    (s.updHart h f).fuses = s.fuses ∧ (s.updHart h f).obj = s.obj ∧ (s.updHart h f).flash = s.flash ∧
    (s.updHart h f).sec = s.sec ∧ (s.updHart h f).fresh = s.fresh ∧ (s.updHart h f).pending = s.pending := by
  unfold State.updHart; (repeat' split) <;> simp [State.updCtx]

end Sys2Proof.Machine
end

