-- ==== Sys2Proof/Laws/Bridle.lean ====
section
/-!
SUPPORT. What the Bridle's shared operations can change (15 R383, R390): notices, hold causes and the commands
that follow them.
-/
set_option Elab.async false
set_option linter.all false
namespace Sys2Proof.Machine

@[simp] theorem note_same (k u : Nat) (d : Word) (s : State) :
    (note k u d s).app.clk = s.app.clk ∧ (note k u d s).app.mbx = s.app.mbx ∧
    (note k u d s).app.pmc = s.app.pmc ∧ (note k u d s).app.hrn = s.app.hrn ∧
    (note k u d s).app.girth = s.app.girth ∧ (note k u d s).app.harts = s.app.harts ∧
    (note k u d s).app.mem = s.app.mem ∧ (note k u d s).app.lane = s.app.lane ∧
    (note k u d s).app.link = s.app.link ∧ (note k u d s).app.sl = s.app.sl ∧
    (note k u d s).app.eng = s.app.eng ∧ (note k u d s).app.ctx = s.app.ctx ∧
    (note k u d s).app.plc = s.app.plc ∧ (note k u d s).app.veh = s.app.veh ∧
    (note k u d s).app.server = s.app.server ∧ (note k u d s).app.journal = s.app.journal ∧
    (note k u d s).app.tack = s.app.tack ∧ (note k u d s).cold = s.cold ∧
    (note k u d s).coldMr = s.coldMr ∧ (note k u d s).trial = s.trial ∧
    (note k u d s).power = s.power ∧ (note k u d s).die = s.die ∧ (note k u d s).fuses = s.fuses ∧
    (note k u d s).obj = s.obj ∧ (note k u d s).flash = s.flash ∧ (note k u d s).sec = s.sec ∧
    (note k u d s).fresh = s.fresh ∧ (note k u d s).pending = s.pending := by
  simp [note]

/-- A notice changes the notice registers of the Bridle only. -/
@[simp] theorem note_parts (k u : Nat) (d : Word) (s : State) :
    (note k u d s).bridle.pts = s.bridle.pts ∧ (note k u d s).bridle.dev = s.bridle.dev ∧ (note k u d s).bridle.st = s.bridle.st ∧
    (note k u d s).bridle.cfg = s.bridle.cfg ∧ (note k u d s).bridle.time = s.bridle.time ∧ (note k u d s).bridle.rx = s.bridle.rx ∧
    (note k u d s).bridle.newest = s.bridle.newest + 1 := by
  simp [note]

@[simp] theorem outHold_same (x : Nat) (s : State) :
    (outHold x s).app.clk = s.app.clk ∧ (outHold x s).app.mbx = s.app.mbx ∧
    (outHold x s).app.hrn = s.app.hrn ∧ (outHold x s).app.harts = s.app.harts ∧
    (outHold x s).app.mem = s.app.mem ∧ (outHold x s).app.lane = s.app.lane ∧
    (outHold x s).app.link = s.app.link ∧ (outHold x s).app.sl = s.app.sl ∧
    (outHold x s).app.eng = s.app.eng ∧ (outHold x s).app.ctx = s.app.ctx ∧
    (outHold x s).app.plc = s.app.plc ∧ (outHold x s).app.veh = s.app.veh ∧
    (outHold x s).app.server = s.app.server ∧ (outHold x s).app.journal = s.app.journal ∧
    (outHold x s).app.tack = s.app.tack ∧ (outHold x s).cold = s.cold ∧
    (outHold x s).coldMr = s.coldMr ∧ (outHold x s).trial = s.trial ∧
    (outHold x s).bridle = s.bridle ∧ (outHold x s).power.safe = s.power.safe ∧
    (outHold x s).power.clkOk = s.power.clkOk ∧ (outHold x s).power.report = s.power.report ∧
    (outHold x s).power.hbRun = s.power.hbRun ∧ (outHold x s).power.vload = s.power.vload ∧
    (outHold x s).power.vpilp = s.power.vpilp ∧ (outHold x s).power.vpiln = s.power.vpiln ∧
    (outHold x s).power.vdrv = s.power.vdrv ∧ (outHold x s).power.pfin = s.power.pfin ∧
    (outHold x s).power.pilots = s.power.pilots ∧ (outHold x s).power.trimmed = s.power.trimmed ∧
    (outHold x s).power.period = s.power.period ∧
    (outHold x s).power.pilRebuilt = s.power.pilRebuilt ∧
    (outHold x s).power.tsLatch = s.power.tsLatch ∧
    (outHold x s).power.protLock = s.power.protLock ∧
    (outHold x s).power.retryWin = s.power.retryWin ∧
    (outHold x s).power.retryMax = s.power.retryMax ∧ (outHold x s).power.test = s.power.test ∧
    (outHold x s).power.run = s.power.run ∧ (outHold x s).power.qtemp = s.power.qtemp ∧
    (outHold x s).power.qband = s.power.qband ∧ (outHold x s).power.qchg = s.power.qchg ∧
    (outHold x s).power.sum = s.power.sum ∧ (outHold x s).power.sumOver = s.power.sumOver ∧
    (outHold x s).power.rc = s.power.rc ∧ (outHold x s).power.im = s.power.im ∧
    (outHold x s).power.sto = s.power.sto ∧ (outHold x s).power.seq = s.power.seq ∧
    (outHold x s).power.seqPerm = s.power.seqPerm ∧ (outHold x s).power.seqProx = s.power.seqProx ∧
    (outHold x s).power.psq = s.power.psq ∧ (outHold x s).power.psqDue = s.power.psqDue ∧
    (outHold x s).power.fields = s.power.fields ∧ (outHold x s).power.lines = s.power.lines ∧
    (outHold x s).power.readers = s.power.readers ∧ (outHold x s).power.tags = s.power.tags ∧
    (outHold x s).die = s.die ∧ (outHold x s).fuses = s.fuses ∧ (outHold x s).obj = s.obj ∧
    (outHold x s).flash = s.flash ∧ (outHold x s).sec = s.sec ∧ (outHold x s).pending = s.pending := by
  unfold outHold; dsimp only; split <;> simp

@[simp] theorem outRelease_same (x : Nat) (s : State) :
    (outRelease x s).app.clk = s.app.clk ∧ (outRelease x s).app.bkl = s.app.bkl ∧
    (outRelease x s).app.mbx = s.app.mbx ∧ (outRelease x s).app.pmc = s.app.pmc ∧
    (outRelease x s).app.hrn = s.app.hrn ∧ (outRelease x s).app.girth = s.app.girth ∧
    (outRelease x s).app.harts = s.app.harts ∧ (outRelease x s).app.mem = s.app.mem ∧
    (outRelease x s).app.lane = s.app.lane ∧ (outRelease x s).app.link = s.app.link ∧
    (outRelease x s).app.sl = s.app.sl ∧ (outRelease x s).app.eng = s.app.eng ∧
    (outRelease x s).app.ctx = s.app.ctx ∧ (outRelease x s).app.plc = s.app.plc ∧
    (outRelease x s).app.veh = s.app.veh ∧ (outRelease x s).app.server = s.app.server ∧
    (outRelease x s).app.journal = s.app.journal ∧ (outRelease x s).app.tack = s.app.tack ∧
    (outRelease x s).cold = s.cold ∧ (outRelease x s).coldMr = s.coldMr ∧
    (outRelease x s).trial = s.trial ∧ (outRelease x s).bridle = s.bridle ∧
    (outRelease x s).power.safe = s.power.safe ∧ (outRelease x s).power.clkOk = s.power.clkOk ∧
    (outRelease x s).power.report = s.power.report ∧ (outRelease x s).power.hbRun = s.power.hbRun ∧
    (outRelease x s).power.vload = s.power.vload ∧ (outRelease x s).power.vpilp = s.power.vpilp ∧
    (outRelease x s).power.vpiln = s.power.vpiln ∧ (outRelease x s).power.vdrv = s.power.vdrv ∧
    (outRelease x s).power.pfin = s.power.pfin ∧ (outRelease x s).power.pilots = s.power.pilots ∧
    (outRelease x s).power.trimmed = s.power.trimmed ∧
    (outRelease x s).power.period = s.power.period ∧
    (outRelease x s).power.pilRebuilt = s.power.pilRebuilt ∧
    (outRelease x s).power.tsLatch = s.power.tsLatch ∧
    (outRelease x s).power.protLock = s.power.protLock ∧
    (outRelease x s).power.retryWin = s.power.retryWin ∧
    (outRelease x s).power.retryMax = s.power.retryMax ∧
    (outRelease x s).power.test = s.power.test ∧ (outRelease x s).power.run = s.power.run ∧
    (outRelease x s).power.qtemp = s.power.qtemp ∧ (outRelease x s).power.qband = s.power.qband ∧
    (outRelease x s).power.qchg = s.power.qchg ∧ (outRelease x s).power.sum = s.power.sum ∧
    (outRelease x s).power.sumOver = s.power.sumOver ∧ (outRelease x s).power.rc = s.power.rc ∧
    (outRelease x s).power.im = s.power.im ∧ (outRelease x s).power.sto = s.power.sto ∧
    (outRelease x s).power.seq = s.power.seq ∧ (outRelease x s).power.seqPerm = s.power.seqPerm ∧
    (outRelease x s).power.seqProx = s.power.seqProx ∧ (outRelease x s).power.psq = s.power.psq ∧
    (outRelease x s).power.psqDue = s.power.psqDue ∧
    (outRelease x s).power.fields = s.power.fields ∧ (outRelease x s).power.lines = s.power.lines ∧
    (outRelease x s).power.readers = s.power.readers ∧ (outRelease x s).power.tags = s.power.tags ∧
    (outRelease x s).die = s.die ∧ (outRelease x s).fuses = s.fuses ∧
    (outRelease x s).obj = s.obj ∧ (outRelease x s).flash = s.flash ∧
    (outRelease x s).sec = s.sec ∧ (outRelease x s).fresh = s.fresh ∧
    (outRelease x s).pending = s.pending := by
  simp [outRelease]

@[simp] theorem syncOut_same (x : Nat) (s : State) :
    (syncOut x s).app.clk = s.app.clk ∧ (syncOut x s).app.mbx = s.app.mbx ∧
    (syncOut x s).app.hrn = s.app.hrn ∧ (syncOut x s).app.harts = s.app.harts ∧
    (syncOut x s).app.mem = s.app.mem ∧ (syncOut x s).app.lane = s.app.lane ∧
    (syncOut x s).app.link = s.app.link ∧ (syncOut x s).app.sl = s.app.sl ∧
    (syncOut x s).app.eng = s.app.eng ∧ (syncOut x s).app.ctx = s.app.ctx ∧
    (syncOut x s).app.plc = s.app.plc ∧ (syncOut x s).app.veh = s.app.veh ∧
    (syncOut x s).app.server = s.app.server ∧ (syncOut x s).app.journal = s.app.journal ∧
    (syncOut x s).app.tack = s.app.tack ∧ (syncOut x s).cold = s.cold ∧
    (syncOut x s).coldMr = s.coldMr ∧ (syncOut x s).trial = s.trial ∧
    (syncOut x s).bridle = s.bridle ∧ (syncOut x s).power.safe = s.power.safe ∧
    (syncOut x s).power.clkOk = s.power.clkOk ∧ (syncOut x s).power.report = s.power.report ∧
    (syncOut x s).power.hbRun = s.power.hbRun ∧ (syncOut x s).power.vload = s.power.vload ∧
    (syncOut x s).power.vpilp = s.power.vpilp ∧ (syncOut x s).power.vpiln = s.power.vpiln ∧
    (syncOut x s).power.vdrv = s.power.vdrv ∧ (syncOut x s).power.pfin = s.power.pfin ∧
    (syncOut x s).power.pilots = s.power.pilots ∧ (syncOut x s).power.trimmed = s.power.trimmed ∧
    (syncOut x s).power.period = s.power.period ∧
    (syncOut x s).power.pilRebuilt = s.power.pilRebuilt ∧
    (syncOut x s).power.tsLatch = s.power.tsLatch ∧
    (syncOut x s).power.protLock = s.power.protLock ∧
    (syncOut x s).power.retryWin = s.power.retryWin ∧
    (syncOut x s).power.retryMax = s.power.retryMax ∧ (syncOut x s).power.test = s.power.test ∧
    (syncOut x s).power.run = s.power.run ∧ (syncOut x s).power.qtemp = s.power.qtemp ∧
    (syncOut x s).power.qband = s.power.qband ∧ (syncOut x s).power.qchg = s.power.qchg ∧
    (syncOut x s).power.sum = s.power.sum ∧ (syncOut x s).power.sumOver = s.power.sumOver ∧
    (syncOut x s).power.rc = s.power.rc ∧ (syncOut x s).power.im = s.power.im ∧
    (syncOut x s).power.sto = s.power.sto ∧ (syncOut x s).power.seq = s.power.seq ∧
    (syncOut x s).power.seqPerm = s.power.seqPerm ∧ (syncOut x s).power.seqProx = s.power.seqProx ∧
    (syncOut x s).power.psq = s.power.psq ∧ (syncOut x s).power.psqDue = s.power.psqDue ∧
    (syncOut x s).power.fields = s.power.fields ∧ (syncOut x s).power.lines = s.power.lines ∧
    (syncOut x s).power.readers = s.power.readers ∧ (syncOut x s).power.tags = s.power.tags ∧
    (syncOut x s).die = s.die ∧ (syncOut x s).fuses = s.fuses ∧ (syncOut x s).obj = s.obj ∧
    (syncOut x s).flash = s.flash ∧ (syncOut x s).sec = s.sec ∧ (syncOut x s).pending = s.pending := by
  unfold syncOut; (repeat' split) <;> simp

@[simp] theorem pilDriveF_same (b : Bool) (p : Nat) (s : State) :
    (pilDriveF b p s).app.clk = s.app.clk ∧ (pilDriveF b p s).app.mbx = s.app.mbx ∧
    (pilDriveF b p s).app.hrn = s.app.hrn ∧ (pilDriveF b p s).app.girth = s.app.girth ∧
    (pilDriveF b p s).app.harts = s.app.harts ∧ (pilDriveF b p s).app.mem = s.app.mem ∧
    (pilDriveF b p s).app.lane = s.app.lane ∧ (pilDriveF b p s).app.link = s.app.link ∧
    (pilDriveF b p s).app.sl = s.app.sl ∧ (pilDriveF b p s).app.eng = s.app.eng ∧
    (pilDriveF b p s).app.ctx = s.app.ctx ∧ (pilDriveF b p s).app.veh = s.app.veh ∧
    (pilDriveF b p s).app.journal = s.app.journal ∧ (pilDriveF b p s).app.tack = s.app.tack ∧
    (pilDriveF b p s).cold = s.cold ∧ (pilDriveF b p s).coldMr = s.coldMr ∧
    (pilDriveF b p s).trial = s.trial ∧ (pilDriveF b p s).bridle = s.bridle ∧
    (pilDriveF b p s).power.safe = s.power.safe ∧ (pilDriveF b p s).power.clkOk = s.power.clkOk ∧
    (pilDriveF b p s).power.report = s.power.report ∧
    (pilDriveF b p s).power.hbRun = s.power.hbRun ∧ (pilDriveF b p s).power.vload = s.power.vload ∧
    (pilDriveF b p s).power.vpilp = s.power.vpilp ∧ (pilDriveF b p s).power.vpiln = s.power.vpiln ∧
    (pilDriveF b p s).power.vdrv = s.power.vdrv ∧ (pilDriveF b p s).power.pfin = s.power.pfin ∧
    (pilDriveF b p s).power.coils = s.power.coils ∧ (pilDriveF b p s).power.loads = s.power.loads ∧
    (pilDriveF b p s).power.trimmed = s.power.trimmed ∧
    (pilDriveF b p s).power.period = s.power.period ∧
    (pilDriveF b p s).power.pilRebuilt = s.power.pilRebuilt ∧
    (pilDriveF b p s).power.tsLatch = s.power.tsLatch ∧
    (pilDriveF b p s).power.protLock = s.power.protLock ∧
    (pilDriveF b p s).power.retryWin = s.power.retryWin ∧
    (pilDriveF b p s).power.retryMax = s.power.retryMax ∧
    (pilDriveF b p s).power.test = s.power.test ∧ (pilDriveF b p s).power.run = s.power.run ∧
    (pilDriveF b p s).power.qtemp = s.power.qtemp ∧ (pilDriveF b p s).power.qband = s.power.qband ∧
    (pilDriveF b p s).power.qchg = s.power.qchg ∧ (pilDriveF b p s).power.sum = s.power.sum ∧
    (pilDriveF b p s).power.sumOver = s.power.sumOver ∧ (pilDriveF b p s).power.rc = s.power.rc ∧
    (pilDriveF b p s).power.im = s.power.im ∧ (pilDriveF b p s).power.sto = s.power.sto ∧
    (pilDriveF b p s).power.seq = s.power.seq ∧ (pilDriveF b p s).power.seqPerm = s.power.seqPerm ∧
    (pilDriveF b p s).power.seqProx = s.power.seqProx ∧ (pilDriveF b p s).power.psq = s.power.psq ∧
    (pilDriveF b p s).power.psqDue = s.power.psqDue ∧
    (pilDriveF b p s).power.fields = s.power.fields ∧
    (pilDriveF b p s).power.lines = s.power.lines ∧
    (pilDriveF b p s).power.readers = s.power.readers ∧
    (pilDriveF b p s).power.tags = s.power.tags ∧ (pilDriveF b p s).die = s.die ∧
    (pilDriveF b p s).fuses = s.fuses ∧ (pilDriveF b p s).obj = s.obj ∧
    (pilDriveF b p s).flash = s.flash ∧ (pilDriveF b p s).sec = s.sec ∧
    (pilDriveF b p s).pending = s.pending := by
  unfold pilDriveF; dsimp only; split <;> simp

@[simp] theorem pilToX1_same (p : Nat) (s : State) :
    (pilToX1 p s).app.clk = s.app.clk ∧ (pilToX1 p s).app.mbx = s.app.mbx ∧
    (pilToX1 p s).app.hrn = s.app.hrn ∧ (pilToX1 p s).app.girth = s.app.girth ∧
    (pilToX1 p s).app.harts = s.app.harts ∧ (pilToX1 p s).app.mem = s.app.mem ∧
    (pilToX1 p s).app.lane = s.app.lane ∧ (pilToX1 p s).app.link = s.app.link ∧
    (pilToX1 p s).app.sl = s.app.sl ∧ (pilToX1 p s).app.eng = s.app.eng ∧
    (pilToX1 p s).app.ctx = s.app.ctx ∧ (pilToX1 p s).app.veh = s.app.veh ∧
    (pilToX1 p s).app.journal = s.app.journal ∧ (pilToX1 p s).app.tack = s.app.tack ∧
    (pilToX1 p s).cold = s.cold ∧ (pilToX1 p s).coldMr = s.coldMr ∧ (pilToX1 p s).trial = s.trial ∧
    (pilToX1 p s).bridle = s.bridle ∧ (pilToX1 p s).power.safe = s.power.safe ∧
    (pilToX1 p s).power.clkOk = s.power.clkOk ∧ (pilToX1 p s).power.report = s.power.report ∧
    (pilToX1 p s).power.hbRun = s.power.hbRun ∧ (pilToX1 p s).power.vload = s.power.vload ∧
    (pilToX1 p s).power.vpilp = s.power.vpilp ∧ (pilToX1 p s).power.vpiln = s.power.vpiln ∧
    (pilToX1 p s).power.vdrv = s.power.vdrv ∧ (pilToX1 p s).power.pfin = s.power.pfin ∧
    (pilToX1 p s).power.coils = s.power.coils ∧ (pilToX1 p s).power.loads = s.power.loads ∧
    (pilToX1 p s).power.trimmed = s.power.trimmed ∧ (pilToX1 p s).power.period = s.power.period ∧
    (pilToX1 p s).power.pilRebuilt = s.power.pilRebuilt ∧
    (pilToX1 p s).power.tsLatch = s.power.tsLatch ∧
    (pilToX1 p s).power.protLock = s.power.protLock ∧
    (pilToX1 p s).power.retryWin = s.power.retryWin ∧
    (pilToX1 p s).power.retryMax = s.power.retryMax ∧ (pilToX1 p s).power.test = s.power.test ∧
    (pilToX1 p s).power.run = s.power.run ∧ (pilToX1 p s).power.qtemp = s.power.qtemp ∧
    (pilToX1 p s).power.qband = s.power.qband ∧ (pilToX1 p s).power.qchg = s.power.qchg ∧
    (pilToX1 p s).power.sum = s.power.sum ∧ (pilToX1 p s).power.sumOver = s.power.sumOver ∧
    (pilToX1 p s).power.rc = s.power.rc ∧ (pilToX1 p s).power.im = s.power.im ∧
    (pilToX1 p s).power.sto = s.power.sto ∧ (pilToX1 p s).power.seq = s.power.seq ∧
    (pilToX1 p s).power.seqPerm = s.power.seqPerm ∧ (pilToX1 p s).power.seqProx = s.power.seqProx ∧
    (pilToX1 p s).power.psq = s.power.psq ∧ (pilToX1 p s).power.psqDue = s.power.psqDue ∧
    (pilToX1 p s).power.fields = s.power.fields ∧ (pilToX1 p s).power.lines = s.power.lines ∧
    (pilToX1 p s).power.readers = s.power.readers ∧ (pilToX1 p s).power.tags = s.power.tags ∧
    (pilToX1 p s).die = s.die ∧ (pilToX1 p s).fuses = s.fuses ∧ (pilToX1 p s).obj = s.obj ∧
    (pilToX1 p s).flash = s.flash ∧ (pilToX1 p s).sec = s.sec ∧ (pilToX1 p s).pending = s.pending := by
  simp [pilToX1, pilStart]

@[simp] theorem pilRelease_same (p : Nat) (s : State) :
    (pilRelease p s).app.clk = s.app.clk ∧ (pilRelease p s).app.mbx = s.app.mbx ∧
    (pilRelease p s).app.hrn = s.app.hrn ∧ (pilRelease p s).app.girth = s.app.girth ∧
    (pilRelease p s).app.harts = s.app.harts ∧ (pilRelease p s).app.mem = s.app.mem ∧
    (pilRelease p s).app.lane = s.app.lane ∧ (pilRelease p s).app.link = s.app.link ∧
    (pilRelease p s).app.sl = s.app.sl ∧ (pilRelease p s).app.eng = s.app.eng ∧
    (pilRelease p s).app.ctx = s.app.ctx ∧ (pilRelease p s).app.veh = s.app.veh ∧
    (pilRelease p s).app.journal = s.app.journal ∧ (pilRelease p s).app.tack = s.app.tack ∧
    (pilRelease p s).cold = s.cold ∧ (pilRelease p s).coldMr = s.coldMr ∧
    (pilRelease p s).trial = s.trial ∧ (pilRelease p s).bridle = s.bridle ∧
    (pilRelease p s).power.safe = s.power.safe ∧ (pilRelease p s).power.clkOk = s.power.clkOk ∧
    (pilRelease p s).power.report = s.power.report ∧ (pilRelease p s).power.hbRun = s.power.hbRun ∧
    (pilRelease p s).power.vload = s.power.vload ∧ (pilRelease p s).power.vpilp = s.power.vpilp ∧
    (pilRelease p s).power.vpiln = s.power.vpiln ∧ (pilRelease p s).power.vdrv = s.power.vdrv ∧
    (pilRelease p s).power.pfin = s.power.pfin ∧ (pilRelease p s).power.coils = s.power.coils ∧
    (pilRelease p s).power.loads = s.power.loads ∧
    (pilRelease p s).power.trimmed = s.power.trimmed ∧
    (pilRelease p s).power.period = s.power.period ∧
    (pilRelease p s).power.pilRebuilt = s.power.pilRebuilt ∧
    (pilRelease p s).power.tsLatch = s.power.tsLatch ∧
    (pilRelease p s).power.protLock = s.power.protLock ∧
    (pilRelease p s).power.retryWin = s.power.retryWin ∧
    (pilRelease p s).power.retryMax = s.power.retryMax ∧
    (pilRelease p s).power.test = s.power.test ∧ (pilRelease p s).power.run = s.power.run ∧
    (pilRelease p s).power.qtemp = s.power.qtemp ∧ (pilRelease p s).power.qband = s.power.qband ∧
    (pilRelease p s).power.qchg = s.power.qchg ∧ (pilRelease p s).power.sum = s.power.sum ∧
    (pilRelease p s).power.sumOver = s.power.sumOver ∧ (pilRelease p s).power.rc = s.power.rc ∧
    (pilRelease p s).power.im = s.power.im ∧ (pilRelease p s).power.sto = s.power.sto ∧
    (pilRelease p s).power.seq = s.power.seq ∧ (pilRelease p s).power.seqPerm = s.power.seqPerm ∧
    (pilRelease p s).power.seqProx = s.power.seqProx ∧ (pilRelease p s).power.psq = s.power.psq ∧
    (pilRelease p s).power.psqDue = s.power.psqDue ∧
    (pilRelease p s).power.fields = s.power.fields ∧ (pilRelease p s).power.lines = s.power.lines ∧
    (pilRelease p s).power.readers = s.power.readers ∧ (pilRelease p s).power.tags = s.power.tags ∧
    (pilRelease p s).die = s.die ∧ (pilRelease p s).fuses = s.fuses ∧
    (pilRelease p s).obj = s.obj ∧ (pilRelease p s).flash = s.flash ∧
    (pilRelease p s).sec = s.sec ∧ (pilRelease p s).pending = s.pending := by
  unfold pilRelease; dsimp only; split <;> simp

@[simp] theorem syncPilot_same (p : Nat) (s : State) :
    (syncPilot p s).app.clk = s.app.clk ∧ (syncPilot p s).app.mbx = s.app.mbx ∧
    (syncPilot p s).app.hrn = s.app.hrn ∧ (syncPilot p s).app.girth = s.app.girth ∧
    (syncPilot p s).app.harts = s.app.harts ∧ (syncPilot p s).app.mem = s.app.mem ∧
    (syncPilot p s).app.lane = s.app.lane ∧ (syncPilot p s).app.link = s.app.link ∧
    (syncPilot p s).app.sl = s.app.sl ∧ (syncPilot p s).app.eng = s.app.eng ∧
    (syncPilot p s).app.ctx = s.app.ctx ∧ (syncPilot p s).app.veh = s.app.veh ∧
    (syncPilot p s).app.journal = s.app.journal ∧ (syncPilot p s).app.tack = s.app.tack ∧
    (syncPilot p s).cold = s.cold ∧ (syncPilot p s).coldMr = s.coldMr ∧
    (syncPilot p s).trial = s.trial ∧ (syncPilot p s).bridle = s.bridle ∧
    (syncPilot p s).power.safe = s.power.safe ∧ (syncPilot p s).power.clkOk = s.power.clkOk ∧
    (syncPilot p s).power.report = s.power.report ∧ (syncPilot p s).power.hbRun = s.power.hbRun ∧
    (syncPilot p s).power.vload = s.power.vload ∧ (syncPilot p s).power.vpilp = s.power.vpilp ∧
    (syncPilot p s).power.vpiln = s.power.vpiln ∧ (syncPilot p s).power.vdrv = s.power.vdrv ∧
    (syncPilot p s).power.pfin = s.power.pfin ∧ (syncPilot p s).power.coils = s.power.coils ∧
    (syncPilot p s).power.loads = s.power.loads ∧ (syncPilot p s).power.trimmed = s.power.trimmed ∧
    (syncPilot p s).power.period = s.power.period ∧
    (syncPilot p s).power.pilRebuilt = s.power.pilRebuilt ∧
    (syncPilot p s).power.tsLatch = s.power.tsLatch ∧
    (syncPilot p s).power.protLock = s.power.protLock ∧
    (syncPilot p s).power.retryWin = s.power.retryWin ∧
    (syncPilot p s).power.retryMax = s.power.retryMax ∧ (syncPilot p s).power.test = s.power.test ∧
    (syncPilot p s).power.run = s.power.run ∧ (syncPilot p s).power.qtemp = s.power.qtemp ∧
    (syncPilot p s).power.qband = s.power.qband ∧ (syncPilot p s).power.qchg = s.power.qchg ∧
    (syncPilot p s).power.sum = s.power.sum ∧ (syncPilot p s).power.sumOver = s.power.sumOver ∧
    (syncPilot p s).power.rc = s.power.rc ∧ (syncPilot p s).power.im = s.power.im ∧
    (syncPilot p s).power.sto = s.power.sto ∧ (syncPilot p s).power.seq = s.power.seq ∧
    (syncPilot p s).power.seqPerm = s.power.seqPerm ∧
    (syncPilot p s).power.seqProx = s.power.seqProx ∧ (syncPilot p s).power.psq = s.power.psq ∧
    (syncPilot p s).power.psqDue = s.power.psqDue ∧ (syncPilot p s).power.fields = s.power.fields ∧
    (syncPilot p s).power.lines = s.power.lines ∧ (syncPilot p s).power.readers = s.power.readers ∧
    (syncPilot p s).power.tags = s.power.tags ∧ (syncPilot p s).die = s.die ∧
    (syncPilot p s).fuses = s.fuses ∧ (syncPilot p s).obj = s.obj ∧
    (syncPilot p s).flash = s.flash ∧ (syncPilot p s).sec = s.sec ∧
    (syncPilot p s).pending = s.pending := by
  unfold syncPilot; (repeat' split) <;> simp

@[simp] theorem syncPoint_same (p : Nat) (s : State) :
    (syncPoint p s).app.clk = s.app.clk ∧ (syncPoint p s).app.mbx = s.app.mbx ∧
    (syncPoint p s).app.hrn = s.app.hrn ∧ (syncPoint p s).app.harts = s.app.harts ∧
    (syncPoint p s).app.mem = s.app.mem ∧ (syncPoint p s).app.lane = s.app.lane ∧
    (syncPoint p s).app.link = s.app.link ∧ (syncPoint p s).app.sl = s.app.sl ∧
    (syncPoint p s).app.eng = s.app.eng ∧ (syncPoint p s).app.ctx = s.app.ctx ∧
    (syncPoint p s).app.veh = s.app.veh ∧ (syncPoint p s).app.journal = s.app.journal ∧
    (syncPoint p s).app.tack = s.app.tack ∧ (syncPoint p s).cold = s.cold ∧
    (syncPoint p s).coldMr = s.coldMr ∧ (syncPoint p s).trial = s.trial ∧
    (syncPoint p s).bridle = s.bridle ∧ (syncPoint p s).power.safe = s.power.safe ∧
    (syncPoint p s).power.clkOk = s.power.clkOk ∧ (syncPoint p s).power.report = s.power.report ∧
    (syncPoint p s).power.hbRun = s.power.hbRun ∧ (syncPoint p s).power.vload = s.power.vload ∧
    (syncPoint p s).power.vpilp = s.power.vpilp ∧ (syncPoint p s).power.vpiln = s.power.vpiln ∧
    (syncPoint p s).power.vdrv = s.power.vdrv ∧ (syncPoint p s).power.pfin = s.power.pfin ∧
    (syncPoint p s).power.trimmed = s.power.trimmed ∧
    (syncPoint p s).power.period = s.power.period ∧
    (syncPoint p s).power.pilRebuilt = s.power.pilRebuilt ∧
    (syncPoint p s).power.tsLatch = s.power.tsLatch ∧
    (syncPoint p s).power.protLock = s.power.protLock ∧
    (syncPoint p s).power.retryWin = s.power.retryWin ∧
    (syncPoint p s).power.retryMax = s.power.retryMax ∧ (syncPoint p s).power.test = s.power.test ∧
    (syncPoint p s).power.run = s.power.run ∧ (syncPoint p s).power.qtemp = s.power.qtemp ∧
    (syncPoint p s).power.qband = s.power.qband ∧ (syncPoint p s).power.qchg = s.power.qchg ∧
    (syncPoint p s).power.sum = s.power.sum ∧ (syncPoint p s).power.sumOver = s.power.sumOver ∧
    (syncPoint p s).power.rc = s.power.rc ∧ (syncPoint p s).power.im = s.power.im ∧
    (syncPoint p s).power.sto = s.power.sto ∧ (syncPoint p s).power.seq = s.power.seq ∧
    (syncPoint p s).power.seqPerm = s.power.seqPerm ∧
    (syncPoint p s).power.seqProx = s.power.seqProx ∧ (syncPoint p s).power.psq = s.power.psq ∧
    (syncPoint p s).power.psqDue = s.power.psqDue ∧ (syncPoint p s).power.fields = s.power.fields ∧
    (syncPoint p s).power.lines = s.power.lines ∧ (syncPoint p s).power.readers = s.power.readers ∧
    (syncPoint p s).power.tags = s.power.tags ∧ (syncPoint p s).die = s.die ∧
    (syncPoint p s).fuses = s.fuses ∧ (syncPoint p s).obj = s.obj ∧
    (syncPoint p s).flash = s.flash ∧ (syncPoint p s).sec = s.sec ∧
    (syncPoint p s).pending = s.pending := by
  simp [syncPoint]

@[simp] theorem setCause_same (p : Nat) (c : HoldCause) (s : State) :
    (setCause p c s).app.clk = s.app.clk ∧ (setCause p c s).app.mbx = s.app.mbx ∧
    (setCause p c s).app.hrn = s.app.hrn ∧ (setCause p c s).app.harts = s.app.harts ∧
    (setCause p c s).app.mem = s.app.mem ∧ (setCause p c s).app.lane = s.app.lane ∧
    (setCause p c s).app.link = s.app.link ∧ (setCause p c s).app.sl = s.app.sl ∧
    (setCause p c s).app.eng = s.app.eng ∧ (setCause p c s).app.ctx = s.app.ctx ∧
    (setCause p c s).app.veh = s.app.veh ∧ (setCause p c s).app.journal = s.app.journal ∧
    (setCause p c s).app.tack = s.app.tack ∧ (setCause p c s).cold = s.cold ∧
    (setCause p c s).coldMr = s.coldMr ∧ (setCause p c s).trial = s.trial ∧
    (setCause p c s).power.safe = s.power.safe ∧ (setCause p c s).power.clkOk = s.power.clkOk ∧
    (setCause p c s).power.report = s.power.report ∧ (setCause p c s).power.hbRun = s.power.hbRun ∧
    (setCause p c s).power.vload = s.power.vload ∧ (setCause p c s).power.vpilp = s.power.vpilp ∧
    (setCause p c s).power.vpiln = s.power.vpiln ∧ (setCause p c s).power.vdrv = s.power.vdrv ∧
    (setCause p c s).power.pfin = s.power.pfin ∧ (setCause p c s).power.trimmed = s.power.trimmed ∧
    (setCause p c s).power.period = s.power.period ∧
    (setCause p c s).power.pilRebuilt = s.power.pilRebuilt ∧
    (setCause p c s).power.tsLatch = s.power.tsLatch ∧
    (setCause p c s).power.protLock = s.power.protLock ∧
    (setCause p c s).power.retryWin = s.power.retryWin ∧
    (setCause p c s).power.retryMax = s.power.retryMax ∧
    (setCause p c s).power.test = s.power.test ∧ (setCause p c s).power.run = s.power.run ∧
    (setCause p c s).power.qtemp = s.power.qtemp ∧ (setCause p c s).power.qband = s.power.qband ∧
    (setCause p c s).power.qchg = s.power.qchg ∧ (setCause p c s).power.sum = s.power.sum ∧
    (setCause p c s).power.sumOver = s.power.sumOver ∧ (setCause p c s).power.rc = s.power.rc ∧
    (setCause p c s).power.im = s.power.im ∧ (setCause p c s).power.sto = s.power.sto ∧
    (setCause p c s).power.seq = s.power.seq ∧ (setCause p c s).power.seqPerm = s.power.seqPerm ∧
    (setCause p c s).power.seqProx = s.power.seqProx ∧ (setCause p c s).power.psq = s.power.psq ∧
    (setCause p c s).power.psqDue = s.power.psqDue ∧
    (setCause p c s).power.fields = s.power.fields ∧ (setCause p c s).power.lines = s.power.lines ∧
    (setCause p c s).power.readers = s.power.readers ∧ (setCause p c s).power.tags = s.power.tags ∧
    (setCause p c s).die = s.die ∧ (setCause p c s).fuses = s.fuses ∧
    (setCause p c s).obj = s.obj ∧ (setCause p c s).flash = s.flash ∧
    (setCause p c s).sec = s.sec ∧ (setCause p c s).pending = s.pending := by
  unfold setCause; split <;> simp

@[simp] theorem clearCause_same (p : Nat) (c : HoldCause) (s : State) :
    (clearCause p c s).app.clk = s.app.clk ∧ (clearCause p c s).app.mbx = s.app.mbx ∧
    (clearCause p c s).app.hrn = s.app.hrn ∧ (clearCause p c s).app.harts = s.app.harts ∧
    (clearCause p c s).app.mem = s.app.mem ∧ (clearCause p c s).app.lane = s.app.lane ∧
    (clearCause p c s).app.link = s.app.link ∧ (clearCause p c s).app.sl = s.app.sl ∧
    (clearCause p c s).app.eng = s.app.eng ∧ (clearCause p c s).app.ctx = s.app.ctx ∧
    (clearCause p c s).app.veh = s.app.veh ∧ (clearCause p c s).app.journal = s.app.journal ∧
    (clearCause p c s).app.tack = s.app.tack ∧ (clearCause p c s).cold = s.cold ∧
    (clearCause p c s).coldMr = s.coldMr ∧ (clearCause p c s).trial = s.trial ∧
    (clearCause p c s).power.safe = s.power.safe ∧ (clearCause p c s).power.clkOk = s.power.clkOk ∧
    (clearCause p c s).power.report = s.power.report ∧
    (clearCause p c s).power.hbRun = s.power.hbRun ∧
    (clearCause p c s).power.vload = s.power.vload ∧
    (clearCause p c s).power.vpilp = s.power.vpilp ∧
    (clearCause p c s).power.vpiln = s.power.vpiln ∧ (clearCause p c s).power.vdrv = s.power.vdrv ∧
    (clearCause p c s).power.pfin = s.power.pfin ∧
    (clearCause p c s).power.trimmed = s.power.trimmed ∧
    (clearCause p c s).power.period = s.power.period ∧
    (clearCause p c s).power.pilRebuilt = s.power.pilRebuilt ∧
    (clearCause p c s).power.tsLatch = s.power.tsLatch ∧
    (clearCause p c s).power.protLock = s.power.protLock ∧
    (clearCause p c s).power.retryWin = s.power.retryWin ∧
    (clearCause p c s).power.retryMax = s.power.retryMax ∧
    (clearCause p c s).power.test = s.power.test ∧ (clearCause p c s).power.run = s.power.run ∧
    (clearCause p c s).power.qtemp = s.power.qtemp ∧
    (clearCause p c s).power.qband = s.power.qband ∧ (clearCause p c s).power.qchg = s.power.qchg ∧
    (clearCause p c s).power.sum = s.power.sum ∧
    (clearCause p c s).power.sumOver = s.power.sumOver ∧ (clearCause p c s).power.rc = s.power.rc ∧
    (clearCause p c s).power.im = s.power.im ∧ (clearCause p c s).power.sto = s.power.sto ∧
    (clearCause p c s).power.seq = s.power.seq ∧
    (clearCause p c s).power.seqPerm = s.power.seqPerm ∧
    (clearCause p c s).power.seqProx = s.power.seqProx ∧
    (clearCause p c s).power.psq = s.power.psq ∧ (clearCause p c s).power.psqDue = s.power.psqDue ∧
    (clearCause p c s).power.fields = s.power.fields ∧
    (clearCause p c s).power.lines = s.power.lines ∧
    (clearCause p c s).power.readers = s.power.readers ∧
    (clearCause p c s).power.tags = s.power.tags ∧ (clearCause p c s).die = s.die ∧
    (clearCause p c s).fuses = s.fuses ∧ (clearCause p c s).obj = s.obj ∧
    (clearCause p c s).flash = s.flash ∧ (clearCause p c s).sec = s.sec ∧
    (clearCause p c s).pending = s.pending := by
  unfold clearCause; split <;> simp

@[simp] theorem resendHolds_same (s : State) :
    (resendHolds s).app.clk = s.app.clk ∧ (resendHolds s).app.mbx = s.app.mbx ∧
    (resendHolds s).app.hrn = s.app.hrn ∧ (resendHolds s).app.harts = s.app.harts ∧
    (resendHolds s).app.mem = s.app.mem ∧ (resendHolds s).app.lane = s.app.lane ∧
    (resendHolds s).app.link = s.app.link ∧ (resendHolds s).app.sl = s.app.sl ∧
    (resendHolds s).app.eng = s.app.eng ∧ (resendHolds s).app.ctx = s.app.ctx ∧
    (resendHolds s).app.veh = s.app.veh ∧ (resendHolds s).app.journal = s.app.journal ∧
    (resendHolds s).app.tack = s.app.tack ∧ (resendHolds s).cold = s.cold ∧
    (resendHolds s).coldMr = s.coldMr ∧ (resendHolds s).trial = s.trial ∧
    (resendHolds s).bridle = s.bridle ∧ (resendHolds s).power.safe = s.power.safe ∧
    (resendHolds s).power.clkOk = s.power.clkOk ∧ (resendHolds s).power.report = s.power.report ∧
    (resendHolds s).power.hbRun = s.power.hbRun ∧ (resendHolds s).power.vload = s.power.vload ∧
    (resendHolds s).power.vpilp = s.power.vpilp ∧ (resendHolds s).power.vpiln = s.power.vpiln ∧
    (resendHolds s).power.vdrv = s.power.vdrv ∧ (resendHolds s).power.pfin = s.power.pfin ∧
    (resendHolds s).power.trimmed = s.power.trimmed ∧
    (resendHolds s).power.period = s.power.period ∧
    (resendHolds s).power.pilRebuilt = s.power.pilRebuilt ∧
    (resendHolds s).power.tsLatch = s.power.tsLatch ∧
    (resendHolds s).power.protLock = s.power.protLock ∧
    (resendHolds s).power.retryWin = s.power.retryWin ∧
    (resendHolds s).power.retryMax = s.power.retryMax ∧ (resendHolds s).power.test = s.power.test ∧
    (resendHolds s).power.run = s.power.run ∧ (resendHolds s).power.qtemp = s.power.qtemp ∧
    (resendHolds s).power.qband = s.power.qband ∧ (resendHolds s).power.qchg = s.power.qchg ∧
    (resendHolds s).power.sum = s.power.sum ∧ (resendHolds s).power.sumOver = s.power.sumOver ∧
    (resendHolds s).power.rc = s.power.rc ∧ (resendHolds s).power.im = s.power.im ∧
    (resendHolds s).power.sto = s.power.sto ∧ (resendHolds s).power.seq = s.power.seq ∧
    (resendHolds s).power.seqPerm = s.power.seqPerm ∧
    (resendHolds s).power.seqProx = s.power.seqProx ∧ (resendHolds s).power.psq = s.power.psq ∧
    (resendHolds s).power.psqDue = s.power.psqDue ∧ (resendHolds s).power.fields = s.power.fields ∧
    (resendHolds s).power.lines = s.power.lines ∧ (resendHolds s).power.readers = s.power.readers ∧
    (resendHolds s).power.tags = s.power.tags ∧ (resendHolds s).die = s.die ∧
    (resendHolds s).fuses = s.fuses ∧ (resendHolds s).obj = s.obj ∧
    (resendHolds s).flash = s.flash ∧ (resendHolds s).sec = s.sec ∧
    (resendHolds s).pending = s.pending := by
  unfold resendHolds
  generalize List.range 64 = l
  induction l generalizing s with
  | nil => simp
  | cons a l ih => simp only [List.foldl_cons]; have := ih (syncPoint a s); simpa using this

/-- Setting a hold cause sets its bit and keeps every other bit of every point (R383). -/
theorem setCause_hold (p : Nat) (c : HoldCause) (s : State) (q : Nat) :
    ((setCause p c s).bp q) = if p = q then { s.bp q with hold := if s.holds p c then (s.bp q).hold else putBit (s.bp q).hold c.bit true }
      else s.bp q := by
  unfold setCause
  split
  · rename_i h; simp [h]
  · rename_i h
    simp only [State.bp, syncPoint_same, note_parts, updBp_get, h, Bool.false_eq_true, if_false]

/-- After a hold cause is set the point carries it. -/
theorem setCause_holds (p : Nat) (c : HoldCause) (s : State) : (setCause p c s).holds p c = true := by
  unfold State.holds
  rw [setCause_hold]
  simp only [if_true]
  split
  · assumption
  · cases c <;> simp [putBit, HoldCause.bit]

end Sys2Proof.Machine
end

