-- ==== Sys2Proof/Laws/KeepsBridle.lean ====
section
/-!
SUPPORT. Functions of the model, and commands, that leave the Bridle as it was.
-/
set_option Elab.async false
set_option linter.all false
namespace Sys2Proof.Machine

/-! ### Ops -/

@[simp] theorem foldl_bridle {α : Type} (g : State → α → State) (h : ∀ t x, (g t x).bridle = t.bridle) (l : List α) (s : State) :
    (l.foldl g s).bridle = s.bridle := by
  induction l generalizing s with
  | nil => rfl
  | cons a l ih => simp [ih, h]

@[simp] theorem ite_bridle (c : Prop) [Decidable c] (a b : State) :
    (if c then a else b).bridle = if c then a.bridle else b.bridle := by split <;> rfl

theorem ite2_bridle {α : Type} (c : Prop) [Decidable c] (a b : α × State) (s : State) (ha : c → a.2.bridle = s.bridle) (hb : ¬c → b.2.bridle = s.bridle) :
    (if c then a else b).2.bridle = s.bridle := by split <;> simp_all

@[simp] theorem State.used_bridle (s : State) : (State.used s).bridle = s.bridle := by simp [State.used]

@[simp] theorem State.setByte_bridle (s : State) (a : Nat) (b : Byte) :
    (State.setByte s a b).bridle = s.bridle := by simp [State.setByte]

@[simp] theorem State.setBytes_bridle (s : State) (a : Nat) (l : List Byte) : (s.setBytes a l).bridle = s.bridle := by
  induction l generalizing s a with
  | nil => rfl
  | cons b r ih => simp [State.setBytes, ih]

@[simp] theorem State.setNum_bridle (s : State) (a n v : Nat) :
    (State.setNum s a n v).bridle = s.bridle := by simp [State.setNum]

@[simp] theorem State.updSrc_bridle (s : State) (n : Nat) (f : BklSrc → BklSrc) :
    (State.updSrc s n f).bridle = s.bridle := by simp [State.updSrc]

@[simp] theorem pmcAdd_bridle (n i k : Nat) (s : State) : (pmcAdd n i k s).bridle = s.bridle := by
  induction n generalizing i k s with
  | zero => rfl
  | succ n ih => simp only [pmcAdd]; (repeat' split) <;> simp [ih]

@[simp] theorem countEvents_bridle (group idx k : Nat) (s : State) :
    (countEvents group idx k s).bridle = s.bridle := by simp [countEvents]

@[simp] theorem raise_bridle (n : Nat) (s : State) : (raise n s).bridle = s.bridle := by simp [raise]

@[simp] theorem setLevel_bridle (n : Nat) (b : Bool) (s : State) :
    (setLevel n b s).bridle = s.bridle := by simp [setLevel]

@[simp] theorem laneRaise_bridle (n : Nat) (s : State) : (laneRaise n s).bridle = s.bridle := by simp [laneRaise]

@[simp] theorem State.updCtx_bridle (s : State) (slot : Nat) (f : Ctx → Ctx) :
    (State.updCtx s slot f).bridle = s.bridle := by simp [State.updCtx]

@[simp] theorem State.updEng_bridle (s : State) (e : Nat) (f : Engine → Engine) :
    (State.updEng s e f).bridle = s.bridle := by simp [State.updEng]

@[simp] theorem syncCtx_bridle (slot : Nat) (s : State) : (syncCtx slot s).bridle = s.bridle := by simp [syncCtx]

@[simp] theorem postClass_bridle (slot k : Nat) (s : State) :
    (postClass slot k s).bridle = s.bridle := by simp [postClass]

@[simp] theorem girthEnd_bridle (f : GirthReq → Bool) (part : Bool) (s : State) :
    (girthEnd f part s).bridle = s.bridle := by simp [girthEnd]

@[simp] theorem girthUnitOff_bridle (kind unit : Nat) (s : State) :
    (girthUnitOff kind unit s).bridle = s.bridle := by simp [girthUnitOff]

@[simp] theorem girthTransientEnd_bridle (kind unit : Nat) (s : State) :
    (girthTransientEnd kind unit s).bridle = s.bridle := by simp [girthTransientEnd]

@[simp] theorem girthWithdraw_bridle (f : GirthReq → Bool) (s : State) :
    (girthWithdraw f s).bridle = s.bridle := by simp [girthWithdraw]

@[simp] theorem withdrawRestart_bridle (kind unit : Nat) (s : State) :
    (withdrawRestart kind unit s).bridle = s.bridle := by simp [withdrawRestart]

@[simp] theorem busOk_bridle (v : Word) (s : State) : (busOk v s).bridle = s.bridle := by simp [busOk]

@[simp] theorem busFail_bridle (s : State) : (busFail s).bridle = s.bridle := by simp [busFail]

/-! ### LinkOps -/

@[simp] theorem State.updLink_bridle (s : State) (d : Side) (f : LinkEnd → LinkEnd) :
    (State.updLink s d f).bridle = s.bridle := by
  unfold State.updLink; (repeat' split) <;> simp

@[simp] theorem linkCount_bridle (d : Side) (idx k : Nat) (s : State) : (linkCount d idx k s).bridle = s.bridle := by
  unfold linkCount; (repeat' split) <;> simp

@[simp] theorem linkFlush_bridle (d : Side) (n : Nat) (s : State) : (linkFlush d n s).bridle = s.bridle := by
  induction n generalizing s with
  | zero => rfl
  | succ n ih => simp only [linkFlush]; (repeat' split) <;> simp [ih]

@[simp] theorem linkOffer_bridle (d : Side) (cls : Nat) (tag : Word) (payload : List Byte) (s : State) :
    (linkOffer d cls tag payload s).bridle = s.bridle := by simp [linkOffer]

@[simp] theorem dieSend_bridle (cls : Nat) (payload : List Byte) (s : State) :
    (dieSend cls payload s).bridle = s.bridle := by simp [dieSend]

@[simp] theorem dieReply_bridle (tag : Word) (cls : Nat) (payload : List Byte) (s : State) :
    (dieReply tag cls payload s).bridle = s.bridle := by simp [dieReply]

/-! ### SealedOps -/

@[simp] theorem State.setSobj_bridle (s : State) (idx sub : Nat) (v : List Byte) :
    (State.setSobj s idx sub v).bridle = s.bridle := by simp [State.setSobj]

@[simp] theorem State.updElem_bridle (s : State) (e : Nat) (f : Elem → Elem) :
    (State.updElem s e f).bridle = s.bridle := by simp [State.updElem]

@[simp] theorem State.updChan_bridle (s : State) (c : Nat) (f : Chan → Chan) :
    (State.updChan s c f).bridle = s.bridle := by simp [State.updChan]

@[simp] theorem logAdd_bridle (kind : Nat) (data : List Byte) (s : State) :
    (logAdd kind data s).bridle = s.bridle := by simp [logAdd]

@[simp] theorem State.mapRecs_bridle (s : State) (f : Rec → Rec) :
    (State.mapRecs s f).bridle = s.bridle := by simp [State.mapRecs]

@[simp] theorem State.updRec_bridle (s : State) (serial : Nat) (f : Rec → Rec) :
    (State.updRec s serial f).bridle = s.bridle := by simp [State.updRec]

@[simp] theorem State.updPt_bridle (s : State) (p : Nat) (f : PointBill → PointBill) :
    (State.updPt s p f).bridle = s.bridle := by simp [State.updPt]

@[simp] theorem flagOpen_bridle (p i : Nat) (s : State) : (flagOpen p i s).bridle = s.bridle := by simp [flagOpen]

@[simp] theorem flagAllOpen_bridle (i : Nat) (s : State) : (flagAllOpen i s).bridle = s.bridle := by simp [flagAllOpen]

@[simp] theorem purseCheck_bridle (serial : Nat) (s : State) : (purseCheck serial s).bridle = s.bridle := by
  unfold purseCheck; (repeat' split) <;> simp

@[simp] theorem routeMs_bridle (p t : Nat) (i e : Int) (s : State) : (routeMs p t i e s).bridle = s.bridle := by
  unfold routeMs; (repeat' split) <;> simp

@[simp] theorem routePoint_bridle (p : Nat) (sell : Bool) (ms : List Int) (s : State) :
    (routePoint p sell ms s).bridle = s.bridle := by
  unfold routePoint; dsimp only; (repeat' split) <;> simp

@[simp] theorem closeInterval_bridle (extra next : BitVec 16) (s : State) :
    (closeInterval extra next s).bridle = s.bridle := by simp [closeInterval]

@[simp] theorem switchTariff_bridle (s : State) : (switchTariff s).bridle = s.bridle := by simp [switchTariff]

@[simp] theorem markIntervals_bridle (s : State) : (markIntervals s).bridle = s.bridle := by simp [markIntervals]

@[simp] theorem settle_bridle (s : State) : (settle s).bridle = s.bridle := by simp [settle]

@[simp] theorem closeRec_bridle (serial reason : Nat) (f : Rec → Rec) (s : State) :
    (closeRec serial reason f s).bridle = s.bridle := by
  unfold closeRec; (repeat' split) <;> simp

@[simp] theorem closeAll_bridle (reason : Nat) (f : Rec → Rec) (s : State) :
    (closeAll reason f s).bridle = s.bridle := by simp [closeAll]

@[simp] theorem displayCheck_bridle (s : State) : (displayCheck s).bridle = s.bridle := by simp [displayCheck]

@[simp] theorem commit_bridle (s : State) : (commit s).bridle = s.bridle := by simp [commit]

@[simp] theorem sealAbandon_bridle (s : State) : (sealAbandon s).bridle = s.bridle := by
  unfold sealAbandon; (repeat' split) <;> simp

@[simp] theorem dieLinkFailed_bridle (cause : Nat) (s : State) :
    (dieLinkFailed cause s).bridle = s.bridle := by simp [dieLinkFailed]

@[simp] theorem applyParam_bridle (w : ParamWrite) (s : State) :
    (applyParam w s).bridle = s.bridle := by simp [applyParam]

@[simp] theorem whenDie_bridle (f : State → State) (s : State) (h_f : ∀  t, (f  t).bridle = t.bridle) :
    (whenDie f s).bridle = s.bridle := by
  unfold whenDie; (repeat' split) <;> simp [*]

@[simp] theorem objReply_bridle (tag : Word) (op : Nat) (st : Status) (idx sub off total serial : Nat) (data : List Byte) (s : State) :
    (objReply tag op st idx sub off total serial data s).bridle = s.bridle := by simp [objReply]

@[simp] theorem writeReply_bridle (tag : Word) (idx sub len : Nat) (r : Status × State) :
    (writeReply tag idx sub len r).bridle = r.2.bridle := by simp [writeReply]

/-! ### Billing -/

@[simp] theorem recReply_bridle (tag : Word) (st : Status) (cause : Nat) (r : Option Rec) (s : State) :
    (recReply tag st cause r s).bridle = s.bridle := by simp [recReply]

@[simp] theorem recOpen_bridle (p handle method : Nat) (ident : List Byte) (s : State) :
    (recOpen p handle method ident s).2.2.2.bridle = s.bridle := by
  unfold recOpen; (repeat' split) <;> simp

theorem execRecordOpen_bridle (tag : Word) (p : Fin 64) (handle : Word) (method : BitVec 8) (ident : List Byte) (s s' : State) (ht : execRecordOpen tag p handle method ident s = .next s') :
    s'.bridle = s.bridle := by
  cases ht; simp

@[simp] theorem recClose_bridle (p handle serial reason : Nat) (s : State) :
    (recClose p handle serial reason s).2.2.bridle = s.bridle := by
  unfold recClose; (repeat' split) <;> simp

theorem execRecordClose_bridle (tag : Word) (p : Fin 64) (handle : Word) (serial : BitVec 64) (reason : BitVec 8) (s s' : State) (ht : execRecordClose tag p handle serial reason s = .next s') :
    s'.bridle = s.bridle := by
  cases ht; simp

theorem execRecordQuery_bridle (tag : Word) (p : Fin 64) (handle : Word) (serial : BitVec 64) (s s' : State) (ht : execRecordQuery tag p handle serial s = .next s') :
    s'.bridle = s.bridle := by
  cases ht; simp

@[simp] theorem recSigned_bridle (serial : Nat) (s : State) : (recSigned serial s).bridle = s.bridle := by
  unfold recSigned; (repeat' split) <;> simp

theorem execRecordSigned_bridle (serial : BitVec 64) (s s' : State) (ht : execRecordSigned serial s = .next s') :
    s'.bridle = s.bridle := by
  cases ht; simp

@[simp] theorem recCollect_bridle (serial : Nat) (s : State) :
    (recCollect serial s).2.bridle = s.bridle := by simp [recCollect]

theorem execRecordCollectionAck_bridle (rq : Rq) (serial : BitVec 64) (s s' : State) (ht : execRecordCollectionAck rq serial s = .next s') :
    s'.bridle = s.bridle := by
  cases ht; exact whenDie_bridle _ _ fun t => by simp; (repeat' split) <;> simp

@[simp] theorem noticeReply_bridle (tag : Word) (st : Status) (s : State) :
    (noticeReply tag st s).bridle = s.bridle := by simp [noticeReply]

@[simp] theorem notice_bridle (tag : Word) (serial : Nat) (f : Rec → State → State) (s : State) (h_f : ∀ x0 t, (f x0 t).bridle = t.bridle) :
    (notice tag serial f s).bridle = s.bridle := by
  unfold notice; (repeat' split) <;> simp [*]

theorem execSessionNoticePlug_bridle (tag : Word) (p : Fin 64) (_handle : Word) (s s' : State) (ht : execSessionNoticePlug tag p _handle s = .next s') :
    s'.bridle = s.bridle := by
  cases ht; simp

theorem execSessionNoticeAuthorise_bridle (tag : Word) (p : Fin 64) (_handle : Word) (serial : BitVec 64) (s s' : State) (ht : execSessionNoticeAuthorise tag p _handle serial s = .next s') :
    s'.bridle = s.bridle := by
  cases ht; simp

theorem execSessionNoticeEnergyFlow_bridle (tag : Word) (_p : Fin 64) (_handle : Word) (serial : BitVec 64) (s s' : State) (ht : execSessionNoticeEnergyFlow tag _p _handle serial s = .next s') :
    s'.bridle = s.bridle := by
  cases ht; simp

theorem execSessionNoticeStop_bridle (tag : Word) (_p : Fin 64) (_handle : Word) (serial : BitVec 64) (_reason : BitVec 8) (s s' : State) (ht : execSessionNoticeStop tag _p _handle serial _reason s = .next s') :
    s'.bridle = s.bridle := by
  cases ht; simp

theorem execSessionNoticeMeteringConfirmation_bridle (tag : Word) (_p : Fin 64) (_handle : Word) (serial : BitVec 64) (reading : BitVec 16) (sig : List Byte) (s s' : State) (ht : execSessionNoticeMeteringConfirmation tag _p _handle serial reading sig s = .next s') :
    s'.bridle = s.bridle := by
  cases ht; simp

@[simp] theorem takeReading_bridle (role : Role) (serial : Nat) (s : State) :
    (takeReading role serial s).2.2.bridle = s.bridle := by
  unfold takeReading; (repeat' split) <;> simp

theorem execSignedReading_bridle (rq : Rq) (slot : Fin 256) (serial : BitVec 64) (s s' : State) (ht : execSignedReading rq slot serial s = .next s') :
    s'.bridle = s.bridle := by
  cases ht; simp

theorem execPurseQuery_bridle (rq : Rq) (p : Fin 64) (serial : BitVec 64) (s s' : State) (ht : execPurseQuery rq p serial s = .next s') :
    s'.bridle = s.bridle := by
  cases ht; simp

@[simp] theorem activate_bridle (s : State) : (activate s).bridle = s.bridle := by simp [activate]

@[simp] theorem activateDue_bridle (s : State) : (activateDue s).bridle = s.bridle := by simp [activateDue]

@[simp] theorem newOffset_bridle (source : Nat) (minutes : Int) (s : State) :
    (newOffset source minutes s).bridle = s.bridle := by simp [newOffset]

@[simp] theorem offsetDue_bridle (s : State) : (offsetDue s).bridle = s.bridle := by
  unfold offsetDue; (repeat' split) <;> simp

@[simp] theorem stepLt_bridle (target : Nat) (s : State) : (stepLt target s).bridle = s.bridle := by simp [stepLt]

@[simp] theorem ltSet_bridle (role : Role) (target : Nat) (s0 : State) :
    (ltSet role target s0).2.bridle = s0.bridle := by
  unfold ltSet; dsimp only; (repeat' split) <;> simp

theorem execLtSet_bridle (rq : Rq) (target : Nat) (s s' : State) (ht : execLtSet rq target s = .next s') :
    s'.bridle = s.bridle := by
  cases ht; simp

@[simp] theorem offsetSet_bridle (role : Role) (minutes : Int) (s : State) :
    (offsetSet role minutes s).2.bridle = s.bridle := by
  unfold offsetSet; (repeat' split) <;> simp

theorem execOffsetSet_bridle (rq : Rq) (minutes : Int) (s s' : State) (ht : execOffsetSet rq minutes s = .next s') :
    s'.bridle = s.bridle := by
  cases ht; simp

theorem execOffsetChangeScheduled_bridle (s s' : State) (ht : execOffsetChangeScheduled s = .next s') :
    s'.bridle = s.bridle := by
  cases ht; simp

@[simp] theorem calendarWritten_bridle (c : List Byte) (s : State) : (calendarWritten c s).2.bridle = s.bridle := by
  unfold calendarWritten; (repeat' split) <;> simp

@[simp] theorem stagePart_bridle (idx sub off total : Nat) (data : List Byte) (s : State) :
    (stagePart idx sub off total data s).2.2.bridle = s.bridle := by
  unfold stagePart; dsimp only; (repeat' split) <;> simp

theorem execCalendarWrite_bridle (rq : Rq) (off total : Nat) (data : List Byte) (s s' : State) (ht : execCalendarWrite rq off total data s = .next s') :
    s'.bridle = s.bridle := by
  unfold execCalendarWrite at ht
  have ht := Host.Outcome.next.inj ht; subst ht
  refine whenDie_bridle _ _ (fun t => ?_)
  dsimp only
  rw [objReply_bridle]
  split
  · rfl
  split
  · rfl
  have k := stagePart_bridle 0x5600 1 off total data t
  split <;> rename_i e <;> rw [e] at k
  · rw [calendarWritten_bridle]; exact k
  · exact k

@[simp] theorem activateSet_bridle (role : Role) (sec : Nat) (s : State) :
    (activateSet role sec s).2.bridle = s.bridle := by
  unfold activateSet; (repeat' split) <;> simp

theorem execCalendarActivateSet_bridle (rq : Rq) (sec : Nat) (s s' : State) (ht : execCalendarActivateSet rq sec s = .next s') :
    s'.bridle = s.bridle := by
  cases ht; simp

theorem execCalendarActivation_bridle (s s' : State) (ht : execCalendarActivation s = .next s') :
    s'.bridle = s.bridle := by
  cases ht; simp

theorem execTariffSwitch_bridle (s s' : State) (ht : execTariffSwitch s = .next s') : s'.bridle = s.bridle := by
  cases ht; simp

theorem execDemandIntervalEnd_bridle (s s' : State) (ht : execDemandIntervalEnd s = .next s') :
    s'.bridle = s.bridle := by
  cases ht; simp

@[simp] theorem demandReset_bridle (role : Role) (p : Nat) (s : State) :
    (demandReset role p s).2.bridle = s.bridle := by
  unfold demandReset; (repeat' split) <;> simp

theorem execMaxDemandReset_bridle (rq : Rq) (p : Fin 64) (s s' : State) (ht : execMaxDemandReset rq p s = .next s') :
    s'.bridle = s.bridle := by
  cases ht; simp

@[simp] theorem tokenKey_bridle (role : Role) (key : List Byte) (s : State) :
    (tokenKey role key s).2.bridle = s.bridle := by
  unfold tokenKey; (repeat' split) <;> simp

theorem execTokenKeyChange_bridle (rq : Rq) (key : List Byte) (s s' : State) (ht : execTokenKeyChange rq key s = .next s') :
    s'.bridle = s.bridle := by
  cases ht; simp

@[simp] theorem logArchive_bridle (role : Role) (idx : Nat) (s : State) :
    (logArchive role idx s).2.bridle = s.bridle := by
  unfold logArchive; (repeat' split) <;> simp

theorem execLegalLogArchive_bridle (rq : Rq) (idx : Nat) (s s' : State) (ht : execLegalLogArchive rq idx s = .next s') :
    s'.bridle = s.bridle := by
  cases ht; simp

@[simp] theorem bothLedgers_bridle (f : Ledger → Ledger) (s : State) :
    (bothLedgers f s).bridle = s.bridle := by simp [bothLedgers]

@[simp] theorem creditExpire_bridle (p : Nat) (s : State) : (creditExpire p s).bridle = s.bridle := by
  unfold creditExpire; (repeat' split) <;> simp

theorem execPendingCreditExpiry_bridle (p : Fin 64) (s s' : State) (ht : execPendingCreditExpiry p s = .next s') :
    s'.bridle = s.bridle := by
  cases ht; simp

theorem execTokenLockoutEnd_bridle (s s' : State) (ht : execTokenLockoutEnd s = .next s') : s'.bridle = s.bridle := by
  cases ht; exact whenDie_bridle _ _ fun t => by dsimp only; (repeat' split) <;> simp [*]

theorem execLedgerAgeOut_bridle (s s' : State) (ht : execLedgerAgeOut s = .next s') : s'.bridle = s.bridle := by
  cases ht; simp

@[simp] theorem tokenBad_bridle (s : State) : (tokenBad s).bridle = s.bridle := by simp [tokenBad]

@[simp] theorem creditPoint_bridle (p unit amount : Nat) (s : State) :
    (creditPoint p unit amount s).bridle = s.bridle := by
  unfold creditPoint; (repeat' split) <;> simp

@[simp] theorem tokenEnter_bridle (p n : Nat) (s : State) :
    (tokenEnter p n s).2.2.bridle = s.bridle := by simp [tokenEnter]

@[simp] theorem startClose_bridle (coinc : Bool) (s : State) :
    (startClose coinc s).bridle = s.bridle := by simp [startClose]

@[simp] theorem startElems_bridle (s : State) : (startElems s).bridle = s.bridle := by
  unfold startElems
  dsimp only
  exact foldl_bridle _ (fun t e => State.updElem_bridle _ _ _) _ _

@[simp] theorem startFresh_bridle (through : Bool) (mtk lt : Nat) (s : State) :
    (startFresh through mtk lt s).bridle = s.bridle := rfl

@[simp] theorem dieStart_bridle (held : Bool) (s : State) : (dieStart held s).bridle = s.bridle := by simp [dieStart]

theorem execSealedDieStart_bridle (vbatHeld : Bool) (s s' : State) (ht : execSealedDieStart vbatHeld s = .next s') :
    s'.bridle = s.bridle := by
  cases ht; simp

/-! ### PowerOps -/

@[simp] theorem State.updOut_bridle (s : State) (x : Nat) (f : Output → Output) :
    (State.updOut s x f).bridle = s.bridle := by simp [State.updOut]

@[simp] theorem outEvt_bridle (x i : Nat) (s : State) : (outEvt x i s).bridle = s.bridle := by simp [outEvt]

@[simp] theorem outTo_bridle (x : Nat) (st : OutSt) (s : State) : (outTo x st s).bridle = s.bridle := by simp [outTo]

@[simp] theorem outHold_bridle (x : Nat) (s : State) : (outHold x s).bridle = s.bridle := by simp [outHold]

@[simp] theorem outRelease_bridle (x : Nat) (s : State) : (outRelease x s).bridle = s.bridle := by simp [outRelease]

@[simp] theorem outLatch_bridle (x cause : Nat) (s : State) :
    (outLatch x cause s).bridle = s.bridle := by simp [outLatch]

@[simp] theorem outWaitLatch_bridle (x : Nat) (s : State) :
    (outWaitLatch x s).bridle = s.bridle := by simp [outWaitLatch]

@[simp] theorem outWaitLatchAll_bridle (s : State) : (outWaitLatchAll s).bridle = s.bridle := by simp [outWaitLatchAll]

@[simp] theorem outVload_bridle (x : Nat) (s : State) : (outVload x s).bridle = s.bridle := by simp [outVload]

@[simp] theorem State.updPil_bridle (s : State) (p : Nat) (f : PilotPt → PilotPt) :
    (State.updPil s p f).bridle = s.bridle := by simp [State.updPil]

@[simp] theorem pilEvt_bridle (p i : Nat) (s : State) : (pilEvt p i s).bridle = s.bridle := by simp [pilEvt]

@[simp] theorem countPt_bridle (p : Nat) (f : PtCount → PtCount) (s : State) :
    (countPt p f s).bridle = s.bridle := by simp [countPt]

@[simp] theorem pilGo_bridle (p : Nat) (st : PilSt) (s : State) : (pilGo p st s).bridle = s.bridle := by simp [pilGo]

@[simp] theorem pilStart_bridle (p : Nat) (s : State) : (pilStart p s).bridle = s.bridle := by simp [pilStart]

@[simp] theorem pilDriveF_bridle (held : Bool) (p : Nat) (s : State) :
    (pilDriveF held p s).bridle = s.bridle := by simp [pilDriveF]

@[simp] theorem pilToX1_bridle (p : Nat) (s : State) : (pilToX1 p s).bridle = s.bridle := by simp [pilToX1]

@[simp] theorem pilRelease_bridle (p : Nat) (s : State) : (pilRelease p s).bridle = s.bridle := by simp [pilRelease]

@[simp] theorem pilRailBack_bridle (p : Nat) (s : State) : (pilRailBack p s).bridle = s.bridle := by simp [pilRailBack]

@[simp] theorem psqSelfRelease_bridle (s : State) : (psqSelfRelease s).bridle = s.bridle := by simp [psqSelfRelease]

@[simp] theorem safeReport_bridle (s : State) : (safeReport s).bridle = s.bridle := by simp [safeReport]

@[simp] theorem safeLatches_bridle (s : State) : (safeLatches s).bridle = s.bridle := by simp [safeLatches]

@[simp] theorem safeEnter_bridle (s : State) : (safeEnter s).bridle = s.bridle := by simp [safeEnter]

@[simp] theorem seqSet_bridle (k : Nat) (d2 on : Bool) (s : State) :
    (seqSet k d2 on s).bridle = s.bridle := by simp [seqSet]

/-! ### BridleOps -/

@[simp] theorem bridleStatus_bridle (s : State) : (bridleStatus s).bridle = s.bridle := by simp [bridleStatus]

@[simp] theorem syncOut_bridle (x : Nat) (s : State) : (syncOut x s).bridle = s.bridle := by simp [syncOut]

@[simp] theorem syncPilot_bridle (p : Nat) (s : State) : (syncPilot p s).bridle = s.bridle := by simp [syncPilot]

@[simp] theorem syncPoint_bridle (p : Nat) (s : State) : (syncPoint p s).bridle = s.bridle := by simp [syncPoint]

@[simp] theorem resendHolds_bridle (s : State) : (resendHolds s).bridle = s.bridle := by simp [resendHolds]

/-! ### GirthOps -/

@[simp] theorem girthAccept_bridle (port : Nat) (ctx : Option Nat) (kind unit hold : Nat) (s : State) :
    (girthAccept port ctx kind unit hold s).2.1.bridle = s.bridle := by
  unfold girthAccept; dsimp only; (repeat' split) <;> simp

@[simp] theorem girthSubmit_bridle (port : Nat) (ctx : Option Nat) (kind unit hold : Nat) (s : State) :
    (girthSubmit port ctx kind unit hold s).2.bridle = s.bridle := by simp [girthSubmit]

@[simp] theorem girthUsed_bridle (port : Nat) (ctx : Option Nat) (kind : Nat) (s : State) :
    (girthUsed port ctx kind s).bridle = s.bridle := by
  unfold girthUsed; dsimp only; (repeat' split) <;> simp

theorem girthRun_bridle (port : Nat) (l : List Nat) (s t : State) (h : girthRun port l s = some t) :
    t.bridle = s.bridle := by
  induction l generalizing s with
  | nil => cases h; rfl
  | cons k r ih =>
    unfold girthRun at h
    split at h
    · rw [ih _ h]; simp
    · cases h

@[simp] theorem underGrants_bridle (port : Nat) (kinds : List Nat) (f : State → Status × State) (s : State) (h_f : ∀  t, (f  t).2.bridle = t.bridle) :
    (underGrants port kinds f s).2.bridle = s.bridle := by
  unfold underGrants
  dsimp only
  split
  · exact h_f s
  · split
    · rfl
    · rename_i e; rw [h_f]; exact girthRun_bridle _ _ _ _ e

@[simp] theorem girthOrphan_bridle (slot : Nat) (s : State) :
    (girthOrphan slot s).bridle = s.bridle := by simp [girthOrphan]

/-! ### Outputs -/

@[simp] theorem powerWrite_bridle (f : State → State) (s : State) (h_f : ∀  t, (f  t).bridle = t.bridle) :
    (powerWrite f s).bridle = s.bridle := by
  unfold powerWrite; (repeat' split) <;> simp [*]

@[simp] theorem outIgnore_bridle (x : Nat) (s : State) : (outIgnore x s).bridle = s.bridle := by simp [outIgnore]

@[simp] theorem outIgnoreOff_bridle (x : Nat) (s : State) :
    (outIgnoreOff x s).bridle = s.bridle := by simp [outIgnoreOff]

@[simp] theorem outRestart_bridle (x : Nat) (s : State) : (outRestart x s).bridle = s.bridle := by
  have h := girthAccept_bridle restartPort none (outGirthKind x) (outUnit x) 0 s
  unfold outRestart
  split
  · rename_i e; rw [e] at h; simpa using h
  · rfl
  · simp

@[simp] theorem outRestartDue_bridle (x : Nat) (s : State) :
    (outRestartDue x s).bridle = s.bridle := by simp [outRestartDue]

@[simp] theorem outSwitchOff_bridle (x : Nat) (s : State) :
    (outSwitchOff x s).bridle = s.bridle := by simp [outSwitchOff]

@[simp] theorem outFirmware_bridle (x : Nat) (f : State → State) (s : State) (h_f : ∀  t, (f  t).bridle = t.bridle) :
    (outFirmware x f s).bridle = s.bridle := by
  unfold outFirmware; (repeat' split) <;> simp [*]

@[simp] theorem outCmdOff_bridle (x : Nat) (s : State) : (outCmdOff x s).bridle = s.bridle := by simp [outCmdOff]

theorem execOutputOff_bridle (x : Fin 96) (s s' : State) (ht : execOutputOff x s = .next s') :
    s'.bridle = s.bridle := by
  cases ht; simp

@[simp] theorem outClear_bridle (x : Nat) (s : State) : (outClear x s).bridle = s.bridle := by simp [outClear]

@[simp] theorem outCmdClear_bridle (x : Nat) (s : State) : (outCmdClear x s).bridle = s.bridle := by simp [outCmdClear]

theorem execOutputClear_bridle (x : Fin 96) (s s' : State) (ht : execOutputClear x s = .next s') :
    s'.bridle = s.bridle := by
  cases ht; simp

@[simp] theorem outTest_bridle (x : Nat) (sampleMv meanMa : Int) (s : State) :
    (outTest x sampleMv meanMa s).bridle = s.bridle := by
  unfold outTest; dsimp only; (repeat' split) <;> simp

theorem execOutputTestPulse_bridle (x : Fin 96) (sampleMv meanMa : Int) (s s' : State) (ht : execOutputTestPulse x sampleMv meanMa s = .next s') :
    s'.bridle = s.bridle := by
  cases ht; simp

theorem execOutputTestPeriod_bridle (x : Fin 96) (sampleMv meanMa : Int) (s s' : State) (ht : execOutputTestPeriod x sampleMv meanMa s = .next s') :
    s'.bridle = s.bridle := by
  cases ht; simp

theorem execCoilPullInEnd_bridle (n : Fin 64) (s s' : State) (ht : execCoilPullInEnd n s = .next s') :
    s'.bridle = s.bridle := by
  cases ht; simp

theorem execOutputCurrentLimit_bridle (x : Fin 96) (s s' : State) (ht : execOutputCurrentLimit x s = .next s') :
    s'.bridle = s.bridle := by
  cases ht; simp

theorem execOutputLimitExit_bridle (x : Fin 96) (s s' : State) (ht : execOutputLimitExit x s = .next s') :
    s'.bridle = s.bridle := by
  cases ht; simp

theorem execOutputThermalTrip_bridle (x : Fin 96) (s s' : State) (ht : execOutputThermalTrip x s = .next s') :
    s'.bridle = s.bridle := by
  cases ht; simp

theorem execOutputRestartLevel_bridle (x : Fin 96) (s s' : State) (ht : execOutputRestartLevel x s = .next s') :
    s'.bridle = s.bridle := by
  cases ht; simp

theorem execOutputRestartRetry_bridle (x : Fin 96) (s s' : State) (ht : execOutputRestartRetry x s = .next s') :
    s'.bridle = s.bridle := by
  cases ht; simp

theorem execRetryWindowExpiry_bridle (x : Fin 96) (s s' : State) (ht : execRetryWindowExpiry x s = .next s') :
    s'.bridle = s.bridle := by
  cases ht; simp

theorem execOutputWarningBand_bridle (b : BandChange) (s s' : State) (ht : execOutputWarningBand b s = .next s') :
    s'.bridle = s.bridle := by
  cases ht; (repeat' split) <;> simp

theorem execOutputSumOver_bridle (sum : Nat) (s s' : State) (ht : execOutputSumOver sum s = .next s') :
    s'.bridle = s.bridle := by
  cases ht; simp

@[simp] theorem outCfgWrite_bridle (x : Nat) (v : Word) (s : State) :
    (outCfgWrite x v s).bridle = s.bridle := by simp [outCfgWrite]

theorem execOutputCfgWrite_bridle (x : Fin 96) (v : Word) (s s' : State) (ht : execOutputCfgWrite x v s = .next s') :
    s'.bridle = s.bridle := by
  cases ht; simp

@[simp] theorem outProtWrite_bridle (v : Word) (s : State) :
    (outProtWrite v s).bridle = s.bridle := by simp [outProtWrite]

theorem execOutProtWrite_bridle (v : Word) (s s' : State) (ht : execOutProtWrite v s = .next s') :
    s'.bridle = s.bridle := by
  cases ht; simp

/-! ### Pilot -/

@[simp] theorem pilWakeReq_bridle (p : Nat) (s : State) : (pilWakeReq p s).bridle = s.bridle := by simp [pilWakeReq]

@[simp] theorem pilCommand_bridle (p : Nat) (v : Word) (s : State) :
    (pilCommand p v s).bridle = s.bridle := by simp [pilCommand]

theorem execPilotCommand_bridle (p : Fin 64) (v : Word) (s s' : State) (ht : execPilotCommand p v s = .next s') :
    s'.bridle = s.bridle := by
  cases ht; simp

theorem execPilotWake_bridle (p : Fin 64) (v : Word) (s s' : State) (ht : execPilotWake p v s = .next s') :
    s'.bridle = s.bridle := by
  cases ht; simp

@[simp] theorem pilAfterMode_bridle (p : Nat) (s : State) :
    (pilAfterMode p s).bridle = s.bridle := by simp [pilAfterMode]

@[simp] theorem pilNone_bridle (p : Nat) (s : State) : (pilNone p s).bridle = s.bridle := by simp [pilNone]

@[simp] theorem pilPeriod_bridle (p : Nat) (s : State) : (pilPeriod p s).bridle = s.bridle := by simp [pilPeriod]

theorem execPilotWakeEnd_bridle (p : Fin 64) (s s' : State) (ht : execPilotWakeEnd p s = .next s') :
    s'.bridle = s.bridle := by
  cases ht; simp

theorem execPilotPeriodTrim_bridle (periodNs : Nat) (s s' : State) (ht : execPilotPeriodTrim periodNs s = .next s') :
    s'.bridle = s.bridle := by
  cases ht; simp

@[simp] theorem pilFault_bridle (p : Nat) (st : PilSt) (evt : Nat) (cause : BitVec 3) (s : State) :
    (pilFault p st evt cause s).bridle = s.bridle := by simp [pilFault]

@[simp] theorem pilPositive_bridle (p : Nat) (mv : List Int) (s : State) :
    (pilPositive p mv s).bridle = s.bridle := by simp [pilPositive]

@[simp] theorem pilNegative_bridle (p : Nat) (mv : List Int) (s : State) :
    (pilNegative p mv s).bridle = s.bridle := by simp [pilNegative]

theorem execPilotPlateauEvaluation_bridle (p : Fin 64) (neg : Bool) (samples : List PilSample) (s s' : State) (ht : execPilotPlateauEvaluation p neg samples s = .next s') :
    s'.bridle = s.bridle := by
  cases ht; simp

theorem execOffWaitExpiry_bridle (p : Fin 64) (s s' : State) (ht : execOffWaitExpiry p s = .next s') :
    s'.bridle = s.bridle := by
  cases ht; simp

@[simp] theorem proxMeasure_bridle (p : Nat) (v1 v2 : Int) (s : State) :
    (proxMeasure p v1 v2 s).bridle = s.bridle := by simp [proxMeasure]

theorem execProximityMeasurement_bridle (p : Fin 64) (v1 v2 : Int) (s s' : State) (ht : execProximityMeasurement p v1 v2 s = .next s') :
    s'.bridle = s.bridle := by
  cases ht; simp

@[simp] theorem pilCfgWrite_bridle (p : Nat) (v : Word) (s : State) :
    (pilCfgWrite p v s).bridle = s.bridle := by simp [pilCfgWrite]

@[simp] theorem pilRsrcWrite_bridle (p : Nat) (v : Word) (s : State) :
    (pilRsrcWrite p v s).bridle = s.bridle := by simp [pilRsrcWrite]

theorem execPilotCfgWrite_bridle (p : Fin 64) (rsrc : Bool) (v : Word) (s s' : State) (ht : execPilotCfgWrite p rsrc v s = .next s') :
    s'.bridle = s.bridle := by
  cases ht; simp

@[simp] theorem pilTsRead_bridle (port p : Nat) (s : State) :
    (pilTsRead port p s).bridle = s.bridle := by simp [pilTsRead]

theorem execPilTsRead_bridle (port : Fin 24) (p : Fin 64) (s s' : State) (ht : execPilTsRead port p s = .next s') :
    s'.bridle = s.bridle := by
  cases ht; simp

/-! ### Buckle -/

@[simp] theorem claimSource_bridle (n : Nat) (s : State) : (claimSource n s).bridle = s.bridle := by simp [claimSource]

@[simp] theorem bklClaim_bridle (t : Nat) (s : State) : (bklClaim t s).bridle = s.bridle := by simp [bklClaim]

theorem execBuckleClaim_bridle (t : Fin 18) (s s' : State) (ht : execBuckleClaim t s = .next s') :
    s'.bridle = s.bridle := by
  cases ht; simp

@[simp] theorem completeSource_bridle (t n : Nat) (s : State) :
    (completeSource t n s).bridle = s.bridle := by simp [completeSource]

@[simp] theorem bklComplete_bridle (t : Nat) (v : Word) (s : State) :
    (bklComplete t v s).bridle = s.bridle := by simp [bklComplete]

theorem execBuckleComplete_bridle (t : Fin 18) (v : Word) (s s' : State) (ht : execBuckleComplete t v s = .next s') :
    s'.bridle = s.bridle := by
  cases ht; simp

@[simp] theorem bklPendRead_bridle (port k : Nat) (s : State) :
    (bklPendRead port k s).bridle = s.bridle := by simp [bklPendRead]

theorem execBuckleCPendRead_bridle (port : Fin 24) (k : Fin 16) (s s' : State) (ht : execBuckleCPendRead port k s = .next s') :
    s'.bridle = s.bridle := by
  cases ht; simp

@[simp] theorem clearLatches_bridle (k : Nat) (m : Word) (s : State) :
    (clearLatches k m s).bridle = s.bridle := by simp [clearLatches]

@[simp] theorem bklPendWrite_bridle (port k : Nat) (v : Word) (s : State) :
    (bklPendWrite port k v s).bridle = s.bridle := by simp [bklPendWrite]

theorem execBuckleCPendWrite_bridle (port : Fin 24) (k : Fin 16) (v : Word) (s s' : State) (ht : execBuckleCPendWrite port k v s = .next s') :
    s'.bridle = s.bridle := by
  cases ht; simp

@[simp] theorem bklVec_bridle (t : Nat) (s : State) : (bklVec t s).bridle = s.bridle := by simp [bklVec]

theorem execBuckleCVecRead_bridle (t : Fin 18) (s s' : State) (ht : execBuckleCVecRead t s = .next s') :
    s'.bridle = s.bridle := by
  cases ht; simp

theorem execBucklePendClear_bridle (k : Fin 16) (v : Word) (s s' : State) (ht : execBucklePendClear k v s = .next s') :
    s'.bridle = s.bridle := by
  cases ht; simp

@[simp] theorem bklSwset_bridle (v : Word) (s : State) : (bklSwset v s).bridle = s.bridle := by simp [bklSwset]

theorem execBuckleSoftwareSet_bridle (v : Word) (s s' : State) (ht : execBuckleSoftwareSet v s = .next s') :
    s'.bridle = s.bridle := by
  cases ht; simp

@[simp] theorem bklCfgWrite_bridle (v : Word) (s : State) : (bklCfgWrite v s).bridle = s.bridle := by simp [bklCfgWrite]

theorem execBuckleCfgWrite_bridle (v : Word) (s s' : State) (ht : execBuckleCfgWrite v s = .next s') :
    s'.bridle = s.bridle := by
  cases ht; simp

theorem execBuckleSourceEdge_bridle (src : Fin 512) (s s' : State) (ht : execBuckleSourceEdge src s = .next s') :
    s'.bridle = s.bridle := by
  cases ht; simp

theorem execBuckleLevelChange_bridle (src : Fin 512) (level : Bool) (s s' : State) (ht : execBuckleLevelChange src level s = .next s') :
    s'.bridle = s.bridle := by
  cases ht; simp

@[simp] theorem transferSleep_bridle (s : State) : (transferSleep s).bridle = s.bridle := by simp [transferSleep]

@[simp] theorem wakeTarget_bridle (t : Nat) (s : State) : (wakeTarget t s).bridle = s.bridle := by simp [wakeTarget]

@[simp] theorem sleepWake_bridle (n : Nat) (s : State) : (sleepWake n s).bridle = s.bridle := by simp [sleepWake]

theorem execSleepLatchWake_bridle (src : Fin 512) (s s' : State) (ht : execSleepLatchWake src s = .next s') :
    s'.bridle = s.bridle := by
  cases ht; simp

@[simp] theorem bklSrcWrite_bridle (n : Nat) (v : Word) (s : State) :
    (bklSrcWrite n v s).bridle = s.bridle := by simp [bklSrcWrite]

/-! ### Metrology -/

@[simp] theorem updUsers_bridle (c : Nat) (f : Elem → Elem) (s : State) :
    (updUsers c f s).bridle = s.bridle := by simp [updUsers]

@[simp] theorem adcOverload_bridle (c : Nat) (code : BitVec 12) (repl : List (BitVec 12)) (s : State) :
    (adcOverload c code repl s).bridle = s.bridle := by simp [adcOverload]

theorem execAdcOverload_bridle (ch : Fin 80) (sar first : BitVec 12) (later : List (BitVec 12)) (s s' : State) (ht : execAdcOverload ch sar first later s = .next s') :
    s'.bridle = s.bridle := by
  cases ht; simp

theorem execGainRaise_bridle (ch : Fin 80) (s s' : State) (ht : execGainRaise ch s = .next s') :
    s'.bridle = s.bridle := by
  cases ht; simp

@[simp] theorem elemFault_bridle (e : Nat) (s : State) : (elemFault e s).bridle = s.bridle := by
  unfold elemFault; (repeat' split) <;> simp

@[simp] theorem chanFail_bridle (c : Nat) (s : State) : (chanFail c s).bridle = s.bridle := by simp [chanFail]

theorem execBitstreamModfail_bridle (b : Fin 64) (s s' : State) (ht : execBitstreamModfail b s = .next s') :
    s'.bridle = s.bridle := by
  cases ht; simp

@[simp] theorem State.updPls_bridle (s : State) (k : Nat) (f : Pulse → Pulse) :
    (State.updPls s k f).bridle = s.bridle := by simp [State.updPls]

@[simp] theorem pulseSync_bridle (k : Nat) (s : State) : (pulseSync k s).bridle = s.bridle := by simp [pulseSync]

@[simp] theorem pulseSyncAll_bridle (s : State) : (pulseSyncAll s).bridle = s.bridle := by simp [pulseSyncAll]

@[simp] theorem routeCycle_bridle (e : Nat) (c : CycleData) (s : State) : (routeCycle e c s).bridle = s.bridle := by
  unfold routeCycle; (repeat' split) <;> simp

@[simp] theorem cycleBoundary_bridle (e : Nat) (s : State) :
    (cycleBoundary e s).bridle = s.bridle := by simp [cycleBoundary]

@[simp] theorem refCycle_bridle (e ch : Nat) (v : Int) (cal raw : List Int) (overs : Nat) (s : State) :
    (refCycle e ch v cal raw overs s).bridle = s.bridle := by simp [refCycle]

@[simp] theorem cycleRms_bridle (e : Nat) (r : CycleRaw) (c : CycleData) (s : State) :
    (cycleRms e r c s).bridle = s.bridle := by simp [cycleRms]

@[simp] theorem closeCycle_bridle (e : Nat) (r : CycleRaw) (block short : Bool) (s : State) :
    (closeCycle e r block short s).bridle = s.bridle := by simp [closeCycle]

@[simp] theorem cycleEnd_bridle (e : Nat) (r : CycleRaw) (s : State) :
    (cycleEnd e r s).bridle = s.bridle := by simp [cycleEnd]

theorem execElementCycleEnd_bridle (e : Fin 128) (c : CycleRaw) (s s' : State) (ht : execElementCycleEnd e c s = .next s') :
    s'.bridle = s.bridle := by
  cases ht; simp

@[simp] theorem blockEntry_bridle (e : Nat) (r : CycleRaw) (s : State) :
    (blockEntry e r s).bridle = s.bridle := by simp [blockEntry]

theorem execBlockModeEntry_bridle (e : Fin 128) (c : CycleRaw) (s s' : State) (ht : execBlockModeEntry e c s = .next s') :
    s'.bridle = s.bridle := by
  cases ht; simp

@[simp] theorem blockReturn_bridle (e : Nat) (r : CycleRaw) (cycles : List CycleRaw) (s : State) :
    (blockReturn e r cycles s).bridle = s.bridle := by simp [blockReturn]

theorem execBlockModeReturn_bridle (x : BlockReturn) (s s' : State) (ht : execBlockModeReturn x s = .next s') :
    s'.bridle = s.bridle := by
  cases ht; simp

@[simp] theorem harmonicEnd_bridle (ch : Nat) (bins : List Nat) (s : State) :
    (harmonicEnd ch bins s).bridle = s.bridle := by simp [harmonicEnd]

theorem execHarmonicWindowEnd_bridle (ch : Fin 144) (re im : List Int) (s s' : State) (ht : execHarmonicWindowEnd ch re im s = .next s') :
    s'.bridle = s.bridle := by
  cases ht; simp

theorem execTemperatureBandSample_bridle (temp : Int) (s s' : State) (ht : execTemperatureBandSample temp s = .next s') :
    s'.bridle = s.bridle := by
  cases ht; simp

@[simp] theorem shadowDisagree_bridle (k : Nat) (s : State) :
    (shadowDisagree k s).bridle = s.bridle := by simp [shadowDisagree]

@[simp] theorem shadowAgree_bridle (k : Nat) (s : State) : (shadowAgree k s).bridle = s.bridle := by simp [shadowAgree]

@[simp] theorem shadowCheck_bridle (k c : Nat) (pass : Bool) (s : State) :
    (shadowCheck k c pass s).bridle = s.bridle := by
  unfold shadowCheck; dsimp only; (repeat' split) <;> simp

theorem execShadowCheckEnd_bridle (k : Fin 8) (ch : Fin 80) (x : Comparison) (s s' : State) (ht : execShadowCheckEnd k ch x s = .next s') :
    s'.bridle = s.bridle := by
  cases ht; simp

@[simp] theorem pulseDue_bridle (k : Nat) (s : State) : (pulseDue k s).bridle = s.bridle := by simp [pulseDue]

theorem execPulseDue_bridle (k : Fin 8) (s s' : State) (ht : execPulseDue k s = .next s') : s'.bridle = s.bridle := by
  cases ht; simp

@[simp] theorem pulseEnd_bridle (k : Nat) (s : State) : (pulseEnd k s).bridle = s.bridle := by simp [pulseEnd]

theorem execPulseOnTimeEnd_bridle (k : Fin 8) (s s' : State) (ht : execPulseOnTimeEnd k s = .next s') :
    s'.bridle = s.bridle := by
  cases ht; simp

@[simp] theorem sliceEnd_bridle (e : Nat) (c : CycleRaw) (s : State) :
    (sliceEnd e c s).bridle = s.bridle := by simp [sliceEnd]

theorem execSliceEnd_bridle (e : Fin 128) (c : CycleRaw) (s s' : State) (ht : execSliceEnd e c s = .next s') :
    s'.bridle = s.bridle := by
  cases ht; simp

theorem execResidueUpdate_bridle (e : Fin 128) (c : CycleRaw) (s s' : State) (ht : execResidueUpdate e c s = .next s') :
    s'.bridle = s.bridle := by
  cases ht; simp

theorem execPeriodicCommit_bridle (s s' : State) (ht : execPeriodicCommit s = .next s') : s'.bridle = s.bridle := by
  cases ht; simp

@[simp] theorem metrologyAnswer_bridle (role : Role) (kind part unit : Nat) (s : State) :
    (metrologyAnswer role kind part unit s).2.bridle = s.bridle := by
  unfold metrologyAnswer; (repeat' split) <;> simp

theorem execMetrologyRead_bridle (rq : Rq) (kind part : BitVec 8) (unit : BitVec 16) (s s' : State) (ht : execMetrologyRead rq kind part unit s = .next s') :
    s'.bridle = s.bridle := by
  cases ht; simp

@[simp] theorem State.staged_bridle (s : State) : (State.staged s).bridle = s.bridle := by simp [State.staged]

@[simp] theorem paramWrite_bridle (role : Role) (idx sub : Nat) (data : List Byte) (s : State) :
    (paramWrite role idx sub data s).2.bridle = s.bridle := by
  unfold paramWrite; dsimp only; (repeat' split) <;> simp

theorem execSealParameterWrite_bridle (rq : Rq) (idx : BitVec 16) (sub : BitVec 8) (data : List Byte) (s s' : State) (ht : execSealParameterWrite rq idx sub data s = .next s') :
    s'.bridle = s.bridle := by
  cases ht; exact whenDie_bridle _ _ fun t => by simp; (repeat' split) <;> simp

@[simp] theorem sealOpen_bridle (sel : BitVec 144) (s : State) : (sealOpen sel s).2.bridle = s.bridle := by
  unfold sealOpen; dsimp only; (repeat' split) <;> simp

theorem execSealOpen_bridle (rq : Rq) (sel : BitVec 144) (s s' : State) (ht : execSealOpen rq sel s = .next s') :
    s'.bridle = s.bridle := by
  cases ht; exact whenDie_bridle _ _ fun t => by simp; (repeat' split) <;> simp

@[simp] theorem recheck_bridle (c : Nat) (s : State) : (recheck c s).bridle = s.bridle := by simp [recheck]

@[simp] theorem sealCommit_bridle (pass : BitVec 144) (s : State) : (sealCommit pass s).2.bridle = s.bridle := by
  unfold sealCommit; (repeat' split) <;> simp

theorem execSealCloseCommit_bridle (rq : Rq) (recheckPass : BitVec 144) (s s' : State) (ht : execSealCloseCommit rq recheckPass s = .next s') :
    s'.bridle = s.bridle := by
  cases ht; exact whenDie_bridle _ _ fun t => by simp; (repeat' split) <;> simp

@[simp] theorem sealClose_bridle (s : State) : (sealClose s).2.bridle = s.bridle := by
  unfold sealClose; (repeat' split) <;> simp

theorem execSealCloseAbandon_bridle (rq : Rq) (s s' : State) (ht : execSealCloseAbandon rq s = .next s') :
    s'.bridle = s.bridle := by
  cases ht; exact whenDie_bridle _ _ fun t => by simp; (repeat' split) <;> simp

theorem execSealTimeout_bridle (s s' : State) (ht : execSealTimeout s = .next s') : s'.bridle = s.bridle := by
  cases ht; simp

/-! ### SealedObjects -/

@[simp] theorem sealedSession_bridle (role : Role) (idx sub serial : Nat) (s : State) :
    (sealedSession role idx sub serial s).2.2.bridle = s.bridle := by
  unfold sealedSession; dsimp only; (repeat' split) <;> simp

@[simp] theorem sealedRead_bridle (role : Role) (idx sub serial : Nat) (s : State) :
    (sealedRead role idx sub serial s).2.2.bridle = s.bridle := by
  unfold sealedRead; (repeat' split) <;> simp

theorem execSealedObjectRead_bridle (rq : Rq) (idx : BitVec 16) (sub : BitVec 8) (off len : Nat) (serial : BitVec 64) (s s' : State) (ht : execSealedObjectRead rq idx sub off len serial s = .next s') :
    s'.bridle = s.bridle := by
  cases ht; simp

@[simp] theorem onTimeWrite_bridle (idx : Nat) (data : List Byte) (s : State) :
    (onTimeWrite idx data s).2.bridle = s.bridle := by
  unfold onTimeWrite; (repeat' split) <;> simp

@[simp] theorem sealCloseWrite_bridle (n : Nat) (s : State) : (sealCloseWrite n s).2.bridle = s.bridle := by
  unfold sealCloseWrite; (repeat' split) <;> simp

@[simp] theorem sealedApply_bridle (role : Role) (idx sub : Nat) (data : List Byte) (s : State) :
    (sealedApply role idx sub data s).2.bridle = s.bridle := by
  unfold sealedApply; dsimp only; (repeat' split) <;> simp

@[simp] theorem sealedWrite_bridle (role : Role) (idx sub : Nat) (data : List Byte) (s : State) :
    (sealedWrite role idx sub data s).2.bridle = s.bridle := by
  unfold sealedWrite; (repeat' split) <;> simp

theorem execSealedObjectWrite_bridle (rq : Rq) (idx : BitVec 16) (sub : BitVec 8) (off total : Nat) (data : List Byte) (s s' : State) (ht : execSealedObjectWrite rq idx sub off total data s = .next s') :
    s'.bridle = s.bridle := by
  unfold execSealedObjectWrite at ht
  have ht := Host.Outcome.next.inj ht; subst ht
  refine whenDie_bridle _ _ (fun t => ?_)
  dsimp only
  rw [objReply_bridle]
  split
  · rfl
  have k := stagePart_bridle idx.toNat sub.toNat off total data t
  split <;> rename_i e <;> rw [e] at k
  · rw [sealedWrite_bridle]; exact k
  · exact k

/-! ### Panels -/

@[simp] theorem State.updPanel_bridle (s : State) (m : Nat) (f : Panel → Panel) :
    (State.updPanel s m f).bridle = s.bridle := by simp [State.updPanel]

@[simp] theorem panelNotice_bridle (m : Nat) (s : State) : (panelNotice m s).bridle = s.bridle := by simp [panelNotice]

@[simp] theorem panelTo_bridle (m : Nat) (st : PanelSt) (s : State) :
    (panelTo m st s).bridle = s.bridle := by simp [panelTo]

@[simp] theorem psqDrive_bridle (m : Nat) (mask : BitVec 4) (low : Bool) (s : State) :
    (psqDrive m mask low s).bridle = s.bridle := by simp [psqDrive]

@[simp] theorem clearFrames_bridle (m : Nat) (s : State) : (clearFrames m s).bridle = s.bridle := by simp [clearFrames]

@[simp] theorem panelStopped_bridle (m : Nat) (s : State) :
    (panelStopped m s).bridle = s.bridle := by simp [panelStopped]

@[simp] theorem orderlyStop_bridle (m : Nat) (s : State) : (orderlyStop m s).bridle = s.bridle := by simp [orderlyStop]

@[simp] theorem panelsLinked_bridle (s : State) : (panelsLinked s).bridle = s.bridle := by simp [panelsLinked]

@[simp] theorem panelFail_bridle (m : Nat) (s : State) : (panelFail m s).bridle = s.bridle := by simp [panelFail]

@[simp] theorem panelRequest_bridle (m : Nat) (s : State) :
    (panelRequest m s).bridle = s.bridle := by simp [panelRequest]

@[simp] theorem panelEnableSet_bridle (m : Nat) (s : State) :
    (panelEnableSet m s).bridle = s.bridle := by simp [panelEnableSet]

@[simp] theorem panelStart_bridle (m : Nat) (loopOk : Bool) (s : State) :
    (panelStart m loopOk s).bridle = s.bridle := by simp [panelStart]

theorem execPanelEnable_bridle (m : Fin 2) (loopOk : Bool) (s s' : State) (ht : execPanelEnable m loopOk s = .next s') :
    s'.bridle = s.bridle := by
  cases ht; simp

theorem execPanelClearRequestRetry_bridle (m : Fin 2) (s s' : State) (ht : execPanelClearRequestRetry m s = .next s') :
    s'.bridle = s.bridle := by
  cases ht; simp

theorem execPanelStartTimeout_bridle (m : Fin 2) (s s' : State) (ht : execPanelStartTimeout m s = .next s') :
    s'.bridle = s.bridle := by
  cases ht; simp

@[simp] theorem panelDisable_bridle (m : Nat) (s : State) :
    (panelDisable m s).bridle = s.bridle := by simp [panelDisable]

theorem execPanelDisable_bridle (m : Fin 2) (s s' : State) (ht : execPanelDisable m s = .next s') :
    s'.bridle = s.bridle := by
  cases ht; simp

@[simp] theorem clearUnderLedger_bridle (m : Nat) (s : State) :
    (clearUnderLedger m s).bridle = s.bridle := by simp [clearUnderLedger]

@[simp] theorem linesDue_bridle (m y h : Nat) (s : State) : (linesDue m y h s).bridle = s.bridle := by simp [linesDue]

@[simp] theorem putRect_bridle (m x y w h : Nat) (v : Nat → Nat → Byte) (s : State) :
    (putRect m x y w h v s).bridle = s.bridle := by simp [putRect]

@[simp] theorem panelGranted_bridle (m : Nat) (s : State) : (panelGranted m s).bridle = s.bridle := by
  unfold panelGranted; dsimp only; (repeat' split) <;> simp

@[simp] theorem frameStart_bridle (m mism : Nat) (bad : List Nat) (s : State) :
    (frameStart m mism bad s).bridle = s.bridle := by simp [frameStart]

theorem execPanelFrameStart_bridle (m : Fin 2) (mismatches : Nat) (bad : List (Fin 480)) (s s' : State) (ht : execPanelFrameStart m mismatches bad s = .next s') :
    s'.bridle = s.bridle := by
  cases ht; simp

@[simp] theorem entryDue_bridle (m : Nat) (e : Byte) (s : State) :
    (entryDue m e s).bridle = s.bridle := by simp [entryDue]

theorem execBlinkHalfPeriod_bridle (m : Fin 2) (entry : BitVec 8) (s s' : State) (ht : execBlinkHalfPeriod m entry s = .next s') :
    s'.bridle = s.bridle := by
  cases ht; simp

@[simp] theorem rolloverCheck_bridle (m : Nat) (s : State) : (rolloverCheck m s).bridle = s.bridle := by
  unfold rolloverCheck; (repeat' split) <;> simp

theorem execLegalRegionRedraw_bridle (m : Fin 2) (s s' : State) (ht : execLegalRegionRedraw m s = .next s') :
    s'.bridle = s.bridle := by
  cases ht; simp

theorem execSealBorderAdvance_bridle (m : Fin 2) (s s' : State) (ht : execSealBorderAdvance m s = .next s') :
    s'.bridle = s.bridle := by
  cases ht; simp

@[simp] theorem geomWrite_bridle (role : Role) (m x y w h : Nat) (s : State) :
    (geomWrite role m x y w h s).2.bridle = s.bridle := by
  unfold geomWrite; (repeat' split) <;> simp

@[simp] theorem ovReply_bridle (tag : Word) (op m : Nat) (r : Status × State) :
    (ovReply tag op m r).bridle = r.2.bridle := by simp [ovReply]

theorem execLegalRegionGeometryWrite_bridle (rq : Rq) (m : Fin 2) (x y w h : Nat) (s s' : State) (ht : execLegalRegionGeometryWrite rq m x y w h s = .next s') :
    s'.bridle = s.bridle := by
  cases ht; simp

theorem execOverlayWrite_bridle (rq : Rq) (m : Fin 2) (x y w h : Nat) (data : List Byte) (s s' : State) (ht : execOverlayWrite rq m x y w h data s = .next s') :
    s'.bridle = s.bridle := by
  cases ht; simp

theorem execOverlayFill_bridle (rq : Rq) (m : Fin 2) (x y w h : Nat) (index : BitVec 8) (s s' : State) (ht : execOverlayFill rq m x y w h index s = .next s') :
    s'.bridle = s.bridle := by
  cases ht; simp

theorem execPaletteWrite_bridle (rq : Rq) (m : Fin 2) (first : Nat) (rgb : List (BitVec 24)) (s s' : State) (ht : execPaletteWrite rq m first rgb s = .next s') :
    s'.bridle = s.bridle := by
  cases ht; simp

theorem execBlinkSet_bridle (rq : Rq) (m : Fin 2) (index partner : BitVec 8) (half : Nat) (enable : Bool) (s s' : State) (ht : execBlinkSet rq m index partner half enable s = .next s') :
    s'.bridle = s.bridle := by
  cases ht; simp

@[simp] theorem termApply_bridle (role : Role) (idx sub : Nat) (data : List Byte) (s : State) :
    (termApply role idx sub data s).2.bridle = s.bridle := by
  unfold termApply; dsimp only; (repeat' split) <;> simp

@[simp] theorem termWrite_bridle (role : Role) (idx sub : Nat) (data : List Byte) (s : State) :
    (termWrite role idx sub data s).2.bridle = s.bridle := by
  unfold termWrite; (repeat' split) <;> simp

@[simp] theorem termReply_bridle (tag : Word) (op : Nat) (st : Status) (idx sub : Nat) (data : List Byte) (s : State) :
    (termReply tag op st idx sub data s).bridle = s.bridle := by simp [termReply]

theorem execTerminalObjectRead_bridle (rq : Rq) (idx : BitVec 16) (sub : BitVec 8) (s s' : State) (ht : execTerminalObjectRead rq idx sub s = .next s') :
    s'.bridle = s.bridle := by
  cases ht; simp

theorem execTerminalObjectWrite_bridle (rq : Rq) (idx : BitVec 16) (sub : BitVec 8) (data : List Byte) (s s' : State) (ht : execTerminalObjectWrite rq idx sub data s = .next s') :
    s'.bridle = s.bridle := by
  cases ht; exact whenDie_bridle _ _ fun t => by dsimp only; (repeat' split) <;> simp [*]

theorem execPanelStatusQuery_bridle (rq : Rq) (m : Fin 2) (s s' : State) (ht : execPanelStatusQuery rq m s = .next s') :
    s'.bridle = s.bridle := by
  cases ht; simp

@[simp] theorem psqWrite_bridle (port : Nat) (v : Word) (s : State) :
    (psqWrite port v s).bridle = s.bridle := by simp [psqWrite]

theorem execOutPsqWrite_bridle (port : Fin 24) (v : Word) (s s' : State) (ht : execOutPsqWrite port v s = .next s') :
    s'.bridle = s.bridle := by
  cases ht; simp

@[simp] theorem State.updKey_bridle (s : State) (f : Keypad → Keypad) :
    (State.updKey s f).bridle = s.bridle := by simp [State.updKey]

@[simp] theorem keyNotice_bridle (kind : Nat) (p : Option Nat) (s : State) :
    (keyNotice kind p s).bridle = s.bridle := by simp [keyNotice]

@[simp] theorem keyDigit_bridle (d : Nat) (s : State) : (keyDigit d s).bridle = s.bridle := by
  unfold keyDigit; dsimp only; (repeat' split) <;> simp

theorem execKeyDigit_bridle (d : Fin 10) (s s' : State) (ht : execKeyDigit d s = .next s') : s'.bridle = s.bridle := by
  cases ht; simp

@[simp] theorem keyAccept_bridle (s : State) : (keyAccept s).bridle = s.bridle := by
  unfold keyAccept; dsimp only; (repeat' split) <;> simp

theorem execKeyAccept_bridle (s s' : State) (ht : execKeyAccept s = .next s') : s'.bridle = s.bridle := by
  cases ht; simp

theorem execKeyDelete_bridle (s s' : State) (ht : execKeyDelete s = .next s') : s'.bridle = s.bridle := by
  cases ht; simp

@[simp] theorem keyCancel_bridle (s : State) : (keyCancel s).bridle = s.bridle := by
  unfold keyCancel; (repeat' split) <;> simp

theorem execKeyCancel_bridle (s s' : State) (ht : execKeyCancel s = .next s') : s'.bridle = s.bridle := by
  cases ht; simp

theorem execKeyStop_bridle (s s' : State) (ht : execKeyStop s = .next s') : s'.bridle = s.bridle := by
  cases ht; simp

@[simp] theorem keyStar_bridle (s : State) : (keyStar s).bridle = s.bridle := by simp [keyStar]

theorem execKeyStar_bridle (s s' : State) (ht : execKeyStar s = .next s') : s'.bridle = s.bridle := by
  cases ht; simp

theorem execKeypadEntryTimeout_bridle (s s' : State) (ht : execKeypadEntryTimeout s = .next s') :
    s'.bridle = s.bridle := by
  cases ht; simp

/-! ### Mailbox -/

@[simp] theorem State.updPair_bridle (s : State) (m : Nat) (f : PairMbx → PairMbx) :
    (State.updPair s m f).bridle = s.bridle := by simp [State.updPair]

@[simp] theorem pairPut_bridle (m : Nat) (msg : List Word) (s : State) : (pairPut m msg s).2.bridle = s.bridle := by
  unfold pairPut; (repeat' split) <;> simp

@[simp] theorem pairWrite_bridle (port m i : Nat) (v : Word) (s : State) :
    (pairWrite port m i v s).bridle = s.bridle := by simp [pairWrite]

theorem execPairMailboxCommit_bridle (port : Fin 24) (m : Fin 20) (v : Word) (s s' : State) (ht : execPairMailboxCommit port m v s = .next s') :
    s'.bridle = s.bridle := by
  cases ht; simp

@[simp] theorem pairRead_bridle (m i : Nat) (s : State) : (pairRead m i s).bridle = s.bridle := by
  unfold pairRead; (repeat' split) <;> simp

theorem execPairMailboxRemove_bridle (_port : Fin 24) (m : Fin 20) (s s' : State) (ht : execPairMailboxRemove _port m s = .next s') :
    s'.bridle = s.bridle := by
  cases ht; simp

@[simp] theorem State.updHub_bridle (s : State) (h : Nat) (f : HubMbx → HubMbx) :
    (State.updHub s h f).bridle = s.bridle := by simp [State.updHub]

@[simp] theorem hubAcquire_bridle (port h : Nat) (s : State) : (hubAcquire port h s).bridle = s.bridle := by
  unfold hubAcquire; dsimp only; (repeat' split) <;> simp

theorem execHubMailboxAcquire_bridle (port : Fin 24) (h : Fin 8) (s s' : State) (ht : execHubMailboxAcquire port h s = .next s') :
    s'.bridle = s.bridle := by
  cases ht; simp

@[simp] theorem hubWrite_bridle (port h i : Nat) (v : Word) (s : State) :
    (hubWrite port h i v s).bridle = s.bridle := by simp [hubWrite]

theorem execHubMailboxCommit_bridle (port : Fin 24) (h : Fin 8) (v : Word) (s s' : State) (ht : execHubMailboxCommit port h v s = .next s') :
    s'.bridle = s.bridle := by
  cases ht; simp

@[simp] theorem hubRelease_bridle (port h : Nat) (s : State) :
    (hubRelease port h s).bridle = s.bridle := by simp [hubRelease]

theorem execHubMailboxRelease_bridle (port : Fin 24) (h : Fin 8) (s s' : State) (ht : execHubMailboxRelease port h s = .next s') :
    s'.bridle = s.bridle := by
  cases ht; simp

@[simp] theorem keeperTimeout_bridle (h : Nat) (s : State) :
    (keeperTimeout h s).bridle = s.bridle := by simp [keeperTimeout]

theorem execKeeperTimeout_bridle (h : Fin 8) (s s' : State) (ht : execKeeperTimeout h s = .next s') :
    s'.bridle = s.bridle := by
  cases ht; simp

@[simp] theorem hubRead_bridle (port h i : Nat) (s : State) : (hubRead port h i s).bridle = s.bridle := by
  unfold hubRead; dsimp only; (repeat' split) <;> simp

theorem execHubMailboxRemove_bridle (port : Fin 24) (h : Fin 8) (s s' : State) (ht : execHubMailboxRemove port h s = .next s') :
    s'.bridle = s.bridle := by
  cases ht; simp

@[simp] theorem mbxCtrlRead_bridle (s : State) : (mbxCtrlRead s).bridle = s.bridle := by simp [mbxCtrlRead]

theorem execMbxDroppedRead_bridle (s s' : State) (ht : execMbxDroppedRead s = .next s') : s'.bridle = s.bridle := by
  cases ht; simp

/-! ### Values -/

@[simp] theorem State.setObj_bridle (s : State) (idx sub : Nat) (v : List Byte) :
    (State.setObj s idx sub v).bridle = s.bridle := by simp [State.setObj]

@[simp] theorem State.setVol_bridle (s : State) (idx sub : Nat) (v : List Byte) :
    (State.setVol s idx sub v).bridle = s.bridle := by simp [State.setVol]

/-! ### Rein -/

@[simp] theorem putCtx_bridle (slot : Nat) (f : Ctx → Ctx) (s : State) :
    (putCtx slot f s).bridle = s.bridle := by simp [putCtx]

@[simp] theorem completeSources_bridle (l : List Nat) (s : State) :
    (completeSources l s).bridle = s.bridle := by simp [completeSources]

@[simp] theorem completeDelivered_bridle (slot : Nat) (s : State) :
    (completeDelivered slot s).bridle = s.bridle := by simp [completeDelivered]

@[simp] theorem completeLevels_bridle (slot : Nat) (s : State) :
    (completeLevels slot s).bridle = s.bridle := by simp [completeLevels]

@[simp] theorem ctxBytes_bridle (slot off : Nat) (b : List Byte) (s : State) :
    (ctxBytes slot off b s).bridle = s.bridle := by simp [ctxBytes]

@[simp] theorem claimFor_bridle (n slot k : Nat) (s : State) :
    (claimFor n slot k s).bridle = s.bridle := by simp [claimFor]

@[simp] theorem claimMisroute_bridle (e n : Nat) (s : State) :
    (claimMisroute e n s).bridle = s.bridle := by simp [claimMisroute]

@[simp] theorem reinClaim_bridle (e : Nat) (s : State) : (reinClaim e s).bridle = s.bridle := by
  unfold reinClaim; dsimp only; (repeat' split) <;> simp

theorem execReinSourceClaim_bridle (e : Fin 8) (s s' : State) (ht : execReinSourceClaim e s = .next s') :
    s'.bridle = s.bridle := by
  cases ht; simp

@[simp] theorem reinStash_bridle (e : Nat) (s : State) : (reinStash e s).bridle = s.bridle := by
  unfold reinStash; (repeat' split) <;> simp

theorem execReinMailboxStash_bridle (e : Fin 8) (s s' : State) (ht : execReinMailboxStash e s = .next s') :
    s'.bridle = s.bridle := by
  cases ht; simp

@[simp] theorem deliver_bridle (e k : Nat) (s : State) : (deliver e k s).bridle = s.bridle := by simp [deliver]

@[simp] theorem reinActivate_bridle (e : Nat) (s : State) : (reinActivate e s).bridle = s.bridle := by
  unfold reinActivate; (repeat' split) <;> simp

theorem execReinActivation_bridle (e : Fin 8) (s s' : State) (ht : execReinActivation e s = .next s') :
    s'.bridle = s.bridle := by
  cases ht; simp

@[simp] theorem endActivation_bridle (e slot : Nat) (s : State) :
    (endActivation e slot s).bridle = s.bridle := by simp [endActivation]

@[simp] theorem sesDone_bridle (e : Nat) (s : State) : (sesDone e s).bridle = s.bridle := by
  unfold sesDone; (repeat' split) <;> simp

@[simp] theorem commitNotices_bridle (e n : Nat) (s : State) : (commitNotices e n s).bridle = s.bridle := by
  induction n generalizing s with
  | zero => rfl
  | succ n ih => simp only [commitNotices]; (repeat' split) <;> simp [ih]

@[simp] theorem ctxTrap_bridle (e cause : Nat) (val : Word) (s : State) :
    (ctxTrap e cause val s).bridle = s.bridle := by
  unfold ctxTrap; (repeat' split) <;> simp

theorem execBudgetExhausted_bridle (e : Fin 8) (s s' : State) (ht : execBudgetExhausted e s = .next s') :
    s'.bridle = s.bridle := by
  cases ht; simp

theorem execTrapNoticeCommit_bridle (e : Fin 8) (s s' : State) (ht : execTrapNoticeCommit e s = .next s') :
    s'.bridle = s.bridle := by
  cases ht; simp

@[simp] theorem postCode_bridle (e k : Nat) (code : Byte) (s : State) : (postCode e k code s).2.bridle = s.bridle := by
  unfold postCode; dsimp only; (repeat' split) <;> simp

@[simp] theorem sesPost_bridle (e : Nat) (v : Word) (s : State) : (sesPost e v s).bridle = s.bridle := by
  unfold sesPost; (repeat' split) <;> simp

theorem execSesPost_bridle (e : Fin 8) (v : Word) (s s' : State) (ht : execSesPost e v s = .next s') :
    s'.bridle = s.bridle := by
  cases ht; simp

@[simp] theorem sesPostr_bridle (port e : Nat) (v : Word) (s : State) : (sesPostr port e v s).bridle = s.bridle := by
  unfold sesPostr; (repeat' split) <;> simp

theorem execSesPostr_bridle (port : Fin 24) (e : Fin 8) (v : Word) (s s' : State) (ht : execSesPostr port e v s = .next s') :
    s'.bridle = s.bridle := by
  cases ht; simp

@[simp] theorem evTake_bridle (e : Nat) (v : Word) (s : State) : (evTake e v s).bridle = s.bridle := by
  unfold evTake; (repeat' split) <;> simp

theorem execEvTake_bridle (e : Fin 8) (v : Word) (s s' : State) (ht : execEvTake e v s = .next s') :
    s'.bridle = s.bridle := by
  cases ht; simp

@[simp] theorem timerExpiry_bridle (slot : Nat) (s : State) :
    (timerExpiry slot s).bridle = s.bridle := by simp [timerExpiry]

theorem execReinTimerExpiry_bridle (slot : Fin 256) (s s' : State) (ht : execReinTimerExpiry slot s = .next s') :
    s'.bridle = s.bridle := by
  unfold execReinTimerExpiry at ht
  have ht := Host.Outcome.next.inj ht; subst ht
  first
  | ((repeat' split) <;> simp; done)
  | (dsimp only; done)
  | (dsimp only; (repeat' split) <;> simp; done)
  | (dsimp only; (repeat' split) <;> simp [*]; done)
  | ((repeat' split) <;> simp [*]; done)
  | exact whenDie_bridle _ _ (fun t => by first | (dsimp only; (repeat' split) <;> simp [*]; done) | (simp; (repeat' split) <;> simp; done))
  | (split <;> first | rfl | exact whenDie_bridle _ _ (fun t => by dsimp only; (repeat' split) <;> simp [*]))

@[simp] theorem pilTakes_bridle (p : Nat) (s : State) : (pilTakes p s).bridle = s.bridle := by simp [pilTakes]

@[simp] theorem pilDueTakes_bridle (p : Nat) (s : State) : (pilDueTakes p s).bridle = s.bridle := by simp [pilDueTakes]

theorem execPilotPeriodStart_bridle (s s' : State) (ht : execPilotPeriodStart s = .next s') : s'.bridle = s.bridle := by
  cases ht; simp

@[simp] theorem sessionTakes_bridle (slot p : Nat) (s : State) :
    (sessionTakes slot p s).bridle = s.bridle := by simp [sessionTakes]

@[simp] theorem ctxStart_bridle (slot p r : Nat) (s : State) : (ctxStart slot p r s).bridle = s.bridle := by
  unfold ctxStart
  dsimp only
  rw [sessionTakes_bridle, syncCtx_bridle, State.setNum_bridle, State.updCtx_bridle, ctxBytes_bridle]

@[simp] theorem startQueued_bridle (p : Nat) (s : State) : (startQueued p s).bridle = s.bridle := by
  unfold startQueued; (repeat' split) <;> simp

@[simp] theorem ctxRestart_bridle (slot : Nat) (s : State) : (ctxRestart slot s).2.bridle = s.bridle := by
  unfold ctxRestart; dsimp only; (repeat' split) <;> simp

@[simp] theorem ctxFree_bridle (slot : Nat) (s : State) : (ctxFree slot s).2.bridle = s.bridle := by
  unfold ctxFree; dsimp only; (repeat' split) <;> simp

@[simp] theorem ctxSetRole_bridle (slot r : Nat) (s : State) : (ctxSetRole slot r s).2.bridle = s.bridle := by
  unfold ctxSetRole; dsimp only; (repeat' split) <;> simp

@[simp] theorem putCmdSt_bridle (port e : Nat) (x : Nat × Nat × Status) (s : State) :
    (putCmdSt port e x s).bridle = s.bridle := by
  unfold putCmdSt; (repeat' split) <;> simp

@[simp] theorem sesUseRead_bridle (slot : Nat) (s : State) :
    (sesUseRead slot s).bridle = s.bridle := by simp [sesUseRead]

theorem execSesUseRead_bridle (slot : Fin 256) (s s' : State) (ht : execSesUseRead slot s = .next s') :
    s'.bridle = s.bridle := by
  cases ht; simp

@[simp] theorem engineReset_bridle (e : Nat) (s : State) : (engineReset e s).bridle = s.bridle := by
  unfold engineReset
  dsimp only
  rw [foldl_bridle _ (fun t i => State.updCtx_bridle t i _), foldl_bridle _ (fun t i => by rw [girthOrphan_bridle, completeLevels_bridle])]

/-! ### Sessions -/

@[simp] theorem State.updVs_bridle (s : State) (slot : Nat) (f : VSess → VSess) :
    (State.updVs s slot f).bridle = s.bridle := by simp [State.updVs]

@[simp] theorem setPhase_bridle (slot v : Nat) (s : State) : (setPhase slot v s).bridle = s.bridle := by simp [setPhase]

@[simp] theorem setReason_bridle (slot v : Nat) (s : State) :
    (setReason slot v s).bridle = s.bridle := by simp [setReason]

@[simp] theorem setTimer_bridle (slot ht : Nat) (s : State) :
    (setTimer slot ht s).bridle = s.bridle := by simp [setTimer]

@[simp] theorem withSession_bridle (p : Nat) (f : Nat → State → State) (s : State) (h_f : ∀ x0 t, (f x0 t).bridle = t.bridle) :
    (withSession p f s).bridle = s.bridle := by
  unfold withSession; (repeat' split) <;> simp [*]

@[simp] theorem publish_bridle (p v : Nat) (i : Int) (en : Bool) (s : State) :
    (publish p v i en s).bridle = s.bridle := by simp [publish]

@[simp] theorem setpointOff_bridle (p : Nat) (s : State) : (setpointOff p s).bridle = s.bridle := by simp [setpointOff]

@[simp] theorem fwSend_bridle (cls : Nat) (tag : Word) (b : List Byte) (s : State) :
    (fwSend cls tag b s).bridle = s.bridle := by simp [fwSend]

@[simp] theorem sessionNotice_bridle (kind slot reason : Nat) (s : State) :
    (sessionNotice kind slot reason s).bridle = s.bridle := by simp [sessionNotice]

@[simp] theorem closeRecord_bridle (slot : Nat) (s : State) :
    (closeRecord slot s).bridle = s.bridle := by simp [closeRecord]

@[simp] theorem toClosing_bridle (slot reason : Nat) (tell : Bool) (s : State) :
    (toClosing slot reason tell s).bridle = s.bridle := by simp [toClosing]

@[simp] theorem dutyOff_bridle (slot : Nat) (s : State) : (dutyOff slot s).bridle = s.bridle := by simp [dutyOff]

@[simp] theorem toStopping_bridle (slot reason : Nat) (s : State) :
    (toStopping slot reason s).bridle = s.bridle := by simp [toStopping]

@[simp] theorem endSlot_bridle (slot reason : Nat) (s : State) :
    (endSlot slot reason s).bridle = s.bridle := by simp [endSlot]

@[simp] theorem endSession_bridle (p reason : Nat) (s : State) :
    (endSession p reason s).bridle = s.bridle := by simp [endSession]

@[simp] theorem State.updVp_bridle (s : State) (k : Nat) (f : VPort → VPort) :
    (State.updVp s k f).bridle = s.bridle := by simp [State.updVp]

@[simp] theorem seqAuthorised_bridle (k : Nat) (s : State) :
    (seqAuthorised k s).bridle = s.bridle := by simp [seqAuthorised]

@[simp] theorem freeCmd_bridle (port slot : Nat) (s : State) :
    (freeCmd port slot s).2.bridle = s.bridle := by simp [freeCmd]

@[simp] theorem sesCmd_bridle (cmd port e : Nat) (v : Word) (s : State) :
    (sesCmd cmd port e v s).bridle = s.bridle := by
  unfold sesCmd
  dsimp only
  split
  · simp
  · split
    · simp
    · rename_i g st s1 h
      have : s1.bridle = s.bridle := by
        revert h; split
        · split <;> intro h <;> simp at h <;> obtain ⟨_, _, rfl⟩ := h <;> simp
        · intro h; simp at h; obtain ⟨_, h⟩ := h; have := ctxRestart_bridle (32 * e + fld v 0 5) s; rw [h] at this; exact this
        · intro h; simp at h; obtain ⟨_, h⟩ := h; have := freeCmd_bridle port (32 * e + fld v 0 5) s; rw [h] at this; exact this
        · intro h; simp at h; obtain ⟨_, h⟩ := h; have := ctxSetRole_bridle (32 * e + fld v 0 5) (fld v 6 2) s; rw [h] at this; exact this
        · intro h; simp at h
      simp [this]

theorem execSesStart_bridle (port : Fin 24) (e : Fin 8) (v : Word) (s s' : State) (ht : execSesStart port e v s = .next s') :
    s'.bridle = s.bridle := by
  cases ht; simp

theorem execSesRestart_bridle (port : Fin 24) (e : Fin 8) (v : Word) (s s' : State) (ht : execSesRestart port e v s = .next s') :
    s'.bridle = s.bridle := by
  cases ht; simp

theorem execSesFree_bridle (port : Fin 24) (e : Fin 8) (v : Word) (s s' : State) (ht : execSesFree port e v s = .next s') :
    s'.bridle = s.bridle := by
  cases ht; simp

theorem execSesSetrole_bridle (port : Fin 24) (e : Fin 8) (v : Word) (s s' : State) (ht : execSesSetrole port e v s = .next s') :
    s'.bridle = s.bridle := by
  cases ht; simp

@[simp] theorem openRecord_bridle (slot : Nat) (s : State) :
    (openRecord slot s).bridle = s.bridle := by simp [openRecord]

@[simp] theorem authorise_bridle (slot : Nat) (s : State) : (authorise slot s).bridle = s.bridle := by simp [authorise]

@[simp] theorem dutyOn_bridle (slot : Nat) (s : State) : (dutyOn slot s).bridle = s.bridle := by
  unfold dutyOn; (repeat' split) <;> simp

@[simp] theorem openReply_bridle (slot : Nat) (ok : Bool) (serial : Nat) (s : State) :
    (openReply slot ok serial s).bridle = s.bridle := by simp [openReply]

@[simp] theorem recordSigned_bridle (slot : Nat) (s : State) :
    (recordSigned slot s).bridle = s.bridle := by simp [recordSigned]

@[simp] theorem authGranted_bridle (slot : Nat) (s : State) :
    (authGranted slot s).bridle = s.bridle := by simp [authGranted]

@[simp] theorem tokenAuth_bridle (p tid : Nat) (s : State) : (tokenAuth p tid s).bridle = s.bridle := by
  unfold tokenAuth; (repeat' split) <;> simp

@[simp] theorem cardAuth_bridle (uid : List Byte) (s : State) : (cardAuth uid s).bridle = s.bridle := by
  unfold cardAuth; (repeat' split) <;> simp

@[simp] theorem termSelect_bridle (p : Option Nat) (s : State) :
    (termSelect p s).bridle = s.bridle := by simp [termSelect]

@[simp] theorem termStop_bridle (s : State) : (termStop s).bridle = s.bridle := by
  unfold termStop; (repeat' split) <;> simp

@[simp] theorem recordReply_bridle (m : LinkMsg) (s : State) : (recordReply m s).bridle = s.bridle := by
  unfold recordReply; (repeat' split) <;> simp

@[simp] theorem dieNotice_bridle (m : LinkMsg) (s : State) : (dieNotice m s).bridle = s.bridle := by
  unfold dieNotice; dsimp only; (repeat' split) <;> simp

@[simp] theorem cantleTakes_bridle (m : LinkMsg) (s : State) :
    (cantleTakes m s).bridle = s.bridle := by simp [cantleTakes]

@[simp] theorem sessionsRelinked_bridle (s : State) :
    (sessionsRelinked s).bridle = s.bridle := by simp [sessionsRelinked]

@[simp] theorem sessionsUnlinked_bridle (s : State) :
    (sessionsUnlinked s).bridle = s.bridle := by simp [sessionsUnlinked]

/-! ### Readers -/

@[simp] theorem State.updRd_bridle (s : State) (n : Nat) (f : Reader → Reader) :
    (State.updRd s n f).bridle = s.bridle := by simp [State.updRd]

@[simp] theorem laneLevel_bridle (n : Nat) (b : Bool) (s : State) :
    (laneLevel n b s).bridle = s.bridle := by simp [laneLevel]

@[simp] theorem rdEvt_bridle (n i : Nat) (s : State) : (rdEvt n i s).bridle = s.bridle := by simp [rdEvt]

@[simp] theorem xchEnd_bridle (n : Nat) (st : Status) (s : State) :
    (xchEnd n st s).bridle = s.bridle := by simp [xchEnd]

@[simp] theorem fieldOff_bridle (n : Nat) (s : State) : (fieldOff n s).bridle = s.bridle := by simp [fieldOff]

@[simp] theorem fieldOn_bridle (n : Nat) (s : State) : (fieldOn n s).bridle = s.bridle := by simp [fieldOn]

@[simp] theorem readerPing_bridle (n : Nat) (amp phase : Int) (s : State) :
    (readerPing n amp phase s).bridle = s.bridle := by
  unfold readerPing; dsimp only; (repeat' split) <;> simp

theorem execReaderPing_bridle (n : Fin 16) (amp phase : Int) (s s' : State) (ht : execReaderPing n amp phase s = .next s') :
    s'.bridle = s.bridle := by
  cases ht; simp

@[simp] theorem pollCycle_bridle (n : Nat) (cards : List CardId) (s : State) :
    (pollCycle n cards s).bridle = s.bridle := by
  unfold pollCycle; dsimp only; (repeat' split) <;> simp

theorem execReaderPollCycle_bridle (n : Fin 16) (cards : List CardId) (s s' : State) (ht : execReaderPollCycle n cards s = .next s') :
    s'.bridle = s.bridle := by
  cases ht; simp

theorem execReaderMultiRepoll_bridle (n : Fin 16) (cards : List CardId) (s s' : State) (ht : execReaderMultiRepoll n cards s = .next s') :
    s'.bridle = s.bridle := by
  cases ht; simp

theorem execReaderFieldIdle_bridle (n : Fin 16) (s s' : State) (ht : execReaderFieldIdle n s = .next s') :
    s'.bridle = s.bridle := by
  cases ht; simp

@[simp] theorem readerExchange_bridle (n : Nat) (s : State) :
    (readerExchange n s).bridle = s.bridle := by simp [readerExchange]

theorem execReaderExchange_bridle (n : Fin 16) (s s' : State) (ht : execReaderExchange n s = .next s') :
    s'.bridle = s.bridle := by
  cases ht; simp

@[simp] theorem readerAbort_bridle (n : Nat) (s : State) : (readerAbort n s).bridle = s.bridle := by simp [readerAbort]

theorem execReaderAbort_bridle (n : Fin 16) (s s' : State) (ht : execReaderAbort n s = .next s') :
    s'.bridle = s.bridle := by
  cases ht; simp

@[simp] theorem readerPoll_bridle (n : Nat) (s : State) : (readerPoll n s).bridle = s.bridle := by simp [readerPoll]

theorem execReaderPoll_bridle (n : Fin 16) (s s' : State) (ht : execReaderPoll n s = .next s') :
    s'.bridle = s.bridle := by
  cases ht; simp

theorem execReaderFieldOff_bridle (n : Fin 16) (s s' : State) (ht : execReaderFieldOff n s = .next s') :
    s'.bridle = s.bridle := by
  cases ht; simp

@[simp] theorem xchBad_bridle (n : Nat) (x : Xchg) (s : State) : (xchBad n x s).bridle = s.bridle := by simp [xchBad]

@[simp] theorem xchDone_bridle (n : Nat) (data : List Byte) (s : State) :
    (xchDone n data s).bridle = s.bridle := by simp [xchDone]

@[simp] theorem cardBlock_bridle (n : Nat) (b : CardBlock) (s : State) : (cardBlock n b s).bridle = s.bridle := by
  unfold cardBlock; (repeat' split) <;> simp

theorem execCardBlockReceive_bridle (n : Fin 16) (b : CardBlock) (s s' : State) (ht : execCardBlockReceive n b s = .next s') :
    s'.bridle = s.bridle := by
  cases ht; simp

theorem execCardFwtExpiry_bridle (n : Fin 16) (s s' : State) (ht : execCardFwtExpiry n s = .next s') :
    s'.bridle = s.bridle := by
  cases ht; simp

theorem execReaderExchangeTimeout_bridle (n : Fin 16) (s s' : State) (ht : execReaderExchangeTimeout n s = .next s') :
    s'.bridle = s.bridle := by
  cases ht; simp

@[simp] theorem State.updTag_bridle (s : State) (k : Nat) (f : TagSlot → TagSlot) :
    (State.updTag s k f).bridle = s.bridle := by simp [State.updTag]

@[simp] theorem tagSwap_bridle (k : Nat) (s : State) : (tagSwap k s).bridle = s.bridle := by simp [tagSwap]

@[simp] theorem tagClose_bridle (n : Nat) (s : State) : (tagClose n s).bridle = s.bridle := by
  unfold tagClose; (repeat' split) <;> simp

@[simp] theorem readerMode_bridle (n m : Nat) (s : State) : (readerMode n m s).bridle = s.bridle := by simp [readerMode]

@[simp] theorem readerModeWrite_bridle (n : Nat) (v : Word) (s : State) :
    (readerModeWrite n v s).bridle = s.bridle := by simp [readerModeWrite]

theorem execReaderModeWrite_bridle (n : Fin 16) (v : Word) (s s' : State) (ht : execReaderModeWrite n v s = .next s') :
    s'.bridle = s.bridle := by
  cases ht; simp

@[simp] theorem rdCtlWrite_bridle (n : Nat) (v : Word) (s : State) :
    (rdCtlWrite n v s).bridle = s.bridle := by simp [rdCtlWrite]

@[simp] theorem rdCfgWrite_bridle (n : Nat) (v : Word) (s : State) :
    (rdCfgWrite n v s).bridle = s.bridle := by simp [rdCfgWrite]

@[simp] theorem rdEvtWrite_bridle (n : Nat) (v : Word) (s : State) :
    (rdEvtWrite n v s).bridle = s.bridle := by simp [rdEvtWrite]

@[simp] theorem tagAnswer_bridle (n : Nat) (a : Option (List Byte)) (s : State) :
    (tagAnswer n a s).bridle = s.bridle := by simp [tagAnswer]

@[simp] theorem tagEntry_bridle (n : Nat) (s : State) : (tagEntry n s).bridle = s.bridle := by simp [tagEntry]

theorem execTagFieldEntry_bridle (n : Fin 16) (s s' : State) (ht : execTagFieldEntry n s = .next s') :
    s'.bridle = s.bridle := by
  cases ht; simp

@[simp] theorem tagActA_bridle (n : Nat) (c : TagAct) (s : State) : (tagActA n c s).bridle = s.bridle := by
  unfold tagActA; (repeat' split) <;> simp

@[simp] theorem tagActB_bridle (n : Nat) (c : TagAct) (s : State) : (tagActB n c s).bridle = s.bridle := by
  unfold tagActB; (repeat' split) <;> simp

@[simp] theorem tagAct_bridle (n : Nat) (c : TagAct) (s : State) : (tagAct n c s).bridle = s.bridle := by
  unfold tagAct; (repeat' split) <;> simp

theorem execTagActivation_bridle (n : Fin 16) (c : TagAct) (s s' : State) (ht : execTagActivation n c s = .next s') :
    s'.bridle = s.bridle := by
  cases ht; simp

@[simp] theorem freeSw_bridle (n : Nat) (s : State) : (freeSw n s).bridle = s.bridle := by simp [freeSw]

@[simp] theorem tagSelect_bridle (n : Nat) (f : TagFile) (s : State) : (tagSelect n f s).bridle = s.bridle := by
  unfold tagSelect; (repeat' split) <;> simp

theorem execTagSelect_bridle (n : Fin 16) (f : TagFile) (s s' : State) (ht : execTagSelect n f s = .next s') :
    s'.bridle = s.bridle := by
  cases ht; simp

@[simp] theorem tagRead_bridle (n off len : Nat) (s : State) : (tagRead n off len s).bridle = s.bridle := by
  unfold tagRead; (repeat' split) <;> simp

theorem execTagReadBinary_bridle (n : Fin 16) (off len : Nat) (s s' : State) (ht : execTagReadBinary n off len s = .next s') :
    s'.bridle = s.bridle := by
  cases ht; simp

@[simp] theorem tagOther_bridle (n : Nat) (a : List Byte) (s : State) :
    (tagOther n a s).bridle = s.bridle := by simp [tagOther]

theorem execTagUpdateBinary_bridle (n : Fin 16) (s s' : State) (ht : execTagUpdateBinary n s = .next s') :
    s'.bridle = s.bridle := by
  cases ht; simp

@[simp] theorem tagOtherCommand_bridle (n : Nat) (deselect : Bool) (s : State) :
    (tagOtherCommand n deselect s).bridle = s.bridle := by simp [tagOtherCommand]

theorem execTagOtherCommand_bridle (n : Fin 16) (deselect : Bool) (s s' : State) (ht : execTagOtherCommand n deselect s = .next s') :
    s'.bridle = s.bridle := by
  cases ht; simp

theorem execTagFieldLoss_bridle (n : Fin 16) (s s' : State) (ht : execTagFieldLoss n s = .next s') :
    s'.bridle = s.bridle := by
  cases ht; simp

theorem execTagTransactionIdle_bridle (n : Fin 16) (s s' : State) (ht : execTagTransactionIdle n s = .next s') :
    s'.bridle = s.bridle := by
  cases ht; simp

@[simp] theorem tagCtlWrite_bridle (k : Nat) (v : Word) (s : State) :
    (tagCtlWrite k v s).bridle = s.bridle := by simp [tagCtlWrite]

theorem execTagCommit_bridle (k : Fin 4) (v : Word) (s s' : State) (ht : execTagCommit k v s = .next s') :
    s'.bridle = s.bridle := by
  cases ht; simp

@[simp] theorem tagShadowWrite_bridle (k i : Nat) (b : Byte) (s : State) :
    (tagShadowWrite k i b s).bridle = s.bridle := by simp [tagShadowWrite]

@[simp] theorem tagForced_bridle (k : Nat) (s : State) : (tagForced k s).bridle = s.bridle := by simp [tagForced]

theorem execTagForcedSwap_bridle (k : Fin 4) (s s' : State) (ht : execTagForcedSwap k s = .next s') :
    s'.bridle = s.bridle := by
  cases ht; simp

/-! ### Girth -/

@[simp] theorem girthReqWrite_bridle (port : Nat) (v : Word) (s : State) :
    (girthReqWrite port v s).bridle = s.bridle := by simp [girthReqWrite]

theorem execGirthRequest_bridle (port : Fin 24) (v : Word) (s s' : State) (ht : execGirthRequest port v s = .next s') :
    s'.bridle = s.bridle := by
  cases ht; simp

@[simp] theorem lineOn_bridle (m : Nat) (s : State) : (lineOn m s).bridle = s.bridle := by simp [lineOn]

@[simp] theorem girthSignal_bridle (r : GirthReq) (s : State) : (girthSignal r s).bridle = s.bridle := by
  unfold girthSignal; (repeat' split) <;> simp

@[simp] theorem girthMark_bridle (r : GirthReq) (st : Nat) (s : State) :
    (girthMark r st s).bridle = s.bridle := by simp [girthMark]

@[simp] theorem girthRelWrite_bridle (port : Nat) (v : Word) (s : State) :
    (girthRelWrite port v s).bridle = s.bridle := by simp [girthRelWrite]

theorem execGirthRelease_bridle (port : Fin 24) (v : Word) (s s' : State) (ht : execGirthRelease port v s = .next s') :
    s'.bridle = s.bridle := by
  unfold execGirthRelease at ht
  have ht := Host.Outcome.next.inj ht; subst ht
  first
  | ((repeat' split) <;> simp; done)
  | (dsimp only; done)
  | (dsimp only; (repeat' split) <;> simp; done)
  | (dsimp only; (repeat' split) <;> simp [*]; done)
  | ((repeat' split) <;> simp [*]; done)
  | exact whenDie_bridle _ _ (fun t => by first | (dsimp only; (repeat' split) <;> simp [*]; done) | (simp; (repeat' split) <;> simp; done))
  | (split <;> first | rfl | exact whenDie_bridle _ _ (fun t => by dsimp only; (repeat' split) <;> simp [*]))

theorem execGirthHoldExpiry_bridle (ticket : BitVec 16) (s s' : State) (ht : execGirthHoldExpiry ticket s = .next s') :
    s'.bridle = s.bridle := by
  cases ht; simp

theorem execUnitOffReport_bridle (kind : Fin 16) (unit : Nat) (s s' : State) (ht : execUnitOffReport kind unit s = .next s') :
    s'.bridle = s.bridle := by
  cases ht; simp

@[simp] theorem girthDerate_bridle (temp : Int) (s : State) :
    (girthDerate temp s).bridle = s.bridle := by simp [girthDerate]

theorem execGirthDerateSample_bridle (temp : Int) (s s' : State) (ht : execGirthDerateSample temp s = .next s') :
    s'.bridle = s.bridle := by
  cases ht; simp

@[simp] theorem girthShareWrite_bridle (c : Nat) (v : Word) (s : State) :
    (girthShareWrite c v s).bridle = s.bridle := by simp [girthShareWrite]

theorem execGirthShareWrite_bridle (c : Fin 3) (v : Word) (s s' : State) (ht : execGirthShareWrite c v s = .next s') :
    s'.bridle = s.bridle := by
  cases ht; simp

@[simp] theorem girthCtrlWrite_bridle (v : Word) (s : State) :
    (girthCtrlWrite v s).bridle = s.bridle := by simp [girthCtrlWrite]

@[simp] theorem girthCostWrite_bridle (k i : Nat) (v : Word) (s : State) :
    (girthCostWrite k i v s).bridle = s.bridle := by
  unfold girthCostWrite; (repeat' split) <;> simp

@[simp] theorem girthRebuild_bridle (s : State) : (girthRebuild s).bridle = s.bridle := by simp [girthRebuild]

theorem execGirthRebuild_bridle (s s' : State) (ht : execGirthRebuild s = .next s') : s'.bridle = s.bridle := by
  cases ht; simp

@[simp] theorem girthBypassRead_bridle (s : State) : (girthBypassRead s).bridle = s.bridle := by simp [girthBypassRead]

theorem execGrtBypassRead_bridle (s s' : State) (ht : execGrtBypassRead s = .next s') : s'.bridle = s.bridle := by
  cases ht; simp

@[simp] theorem girthBypass_bridle (s : State) : (girthBypass s).bridle = s.bridle := by simp [girthBypass]

/-! ### CanOps -/

@[simp] theorem State.updPort_bridle (s : State) (x : Nat) (f : FieldPort → FieldPort) :
    (State.updPort s x f).bridle = s.bridle := by simp [State.updPort]

@[simp] theorem canSend_bridle (x : Nat) (f : CanFrame) (s : State) :
    (canSend x f s).bridle = s.bridle := by simp [canSend]

@[simp] theorem canFlush_bridle (x : Nat) (s : State) : (canFlush x s).bridle = s.bridle := by simp [canFlush]

@[simp] theorem emcy_bridle (x : Nat) (code : Nat) (b3 : Byte) (s : State) :
    (emcy x code b3 s).bridle = s.bridle := by simp [emcy]

@[simp] theorem canResume_bridle (x : Nat) (s : State) : (canResume x s).bridle = s.bridle := by simp [canResume]

@[simp] theorem canErrors_bridle (x : Nat) (s : State) : (canErrors x s).bridle = s.bridle := by simp [canErrors]

@[simp] theorem canConfine_bridle (x : Nat) (s : State) : (canConfine x s).bridle = s.bridle := by simp [canConfine]

@[simp] theorem emcyBoth_bridle (code : Nat) (b3 : Byte) (s : State) :
    (emcyBoth code b3 s).bridle = s.bridle := by simp [emcyBoth]

/-! ### Links -/

@[simp] theorem linkBeat_bridle (d : Side) (s : State) : (linkBeat d s).bridle = s.bridle := by simp [linkBeat]

@[simp] theorem slQueue_bridle (l : List LinkMsg) (s : State) : (slQueue l s).bridle = s.bridle := by simp [slQueue]

@[simp] theorem linkFail_bridle (cause : Nat) (s : State) : (linkFail cause s).bridle = s.bridle := by simp [linkFail]

@[simp] theorem macFail_bridle (d : Side) (s : State) : (macFail d s).bridle = s.bridle := by simp [macFail]

@[simp] theorem linkTake_bridle (d : Side) (m : LinkMsg) (s : State) : (linkTake d m s).bridle = s.bridle := by
  unfold linkTake; (repeat' split) <;> simp

@[simp] theorem linkReceive_bridle (d : Side) (m : LinkMsg) (macOk : Bool) (s : State) :
    (linkReceive d m macOk s).bridle = s.bridle := by simp [linkReceive]

theorem execSealedLinkMessageReceive_bridle (side : Side) (m : LinkMsg) (macOk : Bool) (s s' : State) (ht : execSealedLinkMessageReceive side m macOk s = .next s') :
    s'.bridle = s.bridle := by
  cases ht; simp

@[simp] theorem linkAck_bridle (d : Side) (acked credit : Nat) (macOk : Bool) (s : State) :
    (linkAck d acked credit macOk s).bridle = s.bridle := by simp [linkAck]

theorem execLinkAckReceive_bridle (side : Side) (acked credit : Nat) (macOk : Bool) (s s' : State) (ht : execLinkAckReceive side acked credit macOk s = .next s') :
    s'.bridle = s.bridle := by
  cases ht; simp

@[simp] theorem linkHeart_bridle (side : Side) (s : State) : (linkHeart side s).bridle = s.bridle := by simp [linkHeart]

theorem execSealedLinkHeartbeat_bridle (side : Side) (s s' : State) (ht : execSealedLinkHeartbeat side s = .next s') :
    s'.bridle = s.bridle := by
  cases ht; simp

@[simp] theorem linkResend_bridle (d : Side) (s : State) : (linkResend d s).bridle = s.bridle := by
  unfold linkResend; (repeat' split) <;> simp

theorem execSealedLinkResendTimeout_bridle (side : Side) (s s' : State) (ht : execSealedLinkResendTimeout side s = .next s') :
    s'.bridle = s.bridle := by
  cases ht; simp

theorem execSealedLinkSilenceTimeout_bridle (side : Side) (s s' : State) (ht : execSealedLinkSilenceTimeout side s = .next s') :
    s'.bridle = s.bridle := by
  cases ht; simp

@[simp] theorem linkAgree_bridle (s : State) : (linkAgree s).bridle = s.bridle := by simp [linkAgree]

@[simp] theorem linkRequest_bridle (authentic : Bool) (s : State) :
    (linkRequest authentic s).bridle = s.bridle := by simp [linkRequest]

theorem execLinkKeyAgreement_bridle (authentic : Bool) (s s' : State) (ht : execLinkKeyAgreement authentic s = .next s') :
    s'.bridle = s.bridle := by
  cases ht; simp

@[simp] theorem State.updSl_bridle (s : State) (port : Nat) (f : SlPort → SlPort) :
    (State.updSl s port f).bridle = s.bridle := by simp [State.updSl]

@[simp] theorem slSend_bridle (port : Nat) (v : Word) (s : State) :
    (slSend port v s).bridle = s.bridle := by simp [slSend]

theorem execSealedLinkSend_bridle (port : Fin 24) (v : Word) (s s' : State) (ht : execSealedLinkSend port v s = .next s') :
    s'.bridle = s.bridle := by
  cases ht; simp

@[simp] theorem slPop_bridle (port : Nat) (s : State) : (slPop port s).bridle = s.bridle := by
  unfold slPop; (repeat' split) <;> simp

theorem execSealedLinkPop_bridle (port : Fin 24) (s s' : State) (ht : execSealedLinkPop port s = .next s') :
    s'.bridle = s.bridle := by
  cases ht; simp

@[simp] theorem heartbeat_bridle (crcOk : Bool) (s : State) :
    (heartbeat crcOk s).bridle = s.bridle := by simp [heartbeat]

theorem execBridleHeartbeat_bridle (crcOk : Bool) (s s' : State) (ht : execBridleHeartbeat crcOk s = .next s') :
    s'.bridle = s.bridle := by
  cases ht; simp

@[simp] theorem safeIfNot_bridle (s : State) : (safeIfNot s).bridle = s.bridle := by simp [safeIfNot]

theorem execSafetyLaneHeartbeatLoss_bridle (s s' : State) (ht : execSafetyLaneHeartbeatLoss s = .next s') :
    s'.bridle = s.bridle := by
  cases ht; simp

@[simp] theorem safeReportTaken_bridle (s : State) : (safeReportTaken s).bridle = s.bridle := by simp [safeReportTaken]

theorem execSafeStateReport_bridle (s s' : State) (ht : execSafeStateReport s = .next s') : s'.bridle = s.bridle := by
  cases ht; simp

@[simp] theorem safeRelease_bridle (s : State) : (safeRelease s).bridle = s.bridle := by simp [safeRelease]

theorem execSafeStateRelease_bridle (s s' : State) (ht : execSafeStateRelease s = .next s') : s'.bridle = s.bridle := by
  cases ht; simp

@[simp] theorem stoLane_bridle (n : Nat) (b on : Bool) (s : State) :
    (stoLane n b on s).bridle = s.bridle := by simp [stoLane]

@[simp] theorem safetyCommand_bridle (c : SafeCmd) (s : State) : (safetyCommand c s).bridle = s.bridle := by
  unfold safetyCommand; (repeat' split) <;> simp

theorem execSafetyLaneCommand_bridle (crcOk : Bool) (c : SafeCmd) (s s' : State) (ht : execSafetyLaneCommand crcOk c s = .next s') :
    s'.bridle = s.bridle := by
  cases ht; simp

@[simp] theorem laneFault_bridle (s : State) : (laneFault s).bridle = s.bridle := by simp [laneFault]

@[simp] theorem laneEvent_bridle (crcOk : Bool) (src : Nat) (s : State) :
    (laneEvent crcOk src s).bridle = s.bridle := by simp [laneEvent]

theorem execAppLaneEventFrame_bridle (crcOk : Bool) (src : Fin 512) (s s' : State) (ht : execAppLaneEventFrame crcOk src s = .next s') :
    s'.bridle = s.bridle := by
  cases ht; simp

@[simp] theorem powerClockFail_bridle (s : State) : (powerClockFail s).bridle = s.bridle := by simp [powerClockFail]

theorem execPowerDieClockFail_bridle (s s' : State) (ht : execPowerDieClockFail s = .next s') :
    s'.bridle = s.bridle := by
  cases ht; simp

theorem execPowerDieClockReturn_bridle (s s' : State) (ht : execPowerDieClockReturn s = .next s') :
    s'.bridle = s.bridle := by
  cases ht; simp

@[simp] theorem powerDieReset_bridle (s : State) : (powerDieReset s).bridle = s.bridle := by simp [powerDieReset]

theorem execPowerDieReset_bridle (s s' : State) (ht : execPowerDieReset s = .next s') : s'.bridle = s.bridle := by
  unfold execPowerDieReset at ht
  have ht := Host.Outcome.next.inj ht; subst ht
  first
  | ((repeat' split) <;> simp; done)
  | (dsimp only; done)
  | (dsimp only; (repeat' split) <;> simp; done)
  | (dsimp only; (repeat' split) <;> simp [*]; done)
  | ((repeat' split) <;> simp [*]; done)
  | exact whenDie_bridle _ _ (fun t => by first | (dsimp only; (repeat' split) <;> simp [*]; done) | (simp; (repeat' split) <;> simp; done))
  | (split <;> first | rfl | exact whenDie_bridle _ _ (fun t => by dsimp only; (repeat' split) <;> simp [*]))

/-! ### Plc -/

@[simp] theorem State.updPlc_bridle (s : State) (n : Nat) (f : PlcCh → PlcCh) :
    (State.updPlc s n f).bridle = s.bridle := by simp [State.updPlc]

@[simp] theorem plcTake_bridle (n : Nat) (s : State) : (plcTake n s).bridle = s.bridle := by
  unfold plcTake; dsimp only; (repeat' split) <;> simp

@[simp] theorem plcStart_bridle (n : Nat) (v : Word) (s : State) :
    (plcStart n v s).bridle = s.bridle := by simp [plcStart]

theorem execPlcStart_bridle (n : Fin 66) (v : Word) (s s' : State) (ht : execPlcStart n v s = .next s') :
    s'.bridle = s.bridle := by
  cases ht; simp

@[simp] theorem plcStop_bridle (n : Nat) (s : State) : (plcStop n s).bridle = s.bridle := by simp [plcStop]

theorem execPlcStop_bridle (n : Fin 66) (s s' : State) (ht : execPlcStop n s = .next s') : s'.bridle = s.bridle := by
  cases ht; simp

@[simp] theorem plcOff_bridle (n : Nat) (s : State) : (plcOff n s).bridle = s.bridle := by simp [plcOff]

theorem execPlcStoppingEnd_bridle (n : Fin 66) (s s' : State) (ht : execPlcStoppingEnd n s = .next s') :
    s'.bridle = s.bridle := by
  cases ht; simp

@[simp] theorem plcHalt_bridle (s : State) : (plcHalt s).bridle = s.bridle := by simp [plcHalt]

@[simp] theorem plcReslac_bridle (n : Nat) (s : State) : (plcReslac n s).bridle = s.bridle := by simp [plcReslac]

theorem execPlcReslac_bridle (n : Fin 66) (s s' : State) (ht : execPlcReslac n s = .next s') :
    s'.bridle = s.bridle := by
  cases ht; simp

@[simp] theorem beacon_bridle (n : Nat) (s : State) : (beacon n s).bridle = s.bridle := by simp [beacon]

theorem execBeacon_bridle (n : Fin 66) (s s' : State) (ht : execBeacon n s = .next s') : s'.bridle = s.bridle := by
  cases ht; simp

@[simp] theorem plcLinkLost_bridle (n : Nat) (s : State) : (plcLinkLost n s).bridle = s.bridle := by simp [plcLinkLost]

theorem execPlcLinkLost_bridle (n : Fin 66) (s s' : State) (ht : execPlcLinkLost n s = .next s') :
    s'.bridle = s.bridle := by
  cases ht; simp

theorem execNekRenewal_bridle (n : Fin 66) (s s' : State) (ht : execNekRenewal n s = .next s') :
    s'.bridle = s.bridle := by
  cases ht; simp

@[simp] theorem slacParm_bridle (n : Nat) (r : BitVec 64) (s : State) :
    (slacParm n r s).bridle = s.bridle := by simp [slacParm]

theorem execSlacParmReq_bridle (n : Fin 66) (runId : BitVec 64) (s s' : State) (ht : execSlacParmReq n runId s = .next s') :
    s'.bridle = s.bridle := by
  cases ht; simp

@[simp] theorem startAttenChar_bridle (n : Nat) (r : BitVec 64) (sounds : Nat) (s : State) :
    (startAttenChar n r sounds s).bridle = s.bridle := by simp [startAttenChar]

theorem execStartAttenChar_bridle (n : Fin 66) (runId : BitVec 64) (sounds : Nat) (s s' : State) (ht : execStartAttenChar n runId sounds s = .next s') :
    s'.bridle = s.bridle := by
  cases ht; simp

@[simp] theorem slacSelect_bridle (b : Nat) (c : Collection) (h : List Nat) (need : Bool) (s : State) :
    (slacSelect b c h need s).bridle = s.bridle := by simp [slacSelect]

@[simp] theorem slacDecide_bridle (c : Collection) (s : State) : (slacDecide c s).bridle = s.bridle := by
  unfold slacDecide; dsimp only; (repeat' split) <;> simp

@[simp] theorem slacBack_bridle (n : Nat) (r : BitVec 64) (s : State) :
    (slacBack n r s).bridle = s.bridle := by simp [slacBack]

@[simp] theorem slacClose_bridle (r : BitVec 64) (s : State) : (slacClose r s).bridle = s.bridle := by
  unfold slacClose; (repeat' split) <;> simp

theorem execSlacCollectionClose_bridle (runId : BitVec 64) (s s' : State) (ht : execSlacCollectionClose runId s = .next s') :
    s'.bridle = s.bridle := by
  cases ht; simp

@[simp] theorem soundAdd_bridle (n : Nat) (r : BitVec 64) (g : List Nat) (s : State) :
    (soundAdd n r g s).bridle = s.bridle := by simp [soundAdd]

@[simp] theorem slacSound_bridle (n : Nat) (r : BitVec 64) (g : List Nat) (s : State) :
    (slacSound n r g s).bridle = s.bridle := by simp [slacSound]

theorem execSlacSound_bridle (n : Fin 66) (runId : BitVec 64) (groups : List Nat) (s s' : State) (ht : execSlacSound n runId groups s = .next s') :
    s'.bridle = s.bridle := by
  cases ht; simp

@[simp] theorem slacValidate_bridle (n : Nat) (r : BitVec 64) (s : State) :
    (slacValidate n r s).bridle = s.bridle := by simp [slacValidate]

theorem execSlacValidateReq_bridle (n : Fin 66) (runId : BitVec 64) (s s' : State) (ht : execSlacValidateReq n runId s = .next s') :
    s'.bridle = s.bridle := by
  cases ht; simp

@[simp] theorem slacWindowEnd_bridle (n k : Nat) (s : State) : (slacWindowEnd n k s).bridle = s.bridle := by
  unfold slacWindowEnd; (repeat' split) <;> simp

theorem execSlacValidateWindowEnd_bridle (n : Fin 66) (toggles : Nat) (s s' : State) (ht : execSlacValidateWindowEnd n toggles s = .next s') :
    s'.bridle = s.bridle := by
  cases ht; simp

@[simp] theorem slacMatch_bridle (n : Nat) (r : BitVec 64) (mac : BitVec 48) (s : State) :
    (slacMatch n r mac s).bridle = s.bridle := by simp [slacMatch]

theorem execSlacMatchReq_bridle (n : Fin 66) (runId : BitVec 64) (mac : BitVec 48) (s s' : State) (ht : execSlacMatchReq n runId mac s = .next s') :
    s'.bridle = s.bridle := by
  cases ht; simp

@[simp] theorem slacMatchTimeout_bridle (n : Nat) (s : State) :
    (slacMatchTimeout n s).bridle = s.bridle := by simp [slacMatchTimeout]

theorem execSlacMatchTimeout_bridle (n : Fin 66) (s s' : State) (ht : execSlacMatchTimeout n s = .next s') :
    s'.bridle = s.bridle := by
  cases ht; simp

@[simp] theorem plcRing_bridle (n : Nat) (data : List Byte) (s : State) :
    (plcRing n data s).bridle = s.bridle := by simp [plcRing]

@[simp] theorem plcKind_bridle (n : Nat) (m : Mpdu) (s : State) : (plcKind n m s).bridle = s.bridle := by
  unfold plcKind; (repeat' split) <;> simp

@[simp] theorem plcReceive_bridle (n : Nat) (m : Mpdu) (s : State) :
    (plcReceive n m s).bridle = s.bridle := by simp [plcReceive]

theorem execPlcMpduReceive_bridle (n : Fin 66) (m : Mpdu) (s s' : State) (ht : execPlcMpduReceive n m s = .next s') :
    s'.bridle = s.bridle := by
  cases ht; simp

@[simp] theorem plcPost_bridle (n : Nat) (v : Word) (s : State) : (plcPost n v s).bridle = s.bridle := by simp [plcPost]

theorem execPlcTxPost_bridle (n : Fin 66) (v : Word) (s s' : State) (ht : execPlcTxPost n v s = .next s') :
    s'.bridle = s.bridle := by
  cases ht; simp

@[simp] theorem plcSend_bridle (n : Nat) (s : State) : (plcSend n s).bridle = s.bridle := by
  unfold plcSend; (repeat' split) <;> simp

@[simp] theorem plcAir_bridle (n : Nat) (s : State) : (plcAir n s).bridle = s.bridle := by
  unfold plcAir; (repeat' split) <;> simp

@[simp] theorem plcSack_bridle (n : Nat) (bad : BitVec 4) (s : State) : (plcSack n bad s).bridle = s.bridle := by
  unfold plcSack; dsimp only; (repeat' split) <;> simp

theorem execPlcSackReceived_bridle (n : Fin 66) (bad : BitVec 4) (s s' : State) (ht : execPlcSackReceived n bad s = .next s') :
    s'.bridle = s.bridle := by
  cases ht; simp

@[simp] theorem deliveryTimeout_bridle (q : Nat) (s : State) :
    (deliveryTimeout q s).bridle = s.bridle := by simp [deliveryTimeout]

@[simp] theorem plcTxTimeout_bridle (n : Nat) (s : State) : (plcTxTimeout n s).bridle = s.bridle := by
  unfold plcTxTimeout; (repeat' split) <;> simp

theorem execPlcTxTimeout_bridle (n : Fin 66) (s s' : State) (ht : execPlcTxTimeout n s = .next s') :
    s'.bridle = s.bridle := by
  cases ht; simp

@[simp] theorem plcRxPop_bridle (n : Nat) (s : State) : (plcRxPop n s).bridle = s.bridle := by
  unfold plcRxPop; (repeat' split) <;> simp

theorem execPlcRxPop_bridle (n : Fin 66) (s s' : State) (ht : execPlcRxPop n s = .next s') : s'.bridle = s.bridle := by
  cases ht; simp

@[simp] theorem plcDoneRead_bridle (n : Nat) (s : State) : (plcDoneRead n s).bridle = s.bridle := by
  unfold plcDoneRead; (repeat' split) <;> simp

theorem execPlcTxdoneRead_bridle (n : Fin 66) (s s' : State) (ht : execPlcTxdoneRead n s = .next s') :
    s'.bridle = s.bridle := by
  cases ht; simp

@[simp] theorem ntbRead_bridle (port n : Nat) (s : State) : (ntbRead port n s).bridle = s.bridle := by simp [ntbRead]

theorem execPlcNtbRead_bridle (port : Fin 24) (n : Fin 66) (s s' : State) (ht : execPlcNtbRead port n s = .next s') :
    s'.bridle = s.bridle := by
  cases ht; simp

@[simp] theorem plcCfgWrite_bridle (n : Nat) (v : Word) (s : State) :
    (plcCfgWrite n v s).bridle = s.bridle := by simp [plcCfgWrite]

@[simp] theorem plcCtrlWrite_bridle (n : Nat) (v : Word) (s : State) :
    (plcCtrlWrite n v s).bridle = s.bridle := by simp [plcCtrlWrite]

@[simp] theorem plcBaseWrite_bridle (n : Nat) (v : Word) (s : State) :
    (plcBaseWrite n v s).bridle = s.bridle := by simp [plcBaseWrite]

@[simp] theorem plcRead_bridle (port n off : Nat) (s : State) : (plcRead port n off s).bridle = s.bridle := by
  unfold plcRead; (repeat' split) <;> simp

@[simp] theorem plcWrite_bridle (n off : Nat) (v : Word) (s : State) : (plcWrite n off v s).bridle = s.bridle := by
  unfold plcWrite; (repeat' split) <;> simp

/-! ### Resets -/

@[simp] theorem powerAtReset_bridle (s : State) : (powerAtReset s).bridle = s.bridle := by simp [powerAtReset]

theorem execWatchdogHalfPeriod_bridle (s s' : State) (ht : execWatchdogHalfPeriod s = .next s') :
    s'.bridle = s.bridle := by
  cases ht; simp

@[simp] theorem wdogWrite_bridle (v : Word) (s : State) : (wdogWrite v s).bridle = s.bridle := by simp [wdogWrite]

theorem execWatchdogKick_bridle (v : Word) (s s' : State) (ht : execWatchdogKick v s = .next s') :
    s'.bridle = s.bridle := by
  cases ht; simp

theorem execWatchdogPeriodSet_bridle (v : Word) (s s' : State) (ht : execWatchdogPeriodSet v s = .next s') :
    s'.bridle = s.bridle := by
  cases ht; simp

@[simp] theorem sscWrite_bridle (v : Word) (s : State) : (sscWrite v s).bridle = s.bridle := by simp [sscWrite]

theorem execClkSscWrite_bridle (v : Word) (s s' : State) (ht : execClkSscWrite v s = .next s') :
    s'.bridle = s.bridle := by
  cases ht; simp

theorem execSpreadDisableHoldExpiry_bridle (s s' : State) (ht : execSpreadDisableHoldExpiry s = .next s') :
    s'.bridle = s.bridle := by
  cases ht; simp

theorem execMainRefRecovered_bridle (s s' : State) (ht : execMainRefRecovered s = .next s') : s'.bridle = s.bridle := by
  cases ht; simp

theorem execPllPUnlock_bridle (s s' : State) (ht : execPllPUnlock s = .next s') : s'.bridle = s.bridle := by
  unfold execPllPUnlock at ht
  have ht := Host.Outcome.next.inj ht; subst ht
  first
  | ((repeat' split) <;> simp; done)
  | (dsimp only; done)
  | (dsimp only; (repeat' split) <;> simp; done)
  | (dsimp only; (repeat' split) <;> simp [*]; done)
  | ((repeat' split) <;> simp [*]; done)
  | exact whenDie_bridle _ _ (fun t => by first | (dsimp only; (repeat' split) <;> simp [*]; done) | (simp; (repeat' split) <;> simp; done))
  | (split <;> first | rfl | exact whenDie_bridle _ _ (fun t => by dsimp only; (repeat' split) <;> simp [*]))

theorem execPllEUnlock_bridle (eth0 eth1 : Bool) (s s' : State) (ht : execPllEUnlock eth0 eth1 s = .next s') :
    s'.bridle = s.bridle := by
  cases ht; simp

@[simp] theorem stitcherReset_bridle (s0 : State) : (stitcherReset s0).bridle = s0.bridle := by simp [stitcherReset]

@[simp] theorem anyEngineReset_bridle (e : Nat) (s : State) :
    (anyEngineReset e s).bridle = s.bridle := by simp [anyEngineReset]

@[simp] theorem trialWrite_bridle (v : Word) (s : State) : (trialWrite v s).bridle = s.bridle := by simp [trialWrite]

theorem execLdrTrialStart_bridle (v : Word) (s s' : State) (ht : execLdrTrialStart v s = .next s') :
    s'.bridle = s.bridle := by
  cases ht; simp

theorem execLdrTrialStop_bridle (v : Word) (s s' : State) (ht : execLdrTrialStop v s = .next s') :
    s'.bridle = s.bridle := by
  cases ht; simp

/-! ### Mem -/

@[simp] theorem memPut_bridle (a : Nat) (b : Byte) (s : State) : (memPut a b s).bridle = s.bridle := by
  unfold memPut; (repeat' split) <;> simp

@[simp] theorem memPuts_bridle (a : Nat) (l : List Byte) (s : State) : (memPuts a l s).bridle = s.bridle := by
  induction l generalizing s a with
  | nil => rfl
  | cons b r ih => simp [memPuts, ih]

@[simp] theorem markBytes_bridle (k a n : Nat) (s : State) :
    (markBytes k a n s).bridle = s.bridle := by simp [markBytes]

@[simp] theorem dmaPut_bridle (port a : Nat) (l : List Byte) (s : State) :
    (dmaPut port a l s).bridle = s.bridle := by simp [dmaPut]

@[simp] theorem dmaGet_bridle (a n : Nat) (s : State) : (dmaGet a n s).2.bridle = s.bridle := by
  unfold dmaGet; (repeat' split) <;> simp

/-! ### Tack -/

@[simp] theorem putSlots_bridle (b : Bank KeySlot) (s : State) : (putSlots b s).bridle = s.bridle := by simp [putSlots]

@[simp] theorem putSlot_bridle (i : Nat) (k : KeySlot) (s : State) :
    (putSlot i k s).bridle = s.bridle := by simp [putSlot]

@[simp] theorem tackReply_bridle (cmd slot : Nat) (st : Status) (s : State) :
    (tackReply cmd slot st s).bridle = s.bridle := by simp [tackReply]

@[simp] theorem tackServe_bridle (cmd slot : Nat) (kinds : List Nat) (f : State → Status × State) (s : State) (h_f : ∀  t, (f  t).2.bridle = t.bridle) :
    (tackServe cmd slot kinds f s).bridle = s.bridle := by
  unfold tackServe; dsimp only; (repeat' split) <;> simp [*]

@[simp] theorem tackGenerate_bridle (i : Nat) (attr : Word) (s : State) :
    (tackGenerate i attr s).2.bridle = s.bridle := by
  unfold tackGenerate; dsimp only; (repeat' split) <;> simp

@[simp] theorem tackImport_bridle (i : Nat) (attr : Word) (data : Option (List Byte)) (r : Role) (unwrapOk : Bool) (s : State) :
    (tackImport i attr data r unwrapOk s).2.bridle = s.bridle := by
  unfold tackImport
  dsimp only
  refine ite2_bridle _ _ _ _ (fun _ => rfl) (fun _ => ?_)
  refine ite2_bridle _ _ _ _ (fun _ => rfl) (fun _ => ?_)
  refine ite2_bridle _ _ _ _ (fun _ => rfl) (fun _ => ?_)
  refine ite2_bridle _ _ _ _ (fun _ => rfl) (fun _ => ?_)
  cases data with
  | none => rfl
  | some d =>
    refine ite2_bridle _ _ _ _ (fun _ => ?_) (fun _ => ?_)
    · refine ite2_bridle _ _ _ _ (fun _ => rfl) (fun _ => ?_)
      refine ite2_bridle _ _ _ _ (fun _ => rfl) (fun _ => ?_)
      refine ite2_bridle _ _ _ _ (fun _ => rfl) (fun _ => ?_)
      refine ite2_bridle _ _ _ _ (fun _ => rfl) (fun _ => ?_)
      refine ite2_bridle _ _ _ _ (fun _ => rfl) (fun _ => ?_)
      refine ite2_bridle _ _ _ _ (fun _ => rfl) (fun _ => ?_)
      exact putSlot_bridle _ _ _
    · refine ite2_bridle _ _ _ _ (fun _ => rfl) (fun _ => ?_)
      refine ite2_bridle _ _ _ _ (fun _ => rfl) (fun _ => ?_)
      exact putSlot_bridle _ _ _

@[simp] theorem tackDerive_bridle (i p : Nat) (label : Option (List Byte)) (attr : Word) (s : State) :
    (tackDerive i p label attr s).2.bridle = s.bridle := by
  unfold tackDerive; dsimp only; (repeat' split) <;> simp

@[simp] theorem tackDelete_bridle (i : Nat) (r : Role) (s : State) : (tackDelete i r s).2.bridle = s.bridle := by
  unfold tackDelete; dsimp only; (repeat' split) <;> simp

@[simp] theorem tackPut_bridle (a : Nat) (l : List Byte) (s : State) : (tackPut a l s).2.bridle = s.bridle := by
  unfold tackPut; (repeat' split) <;> simp

@[simp] theorem tackPublic_bridle (i a : Nat) (s : State) : (tackPublic i a s).2.bridle = s.bridle := by
  unfold tackPublic; dsimp only; (repeat' split) <;> simp

@[simp] theorem tackSign_bridle (i a : Nat) (s : State) : (tackSign i a s).2.bridle = s.bridle := by
  unfold tackSign; (repeat' split) <;> simp

@[simp] theorem tackVerify_bridle (i a : Nat) (good : Bool) (s : State) :
    (tackVerify i a good s).2.bridle = s.bridle := by
  unfold tackVerify; (repeat' split) <;> simp

@[simp] theorem tackAgree_bridle (i a : Nat) (s : State) : (tackAgree i a s).2.bridle = s.bridle := by
  unfold tackAgree; (repeat' split) <;> simp

theorem execGenerate_bridle (slot : BitVec 8) (attr : Word) (s s' : State) (ht : execGenerate slot attr s = .next s') :
    s'.bridle = s.bridle := by
  cases ht; simp

theorem execImportKey_bridle (slot : BitVec 8) (attr : Word) (addr len : Nat) (role : Role) (unwrapOk : Bool) (s s' : State) (ht : execImportKey slot attr addr len role unwrapOk s = .next s') :
    s'.bridle = s.bridle := by
  cases ht; simp

theorem execDerive_bridle (slot parent : BitVec 8) (labelAddr labelLen : Nat) (attr : Word) (s s' : State) (ht : execDerive slot parent labelAddr labelLen attr s = .next s') :
    s'.bridle = s.bridle := by
  cases ht; simp

theorem execDelete_bridle (slot : BitVec 8) (role : Role) (s s' : State) (ht : execDelete slot role s = .next s') :
    s'.bridle = s.bridle := by
  cases ht; simp

theorem execPublicKey_bridle (slot : BitVec 8) (addr : Word) (s s' : State) (ht : execPublicKey slot addr s = .next s') :
    s'.bridle = s.bridle := by
  cases ht; simp

theorem execSign_bridle (slot : BitVec 8) (addr : Word) (s s' : State) (ht : execSign slot addr s = .next s') :
    s'.bridle = s.bridle := by
  cases ht; simp

theorem execVerify_bridle (slot : BitVec 8) (addr : Word) (good : Bool) (s s' : State) (ht : execVerify slot addr good s = .next s') :
    s'.bridle = s.bridle := by
  cases ht; simp

theorem execAgree_bridle (slot : BitVec 8) (addr : Word) (s s' : State) (ht : execAgree slot addr s = .next s') :
    s'.bridle = s.bridle := by
  cases ht; simp

@[simp] theorem tackRandom_bridle (a n : Nat) (s : State) : (tackRandom a n s).2.bridle = s.bridle := by
  unfold tackRandom; (repeat' split) <;> simp

theorem execRandom_bridle (addr : Word) (len : Nat) (s s' : State) (ht : execRandom addr len s = .next s') :
    s'.bridle = s.bridle := by
  cases ht; simp

@[simp] theorem rewrap_bridle (mr0 mr2 mr3 : BitVec 384) (s : State) :
    (rewrap mr0 mr2 mr3 s).bridle = s.bridle := by simp [rewrap]

@[simp] theorem successorWrite_bridle (m : Manifest) (s : State) :
    (successorWrite m s).bridle = s.bridle := by simp [successorWrite]

@[simp] theorem eraseSpare_bridle (s : State) : (eraseSpare s).bridle = s.bridle := by simp [eraseSpare]

@[simp] theorem tackSuccessor_bridle (s : State) : (tackSuccessor s).2.bridle = s.bridle := by
  unfold tackSuccessor; (repeat' split) <;> simp

theorem execSuccessor_bridle (_addr : Word) (s s' : State) (ht : execSuccessor _addr s = .next s') :
    s'.bridle = s.bridle := by
  cases ht; simp

@[simp] theorem fuseDebug_bridle (v : BitVec 384) (s : State) : (fuseDebug v s).2.bridle = s.bridle := by
  unfold fuseDebug; (repeat' split) <;> simp

@[simp] theorem fuseSafe_bridle (v staged : BitVec 384) (s : State) : (fuseSafe v staged s).2.bridle = s.bridle := by
  unfold fuseSafe; (repeat' split) <;> simp

@[simp] theorem tackFuse_bridle (f : FuseField) (v : BitVec 384) (s : State) :
    (tackFuse f v s).2.bridle = s.bridle := by
  unfold tackFuse; (repeat' split) <;> simp

theorem execFuse_bridle (field : FuseField) (v : BitVec 384) (s s' : State) (ht : execFuse field v s = .next s') :
    s'.bridle = s.bridle := by
  cases ht; simp

@[simp] theorem decommission_bridle (r : Role) (v : Word) (s : State) : (decommission r v s).2.bridle = s.bridle := by
  unfold decommission; (repeat' split) <;> simp

theorem execDecommission_bridle (role : Role) (v : Word) (s s' : State) (ht : execDecommission role v s = .next s') :
    s'.bridle = s.bridle := by
  cases ht; simp

/-! ### Update -/

@[simp] theorem State.updUpd_bridle (s : State) (f : Update → Update) :
    (State.updUpd s f).bridle = s.bridle := by simp [State.updUpd]

@[simp] theorem upLogHash_bridle (k : LogKind) (blk aux : Nat) (h : BitVec 384) (s : State) :
    (upLogHash k blk aux h s).bridle = s.bridle := by simp [upLogHash]

@[simp] theorem upLog_bridle (k : LogKind) (blk aux : Nat) (s : State) :
    (upLog k blk aux s).bridle = s.bridle := by simp [upLog]

@[simp] theorem imageSet_bridle (b : Nat) (h : BitVec 384) (s : State) :
    (imageSet b h s).bridle = s.bridle := by simp [imageSet]

@[simp] theorem updatePrepare_bridle (m : Manifest) (s : State) :
    (updatePrepare m s).bridle = s.bridle := by simp [updatePrepare]

@[simp] theorem manifestAccept_bridle (role : Role) (latigo : Bool) (m : Manifest) (s : State) :
    (manifestAccept role latigo m s).2.bridle = s.bridle := by simp [manifestAccept]

theorem execManifestAccept_bridle (role : Role) (latigo : Bool) (m : Manifest) (s s' : State) (ht : execManifestAccept role latigo m s = .next s') :
    s'.bridle = s.bridle := by
  cases ht; simp

@[simp] theorem restoreBlock_bridle (b : Nat) (s : State) :
    (restoreBlock b s).bridle = s.bridle := by simp [restoreBlock]

@[simp] theorem restoreAll_bridle (s : State) : (restoreAll s).bridle = s.bridle := by
  unfold restoreAll
  dsimp only
  rw [State.updUpd_bridle, foldl_bridle _ (fun t b => restoreBlock_bridle _ t)]

@[simp] theorem updateUndone_bridle (s : State) : (updateUndone s).bridle = s.bridle := by simp [updateUndone]

@[simp] theorem confirmUpdate_bridle (m : Manifest) (s : State) :
    (confirmUpdate m s).bridle = s.bridle := by simp [confirmUpdate]

@[simp] theorem tackConfirm_bridle (s : State) : (tackConfirm s).2.bridle = s.bridle := by
  unfold tackConfirm; (repeat' split) <;> simp

theorem execConfirm_bridle (s s' : State) (ht : execConfirm s = .next s') : s'.bridle = s.bridle := by
  cases ht; simp

@[simp] theorem trialBegin_bridle (s : State) : (trialBegin s).bridle = s.bridle := by simp [trialBegin]

/-! ### Skiver -/

@[simp] theorem skvSubmit_bridle (port a : Nat) (s : State) :
    (skvSubmit port a s).bridle = s.bridle := by simp [skvSubmit]

theorem execSkiverSubmit_bridle (port : Fin 24) (addr : Word) (s s' : State) (ht : execSkiverSubmit port addr s = .next s') :
    s'.bridle = s.bridle := by
  cases ht; simp

@[simp] theorem skvCpl_bridle (l : List (Nat × Status)) (s : State) : (skvCpl l s).bridle = s.bridle := by simp [skvCpl]

@[simp] theorem skvDone_bridle (j : SkvJob) (e : SkvEnd) (s : State) :
    (skvDone j e s).bridle = s.bridle := by simp [skvDone]

@[simp] theorem skvRun_bridle (j : SkvJob) (r : SkvResult) (s : State) :
    (skvRun j r s).bridle = s.bridle := by simp [skvRun]

theorem execSkiverComplete_bridle (tag : BitVec 16) (r : SkvResult) (s s' : State) (ht : execSkiverComplete tag r s = .next s') :
    s'.bridle = s.bridle := by
  cases ht; (repeat' split) <;> simp

@[simp] theorem skvCplRead_bridle (s : State) : (skvCplRead s).bridle = s.bridle := by
  unfold skvCplRead; (repeat' split) <;> simp

theorem execSkiverCplRead_bridle (s s' : State) (ht : execSkiverCplRead s = .next s') : s'.bridle = s.bridle := by
  cases ht; simp

@[simp] theorem skvCfgWrite_bridle (v : Word) (s : State) : (skvCfgWrite v s).bridle = s.bridle := by simp [skvCfgWrite]

/-! ### Vehicle -/

@[simp] theorem State.updVc_bridle (s : State) (n : Nat) (f : V2gConn → V2gConn) :
    (State.updVc s n f).bridle = s.bridle := by simp [State.updVc]

@[simp] theorem vehicleRequest_bridle (p slot v : Nat) (i : Int) (s : State) :
    (vehicleRequest p slot v i s).bridle = s.bridle := by simp [vehicleRequest]

@[simp] theorem sdpAnswer_bridle (n : Nat) (tls : Bool) (s : State) :
    (sdpAnswer n tls s).bridle = s.bridle := by simp [sdpAnswer]

theorem execSdpRequest_bridle (n : Fin 64) (tls : Bool) (s s' : State) (ht : execSdpRequest n tls s = .next s') :
    s'.bridle = s.bridle := by
  cases ht; simp

@[simp] theorem spillAssign_bridle (n : Nat) (s : State) : (spillAssign n s).bridle = s.bridle := by simp [spillAssign]

@[simp] theorem tcpConnect_bridle (n : Nat) (tls : Bool) (s : State) :
    (tcpConnect n tls s).bridle = s.bridle := by simp [tcpConnect]

theorem execV2gTcpConnect_bridle (n : Fin 64) (tls : Bool) (s s' : State) (ht : execV2gTcpConnect n tls s = .next s') :
    s'.bridle = s.bridle := by
  cases ht; simp

@[simp] theorem connClose_bridle (n : Nat) (s : State) : (connClose n s).bridle = s.bridle := by simp [connClose]

@[simp] theorem connFail_bridle (n : Nat) (s : State) : (connFail n s).bridle = s.bridle := by simp [connFail]

@[simp] theorem tlsHandshake_bridle (n : Nat) (h : V2gHello) (s : State) : (tlsHandshake n h s).bridle = s.bridle := by
  unfold tlsHandshake
  dsimp only
  split
  · rfl
  split
  · simp
  split
  · simp
  · rename_i e; rw [State.updVc_bridle, girthRun_bridle _ _ _ _ e]

theorem execV2gTlsHandshake_bridle (n : Fin 64) (h : V2gHello) (s s' : State) (ht : execV2gTlsHandshake n h s = .next s') :
    s'.bridle = s.bridle := by
  cases ht; simp

@[simp] theorem handOver_bridle (n slot : Nat) (s : State) : (handOver n slot s).bridle = s.bridle := by simp [handOver]

@[simp] theorem v2gtp_bridle (n ver inv ty len : Nat) (s : State) : (v2gtp n ver inv ty len s).bridle = s.bridle := by
  unfold v2gtp; dsimp only; (repeat' split) <;> simp

theorem execV2gtpMessage_bridle (n : Fin 64) (version inverse : BitVec 8) (ptype : BitVec 16) (len : Nat) (s s' : State) (ht : execV2gtpMessage n version inverse ptype len s = .next s') :
    s'.bridle = s.bridle := by
  cases ht; simp

@[simp] theorem sapRequest_bridle (n : Nat) (l : List ProtoOffer) (s : State) :
    (sapRequest n l s).bridle = s.bridle := by
  unfold sapRequest; dsimp only; (repeat' split) <;> simp

theorem execSupportedAppProtocolReq_bridle (n : Fin 64) (offers : List ProtoOffer) (s s' : State) (ht : execSupportedAppProtocolReq n offers s = .next s') :
    s'.bridle = s.bridle := by
  cases ht; simp

@[simp] theorem answer_bridle (n : Nat) (m : V2gMsg) (a : V2gAns) (s : State) :
    (answer n m a s).bridle = s.bridle := by simp [answer]

@[simp] theorem waitFor_bridle (n : Nat) (m : V2gMsg) (s : State) :
    (waitFor n m s).bridle = s.bridle := by simp [waitFor]

@[simp] theorem seqError_bridle (n : Nat) (s : State) : (seqError n s).bridle = s.bridle := by simp [seqError]

@[simp] theorem onRequest_bridle (n : Nat) (m : V2gMsg) (f : Nat → Proto → State → State) (s : State) (h_f : ∀ x0 x1 t, (f x0 x1 t).bridle = t.bridle) :
    (onRequest n m f s).bridle = s.bridle := by
  unfold onRequest; dsimp only; (repeat' split) <;> simp [*]

@[simp] theorem authDecide_bridle (n slot : Nat) (s : State) :
    (authDecide n slot s).bridle = s.bridle := by simp [authDecide]

@[simp] theorem requestCoil_bridle (n slot : Nat) (s : State) :
    (requestCoil n slot s).bridle = s.bridle := by simp [requestCoil]

@[simp] theorem report_bridle (n : Nat) (m : V2gMsg) (s : State) : (report n m s).bridle = s.bridle := by simp [report]

@[simp] theorem answerWith_bridle (n : Nat) (m : V2gMsg) (a : V2gAns) (s : State) :
    (answerWith n m a s).bridle = s.bridle := by simp [answerWith]

@[simp] theorem cableCheck_bridle (n : Nat) (s : State) : (cableCheck n s).bridle = s.bridle := by
  unfold cableCheck; (repeat' split) <;> simp

@[simp] theorem withTariff_bridle (n : Nat) (m : V2gMsg) (f : State → State) (s : State) (h_f : ∀  t, (f  t).bridle = t.bridle) :
    (withTariff n m f s).bridle = s.bridle := by
  unfold withTariff; (repeat' split) <;> simp [*]

@[simp] theorem chargeParams_bridle (n slot : Nat) (pr : Proto) (x : V2gVals) (s : State) :
    (chargeParams n slot pr x s).bridle = s.bridle := by simp [chargeParams]

@[simp] theorem meteringConfirm_bridle (n slot : Nat) (sig : List Byte) (s : State) :
    (meteringConfirm n slot sig s).bridle = s.bridle := by simp [meteringConfirm]

@[simp] theorem demand_bridle (n slot : Nat) (m : V2gMsg) (x : V2gVals) (s : State) :
    (demand n slot m x s).bridle = s.bridle := by simp [demand]

@[simp] theorem contactorOff_bridle (p : Nat) (s : State) :
    (contactorOff p s).bridle = s.bridle := by simp [contactorOff]

@[simp] theorem stopDone_bridle (slot : Nat) (s : State) : (stopDone slot s).bridle = s.bridle := by simp [stopDone]

@[simp] theorem sessionStop_bridle (n slot : Nat) (s : State) :
    (sessionStop n slot s).bridle = s.bridle := by simp [sessionStop]

@[simp] theorem powerPause_bridle (n slot : Nat) (s : State) :
    (powerPause n slot s).bridle = s.bridle := by simp [powerPause]

@[simp] theorem authSetup_bridle (n : Nat) (s : State) : (authSetup n s).bridle = s.bridle := by simp [authSetup]

@[simp] theorem certInstall_bridle (n slot : Nat) (stream : List Byte) (f : State → State) (s : State) (h_f : ∀  t, (f  t).bridle = t.bridle) :
    (certInstall n slot stream f s).bridle = s.bridle := by
  unfold certInstall; (repeat' split) <;> simp [*]

@[simp] theorem certAnswer_bridle (n slot : Nat) (s : State) :
    (certAnswer n slot s).bridle = s.bridle := by simp [certAnswer]

@[simp] theorem v2gServe_bridle (n : Nat) (m : V2gMsg) (x : V2gVals) (slot : Nat) (pr : Proto) (s : State) :
    (v2gServe n m x slot pr s).bridle = s.bridle := by
  unfold v2gServe; (repeat' split) <;> simp

theorem execV2gRequest_bridle (n : Fin 64) (m : V2gMsg) (x : V2gVals) (s s' : State) (ht : execV2gRequest n m x s = .next s') :
    s'.bridle = s.bridle := by
  cases ht; simp

theorem execAuthorizationSetupReq_bridle (n : Fin 64) (s s' : State) (ht : execAuthorizationSetupReq n s = .next s') :
    s'.bridle = s.bridle := by
  cases ht; simp

@[simp] theorem pncRun_bridle (n slot : Nat) (a : PncCheck) (s : State) : (pncRun n slot a s).bridle = s.bridle := by
  unfold pncRun; (repeat' split) <;> simp

@[simp] theorem pncAuth_bridle (n slot : Nat) (a : PncCheck) (s : State) : (pncAuth n slot a s).bridle = s.bridle := by
  unfold pncAuth
  dsimp only
  split
  · exact authDecide_bridle _ _ _
  split
  · simp
  · rename_i e; rw [pncRun_bridle, girthRun_bridle _ _ _ _ e]

theorem execAuthorizationReq_bridle (n : Fin 64) (a : PncCheck) (s s' : State) (ht : execAuthorizationReq n a s = .next s') :
    s'.bridle = s.bridle := by
  cases ht; simp

theorem execCertificateInstallationReq_bridle (n : Fin 64) (stream : List Byte) (s s' : State) (ht : execCertificateInstallationReq n stream s = .next s') :
    s'.bridle = s.bridle := by
  cases ht; simp

@[simp] theorem failStop_bridle (n slot : Nat) (m : V2gMsg) (a : V2gAns) (s : State) :
    (failStop n slot m a s).bridle = s.bridle := by simp [failStop]

@[simp] theorem energise_bridle (slot : Nat) (s : State) : (energise slot s).bridle = s.bridle := by simp [energise]

@[simp] theorem powerStart_bridle (n slot : Nat) (late : Bool) (s : State) :
    (powerStart n slot late s).bridle = s.bridle := by simp [powerStart]

theorem execPowerDeliveryStart_bridle (n : Fin 64) (late : Bool) (s s' : State) (ht : execPowerDeliveryStart n late s = .next s') :
    s'.bridle = s.bridle := by
  cases ht; simp

@[simp] theorem ongoingExpiry_bridle (n : Nat) (s : State) : (ongoingExpiry n s).bridle = s.bridle := by
  unfold ongoingExpiry; dsimp only; (repeat' split) <;> simp

theorem execOngoingTimeExpiry_bridle (n : Fin 64) (s s' : State) (ht : execOngoingTimeExpiry n s = .next s') :
    s'.bridle = s.bridle := by
  cases ht; simp

@[simp] theorem answerWaiting_bridle (n slot : Nat) (s : State) : (answerWaiting n slot s).bridle = s.bridle := by
  unfold answerWaiting; (repeat' split) <;> simp

@[simp] theorem decisionTaken_bridle (n slot : Nat) (s : State) :
    (decisionTaken n slot s).bridle = s.bridle := by simp [decisionTaken]

theorem execHostDecisionTimeout_bridle (n : Fin 64) (s s' : State) (ht : execHostDecisionTimeout n s = .next s') :
    s'.bridle = s.bridle := by
  cases ht; simp

@[simp] theorem hostIdent_bridle (slot : Nat) (s : State) : (hostIdent slot s).bridle = s.bridle := by simp [hostIdent]

@[simp] theorem hostDecide_bridle (slot d : Nat) (s : State) : (hostDecide slot d s).2.bridle = s.bridle := by
  unfold hostDecide; dsimp only; (repeat' split) <;> simp

theorem execHostDecision_bridle (slot : Fin 256) (handle : Word) (serial : BitVec 64) (decision : BitVec 8) (s s' : State) (ht : execHostDecision slot handle serial decision s = .next s') :
    s'.bridle = s.bridle := by
  cases ht; simp

theorem execV2gSequenceTimeout_bridle (n : Fin 64) (s s' : State) (ht : execV2gSequenceTimeout n s = .next s') :
    s'.bridle = s.bridle := by
  cases ht; simp

theorem execV2gSetupTimeout_bridle (n : Fin 64) (s s' : State) (ht : execV2gSetupTimeout n s = .next s') :
    s'.bridle = s.bridle := by
  cases ht; simp

theorem execAwlJobComplete_bridle (pka ok : Bool) (slot : Option (Fin 256)) (s s' : State) (ht : execAwlJobComplete pka ok slot s = .next s') :
    s'.bridle = s.bridle := by
  cases ht; (repeat' split) <;> simp

@[simp] theorem withPort_bridle (k : Nat) (f : Nat → State → State) (s : State) (h_f : ∀ x0 t, (f x0 t).bridle = t.bridle) :
    (withPort k f s).bridle = s.bridle := by
  unfold withPort; (repeat' split) <;> simp [*]

@[simp] theorem faultStop_bridle (k p reason : Nat) (s : State) :
    (faultStop k p reason s).bridle = s.bridle := by simp [faultStop]

@[simp] theorem requestLock_bridle (p slot : Nat) (s : State) :
    (requestLock p slot s).bridle = s.bridle := by simp [requestLock]

@[simp] theorem seqAdvance_bridle (k p slot : Nat) (s : State) :
    (seqAdvance k p slot s).bridle = s.bridle := by simp [seqAdvance]

theorem execSequenceSignalChange_bridle (k : Fin 8) (prox level : Bool) (s s' : State) (ht : execSequenceSignalChange k prox level s = .next s') :
    s'.bridle = s.bridle := by
  cases ht; simp

@[simp] theorem vcan102_bridle (k p slot : Nat) (data : List Byte) (s : State) :
    (vcan102 k p slot data s).bridle = s.bridle := by simp [vcan102]

@[simp] theorem vcanTake_bridle (k p slot n : Nat) (data : List Byte) (s : State) :
    (vcanTake k p slot n data s).bridle = s.bridle := by simp [vcanTake]

theorem execVcanFrame_bridle (k : Fin 8) (id : BitVec 11) (data : List Byte) (s s' : State) (ht : execVcanFrame k id data s = .next s') :
    s'.bridle = s.bridle := by
  cases ht; simp

theorem execChargerFramePeriod_bridle (k : Fin 8) (s s' : State) (ht : execChargerFramePeriod k s = .next s') :
    s'.bridle = s.bridle := by
  cases ht; simp

theorem execVcanFirstFrameTimeout_bridle (k : Fin 8) (s s' : State) (ht : execVcanFirstFrameTimeout k s = .next s') :
    s'.bridle = s.bridle := by
  cases ht; simp

theorem execVcanFrameTimeout_bridle (k : Fin 8) (s s' : State) (ht : execVcanFrameTimeout k s = .next s') :
    s'.bridle = s.bridle := by
  cases ht; simp

@[simp] theorem vcanConfine_bridle (k : Nat) (s : State) : (vcanConfine k s).bridle = s.bridle := by simp [vcanConfine]

/-! ### Harness -/

@[simp] theorem harnessBurst_bridle (t : Nat) (reqs : List BurstReq) (s : State) :
    (harnessBurst t reqs s).bridle = s.bridle := by
  unfold harnessBurst; dsimp only; (repeat' split) <;> simp

@[simp] theorem eccReport_bridle (m : Nat) (e : Ecc) (s : State) : (eccReport m e s).bridle = s.bridle := by
  unfold eccReport; (repeat' split) <;> simp

theorem execHarnessBurst_bridle (t : Fin 30) (b : BurstReqs) (s s' : State) (ht : execHarnessBurst t b s = .next s') :
    s'.bridle = s.bridle := by
  cases ht; simp

@[simp] theorem waitMaxRead_bridle (t : Nat) (s : State) : (waitMaxRead t s).bridle = s.bridle := by simp [waitMaxRead]

theorem execHrnWaitmaxRead_bridle (t : Fin 30) (s s' : State) (ht : execHrnWaitmaxRead t s = .next s') :
    s'.bridle = s.bridle := by
  cases ht; simp

/-! ### Journal -/

@[simp] theorem stageRec_bridle (r : JRec) (s : State) : (stageRec r s).bridle = s.bridle := by simp [stageRec]

@[simp] theorem setArea_bridle (k : Nat) (a : Area) (s : State) : (setArea k a s).bridle = s.bridle := by simp [setArea]

@[simp] theorem batchRequest_bridle (s : State) : (batchRequest s).bridle = s.bridle := by
  unfold batchRequest; (repeat' split) <;> simp

@[simp] theorem batchClose_bridle (s : State) : (batchClose s).bridle = s.bridle := by simp [batchClose]

theorem execJournalBatchClose_bridle (_save : Bool) (s s' : State) (ht : execJournalBatchClose _save s = .next s') :
    s'.bridle = s.bridle := by
  cases ht; simp

@[simp] theorem areaCompacted_bridle (k ticket : Nat) (s : State) :
    (areaCompacted k ticket s).bridle = s.bridle := by simp [areaCompacted]

@[simp] theorem batchProgrammed_bridle (s : State) : (batchProgrammed s).bridle = s.bridle := by
  unfold batchProgrammed; (repeat' split) <;> simp

@[simp] theorem journalDone_bridle (s : State) : (journalDone s).bridle = s.bridle := by
  unfold journalDone; (repeat' split) <;> simp

theorem execXspiOperationDone_bridle (err : Bool) (s s' : State) (ht : execXspiOperationDone err s = .next s') :
    s'.bridle = s.bridle := by
  cases ht; simp

@[simp] theorem journalRead_bridle (aOk bOk : Bool) (bad : List (Bool × Nat)) (s : State) :
    (journalRead aOk bOk bad s).bridle = s.bridle := by simp [journalRead]

@[simp] theorem restoreDefaults_bridle (s : State) : (restoreDefaults s).bridle = s.bridle := by simp [restoreDefaults]

/-! ### Counters -/

theorem execCounterWrap_bridle (i : Fin 128) (s s' : State) (ht : execCounterWrap i s = .next s') :
    s'.bridle = s.bridle := by
  cases ht; simp

@[simp] theorem pmcSelect_bridle (i : Nat) (v : Word) (s : State) :
    (pmcSelect i v s).bridle = s.bridle := by simp [pmcSelect]

theorem execPmcSelect_bridle (i : Fin 128) (v : Word) (s s' : State) (ht : execPmcSelect i v s = .next s') :
    s'.bridle = s.bridle := by
  cases ht; simp

@[simp] theorem pmcSnapshot_bridle (v : Word) (s : State) : (pmcSnapshot v s).bridle = s.bridle := by simp [pmcSnapshot]

theorem execPmcSnapshot_bridle (v : Word) (s s' : State) (ht : execPmcSnapshot v s = .next s') :
    s'.bridle = s.bridle := by
  cases ht; simp

/-! ### Served -/

@[simp] theorem ownRead_bridle (idx sub : Nat) (s : State) : (ownRead idx sub s).bridle = s.bridle := by simp [ownRead]

/-! ### Earth -/

@[simp] theorem State.updRc_bridle (s : State) (n : Nat) (f : RcCh → RcCh) :
    (State.updRc s n f).bridle = s.bridle := by simp [State.updRc]

@[simp] theorem rcEvt_bridle (n i : Nat) (s : State) : (rcEvt n i s).bridle = s.bridle := by simp [rcEvt]

@[simp] theorem rcEnd_bridle (n : Nat) (meanUv : Int) (rmsUv : Nat) (s : State) :
    (rcEnd n meanUv rmsUv s).bridle = s.bridle := by
  unfold rcEnd; dsimp only; (repeat' split) <;> simp

theorem execRcWindowEnd_bridle (n : Fin 64) (meanUv : Int) (rmsUv : Nat) (s s' : State) (ht : execRcWindowEnd n meanUv rmsUv s = .next s') :
    s'.bridle = s.bridle := by
  cases ht; simp

@[simp] theorem rcClear_bridle (n : Nat) (s : State) : (rcClear n s).bridle = s.bridle := by simp [rcClear]

theorem execRcClear_bridle (n : Fin 64) (s s' : State) (ht : execRcClear n s = .next s') : s'.bridle = s.bridle := by
  cases ht; simp

@[simp] theorem rcCfgWrite_bridle (n : Nat) (v : Word) (s : State) :
    (rcCfgWrite n v s).bridle = s.bridle := by simp [rcCfgWrite]

theorem execRcCfgWrite_bridle (n : Fin 64) (v : Word) (s s' : State) (ht : execRcCfgWrite n v s = .next s') :
    s'.bridle = s.bridle := by
  cases ht; simp

@[simp] theorem State.updIm_bridle (s : State) (k : Nat) (f : ImCh → ImCh) :
    (State.updIm s k f).bridle = s.bridle := by simp [State.updIm]

@[simp] theorem imEvt_bridle (k i : Nat) (s : State) : (imEvt k i s).bridle = s.bridle := by simp [imEvt]

@[simp] theorem imResult_bridle (k r : Nat) (s : State) : (imResult k r s).bridle = s.bridle := by simp [imResult]

@[simp] theorem imHalf_bridle (k : Nat) (vp vn : Int) (span : Nat) (s : State) :
    (imHalf k vp vn span s).bridle = s.bridle := by
  unfold imHalf; dsimp only; (repeat' split) <;> simp

theorem execImHalfPeriodEnd_bridle (k : Fin 16) (vp vn : Int) (span : Nat) (s s' : State) (ht : execImHalfPeriodEnd k vp vn span s = .next s') :
    s'.bridle = s.bridle := by
  cases ht; simp

@[simp] theorem imStart_bridle (k : Nat) (st : ImSt) (s : State) :
    (imStart k st s).bridle = s.bridle := by simp [imStart]

@[simp] theorem imEnable_bridle (k : Nat) (s : State) : (imEnable k s).bridle = s.bridle := by simp [imEnable]

theorem execImEnable_bridle (k : Fin 16) (s s' : State) (ht : execImEnable k s = .next s') : s'.bridle = s.bridle := by
  cases ht; simp

@[simp] theorem imDisable_bridle (k : Nat) (s : State) : (imDisable k s).bridle = s.bridle := by simp [imDisable]

theorem execImDisable_bridle (k : Fin 16) (s s' : State) (ht : execImDisable k s = .next s') :
    s'.bridle = s.bridle := by
  cases ht; simp

@[simp] theorem imPause_bridle (k : Nat) (s : State) : (imPause k s).bridle = s.bridle := by simp [imPause]

theorem execImPause_bridle (k : Fin 16) (s s' : State) (ht : execImPause k s = .next s') : s'.bridle = s.bridle := by
  cases ht; simp

@[simp] theorem imResume_bridle (k : Nat) (s : State) : (imResume k s).bridle = s.bridle := by simp [imResume]

theorem execImResume_bridle (k : Fin 16) (s s' : State) (ht : execImResume k s = .next s') : s'.bridle = s.bridle := by
  cases ht; simp

@[simp] theorem imClear_bridle (k : Nat) (s : State) : (imClear k s).bridle = s.bridle := by simp [imClear]

theorem execImClear_bridle (k : Fin 16) (s s' : State) (ht : execImClear k s = .next s') : s'.bridle = s.bridle := by
  cases ht; simp

@[simp] theorem imCfgWrite_bridle (k : Nat) (v : Word) (s : State) :
    (imCfgWrite k v s).bridle = s.bridle := by simp [imCfgWrite]

@[simp] theorem imNetWrite_bridle (k : Nat) (v : Word) (s : State) :
    (imNetWrite k v s).bridle = s.bridle := by simp [imNetWrite]

@[simp] theorem imDivWrite_bridle (k : Nat) (v : Word) (s : State) :
    (imDivWrite k v s).bridle = s.bridle := by simp [imDivWrite]

@[simp] theorem imThrWrite_bridle (k : Nat) (v : Word) (s : State) :
    (imThrWrite k v s).bridle = s.bridle := by simp [imThrWrite]

/-! ### Handlers -/

@[simp] theorem toLinking_bridle (p slot : Nat) (s : State) :
    (toLinking p slot s).bridle = s.bridle := by simp [toLinking]

@[simp] theorem toBasic_bridle (p slot : Nat) (s : State) : (toBasic p slot s).bridle = s.bridle := by simp [toBasic]

@[simp] theorem connected_bridle (p slot : Nat) (s : State) :
    (connected p slot s).bridle = s.bridle := by simp [connected]

@[simp] theorem connect_bridle (p slot : Nat) (s : State) : (connect p slot s).bridle = s.bridle := by simp [connect]

@[simp] theorem faultEnd_bridle (p slot reason : Nat) (s : State) :
    (faultEnd p slot reason s).bridle = s.bridle := by simp [faultEnd]

@[simp] theorem closingOn_bridle (p slot : Nat) (s : State) :
    (closingOn p slot s).bridle = s.bridle := by simp [closingOn]

@[simp] theorem stoppingOn_bridle (p slot : Nat) (s : State) :
    (stoppingOn p slot s).bridle = s.bridle := by simp [stoppingOn]

@[simp] theorem servePilot_bridle (p slot : Nat) (s : State) :
    (servePilot p slot s).bridle = s.bridle := by simp [servePilot]

@[simp] theorem serveEarth_bridle (p slot : Nat) (s : State) :
    (serveEarth p slot s).bridle = s.bridle := by simp [serveEarth]

@[simp] theorem serveGrant_bridle (p slot : Nat) (s : State) : (serveGrant p slot s).bridle = s.bridle := by
  unfold serveGrant; (repeat' split) <;> simp

@[simp] theorem serveTimer_bridle (p slot : Nat) (s : State) :
    (serveTimer p slot s).bridle = s.bridle := by simp [serveTimer]

@[simp] theorem servePlc_bridle (p slot : Nat) (s : State) : (servePlc p slot s).bridle = s.bridle := by simp [servePlc]

@[simp] theorem serveClass_bridle (k p slot : Nat) (s : State) : (serveClass k p slot s).bridle = s.bridle := by
  unfold serveClass; (repeat' split) <;> simp

@[simp] theorem serveAll_bridle (slot : Nat) (s : State) : (serveAll slot s).bridle = s.bridle := by simp [serveAll]

@[simp] theorem doneServed_bridle (e : Nat) (s : State) : (doneServed e s).bridle = s.bridle := by
  unfold doneServed; (repeat' split) <;> simp

theorem execSesDone_bridle (e : Fin 8) (s s' : State) (ht : execSesDone e s = .next s') : s'.bridle = s.bridle := by
  cases ht; simp

@[simp] theorem cantleShutdown_bridle (p : Nat) (s : State) :
    (cantleShutdown p s).bridle = s.bridle := by simp [cantleShutdown]

/-! ### BusBlocks -/

@[simp] theorem bklRead_bridle (port o : Nat) (s : State) : (bklRead port o s).bridle = s.bridle := by
  unfold bklRead
  split; · simp
  split; · simp
  split; · simp
  split
  · dsimp only; split <;> simp
  · simp

@[simp] theorem bklWrite_bridle (port o : Nat) (v : Word) (s : State) : (bklWrite port o v s).bridle = s.bridle := by
  unfold bklWrite
  split; · simp
  split; · simp
  split; · simp
  split; · simp
  split; · simp
  split
  · dsimp only; split <;> simp
  · simp

@[simp] theorem pairRegRead_bridle (m o : Nat) (s : State) :
    (pairRegRead m o s).bridle = s.bridle := by simp [pairRegRead]

@[simp] theorem pairRegWrite_bridle (port m o : Nat) (v : Word) (s : State) :
    (pairRegWrite port m o v s).bridle = s.bridle := by simp [pairRegWrite]

@[simp] theorem hubRegRead_bridle (port h o : Nat) (s : State) :
    (hubRegRead port h o s).bridle = s.bridle := by simp [hubRegRead]

@[simp] theorem hubRegWrite_bridle (port h o : Nat) (v : Word) (s : State) :
    (hubRegWrite port h o v s).bridle = s.bridle := by simp [hubRegWrite]

@[simp] theorem sesRead_bridle (port e o : Nat) (s : State) : (sesRead port e o s).bridle = s.bridle := by
  unfold sesRead; (repeat' split) <;> simp

@[simp] theorem sesEcfgWrite_bridle (e : Nat) (v : Word) (s : State) :
    (sesEcfgWrite e v s).bridle = s.bridle := by simp [sesEcfgWrite]

@[simp] theorem sesEntryWrite_bridle (e : Nat) (v : Word) (s : State) :
    (sesEntryWrite e v s).bridle = s.bridle := by simp [sesEntryWrite]

@[simp] theorem sesXrWrite_bridle (e k : Nat) (v : Word) (s : State) :
    (sesXrWrite e k v s).bridle = s.bridle := by simp [sesXrWrite]

@[simp] theorem sesWrite_bridle (port e o : Nat) (v : Word) (s : State) :
    (sesWrite port e o v s).bridle = s.bridle := by
  unfold sesWrite; (repeat' split) <;> simp

@[simp] theorem mbxRead_bridle (port o : Nat) (s : State) : (mbxRead port o s).bridle = s.bridle := by simp [mbxRead]

@[simp] theorem mbxWrite_bridle (port o : Nat) (v : Word) (s : State) :
    (mbxWrite port o v s).bridle = s.bridle := by simp [mbxWrite]

@[simp] theorem grtRead_bridle (o : Nat) (s : State) : (grtRead o s).bridle = s.bridle := by
  unfold grtRead; (repeat' split) <;> simp

@[simp] theorem grtWrite_bridle (o : Nat) (v : Word) (s : State) : (grtWrite o v s).bridle = s.bridle := by
  unfold grtWrite; (repeat' split) <;> simp

@[simp] theorem pmcRead_bridle (o : Nat) (s : State) : (pmcRead o s).bridle = s.bridle := by simp [pmcRead]

@[simp] theorem pmcWrite_bridle (o : Nat) (v : Word) (s : State) :
    (pmcWrite o v s).bridle = s.bridle := by simp [pmcWrite]

@[simp] theorem clkRead_bridle (port o : Nat) (s : State) : (clkRead port o s).bridle = s.bridle := by
  unfold clkRead; (repeat' split) <;> simp

@[simp] theorem pilRead_bridle (port o : Nat) (s : State) : (pilRead port o s).bridle = s.bridle := by
  unfold pilRead; (repeat' split) <;> simp

@[simp] theorem pilWrite_bridle (o : Nat) (v : Word) (s : State) : (pilWrite o v s).bridle = s.bridle := by
  unfold pilWrite; (repeat' split) <;> simp

@[simp] theorem skvRead_bridle (o : Nat) (s : State) : (skvRead o s).bridle = s.bridle := by
  unfold skvRead; (repeat' split) <;> simp

@[simp] theorem skvWrite_bridle (o : Nat) (v : Word) (s : State) :
    (skvWrite o v s).bridle = s.bridle := by simp [skvWrite]

@[simp] theorem tkrRead_bridle (o : Nat) (s : State) : (tkrRead o s).bridle = s.bridle := by simp [tkrRead]

@[simp] theorem slRead_bridle (port o : Nat) (s : State) : (slRead port o s).bridle = s.bridle := by
  unfold slRead; (repeat' split) <;> simp

@[simp] theorem slWrite_bridle (port o : Nat) (v : Word) (s : State) : (slWrite port o v s).bridle = s.bridle := by
  unfold slWrite; (repeat' split) <;> simp

/-! ### BusPower -/

@[simp] theorem powerUpd_bridle (f : PowerDie → PowerDie) (s : State) :
    (powerUpd f s).bridle = s.bridle := by simp [powerUpd]

@[simp] theorem outCmdWrite_bridle (x : Nat) (v : Word) (s : State) :
    (outCmdWrite x v s).bridle = s.bridle := by simp [outCmdWrite]

@[simp] theorem outRegWrite_bridle (x off : Nat) (v : Word) (s : State) :
    (outRegWrite x off v s).bridle = s.bridle := by
  unfold outRegWrite; (repeat' split) <;> simp

@[simp] theorem outDevWrite_bridle (off : Nat) (v : Word) (s : State) : (outDevWrite off v s).bridle = s.bridle := by
  unfold outDevWrite; (repeat' split) <;> simp

@[simp] theorem rcRegWrite_bridle (n off : Nat) (v : Word) (s : State) : (rcRegWrite n off v s).bridle = s.bridle := by
  unfold rcRegWrite; (repeat' split) <;> simp

@[simp] theorem imRegWrite_bridle (k off : Nat) (v : Word) (s : State) : (imRegWrite k off v s).bridle = s.bridle := by
  unfold imRegWrite; (repeat' split) <;> simp

@[simp] theorem rdRegWrite_bridle (n off : Nat) (v : Word) (s : State) : (rdRegWrite n off v s).bridle = s.bridle := by
  unfold rdRegWrite; (repeat' split) <;> simp

@[simp] theorem tagShadowWord_bridle (k i : Nat) (v : Word) (s : State) :
    (tagShadowWord k i v s).bridle = s.bridle := by simp [tagShadowWord]

@[simp] theorem powerRegWrite_bridle (o : Nat) (v : Word) (s : State) :
    (powerRegWrite o v s).bridle = s.bridle := by simp [powerRegWrite]

@[simp] theorem outWinRead_bridle (o : Nat) (s : State) : (outWinRead o s).bridle = s.bridle := by simp [outWinRead]

@[simp] theorem outWinWrite_bridle (port o : Nat) (v : Word) (s : State) :
    (outWinWrite port o v s).bridle = s.bridle := by simp [outWinWrite]

/-! ### Bus -/

@[simp] theorem blockRead_bridle (port a : Nat) (s : State) : (blockRead port a s).bridle = s.bridle := by
  unfold blockRead; (repeat' split) <;> simp

@[simp] theorem busRead_bridle (port a : Nat) (s : State) : (busRead port a s).bridle = s.bridle := by simp [busRead]

@[simp] theorem busLoad_bridle (port a n : Nat) (s : State) : (busLoad port a n s).1.bridle = s.bridle := by
  unfold busLoad; dsimp only; (repeat' split) <;> simp

@[simp] theorem takeAt_bridle (a v : Nat) (s : State) : (takeAt a v s).bridle = s.bridle := by
  unfold takeAt; (repeat' split) <;> simp

/-! ### Applied -/

@[simp] theorem applyOut_bridle (x : Nat) (s : State) : (applyOut x s).bridle = s.bridle := by simp [applyOut]

@[simp] theorem imThrough_bridle (k : Nat) (f : State → State) (s : State) (h_f : ∀  t, (f  t).bridle = t.bridle) :
    (imThrough k f s).bridle = s.bridle := by
  unfold imThrough; dsimp only; (repeat' split) <;> simp [*]

@[simp] theorem applyImThr_bridle (k : Nat) (s : State) : (applyImThr k s).bridle = s.bridle := by simp [applyImThr]

@[simp] theorem applyIm_bridle (k sub : Nat) (s : State) : (applyIm k sub s).bridle = s.bridle := by
  unfold applyIm; (repeat' split) <;> simp

@[simp] theorem applyImCfg_bridle (k sub : Nat) (s : State) :
    (applyImCfg k sub s).bridle = s.bridle := by simp [applyImCfg]

@[simp] theorem applyRc_bridle (n : Nat) (s : State) : (applyRc n s).bridle = s.bridle := by simp [applyRc]

@[simp] theorem applyTest_bridle (on : Bool) (s : State) : (applyTest on s).bridle = s.bridle := by simp [applyTest]

@[simp] theorem outTestCmd_bridle (x n : Nat) (s : State) : (outTestCmd x n s).2.bridle = s.bridle := by
  unfold outTestCmd; (repeat' split) <;> simp

@[simp] theorem applyPilot_bridle (p : Nat) (s : State) : (applyPilot p s).bridle = s.bridle := by simp [applyPilot]

@[simp] theorem freeQueued_bridle (p : Nat) (s : State) : (freeQueued p s).bridle = s.bridle := by
  unfold freeQueued; (repeat' split) <;> simp

@[simp] theorem applyType_bridle (p : Nat) (s : State) : (applyType p s).bridle = s.bridle := by simp [applyType]

@[simp] theorem applyAtten_bridle (n v : Nat) (s : State) : (applyAtten n v s).bridle = s.bridle := by simp [applyAtten]

@[simp] theorem applyMains_bridle (m : Nat) (on : Bool) (s : State) :
    (applyMains m on s).bridle = s.bridle := by simp [applyMains]

@[simp] theorem applyReader_bridle (n : Nat) (s : State) : (applyReader n s).bridle = s.bridle := by simp [applyReader]

@[simp] theorem applyTag_bridle (k : Nat) (s : State) : (applyTag k s).bridle = s.bridle := by simp [applyTag]

@[simp] theorem applyTagFile_bridle (k : Nat) (d : List Byte) (s : State) :
    (applyTagFile k d s).bridle = s.bridle := by simp [applyTagFile]

@[simp] theorem applyPoint_bridle (idx sub : Nat) (s : State) : (applyPoint idx sub s).bridle = s.bridle := by
  have e : ∃ p, applyPoint idx sub s =
      if idx % 64 = 0 then applyPilot p s
      else if idx % 64 = 4 && sub = 4 then applyAtten p (s.onum idx 4) s
      else if idx % 64 = 8 && sub = 4 then
        (List.range 16).foldl (fun t k => if (t.imMask k).getLsbD p then applyImThr k t else t) s
      else s := ⟨_, rfl⟩
  obtain ⟨p, e⟩ := e
  rw [e]
  split
  · exact applyPilot_bridle _ _
  split
  · exact applyAtten_bridle _ _ _
  split
  · rw [foldl_bridle]; intro t x; split <;> simp
  · rfl

@[simp] theorem applyEntry_bridle (idx sub : Nat) (s : State) : (applyEntry idx sub s).bridle = s.bridle := by
  unfold applyEntry
  split
  · exact applyPoint_bridle _ _ _
  split
  · exact applyOut_bridle _ _
  split
  · exact applyImCfg_bridle _ _ _
  split
  · exact applyRc_bridle _ _
  split
  · exact applyReader_bridle _ _
  split
  · split
    · exact applyTagFile_bridle _ _ _
    · exact applyTag_bridle _ _
  split
  · exact applyMains_bridle _ _ _
  split
  · exact applyAtten_bridle _ _ _
  rfl

/-! ### Server -/

@[simp] theorem State.updConn_bridle (s : State) (c : Nat) (f : Conn → Conn) :
    (State.updConn s c f).bridle = s.bridle := by simp [State.updConn]

@[simp] theorem makeBinding_bridle (a : Asker) (idx : Nat) (s : State) : (makeBinding a idx s).bridle = s.bridle := by
  unfold makeBinding; (repeat' split) <;> simp

@[simp] theorem readSealed_bridle (a : Asker) (idx sub : Nat) (s : State) :
    (readSealed a idx sub s).2.2.bridle = s.bridle := by
  unfold readSealed; (repeat' split) <;> simp

@[simp] theorem serveRead_bridle (a : Asker) (idx sub : Nat) (s : State) :
    (serveRead a idx sub s).2.2.bridle = s.bridle := by
  unfold serveRead; (repeat' split) <;> simp

@[simp] theorem writeStored_bridle (a : Asker) (idx sub : Nat) (v : List Byte) (s : State) :
    (writeStored a idx sub v s).bridle = s.bridle := by simp [writeStored]

@[simp] theorem writeSession_bridle (a : Asker) (idx sub : Nat) (d : List Byte) (s : State) :
    (writeSession a idx sub d s).2.bridle = s.bridle := by
  unfold writeSession; (repeat' split) <;> simp

@[simp] theorem writeSelector_bridle (a : Asker) (d : List Byte) (s : State) :
    (writeSelector a d s).2.bridle = s.bridle := by
  unfold writeSelector; dsimp only; (repeat' split) <;> simp

@[simp] theorem writeServer_bridle (idx sub : Nat) (d : List Byte) (s : State) :
    (writeServer idx sub d s).bridle = s.bridle := by
  unfold writeServer; (repeat' split) <;> simp

@[simp] theorem portChanged_bridle (p : Nat) (s : State) : (portChanged p s).bridle = s.bridle := by simp [portChanged]

@[simp] theorem writeConfig_bridle (a : Asker) (o : Obj) (idx sub : Nat) (d : List Byte) (s : State) :
    (writeConfig a o idx sub d s).bridle = s.bridle := by
  unfold writeConfig
  dsimp only
  split
  · split
    · exact writeStored_bridle _ _ _ _ _
    · rw [applyType_bridle]; exact writeStored_bridle _ _ _ _ _
  · split
    · rw [portChanged_bridle]; exact writeStored_bridle _ _ _ _ _
    · split
      · rw [applyEntry_bridle]; exact writeStored_bridle _ _ _ _ _
      · exact writeStored_bridle _ _ _ _ _

@[simp] theorem writeSealed_bridle (a : Asker) (idx sub : Nat) (d : List Byte) (s : State) :
    (writeSealed a idx sub d s).2.bridle = s.bridle := by
  unfold writeSealed; (repeat' split) <;> simp

@[simp] theorem setLast_bridle (v : Via) (st : Status) (s : State) : (setLast v st s).bridle = s.bridle := by
  unfold setLast; (repeat' split) <;> simp

@[simp] theorem answered_bridle (v : Via) (st : Status) (s : State) : (answered v st s).bridle = s.bridle := by
  unfold answered; (repeat' split) <;> simp

@[simp] theorem readRequest_bridle (a : Asker) (idx sub : Nat) (s : State) :
    (readRequest a idx sub s).2.2.bridle = s.bridle := by simp [readRequest]

/-! ### CanOpen -/

@[simp] theorem enterOper_bridle (f : Nat) (s : State) : (enterOper f s).bridle = s.bridle := by simp [enterOper]

@[simp] theorem bootPort_bridle (f : Nat) (s : State) : (bootPort f s).bridle = s.bridle := by simp [bootPort]

@[simp] theorem sdoSend_bridle (f ch : Nat) (data : List Byte) (s : State) :
    (sdoSend f ch data s).bridle = s.bridle := by simp [sdoSend]

@[simp] theorem sdoReply_bridle (f ch : Nat) (cmd : Byte) (idx sub : Nat) (data : List Byte) (s : State) :
    (sdoReply f ch cmd idx sub data s).bridle = s.bridle := by simp [sdoReply]

@[simp] theorem sdoAbort_bridle (f ch idx sub code : Nat) (s : State) :
    (sdoAbort f ch idx sub code s).bridle = s.bridle := by simp [sdoAbort]

@[simp] theorem setSdo_bridle (f ch : Nat) (x : Option SdoXfer) (s : State) :
    (setSdo f ch x s).bridle = s.bridle := by simp [setSdo]

@[simp] theorem sdoFresh_bridle (f ch : Nat) (s : State) : (sdoFresh f ch s).bridle = s.bridle := by
  unfold sdoFresh; (repeat' split) <;> simp

theorem execSdoInitiateUpload_bridle (f : Fin 2) (ch : Fin 8) (idx : BitVec 16) (sub : BitVec 8) (s s' : State) (ht : execSdoInitiateUpload f ch idx sub s = .next s') :
    s'.bridle = s.bridle := by
  cases ht; simp

@[simp] theorem sdoUpSeg_bridle (f ch : Nat) (toggle : Bool) (s : State) :
    (sdoUpSeg f ch toggle s).bridle = s.bridle := by
  unfold sdoUpSeg; (repeat' split) <;> simp

theorem execSdoUploadSegment_bridle (f : Fin 2) (ch : Fin 8) (toggle : Bool) (s s' : State) (ht : execSdoUploadSegment f ch toggle s = .next s') :
    s'.bridle = s.bridle := by
  cases ht; simp

theorem execSdoUnsupportedCommand_bridle (f : Fin 2) (ch : Fin 8) (s s' : State) (ht : execSdoUnsupportedCommand f ch s = .next s') :
    s'.bridle = s.bridle := by
  cases ht; simp

@[simp] theorem usdoSend_bridle (f node code : Nat) (d : List Byte) (s : State) :
    (usdoSend f node code d s).bridle = s.bridle := by simp [usdoSend]

@[simp] theorem setUsdo_bridle (f node : Nat) (x : Option SdoXfer) (s : State) :
    (setUsdo f node x s).bridle = s.bridle := by simp [setUsdo]

@[simp] theorem usdoFresh_bridle (f node : Nat) (s : State) :
    (usdoFresh f node s).bridle = s.bridle := by simp [usdoFresh]

@[simp] theorem usdoBegin_bridle (f node : Nat) (x : SdoXfer) (d : List Byte) (s : State) :
    (usdoBegin f node x d s).bridle = s.bridle := by simp [usdoBegin]

theorem execSdoSegmentTimeout_bridle (f : Fin 2) (client : CanClient) (s s' : State) (ht : execSdoSegmentTimeout f client s = .next s') :
    s'.bridle = s.bridle := by
  cases ht; (repeat' split) <;> simp

theorem execNmtStart_bridle (f : Fin 2) (s s' : State) (ht : execNmtStart f s = .next s') : s'.bridle = s.bridle := by
  cases ht; simp

theorem execNmtStop_bridle (f : Fin 2) (s s' : State) (ht : execNmtStop f s = .next s') : s'.bridle = s.bridle := by
  cases ht; simp

theorem execNmtEnterPreoperational_bridle (f : Fin 2) (s s' : State) (ht : execNmtEnterPreoperational f s = .next s') :
    s'.bridle = s.bridle := by
  cases ht; simp

theorem execNmtResetCommunication_bridle (f : Fin 2) (s s' : State) (ht : execNmtResetCommunication f s = .next s') :
    s'.bridle = s.bridle := by
  cases ht; simp

theorem execNmtResetNode_bridle (f : Fin 2) (s s' : State) (ht : execNmtResetNode f s = .next s') :
    s'.bridle = s.bridle := by
  cases ht; simp

theorem execCanopenHeartbeat_bridle (f : Fin 2) (s s' : State) (ht : execCanopenHeartbeat f s = .next s') :
    s'.bridle = s.bridle := by
  cases ht; simp

@[simp] theorem tpdoSend_bridle (f n : Nat) (s : State) : (tpdoSend f n s).bridle = s.bridle := by simp [tpdoSend]

@[simp] theorem tpdoSync_bridle (f : Nat) (s : State) (n : Nat) :
    (tpdoSync f s n).bridle = s.bridle := by simp [tpdoSync]

theorem execSync_bridle (f : Fin 2) (s s' : State) (ht : execSync f s = .next s') : s'.bridle = s.bridle := by
  cases ht; simp

theorem execTpdoEventTimer_bridle (f : Fin 2) (n : Fin 32) (s s' : State) (ht : execTpdoEventTimer f n s = .next s') :
    s'.bridle = s.bridle := by
  cases ht; simp

@[simp] theorem tpdoChange_bridle (f : Nat) (s : State) (n : Nat) :
    (tpdoChange f s n).bridle = s.bridle := by simp [tpdoChange]

@[simp] theorem tpdoPoll_bridle (s : State) : (tpdoPoll s).bridle = s.bridle := by simp [tpdoPoll]

theorem execCanBusOff_bridle (f : Fin 2) (s s' : State) (ht : execCanBusOff f s = .next s') : s'.bridle = s.bridle := by
  cases ht; simp

theorem execCanBusOffRecovery_bridle (f : Fin 2) (s s' : State) (ht : execCanBusOffRecovery f s = .next s') :
    s'.bridle = s.bridle := by
  cases ht; simp

theorem execCanErrorPassive_bridle (f : Fin 2) (s s' : State) (ht : execCanErrorPassive f s = .next s') :
    s'.bridle = s.bridle := by
  cases ht; simp

@[simp] theorem pllPRelock_bridle (s : State) : (pllPRelock s).bridle = s.bridle := by simp [pllPRelock]

theorem execPllPRelock_bridle (s s' : State) (ht : execPllPRelock s = .next s') : s'.bridle = s.bridle := by
  cases ht; simp

/-! ### RvMem -/

@[simp] theorem physLoad_bridle (h a n : Nat) (s : State) : (physLoad h a n s).1.bridle = s.bridle := by
  unfold physLoad; dsimp only; (repeat' split) <;> simp

@[simp] theorem breakReservations_bridle (h a n : Nat) (s : State) :
    (breakReservations h a n s).bridle = s.bridle := by simp [breakReservations]

/-! ### Riscv -/

@[simp] theorem RvOut_done_bridle (s : State) : (RvOut.done s).state = s := rfl

@[simp] theorem RvOut_exc_bridle (c : Nat) (v : Dword) (s : State) : (RvOut.exc c v s).state = s := rfl

@[simp] theorem rvIllegal_bridle (s : State) : (rvIllegal s).state.bridle = s.bridle := by simp [rvIllegal]

@[simp] theorem rvLoadAt_bridle (h n : Nat) (va : Dword) (s : State) (f : Nat → State → RvOut) (h_f : ∀ x0 t, (f x0 t).state.bridle = t.bridle) :
    (rvLoadAt h n va s f).state.bridle = s.bridle := by
  unfold rvLoadAt
  split
  · simp
  · rename_i a e
    have k := physLoad_bridle h a n s
    split <;> rename_i e2 <;> rw [e2] at k <;> simp [h_f, k] <;> simpa using k

@[simp] theorem hartEcc_bridle (h : Nat) (ecc : Ecc) (s : State) :
    (hartEcc h ecc s).bridle = s.bridle := by simp [hartEcc]

/-! ### Debug -/

@[simp] theorem debugBusRead_bridle (a : Word) (s : State) :
    (debugBusRead a s).bridle = s.bridle := by simp [debugBusRead]

@[simp] theorem sbNext_bridle (s : State) : (sbNext s).bridle = s.bridle := by simp [sbNext]

@[simp] theorem sbFetch_bridle (s : State) : (sbFetch s).bridle = s.bridle := by simp [sbFetch]

@[simp] theorem cmdFail_bridle (e : Nat) (s : State) : (cmdFail e s).bridle = s.bridle := by simp [cmdFail]

@[simp] theorem dmiRead_bridle (a : Nat) (s : State) : (dmiRead a s).bridle = s.bridle := by simp [dmiRead]

/-! ### Latigo -/

@[simp] theorem latSend_bridle (f : LatFrame) (s : State) : (latSend f s).bridle = s.bridle := by
  unfold latSend; (repeat' split) <;> simp

@[simp] theorem latClose_bridle (c : Nat) (s : State) : (latClose c s).bridle = s.bridle := by simp [latClose]

theorem execLatigoConnect_bridle (h : TlsHello) (s s' : State) (ht : execLatigoConnect h s = .next s') :
    s'.bridle = s.bridle := by
  cases ht; (repeat' split) <;> simp

@[simp] theorem latReply_bridle (c op : Nat) (r : LatigoReq) (st : Status) (d : List Byte) (s : State) :
    (latReply c op r st d s).bridle = s.bridle := by simp [latReply]

@[simp] theorem onConn_bridle (c : Nat) (f : Conn → State → State) (s : State) (h_f : ∀ x0 t, (f x0 t).bridle = t.bridle) :
    (onConn c f s).bridle = s.bridle := by
  unfold onConn; (repeat' split) <;> simp [*]

@[simp] theorem onFrame_bridle (c : Nat) (f : Conn → State → State) (s : State) (h_f : ∀ x0 t, (f x0 t).bridle = t.bridle) :
    (onFrame c f s).bridle = s.bridle := by
  unfold onFrame; (repeat' split) <;> simp [*]

theorem execLatigoRead_bridle (c : Fin 16) (r : LatigoReq) (s s' : State) (ht : execLatigoRead c r s = .next s') :
    s'.bridle = s.bridle := by
  cases ht; simp

theorem execLatigoSubscribe_bridle (c : Fin 16) (r : LatigoReq) (interval : Nat) (s s' : State) (ht : execLatigoSubscribe c r interval s = .next s') :
    s'.bridle = s.bridle := by
  cases ht; simp

@[simp] theorem latPlain_bridle (c op : Nat) (id : Word) (st : Status) (s : State) :
    (latPlain c op id st s).bridle = s.bridle := by simp [latPlain]

theorem execLatigoUnsubscribe_bridle (c : Fin 16) (id : Word) (s s' : State) (ht : execLatigoUnsubscribe c id s = .next s') :
    s'.bridle = s.bridle := by
  cases ht; simp

theorem execLatigoKeepalive_bridle (c : Fin 16) (id : Word) (s s' : State) (ht : execLatigoKeepalive c id s = .next s') :
    s'.bridle = s.bridle := by
  cases ht; simp

@[simp] theorem State.updSub_bridle (s : State) (c : Nat) (id : Word) (f : LatSub → LatSub) :
    (State.updSub s c id f).bridle = s.bridle := by simp [State.updSub]

@[simp] theorem latNotify_bridle (c : Nat) (u : LatSub) (st : Status) (co : Bool) (v : List Byte) (s : State) :
    (latNotify c u st co v s).bridle = s.bridle := by simp [latNotify]

@[simp] theorem notifyValue_bridle (c : Nat) (u : LatSub) (atEnd : Bool) (v : List Byte) (s : State) :
    (notifyValue c u atEnd v s).bridle = s.bridle := by simp [notifyValue]

theorem execLatigoNotify_bridle (c : Fin 16) (id : Word) (intervalEnd : Bool) (s s' : State) (ht : execLatigoNotify c id intervalEnd s = .next s') :
    s'.bridle = s.bridle := by
  unfold execLatigoNotify at ht
  have ht := Host.Outcome.next.inj ht; subst ht
  refine onConn_bridle _ _ _ (fun x t => ?_)
  dsimp only
  split
  · rfl
  · rename_i u e
    have k := serveRead_bridle { via := Via.latigo c, role := x.role, handle := u.handle, serial := u.serial } u.idx u.sub t
    split
    · simpa using k
    · simpa using k
    · rfl

theorem execLatigoBadFrame_bridle (c : Fin 16) (h : LatHead) (s s' : State) (ht : execLatigoBadFrame c h s = .next s') :
    s'.bridle = s.bridle := by
  cases ht; simp

theorem execLatigoIdleTimeout_bridle (c : Fin 16) (s s' : State) (ht : execLatigoIdleTimeout c s = .next s') :
    s'.bridle = s.bridle := by
  unfold execLatigoIdleTimeout at ht
  have ht := Host.Outcome.next.inj ht; subst ht
  exact onConn_bridle _ _ _ (fun x t => by split; exact latClose_bridle _ _; rfl)

theorem execLatigoCertExpiry_bridle (c : Fin 16) (s s' : State) (ht : execLatigoCertExpiry c s = .next s') :
    s'.bridle = s.bridle := by
  cases ht; simp

theorem execLatigoClose_bridle (c : Fin 16) (s s' : State) (ht : execLatigoClose c s = .next s') :
    s'.bridle = s.bridle := by
  cases ht; simp

/-! ### Ports -/

@[simp] theorem ipTaken_bridle (port : Nat) (s : State) : (ipTaken port s).bridle = s.bridle := by simp [ipTaken]

@[simp] theorem linkChange_bridle (port : Nat) (up : Bool) (s : State) :
    (linkChange port up s).bridle = s.bridle := by simp [linkChange]

theorem execEthernetLinkChange_bridle (port : Fin 2) (up : Bool) (s s' : State) (ht : execEthernetLinkChange port up s = .next s') :
    s'.bridle = s.bridle := by
  cases ht; simp

theorem execGpioEdge_bridle (n : Fin 32) (s s' : State) (ht : execGpioEdge n s = .next s') : s'.bridle = s.bridle := by
  cases ht; simp

@[simp] theorem skvTimeout_bridle (s : State) : (skvTimeout s).bridle = s.bridle := by
  unfold skvTimeout; (repeat' split) <;> simp

@[simp] theorem sealedTimeout_bridle (s : State) : (sealedTimeout s).bridle = s.bridle := by
  unfold sealedTimeout; (repeat' split) <;> simp

@[simp] theorem canTimeout_bridle (s : State) : (canTimeout s).bridle = s.bridle := by simp [canTimeout]

@[simp] theorem girthTimeout_bridle (s : State) : (girthTimeout s).bridle = s.bridle := by
  unfold girthTimeout; (repeat' split) <;> simp

/-! ### Start -/

@[simp] theorem bootStop_bridle (step : Nat) (st : Status) (s : State) :
    (bootStop step st s).bridle = s.bridle := by simp [bootStop]

@[simp] theorem atStep_bridle (warm : Bool) (n : Nat) (s : State) :
    (atStep warm n s).bridle = s.bridle := by simp [atStep]

@[simp] theorem bootMeasure_bridle (k : Nat) (h : BitVec 384) (s : State) :
    (bootMeasure k h s).bridle = s.bridle := by simp [bootMeasure]

@[simp] theorem bootRomRun_bridle (boot : BitVec 4) (b : BootChecks) (s : State) :
    (bootRomRun boot b s).2.bridle = s.bridle := by
  unfold bootRomRun; dsimp only; (repeat' split) <;> simp

@[simp] theorem chooseWrap_bridle (s : State) : (chooseWrap s).bridle = s.bridle := by simp [chooseWrap]

@[simp] theorem tackStart_bridle (s : State) : (tackStart s).bridle = s.bridle := by simp [tackStart]

@[simp] theorem loadEngine_bridle (e : Nat) (s : State) : (loadEngine e s).bridle = s.bridle := by simp [loadEngine]

@[simp] theorem loadFailed_bridle (e : Nat) (s : State) : (loadFailed e s).bridle = s.bridle := by simp [loadFailed]

@[simp] theorem loadEngines_bridle (ok : BitVec 9) (s : State) :
    (loadEngines ok s).bridle = s.bridle := by simp [loadEngines]

@[simp] theorem readObjects_bridle (b : BootChecks) (s : State) :
    (readObjects b s).bridle = s.bridle := by simp [readObjects]

@[simp] theorem applyStored_bridle (s : State) : (applyStored s).bridle = s.bridle := by simp [applyStored]

@[simp] theorem bootHeartbeat_bridle (s : State) : (bootHeartbeat s).bridle = s.bridle := by simp [bootHeartbeat]

@[simp] theorem serveObjects_bridle (warm : Bool) (s : State) :
    (serveObjects warm s).bridle = s.bridle := by simp [serveObjects]

/-! ### Supplies -/

theorem execVanaTrip_bridle (s s' : State) (ht : execVanaTrip s = .next s') : s'.bridle = s.bridle := by
  cases ht; simp

theorem execVanaRelease_bridle (s s' : State) (ht : execVanaRelease s = .next s') : s'.bridle = s.bridle := by
  cases ht; simp

@[simp] theorem vloadFrame_bridle (s : State) : (vloadFrame s).bridle = s.bridle := by simp [vloadFrame]

@[simp] theorem vloadTrip_bridle (s : State) : (vloadTrip s).bridle = s.bridle := by simp [vloadTrip]

theorem execVloadTrip_bridle (_over : Bool) (s s' : State) (ht : execVloadTrip _over s = .next s') :
    s'.bridle = s.bridle := by
  unfold execVloadTrip at ht
  have ht := Host.Outcome.next.inj ht; subst ht
  first
  | ((repeat' split) <;> simp; done)
  | (dsimp only; done)
  | (dsimp only; (repeat' split) <;> simp; done)
  | (dsimp only; (repeat' split) <;> simp [*]; done)
  | ((repeat' split) <;> simp [*]; done)
  | exact whenDie_bridle _ _ (fun t => by first | (dsimp only; (repeat' split) <;> simp [*]; done) | (simp; (repeat' split) <;> simp; done))
  | (split <;> first | rfl | exact whenDie_bridle _ _ (fun t => by dsimp only; (repeat' split) <;> simp [*]))

theorem execVloadRelease_bridle (s s' : State) (ht : execVloadRelease s = .next s') : s'.bridle = s.bridle := by
  cases ht; simp

@[simp] theorem pilSupplyFault_bridle (p : Nat) (s : State) :
    (pilSupplyFault p s).bridle = s.bridle := by simp [pilSupplyFault]

@[simp] theorem pilotSupplyRelease_bridle (neg : Bool) (s : State) :
    (pilotSupplyRelease neg s).bridle = s.bridle := by simp [pilotSupplyRelease]

theorem execPilotSupplyRelease_bridle (neg : Bool) (s s' : State) (ht : execPilotSupplyRelease neg s = .next s') :
    s'.bridle = s.bridle := by
  unfold execPilotSupplyRelease at ht
  have ht := Host.Outcome.next.inj ht; subst ht
  first
  | ((repeat' split) <;> simp; done)
  | (dsimp only; done)
  | (dsimp only; (repeat' split) <;> simp; done)
  | (dsimp only; (repeat' split) <;> simp [*]; done)
  | ((repeat' split) <;> simp [*]; done)
  | exact whenDie_bridle _ _ (fun t => by first | (dsimp only; (repeat' split) <;> simp [*]; done) | (simp; (repeat' split) <;> simp; done))
  | (split <;> first | rfl | exact whenDie_bridle _ _ (fun t => by dsimp only; (repeat' split) <;> simp [*]))

@[simp] theorem vdrvTrip_bridle (s : State) : (vdrvTrip s).bridle = s.bridle := by simp [vdrvTrip]

theorem execVdrvTrip_bridle (s s' : State) (ht : execVdrvTrip s = .next s') : s'.bridle = s.bridle := by
  cases ht; simp

theorem execVdrvRelease_bridle (s s' : State) (ht : execVdrvRelease s = .next s') : s'.bridle = s.bridle := by
  cases ht; simp

@[simp] theorem panelPowerFail_bridle (m : Nat) (s : State) :
    (panelPowerFail m s).bridle = s.bridle := by simp [panelPowerFail]

@[simp] theorem dieWarned_bridle (s : State) : (dieWarned s).bridle = s.bridle := by simp [dieWarned]

theorem execPowerFailWarning_bridle (s s' : State) (ht : execPowerFailWarning s = .next s') : s'.bridle = s.bridle := by
  cases ht; simp

theorem execPowerFailRelease_bridle (s s' : State) (ht : execPowerFailRelease s = .next s') : s'.bridle = s.bridle := by
  cases ht; simp

@[simp] theorem dieReset_bridle (s : State) : (dieReset s).bridle = s.bridle := by simp [dieReset]

theorem execSealedSupplyTrip_bridle (_vmio : Bool) (s s' : State) (ht : execSealedSupplyTrip _vmio s = .next s') :
    s'.bridle = s.bridle := by
  cases ht; simp

theorem execSealedWatchdogExpiry_bridle (s s' : State) (ht : execSealedWatchdogExpiry s = .next s') :
    s'.bridle = s.bridle := by
  cases ht; simp

@[simp] theorem vbatSample_bridle (mv : Nat) (s : State) : (vbatSample mv s).bridle = s.bridle := by simp [vbatSample]

theorem execVbatSample_bridle (mv : Nat) (s s' : State) (ht : execVbatSample mv s = .next s') :
    s'.bridle = s.bridle := by
  cases ht; simp

theorem execLegalClockStop_bridle (s s' : State) (ht : execLegalClockStop s = .next s') : s'.bridle = s.bridle := by
  cases ht; simp

theorem execMetrologyRefFail_bridle (s s' : State) (ht : execMetrologyRefFail s = .next s') : s'.bridle = s.bridle := by
  cases ht; simp

theorem execMetrologyRefReturn_bridle (s s' : State) (ht : execMetrologyRefReturn s = .next s') :
    s'.bridle = s.bridle := by
  cases ht; simp

theorem execLegalCrystalFail_bridle (s s' : State) (ht : execLegalCrystalFail s = .next s') : s'.bridle = s.bridle := by
  cases ht; simp

/-! ### Tick -/

@[simp] theorem pilRebuild_bridle (s : State) : (pilRebuild s).bridle = s.bridle := by simp [pilRebuild]

@[simp] theorem tickEngine_bridle (e : Nat) (s : State) : (tickEngine e s).bridle = s.bridle := by
  unfold tickEngine; (repeat' split) <;> simp

@[simp] theorem tickApp_bridle (s : State) : (tickApp s).bridle = s.bridle := by simp [tickApp]

@[simp] theorem tickLegal_bridle (s : State) : (tickLegal s).bridle = s.bridle := by simp [tickLegal]

@[simp] theorem tickPsq_bridle (s : State) : (tickPsq s).bridle = s.bridle := by
  unfold tickPsq; (repeat' split) <;> simp

@[simp] theorem tickMeas_bridle (s : State) : (tickMeas s).bridle = s.bridle := by simp [tickMeas]

@[simp] theorem tickVcan_bridle (s : State) : (tickVcan s).bridle = s.bridle := by simp [tickVcan]

@[simp] theorem tickPlc_bridle (s : State) : (tickPlc s).bridle = s.bridle := by simp [tickPlc]

/-! ### Step -/

@[simp] theorem State.withFetchWord_bridle (s : State) (_nbits _w : Nat) :
    (State.withFetchWord s _nbits _w).bridle = s.bridle := by simp [State.withFetchWord]

end Sys2Proof.Machine
end

