-- ==== Sys2Proof/Laws/KeepsDie.lean ====
section
/-!
SUPPORT. Functions of the model, and commands, that leave the sealed die as it was.
-/
set_option Elab.async false
set_option linter.all false
namespace Sys2Proof.Machine

/-! ### Ops -/

@[simp] theorem foldl_die {α : Type} (g : State → α → State) (h : ∀ t x, (g t x).die = t.die) (l : List α) (s : State) :
    (l.foldl g s).die = s.die := by
  induction l generalizing s with
  | nil => rfl
  | cons a l ih => simp [ih, h]

@[simp] theorem ite_die (c : Prop) [Decidable c] (a b : State) :
    (if c then a else b).die = if c then a.die else b.die := by split <;> rfl

theorem ite2_die {α : Type} (c : Prop) [Decidable c] (a b : α × State) (s : State) (ha : c → a.2.die = s.die) (hb : ¬c → b.2.die = s.die) :
    (if c then a else b).2.die = s.die := by split <;> simp_all

@[simp] theorem State.used_die (s : State) : (State.used s).die = s.die := by simp [State.used]

@[simp] theorem State.setByte_die (s : State) (a : Nat) (b : Byte) :
    (State.setByte s a b).die = s.die := by simp [State.setByte]

@[simp] theorem State.setBytes_die (s : State) (a : Nat) (l : List Byte) : (s.setBytes a l).die = s.die := by
  induction l generalizing s a with
  | nil => rfl
  | cons b r ih => simp [State.setBytes, ih]

@[simp] theorem State.setNum_die (s : State) (a n v : Nat) :
    (State.setNum s a n v).die = s.die := by simp [State.setNum]

@[simp] theorem State.updSrc_die (s : State) (n : Nat) (f : BklSrc → BklSrc) :
    (State.updSrc s n f).die = s.die := by simp [State.updSrc]

@[simp] theorem pmcAdd_die (n i k : Nat) (s : State) : (pmcAdd n i k s).die = s.die := by
  induction n generalizing i k s with
  | zero => rfl
  | succ n ih => simp only [pmcAdd]; (repeat' split) <;> simp [ih]

@[simp] theorem countEvents_die (group idx k : Nat) (s : State) :
    (countEvents group idx k s).die = s.die := by simp [countEvents]

@[simp] theorem raise_die (n : Nat) (s : State) : (raise n s).die = s.die := by simp [raise]

@[simp] theorem setLevel_die (n : Nat) (b : Bool) (s : State) : (setLevel n b s).die = s.die := by simp [setLevel]

@[simp] theorem laneRaise_die (n : Nat) (s : State) : (laneRaise n s).die = s.die := by simp [laneRaise]

@[simp] theorem State.updCtx_die (s : State) (slot : Nat) (f : Ctx → Ctx) :
    (State.updCtx s slot f).die = s.die := by simp [State.updCtx]

@[simp] theorem State.updEng_die (s : State) (e : Nat) (f : Engine → Engine) :
    (State.updEng s e f).die = s.die := by simp [State.updEng]

@[simp] theorem syncCtx_die (slot : Nat) (s : State) : (syncCtx slot s).die = s.die := by simp [syncCtx]

@[simp] theorem postClass_die (slot k : Nat) (s : State) : (postClass slot k s).die = s.die := by simp [postClass]

@[simp] theorem girthEnd_die (f : GirthReq → Bool) (part : Bool) (s : State) :
    (girthEnd f part s).die = s.die := by simp [girthEnd]

@[simp] theorem girthUnitOff_die (kind unit : Nat) (s : State) :
    (girthUnitOff kind unit s).die = s.die := by simp [girthUnitOff]

@[simp] theorem girthTransientEnd_die (kind unit : Nat) (s : State) :
    (girthTransientEnd kind unit s).die = s.die := by simp [girthTransientEnd]

@[simp] theorem girthWithdraw_die (f : GirthReq → Bool) (s : State) :
    (girthWithdraw f s).die = s.die := by simp [girthWithdraw]

@[simp] theorem withdrawRestart_die (kind unit : Nat) (s : State) :
    (withdrawRestart kind unit s).die = s.die := by simp [withdrawRestart]

@[simp] theorem busOk_die (v : Word) (s : State) : (busOk v s).die = s.die := by simp [busOk]

@[simp] theorem busFail_die (s : State) : (busFail s).die = s.die := by simp [busFail]

/-! ### LinkOps -/

@[simp] theorem linkCount_die (d : Side) (idx k : Nat) (s : State) : (linkCount d idx k s).die = s.die := by
  unfold linkCount; (repeat' split) <;> simp

@[simp] theorem linkOffer_die (c : Nat) (k : Word) (p : List Byte) (s : State) :
    (linkOffer .control c k p s).die = s.die := by
  have f : ∀ n t, (linkFlush .control n t).die = t.die := by
    intro n; induction n with
    | zero => intro t; rfl
    | succ n ih => intro t; simp only [linkFlush]; (repeat' split) <;> simp [ih, linkCount, State.updLink]
  unfold linkOffer; split
  · rfl
  · rw [f]; rfl

/-! ### SealedOps -/

@[simp] theorem whenDie_die (f : State → State) (s : State) (h_f : ∀  t, (f  t).die = t.die) :
    (whenDie f s).die = s.die := by
  unfold whenDie; (repeat' split) <;> simp [*]

/-! ### PowerOps -/

@[simp] theorem State.updOut_die (s : State) (x : Nat) (f : Output → Output) :
    (State.updOut s x f).die = s.die := by simp [State.updOut]

@[simp] theorem outEvt_die (x i : Nat) (s : State) : (outEvt x i s).die = s.die := by simp [outEvt]

@[simp] theorem outTo_die (x : Nat) (st : OutSt) (s : State) : (outTo x st s).die = s.die := by simp [outTo]

@[simp] theorem outHold_die (x : Nat) (s : State) : (outHold x s).die = s.die := by simp [outHold]

@[simp] theorem outRelease_die (x : Nat) (s : State) : (outRelease x s).die = s.die := by simp [outRelease]

@[simp] theorem outLatch_die (x cause : Nat) (s : State) : (outLatch x cause s).die = s.die := by simp [outLatch]

@[simp] theorem outWaitLatch_die (x : Nat) (s : State) : (outWaitLatch x s).die = s.die := by simp [outWaitLatch]

@[simp] theorem outWaitLatchAll_die (s : State) : (outWaitLatchAll s).die = s.die := by simp [outWaitLatchAll]

@[simp] theorem outVload_die (x : Nat) (s : State) : (outVload x s).die = s.die := by simp [outVload]

@[simp] theorem State.updPil_die (s : State) (p : Nat) (f : PilotPt → PilotPt) :
    (State.updPil s p f).die = s.die := by simp [State.updPil]

@[simp] theorem pilEvt_die (p i : Nat) (s : State) : (pilEvt p i s).die = s.die := by simp [pilEvt]

@[simp] theorem countPt_die (p : Nat) (f : PtCount → PtCount) (s : State) :
    (countPt p f s).die = s.die := by simp [countPt]

@[simp] theorem pilGo_die (p : Nat) (st : PilSt) (s : State) : (pilGo p st s).die = s.die := by simp [pilGo]

@[simp] theorem pilStart_die (p : Nat) (s : State) : (pilStart p s).die = s.die := by simp [pilStart]

@[simp] theorem pilDriveF_die (held : Bool) (p : Nat) (s : State) :
    (pilDriveF held p s).die = s.die := by simp [pilDriveF]

@[simp] theorem pilToX1_die (p : Nat) (s : State) : (pilToX1 p s).die = s.die := by simp [pilToX1]

@[simp] theorem pilRelease_die (p : Nat) (s : State) : (pilRelease p s).die = s.die := by simp [pilRelease]

@[simp] theorem pilRailBack_die (p : Nat) (s : State) : (pilRailBack p s).die = s.die := by simp [pilRailBack]

@[simp] theorem psqSelfRelease_die (s : State) : (psqSelfRelease s).die = s.die := by simp [psqSelfRelease]

@[simp] theorem safeReport_die (s : State) : (safeReport s).die = s.die := by simp [safeReport]

@[simp] theorem safeLatches_die (s : State) : (safeLatches s).die = s.die := by simp [safeLatches]

@[simp] theorem safeEnter_die (s : State) : (safeEnter s).die = s.die := by simp [safeEnter]

@[simp] theorem seqSet_die (k : Nat) (d2 on : Bool) (s : State) : (seqSet k d2 on s).die = s.die := by simp [seqSet]

/-! ### BridleOps -/

@[simp] theorem State.updBp_die (s : State) (p : Nat) (f : BrPt → BrPt) :
    (State.updBp s p f).die = s.die := by simp [State.updBp]

@[simp] theorem bridleStatus_die (s : State) : (bridleStatus s).die = s.die := by simp [bridleStatus]

@[simp] theorem note_die (kind unit : Nat) (data : Word) (s : State) :
    (note kind unit data s).die = s.die := by simp [note]

@[simp] theorem syncOut_die (x : Nat) (s : State) : (syncOut x s).die = s.die := by simp [syncOut]

@[simp] theorem syncPilot_die (p : Nat) (s : State) : (syncPilot p s).die = s.die := by simp [syncPilot]

@[simp] theorem syncPoint_die (p : Nat) (s : State) : (syncPoint p s).die = s.die := by simp [syncPoint]

@[simp] theorem setCause_die (p : Nat) (c : HoldCause) (s : State) : (setCause p c s).die = s.die := by simp [setCause]

@[simp] theorem clearCause_die (p : Nat) (c : HoldCause) (s : State) :
    (clearCause p c s).die = s.die := by simp [clearCause]

@[simp] theorem resendHolds_die (s : State) : (resendHolds s).die = s.die := by simp [resendHolds]

/-! ### GirthOps -/

@[simp] theorem girthAccept_die (port : Nat) (ctx : Option Nat) (kind unit hold : Nat) (s : State) :
    (girthAccept port ctx kind unit hold s).2.1.die = s.die := by
  unfold girthAccept; dsimp only; (repeat' split) <;> simp

@[simp] theorem girthSubmit_die (port : Nat) (ctx : Option Nat) (kind unit hold : Nat) (s : State) :
    (girthSubmit port ctx kind unit hold s).2.die = s.die := by simp [girthSubmit]

@[simp] theorem girthUsed_die (port : Nat) (ctx : Option Nat) (kind : Nat) (s : State) :
    (girthUsed port ctx kind s).die = s.die := by
  unfold girthUsed; dsimp only; (repeat' split) <;> simp

theorem girthRun_die (port : Nat) (l : List Nat) (s t : State) (h : girthRun port l s = some t) : t.die = s.die := by
  induction l generalizing s with
  | nil => cases h; rfl
  | cons k r ih =>
    unfold girthRun at h
    split at h
    · rw [ih _ h]; simp
    · cases h

@[simp] theorem underGrants_die (port : Nat) (kinds : List Nat) (f : State → Status × State) (s : State) (h_f : ∀  t, (f  t).2.die = t.die) :
    (underGrants port kinds f s).2.die = s.die := by
  unfold underGrants
  dsimp only
  split
  · exact h_f s
  · split
    · rfl
    · rename_i e; rw [h_f]; exact girthRun_die _ _ _ _ e

@[simp] theorem girthOrphan_die (slot : Nat) (s : State) : (girthOrphan slot s).die = s.die := by simp [girthOrphan]

/-! ### Outputs -/

@[simp] theorem powerWrite_die (f : State → State) (s : State) (h_f : ∀  t, (f  t).die = t.die) :
    (powerWrite f s).die = s.die := by
  unfold powerWrite; (repeat' split) <;> simp [*]

@[simp] theorem outIgnore_die (x : Nat) (s : State) : (outIgnore x s).die = s.die := by simp [outIgnore]

@[simp] theorem outStart_die (x : Nat) (s : State) : (outStart x s).die = s.die := by simp [outStart]

@[simp] theorem outIgnoreOff_die (x : Nat) (s : State) : (outIgnoreOff x s).die = s.die := by simp [outIgnoreOff]

@[simp] theorem outOn_die (x : Nat) (s : State) : (outOn x s).die = s.die := by simp [outOn]

@[simp] theorem outRestart_die (x : Nat) (s : State) : (outRestart x s).die = s.die := by
  have h := girthAccept_die restartPort none (outGirthKind x) (outUnit x) 0 s
  unfold outRestart
  split
  · rename_i e; rw [e] at h; simpa using h
  · rfl
  · simp

@[simp] theorem outRestartDue_die (x : Nat) (s : State) : (outRestartDue x s).die = s.die := by simp [outRestartDue]

@[simp] theorem outSwitchOff_die (x : Nat) (s : State) : (outSwitchOff x s).die = s.die := by simp [outSwitchOff]

@[simp] theorem outFirmware_die (x : Nat) (f : State → State) (s : State) (h_f : ∀  t, (f  t).die = t.die) :
    (outFirmware x f s).die = s.die := by
  unfold outFirmware; (repeat' split) <;> simp [*]

@[simp] theorem outCmdOff_die (x : Nat) (s : State) : (outCmdOff x s).die = s.die := by simp [outCmdOff]

theorem execOutputOff_die (x : Fin 96) (s s' : State) (ht : execOutputOff x s = .next s') : s'.die = s.die := by
  cases ht; simp

@[simp] theorem outClear_die (x : Nat) (s : State) : (outClear x s).die = s.die := by simp [outClear]

@[simp] theorem outCmdClear_die (x : Nat) (s : State) : (outCmdClear x s).die = s.die := by simp [outCmdClear]

theorem execOutputClear_die (x : Fin 96) (s s' : State) (ht : execOutputClear x s = .next s') : s'.die = s.die := by
  cases ht; simp

@[simp] theorem outTest_die (x : Nat) (sampleMv meanMa : Int) (s : State) :
    (outTest x sampleMv meanMa s).die = s.die := by
  unfold outTest; dsimp only; (repeat' split) <;> simp

theorem execOutputTestPulse_die (x : Fin 96) (sampleMv meanMa : Int) (s s' : State) (ht : execOutputTestPulse x sampleMv meanMa s = .next s') :
    s'.die = s.die := by
  cases ht; simp

theorem execOutputTestPeriod_die (x : Fin 96) (sampleMv meanMa : Int) (s s' : State) (ht : execOutputTestPeriod x sampleMv meanMa s = .next s') :
    s'.die = s.die := by
  cases ht; simp

theorem execCoilPullInEnd_die (n : Fin 64) (s s' : State) (ht : execCoilPullInEnd n s = .next s') : s'.die = s.die := by
  cases ht; simp

theorem execOutputCurrentLimit_die (x : Fin 96) (s s' : State) (ht : execOutputCurrentLimit x s = .next s') :
    s'.die = s.die := by
  cases ht; simp

theorem execOutputLimitExit_die (x : Fin 96) (s s' : State) (ht : execOutputLimitExit x s = .next s') :
    s'.die = s.die := by
  cases ht; simp

theorem execOutputThermalTrip_die (x : Fin 96) (s s' : State) (ht : execOutputThermalTrip x s = .next s') :
    s'.die = s.die := by
  cases ht; simp

theorem execOutputRestartLevel_die (x : Fin 96) (s s' : State) (ht : execOutputRestartLevel x s = .next s') :
    s'.die = s.die := by
  cases ht; simp

theorem execOutputRestartRetry_die (x : Fin 96) (s s' : State) (ht : execOutputRestartRetry x s = .next s') :
    s'.die = s.die := by
  cases ht; simp

theorem execRetryWindowExpiry_die (x : Fin 96) (s s' : State) (ht : execRetryWindowExpiry x s = .next s') :
    s'.die = s.die := by
  cases ht; simp

theorem execOutputWarningBand_die (b : BandChange) (s s' : State) (ht : execOutputWarningBand b s = .next s') :
    s'.die = s.die := by
  cases ht; (repeat' split) <;> simp

theorem execOutputSumOver_die (sum : Nat) (s s' : State) (ht : execOutputSumOver sum s = .next s') :
    s'.die = s.die := by
  cases ht; simp

@[simp] theorem outCfgWrite_die (x : Nat) (v : Word) (s : State) :
    (outCfgWrite x v s).die = s.die := by simp [outCfgWrite]

theorem execOutputCfgWrite_die (x : Fin 96) (v : Word) (s s' : State) (ht : execOutputCfgWrite x v s = .next s') :
    s'.die = s.die := by
  cases ht; simp

@[simp] theorem outProtWrite_die (v : Word) (s : State) : (outProtWrite v s).die = s.die := by simp [outProtWrite]

theorem execOutProtWrite_die (v : Word) (s s' : State) (ht : execOutProtWrite v s = .next s') : s'.die = s.die := by
  cases ht; simp

/-! ### Pilot -/

@[simp] theorem pilWakeReq_die (p : Nat) (s : State) : (pilWakeReq p s).die = s.die := by simp [pilWakeReq]

@[simp] theorem pilCommand_die (p : Nat) (v : Word) (s : State) : (pilCommand p v s).die = s.die := by simp [pilCommand]

theorem execPilotCommand_die (p : Fin 64) (v : Word) (s s' : State) (ht : execPilotCommand p v s = .next s') :
    s'.die = s.die := by
  cases ht; simp

theorem execPilotWake_die (p : Fin 64) (v : Word) (s s' : State) (ht : execPilotWake p v s = .next s') :
    s'.die = s.die := by
  cases ht; simp

@[simp] theorem pilAfterMode_die (p : Nat) (s : State) : (pilAfterMode p s).die = s.die := by simp [pilAfterMode]

@[simp] theorem pilNone_die (p : Nat) (s : State) : (pilNone p s).die = s.die := by simp [pilNone]

@[simp] theorem pilPeriod_die (p : Nat) (s : State) : (pilPeriod p s).die = s.die := by simp [pilPeriod]

theorem execPilotWakeEnd_die (p : Fin 64) (s s' : State) (ht : execPilotWakeEnd p s = .next s') : s'.die = s.die := by
  cases ht; simp

theorem execPilotPeriodTrim_die (periodNs : Nat) (s s' : State) (ht : execPilotPeriodTrim periodNs s = .next s') :
    s'.die = s.die := by
  cases ht; simp

@[simp] theorem pilFault_die (p : Nat) (st : PilSt) (evt : Nat) (cause : BitVec 3) (s : State) :
    (pilFault p st evt cause s).die = s.die := by simp [pilFault]

@[simp] theorem pilPositive_die (p : Nat) (mv : List Int) (s : State) :
    (pilPositive p mv s).die = s.die := by simp [pilPositive]

@[simp] theorem pilNegative_die (p : Nat) (mv : List Int) (s : State) :
    (pilNegative p mv s).die = s.die := by simp [pilNegative]

theorem execPilotPlateauEvaluation_die (p : Fin 64) (neg : Bool) (samples : List PilSample) (s s' : State) (ht : execPilotPlateauEvaluation p neg samples s = .next s') :
    s'.die = s.die := by
  cases ht; simp

@[simp] theorem pilotFaultFrame_die (p : Nat) (s : State) :
    (pilotFaultFrame p s).die = s.die := by simp [pilotFaultFrame]

theorem execPilotFaultFrame_die (p : Fin 64) (_cause : Fin 3) (s s' : State) (ht : execPilotFaultFrame p _cause s = .next s') :
    s'.die = s.die := by
  cases ht; simp

theorem execOffWaitExpiry_die (p : Fin 64) (s s' : State) (ht : execOffWaitExpiry p s = .next s') : s'.die = s.die := by
  cases ht; simp

@[simp] theorem proxMeasure_die (p : Nat) (v1 v2 : Int) (s : State) :
    (proxMeasure p v1 v2 s).die = s.die := by simp [proxMeasure]

theorem execProximityMeasurement_die (p : Fin 64) (v1 v2 : Int) (s s' : State) (ht : execProximityMeasurement p v1 v2 s = .next s') :
    s'.die = s.die := by
  cases ht; simp

@[simp] theorem pilCfgWrite_die (p : Nat) (v : Word) (s : State) :
    (pilCfgWrite p v s).die = s.die := by simp [pilCfgWrite]

@[simp] theorem pilRsrcWrite_die (p : Nat) (v : Word) (s : State) :
    (pilRsrcWrite p v s).die = s.die := by simp [pilRsrcWrite]

theorem execPilotCfgWrite_die (p : Fin 64) (rsrc : Bool) (v : Word) (s s' : State) (ht : execPilotCfgWrite p rsrc v s = .next s') :
    s'.die = s.die := by
  cases ht; simp

@[simp] theorem pilTsRead_die (port p : Nat) (s : State) : (pilTsRead port p s).die = s.die := by simp [pilTsRead]

theorem execPilTsRead_die (port : Fin 24) (p : Fin 64) (s s' : State) (ht : execPilTsRead port p s = .next s') :
    s'.die = s.die := by
  cases ht; simp

/-! ### Bridle -/

@[simp] theorem stoSet_die (n : Nat) (on : Bool) (s : State) : (stoSet n on s).die = s.die := by simp [stoSet]

@[simp] theorem stoFault_die (n : Nat) (s : State) : (stoFault n s).die = s.die := by simp [stoFault]

@[simp] theorem State.updDev_die (s : State) (d : Nat) (f : Device → Device) :
    (State.updDev s d f).die = s.die := by simp [State.updDev]

@[simp] theorem syncDevice_die (d : Nat) (s : State) : (syncDevice d s).die = s.die := by simp [syncDevice]

@[simp] theorem devGo_die (d : Nat) (st : DevSt) (s : State) : (devGo d st s).die = s.die := by simp [devGo]

@[simp] theorem devOff_die (d : Nat) (s : State) : (devOff d s).die = s.die := by simp [devOff]

@[simp] theorem devFault_die (d cause : Nat) (s : State) : (devFault d cause s).die = s.die := by simp [devFault]

@[simp] theorem devInputs_die (d : Nat) (s : State) : (devInputs d s).die = s.die := by
  unfold devInputs; (repeat' split) <;> simp

@[simp] theorem devStop_die (d : Nat) (s : State) : (devStop d s).die = s.die := by simp [devStop]

@[simp] theorem groupStop_die (g : Nat) (s : State) : (groupStop g s).die = s.die := by simp [groupStop]

@[simp] theorem groupRun_die (g : Nat) (s : State) : (groupRun g s).die = s.die := by simp [groupRun]

@[simp] theorem evalGroup_die (g : Nat) (s : State) : (evalGroup g s).die = s.die := by simp [evalGroup]

@[simp] theorem evalGroups_die (s : State) : (evalGroups s).die = s.die := by simp [evalGroups]

@[simp] theorem edgeDevice_die (d : Nat) (s : State) : (edgeDevice d s).die = s.die := by simp [edgeDevice]

@[simp] theorem edgePair_die (i : Nat) (s : State) : (edgePair i s).die = s.die := by
  unfold edgePair; dsimp only; (repeat' split) <;> simp

@[simp] theorem edgePoint_die (p : Nat) (s : State) : (edgePoint p s).die = s.die := by simp [edgePoint]

@[simp] theorem edgeGroup_die (g : Nat) (s : State) : (edgeGroup g s).die = s.die := by simp [edgeGroup]

@[simp] theorem resetEdge_die (groups : BitVec 16) (devs : BitVec 8) (unit : Nat) (s : State) :
    (resetEdge groups devs unit s).die = s.die := by simp [resetEdge]

@[simp] theorem reclaimTake_die (hi : Bool) (v : Word) (s : State) :
    (reclaimTake hi v s).die = s.die := by simp [reclaimTake]

@[simp] theorem reclaimFront_die (l : List BrMsg) (s : State) : (reclaimFront l s).die = s.die := by
  induction l generalizing s with
  | nil => rfl
  | cons m r ih => cases m <;> first | rfl | simp [reclaimFront, ih]

@[simp] theorem takeReclaims_die (s : State) : (takeReclaims s).die = s.die := by
  unfold takeReclaims
  split
  · rfl
  · exact reclaimFront_die _ _

@[simp] theorem bridleFault_die (cause : Nat) (s : State) : (bridleFault cause s).die = s.die := by simp [bridleFault]

@[simp] theorem bridleSafe_die (cause : Nat) (s : State) : (bridleSafe cause s).die = s.die := by simp [bridleSafe]

@[simp] theorem devBegin_die (d : Nat) (s : State) : (devBegin d s).die = s.die := by simp [devBegin]

@[simp] theorem bridleRun_die (c : SafCfg) (unsealed : Bool) (slot : Nat) (s : State) :
    (bridleRun c unsealed slot s).die = s.die := by simp [bridleRun]

@[simp] theorem bridleRelease_die (lockstepOk : Bool) (s : State) : (bridleRelease lockstepOk s).die = s.die := by
  unfold bridleRelease; (repeat' split) <;> simp

theorem execBridleRelease_die (lockstepOk : Bool) (s s' : State) (ht : execBridleRelease lockstepOk s = .next s') :
    s'.die = s.die := by
  cases ht; simp

theorem execLockstepMismatch_die (s s' : State) (ht : execLockstepMismatch s = .next s') : s'.die = s.die := by
  cases ht; simp

theorem execBridleWatchdogExpiry_die (s s' : State) (ht : execBridleWatchdogExpiry s = .next s') : s'.die = s.die := by
  cases ht; simp

theorem execMarchTest_die (pass : Bool) (s s' : State) (ht : execMarchTest pass s = .next s') : s'.die = s.die := by
  cases ht; simp

theorem execBridleCodeCheck_die (pass : Bool) (s s' : State) (ht : execBridleCodeCheck pass s = .next s') :
    s'.die = s.die := by
  cases ht; simp

theorem execBridleOscFail_die (s s' : State) (ht : execBridleOscFail s = .next s') : s'.die = s.die := by
  cases ht; simp

@[simp] theorem bridleRestart_die (codeOk configOk : Bool) (s : State) :
    (bridleRestart codeOk configOk s).die = s.die := by simp [bridleRestart]

theorem execBridleRestart_die (codeOk configOk : Bool) (s s' : State) (ht : execBridleRestart codeOk configOk s = .next s') :
    s'.die = s.die := by
  cases ht; simp

@[simp] theorem mirrorCheck_die (p : Nat) (s : State) : (mirrorCheck p s).die = s.die := by simp [mirrorCheck]

theorem execMirrorChange_die (p : Fin 64) (high : Bool) (s s' : State) (ht : execMirrorChange p high s = .next s') :
    s'.die = s.die := by
  cases ht; simp

theorem execMirrorOpenTimeout_die (p : Fin 64) (s s' : State) (ht : execMirrorOpenTimeout p s = .next s') :
    s'.die = s.die := by
  cases ht; simp

theorem execMirrorCloseTimeout_die (p : Fin 64) (s s' : State) (ht : execMirrorCloseTimeout p s = .next s') :
    s'.die = s.die := by
  cases ht; simp

theorem execTpStuckReport_die (n : Fin 64) (s s' : State) (ht : execTpStuckReport n s = .next s') : s'.die = s.die := by
  cases ht; simp

@[simp] theorem siReact_die (i : Nat) (was : Bool) (since : Option Nat) (s : State) :
    (siReact i was since s).die = s.die := by
  unfold siReact; dsimp only; (repeat' split) <;> simp

@[simp] theorem safetyInput_die (i : Nat) (a b : Bool) (s : State) :
    (safetyInput i a b s).die = s.die := by simp [safetyInput]

theorem execSafetyInputChange_die (i : Fin 16) (a b : Bool) (s s' : State) (ht : execSafetyInputChange i a b s = .next s') :
    s'.die = s.die := by
  cases ht; simp

theorem execSafetyInputDiscrepancy_die (i : Fin 16) (s s' : State) (ht : execSafetyInputDiscrepancy i s = .next s') :
    s'.die = s.die := by
  cases ht; simp

@[simp] theorem inputPathTest_die (u : PathUnit) (pass : Bool) (s : State) : (inputPathTest u pass s).die = s.die := by
  unfold inputPathTest; (repeat' split) <;> simp

theorem execInputPathTest_die (u : PathUnit) (pass : Bool) (s s' : State) (ht : execInputPathTest u pass s = .next s') :
    s'.die = s.die := by
  cases ht; simp

@[simp] theorem motionSample_die (d : Nat) (m : MotionSample) (s : State) :
    (motionSample d m s).die = s.die := by simp [motionSample]

@[simp] theorem motionJudge_die (d : Nat) (s : State) : (motionJudge d s).die = s.die := by
  unfold motionJudge; dsimp only; (repeat' split) <;> simp

@[simp] theorem motionMonitor_die (d : Nat) (m : MotionSample) (s : State) :
    (motionMonitor d m s).die = s.die := by simp [motionMonitor]

theorem execDeviceMotionMonitor_die (d : Fin 8) (m : MotionSample) (s s' : State) (ht : execDeviceMotionMonitor d m s = .next s') :
    s'.die = s.die := by
  cases ht; simp

@[simp] theorem ss1End_die (d : Nat) (s : State) : (ss1End d s).die = s.die := by simp [ss1End]

theorem execSs1Standstill_die (d : Fin 8) (s s' : State) (ht : execSs1Standstill d s = .next s') : s'.die = s.die := by
  cases ht; simp

theorem execSs1Timeout_die (d : Fin 8) (s s' : State) (ht : execSs1Timeout d s = .next s') : s'.die = s.die := by
  cases ht; simp

theorem execDeviceMoveTimeout_die (d : Fin 8) (s s' : State) (ht : execDeviceMoveTimeout d s = .next s') :
    s'.die = s.die := by
  cases ht; simp

theorem execStoOffPulse_die (n : Fin 8) (b readback : Bool) (s s' : State) (ht : execStoOffPulse n b readback s = .next s') :
    s'.die = s.die := by
  cases ht; simp

theorem execStoDiscrepancy_die (n : Fin 8) (s s' : State) (ht : execStoDiscrepancy n s = .next s') :
    s'.die = s.die := by
  cases ht; simp

@[simp] theorem State.updRx_die (s : State) (i : Nat) (f : SafeRx → SafeRx) :
    (State.updRx s i f).die = s.die := by simp [State.updRx]

@[simp] theorem discardPair_die (s : State) : (discardPair s).die = s.die := by simp [discardPair]

@[simp] theorem acceptPair_die (i : Nat) (c : BitVec 8) (d : Word) (s : State) : (acceptPair i c d s).die = s.die := by
  unfold acceptPair; dsimp only; (repeat' split) <;> simp

@[simp] theorem safeValue_die (i : Nat) (s : State) : (safeValue i s).die = s.die := by simp [safeValue]

@[simp] theorem safeReceive_die (i : Nat) (onF1 crcOk : Bool) (c : BitVec 8) (d : Word) (s : State) :
    (safeReceive i onF1 crcOk c d s).die = s.die := by
  unfold safeReceive; dsimp only; (repeat' split) <;> simp

theorem execSafeMessageReceive_die (i : Fin 16) (onF1 : Bool) (d : Word) (c : Byte) (x : SafeTail) (s s' : State) (ht : execSafeMessageReceive i onF1 d c x s = .next s') :
    s'.die = s.die := by
  cases ht; simp

theorem execSafeMessageWindowExpiry_die (i : Fin 16) (s s' : State) (ht : execSafeMessageWindowExpiry i s = .next s') :
    s'.die = s.die := by
  cases ht; simp

theorem execSafeMessageTimeout_die (i : Fin 16) (s s' : State) (ht : execSafeMessageTimeout i s = .next s') :
    s'.die = s.die := by
  cases ht; simp

theorem execSafeMessageTransmit_die (j : Fin 8) (s s' : State) (ht : execSafeMessageTransmit j s = .next s') :
    s'.die = s.die := by
  cases ht; simp

theorem execSafeMessageReadbackMissing_die (j : Fin 8) (onF1 : Bool) (s s' : State) (ht : execSafeMessageReadbackMissing j onF1 s = .next s') :
    s'.die = s.die := by
  cases ht; simp

@[simp] theorem bridleTake_die (ty : BitVec 8) (tag : Word) (f : State → Status × State) (s : State) (h_f : ∀  t, (f  t).2.die = t.die) :
    (bridleTake ty tag f s).die = s.die := by
  unfold bridleTake; dsimp only; (repeat' split) <;> simp [*]

@[simp] theorem newChallenge_die (s : State) : (newChallenge s).die = s.die := by simp [newChallenge]

@[simp] theorem pilotReleaseMsg_die (u : Nat) (chal : BitVec 16) (s : State) :
    (pilotReleaseMsg u chal s).2.die = s.die := by
  unfold pilotReleaseMsg; dsimp only; (repeat' split) <;> simp

theorem execPilotRelease_die (unit : BitVec 8) (chal : BitVec 16) (tag : Word) (s s' : State) (ht : execPilotRelease unit chal tag s = .next s') :
    s'.die = s.die := by
  cases ht; simp

@[simp] theorem earthDrop_die (p : Nat) (s : State) : (earthDrop p s).die = s.die := by simp [earthDrop]

@[simp] theorem earthReleaseMsg_die (u : Nat) (chal : BitVec 16) (s : State) :
    (earthReleaseMsg u chal s).2.die = s.die := by
  unfold earthReleaseMsg; dsimp only; (repeat' split) <;> simp

theorem execEarthRelease_die (unit : BitVec 8) (chal : BitVec 16) (tag : Word) (s s' : State) (ht : execEarthRelease unit chal tag s = .next s') :
    s'.die = s.die := by
  cases ht; simp

@[simp] theorem shutdownCoil_die (p : Nat) (s : State) : (shutdownCoil p s).die = s.die := by simp [shutdownCoil]

@[simp] theorem currentMsg_die (u : Nat) (ma : Word) (s : State) : (currentMsg u ma s).2.die = s.die := by
  unfold currentMsg; (repeat' split) <;> simp

theorem execCurrent_die (unit : BitVec 8) (ma tag : Word) (s s' : State) (ht : execCurrent unit ma tag s = .next s') :
    s'.die = s.die := by
  cases ht; simp

@[simp] theorem stopReqMsg_die (u : Nat) (s : State) : (stopReqMsg u s).2.die = s.die := by
  unfold stopReqMsg; (repeat' split) <;> simp

theorem execStopReq_die (unit : BitVec 8) (tag : Word) (s s' : State) (ht : execStopReq unit tag s = .next s') :
    s'.die = s.die := by
  cases ht; simp

@[simp] theorem motionReqMsg_die (d : Nat) (dir : Word) (s : State) : (motionReqMsg d dir s).2.die = s.die := by
  unfold motionReqMsg; dsimp only; (repeat' split) <;> simp

theorem execMotionReq_die (unit : BitVec 8) (dir tag : Word) (s s' : State) (ht : execMotionReq unit dir tag s = .next s') :
    s'.die = s.die := by
  cases ht; simp

@[simp] theorem holdReleaseMsg_die (u : Nat) (chal : BitVec 16) (s : State) :
    (holdReleaseMsg u chal s).2.die = s.die := by
  unfold holdReleaseMsg; (repeat' split) <;> simp

theorem execHoldRelease_die (unit : BitVec 8) (chal : BitVec 16) (tag : Word) (s s' : State) (ht : execHoldRelease unit chal tag s = .next s') :
    s'.die = s.die := by
  cases ht; simp

@[simp] theorem noteAckMsg_die (seq : Word) (s : State) : (noteAckMsg seq s).2.die = s.die := by
  unfold noteAckMsg; dsimp only; (repeat' split) <;> simp

theorem execNoteAck_die (seq tag : Word) (s s' : State) (ht : execNoteAck seq tag s = .next s') : s'.die = s.die := by
  cases ht; simp

theorem execUnknownSafeMessage_die (ty : BitVec 8) (tag : Word) (s s' : State) (ht : execUnknownSafeMessage ty tag s = .next s') :
    s'.die = s.die := by
  cases ht; simp

@[simp] theorem holdWindowStart_die (s : State) : (holdWindowStart s).die = s.die := by simp [holdWindowStart]

@[simp] theorem shutdownStart_die (p : Nat) (s : State) : (shutdownStart p s).die = s.die := by simp [shutdownStart]

theorem execHoldWindowExpiry_die (s s' : State) (ht : execHoldWindowExpiry s = .next s') : s'.die = s.die := by
  cases ht; simp

theorem execShutdownCurrentTimeout_die (p : Fin 64) (s s' : State) (ht : execShutdownCurrentTimeout p s = .next s') :
    s'.die = s.die := by
  cases ht; simp

theorem execShutdownLockRelease_die (p : Fin 64) (s s' : State) (ht : execShutdownLockRelease p s = .next s') :
    s'.die = s.die := by
  cases ht; simp

@[simp] theorem reclaimWrite_die (hi : Bool) (v : Word) (s : State) :
    (reclaimWrite hi v s).die = s.die := by simp [reclaimWrite]

theorem execReclaim_die (hi : Bool) (v : Word) (s s' : State) (ht : execReclaim hi v s = .next s') :
    s'.die = s.die := by
  cases ht; simp

/-! ### Buckle -/

@[simp] theorem claimSource_die (n : Nat) (s : State) : (claimSource n s).die = s.die := by simp [claimSource]

@[simp] theorem bklClaim_die (t : Nat) (s : State) : (bklClaim t s).die = s.die := by simp [bklClaim]

theorem execBuckleClaim_die (t : Fin 18) (s s' : State) (ht : execBuckleClaim t s = .next s') : s'.die = s.die := by
  cases ht; simp

@[simp] theorem completeSource_die (t n : Nat) (s : State) :
    (completeSource t n s).die = s.die := by simp [completeSource]

@[simp] theorem bklComplete_die (t : Nat) (v : Word) (s : State) :
    (bklComplete t v s).die = s.die := by simp [bklComplete]

theorem execBuckleComplete_die (t : Fin 18) (v : Word) (s s' : State) (ht : execBuckleComplete t v s = .next s') :
    s'.die = s.die := by
  cases ht; simp

@[simp] theorem bklPendRead_die (port k : Nat) (s : State) : (bklPendRead port k s).die = s.die := by simp [bklPendRead]

theorem execBuckleCPendRead_die (port : Fin 24) (k : Fin 16) (s s' : State) (ht : execBuckleCPendRead port k s = .next s') :
    s'.die = s.die := by
  cases ht; simp

@[simp] theorem clearLatches_die (k : Nat) (m : Word) (s : State) :
    (clearLatches k m s).die = s.die := by simp [clearLatches]

@[simp] theorem bklPendWrite_die (port k : Nat) (v : Word) (s : State) :
    (bklPendWrite port k v s).die = s.die := by simp [bklPendWrite]

theorem execBuckleCPendWrite_die (port : Fin 24) (k : Fin 16) (v : Word) (s s' : State) (ht : execBuckleCPendWrite port k v s = .next s') :
    s'.die = s.die := by
  cases ht; simp

@[simp] theorem bklVec_die (t : Nat) (s : State) : (bklVec t s).die = s.die := by simp [bklVec]

theorem execBuckleCVecRead_die (t : Fin 18) (s s' : State) (ht : execBuckleCVecRead t s = .next s') :
    s'.die = s.die := by
  cases ht; simp

theorem execBucklePendClear_die (k : Fin 16) (v : Word) (s s' : State) (ht : execBucklePendClear k v s = .next s') :
    s'.die = s.die := by
  cases ht; simp

@[simp] theorem bklSwset_die (v : Word) (s : State) : (bklSwset v s).die = s.die := by simp [bklSwset]

theorem execBuckleSoftwareSet_die (v : Word) (s s' : State) (ht : execBuckleSoftwareSet v s = .next s') :
    s'.die = s.die := by
  cases ht; simp

@[simp] theorem bklCfgWrite_die (v : Word) (s : State) : (bklCfgWrite v s).die = s.die := by simp [bklCfgWrite]

theorem execBuckleCfgWrite_die (v : Word) (s s' : State) (ht : execBuckleCfgWrite v s = .next s') : s'.die = s.die := by
  cases ht; simp

theorem execBuckleSourceEdge_die (src : Fin 512) (s s' : State) (ht : execBuckleSourceEdge src s = .next s') :
    s'.die = s.die := by
  cases ht; simp

theorem execBuckleLevelChange_die (src : Fin 512) (level : Bool) (s s' : State) (ht : execBuckleLevelChange src level s = .next s') :
    s'.die = s.die := by
  cases ht; simp

@[simp] theorem transferSleep_die (s : State) : (transferSleep s).die = s.die := by simp [transferSleep]

@[simp] theorem wakeTarget_die (t : Nat) (s : State) : (wakeTarget t s).die = s.die := by simp [wakeTarget]

@[simp] theorem sleepWake_die (n : Nat) (s : State) : (sleepWake n s).die = s.die := by simp [sleepWake]

theorem execSleepLatchWake_die (src : Fin 512) (s s' : State) (ht : execSleepLatchWake src s = .next s') :
    s'.die = s.die := by
  cases ht; simp

@[simp] theorem bklSrcWrite_die (n : Nat) (v : Word) (s : State) :
    (bklSrcWrite n v s).die = s.die := by simp [bklSrcWrite]

/-! ### Metrology -/

@[simp] theorem metrologyAnswer_die (role : Role) (kind part unit : Nat) (s : State) :
    (metrologyAnswer role kind part unit s).2.die = s.die := by
  unfold metrologyAnswer; (repeat' split) <;> simp

/-! ### Panels -/

@[simp] theorem psqDrive_die (m : Nat) (mask : BitVec 4) (low : Bool) (s : State) :
    (psqDrive m mask low s).die = s.die := by simp [psqDrive]

@[simp] theorem psqWrite_die (port : Nat) (v : Word) (s : State) : (psqWrite port v s).die = s.die := by simp [psqWrite]

theorem execOutPsqWrite_die (port : Fin 24) (v : Word) (s s' : State) (ht : execOutPsqWrite port v s = .next s') :
    s'.die = s.die := by
  cases ht; simp

/-! ### Mailbox -/

@[simp] theorem State.updPair_die (s : State) (m : Nat) (f : PairMbx → PairMbx) :
    (State.updPair s m f).die = s.die := by simp [State.updPair]

@[simp] theorem pairPut_die (m : Nat) (msg : List Word) (s : State) : (pairPut m msg s).2.die = s.die := by
  unfold pairPut; (repeat' split) <;> simp

@[simp] theorem pairWrite_die (port m i : Nat) (v : Word) (s : State) :
    (pairWrite port m i v s).die = s.die := by simp [pairWrite]

theorem execPairMailboxCommit_die (port : Fin 24) (m : Fin 20) (v : Word) (s s' : State) (ht : execPairMailboxCommit port m v s = .next s') :
    s'.die = s.die := by
  cases ht; simp

@[simp] theorem pairRead_die (m i : Nat) (s : State) : (pairRead m i s).die = s.die := by
  unfold pairRead; (repeat' split) <;> simp

theorem execPairMailboxRemove_die (_port : Fin 24) (m : Fin 20) (s s' : State) (ht : execPairMailboxRemove _port m s = .next s') :
    s'.die = s.die := by
  cases ht; simp

@[simp] theorem State.updHub_die (s : State) (h : Nat) (f : HubMbx → HubMbx) :
    (State.updHub s h f).die = s.die := by simp [State.updHub]

@[simp] theorem hubAcquire_die (port h : Nat) (s : State) : (hubAcquire port h s).die = s.die := by
  unfold hubAcquire; dsimp only; (repeat' split) <;> simp

theorem execHubMailboxAcquire_die (port : Fin 24) (h : Fin 8) (s s' : State) (ht : execHubMailboxAcquire port h s = .next s') :
    s'.die = s.die := by
  cases ht; simp

@[simp] theorem hubWrite_die (port h i : Nat) (v : Word) (s : State) :
    (hubWrite port h i v s).die = s.die := by simp [hubWrite]

theorem execHubMailboxCommit_die (port : Fin 24) (h : Fin 8) (v : Word) (s s' : State) (ht : execHubMailboxCommit port h v s = .next s') :
    s'.die = s.die := by
  cases ht; simp

@[simp] theorem hubRelease_die (port h : Nat) (s : State) : (hubRelease port h s).die = s.die := by simp [hubRelease]

theorem execHubMailboxRelease_die (port : Fin 24) (h : Fin 8) (s s' : State) (ht : execHubMailboxRelease port h s = .next s') :
    s'.die = s.die := by
  cases ht; simp

@[simp] theorem keeperTimeout_die (h : Nat) (s : State) : (keeperTimeout h s).die = s.die := by simp [keeperTimeout]

theorem execKeeperTimeout_die (h : Fin 8) (s s' : State) (ht : execKeeperTimeout h s = .next s') : s'.die = s.die := by
  cases ht; simp

@[simp] theorem hubRead_die (port h i : Nat) (s : State) : (hubRead port h i s).die = s.die := by
  unfold hubRead; dsimp only; (repeat' split) <;> simp

theorem execHubMailboxRemove_die (port : Fin 24) (h : Fin 8) (s s' : State) (ht : execHubMailboxRemove port h s = .next s') :
    s'.die = s.die := by
  cases ht; simp

@[simp] theorem mbxCtrlRead_die (s : State) : (mbxCtrlRead s).die = s.die := by simp [mbxCtrlRead]

theorem execMbxDroppedRead_die (s s' : State) (ht : execMbxDroppedRead s = .next s') : s'.die = s.die := by
  cases ht; simp

/-! ### Values -/

@[simp] theorem State.setObj_die (s : State) (idx sub : Nat) (v : List Byte) :
    (State.setObj s idx sub v).die = s.die := by simp [State.setObj]

@[simp] theorem State.setVol_die (s : State) (idx sub : Nat) (v : List Byte) :
    (State.setVol s idx sub v).die = s.die := by simp [State.setVol]

/-! ### Rein -/

@[simp] theorem putCtx_die (slot : Nat) (f : Ctx → Ctx) (s : State) : (putCtx slot f s).die = s.die := by simp [putCtx]

@[simp] theorem completeSources_die (l : List Nat) (s : State) :
    (completeSources l s).die = s.die := by simp [completeSources]

@[simp] theorem completeDelivered_die (slot : Nat) (s : State) :
    (completeDelivered slot s).die = s.die := by simp [completeDelivered]

@[simp] theorem completeLevels_die (slot : Nat) (s : State) :
    (completeLevels slot s).die = s.die := by simp [completeLevels]

@[simp] theorem ctxBytes_die (slot off : Nat) (b : List Byte) (s : State) :
    (ctxBytes slot off b s).die = s.die := by simp [ctxBytes]

@[simp] theorem claimFor_die (n slot k : Nat) (s : State) : (claimFor n slot k s).die = s.die := by simp [claimFor]

@[simp] theorem claimMisroute_die (e n : Nat) (s : State) : (claimMisroute e n s).die = s.die := by simp [claimMisroute]

@[simp] theorem reinClaim_die (e : Nat) (s : State) : (reinClaim e s).die = s.die := by
  unfold reinClaim; dsimp only; (repeat' split) <;> simp

theorem execReinSourceClaim_die (e : Fin 8) (s s' : State) (ht : execReinSourceClaim e s = .next s') :
    s'.die = s.die := by
  cases ht; simp

@[simp] theorem reinStash_die (e : Nat) (s : State) : (reinStash e s).die = s.die := by
  unfold reinStash; (repeat' split) <;> simp

theorem execReinMailboxStash_die (e : Fin 8) (s s' : State) (ht : execReinMailboxStash e s = .next s') :
    s'.die = s.die := by
  cases ht; simp

@[simp] theorem deliver_die (e k : Nat) (s : State) : (deliver e k s).die = s.die := by simp [deliver]

@[simp] theorem reinActivate_die (e : Nat) (s : State) : (reinActivate e s).die = s.die := by
  unfold reinActivate; (repeat' split) <;> simp

theorem execReinActivation_die (e : Fin 8) (s s' : State) (ht : execReinActivation e s = .next s') :
    s'.die = s.die := by
  cases ht; simp

@[simp] theorem endActivation_die (e slot : Nat) (s : State) :
    (endActivation e slot s).die = s.die := by simp [endActivation]

@[simp] theorem sesDone_die (e : Nat) (s : State) : (sesDone e s).die = s.die := by
  unfold sesDone; (repeat' split) <;> simp

@[simp] theorem commitNotices_die (e n : Nat) (s : State) : (commitNotices e n s).die = s.die := by
  induction n generalizing s with
  | zero => rfl
  | succ n ih => simp only [commitNotices]; (repeat' split) <;> simp [ih]

@[simp] theorem ctxTrap_die (e cause : Nat) (val : Word) (s : State) : (ctxTrap e cause val s).die = s.die := by
  unfold ctxTrap; (repeat' split) <;> simp

theorem execBudgetExhausted_die (e : Fin 8) (s s' : State) (ht : execBudgetExhausted e s = .next s') :
    s'.die = s.die := by
  cases ht; simp

theorem execTrapNoticeCommit_die (e : Fin 8) (s s' : State) (ht : execTrapNoticeCommit e s = .next s') :
    s'.die = s.die := by
  cases ht; simp

@[simp] theorem postCode_die (e k : Nat) (code : Byte) (s : State) : (postCode e k code s).2.die = s.die := by
  unfold postCode; dsimp only; (repeat' split) <;> simp

@[simp] theorem sesPost_die (e : Nat) (v : Word) (s : State) : (sesPost e v s).die = s.die := by
  unfold sesPost; (repeat' split) <;> simp

theorem execSesPost_die (e : Fin 8) (v : Word) (s s' : State) (ht : execSesPost e v s = .next s') : s'.die = s.die := by
  cases ht; simp

@[simp] theorem sesPostr_die (port e : Nat) (v : Word) (s : State) : (sesPostr port e v s).die = s.die := by
  unfold sesPostr; (repeat' split) <;> simp

theorem execSesPostr_die (port : Fin 24) (e : Fin 8) (v : Word) (s s' : State) (ht : execSesPostr port e v s = .next s') :
    s'.die = s.die := by
  cases ht; simp

@[simp] theorem evTake_die (e : Nat) (v : Word) (s : State) : (evTake e v s).die = s.die := by
  unfold evTake; (repeat' split) <;> simp

theorem execEvTake_die (e : Fin 8) (v : Word) (s s' : State) (ht : execEvTake e v s = .next s') : s'.die = s.die := by
  cases ht; simp

@[simp] theorem timerExpiry_die (slot : Nat) (s : State) : (timerExpiry slot s).die = s.die := by simp [timerExpiry]

theorem execReinTimerExpiry_die (slot : Fin 256) (s s' : State) (ht : execReinTimerExpiry slot s = .next s') :
    s'.die = s.die := by
  unfold execReinTimerExpiry at ht
  have ht := Host.Outcome.next.inj ht; subst ht
  first
  | ((repeat' split) <;> simp; done)
  | (dsimp only; done)
  | (dsimp only; (repeat' split) <;> simp; done)
  | (dsimp only; (repeat' split) <;> simp [*]; done)
  | ((repeat' split) <;> simp [*]; done)
  | exact whenDie_die _ _ (fun t => by first | (dsimp only; (repeat' split) <;> simp [*]; done) | (simp; (repeat' split) <;> simp; done))
  | (split <;> first | rfl | exact whenDie_die _ _ (fun t => by dsimp only; (repeat' split) <;> simp [*]))

@[simp] theorem pilTakes_die (p : Nat) (s : State) : (pilTakes p s).die = s.die := by simp [pilTakes]

@[simp] theorem pilDueTakes_die (p : Nat) (s : State) : (pilDueTakes p s).die = s.die := by simp [pilDueTakes]

theorem execPilotPeriodStart_die (s s' : State) (ht : execPilotPeriodStart s = .next s') : s'.die = s.die := by
  cases ht; simp

@[simp] theorem sessionTakes_die (slot p : Nat) (s : State) :
    (sessionTakes slot p s).die = s.die := by simp [sessionTakes]

@[simp] theorem ctxStart_die (slot p r : Nat) (s : State) : (ctxStart slot p r s).die = s.die := by
  unfold ctxStart
  dsimp only
  rw [sessionTakes_die, syncCtx_die, State.setNum_die, State.updCtx_die, ctxBytes_die]

@[simp] theorem startQueued_die (p : Nat) (s : State) : (startQueued p s).die = s.die := by
  unfold startQueued; (repeat' split) <;> simp

@[simp] theorem ctxRestart_die (slot : Nat) (s : State) : (ctxRestart slot s).2.die = s.die := by
  unfold ctxRestart; dsimp only; (repeat' split) <;> simp

@[simp] theorem ctxFree_die (slot : Nat) (s : State) : (ctxFree slot s).2.die = s.die := by
  unfold ctxFree; dsimp only; (repeat' split) <;> simp

@[simp] theorem ctxSetRole_die (slot r : Nat) (s : State) : (ctxSetRole slot r s).2.die = s.die := by
  unfold ctxSetRole; dsimp only; (repeat' split) <;> simp

@[simp] theorem putCmdSt_die (port e : Nat) (x : Nat × Nat × Status) (s : State) :
    (putCmdSt port e x s).die = s.die := by
  unfold putCmdSt; (repeat' split) <;> simp

@[simp] theorem sesUseRead_die (slot : Nat) (s : State) : (sesUseRead slot s).die = s.die := by simp [sesUseRead]

theorem execSesUseRead_die (slot : Fin 256) (s s' : State) (ht : execSesUseRead slot s = .next s') :
    s'.die = s.die := by
  cases ht; simp

@[simp] theorem engineReset_die (e : Nat) (s : State) : (engineReset e s).die = s.die := by
  unfold engineReset
  dsimp only
  rw [foldl_die _ (fun t i => State.updCtx_die t i _), foldl_die _ (fun t i => by rw [girthOrphan_die, completeLevels_die])]

/-! ### Sessions -/

@[simp] theorem State.updVs_die (s : State) (slot : Nat) (f : VSess → VSess) :
    (State.updVs s slot f).die = s.die := by simp [State.updVs]

@[simp] theorem setPhase_die (slot v : Nat) (s : State) : (setPhase slot v s).die = s.die := by simp [setPhase]

@[simp] theorem setReason_die (slot v : Nat) (s : State) : (setReason slot v s).die = s.die := by simp [setReason]

@[simp] theorem setTimer_die (slot ht : Nat) (s : State) : (setTimer slot ht s).die = s.die := by simp [setTimer]

@[simp] theorem withSession_die (p : Nat) (f : Nat → State → State) (s : State) (h_f : ∀ x0 t, (f x0 t).die = t.die) :
    (withSession p f s).die = s.die := by
  unfold withSession; (repeat' split) <;> simp [*]

@[simp] theorem publish_die (p v : Nat) (i : Int) (en : Bool) (s : State) :
    (publish p v i en s).die = s.die := by simp [publish]

@[simp] theorem setpointOff_die (p : Nat) (s : State) : (setpointOff p s).die = s.die := by simp [setpointOff]

@[simp] theorem fwSend_die (cls : Nat) (tag : Word) (b : List Byte) (s : State) :
    (fwSend cls tag b s).die = s.die := by simp [fwSend]

@[simp] theorem sessionNotice_die (kind slot reason : Nat) (s : State) :
    (sessionNotice kind slot reason s).die = s.die := by simp [sessionNotice]

@[simp] theorem closeRecord_die (slot : Nat) (s : State) : (closeRecord slot s).die = s.die := by simp [closeRecord]

@[simp] theorem toClosing_die (slot reason : Nat) (tell : Bool) (s : State) :
    (toClosing slot reason tell s).die = s.die := by simp [toClosing]

@[simp] theorem dutyOff_die (slot : Nat) (s : State) : (dutyOff slot s).die = s.die := by simp [dutyOff]

@[simp] theorem toStopping_die (slot reason : Nat) (s : State) :
    (toStopping slot reason s).die = s.die := by simp [toStopping]

@[simp] theorem endSlot_die (slot reason : Nat) (s : State) : (endSlot slot reason s).die = s.die := by simp [endSlot]

@[simp] theorem endSession_die (p reason : Nat) (s : State) :
    (endSession p reason s).die = s.die := by simp [endSession]

@[simp] theorem State.updVp_die (s : State) (k : Nat) (f : VPort → VPort) :
    (State.updVp s k f).die = s.die := by simp [State.updVp]

@[simp] theorem seqAuthorised_die (k : Nat) (s : State) : (seqAuthorised k s).die = s.die := by simp [seqAuthorised]

@[simp] theorem freeCmd_die (port slot : Nat) (s : State) : (freeCmd port slot s).2.die = s.die := by simp [freeCmd]

@[simp] theorem sesCmd_die (cmd port e : Nat) (v : Word) (s : State) : (sesCmd cmd port e v s).die = s.die := by
  unfold sesCmd
  dsimp only
  split
  · simp
  · split
    · simp
    · rename_i g st s1 h
      have : s1.die = s.die := by
        revert h; split
        · split <;> intro h <;> simp at h <;> obtain ⟨_, _, rfl⟩ := h <;> simp
        · intro h; simp at h; obtain ⟨_, h⟩ := h; have := ctxRestart_die (32 * e + fld v 0 5) s; rw [h] at this; exact this
        · intro h; simp at h; obtain ⟨_, h⟩ := h; have := freeCmd_die port (32 * e + fld v 0 5) s; rw [h] at this; exact this
        · intro h; simp at h; obtain ⟨_, h⟩ := h; have := ctxSetRole_die (32 * e + fld v 0 5) (fld v 6 2) s; rw [h] at this; exact this
        · intro h; simp at h
      simp [this]

theorem execSesStart_die (port : Fin 24) (e : Fin 8) (v : Word) (s s' : State) (ht : execSesStart port e v s = .next s') :
    s'.die = s.die := by
  cases ht; simp

theorem execSesRestart_die (port : Fin 24) (e : Fin 8) (v : Word) (s s' : State) (ht : execSesRestart port e v s = .next s') :
    s'.die = s.die := by
  cases ht; simp

theorem execSesFree_die (port : Fin 24) (e : Fin 8) (v : Word) (s s' : State) (ht : execSesFree port e v s = .next s') :
    s'.die = s.die := by
  cases ht; simp

theorem execSesSetrole_die (port : Fin 24) (e : Fin 8) (v : Word) (s s' : State) (ht : execSesSetrole port e v s = .next s') :
    s'.die = s.die := by
  cases ht; simp

@[simp] theorem openRecord_die (slot : Nat) (s : State) : (openRecord slot s).die = s.die := by simp [openRecord]

@[simp] theorem authorise_die (slot : Nat) (s : State) : (authorise slot s).die = s.die := by simp [authorise]

@[simp] theorem dutyOn_die (slot : Nat) (s : State) : (dutyOn slot s).die = s.die := by
  unfold dutyOn; (repeat' split) <;> simp

@[simp] theorem openReply_die (slot : Nat) (ok : Bool) (serial : Nat) (s : State) :
    (openReply slot ok serial s).die = s.die := by simp [openReply]

@[simp] theorem recordSigned_die (slot : Nat) (s : State) : (recordSigned slot s).die = s.die := by simp [recordSigned]

@[simp] theorem authGranted_die (slot : Nat) (s : State) : (authGranted slot s).die = s.die := by simp [authGranted]

@[simp] theorem tokenAuth_die (p tid : Nat) (s : State) : (tokenAuth p tid s).die = s.die := by
  unfold tokenAuth; (repeat' split) <;> simp

@[simp] theorem cardAuth_die (uid : List Byte) (s : State) : (cardAuth uid s).die = s.die := by
  unfold cardAuth; (repeat' split) <;> simp

@[simp] theorem termSelect_die (p : Option Nat) (s : State) : (termSelect p s).die = s.die := by simp [termSelect]

@[simp] theorem termStop_die (s : State) : (termStop s).die = s.die := by
  unfold termStop; (repeat' split) <;> simp

@[simp] theorem recordReply_die (m : LinkMsg) (s : State) : (recordReply m s).die = s.die := by
  unfold recordReply; (repeat' split) <;> simp

@[simp] theorem dieNotice_die (m : LinkMsg) (s : State) : (dieNotice m s).die = s.die := by
  unfold dieNotice; dsimp only; (repeat' split) <;> simp

@[simp] theorem cantleTakes_die (m : LinkMsg) (s : State) : (cantleTakes m s).die = s.die := by simp [cantleTakes]

@[simp] theorem sessionsRelinked_die (s : State) : (sessionsRelinked s).die = s.die := by simp [sessionsRelinked]

@[simp] theorem sessionsUnlinked_die (s : State) : (sessionsUnlinked s).die = s.die := by simp [sessionsUnlinked]

/-! ### Readers -/

@[simp] theorem State.updRd_die (s : State) (n : Nat) (f : Reader → Reader) :
    (State.updRd s n f).die = s.die := by simp [State.updRd]

@[simp] theorem laneLevel_die (n : Nat) (b : Bool) (s : State) : (laneLevel n b s).die = s.die := by simp [laneLevel]

@[simp] theorem rdEvt_die (n i : Nat) (s : State) : (rdEvt n i s).die = s.die := by simp [rdEvt]

@[simp] theorem xchEnd_die (n : Nat) (st : Status) (s : State) : (xchEnd n st s).die = s.die := by simp [xchEnd]

@[simp] theorem fieldOff_die (n : Nat) (s : State) : (fieldOff n s).die = s.die := by simp [fieldOff]

@[simp] theorem fieldOn_die (n : Nat) (s : State) : (fieldOn n s).die = s.die := by simp [fieldOn]

@[simp] theorem readerPing_die (n : Nat) (amp phase : Int) (s : State) : (readerPing n amp phase s).die = s.die := by
  unfold readerPing; dsimp only; (repeat' split) <;> simp

theorem execReaderPing_die (n : Fin 16) (amp phase : Int) (s s' : State) (ht : execReaderPing n amp phase s = .next s') :
    s'.die = s.die := by
  cases ht; simp

@[simp] theorem pollCycle_die (n : Nat) (cards : List CardId) (s : State) : (pollCycle n cards s).die = s.die := by
  unfold pollCycle; dsimp only; (repeat' split) <;> simp

theorem execReaderPollCycle_die (n : Fin 16) (cards : List CardId) (s s' : State) (ht : execReaderPollCycle n cards s = .next s') :
    s'.die = s.die := by
  cases ht; simp

theorem execReaderMultiRepoll_die (n : Fin 16) (cards : List CardId) (s s' : State) (ht : execReaderMultiRepoll n cards s = .next s') :
    s'.die = s.die := by
  cases ht; simp

theorem execReaderFieldIdle_die (n : Fin 16) (s s' : State) (ht : execReaderFieldIdle n s = .next s') :
    s'.die = s.die := by
  cases ht; simp

@[simp] theorem readerExchange_die (n : Nat) (s : State) : (readerExchange n s).die = s.die := by simp [readerExchange]

theorem execReaderExchange_die (n : Fin 16) (s s' : State) (ht : execReaderExchange n s = .next s') :
    s'.die = s.die := by
  cases ht; simp

@[simp] theorem readerAbort_die (n : Nat) (s : State) : (readerAbort n s).die = s.die := by simp [readerAbort]

theorem execReaderAbort_die (n : Fin 16) (s s' : State) (ht : execReaderAbort n s = .next s') : s'.die = s.die := by
  cases ht; simp

@[simp] theorem readerPoll_die (n : Nat) (s : State) : (readerPoll n s).die = s.die := by simp [readerPoll]

theorem execReaderPoll_die (n : Fin 16) (s s' : State) (ht : execReaderPoll n s = .next s') : s'.die = s.die := by
  cases ht; simp

theorem execReaderFieldOff_die (n : Fin 16) (s s' : State) (ht : execReaderFieldOff n s = .next s') :
    s'.die = s.die := by
  cases ht; simp

@[simp] theorem xchBad_die (n : Nat) (x : Xchg) (s : State) : (xchBad n x s).die = s.die := by simp [xchBad]

@[simp] theorem xchDone_die (n : Nat) (data : List Byte) (s : State) :
    (xchDone n data s).die = s.die := by simp [xchDone]

@[simp] theorem cardBlock_die (n : Nat) (b : CardBlock) (s : State) : (cardBlock n b s).die = s.die := by
  unfold cardBlock; (repeat' split) <;> simp

theorem execCardBlockReceive_die (n : Fin 16) (b : CardBlock) (s s' : State) (ht : execCardBlockReceive n b s = .next s') :
    s'.die = s.die := by
  cases ht; simp

theorem execCardFwtExpiry_die (n : Fin 16) (s s' : State) (ht : execCardFwtExpiry n s = .next s') : s'.die = s.die := by
  cases ht; simp

theorem execReaderExchangeTimeout_die (n : Fin 16) (s s' : State) (ht : execReaderExchangeTimeout n s = .next s') :
    s'.die = s.die := by
  cases ht; simp

@[simp] theorem State.updTag_die (s : State) (k : Nat) (f : TagSlot → TagSlot) :
    (State.updTag s k f).die = s.die := by simp [State.updTag]

@[simp] theorem tagSwap_die (k : Nat) (s : State) : (tagSwap k s).die = s.die := by simp [tagSwap]

@[simp] theorem tagClose_die (n : Nat) (s : State) : (tagClose n s).die = s.die := by
  unfold tagClose; (repeat' split) <;> simp

@[simp] theorem readerMode_die (n m : Nat) (s : State) : (readerMode n m s).die = s.die := by simp [readerMode]

@[simp] theorem readerModeWrite_die (n : Nat) (v : Word) (s : State) :
    (readerModeWrite n v s).die = s.die := by simp [readerModeWrite]

theorem execReaderModeWrite_die (n : Fin 16) (v : Word) (s s' : State) (ht : execReaderModeWrite n v s = .next s') :
    s'.die = s.die := by
  cases ht; simp

@[simp] theorem rdCtlWrite_die (n : Nat) (v : Word) (s : State) : (rdCtlWrite n v s).die = s.die := by simp [rdCtlWrite]

@[simp] theorem rdCfgWrite_die (n : Nat) (v : Word) (s : State) : (rdCfgWrite n v s).die = s.die := by simp [rdCfgWrite]

@[simp] theorem rdEvtWrite_die (n : Nat) (v : Word) (s : State) : (rdEvtWrite n v s).die = s.die := by simp [rdEvtWrite]

@[simp] theorem tagAnswer_die (n : Nat) (a : Option (List Byte)) (s : State) :
    (tagAnswer n a s).die = s.die := by simp [tagAnswer]

@[simp] theorem tagEntry_die (n : Nat) (s : State) : (tagEntry n s).die = s.die := by simp [tagEntry]

theorem execTagFieldEntry_die (n : Fin 16) (s s' : State) (ht : execTagFieldEntry n s = .next s') : s'.die = s.die := by
  cases ht; simp

@[simp] theorem tagActA_die (n : Nat) (c : TagAct) (s : State) : (tagActA n c s).die = s.die := by
  unfold tagActA; (repeat' split) <;> simp

@[simp] theorem tagActB_die (n : Nat) (c : TagAct) (s : State) : (tagActB n c s).die = s.die := by
  unfold tagActB; (repeat' split) <;> simp

@[simp] theorem tagAct_die (n : Nat) (c : TagAct) (s : State) : (tagAct n c s).die = s.die := by
  unfold tagAct; (repeat' split) <;> simp

theorem execTagActivation_die (n : Fin 16) (c : TagAct) (s s' : State) (ht : execTagActivation n c s = .next s') :
    s'.die = s.die := by
  cases ht; simp

@[simp] theorem freeSw_die (n : Nat) (s : State) : (freeSw n s).die = s.die := by simp [freeSw]

@[simp] theorem tagSelect_die (n : Nat) (f : TagFile) (s : State) : (tagSelect n f s).die = s.die := by
  unfold tagSelect; (repeat' split) <;> simp

theorem execTagSelect_die (n : Fin 16) (f : TagFile) (s s' : State) (ht : execTagSelect n f s = .next s') :
    s'.die = s.die := by
  cases ht; simp

@[simp] theorem tagRead_die (n off len : Nat) (s : State) : (tagRead n off len s).die = s.die := by
  unfold tagRead; (repeat' split) <;> simp

theorem execTagReadBinary_die (n : Fin 16) (off len : Nat) (s s' : State) (ht : execTagReadBinary n off len s = .next s') :
    s'.die = s.die := by
  cases ht; simp

@[simp] theorem tagOther_die (n : Nat) (a : List Byte) (s : State) : (tagOther n a s).die = s.die := by simp [tagOther]

theorem execTagUpdateBinary_die (n : Fin 16) (s s' : State) (ht : execTagUpdateBinary n s = .next s') :
    s'.die = s.die := by
  cases ht; simp

@[simp] theorem tagOtherCommand_die (n : Nat) (deselect : Bool) (s : State) :
    (tagOtherCommand n deselect s).die = s.die := by simp [tagOtherCommand]

theorem execTagOtherCommand_die (n : Fin 16) (deselect : Bool) (s s' : State) (ht : execTagOtherCommand n deselect s = .next s') :
    s'.die = s.die := by
  cases ht; simp

theorem execTagFieldLoss_die (n : Fin 16) (s s' : State) (ht : execTagFieldLoss n s = .next s') : s'.die = s.die := by
  cases ht; simp

theorem execTagTransactionIdle_die (n : Fin 16) (s s' : State) (ht : execTagTransactionIdle n s = .next s') :
    s'.die = s.die := by
  cases ht; simp

@[simp] theorem tagCtlWrite_die (k : Nat) (v : Word) (s : State) :
    (tagCtlWrite k v s).die = s.die := by simp [tagCtlWrite]

theorem execTagCommit_die (k : Fin 4) (v : Word) (s s' : State) (ht : execTagCommit k v s = .next s') :
    s'.die = s.die := by
  cases ht; simp

@[simp] theorem tagShadowWrite_die (k i : Nat) (b : Byte) (s : State) :
    (tagShadowWrite k i b s).die = s.die := by simp [tagShadowWrite]

@[simp] theorem tagForced_die (k : Nat) (s : State) : (tagForced k s).die = s.die := by simp [tagForced]

theorem execTagForcedSwap_die (k : Fin 4) (s s' : State) (ht : execTagForcedSwap k s = .next s') : s'.die = s.die := by
  cases ht; simp

/-! ### Girth -/

@[simp] theorem girthReqWrite_die (port : Nat) (v : Word) (s : State) :
    (girthReqWrite port v s).die = s.die := by simp [girthReqWrite]

theorem execGirthRequest_die (port : Fin 24) (v : Word) (s s' : State) (ht : execGirthRequest port v s = .next s') :
    s'.die = s.die := by
  cases ht; simp

@[simp] theorem lineOn_die (m : Nat) (s : State) : (lineOn m s).die = s.die := by simp [lineOn]

@[simp] theorem girthOnCommand_die (kind unit : Nat) (s : State) : (girthOnCommand kind unit s).die = s.die := by
  unfold girthOnCommand; (repeat' split) <;> simp

@[simp] theorem girthSignal_die (r : GirthReq) (s : State) : (girthSignal r s).die = s.die := by
  unfold girthSignal; (repeat' split) <;> simp

@[simp] theorem girthMark_die (r : GirthReq) (st : Nat) (s : State) :
    (girthMark r st s).die = s.die := by simp [girthMark]

@[simp] theorem girthRelWrite_die (port : Nat) (v : Word) (s : State) :
    (girthRelWrite port v s).die = s.die := by simp [girthRelWrite]

theorem execGirthRelease_die (port : Fin 24) (v : Word) (s s' : State) (ht : execGirthRelease port v s = .next s') :
    s'.die = s.die := by
  unfold execGirthRelease at ht
  have ht := Host.Outcome.next.inj ht; subst ht
  first
  | ((repeat' split) <;> simp; done)
  | (dsimp only; done)
  | (dsimp only; (repeat' split) <;> simp; done)
  | (dsimp only; (repeat' split) <;> simp [*]; done)
  | ((repeat' split) <;> simp [*]; done)
  | exact whenDie_die _ _ (fun t => by first | (dsimp only; (repeat' split) <;> simp [*]; done) | (simp; (repeat' split) <;> simp; done))
  | (split <;> first | rfl | exact whenDie_die _ _ (fun t => by dsimp only; (repeat' split) <;> simp [*]))

theorem execGirthHoldExpiry_die (ticket : BitVec 16) (s s' : State) (ht : execGirthHoldExpiry ticket s = .next s') :
    s'.die = s.die := by
  cases ht; simp

theorem execUnitOffReport_die (kind : Fin 16) (unit : Nat) (s s' : State) (ht : execUnitOffReport kind unit s = .next s') :
    s'.die = s.die := by
  cases ht; simp

@[simp] theorem girthDerate_die (temp : Int) (s : State) : (girthDerate temp s).die = s.die := by simp [girthDerate]

theorem execGirthDerateSample_die (temp : Int) (s s' : State) (ht : execGirthDerateSample temp s = .next s') :
    s'.die = s.die := by
  cases ht; simp

@[simp] theorem girthShareWrite_die (c : Nat) (v : Word) (s : State) :
    (girthShareWrite c v s).die = s.die := by simp [girthShareWrite]

theorem execGirthShareWrite_die (c : Fin 3) (v : Word) (s s' : State) (ht : execGirthShareWrite c v s = .next s') :
    s'.die = s.die := by
  cases ht; simp

@[simp] theorem girthCtrlWrite_die (v : Word) (s : State) : (girthCtrlWrite v s).die = s.die := by simp [girthCtrlWrite]

@[simp] theorem girthCostWrite_die (k i : Nat) (v : Word) (s : State) : (girthCostWrite k i v s).die = s.die := by
  unfold girthCostWrite; (repeat' split) <;> simp

@[simp] theorem girthRebuild_die (s : State) : (girthRebuild s).die = s.die := by simp [girthRebuild]

theorem execGirthRebuild_die (s s' : State) (ht : execGirthRebuild s = .next s') : s'.die = s.die := by
  cases ht; simp

@[simp] theorem girthBypassRead_die (s : State) : (girthBypassRead s).die = s.die := by simp [girthBypassRead]

theorem execGrtBypassRead_die (s s' : State) (ht : execGrtBypassRead s = .next s') : s'.die = s.die := by
  cases ht; simp

@[simp] theorem girthBypass_die (s : State) : (girthBypass s).die = s.die := by simp [girthBypass]

/-! ### CanOps -/

@[simp] theorem State.updPort_die (s : State) (x : Nat) (f : FieldPort → FieldPort) :
    (State.updPort s x f).die = s.die := by simp [State.updPort]

@[simp] theorem canSend_die (x : Nat) (f : CanFrame) (s : State) : (canSend x f s).die = s.die := by simp [canSend]

@[simp] theorem canFlush_die (x : Nat) (s : State) : (canFlush x s).die = s.die := by simp [canFlush]

@[simp] theorem emcy_die (x : Nat) (code : Nat) (b3 : Byte) (s : State) :
    (emcy x code b3 s).die = s.die := by simp [emcy]

@[simp] theorem canResume_die (x : Nat) (s : State) : (canResume x s).die = s.die := by simp [canResume]

@[simp] theorem canErrors_die (x : Nat) (s : State) : (canErrors x s).die = s.die := by simp [canErrors]

@[simp] theorem canConfine_die (x : Nat) (s : State) : (canConfine x s).die = s.die := by simp [canConfine]

@[simp] theorem emcyBoth_die (code : Nat) (b3 : Byte) (s : State) :
    (emcyBoth code b3 s).die = s.die := by simp [emcyBoth]

/-! ### Links -/

@[simp] theorem slQueue_die (l : List LinkMsg) (s : State) : (slQueue l s).die = s.die := by simp [slQueue]

@[simp] theorem State.updSl_die (s : State) (port : Nat) (f : SlPort → SlPort) :
    (State.updSl s port f).die = s.die := by simp [State.updSl]

@[simp] theorem slSend_die (port : Nat) (v : Word) (s : State) : (slSend port v s).die = s.die := by simp [slSend]

theorem execSealedLinkSend_die (port : Fin 24) (v : Word) (s s' : State) (ht : execSealedLinkSend port v s = .next s') :
    s'.die = s.die := by
  cases ht; simp

@[simp] theorem slPop_die (port : Nat) (s : State) : (slPop port s).die = s.die := by
  unfold slPop; (repeat' split) <;> simp

theorem execSealedLinkPop_die (port : Fin 24) (s s' : State) (ht : execSealedLinkPop port s = .next s') :
    s'.die = s.die := by
  cases ht; simp

@[simp] theorem heartbeat_die (crcOk : Bool) (s : State) : (heartbeat crcOk s).die = s.die := by simp [heartbeat]

theorem execBridleHeartbeat_die (crcOk : Bool) (s s' : State) (ht : execBridleHeartbeat crcOk s = .next s') :
    s'.die = s.die := by
  cases ht; simp

@[simp] theorem safeIfNot_die (s : State) : (safeIfNot s).die = s.die := by simp [safeIfNot]

theorem execSafetyLaneHeartbeatLoss_die (s s' : State) (ht : execSafetyLaneHeartbeatLoss s = .next s') :
    s'.die = s.die := by
  cases ht; simp

@[simp] theorem safeReportTaken_die (s : State) : (safeReportTaken s).die = s.die := by simp [safeReportTaken]

theorem execSafeStateReport_die (s s' : State) (ht : execSafeStateReport s = .next s') : s'.die = s.die := by
  cases ht; simp

@[simp] theorem safeRelease_die (s : State) : (safeRelease s).die = s.die := by simp [safeRelease]

theorem execSafeStateRelease_die (s s' : State) (ht : execSafeStateRelease s = .next s') : s'.die = s.die := by
  cases ht; simp

@[simp] theorem stoLane_die (n : Nat) (b on : Bool) (s : State) : (stoLane n b on s).die = s.die := by simp [stoLane]

@[simp] theorem safetyCommand_die (c : SafeCmd) (s : State) : (safetyCommand c s).die = s.die := by
  unfold safetyCommand; (repeat' split) <;> simp

theorem execSafetyLaneCommand_die (crcOk : Bool) (c : SafeCmd) (s s' : State) (ht : execSafetyLaneCommand crcOk c s = .next s') :
    s'.die = s.die := by
  cases ht; simp

@[simp] theorem laneFault_die (s : State) : (laneFault s).die = s.die := by simp [laneFault]

@[simp] theorem laneCommand_die (c : LaneCmd) (s : State) : (laneCommand c s).die = s.die := by
  unfold laneCommand; (repeat' split) <;> simp

@[simp] theorem laneArrives_die (crcOk : Bool) (c : LaneCmd) (s : State) :
    (laneArrives crcOk c s).die = s.die := by simp [laneArrives]

theorem execAppLaneCommand_die (crcOk : Bool) (c : LaneCmd) (s s' : State) (ht : execAppLaneCommand crcOk c s = .next s') :
    s'.die = s.die := by
  cases ht; simp

@[simp] theorem laneEvent_die (crcOk : Bool) (src : Nat) (s : State) :
    (laneEvent crcOk src s).die = s.die := by simp [laneEvent]

theorem execAppLaneEventFrame_die (crcOk : Bool) (src : Fin 512) (s s' : State) (ht : execAppLaneEventFrame crcOk src s = .next s') :
    s'.die = s.die := by
  cases ht; simp

@[simp] theorem powerClockFail_die (s : State) : (powerClockFail s).die = s.die := by simp [powerClockFail]

theorem execPowerDieClockFail_die (s s' : State) (ht : execPowerDieClockFail s = .next s') : s'.die = s.die := by
  cases ht; simp

theorem execPowerDieClockReturn_die (s s' : State) (ht : execPowerDieClockReturn s = .next s') : s'.die = s.die := by
  cases ht; simp

@[simp] theorem powerDieReset_die (s : State) : (powerDieReset s).die = s.die := by simp [powerDieReset]

theorem execPowerDieReset_die (s s' : State) (ht : execPowerDieReset s = .next s') : s'.die = s.die := by
  unfold execPowerDieReset at ht
  have ht := Host.Outcome.next.inj ht; subst ht
  first
  | ((repeat' split) <;> simp; done)
  | (dsimp only; done)
  | (dsimp only; (repeat' split) <;> simp; done)
  | (dsimp only; (repeat' split) <;> simp [*]; done)
  | ((repeat' split) <;> simp [*]; done)
  | exact whenDie_die _ _ (fun t => by first | (dsimp only; (repeat' split) <;> simp [*]; done) | (simp; (repeat' split) <;> simp; done))
  | (split <;> first | rfl | exact whenDie_die _ _ (fun t => by dsimp only; (repeat' split) <;> simp [*]))

/-! ### Plc -/

@[simp] theorem State.updPlc_die (s : State) (n : Nat) (f : PlcCh → PlcCh) :
    (State.updPlc s n f).die = s.die := by simp [State.updPlc]

@[simp] theorem plcTake_die (n : Nat) (s : State) : (plcTake n s).die = s.die := by
  unfold plcTake; dsimp only; (repeat' split) <;> simp

@[simp] theorem plcStart_die (n : Nat) (v : Word) (s : State) : (plcStart n v s).die = s.die := by simp [plcStart]

theorem execPlcStart_die (n : Fin 66) (v : Word) (s s' : State) (ht : execPlcStart n v s = .next s') :
    s'.die = s.die := by
  cases ht; simp

@[simp] theorem plcStop_die (n : Nat) (s : State) : (plcStop n s).die = s.die := by simp [plcStop]

theorem execPlcStop_die (n : Fin 66) (s s' : State) (ht : execPlcStop n s = .next s') : s'.die = s.die := by
  cases ht; simp

@[simp] theorem plcOff_die (n : Nat) (s : State) : (plcOff n s).die = s.die := by simp [plcOff]

theorem execPlcStoppingEnd_die (n : Fin 66) (s s' : State) (ht : execPlcStoppingEnd n s = .next s') :
    s'.die = s.die := by
  cases ht; simp

@[simp] theorem plcHalt_die (s : State) : (plcHalt s).die = s.die := by simp [plcHalt]

@[simp] theorem plcReslac_die (n : Nat) (s : State) : (plcReslac n s).die = s.die := by simp [plcReslac]

theorem execPlcReslac_die (n : Fin 66) (s s' : State) (ht : execPlcReslac n s = .next s') : s'.die = s.die := by
  cases ht; simp

@[simp] theorem beacon_die (n : Nat) (s : State) : (beacon n s).die = s.die := by simp [beacon]

theorem execBeacon_die (n : Fin 66) (s s' : State) (ht : execBeacon n s = .next s') : s'.die = s.die := by
  cases ht; simp

@[simp] theorem plcLinkLost_die (n : Nat) (s : State) : (plcLinkLost n s).die = s.die := by simp [plcLinkLost]

theorem execPlcLinkLost_die (n : Fin 66) (s s' : State) (ht : execPlcLinkLost n s = .next s') : s'.die = s.die := by
  cases ht; simp

theorem execNekRenewal_die (n : Fin 66) (s s' : State) (ht : execNekRenewal n s = .next s') : s'.die = s.die := by
  cases ht; simp

@[simp] theorem slacParm_die (n : Nat) (r : BitVec 64) (s : State) : (slacParm n r s).die = s.die := by simp [slacParm]

theorem execSlacParmReq_die (n : Fin 66) (runId : BitVec 64) (s s' : State) (ht : execSlacParmReq n runId s = .next s') :
    s'.die = s.die := by
  cases ht; simp

@[simp] theorem startAttenChar_die (n : Nat) (r : BitVec 64) (sounds : Nat) (s : State) :
    (startAttenChar n r sounds s).die = s.die := by simp [startAttenChar]

theorem execStartAttenChar_die (n : Fin 66) (runId : BitVec 64) (sounds : Nat) (s s' : State) (ht : execStartAttenChar n runId sounds s = .next s') :
    s'.die = s.die := by
  cases ht; simp

@[simp] theorem slacSelect_die (b : Nat) (c : Collection) (h : List Nat) (need : Bool) (s : State) :
    (slacSelect b c h need s).die = s.die := by simp [slacSelect]

@[simp] theorem slacDecide_die (c : Collection) (s : State) : (slacDecide c s).die = s.die := by
  unfold slacDecide; dsimp only; (repeat' split) <;> simp

@[simp] theorem slacBack_die (n : Nat) (r : BitVec 64) (s : State) : (slacBack n r s).die = s.die := by simp [slacBack]

@[simp] theorem slacClose_die (r : BitVec 64) (s : State) : (slacClose r s).die = s.die := by
  unfold slacClose; (repeat' split) <;> simp

theorem execSlacCollectionClose_die (runId : BitVec 64) (s s' : State) (ht : execSlacCollectionClose runId s = .next s') :
    s'.die = s.die := by
  cases ht; simp

@[simp] theorem soundAdd_die (n : Nat) (r : BitVec 64) (g : List Nat) (s : State) :
    (soundAdd n r g s).die = s.die := by simp [soundAdd]

@[simp] theorem slacSound_die (n : Nat) (r : BitVec 64) (g : List Nat) (s : State) :
    (slacSound n r g s).die = s.die := by simp [slacSound]

theorem execSlacSound_die (n : Fin 66) (runId : BitVec 64) (groups : List Nat) (s s' : State) (ht : execSlacSound n runId groups s = .next s') :
    s'.die = s.die := by
  cases ht; simp

@[simp] theorem slacValidate_die (n : Nat) (r : BitVec 64) (s : State) :
    (slacValidate n r s).die = s.die := by simp [slacValidate]

theorem execSlacValidateReq_die (n : Fin 66) (runId : BitVec 64) (s s' : State) (ht : execSlacValidateReq n runId s = .next s') :
    s'.die = s.die := by
  cases ht; simp

@[simp] theorem slacWindowEnd_die (n k : Nat) (s : State) : (slacWindowEnd n k s).die = s.die := by
  unfold slacWindowEnd; (repeat' split) <;> simp

theorem execSlacValidateWindowEnd_die (n : Fin 66) (toggles : Nat) (s s' : State) (ht : execSlacValidateWindowEnd n toggles s = .next s') :
    s'.die = s.die := by
  cases ht; simp

@[simp] theorem slacMatch_die (n : Nat) (r : BitVec 64) (mac : BitVec 48) (s : State) :
    (slacMatch n r mac s).die = s.die := by simp [slacMatch]

theorem execSlacMatchReq_die (n : Fin 66) (runId : BitVec 64) (mac : BitVec 48) (s s' : State) (ht : execSlacMatchReq n runId mac s = .next s') :
    s'.die = s.die := by
  cases ht; simp

@[simp] theorem slacMatchTimeout_die (n : Nat) (s : State) :
    (slacMatchTimeout n s).die = s.die := by simp [slacMatchTimeout]

theorem execSlacMatchTimeout_die (n : Fin 66) (s s' : State) (ht : execSlacMatchTimeout n s = .next s') :
    s'.die = s.die := by
  cases ht; simp

@[simp] theorem plcRing_die (n : Nat) (data : List Byte) (s : State) :
    (plcRing n data s).die = s.die := by simp [plcRing]

@[simp] theorem plcKind_die (n : Nat) (m : Mpdu) (s : State) : (plcKind n m s).die = s.die := by
  unfold plcKind; (repeat' split) <;> simp

@[simp] theorem plcReceive_die (n : Nat) (m : Mpdu) (s : State) : (plcReceive n m s).die = s.die := by simp [plcReceive]

theorem execPlcMpduReceive_die (n : Fin 66) (m : Mpdu) (s s' : State) (ht : execPlcMpduReceive n m s = .next s') :
    s'.die = s.die := by
  cases ht; simp

@[simp] theorem plcPost_die (n : Nat) (v : Word) (s : State) : (plcPost n v s).die = s.die := by simp [plcPost]

theorem execPlcTxPost_die (n : Fin 66) (v : Word) (s s' : State) (ht : execPlcTxPost n v s = .next s') :
    s'.die = s.die := by
  cases ht; simp

@[simp] theorem plcSend_die (n : Nat) (s : State) : (plcSend n s).die = s.die := by
  unfold plcSend; (repeat' split) <;> simp

@[simp] theorem plcAir_die (n : Nat) (s : State) : (plcAir n s).die = s.die := by
  unfold plcAir; (repeat' split) <;> simp

@[simp] theorem plcSack_die (n : Nat) (bad : BitVec 4) (s : State) : (plcSack n bad s).die = s.die := by
  unfold plcSack; dsimp only; (repeat' split) <;> simp

theorem execPlcSackReceived_die (n : Fin 66) (bad : BitVec 4) (s s' : State) (ht : execPlcSackReceived n bad s = .next s') :
    s'.die = s.die := by
  cases ht; simp

@[simp] theorem deliveryTimeout_die (q : Nat) (s : State) :
    (deliveryTimeout q s).die = s.die := by simp [deliveryTimeout]

@[simp] theorem plcTxTimeout_die (n : Nat) (s : State) : (plcTxTimeout n s).die = s.die := by
  unfold plcTxTimeout; (repeat' split) <;> simp

theorem execPlcTxTimeout_die (n : Fin 66) (s s' : State) (ht : execPlcTxTimeout n s = .next s') : s'.die = s.die := by
  cases ht; simp

@[simp] theorem plcRxPop_die (n : Nat) (s : State) : (plcRxPop n s).die = s.die := by
  unfold plcRxPop; (repeat' split) <;> simp

theorem execPlcRxPop_die (n : Fin 66) (s s' : State) (ht : execPlcRxPop n s = .next s') : s'.die = s.die := by
  cases ht; simp

@[simp] theorem plcDoneRead_die (n : Nat) (s : State) : (plcDoneRead n s).die = s.die := by
  unfold plcDoneRead; (repeat' split) <;> simp

theorem execPlcTxdoneRead_die (n : Fin 66) (s s' : State) (ht : execPlcTxdoneRead n s = .next s') : s'.die = s.die := by
  cases ht; simp

@[simp] theorem ntbRead_die (port n : Nat) (s : State) : (ntbRead port n s).die = s.die := by simp [ntbRead]

theorem execPlcNtbRead_die (port : Fin 24) (n : Fin 66) (s s' : State) (ht : execPlcNtbRead port n s = .next s') :
    s'.die = s.die := by
  cases ht; simp

@[simp] theorem plcCfgWrite_die (n : Nat) (v : Word) (s : State) :
    (plcCfgWrite n v s).die = s.die := by simp [plcCfgWrite]

@[simp] theorem plcCtrlWrite_die (n : Nat) (v : Word) (s : State) :
    (plcCtrlWrite n v s).die = s.die := by simp [plcCtrlWrite]

@[simp] theorem plcBaseWrite_die (n : Nat) (v : Word) (s : State) :
    (plcBaseWrite n v s).die = s.die := by simp [plcBaseWrite]

@[simp] theorem plcRead_die (port n off : Nat) (s : State) : (plcRead port n off s).die = s.die := by
  unfold plcRead; (repeat' split) <;> simp

@[simp] theorem plcWrite_die (n off : Nat) (v : Word) (s : State) : (plcWrite n off v s).die = s.die := by
  unfold plcWrite; (repeat' split) <;> simp

/-! ### Resets -/

@[simp] theorem powerAtReset_die (s : State) : (powerAtReset s).die = s.die := by simp [powerAtReset]

@[simp] theorem appReset_die (causeBit : Nat) (s : State) : (appReset causeBit s).die = s.die := by simp [appReset]

@[simp] theorem coldReset_die (causeBit : Nat) (s : State) : (coldReset causeBit s).die = s.die := by simp [coldReset]

theorem execVcoreTrip_die (s s' : State) (ht : execVcoreTrip s = .next s') : s'.die = s.die := by
  cases ht; simp

theorem execVioTrip_die (s s' : State) (ht : execVioTrip s = .next s') : s'.die = s.die := by
  cases ht; simp

theorem execResetPin_die (s s' : State) (ht : execResetPin s = .next s') : s'.die = s.die := by
  cases ht; simp

theorem execJtagResetRequest_die (s s' : State) (ht : execJtagResetRequest s = .next s') : s'.die = s.die := by
  cases ht; simp

@[simp] theorem rstCtrlWrite_die (v : Word) (s : State) : (rstCtrlWrite v s).die = s.die := by simp [rstCtrlWrite]

theorem execAppResetRequest_die (v : Word) (s s' : State) (ht : execAppResetRequest v s = .next s') :
    s'.die = s.die := by
  cases ht; simp

theorem execWatchdogExpiry_die (s s' : State) (ht : execWatchdogExpiry s = .next s') : s'.die = s.die := by
  cases ht; simp

theorem execWatchdogHalfPeriod_die (s s' : State) (ht : execWatchdogHalfPeriod s = .next s') : s'.die = s.die := by
  cases ht; simp

@[simp] theorem wdogWrite_die (v : Word) (s : State) : (wdogWrite v s).die = s.die := by simp [wdogWrite]

theorem execWatchdogKick_die (v : Word) (s s' : State) (ht : execWatchdogKick v s = .next s') : s'.die = s.die := by
  cases ht; simp

theorem execWatchdogPeriodSet_die (v : Word) (s s' : State) (ht : execWatchdogPeriodSet v s = .next s') :
    s'.die = s.die := by
  cases ht; simp

@[simp] theorem sscWrite_die (v : Word) (s : State) : (sscWrite v s).die = s.die := by simp [sscWrite]

theorem execClkSscWrite_die (v : Word) (s s' : State) (ht : execClkSscWrite v s = .next s') : s'.die = s.die := by
  cases ht; simp

theorem execSpreadDisableHoldExpiry_die (s s' : State) (ht : execSpreadDisableHoldExpiry s = .next s') :
    s'.die = s.die := by
  cases ht; simp

theorem execMainRefFail_die (s s' : State) (ht : execMainRefFail s = .next s') : s'.die = s.die := by
  cases ht; simp

theorem execMainRefRecovered_die (s s' : State) (ht : execMainRefRecovered s = .next s') : s'.die = s.die := by
  cases ht; simp

theorem execPllChUnlock_die (_h : Bool) (s s' : State) (ht : execPllChUnlock _h s = .next s') : s'.die = s.die := by
  cases ht; simp

theorem execPllPUnlock_die (s s' : State) (ht : execPllPUnlock s = .next s') : s'.die = s.die := by
  unfold execPllPUnlock at ht
  have ht := Host.Outcome.next.inj ht; subst ht
  first
  | ((repeat' split) <;> simp; done)
  | (dsimp only; done)
  | (dsimp only; (repeat' split) <;> simp; done)
  | (dsimp only; (repeat' split) <;> simp [*]; done)
  | ((repeat' split) <;> simp [*]; done)
  | exact whenDie_die _ _ (fun t => by first | (dsimp only; (repeat' split) <;> simp [*]; done) | (simp; (repeat' split) <;> simp; done))
  | (split <;> first | rfl | exact whenDie_die _ _ (fun t => by dsimp only; (repeat' split) <;> simp [*]))

theorem execPllEUnlock_die (eth0 eth1 : Bool) (s s' : State) (ht : execPllEUnlock eth0 eth1 s = .next s') :
    s'.die = s.die := by
  cases ht; simp

@[simp] theorem stitcherReset_die (s0 : State) : (stitcherReset s0).die = s0.die := by simp [stitcherReset]

@[simp] theorem anyEngineReset_die (e : Nat) (s : State) : (anyEngineReset e s).die = s.die := by simp [anyEngineReset]

@[simp] theorem trialWrite_die (v : Word) (s : State) : (trialWrite v s).die = s.die := by simp [trialWrite]

theorem execLdrTrialStart_die (v : Word) (s s' : State) (ht : execLdrTrialStart v s = .next s') : s'.die = s.die := by
  cases ht; simp

theorem execLdrTrialStop_die (v : Word) (s s' : State) (ht : execLdrTrialStop v s = .next s') : s'.die = s.die := by
  cases ht; simp

theorem execTrialExpiry_die (s s' : State) (ht : execTrialExpiry s = .next s') : s'.die = s.die := by
  cases ht; simp

/-! ### Mem -/

@[simp] theorem memPut_die (a : Nat) (b : Byte) (s : State) : (memPut a b s).die = s.die := by
  unfold memPut; (repeat' split) <;> simp

@[simp] theorem memPuts_die (a : Nat) (l : List Byte) (s : State) : (memPuts a l s).die = s.die := by
  induction l generalizing s a with
  | nil => rfl
  | cons b r ih => simp [memPuts, ih]

@[simp] theorem markBytes_die (k a n : Nat) (s : State) : (markBytes k a n s).die = s.die := by simp [markBytes]

@[simp] theorem dmaPut_die (port a : Nat) (l : List Byte) (s : State) :
    (dmaPut port a l s).die = s.die := by simp [dmaPut]

@[simp] theorem dmaGet_die (a n : Nat) (s : State) : (dmaGet a n s).2.die = s.die := by
  unfold dmaGet; (repeat' split) <;> simp

/-! ### Tack -/

@[simp] theorem putSlots_die (b : Bank KeySlot) (s : State) : (putSlots b s).die = s.die := by simp [putSlots]

@[simp] theorem putSlot_die (i : Nat) (k : KeySlot) (s : State) : (putSlot i k s).die = s.die := by simp [putSlot]

@[simp] theorem tackReply_die (cmd slot : Nat) (st : Status) (s : State) :
    (tackReply cmd slot st s).die = s.die := by simp [tackReply]

@[simp] theorem tackServe_die (cmd slot : Nat) (kinds : List Nat) (f : State → Status × State) (s : State) (h_f : ∀  t, (f  t).2.die = t.die) :
    (tackServe cmd slot kinds f s).die = s.die := by
  unfold tackServe; dsimp only; (repeat' split) <;> simp [*]

@[simp] theorem tackGenerate_die (i : Nat) (attr : Word) (s : State) : (tackGenerate i attr s).2.die = s.die := by
  unfold tackGenerate; dsimp only; (repeat' split) <;> simp

@[simp] theorem tackImport_die (i : Nat) (attr : Word) (data : Option (List Byte)) (r : Role) (unwrapOk : Bool) (s : State) :
    (tackImport i attr data r unwrapOk s).2.die = s.die := by
  unfold tackImport
  dsimp only
  refine ite2_die _ _ _ _ (fun _ => rfl) (fun _ => ?_)
  refine ite2_die _ _ _ _ (fun _ => rfl) (fun _ => ?_)
  refine ite2_die _ _ _ _ (fun _ => rfl) (fun _ => ?_)
  refine ite2_die _ _ _ _ (fun _ => rfl) (fun _ => ?_)
  cases data with
  | none => rfl
  | some d =>
    refine ite2_die _ _ _ _ (fun _ => ?_) (fun _ => ?_)
    · refine ite2_die _ _ _ _ (fun _ => rfl) (fun _ => ?_)
      refine ite2_die _ _ _ _ (fun _ => rfl) (fun _ => ?_)
      refine ite2_die _ _ _ _ (fun _ => rfl) (fun _ => ?_)
      refine ite2_die _ _ _ _ (fun _ => rfl) (fun _ => ?_)
      refine ite2_die _ _ _ _ (fun _ => rfl) (fun _ => ?_)
      refine ite2_die _ _ _ _ (fun _ => rfl) (fun _ => ?_)
      exact putSlot_die _ _ _
    · refine ite2_die _ _ _ _ (fun _ => rfl) (fun _ => ?_)
      refine ite2_die _ _ _ _ (fun _ => rfl) (fun _ => ?_)
      exact putSlot_die _ _ _

@[simp] theorem tackDerive_die (i p : Nat) (label : Option (List Byte)) (attr : Word) (s : State) :
    (tackDerive i p label attr s).2.die = s.die := by
  unfold tackDerive; dsimp only; (repeat' split) <;> simp

@[simp] theorem tackDelete_die (i : Nat) (r : Role) (s : State) : (tackDelete i r s).2.die = s.die := by
  unfold tackDelete; dsimp only; (repeat' split) <;> simp

@[simp] theorem tackPut_die (a : Nat) (l : List Byte) (s : State) : (tackPut a l s).2.die = s.die := by
  unfold tackPut; (repeat' split) <;> simp

@[simp] theorem tackPublic_die (i a : Nat) (s : State) : (tackPublic i a s).2.die = s.die := by
  unfold tackPublic; dsimp only; (repeat' split) <;> simp

@[simp] theorem tackSign_die (i a : Nat) (s : State) : (tackSign i a s).2.die = s.die := by
  unfold tackSign; (repeat' split) <;> simp

@[simp] theorem tackVerify_die (i a : Nat) (good : Bool) (s : State) : (tackVerify i a good s).2.die = s.die := by
  unfold tackVerify; (repeat' split) <;> simp

@[simp] theorem tackAgree_die (i a : Nat) (s : State) : (tackAgree i a s).2.die = s.die := by
  unfold tackAgree; (repeat' split) <;> simp

theorem execGenerate_die (slot : BitVec 8) (attr : Word) (s s' : State) (ht : execGenerate slot attr s = .next s') :
    s'.die = s.die := by
  cases ht; simp

theorem execImportKey_die (slot : BitVec 8) (attr : Word) (addr len : Nat) (role : Role) (unwrapOk : Bool) (s s' : State) (ht : execImportKey slot attr addr len role unwrapOk s = .next s') :
    s'.die = s.die := by
  cases ht; simp

theorem execDerive_die (slot parent : BitVec 8) (labelAddr labelLen : Nat) (attr : Word) (s s' : State) (ht : execDerive slot parent labelAddr labelLen attr s = .next s') :
    s'.die = s.die := by
  cases ht; simp

theorem execDelete_die (slot : BitVec 8) (role : Role) (s s' : State) (ht : execDelete slot role s = .next s') :
    s'.die = s.die := by
  cases ht; simp

theorem execPublicKey_die (slot : BitVec 8) (addr : Word) (s s' : State) (ht : execPublicKey slot addr s = .next s') :
    s'.die = s.die := by
  cases ht; simp

theorem execSign_die (slot : BitVec 8) (addr : Word) (s s' : State) (ht : execSign slot addr s = .next s') :
    s'.die = s.die := by
  cases ht; simp

theorem execVerify_die (slot : BitVec 8) (addr : Word) (good : Bool) (s s' : State) (ht : execVerify slot addr good s = .next s') :
    s'.die = s.die := by
  cases ht; simp

theorem execAgree_die (slot : BitVec 8) (addr : Word) (s s' : State) (ht : execAgree slot addr s = .next s') :
    s'.die = s.die := by
  cases ht; simp

@[simp] theorem measureInto_die (k : Nat) (h : BitVec 384) (s : State) :
    (measureInto k h s).die = s.die := by simp [measureInto]

@[simp] theorem tackMeasure_die (k a n : Nat) (s : State) : (tackMeasure k a n s).2.die = s.die := by
  unfold tackMeasure; (repeat' split) <;> simp

theorem execMeasure_die (unit : BitVec 8) (addr len : Nat) (s s' : State) (ht : execMeasure unit addr len s = .next s') :
    s'.die = s.die := by
  cases ht; simp

@[simp] theorem tackRandom_die (a n : Nat) (s : State) : (tackRandom a n s).2.die = s.die := by
  unfold tackRandom; (repeat' split) <;> simp

theorem execRandom_die (addr : Word) (len : Nat) (s s' : State) (ht : execRandom addr len s = .next s') :
    s'.die = s.die := by
  cases ht; simp

@[simp] theorem rewrap_die (mr0 mr2 mr3 : BitVec 384) (s : State) :
    (rewrap mr0 mr2 mr3 s).die = s.die := by simp [rewrap]

@[simp] theorem successorWrite_die (m : Manifest) (s : State) :
    (successorWrite m s).die = s.die := by simp [successorWrite]

@[simp] theorem eraseSpare_die (s : State) : (eraseSpare s).die = s.die := by simp [eraseSpare]

@[simp] theorem tackSuccessor_die (s : State) : (tackSuccessor s).2.die = s.die := by
  unfold tackSuccessor; (repeat' split) <;> simp

theorem execSuccessor_die (_addr : Word) (s s' : State) (ht : execSuccessor _addr s = .next s') : s'.die = s.die := by
  cases ht; simp

@[simp] theorem fuseDebug_die (v : BitVec 384) (s : State) : (fuseDebug v s).2.die = s.die := by
  unfold fuseDebug; (repeat' split) <;> simp

@[simp] theorem fuseSafe_die (v staged : BitVec 384) (s : State) : (fuseSafe v staged s).2.die = s.die := by
  unfold fuseSafe; (repeat' split) <;> simp

@[simp] theorem tackFuse_die (f : FuseField) (v : BitVec 384) (s : State) : (tackFuse f v s).2.die = s.die := by
  unfold tackFuse; (repeat' split) <;> simp

theorem execFuse_die (field : FuseField) (v : BitVec 384) (s s' : State) (ht : execFuse field v s = .next s') :
    s'.die = s.die := by
  cases ht; simp

@[simp] theorem decommission_die (r : Role) (v : Word) (s : State) : (decommission r v s).2.die = s.die := by
  unfold decommission; (repeat' split) <;> simp

theorem execDecommission_die (role : Role) (v : Word) (s s' : State) (ht : execDecommission role v s = .next s') :
    s'.die = s.die := by
  cases ht; simp

/-! ### Update -/

@[simp] theorem State.updUpd_die (s : State) (f : Update → Update) :
    (State.updUpd s f).die = s.die := by simp [State.updUpd]

@[simp] theorem upLogHash_die (k : LogKind) (blk aux : Nat) (h : BitVec 384) (s : State) :
    (upLogHash k blk aux h s).die = s.die := by simp [upLogHash]

@[simp] theorem upLog_die (k : LogKind) (blk aux : Nat) (s : State) : (upLog k blk aux s).die = s.die := by simp [upLog]

@[simp] theorem imageSet_die (b : Nat) (h : BitVec 384) (s : State) : (imageSet b h s).die = s.die := by simp [imageSet]

@[simp] theorem updatePrepare_die (m : Manifest) (s : State) :
    (updatePrepare m s).die = s.die := by simp [updatePrepare]

@[simp] theorem manifestAccept_die (role : Role) (latigo : Bool) (m : Manifest) (s : State) :
    (manifestAccept role latigo m s).2.die = s.die := by simp [manifestAccept]

theorem execManifestAccept_die (role : Role) (latigo : Bool) (m : Manifest) (s s' : State) (ht : execManifestAccept role latigo m s = .next s') :
    s'.die = s.die := by
  cases ht; simp

@[simp] theorem restoreBlock_die (b : Nat) (s : State) : (restoreBlock b s).die = s.die := by simp [restoreBlock]

@[simp] theorem restoreAll_die (s : State) : (restoreAll s).die = s.die := by
  unfold restoreAll
  dsimp only
  rw [State.updUpd_die, foldl_die _ (fun t b => restoreBlock_die _ t)]

@[simp] theorem updateUndone_die (s : State) : (updateUndone s).die = s.die := by simp [updateUndone]

@[simp] theorem rollback_die (s : State) : (rollback s).die = s.die := by simp [rollback]

@[simp] theorem updateBlock_die (b : BlockData) (s : State) : (updateBlock b s).2.die = s.die := by
  unfold updateBlock; dsimp only; (repeat' split) <;> simp

theorem execUpdateBlock_die (b : BlockData) (s s' : State) (ht : execUpdateBlock b s = .next s') : s'.die = s.die := by
  cases ht; simp

@[simp] theorem updateAbandon_die (v : Nat) (s : State) : (updateAbandon v s).2.die = s.die := by
  unfold updateAbandon; dsimp only; (repeat' split) <;> simp

theorem execUpdateAbandon_die (v : BitVec 8) (s s' : State) (ht : execUpdateAbandon v s = .next s') :
    s'.die = s.die := by
  cases ht; simp

@[simp] theorem handover_die (v : Nat) (s : State) : (handover v s).2.die = s.die := by
  unfold handover; (repeat' split) <;> simp

theorem execHandover_die (v : BitVec 8) (s s' : State) (ht : execHandover v s = .next s') : s'.die = s.die := by
  cases ht; simp

@[simp] theorem confirmUpdate_die (m : Manifest) (s : State) :
    (confirmUpdate m s).die = s.die := by simp [confirmUpdate]

@[simp] theorem tackConfirm_die (s : State) : (tackConfirm s).2.die = s.die := by
  unfold tackConfirm; (repeat' split) <;> simp

theorem execConfirm_die (s s' : State) (ht : execConfirm s = .next s') : s'.die = s.die := by
  cases ht; simp

@[simp] theorem trialBegin_die (s : State) : (trialBegin s).die = s.die := by simp [trialBegin]

@[simp] theorem loaderResume_die (compsGood : Bool) (s : State) : (loaderResume compsGood s).2.die = s.die := by
  unfold loaderResume; dsimp only; (repeat' split) <;> simp

/-! ### Skiver -/

@[simp] theorem skvSubmit_die (port a : Nat) (s : State) : (skvSubmit port a s).die = s.die := by simp [skvSubmit]

theorem execSkiverSubmit_die (port : Fin 24) (addr : Word) (s s' : State) (ht : execSkiverSubmit port addr s = .next s') :
    s'.die = s.die := by
  cases ht; simp

@[simp] theorem skvCpl_die (l : List (Nat × Status)) (s : State) : (skvCpl l s).die = s.die := by simp [skvCpl]

@[simp] theorem skvDone_die (j : SkvJob) (e : SkvEnd) (s : State) : (skvDone j e s).die = s.die := by simp [skvDone]

@[simp] theorem skvRun_die (j : SkvJob) (r : SkvResult) (s : State) : (skvRun j r s).die = s.die := by simp [skvRun]

theorem execSkiverComplete_die (tag : BitVec 16) (r : SkvResult) (s s' : State) (ht : execSkiverComplete tag r s = .next s') :
    s'.die = s.die := by
  cases ht; (repeat' split) <;> simp

@[simp] theorem skvCplRead_die (s : State) : (skvCplRead s).die = s.die := by
  unfold skvCplRead; (repeat' split) <;> simp

theorem execSkiverCplRead_die (s s' : State) (ht : execSkiverCplRead s = .next s') : s'.die = s.die := by
  cases ht; simp

@[simp] theorem skvCfgWrite_die (v : Word) (s : State) : (skvCfgWrite v s).die = s.die := by simp [skvCfgWrite]

/-! ### Vehicle -/

@[simp] theorem State.updVc_die (s : State) (n : Nat) (f : V2gConn → V2gConn) :
    (State.updVc s n f).die = s.die := by simp [State.updVc]

@[simp] theorem vehicleRequest_die (p slot v : Nat) (i : Int) (s : State) :
    (vehicleRequest p slot v i s).die = s.die := by simp [vehicleRequest]

@[simp] theorem sdpAnswer_die (n : Nat) (tls : Bool) (s : State) :
    (sdpAnswer n tls s).die = s.die := by simp [sdpAnswer]

theorem execSdpRequest_die (n : Fin 64) (tls : Bool) (s s' : State) (ht : execSdpRequest n tls s = .next s') :
    s'.die = s.die := by
  cases ht; simp

@[simp] theorem spillAssign_die (n : Nat) (s : State) : (spillAssign n s).die = s.die := by simp [spillAssign]

@[simp] theorem tcpConnect_die (n : Nat) (tls : Bool) (s : State) :
    (tcpConnect n tls s).die = s.die := by simp [tcpConnect]

theorem execV2gTcpConnect_die (n : Fin 64) (tls : Bool) (s s' : State) (ht : execV2gTcpConnect n tls s = .next s') :
    s'.die = s.die := by
  cases ht; simp

@[simp] theorem connClose_die (n : Nat) (s : State) : (connClose n s).die = s.die := by simp [connClose]

@[simp] theorem connFail_die (n : Nat) (s : State) : (connFail n s).die = s.die := by simp [connFail]

@[simp] theorem tlsHandshake_die (n : Nat) (h : V2gHello) (s : State) : (tlsHandshake n h s).die = s.die := by
  unfold tlsHandshake
  dsimp only
  split
  · rfl
  split
  · simp
  split
  · simp
  · rename_i e; rw [State.updVc_die, girthRun_die _ _ _ _ e]

theorem execV2gTlsHandshake_die (n : Fin 64) (h : V2gHello) (s s' : State) (ht : execV2gTlsHandshake n h s = .next s') :
    s'.die = s.die := by
  cases ht; simp

@[simp] theorem handOver_die (n slot : Nat) (s : State) : (handOver n slot s).die = s.die := by simp [handOver]

@[simp] theorem v2gtp_die (n ver inv ty len : Nat) (s : State) : (v2gtp n ver inv ty len s).die = s.die := by
  unfold v2gtp; dsimp only; (repeat' split) <;> simp

theorem execV2gtpMessage_die (n : Fin 64) (version inverse : BitVec 8) (ptype : BitVec 16) (len : Nat) (s s' : State) (ht : execV2gtpMessage n version inverse ptype len s = .next s') :
    s'.die = s.die := by
  cases ht; simp

@[simp] theorem sapRequest_die (n : Nat) (l : List ProtoOffer) (s : State) : (sapRequest n l s).die = s.die := by
  unfold sapRequest; dsimp only; (repeat' split) <;> simp

theorem execSupportedAppProtocolReq_die (n : Fin 64) (offers : List ProtoOffer) (s s' : State) (ht : execSupportedAppProtocolReq n offers s = .next s') :
    s'.die = s.die := by
  cases ht; simp

@[simp] theorem answer_die (n : Nat) (m : V2gMsg) (a : V2gAns) (s : State) :
    (answer n m a s).die = s.die := by simp [answer]

@[simp] theorem waitFor_die (n : Nat) (m : V2gMsg) (s : State) : (waitFor n m s).die = s.die := by simp [waitFor]

@[simp] theorem seqError_die (n : Nat) (s : State) : (seqError n s).die = s.die := by simp [seqError]

@[simp] theorem onRequest_die (n : Nat) (m : V2gMsg) (f : Nat → Proto → State → State) (s : State) (h_f : ∀ x0 x1 t, (f x0 x1 t).die = t.die) :
    (onRequest n m f s).die = s.die := by
  unfold onRequest; dsimp only; (repeat' split) <;> simp [*]

@[simp] theorem authDecide_die (n slot : Nat) (s : State) : (authDecide n slot s).die = s.die := by simp [authDecide]

@[simp] theorem requestCoil_die (n slot : Nat) (s : State) : (requestCoil n slot s).die = s.die := by simp [requestCoil]

@[simp] theorem report_die (n : Nat) (m : V2gMsg) (s : State) : (report n m s).die = s.die := by simp [report]

@[simp] theorem answerWith_die (n : Nat) (m : V2gMsg) (a : V2gAns) (s : State) :
    (answerWith n m a s).die = s.die := by simp [answerWith]

@[simp] theorem cableCheck_die (n : Nat) (s : State) : (cableCheck n s).die = s.die := by
  unfold cableCheck; (repeat' split) <;> simp

@[simp] theorem withTariff_die (n : Nat) (m : V2gMsg) (f : State → State) (s : State) (h_f : ∀  t, (f  t).die = t.die) :
    (withTariff n m f s).die = s.die := by
  unfold withTariff; (repeat' split) <;> simp [*]

@[simp] theorem chargeParams_die (n slot : Nat) (pr : Proto) (x : V2gVals) (s : State) :
    (chargeParams n slot pr x s).die = s.die := by simp [chargeParams]

@[simp] theorem demand_die (n slot : Nat) (m : V2gMsg) (x : V2gVals) (s : State) :
    (demand n slot m x s).die = s.die := by simp [demand]

@[simp] theorem contactorOff_die (p : Nat) (s : State) : (contactorOff p s).die = s.die := by simp [contactorOff]

@[simp] theorem stopDone_die (slot : Nat) (s : State) : (stopDone slot s).die = s.die := by simp [stopDone]

@[simp] theorem sessionStop_die (n slot : Nat) (s : State) : (sessionStop n slot s).die = s.die := by simp [sessionStop]

@[simp] theorem powerPause_die (n slot : Nat) (s : State) : (powerPause n slot s).die = s.die := by simp [powerPause]

@[simp] theorem authSetup_die (n : Nat) (s : State) : (authSetup n s).die = s.die := by simp [authSetup]

@[simp] theorem certInstall_die (n slot : Nat) (stream : List Byte) (f : State → State) (s : State) (h_f : ∀  t, (f  t).die = t.die) :
    (certInstall n slot stream f s).die = s.die := by
  unfold certInstall; (repeat' split) <;> simp [*]

@[simp] theorem certAnswer_die (n slot : Nat) (s : State) : (certAnswer n slot s).die = s.die := by simp [certAnswer]

theorem execAuthorizationSetupReq_die (n : Fin 64) (s s' : State) (ht : execAuthorizationSetupReq n s = .next s') :
    s'.die = s.die := by
  cases ht; simp

@[simp] theorem pncRun_die (n slot : Nat) (a : PncCheck) (s : State) : (pncRun n slot a s).die = s.die := by
  unfold pncRun; (repeat' split) <;> simp

@[simp] theorem pncAuth_die (n slot : Nat) (a : PncCheck) (s : State) : (pncAuth n slot a s).die = s.die := by
  unfold pncAuth
  dsimp only
  split
  · exact authDecide_die _ _ _
  split
  · simp
  · rename_i e; rw [pncRun_die, girthRun_die _ _ _ _ e]

theorem execAuthorizationReq_die (n : Fin 64) (a : PncCheck) (s s' : State) (ht : execAuthorizationReq n a s = .next s') :
    s'.die = s.die := by
  cases ht; simp

theorem execCertificateInstallationReq_die (n : Fin 64) (stream : List Byte) (s s' : State) (ht : execCertificateInstallationReq n stream s = .next s') :
    s'.die = s.die := by
  cases ht; simp

@[simp] theorem failStop_die (n slot : Nat) (m : V2gMsg) (a : V2gAns) (s : State) :
    (failStop n slot m a s).die = s.die := by simp [failStop]

@[simp] theorem energise_die (slot : Nat) (s : State) : (energise slot s).die = s.die := by simp [energise]

@[simp] theorem powerStart_die (n slot : Nat) (late : Bool) (s : State) :
    (powerStart n slot late s).die = s.die := by simp [powerStart]

theorem execPowerDeliveryStart_die (n : Fin 64) (late : Bool) (s s' : State) (ht : execPowerDeliveryStart n late s = .next s') :
    s'.die = s.die := by
  cases ht; simp

@[simp] theorem ongoingExpiry_die (n : Nat) (s : State) : (ongoingExpiry n s).die = s.die := by
  unfold ongoingExpiry; dsimp only; (repeat' split) <;> simp

theorem execOngoingTimeExpiry_die (n : Fin 64) (s s' : State) (ht : execOngoingTimeExpiry n s = .next s') :
    s'.die = s.die := by
  cases ht; simp

@[simp] theorem answerWaiting_die (n slot : Nat) (s : State) : (answerWaiting n slot s).die = s.die := by
  unfold answerWaiting; (repeat' split) <;> simp

@[simp] theorem decisionTaken_die (n slot : Nat) (s : State) :
    (decisionTaken n slot s).die = s.die := by simp [decisionTaken]

theorem execHostDecisionTimeout_die (n : Fin 64) (s s' : State) (ht : execHostDecisionTimeout n s = .next s') :
    s'.die = s.die := by
  cases ht; simp

@[simp] theorem hostIdent_die (slot : Nat) (s : State) : (hostIdent slot s).die = s.die := by simp [hostIdent]

@[simp] theorem hostDecide_die (slot d : Nat) (s : State) : (hostDecide slot d s).2.die = s.die := by
  unfold hostDecide; dsimp only; (repeat' split) <;> simp

theorem execHostDecision_die (slot : Fin 256) (handle : Word) (serial : BitVec 64) (decision : BitVec 8) (s s' : State) (ht : execHostDecision slot handle serial decision s = .next s') :
    s'.die = s.die := by
  cases ht; simp

theorem execV2gSequenceTimeout_die (n : Fin 64) (s s' : State) (ht : execV2gSequenceTimeout n s = .next s') :
    s'.die = s.die := by
  cases ht; simp

theorem execV2gSetupTimeout_die (n : Fin 64) (s s' : State) (ht : execV2gSetupTimeout n s = .next s') :
    s'.die = s.die := by
  cases ht; simp

theorem execAwlJobComplete_die (pka ok : Bool) (slot : Option (Fin 256)) (s s' : State) (ht : execAwlJobComplete pka ok slot s = .next s') :
    s'.die = s.die := by
  cases ht; (repeat' split) <;> simp

@[simp] theorem withPort_die (k : Nat) (f : Nat → State → State) (s : State) (h_f : ∀ x0 t, (f x0 t).die = t.die) :
    (withPort k f s).die = s.die := by
  unfold withPort; (repeat' split) <;> simp [*]

@[simp] theorem faultStop_die (k p reason : Nat) (s : State) :
    (faultStop k p reason s).die = s.die := by simp [faultStop]

@[simp] theorem requestLock_die (p slot : Nat) (s : State) : (requestLock p slot s).die = s.die := by simp [requestLock]

@[simp] theorem seqAdvance_die (k p slot : Nat) (s : State) :
    (seqAdvance k p slot s).die = s.die := by simp [seqAdvance]

theorem execSequenceSignalChange_die (k : Fin 8) (prox level : Bool) (s s' : State) (ht : execSequenceSignalChange k prox level s = .next s') :
    s'.die = s.die := by
  cases ht; simp

@[simp] theorem vcan102_die (k p slot : Nat) (data : List Byte) (s : State) :
    (vcan102 k p slot data s).die = s.die := by simp [vcan102]

@[simp] theorem vcanTake_die (k p slot n : Nat) (data : List Byte) (s : State) :
    (vcanTake k p slot n data s).die = s.die := by simp [vcanTake]

theorem execVcanFrame_die (k : Fin 8) (id : BitVec 11) (data : List Byte) (s s' : State) (ht : execVcanFrame k id data s = .next s') :
    s'.die = s.die := by
  cases ht; simp

theorem execChargerFramePeriod_die (k : Fin 8) (s s' : State) (ht : execChargerFramePeriod k s = .next s') :
    s'.die = s.die := by
  cases ht; simp

theorem execVcanFirstFrameTimeout_die (k : Fin 8) (s s' : State) (ht : execVcanFirstFrameTimeout k s = .next s') :
    s'.die = s.die := by
  cases ht; simp

theorem execVcanFrameTimeout_die (k : Fin 8) (s s' : State) (ht : execVcanFrameTimeout k s = .next s') :
    s'.die = s.die := by
  cases ht; simp

@[simp] theorem vcanConfine_die (k : Nat) (s : State) : (vcanConfine k s).die = s.die := by simp [vcanConfine]

/-! ### Harness -/

@[simp] theorem harnessBurst_die (t : Nat) (reqs : List BurstReq) (s : State) :
    (harnessBurst t reqs s).die = s.die := by
  unfold harnessBurst; dsimp only; (repeat' split) <;> simp

@[simp] theorem eccReport_die (m : Nat) (e : Ecc) (s : State) : (eccReport m e s).die = s.die := by
  unfold eccReport; (repeat' split) <;> simp

theorem execHarnessBurst_die (t : Fin 30) (b : BurstReqs) (s s' : State) (ht : execHarnessBurst t b s = .next s') :
    s'.die = s.die := by
  cases ht; simp

@[simp] theorem waitMaxRead_die (t : Nat) (s : State) : (waitMaxRead t s).die = s.die := by simp [waitMaxRead]

theorem execHrnWaitmaxRead_die (t : Fin 30) (s s' : State) (ht : execHrnWaitmaxRead t s = .next s') :
    s'.die = s.die := by
  cases ht; simp

/-! ### Journal -/

@[simp] theorem stageRec_die (r : JRec) (s : State) : (stageRec r s).die = s.die := by simp [stageRec]

@[simp] theorem setArea_die (k : Nat) (a : Area) (s : State) : (setArea k a s).die = s.die := by simp [setArea]

@[simp] theorem batchRequest_die (s : State) : (batchRequest s).die = s.die := by
  unfold batchRequest; (repeat' split) <;> simp

@[simp] theorem batchClose_die (s : State) : (batchClose s).die = s.die := by simp [batchClose]

theorem execJournalBatchClose_die (_save : Bool) (s s' : State) (ht : execJournalBatchClose _save s = .next s') :
    s'.die = s.die := by
  cases ht; simp

@[simp] theorem areaCompacted_die (k ticket : Nat) (s : State) :
    (areaCompacted k ticket s).die = s.die := by simp [areaCompacted]

@[simp] theorem batchProgrammed_die (s : State) : (batchProgrammed s).die = s.die := by
  unfold batchProgrammed; (repeat' split) <;> simp

@[simp] theorem journalDone_die (s : State) : (journalDone s).die = s.die := by
  unfold journalDone; (repeat' split) <;> simp

theorem execXspiOperationDone_die (err : Bool) (s s' : State) (ht : execXspiOperationDone err s = .next s') :
    s'.die = s.die := by
  cases ht; simp

@[simp] theorem journalRead_die (aOk bOk : Bool) (bad : List (Bool × Nat)) (s : State) :
    (journalRead aOk bOk bad s).die = s.die := by simp [journalRead]

@[simp] theorem restoreDefaults_die (s : State) : (restoreDefaults s).die = s.die := by simp [restoreDefaults]

/-! ### Counters -/

theorem execCounterWrap_die (i : Fin 128) (s s' : State) (ht : execCounterWrap i s = .next s') : s'.die = s.die := by
  cases ht; simp

@[simp] theorem pmcSelect_die (i : Nat) (v : Word) (s : State) : (pmcSelect i v s).die = s.die := by simp [pmcSelect]

theorem execPmcSelect_die (i : Fin 128) (v : Word) (s s' : State) (ht : execPmcSelect i v s = .next s') :
    s'.die = s.die := by
  cases ht; simp

@[simp] theorem pmcSnapshot_die (v : Word) (s : State) : (pmcSnapshot v s).die = s.die := by simp [pmcSnapshot]

theorem execPmcSnapshot_die (v : Word) (s s' : State) (ht : execPmcSnapshot v s = .next s') : s'.die = s.die := by
  cases ht; simp

/-! ### Served -/

@[simp] theorem ownRead_die (idx sub : Nat) (s : State) : (ownRead idx sub s).die = s.die := by simp [ownRead]

/-! ### Earth -/

@[simp] theorem State.updRc_die (s : State) (n : Nat) (f : RcCh → RcCh) :
    (State.updRc s n f).die = s.die := by simp [State.updRc]

@[simp] theorem rcEvt_die (n i : Nat) (s : State) : (rcEvt n i s).die = s.die := by simp [rcEvt]

@[simp] theorem rcEnd_die (n : Nat) (meanUv : Int) (rmsUv : Nat) (s : State) :
    (rcEnd n meanUv rmsUv s).die = s.die := by
  unfold rcEnd; dsimp only; (repeat' split) <;> simp

theorem execRcWindowEnd_die (n : Fin 64) (meanUv : Int) (rmsUv : Nat) (s s' : State) (ht : execRcWindowEnd n meanUv rmsUv s = .next s') :
    s'.die = s.die := by
  cases ht; simp

@[simp] theorem rcClear_die (n : Nat) (s : State) : (rcClear n s).die = s.die := by simp [rcClear]

theorem execRcClear_die (n : Fin 64) (s s' : State) (ht : execRcClear n s = .next s') : s'.die = s.die := by
  cases ht; simp

@[simp] theorem rcCfgWrite_die (n : Nat) (v : Word) (s : State) : (rcCfgWrite n v s).die = s.die := by simp [rcCfgWrite]

theorem execRcCfgWrite_die (n : Fin 64) (v : Word) (s s' : State) (ht : execRcCfgWrite n v s = .next s') :
    s'.die = s.die := by
  cases ht; simp

@[simp] theorem State.updIm_die (s : State) (k : Nat) (f : ImCh → ImCh) :
    (State.updIm s k f).die = s.die := by simp [State.updIm]

@[simp] theorem imEvt_die (k i : Nat) (s : State) : (imEvt k i s).die = s.die := by simp [imEvt]

@[simp] theorem imResult_die (k r : Nat) (s : State) : (imResult k r s).die = s.die := by simp [imResult]

@[simp] theorem imHalf_die (k : Nat) (vp vn : Int) (span : Nat) (s : State) : (imHalf k vp vn span s).die = s.die := by
  unfold imHalf; dsimp only; (repeat' split) <;> simp

theorem execImHalfPeriodEnd_die (k : Fin 16) (vp vn : Int) (span : Nat) (s s' : State) (ht : execImHalfPeriodEnd k vp vn span s = .next s') :
    s'.die = s.die := by
  cases ht; simp

@[simp] theorem imStart_die (k : Nat) (st : ImSt) (s : State) : (imStart k st s).die = s.die := by simp [imStart]

@[simp] theorem imEnable_die (k : Nat) (s : State) : (imEnable k s).die = s.die := by simp [imEnable]

theorem execImEnable_die (k : Fin 16) (s s' : State) (ht : execImEnable k s = .next s') : s'.die = s.die := by
  cases ht; simp

@[simp] theorem imDisable_die (k : Nat) (s : State) : (imDisable k s).die = s.die := by simp [imDisable]

theorem execImDisable_die (k : Fin 16) (s s' : State) (ht : execImDisable k s = .next s') : s'.die = s.die := by
  cases ht; simp

@[simp] theorem imPause_die (k : Nat) (s : State) : (imPause k s).die = s.die := by simp [imPause]

theorem execImPause_die (k : Fin 16) (s s' : State) (ht : execImPause k s = .next s') : s'.die = s.die := by
  cases ht; simp

@[simp] theorem imResume_die (k : Nat) (s : State) : (imResume k s).die = s.die := by simp [imResume]

theorem execImResume_die (k : Fin 16) (s s' : State) (ht : execImResume k s = .next s') : s'.die = s.die := by
  cases ht; simp

@[simp] theorem imClear_die (k : Nat) (s : State) : (imClear k s).die = s.die := by simp [imClear]

theorem execImClear_die (k : Fin 16) (s s' : State) (ht : execImClear k s = .next s') : s'.die = s.die := by
  cases ht; simp

@[simp] theorem imCfgWrite_die (k : Nat) (v : Word) (s : State) : (imCfgWrite k v s).die = s.die := by simp [imCfgWrite]

@[simp] theorem imNetWrite_die (k : Nat) (v : Word) (s : State) : (imNetWrite k v s).die = s.die := by simp [imNetWrite]

@[simp] theorem imDivWrite_die (k : Nat) (v : Word) (s : State) : (imDivWrite k v s).die = s.die := by simp [imDivWrite]

@[simp] theorem imThrWrite_die (k : Nat) (v : Word) (s : State) : (imThrWrite k v s).die = s.die := by simp [imThrWrite]

@[simp] theorem earthFrame_die (u : EarthUnit) (s : State) : (earthFrame u s).die = s.die := by
  unfold earthFrame; (repeat' split) <;> simp

theorem execEarthFaultFrame_die (u : EarthUnit) (s s' : State) (ht : execEarthFaultFrame u s = .next s') :
    s'.die = s.die := by
  cases ht; simp

/-! ### Handlers -/

@[simp] theorem toLinking_die (p slot : Nat) (s : State) : (toLinking p slot s).die = s.die := by simp [toLinking]

@[simp] theorem toBasic_die (p slot : Nat) (s : State) : (toBasic p slot s).die = s.die := by simp [toBasic]

@[simp] theorem connected_die (p slot : Nat) (s : State) : (connected p slot s).die = s.die := by simp [connected]

@[simp] theorem connect_die (p slot : Nat) (s : State) : (connect p slot s).die = s.die := by simp [connect]

@[simp] theorem faultEnd_die (p slot reason : Nat) (s : State) :
    (faultEnd p slot reason s).die = s.die := by simp [faultEnd]

@[simp] theorem closingOn_die (p slot : Nat) (s : State) : (closingOn p slot s).die = s.die := by simp [closingOn]

@[simp] theorem stoppingOn_die (p slot : Nat) (s : State) : (stoppingOn p slot s).die = s.die := by simp [stoppingOn]

@[simp] theorem servePilot_die (p slot : Nat) (s : State) : (servePilot p slot s).die = s.die := by simp [servePilot]

@[simp] theorem serveEarth_die (p slot : Nat) (s : State) : (serveEarth p slot s).die = s.die := by simp [serveEarth]

@[simp] theorem serveGrant_die (p slot : Nat) (s : State) : (serveGrant p slot s).die = s.die := by
  unfold serveGrant; (repeat' split) <;> simp

@[simp] theorem serveTimer_die (p slot : Nat) (s : State) : (serveTimer p slot s).die = s.die := by simp [serveTimer]

@[simp] theorem servePlc_die (p slot : Nat) (s : State) : (servePlc p slot s).die = s.die := by simp [servePlc]

@[simp] theorem serveClass_die (k p slot : Nat) (s : State) : (serveClass k p slot s).die = s.die := by
  unfold serveClass; (repeat' split) <;> simp

@[simp] theorem serveAll_die (slot : Nat) (s : State) : (serveAll slot s).die = s.die := by simp [serveAll]

@[simp] theorem doneServed_die (e : Nat) (s : State) : (doneServed e s).die = s.die := by
  unfold doneServed; (repeat' split) <;> simp

theorem execSesDone_die (e : Fin 8) (s s' : State) (ht : execSesDone e s = .next s') : s'.die = s.die := by
  cases ht; simp

@[simp] theorem rebuildRecord_die (p serial slot : Nat) (s : State) :
    (rebuildRecord p serial slot s).die = s.die := by simp [rebuildRecord]

@[simp] theorem rebuildPoint_die (p : Nat) (s : State) : (rebuildPoint p s).die = s.die := by
  unfold rebuildPoint; (repeat' split) <;> simp

@[simp] theorem rebuildEngine_die (e : Nat) (s : State) : (rebuildEngine e s).die = s.die := by simp [rebuildEngine]

@[simp] theorem rebuildAll_die (s : State) : (rebuildAll s).die = s.die := by simp [rebuildAll]

@[simp] theorem cantleShutdown_die (p : Nat) (s : State) : (cantleShutdown p s).die = s.die := by simp [cantleShutdown]

@[simp] theorem engineBack_die (e : Nat) (s : State) : (engineBack e s).die = s.die := by simp [engineBack]

@[simp] theorem engRunWrite_die (v : Word) (s : State) : (engRunWrite v s).die = s.die := by simp [engRunWrite]

theorem execEngineRun_die (v : Word) (s s' : State) (ht : execEngineRun v s = .next s') : s'.die = s.die := by
  cases ht; simp

theorem execEngineReset_die (v : Word) (s s' : State) (ht : execEngineReset v s = .next s') : s'.die = s.die := by
  cases ht; simp

/-! ### BusBlocks -/

@[simp] theorem bklRead_die (port o : Nat) (s : State) : (bklRead port o s).die = s.die := by
  unfold bklRead
  split; · simp
  split; · simp
  split; · simp
  split
  · dsimp only; split <;> simp
  · simp

@[simp] theorem bklWrite_die (port o : Nat) (v : Word) (s : State) : (bklWrite port o v s).die = s.die := by
  unfold bklWrite
  split; · simp
  split; · simp
  split; · simp
  split; · simp
  split; · simp
  split
  · dsimp only; split <;> simp
  · simp

@[simp] theorem pairRegRead_die (m o : Nat) (s : State) : (pairRegRead m o s).die = s.die := by simp [pairRegRead]

@[simp] theorem pairRegWrite_die (port m o : Nat) (v : Word) (s : State) :
    (pairRegWrite port m o v s).die = s.die := by simp [pairRegWrite]

@[simp] theorem hubRegRead_die (port h o : Nat) (s : State) :
    (hubRegRead port h o s).die = s.die := by simp [hubRegRead]

@[simp] theorem hubRegWrite_die (port h o : Nat) (v : Word) (s : State) :
    (hubRegWrite port h o v s).die = s.die := by simp [hubRegWrite]

@[simp] theorem sesRead_die (port e o : Nat) (s : State) : (sesRead port e o s).die = s.die := by
  unfold sesRead; (repeat' split) <;> simp

@[simp] theorem sesEcfgWrite_die (e : Nat) (v : Word) (s : State) :
    (sesEcfgWrite e v s).die = s.die := by simp [sesEcfgWrite]

@[simp] theorem sesEntryWrite_die (e : Nat) (v : Word) (s : State) :
    (sesEntryWrite e v s).die = s.die := by simp [sesEntryWrite]

@[simp] theorem sesXrWrite_die (e k : Nat) (v : Word) (s : State) :
    (sesXrWrite e k v s).die = s.die := by simp [sesXrWrite]

@[simp] theorem sesWrite_die (port e o : Nat) (v : Word) (s : State) : (sesWrite port e o v s).die = s.die := by
  unfold sesWrite; (repeat' split) <;> simp

@[simp] theorem mbxRead_die (port o : Nat) (s : State) : (mbxRead port o s).die = s.die := by simp [mbxRead]

@[simp] theorem mbxWrite_die (port o : Nat) (v : Word) (s : State) :
    (mbxWrite port o v s).die = s.die := by simp [mbxWrite]

@[simp] theorem grtRead_die (o : Nat) (s : State) : (grtRead o s).die = s.die := by
  unfold grtRead; (repeat' split) <;> simp

@[simp] theorem grtWrite_die (o : Nat) (v : Word) (s : State) : (grtWrite o v s).die = s.die := by
  unfold grtWrite; (repeat' split) <;> simp

@[simp] theorem pmcRead_die (o : Nat) (s : State) : (pmcRead o s).die = s.die := by simp [pmcRead]

@[simp] theorem pmcWrite_die (o : Nat) (v : Word) (s : State) : (pmcWrite o v s).die = s.die := by simp [pmcWrite]

@[simp] theorem clkRead_die (port o : Nat) (s : State) : (clkRead port o s).die = s.die := by
  unfold clkRead; (repeat' split) <;> simp

@[simp] theorem safPost_die (port i : Nat) (v : Word) (s : State) :
    (safPost port i v s).die = s.die := by simp [safPost]

@[simp] theorem clkWrite_die (port o : Nat) (v : Word) (s : State) : (clkWrite port o v s).die = s.die := by
  unfold clkWrite; (repeat' split) <;> simp

@[simp] theorem pilRead_die (port o : Nat) (s : State) : (pilRead port o s).die = s.die := by
  unfold pilRead; (repeat' split) <;> simp

@[simp] theorem pilWrite_die (o : Nat) (v : Word) (s : State) : (pilWrite o v s).die = s.die := by
  unfold pilWrite; (repeat' split) <;> simp

@[simp] theorem skvRead_die (o : Nat) (s : State) : (skvRead o s).die = s.die := by
  unfold skvRead; (repeat' split) <;> simp

@[simp] theorem skvWrite_die (o : Nat) (v : Word) (s : State) : (skvWrite o v s).die = s.die := by simp [skvWrite]

@[simp] theorem tkrRead_die (o : Nat) (s : State) : (tkrRead o s).die = s.die := by simp [tkrRead]

@[simp] theorem slRead_die (port o : Nat) (s : State) : (slRead port o s).die = s.die := by
  unfold slRead; (repeat' split) <;> simp

@[simp] theorem slWrite_die (port o : Nat) (v : Word) (s : State) : (slWrite port o v s).die = s.die := by
  unfold slWrite; (repeat' split) <;> simp

/-! ### BusPower -/

@[simp] theorem powerUpd_die (f : PowerDie → PowerDie) (s : State) : (powerUpd f s).die = s.die := by simp [powerUpd]

@[simp] theorem outCmdWrite_die (x : Nat) (v : Word) (s : State) :
    (outCmdWrite x v s).die = s.die := by simp [outCmdWrite]

@[simp] theorem outRegWrite_die (x off : Nat) (v : Word) (s : State) : (outRegWrite x off v s).die = s.die := by
  unfold outRegWrite; (repeat' split) <;> simp

@[simp] theorem outDevWrite_die (off : Nat) (v : Word) (s : State) : (outDevWrite off v s).die = s.die := by
  unfold outDevWrite; (repeat' split) <;> simp

@[simp] theorem rcRegWrite_die (n off : Nat) (v : Word) (s : State) : (rcRegWrite n off v s).die = s.die := by
  unfold rcRegWrite; (repeat' split) <;> simp

@[simp] theorem imRegWrite_die (k off : Nat) (v : Word) (s : State) : (imRegWrite k off v s).die = s.die := by
  unfold imRegWrite; (repeat' split) <;> simp

@[simp] theorem rdRegWrite_die (n off : Nat) (v : Word) (s : State) : (rdRegWrite n off v s).die = s.die := by
  unfold rdRegWrite; (repeat' split) <;> simp

@[simp] theorem tagShadowWord_die (k i : Nat) (v : Word) (s : State) :
    (tagShadowWord k i v s).die = s.die := by simp [tagShadowWord]

@[simp] theorem powerRegWrite_die (o : Nat) (v : Word) (s : State) :
    (powerRegWrite o v s).die = s.die := by simp [powerRegWrite]

@[simp] theorem outWinRead_die (o : Nat) (s : State) : (outWinRead o s).die = s.die := by simp [outWinRead]

@[simp] theorem outWinWrite_die (port o : Nat) (v : Word) (s : State) :
    (outWinWrite port o v s).die = s.die := by simp [outWinWrite]

/-! ### Bus -/

@[simp] theorem blockRead_die (port a : Nat) (s : State) : (blockRead port a s).die = s.die := by
  unfold blockRead; (repeat' split) <;> simp

@[simp] theorem blockWrite_die (port a : Nat) (v : Word) (s : State) : (blockWrite port a v s).die = s.die := by
  unfold blockWrite; (repeat' split) <;> simp

@[simp] theorem busRead_die (port a : Nat) (s : State) : (busRead port a s).die = s.die := by simp [busRead]

@[simp] theorem busWrite_die (port a : Nat) (v : Word) (s : State) :
    (busWrite port a v s).die = s.die := by simp [busWrite]

@[simp] theorem busLoad_die (port a n : Nat) (s : State) : (busLoad port a n s).1.die = s.die := by
  unfold busLoad; dsimp only; (repeat' split) <;> simp

@[simp] theorem takeAt_die (a v : Nat) (s : State) : (takeAt a v s).die = s.die := by
  unfold takeAt; (repeat' split) <;> simp

@[simp] theorem busStore_die (port a n v : Nat) (s : State) : (busStore port a n v s).1.die = s.die := by
  unfold busStore; dsimp only; (repeat' split) <;> simp

theorem execRegisterWrite_die (port : Fin 24) (addr val : Word) (s s' : State) (ht : execRegisterWrite port addr val s = .next s') :
    s'.die = s.die := by
  cases ht; simp

/-! ### Applied -/

@[simp] theorem applyOut_die (x : Nat) (s : State) : (applyOut x s).die = s.die := by simp [applyOut]

@[simp] theorem imThrough_die (k : Nat) (f : State → State) (s : State) (h_f : ∀  t, (f  t).die = t.die) :
    (imThrough k f s).die = s.die := by
  unfold imThrough; dsimp only; (repeat' split) <;> simp [*]

@[simp] theorem applyImThr_die (k : Nat) (s : State) : (applyImThr k s).die = s.die := by simp [applyImThr]

@[simp] theorem applyIm_die (k sub : Nat) (s : State) : (applyIm k sub s).die = s.die := by
  unfold applyIm; (repeat' split) <;> simp

@[simp] theorem applyImCfg_die (k sub : Nat) (s : State) : (applyImCfg k sub s).die = s.die := by simp [applyImCfg]

@[simp] theorem applyRc_die (n : Nat) (s : State) : (applyRc n s).die = s.die := by simp [applyRc]

@[simp] theorem applyTest_die (on : Bool) (s : State) : (applyTest on s).die = s.die := by simp [applyTest]

@[simp] theorem outTestCmd_die (x n : Nat) (s : State) : (outTestCmd x n s).2.die = s.die := by
  unfold outTestCmd; (repeat' split) <;> simp

@[simp] theorem applyPilot_die (p : Nat) (s : State) : (applyPilot p s).die = s.die := by simp [applyPilot]

@[simp] theorem freeQueued_die (p : Nat) (s : State) : (freeQueued p s).die = s.die := by
  unfold freeQueued; (repeat' split) <;> simp

@[simp] theorem applyType_die (p : Nat) (s : State) : (applyType p s).die = s.die := by simp [applyType]

@[simp] theorem applyAtten_die (n v : Nat) (s : State) : (applyAtten n v s).die = s.die := by simp [applyAtten]

@[simp] theorem applyMains_die (m : Nat) (on : Bool) (s : State) :
    (applyMains m on s).die = s.die := by simp [applyMains]

@[simp] theorem applyReader_die (n : Nat) (s : State) : (applyReader n s).die = s.die := by simp [applyReader]

@[simp] theorem applyTag_die (k : Nat) (s : State) : (applyTag k s).die = s.die := by simp [applyTag]

@[simp] theorem applyTagFile_die (k : Nat) (d : List Byte) (s : State) :
    (applyTagFile k d s).die = s.die := by simp [applyTagFile]

@[simp] theorem applyPoint_die (idx sub : Nat) (s : State) : (applyPoint idx sub s).die = s.die := by
  have e : ∃ p, applyPoint idx sub s =
      if idx % 64 = 0 then applyPilot p s
      else if idx % 64 = 4 && sub = 4 then applyAtten p (s.onum idx 4) s
      else if idx % 64 = 8 && sub = 4 then
        (List.range 16).foldl (fun t k => if (t.imMask k).getLsbD p then applyImThr k t else t) s
      else s := ⟨_, rfl⟩
  obtain ⟨p, e⟩ := e
  rw [e]
  split
  · exact applyPilot_die _ _
  split
  · exact applyAtten_die _ _ _
  split
  · rw [foldl_die]; intro t x; split <;> simp
  · rfl

@[simp] theorem applyEntry_die (idx sub : Nat) (s : State) : (applyEntry idx sub s).die = s.die := by
  unfold applyEntry
  split
  · exact applyPoint_die _ _ _
  split
  · exact applyOut_die _ _
  split
  · exact applyImCfg_die _ _ _
  split
  · exact applyRc_die _ _
  split
  · exact applyReader_die _ _
  split
  · split
    · exact applyTagFile_die _ _ _
    · exact applyTag_die _ _
  split
  · exact applyMains_die _ _ _
  split
  · exact applyAtten_die _ _ _
  rfl

/-! ### Server -/

@[simp] theorem State.updConn_die (s : State) (c : Nat) (f : Conn → Conn) :
    (State.updConn s c f).die = s.die := by simp [State.updConn]

@[simp] theorem makeBinding_die (a : Asker) (idx : Nat) (s : State) : (makeBinding a idx s).die = s.die := by
  unfold makeBinding; (repeat' split) <;> simp

@[simp] theorem writeStored_die (a : Asker) (idx sub : Nat) (v : List Byte) (s : State) :
    (writeStored a idx sub v s).die = s.die := by simp [writeStored]

@[simp] theorem writeSec_die (a : Asker) (idx sub : Nat) (d : List Byte) (s : State) :
    (writeSec a idx sub d s).2.die = s.die := by
  have e : ∃ i, writeSec a idx sub d s =
      if within 0x7080 idx 0x70FF then
        if sub = 4 then tackImport i s.importAttr (some d) a.role true s.used else tackDelete i a.role s
      else if idx = 0x7001 then
        (if sub = 1 then fuseDebug (BitVec.ofNat 384 (ofLE d)) s else decommission a.role (BitVec.ofNat 32 (ofLE d)) s)
      else if idx = 0x7050 then fuseSafe (BitVec.ofNat 384 (ofLE d.reverse)) s.stagedDigest s
      else if idx = 0x7040 && sub = 5 then updateAbandon (ofLE d) s
      else if idx = 0x7040 && sub = 0xA then handover (ofLE d) s
      else (.ok, s.setVol idx sub d) := ⟨_, rfl⟩
  obtain ⟨i, e⟩ := e
  rw [e]
  split
  · split
    · rw [tackImport_die]; exact State.used_die s
    · exact tackDelete_die _ _ _
  split
  · split
    · exact fuseDebug_die _ _
    · exact decommission_die _ _ _
  split
  · exact fuseSafe_die _ _ _
  split
  · exact updateAbandon_die _ _
  split
  · exact handover_die _ _
  · rfl

@[simp] theorem writeSession_die (a : Asker) (idx sub : Nat) (d : List Byte) (s : State) :
    (writeSession a idx sub d s).2.die = s.die := by
  unfold writeSession; (repeat' split) <;> simp

@[simp] theorem writeSelector_die (a : Asker) (d : List Byte) (s : State) : (writeSelector a d s).2.die = s.die := by
  unfold writeSelector; dsimp only; (repeat' split) <;> simp

@[simp] theorem writeServer_die (idx sub : Nat) (d : List Byte) (s : State) :
    (writeServer idx sub d s).die = s.die := by
  unfold writeServer; (repeat' split) <;> simp

@[simp] theorem portChanged_die (p : Nat) (s : State) : (portChanged p s).die = s.die := by simp [portChanged]

@[simp] theorem writeConfig_die (a : Asker) (o : Obj) (idx sub : Nat) (d : List Byte) (s : State) :
    (writeConfig a o idx sub d s).die = s.die := by
  unfold writeConfig
  dsimp only
  split
  · split
    · exact writeStored_die _ _ _ _ _
    · rw [applyType_die]; exact writeStored_die _ _ _ _ _
  · split
    · rw [portChanged_die]; exact writeStored_die _ _ _ _ _
    · split
      · rw [applyEntry_die]; exact writeStored_die _ _ _ _ _
      · exact writeStored_die _ _ _ _ _

@[simp] theorem writeOwn_die (a : Asker) (o : Obj) (idx sub : Nat) (d : List Byte) (s : State) :
    (writeOwn a o idx sub d s).2.die = s.die := by
  unfold writeOwn; (repeat' split) <;> simp

@[simp] theorem setLast_die (v : Via) (st : Status) (s : State) : (setLast v st s).die = s.die := by
  unfold setLast; (repeat' split) <;> simp

@[simp] theorem answered_die (v : Via) (st : Status) (s : State) : (answered v st s).die = s.die := by
  unfold answered; (repeat' split) <;> simp

/-! ### CanOpen -/

@[simp] theorem enterOper_die (f : Nat) (s : State) : (enterOper f s).die = s.die := by simp [enterOper]

@[simp] theorem bootPort_die (f : Nat) (s : State) : (bootPort f s).die = s.die := by simp [bootPort]

@[simp] theorem sdoSend_die (f ch : Nat) (data : List Byte) (s : State) :
    (sdoSend f ch data s).die = s.die := by simp [sdoSend]

@[simp] theorem sdoReply_die (f ch : Nat) (cmd : Byte) (idx sub : Nat) (data : List Byte) (s : State) :
    (sdoReply f ch cmd idx sub data s).die = s.die := by simp [sdoReply]

@[simp] theorem sdoAbort_die (f ch idx sub code : Nat) (s : State) :
    (sdoAbort f ch idx sub code s).die = s.die := by simp [sdoAbort]

@[simp] theorem setSdo_die (f ch : Nat) (x : Option SdoXfer) (s : State) :
    (setSdo f ch x s).die = s.die := by simp [setSdo]

@[simp] theorem sdoFresh_die (f ch : Nat) (s : State) : (sdoFresh f ch s).die = s.die := by
  unfold sdoFresh; (repeat' split) <;> simp

@[simp] theorem sdoUpSeg_die (f ch : Nat) (toggle : Bool) (s : State) : (sdoUpSeg f ch toggle s).die = s.die := by
  unfold sdoUpSeg; (repeat' split) <;> simp

theorem execSdoUploadSegment_die (f : Fin 2) (ch : Fin 8) (toggle : Bool) (s s' : State) (ht : execSdoUploadSegment f ch toggle s = .next s') :
    s'.die = s.die := by
  cases ht; simp

theorem execSdoUnsupportedCommand_die (f : Fin 2) (ch : Fin 8) (s s' : State) (ht : execSdoUnsupportedCommand f ch s = .next s') :
    s'.die = s.die := by
  cases ht; simp

@[simp] theorem usdoSend_die (f node code : Nat) (d : List Byte) (s : State) :
    (usdoSend f node code d s).die = s.die := by simp [usdoSend]

@[simp] theorem setUsdo_die (f node : Nat) (x : Option SdoXfer) (s : State) :
    (setUsdo f node x s).die = s.die := by simp [setUsdo]

@[simp] theorem usdoFresh_die (f node : Nat) (s : State) : (usdoFresh f node s).die = s.die := by simp [usdoFresh]

@[simp] theorem usdoBegin_die (f node : Nat) (x : SdoXfer) (d : List Byte) (s : State) :
    (usdoBegin f node x d s).die = s.die := by simp [usdoBegin]

theorem execSdoSegmentTimeout_die (f : Fin 2) (client : CanClient) (s s' : State) (ht : execSdoSegmentTimeout f client s = .next s') :
    s'.die = s.die := by
  cases ht; (repeat' split) <;> simp

theorem execNmtStart_die (f : Fin 2) (s s' : State) (ht : execNmtStart f s = .next s') : s'.die = s.die := by
  cases ht; simp

theorem execNmtStop_die (f : Fin 2) (s s' : State) (ht : execNmtStop f s = .next s') : s'.die = s.die := by
  cases ht; simp

theorem execNmtEnterPreoperational_die (f : Fin 2) (s s' : State) (ht : execNmtEnterPreoperational f s = .next s') :
    s'.die = s.die := by
  cases ht; simp

theorem execNmtResetCommunication_die (f : Fin 2) (s s' : State) (ht : execNmtResetCommunication f s = .next s') :
    s'.die = s.die := by
  cases ht; simp

theorem execNmtResetNode_die (f : Fin 2) (s s' : State) (ht : execNmtResetNode f s = .next s') : s'.die = s.die := by
  cases ht; simp

theorem execCanopenHeartbeat_die (f : Fin 2) (s s' : State) (ht : execCanopenHeartbeat f s = .next s') :
    s'.die = s.die := by
  cases ht; simp

@[simp] theorem tpdoSend_die (f n : Nat) (s : State) : (tpdoSend f n s).die = s.die := by simp [tpdoSend]

@[simp] theorem tpdoSync_die (f : Nat) (s : State) (n : Nat) : (tpdoSync f s n).die = s.die := by simp [tpdoSync]

theorem execSync_die (f : Fin 2) (s s' : State) (ht : execSync f s = .next s') : s'.die = s.die := by
  cases ht; simp

theorem execTpdoEventTimer_die (f : Fin 2) (n : Fin 32) (s s' : State) (ht : execTpdoEventTimer f n s = .next s') :
    s'.die = s.die := by
  cases ht; simp

@[simp] theorem tpdoChange_die (f : Nat) (s : State) (n : Nat) : (tpdoChange f s n).die = s.die := by simp [tpdoChange]

@[simp] theorem tpdoPoll_die (s : State) : (tpdoPoll s).die = s.die := by simp [tpdoPoll]

theorem execCanBusOff_die (f : Fin 2) (s s' : State) (ht : execCanBusOff f s = .next s') : s'.die = s.die := by
  cases ht; simp

theorem execCanBusOffRecovery_die (f : Fin 2) (s s' : State) (ht : execCanBusOffRecovery f s = .next s') :
    s'.die = s.die := by
  cases ht; simp

theorem execCanErrorPassive_die (f : Fin 2) (s s' : State) (ht : execCanErrorPassive f s = .next s') :
    s'.die = s.die := by
  cases ht; simp

@[simp] theorem pllPRelock_die (s : State) : (pllPRelock s).die = s.die := by simp [pllPRelock]

theorem execPllPRelock_die (s s' : State) (ht : execPllPRelock s = .next s') : s'.die = s.die := by
  cases ht; simp

/-! ### RvCsr -/

@[simp] theorem State.updHart_die (s : State) (h : Nat) (f : Hart → Hart) : (State.updHart s h f).die = s.die := by
  unfold State.updHart; (repeat' split) <;> simp

@[simp] theorem State.updCore_die (s : State) (h : Nat) (f : Hart → Hart) :
    (State.updCore s h f).die = s.die := by simp [State.updCore]

@[simp] theorem hartTrap_die (h cause : Nat) (val : Dword) (s : State) :
    (hartTrap h cause val s).die = s.die := by simp [hartTrap]

@[simp] theorem takeInterrupt_die (h i : Nat) (sMode : Bool) (s : State) :
    (takeInterrupt h i sMode s).die = s.die := by simp [takeInterrupt]

@[simp] theorem putCsr_die (h c : Nat) (v : Dword) (s : State) : (putCsr h c v s).die = s.die := by simp [putCsr]

@[simp] theorem putCounter_die (h c : Nat) (hi : Bool) (v : Dword) (s : State) :
    (putCounter h c hi v s).die = s.die := by simp [putCounter]

@[simp] theorem putFcsr_die (h : Nat) (v : Dword) (s : State) : (putFcsr h v s).die = s.die := by simp [putFcsr]

@[simp] theorem putPmpaddr_die (h i : Nat) (v : Dword) (s : State) :
    (putPmpaddr h i v s).die = s.die := by simp [putPmpaddr]

@[simp] theorem csrWrite_die (h c : Nat) (v : Dword) (s : State) : (csrWrite h c v s).die = s.die := by
  unfold csrWrite; (repeat' split) <;> simp

/-! ### RvMem -/

@[simp] theorem physLoad_die (h a n : Nat) (s : State) : (physLoad h a n s).1.die = s.die := by
  unfold physLoad; dsimp only; (repeat' split) <;> simp

@[simp] theorem breakReservations_die (h a n : Nat) (s : State) :
    (breakReservations h a n s).die = s.die := by simp [breakReservations]

@[simp] theorem physStore_die (h a n v : Nat) (s : State) : (physStore h a n v s).1.die = s.die := by
  unfold physStore; dsimp only; (repeat' split) <;> simp

/-! ### Riscv -/

@[simp] theorem RvOut_done_die (s : State) : (RvOut.done s).state = s := rfl

@[simp] theorem RvOut_exc_die (c : Nat) (v : Dword) (s : State) : (RvOut.exc c v s).state = s := rfl

@[simp] theorem rvRet_die (h rd : Nat) (v next : Dword) (s : State) :
    (rvRet h rd v next s).state.die = s.die := by simp [rvRet]

@[simp] theorem rvIllegal_die (s : State) : (rvIllegal s).state.die = s.die := by simp [rvIllegal]

@[simp] theorem rvOpImm_die (h : Nat) (w : Word) (next : Dword) (s : State) :
    (rvOpImm h w next s).state.die = s.die := by
  unfold rvOpImm; dsimp only; (repeat' split) <;> simp

@[simp] theorem rvOpReg_die (h : Nat) (w : Word) (next : Dword) (s : State) :
    (rvOpReg h w next s).state.die = s.die := by
  unfold rvOpReg; dsimp only; (repeat' split) <;> simp

@[simp] theorem rvOpImm32_die (h : Nat) (w : Word) (next : Dword) (s : State) :
    (rvOpImm32 h w next s).state.die = s.die := by
  unfold rvOpImm32; (repeat' split) <;> simp

@[simp] theorem rvOpReg32_die (h : Nat) (w : Word) (next : Dword) (s : State) :
    (rvOpReg32 h w next s).state.die = s.die := by
  unfold rvOpReg32; dsimp only; (repeat' split) <;> simp

@[simp] theorem rvBranchTo_die (h : Nat) (w : Word) (next : Dword) (s : State) :
    (rvBranchTo h w next s).state.die = s.die := by
  unfold rvBranchTo; dsimp only; (repeat' split) <;> simp

@[simp] theorem rvLoadAt_die (h n : Nat) (va : Dword) (s : State) (f : Nat → State → RvOut) (h_f : ∀ x0 t, (f x0 t).state.die = t.die) :
    (rvLoadAt h n va s f).state.die = s.die := by
  unfold rvLoadAt
  split
  · simp
  · rename_i a e
    have k := physLoad_die h a n s
    split <;> rename_i e2 <;> rw [e2] at k <;> simp [h_f, k] <;> simpa using k

@[simp] theorem rvStoreAt_die (h n : Nat) (va v next : Dword) (s : State) :
    (rvStoreAt h n va v next s).state.die = s.die := by
  unfold rvStoreAt
  split
  · simp
  · rename_i a e
    have k := physStore_die h a n (v.toNat % 256 ^ n) s
    split <;> rename_i e2 <;> rw [e2] at k <;> simp [k] <;> simpa using k

@[simp] theorem rvLoad_die (h : Nat) (w : Word) (next : Dword) (s : State) : (rvLoad h w next s).state.die = s.die := by
  unfold rvLoad; dsimp only; (repeat' split) <;> simp

@[simp] theorem rvStore_die (h : Nat) (w : Word) (next : Dword) (s : State) :
    (rvStore h w next s).state.die = s.die := by
  unfold rvStore; dsimp only; (repeat' split) <;> simp

@[simp] theorem rvAmo_die (h : Nat) (w : Word) (next : Dword) (s : State) : (rvAmo h w next s).state.die = s.die := by
  unfold rvAmo
  dsimp only
  split; · simp
  split
  · split; · simp
    split; · simp
    rename_i a e
    split; · simp
    have k := physLoad_die h a (2 ^ rvF3 w) s
    split <;> rename_i e2 <;> rw [e2] at k <;> simp <;> simpa using k
  split; · simp
  split; · simp
  rename_i a e
  split; · simp
  split
  · split; · simp
    have k := fun v t => physStore_die h a (2 ^ rvF3 w) v t
    split <;> rename_i e2 <;> have k := congrArg (fun x => x.1.die) e2 <;> simp at k <;> simp [← k]
  · have k := physLoad_die h a (2 ^ rvF3 w) s
    split <;> rename_i e2 <;> rw [e2] at k
    · simpa using k
    · split <;> rename_i e3 <;> have k3 := congrArg (fun x => x.1.die) e3 <;> simp at k3 <;> simp [← k3] <;> simpa using k

@[simp] theorem rvFp_die (h : Nat) (w : Word) (next : Dword) (s : State) (comp : Hart → Word → Option FpRes) :
    (rvFp h w next s comp).state.die = s.die := by
  unfold rvFp; dsimp only; (repeat' split) <;> simp

@[simp] theorem rvLoadFp_die (h : Nat) (w : Word) (next : Dword) (s : State) :
    (rvLoadFp h w next s).state.die = s.die := by
  unfold rvLoadFp; dsimp only; (repeat' split) <;> simp

@[simp] theorem rvStoreFp_die (h : Nat) (w : Word) (next : Dword) (s : State) :
    (rvStoreFp h w next s).state.die = s.die := by
  unfold rvStoreFp; dsimp only; (repeat' split) <;> simp

@[simp] theorem enterDebug_die (h cause : Nat) (s : State) : (enterDebug h cause s).die = s.die := by simp [enterDebug]

@[simp] theorem stepHalt_die (h : Nat) (s t : State) : (stepHalt h s t).die = t.die := by simp [stepHalt]

@[simp] theorem rvCsr_die (h : Nat) (w : Word) (next : Dword) (s : State) : (rvCsr h w next s).state.die = s.die := by
  unfold rvCsr
  dsimp only
  split
  · simp
  · have k := rvRet_die h (rvRd w) (s.csrRead h (fld w 20 12)) next s
    split
    · rename_i e; rw [e] at k; split <;> simpa using k
    · rename_i e; simp

@[simp] theorem rvWfi_die (h : Nat) (next : Dword) (s : State) : (rvWfi h next s).state.die = s.die := by
  unfold rvWfi; dsimp only; (repeat' split) <;> simp

@[simp] theorem rvSystem_die (h : Nat) (w : Word) (next : Dword) (s : State) :
    (rvSystem h w next s).state.die = s.die := by
  unfold rvSystem; dsimp only; (repeat' split) <;> simp

@[simp] theorem rvExec_die (h : Nat) (w : Word) (next : Dword) (s : State) : (rvExec h w next s).state.die = s.die := by
  unfold rvExec; (repeat' split) <;> simp

@[simp] theorem passCycles_die (h : Nat) (s : State) : (passCycles h s).die = s.die := by
  unfold passCycles; dsimp only; (repeat' split) <;> simp

@[simp] theorem retire_die (h : Nat) (w : Word) (s : State) : (retire h w s).die = s.die := by simp [retire]

@[simp] theorem rvException_die (h cause : Nat) (w : Word) (val : Dword) (s : State) :
    (rvException h cause w val s).die = s.die := by
  unfold rvException; (repeat' split) <;> simp

@[simp] theorem rvOutcome_die (h : Nat) (w : Word) (s : State) : (rvOutcome h w s).state.die = s.die := by
  unfold rvOutcome; dsimp only; (repeat' split) <;> simp

@[simp] theorem hartEcc_die (h : Nat) (ecc : Ecc) (s : State) : (hartEcc h ecc s).die = s.die := by simp [hartEcc]

@[simp] theorem eccPoison_die (h : Nat) (i : Word) (s : State) : (eccPoison h i s).die = s.die := by simp [eccPoison]

@[simp] theorem rvFetched_die (h : Nat) (w : Word) (ecc : Ecc) (s : State) : (rvFetched h w ecc s).die = s.die := by
  have k := rvOutcome_die h w s
  unfold rvFetched
  split
  · simp
  · dsimp only
    cases e : rvOutcome h w s <;> rw [e] at k <;> dsimp only [RvOut_done_die, RvOut_exc_die] at k ⊢ <;> (try split) <;> simp [k]

@[simp] theorem rvWake_die (h : Nat) (s : State) : (rvWake h s).die = s.die := by simp [rvWake]

@[simp] theorem rvStep_die (h : Nat) (w : Word) (ecc : Ecc) (s : State) : (rvStep h w ecc s).die = s.die := by
  unfold rvStep; dsimp only; (repeat' split) <;> simp

theorem execInstruction_die (hart : Fin 15) (w : Fetched) (s s' : State) (ht : execInstruction hart w s = .next s') :
    s'.die = s.die := by
  cases ht; simp

@[simp] theorem timerMatch_die (i : Nat) (s : State) : (timerMatch i s).die = s.die := by simp [timerMatch]

theorem execTimerCompareMatch_die (h : Fin 6) (s s' : State) (ht : execTimerCompareMatch h s = .next s') :
    s'.die = s.die := by
  cases ht; simp

/-! ### Debug -/

@[simp] theorem debugPut_die (h n : Nat) (v : Dword) (s : State) : (debugPut h n v s).die = s.die := by simp [debugPut]

@[simp] theorem debugHalt_die (h : Nat) (s : State) : (debugHalt h s).die = s.die := by simp [debugHalt]

@[simp] theorem debugResume_die (h : Nat) (s : State) : (debugResume h s).die = s.die := by simp [debugResume]

@[simp] theorem bufRun_die (h n i : Nat) (s : State) : (bufRun h n i s).2.die = s.die := by
  induction n generalizing i s with
  | zero => rfl
  | succ n ih =>
    unfold bufRun
    dsimp only
    split
    · rfl
    · split
      · rfl
      · rename_i w _
        have k := rvExec_die h w (s.hart h).pc s
        split <;> rename_i e <;> rw [e] at k
        · rw [ih]; exact k
        · exact k

@[simp] theorem runBuffer_die (h : Nat) (s : State) : (runBuffer h s).die = s.die := by
  unfold runBuffer
  dsimp only
  split <;> simp

@[simp] theorem debugBusRead_die (a : Word) (s : State) : (debugBusRead a s).die = s.die := by simp [debugBusRead]

@[simp] theorem debugBusWrite_die (a v : Word) (s : State) :
    (debugBusWrite a v s).die = s.die := by simp [debugBusWrite]

@[simp] theorem sbNext_die (s : State) : (sbNext s).die = s.die := by simp [sbNext]

@[simp] theorem sbFetch_die (s : State) : (sbFetch s).die = s.die := by simp [sbFetch]

@[simp] theorem cmdFail_die (e : Nat) (s : State) : (cmdFail e s).die = s.die := by simp [cmdFail]

@[simp] theorem abstractReg_die (h : Nat) (v : Word) (s : State) :
    (abstractReg h v s).die = s.die := by simp [abstractReg]

@[simp] theorem abstractCmd_die (v : Word) (s : State) : (abstractCmd v s).die = s.die := by simp [abstractCmd]

@[simp] theorem dmControl_die (v : Word) (s : State) : (dmControl v s).die = s.die := by simp [dmControl]

@[simp] theorem dmiRead_die (a : Nat) (s : State) : (dmiRead a s).die = s.die := by simp [dmiRead]

@[simp] theorem dmiWrite_die (a : Nat) (v : Word) (s : State) : (dmiWrite a v s).die = s.die := by
  unfold dmiWrite; (repeat' split) <;> simp

@[simp] theorem debugAccess_die (op : DebugOp) (s : State) : (debugAccess op s).die = s.die := by
  unfold debugAccess; (repeat' split) <;> simp

theorem execDebugAccess_die (op : DebugOp) (s s' : State) (ht : execDebugAccess op s = .next s') : s'.die = s.die := by
  cases ht; simp

/-! ### Latigo -/

@[simp] theorem latSend_die (f : LatFrame) (s : State) : (latSend f s).die = s.die := by
  unfold latSend; (repeat' split) <;> simp

@[simp] theorem latClose_die (c : Nat) (s : State) : (latClose c s).die = s.die := by simp [latClose]

theorem execLatigoConnect_die (h : TlsHello) (s s' : State) (ht : execLatigoConnect h s = .next s') :
    s'.die = s.die := by
  cases ht; (repeat' split) <;> simp

@[simp] theorem latReply_die (c op : Nat) (r : LatigoReq) (st : Status) (d : List Byte) (s : State) :
    (latReply c op r st d s).die = s.die := by simp [latReply]

@[simp] theorem onConn_die (c : Nat) (f : Conn → State → State) (s : State) (h_f : ∀ x0 t, (f x0 t).die = t.die) :
    (onConn c f s).die = s.die := by
  unfold onConn; (repeat' split) <;> simp [*]

@[simp] theorem onFrame_die (c : Nat) (f : Conn → State → State) (s : State) (h_f : ∀ x0 t, (f x0 t).die = t.die) :
    (onFrame c f s).die = s.die := by
  unfold onFrame; (repeat' split) <;> simp [*]

@[simp] theorem latPlain_die (c op : Nat) (id : Word) (st : Status) (s : State) :
    (latPlain c op id st s).die = s.die := by simp [latPlain]

theorem execLatigoUnsubscribe_die (c : Fin 16) (id : Word) (s s' : State) (ht : execLatigoUnsubscribe c id s = .next s') :
    s'.die = s.die := by
  cases ht; simp

theorem execLatigoKeepalive_die (c : Fin 16) (id : Word) (s s' : State) (ht : execLatigoKeepalive c id s = .next s') :
    s'.die = s.die := by
  cases ht; simp

@[simp] theorem State.updSub_die (s : State) (c : Nat) (id : Word) (f : LatSub → LatSub) :
    (State.updSub s c id f).die = s.die := by simp [State.updSub]

@[simp] theorem latNotify_die (c : Nat) (u : LatSub) (st : Status) (co : Bool) (v : List Byte) (s : State) :
    (latNotify c u st co v s).die = s.die := by simp [latNotify]

@[simp] theorem notifyValue_die (c : Nat) (u : LatSub) (atEnd : Bool) (v : List Byte) (s : State) :
    (notifyValue c u atEnd v s).die = s.die := by simp [notifyValue]

theorem execLatigoBadFrame_die (c : Fin 16) (h : LatHead) (s s' : State) (ht : execLatigoBadFrame c h s = .next s') :
    s'.die = s.die := by
  cases ht; simp

theorem execLatigoIdleTimeout_die (c : Fin 16) (s s' : State) (ht : execLatigoIdleTimeout c s = .next s') :
    s'.die = s.die := by
  unfold execLatigoIdleTimeout at ht
  have ht := Host.Outcome.next.inj ht; subst ht
  exact onConn_die _ _ _ (fun x t => by split; exact latClose_die _ _; rfl)

theorem execLatigoCertExpiry_die (c : Fin 16) (s s' : State) (ht : execLatigoCertExpiry c s = .next s') :
    s'.die = s.die := by
  cases ht; simp

theorem execLatigoClose_die (c : Fin 16) (s s' : State) (ht : execLatigoClose c s = .next s') : s'.die = s.die := by
  cases ht; simp

/-! ### Ports -/

@[simp] theorem ipTaken_die (port : Nat) (s : State) : (ipTaken port s).die = s.die := by simp [ipTaken]

@[simp] theorem linkChange_die (port : Nat) (up : Bool) (s : State) :
    (linkChange port up s).die = s.die := by simp [linkChange]

theorem execEthernetLinkChange_die (port : Fin 2) (up : Bool) (s s' : State) (ht : execEthernetLinkChange port up s = .next s') :
    s'.die = s.die := by
  cases ht; simp

theorem execGpioEdge_die (n : Fin 32) (s s' : State) (ht : execGpioEdge n s = .next s') : s'.die = s.die := by
  cases ht; simp

@[simp] theorem skvTimeout_die (s : State) : (skvTimeout s).die = s.die := by
  unfold skvTimeout; (repeat' split) <;> simp

@[simp] theorem sealedTimeout_die (s : State) : (sealedTimeout s).die = s.die := by
  unfold sealedTimeout; (repeat' split) <;> simp

@[simp] theorem canTimeout_die (s : State) : (canTimeout s).die = s.die := by simp [canTimeout]

@[simp] theorem girthTimeout_die (s : State) : (girthTimeout s).die = s.die := by
  unfold girthTimeout; (repeat' split) <;> simp

@[simp] theorem monitored_die (q : Nat) (s : State) : (monitored q s).die = s.die := by simp [monitored]

theorem execDeliveryTimeout_die (q : Fin 14) (s s' : State) (ht : execDeliveryTimeout q s = .next s') :
    s'.die = s.die := by
  cases ht; simp

/-! ### Start -/

@[simp] theorem bootStop_die (step : Nat) (st : Status) (s : State) :
    (bootStop step st s).die = s.die := by simp [bootStop]

@[simp] theorem atStep_die (warm : Bool) (n : Nat) (s : State) : (atStep warm n s).die = s.die := by simp [atStep]

@[simp] theorem bootMeasure_die (k : Nat) (h : BitVec 384) (s : State) :
    (bootMeasure k h s).die = s.die := by simp [bootMeasure]

@[simp] theorem bootRomRun_die (boot : BitVec 4) (b : BootChecks) (s : State) :
    (bootRomRun boot b s).2.die = s.die := by
  unfold bootRomRun; dsimp only; (repeat' split) <;> simp

@[simp] theorem chooseWrap_die (s : State) : (chooseWrap s).die = s.die := by simp [chooseWrap]

@[simp] theorem tackStart_die (s : State) : (tackStart s).die = s.die := by simp [tackStart]

@[simp] theorem loaderRun_die (b : BootChecks) (s : State) : (loaderRun b s).2.die = s.die := by
  unfold loaderRun; dsimp only; (repeat' split) <;> simp

@[simp] theorem loadEngine_die (e : Nat) (s : State) : (loadEngine e s).die = s.die := by simp [loadEngine]

@[simp] theorem loadFailed_die (e : Nat) (s : State) : (loadFailed e s).die = s.die := by simp [loadFailed]

@[simp] theorem loadEngines_die (ok : BitVec 9) (s : State) : (loadEngines ok s).die = s.die := by simp [loadEngines]

@[simp] theorem loadBridle_die (ok : Bool) (s : State) : (loadBridle ok s).die = s.die := by simp [loadBridle]

@[simp] theorem readObjects_die (b : BootChecks) (s : State) : (readObjects b s).die = s.die := by simp [readObjects]

@[simp] theorem applyStored_die (s : State) : (applyStored s).die = s.die := by simp [applyStored]

@[simp] theorem bootHeartbeat_die (s : State) : (bootHeartbeat s).die = s.die := by simp [bootHeartbeat]

@[simp] theorem serveObjects_die (warm : Bool) (s : State) : (serveObjects warm s).die = s.die := by simp [serveObjects]

@[simp] theorem bootBridle_die (b : BootChecks) (s : State) : (bootBridle b s).die = s.die := by simp [bootBridle]

/-! ### Supplies -/

theorem execVanaTrip_die (s s' : State) (ht : execVanaTrip s = .next s') : s'.die = s.die := by
  cases ht; simp

theorem execVanaRelease_die (s s' : State) (ht : execVanaRelease s = .next s') : s'.die = s.die := by
  cases ht; simp

@[simp] theorem vloadFrame_die (s : State) : (vloadFrame s).die = s.die := by simp [vloadFrame]

@[simp] theorem vloadTrip_die (s : State) : (vloadTrip s).die = s.die := by simp [vloadTrip]

theorem execVloadTrip_die (_over : Bool) (s s' : State) (ht : execVloadTrip _over s = .next s') : s'.die = s.die := by
  unfold execVloadTrip at ht
  have ht := Host.Outcome.next.inj ht; subst ht
  first
  | ((repeat' split) <;> simp; done)
  | (dsimp only; done)
  | (dsimp only; (repeat' split) <;> simp; done)
  | (dsimp only; (repeat' split) <;> simp [*]; done)
  | ((repeat' split) <;> simp [*]; done)
  | exact whenDie_die _ _ (fun t => by first | (dsimp only; (repeat' split) <;> simp [*]; done) | (simp; (repeat' split) <;> simp; done))
  | (split <;> first | rfl | exact whenDie_die _ _ (fun t => by dsimp only; (repeat' split) <;> simp [*]))

theorem execVloadRelease_die (s s' : State) (ht : execVloadRelease s = .next s') : s'.die = s.die := by
  cases ht; simp

@[simp] theorem pilSupplyFault_die (p : Nat) (s : State) : (pilSupplyFault p s).die = s.die := by simp [pilSupplyFault]

@[simp] theorem pilotSupplyTrip_die (neg : Bool) (s : State) :
    (pilotSupplyTrip neg s).die = s.die := by simp [pilotSupplyTrip]

theorem execPilotSupplyTrip_die (neg : Bool) (s s' : State) (ht : execPilotSupplyTrip neg s = .next s') :
    s'.die = s.die := by
  cases ht; simp

@[simp] theorem pilotSupplyRelease_die (neg : Bool) (s : State) :
    (pilotSupplyRelease neg s).die = s.die := by simp [pilotSupplyRelease]

theorem execPilotSupplyRelease_die (neg : Bool) (s s' : State) (ht : execPilotSupplyRelease neg s = .next s') :
    s'.die = s.die := by
  unfold execPilotSupplyRelease at ht
  have ht := Host.Outcome.next.inj ht; subst ht
  first
  | ((repeat' split) <;> simp; done)
  | (dsimp only; done)
  | (dsimp only; (repeat' split) <;> simp; done)
  | (dsimp only; (repeat' split) <;> simp [*]; done)
  | ((repeat' split) <;> simp [*]; done)
  | exact whenDie_die _ _ (fun t => by first | (dsimp only; (repeat' split) <;> simp [*]; done) | (simp; (repeat' split) <;> simp; done))
  | (split <;> first | rfl | exact whenDie_die _ _ (fun t => by dsimp only; (repeat' split) <;> simp [*]))

@[simp] theorem vdrvTrip_die (s : State) : (vdrvTrip s).die = s.die := by simp [vdrvTrip]

theorem execVdrvTrip_die (s s' : State) (ht : execVdrvTrip s = .next s') : s'.die = s.die := by
  cases ht; simp

theorem execVdrvRelease_die (s s' : State) (ht : execVdrvRelease s = .next s') : s'.die = s.die := by
  cases ht; simp

/-! ### Tick -/

@[simp] theorem pilRebuild_die (s : State) : (pilRebuild s).die = s.die := by simp [pilRebuild]

@[simp] theorem tickEngine_die (e : Nat) (s : State) : (tickEngine e s).die = s.die := by
  unfold tickEngine; (repeat' split) <;> simp

@[simp] theorem tickApp_die (s : State) : (tickApp s).die = s.die := by simp [tickApp]

@[simp] theorem tickCold_die (s : State) : (tickCold s).die = s.die := by simp [tickCold]

@[simp] theorem tickPsq_die (s : State) : (tickPsq s).die = s.die := by
  unfold tickPsq; (repeat' split) <;> simp

@[simp] theorem tickMeas_die (s : State) : (tickMeas s).die = s.die := by simp [tickMeas]

@[simp] theorem tickVcan_die (s : State) : (tickVcan s).die = s.die := by simp [tickVcan]

@[simp] theorem tickPlc_die (s : State) : (tickPlc s).die = s.die := by simp [tickPlc]

/-! ### Step -/

@[simp] theorem State.withFetchWord_die (s : State) (_nbits _w : Nat) :
    (State.withFetchWord s _nbits _w).die = s.die := by simp [State.withFetchWord]

end Sys2Proof.Machine
end

