-- ==== Sys2Proof/Laws/KeepsFuses.lean ====
section
/-!
SUPPORT. Functions of the model, and commands, that leave the fuses as they were.
-/
set_option Elab.async false
set_option linter.all false
namespace Sys2Proof.Machine

/-! ### Ops -/

@[simp] theorem foldl_fuses {α : Type} (g : State → α → State) (h : ∀ t x, (g t x).fuses = t.fuses) (l : List α) (s : State) :
    (l.foldl g s).fuses = s.fuses := by
  induction l generalizing s with
  | nil => rfl
  | cons a l ih => simp [ih, h]

@[simp] theorem ite_fuses (c : Prop) [Decidable c] (a b : State) :
    (if c then a else b).fuses = if c then a.fuses else b.fuses := by split <;> rfl

theorem ite2_fuses {α : Type} (c : Prop) [Decidable c] (a b : α × State) (s : State) (ha : c → a.2.fuses = s.fuses) (hb : ¬c → b.2.fuses = s.fuses) :
    (if c then a else b).2.fuses = s.fuses := by split <;> simp_all

@[simp] theorem State.used_fuses (s : State) : (State.used s).fuses = s.fuses := by simp [State.used]

@[simp] theorem State.setByte_fuses (s : State) (a : Nat) (b : Byte) :
    (State.setByte s a b).fuses = s.fuses := by simp [State.setByte]

@[simp] theorem State.setBytes_fuses (s : State) (a : Nat) (l : List Byte) : (s.setBytes a l).fuses = s.fuses := by
  induction l generalizing s a with
  | nil => rfl
  | cons b r ih => simp [State.setBytes, ih]

@[simp] theorem State.setNum_fuses (s : State) (a n v : Nat) :
    (State.setNum s a n v).fuses = s.fuses := by simp [State.setNum]

@[simp] theorem State.updSrc_fuses (s : State) (n : Nat) (f : BklSrc → BklSrc) :
    (State.updSrc s n f).fuses = s.fuses := by simp [State.updSrc]

@[simp] theorem pmcAdd_fuses (n i k : Nat) (s : State) : (pmcAdd n i k s).fuses = s.fuses := by
  induction n generalizing i k s with
  | zero => rfl
  | succ n ih => simp only [pmcAdd]; (repeat' split) <;> simp [ih]

@[simp] theorem countEvents_fuses (group idx k : Nat) (s : State) :
    (countEvents group idx k s).fuses = s.fuses := by simp [countEvents]

@[simp] theorem raise_fuses (n : Nat) (s : State) : (raise n s).fuses = s.fuses := by simp [raise]

@[simp] theorem setLevel_fuses (n : Nat) (b : Bool) (s : State) : (setLevel n b s).fuses = s.fuses := by simp [setLevel]

@[simp] theorem laneRaise_fuses (n : Nat) (s : State) : (laneRaise n s).fuses = s.fuses := by simp [laneRaise]

@[simp] theorem State.updCtx_fuses (s : State) (slot : Nat) (f : Ctx → Ctx) :
    (State.updCtx s slot f).fuses = s.fuses := by simp [State.updCtx]

@[simp] theorem State.updEng_fuses (s : State) (e : Nat) (f : Engine → Engine) :
    (State.updEng s e f).fuses = s.fuses := by simp [State.updEng]

@[simp] theorem syncCtx_fuses (slot : Nat) (s : State) : (syncCtx slot s).fuses = s.fuses := by simp [syncCtx]

@[simp] theorem postClass_fuses (slot k : Nat) (s : State) : (postClass slot k s).fuses = s.fuses := by simp [postClass]

@[simp] theorem girthEnd_fuses (f : GirthReq → Bool) (part : Bool) (s : State) :
    (girthEnd f part s).fuses = s.fuses := by simp [girthEnd]

@[simp] theorem girthUnitOff_fuses (kind unit : Nat) (s : State) :
    (girthUnitOff kind unit s).fuses = s.fuses := by simp [girthUnitOff]

@[simp] theorem girthTransientEnd_fuses (kind unit : Nat) (s : State) :
    (girthTransientEnd kind unit s).fuses = s.fuses := by simp [girthTransientEnd]

@[simp] theorem girthWithdraw_fuses (f : GirthReq → Bool) (s : State) :
    (girthWithdraw f s).fuses = s.fuses := by simp [girthWithdraw]

@[simp] theorem withdrawRestart_fuses (kind unit : Nat) (s : State) :
    (withdrawRestart kind unit s).fuses = s.fuses := by simp [withdrawRestart]

@[simp] theorem busOk_fuses (v : Word) (s : State) : (busOk v s).fuses = s.fuses := by simp [busOk]

@[simp] theorem busFail_fuses (s : State) : (busFail s).fuses = s.fuses := by simp [busFail]

/-! ### LinkOps -/

@[simp] theorem State.updLink_fuses (s : State) (d : Side) (f : LinkEnd → LinkEnd) :
    (State.updLink s d f).fuses = s.fuses := by
  unfold State.updLink; (repeat' split) <;> simp

@[simp] theorem linkCount_fuses (d : Side) (idx k : Nat) (s : State) : (linkCount d idx k s).fuses = s.fuses := by
  unfold linkCount; (repeat' split) <;> simp

@[simp] theorem linkFlush_fuses (d : Side) (n : Nat) (s : State) : (linkFlush d n s).fuses = s.fuses := by
  induction n generalizing s with
  | zero => rfl
  | succ n ih => simp only [linkFlush]; (repeat' split) <;> simp [ih]

@[simp] theorem linkOffer_fuses (d : Side) (cls : Nat) (tag : Word) (payload : List Byte) (s : State) :
    (linkOffer d cls tag payload s).fuses = s.fuses := by simp [linkOffer]

@[simp] theorem dieSend_fuses (cls : Nat) (payload : List Byte) (s : State) :
    (dieSend cls payload s).fuses = s.fuses := by simp [dieSend]

@[simp] theorem dieReply_fuses (tag : Word) (cls : Nat) (payload : List Byte) (s : State) :
    (dieReply tag cls payload s).fuses = s.fuses := by simp [dieReply]

/-! ### SealedOps -/

@[simp] theorem State.setSobj_fuses (s : State) (idx sub : Nat) (v : List Byte) :
    (State.setSobj s idx sub v).fuses = s.fuses := by simp [State.setSobj]

@[simp] theorem State.updElem_fuses (s : State) (e : Nat) (f : Elem → Elem) :
    (State.updElem s e f).fuses = s.fuses := by simp [State.updElem]

@[simp] theorem State.updChan_fuses (s : State) (c : Nat) (f : Chan → Chan) :
    (State.updChan s c f).fuses = s.fuses := by simp [State.updChan]

@[simp] theorem logAdd_fuses (kind : Nat) (data : List Byte) (s : State) :
    (logAdd kind data s).fuses = s.fuses := by simp [logAdd]

@[simp] theorem State.mapRecs_fuses (s : State) (f : Rec → Rec) :
    (State.mapRecs s f).fuses = s.fuses := by simp [State.mapRecs]

@[simp] theorem State.updRec_fuses (s : State) (serial : Nat) (f : Rec → Rec) :
    (State.updRec s serial f).fuses = s.fuses := by simp [State.updRec]

@[simp] theorem State.updPt_fuses (s : State) (p : Nat) (f : PointBill → PointBill) :
    (State.updPt s p f).fuses = s.fuses := by simp [State.updPt]

@[simp] theorem flagOpen_fuses (p i : Nat) (s : State) : (flagOpen p i s).fuses = s.fuses := by simp [flagOpen]

@[simp] theorem flagAllOpen_fuses (i : Nat) (s : State) : (flagAllOpen i s).fuses = s.fuses := by simp [flagAllOpen]

@[simp] theorem purseCheck_fuses (serial : Nat) (s : State) : (purseCheck serial s).fuses = s.fuses := by
  unfold purseCheck; (repeat' split) <;> simp

@[simp] theorem routeMs_fuses (p t : Nat) (i e : Int) (s : State) : (routeMs p t i e s).fuses = s.fuses := by
  unfold routeMs; (repeat' split) <;> simp

@[simp] theorem routePoint_fuses (p : Nat) (sell : Bool) (ms : List Int) (s : State) :
    (routePoint p sell ms s).fuses = s.fuses := by
  unfold routePoint; dsimp only; (repeat' split) <;> simp

@[simp] theorem closeInterval_fuses (extra next : BitVec 16) (s : State) :
    (closeInterval extra next s).fuses = s.fuses := by simp [closeInterval]

@[simp] theorem switchTariff_fuses (s : State) : (switchTariff s).fuses = s.fuses := by simp [switchTariff]

@[simp] theorem markIntervals_fuses (s : State) : (markIntervals s).fuses = s.fuses := by simp [markIntervals]

@[simp] theorem settle_fuses (s : State) : (settle s).fuses = s.fuses := by simp [settle]

@[simp] theorem closeRec_fuses (serial reason : Nat) (f : Rec → Rec) (s : State) :
    (closeRec serial reason f s).fuses = s.fuses := by
  unfold closeRec; (repeat' split) <;> simp

@[simp] theorem closeAll_fuses (reason : Nat) (f : Rec → Rec) (s : State) :
    (closeAll reason f s).fuses = s.fuses := by simp [closeAll]

@[simp] theorem displayCheck_fuses (s : State) : (displayCheck s).fuses = s.fuses := by simp [displayCheck]

@[simp] theorem commit_fuses (s : State) : (commit s).fuses = s.fuses := by simp [commit]

@[simp] theorem sealAbandon_fuses (s : State) : (sealAbandon s).fuses = s.fuses := by
  unfold sealAbandon; (repeat' split) <;> simp

@[simp] theorem dieLinkFailed_fuses (cause : Nat) (s : State) :
    (dieLinkFailed cause s).fuses = s.fuses := by simp [dieLinkFailed]

@[simp] theorem applyParam_fuses (w : ParamWrite) (s : State) : (applyParam w s).fuses = s.fuses := by simp [applyParam]

@[simp] theorem whenDie_fuses (f : State → State) (s : State) (h_f : ∀  t, (f  t).fuses = t.fuses) :
    (whenDie f s).fuses = s.fuses := by
  unfold whenDie; (repeat' split) <;> simp [*]

@[simp] theorem objReply_fuses (tag : Word) (op : Nat) (st : Status) (idx sub off total serial : Nat) (data : List Byte) (s : State) :
    (objReply tag op st idx sub off total serial data s).fuses = s.fuses := by simp [objReply]

@[simp] theorem writeReply_fuses (tag : Word) (idx sub len : Nat) (r : Status × State) :
    (writeReply tag idx sub len r).fuses = r.2.fuses := by simp [writeReply]

/-! ### Billing -/

@[simp] theorem recReply_fuses (tag : Word) (st : Status) (cause : Nat) (r : Option Rec) (s : State) :
    (recReply tag st cause r s).fuses = s.fuses := by simp [recReply]

@[simp] theorem recOpen_fuses (p handle method : Nat) (ident : List Byte) (s : State) :
    (recOpen p handle method ident s).2.2.2.fuses = s.fuses := by
  unfold recOpen; (repeat' split) <;> simp

theorem execRecordOpen_fuses (tag : Word) (p : Fin 64) (handle : Word) (method : BitVec 8) (ident : List Byte) (s s' : State) (ht : execRecordOpen tag p handle method ident s = .next s') :
    s'.fuses = s.fuses := by
  cases ht; simp

@[simp] theorem recClose_fuses (p handle serial reason : Nat) (s : State) :
    (recClose p handle serial reason s).2.2.fuses = s.fuses := by
  unfold recClose; (repeat' split) <;> simp

theorem execRecordClose_fuses (tag : Word) (p : Fin 64) (handle : Word) (serial : BitVec 64) (reason : BitVec 8) (s s' : State) (ht : execRecordClose tag p handle serial reason s = .next s') :
    s'.fuses = s.fuses := by
  cases ht; simp

theorem execRecordQuery_fuses (tag : Word) (p : Fin 64) (handle : Word) (serial : BitVec 64) (s s' : State) (ht : execRecordQuery tag p handle serial s = .next s') :
    s'.fuses = s.fuses := by
  cases ht; simp

@[simp] theorem recSigned_fuses (serial : Nat) (s : State) : (recSigned serial s).fuses = s.fuses := by
  unfold recSigned; (repeat' split) <;> simp

theorem execRecordSigned_fuses (serial : BitVec 64) (s s' : State) (ht : execRecordSigned serial s = .next s') :
    s'.fuses = s.fuses := by
  cases ht; simp

@[simp] theorem recCollect_fuses (serial : Nat) (s : State) :
    (recCollect serial s).2.fuses = s.fuses := by simp [recCollect]

theorem execRecordCollectionAck_fuses (rq : Rq) (serial : BitVec 64) (s s' : State) (ht : execRecordCollectionAck rq serial s = .next s') :
    s'.fuses = s.fuses := by
  cases ht; exact whenDie_fuses _ _ fun t => by simp; (repeat' split) <;> simp

@[simp] theorem noticeReply_fuses (tag : Word) (st : Status) (s : State) :
    (noticeReply tag st s).fuses = s.fuses := by simp [noticeReply]

@[simp] theorem notice_fuses (tag : Word) (serial : Nat) (f : Rec → State → State) (s : State) (h_f : ∀ x0 t, (f x0 t).fuses = t.fuses) :
    (notice tag serial f s).fuses = s.fuses := by
  unfold notice; (repeat' split) <;> simp [*]

theorem execSessionNoticePlug_fuses (tag : Word) (p : Fin 64) (_handle : Word) (s s' : State) (ht : execSessionNoticePlug tag p _handle s = .next s') :
    s'.fuses = s.fuses := by
  cases ht; simp

theorem execSessionNoticeAuthorise_fuses (tag : Word) (p : Fin 64) (_handle : Word) (serial : BitVec 64) (s s' : State) (ht : execSessionNoticeAuthorise tag p _handle serial s = .next s') :
    s'.fuses = s.fuses := by
  cases ht; simp

theorem execSessionNoticeEnergyFlow_fuses (tag : Word) (_p : Fin 64) (_handle : Word) (serial : BitVec 64) (s s' : State) (ht : execSessionNoticeEnergyFlow tag _p _handle serial s = .next s') :
    s'.fuses = s.fuses := by
  cases ht; simp

theorem execSessionNoticeStop_fuses (tag : Word) (_p : Fin 64) (_handle : Word) (serial : BitVec 64) (_reason : BitVec 8) (s s' : State) (ht : execSessionNoticeStop tag _p _handle serial _reason s = .next s') :
    s'.fuses = s.fuses := by
  cases ht; simp

theorem execSessionNoticeMeteringConfirmation_fuses (tag : Word) (_p : Fin 64) (_handle : Word) (serial : BitVec 64) (reading : BitVec 16) (sig : List Byte) (s s' : State) (ht : execSessionNoticeMeteringConfirmation tag _p _handle serial reading sig s = .next s') :
    s'.fuses = s.fuses := by
  cases ht; simp

@[simp] theorem takeReading_fuses (role : Role) (serial : Nat) (s : State) :
    (takeReading role serial s).2.2.fuses = s.fuses := by
  unfold takeReading; (repeat' split) <;> simp

theorem execSignedReading_fuses (rq : Rq) (slot : Fin 256) (serial : BitVec 64) (s s' : State) (ht : execSignedReading rq slot serial s = .next s') :
    s'.fuses = s.fuses := by
  cases ht; simp

theorem execPurseQuery_fuses (rq : Rq) (p : Fin 64) (serial : BitVec 64) (s s' : State) (ht : execPurseQuery rq p serial s = .next s') :
    s'.fuses = s.fuses := by
  cases ht; simp

@[simp] theorem activate_fuses (s : State) : (activate s).fuses = s.fuses := by simp [activate]

@[simp] theorem activateDue_fuses (s : State) : (activateDue s).fuses = s.fuses := by simp [activateDue]

@[simp] theorem newOffset_fuses (source : Nat) (minutes : Int) (s : State) :
    (newOffset source minutes s).fuses = s.fuses := by simp [newOffset]

@[simp] theorem offsetDue_fuses (s : State) : (offsetDue s).fuses = s.fuses := by
  unfold offsetDue; (repeat' split) <;> simp

@[simp] theorem stepLt_fuses (target : Nat) (s : State) : (stepLt target s).fuses = s.fuses := by simp [stepLt]

@[simp] theorem ltSet_fuses (role : Role) (target : Nat) (s0 : State) : (ltSet role target s0).2.fuses = s0.fuses := by
  unfold ltSet; dsimp only; (repeat' split) <;> simp

theorem execLtSet_fuses (rq : Rq) (target : Nat) (s s' : State) (ht : execLtSet rq target s = .next s') :
    s'.fuses = s.fuses := by
  cases ht; simp

@[simp] theorem offsetSet_fuses (role : Role) (minutes : Int) (s : State) :
    (offsetSet role minutes s).2.fuses = s.fuses := by
  unfold offsetSet; (repeat' split) <;> simp

theorem execOffsetSet_fuses (rq : Rq) (minutes : Int) (s s' : State) (ht : execOffsetSet rq minutes s = .next s') :
    s'.fuses = s.fuses := by
  cases ht; simp

theorem execOffsetChangeScheduled_fuses (s s' : State) (ht : execOffsetChangeScheduled s = .next s') :
    s'.fuses = s.fuses := by
  cases ht; simp

@[simp] theorem calendarWritten_fuses (c : List Byte) (s : State) : (calendarWritten c s).2.fuses = s.fuses := by
  unfold calendarWritten; (repeat' split) <;> simp

@[simp] theorem stagePart_fuses (idx sub off total : Nat) (data : List Byte) (s : State) :
    (stagePart idx sub off total data s).2.2.fuses = s.fuses := by
  unfold stagePart; dsimp only; (repeat' split) <;> simp

theorem execCalendarWrite_fuses (rq : Rq) (off total : Nat) (data : List Byte) (s s' : State) (ht : execCalendarWrite rq off total data s = .next s') :
    s'.fuses = s.fuses := by
  unfold execCalendarWrite at ht
  have ht := Host.Outcome.next.inj ht; subst ht
  refine whenDie_fuses _ _ (fun t => ?_)
  dsimp only
  rw [objReply_fuses]
  split
  · rfl
  split
  · rfl
  have k := stagePart_fuses 0x5600 1 off total data t
  split <;> rename_i e <;> rw [e] at k
  · rw [calendarWritten_fuses]; exact k
  · exact k

@[simp] theorem activateSet_fuses (role : Role) (sec : Nat) (s : State) :
    (activateSet role sec s).2.fuses = s.fuses := by
  unfold activateSet; (repeat' split) <;> simp

theorem execCalendarActivateSet_fuses (rq : Rq) (sec : Nat) (s s' : State) (ht : execCalendarActivateSet rq sec s = .next s') :
    s'.fuses = s.fuses := by
  cases ht; simp

theorem execCalendarActivation_fuses (s s' : State) (ht : execCalendarActivation s = .next s') :
    s'.fuses = s.fuses := by
  cases ht; simp

theorem execTariffSwitch_fuses (s s' : State) (ht : execTariffSwitch s = .next s') : s'.fuses = s.fuses := by
  cases ht; simp

theorem execDemandIntervalEnd_fuses (s s' : State) (ht : execDemandIntervalEnd s = .next s') : s'.fuses = s.fuses := by
  cases ht; simp

@[simp] theorem demandReset_fuses (role : Role) (p : Nat) (s : State) : (demandReset role p s).2.fuses = s.fuses := by
  unfold demandReset; (repeat' split) <;> simp

theorem execMaxDemandReset_fuses (rq : Rq) (p : Fin 64) (s s' : State) (ht : execMaxDemandReset rq p s = .next s') :
    s'.fuses = s.fuses := by
  cases ht; simp

@[simp] theorem tokenKey_fuses (role : Role) (key : List Byte) (s : State) :
    (tokenKey role key s).2.fuses = s.fuses := by
  unfold tokenKey; (repeat' split) <;> simp

theorem execTokenKeyChange_fuses (rq : Rq) (key : List Byte) (s s' : State) (ht : execTokenKeyChange rq key s = .next s') :
    s'.fuses = s.fuses := by
  cases ht; simp

@[simp] theorem logArchive_fuses (role : Role) (idx : Nat) (s : State) : (logArchive role idx s).2.fuses = s.fuses := by
  unfold logArchive; (repeat' split) <;> simp

theorem execLegalLogArchive_fuses (rq : Rq) (idx : Nat) (s s' : State) (ht : execLegalLogArchive rq idx s = .next s') :
    s'.fuses = s.fuses := by
  cases ht; simp

@[simp] theorem bothLedgers_fuses (f : Ledger → Ledger) (s : State) :
    (bothLedgers f s).fuses = s.fuses := by simp [bothLedgers]

@[simp] theorem creditExpire_fuses (p : Nat) (s : State) : (creditExpire p s).fuses = s.fuses := by
  unfold creditExpire; (repeat' split) <;> simp

theorem execPendingCreditExpiry_fuses (p : Fin 64) (s s' : State) (ht : execPendingCreditExpiry p s = .next s') :
    s'.fuses = s.fuses := by
  cases ht; simp

theorem execTokenLockoutEnd_fuses (s s' : State) (ht : execTokenLockoutEnd s = .next s') : s'.fuses = s.fuses := by
  cases ht; exact whenDie_fuses _ _ fun t => by dsimp only; (repeat' split) <;> simp [*]

theorem execLedgerAgeOut_fuses (s s' : State) (ht : execLedgerAgeOut s = .next s') : s'.fuses = s.fuses := by
  cases ht; simp

@[simp] theorem tokenBad_fuses (s : State) : (tokenBad s).fuses = s.fuses := by simp [tokenBad]

@[simp] theorem creditPoint_fuses (p unit amount : Nat) (s : State) :
    (creditPoint p unit amount s).fuses = s.fuses := by
  unfold creditPoint; (repeat' split) <;> simp

@[simp] theorem tokenEnter_fuses (p n : Nat) (s : State) :
    (tokenEnter p n s).2.2.fuses = s.fuses := by simp [tokenEnter]

@[simp] theorem startClose_fuses (coinc : Bool) (s : State) :
    (startClose coinc s).fuses = s.fuses := by simp [startClose]

@[simp] theorem startElems_fuses (s : State) : (startElems s).fuses = s.fuses := by
  unfold startElems
  dsimp only
  exact foldl_fuses _ (fun t e => State.updElem_fuses _ _ _) _ _

@[simp] theorem startFresh_fuses (through : Bool) (mtk lt : Nat) (s : State) :
    (startFresh through mtk lt s).fuses = s.fuses := rfl

@[simp] theorem dieStart_fuses (held : Bool) (s : State) : (dieStart held s).fuses = s.fuses := by simp [dieStart]

theorem execSealedDieStart_fuses (vbatHeld : Bool) (s s' : State) (ht : execSealedDieStart vbatHeld s = .next s') :
    s'.fuses = s.fuses := by
  cases ht; simp

/-! ### PowerOps -/

@[simp] theorem State.updOut_fuses (s : State) (x : Nat) (f : Output → Output) :
    (State.updOut s x f).fuses = s.fuses := by simp [State.updOut]

@[simp] theorem outEvt_fuses (x i : Nat) (s : State) : (outEvt x i s).fuses = s.fuses := by simp [outEvt]

@[simp] theorem outTo_fuses (x : Nat) (st : OutSt) (s : State) : (outTo x st s).fuses = s.fuses := by simp [outTo]

@[simp] theorem outHold_fuses (x : Nat) (s : State) : (outHold x s).fuses = s.fuses := by simp [outHold]

@[simp] theorem outRelease_fuses (x : Nat) (s : State) : (outRelease x s).fuses = s.fuses := by simp [outRelease]

@[simp] theorem outLatch_fuses (x cause : Nat) (s : State) : (outLatch x cause s).fuses = s.fuses := by simp [outLatch]

@[simp] theorem outWaitLatch_fuses (x : Nat) (s : State) : (outWaitLatch x s).fuses = s.fuses := by simp [outWaitLatch]

@[simp] theorem outWaitLatchAll_fuses (s : State) : (outWaitLatchAll s).fuses = s.fuses := by simp [outWaitLatchAll]

@[simp] theorem outVload_fuses (x : Nat) (s : State) : (outVload x s).fuses = s.fuses := by simp [outVload]

@[simp] theorem State.updPil_fuses (s : State) (p : Nat) (f : PilotPt → PilotPt) :
    (State.updPil s p f).fuses = s.fuses := by simp [State.updPil]

@[simp] theorem pilEvt_fuses (p i : Nat) (s : State) : (pilEvt p i s).fuses = s.fuses := by simp [pilEvt]

@[simp] theorem countPt_fuses (p : Nat) (f : PtCount → PtCount) (s : State) :
    (countPt p f s).fuses = s.fuses := by simp [countPt]

@[simp] theorem pilGo_fuses (p : Nat) (st : PilSt) (s : State) : (pilGo p st s).fuses = s.fuses := by simp [pilGo]

@[simp] theorem pilStart_fuses (p : Nat) (s : State) : (pilStart p s).fuses = s.fuses := by simp [pilStart]

@[simp] theorem pilDriveF_fuses (held : Bool) (p : Nat) (s : State) :
    (pilDriveF held p s).fuses = s.fuses := by simp [pilDriveF]

@[simp] theorem pilToX1_fuses (p : Nat) (s : State) : (pilToX1 p s).fuses = s.fuses := by simp [pilToX1]

@[simp] theorem pilRelease_fuses (p : Nat) (s : State) : (pilRelease p s).fuses = s.fuses := by simp [pilRelease]

@[simp] theorem pilRailBack_fuses (p : Nat) (s : State) : (pilRailBack p s).fuses = s.fuses := by simp [pilRailBack]

@[simp] theorem psqSelfRelease_fuses (s : State) : (psqSelfRelease s).fuses = s.fuses := by simp [psqSelfRelease]

@[simp] theorem safeReport_fuses (s : State) : (safeReport s).fuses = s.fuses := by simp [safeReport]

@[simp] theorem safeLatches_fuses (s : State) : (safeLatches s).fuses = s.fuses := by simp [safeLatches]

@[simp] theorem safeEnter_fuses (s : State) : (safeEnter s).fuses = s.fuses := by simp [safeEnter]

@[simp] theorem seqSet_fuses (k : Nat) (d2 on : Bool) (s : State) :
    (seqSet k d2 on s).fuses = s.fuses := by simp [seqSet]

/-! ### BridleOps -/

@[simp] theorem State.updBp_fuses (s : State) (p : Nat) (f : BrPt → BrPt) :
    (State.updBp s p f).fuses = s.fuses := by simp [State.updBp]

@[simp] theorem bridleStatus_fuses (s : State) : (bridleStatus s).fuses = s.fuses := by simp [bridleStatus]

@[simp] theorem note_fuses (kind unit : Nat) (data : Word) (s : State) :
    (note kind unit data s).fuses = s.fuses := by simp [note]

@[simp] theorem syncOut_fuses (x : Nat) (s : State) : (syncOut x s).fuses = s.fuses := by simp [syncOut]

@[simp] theorem syncPilot_fuses (p : Nat) (s : State) : (syncPilot p s).fuses = s.fuses := by simp [syncPilot]

@[simp] theorem syncPoint_fuses (p : Nat) (s : State) : (syncPoint p s).fuses = s.fuses := by simp [syncPoint]

@[simp] theorem setCause_fuses (p : Nat) (c : HoldCause) (s : State) :
    (setCause p c s).fuses = s.fuses := by simp [setCause]

@[simp] theorem clearCause_fuses (p : Nat) (c : HoldCause) (s : State) :
    (clearCause p c s).fuses = s.fuses := by simp [clearCause]

@[simp] theorem resendHolds_fuses (s : State) : (resendHolds s).fuses = s.fuses := by simp [resendHolds]

/-! ### GirthOps -/

@[simp] theorem girthAccept_fuses (port : Nat) (ctx : Option Nat) (kind unit hold : Nat) (s : State) :
    (girthAccept port ctx kind unit hold s).2.1.fuses = s.fuses := by
  unfold girthAccept; dsimp only; (repeat' split) <;> simp

@[simp] theorem girthSubmit_fuses (port : Nat) (ctx : Option Nat) (kind unit hold : Nat) (s : State) :
    (girthSubmit port ctx kind unit hold s).2.fuses = s.fuses := by simp [girthSubmit]

@[simp] theorem girthUsed_fuses (port : Nat) (ctx : Option Nat) (kind : Nat) (s : State) :
    (girthUsed port ctx kind s).fuses = s.fuses := by
  unfold girthUsed; dsimp only; (repeat' split) <;> simp

theorem girthRun_fuses (port : Nat) (l : List Nat) (s t : State) (h : girthRun port l s = some t) :
    t.fuses = s.fuses := by
  induction l generalizing s with
  | nil => cases h; rfl
  | cons k r ih =>
    unfold girthRun at h
    split at h
    · rw [ih _ h]; simp
    · cases h

@[simp] theorem underGrants_fuses (port : Nat) (kinds : List Nat) (f : State → Status × State) (s : State) (h_f : ∀  t, (f  t).2.fuses = t.fuses) :
    (underGrants port kinds f s).2.fuses = s.fuses := by
  unfold underGrants
  dsimp only
  split
  · exact h_f s
  · split
    · rfl
    · rename_i e; rw [h_f]; exact girthRun_fuses _ _ _ _ e

@[simp] theorem girthOrphan_fuses (slot : Nat) (s : State) :
    (girthOrphan slot s).fuses = s.fuses := by simp [girthOrphan]

/-! ### Outputs -/

@[simp] theorem powerWrite_fuses (f : State → State) (s : State) (h_f : ∀  t, (f  t).fuses = t.fuses) :
    (powerWrite f s).fuses = s.fuses := by
  unfold powerWrite; (repeat' split) <;> simp [*]

@[simp] theorem outIgnore_fuses (x : Nat) (s : State) : (outIgnore x s).fuses = s.fuses := by simp [outIgnore]

@[simp] theorem outStart_fuses (x : Nat) (s : State) : (outStart x s).fuses = s.fuses := by simp [outStart]

@[simp] theorem outIgnoreOff_fuses (x : Nat) (s : State) : (outIgnoreOff x s).fuses = s.fuses := by simp [outIgnoreOff]

@[simp] theorem outOn_fuses (x : Nat) (s : State) : (outOn x s).fuses = s.fuses := by simp [outOn]

@[simp] theorem outRestart_fuses (x : Nat) (s : State) : (outRestart x s).fuses = s.fuses := by
  have h := girthAccept_fuses restartPort none (outGirthKind x) (outUnit x) 0 s
  unfold outRestart
  split
  · rename_i e; rw [e] at h; simpa using h
  · rfl
  · simp

@[simp] theorem outRestartDue_fuses (x : Nat) (s : State) :
    (outRestartDue x s).fuses = s.fuses := by simp [outRestartDue]

@[simp] theorem outSwitchOff_fuses (x : Nat) (s : State) : (outSwitchOff x s).fuses = s.fuses := by simp [outSwitchOff]

@[simp] theorem outFirmware_fuses (x : Nat) (f : State → State) (s : State) (h_f : ∀  t, (f  t).fuses = t.fuses) :
    (outFirmware x f s).fuses = s.fuses := by
  unfold outFirmware; (repeat' split) <;> simp [*]

@[simp] theorem outCmdOff_fuses (x : Nat) (s : State) : (outCmdOff x s).fuses = s.fuses := by simp [outCmdOff]

theorem execOutputOff_fuses (x : Fin 96) (s s' : State) (ht : execOutputOff x s = .next s') : s'.fuses = s.fuses := by
  cases ht; simp

@[simp] theorem outClear_fuses (x : Nat) (s : State) : (outClear x s).fuses = s.fuses := by simp [outClear]

@[simp] theorem outCmdClear_fuses (x : Nat) (s : State) : (outCmdClear x s).fuses = s.fuses := by simp [outCmdClear]

theorem execOutputClear_fuses (x : Fin 96) (s s' : State) (ht : execOutputClear x s = .next s') :
    s'.fuses = s.fuses := by
  cases ht; simp

@[simp] theorem outTest_fuses (x : Nat) (sampleMv meanMa : Int) (s : State) :
    (outTest x sampleMv meanMa s).fuses = s.fuses := by
  unfold outTest; dsimp only; (repeat' split) <;> simp

theorem execOutputTestPulse_fuses (x : Fin 96) (sampleMv meanMa : Int) (s s' : State) (ht : execOutputTestPulse x sampleMv meanMa s = .next s') :
    s'.fuses = s.fuses := by
  cases ht; simp

theorem execOutputTestPeriod_fuses (x : Fin 96) (sampleMv meanMa : Int) (s s' : State) (ht : execOutputTestPeriod x sampleMv meanMa s = .next s') :
    s'.fuses = s.fuses := by
  cases ht; simp

theorem execCoilPullInEnd_fuses (n : Fin 64) (s s' : State) (ht : execCoilPullInEnd n s = .next s') :
    s'.fuses = s.fuses := by
  cases ht; simp

theorem execOutputCurrentLimit_fuses (x : Fin 96) (s s' : State) (ht : execOutputCurrentLimit x s = .next s') :
    s'.fuses = s.fuses := by
  cases ht; simp

theorem execOutputLimitExit_fuses (x : Fin 96) (s s' : State) (ht : execOutputLimitExit x s = .next s') :
    s'.fuses = s.fuses := by
  cases ht; simp

theorem execOutputThermalTrip_fuses (x : Fin 96) (s s' : State) (ht : execOutputThermalTrip x s = .next s') :
    s'.fuses = s.fuses := by
  cases ht; simp

theorem execOutputRestartLevel_fuses (x : Fin 96) (s s' : State) (ht : execOutputRestartLevel x s = .next s') :
    s'.fuses = s.fuses := by
  cases ht; simp

theorem execOutputRestartRetry_fuses (x : Fin 96) (s s' : State) (ht : execOutputRestartRetry x s = .next s') :
    s'.fuses = s.fuses := by
  cases ht; simp

theorem execRetryWindowExpiry_fuses (x : Fin 96) (s s' : State) (ht : execRetryWindowExpiry x s = .next s') :
    s'.fuses = s.fuses := by
  cases ht; simp

theorem execOutputWarningBand_fuses (b : BandChange) (s s' : State) (ht : execOutputWarningBand b s = .next s') :
    s'.fuses = s.fuses := by
  cases ht; (repeat' split) <;> simp

theorem execOutputSumOver_fuses (sum : Nat) (s s' : State) (ht : execOutputSumOver sum s = .next s') :
    s'.fuses = s.fuses := by
  cases ht; simp

@[simp] theorem outCfgWrite_fuses (x : Nat) (v : Word) (s : State) :
    (outCfgWrite x v s).fuses = s.fuses := by simp [outCfgWrite]

theorem execOutputCfgWrite_fuses (x : Fin 96) (v : Word) (s s' : State) (ht : execOutputCfgWrite x v s = .next s') :
    s'.fuses = s.fuses := by
  cases ht; simp

@[simp] theorem outProtWrite_fuses (v : Word) (s : State) : (outProtWrite v s).fuses = s.fuses := by simp [outProtWrite]

theorem execOutProtWrite_fuses (v : Word) (s s' : State) (ht : execOutProtWrite v s = .next s') :
    s'.fuses = s.fuses := by
  cases ht; simp

/-! ### Pilot -/

@[simp] theorem pilWakeReq_fuses (p : Nat) (s : State) : (pilWakeReq p s).fuses = s.fuses := by simp [pilWakeReq]

@[simp] theorem pilCommand_fuses (p : Nat) (v : Word) (s : State) :
    (pilCommand p v s).fuses = s.fuses := by simp [pilCommand]

theorem execPilotCommand_fuses (p : Fin 64) (v : Word) (s s' : State) (ht : execPilotCommand p v s = .next s') :
    s'.fuses = s.fuses := by
  cases ht; simp

theorem execPilotWake_fuses (p : Fin 64) (v : Word) (s s' : State) (ht : execPilotWake p v s = .next s') :
    s'.fuses = s.fuses := by
  cases ht; simp

@[simp] theorem pilAfterMode_fuses (p : Nat) (s : State) : (pilAfterMode p s).fuses = s.fuses := by simp [pilAfterMode]

@[simp] theorem pilNone_fuses (p : Nat) (s : State) : (pilNone p s).fuses = s.fuses := by simp [pilNone]

@[simp] theorem pilPeriod_fuses (p : Nat) (s : State) : (pilPeriod p s).fuses = s.fuses := by simp [pilPeriod]

theorem execPilotWakeEnd_fuses (p : Fin 64) (s s' : State) (ht : execPilotWakeEnd p s = .next s') :
    s'.fuses = s.fuses := by
  cases ht; simp

theorem execPilotPeriodTrim_fuses (periodNs : Nat) (s s' : State) (ht : execPilotPeriodTrim periodNs s = .next s') :
    s'.fuses = s.fuses := by
  cases ht; simp

@[simp] theorem pilFault_fuses (p : Nat) (st : PilSt) (evt : Nat) (cause : BitVec 3) (s : State) :
    (pilFault p st evt cause s).fuses = s.fuses := by simp [pilFault]

@[simp] theorem pilPositive_fuses (p : Nat) (mv : List Int) (s : State) :
    (pilPositive p mv s).fuses = s.fuses := by simp [pilPositive]

@[simp] theorem pilNegative_fuses (p : Nat) (mv : List Int) (s : State) :
    (pilNegative p mv s).fuses = s.fuses := by simp [pilNegative]

theorem execPilotPlateauEvaluation_fuses (p : Fin 64) (neg : Bool) (samples : List PilSample) (s s' : State) (ht : execPilotPlateauEvaluation p neg samples s = .next s') :
    s'.fuses = s.fuses := by
  cases ht; simp

@[simp] theorem pilotFaultFrame_fuses (p : Nat) (s : State) :
    (pilotFaultFrame p s).fuses = s.fuses := by simp [pilotFaultFrame]

theorem execPilotFaultFrame_fuses (p : Fin 64) (_cause : Fin 3) (s s' : State) (ht : execPilotFaultFrame p _cause s = .next s') :
    s'.fuses = s.fuses := by
  cases ht; simp

theorem execOffWaitExpiry_fuses (p : Fin 64) (s s' : State) (ht : execOffWaitExpiry p s = .next s') :
    s'.fuses = s.fuses := by
  cases ht; simp

@[simp] theorem proxMeasure_fuses (p : Nat) (v1 v2 : Int) (s : State) :
    (proxMeasure p v1 v2 s).fuses = s.fuses := by simp [proxMeasure]

theorem execProximityMeasurement_fuses (p : Fin 64) (v1 v2 : Int) (s s' : State) (ht : execProximityMeasurement p v1 v2 s = .next s') :
    s'.fuses = s.fuses := by
  cases ht; simp

@[simp] theorem pilCfgWrite_fuses (p : Nat) (v : Word) (s : State) :
    (pilCfgWrite p v s).fuses = s.fuses := by simp [pilCfgWrite]

@[simp] theorem pilRsrcWrite_fuses (p : Nat) (v : Word) (s : State) :
    (pilRsrcWrite p v s).fuses = s.fuses := by simp [pilRsrcWrite]

theorem execPilotCfgWrite_fuses (p : Fin 64) (rsrc : Bool) (v : Word) (s s' : State) (ht : execPilotCfgWrite p rsrc v s = .next s') :
    s'.fuses = s.fuses := by
  cases ht; simp

@[simp] theorem pilTsRead_fuses (port p : Nat) (s : State) : (pilTsRead port p s).fuses = s.fuses := by simp [pilTsRead]

theorem execPilTsRead_fuses (port : Fin 24) (p : Fin 64) (s s' : State) (ht : execPilTsRead port p s = .next s') :
    s'.fuses = s.fuses := by
  cases ht; simp

/-! ### Bridle -/

@[simp] theorem stoSet_fuses (n : Nat) (on : Bool) (s : State) : (stoSet n on s).fuses = s.fuses := by simp [stoSet]

@[simp] theorem stoFault_fuses (n : Nat) (s : State) : (stoFault n s).fuses = s.fuses := by simp [stoFault]

@[simp] theorem State.updDev_fuses (s : State) (d : Nat) (f : Device → Device) :
    (State.updDev s d f).fuses = s.fuses := by simp [State.updDev]

@[simp] theorem syncDevice_fuses (d : Nat) (s : State) : (syncDevice d s).fuses = s.fuses := by simp [syncDevice]

@[simp] theorem devGo_fuses (d : Nat) (st : DevSt) (s : State) : (devGo d st s).fuses = s.fuses := by simp [devGo]

@[simp] theorem devOff_fuses (d : Nat) (s : State) : (devOff d s).fuses = s.fuses := by simp [devOff]

@[simp] theorem devFault_fuses (d cause : Nat) (s : State) : (devFault d cause s).fuses = s.fuses := by simp [devFault]

@[simp] theorem devInputs_fuses (d : Nat) (s : State) : (devInputs d s).fuses = s.fuses := by
  unfold devInputs; (repeat' split) <;> simp

@[simp] theorem devStop_fuses (d : Nat) (s : State) : (devStop d s).fuses = s.fuses := by simp [devStop]

@[simp] theorem groupStop_fuses (g : Nat) (s : State) : (groupStop g s).fuses = s.fuses := by simp [groupStop]

@[simp] theorem groupRun_fuses (g : Nat) (s : State) : (groupRun g s).fuses = s.fuses := by simp [groupRun]

@[simp] theorem evalGroup_fuses (g : Nat) (s : State) : (evalGroup g s).fuses = s.fuses := by simp [evalGroup]

@[simp] theorem evalGroups_fuses (s : State) : (evalGroups s).fuses = s.fuses := by simp [evalGroups]

@[simp] theorem edgeDevice_fuses (d : Nat) (s : State) : (edgeDevice d s).fuses = s.fuses := by simp [edgeDevice]

@[simp] theorem edgePair_fuses (i : Nat) (s : State) : (edgePair i s).fuses = s.fuses := by
  unfold edgePair; dsimp only; (repeat' split) <;> simp

@[simp] theorem edgePoint_fuses (p : Nat) (s : State) : (edgePoint p s).fuses = s.fuses := by simp [edgePoint]

@[simp] theorem edgeGroup_fuses (g : Nat) (s : State) : (edgeGroup g s).fuses = s.fuses := by simp [edgeGroup]

@[simp] theorem resetEdge_fuses (groups : BitVec 16) (devs : BitVec 8) (unit : Nat) (s : State) :
    (resetEdge groups devs unit s).fuses = s.fuses := by simp [resetEdge]

@[simp] theorem reclaimTake_fuses (hi : Bool) (v : Word) (s : State) :
    (reclaimTake hi v s).fuses = s.fuses := by simp [reclaimTake]

@[simp] theorem reclaimFront_fuses (l : List BrMsg) (s : State) : (reclaimFront l s).fuses = s.fuses := by
  induction l generalizing s with
  | nil => rfl
  | cons m r ih => cases m <;> first | rfl | simp [reclaimFront, ih]

@[simp] theorem takeReclaims_fuses (s : State) : (takeReclaims s).fuses = s.fuses := by
  unfold takeReclaims
  split
  · rfl
  · exact reclaimFront_fuses _ _

@[simp] theorem bridleFault_fuses (cause : Nat) (s : State) :
    (bridleFault cause s).fuses = s.fuses := by simp [bridleFault]

@[simp] theorem bridleSafe_fuses (cause : Nat) (s : State) :
    (bridleSafe cause s).fuses = s.fuses := by simp [bridleSafe]

@[simp] theorem devBegin_fuses (d : Nat) (s : State) : (devBegin d s).fuses = s.fuses := by simp [devBegin]

@[simp] theorem bridleRun_fuses (c : SafCfg) (unsealed : Bool) (slot : Nat) (s : State) :
    (bridleRun c unsealed slot s).fuses = s.fuses := by simp [bridleRun]

@[simp] theorem bridleRelease_fuses (lockstepOk : Bool) (s : State) : (bridleRelease lockstepOk s).fuses = s.fuses := by
  unfold bridleRelease; (repeat' split) <;> simp

theorem execBridleRelease_fuses (lockstepOk : Bool) (s s' : State) (ht : execBridleRelease lockstepOk s = .next s') :
    s'.fuses = s.fuses := by
  cases ht; simp

theorem execLockstepMismatch_fuses (s s' : State) (ht : execLockstepMismatch s = .next s') : s'.fuses = s.fuses := by
  cases ht; simp

theorem execBridleWatchdogExpiry_fuses (s s' : State) (ht : execBridleWatchdogExpiry s = .next s') :
    s'.fuses = s.fuses := by
  cases ht; simp

theorem execMarchTest_fuses (pass : Bool) (s s' : State) (ht : execMarchTest pass s = .next s') :
    s'.fuses = s.fuses := by
  cases ht; simp

theorem execBridleCodeCheck_fuses (pass : Bool) (s s' : State) (ht : execBridleCodeCheck pass s = .next s') :
    s'.fuses = s.fuses := by
  cases ht; simp

theorem execBridleOscFail_fuses (s s' : State) (ht : execBridleOscFail s = .next s') : s'.fuses = s.fuses := by
  cases ht; simp

@[simp] theorem bridleRestart_fuses (codeOk configOk : Bool) (s : State) :
    (bridleRestart codeOk configOk s).fuses = s.fuses := by simp [bridleRestart]

theorem execBridleRestart_fuses (codeOk configOk : Bool) (s s' : State) (ht : execBridleRestart codeOk configOk s = .next s') :
    s'.fuses = s.fuses := by
  cases ht; simp

@[simp] theorem mirrorCheck_fuses (p : Nat) (s : State) : (mirrorCheck p s).fuses = s.fuses := by simp [mirrorCheck]

theorem execMirrorChange_fuses (p : Fin 64) (high : Bool) (s s' : State) (ht : execMirrorChange p high s = .next s') :
    s'.fuses = s.fuses := by
  cases ht; simp

theorem execMirrorOpenTimeout_fuses (p : Fin 64) (s s' : State) (ht : execMirrorOpenTimeout p s = .next s') :
    s'.fuses = s.fuses := by
  cases ht; simp

theorem execMirrorCloseTimeout_fuses (p : Fin 64) (s s' : State) (ht : execMirrorCloseTimeout p s = .next s') :
    s'.fuses = s.fuses := by
  cases ht; simp

theorem execTpStuckReport_fuses (n : Fin 64) (s s' : State) (ht : execTpStuckReport n s = .next s') :
    s'.fuses = s.fuses := by
  cases ht; simp

@[simp] theorem siReact_fuses (i : Nat) (was : Bool) (since : Option Nat) (s : State) :
    (siReact i was since s).fuses = s.fuses := by
  unfold siReact; dsimp only; (repeat' split) <;> simp

@[simp] theorem safetyInput_fuses (i : Nat) (a b : Bool) (s : State) :
    (safetyInput i a b s).fuses = s.fuses := by simp [safetyInput]

theorem execSafetyInputChange_fuses (i : Fin 16) (a b : Bool) (s s' : State) (ht : execSafetyInputChange i a b s = .next s') :
    s'.fuses = s.fuses := by
  cases ht; simp

theorem execSafetyInputDiscrepancy_fuses (i : Fin 16) (s s' : State) (ht : execSafetyInputDiscrepancy i s = .next s') :
    s'.fuses = s.fuses := by
  cases ht; simp

@[simp] theorem inputPathTest_fuses (u : PathUnit) (pass : Bool) (s : State) :
    (inputPathTest u pass s).fuses = s.fuses := by
  unfold inputPathTest; (repeat' split) <;> simp

theorem execInputPathTest_fuses (u : PathUnit) (pass : Bool) (s s' : State) (ht : execInputPathTest u pass s = .next s') :
    s'.fuses = s.fuses := by
  cases ht; simp

@[simp] theorem motionSample_fuses (d : Nat) (m : MotionSample) (s : State) :
    (motionSample d m s).fuses = s.fuses := by simp [motionSample]

@[simp] theorem motionJudge_fuses (d : Nat) (s : State) : (motionJudge d s).fuses = s.fuses := by
  unfold motionJudge; dsimp only; (repeat' split) <;> simp

@[simp] theorem motionMonitor_fuses (d : Nat) (m : MotionSample) (s : State) :
    (motionMonitor d m s).fuses = s.fuses := by simp [motionMonitor]

theorem execDeviceMotionMonitor_fuses (d : Fin 8) (m : MotionSample) (s s' : State) (ht : execDeviceMotionMonitor d m s = .next s') :
    s'.fuses = s.fuses := by
  cases ht; simp

@[simp] theorem ss1End_fuses (d : Nat) (s : State) : (ss1End d s).fuses = s.fuses := by simp [ss1End]

theorem execSs1Standstill_fuses (d : Fin 8) (s s' : State) (ht : execSs1Standstill d s = .next s') :
    s'.fuses = s.fuses := by
  cases ht; simp

theorem execSs1Timeout_fuses (d : Fin 8) (s s' : State) (ht : execSs1Timeout d s = .next s') : s'.fuses = s.fuses := by
  cases ht; simp

theorem execDeviceMoveTimeout_fuses (d : Fin 8) (s s' : State) (ht : execDeviceMoveTimeout d s = .next s') :
    s'.fuses = s.fuses := by
  cases ht; simp

theorem execStoOffPulse_fuses (n : Fin 8) (b readback : Bool) (s s' : State) (ht : execStoOffPulse n b readback s = .next s') :
    s'.fuses = s.fuses := by
  cases ht; simp

theorem execStoDiscrepancy_fuses (n : Fin 8) (s s' : State) (ht : execStoDiscrepancy n s = .next s') :
    s'.fuses = s.fuses := by
  cases ht; simp

@[simp] theorem State.updRx_fuses (s : State) (i : Nat) (f : SafeRx → SafeRx) :
    (State.updRx s i f).fuses = s.fuses := by simp [State.updRx]

@[simp] theorem discardPair_fuses (s : State) : (discardPair s).fuses = s.fuses := by simp [discardPair]

@[simp] theorem acceptPair_fuses (i : Nat) (c : BitVec 8) (d : Word) (s : State) :
    (acceptPair i c d s).fuses = s.fuses := by
  unfold acceptPair; dsimp only; (repeat' split) <;> simp

@[simp] theorem safeValue_fuses (i : Nat) (s : State) : (safeValue i s).fuses = s.fuses := by simp [safeValue]

@[simp] theorem safeReceive_fuses (i : Nat) (onF1 crcOk : Bool) (c : BitVec 8) (d : Word) (s : State) :
    (safeReceive i onF1 crcOk c d s).fuses = s.fuses := by
  unfold safeReceive; dsimp only; (repeat' split) <;> simp

theorem execSafeMessageReceive_fuses (i : Fin 16) (onF1 : Bool) (d : Word) (c : Byte) (x : SafeTail) (s s' : State) (ht : execSafeMessageReceive i onF1 d c x s = .next s') :
    s'.fuses = s.fuses := by
  cases ht; simp

theorem execSafeMessageWindowExpiry_fuses (i : Fin 16) (s s' : State) (ht : execSafeMessageWindowExpiry i s = .next s') :
    s'.fuses = s.fuses := by
  cases ht; simp

theorem execSafeMessageTimeout_fuses (i : Fin 16) (s s' : State) (ht : execSafeMessageTimeout i s = .next s') :
    s'.fuses = s.fuses := by
  cases ht; simp

theorem execSafeMessageTransmit_fuses (j : Fin 8) (s s' : State) (ht : execSafeMessageTransmit j s = .next s') :
    s'.fuses = s.fuses := by
  cases ht; simp

theorem execSafeMessageReadbackMissing_fuses (j : Fin 8) (onF1 : Bool) (s s' : State) (ht : execSafeMessageReadbackMissing j onF1 s = .next s') :
    s'.fuses = s.fuses := by
  cases ht; simp

@[simp] theorem bridleTake_fuses (ty : BitVec 8) (tag : Word) (f : State → Status × State) (s : State) (h_f : ∀  t, (f  t).2.fuses = t.fuses) :
    (bridleTake ty tag f s).fuses = s.fuses := by
  unfold bridleTake; dsimp only; (repeat' split) <;> simp [*]

@[simp] theorem newChallenge_fuses (s : State) : (newChallenge s).fuses = s.fuses := by simp [newChallenge]

@[simp] theorem pilotReleaseMsg_fuses (u : Nat) (chal : BitVec 16) (s : State) :
    (pilotReleaseMsg u chal s).2.fuses = s.fuses := by
  unfold pilotReleaseMsg; dsimp only; (repeat' split) <;> simp

theorem execPilotRelease_fuses (unit : BitVec 8) (chal : BitVec 16) (tag : Word) (s s' : State) (ht : execPilotRelease unit chal tag s = .next s') :
    s'.fuses = s.fuses := by
  cases ht; simp

@[simp] theorem earthDrop_fuses (p : Nat) (s : State) : (earthDrop p s).fuses = s.fuses := by simp [earthDrop]

@[simp] theorem earthReleaseMsg_fuses (u : Nat) (chal : BitVec 16) (s : State) :
    (earthReleaseMsg u chal s).2.fuses = s.fuses := by
  unfold earthReleaseMsg; dsimp only; (repeat' split) <;> simp

theorem execEarthRelease_fuses (unit : BitVec 8) (chal : BitVec 16) (tag : Word) (s s' : State) (ht : execEarthRelease unit chal tag s = .next s') :
    s'.fuses = s.fuses := by
  cases ht; simp

@[simp] theorem shutdownCoil_fuses (p : Nat) (s : State) : (shutdownCoil p s).fuses = s.fuses := by simp [shutdownCoil]

@[simp] theorem currentMsg_fuses (u : Nat) (ma : Word) (s : State) : (currentMsg u ma s).2.fuses = s.fuses := by
  unfold currentMsg; (repeat' split) <;> simp

theorem execCurrent_fuses (unit : BitVec 8) (ma tag : Word) (s s' : State) (ht : execCurrent unit ma tag s = .next s') :
    s'.fuses = s.fuses := by
  cases ht; simp

@[simp] theorem stopReqMsg_fuses (u : Nat) (s : State) : (stopReqMsg u s).2.fuses = s.fuses := by
  unfold stopReqMsg; (repeat' split) <;> simp

theorem execStopReq_fuses (unit : BitVec 8) (tag : Word) (s s' : State) (ht : execStopReq unit tag s = .next s') :
    s'.fuses = s.fuses := by
  cases ht; simp

@[simp] theorem motionReqMsg_fuses (d : Nat) (dir : Word) (s : State) : (motionReqMsg d dir s).2.fuses = s.fuses := by
  unfold motionReqMsg; dsimp only; (repeat' split) <;> simp

theorem execMotionReq_fuses (unit : BitVec 8) (dir tag : Word) (s s' : State) (ht : execMotionReq unit dir tag s = .next s') :
    s'.fuses = s.fuses := by
  cases ht; simp

@[simp] theorem holdReleaseMsg_fuses (u : Nat) (chal : BitVec 16) (s : State) :
    (holdReleaseMsg u chal s).2.fuses = s.fuses := by
  unfold holdReleaseMsg; (repeat' split) <;> simp

theorem execHoldRelease_fuses (unit : BitVec 8) (chal : BitVec 16) (tag : Word) (s s' : State) (ht : execHoldRelease unit chal tag s = .next s') :
    s'.fuses = s.fuses := by
  cases ht; simp

@[simp] theorem noteAckMsg_fuses (seq : Word) (s : State) : (noteAckMsg seq s).2.fuses = s.fuses := by
  unfold noteAckMsg; dsimp only; (repeat' split) <;> simp

theorem execNoteAck_fuses (seq tag : Word) (s s' : State) (ht : execNoteAck seq tag s = .next s') :
    s'.fuses = s.fuses := by
  cases ht; simp

theorem execUnknownSafeMessage_fuses (ty : BitVec 8) (tag : Word) (s s' : State) (ht : execUnknownSafeMessage ty tag s = .next s') :
    s'.fuses = s.fuses := by
  cases ht; simp

@[simp] theorem holdWindowStart_fuses (s : State) : (holdWindowStart s).fuses = s.fuses := by simp [holdWindowStart]

@[simp] theorem shutdownStart_fuses (p : Nat) (s : State) :
    (shutdownStart p s).fuses = s.fuses := by simp [shutdownStart]

theorem execHoldWindowExpiry_fuses (s s' : State) (ht : execHoldWindowExpiry s = .next s') : s'.fuses = s.fuses := by
  cases ht; simp

theorem execShutdownCurrentTimeout_fuses (p : Fin 64) (s s' : State) (ht : execShutdownCurrentTimeout p s = .next s') :
    s'.fuses = s.fuses := by
  cases ht; simp

theorem execShutdownLockRelease_fuses (p : Fin 64) (s s' : State) (ht : execShutdownLockRelease p s = .next s') :
    s'.fuses = s.fuses := by
  cases ht; simp

@[simp] theorem reclaimWrite_fuses (hi : Bool) (v : Word) (s : State) :
    (reclaimWrite hi v s).fuses = s.fuses := by simp [reclaimWrite]

theorem execReclaim_fuses (hi : Bool) (v : Word) (s s' : State) (ht : execReclaim hi v s = .next s') :
    s'.fuses = s.fuses := by
  cases ht; simp

/-! ### Buckle -/

@[simp] theorem claimSource_fuses (n : Nat) (s : State) : (claimSource n s).fuses = s.fuses := by simp [claimSource]

@[simp] theorem bklClaim_fuses (t : Nat) (s : State) : (bklClaim t s).fuses = s.fuses := by simp [bklClaim]

theorem execBuckleClaim_fuses (t : Fin 18) (s s' : State) (ht : execBuckleClaim t s = .next s') :
    s'.fuses = s.fuses := by
  cases ht; simp

@[simp] theorem completeSource_fuses (t n : Nat) (s : State) :
    (completeSource t n s).fuses = s.fuses := by simp [completeSource]

@[simp] theorem bklComplete_fuses (t : Nat) (v : Word) (s : State) :
    (bklComplete t v s).fuses = s.fuses := by simp [bklComplete]

theorem execBuckleComplete_fuses (t : Fin 18) (v : Word) (s s' : State) (ht : execBuckleComplete t v s = .next s') :
    s'.fuses = s.fuses := by
  cases ht; simp

@[simp] theorem bklPendRead_fuses (port k : Nat) (s : State) :
    (bklPendRead port k s).fuses = s.fuses := by simp [bklPendRead]

theorem execBuckleCPendRead_fuses (port : Fin 24) (k : Fin 16) (s s' : State) (ht : execBuckleCPendRead port k s = .next s') :
    s'.fuses = s.fuses := by
  cases ht; simp

@[simp] theorem clearLatches_fuses (k : Nat) (m : Word) (s : State) :
    (clearLatches k m s).fuses = s.fuses := by simp [clearLatches]

@[simp] theorem bklPendWrite_fuses (port k : Nat) (v : Word) (s : State) :
    (bklPendWrite port k v s).fuses = s.fuses := by simp [bklPendWrite]

theorem execBuckleCPendWrite_fuses (port : Fin 24) (k : Fin 16) (v : Word) (s s' : State) (ht : execBuckleCPendWrite port k v s = .next s') :
    s'.fuses = s.fuses := by
  cases ht; simp

@[simp] theorem bklVec_fuses (t : Nat) (s : State) : (bklVec t s).fuses = s.fuses := by simp [bklVec]

theorem execBuckleCVecRead_fuses (t : Fin 18) (s s' : State) (ht : execBuckleCVecRead t s = .next s') :
    s'.fuses = s.fuses := by
  cases ht; simp

theorem execBucklePendClear_fuses (k : Fin 16) (v : Word) (s s' : State) (ht : execBucklePendClear k v s = .next s') :
    s'.fuses = s.fuses := by
  cases ht; simp

@[simp] theorem bklSwset_fuses (v : Word) (s : State) : (bklSwset v s).fuses = s.fuses := by simp [bklSwset]

theorem execBuckleSoftwareSet_fuses (v : Word) (s s' : State) (ht : execBuckleSoftwareSet v s = .next s') :
    s'.fuses = s.fuses := by
  cases ht; simp

@[simp] theorem bklCfgWrite_fuses (v : Word) (s : State) : (bklCfgWrite v s).fuses = s.fuses := by simp [bklCfgWrite]

theorem execBuckleCfgWrite_fuses (v : Word) (s s' : State) (ht : execBuckleCfgWrite v s = .next s') :
    s'.fuses = s.fuses := by
  cases ht; simp

theorem execBuckleSourceEdge_fuses (src : Fin 512) (s s' : State) (ht : execBuckleSourceEdge src s = .next s') :
    s'.fuses = s.fuses := by
  cases ht; simp

theorem execBuckleLevelChange_fuses (src : Fin 512) (level : Bool) (s s' : State) (ht : execBuckleLevelChange src level s = .next s') :
    s'.fuses = s.fuses := by
  cases ht; simp

@[simp] theorem transferSleep_fuses (s : State) : (transferSleep s).fuses = s.fuses := by simp [transferSleep]

@[simp] theorem wakeTarget_fuses (t : Nat) (s : State) : (wakeTarget t s).fuses = s.fuses := by simp [wakeTarget]

@[simp] theorem sleepWake_fuses (n : Nat) (s : State) : (sleepWake n s).fuses = s.fuses := by simp [sleepWake]

theorem execSleepLatchWake_fuses (src : Fin 512) (s s' : State) (ht : execSleepLatchWake src s = .next s') :
    s'.fuses = s.fuses := by
  cases ht; simp

@[simp] theorem bklSrcWrite_fuses (n : Nat) (v : Word) (s : State) :
    (bklSrcWrite n v s).fuses = s.fuses := by simp [bklSrcWrite]

/-! ### Metrology -/

@[simp] theorem updUsers_fuses (c : Nat) (f : Elem → Elem) (s : State) :
    (updUsers c f s).fuses = s.fuses := by simp [updUsers]

@[simp] theorem adcOverload_fuses (c : Nat) (code : BitVec 12) (repl : List (BitVec 12)) (s : State) :
    (adcOverload c code repl s).fuses = s.fuses := by simp [adcOverload]

theorem execAdcOverload_fuses (ch : Fin 80) (sar first : BitVec 12) (later : List (BitVec 12)) (s s' : State) (ht : execAdcOverload ch sar first later s = .next s') :
    s'.fuses = s.fuses := by
  cases ht; simp

theorem execGainRaise_fuses (ch : Fin 80) (s s' : State) (ht : execGainRaise ch s = .next s') : s'.fuses = s.fuses := by
  cases ht; simp

@[simp] theorem elemFault_fuses (e : Nat) (s : State) : (elemFault e s).fuses = s.fuses := by
  unfold elemFault; (repeat' split) <;> simp

@[simp] theorem chanFail_fuses (c : Nat) (s : State) : (chanFail c s).fuses = s.fuses := by simp [chanFail]

theorem execBitstreamModfail_fuses (b : Fin 64) (s s' : State) (ht : execBitstreamModfail b s = .next s') :
    s'.fuses = s.fuses := by
  cases ht; simp

@[simp] theorem State.updPls_fuses (s : State) (k : Nat) (f : Pulse → Pulse) :
    (State.updPls s k f).fuses = s.fuses := by simp [State.updPls]

@[simp] theorem pulseSync_fuses (k : Nat) (s : State) : (pulseSync k s).fuses = s.fuses := by simp [pulseSync]

@[simp] theorem pulseSyncAll_fuses (s : State) : (pulseSyncAll s).fuses = s.fuses := by simp [pulseSyncAll]

@[simp] theorem routeCycle_fuses (e : Nat) (c : CycleData) (s : State) : (routeCycle e c s).fuses = s.fuses := by
  unfold routeCycle; (repeat' split) <;> simp

@[simp] theorem cycleBoundary_fuses (e : Nat) (s : State) :
    (cycleBoundary e s).fuses = s.fuses := by simp [cycleBoundary]

@[simp] theorem refCycle_fuses (e ch : Nat) (v : Int) (cal raw : List Int) (overs : Nat) (s : State) :
    (refCycle e ch v cal raw overs s).fuses = s.fuses := by simp [refCycle]

@[simp] theorem cycleRms_fuses (e : Nat) (r : CycleRaw) (c : CycleData) (s : State) :
    (cycleRms e r c s).fuses = s.fuses := by simp [cycleRms]

@[simp] theorem closeCycle_fuses (e : Nat) (r : CycleRaw) (block short : Bool) (s : State) :
    (closeCycle e r block short s).fuses = s.fuses := by simp [closeCycle]

@[simp] theorem cycleEnd_fuses (e : Nat) (r : CycleRaw) (s : State) :
    (cycleEnd e r s).fuses = s.fuses := by simp [cycleEnd]

theorem execElementCycleEnd_fuses (e : Fin 128) (c : CycleRaw) (s s' : State) (ht : execElementCycleEnd e c s = .next s') :
    s'.fuses = s.fuses := by
  cases ht; simp

@[simp] theorem blockEntry_fuses (e : Nat) (r : CycleRaw) (s : State) :
    (blockEntry e r s).fuses = s.fuses := by simp [blockEntry]

theorem execBlockModeEntry_fuses (e : Fin 128) (c : CycleRaw) (s s' : State) (ht : execBlockModeEntry e c s = .next s') :
    s'.fuses = s.fuses := by
  cases ht; simp

@[simp] theorem blockReturn_fuses (e : Nat) (r : CycleRaw) (cycles : List CycleRaw) (s : State) :
    (blockReturn e r cycles s).fuses = s.fuses := by simp [blockReturn]

theorem execBlockModeReturn_fuses (x : BlockReturn) (s s' : State) (ht : execBlockModeReturn x s = .next s') :
    s'.fuses = s.fuses := by
  cases ht; simp

@[simp] theorem harmonicEnd_fuses (ch : Nat) (bins : List Nat) (s : State) :
    (harmonicEnd ch bins s).fuses = s.fuses := by simp [harmonicEnd]

theorem execHarmonicWindowEnd_fuses (ch : Fin 144) (re im : List Int) (s s' : State) (ht : execHarmonicWindowEnd ch re im s = .next s') :
    s'.fuses = s.fuses := by
  cases ht; simp

theorem execTemperatureBandSample_fuses (temp : Int) (s s' : State) (ht : execTemperatureBandSample temp s = .next s') :
    s'.fuses = s.fuses := by
  cases ht; simp

@[simp] theorem shadowDisagree_fuses (k : Nat) (s : State) :
    (shadowDisagree k s).fuses = s.fuses := by simp [shadowDisagree]

@[simp] theorem shadowAgree_fuses (k : Nat) (s : State) : (shadowAgree k s).fuses = s.fuses := by simp [shadowAgree]

@[simp] theorem shadowCheck_fuses (k c : Nat) (pass : Bool) (s : State) : (shadowCheck k c pass s).fuses = s.fuses := by
  unfold shadowCheck; dsimp only; (repeat' split) <;> simp

theorem execShadowCheckEnd_fuses (k : Fin 8) (ch : Fin 80) (x : Comparison) (s s' : State) (ht : execShadowCheckEnd k ch x s = .next s') :
    s'.fuses = s.fuses := by
  cases ht; simp

@[simp] theorem pulseDue_fuses (k : Nat) (s : State) : (pulseDue k s).fuses = s.fuses := by simp [pulseDue]

theorem execPulseDue_fuses (k : Fin 8) (s s' : State) (ht : execPulseDue k s = .next s') : s'.fuses = s.fuses := by
  cases ht; simp

@[simp] theorem pulseEnd_fuses (k : Nat) (s : State) : (pulseEnd k s).fuses = s.fuses := by simp [pulseEnd]

theorem execPulseOnTimeEnd_fuses (k : Fin 8) (s s' : State) (ht : execPulseOnTimeEnd k s = .next s') :
    s'.fuses = s.fuses := by
  cases ht; simp

@[simp] theorem sliceEnd_fuses (e : Nat) (c : CycleRaw) (s : State) :
    (sliceEnd e c s).fuses = s.fuses := by simp [sliceEnd]

theorem execSliceEnd_fuses (e : Fin 128) (c : CycleRaw) (s s' : State) (ht : execSliceEnd e c s = .next s') :
    s'.fuses = s.fuses := by
  cases ht; simp

theorem execResidueUpdate_fuses (e : Fin 128) (c : CycleRaw) (s s' : State) (ht : execResidueUpdate e c s = .next s') :
    s'.fuses = s.fuses := by
  cases ht; simp

theorem execPeriodicCommit_fuses (s s' : State) (ht : execPeriodicCommit s = .next s') : s'.fuses = s.fuses := by
  cases ht; simp

@[simp] theorem metrologyAnswer_fuses (role : Role) (kind part unit : Nat) (s : State) :
    (metrologyAnswer role kind part unit s).2.fuses = s.fuses := by
  unfold metrologyAnswer; (repeat' split) <;> simp

theorem execMetrologyRead_fuses (rq : Rq) (kind part : BitVec 8) (unit : BitVec 16) (s s' : State) (ht : execMetrologyRead rq kind part unit s = .next s') :
    s'.fuses = s.fuses := by
  cases ht; simp

@[simp] theorem State.staged_fuses (s : State) : (State.staged s).fuses = s.fuses := by simp [State.staged]

@[simp] theorem paramWrite_fuses (role : Role) (idx sub : Nat) (data : List Byte) (s : State) :
    (paramWrite role idx sub data s).2.fuses = s.fuses := by
  unfold paramWrite; dsimp only; (repeat' split) <;> simp

theorem execSealParameterWrite_fuses (rq : Rq) (idx : BitVec 16) (sub : BitVec 8) (data : List Byte) (s s' : State) (ht : execSealParameterWrite rq idx sub data s = .next s') :
    s'.fuses = s.fuses := by
  cases ht; exact whenDie_fuses _ _ fun t => by simp; (repeat' split) <;> simp

@[simp] theorem sealOpen_fuses (sel : BitVec 144) (s : State) : (sealOpen sel s).2.fuses = s.fuses := by
  unfold sealOpen; dsimp only; (repeat' split) <;> simp

theorem execSealOpen_fuses (rq : Rq) (sel : BitVec 144) (s s' : State) (ht : execSealOpen rq sel s = .next s') :
    s'.fuses = s.fuses := by
  cases ht; exact whenDie_fuses _ _ fun t => by simp; (repeat' split) <;> simp

@[simp] theorem recheck_fuses (c : Nat) (s : State) : (recheck c s).fuses = s.fuses := by simp [recheck]

@[simp] theorem sealCommit_fuses (pass : BitVec 144) (s : State) : (sealCommit pass s).2.fuses = s.fuses := by
  unfold sealCommit; (repeat' split) <;> simp

theorem execSealCloseCommit_fuses (rq : Rq) (recheckPass : BitVec 144) (s s' : State) (ht : execSealCloseCommit rq recheckPass s = .next s') :
    s'.fuses = s.fuses := by
  cases ht; exact whenDie_fuses _ _ fun t => by simp; (repeat' split) <;> simp

@[simp] theorem sealClose_fuses (s : State) : (sealClose s).2.fuses = s.fuses := by
  unfold sealClose; (repeat' split) <;> simp

theorem execSealCloseAbandon_fuses (rq : Rq) (s s' : State) (ht : execSealCloseAbandon rq s = .next s') :
    s'.fuses = s.fuses := by
  cases ht; exact whenDie_fuses _ _ fun t => by simp; (repeat' split) <;> simp

theorem execSealTimeout_fuses (s s' : State) (ht : execSealTimeout s = .next s') : s'.fuses = s.fuses := by
  cases ht; simp

/-! ### SealedObjects -/

@[simp] theorem sealedSession_fuses (role : Role) (idx sub serial : Nat) (s : State) :
    (sealedSession role idx sub serial s).2.2.fuses = s.fuses := by
  unfold sealedSession; dsimp only; (repeat' split) <;> simp

@[simp] theorem sealedRead_fuses (role : Role) (idx sub serial : Nat) (s : State) :
    (sealedRead role idx sub serial s).2.2.fuses = s.fuses := by
  unfold sealedRead; (repeat' split) <;> simp

theorem execSealedObjectRead_fuses (rq : Rq) (idx : BitVec 16) (sub : BitVec 8) (off len : Nat) (serial : BitVec 64) (s s' : State) (ht : execSealedObjectRead rq idx sub off len serial s = .next s') :
    s'.fuses = s.fuses := by
  cases ht; simp

@[simp] theorem onTimeWrite_fuses (idx : Nat) (data : List Byte) (s : State) :
    (onTimeWrite idx data s).2.fuses = s.fuses := by
  unfold onTimeWrite; (repeat' split) <;> simp

@[simp] theorem sealCloseWrite_fuses (n : Nat) (s : State) : (sealCloseWrite n s).2.fuses = s.fuses := by
  unfold sealCloseWrite; (repeat' split) <;> simp

@[simp] theorem sealedApply_fuses (role : Role) (idx sub : Nat) (data : List Byte) (s : State) :
    (sealedApply role idx sub data s).2.fuses = s.fuses := by
  unfold sealedApply; dsimp only; (repeat' split) <;> simp

@[simp] theorem sealedWrite_fuses (role : Role) (idx sub : Nat) (data : List Byte) (s : State) :
    (sealedWrite role idx sub data s).2.fuses = s.fuses := by
  unfold sealedWrite; (repeat' split) <;> simp

theorem execSealedObjectWrite_fuses (rq : Rq) (idx : BitVec 16) (sub : BitVec 8) (off total : Nat) (data : List Byte) (s s' : State) (ht : execSealedObjectWrite rq idx sub off total data s = .next s') :
    s'.fuses = s.fuses := by
  unfold execSealedObjectWrite at ht
  have ht := Host.Outcome.next.inj ht; subst ht
  refine whenDie_fuses _ _ (fun t => ?_)
  dsimp only
  rw [objReply_fuses]
  split
  · rfl
  have k := stagePart_fuses idx.toNat sub.toNat off total data t
  split <;> rename_i e <;> rw [e] at k
  · rw [sealedWrite_fuses]; exact k
  · exact k

/-! ### Panels -/

@[simp] theorem State.updPanel_fuses (s : State) (m : Nat) (f : Panel → Panel) :
    (State.updPanel s m f).fuses = s.fuses := by simp [State.updPanel]

@[simp] theorem panelNotice_fuses (m : Nat) (s : State) : (panelNotice m s).fuses = s.fuses := by simp [panelNotice]

@[simp] theorem panelTo_fuses (m : Nat) (st : PanelSt) (s : State) :
    (panelTo m st s).fuses = s.fuses := by simp [panelTo]

@[simp] theorem psqDrive_fuses (m : Nat) (mask : BitVec 4) (low : Bool) (s : State) :
    (psqDrive m mask low s).fuses = s.fuses := by simp [psqDrive]

@[simp] theorem clearFrames_fuses (m : Nat) (s : State) : (clearFrames m s).fuses = s.fuses := by simp [clearFrames]

@[simp] theorem panelStopped_fuses (m : Nat) (s : State) : (panelStopped m s).fuses = s.fuses := by simp [panelStopped]

@[simp] theorem orderlyStop_fuses (m : Nat) (s : State) : (orderlyStop m s).fuses = s.fuses := by simp [orderlyStop]

@[simp] theorem panelsLinked_fuses (s : State) : (panelsLinked s).fuses = s.fuses := by simp [panelsLinked]

@[simp] theorem panelFail_fuses (m : Nat) (s : State) : (panelFail m s).fuses = s.fuses := by simp [panelFail]

@[simp] theorem panelRequest_fuses (m : Nat) (s : State) : (panelRequest m s).fuses = s.fuses := by simp [panelRequest]

@[simp] theorem panelEnableSet_fuses (m : Nat) (s : State) :
    (panelEnableSet m s).fuses = s.fuses := by simp [panelEnableSet]

@[simp] theorem panelStart_fuses (m : Nat) (loopOk : Bool) (s : State) :
    (panelStart m loopOk s).fuses = s.fuses := by simp [panelStart]

theorem execPanelEnable_fuses (m : Fin 2) (loopOk : Bool) (s s' : State) (ht : execPanelEnable m loopOk s = .next s') :
    s'.fuses = s.fuses := by
  cases ht; simp

theorem execPanelClearRequestRetry_fuses (m : Fin 2) (s s' : State) (ht : execPanelClearRequestRetry m s = .next s') :
    s'.fuses = s.fuses := by
  cases ht; simp

theorem execPanelStartTimeout_fuses (m : Fin 2) (s s' : State) (ht : execPanelStartTimeout m s = .next s') :
    s'.fuses = s.fuses := by
  cases ht; simp

@[simp] theorem panelDisable_fuses (m : Nat) (s : State) : (panelDisable m s).fuses = s.fuses := by simp [panelDisable]

theorem execPanelDisable_fuses (m : Fin 2) (s s' : State) (ht : execPanelDisable m s = .next s') :
    s'.fuses = s.fuses := by
  cases ht; simp

@[simp] theorem clearUnderLedger_fuses (m : Nat) (s : State) :
    (clearUnderLedger m s).fuses = s.fuses := by simp [clearUnderLedger]

@[simp] theorem linesDue_fuses (m y h : Nat) (s : State) : (linesDue m y h s).fuses = s.fuses := by simp [linesDue]

@[simp] theorem putRect_fuses (m x y w h : Nat) (v : Nat → Nat → Byte) (s : State) :
    (putRect m x y w h v s).fuses = s.fuses := by simp [putRect]

@[simp] theorem panelGranted_fuses (m : Nat) (s : State) : (panelGranted m s).fuses = s.fuses := by
  unfold panelGranted; dsimp only; (repeat' split) <;> simp

@[simp] theorem frameStart_fuses (m mism : Nat) (bad : List Nat) (s : State) :
    (frameStart m mism bad s).fuses = s.fuses := by simp [frameStart]

theorem execPanelFrameStart_fuses (m : Fin 2) (mismatches : Nat) (bad : List (Fin 480)) (s s' : State) (ht : execPanelFrameStart m mismatches bad s = .next s') :
    s'.fuses = s.fuses := by
  cases ht; simp

@[simp] theorem entryDue_fuses (m : Nat) (e : Byte) (s : State) : (entryDue m e s).fuses = s.fuses := by simp [entryDue]

theorem execBlinkHalfPeriod_fuses (m : Fin 2) (entry : BitVec 8) (s s' : State) (ht : execBlinkHalfPeriod m entry s = .next s') :
    s'.fuses = s.fuses := by
  cases ht; simp

@[simp] theorem rolloverCheck_fuses (m : Nat) (s : State) : (rolloverCheck m s).fuses = s.fuses := by
  unfold rolloverCheck; (repeat' split) <;> simp

theorem execLegalRegionRedraw_fuses (m : Fin 2) (s s' : State) (ht : execLegalRegionRedraw m s = .next s') :
    s'.fuses = s.fuses := by
  cases ht; simp

theorem execSealBorderAdvance_fuses (m : Fin 2) (s s' : State) (ht : execSealBorderAdvance m s = .next s') :
    s'.fuses = s.fuses := by
  cases ht; simp

@[simp] theorem geomWrite_fuses (role : Role) (m x y w h : Nat) (s : State) :
    (geomWrite role m x y w h s).2.fuses = s.fuses := by
  unfold geomWrite; (repeat' split) <;> simp

@[simp] theorem ovReply_fuses (tag : Word) (op m : Nat) (r : Status × State) :
    (ovReply tag op m r).fuses = r.2.fuses := by simp [ovReply]

theorem execLegalRegionGeometryWrite_fuses (rq : Rq) (m : Fin 2) (x y w h : Nat) (s s' : State) (ht : execLegalRegionGeometryWrite rq m x y w h s = .next s') :
    s'.fuses = s.fuses := by
  cases ht; simp

theorem execOverlayWrite_fuses (rq : Rq) (m : Fin 2) (x y w h : Nat) (data : List Byte) (s s' : State) (ht : execOverlayWrite rq m x y w h data s = .next s') :
    s'.fuses = s.fuses := by
  cases ht; simp

theorem execOverlayFill_fuses (rq : Rq) (m : Fin 2) (x y w h : Nat) (index : BitVec 8) (s s' : State) (ht : execOverlayFill rq m x y w h index s = .next s') :
    s'.fuses = s.fuses := by
  cases ht; simp

theorem execPaletteWrite_fuses (rq : Rq) (m : Fin 2) (first : Nat) (rgb : List (BitVec 24)) (s s' : State) (ht : execPaletteWrite rq m first rgb s = .next s') :
    s'.fuses = s.fuses := by
  cases ht; simp

theorem execBlinkSet_fuses (rq : Rq) (m : Fin 2) (index partner : BitVec 8) (half : Nat) (enable : Bool) (s s' : State) (ht : execBlinkSet rq m index partner half enable s = .next s') :
    s'.fuses = s.fuses := by
  cases ht; simp

@[simp] theorem termApply_fuses (role : Role) (idx sub : Nat) (data : List Byte) (s : State) :
    (termApply role idx sub data s).2.fuses = s.fuses := by
  unfold termApply; dsimp only; (repeat' split) <;> simp

@[simp] theorem termWrite_fuses (role : Role) (idx sub : Nat) (data : List Byte) (s : State) :
    (termWrite role idx sub data s).2.fuses = s.fuses := by
  unfold termWrite; (repeat' split) <;> simp

@[simp] theorem termReply_fuses (tag : Word) (op : Nat) (st : Status) (idx sub : Nat) (data : List Byte) (s : State) :
    (termReply tag op st idx sub data s).fuses = s.fuses := by simp [termReply]

theorem execTerminalObjectRead_fuses (rq : Rq) (idx : BitVec 16) (sub : BitVec 8) (s s' : State) (ht : execTerminalObjectRead rq idx sub s = .next s') :
    s'.fuses = s.fuses := by
  cases ht; simp

theorem execTerminalObjectWrite_fuses (rq : Rq) (idx : BitVec 16) (sub : BitVec 8) (data : List Byte) (s s' : State) (ht : execTerminalObjectWrite rq idx sub data s = .next s') :
    s'.fuses = s.fuses := by
  cases ht; exact whenDie_fuses _ _ fun t => by dsimp only; (repeat' split) <;> simp [*]

theorem execPanelStatusQuery_fuses (rq : Rq) (m : Fin 2) (s s' : State) (ht : execPanelStatusQuery rq m s = .next s') :
    s'.fuses = s.fuses := by
  cases ht; simp

@[simp] theorem psqWrite_fuses (port : Nat) (v : Word) (s : State) :
    (psqWrite port v s).fuses = s.fuses := by simp [psqWrite]

theorem execOutPsqWrite_fuses (port : Fin 24) (v : Word) (s s' : State) (ht : execOutPsqWrite port v s = .next s') :
    s'.fuses = s.fuses := by
  cases ht; simp

@[simp] theorem State.updKey_fuses (s : State) (f : Keypad → Keypad) :
    (State.updKey s f).fuses = s.fuses := by simp [State.updKey]

@[simp] theorem keyNotice_fuses (kind : Nat) (p : Option Nat) (s : State) :
    (keyNotice kind p s).fuses = s.fuses := by simp [keyNotice]

@[simp] theorem keyDigit_fuses (d : Nat) (s : State) : (keyDigit d s).fuses = s.fuses := by
  unfold keyDigit; dsimp only; (repeat' split) <;> simp

theorem execKeyDigit_fuses (d : Fin 10) (s s' : State) (ht : execKeyDigit d s = .next s') : s'.fuses = s.fuses := by
  cases ht; simp

@[simp] theorem keyAccept_fuses (s : State) : (keyAccept s).fuses = s.fuses := by
  unfold keyAccept; dsimp only; (repeat' split) <;> simp

theorem execKeyAccept_fuses (s s' : State) (ht : execKeyAccept s = .next s') : s'.fuses = s.fuses := by
  cases ht; simp

theorem execKeyDelete_fuses (s s' : State) (ht : execKeyDelete s = .next s') : s'.fuses = s.fuses := by
  cases ht; simp

@[simp] theorem keyCancel_fuses (s : State) : (keyCancel s).fuses = s.fuses := by
  unfold keyCancel; (repeat' split) <;> simp

theorem execKeyCancel_fuses (s s' : State) (ht : execKeyCancel s = .next s') : s'.fuses = s.fuses := by
  cases ht; simp

theorem execKeyStop_fuses (s s' : State) (ht : execKeyStop s = .next s') : s'.fuses = s.fuses := by
  cases ht; simp

@[simp] theorem keyStar_fuses (s : State) : (keyStar s).fuses = s.fuses := by simp [keyStar]

theorem execKeyStar_fuses (s s' : State) (ht : execKeyStar s = .next s') : s'.fuses = s.fuses := by
  cases ht; simp

theorem execKeypadEntryTimeout_fuses (s s' : State) (ht : execKeypadEntryTimeout s = .next s') :
    s'.fuses = s.fuses := by
  cases ht; simp

/-! ### Mailbox -/

@[simp] theorem State.updPair_fuses (s : State) (m : Nat) (f : PairMbx → PairMbx) :
    (State.updPair s m f).fuses = s.fuses := by simp [State.updPair]

@[simp] theorem pairPut_fuses (m : Nat) (msg : List Word) (s : State) : (pairPut m msg s).2.fuses = s.fuses := by
  unfold pairPut; (repeat' split) <;> simp

@[simp] theorem pairWrite_fuses (port m i : Nat) (v : Word) (s : State) :
    (pairWrite port m i v s).fuses = s.fuses := by simp [pairWrite]

theorem execPairMailboxCommit_fuses (port : Fin 24) (m : Fin 20) (v : Word) (s s' : State) (ht : execPairMailboxCommit port m v s = .next s') :
    s'.fuses = s.fuses := by
  cases ht; simp

@[simp] theorem pairRead_fuses (m i : Nat) (s : State) : (pairRead m i s).fuses = s.fuses := by
  unfold pairRead; (repeat' split) <;> simp

theorem execPairMailboxRemove_fuses (_port : Fin 24) (m : Fin 20) (s s' : State) (ht : execPairMailboxRemove _port m s = .next s') :
    s'.fuses = s.fuses := by
  cases ht; simp

@[simp] theorem State.updHub_fuses (s : State) (h : Nat) (f : HubMbx → HubMbx) :
    (State.updHub s h f).fuses = s.fuses := by simp [State.updHub]

@[simp] theorem hubAcquire_fuses (port h : Nat) (s : State) : (hubAcquire port h s).fuses = s.fuses := by
  unfold hubAcquire; dsimp only; (repeat' split) <;> simp

theorem execHubMailboxAcquire_fuses (port : Fin 24) (h : Fin 8) (s s' : State) (ht : execHubMailboxAcquire port h s = .next s') :
    s'.fuses = s.fuses := by
  cases ht; simp

@[simp] theorem hubWrite_fuses (port h i : Nat) (v : Word) (s : State) :
    (hubWrite port h i v s).fuses = s.fuses := by simp [hubWrite]

theorem execHubMailboxCommit_fuses (port : Fin 24) (h : Fin 8) (v : Word) (s s' : State) (ht : execHubMailboxCommit port h v s = .next s') :
    s'.fuses = s.fuses := by
  cases ht; simp

@[simp] theorem hubRelease_fuses (port h : Nat) (s : State) :
    (hubRelease port h s).fuses = s.fuses := by simp [hubRelease]

theorem execHubMailboxRelease_fuses (port : Fin 24) (h : Fin 8) (s s' : State) (ht : execHubMailboxRelease port h s = .next s') :
    s'.fuses = s.fuses := by
  cases ht; simp

@[simp] theorem keeperTimeout_fuses (h : Nat) (s : State) :
    (keeperTimeout h s).fuses = s.fuses := by simp [keeperTimeout]

theorem execKeeperTimeout_fuses (h : Fin 8) (s s' : State) (ht : execKeeperTimeout h s = .next s') :
    s'.fuses = s.fuses := by
  cases ht; simp

@[simp] theorem hubRead_fuses (port h i : Nat) (s : State) : (hubRead port h i s).fuses = s.fuses := by
  unfold hubRead; dsimp only; (repeat' split) <;> simp

theorem execHubMailboxRemove_fuses (port : Fin 24) (h : Fin 8) (s s' : State) (ht : execHubMailboxRemove port h s = .next s') :
    s'.fuses = s.fuses := by
  cases ht; simp

@[simp] theorem mbxCtrlRead_fuses (s : State) : (mbxCtrlRead s).fuses = s.fuses := by simp [mbxCtrlRead]

theorem execMbxDroppedRead_fuses (s s' : State) (ht : execMbxDroppedRead s = .next s') : s'.fuses = s.fuses := by
  cases ht; simp

/-! ### Values -/

@[simp] theorem State.setObj_fuses (s : State) (idx sub : Nat) (v : List Byte) :
    (State.setObj s idx sub v).fuses = s.fuses := by simp [State.setObj]

@[simp] theorem State.setVol_fuses (s : State) (idx sub : Nat) (v : List Byte) :
    (State.setVol s idx sub v).fuses = s.fuses := by simp [State.setVol]

/-! ### Rein -/

@[simp] theorem putCtx_fuses (slot : Nat) (f : Ctx → Ctx) (s : State) :
    (putCtx slot f s).fuses = s.fuses := by simp [putCtx]

@[simp] theorem completeSources_fuses (l : List Nat) (s : State) :
    (completeSources l s).fuses = s.fuses := by simp [completeSources]

@[simp] theorem completeDelivered_fuses (slot : Nat) (s : State) :
    (completeDelivered slot s).fuses = s.fuses := by simp [completeDelivered]

@[simp] theorem completeLevels_fuses (slot : Nat) (s : State) :
    (completeLevels slot s).fuses = s.fuses := by simp [completeLevels]

@[simp] theorem ctxBytes_fuses (slot off : Nat) (b : List Byte) (s : State) :
    (ctxBytes slot off b s).fuses = s.fuses := by simp [ctxBytes]

@[simp] theorem claimFor_fuses (n slot k : Nat) (s : State) :
    (claimFor n slot k s).fuses = s.fuses := by simp [claimFor]

@[simp] theorem claimMisroute_fuses (e n : Nat) (s : State) :
    (claimMisroute e n s).fuses = s.fuses := by simp [claimMisroute]

@[simp] theorem reinClaim_fuses (e : Nat) (s : State) : (reinClaim e s).fuses = s.fuses := by
  unfold reinClaim; dsimp only; (repeat' split) <;> simp

theorem execReinSourceClaim_fuses (e : Fin 8) (s s' : State) (ht : execReinSourceClaim e s = .next s') :
    s'.fuses = s.fuses := by
  cases ht; simp

@[simp] theorem reinStash_fuses (e : Nat) (s : State) : (reinStash e s).fuses = s.fuses := by
  unfold reinStash; (repeat' split) <;> simp

theorem execReinMailboxStash_fuses (e : Fin 8) (s s' : State) (ht : execReinMailboxStash e s = .next s') :
    s'.fuses = s.fuses := by
  cases ht; simp

@[simp] theorem deliver_fuses (e k : Nat) (s : State) : (deliver e k s).fuses = s.fuses := by simp [deliver]

@[simp] theorem reinActivate_fuses (e : Nat) (s : State) : (reinActivate e s).fuses = s.fuses := by
  unfold reinActivate; (repeat' split) <;> simp

theorem execReinActivation_fuses (e : Fin 8) (s s' : State) (ht : execReinActivation e s = .next s') :
    s'.fuses = s.fuses := by
  cases ht; simp

@[simp] theorem endActivation_fuses (e slot : Nat) (s : State) :
    (endActivation e slot s).fuses = s.fuses := by simp [endActivation]

@[simp] theorem sesDone_fuses (e : Nat) (s : State) : (sesDone e s).fuses = s.fuses := by
  unfold sesDone; (repeat' split) <;> simp

@[simp] theorem commitNotices_fuses (e n : Nat) (s : State) : (commitNotices e n s).fuses = s.fuses := by
  induction n generalizing s with
  | zero => rfl
  | succ n ih => simp only [commitNotices]; (repeat' split) <;> simp [ih]

@[simp] theorem ctxTrap_fuses (e cause : Nat) (val : Word) (s : State) : (ctxTrap e cause val s).fuses = s.fuses := by
  unfold ctxTrap; (repeat' split) <;> simp

theorem execBudgetExhausted_fuses (e : Fin 8) (s s' : State) (ht : execBudgetExhausted e s = .next s') :
    s'.fuses = s.fuses := by
  cases ht; simp

theorem execTrapNoticeCommit_fuses (e : Fin 8) (s s' : State) (ht : execTrapNoticeCommit e s = .next s') :
    s'.fuses = s.fuses := by
  cases ht; simp

@[simp] theorem postCode_fuses (e k : Nat) (code : Byte) (s : State) : (postCode e k code s).2.fuses = s.fuses := by
  unfold postCode; dsimp only; (repeat' split) <;> simp

@[simp] theorem sesPost_fuses (e : Nat) (v : Word) (s : State) : (sesPost e v s).fuses = s.fuses := by
  unfold sesPost; (repeat' split) <;> simp

theorem execSesPost_fuses (e : Fin 8) (v : Word) (s s' : State) (ht : execSesPost e v s = .next s') :
    s'.fuses = s.fuses := by
  cases ht; simp

@[simp] theorem sesPostr_fuses (port e : Nat) (v : Word) (s : State) : (sesPostr port e v s).fuses = s.fuses := by
  unfold sesPostr; (repeat' split) <;> simp

theorem execSesPostr_fuses (port : Fin 24) (e : Fin 8) (v : Word) (s s' : State) (ht : execSesPostr port e v s = .next s') :
    s'.fuses = s.fuses := by
  cases ht; simp

@[simp] theorem evTake_fuses (e : Nat) (v : Word) (s : State) : (evTake e v s).fuses = s.fuses := by
  unfold evTake; (repeat' split) <;> simp

theorem execEvTake_fuses (e : Fin 8) (v : Word) (s s' : State) (ht : execEvTake e v s = .next s') :
    s'.fuses = s.fuses := by
  cases ht; simp

@[simp] theorem timerExpiry_fuses (slot : Nat) (s : State) :
    (timerExpiry slot s).fuses = s.fuses := by simp [timerExpiry]

theorem execReinTimerExpiry_fuses (slot : Fin 256) (s s' : State) (ht : execReinTimerExpiry slot s = .next s') :
    s'.fuses = s.fuses := by
  unfold execReinTimerExpiry at ht
  have ht := Host.Outcome.next.inj ht; subst ht
  first
  | ((repeat' split) <;> simp; done)
  | (dsimp only; done)
  | (dsimp only; (repeat' split) <;> simp; done)
  | (dsimp only; (repeat' split) <;> simp [*]; done)
  | ((repeat' split) <;> simp [*]; done)
  | exact whenDie_fuses _ _ (fun t => by first | (dsimp only; (repeat' split) <;> simp [*]; done) | (simp; (repeat' split) <;> simp; done))
  | (split <;> first | rfl | exact whenDie_fuses _ _ (fun t => by dsimp only; (repeat' split) <;> simp [*]))

@[simp] theorem pilTakes_fuses (p : Nat) (s : State) : (pilTakes p s).fuses = s.fuses := by simp [pilTakes]

@[simp] theorem pilDueTakes_fuses (p : Nat) (s : State) : (pilDueTakes p s).fuses = s.fuses := by simp [pilDueTakes]

theorem execPilotPeriodStart_fuses (s s' : State) (ht : execPilotPeriodStart s = .next s') : s'.fuses = s.fuses := by
  cases ht; simp

@[simp] theorem sessionTakes_fuses (slot p : Nat) (s : State) :
    (sessionTakes slot p s).fuses = s.fuses := by simp [sessionTakes]

@[simp] theorem ctxStart_fuses (slot p r : Nat) (s : State) : (ctxStart slot p r s).fuses = s.fuses := by
  unfold ctxStart
  dsimp only
  rw [sessionTakes_fuses, syncCtx_fuses, State.setNum_fuses, State.updCtx_fuses, ctxBytes_fuses]

@[simp] theorem startQueued_fuses (p : Nat) (s : State) : (startQueued p s).fuses = s.fuses := by
  unfold startQueued; (repeat' split) <;> simp

@[simp] theorem ctxRestart_fuses (slot : Nat) (s : State) : (ctxRestart slot s).2.fuses = s.fuses := by
  unfold ctxRestart; dsimp only; (repeat' split) <;> simp

@[simp] theorem ctxFree_fuses (slot : Nat) (s : State) : (ctxFree slot s).2.fuses = s.fuses := by
  unfold ctxFree; dsimp only; (repeat' split) <;> simp

@[simp] theorem ctxSetRole_fuses (slot r : Nat) (s : State) : (ctxSetRole slot r s).2.fuses = s.fuses := by
  unfold ctxSetRole; dsimp only; (repeat' split) <;> simp

@[simp] theorem putCmdSt_fuses (port e : Nat) (x : Nat × Nat × Status) (s : State) :
    (putCmdSt port e x s).fuses = s.fuses := by
  unfold putCmdSt; (repeat' split) <;> simp

@[simp] theorem sesUseRead_fuses (slot : Nat) (s : State) : (sesUseRead slot s).fuses = s.fuses := by simp [sesUseRead]

theorem execSesUseRead_fuses (slot : Fin 256) (s s' : State) (ht : execSesUseRead slot s = .next s') :
    s'.fuses = s.fuses := by
  cases ht; simp

@[simp] theorem engineReset_fuses (e : Nat) (s : State) : (engineReset e s).fuses = s.fuses := by
  unfold engineReset
  dsimp only
  rw [foldl_fuses _ (fun t i => State.updCtx_fuses t i _), foldl_fuses _ (fun t i => by rw [girthOrphan_fuses, completeLevels_fuses])]

/-! ### Sessions -/

@[simp] theorem State.updVs_fuses (s : State) (slot : Nat) (f : VSess → VSess) :
    (State.updVs s slot f).fuses = s.fuses := by simp [State.updVs]

@[simp] theorem setPhase_fuses (slot v : Nat) (s : State) : (setPhase slot v s).fuses = s.fuses := by simp [setPhase]

@[simp] theorem setReason_fuses (slot v : Nat) (s : State) : (setReason slot v s).fuses = s.fuses := by simp [setReason]

@[simp] theorem setTimer_fuses (slot ht : Nat) (s : State) : (setTimer slot ht s).fuses = s.fuses := by simp [setTimer]

@[simp] theorem withSession_fuses (p : Nat) (f : Nat → State → State) (s : State) (h_f : ∀ x0 t, (f x0 t).fuses = t.fuses) :
    (withSession p f s).fuses = s.fuses := by
  unfold withSession; (repeat' split) <;> simp [*]

@[simp] theorem publish_fuses (p v : Nat) (i : Int) (en : Bool) (s : State) :
    (publish p v i en s).fuses = s.fuses := by simp [publish]

@[simp] theorem setpointOff_fuses (p : Nat) (s : State) : (setpointOff p s).fuses = s.fuses := by simp [setpointOff]

@[simp] theorem fwSend_fuses (cls : Nat) (tag : Word) (b : List Byte) (s : State) :
    (fwSend cls tag b s).fuses = s.fuses := by simp [fwSend]

@[simp] theorem sessionNotice_fuses (kind slot reason : Nat) (s : State) :
    (sessionNotice kind slot reason s).fuses = s.fuses := by simp [sessionNotice]

@[simp] theorem closeRecord_fuses (slot : Nat) (s : State) :
    (closeRecord slot s).fuses = s.fuses := by simp [closeRecord]

@[simp] theorem toClosing_fuses (slot reason : Nat) (tell : Bool) (s : State) :
    (toClosing slot reason tell s).fuses = s.fuses := by simp [toClosing]

@[simp] theorem dutyOff_fuses (slot : Nat) (s : State) : (dutyOff slot s).fuses = s.fuses := by simp [dutyOff]

@[simp] theorem toStopping_fuses (slot reason : Nat) (s : State) :
    (toStopping slot reason s).fuses = s.fuses := by simp [toStopping]

@[simp] theorem endSlot_fuses (slot reason : Nat) (s : State) :
    (endSlot slot reason s).fuses = s.fuses := by simp [endSlot]

@[simp] theorem endSession_fuses (p reason : Nat) (s : State) :
    (endSession p reason s).fuses = s.fuses := by simp [endSession]

@[simp] theorem State.updVp_fuses (s : State) (k : Nat) (f : VPort → VPort) :
    (State.updVp s k f).fuses = s.fuses := by simp [State.updVp]

@[simp] theorem seqAuthorised_fuses (k : Nat) (s : State) :
    (seqAuthorised k s).fuses = s.fuses := by simp [seqAuthorised]

@[simp] theorem freeCmd_fuses (port slot : Nat) (s : State) :
    (freeCmd port slot s).2.fuses = s.fuses := by simp [freeCmd]

@[simp] theorem sesCmd_fuses (cmd port e : Nat) (v : Word) (s : State) : (sesCmd cmd port e v s).fuses = s.fuses := by
  unfold sesCmd
  dsimp only
  split
  · simp
  · split
    · simp
    · rename_i g st s1 h
      have : s1.fuses = s.fuses := by
        revert h; split
        · split <;> intro h <;> simp at h <;> obtain ⟨_, _, rfl⟩ := h <;> simp
        · intro h; simp at h; obtain ⟨_, h⟩ := h; have := ctxRestart_fuses (32 * e + fld v 0 5) s; rw [h] at this; exact this
        · intro h; simp at h; obtain ⟨_, h⟩ := h; have := freeCmd_fuses port (32 * e + fld v 0 5) s; rw [h] at this; exact this
        · intro h; simp at h; obtain ⟨_, h⟩ := h; have := ctxSetRole_fuses (32 * e + fld v 0 5) (fld v 6 2) s; rw [h] at this; exact this
        · intro h; simp at h
      simp [this]

theorem execSesStart_fuses (port : Fin 24) (e : Fin 8) (v : Word) (s s' : State) (ht : execSesStart port e v s = .next s') :
    s'.fuses = s.fuses := by
  cases ht; simp

theorem execSesRestart_fuses (port : Fin 24) (e : Fin 8) (v : Word) (s s' : State) (ht : execSesRestart port e v s = .next s') :
    s'.fuses = s.fuses := by
  cases ht; simp

theorem execSesFree_fuses (port : Fin 24) (e : Fin 8) (v : Word) (s s' : State) (ht : execSesFree port e v s = .next s') :
    s'.fuses = s.fuses := by
  cases ht; simp

theorem execSesSetrole_fuses (port : Fin 24) (e : Fin 8) (v : Word) (s s' : State) (ht : execSesSetrole port e v s = .next s') :
    s'.fuses = s.fuses := by
  cases ht; simp

@[simp] theorem openRecord_fuses (slot : Nat) (s : State) : (openRecord slot s).fuses = s.fuses := by simp [openRecord]

@[simp] theorem authorise_fuses (slot : Nat) (s : State) : (authorise slot s).fuses = s.fuses := by simp [authorise]

@[simp] theorem dutyOn_fuses (slot : Nat) (s : State) : (dutyOn slot s).fuses = s.fuses := by
  unfold dutyOn; (repeat' split) <;> simp

@[simp] theorem openReply_fuses (slot : Nat) (ok : Bool) (serial : Nat) (s : State) :
    (openReply slot ok serial s).fuses = s.fuses := by simp [openReply]

@[simp] theorem recordSigned_fuses (slot : Nat) (s : State) :
    (recordSigned slot s).fuses = s.fuses := by simp [recordSigned]

@[simp] theorem authGranted_fuses (slot : Nat) (s : State) :
    (authGranted slot s).fuses = s.fuses := by simp [authGranted]

@[simp] theorem tokenAuth_fuses (p tid : Nat) (s : State) : (tokenAuth p tid s).fuses = s.fuses := by
  unfold tokenAuth; (repeat' split) <;> simp

@[simp] theorem cardAuth_fuses (uid : List Byte) (s : State) : (cardAuth uid s).fuses = s.fuses := by
  unfold cardAuth; (repeat' split) <;> simp

@[simp] theorem termSelect_fuses (p : Option Nat) (s : State) : (termSelect p s).fuses = s.fuses := by simp [termSelect]

@[simp] theorem termStop_fuses (s : State) : (termStop s).fuses = s.fuses := by
  unfold termStop; (repeat' split) <;> simp

@[simp] theorem recordReply_fuses (m : LinkMsg) (s : State) : (recordReply m s).fuses = s.fuses := by
  unfold recordReply; (repeat' split) <;> simp

@[simp] theorem dieNotice_fuses (m : LinkMsg) (s : State) : (dieNotice m s).fuses = s.fuses := by
  unfold dieNotice; dsimp only; (repeat' split) <;> simp

@[simp] theorem cantleTakes_fuses (m : LinkMsg) (s : State) : (cantleTakes m s).fuses = s.fuses := by simp [cantleTakes]

@[simp] theorem sessionsRelinked_fuses (s : State) : (sessionsRelinked s).fuses = s.fuses := by simp [sessionsRelinked]

@[simp] theorem sessionsUnlinked_fuses (s : State) : (sessionsUnlinked s).fuses = s.fuses := by simp [sessionsUnlinked]

/-! ### Readers -/

@[simp] theorem State.updRd_fuses (s : State) (n : Nat) (f : Reader → Reader) :
    (State.updRd s n f).fuses = s.fuses := by simp [State.updRd]

@[simp] theorem laneLevel_fuses (n : Nat) (b : Bool) (s : State) :
    (laneLevel n b s).fuses = s.fuses := by simp [laneLevel]

@[simp] theorem rdEvt_fuses (n i : Nat) (s : State) : (rdEvt n i s).fuses = s.fuses := by simp [rdEvt]

@[simp] theorem xchEnd_fuses (n : Nat) (st : Status) (s : State) : (xchEnd n st s).fuses = s.fuses := by simp [xchEnd]

@[simp] theorem fieldOff_fuses (n : Nat) (s : State) : (fieldOff n s).fuses = s.fuses := by simp [fieldOff]

@[simp] theorem fieldOn_fuses (n : Nat) (s : State) : (fieldOn n s).fuses = s.fuses := by simp [fieldOn]

@[simp] theorem readerPing_fuses (n : Nat) (amp phase : Int) (s : State) :
    (readerPing n amp phase s).fuses = s.fuses := by
  unfold readerPing; dsimp only; (repeat' split) <;> simp

theorem execReaderPing_fuses (n : Fin 16) (amp phase : Int) (s s' : State) (ht : execReaderPing n amp phase s = .next s') :
    s'.fuses = s.fuses := by
  cases ht; simp

@[simp] theorem pollCycle_fuses (n : Nat) (cards : List CardId) (s : State) :
    (pollCycle n cards s).fuses = s.fuses := by
  unfold pollCycle; dsimp only; (repeat' split) <;> simp

theorem execReaderPollCycle_fuses (n : Fin 16) (cards : List CardId) (s s' : State) (ht : execReaderPollCycle n cards s = .next s') :
    s'.fuses = s.fuses := by
  cases ht; simp

theorem execReaderMultiRepoll_fuses (n : Fin 16) (cards : List CardId) (s s' : State) (ht : execReaderMultiRepoll n cards s = .next s') :
    s'.fuses = s.fuses := by
  cases ht; simp

theorem execReaderFieldIdle_fuses (n : Fin 16) (s s' : State) (ht : execReaderFieldIdle n s = .next s') :
    s'.fuses = s.fuses := by
  cases ht; simp

@[simp] theorem readerExchange_fuses (n : Nat) (s : State) :
    (readerExchange n s).fuses = s.fuses := by simp [readerExchange]

theorem execReaderExchange_fuses (n : Fin 16) (s s' : State) (ht : execReaderExchange n s = .next s') :
    s'.fuses = s.fuses := by
  cases ht; simp

@[simp] theorem readerAbort_fuses (n : Nat) (s : State) : (readerAbort n s).fuses = s.fuses := by simp [readerAbort]

theorem execReaderAbort_fuses (n : Fin 16) (s s' : State) (ht : execReaderAbort n s = .next s') :
    s'.fuses = s.fuses := by
  cases ht; simp

@[simp] theorem readerPoll_fuses (n : Nat) (s : State) : (readerPoll n s).fuses = s.fuses := by simp [readerPoll]

theorem execReaderPoll_fuses (n : Fin 16) (s s' : State) (ht : execReaderPoll n s = .next s') : s'.fuses = s.fuses := by
  cases ht; simp

theorem execReaderFieldOff_fuses (n : Fin 16) (s s' : State) (ht : execReaderFieldOff n s = .next s') :
    s'.fuses = s.fuses := by
  cases ht; simp

@[simp] theorem xchBad_fuses (n : Nat) (x : Xchg) (s : State) : (xchBad n x s).fuses = s.fuses := by simp [xchBad]

@[simp] theorem xchDone_fuses (n : Nat) (data : List Byte) (s : State) :
    (xchDone n data s).fuses = s.fuses := by simp [xchDone]

@[simp] theorem cardBlock_fuses (n : Nat) (b : CardBlock) (s : State) : (cardBlock n b s).fuses = s.fuses := by
  unfold cardBlock; (repeat' split) <;> simp

theorem execCardBlockReceive_fuses (n : Fin 16) (b : CardBlock) (s s' : State) (ht : execCardBlockReceive n b s = .next s') :
    s'.fuses = s.fuses := by
  cases ht; simp

theorem execCardFwtExpiry_fuses (n : Fin 16) (s s' : State) (ht : execCardFwtExpiry n s = .next s') :
    s'.fuses = s.fuses := by
  cases ht; simp

theorem execReaderExchangeTimeout_fuses (n : Fin 16) (s s' : State) (ht : execReaderExchangeTimeout n s = .next s') :
    s'.fuses = s.fuses := by
  cases ht; simp

@[simp] theorem State.updTag_fuses (s : State) (k : Nat) (f : TagSlot → TagSlot) :
    (State.updTag s k f).fuses = s.fuses := by simp [State.updTag]

@[simp] theorem tagSwap_fuses (k : Nat) (s : State) : (tagSwap k s).fuses = s.fuses := by simp [tagSwap]

@[simp] theorem tagClose_fuses (n : Nat) (s : State) : (tagClose n s).fuses = s.fuses := by
  unfold tagClose; (repeat' split) <;> simp

@[simp] theorem readerMode_fuses (n m : Nat) (s : State) : (readerMode n m s).fuses = s.fuses := by simp [readerMode]

@[simp] theorem readerModeWrite_fuses (n : Nat) (v : Word) (s : State) :
    (readerModeWrite n v s).fuses = s.fuses := by simp [readerModeWrite]

theorem execReaderModeWrite_fuses (n : Fin 16) (v : Word) (s s' : State) (ht : execReaderModeWrite n v s = .next s') :
    s'.fuses = s.fuses := by
  cases ht; simp

@[simp] theorem rdCtlWrite_fuses (n : Nat) (v : Word) (s : State) :
    (rdCtlWrite n v s).fuses = s.fuses := by simp [rdCtlWrite]

@[simp] theorem rdCfgWrite_fuses (n : Nat) (v : Word) (s : State) :
    (rdCfgWrite n v s).fuses = s.fuses := by simp [rdCfgWrite]

@[simp] theorem rdEvtWrite_fuses (n : Nat) (v : Word) (s : State) :
    (rdEvtWrite n v s).fuses = s.fuses := by simp [rdEvtWrite]

@[simp] theorem tagAnswer_fuses (n : Nat) (a : Option (List Byte)) (s : State) :
    (tagAnswer n a s).fuses = s.fuses := by simp [tagAnswer]

@[simp] theorem tagEntry_fuses (n : Nat) (s : State) : (tagEntry n s).fuses = s.fuses := by simp [tagEntry]

theorem execTagFieldEntry_fuses (n : Fin 16) (s s' : State) (ht : execTagFieldEntry n s = .next s') :
    s'.fuses = s.fuses := by
  cases ht; simp

@[simp] theorem tagActA_fuses (n : Nat) (c : TagAct) (s : State) : (tagActA n c s).fuses = s.fuses := by
  unfold tagActA; (repeat' split) <;> simp

@[simp] theorem tagActB_fuses (n : Nat) (c : TagAct) (s : State) : (tagActB n c s).fuses = s.fuses := by
  unfold tagActB; (repeat' split) <;> simp

@[simp] theorem tagAct_fuses (n : Nat) (c : TagAct) (s : State) : (tagAct n c s).fuses = s.fuses := by
  unfold tagAct; (repeat' split) <;> simp

theorem execTagActivation_fuses (n : Fin 16) (c : TagAct) (s s' : State) (ht : execTagActivation n c s = .next s') :
    s'.fuses = s.fuses := by
  cases ht; simp

@[simp] theorem freeSw_fuses (n : Nat) (s : State) : (freeSw n s).fuses = s.fuses := by simp [freeSw]

@[simp] theorem tagSelect_fuses (n : Nat) (f : TagFile) (s : State) : (tagSelect n f s).fuses = s.fuses := by
  unfold tagSelect; (repeat' split) <;> simp

theorem execTagSelect_fuses (n : Fin 16) (f : TagFile) (s s' : State) (ht : execTagSelect n f s = .next s') :
    s'.fuses = s.fuses := by
  cases ht; simp

@[simp] theorem tagRead_fuses (n off len : Nat) (s : State) : (tagRead n off len s).fuses = s.fuses := by
  unfold tagRead; (repeat' split) <;> simp

theorem execTagReadBinary_fuses (n : Fin 16) (off len : Nat) (s s' : State) (ht : execTagReadBinary n off len s = .next s') :
    s'.fuses = s.fuses := by
  cases ht; simp

@[simp] theorem tagOther_fuses (n : Nat) (a : List Byte) (s : State) :
    (tagOther n a s).fuses = s.fuses := by simp [tagOther]

theorem execTagUpdateBinary_fuses (n : Fin 16) (s s' : State) (ht : execTagUpdateBinary n s = .next s') :
    s'.fuses = s.fuses := by
  cases ht; simp

@[simp] theorem tagOtherCommand_fuses (n : Nat) (deselect : Bool) (s : State) :
    (tagOtherCommand n deselect s).fuses = s.fuses := by simp [tagOtherCommand]

theorem execTagOtherCommand_fuses (n : Fin 16) (deselect : Bool) (s s' : State) (ht : execTagOtherCommand n deselect s = .next s') :
    s'.fuses = s.fuses := by
  cases ht; simp

theorem execTagFieldLoss_fuses (n : Fin 16) (s s' : State) (ht : execTagFieldLoss n s = .next s') :
    s'.fuses = s.fuses := by
  cases ht; simp

theorem execTagTransactionIdle_fuses (n : Fin 16) (s s' : State) (ht : execTagTransactionIdle n s = .next s') :
    s'.fuses = s.fuses := by
  cases ht; simp

@[simp] theorem tagCtlWrite_fuses (k : Nat) (v : Word) (s : State) :
    (tagCtlWrite k v s).fuses = s.fuses := by simp [tagCtlWrite]

theorem execTagCommit_fuses (k : Fin 4) (v : Word) (s s' : State) (ht : execTagCommit k v s = .next s') :
    s'.fuses = s.fuses := by
  cases ht; simp

@[simp] theorem tagShadowWrite_fuses (k i : Nat) (b : Byte) (s : State) :
    (tagShadowWrite k i b s).fuses = s.fuses := by simp [tagShadowWrite]

@[simp] theorem tagForced_fuses (k : Nat) (s : State) : (tagForced k s).fuses = s.fuses := by simp [tagForced]

theorem execTagForcedSwap_fuses (k : Fin 4) (s s' : State) (ht : execTagForcedSwap k s = .next s') :
    s'.fuses = s.fuses := by
  cases ht; simp

/-! ### Girth -/

@[simp] theorem girthReqWrite_fuses (port : Nat) (v : Word) (s : State) :
    (girthReqWrite port v s).fuses = s.fuses := by simp [girthReqWrite]

theorem execGirthRequest_fuses (port : Fin 24) (v : Word) (s s' : State) (ht : execGirthRequest port v s = .next s') :
    s'.fuses = s.fuses := by
  cases ht; simp

@[simp] theorem lineOn_fuses (m : Nat) (s : State) : (lineOn m s).fuses = s.fuses := by simp [lineOn]

@[simp] theorem girthOnCommand_fuses (kind unit : Nat) (s : State) : (girthOnCommand kind unit s).fuses = s.fuses := by
  unfold girthOnCommand; (repeat' split) <;> simp

@[simp] theorem girthSignal_fuses (r : GirthReq) (s : State) : (girthSignal r s).fuses = s.fuses := by
  unfold girthSignal; (repeat' split) <;> simp

@[simp] theorem girthMark_fuses (r : GirthReq) (st : Nat) (s : State) :
    (girthMark r st s).fuses = s.fuses := by simp [girthMark]

@[simp] theorem girthStart_fuses (r : GirthReq) (s : State) : (girthStart r s).fuses = s.fuses := by simp [girthStart]

@[simp] theorem girthGrantReq_fuses (r : GirthReq) (s : State) :
    (girthGrantReq r s).fuses = s.fuses := by simp [girthGrantReq]

@[simp] theorem girthGrant_fuses (c : Nat) (s : State) : (girthGrant c s).fuses = s.fuses := by
  unfold girthGrant; (repeat' split) <;> simp

theorem execGirthGrant_fuses (c : Fin 3) (s s' : State) (ht : execGirthGrant c s = .next s') : s'.fuses = s.fuses := by
  cases ht; simp

@[simp] theorem girthRelWrite_fuses (port : Nat) (v : Word) (s : State) :
    (girthRelWrite port v s).fuses = s.fuses := by simp [girthRelWrite]

theorem execGirthRelease_fuses (port : Fin 24) (v : Word) (s s' : State) (ht : execGirthRelease port v s = .next s') :
    s'.fuses = s.fuses := by
  unfold execGirthRelease at ht
  have ht := Host.Outcome.next.inj ht; subst ht
  first
  | ((repeat' split) <;> simp; done)
  | (dsimp only; done)
  | (dsimp only; (repeat' split) <;> simp; done)
  | (dsimp only; (repeat' split) <;> simp [*]; done)
  | ((repeat' split) <;> simp [*]; done)
  | exact whenDie_fuses _ _ (fun t => by first | (dsimp only; (repeat' split) <;> simp [*]; done) | (simp; (repeat' split) <;> simp; done))
  | (split <;> first | rfl | exact whenDie_fuses _ _ (fun t => by dsimp only; (repeat' split) <;> simp [*]))

theorem execGirthHoldExpiry_fuses (ticket : BitVec 16) (s s' : State) (ht : execGirthHoldExpiry ticket s = .next s') :
    s'.fuses = s.fuses := by
  cases ht; simp

theorem execUnitOffReport_fuses (kind : Fin 16) (unit : Nat) (s s' : State) (ht : execUnitOffReport kind unit s = .next s') :
    s'.fuses = s.fuses := by
  cases ht; simp

@[simp] theorem girthDerate_fuses (temp : Int) (s : State) :
    (girthDerate temp s).fuses = s.fuses := by simp [girthDerate]

theorem execGirthDerateSample_fuses (temp : Int) (s s' : State) (ht : execGirthDerateSample temp s = .next s') :
    s'.fuses = s.fuses := by
  cases ht; simp

@[simp] theorem girthShareWrite_fuses (c : Nat) (v : Word) (s : State) :
    (girthShareWrite c v s).fuses = s.fuses := by simp [girthShareWrite]

theorem execGirthShareWrite_fuses (c : Fin 3) (v : Word) (s s' : State) (ht : execGirthShareWrite c v s = .next s') :
    s'.fuses = s.fuses := by
  cases ht; simp

@[simp] theorem girthCtrlWrite_fuses (v : Word) (s : State) :
    (girthCtrlWrite v s).fuses = s.fuses := by simp [girthCtrlWrite]

@[simp] theorem girthCostWrite_fuses (k i : Nat) (v : Word) (s : State) : (girthCostWrite k i v s).fuses = s.fuses := by
  unfold girthCostWrite; (repeat' split) <;> simp

@[simp] theorem girthRebuild_fuses (s : State) : (girthRebuild s).fuses = s.fuses := by simp [girthRebuild]

theorem execGirthRebuild_fuses (s s' : State) (ht : execGirthRebuild s = .next s') : s'.fuses = s.fuses := by
  cases ht; simp

@[simp] theorem girthBypassRead_fuses (s : State) : (girthBypassRead s).fuses = s.fuses := by simp [girthBypassRead]

theorem execGrtBypassRead_fuses (s s' : State) (ht : execGrtBypassRead s = .next s') : s'.fuses = s.fuses := by
  cases ht; simp

@[simp] theorem girthBypass_fuses (s : State) : (girthBypass s).fuses = s.fuses := by simp [girthBypass]

/-! ### CanOps -/

@[simp] theorem State.updPort_fuses (s : State) (x : Nat) (f : FieldPort → FieldPort) :
    (State.updPort s x f).fuses = s.fuses := by simp [State.updPort]

@[simp] theorem canSend_fuses (x : Nat) (f : CanFrame) (s : State) :
    (canSend x f s).fuses = s.fuses := by simp [canSend]

@[simp] theorem canFlush_fuses (x : Nat) (s : State) : (canFlush x s).fuses = s.fuses := by simp [canFlush]

@[simp] theorem emcy_fuses (x : Nat) (code : Nat) (b3 : Byte) (s : State) :
    (emcy x code b3 s).fuses = s.fuses := by simp [emcy]

@[simp] theorem canResume_fuses (x : Nat) (s : State) : (canResume x s).fuses = s.fuses := by simp [canResume]

@[simp] theorem canErrors_fuses (x : Nat) (s : State) : (canErrors x s).fuses = s.fuses := by simp [canErrors]

@[simp] theorem canConfine_fuses (x : Nat) (s : State) : (canConfine x s).fuses = s.fuses := by simp [canConfine]

@[simp] theorem emcyBoth_fuses (code : Nat) (b3 : Byte) (s : State) :
    (emcyBoth code b3 s).fuses = s.fuses := by simp [emcyBoth]

/-! ### Links -/

@[simp] theorem linkBeat_fuses (d : Side) (s : State) : (linkBeat d s).fuses = s.fuses := by simp [linkBeat]

@[simp] theorem slQueue_fuses (l : List LinkMsg) (s : State) : (slQueue l s).fuses = s.fuses := by simp [slQueue]

@[simp] theorem linkFail_fuses (cause : Nat) (s : State) : (linkFail cause s).fuses = s.fuses := by simp [linkFail]

@[simp] theorem macFail_fuses (d : Side) (s : State) : (macFail d s).fuses = s.fuses := by simp [macFail]

@[simp] theorem linkTake_fuses (d : Side) (m : LinkMsg) (s : State) : (linkTake d m s).fuses = s.fuses := by
  unfold linkTake; (repeat' split) <;> simp

@[simp] theorem linkReceive_fuses (d : Side) (m : LinkMsg) (macOk : Bool) (s : State) :
    (linkReceive d m macOk s).fuses = s.fuses := by simp [linkReceive]

theorem execSealedLinkMessageReceive_fuses (side : Side) (m : LinkMsg) (macOk : Bool) (s s' : State) (ht : execSealedLinkMessageReceive side m macOk s = .next s') :
    s'.fuses = s.fuses := by
  cases ht; simp

@[simp] theorem linkAck_fuses (d : Side) (acked credit : Nat) (macOk : Bool) (s : State) :
    (linkAck d acked credit macOk s).fuses = s.fuses := by simp [linkAck]

theorem execLinkAckReceive_fuses (side : Side) (acked credit : Nat) (macOk : Bool) (s s' : State) (ht : execLinkAckReceive side acked credit macOk s = .next s') :
    s'.fuses = s.fuses := by
  cases ht; simp

@[simp] theorem linkHeart_fuses (side : Side) (s : State) : (linkHeart side s).fuses = s.fuses := by simp [linkHeart]

theorem execSealedLinkHeartbeat_fuses (side : Side) (s s' : State) (ht : execSealedLinkHeartbeat side s = .next s') :
    s'.fuses = s.fuses := by
  cases ht; simp

@[simp] theorem linkResend_fuses (d : Side) (s : State) : (linkResend d s).fuses = s.fuses := by
  unfold linkResend; (repeat' split) <;> simp

theorem execSealedLinkResendTimeout_fuses (side : Side) (s s' : State) (ht : execSealedLinkResendTimeout side s = .next s') :
    s'.fuses = s.fuses := by
  cases ht; simp

theorem execSealedLinkSilenceTimeout_fuses (side : Side) (s s' : State) (ht : execSealedLinkSilenceTimeout side s = .next s') :
    s'.fuses = s.fuses := by
  cases ht; simp

@[simp] theorem linkAgree_fuses (s : State) : (linkAgree s).fuses = s.fuses := by simp [linkAgree]

@[simp] theorem linkRequest_fuses (authentic : Bool) (s : State) :
    (linkRequest authentic s).fuses = s.fuses := by simp [linkRequest]

theorem execLinkKeyAgreement_fuses (authentic : Bool) (s s' : State) (ht : execLinkKeyAgreement authentic s = .next s') :
    s'.fuses = s.fuses := by
  cases ht; simp

@[simp] theorem State.updSl_fuses (s : State) (port : Nat) (f : SlPort → SlPort) :
    (State.updSl s port f).fuses = s.fuses := by simp [State.updSl]

@[simp] theorem slSend_fuses (port : Nat) (v : Word) (s : State) : (slSend port v s).fuses = s.fuses := by simp [slSend]

theorem execSealedLinkSend_fuses (port : Fin 24) (v : Word) (s s' : State) (ht : execSealedLinkSend port v s = .next s') :
    s'.fuses = s.fuses := by
  cases ht; simp

@[simp] theorem slPop_fuses (port : Nat) (s : State) : (slPop port s).fuses = s.fuses := by
  unfold slPop; (repeat' split) <;> simp

theorem execSealedLinkPop_fuses (port : Fin 24) (s s' : State) (ht : execSealedLinkPop port s = .next s') :
    s'.fuses = s.fuses := by
  cases ht; simp

@[simp] theorem heartbeat_fuses (crcOk : Bool) (s : State) : (heartbeat crcOk s).fuses = s.fuses := by simp [heartbeat]

theorem execBridleHeartbeat_fuses (crcOk : Bool) (s s' : State) (ht : execBridleHeartbeat crcOk s = .next s') :
    s'.fuses = s.fuses := by
  cases ht; simp

@[simp] theorem safeIfNot_fuses (s : State) : (safeIfNot s).fuses = s.fuses := by simp [safeIfNot]

theorem execSafetyLaneHeartbeatLoss_fuses (s s' : State) (ht : execSafetyLaneHeartbeatLoss s = .next s') :
    s'.fuses = s.fuses := by
  cases ht; simp

@[simp] theorem safeReportTaken_fuses (s : State) : (safeReportTaken s).fuses = s.fuses := by simp [safeReportTaken]

theorem execSafeStateReport_fuses (s s' : State) (ht : execSafeStateReport s = .next s') : s'.fuses = s.fuses := by
  cases ht; simp

@[simp] theorem safeRelease_fuses (s : State) : (safeRelease s).fuses = s.fuses := by simp [safeRelease]

theorem execSafeStateRelease_fuses (s s' : State) (ht : execSafeStateRelease s = .next s') : s'.fuses = s.fuses := by
  cases ht; simp

@[simp] theorem stoLane_fuses (n : Nat) (b on : Bool) (s : State) :
    (stoLane n b on s).fuses = s.fuses := by simp [stoLane]

@[simp] theorem safetyCommand_fuses (c : SafeCmd) (s : State) : (safetyCommand c s).fuses = s.fuses := by
  unfold safetyCommand; (repeat' split) <;> simp

theorem execSafetyLaneCommand_fuses (crcOk : Bool) (c : SafeCmd) (s s' : State) (ht : execSafetyLaneCommand crcOk c s = .next s') :
    s'.fuses = s.fuses := by
  cases ht; simp

@[simp] theorem laneFault_fuses (s : State) : (laneFault s).fuses = s.fuses := by simp [laneFault]

@[simp] theorem laneCommand_fuses (c : LaneCmd) (s : State) : (laneCommand c s).fuses = s.fuses := by
  unfold laneCommand; (repeat' split) <;> simp

@[simp] theorem laneArrives_fuses (crcOk : Bool) (c : LaneCmd) (s : State) :
    (laneArrives crcOk c s).fuses = s.fuses := by simp [laneArrives]

theorem execAppLaneCommand_fuses (crcOk : Bool) (c : LaneCmd) (s s' : State) (ht : execAppLaneCommand crcOk c s = .next s') :
    s'.fuses = s.fuses := by
  cases ht; simp

@[simp] theorem laneEvent_fuses (crcOk : Bool) (src : Nat) (s : State) :
    (laneEvent crcOk src s).fuses = s.fuses := by simp [laneEvent]

theorem execAppLaneEventFrame_fuses (crcOk : Bool) (src : Fin 512) (s s' : State) (ht : execAppLaneEventFrame crcOk src s = .next s') :
    s'.fuses = s.fuses := by
  cases ht; simp

@[simp] theorem powerClockFail_fuses (s : State) : (powerClockFail s).fuses = s.fuses := by simp [powerClockFail]

theorem execPowerDieClockFail_fuses (s s' : State) (ht : execPowerDieClockFail s = .next s') : s'.fuses = s.fuses := by
  cases ht; simp

theorem execPowerDieClockReturn_fuses (s s' : State) (ht : execPowerDieClockReturn s = .next s') :
    s'.fuses = s.fuses := by
  cases ht; simp

@[simp] theorem powerDieReset_fuses (s : State) : (powerDieReset s).fuses = s.fuses := by simp [powerDieReset]

theorem execPowerDieReset_fuses (s s' : State) (ht : execPowerDieReset s = .next s') : s'.fuses = s.fuses := by
  unfold execPowerDieReset at ht
  have ht := Host.Outcome.next.inj ht; subst ht
  first
  | ((repeat' split) <;> simp; done)
  | (dsimp only; done)
  | (dsimp only; (repeat' split) <;> simp; done)
  | (dsimp only; (repeat' split) <;> simp [*]; done)
  | ((repeat' split) <;> simp [*]; done)
  | exact whenDie_fuses _ _ (fun t => by first | (dsimp only; (repeat' split) <;> simp [*]; done) | (simp; (repeat' split) <;> simp; done))
  | (split <;> first | rfl | exact whenDie_fuses _ _ (fun t => by dsimp only; (repeat' split) <;> simp [*]))

/-! ### Plc -/

@[simp] theorem State.updPlc_fuses (s : State) (n : Nat) (f : PlcCh → PlcCh) :
    (State.updPlc s n f).fuses = s.fuses := by simp [State.updPlc]

@[simp] theorem plcTake_fuses (n : Nat) (s : State) : (plcTake n s).fuses = s.fuses := by
  unfold plcTake; dsimp only; (repeat' split) <;> simp

@[simp] theorem plcStart_fuses (n : Nat) (v : Word) (s : State) : (plcStart n v s).fuses = s.fuses := by simp [plcStart]

theorem execPlcStart_fuses (n : Fin 66) (v : Word) (s s' : State) (ht : execPlcStart n v s = .next s') :
    s'.fuses = s.fuses := by
  cases ht; simp

@[simp] theorem plcStop_fuses (n : Nat) (s : State) : (plcStop n s).fuses = s.fuses := by simp [plcStop]

theorem execPlcStop_fuses (n : Fin 66) (s s' : State) (ht : execPlcStop n s = .next s') : s'.fuses = s.fuses := by
  cases ht; simp

@[simp] theorem plcOff_fuses (n : Nat) (s : State) : (plcOff n s).fuses = s.fuses := by simp [plcOff]

theorem execPlcStoppingEnd_fuses (n : Fin 66) (s s' : State) (ht : execPlcStoppingEnd n s = .next s') :
    s'.fuses = s.fuses := by
  cases ht; simp

@[simp] theorem plcHalt_fuses (s : State) : (plcHalt s).fuses = s.fuses := by simp [plcHalt]

@[simp] theorem plcReslac_fuses (n : Nat) (s : State) : (plcReslac n s).fuses = s.fuses := by simp [plcReslac]

theorem execPlcReslac_fuses (n : Fin 66) (s s' : State) (ht : execPlcReslac n s = .next s') : s'.fuses = s.fuses := by
  cases ht; simp

@[simp] theorem beacon_fuses (n : Nat) (s : State) : (beacon n s).fuses = s.fuses := by simp [beacon]

theorem execBeacon_fuses (n : Fin 66) (s s' : State) (ht : execBeacon n s = .next s') : s'.fuses = s.fuses := by
  cases ht; simp

@[simp] theorem plcLinkLost_fuses (n : Nat) (s : State) : (plcLinkLost n s).fuses = s.fuses := by simp [plcLinkLost]

theorem execPlcLinkLost_fuses (n : Fin 66) (s s' : State) (ht : execPlcLinkLost n s = .next s') :
    s'.fuses = s.fuses := by
  cases ht; simp

theorem execNekRenewal_fuses (n : Fin 66) (s s' : State) (ht : execNekRenewal n s = .next s') : s'.fuses = s.fuses := by
  cases ht; simp

@[simp] theorem slacParm_fuses (n : Nat) (r : BitVec 64) (s : State) :
    (slacParm n r s).fuses = s.fuses := by simp [slacParm]

theorem execSlacParmReq_fuses (n : Fin 66) (runId : BitVec 64) (s s' : State) (ht : execSlacParmReq n runId s = .next s') :
    s'.fuses = s.fuses := by
  cases ht; simp

@[simp] theorem startAttenChar_fuses (n : Nat) (r : BitVec 64) (sounds : Nat) (s : State) :
    (startAttenChar n r sounds s).fuses = s.fuses := by simp [startAttenChar]

theorem execStartAttenChar_fuses (n : Fin 66) (runId : BitVec 64) (sounds : Nat) (s s' : State) (ht : execStartAttenChar n runId sounds s = .next s') :
    s'.fuses = s.fuses := by
  cases ht; simp

@[simp] theorem slacSelect_fuses (b : Nat) (c : Collection) (h : List Nat) (need : Bool) (s : State) :
    (slacSelect b c h need s).fuses = s.fuses := by simp [slacSelect]

@[simp] theorem slacDecide_fuses (c : Collection) (s : State) : (slacDecide c s).fuses = s.fuses := by
  unfold slacDecide; dsimp only; (repeat' split) <;> simp

@[simp] theorem slacBack_fuses (n : Nat) (r : BitVec 64) (s : State) :
    (slacBack n r s).fuses = s.fuses := by simp [slacBack]

@[simp] theorem slacClose_fuses (r : BitVec 64) (s : State) : (slacClose r s).fuses = s.fuses := by
  unfold slacClose; (repeat' split) <;> simp

theorem execSlacCollectionClose_fuses (runId : BitVec 64) (s s' : State) (ht : execSlacCollectionClose runId s = .next s') :
    s'.fuses = s.fuses := by
  cases ht; simp

@[simp] theorem soundAdd_fuses (n : Nat) (r : BitVec 64) (g : List Nat) (s : State) :
    (soundAdd n r g s).fuses = s.fuses := by simp [soundAdd]

@[simp] theorem slacSound_fuses (n : Nat) (r : BitVec 64) (g : List Nat) (s : State) :
    (slacSound n r g s).fuses = s.fuses := by simp [slacSound]

theorem execSlacSound_fuses (n : Fin 66) (runId : BitVec 64) (groups : List Nat) (s s' : State) (ht : execSlacSound n runId groups s = .next s') :
    s'.fuses = s.fuses := by
  cases ht; simp

@[simp] theorem slacValidate_fuses (n : Nat) (r : BitVec 64) (s : State) :
    (slacValidate n r s).fuses = s.fuses := by simp [slacValidate]

theorem execSlacValidateReq_fuses (n : Fin 66) (runId : BitVec 64) (s s' : State) (ht : execSlacValidateReq n runId s = .next s') :
    s'.fuses = s.fuses := by
  cases ht; simp

@[simp] theorem slacWindowEnd_fuses (n k : Nat) (s : State) : (slacWindowEnd n k s).fuses = s.fuses := by
  unfold slacWindowEnd; (repeat' split) <;> simp

theorem execSlacValidateWindowEnd_fuses (n : Fin 66) (toggles : Nat) (s s' : State) (ht : execSlacValidateWindowEnd n toggles s = .next s') :
    s'.fuses = s.fuses := by
  cases ht; simp

@[simp] theorem slacMatch_fuses (n : Nat) (r : BitVec 64) (mac : BitVec 48) (s : State) :
    (slacMatch n r mac s).fuses = s.fuses := by simp [slacMatch]

theorem execSlacMatchReq_fuses (n : Fin 66) (runId : BitVec 64) (mac : BitVec 48) (s s' : State) (ht : execSlacMatchReq n runId mac s = .next s') :
    s'.fuses = s.fuses := by
  cases ht; simp

@[simp] theorem slacMatchTimeout_fuses (n : Nat) (s : State) :
    (slacMatchTimeout n s).fuses = s.fuses := by simp [slacMatchTimeout]

theorem execSlacMatchTimeout_fuses (n : Fin 66) (s s' : State) (ht : execSlacMatchTimeout n s = .next s') :
    s'.fuses = s.fuses := by
  cases ht; simp

@[simp] theorem plcRing_fuses (n : Nat) (data : List Byte) (s : State) :
    (plcRing n data s).fuses = s.fuses := by simp [plcRing]

@[simp] theorem plcKind_fuses (n : Nat) (m : Mpdu) (s : State) : (plcKind n m s).fuses = s.fuses := by
  unfold plcKind; (repeat' split) <;> simp

@[simp] theorem plcReceive_fuses (n : Nat) (m : Mpdu) (s : State) :
    (plcReceive n m s).fuses = s.fuses := by simp [plcReceive]

theorem execPlcMpduReceive_fuses (n : Fin 66) (m : Mpdu) (s s' : State) (ht : execPlcMpduReceive n m s = .next s') :
    s'.fuses = s.fuses := by
  cases ht; simp

@[simp] theorem plcPost_fuses (n : Nat) (v : Word) (s : State) : (plcPost n v s).fuses = s.fuses := by simp [plcPost]

theorem execPlcTxPost_fuses (n : Fin 66) (v : Word) (s s' : State) (ht : execPlcTxPost n v s = .next s') :
    s'.fuses = s.fuses := by
  cases ht; simp

@[simp] theorem plcSend_fuses (n : Nat) (s : State) : (plcSend n s).fuses = s.fuses := by
  unfold plcSend; (repeat' split) <;> simp

@[simp] theorem plcAir_fuses (n : Nat) (s : State) : (plcAir n s).fuses = s.fuses := by
  unfold plcAir; (repeat' split) <;> simp

@[simp] theorem plcSack_fuses (n : Nat) (bad : BitVec 4) (s : State) : (plcSack n bad s).fuses = s.fuses := by
  unfold plcSack; dsimp only; (repeat' split) <;> simp

theorem execPlcSackReceived_fuses (n : Fin 66) (bad : BitVec 4) (s s' : State) (ht : execPlcSackReceived n bad s = .next s') :
    s'.fuses = s.fuses := by
  cases ht; simp

@[simp] theorem deliveryTimeout_fuses (q : Nat) (s : State) :
    (deliveryTimeout q s).fuses = s.fuses := by simp [deliveryTimeout]

@[simp] theorem plcTxTimeout_fuses (n : Nat) (s : State) : (plcTxTimeout n s).fuses = s.fuses := by
  unfold plcTxTimeout; (repeat' split) <;> simp

theorem execPlcTxTimeout_fuses (n : Fin 66) (s s' : State) (ht : execPlcTxTimeout n s = .next s') :
    s'.fuses = s.fuses := by
  cases ht; simp

@[simp] theorem plcRxPop_fuses (n : Nat) (s : State) : (plcRxPop n s).fuses = s.fuses := by
  unfold plcRxPop; (repeat' split) <;> simp

theorem execPlcRxPop_fuses (n : Fin 66) (s s' : State) (ht : execPlcRxPop n s = .next s') : s'.fuses = s.fuses := by
  cases ht; simp

@[simp] theorem plcDoneRead_fuses (n : Nat) (s : State) : (plcDoneRead n s).fuses = s.fuses := by
  unfold plcDoneRead; (repeat' split) <;> simp

theorem execPlcTxdoneRead_fuses (n : Fin 66) (s s' : State) (ht : execPlcTxdoneRead n s = .next s') :
    s'.fuses = s.fuses := by
  cases ht; simp

@[simp] theorem ntbRead_fuses (port n : Nat) (s : State) : (ntbRead port n s).fuses = s.fuses := by simp [ntbRead]

theorem execPlcNtbRead_fuses (port : Fin 24) (n : Fin 66) (s s' : State) (ht : execPlcNtbRead port n s = .next s') :
    s'.fuses = s.fuses := by
  cases ht; simp

@[simp] theorem plcCfgWrite_fuses (n : Nat) (v : Word) (s : State) :
    (plcCfgWrite n v s).fuses = s.fuses := by simp [plcCfgWrite]

@[simp] theorem plcCtrlWrite_fuses (n : Nat) (v : Word) (s : State) :
    (plcCtrlWrite n v s).fuses = s.fuses := by simp [plcCtrlWrite]

@[simp] theorem plcBaseWrite_fuses (n : Nat) (v : Word) (s : State) :
    (plcBaseWrite n v s).fuses = s.fuses := by simp [plcBaseWrite]

@[simp] theorem plcRead_fuses (port n off : Nat) (s : State) : (plcRead port n off s).fuses = s.fuses := by
  unfold plcRead; (repeat' split) <;> simp

@[simp] theorem plcWrite_fuses (n off : Nat) (v : Word) (s : State) : (plcWrite n off v s).fuses = s.fuses := by
  unfold plcWrite; (repeat' split) <;> simp

/-! ### Resets -/

@[simp] theorem powerAtReset_fuses (s : State) : (powerAtReset s).fuses = s.fuses := by simp [powerAtReset]

@[simp] theorem appReset_fuses (causeBit : Nat) (s : State) :
    (appReset causeBit s).fuses = s.fuses := by simp [appReset]

@[simp] theorem coldReset_fuses (causeBit : Nat) (s : State) :
    (coldReset causeBit s).fuses = s.fuses := by simp [coldReset]

theorem execVcoreTrip_fuses (s s' : State) (ht : execVcoreTrip s = .next s') : s'.fuses = s.fuses := by
  cases ht; simp

theorem execVioTrip_fuses (s s' : State) (ht : execVioTrip s = .next s') : s'.fuses = s.fuses := by
  cases ht; simp

theorem execResetPin_fuses (s s' : State) (ht : execResetPin s = .next s') : s'.fuses = s.fuses := by
  cases ht; simp

theorem execJtagResetRequest_fuses (s s' : State) (ht : execJtagResetRequest s = .next s') : s'.fuses = s.fuses := by
  cases ht; simp

@[simp] theorem rstCtrlWrite_fuses (v : Word) (s : State) : (rstCtrlWrite v s).fuses = s.fuses := by simp [rstCtrlWrite]

theorem execAppResetRequest_fuses (v : Word) (s s' : State) (ht : execAppResetRequest v s = .next s') :
    s'.fuses = s.fuses := by
  cases ht; simp

theorem execWatchdogExpiry_fuses (s s' : State) (ht : execWatchdogExpiry s = .next s') : s'.fuses = s.fuses := by
  cases ht; simp

theorem execWatchdogHalfPeriod_fuses (s s' : State) (ht : execWatchdogHalfPeriod s = .next s') :
    s'.fuses = s.fuses := by
  cases ht; simp

@[simp] theorem wdogWrite_fuses (v : Word) (s : State) : (wdogWrite v s).fuses = s.fuses := by simp [wdogWrite]

theorem execWatchdogKick_fuses (v : Word) (s s' : State) (ht : execWatchdogKick v s = .next s') :
    s'.fuses = s.fuses := by
  cases ht; simp

theorem execWatchdogPeriodSet_fuses (v : Word) (s s' : State) (ht : execWatchdogPeriodSet v s = .next s') :
    s'.fuses = s.fuses := by
  cases ht; simp

@[simp] theorem sscWrite_fuses (v : Word) (s : State) : (sscWrite v s).fuses = s.fuses := by simp [sscWrite]

theorem execClkSscWrite_fuses (v : Word) (s s' : State) (ht : execClkSscWrite v s = .next s') : s'.fuses = s.fuses := by
  cases ht; simp

theorem execSpreadDisableHoldExpiry_fuses (s s' : State) (ht : execSpreadDisableHoldExpiry s = .next s') :
    s'.fuses = s.fuses := by
  cases ht; simp

theorem execMainRefFail_fuses (s s' : State) (ht : execMainRefFail s = .next s') : s'.fuses = s.fuses := by
  cases ht; simp

theorem execMainRefRecovered_fuses (s s' : State) (ht : execMainRefRecovered s = .next s') : s'.fuses = s.fuses := by
  cases ht; simp

theorem execPllChUnlock_fuses (_h : Bool) (s s' : State) (ht : execPllChUnlock _h s = .next s') :
    s'.fuses = s.fuses := by
  cases ht; simp

theorem execPllPUnlock_fuses (s s' : State) (ht : execPllPUnlock s = .next s') : s'.fuses = s.fuses := by
  unfold execPllPUnlock at ht
  have ht := Host.Outcome.next.inj ht; subst ht
  first
  | ((repeat' split) <;> simp; done)
  | (dsimp only; done)
  | (dsimp only; (repeat' split) <;> simp; done)
  | (dsimp only; (repeat' split) <;> simp [*]; done)
  | ((repeat' split) <;> simp [*]; done)
  | exact whenDie_fuses _ _ (fun t => by first | (dsimp only; (repeat' split) <;> simp [*]; done) | (simp; (repeat' split) <;> simp; done))
  | (split <;> first | rfl | exact whenDie_fuses _ _ (fun t => by dsimp only; (repeat' split) <;> simp [*]))

theorem execPllEUnlock_fuses (eth0 eth1 : Bool) (s s' : State) (ht : execPllEUnlock eth0 eth1 s = .next s') :
    s'.fuses = s.fuses := by
  cases ht; simp

@[simp] theorem stitcherReset_fuses (s0 : State) : (stitcherReset s0).fuses = s0.fuses := by simp [stitcherReset]

@[simp] theorem anyEngineReset_fuses (e : Nat) (s : State) :
    (anyEngineReset e s).fuses = s.fuses := by simp [anyEngineReset]

@[simp] theorem trialWrite_fuses (v : Word) (s : State) : (trialWrite v s).fuses = s.fuses := by simp [trialWrite]

theorem execLdrTrialStart_fuses (v : Word) (s s' : State) (ht : execLdrTrialStart v s = .next s') :
    s'.fuses = s.fuses := by
  cases ht; simp

theorem execLdrTrialStop_fuses (v : Word) (s s' : State) (ht : execLdrTrialStop v s = .next s') :
    s'.fuses = s.fuses := by
  cases ht; simp

theorem execTrialExpiry_fuses (s s' : State) (ht : execTrialExpiry s = .next s') : s'.fuses = s.fuses := by
  cases ht; simp

/-! ### Mem -/

@[simp] theorem memPut_fuses (a : Nat) (b : Byte) (s : State) : (memPut a b s).fuses = s.fuses := by
  unfold memPut; (repeat' split) <;> simp

@[simp] theorem memPuts_fuses (a : Nat) (l : List Byte) (s : State) : (memPuts a l s).fuses = s.fuses := by
  induction l generalizing s a with
  | nil => rfl
  | cons b r ih => simp [memPuts, ih]

@[simp] theorem markBytes_fuses (k a n : Nat) (s : State) : (markBytes k a n s).fuses = s.fuses := by simp [markBytes]

@[simp] theorem dmaPut_fuses (port a : Nat) (l : List Byte) (s : State) :
    (dmaPut port a l s).fuses = s.fuses := by simp [dmaPut]

@[simp] theorem dmaGet_fuses (a n : Nat) (s : State) : (dmaGet a n s).2.fuses = s.fuses := by
  unfold dmaGet; (repeat' split) <;> simp

/-! ### Tack -/

@[simp] theorem putSlots_fuses (b : Bank KeySlot) (s : State) : (putSlots b s).fuses = s.fuses := by simp [putSlots]

@[simp] theorem putSlot_fuses (i : Nat) (k : KeySlot) (s : State) : (putSlot i k s).fuses = s.fuses := by simp [putSlot]

@[simp] theorem tackReply_fuses (cmd slot : Nat) (st : Status) (s : State) :
    (tackReply cmd slot st s).fuses = s.fuses := by simp [tackReply]

@[simp] theorem tackServe_fuses (cmd slot : Nat) (kinds : List Nat) (f : State → Status × State) (s : State) (h_f : ∀  t, (f  t).2.fuses = t.fuses) :
    (tackServe cmd slot kinds f s).fuses = s.fuses := by
  unfold tackServe; dsimp only; (repeat' split) <;> simp [*]

@[simp] theorem tackGenerate_fuses (i : Nat) (attr : Word) (s : State) : (tackGenerate i attr s).2.fuses = s.fuses := by
  unfold tackGenerate; dsimp only; (repeat' split) <;> simp

@[simp] theorem tackImport_fuses (i : Nat) (attr : Word) (data : Option (List Byte)) (r : Role) (unwrapOk : Bool) (s : State) :
    (tackImport i attr data r unwrapOk s).2.fuses = s.fuses := by
  unfold tackImport
  dsimp only
  refine ite2_fuses _ _ _ _ (fun _ => rfl) (fun _ => ?_)
  refine ite2_fuses _ _ _ _ (fun _ => rfl) (fun _ => ?_)
  refine ite2_fuses _ _ _ _ (fun _ => rfl) (fun _ => ?_)
  refine ite2_fuses _ _ _ _ (fun _ => rfl) (fun _ => ?_)
  cases data with
  | none => rfl
  | some d =>
    refine ite2_fuses _ _ _ _ (fun _ => ?_) (fun _ => ?_)
    · refine ite2_fuses _ _ _ _ (fun _ => rfl) (fun _ => ?_)
      refine ite2_fuses _ _ _ _ (fun _ => rfl) (fun _ => ?_)
      refine ite2_fuses _ _ _ _ (fun _ => rfl) (fun _ => ?_)
      refine ite2_fuses _ _ _ _ (fun _ => rfl) (fun _ => ?_)
      refine ite2_fuses _ _ _ _ (fun _ => rfl) (fun _ => ?_)
      refine ite2_fuses _ _ _ _ (fun _ => rfl) (fun _ => ?_)
      exact putSlot_fuses _ _ _
    · refine ite2_fuses _ _ _ _ (fun _ => rfl) (fun _ => ?_)
      refine ite2_fuses _ _ _ _ (fun _ => rfl) (fun _ => ?_)
      exact putSlot_fuses _ _ _

@[simp] theorem tackDerive_fuses (i p : Nat) (label : Option (List Byte)) (attr : Word) (s : State) :
    (tackDerive i p label attr s).2.fuses = s.fuses := by
  unfold tackDerive; dsimp only; (repeat' split) <;> simp

@[simp] theorem tackDelete_fuses (i : Nat) (r : Role) (s : State) : (tackDelete i r s).2.fuses = s.fuses := by
  unfold tackDelete; dsimp only; (repeat' split) <;> simp

@[simp] theorem tackPut_fuses (a : Nat) (l : List Byte) (s : State) : (tackPut a l s).2.fuses = s.fuses := by
  unfold tackPut; (repeat' split) <;> simp

@[simp] theorem tackPublic_fuses (i a : Nat) (s : State) : (tackPublic i a s).2.fuses = s.fuses := by
  unfold tackPublic; dsimp only; (repeat' split) <;> simp

@[simp] theorem tackSign_fuses (i a : Nat) (s : State) : (tackSign i a s).2.fuses = s.fuses := by
  unfold tackSign; (repeat' split) <;> simp

@[simp] theorem tackVerify_fuses (i a : Nat) (good : Bool) (s : State) : (tackVerify i a good s).2.fuses = s.fuses := by
  unfold tackVerify; (repeat' split) <;> simp

@[simp] theorem tackAgree_fuses (i a : Nat) (s : State) : (tackAgree i a s).2.fuses = s.fuses := by
  unfold tackAgree; (repeat' split) <;> simp

theorem execGenerate_fuses (slot : BitVec 8) (attr : Word) (s s' : State) (ht : execGenerate slot attr s = .next s') :
    s'.fuses = s.fuses := by
  cases ht; simp

theorem execImportKey_fuses (slot : BitVec 8) (attr : Word) (addr len : Nat) (role : Role) (unwrapOk : Bool) (s s' : State) (ht : execImportKey slot attr addr len role unwrapOk s = .next s') :
    s'.fuses = s.fuses := by
  cases ht; simp

theorem execDerive_fuses (slot parent : BitVec 8) (labelAddr labelLen : Nat) (attr : Word) (s s' : State) (ht : execDerive slot parent labelAddr labelLen attr s = .next s') :
    s'.fuses = s.fuses := by
  cases ht; simp

theorem execDelete_fuses (slot : BitVec 8) (role : Role) (s s' : State) (ht : execDelete slot role s = .next s') :
    s'.fuses = s.fuses := by
  cases ht; simp

theorem execPublicKey_fuses (slot : BitVec 8) (addr : Word) (s s' : State) (ht : execPublicKey slot addr s = .next s') :
    s'.fuses = s.fuses := by
  cases ht; simp

theorem execSign_fuses (slot : BitVec 8) (addr : Word) (s s' : State) (ht : execSign slot addr s = .next s') :
    s'.fuses = s.fuses := by
  cases ht; simp

theorem execVerify_fuses (slot : BitVec 8) (addr : Word) (good : Bool) (s s' : State) (ht : execVerify slot addr good s = .next s') :
    s'.fuses = s.fuses := by
  cases ht; simp

theorem execAgree_fuses (slot : BitVec 8) (addr : Word) (s s' : State) (ht : execAgree slot addr s = .next s') :
    s'.fuses = s.fuses := by
  cases ht; simp

@[simp] theorem measureInto_fuses (k : Nat) (h : BitVec 384) (s : State) :
    (measureInto k h s).fuses = s.fuses := by simp [measureInto]

@[simp] theorem tackMeasure_fuses (k a n : Nat) (s : State) : (tackMeasure k a n s).2.fuses = s.fuses := by
  unfold tackMeasure; (repeat' split) <;> simp

theorem execMeasure_fuses (unit : BitVec 8) (addr len : Nat) (s s' : State) (ht : execMeasure unit addr len s = .next s') :
    s'.fuses = s.fuses := by
  cases ht; simp

@[simp] theorem tackRandom_fuses (a n : Nat) (s : State) : (tackRandom a n s).2.fuses = s.fuses := by
  unfold tackRandom; (repeat' split) <;> simp

theorem execRandom_fuses (addr : Word) (len : Nat) (s s' : State) (ht : execRandom addr len s = .next s') :
    s'.fuses = s.fuses := by
  cases ht; simp

@[simp] theorem rewrap_fuses (mr0 mr2 mr3 : BitVec 384) (s : State) :
    (rewrap mr0 mr2 mr3 s).fuses = s.fuses := by simp [rewrap]

@[simp] theorem successorWrite_fuses (m : Manifest) (s : State) :
    (successorWrite m s).fuses = s.fuses := by simp [successorWrite]

@[simp] theorem eraseSpare_fuses (s : State) : (eraseSpare s).fuses = s.fuses := by simp [eraseSpare]

@[simp] theorem tackSuccessor_fuses (s : State) : (tackSuccessor s).2.fuses = s.fuses := by
  unfold tackSuccessor; (repeat' split) <;> simp

theorem execSuccessor_fuses (_addr : Word) (s s' : State) (ht : execSuccessor _addr s = .next s') :
    s'.fuses = s.fuses := by
  cases ht; simp

/-! ### Update -/

@[simp] theorem State.updUpd_fuses (s : State) (f : Update → Update) :
    (State.updUpd s f).fuses = s.fuses := by simp [State.updUpd]

@[simp] theorem upLogHash_fuses (k : LogKind) (blk aux : Nat) (h : BitVec 384) (s : State) :
    (upLogHash k blk aux h s).fuses = s.fuses := by simp [upLogHash]

@[simp] theorem upLog_fuses (k : LogKind) (blk aux : Nat) (s : State) :
    (upLog k blk aux s).fuses = s.fuses := by simp [upLog]

@[simp] theorem imageSet_fuses (b : Nat) (h : BitVec 384) (s : State) :
    (imageSet b h s).fuses = s.fuses := by simp [imageSet]

@[simp] theorem updatePrepare_fuses (m : Manifest) (s : State) :
    (updatePrepare m s).fuses = s.fuses := by simp [updatePrepare]

@[simp] theorem manifestAccept_fuses (role : Role) (latigo : Bool) (m : Manifest) (s : State) :
    (manifestAccept role latigo m s).2.fuses = s.fuses := by simp [manifestAccept]

theorem execManifestAccept_fuses (role : Role) (latigo : Bool) (m : Manifest) (s s' : State) (ht : execManifestAccept role latigo m s = .next s') :
    s'.fuses = s.fuses := by
  cases ht; simp

@[simp] theorem restoreBlock_fuses (b : Nat) (s : State) : (restoreBlock b s).fuses = s.fuses := by simp [restoreBlock]

@[simp] theorem restoreAll_fuses (s : State) : (restoreAll s).fuses = s.fuses := by
  unfold restoreAll
  dsimp only
  rw [State.updUpd_fuses, foldl_fuses _ (fun t b => restoreBlock_fuses _ t)]

@[simp] theorem updateUndone_fuses (s : State) : (updateUndone s).fuses = s.fuses := by simp [updateUndone]

@[simp] theorem rollback_fuses (s : State) : (rollback s).fuses = s.fuses := by simp [rollback]

@[simp] theorem updateBlock_fuses (b : BlockData) (s : State) : (updateBlock b s).2.fuses = s.fuses := by
  unfold updateBlock; dsimp only; (repeat' split) <;> simp

theorem execUpdateBlock_fuses (b : BlockData) (s s' : State) (ht : execUpdateBlock b s = .next s') :
    s'.fuses = s.fuses := by
  cases ht; simp

@[simp] theorem updateAbandon_fuses (v : Nat) (s : State) : (updateAbandon v s).2.fuses = s.fuses := by
  unfold updateAbandon; dsimp only; (repeat' split) <;> simp

theorem execUpdateAbandon_fuses (v : BitVec 8) (s s' : State) (ht : execUpdateAbandon v s = .next s') :
    s'.fuses = s.fuses := by
  cases ht; simp

@[simp] theorem handover_fuses (v : Nat) (s : State) : (handover v s).2.fuses = s.fuses := by
  unfold handover; (repeat' split) <;> simp

theorem execHandover_fuses (v : BitVec 8) (s s' : State) (ht : execHandover v s = .next s') : s'.fuses = s.fuses := by
  cases ht; simp

@[simp] theorem trialBegin_fuses (s : State) : (trialBegin s).fuses = s.fuses := by simp [trialBegin]

@[simp] theorem loaderResume_fuses (compsGood : Bool) (s : State) : (loaderResume compsGood s).2.fuses = s.fuses := by
  unfold loaderResume; dsimp only; (repeat' split) <;> simp

/-! ### Skiver -/

@[simp] theorem skvSubmit_fuses (port a : Nat) (s : State) : (skvSubmit port a s).fuses = s.fuses := by simp [skvSubmit]

theorem execSkiverSubmit_fuses (port : Fin 24) (addr : Word) (s s' : State) (ht : execSkiverSubmit port addr s = .next s') :
    s'.fuses = s.fuses := by
  cases ht; simp

@[simp] theorem skvCpl_fuses (l : List (Nat × Status)) (s : State) : (skvCpl l s).fuses = s.fuses := by simp [skvCpl]

@[simp] theorem skvDone_fuses (j : SkvJob) (e : SkvEnd) (s : State) :
    (skvDone j e s).fuses = s.fuses := by simp [skvDone]

@[simp] theorem skvRun_fuses (j : SkvJob) (r : SkvResult) (s : State) :
    (skvRun j r s).fuses = s.fuses := by simp [skvRun]

theorem execSkiverComplete_fuses (tag : BitVec 16) (r : SkvResult) (s s' : State) (ht : execSkiverComplete tag r s = .next s') :
    s'.fuses = s.fuses := by
  cases ht; (repeat' split) <;> simp

@[simp] theorem skvCplRead_fuses (s : State) : (skvCplRead s).fuses = s.fuses := by
  unfold skvCplRead; (repeat' split) <;> simp

theorem execSkiverCplRead_fuses (s s' : State) (ht : execSkiverCplRead s = .next s') : s'.fuses = s.fuses := by
  cases ht; simp

@[simp] theorem skvCfgWrite_fuses (v : Word) (s : State) : (skvCfgWrite v s).fuses = s.fuses := by simp [skvCfgWrite]

/-! ### Vehicle -/

@[simp] theorem State.updVc_fuses (s : State) (n : Nat) (f : V2gConn → V2gConn) :
    (State.updVc s n f).fuses = s.fuses := by simp [State.updVc]

@[simp] theorem vehicleRequest_fuses (p slot v : Nat) (i : Int) (s : State) :
    (vehicleRequest p slot v i s).fuses = s.fuses := by simp [vehicleRequest]

@[simp] theorem sdpAnswer_fuses (n : Nat) (tls : Bool) (s : State) :
    (sdpAnswer n tls s).fuses = s.fuses := by simp [sdpAnswer]

theorem execSdpRequest_fuses (n : Fin 64) (tls : Bool) (s s' : State) (ht : execSdpRequest n tls s = .next s') :
    s'.fuses = s.fuses := by
  cases ht; simp

@[simp] theorem spillAssign_fuses (n : Nat) (s : State) : (spillAssign n s).fuses = s.fuses := by simp [spillAssign]

@[simp] theorem tcpConnect_fuses (n : Nat) (tls : Bool) (s : State) :
    (tcpConnect n tls s).fuses = s.fuses := by simp [tcpConnect]

theorem execV2gTcpConnect_fuses (n : Fin 64) (tls : Bool) (s s' : State) (ht : execV2gTcpConnect n tls s = .next s') :
    s'.fuses = s.fuses := by
  cases ht; simp

@[simp] theorem connClose_fuses (n : Nat) (s : State) : (connClose n s).fuses = s.fuses := by simp [connClose]

@[simp] theorem connFail_fuses (n : Nat) (s : State) : (connFail n s).fuses = s.fuses := by simp [connFail]

@[simp] theorem tlsHandshake_fuses (n : Nat) (h : V2gHello) (s : State) : (tlsHandshake n h s).fuses = s.fuses := by
  unfold tlsHandshake
  dsimp only
  split
  · rfl
  split
  · simp
  split
  · simp
  · rename_i e; rw [State.updVc_fuses, girthRun_fuses _ _ _ _ e]

theorem execV2gTlsHandshake_fuses (n : Fin 64) (h : V2gHello) (s s' : State) (ht : execV2gTlsHandshake n h s = .next s') :
    s'.fuses = s.fuses := by
  cases ht; simp

@[simp] theorem handOver_fuses (n slot : Nat) (s : State) : (handOver n slot s).fuses = s.fuses := by simp [handOver]

@[simp] theorem v2gtp_fuses (n ver inv ty len : Nat) (s : State) : (v2gtp n ver inv ty len s).fuses = s.fuses := by
  unfold v2gtp; dsimp only; (repeat' split) <;> simp

theorem execV2gtpMessage_fuses (n : Fin 64) (version inverse : BitVec 8) (ptype : BitVec 16) (len : Nat) (s s' : State) (ht : execV2gtpMessage n version inverse ptype len s = .next s') :
    s'.fuses = s.fuses := by
  cases ht; simp

@[simp] theorem sapRequest_fuses (n : Nat) (l : List ProtoOffer) (s : State) : (sapRequest n l s).fuses = s.fuses := by
  unfold sapRequest; dsimp only; (repeat' split) <;> simp

theorem execSupportedAppProtocolReq_fuses (n : Fin 64) (offers : List ProtoOffer) (s s' : State) (ht : execSupportedAppProtocolReq n offers s = .next s') :
    s'.fuses = s.fuses := by
  cases ht; simp

@[simp] theorem answer_fuses (n : Nat) (m : V2gMsg) (a : V2gAns) (s : State) :
    (answer n m a s).fuses = s.fuses := by simp [answer]

@[simp] theorem waitFor_fuses (n : Nat) (m : V2gMsg) (s : State) : (waitFor n m s).fuses = s.fuses := by simp [waitFor]

@[simp] theorem seqError_fuses (n : Nat) (s : State) : (seqError n s).fuses = s.fuses := by simp [seqError]

@[simp] theorem onRequest_fuses (n : Nat) (m : V2gMsg) (f : Nat → Proto → State → State) (s : State) (h_f : ∀ x0 x1 t, (f x0 x1 t).fuses = t.fuses) :
    (onRequest n m f s).fuses = s.fuses := by
  unfold onRequest; dsimp only; (repeat' split) <;> simp [*]

@[simp] theorem authDecide_fuses (n slot : Nat) (s : State) :
    (authDecide n slot s).fuses = s.fuses := by simp [authDecide]

@[simp] theorem requestCoil_fuses (n slot : Nat) (s : State) :
    (requestCoil n slot s).fuses = s.fuses := by simp [requestCoil]

@[simp] theorem report_fuses (n : Nat) (m : V2gMsg) (s : State) : (report n m s).fuses = s.fuses := by simp [report]

@[simp] theorem answerWith_fuses (n : Nat) (m : V2gMsg) (a : V2gAns) (s : State) :
    (answerWith n m a s).fuses = s.fuses := by simp [answerWith]

@[simp] theorem cableCheck_fuses (n : Nat) (s : State) : (cableCheck n s).fuses = s.fuses := by
  unfold cableCheck; (repeat' split) <;> simp

@[simp] theorem withTariff_fuses (n : Nat) (m : V2gMsg) (f : State → State) (s : State) (h_f : ∀  t, (f  t).fuses = t.fuses) :
    (withTariff n m f s).fuses = s.fuses := by
  unfold withTariff; (repeat' split) <;> simp [*]

@[simp] theorem chargeParams_fuses (n slot : Nat) (pr : Proto) (x : V2gVals) (s : State) :
    (chargeParams n slot pr x s).fuses = s.fuses := by simp [chargeParams]

@[simp] theorem meteringConfirm_fuses (n slot : Nat) (sig : List Byte) (s : State) :
    (meteringConfirm n slot sig s).fuses = s.fuses := by simp [meteringConfirm]

@[simp] theorem demand_fuses (n slot : Nat) (m : V2gMsg) (x : V2gVals) (s : State) :
    (demand n slot m x s).fuses = s.fuses := by simp [demand]

@[simp] theorem contactorOff_fuses (p : Nat) (s : State) : (contactorOff p s).fuses = s.fuses := by simp [contactorOff]

@[simp] theorem stopDone_fuses (slot : Nat) (s : State) : (stopDone slot s).fuses = s.fuses := by simp [stopDone]

@[simp] theorem sessionStop_fuses (n slot : Nat) (s : State) :
    (sessionStop n slot s).fuses = s.fuses := by simp [sessionStop]

@[simp] theorem powerPause_fuses (n slot : Nat) (s : State) :
    (powerPause n slot s).fuses = s.fuses := by simp [powerPause]

@[simp] theorem authSetup_fuses (n : Nat) (s : State) : (authSetup n s).fuses = s.fuses := by simp [authSetup]

@[simp] theorem certInstall_fuses (n slot : Nat) (stream : List Byte) (f : State → State) (s : State) (h_f : ∀  t, (f  t).fuses = t.fuses) :
    (certInstall n slot stream f s).fuses = s.fuses := by
  unfold certInstall; (repeat' split) <;> simp [*]

@[simp] theorem certAnswer_fuses (n slot : Nat) (s : State) :
    (certAnswer n slot s).fuses = s.fuses := by simp [certAnswer]

@[simp] theorem v2gServe_fuses (n : Nat) (m : V2gMsg) (x : V2gVals) (slot : Nat) (pr : Proto) (s : State) :
    (v2gServe n m x slot pr s).fuses = s.fuses := by
  unfold v2gServe; (repeat' split) <;> simp

theorem execV2gRequest_fuses (n : Fin 64) (m : V2gMsg) (x : V2gVals) (s s' : State) (ht : execV2gRequest n m x s = .next s') :
    s'.fuses = s.fuses := by
  cases ht; simp

theorem execAuthorizationSetupReq_fuses (n : Fin 64) (s s' : State) (ht : execAuthorizationSetupReq n s = .next s') :
    s'.fuses = s.fuses := by
  cases ht; simp

@[simp] theorem pncRun_fuses (n slot : Nat) (a : PncCheck) (s : State) : (pncRun n slot a s).fuses = s.fuses := by
  unfold pncRun; (repeat' split) <;> simp

@[simp] theorem pncAuth_fuses (n slot : Nat) (a : PncCheck) (s : State) : (pncAuth n slot a s).fuses = s.fuses := by
  unfold pncAuth
  dsimp only
  split
  · exact authDecide_fuses _ _ _
  split
  · simp
  · rename_i e; rw [pncRun_fuses, girthRun_fuses _ _ _ _ e]

theorem execAuthorizationReq_fuses (n : Fin 64) (a : PncCheck) (s s' : State) (ht : execAuthorizationReq n a s = .next s') :
    s'.fuses = s.fuses := by
  cases ht; simp

theorem execCertificateInstallationReq_fuses (n : Fin 64) (stream : List Byte) (s s' : State) (ht : execCertificateInstallationReq n stream s = .next s') :
    s'.fuses = s.fuses := by
  cases ht; simp

@[simp] theorem failStop_fuses (n slot : Nat) (m : V2gMsg) (a : V2gAns) (s : State) :
    (failStop n slot m a s).fuses = s.fuses := by simp [failStop]

@[simp] theorem energise_fuses (slot : Nat) (s : State) : (energise slot s).fuses = s.fuses := by simp [energise]

@[simp] theorem powerStart_fuses (n slot : Nat) (late : Bool) (s : State) :
    (powerStart n slot late s).fuses = s.fuses := by simp [powerStart]

theorem execPowerDeliveryStart_fuses (n : Fin 64) (late : Bool) (s s' : State) (ht : execPowerDeliveryStart n late s = .next s') :
    s'.fuses = s.fuses := by
  cases ht; simp

@[simp] theorem ongoingExpiry_fuses (n : Nat) (s : State) : (ongoingExpiry n s).fuses = s.fuses := by
  unfold ongoingExpiry; dsimp only; (repeat' split) <;> simp

theorem execOngoingTimeExpiry_fuses (n : Fin 64) (s s' : State) (ht : execOngoingTimeExpiry n s = .next s') :
    s'.fuses = s.fuses := by
  cases ht; simp

@[simp] theorem answerWaiting_fuses (n slot : Nat) (s : State) : (answerWaiting n slot s).fuses = s.fuses := by
  unfold answerWaiting; (repeat' split) <;> simp

@[simp] theorem decisionTaken_fuses (n slot : Nat) (s : State) :
    (decisionTaken n slot s).fuses = s.fuses := by simp [decisionTaken]

theorem execHostDecisionTimeout_fuses (n : Fin 64) (s s' : State) (ht : execHostDecisionTimeout n s = .next s') :
    s'.fuses = s.fuses := by
  cases ht; simp

@[simp] theorem hostIdent_fuses (slot : Nat) (s : State) : (hostIdent slot s).fuses = s.fuses := by simp [hostIdent]

@[simp] theorem hostDecide_fuses (slot d : Nat) (s : State) : (hostDecide slot d s).2.fuses = s.fuses := by
  unfold hostDecide; dsimp only; (repeat' split) <;> simp

theorem execHostDecision_fuses (slot : Fin 256) (handle : Word) (serial : BitVec 64) (decision : BitVec 8) (s s' : State) (ht : execHostDecision slot handle serial decision s = .next s') :
    s'.fuses = s.fuses := by
  cases ht; simp

theorem execV2gSequenceTimeout_fuses (n : Fin 64) (s s' : State) (ht : execV2gSequenceTimeout n s = .next s') :
    s'.fuses = s.fuses := by
  cases ht; simp

theorem execV2gSetupTimeout_fuses (n : Fin 64) (s s' : State) (ht : execV2gSetupTimeout n s = .next s') :
    s'.fuses = s.fuses := by
  cases ht; simp

theorem execAwlJobComplete_fuses (pka ok : Bool) (slot : Option (Fin 256)) (s s' : State) (ht : execAwlJobComplete pka ok slot s = .next s') :
    s'.fuses = s.fuses := by
  cases ht; (repeat' split) <;> simp

@[simp] theorem withPort_fuses (k : Nat) (f : Nat → State → State) (s : State) (h_f : ∀ x0 t, (f x0 t).fuses = t.fuses) :
    (withPort k f s).fuses = s.fuses := by
  unfold withPort; (repeat' split) <;> simp [*]

@[simp] theorem faultStop_fuses (k p reason : Nat) (s : State) :
    (faultStop k p reason s).fuses = s.fuses := by simp [faultStop]

@[simp] theorem requestLock_fuses (p slot : Nat) (s : State) :
    (requestLock p slot s).fuses = s.fuses := by simp [requestLock]

@[simp] theorem seqAdvance_fuses (k p slot : Nat) (s : State) :
    (seqAdvance k p slot s).fuses = s.fuses := by simp [seqAdvance]

theorem execSequenceSignalChange_fuses (k : Fin 8) (prox level : Bool) (s s' : State) (ht : execSequenceSignalChange k prox level s = .next s') :
    s'.fuses = s.fuses := by
  cases ht; simp

@[simp] theorem vcan102_fuses (k p slot : Nat) (data : List Byte) (s : State) :
    (vcan102 k p slot data s).fuses = s.fuses := by simp [vcan102]

@[simp] theorem vcanTake_fuses (k p slot n : Nat) (data : List Byte) (s : State) :
    (vcanTake k p slot n data s).fuses = s.fuses := by simp [vcanTake]

theorem execVcanFrame_fuses (k : Fin 8) (id : BitVec 11) (data : List Byte) (s s' : State) (ht : execVcanFrame k id data s = .next s') :
    s'.fuses = s.fuses := by
  cases ht; simp

theorem execChargerFramePeriod_fuses (k : Fin 8) (s s' : State) (ht : execChargerFramePeriod k s = .next s') :
    s'.fuses = s.fuses := by
  cases ht; simp

theorem execVcanFirstFrameTimeout_fuses (k : Fin 8) (s s' : State) (ht : execVcanFirstFrameTimeout k s = .next s') :
    s'.fuses = s.fuses := by
  cases ht; simp

theorem execVcanFrameTimeout_fuses (k : Fin 8) (s s' : State) (ht : execVcanFrameTimeout k s = .next s') :
    s'.fuses = s.fuses := by
  cases ht; simp

@[simp] theorem vcanConfine_fuses (k : Nat) (s : State) : (vcanConfine k s).fuses = s.fuses := by simp [vcanConfine]

/-! ### Harness -/

@[simp] theorem harnessBurst_fuses (t : Nat) (reqs : List BurstReq) (s : State) :
    (harnessBurst t reqs s).fuses = s.fuses := by
  unfold harnessBurst; dsimp only; (repeat' split) <;> simp

@[simp] theorem eccReport_fuses (m : Nat) (e : Ecc) (s : State) : (eccReport m e s).fuses = s.fuses := by
  unfold eccReport; (repeat' split) <;> simp

theorem execHarnessBurst_fuses (t : Fin 30) (b : BurstReqs) (s s' : State) (ht : execHarnessBurst t b s = .next s') :
    s'.fuses = s.fuses := by
  cases ht; simp

@[simp] theorem waitMaxRead_fuses (t : Nat) (s : State) : (waitMaxRead t s).fuses = s.fuses := by simp [waitMaxRead]

theorem execHrnWaitmaxRead_fuses (t : Fin 30) (s s' : State) (ht : execHrnWaitmaxRead t s = .next s') :
    s'.fuses = s.fuses := by
  cases ht; simp

/-! ### Journal -/

@[simp] theorem stageRec_fuses (r : JRec) (s : State) : (stageRec r s).fuses = s.fuses := by simp [stageRec]

@[simp] theorem setArea_fuses (k : Nat) (a : Area) (s : State) : (setArea k a s).fuses = s.fuses := by simp [setArea]

@[simp] theorem batchRequest_fuses (s : State) : (batchRequest s).fuses = s.fuses := by
  unfold batchRequest; (repeat' split) <;> simp

@[simp] theorem batchClose_fuses (s : State) : (batchClose s).fuses = s.fuses := by simp [batchClose]

theorem execJournalBatchClose_fuses (_save : Bool) (s s' : State) (ht : execJournalBatchClose _save s = .next s') :
    s'.fuses = s.fuses := by
  cases ht; simp

@[simp] theorem areaCompacted_fuses (k ticket : Nat) (s : State) :
    (areaCompacted k ticket s).fuses = s.fuses := by simp [areaCompacted]

@[simp] theorem batchProgrammed_fuses (s : State) : (batchProgrammed s).fuses = s.fuses := by
  unfold batchProgrammed; (repeat' split) <;> simp

@[simp] theorem journalDone_fuses (s : State) : (journalDone s).fuses = s.fuses := by
  unfold journalDone; (repeat' split) <;> simp

theorem execXspiOperationDone_fuses (err : Bool) (s s' : State) (ht : execXspiOperationDone err s = .next s') :
    s'.fuses = s.fuses := by
  cases ht; simp

@[simp] theorem journalRead_fuses (aOk bOk : Bool) (bad : List (Bool × Nat)) (s : State) :
    (journalRead aOk bOk bad s).fuses = s.fuses := by simp [journalRead]

@[simp] theorem restoreDefaults_fuses (s : State) : (restoreDefaults s).fuses = s.fuses := by simp [restoreDefaults]

/-! ### Counters -/

theorem execCounterWrap_fuses (i : Fin 128) (s s' : State) (ht : execCounterWrap i s = .next s') :
    s'.fuses = s.fuses := by
  cases ht; simp

@[simp] theorem pmcSelect_fuses (i : Nat) (v : Word) (s : State) :
    (pmcSelect i v s).fuses = s.fuses := by simp [pmcSelect]

theorem execPmcSelect_fuses (i : Fin 128) (v : Word) (s s' : State) (ht : execPmcSelect i v s = .next s') :
    s'.fuses = s.fuses := by
  cases ht; simp

@[simp] theorem pmcSnapshot_fuses (v : Word) (s : State) : (pmcSnapshot v s).fuses = s.fuses := by simp [pmcSnapshot]

theorem execPmcSnapshot_fuses (v : Word) (s s' : State) (ht : execPmcSnapshot v s = .next s') : s'.fuses = s.fuses := by
  cases ht; simp

/-! ### Served -/

@[simp] theorem ownRead_fuses (idx sub : Nat) (s : State) : (ownRead idx sub s).fuses = s.fuses := by simp [ownRead]

/-! ### Earth -/

@[simp] theorem State.updRc_fuses (s : State) (n : Nat) (f : RcCh → RcCh) :
    (State.updRc s n f).fuses = s.fuses := by simp [State.updRc]

@[simp] theorem rcEvt_fuses (n i : Nat) (s : State) : (rcEvt n i s).fuses = s.fuses := by simp [rcEvt]

@[simp] theorem rcEnd_fuses (n : Nat) (meanUv : Int) (rmsUv : Nat) (s : State) :
    (rcEnd n meanUv rmsUv s).fuses = s.fuses := by
  unfold rcEnd; dsimp only; (repeat' split) <;> simp

theorem execRcWindowEnd_fuses (n : Fin 64) (meanUv : Int) (rmsUv : Nat) (s s' : State) (ht : execRcWindowEnd n meanUv rmsUv s = .next s') :
    s'.fuses = s.fuses := by
  cases ht; simp

@[simp] theorem rcClear_fuses (n : Nat) (s : State) : (rcClear n s).fuses = s.fuses := by simp [rcClear]

theorem execRcClear_fuses (n : Fin 64) (s s' : State) (ht : execRcClear n s = .next s') : s'.fuses = s.fuses := by
  cases ht; simp

@[simp] theorem rcCfgWrite_fuses (n : Nat) (v : Word) (s : State) :
    (rcCfgWrite n v s).fuses = s.fuses := by simp [rcCfgWrite]

theorem execRcCfgWrite_fuses (n : Fin 64) (v : Word) (s s' : State) (ht : execRcCfgWrite n v s = .next s') :
    s'.fuses = s.fuses := by
  cases ht; simp

@[simp] theorem State.updIm_fuses (s : State) (k : Nat) (f : ImCh → ImCh) :
    (State.updIm s k f).fuses = s.fuses := by simp [State.updIm]

@[simp] theorem imEvt_fuses (k i : Nat) (s : State) : (imEvt k i s).fuses = s.fuses := by simp [imEvt]

@[simp] theorem imResult_fuses (k r : Nat) (s : State) : (imResult k r s).fuses = s.fuses := by simp [imResult]

@[simp] theorem imHalf_fuses (k : Nat) (vp vn : Int) (span : Nat) (s : State) :
    (imHalf k vp vn span s).fuses = s.fuses := by
  unfold imHalf; dsimp only; (repeat' split) <;> simp

theorem execImHalfPeriodEnd_fuses (k : Fin 16) (vp vn : Int) (span : Nat) (s s' : State) (ht : execImHalfPeriodEnd k vp vn span s = .next s') :
    s'.fuses = s.fuses := by
  cases ht; simp

@[simp] theorem imStart_fuses (k : Nat) (st : ImSt) (s : State) : (imStart k st s).fuses = s.fuses := by simp [imStart]

@[simp] theorem imEnable_fuses (k : Nat) (s : State) : (imEnable k s).fuses = s.fuses := by simp [imEnable]

theorem execImEnable_fuses (k : Fin 16) (s s' : State) (ht : execImEnable k s = .next s') : s'.fuses = s.fuses := by
  cases ht; simp

@[simp] theorem imDisable_fuses (k : Nat) (s : State) : (imDisable k s).fuses = s.fuses := by simp [imDisable]

theorem execImDisable_fuses (k : Fin 16) (s s' : State) (ht : execImDisable k s = .next s') : s'.fuses = s.fuses := by
  cases ht; simp

@[simp] theorem imPause_fuses (k : Nat) (s : State) : (imPause k s).fuses = s.fuses := by simp [imPause]

theorem execImPause_fuses (k : Fin 16) (s s' : State) (ht : execImPause k s = .next s') : s'.fuses = s.fuses := by
  cases ht; simp

@[simp] theorem imResume_fuses (k : Nat) (s : State) : (imResume k s).fuses = s.fuses := by simp [imResume]

theorem execImResume_fuses (k : Fin 16) (s s' : State) (ht : execImResume k s = .next s') : s'.fuses = s.fuses := by
  cases ht; simp

@[simp] theorem imClear_fuses (k : Nat) (s : State) : (imClear k s).fuses = s.fuses := by simp [imClear]

theorem execImClear_fuses (k : Fin 16) (s s' : State) (ht : execImClear k s = .next s') : s'.fuses = s.fuses := by
  cases ht; simp

@[simp] theorem imCfgWrite_fuses (k : Nat) (v : Word) (s : State) :
    (imCfgWrite k v s).fuses = s.fuses := by simp [imCfgWrite]

@[simp] theorem imNetWrite_fuses (k : Nat) (v : Word) (s : State) :
    (imNetWrite k v s).fuses = s.fuses := by simp [imNetWrite]

@[simp] theorem imDivWrite_fuses (k : Nat) (v : Word) (s : State) :
    (imDivWrite k v s).fuses = s.fuses := by simp [imDivWrite]

@[simp] theorem imThrWrite_fuses (k : Nat) (v : Word) (s : State) :
    (imThrWrite k v s).fuses = s.fuses := by simp [imThrWrite]

@[simp] theorem earthFrame_fuses (u : EarthUnit) (s : State) : (earthFrame u s).fuses = s.fuses := by
  unfold earthFrame; (repeat' split) <;> simp

theorem execEarthFaultFrame_fuses (u : EarthUnit) (s s' : State) (ht : execEarthFaultFrame u s = .next s') :
    s'.fuses = s.fuses := by
  cases ht; simp

/-! ### Handlers -/

@[simp] theorem toLinking_fuses (p slot : Nat) (s : State) : (toLinking p slot s).fuses = s.fuses := by simp [toLinking]

@[simp] theorem toBasic_fuses (p slot : Nat) (s : State) : (toBasic p slot s).fuses = s.fuses := by simp [toBasic]

@[simp] theorem connected_fuses (p slot : Nat) (s : State) : (connected p slot s).fuses = s.fuses := by simp [connected]

@[simp] theorem connect_fuses (p slot : Nat) (s : State) : (connect p slot s).fuses = s.fuses := by simp [connect]

@[simp] theorem faultEnd_fuses (p slot reason : Nat) (s : State) :
    (faultEnd p slot reason s).fuses = s.fuses := by simp [faultEnd]

@[simp] theorem closingOn_fuses (p slot : Nat) (s : State) : (closingOn p slot s).fuses = s.fuses := by simp [closingOn]

@[simp] theorem stoppingOn_fuses (p slot : Nat) (s : State) :
    (stoppingOn p slot s).fuses = s.fuses := by simp [stoppingOn]

@[simp] theorem servePilot_fuses (p slot : Nat) (s : State) :
    (servePilot p slot s).fuses = s.fuses := by simp [servePilot]

@[simp] theorem serveEarth_fuses (p slot : Nat) (s : State) :
    (serveEarth p slot s).fuses = s.fuses := by simp [serveEarth]

@[simp] theorem serveGrant_fuses (p slot : Nat) (s : State) : (serveGrant p slot s).fuses = s.fuses := by
  unfold serveGrant; (repeat' split) <;> simp

@[simp] theorem serveTimer_fuses (p slot : Nat) (s : State) :
    (serveTimer p slot s).fuses = s.fuses := by simp [serveTimer]

@[simp] theorem servePlc_fuses (p slot : Nat) (s : State) : (servePlc p slot s).fuses = s.fuses := by simp [servePlc]

@[simp] theorem serveClass_fuses (k p slot : Nat) (s : State) : (serveClass k p slot s).fuses = s.fuses := by
  unfold serveClass; (repeat' split) <;> simp

@[simp] theorem serveAll_fuses (slot : Nat) (s : State) : (serveAll slot s).fuses = s.fuses := by simp [serveAll]

@[simp] theorem doneServed_fuses (e : Nat) (s : State) : (doneServed e s).fuses = s.fuses := by
  unfold doneServed; (repeat' split) <;> simp

theorem execSesDone_fuses (e : Fin 8) (s s' : State) (ht : execSesDone e s = .next s') : s'.fuses = s.fuses := by
  cases ht; simp

@[simp] theorem rebuildRecord_fuses (p serial slot : Nat) (s : State) :
    (rebuildRecord p serial slot s).fuses = s.fuses := by simp [rebuildRecord]

@[simp] theorem rebuildPoint_fuses (p : Nat) (s : State) : (rebuildPoint p s).fuses = s.fuses := by
  unfold rebuildPoint; (repeat' split) <;> simp

@[simp] theorem rebuildEngine_fuses (e : Nat) (s : State) :
    (rebuildEngine e s).fuses = s.fuses := by simp [rebuildEngine]

@[simp] theorem rebuildAll_fuses (s : State) : (rebuildAll s).fuses = s.fuses := by simp [rebuildAll]

@[simp] theorem cantleShutdown_fuses (p : Nat) (s : State) :
    (cantleShutdown p s).fuses = s.fuses := by simp [cantleShutdown]

@[simp] theorem engineBack_fuses (e : Nat) (s : State) : (engineBack e s).fuses = s.fuses := by simp [engineBack]

@[simp] theorem engRunWrite_fuses (v : Word) (s : State) : (engRunWrite v s).fuses = s.fuses := by simp [engRunWrite]

theorem execEngineRun_fuses (v : Word) (s s' : State) (ht : execEngineRun v s = .next s') : s'.fuses = s.fuses := by
  cases ht; simp

theorem execEngineReset_fuses (v : Word) (s s' : State) (ht : execEngineReset v s = .next s') : s'.fuses = s.fuses := by
  cases ht; simp

/-! ### BusBlocks -/

@[simp] theorem bklRead_fuses (port o : Nat) (s : State) : (bklRead port o s).fuses = s.fuses := by
  unfold bklRead
  split; · simp
  split; · simp
  split; · simp
  split
  · dsimp only; split <;> simp
  · simp

@[simp] theorem bklWrite_fuses (port o : Nat) (v : Word) (s : State) : (bklWrite port o v s).fuses = s.fuses := by
  unfold bklWrite
  split; · simp
  split; · simp
  split; · simp
  split; · simp
  split; · simp
  split
  · dsimp only; split <;> simp
  · simp

@[simp] theorem pairRegRead_fuses (m o : Nat) (s : State) : (pairRegRead m o s).fuses = s.fuses := by simp [pairRegRead]

@[simp] theorem pairRegWrite_fuses (port m o : Nat) (v : Word) (s : State) :
    (pairRegWrite port m o v s).fuses = s.fuses := by simp [pairRegWrite]

@[simp] theorem hubRegRead_fuses (port h o : Nat) (s : State) :
    (hubRegRead port h o s).fuses = s.fuses := by simp [hubRegRead]

@[simp] theorem hubRegWrite_fuses (port h o : Nat) (v : Word) (s : State) :
    (hubRegWrite port h o v s).fuses = s.fuses := by simp [hubRegWrite]

@[simp] theorem sesRead_fuses (port e o : Nat) (s : State) : (sesRead port e o s).fuses = s.fuses := by
  unfold sesRead; (repeat' split) <;> simp

@[simp] theorem sesEcfgWrite_fuses (e : Nat) (v : Word) (s : State) :
    (sesEcfgWrite e v s).fuses = s.fuses := by simp [sesEcfgWrite]

@[simp] theorem sesEntryWrite_fuses (e : Nat) (v : Word) (s : State) :
    (sesEntryWrite e v s).fuses = s.fuses := by simp [sesEntryWrite]

@[simp] theorem sesXrWrite_fuses (e k : Nat) (v : Word) (s : State) :
    (sesXrWrite e k v s).fuses = s.fuses := by simp [sesXrWrite]

@[simp] theorem sesWrite_fuses (port e o : Nat) (v : Word) (s : State) : (sesWrite port e o v s).fuses = s.fuses := by
  unfold sesWrite; (repeat' split) <;> simp

@[simp] theorem mbxRead_fuses (port o : Nat) (s : State) : (mbxRead port o s).fuses = s.fuses := by simp [mbxRead]

@[simp] theorem mbxWrite_fuses (port o : Nat) (v : Word) (s : State) :
    (mbxWrite port o v s).fuses = s.fuses := by simp [mbxWrite]

@[simp] theorem grtRead_fuses (o : Nat) (s : State) : (grtRead o s).fuses = s.fuses := by
  unfold grtRead; (repeat' split) <;> simp

@[simp] theorem grtWrite_fuses (o : Nat) (v : Word) (s : State) : (grtWrite o v s).fuses = s.fuses := by
  unfold grtWrite; (repeat' split) <;> simp

@[simp] theorem pmcRead_fuses (o : Nat) (s : State) : (pmcRead o s).fuses = s.fuses := by simp [pmcRead]

@[simp] theorem pmcWrite_fuses (o : Nat) (v : Word) (s : State) : (pmcWrite o v s).fuses = s.fuses := by simp [pmcWrite]

@[simp] theorem clkRead_fuses (port o : Nat) (s : State) : (clkRead port o s).fuses = s.fuses := by
  unfold clkRead; (repeat' split) <;> simp

@[simp] theorem safPost_fuses (port i : Nat) (v : Word) (s : State) :
    (safPost port i v s).fuses = s.fuses := by simp [safPost]

@[simp] theorem clkWrite_fuses (port o : Nat) (v : Word) (s : State) : (clkWrite port o v s).fuses = s.fuses := by
  unfold clkWrite; (repeat' split) <;> simp

@[simp] theorem pilRead_fuses (port o : Nat) (s : State) : (pilRead port o s).fuses = s.fuses := by
  unfold pilRead; (repeat' split) <;> simp

@[simp] theorem pilWrite_fuses (o : Nat) (v : Word) (s : State) : (pilWrite o v s).fuses = s.fuses := by
  unfold pilWrite; (repeat' split) <;> simp

@[simp] theorem skvRead_fuses (o : Nat) (s : State) : (skvRead o s).fuses = s.fuses := by
  unfold skvRead; (repeat' split) <;> simp

@[simp] theorem skvWrite_fuses (o : Nat) (v : Word) (s : State) : (skvWrite o v s).fuses = s.fuses := by simp [skvWrite]

@[simp] theorem tkrRead_fuses (o : Nat) (s : State) : (tkrRead o s).fuses = s.fuses := by simp [tkrRead]

@[simp] theorem slRead_fuses (port o : Nat) (s : State) : (slRead port o s).fuses = s.fuses := by
  unfold slRead; (repeat' split) <;> simp

@[simp] theorem slWrite_fuses (port o : Nat) (v : Word) (s : State) : (slWrite port o v s).fuses = s.fuses := by
  unfold slWrite; (repeat' split) <;> simp

/-! ### BusPower -/

@[simp] theorem powerUpd_fuses (f : PowerDie → PowerDie) (s : State) :
    (powerUpd f s).fuses = s.fuses := by simp [powerUpd]

@[simp] theorem outCmdWrite_fuses (x : Nat) (v : Word) (s : State) :
    (outCmdWrite x v s).fuses = s.fuses := by simp [outCmdWrite]

@[simp] theorem outRegWrite_fuses (x off : Nat) (v : Word) (s : State) : (outRegWrite x off v s).fuses = s.fuses := by
  unfold outRegWrite; (repeat' split) <;> simp

@[simp] theorem outDevWrite_fuses (off : Nat) (v : Word) (s : State) : (outDevWrite off v s).fuses = s.fuses := by
  unfold outDevWrite; (repeat' split) <;> simp

@[simp] theorem rcRegWrite_fuses (n off : Nat) (v : Word) (s : State) : (rcRegWrite n off v s).fuses = s.fuses := by
  unfold rcRegWrite; (repeat' split) <;> simp

@[simp] theorem imRegWrite_fuses (k off : Nat) (v : Word) (s : State) : (imRegWrite k off v s).fuses = s.fuses := by
  unfold imRegWrite; (repeat' split) <;> simp

@[simp] theorem rdRegWrite_fuses (n off : Nat) (v : Word) (s : State) : (rdRegWrite n off v s).fuses = s.fuses := by
  unfold rdRegWrite; (repeat' split) <;> simp

@[simp] theorem tagShadowWord_fuses (k i : Nat) (v : Word) (s : State) :
    (tagShadowWord k i v s).fuses = s.fuses := by simp [tagShadowWord]

@[simp] theorem powerRegWrite_fuses (o : Nat) (v : Word) (s : State) :
    (powerRegWrite o v s).fuses = s.fuses := by simp [powerRegWrite]

@[simp] theorem outWinRead_fuses (o : Nat) (s : State) : (outWinRead o s).fuses = s.fuses := by simp [outWinRead]

@[simp] theorem outWinWrite_fuses (port o : Nat) (v : Word) (s : State) :
    (outWinWrite port o v s).fuses = s.fuses := by simp [outWinWrite]

/-! ### Bus -/

@[simp] theorem blockRead_fuses (port a : Nat) (s : State) : (blockRead port a s).fuses = s.fuses := by
  unfold blockRead; (repeat' split) <;> simp

@[simp] theorem blockWrite_fuses (port a : Nat) (v : Word) (s : State) : (blockWrite port a v s).fuses = s.fuses := by
  unfold blockWrite; (repeat' split) <;> simp

@[simp] theorem busRead_fuses (port a : Nat) (s : State) : (busRead port a s).fuses = s.fuses := by simp [busRead]

@[simp] theorem busWrite_fuses (port a : Nat) (v : Word) (s : State) :
    (busWrite port a v s).fuses = s.fuses := by simp [busWrite]

@[simp] theorem busLoad_fuses (port a n : Nat) (s : State) : (busLoad port a n s).1.fuses = s.fuses := by
  unfold busLoad; dsimp only; (repeat' split) <;> simp

@[simp] theorem takeAt_fuses (a v : Nat) (s : State) : (takeAt a v s).fuses = s.fuses := by
  unfold takeAt; (repeat' split) <;> simp

@[simp] theorem busStore_fuses (port a n v : Nat) (s : State) : (busStore port a n v s).1.fuses = s.fuses := by
  unfold busStore; dsimp only; (repeat' split) <;> simp

theorem execRegisterWrite_fuses (port : Fin 24) (addr val : Word) (s s' : State) (ht : execRegisterWrite port addr val s = .next s') :
    s'.fuses = s.fuses := by
  cases ht; simp

/-! ### Applied -/

@[simp] theorem applyOut_fuses (x : Nat) (s : State) : (applyOut x s).fuses = s.fuses := by simp [applyOut]

@[simp] theorem imThrough_fuses (k : Nat) (f : State → State) (s : State) (h_f : ∀  t, (f  t).fuses = t.fuses) :
    (imThrough k f s).fuses = s.fuses := by
  unfold imThrough; dsimp only; (repeat' split) <;> simp [*]

@[simp] theorem applyImThr_fuses (k : Nat) (s : State) : (applyImThr k s).fuses = s.fuses := by simp [applyImThr]

@[simp] theorem applyIm_fuses (k sub : Nat) (s : State) : (applyIm k sub s).fuses = s.fuses := by
  unfold applyIm; (repeat' split) <;> simp

@[simp] theorem applyImCfg_fuses (k sub : Nat) (s : State) :
    (applyImCfg k sub s).fuses = s.fuses := by simp [applyImCfg]

@[simp] theorem applyRc_fuses (n : Nat) (s : State) : (applyRc n s).fuses = s.fuses := by simp [applyRc]

@[simp] theorem applyTest_fuses (on : Bool) (s : State) : (applyTest on s).fuses = s.fuses := by simp [applyTest]

@[simp] theorem outTestCmd_fuses (x n : Nat) (s : State) : (outTestCmd x n s).2.fuses = s.fuses := by
  unfold outTestCmd; (repeat' split) <;> simp

@[simp] theorem applyPilot_fuses (p : Nat) (s : State) : (applyPilot p s).fuses = s.fuses := by simp [applyPilot]

@[simp] theorem freeQueued_fuses (p : Nat) (s : State) : (freeQueued p s).fuses = s.fuses := by
  unfold freeQueued; (repeat' split) <;> simp

@[simp] theorem applyType_fuses (p : Nat) (s : State) : (applyType p s).fuses = s.fuses := by simp [applyType]

@[simp] theorem applyAtten_fuses (n v : Nat) (s : State) : (applyAtten n v s).fuses = s.fuses := by simp [applyAtten]

@[simp] theorem applyMains_fuses (m : Nat) (on : Bool) (s : State) :
    (applyMains m on s).fuses = s.fuses := by simp [applyMains]

@[simp] theorem applyReader_fuses (n : Nat) (s : State) : (applyReader n s).fuses = s.fuses := by simp [applyReader]

@[simp] theorem applyTag_fuses (k : Nat) (s : State) : (applyTag k s).fuses = s.fuses := by simp [applyTag]

@[simp] theorem applyTagFile_fuses (k : Nat) (d : List Byte) (s : State) :
    (applyTagFile k d s).fuses = s.fuses := by simp [applyTagFile]

@[simp] theorem applyPoint_fuses (idx sub : Nat) (s : State) : (applyPoint idx sub s).fuses = s.fuses := by
  have e : ∃ p, applyPoint idx sub s =
      if idx % 64 = 0 then applyPilot p s
      else if idx % 64 = 4 && sub = 4 then applyAtten p (s.onum idx 4) s
      else if idx % 64 = 8 && sub = 4 then
        (List.range 16).foldl (fun t k => if (t.imMask k).getLsbD p then applyImThr k t else t) s
      else s := ⟨_, rfl⟩
  obtain ⟨p, e⟩ := e
  rw [e]
  split
  · exact applyPilot_fuses _ _
  split
  · exact applyAtten_fuses _ _ _
  split
  · rw [foldl_fuses]; intro t x; split <;> simp
  · rfl

@[simp] theorem applyEntry_fuses (idx sub : Nat) (s : State) : (applyEntry idx sub s).fuses = s.fuses := by
  unfold applyEntry
  split
  · exact applyPoint_fuses _ _ _
  split
  · exact applyOut_fuses _ _
  split
  · exact applyImCfg_fuses _ _ _
  split
  · exact applyRc_fuses _ _
  split
  · exact applyReader_fuses _ _
  split
  · split
    · exact applyTagFile_fuses _ _ _
    · exact applyTag_fuses _ _
  split
  · exact applyMains_fuses _ _ _
  split
  · exact applyAtten_fuses _ _ _
  rfl

/-! ### Server -/

@[simp] theorem State.updConn_fuses (s : State) (c : Nat) (f : Conn → Conn) :
    (State.updConn s c f).fuses = s.fuses := by simp [State.updConn]

@[simp] theorem makeBinding_fuses (a : Asker) (idx : Nat) (s : State) : (makeBinding a idx s).fuses = s.fuses := by
  unfold makeBinding; (repeat' split) <;> simp

@[simp] theorem readSealed_fuses (a : Asker) (idx sub : Nat) (s : State) :
    (readSealed a idx sub s).2.2.fuses = s.fuses := by
  unfold readSealed; (repeat' split) <;> simp

@[simp] theorem serveRead_fuses (a : Asker) (idx sub : Nat) (s : State) :
    (serveRead a idx sub s).2.2.fuses = s.fuses := by
  unfold serveRead; (repeat' split) <;> simp

@[simp] theorem writeStored_fuses (a : Asker) (idx sub : Nat) (v : List Byte) (s : State) :
    (writeStored a idx sub v s).fuses = s.fuses := by simp [writeStored]

@[simp] theorem writeSession_fuses (a : Asker) (idx sub : Nat) (d : List Byte) (s : State) :
    (writeSession a idx sub d s).2.fuses = s.fuses := by
  unfold writeSession; (repeat' split) <;> simp

@[simp] theorem writeSelector_fuses (a : Asker) (d : List Byte) (s : State) :
    (writeSelector a d s).2.fuses = s.fuses := by
  unfold writeSelector; dsimp only; (repeat' split) <;> simp

@[simp] theorem writeServer_fuses (idx sub : Nat) (d : List Byte) (s : State) :
    (writeServer idx sub d s).fuses = s.fuses := by
  unfold writeServer; (repeat' split) <;> simp

@[simp] theorem portChanged_fuses (p : Nat) (s : State) : (portChanged p s).fuses = s.fuses := by simp [portChanged]

@[simp] theorem writeConfig_fuses (a : Asker) (o : Obj) (idx sub : Nat) (d : List Byte) (s : State) :
    (writeConfig a o idx sub d s).fuses = s.fuses := by
  unfold writeConfig
  dsimp only
  split
  · split
    · exact writeStored_fuses _ _ _ _ _
    · rw [applyType_fuses]; exact writeStored_fuses _ _ _ _ _
  · split
    · rw [portChanged_fuses]; exact writeStored_fuses _ _ _ _ _
    · split
      · rw [applyEntry_fuses]; exact writeStored_fuses _ _ _ _ _
      · exact writeStored_fuses _ _ _ _ _

@[simp] theorem writeSealed_fuses (a : Asker) (idx sub : Nat) (d : List Byte) (s : State) :
    (writeSealed a idx sub d s).2.fuses = s.fuses := by
  unfold writeSealed; (repeat' split) <;> simp

@[simp] theorem setLast_fuses (v : Via) (st : Status) (s : State) : (setLast v st s).fuses = s.fuses := by
  unfold setLast; (repeat' split) <;> simp

@[simp] theorem answered_fuses (v : Via) (st : Status) (s : State) : (answered v st s).fuses = s.fuses := by
  unfold answered; (repeat' split) <;> simp

@[simp] theorem readRequest_fuses (a : Asker) (idx sub : Nat) (s : State) :
    (readRequest a idx sub s).2.2.fuses = s.fuses := by simp [readRequest]

/-! ### CanOpen -/

@[simp] theorem enterOper_fuses (f : Nat) (s : State) : (enterOper f s).fuses = s.fuses := by simp [enterOper]

@[simp] theorem bootPort_fuses (f : Nat) (s : State) : (bootPort f s).fuses = s.fuses := by simp [bootPort]

@[simp] theorem sdoSend_fuses (f ch : Nat) (data : List Byte) (s : State) :
    (sdoSend f ch data s).fuses = s.fuses := by simp [sdoSend]

@[simp] theorem sdoReply_fuses (f ch : Nat) (cmd : Byte) (idx sub : Nat) (data : List Byte) (s : State) :
    (sdoReply f ch cmd idx sub data s).fuses = s.fuses := by simp [sdoReply]

@[simp] theorem sdoAbort_fuses (f ch idx sub code : Nat) (s : State) :
    (sdoAbort f ch idx sub code s).fuses = s.fuses := by simp [sdoAbort]

@[simp] theorem setSdo_fuses (f ch : Nat) (x : Option SdoXfer) (s : State) :
    (setSdo f ch x s).fuses = s.fuses := by simp [setSdo]

@[simp] theorem sdoFresh_fuses (f ch : Nat) (s : State) : (sdoFresh f ch s).fuses = s.fuses := by
  unfold sdoFresh; (repeat' split) <;> simp

theorem execSdoInitiateUpload_fuses (f : Fin 2) (ch : Fin 8) (idx : BitVec 16) (sub : BitVec 8) (s s' : State) (ht : execSdoInitiateUpload f ch idx sub s = .next s') :
    s'.fuses = s.fuses := by
  cases ht; simp

@[simp] theorem sdoUpSeg_fuses (f ch : Nat) (toggle : Bool) (s : State) : (sdoUpSeg f ch toggle s).fuses = s.fuses := by
  unfold sdoUpSeg; (repeat' split) <;> simp

theorem execSdoUploadSegment_fuses (f : Fin 2) (ch : Fin 8) (toggle : Bool) (s s' : State) (ht : execSdoUploadSegment f ch toggle s = .next s') :
    s'.fuses = s.fuses := by
  cases ht; simp

theorem execSdoUnsupportedCommand_fuses (f : Fin 2) (ch : Fin 8) (s s' : State) (ht : execSdoUnsupportedCommand f ch s = .next s') :
    s'.fuses = s.fuses := by
  cases ht; simp

@[simp] theorem usdoSend_fuses (f node code : Nat) (d : List Byte) (s : State) :
    (usdoSend f node code d s).fuses = s.fuses := by simp [usdoSend]

@[simp] theorem setUsdo_fuses (f node : Nat) (x : Option SdoXfer) (s : State) :
    (setUsdo f node x s).fuses = s.fuses := by simp [setUsdo]

@[simp] theorem usdoFresh_fuses (f node : Nat) (s : State) : (usdoFresh f node s).fuses = s.fuses := by simp [usdoFresh]

@[simp] theorem usdoBegin_fuses (f node : Nat) (x : SdoXfer) (d : List Byte) (s : State) :
    (usdoBegin f node x d s).fuses = s.fuses := by simp [usdoBegin]

theorem execSdoSegmentTimeout_fuses (f : Fin 2) (client : CanClient) (s s' : State) (ht : execSdoSegmentTimeout f client s = .next s') :
    s'.fuses = s.fuses := by
  cases ht; (repeat' split) <;> simp

theorem execNmtStart_fuses (f : Fin 2) (s s' : State) (ht : execNmtStart f s = .next s') : s'.fuses = s.fuses := by
  cases ht; simp

theorem execNmtStop_fuses (f : Fin 2) (s s' : State) (ht : execNmtStop f s = .next s') : s'.fuses = s.fuses := by
  cases ht; simp

theorem execNmtEnterPreoperational_fuses (f : Fin 2) (s s' : State) (ht : execNmtEnterPreoperational f s = .next s') :
    s'.fuses = s.fuses := by
  cases ht; simp

theorem execNmtResetCommunication_fuses (f : Fin 2) (s s' : State) (ht : execNmtResetCommunication f s = .next s') :
    s'.fuses = s.fuses := by
  cases ht; simp

theorem execNmtResetNode_fuses (f : Fin 2) (s s' : State) (ht : execNmtResetNode f s = .next s') :
    s'.fuses = s.fuses := by
  cases ht; simp

theorem execCanopenHeartbeat_fuses (f : Fin 2) (s s' : State) (ht : execCanopenHeartbeat f s = .next s') :
    s'.fuses = s.fuses := by
  cases ht; simp

@[simp] theorem tpdoSend_fuses (f n : Nat) (s : State) : (tpdoSend f n s).fuses = s.fuses := by simp [tpdoSend]

@[simp] theorem tpdoSync_fuses (f : Nat) (s : State) (n : Nat) : (tpdoSync f s n).fuses = s.fuses := by simp [tpdoSync]

theorem execSync_fuses (f : Fin 2) (s s' : State) (ht : execSync f s = .next s') : s'.fuses = s.fuses := by
  cases ht; simp

theorem execTpdoEventTimer_fuses (f : Fin 2) (n : Fin 32) (s s' : State) (ht : execTpdoEventTimer f n s = .next s') :
    s'.fuses = s.fuses := by
  cases ht; simp

@[simp] theorem tpdoChange_fuses (f : Nat) (s : State) (n : Nat) :
    (tpdoChange f s n).fuses = s.fuses := by simp [tpdoChange]

@[simp] theorem tpdoPoll_fuses (s : State) : (tpdoPoll s).fuses = s.fuses := by simp [tpdoPoll]

theorem execCanBusOff_fuses (f : Fin 2) (s s' : State) (ht : execCanBusOff f s = .next s') : s'.fuses = s.fuses := by
  cases ht; simp

theorem execCanBusOffRecovery_fuses (f : Fin 2) (s s' : State) (ht : execCanBusOffRecovery f s = .next s') :
    s'.fuses = s.fuses := by
  cases ht; simp

theorem execCanErrorPassive_fuses (f : Fin 2) (s s' : State) (ht : execCanErrorPassive f s = .next s') :
    s'.fuses = s.fuses := by
  cases ht; simp

@[simp] theorem pllPRelock_fuses (s : State) : (pllPRelock s).fuses = s.fuses := by simp [pllPRelock]

theorem execPllPRelock_fuses (s s' : State) (ht : execPllPRelock s = .next s') : s'.fuses = s.fuses := by
  cases ht; simp

/-! ### RvCsr -/

@[simp] theorem State.updHart_fuses (s : State) (h : Nat) (f : Hart → Hart) :
    (State.updHart s h f).fuses = s.fuses := by
  unfold State.updHart; (repeat' split) <;> simp

@[simp] theorem State.updCore_fuses (s : State) (h : Nat) (f : Hart → Hart) :
    (State.updCore s h f).fuses = s.fuses := by simp [State.updCore]

@[simp] theorem hartTrap_fuses (h cause : Nat) (val : Dword) (s : State) :
    (hartTrap h cause val s).fuses = s.fuses := by simp [hartTrap]

@[simp] theorem takeInterrupt_fuses (h i : Nat) (sMode : Bool) (s : State) :
    (takeInterrupt h i sMode s).fuses = s.fuses := by simp [takeInterrupt]

@[simp] theorem putCsr_fuses (h c : Nat) (v : Dword) (s : State) : (putCsr h c v s).fuses = s.fuses := by simp [putCsr]

@[simp] theorem putCounter_fuses (h c : Nat) (hi : Bool) (v : Dword) (s : State) :
    (putCounter h c hi v s).fuses = s.fuses := by simp [putCounter]

@[simp] theorem putFcsr_fuses (h : Nat) (v : Dword) (s : State) : (putFcsr h v s).fuses = s.fuses := by simp [putFcsr]

@[simp] theorem putPmpaddr_fuses (h i : Nat) (v : Dword) (s : State) :
    (putPmpaddr h i v s).fuses = s.fuses := by simp [putPmpaddr]

@[simp] theorem csrWrite_fuses (h c : Nat) (v : Dword) (s : State) : (csrWrite h c v s).fuses = s.fuses := by
  unfold csrWrite; (repeat' split) <;> simp

/-! ### RvMem -/

@[simp] theorem physLoad_fuses (h a n : Nat) (s : State) : (physLoad h a n s).1.fuses = s.fuses := by
  unfold physLoad; dsimp only; (repeat' split) <;> simp

@[simp] theorem breakReservations_fuses (h a n : Nat) (s : State) :
    (breakReservations h a n s).fuses = s.fuses := by simp [breakReservations]

@[simp] theorem physStore_fuses (h a n v : Nat) (s : State) : (physStore h a n v s).1.fuses = s.fuses := by
  unfold physStore; dsimp only; (repeat' split) <;> simp

/-! ### Riscv -/

@[simp] theorem RvOut_done_fuses (s : State) : (RvOut.done s).state = s := rfl

@[simp] theorem RvOut_exc_fuses (c : Nat) (v : Dword) (s : State) : (RvOut.exc c v s).state = s := rfl

@[simp] theorem rvRet_fuses (h rd : Nat) (v next : Dword) (s : State) :
    (rvRet h rd v next s).state.fuses = s.fuses := by simp [rvRet]

@[simp] theorem rvIllegal_fuses (s : State) : (rvIllegal s).state.fuses = s.fuses := by simp [rvIllegal]

@[simp] theorem rvOpImm_fuses (h : Nat) (w : Word) (next : Dword) (s : State) :
    (rvOpImm h w next s).state.fuses = s.fuses := by
  unfold rvOpImm; dsimp only; (repeat' split) <;> simp

@[simp] theorem rvOpReg_fuses (h : Nat) (w : Word) (next : Dword) (s : State) :
    (rvOpReg h w next s).state.fuses = s.fuses := by
  unfold rvOpReg; dsimp only; (repeat' split) <;> simp

@[simp] theorem rvOpImm32_fuses (h : Nat) (w : Word) (next : Dword) (s : State) :
    (rvOpImm32 h w next s).state.fuses = s.fuses := by
  unfold rvOpImm32; (repeat' split) <;> simp

@[simp] theorem rvOpReg32_fuses (h : Nat) (w : Word) (next : Dword) (s : State) :
    (rvOpReg32 h w next s).state.fuses = s.fuses := by
  unfold rvOpReg32; dsimp only; (repeat' split) <;> simp

@[simp] theorem rvBranchTo_fuses (h : Nat) (w : Word) (next : Dword) (s : State) :
    (rvBranchTo h w next s).state.fuses = s.fuses := by
  unfold rvBranchTo; dsimp only; (repeat' split) <;> simp

@[simp] theorem rvLoadAt_fuses (h n : Nat) (va : Dword) (s : State) (f : Nat → State → RvOut) (h_f : ∀ x0 t, (f x0 t).state.fuses = t.fuses) :
    (rvLoadAt h n va s f).state.fuses = s.fuses := by
  unfold rvLoadAt
  split
  · simp
  · rename_i a e
    have k := physLoad_fuses h a n s
    split <;> rename_i e2 <;> rw [e2] at k <;> simp [h_f, k] <;> simpa using k

@[simp] theorem rvStoreAt_fuses (h n : Nat) (va v next : Dword) (s : State) :
    (rvStoreAt h n va v next s).state.fuses = s.fuses := by
  unfold rvStoreAt
  split
  · simp
  · rename_i a e
    have k := physStore_fuses h a n (v.toNat % 256 ^ n) s
    split <;> rename_i e2 <;> rw [e2] at k <;> simp [k] <;> simpa using k

@[simp] theorem rvLoad_fuses (h : Nat) (w : Word) (next : Dword) (s : State) :
    (rvLoad h w next s).state.fuses = s.fuses := by
  unfold rvLoad; dsimp only; (repeat' split) <;> simp

@[simp] theorem rvStore_fuses (h : Nat) (w : Word) (next : Dword) (s : State) :
    (rvStore h w next s).state.fuses = s.fuses := by
  unfold rvStore; dsimp only; (repeat' split) <;> simp

@[simp] theorem rvAmo_fuses (h : Nat) (w : Word) (next : Dword) (s : State) :
    (rvAmo h w next s).state.fuses = s.fuses := by
  unfold rvAmo
  dsimp only
  split; · simp
  split
  · split; · simp
    split; · simp
    rename_i a e
    split; · simp
    have k := physLoad_fuses h a (2 ^ rvF3 w) s
    split <;> rename_i e2 <;> rw [e2] at k <;> simp <;> simpa using k
  split; · simp
  split; · simp
  rename_i a e
  split; · simp
  split
  · split; · simp
    have k := fun v t => physStore_fuses h a (2 ^ rvF3 w) v t
    split <;> rename_i e2 <;> have k := congrArg (fun x => x.1.fuses) e2 <;> simp at k <;> simp [← k]
  · have k := physLoad_fuses h a (2 ^ rvF3 w) s
    split <;> rename_i e2 <;> rw [e2] at k
    · simpa using k
    · split <;> rename_i e3 <;> have k3 := congrArg (fun x => x.1.fuses) e3 <;> simp at k3 <;> simp [← k3] <;> simpa using k

@[simp] theorem rvFp_fuses (h : Nat) (w : Word) (next : Dword) (s : State) (comp : Hart → Word → Option FpRes) :
    (rvFp h w next s comp).state.fuses = s.fuses := by
  unfold rvFp; dsimp only; (repeat' split) <;> simp

@[simp] theorem rvLoadFp_fuses (h : Nat) (w : Word) (next : Dword) (s : State) :
    (rvLoadFp h w next s).state.fuses = s.fuses := by
  unfold rvLoadFp; dsimp only; (repeat' split) <;> simp

@[simp] theorem rvStoreFp_fuses (h : Nat) (w : Word) (next : Dword) (s : State) :
    (rvStoreFp h w next s).state.fuses = s.fuses := by
  unfold rvStoreFp; dsimp only; (repeat' split) <;> simp

@[simp] theorem enterDebug_fuses (h cause : Nat) (s : State) :
    (enterDebug h cause s).fuses = s.fuses := by simp [enterDebug]

@[simp] theorem stepHalt_fuses (h : Nat) (s t : State) : (stepHalt h s t).fuses = t.fuses := by simp [stepHalt]

@[simp] theorem rvCsr_fuses (h : Nat) (w : Word) (next : Dword) (s : State) :
    (rvCsr h w next s).state.fuses = s.fuses := by
  unfold rvCsr
  dsimp only
  split
  · simp
  · have k := rvRet_fuses h (rvRd w) (s.csrRead h (fld w 20 12)) next s
    split
    · rename_i e; rw [e] at k; split <;> simpa using k
    · rename_i e; simp

@[simp] theorem rvWfi_fuses (h : Nat) (next : Dword) (s : State) : (rvWfi h next s).state.fuses = s.fuses := by
  unfold rvWfi; dsimp only; (repeat' split) <;> simp

@[simp] theorem rvSystem_fuses (h : Nat) (w : Word) (next : Dword) (s : State) :
    (rvSystem h w next s).state.fuses = s.fuses := by
  unfold rvSystem; dsimp only; (repeat' split) <;> simp

@[simp] theorem rvExec_fuses (h : Nat) (w : Word) (next : Dword) (s : State) :
    (rvExec h w next s).state.fuses = s.fuses := by
  unfold rvExec; (repeat' split) <;> simp

@[simp] theorem passCycles_fuses (h : Nat) (s : State) : (passCycles h s).fuses = s.fuses := by
  unfold passCycles; dsimp only; (repeat' split) <;> simp

@[simp] theorem retire_fuses (h : Nat) (w : Word) (s : State) : (retire h w s).fuses = s.fuses := by simp [retire]

@[simp] theorem rvException_fuses (h cause : Nat) (w : Word) (val : Dword) (s : State) :
    (rvException h cause w val s).fuses = s.fuses := by
  unfold rvException; (repeat' split) <;> simp

@[simp] theorem rvOutcome_fuses (h : Nat) (w : Word) (s : State) : (rvOutcome h w s).state.fuses = s.fuses := by
  unfold rvOutcome; dsimp only; (repeat' split) <;> simp

@[simp] theorem hartEcc_fuses (h : Nat) (ecc : Ecc) (s : State) : (hartEcc h ecc s).fuses = s.fuses := by simp [hartEcc]

@[simp] theorem eccPoison_fuses (h : Nat) (i : Word) (s : State) :
    (eccPoison h i s).fuses = s.fuses := by simp [eccPoison]

@[simp] theorem rvFetched_fuses (h : Nat) (w : Word) (ecc : Ecc) (s : State) :
    (rvFetched h w ecc s).fuses = s.fuses := by
  have k := rvOutcome_fuses h w s
  unfold rvFetched
  split
  · simp
  · dsimp only
    cases e : rvOutcome h w s <;> rw [e] at k <;> dsimp only [RvOut_done_fuses, RvOut_exc_fuses] at k ⊢ <;> (try split) <;> simp [k]

@[simp] theorem rvWake_fuses (h : Nat) (s : State) : (rvWake h s).fuses = s.fuses := by simp [rvWake]

@[simp] theorem rvStep_fuses (h : Nat) (w : Word) (ecc : Ecc) (s : State) : (rvStep h w ecc s).fuses = s.fuses := by
  unfold rvStep; dsimp only; (repeat' split) <;> simp

theorem execInstruction_fuses (hart : Fin 15) (w : Fetched) (s s' : State) (ht : execInstruction hart w s = .next s') :
    s'.fuses = s.fuses := by
  cases ht; simp

@[simp] theorem timerMatch_fuses (i : Nat) (s : State) : (timerMatch i s).fuses = s.fuses := by simp [timerMatch]

theorem execTimerCompareMatch_fuses (h : Fin 6) (s s' : State) (ht : execTimerCompareMatch h s = .next s') :
    s'.fuses = s.fuses := by
  cases ht; simp

/-! ### Debug -/

@[simp] theorem debugPut_fuses (h n : Nat) (v : Dword) (s : State) :
    (debugPut h n v s).fuses = s.fuses := by simp [debugPut]

@[simp] theorem debugHalt_fuses (h : Nat) (s : State) : (debugHalt h s).fuses = s.fuses := by simp [debugHalt]

@[simp] theorem debugResume_fuses (h : Nat) (s : State) : (debugResume h s).fuses = s.fuses := by simp [debugResume]

@[simp] theorem bufRun_fuses (h n i : Nat) (s : State) : (bufRun h n i s).2.fuses = s.fuses := by
  induction n generalizing i s with
  | zero => rfl
  | succ n ih =>
    unfold bufRun
    dsimp only
    split
    · rfl
    · split
      · rfl
      · rename_i w _
        have k := rvExec_fuses h w (s.hart h).pc s
        split <;> rename_i e <;> rw [e] at k
        · rw [ih]; exact k
        · exact k

@[simp] theorem runBuffer_fuses (h : Nat) (s : State) : (runBuffer h s).fuses = s.fuses := by
  unfold runBuffer
  dsimp only
  split <;> simp

@[simp] theorem debugBusRead_fuses (a : Word) (s : State) : (debugBusRead a s).fuses = s.fuses := by simp [debugBusRead]

@[simp] theorem debugBusWrite_fuses (a v : Word) (s : State) :
    (debugBusWrite a v s).fuses = s.fuses := by simp [debugBusWrite]

@[simp] theorem sbNext_fuses (s : State) : (sbNext s).fuses = s.fuses := by simp [sbNext]

@[simp] theorem sbFetch_fuses (s : State) : (sbFetch s).fuses = s.fuses := by simp [sbFetch]

@[simp] theorem cmdFail_fuses (e : Nat) (s : State) : (cmdFail e s).fuses = s.fuses := by simp [cmdFail]

@[simp] theorem abstractReg_fuses (h : Nat) (v : Word) (s : State) :
    (abstractReg h v s).fuses = s.fuses := by simp [abstractReg]

@[simp] theorem abstractCmd_fuses (v : Word) (s : State) : (abstractCmd v s).fuses = s.fuses := by simp [abstractCmd]

@[simp] theorem dmControl_fuses (v : Word) (s : State) : (dmControl v s).fuses = s.fuses := by simp [dmControl]

@[simp] theorem dmiRead_fuses (a : Nat) (s : State) : (dmiRead a s).fuses = s.fuses := by simp [dmiRead]

@[simp] theorem dmiWrite_fuses (a : Nat) (v : Word) (s : State) : (dmiWrite a v s).fuses = s.fuses := by
  unfold dmiWrite; (repeat' split) <;> simp

@[simp] theorem debugAccess_fuses (op : DebugOp) (s : State) : (debugAccess op s).fuses = s.fuses := by
  unfold debugAccess; (repeat' split) <;> simp

theorem execDebugAccess_fuses (op : DebugOp) (s s' : State) (ht : execDebugAccess op s = .next s') :
    s'.fuses = s.fuses := by
  cases ht; simp

/-! ### Latigo -/

@[simp] theorem latSend_fuses (f : LatFrame) (s : State) : (latSend f s).fuses = s.fuses := by
  unfold latSend; (repeat' split) <;> simp

@[simp] theorem latClose_fuses (c : Nat) (s : State) : (latClose c s).fuses = s.fuses := by simp [latClose]

theorem execLatigoConnect_fuses (h : TlsHello) (s s' : State) (ht : execLatigoConnect h s = .next s') :
    s'.fuses = s.fuses := by
  cases ht; (repeat' split) <;> simp

@[simp] theorem latReply_fuses (c op : Nat) (r : LatigoReq) (st : Status) (d : List Byte) (s : State) :
    (latReply c op r st d s).fuses = s.fuses := by simp [latReply]

@[simp] theorem onConn_fuses (c : Nat) (f : Conn → State → State) (s : State) (h_f : ∀ x0 t, (f x0 t).fuses = t.fuses) :
    (onConn c f s).fuses = s.fuses := by
  unfold onConn; (repeat' split) <;> simp [*]

@[simp] theorem onFrame_fuses (c : Nat) (f : Conn → State → State) (s : State) (h_f : ∀ x0 t, (f x0 t).fuses = t.fuses) :
    (onFrame c f s).fuses = s.fuses := by
  unfold onFrame; (repeat' split) <;> simp [*]

theorem execLatigoRead_fuses (c : Fin 16) (r : LatigoReq) (s s' : State) (ht : execLatigoRead c r s = .next s') :
    s'.fuses = s.fuses := by
  cases ht; simp

theorem execLatigoSubscribe_fuses (c : Fin 16) (r : LatigoReq) (interval : Nat) (s s' : State) (ht : execLatigoSubscribe c r interval s = .next s') :
    s'.fuses = s.fuses := by
  cases ht; simp

@[simp] theorem latPlain_fuses (c op : Nat) (id : Word) (st : Status) (s : State) :
    (latPlain c op id st s).fuses = s.fuses := by simp [latPlain]

theorem execLatigoUnsubscribe_fuses (c : Fin 16) (id : Word) (s s' : State) (ht : execLatigoUnsubscribe c id s = .next s') :
    s'.fuses = s.fuses := by
  cases ht; simp

theorem execLatigoKeepalive_fuses (c : Fin 16) (id : Word) (s s' : State) (ht : execLatigoKeepalive c id s = .next s') :
    s'.fuses = s.fuses := by
  cases ht; simp

@[simp] theorem State.updSub_fuses (s : State) (c : Nat) (id : Word) (f : LatSub → LatSub) :
    (State.updSub s c id f).fuses = s.fuses := by simp [State.updSub]

@[simp] theorem latNotify_fuses (c : Nat) (u : LatSub) (st : Status) (co : Bool) (v : List Byte) (s : State) :
    (latNotify c u st co v s).fuses = s.fuses := by simp [latNotify]

@[simp] theorem notifyValue_fuses (c : Nat) (u : LatSub) (atEnd : Bool) (v : List Byte) (s : State) :
    (notifyValue c u atEnd v s).fuses = s.fuses := by simp [notifyValue]

theorem execLatigoNotify_fuses (c : Fin 16) (id : Word) (intervalEnd : Bool) (s s' : State) (ht : execLatigoNotify c id intervalEnd s = .next s') :
    s'.fuses = s.fuses := by
  unfold execLatigoNotify at ht
  have ht := Host.Outcome.next.inj ht; subst ht
  refine onConn_fuses _ _ _ (fun x t => ?_)
  dsimp only
  split
  · rfl
  · rename_i u e
    have k := serveRead_fuses { via := Via.latigo c, role := x.role, handle := u.handle, serial := u.serial } u.idx u.sub t
    split
    · simpa using k
    · simpa using k
    · rfl

theorem execLatigoBadFrame_fuses (c : Fin 16) (h : LatHead) (s s' : State) (ht : execLatigoBadFrame c h s = .next s') :
    s'.fuses = s.fuses := by
  cases ht; simp

theorem execLatigoIdleTimeout_fuses (c : Fin 16) (s s' : State) (ht : execLatigoIdleTimeout c s = .next s') :
    s'.fuses = s.fuses := by
  unfold execLatigoIdleTimeout at ht
  have ht := Host.Outcome.next.inj ht; subst ht
  exact onConn_fuses _ _ _ (fun x t => by split; exact latClose_fuses _ _; rfl)

theorem execLatigoCertExpiry_fuses (c : Fin 16) (s s' : State) (ht : execLatigoCertExpiry c s = .next s') :
    s'.fuses = s.fuses := by
  cases ht; simp

theorem execLatigoClose_fuses (c : Fin 16) (s s' : State) (ht : execLatigoClose c s = .next s') :
    s'.fuses = s.fuses := by
  cases ht; simp

/-! ### Ports -/

@[simp] theorem ipTaken_fuses (port : Nat) (s : State) : (ipTaken port s).fuses = s.fuses := by simp [ipTaken]

@[simp] theorem linkChange_fuses (port : Nat) (up : Bool) (s : State) :
    (linkChange port up s).fuses = s.fuses := by simp [linkChange]

theorem execEthernetLinkChange_fuses (port : Fin 2) (up : Bool) (s s' : State) (ht : execEthernetLinkChange port up s = .next s') :
    s'.fuses = s.fuses := by
  cases ht; simp

theorem execGpioEdge_fuses (n : Fin 32) (s s' : State) (ht : execGpioEdge n s = .next s') : s'.fuses = s.fuses := by
  cases ht; simp

@[simp] theorem skvTimeout_fuses (s : State) : (skvTimeout s).fuses = s.fuses := by
  unfold skvTimeout; (repeat' split) <;> simp

@[simp] theorem sealedTimeout_fuses (s : State) : (sealedTimeout s).fuses = s.fuses := by
  unfold sealedTimeout; (repeat' split) <;> simp

@[simp] theorem canTimeout_fuses (s : State) : (canTimeout s).fuses = s.fuses := by simp [canTimeout]

@[simp] theorem girthTimeout_fuses (s : State) : (girthTimeout s).fuses = s.fuses := by
  unfold girthTimeout; (repeat' split) <;> simp

@[simp] theorem monitored_fuses (q : Nat) (s : State) : (monitored q s).fuses = s.fuses := by simp [monitored]

theorem execDeliveryTimeout_fuses (q : Fin 14) (s s' : State) (ht : execDeliveryTimeout q s = .next s') :
    s'.fuses = s.fuses := by
  cases ht; simp

/-! ### Start -/

@[simp] theorem bootStop_fuses (step : Nat) (st : Status) (s : State) :
    (bootStop step st s).fuses = s.fuses := by simp [bootStop]

@[simp] theorem atStep_fuses (warm : Bool) (n : Nat) (s : State) : (atStep warm n s).fuses = s.fuses := by simp [atStep]

@[simp] theorem bootMeasure_fuses (k : Nat) (h : BitVec 384) (s : State) :
    (bootMeasure k h s).fuses = s.fuses := by simp [bootMeasure]

@[simp] theorem bootRomRun_fuses (boot : BitVec 4) (b : BootChecks) (s : State) :
    (bootRomRun boot b s).2.fuses = s.fuses := by
  unfold bootRomRun; dsimp only; (repeat' split) <;> simp

@[simp] theorem chooseWrap_fuses (s : State) : (chooseWrap s).fuses = s.fuses := by simp [chooseWrap]

@[simp] theorem tackStart_fuses (s : State) : (tackStart s).fuses = s.fuses := by simp [tackStart]

@[simp] theorem loaderRun_fuses (b : BootChecks) (s : State) : (loaderRun b s).2.fuses = s.fuses := by
  unfold loaderRun; dsimp only; (repeat' split) <;> simp

@[simp] theorem loadEngine_fuses (e : Nat) (s : State) : (loadEngine e s).fuses = s.fuses := by simp [loadEngine]

@[simp] theorem loadFailed_fuses (e : Nat) (s : State) : (loadFailed e s).fuses = s.fuses := by simp [loadFailed]

@[simp] theorem loadEngines_fuses (ok : BitVec 9) (s : State) :
    (loadEngines ok s).fuses = s.fuses := by simp [loadEngines]

@[simp] theorem loadBridle_fuses (ok : Bool) (s : State) : (loadBridle ok s).fuses = s.fuses := by simp [loadBridle]

@[simp] theorem readObjects_fuses (b : BootChecks) (s : State) :
    (readObjects b s).fuses = s.fuses := by simp [readObjects]

@[simp] theorem applyStored_fuses (s : State) : (applyStored s).fuses = s.fuses := by simp [applyStored]

@[simp] theorem bootHeartbeat_fuses (s : State) : (bootHeartbeat s).fuses = s.fuses := by simp [bootHeartbeat]

@[simp] theorem bootMains_fuses (m : Nat) (s : State) : (bootMains m s).fuses = s.fuses := by simp [bootMains]

@[simp] theorem bootPhy_fuses (s : State) : (bootPhy s).fuses = s.fuses := by simp [bootPhy]

@[simp] theorem serveObjects_fuses (warm : Bool) (s : State) :
    (serveObjects warm s).fuses = s.fuses := by simp [serveObjects]

@[simp] theorem bootBridle_fuses (b : BootChecks) (s : State) : (bootBridle b s).fuses = s.fuses := by simp [bootBridle]

@[simp] theorem firmwareStart_fuses (warm : Bool) (b : BootChecks) (s : State) :
    (firmwareStart warm b s).fuses = s.fuses := by simp [firmwareStart]

@[simp] theorem startFrom_fuses (warm : Bool) (boot : BitVec 4) (b : BootChecks) (s : State) :
    (startFrom warm boot b s).fuses = s.fuses := by simp [startFrom]

theorem execPowerOnStart_fuses (boot : BitVec 4) (b : BootChecks) (s s' : State) (ht : execPowerOnStart boot b s = .next s') :
    s'.fuses = s.fuses := by
  cases ht; simp

theorem execWarmStart_fuses (boot : BitVec 4) (b : BootChecks) (s s' : State) (ht : execWarmStart boot b s = .next s') :
    s'.fuses = s.fuses := by
  cases ht; simp

/-! ### Supplies -/

theorem execVanaTrip_fuses (s s' : State) (ht : execVanaTrip s = .next s') : s'.fuses = s.fuses := by
  cases ht; simp

theorem execVanaRelease_fuses (s s' : State) (ht : execVanaRelease s = .next s') : s'.fuses = s.fuses := by
  cases ht; simp

@[simp] theorem vloadFrame_fuses (s : State) : (vloadFrame s).fuses = s.fuses := by simp [vloadFrame]

@[simp] theorem vloadTrip_fuses (s : State) : (vloadTrip s).fuses = s.fuses := by simp [vloadTrip]

theorem execVloadTrip_fuses (_over : Bool) (s s' : State) (ht : execVloadTrip _over s = .next s') :
    s'.fuses = s.fuses := by
  unfold execVloadTrip at ht
  have ht := Host.Outcome.next.inj ht; subst ht
  first
  | ((repeat' split) <;> simp; done)
  | (dsimp only; done)
  | (dsimp only; (repeat' split) <;> simp; done)
  | (dsimp only; (repeat' split) <;> simp [*]; done)
  | ((repeat' split) <;> simp [*]; done)
  | exact whenDie_fuses _ _ (fun t => by first | (dsimp only; (repeat' split) <;> simp [*]; done) | (simp; (repeat' split) <;> simp; done))
  | (split <;> first | rfl | exact whenDie_fuses _ _ (fun t => by dsimp only; (repeat' split) <;> simp [*]))

theorem execVloadRelease_fuses (s s' : State) (ht : execVloadRelease s = .next s') : s'.fuses = s.fuses := by
  cases ht; simp

@[simp] theorem pilSupplyFault_fuses (p : Nat) (s : State) :
    (pilSupplyFault p s).fuses = s.fuses := by simp [pilSupplyFault]

@[simp] theorem pilotSupplyTrip_fuses (neg : Bool) (s : State) :
    (pilotSupplyTrip neg s).fuses = s.fuses := by simp [pilotSupplyTrip]

theorem execPilotSupplyTrip_fuses (neg : Bool) (s s' : State) (ht : execPilotSupplyTrip neg s = .next s') :
    s'.fuses = s.fuses := by
  cases ht; simp

@[simp] theorem pilotSupplyRelease_fuses (neg : Bool) (s : State) :
    (pilotSupplyRelease neg s).fuses = s.fuses := by simp [pilotSupplyRelease]

theorem execPilotSupplyRelease_fuses (neg : Bool) (s s' : State) (ht : execPilotSupplyRelease neg s = .next s') :
    s'.fuses = s.fuses := by
  unfold execPilotSupplyRelease at ht
  have ht := Host.Outcome.next.inj ht; subst ht
  first
  | ((repeat' split) <;> simp; done)
  | (dsimp only; done)
  | (dsimp only; (repeat' split) <;> simp; done)
  | (dsimp only; (repeat' split) <;> simp [*]; done)
  | ((repeat' split) <;> simp [*]; done)
  | exact whenDie_fuses _ _ (fun t => by first | (dsimp only; (repeat' split) <;> simp [*]; done) | (simp; (repeat' split) <;> simp; done))
  | (split <;> first | rfl | exact whenDie_fuses _ _ (fun t => by dsimp only; (repeat' split) <;> simp [*]))

@[simp] theorem vdrvTrip_fuses (s : State) : (vdrvTrip s).fuses = s.fuses := by simp [vdrvTrip]

theorem execVdrvTrip_fuses (s s' : State) (ht : execVdrvTrip s = .next s') : s'.fuses = s.fuses := by
  cases ht; simp

theorem execVdrvRelease_fuses (s s' : State) (ht : execVdrvRelease s = .next s') : s'.fuses = s.fuses := by
  cases ht; simp

@[simp] theorem panelPowerFail_fuses (m : Nat) (s : State) :
    (panelPowerFail m s).fuses = s.fuses := by simp [panelPowerFail]

@[simp] theorem dieWarned_fuses (s : State) : (dieWarned s).fuses = s.fuses := by simp [dieWarned]

theorem execPowerFailWarning_fuses (s s' : State) (ht : execPowerFailWarning s = .next s') : s'.fuses = s.fuses := by
  cases ht; simp

theorem execPowerFailRelease_fuses (s s' : State) (ht : execPowerFailRelease s = .next s') : s'.fuses = s.fuses := by
  cases ht; simp

@[simp] theorem dieReset_fuses (s : State) : (dieReset s).fuses = s.fuses := by simp [dieReset]

theorem execSealedSupplyTrip_fuses (_vmio : Bool) (s s' : State) (ht : execSealedSupplyTrip _vmio s = .next s') :
    s'.fuses = s.fuses := by
  cases ht; simp

theorem execSealedWatchdogExpiry_fuses (s s' : State) (ht : execSealedWatchdogExpiry s = .next s') :
    s'.fuses = s.fuses := by
  cases ht; simp

@[simp] theorem vbatSample_fuses (mv : Nat) (s : State) : (vbatSample mv s).fuses = s.fuses := by simp [vbatSample]

theorem execVbatSample_fuses (mv : Nat) (s s' : State) (ht : execVbatSample mv s = .next s') : s'.fuses = s.fuses := by
  cases ht; simp

theorem execLegalClockStop_fuses (s s' : State) (ht : execLegalClockStop s = .next s') : s'.fuses = s.fuses := by
  cases ht; simp

theorem execMetrologyRefFail_fuses (s s' : State) (ht : execMetrologyRefFail s = .next s') : s'.fuses = s.fuses := by
  cases ht; simp

theorem execMetrologyRefReturn_fuses (s s' : State) (ht : execMetrologyRefReturn s = .next s') :
    s'.fuses = s.fuses := by
  cases ht; simp

theorem execLegalCrystalFail_fuses (s s' : State) (ht : execLegalCrystalFail s = .next s') : s'.fuses = s.fuses := by
  cases ht; simp

/-! ### Tick -/

@[simp] theorem pilRebuild_fuses (s : State) : (pilRebuild s).fuses = s.fuses := by simp [pilRebuild]

@[simp] theorem tickEngine_fuses (e : Nat) (s : State) : (tickEngine e s).fuses = s.fuses := by
  unfold tickEngine; (repeat' split) <;> simp

@[simp] theorem tickApp_fuses (s : State) : (tickApp s).fuses = s.fuses := by simp [tickApp]

@[simp] theorem tickCold_fuses (s : State) : (tickCold s).fuses = s.fuses := by simp [tickCold]

@[simp] theorem tickLegal_fuses (s : State) : (tickLegal s).fuses = s.fuses := by simp [tickLegal]

@[simp] theorem tickPsq_fuses (s : State) : (tickPsq s).fuses = s.fuses := by
  unfold tickPsq; (repeat' split) <;> simp

@[simp] theorem tickMeas_fuses (s : State) : (tickMeas s).fuses = s.fuses := by simp [tickMeas]

@[simp] theorem tickVcan_fuses (s : State) : (tickVcan s).fuses = s.fuses := by simp [tickVcan]

@[simp] theorem tickPlc_fuses (s : State) : (tickPlc s).fuses = s.fuses := by simp [tickPlc]

/-! ### Step -/

@[simp] theorem State.withFetchWord_fuses (s : State) (_nbits _w : Nat) :
    (State.withFetchWord s _nbits _w).fuses = s.fuses := by simp [State.withFetchWord]

end Sys2Proof.Machine
end

