-- ==== Sys2Proof/Laws/KeepsPower.lean ====
section
/-!
SUPPORT. Functions of the model, and commands, that leave the power die as it was.
-/
set_option Elab.async false
set_option linter.all false
namespace Sys2Proof.Machine

/-! ### Ops -/

@[simp] theorem foldl_power {α : Type} (g : State → α → State) (h : ∀ t x, (g t x).power = t.power) (l : List α) (s : State) :
    (l.foldl g s).power = s.power := by
  induction l generalizing s with
  | nil => rfl
  | cons a l ih => simp [ih, h]

@[simp] theorem ite_power (c : Prop) [Decidable c] (a b : State) :
    (if c then a else b).power = if c then a.power else b.power := by split <;> rfl

theorem ite2_power {α : Type} (c : Prop) [Decidable c] (a b : α × State) (s : State) (ha : c → a.2.power = s.power) (hb : ¬c → b.2.power = s.power) :
    (if c then a else b).2.power = s.power := by split <;> simp_all

@[simp] theorem State.used_power (s : State) : (State.used s).power = s.power := by simp [State.used]

@[simp] theorem State.setByte_power (s : State) (a : Nat) (b : Byte) :
    (State.setByte s a b).power = s.power := by simp [State.setByte]

@[simp] theorem State.setBytes_power (s : State) (a : Nat) (l : List Byte) : (s.setBytes a l).power = s.power := by
  induction l generalizing s a with
  | nil => rfl
  | cons b r ih => simp [State.setBytes, ih]

@[simp] theorem State.setNum_power (s : State) (a n v : Nat) :
    (State.setNum s a n v).power = s.power := by simp [State.setNum]

@[simp] theorem State.updSrc_power (s : State) (n : Nat) (f : BklSrc → BklSrc) :
    (State.updSrc s n f).power = s.power := by simp [State.updSrc]

@[simp] theorem pmcAdd_power (n i k : Nat) (s : State) : (pmcAdd n i k s).power = s.power := by
  induction n generalizing i k s with
  | zero => rfl
  | succ n ih => simp only [pmcAdd]; (repeat' split) <;> simp [ih]

@[simp] theorem countEvents_power (group idx k : Nat) (s : State) :
    (countEvents group idx k s).power = s.power := by simp [countEvents]

@[simp] theorem raise_power (n : Nat) (s : State) : (raise n s).power = s.power := by simp [raise]

@[simp] theorem setLevel_power (n : Nat) (b : Bool) (s : State) : (setLevel n b s).power = s.power := by simp [setLevel]

@[simp] theorem laneRaise_power (n : Nat) (s : State) : (laneRaise n s).power = s.power := by simp [laneRaise]

@[simp] theorem State.updCtx_power (s : State) (slot : Nat) (f : Ctx → Ctx) :
    (State.updCtx s slot f).power = s.power := by simp [State.updCtx]

@[simp] theorem State.updEng_power (s : State) (e : Nat) (f : Engine → Engine) :
    (State.updEng s e f).power = s.power := by simp [State.updEng]

@[simp] theorem syncCtx_power (slot : Nat) (s : State) : (syncCtx slot s).power = s.power := by simp [syncCtx]

@[simp] theorem postClass_power (slot k : Nat) (s : State) : (postClass slot k s).power = s.power := by simp [postClass]

@[simp] theorem girthEnd_power (f : GirthReq → Bool) (part : Bool) (s : State) :
    (girthEnd f part s).power = s.power := by simp [girthEnd]

@[simp] theorem girthUnitOff_power (kind unit : Nat) (s : State) :
    (girthUnitOff kind unit s).power = s.power := by simp [girthUnitOff]

@[simp] theorem girthTransientEnd_power (kind unit : Nat) (s : State) :
    (girthTransientEnd kind unit s).power = s.power := by simp [girthTransientEnd]

@[simp] theorem girthWithdraw_power (f : GirthReq → Bool) (s : State) :
    (girthWithdraw f s).power = s.power := by simp [girthWithdraw]

@[simp] theorem withdrawRestart_power (kind unit : Nat) (s : State) :
    (withdrawRestart kind unit s).power = s.power := by simp [withdrawRestart]

@[simp] theorem busOk_power (v : Word) (s : State) : (busOk v s).power = s.power := by simp [busOk]

@[simp] theorem busFail_power (s : State) : (busFail s).power = s.power := by simp [busFail]

/-! ### LinkOps -/

@[simp] theorem State.updLink_power (s : State) (d : Side) (f : LinkEnd → LinkEnd) :
    (State.updLink s d f).power = s.power := by
  unfold State.updLink; (repeat' split) <;> simp

@[simp] theorem linkCount_power (d : Side) (idx k : Nat) (s : State) : (linkCount d idx k s).power = s.power := by
  unfold linkCount; (repeat' split) <;> simp

@[simp] theorem linkFlush_power (d : Side) (n : Nat) (s : State) : (linkFlush d n s).power = s.power := by
  induction n generalizing s with
  | zero => rfl
  | succ n ih => simp only [linkFlush]; (repeat' split) <;> simp [ih]

@[simp] theorem linkOffer_power (d : Side) (cls : Nat) (tag : Word) (payload : List Byte) (s : State) :
    (linkOffer d cls tag payload s).power = s.power := by simp [linkOffer]

@[simp] theorem dieSend_power (cls : Nat) (payload : List Byte) (s : State) :
    (dieSend cls payload s).power = s.power := by simp [dieSend]

@[simp] theorem dieReply_power (tag : Word) (cls : Nat) (payload : List Byte) (s : State) :
    (dieReply tag cls payload s).power = s.power := by simp [dieReply]

/-! ### SealedOps -/

@[simp] theorem State.setSobj_power (s : State) (idx sub : Nat) (v : List Byte) :
    (State.setSobj s idx sub v).power = s.power := by simp [State.setSobj]

@[simp] theorem State.updElem_power (s : State) (e : Nat) (f : Elem → Elem) :
    (State.updElem s e f).power = s.power := by simp [State.updElem]

@[simp] theorem State.updChan_power (s : State) (c : Nat) (f : Chan → Chan) :
    (State.updChan s c f).power = s.power := by simp [State.updChan]

@[simp] theorem logAdd_power (kind : Nat) (data : List Byte) (s : State) :
    (logAdd kind data s).power = s.power := by simp [logAdd]

@[simp] theorem State.mapRecs_power (s : State) (f : Rec → Rec) :
    (State.mapRecs s f).power = s.power := by simp [State.mapRecs]

@[simp] theorem State.updRec_power (s : State) (serial : Nat) (f : Rec → Rec) :
    (State.updRec s serial f).power = s.power := by simp [State.updRec]

@[simp] theorem State.updPt_power (s : State) (p : Nat) (f : PointBill → PointBill) :
    (State.updPt s p f).power = s.power := by simp [State.updPt]

@[simp] theorem flagOpen_power (p i : Nat) (s : State) : (flagOpen p i s).power = s.power := by simp [flagOpen]

@[simp] theorem flagAllOpen_power (i : Nat) (s : State) : (flagAllOpen i s).power = s.power := by simp [flagAllOpen]

@[simp] theorem purseCheck_power (serial : Nat) (s : State) : (purseCheck serial s).power = s.power := by
  unfold purseCheck; (repeat' split) <;> simp

@[simp] theorem routeMs_power (p t : Nat) (i e : Int) (s : State) : (routeMs p t i e s).power = s.power := by
  unfold routeMs; (repeat' split) <;> simp

@[simp] theorem routePoint_power (p : Nat) (sell : Bool) (ms : List Int) (s : State) :
    (routePoint p sell ms s).power = s.power := by
  unfold routePoint; dsimp only; (repeat' split) <;> simp

@[simp] theorem closeInterval_power (extra next : BitVec 16) (s : State) :
    (closeInterval extra next s).power = s.power := by simp [closeInterval]

@[simp] theorem switchTariff_power (s : State) : (switchTariff s).power = s.power := by simp [switchTariff]

@[simp] theorem markIntervals_power (s : State) : (markIntervals s).power = s.power := by simp [markIntervals]

@[simp] theorem settle_power (s : State) : (settle s).power = s.power := by simp [settle]

@[simp] theorem closeRec_power (serial reason : Nat) (f : Rec → Rec) (s : State) :
    (closeRec serial reason f s).power = s.power := by
  unfold closeRec; (repeat' split) <;> simp

@[simp] theorem closeAll_power (reason : Nat) (f : Rec → Rec) (s : State) :
    (closeAll reason f s).power = s.power := by simp [closeAll]

@[simp] theorem displayCheck_power (s : State) : (displayCheck s).power = s.power := by simp [displayCheck]

@[simp] theorem commit_power (s : State) : (commit s).power = s.power := by simp [commit]

@[simp] theorem sealAbandon_power (s : State) : (sealAbandon s).power = s.power := by
  unfold sealAbandon; (repeat' split) <;> simp

@[simp] theorem dieLinkFailed_power (cause : Nat) (s : State) :
    (dieLinkFailed cause s).power = s.power := by simp [dieLinkFailed]

@[simp] theorem applyParam_power (w : ParamWrite) (s : State) : (applyParam w s).power = s.power := by simp [applyParam]

@[simp] theorem whenDie_power (f : State → State) (s : State) (h_f : ∀  t, (f  t).power = t.power) :
    (whenDie f s).power = s.power := by
  unfold whenDie; (repeat' split) <;> simp [*]

@[simp] theorem objReply_power (tag : Word) (op : Nat) (st : Status) (idx sub off total serial : Nat) (data : List Byte) (s : State) :
    (objReply tag op st idx sub off total serial data s).power = s.power := by simp [objReply]

@[simp] theorem writeReply_power (tag : Word) (idx sub len : Nat) (r : Status × State) :
    (writeReply tag idx sub len r).power = r.2.power := by simp [writeReply]

/-! ### Billing -/

@[simp] theorem recReply_power (tag : Word) (st : Status) (cause : Nat) (r : Option Rec) (s : State) :
    (recReply tag st cause r s).power = s.power := by simp [recReply]

@[simp] theorem recOpen_power (p handle method : Nat) (ident : List Byte) (s : State) :
    (recOpen p handle method ident s).2.2.2.power = s.power := by
  unfold recOpen; (repeat' split) <;> simp

theorem execRecordOpen_power (tag : Word) (p : Fin 64) (handle : Word) (method : BitVec 8) (ident : List Byte) (s s' : State) (ht : execRecordOpen tag p handle method ident s = .next s') :
    s'.power = s.power := by
  cases ht; simp

@[simp] theorem recClose_power (p handle serial reason : Nat) (s : State) :
    (recClose p handle serial reason s).2.2.power = s.power := by
  unfold recClose; (repeat' split) <;> simp

theorem execRecordClose_power (tag : Word) (p : Fin 64) (handle : Word) (serial : BitVec 64) (reason : BitVec 8) (s s' : State) (ht : execRecordClose tag p handle serial reason s = .next s') :
    s'.power = s.power := by
  cases ht; simp

theorem execRecordQuery_power (tag : Word) (p : Fin 64) (handle : Word) (serial : BitVec 64) (s s' : State) (ht : execRecordQuery tag p handle serial s = .next s') :
    s'.power = s.power := by
  cases ht; simp

@[simp] theorem recSigned_power (serial : Nat) (s : State) : (recSigned serial s).power = s.power := by
  unfold recSigned; (repeat' split) <;> simp

theorem execRecordSigned_power (serial : BitVec 64) (s s' : State) (ht : execRecordSigned serial s = .next s') :
    s'.power = s.power := by
  cases ht; simp

@[simp] theorem recCollect_power (serial : Nat) (s : State) :
    (recCollect serial s).2.power = s.power := by simp [recCollect]

theorem execRecordCollectionAck_power (rq : Rq) (serial : BitVec 64) (s s' : State) (ht : execRecordCollectionAck rq serial s = .next s') :
    s'.power = s.power := by
  cases ht; exact whenDie_power _ _ fun t => by simp; (repeat' split) <;> simp

@[simp] theorem noticeReply_power (tag : Word) (st : Status) (s : State) :
    (noticeReply tag st s).power = s.power := by simp [noticeReply]

@[simp] theorem notice_power (tag : Word) (serial : Nat) (f : Rec → State → State) (s : State) (h_f : ∀ x0 t, (f x0 t).power = t.power) :
    (notice tag serial f s).power = s.power := by
  unfold notice; (repeat' split) <;> simp [*]

theorem execSessionNoticePlug_power (tag : Word) (p : Fin 64) (_handle : Word) (s s' : State) (ht : execSessionNoticePlug tag p _handle s = .next s') :
    s'.power = s.power := by
  cases ht; simp

theorem execSessionNoticeAuthorise_power (tag : Word) (p : Fin 64) (_handle : Word) (serial : BitVec 64) (s s' : State) (ht : execSessionNoticeAuthorise tag p _handle serial s = .next s') :
    s'.power = s.power := by
  cases ht; simp

theorem execSessionNoticeEnergyFlow_power (tag : Word) (_p : Fin 64) (_handle : Word) (serial : BitVec 64) (s s' : State) (ht : execSessionNoticeEnergyFlow tag _p _handle serial s = .next s') :
    s'.power = s.power := by
  cases ht; simp

theorem execSessionNoticeStop_power (tag : Word) (_p : Fin 64) (_handle : Word) (serial : BitVec 64) (_reason : BitVec 8) (s s' : State) (ht : execSessionNoticeStop tag _p _handle serial _reason s = .next s') :
    s'.power = s.power := by
  cases ht; simp

theorem execSessionNoticeMeteringConfirmation_power (tag : Word) (_p : Fin 64) (_handle : Word) (serial : BitVec 64) (reading : BitVec 16) (sig : List Byte) (s s' : State) (ht : execSessionNoticeMeteringConfirmation tag _p _handle serial reading sig s = .next s') :
    s'.power = s.power := by
  cases ht; simp

@[simp] theorem takeReading_power (role : Role) (serial : Nat) (s : State) :
    (takeReading role serial s).2.2.power = s.power := by
  unfold takeReading; (repeat' split) <;> simp

theorem execSignedReading_power (rq : Rq) (slot : Fin 256) (serial : BitVec 64) (s s' : State) (ht : execSignedReading rq slot serial s = .next s') :
    s'.power = s.power := by
  cases ht; simp

theorem execPurseQuery_power (rq : Rq) (p : Fin 64) (serial : BitVec 64) (s s' : State) (ht : execPurseQuery rq p serial s = .next s') :
    s'.power = s.power := by
  cases ht; simp

@[simp] theorem activate_power (s : State) : (activate s).power = s.power := by simp [activate]

@[simp] theorem activateDue_power (s : State) : (activateDue s).power = s.power := by simp [activateDue]

@[simp] theorem newOffset_power (source : Nat) (minutes : Int) (s : State) :
    (newOffset source minutes s).power = s.power := by simp [newOffset]

@[simp] theorem offsetDue_power (s : State) : (offsetDue s).power = s.power := by
  unfold offsetDue; (repeat' split) <;> simp

@[simp] theorem stepLt_power (target : Nat) (s : State) : (stepLt target s).power = s.power := by simp [stepLt]

@[simp] theorem ltSet_power (role : Role) (target : Nat) (s0 : State) : (ltSet role target s0).2.power = s0.power := by
  unfold ltSet; dsimp only; (repeat' split) <;> simp

theorem execLtSet_power (rq : Rq) (target : Nat) (s s' : State) (ht : execLtSet rq target s = .next s') :
    s'.power = s.power := by
  cases ht; simp

@[simp] theorem offsetSet_power (role : Role) (minutes : Int) (s : State) :
    (offsetSet role minutes s).2.power = s.power := by
  unfold offsetSet; (repeat' split) <;> simp

theorem execOffsetSet_power (rq : Rq) (minutes : Int) (s s' : State) (ht : execOffsetSet rq minutes s = .next s') :
    s'.power = s.power := by
  cases ht; simp

theorem execOffsetChangeScheduled_power (s s' : State) (ht : execOffsetChangeScheduled s = .next s') :
    s'.power = s.power := by
  cases ht; simp

@[simp] theorem calendarWritten_power (c : List Byte) (s : State) : (calendarWritten c s).2.power = s.power := by
  unfold calendarWritten; (repeat' split) <;> simp

@[simp] theorem stagePart_power (idx sub off total : Nat) (data : List Byte) (s : State) :
    (stagePart idx sub off total data s).2.2.power = s.power := by
  unfold stagePart; dsimp only; (repeat' split) <;> simp

theorem execCalendarWrite_power (rq : Rq) (off total : Nat) (data : List Byte) (s s' : State) (ht : execCalendarWrite rq off total data s = .next s') :
    s'.power = s.power := by
  unfold execCalendarWrite at ht
  have ht := Host.Outcome.next.inj ht; subst ht
  refine whenDie_power _ _ (fun t => ?_)
  dsimp only
  rw [objReply_power]
  split
  · rfl
  split
  · rfl
  have k := stagePart_power 0x5600 1 off total data t
  split <;> rename_i e <;> rw [e] at k
  · rw [calendarWritten_power]; exact k
  · exact k

@[simp] theorem activateSet_power (role : Role) (sec : Nat) (s : State) :
    (activateSet role sec s).2.power = s.power := by
  unfold activateSet; (repeat' split) <;> simp

theorem execCalendarActivateSet_power (rq : Rq) (sec : Nat) (s s' : State) (ht : execCalendarActivateSet rq sec s = .next s') :
    s'.power = s.power := by
  cases ht; simp

theorem execCalendarActivation_power (s s' : State) (ht : execCalendarActivation s = .next s') :
    s'.power = s.power := by
  cases ht; simp

theorem execTariffSwitch_power (s s' : State) (ht : execTariffSwitch s = .next s') : s'.power = s.power := by
  cases ht; simp

theorem execDemandIntervalEnd_power (s s' : State) (ht : execDemandIntervalEnd s = .next s') : s'.power = s.power := by
  cases ht; simp

@[simp] theorem demandReset_power (role : Role) (p : Nat) (s : State) : (demandReset role p s).2.power = s.power := by
  unfold demandReset; (repeat' split) <;> simp

theorem execMaxDemandReset_power (rq : Rq) (p : Fin 64) (s s' : State) (ht : execMaxDemandReset rq p s = .next s') :
    s'.power = s.power := by
  cases ht; simp

@[simp] theorem tokenKey_power (role : Role) (key : List Byte) (s : State) :
    (tokenKey role key s).2.power = s.power := by
  unfold tokenKey; (repeat' split) <;> simp

theorem execTokenKeyChange_power (rq : Rq) (key : List Byte) (s s' : State) (ht : execTokenKeyChange rq key s = .next s') :
    s'.power = s.power := by
  cases ht; simp

@[simp] theorem logArchive_power (role : Role) (idx : Nat) (s : State) : (logArchive role idx s).2.power = s.power := by
  unfold logArchive; (repeat' split) <;> simp

theorem execLegalLogArchive_power (rq : Rq) (idx : Nat) (s s' : State) (ht : execLegalLogArchive rq idx s = .next s') :
    s'.power = s.power := by
  cases ht; simp

@[simp] theorem bothLedgers_power (f : Ledger → Ledger) (s : State) :
    (bothLedgers f s).power = s.power := by simp [bothLedgers]

@[simp] theorem creditExpire_power (p : Nat) (s : State) : (creditExpire p s).power = s.power := by
  unfold creditExpire; (repeat' split) <;> simp

theorem execPendingCreditExpiry_power (p : Fin 64) (s s' : State) (ht : execPendingCreditExpiry p s = .next s') :
    s'.power = s.power := by
  cases ht; simp

theorem execTokenLockoutEnd_power (s s' : State) (ht : execTokenLockoutEnd s = .next s') : s'.power = s.power := by
  cases ht; exact whenDie_power _ _ fun t => by dsimp only; (repeat' split) <;> simp [*]

theorem execLedgerAgeOut_power (s s' : State) (ht : execLedgerAgeOut s = .next s') : s'.power = s.power := by
  cases ht; simp

@[simp] theorem tokenBad_power (s : State) : (tokenBad s).power = s.power := by simp [tokenBad]

@[simp] theorem creditPoint_power (p unit amount : Nat) (s : State) :
    (creditPoint p unit amount s).power = s.power := by
  unfold creditPoint; (repeat' split) <;> simp

@[simp] theorem tokenEnter_power (p n : Nat) (s : State) :
    (tokenEnter p n s).2.2.power = s.power := by simp [tokenEnter]

@[simp] theorem startClose_power (coinc : Bool) (s : State) :
    (startClose coinc s).power = s.power := by simp [startClose]

@[simp] theorem startElems_power (s : State) : (startElems s).power = s.power := by
  unfold startElems
  dsimp only
  exact foldl_power _ (fun t e => State.updElem_power _ _ _) _ _

@[simp] theorem startFresh_power (through : Bool) (mtk lt : Nat) (s : State) :
    (startFresh through mtk lt s).power = s.power := rfl

@[simp] theorem dieStart_power (held : Bool) (s : State) : (dieStart held s).power = s.power := by simp [dieStart]

theorem execSealedDieStart_power (vbatHeld : Bool) (s s' : State) (ht : execSealedDieStart vbatHeld s = .next s') :
    s'.power = s.power := by
  cases ht; simp

/-! ### PowerOps -/

@[simp] theorem countPt_power (p : Nat) (f : PtCount → PtCount) (s : State) :
    (countPt p f s).power = s.power := by simp [countPt]

/-! ### BridleOps -/

@[simp] theorem State.updBp_power (s : State) (p : Nat) (f : BrPt → BrPt) :
    (State.updBp s p f).power = s.power := by simp [State.updBp]

@[simp] theorem bridleStatus_power (s : State) : (bridleStatus s).power = s.power := by simp [bridleStatus]

@[simp] theorem note_power (kind unit : Nat) (data : Word) (s : State) :
    (note kind unit data s).power = s.power := by simp [note]

/-! ### GirthOps -/

@[simp] theorem girthAccept_power (port : Nat) (ctx : Option Nat) (kind unit hold : Nat) (s : State) :
    (girthAccept port ctx kind unit hold s).2.1.power = s.power := by
  unfold girthAccept; dsimp only; (repeat' split) <;> simp

@[simp] theorem girthSubmit_power (port : Nat) (ctx : Option Nat) (kind unit hold : Nat) (s : State) :
    (girthSubmit port ctx kind unit hold s).2.power = s.power := by simp [girthSubmit]

@[simp] theorem girthUsed_power (port : Nat) (ctx : Option Nat) (kind : Nat) (s : State) :
    (girthUsed port ctx kind s).power = s.power := by
  unfold girthUsed; dsimp only; (repeat' split) <;> simp

theorem girthRun_power (port : Nat) (l : List Nat) (s t : State) (h : girthRun port l s = some t) :
    t.power = s.power := by
  induction l generalizing s with
  | nil => cases h; rfl
  | cons k r ih =>
    unfold girthRun at h
    split at h
    · rw [ih _ h]; simp
    · cases h

@[simp] theorem underGrants_power (port : Nat) (kinds : List Nat) (f : State → Status × State) (s : State) (h_f : ∀  t, (f  t).2.power = t.power) :
    (underGrants port kinds f s).2.power = s.power := by
  unfold underGrants
  dsimp only
  split
  · exact h_f s
  · split
    · rfl
    · rename_i e; rw [h_f]; exact girthRun_power _ _ _ _ e

@[simp] theorem girthOrphan_power (slot : Nat) (s : State) :
    (girthOrphan slot s).power = s.power := by simp [girthOrphan]

/-! ### Outputs -/

@[simp] theorem powerWrite_power (f : State → State) (s : State) (h_f : ∀  t, (f  t).power = t.power) :
    (powerWrite f s).power = s.power := by
  unfold powerWrite; (repeat' split) <;> simp [*]

@[simp] theorem outFirmware_power (x : Nat) (f : State → State) (s : State) (h_f : ∀  t, (f  t).power = t.power) :
    (outFirmware x f s).power = s.power := by
  unfold outFirmware; (repeat' split) <;> simp [*]

/-! ### Bridle -/

@[simp] theorem State.updDev_power (s : State) (d : Nat) (f : Device → Device) :
    (State.updDev s d f).power = s.power := by simp [State.updDev]

@[simp] theorem edgePair_power (i : Nat) (s : State) : (edgePair i s).power = s.power := by
  unfold edgePair; dsimp only; (repeat' split) <;> simp

@[simp] theorem reclaimTake_power (hi : Bool) (v : Word) (s : State) :
    (reclaimTake hi v s).power = s.power := by simp [reclaimTake]

@[simp] theorem reclaimFront_power (l : List BrMsg) (s : State) : (reclaimFront l s).power = s.power := by
  induction l generalizing s with
  | nil => rfl
  | cons m r ih => cases m <;> first | rfl | simp [reclaimFront, ih]

@[simp] theorem takeReclaims_power (s : State) : (takeReclaims s).power = s.power := by
  unfold takeReclaims
  split
  · rfl
  · exact reclaimFront_power _ _

@[simp] theorem motionSample_power (d : Nat) (m : MotionSample) (s : State) :
    (motionSample d m s).power = s.power := by simp [motionSample]

@[simp] theorem State.updRx_power (s : State) (i : Nat) (f : SafeRx → SafeRx) :
    (State.updRx s i f).power = s.power := by simp [State.updRx]

@[simp] theorem discardPair_power (s : State) : (discardPair s).power = s.power := by simp [discardPair]

theorem execSafeMessageWindowExpiry_power (i : Fin 16) (s s' : State) (ht : execSafeMessageWindowExpiry i s = .next s') :
    s'.power = s.power := by
  cases ht; simp

theorem execSafeMessageTransmit_power (j : Fin 8) (s s' : State) (ht : execSafeMessageTransmit j s = .next s') :
    s'.power = s.power := by
  cases ht; simp

theorem execSafeMessageReadbackMissing_power (j : Fin 8) (onF1 : Bool) (s s' : State) (ht : execSafeMessageReadbackMissing j onF1 s = .next s') :
    s'.power = s.power := by
  cases ht; simp

@[simp] theorem bridleTake_power (ty : BitVec 8) (tag : Word) (f : State → Status × State) (s : State) (h_f : ∀  t, (f  t).2.power = t.power) :
    (bridleTake ty tag f s).power = s.power := by
  unfold bridleTake; dsimp only; (repeat' split) <;> simp [*]

@[simp] theorem newChallenge_power (s : State) : (newChallenge s).power = s.power := by simp [newChallenge]

@[simp] theorem noteAckMsg_power (seq : Word) (s : State) : (noteAckMsg seq s).2.power = s.power := by
  unfold noteAckMsg; dsimp only; (repeat' split) <;> simp

theorem execNoteAck_power (seq tag : Word) (s s' : State) (ht : execNoteAck seq tag s = .next s') :
    s'.power = s.power := by
  cases ht; simp

theorem execUnknownSafeMessage_power (ty : BitVec 8) (tag : Word) (s s' : State) (ht : execUnknownSafeMessage ty tag s = .next s') :
    s'.power = s.power := by
  cases ht; simp

@[simp] theorem holdWindowStart_power (s : State) : (holdWindowStart s).power = s.power := by simp [holdWindowStart]

@[simp] theorem reclaimWrite_power (hi : Bool) (v : Word) (s : State) :
    (reclaimWrite hi v s).power = s.power := by simp [reclaimWrite]

theorem execReclaim_power (hi : Bool) (v : Word) (s s' : State) (ht : execReclaim hi v s = .next s') :
    s'.power = s.power := by
  cases ht; simp

/-! ### Buckle -/

@[simp] theorem claimSource_power (n : Nat) (s : State) : (claimSource n s).power = s.power := by simp [claimSource]

@[simp] theorem bklClaim_power (t : Nat) (s : State) : (bklClaim t s).power = s.power := by simp [bklClaim]

theorem execBuckleClaim_power (t : Fin 18) (s s' : State) (ht : execBuckleClaim t s = .next s') :
    s'.power = s.power := by
  cases ht; simp

@[simp] theorem completeSource_power (t n : Nat) (s : State) :
    (completeSource t n s).power = s.power := by simp [completeSource]

@[simp] theorem bklComplete_power (t : Nat) (v : Word) (s : State) :
    (bklComplete t v s).power = s.power := by simp [bklComplete]

theorem execBuckleComplete_power (t : Fin 18) (v : Word) (s s' : State) (ht : execBuckleComplete t v s = .next s') :
    s'.power = s.power := by
  cases ht; simp

@[simp] theorem bklPendRead_power (port k : Nat) (s : State) :
    (bklPendRead port k s).power = s.power := by simp [bklPendRead]

theorem execBuckleCPendRead_power (port : Fin 24) (k : Fin 16) (s s' : State) (ht : execBuckleCPendRead port k s = .next s') :
    s'.power = s.power := by
  cases ht; simp

@[simp] theorem clearLatches_power (k : Nat) (m : Word) (s : State) :
    (clearLatches k m s).power = s.power := by simp [clearLatches]

@[simp] theorem bklPendWrite_power (port k : Nat) (v : Word) (s : State) :
    (bklPendWrite port k v s).power = s.power := by simp [bklPendWrite]

theorem execBuckleCPendWrite_power (port : Fin 24) (k : Fin 16) (v : Word) (s s' : State) (ht : execBuckleCPendWrite port k v s = .next s') :
    s'.power = s.power := by
  cases ht; simp

@[simp] theorem bklVec_power (t : Nat) (s : State) : (bklVec t s).power = s.power := by simp [bklVec]

theorem execBuckleCVecRead_power (t : Fin 18) (s s' : State) (ht : execBuckleCVecRead t s = .next s') :
    s'.power = s.power := by
  cases ht; simp

theorem execBucklePendClear_power (k : Fin 16) (v : Word) (s s' : State) (ht : execBucklePendClear k v s = .next s') :
    s'.power = s.power := by
  cases ht; simp

@[simp] theorem bklSwset_power (v : Word) (s : State) : (bklSwset v s).power = s.power := by simp [bklSwset]

theorem execBuckleSoftwareSet_power (v : Word) (s s' : State) (ht : execBuckleSoftwareSet v s = .next s') :
    s'.power = s.power := by
  cases ht; simp

@[simp] theorem bklCfgWrite_power (v : Word) (s : State) : (bklCfgWrite v s).power = s.power := by simp [bklCfgWrite]

theorem execBuckleCfgWrite_power (v : Word) (s s' : State) (ht : execBuckleCfgWrite v s = .next s') :
    s'.power = s.power := by
  cases ht; simp

theorem execBuckleSourceEdge_power (src : Fin 512) (s s' : State) (ht : execBuckleSourceEdge src s = .next s') :
    s'.power = s.power := by
  cases ht; simp

theorem execBuckleLevelChange_power (src : Fin 512) (level : Bool) (s s' : State) (ht : execBuckleLevelChange src level s = .next s') :
    s'.power = s.power := by
  cases ht; simp

@[simp] theorem transferSleep_power (s : State) : (transferSleep s).power = s.power := by simp [transferSleep]

@[simp] theorem wakeTarget_power (t : Nat) (s : State) : (wakeTarget t s).power = s.power := by simp [wakeTarget]

@[simp] theorem sleepWake_power (n : Nat) (s : State) : (sleepWake n s).power = s.power := by simp [sleepWake]

theorem execSleepLatchWake_power (src : Fin 512) (s s' : State) (ht : execSleepLatchWake src s = .next s') :
    s'.power = s.power := by
  cases ht; simp

@[simp] theorem bklSrcWrite_power (n : Nat) (v : Word) (s : State) :
    (bklSrcWrite n v s).power = s.power := by simp [bklSrcWrite]

/-! ### Metrology -/

@[simp] theorem updUsers_power (c : Nat) (f : Elem → Elem) (s : State) :
    (updUsers c f s).power = s.power := by simp [updUsers]

@[simp] theorem adcOverload_power (c : Nat) (code : BitVec 12) (repl : List (BitVec 12)) (s : State) :
    (adcOverload c code repl s).power = s.power := by simp [adcOverload]

theorem execAdcOverload_power (ch : Fin 80) (sar first : BitVec 12) (later : List (BitVec 12)) (s s' : State) (ht : execAdcOverload ch sar first later s = .next s') :
    s'.power = s.power := by
  cases ht; simp

theorem execGainRaise_power (ch : Fin 80) (s s' : State) (ht : execGainRaise ch s = .next s') : s'.power = s.power := by
  cases ht; simp

@[simp] theorem elemFault_power (e : Nat) (s : State) : (elemFault e s).power = s.power := by
  unfold elemFault; (repeat' split) <;> simp

@[simp] theorem chanFail_power (c : Nat) (s : State) : (chanFail c s).power = s.power := by simp [chanFail]

theorem execBitstreamModfail_power (b : Fin 64) (s s' : State) (ht : execBitstreamModfail b s = .next s') :
    s'.power = s.power := by
  cases ht; simp

@[simp] theorem State.updPls_power (s : State) (k : Nat) (f : Pulse → Pulse) :
    (State.updPls s k f).power = s.power := by simp [State.updPls]

@[simp] theorem pulseSync_power (k : Nat) (s : State) : (pulseSync k s).power = s.power := by simp [pulseSync]

@[simp] theorem pulseSyncAll_power (s : State) : (pulseSyncAll s).power = s.power := by simp [pulseSyncAll]

@[simp] theorem routeCycle_power (e : Nat) (c : CycleData) (s : State) : (routeCycle e c s).power = s.power := by
  unfold routeCycle; (repeat' split) <;> simp

@[simp] theorem cycleBoundary_power (e : Nat) (s : State) :
    (cycleBoundary e s).power = s.power := by simp [cycleBoundary]

@[simp] theorem refCycle_power (e ch : Nat) (v : Int) (cal raw : List Int) (overs : Nat) (s : State) :
    (refCycle e ch v cal raw overs s).power = s.power := by simp [refCycle]

@[simp] theorem cycleRms_power (e : Nat) (r : CycleRaw) (c : CycleData) (s : State) :
    (cycleRms e r c s).power = s.power := by simp [cycleRms]

@[simp] theorem closeCycle_power (e : Nat) (r : CycleRaw) (block short : Bool) (s : State) :
    (closeCycle e r block short s).power = s.power := by simp [closeCycle]

@[simp] theorem cycleEnd_power (e : Nat) (r : CycleRaw) (s : State) :
    (cycleEnd e r s).power = s.power := by simp [cycleEnd]

theorem execElementCycleEnd_power (e : Fin 128) (c : CycleRaw) (s s' : State) (ht : execElementCycleEnd e c s = .next s') :
    s'.power = s.power := by
  cases ht; simp

@[simp] theorem blockEntry_power (e : Nat) (r : CycleRaw) (s : State) :
    (blockEntry e r s).power = s.power := by simp [blockEntry]

theorem execBlockModeEntry_power (e : Fin 128) (c : CycleRaw) (s s' : State) (ht : execBlockModeEntry e c s = .next s') :
    s'.power = s.power := by
  cases ht; simp

@[simp] theorem blockReturn_power (e : Nat) (r : CycleRaw) (cycles : List CycleRaw) (s : State) :
    (blockReturn e r cycles s).power = s.power := by simp [blockReturn]

theorem execBlockModeReturn_power (x : BlockReturn) (s s' : State) (ht : execBlockModeReturn x s = .next s') :
    s'.power = s.power := by
  cases ht; simp

@[simp] theorem harmonicEnd_power (ch : Nat) (bins : List Nat) (s : State) :
    (harmonicEnd ch bins s).power = s.power := by simp [harmonicEnd]

theorem execHarmonicWindowEnd_power (ch : Fin 144) (re im : List Int) (s s' : State) (ht : execHarmonicWindowEnd ch re im s = .next s') :
    s'.power = s.power := by
  cases ht; simp

theorem execTemperatureBandSample_power (temp : Int) (s s' : State) (ht : execTemperatureBandSample temp s = .next s') :
    s'.power = s.power := by
  cases ht; simp

@[simp] theorem shadowDisagree_power (k : Nat) (s : State) :
    (shadowDisagree k s).power = s.power := by simp [shadowDisagree]

@[simp] theorem shadowAgree_power (k : Nat) (s : State) : (shadowAgree k s).power = s.power := by simp [shadowAgree]

@[simp] theorem shadowCheck_power (k c : Nat) (pass : Bool) (s : State) : (shadowCheck k c pass s).power = s.power := by
  unfold shadowCheck; dsimp only; (repeat' split) <;> simp

theorem execShadowCheckEnd_power (k : Fin 8) (ch : Fin 80) (x : Comparison) (s s' : State) (ht : execShadowCheckEnd k ch x s = .next s') :
    s'.power = s.power := by
  cases ht; simp

@[simp] theorem pulseDue_power (k : Nat) (s : State) : (pulseDue k s).power = s.power := by simp [pulseDue]

theorem execPulseDue_power (k : Fin 8) (s s' : State) (ht : execPulseDue k s = .next s') : s'.power = s.power := by
  cases ht; simp

@[simp] theorem pulseEnd_power (k : Nat) (s : State) : (pulseEnd k s).power = s.power := by simp [pulseEnd]

theorem execPulseOnTimeEnd_power (k : Fin 8) (s s' : State) (ht : execPulseOnTimeEnd k s = .next s') :
    s'.power = s.power := by
  cases ht; simp

@[simp] theorem sliceEnd_power (e : Nat) (c : CycleRaw) (s : State) :
    (sliceEnd e c s).power = s.power := by simp [sliceEnd]

theorem execSliceEnd_power (e : Fin 128) (c : CycleRaw) (s s' : State) (ht : execSliceEnd e c s = .next s') :
    s'.power = s.power := by
  cases ht; simp

theorem execResidueUpdate_power (e : Fin 128) (c : CycleRaw) (s s' : State) (ht : execResidueUpdate e c s = .next s') :
    s'.power = s.power := by
  cases ht; simp

theorem execPeriodicCommit_power (s s' : State) (ht : execPeriodicCommit s = .next s') : s'.power = s.power := by
  cases ht; simp

@[simp] theorem metrologyAnswer_power (role : Role) (kind part unit : Nat) (s : State) :
    (metrologyAnswer role kind part unit s).2.power = s.power := by
  unfold metrologyAnswer; (repeat' split) <;> simp

theorem execMetrologyRead_power (rq : Rq) (kind part : BitVec 8) (unit : BitVec 16) (s s' : State) (ht : execMetrologyRead rq kind part unit s = .next s') :
    s'.power = s.power := by
  cases ht; simp

@[simp] theorem State.staged_power (s : State) : (State.staged s).power = s.power := by simp [State.staged]

@[simp] theorem paramWrite_power (role : Role) (idx sub : Nat) (data : List Byte) (s : State) :
    (paramWrite role idx sub data s).2.power = s.power := by
  unfold paramWrite; dsimp only; (repeat' split) <;> simp

theorem execSealParameterWrite_power (rq : Rq) (idx : BitVec 16) (sub : BitVec 8) (data : List Byte) (s s' : State) (ht : execSealParameterWrite rq idx sub data s = .next s') :
    s'.power = s.power := by
  cases ht; exact whenDie_power _ _ fun t => by simp; (repeat' split) <;> simp

@[simp] theorem sealOpen_power (sel : BitVec 144) (s : State) : (sealOpen sel s).2.power = s.power := by
  unfold sealOpen; dsimp only; (repeat' split) <;> simp

theorem execSealOpen_power (rq : Rq) (sel : BitVec 144) (s s' : State) (ht : execSealOpen rq sel s = .next s') :
    s'.power = s.power := by
  cases ht; exact whenDie_power _ _ fun t => by simp; (repeat' split) <;> simp

@[simp] theorem recheck_power (c : Nat) (s : State) : (recheck c s).power = s.power := by simp [recheck]

@[simp] theorem sealCommit_power (pass : BitVec 144) (s : State) : (sealCommit pass s).2.power = s.power := by
  unfold sealCommit; (repeat' split) <;> simp

theorem execSealCloseCommit_power (rq : Rq) (recheckPass : BitVec 144) (s s' : State) (ht : execSealCloseCommit rq recheckPass s = .next s') :
    s'.power = s.power := by
  cases ht; exact whenDie_power _ _ fun t => by simp; (repeat' split) <;> simp

@[simp] theorem sealClose_power (s : State) : (sealClose s).2.power = s.power := by
  unfold sealClose; (repeat' split) <;> simp

theorem execSealCloseAbandon_power (rq : Rq) (s s' : State) (ht : execSealCloseAbandon rq s = .next s') :
    s'.power = s.power := by
  cases ht; exact whenDie_power _ _ fun t => by simp; (repeat' split) <;> simp

theorem execSealTimeout_power (s s' : State) (ht : execSealTimeout s = .next s') : s'.power = s.power := by
  cases ht; simp

/-! ### SealedObjects -/

@[simp] theorem sealedSession_power (role : Role) (idx sub serial : Nat) (s : State) :
    (sealedSession role idx sub serial s).2.2.power = s.power := by
  unfold sealedSession; dsimp only; (repeat' split) <;> simp

@[simp] theorem sealedRead_power (role : Role) (idx sub serial : Nat) (s : State) :
    (sealedRead role idx sub serial s).2.2.power = s.power := by
  unfold sealedRead; (repeat' split) <;> simp

theorem execSealedObjectRead_power (rq : Rq) (idx : BitVec 16) (sub : BitVec 8) (off len : Nat) (serial : BitVec 64) (s s' : State) (ht : execSealedObjectRead rq idx sub off len serial s = .next s') :
    s'.power = s.power := by
  cases ht; simp

@[simp] theorem onTimeWrite_power (idx : Nat) (data : List Byte) (s : State) :
    (onTimeWrite idx data s).2.power = s.power := by
  unfold onTimeWrite; (repeat' split) <;> simp

@[simp] theorem sealCloseWrite_power (n : Nat) (s : State) : (sealCloseWrite n s).2.power = s.power := by
  unfold sealCloseWrite; (repeat' split) <;> simp

@[simp] theorem sealedApply_power (role : Role) (idx sub : Nat) (data : List Byte) (s : State) :
    (sealedApply role idx sub data s).2.power = s.power := by
  unfold sealedApply; dsimp only; (repeat' split) <;> simp

@[simp] theorem sealedWrite_power (role : Role) (idx sub : Nat) (data : List Byte) (s : State) :
    (sealedWrite role idx sub data s).2.power = s.power := by
  unfold sealedWrite; (repeat' split) <;> simp

theorem execSealedObjectWrite_power (rq : Rq) (idx : BitVec 16) (sub : BitVec 8) (off total : Nat) (data : List Byte) (s s' : State) (ht : execSealedObjectWrite rq idx sub off total data s = .next s') :
    s'.power = s.power := by
  unfold execSealedObjectWrite at ht
  have ht := Host.Outcome.next.inj ht; subst ht
  refine whenDie_power _ _ (fun t => ?_)
  dsimp only
  rw [objReply_power]
  split
  · rfl
  have k := stagePart_power idx.toNat sub.toNat off total data t
  split <;> rename_i e <;> rw [e] at k
  · rw [sealedWrite_power]; exact k
  · exact k

/-! ### Panels -/

@[simp] theorem State.updPanel_power (s : State) (m : Nat) (f : Panel → Panel) :
    (State.updPanel s m f).power = s.power := by simp [State.updPanel]

@[simp] theorem panelNotice_power (m : Nat) (s : State) : (panelNotice m s).power = s.power := by simp [panelNotice]

@[simp] theorem panelTo_power (m : Nat) (st : PanelSt) (s : State) :
    (panelTo m st s).power = s.power := by simp [panelTo]

@[simp] theorem clearFrames_power (m : Nat) (s : State) : (clearFrames m s).power = s.power := by simp [clearFrames]

@[simp] theorem panelRequest_power (m : Nat) (s : State) : (panelRequest m s).power = s.power := by simp [panelRequest]

@[simp] theorem panelEnableSet_power (m : Nat) (s : State) :
    (panelEnableSet m s).power = s.power := by simp [panelEnableSet]

theorem execPanelClearRequestRetry_power (m : Fin 2) (s s' : State) (ht : execPanelClearRequestRetry m s = .next s') :
    s'.power = s.power := by
  cases ht; simp

@[simp] theorem clearUnderLedger_power (m : Nat) (s : State) :
    (clearUnderLedger m s).power = s.power := by simp [clearUnderLedger]

@[simp] theorem linesDue_power (m y h : Nat) (s : State) : (linesDue m y h s).power = s.power := by simp [linesDue]

@[simp] theorem putRect_power (m x y w h : Nat) (v : Nat → Nat → Byte) (s : State) :
    (putRect m x y w h v s).power = s.power := by simp [putRect]

@[simp] theorem entryDue_power (m : Nat) (e : Byte) (s : State) : (entryDue m e s).power = s.power := by simp [entryDue]

theorem execBlinkHalfPeriod_power (m : Fin 2) (entry : BitVec 8) (s s' : State) (ht : execBlinkHalfPeriod m entry s = .next s') :
    s'.power = s.power := by
  cases ht; simp

@[simp] theorem rolloverCheck_power (m : Nat) (s : State) : (rolloverCheck m s).power = s.power := by
  unfold rolloverCheck; (repeat' split) <;> simp

theorem execLegalRegionRedraw_power (m : Fin 2) (s s' : State) (ht : execLegalRegionRedraw m s = .next s') :
    s'.power = s.power := by
  cases ht; simp

theorem execSealBorderAdvance_power (m : Fin 2) (s s' : State) (ht : execSealBorderAdvance m s = .next s') :
    s'.power = s.power := by
  cases ht; simp

@[simp] theorem geomWrite_power (role : Role) (m x y w h : Nat) (s : State) :
    (geomWrite role m x y w h s).2.power = s.power := by
  unfold geomWrite; (repeat' split) <;> simp

@[simp] theorem ovReply_power (tag : Word) (op m : Nat) (r : Status × State) :
    (ovReply tag op m r).power = r.2.power := by simp [ovReply]

theorem execLegalRegionGeometryWrite_power (rq : Rq) (m : Fin 2) (x y w h : Nat) (s s' : State) (ht : execLegalRegionGeometryWrite rq m x y w h s = .next s') :
    s'.power = s.power := by
  cases ht; simp

theorem execOverlayWrite_power (rq : Rq) (m : Fin 2) (x y w h : Nat) (data : List Byte) (s s' : State) (ht : execOverlayWrite rq m x y w h data s = .next s') :
    s'.power = s.power := by
  cases ht; simp

theorem execOverlayFill_power (rq : Rq) (m : Fin 2) (x y w h : Nat) (index : BitVec 8) (s s' : State) (ht : execOverlayFill rq m x y w h index s = .next s') :
    s'.power = s.power := by
  cases ht; simp

theorem execPaletteWrite_power (rq : Rq) (m : Fin 2) (first : Nat) (rgb : List (BitVec 24)) (s s' : State) (ht : execPaletteWrite rq m first rgb s = .next s') :
    s'.power = s.power := by
  cases ht; simp

theorem execBlinkSet_power (rq : Rq) (m : Fin 2) (index partner : BitVec 8) (half : Nat) (enable : Bool) (s s' : State) (ht : execBlinkSet rq m index partner half enable s = .next s') :
    s'.power = s.power := by
  cases ht; simp

@[simp] theorem termReply_power (tag : Word) (op : Nat) (st : Status) (idx sub : Nat) (data : List Byte) (s : State) :
    (termReply tag op st idx sub data s).power = s.power := by simp [termReply]

theorem execTerminalObjectRead_power (rq : Rq) (idx : BitVec 16) (sub : BitVec 8) (s s' : State) (ht : execTerminalObjectRead rq idx sub s = .next s') :
    s'.power = s.power := by
  cases ht; simp

theorem execPanelStatusQuery_power (rq : Rq) (m : Fin 2) (s s' : State) (ht : execPanelStatusQuery rq m s = .next s') :
    s'.power = s.power := by
  cases ht; simp

@[simp] theorem State.updKey_power (s : State) (f : Keypad → Keypad) :
    (State.updKey s f).power = s.power := by simp [State.updKey]

@[simp] theorem keyNotice_power (kind : Nat) (p : Option Nat) (s : State) :
    (keyNotice kind p s).power = s.power := by simp [keyNotice]

@[simp] theorem keyDigit_power (d : Nat) (s : State) : (keyDigit d s).power = s.power := by
  unfold keyDigit; dsimp only; (repeat' split) <;> simp

theorem execKeyDigit_power (d : Fin 10) (s s' : State) (ht : execKeyDigit d s = .next s') : s'.power = s.power := by
  cases ht; simp

@[simp] theorem keyAccept_power (s : State) : (keyAccept s).power = s.power := by
  unfold keyAccept; dsimp only; (repeat' split) <;> simp

theorem execKeyAccept_power (s s' : State) (ht : execKeyAccept s = .next s') : s'.power = s.power := by
  cases ht; simp

theorem execKeyDelete_power (s s' : State) (ht : execKeyDelete s = .next s') : s'.power = s.power := by
  cases ht; simp

@[simp] theorem keyCancel_power (s : State) : (keyCancel s).power = s.power := by
  unfold keyCancel; (repeat' split) <;> simp

theorem execKeyCancel_power (s s' : State) (ht : execKeyCancel s = .next s') : s'.power = s.power := by
  cases ht; simp

theorem execKeyStop_power (s s' : State) (ht : execKeyStop s = .next s') : s'.power = s.power := by
  cases ht; simp

@[simp] theorem keyStar_power (s : State) : (keyStar s).power = s.power := by simp [keyStar]

theorem execKeyStar_power (s s' : State) (ht : execKeyStar s = .next s') : s'.power = s.power := by
  cases ht; simp

theorem execKeypadEntryTimeout_power (s s' : State) (ht : execKeypadEntryTimeout s = .next s') :
    s'.power = s.power := by
  cases ht; simp

/-! ### Mailbox -/

@[simp] theorem State.updPair_power (s : State) (m : Nat) (f : PairMbx → PairMbx) :
    (State.updPair s m f).power = s.power := by simp [State.updPair]

@[simp] theorem pairPut_power (m : Nat) (msg : List Word) (s : State) : (pairPut m msg s).2.power = s.power := by
  unfold pairPut; (repeat' split) <;> simp

@[simp] theorem pairWrite_power (port m i : Nat) (v : Word) (s : State) :
    (pairWrite port m i v s).power = s.power := by simp [pairWrite]

theorem execPairMailboxCommit_power (port : Fin 24) (m : Fin 20) (v : Word) (s s' : State) (ht : execPairMailboxCommit port m v s = .next s') :
    s'.power = s.power := by
  cases ht; simp

@[simp] theorem pairRead_power (m i : Nat) (s : State) : (pairRead m i s).power = s.power := by
  unfold pairRead; (repeat' split) <;> simp

theorem execPairMailboxRemove_power (_port : Fin 24) (m : Fin 20) (s s' : State) (ht : execPairMailboxRemove _port m s = .next s') :
    s'.power = s.power := by
  cases ht; simp

@[simp] theorem State.updHub_power (s : State) (h : Nat) (f : HubMbx → HubMbx) :
    (State.updHub s h f).power = s.power := by simp [State.updHub]

@[simp] theorem hubAcquire_power (port h : Nat) (s : State) : (hubAcquire port h s).power = s.power := by
  unfold hubAcquire; dsimp only; (repeat' split) <;> simp

theorem execHubMailboxAcquire_power (port : Fin 24) (h : Fin 8) (s s' : State) (ht : execHubMailboxAcquire port h s = .next s') :
    s'.power = s.power := by
  cases ht; simp

@[simp] theorem hubWrite_power (port h i : Nat) (v : Word) (s : State) :
    (hubWrite port h i v s).power = s.power := by simp [hubWrite]

theorem execHubMailboxCommit_power (port : Fin 24) (h : Fin 8) (v : Word) (s s' : State) (ht : execHubMailboxCommit port h v s = .next s') :
    s'.power = s.power := by
  cases ht; simp

@[simp] theorem hubRelease_power (port h : Nat) (s : State) :
    (hubRelease port h s).power = s.power := by simp [hubRelease]

theorem execHubMailboxRelease_power (port : Fin 24) (h : Fin 8) (s s' : State) (ht : execHubMailboxRelease port h s = .next s') :
    s'.power = s.power := by
  cases ht; simp

@[simp] theorem keeperTimeout_power (h : Nat) (s : State) :
    (keeperTimeout h s).power = s.power := by simp [keeperTimeout]

theorem execKeeperTimeout_power (h : Fin 8) (s s' : State) (ht : execKeeperTimeout h s = .next s') :
    s'.power = s.power := by
  cases ht; simp

@[simp] theorem hubRead_power (port h i : Nat) (s : State) : (hubRead port h i s).power = s.power := by
  unfold hubRead; dsimp only; (repeat' split) <;> simp

theorem execHubMailboxRemove_power (port : Fin 24) (h : Fin 8) (s s' : State) (ht : execHubMailboxRemove port h s = .next s') :
    s'.power = s.power := by
  cases ht; simp

@[simp] theorem mbxCtrlRead_power (s : State) : (mbxCtrlRead s).power = s.power := by simp [mbxCtrlRead]

theorem execMbxDroppedRead_power (s s' : State) (ht : execMbxDroppedRead s = .next s') : s'.power = s.power := by
  cases ht; simp

/-! ### Values -/

@[simp] theorem State.setObj_power (s : State) (idx sub : Nat) (v : List Byte) :
    (State.setObj s idx sub v).power = s.power := by simp [State.setObj]

@[simp] theorem State.setVol_power (s : State) (idx sub : Nat) (v : List Byte) :
    (State.setVol s idx sub v).power = s.power := by simp [State.setVol]

/-! ### Rein -/

@[simp] theorem putCtx_power (slot : Nat) (f : Ctx → Ctx) (s : State) :
    (putCtx slot f s).power = s.power := by simp [putCtx]

@[simp] theorem completeSources_power (l : List Nat) (s : State) :
    (completeSources l s).power = s.power := by simp [completeSources]

@[simp] theorem completeDelivered_power (slot : Nat) (s : State) :
    (completeDelivered slot s).power = s.power := by simp [completeDelivered]

@[simp] theorem completeLevels_power (slot : Nat) (s : State) :
    (completeLevels slot s).power = s.power := by simp [completeLevels]

@[simp] theorem ctxBytes_power (slot off : Nat) (b : List Byte) (s : State) :
    (ctxBytes slot off b s).power = s.power := by simp [ctxBytes]

@[simp] theorem claimFor_power (n slot k : Nat) (s : State) :
    (claimFor n slot k s).power = s.power := by simp [claimFor]

@[simp] theorem claimMisroute_power (e n : Nat) (s : State) :
    (claimMisroute e n s).power = s.power := by simp [claimMisroute]

@[simp] theorem reinClaim_power (e : Nat) (s : State) : (reinClaim e s).power = s.power := by
  unfold reinClaim; dsimp only; (repeat' split) <;> simp

theorem execReinSourceClaim_power (e : Fin 8) (s s' : State) (ht : execReinSourceClaim e s = .next s') :
    s'.power = s.power := by
  cases ht; simp

@[simp] theorem reinStash_power (e : Nat) (s : State) : (reinStash e s).power = s.power := by
  unfold reinStash; (repeat' split) <;> simp

theorem execReinMailboxStash_power (e : Fin 8) (s s' : State) (ht : execReinMailboxStash e s = .next s') :
    s'.power = s.power := by
  cases ht; simp

@[simp] theorem deliver_power (e k : Nat) (s : State) : (deliver e k s).power = s.power := by simp [deliver]

@[simp] theorem reinActivate_power (e : Nat) (s : State) : (reinActivate e s).power = s.power := by
  unfold reinActivate; (repeat' split) <;> simp

theorem execReinActivation_power (e : Fin 8) (s s' : State) (ht : execReinActivation e s = .next s') :
    s'.power = s.power := by
  cases ht; simp

@[simp] theorem endActivation_power (e slot : Nat) (s : State) :
    (endActivation e slot s).power = s.power := by simp [endActivation]

@[simp] theorem sesDone_power (e : Nat) (s : State) : (sesDone e s).power = s.power := by
  unfold sesDone; (repeat' split) <;> simp

@[simp] theorem commitNotices_power (e n : Nat) (s : State) : (commitNotices e n s).power = s.power := by
  induction n generalizing s with
  | zero => rfl
  | succ n ih => simp only [commitNotices]; (repeat' split) <;> simp [ih]

@[simp] theorem ctxTrap_power (e cause : Nat) (val : Word) (s : State) : (ctxTrap e cause val s).power = s.power := by
  unfold ctxTrap; (repeat' split) <;> simp

theorem execBudgetExhausted_power (e : Fin 8) (s s' : State) (ht : execBudgetExhausted e s = .next s') :
    s'.power = s.power := by
  cases ht; simp

theorem execTrapNoticeCommit_power (e : Fin 8) (s s' : State) (ht : execTrapNoticeCommit e s = .next s') :
    s'.power = s.power := by
  cases ht; simp

@[simp] theorem postCode_power (e k : Nat) (code : Byte) (s : State) : (postCode e k code s).2.power = s.power := by
  unfold postCode; dsimp only; (repeat' split) <;> simp

@[simp] theorem sesPost_power (e : Nat) (v : Word) (s : State) : (sesPost e v s).power = s.power := by
  unfold sesPost; (repeat' split) <;> simp

theorem execSesPost_power (e : Fin 8) (v : Word) (s s' : State) (ht : execSesPost e v s = .next s') :
    s'.power = s.power := by
  cases ht; simp

@[simp] theorem sesPostr_power (port e : Nat) (v : Word) (s : State) : (sesPostr port e v s).power = s.power := by
  unfold sesPostr; (repeat' split) <;> simp

theorem execSesPostr_power (port : Fin 24) (e : Fin 8) (v : Word) (s s' : State) (ht : execSesPostr port e v s = .next s') :
    s'.power = s.power := by
  cases ht; simp

@[simp] theorem evTake_power (e : Nat) (v : Word) (s : State) : (evTake e v s).power = s.power := by
  unfold evTake; (repeat' split) <;> simp

theorem execEvTake_power (e : Fin 8) (v : Word) (s s' : State) (ht : execEvTake e v s = .next s') :
    s'.power = s.power := by
  cases ht; simp

@[simp] theorem timerExpiry_power (slot : Nat) (s : State) :
    (timerExpiry slot s).power = s.power := by simp [timerExpiry]

theorem execReinTimerExpiry_power (slot : Fin 256) (s s' : State) (ht : execReinTimerExpiry slot s = .next s') :
    s'.power = s.power := by
  unfold execReinTimerExpiry at ht
  have ht := Host.Outcome.next.inj ht; subst ht
  first
  | ((repeat' split) <;> simp; done)
  | (dsimp only; done)
  | (dsimp only; (repeat' split) <;> simp; done)
  | (dsimp only; (repeat' split) <;> simp [*]; done)
  | ((repeat' split) <;> simp [*]; done)
  | exact whenDie_power _ _ (fun t => by first | (dsimp only; (repeat' split) <;> simp [*]; done) | (simp; (repeat' split) <;> simp; done))
  | (split <;> first | rfl | exact whenDie_power _ _ (fun t => by dsimp only; (repeat' split) <;> simp [*]))

@[simp] theorem ctxRestart_power (slot : Nat) (s : State) : (ctxRestart slot s).2.power = s.power := by
  unfold ctxRestart; dsimp only; (repeat' split) <;> simp

@[simp] theorem ctxFree_power (slot : Nat) (s : State) : (ctxFree slot s).2.power = s.power := by
  unfold ctxFree; dsimp only; (repeat' split) <;> simp

@[simp] theorem ctxSetRole_power (slot r : Nat) (s : State) : (ctxSetRole slot r s).2.power = s.power := by
  unfold ctxSetRole; dsimp only; (repeat' split) <;> simp

@[simp] theorem putCmdSt_power (port e : Nat) (x : Nat × Nat × Status) (s : State) :
    (putCmdSt port e x s).power = s.power := by
  unfold putCmdSt; (repeat' split) <;> simp

@[simp] theorem sesUseRead_power (slot : Nat) (s : State) : (sesUseRead slot s).power = s.power := by simp [sesUseRead]

theorem execSesUseRead_power (slot : Fin 256) (s s' : State) (ht : execSesUseRead slot s = .next s') :
    s'.power = s.power := by
  cases ht; simp

@[simp] theorem engineReset_power (e : Nat) (s : State) : (engineReset e s).power = s.power := by
  unfold engineReset
  dsimp only
  rw [foldl_power _ (fun t i => State.updCtx_power t i _), foldl_power _ (fun t i => by rw [girthOrphan_power, completeLevels_power])]

/-! ### Sessions -/

@[simp] theorem State.updVs_power (s : State) (slot : Nat) (f : VSess → VSess) :
    (State.updVs s slot f).power = s.power := by simp [State.updVs]

@[simp] theorem setPhase_power (slot v : Nat) (s : State) : (setPhase slot v s).power = s.power := by simp [setPhase]

@[simp] theorem setReason_power (slot v : Nat) (s : State) : (setReason slot v s).power = s.power := by simp [setReason]

@[simp] theorem setTimer_power (slot ht : Nat) (s : State) : (setTimer slot ht s).power = s.power := by simp [setTimer]

@[simp] theorem withSession_power (p : Nat) (f : Nat → State → State) (s : State) (h_f : ∀ x0 t, (f x0 t).power = t.power) :
    (withSession p f s).power = s.power := by
  unfold withSession; (repeat' split) <;> simp [*]

@[simp] theorem publish_power (p v : Nat) (i : Int) (en : Bool) (s : State) :
    (publish p v i en s).power = s.power := by simp [publish]

@[simp] theorem setpointOff_power (p : Nat) (s : State) : (setpointOff p s).power = s.power := by simp [setpointOff]

@[simp] theorem fwSend_power (cls : Nat) (tag : Word) (b : List Byte) (s : State) :
    (fwSend cls tag b s).power = s.power := by simp [fwSend]

@[simp] theorem sessionNotice_power (kind slot reason : Nat) (s : State) :
    (sessionNotice kind slot reason s).power = s.power := by simp [sessionNotice]

@[simp] theorem closeRecord_power (slot : Nat) (s : State) :
    (closeRecord slot s).power = s.power := by simp [closeRecord]

@[simp] theorem toClosing_power (slot reason : Nat) (tell : Bool) (s : State) :
    (toClosing slot reason tell s).power = s.power := by simp [toClosing]

@[simp] theorem State.updVp_power (s : State) (k : Nat) (f : VPort → VPort) :
    (State.updVp s k f).power = s.power := by simp [State.updVp]

@[simp] theorem freeCmd_power (port slot : Nat) (s : State) :
    (freeCmd port slot s).2.power = s.power := by simp [freeCmd]

@[simp] theorem recordSigned_power (slot : Nat) (s : State) :
    (recordSigned slot s).power = s.power := by simp [recordSigned]

@[simp] theorem cardAuth_power (uid : List Byte) (s : State) : (cardAuth uid s).power = s.power := by
  unfold cardAuth; (repeat' split) <;> simp

@[simp] theorem termSelect_power (p : Option Nat) (s : State) : (termSelect p s).power = s.power := by simp [termSelect]

@[simp] theorem sessionsRelinked_power (s : State) : (sessionsRelinked s).power = s.power := by simp [sessionsRelinked]

/-! ### Readers -/

@[simp] theorem laneLevel_power (n : Nat) (b : Bool) (s : State) :
    (laneLevel n b s).power = s.power := by simp [laneLevel]

/-! ### Girth -/

@[simp] theorem girthReqWrite_power (port : Nat) (v : Word) (s : State) :
    (girthReqWrite port v s).power = s.power := by simp [girthReqWrite]

theorem execGirthRequest_power (port : Fin 24) (v : Word) (s s' : State) (ht : execGirthRequest port v s = .next s') :
    s'.power = s.power := by
  cases ht; simp

@[simp] theorem girthSignal_power (r : GirthReq) (s : State) : (girthSignal r s).power = s.power := by
  unfold girthSignal; (repeat' split) <;> simp

@[simp] theorem girthMark_power (r : GirthReq) (st : Nat) (s : State) :
    (girthMark r st s).power = s.power := by simp [girthMark]

@[simp] theorem girthRelWrite_power (port : Nat) (v : Word) (s : State) :
    (girthRelWrite port v s).power = s.power := by simp [girthRelWrite]

theorem execGirthRelease_power (port : Fin 24) (v : Word) (s s' : State) (ht : execGirthRelease port v s = .next s') :
    s'.power = s.power := by
  unfold execGirthRelease at ht
  have ht := Host.Outcome.next.inj ht; subst ht
  first
  | ((repeat' split) <;> simp; done)
  | (dsimp only; done)
  | (dsimp only; (repeat' split) <;> simp; done)
  | (dsimp only; (repeat' split) <;> simp [*]; done)
  | ((repeat' split) <;> simp [*]; done)
  | exact whenDie_power _ _ (fun t => by first | (dsimp only; (repeat' split) <;> simp [*]; done) | (simp; (repeat' split) <;> simp; done))
  | (split <;> first | rfl | exact whenDie_power _ _ (fun t => by dsimp only; (repeat' split) <;> simp [*]))

theorem execGirthHoldExpiry_power (ticket : BitVec 16) (s s' : State) (ht : execGirthHoldExpiry ticket s = .next s') :
    s'.power = s.power := by
  cases ht; simp

theorem execUnitOffReport_power (kind : Fin 16) (unit : Nat) (s s' : State) (ht : execUnitOffReport kind unit s = .next s') :
    s'.power = s.power := by
  cases ht; simp

@[simp] theorem girthDerate_power (temp : Int) (s : State) :
    (girthDerate temp s).power = s.power := by simp [girthDerate]

theorem execGirthDerateSample_power (temp : Int) (s s' : State) (ht : execGirthDerateSample temp s = .next s') :
    s'.power = s.power := by
  cases ht; simp

@[simp] theorem girthShareWrite_power (c : Nat) (v : Word) (s : State) :
    (girthShareWrite c v s).power = s.power := by simp [girthShareWrite]

theorem execGirthShareWrite_power (c : Fin 3) (v : Word) (s s' : State) (ht : execGirthShareWrite c v s = .next s') :
    s'.power = s.power := by
  cases ht; simp

@[simp] theorem girthCtrlWrite_power (v : Word) (s : State) :
    (girthCtrlWrite v s).power = s.power := by simp [girthCtrlWrite]

@[simp] theorem girthCostWrite_power (k i : Nat) (v : Word) (s : State) : (girthCostWrite k i v s).power = s.power := by
  unfold girthCostWrite; (repeat' split) <;> simp

@[simp] theorem girthRebuild_power (s : State) : (girthRebuild s).power = s.power := by simp [girthRebuild]

theorem execGirthRebuild_power (s s' : State) (ht : execGirthRebuild s = .next s') : s'.power = s.power := by
  cases ht; simp

@[simp] theorem girthBypassRead_power (s : State) : (girthBypassRead s).power = s.power := by simp [girthBypassRead]

theorem execGrtBypassRead_power (s s' : State) (ht : execGrtBypassRead s = .next s') : s'.power = s.power := by
  cases ht; simp

@[simp] theorem girthBypass_power (s : State) : (girthBypass s).power = s.power := by simp [girthBypass]

/-! ### CanOps -/

@[simp] theorem State.updPort_power (s : State) (x : Nat) (f : FieldPort → FieldPort) :
    (State.updPort s x f).power = s.power := by simp [State.updPort]

@[simp] theorem canSend_power (x : Nat) (f : CanFrame) (s : State) :
    (canSend x f s).power = s.power := by simp [canSend]

@[simp] theorem canFlush_power (x : Nat) (s : State) : (canFlush x s).power = s.power := by simp [canFlush]

@[simp] theorem emcy_power (x : Nat) (code : Nat) (b3 : Byte) (s : State) :
    (emcy x code b3 s).power = s.power := by simp [emcy]

@[simp] theorem canResume_power (x : Nat) (s : State) : (canResume x s).power = s.power := by simp [canResume]

@[simp] theorem canErrors_power (x : Nat) (s : State) : (canErrors x s).power = s.power := by simp [canErrors]

@[simp] theorem canConfine_power (x : Nat) (s : State) : (canConfine x s).power = s.power := by simp [canConfine]

@[simp] theorem emcyBoth_power (code : Nat) (b3 : Byte) (s : State) :
    (emcyBoth code b3 s).power = s.power := by simp [emcyBoth]

/-! ### Links -/

@[simp] theorem linkBeat_power (d : Side) (s : State) : (linkBeat d s).power = s.power := by simp [linkBeat]

@[simp] theorem slQueue_power (l : List LinkMsg) (s : State) : (slQueue l s).power = s.power := by simp [slQueue]

@[simp] theorem linkTake_power (d : Side) (m : LinkMsg) (s : State) : (linkTake d m s).power = s.power := by
  unfold linkTake; (repeat' split) <;> simp

@[simp] theorem State.updSl_power (s : State) (port : Nat) (f : SlPort → SlPort) :
    (State.updSl s port f).power = s.power := by simp [State.updSl]

@[simp] theorem slSend_power (port : Nat) (v : Word) (s : State) : (slSend port v s).power = s.power := by simp [slSend]

theorem execSealedLinkSend_power (port : Fin 24) (v : Word) (s s' : State) (ht : execSealedLinkSend port v s = .next s') :
    s'.power = s.power := by
  cases ht; simp

@[simp] theorem laneFault_power (s : State) : (laneFault s).power = s.power := by simp [laneFault]

@[simp] theorem laneEvent_power (crcOk : Bool) (src : Nat) (s : State) :
    (laneEvent crcOk src s).power = s.power := by simp [laneEvent]

theorem execAppLaneEventFrame_power (crcOk : Bool) (src : Fin 512) (s s' : State) (ht : execAppLaneEventFrame crcOk src s = .next s') :
    s'.power = s.power := by
  cases ht; simp

/-! ### Plc -/

@[simp] theorem State.updPlc_power (s : State) (n : Nat) (f : PlcCh → PlcCh) :
    (State.updPlc s n f).power = s.power := by simp [State.updPlc]

@[simp] theorem plcTake_power (n : Nat) (s : State) : (plcTake n s).power = s.power := by
  unfold plcTake; dsimp only; (repeat' split) <;> simp

@[simp] theorem plcStart_power (n : Nat) (v : Word) (s : State) : (plcStart n v s).power = s.power := by simp [plcStart]

theorem execPlcStart_power (n : Fin 66) (v : Word) (s s' : State) (ht : execPlcStart n v s = .next s') :
    s'.power = s.power := by
  cases ht; simp

@[simp] theorem plcStop_power (n : Nat) (s : State) : (plcStop n s).power = s.power := by simp [plcStop]

theorem execPlcStop_power (n : Fin 66) (s s' : State) (ht : execPlcStop n s = .next s') : s'.power = s.power := by
  cases ht; simp

@[simp] theorem plcOff_power (n : Nat) (s : State) : (plcOff n s).power = s.power := by simp [plcOff]

theorem execPlcStoppingEnd_power (n : Fin 66) (s s' : State) (ht : execPlcStoppingEnd n s = .next s') :
    s'.power = s.power := by
  cases ht; simp

@[simp] theorem plcHalt_power (s : State) : (plcHalt s).power = s.power := by simp [plcHalt]

@[simp] theorem plcReslac_power (n : Nat) (s : State) : (plcReslac n s).power = s.power := by simp [plcReslac]

theorem execPlcReslac_power (n : Fin 66) (s s' : State) (ht : execPlcReslac n s = .next s') : s'.power = s.power := by
  cases ht; simp

@[simp] theorem beacon_power (n : Nat) (s : State) : (beacon n s).power = s.power := by simp [beacon]

theorem execBeacon_power (n : Fin 66) (s s' : State) (ht : execBeacon n s = .next s') : s'.power = s.power := by
  cases ht; simp

@[simp] theorem plcLinkLost_power (n : Nat) (s : State) : (plcLinkLost n s).power = s.power := by simp [plcLinkLost]

theorem execPlcLinkLost_power (n : Fin 66) (s s' : State) (ht : execPlcLinkLost n s = .next s') :
    s'.power = s.power := by
  cases ht; simp

theorem execNekRenewal_power (n : Fin 66) (s s' : State) (ht : execNekRenewal n s = .next s') : s'.power = s.power := by
  cases ht; simp

@[simp] theorem slacParm_power (n : Nat) (r : BitVec 64) (s : State) :
    (slacParm n r s).power = s.power := by simp [slacParm]

theorem execSlacParmReq_power (n : Fin 66) (runId : BitVec 64) (s s' : State) (ht : execSlacParmReq n runId s = .next s') :
    s'.power = s.power := by
  cases ht; simp

@[simp] theorem startAttenChar_power (n : Nat) (r : BitVec 64) (sounds : Nat) (s : State) :
    (startAttenChar n r sounds s).power = s.power := by simp [startAttenChar]

theorem execStartAttenChar_power (n : Fin 66) (runId : BitVec 64) (sounds : Nat) (s s' : State) (ht : execStartAttenChar n runId sounds s = .next s') :
    s'.power = s.power := by
  cases ht; simp

@[simp] theorem slacSelect_power (b : Nat) (c : Collection) (h : List Nat) (need : Bool) (s : State) :
    (slacSelect b c h need s).power = s.power := by simp [slacSelect]

@[simp] theorem slacDecide_power (c : Collection) (s : State) : (slacDecide c s).power = s.power := by
  unfold slacDecide; dsimp only; (repeat' split) <;> simp

@[simp] theorem slacBack_power (n : Nat) (r : BitVec 64) (s : State) :
    (slacBack n r s).power = s.power := by simp [slacBack]

@[simp] theorem slacClose_power (r : BitVec 64) (s : State) : (slacClose r s).power = s.power := by
  unfold slacClose; (repeat' split) <;> simp

theorem execSlacCollectionClose_power (runId : BitVec 64) (s s' : State) (ht : execSlacCollectionClose runId s = .next s') :
    s'.power = s.power := by
  cases ht; simp

@[simp] theorem soundAdd_power (n : Nat) (r : BitVec 64) (g : List Nat) (s : State) :
    (soundAdd n r g s).power = s.power := by simp [soundAdd]

@[simp] theorem slacSound_power (n : Nat) (r : BitVec 64) (g : List Nat) (s : State) :
    (slacSound n r g s).power = s.power := by simp [slacSound]

theorem execSlacSound_power (n : Fin 66) (runId : BitVec 64) (groups : List Nat) (s s' : State) (ht : execSlacSound n runId groups s = .next s') :
    s'.power = s.power := by
  cases ht; simp

@[simp] theorem slacValidate_power (n : Nat) (r : BitVec 64) (s : State) :
    (slacValidate n r s).power = s.power := by simp [slacValidate]

theorem execSlacValidateReq_power (n : Fin 66) (runId : BitVec 64) (s s' : State) (ht : execSlacValidateReq n runId s = .next s') :
    s'.power = s.power := by
  cases ht; simp

@[simp] theorem slacWindowEnd_power (n k : Nat) (s : State) : (slacWindowEnd n k s).power = s.power := by
  unfold slacWindowEnd; (repeat' split) <;> simp

theorem execSlacValidateWindowEnd_power (n : Fin 66) (toggles : Nat) (s s' : State) (ht : execSlacValidateWindowEnd n toggles s = .next s') :
    s'.power = s.power := by
  cases ht; simp

@[simp] theorem slacMatch_power (n : Nat) (r : BitVec 64) (mac : BitVec 48) (s : State) :
    (slacMatch n r mac s).power = s.power := by simp [slacMatch]

theorem execSlacMatchReq_power (n : Fin 66) (runId : BitVec 64) (mac : BitVec 48) (s s' : State) (ht : execSlacMatchReq n runId mac s = .next s') :
    s'.power = s.power := by
  cases ht; simp

@[simp] theorem slacMatchTimeout_power (n : Nat) (s : State) :
    (slacMatchTimeout n s).power = s.power := by simp [slacMatchTimeout]

theorem execSlacMatchTimeout_power (n : Fin 66) (s s' : State) (ht : execSlacMatchTimeout n s = .next s') :
    s'.power = s.power := by
  cases ht; simp

@[simp] theorem plcRing_power (n : Nat) (data : List Byte) (s : State) :
    (plcRing n data s).power = s.power := by simp [plcRing]

@[simp] theorem plcKind_power (n : Nat) (m : Mpdu) (s : State) : (plcKind n m s).power = s.power := by
  unfold plcKind; (repeat' split) <;> simp

@[simp] theorem plcReceive_power (n : Nat) (m : Mpdu) (s : State) :
    (plcReceive n m s).power = s.power := by simp [plcReceive]

theorem execPlcMpduReceive_power (n : Fin 66) (m : Mpdu) (s s' : State) (ht : execPlcMpduReceive n m s = .next s') :
    s'.power = s.power := by
  cases ht; simp

@[simp] theorem plcPost_power (n : Nat) (v : Word) (s : State) : (plcPost n v s).power = s.power := by simp [plcPost]

theorem execPlcTxPost_power (n : Fin 66) (v : Word) (s s' : State) (ht : execPlcTxPost n v s = .next s') :
    s'.power = s.power := by
  cases ht; simp

@[simp] theorem plcSend_power (n : Nat) (s : State) : (plcSend n s).power = s.power := by
  unfold plcSend; (repeat' split) <;> simp

@[simp] theorem plcAir_power (n : Nat) (s : State) : (plcAir n s).power = s.power := by
  unfold plcAir; (repeat' split) <;> simp

@[simp] theorem plcSack_power (n : Nat) (bad : BitVec 4) (s : State) : (plcSack n bad s).power = s.power := by
  unfold plcSack; dsimp only; (repeat' split) <;> simp

theorem execPlcSackReceived_power (n : Fin 66) (bad : BitVec 4) (s s' : State) (ht : execPlcSackReceived n bad s = .next s') :
    s'.power = s.power := by
  cases ht; simp

@[simp] theorem deliveryTimeout_power (q : Nat) (s : State) :
    (deliveryTimeout q s).power = s.power := by simp [deliveryTimeout]

@[simp] theorem plcTxTimeout_power (n : Nat) (s : State) : (plcTxTimeout n s).power = s.power := by
  unfold plcTxTimeout; (repeat' split) <;> simp

theorem execPlcTxTimeout_power (n : Fin 66) (s s' : State) (ht : execPlcTxTimeout n s = .next s') :
    s'.power = s.power := by
  cases ht; simp

@[simp] theorem plcRxPop_power (n : Nat) (s : State) : (plcRxPop n s).power = s.power := by
  unfold plcRxPop; (repeat' split) <;> simp

theorem execPlcRxPop_power (n : Fin 66) (s s' : State) (ht : execPlcRxPop n s = .next s') : s'.power = s.power := by
  cases ht; simp

@[simp] theorem plcDoneRead_power (n : Nat) (s : State) : (plcDoneRead n s).power = s.power := by
  unfold plcDoneRead; (repeat' split) <;> simp

theorem execPlcTxdoneRead_power (n : Fin 66) (s s' : State) (ht : execPlcTxdoneRead n s = .next s') :
    s'.power = s.power := by
  cases ht; simp

@[simp] theorem ntbRead_power (port n : Nat) (s : State) : (ntbRead port n s).power = s.power := by simp [ntbRead]

theorem execPlcNtbRead_power (port : Fin 24) (n : Fin 66) (s s' : State) (ht : execPlcNtbRead port n s = .next s') :
    s'.power = s.power := by
  cases ht; simp

@[simp] theorem plcCfgWrite_power (n : Nat) (v : Word) (s : State) :
    (plcCfgWrite n v s).power = s.power := by simp [plcCfgWrite]

@[simp] theorem plcCtrlWrite_power (n : Nat) (v : Word) (s : State) :
    (plcCtrlWrite n v s).power = s.power := by simp [plcCtrlWrite]

@[simp] theorem plcBaseWrite_power (n : Nat) (v : Word) (s : State) :
    (plcBaseWrite n v s).power = s.power := by simp [plcBaseWrite]

@[simp] theorem plcRead_power (port n off : Nat) (s : State) : (plcRead port n off s).power = s.power := by
  unfold plcRead; (repeat' split) <;> simp

@[simp] theorem plcWrite_power (n off : Nat) (v : Word) (s : State) : (plcWrite n off v s).power = s.power := by
  unfold plcWrite; (repeat' split) <;> simp

/-! ### Resets -/

theorem execWatchdogHalfPeriod_power (s s' : State) (ht : execWatchdogHalfPeriod s = .next s') :
    s'.power = s.power := by
  cases ht; simp

@[simp] theorem wdogWrite_power (v : Word) (s : State) : (wdogWrite v s).power = s.power := by simp [wdogWrite]

theorem execWatchdogKick_power (v : Word) (s s' : State) (ht : execWatchdogKick v s = .next s') :
    s'.power = s.power := by
  cases ht; simp

theorem execWatchdogPeriodSet_power (v : Word) (s s' : State) (ht : execWatchdogPeriodSet v s = .next s') :
    s'.power = s.power := by
  cases ht; simp

@[simp] theorem sscWrite_power (v : Word) (s : State) : (sscWrite v s).power = s.power := by simp [sscWrite]

theorem execClkSscWrite_power (v : Word) (s s' : State) (ht : execClkSscWrite v s = .next s') : s'.power = s.power := by
  cases ht; simp

theorem execSpreadDisableHoldExpiry_power (s s' : State) (ht : execSpreadDisableHoldExpiry s = .next s') :
    s'.power = s.power := by
  cases ht; simp

theorem execMainRefRecovered_power (s s' : State) (ht : execMainRefRecovered s = .next s') : s'.power = s.power := by
  cases ht; simp

theorem execPllPUnlock_power (s s' : State) (ht : execPllPUnlock s = .next s') : s'.power = s.power := by
  unfold execPllPUnlock at ht
  have ht := Host.Outcome.next.inj ht; subst ht
  first
  | ((repeat' split) <;> simp; done)
  | (dsimp only; done)
  | (dsimp only; (repeat' split) <;> simp; done)
  | (dsimp only; (repeat' split) <;> simp [*]; done)
  | ((repeat' split) <;> simp [*]; done)
  | exact whenDie_power _ _ (fun t => by first | (dsimp only; (repeat' split) <;> simp [*]; done) | (simp; (repeat' split) <;> simp; done))
  | (split <;> first | rfl | exact whenDie_power _ _ (fun t => by dsimp only; (repeat' split) <;> simp [*]))

theorem execPllEUnlock_power (eth0 eth1 : Bool) (s s' : State) (ht : execPllEUnlock eth0 eth1 s = .next s') :
    s'.power = s.power := by
  cases ht; simp

@[simp] theorem stitcherReset_power (s0 : State) : (stitcherReset s0).power = s0.power := by simp [stitcherReset]

@[simp] theorem anyEngineReset_power (e : Nat) (s : State) :
    (anyEngineReset e s).power = s.power := by simp [anyEngineReset]

@[simp] theorem trialWrite_power (v : Word) (s : State) : (trialWrite v s).power = s.power := by simp [trialWrite]

theorem execLdrTrialStart_power (v : Word) (s s' : State) (ht : execLdrTrialStart v s = .next s') :
    s'.power = s.power := by
  cases ht; simp

theorem execLdrTrialStop_power (v : Word) (s s' : State) (ht : execLdrTrialStop v s = .next s') :
    s'.power = s.power := by
  cases ht; simp

/-! ### Mem -/

@[simp] theorem memPut_power (a : Nat) (b : Byte) (s : State) : (memPut a b s).power = s.power := by
  unfold memPut; (repeat' split) <;> simp

@[simp] theorem memPuts_power (a : Nat) (l : List Byte) (s : State) : (memPuts a l s).power = s.power := by
  induction l generalizing s a with
  | nil => rfl
  | cons b r ih => simp [memPuts, ih]

@[simp] theorem markBytes_power (k a n : Nat) (s : State) : (markBytes k a n s).power = s.power := by simp [markBytes]

@[simp] theorem dmaPut_power (port a : Nat) (l : List Byte) (s : State) :
    (dmaPut port a l s).power = s.power := by simp [dmaPut]

@[simp] theorem dmaGet_power (a n : Nat) (s : State) : (dmaGet a n s).2.power = s.power := by
  unfold dmaGet; (repeat' split) <;> simp

/-! ### Tack -/

@[simp] theorem putSlots_power (b : Bank KeySlot) (s : State) : (putSlots b s).power = s.power := by simp [putSlots]

@[simp] theorem putSlot_power (i : Nat) (k : KeySlot) (s : State) : (putSlot i k s).power = s.power := by simp [putSlot]

@[simp] theorem tackReply_power (cmd slot : Nat) (st : Status) (s : State) :
    (tackReply cmd slot st s).power = s.power := by simp [tackReply]

@[simp] theorem tackServe_power (cmd slot : Nat) (kinds : List Nat) (f : State → Status × State) (s : State) (h_f : ∀  t, (f  t).2.power = t.power) :
    (tackServe cmd slot kinds f s).power = s.power := by
  unfold tackServe; dsimp only; (repeat' split) <;> simp [*]

@[simp] theorem tackGenerate_power (i : Nat) (attr : Word) (s : State) : (tackGenerate i attr s).2.power = s.power := by
  unfold tackGenerate; dsimp only; (repeat' split) <;> simp

@[simp] theorem tackImport_power (i : Nat) (attr : Word) (data : Option (List Byte)) (r : Role) (unwrapOk : Bool) (s : State) :
    (tackImport i attr data r unwrapOk s).2.power = s.power := by
  unfold tackImport
  dsimp only
  refine ite2_power _ _ _ _ (fun _ => rfl) (fun _ => ?_)
  refine ite2_power _ _ _ _ (fun _ => rfl) (fun _ => ?_)
  refine ite2_power _ _ _ _ (fun _ => rfl) (fun _ => ?_)
  refine ite2_power _ _ _ _ (fun _ => rfl) (fun _ => ?_)
  cases data with
  | none => rfl
  | some d =>
    refine ite2_power _ _ _ _ (fun _ => ?_) (fun _ => ?_)
    · refine ite2_power _ _ _ _ (fun _ => rfl) (fun _ => ?_)
      refine ite2_power _ _ _ _ (fun _ => rfl) (fun _ => ?_)
      refine ite2_power _ _ _ _ (fun _ => rfl) (fun _ => ?_)
      refine ite2_power _ _ _ _ (fun _ => rfl) (fun _ => ?_)
      refine ite2_power _ _ _ _ (fun _ => rfl) (fun _ => ?_)
      refine ite2_power _ _ _ _ (fun _ => rfl) (fun _ => ?_)
      exact putSlot_power _ _ _
    · refine ite2_power _ _ _ _ (fun _ => rfl) (fun _ => ?_)
      refine ite2_power _ _ _ _ (fun _ => rfl) (fun _ => ?_)
      exact putSlot_power _ _ _

@[simp] theorem tackDerive_power (i p : Nat) (label : Option (List Byte)) (attr : Word) (s : State) :
    (tackDerive i p label attr s).2.power = s.power := by
  unfold tackDerive; dsimp only; (repeat' split) <;> simp

@[simp] theorem tackDelete_power (i : Nat) (r : Role) (s : State) : (tackDelete i r s).2.power = s.power := by
  unfold tackDelete; dsimp only; (repeat' split) <;> simp

@[simp] theorem tackPut_power (a : Nat) (l : List Byte) (s : State) : (tackPut a l s).2.power = s.power := by
  unfold tackPut; (repeat' split) <;> simp

@[simp] theorem tackPublic_power (i a : Nat) (s : State) : (tackPublic i a s).2.power = s.power := by
  unfold tackPublic; dsimp only; (repeat' split) <;> simp

@[simp] theorem tackSign_power (i a : Nat) (s : State) : (tackSign i a s).2.power = s.power := by
  unfold tackSign; (repeat' split) <;> simp

@[simp] theorem tackVerify_power (i a : Nat) (good : Bool) (s : State) : (tackVerify i a good s).2.power = s.power := by
  unfold tackVerify; (repeat' split) <;> simp

@[simp] theorem tackAgree_power (i a : Nat) (s : State) : (tackAgree i a s).2.power = s.power := by
  unfold tackAgree; (repeat' split) <;> simp

theorem execGenerate_power (slot : BitVec 8) (attr : Word) (s s' : State) (ht : execGenerate slot attr s = .next s') :
    s'.power = s.power := by
  cases ht; simp

theorem execImportKey_power (slot : BitVec 8) (attr : Word) (addr len : Nat) (role : Role) (unwrapOk : Bool) (s s' : State) (ht : execImportKey slot attr addr len role unwrapOk s = .next s') :
    s'.power = s.power := by
  cases ht; simp

theorem execDerive_power (slot parent : BitVec 8) (labelAddr labelLen : Nat) (attr : Word) (s s' : State) (ht : execDerive slot parent labelAddr labelLen attr s = .next s') :
    s'.power = s.power := by
  cases ht; simp

theorem execDelete_power (slot : BitVec 8) (role : Role) (s s' : State) (ht : execDelete slot role s = .next s') :
    s'.power = s.power := by
  cases ht; simp

theorem execPublicKey_power (slot : BitVec 8) (addr : Word) (s s' : State) (ht : execPublicKey slot addr s = .next s') :
    s'.power = s.power := by
  cases ht; simp

theorem execSign_power (slot : BitVec 8) (addr : Word) (s s' : State) (ht : execSign slot addr s = .next s') :
    s'.power = s.power := by
  cases ht; simp

theorem execVerify_power (slot : BitVec 8) (addr : Word) (good : Bool) (s s' : State) (ht : execVerify slot addr good s = .next s') :
    s'.power = s.power := by
  cases ht; simp

theorem execAgree_power (slot : BitVec 8) (addr : Word) (s s' : State) (ht : execAgree slot addr s = .next s') :
    s'.power = s.power := by
  cases ht; simp

@[simp] theorem measureInto_power (k : Nat) (h : BitVec 384) (s : State) :
    (measureInto k h s).power = s.power := by simp [measureInto]

@[simp] theorem tackMeasure_power (k a n : Nat) (s : State) : (tackMeasure k a n s).2.power = s.power := by
  unfold tackMeasure; (repeat' split) <;> simp

theorem execMeasure_power (unit : BitVec 8) (addr len : Nat) (s s' : State) (ht : execMeasure unit addr len s = .next s') :
    s'.power = s.power := by
  cases ht; simp

@[simp] theorem tackRandom_power (a n : Nat) (s : State) : (tackRandom a n s).2.power = s.power := by
  unfold tackRandom; (repeat' split) <;> simp

theorem execRandom_power (addr : Word) (len : Nat) (s s' : State) (ht : execRandom addr len s = .next s') :
    s'.power = s.power := by
  cases ht; simp

@[simp] theorem rewrap_power (mr0 mr2 mr3 : BitVec 384) (s : State) :
    (rewrap mr0 mr2 mr3 s).power = s.power := by simp [rewrap]

@[simp] theorem successorWrite_power (m : Manifest) (s : State) :
    (successorWrite m s).power = s.power := by simp [successorWrite]

@[simp] theorem eraseSpare_power (s : State) : (eraseSpare s).power = s.power := by simp [eraseSpare]

@[simp] theorem tackSuccessor_power (s : State) : (tackSuccessor s).2.power = s.power := by
  unfold tackSuccessor; (repeat' split) <;> simp

theorem execSuccessor_power (_addr : Word) (s s' : State) (ht : execSuccessor _addr s = .next s') :
    s'.power = s.power := by
  cases ht; simp

@[simp] theorem fuseDebug_power (v : BitVec 384) (s : State) : (fuseDebug v s).2.power = s.power := by
  unfold fuseDebug; (repeat' split) <;> simp

@[simp] theorem fuseSafe_power (v staged : BitVec 384) (s : State) : (fuseSafe v staged s).2.power = s.power := by
  unfold fuseSafe; (repeat' split) <;> simp

@[simp] theorem tackFuse_power (f : FuseField) (v : BitVec 384) (s : State) : (tackFuse f v s).2.power = s.power := by
  unfold tackFuse; (repeat' split) <;> simp

theorem execFuse_power (field : FuseField) (v : BitVec 384) (s s' : State) (ht : execFuse field v s = .next s') :
    s'.power = s.power := by
  cases ht; simp

@[simp] theorem decommission_power (r : Role) (v : Word) (s : State) : (decommission r v s).2.power = s.power := by
  unfold decommission; (repeat' split) <;> simp

theorem execDecommission_power (role : Role) (v : Word) (s s' : State) (ht : execDecommission role v s = .next s') :
    s'.power = s.power := by
  cases ht; simp

/-! ### Update -/

@[simp] theorem State.updUpd_power (s : State) (f : Update → Update) :
    (State.updUpd s f).power = s.power := by simp [State.updUpd]

@[simp] theorem upLogHash_power (k : LogKind) (blk aux : Nat) (h : BitVec 384) (s : State) :
    (upLogHash k blk aux h s).power = s.power := by simp [upLogHash]

@[simp] theorem upLog_power (k : LogKind) (blk aux : Nat) (s : State) :
    (upLog k blk aux s).power = s.power := by simp [upLog]

@[simp] theorem imageSet_power (b : Nat) (h : BitVec 384) (s : State) :
    (imageSet b h s).power = s.power := by simp [imageSet]

@[simp] theorem updatePrepare_power (m : Manifest) (s : State) :
    (updatePrepare m s).power = s.power := by simp [updatePrepare]

@[simp] theorem manifestAccept_power (role : Role) (latigo : Bool) (m : Manifest) (s : State) :
    (manifestAccept role latigo m s).2.power = s.power := by simp [manifestAccept]

theorem execManifestAccept_power (role : Role) (latigo : Bool) (m : Manifest) (s s' : State) (ht : execManifestAccept role latigo m s = .next s') :
    s'.power = s.power := by
  cases ht; simp

@[simp] theorem restoreBlock_power (b : Nat) (s : State) : (restoreBlock b s).power = s.power := by simp [restoreBlock]

@[simp] theorem restoreAll_power (s : State) : (restoreAll s).power = s.power := by
  unfold restoreAll
  dsimp only
  rw [State.updUpd_power, foldl_power _ (fun t b => restoreBlock_power _ t)]

@[simp] theorem updateUndone_power (s : State) : (updateUndone s).power = s.power := by simp [updateUndone]

@[simp] theorem confirmUpdate_power (m : Manifest) (s : State) :
    (confirmUpdate m s).power = s.power := by simp [confirmUpdate]

@[simp] theorem tackConfirm_power (s : State) : (tackConfirm s).2.power = s.power := by
  unfold tackConfirm; (repeat' split) <;> simp

theorem execConfirm_power (s s' : State) (ht : execConfirm s = .next s') : s'.power = s.power := by
  cases ht; simp

@[simp] theorem trialBegin_power (s : State) : (trialBegin s).power = s.power := by simp [trialBegin]

/-! ### Skiver -/

@[simp] theorem skvSubmit_power (port a : Nat) (s : State) : (skvSubmit port a s).power = s.power := by simp [skvSubmit]

theorem execSkiverSubmit_power (port : Fin 24) (addr : Word) (s s' : State) (ht : execSkiverSubmit port addr s = .next s') :
    s'.power = s.power := by
  cases ht; simp

@[simp] theorem skvCpl_power (l : List (Nat × Status)) (s : State) : (skvCpl l s).power = s.power := by simp [skvCpl]

@[simp] theorem skvDone_power (j : SkvJob) (e : SkvEnd) (s : State) :
    (skvDone j e s).power = s.power := by simp [skvDone]

@[simp] theorem skvRun_power (j : SkvJob) (r : SkvResult) (s : State) :
    (skvRun j r s).power = s.power := by simp [skvRun]

theorem execSkiverComplete_power (tag : BitVec 16) (r : SkvResult) (s s' : State) (ht : execSkiverComplete tag r s = .next s') :
    s'.power = s.power := by
  cases ht; (repeat' split) <;> simp

@[simp] theorem skvCplRead_power (s : State) : (skvCplRead s).power = s.power := by
  unfold skvCplRead; (repeat' split) <;> simp

theorem execSkiverCplRead_power (s s' : State) (ht : execSkiverCplRead s = .next s') : s'.power = s.power := by
  cases ht; simp

@[simp] theorem skvCfgWrite_power (v : Word) (s : State) : (skvCfgWrite v s).power = s.power := by simp [skvCfgWrite]

/-! ### Vehicle -/

@[simp] theorem State.updVc_power (s : State) (n : Nat) (f : V2gConn → V2gConn) :
    (State.updVc s n f).power = s.power := by simp [State.updVc]

@[simp] theorem vehicleRequest_power (p slot v : Nat) (i : Int) (s : State) :
    (vehicleRequest p slot v i s).power = s.power := by simp [vehicleRequest]

@[simp] theorem sdpAnswer_power (n : Nat) (tls : Bool) (s : State) :
    (sdpAnswer n tls s).power = s.power := by simp [sdpAnswer]

theorem execSdpRequest_power (n : Fin 64) (tls : Bool) (s s' : State) (ht : execSdpRequest n tls s = .next s') :
    s'.power = s.power := by
  cases ht; simp

@[simp] theorem spillAssign_power (n : Nat) (s : State) : (spillAssign n s).power = s.power := by simp [spillAssign]

@[simp] theorem tcpConnect_power (n : Nat) (tls : Bool) (s : State) :
    (tcpConnect n tls s).power = s.power := by simp [tcpConnect]

theorem execV2gTcpConnect_power (n : Fin 64) (tls : Bool) (s s' : State) (ht : execV2gTcpConnect n tls s = .next s') :
    s'.power = s.power := by
  cases ht; simp

@[simp] theorem connClose_power (n : Nat) (s : State) : (connClose n s).power = s.power := by simp [connClose]

@[simp] theorem handOver_power (n slot : Nat) (s : State) : (handOver n slot s).power = s.power := by simp [handOver]

@[simp] theorem answer_power (n : Nat) (m : V2gMsg) (a : V2gAns) (s : State) :
    (answer n m a s).power = s.power := by simp [answer]

@[simp] theorem waitFor_power (n : Nat) (m : V2gMsg) (s : State) : (waitFor n m s).power = s.power := by simp [waitFor]

@[simp] theorem requestCoil_power (n slot : Nat) (s : State) :
    (requestCoil n slot s).power = s.power := by simp [requestCoil]

@[simp] theorem report_power (n : Nat) (m : V2gMsg) (s : State) : (report n m s).power = s.power := by simp [report]

@[simp] theorem answerWith_power (n : Nat) (m : V2gMsg) (a : V2gAns) (s : State) :
    (answerWith n m a s).power = s.power := by simp [answerWith]

@[simp] theorem cableCheck_power (n : Nat) (s : State) : (cableCheck n s).power = s.power := by
  unfold cableCheck; (repeat' split) <;> simp

@[simp] theorem withTariff_power (n : Nat) (m : V2gMsg) (f : State → State) (s : State) (h_f : ∀  t, (f  t).power = t.power) :
    (withTariff n m f s).power = s.power := by
  unfold withTariff; (repeat' split) <;> simp [*]

@[simp] theorem chargeParams_power (n slot : Nat) (pr : Proto) (x : V2gVals) (s : State) :
    (chargeParams n slot pr x s).power = s.power := by simp [chargeParams]

@[simp] theorem meteringConfirm_power (n slot : Nat) (sig : List Byte) (s : State) :
    (meteringConfirm n slot sig s).power = s.power := by simp [meteringConfirm]

@[simp] theorem demand_power (n slot : Nat) (m : V2gMsg) (x : V2gVals) (s : State) :
    (demand n slot m x s).power = s.power := by simp [demand]

@[simp] theorem authSetup_power (n : Nat) (s : State) : (authSetup n s).power = s.power := by simp [authSetup]

@[simp] theorem certInstall_power (n slot : Nat) (stream : List Byte) (f : State → State) (s : State) (h_f : ∀  t, (f  t).power = t.power) :
    (certInstall n slot stream f s).power = s.power := by
  unfold certInstall; (repeat' split) <;> simp [*]

@[simp] theorem energise_power (slot : Nat) (s : State) : (energise slot s).power = s.power := by simp [energise]

@[simp] theorem hostIdent_power (slot : Nat) (s : State) : (hostIdent slot s).power = s.power := by simp [hostIdent]

theorem execAwlJobComplete_power (pka ok : Bool) (slot : Option (Fin 256)) (s s' : State) (ht : execAwlJobComplete pka ok slot s = .next s') :
    s'.power = s.power := by
  cases ht; (repeat' split) <;> simp

@[simp] theorem withPort_power (k : Nat) (f : Nat → State → State) (s : State) (h_f : ∀ x0 t, (f x0 t).power = t.power) :
    (withPort k f s).power = s.power := by
  unfold withPort; (repeat' split) <;> simp [*]

@[simp] theorem requestLock_power (p slot : Nat) (s : State) :
    (requestLock p slot s).power = s.power := by simp [requestLock]

theorem execChargerFramePeriod_power (k : Fin 8) (s s' : State) (ht : execChargerFramePeriod k s = .next s') :
    s'.power = s.power := by
  cases ht; simp

@[simp] theorem vcanConfine_power (k : Nat) (s : State) : (vcanConfine k s).power = s.power := by simp [vcanConfine]

/-! ### Harness -/

@[simp] theorem harnessBurst_power (t : Nat) (reqs : List BurstReq) (s : State) :
    (harnessBurst t reqs s).power = s.power := by
  unfold harnessBurst; dsimp only; (repeat' split) <;> simp

@[simp] theorem eccReport_power (m : Nat) (e : Ecc) (s : State) : (eccReport m e s).power = s.power := by
  unfold eccReport; (repeat' split) <;> simp

theorem execHarnessBurst_power (t : Fin 30) (b : BurstReqs) (s s' : State) (ht : execHarnessBurst t b s = .next s') :
    s'.power = s.power := by
  cases ht; simp

@[simp] theorem waitMaxRead_power (t : Nat) (s : State) : (waitMaxRead t s).power = s.power := by simp [waitMaxRead]

theorem execHrnWaitmaxRead_power (t : Fin 30) (s s' : State) (ht : execHrnWaitmaxRead t s = .next s') :
    s'.power = s.power := by
  cases ht; simp

/-! ### Journal -/

@[simp] theorem stageRec_power (r : JRec) (s : State) : (stageRec r s).power = s.power := by simp [stageRec]

@[simp] theorem setArea_power (k : Nat) (a : Area) (s : State) : (setArea k a s).power = s.power := by simp [setArea]

@[simp] theorem batchRequest_power (s : State) : (batchRequest s).power = s.power := by
  unfold batchRequest; (repeat' split) <;> simp

@[simp] theorem batchClose_power (s : State) : (batchClose s).power = s.power := by simp [batchClose]

theorem execJournalBatchClose_power (_save : Bool) (s s' : State) (ht : execJournalBatchClose _save s = .next s') :
    s'.power = s.power := by
  cases ht; simp

@[simp] theorem areaCompacted_power (k ticket : Nat) (s : State) :
    (areaCompacted k ticket s).power = s.power := by simp [areaCompacted]

@[simp] theorem batchProgrammed_power (s : State) : (batchProgrammed s).power = s.power := by
  unfold batchProgrammed; (repeat' split) <;> simp

@[simp] theorem journalDone_power (s : State) : (journalDone s).power = s.power := by
  unfold journalDone; (repeat' split) <;> simp

theorem execXspiOperationDone_power (err : Bool) (s s' : State) (ht : execXspiOperationDone err s = .next s') :
    s'.power = s.power := by
  cases ht; simp

@[simp] theorem journalRead_power (aOk bOk : Bool) (bad : List (Bool × Nat)) (s : State) :
    (journalRead aOk bOk bad s).power = s.power := by simp [journalRead]

@[simp] theorem restoreDefaults_power (s : State) : (restoreDefaults s).power = s.power := by simp [restoreDefaults]

/-! ### Counters -/

theorem execCounterWrap_power (i : Fin 128) (s s' : State) (ht : execCounterWrap i s = .next s') :
    s'.power = s.power := by
  cases ht; simp

@[simp] theorem pmcSelect_power (i : Nat) (v : Word) (s : State) :
    (pmcSelect i v s).power = s.power := by simp [pmcSelect]

theorem execPmcSelect_power (i : Fin 128) (v : Word) (s s' : State) (ht : execPmcSelect i v s = .next s') :
    s'.power = s.power := by
  cases ht; simp

@[simp] theorem pmcSnapshot_power (v : Word) (s : State) : (pmcSnapshot v s).power = s.power := by simp [pmcSnapshot]

theorem execPmcSnapshot_power (v : Word) (s s' : State) (ht : execPmcSnapshot v s = .next s') : s'.power = s.power := by
  cases ht; simp

/-! ### Served -/

@[simp] theorem ownRead_power (idx sub : Nat) (s : State) : (ownRead idx sub s).power = s.power := by simp [ownRead]

/-! ### Handlers -/

@[simp] theorem faultEnd_power (p slot reason : Nat) (s : State) :
    (faultEnd p slot reason s).power = s.power := by simp [faultEnd]

@[simp] theorem serveEarth_power (p slot : Nat) (s : State) :
    (serveEarth p slot s).power = s.power := by simp [serveEarth]

/-! ### BusBlocks -/

@[simp] theorem bklRead_power (port o : Nat) (s : State) : (bklRead port o s).power = s.power := by
  unfold bklRead
  split; · simp
  split; · simp
  split; · simp
  split
  · dsimp only; split <;> simp
  · simp

@[simp] theorem bklWrite_power (port o : Nat) (v : Word) (s : State) : (bklWrite port o v s).power = s.power := by
  unfold bklWrite
  split; · simp
  split; · simp
  split; · simp
  split; · simp
  split; · simp
  split
  · dsimp only; split <;> simp
  · simp

@[simp] theorem pairRegRead_power (m o : Nat) (s : State) : (pairRegRead m o s).power = s.power := by simp [pairRegRead]

@[simp] theorem pairRegWrite_power (port m o : Nat) (v : Word) (s : State) :
    (pairRegWrite port m o v s).power = s.power := by simp [pairRegWrite]

@[simp] theorem hubRegRead_power (port h o : Nat) (s : State) :
    (hubRegRead port h o s).power = s.power := by simp [hubRegRead]

@[simp] theorem hubRegWrite_power (port h o : Nat) (v : Word) (s : State) :
    (hubRegWrite port h o v s).power = s.power := by simp [hubRegWrite]

@[simp] theorem sesRead_power (port e o : Nat) (s : State) : (sesRead port e o s).power = s.power := by
  unfold sesRead; (repeat' split) <;> simp

@[simp] theorem sesEcfgWrite_power (e : Nat) (v : Word) (s : State) :
    (sesEcfgWrite e v s).power = s.power := by simp [sesEcfgWrite]

@[simp] theorem sesEntryWrite_power (e : Nat) (v : Word) (s : State) :
    (sesEntryWrite e v s).power = s.power := by simp [sesEntryWrite]

@[simp] theorem sesXrWrite_power (e k : Nat) (v : Word) (s : State) :
    (sesXrWrite e k v s).power = s.power := by simp [sesXrWrite]

@[simp] theorem mbxRead_power (port o : Nat) (s : State) : (mbxRead port o s).power = s.power := by simp [mbxRead]

@[simp] theorem grtRead_power (o : Nat) (s : State) : (grtRead o s).power = s.power := by
  unfold grtRead; (repeat' split) <;> simp

@[simp] theorem grtWrite_power (o : Nat) (v : Word) (s : State) : (grtWrite o v s).power = s.power := by
  unfold grtWrite; (repeat' split) <;> simp

@[simp] theorem pmcRead_power (o : Nat) (s : State) : (pmcRead o s).power = s.power := by simp [pmcRead]

@[simp] theorem pmcWrite_power (o : Nat) (v : Word) (s : State) : (pmcWrite o v s).power = s.power := by simp [pmcWrite]

@[simp] theorem clkRead_power (port o : Nat) (s : State) : (clkRead port o s).power = s.power := by
  unfold clkRead; (repeat' split) <;> simp

@[simp] theorem safPost_power (port i : Nat) (v : Word) (s : State) :
    (safPost port i v s).power = s.power := by simp [safPost]

@[simp] theorem skvRead_power (o : Nat) (s : State) : (skvRead o s).power = s.power := by
  unfold skvRead; (repeat' split) <;> simp

@[simp] theorem skvWrite_power (o : Nat) (v : Word) (s : State) : (skvWrite o v s).power = s.power := by simp [skvWrite]

@[simp] theorem tkrRead_power (o : Nat) (s : State) : (tkrRead o s).power = s.power := by simp [tkrRead]

@[simp] theorem slRead_power (port o : Nat) (s : State) : (slRead port o s).power = s.power := by
  unfold slRead; (repeat' split) <;> simp

/-! ### BusPower -/

@[simp] theorem outWinRead_power (o : Nat) (s : State) : (outWinRead o s).power = s.power := by simp [outWinRead]

/-! ### Bus -/

@[simp] theorem takeAt_power (a v : Nat) (s : State) : (takeAt a v s).power = s.power := by
  unfold takeAt; (repeat' split) <;> simp

/-! ### Applied -/

@[simp] theorem freeQueued_power (p : Nat) (s : State) : (freeQueued p s).power = s.power := by
  unfold freeQueued; (repeat' split) <;> simp

@[simp] theorem applyAtten_power (n v : Nat) (s : State) : (applyAtten n v s).power = s.power := by simp [applyAtten]

@[simp] theorem applyMains_power (m : Nat) (on : Bool) (s : State) :
    (applyMains m on s).power = s.power := by simp [applyMains]

/-! ### Server -/

@[simp] theorem State.updConn_power (s : State) (c : Nat) (f : Conn → Conn) :
    (State.updConn s c f).power = s.power := by simp [State.updConn]

@[simp] theorem makeBinding_power (a : Asker) (idx : Nat) (s : State) : (makeBinding a idx s).power = s.power := by
  unfold makeBinding; (repeat' split) <;> simp

@[simp] theorem readSealed_power (a : Asker) (idx sub : Nat) (s : State) :
    (readSealed a idx sub s).2.2.power = s.power := by
  unfold readSealed; (repeat' split) <;> simp

@[simp] theorem serveRead_power (a : Asker) (idx sub : Nat) (s : State) :
    (serveRead a idx sub s).2.2.power = s.power := by
  unfold serveRead; (repeat' split) <;> simp

@[simp] theorem writeStored_power (a : Asker) (idx sub : Nat) (v : List Byte) (s : State) :
    (writeStored a idx sub v s).power = s.power := by simp [writeStored]

@[simp] theorem writeSelector_power (a : Asker) (d : List Byte) (s : State) :
    (writeSelector a d s).2.power = s.power := by
  unfold writeSelector; dsimp only; (repeat' split) <;> simp

@[simp] theorem setLast_power (v : Via) (st : Status) (s : State) : (setLast v st s).power = s.power := by
  unfold setLast; (repeat' split) <;> simp

@[simp] theorem answered_power (v : Via) (st : Status) (s : State) : (answered v st s).power = s.power := by
  unfold answered; (repeat' split) <;> simp

@[simp] theorem readRequest_power (a : Asker) (idx sub : Nat) (s : State) :
    (readRequest a idx sub s).2.2.power = s.power := by simp [readRequest]

/-! ### CanOpen -/

@[simp] theorem enterOper_power (f : Nat) (s : State) : (enterOper f s).power = s.power := by simp [enterOper]

@[simp] theorem bootPort_power (f : Nat) (s : State) : (bootPort f s).power = s.power := by simp [bootPort]

@[simp] theorem sdoSend_power (f ch : Nat) (data : List Byte) (s : State) :
    (sdoSend f ch data s).power = s.power := by simp [sdoSend]

@[simp] theorem sdoReply_power (f ch : Nat) (cmd : Byte) (idx sub : Nat) (data : List Byte) (s : State) :
    (sdoReply f ch cmd idx sub data s).power = s.power := by simp [sdoReply]

@[simp] theorem sdoAbort_power (f ch idx sub code : Nat) (s : State) :
    (sdoAbort f ch idx sub code s).power = s.power := by simp [sdoAbort]

@[simp] theorem setSdo_power (f ch : Nat) (x : Option SdoXfer) (s : State) :
    (setSdo f ch x s).power = s.power := by simp [setSdo]

@[simp] theorem sdoFresh_power (f ch : Nat) (s : State) : (sdoFresh f ch s).power = s.power := by
  unfold sdoFresh; (repeat' split) <;> simp

theorem execSdoInitiateUpload_power (f : Fin 2) (ch : Fin 8) (idx : BitVec 16) (sub : BitVec 8) (s s' : State) (ht : execSdoInitiateUpload f ch idx sub s = .next s') :
    s'.power = s.power := by
  cases ht; simp

@[simp] theorem sdoUpSeg_power (f ch : Nat) (toggle : Bool) (s : State) : (sdoUpSeg f ch toggle s).power = s.power := by
  unfold sdoUpSeg; (repeat' split) <;> simp

theorem execSdoUploadSegment_power (f : Fin 2) (ch : Fin 8) (toggle : Bool) (s s' : State) (ht : execSdoUploadSegment f ch toggle s = .next s') :
    s'.power = s.power := by
  cases ht; simp

theorem execSdoUnsupportedCommand_power (f : Fin 2) (ch : Fin 8) (s s' : State) (ht : execSdoUnsupportedCommand f ch s = .next s') :
    s'.power = s.power := by
  cases ht; simp

@[simp] theorem usdoSend_power (f node code : Nat) (d : List Byte) (s : State) :
    (usdoSend f node code d s).power = s.power := by simp [usdoSend]

@[simp] theorem setUsdo_power (f node : Nat) (x : Option SdoXfer) (s : State) :
    (setUsdo f node x s).power = s.power := by simp [setUsdo]

@[simp] theorem usdoFresh_power (f node : Nat) (s : State) : (usdoFresh f node s).power = s.power := by simp [usdoFresh]

@[simp] theorem usdoBegin_power (f node : Nat) (x : SdoXfer) (d : List Byte) (s : State) :
    (usdoBegin f node x d s).power = s.power := by simp [usdoBegin]

theorem execSdoSegmentTimeout_power (f : Fin 2) (client : CanClient) (s s' : State) (ht : execSdoSegmentTimeout f client s = .next s') :
    s'.power = s.power := by
  cases ht; (repeat' split) <;> simp

theorem execNmtStart_power (f : Fin 2) (s s' : State) (ht : execNmtStart f s = .next s') : s'.power = s.power := by
  cases ht; simp

theorem execNmtStop_power (f : Fin 2) (s s' : State) (ht : execNmtStop f s = .next s') : s'.power = s.power := by
  cases ht; simp

theorem execNmtEnterPreoperational_power (f : Fin 2) (s s' : State) (ht : execNmtEnterPreoperational f s = .next s') :
    s'.power = s.power := by
  cases ht; simp

theorem execNmtResetCommunication_power (f : Fin 2) (s s' : State) (ht : execNmtResetCommunication f s = .next s') :
    s'.power = s.power := by
  cases ht; simp

theorem execNmtResetNode_power (f : Fin 2) (s s' : State) (ht : execNmtResetNode f s = .next s') :
    s'.power = s.power := by
  cases ht; simp

theorem execCanopenHeartbeat_power (f : Fin 2) (s s' : State) (ht : execCanopenHeartbeat f s = .next s') :
    s'.power = s.power := by
  cases ht; simp

@[simp] theorem tpdoSend_power (f n : Nat) (s : State) : (tpdoSend f n s).power = s.power := by simp [tpdoSend]

@[simp] theorem tpdoSync_power (f : Nat) (s : State) (n : Nat) : (tpdoSync f s n).power = s.power := by simp [tpdoSync]

theorem execSync_power (f : Fin 2) (s s' : State) (ht : execSync f s = .next s') : s'.power = s.power := by
  cases ht; simp

theorem execTpdoEventTimer_power (f : Fin 2) (n : Fin 32) (s s' : State) (ht : execTpdoEventTimer f n s = .next s') :
    s'.power = s.power := by
  cases ht; simp

@[simp] theorem tpdoChange_power (f : Nat) (s : State) (n : Nat) :
    (tpdoChange f s n).power = s.power := by simp [tpdoChange]

@[simp] theorem tpdoPoll_power (s : State) : (tpdoPoll s).power = s.power := by simp [tpdoPoll]

theorem execCanBusOff_power (f : Fin 2) (s s' : State) (ht : execCanBusOff f s = .next s') : s'.power = s.power := by
  cases ht; simp

theorem execCanBusOffRecovery_power (f : Fin 2) (s s' : State) (ht : execCanBusOffRecovery f s = .next s') :
    s'.power = s.power := by
  cases ht; simp

theorem execCanErrorPassive_power (f : Fin 2) (s s' : State) (ht : execCanErrorPassive f s = .next s') :
    s'.power = s.power := by
  cases ht; simp

@[simp] theorem pllPRelock_power (s : State) : (pllPRelock s).power = s.power := by simp [pllPRelock]

theorem execPllPRelock_power (s s' : State) (ht : execPllPRelock s = .next s') : s'.power = s.power := by
  cases ht; simp

/-! ### RvCsr -/

@[simp] theorem State.updHart_power (s : State) (h : Nat) (f : Hart → Hart) :
    (State.updHart s h f).power = s.power := by
  unfold State.updHart; (repeat' split) <;> simp

@[simp] theorem State.updCore_power (s : State) (h : Nat) (f : Hart → Hart) :
    (State.updCore s h f).power = s.power := by simp [State.updCore]

@[simp] theorem hartTrap_power (h cause : Nat) (val : Dword) (s : State) :
    (hartTrap h cause val s).power = s.power := by simp [hartTrap]

@[simp] theorem takeInterrupt_power (h i : Nat) (sMode : Bool) (s : State) :
    (takeInterrupt h i sMode s).power = s.power := by simp [takeInterrupt]

@[simp] theorem putCsr_power (h c : Nat) (v : Dword) (s : State) : (putCsr h c v s).power = s.power := by simp [putCsr]

@[simp] theorem putCounter_power (h c : Nat) (hi : Bool) (v : Dword) (s : State) :
    (putCounter h c hi v s).power = s.power := by simp [putCounter]

@[simp] theorem putFcsr_power (h : Nat) (v : Dword) (s : State) : (putFcsr h v s).power = s.power := by simp [putFcsr]

@[simp] theorem putPmpaddr_power (h i : Nat) (v : Dword) (s : State) :
    (putPmpaddr h i v s).power = s.power := by simp [putPmpaddr]

@[simp] theorem csrWrite_power (h c : Nat) (v : Dword) (s : State) : (csrWrite h c v s).power = s.power := by
  unfold csrWrite; (repeat' split) <;> simp

/-! ### RvMem -/

@[simp] theorem breakReservations_power (h a n : Nat) (s : State) :
    (breakReservations h a n s).power = s.power := by simp [breakReservations]

/-! ### Riscv -/

@[simp] theorem RvOut_done_power (s : State) : (RvOut.done s).state = s := rfl

@[simp] theorem RvOut_exc_power (c : Nat) (v : Dword) (s : State) : (RvOut.exc c v s).state = s := rfl

@[simp] theorem rvRet_power (h rd : Nat) (v next : Dword) (s : State) :
    (rvRet h rd v next s).state.power = s.power := by simp [rvRet]

@[simp] theorem rvIllegal_power (s : State) : (rvIllegal s).state.power = s.power := by simp [rvIllegal]

@[simp] theorem rvOpImm_power (h : Nat) (w : Word) (next : Dword) (s : State) :
    (rvOpImm h w next s).state.power = s.power := by
  unfold rvOpImm; dsimp only; (repeat' split) <;> simp

@[simp] theorem rvOpReg_power (h : Nat) (w : Word) (next : Dword) (s : State) :
    (rvOpReg h w next s).state.power = s.power := by
  unfold rvOpReg; dsimp only; (repeat' split) <;> simp

@[simp] theorem rvOpImm32_power (h : Nat) (w : Word) (next : Dword) (s : State) :
    (rvOpImm32 h w next s).state.power = s.power := by
  unfold rvOpImm32; (repeat' split) <;> simp

@[simp] theorem rvOpReg32_power (h : Nat) (w : Word) (next : Dword) (s : State) :
    (rvOpReg32 h w next s).state.power = s.power := by
  unfold rvOpReg32; dsimp only; (repeat' split) <;> simp

@[simp] theorem rvBranchTo_power (h : Nat) (w : Word) (next : Dword) (s : State) :
    (rvBranchTo h w next s).state.power = s.power := by
  unfold rvBranchTo; dsimp only; (repeat' split) <;> simp

@[simp] theorem rvFp_power (h : Nat) (w : Word) (next : Dword) (s : State) (comp : Hart → Word → Option FpRes) :
    (rvFp h w next s comp).state.power = s.power := by
  unfold rvFp; dsimp only; (repeat' split) <;> simp

@[simp] theorem enterDebug_power (h cause : Nat) (s : State) :
    (enterDebug h cause s).power = s.power := by simp [enterDebug]

@[simp] theorem stepHalt_power (h : Nat) (s t : State) : (stepHalt h s t).power = t.power := by simp [stepHalt]

@[simp] theorem rvCsr_power (h : Nat) (w : Word) (next : Dword) (s : State) :
    (rvCsr h w next s).state.power = s.power := by
  unfold rvCsr
  dsimp only
  split
  · simp
  · have k := rvRet_power h (rvRd w) (s.csrRead h (fld w 20 12)) next s
    split
    · rename_i e; rw [e] at k; split <;> simpa using k
    · rename_i e; simp

@[simp] theorem rvWfi_power (h : Nat) (next : Dword) (s : State) : (rvWfi h next s).state.power = s.power := by
  unfold rvWfi; dsimp only; (repeat' split) <;> simp

@[simp] theorem rvSystem_power (h : Nat) (w : Word) (next : Dword) (s : State) :
    (rvSystem h w next s).state.power = s.power := by
  unfold rvSystem; dsimp only; (repeat' split) <;> simp

@[simp] theorem passCycles_power (h : Nat) (s : State) : (passCycles h s).power = s.power := by
  unfold passCycles; dsimp only; (repeat' split) <;> simp

@[simp] theorem retire_power (h : Nat) (w : Word) (s : State) : (retire h w s).power = s.power := by simp [retire]

@[simp] theorem rvException_power (h cause : Nat) (w : Word) (val : Dword) (s : State) :
    (rvException h cause w val s).power = s.power := by
  unfold rvException; (repeat' split) <;> simp

@[simp] theorem hartEcc_power (h : Nat) (ecc : Ecc) (s : State) : (hartEcc h ecc s).power = s.power := by simp [hartEcc]

@[simp] theorem eccPoison_power (h : Nat) (i : Word) (s : State) :
    (eccPoison h i s).power = s.power := by simp [eccPoison]

@[simp] theorem rvWake_power (h : Nat) (s : State) : (rvWake h s).power = s.power := by simp [rvWake]

@[simp] theorem timerMatch_power (i : Nat) (s : State) : (timerMatch i s).power = s.power := by simp [timerMatch]

theorem execTimerCompareMatch_power (h : Fin 6) (s s' : State) (ht : execTimerCompareMatch h s = .next s') :
    s'.power = s.power := by
  cases ht; simp

/-! ### Debug -/

@[simp] theorem debugPut_power (h n : Nat) (v : Dword) (s : State) :
    (debugPut h n v s).power = s.power := by simp [debugPut]

@[simp] theorem debugHalt_power (h : Nat) (s : State) : (debugHalt h s).power = s.power := by simp [debugHalt]

@[simp] theorem debugResume_power (h : Nat) (s : State) : (debugResume h s).power = s.power := by simp [debugResume]

@[simp] theorem sbNext_power (s : State) : (sbNext s).power = s.power := by simp [sbNext]

@[simp] theorem cmdFail_power (e : Nat) (s : State) : (cmdFail e s).power = s.power := by simp [cmdFail]

@[simp] theorem dmControl_power (v : Word) (s : State) : (dmControl v s).power = s.power := by simp [dmControl]

/-! ### Latigo -/

@[simp] theorem latSend_power (f : LatFrame) (s : State) : (latSend f s).power = s.power := by
  unfold latSend; (repeat' split) <;> simp

@[simp] theorem latClose_power (c : Nat) (s : State) : (latClose c s).power = s.power := by simp [latClose]

theorem execLatigoConnect_power (h : TlsHello) (s s' : State) (ht : execLatigoConnect h s = .next s') :
    s'.power = s.power := by
  cases ht; (repeat' split) <;> simp

@[simp] theorem latReply_power (c op : Nat) (r : LatigoReq) (st : Status) (d : List Byte) (s : State) :
    (latReply c op r st d s).power = s.power := by simp [latReply]

@[simp] theorem onConn_power (c : Nat) (f : Conn → State → State) (s : State) (h_f : ∀ x0 t, (f x0 t).power = t.power) :
    (onConn c f s).power = s.power := by
  unfold onConn; (repeat' split) <;> simp [*]

@[simp] theorem onFrame_power (c : Nat) (f : Conn → State → State) (s : State) (h_f : ∀ x0 t, (f x0 t).power = t.power) :
    (onFrame c f s).power = s.power := by
  unfold onFrame; (repeat' split) <;> simp [*]

theorem execLatigoRead_power (c : Fin 16) (r : LatigoReq) (s s' : State) (ht : execLatigoRead c r s = .next s') :
    s'.power = s.power := by
  cases ht; simp

theorem execLatigoSubscribe_power (c : Fin 16) (r : LatigoReq) (interval : Nat) (s s' : State) (ht : execLatigoSubscribe c r interval s = .next s') :
    s'.power = s.power := by
  cases ht; simp

@[simp] theorem latPlain_power (c op : Nat) (id : Word) (st : Status) (s : State) :
    (latPlain c op id st s).power = s.power := by simp [latPlain]

theorem execLatigoUnsubscribe_power (c : Fin 16) (id : Word) (s s' : State) (ht : execLatigoUnsubscribe c id s = .next s') :
    s'.power = s.power := by
  cases ht; simp

theorem execLatigoKeepalive_power (c : Fin 16) (id : Word) (s s' : State) (ht : execLatigoKeepalive c id s = .next s') :
    s'.power = s.power := by
  cases ht; simp

@[simp] theorem State.updSub_power (s : State) (c : Nat) (id : Word) (f : LatSub → LatSub) :
    (State.updSub s c id f).power = s.power := by simp [State.updSub]

@[simp] theorem latNotify_power (c : Nat) (u : LatSub) (st : Status) (co : Bool) (v : List Byte) (s : State) :
    (latNotify c u st co v s).power = s.power := by simp [latNotify]

@[simp] theorem notifyValue_power (c : Nat) (u : LatSub) (atEnd : Bool) (v : List Byte) (s : State) :
    (notifyValue c u atEnd v s).power = s.power := by simp [notifyValue]

theorem execLatigoNotify_power (c : Fin 16) (id : Word) (intervalEnd : Bool) (s s' : State) (ht : execLatigoNotify c id intervalEnd s = .next s') :
    s'.power = s.power := by
  unfold execLatigoNotify at ht
  have ht := Host.Outcome.next.inj ht; subst ht
  refine onConn_power _ _ _ (fun x t => ?_)
  dsimp only
  split
  · rfl
  · rename_i u e
    have k := serveRead_power { via := Via.latigo c, role := x.role, handle := u.handle, serial := u.serial } u.idx u.sub t
    split
    · simpa using k
    · simpa using k
    · rfl

theorem execLatigoBadFrame_power (c : Fin 16) (h : LatHead) (s s' : State) (ht : execLatigoBadFrame c h s = .next s') :
    s'.power = s.power := by
  cases ht; simp

theorem execLatigoIdleTimeout_power (c : Fin 16) (s s' : State) (ht : execLatigoIdleTimeout c s = .next s') :
    s'.power = s.power := by
  unfold execLatigoIdleTimeout at ht
  have ht := Host.Outcome.next.inj ht; subst ht
  exact onConn_power _ _ _ (fun x t => by split; exact latClose_power _ _; rfl)

theorem execLatigoCertExpiry_power (c : Fin 16) (s s' : State) (ht : execLatigoCertExpiry c s = .next s') :
    s'.power = s.power := by
  cases ht; simp

theorem execLatigoClose_power (c : Fin 16) (s s' : State) (ht : execLatigoClose c s = .next s') :
    s'.power = s.power := by
  cases ht; simp

/-! ### Ports -/

@[simp] theorem ipTaken_power (port : Nat) (s : State) : (ipTaken port s).power = s.power := by simp [ipTaken]

@[simp] theorem linkChange_power (port : Nat) (up : Bool) (s : State) :
    (linkChange port up s).power = s.power := by simp [linkChange]

theorem execEthernetLinkChange_power (port : Fin 2) (up : Bool) (s s' : State) (ht : execEthernetLinkChange port up s = .next s') :
    s'.power = s.power := by
  cases ht; simp

theorem execGpioEdge_power (n : Fin 32) (s s' : State) (ht : execGpioEdge n s = .next s') : s'.power = s.power := by
  cases ht; simp

@[simp] theorem skvTimeout_power (s : State) : (skvTimeout s).power = s.power := by
  unfold skvTimeout; (repeat' split) <;> simp

@[simp] theorem sealedTimeout_power (s : State) : (sealedTimeout s).power = s.power := by
  unfold sealedTimeout; (repeat' split) <;> simp

@[simp] theorem canTimeout_power (s : State) : (canTimeout s).power = s.power := by simp [canTimeout]

@[simp] theorem girthTimeout_power (s : State) : (girthTimeout s).power = s.power := by
  unfold girthTimeout; (repeat' split) <;> simp

@[simp] theorem monitored_power (q : Nat) (s : State) : (monitored q s).power = s.power := by simp [monitored]

theorem execDeliveryTimeout_power (q : Fin 14) (s s' : State) (ht : execDeliveryTimeout q s = .next s') :
    s'.power = s.power := by
  cases ht; simp

/-! ### Start -/

@[simp] theorem bootStop_power (step : Nat) (st : Status) (s : State) :
    (bootStop step st s).power = s.power := by simp [bootStop]

@[simp] theorem atStep_power (warm : Bool) (n : Nat) (s : State) : (atStep warm n s).power = s.power := by simp [atStep]

@[simp] theorem bootMeasure_power (k : Nat) (h : BitVec 384) (s : State) :
    (bootMeasure k h s).power = s.power := by simp [bootMeasure]

@[simp] theorem bootRomRun_power (boot : BitVec 4) (b : BootChecks) (s : State) :
    (bootRomRun boot b s).2.power = s.power := by
  unfold bootRomRun; dsimp only; (repeat' split) <;> simp

@[simp] theorem chooseWrap_power (s : State) : (chooseWrap s).power = s.power := by simp [chooseWrap]

@[simp] theorem tackStart_power (s : State) : (tackStart s).power = s.power := by simp [tackStart]

@[simp] theorem loadEngine_power (e : Nat) (s : State) : (loadEngine e s).power = s.power := by simp [loadEngine]

@[simp] theorem loadFailed_power (e : Nat) (s : State) : (loadFailed e s).power = s.power := by simp [loadFailed]

@[simp] theorem loadEngines_power (ok : BitVec 9) (s : State) :
    (loadEngines ok s).power = s.power := by simp [loadEngines]

@[simp] theorem loadBridle_power (ok : Bool) (s : State) : (loadBridle ok s).power = s.power := by simp [loadBridle]

@[simp] theorem readObjects_power (b : BootChecks) (s : State) :
    (readObjects b s).power = s.power := by simp [readObjects]

@[simp] theorem serveObjects_power (warm : Bool) (s : State) :
    (serveObjects warm s).power = s.power := by simp [serveObjects]

/-! ### Supplies -/

theorem execVanaTrip_power (s s' : State) (ht : execVanaTrip s = .next s') : s'.power = s.power := by
  cases ht; simp

theorem execVanaRelease_power (s s' : State) (ht : execVanaRelease s = .next s') : s'.power = s.power := by
  cases ht; simp

@[simp] theorem vloadFrame_power (s : State) : (vloadFrame s).power = s.power := by simp [vloadFrame]

@[simp] theorem panelPowerFail_power (m : Nat) (s : State) :
    (panelPowerFail m s).power = s.power := by simp [panelPowerFail]

@[simp] theorem dieWarned_power (s : State) : (dieWarned s).power = s.power := by simp [dieWarned]

@[simp] theorem dieReset_power (s : State) : (dieReset s).power = s.power := by simp [dieReset]

theorem execSealedSupplyTrip_power (_vmio : Bool) (s s' : State) (ht : execSealedSupplyTrip _vmio s = .next s') :
    s'.power = s.power := by
  cases ht; simp

theorem execSealedWatchdogExpiry_power (s s' : State) (ht : execSealedWatchdogExpiry s = .next s') :
    s'.power = s.power := by
  cases ht; simp

@[simp] theorem vbatSample_power (mv : Nat) (s : State) : (vbatSample mv s).power = s.power := by simp [vbatSample]

theorem execVbatSample_power (mv : Nat) (s s' : State) (ht : execVbatSample mv s = .next s') : s'.power = s.power := by
  cases ht; simp

theorem execLegalClockStop_power (s s' : State) (ht : execLegalClockStop s = .next s') : s'.power = s.power := by
  cases ht; simp

theorem execMetrologyRefFail_power (s s' : State) (ht : execMetrologyRefFail s = .next s') : s'.power = s.power := by
  cases ht; simp

theorem execMetrologyRefReturn_power (s s' : State) (ht : execMetrologyRefReturn s = .next s') :
    s'.power = s.power := by
  cases ht; simp

theorem execLegalCrystalFail_power (s s' : State) (ht : execLegalCrystalFail s = .next s') : s'.power = s.power := by
  cases ht; simp

/-! ### Tick -/

@[simp] theorem tickEngine_power (e : Nat) (s : State) : (tickEngine e s).power = s.power := by
  unfold tickEngine; (repeat' split) <;> simp

@[simp] theorem tickCold_power (s : State) : (tickCold s).power = s.power := by simp [tickCold]

@[simp] theorem tickLegal_power (s : State) : (tickLegal s).power = s.power := by simp [tickLegal]

@[simp] theorem tickVcan_power (s : State) : (tickVcan s).power = s.power := by simp [tickVcan]

@[simp] theorem tickPlc_power (s : State) : (tickPlc s).power = s.power := by simp [tickPlc]

/-! ### Step -/

@[simp] theorem State.withFetchWord_power (s : State) (_nbits _w : Nat) :
    (State.withFetchWord s _nbits _w).power = s.power := by simp [State.withFetchWord]

end Sys2Proof.Machine
end

