-- ==== Sys2Proof/Laws/KeepsQueue.lean ====
section
/-!
SUPPORT. Every function of the model, and the effect of every command, leaves the queue of waiting commands as it was.
-/
set_option Elab.async false
set_option linter.all false
namespace Sys2Proof.Machine

/-! ### Ops -/

@[simp] theorem foldl_pending {α : Type} (g : State → α → State) (h : ∀ t x, (g t x).pending = t.pending) (l : List α) (s : State) :
    (l.foldl g s).pending = s.pending := by
  induction l generalizing s with
  | nil => rfl
  | cons a l ih => simp [ih, h]

@[simp] theorem ite_pending (c : Prop) [Decidable c] (a b : State) :
    (if c then a else b).pending = if c then a.pending else b.pending := by split <;> rfl

theorem ite2_pending {α : Type} (c : Prop) [Decidable c] (a b : α × State) (s : State) (ha : c → a.2.pending = s.pending) (hb : ¬c → b.2.pending = s.pending) :
    (if c then a else b).2.pending = s.pending := by split <;> simp_all

@[simp] theorem State.used_pending (s : State) : (State.used s).pending = s.pending := by simp [State.used]

@[simp] theorem State.setByte_pending (s : State) (a : Nat) (b : Byte) :
    (State.setByte s a b).pending = s.pending := by simp [State.setByte]

@[simp] theorem State.setBytes_pending (s : State) (a : Nat) (l : List Byte) :
    (s.setBytes a l).pending = s.pending := by
  induction l generalizing s a with
  | nil => rfl
  | cons b r ih => simp [State.setBytes, ih]

@[simp] theorem State.setNum_pending (s : State) (a n v : Nat) :
    (State.setNum s a n v).pending = s.pending := by simp [State.setNum]

@[simp] theorem State.updSrc_pending (s : State) (n : Nat) (f : BklSrc → BklSrc) :
    (State.updSrc s n f).pending = s.pending := by simp [State.updSrc]

@[simp] theorem pmcAdd_pending (n i k : Nat) (s : State) : (pmcAdd n i k s).pending = s.pending := by
  induction n generalizing i k s with
  | zero => rfl
  | succ n ih => simp only [pmcAdd]; (repeat' split) <;> simp [ih]

@[simp] theorem countEvents_pending (group idx k : Nat) (s : State) :
    (countEvents group idx k s).pending = s.pending := by simp [countEvents]

@[simp] theorem raise_pending (n : Nat) (s : State) : (raise n s).pending = s.pending := by simp [raise]

@[simp] theorem setLevel_pending (n : Nat) (b : Bool) (s : State) :
    (setLevel n b s).pending = s.pending := by simp [setLevel]

@[simp] theorem laneRaise_pending (n : Nat) (s : State) : (laneRaise n s).pending = s.pending := by simp [laneRaise]

@[simp] theorem State.updCtx_pending (s : State) (slot : Nat) (f : Ctx → Ctx) :
    (State.updCtx s slot f).pending = s.pending := by simp [State.updCtx]

@[simp] theorem State.updEng_pending (s : State) (e : Nat) (f : Engine → Engine) :
    (State.updEng s e f).pending = s.pending := by simp [State.updEng]

@[simp] theorem syncCtx_pending (slot : Nat) (s : State) : (syncCtx slot s).pending = s.pending := by simp [syncCtx]

@[simp] theorem postClass_pending (slot k : Nat) (s : State) :
    (postClass slot k s).pending = s.pending := by simp [postClass]

@[simp] theorem girthEnd_pending (f : GirthReq → Bool) (part : Bool) (s : State) :
    (girthEnd f part s).pending = s.pending := by simp [girthEnd]

@[simp] theorem girthUnitOff_pending (kind unit : Nat) (s : State) :
    (girthUnitOff kind unit s).pending = s.pending := by simp [girthUnitOff]

@[simp] theorem girthTransientEnd_pending (kind unit : Nat) (s : State) :
    (girthTransientEnd kind unit s).pending = s.pending := by simp [girthTransientEnd]

@[simp] theorem girthWithdraw_pending (f : GirthReq → Bool) (s : State) :
    (girthWithdraw f s).pending = s.pending := by simp [girthWithdraw]

@[simp] theorem withdrawRestart_pending (kind unit : Nat) (s : State) :
    (withdrawRestart kind unit s).pending = s.pending := by simp [withdrawRestart]

@[simp] theorem busOk_pending (v : Word) (s : State) : (busOk v s).pending = s.pending := by simp [busOk]

@[simp] theorem busFail_pending (s : State) : (busFail s).pending = s.pending := by simp [busFail]

/-! ### LinkOps -/

@[simp] theorem State.updLink_pending (s : State) (d : Side) (f : LinkEnd → LinkEnd) :
    (State.updLink s d f).pending = s.pending := by
  unfold State.updLink; (repeat' split) <;> simp

@[simp] theorem linkCount_pending (d : Side) (idx k : Nat) (s : State) : (linkCount d idx k s).pending = s.pending := by
  unfold linkCount; (repeat' split) <;> simp

@[simp] theorem linkFlush_pending (d : Side) (n : Nat) (s : State) : (linkFlush d n s).pending = s.pending := by
  induction n generalizing s with
  | zero => rfl
  | succ n ih => simp only [linkFlush]; (repeat' split) <;> simp [ih]

@[simp] theorem linkOffer_pending (d : Side) (cls : Nat) (tag : Word) (payload : List Byte) (s : State) :
    (linkOffer d cls tag payload s).pending = s.pending := by simp [linkOffer]

@[simp] theorem dieSend_pending (cls : Nat) (payload : List Byte) (s : State) :
    (dieSend cls payload s).pending = s.pending := by simp [dieSend]

@[simp] theorem dieReply_pending (tag : Word) (cls : Nat) (payload : List Byte) (s : State) :
    (dieReply tag cls payload s).pending = s.pending := by simp [dieReply]

/-! ### SealedOps -/

@[simp] theorem State.setSobj_pending (s : State) (idx sub : Nat) (v : List Byte) :
    (State.setSobj s idx sub v).pending = s.pending := by simp [State.setSobj]

@[simp] theorem State.updElem_pending (s : State) (e : Nat) (f : Elem → Elem) :
    (State.updElem s e f).pending = s.pending := by simp [State.updElem]

@[simp] theorem State.updChan_pending (s : State) (c : Nat) (f : Chan → Chan) :
    (State.updChan s c f).pending = s.pending := by simp [State.updChan]

@[simp] theorem logAdd_pending (kind : Nat) (data : List Byte) (s : State) :
    (logAdd kind data s).pending = s.pending := by simp [logAdd]

@[simp] theorem State.mapRecs_pending (s : State) (f : Rec → Rec) :
    (State.mapRecs s f).pending = s.pending := by simp [State.mapRecs]

@[simp] theorem State.updRec_pending (s : State) (serial : Nat) (f : Rec → Rec) :
    (State.updRec s serial f).pending = s.pending := by simp [State.updRec]

@[simp] theorem State.updPt_pending (s : State) (p : Nat) (f : PointBill → PointBill) :
    (State.updPt s p f).pending = s.pending := by simp [State.updPt]

@[simp] theorem flagOpen_pending (p i : Nat) (s : State) : (flagOpen p i s).pending = s.pending := by simp [flagOpen]

@[simp] theorem flagAllOpen_pending (i : Nat) (s : State) :
    (flagAllOpen i s).pending = s.pending := by simp [flagAllOpen]

@[simp] theorem purseCheck_pending (serial : Nat) (s : State) : (purseCheck serial s).pending = s.pending := by
  unfold purseCheck; (repeat' split) <;> simp

@[simp] theorem routeMs_pending (p t : Nat) (i e : Int) (s : State) : (routeMs p t i e s).pending = s.pending := by
  unfold routeMs; (repeat' split) <;> simp

@[simp] theorem routePoint_pending (p : Nat) (sell : Bool) (ms : List Int) (s : State) :
    (routePoint p sell ms s).pending = s.pending := by
  unfold routePoint; dsimp only; (repeat' split) <;> simp

@[simp] theorem closeInterval_pending (extra next : BitVec 16) (s : State) :
    (closeInterval extra next s).pending = s.pending := by simp [closeInterval]

@[simp] theorem switchTariff_pending (s : State) : (switchTariff s).pending = s.pending := by simp [switchTariff]

@[simp] theorem markIntervals_pending (s : State) : (markIntervals s).pending = s.pending := by simp [markIntervals]

@[simp] theorem settle_pending (s : State) : (settle s).pending = s.pending := by simp [settle]

@[simp] theorem closeRec_pending (serial reason : Nat) (f : Rec → Rec) (s : State) :
    (closeRec serial reason f s).pending = s.pending := by
  unfold closeRec; (repeat' split) <;> simp

@[simp] theorem closeAll_pending (reason : Nat) (f : Rec → Rec) (s : State) :
    (closeAll reason f s).pending = s.pending := by simp [closeAll]

@[simp] theorem displayCheck_pending (s : State) : (displayCheck s).pending = s.pending := by simp [displayCheck]

@[simp] theorem commit_pending (s : State) : (commit s).pending = s.pending := by simp [commit]

@[simp] theorem sealAbandon_pending (s : State) : (sealAbandon s).pending = s.pending := by
  unfold sealAbandon; (repeat' split) <;> simp

@[simp] theorem dieLinkFailed_pending (cause : Nat) (s : State) :
    (dieLinkFailed cause s).pending = s.pending := by simp [dieLinkFailed]

@[simp] theorem applyParam_pending (w : ParamWrite) (s : State) :
    (applyParam w s).pending = s.pending := by simp [applyParam]

@[simp] theorem whenDie_pending (f : State → State) (s : State) (h_f : ∀  t, (f  t).pending = t.pending) :
    (whenDie f s).pending = s.pending := by
  unfold whenDie; (repeat' split) <;> simp [*]

@[simp] theorem objReply_pending (tag : Word) (op : Nat) (st : Status) (idx sub off total serial : Nat) (data : List Byte) (s : State) :
    (objReply tag op st idx sub off total serial data s).pending = s.pending := by simp [objReply]

@[simp] theorem writeReply_pending (tag : Word) (idx sub len : Nat) (r : Status × State) :
    (writeReply tag idx sub len r).pending = r.2.pending := by simp [writeReply]

/-! ### Billing -/

@[simp] theorem recReply_pending (tag : Word) (st : Status) (cause : Nat) (r : Option Rec) (s : State) :
    (recReply tag st cause r s).pending = s.pending := by simp [recReply]

@[simp] theorem recOpen_pending (p handle method : Nat) (ident : List Byte) (s : State) :
    (recOpen p handle method ident s).2.2.2.pending = s.pending := by
  unfold recOpen; (repeat' split) <;> simp

theorem execRecordOpen_pending (tag : Word) (p : Fin 64) (handle : Word) (method : BitVec 8) (ident : List Byte) (s s' : State) (ht : execRecordOpen tag p handle method ident s = .next s') :
    s'.pending = s.pending := by
  cases ht; simp

@[simp] theorem recClose_pending (p handle serial reason : Nat) (s : State) :
    (recClose p handle serial reason s).2.2.pending = s.pending := by
  unfold recClose; (repeat' split) <;> simp

theorem execRecordClose_pending (tag : Word) (p : Fin 64) (handle : Word) (serial : BitVec 64) (reason : BitVec 8) (s s' : State) (ht : execRecordClose tag p handle serial reason s = .next s') :
    s'.pending = s.pending := by
  cases ht; simp

theorem execRecordQuery_pending (tag : Word) (p : Fin 64) (handle : Word) (serial : BitVec 64) (s s' : State) (ht : execRecordQuery tag p handle serial s = .next s') :
    s'.pending = s.pending := by
  cases ht; simp

@[simp] theorem recSigned_pending (serial : Nat) (s : State) : (recSigned serial s).pending = s.pending := by
  unfold recSigned; (repeat' split) <;> simp

theorem execRecordSigned_pending (serial : BitVec 64) (s s' : State) (ht : execRecordSigned serial s = .next s') :
    s'.pending = s.pending := by
  cases ht; simp

@[simp] theorem recCollect_pending (serial : Nat) (s : State) :
    (recCollect serial s).2.pending = s.pending := by simp [recCollect]

theorem execRecordCollectionAck_pending (rq : Rq) (serial : BitVec 64) (s s' : State) (ht : execRecordCollectionAck rq serial s = .next s') :
    s'.pending = s.pending := by
  cases ht; exact whenDie_pending _ _ fun t => by simp; (repeat' split) <;> simp

@[simp] theorem noticeReply_pending (tag : Word) (st : Status) (s : State) :
    (noticeReply tag st s).pending = s.pending := by simp [noticeReply]

@[simp] theorem notice_pending (tag : Word) (serial : Nat) (f : Rec → State → State) (s : State) (h_f : ∀ x0 t, (f x0 t).pending = t.pending) :
    (notice tag serial f s).pending = s.pending := by
  unfold notice; (repeat' split) <;> simp [*]

theorem execSessionNoticePlug_pending (tag : Word) (p : Fin 64) (_handle : Word) (s s' : State) (ht : execSessionNoticePlug tag p _handle s = .next s') :
    s'.pending = s.pending := by
  cases ht; simp

theorem execSessionNoticeAuthorise_pending (tag : Word) (p : Fin 64) (_handle : Word) (serial : BitVec 64) (s s' : State) (ht : execSessionNoticeAuthorise tag p _handle serial s = .next s') :
    s'.pending = s.pending := by
  cases ht; simp

theorem execSessionNoticeEnergyFlow_pending (tag : Word) (_p : Fin 64) (_handle : Word) (serial : BitVec 64) (s s' : State) (ht : execSessionNoticeEnergyFlow tag _p _handle serial s = .next s') :
    s'.pending = s.pending := by
  cases ht; simp

theorem execSessionNoticeStop_pending (tag : Word) (_p : Fin 64) (_handle : Word) (serial : BitVec 64) (_reason : BitVec 8) (s s' : State) (ht : execSessionNoticeStop tag _p _handle serial _reason s = .next s') :
    s'.pending = s.pending := by
  cases ht; simp

theorem execSessionNoticeMeteringConfirmation_pending (tag : Word) (_p : Fin 64) (_handle : Word) (serial : BitVec 64) (reading : BitVec 16) (sig : List Byte) (s s' : State) (ht : execSessionNoticeMeteringConfirmation tag _p _handle serial reading sig s = .next s') :
    s'.pending = s.pending := by
  cases ht; simp

@[simp] theorem takeReading_pending (role : Role) (serial : Nat) (s : State) :
    (takeReading role serial s).2.2.pending = s.pending := by
  unfold takeReading; (repeat' split) <;> simp

theorem execSignedReading_pending (rq : Rq) (slot : Fin 256) (serial : BitVec 64) (s s' : State) (ht : execSignedReading rq slot serial s = .next s') :
    s'.pending = s.pending := by
  cases ht; simp

theorem execPurseQuery_pending (rq : Rq) (p : Fin 64) (serial : BitVec 64) (s s' : State) (ht : execPurseQuery rq p serial s = .next s') :
    s'.pending = s.pending := by
  cases ht; simp

@[simp] theorem activate_pending (s : State) : (activate s).pending = s.pending := by simp [activate]

@[simp] theorem activateDue_pending (s : State) : (activateDue s).pending = s.pending := by simp [activateDue]

@[simp] theorem newOffset_pending (source : Nat) (minutes : Int) (s : State) :
    (newOffset source minutes s).pending = s.pending := by simp [newOffset]

@[simp] theorem offsetDue_pending (s : State) : (offsetDue s).pending = s.pending := by
  unfold offsetDue; (repeat' split) <;> simp

@[simp] theorem stepLt_pending (target : Nat) (s : State) : (stepLt target s).pending = s.pending := by simp [stepLt]

@[simp] theorem ltSet_pending (role : Role) (target : Nat) (s0 : State) :
    (ltSet role target s0).2.pending = s0.pending := by
  unfold ltSet; dsimp only; (repeat' split) <;> simp

theorem execLtSet_pending (rq : Rq) (target : Nat) (s s' : State) (ht : execLtSet rq target s = .next s') :
    s'.pending = s.pending := by
  cases ht; simp

@[simp] theorem offsetSet_pending (role : Role) (minutes : Int) (s : State) :
    (offsetSet role minutes s).2.pending = s.pending := by
  unfold offsetSet; (repeat' split) <;> simp

theorem execOffsetSet_pending (rq : Rq) (minutes : Int) (s s' : State) (ht : execOffsetSet rq minutes s = .next s') :
    s'.pending = s.pending := by
  cases ht; simp

theorem execOffsetChangeScheduled_pending (s s' : State) (ht : execOffsetChangeScheduled s = .next s') :
    s'.pending = s.pending := by
  cases ht; simp

@[simp] theorem calendarWritten_pending (c : List Byte) (s : State) : (calendarWritten c s).2.pending = s.pending := by
  unfold calendarWritten; (repeat' split) <;> simp

@[simp] theorem stagePart_pending (idx sub off total : Nat) (data : List Byte) (s : State) :
    (stagePart idx sub off total data s).2.2.pending = s.pending := by
  unfold stagePart; dsimp only; (repeat' split) <;> simp

theorem execCalendarWrite_pending (rq : Rq) (off total : Nat) (data : List Byte) (s s' : State) (ht : execCalendarWrite rq off total data s = .next s') :
    s'.pending = s.pending := by
  unfold execCalendarWrite at ht
  have ht := Host.Outcome.next.inj ht; subst ht
  refine whenDie_pending _ _ (fun t => ?_)
  dsimp only
  rw [objReply_pending]
  split
  · rfl
  split
  · rfl
  have k := stagePart_pending 0x5600 1 off total data t
  split <;> rename_i e <;> rw [e] at k
  · rw [calendarWritten_pending]; exact k
  · exact k

@[simp] theorem activateSet_pending (role : Role) (sec : Nat) (s : State) :
    (activateSet role sec s).2.pending = s.pending := by
  unfold activateSet; (repeat' split) <;> simp

theorem execCalendarActivateSet_pending (rq : Rq) (sec : Nat) (s s' : State) (ht : execCalendarActivateSet rq sec s = .next s') :
    s'.pending = s.pending := by
  cases ht; simp

theorem execCalendarActivation_pending (s s' : State) (ht : execCalendarActivation s = .next s') :
    s'.pending = s.pending := by
  cases ht; simp

theorem execTariffSwitch_pending (s s' : State) (ht : execTariffSwitch s = .next s') : s'.pending = s.pending := by
  cases ht; simp

theorem execDemandIntervalEnd_pending (s s' : State) (ht : execDemandIntervalEnd s = .next s') :
    s'.pending = s.pending := by
  cases ht; simp

@[simp] theorem demandReset_pending (role : Role) (p : Nat) (s : State) :
    (demandReset role p s).2.pending = s.pending := by
  unfold demandReset; (repeat' split) <;> simp

theorem execMaxDemandReset_pending (rq : Rq) (p : Fin 64) (s s' : State) (ht : execMaxDemandReset rq p s = .next s') :
    s'.pending = s.pending := by
  cases ht; simp

@[simp] theorem tokenKey_pending (role : Role) (key : List Byte) (s : State) :
    (tokenKey role key s).2.pending = s.pending := by
  unfold tokenKey; (repeat' split) <;> simp

theorem execTokenKeyChange_pending (rq : Rq) (key : List Byte) (s s' : State) (ht : execTokenKeyChange rq key s = .next s') :
    s'.pending = s.pending := by
  cases ht; simp

@[simp] theorem logArchive_pending (role : Role) (idx : Nat) (s : State) :
    (logArchive role idx s).2.pending = s.pending := by
  unfold logArchive; (repeat' split) <;> simp

theorem execLegalLogArchive_pending (rq : Rq) (idx : Nat) (s s' : State) (ht : execLegalLogArchive rq idx s = .next s') :
    s'.pending = s.pending := by
  cases ht; simp

@[simp] theorem bothLedgers_pending (f : Ledger → Ledger) (s : State) :
    (bothLedgers f s).pending = s.pending := by simp [bothLedgers]

@[simp] theorem creditExpire_pending (p : Nat) (s : State) : (creditExpire p s).pending = s.pending := by
  unfold creditExpire; (repeat' split) <;> simp

theorem execPendingCreditExpiry_pending (p : Fin 64) (s s' : State) (ht : execPendingCreditExpiry p s = .next s') :
    s'.pending = s.pending := by
  cases ht; simp

theorem execTokenLockoutEnd_pending (s s' : State) (ht : execTokenLockoutEnd s = .next s') :
    s'.pending = s.pending := by
  cases ht; exact whenDie_pending _ _ fun t => by dsimp only; (repeat' split) <;> simp [*]

theorem execLedgerAgeOut_pending (s s' : State) (ht : execLedgerAgeOut s = .next s') : s'.pending = s.pending := by
  cases ht; simp

@[simp] theorem tokenBad_pending (s : State) : (tokenBad s).pending = s.pending := by simp [tokenBad]

@[simp] theorem creditPoint_pending (p unit amount : Nat) (s : State) :
    (creditPoint p unit amount s).pending = s.pending := by
  unfold creditPoint; (repeat' split) <;> simp

@[simp] theorem tokenEnter_pending (p n : Nat) (s : State) :
    (tokenEnter p n s).2.2.pending = s.pending := by simp [tokenEnter]

@[simp] theorem startClose_pending (coinc : Bool) (s : State) :
    (startClose coinc s).pending = s.pending := by simp [startClose]

@[simp] theorem startElems_pending (s : State) : (startElems s).pending = s.pending := by
  unfold startElems
  dsimp only
  exact foldl_pending _ (fun t e => State.updElem_pending _ _ _) _ _

@[simp] theorem startFresh_pending (through : Bool) (mtk lt : Nat) (s : State) :
    (startFresh through mtk lt s).pending = s.pending := rfl

@[simp] theorem dieStart_pending (held : Bool) (s : State) : (dieStart held s).pending = s.pending := by simp [dieStart]

theorem execSealedDieStart_pending (vbatHeld : Bool) (s s' : State) (ht : execSealedDieStart vbatHeld s = .next s') :
    s'.pending = s.pending := by
  cases ht; simp

/-! ### PowerOps -/

@[simp] theorem State.updOut_pending (s : State) (x : Nat) (f : Output → Output) :
    (State.updOut s x f).pending = s.pending := by simp [State.updOut]

@[simp] theorem outEvt_pending (x i : Nat) (s : State) : (outEvt x i s).pending = s.pending := by simp [outEvt]

@[simp] theorem outTo_pending (x : Nat) (st : OutSt) (s : State) : (outTo x st s).pending = s.pending := by simp [outTo]

@[simp] theorem outHold_pending (x : Nat) (s : State) : (outHold x s).pending = s.pending := by simp [outHold]

@[simp] theorem outRelease_pending (x : Nat) (s : State) : (outRelease x s).pending = s.pending := by simp [outRelease]

@[simp] theorem outLatch_pending (x cause : Nat) (s : State) :
    (outLatch x cause s).pending = s.pending := by simp [outLatch]

@[simp] theorem outWaitLatch_pending (x : Nat) (s : State) :
    (outWaitLatch x s).pending = s.pending := by simp [outWaitLatch]

@[simp] theorem outWaitLatchAll_pending (s : State) :
    (outWaitLatchAll s).pending = s.pending := by simp [outWaitLatchAll]

@[simp] theorem outVload_pending (x : Nat) (s : State) : (outVload x s).pending = s.pending := by simp [outVload]

@[simp] theorem State.updPil_pending (s : State) (p : Nat) (f : PilotPt → PilotPt) :
    (State.updPil s p f).pending = s.pending := by simp [State.updPil]

@[simp] theorem pilEvt_pending (p i : Nat) (s : State) : (pilEvt p i s).pending = s.pending := by simp [pilEvt]

@[simp] theorem countPt_pending (p : Nat) (f : PtCount → PtCount) (s : State) :
    (countPt p f s).pending = s.pending := by simp [countPt]

@[simp] theorem pilGo_pending (p : Nat) (st : PilSt) (s : State) : (pilGo p st s).pending = s.pending := by simp [pilGo]

@[simp] theorem pilStart_pending (p : Nat) (s : State) : (pilStart p s).pending = s.pending := by simp [pilStart]

@[simp] theorem pilDriveF_pending (held : Bool) (p : Nat) (s : State) :
    (pilDriveF held p s).pending = s.pending := by simp [pilDriveF]

@[simp] theorem pilToX1_pending (p : Nat) (s : State) : (pilToX1 p s).pending = s.pending := by simp [pilToX1]

@[simp] theorem pilRelease_pending (p : Nat) (s : State) : (pilRelease p s).pending = s.pending := by simp [pilRelease]

@[simp] theorem pilRailBack_pending (p : Nat) (s : State) :
    (pilRailBack p s).pending = s.pending := by simp [pilRailBack]

@[simp] theorem psqSelfRelease_pending (s : State) : (psqSelfRelease s).pending = s.pending := by simp [psqSelfRelease]

@[simp] theorem safeReport_pending (s : State) : (safeReport s).pending = s.pending := by simp [safeReport]

@[simp] theorem safeLatches_pending (s : State) : (safeLatches s).pending = s.pending := by simp [safeLatches]

@[simp] theorem safeEnter_pending (s : State) : (safeEnter s).pending = s.pending := by simp [safeEnter]

@[simp] theorem seqSet_pending (k : Nat) (d2 on : Bool) (s : State) :
    (seqSet k d2 on s).pending = s.pending := by simp [seqSet]

/-! ### BridleOps -/

@[simp] theorem State.updBp_pending (s : State) (p : Nat) (f : BrPt → BrPt) :
    (State.updBp s p f).pending = s.pending := by simp [State.updBp]

@[simp] theorem bridleStatus_pending (s : State) : (bridleStatus s).pending = s.pending := by simp [bridleStatus]

@[simp] theorem note_pending (kind unit : Nat) (data : Word) (s : State) :
    (note kind unit data s).pending = s.pending := by simp [note]

@[simp] theorem syncOut_pending (x : Nat) (s : State) : (syncOut x s).pending = s.pending := by simp [syncOut]

@[simp] theorem syncPilot_pending (p : Nat) (s : State) : (syncPilot p s).pending = s.pending := by simp [syncPilot]

@[simp] theorem syncPoint_pending (p : Nat) (s : State) : (syncPoint p s).pending = s.pending := by simp [syncPoint]

@[simp] theorem setCause_pending (p : Nat) (c : HoldCause) (s : State) :
    (setCause p c s).pending = s.pending := by simp [setCause]

@[simp] theorem clearCause_pending (p : Nat) (c : HoldCause) (s : State) :
    (clearCause p c s).pending = s.pending := by simp [clearCause]

@[simp] theorem resendHolds_pending (s : State) : (resendHolds s).pending = s.pending := by simp [resendHolds]

/-! ### GirthOps -/

@[simp] theorem girthAccept_pending (port : Nat) (ctx : Option Nat) (kind unit hold : Nat) (s : State) :
    (girthAccept port ctx kind unit hold s).2.1.pending = s.pending := by
  unfold girthAccept; dsimp only; (repeat' split) <;> simp

@[simp] theorem girthSubmit_pending (port : Nat) (ctx : Option Nat) (kind unit hold : Nat) (s : State) :
    (girthSubmit port ctx kind unit hold s).2.pending = s.pending := by simp [girthSubmit]

@[simp] theorem girthUsed_pending (port : Nat) (ctx : Option Nat) (kind : Nat) (s : State) :
    (girthUsed port ctx kind s).pending = s.pending := by
  unfold girthUsed; dsimp only; (repeat' split) <;> simp

theorem girthRun_pending (port : Nat) (l : List Nat) (s t : State) (h : girthRun port l s = some t) :
    t.pending = s.pending := by
  induction l generalizing s with
  | nil => cases h; rfl
  | cons k r ih =>
    unfold girthRun at h
    split at h
    · rw [ih _ h]; simp
    · cases h

@[simp] theorem underGrants_pending (port : Nat) (kinds : List Nat) (f : State → Status × State) (s : State) (h_f : ∀  t, (f  t).2.pending = t.pending) :
    (underGrants port kinds f s).2.pending = s.pending := by
  unfold underGrants
  dsimp only
  split
  · exact h_f s
  · split
    · rfl
    · rename_i e; rw [h_f]; exact girthRun_pending _ _ _ _ e

@[simp] theorem girthOrphan_pending (slot : Nat) (s : State) :
    (girthOrphan slot s).pending = s.pending := by simp [girthOrphan]

/-! ### Outputs -/

@[simp] theorem powerWrite_pending (f : State → State) (s : State) (h_f : ∀  t, (f  t).pending = t.pending) :
    (powerWrite f s).pending = s.pending := by
  unfold powerWrite; (repeat' split) <;> simp [*]

@[simp] theorem outIgnore_pending (x : Nat) (s : State) : (outIgnore x s).pending = s.pending := by simp [outIgnore]

@[simp] theorem outStart_pending (x : Nat) (s : State) : (outStart x s).pending = s.pending := by simp [outStart]

@[simp] theorem outIgnoreOff_pending (x : Nat) (s : State) :
    (outIgnoreOff x s).pending = s.pending := by simp [outIgnoreOff]

@[simp] theorem outOn_pending (x : Nat) (s : State) : (outOn x s).pending = s.pending := by simp [outOn]

@[simp] theorem outRestart_pending (x : Nat) (s : State) : (outRestart x s).pending = s.pending := by
  have h := girthAccept_pending restartPort none (outGirthKind x) (outUnit x) 0 s
  unfold outRestart
  split
  · rename_i e; rw [e] at h; simpa using h
  · rfl
  · simp

@[simp] theorem outRestartDue_pending (x : Nat) (s : State) :
    (outRestartDue x s).pending = s.pending := by simp [outRestartDue]

@[simp] theorem outSwitchOff_pending (x : Nat) (s : State) :
    (outSwitchOff x s).pending = s.pending := by simp [outSwitchOff]

@[simp] theorem outFirmware_pending (x : Nat) (f : State → State) (s : State) (h_f : ∀  t, (f  t).pending = t.pending) :
    (outFirmware x f s).pending = s.pending := by
  unfold outFirmware; (repeat' split) <;> simp [*]

@[simp] theorem outCmdOff_pending (x : Nat) (s : State) : (outCmdOff x s).pending = s.pending := by simp [outCmdOff]

theorem execOutputOff_pending (x : Fin 96) (s s' : State) (ht : execOutputOff x s = .next s') :
    s'.pending = s.pending := by
  cases ht; simp

@[simp] theorem outClear_pending (x : Nat) (s : State) : (outClear x s).pending = s.pending := by simp [outClear]

@[simp] theorem outCmdClear_pending (x : Nat) (s : State) :
    (outCmdClear x s).pending = s.pending := by simp [outCmdClear]

theorem execOutputClear_pending (x : Fin 96) (s s' : State) (ht : execOutputClear x s = .next s') :
    s'.pending = s.pending := by
  cases ht; simp

@[simp] theorem outTest_pending (x : Nat) (sampleMv meanMa : Int) (s : State) :
    (outTest x sampleMv meanMa s).pending = s.pending := by
  unfold outTest; dsimp only; (repeat' split) <;> simp

theorem execOutputTestPulse_pending (x : Fin 96) (sampleMv meanMa : Int) (s s' : State) (ht : execOutputTestPulse x sampleMv meanMa s = .next s') :
    s'.pending = s.pending := by
  cases ht; simp

theorem execOutputTestPeriod_pending (x : Fin 96) (sampleMv meanMa : Int) (s s' : State) (ht : execOutputTestPeriod x sampleMv meanMa s = .next s') :
    s'.pending = s.pending := by
  cases ht; simp

theorem execCoilPullInEnd_pending (n : Fin 64) (s s' : State) (ht : execCoilPullInEnd n s = .next s') :
    s'.pending = s.pending := by
  cases ht; simp

theorem execOutputCurrentLimit_pending (x : Fin 96) (s s' : State) (ht : execOutputCurrentLimit x s = .next s') :
    s'.pending = s.pending := by
  cases ht; simp

theorem execOutputLimitExit_pending (x : Fin 96) (s s' : State) (ht : execOutputLimitExit x s = .next s') :
    s'.pending = s.pending := by
  cases ht; simp

theorem execOutputThermalTrip_pending (x : Fin 96) (s s' : State) (ht : execOutputThermalTrip x s = .next s') :
    s'.pending = s.pending := by
  cases ht; simp

theorem execOutputRestartLevel_pending (x : Fin 96) (s s' : State) (ht : execOutputRestartLevel x s = .next s') :
    s'.pending = s.pending := by
  cases ht; simp

theorem execOutputRestartRetry_pending (x : Fin 96) (s s' : State) (ht : execOutputRestartRetry x s = .next s') :
    s'.pending = s.pending := by
  cases ht; simp

theorem execRetryWindowExpiry_pending (x : Fin 96) (s s' : State) (ht : execRetryWindowExpiry x s = .next s') :
    s'.pending = s.pending := by
  cases ht; simp

theorem execOutputWarningBand_pending (b : BandChange) (s s' : State) (ht : execOutputWarningBand b s = .next s') :
    s'.pending = s.pending := by
  cases ht; (repeat' split) <;> simp

theorem execOutputSumOver_pending (sum : Nat) (s s' : State) (ht : execOutputSumOver sum s = .next s') :
    s'.pending = s.pending := by
  cases ht; simp

@[simp] theorem outCfgWrite_pending (x : Nat) (v : Word) (s : State) :
    (outCfgWrite x v s).pending = s.pending := by simp [outCfgWrite]

theorem execOutputCfgWrite_pending (x : Fin 96) (v : Word) (s s' : State) (ht : execOutputCfgWrite x v s = .next s') :
    s'.pending = s.pending := by
  cases ht; simp

@[simp] theorem outProtWrite_pending (v : Word) (s : State) :
    (outProtWrite v s).pending = s.pending := by simp [outProtWrite]

theorem execOutProtWrite_pending (v : Word) (s s' : State) (ht : execOutProtWrite v s = .next s') :
    s'.pending = s.pending := by
  cases ht; simp

/-! ### Pilot -/

@[simp] theorem pilWakeReq_pending (p : Nat) (s : State) : (pilWakeReq p s).pending = s.pending := by simp [pilWakeReq]

@[simp] theorem pilCommand_pending (p : Nat) (v : Word) (s : State) :
    (pilCommand p v s).pending = s.pending := by simp [pilCommand]

theorem execPilotCommand_pending (p : Fin 64) (v : Word) (s s' : State) (ht : execPilotCommand p v s = .next s') :
    s'.pending = s.pending := by
  cases ht; simp

theorem execPilotWake_pending (p : Fin 64) (v : Word) (s s' : State) (ht : execPilotWake p v s = .next s') :
    s'.pending = s.pending := by
  cases ht; simp

@[simp] theorem pilAfterMode_pending (p : Nat) (s : State) :
    (pilAfterMode p s).pending = s.pending := by simp [pilAfterMode]

@[simp] theorem pilNone_pending (p : Nat) (s : State) : (pilNone p s).pending = s.pending := by simp [pilNone]

@[simp] theorem pilPeriod_pending (p : Nat) (s : State) : (pilPeriod p s).pending = s.pending := by simp [pilPeriod]

theorem execPilotWakeEnd_pending (p : Fin 64) (s s' : State) (ht : execPilotWakeEnd p s = .next s') :
    s'.pending = s.pending := by
  cases ht; simp

theorem execPilotPeriodTrim_pending (periodNs : Nat) (s s' : State) (ht : execPilotPeriodTrim periodNs s = .next s') :
    s'.pending = s.pending := by
  cases ht; simp

@[simp] theorem pilFault_pending (p : Nat) (st : PilSt) (evt : Nat) (cause : BitVec 3) (s : State) :
    (pilFault p st evt cause s).pending = s.pending := by simp [pilFault]

@[simp] theorem pilPositive_pending (p : Nat) (mv : List Int) (s : State) :
    (pilPositive p mv s).pending = s.pending := by simp [pilPositive]

@[simp] theorem pilNegative_pending (p : Nat) (mv : List Int) (s : State) :
    (pilNegative p mv s).pending = s.pending := by simp [pilNegative]

theorem execPilotPlateauEvaluation_pending (p : Fin 64) (neg : Bool) (samples : List PilSample) (s s' : State) (ht : execPilotPlateauEvaluation p neg samples s = .next s') :
    s'.pending = s.pending := by
  cases ht; simp

@[simp] theorem pilotFaultFrame_pending (p : Nat) (s : State) :
    (pilotFaultFrame p s).pending = s.pending := by simp [pilotFaultFrame]

theorem execPilotFaultFrame_pending (p : Fin 64) (_cause : Fin 3) (s s' : State) (ht : execPilotFaultFrame p _cause s = .next s') :
    s'.pending = s.pending := by
  cases ht; simp

theorem execOffWaitExpiry_pending (p : Fin 64) (s s' : State) (ht : execOffWaitExpiry p s = .next s') :
    s'.pending = s.pending := by
  cases ht; simp

@[simp] theorem proxMeasure_pending (p : Nat) (v1 v2 : Int) (s : State) :
    (proxMeasure p v1 v2 s).pending = s.pending := by simp [proxMeasure]

theorem execProximityMeasurement_pending (p : Fin 64) (v1 v2 : Int) (s s' : State) (ht : execProximityMeasurement p v1 v2 s = .next s') :
    s'.pending = s.pending := by
  cases ht; simp

@[simp] theorem pilCfgWrite_pending (p : Nat) (v : Word) (s : State) :
    (pilCfgWrite p v s).pending = s.pending := by simp [pilCfgWrite]

@[simp] theorem pilRsrcWrite_pending (p : Nat) (v : Word) (s : State) :
    (pilRsrcWrite p v s).pending = s.pending := by simp [pilRsrcWrite]

theorem execPilotCfgWrite_pending (p : Fin 64) (rsrc : Bool) (v : Word) (s s' : State) (ht : execPilotCfgWrite p rsrc v s = .next s') :
    s'.pending = s.pending := by
  cases ht; simp

@[simp] theorem pilTsRead_pending (port p : Nat) (s : State) :
    (pilTsRead port p s).pending = s.pending := by simp [pilTsRead]

theorem execPilTsRead_pending (port : Fin 24) (p : Fin 64) (s s' : State) (ht : execPilTsRead port p s = .next s') :
    s'.pending = s.pending := by
  cases ht; simp

/-! ### Bridle -/

@[simp] theorem stoSet_pending (n : Nat) (on : Bool) (s : State) :
    (stoSet n on s).pending = s.pending := by simp [stoSet]

@[simp] theorem stoFault_pending (n : Nat) (s : State) : (stoFault n s).pending = s.pending := by simp [stoFault]

@[simp] theorem State.updDev_pending (s : State) (d : Nat) (f : Device → Device) :
    (State.updDev s d f).pending = s.pending := by simp [State.updDev]

@[simp] theorem syncDevice_pending (d : Nat) (s : State) : (syncDevice d s).pending = s.pending := by simp [syncDevice]

@[simp] theorem devGo_pending (d : Nat) (st : DevSt) (s : State) : (devGo d st s).pending = s.pending := by simp [devGo]

@[simp] theorem devOff_pending (d : Nat) (s : State) : (devOff d s).pending = s.pending := by simp [devOff]

@[simp] theorem devFault_pending (d cause : Nat) (s : State) :
    (devFault d cause s).pending = s.pending := by simp [devFault]

@[simp] theorem devInputs_pending (d : Nat) (s : State) : (devInputs d s).pending = s.pending := by
  unfold devInputs; (repeat' split) <;> simp

@[simp] theorem devStop_pending (d : Nat) (s : State) : (devStop d s).pending = s.pending := by simp [devStop]

@[simp] theorem groupStop_pending (g : Nat) (s : State) : (groupStop g s).pending = s.pending := by simp [groupStop]

@[simp] theorem groupRun_pending (g : Nat) (s : State) : (groupRun g s).pending = s.pending := by simp [groupRun]

@[simp] theorem evalGroup_pending (g : Nat) (s : State) : (evalGroup g s).pending = s.pending := by simp [evalGroup]

@[simp] theorem evalGroups_pending (s : State) : (evalGroups s).pending = s.pending := by simp [evalGroups]

@[simp] theorem edgeDevice_pending (d : Nat) (s : State) : (edgeDevice d s).pending = s.pending := by simp [edgeDevice]

@[simp] theorem edgePair_pending (i : Nat) (s : State) : (edgePair i s).pending = s.pending := by
  unfold edgePair; dsimp only; (repeat' split) <;> simp

@[simp] theorem edgePoint_pending (p : Nat) (s : State) : (edgePoint p s).pending = s.pending := by simp [edgePoint]

@[simp] theorem edgeGroup_pending (g : Nat) (s : State) : (edgeGroup g s).pending = s.pending := by simp [edgeGroup]

@[simp] theorem resetEdge_pending (groups : BitVec 16) (devs : BitVec 8) (unit : Nat) (s : State) :
    (resetEdge groups devs unit s).pending = s.pending := by simp [resetEdge]

@[simp] theorem reclaimTake_pending (hi : Bool) (v : Word) (s : State) :
    (reclaimTake hi v s).pending = s.pending := by simp [reclaimTake]

@[simp] theorem reclaimFront_pending (l : List BrMsg) (s : State) : (reclaimFront l s).pending = s.pending := by
  induction l generalizing s with
  | nil => rfl
  | cons m r ih => cases m <;> first | rfl | simp [reclaimFront, ih]

@[simp] theorem takeReclaims_pending (s : State) : (takeReclaims s).pending = s.pending := by
  unfold takeReclaims
  split
  · rfl
  · exact reclaimFront_pending _ _

@[simp] theorem bridleFault_pending (cause : Nat) (s : State) :
    (bridleFault cause s).pending = s.pending := by simp [bridleFault]

@[simp] theorem bridleSafe_pending (cause : Nat) (s : State) :
    (bridleSafe cause s).pending = s.pending := by simp [bridleSafe]

@[simp] theorem devBegin_pending (d : Nat) (s : State) : (devBegin d s).pending = s.pending := by simp [devBegin]

@[simp] theorem bridleRun_pending (c : SafCfg) (unsealed : Bool) (slot : Nat) (s : State) :
    (bridleRun c unsealed slot s).pending = s.pending := by simp [bridleRun]

@[simp] theorem bridleRelease_pending (lockstepOk : Bool) (s : State) :
    (bridleRelease lockstepOk s).pending = s.pending := by
  unfold bridleRelease; (repeat' split) <;> simp

theorem execBridleRelease_pending (lockstepOk : Bool) (s s' : State) (ht : execBridleRelease lockstepOk s = .next s') :
    s'.pending = s.pending := by
  cases ht; simp

theorem execLockstepMismatch_pending (s s' : State) (ht : execLockstepMismatch s = .next s') :
    s'.pending = s.pending := by
  cases ht; simp

theorem execBridleWatchdogExpiry_pending (s s' : State) (ht : execBridleWatchdogExpiry s = .next s') :
    s'.pending = s.pending := by
  cases ht; simp

theorem execMarchTest_pending (pass : Bool) (s s' : State) (ht : execMarchTest pass s = .next s') :
    s'.pending = s.pending := by
  cases ht; simp

theorem execBridleCodeCheck_pending (pass : Bool) (s s' : State) (ht : execBridleCodeCheck pass s = .next s') :
    s'.pending = s.pending := by
  cases ht; simp

theorem execBridleOscFail_pending (s s' : State) (ht : execBridleOscFail s = .next s') : s'.pending = s.pending := by
  cases ht; simp

@[simp] theorem bridleRestart_pending (codeOk configOk : Bool) (s : State) :
    (bridleRestart codeOk configOk s).pending = s.pending := by simp [bridleRestart]

theorem execBridleRestart_pending (codeOk configOk : Bool) (s s' : State) (ht : execBridleRestart codeOk configOk s = .next s') :
    s'.pending = s.pending := by
  cases ht; simp

@[simp] theorem mirrorCheck_pending (p : Nat) (s : State) :
    (mirrorCheck p s).pending = s.pending := by simp [mirrorCheck]

theorem execMirrorChange_pending (p : Fin 64) (high : Bool) (s s' : State) (ht : execMirrorChange p high s = .next s') :
    s'.pending = s.pending := by
  cases ht; simp

theorem execMirrorOpenTimeout_pending (p : Fin 64) (s s' : State) (ht : execMirrorOpenTimeout p s = .next s') :
    s'.pending = s.pending := by
  cases ht; simp

theorem execMirrorCloseTimeout_pending (p : Fin 64) (s s' : State) (ht : execMirrorCloseTimeout p s = .next s') :
    s'.pending = s.pending := by
  cases ht; simp

theorem execTpStuckReport_pending (n : Fin 64) (s s' : State) (ht : execTpStuckReport n s = .next s') :
    s'.pending = s.pending := by
  cases ht; simp

@[simp] theorem siReact_pending (i : Nat) (was : Bool) (since : Option Nat) (s : State) :
    (siReact i was since s).pending = s.pending := by
  unfold siReact; dsimp only; (repeat' split) <;> simp

@[simp] theorem safetyInput_pending (i : Nat) (a b : Bool) (s : State) :
    (safetyInput i a b s).pending = s.pending := by simp [safetyInput]

theorem execSafetyInputChange_pending (i : Fin 16) (a b : Bool) (s s' : State) (ht : execSafetyInputChange i a b s = .next s') :
    s'.pending = s.pending := by
  cases ht; simp

theorem execSafetyInputDiscrepancy_pending (i : Fin 16) (s s' : State) (ht : execSafetyInputDiscrepancy i s = .next s') :
    s'.pending = s.pending := by
  cases ht; simp

@[simp] theorem inputPathTest_pending (u : PathUnit) (pass : Bool) (s : State) :
    (inputPathTest u pass s).pending = s.pending := by
  unfold inputPathTest; (repeat' split) <;> simp

theorem execInputPathTest_pending (u : PathUnit) (pass : Bool) (s s' : State) (ht : execInputPathTest u pass s = .next s') :
    s'.pending = s.pending := by
  cases ht; simp

@[simp] theorem motionSample_pending (d : Nat) (m : MotionSample) (s : State) :
    (motionSample d m s).pending = s.pending := by simp [motionSample]

@[simp] theorem motionJudge_pending (d : Nat) (s : State) : (motionJudge d s).pending = s.pending := by
  unfold motionJudge; dsimp only; (repeat' split) <;> simp

@[simp] theorem motionMonitor_pending (d : Nat) (m : MotionSample) (s : State) :
    (motionMonitor d m s).pending = s.pending := by simp [motionMonitor]

theorem execDeviceMotionMonitor_pending (d : Fin 8) (m : MotionSample) (s s' : State) (ht : execDeviceMotionMonitor d m s = .next s') :
    s'.pending = s.pending := by
  cases ht; simp

@[simp] theorem ss1End_pending (d : Nat) (s : State) : (ss1End d s).pending = s.pending := by simp [ss1End]

theorem execSs1Standstill_pending (d : Fin 8) (s s' : State) (ht : execSs1Standstill d s = .next s') :
    s'.pending = s.pending := by
  cases ht; simp

theorem execSs1Timeout_pending (d : Fin 8) (s s' : State) (ht : execSs1Timeout d s = .next s') :
    s'.pending = s.pending := by
  cases ht; simp

theorem execDeviceMoveTimeout_pending (d : Fin 8) (s s' : State) (ht : execDeviceMoveTimeout d s = .next s') :
    s'.pending = s.pending := by
  cases ht; simp

theorem execStoOffPulse_pending (n : Fin 8) (b readback : Bool) (s s' : State) (ht : execStoOffPulse n b readback s = .next s') :
    s'.pending = s.pending := by
  cases ht; simp

theorem execStoDiscrepancy_pending (n : Fin 8) (s s' : State) (ht : execStoDiscrepancy n s = .next s') :
    s'.pending = s.pending := by
  cases ht; simp

@[simp] theorem State.updRx_pending (s : State) (i : Nat) (f : SafeRx → SafeRx) :
    (State.updRx s i f).pending = s.pending := by simp [State.updRx]

@[simp] theorem discardPair_pending (s : State) : (discardPair s).pending = s.pending := by simp [discardPair]

@[simp] theorem acceptPair_pending (i : Nat) (c : BitVec 8) (d : Word) (s : State) :
    (acceptPair i c d s).pending = s.pending := by
  unfold acceptPair; dsimp only; (repeat' split) <;> simp

@[simp] theorem safeValue_pending (i : Nat) (s : State) : (safeValue i s).pending = s.pending := by simp [safeValue]

@[simp] theorem safeReceive_pending (i : Nat) (onF1 crcOk : Bool) (c : BitVec 8) (d : Word) (s : State) :
    (safeReceive i onF1 crcOk c d s).pending = s.pending := by
  unfold safeReceive; dsimp only; (repeat' split) <;> simp

theorem execSafeMessageReceive_pending (i : Fin 16) (onF1 : Bool) (d : Word) (c : Byte) (x : SafeTail) (s s' : State) (ht : execSafeMessageReceive i onF1 d c x s = .next s') :
    s'.pending = s.pending := by
  cases ht; simp

theorem execSafeMessageWindowExpiry_pending (i : Fin 16) (s s' : State) (ht : execSafeMessageWindowExpiry i s = .next s') :
    s'.pending = s.pending := by
  cases ht; simp

theorem execSafeMessageTimeout_pending (i : Fin 16) (s s' : State) (ht : execSafeMessageTimeout i s = .next s') :
    s'.pending = s.pending := by
  cases ht; simp

theorem execSafeMessageTransmit_pending (j : Fin 8) (s s' : State) (ht : execSafeMessageTransmit j s = .next s') :
    s'.pending = s.pending := by
  cases ht; simp

theorem execSafeMessageReadbackMissing_pending (j : Fin 8) (onF1 : Bool) (s s' : State) (ht : execSafeMessageReadbackMissing j onF1 s = .next s') :
    s'.pending = s.pending := by
  cases ht; simp

@[simp] theorem bridleTake_pending (ty : BitVec 8) (tag : Word) (f : State → Status × State) (s : State) (h_f : ∀  t, (f  t).2.pending = t.pending) :
    (bridleTake ty tag f s).pending = s.pending := by
  unfold bridleTake; dsimp only; (repeat' split) <;> simp [*]

@[simp] theorem newChallenge_pending (s : State) : (newChallenge s).pending = s.pending := by simp [newChallenge]

@[simp] theorem pilotReleaseMsg_pending (u : Nat) (chal : BitVec 16) (s : State) :
    (pilotReleaseMsg u chal s).2.pending = s.pending := by
  unfold pilotReleaseMsg; dsimp only; (repeat' split) <;> simp

theorem execPilotRelease_pending (unit : BitVec 8) (chal : BitVec 16) (tag : Word) (s s' : State) (ht : execPilotRelease unit chal tag s = .next s') :
    s'.pending = s.pending := by
  cases ht; simp

@[simp] theorem earthDrop_pending (p : Nat) (s : State) : (earthDrop p s).pending = s.pending := by simp [earthDrop]

@[simp] theorem earthReleaseMsg_pending (u : Nat) (chal : BitVec 16) (s : State) :
    (earthReleaseMsg u chal s).2.pending = s.pending := by
  unfold earthReleaseMsg; dsimp only; (repeat' split) <;> simp

theorem execEarthRelease_pending (unit : BitVec 8) (chal : BitVec 16) (tag : Word) (s s' : State) (ht : execEarthRelease unit chal tag s = .next s') :
    s'.pending = s.pending := by
  cases ht; simp

@[simp] theorem shutdownCoil_pending (p : Nat) (s : State) :
    (shutdownCoil p s).pending = s.pending := by simp [shutdownCoil]

@[simp] theorem currentMsg_pending (u : Nat) (ma : Word) (s : State) : (currentMsg u ma s).2.pending = s.pending := by
  unfold currentMsg; (repeat' split) <;> simp

theorem execCurrent_pending (unit : BitVec 8) (ma tag : Word) (s s' : State) (ht : execCurrent unit ma tag s = .next s') :
    s'.pending = s.pending := by
  cases ht; simp

@[simp] theorem stopReqMsg_pending (u : Nat) (s : State) : (stopReqMsg u s).2.pending = s.pending := by
  unfold stopReqMsg; (repeat' split) <;> simp

theorem execStopReq_pending (unit : BitVec 8) (tag : Word) (s s' : State) (ht : execStopReq unit tag s = .next s') :
    s'.pending = s.pending := by
  cases ht; simp

@[simp] theorem motionReqMsg_pending (d : Nat) (dir : Word) (s : State) :
    (motionReqMsg d dir s).2.pending = s.pending := by
  unfold motionReqMsg; dsimp only; (repeat' split) <;> simp

theorem execMotionReq_pending (unit : BitVec 8) (dir tag : Word) (s s' : State) (ht : execMotionReq unit dir tag s = .next s') :
    s'.pending = s.pending := by
  cases ht; simp

@[simp] theorem holdReleaseMsg_pending (u : Nat) (chal : BitVec 16) (s : State) :
    (holdReleaseMsg u chal s).2.pending = s.pending := by
  unfold holdReleaseMsg; (repeat' split) <;> simp

theorem execHoldRelease_pending (unit : BitVec 8) (chal : BitVec 16) (tag : Word) (s s' : State) (ht : execHoldRelease unit chal tag s = .next s') :
    s'.pending = s.pending := by
  cases ht; simp

@[simp] theorem noteAckMsg_pending (seq : Word) (s : State) : (noteAckMsg seq s).2.pending = s.pending := by
  unfold noteAckMsg; dsimp only; (repeat' split) <;> simp

theorem execNoteAck_pending (seq tag : Word) (s s' : State) (ht : execNoteAck seq tag s = .next s') :
    s'.pending = s.pending := by
  cases ht; simp

theorem execUnknownSafeMessage_pending (ty : BitVec 8) (tag : Word) (s s' : State) (ht : execUnknownSafeMessage ty tag s = .next s') :
    s'.pending = s.pending := by
  cases ht; simp

@[simp] theorem holdWindowStart_pending (s : State) :
    (holdWindowStart s).pending = s.pending := by simp [holdWindowStart]

@[simp] theorem shutdownStart_pending (p : Nat) (s : State) :
    (shutdownStart p s).pending = s.pending := by simp [shutdownStart]

theorem execHoldWindowExpiry_pending (s s' : State) (ht : execHoldWindowExpiry s = .next s') :
    s'.pending = s.pending := by
  cases ht; simp

theorem execShutdownCurrentTimeout_pending (p : Fin 64) (s s' : State) (ht : execShutdownCurrentTimeout p s = .next s') :
    s'.pending = s.pending := by
  cases ht; simp

theorem execShutdownLockRelease_pending (p : Fin 64) (s s' : State) (ht : execShutdownLockRelease p s = .next s') :
    s'.pending = s.pending := by
  cases ht; simp

@[simp] theorem reclaimWrite_pending (hi : Bool) (v : Word) (s : State) :
    (reclaimWrite hi v s).pending = s.pending := by simp [reclaimWrite]

theorem execReclaim_pending (hi : Bool) (v : Word) (s s' : State) (ht : execReclaim hi v s = .next s') :
    s'.pending = s.pending := by
  cases ht; simp

/-! ### Buckle -/

@[simp] theorem claimSource_pending (n : Nat) (s : State) :
    (claimSource n s).pending = s.pending := by simp [claimSource]

@[simp] theorem bklClaim_pending (t : Nat) (s : State) : (bklClaim t s).pending = s.pending := by simp [bklClaim]

theorem execBuckleClaim_pending (t : Fin 18) (s s' : State) (ht : execBuckleClaim t s = .next s') :
    s'.pending = s.pending := by
  cases ht; simp

@[simp] theorem completeSource_pending (t n : Nat) (s : State) :
    (completeSource t n s).pending = s.pending := by simp [completeSource]

@[simp] theorem bklComplete_pending (t : Nat) (v : Word) (s : State) :
    (bklComplete t v s).pending = s.pending := by simp [bklComplete]

theorem execBuckleComplete_pending (t : Fin 18) (v : Word) (s s' : State) (ht : execBuckleComplete t v s = .next s') :
    s'.pending = s.pending := by
  cases ht; simp

@[simp] theorem bklPendRead_pending (port k : Nat) (s : State) :
    (bklPendRead port k s).pending = s.pending := by simp [bklPendRead]

theorem execBuckleCPendRead_pending (port : Fin 24) (k : Fin 16) (s s' : State) (ht : execBuckleCPendRead port k s = .next s') :
    s'.pending = s.pending := by
  cases ht; simp

@[simp] theorem clearLatches_pending (k : Nat) (m : Word) (s : State) :
    (clearLatches k m s).pending = s.pending := by simp [clearLatches]

@[simp] theorem bklPendWrite_pending (port k : Nat) (v : Word) (s : State) :
    (bklPendWrite port k v s).pending = s.pending := by simp [bklPendWrite]

theorem execBuckleCPendWrite_pending (port : Fin 24) (k : Fin 16) (v : Word) (s s' : State) (ht : execBuckleCPendWrite port k v s = .next s') :
    s'.pending = s.pending := by
  cases ht; simp

@[simp] theorem bklVec_pending (t : Nat) (s : State) : (bklVec t s).pending = s.pending := by simp [bklVec]

theorem execBuckleCVecRead_pending (t : Fin 18) (s s' : State) (ht : execBuckleCVecRead t s = .next s') :
    s'.pending = s.pending := by
  cases ht; simp

theorem execBucklePendClear_pending (k : Fin 16) (v : Word) (s s' : State) (ht : execBucklePendClear k v s = .next s') :
    s'.pending = s.pending := by
  cases ht; simp

@[simp] theorem bklSwset_pending (v : Word) (s : State) : (bklSwset v s).pending = s.pending := by simp [bklSwset]

theorem execBuckleSoftwareSet_pending (v : Word) (s s' : State) (ht : execBuckleSoftwareSet v s = .next s') :
    s'.pending = s.pending := by
  cases ht; simp

@[simp] theorem bklCfgWrite_pending (v : Word) (s : State) :
    (bklCfgWrite v s).pending = s.pending := by simp [bklCfgWrite]

theorem execBuckleCfgWrite_pending (v : Word) (s s' : State) (ht : execBuckleCfgWrite v s = .next s') :
    s'.pending = s.pending := by
  cases ht; simp

theorem execBuckleSourceEdge_pending (src : Fin 512) (s s' : State) (ht : execBuckleSourceEdge src s = .next s') :
    s'.pending = s.pending := by
  cases ht; simp

theorem execBuckleLevelChange_pending (src : Fin 512) (level : Bool) (s s' : State) (ht : execBuckleLevelChange src level s = .next s') :
    s'.pending = s.pending := by
  cases ht; simp

@[simp] theorem transferSleep_pending (s : State) : (transferSleep s).pending = s.pending := by simp [transferSleep]

@[simp] theorem wakeTarget_pending (t : Nat) (s : State) : (wakeTarget t s).pending = s.pending := by simp [wakeTarget]

@[simp] theorem sleepWake_pending (n : Nat) (s : State) : (sleepWake n s).pending = s.pending := by simp [sleepWake]

theorem execSleepLatchWake_pending (src : Fin 512) (s s' : State) (ht : execSleepLatchWake src s = .next s') :
    s'.pending = s.pending := by
  cases ht; simp

@[simp] theorem bklSrcWrite_pending (n : Nat) (v : Word) (s : State) :
    (bklSrcWrite n v s).pending = s.pending := by simp [bklSrcWrite]

/-! ### Metrology -/

@[simp] theorem updUsers_pending (c : Nat) (f : Elem → Elem) (s : State) :
    (updUsers c f s).pending = s.pending := by simp [updUsers]

@[simp] theorem adcOverload_pending (c : Nat) (code : BitVec 12) (repl : List (BitVec 12)) (s : State) :
    (adcOverload c code repl s).pending = s.pending := by simp [adcOverload]

theorem execAdcOverload_pending (ch : Fin 80) (sar first : BitVec 12) (later : List (BitVec 12)) (s s' : State) (ht : execAdcOverload ch sar first later s = .next s') :
    s'.pending = s.pending := by
  cases ht; simp

theorem execGainRaise_pending (ch : Fin 80) (s s' : State) (ht : execGainRaise ch s = .next s') :
    s'.pending = s.pending := by
  cases ht; simp

@[simp] theorem elemFault_pending (e : Nat) (s : State) : (elemFault e s).pending = s.pending := by
  unfold elemFault; (repeat' split) <;> simp

@[simp] theorem chanFail_pending (c : Nat) (s : State) : (chanFail c s).pending = s.pending := by simp [chanFail]

theorem execBitstreamModfail_pending (b : Fin 64) (s s' : State) (ht : execBitstreamModfail b s = .next s') :
    s'.pending = s.pending := by
  cases ht; simp

@[simp] theorem State.updPls_pending (s : State) (k : Nat) (f : Pulse → Pulse) :
    (State.updPls s k f).pending = s.pending := by simp [State.updPls]

@[simp] theorem pulseSync_pending (k : Nat) (s : State) : (pulseSync k s).pending = s.pending := by simp [pulseSync]

@[simp] theorem pulseSyncAll_pending (s : State) : (pulseSyncAll s).pending = s.pending := by simp [pulseSyncAll]

@[simp] theorem routeCycle_pending (e : Nat) (c : CycleData) (s : State) : (routeCycle e c s).pending = s.pending := by
  unfold routeCycle; (repeat' split) <;> simp

@[simp] theorem cycleBoundary_pending (e : Nat) (s : State) :
    (cycleBoundary e s).pending = s.pending := by simp [cycleBoundary]

@[simp] theorem refCycle_pending (e ch : Nat) (v : Int) (cal raw : List Int) (overs : Nat) (s : State) :
    (refCycle e ch v cal raw overs s).pending = s.pending := by simp [refCycle]

@[simp] theorem cycleRms_pending (e : Nat) (r : CycleRaw) (c : CycleData) (s : State) :
    (cycleRms e r c s).pending = s.pending := by simp [cycleRms]

@[simp] theorem closeCycle_pending (e : Nat) (r : CycleRaw) (block short : Bool) (s : State) :
    (closeCycle e r block short s).pending = s.pending := by simp [closeCycle]

@[simp] theorem cycleEnd_pending (e : Nat) (r : CycleRaw) (s : State) :
    (cycleEnd e r s).pending = s.pending := by simp [cycleEnd]

theorem execElementCycleEnd_pending (e : Fin 128) (c : CycleRaw) (s s' : State) (ht : execElementCycleEnd e c s = .next s') :
    s'.pending = s.pending := by
  cases ht; simp

@[simp] theorem blockEntry_pending (e : Nat) (r : CycleRaw) (s : State) :
    (blockEntry e r s).pending = s.pending := by simp [blockEntry]

theorem execBlockModeEntry_pending (e : Fin 128) (c : CycleRaw) (s s' : State) (ht : execBlockModeEntry e c s = .next s') :
    s'.pending = s.pending := by
  cases ht; simp

@[simp] theorem blockReturn_pending (e : Nat) (r : CycleRaw) (cycles : List CycleRaw) (s : State) :
    (blockReturn e r cycles s).pending = s.pending := by simp [blockReturn]

theorem execBlockModeReturn_pending (x : BlockReturn) (s s' : State) (ht : execBlockModeReturn x s = .next s') :
    s'.pending = s.pending := by
  cases ht; simp

@[simp] theorem harmonicEnd_pending (ch : Nat) (bins : List Nat) (s : State) :
    (harmonicEnd ch bins s).pending = s.pending := by simp [harmonicEnd]

theorem execHarmonicWindowEnd_pending (ch : Fin 144) (re im : List Int) (s s' : State) (ht : execHarmonicWindowEnd ch re im s = .next s') :
    s'.pending = s.pending := by
  cases ht; simp

theorem execTemperatureBandSample_pending (temp : Int) (s s' : State) (ht : execTemperatureBandSample temp s = .next s') :
    s'.pending = s.pending := by
  cases ht; simp

@[simp] theorem shadowDisagree_pending (k : Nat) (s : State) :
    (shadowDisagree k s).pending = s.pending := by simp [shadowDisagree]

@[simp] theorem shadowAgree_pending (k : Nat) (s : State) :
    (shadowAgree k s).pending = s.pending := by simp [shadowAgree]

@[simp] theorem shadowCheck_pending (k c : Nat) (pass : Bool) (s : State) :
    (shadowCheck k c pass s).pending = s.pending := by
  unfold shadowCheck; dsimp only; (repeat' split) <;> simp

theorem execShadowCheckEnd_pending (k : Fin 8) (ch : Fin 80) (x : Comparison) (s s' : State) (ht : execShadowCheckEnd k ch x s = .next s') :
    s'.pending = s.pending := by
  cases ht; simp

@[simp] theorem pulseDue_pending (k : Nat) (s : State) : (pulseDue k s).pending = s.pending := by simp [pulseDue]

theorem execPulseDue_pending (k : Fin 8) (s s' : State) (ht : execPulseDue k s = .next s') :
    s'.pending = s.pending := by
  cases ht; simp

@[simp] theorem pulseEnd_pending (k : Nat) (s : State) : (pulseEnd k s).pending = s.pending := by simp [pulseEnd]

theorem execPulseOnTimeEnd_pending (k : Fin 8) (s s' : State) (ht : execPulseOnTimeEnd k s = .next s') :
    s'.pending = s.pending := by
  cases ht; simp

@[simp] theorem sliceEnd_pending (e : Nat) (c : CycleRaw) (s : State) :
    (sliceEnd e c s).pending = s.pending := by simp [sliceEnd]

theorem execSliceEnd_pending (e : Fin 128) (c : CycleRaw) (s s' : State) (ht : execSliceEnd e c s = .next s') :
    s'.pending = s.pending := by
  cases ht; simp

theorem execResidueUpdate_pending (e : Fin 128) (c : CycleRaw) (s s' : State) (ht : execResidueUpdate e c s = .next s') :
    s'.pending = s.pending := by
  cases ht; simp

theorem execPeriodicCommit_pending (s s' : State) (ht : execPeriodicCommit s = .next s') : s'.pending = s.pending := by
  cases ht; simp

@[simp] theorem metrologyAnswer_pending (role : Role) (kind part unit : Nat) (s : State) :
    (metrologyAnswer role kind part unit s).2.pending = s.pending := by
  unfold metrologyAnswer; (repeat' split) <;> simp

theorem execMetrologyRead_pending (rq : Rq) (kind part : BitVec 8) (unit : BitVec 16) (s s' : State) (ht : execMetrologyRead rq kind part unit s = .next s') :
    s'.pending = s.pending := by
  cases ht; simp

@[simp] theorem State.staged_pending (s : State) : (State.staged s).pending = s.pending := by simp [State.staged]

@[simp] theorem paramWrite_pending (role : Role) (idx sub : Nat) (data : List Byte) (s : State) :
    (paramWrite role idx sub data s).2.pending = s.pending := by
  unfold paramWrite; dsimp only; (repeat' split) <;> simp

theorem execSealParameterWrite_pending (rq : Rq) (idx : BitVec 16) (sub : BitVec 8) (data : List Byte) (s s' : State) (ht : execSealParameterWrite rq idx sub data s = .next s') :
    s'.pending = s.pending := by
  cases ht; exact whenDie_pending _ _ fun t => by simp; (repeat' split) <;> simp

@[simp] theorem sealOpen_pending (sel : BitVec 144) (s : State) : (sealOpen sel s).2.pending = s.pending := by
  unfold sealOpen; dsimp only; (repeat' split) <;> simp

theorem execSealOpen_pending (rq : Rq) (sel : BitVec 144) (s s' : State) (ht : execSealOpen rq sel s = .next s') :
    s'.pending = s.pending := by
  cases ht; exact whenDie_pending _ _ fun t => by simp; (repeat' split) <;> simp

@[simp] theorem recheck_pending (c : Nat) (s : State) : (recheck c s).pending = s.pending := by simp [recheck]

@[simp] theorem sealCommit_pending (pass : BitVec 144) (s : State) : (sealCommit pass s).2.pending = s.pending := by
  unfold sealCommit; (repeat' split) <;> simp

theorem execSealCloseCommit_pending (rq : Rq) (recheckPass : BitVec 144) (s s' : State) (ht : execSealCloseCommit rq recheckPass s = .next s') :
    s'.pending = s.pending := by
  cases ht; exact whenDie_pending _ _ fun t => by simp; (repeat' split) <;> simp

@[simp] theorem sealClose_pending (s : State) : (sealClose s).2.pending = s.pending := by
  unfold sealClose; (repeat' split) <;> simp

theorem execSealCloseAbandon_pending (rq : Rq) (s s' : State) (ht : execSealCloseAbandon rq s = .next s') :
    s'.pending = s.pending := by
  cases ht; exact whenDie_pending _ _ fun t => by simp; (repeat' split) <;> simp

theorem execSealTimeout_pending (s s' : State) (ht : execSealTimeout s = .next s') : s'.pending = s.pending := by
  cases ht; simp

/-! ### SealedObjects -/

@[simp] theorem sealedSession_pending (role : Role) (idx sub serial : Nat) (s : State) :
    (sealedSession role idx sub serial s).2.2.pending = s.pending := by
  unfold sealedSession; dsimp only; (repeat' split) <;> simp

@[simp] theorem sealedRead_pending (role : Role) (idx sub serial : Nat) (s : State) :
    (sealedRead role idx sub serial s).2.2.pending = s.pending := by
  unfold sealedRead; (repeat' split) <;> simp

theorem execSealedObjectRead_pending (rq : Rq) (idx : BitVec 16) (sub : BitVec 8) (off len : Nat) (serial : BitVec 64) (s s' : State) (ht : execSealedObjectRead rq idx sub off len serial s = .next s') :
    s'.pending = s.pending := by
  cases ht; simp

@[simp] theorem onTimeWrite_pending (idx : Nat) (data : List Byte) (s : State) :
    (onTimeWrite idx data s).2.pending = s.pending := by
  unfold onTimeWrite; (repeat' split) <;> simp

@[simp] theorem sealCloseWrite_pending (n : Nat) (s : State) : (sealCloseWrite n s).2.pending = s.pending := by
  unfold sealCloseWrite; (repeat' split) <;> simp

@[simp] theorem sealedApply_pending (role : Role) (idx sub : Nat) (data : List Byte) (s : State) :
    (sealedApply role idx sub data s).2.pending = s.pending := by
  unfold sealedApply; dsimp only; (repeat' split) <;> simp

@[simp] theorem sealedWrite_pending (role : Role) (idx sub : Nat) (data : List Byte) (s : State) :
    (sealedWrite role idx sub data s).2.pending = s.pending := by
  unfold sealedWrite; (repeat' split) <;> simp

theorem execSealedObjectWrite_pending (rq : Rq) (idx : BitVec 16) (sub : BitVec 8) (off total : Nat) (data : List Byte) (s s' : State) (ht : execSealedObjectWrite rq idx sub off total data s = .next s') :
    s'.pending = s.pending := by
  unfold execSealedObjectWrite at ht
  have ht := Host.Outcome.next.inj ht; subst ht
  refine whenDie_pending _ _ (fun t => ?_)
  dsimp only
  rw [objReply_pending]
  split
  · rfl
  have k := stagePart_pending idx.toNat sub.toNat off total data t
  split <;> rename_i e <;> rw [e] at k
  · rw [sealedWrite_pending]; exact k
  · exact k

/-! ### Panels -/

@[simp] theorem State.updPanel_pending (s : State) (m : Nat) (f : Panel → Panel) :
    (State.updPanel s m f).pending = s.pending := by simp [State.updPanel]

@[simp] theorem panelNotice_pending (m : Nat) (s : State) :
    (panelNotice m s).pending = s.pending := by simp [panelNotice]

@[simp] theorem panelTo_pending (m : Nat) (st : PanelSt) (s : State) :
    (panelTo m st s).pending = s.pending := by simp [panelTo]

@[simp] theorem psqDrive_pending (m : Nat) (mask : BitVec 4) (low : Bool) (s : State) :
    (psqDrive m mask low s).pending = s.pending := by simp [psqDrive]

@[simp] theorem clearFrames_pending (m : Nat) (s : State) :
    (clearFrames m s).pending = s.pending := by simp [clearFrames]

@[simp] theorem panelStopped_pending (m : Nat) (s : State) :
    (panelStopped m s).pending = s.pending := by simp [panelStopped]

@[simp] theorem orderlyStop_pending (m : Nat) (s : State) :
    (orderlyStop m s).pending = s.pending := by simp [orderlyStop]

@[simp] theorem panelsLinked_pending (s : State) : (panelsLinked s).pending = s.pending := by simp [panelsLinked]

@[simp] theorem panelFail_pending (m : Nat) (s : State) : (panelFail m s).pending = s.pending := by simp [panelFail]

@[simp] theorem panelRequest_pending (m : Nat) (s : State) :
    (panelRequest m s).pending = s.pending := by simp [panelRequest]

@[simp] theorem panelEnableSet_pending (m : Nat) (s : State) :
    (panelEnableSet m s).pending = s.pending := by simp [panelEnableSet]

@[simp] theorem panelStart_pending (m : Nat) (loopOk : Bool) (s : State) :
    (panelStart m loopOk s).pending = s.pending := by simp [panelStart]

theorem execPanelEnable_pending (m : Fin 2) (loopOk : Bool) (s s' : State) (ht : execPanelEnable m loopOk s = .next s') :
    s'.pending = s.pending := by
  cases ht; simp

theorem execPanelClearRequestRetry_pending (m : Fin 2) (s s' : State) (ht : execPanelClearRequestRetry m s = .next s') :
    s'.pending = s.pending := by
  cases ht; simp

theorem execPanelStartTimeout_pending (m : Fin 2) (s s' : State) (ht : execPanelStartTimeout m s = .next s') :
    s'.pending = s.pending := by
  cases ht; simp

@[simp] theorem panelDisable_pending (m : Nat) (s : State) :
    (panelDisable m s).pending = s.pending := by simp [panelDisable]

theorem execPanelDisable_pending (m : Fin 2) (s s' : State) (ht : execPanelDisable m s = .next s') :
    s'.pending = s.pending := by
  cases ht; simp

@[simp] theorem clearUnderLedger_pending (m : Nat) (s : State) :
    (clearUnderLedger m s).pending = s.pending := by simp [clearUnderLedger]

@[simp] theorem linesDue_pending (m y h : Nat) (s : State) :
    (linesDue m y h s).pending = s.pending := by simp [linesDue]

@[simp] theorem putRect_pending (m x y w h : Nat) (v : Nat → Nat → Byte) (s : State) :
    (putRect m x y w h v s).pending = s.pending := by simp [putRect]

@[simp] theorem panelGranted_pending (m : Nat) (s : State) : (panelGranted m s).pending = s.pending := by
  unfold panelGranted; dsimp only; (repeat' split) <;> simp

@[simp] theorem frameStart_pending (m mism : Nat) (bad : List Nat) (s : State) :
    (frameStart m mism bad s).pending = s.pending := by simp [frameStart]

theorem execPanelFrameStart_pending (m : Fin 2) (mismatches : Nat) (bad : List (Fin 480)) (s s' : State) (ht : execPanelFrameStart m mismatches bad s = .next s') :
    s'.pending = s.pending := by
  cases ht; simp

@[simp] theorem entryDue_pending (m : Nat) (e : Byte) (s : State) :
    (entryDue m e s).pending = s.pending := by simp [entryDue]

theorem execBlinkHalfPeriod_pending (m : Fin 2) (entry : BitVec 8) (s s' : State) (ht : execBlinkHalfPeriod m entry s = .next s') :
    s'.pending = s.pending := by
  cases ht; simp

@[simp] theorem rolloverCheck_pending (m : Nat) (s : State) : (rolloverCheck m s).pending = s.pending := by
  unfold rolloverCheck; (repeat' split) <;> simp

theorem execLegalRegionRedraw_pending (m : Fin 2) (s s' : State) (ht : execLegalRegionRedraw m s = .next s') :
    s'.pending = s.pending := by
  cases ht; simp

theorem execSealBorderAdvance_pending (m : Fin 2) (s s' : State) (ht : execSealBorderAdvance m s = .next s') :
    s'.pending = s.pending := by
  cases ht; simp

@[simp] theorem geomWrite_pending (role : Role) (m x y w h : Nat) (s : State) :
    (geomWrite role m x y w h s).2.pending = s.pending := by
  unfold geomWrite; (repeat' split) <;> simp

@[simp] theorem ovReply_pending (tag : Word) (op m : Nat) (r : Status × State) :
    (ovReply tag op m r).pending = r.2.pending := by simp [ovReply]

theorem execLegalRegionGeometryWrite_pending (rq : Rq) (m : Fin 2) (x y w h : Nat) (s s' : State) (ht : execLegalRegionGeometryWrite rq m x y w h s = .next s') :
    s'.pending = s.pending := by
  cases ht; simp

theorem execOverlayWrite_pending (rq : Rq) (m : Fin 2) (x y w h : Nat) (data : List Byte) (s s' : State) (ht : execOverlayWrite rq m x y w h data s = .next s') :
    s'.pending = s.pending := by
  cases ht; simp

theorem execOverlayFill_pending (rq : Rq) (m : Fin 2) (x y w h : Nat) (index : BitVec 8) (s s' : State) (ht : execOverlayFill rq m x y w h index s = .next s') :
    s'.pending = s.pending := by
  cases ht; simp

theorem execPaletteWrite_pending (rq : Rq) (m : Fin 2) (first : Nat) (rgb : List (BitVec 24)) (s s' : State) (ht : execPaletteWrite rq m first rgb s = .next s') :
    s'.pending = s.pending := by
  cases ht; simp

theorem execBlinkSet_pending (rq : Rq) (m : Fin 2) (index partner : BitVec 8) (half : Nat) (enable : Bool) (s s' : State) (ht : execBlinkSet rq m index partner half enable s = .next s') :
    s'.pending = s.pending := by
  cases ht; simp

@[simp] theorem termApply_pending (role : Role) (idx sub : Nat) (data : List Byte) (s : State) :
    (termApply role idx sub data s).2.pending = s.pending := by
  unfold termApply; dsimp only; (repeat' split) <;> simp

@[simp] theorem termWrite_pending (role : Role) (idx sub : Nat) (data : List Byte) (s : State) :
    (termWrite role idx sub data s).2.pending = s.pending := by
  unfold termWrite; (repeat' split) <;> simp

@[simp] theorem termReply_pending (tag : Word) (op : Nat) (st : Status) (idx sub : Nat) (data : List Byte) (s : State) :
    (termReply tag op st idx sub data s).pending = s.pending := by simp [termReply]

theorem execTerminalObjectRead_pending (rq : Rq) (idx : BitVec 16) (sub : BitVec 8) (s s' : State) (ht : execTerminalObjectRead rq idx sub s = .next s') :
    s'.pending = s.pending := by
  cases ht; simp

theorem execTerminalObjectWrite_pending (rq : Rq) (idx : BitVec 16) (sub : BitVec 8) (data : List Byte) (s s' : State) (ht : execTerminalObjectWrite rq idx sub data s = .next s') :
    s'.pending = s.pending := by
  cases ht; exact whenDie_pending _ _ fun t => by dsimp only; (repeat' split) <;> simp [*]

theorem execPanelStatusQuery_pending (rq : Rq) (m : Fin 2) (s s' : State) (ht : execPanelStatusQuery rq m s = .next s') :
    s'.pending = s.pending := by
  cases ht; simp

@[simp] theorem psqWrite_pending (port : Nat) (v : Word) (s : State) :
    (psqWrite port v s).pending = s.pending := by simp [psqWrite]

theorem execOutPsqWrite_pending (port : Fin 24) (v : Word) (s s' : State) (ht : execOutPsqWrite port v s = .next s') :
    s'.pending = s.pending := by
  cases ht; simp

@[simp] theorem State.updKey_pending (s : State) (f : Keypad → Keypad) :
    (State.updKey s f).pending = s.pending := by simp [State.updKey]

@[simp] theorem keyNotice_pending (kind : Nat) (p : Option Nat) (s : State) :
    (keyNotice kind p s).pending = s.pending := by simp [keyNotice]

@[simp] theorem keyDigit_pending (d : Nat) (s : State) : (keyDigit d s).pending = s.pending := by
  unfold keyDigit; dsimp only; (repeat' split) <;> simp

theorem execKeyDigit_pending (d : Fin 10) (s s' : State) (ht : execKeyDigit d s = .next s') :
    s'.pending = s.pending := by
  cases ht; simp

@[simp] theorem keyAccept_pending (s : State) : (keyAccept s).pending = s.pending := by
  unfold keyAccept; dsimp only; (repeat' split) <;> simp

theorem execKeyAccept_pending (s s' : State) (ht : execKeyAccept s = .next s') : s'.pending = s.pending := by
  cases ht; simp

theorem execKeyDelete_pending (s s' : State) (ht : execKeyDelete s = .next s') : s'.pending = s.pending := by
  cases ht; simp

@[simp] theorem keyCancel_pending (s : State) : (keyCancel s).pending = s.pending := by
  unfold keyCancel; (repeat' split) <;> simp

theorem execKeyCancel_pending (s s' : State) (ht : execKeyCancel s = .next s') : s'.pending = s.pending := by
  cases ht; simp

theorem execKeyStop_pending (s s' : State) (ht : execKeyStop s = .next s') : s'.pending = s.pending := by
  cases ht; simp

@[simp] theorem keyStar_pending (s : State) : (keyStar s).pending = s.pending := by simp [keyStar]

theorem execKeyStar_pending (s s' : State) (ht : execKeyStar s = .next s') : s'.pending = s.pending := by
  cases ht; simp

theorem execKeypadEntryTimeout_pending (s s' : State) (ht : execKeypadEntryTimeout s = .next s') :
    s'.pending = s.pending := by
  cases ht; simp

/-! ### Mailbox -/

@[simp] theorem State.updPair_pending (s : State) (m : Nat) (f : PairMbx → PairMbx) :
    (State.updPair s m f).pending = s.pending := by simp [State.updPair]

@[simp] theorem pairPut_pending (m : Nat) (msg : List Word) (s : State) : (pairPut m msg s).2.pending = s.pending := by
  unfold pairPut; (repeat' split) <;> simp

@[simp] theorem pairWrite_pending (port m i : Nat) (v : Word) (s : State) :
    (pairWrite port m i v s).pending = s.pending := by simp [pairWrite]

theorem execPairMailboxCommit_pending (port : Fin 24) (m : Fin 20) (v : Word) (s s' : State) (ht : execPairMailboxCommit port m v s = .next s') :
    s'.pending = s.pending := by
  cases ht; simp

@[simp] theorem pairRead_pending (m i : Nat) (s : State) : (pairRead m i s).pending = s.pending := by
  unfold pairRead; (repeat' split) <;> simp

theorem execPairMailboxRemove_pending (_port : Fin 24) (m : Fin 20) (s s' : State) (ht : execPairMailboxRemove _port m s = .next s') :
    s'.pending = s.pending := by
  cases ht; simp

@[simp] theorem State.updHub_pending (s : State) (h : Nat) (f : HubMbx → HubMbx) :
    (State.updHub s h f).pending = s.pending := by simp [State.updHub]

@[simp] theorem hubAcquire_pending (port h : Nat) (s : State) : (hubAcquire port h s).pending = s.pending := by
  unfold hubAcquire; dsimp only; (repeat' split) <;> simp

theorem execHubMailboxAcquire_pending (port : Fin 24) (h : Fin 8) (s s' : State) (ht : execHubMailboxAcquire port h s = .next s') :
    s'.pending = s.pending := by
  cases ht; simp

@[simp] theorem hubWrite_pending (port h i : Nat) (v : Word) (s : State) :
    (hubWrite port h i v s).pending = s.pending := by simp [hubWrite]

theorem execHubMailboxCommit_pending (port : Fin 24) (h : Fin 8) (v : Word) (s s' : State) (ht : execHubMailboxCommit port h v s = .next s') :
    s'.pending = s.pending := by
  cases ht; simp

@[simp] theorem hubRelease_pending (port h : Nat) (s : State) :
    (hubRelease port h s).pending = s.pending := by simp [hubRelease]

theorem execHubMailboxRelease_pending (port : Fin 24) (h : Fin 8) (s s' : State) (ht : execHubMailboxRelease port h s = .next s') :
    s'.pending = s.pending := by
  cases ht; simp

@[simp] theorem keeperTimeout_pending (h : Nat) (s : State) :
    (keeperTimeout h s).pending = s.pending := by simp [keeperTimeout]

theorem execKeeperTimeout_pending (h : Fin 8) (s s' : State) (ht : execKeeperTimeout h s = .next s') :
    s'.pending = s.pending := by
  cases ht; simp

@[simp] theorem hubRead_pending (port h i : Nat) (s : State) : (hubRead port h i s).pending = s.pending := by
  unfold hubRead; dsimp only; (repeat' split) <;> simp

theorem execHubMailboxRemove_pending (port : Fin 24) (h : Fin 8) (s s' : State) (ht : execHubMailboxRemove port h s = .next s') :
    s'.pending = s.pending := by
  cases ht; simp

@[simp] theorem mbxCtrlRead_pending (s : State) : (mbxCtrlRead s).pending = s.pending := by simp [mbxCtrlRead]

theorem execMbxDroppedRead_pending (s s' : State) (ht : execMbxDroppedRead s = .next s') : s'.pending = s.pending := by
  cases ht; simp

/-! ### Values -/

@[simp] theorem State.setObj_pending (s : State) (idx sub : Nat) (v : List Byte) :
    (State.setObj s idx sub v).pending = s.pending := by simp [State.setObj]

@[simp] theorem State.setVol_pending (s : State) (idx sub : Nat) (v : List Byte) :
    (State.setVol s idx sub v).pending = s.pending := by simp [State.setVol]

/-! ### Rein -/

@[simp] theorem putCtx_pending (slot : Nat) (f : Ctx → Ctx) (s : State) :
    (putCtx slot f s).pending = s.pending := by simp [putCtx]

@[simp] theorem completeSources_pending (l : List Nat) (s : State) :
    (completeSources l s).pending = s.pending := by simp [completeSources]

@[simp] theorem completeDelivered_pending (slot : Nat) (s : State) :
    (completeDelivered slot s).pending = s.pending := by simp [completeDelivered]

@[simp] theorem completeLevels_pending (slot : Nat) (s : State) :
    (completeLevels slot s).pending = s.pending := by simp [completeLevels]

@[simp] theorem ctxBytes_pending (slot off : Nat) (b : List Byte) (s : State) :
    (ctxBytes slot off b s).pending = s.pending := by simp [ctxBytes]

@[simp] theorem claimFor_pending (n slot k : Nat) (s : State) :
    (claimFor n slot k s).pending = s.pending := by simp [claimFor]

@[simp] theorem claimMisroute_pending (e n : Nat) (s : State) :
    (claimMisroute e n s).pending = s.pending := by simp [claimMisroute]

@[simp] theorem reinClaim_pending (e : Nat) (s : State) : (reinClaim e s).pending = s.pending := by
  unfold reinClaim; dsimp only; (repeat' split) <;> simp

theorem execReinSourceClaim_pending (e : Fin 8) (s s' : State) (ht : execReinSourceClaim e s = .next s') :
    s'.pending = s.pending := by
  cases ht; simp

@[simp] theorem reinStash_pending (e : Nat) (s : State) : (reinStash e s).pending = s.pending := by
  unfold reinStash; (repeat' split) <;> simp

theorem execReinMailboxStash_pending (e : Fin 8) (s s' : State) (ht : execReinMailboxStash e s = .next s') :
    s'.pending = s.pending := by
  cases ht; simp

@[simp] theorem deliver_pending (e k : Nat) (s : State) : (deliver e k s).pending = s.pending := by simp [deliver]

@[simp] theorem reinActivate_pending (e : Nat) (s : State) : (reinActivate e s).pending = s.pending := by
  unfold reinActivate; (repeat' split) <;> simp

theorem execReinActivation_pending (e : Fin 8) (s s' : State) (ht : execReinActivation e s = .next s') :
    s'.pending = s.pending := by
  cases ht; simp

@[simp] theorem endActivation_pending (e slot : Nat) (s : State) :
    (endActivation e slot s).pending = s.pending := by simp [endActivation]

@[simp] theorem sesDone_pending (e : Nat) (s : State) : (sesDone e s).pending = s.pending := by
  unfold sesDone; (repeat' split) <;> simp

@[simp] theorem commitNotices_pending (e n : Nat) (s : State) : (commitNotices e n s).pending = s.pending := by
  induction n generalizing s with
  | zero => rfl
  | succ n ih => simp only [commitNotices]; (repeat' split) <;> simp [ih]

@[simp] theorem ctxTrap_pending (e cause : Nat) (val : Word) (s : State) :
    (ctxTrap e cause val s).pending = s.pending := by
  unfold ctxTrap; (repeat' split) <;> simp

theorem execBudgetExhausted_pending (e : Fin 8) (s s' : State) (ht : execBudgetExhausted e s = .next s') :
    s'.pending = s.pending := by
  cases ht; simp

theorem execTrapNoticeCommit_pending (e : Fin 8) (s s' : State) (ht : execTrapNoticeCommit e s = .next s') :
    s'.pending = s.pending := by
  cases ht; simp

@[simp] theorem postCode_pending (e k : Nat) (code : Byte) (s : State) :
    (postCode e k code s).2.pending = s.pending := by
  unfold postCode; dsimp only; (repeat' split) <;> simp

@[simp] theorem sesPost_pending (e : Nat) (v : Word) (s : State) : (sesPost e v s).pending = s.pending := by
  unfold sesPost; (repeat' split) <;> simp

theorem execSesPost_pending (e : Fin 8) (v : Word) (s s' : State) (ht : execSesPost e v s = .next s') :
    s'.pending = s.pending := by
  cases ht; simp

@[simp] theorem sesPostr_pending (port e : Nat) (v : Word) (s : State) : (sesPostr port e v s).pending = s.pending := by
  unfold sesPostr; (repeat' split) <;> simp

theorem execSesPostr_pending (port : Fin 24) (e : Fin 8) (v : Word) (s s' : State) (ht : execSesPostr port e v s = .next s') :
    s'.pending = s.pending := by
  cases ht; simp

@[simp] theorem evTake_pending (e : Nat) (v : Word) (s : State) : (evTake e v s).pending = s.pending := by
  unfold evTake; (repeat' split) <;> simp

theorem execEvTake_pending (e : Fin 8) (v : Word) (s s' : State) (ht : execEvTake e v s = .next s') :
    s'.pending = s.pending := by
  cases ht; simp

@[simp] theorem timerExpiry_pending (slot : Nat) (s : State) :
    (timerExpiry slot s).pending = s.pending := by simp [timerExpiry]

theorem execReinTimerExpiry_pending (slot : Fin 256) (s s' : State) (ht : execReinTimerExpiry slot s = .next s') :
    s'.pending = s.pending := by
  unfold execReinTimerExpiry at ht
  have ht := Host.Outcome.next.inj ht; subst ht
  first
  | ((repeat' split) <;> simp; done)
  | (dsimp only; done)
  | (dsimp only; (repeat' split) <;> simp; done)
  | (dsimp only; (repeat' split) <;> simp [*]; done)
  | ((repeat' split) <;> simp [*]; done)
  | exact whenDie_pending _ _ (fun t => by first | (dsimp only; (repeat' split) <;> simp [*]; done) | (simp; (repeat' split) <;> simp; done))
  | (split <;> first | rfl | exact whenDie_pending _ _ (fun t => by dsimp only; (repeat' split) <;> simp [*]))

@[simp] theorem pilTakes_pending (p : Nat) (s : State) : (pilTakes p s).pending = s.pending := by simp [pilTakes]

@[simp] theorem pilDueTakes_pending (p : Nat) (s : State) :
    (pilDueTakes p s).pending = s.pending := by simp [pilDueTakes]

theorem execPilotPeriodStart_pending (s s' : State) (ht : execPilotPeriodStart s = .next s') :
    s'.pending = s.pending := by
  cases ht; simp

@[simp] theorem sessionTakes_pending (slot p : Nat) (s : State) :
    (sessionTakes slot p s).pending = s.pending := by simp [sessionTakes]

@[simp] theorem ctxStart_pending (slot p r : Nat) (s : State) : (ctxStart slot p r s).pending = s.pending := by
  unfold ctxStart
  dsimp only
  rw [sessionTakes_pending, syncCtx_pending, State.setNum_pending, State.updCtx_pending, ctxBytes_pending]

@[simp] theorem startQueued_pending (p : Nat) (s : State) : (startQueued p s).pending = s.pending := by
  unfold startQueued; (repeat' split) <;> simp

@[simp] theorem ctxRestart_pending (slot : Nat) (s : State) : (ctxRestart slot s).2.pending = s.pending := by
  unfold ctxRestart; dsimp only; (repeat' split) <;> simp

@[simp] theorem ctxFree_pending (slot : Nat) (s : State) : (ctxFree slot s).2.pending = s.pending := by
  unfold ctxFree; dsimp only; (repeat' split) <;> simp

@[simp] theorem ctxSetRole_pending (slot r : Nat) (s : State) : (ctxSetRole slot r s).2.pending = s.pending := by
  unfold ctxSetRole; dsimp only; (repeat' split) <;> simp

@[simp] theorem putCmdSt_pending (port e : Nat) (x : Nat × Nat × Status) (s : State) :
    (putCmdSt port e x s).pending = s.pending := by
  unfold putCmdSt; (repeat' split) <;> simp

@[simp] theorem sesUseRead_pending (slot : Nat) (s : State) :
    (sesUseRead slot s).pending = s.pending := by simp [sesUseRead]

theorem execSesUseRead_pending (slot : Fin 256) (s s' : State) (ht : execSesUseRead slot s = .next s') :
    s'.pending = s.pending := by
  cases ht; simp

@[simp] theorem engineReset_pending (e : Nat) (s : State) : (engineReset e s).pending = s.pending := by
  unfold engineReset
  dsimp only
  rw [foldl_pending _ (fun t i => State.updCtx_pending t i _), foldl_pending _ (fun t i => by rw [girthOrphan_pending, completeLevels_pending])]

/-! ### Sessions -/

@[simp] theorem State.updVs_pending (s : State) (slot : Nat) (f : VSess → VSess) :
    (State.updVs s slot f).pending = s.pending := by simp [State.updVs]

@[simp] theorem setPhase_pending (slot v : Nat) (s : State) :
    (setPhase slot v s).pending = s.pending := by simp [setPhase]

@[simp] theorem setReason_pending (slot v : Nat) (s : State) :
    (setReason slot v s).pending = s.pending := by simp [setReason]

@[simp] theorem setTimer_pending (slot ht : Nat) (s : State) :
    (setTimer slot ht s).pending = s.pending := by simp [setTimer]

@[simp] theorem withSession_pending (p : Nat) (f : Nat → State → State) (s : State) (h_f : ∀ x0 t, (f x0 t).pending = t.pending) :
    (withSession p f s).pending = s.pending := by
  unfold withSession; (repeat' split) <;> simp [*]

@[simp] theorem publish_pending (p v : Nat) (i : Int) (en : Bool) (s : State) :
    (publish p v i en s).pending = s.pending := by simp [publish]

@[simp] theorem setpointOff_pending (p : Nat) (s : State) :
    (setpointOff p s).pending = s.pending := by simp [setpointOff]

@[simp] theorem fwSend_pending (cls : Nat) (tag : Word) (b : List Byte) (s : State) :
    (fwSend cls tag b s).pending = s.pending := by simp [fwSend]

@[simp] theorem sessionNotice_pending (kind slot reason : Nat) (s : State) :
    (sessionNotice kind slot reason s).pending = s.pending := by simp [sessionNotice]

@[simp] theorem closeRecord_pending (slot : Nat) (s : State) :
    (closeRecord slot s).pending = s.pending := by simp [closeRecord]

@[simp] theorem toClosing_pending (slot reason : Nat) (tell : Bool) (s : State) :
    (toClosing slot reason tell s).pending = s.pending := by simp [toClosing]

@[simp] theorem dutyOff_pending (slot : Nat) (s : State) : (dutyOff slot s).pending = s.pending := by simp [dutyOff]

@[simp] theorem toStopping_pending (slot reason : Nat) (s : State) :
    (toStopping slot reason s).pending = s.pending := by simp [toStopping]

@[simp] theorem endSlot_pending (slot reason : Nat) (s : State) :
    (endSlot slot reason s).pending = s.pending := by simp [endSlot]

@[simp] theorem endSession_pending (p reason : Nat) (s : State) :
    (endSession p reason s).pending = s.pending := by simp [endSession]

@[simp] theorem State.updVp_pending (s : State) (k : Nat) (f : VPort → VPort) :
    (State.updVp s k f).pending = s.pending := by simp [State.updVp]

@[simp] theorem seqAuthorised_pending (k : Nat) (s : State) :
    (seqAuthorised k s).pending = s.pending := by simp [seqAuthorised]

@[simp] theorem freeCmd_pending (port slot : Nat) (s : State) :
    (freeCmd port slot s).2.pending = s.pending := by simp [freeCmd]

@[simp] theorem sesCmd_pending (cmd port e : Nat) (v : Word) (s : State) :
    (sesCmd cmd port e v s).pending = s.pending := by
  unfold sesCmd
  dsimp only
  split
  · simp
  · split
    · simp
    · rename_i g st s1 h
      have : s1.pending = s.pending := by
        revert h; split
        · split <;> intro h <;> simp at h <;> obtain ⟨_, _, rfl⟩ := h <;> simp
        · intro h; simp at h; obtain ⟨_, h⟩ := h; have := ctxRestart_pending (32 * e + fld v 0 5) s; rw [h] at this; exact this
        · intro h; simp at h; obtain ⟨_, h⟩ := h; have := freeCmd_pending port (32 * e + fld v 0 5) s; rw [h] at this; exact this
        · intro h; simp at h; obtain ⟨_, h⟩ := h; have := ctxSetRole_pending (32 * e + fld v 0 5) (fld v 6 2) s; rw [h] at this; exact this
        · intro h; simp at h
      simp [this]

theorem execSesStart_pending (port : Fin 24) (e : Fin 8) (v : Word) (s s' : State) (ht : execSesStart port e v s = .next s') :
    s'.pending = s.pending := by
  cases ht; simp

theorem execSesRestart_pending (port : Fin 24) (e : Fin 8) (v : Word) (s s' : State) (ht : execSesRestart port e v s = .next s') :
    s'.pending = s.pending := by
  cases ht; simp

theorem execSesFree_pending (port : Fin 24) (e : Fin 8) (v : Word) (s s' : State) (ht : execSesFree port e v s = .next s') :
    s'.pending = s.pending := by
  cases ht; simp

theorem execSesSetrole_pending (port : Fin 24) (e : Fin 8) (v : Word) (s s' : State) (ht : execSesSetrole port e v s = .next s') :
    s'.pending = s.pending := by
  cases ht; simp

@[simp] theorem openRecord_pending (slot : Nat) (s : State) :
    (openRecord slot s).pending = s.pending := by simp [openRecord]

@[simp] theorem authorise_pending (slot : Nat) (s : State) :
    (authorise slot s).pending = s.pending := by simp [authorise]

@[simp] theorem dutyOn_pending (slot : Nat) (s : State) : (dutyOn slot s).pending = s.pending := by
  unfold dutyOn; (repeat' split) <;> simp

@[simp] theorem openReply_pending (slot : Nat) (ok : Bool) (serial : Nat) (s : State) :
    (openReply slot ok serial s).pending = s.pending := by simp [openReply]

@[simp] theorem recordSigned_pending (slot : Nat) (s : State) :
    (recordSigned slot s).pending = s.pending := by simp [recordSigned]

@[simp] theorem authGranted_pending (slot : Nat) (s : State) :
    (authGranted slot s).pending = s.pending := by simp [authGranted]

@[simp] theorem tokenAuth_pending (p tid : Nat) (s : State) : (tokenAuth p tid s).pending = s.pending := by
  unfold tokenAuth; (repeat' split) <;> simp

@[simp] theorem cardAuth_pending (uid : List Byte) (s : State) : (cardAuth uid s).pending = s.pending := by
  unfold cardAuth; (repeat' split) <;> simp

@[simp] theorem termSelect_pending (p : Option Nat) (s : State) :
    (termSelect p s).pending = s.pending := by simp [termSelect]

@[simp] theorem termStop_pending (s : State) : (termStop s).pending = s.pending := by
  unfold termStop; (repeat' split) <;> simp

@[simp] theorem recordReply_pending (m : LinkMsg) (s : State) : (recordReply m s).pending = s.pending := by
  unfold recordReply; (repeat' split) <;> simp

@[simp] theorem dieNotice_pending (m : LinkMsg) (s : State) : (dieNotice m s).pending = s.pending := by
  unfold dieNotice; dsimp only; (repeat' split) <;> simp

@[simp] theorem cantleTakes_pending (m : LinkMsg) (s : State) :
    (cantleTakes m s).pending = s.pending := by simp [cantleTakes]

@[simp] theorem sessionsRelinked_pending (s : State) :
    (sessionsRelinked s).pending = s.pending := by simp [sessionsRelinked]

@[simp] theorem sessionsUnlinked_pending (s : State) :
    (sessionsUnlinked s).pending = s.pending := by simp [sessionsUnlinked]

/-! ### Readers -/

@[simp] theorem State.updRd_pending (s : State) (n : Nat) (f : Reader → Reader) :
    (State.updRd s n f).pending = s.pending := by simp [State.updRd]

@[simp] theorem laneLevel_pending (n : Nat) (b : Bool) (s : State) :
    (laneLevel n b s).pending = s.pending := by simp [laneLevel]

@[simp] theorem rdEvt_pending (n i : Nat) (s : State) : (rdEvt n i s).pending = s.pending := by simp [rdEvt]

@[simp] theorem xchEnd_pending (n : Nat) (st : Status) (s : State) :
    (xchEnd n st s).pending = s.pending := by simp [xchEnd]

@[simp] theorem fieldOff_pending (n : Nat) (s : State) : (fieldOff n s).pending = s.pending := by simp [fieldOff]

@[simp] theorem fieldOn_pending (n : Nat) (s : State) : (fieldOn n s).pending = s.pending := by simp [fieldOn]

@[simp] theorem readerPing_pending (n : Nat) (amp phase : Int) (s : State) :
    (readerPing n amp phase s).pending = s.pending := by
  unfold readerPing; dsimp only; (repeat' split) <;> simp

theorem execReaderPing_pending (n : Fin 16) (amp phase : Int) (s s' : State) (ht : execReaderPing n amp phase s = .next s') :
    s'.pending = s.pending := by
  cases ht; simp

@[simp] theorem pollCycle_pending (n : Nat) (cards : List CardId) (s : State) :
    (pollCycle n cards s).pending = s.pending := by
  unfold pollCycle; dsimp only; (repeat' split) <;> simp

theorem execReaderPollCycle_pending (n : Fin 16) (cards : List CardId) (s s' : State) (ht : execReaderPollCycle n cards s = .next s') :
    s'.pending = s.pending := by
  cases ht; simp

theorem execReaderMultiRepoll_pending (n : Fin 16) (cards : List CardId) (s s' : State) (ht : execReaderMultiRepoll n cards s = .next s') :
    s'.pending = s.pending := by
  cases ht; simp

theorem execReaderFieldIdle_pending (n : Fin 16) (s s' : State) (ht : execReaderFieldIdle n s = .next s') :
    s'.pending = s.pending := by
  cases ht; simp

@[simp] theorem readerExchange_pending (n : Nat) (s : State) :
    (readerExchange n s).pending = s.pending := by simp [readerExchange]

theorem execReaderExchange_pending (n : Fin 16) (s s' : State) (ht : execReaderExchange n s = .next s') :
    s'.pending = s.pending := by
  cases ht; simp

@[simp] theorem readerAbort_pending (n : Nat) (s : State) :
    (readerAbort n s).pending = s.pending := by simp [readerAbort]

theorem execReaderAbort_pending (n : Fin 16) (s s' : State) (ht : execReaderAbort n s = .next s') :
    s'.pending = s.pending := by
  cases ht; simp

@[simp] theorem readerPoll_pending (n : Nat) (s : State) : (readerPoll n s).pending = s.pending := by simp [readerPoll]

theorem execReaderPoll_pending (n : Fin 16) (s s' : State) (ht : execReaderPoll n s = .next s') :
    s'.pending = s.pending := by
  cases ht; simp

theorem execReaderFieldOff_pending (n : Fin 16) (s s' : State) (ht : execReaderFieldOff n s = .next s') :
    s'.pending = s.pending := by
  cases ht; simp

@[simp] theorem xchBad_pending (n : Nat) (x : Xchg) (s : State) : (xchBad n x s).pending = s.pending := by simp [xchBad]

@[simp] theorem xchDone_pending (n : Nat) (data : List Byte) (s : State) :
    (xchDone n data s).pending = s.pending := by simp [xchDone]

@[simp] theorem cardBlock_pending (n : Nat) (b : CardBlock) (s : State) : (cardBlock n b s).pending = s.pending := by
  unfold cardBlock; (repeat' split) <;> simp

theorem execCardBlockReceive_pending (n : Fin 16) (b : CardBlock) (s s' : State) (ht : execCardBlockReceive n b s = .next s') :
    s'.pending = s.pending := by
  cases ht; simp

theorem execCardFwtExpiry_pending (n : Fin 16) (s s' : State) (ht : execCardFwtExpiry n s = .next s') :
    s'.pending = s.pending := by
  cases ht; simp

theorem execReaderExchangeTimeout_pending (n : Fin 16) (s s' : State) (ht : execReaderExchangeTimeout n s = .next s') :
    s'.pending = s.pending := by
  cases ht; simp

@[simp] theorem State.updTag_pending (s : State) (k : Nat) (f : TagSlot → TagSlot) :
    (State.updTag s k f).pending = s.pending := by simp [State.updTag]

@[simp] theorem tagSwap_pending (k : Nat) (s : State) : (tagSwap k s).pending = s.pending := by simp [tagSwap]

@[simp] theorem tagClose_pending (n : Nat) (s : State) : (tagClose n s).pending = s.pending := by
  unfold tagClose; (repeat' split) <;> simp

@[simp] theorem readerMode_pending (n m : Nat) (s : State) :
    (readerMode n m s).pending = s.pending := by simp [readerMode]

@[simp] theorem readerModeWrite_pending (n : Nat) (v : Word) (s : State) :
    (readerModeWrite n v s).pending = s.pending := by simp [readerModeWrite]

theorem execReaderModeWrite_pending (n : Fin 16) (v : Word) (s s' : State) (ht : execReaderModeWrite n v s = .next s') :
    s'.pending = s.pending := by
  cases ht; simp

@[simp] theorem rdCtlWrite_pending (n : Nat) (v : Word) (s : State) :
    (rdCtlWrite n v s).pending = s.pending := by simp [rdCtlWrite]

@[simp] theorem rdCfgWrite_pending (n : Nat) (v : Word) (s : State) :
    (rdCfgWrite n v s).pending = s.pending := by simp [rdCfgWrite]

@[simp] theorem rdEvtWrite_pending (n : Nat) (v : Word) (s : State) :
    (rdEvtWrite n v s).pending = s.pending := by simp [rdEvtWrite]

@[simp] theorem tagAnswer_pending (n : Nat) (a : Option (List Byte)) (s : State) :
    (tagAnswer n a s).pending = s.pending := by simp [tagAnswer]

@[simp] theorem tagEntry_pending (n : Nat) (s : State) : (tagEntry n s).pending = s.pending := by simp [tagEntry]

theorem execTagFieldEntry_pending (n : Fin 16) (s s' : State) (ht : execTagFieldEntry n s = .next s') :
    s'.pending = s.pending := by
  cases ht; simp

@[simp] theorem tagActA_pending (n : Nat) (c : TagAct) (s : State) : (tagActA n c s).pending = s.pending := by
  unfold tagActA; (repeat' split) <;> simp

@[simp] theorem tagActB_pending (n : Nat) (c : TagAct) (s : State) : (tagActB n c s).pending = s.pending := by
  unfold tagActB; (repeat' split) <;> simp

@[simp] theorem tagAct_pending (n : Nat) (c : TagAct) (s : State) : (tagAct n c s).pending = s.pending := by
  unfold tagAct; (repeat' split) <;> simp

theorem execTagActivation_pending (n : Fin 16) (c : TagAct) (s s' : State) (ht : execTagActivation n c s = .next s') :
    s'.pending = s.pending := by
  cases ht; simp

@[simp] theorem freeSw_pending (n : Nat) (s : State) : (freeSw n s).pending = s.pending := by simp [freeSw]

@[simp] theorem tagSelect_pending (n : Nat) (f : TagFile) (s : State) : (tagSelect n f s).pending = s.pending := by
  unfold tagSelect; (repeat' split) <;> simp

theorem execTagSelect_pending (n : Fin 16) (f : TagFile) (s s' : State) (ht : execTagSelect n f s = .next s') :
    s'.pending = s.pending := by
  cases ht; simp

@[simp] theorem tagRead_pending (n off len : Nat) (s : State) : (tagRead n off len s).pending = s.pending := by
  unfold tagRead; (repeat' split) <;> simp

theorem execTagReadBinary_pending (n : Fin 16) (off len : Nat) (s s' : State) (ht : execTagReadBinary n off len s = .next s') :
    s'.pending = s.pending := by
  cases ht; simp

@[simp] theorem tagOther_pending (n : Nat) (a : List Byte) (s : State) :
    (tagOther n a s).pending = s.pending := by simp [tagOther]

theorem execTagUpdateBinary_pending (n : Fin 16) (s s' : State) (ht : execTagUpdateBinary n s = .next s') :
    s'.pending = s.pending := by
  cases ht; simp

@[simp] theorem tagOtherCommand_pending (n : Nat) (deselect : Bool) (s : State) :
    (tagOtherCommand n deselect s).pending = s.pending := by simp [tagOtherCommand]

theorem execTagOtherCommand_pending (n : Fin 16) (deselect : Bool) (s s' : State) (ht : execTagOtherCommand n deselect s = .next s') :
    s'.pending = s.pending := by
  cases ht; simp

theorem execTagFieldLoss_pending (n : Fin 16) (s s' : State) (ht : execTagFieldLoss n s = .next s') :
    s'.pending = s.pending := by
  cases ht; simp

theorem execTagTransactionIdle_pending (n : Fin 16) (s s' : State) (ht : execTagTransactionIdle n s = .next s') :
    s'.pending = s.pending := by
  cases ht; simp

@[simp] theorem tagCtlWrite_pending (k : Nat) (v : Word) (s : State) :
    (tagCtlWrite k v s).pending = s.pending := by simp [tagCtlWrite]

theorem execTagCommit_pending (k : Fin 4) (v : Word) (s s' : State) (ht : execTagCommit k v s = .next s') :
    s'.pending = s.pending := by
  cases ht; simp

@[simp] theorem tagShadowWrite_pending (k i : Nat) (b : Byte) (s : State) :
    (tagShadowWrite k i b s).pending = s.pending := by simp [tagShadowWrite]

@[simp] theorem tagForced_pending (k : Nat) (s : State) : (tagForced k s).pending = s.pending := by simp [tagForced]

theorem execTagForcedSwap_pending (k : Fin 4) (s s' : State) (ht : execTagForcedSwap k s = .next s') :
    s'.pending = s.pending := by
  cases ht; simp

/-! ### Girth -/

@[simp] theorem girthReqWrite_pending (port : Nat) (v : Word) (s : State) :
    (girthReqWrite port v s).pending = s.pending := by simp [girthReqWrite]

theorem execGirthRequest_pending (port : Fin 24) (v : Word) (s s' : State) (ht : execGirthRequest port v s = .next s') :
    s'.pending = s.pending := by
  cases ht; simp

@[simp] theorem lineOn_pending (m : Nat) (s : State) : (lineOn m s).pending = s.pending := by simp [lineOn]

@[simp] theorem girthOnCommand_pending (kind unit : Nat) (s : State) :
    (girthOnCommand kind unit s).pending = s.pending := by
  unfold girthOnCommand; (repeat' split) <;> simp

@[simp] theorem girthSignal_pending (r : GirthReq) (s : State) : (girthSignal r s).pending = s.pending := by
  unfold girthSignal; (repeat' split) <;> simp

@[simp] theorem girthMark_pending (r : GirthReq) (st : Nat) (s : State) :
    (girthMark r st s).pending = s.pending := by simp [girthMark]

@[simp] theorem girthStart_pending (r : GirthReq) (s : State) :
    (girthStart r s).pending = s.pending := by simp [girthStart]

@[simp] theorem girthGrantReq_pending (r : GirthReq) (s : State) :
    (girthGrantReq r s).pending = s.pending := by simp [girthGrantReq]

@[simp] theorem girthGrant_pending (c : Nat) (s : State) : (girthGrant c s).pending = s.pending := by
  unfold girthGrant; (repeat' split) <;> simp

theorem execGirthGrant_pending (c : Fin 3) (s s' : State) (ht : execGirthGrant c s = .next s') :
    s'.pending = s.pending := by
  cases ht; simp

@[simp] theorem girthRelWrite_pending (port : Nat) (v : Word) (s : State) :
    (girthRelWrite port v s).pending = s.pending := by simp [girthRelWrite]

theorem execGirthRelease_pending (port : Fin 24) (v : Word) (s s' : State) (ht : execGirthRelease port v s = .next s') :
    s'.pending = s.pending := by
  unfold execGirthRelease at ht
  have ht := Host.Outcome.next.inj ht; subst ht
  first
  | ((repeat' split) <;> simp; done)
  | (dsimp only; done)
  | (dsimp only; (repeat' split) <;> simp; done)
  | (dsimp only; (repeat' split) <;> simp [*]; done)
  | ((repeat' split) <;> simp [*]; done)
  | exact whenDie_pending _ _ (fun t => by first | (dsimp only; (repeat' split) <;> simp [*]; done) | (simp; (repeat' split) <;> simp; done))
  | (split <;> first | rfl | exact whenDie_pending _ _ (fun t => by dsimp only; (repeat' split) <;> simp [*]))

theorem execGirthHoldExpiry_pending (ticket : BitVec 16) (s s' : State) (ht : execGirthHoldExpiry ticket s = .next s') :
    s'.pending = s.pending := by
  cases ht; simp

theorem execUnitOffReport_pending (kind : Fin 16) (unit : Nat) (s s' : State) (ht : execUnitOffReport kind unit s = .next s') :
    s'.pending = s.pending := by
  cases ht; simp

@[simp] theorem girthDerate_pending (temp : Int) (s : State) :
    (girthDerate temp s).pending = s.pending := by simp [girthDerate]

theorem execGirthDerateSample_pending (temp : Int) (s s' : State) (ht : execGirthDerateSample temp s = .next s') :
    s'.pending = s.pending := by
  cases ht; simp

@[simp] theorem girthShareWrite_pending (c : Nat) (v : Word) (s : State) :
    (girthShareWrite c v s).pending = s.pending := by simp [girthShareWrite]

theorem execGirthShareWrite_pending (c : Fin 3) (v : Word) (s s' : State) (ht : execGirthShareWrite c v s = .next s') :
    s'.pending = s.pending := by
  cases ht; simp

@[simp] theorem girthCtrlWrite_pending (v : Word) (s : State) :
    (girthCtrlWrite v s).pending = s.pending := by simp [girthCtrlWrite]

@[simp] theorem girthCostWrite_pending (k i : Nat) (v : Word) (s : State) :
    (girthCostWrite k i v s).pending = s.pending := by
  unfold girthCostWrite; (repeat' split) <;> simp

@[simp] theorem girthRebuild_pending (s : State) : (girthRebuild s).pending = s.pending := by simp [girthRebuild]

theorem execGirthRebuild_pending (s s' : State) (ht : execGirthRebuild s = .next s') : s'.pending = s.pending := by
  cases ht; simp

@[simp] theorem girthBypassRead_pending (s : State) :
    (girthBypassRead s).pending = s.pending := by simp [girthBypassRead]

theorem execGrtBypassRead_pending (s s' : State) (ht : execGrtBypassRead s = .next s') : s'.pending = s.pending := by
  cases ht; simp

@[simp] theorem girthBypass_pending (s : State) : (girthBypass s).pending = s.pending := by simp [girthBypass]

/-! ### CanOps -/

@[simp] theorem State.updPort_pending (s : State) (x : Nat) (f : FieldPort → FieldPort) :
    (State.updPort s x f).pending = s.pending := by simp [State.updPort]

@[simp] theorem canSend_pending (x : Nat) (f : CanFrame) (s : State) :
    (canSend x f s).pending = s.pending := by simp [canSend]

@[simp] theorem canFlush_pending (x : Nat) (s : State) : (canFlush x s).pending = s.pending := by simp [canFlush]

@[simp] theorem emcy_pending (x : Nat) (code : Nat) (b3 : Byte) (s : State) :
    (emcy x code b3 s).pending = s.pending := by simp [emcy]

@[simp] theorem canResume_pending (x : Nat) (s : State) : (canResume x s).pending = s.pending := by simp [canResume]

@[simp] theorem canErrors_pending (x : Nat) (s : State) : (canErrors x s).pending = s.pending := by simp [canErrors]

@[simp] theorem canConfine_pending (x : Nat) (s : State) : (canConfine x s).pending = s.pending := by simp [canConfine]

@[simp] theorem emcyBoth_pending (code : Nat) (b3 : Byte) (s : State) :
    (emcyBoth code b3 s).pending = s.pending := by simp [emcyBoth]

/-! ### Links -/

@[simp] theorem linkBeat_pending (d : Side) (s : State) : (linkBeat d s).pending = s.pending := by simp [linkBeat]

@[simp] theorem slQueue_pending (l : List LinkMsg) (s : State) : (slQueue l s).pending = s.pending := by simp [slQueue]

@[simp] theorem linkFail_pending (cause : Nat) (s : State) :
    (linkFail cause s).pending = s.pending := by simp [linkFail]

@[simp] theorem macFail_pending (d : Side) (s : State) : (macFail d s).pending = s.pending := by simp [macFail]

@[simp] theorem linkTake_pending (d : Side) (m : LinkMsg) (s : State) : (linkTake d m s).pending = s.pending := by
  unfold linkTake; (repeat' split) <;> simp

@[simp] theorem linkReceive_pending (d : Side) (m : LinkMsg) (macOk : Bool) (s : State) :
    (linkReceive d m macOk s).pending = s.pending := by simp [linkReceive]

theorem execSealedLinkMessageReceive_pending (side : Side) (m : LinkMsg) (macOk : Bool) (s s' : State) (ht : execSealedLinkMessageReceive side m macOk s = .next s') :
    s'.pending = s.pending := by
  cases ht; simp

@[simp] theorem linkAck_pending (d : Side) (acked credit : Nat) (macOk : Bool) (s : State) :
    (linkAck d acked credit macOk s).pending = s.pending := by simp [linkAck]

theorem execLinkAckReceive_pending (side : Side) (acked credit : Nat) (macOk : Bool) (s s' : State) (ht : execLinkAckReceive side acked credit macOk s = .next s') :
    s'.pending = s.pending := by
  cases ht; simp

@[simp] theorem linkHeart_pending (side : Side) (s : State) :
    (linkHeart side s).pending = s.pending := by simp [linkHeart]

theorem execSealedLinkHeartbeat_pending (side : Side) (s s' : State) (ht : execSealedLinkHeartbeat side s = .next s') :
    s'.pending = s.pending := by
  cases ht; simp

@[simp] theorem linkResend_pending (d : Side) (s : State) : (linkResend d s).pending = s.pending := by
  unfold linkResend; (repeat' split) <;> simp

theorem execSealedLinkResendTimeout_pending (side : Side) (s s' : State) (ht : execSealedLinkResendTimeout side s = .next s') :
    s'.pending = s.pending := by
  cases ht; simp

theorem execSealedLinkSilenceTimeout_pending (side : Side) (s s' : State) (ht : execSealedLinkSilenceTimeout side s = .next s') :
    s'.pending = s.pending := by
  cases ht; simp

@[simp] theorem linkAgree_pending (s : State) : (linkAgree s).pending = s.pending := by simp [linkAgree]

@[simp] theorem linkRequest_pending (authentic : Bool) (s : State) :
    (linkRequest authentic s).pending = s.pending := by simp [linkRequest]

theorem execLinkKeyAgreement_pending (authentic : Bool) (s s' : State) (ht : execLinkKeyAgreement authentic s = .next s') :
    s'.pending = s.pending := by
  cases ht; simp

@[simp] theorem State.updSl_pending (s : State) (port : Nat) (f : SlPort → SlPort) :
    (State.updSl s port f).pending = s.pending := by simp [State.updSl]

@[simp] theorem slSend_pending (port : Nat) (v : Word) (s : State) :
    (slSend port v s).pending = s.pending := by simp [slSend]

theorem execSealedLinkSend_pending (port : Fin 24) (v : Word) (s s' : State) (ht : execSealedLinkSend port v s = .next s') :
    s'.pending = s.pending := by
  cases ht; simp

@[simp] theorem slPop_pending (port : Nat) (s : State) : (slPop port s).pending = s.pending := by
  unfold slPop; (repeat' split) <;> simp

theorem execSealedLinkPop_pending (port : Fin 24) (s s' : State) (ht : execSealedLinkPop port s = .next s') :
    s'.pending = s.pending := by
  cases ht; simp

@[simp] theorem heartbeat_pending (crcOk : Bool) (s : State) :
    (heartbeat crcOk s).pending = s.pending := by simp [heartbeat]

theorem execBridleHeartbeat_pending (crcOk : Bool) (s s' : State) (ht : execBridleHeartbeat crcOk s = .next s') :
    s'.pending = s.pending := by
  cases ht; simp

@[simp] theorem safeIfNot_pending (s : State) : (safeIfNot s).pending = s.pending := by simp [safeIfNot]

theorem execSafetyLaneHeartbeatLoss_pending (s s' : State) (ht : execSafetyLaneHeartbeatLoss s = .next s') :
    s'.pending = s.pending := by
  cases ht; simp

@[simp] theorem safeReportTaken_pending (s : State) :
    (safeReportTaken s).pending = s.pending := by simp [safeReportTaken]

theorem execSafeStateReport_pending (s s' : State) (ht : execSafeStateReport s = .next s') :
    s'.pending = s.pending := by
  cases ht; simp

@[simp] theorem safeRelease_pending (s : State) : (safeRelease s).pending = s.pending := by simp [safeRelease]

theorem execSafeStateRelease_pending (s s' : State) (ht : execSafeStateRelease s = .next s') :
    s'.pending = s.pending := by
  cases ht; simp

@[simp] theorem stoLane_pending (n : Nat) (b on : Bool) (s : State) :
    (stoLane n b on s).pending = s.pending := by simp [stoLane]

@[simp] theorem safetyCommand_pending (c : SafeCmd) (s : State) : (safetyCommand c s).pending = s.pending := by
  unfold safetyCommand; (repeat' split) <;> simp

theorem execSafetyLaneCommand_pending (crcOk : Bool) (c : SafeCmd) (s s' : State) (ht : execSafetyLaneCommand crcOk c s = .next s') :
    s'.pending = s.pending := by
  cases ht; simp

@[simp] theorem laneFault_pending (s : State) : (laneFault s).pending = s.pending := by simp [laneFault]

@[simp] theorem laneCommand_pending (c : LaneCmd) (s : State) : (laneCommand c s).pending = s.pending := by
  unfold laneCommand; (repeat' split) <;> simp

@[simp] theorem laneArrives_pending (crcOk : Bool) (c : LaneCmd) (s : State) :
    (laneArrives crcOk c s).pending = s.pending := by simp [laneArrives]

theorem execAppLaneCommand_pending (crcOk : Bool) (c : LaneCmd) (s s' : State) (ht : execAppLaneCommand crcOk c s = .next s') :
    s'.pending = s.pending := by
  cases ht; simp

@[simp] theorem laneEvent_pending (crcOk : Bool) (src : Nat) (s : State) :
    (laneEvent crcOk src s).pending = s.pending := by simp [laneEvent]

theorem execAppLaneEventFrame_pending (crcOk : Bool) (src : Fin 512) (s s' : State) (ht : execAppLaneEventFrame crcOk src s = .next s') :
    s'.pending = s.pending := by
  cases ht; simp

@[simp] theorem powerClockFail_pending (s : State) : (powerClockFail s).pending = s.pending := by simp [powerClockFail]

theorem execPowerDieClockFail_pending (s s' : State) (ht : execPowerDieClockFail s = .next s') :
    s'.pending = s.pending := by
  cases ht; simp

theorem execPowerDieClockReturn_pending (s s' : State) (ht : execPowerDieClockReturn s = .next s') :
    s'.pending = s.pending := by
  cases ht; simp

@[simp] theorem powerDieReset_pending (s : State) : (powerDieReset s).pending = s.pending := by simp [powerDieReset]

theorem execPowerDieReset_pending (s s' : State) (ht : execPowerDieReset s = .next s') : s'.pending = s.pending := by
  unfold execPowerDieReset at ht
  have ht := Host.Outcome.next.inj ht; subst ht
  first
  | ((repeat' split) <;> simp; done)
  | (dsimp only; done)
  | (dsimp only; (repeat' split) <;> simp; done)
  | (dsimp only; (repeat' split) <;> simp [*]; done)
  | ((repeat' split) <;> simp [*]; done)
  | exact whenDie_pending _ _ (fun t => by first | (dsimp only; (repeat' split) <;> simp [*]; done) | (simp; (repeat' split) <;> simp; done))
  | (split <;> first | rfl | exact whenDie_pending _ _ (fun t => by dsimp only; (repeat' split) <;> simp [*]))

/-! ### Plc -/

@[simp] theorem State.updPlc_pending (s : State) (n : Nat) (f : PlcCh → PlcCh) :
    (State.updPlc s n f).pending = s.pending := by simp [State.updPlc]

@[simp] theorem plcTake_pending (n : Nat) (s : State) : (plcTake n s).pending = s.pending := by
  unfold plcTake; dsimp only; (repeat' split) <;> simp

@[simp] theorem plcStart_pending (n : Nat) (v : Word) (s : State) :
    (plcStart n v s).pending = s.pending := by simp [plcStart]

theorem execPlcStart_pending (n : Fin 66) (v : Word) (s s' : State) (ht : execPlcStart n v s = .next s') :
    s'.pending = s.pending := by
  cases ht; simp

@[simp] theorem plcStop_pending (n : Nat) (s : State) : (plcStop n s).pending = s.pending := by simp [plcStop]

theorem execPlcStop_pending (n : Fin 66) (s s' : State) (ht : execPlcStop n s = .next s') : s'.pending = s.pending := by
  cases ht; simp

@[simp] theorem plcOff_pending (n : Nat) (s : State) : (plcOff n s).pending = s.pending := by simp [plcOff]

theorem execPlcStoppingEnd_pending (n : Fin 66) (s s' : State) (ht : execPlcStoppingEnd n s = .next s') :
    s'.pending = s.pending := by
  cases ht; simp

@[simp] theorem plcHalt_pending (s : State) : (plcHalt s).pending = s.pending := by simp [plcHalt]

@[simp] theorem plcReslac_pending (n : Nat) (s : State) : (plcReslac n s).pending = s.pending := by simp [plcReslac]

theorem execPlcReslac_pending (n : Fin 66) (s s' : State) (ht : execPlcReslac n s = .next s') :
    s'.pending = s.pending := by
  cases ht; simp

@[simp] theorem beacon_pending (n : Nat) (s : State) : (beacon n s).pending = s.pending := by simp [beacon]

theorem execBeacon_pending (n : Fin 66) (s s' : State) (ht : execBeacon n s = .next s') : s'.pending = s.pending := by
  cases ht; simp

@[simp] theorem plcLinkLost_pending (n : Nat) (s : State) :
    (plcLinkLost n s).pending = s.pending := by simp [plcLinkLost]

theorem execPlcLinkLost_pending (n : Fin 66) (s s' : State) (ht : execPlcLinkLost n s = .next s') :
    s'.pending = s.pending := by
  cases ht; simp

theorem execNekRenewal_pending (n : Fin 66) (s s' : State) (ht : execNekRenewal n s = .next s') :
    s'.pending = s.pending := by
  cases ht; simp

@[simp] theorem slacParm_pending (n : Nat) (r : BitVec 64) (s : State) :
    (slacParm n r s).pending = s.pending := by simp [slacParm]

theorem execSlacParmReq_pending (n : Fin 66) (runId : BitVec 64) (s s' : State) (ht : execSlacParmReq n runId s = .next s') :
    s'.pending = s.pending := by
  cases ht; simp

@[simp] theorem startAttenChar_pending (n : Nat) (r : BitVec 64) (sounds : Nat) (s : State) :
    (startAttenChar n r sounds s).pending = s.pending := by simp [startAttenChar]

theorem execStartAttenChar_pending (n : Fin 66) (runId : BitVec 64) (sounds : Nat) (s s' : State) (ht : execStartAttenChar n runId sounds s = .next s') :
    s'.pending = s.pending := by
  cases ht; simp

@[simp] theorem slacSelect_pending (b : Nat) (c : Collection) (h : List Nat) (need : Bool) (s : State) :
    (slacSelect b c h need s).pending = s.pending := by simp [slacSelect]

@[simp] theorem slacDecide_pending (c : Collection) (s : State) : (slacDecide c s).pending = s.pending := by
  unfold slacDecide; dsimp only; (repeat' split) <;> simp

@[simp] theorem slacBack_pending (n : Nat) (r : BitVec 64) (s : State) :
    (slacBack n r s).pending = s.pending := by simp [slacBack]

@[simp] theorem slacClose_pending (r : BitVec 64) (s : State) : (slacClose r s).pending = s.pending := by
  unfold slacClose; (repeat' split) <;> simp

theorem execSlacCollectionClose_pending (runId : BitVec 64) (s s' : State) (ht : execSlacCollectionClose runId s = .next s') :
    s'.pending = s.pending := by
  cases ht; simp

@[simp] theorem soundAdd_pending (n : Nat) (r : BitVec 64) (g : List Nat) (s : State) :
    (soundAdd n r g s).pending = s.pending := by simp [soundAdd]

@[simp] theorem slacSound_pending (n : Nat) (r : BitVec 64) (g : List Nat) (s : State) :
    (slacSound n r g s).pending = s.pending := by simp [slacSound]

theorem execSlacSound_pending (n : Fin 66) (runId : BitVec 64) (groups : List Nat) (s s' : State) (ht : execSlacSound n runId groups s = .next s') :
    s'.pending = s.pending := by
  cases ht; simp

@[simp] theorem slacValidate_pending (n : Nat) (r : BitVec 64) (s : State) :
    (slacValidate n r s).pending = s.pending := by simp [slacValidate]

theorem execSlacValidateReq_pending (n : Fin 66) (runId : BitVec 64) (s s' : State) (ht : execSlacValidateReq n runId s = .next s') :
    s'.pending = s.pending := by
  cases ht; simp

@[simp] theorem slacWindowEnd_pending (n k : Nat) (s : State) : (slacWindowEnd n k s).pending = s.pending := by
  unfold slacWindowEnd; (repeat' split) <;> simp

theorem execSlacValidateWindowEnd_pending (n : Fin 66) (toggles : Nat) (s s' : State) (ht : execSlacValidateWindowEnd n toggles s = .next s') :
    s'.pending = s.pending := by
  cases ht; simp

@[simp] theorem slacMatch_pending (n : Nat) (r : BitVec 64) (mac : BitVec 48) (s : State) :
    (slacMatch n r mac s).pending = s.pending := by simp [slacMatch]

theorem execSlacMatchReq_pending (n : Fin 66) (runId : BitVec 64) (mac : BitVec 48) (s s' : State) (ht : execSlacMatchReq n runId mac s = .next s') :
    s'.pending = s.pending := by
  cases ht; simp

@[simp] theorem slacMatchTimeout_pending (n : Nat) (s : State) :
    (slacMatchTimeout n s).pending = s.pending := by simp [slacMatchTimeout]

theorem execSlacMatchTimeout_pending (n : Fin 66) (s s' : State) (ht : execSlacMatchTimeout n s = .next s') :
    s'.pending = s.pending := by
  cases ht; simp

@[simp] theorem plcRing_pending (n : Nat) (data : List Byte) (s : State) :
    (plcRing n data s).pending = s.pending := by simp [plcRing]

@[simp] theorem plcKind_pending (n : Nat) (m : Mpdu) (s : State) : (plcKind n m s).pending = s.pending := by
  unfold plcKind; (repeat' split) <;> simp

@[simp] theorem plcReceive_pending (n : Nat) (m : Mpdu) (s : State) :
    (plcReceive n m s).pending = s.pending := by simp [plcReceive]

theorem execPlcMpduReceive_pending (n : Fin 66) (m : Mpdu) (s s' : State) (ht : execPlcMpduReceive n m s = .next s') :
    s'.pending = s.pending := by
  cases ht; simp

@[simp] theorem plcPost_pending (n : Nat) (v : Word) (s : State) :
    (plcPost n v s).pending = s.pending := by simp [plcPost]

theorem execPlcTxPost_pending (n : Fin 66) (v : Word) (s s' : State) (ht : execPlcTxPost n v s = .next s') :
    s'.pending = s.pending := by
  cases ht; simp

@[simp] theorem plcSend_pending (n : Nat) (s : State) : (plcSend n s).pending = s.pending := by
  unfold plcSend; (repeat' split) <;> simp

@[simp] theorem plcAir_pending (n : Nat) (s : State) : (plcAir n s).pending = s.pending := by
  unfold plcAir; (repeat' split) <;> simp

@[simp] theorem plcSack_pending (n : Nat) (bad : BitVec 4) (s : State) : (plcSack n bad s).pending = s.pending := by
  unfold plcSack; dsimp only; (repeat' split) <;> simp

theorem execPlcSackReceived_pending (n : Fin 66) (bad : BitVec 4) (s s' : State) (ht : execPlcSackReceived n bad s = .next s') :
    s'.pending = s.pending := by
  cases ht; simp

@[simp] theorem deliveryTimeout_pending (q : Nat) (s : State) :
    (deliveryTimeout q s).pending = s.pending := by simp [deliveryTimeout]

@[simp] theorem plcTxTimeout_pending (n : Nat) (s : State) : (plcTxTimeout n s).pending = s.pending := by
  unfold plcTxTimeout; (repeat' split) <;> simp

theorem execPlcTxTimeout_pending (n : Fin 66) (s s' : State) (ht : execPlcTxTimeout n s = .next s') :
    s'.pending = s.pending := by
  cases ht; simp

@[simp] theorem plcRxPop_pending (n : Nat) (s : State) : (plcRxPop n s).pending = s.pending := by
  unfold plcRxPop; (repeat' split) <;> simp

theorem execPlcRxPop_pending (n : Fin 66) (s s' : State) (ht : execPlcRxPop n s = .next s') :
    s'.pending = s.pending := by
  cases ht; simp

@[simp] theorem plcDoneRead_pending (n : Nat) (s : State) : (plcDoneRead n s).pending = s.pending := by
  unfold plcDoneRead; (repeat' split) <;> simp

theorem execPlcTxdoneRead_pending (n : Fin 66) (s s' : State) (ht : execPlcTxdoneRead n s = .next s') :
    s'.pending = s.pending := by
  cases ht; simp

@[simp] theorem ntbRead_pending (port n : Nat) (s : State) : (ntbRead port n s).pending = s.pending := by simp [ntbRead]

theorem execPlcNtbRead_pending (port : Fin 24) (n : Fin 66) (s s' : State) (ht : execPlcNtbRead port n s = .next s') :
    s'.pending = s.pending := by
  cases ht; simp

@[simp] theorem plcCfgWrite_pending (n : Nat) (v : Word) (s : State) :
    (plcCfgWrite n v s).pending = s.pending := by simp [plcCfgWrite]

@[simp] theorem plcCtrlWrite_pending (n : Nat) (v : Word) (s : State) :
    (plcCtrlWrite n v s).pending = s.pending := by simp [plcCtrlWrite]

@[simp] theorem plcBaseWrite_pending (n : Nat) (v : Word) (s : State) :
    (plcBaseWrite n v s).pending = s.pending := by simp [plcBaseWrite]

@[simp] theorem plcRead_pending (port n off : Nat) (s : State) : (plcRead port n off s).pending = s.pending := by
  unfold plcRead; (repeat' split) <;> simp

@[simp] theorem plcWrite_pending (n off : Nat) (v : Word) (s : State) : (plcWrite n off v s).pending = s.pending := by
  unfold plcWrite; (repeat' split) <;> simp

/-! ### Resets -/

@[simp] theorem powerAtReset_pending (s : State) : (powerAtReset s).pending = s.pending := by simp [powerAtReset]

@[simp] theorem appReset_pending (causeBit : Nat) (s : State) :
    (appReset causeBit s).pending = s.pending := by simp [appReset]

@[simp] theorem coldReset_pending (causeBit : Nat) (s : State) :
    (coldReset causeBit s).pending = s.pending := by simp [coldReset]

theorem execVcoreTrip_pending (s s' : State) (ht : execVcoreTrip s = .next s') : s'.pending = s.pending := by
  cases ht; simp

theorem execVioTrip_pending (s s' : State) (ht : execVioTrip s = .next s') : s'.pending = s.pending := by
  cases ht; simp

theorem execResetPin_pending (s s' : State) (ht : execResetPin s = .next s') : s'.pending = s.pending := by
  cases ht; simp

theorem execJtagResetRequest_pending (s s' : State) (ht : execJtagResetRequest s = .next s') :
    s'.pending = s.pending := by
  cases ht; simp

@[simp] theorem rstCtrlWrite_pending (v : Word) (s : State) :
    (rstCtrlWrite v s).pending = s.pending := by simp [rstCtrlWrite]

theorem execAppResetRequest_pending (v : Word) (s s' : State) (ht : execAppResetRequest v s = .next s') :
    s'.pending = s.pending := by
  cases ht; simp

theorem execWatchdogExpiry_pending (s s' : State) (ht : execWatchdogExpiry s = .next s') : s'.pending = s.pending := by
  cases ht; simp

theorem execWatchdogHalfPeriod_pending (s s' : State) (ht : execWatchdogHalfPeriod s = .next s') :
    s'.pending = s.pending := by
  cases ht; simp

@[simp] theorem wdogWrite_pending (v : Word) (s : State) : (wdogWrite v s).pending = s.pending := by simp [wdogWrite]

theorem execWatchdogKick_pending (v : Word) (s s' : State) (ht : execWatchdogKick v s = .next s') :
    s'.pending = s.pending := by
  cases ht; simp

theorem execWatchdogPeriodSet_pending (v : Word) (s s' : State) (ht : execWatchdogPeriodSet v s = .next s') :
    s'.pending = s.pending := by
  cases ht; simp

@[simp] theorem sscWrite_pending (v : Word) (s : State) : (sscWrite v s).pending = s.pending := by simp [sscWrite]

theorem execClkSscWrite_pending (v : Word) (s s' : State) (ht : execClkSscWrite v s = .next s') :
    s'.pending = s.pending := by
  cases ht; simp

theorem execSpreadDisableHoldExpiry_pending (s s' : State) (ht : execSpreadDisableHoldExpiry s = .next s') :
    s'.pending = s.pending := by
  cases ht; simp

theorem execMainRefFail_pending (s s' : State) (ht : execMainRefFail s = .next s') : s'.pending = s.pending := by
  cases ht; simp

theorem execMainRefRecovered_pending (s s' : State) (ht : execMainRefRecovered s = .next s') :
    s'.pending = s.pending := by
  cases ht; simp

theorem execPllChUnlock_pending (_h : Bool) (s s' : State) (ht : execPllChUnlock _h s = .next s') :
    s'.pending = s.pending := by
  cases ht; simp

theorem execPllPUnlock_pending (s s' : State) (ht : execPllPUnlock s = .next s') : s'.pending = s.pending := by
  unfold execPllPUnlock at ht
  have ht := Host.Outcome.next.inj ht; subst ht
  first
  | ((repeat' split) <;> simp; done)
  | (dsimp only; done)
  | (dsimp only; (repeat' split) <;> simp; done)
  | (dsimp only; (repeat' split) <;> simp [*]; done)
  | ((repeat' split) <;> simp [*]; done)
  | exact whenDie_pending _ _ (fun t => by first | (dsimp only; (repeat' split) <;> simp [*]; done) | (simp; (repeat' split) <;> simp; done))
  | (split <;> first | rfl | exact whenDie_pending _ _ (fun t => by dsimp only; (repeat' split) <;> simp [*]))

theorem execPllEUnlock_pending (eth0 eth1 : Bool) (s s' : State) (ht : execPllEUnlock eth0 eth1 s = .next s') :
    s'.pending = s.pending := by
  cases ht; simp

@[simp] theorem stitcherReset_pending (s0 : State) : (stitcherReset s0).pending = s0.pending := by simp [stitcherReset]

@[simp] theorem anyEngineReset_pending (e : Nat) (s : State) :
    (anyEngineReset e s).pending = s.pending := by simp [anyEngineReset]

@[simp] theorem trialWrite_pending (v : Word) (s : State) : (trialWrite v s).pending = s.pending := by simp [trialWrite]

theorem execLdrTrialStart_pending (v : Word) (s s' : State) (ht : execLdrTrialStart v s = .next s') :
    s'.pending = s.pending := by
  cases ht; simp

theorem execLdrTrialStop_pending (v : Word) (s s' : State) (ht : execLdrTrialStop v s = .next s') :
    s'.pending = s.pending := by
  cases ht; simp

theorem execTrialExpiry_pending (s s' : State) (ht : execTrialExpiry s = .next s') : s'.pending = s.pending := by
  cases ht; simp

/-! ### Mem -/

@[simp] theorem memPut_pending (a : Nat) (b : Byte) (s : State) : (memPut a b s).pending = s.pending := by
  unfold memPut; (repeat' split) <;> simp

@[simp] theorem memPuts_pending (a : Nat) (l : List Byte) (s : State) : (memPuts a l s).pending = s.pending := by
  induction l generalizing s a with
  | nil => rfl
  | cons b r ih => simp [memPuts, ih]

@[simp] theorem markBytes_pending (k a n : Nat) (s : State) :
    (markBytes k a n s).pending = s.pending := by simp [markBytes]

@[simp] theorem dmaPut_pending (port a : Nat) (l : List Byte) (s : State) :
    (dmaPut port a l s).pending = s.pending := by simp [dmaPut]

@[simp] theorem dmaGet_pending (a n : Nat) (s : State) : (dmaGet a n s).2.pending = s.pending := by
  unfold dmaGet; (repeat' split) <;> simp

/-! ### Tack -/

@[simp] theorem putSlots_pending (b : Bank KeySlot) (s : State) :
    (putSlots b s).pending = s.pending := by simp [putSlots]

@[simp] theorem putSlot_pending (i : Nat) (k : KeySlot) (s : State) :
    (putSlot i k s).pending = s.pending := by simp [putSlot]

@[simp] theorem tackReply_pending (cmd slot : Nat) (st : Status) (s : State) :
    (tackReply cmd slot st s).pending = s.pending := by simp [tackReply]

@[simp] theorem tackServe_pending (cmd slot : Nat) (kinds : List Nat) (f : State → Status × State) (s : State) (h_f : ∀  t, (f  t).2.pending = t.pending) :
    (tackServe cmd slot kinds f s).pending = s.pending := by
  unfold tackServe; dsimp only; (repeat' split) <;> simp [*]

@[simp] theorem tackGenerate_pending (i : Nat) (attr : Word) (s : State) :
    (tackGenerate i attr s).2.pending = s.pending := by
  unfold tackGenerate; dsimp only; (repeat' split) <;> simp

@[simp] theorem tackImport_pending (i : Nat) (attr : Word) (data : Option (List Byte)) (r : Role) (unwrapOk : Bool) (s : State) :
    (tackImport i attr data r unwrapOk s).2.pending = s.pending := by
  unfold tackImport
  dsimp only
  refine ite2_pending _ _ _ _ (fun _ => rfl) (fun _ => ?_)
  refine ite2_pending _ _ _ _ (fun _ => rfl) (fun _ => ?_)
  refine ite2_pending _ _ _ _ (fun _ => rfl) (fun _ => ?_)
  refine ite2_pending _ _ _ _ (fun _ => rfl) (fun _ => ?_)
  cases data with
  | none => rfl
  | some d =>
    refine ite2_pending _ _ _ _ (fun _ => ?_) (fun _ => ?_)
    · refine ite2_pending _ _ _ _ (fun _ => rfl) (fun _ => ?_)
      refine ite2_pending _ _ _ _ (fun _ => rfl) (fun _ => ?_)
      refine ite2_pending _ _ _ _ (fun _ => rfl) (fun _ => ?_)
      refine ite2_pending _ _ _ _ (fun _ => rfl) (fun _ => ?_)
      refine ite2_pending _ _ _ _ (fun _ => rfl) (fun _ => ?_)
      refine ite2_pending _ _ _ _ (fun _ => rfl) (fun _ => ?_)
      exact putSlot_pending _ _ _
    · refine ite2_pending _ _ _ _ (fun _ => rfl) (fun _ => ?_)
      refine ite2_pending _ _ _ _ (fun _ => rfl) (fun _ => ?_)
      exact putSlot_pending _ _ _

@[simp] theorem tackDerive_pending (i p : Nat) (label : Option (List Byte)) (attr : Word) (s : State) :
    (tackDerive i p label attr s).2.pending = s.pending := by
  unfold tackDerive; dsimp only; (repeat' split) <;> simp

@[simp] theorem tackDelete_pending (i : Nat) (r : Role) (s : State) : (tackDelete i r s).2.pending = s.pending := by
  unfold tackDelete; dsimp only; (repeat' split) <;> simp

@[simp] theorem tackPut_pending (a : Nat) (l : List Byte) (s : State) : (tackPut a l s).2.pending = s.pending := by
  unfold tackPut; (repeat' split) <;> simp

@[simp] theorem tackPublic_pending (i a : Nat) (s : State) : (tackPublic i a s).2.pending = s.pending := by
  unfold tackPublic; dsimp only; (repeat' split) <;> simp

@[simp] theorem tackSign_pending (i a : Nat) (s : State) : (tackSign i a s).2.pending = s.pending := by
  unfold tackSign; (repeat' split) <;> simp

@[simp] theorem tackVerify_pending (i a : Nat) (good : Bool) (s : State) :
    (tackVerify i a good s).2.pending = s.pending := by
  unfold tackVerify; (repeat' split) <;> simp

@[simp] theorem tackAgree_pending (i a : Nat) (s : State) : (tackAgree i a s).2.pending = s.pending := by
  unfold tackAgree; (repeat' split) <;> simp

theorem execGenerate_pending (slot : BitVec 8) (attr : Word) (s s' : State) (ht : execGenerate slot attr s = .next s') :
    s'.pending = s.pending := by
  cases ht; simp

theorem execImportKey_pending (slot : BitVec 8) (attr : Word) (addr len : Nat) (role : Role) (unwrapOk : Bool) (s s' : State) (ht : execImportKey slot attr addr len role unwrapOk s = .next s') :
    s'.pending = s.pending := by
  cases ht; simp

theorem execDerive_pending (slot parent : BitVec 8) (labelAddr labelLen : Nat) (attr : Word) (s s' : State) (ht : execDerive slot parent labelAddr labelLen attr s = .next s') :
    s'.pending = s.pending := by
  cases ht; simp

theorem execDelete_pending (slot : BitVec 8) (role : Role) (s s' : State) (ht : execDelete slot role s = .next s') :
    s'.pending = s.pending := by
  cases ht; simp

theorem execPublicKey_pending (slot : BitVec 8) (addr : Word) (s s' : State) (ht : execPublicKey slot addr s = .next s') :
    s'.pending = s.pending := by
  cases ht; simp

theorem execSign_pending (slot : BitVec 8) (addr : Word) (s s' : State) (ht : execSign slot addr s = .next s') :
    s'.pending = s.pending := by
  cases ht; simp

theorem execVerify_pending (slot : BitVec 8) (addr : Word) (good : Bool) (s s' : State) (ht : execVerify slot addr good s = .next s') :
    s'.pending = s.pending := by
  cases ht; simp

theorem execAgree_pending (slot : BitVec 8) (addr : Word) (s s' : State) (ht : execAgree slot addr s = .next s') :
    s'.pending = s.pending := by
  cases ht; simp

@[simp] theorem measureInto_pending (k : Nat) (h : BitVec 384) (s : State) :
    (measureInto k h s).pending = s.pending := by simp [measureInto]

@[simp] theorem tackMeasure_pending (k a n : Nat) (s : State) : (tackMeasure k a n s).2.pending = s.pending := by
  unfold tackMeasure; (repeat' split) <;> simp

theorem execMeasure_pending (unit : BitVec 8) (addr len : Nat) (s s' : State) (ht : execMeasure unit addr len s = .next s') :
    s'.pending = s.pending := by
  cases ht; simp

@[simp] theorem tackRandom_pending (a n : Nat) (s : State) : (tackRandom a n s).2.pending = s.pending := by
  unfold tackRandom; (repeat' split) <;> simp

theorem execRandom_pending (addr : Word) (len : Nat) (s s' : State) (ht : execRandom addr len s = .next s') :
    s'.pending = s.pending := by
  cases ht; simp

@[simp] theorem rewrap_pending (mr0 mr2 mr3 : BitVec 384) (s : State) :
    (rewrap mr0 mr2 mr3 s).pending = s.pending := by simp [rewrap]

@[simp] theorem successorWrite_pending (m : Manifest) (s : State) :
    (successorWrite m s).pending = s.pending := by simp [successorWrite]

@[simp] theorem eraseSpare_pending (s : State) : (eraseSpare s).pending = s.pending := by simp [eraseSpare]

@[simp] theorem tackSuccessor_pending (s : State) : (tackSuccessor s).2.pending = s.pending := by
  unfold tackSuccessor; (repeat' split) <;> simp

theorem execSuccessor_pending (_addr : Word) (s s' : State) (ht : execSuccessor _addr s = .next s') :
    s'.pending = s.pending := by
  cases ht; simp

@[simp] theorem fuseDebug_pending (v : BitVec 384) (s : State) : (fuseDebug v s).2.pending = s.pending := by
  unfold fuseDebug; (repeat' split) <;> simp

@[simp] theorem fuseSafe_pending (v staged : BitVec 384) (s : State) : (fuseSafe v staged s).2.pending = s.pending := by
  unfold fuseSafe; (repeat' split) <;> simp

@[simp] theorem tackFuse_pending (f : FuseField) (v : BitVec 384) (s : State) :
    (tackFuse f v s).2.pending = s.pending := by
  unfold tackFuse; (repeat' split) <;> simp

theorem execFuse_pending (field : FuseField) (v : BitVec 384) (s s' : State) (ht : execFuse field v s = .next s') :
    s'.pending = s.pending := by
  cases ht; simp

@[simp] theorem decommission_pending (r : Role) (v : Word) (s : State) :
    (decommission r v s).2.pending = s.pending := by
  unfold decommission; (repeat' split) <;> simp

theorem execDecommission_pending (role : Role) (v : Word) (s s' : State) (ht : execDecommission role v s = .next s') :
    s'.pending = s.pending := by
  cases ht; simp

/-! ### Update -/

@[simp] theorem State.updUpd_pending (s : State) (f : Update → Update) :
    (State.updUpd s f).pending = s.pending := by simp [State.updUpd]

@[simp] theorem upLogHash_pending (k : LogKind) (blk aux : Nat) (h : BitVec 384) (s : State) :
    (upLogHash k blk aux h s).pending = s.pending := by simp [upLogHash]

@[simp] theorem upLog_pending (k : LogKind) (blk aux : Nat) (s : State) :
    (upLog k blk aux s).pending = s.pending := by simp [upLog]

@[simp] theorem imageSet_pending (b : Nat) (h : BitVec 384) (s : State) :
    (imageSet b h s).pending = s.pending := by simp [imageSet]

@[simp] theorem updatePrepare_pending (m : Manifest) (s : State) :
    (updatePrepare m s).pending = s.pending := by simp [updatePrepare]

@[simp] theorem manifestAccept_pending (role : Role) (latigo : Bool) (m : Manifest) (s : State) :
    (manifestAccept role latigo m s).2.pending = s.pending := by simp [manifestAccept]

theorem execManifestAccept_pending (role : Role) (latigo : Bool) (m : Manifest) (s s' : State) (ht : execManifestAccept role latigo m s = .next s') :
    s'.pending = s.pending := by
  cases ht; simp

@[simp] theorem restoreBlock_pending (b : Nat) (s : State) :
    (restoreBlock b s).pending = s.pending := by simp [restoreBlock]

@[simp] theorem restoreAll_pending (s : State) : (restoreAll s).pending = s.pending := by
  unfold restoreAll
  dsimp only
  rw [State.updUpd_pending, foldl_pending _ (fun t b => restoreBlock_pending _ t)]

@[simp] theorem updateUndone_pending (s : State) : (updateUndone s).pending = s.pending := by simp [updateUndone]

@[simp] theorem rollback_pending (s : State) : (rollback s).pending = s.pending := by simp [rollback]

@[simp] theorem updateBlock_pending (b : BlockData) (s : State) : (updateBlock b s).2.pending = s.pending := by
  unfold updateBlock; dsimp only; (repeat' split) <;> simp

theorem execUpdateBlock_pending (b : BlockData) (s s' : State) (ht : execUpdateBlock b s = .next s') :
    s'.pending = s.pending := by
  cases ht; simp

@[simp] theorem updateAbandon_pending (v : Nat) (s : State) : (updateAbandon v s).2.pending = s.pending := by
  unfold updateAbandon; dsimp only; (repeat' split) <;> simp

theorem execUpdateAbandon_pending (v : BitVec 8) (s s' : State) (ht : execUpdateAbandon v s = .next s') :
    s'.pending = s.pending := by
  cases ht; simp

@[simp] theorem handover_pending (v : Nat) (s : State) : (handover v s).2.pending = s.pending := by
  unfold handover; (repeat' split) <;> simp

theorem execHandover_pending (v : BitVec 8) (s s' : State) (ht : execHandover v s = .next s') :
    s'.pending = s.pending := by
  cases ht; simp

@[simp] theorem confirmUpdate_pending (m : Manifest) (s : State) :
    (confirmUpdate m s).pending = s.pending := by simp [confirmUpdate]

@[simp] theorem tackConfirm_pending (s : State) : (tackConfirm s).2.pending = s.pending := by
  unfold tackConfirm; (repeat' split) <;> simp

theorem execConfirm_pending (s s' : State) (ht : execConfirm s = .next s') : s'.pending = s.pending := by
  cases ht; simp

@[simp] theorem trialBegin_pending (s : State) : (trialBegin s).pending = s.pending := by simp [trialBegin]

@[simp] theorem loaderResume_pending (compsGood : Bool) (s : State) :
    (loaderResume compsGood s).2.pending = s.pending := by
  unfold loaderResume; dsimp only; (repeat' split) <;> simp

/-! ### Skiver -/

@[simp] theorem skvSubmit_pending (port a : Nat) (s : State) :
    (skvSubmit port a s).pending = s.pending := by simp [skvSubmit]

theorem execSkiverSubmit_pending (port : Fin 24) (addr : Word) (s s' : State) (ht : execSkiverSubmit port addr s = .next s') :
    s'.pending = s.pending := by
  cases ht; simp

@[simp] theorem skvCpl_pending (l : List (Nat × Status)) (s : State) :
    (skvCpl l s).pending = s.pending := by simp [skvCpl]

@[simp] theorem skvDone_pending (j : SkvJob) (e : SkvEnd) (s : State) :
    (skvDone j e s).pending = s.pending := by simp [skvDone]

@[simp] theorem skvRun_pending (j : SkvJob) (r : SkvResult) (s : State) :
    (skvRun j r s).pending = s.pending := by simp [skvRun]

theorem execSkiverComplete_pending (tag : BitVec 16) (r : SkvResult) (s s' : State) (ht : execSkiverComplete tag r s = .next s') :
    s'.pending = s.pending := by
  cases ht; (repeat' split) <;> simp

@[simp] theorem skvCplRead_pending (s : State) : (skvCplRead s).pending = s.pending := by
  unfold skvCplRead; (repeat' split) <;> simp

theorem execSkiverCplRead_pending (s s' : State) (ht : execSkiverCplRead s = .next s') : s'.pending = s.pending := by
  cases ht; simp

@[simp] theorem skvCfgWrite_pending (v : Word) (s : State) :
    (skvCfgWrite v s).pending = s.pending := by simp [skvCfgWrite]

/-! ### Vehicle -/

@[simp] theorem State.updVc_pending (s : State) (n : Nat) (f : V2gConn → V2gConn) :
    (State.updVc s n f).pending = s.pending := by simp [State.updVc]

@[simp] theorem vehicleRequest_pending (p slot v : Nat) (i : Int) (s : State) :
    (vehicleRequest p slot v i s).pending = s.pending := by simp [vehicleRequest]

@[simp] theorem sdpAnswer_pending (n : Nat) (tls : Bool) (s : State) :
    (sdpAnswer n tls s).pending = s.pending := by simp [sdpAnswer]

theorem execSdpRequest_pending (n : Fin 64) (tls : Bool) (s s' : State) (ht : execSdpRequest n tls s = .next s') :
    s'.pending = s.pending := by
  cases ht; simp

@[simp] theorem spillAssign_pending (n : Nat) (s : State) :
    (spillAssign n s).pending = s.pending := by simp [spillAssign]

@[simp] theorem tcpConnect_pending (n : Nat) (tls : Bool) (s : State) :
    (tcpConnect n tls s).pending = s.pending := by simp [tcpConnect]

theorem execV2gTcpConnect_pending (n : Fin 64) (tls : Bool) (s s' : State) (ht : execV2gTcpConnect n tls s = .next s') :
    s'.pending = s.pending := by
  cases ht; simp

@[simp] theorem connClose_pending (n : Nat) (s : State) : (connClose n s).pending = s.pending := by simp [connClose]

@[simp] theorem connFail_pending (n : Nat) (s : State) : (connFail n s).pending = s.pending := by simp [connFail]

@[simp] theorem tlsHandshake_pending (n : Nat) (h : V2gHello) (s : State) :
    (tlsHandshake n h s).pending = s.pending := by
  unfold tlsHandshake
  dsimp only
  split
  · rfl
  split
  · simp
  split
  · simp
  · rename_i e; rw [State.updVc_pending, girthRun_pending _ _ _ _ e]

theorem execV2gTlsHandshake_pending (n : Fin 64) (h : V2gHello) (s s' : State) (ht : execV2gTlsHandshake n h s = .next s') :
    s'.pending = s.pending := by
  cases ht; simp

@[simp] theorem handOver_pending (n slot : Nat) (s : State) :
    (handOver n slot s).pending = s.pending := by simp [handOver]

@[simp] theorem v2gtp_pending (n ver inv ty len : Nat) (s : State) :
    (v2gtp n ver inv ty len s).pending = s.pending := by
  unfold v2gtp; dsimp only; (repeat' split) <;> simp

theorem execV2gtpMessage_pending (n : Fin 64) (version inverse : BitVec 8) (ptype : BitVec 16) (len : Nat) (s s' : State) (ht : execV2gtpMessage n version inverse ptype len s = .next s') :
    s'.pending = s.pending := by
  cases ht; simp

@[simp] theorem sapRequest_pending (n : Nat) (l : List ProtoOffer) (s : State) :
    (sapRequest n l s).pending = s.pending := by
  unfold sapRequest; dsimp only; (repeat' split) <;> simp

theorem execSupportedAppProtocolReq_pending (n : Fin 64) (offers : List ProtoOffer) (s s' : State) (ht : execSupportedAppProtocolReq n offers s = .next s') :
    s'.pending = s.pending := by
  cases ht; simp

@[simp] theorem answer_pending (n : Nat) (m : V2gMsg) (a : V2gAns) (s : State) :
    (answer n m a s).pending = s.pending := by simp [answer]

@[simp] theorem waitFor_pending (n : Nat) (m : V2gMsg) (s : State) :
    (waitFor n m s).pending = s.pending := by simp [waitFor]

@[simp] theorem seqError_pending (n : Nat) (s : State) : (seqError n s).pending = s.pending := by simp [seqError]

@[simp] theorem onRequest_pending (n : Nat) (m : V2gMsg) (f : Nat → Proto → State → State) (s : State) (h_f : ∀ x0 x1 t, (f x0 x1 t).pending = t.pending) :
    (onRequest n m f s).pending = s.pending := by
  unfold onRequest; dsimp only; (repeat' split) <;> simp [*]

@[simp] theorem authDecide_pending (n slot : Nat) (s : State) :
    (authDecide n slot s).pending = s.pending := by simp [authDecide]

@[simp] theorem requestCoil_pending (n slot : Nat) (s : State) :
    (requestCoil n slot s).pending = s.pending := by simp [requestCoil]

@[simp] theorem report_pending (n : Nat) (m : V2gMsg) (s : State) :
    (report n m s).pending = s.pending := by simp [report]

@[simp] theorem answerWith_pending (n : Nat) (m : V2gMsg) (a : V2gAns) (s : State) :
    (answerWith n m a s).pending = s.pending := by simp [answerWith]

@[simp] theorem cableCheck_pending (n : Nat) (s : State) : (cableCheck n s).pending = s.pending := by
  unfold cableCheck; (repeat' split) <;> simp

@[simp] theorem withTariff_pending (n : Nat) (m : V2gMsg) (f : State → State) (s : State) (h_f : ∀  t, (f  t).pending = t.pending) :
    (withTariff n m f s).pending = s.pending := by
  unfold withTariff; (repeat' split) <;> simp [*]

@[simp] theorem chargeParams_pending (n slot : Nat) (pr : Proto) (x : V2gVals) (s : State) :
    (chargeParams n slot pr x s).pending = s.pending := by simp [chargeParams]

@[simp] theorem meteringConfirm_pending (n slot : Nat) (sig : List Byte) (s : State) :
    (meteringConfirm n slot sig s).pending = s.pending := by simp [meteringConfirm]

@[simp] theorem demand_pending (n slot : Nat) (m : V2gMsg) (x : V2gVals) (s : State) :
    (demand n slot m x s).pending = s.pending := by simp [demand]

@[simp] theorem contactorOff_pending (p : Nat) (s : State) :
    (contactorOff p s).pending = s.pending := by simp [contactorOff]

@[simp] theorem stopDone_pending (slot : Nat) (s : State) : (stopDone slot s).pending = s.pending := by simp [stopDone]

@[simp] theorem sessionStop_pending (n slot : Nat) (s : State) :
    (sessionStop n slot s).pending = s.pending := by simp [sessionStop]

@[simp] theorem powerPause_pending (n slot : Nat) (s : State) :
    (powerPause n slot s).pending = s.pending := by simp [powerPause]

@[simp] theorem authSetup_pending (n : Nat) (s : State) : (authSetup n s).pending = s.pending := by simp [authSetup]

@[simp] theorem certInstall_pending (n slot : Nat) (stream : List Byte) (f : State → State) (s : State) (h_f : ∀  t, (f  t).pending = t.pending) :
    (certInstall n slot stream f s).pending = s.pending := by
  unfold certInstall; (repeat' split) <;> simp [*]

@[simp] theorem certAnswer_pending (n slot : Nat) (s : State) :
    (certAnswer n slot s).pending = s.pending := by simp [certAnswer]

@[simp] theorem v2gServe_pending (n : Nat) (m : V2gMsg) (x : V2gVals) (slot : Nat) (pr : Proto) (s : State) :
    (v2gServe n m x slot pr s).pending = s.pending := by
  unfold v2gServe; (repeat' split) <;> simp

theorem execV2gRequest_pending (n : Fin 64) (m : V2gMsg) (x : V2gVals) (s s' : State) (ht : execV2gRequest n m x s = .next s') :
    s'.pending = s.pending := by
  cases ht; simp

theorem execAuthorizationSetupReq_pending (n : Fin 64) (s s' : State) (ht : execAuthorizationSetupReq n s = .next s') :
    s'.pending = s.pending := by
  cases ht; simp

@[simp] theorem pncRun_pending (n slot : Nat) (a : PncCheck) (s : State) : (pncRun n slot a s).pending = s.pending := by
  unfold pncRun; (repeat' split) <;> simp

@[simp] theorem pncAuth_pending (n slot : Nat) (a : PncCheck) (s : State) :
    (pncAuth n slot a s).pending = s.pending := by
  unfold pncAuth
  dsimp only
  split
  · exact authDecide_pending _ _ _
  split
  · simp
  · rename_i e; rw [pncRun_pending, girthRun_pending _ _ _ _ e]

theorem execAuthorizationReq_pending (n : Fin 64) (a : PncCheck) (s s' : State) (ht : execAuthorizationReq n a s = .next s') :
    s'.pending = s.pending := by
  cases ht; simp

theorem execCertificateInstallationReq_pending (n : Fin 64) (stream : List Byte) (s s' : State) (ht : execCertificateInstallationReq n stream s = .next s') :
    s'.pending = s.pending := by
  cases ht; simp

@[simp] theorem failStop_pending (n slot : Nat) (m : V2gMsg) (a : V2gAns) (s : State) :
    (failStop n slot m a s).pending = s.pending := by simp [failStop]

@[simp] theorem energise_pending (slot : Nat) (s : State) : (energise slot s).pending = s.pending := by simp [energise]

@[simp] theorem powerStart_pending (n slot : Nat) (late : Bool) (s : State) :
    (powerStart n slot late s).pending = s.pending := by simp [powerStart]

theorem execPowerDeliveryStart_pending (n : Fin 64) (late : Bool) (s s' : State) (ht : execPowerDeliveryStart n late s = .next s') :
    s'.pending = s.pending := by
  cases ht; simp

@[simp] theorem ongoingExpiry_pending (n : Nat) (s : State) : (ongoingExpiry n s).pending = s.pending := by
  unfold ongoingExpiry; dsimp only; (repeat' split) <;> simp

theorem execOngoingTimeExpiry_pending (n : Fin 64) (s s' : State) (ht : execOngoingTimeExpiry n s = .next s') :
    s'.pending = s.pending := by
  cases ht; simp

@[simp] theorem answerWaiting_pending (n slot : Nat) (s : State) : (answerWaiting n slot s).pending = s.pending := by
  unfold answerWaiting; (repeat' split) <;> simp

@[simp] theorem decisionTaken_pending (n slot : Nat) (s : State) :
    (decisionTaken n slot s).pending = s.pending := by simp [decisionTaken]

theorem execHostDecisionTimeout_pending (n : Fin 64) (s s' : State) (ht : execHostDecisionTimeout n s = .next s') :
    s'.pending = s.pending := by
  cases ht; simp

@[simp] theorem hostIdent_pending (slot : Nat) (s : State) :
    (hostIdent slot s).pending = s.pending := by simp [hostIdent]

@[simp] theorem hostDecide_pending (slot d : Nat) (s : State) : (hostDecide slot d s).2.pending = s.pending := by
  unfold hostDecide; dsimp only; (repeat' split) <;> simp

theorem execHostDecision_pending (slot : Fin 256) (handle : Word) (serial : BitVec 64) (decision : BitVec 8) (s s' : State) (ht : execHostDecision slot handle serial decision s = .next s') :
    s'.pending = s.pending := by
  cases ht; simp

theorem execV2gSequenceTimeout_pending (n : Fin 64) (s s' : State) (ht : execV2gSequenceTimeout n s = .next s') :
    s'.pending = s.pending := by
  cases ht; simp

theorem execV2gSetupTimeout_pending (n : Fin 64) (s s' : State) (ht : execV2gSetupTimeout n s = .next s') :
    s'.pending = s.pending := by
  cases ht; simp

theorem execAwlJobComplete_pending (pka ok : Bool) (slot : Option (Fin 256)) (s s' : State) (ht : execAwlJobComplete pka ok slot s = .next s') :
    s'.pending = s.pending := by
  cases ht; (repeat' split) <;> simp

@[simp] theorem withPort_pending (k : Nat) (f : Nat → State → State) (s : State) (h_f : ∀ x0 t, (f x0 t).pending = t.pending) :
    (withPort k f s).pending = s.pending := by
  unfold withPort; (repeat' split) <;> simp [*]

@[simp] theorem faultStop_pending (k p reason : Nat) (s : State) :
    (faultStop k p reason s).pending = s.pending := by simp [faultStop]

@[simp] theorem requestLock_pending (p slot : Nat) (s : State) :
    (requestLock p slot s).pending = s.pending := by simp [requestLock]

@[simp] theorem seqAdvance_pending (k p slot : Nat) (s : State) :
    (seqAdvance k p slot s).pending = s.pending := by simp [seqAdvance]

theorem execSequenceSignalChange_pending (k : Fin 8) (prox level : Bool) (s s' : State) (ht : execSequenceSignalChange k prox level s = .next s') :
    s'.pending = s.pending := by
  cases ht; simp

@[simp] theorem vcan102_pending (k p slot : Nat) (data : List Byte) (s : State) :
    (vcan102 k p slot data s).pending = s.pending := by simp [vcan102]

@[simp] theorem vcanTake_pending (k p slot n : Nat) (data : List Byte) (s : State) :
    (vcanTake k p slot n data s).pending = s.pending := by simp [vcanTake]

theorem execVcanFrame_pending (k : Fin 8) (id : BitVec 11) (data : List Byte) (s s' : State) (ht : execVcanFrame k id data s = .next s') :
    s'.pending = s.pending := by
  cases ht; simp

theorem execChargerFramePeriod_pending (k : Fin 8) (s s' : State) (ht : execChargerFramePeriod k s = .next s') :
    s'.pending = s.pending := by
  cases ht; simp

theorem execVcanFirstFrameTimeout_pending (k : Fin 8) (s s' : State) (ht : execVcanFirstFrameTimeout k s = .next s') :
    s'.pending = s.pending := by
  cases ht; simp

theorem execVcanFrameTimeout_pending (k : Fin 8) (s s' : State) (ht : execVcanFrameTimeout k s = .next s') :
    s'.pending = s.pending := by
  cases ht; simp

@[simp] theorem vcanConfine_pending (k : Nat) (s : State) :
    (vcanConfine k s).pending = s.pending := by simp [vcanConfine]

/-! ### Harness -/

@[simp] theorem harnessBurst_pending (t : Nat) (reqs : List BurstReq) (s : State) :
    (harnessBurst t reqs s).pending = s.pending := by
  unfold harnessBurst; dsimp only; (repeat' split) <;> simp

@[simp] theorem eccReport_pending (m : Nat) (e : Ecc) (s : State) : (eccReport m e s).pending = s.pending := by
  unfold eccReport; (repeat' split) <;> simp

theorem execHarnessBurst_pending (t : Fin 30) (b : BurstReqs) (s s' : State) (ht : execHarnessBurst t b s = .next s') :
    s'.pending = s.pending := by
  cases ht; simp

@[simp] theorem waitMaxRead_pending (t : Nat) (s : State) :
    (waitMaxRead t s).pending = s.pending := by simp [waitMaxRead]

theorem execHrnWaitmaxRead_pending (t : Fin 30) (s s' : State) (ht : execHrnWaitmaxRead t s = .next s') :
    s'.pending = s.pending := by
  cases ht; simp

/-! ### Journal -/

@[simp] theorem stageRec_pending (r : JRec) (s : State) : (stageRec r s).pending = s.pending := by simp [stageRec]

@[simp] theorem setArea_pending (k : Nat) (a : Area) (s : State) :
    (setArea k a s).pending = s.pending := by simp [setArea]

@[simp] theorem batchRequest_pending (s : State) : (batchRequest s).pending = s.pending := by
  unfold batchRequest; (repeat' split) <;> simp

@[simp] theorem batchClose_pending (s : State) : (batchClose s).pending = s.pending := by simp [batchClose]

theorem execJournalBatchClose_pending (_save : Bool) (s s' : State) (ht : execJournalBatchClose _save s = .next s') :
    s'.pending = s.pending := by
  cases ht; simp

@[simp] theorem areaCompacted_pending (k ticket : Nat) (s : State) :
    (areaCompacted k ticket s).pending = s.pending := by simp [areaCompacted]

@[simp] theorem batchProgrammed_pending (s : State) : (batchProgrammed s).pending = s.pending := by
  unfold batchProgrammed; (repeat' split) <;> simp

@[simp] theorem journalDone_pending (s : State) : (journalDone s).pending = s.pending := by
  unfold journalDone; (repeat' split) <;> simp

theorem execXspiOperationDone_pending (err : Bool) (s s' : State) (ht : execXspiOperationDone err s = .next s') :
    s'.pending = s.pending := by
  cases ht; simp

@[simp] theorem journalRead_pending (aOk bOk : Bool) (bad : List (Bool × Nat)) (s : State) :
    (journalRead aOk bOk bad s).pending = s.pending := by simp [journalRead]

@[simp] theorem restoreDefaults_pending (s : State) :
    (restoreDefaults s).pending = s.pending := by simp [restoreDefaults]

/-! ### Counters -/

theorem execCounterWrap_pending (i : Fin 128) (s s' : State) (ht : execCounterWrap i s = .next s') :
    s'.pending = s.pending := by
  cases ht; simp

@[simp] theorem pmcSelect_pending (i : Nat) (v : Word) (s : State) :
    (pmcSelect i v s).pending = s.pending := by simp [pmcSelect]

theorem execPmcSelect_pending (i : Fin 128) (v : Word) (s s' : State) (ht : execPmcSelect i v s = .next s') :
    s'.pending = s.pending := by
  cases ht; simp

@[simp] theorem pmcSnapshot_pending (v : Word) (s : State) :
    (pmcSnapshot v s).pending = s.pending := by simp [pmcSnapshot]

theorem execPmcSnapshot_pending (v : Word) (s s' : State) (ht : execPmcSnapshot v s = .next s') :
    s'.pending = s.pending := by
  cases ht; simp

/-! ### Served -/

@[simp] theorem ownRead_pending (idx sub : Nat) (s : State) :
    (ownRead idx sub s).pending = s.pending := by simp [ownRead]

/-! ### Earth -/

@[simp] theorem State.updRc_pending (s : State) (n : Nat) (f : RcCh → RcCh) :
    (State.updRc s n f).pending = s.pending := by simp [State.updRc]

@[simp] theorem rcEvt_pending (n i : Nat) (s : State) : (rcEvt n i s).pending = s.pending := by simp [rcEvt]

@[simp] theorem rcEnd_pending (n : Nat) (meanUv : Int) (rmsUv : Nat) (s : State) :
    (rcEnd n meanUv rmsUv s).pending = s.pending := by
  unfold rcEnd; dsimp only; (repeat' split) <;> simp

theorem execRcWindowEnd_pending (n : Fin 64) (meanUv : Int) (rmsUv : Nat) (s s' : State) (ht : execRcWindowEnd n meanUv rmsUv s = .next s') :
    s'.pending = s.pending := by
  cases ht; simp

@[simp] theorem rcClear_pending (n : Nat) (s : State) : (rcClear n s).pending = s.pending := by simp [rcClear]

theorem execRcClear_pending (n : Fin 64) (s s' : State) (ht : execRcClear n s = .next s') : s'.pending = s.pending := by
  cases ht; simp

@[simp] theorem rcCfgWrite_pending (n : Nat) (v : Word) (s : State) :
    (rcCfgWrite n v s).pending = s.pending := by simp [rcCfgWrite]

theorem execRcCfgWrite_pending (n : Fin 64) (v : Word) (s s' : State) (ht : execRcCfgWrite n v s = .next s') :
    s'.pending = s.pending := by
  cases ht; simp

@[simp] theorem State.updIm_pending (s : State) (k : Nat) (f : ImCh → ImCh) :
    (State.updIm s k f).pending = s.pending := by simp [State.updIm]

@[simp] theorem imEvt_pending (k i : Nat) (s : State) : (imEvt k i s).pending = s.pending := by simp [imEvt]

@[simp] theorem imResult_pending (k r : Nat) (s : State) : (imResult k r s).pending = s.pending := by simp [imResult]

@[simp] theorem imHalf_pending (k : Nat) (vp vn : Int) (span : Nat) (s : State) :
    (imHalf k vp vn span s).pending = s.pending := by
  unfold imHalf; dsimp only; (repeat' split) <;> simp

theorem execImHalfPeriodEnd_pending (k : Fin 16) (vp vn : Int) (span : Nat) (s s' : State) (ht : execImHalfPeriodEnd k vp vn span s = .next s') :
    s'.pending = s.pending := by
  cases ht; simp

@[simp] theorem imStart_pending (k : Nat) (st : ImSt) (s : State) :
    (imStart k st s).pending = s.pending := by simp [imStart]

@[simp] theorem imEnable_pending (k : Nat) (s : State) : (imEnable k s).pending = s.pending := by simp [imEnable]

theorem execImEnable_pending (k : Fin 16) (s s' : State) (ht : execImEnable k s = .next s') :
    s'.pending = s.pending := by
  cases ht; simp

@[simp] theorem imDisable_pending (k : Nat) (s : State) : (imDisable k s).pending = s.pending := by simp [imDisable]

theorem execImDisable_pending (k : Fin 16) (s s' : State) (ht : execImDisable k s = .next s') :
    s'.pending = s.pending := by
  cases ht; simp

@[simp] theorem imPause_pending (k : Nat) (s : State) : (imPause k s).pending = s.pending := by simp [imPause]

theorem execImPause_pending (k : Fin 16) (s s' : State) (ht : execImPause k s = .next s') : s'.pending = s.pending := by
  cases ht; simp

@[simp] theorem imResume_pending (k : Nat) (s : State) : (imResume k s).pending = s.pending := by simp [imResume]

theorem execImResume_pending (k : Fin 16) (s s' : State) (ht : execImResume k s = .next s') :
    s'.pending = s.pending := by
  cases ht; simp

@[simp] theorem imClear_pending (k : Nat) (s : State) : (imClear k s).pending = s.pending := by simp [imClear]

theorem execImClear_pending (k : Fin 16) (s s' : State) (ht : execImClear k s = .next s') : s'.pending = s.pending := by
  cases ht; simp

@[simp] theorem imCfgWrite_pending (k : Nat) (v : Word) (s : State) :
    (imCfgWrite k v s).pending = s.pending := by simp [imCfgWrite]

@[simp] theorem imNetWrite_pending (k : Nat) (v : Word) (s : State) :
    (imNetWrite k v s).pending = s.pending := by simp [imNetWrite]

@[simp] theorem imDivWrite_pending (k : Nat) (v : Word) (s : State) :
    (imDivWrite k v s).pending = s.pending := by simp [imDivWrite]

@[simp] theorem imThrWrite_pending (k : Nat) (v : Word) (s : State) :
    (imThrWrite k v s).pending = s.pending := by simp [imThrWrite]

@[simp] theorem earthFrame_pending (u : EarthUnit) (s : State) : (earthFrame u s).pending = s.pending := by
  unfold earthFrame; (repeat' split) <;> simp

theorem execEarthFaultFrame_pending (u : EarthUnit) (s s' : State) (ht : execEarthFaultFrame u s = .next s') :
    s'.pending = s.pending := by
  cases ht; simp

/-! ### Handlers -/

@[simp] theorem toLinking_pending (p slot : Nat) (s : State) :
    (toLinking p slot s).pending = s.pending := by simp [toLinking]

@[simp] theorem toBasic_pending (p slot : Nat) (s : State) : (toBasic p slot s).pending = s.pending := by simp [toBasic]

@[simp] theorem connected_pending (p slot : Nat) (s : State) :
    (connected p slot s).pending = s.pending := by simp [connected]

@[simp] theorem connect_pending (p slot : Nat) (s : State) : (connect p slot s).pending = s.pending := by simp [connect]

@[simp] theorem faultEnd_pending (p slot reason : Nat) (s : State) :
    (faultEnd p slot reason s).pending = s.pending := by simp [faultEnd]

@[simp] theorem closingOn_pending (p slot : Nat) (s : State) :
    (closingOn p slot s).pending = s.pending := by simp [closingOn]

@[simp] theorem stoppingOn_pending (p slot : Nat) (s : State) :
    (stoppingOn p slot s).pending = s.pending := by simp [stoppingOn]

@[simp] theorem servePilot_pending (p slot : Nat) (s : State) :
    (servePilot p slot s).pending = s.pending := by simp [servePilot]

@[simp] theorem serveEarth_pending (p slot : Nat) (s : State) :
    (serveEarth p slot s).pending = s.pending := by simp [serveEarth]

@[simp] theorem serveGrant_pending (p slot : Nat) (s : State) : (serveGrant p slot s).pending = s.pending := by
  unfold serveGrant; (repeat' split) <;> simp

@[simp] theorem serveTimer_pending (p slot : Nat) (s : State) :
    (serveTimer p slot s).pending = s.pending := by simp [serveTimer]

@[simp] theorem servePlc_pending (p slot : Nat) (s : State) :
    (servePlc p slot s).pending = s.pending := by simp [servePlc]

@[simp] theorem serveClass_pending (k p slot : Nat) (s : State) : (serveClass k p slot s).pending = s.pending := by
  unfold serveClass; (repeat' split) <;> simp

@[simp] theorem serveAll_pending (slot : Nat) (s : State) : (serveAll slot s).pending = s.pending := by simp [serveAll]

@[simp] theorem doneServed_pending (e : Nat) (s : State) : (doneServed e s).pending = s.pending := by
  unfold doneServed; (repeat' split) <;> simp

theorem execSesDone_pending (e : Fin 8) (s s' : State) (ht : execSesDone e s = .next s') : s'.pending = s.pending := by
  cases ht; simp

@[simp] theorem rebuildRecord_pending (p serial slot : Nat) (s : State) :
    (rebuildRecord p serial slot s).pending = s.pending := by simp [rebuildRecord]

@[simp] theorem rebuildPoint_pending (p : Nat) (s : State) : (rebuildPoint p s).pending = s.pending := by
  unfold rebuildPoint; (repeat' split) <;> simp

@[simp] theorem rebuildEngine_pending (e : Nat) (s : State) :
    (rebuildEngine e s).pending = s.pending := by simp [rebuildEngine]

@[simp] theorem rebuildAll_pending (s : State) : (rebuildAll s).pending = s.pending := by simp [rebuildAll]

@[simp] theorem cantleShutdown_pending (p : Nat) (s : State) :
    (cantleShutdown p s).pending = s.pending := by simp [cantleShutdown]

@[simp] theorem engineBack_pending (e : Nat) (s : State) : (engineBack e s).pending = s.pending := by simp [engineBack]

@[simp] theorem engRunWrite_pending (v : Word) (s : State) :
    (engRunWrite v s).pending = s.pending := by simp [engRunWrite]

theorem execEngineRun_pending (v : Word) (s s' : State) (ht : execEngineRun v s = .next s') :
    s'.pending = s.pending := by
  cases ht; simp

theorem execEngineReset_pending (v : Word) (s s' : State) (ht : execEngineReset v s = .next s') :
    s'.pending = s.pending := by
  cases ht; simp

/-! ### BusBlocks -/

@[simp] theorem bklRead_pending (port o : Nat) (s : State) : (bklRead port o s).pending = s.pending := by
  unfold bklRead
  split; · simp
  split; · simp
  split; · simp
  split
  · dsimp only; split <;> simp
  · simp

@[simp] theorem bklWrite_pending (port o : Nat) (v : Word) (s : State) : (bklWrite port o v s).pending = s.pending := by
  unfold bklWrite
  split; · simp
  split; · simp
  split; · simp
  split; · simp
  split; · simp
  split
  · dsimp only; split <;> simp
  · simp

@[simp] theorem pairRegRead_pending (m o : Nat) (s : State) :
    (pairRegRead m o s).pending = s.pending := by simp [pairRegRead]

@[simp] theorem pairRegWrite_pending (port m o : Nat) (v : Word) (s : State) :
    (pairRegWrite port m o v s).pending = s.pending := by simp [pairRegWrite]

@[simp] theorem hubRegRead_pending (port h o : Nat) (s : State) :
    (hubRegRead port h o s).pending = s.pending := by simp [hubRegRead]

@[simp] theorem hubRegWrite_pending (port h o : Nat) (v : Word) (s : State) :
    (hubRegWrite port h o v s).pending = s.pending := by simp [hubRegWrite]

@[simp] theorem sesRead_pending (port e o : Nat) (s : State) : (sesRead port e o s).pending = s.pending := by
  unfold sesRead; (repeat' split) <;> simp

@[simp] theorem sesEcfgWrite_pending (e : Nat) (v : Word) (s : State) :
    (sesEcfgWrite e v s).pending = s.pending := by simp [sesEcfgWrite]

@[simp] theorem sesEntryWrite_pending (e : Nat) (v : Word) (s : State) :
    (sesEntryWrite e v s).pending = s.pending := by simp [sesEntryWrite]

@[simp] theorem sesXrWrite_pending (e k : Nat) (v : Word) (s : State) :
    (sesXrWrite e k v s).pending = s.pending := by simp [sesXrWrite]

@[simp] theorem sesWrite_pending (port e o : Nat) (v : Word) (s : State) :
    (sesWrite port e o v s).pending = s.pending := by
  unfold sesWrite; (repeat' split) <;> simp

@[simp] theorem mbxRead_pending (port o : Nat) (s : State) : (mbxRead port o s).pending = s.pending := by simp [mbxRead]

@[simp] theorem mbxWrite_pending (port o : Nat) (v : Word) (s : State) :
    (mbxWrite port o v s).pending = s.pending := by simp [mbxWrite]

@[simp] theorem grtRead_pending (o : Nat) (s : State) : (grtRead o s).pending = s.pending := by
  unfold grtRead; (repeat' split) <;> simp

@[simp] theorem grtWrite_pending (o : Nat) (v : Word) (s : State) : (grtWrite o v s).pending = s.pending := by
  unfold grtWrite; (repeat' split) <;> simp

@[simp] theorem pmcRead_pending (o : Nat) (s : State) : (pmcRead o s).pending = s.pending := by simp [pmcRead]

@[simp] theorem pmcWrite_pending (o : Nat) (v : Word) (s : State) :
    (pmcWrite o v s).pending = s.pending := by simp [pmcWrite]

@[simp] theorem clkRead_pending (port o : Nat) (s : State) : (clkRead port o s).pending = s.pending := by
  unfold clkRead; (repeat' split) <;> simp

@[simp] theorem safPost_pending (port i : Nat) (v : Word) (s : State) :
    (safPost port i v s).pending = s.pending := by simp [safPost]

@[simp] theorem clkWrite_pending (port o : Nat) (v : Word) (s : State) : (clkWrite port o v s).pending = s.pending := by
  unfold clkWrite; (repeat' split) <;> simp

@[simp] theorem pilRead_pending (port o : Nat) (s : State) : (pilRead port o s).pending = s.pending := by
  unfold pilRead; (repeat' split) <;> simp

@[simp] theorem pilWrite_pending (o : Nat) (v : Word) (s : State) : (pilWrite o v s).pending = s.pending := by
  unfold pilWrite; (repeat' split) <;> simp

@[simp] theorem skvRead_pending (o : Nat) (s : State) : (skvRead o s).pending = s.pending := by
  unfold skvRead; (repeat' split) <;> simp

@[simp] theorem skvWrite_pending (o : Nat) (v : Word) (s : State) :
    (skvWrite o v s).pending = s.pending := by simp [skvWrite]

@[simp] theorem tkrRead_pending (o : Nat) (s : State) : (tkrRead o s).pending = s.pending := by simp [tkrRead]

@[simp] theorem slRead_pending (port o : Nat) (s : State) : (slRead port o s).pending = s.pending := by
  unfold slRead; (repeat' split) <;> simp

@[simp] theorem slWrite_pending (port o : Nat) (v : Word) (s : State) : (slWrite port o v s).pending = s.pending := by
  unfold slWrite; (repeat' split) <;> simp

/-! ### BusPower -/

@[simp] theorem powerUpd_pending (f : PowerDie → PowerDie) (s : State) :
    (powerUpd f s).pending = s.pending := by simp [powerUpd]

@[simp] theorem outCmdWrite_pending (x : Nat) (v : Word) (s : State) :
    (outCmdWrite x v s).pending = s.pending := by simp [outCmdWrite]

@[simp] theorem outRegWrite_pending (x off : Nat) (v : Word) (s : State) :
    (outRegWrite x off v s).pending = s.pending := by
  unfold outRegWrite; (repeat' split) <;> simp

@[simp] theorem outDevWrite_pending (off : Nat) (v : Word) (s : State) : (outDevWrite off v s).pending = s.pending := by
  unfold outDevWrite; (repeat' split) <;> simp

@[simp] theorem rcRegWrite_pending (n off : Nat) (v : Word) (s : State) :
    (rcRegWrite n off v s).pending = s.pending := by
  unfold rcRegWrite; (repeat' split) <;> simp

@[simp] theorem imRegWrite_pending (k off : Nat) (v : Word) (s : State) :
    (imRegWrite k off v s).pending = s.pending := by
  unfold imRegWrite; (repeat' split) <;> simp

@[simp] theorem rdRegWrite_pending (n off : Nat) (v : Word) (s : State) :
    (rdRegWrite n off v s).pending = s.pending := by
  unfold rdRegWrite; (repeat' split) <;> simp

@[simp] theorem tagShadowWord_pending (k i : Nat) (v : Word) (s : State) :
    (tagShadowWord k i v s).pending = s.pending := by simp [tagShadowWord]

@[simp] theorem powerRegWrite_pending (o : Nat) (v : Word) (s : State) :
    (powerRegWrite o v s).pending = s.pending := by simp [powerRegWrite]

@[simp] theorem outWinRead_pending (o : Nat) (s : State) : (outWinRead o s).pending = s.pending := by simp [outWinRead]

@[simp] theorem outWinWrite_pending (port o : Nat) (v : Word) (s : State) :
    (outWinWrite port o v s).pending = s.pending := by simp [outWinWrite]

/-! ### Bus -/

@[simp] theorem blockRead_pending (port a : Nat) (s : State) : (blockRead port a s).pending = s.pending := by
  unfold blockRead; (repeat' split) <;> simp

@[simp] theorem blockWrite_pending (port a : Nat) (v : Word) (s : State) :
    (blockWrite port a v s).pending = s.pending := by
  unfold blockWrite; (repeat' split) <;> simp

@[simp] theorem busRead_pending (port a : Nat) (s : State) : (busRead port a s).pending = s.pending := by simp [busRead]

@[simp] theorem busWrite_pending (port a : Nat) (v : Word) (s : State) :
    (busWrite port a v s).pending = s.pending := by simp [busWrite]

@[simp] theorem busLoad_pending (port a n : Nat) (s : State) : (busLoad port a n s).1.pending = s.pending := by
  unfold busLoad; dsimp only; (repeat' split) <;> simp

@[simp] theorem takeAt_pending (a v : Nat) (s : State) : (takeAt a v s).pending = s.pending := by
  unfold takeAt; (repeat' split) <;> simp

@[simp] theorem busStore_pending (port a n v : Nat) (s : State) : (busStore port a n v s).1.pending = s.pending := by
  unfold busStore; dsimp only; (repeat' split) <;> simp

theorem execRegisterWrite_pending (port : Fin 24) (addr val : Word) (s s' : State) (ht : execRegisterWrite port addr val s = .next s') :
    s'.pending = s.pending := by
  cases ht; simp

/-! ### Applied -/

@[simp] theorem applyOut_pending (x : Nat) (s : State) : (applyOut x s).pending = s.pending := by simp [applyOut]

@[simp] theorem imThrough_pending (k : Nat) (f : State → State) (s : State) (h_f : ∀  t, (f  t).pending = t.pending) :
    (imThrough k f s).pending = s.pending := by
  unfold imThrough; dsimp only; (repeat' split) <;> simp [*]

@[simp] theorem applyImThr_pending (k : Nat) (s : State) : (applyImThr k s).pending = s.pending := by simp [applyImThr]

@[simp] theorem applyIm_pending (k sub : Nat) (s : State) : (applyIm k sub s).pending = s.pending := by
  unfold applyIm; (repeat' split) <;> simp

@[simp] theorem applyImCfg_pending (k sub : Nat) (s : State) :
    (applyImCfg k sub s).pending = s.pending := by simp [applyImCfg]

@[simp] theorem applyRc_pending (n : Nat) (s : State) : (applyRc n s).pending = s.pending := by simp [applyRc]

@[simp] theorem applyTest_pending (on : Bool) (s : State) : (applyTest on s).pending = s.pending := by simp [applyTest]

@[simp] theorem outTestCmd_pending (x n : Nat) (s : State) : (outTestCmd x n s).2.pending = s.pending := by
  unfold outTestCmd; (repeat' split) <;> simp

@[simp] theorem applyPilot_pending (p : Nat) (s : State) : (applyPilot p s).pending = s.pending := by simp [applyPilot]

@[simp] theorem freeQueued_pending (p : Nat) (s : State) : (freeQueued p s).pending = s.pending := by
  unfold freeQueued; (repeat' split) <;> simp

@[simp] theorem applyType_pending (p : Nat) (s : State) : (applyType p s).pending = s.pending := by simp [applyType]

@[simp] theorem applyAtten_pending (n v : Nat) (s : State) :
    (applyAtten n v s).pending = s.pending := by simp [applyAtten]

@[simp] theorem applyMains_pending (m : Nat) (on : Bool) (s : State) :
    (applyMains m on s).pending = s.pending := by simp [applyMains]

@[simp] theorem applyReader_pending (n : Nat) (s : State) :
    (applyReader n s).pending = s.pending := by simp [applyReader]

@[simp] theorem applyTag_pending (k : Nat) (s : State) : (applyTag k s).pending = s.pending := by simp [applyTag]

@[simp] theorem applyTagFile_pending (k : Nat) (d : List Byte) (s : State) :
    (applyTagFile k d s).pending = s.pending := by simp [applyTagFile]

@[simp] theorem applyPoint_pending (idx sub : Nat) (s : State) : (applyPoint idx sub s).pending = s.pending := by
  have e : ∃ p, applyPoint idx sub s =
      if idx % 64 = 0 then applyPilot p s
      else if idx % 64 = 4 && sub = 4 then applyAtten p (s.onum idx 4) s
      else if idx % 64 = 8 && sub = 4 then
        (List.range 16).foldl (fun t k => if (t.imMask k).getLsbD p then applyImThr k t else t) s
      else s := ⟨_, rfl⟩
  obtain ⟨p, e⟩ := e
  rw [e]
  split
  · exact applyPilot_pending _ _
  split
  · exact applyAtten_pending _ _ _
  split
  · rw [foldl_pending]; intro t x; split <;> simp
  · rfl

@[simp] theorem applyEntry_pending (idx sub : Nat) (s : State) : (applyEntry idx sub s).pending = s.pending := by
  unfold applyEntry
  split
  · exact applyPoint_pending _ _ _
  split
  · exact applyOut_pending _ _
  split
  · exact applyImCfg_pending _ _ _
  split
  · exact applyRc_pending _ _
  split
  · exact applyReader_pending _ _
  split
  · split
    · exact applyTagFile_pending _ _ _
    · exact applyTag_pending _ _
  split
  · exact applyMains_pending _ _ _
  split
  · exact applyAtten_pending _ _ _
  rfl

/-! ### Server -/

@[simp] theorem State.updConn_pending (s : State) (c : Nat) (f : Conn → Conn) :
    (State.updConn s c f).pending = s.pending := by simp [State.updConn]

@[simp] theorem makeBinding_pending (a : Asker) (idx : Nat) (s : State) :
    (makeBinding a idx s).pending = s.pending := by
  unfold makeBinding; (repeat' split) <;> simp

@[simp] theorem readSealed_pending (a : Asker) (idx sub : Nat) (s : State) :
    (readSealed a idx sub s).2.2.pending = s.pending := by
  unfold readSealed; (repeat' split) <;> simp

@[simp] theorem serveRead_pending (a : Asker) (idx sub : Nat) (s : State) :
    (serveRead a idx sub s).2.2.pending = s.pending := by
  unfold serveRead; (repeat' split) <;> simp

@[simp] theorem writeStored_pending (a : Asker) (idx sub : Nat) (v : List Byte) (s : State) :
    (writeStored a idx sub v s).pending = s.pending := by simp [writeStored]

@[simp] theorem writeSec_pending (a : Asker) (idx sub : Nat) (d : List Byte) (s : State) :
    (writeSec a idx sub d s).2.pending = s.pending := by
  have e : ∃ i, writeSec a idx sub d s =
      if within 0x7080 idx 0x70FF then
        if sub = 4 then tackImport i s.importAttr (some d) a.role true s.used else tackDelete i a.role s
      else if idx = 0x7001 then
        (if sub = 1 then fuseDebug (BitVec.ofNat 384 (ofLE d)) s else decommission a.role (BitVec.ofNat 32 (ofLE d)) s)
      else if idx = 0x7050 then fuseSafe (BitVec.ofNat 384 (ofLE d.reverse)) s.stagedDigest s
      else if idx = 0x7040 && sub = 5 then updateAbandon (ofLE d) s
      else if idx = 0x7040 && sub = 0xA then handover (ofLE d) s
      else (.ok, s.setVol idx sub d) := ⟨_, rfl⟩
  obtain ⟨i, e⟩ := e
  rw [e]
  split
  · split
    · rw [tackImport_pending]; exact State.used_pending s
    · exact tackDelete_pending _ _ _
  split
  · split
    · exact fuseDebug_pending _ _
    · exact decommission_pending _ _ _
  split
  · exact fuseSafe_pending _ _ _
  split
  · exact updateAbandon_pending _ _
  split
  · exact handover_pending _ _
  · rfl

@[simp] theorem writeSession_pending (a : Asker) (idx sub : Nat) (d : List Byte) (s : State) :
    (writeSession a idx sub d s).2.pending = s.pending := by
  unfold writeSession; (repeat' split) <;> simp

@[simp] theorem writeSelector_pending (a : Asker) (d : List Byte) (s : State) :
    (writeSelector a d s).2.pending = s.pending := by
  unfold writeSelector; dsimp only; (repeat' split) <;> simp

@[simp] theorem writeServer_pending (idx sub : Nat) (d : List Byte) (s : State) :
    (writeServer idx sub d s).pending = s.pending := by
  unfold writeServer; (repeat' split) <;> simp

@[simp] theorem portChanged_pending (p : Nat) (s : State) :
    (portChanged p s).pending = s.pending := by simp [portChanged]

@[simp] theorem writeConfig_pending (a : Asker) (o : Obj) (idx sub : Nat) (d : List Byte) (s : State) :
    (writeConfig a o idx sub d s).pending = s.pending := by
  unfold writeConfig
  dsimp only
  split
  · split
    · exact writeStored_pending _ _ _ _ _
    · rw [applyType_pending]; exact writeStored_pending _ _ _ _ _
  · split
    · rw [portChanged_pending]; exact writeStored_pending _ _ _ _ _
    · split
      · rw [applyEntry_pending]; exact writeStored_pending _ _ _ _ _
      · exact writeStored_pending _ _ _ _ _

@[simp] theorem writeOwn_pending (a : Asker) (o : Obj) (idx sub : Nat) (d : List Byte) (s : State) :
    (writeOwn a o idx sub d s).2.pending = s.pending := by
  unfold writeOwn; (repeat' split) <;> simp

@[simp] theorem writeSealed_pending (a : Asker) (idx sub : Nat) (d : List Byte) (s : State) :
    (writeSealed a idx sub d s).2.pending = s.pending := by
  unfold writeSealed; (repeat' split) <;> simp

@[simp] theorem serveWrite_pending (a : Asker) (idx sub : Nat) (d : List Byte) (s : State) :
    (serveWrite a idx sub d s).2.pending = s.pending := by
  unfold serveWrite; (repeat' split) <;> simp

@[simp] theorem setLast_pending (v : Via) (st : Status) (s : State) : (setLast v st s).pending = s.pending := by
  unfold setLast; (repeat' split) <;> simp

@[simp] theorem answered_pending (v : Via) (st : Status) (s : State) : (answered v st s).pending = s.pending := by
  unfold answered; (repeat' split) <;> simp

@[simp] theorem readRequest_pending (a : Asker) (idx sub : Nat) (s : State) :
    (readRequest a idx sub s).2.2.pending = s.pending := by simp [readRequest]

@[simp] theorem writeRequest_pending (a : Asker) (idx sub : Nat) (d : List Byte) (s : State) :
    (writeRequest a idx sub d s).2.pending = s.pending := by simp [writeRequest]

/-! ### CanOpen -/

@[simp] theorem enterOper_pending (f : Nat) (s : State) : (enterOper f s).pending = s.pending := by simp [enterOper]

@[simp] theorem bootPort_pending (f : Nat) (s : State) : (bootPort f s).pending = s.pending := by simp [bootPort]

@[simp] theorem sdoSend_pending (f ch : Nat) (data : List Byte) (s : State) :
    (sdoSend f ch data s).pending = s.pending := by simp [sdoSend]

@[simp] theorem sdoReply_pending (f ch : Nat) (cmd : Byte) (idx sub : Nat) (data : List Byte) (s : State) :
    (sdoReply f ch cmd idx sub data s).pending = s.pending := by simp [sdoReply]

@[simp] theorem sdoAbort_pending (f ch idx sub code : Nat) (s : State) :
    (sdoAbort f ch idx sub code s).pending = s.pending := by simp [sdoAbort]

@[simp] theorem setSdo_pending (f ch : Nat) (x : Option SdoXfer) (s : State) :
    (setSdo f ch x s).pending = s.pending := by simp [setSdo]

@[simp] theorem sdoFresh_pending (f ch : Nat) (s : State) : (sdoFresh f ch s).pending = s.pending := by
  unfold sdoFresh; (repeat' split) <;> simp

@[simp] theorem sdoWrite_pending (f ch : Nat) (role : Role) (cmd : Byte) (idx sub : Nat) (d : List Byte) (s : State) :
    (sdoWrite f ch role cmd idx sub d s).pending = s.pending := by simp [sdoWrite]

theorem execSdoInitiateDownload_pending (f : Fin 2) (ch : Fin 8) (idx : BitVec 16) (sub : BitVec 8) (expedited : Bool) (size : Nat) (data : List Byte) (s s' : State) (ht : execSdoInitiateDownload f ch idx sub expedited size data s = .next s') :
    s'.pending = s.pending := by
  cases ht; simp

@[simp] theorem sdoDownSeg_pending (f ch : Nat) (toggle last : Bool) (d : List Byte) (s : State) :
    (sdoDownSeg f ch toggle last d s).pending = s.pending := by
  unfold sdoDownSeg; (repeat' split) <;> simp

theorem execSdoDownloadSegment_pending (f : Fin 2) (ch : Fin 8) (toggle last : Bool) (data : List Byte) (s s' : State) (ht : execSdoDownloadSegment f ch toggle last data s = .next s') :
    s'.pending = s.pending := by
  cases ht; simp

theorem execSdoInitiateUpload_pending (f : Fin 2) (ch : Fin 8) (idx : BitVec 16) (sub : BitVec 8) (s s' : State) (ht : execSdoInitiateUpload f ch idx sub s = .next s') :
    s'.pending = s.pending := by
  cases ht; simp

@[simp] theorem sdoUpSeg_pending (f ch : Nat) (toggle : Bool) (s : State) :
    (sdoUpSeg f ch toggle s).pending = s.pending := by
  unfold sdoUpSeg; (repeat' split) <;> simp

theorem execSdoUploadSegment_pending (f : Fin 2) (ch : Fin 8) (toggle : Bool) (s s' : State) (ht : execSdoUploadSegment f ch toggle s = .next s') :
    s'.pending = s.pending := by
  cases ht; simp

theorem execSdoUnsupportedCommand_pending (f : Fin 2) (ch : Fin 8) (s s' : State) (ht : execSdoUnsupportedCommand f ch s = .next s') :
    s'.pending = s.pending := by
  cases ht; simp

@[simp] theorem usdoSend_pending (f node code : Nat) (d : List Byte) (s : State) :
    (usdoSend f node code d s).pending = s.pending := by simp [usdoSend]

@[simp] theorem setUsdo_pending (f node : Nat) (x : Option SdoXfer) (s : State) :
    (setUsdo f node x s).pending = s.pending := by simp [setUsdo]

@[simp] theorem usdoFresh_pending (f node : Nat) (s : State) :
    (usdoFresh f node s).pending = s.pending := by simp [usdoFresh]

@[simp] theorem usdoBegin_pending (f node : Nat) (x : SdoXfer) (d : List Byte) (s : State) :
    (usdoBegin f node x d s).pending = s.pending := by simp [usdoBegin]

@[simp] theorem usdoWrite_pending (f node : Nat) (role : Role) (idx sub : Nat) (d : List Byte) (s : State) :
    (usdoWrite f node role idx sub d s).pending = s.pending := by simp [usdoWrite]

@[simp] theorem usdoServe_pending (f node : Nat) (role : Role) (r : UsdoReq) (s : State) :
    (usdoServe f node role r s).pending = s.pending := by
  unfold usdoServe; (repeat' split) <;> simp

theorem execUsdoRequest_pending (f : Fin 2) (node : Fin 128) (r : UsdoReq) (s s' : State) (ht : execUsdoRequest f node r s = .next s') :
    s'.pending = s.pending := by
  cases ht; simp

theorem execSdoSegmentTimeout_pending (f : Fin 2) (client : CanClient) (s s' : State) (ht : execSdoSegmentTimeout f client s = .next s') :
    s'.pending = s.pending := by
  cases ht; (repeat' split) <;> simp

theorem execNmtStart_pending (f : Fin 2) (s s' : State) (ht : execNmtStart f s = .next s') :
    s'.pending = s.pending := by
  cases ht; simp

theorem execNmtStop_pending (f : Fin 2) (s s' : State) (ht : execNmtStop f s = .next s') : s'.pending = s.pending := by
  cases ht; simp

theorem execNmtEnterPreoperational_pending (f : Fin 2) (s s' : State) (ht : execNmtEnterPreoperational f s = .next s') :
    s'.pending = s.pending := by
  cases ht; simp

theorem execNmtResetCommunication_pending (f : Fin 2) (s s' : State) (ht : execNmtResetCommunication f s = .next s') :
    s'.pending = s.pending := by
  cases ht; simp

theorem execNmtResetNode_pending (f : Fin 2) (s s' : State) (ht : execNmtResetNode f s = .next s') :
    s'.pending = s.pending := by
  cases ht; simp

theorem execCanopenHeartbeat_pending (f : Fin 2) (s s' : State) (ht : execCanopenHeartbeat f s = .next s') :
    s'.pending = s.pending := by
  cases ht; simp

@[simp] theorem tpdoSend_pending (f n : Nat) (s : State) : (tpdoSend f n s).pending = s.pending := by simp [tpdoSend]

@[simp] theorem tpdoSync_pending (f : Nat) (s : State) (n : Nat) :
    (tpdoSync f s n).pending = s.pending := by simp [tpdoSync]

theorem execSync_pending (f : Fin 2) (s s' : State) (ht : execSync f s = .next s') : s'.pending = s.pending := by
  cases ht; simp

theorem execTpdoEventTimer_pending (f : Fin 2) (n : Fin 32) (s s' : State) (ht : execTpdoEventTimer f n s = .next s') :
    s'.pending = s.pending := by
  cases ht; simp

@[simp] theorem tpdoChange_pending (f : Nat) (s : State) (n : Nat) :
    (tpdoChange f s n).pending = s.pending := by simp [tpdoChange]

@[simp] theorem tpdoPoll_pending (s : State) : (tpdoPoll s).pending = s.pending := by simp [tpdoPoll]

theorem execCanBusOff_pending (f : Fin 2) (s s' : State) (ht : execCanBusOff f s = .next s') :
    s'.pending = s.pending := by
  cases ht; simp

theorem execCanBusOffRecovery_pending (f : Fin 2) (s s' : State) (ht : execCanBusOffRecovery f s = .next s') :
    s'.pending = s.pending := by
  cases ht; simp

theorem execCanErrorPassive_pending (f : Fin 2) (s s' : State) (ht : execCanErrorPassive f s = .next s') :
    s'.pending = s.pending := by
  cases ht; simp

@[simp] theorem pllPRelock_pending (s : State) : (pllPRelock s).pending = s.pending := by simp [pllPRelock]

theorem execPllPRelock_pending (s s' : State) (ht : execPllPRelock s = .next s') : s'.pending = s.pending := by
  cases ht; simp

/-! ### RvCsr -/

@[simp] theorem State.updHart_pending (s : State) (h : Nat) (f : Hart → Hart) :
    (State.updHart s h f).pending = s.pending := by
  unfold State.updHart; (repeat' split) <;> simp

@[simp] theorem State.updCore_pending (s : State) (h : Nat) (f : Hart → Hart) :
    (State.updCore s h f).pending = s.pending := by simp [State.updCore]

@[simp] theorem hartTrap_pending (h cause : Nat) (val : Dword) (s : State) :
    (hartTrap h cause val s).pending = s.pending := by simp [hartTrap]

@[simp] theorem takeInterrupt_pending (h i : Nat) (sMode : Bool) (s : State) :
    (takeInterrupt h i sMode s).pending = s.pending := by simp [takeInterrupt]

@[simp] theorem putCsr_pending (h c : Nat) (v : Dword) (s : State) :
    (putCsr h c v s).pending = s.pending := by simp [putCsr]

@[simp] theorem putCounter_pending (h c : Nat) (hi : Bool) (v : Dword) (s : State) :
    (putCounter h c hi v s).pending = s.pending := by simp [putCounter]

@[simp] theorem putFcsr_pending (h : Nat) (v : Dword) (s : State) :
    (putFcsr h v s).pending = s.pending := by simp [putFcsr]

@[simp] theorem putPmpaddr_pending (h i : Nat) (v : Dword) (s : State) :
    (putPmpaddr h i v s).pending = s.pending := by simp [putPmpaddr]

@[simp] theorem csrWrite_pending (h c : Nat) (v : Dword) (s : State) : (csrWrite h c v s).pending = s.pending := by
  unfold csrWrite; (repeat' split) <;> simp

/-! ### RvMem -/

@[simp] theorem physLoad_pending (h a n : Nat) (s : State) : (physLoad h a n s).1.pending = s.pending := by
  unfold physLoad; dsimp only; (repeat' split) <;> simp

@[simp] theorem breakReservations_pending (h a n : Nat) (s : State) :
    (breakReservations h a n s).pending = s.pending := by simp [breakReservations]

@[simp] theorem physStore_pending (h a n v : Nat) (s : State) : (physStore h a n v s).1.pending = s.pending := by
  unfold physStore; dsimp only; (repeat' split) <;> simp

/-! ### Riscv -/

@[simp] theorem RvOut_done_pending (s : State) : (RvOut.done s).state = s := rfl

@[simp] theorem RvOut_exc_pending (c : Nat) (v : Dword) (s : State) : (RvOut.exc c v s).state = s := rfl

@[simp] theorem rvRet_pending (h rd : Nat) (v next : Dword) (s : State) :
    (rvRet h rd v next s).state.pending = s.pending := by simp [rvRet]

@[simp] theorem rvIllegal_pending (s : State) : (rvIllegal s).state.pending = s.pending := by simp [rvIllegal]

@[simp] theorem rvOpImm_pending (h : Nat) (w : Word) (next : Dword) (s : State) :
    (rvOpImm h w next s).state.pending = s.pending := by
  unfold rvOpImm; dsimp only; (repeat' split) <;> simp

@[simp] theorem rvOpReg_pending (h : Nat) (w : Word) (next : Dword) (s : State) :
    (rvOpReg h w next s).state.pending = s.pending := by
  unfold rvOpReg; dsimp only; (repeat' split) <;> simp

@[simp] theorem rvOpImm32_pending (h : Nat) (w : Word) (next : Dword) (s : State) :
    (rvOpImm32 h w next s).state.pending = s.pending := by
  unfold rvOpImm32; (repeat' split) <;> simp

@[simp] theorem rvOpReg32_pending (h : Nat) (w : Word) (next : Dword) (s : State) :
    (rvOpReg32 h w next s).state.pending = s.pending := by
  unfold rvOpReg32; dsimp only; (repeat' split) <;> simp

@[simp] theorem rvBranchTo_pending (h : Nat) (w : Word) (next : Dword) (s : State) :
    (rvBranchTo h w next s).state.pending = s.pending := by
  unfold rvBranchTo; dsimp only; (repeat' split) <;> simp

@[simp] theorem rvLoadAt_pending (h n : Nat) (va : Dword) (s : State) (f : Nat → State → RvOut) (h_f : ∀ x0 t, (f x0 t).state.pending = t.pending) :
    (rvLoadAt h n va s f).state.pending = s.pending := by
  unfold rvLoadAt
  split
  · simp
  · rename_i a e
    have k := physLoad_pending h a n s
    split <;> rename_i e2 <;> rw [e2] at k <;> simp [h_f, k] <;> simpa using k

@[simp] theorem rvStoreAt_pending (h n : Nat) (va v next : Dword) (s : State) :
    (rvStoreAt h n va v next s).state.pending = s.pending := by
  unfold rvStoreAt
  split
  · simp
  · rename_i a e
    have k := physStore_pending h a n (v.toNat % 256 ^ n) s
    split <;> rename_i e2 <;> rw [e2] at k <;> simp [k] <;> simpa using k

@[simp] theorem rvLoad_pending (h : Nat) (w : Word) (next : Dword) (s : State) :
    (rvLoad h w next s).state.pending = s.pending := by
  unfold rvLoad; dsimp only; (repeat' split) <;> simp

@[simp] theorem rvStore_pending (h : Nat) (w : Word) (next : Dword) (s : State) :
    (rvStore h w next s).state.pending = s.pending := by
  unfold rvStore; dsimp only; (repeat' split) <;> simp

@[simp] theorem rvAmo_pending (h : Nat) (w : Word) (next : Dword) (s : State) :
    (rvAmo h w next s).state.pending = s.pending := by
  unfold rvAmo
  dsimp only
  split; · simp
  split
  · split; · simp
    split; · simp
    rename_i a e
    split; · simp
    have k := physLoad_pending h a (2 ^ rvF3 w) s
    split <;> rename_i e2 <;> rw [e2] at k <;> simp <;> simpa using k
  split; · simp
  split; · simp
  rename_i a e
  split; · simp
  split
  · split; · simp
    have k := fun v t => physStore_pending h a (2 ^ rvF3 w) v t
    split <;> rename_i e2 <;> have k := congrArg (fun x => x.1.pending) e2 <;> simp at k <;> simp [← k]
  · have k := physLoad_pending h a (2 ^ rvF3 w) s
    split <;> rename_i e2 <;> rw [e2] at k
    · simpa using k
    · split <;> rename_i e3 <;> have k3 := congrArg (fun x => x.1.pending) e3 <;> simp at k3 <;> simp [← k3] <;> simpa using k

@[simp] theorem rvFp_pending (h : Nat) (w : Word) (next : Dword) (s : State) (comp : Hart → Word → Option FpRes) :
    (rvFp h w next s comp).state.pending = s.pending := by
  unfold rvFp; dsimp only; (repeat' split) <;> simp

@[simp] theorem rvLoadFp_pending (h : Nat) (w : Word) (next : Dword) (s : State) :
    (rvLoadFp h w next s).state.pending = s.pending := by
  unfold rvLoadFp; dsimp only; (repeat' split) <;> simp

@[simp] theorem rvStoreFp_pending (h : Nat) (w : Word) (next : Dword) (s : State) :
    (rvStoreFp h w next s).state.pending = s.pending := by
  unfold rvStoreFp; dsimp only; (repeat' split) <;> simp

@[simp] theorem enterDebug_pending (h cause : Nat) (s : State) :
    (enterDebug h cause s).pending = s.pending := by simp [enterDebug]

@[simp] theorem stepHalt_pending (h : Nat) (s t : State) : (stepHalt h s t).pending = t.pending := by simp [stepHalt]

@[simp] theorem rvCsr_pending (h : Nat) (w : Word) (next : Dword) (s : State) :
    (rvCsr h w next s).state.pending = s.pending := by
  unfold rvCsr
  dsimp only
  split
  · simp
  · have k := rvRet_pending h (rvRd w) (s.csrRead h (fld w 20 12)) next s
    split
    · rename_i e; rw [e] at k; split <;> simpa using k
    · rename_i e; simp

@[simp] theorem rvWfi_pending (h : Nat) (next : Dword) (s : State) : (rvWfi h next s).state.pending = s.pending := by
  unfold rvWfi; dsimp only; (repeat' split) <;> simp

@[simp] theorem rvSystem_pending (h : Nat) (w : Word) (next : Dword) (s : State) :
    (rvSystem h w next s).state.pending = s.pending := by
  unfold rvSystem; dsimp only; (repeat' split) <;> simp

@[simp] theorem rvExec_pending (h : Nat) (w : Word) (next : Dword) (s : State) :
    (rvExec h w next s).state.pending = s.pending := by
  unfold rvExec; (repeat' split) <;> simp

@[simp] theorem passCycles_pending (h : Nat) (s : State) : (passCycles h s).pending = s.pending := by
  unfold passCycles; dsimp only; (repeat' split) <;> simp

@[simp] theorem retire_pending (h : Nat) (w : Word) (s : State) : (retire h w s).pending = s.pending := by simp [retire]

@[simp] theorem rvException_pending (h cause : Nat) (w : Word) (val : Dword) (s : State) :
    (rvException h cause w val s).pending = s.pending := by
  unfold rvException; (repeat' split) <;> simp

@[simp] theorem rvOutcome_pending (h : Nat) (w : Word) (s : State) : (rvOutcome h w s).state.pending = s.pending := by
  unfold rvOutcome; dsimp only; (repeat' split) <;> simp

@[simp] theorem hartEcc_pending (h : Nat) (ecc : Ecc) (s : State) :
    (hartEcc h ecc s).pending = s.pending := by simp [hartEcc]

@[simp] theorem eccPoison_pending (h : Nat) (i : Word) (s : State) :
    (eccPoison h i s).pending = s.pending := by simp [eccPoison]

@[simp] theorem rvFetched_pending (h : Nat) (w : Word) (ecc : Ecc) (s : State) :
    (rvFetched h w ecc s).pending = s.pending := by
  have k := rvOutcome_pending h w s
  unfold rvFetched
  split
  · simp
  · dsimp only
    cases e : rvOutcome h w s <;> rw [e] at k <;> dsimp only [RvOut_done_pending, RvOut_exc_pending] at k ⊢ <;> (try split) <;> simp [k]

@[simp] theorem rvWake_pending (h : Nat) (s : State) : (rvWake h s).pending = s.pending := by simp [rvWake]

@[simp] theorem rvStep_pending (h : Nat) (w : Word) (ecc : Ecc) (s : State) :
    (rvStep h w ecc s).pending = s.pending := by
  unfold rvStep; dsimp only; (repeat' split) <;> simp

theorem execInstruction_pending (hart : Fin 15) (w : Fetched) (s s' : State) (ht : execInstruction hart w s = .next s') :
    s'.pending = s.pending := by
  cases ht; simp

@[simp] theorem timerMatch_pending (i : Nat) (s : State) : (timerMatch i s).pending = s.pending := by simp [timerMatch]

theorem execTimerCompareMatch_pending (h : Fin 6) (s s' : State) (ht : execTimerCompareMatch h s = .next s') :
    s'.pending = s.pending := by
  cases ht; simp

/-! ### Debug -/

@[simp] theorem debugPut_pending (h n : Nat) (v : Dword) (s : State) :
    (debugPut h n v s).pending = s.pending := by simp [debugPut]

@[simp] theorem debugHalt_pending (h : Nat) (s : State) : (debugHalt h s).pending = s.pending := by simp [debugHalt]

@[simp] theorem debugResume_pending (h : Nat) (s : State) :
    (debugResume h s).pending = s.pending := by simp [debugResume]

@[simp] theorem bufRun_pending (h n i : Nat) (s : State) : (bufRun h n i s).2.pending = s.pending := by
  induction n generalizing i s with
  | zero => rfl
  | succ n ih =>
    unfold bufRun
    dsimp only
    split
    · rfl
    · split
      · rfl
      · rename_i w _
        have k := rvExec_pending h w (s.hart h).pc s
        split <;> rename_i e <;> rw [e] at k
        · rw [ih]; exact k
        · exact k

@[simp] theorem runBuffer_pending (h : Nat) (s : State) : (runBuffer h s).pending = s.pending := by
  unfold runBuffer
  dsimp only
  split <;> simp

@[simp] theorem debugBusRead_pending (a : Word) (s : State) :
    (debugBusRead a s).pending = s.pending := by simp [debugBusRead]

@[simp] theorem debugBusWrite_pending (a v : Word) (s : State) :
    (debugBusWrite a v s).pending = s.pending := by simp [debugBusWrite]

@[simp] theorem sbNext_pending (s : State) : (sbNext s).pending = s.pending := by simp [sbNext]

@[simp] theorem sbFetch_pending (s : State) : (sbFetch s).pending = s.pending := by simp [sbFetch]

@[simp] theorem cmdFail_pending (e : Nat) (s : State) : (cmdFail e s).pending = s.pending := by simp [cmdFail]

@[simp] theorem abstractReg_pending (h : Nat) (v : Word) (s : State) :
    (abstractReg h v s).pending = s.pending := by simp [abstractReg]

@[simp] theorem abstractCmd_pending (v : Word) (s : State) :
    (abstractCmd v s).pending = s.pending := by simp [abstractCmd]

@[simp] theorem dmControl_pending (v : Word) (s : State) : (dmControl v s).pending = s.pending := by simp [dmControl]

@[simp] theorem dmiRead_pending (a : Nat) (s : State) : (dmiRead a s).pending = s.pending := by simp [dmiRead]

@[simp] theorem dmiWrite_pending (a : Nat) (v : Word) (s : State) : (dmiWrite a v s).pending = s.pending := by
  unfold dmiWrite; (repeat' split) <;> simp

@[simp] theorem debugAccess_pending (op : DebugOp) (s : State) : (debugAccess op s).pending = s.pending := by
  unfold debugAccess; (repeat' split) <;> simp

theorem execDebugAccess_pending (op : DebugOp) (s s' : State) (ht : execDebugAccess op s = .next s') :
    s'.pending = s.pending := by
  cases ht; simp

/-! ### Latigo -/

@[simp] theorem latSend_pending (f : LatFrame) (s : State) : (latSend f s).pending = s.pending := by
  unfold latSend; (repeat' split) <;> simp

@[simp] theorem latClose_pending (c : Nat) (s : State) : (latClose c s).pending = s.pending := by simp [latClose]

theorem execLatigoConnect_pending (h : TlsHello) (s s' : State) (ht : execLatigoConnect h s = .next s') :
    s'.pending = s.pending := by
  cases ht; (repeat' split) <;> simp

@[simp] theorem latReply_pending (c op : Nat) (r : LatigoReq) (st : Status) (d : List Byte) (s : State) :
    (latReply c op r st d s).pending = s.pending := by simp [latReply]

@[simp] theorem onConn_pending (c : Nat) (f : Conn → State → State) (s : State) (h_f : ∀ x0 t, (f x0 t).pending = t.pending) :
    (onConn c f s).pending = s.pending := by
  unfold onConn; (repeat' split) <;> simp [*]

@[simp] theorem onFrame_pending (c : Nat) (f : Conn → State → State) (s : State) (h_f : ∀ x0 t, (f x0 t).pending = t.pending) :
    (onFrame c f s).pending = s.pending := by
  unfold onFrame; (repeat' split) <;> simp [*]

theorem execLatigoRead_pending (c : Fin 16) (r : LatigoReq) (s s' : State) (ht : execLatigoRead c r s = .next s') :
    s'.pending = s.pending := by
  cases ht; simp

theorem execLatigoWrite_pending (c : Fin 16) (r : LatigoReq) (data : List Byte) (s s' : State) (ht : execLatigoWrite c r data s = .next s') :
    s'.pending = s.pending := by
  cases ht; simp

theorem execLatigoSubscribe_pending (c : Fin 16) (r : LatigoReq) (interval : Nat) (s s' : State) (ht : execLatigoSubscribe c r interval s = .next s') :
    s'.pending = s.pending := by
  cases ht; simp

@[simp] theorem latPlain_pending (c op : Nat) (id : Word) (st : Status) (s : State) :
    (latPlain c op id st s).pending = s.pending := by simp [latPlain]

theorem execLatigoUnsubscribe_pending (c : Fin 16) (id : Word) (s s' : State) (ht : execLatigoUnsubscribe c id s = .next s') :
    s'.pending = s.pending := by
  cases ht; simp

theorem execLatigoKeepalive_pending (c : Fin 16) (id : Word) (s s' : State) (ht : execLatigoKeepalive c id s = .next s') :
    s'.pending = s.pending := by
  cases ht; simp

@[simp] theorem State.updSub_pending (s : State) (c : Nat) (id : Word) (f : LatSub → LatSub) :
    (State.updSub s c id f).pending = s.pending := by simp [State.updSub]

@[simp] theorem latNotify_pending (c : Nat) (u : LatSub) (st : Status) (co : Bool) (v : List Byte) (s : State) :
    (latNotify c u st co v s).pending = s.pending := by simp [latNotify]

@[simp] theorem notifyValue_pending (c : Nat) (u : LatSub) (atEnd : Bool) (v : List Byte) (s : State) :
    (notifyValue c u atEnd v s).pending = s.pending := by simp [notifyValue]

theorem execLatigoNotify_pending (c : Fin 16) (id : Word) (intervalEnd : Bool) (s s' : State) (ht : execLatigoNotify c id intervalEnd s = .next s') :
    s'.pending = s.pending := by
  unfold execLatigoNotify at ht
  have ht := Host.Outcome.next.inj ht; subst ht
  refine onConn_pending _ _ _ (fun x t => ?_)
  dsimp only
  split
  · rfl
  · rename_i u e
    have k := serveRead_pending { via := Via.latigo c, role := x.role, handle := u.handle, serial := u.serial } u.idx u.sub t
    split
    · simpa using k
    · simpa using k
    · rfl

theorem execLatigoBadFrame_pending (c : Fin 16) (h : LatHead) (s s' : State) (ht : execLatigoBadFrame c h s = .next s') :
    s'.pending = s.pending := by
  cases ht; simp

theorem execLatigoIdleTimeout_pending (c : Fin 16) (s s' : State) (ht : execLatigoIdleTimeout c s = .next s') :
    s'.pending = s.pending := by
  unfold execLatigoIdleTimeout at ht
  have ht := Host.Outcome.next.inj ht; subst ht
  exact onConn_pending _ _ _ (fun x t => by split; exact latClose_pending _ _; rfl)

theorem execLatigoCertExpiry_pending (c : Fin 16) (s s' : State) (ht : execLatigoCertExpiry c s = .next s') :
    s'.pending = s.pending := by
  cases ht; simp

theorem execLatigoClose_pending (c : Fin 16) (s s' : State) (ht : execLatigoClose c s = .next s') :
    s'.pending = s.pending := by
  cases ht; simp

/-! ### Ports -/

@[simp] theorem ipTaken_pending (port : Nat) (s : State) : (ipTaken port s).pending = s.pending := by simp [ipTaken]

@[simp] theorem linkChange_pending (port : Nat) (up : Bool) (s : State) :
    (linkChange port up s).pending = s.pending := by simp [linkChange]

theorem execEthernetLinkChange_pending (port : Fin 2) (up : Bool) (s s' : State) (ht : execEthernetLinkChange port up s = .next s') :
    s'.pending = s.pending := by
  cases ht; simp

theorem execGpioEdge_pending (n : Fin 32) (s s' : State) (ht : execGpioEdge n s = .next s') :
    s'.pending = s.pending := by
  cases ht; simp

@[simp] theorem skvTimeout_pending (s : State) : (skvTimeout s).pending = s.pending := by
  unfold skvTimeout; (repeat' split) <;> simp

@[simp] theorem sealedTimeout_pending (s : State) : (sealedTimeout s).pending = s.pending := by
  unfold sealedTimeout; (repeat' split) <;> simp

@[simp] theorem canTimeout_pending (s : State) : (canTimeout s).pending = s.pending := by simp [canTimeout]

@[simp] theorem girthTimeout_pending (s : State) : (girthTimeout s).pending = s.pending := by
  unfold girthTimeout; (repeat' split) <;> simp

@[simp] theorem monitored_pending (q : Nat) (s : State) : (monitored q s).pending = s.pending := by simp [monitored]

theorem execDeliveryTimeout_pending (q : Fin 14) (s s' : State) (ht : execDeliveryTimeout q s = .next s') :
    s'.pending = s.pending := by
  cases ht; simp

/-! ### Start -/

@[simp] theorem bootStop_pending (step : Nat) (st : Status) (s : State) :
    (bootStop step st s).pending = s.pending := by simp [bootStop]

@[simp] theorem atStep_pending (warm : Bool) (n : Nat) (s : State) :
    (atStep warm n s).pending = s.pending := by simp [atStep]

@[simp] theorem bootMeasure_pending (k : Nat) (h : BitVec 384) (s : State) :
    (bootMeasure k h s).pending = s.pending := by simp [bootMeasure]

@[simp] theorem bootRomRun_pending (boot : BitVec 4) (b : BootChecks) (s : State) :
    (bootRomRun boot b s).2.pending = s.pending := by
  unfold bootRomRun; dsimp only; (repeat' split) <;> simp

@[simp] theorem chooseWrap_pending (s : State) : (chooseWrap s).pending = s.pending := by simp [chooseWrap]

@[simp] theorem tackStart_pending (s : State) : (tackStart s).pending = s.pending := by simp [tackStart]

@[simp] theorem loaderRun_pending (b : BootChecks) (s : State) : (loaderRun b s).2.pending = s.pending := by
  unfold loaderRun; dsimp only; (repeat' split) <;> simp

@[simp] theorem loadEngine_pending (e : Nat) (s : State) : (loadEngine e s).pending = s.pending := by simp [loadEngine]

@[simp] theorem loadFailed_pending (e : Nat) (s : State) : (loadFailed e s).pending = s.pending := by simp [loadFailed]

@[simp] theorem loadEngines_pending (ok : BitVec 9) (s : State) :
    (loadEngines ok s).pending = s.pending := by simp [loadEngines]

@[simp] theorem loadBridle_pending (ok : Bool) (s : State) :
    (loadBridle ok s).pending = s.pending := by simp [loadBridle]

@[simp] theorem readObjects_pending (b : BootChecks) (s : State) :
    (readObjects b s).pending = s.pending := by simp [readObjects]

@[simp] theorem applyStored_pending (s : State) : (applyStored s).pending = s.pending := by simp [applyStored]

@[simp] theorem bootHeartbeat_pending (s : State) : (bootHeartbeat s).pending = s.pending := by simp [bootHeartbeat]

@[simp] theorem bootMains_pending (m : Nat) (s : State) : (bootMains m s).pending = s.pending := by simp [bootMains]

@[simp] theorem bootPhy_pending (s : State) : (bootPhy s).pending = s.pending := by simp [bootPhy]

@[simp] theorem serveObjects_pending (warm : Bool) (s : State) :
    (serveObjects warm s).pending = s.pending := by simp [serveObjects]

@[simp] theorem bootBridle_pending (b : BootChecks) (s : State) :
    (bootBridle b s).pending = s.pending := by simp [bootBridle]

@[simp] theorem firmwareStart_pending (warm : Bool) (b : BootChecks) (s : State) :
    (firmwareStart warm b s).pending = s.pending := by simp [firmwareStart]

@[simp] theorem startFrom_pending (warm : Bool) (boot : BitVec 4) (b : BootChecks) (s : State) :
    (startFrom warm boot b s).pending = s.pending := by simp [startFrom]

theorem execPowerOnStart_pending (boot : BitVec 4) (b : BootChecks) (s s' : State) (ht : execPowerOnStart boot b s = .next s') :
    s'.pending = s.pending := by
  cases ht; simp

theorem execWarmStart_pending (boot : BitVec 4) (b : BootChecks) (s s' : State) (ht : execWarmStart boot b s = .next s') :
    s'.pending = s.pending := by
  cases ht; simp

/-! ### Supplies -/

theorem execVanaTrip_pending (s s' : State) (ht : execVanaTrip s = .next s') : s'.pending = s.pending := by
  cases ht; simp

theorem execVanaRelease_pending (s s' : State) (ht : execVanaRelease s = .next s') : s'.pending = s.pending := by
  cases ht; simp

@[simp] theorem vloadFrame_pending (s : State) : (vloadFrame s).pending = s.pending := by simp [vloadFrame]

@[simp] theorem vloadTrip_pending (s : State) : (vloadTrip s).pending = s.pending := by simp [vloadTrip]

theorem execVloadTrip_pending (_over : Bool) (s s' : State) (ht : execVloadTrip _over s = .next s') :
    s'.pending = s.pending := by
  unfold execVloadTrip at ht
  have ht := Host.Outcome.next.inj ht; subst ht
  first
  | ((repeat' split) <;> simp; done)
  | (dsimp only; done)
  | (dsimp only; (repeat' split) <;> simp; done)
  | (dsimp only; (repeat' split) <;> simp [*]; done)
  | ((repeat' split) <;> simp [*]; done)
  | exact whenDie_pending _ _ (fun t => by first | (dsimp only; (repeat' split) <;> simp [*]; done) | (simp; (repeat' split) <;> simp; done))
  | (split <;> first | rfl | exact whenDie_pending _ _ (fun t => by dsimp only; (repeat' split) <;> simp [*]))

theorem execVloadRelease_pending (s s' : State) (ht : execVloadRelease s = .next s') : s'.pending = s.pending := by
  cases ht; simp

@[simp] theorem pilSupplyFault_pending (p : Nat) (s : State) :
    (pilSupplyFault p s).pending = s.pending := by simp [pilSupplyFault]

@[simp] theorem pilotSupplyTrip_pending (neg : Bool) (s : State) :
    (pilotSupplyTrip neg s).pending = s.pending := by simp [pilotSupplyTrip]

theorem execPilotSupplyTrip_pending (neg : Bool) (s s' : State) (ht : execPilotSupplyTrip neg s = .next s') :
    s'.pending = s.pending := by
  cases ht; simp

@[simp] theorem pilotSupplyRelease_pending (neg : Bool) (s : State) :
    (pilotSupplyRelease neg s).pending = s.pending := by simp [pilotSupplyRelease]

theorem execPilotSupplyRelease_pending (neg : Bool) (s s' : State) (ht : execPilotSupplyRelease neg s = .next s') :
    s'.pending = s.pending := by
  unfold execPilotSupplyRelease at ht
  have ht := Host.Outcome.next.inj ht; subst ht
  first
  | ((repeat' split) <;> simp; done)
  | (dsimp only; done)
  | (dsimp only; (repeat' split) <;> simp; done)
  | (dsimp only; (repeat' split) <;> simp [*]; done)
  | ((repeat' split) <;> simp [*]; done)
  | exact whenDie_pending _ _ (fun t => by first | (dsimp only; (repeat' split) <;> simp [*]; done) | (simp; (repeat' split) <;> simp; done))
  | (split <;> first | rfl | exact whenDie_pending _ _ (fun t => by dsimp only; (repeat' split) <;> simp [*]))

@[simp] theorem vdrvTrip_pending (s : State) : (vdrvTrip s).pending = s.pending := by simp [vdrvTrip]

theorem execVdrvTrip_pending (s s' : State) (ht : execVdrvTrip s = .next s') : s'.pending = s.pending := by
  cases ht; simp

theorem execVdrvRelease_pending (s s' : State) (ht : execVdrvRelease s = .next s') : s'.pending = s.pending := by
  cases ht; simp

@[simp] theorem panelPowerFail_pending (m : Nat) (s : State) :
    (panelPowerFail m s).pending = s.pending := by simp [panelPowerFail]

@[simp] theorem dieWarned_pending (s : State) : (dieWarned s).pending = s.pending := by simp [dieWarned]

theorem execPowerFailWarning_pending (s s' : State) (ht : execPowerFailWarning s = .next s') :
    s'.pending = s.pending := by
  cases ht; simp

theorem execPowerFailRelease_pending (s s' : State) (ht : execPowerFailRelease s = .next s') :
    s'.pending = s.pending := by
  cases ht; simp

@[simp] theorem dieReset_pending (s : State) : (dieReset s).pending = s.pending := by simp [dieReset]

theorem execSealedSupplyTrip_pending (_vmio : Bool) (s s' : State) (ht : execSealedSupplyTrip _vmio s = .next s') :
    s'.pending = s.pending := by
  cases ht; simp

theorem execSealedWatchdogExpiry_pending (s s' : State) (ht : execSealedWatchdogExpiry s = .next s') :
    s'.pending = s.pending := by
  cases ht; simp

@[simp] theorem vbatSample_pending (mv : Nat) (s : State) :
    (vbatSample mv s).pending = s.pending := by simp [vbatSample]

theorem execVbatSample_pending (mv : Nat) (s s' : State) (ht : execVbatSample mv s = .next s') :
    s'.pending = s.pending := by
  cases ht; simp

theorem execLegalClockStop_pending (s s' : State) (ht : execLegalClockStop s = .next s') : s'.pending = s.pending := by
  cases ht; simp

theorem execMetrologyRefFail_pending (s s' : State) (ht : execMetrologyRefFail s = .next s') :
    s'.pending = s.pending := by
  cases ht; simp

theorem execMetrologyRefReturn_pending (s s' : State) (ht : execMetrologyRefReturn s = .next s') :
    s'.pending = s.pending := by
  cases ht; simp

theorem execLegalCrystalFail_pending (s s' : State) (ht : execLegalCrystalFail s = .next s') :
    s'.pending = s.pending := by
  cases ht; simp

/-! ### Tick -/

@[simp] theorem pilRebuild_pending (s : State) : (pilRebuild s).pending = s.pending := by simp [pilRebuild]

@[simp] theorem tickEngine_pending (e : Nat) (s : State) : (tickEngine e s).pending = s.pending := by
  unfold tickEngine; (repeat' split) <;> simp

@[simp] theorem tickApp_pending (s : State) : (tickApp s).pending = s.pending := by simp [tickApp]

@[simp] theorem tickCold_pending (s : State) : (tickCold s).pending = s.pending := by simp [tickCold]

@[simp] theorem tickLegal_pending (s : State) : (tickLegal s).pending = s.pending := by simp [tickLegal]

@[simp] theorem tickPsq_pending (s : State) : (tickPsq s).pending = s.pending := by
  unfold tickPsq; (repeat' split) <;> simp

@[simp] theorem tickMeas_pending (s : State) : (tickMeas s).pending = s.pending := by simp [tickMeas]

@[simp] theorem tickVcan_pending (s : State) : (tickVcan s).pending = s.pending := by simp [tickVcan]

@[simp] theorem tickPlc_pending (s : State) : (tickPlc s).pending = s.pending := by simp [tickPlc]

/-! ### Step -/

@[simp] theorem State.withFetchWord_pending (s : State) (_nbits _w : Nat) :
    (State.withFetchWord s _nbits _w).pending = s.pending := by simp [State.withFetchWord]

end Sys2Proof.Machine
end

