-- ==== Sys2Proof/Laws/Sealed.lean ====
section
/-!
SUPPORT. What the shared operations of the sealed die can change: a message of its own, a reply, a log entry,
a panel's new state.
-/
set_option Elab.async false
set_option linter.all false
namespace Sys2Proof.Machine

/-- Flushing the sealed end changes that end only (01 R31). -/
theorem linkFlush_sealed_eq (n : Nat) (s : State) : ∃ x, linkFlush .sealed n s = { s with die.link := x } := by
  induction n generalizing s with
  | zero => exact ⟨s.die.link, rfl⟩
  | succ n ih =>
    simp only [linkFlush]
    split
    · exact ⟨s.die.link, rfl⟩
    · split
      · obtain ⟨x, hx⟩ := ih (linkCount .sealed 0 1 (s.updLink .sealed fun e =>
          { e with held := ‹List LinkMsg›, txNext := e.txNext + 1,
                   unacked := e.unacked ++ [{ msg := { ‹LinkMsg› with seq := e.txNext }, mac := e.macOf { ‹LinkMsg› with seq := e.txNext } }] }))
        exact ⟨x, hx⟩
      · exact ⟨s.die.link, rfl⟩

/-- Offering a message to the sealed end changes that end only. -/
theorem linkOffer_sealed_eq (c : Nat) (k : Word) (p : List Byte) (s : State) :
    ∃ x, linkOffer .sealed c k p s = { s with die.link := x } := by
  unfold linkOffer
  split
  · exact ⟨s.die.link, rfl⟩
  · obtain ⟨x, hx⟩ := linkFlush_sealed_eq 33 (s.updLink .sealed fun e =>
      { e with held := e.held ++ [{ cls := BitVec.ofNat 16 c, seq := 0, tag := k, payload := p }] })
    exact ⟨x, hx⟩

@[simp] theorem dieSend_same (c : Nat) (p : List Byte) (s : State) :
    (dieSend c p s).app.clk = s.app.clk ∧ (dieSend c p s).app.bkl = s.app.bkl ∧
    (dieSend c p s).app.mbx = s.app.mbx ∧ (dieSend c p s).app.pmc = s.app.pmc ∧
    (dieSend c p s).app.hrn = s.app.hrn ∧ (dieSend c p s).app.girth = s.app.girth ∧
    (dieSend c p s).app.harts = s.app.harts ∧ (dieSend c p s).app.mem = s.app.mem ∧
    (dieSend c p s).app.lane = s.app.lane ∧ (dieSend c p s).app.link = s.app.link ∧
    (dieSend c p s).app.sl = s.app.sl ∧ (dieSend c p s).app.eng = s.app.eng ∧
    (dieSend c p s).app.ctx = s.app.ctx ∧ (dieSend c p s).app.plc = s.app.plc ∧
    (dieSend c p s).app.veh = s.app.veh ∧ (dieSend c p s).app.server = s.app.server ∧
    (dieSend c p s).app.journal = s.app.journal ∧ (dieSend c p s).app.tack = s.app.tack ∧
    (dieSend c p s).cold = s.cold ∧ (dieSend c p s).coldMr = s.coldMr ∧
    (dieSend c p s).trial = s.trial ∧ (dieSend c p s).bridle = s.bridle ∧
    (dieSend c p s).power = s.power ∧ (dieSend c p s).die.running = s.die.running ∧
    (dieSend c p s).die.inReset = s.die.inReset ∧ (dieSend c p s).die.agreedAt = s.die.agreedAt ∧
    (dieSend c p s).die.cur = s.die.cur ∧ (dieSend c p s).die.saved = s.die.saved ∧
    (dieSend c p s).die.met = s.die.met ∧ (dieSend c p s).die.legal = s.die.legal ∧
    (dieSend c p s).die.pf = s.die.pf ∧ (dieSend c p s).die.pfSaved = s.die.pfSaved ∧
    (dieSend c p s).die.obj = s.die.obj ∧ (dieSend c p s).die.staging = s.die.staging ∧
    (dieSend c p s).die.sel = s.die.sel ∧ (dieSend c p s).die.noticed = s.die.noticed ∧
    (dieSend c p s).die.panels = s.die.panels ∧ (dieSend c p s).die.key = s.die.key ∧
    (dieSend c p s).fuses = s.fuses ∧ (dieSend c p s).obj = s.obj ∧
    (dieSend c p s).flash = s.flash ∧ (dieSend c p s).sec = s.sec ∧
    (dieSend c p s).fresh = s.fresh ∧ (dieSend c p s).pending = s.pending := by
  obtain ⟨x, h⟩ := linkOffer_sealed_eq c 0 p s; unfold dieSend; rw [h]; simp

@[simp] theorem dieReply_same (k : Word) (c : Nat) (p : List Byte) (s : State) :
    (dieReply k c p s).app.clk = s.app.clk ∧ (dieReply k c p s).app.bkl = s.app.bkl ∧
    (dieReply k c p s).app.mbx = s.app.mbx ∧ (dieReply k c p s).app.pmc = s.app.pmc ∧
    (dieReply k c p s).app.hrn = s.app.hrn ∧ (dieReply k c p s).app.girth = s.app.girth ∧
    (dieReply k c p s).app.harts = s.app.harts ∧ (dieReply k c p s).app.mem = s.app.mem ∧
    (dieReply k c p s).app.lane = s.app.lane ∧ (dieReply k c p s).app.link = s.app.link ∧
    (dieReply k c p s).app.sl = s.app.sl ∧ (dieReply k c p s).app.eng = s.app.eng ∧
    (dieReply k c p s).app.ctx = s.app.ctx ∧ (dieReply k c p s).app.plc = s.app.plc ∧
    (dieReply k c p s).app.veh = s.app.veh ∧ (dieReply k c p s).app.server = s.app.server ∧
    (dieReply k c p s).app.journal = s.app.journal ∧ (dieReply k c p s).app.tack = s.app.tack ∧
    (dieReply k c p s).cold = s.cold ∧ (dieReply k c p s).coldMr = s.coldMr ∧
    (dieReply k c p s).trial = s.trial ∧ (dieReply k c p s).bridle = s.bridle ∧
    (dieReply k c p s).power = s.power ∧ (dieReply k c p s).die.running = s.die.running ∧
    (dieReply k c p s).die.inReset = s.die.inReset ∧
    (dieReply k c p s).die.agreedAt = s.die.agreedAt ∧ (dieReply k c p s).die.cur = s.die.cur ∧
    (dieReply k c p s).die.saved = s.die.saved ∧ (dieReply k c p s).die.met = s.die.met ∧
    (dieReply k c p s).die.legal = s.die.legal ∧ (dieReply k c p s).die.pf = s.die.pf ∧
    (dieReply k c p s).die.pfSaved = s.die.pfSaved ∧ (dieReply k c p s).die.obj = s.die.obj ∧
    (dieReply k c p s).die.staging = s.die.staging ∧ (dieReply k c p s).die.sel = s.die.sel ∧
    (dieReply k c p s).die.noticed = s.die.noticed ∧ (dieReply k c p s).die.panels = s.die.panels ∧
    (dieReply k c p s).die.key = s.die.key ∧ (dieReply k c p s).fuses = s.fuses ∧
    (dieReply k c p s).obj = s.obj ∧ (dieReply k c p s).flash = s.flash ∧
    (dieReply k c p s).sec = s.sec ∧ (dieReply k c p s).fresh = s.fresh ∧
    (dieReply k c p s).pending = s.pending := by
  obtain ⟨x, h⟩ := linkOffer_sealed_eq c k p s; unfold dieReply; rw [h]; simp

@[simp] theorem objReply_same (k : Word) (o : Nat) (st : Status) (i j f n m : Nat) (d : List Byte) (s : State) :
    (objReply k o st i j f n m d s).app.clk = s.app.clk ∧
    (objReply k o st i j f n m d s).app.bkl = s.app.bkl ∧
    (objReply k o st i j f n m d s).app.mbx = s.app.mbx ∧
    (objReply k o st i j f n m d s).app.pmc = s.app.pmc ∧
    (objReply k o st i j f n m d s).app.hrn = s.app.hrn ∧
    (objReply k o st i j f n m d s).app.girth = s.app.girth ∧
    (objReply k o st i j f n m d s).app.harts = s.app.harts ∧
    (objReply k o st i j f n m d s).app.mem = s.app.mem ∧
    (objReply k o st i j f n m d s).app.lane = s.app.lane ∧
    (objReply k o st i j f n m d s).app.link = s.app.link ∧
    (objReply k o st i j f n m d s).app.sl = s.app.sl ∧
    (objReply k o st i j f n m d s).app.eng = s.app.eng ∧
    (objReply k o st i j f n m d s).app.ctx = s.app.ctx ∧
    (objReply k o st i j f n m d s).app.plc = s.app.plc ∧
    (objReply k o st i j f n m d s).app.veh = s.app.veh ∧
    (objReply k o st i j f n m d s).app.server = s.app.server ∧
    (objReply k o st i j f n m d s).app.journal = s.app.journal ∧
    (objReply k o st i j f n m d s).app.tack = s.app.tack ∧
    (objReply k o st i j f n m d s).cold = s.cold ∧
    (objReply k o st i j f n m d s).coldMr = s.coldMr ∧
    (objReply k o st i j f n m d s).trial = s.trial ∧
    (objReply k o st i j f n m d s).bridle = s.bridle ∧
    (objReply k o st i j f n m d s).power = s.power ∧
    (objReply k o st i j f n m d s).die.running = s.die.running ∧
    (objReply k o st i j f n m d s).die.inReset = s.die.inReset ∧
    (objReply k o st i j f n m d s).die.agreedAt = s.die.agreedAt ∧
    (objReply k o st i j f n m d s).die.cur = s.die.cur ∧
    (objReply k o st i j f n m d s).die.saved = s.die.saved ∧
    (objReply k o st i j f n m d s).die.met = s.die.met ∧
    (objReply k o st i j f n m d s).die.legal = s.die.legal ∧
    (objReply k o st i j f n m d s).die.pf = s.die.pf ∧
    (objReply k o st i j f n m d s).die.pfSaved = s.die.pfSaved ∧
    (objReply k o st i j f n m d s).die.obj = s.die.obj ∧
    (objReply k o st i j f n m d s).die.staging = s.die.staging ∧
    (objReply k o st i j f n m d s).die.sel = s.die.sel ∧
    (objReply k o st i j f n m d s).die.noticed = s.die.noticed ∧
    (objReply k o st i j f n m d s).die.panels = s.die.panels ∧
    (objReply k o st i j f n m d s).die.key = s.die.key ∧
    (objReply k o st i j f n m d s).fuses = s.fuses ∧ (objReply k o st i j f n m d s).obj = s.obj ∧
    (objReply k o st i j f n m d s).flash = s.flash ∧ (objReply k o st i j f n m d s).sec = s.sec ∧
    (objReply k o st i j f n m d s).fresh = s.fresh ∧
    (objReply k o st i j f n m d s).pending = s.pending := by
  simp [objReply]

@[simp] theorem writeReply_same (k : Word) (i j n : Nat) (r : Status × State) :
    (writeReply k i j n r).app.clk = r.2.app.clk ∧ (writeReply k i j n r).app.bkl = r.2.app.bkl ∧
    (writeReply k i j n r).app.mbx = r.2.app.mbx ∧ (writeReply k i j n r).app.pmc = r.2.app.pmc ∧
    (writeReply k i j n r).app.hrn = r.2.app.hrn ∧
    (writeReply k i j n r).app.girth = r.2.app.girth ∧
    (writeReply k i j n r).app.harts = r.2.app.harts ∧
    (writeReply k i j n r).app.mem = r.2.app.mem ∧ (writeReply k i j n r).app.lane = r.2.app.lane ∧
    (writeReply k i j n r).app.link = r.2.app.link ∧ (writeReply k i j n r).app.sl = r.2.app.sl ∧
    (writeReply k i j n r).app.eng = r.2.app.eng ∧ (writeReply k i j n r).app.ctx = r.2.app.ctx ∧
    (writeReply k i j n r).app.plc = r.2.app.plc ∧ (writeReply k i j n r).app.veh = r.2.app.veh ∧
    (writeReply k i j n r).app.server = r.2.app.server ∧
    (writeReply k i j n r).app.journal = r.2.app.journal ∧
    (writeReply k i j n r).app.tack = r.2.app.tack ∧ (writeReply k i j n r).cold = r.2.cold ∧
    (writeReply k i j n r).coldMr = r.2.coldMr ∧ (writeReply k i j n r).trial = r.2.trial ∧
    (writeReply k i j n r).bridle = r.2.bridle ∧ (writeReply k i j n r).power = r.2.power ∧
    (writeReply k i j n r).die.running = r.2.die.running ∧
    (writeReply k i j n r).die.inReset = r.2.die.inReset ∧
    (writeReply k i j n r).die.agreedAt = r.2.die.agreedAt ∧
    (writeReply k i j n r).die.cur = r.2.die.cur ∧
    (writeReply k i j n r).die.saved = r.2.die.saved ∧
    (writeReply k i j n r).die.met = r.2.die.met ∧
    (writeReply k i j n r).die.legal = r.2.die.legal ∧ (writeReply k i j n r).die.pf = r.2.die.pf ∧
    (writeReply k i j n r).die.pfSaved = r.2.die.pfSaved ∧
    (writeReply k i j n r).die.obj = r.2.die.obj ∧
    (writeReply k i j n r).die.staging = r.2.die.staging ∧
    (writeReply k i j n r).die.sel = r.2.die.sel ∧
    (writeReply k i j n r).die.noticed = r.2.die.noticed ∧
    (writeReply k i j n r).die.panels = r.2.die.panels ∧
    (writeReply k i j n r).die.key = r.2.die.key ∧ (writeReply k i j n r).fuses = r.2.fuses ∧
    (writeReply k i j n r).obj = r.2.obj ∧ (writeReply k i j n r).flash = r.2.flash ∧
    (writeReply k i j n r).sec = r.2.sec ∧ (writeReply k i j n r).fresh = r.2.fresh ∧
    (writeReply k i j n r).pending = r.2.pending := by
  simp [writeReply]

@[simp] theorem logAdd_same (k : Nat) (d : List Byte) (s : State) :
    (logAdd k d s).app.clk = s.app.clk ∧ (logAdd k d s).app.bkl = s.app.bkl ∧
    (logAdd k d s).app.mbx = s.app.mbx ∧ (logAdd k d s).app.pmc = s.app.pmc ∧
    (logAdd k d s).app.hrn = s.app.hrn ∧ (logAdd k d s).app.girth = s.app.girth ∧
    (logAdd k d s).app.harts = s.app.harts ∧ (logAdd k d s).app.mem = s.app.mem ∧
    (logAdd k d s).app.lane = s.app.lane ∧ (logAdd k d s).app.link = s.app.link ∧
    (logAdd k d s).app.sl = s.app.sl ∧ (logAdd k d s).app.eng = s.app.eng ∧
    (logAdd k d s).app.ctx = s.app.ctx ∧ (logAdd k d s).app.plc = s.app.plc ∧
    (logAdd k d s).app.veh = s.app.veh ∧ (logAdd k d s).app.server = s.app.server ∧
    (logAdd k d s).app.journal = s.app.journal ∧ (logAdd k d s).app.tack = s.app.tack ∧
    (logAdd k d s).cold = s.cold ∧ (logAdd k d s).coldMr = s.coldMr ∧
    (logAdd k d s).trial = s.trial ∧ (logAdd k d s).bridle = s.bridle ∧
    (logAdd k d s).power = s.power ∧ (logAdd k d s).die.running = s.die.running ∧
    (logAdd k d s).die.inReset = s.die.inReset ∧ (logAdd k d s).die.link = s.die.link ∧
    (logAdd k d s).die.agreedAt = s.die.agreedAt ∧ (logAdd k d s).die.cur = s.die.cur ∧
    (logAdd k d s).die.saved = s.die.saved ∧ (logAdd k d s).die.met = s.die.met ∧
    (logAdd k d s).die.pf = s.die.pf ∧ (logAdd k d s).die.pfSaved = s.die.pfSaved ∧
    (logAdd k d s).die.obj = s.die.obj ∧ (logAdd k d s).die.staging = s.die.staging ∧
    (logAdd k d s).die.sel = s.die.sel ∧ (logAdd k d s).die.noticed = s.die.noticed ∧
    (logAdd k d s).die.panels = s.die.panels ∧ (logAdd k d s).die.key = s.die.key ∧
    (logAdd k d s).fuses = s.fuses ∧ (logAdd k d s).obj = s.obj ∧ (logAdd k d s).flash = s.flash ∧
    (logAdd k d s).sec = s.sec ∧ (logAdd k d s).fresh = s.fresh ∧ (logAdd k d s).pending = s.pending := by
  unfold logAdd; split <;> simp

@[simp] theorem displayCheck_same (s : State) :
    (displayCheck s).app.clk = s.app.clk ∧ (displayCheck s).app.bkl = s.app.bkl ∧
    (displayCheck s).app.mbx = s.app.mbx ∧ (displayCheck s).app.pmc = s.app.pmc ∧
    (displayCheck s).app.hrn = s.app.hrn ∧ (displayCheck s).app.girth = s.app.girth ∧
    (displayCheck s).app.harts = s.app.harts ∧ (displayCheck s).app.mem = s.app.mem ∧
    (displayCheck s).app.lane = s.app.lane ∧ (displayCheck s).app.link = s.app.link ∧
    (displayCheck s).app.sl = s.app.sl ∧ (displayCheck s).app.eng = s.app.eng ∧
    (displayCheck s).app.ctx = s.app.ctx ∧ (displayCheck s).app.plc = s.app.plc ∧
    (displayCheck s).app.veh = s.app.veh ∧ (displayCheck s).app.server = s.app.server ∧
    (displayCheck s).app.journal = s.app.journal ∧ (displayCheck s).app.tack = s.app.tack ∧
    (displayCheck s).cold = s.cold ∧ (displayCheck s).coldMr = s.coldMr ∧
    (displayCheck s).trial = s.trial ∧ (displayCheck s).bridle = s.bridle ∧
    (displayCheck s).power = s.power ∧ (displayCheck s).die.running = s.die.running ∧
    (displayCheck s).die.inReset = s.die.inReset ∧ (displayCheck s).die.link = s.die.link ∧
    (displayCheck s).die.agreedAt = s.die.agreedAt ∧ (displayCheck s).die.saved = s.die.saved ∧
    (displayCheck s).die.met = s.die.met ∧ (displayCheck s).die.legal = s.die.legal ∧
    (displayCheck s).die.pf = s.die.pf ∧ (displayCheck s).die.pfSaved = s.die.pfSaved ∧
    (displayCheck s).die.obj = s.die.obj ∧ (displayCheck s).die.staging = s.die.staging ∧
    (displayCheck s).die.sel = s.die.sel ∧ (displayCheck s).die.noticed = s.die.noticed ∧
    (displayCheck s).die.panels = s.die.panels ∧ (displayCheck s).die.key = s.die.key ∧
    (displayCheck s).fuses = s.fuses ∧ (displayCheck s).obj = s.obj ∧
    (displayCheck s).flash = s.flash ∧ (displayCheck s).sec = s.sec ∧
    (displayCheck s).fresh = s.fresh ∧ (displayCheck s).pending = s.pending := by
  simp [displayCheck, State.mapRecs]

@[simp] theorem panelTo_same (m : Nat) (st : PanelSt) (s : State) :
    (panelTo m st s).app.clk = s.app.clk ∧ (panelTo m st s).app.bkl = s.app.bkl ∧
    (panelTo m st s).app.mbx = s.app.mbx ∧ (panelTo m st s).app.pmc = s.app.pmc ∧
    (panelTo m st s).app.hrn = s.app.hrn ∧ (panelTo m st s).app.girth = s.app.girth ∧
    (panelTo m st s).app.harts = s.app.harts ∧ (panelTo m st s).app.mem = s.app.mem ∧
    (panelTo m st s).app.lane = s.app.lane ∧ (panelTo m st s).app.link = s.app.link ∧
    (panelTo m st s).app.sl = s.app.sl ∧ (panelTo m st s).app.eng = s.app.eng ∧
    (panelTo m st s).app.ctx = s.app.ctx ∧ (panelTo m st s).app.plc = s.app.plc ∧
    (panelTo m st s).app.veh = s.app.veh ∧ (panelTo m st s).app.server = s.app.server ∧
    (panelTo m st s).app.journal = s.app.journal ∧ (panelTo m st s).app.tack = s.app.tack ∧
    (panelTo m st s).cold = s.cold ∧ (panelTo m st s).coldMr = s.coldMr ∧
    (panelTo m st s).trial = s.trial ∧ (panelTo m st s).bridle = s.bridle ∧
    (panelTo m st s).power = s.power ∧ (panelTo m st s).die.running = s.die.running ∧
    (panelTo m st s).die.inReset = s.die.inReset ∧ (panelTo m st s).die.agreedAt = s.die.agreedAt ∧
    (panelTo m st s).die.saved = s.die.saved ∧ (panelTo m st s).die.met = s.die.met ∧
    (panelTo m st s).die.legal = s.die.legal ∧ (panelTo m st s).die.pf = s.die.pf ∧
    (panelTo m st s).die.pfSaved = s.die.pfSaved ∧ (panelTo m st s).die.obj = s.die.obj ∧
    (panelTo m st s).die.staging = s.die.staging ∧ (panelTo m st s).die.sel = s.die.sel ∧
    (panelTo m st s).die.noticed = s.die.noticed ∧ (panelTo m st s).die.key = s.die.key ∧
    (panelTo m st s).fuses = s.fuses ∧ (panelTo m st s).obj = s.obj ∧
    (panelTo m st s).flash = s.flash ∧ (panelTo m st s).sec = s.sec ∧
    (panelTo m st s).pending = s.pending := by
  simp [panelTo, panelNotice, State.used, State.updPanel]

/-- A panel that takes a state shows it. -/
@[simp] theorem panelTo_st (m : Nat) (st : PanelSt) (s : State) : ((panelTo m st s).panel m).st = st := by
  unfold panelTo panelNotice
  have h : ∀ c p, (dieSend c p (s.updPanel m fun x => { x with st := st })).die.panels =
      (s.updPanel m fun x => { x with st := st }).die.panels := fun c p => by simp
  simp only [displayCheck, State.mapRecs, State.panel, State.used, h]
  simp [State.updPanel]

end Sys2Proof.Machine
end

