-- ==== Sys2Proof/Laws/Links.lean ====
section
/-!
SUPPORT. What emergency messages, the closing of records, a link failure and a panel's stop can change.
-/
set_option Elab.async false
set_option linter.all false
namespace Sys2Proof.Machine

@[simp] theorem canSend_same (x : Nat) (f : CanFrame) (s : State) :
    (canSend x f s).app.clk = s.app.clk ∧ (canSend x f s).app.bkl = s.app.bkl ∧
    (canSend x f s).app.mbx = s.app.mbx ∧ (canSend x f s).app.pmc = s.app.pmc ∧
    (canSend x f s).app.hrn = s.app.hrn ∧ (canSend x f s).app.girth = s.app.girth ∧
    (canSend x f s).app.harts = s.app.harts ∧ (canSend x f s).app.mem = s.app.mem ∧
    (canSend x f s).app.lane = s.app.lane ∧ (canSend x f s).app.link = s.app.link ∧
    (canSend x f s).app.sl = s.app.sl ∧ (canSend x f s).app.eng = s.app.eng ∧
    (canSend x f s).app.ctx = s.app.ctx ∧ (canSend x f s).app.plc = s.app.plc ∧
    (canSend x f s).app.veh = s.app.veh ∧ (canSend x f s).app.journal = s.app.journal ∧
    (canSend x f s).app.tack = s.app.tack ∧ (canSend x f s).cold = s.cold ∧
    (canSend x f s).coldMr = s.coldMr ∧ (canSend x f s).trial = s.trial ∧
    (canSend x f s).bridle = s.bridle ∧ (canSend x f s).power = s.power ∧
    (canSend x f s).die = s.die ∧ (canSend x f s).fuses = s.fuses ∧ (canSend x f s).obj = s.obj ∧
    (canSend x f s).flash = s.flash ∧ (canSend x f s).sec = s.sec ∧
    (canSend x f s).fresh = s.fresh ∧ (canSend x f s).pending = s.pending := by
  unfold canSend; split
  · simp
  · split <;> simp

@[simp] theorem emcy_same (x c : Nat) (b : Byte) (s : State) :
    (emcy x c b s).app.clk = s.app.clk ∧ (emcy x c b s).app.bkl = s.app.bkl ∧
    (emcy x c b s).app.mbx = s.app.mbx ∧ (emcy x c b s).app.pmc = s.app.pmc ∧
    (emcy x c b s).app.hrn = s.app.hrn ∧ (emcy x c b s).app.girth = s.app.girth ∧
    (emcy x c b s).app.harts = s.app.harts ∧ (emcy x c b s).app.mem = s.app.mem ∧
    (emcy x c b s).app.lane = s.app.lane ∧ (emcy x c b s).app.link = s.app.link ∧
    (emcy x c b s).app.sl = s.app.sl ∧ (emcy x c b s).app.eng = s.app.eng ∧
    (emcy x c b s).app.ctx = s.app.ctx ∧ (emcy x c b s).app.plc = s.app.plc ∧
    (emcy x c b s).app.veh = s.app.veh ∧ (emcy x c b s).app.journal = s.app.journal ∧
    (emcy x c b s).app.tack = s.app.tack ∧ (emcy x c b s).cold = s.cold ∧
    (emcy x c b s).coldMr = s.coldMr ∧ (emcy x c b s).trial = s.trial ∧
    (emcy x c b s).bridle = s.bridle ∧ (emcy x c b s).power = s.power ∧
    (emcy x c b s).die = s.die ∧ (emcy x c b s).fuses = s.fuses ∧ (emcy x c b s).obj = s.obj ∧
    (emcy x c b s).flash = s.flash ∧ (emcy x c b s).sec = s.sec ∧ (emcy x c b s).fresh = s.fresh ∧
    (emcy x c b s).pending = s.pending := by
  unfold emcy; dsimp only; split <;> simp

@[simp] theorem emcyBoth_same (c : Nat) (b : Byte) (s : State) :
    (emcyBoth c b s).app.clk = s.app.clk ∧ (emcyBoth c b s).app.bkl = s.app.bkl ∧
    (emcyBoth c b s).app.mbx = s.app.mbx ∧ (emcyBoth c b s).app.pmc = s.app.pmc ∧
    (emcyBoth c b s).app.hrn = s.app.hrn ∧ (emcyBoth c b s).app.girth = s.app.girth ∧
    (emcyBoth c b s).app.harts = s.app.harts ∧ (emcyBoth c b s).app.mem = s.app.mem ∧
    (emcyBoth c b s).app.lane = s.app.lane ∧ (emcyBoth c b s).app.link = s.app.link ∧
    (emcyBoth c b s).app.sl = s.app.sl ∧ (emcyBoth c b s).app.eng = s.app.eng ∧
    (emcyBoth c b s).app.ctx = s.app.ctx ∧ (emcyBoth c b s).app.plc = s.app.plc ∧
    (emcyBoth c b s).app.veh = s.app.veh ∧ (emcyBoth c b s).app.journal = s.app.journal ∧
    (emcyBoth c b s).app.tack = s.app.tack ∧ (emcyBoth c b s).cold = s.cold ∧
    (emcyBoth c b s).coldMr = s.coldMr ∧ (emcyBoth c b s).trial = s.trial ∧
    (emcyBoth c b s).bridle = s.bridle ∧ (emcyBoth c b s).power = s.power ∧
    (emcyBoth c b s).die = s.die ∧ (emcyBoth c b s).fuses = s.fuses ∧
    (emcyBoth c b s).obj = s.obj ∧ (emcyBoth c b s).flash = s.flash ∧
    (emcyBoth c b s).sec = s.sec ∧ (emcyBoth c b s).fresh = s.fresh ∧
    (emcyBoth c b s).pending = s.pending := by
  simp [emcyBoth]

@[simp] theorem updRec_same (s : State) (k : Nat) (f : Rec → Rec) :
    (s.updRec k f).app.clk = s.app.clk ∧ (s.updRec k f).app.bkl = s.app.bkl ∧
    (s.updRec k f).app.mbx = s.app.mbx ∧ (s.updRec k f).app.pmc = s.app.pmc ∧
    (s.updRec k f).app.hrn = s.app.hrn ∧ (s.updRec k f).app.girth = s.app.girth ∧
    (s.updRec k f).app.harts = s.app.harts ∧ (s.updRec k f).app.mem = s.app.mem ∧
    (s.updRec k f).app.lane = s.app.lane ∧ (s.updRec k f).app.link = s.app.link ∧
    (s.updRec k f).app.sl = s.app.sl ∧ (s.updRec k f).app.eng = s.app.eng ∧
    (s.updRec k f).app.ctx = s.app.ctx ∧ (s.updRec k f).app.plc = s.app.plc ∧
    (s.updRec k f).app.veh = s.app.veh ∧ (s.updRec k f).app.server = s.app.server ∧
    (s.updRec k f).app.journal = s.app.journal ∧ (s.updRec k f).app.tack = s.app.tack ∧
    (s.updRec k f).cold = s.cold ∧ (s.updRec k f).coldMr = s.coldMr ∧
    (s.updRec k f).trial = s.trial ∧ (s.updRec k f).bridle = s.bridle ∧
    (s.updRec k f).power = s.power ∧ (s.updRec k f).die.running = s.die.running ∧
    (s.updRec k f).die.inReset = s.die.inReset ∧ (s.updRec k f).die.link = s.die.link ∧
    (s.updRec k f).die.agreedAt = s.die.agreedAt ∧ (s.updRec k f).die.saved = s.die.saved ∧
    (s.updRec k f).die.met = s.die.met ∧ (s.updRec k f).die.legal = s.die.legal ∧
    (s.updRec k f).die.pf = s.die.pf ∧ (s.updRec k f).die.pfSaved = s.die.pfSaved ∧
    (s.updRec k f).die.obj = s.die.obj ∧ (s.updRec k f).die.staging = s.die.staging ∧
    (s.updRec k f).die.sel = s.die.sel ∧ (s.updRec k f).die.noticed = s.die.noticed ∧
    (s.updRec k f).die.panels = s.die.panels ∧ (s.updRec k f).die.key = s.die.key ∧
    (s.updRec k f).fuses = s.fuses ∧ (s.updRec k f).obj = s.obj ∧ (s.updRec k f).flash = s.flash ∧
    (s.updRec k f).sec = s.sec ∧ (s.updRec k f).fresh = s.fresh ∧ (s.updRec k f).pending = s.pending := by
  simp [State.updRec, State.mapRecs]

@[simp] theorem closeRec_same (k r : Nat) (f : Rec → Rec) (s : State) :
    (closeRec k r f s).app.clk = s.app.clk ∧ (closeRec k r f s).app.bkl = s.app.bkl ∧
    (closeRec k r f s).app.mbx = s.app.mbx ∧ (closeRec k r f s).app.pmc = s.app.pmc ∧
    (closeRec k r f s).app.hrn = s.app.hrn ∧ (closeRec k r f s).app.girth = s.app.girth ∧
    (closeRec k r f s).app.harts = s.app.harts ∧ (closeRec k r f s).app.mem = s.app.mem ∧
    (closeRec k r f s).app.lane = s.app.lane ∧ (closeRec k r f s).app.link = s.app.link ∧
    (closeRec k r f s).app.sl = s.app.sl ∧ (closeRec k r f s).app.eng = s.app.eng ∧
    (closeRec k r f s).app.ctx = s.app.ctx ∧ (closeRec k r f s).app.plc = s.app.plc ∧
    (closeRec k r f s).app.veh = s.app.veh ∧ (closeRec k r f s).app.server = s.app.server ∧
    (closeRec k r f s).app.journal = s.app.journal ∧ (closeRec k r f s).app.tack = s.app.tack ∧
    (closeRec k r f s).cold = s.cold ∧ (closeRec k r f s).coldMr = s.coldMr ∧
    (closeRec k r f s).trial = s.trial ∧ (closeRec k r f s).bridle = s.bridle ∧
    (closeRec k r f s).power = s.power ∧ (closeRec k r f s).die.running = s.die.running ∧
    (closeRec k r f s).die.inReset = s.die.inReset ∧ (closeRec k r f s).die.link = s.die.link ∧
    (closeRec k r f s).die.agreedAt = s.die.agreedAt ∧ (closeRec k r f s).die.saved = s.die.saved ∧
    (closeRec k r f s).die.met = s.die.met ∧ (closeRec k r f s).die.legal = s.die.legal ∧
    (closeRec k r f s).die.pf = s.die.pf ∧ (closeRec k r f s).die.pfSaved = s.die.pfSaved ∧
    (closeRec k r f s).die.obj = s.die.obj ∧ (closeRec k r f s).die.staging = s.die.staging ∧
    (closeRec k r f s).die.sel = s.die.sel ∧ (closeRec k r f s).die.noticed = s.die.noticed ∧
    (closeRec k r f s).die.panels = s.die.panels ∧ (closeRec k r f s).die.key = s.die.key ∧
    (closeRec k r f s).fuses = s.fuses ∧ (closeRec k r f s).obj = s.obj ∧
    (closeRec k r f s).flash = s.flash ∧ (closeRec k r f s).sec = s.sec ∧
    (closeRec k r f s).fresh = s.fresh ∧ (closeRec k r f s).pending = s.pending := by
  unfold closeRec; (repeat' split) <;> simp

@[simp] theorem closeAll_same (r : Nat) (f : Rec → Rec) (s : State) :
    (closeAll r f s).app.clk = s.app.clk ∧ (closeAll r f s).app.bkl = s.app.bkl ∧
    (closeAll r f s).app.mbx = s.app.mbx ∧ (closeAll r f s).app.pmc = s.app.pmc ∧
    (closeAll r f s).app.hrn = s.app.hrn ∧ (closeAll r f s).app.girth = s.app.girth ∧
    (closeAll r f s).app.harts = s.app.harts ∧ (closeAll r f s).app.mem = s.app.mem ∧
    (closeAll r f s).app.lane = s.app.lane ∧ (closeAll r f s).app.link = s.app.link ∧
    (closeAll r f s).app.sl = s.app.sl ∧ (closeAll r f s).app.eng = s.app.eng ∧
    (closeAll r f s).app.ctx = s.app.ctx ∧ (closeAll r f s).app.plc = s.app.plc ∧
    (closeAll r f s).app.veh = s.app.veh ∧ (closeAll r f s).app.server = s.app.server ∧
    (closeAll r f s).app.journal = s.app.journal ∧ (closeAll r f s).app.tack = s.app.tack ∧
    (closeAll r f s).cold = s.cold ∧ (closeAll r f s).coldMr = s.coldMr ∧
    (closeAll r f s).trial = s.trial ∧ (closeAll r f s).bridle = s.bridle ∧
    (closeAll r f s).power = s.power ∧ (closeAll r f s).die.running = s.die.running ∧
    (closeAll r f s).die.inReset = s.die.inReset ∧ (closeAll r f s).die.link = s.die.link ∧
    (closeAll r f s).die.agreedAt = s.die.agreedAt ∧ (closeAll r f s).die.saved = s.die.saved ∧
    (closeAll r f s).die.met = s.die.met ∧ (closeAll r f s).die.legal = s.die.legal ∧
    (closeAll r f s).die.pf = s.die.pf ∧ (closeAll r f s).die.pfSaved = s.die.pfSaved ∧
    (closeAll r f s).die.obj = s.die.obj ∧ (closeAll r f s).die.staging = s.die.staging ∧
    (closeAll r f s).die.sel = s.die.sel ∧ (closeAll r f s).die.noticed = s.die.noticed ∧
    (closeAll r f s).die.panels = s.die.panels ∧ (closeAll r f s).die.key = s.die.key ∧
    (closeAll r f s).fuses = s.fuses ∧ (closeAll r f s).obj = s.obj ∧
    (closeAll r f s).flash = s.flash ∧ (closeAll r f s).sec = s.sec ∧
    (closeAll r f s).fresh = s.fresh ∧ (closeAll r f s).pending = s.pending := by
  unfold closeAll
  generalize s.die.cur.recs.filter (·.st = .open) = l
  induction l generalizing s with
  | nil => simp
  | cons a l ih => simp only [List.foldl_cons]; have := ih (closeRec a.serial r f s); simpa using this

@[simp] theorem sealAbandon_same (s : State) :
    (sealAbandon s).app.clk = s.app.clk ∧ (sealAbandon s).app.bkl = s.app.bkl ∧
    (sealAbandon s).app.mbx = s.app.mbx ∧ (sealAbandon s).app.pmc = s.app.pmc ∧
    (sealAbandon s).app.hrn = s.app.hrn ∧ (sealAbandon s).app.girth = s.app.girth ∧
    (sealAbandon s).app.harts = s.app.harts ∧ (sealAbandon s).app.mem = s.app.mem ∧
    (sealAbandon s).app.lane = s.app.lane ∧ (sealAbandon s).app.link = s.app.link ∧
    (sealAbandon s).app.sl = s.app.sl ∧ (sealAbandon s).app.eng = s.app.eng ∧
    (sealAbandon s).app.ctx = s.app.ctx ∧ (sealAbandon s).app.plc = s.app.plc ∧
    (sealAbandon s).app.veh = s.app.veh ∧ (sealAbandon s).app.server = s.app.server ∧
    (sealAbandon s).app.journal = s.app.journal ∧ (sealAbandon s).app.tack = s.app.tack ∧
    (sealAbandon s).cold = s.cold ∧ (sealAbandon s).coldMr = s.coldMr ∧
    (sealAbandon s).trial = s.trial ∧ (sealAbandon s).bridle = s.bridle ∧
    (sealAbandon s).power = s.power ∧ (sealAbandon s).die.running = s.die.running ∧
    (sealAbandon s).die.inReset = s.die.inReset ∧ (sealAbandon s).die.link = s.die.link ∧
    (sealAbandon s).die.agreedAt = s.die.agreedAt ∧ (sealAbandon s).die.cur = s.die.cur ∧
    (sealAbandon s).die.saved = s.die.saved ∧ (sealAbandon s).die.pf = s.die.pf ∧
    (sealAbandon s).die.pfSaved = s.die.pfSaved ∧ (sealAbandon s).die.obj = s.die.obj ∧
    (sealAbandon s).die.staging = s.die.staging ∧ (sealAbandon s).die.sel = s.die.sel ∧
    (sealAbandon s).die.noticed = s.die.noticed ∧ (sealAbandon s).die.panels = s.die.panels ∧
    (sealAbandon s).die.key = s.die.key ∧ (sealAbandon s).fuses = s.fuses ∧
    (sealAbandon s).obj = s.obj ∧ (sealAbandon s).flash = s.flash ∧ (sealAbandon s).sec = s.sec ∧
    (sealAbandon s).fresh = s.fresh ∧ (sealAbandon s).pending = s.pending := by
  unfold sealAbandon; split <;> simp

theorem switchTariff_eq (s : State) : ∃ x, switchTariff s = { s with die.cur := x } := by
  unfold switchTariff
  dsimp only
  split
  · exact ⟨s.die.cur, rfl⟩
  · exact ⟨_, rfl⟩

theorem closeInterval_eq (a b : BitVec 16) (s : State) : ∃ x, closeInterval a b s = { s with die.cur := x } := by
  generalize h : closeInterval a b s = t
  unfold closeInterval at h
  dsimp only at h
  exact ⟨t.die.cur, by subst h; rfl⟩

/-- The boundaries due change only the sealed die's working state (12 R294). -/
theorem settle_eq (s : State) : ∃ x, settle s = { s with die.cur := x } := by
  unfold settle
  split
  · obtain ⟨x, hx⟩ := closeInterval_eq s.coincident 0 s
    obtain ⟨y, hy⟩ := switchTariff_eq (closeInterval s.coincident 0 s)
    exact ⟨y, by rw [hy, hx]⟩
  · exact switchTariff_eq s

@[simp] theorem settle_same (s : State) :
    (settle s).app.clk = s.app.clk ∧ (settle s).app.bkl = s.app.bkl ∧
    (settle s).app.mbx = s.app.mbx ∧ (settle s).app.pmc = s.app.pmc ∧
    (settle s).app.hrn = s.app.hrn ∧ (settle s).app.girth = s.app.girth ∧
    (settle s).app.harts = s.app.harts ∧ (settle s).app.mem = s.app.mem ∧
    (settle s).app.lane = s.app.lane ∧ (settle s).app.link = s.app.link ∧
    (settle s).app.sl = s.app.sl ∧ (settle s).app.eng = s.app.eng ∧
    (settle s).app.ctx = s.app.ctx ∧ (settle s).app.plc = s.app.plc ∧
    (settle s).app.veh = s.app.veh ∧ (settle s).app.server = s.app.server ∧
    (settle s).app.journal = s.app.journal ∧ (settle s).app.tack = s.app.tack ∧
    (settle s).cold = s.cold ∧ (settle s).coldMr = s.coldMr ∧
    (settle s).trial = s.trial ∧ (settle s).bridle = s.bridle ∧
    (settle s).power = s.power ∧ (settle s).die.running = s.die.running ∧
    (settle s).die.inReset = s.die.inReset ∧ (settle s).die.link = s.die.link ∧
    (settle s).die.agreedAt = s.die.agreedAt ∧
    (settle s).die.saved = s.die.saved ∧ (settle s).die.pf = s.die.pf ∧
    (settle s).die.pfSaved = s.die.pfSaved ∧ (settle s).die.obj = s.die.obj ∧
    (settle s).die.staging = s.die.staging ∧ (settle s).die.sel = s.die.sel ∧
    (settle s).die.noticed = s.die.noticed ∧
    (settle s).die.panels = s.die.panels ∧ (settle s).die.key = s.die.key ∧
    (settle s).fuses = s.fuses ∧ (settle s).obj = s.obj ∧
    (settle s).flash = s.flash ∧ (settle s).sec = s.sec ∧
    (settle s).fresh = s.fresh ∧ (settle s).pending = s.pending ∧
    (settle s).die.met = s.die.met ∧ (settle s).die.legal = s.die.legal := by
  obtain ⟨x, h⟩ := settle_eq s; simp [h]

@[simp] theorem dieLinkFailed_same (c : Nat) (s : State) :
    (dieLinkFailed c s).app.clk = s.app.clk ∧ (dieLinkFailed c s).app.bkl = s.app.bkl ∧
    (dieLinkFailed c s).app.mbx = s.app.mbx ∧ (dieLinkFailed c s).app.pmc = s.app.pmc ∧
    (dieLinkFailed c s).app.hrn = s.app.hrn ∧ (dieLinkFailed c s).app.girth = s.app.girth ∧
    (dieLinkFailed c s).app.harts = s.app.harts ∧ (dieLinkFailed c s).app.mem = s.app.mem ∧
    (dieLinkFailed c s).app.lane = s.app.lane ∧ (dieLinkFailed c s).app.link = s.app.link ∧
    (dieLinkFailed c s).app.sl = s.app.sl ∧ (dieLinkFailed c s).app.eng = s.app.eng ∧
    (dieLinkFailed c s).app.ctx = s.app.ctx ∧ (dieLinkFailed c s).app.plc = s.app.plc ∧
    (dieLinkFailed c s).app.veh = s.app.veh ∧ (dieLinkFailed c s).app.server = s.app.server ∧
    (dieLinkFailed c s).app.journal = s.app.journal ∧ (dieLinkFailed c s).app.tack = s.app.tack ∧
    (dieLinkFailed c s).cold = s.cold ∧ (dieLinkFailed c s).coldMr = s.coldMr ∧
    (dieLinkFailed c s).trial = s.trial ∧ (dieLinkFailed c s).bridle = s.bridle ∧
    (dieLinkFailed c s).power = s.power ∧ (dieLinkFailed c s).die.running = s.die.running ∧
    (dieLinkFailed c s).die.inReset = s.die.inReset ∧ (dieLinkFailed c s).die.link = s.die.link ∧
    (dieLinkFailed c s).die.agreedAt = s.die.agreedAt ∧
    (dieLinkFailed c s).die.saved = s.die.saved ∧ (dieLinkFailed c s).die.pf = s.die.pf ∧
    (dieLinkFailed c s).die.pfSaved = s.die.pfSaved ∧ (dieLinkFailed c s).die.obj = s.die.obj ∧
    (dieLinkFailed c s).die.staging = s.die.staging ∧ (dieLinkFailed c s).die.sel = s.die.sel ∧
    (dieLinkFailed c s).die.noticed = s.die.noticed ∧
    (dieLinkFailed c s).die.panels = s.die.panels ∧ (dieLinkFailed c s).die.key = s.die.key ∧
    (dieLinkFailed c s).fuses = s.fuses ∧ (dieLinkFailed c s).obj = s.obj ∧
    (dieLinkFailed c s).flash = s.flash ∧ (dieLinkFailed c s).sec = s.sec ∧
    (dieLinkFailed c s).fresh = s.fresh ∧ (dieLinkFailed c s).pending = s.pending := by
  simp [dieLinkFailed]

@[simp] theorem psqDrive_same (m : Nat) (w : BitVec 4) (b : Bool) (s : State) :
    (psqDrive m w b s).app.clk = s.app.clk ∧ (psqDrive m w b s).app.bkl = s.app.bkl ∧
    (psqDrive m w b s).app.mbx = s.app.mbx ∧ (psqDrive m w b s).app.pmc = s.app.pmc ∧
    (psqDrive m w b s).app.hrn = s.app.hrn ∧ (psqDrive m w b s).app.girth = s.app.girth ∧
    (psqDrive m w b s).app.harts = s.app.harts ∧ (psqDrive m w b s).app.mem = s.app.mem ∧
    (psqDrive m w b s).app.lane = s.app.lane ∧ (psqDrive m w b s).app.link = s.app.link ∧
    (psqDrive m w b s).app.sl = s.app.sl ∧ (psqDrive m w b s).app.eng = s.app.eng ∧
    (psqDrive m w b s).app.ctx = s.app.ctx ∧ (psqDrive m w b s).app.plc = s.app.plc ∧
    (psqDrive m w b s).app.veh = s.app.veh ∧ (psqDrive m w b s).app.server = s.app.server ∧
    (psqDrive m w b s).app.journal = s.app.journal ∧ (psqDrive m w b s).app.tack = s.app.tack ∧
    (psqDrive m w b s).cold = s.cold ∧ (psqDrive m w b s).coldMr = s.coldMr ∧
    (psqDrive m w b s).trial = s.trial ∧ (psqDrive m w b s).bridle = s.bridle ∧
    (psqDrive m w b s).power.safe = s.power.safe ∧ (psqDrive m w b s).power.clkOk = s.power.clkOk ∧
    (psqDrive m w b s).power.report = s.power.report ∧
    (psqDrive m w b s).power.hbRun = s.power.hbRun ∧
    (psqDrive m w b s).power.vload = s.power.vload ∧
    (psqDrive m w b s).power.vpilp = s.power.vpilp ∧
    (psqDrive m w b s).power.vpiln = s.power.vpiln ∧ (psqDrive m w b s).power.vdrv = s.power.vdrv ∧
    (psqDrive m w b s).power.pfin = s.power.pfin ∧ (psqDrive m w b s).power.coils = s.power.coils ∧
    (psqDrive m w b s).power.loads = s.power.loads ∧
    (psqDrive m w b s).power.pilots = s.power.pilots ∧
    (psqDrive m w b s).power.trimmed = s.power.trimmed ∧
    (psqDrive m w b s).power.period = s.power.period ∧
    (psqDrive m w b s).power.pilRebuilt = s.power.pilRebuilt ∧
    (psqDrive m w b s).power.tsLatch = s.power.tsLatch ∧
    (psqDrive m w b s).power.protLock = s.power.protLock ∧
    (psqDrive m w b s).power.retryWin = s.power.retryWin ∧
    (psqDrive m w b s).power.retryMax = s.power.retryMax ∧
    (psqDrive m w b s).power.test = s.power.test ∧ (psqDrive m w b s).power.run = s.power.run ∧
    (psqDrive m w b s).power.qtemp = s.power.qtemp ∧
    (psqDrive m w b s).power.qband = s.power.qband ∧ (psqDrive m w b s).power.qchg = s.power.qchg ∧
    (psqDrive m w b s).power.sum = s.power.sum ∧
    (psqDrive m w b s).power.sumOver = s.power.sumOver ∧ (psqDrive m w b s).power.rc = s.power.rc ∧
    (psqDrive m w b s).power.im = s.power.im ∧ (psqDrive m w b s).power.sto = s.power.sto ∧
    (psqDrive m w b s).power.seq = s.power.seq ∧
    (psqDrive m w b s).power.seqPerm = s.power.seqPerm ∧
    (psqDrive m w b s).power.seqProx = s.power.seqProx ∧
    (psqDrive m w b s).power.psqDue = s.power.psqDue ∧
    (psqDrive m w b s).power.fields = s.power.fields ∧
    (psqDrive m w b s).power.lines = s.power.lines ∧
    (psqDrive m w b s).power.readers = s.power.readers ∧
    (psqDrive m w b s).power.tags = s.power.tags ∧ (psqDrive m w b s).die = s.die ∧
    (psqDrive m w b s).fuses = s.fuses ∧ (psqDrive m w b s).obj = s.obj ∧
    (psqDrive m w b s).flash = s.flash ∧ (psqDrive m w b s).sec = s.sec ∧
    (psqDrive m w b s).fresh = s.fresh ∧ (psqDrive m w b s).pending = s.pending := by
  unfold psqDrive; dsimp only; split <;> simp

@[simp] theorem clearFrames_same (m : Nat) (s : State) :
    (clearFrames m s).app.clk = s.app.clk ∧ (clearFrames m s).app.bkl = s.app.bkl ∧
    (clearFrames m s).app.mbx = s.app.mbx ∧ (clearFrames m s).app.pmc = s.app.pmc ∧
    (clearFrames m s).app.hrn = s.app.hrn ∧ (clearFrames m s).app.girth = s.app.girth ∧
    (clearFrames m s).app.harts = s.app.harts ∧ (clearFrames m s).app.mem = s.app.mem ∧
    (clearFrames m s).app.lane = s.app.lane ∧ (clearFrames m s).app.link = s.app.link ∧
    (clearFrames m s).app.sl = s.app.sl ∧ (clearFrames m s).app.eng = s.app.eng ∧
    (clearFrames m s).app.ctx = s.app.ctx ∧ (clearFrames m s).app.plc = s.app.plc ∧
    (clearFrames m s).app.veh = s.app.veh ∧ (clearFrames m s).app.server = s.app.server ∧
    (clearFrames m s).app.journal = s.app.journal ∧ (clearFrames m s).app.tack = s.app.tack ∧
    (clearFrames m s).cold = s.cold ∧ (clearFrames m s).coldMr = s.coldMr ∧
    (clearFrames m s).trial = s.trial ∧ (clearFrames m s).bridle = s.bridle ∧
    (clearFrames m s).power = s.power ∧ (clearFrames m s).die.running = s.die.running ∧
    (clearFrames m s).die.inReset = s.die.inReset ∧ (clearFrames m s).die.link = s.die.link ∧
    (clearFrames m s).die.agreedAt = s.die.agreedAt ∧ (clearFrames m s).die.cur = s.die.cur ∧
    (clearFrames m s).die.saved = s.die.saved ∧ (clearFrames m s).die.met = s.die.met ∧
    (clearFrames m s).die.legal = s.die.legal ∧ (clearFrames m s).die.pf = s.die.pf ∧
    (clearFrames m s).die.pfSaved = s.die.pfSaved ∧ (clearFrames m s).die.obj = s.die.obj ∧
    (clearFrames m s).die.staging = s.die.staging ∧ (clearFrames m s).die.sel = s.die.sel ∧
    (clearFrames m s).die.noticed = s.die.noticed ∧ (clearFrames m s).die.key = s.die.key ∧
    (clearFrames m s).fuses = s.fuses ∧ (clearFrames m s).obj = s.obj ∧
    (clearFrames m s).flash = s.flash ∧ (clearFrames m s).sec = s.sec ∧
    (clearFrames m s).fresh = s.fresh ∧ (clearFrames m s).pending = s.pending := by
  simp [clearFrames]

@[simp] theorem panelStopped_same (m : Nat) (s : State) :
    (panelStopped m s).app.clk = s.app.clk ∧ (panelStopped m s).app.bkl = s.app.bkl ∧
    (panelStopped m s).app.mbx = s.app.mbx ∧ (panelStopped m s).app.pmc = s.app.pmc ∧
    (panelStopped m s).app.hrn = s.app.hrn ∧ (panelStopped m s).app.girth = s.app.girth ∧
    (panelStopped m s).app.harts = s.app.harts ∧ (panelStopped m s).app.mem = s.app.mem ∧
    (panelStopped m s).app.lane = s.app.lane ∧ (panelStopped m s).app.link = s.app.link ∧
    (panelStopped m s).app.sl = s.app.sl ∧ (panelStopped m s).app.eng = s.app.eng ∧
    (panelStopped m s).app.ctx = s.app.ctx ∧ (panelStopped m s).app.plc = s.app.plc ∧
    (panelStopped m s).app.veh = s.app.veh ∧ (panelStopped m s).app.server = s.app.server ∧
    (panelStopped m s).app.journal = s.app.journal ∧ (panelStopped m s).app.tack = s.app.tack ∧
    (panelStopped m s).cold = s.cold ∧ (panelStopped m s).coldMr = s.coldMr ∧
    (panelStopped m s).trial = s.trial ∧ (panelStopped m s).bridle = s.bridle ∧
    (panelStopped m s).power.safe = s.power.safe ∧ (panelStopped m s).power.clkOk = s.power.clkOk ∧
    (panelStopped m s).power.report = s.power.report ∧
    (panelStopped m s).power.hbRun = s.power.hbRun ∧
    (panelStopped m s).power.vload = s.power.vload ∧
    (panelStopped m s).power.vpilp = s.power.vpilp ∧
    (panelStopped m s).power.vpiln = s.power.vpiln ∧ (panelStopped m s).power.vdrv = s.power.vdrv ∧
    (panelStopped m s).power.pfin = s.power.pfin ∧ (panelStopped m s).power.coils = s.power.coils ∧
    (panelStopped m s).power.loads = s.power.loads ∧
    (panelStopped m s).power.pilots = s.power.pilots ∧
    (panelStopped m s).power.trimmed = s.power.trimmed ∧
    (panelStopped m s).power.period = s.power.period ∧
    (panelStopped m s).power.pilRebuilt = s.power.pilRebuilt ∧
    (panelStopped m s).power.tsLatch = s.power.tsLatch ∧
    (panelStopped m s).power.protLock = s.power.protLock ∧
    (panelStopped m s).power.retryWin = s.power.retryWin ∧
    (panelStopped m s).power.retryMax = s.power.retryMax ∧
    (panelStopped m s).power.test = s.power.test ∧ (panelStopped m s).power.run = s.power.run ∧
    (panelStopped m s).power.qtemp = s.power.qtemp ∧
    (panelStopped m s).power.qband = s.power.qband ∧ (panelStopped m s).power.qchg = s.power.qchg ∧
    (panelStopped m s).power.sum = s.power.sum ∧
    (panelStopped m s).power.sumOver = s.power.sumOver ∧ (panelStopped m s).power.rc = s.power.rc ∧
    (panelStopped m s).power.im = s.power.im ∧ (panelStopped m s).power.sto = s.power.sto ∧
    (panelStopped m s).power.seq = s.power.seq ∧
    (panelStopped m s).power.seqPerm = s.power.seqPerm ∧
    (panelStopped m s).power.seqProx = s.power.seqProx ∧
    (panelStopped m s).power.psqDue = s.power.psqDue ∧
    (panelStopped m s).power.fields = s.power.fields ∧
    (panelStopped m s).power.lines = s.power.lines ∧
    (panelStopped m s).power.readers = s.power.readers ∧
    (panelStopped m s).power.tags = s.power.tags ∧ (panelStopped m s).die.running = s.die.running ∧
    (panelStopped m s).die.inReset = s.die.inReset ∧
    (panelStopped m s).die.agreedAt = s.die.agreedAt ∧ (panelStopped m s).die.saved = s.die.saved ∧
    (panelStopped m s).die.met = s.die.met ∧ (panelStopped m s).die.legal = s.die.legal ∧
    (panelStopped m s).die.pf = s.die.pf ∧ (panelStopped m s).die.pfSaved = s.die.pfSaved ∧
    (panelStopped m s).die.obj = s.die.obj ∧ (panelStopped m s).die.staging = s.die.staging ∧
    (panelStopped m s).die.sel = s.die.sel ∧ (panelStopped m s).die.noticed = s.die.noticed ∧
    (panelStopped m s).die.key = s.die.key ∧ (panelStopped m s).fuses = s.fuses ∧
    (panelStopped m s).obj = s.obj ∧ (panelStopped m s).flash = s.flash ∧
    (panelStopped m s).sec = s.sec ∧ (panelStopped m s).pending = s.pending := by
  unfold panelStopped; dsimp only; split <;> simp

@[simp] theorem orderlyStop_same (m : Nat) (s : State) :
    (orderlyStop m s).app.clk = s.app.clk ∧ (orderlyStop m s).app.bkl = s.app.bkl ∧
    (orderlyStop m s).app.mbx = s.app.mbx ∧ (orderlyStop m s).app.pmc = s.app.pmc ∧
    (orderlyStop m s).app.hrn = s.app.hrn ∧ (orderlyStop m s).app.girth = s.app.girth ∧
    (orderlyStop m s).app.harts = s.app.harts ∧ (orderlyStop m s).app.mem = s.app.mem ∧
    (orderlyStop m s).app.lane = s.app.lane ∧ (orderlyStop m s).app.link = s.app.link ∧
    (orderlyStop m s).app.sl = s.app.sl ∧ (orderlyStop m s).app.eng = s.app.eng ∧
    (orderlyStop m s).app.ctx = s.app.ctx ∧ (orderlyStop m s).app.plc = s.app.plc ∧
    (orderlyStop m s).app.veh = s.app.veh ∧ (orderlyStop m s).app.server = s.app.server ∧
    (orderlyStop m s).app.journal = s.app.journal ∧ (orderlyStop m s).app.tack = s.app.tack ∧
    (orderlyStop m s).cold = s.cold ∧ (orderlyStop m s).coldMr = s.coldMr ∧
    (orderlyStop m s).trial = s.trial ∧ (orderlyStop m s).bridle = s.bridle ∧
    (orderlyStop m s).power.safe = s.power.safe ∧ (orderlyStop m s).power.clkOk = s.power.clkOk ∧
    (orderlyStop m s).power.report = s.power.report ∧
    (orderlyStop m s).power.hbRun = s.power.hbRun ∧ (orderlyStop m s).power.vload = s.power.vload ∧
    (orderlyStop m s).power.vpilp = s.power.vpilp ∧ (orderlyStop m s).power.vpiln = s.power.vpiln ∧
    (orderlyStop m s).power.vdrv = s.power.vdrv ∧ (orderlyStop m s).power.pfin = s.power.pfin ∧
    (orderlyStop m s).power.coils = s.power.coils ∧ (orderlyStop m s).power.loads = s.power.loads ∧
    (orderlyStop m s).power.pilots = s.power.pilots ∧
    (orderlyStop m s).power.trimmed = s.power.trimmed ∧
    (orderlyStop m s).power.period = s.power.period ∧
    (orderlyStop m s).power.pilRebuilt = s.power.pilRebuilt ∧
    (orderlyStop m s).power.tsLatch = s.power.tsLatch ∧
    (orderlyStop m s).power.protLock = s.power.protLock ∧
    (orderlyStop m s).power.retryWin = s.power.retryWin ∧
    (orderlyStop m s).power.retryMax = s.power.retryMax ∧
    (orderlyStop m s).power.test = s.power.test ∧ (orderlyStop m s).power.run = s.power.run ∧
    (orderlyStop m s).power.qtemp = s.power.qtemp ∧ (orderlyStop m s).power.qband = s.power.qband ∧
    (orderlyStop m s).power.qchg = s.power.qchg ∧ (orderlyStop m s).power.sum = s.power.sum ∧
    (orderlyStop m s).power.sumOver = s.power.sumOver ∧ (orderlyStop m s).power.rc = s.power.rc ∧
    (orderlyStop m s).power.im = s.power.im ∧ (orderlyStop m s).power.sto = s.power.sto ∧
    (orderlyStop m s).power.seq = s.power.seq ∧ (orderlyStop m s).power.seqPerm = s.power.seqPerm ∧
    (orderlyStop m s).power.seqProx = s.power.seqProx ∧
    (orderlyStop m s).power.psqDue = s.power.psqDue ∧
    (orderlyStop m s).power.fields = s.power.fields ∧
    (orderlyStop m s).power.lines = s.power.lines ∧
    (orderlyStop m s).power.readers = s.power.readers ∧
    (orderlyStop m s).power.tags = s.power.tags ∧ (orderlyStop m s).die.running = s.die.running ∧
    (orderlyStop m s).die.inReset = s.die.inReset ∧
    (orderlyStop m s).die.agreedAt = s.die.agreedAt ∧ (orderlyStop m s).die.saved = s.die.saved ∧
    (orderlyStop m s).die.met = s.die.met ∧ (orderlyStop m s).die.legal = s.die.legal ∧
    (orderlyStop m s).die.pf = s.die.pf ∧ (orderlyStop m s).die.pfSaved = s.die.pfSaved ∧
    (orderlyStop m s).die.obj = s.die.obj ∧ (orderlyStop m s).die.staging = s.die.staging ∧
    (orderlyStop m s).die.sel = s.die.sel ∧ (orderlyStop m s).die.noticed = s.die.noticed ∧
    (orderlyStop m s).die.key = s.die.key ∧ (orderlyStop m s).fuses = s.fuses ∧
    (orderlyStop m s).obj = s.obj ∧ (orderlyStop m s).flash = s.flash ∧
    (orderlyStop m s).sec = s.sec ∧ (orderlyStop m s).pending = s.pending := by
  unfold orderlyStop; split <;> simp

@[simp] theorem panelsLinked_same (s : State) :
    (panelsLinked s).app.clk = s.app.clk ∧ (panelsLinked s).app.bkl = s.app.bkl ∧
    (panelsLinked s).app.mbx = s.app.mbx ∧ (panelsLinked s).app.pmc = s.app.pmc ∧
    (panelsLinked s).app.hrn = s.app.hrn ∧ (panelsLinked s).app.girth = s.app.girth ∧
    (panelsLinked s).app.harts = s.app.harts ∧ (panelsLinked s).app.mem = s.app.mem ∧
    (panelsLinked s).app.lane = s.app.lane ∧ (panelsLinked s).app.link = s.app.link ∧
    (panelsLinked s).app.sl = s.app.sl ∧ (panelsLinked s).app.eng = s.app.eng ∧
    (panelsLinked s).app.ctx = s.app.ctx ∧ (panelsLinked s).app.plc = s.app.plc ∧
    (panelsLinked s).app.veh = s.app.veh ∧ (panelsLinked s).app.server = s.app.server ∧
    (panelsLinked s).app.journal = s.app.journal ∧ (panelsLinked s).app.tack = s.app.tack ∧
    (panelsLinked s).cold = s.cold ∧ (panelsLinked s).coldMr = s.coldMr ∧
    (panelsLinked s).trial = s.trial ∧ (panelsLinked s).bridle = s.bridle ∧
    (panelsLinked s).power.safe = s.power.safe ∧ (panelsLinked s).power.clkOk = s.power.clkOk ∧
    (panelsLinked s).power.report = s.power.report ∧ (panelsLinked s).power.hbRun = s.power.hbRun ∧
    (panelsLinked s).power.vload = s.power.vload ∧ (panelsLinked s).power.vpilp = s.power.vpilp ∧
    (panelsLinked s).power.vpiln = s.power.vpiln ∧ (panelsLinked s).power.vdrv = s.power.vdrv ∧
    (panelsLinked s).power.pfin = s.power.pfin ∧ (panelsLinked s).power.coils = s.power.coils ∧
    (panelsLinked s).power.loads = s.power.loads ∧ (panelsLinked s).power.pilots = s.power.pilots ∧
    (panelsLinked s).power.trimmed = s.power.trimmed ∧
    (panelsLinked s).power.period = s.power.period ∧
    (panelsLinked s).power.pilRebuilt = s.power.pilRebuilt ∧
    (panelsLinked s).power.tsLatch = s.power.tsLatch ∧
    (panelsLinked s).power.protLock = s.power.protLock ∧
    (panelsLinked s).power.retryWin = s.power.retryWin ∧
    (panelsLinked s).power.retryMax = s.power.retryMax ∧
    (panelsLinked s).power.test = s.power.test ∧ (panelsLinked s).power.run = s.power.run ∧
    (panelsLinked s).power.qtemp = s.power.qtemp ∧ (panelsLinked s).power.qband = s.power.qband ∧
    (panelsLinked s).power.qchg = s.power.qchg ∧ (panelsLinked s).power.sum = s.power.sum ∧
    (panelsLinked s).power.sumOver = s.power.sumOver ∧ (panelsLinked s).power.rc = s.power.rc ∧
    (panelsLinked s).power.im = s.power.im ∧ (panelsLinked s).power.sto = s.power.sto ∧
    (panelsLinked s).power.seq = s.power.seq ∧ (panelsLinked s).power.seqPerm = s.power.seqPerm ∧
    (panelsLinked s).power.seqProx = s.power.seqProx ∧
    (panelsLinked s).power.psqDue = s.power.psqDue ∧
    (panelsLinked s).power.fields = s.power.fields ∧ (panelsLinked s).power.lines = s.power.lines ∧
    (panelsLinked s).power.readers = s.power.readers ∧ (panelsLinked s).power.tags = s.power.tags ∧
    (panelsLinked s).die.running = s.die.running ∧ (panelsLinked s).die.inReset = s.die.inReset ∧
    (panelsLinked s).die.agreedAt = s.die.agreedAt ∧ (panelsLinked s).die.saved = s.die.saved ∧
    (panelsLinked s).die.met = s.die.met ∧ (panelsLinked s).die.legal = s.die.legal ∧
    (panelsLinked s).die.pf = s.die.pf ∧ (panelsLinked s).die.pfSaved = s.die.pfSaved ∧
    (panelsLinked s).die.obj = s.die.obj ∧ (panelsLinked s).die.staging = s.die.staging ∧
    (panelsLinked s).die.sel = s.die.sel ∧ (panelsLinked s).die.noticed = s.die.noticed ∧
    (panelsLinked s).die.key = s.die.key ∧ (panelsLinked s).fuses = s.fuses ∧
    (panelsLinked s).obj = s.obj ∧ (panelsLinked s).flash = s.flash ∧
    (panelsLinked s).sec = s.sec ∧ (panelsLinked s).pending = s.pending := by
  unfold panelsLinked
  generalize List.range 2 = l
  induction l generalizing s with
  | nil => simp
  | cons a l ih =>
    simp only [List.foldl_cons]
    have := ih (if (s.panel a).wait = .stop then panelStopped a s else s)
    split at this <;> simp_all

end Sys2Proof.Machine
end

