-- ==== Sys2Proof/Laws/Motion.lean ====
section
/-!
SUPPORT. What the Bridle's operations on points, devices and groups can change (15 R380 to R385).
-/
set_option Elab.async false
set_option linter.all false
namespace Sys2Proof.Machine

@[simp] theorem setCause_parts (p : Nat) (c : HoldCause) (s : State) :
    (setCause p c s).bridle.st = s.bridle.st ∧ (setCause p c s).bridle.cause = s.bridle.cause ∧
    (setCause p c s).bridle.slot = s.bridle.slot ∧
    (setCause p c s).bridle.unsealed = s.bridle.unsealed ∧
    (setCause p c s).bridle.restarts = s.bridle.restarts ∧
    (setCause p c s).bridle.safeNLow = s.bridle.safeNLow ∧
    (setCause p c s).bridle.hbOn = s.bridle.hbOn ∧
    (setCause p c s).bridle.oscFail = s.bridle.oscFail ∧
    (setCause p c s).bridle.inReset = s.bridle.inReset ∧
    (setCause p c s).bridle.loaded = s.bridle.loaded ∧
    (setCause p c s).bridle.time = s.bridle.time ∧ (setCause p c s).bridle.chal = s.bridle.chal ∧
    (setCause p c s).bridle.postTag = s.bridle.postTag ∧
    (setCause p c s).bridle.postType = s.bridle.postType ∧
    (setCause p c s).bridle.postSt = s.bridle.postSt ∧ (setCause p c s).bridle.dev = s.bridle.dev ∧
    (setCause p c s).bridle.si = s.bridle.si ∧
    (setCause p c s).bridle.stoFault = s.bridle.stoFault ∧
    (setCause p c s).bridle.stoRel = s.bridle.stoRel ∧
    (setCause p c s).bridle.latched = s.bridle.latched ∧
    (setCause p c s).bridle.running = s.bridle.running ∧
    (setCause p c s).bridle.discard = s.bridle.discard ∧ (setCause p c s).bridle.rx = s.bridle.rx ∧
    (setCause p c s).bridle.tx = s.bridle.tx ∧
    (setCause p c s).bridle.edgeIgnored = s.bridle.edgeIgnored ∧
    (setCause p c s).bridle.post = s.bridle.post ∧
    (setCause p c s).bridle.postStatus = s.bridle.postStatus ∧
    (setCause p c s).bridle.fifo = s.bridle.fifo ∧
    (setCause p c s).bridle.window = s.bridle.window ∧ (setCause p c s).bridle.cfg = s.bridle.cfg ∧
    (setCause p c s).bridle.cfgBytes = s.bridle.cfgBytes ∧
    (setCause p c s).bridle.mem = s.bridle.mem ∧ (setCause p c s).bridle.hart = s.bridle.hart ∧
    (setCause p c s).bridle.mirBad = s.bridle.mirBad := by
  unfold setCause; split <;> simp [note, State.updBp]

@[simp] theorem clearCause_parts (p : Nat) (c : HoldCause) (s : State) :
    (clearCause p c s).bridle.st = s.bridle.st ∧ (clearCause p c s).bridle.cause = s.bridle.cause ∧
    (clearCause p c s).bridle.slot = s.bridle.slot ∧
    (clearCause p c s).bridle.unsealed = s.bridle.unsealed ∧
    (clearCause p c s).bridle.restarts = s.bridle.restarts ∧
    (clearCause p c s).bridle.safeNLow = s.bridle.safeNLow ∧
    (clearCause p c s).bridle.hbOn = s.bridle.hbOn ∧
    (clearCause p c s).bridle.oscFail = s.bridle.oscFail ∧
    (clearCause p c s).bridle.inReset = s.bridle.inReset ∧
    (clearCause p c s).bridle.loaded = s.bridle.loaded ∧
    (clearCause p c s).bridle.time = s.bridle.time ∧
    (clearCause p c s).bridle.chal = s.bridle.chal ∧
    (clearCause p c s).bridle.postTag = s.bridle.postTag ∧
    (clearCause p c s).bridle.postType = s.bridle.postType ∧
    (clearCause p c s).bridle.postSt = s.bridle.postSt ∧
    (clearCause p c s).bridle.dev = s.bridle.dev ∧ (clearCause p c s).bridle.si = s.bridle.si ∧
    (clearCause p c s).bridle.stoFault = s.bridle.stoFault ∧
    (clearCause p c s).bridle.stoRel = s.bridle.stoRel ∧
    (clearCause p c s).bridle.latched = s.bridle.latched ∧
    (clearCause p c s).bridle.running = s.bridle.running ∧
    (clearCause p c s).bridle.discard = s.bridle.discard ∧
    (clearCause p c s).bridle.rx = s.bridle.rx ∧ (clearCause p c s).bridle.tx = s.bridle.tx ∧
    (clearCause p c s).bridle.edgeIgnored = s.bridle.edgeIgnored ∧
    (clearCause p c s).bridle.post = s.bridle.post ∧
    (clearCause p c s).bridle.postStatus = s.bridle.postStatus ∧
    (clearCause p c s).bridle.fifo = s.bridle.fifo ∧
    (clearCause p c s).bridle.window = s.bridle.window ∧
    (clearCause p c s).bridle.cfg = s.bridle.cfg ∧
    (clearCause p c s).bridle.cfgBytes = s.bridle.cfgBytes ∧
    (clearCause p c s).bridle.mem = s.bridle.mem ∧ (clearCause p c s).bridle.hart = s.bridle.hart ∧
    (clearCause p c s).bridle.mirBad = s.bridle.mirBad := by
  unfold clearCause; split <;> simp [note, State.updBp]

@[simp] theorem stoSet_same (n : Nat) (b : Bool) (s : State) :
    (stoSet n b s).app.clk = s.app.clk ∧ (stoSet n b s).app.bkl = s.app.bkl ∧
    (stoSet n b s).app.mbx = s.app.mbx ∧ (stoSet n b s).app.pmc = s.app.pmc ∧
    (stoSet n b s).app.hrn = s.app.hrn ∧ (stoSet n b s).app.girth = s.app.girth ∧
    (stoSet n b s).app.harts = s.app.harts ∧ (stoSet n b s).app.mem = s.app.mem ∧
    (stoSet n b s).app.lane = s.app.lane ∧ (stoSet n b s).app.link = s.app.link ∧
    (stoSet n b s).app.sl = s.app.sl ∧ (stoSet n b s).app.eng = s.app.eng ∧
    (stoSet n b s).app.ctx = s.app.ctx ∧ (stoSet n b s).app.plc = s.app.plc ∧
    (stoSet n b s).app.veh = s.app.veh ∧ (stoSet n b s).app.server = s.app.server ∧
    (stoSet n b s).app.journal = s.app.journal ∧ (stoSet n b s).app.tack = s.app.tack ∧
    (stoSet n b s).cold = s.cold ∧ (stoSet n b s).coldMr = s.coldMr ∧
    (stoSet n b s).trial = s.trial ∧ (stoSet n b s).power.safe = s.power.safe ∧
    (stoSet n b s).power.clkOk = s.power.clkOk ∧ (stoSet n b s).power.report = s.power.report ∧
    (stoSet n b s).power.hbRun = s.power.hbRun ∧ (stoSet n b s).power.vload = s.power.vload ∧
    (stoSet n b s).power.vpilp = s.power.vpilp ∧ (stoSet n b s).power.vpiln = s.power.vpiln ∧
    (stoSet n b s).power.vdrv = s.power.vdrv ∧ (stoSet n b s).power.pfin = s.power.pfin ∧
    (stoSet n b s).power.coils = s.power.coils ∧ (stoSet n b s).power.loads = s.power.loads ∧
    (stoSet n b s).power.pilots = s.power.pilots ∧ (stoSet n b s).power.trimmed = s.power.trimmed ∧
    (stoSet n b s).power.period = s.power.period ∧
    (stoSet n b s).power.pilRebuilt = s.power.pilRebuilt ∧
    (stoSet n b s).power.tsLatch = s.power.tsLatch ∧
    (stoSet n b s).power.protLock = s.power.protLock ∧
    (stoSet n b s).power.retryWin = s.power.retryWin ∧
    (stoSet n b s).power.retryMax = s.power.retryMax ∧ (stoSet n b s).power.test = s.power.test ∧
    (stoSet n b s).power.run = s.power.run ∧ (stoSet n b s).power.qtemp = s.power.qtemp ∧
    (stoSet n b s).power.qband = s.power.qband ∧ (stoSet n b s).power.qchg = s.power.qchg ∧
    (stoSet n b s).power.sum = s.power.sum ∧ (stoSet n b s).power.sumOver = s.power.sumOver ∧
    (stoSet n b s).power.rc = s.power.rc ∧ (stoSet n b s).power.im = s.power.im ∧
    (stoSet n b s).power.seq = s.power.seq ∧ (stoSet n b s).power.seqPerm = s.power.seqPerm ∧
    (stoSet n b s).power.seqProx = s.power.seqProx ∧ (stoSet n b s).power.psq = s.power.psq ∧
    (stoSet n b s).power.psqDue = s.power.psqDue ∧ (stoSet n b s).power.fields = s.power.fields ∧
    (stoSet n b s).power.lines = s.power.lines ∧ (stoSet n b s).power.readers = s.power.readers ∧
    (stoSet n b s).power.tags = s.power.tags ∧ (stoSet n b s).die = s.die ∧
    (stoSet n b s).fuses = s.fuses ∧ (stoSet n b s).obj = s.obj ∧ (stoSet n b s).flash = s.flash ∧
    (stoSet n b s).sec = s.sec ∧ (stoSet n b s).fresh = s.fresh ∧ (stoSet n b s).pending = s.pending := by
  unfold stoSet; dsimp only; split <;> simp

@[simp] theorem stoSet_parts (n : Nat) (b : Bool) (s : State) :
    (stoSet n b s).bridle.st = s.bridle.st ∧ (stoSet n b s).bridle.cause = s.bridle.cause ∧
    (stoSet n b s).bridle.slot = s.bridle.slot ∧
    (stoSet n b s).bridle.unsealed = s.bridle.unsealed ∧
    (stoSet n b s).bridle.restarts = s.bridle.restarts ∧
    (stoSet n b s).bridle.safeNLow = s.bridle.safeNLow ∧
    (stoSet n b s).bridle.hbOn = s.bridle.hbOn ∧ (stoSet n b s).bridle.oscFail = s.bridle.oscFail ∧
    (stoSet n b s).bridle.inReset = s.bridle.inReset ∧
    (stoSet n b s).bridle.loaded = s.bridle.loaded ∧ (stoSet n b s).bridle.time = s.bridle.time ∧
    (stoSet n b s).bridle.chal = s.bridle.chal ∧ (stoSet n b s).bridle.postTag = s.bridle.postTag ∧
    (stoSet n b s).bridle.postType = s.bridle.postType ∧
    (stoSet n b s).bridle.postSt = s.bridle.postSt ∧
    (stoSet n b s).bridle.overrun = s.bridle.overrun ∧
    (stoSet n b s).bridle.acked = s.bridle.acked ∧ (stoSet n b s).bridle.newest = s.bridle.newest ∧
    (stoSet n b s).bridle.notes = s.bridle.notes ∧ (stoSet n b s).bridle.pts = s.bridle.pts ∧
    (stoSet n b s).bridle.dev = s.bridle.dev ∧ (stoSet n b s).bridle.si = s.bridle.si ∧
    (stoSet n b s).bridle.stoFault = s.bridle.stoFault ∧
    (stoSet n b s).bridle.latched = s.bridle.latched ∧
    (stoSet n b s).bridle.running = s.bridle.running ∧
    (stoSet n b s).bridle.discard = s.bridle.discard ∧ (stoSet n b s).bridle.rx = s.bridle.rx ∧
    (stoSet n b s).bridle.tx = s.bridle.tx ∧
    (stoSet n b s).bridle.edgeIgnored = s.bridle.edgeIgnored ∧
    (stoSet n b s).bridle.post = s.bridle.post ∧
    (stoSet n b s).bridle.postStatus = s.bridle.postStatus ∧
    (stoSet n b s).bridle.fifo = s.bridle.fifo ∧ (stoSet n b s).bridle.window = s.bridle.window ∧
    (stoSet n b s).bridle.cfg = s.bridle.cfg ∧ (stoSet n b s).bridle.cfgBytes = s.bridle.cfgBytes ∧
    (stoSet n b s).bridle.mem = s.bridle.mem ∧ (stoSet n b s).bridle.hart = s.bridle.hart ∧
    (stoSet n b s).bridle.mirBad = s.bridle.mirBad := by
  unfold stoSet; dsimp only; split <;> simp

@[simp] theorem stoFault_same (n : Nat) (s : State) :
    (stoFault n s).app.clk = s.app.clk ∧ (stoFault n s).app.mbx = s.app.mbx ∧
    (stoFault n s).app.pmc = s.app.pmc ∧ (stoFault n s).app.hrn = s.app.hrn ∧
    (stoFault n s).app.girth = s.app.girth ∧ (stoFault n s).app.harts = s.app.harts ∧
    (stoFault n s).app.mem = s.app.mem ∧ (stoFault n s).app.lane = s.app.lane ∧
    (stoFault n s).app.link = s.app.link ∧ (stoFault n s).app.sl = s.app.sl ∧
    (stoFault n s).app.eng = s.app.eng ∧ (stoFault n s).app.ctx = s.app.ctx ∧
    (stoFault n s).app.plc = s.app.plc ∧ (stoFault n s).app.veh = s.app.veh ∧
    (stoFault n s).app.server = s.app.server ∧ (stoFault n s).app.journal = s.app.journal ∧
    (stoFault n s).app.tack = s.app.tack ∧ (stoFault n s).cold = s.cold ∧
    (stoFault n s).coldMr = s.coldMr ∧ (stoFault n s).trial = s.trial ∧
    (stoFault n s).power.safe = s.power.safe ∧ (stoFault n s).power.clkOk = s.power.clkOk ∧
    (stoFault n s).power.report = s.power.report ∧ (stoFault n s).power.hbRun = s.power.hbRun ∧
    (stoFault n s).power.vload = s.power.vload ∧ (stoFault n s).power.vpilp = s.power.vpilp ∧
    (stoFault n s).power.vpiln = s.power.vpiln ∧ (stoFault n s).power.vdrv = s.power.vdrv ∧
    (stoFault n s).power.pfin = s.power.pfin ∧ (stoFault n s).power.coils = s.power.coils ∧
    (stoFault n s).power.loads = s.power.loads ∧ (stoFault n s).power.pilots = s.power.pilots ∧
    (stoFault n s).power.trimmed = s.power.trimmed ∧ (stoFault n s).power.period = s.power.period ∧
    (stoFault n s).power.pilRebuilt = s.power.pilRebuilt ∧
    (stoFault n s).power.tsLatch = s.power.tsLatch ∧
    (stoFault n s).power.protLock = s.power.protLock ∧
    (stoFault n s).power.retryWin = s.power.retryWin ∧
    (stoFault n s).power.retryMax = s.power.retryMax ∧ (stoFault n s).power.test = s.power.test ∧
    (stoFault n s).power.run = s.power.run ∧ (stoFault n s).power.qtemp = s.power.qtemp ∧
    (stoFault n s).power.qband = s.power.qband ∧ (stoFault n s).power.qchg = s.power.qchg ∧
    (stoFault n s).power.sum = s.power.sum ∧ (stoFault n s).power.sumOver = s.power.sumOver ∧
    (stoFault n s).power.rc = s.power.rc ∧ (stoFault n s).power.im = s.power.im ∧
    (stoFault n s).power.seq = s.power.seq ∧ (stoFault n s).power.seqPerm = s.power.seqPerm ∧
    (stoFault n s).power.seqProx = s.power.seqProx ∧ (stoFault n s).power.psq = s.power.psq ∧
    (stoFault n s).power.psqDue = s.power.psqDue ∧ (stoFault n s).power.fields = s.power.fields ∧
    (stoFault n s).power.lines = s.power.lines ∧ (stoFault n s).power.readers = s.power.readers ∧
    (stoFault n s).power.tags = s.power.tags ∧ (stoFault n s).die = s.die ∧
    (stoFault n s).fuses = s.fuses ∧ (stoFault n s).obj = s.obj ∧ (stoFault n s).flash = s.flash ∧
    (stoFault n s).sec = s.sec ∧ (stoFault n s).fresh = s.fresh ∧ (stoFault n s).pending = s.pending := by
  unfold stoFault; split <;> simp [note]

@[simp] theorem stoFault_parts (n : Nat) (s : State) :
    (stoFault n s).bridle.st = s.bridle.st ∧ (stoFault n s).bridle.cause = s.bridle.cause ∧
    (stoFault n s).bridle.slot = s.bridle.slot ∧
    (stoFault n s).bridle.unsealed = s.bridle.unsealed ∧
    (stoFault n s).bridle.restarts = s.bridle.restarts ∧
    (stoFault n s).bridle.safeNLow = s.bridle.safeNLow ∧
    (stoFault n s).bridle.hbOn = s.bridle.hbOn ∧ (stoFault n s).bridle.oscFail = s.bridle.oscFail ∧
    (stoFault n s).bridle.inReset = s.bridle.inReset ∧
    (stoFault n s).bridle.loaded = s.bridle.loaded ∧ (stoFault n s).bridle.time = s.bridle.time ∧
    (stoFault n s).bridle.chal = s.bridle.chal ∧ (stoFault n s).bridle.postTag = s.bridle.postTag ∧
    (stoFault n s).bridle.postType = s.bridle.postType ∧
    (stoFault n s).bridle.postSt = s.bridle.postSt ∧ (stoFault n s).bridle.pts = s.bridle.pts ∧
    (stoFault n s).bridle.dev = s.bridle.dev ∧ (stoFault n s).bridle.si = s.bridle.si ∧
    (stoFault n s).bridle.latched = s.bridle.latched ∧
    (stoFault n s).bridle.running = s.bridle.running ∧
    (stoFault n s).bridle.discard = s.bridle.discard ∧ (stoFault n s).bridle.rx = s.bridle.rx ∧
    (stoFault n s).bridle.tx = s.bridle.tx ∧
    (stoFault n s).bridle.edgeIgnored = s.bridle.edgeIgnored ∧
    (stoFault n s).bridle.post = s.bridle.post ∧
    (stoFault n s).bridle.postStatus = s.bridle.postStatus ∧
    (stoFault n s).bridle.fifo = s.bridle.fifo ∧ (stoFault n s).bridle.window = s.bridle.window ∧
    (stoFault n s).bridle.cfg = s.bridle.cfg ∧ (stoFault n s).bridle.cfgBytes = s.bridle.cfgBytes ∧
    (stoFault n s).bridle.mem = s.bridle.mem ∧ (stoFault n s).bridle.hart = s.bridle.hart ∧
    (stoFault n s).bridle.mirBad = s.bridle.mirBad := by
  unfold stoFault; split <;> simp [note]

@[simp] theorem syncDevice_same (d : Nat) (s : State) :
    (syncDevice d s).app.clk = s.app.clk ∧ (syncDevice d s).app.mbx = s.app.mbx ∧
    (syncDevice d s).app.hrn = s.app.hrn ∧ (syncDevice d s).app.harts = s.app.harts ∧
    (syncDevice d s).app.mem = s.app.mem ∧ (syncDevice d s).app.lane = s.app.lane ∧
    (syncDevice d s).app.link = s.app.link ∧ (syncDevice d s).app.sl = s.app.sl ∧
    (syncDevice d s).app.eng = s.app.eng ∧ (syncDevice d s).app.ctx = s.app.ctx ∧
    (syncDevice d s).app.veh = s.app.veh ∧ (syncDevice d s).app.journal = s.app.journal ∧
    (syncDevice d s).app.tack = s.app.tack ∧ (syncDevice d s).cold = s.cold ∧
    (syncDevice d s).coldMr = s.coldMr ∧ (syncDevice d s).trial = s.trial ∧
    (syncDevice d s).power.safe = s.power.safe ∧ (syncDevice d s).power.clkOk = s.power.clkOk ∧
    (syncDevice d s).power.report = s.power.report ∧ (syncDevice d s).power.hbRun = s.power.hbRun ∧
    (syncDevice d s).power.vload = s.power.vload ∧ (syncDevice d s).power.vpilp = s.power.vpilp ∧
    (syncDevice d s).power.vpiln = s.power.vpiln ∧ (syncDevice d s).power.vdrv = s.power.vdrv ∧
    (syncDevice d s).power.pfin = s.power.pfin ∧ (syncDevice d s).power.trimmed = s.power.trimmed ∧
    (syncDevice d s).power.period = s.power.period ∧
    (syncDevice d s).power.pilRebuilt = s.power.pilRebuilt ∧
    (syncDevice d s).power.tsLatch = s.power.tsLatch ∧
    (syncDevice d s).power.protLock = s.power.protLock ∧
    (syncDevice d s).power.retryWin = s.power.retryWin ∧
    (syncDevice d s).power.retryMax = s.power.retryMax ∧
    (syncDevice d s).power.test = s.power.test ∧ (syncDevice d s).power.run = s.power.run ∧
    (syncDevice d s).power.qtemp = s.power.qtemp ∧ (syncDevice d s).power.qband = s.power.qband ∧
    (syncDevice d s).power.qchg = s.power.qchg ∧ (syncDevice d s).power.sum = s.power.sum ∧
    (syncDevice d s).power.sumOver = s.power.sumOver ∧ (syncDevice d s).power.rc = s.power.rc ∧
    (syncDevice d s).power.im = s.power.im ∧ (syncDevice d s).power.sto = s.power.sto ∧
    (syncDevice d s).power.seq = s.power.seq ∧ (syncDevice d s).power.seqPerm = s.power.seqPerm ∧
    (syncDevice d s).power.seqProx = s.power.seqProx ∧ (syncDevice d s).power.psq = s.power.psq ∧
    (syncDevice d s).power.psqDue = s.power.psqDue ∧
    (syncDevice d s).power.fields = s.power.fields ∧ (syncDevice d s).power.lines = s.power.lines ∧
    (syncDevice d s).power.readers = s.power.readers ∧ (syncDevice d s).power.tags = s.power.tags ∧
    (syncDevice d s).die = s.die ∧ (syncDevice d s).fuses = s.fuses ∧
    (syncDevice d s).obj = s.obj ∧ (syncDevice d s).flash = s.flash ∧
    (syncDevice d s).sec = s.sec ∧ (syncDevice d s).pending = s.pending := by
  unfold syncDevice; dsimp only; (repeat' split) <;> simp

@[simp] theorem syncDevice_parts (d : Nat) (s : State) :
    (syncDevice d s).bridle.st = s.bridle.st ∧ (syncDevice d s).bridle.cause = s.bridle.cause ∧
    (syncDevice d s).bridle.slot = s.bridle.slot ∧
    (syncDevice d s).bridle.unsealed = s.bridle.unsealed ∧
    (syncDevice d s).bridle.restarts = s.bridle.restarts ∧
    (syncDevice d s).bridle.safeNLow = s.bridle.safeNLow ∧
    (syncDevice d s).bridle.hbOn = s.bridle.hbOn ∧
    (syncDevice d s).bridle.oscFail = s.bridle.oscFail ∧
    (syncDevice d s).bridle.inReset = s.bridle.inReset ∧
    (syncDevice d s).bridle.loaded = s.bridle.loaded ∧
    (syncDevice d s).bridle.time = s.bridle.time ∧ (syncDevice d s).bridle.chal = s.bridle.chal ∧
    (syncDevice d s).bridle.postTag = s.bridle.postTag ∧
    (syncDevice d s).bridle.postType = s.bridle.postType ∧
    (syncDevice d s).bridle.postSt = s.bridle.postSt ∧ (syncDevice d s).bridle.dev = s.bridle.dev ∧
    (syncDevice d s).bridle.si = s.bridle.si ∧
    (syncDevice d s).bridle.stoFault = s.bridle.stoFault ∧
    (syncDevice d s).bridle.stoRel = s.bridle.stoRel ∧
    (syncDevice d s).bridle.latched = s.bridle.latched ∧
    (syncDevice d s).bridle.running = s.bridle.running ∧
    (syncDevice d s).bridle.discard = s.bridle.discard ∧ (syncDevice d s).bridle.rx = s.bridle.rx ∧
    (syncDevice d s).bridle.tx = s.bridle.tx ∧
    (syncDevice d s).bridle.edgeIgnored = s.bridle.edgeIgnored ∧
    (syncDevice d s).bridle.post = s.bridle.post ∧
    (syncDevice d s).bridle.postStatus = s.bridle.postStatus ∧
    (syncDevice d s).bridle.fifo = s.bridle.fifo ∧
    (syncDevice d s).bridle.window = s.bridle.window ∧ (syncDevice d s).bridle.cfg = s.bridle.cfg ∧
    (syncDevice d s).bridle.cfgBytes = s.bridle.cfgBytes ∧
    (syncDevice d s).bridle.mem = s.bridle.mem ∧ (syncDevice d s).bridle.hart = s.bridle.hart ∧
    (syncDevice d s).bridle.mirBad = s.bridle.mirBad := by
  unfold syncDevice; dsimp only; (repeat' split) <;> simp

@[simp] theorem devGo_same (d : Nat) (st : DevSt) (s : State) :
    (devGo d st s).app.clk = s.app.clk ∧ (devGo d st s).app.mbx = s.app.mbx ∧
    (devGo d st s).app.hrn = s.app.hrn ∧ (devGo d st s).app.harts = s.app.harts ∧
    (devGo d st s).app.mem = s.app.mem ∧ (devGo d st s).app.lane = s.app.lane ∧
    (devGo d st s).app.link = s.app.link ∧ (devGo d st s).app.sl = s.app.sl ∧
    (devGo d st s).app.eng = s.app.eng ∧ (devGo d st s).app.ctx = s.app.ctx ∧
    (devGo d st s).app.veh = s.app.veh ∧ (devGo d st s).app.journal = s.app.journal ∧
    (devGo d st s).app.tack = s.app.tack ∧ (devGo d st s).cold = s.cold ∧
    (devGo d st s).coldMr = s.coldMr ∧ (devGo d st s).trial = s.trial ∧
    (devGo d st s).power.safe = s.power.safe ∧ (devGo d st s).power.clkOk = s.power.clkOk ∧
    (devGo d st s).power.report = s.power.report ∧ (devGo d st s).power.hbRun = s.power.hbRun ∧
    (devGo d st s).power.vload = s.power.vload ∧ (devGo d st s).power.vpilp = s.power.vpilp ∧
    (devGo d st s).power.vpiln = s.power.vpiln ∧ (devGo d st s).power.vdrv = s.power.vdrv ∧
    (devGo d st s).power.pfin = s.power.pfin ∧ (devGo d st s).power.trimmed = s.power.trimmed ∧
    (devGo d st s).power.period = s.power.period ∧
    (devGo d st s).power.pilRebuilt = s.power.pilRebuilt ∧
    (devGo d st s).power.tsLatch = s.power.tsLatch ∧
    (devGo d st s).power.protLock = s.power.protLock ∧
    (devGo d st s).power.retryWin = s.power.retryWin ∧
    (devGo d st s).power.retryMax = s.power.retryMax ∧ (devGo d st s).power.test = s.power.test ∧
    (devGo d st s).power.run = s.power.run ∧ (devGo d st s).power.qtemp = s.power.qtemp ∧
    (devGo d st s).power.qband = s.power.qband ∧ (devGo d st s).power.qchg = s.power.qchg ∧
    (devGo d st s).power.sum = s.power.sum ∧ (devGo d st s).power.sumOver = s.power.sumOver ∧
    (devGo d st s).power.rc = s.power.rc ∧ (devGo d st s).power.im = s.power.im ∧
    (devGo d st s).power.sto = s.power.sto ∧ (devGo d st s).power.seq = s.power.seq ∧
    (devGo d st s).power.seqPerm = s.power.seqPerm ∧
    (devGo d st s).power.seqProx = s.power.seqProx ∧ (devGo d st s).power.psq = s.power.psq ∧
    (devGo d st s).power.psqDue = s.power.psqDue ∧ (devGo d st s).power.fields = s.power.fields ∧
    (devGo d st s).power.lines = s.power.lines ∧ (devGo d st s).power.readers = s.power.readers ∧
    (devGo d st s).power.tags = s.power.tags ∧ (devGo d st s).die = s.die ∧
    (devGo d st s).fuses = s.fuses ∧ (devGo d st s).obj = s.obj ∧ (devGo d st s).flash = s.flash ∧
    (devGo d st s).sec = s.sec ∧ (devGo d st s).pending = s.pending := by
  unfold devGo; split <;> simp [note, State.updDev]

@[simp] theorem devGo_parts (d : Nat) (st : DevSt) (s : State) :
    (devGo d st s).bridle.st = s.bridle.st ∧ (devGo d st s).bridle.cause = s.bridle.cause ∧
    (devGo d st s).bridle.slot = s.bridle.slot ∧
    (devGo d st s).bridle.unsealed = s.bridle.unsealed ∧
    (devGo d st s).bridle.restarts = s.bridle.restarts ∧
    (devGo d st s).bridle.safeNLow = s.bridle.safeNLow ∧
    (devGo d st s).bridle.hbOn = s.bridle.hbOn ∧ (devGo d st s).bridle.oscFail = s.bridle.oscFail ∧
    (devGo d st s).bridle.inReset = s.bridle.inReset ∧
    (devGo d st s).bridle.loaded = s.bridle.loaded ∧ (devGo d st s).bridle.time = s.bridle.time ∧
    (devGo d st s).bridle.chal = s.bridle.chal ∧ (devGo d st s).bridle.postTag = s.bridle.postTag ∧
    (devGo d st s).bridle.postType = s.bridle.postType ∧
    (devGo d st s).bridle.postSt = s.bridle.postSt ∧ (devGo d st s).bridle.si = s.bridle.si ∧
    (devGo d st s).bridle.stoFault = s.bridle.stoFault ∧
    (devGo d st s).bridle.stoRel = s.bridle.stoRel ∧
    (devGo d st s).bridle.latched = s.bridle.latched ∧
    (devGo d st s).bridle.running = s.bridle.running ∧
    (devGo d st s).bridle.discard = s.bridle.discard ∧ (devGo d st s).bridle.rx = s.bridle.rx ∧
    (devGo d st s).bridle.tx = s.bridle.tx ∧
    (devGo d st s).bridle.edgeIgnored = s.bridle.edgeIgnored ∧
    (devGo d st s).bridle.post = s.bridle.post ∧
    (devGo d st s).bridle.postStatus = s.bridle.postStatus ∧
    (devGo d st s).bridle.fifo = s.bridle.fifo ∧ (devGo d st s).bridle.window = s.bridle.window ∧
    (devGo d st s).bridle.cfg = s.bridle.cfg ∧ (devGo d st s).bridle.cfgBytes = s.bridle.cfgBytes ∧
    (devGo d st s).bridle.mem = s.bridle.mem ∧ (devGo d st s).bridle.hart = s.bridle.hart ∧
    (devGo d st s).bridle.mirBad = s.bridle.mirBad := by
  unfold devGo; split <;> simp [note, State.updDev]

@[simp] theorem devOff_same (d : Nat) (s : State) :
    (devOff d s).app.clk = s.app.clk ∧ (devOff d s).app.bkl = s.app.bkl ∧
    (devOff d s).app.mbx = s.app.mbx ∧ (devOff d s).app.pmc = s.app.pmc ∧
    (devOff d s).app.hrn = s.app.hrn ∧ (devOff d s).app.girth = s.app.girth ∧
    (devOff d s).app.harts = s.app.harts ∧ (devOff d s).app.mem = s.app.mem ∧
    (devOff d s).app.lane = s.app.lane ∧ (devOff d s).app.link = s.app.link ∧
    (devOff d s).app.sl = s.app.sl ∧ (devOff d s).app.eng = s.app.eng ∧
    (devOff d s).app.ctx = s.app.ctx ∧ (devOff d s).app.plc = s.app.plc ∧
    (devOff d s).app.veh = s.app.veh ∧ (devOff d s).app.server = s.app.server ∧
    (devOff d s).app.journal = s.app.journal ∧ (devOff d s).app.tack = s.app.tack ∧
    (devOff d s).cold = s.cold ∧ (devOff d s).coldMr = s.coldMr ∧ (devOff d s).trial = s.trial ∧
    (devOff d s).power.safe = s.power.safe ∧ (devOff d s).power.clkOk = s.power.clkOk ∧
    (devOff d s).power.report = s.power.report ∧ (devOff d s).power.hbRun = s.power.hbRun ∧
    (devOff d s).power.vload = s.power.vload ∧ (devOff d s).power.vpilp = s.power.vpilp ∧
    (devOff d s).power.vpiln = s.power.vpiln ∧ (devOff d s).power.vdrv = s.power.vdrv ∧
    (devOff d s).power.pfin = s.power.pfin ∧ (devOff d s).power.coils = s.power.coils ∧
    (devOff d s).power.loads = s.power.loads ∧ (devOff d s).power.pilots = s.power.pilots ∧
    (devOff d s).power.trimmed = s.power.trimmed ∧ (devOff d s).power.period = s.power.period ∧
    (devOff d s).power.pilRebuilt = s.power.pilRebuilt ∧
    (devOff d s).power.tsLatch = s.power.tsLatch ∧ (devOff d s).power.protLock = s.power.protLock ∧
    (devOff d s).power.retryWin = s.power.retryWin ∧
    (devOff d s).power.retryMax = s.power.retryMax ∧ (devOff d s).power.test = s.power.test ∧
    (devOff d s).power.run = s.power.run ∧ (devOff d s).power.qtemp = s.power.qtemp ∧
    (devOff d s).power.qband = s.power.qband ∧ (devOff d s).power.qchg = s.power.qchg ∧
    (devOff d s).power.sum = s.power.sum ∧ (devOff d s).power.sumOver = s.power.sumOver ∧
    (devOff d s).power.rc = s.power.rc ∧ (devOff d s).power.im = s.power.im ∧
    (devOff d s).power.seq = s.power.seq ∧ (devOff d s).power.seqPerm = s.power.seqPerm ∧
    (devOff d s).power.seqProx = s.power.seqProx ∧ (devOff d s).power.psq = s.power.psq ∧
    (devOff d s).power.psqDue = s.power.psqDue ∧ (devOff d s).power.fields = s.power.fields ∧
    (devOff d s).power.lines = s.power.lines ∧ (devOff d s).power.readers = s.power.readers ∧
    (devOff d s).power.tags = s.power.tags ∧ (devOff d s).die = s.die ∧
    (devOff d s).fuses = s.fuses ∧ (devOff d s).obj = s.obj ∧ (devOff d s).flash = s.flash ∧
    (devOff d s).sec = s.sec ∧ (devOff d s).fresh = s.fresh ∧ (devOff d s).pending = s.pending := by
  simp [devOff, State.updDev]

@[simp] theorem devOff_parts (d : Nat) (s : State) :
    (devOff d s).bridle.st = s.bridle.st ∧ (devOff d s).bridle.cause = s.bridle.cause ∧
    (devOff d s).bridle.slot = s.bridle.slot ∧ (devOff d s).bridle.unsealed = s.bridle.unsealed ∧
    (devOff d s).bridle.restarts = s.bridle.restarts ∧
    (devOff d s).bridle.safeNLow = s.bridle.safeNLow ∧ (devOff d s).bridle.hbOn = s.bridle.hbOn ∧
    (devOff d s).bridle.oscFail = s.bridle.oscFail ∧
    (devOff d s).bridle.inReset = s.bridle.inReset ∧ (devOff d s).bridle.loaded = s.bridle.loaded ∧
    (devOff d s).bridle.time = s.bridle.time ∧ (devOff d s).bridle.chal = s.bridle.chal ∧
    (devOff d s).bridle.postTag = s.bridle.postTag ∧
    (devOff d s).bridle.postType = s.bridle.postType ∧
    (devOff d s).bridle.postSt = s.bridle.postSt ∧ (devOff d s).bridle.overrun = s.bridle.overrun ∧
    (devOff d s).bridle.acked = s.bridle.acked ∧ (devOff d s).bridle.newest = s.bridle.newest ∧
    (devOff d s).bridle.notes = s.bridle.notes ∧ (devOff d s).bridle.pts = s.bridle.pts ∧
    (devOff d s).bridle.si = s.bridle.si ∧ (devOff d s).bridle.stoFault = s.bridle.stoFault ∧
    (devOff d s).bridle.latched = s.bridle.latched ∧
    (devOff d s).bridle.running = s.bridle.running ∧
    (devOff d s).bridle.discard = s.bridle.discard ∧ (devOff d s).bridle.rx = s.bridle.rx ∧
    (devOff d s).bridle.tx = s.bridle.tx ∧ (devOff d s).bridle.edgeIgnored = s.bridle.edgeIgnored ∧
    (devOff d s).bridle.post = s.bridle.post ∧
    (devOff d s).bridle.postStatus = s.bridle.postStatus ∧
    (devOff d s).bridle.fifo = s.bridle.fifo ∧ (devOff d s).bridle.window = s.bridle.window ∧
    (devOff d s).bridle.cfg = s.bridle.cfg ∧ (devOff d s).bridle.cfgBytes = s.bridle.cfgBytes ∧
    (devOff d s).bridle.mem = s.bridle.mem ∧ (devOff d s).bridle.hart = s.bridle.hart ∧
    (devOff d s).bridle.mirBad = s.bridle.mirBad := by
  simp [devOff, State.updDev]

@[simp] theorem devFault_same (d c : Nat) (s : State) :
    (devFault d c s).app.clk = s.app.clk ∧ (devFault d c s).app.mbx = s.app.mbx ∧
    (devFault d c s).app.hrn = s.app.hrn ∧ (devFault d c s).app.harts = s.app.harts ∧
    (devFault d c s).app.mem = s.app.mem ∧ (devFault d c s).app.lane = s.app.lane ∧
    (devFault d c s).app.link = s.app.link ∧ (devFault d c s).app.sl = s.app.sl ∧
    (devFault d c s).app.eng = s.app.eng ∧ (devFault d c s).app.ctx = s.app.ctx ∧
    (devFault d c s).app.veh = s.app.veh ∧ (devFault d c s).app.journal = s.app.journal ∧
    (devFault d c s).app.tack = s.app.tack ∧ (devFault d c s).cold = s.cold ∧
    (devFault d c s).coldMr = s.coldMr ∧ (devFault d c s).trial = s.trial ∧
    (devFault d c s).power.safe = s.power.safe ∧ (devFault d c s).power.clkOk = s.power.clkOk ∧
    (devFault d c s).power.report = s.power.report ∧ (devFault d c s).power.hbRun = s.power.hbRun ∧
    (devFault d c s).power.vload = s.power.vload ∧ (devFault d c s).power.vpilp = s.power.vpilp ∧
    (devFault d c s).power.vpiln = s.power.vpiln ∧ (devFault d c s).power.vdrv = s.power.vdrv ∧
    (devFault d c s).power.pfin = s.power.pfin ∧ (devFault d c s).power.trimmed = s.power.trimmed ∧
    (devFault d c s).power.period = s.power.period ∧
    (devFault d c s).power.pilRebuilt = s.power.pilRebuilt ∧
    (devFault d c s).power.tsLatch = s.power.tsLatch ∧
    (devFault d c s).power.protLock = s.power.protLock ∧
    (devFault d c s).power.retryWin = s.power.retryWin ∧
    (devFault d c s).power.retryMax = s.power.retryMax ∧
    (devFault d c s).power.test = s.power.test ∧ (devFault d c s).power.run = s.power.run ∧
    (devFault d c s).power.qtemp = s.power.qtemp ∧ (devFault d c s).power.qband = s.power.qband ∧
    (devFault d c s).power.qchg = s.power.qchg ∧ (devFault d c s).power.sum = s.power.sum ∧
    (devFault d c s).power.sumOver = s.power.sumOver ∧ (devFault d c s).power.rc = s.power.rc ∧
    (devFault d c s).power.im = s.power.im ∧ (devFault d c s).power.seq = s.power.seq ∧
    (devFault d c s).power.seqPerm = s.power.seqPerm ∧
    (devFault d c s).power.seqProx = s.power.seqProx ∧ (devFault d c s).power.psq = s.power.psq ∧
    (devFault d c s).power.psqDue = s.power.psqDue ∧
    (devFault d c s).power.fields = s.power.fields ∧ (devFault d c s).power.lines = s.power.lines ∧
    (devFault d c s).power.readers = s.power.readers ∧ (devFault d c s).power.tags = s.power.tags ∧
    (devFault d c s).die = s.die ∧ (devFault d c s).fuses = s.fuses ∧
    (devFault d c s).obj = s.obj ∧ (devFault d c s).flash = s.flash ∧
    (devFault d c s).sec = s.sec ∧ (devFault d c s).pending = s.pending := by
  simp [devFault, State.updDev]

@[simp] theorem devFault_parts (d c : Nat) (s : State) :
    (devFault d c s).bridle.st = s.bridle.st ∧ (devFault d c s).bridle.cause = s.bridle.cause ∧
    (devFault d c s).bridle.slot = s.bridle.slot ∧
    (devFault d c s).bridle.unsealed = s.bridle.unsealed ∧
    (devFault d c s).bridle.restarts = s.bridle.restarts ∧
    (devFault d c s).bridle.safeNLow = s.bridle.safeNLow ∧
    (devFault d c s).bridle.hbOn = s.bridle.hbOn ∧
    (devFault d c s).bridle.oscFail = s.bridle.oscFail ∧
    (devFault d c s).bridle.inReset = s.bridle.inReset ∧
    (devFault d c s).bridle.loaded = s.bridle.loaded ∧
    (devFault d c s).bridle.time = s.bridle.time ∧ (devFault d c s).bridle.chal = s.bridle.chal ∧
    (devFault d c s).bridle.postTag = s.bridle.postTag ∧
    (devFault d c s).bridle.postType = s.bridle.postType ∧
    (devFault d c s).bridle.postSt = s.bridle.postSt ∧ (devFault d c s).bridle.si = s.bridle.si ∧
    (devFault d c s).bridle.stoFault = s.bridle.stoFault ∧
    (devFault d c s).bridle.latched = s.bridle.latched ∧
    (devFault d c s).bridle.running = s.bridle.running ∧
    (devFault d c s).bridle.discard = s.bridle.discard ∧ (devFault d c s).bridle.rx = s.bridle.rx ∧
    (devFault d c s).bridle.tx = s.bridle.tx ∧
    (devFault d c s).bridle.edgeIgnored = s.bridle.edgeIgnored ∧
    (devFault d c s).bridle.post = s.bridle.post ∧
    (devFault d c s).bridle.postStatus = s.bridle.postStatus ∧
    (devFault d c s).bridle.fifo = s.bridle.fifo ∧
    (devFault d c s).bridle.window = s.bridle.window ∧ (devFault d c s).bridle.cfg = s.bridle.cfg ∧
    (devFault d c s).bridle.cfgBytes = s.bridle.cfgBytes ∧
    (devFault d c s).bridle.mem = s.bridle.mem ∧ (devFault d c s).bridle.hart = s.bridle.hart ∧
    (devFault d c s).bridle.mirBad = s.bridle.mirBad := by
  simp [devFault, State.updDev]

@[simp] theorem devInputs_same (d : Nat) (s : State) :
    (devInputs d s).app.clk = s.app.clk ∧ (devInputs d s).app.mbx = s.app.mbx ∧
    (devInputs d s).app.hrn = s.app.hrn ∧ (devInputs d s).app.harts = s.app.harts ∧
    (devInputs d s).app.mem = s.app.mem ∧ (devInputs d s).app.lane = s.app.lane ∧
    (devInputs d s).app.link = s.app.link ∧ (devInputs d s).app.sl = s.app.sl ∧
    (devInputs d s).app.eng = s.app.eng ∧ (devInputs d s).app.ctx = s.app.ctx ∧
    (devInputs d s).app.veh = s.app.veh ∧ (devInputs d s).app.journal = s.app.journal ∧
    (devInputs d s).app.tack = s.app.tack ∧ (devInputs d s).cold = s.cold ∧
    (devInputs d s).coldMr = s.coldMr ∧ (devInputs d s).trial = s.trial ∧
    (devInputs d s).power.safe = s.power.safe ∧ (devInputs d s).power.clkOk = s.power.clkOk ∧
    (devInputs d s).power.report = s.power.report ∧ (devInputs d s).power.hbRun = s.power.hbRun ∧
    (devInputs d s).power.vload = s.power.vload ∧ (devInputs d s).power.vpilp = s.power.vpilp ∧
    (devInputs d s).power.vpiln = s.power.vpiln ∧ (devInputs d s).power.vdrv = s.power.vdrv ∧
    (devInputs d s).power.pfin = s.power.pfin ∧ (devInputs d s).power.trimmed = s.power.trimmed ∧
    (devInputs d s).power.period = s.power.period ∧
    (devInputs d s).power.pilRebuilt = s.power.pilRebuilt ∧
    (devInputs d s).power.tsLatch = s.power.tsLatch ∧
    (devInputs d s).power.protLock = s.power.protLock ∧
    (devInputs d s).power.retryWin = s.power.retryWin ∧
    (devInputs d s).power.retryMax = s.power.retryMax ∧ (devInputs d s).power.test = s.power.test ∧
    (devInputs d s).power.run = s.power.run ∧ (devInputs d s).power.qtemp = s.power.qtemp ∧
    (devInputs d s).power.qband = s.power.qband ∧ (devInputs d s).power.qchg = s.power.qchg ∧
    (devInputs d s).power.sum = s.power.sum ∧ (devInputs d s).power.sumOver = s.power.sumOver ∧
    (devInputs d s).power.rc = s.power.rc ∧ (devInputs d s).power.im = s.power.im ∧
    (devInputs d s).power.seq = s.power.seq ∧ (devInputs d s).power.seqPerm = s.power.seqPerm ∧
    (devInputs d s).power.seqProx = s.power.seqProx ∧ (devInputs d s).power.psq = s.power.psq ∧
    (devInputs d s).power.psqDue = s.power.psqDue ∧ (devInputs d s).power.fields = s.power.fields ∧
    (devInputs d s).power.lines = s.power.lines ∧ (devInputs d s).power.readers = s.power.readers ∧
    (devInputs d s).power.tags = s.power.tags ∧ (devInputs d s).die = s.die ∧
    (devInputs d s).fuses = s.fuses ∧ (devInputs d s).obj = s.obj ∧
    (devInputs d s).flash = s.flash ∧ (devInputs d s).sec = s.sec ∧
    (devInputs d s).pending = s.pending := by
  unfold devInputs; (repeat' split) <;> simp

@[simp] theorem devInputs_parts (d : Nat) (s : State) :
    (devInputs d s).bridle.st = s.bridle.st ∧ (devInputs d s).bridle.cause = s.bridle.cause ∧
    (devInputs d s).bridle.slot = s.bridle.slot ∧
    (devInputs d s).bridle.unsealed = s.bridle.unsealed ∧
    (devInputs d s).bridle.restarts = s.bridle.restarts ∧
    (devInputs d s).bridle.safeNLow = s.bridle.safeNLow ∧
    (devInputs d s).bridle.hbOn = s.bridle.hbOn ∧
    (devInputs d s).bridle.oscFail = s.bridle.oscFail ∧
    (devInputs d s).bridle.inReset = s.bridle.inReset ∧
    (devInputs d s).bridle.loaded = s.bridle.loaded ∧ (devInputs d s).bridle.time = s.bridle.time ∧
    (devInputs d s).bridle.chal = s.bridle.chal ∧
    (devInputs d s).bridle.postTag = s.bridle.postTag ∧
    (devInputs d s).bridle.postType = s.bridle.postType ∧
    (devInputs d s).bridle.postSt = s.bridle.postSt ∧ (devInputs d s).bridle.si = s.bridle.si ∧
    (devInputs d s).bridle.stoFault = s.bridle.stoFault ∧
    (devInputs d s).bridle.latched = s.bridle.latched ∧
    (devInputs d s).bridle.running = s.bridle.running ∧
    (devInputs d s).bridle.discard = s.bridle.discard ∧ (devInputs d s).bridle.rx = s.bridle.rx ∧
    (devInputs d s).bridle.tx = s.bridle.tx ∧
    (devInputs d s).bridle.edgeIgnored = s.bridle.edgeIgnored ∧
    (devInputs d s).bridle.post = s.bridle.post ∧
    (devInputs d s).bridle.postStatus = s.bridle.postStatus ∧
    (devInputs d s).bridle.fifo = s.bridle.fifo ∧ (devInputs d s).bridle.window = s.bridle.window ∧
    (devInputs d s).bridle.cfg = s.bridle.cfg ∧
    (devInputs d s).bridle.cfgBytes = s.bridle.cfgBytes ∧
    (devInputs d s).bridle.mem = s.bridle.mem ∧ (devInputs d s).bridle.hart = s.bridle.hart ∧
    (devInputs d s).bridle.mirBad = s.bridle.mirBad := by
  unfold devInputs; (repeat' split) <;> simp

@[simp] theorem devStop_same (d : Nat) (s : State) :
    (devStop d s).app.clk = s.app.clk ∧ (devStop d s).app.mbx = s.app.mbx ∧
    (devStop d s).app.hrn = s.app.hrn ∧ (devStop d s).app.harts = s.app.harts ∧
    (devStop d s).app.mem = s.app.mem ∧ (devStop d s).app.lane = s.app.lane ∧
    (devStop d s).app.link = s.app.link ∧ (devStop d s).app.sl = s.app.sl ∧
    (devStop d s).app.eng = s.app.eng ∧ (devStop d s).app.ctx = s.app.ctx ∧
    (devStop d s).app.veh = s.app.veh ∧ (devStop d s).app.journal = s.app.journal ∧
    (devStop d s).app.tack = s.app.tack ∧ (devStop d s).cold = s.cold ∧
    (devStop d s).coldMr = s.coldMr ∧ (devStop d s).trial = s.trial ∧
    (devStop d s).power.safe = s.power.safe ∧ (devStop d s).power.clkOk = s.power.clkOk ∧
    (devStop d s).power.report = s.power.report ∧ (devStop d s).power.hbRun = s.power.hbRun ∧
    (devStop d s).power.vload = s.power.vload ∧ (devStop d s).power.vpilp = s.power.vpilp ∧
    (devStop d s).power.vpiln = s.power.vpiln ∧ (devStop d s).power.vdrv = s.power.vdrv ∧
    (devStop d s).power.pfin = s.power.pfin ∧ (devStop d s).power.trimmed = s.power.trimmed ∧
    (devStop d s).power.period = s.power.period ∧
    (devStop d s).power.pilRebuilt = s.power.pilRebuilt ∧
    (devStop d s).power.tsLatch = s.power.tsLatch ∧
    (devStop d s).power.protLock = s.power.protLock ∧
    (devStop d s).power.retryWin = s.power.retryWin ∧
    (devStop d s).power.retryMax = s.power.retryMax ∧ (devStop d s).power.test = s.power.test ∧
    (devStop d s).power.run = s.power.run ∧ (devStop d s).power.qtemp = s.power.qtemp ∧
    (devStop d s).power.qband = s.power.qband ∧ (devStop d s).power.qchg = s.power.qchg ∧
    (devStop d s).power.sum = s.power.sum ∧ (devStop d s).power.sumOver = s.power.sumOver ∧
    (devStop d s).power.rc = s.power.rc ∧ (devStop d s).power.im = s.power.im ∧
    (devStop d s).power.seq = s.power.seq ∧ (devStop d s).power.seqPerm = s.power.seqPerm ∧
    (devStop d s).power.seqProx = s.power.seqProx ∧ (devStop d s).power.psq = s.power.psq ∧
    (devStop d s).power.psqDue = s.power.psqDue ∧ (devStop d s).power.fields = s.power.fields ∧
    (devStop d s).power.lines = s.power.lines ∧ (devStop d s).power.readers = s.power.readers ∧
    (devStop d s).power.tags = s.power.tags ∧ (devStop d s).die = s.die ∧
    (devStop d s).fuses = s.fuses ∧ (devStop d s).obj = s.obj ∧ (devStop d s).flash = s.flash ∧
    (devStop d s).sec = s.sec ∧ (devStop d s).pending = s.pending := by
  unfold devStop; dsimp only; (repeat' split) <;> simp [State.updDev]

@[simp] theorem devStop_parts (d : Nat) (s : State) :
    (devStop d s).bridle.st = s.bridle.st ∧ (devStop d s).bridle.cause = s.bridle.cause ∧
    (devStop d s).bridle.slot = s.bridle.slot ∧ (devStop d s).bridle.unsealed = s.bridle.unsealed ∧
    (devStop d s).bridle.restarts = s.bridle.restarts ∧
    (devStop d s).bridle.safeNLow = s.bridle.safeNLow ∧ (devStop d s).bridle.hbOn = s.bridle.hbOn ∧
    (devStop d s).bridle.oscFail = s.bridle.oscFail ∧
    (devStop d s).bridle.inReset = s.bridle.inReset ∧
    (devStop d s).bridle.loaded = s.bridle.loaded ∧ (devStop d s).bridle.time = s.bridle.time ∧
    (devStop d s).bridle.chal = s.bridle.chal ∧ (devStop d s).bridle.postTag = s.bridle.postTag ∧
    (devStop d s).bridle.postType = s.bridle.postType ∧
    (devStop d s).bridle.postSt = s.bridle.postSt ∧ (devStop d s).bridle.si = s.bridle.si ∧
    (devStop d s).bridle.stoFault = s.bridle.stoFault ∧
    (devStop d s).bridle.latched = s.bridle.latched ∧
    (devStop d s).bridle.running = s.bridle.running ∧
    (devStop d s).bridle.discard = s.bridle.discard ∧ (devStop d s).bridle.rx = s.bridle.rx ∧
    (devStop d s).bridle.tx = s.bridle.tx ∧
    (devStop d s).bridle.edgeIgnored = s.bridle.edgeIgnored ∧
    (devStop d s).bridle.post = s.bridle.post ∧
    (devStop d s).bridle.postStatus = s.bridle.postStatus ∧
    (devStop d s).bridle.fifo = s.bridle.fifo ∧ (devStop d s).bridle.window = s.bridle.window ∧
    (devStop d s).bridle.cfg = s.bridle.cfg ∧ (devStop d s).bridle.cfgBytes = s.bridle.cfgBytes ∧
    (devStop d s).bridle.mem = s.bridle.mem ∧ (devStop d s).bridle.hart = s.bridle.hart ∧
    (devStop d s).bridle.mirBad = s.bridle.mirBad := by
  unfold devStop; dsimp only; (repeat' split) <;> simp [State.updDev]

/-- A fold that keeps a part of State. -/
theorem foldl_fix {α β : Type} (f : State → β) (g : State → α → State) (h : ∀ t a, f (g t a) = f t) (l : List α) (s : State) :
    f (l.foldl g s) = f s := by
  induction l generalizing s with
  | nil => rfl
  | cons a l ih => simp only [List.foldl_cons]; rw [ih, h]

@[simp] theorem groupStop_same (g : Nat) (s : State) :
    (groupStop g s).app.clk = s.app.clk ∧ (groupStop g s).app.mbx = s.app.mbx ∧
    (groupStop g s).app.hrn = s.app.hrn ∧ (groupStop g s).app.harts = s.app.harts ∧
    (groupStop g s).app.mem = s.app.mem ∧ (groupStop g s).app.lane = s.app.lane ∧
    (groupStop g s).app.link = s.app.link ∧ (groupStop g s).app.sl = s.app.sl ∧
    (groupStop g s).app.eng = s.app.eng ∧ (groupStop g s).app.ctx = s.app.ctx ∧
    (groupStop g s).app.veh = s.app.veh ∧ (groupStop g s).app.journal = s.app.journal ∧
    (groupStop g s).app.tack = s.app.tack ∧ (groupStop g s).cold = s.cold ∧
    (groupStop g s).coldMr = s.coldMr ∧ (groupStop g s).trial = s.trial ∧
    (groupStop g s).power.safe = s.power.safe ∧ (groupStop g s).power.clkOk = s.power.clkOk ∧
    (groupStop g s).power.report = s.power.report ∧ (groupStop g s).power.hbRun = s.power.hbRun ∧
    (groupStop g s).power.vload = s.power.vload ∧ (groupStop g s).power.vpilp = s.power.vpilp ∧
    (groupStop g s).power.vpiln = s.power.vpiln ∧ (groupStop g s).power.vdrv = s.power.vdrv ∧
    (groupStop g s).power.pfin = s.power.pfin ∧ (groupStop g s).power.trimmed = s.power.trimmed ∧
    (groupStop g s).power.period = s.power.period ∧
    (groupStop g s).power.pilRebuilt = s.power.pilRebuilt ∧
    (groupStop g s).power.tsLatch = s.power.tsLatch ∧
    (groupStop g s).power.protLock = s.power.protLock ∧
    (groupStop g s).power.retryWin = s.power.retryWin ∧
    (groupStop g s).power.retryMax = s.power.retryMax ∧ (groupStop g s).power.test = s.power.test ∧
    (groupStop g s).power.run = s.power.run ∧ (groupStop g s).power.qtemp = s.power.qtemp ∧
    (groupStop g s).power.qband = s.power.qband ∧ (groupStop g s).power.qchg = s.power.qchg ∧
    (groupStop g s).power.sum = s.power.sum ∧ (groupStop g s).power.sumOver = s.power.sumOver ∧
    (groupStop g s).power.rc = s.power.rc ∧ (groupStop g s).power.im = s.power.im ∧
    (groupStop g s).power.seq = s.power.seq ∧ (groupStop g s).power.seqPerm = s.power.seqPerm ∧
    (groupStop g s).power.seqProx = s.power.seqProx ∧ (groupStop g s).power.psq = s.power.psq ∧
    (groupStop g s).power.psqDue = s.power.psqDue ∧ (groupStop g s).power.fields = s.power.fields ∧
    (groupStop g s).power.lines = s.power.lines ∧ (groupStop g s).power.readers = s.power.readers ∧
    (groupStop g s).power.tags = s.power.tags ∧ (groupStop g s).die = s.die ∧
    (groupStop g s).fuses = s.fuses ∧ (groupStop g s).obj = s.obj ∧
    (groupStop g s).flash = s.flash ∧ (groupStop g s).sec = s.sec ∧
    (groupStop g s).pending = s.pending := by
  unfold groupStop; dsimp only
  refine ⟨?_, ?_, ?_, ?_, ?_, ?_, ?_, ?_, ?_, ?_, ?_, ?_, ?_, ?_, ?_, ?_, ?_, ?_, ?_, ?_, ?_, ?_, ?_, ?_, ?_, ?_, ?_, ?_, ?_, ?_, ?_, ?_, ?_, ?_, ?_, ?_, ?_, ?_, ?_, ?_, ?_, ?_, ?_, ?_, ?_, ?_, ?_, ?_, ?_, ?_, ?_, ?_, ?_, ?_, ?_, ?_⟩
  · (refine (foldl_fix (fun t : State => t.app.clk) _ (fun t a => ?_) _ _).trans ((foldl_fix (fun t : State => t.app.clk) _ (fun t a => ?_) _ _).trans ?_) <;> simp [note])
  · (refine (foldl_fix (fun t : State => t.app.mbx) _ (fun t a => ?_) _ _).trans ((foldl_fix (fun t : State => t.app.mbx) _ (fun t a => ?_) _ _).trans ?_) <;> simp [note])
  · (refine (foldl_fix (fun t : State => t.app.hrn) _ (fun t a => ?_) _ _).trans ((foldl_fix (fun t : State => t.app.hrn) _ (fun t a => ?_) _ _).trans ?_) <;> simp [note])
  · (refine (foldl_fix (fun t : State => t.app.harts) _ (fun t a => ?_) _ _).trans ((foldl_fix (fun t : State => t.app.harts) _ (fun t a => ?_) _ _).trans ?_) <;> simp [note])
  · (refine (foldl_fix (fun t : State => t.app.mem) _ (fun t a => ?_) _ _).trans ((foldl_fix (fun t : State => t.app.mem) _ (fun t a => ?_) _ _).trans ?_) <;> simp [note])
  · (refine (foldl_fix (fun t : State => t.app.lane) _ (fun t a => ?_) _ _).trans ((foldl_fix (fun t : State => t.app.lane) _ (fun t a => ?_) _ _).trans ?_) <;> simp [note])
  · (refine (foldl_fix (fun t : State => t.app.link) _ (fun t a => ?_) _ _).trans ((foldl_fix (fun t : State => t.app.link) _ (fun t a => ?_) _ _).trans ?_) <;> simp [note])
  · (refine (foldl_fix (fun t : State => t.app.sl) _ (fun t a => ?_) _ _).trans ((foldl_fix (fun t : State => t.app.sl) _ (fun t a => ?_) _ _).trans ?_) <;> simp [note])
  · (refine (foldl_fix (fun t : State => t.app.eng) _ (fun t a => ?_) _ _).trans ((foldl_fix (fun t : State => t.app.eng) _ (fun t a => ?_) _ _).trans ?_) <;> simp [note])
  · (refine (foldl_fix (fun t : State => t.app.ctx) _ (fun t a => ?_) _ _).trans ((foldl_fix (fun t : State => t.app.ctx) _ (fun t a => ?_) _ _).trans ?_) <;> simp [note])
  · (refine (foldl_fix (fun t : State => t.app.veh) _ (fun t a => ?_) _ _).trans ((foldl_fix (fun t : State => t.app.veh) _ (fun t a => ?_) _ _).trans ?_) <;> simp [note])
  · (refine (foldl_fix (fun t : State => t.app.journal) _ (fun t a => ?_) _ _).trans ((foldl_fix (fun t : State => t.app.journal) _ (fun t a => ?_) _ _).trans ?_) <;> simp [note])
  · (refine (foldl_fix (fun t : State => t.app.tack) _ (fun t a => ?_) _ _).trans ((foldl_fix (fun t : State => t.app.tack) _ (fun t a => ?_) _ _).trans ?_) <;> simp [note])
  · (refine (foldl_fix (fun t : State => t.cold) _ (fun t a => ?_) _ _).trans ((foldl_fix (fun t : State => t.cold) _ (fun t a => ?_) _ _).trans ?_) <;> simp [note])
  · (refine (foldl_fix (fun t : State => t.coldMr) _ (fun t a => ?_) _ _).trans ((foldl_fix (fun t : State => t.coldMr) _ (fun t a => ?_) _ _).trans ?_) <;> simp [note])
  · (refine (foldl_fix (fun t : State => t.trial) _ (fun t a => ?_) _ _).trans ((foldl_fix (fun t : State => t.trial) _ (fun t a => ?_) _ _).trans ?_) <;> simp [note])
  · (refine (foldl_fix (fun t : State => t.power.safe) _ (fun t a => ?_) _ _).trans ((foldl_fix (fun t : State => t.power.safe) _ (fun t a => ?_) _ _).trans ?_) <;> simp [note])
  · (refine (foldl_fix (fun t : State => t.power.clkOk) _ (fun t a => ?_) _ _).trans ((foldl_fix (fun t : State => t.power.clkOk) _ (fun t a => ?_) _ _).trans ?_) <;> simp [note])
  · (refine (foldl_fix (fun t : State => t.power.report) _ (fun t a => ?_) _ _).trans ((foldl_fix (fun t : State => t.power.report) _ (fun t a => ?_) _ _).trans ?_) <;> simp [note])
  · (refine (foldl_fix (fun t : State => t.power.hbRun) _ (fun t a => ?_) _ _).trans ((foldl_fix (fun t : State => t.power.hbRun) _ (fun t a => ?_) _ _).trans ?_) <;> simp [note])
  · (refine (foldl_fix (fun t : State => t.power.vload) _ (fun t a => ?_) _ _).trans ((foldl_fix (fun t : State => t.power.vload) _ (fun t a => ?_) _ _).trans ?_) <;> simp [note])
  · (refine (foldl_fix (fun t : State => t.power.vpilp) _ (fun t a => ?_) _ _).trans ((foldl_fix (fun t : State => t.power.vpilp) _ (fun t a => ?_) _ _).trans ?_) <;> simp [note])
  · (refine (foldl_fix (fun t : State => t.power.vpiln) _ (fun t a => ?_) _ _).trans ((foldl_fix (fun t : State => t.power.vpiln) _ (fun t a => ?_) _ _).trans ?_) <;> simp [note])
  · (refine (foldl_fix (fun t : State => t.power.vdrv) _ (fun t a => ?_) _ _).trans ((foldl_fix (fun t : State => t.power.vdrv) _ (fun t a => ?_) _ _).trans ?_) <;> simp [note])
  · (refine (foldl_fix (fun t : State => t.power.pfin) _ (fun t a => ?_) _ _).trans ((foldl_fix (fun t : State => t.power.pfin) _ (fun t a => ?_) _ _).trans ?_) <;> simp [note])
  · (refine (foldl_fix (fun t : State => t.power.trimmed) _ (fun t a => ?_) _ _).trans ((foldl_fix (fun t : State => t.power.trimmed) _ (fun t a => ?_) _ _).trans ?_) <;> simp [note])
  · (refine (foldl_fix (fun t : State => t.power.period) _ (fun t a => ?_) _ _).trans ((foldl_fix (fun t : State => t.power.period) _ (fun t a => ?_) _ _).trans ?_) <;> simp [note])
  · (refine (foldl_fix (fun t : State => t.power.pilRebuilt) _ (fun t a => ?_) _ _).trans ((foldl_fix (fun t : State => t.power.pilRebuilt) _ (fun t a => ?_) _ _).trans ?_) <;> simp [note])
  · (refine (foldl_fix (fun t : State => t.power.tsLatch) _ (fun t a => ?_) _ _).trans ((foldl_fix (fun t : State => t.power.tsLatch) _ (fun t a => ?_) _ _).trans ?_) <;> simp [note])
  · (refine (foldl_fix (fun t : State => t.power.protLock) _ (fun t a => ?_) _ _).trans ((foldl_fix (fun t : State => t.power.protLock) _ (fun t a => ?_) _ _).trans ?_) <;> simp [note])
  · (refine (foldl_fix (fun t : State => t.power.retryWin) _ (fun t a => ?_) _ _).trans ((foldl_fix (fun t : State => t.power.retryWin) _ (fun t a => ?_) _ _).trans ?_) <;> simp [note])
  · (refine (foldl_fix (fun t : State => t.power.retryMax) _ (fun t a => ?_) _ _).trans ((foldl_fix (fun t : State => t.power.retryMax) _ (fun t a => ?_) _ _).trans ?_) <;> simp [note])
  · (refine (foldl_fix (fun t : State => t.power.test) _ (fun t a => ?_) _ _).trans ((foldl_fix (fun t : State => t.power.test) _ (fun t a => ?_) _ _).trans ?_) <;> simp [note])
  · (refine (foldl_fix (fun t : State => t.power.run) _ (fun t a => ?_) _ _).trans ((foldl_fix (fun t : State => t.power.run) _ (fun t a => ?_) _ _).trans ?_) <;> simp [note])
  · (refine (foldl_fix (fun t : State => t.power.qtemp) _ (fun t a => ?_) _ _).trans ((foldl_fix (fun t : State => t.power.qtemp) _ (fun t a => ?_) _ _).trans ?_) <;> simp [note])
  · (refine (foldl_fix (fun t : State => t.power.qband) _ (fun t a => ?_) _ _).trans ((foldl_fix (fun t : State => t.power.qband) _ (fun t a => ?_) _ _).trans ?_) <;> simp [note])
  · (refine (foldl_fix (fun t : State => t.power.qchg) _ (fun t a => ?_) _ _).trans ((foldl_fix (fun t : State => t.power.qchg) _ (fun t a => ?_) _ _).trans ?_) <;> simp [note])
  · (refine (foldl_fix (fun t : State => t.power.sum) _ (fun t a => ?_) _ _).trans ((foldl_fix (fun t : State => t.power.sum) _ (fun t a => ?_) _ _).trans ?_) <;> simp [note])
  · (refine (foldl_fix (fun t : State => t.power.sumOver) _ (fun t a => ?_) _ _).trans ((foldl_fix (fun t : State => t.power.sumOver) _ (fun t a => ?_) _ _).trans ?_) <;> simp [note])
  · (refine (foldl_fix (fun t : State => t.power.rc) _ (fun t a => ?_) _ _).trans ((foldl_fix (fun t : State => t.power.rc) _ (fun t a => ?_) _ _).trans ?_) <;> simp [note])
  · (refine (foldl_fix (fun t : State => t.power.im) _ (fun t a => ?_) _ _).trans ((foldl_fix (fun t : State => t.power.im) _ (fun t a => ?_) _ _).trans ?_) <;> simp [note])
  · (refine (foldl_fix (fun t : State => t.power.seq) _ (fun t a => ?_) _ _).trans ((foldl_fix (fun t : State => t.power.seq) _ (fun t a => ?_) _ _).trans ?_) <;> simp [note])
  · (refine (foldl_fix (fun t : State => t.power.seqPerm) _ (fun t a => ?_) _ _).trans ((foldl_fix (fun t : State => t.power.seqPerm) _ (fun t a => ?_) _ _).trans ?_) <;> simp [note])
  · (refine (foldl_fix (fun t : State => t.power.seqProx) _ (fun t a => ?_) _ _).trans ((foldl_fix (fun t : State => t.power.seqProx) _ (fun t a => ?_) _ _).trans ?_) <;> simp [note])
  · (refine (foldl_fix (fun t : State => t.power.psq) _ (fun t a => ?_) _ _).trans ((foldl_fix (fun t : State => t.power.psq) _ (fun t a => ?_) _ _).trans ?_) <;> simp [note])
  · (refine (foldl_fix (fun t : State => t.power.psqDue) _ (fun t a => ?_) _ _).trans ((foldl_fix (fun t : State => t.power.psqDue) _ (fun t a => ?_) _ _).trans ?_) <;> simp [note])
  · (refine (foldl_fix (fun t : State => t.power.fields) _ (fun t a => ?_) _ _).trans ((foldl_fix (fun t : State => t.power.fields) _ (fun t a => ?_) _ _).trans ?_) <;> simp [note])
  · (refine (foldl_fix (fun t : State => t.power.lines) _ (fun t a => ?_) _ _).trans ((foldl_fix (fun t : State => t.power.lines) _ (fun t a => ?_) _ _).trans ?_) <;> simp [note])
  · (refine (foldl_fix (fun t : State => t.power.readers) _ (fun t a => ?_) _ _).trans ((foldl_fix (fun t : State => t.power.readers) _ (fun t a => ?_) _ _).trans ?_) <;> simp [note])
  · (refine (foldl_fix (fun t : State => t.power.tags) _ (fun t a => ?_) _ _).trans ((foldl_fix (fun t : State => t.power.tags) _ (fun t a => ?_) _ _).trans ?_) <;> simp [note])
  · (refine (foldl_fix (fun t : State => t.die) _ (fun t a => ?_) _ _).trans ((foldl_fix (fun t : State => t.die) _ (fun t a => ?_) _ _).trans ?_) <;> simp [note])
  · (refine (foldl_fix (fun t : State => t.fuses) _ (fun t a => ?_) _ _).trans ((foldl_fix (fun t : State => t.fuses) _ (fun t a => ?_) _ _).trans ?_) <;> simp [note])
  · (refine (foldl_fix (fun t : State => t.obj) _ (fun t a => ?_) _ _).trans ((foldl_fix (fun t : State => t.obj) _ (fun t a => ?_) _ _).trans ?_) <;> simp [note])
  · (refine (foldl_fix (fun t : State => t.flash) _ (fun t a => ?_) _ _).trans ((foldl_fix (fun t : State => t.flash) _ (fun t a => ?_) _ _).trans ?_) <;> simp [note])
  · (refine (foldl_fix (fun t : State => t.sec) _ (fun t a => ?_) _ _).trans ((foldl_fix (fun t : State => t.sec) _ (fun t a => ?_) _ _).trans ?_) <;> simp [note])
  · (refine (foldl_fix (fun t : State => t.pending) _ (fun t a => ?_) _ _).trans ((foldl_fix (fun t : State => t.pending) _ (fun t a => ?_) _ _).trans ?_) <;> simp [note])

@[simp] theorem groupStop_parts (g : Nat) (s : State) :
    (groupStop g s).bridle.st = s.bridle.st ∧ (groupStop g s).bridle.cause = s.bridle.cause ∧
    (groupStop g s).bridle.slot = s.bridle.slot ∧
    (groupStop g s).bridle.unsealed = s.bridle.unsealed ∧
    (groupStop g s).bridle.restarts = s.bridle.restarts ∧
    (groupStop g s).bridle.safeNLow = s.bridle.safeNLow ∧
    (groupStop g s).bridle.hbOn = s.bridle.hbOn ∧
    (groupStop g s).bridle.oscFail = s.bridle.oscFail ∧
    (groupStop g s).bridle.inReset = s.bridle.inReset ∧
    (groupStop g s).bridle.loaded = s.bridle.loaded ∧ (groupStop g s).bridle.time = s.bridle.time ∧
    (groupStop g s).bridle.chal = s.bridle.chal ∧
    (groupStop g s).bridle.postTag = s.bridle.postTag ∧
    (groupStop g s).bridle.postType = s.bridle.postType ∧
    (groupStop g s).bridle.postSt = s.bridle.postSt ∧ (groupStop g s).bridle.si = s.bridle.si ∧
    (groupStop g s).bridle.stoFault = s.bridle.stoFault ∧
    (groupStop g s).bridle.latched = s.bridle.latched ∧
    (groupStop g s).bridle.discard = s.bridle.discard ∧ (groupStop g s).bridle.rx = s.bridle.rx ∧
    (groupStop g s).bridle.tx = s.bridle.tx ∧
    (groupStop g s).bridle.edgeIgnored = s.bridle.edgeIgnored ∧
    (groupStop g s).bridle.post = s.bridle.post ∧
    (groupStop g s).bridle.postStatus = s.bridle.postStatus ∧
    (groupStop g s).bridle.fifo = s.bridle.fifo ∧ (groupStop g s).bridle.window = s.bridle.window ∧
    (groupStop g s).bridle.cfg = s.bridle.cfg ∧
    (groupStop g s).bridle.cfgBytes = s.bridle.cfgBytes ∧
    (groupStop g s).bridle.mem = s.bridle.mem ∧ (groupStop g s).bridle.hart = s.bridle.hart ∧
    (groupStop g s).bridle.mirBad = s.bridle.mirBad := by
  unfold groupStop; dsimp only
  refine ⟨?_, ?_, ?_, ?_, ?_, ?_, ?_, ?_, ?_, ?_, ?_, ?_, ?_, ?_, ?_, ?_, ?_, ?_, ?_, ?_, ?_, ?_, ?_, ?_, ?_, ?_, ?_, ?_, ?_, ?_, ?_⟩
  · (refine (foldl_fix (fun t : State => t.bridle.st) _ (fun t a => ?_) _ _).trans ((foldl_fix (fun t : State => t.bridle.st) _ (fun t a => ?_) _ _).trans ?_) <;> simp [note])
  · (refine (foldl_fix (fun t : State => t.bridle.cause) _ (fun t a => ?_) _ _).trans ((foldl_fix (fun t : State => t.bridle.cause) _ (fun t a => ?_) _ _).trans ?_) <;> simp [note])
  · (refine (foldl_fix (fun t : State => t.bridle.slot) _ (fun t a => ?_) _ _).trans ((foldl_fix (fun t : State => t.bridle.slot) _ (fun t a => ?_) _ _).trans ?_) <;> simp [note])
  · (refine (foldl_fix (fun t : State => t.bridle.unsealed) _ (fun t a => ?_) _ _).trans ((foldl_fix (fun t : State => t.bridle.unsealed) _ (fun t a => ?_) _ _).trans ?_) <;> simp [note])
  · (refine (foldl_fix (fun t : State => t.bridle.restarts) _ (fun t a => ?_) _ _).trans ((foldl_fix (fun t : State => t.bridle.restarts) _ (fun t a => ?_) _ _).trans ?_) <;> simp [note])
  · (refine (foldl_fix (fun t : State => t.bridle.safeNLow) _ (fun t a => ?_) _ _).trans ((foldl_fix (fun t : State => t.bridle.safeNLow) _ (fun t a => ?_) _ _).trans ?_) <;> simp [note])
  · (refine (foldl_fix (fun t : State => t.bridle.hbOn) _ (fun t a => ?_) _ _).trans ((foldl_fix (fun t : State => t.bridle.hbOn) _ (fun t a => ?_) _ _).trans ?_) <;> simp [note])
  · (refine (foldl_fix (fun t : State => t.bridle.oscFail) _ (fun t a => ?_) _ _).trans ((foldl_fix (fun t : State => t.bridle.oscFail) _ (fun t a => ?_) _ _).trans ?_) <;> simp [note])
  · (refine (foldl_fix (fun t : State => t.bridle.inReset) _ (fun t a => ?_) _ _).trans ((foldl_fix (fun t : State => t.bridle.inReset) _ (fun t a => ?_) _ _).trans ?_) <;> simp [note])
  · (refine (foldl_fix (fun t : State => t.bridle.loaded) _ (fun t a => ?_) _ _).trans ((foldl_fix (fun t : State => t.bridle.loaded) _ (fun t a => ?_) _ _).trans ?_) <;> simp [note])
  · (refine (foldl_fix (fun t : State => t.bridle.time) _ (fun t a => ?_) _ _).trans ((foldl_fix (fun t : State => t.bridle.time) _ (fun t a => ?_) _ _).trans ?_) <;> simp [note])
  · (refine (foldl_fix (fun t : State => t.bridle.chal) _ (fun t a => ?_) _ _).trans ((foldl_fix (fun t : State => t.bridle.chal) _ (fun t a => ?_) _ _).trans ?_) <;> simp [note])
  · (refine (foldl_fix (fun t : State => t.bridle.postTag) _ (fun t a => ?_) _ _).trans ((foldl_fix (fun t : State => t.bridle.postTag) _ (fun t a => ?_) _ _).trans ?_) <;> simp [note])
  · (refine (foldl_fix (fun t : State => t.bridle.postType) _ (fun t a => ?_) _ _).trans ((foldl_fix (fun t : State => t.bridle.postType) _ (fun t a => ?_) _ _).trans ?_) <;> simp [note])
  · (refine (foldl_fix (fun t : State => t.bridle.postSt) _ (fun t a => ?_) _ _).trans ((foldl_fix (fun t : State => t.bridle.postSt) _ (fun t a => ?_) _ _).trans ?_) <;> simp [note])
  · (refine (foldl_fix (fun t : State => t.bridle.si) _ (fun t a => ?_) _ _).trans ((foldl_fix (fun t : State => t.bridle.si) _ (fun t a => ?_) _ _).trans ?_) <;> simp [note])
  · (refine (foldl_fix (fun t : State => t.bridle.stoFault) _ (fun t a => ?_) _ _).trans ((foldl_fix (fun t : State => t.bridle.stoFault) _ (fun t a => ?_) _ _).trans ?_) <;> simp [note])
  · (refine (foldl_fix (fun t : State => t.bridle.latched) _ (fun t a => ?_) _ _).trans ((foldl_fix (fun t : State => t.bridle.latched) _ (fun t a => ?_) _ _).trans ?_) <;> simp [note])
  · (refine (foldl_fix (fun t : State => t.bridle.discard) _ (fun t a => ?_) _ _).trans ((foldl_fix (fun t : State => t.bridle.discard) _ (fun t a => ?_) _ _).trans ?_) <;> simp [note])
  · (refine (foldl_fix (fun t : State => t.bridle.rx) _ (fun t a => ?_) _ _).trans ((foldl_fix (fun t : State => t.bridle.rx) _ (fun t a => ?_) _ _).trans ?_) <;> simp [note])
  · (refine (foldl_fix (fun t : State => t.bridle.tx) _ (fun t a => ?_) _ _).trans ((foldl_fix (fun t : State => t.bridle.tx) _ (fun t a => ?_) _ _).trans ?_) <;> simp [note])
  · (refine (foldl_fix (fun t : State => t.bridle.edgeIgnored) _ (fun t a => ?_) _ _).trans ((foldl_fix (fun t : State => t.bridle.edgeIgnored) _ (fun t a => ?_) _ _).trans ?_) <;> simp [note])
  · (refine (foldl_fix (fun t : State => t.bridle.post) _ (fun t a => ?_) _ _).trans ((foldl_fix (fun t : State => t.bridle.post) _ (fun t a => ?_) _ _).trans ?_) <;> simp [note])
  · (refine (foldl_fix (fun t : State => t.bridle.postStatus) _ (fun t a => ?_) _ _).trans ((foldl_fix (fun t : State => t.bridle.postStatus) _ (fun t a => ?_) _ _).trans ?_) <;> simp [note])
  · (refine (foldl_fix (fun t : State => t.bridle.fifo) _ (fun t a => ?_) _ _).trans ((foldl_fix (fun t : State => t.bridle.fifo) _ (fun t a => ?_) _ _).trans ?_) <;> simp [note])
  · (refine (foldl_fix (fun t : State => t.bridle.window) _ (fun t a => ?_) _ _).trans ((foldl_fix (fun t : State => t.bridle.window) _ (fun t a => ?_) _ _).trans ?_) <;> simp [note])
  · (refine (foldl_fix (fun t : State => t.bridle.cfg) _ (fun t a => ?_) _ _).trans ((foldl_fix (fun t : State => t.bridle.cfg) _ (fun t a => ?_) _ _).trans ?_) <;> simp [note])
  · (refine (foldl_fix (fun t : State => t.bridle.cfgBytes) _ (fun t a => ?_) _ _).trans ((foldl_fix (fun t : State => t.bridle.cfgBytes) _ (fun t a => ?_) _ _).trans ?_) <;> simp [note])
  · (refine (foldl_fix (fun t : State => t.bridle.mem) _ (fun t a => ?_) _ _).trans ((foldl_fix (fun t : State => t.bridle.mem) _ (fun t a => ?_) _ _).trans ?_) <;> simp [note])
  · (refine (foldl_fix (fun t : State => t.bridle.hart) _ (fun t a => ?_) _ _).trans ((foldl_fix (fun t : State => t.bridle.hart) _ (fun t a => ?_) _ _).trans ?_) <;> simp [note])
  · (refine (foldl_fix (fun t : State => t.bridle.mirBad) _ (fun t a => ?_) _ _).trans ((foldl_fix (fun t : State => t.bridle.mirBad) _ (fun t a => ?_) _ _).trans ?_) <;> simp [note])

@[simp] theorem groupRun_same (g : Nat) (s : State) :
    (groupRun g s).app.clk = s.app.clk ∧ (groupRun g s).app.mbx = s.app.mbx ∧
    (groupRun g s).app.hrn = s.app.hrn ∧ (groupRun g s).app.harts = s.app.harts ∧
    (groupRun g s).app.mem = s.app.mem ∧ (groupRun g s).app.lane = s.app.lane ∧
    (groupRun g s).app.link = s.app.link ∧ (groupRun g s).app.sl = s.app.sl ∧
    (groupRun g s).app.eng = s.app.eng ∧ (groupRun g s).app.ctx = s.app.ctx ∧
    (groupRun g s).app.veh = s.app.veh ∧ (groupRun g s).app.journal = s.app.journal ∧
    (groupRun g s).app.tack = s.app.tack ∧ (groupRun g s).cold = s.cold ∧
    (groupRun g s).coldMr = s.coldMr ∧ (groupRun g s).trial = s.trial ∧
    (groupRun g s).power.safe = s.power.safe ∧ (groupRun g s).power.clkOk = s.power.clkOk ∧
    (groupRun g s).power.report = s.power.report ∧ (groupRun g s).power.hbRun = s.power.hbRun ∧
    (groupRun g s).power.vload = s.power.vload ∧ (groupRun g s).power.vpilp = s.power.vpilp ∧
    (groupRun g s).power.vpiln = s.power.vpiln ∧ (groupRun g s).power.vdrv = s.power.vdrv ∧
    (groupRun g s).power.pfin = s.power.pfin ∧ (groupRun g s).power.trimmed = s.power.trimmed ∧
    (groupRun g s).power.period = s.power.period ∧
    (groupRun g s).power.pilRebuilt = s.power.pilRebuilt ∧
    (groupRun g s).power.tsLatch = s.power.tsLatch ∧
    (groupRun g s).power.protLock = s.power.protLock ∧
    (groupRun g s).power.retryWin = s.power.retryWin ∧
    (groupRun g s).power.retryMax = s.power.retryMax ∧ (groupRun g s).power.test = s.power.test ∧
    (groupRun g s).power.run = s.power.run ∧ (groupRun g s).power.qtemp = s.power.qtemp ∧
    (groupRun g s).power.qband = s.power.qband ∧ (groupRun g s).power.qchg = s.power.qchg ∧
    (groupRun g s).power.sum = s.power.sum ∧ (groupRun g s).power.sumOver = s.power.sumOver ∧
    (groupRun g s).power.rc = s.power.rc ∧ (groupRun g s).power.im = s.power.im ∧
    (groupRun g s).power.sto = s.power.sto ∧ (groupRun g s).power.seq = s.power.seq ∧
    (groupRun g s).power.seqPerm = s.power.seqPerm ∧
    (groupRun g s).power.seqProx = s.power.seqProx ∧ (groupRun g s).power.psq = s.power.psq ∧
    (groupRun g s).power.psqDue = s.power.psqDue ∧ (groupRun g s).power.fields = s.power.fields ∧
    (groupRun g s).power.lines = s.power.lines ∧ (groupRun g s).power.readers = s.power.readers ∧
    (groupRun g s).power.tags = s.power.tags ∧ (groupRun g s).die = s.die ∧
    (groupRun g s).fuses = s.fuses ∧ (groupRun g s).obj = s.obj ∧ (groupRun g s).flash = s.flash ∧
    (groupRun g s).sec = s.sec ∧ (groupRun g s).pending = s.pending := by
  unfold groupRun; dsimp only
  refine ⟨?_, ?_, ?_, ?_, ?_, ?_, ?_, ?_, ?_, ?_, ?_, ?_, ?_, ?_, ?_, ?_, ?_, ?_, ?_, ?_, ?_, ?_, ?_, ?_, ?_, ?_, ?_, ?_, ?_, ?_, ?_, ?_, ?_, ?_, ?_, ?_, ?_, ?_, ?_, ?_, ?_, ?_, ?_, ?_, ?_, ?_, ?_, ?_, ?_, ?_, ?_, ?_, ?_, ?_, ?_, ?_, ?_⟩
  · (refine (foldl_fix (fun t : State => t.app.clk) _ (fun t a => ?_) _ _).trans ?_ <;> first | (split <;> simp [State.updBp]) | simp)
  · (refine (foldl_fix (fun t : State => t.app.mbx) _ (fun t a => ?_) _ _).trans ?_ <;> first | (split <;> simp [State.updBp]) | simp)
  · (refine (foldl_fix (fun t : State => t.app.hrn) _ (fun t a => ?_) _ _).trans ?_ <;> first | (split <;> simp [State.updBp]) | simp)
  · (refine (foldl_fix (fun t : State => t.app.harts) _ (fun t a => ?_) _ _).trans ?_ <;> first | (split <;> simp [State.updBp]) | simp)
  · (refine (foldl_fix (fun t : State => t.app.mem) _ (fun t a => ?_) _ _).trans ?_ <;> first | (split <;> simp [State.updBp]) | simp)
  · (refine (foldl_fix (fun t : State => t.app.lane) _ (fun t a => ?_) _ _).trans ?_ <;> first | (split <;> simp [State.updBp]) | simp)
  · (refine (foldl_fix (fun t : State => t.app.link) _ (fun t a => ?_) _ _).trans ?_ <;> first | (split <;> simp [State.updBp]) | simp)
  · (refine (foldl_fix (fun t : State => t.app.sl) _ (fun t a => ?_) _ _).trans ?_ <;> first | (split <;> simp [State.updBp]) | simp)
  · (refine (foldl_fix (fun t : State => t.app.eng) _ (fun t a => ?_) _ _).trans ?_ <;> first | (split <;> simp [State.updBp]) | simp)
  · (refine (foldl_fix (fun t : State => t.app.ctx) _ (fun t a => ?_) _ _).trans ?_ <;> first | (split <;> simp [State.updBp]) | simp)
  · (refine (foldl_fix (fun t : State => t.app.veh) _ (fun t a => ?_) _ _).trans ?_ <;> first | (split <;> simp [State.updBp]) | simp)
  · (refine (foldl_fix (fun t : State => t.app.journal) _ (fun t a => ?_) _ _).trans ?_ <;> first | (split <;> simp [State.updBp]) | simp)
  · (refine (foldl_fix (fun t : State => t.app.tack) _ (fun t a => ?_) _ _).trans ?_ <;> first | (split <;> simp [State.updBp]) | simp)
  · (refine (foldl_fix (fun t : State => t.cold) _ (fun t a => ?_) _ _).trans ?_ <;> first | (split <;> simp [State.updBp]) | simp)
  · (refine (foldl_fix (fun t : State => t.coldMr) _ (fun t a => ?_) _ _).trans ?_ <;> first | (split <;> simp [State.updBp]) | simp)
  · (refine (foldl_fix (fun t : State => t.trial) _ (fun t a => ?_) _ _).trans ?_ <;> first | (split <;> simp [State.updBp]) | simp)
  · (refine (foldl_fix (fun t : State => t.power.safe) _ (fun t a => ?_) _ _).trans ?_ <;> first | (split <;> simp [State.updBp]) | simp)
  · (refine (foldl_fix (fun t : State => t.power.clkOk) _ (fun t a => ?_) _ _).trans ?_ <;> first | (split <;> simp [State.updBp]) | simp)
  · (refine (foldl_fix (fun t : State => t.power.report) _ (fun t a => ?_) _ _).trans ?_ <;> first | (split <;> simp [State.updBp]) | simp)
  · (refine (foldl_fix (fun t : State => t.power.hbRun) _ (fun t a => ?_) _ _).trans ?_ <;> first | (split <;> simp [State.updBp]) | simp)
  · (refine (foldl_fix (fun t : State => t.power.vload) _ (fun t a => ?_) _ _).trans ?_ <;> first | (split <;> simp [State.updBp]) | simp)
  · (refine (foldl_fix (fun t : State => t.power.vpilp) _ (fun t a => ?_) _ _).trans ?_ <;> first | (split <;> simp [State.updBp]) | simp)
  · (refine (foldl_fix (fun t : State => t.power.vpiln) _ (fun t a => ?_) _ _).trans ?_ <;> first | (split <;> simp [State.updBp]) | simp)
  · (refine (foldl_fix (fun t : State => t.power.vdrv) _ (fun t a => ?_) _ _).trans ?_ <;> first | (split <;> simp [State.updBp]) | simp)
  · (refine (foldl_fix (fun t : State => t.power.pfin) _ (fun t a => ?_) _ _).trans ?_ <;> first | (split <;> simp [State.updBp]) | simp)
  · (refine (foldl_fix (fun t : State => t.power.trimmed) _ (fun t a => ?_) _ _).trans ?_ <;> first | (split <;> simp [State.updBp]) | simp)
  · (refine (foldl_fix (fun t : State => t.power.period) _ (fun t a => ?_) _ _).trans ?_ <;> first | (split <;> simp [State.updBp]) | simp)
  · (refine (foldl_fix (fun t : State => t.power.pilRebuilt) _ (fun t a => ?_) _ _).trans ?_ <;> first | (split <;> simp [State.updBp]) | simp)
  · (refine (foldl_fix (fun t : State => t.power.tsLatch) _ (fun t a => ?_) _ _).trans ?_ <;> first | (split <;> simp [State.updBp]) | simp)
  · (refine (foldl_fix (fun t : State => t.power.protLock) _ (fun t a => ?_) _ _).trans ?_ <;> first | (split <;> simp [State.updBp]) | simp)
  · (refine (foldl_fix (fun t : State => t.power.retryWin) _ (fun t a => ?_) _ _).trans ?_ <;> first | (split <;> simp [State.updBp]) | simp)
  · (refine (foldl_fix (fun t : State => t.power.retryMax) _ (fun t a => ?_) _ _).trans ?_ <;> first | (split <;> simp [State.updBp]) | simp)
  · (refine (foldl_fix (fun t : State => t.power.test) _ (fun t a => ?_) _ _).trans ?_ <;> first | (split <;> simp [State.updBp]) | simp)
  · (refine (foldl_fix (fun t : State => t.power.run) _ (fun t a => ?_) _ _).trans ?_ <;> first | (split <;> simp [State.updBp]) | simp)
  · (refine (foldl_fix (fun t : State => t.power.qtemp) _ (fun t a => ?_) _ _).trans ?_ <;> first | (split <;> simp [State.updBp]) | simp)
  · (refine (foldl_fix (fun t : State => t.power.qband) _ (fun t a => ?_) _ _).trans ?_ <;> first | (split <;> simp [State.updBp]) | simp)
  · (refine (foldl_fix (fun t : State => t.power.qchg) _ (fun t a => ?_) _ _).trans ?_ <;> first | (split <;> simp [State.updBp]) | simp)
  · (refine (foldl_fix (fun t : State => t.power.sum) _ (fun t a => ?_) _ _).trans ?_ <;> first | (split <;> simp [State.updBp]) | simp)
  · (refine (foldl_fix (fun t : State => t.power.sumOver) _ (fun t a => ?_) _ _).trans ?_ <;> first | (split <;> simp [State.updBp]) | simp)
  · (refine (foldl_fix (fun t : State => t.power.rc) _ (fun t a => ?_) _ _).trans ?_ <;> first | (split <;> simp [State.updBp]) | simp)
  · (refine (foldl_fix (fun t : State => t.power.im) _ (fun t a => ?_) _ _).trans ?_ <;> first | (split <;> simp [State.updBp]) | simp)
  · (refine (foldl_fix (fun t : State => t.power.sto) _ (fun t a => ?_) _ _).trans ?_ <;> first | (split <;> simp [State.updBp]) | simp)
  · (refine (foldl_fix (fun t : State => t.power.seq) _ (fun t a => ?_) _ _).trans ?_ <;> first | (split <;> simp [State.updBp]) | simp)
  · (refine (foldl_fix (fun t : State => t.power.seqPerm) _ (fun t a => ?_) _ _).trans ?_ <;> first | (split <;> simp [State.updBp]) | simp)
  · (refine (foldl_fix (fun t : State => t.power.seqProx) _ (fun t a => ?_) _ _).trans ?_ <;> first | (split <;> simp [State.updBp]) | simp)
  · (refine (foldl_fix (fun t : State => t.power.psq) _ (fun t a => ?_) _ _).trans ?_ <;> first | (split <;> simp [State.updBp]) | simp)
  · (refine (foldl_fix (fun t : State => t.power.psqDue) _ (fun t a => ?_) _ _).trans ?_ <;> first | (split <;> simp [State.updBp]) | simp)
  · (refine (foldl_fix (fun t : State => t.power.fields) _ (fun t a => ?_) _ _).trans ?_ <;> first | (split <;> simp [State.updBp]) | simp)
  · (refine (foldl_fix (fun t : State => t.power.lines) _ (fun t a => ?_) _ _).trans ?_ <;> first | (split <;> simp [State.updBp]) | simp)
  · (refine (foldl_fix (fun t : State => t.power.readers) _ (fun t a => ?_) _ _).trans ?_ <;> first | (split <;> simp [State.updBp]) | simp)
  · (refine (foldl_fix (fun t : State => t.power.tags) _ (fun t a => ?_) _ _).trans ?_ <;> first | (split <;> simp [State.updBp]) | simp)
  · (refine (foldl_fix (fun t : State => t.die) _ (fun t a => ?_) _ _).trans ?_ <;> first | (split <;> simp [State.updBp]) | simp)
  · (refine (foldl_fix (fun t : State => t.fuses) _ (fun t a => ?_) _ _).trans ?_ <;> first | (split <;> simp [State.updBp]) | simp)
  · (refine (foldl_fix (fun t : State => t.obj) _ (fun t a => ?_) _ _).trans ?_ <;> first | (split <;> simp [State.updBp]) | simp)
  · (refine (foldl_fix (fun t : State => t.flash) _ (fun t a => ?_) _ _).trans ?_ <;> first | (split <;> simp [State.updBp]) | simp)
  · (refine (foldl_fix (fun t : State => t.sec) _ (fun t a => ?_) _ _).trans ?_ <;> first | (split <;> simp [State.updBp]) | simp)
  · (refine (foldl_fix (fun t : State => t.pending) _ (fun t a => ?_) _ _).trans ?_ <;> first | (split <;> simp [State.updBp]) | simp)

@[simp] theorem groupRun_parts (g : Nat) (s : State) :
    (groupRun g s).bridle.st = s.bridle.st ∧ (groupRun g s).bridle.cause = s.bridle.cause ∧
    (groupRun g s).bridle.slot = s.bridle.slot ∧
    (groupRun g s).bridle.unsealed = s.bridle.unsealed ∧
    (groupRun g s).bridle.restarts = s.bridle.restarts ∧
    (groupRun g s).bridle.safeNLow = s.bridle.safeNLow ∧
    (groupRun g s).bridle.hbOn = s.bridle.hbOn ∧ (groupRun g s).bridle.oscFail = s.bridle.oscFail ∧
    (groupRun g s).bridle.inReset = s.bridle.inReset ∧
    (groupRun g s).bridle.loaded = s.bridle.loaded ∧ (groupRun g s).bridle.time = s.bridle.time ∧
    (groupRun g s).bridle.chal = s.bridle.chal ∧ (groupRun g s).bridle.postTag = s.bridle.postTag ∧
    (groupRun g s).bridle.postType = s.bridle.postType ∧
    (groupRun g s).bridle.postSt = s.bridle.postSt ∧ (groupRun g s).bridle.dev = s.bridle.dev ∧
    (groupRun g s).bridle.si = s.bridle.si ∧ (groupRun g s).bridle.stoFault = s.bridle.stoFault ∧
    (groupRun g s).bridle.stoRel = s.bridle.stoRel ∧
    (groupRun g s).bridle.latched = s.bridle.latched ∧
    (groupRun g s).bridle.discard = s.bridle.discard ∧ (groupRun g s).bridle.rx = s.bridle.rx ∧
    (groupRun g s).bridle.tx = s.bridle.tx ∧
    (groupRun g s).bridle.edgeIgnored = s.bridle.edgeIgnored ∧
    (groupRun g s).bridle.post = s.bridle.post ∧
    (groupRun g s).bridle.postStatus = s.bridle.postStatus ∧
    (groupRun g s).bridle.fifo = s.bridle.fifo ∧ (groupRun g s).bridle.window = s.bridle.window ∧
    (groupRun g s).bridle.cfg = s.bridle.cfg ∧ (groupRun g s).bridle.cfgBytes = s.bridle.cfgBytes ∧
    (groupRun g s).bridle.mem = s.bridle.mem ∧ (groupRun g s).bridle.hart = s.bridle.hart ∧
    (groupRun g s).bridle.mirBad = s.bridle.mirBad := by
  unfold groupRun; dsimp only
  refine ⟨?_, ?_, ?_, ?_, ?_, ?_, ?_, ?_, ?_, ?_, ?_, ?_, ?_, ?_, ?_, ?_, ?_, ?_, ?_, ?_, ?_, ?_, ?_, ?_, ?_, ?_, ?_, ?_, ?_, ?_, ?_, ?_, ?_⟩
  · (refine (foldl_fix (fun t : State => t.bridle.st) _ (fun t a => ?_) _ _).trans ?_ <;> first | (split <;> simp [State.updBp]) | simp)
  · (refine (foldl_fix (fun t : State => t.bridle.cause) _ (fun t a => ?_) _ _).trans ?_ <;> first | (split <;> simp [State.updBp]) | simp)
  · (refine (foldl_fix (fun t : State => t.bridle.slot) _ (fun t a => ?_) _ _).trans ?_ <;> first | (split <;> simp [State.updBp]) | simp)
  · (refine (foldl_fix (fun t : State => t.bridle.unsealed) _ (fun t a => ?_) _ _).trans ?_ <;> first | (split <;> simp [State.updBp]) | simp)
  · (refine (foldl_fix (fun t : State => t.bridle.restarts) _ (fun t a => ?_) _ _).trans ?_ <;> first | (split <;> simp [State.updBp]) | simp)
  · (refine (foldl_fix (fun t : State => t.bridle.safeNLow) _ (fun t a => ?_) _ _).trans ?_ <;> first | (split <;> simp [State.updBp]) | simp)
  · (refine (foldl_fix (fun t : State => t.bridle.hbOn) _ (fun t a => ?_) _ _).trans ?_ <;> first | (split <;> simp [State.updBp]) | simp)
  · (refine (foldl_fix (fun t : State => t.bridle.oscFail) _ (fun t a => ?_) _ _).trans ?_ <;> first | (split <;> simp [State.updBp]) | simp)
  · (refine (foldl_fix (fun t : State => t.bridle.inReset) _ (fun t a => ?_) _ _).trans ?_ <;> first | (split <;> simp [State.updBp]) | simp)
  · (refine (foldl_fix (fun t : State => t.bridle.loaded) _ (fun t a => ?_) _ _).trans ?_ <;> first | (split <;> simp [State.updBp]) | simp)
  · (refine (foldl_fix (fun t : State => t.bridle.time) _ (fun t a => ?_) _ _).trans ?_ <;> first | (split <;> simp [State.updBp]) | simp)
  · (refine (foldl_fix (fun t : State => t.bridle.chal) _ (fun t a => ?_) _ _).trans ?_ <;> first | (split <;> simp [State.updBp]) | simp)
  · (refine (foldl_fix (fun t : State => t.bridle.postTag) _ (fun t a => ?_) _ _).trans ?_ <;> first | (split <;> simp [State.updBp]) | simp)
  · (refine (foldl_fix (fun t : State => t.bridle.postType) _ (fun t a => ?_) _ _).trans ?_ <;> first | (split <;> simp [State.updBp]) | simp)
  · (refine (foldl_fix (fun t : State => t.bridle.postSt) _ (fun t a => ?_) _ _).trans ?_ <;> first | (split <;> simp [State.updBp]) | simp)
  · (refine (foldl_fix (fun t : State => t.bridle.dev) _ (fun t a => ?_) _ _).trans ?_ <;> first | (split <;> simp [State.updBp]) | simp)
  · (refine (foldl_fix (fun t : State => t.bridle.si) _ (fun t a => ?_) _ _).trans ?_ <;> first | (split <;> simp [State.updBp]) | simp)
  · (refine (foldl_fix (fun t : State => t.bridle.stoFault) _ (fun t a => ?_) _ _).trans ?_ <;> first | (split <;> simp [State.updBp]) | simp)
  · (refine (foldl_fix (fun t : State => t.bridle.stoRel) _ (fun t a => ?_) _ _).trans ?_ <;> first | (split <;> simp [State.updBp]) | simp)
  · (refine (foldl_fix (fun t : State => t.bridle.latched) _ (fun t a => ?_) _ _).trans ?_ <;> first | (split <;> simp [State.updBp]) | simp)
  · (refine (foldl_fix (fun t : State => t.bridle.discard) _ (fun t a => ?_) _ _).trans ?_ <;> first | (split <;> simp [State.updBp]) | simp)
  · (refine (foldl_fix (fun t : State => t.bridle.rx) _ (fun t a => ?_) _ _).trans ?_ <;> first | (split <;> simp [State.updBp]) | simp)
  · (refine (foldl_fix (fun t : State => t.bridle.tx) _ (fun t a => ?_) _ _).trans ?_ <;> first | (split <;> simp [State.updBp]) | simp)
  · (refine (foldl_fix (fun t : State => t.bridle.edgeIgnored) _ (fun t a => ?_) _ _).trans ?_ <;> first | (split <;> simp [State.updBp]) | simp)
  · (refine (foldl_fix (fun t : State => t.bridle.post) _ (fun t a => ?_) _ _).trans ?_ <;> first | (split <;> simp [State.updBp]) | simp)
  · (refine (foldl_fix (fun t : State => t.bridle.postStatus) _ (fun t a => ?_) _ _).trans ?_ <;> first | (split <;> simp [State.updBp]) | simp)
  · (refine (foldl_fix (fun t : State => t.bridle.fifo) _ (fun t a => ?_) _ _).trans ?_ <;> first | (split <;> simp [State.updBp]) | simp)
  · (refine (foldl_fix (fun t : State => t.bridle.window) _ (fun t a => ?_) _ _).trans ?_ <;> first | (split <;> simp [State.updBp]) | simp)
  · (refine (foldl_fix (fun t : State => t.bridle.cfg) _ (fun t a => ?_) _ _).trans ?_ <;> first | (split <;> simp [State.updBp]) | simp)
  · (refine (foldl_fix (fun t : State => t.bridle.cfgBytes) _ (fun t a => ?_) _ _).trans ?_ <;> first | (split <;> simp [State.updBp]) | simp)
  · (refine (foldl_fix (fun t : State => t.bridle.mem) _ (fun t a => ?_) _ _).trans ?_ <;> first | (split <;> simp [State.updBp]) | simp)
  · (refine (foldl_fix (fun t : State => t.bridle.hart) _ (fun t a => ?_) _ _).trans ?_ <;> first | (split <;> simp [State.updBp]) | simp)
  · (refine (foldl_fix (fun t : State => t.bridle.mirBad) _ (fun t a => ?_) _ _).trans ?_ <;> first | (split <;> simp [State.updBp]) | simp)

@[simp] theorem evalGroup_same (g : Nat) (s : State) :
    (evalGroup g s).app.clk = s.app.clk ∧ (evalGroup g s).app.mbx = s.app.mbx ∧
    (evalGroup g s).app.hrn = s.app.hrn ∧ (evalGroup g s).app.harts = s.app.harts ∧
    (evalGroup g s).app.mem = s.app.mem ∧ (evalGroup g s).app.lane = s.app.lane ∧
    (evalGroup g s).app.link = s.app.link ∧ (evalGroup g s).app.sl = s.app.sl ∧
    (evalGroup g s).app.eng = s.app.eng ∧ (evalGroup g s).app.ctx = s.app.ctx ∧
    (evalGroup g s).app.veh = s.app.veh ∧ (evalGroup g s).app.journal = s.app.journal ∧
    (evalGroup g s).app.tack = s.app.tack ∧ (evalGroup g s).cold = s.cold ∧
    (evalGroup g s).coldMr = s.coldMr ∧ (evalGroup g s).trial = s.trial ∧
    (evalGroup g s).power.safe = s.power.safe ∧ (evalGroup g s).power.clkOk = s.power.clkOk ∧
    (evalGroup g s).power.report = s.power.report ∧ (evalGroup g s).power.hbRun = s.power.hbRun ∧
    (evalGroup g s).power.vload = s.power.vload ∧ (evalGroup g s).power.vpilp = s.power.vpilp ∧
    (evalGroup g s).power.vpiln = s.power.vpiln ∧ (evalGroup g s).power.vdrv = s.power.vdrv ∧
    (evalGroup g s).power.pfin = s.power.pfin ∧ (evalGroup g s).power.trimmed = s.power.trimmed ∧
    (evalGroup g s).power.period = s.power.period ∧
    (evalGroup g s).power.pilRebuilt = s.power.pilRebuilt ∧
    (evalGroup g s).power.tsLatch = s.power.tsLatch ∧
    (evalGroup g s).power.protLock = s.power.protLock ∧
    (evalGroup g s).power.retryWin = s.power.retryWin ∧
    (evalGroup g s).power.retryMax = s.power.retryMax ∧ (evalGroup g s).power.test = s.power.test ∧
    (evalGroup g s).power.run = s.power.run ∧ (evalGroup g s).power.qtemp = s.power.qtemp ∧
    (evalGroup g s).power.qband = s.power.qband ∧ (evalGroup g s).power.qchg = s.power.qchg ∧
    (evalGroup g s).power.sum = s.power.sum ∧ (evalGroup g s).power.sumOver = s.power.sumOver ∧
    (evalGroup g s).power.rc = s.power.rc ∧ (evalGroup g s).power.im = s.power.im ∧
    (evalGroup g s).power.seq = s.power.seq ∧ (evalGroup g s).power.seqPerm = s.power.seqPerm ∧
    (evalGroup g s).power.seqProx = s.power.seqProx ∧ (evalGroup g s).power.psq = s.power.psq ∧
    (evalGroup g s).power.psqDue = s.power.psqDue ∧ (evalGroup g s).power.fields = s.power.fields ∧
    (evalGroup g s).power.lines = s.power.lines ∧ (evalGroup g s).power.readers = s.power.readers ∧
    (evalGroup g s).power.tags = s.power.tags ∧ (evalGroup g s).die = s.die ∧
    (evalGroup g s).fuses = s.fuses ∧ (evalGroup g s).obj = s.obj ∧
    (evalGroup g s).flash = s.flash ∧ (evalGroup g s).sec = s.sec ∧
    (evalGroup g s).pending = s.pending := by
  unfold evalGroup; dsimp only; (repeat' split) <;> simp

@[simp] theorem evalGroup_parts (g : Nat) (s : State) :
    (evalGroup g s).bridle.st = s.bridle.st ∧ (evalGroup g s).bridle.cause = s.bridle.cause ∧
    (evalGroup g s).bridle.slot = s.bridle.slot ∧
    (evalGroup g s).bridle.unsealed = s.bridle.unsealed ∧
    (evalGroup g s).bridle.restarts = s.bridle.restarts ∧
    (evalGroup g s).bridle.safeNLow = s.bridle.safeNLow ∧
    (evalGroup g s).bridle.hbOn = s.bridle.hbOn ∧
    (evalGroup g s).bridle.oscFail = s.bridle.oscFail ∧
    (evalGroup g s).bridle.inReset = s.bridle.inReset ∧
    (evalGroup g s).bridle.loaded = s.bridle.loaded ∧ (evalGroup g s).bridle.time = s.bridle.time ∧
    (evalGroup g s).bridle.chal = s.bridle.chal ∧
    (evalGroup g s).bridle.postTag = s.bridle.postTag ∧
    (evalGroup g s).bridle.postType = s.bridle.postType ∧
    (evalGroup g s).bridle.postSt = s.bridle.postSt ∧ (evalGroup g s).bridle.si = s.bridle.si ∧
    (evalGroup g s).bridle.stoFault = s.bridle.stoFault ∧
    (evalGroup g s).bridle.discard = s.bridle.discard ∧ (evalGroup g s).bridle.rx = s.bridle.rx ∧
    (evalGroup g s).bridle.tx = s.bridle.tx ∧
    (evalGroup g s).bridle.edgeIgnored = s.bridle.edgeIgnored ∧
    (evalGroup g s).bridle.post = s.bridle.post ∧
    (evalGroup g s).bridle.postStatus = s.bridle.postStatus ∧
    (evalGroup g s).bridle.fifo = s.bridle.fifo ∧ (evalGroup g s).bridle.window = s.bridle.window ∧
    (evalGroup g s).bridle.cfg = s.bridle.cfg ∧
    (evalGroup g s).bridle.cfgBytes = s.bridle.cfgBytes ∧
    (evalGroup g s).bridle.mem = s.bridle.mem ∧ (evalGroup g s).bridle.hart = s.bridle.hart ∧
    (evalGroup g s).bridle.mirBad = s.bridle.mirBad := by
  unfold evalGroup; dsimp only; (repeat' split) <;> simp

@[simp] theorem evalGroups_same (s : State) :
    (evalGroups s).app.clk = s.app.clk ∧ (evalGroups s).app.mbx = s.app.mbx ∧
    (evalGroups s).app.hrn = s.app.hrn ∧ (evalGroups s).app.harts = s.app.harts ∧
    (evalGroups s).app.mem = s.app.mem ∧ (evalGroups s).app.lane = s.app.lane ∧
    (evalGroups s).app.link = s.app.link ∧ (evalGroups s).app.sl = s.app.sl ∧
    (evalGroups s).app.eng = s.app.eng ∧ (evalGroups s).app.ctx = s.app.ctx ∧
    (evalGroups s).app.veh = s.app.veh ∧ (evalGroups s).app.journal = s.app.journal ∧
    (evalGroups s).app.tack = s.app.tack ∧ (evalGroups s).cold = s.cold ∧
    (evalGroups s).coldMr = s.coldMr ∧ (evalGroups s).trial = s.trial ∧
    (evalGroups s).power.safe = s.power.safe ∧ (evalGroups s).power.clkOk = s.power.clkOk ∧
    (evalGroups s).power.report = s.power.report ∧ (evalGroups s).power.hbRun = s.power.hbRun ∧
    (evalGroups s).power.vload = s.power.vload ∧ (evalGroups s).power.vpilp = s.power.vpilp ∧
    (evalGroups s).power.vpiln = s.power.vpiln ∧ (evalGroups s).power.vdrv = s.power.vdrv ∧
    (evalGroups s).power.pfin = s.power.pfin ∧ (evalGroups s).power.trimmed = s.power.trimmed ∧
    (evalGroups s).power.period = s.power.period ∧
    (evalGroups s).power.pilRebuilt = s.power.pilRebuilt ∧
    (evalGroups s).power.tsLatch = s.power.tsLatch ∧
    (evalGroups s).power.protLock = s.power.protLock ∧
    (evalGroups s).power.retryWin = s.power.retryWin ∧
    (evalGroups s).power.retryMax = s.power.retryMax ∧ (evalGroups s).power.test = s.power.test ∧
    (evalGroups s).power.run = s.power.run ∧ (evalGroups s).power.qtemp = s.power.qtemp ∧
    (evalGroups s).power.qband = s.power.qband ∧ (evalGroups s).power.qchg = s.power.qchg ∧
    (evalGroups s).power.sum = s.power.sum ∧ (evalGroups s).power.sumOver = s.power.sumOver ∧
    (evalGroups s).power.rc = s.power.rc ∧ (evalGroups s).power.im = s.power.im ∧
    (evalGroups s).power.seq = s.power.seq ∧ (evalGroups s).power.seqPerm = s.power.seqPerm ∧
    (evalGroups s).power.seqProx = s.power.seqProx ∧ (evalGroups s).power.psq = s.power.psq ∧
    (evalGroups s).power.psqDue = s.power.psqDue ∧ (evalGroups s).power.fields = s.power.fields ∧
    (evalGroups s).power.lines = s.power.lines ∧ (evalGroups s).power.readers = s.power.readers ∧
    (evalGroups s).power.tags = s.power.tags ∧ (evalGroups s).die = s.die ∧
    (evalGroups s).fuses = s.fuses ∧ (evalGroups s).obj = s.obj ∧ (evalGroups s).flash = s.flash ∧
    (evalGroups s).sec = s.sec ∧ (evalGroups s).pending = s.pending := by
  unfold evalGroups; dsimp only
  refine ⟨?_, ?_, ?_, ?_, ?_, ?_, ?_, ?_, ?_, ?_, ?_, ?_, ?_, ?_, ?_, ?_, ?_, ?_, ?_, ?_, ?_, ?_, ?_, ?_, ?_, ?_, ?_, ?_, ?_, ?_, ?_, ?_, ?_, ?_, ?_, ?_, ?_, ?_, ?_, ?_, ?_, ?_, ?_, ?_, ?_, ?_, ?_, ?_, ?_, ?_, ?_, ?_, ?_, ?_, ?_, ?_⟩
  · (refine (foldl_fix (fun t : State => t.app.clk) _ (fun t a => ?_) _ _).trans ((foldl_fix (fun t : State => t.app.clk) _ (fun t a => ?_) _ _).trans rfl) <;> first | (split <;> simp) | simp)
  · (refine (foldl_fix (fun t : State => t.app.mbx) _ (fun t a => ?_) _ _).trans ((foldl_fix (fun t : State => t.app.mbx) _ (fun t a => ?_) _ _).trans rfl) <;> first | (split <;> simp) | simp)
  · (refine (foldl_fix (fun t : State => t.app.hrn) _ (fun t a => ?_) _ _).trans ((foldl_fix (fun t : State => t.app.hrn) _ (fun t a => ?_) _ _).trans rfl) <;> first | (split <;> simp) | simp)
  · (refine (foldl_fix (fun t : State => t.app.harts) _ (fun t a => ?_) _ _).trans ((foldl_fix (fun t : State => t.app.harts) _ (fun t a => ?_) _ _).trans rfl) <;> first | (split <;> simp) | simp)
  · (refine (foldl_fix (fun t : State => t.app.mem) _ (fun t a => ?_) _ _).trans ((foldl_fix (fun t : State => t.app.mem) _ (fun t a => ?_) _ _).trans rfl) <;> first | (split <;> simp) | simp)
  · (refine (foldl_fix (fun t : State => t.app.lane) _ (fun t a => ?_) _ _).trans ((foldl_fix (fun t : State => t.app.lane) _ (fun t a => ?_) _ _).trans rfl) <;> first | (split <;> simp) | simp)
  · (refine (foldl_fix (fun t : State => t.app.link) _ (fun t a => ?_) _ _).trans ((foldl_fix (fun t : State => t.app.link) _ (fun t a => ?_) _ _).trans rfl) <;> first | (split <;> simp) | simp)
  · (refine (foldl_fix (fun t : State => t.app.sl) _ (fun t a => ?_) _ _).trans ((foldl_fix (fun t : State => t.app.sl) _ (fun t a => ?_) _ _).trans rfl) <;> first | (split <;> simp) | simp)
  · (refine (foldl_fix (fun t : State => t.app.eng) _ (fun t a => ?_) _ _).trans ((foldl_fix (fun t : State => t.app.eng) _ (fun t a => ?_) _ _).trans rfl) <;> first | (split <;> simp) | simp)
  · (refine (foldl_fix (fun t : State => t.app.ctx) _ (fun t a => ?_) _ _).trans ((foldl_fix (fun t : State => t.app.ctx) _ (fun t a => ?_) _ _).trans rfl) <;> first | (split <;> simp) | simp)
  · (refine (foldl_fix (fun t : State => t.app.veh) _ (fun t a => ?_) _ _).trans ((foldl_fix (fun t : State => t.app.veh) _ (fun t a => ?_) _ _).trans rfl) <;> first | (split <;> simp) | simp)
  · (refine (foldl_fix (fun t : State => t.app.journal) _ (fun t a => ?_) _ _).trans ((foldl_fix (fun t : State => t.app.journal) _ (fun t a => ?_) _ _).trans rfl) <;> first | (split <;> simp) | simp)
  · (refine (foldl_fix (fun t : State => t.app.tack) _ (fun t a => ?_) _ _).trans ((foldl_fix (fun t : State => t.app.tack) _ (fun t a => ?_) _ _).trans rfl) <;> first | (split <;> simp) | simp)
  · (refine (foldl_fix (fun t : State => t.cold) _ (fun t a => ?_) _ _).trans ((foldl_fix (fun t : State => t.cold) _ (fun t a => ?_) _ _).trans rfl) <;> first | (split <;> simp) | simp)
  · (refine (foldl_fix (fun t : State => t.coldMr) _ (fun t a => ?_) _ _).trans ((foldl_fix (fun t : State => t.coldMr) _ (fun t a => ?_) _ _).trans rfl) <;> first | (split <;> simp) | simp)
  · (refine (foldl_fix (fun t : State => t.trial) _ (fun t a => ?_) _ _).trans ((foldl_fix (fun t : State => t.trial) _ (fun t a => ?_) _ _).trans rfl) <;> first | (split <;> simp) | simp)
  · (refine (foldl_fix (fun t : State => t.power.safe) _ (fun t a => ?_) _ _).trans ((foldl_fix (fun t : State => t.power.safe) _ (fun t a => ?_) _ _).trans rfl) <;> first | (split <;> simp) | simp)
  · (refine (foldl_fix (fun t : State => t.power.clkOk) _ (fun t a => ?_) _ _).trans ((foldl_fix (fun t : State => t.power.clkOk) _ (fun t a => ?_) _ _).trans rfl) <;> first | (split <;> simp) | simp)
  · (refine (foldl_fix (fun t : State => t.power.report) _ (fun t a => ?_) _ _).trans ((foldl_fix (fun t : State => t.power.report) _ (fun t a => ?_) _ _).trans rfl) <;> first | (split <;> simp) | simp)
  · (refine (foldl_fix (fun t : State => t.power.hbRun) _ (fun t a => ?_) _ _).trans ((foldl_fix (fun t : State => t.power.hbRun) _ (fun t a => ?_) _ _).trans rfl) <;> first | (split <;> simp) | simp)
  · (refine (foldl_fix (fun t : State => t.power.vload) _ (fun t a => ?_) _ _).trans ((foldl_fix (fun t : State => t.power.vload) _ (fun t a => ?_) _ _).trans rfl) <;> first | (split <;> simp) | simp)
  · (refine (foldl_fix (fun t : State => t.power.vpilp) _ (fun t a => ?_) _ _).trans ((foldl_fix (fun t : State => t.power.vpilp) _ (fun t a => ?_) _ _).trans rfl) <;> first | (split <;> simp) | simp)
  · (refine (foldl_fix (fun t : State => t.power.vpiln) _ (fun t a => ?_) _ _).trans ((foldl_fix (fun t : State => t.power.vpiln) _ (fun t a => ?_) _ _).trans rfl) <;> first | (split <;> simp) | simp)
  · (refine (foldl_fix (fun t : State => t.power.vdrv) _ (fun t a => ?_) _ _).trans ((foldl_fix (fun t : State => t.power.vdrv) _ (fun t a => ?_) _ _).trans rfl) <;> first | (split <;> simp) | simp)
  · (refine (foldl_fix (fun t : State => t.power.pfin) _ (fun t a => ?_) _ _).trans ((foldl_fix (fun t : State => t.power.pfin) _ (fun t a => ?_) _ _).trans rfl) <;> first | (split <;> simp) | simp)
  · (refine (foldl_fix (fun t : State => t.power.trimmed) _ (fun t a => ?_) _ _).trans ((foldl_fix (fun t : State => t.power.trimmed) _ (fun t a => ?_) _ _).trans rfl) <;> first | (split <;> simp) | simp)
  · (refine (foldl_fix (fun t : State => t.power.period) _ (fun t a => ?_) _ _).trans ((foldl_fix (fun t : State => t.power.period) _ (fun t a => ?_) _ _).trans rfl) <;> first | (split <;> simp) | simp)
  · (refine (foldl_fix (fun t : State => t.power.pilRebuilt) _ (fun t a => ?_) _ _).trans ((foldl_fix (fun t : State => t.power.pilRebuilt) _ (fun t a => ?_) _ _).trans rfl) <;> first | (split <;> simp) | simp)
  · (refine (foldl_fix (fun t : State => t.power.tsLatch) _ (fun t a => ?_) _ _).trans ((foldl_fix (fun t : State => t.power.tsLatch) _ (fun t a => ?_) _ _).trans rfl) <;> first | (split <;> simp) | simp)
  · (refine (foldl_fix (fun t : State => t.power.protLock) _ (fun t a => ?_) _ _).trans ((foldl_fix (fun t : State => t.power.protLock) _ (fun t a => ?_) _ _).trans rfl) <;> first | (split <;> simp) | simp)
  · (refine (foldl_fix (fun t : State => t.power.retryWin) _ (fun t a => ?_) _ _).trans ((foldl_fix (fun t : State => t.power.retryWin) _ (fun t a => ?_) _ _).trans rfl) <;> first | (split <;> simp) | simp)
  · (refine (foldl_fix (fun t : State => t.power.retryMax) _ (fun t a => ?_) _ _).trans ((foldl_fix (fun t : State => t.power.retryMax) _ (fun t a => ?_) _ _).trans rfl) <;> first | (split <;> simp) | simp)
  · (refine (foldl_fix (fun t : State => t.power.test) _ (fun t a => ?_) _ _).trans ((foldl_fix (fun t : State => t.power.test) _ (fun t a => ?_) _ _).trans rfl) <;> first | (split <;> simp) | simp)
  · (refine (foldl_fix (fun t : State => t.power.run) _ (fun t a => ?_) _ _).trans ((foldl_fix (fun t : State => t.power.run) _ (fun t a => ?_) _ _).trans rfl) <;> first | (split <;> simp) | simp)
  · (refine (foldl_fix (fun t : State => t.power.qtemp) _ (fun t a => ?_) _ _).trans ((foldl_fix (fun t : State => t.power.qtemp) _ (fun t a => ?_) _ _).trans rfl) <;> first | (split <;> simp) | simp)
  · (refine (foldl_fix (fun t : State => t.power.qband) _ (fun t a => ?_) _ _).trans ((foldl_fix (fun t : State => t.power.qband) _ (fun t a => ?_) _ _).trans rfl) <;> first | (split <;> simp) | simp)
  · (refine (foldl_fix (fun t : State => t.power.qchg) _ (fun t a => ?_) _ _).trans ((foldl_fix (fun t : State => t.power.qchg) _ (fun t a => ?_) _ _).trans rfl) <;> first | (split <;> simp) | simp)
  · (refine (foldl_fix (fun t : State => t.power.sum) _ (fun t a => ?_) _ _).trans ((foldl_fix (fun t : State => t.power.sum) _ (fun t a => ?_) _ _).trans rfl) <;> first | (split <;> simp) | simp)
  · (refine (foldl_fix (fun t : State => t.power.sumOver) _ (fun t a => ?_) _ _).trans ((foldl_fix (fun t : State => t.power.sumOver) _ (fun t a => ?_) _ _).trans rfl) <;> first | (split <;> simp) | simp)
  · (refine (foldl_fix (fun t : State => t.power.rc) _ (fun t a => ?_) _ _).trans ((foldl_fix (fun t : State => t.power.rc) _ (fun t a => ?_) _ _).trans rfl) <;> first | (split <;> simp) | simp)
  · (refine (foldl_fix (fun t : State => t.power.im) _ (fun t a => ?_) _ _).trans ((foldl_fix (fun t : State => t.power.im) _ (fun t a => ?_) _ _).trans rfl) <;> first | (split <;> simp) | simp)
  · (refine (foldl_fix (fun t : State => t.power.seq) _ (fun t a => ?_) _ _).trans ((foldl_fix (fun t : State => t.power.seq) _ (fun t a => ?_) _ _).trans rfl) <;> first | (split <;> simp) | simp)
  · (refine (foldl_fix (fun t : State => t.power.seqPerm) _ (fun t a => ?_) _ _).trans ((foldl_fix (fun t : State => t.power.seqPerm) _ (fun t a => ?_) _ _).trans rfl) <;> first | (split <;> simp) | simp)
  · (refine (foldl_fix (fun t : State => t.power.seqProx) _ (fun t a => ?_) _ _).trans ((foldl_fix (fun t : State => t.power.seqProx) _ (fun t a => ?_) _ _).trans rfl) <;> first | (split <;> simp) | simp)
  · (refine (foldl_fix (fun t : State => t.power.psq) _ (fun t a => ?_) _ _).trans ((foldl_fix (fun t : State => t.power.psq) _ (fun t a => ?_) _ _).trans rfl) <;> first | (split <;> simp) | simp)
  · (refine (foldl_fix (fun t : State => t.power.psqDue) _ (fun t a => ?_) _ _).trans ((foldl_fix (fun t : State => t.power.psqDue) _ (fun t a => ?_) _ _).trans rfl) <;> first | (split <;> simp) | simp)
  · (refine (foldl_fix (fun t : State => t.power.fields) _ (fun t a => ?_) _ _).trans ((foldl_fix (fun t : State => t.power.fields) _ (fun t a => ?_) _ _).trans rfl) <;> first | (split <;> simp) | simp)
  · (refine (foldl_fix (fun t : State => t.power.lines) _ (fun t a => ?_) _ _).trans ((foldl_fix (fun t : State => t.power.lines) _ (fun t a => ?_) _ _).trans rfl) <;> first | (split <;> simp) | simp)
  · (refine (foldl_fix (fun t : State => t.power.readers) _ (fun t a => ?_) _ _).trans ((foldl_fix (fun t : State => t.power.readers) _ (fun t a => ?_) _ _).trans rfl) <;> first | (split <;> simp) | simp)
  · (refine (foldl_fix (fun t : State => t.power.tags) _ (fun t a => ?_) _ _).trans ((foldl_fix (fun t : State => t.power.tags) _ (fun t a => ?_) _ _).trans rfl) <;> first | (split <;> simp) | simp)
  · (refine (foldl_fix (fun t : State => t.die) _ (fun t a => ?_) _ _).trans ((foldl_fix (fun t : State => t.die) _ (fun t a => ?_) _ _).trans rfl) <;> first | (split <;> simp) | simp)
  · (refine (foldl_fix (fun t : State => t.fuses) _ (fun t a => ?_) _ _).trans ((foldl_fix (fun t : State => t.fuses) _ (fun t a => ?_) _ _).trans rfl) <;> first | (split <;> simp) | simp)
  · (refine (foldl_fix (fun t : State => t.obj) _ (fun t a => ?_) _ _).trans ((foldl_fix (fun t : State => t.obj) _ (fun t a => ?_) _ _).trans rfl) <;> first | (split <;> simp) | simp)
  · (refine (foldl_fix (fun t : State => t.flash) _ (fun t a => ?_) _ _).trans ((foldl_fix (fun t : State => t.flash) _ (fun t a => ?_) _ _).trans rfl) <;> first | (split <;> simp) | simp)
  · (refine (foldl_fix (fun t : State => t.sec) _ (fun t a => ?_) _ _).trans ((foldl_fix (fun t : State => t.sec) _ (fun t a => ?_) _ _).trans rfl) <;> first | (split <;> simp) | simp)
  · (refine (foldl_fix (fun t : State => t.pending) _ (fun t a => ?_) _ _).trans ((foldl_fix (fun t : State => t.pending) _ (fun t a => ?_) _ _).trans rfl) <;> first | (split <;> simp) | simp)

@[simp] theorem evalGroups_parts (s : State) :
    (evalGroups s).bridle.st = s.bridle.st ∧ (evalGroups s).bridle.cause = s.bridle.cause ∧
    (evalGroups s).bridle.slot = s.bridle.slot ∧
    (evalGroups s).bridle.unsealed = s.bridle.unsealed ∧
    (evalGroups s).bridle.restarts = s.bridle.restarts ∧
    (evalGroups s).bridle.safeNLow = s.bridle.safeNLow ∧
    (evalGroups s).bridle.hbOn = s.bridle.hbOn ∧ (evalGroups s).bridle.oscFail = s.bridle.oscFail ∧
    (evalGroups s).bridle.inReset = s.bridle.inReset ∧
    (evalGroups s).bridle.loaded = s.bridle.loaded ∧ (evalGroups s).bridle.time = s.bridle.time ∧
    (evalGroups s).bridle.chal = s.bridle.chal ∧ (evalGroups s).bridle.postTag = s.bridle.postTag ∧
    (evalGroups s).bridle.postType = s.bridle.postType ∧
    (evalGroups s).bridle.postSt = s.bridle.postSt ∧ (evalGroups s).bridle.si = s.bridle.si ∧
    (evalGroups s).bridle.stoFault = s.bridle.stoFault ∧
    (evalGroups s).bridle.discard = s.bridle.discard ∧ (evalGroups s).bridle.rx = s.bridle.rx ∧
    (evalGroups s).bridle.tx = s.bridle.tx ∧
    (evalGroups s).bridle.edgeIgnored = s.bridle.edgeIgnored ∧
    (evalGroups s).bridle.post = s.bridle.post ∧
    (evalGroups s).bridle.postStatus = s.bridle.postStatus ∧
    (evalGroups s).bridle.fifo = s.bridle.fifo ∧ (evalGroups s).bridle.window = s.bridle.window ∧
    (evalGroups s).bridle.cfg = s.bridle.cfg ∧ (evalGroups s).bridle.cfgBytes = s.bridle.cfgBytes ∧
    (evalGroups s).bridle.mem = s.bridle.mem ∧ (evalGroups s).bridle.hart = s.bridle.hart ∧
    (evalGroups s).bridle.mirBad = s.bridle.mirBad := by
  unfold evalGroups; dsimp only
  refine ⟨?_, ?_, ?_, ?_, ?_, ?_, ?_, ?_, ?_, ?_, ?_, ?_, ?_, ?_, ?_, ?_, ?_, ?_, ?_, ?_, ?_, ?_, ?_, ?_, ?_, ?_, ?_, ?_, ?_, ?_⟩
  · (refine (foldl_fix (fun t : State => t.bridle.st) _ (fun t a => ?_) _ _).trans ((foldl_fix (fun t : State => t.bridle.st) _ (fun t a => ?_) _ _).trans rfl) <;> first | (split <;> simp) | simp)
  · (refine (foldl_fix (fun t : State => t.bridle.cause) _ (fun t a => ?_) _ _).trans ((foldl_fix (fun t : State => t.bridle.cause) _ (fun t a => ?_) _ _).trans rfl) <;> first | (split <;> simp) | simp)
  · (refine (foldl_fix (fun t : State => t.bridle.slot) _ (fun t a => ?_) _ _).trans ((foldl_fix (fun t : State => t.bridle.slot) _ (fun t a => ?_) _ _).trans rfl) <;> first | (split <;> simp) | simp)
  · (refine (foldl_fix (fun t : State => t.bridle.unsealed) _ (fun t a => ?_) _ _).trans ((foldl_fix (fun t : State => t.bridle.unsealed) _ (fun t a => ?_) _ _).trans rfl) <;> first | (split <;> simp) | simp)
  · (refine (foldl_fix (fun t : State => t.bridle.restarts) _ (fun t a => ?_) _ _).trans ((foldl_fix (fun t : State => t.bridle.restarts) _ (fun t a => ?_) _ _).trans rfl) <;> first | (split <;> simp) | simp)
  · (refine (foldl_fix (fun t : State => t.bridle.safeNLow) _ (fun t a => ?_) _ _).trans ((foldl_fix (fun t : State => t.bridle.safeNLow) _ (fun t a => ?_) _ _).trans rfl) <;> first | (split <;> simp) | simp)
  · (refine (foldl_fix (fun t : State => t.bridle.hbOn) _ (fun t a => ?_) _ _).trans ((foldl_fix (fun t : State => t.bridle.hbOn) _ (fun t a => ?_) _ _).trans rfl) <;> first | (split <;> simp) | simp)
  · (refine (foldl_fix (fun t : State => t.bridle.oscFail) _ (fun t a => ?_) _ _).trans ((foldl_fix (fun t : State => t.bridle.oscFail) _ (fun t a => ?_) _ _).trans rfl) <;> first | (split <;> simp) | simp)
  · (refine (foldl_fix (fun t : State => t.bridle.inReset) _ (fun t a => ?_) _ _).trans ((foldl_fix (fun t : State => t.bridle.inReset) _ (fun t a => ?_) _ _).trans rfl) <;> first | (split <;> simp) | simp)
  · (refine (foldl_fix (fun t : State => t.bridle.loaded) _ (fun t a => ?_) _ _).trans ((foldl_fix (fun t : State => t.bridle.loaded) _ (fun t a => ?_) _ _).trans rfl) <;> first | (split <;> simp) | simp)
  · (refine (foldl_fix (fun t : State => t.bridle.time) _ (fun t a => ?_) _ _).trans ((foldl_fix (fun t : State => t.bridle.time) _ (fun t a => ?_) _ _).trans rfl) <;> first | (split <;> simp) | simp)
  · (refine (foldl_fix (fun t : State => t.bridle.chal) _ (fun t a => ?_) _ _).trans ((foldl_fix (fun t : State => t.bridle.chal) _ (fun t a => ?_) _ _).trans rfl) <;> first | (split <;> simp) | simp)
  · (refine (foldl_fix (fun t : State => t.bridle.postTag) _ (fun t a => ?_) _ _).trans ((foldl_fix (fun t : State => t.bridle.postTag) _ (fun t a => ?_) _ _).trans rfl) <;> first | (split <;> simp) | simp)
  · (refine (foldl_fix (fun t : State => t.bridle.postType) _ (fun t a => ?_) _ _).trans ((foldl_fix (fun t : State => t.bridle.postType) _ (fun t a => ?_) _ _).trans rfl) <;> first | (split <;> simp) | simp)
  · (refine (foldl_fix (fun t : State => t.bridle.postSt) _ (fun t a => ?_) _ _).trans ((foldl_fix (fun t : State => t.bridle.postSt) _ (fun t a => ?_) _ _).trans rfl) <;> first | (split <;> simp) | simp)
  · (refine (foldl_fix (fun t : State => t.bridle.si) _ (fun t a => ?_) _ _).trans ((foldl_fix (fun t : State => t.bridle.si) _ (fun t a => ?_) _ _).trans rfl) <;> first | (split <;> simp) | simp)
  · (refine (foldl_fix (fun t : State => t.bridle.stoFault) _ (fun t a => ?_) _ _).trans ((foldl_fix (fun t : State => t.bridle.stoFault) _ (fun t a => ?_) _ _).trans rfl) <;> first | (split <;> simp) | simp)
  · (refine (foldl_fix (fun t : State => t.bridle.discard) _ (fun t a => ?_) _ _).trans ((foldl_fix (fun t : State => t.bridle.discard) _ (fun t a => ?_) _ _).trans rfl) <;> first | (split <;> simp) | simp)
  · (refine (foldl_fix (fun t : State => t.bridle.rx) _ (fun t a => ?_) _ _).trans ((foldl_fix (fun t : State => t.bridle.rx) _ (fun t a => ?_) _ _).trans rfl) <;> first | (split <;> simp) | simp)
  · (refine (foldl_fix (fun t : State => t.bridle.tx) _ (fun t a => ?_) _ _).trans ((foldl_fix (fun t : State => t.bridle.tx) _ (fun t a => ?_) _ _).trans rfl) <;> first | (split <;> simp) | simp)
  · (refine (foldl_fix (fun t : State => t.bridle.edgeIgnored) _ (fun t a => ?_) _ _).trans ((foldl_fix (fun t : State => t.bridle.edgeIgnored) _ (fun t a => ?_) _ _).trans rfl) <;> first | (split <;> simp) | simp)
  · (refine (foldl_fix (fun t : State => t.bridle.post) _ (fun t a => ?_) _ _).trans ((foldl_fix (fun t : State => t.bridle.post) _ (fun t a => ?_) _ _).trans rfl) <;> first | (split <;> simp) | simp)
  · (refine (foldl_fix (fun t : State => t.bridle.postStatus) _ (fun t a => ?_) _ _).trans ((foldl_fix (fun t : State => t.bridle.postStatus) _ (fun t a => ?_) _ _).trans rfl) <;> first | (split <;> simp) | simp)
  · (refine (foldl_fix (fun t : State => t.bridle.fifo) _ (fun t a => ?_) _ _).trans ((foldl_fix (fun t : State => t.bridle.fifo) _ (fun t a => ?_) _ _).trans rfl) <;> first | (split <;> simp) | simp)
  · (refine (foldl_fix (fun t : State => t.bridle.window) _ (fun t a => ?_) _ _).trans ((foldl_fix (fun t : State => t.bridle.window) _ (fun t a => ?_) _ _).trans rfl) <;> first | (split <;> simp) | simp)
  · (refine (foldl_fix (fun t : State => t.bridle.cfg) _ (fun t a => ?_) _ _).trans ((foldl_fix (fun t : State => t.bridle.cfg) _ (fun t a => ?_) _ _).trans rfl) <;> first | (split <;> simp) | simp)
  · (refine (foldl_fix (fun t : State => t.bridle.cfgBytes) _ (fun t a => ?_) _ _).trans ((foldl_fix (fun t : State => t.bridle.cfgBytes) _ (fun t a => ?_) _ _).trans rfl) <;> first | (split <;> simp) | simp)
  · (refine (foldl_fix (fun t : State => t.bridle.mem) _ (fun t a => ?_) _ _).trans ((foldl_fix (fun t : State => t.bridle.mem) _ (fun t a => ?_) _ _).trans rfl) <;> first | (split <;> simp) | simp)
  · (refine (foldl_fix (fun t : State => t.bridle.hart) _ (fun t a => ?_) _ _).trans ((foldl_fix (fun t : State => t.bridle.hart) _ (fun t a => ?_) _ _).trans rfl) <;> first | (split <;> simp) | simp)
  · (refine (foldl_fix (fun t : State => t.bridle.mirBad) _ (fun t a => ?_) _ _).trans ((foldl_fix (fun t : State => t.bridle.mirBad) _ (fun t a => ?_) _ _).trans rfl) <;> first | (split <;> simp) | simp)

@[simp] theorem edgePair_same (i : Nat) (s : State) :
    (edgePair i s).app.clk = s.app.clk ∧ (edgePair i s).app.bkl = s.app.bkl ∧
    (edgePair i s).app.mbx = s.app.mbx ∧ (edgePair i s).app.pmc = s.app.pmc ∧
    (edgePair i s).app.hrn = s.app.hrn ∧ (edgePair i s).app.girth = s.app.girth ∧
    (edgePair i s).app.harts = s.app.harts ∧ (edgePair i s).app.mem = s.app.mem ∧
    (edgePair i s).app.lane = s.app.lane ∧ (edgePair i s).app.link = s.app.link ∧
    (edgePair i s).app.sl = s.app.sl ∧ (edgePair i s).app.eng = s.app.eng ∧
    (edgePair i s).app.ctx = s.app.ctx ∧ (edgePair i s).app.plc = s.app.plc ∧
    (edgePair i s).app.veh = s.app.veh ∧ (edgePair i s).app.server = s.app.server ∧
    (edgePair i s).app.journal = s.app.journal ∧ (edgePair i s).app.tack = s.app.tack ∧
    (edgePair i s).cold = s.cold ∧ (edgePair i s).coldMr = s.coldMr ∧
    (edgePair i s).trial = s.trial ∧ (edgePair i s).power = s.power ∧ (edgePair i s).die = s.die ∧
    (edgePair i s).fuses = s.fuses ∧ (edgePair i s).obj = s.obj ∧ (edgePair i s).flash = s.flash ∧
    (edgePair i s).sec = s.sec ∧ (edgePair i s).fresh = s.fresh ∧ (edgePair i s).pending = s.pending := by
  unfold edgePair; dsimp only; (repeat' split) <;> simp

@[simp] theorem edgePair_parts (i : Nat) (s : State) :
    (edgePair i s).bridle.st = s.bridle.st ∧ (edgePair i s).bridle.cause = s.bridle.cause ∧
    (edgePair i s).bridle.slot = s.bridle.slot ∧
    (edgePair i s).bridle.unsealed = s.bridle.unsealed ∧
    (edgePair i s).bridle.restarts = s.bridle.restarts ∧
    (edgePair i s).bridle.safeNLow = s.bridle.safeNLow ∧
    (edgePair i s).bridle.hbOn = s.bridle.hbOn ∧ (edgePair i s).bridle.oscFail = s.bridle.oscFail ∧
    (edgePair i s).bridle.inReset = s.bridle.inReset ∧
    (edgePair i s).bridle.loaded = s.bridle.loaded ∧ (edgePair i s).bridle.time = s.bridle.time ∧
    (edgePair i s).bridle.chal = s.bridle.chal ∧ (edgePair i s).bridle.postTag = s.bridle.postTag ∧
    (edgePair i s).bridle.postType = s.bridle.postType ∧
    (edgePair i s).bridle.postSt = s.bridle.postSt ∧
    (edgePair i s).bridle.overrun = s.bridle.overrun ∧
    (edgePair i s).bridle.acked = s.bridle.acked ∧ (edgePair i s).bridle.newest = s.bridle.newest ∧
    (edgePair i s).bridle.notes = s.bridle.notes ∧ (edgePair i s).bridle.pts = s.bridle.pts ∧
    (edgePair i s).bridle.dev = s.bridle.dev ∧ (edgePair i s).bridle.stoFault = s.bridle.stoFault ∧
    (edgePair i s).bridle.stoRel = s.bridle.stoRel ∧
    (edgePair i s).bridle.latched = s.bridle.latched ∧
    (edgePair i s).bridle.running = s.bridle.running ∧
    (edgePair i s).bridle.discard = s.bridle.discard ∧ (edgePair i s).bridle.rx = s.bridle.rx ∧
    (edgePair i s).bridle.tx = s.bridle.tx ∧
    (edgePair i s).bridle.edgeIgnored = s.bridle.edgeIgnored ∧
    (edgePair i s).bridle.post = s.bridle.post ∧
    (edgePair i s).bridle.postStatus = s.bridle.postStatus ∧
    (edgePair i s).bridle.fifo = s.bridle.fifo ∧ (edgePair i s).bridle.window = s.bridle.window ∧
    (edgePair i s).bridle.cfg = s.bridle.cfg ∧ (edgePair i s).bridle.cfgBytes = s.bridle.cfgBytes ∧
    (edgePair i s).bridle.mem = s.bridle.mem ∧ (edgePair i s).bridle.hart = s.bridle.hart ∧
    (edgePair i s).bridle.mirBad = s.bridle.mirBad := by
  unfold edgePair; dsimp only; (repeat' split) <;> simp

@[simp] theorem edgeDevice_same (d : Nat) (s : State) :
    (edgeDevice d s).app.clk = s.app.clk ∧ (edgeDevice d s).app.mbx = s.app.mbx ∧
    (edgeDevice d s).app.hrn = s.app.hrn ∧ (edgeDevice d s).app.harts = s.app.harts ∧
    (edgeDevice d s).app.mem = s.app.mem ∧ (edgeDevice d s).app.lane = s.app.lane ∧
    (edgeDevice d s).app.link = s.app.link ∧ (edgeDevice d s).app.sl = s.app.sl ∧
    (edgeDevice d s).app.eng = s.app.eng ∧ (edgeDevice d s).app.ctx = s.app.ctx ∧
    (edgeDevice d s).app.veh = s.app.veh ∧ (edgeDevice d s).app.journal = s.app.journal ∧
    (edgeDevice d s).app.tack = s.app.tack ∧ (edgeDevice d s).cold = s.cold ∧
    (edgeDevice d s).coldMr = s.coldMr ∧ (edgeDevice d s).trial = s.trial ∧
    (edgeDevice d s).power.safe = s.power.safe ∧ (edgeDevice d s).power.clkOk = s.power.clkOk ∧
    (edgeDevice d s).power.report = s.power.report ∧ (edgeDevice d s).power.hbRun = s.power.hbRun ∧
    (edgeDevice d s).power.vload = s.power.vload ∧ (edgeDevice d s).power.vpilp = s.power.vpilp ∧
    (edgeDevice d s).power.vpiln = s.power.vpiln ∧ (edgeDevice d s).power.vdrv = s.power.vdrv ∧
    (edgeDevice d s).power.pfin = s.power.pfin ∧ (edgeDevice d s).power.trimmed = s.power.trimmed ∧
    (edgeDevice d s).power.period = s.power.period ∧
    (edgeDevice d s).power.pilRebuilt = s.power.pilRebuilt ∧
    (edgeDevice d s).power.tsLatch = s.power.tsLatch ∧
    (edgeDevice d s).power.protLock = s.power.protLock ∧
    (edgeDevice d s).power.retryWin = s.power.retryWin ∧
    (edgeDevice d s).power.retryMax = s.power.retryMax ∧
    (edgeDevice d s).power.test = s.power.test ∧ (edgeDevice d s).power.run = s.power.run ∧
    (edgeDevice d s).power.qtemp = s.power.qtemp ∧ (edgeDevice d s).power.qband = s.power.qband ∧
    (edgeDevice d s).power.qchg = s.power.qchg ∧ (edgeDevice d s).power.sum = s.power.sum ∧
    (edgeDevice d s).power.sumOver = s.power.sumOver ∧ (edgeDevice d s).power.rc = s.power.rc ∧
    (edgeDevice d s).power.im = s.power.im ∧ (edgeDevice d s).power.sto = s.power.sto ∧
    (edgeDevice d s).power.seq = s.power.seq ∧ (edgeDevice d s).power.seqPerm = s.power.seqPerm ∧
    (edgeDevice d s).power.seqProx = s.power.seqProx ∧ (edgeDevice d s).power.psq = s.power.psq ∧
    (edgeDevice d s).power.psqDue = s.power.psqDue ∧
    (edgeDevice d s).power.fields = s.power.fields ∧ (edgeDevice d s).power.lines = s.power.lines ∧
    (edgeDevice d s).power.readers = s.power.readers ∧ (edgeDevice d s).power.tags = s.power.tags ∧
    (edgeDevice d s).die = s.die ∧ (edgeDevice d s).fuses = s.fuses ∧
    (edgeDevice d s).obj = s.obj ∧ (edgeDevice d s).flash = s.flash ∧
    (edgeDevice d s).sec = s.sec ∧ (edgeDevice d s).pending = s.pending := by
  unfold edgeDevice; (repeat' split) <;> simp [State.updDev]

@[simp] theorem edgeDevice_parts (d : Nat) (s : State) :
    (edgeDevice d s).bridle.st = s.bridle.st ∧ (edgeDevice d s).bridle.cause = s.bridle.cause ∧
    (edgeDevice d s).bridle.slot = s.bridle.slot ∧
    (edgeDevice d s).bridle.unsealed = s.bridle.unsealed ∧
    (edgeDevice d s).bridle.restarts = s.bridle.restarts ∧
    (edgeDevice d s).bridle.safeNLow = s.bridle.safeNLow ∧
    (edgeDevice d s).bridle.hbOn = s.bridle.hbOn ∧
    (edgeDevice d s).bridle.oscFail = s.bridle.oscFail ∧
    (edgeDevice d s).bridle.inReset = s.bridle.inReset ∧
    (edgeDevice d s).bridle.loaded = s.bridle.loaded ∧
    (edgeDevice d s).bridle.time = s.bridle.time ∧ (edgeDevice d s).bridle.chal = s.bridle.chal ∧
    (edgeDevice d s).bridle.postTag = s.bridle.postTag ∧
    (edgeDevice d s).bridle.postType = s.bridle.postType ∧
    (edgeDevice d s).bridle.postSt = s.bridle.postSt ∧ (edgeDevice d s).bridle.si = s.bridle.si ∧
    (edgeDevice d s).bridle.stoFault = s.bridle.stoFault ∧
    (edgeDevice d s).bridle.stoRel = s.bridle.stoRel ∧
    (edgeDevice d s).bridle.latched = s.bridle.latched ∧
    (edgeDevice d s).bridle.running = s.bridle.running ∧
    (edgeDevice d s).bridle.discard = s.bridle.discard ∧ (edgeDevice d s).bridle.rx = s.bridle.rx ∧
    (edgeDevice d s).bridle.tx = s.bridle.tx ∧ (edgeDevice d s).bridle.post = s.bridle.post ∧
    (edgeDevice d s).bridle.postStatus = s.bridle.postStatus ∧
    (edgeDevice d s).bridle.fifo = s.bridle.fifo ∧
    (edgeDevice d s).bridle.window = s.bridle.window ∧ (edgeDevice d s).bridle.cfg = s.bridle.cfg ∧
    (edgeDevice d s).bridle.cfgBytes = s.bridle.cfgBytes ∧
    (edgeDevice d s).bridle.mem = s.bridle.mem ∧ (edgeDevice d s).bridle.hart = s.bridle.hart ∧
    (edgeDevice d s).bridle.mirBad = s.bridle.mirBad := by
  unfold edgeDevice; (repeat' split) <;> simp [State.updDev]

@[simp] theorem edgePoint_same (p : Nat) (s : State) :
    (edgePoint p s).app.clk = s.app.clk ∧ (edgePoint p s).app.mbx = s.app.mbx ∧
    (edgePoint p s).app.hrn = s.app.hrn ∧ (edgePoint p s).app.harts = s.app.harts ∧
    (edgePoint p s).app.mem = s.app.mem ∧ (edgePoint p s).app.lane = s.app.lane ∧
    (edgePoint p s).app.link = s.app.link ∧ (edgePoint p s).app.sl = s.app.sl ∧
    (edgePoint p s).app.eng = s.app.eng ∧ (edgePoint p s).app.ctx = s.app.ctx ∧
    (edgePoint p s).app.veh = s.app.veh ∧ (edgePoint p s).app.journal = s.app.journal ∧
    (edgePoint p s).app.tack = s.app.tack ∧ (edgePoint p s).cold = s.cold ∧
    (edgePoint p s).coldMr = s.coldMr ∧ (edgePoint p s).trial = s.trial ∧
    (edgePoint p s).power.safe = s.power.safe ∧ (edgePoint p s).power.clkOk = s.power.clkOk ∧
    (edgePoint p s).power.report = s.power.report ∧ (edgePoint p s).power.hbRun = s.power.hbRun ∧
    (edgePoint p s).power.vload = s.power.vload ∧ (edgePoint p s).power.vpilp = s.power.vpilp ∧
    (edgePoint p s).power.vpiln = s.power.vpiln ∧ (edgePoint p s).power.vdrv = s.power.vdrv ∧
    (edgePoint p s).power.pfin = s.power.pfin ∧ (edgePoint p s).power.trimmed = s.power.trimmed ∧
    (edgePoint p s).power.period = s.power.period ∧
    (edgePoint p s).power.pilRebuilt = s.power.pilRebuilt ∧
    (edgePoint p s).power.tsLatch = s.power.tsLatch ∧
    (edgePoint p s).power.protLock = s.power.protLock ∧
    (edgePoint p s).power.retryWin = s.power.retryWin ∧
    (edgePoint p s).power.retryMax = s.power.retryMax ∧ (edgePoint p s).power.test = s.power.test ∧
    (edgePoint p s).power.run = s.power.run ∧ (edgePoint p s).power.qtemp = s.power.qtemp ∧
    (edgePoint p s).power.qband = s.power.qband ∧ (edgePoint p s).power.qchg = s.power.qchg ∧
    (edgePoint p s).power.sum = s.power.sum ∧ (edgePoint p s).power.sumOver = s.power.sumOver ∧
    (edgePoint p s).power.rc = s.power.rc ∧ (edgePoint p s).power.im = s.power.im ∧
    (edgePoint p s).power.sto = s.power.sto ∧ (edgePoint p s).power.seq = s.power.seq ∧
    (edgePoint p s).power.seqPerm = s.power.seqPerm ∧
    (edgePoint p s).power.seqProx = s.power.seqProx ∧ (edgePoint p s).power.psq = s.power.psq ∧
    (edgePoint p s).power.psqDue = s.power.psqDue ∧ (edgePoint p s).power.fields = s.power.fields ∧
    (edgePoint p s).power.lines = s.power.lines ∧ (edgePoint p s).power.readers = s.power.readers ∧
    (edgePoint p s).power.tags = s.power.tags ∧ (edgePoint p s).die = s.die ∧
    (edgePoint p s).fuses = s.fuses ∧ (edgePoint p s).obj = s.obj ∧
    (edgePoint p s).flash = s.flash ∧ (edgePoint p s).sec = s.sec ∧
    (edgePoint p s).pending = s.pending := by
  unfold edgePoint; split <;> simp [State.updBp]

@[simp] theorem edgePoint_parts (p : Nat) (s : State) :
    (edgePoint p s).bridle.st = s.bridle.st ∧ (edgePoint p s).bridle.cause = s.bridle.cause ∧
    (edgePoint p s).bridle.slot = s.bridle.slot ∧
    (edgePoint p s).bridle.unsealed = s.bridle.unsealed ∧
    (edgePoint p s).bridle.restarts = s.bridle.restarts ∧
    (edgePoint p s).bridle.safeNLow = s.bridle.safeNLow ∧
    (edgePoint p s).bridle.hbOn = s.bridle.hbOn ∧
    (edgePoint p s).bridle.oscFail = s.bridle.oscFail ∧
    (edgePoint p s).bridle.inReset = s.bridle.inReset ∧
    (edgePoint p s).bridle.loaded = s.bridle.loaded ∧ (edgePoint p s).bridle.time = s.bridle.time ∧
    (edgePoint p s).bridle.chal = s.bridle.chal ∧
    (edgePoint p s).bridle.postTag = s.bridle.postTag ∧
    (edgePoint p s).bridle.postType = s.bridle.postType ∧
    (edgePoint p s).bridle.postSt = s.bridle.postSt ∧ (edgePoint p s).bridle.dev = s.bridle.dev ∧
    (edgePoint p s).bridle.si = s.bridle.si ∧ (edgePoint p s).bridle.stoFault = s.bridle.stoFault ∧
    (edgePoint p s).bridle.stoRel = s.bridle.stoRel ∧
    (edgePoint p s).bridle.latched = s.bridle.latched ∧
    (edgePoint p s).bridle.running = s.bridle.running ∧
    (edgePoint p s).bridle.discard = s.bridle.discard ∧ (edgePoint p s).bridle.rx = s.bridle.rx ∧
    (edgePoint p s).bridle.tx = s.bridle.tx ∧
    (edgePoint p s).bridle.edgeIgnored = s.bridle.edgeIgnored ∧
    (edgePoint p s).bridle.post = s.bridle.post ∧
    (edgePoint p s).bridle.postStatus = s.bridle.postStatus ∧
    (edgePoint p s).bridle.fifo = s.bridle.fifo ∧ (edgePoint p s).bridle.window = s.bridle.window ∧
    (edgePoint p s).bridle.cfg = s.bridle.cfg ∧
    (edgePoint p s).bridle.cfgBytes = s.bridle.cfgBytes ∧
    (edgePoint p s).bridle.mem = s.bridle.mem ∧ (edgePoint p s).bridle.hart = s.bridle.hart ∧
    (edgePoint p s).bridle.mirBad = s.bridle.mirBad := by
  unfold edgePoint; split <;> simp [State.updBp]

@[simp] theorem edgeGroup_same (g : Nat) (s : State) :
    (edgeGroup g s).app.clk = s.app.clk ∧ (edgeGroup g s).app.mbx = s.app.mbx ∧
    (edgeGroup g s).app.hrn = s.app.hrn ∧ (edgeGroup g s).app.harts = s.app.harts ∧
    (edgeGroup g s).app.mem = s.app.mem ∧ (edgeGroup g s).app.lane = s.app.lane ∧
    (edgeGroup g s).app.link = s.app.link ∧ (edgeGroup g s).app.sl = s.app.sl ∧
    (edgeGroup g s).app.eng = s.app.eng ∧ (edgeGroup g s).app.ctx = s.app.ctx ∧
    (edgeGroup g s).app.veh = s.app.veh ∧ (edgeGroup g s).app.journal = s.app.journal ∧
    (edgeGroup g s).app.tack = s.app.tack ∧ (edgeGroup g s).cold = s.cold ∧
    (edgeGroup g s).coldMr = s.coldMr ∧ (edgeGroup g s).trial = s.trial ∧
    (edgeGroup g s).power.safe = s.power.safe ∧ (edgeGroup g s).power.clkOk = s.power.clkOk ∧
    (edgeGroup g s).power.report = s.power.report ∧ (edgeGroup g s).power.hbRun = s.power.hbRun ∧
    (edgeGroup g s).power.vload = s.power.vload ∧ (edgeGroup g s).power.vpilp = s.power.vpilp ∧
    (edgeGroup g s).power.vpiln = s.power.vpiln ∧ (edgeGroup g s).power.vdrv = s.power.vdrv ∧
    (edgeGroup g s).power.pfin = s.power.pfin ∧ (edgeGroup g s).power.trimmed = s.power.trimmed ∧
    (edgeGroup g s).power.period = s.power.period ∧
    (edgeGroup g s).power.pilRebuilt = s.power.pilRebuilt ∧
    (edgeGroup g s).power.tsLatch = s.power.tsLatch ∧
    (edgeGroup g s).power.protLock = s.power.protLock ∧
    (edgeGroup g s).power.retryWin = s.power.retryWin ∧
    (edgeGroup g s).power.retryMax = s.power.retryMax ∧ (edgeGroup g s).power.test = s.power.test ∧
    (edgeGroup g s).power.run = s.power.run ∧ (edgeGroup g s).power.qtemp = s.power.qtemp ∧
    (edgeGroup g s).power.qband = s.power.qband ∧ (edgeGroup g s).power.qchg = s.power.qchg ∧
    (edgeGroup g s).power.sum = s.power.sum ∧ (edgeGroup g s).power.sumOver = s.power.sumOver ∧
    (edgeGroup g s).power.rc = s.power.rc ∧ (edgeGroup g s).power.im = s.power.im ∧
    (edgeGroup g s).power.seq = s.power.seq ∧ (edgeGroup g s).power.seqPerm = s.power.seqPerm ∧
    (edgeGroup g s).power.seqProx = s.power.seqProx ∧ (edgeGroup g s).power.psq = s.power.psq ∧
    (edgeGroup g s).power.psqDue = s.power.psqDue ∧ (edgeGroup g s).power.fields = s.power.fields ∧
    (edgeGroup g s).power.lines = s.power.lines ∧ (edgeGroup g s).power.readers = s.power.readers ∧
    (edgeGroup g s).power.tags = s.power.tags ∧ (edgeGroup g s).die = s.die ∧
    (edgeGroup g s).fuses = s.fuses ∧ (edgeGroup g s).obj = s.obj ∧
    (edgeGroup g s).flash = s.flash ∧ (edgeGroup g s).sec = s.sec ∧
    (edgeGroup g s).pending = s.pending := by
  unfold edgeGroup; dsimp only
  refine ⟨?_, ?_, ?_, ?_, ?_, ?_, ?_, ?_, ?_, ?_, ?_, ?_, ?_, ?_, ?_, ?_, ?_, ?_, ?_, ?_, ?_, ?_, ?_, ?_, ?_, ?_, ?_, ?_, ?_, ?_, ?_, ?_, ?_, ?_, ?_, ?_, ?_, ?_, ?_, ?_, ?_, ?_, ?_, ?_, ?_, ?_, ?_, ?_, ?_, ?_, ?_, ?_, ?_, ?_, ?_, ?_⟩
  · (refine (foldl_fix (fun t : State => t.app.clk) _ (fun t a => ?_) _ _).trans ((foldl_fix (fun t : State => t.app.clk) _ (fun t a => ?_) _ _).trans ?_)) <;> first | (simp; done) | (split <;> simp <;> exact foldl_fix (fun t : State => t.app.clk) _ (fun t a => by simp) _ _)
  · (refine (foldl_fix (fun t : State => t.app.mbx) _ (fun t a => ?_) _ _).trans ((foldl_fix (fun t : State => t.app.mbx) _ (fun t a => ?_) _ _).trans ?_)) <;> first | (simp; done) | (split <;> simp <;> exact foldl_fix (fun t : State => t.app.mbx) _ (fun t a => by simp) _ _)
  · (refine (foldl_fix (fun t : State => t.app.hrn) _ (fun t a => ?_) _ _).trans ((foldl_fix (fun t : State => t.app.hrn) _ (fun t a => ?_) _ _).trans ?_)) <;> first | (simp; done) | (split <;> simp <;> exact foldl_fix (fun t : State => t.app.hrn) _ (fun t a => by simp) _ _)
  · (refine (foldl_fix (fun t : State => t.app.harts) _ (fun t a => ?_) _ _).trans ((foldl_fix (fun t : State => t.app.harts) _ (fun t a => ?_) _ _).trans ?_)) <;> first | (simp; done) | (split <;> simp <;> exact foldl_fix (fun t : State => t.app.harts) _ (fun t a => by simp) _ _)
  · (refine (foldl_fix (fun t : State => t.app.mem) _ (fun t a => ?_) _ _).trans ((foldl_fix (fun t : State => t.app.mem) _ (fun t a => ?_) _ _).trans ?_)) <;> first | (simp; done) | (split <;> simp <;> exact foldl_fix (fun t : State => t.app.mem) _ (fun t a => by simp) _ _)
  · (refine (foldl_fix (fun t : State => t.app.lane) _ (fun t a => ?_) _ _).trans ((foldl_fix (fun t : State => t.app.lane) _ (fun t a => ?_) _ _).trans ?_)) <;> first | (simp; done) | (split <;> simp <;> exact foldl_fix (fun t : State => t.app.lane) _ (fun t a => by simp) _ _)
  · (refine (foldl_fix (fun t : State => t.app.link) _ (fun t a => ?_) _ _).trans ((foldl_fix (fun t : State => t.app.link) _ (fun t a => ?_) _ _).trans ?_)) <;> first | (simp; done) | (split <;> simp <;> exact foldl_fix (fun t : State => t.app.link) _ (fun t a => by simp) _ _)
  · (refine (foldl_fix (fun t : State => t.app.sl) _ (fun t a => ?_) _ _).trans ((foldl_fix (fun t : State => t.app.sl) _ (fun t a => ?_) _ _).trans ?_)) <;> first | (simp; done) | (split <;> simp <;> exact foldl_fix (fun t : State => t.app.sl) _ (fun t a => by simp) _ _)
  · (refine (foldl_fix (fun t : State => t.app.eng) _ (fun t a => ?_) _ _).trans ((foldl_fix (fun t : State => t.app.eng) _ (fun t a => ?_) _ _).trans ?_)) <;> first | (simp; done) | (split <;> simp <;> exact foldl_fix (fun t : State => t.app.eng) _ (fun t a => by simp) _ _)
  · (refine (foldl_fix (fun t : State => t.app.ctx) _ (fun t a => ?_) _ _).trans ((foldl_fix (fun t : State => t.app.ctx) _ (fun t a => ?_) _ _).trans ?_)) <;> first | (simp; done) | (split <;> simp <;> exact foldl_fix (fun t : State => t.app.ctx) _ (fun t a => by simp) _ _)
  · (refine (foldl_fix (fun t : State => t.app.veh) _ (fun t a => ?_) _ _).trans ((foldl_fix (fun t : State => t.app.veh) _ (fun t a => ?_) _ _).trans ?_)) <;> first | (simp; done) | (split <;> simp <;> exact foldl_fix (fun t : State => t.app.veh) _ (fun t a => by simp) _ _)
  · (refine (foldl_fix (fun t : State => t.app.journal) _ (fun t a => ?_) _ _).trans ((foldl_fix (fun t : State => t.app.journal) _ (fun t a => ?_) _ _).trans ?_)) <;> first | (simp; done) | (split <;> simp <;> exact foldl_fix (fun t : State => t.app.journal) _ (fun t a => by simp) _ _)
  · (refine (foldl_fix (fun t : State => t.app.tack) _ (fun t a => ?_) _ _).trans ((foldl_fix (fun t : State => t.app.tack) _ (fun t a => ?_) _ _).trans ?_)) <;> first | (simp; done) | (split <;> simp <;> exact foldl_fix (fun t : State => t.app.tack) _ (fun t a => by simp) _ _)
  · (refine (foldl_fix (fun t : State => t.cold) _ (fun t a => ?_) _ _).trans ((foldl_fix (fun t : State => t.cold) _ (fun t a => ?_) _ _).trans ?_)) <;> first | (simp; done) | (split <;> simp <;> exact foldl_fix (fun t : State => t.cold) _ (fun t a => by simp) _ _)
  · (refine (foldl_fix (fun t : State => t.coldMr) _ (fun t a => ?_) _ _).trans ((foldl_fix (fun t : State => t.coldMr) _ (fun t a => ?_) _ _).trans ?_)) <;> first | (simp; done) | (split <;> simp <;> exact foldl_fix (fun t : State => t.coldMr) _ (fun t a => by simp) _ _)
  · (refine (foldl_fix (fun t : State => t.trial) _ (fun t a => ?_) _ _).trans ((foldl_fix (fun t : State => t.trial) _ (fun t a => ?_) _ _).trans ?_)) <;> first | (simp; done) | (split <;> simp <;> exact foldl_fix (fun t : State => t.trial) _ (fun t a => by simp) _ _)
  · (refine (foldl_fix (fun t : State => t.power.safe) _ (fun t a => ?_) _ _).trans ((foldl_fix (fun t : State => t.power.safe) _ (fun t a => ?_) _ _).trans ?_)) <;> first | (simp; done) | (split <;> simp <;> exact foldl_fix (fun t : State => t.power.safe) _ (fun t a => by simp) _ _)
  · (refine (foldl_fix (fun t : State => t.power.clkOk) _ (fun t a => ?_) _ _).trans ((foldl_fix (fun t : State => t.power.clkOk) _ (fun t a => ?_) _ _).trans ?_)) <;> first | (simp; done) | (split <;> simp <;> exact foldl_fix (fun t : State => t.power.clkOk) _ (fun t a => by simp) _ _)
  · (refine (foldl_fix (fun t : State => t.power.report) _ (fun t a => ?_) _ _).trans ((foldl_fix (fun t : State => t.power.report) _ (fun t a => ?_) _ _).trans ?_)) <;> first | (simp; done) | (split <;> simp <;> exact foldl_fix (fun t : State => t.power.report) _ (fun t a => by simp) _ _)
  · (refine (foldl_fix (fun t : State => t.power.hbRun) _ (fun t a => ?_) _ _).trans ((foldl_fix (fun t : State => t.power.hbRun) _ (fun t a => ?_) _ _).trans ?_)) <;> first | (simp; done) | (split <;> simp <;> exact foldl_fix (fun t : State => t.power.hbRun) _ (fun t a => by simp) _ _)
  · (refine (foldl_fix (fun t : State => t.power.vload) _ (fun t a => ?_) _ _).trans ((foldl_fix (fun t : State => t.power.vload) _ (fun t a => ?_) _ _).trans ?_)) <;> first | (simp; done) | (split <;> simp <;> exact foldl_fix (fun t : State => t.power.vload) _ (fun t a => by simp) _ _)
  · (refine (foldl_fix (fun t : State => t.power.vpilp) _ (fun t a => ?_) _ _).trans ((foldl_fix (fun t : State => t.power.vpilp) _ (fun t a => ?_) _ _).trans ?_)) <;> first | (simp; done) | (split <;> simp <;> exact foldl_fix (fun t : State => t.power.vpilp) _ (fun t a => by simp) _ _)
  · (refine (foldl_fix (fun t : State => t.power.vpiln) _ (fun t a => ?_) _ _).trans ((foldl_fix (fun t : State => t.power.vpiln) _ (fun t a => ?_) _ _).trans ?_)) <;> first | (simp; done) | (split <;> simp <;> exact foldl_fix (fun t : State => t.power.vpiln) _ (fun t a => by simp) _ _)
  · (refine (foldl_fix (fun t : State => t.power.vdrv) _ (fun t a => ?_) _ _).trans ((foldl_fix (fun t : State => t.power.vdrv) _ (fun t a => ?_) _ _).trans ?_)) <;> first | (simp; done) | (split <;> simp <;> exact foldl_fix (fun t : State => t.power.vdrv) _ (fun t a => by simp) _ _)
  · (refine (foldl_fix (fun t : State => t.power.pfin) _ (fun t a => ?_) _ _).trans ((foldl_fix (fun t : State => t.power.pfin) _ (fun t a => ?_) _ _).trans ?_)) <;> first | (simp; done) | (split <;> simp <;> exact foldl_fix (fun t : State => t.power.pfin) _ (fun t a => by simp) _ _)
  · (refine (foldl_fix (fun t : State => t.power.trimmed) _ (fun t a => ?_) _ _).trans ((foldl_fix (fun t : State => t.power.trimmed) _ (fun t a => ?_) _ _).trans ?_)) <;> first | (simp; done) | (split <;> simp <;> exact foldl_fix (fun t : State => t.power.trimmed) _ (fun t a => by simp) _ _)
  · (refine (foldl_fix (fun t : State => t.power.period) _ (fun t a => ?_) _ _).trans ((foldl_fix (fun t : State => t.power.period) _ (fun t a => ?_) _ _).trans ?_)) <;> first | (simp; done) | (split <;> simp <;> exact foldl_fix (fun t : State => t.power.period) _ (fun t a => by simp) _ _)
  · (refine (foldl_fix (fun t : State => t.power.pilRebuilt) _ (fun t a => ?_) _ _).trans ((foldl_fix (fun t : State => t.power.pilRebuilt) _ (fun t a => ?_) _ _).trans ?_)) <;> first | (simp; done) | (split <;> simp <;> exact foldl_fix (fun t : State => t.power.pilRebuilt) _ (fun t a => by simp) _ _)
  · (refine (foldl_fix (fun t : State => t.power.tsLatch) _ (fun t a => ?_) _ _).trans ((foldl_fix (fun t : State => t.power.tsLatch) _ (fun t a => ?_) _ _).trans ?_)) <;> first | (simp; done) | (split <;> simp <;> exact foldl_fix (fun t : State => t.power.tsLatch) _ (fun t a => by simp) _ _)
  · (refine (foldl_fix (fun t : State => t.power.protLock) _ (fun t a => ?_) _ _).trans ((foldl_fix (fun t : State => t.power.protLock) _ (fun t a => ?_) _ _).trans ?_)) <;> first | (simp; done) | (split <;> simp <;> exact foldl_fix (fun t : State => t.power.protLock) _ (fun t a => by simp) _ _)
  · (refine (foldl_fix (fun t : State => t.power.retryWin) _ (fun t a => ?_) _ _).trans ((foldl_fix (fun t : State => t.power.retryWin) _ (fun t a => ?_) _ _).trans ?_)) <;> first | (simp; done) | (split <;> simp <;> exact foldl_fix (fun t : State => t.power.retryWin) _ (fun t a => by simp) _ _)
  · (refine (foldl_fix (fun t : State => t.power.retryMax) _ (fun t a => ?_) _ _).trans ((foldl_fix (fun t : State => t.power.retryMax) _ (fun t a => ?_) _ _).trans ?_)) <;> first | (simp; done) | (split <;> simp <;> exact foldl_fix (fun t : State => t.power.retryMax) _ (fun t a => by simp) _ _)
  · (refine (foldl_fix (fun t : State => t.power.test) _ (fun t a => ?_) _ _).trans ((foldl_fix (fun t : State => t.power.test) _ (fun t a => ?_) _ _).trans ?_)) <;> first | (simp; done) | (split <;> simp <;> exact foldl_fix (fun t : State => t.power.test) _ (fun t a => by simp) _ _)
  · (refine (foldl_fix (fun t : State => t.power.run) _ (fun t a => ?_) _ _).trans ((foldl_fix (fun t : State => t.power.run) _ (fun t a => ?_) _ _).trans ?_)) <;> first | (simp; done) | (split <;> simp <;> exact foldl_fix (fun t : State => t.power.run) _ (fun t a => by simp) _ _)
  · (refine (foldl_fix (fun t : State => t.power.qtemp) _ (fun t a => ?_) _ _).trans ((foldl_fix (fun t : State => t.power.qtemp) _ (fun t a => ?_) _ _).trans ?_)) <;> first | (simp; done) | (split <;> simp <;> exact foldl_fix (fun t : State => t.power.qtemp) _ (fun t a => by simp) _ _)
  · (refine (foldl_fix (fun t : State => t.power.qband) _ (fun t a => ?_) _ _).trans ((foldl_fix (fun t : State => t.power.qband) _ (fun t a => ?_) _ _).trans ?_)) <;> first | (simp; done) | (split <;> simp <;> exact foldl_fix (fun t : State => t.power.qband) _ (fun t a => by simp) _ _)
  · (refine (foldl_fix (fun t : State => t.power.qchg) _ (fun t a => ?_) _ _).trans ((foldl_fix (fun t : State => t.power.qchg) _ (fun t a => ?_) _ _).trans ?_)) <;> first | (simp; done) | (split <;> simp <;> exact foldl_fix (fun t : State => t.power.qchg) _ (fun t a => by simp) _ _)
  · (refine (foldl_fix (fun t : State => t.power.sum) _ (fun t a => ?_) _ _).trans ((foldl_fix (fun t : State => t.power.sum) _ (fun t a => ?_) _ _).trans ?_)) <;> first | (simp; done) | (split <;> simp <;> exact foldl_fix (fun t : State => t.power.sum) _ (fun t a => by simp) _ _)
  · (refine (foldl_fix (fun t : State => t.power.sumOver) _ (fun t a => ?_) _ _).trans ((foldl_fix (fun t : State => t.power.sumOver) _ (fun t a => ?_) _ _).trans ?_)) <;> first | (simp; done) | (split <;> simp <;> exact foldl_fix (fun t : State => t.power.sumOver) _ (fun t a => by simp) _ _)
  · (refine (foldl_fix (fun t : State => t.power.rc) _ (fun t a => ?_) _ _).trans ((foldl_fix (fun t : State => t.power.rc) _ (fun t a => ?_) _ _).trans ?_)) <;> first | (simp; done) | (split <;> simp <;> exact foldl_fix (fun t : State => t.power.rc) _ (fun t a => by simp) _ _)
  · (refine (foldl_fix (fun t : State => t.power.im) _ (fun t a => ?_) _ _).trans ((foldl_fix (fun t : State => t.power.im) _ (fun t a => ?_) _ _).trans ?_)) <;> first | (simp; done) | (split <;> simp <;> exact foldl_fix (fun t : State => t.power.im) _ (fun t a => by simp) _ _)
  · (refine (foldl_fix (fun t : State => t.power.seq) _ (fun t a => ?_) _ _).trans ((foldl_fix (fun t : State => t.power.seq) _ (fun t a => ?_) _ _).trans ?_)) <;> first | (simp; done) | (split <;> simp <;> exact foldl_fix (fun t : State => t.power.seq) _ (fun t a => by simp) _ _)
  · (refine (foldl_fix (fun t : State => t.power.seqPerm) _ (fun t a => ?_) _ _).trans ((foldl_fix (fun t : State => t.power.seqPerm) _ (fun t a => ?_) _ _).trans ?_)) <;> first | (simp; done) | (split <;> simp <;> exact foldl_fix (fun t : State => t.power.seqPerm) _ (fun t a => by simp) _ _)
  · (refine (foldl_fix (fun t : State => t.power.seqProx) _ (fun t a => ?_) _ _).trans ((foldl_fix (fun t : State => t.power.seqProx) _ (fun t a => ?_) _ _).trans ?_)) <;> first | (simp; done) | (split <;> simp <;> exact foldl_fix (fun t : State => t.power.seqProx) _ (fun t a => by simp) _ _)
  · (refine (foldl_fix (fun t : State => t.power.psq) _ (fun t a => ?_) _ _).trans ((foldl_fix (fun t : State => t.power.psq) _ (fun t a => ?_) _ _).trans ?_)) <;> first | (simp; done) | (split <;> simp <;> exact foldl_fix (fun t : State => t.power.psq) _ (fun t a => by simp) _ _)
  · (refine (foldl_fix (fun t : State => t.power.psqDue) _ (fun t a => ?_) _ _).trans ((foldl_fix (fun t : State => t.power.psqDue) _ (fun t a => ?_) _ _).trans ?_)) <;> first | (simp; done) | (split <;> simp <;> exact foldl_fix (fun t : State => t.power.psqDue) _ (fun t a => by simp) _ _)
  · (refine (foldl_fix (fun t : State => t.power.fields) _ (fun t a => ?_) _ _).trans ((foldl_fix (fun t : State => t.power.fields) _ (fun t a => ?_) _ _).trans ?_)) <;> first | (simp; done) | (split <;> simp <;> exact foldl_fix (fun t : State => t.power.fields) _ (fun t a => by simp) _ _)
  · (refine (foldl_fix (fun t : State => t.power.lines) _ (fun t a => ?_) _ _).trans ((foldl_fix (fun t : State => t.power.lines) _ (fun t a => ?_) _ _).trans ?_)) <;> first | (simp; done) | (split <;> simp <;> exact foldl_fix (fun t : State => t.power.lines) _ (fun t a => by simp) _ _)
  · (refine (foldl_fix (fun t : State => t.power.readers) _ (fun t a => ?_) _ _).trans ((foldl_fix (fun t : State => t.power.readers) _ (fun t a => ?_) _ _).trans ?_)) <;> first | (simp; done) | (split <;> simp <;> exact foldl_fix (fun t : State => t.power.readers) _ (fun t a => by simp) _ _)
  · (refine (foldl_fix (fun t : State => t.power.tags) _ (fun t a => ?_) _ _).trans ((foldl_fix (fun t : State => t.power.tags) _ (fun t a => ?_) _ _).trans ?_)) <;> first | (simp; done) | (split <;> simp <;> exact foldl_fix (fun t : State => t.power.tags) _ (fun t a => by simp) _ _)
  · (refine (foldl_fix (fun t : State => t.die) _ (fun t a => ?_) _ _).trans ((foldl_fix (fun t : State => t.die) _ (fun t a => ?_) _ _).trans ?_)) <;> first | (simp; done) | (split <;> simp <;> exact foldl_fix (fun t : State => t.die) _ (fun t a => by simp) _ _)
  · (refine (foldl_fix (fun t : State => t.fuses) _ (fun t a => ?_) _ _).trans ((foldl_fix (fun t : State => t.fuses) _ (fun t a => ?_) _ _).trans ?_)) <;> first | (simp; done) | (split <;> simp <;> exact foldl_fix (fun t : State => t.fuses) _ (fun t a => by simp) _ _)
  · (refine (foldl_fix (fun t : State => t.obj) _ (fun t a => ?_) _ _).trans ((foldl_fix (fun t : State => t.obj) _ (fun t a => ?_) _ _).trans ?_)) <;> first | (simp; done) | (split <;> simp <;> exact foldl_fix (fun t : State => t.obj) _ (fun t a => by simp) _ _)
  · (refine (foldl_fix (fun t : State => t.flash) _ (fun t a => ?_) _ _).trans ((foldl_fix (fun t : State => t.flash) _ (fun t a => ?_) _ _).trans ?_)) <;> first | (simp; done) | (split <;> simp <;> exact foldl_fix (fun t : State => t.flash) _ (fun t a => by simp) _ _)
  · (refine (foldl_fix (fun t : State => t.sec) _ (fun t a => ?_) _ _).trans ((foldl_fix (fun t : State => t.sec) _ (fun t a => ?_) _ _).trans ?_)) <;> first | (simp; done) | (split <;> simp <;> exact foldl_fix (fun t : State => t.sec) _ (fun t a => by simp) _ _)
  · (refine (foldl_fix (fun t : State => t.pending) _ (fun t a => ?_) _ _).trans ((foldl_fix (fun t : State => t.pending) _ (fun t a => ?_) _ _).trans ?_)) <;> first | (simp; done) | (split <;> simp <;> exact foldl_fix (fun t : State => t.pending) _ (fun t a => by simp) _ _)

@[simp] theorem edgeGroup_parts (g : Nat) (s : State) :
    (edgeGroup g s).bridle.st = s.bridle.st ∧ (edgeGroup g s).bridle.cause = s.bridle.cause ∧
    (edgeGroup g s).bridle.slot = s.bridle.slot ∧
    (edgeGroup g s).bridle.unsealed = s.bridle.unsealed ∧
    (edgeGroup g s).bridle.restarts = s.bridle.restarts ∧
    (edgeGroup g s).bridle.safeNLow = s.bridle.safeNLow ∧
    (edgeGroup g s).bridle.hbOn = s.bridle.hbOn ∧
    (edgeGroup g s).bridle.oscFail = s.bridle.oscFail ∧
    (edgeGroup g s).bridle.inReset = s.bridle.inReset ∧
    (edgeGroup g s).bridle.loaded = s.bridle.loaded ∧ (edgeGroup g s).bridle.time = s.bridle.time ∧
    (edgeGroup g s).bridle.chal = s.bridle.chal ∧
    (edgeGroup g s).bridle.postTag = s.bridle.postTag ∧
    (edgeGroup g s).bridle.postType = s.bridle.postType ∧
    (edgeGroup g s).bridle.postSt = s.bridle.postSt ∧
    (edgeGroup g s).bridle.discard = s.bridle.discard ∧ (edgeGroup g s).bridle.rx = s.bridle.rx ∧
    (edgeGroup g s).bridle.tx = s.bridle.tx ∧ (edgeGroup g s).bridle.post = s.bridle.post ∧
    (edgeGroup g s).bridle.postStatus = s.bridle.postStatus ∧
    (edgeGroup g s).bridle.fifo = s.bridle.fifo ∧ (edgeGroup g s).bridle.window = s.bridle.window ∧
    (edgeGroup g s).bridle.cfg = s.bridle.cfg ∧
    (edgeGroup g s).bridle.cfgBytes = s.bridle.cfgBytes ∧
    (edgeGroup g s).bridle.mem = s.bridle.mem ∧ (edgeGroup g s).bridle.hart = s.bridle.hart ∧
    (edgeGroup g s).bridle.mirBad = s.bridle.mirBad := by
  unfold edgeGroup; dsimp only
  refine ⟨?_, ?_, ?_, ?_, ?_, ?_, ?_, ?_, ?_, ?_, ?_, ?_, ?_, ?_, ?_, ?_, ?_, ?_, ?_, ?_, ?_, ?_, ?_, ?_, ?_, ?_, ?_⟩
  · (refine (foldl_fix (fun t : State => t.bridle.st) _ (fun t a => ?_) _ _).trans ((foldl_fix (fun t : State => t.bridle.st) _ (fun t a => ?_) _ _).trans ?_)) <;> first | (simp; done) | (split <;> simp <;> exact foldl_fix (fun t : State => t.bridle.st) _ (fun t a => by simp) _ _)
  · (refine (foldl_fix (fun t : State => t.bridle.cause) _ (fun t a => ?_) _ _).trans ((foldl_fix (fun t : State => t.bridle.cause) _ (fun t a => ?_) _ _).trans ?_)) <;> first | (simp; done) | (split <;> simp <;> exact foldl_fix (fun t : State => t.bridle.cause) _ (fun t a => by simp) _ _)
  · (refine (foldl_fix (fun t : State => t.bridle.slot) _ (fun t a => ?_) _ _).trans ((foldl_fix (fun t : State => t.bridle.slot) _ (fun t a => ?_) _ _).trans ?_)) <;> first | (simp; done) | (split <;> simp <;> exact foldl_fix (fun t : State => t.bridle.slot) _ (fun t a => by simp) _ _)
  · (refine (foldl_fix (fun t : State => t.bridle.unsealed) _ (fun t a => ?_) _ _).trans ((foldl_fix (fun t : State => t.bridle.unsealed) _ (fun t a => ?_) _ _).trans ?_)) <;> first | (simp; done) | (split <;> simp <;> exact foldl_fix (fun t : State => t.bridle.unsealed) _ (fun t a => by simp) _ _)
  · (refine (foldl_fix (fun t : State => t.bridle.restarts) _ (fun t a => ?_) _ _).trans ((foldl_fix (fun t : State => t.bridle.restarts) _ (fun t a => ?_) _ _).trans ?_)) <;> first | (simp; done) | (split <;> simp <;> exact foldl_fix (fun t : State => t.bridle.restarts) _ (fun t a => by simp) _ _)
  · (refine (foldl_fix (fun t : State => t.bridle.safeNLow) _ (fun t a => ?_) _ _).trans ((foldl_fix (fun t : State => t.bridle.safeNLow) _ (fun t a => ?_) _ _).trans ?_)) <;> first | (simp; done) | (split <;> simp <;> exact foldl_fix (fun t : State => t.bridle.safeNLow) _ (fun t a => by simp) _ _)
  · (refine (foldl_fix (fun t : State => t.bridle.hbOn) _ (fun t a => ?_) _ _).trans ((foldl_fix (fun t : State => t.bridle.hbOn) _ (fun t a => ?_) _ _).trans ?_)) <;> first | (simp; done) | (split <;> simp <;> exact foldl_fix (fun t : State => t.bridle.hbOn) _ (fun t a => by simp) _ _)
  · (refine (foldl_fix (fun t : State => t.bridle.oscFail) _ (fun t a => ?_) _ _).trans ((foldl_fix (fun t : State => t.bridle.oscFail) _ (fun t a => ?_) _ _).trans ?_)) <;> first | (simp; done) | (split <;> simp <;> exact foldl_fix (fun t : State => t.bridle.oscFail) _ (fun t a => by simp) _ _)
  · (refine (foldl_fix (fun t : State => t.bridle.inReset) _ (fun t a => ?_) _ _).trans ((foldl_fix (fun t : State => t.bridle.inReset) _ (fun t a => ?_) _ _).trans ?_)) <;> first | (simp; done) | (split <;> simp <;> exact foldl_fix (fun t : State => t.bridle.inReset) _ (fun t a => by simp) _ _)
  · (refine (foldl_fix (fun t : State => t.bridle.loaded) _ (fun t a => ?_) _ _).trans ((foldl_fix (fun t : State => t.bridle.loaded) _ (fun t a => ?_) _ _).trans ?_)) <;> first | (simp; done) | (split <;> simp <;> exact foldl_fix (fun t : State => t.bridle.loaded) _ (fun t a => by simp) _ _)
  · (refine (foldl_fix (fun t : State => t.bridle.time) _ (fun t a => ?_) _ _).trans ((foldl_fix (fun t : State => t.bridle.time) _ (fun t a => ?_) _ _).trans ?_)) <;> first | (simp; done) | (split <;> simp <;> exact foldl_fix (fun t : State => t.bridle.time) _ (fun t a => by simp) _ _)
  · (refine (foldl_fix (fun t : State => t.bridle.chal) _ (fun t a => ?_) _ _).trans ((foldl_fix (fun t : State => t.bridle.chal) _ (fun t a => ?_) _ _).trans ?_)) <;> first | (simp; done) | (split <;> simp <;> exact foldl_fix (fun t : State => t.bridle.chal) _ (fun t a => by simp) _ _)
  · (refine (foldl_fix (fun t : State => t.bridle.postTag) _ (fun t a => ?_) _ _).trans ((foldl_fix (fun t : State => t.bridle.postTag) _ (fun t a => ?_) _ _).trans ?_)) <;> first | (simp; done) | (split <;> simp <;> exact foldl_fix (fun t : State => t.bridle.postTag) _ (fun t a => by simp) _ _)
  · (refine (foldl_fix (fun t : State => t.bridle.postType) _ (fun t a => ?_) _ _).trans ((foldl_fix (fun t : State => t.bridle.postType) _ (fun t a => ?_) _ _).trans ?_)) <;> first | (simp; done) | (split <;> simp <;> exact foldl_fix (fun t : State => t.bridle.postType) _ (fun t a => by simp) _ _)
  · (refine (foldl_fix (fun t : State => t.bridle.postSt) _ (fun t a => ?_) _ _).trans ((foldl_fix (fun t : State => t.bridle.postSt) _ (fun t a => ?_) _ _).trans ?_)) <;> first | (simp; done) | (split <;> simp <;> exact foldl_fix (fun t : State => t.bridle.postSt) _ (fun t a => by simp) _ _)
  · (refine (foldl_fix (fun t : State => t.bridle.discard) _ (fun t a => ?_) _ _).trans ((foldl_fix (fun t : State => t.bridle.discard) _ (fun t a => ?_) _ _).trans ?_)) <;> first | (simp; done) | (split <;> simp <;> exact foldl_fix (fun t : State => t.bridle.discard) _ (fun t a => by simp) _ _)
  · (refine (foldl_fix (fun t : State => t.bridle.rx) _ (fun t a => ?_) _ _).trans ((foldl_fix (fun t : State => t.bridle.rx) _ (fun t a => ?_) _ _).trans ?_)) <;> first | (simp; done) | (split <;> simp <;> exact foldl_fix (fun t : State => t.bridle.rx) _ (fun t a => by simp) _ _)
  · (refine (foldl_fix (fun t : State => t.bridle.tx) _ (fun t a => ?_) _ _).trans ((foldl_fix (fun t : State => t.bridle.tx) _ (fun t a => ?_) _ _).trans ?_)) <;> first | (simp; done) | (split <;> simp <;> exact foldl_fix (fun t : State => t.bridle.tx) _ (fun t a => by simp) _ _)
  · (refine (foldl_fix (fun t : State => t.bridle.post) _ (fun t a => ?_) _ _).trans ((foldl_fix (fun t : State => t.bridle.post) _ (fun t a => ?_) _ _).trans ?_)) <;> first | (simp; done) | (split <;> simp <;> exact foldl_fix (fun t : State => t.bridle.post) _ (fun t a => by simp) _ _)
  · (refine (foldl_fix (fun t : State => t.bridle.postStatus) _ (fun t a => ?_) _ _).trans ((foldl_fix (fun t : State => t.bridle.postStatus) _ (fun t a => ?_) _ _).trans ?_)) <;> first | (simp; done) | (split <;> simp <;> exact foldl_fix (fun t : State => t.bridle.postStatus) _ (fun t a => by simp) _ _)
  · (refine (foldl_fix (fun t : State => t.bridle.fifo) _ (fun t a => ?_) _ _).trans ((foldl_fix (fun t : State => t.bridle.fifo) _ (fun t a => ?_) _ _).trans ?_)) <;> first | (simp; done) | (split <;> simp <;> exact foldl_fix (fun t : State => t.bridle.fifo) _ (fun t a => by simp) _ _)
  · (refine (foldl_fix (fun t : State => t.bridle.window) _ (fun t a => ?_) _ _).trans ((foldl_fix (fun t : State => t.bridle.window) _ (fun t a => ?_) _ _).trans ?_)) <;> first | (simp; done) | (split <;> simp <;> exact foldl_fix (fun t : State => t.bridle.window) _ (fun t a => by simp) _ _)
  · (refine (foldl_fix (fun t : State => t.bridle.cfg) _ (fun t a => ?_) _ _).trans ((foldl_fix (fun t : State => t.bridle.cfg) _ (fun t a => ?_) _ _).trans ?_)) <;> first | (simp; done) | (split <;> simp <;> exact foldl_fix (fun t : State => t.bridle.cfg) _ (fun t a => by simp) _ _)
  · (refine (foldl_fix (fun t : State => t.bridle.cfgBytes) _ (fun t a => ?_) _ _).trans ((foldl_fix (fun t : State => t.bridle.cfgBytes) _ (fun t a => ?_) _ _).trans ?_)) <;> first | (simp; done) | (split <;> simp <;> exact foldl_fix (fun t : State => t.bridle.cfgBytes) _ (fun t a => by simp) _ _)
  · (refine (foldl_fix (fun t : State => t.bridle.mem) _ (fun t a => ?_) _ _).trans ((foldl_fix (fun t : State => t.bridle.mem) _ (fun t a => ?_) _ _).trans ?_)) <;> first | (simp; done) | (split <;> simp <;> exact foldl_fix (fun t : State => t.bridle.mem) _ (fun t a => by simp) _ _)
  · (refine (foldl_fix (fun t : State => t.bridle.hart) _ (fun t a => ?_) _ _).trans ((foldl_fix (fun t : State => t.bridle.hart) _ (fun t a => ?_) _ _).trans ?_)) <;> first | (simp; done) | (split <;> simp <;> exact foldl_fix (fun t : State => t.bridle.hart) _ (fun t a => by simp) _ _)
  · (refine (foldl_fix (fun t : State => t.bridle.mirBad) _ (fun t a => ?_) _ _).trans ((foldl_fix (fun t : State => t.bridle.mirBad) _ (fun t a => ?_) _ _).trans ?_)) <;> first | (simp; done) | (split <;> simp <;> exact foldl_fix (fun t : State => t.bridle.mirBad) _ (fun t a => by simp) _ _)

@[simp] theorem resetEdge_same (g : BitVec 16) (d : BitVec 8) (u : Nat) (s : State) :
    (resetEdge g d u s).app.clk = s.app.clk ∧ (resetEdge g d u s).app.mbx = s.app.mbx ∧
    (resetEdge g d u s).app.hrn = s.app.hrn ∧ (resetEdge g d u s).app.harts = s.app.harts ∧
    (resetEdge g d u s).app.mem = s.app.mem ∧ (resetEdge g d u s).app.lane = s.app.lane ∧
    (resetEdge g d u s).app.link = s.app.link ∧ (resetEdge g d u s).app.sl = s.app.sl ∧
    (resetEdge g d u s).app.eng = s.app.eng ∧ (resetEdge g d u s).app.ctx = s.app.ctx ∧
    (resetEdge g d u s).app.veh = s.app.veh ∧ (resetEdge g d u s).app.journal = s.app.journal ∧
    (resetEdge g d u s).app.tack = s.app.tack ∧ (resetEdge g d u s).cold = s.cold ∧
    (resetEdge g d u s).coldMr = s.coldMr ∧ (resetEdge g d u s).trial = s.trial ∧
    (resetEdge g d u s).power.safe = s.power.safe ∧
    (resetEdge g d u s).power.clkOk = s.power.clkOk ∧
    (resetEdge g d u s).power.report = s.power.report ∧
    (resetEdge g d u s).power.hbRun = s.power.hbRun ∧
    (resetEdge g d u s).power.vload = s.power.vload ∧
    (resetEdge g d u s).power.vpilp = s.power.vpilp ∧
    (resetEdge g d u s).power.vpiln = s.power.vpiln ∧
    (resetEdge g d u s).power.vdrv = s.power.vdrv ∧ (resetEdge g d u s).power.pfin = s.power.pfin ∧
    (resetEdge g d u s).power.trimmed = s.power.trimmed ∧
    (resetEdge g d u s).power.period = s.power.period ∧
    (resetEdge g d u s).power.pilRebuilt = s.power.pilRebuilt ∧
    (resetEdge g d u s).power.tsLatch = s.power.tsLatch ∧
    (resetEdge g d u s).power.protLock = s.power.protLock ∧
    (resetEdge g d u s).power.retryWin = s.power.retryWin ∧
    (resetEdge g d u s).power.retryMax = s.power.retryMax ∧
    (resetEdge g d u s).power.test = s.power.test ∧ (resetEdge g d u s).power.run = s.power.run ∧
    (resetEdge g d u s).power.qtemp = s.power.qtemp ∧
    (resetEdge g d u s).power.qband = s.power.qband ∧
    (resetEdge g d u s).power.qchg = s.power.qchg ∧ (resetEdge g d u s).power.sum = s.power.sum ∧
    (resetEdge g d u s).power.sumOver = s.power.sumOver ∧
    (resetEdge g d u s).power.rc = s.power.rc ∧ (resetEdge g d u s).power.im = s.power.im ∧
    (resetEdge g d u s).power.seq = s.power.seq ∧
    (resetEdge g d u s).power.seqPerm = s.power.seqPerm ∧
    (resetEdge g d u s).power.seqProx = s.power.seqProx ∧
    (resetEdge g d u s).power.psq = s.power.psq ∧
    (resetEdge g d u s).power.psqDue = s.power.psqDue ∧
    (resetEdge g d u s).power.fields = s.power.fields ∧
    (resetEdge g d u s).power.lines = s.power.lines ∧
    (resetEdge g d u s).power.readers = s.power.readers ∧
    (resetEdge g d u s).power.tags = s.power.tags ∧ (resetEdge g d u s).die = s.die ∧
    (resetEdge g d u s).fuses = s.fuses ∧ (resetEdge g d u s).obj = s.obj ∧
    (resetEdge g d u s).flash = s.flash ∧ (resetEdge g d u s).sec = s.sec ∧
    (resetEdge g d u s).pending = s.pending := by
  unfold resetEdge; dsimp only
  refine ⟨?_, ?_, ?_, ?_, ?_, ?_, ?_, ?_, ?_, ?_, ?_, ?_, ?_, ?_, ?_, ?_, ?_, ?_, ?_, ?_, ?_, ?_, ?_, ?_, ?_, ?_, ?_, ?_, ?_, ?_, ?_, ?_, ?_, ?_, ?_, ?_, ?_, ?_, ?_, ?_, ?_, ?_, ?_, ?_, ?_, ?_, ?_, ?_, ?_, ?_, ?_, ?_, ?_, ?_, ?_, ?_⟩
  · (simp only [evalGroups_same, evalGroups_parts]; refine (foldl_fix (fun t : State => t.app.clk) _ (fun t a => ?_) _ _).trans ((foldl_fix (fun t : State => t.app.clk) _ (fun t a => ?_) _ _).trans ?_) <;> simp [note])
  · (simp only [evalGroups_same, evalGroups_parts]; refine (foldl_fix (fun t : State => t.app.mbx) _ (fun t a => ?_) _ _).trans ((foldl_fix (fun t : State => t.app.mbx) _ (fun t a => ?_) _ _).trans ?_) <;> simp [note])
  · (simp only [evalGroups_same, evalGroups_parts]; refine (foldl_fix (fun t : State => t.app.hrn) _ (fun t a => ?_) _ _).trans ((foldl_fix (fun t : State => t.app.hrn) _ (fun t a => ?_) _ _).trans ?_) <;> simp [note])
  · (simp only [evalGroups_same, evalGroups_parts]; refine (foldl_fix (fun t : State => t.app.harts) _ (fun t a => ?_) _ _).trans ((foldl_fix (fun t : State => t.app.harts) _ (fun t a => ?_) _ _).trans ?_) <;> simp [note])
  · (simp only [evalGroups_same, evalGroups_parts]; refine (foldl_fix (fun t : State => t.app.mem) _ (fun t a => ?_) _ _).trans ((foldl_fix (fun t : State => t.app.mem) _ (fun t a => ?_) _ _).trans ?_) <;> simp [note])
  · (simp only [evalGroups_same, evalGroups_parts]; refine (foldl_fix (fun t : State => t.app.lane) _ (fun t a => ?_) _ _).trans ((foldl_fix (fun t : State => t.app.lane) _ (fun t a => ?_) _ _).trans ?_) <;> simp [note])
  · (simp only [evalGroups_same, evalGroups_parts]; refine (foldl_fix (fun t : State => t.app.link) _ (fun t a => ?_) _ _).trans ((foldl_fix (fun t : State => t.app.link) _ (fun t a => ?_) _ _).trans ?_) <;> simp [note])
  · (simp only [evalGroups_same, evalGroups_parts]; refine (foldl_fix (fun t : State => t.app.sl) _ (fun t a => ?_) _ _).trans ((foldl_fix (fun t : State => t.app.sl) _ (fun t a => ?_) _ _).trans ?_) <;> simp [note])
  · (simp only [evalGroups_same, evalGroups_parts]; refine (foldl_fix (fun t : State => t.app.eng) _ (fun t a => ?_) _ _).trans ((foldl_fix (fun t : State => t.app.eng) _ (fun t a => ?_) _ _).trans ?_) <;> simp [note])
  · (simp only [evalGroups_same, evalGroups_parts]; refine (foldl_fix (fun t : State => t.app.ctx) _ (fun t a => ?_) _ _).trans ((foldl_fix (fun t : State => t.app.ctx) _ (fun t a => ?_) _ _).trans ?_) <;> simp [note])
  · (simp only [evalGroups_same, evalGroups_parts]; refine (foldl_fix (fun t : State => t.app.veh) _ (fun t a => ?_) _ _).trans ((foldl_fix (fun t : State => t.app.veh) _ (fun t a => ?_) _ _).trans ?_) <;> simp [note])
  · (simp only [evalGroups_same, evalGroups_parts]; refine (foldl_fix (fun t : State => t.app.journal) _ (fun t a => ?_) _ _).trans ((foldl_fix (fun t : State => t.app.journal) _ (fun t a => ?_) _ _).trans ?_) <;> simp [note])
  · (simp only [evalGroups_same, evalGroups_parts]; refine (foldl_fix (fun t : State => t.app.tack) _ (fun t a => ?_) _ _).trans ((foldl_fix (fun t : State => t.app.tack) _ (fun t a => ?_) _ _).trans ?_) <;> simp [note])
  · (simp only [evalGroups_same, evalGroups_parts]; refine (foldl_fix (fun t : State => t.cold) _ (fun t a => ?_) _ _).trans ((foldl_fix (fun t : State => t.cold) _ (fun t a => ?_) _ _).trans ?_) <;> simp [note])
  · (simp only [evalGroups_same, evalGroups_parts]; refine (foldl_fix (fun t : State => t.coldMr) _ (fun t a => ?_) _ _).trans ((foldl_fix (fun t : State => t.coldMr) _ (fun t a => ?_) _ _).trans ?_) <;> simp [note])
  · (simp only [evalGroups_same, evalGroups_parts]; refine (foldl_fix (fun t : State => t.trial) _ (fun t a => ?_) _ _).trans ((foldl_fix (fun t : State => t.trial) _ (fun t a => ?_) _ _).trans ?_) <;> simp [note])
  · (simp only [evalGroups_same, evalGroups_parts]; refine (foldl_fix (fun t : State => t.power.safe) _ (fun t a => ?_) _ _).trans ((foldl_fix (fun t : State => t.power.safe) _ (fun t a => ?_) _ _).trans ?_) <;> simp [note])
  · (simp only [evalGroups_same, evalGroups_parts]; refine (foldl_fix (fun t : State => t.power.clkOk) _ (fun t a => ?_) _ _).trans ((foldl_fix (fun t : State => t.power.clkOk) _ (fun t a => ?_) _ _).trans ?_) <;> simp [note])
  · (simp only [evalGroups_same, evalGroups_parts]; refine (foldl_fix (fun t : State => t.power.report) _ (fun t a => ?_) _ _).trans ((foldl_fix (fun t : State => t.power.report) _ (fun t a => ?_) _ _).trans ?_) <;> simp [note])
  · (simp only [evalGroups_same, evalGroups_parts]; refine (foldl_fix (fun t : State => t.power.hbRun) _ (fun t a => ?_) _ _).trans ((foldl_fix (fun t : State => t.power.hbRun) _ (fun t a => ?_) _ _).trans ?_) <;> simp [note])
  · (simp only [evalGroups_same, evalGroups_parts]; refine (foldl_fix (fun t : State => t.power.vload) _ (fun t a => ?_) _ _).trans ((foldl_fix (fun t : State => t.power.vload) _ (fun t a => ?_) _ _).trans ?_) <;> simp [note])
  · (simp only [evalGroups_same, evalGroups_parts]; refine (foldl_fix (fun t : State => t.power.vpilp) _ (fun t a => ?_) _ _).trans ((foldl_fix (fun t : State => t.power.vpilp) _ (fun t a => ?_) _ _).trans ?_) <;> simp [note])
  · (simp only [evalGroups_same, evalGroups_parts]; refine (foldl_fix (fun t : State => t.power.vpiln) _ (fun t a => ?_) _ _).trans ((foldl_fix (fun t : State => t.power.vpiln) _ (fun t a => ?_) _ _).trans ?_) <;> simp [note])
  · (simp only [evalGroups_same, evalGroups_parts]; refine (foldl_fix (fun t : State => t.power.vdrv) _ (fun t a => ?_) _ _).trans ((foldl_fix (fun t : State => t.power.vdrv) _ (fun t a => ?_) _ _).trans ?_) <;> simp [note])
  · (simp only [evalGroups_same, evalGroups_parts]; refine (foldl_fix (fun t : State => t.power.pfin) _ (fun t a => ?_) _ _).trans ((foldl_fix (fun t : State => t.power.pfin) _ (fun t a => ?_) _ _).trans ?_) <;> simp [note])
  · (simp only [evalGroups_same, evalGroups_parts]; refine (foldl_fix (fun t : State => t.power.trimmed) _ (fun t a => ?_) _ _).trans ((foldl_fix (fun t : State => t.power.trimmed) _ (fun t a => ?_) _ _).trans ?_) <;> simp [note])
  · (simp only [evalGroups_same, evalGroups_parts]; refine (foldl_fix (fun t : State => t.power.period) _ (fun t a => ?_) _ _).trans ((foldl_fix (fun t : State => t.power.period) _ (fun t a => ?_) _ _).trans ?_) <;> simp [note])
  · (simp only [evalGroups_same, evalGroups_parts]; refine (foldl_fix (fun t : State => t.power.pilRebuilt) _ (fun t a => ?_) _ _).trans ((foldl_fix (fun t : State => t.power.pilRebuilt) _ (fun t a => ?_) _ _).trans ?_) <;> simp [note])
  · (simp only [evalGroups_same, evalGroups_parts]; refine (foldl_fix (fun t : State => t.power.tsLatch) _ (fun t a => ?_) _ _).trans ((foldl_fix (fun t : State => t.power.tsLatch) _ (fun t a => ?_) _ _).trans ?_) <;> simp [note])
  · (simp only [evalGroups_same, evalGroups_parts]; refine (foldl_fix (fun t : State => t.power.protLock) _ (fun t a => ?_) _ _).trans ((foldl_fix (fun t : State => t.power.protLock) _ (fun t a => ?_) _ _).trans ?_) <;> simp [note])
  · (simp only [evalGroups_same, evalGroups_parts]; refine (foldl_fix (fun t : State => t.power.retryWin) _ (fun t a => ?_) _ _).trans ((foldl_fix (fun t : State => t.power.retryWin) _ (fun t a => ?_) _ _).trans ?_) <;> simp [note])
  · (simp only [evalGroups_same, evalGroups_parts]; refine (foldl_fix (fun t : State => t.power.retryMax) _ (fun t a => ?_) _ _).trans ((foldl_fix (fun t : State => t.power.retryMax) _ (fun t a => ?_) _ _).trans ?_) <;> simp [note])
  · (simp only [evalGroups_same, evalGroups_parts]; refine (foldl_fix (fun t : State => t.power.test) _ (fun t a => ?_) _ _).trans ((foldl_fix (fun t : State => t.power.test) _ (fun t a => ?_) _ _).trans ?_) <;> simp [note])
  · (simp only [evalGroups_same, evalGroups_parts]; refine (foldl_fix (fun t : State => t.power.run) _ (fun t a => ?_) _ _).trans ((foldl_fix (fun t : State => t.power.run) _ (fun t a => ?_) _ _).trans ?_) <;> simp [note])
  · (simp only [evalGroups_same, evalGroups_parts]; refine (foldl_fix (fun t : State => t.power.qtemp) _ (fun t a => ?_) _ _).trans ((foldl_fix (fun t : State => t.power.qtemp) _ (fun t a => ?_) _ _).trans ?_) <;> simp [note])
  · (simp only [evalGroups_same, evalGroups_parts]; refine (foldl_fix (fun t : State => t.power.qband) _ (fun t a => ?_) _ _).trans ((foldl_fix (fun t : State => t.power.qband) _ (fun t a => ?_) _ _).trans ?_) <;> simp [note])
  · (simp only [evalGroups_same, evalGroups_parts]; refine (foldl_fix (fun t : State => t.power.qchg) _ (fun t a => ?_) _ _).trans ((foldl_fix (fun t : State => t.power.qchg) _ (fun t a => ?_) _ _).trans ?_) <;> simp [note])
  · (simp only [evalGroups_same, evalGroups_parts]; refine (foldl_fix (fun t : State => t.power.sum) _ (fun t a => ?_) _ _).trans ((foldl_fix (fun t : State => t.power.sum) _ (fun t a => ?_) _ _).trans ?_) <;> simp [note])
  · (simp only [evalGroups_same, evalGroups_parts]; refine (foldl_fix (fun t : State => t.power.sumOver) _ (fun t a => ?_) _ _).trans ((foldl_fix (fun t : State => t.power.sumOver) _ (fun t a => ?_) _ _).trans ?_) <;> simp [note])
  · (simp only [evalGroups_same, evalGroups_parts]; refine (foldl_fix (fun t : State => t.power.rc) _ (fun t a => ?_) _ _).trans ((foldl_fix (fun t : State => t.power.rc) _ (fun t a => ?_) _ _).trans ?_) <;> simp [note])
  · (simp only [evalGroups_same, evalGroups_parts]; refine (foldl_fix (fun t : State => t.power.im) _ (fun t a => ?_) _ _).trans ((foldl_fix (fun t : State => t.power.im) _ (fun t a => ?_) _ _).trans ?_) <;> simp [note])
  · (simp only [evalGroups_same, evalGroups_parts]; refine (foldl_fix (fun t : State => t.power.seq) _ (fun t a => ?_) _ _).trans ((foldl_fix (fun t : State => t.power.seq) _ (fun t a => ?_) _ _).trans ?_) <;> simp [note])
  · (simp only [evalGroups_same, evalGroups_parts]; refine (foldl_fix (fun t : State => t.power.seqPerm) _ (fun t a => ?_) _ _).trans ((foldl_fix (fun t : State => t.power.seqPerm) _ (fun t a => ?_) _ _).trans ?_) <;> simp [note])
  · (simp only [evalGroups_same, evalGroups_parts]; refine (foldl_fix (fun t : State => t.power.seqProx) _ (fun t a => ?_) _ _).trans ((foldl_fix (fun t : State => t.power.seqProx) _ (fun t a => ?_) _ _).trans ?_) <;> simp [note])
  · (simp only [evalGroups_same, evalGroups_parts]; refine (foldl_fix (fun t : State => t.power.psq) _ (fun t a => ?_) _ _).trans ((foldl_fix (fun t : State => t.power.psq) _ (fun t a => ?_) _ _).trans ?_) <;> simp [note])
  · (simp only [evalGroups_same, evalGroups_parts]; refine (foldl_fix (fun t : State => t.power.psqDue) _ (fun t a => ?_) _ _).trans ((foldl_fix (fun t : State => t.power.psqDue) _ (fun t a => ?_) _ _).trans ?_) <;> simp [note])
  · (simp only [evalGroups_same, evalGroups_parts]; refine (foldl_fix (fun t : State => t.power.fields) _ (fun t a => ?_) _ _).trans ((foldl_fix (fun t : State => t.power.fields) _ (fun t a => ?_) _ _).trans ?_) <;> simp [note])
  · (simp only [evalGroups_same, evalGroups_parts]; refine (foldl_fix (fun t : State => t.power.lines) _ (fun t a => ?_) _ _).trans ((foldl_fix (fun t : State => t.power.lines) _ (fun t a => ?_) _ _).trans ?_) <;> simp [note])
  · (simp only [evalGroups_same, evalGroups_parts]; refine (foldl_fix (fun t : State => t.power.readers) _ (fun t a => ?_) _ _).trans ((foldl_fix (fun t : State => t.power.readers) _ (fun t a => ?_) _ _).trans ?_) <;> simp [note])
  · (simp only [evalGroups_same, evalGroups_parts]; refine (foldl_fix (fun t : State => t.power.tags) _ (fun t a => ?_) _ _).trans ((foldl_fix (fun t : State => t.power.tags) _ (fun t a => ?_) _ _).trans ?_) <;> simp [note])
  · (simp only [evalGroups_same, evalGroups_parts]; refine (foldl_fix (fun t : State => t.die) _ (fun t a => ?_) _ _).trans ((foldl_fix (fun t : State => t.die) _ (fun t a => ?_) _ _).trans ?_) <;> simp [note])
  · (simp only [evalGroups_same, evalGroups_parts]; refine (foldl_fix (fun t : State => t.fuses) _ (fun t a => ?_) _ _).trans ((foldl_fix (fun t : State => t.fuses) _ (fun t a => ?_) _ _).trans ?_) <;> simp [note])
  · (simp only [evalGroups_same, evalGroups_parts]; refine (foldl_fix (fun t : State => t.obj) _ (fun t a => ?_) _ _).trans ((foldl_fix (fun t : State => t.obj) _ (fun t a => ?_) _ _).trans ?_) <;> simp [note])
  · (simp only [evalGroups_same, evalGroups_parts]; refine (foldl_fix (fun t : State => t.flash) _ (fun t a => ?_) _ _).trans ((foldl_fix (fun t : State => t.flash) _ (fun t a => ?_) _ _).trans ?_) <;> simp [note])
  · (simp only [evalGroups_same, evalGroups_parts]; refine (foldl_fix (fun t : State => t.sec) _ (fun t a => ?_) _ _).trans ((foldl_fix (fun t : State => t.sec) _ (fun t a => ?_) _ _).trans ?_) <;> simp [note])
  · (simp only [evalGroups_same, evalGroups_parts]; refine (foldl_fix (fun t : State => t.pending) _ (fun t a => ?_) _ _).trans ((foldl_fix (fun t : State => t.pending) _ (fun t a => ?_) _ _).trans ?_) <;> simp [note])

@[simp] theorem resetEdge_parts (g : BitVec 16) (d : BitVec 8) (u : Nat) (s : State) :
    (resetEdge g d u s).bridle.st = s.bridle.st ∧
    (resetEdge g d u s).bridle.cause = s.bridle.cause ∧
    (resetEdge g d u s).bridle.slot = s.bridle.slot ∧
    (resetEdge g d u s).bridle.unsealed = s.bridle.unsealed ∧
    (resetEdge g d u s).bridle.restarts = s.bridle.restarts ∧
    (resetEdge g d u s).bridle.safeNLow = s.bridle.safeNLow ∧
    (resetEdge g d u s).bridle.hbOn = s.bridle.hbOn ∧
    (resetEdge g d u s).bridle.oscFail = s.bridle.oscFail ∧
    (resetEdge g d u s).bridle.inReset = s.bridle.inReset ∧
    (resetEdge g d u s).bridle.loaded = s.bridle.loaded ∧
    (resetEdge g d u s).bridle.time = s.bridle.time ∧
    (resetEdge g d u s).bridle.chal = s.bridle.chal ∧
    (resetEdge g d u s).bridle.postTag = s.bridle.postTag ∧
    (resetEdge g d u s).bridle.postType = s.bridle.postType ∧
    (resetEdge g d u s).bridle.postSt = s.bridle.postSt ∧
    (resetEdge g d u s).bridle.discard = s.bridle.discard ∧
    (resetEdge g d u s).bridle.rx = s.bridle.rx ∧ (resetEdge g d u s).bridle.tx = s.bridle.tx ∧
    (resetEdge g d u s).bridle.post = s.bridle.post ∧
    (resetEdge g d u s).bridle.postStatus = s.bridle.postStatus ∧
    (resetEdge g d u s).bridle.fifo = s.bridle.fifo ∧
    (resetEdge g d u s).bridle.window = s.bridle.window ∧
    (resetEdge g d u s).bridle.cfg = s.bridle.cfg ∧
    (resetEdge g d u s).bridle.cfgBytes = s.bridle.cfgBytes ∧
    (resetEdge g d u s).bridle.mem = s.bridle.mem ∧
    (resetEdge g d u s).bridle.hart = s.bridle.hart ∧
    (resetEdge g d u s).bridle.mirBad = s.bridle.mirBad := by
  unfold resetEdge; dsimp only
  refine ⟨?_, ?_, ?_, ?_, ?_, ?_, ?_, ?_, ?_, ?_, ?_, ?_, ?_, ?_, ?_, ?_, ?_, ?_, ?_, ?_, ?_, ?_, ?_, ?_, ?_, ?_, ?_⟩
  · (simp only [evalGroups_same, evalGroups_parts]; refine (foldl_fix (fun t : State => t.bridle.st) _ (fun t a => ?_) _ _).trans ((foldl_fix (fun t : State => t.bridle.st) _ (fun t a => ?_) _ _).trans ?_) <;> simp [note])
  · (simp only [evalGroups_same, evalGroups_parts]; refine (foldl_fix (fun t : State => t.bridle.cause) _ (fun t a => ?_) _ _).trans ((foldl_fix (fun t : State => t.bridle.cause) _ (fun t a => ?_) _ _).trans ?_) <;> simp [note])
  · (simp only [evalGroups_same, evalGroups_parts]; refine (foldl_fix (fun t : State => t.bridle.slot) _ (fun t a => ?_) _ _).trans ((foldl_fix (fun t : State => t.bridle.slot) _ (fun t a => ?_) _ _).trans ?_) <;> simp [note])
  · (simp only [evalGroups_same, evalGroups_parts]; refine (foldl_fix (fun t : State => t.bridle.unsealed) _ (fun t a => ?_) _ _).trans ((foldl_fix (fun t : State => t.bridle.unsealed) _ (fun t a => ?_) _ _).trans ?_) <;> simp [note])
  · (simp only [evalGroups_same, evalGroups_parts]; refine (foldl_fix (fun t : State => t.bridle.restarts) _ (fun t a => ?_) _ _).trans ((foldl_fix (fun t : State => t.bridle.restarts) _ (fun t a => ?_) _ _).trans ?_) <;> simp [note])
  · (simp only [evalGroups_same, evalGroups_parts]; refine (foldl_fix (fun t : State => t.bridle.safeNLow) _ (fun t a => ?_) _ _).trans ((foldl_fix (fun t : State => t.bridle.safeNLow) _ (fun t a => ?_) _ _).trans ?_) <;> simp [note])
  · (simp only [evalGroups_same, evalGroups_parts]; refine (foldl_fix (fun t : State => t.bridle.hbOn) _ (fun t a => ?_) _ _).trans ((foldl_fix (fun t : State => t.bridle.hbOn) _ (fun t a => ?_) _ _).trans ?_) <;> simp [note])
  · (simp only [evalGroups_same, evalGroups_parts]; refine (foldl_fix (fun t : State => t.bridle.oscFail) _ (fun t a => ?_) _ _).trans ((foldl_fix (fun t : State => t.bridle.oscFail) _ (fun t a => ?_) _ _).trans ?_) <;> simp [note])
  · (simp only [evalGroups_same, evalGroups_parts]; refine (foldl_fix (fun t : State => t.bridle.inReset) _ (fun t a => ?_) _ _).trans ((foldl_fix (fun t : State => t.bridle.inReset) _ (fun t a => ?_) _ _).trans ?_) <;> simp [note])
  · (simp only [evalGroups_same, evalGroups_parts]; refine (foldl_fix (fun t : State => t.bridle.loaded) _ (fun t a => ?_) _ _).trans ((foldl_fix (fun t : State => t.bridle.loaded) _ (fun t a => ?_) _ _).trans ?_) <;> simp [note])
  · (simp only [evalGroups_same, evalGroups_parts]; refine (foldl_fix (fun t : State => t.bridle.time) _ (fun t a => ?_) _ _).trans ((foldl_fix (fun t : State => t.bridle.time) _ (fun t a => ?_) _ _).trans ?_) <;> simp [note])
  · (simp only [evalGroups_same, evalGroups_parts]; refine (foldl_fix (fun t : State => t.bridle.chal) _ (fun t a => ?_) _ _).trans ((foldl_fix (fun t : State => t.bridle.chal) _ (fun t a => ?_) _ _).trans ?_) <;> simp [note])
  · (simp only [evalGroups_same, evalGroups_parts]; refine (foldl_fix (fun t : State => t.bridle.postTag) _ (fun t a => ?_) _ _).trans ((foldl_fix (fun t : State => t.bridle.postTag) _ (fun t a => ?_) _ _).trans ?_) <;> simp [note])
  · (simp only [evalGroups_same, evalGroups_parts]; refine (foldl_fix (fun t : State => t.bridle.postType) _ (fun t a => ?_) _ _).trans ((foldl_fix (fun t : State => t.bridle.postType) _ (fun t a => ?_) _ _).trans ?_) <;> simp [note])
  · (simp only [evalGroups_same, evalGroups_parts]; refine (foldl_fix (fun t : State => t.bridle.postSt) _ (fun t a => ?_) _ _).trans ((foldl_fix (fun t : State => t.bridle.postSt) _ (fun t a => ?_) _ _).trans ?_) <;> simp [note])
  · (simp only [evalGroups_same, evalGroups_parts]; refine (foldl_fix (fun t : State => t.bridle.discard) _ (fun t a => ?_) _ _).trans ((foldl_fix (fun t : State => t.bridle.discard) _ (fun t a => ?_) _ _).trans ?_) <;> simp [note])
  · (simp only [evalGroups_same, evalGroups_parts]; refine (foldl_fix (fun t : State => t.bridle.rx) _ (fun t a => ?_) _ _).trans ((foldl_fix (fun t : State => t.bridle.rx) _ (fun t a => ?_) _ _).trans ?_) <;> simp [note])
  · (simp only [evalGroups_same, evalGroups_parts]; refine (foldl_fix (fun t : State => t.bridle.tx) _ (fun t a => ?_) _ _).trans ((foldl_fix (fun t : State => t.bridle.tx) _ (fun t a => ?_) _ _).trans ?_) <;> simp [note])
  · (simp only [evalGroups_same, evalGroups_parts]; refine (foldl_fix (fun t : State => t.bridle.post) _ (fun t a => ?_) _ _).trans ((foldl_fix (fun t : State => t.bridle.post) _ (fun t a => ?_) _ _).trans ?_) <;> simp [note])
  · (simp only [evalGroups_same, evalGroups_parts]; refine (foldl_fix (fun t : State => t.bridle.postStatus) _ (fun t a => ?_) _ _).trans ((foldl_fix (fun t : State => t.bridle.postStatus) _ (fun t a => ?_) _ _).trans ?_) <;> simp [note])
  · (simp only [evalGroups_same, evalGroups_parts]; refine (foldl_fix (fun t : State => t.bridle.fifo) _ (fun t a => ?_) _ _).trans ((foldl_fix (fun t : State => t.bridle.fifo) _ (fun t a => ?_) _ _).trans ?_) <;> simp [note])
  · (simp only [evalGroups_same, evalGroups_parts]; refine (foldl_fix (fun t : State => t.bridle.window) _ (fun t a => ?_) _ _).trans ((foldl_fix (fun t : State => t.bridle.window) _ (fun t a => ?_) _ _).trans ?_) <;> simp [note])
  · (simp only [evalGroups_same, evalGroups_parts]; refine (foldl_fix (fun t : State => t.bridle.cfg) _ (fun t a => ?_) _ _).trans ((foldl_fix (fun t : State => t.bridle.cfg) _ (fun t a => ?_) _ _).trans ?_) <;> simp [note])
  · (simp only [evalGroups_same, evalGroups_parts]; refine (foldl_fix (fun t : State => t.bridle.cfgBytes) _ (fun t a => ?_) _ _).trans ((foldl_fix (fun t : State => t.bridle.cfgBytes) _ (fun t a => ?_) _ _).trans ?_) <;> simp [note])
  · (simp only [evalGroups_same, evalGroups_parts]; refine (foldl_fix (fun t : State => t.bridle.mem) _ (fun t a => ?_) _ _).trans ((foldl_fix (fun t : State => t.bridle.mem) _ (fun t a => ?_) _ _).trans ?_) <;> simp [note])
  · (simp only [evalGroups_same, evalGroups_parts]; refine (foldl_fix (fun t : State => t.bridle.hart) _ (fun t a => ?_) _ _).trans ((foldl_fix (fun t : State => t.bridle.hart) _ (fun t a => ?_) _ _).trans ?_) <;> simp [note])
  · (simp only [evalGroups_same, evalGroups_parts]; refine (foldl_fix (fun t : State => t.bridle.mirBad) _ (fun t a => ?_) _ _).trans ((foldl_fix (fun t : State => t.bridle.mirBad) _ (fun t a => ?_) _ _).trans ?_) <;> simp [note])

@[simp] theorem siReact_same (i : Nat) (w : Bool) (c : Option Nat) (s : State) :
    (siReact i w c s).app.clk = s.app.clk ∧ (siReact i w c s).app.mbx = s.app.mbx ∧
    (siReact i w c s).app.hrn = s.app.hrn ∧ (siReact i w c s).app.harts = s.app.harts ∧
    (siReact i w c s).app.mem = s.app.mem ∧ (siReact i w c s).app.lane = s.app.lane ∧
    (siReact i w c s).app.link = s.app.link ∧ (siReact i w c s).app.sl = s.app.sl ∧
    (siReact i w c s).app.eng = s.app.eng ∧ (siReact i w c s).app.ctx = s.app.ctx ∧
    (siReact i w c s).app.veh = s.app.veh ∧ (siReact i w c s).app.journal = s.app.journal ∧
    (siReact i w c s).app.tack = s.app.tack ∧ (siReact i w c s).cold = s.cold ∧
    (siReact i w c s).coldMr = s.coldMr ∧ (siReact i w c s).trial = s.trial ∧
    (siReact i w c s).power.safe = s.power.safe ∧ (siReact i w c s).power.clkOk = s.power.clkOk ∧
    (siReact i w c s).power.report = s.power.report ∧
    (siReact i w c s).power.hbRun = s.power.hbRun ∧ (siReact i w c s).power.vload = s.power.vload ∧
    (siReact i w c s).power.vpilp = s.power.vpilp ∧ (siReact i w c s).power.vpiln = s.power.vpiln ∧
    (siReact i w c s).power.vdrv = s.power.vdrv ∧ (siReact i w c s).power.pfin = s.power.pfin ∧
    (siReact i w c s).power.trimmed = s.power.trimmed ∧
    (siReact i w c s).power.period = s.power.period ∧
    (siReact i w c s).power.pilRebuilt = s.power.pilRebuilt ∧
    (siReact i w c s).power.tsLatch = s.power.tsLatch ∧
    (siReact i w c s).power.protLock = s.power.protLock ∧
    (siReact i w c s).power.retryWin = s.power.retryWin ∧
    (siReact i w c s).power.retryMax = s.power.retryMax ∧
    (siReact i w c s).power.test = s.power.test ∧ (siReact i w c s).power.run = s.power.run ∧
    (siReact i w c s).power.qtemp = s.power.qtemp ∧ (siReact i w c s).power.qband = s.power.qband ∧
    (siReact i w c s).power.qchg = s.power.qchg ∧ (siReact i w c s).power.sum = s.power.sum ∧
    (siReact i w c s).power.sumOver = s.power.sumOver ∧ (siReact i w c s).power.rc = s.power.rc ∧
    (siReact i w c s).power.im = s.power.im ∧ (siReact i w c s).power.seq = s.power.seq ∧
    (siReact i w c s).power.seqPerm = s.power.seqPerm ∧
    (siReact i w c s).power.seqProx = s.power.seqProx ∧ (siReact i w c s).power.psq = s.power.psq ∧
    (siReact i w c s).power.psqDue = s.power.psqDue ∧
    (siReact i w c s).power.fields = s.power.fields ∧
    (siReact i w c s).power.lines = s.power.lines ∧
    (siReact i w c s).power.readers = s.power.readers ∧
    (siReact i w c s).power.tags = s.power.tags ∧ (siReact i w c s).die = s.die ∧
    (siReact i w c s).fuses = s.fuses ∧ (siReact i w c s).obj = s.obj ∧
    (siReact i w c s).flash = s.flash ∧ (siReact i w c s).sec = s.sec ∧
    (siReact i w c s).pending = s.pending := by
  unfold siReact; dsimp only; (repeat' split) <;> simp

@[simp] theorem siReact_parts (i : Nat) (w : Bool) (c : Option Nat) (s : State) :
    (siReact i w c s).bridle.st = s.bridle.st ∧ (siReact i w c s).bridle.cause = s.bridle.cause ∧
    (siReact i w c s).bridle.slot = s.bridle.slot ∧
    (siReact i w c s).bridle.unsealed = s.bridle.unsealed ∧
    (siReact i w c s).bridle.restarts = s.bridle.restarts ∧
    (siReact i w c s).bridle.safeNLow = s.bridle.safeNLow ∧
    (siReact i w c s).bridle.hbOn = s.bridle.hbOn ∧
    (siReact i w c s).bridle.oscFail = s.bridle.oscFail ∧
    (siReact i w c s).bridle.inReset = s.bridle.inReset ∧
    (siReact i w c s).bridle.loaded = s.bridle.loaded ∧
    (siReact i w c s).bridle.time = s.bridle.time ∧ (siReact i w c s).bridle.chal = s.bridle.chal ∧
    (siReact i w c s).bridle.postTag = s.bridle.postTag ∧
    (siReact i w c s).bridle.postType = s.bridle.postType ∧
    (siReact i w c s).bridle.postSt = s.bridle.postSt ∧
    (siReact i w c s).bridle.discard = s.bridle.discard ∧
    (siReact i w c s).bridle.rx = s.bridle.rx ∧ (siReact i w c s).bridle.tx = s.bridle.tx ∧
    (siReact i w c s).bridle.post = s.bridle.post ∧
    (siReact i w c s).bridle.postStatus = s.bridle.postStatus ∧
    (siReact i w c s).bridle.fifo = s.bridle.fifo ∧
    (siReact i w c s).bridle.window = s.bridle.window ∧
    (siReact i w c s).bridle.cfg = s.bridle.cfg ∧
    (siReact i w c s).bridle.cfgBytes = s.bridle.cfgBytes ∧
    (siReact i w c s).bridle.mem = s.bridle.mem ∧ (siReact i w c s).bridle.hart = s.bridle.hart ∧
    (siReact i w c s).bridle.mirBad = s.bridle.mirBad := by
  unfold siReact; dsimp only; (repeat' split) <;> simp

@[simp] theorem mirrorCheck_same (p : Nat) (s : State) :
    (mirrorCheck p s).app.clk = s.app.clk ∧ (mirrorCheck p s).app.mbx = s.app.mbx ∧
    (mirrorCheck p s).app.hrn = s.app.hrn ∧ (mirrorCheck p s).app.harts = s.app.harts ∧
    (mirrorCheck p s).app.mem = s.app.mem ∧ (mirrorCheck p s).app.lane = s.app.lane ∧
    (mirrorCheck p s).app.link = s.app.link ∧ (mirrorCheck p s).app.sl = s.app.sl ∧
    (mirrorCheck p s).app.eng = s.app.eng ∧ (mirrorCheck p s).app.ctx = s.app.ctx ∧
    (mirrorCheck p s).app.veh = s.app.veh ∧ (mirrorCheck p s).app.journal = s.app.journal ∧
    (mirrorCheck p s).app.tack = s.app.tack ∧ (mirrorCheck p s).cold = s.cold ∧
    (mirrorCheck p s).coldMr = s.coldMr ∧ (mirrorCheck p s).trial = s.trial ∧
    (mirrorCheck p s).power.safe = s.power.safe ∧ (mirrorCheck p s).power.clkOk = s.power.clkOk ∧
    (mirrorCheck p s).power.report = s.power.report ∧
    (mirrorCheck p s).power.hbRun = s.power.hbRun ∧ (mirrorCheck p s).power.vload = s.power.vload ∧
    (mirrorCheck p s).power.vpilp = s.power.vpilp ∧ (mirrorCheck p s).power.vpiln = s.power.vpiln ∧
    (mirrorCheck p s).power.vdrv = s.power.vdrv ∧ (mirrorCheck p s).power.pfin = s.power.pfin ∧
    (mirrorCheck p s).power.trimmed = s.power.trimmed ∧
    (mirrorCheck p s).power.period = s.power.period ∧
    (mirrorCheck p s).power.pilRebuilt = s.power.pilRebuilt ∧
    (mirrorCheck p s).power.tsLatch = s.power.tsLatch ∧
    (mirrorCheck p s).power.protLock = s.power.protLock ∧
    (mirrorCheck p s).power.retryWin = s.power.retryWin ∧
    (mirrorCheck p s).power.retryMax = s.power.retryMax ∧
    (mirrorCheck p s).power.test = s.power.test ∧ (mirrorCheck p s).power.run = s.power.run ∧
    (mirrorCheck p s).power.qtemp = s.power.qtemp ∧ (mirrorCheck p s).power.qband = s.power.qband ∧
    (mirrorCheck p s).power.qchg = s.power.qchg ∧ (mirrorCheck p s).power.sum = s.power.sum ∧
    (mirrorCheck p s).power.sumOver = s.power.sumOver ∧ (mirrorCheck p s).power.rc = s.power.rc ∧
    (mirrorCheck p s).power.im = s.power.im ∧ (mirrorCheck p s).power.sto = s.power.sto ∧
    (mirrorCheck p s).power.seq = s.power.seq ∧ (mirrorCheck p s).power.seqPerm = s.power.seqPerm ∧
    (mirrorCheck p s).power.seqProx = s.power.seqProx ∧ (mirrorCheck p s).power.psq = s.power.psq ∧
    (mirrorCheck p s).power.psqDue = s.power.psqDue ∧
    (mirrorCheck p s).power.fields = s.power.fields ∧
    (mirrorCheck p s).power.lines = s.power.lines ∧
    (mirrorCheck p s).power.readers = s.power.readers ∧
    (mirrorCheck p s).power.tags = s.power.tags ∧ (mirrorCheck p s).die = s.die ∧
    (mirrorCheck p s).fuses = s.fuses ∧ (mirrorCheck p s).obj = s.obj ∧
    (mirrorCheck p s).flash = s.flash ∧ (mirrorCheck p s).sec = s.sec ∧
    (mirrorCheck p s).pending = s.pending := by
  unfold mirrorCheck; (repeat' split) <;> simp [State.updBp]

@[simp] theorem mirrorCheck_parts (p : Nat) (s : State) :
    (mirrorCheck p s).bridle.st = s.bridle.st ∧ (mirrorCheck p s).bridle.cause = s.bridle.cause ∧
    (mirrorCheck p s).bridle.slot = s.bridle.slot ∧
    (mirrorCheck p s).bridle.unsealed = s.bridle.unsealed ∧
    (mirrorCheck p s).bridle.restarts = s.bridle.restarts ∧
    (mirrorCheck p s).bridle.safeNLow = s.bridle.safeNLow ∧
    (mirrorCheck p s).bridle.hbOn = s.bridle.hbOn ∧
    (mirrorCheck p s).bridle.oscFail = s.bridle.oscFail ∧
    (mirrorCheck p s).bridle.inReset = s.bridle.inReset ∧
    (mirrorCheck p s).bridle.loaded = s.bridle.loaded ∧
    (mirrorCheck p s).bridle.time = s.bridle.time ∧ (mirrorCheck p s).bridle.chal = s.bridle.chal ∧
    (mirrorCheck p s).bridle.postTag = s.bridle.postTag ∧
    (mirrorCheck p s).bridle.postType = s.bridle.postType ∧
    (mirrorCheck p s).bridle.postSt = s.bridle.postSt ∧
    (mirrorCheck p s).bridle.dev = s.bridle.dev ∧ (mirrorCheck p s).bridle.si = s.bridle.si ∧
    (mirrorCheck p s).bridle.stoFault = s.bridle.stoFault ∧
    (mirrorCheck p s).bridle.stoRel = s.bridle.stoRel ∧
    (mirrorCheck p s).bridle.latched = s.bridle.latched ∧
    (mirrorCheck p s).bridle.running = s.bridle.running ∧
    (mirrorCheck p s).bridle.discard = s.bridle.discard ∧
    (mirrorCheck p s).bridle.rx = s.bridle.rx ∧ (mirrorCheck p s).bridle.tx = s.bridle.tx ∧
    (mirrorCheck p s).bridle.edgeIgnored = s.bridle.edgeIgnored ∧
    (mirrorCheck p s).bridle.post = s.bridle.post ∧
    (mirrorCheck p s).bridle.postStatus = s.bridle.postStatus ∧
    (mirrorCheck p s).bridle.fifo = s.bridle.fifo ∧
    (mirrorCheck p s).bridle.window = s.bridle.window ∧
    (mirrorCheck p s).bridle.cfg = s.bridle.cfg ∧
    (mirrorCheck p s).bridle.cfgBytes = s.bridle.cfgBytes ∧
    (mirrorCheck p s).bridle.mem = s.bridle.mem ∧ (mirrorCheck p s).bridle.hart = s.bridle.hart ∧
    (mirrorCheck p s).bridle.mirBad = s.bridle.mirBad := by
  unfold mirrorCheck; (repeat' split) <;> simp [State.updBp]

@[simp] theorem bridleStatus_same (s : State) :
    (bridleStatus s).app.clk = s.app.clk ∧ (bridleStatus s).app.mbx = s.app.mbx ∧
    (bridleStatus s).app.hrn = s.app.hrn ∧ (bridleStatus s).app.girth = s.app.girth ∧
    (bridleStatus s).app.harts = s.app.harts ∧ (bridleStatus s).app.mem = s.app.mem ∧
    (bridleStatus s).app.lane = s.app.lane ∧ (bridleStatus s).app.link = s.app.link ∧
    (bridleStatus s).app.sl = s.app.sl ∧ (bridleStatus s).app.eng = s.app.eng ∧
    (bridleStatus s).app.ctx = s.app.ctx ∧ (bridleStatus s).app.plc = s.app.plc ∧
    (bridleStatus s).app.veh = s.app.veh ∧ (bridleStatus s).app.server = s.app.server ∧
    (bridleStatus s).app.journal = s.app.journal ∧ (bridleStatus s).app.tack = s.app.tack ∧
    (bridleStatus s).cold = s.cold ∧ (bridleStatus s).coldMr = s.coldMr ∧
    (bridleStatus s).trial = s.trial ∧ (bridleStatus s).power = s.power ∧
    (bridleStatus s).die = s.die ∧ (bridleStatus s).fuses = s.fuses ∧
    (bridleStatus s).obj = s.obj ∧ (bridleStatus s).flash = s.flash ∧
    (bridleStatus s).sec = s.sec ∧ (bridleStatus s).fresh = s.fresh ∧
    (bridleStatus s).pending = s.pending := by
  simp [bridleStatus]

@[simp] theorem bridleStatus_parts (s : State) :
    (bridleStatus s).bridle.st = s.bridle.st ∧ (bridleStatus s).bridle.cause = s.bridle.cause ∧
    (bridleStatus s).bridle.slot = s.bridle.slot ∧
    (bridleStatus s).bridle.unsealed = s.bridle.unsealed ∧
    (bridleStatus s).bridle.restarts = s.bridle.restarts ∧
    (bridleStatus s).bridle.safeNLow = s.bridle.safeNLow ∧
    (bridleStatus s).bridle.hbOn = s.bridle.hbOn ∧
    (bridleStatus s).bridle.oscFail = s.bridle.oscFail ∧
    (bridleStatus s).bridle.inReset = s.bridle.inReset ∧
    (bridleStatus s).bridle.loaded = s.bridle.loaded ∧
    (bridleStatus s).bridle.time = s.bridle.time ∧ (bridleStatus s).bridle.chal = s.bridle.chal ∧
    (bridleStatus s).bridle.postTag = s.bridle.postTag ∧
    (bridleStatus s).bridle.postType = s.bridle.postType ∧
    (bridleStatus s).bridle.postSt = s.bridle.postSt ∧
    (bridleStatus s).bridle.overrun = s.bridle.overrun ∧
    (bridleStatus s).bridle.acked = s.bridle.acked ∧
    (bridleStatus s).bridle.newest = s.bridle.newest ∧
    (bridleStatus s).bridle.notes = s.bridle.notes ∧ (bridleStatus s).bridle.pts = s.bridle.pts ∧
    (bridleStatus s).bridle.dev = s.bridle.dev ∧ (bridleStatus s).bridle.si = s.bridle.si ∧
    (bridleStatus s).bridle.stoFault = s.bridle.stoFault ∧
    (bridleStatus s).bridle.stoRel = s.bridle.stoRel ∧
    (bridleStatus s).bridle.latched = s.bridle.latched ∧
    (bridleStatus s).bridle.running = s.bridle.running ∧
    (bridleStatus s).bridle.discard = s.bridle.discard ∧ (bridleStatus s).bridle.rx = s.bridle.rx ∧
    (bridleStatus s).bridle.tx = s.bridle.tx ∧
    (bridleStatus s).bridle.edgeIgnored = s.bridle.edgeIgnored ∧
    (bridleStatus s).bridle.post = s.bridle.post ∧
    (bridleStatus s).bridle.postStatus = s.bridle.postStatus ∧
    (bridleStatus s).bridle.fifo = s.bridle.fifo ∧
    (bridleStatus s).bridle.window = s.bridle.window ∧ (bridleStatus s).bridle.cfg = s.bridle.cfg ∧
    (bridleStatus s).bridle.cfgBytes = s.bridle.cfgBytes ∧
    (bridleStatus s).bridle.mem = s.bridle.mem ∧ (bridleStatus s).bridle.hart = s.bridle.hart ∧
    (bridleStatus s).bridle.mirBad = s.bridle.mirBad := by
  simp [bridleStatus]

end Sys2Proof.Machine
end

