-- ==== Sys2Proof/Laws/ControlFacts.lean ====
section
/-!
SUPPORT. What operations of the Harness, the Girth, the counters, the Buckle and the mailboxes do, for the obligations about them.
-/
set_option Elab.async false
set_option linter.all false
namespace Sys2Proof.Machine

/-! ### HarnessGrants -/

theorem rot_mem (last : Nat) (ports : List Nat) (h : ports ≠ []) (hb : ∀ p ∈ ports, p < 24) :
    ∃ p ∈ ports, nextInRotation last ports = some p := by
  cases ports with
  | nil => exact absurd rfl h
  | cons q qs =>
    unfold nextInRotation
    cases hf : ((List.range 24).map fun k => (last + 1 + k) % 24).find? fun p => (q :: qs).contains p with
    | some p =>
      have := List.find?_some hf
      exact ⟨p, by simpa using this, rfl⟩
    | none =>
      exfalso
      rw [List.find?_eq_none] at hf
      have hq := hb q (by simp)
      refine hf q ?_ (by simp)
      rw [List.mem_map]
      refine ⟨(q + 24 * (last + 1) - (last + 1)) % 24, by simp; omega, by omega⟩

theorem pick_of (l : List BurstReq) (last : Nat) (h : l ≠ []) :
    ∃ r ∈ l, ((nextInRotation last (l.map fun r => r.port.val)).bind fun p => l.find? fun r => r.port.val = p) = some r ∧
      nextInRotation last (l.map fun r => r.port.val) = some r.port.val := by
  obtain ⟨p, hp, he⟩ := rot_mem last (l.map fun r => r.port.val) (by simpa using h) (by simp)
  rw [he]
  simp only [Option.bind_some]
  cases hf : l.find? fun r => r.port.val = p with
  | none =>
    rw [List.find?_eq_none] at hf
    rw [List.mem_map] at hp
    obtain ⟨a, ha, e⟩ := hp
    exact absurd (by simpa using e) (hf a ha)
  | some r =>
    have h1 := List.find?_some hf
    exact ⟨r, List.mem_of_find?_eq_some hf, rfl, by simp at h1; simp [h1]⟩

theorem grant_granted (w : GrantWay) (r : BurstReq) (n : Nat) (h : HrnTarget) : (h.grant w r n).granted = some r.port.val := rfl

theorem eccReport_hrn (m : Nat) (e : Ecc) (s : State) : (eccReport m e s).app.hrn = s.app.hrn := by
  cases e <;> simp [eccReport]

theorem burst_hrn (g : Fin 30) (reqs : List BurstReq) (e : Ecc) (s : State) :
    ∃ t, exec (.harnessBurst g ⟨reqs, e⟩) s = .next t ∧ t.app.hrn = (harnessBurst g (reqs.filter (BurstReq.atTarget g)) s).app.hrn := by
  by_cases h : g = 29
  · exact ⟨_, by simp only [exec, execHarnessBurst, h, if_true]; rfl, by rw [h]⟩
  · exact ⟨eccReport (targetMemory g) e (harnessBurst g (reqs.filter (BurstReq.atTarget g)) s), by simp only [exec, execHarnessBurst, h, if_false], eccReport_hrn _ _ _⟩

theorem harnessBurst_pick (g : Nat) (reqs : List BurstReq) (s : State) :
    ((harnessBurst g reqs s).app.hrn.get g).granted = (harnessPick (s.app.hrn.get g) reqs).map (fun x => x.2.port.val) := by
  unfold harnessBurst
  dsimp only
  cases harnessPick (s.app.hrn.get g) reqs with
  | none => dsimp only; split <;> simp
  | some x => dsimp only; split <;> simp [grant_granted]

theorem harnessBurst_other (g : Nat) (reqs : List BurstReq) (s : State) :
    ∀ u, u ≠ g → (harnessBurst g reqs s).app.hrn.get u = s.app.hrn.get u := by
  intro u hu
  unfold harnessBurst
  dsimp only
  cases harnessPick (s.app.hrn.get g) reqs with
  | none => dsimp only; split <;> simp [Bank.get_set_other _ _ (Ne.symm hu)]
  | some x => dsimp only; split <;> simp [Bank.get_set_other _ _ (Ne.symm hu)]

theorem harnessBurst_safe (g : Nat) (reqs : List BurstReq) (s : State)
    (h : ∃ r ∈ reqs, isSafePort r.port = true ∧ isTestReq r = false ∧ safeEligible (s.app.hrn.get g) r.port = true) :
    ∃ p, ((harnessBurst g reqs s).app.hrn.get g).granted = some p ∧ isSafePort p = true := by
  obtain ⟨r, hr, h1, h2, h3⟩ := h
  have hne : ((reqs.filter fun r => isSafePort r.port && !isTestReq r).filter fun r => safeEligible (s.app.hrn.get g) r.port) ≠ [] := by
    intro e
    have : r ∈ ((reqs.filter fun r => isSafePort r.port && !isTestReq r).filter fun r => safeEligible (s.app.hrn.get g) r.port) := by
      simp [hr, h1, h2, h3]
    rw [e] at this; simp at this
  obtain ⟨q, hq, e, _⟩ := pick_of _ (s.app.hrn.get g).lastSafe hne
  have hp : harnessPick (s.app.hrn.get g) reqs = some (.safe, q) := by
    unfold harnessPick; simp only [e]
  refine ⟨q.port.val, by rw [harnessBurst_pick, hp]; rfl, ?_⟩
  simp only [List.mem_filter, Bool.and_eq_true] at hq; exact hq.1.2.1

theorem harnessBurst_main (g : Nat) (reqs : List BurstReq) (s : State)
    (h : reqs ≠ [] ∧ (∀ r ∈ reqs, isSafePort r.port = false ∧ isTestReq r = false)) :
    ((harnessBurst g reqs s).app.hrn.get g).granted = nextInRotation (s.app.hrn.get g).lastMain (reqs.map fun r => r.port.val) ∧ ((harnessBurst g reqs s).app.hrn.get g).granted ≠ none := by
  obtain ⟨hne, ha⟩ := h
  have f1 : (reqs.filter fun r => isSafePort r.port && !isTestReq r) = [] := by
    rw [List.filter_eq_nil_iff]; intro a h; simp [ha a h]
  have f2 : reqs.filter isTestReq = [] := by
    rw [List.filter_eq_nil_iff]; intro a h; simp [ha a h]
  have f3 : (reqs.filter fun r => !isSafePort r.port && !isTestReq r) = reqs := by
    rw [List.filter_eq_self]; intro a h; simp [ha a h]
  obtain ⟨q, hq, e, e2⟩ := pick_of reqs (s.app.hrn.get g).lastMain hne
  have hp : harnessPick (s.app.hrn.get g) reqs = some (.main, q) := by
    unfold harnessPick
    simp only [f1, f2, f3, e, oldestReq, List.filter_nil]
    simp [nextInRotation]
  rw [harnessBurst_pick, hp, e2]; simp

/-! ### GirthGrantsAndReleases -/

@[simp] theorem girthSignal_girth' (r : GirthReq) (s : State) : (girthSignal r s).app.girth = s.app.girth := by
  unfold girthSignal; (repeat' split) <;> simp

theorem ports_fold (l : List GirthReq) (F : GirthReq → GirthPort → GirthPort) (s : State) :
  (l.foldl (fun (t : State) g => { t with app.girth.ports := t.app.girth.ports.upd g.port (F g) }) s).app.girth.grants = s.app.girth.grants ∧
  (l.foldl (fun (t : State) g => { t with app.girth.ports := t.app.girth.ports.upd g.port (F g) }) s).app.girth.queue = s.app.girth.queue := by
  induction l generalizing s with
  | nil => exact ⟨rfl, rfl⟩
  | cons a r ih => simp only [List.foldl_cons]; have := ih { s with app.girth.ports := s.app.girth.ports.upd a.port (F a) }; exact this

theorem girthEnd_grants (f : GirthReq → Bool) (part : Bool) (s : State) :
    (girthEnd f part s).app.girth.grants = (s.app.girth.grants.map fun g => if f g then (if part then { g with tIn := false } else { g with sIn := false }) else g).filter fun g => g.tIn || g.sIn := by
  unfold girthEnd; dsimp only; rw [(ports_fold _ (fun g r => if g.ticket ≠ 0 && r.ticket = g.ticket then { r with state := 3 } else r) _).1]

theorem girthEnd_queue (f : GirthReq → Bool) (part : Bool) (s : State) : (girthEnd f part s).app.girth.queue = s.app.girth.queue := by
  unfold girthEnd; dsimp only; rw [(ports_fold _ (fun g r => if g.ticket ≠ 0 && r.ticket = g.ticket then { r with state := 3 } else r) _).2]

theorem girthEnd_keep (f : GirthReq → Bool) (part : Bool) (s : State) (g : GirthReq) (hg : g ∈ s.app.girth.grants)
    (hf : f g = false) (hp : g.tIn = true ∨ g.sIn = true) : g ∈ (girthEnd f part s).app.girth.grants := by
  rw [girthEnd_grants]; simp only [List.mem_filter, List.mem_map]
  exact ⟨⟨g, hg, by simp [hf]⟩, by simpa using hp⟩

theorem girthEnd_mem (f : GirthReq → Bool) (part : Bool) (s : State) (g : GirthReq) (hg : g ∈ (girthEnd f part s).app.girth.grants) :
    ∃ a ∈ s.app.girth.grants, (if f a then (if part then { a with tIn := false } else { a with sIn := false }) else a) = g ∧ (g.tIn || g.sIn) = true := by
  rw [girthEnd_grants] at hg; simp only [List.mem_filter, List.mem_map] at hg
  obtain ⟨⟨a, ha, e⟩, hp⟩ := hg; exact ⟨a, ha, e, hp⟩

theorem girthEnd_off (f : GirthReq → Bool) (part : Bool) (s : State) (g : GirthReq)
    (hg : g ∈ (girthEnd f part s).app.girth.grants)
    (hf : f { g with tIn := if part then true else g.tIn, sIn := if part then g.sIn else true } = true ∧ f { g with tIn := if part then false else g.tIn, sIn := if part then g.sIn else false } = true) :
    (if part then g.tIn else g.sIn) = false := by
  obtain ⟨a, ha, e, hp⟩ := girthEnd_mem f part s g hg
  cases hfa : f a
  · simp only [hfa, Bool.false_eq_true, if_false] at e; subst e
    cases part
    · simp at hf ⊢
      cases hs : a.sIn
      · rfl
      · cases a; simp at hs; subst hs; simp_all
    · simp at hf ⊢
      cases hs : a.tIn
      · rfl
      · cases a; simp at hs; subst hs; simp_all
  · simp only [hfa, if_true] at e; cases part <;> simp at e ⊢ <;> subst e <;> rfl

theorem withdraw_grants (f : GirthReq → Bool) (s : State) : (girthWithdraw f s).app.girth.grants = s.app.girth.grants := by
  unfold girthWithdraw
  generalize List.range 3 = l
  induction l generalizing s with
  | nil => rfl
  | cons c r ih =>
    simp only [List.foldl_cons]; rw [ih]
    rw [(ports_fold _ (fun g r => if r.ticket = g.ticket then { r with state := 3 } else r) _).1]

theorem withdraw_queue (f : GirthReq → Bool) (s : State) (c : Nat) (hc : c < 3) :
    (girthWithdraw f s).app.girth.queue.get c = (s.app.girth.queue.get c).filter fun r => !f r := by
  have key : ∀ (l : List Nat), l.Nodup → ∀ s : State, (l.foldl (fun t c =>
    let q := t.app.girth.queue.get c
    let t1 := { t with app.girth.queue := t.app.girth.queue.set c (q.filter fun r => !f r) }
    (q.filter f).foldl (fun u g =>
      { u with app.girth.ports := u.app.girth.ports.upd g.port fun r =>
          if r.ticket = g.ticket then { r with state := 3 } else r }) t1) s).app.girth.queue.get c = if c ∈ l then (s.app.girth.queue.get c).filter fun r => !f r else s.app.girth.queue.get c := by
    intro l hl
    induction l with
    | nil => intro s; simp
    | cons a r ih =>
      rw [List.nodup_cons] at hl
      intro s
      simp only [List.foldl_cons]; rw [ih hl.2]
      rw [(ports_fold _ (fun g r => if r.ticket = g.ticket then { r with state := 3 } else r) _).2]
      dsimp only
      rw [Bank.get_set]
      by_cases h : a = c
      · subst h; simp [hl.1]
      · simp [h, Ne.symm h]
  unfold girthWithdraw
  rw [key _ List.nodup_range]; simp [hc]

theorem girthRelease_all (p : Fin 24) (v : Word) (s : State) (h : fld v 0 16 ≠ 0) :
   ∃ t, exec (.girthRelease p v) s = .next t ∧ (∀ g ∈ t.app.girth.grants, ¬(g.ticket = fld v 0 16 ∧ g.port = p.val)) ∧ (∀ c, c < 3 → ∀ r ∈ t.app.girth.queue.get c, ¬(r.ticket = fld v 0 16 ∧ r.port = p.val)) ∧ (∀ g ∈ s.app.girth.grants, (g.ticket ≠ fld v 0 16 ∨ g.port ≠ p.val) → (g.tIn = true ∨ g.sIn = true) → g ∈ t.app.girth.grants) := by
  refine ⟨_, rfl, ?_, ?_, ?_⟩
  · intro g hg ⟨h1, h2⟩
    simp only [girthRelWrite, withdraw_grants] at hg
    obtain ⟨a, ha, e, hp⟩ := girthEnd_mem _ _ _ _ hg
    have t1 := girthEnd_off _ true _ g hg (by simp [h1, h2, h])
    have : a.ticket = g.ticket ∧ a.port = g.port ∧ a.sIn = g.sIn := by
      split at e
      · simp at e; subst e; exact ⟨rfl, rfl, rfl⟩
      · subst e; exact ⟨rfl, rfl, rfl⟩
    have t2 := girthEnd_off _ false _ a ha (by simp [this.1, this.2.1, h1, h2, h])
    simp at t1 t2
    simp [t1, ← this.2.2, t2] at hp
  · intro c hc r hr ⟨h1, h2⟩
    simp only [girthRelWrite, withdraw_queue _ _ c hc, List.mem_filter] at hr
    simp [h1, h2, h] at hr
  · intro g hg hn hp
    simp only [girthRelWrite, withdraw_grants]
    exact girthEnd_keep _ _ _ _ (girthEnd_keep _ _ _ _ hg (by simp; intro _ h1 h2; rcases hn with h | h <;> contradiction) hp) (by simp; intro _ h1 h2; rcases hn with h | h <;> contradiction) hp

/-! ### BuckleClaims -/

theorem pmcAdd_src (n i k : Nat) (s : State) (m : Nat) (h : m ≠ 500) : (pmcAdd n i k s).app.bkl.src.get m = s.app.bkl.src.get m := by
  induction n generalizing i k s with
  | zero => rfl
  | succ n ih =>
    simp only [pmcAdd]; split
    · rfl
    · split
      · rw [ih]
      · have e : ∀ (l : List Nat) (u : State), (l.foldl (fun t j => pmcAdd n j 1 t) u).app.bkl.src.get m = u.app.bkl.src.get m := by
          intro l
          induction l with
          | nil => intro u; rfl
          | cons a r ih2 => intro u; simp only [List.foldl_cons]; rw [ih2, ih]
        split
        · rw [e, updSrc_get, if_neg (Ne.symm h)]
        · rw [updSrc_get, if_neg (Ne.symm h)]

theorem countEvents_src (g i k : Nat) (s : State) (m : Nat) (h : m ≠ 500) : (countEvents g i k s).app.bkl.src.get m = s.app.bkl.src.get m := by
  unfold countEvents
  generalize pmcListeners s.app.pmc g i = l
  induction l generalizing s with
  | nil => rfl
  | cons a r ih => simp only [List.foldl_cons]; rw [ih, pmcAdd_src _ _ _ _ _ h]

theorem clearLatches_insvc (k : Fin 16) (v : Word) (s : State) (n : Nat) : ((clearLatches k v s).app.bkl.src.get n).insvc = (s.app.bkl.src.get n).insvc := by
  unfold clearLatches
  generalize bitsOf v = l
  induction l generalizing s with
  | nil => rfl
  | cons a r ih =>
    simp only [List.foldl_cons]; rw [ih]; split
    · rfl
    · rw [updSrc_get]; split <;> rfl

theorem clear_keep (k : Nat) (l : List Nat) (s : State) (n : Nat) (h : (s.app.bkl.src.get n).latch = false) :
   ((l.foldl (fun t i =>
    let n := 32 * k + i
    if isReserved n || isLevel n then t else t.updSrc n fun e => { e with latch := false }) s).app.bkl.src.get n).latch = false := by
  induction l generalizing s with
  | nil => exact h
  | cons a r ih =>
    simp only [List.foldl_cons]; apply ih; split
    · exact h
    · rw [updSrc_get]; split <;> simp [h]

theorem clearLatches_clears (k : Fin 16) (v : Word) (s : State) (i : Nat) (hi : i < 32) (hv : v.getLsbD i = true) (h1 : isReserved (32 * k + i) = false) (h2 : isLevel (32 * k + i) = false) :
   ((clearLatches k v s).app.bkl.src.get (32 * k + i)).latch = false := by
  have hm : i ∈ bitsOf v := by simp [bitsOf, hi, hv]
  unfold clearLatches
  generalize bitsOf v = l at hm
  induction l generalizing s with
  | nil => simp at hm
  | cons a r ih =>
    simp only [List.foldl_cons]
    rcases List.mem_cons.mp hm with e | e
    · subst e; apply clear_keep; simp [h1, h2, updSrc_get]
    · exact ih _ e

theorem raise_latched (n m : Nat) (s : State) (h : (s.app.bkl.src.get m).latch = true) (hm : m ≠ 500) : ((raise n s).app.bkl.src.get m).latch = true := by
  unfold raise; split
  · exact h
  · dsimp only
    have : ((s.updSrc n (edgeLatch s.gated)).app.bkl.src.get m).latch = true := by
      rw [updSrc_get]; split
      · unfold edgeLatch; (repeat' split) <;> simp_all
      · exact h
    split
    · rw [countEvents_src _ _ _ _ _ hm]; exact this
    · exact this

theorem raise_gate (n : Nat) (s : State) : (raise n s).gated = s.gated ∧ (raise n s).inReset = s.inReset := by
  have : (raise n s).asleep = s.asleep := by funext t; simp [State.asleep]
  simp [State.gated, this, State.inReset]

theorem raise_sets (n : Nat) (s : State) (h1 : isReserved n = false) (h2 : isLevel n = false) (h3 : s.inReset = false) (h4 : s.gated = false) (hn : n ≠ 500) : ((raise n s).app.bkl.src.get n).latch = true := by
  simp only [raise, h1, h2, h3, h4, Bool.or_self, Bool.false_eq_true, if_false, Bool.not_false, Bool.true_and]
  have : ((s.updSrc n (edgeLatch false)).app.bkl.src.get n).latch = true := by
    rw [updSrc_get, if_pos rfl]; unfold edgeLatch; simp; split <;> simp_all
  split
  · rw [countEvents_src _ _ _ _ _ hn]; exact this
  · exact this

theorem sw_keep (l : List Nat) (s : State) (m : Nat) (hm : m ≠ 500) (h : (s.app.bkl.src.get m).latch = true) : ((l.foldl (fun t i => raise (504 + i) t) s).app.bkl.src.get m).latch = true := by
  induction l generalizing s with
  | nil => exact h
  | cons a r ih => simp only [List.foldl_cons]; exact ih _ (raise_latched _ _ _ h hm)

theorem swset_all (v : Word) (s : State) (h : s.inReset = false ∧ s.gated = false) : ∃ t, exec (.buckleSoftwareSet v) s = .next t ∧ ∀ i, i < 8 → v.getLsbD i = true → (t.app.bkl.src.get (504 + i)).latch = true := by
  refine ⟨_, rfl, ?_⟩
  intro i hi hv
  have hm : i ∈ bitsOf (v.setWidth 8) := by simp [bitsOf, hi, hv]
  obtain ⟨h1, h2⟩ := h
  unfold bklSwset
  generalize bitsOf (v.setWidth 8) = l at hm
  induction l generalizing s with
  | nil => simp at hm
  | cons a r ih =>
    simp only [List.foldl_cons]
    rcases List.mem_cons.mp hm with e | e
    · subst e
      apply sw_keep _ _ _ (by omega)
      apply raise_sets _ _ _ _ h1 h2 (by omega)
      · have : ∀ j : Fin 8, isReserved (504 + j.val) = false := by decide
        exact this ⟨i, hi⟩
      · have : ∀ j : Fin 8, isLevel (504 + j.val) = false := by decide
        exact this ⟨i, hi⟩
    · exact ih _ (by rw [(raise_gate _ _).2]; exact h1) (by rw [(raise_gate _ _).1]; exact h2) e

/-! ### BuckleModes -/

theorem wake_all (s : State) (l : List Nat) (u : State) : ∀ m ∈ l, (s.app.bkl.src.get m).target < 10 → ((l.foldl (fun t m => wakeTarget (s.app.bkl.src.get m).target t) u).app.harts.get (targetHart (s.app.bkl.src.get m).target)).wfi = false := by
  refine foldl_each (fun t m => wakeTarget (s.app.bkl.src.get m).target t) (fun m t => (s.app.bkl.src.get m).target < 10 → (t.app.harts.get (targetHart (s.app.bkl.src.get m).target)).wfi = false) ?_ ?_ l u
  · intro a b t h hb
    have := h hb
    unfold wakeTarget
    split
    · rw [Bank.get_upd]; split
      · rfl
      · exact this
    · exact this
  · intro a t ha
    unfold wakeTarget
    rw [if_pos ha]
    simp

theorem wake_rest (s : State) (l : List Nat) (u : State) : (l.foldl (fun t m => wakeTarget (s.app.bkl.src.get m).target t) u).app.mbx = u.app.mbx ∧ (l.foldl (fun t m => wakeTarget (s.app.bkl.src.get m).target t) u).power = u.power :=
  foldl_keep _ (fun t : State => t.app.mbx = u.app.mbx ∧ t.power = u.power) (fun a t h => by unfold wakeTarget; split <;> exact h) l u ⟨rfl, rfl⟩

theorem transfer_rest (s : State) : (transferSleep s).app.mbx = s.app.mbx ∧ (transferSleep s).power = s.power := by
  unfold transferSleep; simp

end Sys2Proof.Machine
end

