-- ==== Sys2Proof/Laws/OutputFacts.lean ====
section
/-!
SUPPORT. What operations of the output channels do, for the obligations about them.
-/
set_option Elab.async false
set_option linter.all false
namespace Sys2Proof.Machine

/-! ### OutputRestarts -/

@[simp] theorem updOut_retryMax (s : State) (x : Nat) (f : Output → Output) : (s.updOut x f).power.retryMax = s.power.retryMax := by unfold State.updOut; split <;> rfl

/-! ### OutputSettingsAndTests -/

theorem waitLatch_out (x y : Nat) (s : State) (h : (s.out y).st ≠ .thermWait ∨ x = y) : ((outWaitLatch x s).out y).st ≠ .thermWait := by
  unfold outWaitLatch
  split
  · rename_i hx
    simp only [outLatch, outEvt_out, outTo_out, out_updOut]
    by_cases e : x = y
    · subst e; simp; split <;> simp
    · simp [e]; rcases h with h | h
      · exact h
      · exact absurd h e
  · rename_i hx
    rcases h with h | h
    · exact h
    · subst h; exact hx

theorem waitLatchAll_none (s : State) (x : Nat) (hx : x < 96) : ((outWaitLatchAll s).out x).st ≠ .thermWait := by
  unfold outWaitLatchAll
  have hm : x ∈ List.range 96 := by simp [hx]
  generalize List.range 96 = l at hm
  have keep : ∀ (l : List Nat) (s : State), (s.out x).st ≠ .thermWait → ((l.foldl (fun t x => outWaitLatch x t) s).out x).st ≠ .thermWait := by
    intro l; induction l with
    | nil => intro s h; exact h
    | cons a r ih => intro s h; exact ih _ (waitLatch_out a x s (Or.inl h))
  induction l generalizing s with
  | nil => simp at hm
  | cons a r ih =>
    simp only [List.foldl_cons]
    rcases List.mem_cons.mp hm with e | e
    · subst e; exact keep _ _ (waitLatch_out x x s (Or.inr rfl))
    · exact ih _ e

end Sys2Proof.Machine
end

