-- ==== Sys2Proof/Laws/SupplyFacts.lean ====
section
/-!
SUPPORT. What operations of supplies and resets do, for the obligations about them.
-/
set_option Elab.async false
set_option linter.all false
namespace Sys2Proof.Machine

/-! ### SupplyEvents -/

theorem plcFold (l : List PlcTx) (x : PlcCh) : (l.foldl (fun d t => plcDone ⟨t.tag, t.tries, .state⟩ d) x).st = x.st ∧ (l.foldl (fun d t => plcDone ⟨t.tag, t.tries, .state⟩ d) x).started = x.started := by
  induction l generalizing x with
  | nil => exact ⟨rfl, rfl⟩
  | cons a r ih => simp only [List.foldl_cons]; rw [(ih _).1, (ih _).2]; unfold plcDone; split <;> exact ⟨rfl, rfl⟩

theorem updPlc_plc (s : State) (n m : Nat) (f : PlcCh → PlcCh) : (s.updPlc n f).plc m = if n = m then f (s.plc m) else s.plc m := by
  simp [State.updPlc, State.plc, Bank.get_upd]

theorem plcGo_off (x : PlcCh) (h : x.started = false) : (plcGo .off x).on = false := by
  unfold plcGo; split
  · rename_i e; simp [PlcCh.on, e, h]
  · simp [PlcCh.on, plcEvt, h]

theorem plcOff_plc (n m : Nat) (s : State) : (plcOff n s).plc m = if n = m then plcGo .off (plcFailAll { plcForget (s.plc m) with started := false }) else s.plc m := by
  unfold plcOff
  have e : ∀ t : State, (girthUnitOff 1 n t).plc m = t.plc m := fun t => by simp [State.plc, girthUnitOff]
  split <;> simp only [e, updPlc_plc]

theorem plcHalt_off (s : State) (n : Nat) (hn : n < 66) : ((plcHalt s).plc n).on = false := by
  unfold plcHalt
  refine foldl_each _ (fun n (s : State) => (s.plc n).on = false) ?_ ?_ (List.range 66) s n (by simp [hn])
  · intro a b t h
    split
    · simp only [updPlc_plc, plcOff_plc]
      by_cases e : a = b
      · subst e; rename_i h'; simp [h] at h'
      · simp [e, h]
    · exact h
  · intro a t
    split
    · simp only [updPlc_plc, plcOff_plc, if_true]
      exact plcGo_off (plcFailAll { plcForget (t.plc a) with started := false }) (by simp [plcFailAll, (plcFold _ _).2])
    · rename_i h; simpa using h

theorem outVload_out (x y : Nat) (s : State) : (outIsOn ((outVload x s).out y) = false ∧ ((outVload x s).out y).st ≠ .thermWait) ∨ (x ≠ y ∧ (outVload x s).out y = s.out y) := by
  unfold outVload
  dsimp only
  split
  · simp only [outEvt_out, outTo_out]
    by_cases e : x = y
    · left; subst e; simp only [if_true]; split <;> simp [outIsOn] <;> split <;> simp
    · right; simp [e]
  · by_cases e : x = y
    · left; subst e; rename_i h; simp at h; exact ⟨h.1, h.2⟩
    · right; exact ⟨e, rfl⟩

theorem outVload_vload (x : Nat) (s : State) : (outVload x s).power.vload = s.power.vload := by
  unfold outVload; dsimp only; split <;> simp

theorem vloadFrame_out (s : State) (x : Nat) : (vloadFrame s).out x = s.out x := by
  simp only [State.out, vloadFrame_power]

theorem vloadTrip_flag (s : State) : (vloadTrip s).power.vload = true := by
  unfold vloadTrip; rw [vloadFrame_power]; simp only [laneRaise_same]
  exact foldl_keep _ (fun s => s.power.vload = true) (fun a t h => by rw [outVload_vload]; exact h) _ _ rfl

theorem vloadTrip_off (s : State) (x : Nat) (hx : x < 96) : outIsOn ((vloadTrip s).out x) = false ∧ ((vloadTrip s).out x).st ≠ .thermWait := by
  unfold vloadTrip; simp only [vloadFrame_out, laneRaise_out]
  refine foldl_each _ (fun x (s : State) => outIsOn (s.out x) = false ∧ (s.out x).st ≠ .thermWait) ?_ ?_ (List.range 96) _ x (by simp [hx])
  · intro a b t h; rcases outVload_out a b t with h' | h'
    · exact h'
    · rw [h'.2]; exact h
  · intro a t; rcases outVload_out a a t with h' | h'
    · exact h'
    · exact absurd rfl h'.1

theorem countPt_pil (p : Nat) (f : PtCount → PtCount) (s : State) (q : Nat) : (countPt p f s).pil q = s.pil q := rfl

theorem pilEvt_dis (p i q : Nat) (s : State) : ((pilEvt p i s).pil q).supplyDis = (s.pil q).supplyDis := by
  unfold pilEvt; rw [laneRaise_pil, pil_updPil]; split <;> rfl

theorem pilGo_dis (p q : Nat) (st : PilSt) (s : State) : ((pilGo p st s).pil q).supplyDis = (s.pil q).supplyDis := by
  unfold pilGo; dsimp only; split
  · rfl
  · have e : ∀ (f : Bank Nat → Bank Nat) (t : State), State.pil { t with app.plc.toggles := f t.app.plc.toggles } q = t.pil q := fun f t => rfl
    split
    · rw [e (·.upd p (· + 1)), pilEvt_dis, pil_updPil]; split <;> rfl
    · rw [pilEvt_dis, pil_updPil]; split <;> rfl

theorem pilFault_dis (p : Nat) (st : PilSt) (e : Nat) (c : BitVec 3) (s : State) (q : Nat) : ((pilFault p st e c s).pil q).supplyDis = (s.pil q).supplyDis := by
  unfold pilFault; rw [pilEvt_dis, pilGo_dis, pil_updPil]; split <;> rfl

theorem pilEvt_rail (p i : Nat) (s : State) : (pilEvt p i s).pilotRail = s.pilotRail := by
  unfold pilEvt State.pilotRail State.updPil; simp

theorem pilGo_rail (p : Nat) (st : PilSt) (s : State) : (pilGo p st s).pilotRail = s.pilotRail := by
  unfold pilGo; dsimp only; split
  · rfl
  · have e : ∀ (f : Bank Nat → Bank Nat) (t : State), State.pilotRail { t with app.plc.toggles := f t.app.plc.toggles } = t.pilotRail := fun f t => rfl
    split
    · rw [e (·.upd p (· + 1)), pilEvt_rail]; rfl
    · rw [pilEvt_rail]; rfl

theorem pilFault_rail (p : Nat) (st : PilSt) (e : Nat) (c : BitVec 3) (s : State) : (pilFault p st e c s).pilotRail = s.pilotRail := by
  unfold pilFault; rw [pilEvt_rail, pilGo_rail]; rfl

theorem supplyFault_dis (p q : Nat) (s : State) : ((pilSupplyFault p s).pil q).supplyDis = true ∨ (p ≠ q ∧ ((pilSupplyFault p s).pil q).supplyDis = (s.pil q).supplyDis) := by
  unfold pilSupplyFault; dsimp only
  by_cases e : p = q
  · left; subst e; split
    · rw [pilFault_dis, pil_updPil_same]
    · rw [pil_updPil_same]
  · right; refine ⟨e, ?_⟩; split
    · rw [pilFault_dis, pil_updPil, if_neg e]
    · rw [pil_updPil, if_neg e]

theorem supplyFault_rail (p : Nat) (s : State) : (pilSupplyFault p s).pilotRail = s.pilotRail := by
  unfold pilSupplyFault; dsimp only; split
  · rw [pilFault_rail]; rfl
  · rfl

theorem outHold_bridle' (x : Nat) (s : State) : (outHold x s).bridle = s.bridle := by
  unfold outHold outEvt outTo; dsimp only; (repeat' split) <;> simp [State.updOut, withdrawRestart] <;> (repeat' split) <;> simp

theorem syncOut_bridle' (x : Nat) (s : State) : (syncOut x s).bridle = s.bridle := by
  unfold syncOut; (repeat' split)
  · rfl
  · exact outHold_bridle' x s
  · unfold outRelease State.updOut; split <;> rfl
  · rfl

theorem outHold_pil (x : Nat) (s : State) (q : Nat) : (outHold x s).pil q = s.pil q := by
  unfold outHold outEvt outTo; dsimp only; (repeat' split) <;> simp [State.pil, State.updOut, withdrawRestart, laneRaise_same] <;> (repeat' split) <;> simp

theorem syncOut_pil (x : Nat) (s : State) (q : Nat) : (syncOut x s).pil q = s.pil q := by
  unfold syncOut; (repeat' split)
  · rfl
  · exact outHold_pil x s q
  · unfold outRelease State.updOut; split <;> rfl
  · rfl

theorem driveF_dis (b : Bool) (p q : Nat) (s : State) : ((pilDriveF b p s).pil q).supplyDis = (s.pil q).supplyDis := by
  have m : ∀ (m : BitVec 2) (x : PilotPt), (pilMode m x).supplyDis = x.supplyDis := fun m x => by unfold pilMode; split <;> rfl
  unfold pilDriveF; dsimp only; split
  · rw [pil_updPil]; split
    · exact m _ _
    · rfl
  · rw [pilGo_dis, pil_updPil]; split
    · exact m _ _
    · rfl

theorem driveF_rail (b : Bool) (p : Nat) (s : State) : (pilDriveF b p s).pilotRail = s.pilotRail := by
  unfold pilDriveF; dsimp only; split
  · rfl
  · rw [pilGo_rail]; rfl

theorem pilCause_dis (p q : Nat) (s : State) : ((setCause p .pilot s).pil q).supplyDis = (s.pil q).supplyDis ∧ (setCause p .pilot s).pilotRail = s.pilotRail := by
  unfold setCause; split
  · exact ⟨rfl, rfl⟩
  · rename_i hh
    dsimp only
    have hn : ∀ (d : Word) (t : State), (note 1 p d t).pil q = t.pil q ∧ (note 1 p d t).pilotRail = t.pilotRail := fun d t => by simp [State.pil, State.pilotRail]
    generalize hu : note 1 p _ _ = u
    have hb : (u.bp p).hold.getLsbD 0 = true := by
      rw [← hu]; simp [State.bp, putBit, HoldCause.bit]
    have hd : (u.pil q).supplyDis = (s.pil q).supplyDis ∧ u.pilotRail = s.pilotRail := by
      rw [← hu, (hn _ _).1, (hn _ _).2]; exact ⟨rfl, rfl⟩
    unfold syncPoint
    dsimp only
    generalize hv : syncOut _ (syncOut _ u) = v
    have hw : v.wantPilot p = true := by
      have : v.bridle = u.bridle := by rw [← hv]; simp [syncOut_bridle']
      unfold State.wantPilot State.bp
      rw [this]
      have : holdsPilot (u.bridle.pts.get p).hold = true := by
        unfold holdsPilot
        rw [decide_eq_true_eq]
        intro e
        have := congrArg (fun b : BitVec 8 => b.getLsbD 0) e
        simp [State.bp] at hb
        simp [hb] at this
      rw [this]; rfl
    have hx : (v.pil q).supplyDis = (s.pil q).supplyDis ∧ v.pilotRail = s.pilotRail := by
      rw [← hv, syncOut_pil, syncOut_pil]
      exact ⟨hd.1, by simp only [State.pilotRail, syncOut_same]; exact hd.2⟩
    unfold syncPilot
    simp only [hw, Bool.true_and, Bool.not_true, Bool.false_and, Bool.false_eq_true, if_false]
    (repeat' split)
    · exact hx
    · rw [driveF_dis, driveF_rail]; exact hx
    · exact hx

theorem pilotFaultFrame_dis (p q : Nat) (s : State) : ((pilotFaultFrame p s).pil q).supplyDis = (s.pil q).supplyDis ∧ (pilotFaultFrame p s).pilotRail = s.pilotRail := by
  unfold pilotFaultFrame; split
  · exact ⟨rfl, rfl⟩
  · exact pilCause_dis p q _

theorem pilotSupplyTrip_all (neg : Bool) (s : State) (h : (if neg then s.power.vpiln else s.power.vpilp) = false) :
    State.pilotRail (if (if neg then s.power.vpiln else s.power.vpilp) then s else pilotSupplyTrip neg s) = false ∧ ∀ p, p < 64 → ((if (if neg then s.power.vpiln else s.power.vpilp) then s else pilotSupplyTrip neg s).pil p).supplyDis = true := by
  simp only [h, Bool.false_eq_true, if_false, pilotSupplyTrip]
  generalize hu : laneRaise 280 _ = u
  have key : u.pilotRail = false ∧ ∀ p, p < 64 → (u.pil p).supplyDis = true := by
    rw [← hu]
    constructor
    · have : ∀ t : State, (laneRaise 280 t).pilotRail = t.pilotRail := fun t => by simp [State.pilotRail]
      rw [this]
      refine foldl_keep _ (fun s => s.pilotRail = false) (fun a t h => by rw [supplyFault_rail]; exact h) _ _ ?_
      cases neg <;> simp [State.pilotRail]
    · intro p hp
      rw [laneRaise_pil]
      refine foldl_each _ (fun p (s : State) => (s.pil p).supplyDis = true) ?_ ?_ (List.range 64) _ p (by simp [hp])
      · intro a b t h; rcases supplyFault_dis a b t with h' | h'
        · exact h'
        · rw [h'.2]; exact h
      · intro a t; rcases supplyFault_dis a a t with h' | h'
        · exact h'
        · exact absurd rfl h'.1
  split
  · exact foldl_keep (fun t p => pilotFaultFrame p t) (fun t : State => t.pilotRail = false ∧ ∀ p, p < 64 → (t.pil p).supplyDis = true)
      (fun a t h => ⟨by rw [(pilotFaultFrame_dis a 0 t).2]; exact h.1, fun p hp => by rw [(pilotFaultFrame_dis a p t).1]; exact h.2 p hp⟩) _ _ key
  · exact key

theorem toX1_other (p q : Nat) (s : State) (h : p ≠ q) : (pilToX1 p s).pil q = s.pil q := by
  have e : ∀ (i : Nat) (t : State), (pilEvt p i t).pil q = t.pil q := fun i t => by unfold pilEvt; rw [laneRaise_pil, pil_updPil, if_neg h]
  have g : ∀ (st : PilSt) (t : State), (pilGo p st t).pil q = t.pil q := by
    intro st t
    unfold pilGo; dsimp only; split
    · rfl
    · have e2 : ∀ (f : Bank Nat → Bank Nat) (t : State), State.pil { t with app.plc.toggles := f t.app.plc.toggles } q = t.pil q := fun f t => rfl
      split
      · rw [e2 (·.upd p (· + 1)), e, pil_updPil, if_neg h]; rfl
      · rw [e, pil_updPil, if_neg h]; rfl
  unfold pilToX1 pilStart
  rw [e, g, pil_updPil, if_neg h, pil_updPil, if_neg h]

theorem toX1_self (p : Nat) (s : State) : ((pilToX1 p s).pil p).supplyDis = false ∧ (pilToX1 p s).pilotRail = s.pilotRail := by
  unfold pilToX1 pilStart
  constructor
  · rw [pilEvt_dis, pilGo_dis, pil_updPil_same, pil_updPil_same]; rfl
  · rw [pilEvt_rail, pilGo_rail]; rfl

theorem pilEvt_fault (p i q : Nat) (s : State) : ((pilEvt p i s).pil q).supplyFault = (s.pil q).supplyFault := by
  unfold pilEvt; rw [laneRaise_pil, pil_updPil]; split <;> rfl

theorem toX1_fault (p : Nat) (s : State) : ((pilToX1 p s).pil p).supplyFault = false := by
  have g : ∀ (st : PilSt) (t : State), ((pilGo p st t).pil p).supplyFault = (t.pil p).supplyFault := by
    intro st t
    unfold pilGo; dsimp only; split
    · rfl
    · have e2 : ∀ (f : Bank Nat → Bank Nat) (t : State), State.pil { t with app.plc.toggles := f t.app.plc.toggles } p = t.pil p := fun f t => rfl
      split
      · rw [e2 (·.upd p (· + 1)), pilEvt_fault, pil_updPil_same]; rfl
      · rw [pilEvt_fault, pil_updPil_same]; rfl
  unfold pilToX1 pilStart
  rw [pilEvt_fault, g, pil_updPil_same, pil_updPil_same]; rfl

theorem railBack_rail (p : Nat) (s : State) : (pilRailBack p s).pilotRail = s.pilotRail := by
  unfold pilRailBack; dsimp only; (repeat' split)
  · rfl
  · exact (toX1_self p s).2
  · rfl
  · rfl

theorem railBack_pil (p q : Nat) (s : State) : ((s.pil q).supplyFault = false → ((pilRailBack p s).pil q).supplyFault = false) ∧
    (((s.pil q).supplyDis = false ∨ (p = q ∧ s.pilotRail = true ∧ (s.pil q).supplyFault = false)) → ((pilRailBack p s).pil q).supplyDis = false) := by
  unfold pilRailBack; dsimp only
  by_cases e : p = q
  · subst e
    (repeat' split)
    · rename_i h; refine ⟨id, ?_⟩; rintro (h' | ⟨_, h', _⟩)
      · exact h'
      · simpa [h'] using h
    · exact ⟨fun _ => toX1_fault p s, fun _ => (toX1_self p s).1⟩
    · rename_i h1 h2 h3; refine ⟨id, ?_⟩; rintro (h' | ⟨_, _, h'⟩)
      · exact h'
      · rw [h'] at h2; cases h2
    · rw [pil_updPil_same]; exact ⟨id, fun _ => rfl⟩
  · (repeat' split)
    · exact ⟨id, fun h => h.elim id fun h => absurd h.1 e⟩
    · rw [toX1_other p q s e]; exact ⟨id, fun h => h.elim id fun h => absurd h.1 e⟩
    · exact ⟨id, fun h => h.elim id fun h => absurd h.1 e⟩
    · rw [pil_updPil, if_neg e]; exact ⟨id, fun h => h.elim id fun h => absurd h.1 e⟩

theorem railBack_flags (p : Nat) (s : State) : (pilRailBack p s).power.vpiln = s.power.vpiln ∧ (pilRailBack p s).power.vpilp = s.power.vpilp := by
  unfold pilRailBack; dsimp only; (repeat' split) <;> simp

theorem pilotSupplyRelease_all (neg : Bool) (s : State) :
    (if neg then (pilotSupplyRelease neg s).power.vpiln else (pilotSupplyRelease neg s).power.vpilp) = false ∧
    (if neg then (pilotSupplyRelease neg s).power.vpilp else (pilotSupplyRelease neg s).power.vpiln) = (if neg then s.power.vpilp else s.power.vpiln) ∧
    ((pilotSupplyRelease neg s).pilotRail = false → (pilotSupplyRelease neg s).power.pilots = s.power.pilots) ∧
    (∀ p, p < 64 → (pilotSupplyRelease neg s).pilotRail = true → (s.pil p).supplyFault = false → ((pilotSupplyRelease neg s).pil p).supplyDis = false) := by
  unfold pilotSupplyRelease
  dsimp only
  generalize hu : (if neg then { s with power.vpiln := false } else { s with power.vpilp := false } : State) = u
  have f : ∀ (l : List Nat) (t : State), (l.foldl (fun t p => pilRailBack p t) t).power.vpiln = t.power.vpiln ∧ (l.foldl (fun t p => pilRailBack p t) t).power.vpilp = t.power.vpilp ∧ (l.foldl (fun t p => pilRailBack p t) t).pilotRail = t.pilotRail ∧ (t.pilotRail = false → (l.foldl (fun t p => pilRailBack p t) t).power.pilots = t.power.pilots) := by
    intro l
    induction l with
    | nil => exact fun t => ⟨rfl, rfl, rfl, fun _ => rfl⟩
    | cons a r ih =>
      intro t
      simp only [List.foldl_cons]
      have := ih (pilRailBack a t)
      refine ⟨this.1.trans (railBack_flags a t).1, this.2.1.trans (railBack_flags a t).2, this.2.2.1.trans (railBack_rail a t), fun h => ?_⟩
      rw [this.2.2.2 (by rw [railBack_rail]; exact h)]
      unfold pilRailBack; rw [h]; rfl
  have hf := f (List.range 64) u
  refine ⟨?_, ?_, fun h => ?_, ?_⟩
  · rw [hf.1, hf.2.1, ← hu]; cases neg <;> rfl
  · rw [hf.1, hf.2.1, ← hu]; cases neg <;> rfl
  · rw [hf.2.2.1] at h; rw [hf.2.2.2 h, ← hu]; cases neg <;> rfl
  · intro p hp h1 h2
    rw [hf.2.2.1] at h1
    have h2' : (u.pil p).supplyFault = false := by rw [← hu]; cases neg <;> exact h2
    have keep := foldl_keep (fun t p => pilRailBack p t) (fun t : State => t.pilotRail = true ∧ (t.pil p).supplyFault = false)
      (fun a t h => ⟨by rw [railBack_rail]; exact h.1, (railBack_pil a p t).1 h.2⟩)
    have each : ∀ (l : List Nat) (t : State), t.pilotRail = true → (t.pil p).supplyFault = false → (p ∈ l ∨ (t.pil p).supplyDis = false) → ((l.foldl (fun t p => pilRailBack p t) t).pil p).supplyDis = false := by
      intro l
      induction l with
      | nil => intro t _ _ h; exact h.elim (fun h => by simp at h) id
      | cons a r ih =>
        intro t k1 k2 k3
        simp only [List.foldl_cons]
        refine ih _ (by rw [railBack_rail]; exact k1) ((railBack_pil a p t).1 k2) ?_
        by_cases e : a = p
        · exact Or.inr ((railBack_pil a p t).2 (Or.inr ⟨e, k1, k2⟩))
        · rcases k3 with k3 | k3
          · rcases List.mem_cons.mp k3 with k | k
            · exact absurd k.symm e
            · exact Or.inl k
          · exact Or.inr ((railBack_pil a p t).2 (Or.inl k3))
    exact each _ u h1 h2' (Or.inl (by simp [hp]))

theorem vdrvTrip_all (s : State) : (vdrvTrip s).power.vdrv = true ∧ ∀ m, m < 2 → (vdrvTrip s).power.lines.getLsbD m = false := by
  unfold vdrvTrip
  dsimp only
  simp only [laneRaise_same]
  constructor
  · refine foldl_keep _ (fun s => s.power.vdrv = true) ?_ _ _ ?_
    · intro a t h; split <;> simp [girthUnitOff, h]
    · refine foldl_keep _ (fun s => s.power.vdrv = true) ?_ _ _ rfl
      intro a t h; split
      · simp only [girthUnitOff, girthEnd_same]; unfold fieldOff; split
        · exact h
        · dsimp only; split <;> simp [State.updRd, xchEnd, State.used, h]
      · exact h
  · intro m hm
    refine foldl_each _ (fun m (s : State) => s.power.lines.getLsbD m = false) ?_ ?_ (List.range 2) _ m (by simp [hm])
    · intro a b t h; split
      · simp [girthUnitOff, putBit, h]
      · exact h
    · intro a t; split
      · rename_i h'; simp [girthUnitOff, putBit]
      · rename_i h'; simpa using h'

/-! ### PowerFailAndSealedSupply -/

theorem ppf_frame (m : Nat) (s : State) : (panelPowerFail m s).power.pfin = s.power.pfin ∧ (panelPowerFail m s).die.pf = s.die.pf ∧ (panelPowerFail m s).die.pfSaved = s.die.pfSaved := by
  unfold panelPowerFail; split
  · exact ⟨rfl, rfl, rfl⟩
  · simp [State.updPanel, clearUnderLedger]

theorem ppf_pfin (m : Nat) (s : State) : (panelPowerFail m s).power.pfin = s.power.pfin := (ppf_frame m s).1

theorem ppf_pf (m : Nat) (s : State) : (panelPowerFail m s).die.pf = s.die.pf := (ppf_frame m s).2.1

theorem ppf_saved (m : Nat) (s : State) : (panelPowerFail m s).die.pfSaved = s.die.pfSaved := (ppf_frame m s).2.2

theorem pes_pfin (m : Nat) (s : State) : (panelEnableSet m s).power.pfin = s.power.pfin := by
  unfold panelEnableSet; dsimp only; split <;> simp [State.updPanel, State.setSobj]

theorem pes_pf (m : Nat) (s : State) : (panelEnableSet m s).die.pf = s.die.pf := by
  unfold panelEnableSet; dsimp only; split <;> simp [State.updPanel, State.setSobj]

/-! ### ResetScopes -/

theorem hws_frame (s : State) : (holdWindowStart s).power = s.power ∧ (holdWindowStart s).die = s.die ∧ (holdWindowStart s).cold = s.cold ∧ (holdWindowStart s).trial = s.trial ∧ (holdWindowStart s).coldMr = s.coldMr ∧ (holdWindowStart s).app = s.app ∧ (holdWindowStart s).obj = s.obj := by
  unfold holdWindowStart; split <;> simp

theorem owl_frame (x : Nat) (s : State) : (outWaitLatch x s).die = s.die ∧ (outWaitLatch x s).cold = s.cold ∧ (outWaitLatch x s).trial = s.trial ∧ (outWaitLatch x s).coldMr = s.coldMr ∧ (outWaitLatch x s).obj = s.obj ∧ (outWaitLatch x s).app.clk = s.app.clk := by
  unfold outWaitLatch outLatch; split <;> simp

theorem owl_all (s : State) : (outWaitLatchAll s).die = s.die ∧ (outWaitLatchAll s).cold = s.cold ∧ (outWaitLatchAll s).trial = s.trial ∧ (outWaitLatchAll s).coldMr = s.coldMr ∧ (outWaitLatchAll s).obj = s.obj ∧ (outWaitLatchAll s).app.clk = s.app.clk := by
  unfold outWaitLatchAll
  generalize List.range 96 = l
  exact foldl_keep _ (fun t : State => t.die = s.die ∧ t.cold = s.cold ∧ t.trial = s.trial ∧ t.coldMr = s.coldMr ∧ t.obj = s.obj ∧ t.app.clk = s.app.clk) (fun a t h => by
    have := owl_frame a t
    exact ⟨this.1.trans h.1, this.2.1.trans h.2.1, this.2.2.1.trans h.2.2.1, this.2.2.2.1.trans h.2.2.2.1, this.2.2.2.2.1.trans h.2.2.2.2.1, this.2.2.2.2.2.trans h.2.2.2.2.2⟩) _ _ ⟨rfl, rfl, rfl, rfl, rfl, rfl⟩

theorem owl_on (s : State) (x : Nat) (h : outIsOn (s.out x) = true) : outIsOn ((outWaitLatchAll s).out x) = true := by
  unfold outWaitLatchAll
  generalize List.range 96 = l
  refine foldl_keep _ (fun t : State => outIsOn (t.out x) = true) (fun a t h => ?_) _ _ h
  unfold outWaitLatch; split
  · rename_i e
    simp only [outLatch, outEvt_out, outTo_out, out_updOut]
    by_cases e2 : a = x
    · subst e2; simp [outIsOn, e] at h
    · simp [e2, h]
  · exact h

theorem par_frame (s : State) : (powerAtReset s).die = s.die ∧ (powerAtReset s).cold = s.cold ∧ (powerAtReset s).trial = s.trial ∧ (powerAtReset s).coldMr = s.coldMr ∧ (powerAtReset s).obj = s.obj := by
  obtain ⟨h1, h2, h3, h4, h5, h6⟩ := owl_all s
  unfold powerAtReset; generalize outWaitLatchAll s = u at *; exact ⟨h1, h2, h3, h4, h5⟩

theorem par_on (s : State) (x : Nat) (h : outIsOn (s.out x) = true) : outIsOn ((powerAtReset s).out x) = true := by
  have := owl_on s x h
  unfold powerAtReset; generalize outWaitLatchAll s = u at *; unfold State.out at *; exact this

theorem appReset_done (b : Nat) (s : State) (h : s.cold.coldHeld = false) : AppReset b s (appReset b s) := by
  have h1 := hws_frame s
  have h2 := par_frame (holdWindowStart s)
  unfold appReset
  simp only [h, Bool.false_eq_true, if_false]
  have h3 := fun x => par_on (holdWindowStart s) x
  generalize powerAtReset (holdWindowStart s) = u at *
  generalize holdWindowStart s = w at *
  refine ⟨rfl, ?_, ?_, rfl, rfl, rfl, rfl, ?_, ?_, ?_, ?_⟩
  · simp only [h2.2.1, h1.2.2.1]
  · simp only [h2.2.1, h1.2.2.1, stick]
  · exact h2.1.trans h1.2.1
  · exact h2.2.2.1.trans h1.2.2.2.1
  · exact h2.2.2.2.1.trans h1.2.2.2.2.1
  · intro x hx ho
    have : outIsOn (w.out x) = true := by rw [out_congr h1.1]; exact ho
    exact h3 x this

theorem coldReset_done (b : Nat) (s : State) : ColdReset (if s.cold.coldHeld then putBit s.cold.cause b true else if !s.cold.started && s.cold.cause = 1 then 1 else putBit 0 b true) s (coldReset b s) := by
  have h2 := par_frame s
  unfold coldReset
  generalize powerAtReset s = u at *
  exact ⟨rfl, rfl, rfl, rfl, rfl, rfl, rfl, rfl, h2.1, h2.2.2.2.2⟩

theorem appReset_idle (b : Nat) (s : State) (h : s.cold.coldHeld = true) : appReset b s = s := by simp [appReset, h]

/-! ### WatchdogTrialAndSpread -/

theorem bootPort_frame (f : Nat) (s : State) : (bootPort f s).app.clk = s.app.clk ∧ (bootPort f s).cold = s.cold := by
  unfold bootPort enterOper; dsimp only; split <;> simp [State.updPort]

theorem pllBack_same (s : State) : (pllPRelock s).app.clk.pllP = false ∧ (pllPRelock s).app.clk.canRecessive = 0 ∧ (pllPRelock s).cold.grid = 0 := by
  unfold pllPRelock; dsimp only; split
  · simp [(bootPort_frame _ _).1, (bootPort_frame _ _).2]
  · exact ⟨rfl, rfl, rfl⟩

end Sys2Proof.Machine
end

