-- ==== Sys2Proof/Laws/IslandFacts.lean ====
section
/-!
SUPPORT. What operations of the links, the pilots, the earth-fault channels and the Bridle do, for the obligations about them.
-/
set_option Elab.async false
set_option linter.all false
namespace Sys2Proof.Machine

/-! ### SealedLinkMessages -/

theorem linkEnd_upd (d : Side) (f : LinkEnd → LinkEnd) (s : State) : (s.updLink d f).linkEnd d = f (s.linkEnd d) := by cases d <;> rfl

theorem linkCount_end (d : Side) (i k : Nat) (s : State) (e : Side) : (linkCount d i k s).linkEnd e = s.linkEnd e := by
  cases d <;> cases e <;> simp [linkCount, State.linkEnd]

theorem linkBeat_rx (d : Side) (s : State) : (linkBeat d s).app.link.rx = s.app.link.rx ∧ (linkBeat d s).app.link.rxNext = s.app.link.rxNext ∧ (linkBeat d s).app.sl = s.app.sl := by
  unfold linkBeat; split
  · exact ⟨rfl, rfl, rfl⟩
  · cases d <;> exact ⟨rfl, rfl, rfl⟩

theorem linkFlush_keep (d : Side) (n : Nat) (s : State) : ((linkFlush d n s).linkEnd d).acked = (s.linkEnd d).acked ∧ ((linkFlush d n s).linkEnd d).credit = (s.linkEnd d).credit ∧ ((linkFlush d n s).linkEnd d).key = (s.linkEnd d).key := by
  induction n generalizing s with
  | zero => exact ⟨rfl, rfl, rfl⟩
  | succ n ih =>
    simp only [linkFlush]; split
    · exact ⟨rfl, rfl, rfl⟩
    · split
      · rw [(ih _).1, (ih _).2.1, (ih _).2.2]; simp [linkCount_end, linkEnd_upd]
      · exact ⟨rfl, rfl, rfl⟩

theorem linkFlush_key (n : Nat) (s : State) : (linkFlush .sealed n s).die.link.key = s.die.link.key := (linkFlush_keep .sealed n s).2.2

theorem dieSend_key (c : Nat) (p : List Byte) (s : State) : (dieSend c p s).die.link.key = s.die.link.key := by
  unfold dieSend linkOffer; split
  · rfl
  · rw [linkFlush_key]; rfl

theorem panelTo_key (m : Nat) (st : PanelSt) (s : State) : (panelTo m st s).die.link.key = s.die.link.key := by
  have e : ∀ t : State, (displayCheck t).die.link.key = t.die.link.key := fun t => by simp
  unfold panelTo; rw [e]; unfold panelNotice
  exact (dieSend_key _ _ _).trans rfl

theorem panelStopped_key (m : Nat) (s : State) : (panelStopped m s).die.link.key = s.die.link.key := by
  unfold panelStopped; dsimp only; split
  · rw [panelTo_key]; simp
  · simp

theorem panelsLinked_key (s : State) : (panelsLinked s).die.link.key = s.die.link.key := by
  unfold panelsLinked
  exact foldl_keep _ (fun t : State => t.die.link.key = s.die.link.key) (fun a t h => by split; rw [panelStopped_key]; exact h; exact h) _ _ rfl

/-! ### SealedLinkPorts -/

theorem linkFlush_sl (n : Nat) (s : State) : (linkFlush .control n s).app.sl = s.app.sl := by
  induction n generalizing s with
  | zero => rfl
  | succ n ih =>
    simp only [linkFlush]; split
    · rfl
    · split
      · rw [ih]; simp [linkCount, State.updLink]
      · rfl

theorem linkOffer_sl (c : Nat) (k : Word) (p : List Byte) (s : State) : (linkOffer .control c k p s).app.sl = s.app.sl := by
  unfold linkOffer; split
  · rfl
  · rw [linkFlush_sl]; rfl

/-! ### SafetyLane -/

theorem pilDriveF_keep (b : Bool) (p : Nat) (s : State) : (pilDriveF b p s).power.safe = s.power.safe ∧ (pilDriveF b p s).power.hbRun = s.power.hbRun ∧ (∀ x, (pilDriveF b p s).out x = s.out x) := by
  unfold pilDriveF; dsimp only; split
  · exact ⟨rfl, rfl, fun x => rfl⟩
  · refine ⟨by simp, by simp, fun x => ?_⟩
    have h1 := (pilGo_same p .drivenF (s.updPil p fun q => { pilMode 3 q with modeCmd := 3, held := b, waking := false, pend := none, dutyAct := 0, clamped := false }))
    unfold State.out; simp

theorem safeReport_keep (s : State) : (safeReport s).power = { s.power with report := decide (s.bridle.st = .run), hbRun := 0 } := by
  simp [safeReport]

theorem safeReport_flag (s : State) : (safeReport s).power.safe = s.power.safe ∧ (safeReport s).power.hbRun = 0 := by
  rw [safeReport_keep]; exact ⟨rfl, rfl⟩

theorem safeReport_out (s : State) (x : Nat) : (safeReport s).out x = s.out x := by
  unfold State.out; rw [safeReport_keep]

theorem safeLatches_flag (s : State) : (safeLatches s).power.safe = true ∧ ∀ x, x < 96 → outIsOn ((safeLatches s).out x) = false := by
  unfold safeLatches
  dsimp only
  generalize List.range 64 = l
  refine foldl_keep _ (fun t : State => t.power.safe = true ∧ ∀ x, x < 96 → outIsOn (t.out x) = false) (fun a t h => ?_) _ _ ?_
  · have := pilDriveF_keep false a t
    exact ⟨this.1.trans h.1, fun x hx => by rw [this.2.2]; exact h.2 x hx⟩
  · refine ⟨by simp [psqSelfRelease], fun x hx => ?_⟩
    rw [girthWithdraw_out]
    unfold State.out psqSelfRelease
    split
    · rename_i h; simp [Bank.get_updRange, h, outSafe, outIsOn]
    · have : x - 64 < 32 := by omega
      simp [Bank.get_updRange, this, outSafe, outIsOn]

theorem safeEnter_flag (s : State) : (safeEnter s).power.safe = true ∧ (safeEnter s).power.hbRun = 0 ∧ ∀ x, x < 96 → outIsOn ((safeEnter s).out x) = false := by
  unfold safeEnter
  refine ⟨?_, ?_, fun x hx => ?_⟩
  · rw [(safeReport_flag _).1]; exact (safeLatches_flag s).1
  · exact (safeReport_flag _).2
  · rw [safeReport_out]; exact (safeLatches_flag s).2 x hx

theorem safeIfNot_flag (s : State) : (safeIfNot s).power.safe = true ∧ (safeIfNot s).power.hbRun = 0 := by
  unfold safeIfNot; split
  · rename_i h; exact ⟨h, rfl⟩
  · exact ⟨(safeEnter_flag s).1, (safeEnter_flag s).2.1⟩

theorem outHold_off (x : Nat) (s : State) : ((outHold x s).out x).bhold = true ∧ outIsOn ((outHold x s).out x) = false := by
  unfold outHold; dsimp only; split
  · rename_i h
    rw [out_updOut_same]; refine ⟨rfl, ?_⟩
    simp only [Bool.or_eq_true, decide_eq_true_eq] at h
    rcases h with h | h
    · unfold outIsOn; dsimp only; rw [h]; rfl
    · unfold outIsOn; dsimp only; rw [h]; rfl
  · simp only [outEvt_out, outTo_out, out_updOut, if_true]
    split <;> simp [outIsOn]

/-! ### PilotCommands -/

theorem pilEvt_app (p i : Nat) (s : State) : (pilEvt p i s).app.server = s.app.server ∧ (pilEvt p i s).app.plc = s.app.plc := by
  unfold pilEvt State.updPil; simp

theorem pilEvt_pil (p i q : Nat) (s : State) : (pilEvt p i s).pil q = if p = q then { s.pil q with evt := setEvt (s.pil q).evt i, evtLate := (s.pil q).evtLate || s.inReset } else s.pil q := by
  unfold pilEvt; rw [laneRaise_pil, pil_updPil]

theorem toggles_pil (f : Bank Nat → Bank Nat) (s : State) (q : Nat) : State.pil { s with app.plc.toggles := f s.app.plc.toggles } q = s.pil q := rfl

theorem pilGo_pil (p : Nat) (st : PilSt) (s : State) (q : Nat) (h : p ≠ q) : (pilGo p st s).pil q = s.pil q := by
  unfold pilGo; dsimp only
  (repeat' split)
  · rfl
  · rw [toggles_pil (·.upd p (· + 1)), pilEvt_pil, if_neg h, pil_updPil, if_neg h, countPt_pil]
  · rw [pilEvt_pil, if_neg h, pil_updPil, if_neg h, countPt_pil]
/-- Of the point whose STATE changes, STATE, the time stamp, the count and the event bits may change. -/

theorem pilGo_self (p : Nat) (st : PilSt) (s : State) : ∃ a b c d e, (pilGo p st s).pil p = { s.pil p with st := a, ts := b, changes := c, evt := d, evtLate := e } ∧ a = st := by
  unfold pilGo; dsimp only
  (repeat' split)
  · rename_i h; exact ⟨_, _, _, _, _, rfl, h⟩
  · rw [toggles_pil (·.upd p (· + 1)), pilEvt_pil, if_pos rfl, pil_updPil, if_pos rfl, countPt_pil]; exact ⟨_, _, _, _, _, rfl, rfl⟩
  · rw [pilEvt_pil, if_pos rfl, pil_updPil, if_pos rfl, countPt_pil]; exact ⟨_, _, _, _, _, rfl, rfl⟩

theorem pilGo_st (p : Nat) (st : PilSt) (s : State) : ((pilGo p st s).pil p).st = st ∧ ((pilGo p st s).pil p).modeAct = (s.pil p).modeAct ∧ ((pilGo p st s).pil p).dutyAct = (s.pil p).dutyAct := by
  obtain ⟨a, b, c, d, e, h, rfl⟩ := pilGo_self p st s
  rw [h]; exact ⟨rfl, rfl, rfl⟩

theorem modeAct_pilMode (m : BitVec 2) (q : PilotPt) : (pilMode m q).modeAct = m ∧ (pilMode m q).modeCmd = q.modeCmd ∧ (pilMode m q).pend = q.pend := by
  unfold pilMode; split
  · rename_i h; exact ⟨h, rfl, rfl⟩
  · exact ⟨rfl, rfl, rfl⟩

theorem pilGo_keep (p : Nat) (st : PilSt) (s : State) : ((pilGo p st s).pil p).modeAct = (s.pil p).modeAct ∧ ((pilGo p st s).pil p).modeCmd = (s.pil p).modeCmd ∧ ((pilGo p st s).pil p).pend = (s.pil p).pend := by
  obtain ⟨a, b, c, d, e, h, _⟩ := pilGo_self p st s
  rw [h]; exact ⟨rfl, rfl, rfl⟩

theorem pilStart_keep (p : Nat) (s : State) : ((pilStart p s).pil p).modeAct = (s.pil p).modeAct ∧ ((pilStart p s).pil p).modeCmd = (s.pil p).modeCmd ∧ ((pilStart p s).pil p).pend = (s.pil p).pend := by
  unfold pilStart
  rw [(pilGo_keep _ _ _).1, (pilGo_keep _ _ _).2.1, (pilGo_keep _ _ _).2.2, pil_updPil_same]; exact ⟨rfl, rfl, rfl⟩

theorem pilStart_pil (p : Nat) (s : State) (q : Nat) (h : p ≠ q) : (pilStart p s).pil q = s.pil q := by
  unfold pilStart; rw [pilGo_pil _ _ _ _ h, pil_updPil, if_neg h]

theorem afterMode_keep (p : Nat) (s : State) : ((pilAfterMode p s).pil p).modeAct = (s.pil p).modeAct ∧ ((pilAfterMode p s).pil p).modeCmd = (s.pil p).modeCmd ∧ ((pilAfterMode p s).pil p).pend = (s.pil p).pend ∧ (pilAfterMode p s).power.safe = s.power.safe ∧ (∀ q, p ≠ q → (pilAfterMode p s).pil q = s.pil q) := by
  unfold pilAfterMode; dsimp only
  have k := fun st => pilGo_keep p st s
  have b := pilStart_keep p s
  (repeat' split)
  · exact ⟨rfl, rfl, rfl, rfl, fun q _ => rfl⟩
  · exact ⟨(k _).1, (k _).2.1, (k _).2.2, by simp, fun q h => pilGo_pil p _ s q h⟩
  · exact ⟨(k _).1, (k _).2.1, (k _).2.2, by simp, fun q h => pilGo_pil p _ s q h⟩
  · exact ⟨b.1, b.2.1, b.2.2, by simp [pilStart], fun q h => pilStart_pil p s q h⟩
  · exact ⟨rfl, rfl, rfl, rfl, fun q _ => rfl⟩

theorem updAfter (p : Nat) (f : PilotPt → PilotPt) (s : State) : (pilAfterMode p (s.updPil p f)).power.safe = s.power.safe ∧ (∀ q, p ≠ q → (pilAfterMode p (s.updPil p f)).pil q = s.pil q) :=
  ⟨(afterMode_keep _ _).2.2.2.1, fun q h => by rw [(afterMode_keep _ _).2.2.2.2 q h, pil_updPil, if_neg h]⟩

def pilTaken (q : PilotPt) : PilotPt :=
  match q.pend with
  | none => q
  | some (m, d) => { q with modeCmd := m, dutyCmd := d, pend := none }

theorem pilPeriod_eq (p : Nat) (s : State) : pilPeriod p s =
    if (s.pil p).held || s.power.safe || (s.pil p).supplyDis then s
    else if !s.pilotUsed p then pilNone p s
    else if (pilTaken (s.pil p)).waking then s.updPil p fun _ => pilTaken (s.pil p)
    else if (s.pil p).pend.isNone && (pilTaken (s.pil p)).modeCmd ≠ 2 then s
    else pilAfterMode p (s.updPil p fun _ =>
      { pilMode (pilClamp (pilTaken (s.pil p))).1 (pilTaken (s.pil p)) with
        dutyAct := if (pilClamp (pilTaken (s.pil p))).1 = 2 then (pilClamp (pilTaken (s.pil p))).2.1 else 0,
        clamped := (pilClamp (pilTaken (s.pil p))).2.2 }) := rfl

theorem afterMode_fixed (p : Nat) (s : State) : (pilAfterMode p s).obj = s.obj ∧ (pilAfterMode p s).fuses = s.fuses := by
  unfold pilAfterMode pilStart; dsimp only
  (repeat' split) <;> simp
/-- What a period start leaves, of one point: the pilots of the others, the safe state, the stored objects and the fuses. -/

theorem period_safe (a : Nat) (s : State) : (pilPeriod a s).power.safe = s.power.safe ∧ (∀ q, a ≠ q → (pilPeriod a s).pil q = s.pil q) ∧
    (pilPeriod a s).obj = s.obj ∧ (pilPeriod a s).fuses = s.fuses := by
  have k : ∀ f, (pilAfterMode a (s.updPil a f)).power.safe = s.power.safe ∧ (∀ q, a ≠ q → (pilAfterMode a (s.updPil a f)).pil q = s.pil q) ∧
      (pilAfterMode a (s.updPil a f)).obj = s.obj ∧ (pilAfterMode a (s.updPil a f)).fuses = s.fuses := fun f =>
    ⟨(updAfter a f s).1, (updAfter a f s).2, (afterMode_fixed _ _).1, (afterMode_fixed _ _).2⟩
  rw [pilPeriod_eq]
  split
  · exact ⟨rfl, fun q _ => rfl, rfl, rfl⟩
  · split
    · unfold pilNone; dsimp only; split
      · exact ⟨rfl, fun q _ => rfl, rfl, rfl⟩
      · exact k _
    · generalize pilTaken (s.pil a) = w
      split
      · exact ⟨rfl, fun q h => by rw [pil_updPil, if_neg h], rfl, rfl⟩
      · split
        · exact ⟨rfl, fun q _ => rfl, rfl, rfl⟩
        · exact k _

theorem period_self (a : Nat) (s : State) (hs : s.power.safe = false) (hu : s.pilotUsed a = true) (h1 : (s.pil a).held = false) (h2 : (s.pil a).supplyDis = false) (h3 : (s.pil a).waking = false) (h4 : (s.pil a).pend = some (1, 0)) :
    ((pilPeriod a s).pil a).modeAct = 1 ∧ ((pilPeriod a s).pil a).modeCmd = 1 ∧ ((pilPeriod a s).pil a).pend = none := by
  unfold pilPeriod
  simp only [hs, hu, h1, h2, h3, h4, Bool.or_self, Bool.not_true, Bool.false_eq_true, if_false, Option.isNone_some, Bool.false_and]
  rw [(afterMode_keep _ _).1, (afterMode_keep _ _).2.1, (afterMode_keep _ _).2.2.1, pil_updPil_same]
  have := modeAct_pilMode 1#2
  simp [pilClamp, this]

theorem used_congr {s t : State} (h : t.obj = s.obj) (h' : t.fuses = s.fuses) (q : Nat) : t.pilotUsed q = s.pilotUsed q := by
  have e : t.typeNow q = s.typeNow q := by unfold State.typeNow State.pointAbsent State.pointType; rw [h, h']
  unfold State.pilotUsed; rw [e]

theorem period_used (a : Nat) (s : State) (q : Nat) : (pilPeriod a s).pilotUsed q = s.pilotUsed q :=
  used_congr (period_safe a s).2.2.1 (period_safe a s).2.2.2 q

theorem cfgWrite_facts (p : Nat) (v : Word) (s : State) : (pilCfgWrite p v s).power.safe = s.power.safe ∧
    (∀ q, p ≠ q → (pilCfgWrite p v s).pil q = s.pil q) ∧ (pilCfgWrite p v s).obj = s.obj ∧ (pilCfgWrite p v s).fuses = s.fuses := by
  unfold pilCfgWrite; dsimp only
  generalize (if fld v 0 2 = 3 then pilForm (s.pil p) else fld v 0 2) = w
  split
  · exact ⟨rfl, fun q h => by rw [pil_updPil, if_neg h], rfl, rfl⟩
  · exact ⟨by simp, fun q h => by rw [pilEvt_pil, if_neg h, pil_updPil, if_neg h], by simp, by simp⟩

theorem takes_facts (a : Nat) (s : State) : (pilDueTakes a s).power.safe = s.power.safe ∧ (∀ q, a ≠ q → (pilDueTakes a s).pil q = s.pil q) ∧
    (∀ q, (pilDueTakes a s).pilotUsed q = s.pilotUsed q) ∧ ((s.pil a).modeAct ≠ 0 → (pilDueTakes a s).pil a = s.pil a) := by
  unfold pilDueTakes; split
  · unfold pilTakes; dsimp only; split
    · exact ⟨rfl, fun q _ => rfl, fun q => used_congr rfl rfl q, fun _ => rfl⟩
    · rename_i h
      have k := fun v => cfgWrite_facts a v { s with app.server.pilDue := putBit s.app.server.pilDue a false }
      exact ⟨(k _).1, fun q h => ((k _).2.1 q h).trans rfl, fun q => used_congr (k _).2.2.1 (k _).2.2.2 q, fun h' => absurd (by rw [decide_eq_true h']; rfl) h⟩
  · exact ⟨rfl, fun q _ => rfl, fun q => rfl, fun _ => rfl⟩

def periodStep (t : State) (p : Nat) : State := pilDueTakes p (pilPeriod p t)

theorem period_x1 (s : State) (hs : s.power.safe = false) (p : Nat) (hp : p < 64) (hu : s.pilotUsed p = true) (h1 : (s.pil p).held = false) (h2 : (s.pil p).supplyDis = false) (h3 : (s.pil p).waking = false) (h4 : (s.pil p).pend = some (1, 0)) :
    let t := (List.range 64).foldl periodStep s
    (t.pil p).modeAct = 1 ∧ (t.pil p).modeCmd = 1 ∧ (t.pil p).pend = none := by
  have other : ∀ (b : Nat) (u : State) (q : Nat), b ≠ q → (periodStep u b).pil q = u.pil q := fun b u q h => by
    unfold periodStep; rw [(takes_facts _ _).2.1 q h]; exact (period_safe b u).2.1 q h
  have key : ∀ (l : List Nat) (s : State), l.Nodup → p ∈ l → s.power.safe = false → s.pilotUsed p = true → (s.pil p).held = false → (s.pil p).supplyDis = false → (s.pil p).waking = false → (s.pil p).pend = some (1, 0) → let t := l.foldl periodStep s
    (t.pil p).modeAct = 1 ∧ (t.pil p).modeCmd = 1 ∧ (t.pil p).pend = none := by
    intro l
    induction l with
    | nil => intro s _ h; simp at h
    | cons a l ih =>
      intro s hn hm hs hu h1 h2 h3 h4
      simp only [List.foldl_cons]
      rw [List.nodup_cons] at hn
      by_cases e : a = p
      · subst e
        have hself := period_self a s hs hu h1 h2 h3 h4
        have hs2 : ((periodStep s a).pil a) = (pilPeriod a s).pil a := by
          unfold periodStep; exact (takes_facts _ _).2.2.2 (by rw [hself.1]; decide)
        have rest : ∀ (l : List Nat) (u : State), a ∉ l → (l.foldl periodStep u).pil a = u.pil a := by
          intro l
          induction l with
          | nil => intros; rfl
          | cons b l ih => intro u hb; simp only [List.foldl_cons]; simp only [List.mem_cons, not_or] at hb; rw [ih _ hb.2]; exact other b u a (Ne.symm hb.1)
        rw [rest l _ hn.1, hs2]; exact hself
      · have hm' : p ∈ l := by simp only [List.mem_cons] at hm; rcases hm with h | h; exact absurd h.symm e; exact h
        have k := other a s p e
        have ks : (periodStep s a).power.safe = false := by unfold periodStep; rw [(takes_facts _ _).1, (period_safe a s).1]; exact hs
        have ku : (periodStep s a).pilotUsed p = true := by unfold periodStep; rw [(takes_facts _ _).2.2.1, period_used]; exact hu
        exact ih _ hn.2 hm' ks ku (by rw [k]; exact h1) (by rw [k]; exact h2) (by rw [k]; exact h3) (by rw [k]; exact h4)
  exact key _ s List.nodup_range (by simp [hp]) hs hu h1 h2 h3 h4

/-! ### PilotFaultsAndProximity -/

theorem updPil_same_bridle (s : State) (p : Nat) (f : PilotPt → PilotPt) : (s.updPil p f).bridle = s.bridle := rfl

theorem pilFault_st (p : Nat) (st : PilSt) (e : Nat) (c : BitVec 3) (s : State) : ((pilFault p st e c s).pil p).st = st := by
  unfold pilFault; dsimp only
  generalize State.updPil _ _ _ = u
  rw [pilEvt_pil, if_pos rfl]; exact (pilGo_st p st u).1

/-! ### EarthSupervision -/

theorem rcEvt_rc (n i : Nat) (s : State) (m : Nat) : (rcEvt n i s).power.rc.get m = if n = m then { s.power.rc.get m with evt := if bit (s.power.rc.get n).evt i then (s.power.rc.get m).evt else setEvt (s.power.rc.get m).evt i } else s.power.rc.get m := by
  unfold rcEvt; split
  · rename_i h; split
    · rename_i e; subst e; rfl
    · rfl
  · simp only [laneRaise_same, updRc_get]

theorem imEvt_im (n i : Nat) (s : State) (m : Nat) : (imEvt n i s).power.im.get m = if n = m then { s.power.im.get m with evt := if bit (s.power.im.get n).evt i then (s.power.im.get m).evt else setEvt (s.power.im.get m).evt i } else s.power.im.get m := by
  unfold imEvt; split
  · rename_i h; split
    · rename_i e; subst e; rfl
    · rfl
  · simp only [laneRaise_same, updIm_get]

theorem imStart_im (k : Nat) (st : ImSt) (s : State) (m : Nat) : (imStart k st s).power.im.get m = if k = m then { s.power.im.get m with st := st, plat := none, results := [] } else s.power.im.get m := by
  simp only [imStart, updIm_get]

/-! ### BridleFaultsAndStart -/

theorem reclaimTake_eq (hi : Bool) (v : Word) (s : State) : ∃ x, reclaimTake hi v s = { s with bridle.pts := x } := by
  unfold reclaimTake; split
  · exact ⟨_, rfl⟩
  · rename_i run
    clear run
    dsimp only
    generalize (if hi then 32 else 0) = o
    generalize bitsOf v = l
    induction l generalizing s with
    | nil => exact ⟨_, rfl⟩
    | cons a r ih =>
      simp only [List.foldl_cons]
      obtain ⟨x, e⟩ := ih (if (s.bridle.window && (s.bp (o + a)).active && decide ((s.bp (o + a)).shut = 0)) = true then
        s.updBp (o + a) fun b => { b with reclaimed := true } else s)
      rw [e]; split <;> exact ⟨_, rfl⟩

theorem reclaimFront_eq (l : List BrMsg) (s : State) : ∃ x y, reclaimFront l s = { s with bridle.pts := x, bridle.fifo := y } := by
  induction l generalizing s with
  | nil => exact ⟨_, _, rfl⟩
  | cons m r ih =>
    cases m with
    | post => exact ⟨_, _, rfl⟩
    | reclaim hi v =>
      obtain ⟨x, e⟩ := reclaimTake_eq hi v s
      obtain ⟨x2, y2, e2⟩ := ih (reclaimTake hi v s)
      exact ⟨x2, y2, by unfold reclaimFront; rw [e2, e]⟩
/-- Taking waiting reclaims changes the points of the Bridle and its FIFO only. -/

theorem takeReclaims_eq (s : State) : ∃ x y, takeReclaims s = { s with bridle.pts := x, bridle.fifo := y } := by
  unfold takeReclaims; split
  · exact ⟨_, _, rfl⟩
  · exact reclaimFront_eq _ _

theorem fault_facts (k : Nat) (s : State) (h : s.bridle.st ≠ .load ∧ s.bridle.st ≠ .safe ∧ s.bridle.inReset = false) :
    (bridleFault k s).bridle.cause = k ∧ (bridleFault k s).bridle.safeNLow = true ∧ (bridleFault k s).bridle.hbOn = false ∧ (bridleFault k s).bridle.fifo = [] ∧ (bridleFault k s).bridle.st = (if s.bridle.restarts + 1 ≤ 3 then .verify else .safe) ∧ (bridleFault k s).power = { s.power with report := false } := by
  simp [bridleFault, h]

theorem devBegin_keep (d : Nat) (s : State) : (devBegin d s).bridle.st = s.bridle.st ∧ (devBegin d s).bridle.hbOn = s.bridle.hbOn ∧ (devBegin d s).bridle.unsealed = s.bridle.unsealed ∧ (devBegin d s).bridle.cfg = s.bridle.cfg := by
  unfold devBegin; dsimp only; split <;> simp [State.updDev]

theorem run_facts (c : SafCfg) (u : Bool) (k : Nat) (s : State) : (bridleRun c u k s).bridle.st = .run ∧ (bridleRun c u k s).bridle.hbOn = true ∧ (bridleRun c u k s).bridle.unsealed = u ∧ (bridleRun c u k s).bridle.cfg = some c := by
  unfold bridleRun; dsimp only
  simp only [bridleStatus_parts, evalGroups_parts]
  generalize List.range 8 = l
  exact foldl_keep _ (fun t : State => t.bridle.st = .run ∧ t.bridle.hbOn = true ∧ t.bridle.unsealed = u ∧ t.bridle.cfg = some c) (fun a t h => by
    have k := devBegin_keep a t
    exact ⟨k.1.trans h.1, k.2.1.trans h.2.1, k.2.2.1.trans h.2.2.1, k.2.2.2.trans h.2.2.2⟩) _ _ ⟨rfl, rfl, rfl, rfl⟩

theorem holds_setCause (p : Nat) (c : HoldCause) (s : State) (q : Nat) (d : HoldCause) (h : s.holds q d = true) : (setCause p c s).holds q d = true := by
  unfold State.holds at *
  rw [setCause_hold]; split
  · rename_i e; subst e; dsimp only; split
    · exact h
    · by_cases e : c = d
      · subst e; cases c <;> simp [putBit, HoldCause.bit]
      · cases c <;> cases d <;> simp_all [putBit, HoldCause.bit]
  · exact h

theorem bs_ptCfg (s : State) (p : Nat) : (bridleStatus s).ptCfg p = s.ptCfg p := by simp [State.ptCfg]

theorem bs_holds (s : State) (p : Nat) (c : HoldCause) : (bridleStatus s).holds p c = s.holds p c := by simp [State.holds, State.bp]

theorem restart_facts (l : List Nat) (s t : State) (ht : t = l.foldl (fun t p => if (t.ptCfg p).coil = 0xFF then t else setCause p .restart t) s) :
    t.bridle.st = s.bridle.st ∧ t.bridle.hbOn = s.bridle.hbOn ∧ t.bridle.cfg = s.bridle.cfg ∧ ∀ p, p ∈ l → (t.ptCfg p).coil ≠ 0xFF → t.holds p .restart = true := by
  subst ht
  refine ⟨?_, ?_, ?_, ?_⟩
  · exact foldl_fix (fun t : State => t.bridle.st) _ (fun t a => by split <;> simp) _ _
  · exact foldl_fix (fun t : State => t.bridle.hbOn) _ (fun t a => by split <;> simp) _ _
  · exact foldl_fix (fun t : State => t.bridle.cfg) _ (fun t a => by split <;> simp) _ _
  · intro p hp
    refine foldl_each _ (fun p (t : State) => (t.ptCfg p).coil ≠ 0xFF → t.holds p .restart = true) ?_ ?_ l s p hp
    · intro a b t h; split
      · exact h
      · intro h2; apply holds_setCause; apply h
        have e : (setCause a .restart t).ptCfg b = t.ptCfg b := by simp [State.ptCfg]
        rw [e] at h2; exact h2
    · intro a t h; split
      · rename_i e; simp only [e, if_true] at h; exact absurd rfl h
      · exact setCause_holds _ _ _

theorem begin_facts (l : List Nat) (s : State) : (l.foldl (fun t d => devBegin d (devOff d t)) s).bridle.st = s.bridle.st ∧ (l.foldl (fun t d => devBegin d (devOff d t)) s).bridle.hbOn = s.bridle.hbOn := by
  refine ⟨foldl_fix (fun t : State => t.bridle.st) _ (fun t a => ?_) _ _, foldl_fix (fun t : State => t.bridle.hbOn) _ (fun t a => ?_) _ _⟩
  · rw [(devBegin_keep _ _).1]; unfold devOff stoSet; dsimp only; split <;> simp [State.updDev]
  · rw [(devBegin_keep _ _).2.1]; unfold devOff stoSet; dsimp only; split <;> simp [State.updDev]

theorem shutStart_bp (p q : Nat) (s : State) : (shutdownStart p s).bp q = if p = q then { s.bp q with shut := 2, stopReq := true } else s.bp q := by
  unfold shutdownStart; dsimp only; split <;> simp [State.bp, note, State.updBp, State.updPil, Bank.get_upd]

theorem expiry_facts (l : List Nat) (s : State) (p : Nat) (hp : p ∈ l) : let t := l.foldl (fun t p => shutdownStart p t) s
    (t.bp p).shut = 2 ∧ (t.bp p).stopReq = true := by
  refine foldl_each _ (fun p (t : State) => (t.bp p).shut = 2 ∧ (t.bp p).stopReq = true) ?_ ?_ l s p hp
  · intro a b t h; simp only [shutStart_bp]; split
    · exact ⟨rfl, rfl⟩
    · exact h
  · intro a t; simp only [shutStart_bp, if_true]; exact ⟨trivial, trivial⟩

theorem shut_window (p : Nat) (s : State) : (shutdownStart p s).bridle.window = s.bridle.window := by
  unfold shutdownStart; dsimp only; split <;> simp [note, State.updBp]

theorem reclaim_facts (v : Word) (o : Nat) (s : State) (i : Nat) (hi : i < 32) (hv : v.getLsbD i = true) (hw : s.bridle.window = true) (ha : (s.bp (o + i)).active = true) (hs : (s.bp (o + i)).shut = 0) :
    (((bitsOf v).foldl (fun t i => if t.bridle.window && (t.bp (o + i)).active && (t.bp (o + i)).shut = 0 then t.updBp (o + i) fun b => { b with reclaimed := true } else t) s).bp (o + i)).reclaimed = true := by
  have key : ∀ (l : List Nat) (s : State), i ∈ l → s.bridle.window = true → (s.bp (o + i)).active = true → (s.bp (o + i)).shut = 0 → ((l.foldl (fun t i => if t.bridle.window && (t.bp (o + i)).active && (t.bp (o + i)).shut = 0 then t.updBp (o + i) fun b => { b with reclaimed := true } else t) s).bp (o + i)).reclaimed = true := by
    intro l s hm h1 h2 h3
    induction l generalizing s with
    | nil => simp at hm
    | cons a l ih =>
      simp only [List.foldl_cons]
      by_cases e : a = i
      · subst e
        simp only [h1, h2, h3, decide_true, Bool.and_self, if_true]
        exact foldl_keep _ (fun t : State => (t.bp (o + a)).reclaimed = true) (fun b t h => by
          split
          · simp only [State.bp, updBp_get]; split
            · rfl
            · exact h
          · exact h) _ _ (by simp [State.bp])
      · have hm2 : i ∈ l := by simp only [List.mem_cons] at hm; rcases hm with h | h; exact absurd h.symm e; exact h
        have k : ∀ u : State, u = s ∨ u = s.updBp (o + a) (fun b => { b with reclaimed := true }) → u.bridle.window = true ∧ (u.bp (o + i)).active = true ∧ (u.bp (o + i)).shut = 0 := by
          intro u hu; rcases hu with hu | hu
          · subst hu; exact ⟨h1, h2, h3⟩
          · subst hu; refine ⟨h1, ?_, ?_⟩ <;> simp only [State.bp, updBp_get] <;> split <;> assumption
        split
        · obtain ⟨k1, k2, k3⟩ := k _ (.inr rfl); exact ih _ hm2 k1 k2 k3
        · exact ih _ hm2 h1 h2 h3
  exact key _ s (by simp [bitsOf, hi, hv]) hw ha hs

/-! ### MirrorsAndSafetyInputs -/

theorem mirrorCheck_mirror (p : Nat) (s : State) (q : Nat) : ((mirrorCheck p s).bp q).mirror = (s.bp q).mirror := by
  unfold mirrorCheck
  split
  · rfl
  · split
    · split
      · simp only [State.bp, updBp_get]; split <;> rfl
      · split
        · rw [setCause_hold]; split <;> rfl
        · rfl
    · split
      · rw [setCause_hold]; split <;> rfl
      · rfl

theorem coilOn_updBp (s : State) (p q : Nat) (f : BrPt → BrPt) : (s.updBp q f).coilOn p = s.coilOn p := by
  rfl

theorem stuck_bp (s : State) (p q : Nat) : ((syncPoint p (note 9 p 0 (s.updBp p fun b => { b with switchFail := true }))).bp q) = if p = q then { s.bp q with switchFail := true } else s.bp q := by
  simp only [State.bp, syncPoint_same, note_parts, updBp_get]

theorem siReact_none (i : Nat) (w : Bool) (s : State) : (siReact i w none s).bridle.si = s.bridle.si ∧ (siReact i w none s).bridle.mirBad = s.bridle.mirBad := by
  unfold siReact; dsimp only; split <;> simp

theorem edgePair_ab (i j : Nat) (s : State) (a b : Bool) (h : (s.bridle.si.get j).a = a ∧ (s.bridle.si.get j).b = b) : ((edgePair i s).bridle.si.get j).a = a ∧ ((edgePair i s).bridle.si.get j).b = b := by
  unfold edgePair; dsimp only; split
  · split
    · simp only [Bank.get_set]; split
      · rename_i e; subst e; exact h
      · exact h
    · exact h
  · exact h

theorem edgeGroup_ab (g j : Nat) (s : State) (a b : Bool) (h : (s.bridle.si.get j).a = a ∧ (s.bridle.si.get j).b = b) : ((edgeGroup g s).bridle.si.get j).a = a ∧ ((edgeGroup g s).bridle.si.get j).b = b := by
  unfold edgeGroup; dsimp only
  refine foldl_keep _ (fun t : State => (t.bridle.si.get j).a = a ∧ (t.bridle.si.get j).b = b) (fun x t h => by simpa using h) _ _ ?_
  refine foldl_keep _ (fun t : State => (t.bridle.si.get j).a = a ∧ (t.bridle.si.get j).b = b) (fun x t h => by simpa using h) _ _ ?_
  split <;> exact foldl_keep _ (fun t : State => (t.bridle.si.get j).a = a ∧ (t.bridle.si.get j).b = b) (fun x t h => edgePair_ab _ _ _ _ _ h) _ _ h

theorem resetEdge_ab (g : BitVec 16) (d : BitVec 8) (u j : Nat) (s : State) (a b : Bool) (h : (s.bridle.si.get j).a = a ∧ (s.bridle.si.get j).b = b) : ((resetEdge g d u s).bridle.si.get j).a = a ∧ ((resetEdge g d u s).bridle.si.get j).b = b := by
  unfold resetEdge; dsimp only
  simp only [evalGroups_parts]
  refine foldl_keep _ (fun t : State => (t.bridle.si.get j).a = a ∧ (t.bridle.si.get j).b = b) (fun x t h => by simpa using h) _ _ ?_
  refine foldl_keep _ (fun t : State => (t.bridle.si.get j).a = a ∧ (t.bridle.si.get j).b = b) (fun x t h => edgeGroup_ab _ _ _ _ _ h) _ _ ?_
  simpa [note] using h

theorem siReact_ab (i : Nat) (w : Bool) (c : Option Nat) (s : State) (j : Nat) (a b : Bool) (h : (s.bridle.si.get j).a = a ∧ (s.bridle.si.get j).b = b) : ((siReact i w c s).bridle.si.get j).a = a ∧ ((siReact i w c s).bridle.si.get j).b = b := by
  unfold siReact; dsimp only
  split
  · simpa using h
  · split
    · split
      · exact resetEdge_ab _ _ _ _ _ _ _ h
      · exact h
    · exact h
  · simpa using h
  · simpa using h
  · exact h

theorem mirChange_mir (p : Nat) (s : State) (b : Bool) (q : Nat) : ((mirrorCheck p s).bridle.mirBad) = s.bridle.mirBad := by simp

/-! ### DevicesAndTorque -/

theorem devGo_dev (d : Nat) (st : DevSt) (s : State) (e : Nat) : (devGo d st s).device e = if d = e then { s.device e with st := st } else s.device e := by
  unfold devGo
  split
  · rename_i h; split
    · rename_i h2; subst h2; rw [← h]
    · rfl
  · simp only [State.device, syncDevice_parts, note_parts, updDev_get]

theorem stoSet_device (n : Nat) (b : Bool) (s : State) (e : Nat) : (stoSet n b s).device e = s.device e := by simp [State.device]

theorem devOff_dev (d : Nat) (s : State) (e : Nat) : (devOff d s).device e = if d = e then { s.device e with permit := false } else s.device e := by
  unfold devOff; rw [stoSet_device]; simp [State.device]

theorem devFault_dev (d c : Nat) (s : State) (e : Nat) : (devFault d c s).device e = if d = e then { s.device e with st := .fault, fcause := c, permit := false } else s.device e := by
  unfold devFault; rw [devGo_dev, devOff_dev]; split <;> simp_all [State.device]

theorem devInputs_pos (d : Nat) (s : State) : ((devInputs d s).device d).pos = (s.device d).pos ∧ ((devInputs d s).device d).speed = (s.device d).speed := by
  unfold devInputs
  (repeat' split) <;> simp [devGo_dev, devOff_dev, devFault_dev]

theorem judge_keep (d : Nat) (s : State) : ((motionJudge d s).device d).pos = (s.device d).pos ∧ ((motionJudge d s).device d).speed = (s.device d).speed := by
  unfold motionJudge
  dsimp only
  (repeat' split) <;> simp [devFault_dev, (devInputs_pos _ _).1, (devInputs_pos _ _).2]

theorem sample_dev (d : Nat) (m : MotionSample) (s : State) : let v := (motionSample d m s).device d
    v.pos = encPos (s.encCfg (s.devCfg d).enc) m.count (toInt 32 (s.freeBits 32).toNat) ∧
    v.speed = encSpeed (s.encCfg (s.devCfg d).enc) m.count (s.device d).counts (toInt 32 (s.freeBits 32).toNat) ∧
    v.encBad = (m.illegal || zOff (s.encCfg (s.devCfg d).enc) m.z) := by
  have e : ∀ f : Device → Device, ((s.updDev d f).used).device d = f (s.device d) := fun f => by simp [State.device, State.used]
  unfold motionSample; dsimp only; rw [e]; exact ⟨rfl, rfl, rfl⟩

theorem stoFault_bit (n : Nat) (hn : n < 8) (s : State) : (stoFault n s).bridle.stoFault.getLsbD n = true := by
  unfold stoFault; split
  · rename_i h; simpa using h
  · simp [note, putBit, hn]

theorem acceptPair_rx (i : Nat) (c : BitVec 8) (d : Word) (s : State) : ((acceptPair i c d s).bridle.rx.get i).last = c ∧ ((acceptPair i c d s).bridle.rx.get i).valid = true ∧ ((acceptPair i c d s).bridle.rx.get i).d = d := by
  unfold acceptPair; dsimp only
  split
  · split <;> simp
  · simp

/-! ### BridleMessages -/

theorem reclaimTake_bp (hi : Bool) (v : Word) (s : State) : ∃ x, reclaimTake hi v s = { s with bridle.pts := x } ∧ ∀ q, ∃ b, x.get q = { s.bp q with reclaimed := b } := by
  unfold reclaimTake; split
  · exact ⟨_, rfl, fun q => ⟨_, rfl⟩⟩
  · rename_i run
    clear run
    dsimp only
    generalize (if hi then 32 else 0) = o
    generalize bitsOf v = l
    induction l generalizing s with
    | nil => exact ⟨_, rfl, fun q => ⟨_, rfl⟩⟩
    | cons a r ih =>
      simp only [List.foldl_cons]
      obtain ⟨x, e, hq⟩ := ih (if (s.bridle.window && (s.bp (o + a)).active && decide ((s.bp (o + a)).shut = 0)) = true then
        s.updBp (o + a) fun b => { b with reclaimed := true } else s)
      rw [e]
      refine ⟨x, ?_, fun q => ?_⟩
      · split <;> rfl
      · obtain ⟨b, hb⟩ := hq q
        rw [hb]; split
        · by_cases e2 : o + a = q
          · refine ⟨b, ?_⟩; simp only [State.bp, updBp_get, e2, if_true]
          · refine ⟨b, ?_⟩; simp only [State.bp, updBp_get, e2, if_false]
        · exact ⟨b, rfl⟩

theorem reclaimFront_bp (l : List BrMsg) (s : State) : ∃ x y, reclaimFront l s = { s with bridle.pts := x, bridle.fifo := y } ∧ ∀ q, ∃ b, x.get q = { s.bp q with reclaimed := b } := by
  induction l generalizing s with
  | nil => exact ⟨_, _, rfl, fun q => ⟨_, rfl⟩⟩
  | cons m r ih =>
    cases m with
    | post => exact ⟨_, _, rfl, fun q => ⟨_, rfl⟩⟩
    | reclaim hi v =>
      obtain ⟨x, e, h1⟩ := reclaimTake_bp hi v s
      obtain ⟨x2, y2, e2, h2⟩ := ih (reclaimTake hi v s)
      refine ⟨x2, y2, by unfold reclaimFront; rw [e2, e], fun q => ?_⟩
      obtain ⟨b, hb⟩ := h1 q
      obtain ⟨b2, hb2⟩ := h2 q
      refine ⟨b2, ?_⟩
      rw [hb2, e]; simp only [State.bp, hb]
/-- Taking waiting reclaims changes the FIFO and, of the points, the mark of the reclaim only. -/

theorem takeReclaims_bp (s : State) : ∃ x y, takeReclaims s = { s with bridle.pts := x, bridle.fifo := y } ∧ ∀ q, ∃ b, x.get q = { s.bp q with reclaimed := b } := by
  unfold takeReclaims; split
  · exact ⟨_, _, rfl, fun q => ⟨_, rfl⟩⟩
  · exact reclaimFront_bp _ _

theorem take_run (ty : BitVec 8) (tag : Word) (f : State → Status × State) (s : State) (h : s.bridleRuns = true) (h2 : s.bridle.inReset = false) :
    ∃ w x y, w = { s with bridle.fifo := s.bridle.fifo.drop 1 } ∧ bridleTake ty tag f s = (let r := f w
      { r.2 with bridle.postTag := tag.setWidth 16, bridle.postType := ty, bridle.postSt := r.1, bridle.pts := x, bridle.fifo := y }) ∧
      ∀ q, ∃ b, x.get q = { (f w).2.bp q with reclaimed := b } := by
  have h3 : s.bridle.st = .run := by simpa [State.bridleRuns] using h
  have h4 : s.bridleDeaf = false := by simp [State.bridleDeaf, h3, h2]
  have h5 : ({ s with bridle.fifo := s.bridle.fifo.drop 1 } : State).bridleRuns = true := h
  refine ⟨{ s with bridle.fifo := s.bridle.fifo.drop 1 }, ?_⟩
  simp only [bridleTake, h4, Bool.false_eq_true, if_false, h5, if_true]
  generalize f { s with bridle.fifo := s.bridle.fifo.drop 1 } = r
  obtain ⟨x, y, e, h⟩ := takeReclaims_bp { r.2 with bridle.postTag := tag.setWidth 16, bridle.postType := ty, bridle.postSt := r.1 }
  exact ⟨x, y, trivial, e, h⟩

theorem take_other (ty : BitVec 8) (tag : Word) (f : State → Status × State) (s : State) (h : s.bridle.st = .verify ∨ s.bridle.st = .safe) (h2 : s.bridle.inReset = false) :
    ∃ x y, bridleTake ty tag f s = { s with bridle.postTag := tag.setWidth 16, bridle.postType := ty, bridle.postSt := .state, bridle.pts := x, bridle.fifo := y } ∧
      ∀ q, ∃ b, x.get q = { s.bp q with reclaimed := b } := by
  have h4 : s.bridleDeaf = false := by rcases h with h | h <;> simp [State.bridleDeaf, h, h2]
  have h5 : ({ s with bridle.fifo := s.bridle.fifo.drop 1 } : State).bridleRuns = false := by
    show decide (s.bridle.st = .run) = false
    rcases h with h | h <;> simp [h]
  simp only [bridleTake, h4, Bool.false_eq_true, if_false, h5]
  obtain ⟨x, y, e, h⟩ := takeReclaims_bp { s with bridle.fifo := s.bridle.fifo.drop 1, bridle.postTag := tag.setWidth 16, bridle.postType := ty, bridle.postSt := .state }
  exact ⟨x, y, e, h⟩

theorem holds_clear (p : Nat) (c d : HoldCause) (s : State) (q : Nat) : (clearCause p c s).holds q d = (s.holds q d && !(decide (p = q) && decide (c = d))) := by
  have hb : (clearCause p c s).bp q = if p = q then { s.bp q with hold := if s.holds p c then putBit (s.bp q).hold c.bit false else (s.bp q).hold } else s.bp q := by
    unfold clearCause; split
    · rename_i h; simp only [State.bp, syncPoint_same, note_parts, updBp_get, h, if_true]
    · rename_i h; split <;> simp [h]
  by_cases e : p = q
  · subst e
    have e0 : (clearCause p c s).holds p d = ((clearCause p c s).bp p).hold.getLsbD d.bit := rfl
    have e1 : s.holds p d = (s.bp p).hold.getLsbD d.bit := rfl
    by_cases h : s.holds p c = true
    · rw [e0, hb, e1]; simp only [if_true, h]
      by_cases e : c = d
      · subst e; simp [putBit]
      · cases c <;> cases d <;> simp_all [putBit, HoldCause.bit]
    · rw [e0, hb, e1]; simp only [if_true, h, if_false]
      by_cases e : c = d
      · subst e; rw [Bool.not_eq_true] at h; rw [e1] at h; simp; exact h
      · simp [e]
  · simp [State.holds, hb, e]

theorem clear_chal (p : Nat) (c : HoldCause) (s : State) : (clearCause p c s).bridle.chal = s.bridle.chal := by simp

theorem clear_bp (p : Nat) (c : HoldCause) (s : State) (q : Nat) : ((clearCause p c s).bp q).pilKeep = (s.bp q).pilKeep ∧ ((clearCause p c s).bp q).earthRc = (s.bp q).earthRc := by
  unfold clearCause; split
  · simp only [State.bp, syncPoint_same, note_parts, updBp_get]; split <;> exact ⟨rfl, rfl⟩
  · exact ⟨rfl, rfl⟩

theorem holds_updBp (s : State) (p q : Nat) (f : BrPt → BrPt) (c : HoldCause) (hf : ∀ b, (f b).hold = b.hold) : (s.updBp p f).holds q c = s.holds q c := by
  simp only [State.holds, State.bp, updBp_get]; split
  · rw [hf]
  · rfl

theorem hold_facts (u : Nat) (g : Word) (s : State) (h3 : u < 64) (h4 : (s.holds u .noclose || s.holds u .drop || s.holds u .restart) = true) :
    let r := holdReleaseMsg u s.bridle.chal { s with bridle.fifo := s.bridle.fifo.drop 1 }
    r.1 = .ok ∧ r.2.holds u .noclose = false ∧ r.2.holds u .drop = false ∧ r.2.holds u .restart = false := by
  have h5 : ¬ 64 ≤ u := by omega
  have e : ∀ c, ({ s with bridle.fifo := s.bridle.fifo.drop 1 } : State).holds u c = s.holds u c := fun c => rfl
  simp only [holdReleaseMsg, h5, if_false, ne_eq, not_true_eq_false, e, h4, Bool.not_true, Bool.false_eq_true]
  generalize ({ s with bridle.fifo := s.bridle.fifo.drop 1 } : State) = w
  have k : ∀ c (t : State), (newChallenge t).holds u c = t.holds u c := fun c t => rfl
  simp only [k, holds_clear]
  simp

theorem earth_facts (u : Nat) (g : Word) (s : State) (h3 : u < 64) (h4 : (s.power.rc.get u).st < 3) (h5 : (s.bp u).earthRc = true) :
    let r := earthReleaseMsg u s.bridle.chal { s with bridle.fifo := s.bridle.fifo.drop 1 }
    r.1 = .ok ∧ (r.2.bp u).earthRc = false ∧ ((s.bp u).earthIm = 0 → r.2.holds u .earth = false) := by
  have h6 : ¬ 80 ≤ u := by omega
  have h7 : ¬ 3 ≤ (s.power.rc.get u).st := by omega
  have e : ({ s with bridle.fifo := s.bridle.fifo.drop 1 } : State).bp u = s.bp u := rfl
  simp only [earthReleaseMsg, h6, h3, if_false, ne_eq, not_true_eq_false, if_true, h7, decide_false, e, h5, Bool.not_true, Bool.or_self, Bool.false_eq_true]
  have e2 : ({ s with bridle.fifo := s.bridle.fifo.drop 1 } : State).bp u = s.bp u := rfl
  generalize hw : ({ s with bridle.fifo := s.bridle.fifo.drop 1 } : State) = w at *
  have k : ∀ t : State, (newChallenge t).bp u = t.bp u := fun t => rfl
  have k2 : ∀ c (t : State), (newChallenge t).holds u c = t.holds u c := fun c t => rfl
  have e3 : ∀ f : BrPt → BrPt, (w.updBp u f).bp u = f (w.bp u) := fun f => by simp [State.bp]
  simp only [k, k2, earthDrop, e3]
  refine ⟨trivial, ?_, fun h => ?_⟩
  · split
    · rw [e3]
    · rw [(clear_bp _ _ _ _).2, e3]
  · rw [e2, h]; simp [holds_clear]

theorem release_facts (u : Nat) (g : Word) (s : State) (h3 : u < 64) (h4 : s.holds u .pilot = true) (h5 : (s.bp u).faultAt + 1000000 ≤ s.bridle.time) (h6 : (s.holds u .earth || s.holds u .group || s.holds u .weld || s.holds u .restart) = false) :
    let r := pilotReleaseMsg u s.bridle.chal { s with bridle.fifo := s.bridle.fifo.drop 1 }
    r.1 = .ok ∧ r.2.holds u .pilot = false ∧ (r.2.bp u).pilKeep = false := by
  have h7 : ¬ 64 ≤ u := by omega
  have h8 : ¬ s.bridle.time < (s.bp u).faultAt + 1000000 := by omega
  have e : ({ s with bridle.fifo := s.bridle.fifo.drop 1 } : State).bp u = s.bp u := rfl
  have e4 : ∀ c, ({ s with bridle.fifo := s.bridle.fifo.drop 1 } : State).holds u c = s.holds u c := fun c => rfl
  simp only [pilotReleaseMsg, h7, if_false, ne_eq, not_true_eq_false, e, e4, h4, h6, h8, Bool.true_or, Bool.not_true, Bool.false_eq_true, decide_false, Bool.and_false]
  generalize hw : ({ s with bridle.fifo := s.bridle.fifo.drop 1 } : State) = w at *
  have k : ∀ t : State, (newChallenge t).bp u = t.bp u := fun t => rfl
  have k2 : ∀ c (t : State), (newChallenge t).holds u c = t.holds u c := fun c t => rfl
  have k3 : ∀ t : State, (syncPilot u t).bp u = t.bp u := fun t => by simp [State.bp]
  have k4 : ∀ c (t : State), (syncPilot u t).holds u c = t.holds u c := fun c t => by simp [State.holds, State.bp]
  simp only [k, k2, k3, k4, (clear_bp _ _ _ _).1, holds_clear]
  simp [State.bp]

theorem stop_facts (u : Nat) (g : Word) (s : State) (h3 : 16 ≤ u) (h4 : u < 24) (h5 : s.hasDev (u - 16) = true) (h6 : (s.devCfg (u - 16)).ss1 = false) (h7 : (s.device (u - 16)).st = .extending ∨ (s.device (u - 16)).st = .retracting) :
    let r := stopReqMsg u { s with bridle.fifo := s.bridle.fifo.drop 1 }
    r.1 = .ok ∧ (r.2.device (u - 16)).st = .stopped ∧ (r.2.device (u - 16)).permit = false := by
  have h8 : ¬ u < 16 := by omega
  have e1 : ({ s with bridle.fifo := s.bridle.fifo.drop 1 } : State).hasDev (u - 16) = true := h5
  have e2 : (({ s with bridle.fifo := s.bridle.fifo.drop 1 } : State).devCfg (u - 16)).ss1 = false := h6
  have e3 : ({ s with bridle.fifo := s.bridle.fifo.drop 1 } : State).device (u - 16) = s.device (u - 16) := rfl
  have e4 : (!true || (decide ((s.device (u - 16)).st ≠ .extending) && decide ((s.device (u - 16)).st ≠ .retracting))) = false := by rcases h7 with h | h <;> simp [h]
  simp only [stopReqMsg, h8, h4, if_false, if_true, devStop, e1, e2, e3, e4, Bool.false_eq_true, devGo_dev, devOff_dev]
  exact ⟨trivial, trivial, trivial⟩

theorem motion_facts (u : Nat) (g : Word) (s : State) (h3 : u < 8) (h4 : s.motionOk u = true) (h5 : (s.device u).st = .retracted ∨ (s.device u).st = .stopped) :
    let r := motionReqMsg u 1 { s with bridle.fifo := s.bridle.fifo.drop 1 }
    r.1 = .ok ∧ (r.2.device u).st = .extending ∧ (r.2.device u).permit = true := by
  have h8 : (decide (8 ≤ u) || (decide ((1 : Word) ≠ 1) && decide ((1 : Word) ≠ 2))) = false := by
    have : ¬ 8 ≤ u := by omega
    rw [decide_eq_false this]; decide
  have e1 : ({ s with bridle.fifo := s.bridle.fifo.drop 1 } : State).motionOk u = true := h4
  have e3 : ({ s with bridle.fifo := s.bridle.fifo.drop 1 } : State).device u = s.device u := rfl
  have e4 : (decide ((s.device u).st = .retracted) || decide ((s.device u).st = .stopped)) = true := by rcases h5 with h | h <;> simp [h]
  simp only [motionReqMsg, h8, e1, e3, e4, Bool.not_true, Bool.false_eq_true, if_false, decide_true, Bool.and_self, if_true, devGo_dev, stoSet_device]
  exact ⟨trivial, trivial, by simp [State.device]⟩

theorem current_facts (u : Nat) (ma : Word) (s : State) (h3 : u < 64) (h4 : (s.bp u).shut = 2 ∨ (s.bp u).shut = 3) :
    let r := currentMsg u ma { s with bridle.fifo := s.bridle.fifo.drop 1 }
    r.1 = .ok ∧ (r.2.bp u).shut = (if ma.toNat < 1000 then 4 else 3) := by
  have h5 : ¬ 64 ≤ u := by omega
  have e : ({ s with bridle.fifo := s.bridle.fifo.drop 1 } : State).bp u = s.bp u := rfl
  have sq : ∀ (k : Nat) (a b : Bool) (u : State), (seqSet k a b u).bridle = u.bridle := fun k a b u => by unfold seqSet; dsimp only; split <;> rfl
  have sc : ∀ w : State, ((shutdownCoil u w).bp u).shut = 4 := fun w => by
    unfold shutdownCoil; dsimp only; split
    · simp only [State.bp, sq, syncPoint_same, updBp_get, if_true]
    · simp only [State.bp, syncPoint_same, updBp_get, if_true]
  have e2 : (decide ((s.bp u).shut ≠ 2) && decide ((s.bp u).shut ≠ 3)) = false := by rcases h4 with h | h <;> simp [h]
  simp only [currentMsg, h5, if_false, e, e2, Bool.false_eq_true]
  split
  · exact ⟨rfl, sc _⟩
  · exact ⟨rfl, by simp [State.bp]⟩

end Sys2Proof.Machine
end

