-- ==== Sys2Proof/Laws/EngineFacts.lean ====
section
/-!
SUPPORT. What operations of the power-line channels and the Rein engines do, for the obligations about them.
-/
set_option Elab.async false
set_option linter.all false
namespace Sys2Proof.Machine

/-! ### PlcLifecycleAndFrames -/

theorem plcGo_st (st : PlcSt) (c : PlcCh) : (plcGo st c).st = st ∧ (plcGo st c).nmk = c.nmk ∧ (plcGo st c).mac = c.mac ∧ (plcGo st c).sel = c.sel ∧ (plcGo st c).status = c.status ∧ (plcGo st c).runs = c.runs ∧ (plcGo st c).txq = c.txq ∧ (plcGo st c).nek = c.nek ∧ (plcGo st c).started = c.started ∧ (plcGo st c).halted = c.halted ∧ (plcGo st c).ntb0 = c.ntb0 ∧ (plcGo st c).nid = c.nid := by
  unfold plcGo; split
  · rename_i h; simp [h]
  · simp [plcEvt]

theorem plc_any (s : State) (m : Nat) (x : PlcDone) : True := trivial

theorem fold_txq (l : List PlcTx) (x : PlcCh) : (l.foldl (fun d t => plcDone ⟨t.tag, t.tries, .state⟩ d) x).nmk = x.nmk := by
  induction l generalizing x with
  | nil => rfl
  | cons a r ih => simp only [List.foldl_cons]; rw [ih]; unfold plcDone; split <;> rfl

theorem countEvents_plc (g i k : Nat) (s : State) (m : Nat) : (countEvents g i k s).plc m = s.plc m := by simp [State.plc]

theorem raise_plc (n : Nat) (s : State) (m : Nat) : (raise n s).plc m = s.plc m := by simp [State.plc]

theorem girthUnitOff_plc (k u : Nat) (s : State) (m : Nat) : (girthUnitOff k u s).plc m = s.plc m := by simp [State.plc, girthUnitOff]

theorem plcDone_keep (x : PlcDone) (c : PlcCh) (h : c.done.length < 16) : (plcDone x c).done = c.done ++ [x] ∧ (plcDone x c).txq = c.txq := by
  unfold plcDone; rw [if_neg (by omega)]; exact ⟨rfl, rfl⟩

theorem sendBeacon_keep (s : State) (c : PlcCh) : (sendBeacon s c).st = c.st ∧ (sendBeacon s c).started = c.started ∧ (sendBeacon s c).beaconAt = c.beaconAt + beaconTicks c ∧
    ((sendBeacon s c).lastBeacon.map (·.time)) = some c.beaconAt := by
  unfold sendBeacon; dsimp only
  split <;> exact ⟨rfl, rfl, rfl, rfl⟩

theorem plcGo_more (st : PlcSt) (c : PlcCh) : (plcGo st c).rx = c.rx ∧ (plcGo st c).ack = c.ack ∧ (plcGo st c).beaconAt = c.beaconAt ∧ (plcGo st c).lastBeacon = c.lastBeacon ∧ (plcGo st c).rxbase = c.rxbase ∧ (plcGo st c).slot = c.slot := by
  unfold plcGo; split <;> exact ⟨rfl, rfl, rfl, rfl, rfl, rfl⟩

theorem plcAny_used (s : State) (n : Nat) : s.used.plc n = s.plc n := rfl

theorem setBytes_plc (t : State) (a : Nat) (l : List Byte) (k : Nat) : (t.setBytes a l).plc k = t.plc k := by
  obtain ⟨m, hm⟩ := setBytes_eq l a t; rw [hm]; rfl

theorem data_facts (n : Nat) (m : Mpdu) (s : State) (h : (s.plc n).fromStation n m = true ∧ m.fcOk = true ∧ m.robo = true ∧ m.badPbs = 0 ∧ m.unicast = true ∧ m.kind = .data ∧ (s.plc n).rx.length < 16) :
    ((plcReceive n m s).plc n).rx = (s.plc n).rx ++ [m.data.length] ∧ ((plcReceive n m s).plc n).ack = some 0 ∧ ((plcReceive n m s).plc n).st = .linked := by
  obtain ⟨h1, h2, h3, h4, h5, h6, h7⟩ := h
  have hs : (s.plc n).st = .linked ∨ (s.plc n).st = .matched := by
    simp only [PlcCh.fromStation, Bool.and_eq_true, Bool.or_eq_true, decide_eq_true_eq] at h1; exact h1.1.2
  have h8 : (s.plc n).st ≠ .off := by rcases hs with h | h <;> rw [h] <;> decide
  simp only [plcReceive, h8, h2, h3, h4, h5, h6, h1, decide_false, Bool.not_true, Bool.or_self, Bool.false_eq_true, if_false, if_true, Bool.and_true, Bool.or_true, decide_true]
  have key : ∀ u : State, (u.plc n).fromStation n m = true → (u.plc n).rx = (s.plc n).rx → (u.plc n).ack = some 0 → (u.plc n).st = .linked →
      ((plcKind n m u).plc n).rx = (s.plc n).rx ++ [m.data.length] ∧ ((plcKind n m u).plc n).ack = some 0 ∧ ((plcKind n m u).plc n).st = .linked := by
    intro u k1 k2 k3 k4
    have h9 : ¬ 16 ≤ (u.plc n).rx.length := by rw [k2]; omega
    have e2 : plcKind n m u = plcRing n m.data u := by simp [plcKind, h6, h4, k1]
    simp only [e2, plcRing, h9, if_false, updPlc_plc, if_true, setBytes_plc]
    exact ⟨by rw [k2], k3, k4⟩
  have f : ∀ c : PlcCh, c.mac = (s.plc n).mac → (c.st = .linked ∨ c.st = .matched) → c.fromStation n m = true := by
    intro c e1 e2
    simp only [PlcCh.fromStation, Bool.and_eq_true, Bool.or_eq_true, decide_eq_true_eq] at h1 ⊢
    rw [e1]; exact ⟨⟨h1.1.1, e2⟩, h1.2⟩
  split
  · apply key
    · simp only [updPlc_plc, if_true]; apply f
      · exact (plcGo_st _ _).2.2.1
      · exact .inl (plcGo_st _ _).1
    · simp only [updPlc_plc, if_true]; rw [(plcGo_more _ _).1]
    · simp only [updPlc_plc, if_true]; rw [(plcGo_more _ _).2.1]
    · simp only [updPlc_plc, if_true]; exact (plcGo_st _ _).1
  · rename_i hq
    have hl : (s.plc n).st = .linked := by rcases hs with h | h
                                           · exact h
                                           · rw [h] at hq; simp at hq
    apply key
    · simp only [updPlc_plc, if_true]; exact f _ rfl (.inl hl)
    · simp only [updPlc_plc, if_true]
    · simp only [updPlc_plc, if_true]
    · simp only [updPlc_plc, if_true]; exact hl

/-! ### SlacMatching -/

theorem updPlc_colls (s : State) (n : Nat) (f : PlcCh → PlcCh) : (s.updPlc n f).app.plc.colls = s.app.plc.colls := by simp [State.updPlc]

theorem back_colls (n : Nat) (r : BitVec 64) (s : State) : (slacBack n r s).app.plc.colls = s.app.plc.colls := by
  unfold slacBack; split
  · rfl
  · rw [updPlc_colls]

theorem decide_colls (c : Collection) (s : State) : (slacDecide c s).app.plc.colls = s.app.plc.colls := by
  unfold slacDecide slacSelect; dsimp only
  split
  · rfl
  · split
    · rfl
    · split
      · split
        · exact (by simp [State.used, updPlc_colls])
        · rfl
      · exact (by simp [State.used, updPlc_colls])

theorem close_facts (r : BitVec 64) (s : State) (h : (s.coll r).isSome = true) : (slacClose r s).coll r = none ∧ ∀ c, c ∈ s.app.plc.colls → c.run ≠ r → c ∈ (slacClose r s).app.plc.colls := by
  have e : (slacClose r s).app.plc.colls = s.app.plc.colls.filter (·.run ≠ r) := by
    unfold slacClose
    cases hc : s.coll r with
    | none => simp [hc] at h
    | some c =>
      dsimp only
      rw [foldl_fix (fun t : State => t.app.plc.colls) _ (fun t a => back_colls a r t), decide_colls]
  constructor
  · unfold State.coll; rw [e]; simp [List.find?_eq_none]
  · intro c hc hr; rw [e]; simp [hc, hr]

/-! ### SessionActivations -/

theorem putCtx_ctx (slot : Nat) (f : Ctx → Ctx) (s : State) (j : Nat) : (putCtx slot f s).app.ctx.get j = if slot = j then f (s.app.ctx.get j) else s.app.ctx.get j := by
  simp [putCtx]

theorem putCtx_engs (slot : Nat) (f : Ctx → Ctx) (s : State) : (putCtx slot f s).app.eng = s.app.eng ∧ (putCtx slot f s).app.mbx = s.app.mbx := by
  simp [putCtx]

theorem pendClass_pend (k : Nat) (hk : k < 16) (c : Ctx) (h : c.st ≠ .free) : (pendClass k c).pend.getLsbD k = true ∧ (pendClass k c).codes = c.codes ∧ (pendClass k c).stash = c.stash ∧ (pendClass k c).gen = c.gen := by
  unfold pendClass; split <;> simp_all [putBit]

theorem postClass_pend (slot k : Nat) (hk : k < 16) (s : State) (h : (s.app.ctx.get slot).st ≠ .free) : ((postClass slot k s).app.ctx.get slot).pend.getLsbD k = true ∧ ((postClass slot k s).app.ctx.get slot).codes = (s.app.ctx.get slot).codes ∧ ((postClass slot k s).app.ctx.get slot).stash = (s.app.ctx.get slot).stash := by
  unfold postClass; rw [if_neg h]; simp only [syncCtx_same, updCtx_get, if_true]
  have := pendClass_pend k hk _ h
  exact ⟨this.1, this.2.1, this.2.2.1⟩

theorem compSrc_same (l : List Nat) (s : State) : (completeSources l s).app.ctx = s.app.ctx ∧ (completeSources l s).app.eng = s.app.eng ∧ (completeSources l s).app.mbx = s.app.mbx := by
  unfold completeSources
  induction l generalizing s with
  | nil => exact ⟨rfl, rfl, rfl⟩
  | cons a l ih => simp only [List.foldl_cons]; exact ih _

theorem completeLevels_ctx (slot : Nat) (s : State) (j : Nat) : (completeLevels slot s).app.ctx.get j = if slot = j then { s.app.ctx.get j with inServ := [], levels := [] } else s.app.ctx.get j := by
  unfold completeLevels
  simp only [updCtx_get, (compSrc_same _ _).1]

theorem completeDelivered_ctx (slot : Nat) (s : State) (j : Nat) : (completeDelivered slot s).app.ctx.get j = if slot = j then { s.app.ctx.get j with inServ := [] } else s.app.ctx.get j := by
  unfold completeDelivered
  simp only [updCtx_get, (compSrc_same _ _).1]

theorem completeDelivered_engs (slot : Nat) (s : State) : (completeDelivered slot s).app.eng = s.app.eng := by
  unfold completeDelivered
  simp only [updCtx_same, (compSrc_same _ _).2.1]

theorem endAct_ctx (e slot : Nat) (s : State) (j : Nat) : (endActivation e slot s).app.ctx.get j = if slot = j then { s.app.ctx.get j with inServ := [], useMax := max (s.app.ctx.get j).useMax (min 65535 (usedCycles s e slot)) } else s.app.ctx.get j := by
  unfold endActivation
  simp only [updEng_same, updCtx_get, completeDelivered_ctx]
  split <;> rfl

theorem endAct_eng (e slot : Nat) (s : State) (j : Nat) : (endActivation e slot s).app.eng.get j = if e = j then { s.app.eng.get j with running := none } else s.app.eng.get j := by
  unfold endActivation
  simp only [updEng_get, updCtx_same, completeDelivered_engs]

theorem pairPut_same (m : Nat) (w : List Word) (s : State) : (pairPut m w s).2.app.ctx = s.app.ctx ∧ (pairPut m w s).2.app.eng = s.app.eng := by
  unfold pairPut; split <;> simp

theorem commit_facts (e n : Nat) (s : State) : (commitNotices e n s).app.ctx = s.app.ctx ∧ ∀ j, ((commitNotices e n s).app.eng.get j).running = (s.app.eng.get j).running := by
  induction n generalizing s with
  | zero => exact ⟨rfl, fun j => rfl⟩
  | succ n ih =>
    simp only [commitNotices]; split
    · exact ⟨rfl, fun j => rfl⟩
    · split
      · exact ⟨rfl, fun j => rfl⟩
      · refine ⟨(ih _).1.trans (by simp [pairPut_same]), fun j => ((ih _).2 j).trans ?_⟩
        simp only [updEng_get, pairPut_same]; split <;> rfl

theorem trap_facts (e k c : Nat) (v : Word) (s : State) (h : (s.app.eng.get e).running = some k) : ((ctxTrap e c v s).app.ctx.get (32 * e + k)).st = .trapped ∧ ((ctxTrap e c v s).app.ctx.get (32 * e + k)).cause = c ∧ ((ctxTrap e c v s).app.ctx.get (32 * e + k)).trapVal = v ∧ ((ctxTrap e c v s).app.eng.get e).running = none := by
  unfold ctxTrap
  simp only [h, (commit_facts _ _ _).1, (commit_facts _ _ _).2, updEng_same, updEng_get, if_true]
  (repeat' split) <;> simp [putCtx_ctx, putCtx_engs, endAct_eng]

theorem claimFor_pend (n slot k : Nat) (hk : k < 16) (s : State) (h : (s.app.ctx.get slot).st ≠ .free) : ((claimFor n slot k s).app.ctx.get slot).pend.getLsbD k = true := by
  unfold claimFor; dsimp only; split
  · exact (postClass_pend _ k hk _ (by simpa [claimSource] using h)).1
  · exact (postClass_pend _ k hk _ (by simpa [claimSource] using h)).1

theorem stash_facts (e : Nat) (m : List Word) (r : List (List Word)) (slot : Nat) (s : State) (h : (s.app.mbx.pair.get (2 + e)).queue = m :: r ∧ s.engRuns e = true ∧ slot = 32 * e + fld (m.getD 0 0) 0 5 ∧ (s.app.ctx.get slot).st ≠ .free ∧ (s.app.ctx.get slot).st ≠ .running ∧ (s.app.ctx.get slot).stash.length < 8) :
    ((reinStash e s).app.mbx.pair.get (2 + e)).queue = r ∧ ((reinStash e s).app.ctx.get slot).stash = (s.app.ctx.get slot).stash ++ [m] ∧ ((reinStash e s).app.ctx.get slot).pend.getLsbD 9 = true := by
  obtain ⟨h1, h2, h3, h4, h5, h6⟩ := h
  have h7 : ¬ 8 ≤ (s.app.ctx.get slot).stash.length := by omega
  unfold reinStash
  simp only [h1, h2, ← h3, h4, h5, h7, Bool.not_true, Bool.false_eq_true, if_false, decide_false, Bool.or_self]
  have k : ((((s.updPair (2 + e) fun b => { b with queue := r }).updCtx slot fun c => { c with stash := c.stash ++ [m] })).app.ctx.get slot).st ≠ .free := by
    simpa using h4
  have p := postClass_pend slot 9 (by omega) _ k
  refine ⟨?_, ?_, p.1⟩
  · simp only [postClass_same, updCtx_same]; simp [State.updPair]
  · rw [p.2.2]; simp

theorem deliver_facts (e k : Nat) (s : State) : let t := deliver e k (if s.gated then transferSleep s else s)
    (t.app.eng.get e).running = some k ∧ (t.app.ctx.get (32 * e + k)).st = .running ∧ (t.app.ctx.get (32 * e + k)).pend = 0 ∧ (t.app.ctx.get (32 * e + k)).regs.pc = BitVec.ofNat 64 (0x04000000 + e * 0x80000 + (s.app.eng.get e).entry) := by
  have e1 : (if s.gated then transferSleep s else s).app.eng = s.app.eng := by split <;> simp [transferSleep]
  rw [← e1]
  generalize (if s.gated then transferSleep s else s) = u
  have cb : ∀ (a b : Nat) (l : List Byte) (s : State), (ctxBytes a b l s).app.eng = s.app.eng ∧ (ctxBytes a b l s).app.ctx = s.app.ctx := fun a b l s => by
    unfold ctxBytes; obtain ⟨m, hm⟩ := setBytes_eq l (ctxBase a + b) s; rw [hm]; exact ⟨rfl, rfl⟩
  unfold deliver
  simp only [countEvents_same, updEng_get, updEng_same, putCtx_ctx, if_true, cb]
  exact ⟨trivial, trivial, trivial, trivial⟩

theorem commit_one (e : Nat) (m : List Word) (s : State) (h : (s.app.eng.get e).notices = [m]) (h2 : (s.app.mbx.pair.get (12 + e)).queue.length < 8) :
    ((commitNotices e 33 s).app.mbx.pair.get (12 + e)).queue = (s.app.mbx.pair.get (12 + e)).queue ++ [m] ∧ ((commitNotices e 33 s).app.eng.get e).notices = [] := by
  have h3 : ¬ 8 ≤ (s.app.mbx.pair.get (12 + e)).queue.length := by omega
  have h4 : (((pairPut (12 + e) m s).2.updEng e fun x => { x with notices := [] }).app.eng.get e).notices = [] := by simp
  rw [commitNotices]
  simp only [h, h3, if_false]
  rw [commitNotices]
  simp only [h4]
  simp [pairPut, h3, State.updPair]

theorem post_facts (e : Nat) (v : Word) (k : Nat) (s : State) (h : (s.app.eng.get e).running = some k) (h2 : (s.app.ctx.get (32 * e + fld v 0 5)).st ≠ .free) (h3 : (s.app.ctx.get (32 * e + fld v 0 5)).codes.length < 8) :
    ((sesPost e v s).app.ctx.get (32 * e + fld v 0 5)).codes = (s.app.ctx.get (32 * e + fld v 0 5)).codes ++ [BitVec.ofNat 8 (fld v 8 8)] ∧ ((sesPost e v s).app.ctx.get (32 * e + k)).postSt = .ok := by
  have h4 : ¬ 8 ≤ (s.app.ctx.get (32 * e + fld v 0 5)).codes.length := by omega
  unfold sesPost
  simp only [h, postCode, h2, h4, if_false, putCtx_ctx, if_true]
  refine ⟨?_, trivial⟩
  have p := postClass_pend (32 * e + fld v 0 5) 10 (by omega) (s.updCtx (32 * e + fld v 0 5) fun c => { c with codes := c.codes ++ [BitVec.ofNat 8 (fld v 8 8)] }) (by simpa using h2)
  split
  · dsimp only; rw [p.2.1]; simp
  · rw [p.2.1]; simp

theorem postr_facts (port e : Nat) (v : Word) (s : State) (h0 : sesWriter port e = true) (h1 : port ≠ 4 + e) (h2 : (s.app.ctx.get (32 * e + fld v 0 5)).st ≠ .free) (h3 : (s.app.ctx.get (32 * e + fld v 0 5)).codes.length < 8) :
    ((sesPostr port e v s).app.ctx.get (32 * e + fld v 0 5)).codes = (s.app.ctx.get (32 * e + fld v 0 5)).codes ++ [BitVec.ofNat 8 (fld v 8 8)] ∧ ((sesPostr port e v s).app.eng.get e).postrSt.get port = .ok := by
  have h4 : ¬ 8 ≤ (s.app.ctx.get (32 * e + fld v 0 5)).codes.length := by omega
  unfold sesPostr
  simp only [h0, h1, postCode, h2, h4, if_false, Bool.not_true, Bool.false_eq_true, updEng_same, updEng_get, busOk_same, if_true, Bank.get_set_same]
  have p := postClass_pend (32 * e + fld v 0 5) 10 (by omega) (s.updCtx (32 * e + fld v 0 5) fun c => { c with codes := c.codes ++ [BitVec.ofNat 8 (fld v 8 8)] }) (by simpa using h2)
  refine ⟨?_, trivial⟩
  rw [p.2.1]; simp

/-! ### ContextCommands -/

theorem cmdSt_ctx (port e : Nat) (x : Nat × Nat × Status) (s : State) (j : Nat) : ((putCmdSt port e x s).app.ctx.get j).st = (s.app.ctx.get j).st ∧ ((putCmdSt port e x s).app.ctx.get j).role = (s.app.ctx.get j).role ∧ ((putCmdSt port e x s).app.ctx.get j).point = (s.app.ctx.get j).point ∧ ((putCmdSt port e x s).app.ctx.get j).gen = (s.app.ctx.get j).gen ∧ ((putCmdSt port e x s).app.ctx.get j).pend = (s.app.ctx.get j).pend := by
  unfold putCmdSt; (repeat' split)
  · exact ⟨rfl, rfl, rfl, rfl, rfl⟩
  · simp only [updCtx_get]; split <;> exact ⟨rfl, rfl, rfl, rfl, rfl⟩
  · exact ⟨rfl, rfl, rfl, rfl, rfl⟩

theorem pilCfgWrite_ctx (p : Nat) (v : Word) (s : State) : (pilCfgWrite p v s).app.ctx = s.app.ctx := by
  have k : ∀ (c : Prop) [Decidable c] (u : State), u.app.ctx = s.app.ctx → (if c then u else pilEvt p 6 u).app.ctx = s.app.ctx := fun c _ u hu => by
    split
    · exact hu
    · simpa using hu
  exact k _ _ rfl

theorem takes_ctx (slot p : Nat) (s : State) : (sessionTakes slot p s).app.ctx = s.app.ctx := by
  unfold sessionTakes pilTakes; dsimp only; split
  · rfl
  · rw [pilCfgWrite_ctx]

theorem flush_ctx (n : Nat) (s : State) : (linkFlush .control n s).app.ctx = s.app.ctx := by
  induction n generalizing s with
  | zero => rfl
  | succ n ih =>
    simp only [linkFlush]; split
    · rfl
    · split
      · rw [ih]; simp [linkCount, State.updLink]
      · rfl

theorem notice_ctx (kind slot reason : Nat) (s : State) : (sessionNotice kind slot reason s).app.ctx = s.app.ctx := by
  have f : ∀ (c : Nat) (k : Word) (b : List Byte) (t : State), (fwSend c k b t).app.ctx = t.app.ctx := fun c k b t => by
    unfold fwSend; split
    · rfl
    · unfold linkOffer; split
      · rfl
      · rw [flush_ctx]; rfl
  unfold sessionNotice; dsimp only
  generalize (if kind = 1 then 0 else s.serialOf slot) = n
  split
  · rfl
  · rw [f]

theorem free_eq (port slot : Nat) (s : State) (h2 : (s.app.ctx.get slot).st ≠ .free) (h3 : (s.app.ctx.get slot).st ≠ .running) :
    ∃ u, freeCmd port slot s = (.ok, u) ∧ (u.app.ctx.get slot).st = .free ∧ (u.app.ctx.get slot).pend = 0 := by
  unfold freeCmd; dsimp only
  have key : ∀ w : State, w.app.ctx = s.app.ctx → ∃ u, ctxFree slot w = (.ok, u) ∧ (u.app.ctx.get slot).st = .free ∧ (u.app.ctx.get slot).pend = 0 := by
    intro w hw
    refine ⟨_, by simp only [ctxFree, hw, h2, h3, decide_false, Bool.or_self, Bool.false_eq_true, if_false]; rfl, ?_, ?_⟩
    · simp only [putCtx_ctx, if_true]
    · simp only [putCtx_ctx, if_true]
  apply key
  split
  · rw [notice_ctx]
    have e : ∀ (a n v : Nat) (t : State), (t.setNum a n v).app.ctx = t.app.ctx := fun a n v t => by simp
    exact e _ _ _ _
  · rfl

theorem ctxBytes_ctx (a b : Nat) (l : List Byte) (s : State) : (ctxBytes a b l s).app.ctx = s.app.ctx := by
  unfold ctxBytes; obtain ⟨m, hm⟩ := setBytes_eq l (ctxBase a + b) s; rw [hm]

theorem ctxStart_ctx (slot p r : Nat) (s : State) : let c := (ctxStart slot p r s).app.ctx.get slot
    c.gen = wrap16From1 (s.app.ctx.get slot).gen ∧ c.st = .ready ∧ c.role = r ∧ c.point = p ∧ c.pend = 1 := by
  unfold ctxStart
  rw [takes_ctx]
  simp only [syncCtx_same, setNum_same, updCtx_get, if_true]
  exact ⟨trivial, trivial, trivial, trivial, trivial⟩

theorem start_facts (port e : Nat) (v : Word) (s : State) (h1 : sesWriter port e = true) (h2 : s.startStatus e (fld v 0 5) (fld v 8 6) (fld v 6 2) = .ok) :
    ((sesCmd 1 port e v s).app.ctx.get (32 * e + fld v 0 5)).st = .ready ∧ ((sesCmd 1 port e v s).app.ctx.get (32 * e + fld v 0 5)).role = fld v 6 2 ∧ ((sesCmd 1 port e v s).app.ctx.get (32 * e + fld v 0 5)).point = fld v 8 6 ∧ ((sesCmd 1 port e v s).app.ctx.get (32 * e + fld v 0 5)).gen = wrap16From1 (s.app.ctx.get (32 * e + fld v 0 5)).gen ∧ ((sesCmd 1 port e v s).app.ctx.get (32 * e + fld v 0 5)).pend = 1 := by
  unfold sesCmd
  simp only [h1, h2, Bool.not_true, Bool.false_eq_true, if_false, if_true, busOk_same]
  have c := cmdSt_ctx port e (((ctxStart (32 * e + fld v 0 5) (fld v 8 6) (fld v 6 2) s).app.ctx.get (32 * e + fld v 0 5)).gen, fld v 0 5, .ok) (ctxStart (32 * e + fld v 0 5) (fld v 8 6) (fld v 6 2) s) (32 * e + fld v 0 5)
  rw [c.1, c.2.1, c.2.2.1, c.2.2.2.1, c.2.2.2.2]
  have k := ctxStart_ctx (32 * e + fld v 0 5) (fld v 8 6) (fld v 6 2) s
  exact ⟨k.2.1, k.2.2.1, k.2.2.2.1, k.1, k.2.2.2.2⟩

theorem start_refused (port e : Nat) (v : Word) (s : State) (h1 : sesWriter port e = true) (h2 : s.startStatus e (fld v 0 5) (fld v 8 6) (fld v 6 2) ≠ .ok) (j : Nat) :
    ((sesCmd 1 port e v s).app.ctx.get j).st = (s.app.ctx.get j).st := by
  unfold sesCmd
  simp only [h1, h2, Bool.not_true, Bool.false_eq_true, if_false, busOk_same]
  exact (cmdSt_ctx _ _ _ _ _).1

end Sys2Proof.Machine
end

