-- ==== Sys2Proof/Laws/ServerFacts.lean ====
section
/-!
SUPPORT. What operations of the field ports and Latigo do, for the obligations about them.
-/
set_option Elab.async false
set_option linter.all false
namespace Sys2Proof.Machine

/-! ### SdoAndUsdoTransfers -/

theorem fport_upd (s : State) (x y : Nat) (f : FieldPort → FieldPort) : (s.updPort x f).fport y = if x = y then f (s.fport y) else s.fport y := by
  simp [State.fport]
/-- Sending a frame changes only the frames sent, those that wait and the overrun mark of its port. -/

theorem send_some (x : Nat) (f : CanFrame) (s : State) (y : Nat) : ∃ a b c, (canSend x f s).fport y = { s.fport y with sent := a, txq := b, overrun := c } := by
  unfold canSend
  split
  · rw [fport_upd]; split
    · exact ⟨_, _, _, rfl⟩
    · exact ⟨_, _, _, rfl⟩
  · split
    · exact ⟨_, _, _, rfl⟩
    · rw [fport_upd]; split
      · split
        · exact ⟨_, _, _, rfl⟩
        · exact ⟨_, _, _, rfl⟩
      · exact ⟨_, _, _, rfl⟩

theorem send_now (x : Nat) (f : CanFrame) (s : State) (h : s.portSends x = true) : ((canSend x f s).fport x).sent = (f :: (s.fport x).sent).take 64 := by
  unfold canSend; rw [if_pos h, fport_upd, if_pos rfl]

theorem send_keep (x : Nat) (f : CanFrame) (s : State) (y : Nat) : ((canSend x f s).fport y).sdo = (s.fport y).sdo ∧ ((canSend x f s).fport y).usdo = (s.fport y).usdo ∧ ((canSend x f s).fport y).nmt = (s.fport y).nmt ∧ ((canSend x f s).fport y).busOff = (s.fport y).busOff ∧ ((canSend x f s).fport y).passive = (s.fport y).passive ∧ ((canSend x f s).fport y).node = (s.fport y).node ∧ ((canSend x f s).fport y).mode = (s.fport y).mode ∧ ((canSend x f s).fport y).trun = (s.fport y).trun := by
  obtain ⟨a, b, c, h⟩ := send_some x f s y
  rw [h]; exact ⟨rfl, rfl, rfl, rfl, rfl, rfl, rfl, rfl⟩

theorem setSdo_get (f ch : Nat) (x : Option SdoXfer) (s : State) (c : Nat) : ((setSdo f ch x s).fport f).sdo.get c = if ch = c then x else ((s.fport f).sdo.get c) := by
  simp [setSdo, fport_upd, Bank.get_set]

theorem setUsdo_get (f n : Nat) (x : Option SdoXfer) (s : State) (c : Nat) : ((setUsdo f n x s).fport f).usdo.get c = if n = c then x else ((s.fport f).usdo.get c) := by
  simp [setUsdo, fport_upd, Bank.get_set]

theorem reply_sdo (f ch : Nat) (c : Byte) (i j : Nat) (d : List Byte) (s : State) (g : Nat) : ((sdoReply f ch c i j d s).fport g).sdo = (s.fport g).sdo := (send_keep _ _ _ _).1

theorem sendS_sdo (f ch : Nat) (d : List Byte) (s : State) (g : Nat) : ((sdoSend f ch d s).fport g).sdo = (s.fport g).sdo := (send_keep _ _ _ _).1

theorem abort_sdo (f ch i j k : Nat) (s : State) (g : Nat) : ((sdoAbort f ch i j k s).fport g).sdo = (s.fport g).sdo := (send_keep _ _ _ _).1

theorem usend_usdo (f n k : Nat) (d : List Byte) (s : State) (g : Nat) : ((usdoSend f n k d s).fport g).usdo = (s.fport g).usdo := (send_keep _ _ _ _).2.1

theorem send_timeouts (x : Nat) (f : CanFrame) (s : State) : (canSend x f s).app.server.timeouts = s.app.server.timeouts := by
  unfold canSend; split
  · rfl
  · split <;> rfl

theorem emcy_keep (x c : Nat) (b : Byte) (s : State) (y : Nat) : ((emcy x c b s).fport y).busOff = (s.fport y).busOff ∧ ((emcy x c b s).fport y).passive = (s.fport y).passive := by
  unfold emcy; dsimp only; split
  · exact ⟨(send_keep _ _ _ _).2.2.2.1, (send_keep _ _ _ _).2.2.2.2.1⟩
  · exact ⟨rfl, rfl⟩

/-! ### FieldPortStatesAndPdos -/

theorem resume_keep (f : Nat) (s : State) : ((canResume f s).fport f).busOff = (s.fport f).busOff ∧ ((canResume f s).fport f).passive = (s.fport f).passive := by
  have e : ∀ y, ((canFlush f s).fport y).busOff = (s.fport y).busOff ∧ ((canFlush f s).fport y).passive = (s.fport y).passive := fun y => by
    unfold canFlush; rw [fport_upd]; split <;> exact ⟨rfl, rfl⟩
  unfold canResume; dsimp only; split
  · rw [(emcy_keep _ _ _ _ _).1, (emcy_keep _ _ _ _ _).2, fport_upd, if_pos rfl]; exact e f
  · exact e f

theorem boot_facts (f : Nat) (s : State) : ((bootPort f s).fport f).mode = s.onum (0x2020 + f) 1 ∧ ((bootPort f s).fport f).node = s.onum (0x2020 + f) 4 ∧ ∀ c, ((bootPort f s).fport f).sdo.get c = none := by
  have e : ∀ u : State, ((enterOper f u).fport f).mode = (u.fport f).mode ∧ ((enterOper f u).fport f).node = (u.fport f).node ∧ ((enterOper f u).fport f).sdo = (u.fport f).sdo := fun u => by
    simp only [enterOper, fport_upd, if_true]; exact ⟨trivial, trivial, trivial⟩
  unfold bootPort; dsimp only
  split
  · rw [(e _).1, (e _).2.1, (e _).2.2, (send_keep _ _ _ _).2.2.2.2.2.2.1, (send_keep _ _ _ _).2.2.2.2.2.1, (send_keep _ _ _ _).1, fport_upd, if_pos rfl]
    exact ⟨rfl, rfl, fun c => rfl⟩
  · rw [(send_keep _ _ _ _).2.2.2.2.2.2.1, (send_keep _ _ _ _).2.2.2.2.2.1, (send_keep _ _ _ _).1, fport_upd, if_pos rfl]
    exact ⟨rfl, rfl, fun c => rfl⟩

/-! ### LatigoConnections -/

theorem conn_upd (s : State) (c d : Nat) (f : Conn → Conn) : (s.updConn c f).conn d = if c = d then (s.conn d).map f else s.conn d := by
  simp [State.updConn, State.conn, Bank.get_upd]

theorem setLast_conn (c : Nat) (st : Status) (s : State) : (setLast (.latigo c) st s).conn c = (s.conn c).map fun x => { x with last := st } := by
  simp [setLast, conn_upd]

theorem answered_conn (c : Nat) (st : Status) (s : State) : (answered (.latigo c) st s).conn c = (s.conn c).map fun x => { x with last := st } := by
  have h := setLast_conn c st s
  unfold answered; cases st <;> exact h

theorem answered_ethUp (c : Nat) (st : Status) (s : State) : (answered (.latigo c) st s).app.clk.ethUp = s.app.clk.ethUp := by
  unfold answered; cases st <;> simp [setLast, State.updConn]
/-- Sending a frame leaves every connection as it was. -/

theorem latSend_conn (f : LatFrame) (s : State) (d : Nat) : (latSend f s).conn d = s.conn d := by
  unfold latSend; split
  · rfl
  · split
    · rfl
    · simp [deliveryTimeout, State.conn]
/-- On an open connection whose port's link is up the frame is the newest sent. -/

theorem latSend_head (f : LatFrame) (s : State) (x : Conn) (h : s.conn f.conn = some x) (hu : s.app.clk.ethUp.getLsbD x.port = true) :
    (latSend f s).app.server.lat.head? = some f := by
  unfold latSend; simp only [h, hu, if_true]; rfl

end Sys2Proof.Machine
end

