-- ==== Sys2Proof/Laws/TackFacts.lean ====
section
/-!
SUPPORT. What operations of the Tack room and updates do, for the obligations about them.
-/
set_option Elab.async false
set_option linter.all false
namespace Sys2Proof.Machine

/-! ### TackSlots -/

structure SlotSame (a b : KeySlot) : Prop where
  content : a.content = b.content
  gen : a.gen = b.gen
  pub : a.pub = b.pub
  pgen : a.pgen = b.pgen

theorem SlotSame.rfl' (a : KeySlot) : SlotSame a a := ⟨rfl, rfl, rfl, rfl⟩

theorem orphanPass_same (b : Bank KeySlot) (j : Nat) : SlotSame ((orphanPass b).get j) (b.get j) := by
  unfold orphanPass
  generalize b.cells.map (·.1) = l
  have key : ∀ (l : List Nat) (c : Bank KeySlot), SlotSame (c.get j) (b.get j) → SlotSame ((l.foldl (fun b i =>
    let k := b.get i
    let p := b.get k.parent
    if k.parent = 0xFF || k.isEmpty then b
    else if p.gen ≠ k.pgen || p.orphan then b.set i { k with attr := setEvt k.attr 4 } else b) c).get j) (b.get j) := by
    intro l
    induction l with
    | nil => intro c h; exact h
    | cons i l ih =>
      intro c h
      simp only [List.foldl_cons]
      apply ih
      split
      · exact h
      · split
        · rw [Bank.get_set]; split
          · rename_i e; subst e; exact ⟨h.1, h.2, h.3, h.4⟩
          · exact h
        · exact h
  exact key l b (SlotSame.rfl' _)

theorem orphanAll_same (n : Nat) (b : Bank KeySlot) (j : Nat) : SlotSame ((orphanAll n b).get j) (b.get j) := by
  induction n generalizing b with
  | zero => exact SlotSame.rfl' _
  | succ n ih =>
    simp only [orphanAll]; split
    · exact SlotSame.rfl' _
    · have h1 := ih (orphanPass b); have h2 := orphanPass_same b j
      exact ⟨h1.1.trans h2.1, h1.2.trans h2.2, h1.3.trans h2.3, h1.4.trans h2.4⟩

theorem putSlot_same (i : Nat) (k : KeySlot) (s : State) (j : Nat) : SlotSame ((putSlot i k s).slot j) (if i = j then { k with gen := stick 65535 (s.slot i).gen 1 } else s.slot j) := by
  have h := orphanAll_same 128 (s.app.tack.slots.set i { k with gen := stick 65535 (s.slot i).gen 1, attr := k.attr &&& ~~~(0x10 : Word) }) j
  rw [Bank.get_set] at h
  refine ⟨h.1.trans ?_, h.2.trans ?_, h.3.trans ?_, h.4.trans ?_⟩ <;> (split <;> rfl)

theorem putSlot_other (i : Nat) (k : KeySlot) (s : State) (j : Nat) (h : j ≠ i) : ((putSlot i k s).slot j).content = (s.slot j).content ∧ ((putSlot i k s).slot j).pub = (s.slot j).pub ∧ ((putSlot i k s).slot j).gen = (s.slot j).gen := by
  have e := putSlot_same i k s j
  rw [if_neg (Ne.symm h)] at e
  exact ⟨e.content, e.pub, e.gen⟩

theorem pairPut_tack (m : Nat) (l : List Word) (s : State) : (pairPut m l s).2.app.tack = s.app.tack ∧ (pairPut m l s).2.sec = s.sec ∧ (pairPut m l s).2.fuses = s.fuses ∧ (pairPut m l s).2.coldMr = s.coldMr := by
  unfold pairPut; split <;> simp [State.updPair]

theorem reply_tack (c i : Nat) (st : Status) (s : State) : (tackReply c i st s).app.tack = s.app.tack := (pairPut_tack _ _ _).1

theorem reply_sec (c i : Nat) (st : Status) (s : State) : (tackReply c i st s).sec = s.sec := (pairPut_tack _ _ _).2.1

theorem reply_fuses (c i : Nat) (st : Status) (s : State) : (tackReply c i st s).fuses = s.fuses := (pairPut_tack _ _ _).2.2.1

theorem reply_coldMr (c i : Nat) (st : Status) (s : State) : (tackReply c i st s).coldMr = s.coldMr := (pairPut_tack _ _ _).2.2.2

theorem reply_slot (c i : Nat) (st : Status) (s : State) (j : Nat) : (tackReply c i st s).slot j = s.slot j := by
  simp only [State.slot, reply_tack]

theorem measure_parts (k : Nat) (x : BitVec 384) (s : State) : (measureInto k x s).coldMr = (if k = 13 ∨ k = 14 then s.coldMr.upd k (fun m => mrExtend m x) else s.coldMr) ∧ (measureInto k x s).app.tack.mr = (if k = 13 ∨ k = 14 then s.app.tack.mr else s.app.tack.mr.upd k (fun m => mrExtend m x)) := by
  have e : ∀ u : State, (if k = 4 then { u with app.clk.loaded := putBit u.app.clk.loaded 8 true }
    else if within 5 k 12 then { u with app.clk.loaded := putBit u.app.clk.loaded (k - 5) true }
    else if k = 13 then { u with bridle.loaded := true } else u).coldMr = u.coldMr ∧ (if k = 4 then { u with app.clk.loaded := putBit u.app.clk.loaded 8 true }
    else if within 5 k 12 then { u with app.clk.loaded := putBit u.app.clk.loaded (k - 5) true }
    else if k = 13 then { u with bridle.loaded := true } else u).app.tack.mr = u.app.tack.mr := by
    intro u; split
    · exact ⟨rfl, rfl⟩
    · split
      · exact ⟨rfl, rfl⟩
      · split <;> exact ⟨rfl, rfl⟩
  have := e (if k = 13 || k = 14 then { s with coldMr := s.coldMr.upd k fun m => mrExtend m x }
    else { s with app.tack.mr := s.app.tack.mr.upd k fun m => mrExtend m x })
  refine ⟨this.1.trans ?_, this.2.trans ?_⟩ <;> simp only [Bool.or_eq_true, decide_eq_true_eq] <;> split <;> rfl

theorem girthUsed_eq (p k : Nat) (c : Option Nat) (s : State) : ∃ g m b, girthUsed p c k s = { s with app.girth := g, app.pmc := m, app.bkl := b } := by
  unfold girthUsed
  dsimp only
  split
  · rename_i q _
    have h : ∀ u : State, ∃ m b, countEvents 3 (s.girthKind k).cls 1 u = { u with app.pmc := m, app.bkl := b } := fun u => by
      obtain ⟨x, hx⟩ := countEvents_eq 3 (s.girthKind k).cls 1 u
      exact ⟨x.2, x.1, hx⟩
    obtain ⟨m, b, e⟩ := h { s with app.girth.next := wrap16From1 q.ticket, app.girth.ports := s.app.girth.ports.set p { ticket := q.ticket, ctx := (c.getD 0) % 32, state := 3, status := 0, pred := (q.pred - s.ht + 999) / 1000 } }
    exact ⟨_, m, b, e⟩
  · exact ⟨s.app.girth, s.app.pmc, s.app.bkl, rfl⟩

theorem girthRun_eq (p : Nat) (l : List Nat) (s u : State) (h : girthRun p l s = some u) : ∃ g m b, u = { s with app.girth := g, app.pmc := m, app.bkl := b } := by
  induction l generalizing s with
  | nil => simp only [girthRun, Option.some.injEq] at h; subst h; exact ⟨_, _, _, rfl⟩
  | cons k l ih =>
    simp only [girthRun] at h
    split at h
    · obtain ⟨g, m, b, e⟩ := ih _ h
      obtain ⟨g', m', b', e'⟩ := girthUsed_eq p k none s
      rw [e'] at e
      exact ⟨g, m, b, e⟩
    · cases h

theorem bytes_of_mem (v s : State) (h : v.app.mem = s.app.mem) (a n : Nat) : v.bytes a n = s.bytes a n := by
  induction n generalizing a with
  | zero => rfl
  | succ n ih => simp only [State.bytes, ih, State.byte, h]

theorem served_ok (c i : Nat) (ks : List Nat) (f : State → Status × State) (s u v : State) (h : s.tackUp = true) (hr : girthRun 14 ks s = some u) (e1 : (f s).1 = .ok) (e2 : f u = (.ok, v)) :
    tackServe c i ks f s = tackReply c i .ok v := by
  cases ks with
  | nil => simp only [girthRun, Option.some.injEq] at hr; subst hr; simp [tackServe, h, underGrants, e2]
  | cons k l => simp [tackServe, h, underGrants, e1, hr, e2]

theorem served_busy (c i : Nat) (ks : List Nat) (f : State → Status × State) (s : State) (h : s.tackUp = true) (hr : girthRun 14 ks s = none) (e1 : (f s).1 = .ok) :
    tackServe c i ks f s = tackReply c i .busy s := by
  cases ks with
  | nil => simp [girthRun] at hr
  | cons k l => simp [tackServe, h, underGrants, e1, hr]

theorem served_refused (c i : Nat) (ks : List Nat) (f : State → Status × State) (s v : State) (st : Status) (h : s.tackUp = true) (e : f s = (st, v)) (n : st ≠ .ok) :
    tackServe c i ks f s = tackReply c i st v := by
  simp [tackServe, h, underGrants, e, n]

theorem served_down (c i : Nat) (ks : List Nat) (f : State → Status × State) (s : State) (h : s.tackUp = false) : tackServe c i ks f s = s := by
  simp [tackServe, h]

/-! ### TackUses -/

theorem reply_mrOf (c i : Nat) (st : Status) (s : State) (k : Nat) : (tackReply c i st s).mrOf k = s.mrOf k := by
  simp only [State.mrOf, reply_tack, reply_coldMr]

theorem measure_mr (k : Nat) (x : BitVec 384) (s : State) : (measureInto k x s).mrOf k = mrExtend (s.mrOf k) x := by
  have p := measure_parts k x s
  simp only [State.mrOf, Bool.or_eq_true, decide_eq_true_eq, p.1, p.2]
  split <;> simp

theorem measure_mr_other (k : Nat) (x : BitVec 384) (s : State) (j : Nat) (h : j ≠ k) : (measureInto k x s).mrOf j = s.mrOf j := by
  have p := measure_parts k x s
  have n : ¬ k = j := fun e => h e.symm
  simp only [State.mrOf, Bool.or_eq_true, decide_eq_true_eq, p.1, p.2]
  split <;> (first | rfl | (split <;> simp [Bank.get_upd, n]))

/-! ### UpdateLifecycle -/

theorem owl_sec (s : State) : (outWaitLatchAll s).sec = s.sec ∧ (outWaitLatchAll s).fuses = s.fuses := by
  unfold outWaitLatchAll
  generalize List.range 96 = l
  exact foldl_keep _ (fun t : State => t.sec = s.sec ∧ t.fuses = s.fuses) (fun a t h => by
    have : (outWaitLatch a t).sec = t.sec ∧ (outWaitLatch a t).fuses = t.fuses := by
      unfold outWaitLatch outLatch; split <;> simp
    exact ⟨this.1.trans h.1, this.2.trans h.2⟩) _ _ ⟨rfl, rfl⟩

theorem appReset_sec (k : Nat) (s : State) : (appReset k s).sec = s.sec ∧ (appReset k s).fuses = s.fuses := by
  unfold appReset; split
  · exact ⟨rfl, rfl⟩
  · have h := owl_sec (holdWindowStart s)
    have h2 : (holdWindowStart s).sec = s.sec ∧ (holdWindowStart s).fuses = s.fuses := by unfold holdWindowStart; split <;> simp
    unfold powerAtReset
    generalize outWaitLatchAll (holdWindowStart s) = u at *
    exact ⟨h.1.trans h2.1, h.2.trans h2.2⟩

theorem foldl_restore (l : List Nat) (s : State) : ∃ u i, l.foldl (fun t b => restoreBlock b t) s = { s with sec.upd := u, sec.image := i } ∧ u.num = s.sec.upd.num ∧ u.journal = s.sec.upd.journal ∧ ∀ b, i.get b = if b ∈ l then s.sec.upd.journal.get b else s.sec.image.get b := by
  induction l generalizing s with
  | nil => exact ⟨_, _, rfl, rfl, rfl, fun b => by simp⟩
  | cons a l ih =>
    obtain ⟨u, i, e, n, j, im⟩ := ih (restoreBlock a s)
    refine ⟨u, i, by rw [List.foldl_cons, e]; rfl, n, j, fun b => ?_⟩
    rw [im b]
    have e1 : (restoreBlock a s).sec.upd.journal = s.sec.upd.journal := rfl
    have e2 : (restoreBlock a s).sec.image = s.sec.image.set a (s.sec.upd.journal.get a) := rfl
    rw [e1, e2, Bank.get_set]
    by_cases h : a = b
    · subst h; simp
    · have h' : ¬ b = a := fun x => h x.symm
      simp [h, h']

theorem undone_eq (s : State) : ∃ u w i, updateUndone (restoreAll s) = { s with sec.upd := u, sec.wrap := w, sec.image := i } ∧ u.st = .idle ∧ u.man = none ∧ u.saved = [] ∧ u.written = [] ∧ u.num = s.sec.upd.num ∧ w = s.sec.wrap.set (1 - s.sec.dir.wrap) {} ∧ ∀ b, b < 192 → i.get b = s.blockWas b := by
  obtain ⟨u, i, e, n, _, im⟩ := foldl_restore ((List.range 192).filter fun b => s.sec.upd.saved.contains b).reverse s
  have e2 : restoreAll s = { s with sec.upd := { u with saved := [], written := [] }, sec.image := i } := by unfold restoreAll; dsimp only; rw [e]; rfl
  rw [e2]
  refine ⟨_, _, _, rfl, rfl, rfl, rfl, rfl, n, rfl, fun b hb => ?_⟩
  show i.get b = _
  rw [im b]
  simp only [State.blockWas, List.mem_reverse, List.mem_filter, List.mem_range, hb, true_and]

theorem rollback_done (s : State) (h : s.cold.coldHeld = false) : AppReset 5 s (rollback s) ∧ (rollback s).sec.upd.st = .idle ∧ (rollback s).sec.upd.man = none ∧ (rollback s).sec.upd.written = [] ∧ (rollback s).sec.wrap = s.sec.wrap.set (1 - s.sec.dir.wrap) {} ∧ (rollback s).sec.dir = s.sec.dir ∧ (rollback s).fuses = s.fuses ∧ ∀ b, b < 192 → (rollback s).sec.image.get b = s.blockWas b := by
  obtain ⟨u, w, i, e, h1, h2, h3, h4, h5, h6, h7⟩ := undone_eq s
  unfold rollback
  rw [e]
  have a := appReset_done 5 { s with sec.upd := u, sec.wrap := w, sec.image := i } h
  have b := appReset_sec 5 { s with sec.upd := u, sec.wrap := w, sec.image := i }
  refine ⟨⟨a.held, a.cause, a.count, a.contexts, a.engines, a.girth, a.memory, a.sealed, a.trial, a.registers, a.outputs⟩, ?_, ?_, ?_, ?_, ?_, b.2, ?_⟩ <;> rw [b.1]
  · exact h1
  · exact h2
  · exact h4
  · exact h6
  · exact h7

theorem inReset_cold (s : State) (h : s.inReset = false) : s.cold.coldHeld = false := by
  simp [State.inReset] at h; exact h.2

theorem erase_sec (s : State) : (eraseSpare s).fuses = s.fuses ∧ (eraseSpare s).sec.upd = s.sec.upd ∧ (eraseSpare s).sec.dir = s.sec.dir ∧ (eraseSpare s).trial = s.trial := ⟨rfl, rfl, rfl, rfl⟩

theorem reply_trial (c i : Nat) (st : Status) (s : State) : (tackReply c i st s).trial = s.trial := by
  unfold tackReply pairPut; split <;> simp [State.updPair]

theorem underGrants_ok (ks : List Nat) (f : State → Status × State) (s u v : State) (hr : girthRun 14 ks s = some u) (e1 : (f s).1 = .ok) (e2 : f u = (.ok, v)) : underGrants 14 ks f s = (.ok, v) := by
  cases ks with
  | nil => simp only [girthRun, Option.some.injEq] at hr; subst hr; simp [underGrants, e2]
  | cons k l => simp [underGrants, e1, hr, e2]
/-- The journal slot written and the block programmed. -/

def blockJournal (b : BlockData) (s : State) : State :=
  imageSet b.blk b.readBack (upLogHash .saved b.blk s.sec.upd.written.length (s.sec.image.get b.blk) (s.updUpd fun u =>
      { u with st := .copying, saved := u.saved ++ [b.blk], journal := u.journal.set b.blk (s.sec.image.get b.blk) }))

def blockSaved (b : BlockData) (s : State) : State :=
  upLogHash .written b.blk s.sec.upd.written.length b.hash ((blockJournal b s).updUpd fun u => { u with written := u.written ++ [b.blk] })

theorem manifestBlocks_sec (v s : State) (h : v.sec = s.sec) (m : Manifest) : v.manifestBlocks m = s.manifestBlocks m := by
  unfold State.manifestBlocks State.blockWas; rw [h]

theorem nextBlock_sec (v s : State) (h : v.sec = s.sec) : v.nextBlock = s.nextBlock := by
  unfold State.nextBlock; rw [h]; simp only [manifestBlocks_sec v s h]

theorem blockWanted_sec (v s : State) (h : v.sec = s.sec) (b : Nat) : v.blockWanted b = s.blockWanted b := by
  unfold State.blockWanted; rw [h]

theorem updatePrepare_facts (m : Manifest) (v : State) : (updatePrepare m v).sec.upd.num = v.sec.upd.num + 1 ∧ (updatePrepare m v).sec.upd.st = (if (v.manifestBlocks m).isEmpty then .written else .prepared) ∧ (updatePrepare m v).sec.upd.man = some m ∧ (updatePrepare m v).sec.wrap = v.sec.wrap.set (1 - v.sec.dir.wrap) { seq := (v.sec.wrap.get v.sec.dir.wrap).seq + 1, under := some (wrapKeys v.fuses.huk (v.mrOf 0) (v.mrAfter 2 1 m.comps) (v.mrAfter 3 2 m.comps) ((v.sec.wrap.get v.sec.dir.wrap).seq + 1)), slots := persistOf v.app.tack.slots } := by
  unfold updatePrepare
  dsimp only
  generalize (v.manifestBlocks m).isEmpty = z
  cases z <;> exact ⟨rfl, rfl, rfl, rfl⟩

theorem journal_was (b : BlockData) (s : State) (k : Nat) (h8 : s.sec.upd.saved.contains b.blk = false) : (blockJournal b s).blockWas k = s.blockWas k := by
  have e : (blockJournal b s).sec.upd.saved = s.sec.upd.saved ++ [b.blk] := rfl
  have e2 : (blockJournal b s).sec.upd.journal = s.sec.upd.journal.set b.blk (s.sec.image.get b.blk) := rfl
  have e3 : (blockJournal b s).sec.image = s.sec.image.set b.blk b.readBack := rfl
  unfold State.blockWas
  rw [e, e2, e3, Bank.get_set, Bank.get_set]
  by_cases h : b.blk = k
  · subst h; simp at h8; simp [h8]
  · have h' : ¬ k = b.blk := fun x => h x.symm
    simp [h, h']

theorem confirm_facts (m : Manifest) (s : State) : (confirmUpdate m s).sec.dir.wrap = 1 - s.sec.dir.wrap ∧ (confirmUpdate m s).sec.dir.seq = s.sec.dir.seq + 1 ∧ (confirmUpdate m s).sec.dir.svn = m.svn ∧ (confirmUpdate m s).sec.dir.build = m.build ∧ (confirmUpdate m s).sec.upd.st = .idle ∧ (confirmUpdate m s).sec.upd.man = none ∧ (confirmUpdate m s).trial.active = false ∧ (confirmUpdate m s).fuses = { s.fuses with svn := if m.raiseFloor then max s.fuses.svn m.svn else s.fuses.svn, rrev := s.fuses.rrev ||| m.revoke } := by
  unfold confirmUpdate
  generalize (m.comps.any fun c => decide (c.id = 13)) = z
  cases z <;> exact ⟨rfl, rfl, rfl, rfl, rfl, rfl, rfl, rfl⟩

theorem updateBlock_ok (b : BlockData) (s : State) (m : Manifest) (hm : s.sec.upd.man = some m) (n : (decide (s.sec.upd.st ≠ .prepared) && decide (s.sec.upd.st ≠ .copying)) = false) (h3 : s.nextBlock = some b.blk) (h4 : b.hash = s.blockWanted b.blk) (h5 : b.readBack = b.hash) (h8 : s.sec.upd.saved.contains b.blk = false) :
    updateBlock b s = (
      if ((s.manifestBlocks m).find? fun k => !(s.sec.upd.written ++ [b.blk]).contains k).isSome then (.ok, blockSaved b s)
      else if b.compsOk then (.ok, upLog .allWritten 0xFFFF 0 ((blockSaved b s).updUpd fun u => { u with st := .written }))
      else (.integrity, rollback (blockSaved b s))) := by
  have w : ∀ k, (blockSaved b s).blockWas k = s.blockWas k := fun k => journal_was b s k h8
  have e : (blockSaved b s).nextBlock = (s.manifestBlocks m).find? fun k => !(s.sec.upd.written ++ [b.blk]).contains k := by
    have e1 : (blockSaved b s).manifestBlocks m = s.manifestBlocks m := by simp only [State.manifestBlocks, w]
    have e2 : (blockSaved b s).sec.upd.man = some m := hm
    have e3 : (blockSaved b s).sec.upd.st = .copying := rfl
    have e4 : (blockSaved b s).sec.upd.written = s.sec.upd.written ++ [b.blk] := rfl
    simp only [State.nextBlock, e1, e2, e3, e4]
  have q : ¬ ((decide (s.sec.upd.st ≠ .prepared) && decide (s.sec.upd.st ≠ .copying)) = true) := by rw [n]; exact Bool.false_ne_true
  unfold updateBlock
  rw [if_neg q, h3, if_neg (by simp), if_neg (by simp [h4])]
  dsimp only
  rw [if_neg (by simp [h5])]
  have f : ∀ x y : State, x = y → (if x.nextBlock.isSome then ((.ok, x) : Status × State) else if b.compsOk then (.ok, upLog .allWritten 0xFFFF 0 (x.updUpd fun u => { u with st := .written })) else (.integrity, rollback x)) = (if y.nextBlock.isSome then ((.ok, y) : Status × State) else if b.compsOk then (.ok, upLog .allWritten 0xFFFF 0 (y.updUpd fun u => { u with st := .written })) else (.integrity, rollback y)) := fun x y h => by rw [h]
  refine (f _ (blockSaved b s) rfl).trans ?_
  rw [e]

/-! ### StartSequences -/

def start0 (w : Bool) (boot : BitVec 4) (s : State) : State := (atStep w 4 { s with app.clk.appHeld := false, app.clk.boot := boot, app.clk.bootStop := none, app.clk.recovery := false })

theorem rom_stop (w : Bool) (boot : BitVec 4) (b : BootChecks) (s : State) (t : State) (h : bootRomRun boot b (start0 w boot s) = (false, t)) : startFrom w boot b s = t := by
  show (if !(bootRomRun boot b (start0 w boot s)).1 then (bootRomRun boot b (start0 w boot s)).2 else _) = t; rw [h]; rfl

theorem rom_run (boot : BitVec 4) (b : BootChecks) (s : State) (h : (s.fuses.prod = true ∨ s.fuses.mfg = false) ∧ s.debugBoot boot = false ∧ s.recoveryBoot boot = false) :
    bootRomRun boot b s = (if !b.flashOk then (false, bootStop 2 .absent { s with app.tack.mr := s.app.tack.mr.set 0 (mr0Of s.fuses s.fuses.dbg) }) else if !b.dirOk then (false, bootStop 3 .integrity { s with app.tack.mr := s.app.tack.mr.set 0 (mr0Of s.fuses s.fuses.dbg) }) else
      match s.bootLoader boot b with
      | none => (false, bootStop 4 .integrity { s with app.tack.mr := s.app.tack.mr.set 0 (mr0Of s.fuses s.fuses.dbg) })
      | some k => (true, bootMeasure 1 (s.sec.loaders.get k) { s with app.tack.mr := s.app.tack.mr.set 0 (mr0Of s.fuses s.fuses.dbg) })) := by
  obtain ⟨h1, h2, h3⟩ := h
  have e : ∀ x : State, x.fuses = s.fuses → State.recoveryBoot x boot = s.recoveryBoot boot := fun x hx => by simp only [State.recoveryBoot, hx]
  have p : (!s.fuses.prod && s.fuses.mfg) = false := by rcases h1 with h | h <;> simp [h]
  unfold bootRomRun
  rw [h2]; dsimp only
  rw [e _ rfl, h3, p]; rfl

theorem start_debug (w : Bool) (boot : BitVec 4) (b : BootChecks) (s : State) (h : s.debugBoot boot = true) : ((startFrom w boot b s).app.harts.get 0).halted = true ∧ (startFrom w boot b s).app.clk.step = if w then 2 else 4 := by
  rw [rom_stop w boot b s _ (by unfold bootRomRun; exact if_pos h)]
  exact ⟨by simp [atStep], rfl⟩

theorem start_mfg (w : Bool) (boot : BitVec 4) (b : BootChecks) (s : State) (h : s.fuses.prod = false ∧ s.fuses.mfg = true ∧ s.debugBoot boot = false) : (startFrom w boot b s).app.clk.bootStop = some (1, s.freeStatus) := by
  obtain ⟨h1, h2, h3⟩ := h
  have p : (!(start0 w boot s).fuses.prod && (start0 w boot s).fuses.mfg) = true := by show (!s.fuses.prod && s.fuses.mfg) = true; simp [h1, h2]
  have q : ¬ ((start0 w boot s).debugBoot boot = true) := by show ¬ (s.debugBoot boot = true); simp [h3]
  have e : bootRomRun boot b (start0 w boot s) = (false, bootStop 1 (State.freeStatus { (start0 w boot s) with app.tack.mr := (start0 w boot s).app.tack.mr.set 0 (mr0Of s.fuses s.fuses.dbg) }) (State.used { (start0 w boot s) with app.tack.mr := (start0 w boot s).app.tack.mr.set 0 (mr0Of s.fuses s.fuses.dbg) })) := by
    unfold bootRomRun
    rw [if_neg q]; dsimp only; rw [if_pos p]; rfl
  rw [rom_stop w boot b s _ e]
  rfl

theorem start_flash (w : Bool) (boot : BitVec 4) (b : BootChecks) (s : State) (h : (s.fuses.prod = true ∨ s.fuses.mfg = false) ∧ s.debugBoot boot = false ∧ s.recoveryBoot boot = false ∧ b.flashOk = false) : (startFrom w boot b s).app.clk.bootStop = some (2, .absent) := by
  rw [rom_stop w boot b s _ ((rom_run boot b (start0 w boot s) ⟨h.1, h.2.1, h.2.2.1⟩).trans (by rw [h.2.2.2]; rfl))]
  rfl

theorem start_dir (w : Bool) (boot : BitVec 4) (b : BootChecks) (s : State) (h : (s.fuses.prod = true ∨ s.fuses.mfg = false) ∧ s.debugBoot boot = false ∧ s.recoveryBoot boot = false ∧ b.flashOk = true ∧ b.dirOk = false) : (startFrom w boot b s).app.clk.bootStop = some (3, .integrity) := by
  rw [rom_stop w boot b s _ ((rom_run boot b (start0 w boot s) ⟨h.1, h.2.1, h.2.2.1⟩).trans (by rw [h.2.2.2.1, h.2.2.2.2]; rfl))]
  rfl

theorem start_loader (w : Bool) (boot : BitVec 4) (b : BootChecks) (s : State) (h : (s.fuses.prod = true ∨ s.fuses.mfg = false) ∧ s.debugBoot boot = false ∧ s.recoveryBoot boot = false ∧ b.flashOk = true ∧ b.dirOk = true ∧ s.bootLoader boot b = none) : (startFrom w boot b s).app.clk.bootStop = some (4, .integrity) := by
  have e : (start0 w boot s).bootLoader boot b = none := h.2.2.2.2.2
  rw [rom_stop w boot b s _ ((rom_run boot b (start0 w boot s) ⟨h.1, h.2.1, h.2.2.1⟩).trans (by rw [h.2.2.2.1, h.2.2.2.2.1, e]; rfl))]
  rfl

theorem rom_recovery (w : Bool) (boot : BitVec 4) (b : BootChecks) (s : State) (h : (s.fuses.prod = true ∨ s.fuses.mfg = false) ∧ s.debugBoot boot = false ∧ s.recoveryBoot boot = true) : bootRomRun boot b (start0 w boot s) = (false, if b.recoveryOk then { (start0 w boot s) with app.tack.mr := (start0 w boot s).app.tack.mr.set 0 (mr0Of s.fuses s.fuses.dbg), app.clk.recovery := true } else bootStop 4 .integrity { (start0 w boot s) with app.tack.mr := (start0 w boot s).app.tack.mr.set 0 (mr0Of s.fuses s.fuses.dbg) }) := by
  obtain ⟨h1, h2, h3⟩ := h
  have p : (!s.fuses.prod && s.fuses.mfg) = false := by rcases h1 with h | h <;> simp [h]
  have p' : ¬ ((!(start0 w boot s).fuses.prod && (start0 w boot s).fuses.mfg) = true) := by show ¬ ((!s.fuses.prod && s.fuses.mfg) = true); simp [p]
  have q : ¬ ((start0 w boot s).debugBoot boot = true) := by show ¬ (s.debugBoot boot = true); simp [h2]
  unfold bootRomRun
  rw [if_neg q]; dsimp only; rw [if_neg p', if_pos (show (start0 w boot s).recoveryBoot boot = true from h3)]; rfl

theorem start_recovery (w : Bool) (boot : BitVec 4) (b : BootChecks) (s : State) (h : (s.fuses.prod = true ∨ s.fuses.mfg = false) ∧ s.debugBoot boot = false ∧ s.recoveryBoot boot = true ∧ b.recoveryOk = true) : (startFrom w boot b s).app.clk.recovery = true := by
  rw [rom_stop w boot b s _ (rom_recovery w boot b s ⟨h.1, h.2.1, h.2.2.1⟩), h.2.2.2]; rfl

theorem start_norecovery (w : Bool) (boot : BitVec 4) (b : BootChecks) (s : State) (h : (s.fuses.prod = true ∨ s.fuses.mfg = false) ∧ s.debugBoot boot = false ∧ s.recoveryBoot boot = true ∧ b.recoveryOk = false) : (startFrom w boot b s).app.clk.bootStop = some (4, .integrity) := by
  rw [rom_stop w boot b s _ (rom_recovery w boot b s ⟨h.1, h.2.1, h.2.2.1⟩), h.2.2.2]; rfl

abbrev Good (boot : BitVec 4) (b : BootChecks) (s : State) : Prop := (s.fuses.prod = true ∨ s.fuses.mfg = false) ∧ s.debugBoot boot = false ∧ s.recoveryBoot boot = false ∧ b.flashOk = true ∧ b.dirOk = true ∧ (s.bootLoader boot b).isSome = true

theorem rom_good (w : Bool) (boot : BitVec 4) (b : BootChecks) (s : State) (h : Good boot b s) : ∃ u, u.sec = s.sec ∧ u.cold = s.cold ∧ startFrom w boot b s = (let l := loaderRun b (atStep w 5 u); if l.1 then firmwareStart w b (atStep w 6 l.2) else l.2) := by
  obtain ⟨h1, h2, h3, h4, h5, h6⟩ := h
  obtain ⟨k, hk⟩ := Option.isSome_iff_exists.mp h6
  have e : (start0 w boot s).bootLoader boot b = some k := hk
  refine ⟨bootMeasure 1 (s.sec.loaders.get k) { (start0 w boot s) with app.tack.mr := (start0 w boot s).app.tack.mr.set 0 (mr0Of s.fuses s.fuses.dbg) }, rfl, rfl, ?_⟩
  · have r := rom_run boot b (start0 w boot s) ⟨h1, h2, h3⟩
    rw [h4, h5, e] at r
    show (if !(bootRomRun boot b (start0 w boot s)).1 then (bootRomRun boot b (start0 w boot s)).2 else (let l := loaderRun b (atStep w 5 (bootRomRun boot b (start0 w boot s)).2); if l.1 then firmwareStart w b (atStep w 6 l.2) else l.2)) = _
    rw [r]; rfl

theorem loader_on (b : BootChecks) (u : State) (h : u.sec.upd.st = .idle ∨ u.sec.upd.st = .prepared) : ∃ v, loaderRun b u = (if !b.manifestOk then (false, bootStop 6 .integrity v) else if !b.tackRoomOk then (false, bootStop 7 .integrity v) else
    if !b.cantleOk then (false, bootStop 9 .integrity (tackStart (bootMeasure 2 (v.bootHash 1) v))) else (true, bootMeasure 3 ((tackStart (bootMeasure 2 (v.bootHash 1) v)).bootHash 2) (tackStart (bootMeasure 2 (v.bootHash 1) v)))) := by
  have e : ∃ v, loaderResume (b.tackRoomOk && b.cantleOk) u = (true, v) := by
    unfold loaderResume; rcases h with h | h <;> rw [h] <;> exact ⟨_, rfl⟩
  obtain ⟨v, e⟩ := e
  refine ⟨v, ?_⟩
  unfold loaderRun; rw [e]; rfl

theorem start_undo (w : Bool) (boot : BitVec 4) (b : BootChecks) (s : State) (h : (s.fuses.prod = true ∨ s.fuses.mfg = false) ∧ s.debugBoot boot = false ∧ s.recoveryBoot boot = false ∧ b.flashOk = true ∧ b.dirOk = true ∧ (s.bootLoader boot b).isSome = true ∧ (s.sec.upd.st = .copying ∨ s.sec.upd.st = .rollback)) (hc : s.cold.coldHeld = false) : (startFrom w boot b s).app.clk.appHeld = true ∧ (startFrom w boot b s).sec.upd.st = .idle ∧ (startFrom w boot b s).sec.upd.man = none ∧ ∀ k, k < 192 → (startFrom w boot b s).sec.image.get k = s.blockWas k := by
  obtain ⟨h1, h2, h3, h4, h5, h6, h7⟩ := h
  obtain ⟨u, hs, hk, e⟩ := rom_good w boot b s ⟨h1, h2, h3, h4, h5, h6⟩
  have hu : (atStep w 5 u).sec.upd.st = .copying ∨ (atStep w 5 u).sec.upd.st = .rollback := by show u.sec.upd.st = .copying ∨ u.sec.upd.st = .rollback; rw [hs]; exact h7
  have r : loaderResume (b.tackRoomOk && b.cantleOk) (atStep w 5 u) = (false, rollback { atStep w 5 u with app.clk.appHeld := false }) := by
    unfold loaderResume; rcases hu with hu | hu <;> rw [hu]
  have r2 : loaderRun b (atStep w 5 u) = (false, rollback { atStep w 5 u with app.clk.appHeld := false }) := by
    unfold loaderRun; rw [r]; rfl
  rw [e, r2]
  have d := rollback_done { atStep w 5 u with app.clk.appHeld := false } (by show u.cold.coldHeld = false; rw [hk]; exact hc)
  obtain ⟨a, d1, d2, _, _, _, _, d7⟩ := d
  refine ⟨a.held, d1, d2, fun k hk => (d7 k hk).trans ?_⟩
  show State.blockWas u k = _
  unfold State.blockWas; rw [hs]

theorem start_manifest (w : Bool) (boot : BitVec 4) (b : BootChecks) (s : State) (h : (s.fuses.prod = true ∨ s.fuses.mfg = false) ∧ s.debugBoot boot = false ∧ s.recoveryBoot boot = false ∧ b.flashOk = true ∧ b.dirOk = true ∧ (s.bootLoader boot b).isSome = true ∧ (s.sec.upd.st = .idle ∨ s.sec.upd.st = .prepared) ∧ b.manifestOk = false) : (startFrom w boot b s).app.clk.bootStop = some (6, .integrity) := by
  obtain ⟨h1, h2, h3, h4, h5, h6, h7, g⟩ := h
  obtain ⟨u, hs, _, e⟩ := rom_good w boot b s ⟨h1, h2, h3, h4, h5, h6⟩
  have hu : (atStep w 5 u).sec.upd.st = .idle ∨ (atStep w 5 u).sec.upd.st = .prepared := by show u.sec.upd.st = .idle ∨ u.sec.upd.st = .prepared; rw [hs]; exact h7
  obtain ⟨v, ev⟩ := loader_on b (atStep w 5 u) hu
  rw [e, ev, g]; rfl

theorem start_tack (w : Bool) (boot : BitVec 4) (b : BootChecks) (s : State) (h : (s.fuses.prod = true ∨ s.fuses.mfg = false) ∧ s.debugBoot boot = false ∧ s.recoveryBoot boot = false ∧ b.flashOk = true ∧ b.dirOk = true ∧ (s.bootLoader boot b).isSome = true ∧ (s.sec.upd.st = .idle ∨ s.sec.upd.st = .prepared) ∧ b.manifestOk = true ∧ b.tackRoomOk = false) : (startFrom w boot b s).app.clk.bootStop = some (7, .integrity) := by
  obtain ⟨h1, h2, h3, h4, h5, h6, h7, g⟩ := h
  obtain ⟨u, hs, _, e⟩ := rom_good w boot b s ⟨h1, h2, h3, h4, h5, h6⟩
  have hu : (atStep w 5 u).sec.upd.st = .idle ∨ (atStep w 5 u).sec.upd.st = .prepared := by show u.sec.upd.st = .idle ∨ u.sec.upd.st = .prepared; rw [hs]; exact h7
  obtain ⟨v, ev⟩ := loader_on b (atStep w 5 u) hu
  rw [e, ev, g.1, g.2]; rfl

theorem start_cantle (w : Bool) (boot : BitVec 4) (b : BootChecks) (s : State) (h : (s.fuses.prod = true ∨ s.fuses.mfg = false) ∧ s.debugBoot boot = false ∧ s.recoveryBoot boot = false ∧ b.flashOk = true ∧ b.dirOk = true ∧ (s.bootLoader boot b).isSome = true ∧ (s.sec.upd.st = .idle ∨ s.sec.upd.st = .prepared) ∧ b.manifestOk = true ∧ b.tackRoomOk = true ∧ b.cantleOk = false) : (startFrom w boot b s).app.clk.bootStop = some (9, .integrity) := by
  obtain ⟨h1, h2, h3, h4, h5, h6, h7, g⟩ := h
  obtain ⟨u, hs, _, e⟩ := rom_good w boot b s ⟨h1, h2, h3, h4, h5, h6⟩
  have hu : (atStep w 5 u).sec.upd.st = .idle ∨ (atStep w 5 u).sec.upd.st = .prepared := by show u.sec.upd.st = .idle ∨ u.sec.upd.st = .prepared; rw [hs]; exact h7
  obtain ⟨v, ev⟩ := loader_on b (atStep w 5 u) hu
  rw [e, ev, g.1, g.2.1, g.2.2]; rfl

theorem start_done (w : Bool) (boot : BitVec 4) (b : BootChecks) (s : State) (h : (s.fuses.prod = true ∨ s.fuses.mfg = false) ∧ s.debugBoot boot = false ∧ s.recoveryBoot boot = false ∧ b.flashOk = true ∧ b.dirOk = true ∧ (s.bootLoader boot b).isSome = true ∧ (s.sec.upd.st = .idle ∨ s.sec.upd.st = .prepared) ∧ b.manifestOk = true ∧ b.tackRoomOk = true ∧ b.cantleOk = true) : (startFrom w boot b s).app.clk.step = (if w then 8 else 12) ∧ (startFrom w boot b s).app.server.ready = true := by
  obtain ⟨h1, h2, h3, h4, h5, h6, h7, g⟩ := h
  obtain ⟨u, hs, _, e⟩ := rom_good w boot b s ⟨h1, h2, h3, h4, h5, h6⟩
  have hu : (atStep w 5 u).sec.upd.st = .idle ∨ (atStep w 5 u).sec.upd.st = .prepared := by show u.sec.upd.st = .idle ∨ u.sec.upd.st = .prepared; rw [hs]; exact h7
  obtain ⟨v, ev⟩ := loader_on b (atStep w 5 u) hu
  rw [e, ev, g.1, g.2.1, g.2.2]; exact ⟨rfl, rfl⟩

end Sys2Proof.Machine
end

