-- ==== Sys2Proof/Laws/VehicleFacts.lean ====
section
/-!
SUPPORT. What operations of vehicle communication and the Skiver do, for the obligations about them.
-/
set_option Elab.async false
set_option linter.all false
namespace Sys2Proof.Machine

/-! ### VehicleConnections -/

theorem num1_set (s : State) (a b v : Nat) : (s.setNum a 1 v).num b 1 = if a = b then v % 256 else s.num b 1 := by
  simp only [State.setNum, toLE, State.setBytes, State.num, State.bytes, ofLE, State.byte, State.setByte, Bank.get_set]
  by_cases h : a = b <;> simp [h]

theorem updVc_vc (s : State) (n m : Nat) (f : V2gConn → V2gConn) : (s.updVc n f).vc m = if n = m then f (s.vc m) else s.vc m := by
  simp [State.updVc, State.vc, Bank.get_upd]

theorem updVs_vs (s : State) (n m : Nat) (f : VSess → VSess) : (s.updVs n f).vs m = if n = m then f (s.vs m) else s.vs m := by
  simp [State.updVs, State.vs, Bank.get_upd]

theorem setPhase_phase (k v : Nat) (s : State) : (setPhase k v s).phase k = v % 256 := by simp only [setPhase, State.phase, num1_set, if_true]
/-- What the end of a session does to its phase. -/

theorem end_phase (p r k : Nat) (s : State) (h : s.session p = some k) (hp : within 2 (s.phase k) 7 = true) :
    (endSession p r s).phase k = if s.phase k = 7 then 8 else 9 := by
  unfold endSession withSession
  rw [h]; dsimp only
  unfold endSlot; dsimp only
  by_cases e : s.phase k = 7
  · have n : within 2 (s.phase k) 6 = false := by rw [e]; rfl
    rw [if_neg (by rw [n]; exact Bool.false_ne_true), if_pos e, if_pos e]
    exact setPhase_phase _ _ _
  · have n : within 2 (s.phase k) 6 = true := by simp [within] at hp ⊢; omega
    rw [if_pos n, if_neg e]
    exact setPhase_phase _ _ _

/-! ### VehicleRequests -/

theorem on_ok (n k : Nat) (m : V2gMsg) (x : Proto) (f : Nat → Proto → State → State) (s : State) (h : s.session n = some k ∧ (s.vc n).up = true ∧ (s.vc n).proto = some x ∧ s.inOrder n x m = true) : onRequest n m f s = f k x s := by
  obtain ⟨h1, h2, h3, h4⟩ := h
  simp only [onRequest, h1, h2, h3, h4, Bool.not_true, Bool.false_eq_true, if_false, if_true]

theorem on_bad (n k : Nat) (m : V2gMsg) (x : Proto) (f : Nat → Proto → State → State) (s : State) (h : s.session n = some k ∧ (s.vc n).up = true ∧ (s.vc n).proto = some x ∧ s.inOrder n x m = false) : onRequest n m f s = endSession n 8 (s.updVc n fun c => { c with ans := .sequenceError, waiting := false }) := by
  obtain ⟨h1, h2, h3, h4⟩ := h
  simp only [onRequest, h1, h2, h3, h4, Bool.not_true, Bool.false_eq_true, if_false, seqError, Option.isNone_some]

theorem on_early (n k : Nat) (m : V2gMsg) (f : Nat → Proto → State → State) (s : State) (h : s.session n = some k ∧ (s.vc n).up = true ∧ (s.vc n).proto = none) : onRequest n m f s = connFail n s := by
  obtain ⟨h1, h2, h3⟩ := h
  simp [onRequest, h1, h2, h3, seqError]

theorem on_none (n : Nat) (m : V2gMsg) (f : Nat → Proto → State → State) (s : State) (h : s.session n = none ∨ (s.vc n).up = false) : onRequest n m f s = s := by
  unfold onRequest
  rcases h with h | h
  · rw [h]
  · split
    · rfl
    · simp [h]

theorem answer_vc (n : Nat) (m : V2gMsg) (a : V2gAns) (s : State) : (answer n m a s).vc n = { s.vc n with ans := a, prev := some m, waiting := false } := by
  simp [answer, updVc_vc]

theorem publish_veh (p v : Nat) (i : Int) (e : Bool) (s : State) : (publish p v i e s).app.veh = s.app.veh ∧ (publish p v i e s).app.mem = s.app.mem ∧ (publish p v i e s).app.ctx = s.app.ctx := by
  unfold publish; dsimp only
  by_cases h : [toLE 2 v, toLE 4 (ofInt 32 i), [if e then (1 : Byte) else 0]] = [s.vval (ptBase p + 9) 1, s.vval (ptBase p + 9) 2, s.vval (ptBase p + 9) 3]
  · rw [if_pos h]; exact ⟨rfl, rfl, rfl⟩
  · rw [if_neg h]; exact ⟨by simp, by simp, by simp⟩

theorem vreq_vs (p k v : Nat) (i : Int) (s : State) : (vehicleRequest p k v i s).vs k = { s.vs k with reqV := min 65535 v, reqI := clampInt (-2147483648) 2147483647 i } := by
  unfold vehicleRequest; dsimp only
  simp only [State.vs, (publish_veh _ _ _ _ _).1]; simp [State.updVs]

theorem auth_go (n k : Nat) (s : State) (h : within 5 (s.phase k) 8 = false) (hd : (s.vs k).preAuth = true ∨ (s.vs k).decided = 1) : authDecide n k s = openRecord k (answer n .authorization .ok (s.updVs k fun v => { v with method := if v.method = 0 then 4 else v.method })) := by
  have q : ((s.vs k).preAuth || decide ((s.vs k).decided = 1)) = true := by rcases hd with h | h <;> simp [h]
  unfold authDecide; dsimp only; rw [if_neg (by simp [h]), if_pos q]

theorem auth_no (n k : Nat) (s : State) (h : within 5 (s.phase k) 8 = false) (hp : (s.vs k).preAuth = false) (hd : (s.vs k).decided = 2) : authDecide n k s = endSession n 7 (answer n .authorization .failed s) := by
  unfold authDecide; dsimp only; rw [if_neg (by simp [h]), if_neg (by simp [hp, hd]), if_pos hd]

theorem auth_wait (n k : Nat) (s : State) (h : within 5 (s.phase k) 8 = false) (hp : (s.vs k).preAuth = false) (hd : (s.vs k).decided = 0) : authDecide n k s = waitFor n .authorization (s.updVs k fun v => { v with pendDec := 1 }) := by
  simp [authDecide, h, hp, hd]

/-! ### VehicleAuthorisation -/

theorem decided_waiting (n k : Nat) (u : State) (h1 : u.phase k ≠ 1) (h2 : (u.vs k).proto ≠ 1) (h3 : (u.vs k).proto ≠ 5) (h4 : (u.vc n).waiting = true) (h5 : (u.vc n).prev = some .authorization) (h6 : (u.vs k).decided ≠ 0) : decisionTaken n k u = authDecide n k u := by
  unfold decisionTaken answerWaiting; dsimp only
  rw [if_neg (by simp [h1, h2, h3]), if_neg (by simp [h1, h2, h3]), if_pos h4, if_neg (by simp [h4]), h5]
  dsimp only
  rw [if_neg h6]

theorem hostIdent_facts (k n : Nat) (s : State) : (hostIdent k s).vc n = s.vc n ∧ (hostIdent k s).phase k = s.phase k ∧ ((hostIdent k s).vs k).proto = (s.vs k).proto := by
  unfold hostIdent
  split
  · exact ⟨rfl, rfl, rfl⟩
  · refine ⟨rfl, rfl, ?_⟩
    show (State.vs (s.updVs k _) k).proto = _
    rw [updVs_vs, if_pos rfl]

/-! ### SkiverAndSequencePorts -/

theorem pendClass_pend2 (k : Nat) (hk : k < 16) (c : Ctx) (h : c.st ≠ .free) : (pendClass k c).pend.getLsbD k = true := by
  unfold pendClass; split <;> simp_all [putBit]

theorem postClass_pend2 (slot k : Nat) (hk : k < 16) (s : State) (h : (s.app.ctx.get slot).st ≠ .free) : ((postClass slot k s).app.ctx.get slot).pend.getLsbD k = true := by
  unfold postClass; rw [if_neg h]; simp only [syncCtx_same, updCtx_get, if_true]
  exact pendClass_pend2 k hk _ h

theorem setLevel_lvl (n : Nat) (b : Bool) (s : State) (h : (isReserved n || !isLevel n) = false) : ((setLevel n b s).app.bkl.src.get n).lvl = b := by
  simp [setLevel, h, State.updSrc]

theorem memPut_keep (a : Nat) (b : Byte) (s : State) : (memPut a b s).app.veh = s.app.veh ∧ (memPut a b s).app.ctx = s.app.ctx := by
  unfold memPut; split
  · split <;> exact ⟨rfl, rfl⟩
  · exact ⟨rfl, rfl⟩

theorem memPuts_keep (l : List Byte) (a : Nat) (s : State) : (memPuts a l s).app.veh = s.app.veh ∧ (memPuts a l s).app.ctx = s.app.ctx := by
  induction l generalizing a s with
  | nil => exact ⟨rfl, rfl⟩
  | cons b r ih => have := ih (a + 1) (memPut a b s); have q := memPut_keep a b s
                   exact ⟨this.1.trans q.1, this.2.trans q.2⟩

theorem dmaPut_keep (p a : Nat) (l : List Byte) (s : State) : (dmaPut p a l s).app.veh = s.app.veh ∧ (dmaPut p a l s).app.ctx = s.app.ctx := by
  unfold dmaPut; split
  · exact ⟨rfl, rfl⟩
  · exact memPuts_keep _ _ _

theorem dmaGet_keep (a n : Nat) (s : State) : (dmaGet a n s).2.app = s.app := by
  unfold dmaGet; split <;> rfl

theorem port_go (k p : Nat) (f : Nat → State → State) (s : State) (h : s.pointOfPort k = some p) : withPort k f s = f p s := by
  simp [withPort, h]

theorem port_none (k : Nat) (f : Nat → State → State) (s : State) (h : s.pointOfPort k = none) : withPort k f s = s := by
  simp [withPort, h]

theorem fault_phase (k p r j : Nat) (s : State) (h : s.session p = some j) (hp : within 4 (s.phase j) 7 = true) :
    faultStop k p r s = setpointOff p (endSession p r (s.updVp k fun v => { v with fault := true })) ∧ (faultStop k p r s).phase j = if s.phase j = 7 then 8 else 9 := by
  have pp : s.pointPhase p = s.phase j := by simp [State.pointPhase, h]
  have q : within 2 (s.phase j) 7 = true := by simp [within] at hp ⊢; omega
  have e : faultStop k p r s = setpointOff p (endSession p r (s.updVp k fun v => { v with fault := true })) := by
    unfold faultStop; rw [pp, if_pos hp]
  refine ⟨e, ?_⟩
  rw [e]
  have f := end_phase p r j (s.updVp k fun v => { v with fault := true }) h q
  have b : ∀ u : State, (setpointOff p u).phase j = u.phase j := fun u => by
    simp only [setpointOff, State.phase, State.num, State.bytes, State.byte, (publish_veh _ _ _ _ _).2.1]
  exact (b _).trans f

theorem done_facts (j : SkvJob) (e : SkvEnd) (s : State) : (j.notify = true → (s.app.ctx.get j.target).st ≠ .free → ((skvDone j e s).app.ctx.get j.target).pend.getLsbD 8 = true) ∧ (skvDone j e s).app.veh.skv.jobs = s.app.veh.skv.jobs.erase j ∧ (j.notify = false → s.app.veh.skv.cpl.length < 64 → (skvDone j e s).app.veh.skv.cpl = s.app.veh.skv.cpl ++ [(j.tag, e.status)]) := by
  unfold skvDone; dsimp only
  generalize hm : dmaPut skvPort j.resAddr (skvRecord j.tag e) (dmaPut skvPort j.spillAddr e.spill (dmaPut skvPort j.outAddr e.out s)) = u
  have k1 : u.app.veh = s.app.veh := by rw [← hm]; simp only [(dmaPut_keep _ _ _ _).1]
  have k2 : u.app.ctx = s.app.ctx := by rw [← hm]; simp only [(dmaPut_keep _ _ _ _).2]
  have ifst : ∀ a : State, ((if e.status = .ok then a else raise 449 a).app.veh = a.app.veh ∧ (if e.status = .ok then a else raise 449 a).app.ctx = a.app.ctx) := by
    intro a; split
    · exact ⟨rfl, rfl⟩
    · simp
  refine ⟨fun hn hs => ?_, ?_, fun hn hl => ?_⟩
  · rw [hn]; simp only [if_true]
    refine postClass_pend2 _ 8 (by decide) _ ?_
    rw [(ifst _).2]; show (u.app.ctx.get j.target).st ≠ _; rw [k2]; exact hs
  · cases j.notify
    · simp only [Bool.false_eq_true, if_false, skvCpl, setLevel_same]
      rw [(ifst _).1]; show u.app.veh.skv.jobs.erase j = _; rw [k1]
    · simp only [if_true, postClass_same]
      rw [(ifst _).1]; show u.app.veh.skv.jobs.erase j = _; rw [k1]
  · rw [hn]; simp only [Bool.false_eq_true, if_false, skvCpl, setLevel_same]
    rw [(ifst _).1]
    show (if 64 ≤ u.app.veh.skv.cpl.length then _ else _) = _
    rw [k1, if_neg (by omega)]
/-- What a job reads as it runs. -/

theorem run_facts2 (j : SkvJob) (r : SkvResult) (s : State) : ∃ e v, skvRun j r s = skvDone j e v ∧ v.app = s.app :=
  ⟨_, _, rfl, by rw [dmaGet_keep, dmaGet_keep]⟩

theorem can_facts (k p j : Nat) (d : List Byte) (s : State) (h3 : (s.frameFits p (frameV d) (frameI d)) = true) (h4 : d.getD 4 0 = 0) (h5 : s.phase j = 7) (h6 : frameI d ≠ 0) : vcanTake k p j 2 d s = vehicleRequest p j (frameV d) (frameI d : Int) ((s.updVp k fun v => { v with got := putBit v.got 2 true }).updVs j fun x => { x with soc := (d.getD 6 0).toNat }) := by
  have e : vcan102 k p j d (s.updVp k fun v => { v with got := putBit v.got 2 true }) = vehicleRequest p j (frameV d) (frameI d : Int) ((s.updVp k fun v => { v with got := putBit v.got 2 true }).updVs j fun x => { x with soc := (d.getD 6 0).toNat }) := by
    have h5' : ((s.updVp k fun v => { v with got := putBit v.got 2 true }).updVs j fun x => { x with soc := (d.getD 6 0).toNat }).phase j = 7 := h5
    unfold vcan102; dsimp only
    rw [h4, if_neg (by simp), if_neg (by rw [h5']; simp), if_neg h6]
  unfold vcanTake; dsimp only
  rw [h3]
  simp only [ne_eq, not_true_eq_false, decide_false, Bool.or_true, if_true]
  rw [e]
  have q : (vehicleRequest p j (frameV d) (frameI d : Int) ((s.updVp k fun v => { v with got := putBit v.got 2 true }).updVs j fun x => { x with soc := (d.getD 6 0).toNat })).phase j = 7 := by
    unfold vehicleRequest; dsimp only
    simp only [State.phase, State.num, State.bytes, State.byte, (publish_veh _ _ _ _ _).2.1]
    exact h5
  unfold seqAdvance
  rw [if_pos (by rw [q]; rfl)]

end Sys2Proof.Machine
end

