-- ==== Sys2Proof/Laws/SealedFacts.lean ====
section
/-!
SUPPORT. What operations of the metrology, billing, panels and readers do, for the obligations about them.
-/
set_option Elab.async false
set_option linter.all false
namespace Sys2Proof.Machine

/-! ### MetrologyChannels -/

theorem die_on (f : State → State) (s : State) (h : s.die.running = true) : whenDie f s = f s := by simp [whenDie, h]

theorem putBit_same (m : BitVec 8) (i : Nat) : (putBit m i true).getLsbD i = decide (i < 8) := by
  by_cases h : i < 8
  · simp [putBit, BitVec.getLsbD_or, h]
  · simp [putBit, h, BitVec.getLsbD_of_ge m i (by omega)]

theorem pls_get (s : State) (k j : Nat) (f : Pulse → Pulse) : (s.updPls k f).die.met.pls.get j = if k = j then f (s.die.met.pls.get j) else s.die.met.pls.get j := by
  simp [State.updPls, Bank.get_upd]

theorem chan_get (s : State) (k j : Nat) (f : Chan → Chan) : (s.updChan k f).die.met.chan.get j = if k = j then f (s.die.met.chan.get j) else s.die.met.chan.get j := by
  simp [State.updChan, Bank.get_upd]

theorem elem_get (s : State) (k j : Nat) (f : Elem → Elem) : (s.updElem k f).die.met.elem.get j = if k = j then f (s.die.met.elem.get j) else s.die.met.elem.get j := by
  simp [State.updElem, Bank.get_upd]

theorem users_chan (c : Nat) (f : Elem → Elem) (s : State) : (updUsers c f s).die.met.chan = s.die.met.chan := by
  unfold updUsers
  generalize s.chanElems c = l
  exact foldl_keep (fun t e => t.updElem e f) (fun t : State => t.die.met.chan = s.die.met.chan) (fun a t h => h) l s rfl

theorem logAdd_met (k : Nat) (d : List Byte) (s : State) : (logAdd k d s).die.met = s.die.met ∧ (logAdd k d s).die.cur = s.die.cur := by
  unfold logAdd; split <;> exact ⟨rfl, rfl⟩

theorem fault_keep (e : Nat) (s : State) : (elemFault e s).die.met.chan = s.die.met.chan := by
  unfold elemFault; split <;> rfl

theorem fail_chan (c : Nat) (s : State) : (chanFail c s).die.met.chan = (s.updChan c fun x => { x with check := 3, suspectBy := none }).die.met.chan := by
  unfold chanFail; dsimp only; rw [(logAdd_met _ _ _).1]
  generalize s.chanElems c = l
  exact foldl_keep _ (fun t : State => t.die.met.chan = (s.updChan c fun x => { x with check := 3, suspectBy := none }).die.met.chan) (fun a t h => (fault_keep a t).trans h) _ _ rfl

theorem fail_check (c : Nat) (s : State) : ((chanFail c s).die.met.chan.get c).check = 3 ∧ ((chanFail c s).die.met.chan.get c).modfail = (s.die.met.chan.get c).modfail := by
  rw [fail_chan, chan_get, if_pos rfl]; exact ⟨rfl, rfl⟩

theorem overload_chan (c : Nat) (code : BitVec 12) (l : List (BitVec 12)) (s : State) :
    (adcOverload c code l s).die.met.chan = (s.updChan c fun x =>
    { x with gain := if s.rangeMode c = 0 && decide (1 < (s.die.met.chan.get c).gain) then dropGain x.gain (x.sarFitted code).natAbs else x.gain,
             drops := if s.rangeMode c = 0 && decide (1 < (s.die.met.chan.get c).gain) then stick 0xFFFFFFFF x.drops 1 else x.drops,
             replaced := stick 0xFFFFFFFF x.replaced (if s.rangeMode c = 0 && decide (1 < (s.die.met.chan.get c).gain) then l.take 3 else l).length,
             overs := stick 0xFFFFFFFF x.overs (if s.rangeMode c = 2 then 0 else ((if s.rangeMode c = 0 && decide (1 < (s.die.met.chan.get c).gain) then l.take 3 else l).filter sarClipped).length), low := 0, loud := true }).die.met.chan := by
  unfold adcOverload; dsimp only
  generalize (if (s.rangeMode c = 0 && decide (1 < (s.die.met.chan.get c).gain)) = true then l.take 3 else l) = m
  by_cases hm : m.isEmpty = true
  · rw [if_pos hm]
  · rw [if_neg hm, users_chan]

theorem check_on (k c : Nat) (p : Bool) (s : State) (h2 : s.checker c = some k) (h3 : s.snum (0x5100 + c) 1 ≠ 0) (h4 : s.highMember c = false) (h5 : (s.die.met.chan.get c).check ≠ 3) :
    shadowCheck k c p s = match (s.die.met.chan.get c).suspectBy with
    | some j =>
      if p then shadowDisagree j (s.updChan c fun x => { x with check := 1, suspectBy := none })
      else shadowAgree j (chanFail c s)
    | none =>
      if p then shadowAgree k (s.updChan c fun x => { x with check := 1 })
      else s.updChan c fun x => { x with check := 2, suspectBy := some k } := by
  have q : (decide (s.checker c ≠ some k) || decide (s.snum (0x5100 + c) 1 = 0) || s.highMember c || decide ((s.die.met.chan.get c).check = 3)) = false := by simp [h2, h3, h4, h5]
  unfold shadowCheck; simp only [q, Bool.false_eq_true, if_false] <;> rfl

theorem disagree_facts (j c : Nat) (u : State) : (shadowDisagree j u).die.met.chan = u.die.met.chan ∧ (shadowDisagree j u).die.met.disagree.get j = u.die.met.disagree.get j + 1 ∧ (1 ≤ u.die.met.disagree.get j → (shadowDisagree j u).die.met.retired.getLsbD j = decide (j < 8)) := by
  unfold shadowDisagree; dsimp only
  split
  · rename_i g
    exact ⟨rfl, by simp, fun g2 => by omega⟩
  · simp only [(logAdd_met _ _ _).1]
    exact ⟨by trivial, by simp, fun g2 => putBit_same _ _⟩

/-! ### MetrologyCyclesAndSeal -/

theorem recs_reg (s : State) (p : Nat) (f : PointBill → PointBill) (k : Nat) (g : Rec → Rec) : (s.updPt p f).die.cur.reg = s.die.cur.reg ∧ (s.updRec k g).die.cur.reg = s.die.cur.reg := ⟨rfl, rfl⟩

abbrev RK (s t : State) : Prop := t.die.cur.reg = s.die.cur.reg ∧ t.die.met = s.die.met ∧ t.die.legal.mtk = s.die.legal.mtk ∧ t.die.obj = s.die.obj ∧ t.die.pf = s.die.pf

theorem RK.refl (s : State) : RK s s := ⟨rfl, rfl, rfl, rfl, rfl⟩

theorem RK.trans {a b c : State} (h : RK a b) (g : RK b c) : RK a c := ⟨g.1.trans h.1, g.2.1.trans h.2.1, g.2.2.1.trans h.2.2.1, g.2.2.2.1.trans h.2.2.2.1, g.2.2.2.2.trans h.2.2.2.2⟩

theorem rk_pt (p : Nat) (f : PointBill → PointBill) (s : State) : RK s (s.updPt p f) := ⟨rfl, rfl, rfl, rfl, rfl⟩

theorem rk_rec (k : Nat) (g : Rec → Rec) (s : State) : RK s (s.updRec k g) := ⟨rfl, rfl, rfl, rfl, rfl⟩

theorem log_rk (k : Nat) (d : List Byte) (s : State) : RK s (logAdd k d s) := by unfold logAdd; split <;> exact RK.refl _

theorem send_rk (c : Nat) (p : List Byte) (s : State) : RK s (dieSend c p s) := ⟨by simp, by simp, by simp, by simp, by simp⟩

theorem purse_rk (k : Nat) (s : State) : RK s (purseCheck k s) := by
  unfold purseCheck
  cases s.bill k with
  | none => exact RK.refl _
  | some r =>
    dsimp only
    split
    · exact RK.refl _
    · have a : RK s (if r.purse.told10 || decide (r.purse.credited < s.purseLeft r * 10) then s else dieSend 7 ([0xFF, 3, BitVec.ofNat 8 r.point] ++ toLE 8 k ++ toLE 4 (s.purseLeft r)) (s.updRec k fun r => { r with purse.told10 := true })) := by
        split
        · exact RK.refl _
        · exact RK.trans ⟨rfl, rfl, rfl, rfl, rfl⟩ (send_rk _ _ _)
      generalize (if r.purse.told10 || decide (r.purse.credited < s.purseLeft r * 10) then s else dieSend 7 ([0xFF, 3, BitVec.ofNat 8 r.point] ++ toLE 8 k ++ toLE 4 (s.purseLeft r)) (s.updRec k fun r => { r with purse.told10 := true })) = u at *
      have b : RK s (if s.purseLeft r = 0 && !r.purse.told0 then dieSend 7 ([0xFF, 4, BitVec.ofNat 8 r.point] ++ toLE 8 k) (u.updRec k fun r => { r with purse.told0 := true }) else u) := by
        split
        · exact a.trans (RK.trans ⟨rfl, rfl, rfl, rfl, rfl⟩ (send_rk _ _ _))
        · exact a
      generalize (if s.purseLeft r = 0 && !r.purse.told0 then dieSend 7 ([0xFF, 4, BitVec.ofNat 8 r.point] ++ toLE 8 k) (u.updRec k fun r => { r with purse.told0 := true }) else u) = w at *
      split
      · exact b.trans ⟨rfl, rfl, rfl, rfl, rfl⟩
      · exact b

theorem ms_rk (p t : Nat) (i e : Int) (s : State) : RK s (routeMs p t i e s) := by
  unfold routeMs; dsimp only; split
  · exact (rk_pt _ _ _).trans (rk_pt _ _ _)
  · exact (((rk_pt _ _ _).trans (rk_pt _ _ _)).trans (rk_rec _ _ _)).trans (rk_rec _ _ _)

theorem route_rk (p : Nat) (b : Bool) (l : List Int) (s : State) : RK s (routePoint p b l s) := by
  unfold routePoint; dsimp only
  have a : RK s ((l.zipIdx).foldl (fun u x => if x.1 = 0 then u else if b then routeMs p (s.die.legal.mtk - l.length + x.2) 0 (-x.1) u else routeMs p (s.die.legal.mtk - l.length + x.2) x.1 0 u) s) := by
    generalize l.zipIdx = z
    exact foldl_keep _ (fun t : State => RK s t) (fun a t h => by
      split
      · exact h
      · split
        · exact h.trans (ms_rk _ _ _ _ _)
        · exact h.trans (ms_rk _ _ _ _ _)) _ _ (RK.refl _)
  generalize (l.zipIdx).foldl (fun u x => if x.1 = 0 then u else if b then routeMs p (s.die.legal.mtk - l.length + x.2) 0 (-x.1) u else routeMs p (s.die.legal.mtk - l.length + x.2) x.1 0 u) s = u at *
  cases u.openRec p with
  | none => exact a
  | some r => exact a.trans (purse_rk _ _)

theorem ref_keep (e ch : Nat) (v : Int) (a b : List Int) (n : Nat) (s : State) : (refCycle e ch v a b n s).die.cur = s.die.cur ∧ (refCycle e ch v a b n s).die.met.elem = s.die.met.elem ∧ (refCycle e ch v a b n s).die.pf = s.die.pf := by
  unfold refCycle; split <;> exact ⟨rfl, rfl, rfl⟩

theorem rms_keep (e : Nat) (r : CycleRaw) (c : CycleData) (s : State) : (cycleRms e r c s).die.cur = s.die.cur ∧ (cycleRms e r c s).die.met.elem = s.die.met.elem ∧ (cycleRms e r c s).die.pf = s.die.pf := by
  unfold cycleRms; dsimp only
  have a := ref_keep e (s.vChan e) c.v (s.cycleV e r) (r.x.map (·.1)) (s.cycleOvers e r).1 s
  generalize refCycle e (s.vChan e) c.v (s.cycleV e r) (r.x.map (·.1)) (s.cycleOvers e r).1 s = u at *
  have b := ref_keep e (s.iChan e) c.i (s.cycleI e r) (r.x.map (·.2)) (s.cycleOvers e r).2 u
  exact ⟨b.1.trans a.1, b.2.1.trans a.2.1, b.2.2.trans a.2.2⟩

theorem sync_pls (s : State) : ∃ p, pulseSyncAll s = { s with die.met.pls := p } := by
  unfold pulseSyncAll
  refine foldl_keep (fun t k => pulseSync k t) (fun t : State => ∃ p, t = { s with die.met.pls := p }) (fun a t h => ?_) _ _ ⟨s.die.met.pls, rfl⟩
  obtain ⟨p, rfl⟩ := h
  show ∃ q, pulseSync a _ = _
  unfold pulseSync; dsimp only
  split
  · exact ⟨p, rfl⟩
  · exact ⟨_, rfl⟩

theorem apply_keep (w : ParamWrite) (s : State) : (applyParam w s).die.cur = s.die.cur ∧ (applyParam w s).die.met.elem = s.die.met.elem ∧ (applyParam w s).die.pf = s.die.pf := by
  unfold applyParam; split <;> exact ⟨rfl, rfl, rfl⟩

theorem boundary_facts (e : Nat) (s : State) : (cycleBoundary e s).die.cur = s.die.cur ∧ ((cycleBoundary e s).die.met.elem.get e).last = (s.die.met.elem.get e).last ∧ ((cycleBoundary e s).die.met.elem.get e).test = (s.die.met.elem.get e).test ∧ ((cycleBoundary e s).die.met.elem.get e).status = (s.die.met.elem.get e).status ∧ ((cycleBoundary e s).die.met.elem.get e).due = false ∧ ((cycleBoundary e s).die.met.elem.get e).block = (s.die.met.elem.get e).block ∧ (cycleBoundary e s).die.pf = s.die.pf := by
  unfold cycleBoundary; dsimp only
  have a : ∀ (l : List ParamWrite) (u : State), (l.foldl (fun t w => applyParam w t) u).die.cur = u.die.cur ∧ (l.foldl (fun t w => applyParam w t) u).die.met.elem = u.die.met.elem ∧ (l.foldl (fun t w => applyParam w t) u).die.pf = u.die.pf := by
    intro l u
    exact foldl_keep _ (fun t : State => t.die.cur = u.die.cur ∧ t.die.met.elem = u.die.met.elem ∧ t.die.pf = u.die.pf) (fun w t h => ⟨(apply_keep w t).1.trans h.1, (apply_keep w t).2.1.trans h.2.1, (apply_keep w t).2.2.trans h.2.2⟩) _ _ ⟨rfl, rfl, rfl⟩
  have b := a (s.die.met.toApply.filter (s.concerns e)) { s with die.met.toApply := s.die.met.toApply.filter fun w => !s.concerns e w }
  generalize (s.die.met.toApply.filter (s.concerns e)).foldl (fun t w => applyParam w t) { s with die.met.toApply := s.die.met.toApply.filter fun w => !s.concerns e w } = u at *
  obtain ⟨b1, b2, b3⟩ := b
  have b2' : u.die.met.elem = s.die.met.elem := b2
  refine ⟨b1, ?_, ?_, ?_, ?_, ?_, b3⟩ <;> rw [elem_get, if_pos rfl] <;> (try rfl) <;> rw [b2']

theorem route_facts (e : Nat) (c : CycleData) (s : State) : (routeCycle e c s).die.cur.reg = (if s.creeps e c || s.quiesced e then s.die.cur.reg else addCycle (6 * e) c s.die.cur.reg) ∧ ((routeCycle e c s).die.met.elem.get e).test = (if s.quiesced e && !s.creeps e c then addCycle 0 c (s.die.met.elem.get e).test else (s.die.met.elem.get e).test) ∧ ((routeCycle e c s).die.met.elem.get e).block = (s.die.met.elem.get e).block ∧ (routeCycle e c s).die.pf = s.die.pf := by
    unfold routeCycle
    cases s.creeps e c
    · simp only [Bool.false_eq_true, if_false, Bool.false_or, Bool.not_false, Bool.and_true]
      cases s.quiesced e
      · simp only [Bool.false_eq_true, if_false]
        split
        · rename_i p hp
          have k := route_rk p (decide (c.p < 0)) c.eaMs { s with die.cur.reg := addCycle (6 * e) c s.die.cur.reg }
          exact ⟨k.1, by rw [k.2.1], by rw [k.2.1], k.2.2.2.2⟩
        · exact ⟨rfl, rfl, rfl, rfl⟩
      · simp only [if_true]
        refine ⟨rfl, ?_, ?_, rfl⟩ <;> rw [elem_get, if_pos rfl]
    · simp

theorem close_eq (e : Nat) (r : CycleRaw) (b h : Bool) (s : State) (h1 : s.elemOn e = true) (h2 : s.die.met.refFail = false) :
    closeCycle e r b h s = (cycleBoundary e (cycleRms e r (s.cycleOf e r) ((routeCycle e (s.cycleOf e r) (pulseSyncAll s)).updElem e fun x => { x with status := s.cycleStatus e (s.cycleOf e r) b h, last := some (s.cycleOf e r, s.die.legal.mtk), lastIdx := rawEnd r }))).used := by
  unfold closeCycle; rw [h1, h2]; rfl

theorem close_off (e : Nat) (r : CycleRaw) (b h : Bool) (s : State) (g : s.elemOn e = false ∨ s.die.met.refFail = true) : closeCycle e r b h s = s := by
  have q : (!s.elemOn e || s.die.met.refFail) = true := by rcases g with g | g <;> simp [g]
  unfold closeCycle; rw [q]; rfl

theorem close_facts2 (e : Nat) (r : CycleRaw) (b h : Bool) (s : State) (h1 : s.elemOn e = true) (h2 : s.die.met.refFail = false) :
    (closeCycle e r b h s).die.cur.reg = (if s.creeps e (s.cycleOf e r) || s.quiesced e then s.die.cur.reg else addCycle (6 * e) (s.cycleOf e r) s.die.cur.reg) ∧
    ((closeCycle e r b h s).die.met.elem.get e).last = some (s.cycleOf e r, s.die.legal.mtk) ∧
    ((closeCycle e r b h s).die.met.elem.get e).status = s.cycleStatus e (s.cycleOf e r) b h ∧
    ((closeCycle e r b h s).die.met.elem.get e).test = (if s.quiesced e && !s.creeps e (s.cycleOf e r) then addCycle 0 (s.cycleOf e r) (s.die.met.elem.get e).test else (s.die.met.elem.get e).test) ∧
    ((closeCycle e r b h s).die.met.elem.get e).block = (s.die.met.elem.get e).block ∧ (closeCycle e r b h s).die.pf = s.die.pf := by
  rw [close_eq e r b h s h1 h2]
  generalize s.cycleOf e r = c
  generalize s.cycleStatus e c b h = st
  obtain ⟨p, hp⟩ := sync_pls s
  rw [hp]
  have rf := route_facts e c { s with die.met.pls := p }
  rw [show State.creeps { s with die.met.pls := p } e c = s.creeps e c from rfl, show State.quiesced { s with die.met.pls := p } e = s.quiesced e from rfl] at rf
  generalize routeCycle e c { s with die.met.pls := p } = u at *
  have f := boundary_facts e (cycleRms e r c (u.updElem e fun x => { x with status := st, last := some (c, s.die.legal.mtk), lastIdx := rawEnd r }))
  have g := rms_keep e r c (u.updElem e fun x => { x with status := st, last := some (c, s.die.legal.mtk), lastIdx := rawEnd r })
  rw [g.1, g.2.1, elem_get, if_pos rfl] at f
  have us : ∀ v : State, v.used.die = v.die := fun v => rfl
  rw [us]
  exact ⟨(congrArg Ledger.reg f.1).trans rf.1, f.2.1, f.2.2.2.1, f.2.2.1.trans rf.2.1, f.2.2.2.2.2.1.trans rf.2.2.1, f.2.2.2.2.2.2.trans (g.2.2.trans rf.2.2.2)⟩

theorem open_tests (z : BitVec 144) (l : List Nat) (s : State) (j : Nat) : ((l.foldl (fun t e => t.updElem e fun x => { x with test := ⟨0, []⟩ }) s).die.met.elem.get j).test = if j ∈ l then ⟨0, []⟩ else (s.die.met.elem.get j).test := by
  induction l generalizing s with
  | nil => simp
  | cons a l ih =>
    simp only [List.foldl_cons, ih, elem_get, List.mem_cons]
    by_cases h : j ∈ l
    · simp [h]
    · by_cases g : a = j
      · subst g; simp
      · simp [h, g, Ne.symm g]

theorem denied_hv (s : State) (r : Role) (h : s.dieRole r = false ∨ r ≠ .verifier) : (!s.dieRole r || decide (r ≠ .verifier)) = true := by
  rcases h with h | h <;> simp [h]

theorem ver_hv (s : State) (r : Role) (h : s.dieRole r = true ∧ r = .verifier) : (!s.dieRole r || decide (r ≠ .verifier)) = false := by
  rw [h.1, h.2]; rfl

theorem commit_facts2 (w z : BitVec 144) (s : State) (h4 : s.die.met.sealSel = some z) (h5 : s.staged.paramsOk = true) : (sealCommit w s).2.die.met.sealSel = none ∧ (sealCommit w s).2.die.met.staged = [] ∧ (sealCommit w s).2.die.met.calib = stick 0xFFFFFFFF s.die.met.calib 1 ∧ (sealCommit w s).2.die.cur.reg = s.die.cur.reg := by
  let P : State → Prop := fun t => t.die.met.sealSel = none ∧ t.die.met.staged = [] ∧ t.die.met.calib = stick 0xFFFFFFFF s.die.met.calib 1 ∧ t.die.cur.reg = s.die.cur.reg
  have log : ∀ k d (t : State), P t → P (logAdd k d t) := fun k d t h => by
    have q := logAdd_met k d t
    exact ⟨by rw [q.1]; exact h.1, by rw [q.1]; exact h.2.1, by rw [q.1]; exact h.2.2.1, by rw [q.2]; exact h.2.2.2⟩
  have ap : ∀ w (t : State), P t → P (applyParam w t) := fun w t h => by unfold applyParam; split <;> exact h
  have el : ∀ e f (t : State), P t → P (t.updElem e f) := fun e f t h => h
  have rc : ∀ c (t : State), P t → P (recheck c t) := fun c t h => by
    unfold recheck
    apply log
    exact h
  show P (sealCommit w s).2
  unfold sealCommit; rw [h4]; dsimp only; rw [h5]
  simp only [Bool.not_true, Bool.false_eq_true, if_false]
  refine foldl_keep _ P (fun a u hu => rc a u hu) _ _ ?_
  apply log
  refine foldl_keep _ P (fun a u hu => el _ _ u hu) _ _ ?_
  refine foldl_keep _ P (fun a u hu => ap a u hu) _ _ ?_
  exact ⟨rfl, rfl, rfl, rfl⟩

/-! ### BillingRecordsAndNotices -/

theorem find_map (l : List Rec) (k : Nat) (g : Rec → Rec) (hg : ∀ r, r.serial = k → (g r).serial = k) :
    (l.map fun r => if r.serial = k then g r else r).find? (·.serial = k) = (l.find? (·.serial = k)).map g := by
  induction l with
  | nil => rfl
  | cons a l ih =>
    by_cases h : a.serial = k
    · simp [h, hg a h]
    · simp [h, ih]

theorem bill_upd (s : State) (k : Nat) (g : Rec → Rec) (hg : ∀ r, r.serial = k → (g r).serial = k) : (s.updRec k g).bill k = (s.bill k).map g := by
  simp only [State.bill, State.updRec, State.mapRecs]; exact find_map _ _ _ hg

theorem bill_serial (s : State) (k : Nat) (r : Rec) (h : s.bill k = some r) : r.serial = k := by
  have := List.find?_some h; simpa using this

theorem bill_of_cur {s t : State} (h : t.die.cur = s.die.cur) (k : Nat) : t.bill k = s.bill k := by simp only [State.bill, h]

theorem reply_cur (g : Word) (st : Status) (c : Nat) (r : Option Rec) (s : State) : (recReply g st c r s).die.cur = s.die.cur ∧ (recReply g st c r s).die.legal = s.die.legal := by
  simp [recReply]

theorem notice_cur (g : Word) (st : Status) (s : State) : (noticeReply g st s).die.cur = s.die.cur ∧ (noticeReply g st s).die.noticed = s.die.noticed := by
  simp [noticeReply]

theorem close_bill (k c : Nat) (s : State) (r : Rec) (h : s.bill k = some r) (ho : r.st = .open) : ∃ r2, (closeRec k c id s).bill k = some r2 ∧ r2.st = .closing ∧ r2.reason = c ∧ r2.mtkClose = s.die.legal.mtk ∧ r2.ltClose = s.die.legal.lt ∧ r2.since = none ∧ r2.impOpen = r.impOpen ∧ r2.tImp = r.tImp ∧ r2.tExp = r.tExp := by
  have hs := bill_serial s k r h
  have tm : ∀ (x : Rec) a b, (x.time a b).serial = x.serial ∧ (x.time a b).reason = x.reason ∧ (x.time a b).mtkClose = x.mtkClose ∧ (x.time a b).ltClose = x.ltClose ∧ (x.time a b).impOpen = x.impOpen ∧ (x.time a b).tImp = x.tImp ∧ (x.time a b).tExp = x.tExp := by
    intro x a b; unfold Rec.time; split <;> exact ⟨rfl, rfl, rfl, rfl, rfl, rfl, rfl⟩
  have q := tm { r with reason := c, mtkClose := s.die.legal.mtk, ltClose := s.die.legal.lt, offset := s.die.legal.offset, calib := s.die.met.calib } s.die.cur.tariff s.die.legal.mtk
  unfold closeRec
  rw [h]; dsimp only
  rw [if_neg (by simp [ho])]
  rw [bill_upd, h]
  rotate_left
  · intro _ _; exact q.1.trans hs
  refine ⟨_, rfl, rfl, q.2.1, q.2.2.1, q.2.2.2.1, rfl, q.2.2.2.2.1, q.2.2.2.2.2.1, q.2.2.2.2.2.2⟩

theorem dieSend_cur (c : Nat) (p : List Byte) (s : State) : (dieSend c p s).die.cur = s.die.cur := by simp

theorem objReply_cur (k : Word) (o : Nat) (st : Status) (i j f n m : Nat) (d : List Byte) (s : State) : (objReply k o st i j f n m d s).die.cur = s.die.cur := by simp

/-! ### LegalTimeCalendarAndTokens -/

theorem log_cur (k : Nat) (d : List Byte) (s : State) : (logAdd k d s).die.cur = s.die.cur := by unfold logAdd; split <;> rfl

theorem log_saved (k : Nat) (d : List Byte) (s : State) : (logAdd k d s).die.saved = s.die.saved := by unfold logAdd; split <;> rfl

theorem switch_legal (s : State) : (switchTariff s).die.legal = s.die.legal := by unfold switchTariff; dsimp only; split <;> rfl

theorem close_legal (a b : BitVec 16) (s : State) : (closeInterval a b s).die.legal = s.die.legal := by
  unfold closeInterval; dsimp only

theorem close_int (a b : BitVec 16) (s : State) : (closeInterval a b s).die.cur.intStart = s.die.legal.mtk ∧ (closeInterval a b s).die.cur.intLen = (if s.die.legal.lt % 3600000 = 0 then s.snum 0x5480 1 else s.die.cur.intLen) ∧ (closeInterval a b s).die.cur.intEnd = intervalEnd s.die.legal.lt (if s.die.legal.lt % 3600000 = 0 then s.snum 0x5480 1 else s.die.cur.intLen) := by
  unfold closeInterval; dsimp only; exact ⟨rfl, rfl, rfl⟩

theorem switch_int (s : State) : (switchTariff s).die.cur.intStart = s.die.cur.intStart ∧ (switchTariff s).die.cur.intLen = s.die.cur.intLen ∧ (switchTariff s).die.cur.intEnd = s.die.cur.intEnd := by unfold switchTariff; dsimp only; split <;> exact ⟨rfl, rfl, rfl⟩

theorem switch_tariff (s : State) : (switchTariff s).die.cur.tariff = calTariff s.die.legal.active s.die.legal.lt s.die.legal.offset := by
  unfold switchTariff; dsimp only; split
  · rename_i h; exact h.symm
  · rfl

theorem settle_legal (s : State) : (settle s).die.legal = s.die.legal := by
  unfold settle; rw [switch_legal]; split
  · exact close_legal _ _ _
  · rfl

theorem settle_tariff (s : State) : (settle s).die.cur.tariff = calTariff s.die.legal.active s.die.legal.lt s.die.legal.offset := by
  unfold settle; rw [switch_tariff]; split
  · rw [close_legal]
  · rfl

theorem log_off (k : Nat) (d : List Byte) (s : State) : (logAdd k d s).die.legal.chgDone = s.die.legal.chgDone ∧ (logAdd k d s).die.legal.lt = s.die.legal.lt ∧ (logAdd k d s).die.legal.ltStat = s.die.legal.ltStat ∧ (logAdd k d s).die.legal.mtk = s.die.legal.mtk := by unfold logAdd; split <;> exact ⟨rfl, rfl, rfl, rfl⟩

theorem new_offset (k : Nat) (m : Int) (s : State) : (newOffset k m s).die.legal.offset = m := by
  unfold newOffset; split
  · rename_i h; exact h.symm
  · simp only [switch_legal]

theorem new_done (k : Nat) (m : Int) (s : State) : (newOffset k m s).die.legal.chgDone = s.die.legal.chgDone := by
  unfold newOffset; split
  · rfl
  · simp only [switch_legal, log_off]

theorem new_time (k : Nat) (m : Int) (s : State) : (newOffset k m s).die.legal.lt = s.die.legal.lt ∧ (newOffset k m s).die.legal.ltStat = s.die.legal.ltStat ∧ (newOffset k m s).die.legal.mtk = s.die.legal.mtk := by
  unfold newOffset; split
  · exact ⟨rfl, rfl, rfl⟩
  · simp only [switch_legal, log_off]; exact ⟨trivial, trivial, trivial⟩

theorem act_facts (s : State) : (activate s).die.legal.active = s.die.legal.passive ∧ (activate s).die.legal.passiveSt = 0 ∧ (activate s).die.legal.passive = [] := by
  unfold activate; simp only [switch_legal]; exact ⟨trivial, trivial, trivial⟩

theorem due_time (s : State) : (activateDue s).die.legal.lt = s.die.legal.lt ∧ (activateDue s).die.legal.ltStat = s.die.legal.ltStat ∧ (activateDue s).die.legal.mtk = s.die.legal.mtk := by
  unfold activateDue activate; split
  · simp only [switch_legal, log_off]; exact ⟨trivial, trivial, trivial⟩
  · exact ⟨rfl, rfl, rfl⟩

theorem settle_low (s : State) : (settle s).logLow = s.logLow := by unfold State.logLow State.logFree; rw [settle_legal]

theorem settle_role (s : State) (r : Role) : (settle s).dieRole r = s.dieRole r := by unfold State.dieRole; rw [settle_legal]

theorem settle_sum (s : State) : (settle s).stepSum = s.stepSum := by unfold State.stepSum; rw [settle_legal]

theorem off_time (s : State) : (offsetDue s).die.legal.lt = s.die.legal.lt ∧ (offsetDue s).die.legal.ltStat = s.die.legal.ltStat ∧ (offsetDue s).die.legal.mtk = s.die.legal.mtk := by
  unfold offsetDue; split
  · exact ⟨rfl, rfl, rfl⟩
  · exact new_time _ _ _

theorem lt_eq (r : Role) (v : Nat) (s : State) : ltSet r v s =
    if !(s.dieRole r && (r = .operator || r = .verifier)) then (.denied, s)
    else if (v : Int) - s.die.legal.lt = 0 then (.ok, s)
    else if !(r = .verifier || s.die.legal.ltStat.getLsbD 0) && decide (60000 < s.stepSum + ((v : Int) - s.die.legal.lt).natAbs) then (.denied, s)
    else if s.logLow then (.limit, s)
    else (.ok, stepLt v (if (r = .verifier || s.die.legal.ltStat.getLsbD 0) then logAdd 1 (toLE 8 s.die.legal.lt ++ toLE 8 v ++ [BitVec.ofNat 8 (roleCode r), BitVec.ofNat 8 (b2n (s.die.legal.ltStat.getLsbD 0))]) (settle s) else { logAdd 1 (toLE 8 s.die.legal.lt ++ toLE 8 v ++ [BitVec.ofNat 8 (roleCode r), BitVec.ofNat 8 (b2n (s.die.legal.ltStat.getLsbD 0))]) (settle s) with die.legal.steps := ((logAdd 1 (toLE 8 s.die.legal.lt ++ toLE 8 v ++ [BitVec.ofNat 8 (roleCode r), BitVec.ofNat 8 (b2n (s.die.legal.ltStat.getLsbD 0))]) (settle s)).die.legal.mtk, ((v : Int) - s.die.legal.lt).natAbs) :: (logAdd 1 (toLE 8 s.die.legal.lt ++ toLE 8 v ++ [BitVec.ofNat 8 (roleCode r), BitVec.ofNat 8 (b2n (s.die.legal.ltStat.getLsbD 0))]) (settle s)).die.legal.steps })) := by
  unfold ltSet
  dsimp only; rw [settle_legal, settle_role, settle_sum, settle_low]

theorem step_facts (v : Nat) (u : State) : (stepLt v u).die.legal.lt = v ∧ (stepLt v u).die.legal.ltStat.getLsbD 0 = false := by
  unfold stepLt; simp only [off_time, due_time, switch_legal]; exact ⟨by trivial, by simp [putBit]⟩

theorem lt_q (r : Role) (s : State) (v : Nat) (h5 : r = .verifier ∨ s.die.legal.ltStat.getLsbD 0 = true ∨ s.stepSum + ((v : Int) - s.die.legal.lt).natAbs ≤ 60000) : (!(decide (r = .verifier) || s.die.legal.ltStat.getLsbD 0) && decide (60000 < s.stepSum + ((v : Int) - s.die.legal.lt).natAbs)) = false := by
  rw [← Bool.not_eq_true]; intro g
  simp only [Bool.and_eq_true, Bool.not_eq_true', Bool.or_eq_false_iff, decide_eq_true_eq, decide_eq_false_iff_not] at g
  rcases h5 with h | h | h
  · exact g.1.1 h
  · rw [g.1.2] at h; cases h
  · exact absurd h (Nat.not_le.2 g.2)

theorem lt_r (r : Role) (s : State) (h2 : s.dieRole r = true) (h3 : r = .operator ∨ r = .verifier) : (!(s.dieRole r && (decide (r = .operator) || decide (r = .verifier)))) = false := by
  rw [h2]; rcases h3 with h | h <;> rw [h] <;> rfl

theorem lt_facts (r : Role) (v : Nat) (s : State) (h2 : s.dieRole r = true) (h3 : r = .operator ∨ r = .verifier) (h4 : (v : Int) ≠ s.die.legal.lt) (h5 : r = .verifier ∨ s.die.legal.ltStat.getLsbD 0 = true ∨ s.stepSum + ((v : Int) - s.die.legal.lt).natAbs ≤ 60000) (h6 : s.logLow = false) : (ltSet r v s).2.die.legal.lt = v ∧ (ltSet r v s).2.die.legal.ltStat.getLsbD 0 = false := by
  rw [lt_eq, lt_r r s h2 h3, if_neg (by simp), if_neg (by omega), lt_q r s v h5, if_neg (by simp), h6, if_neg (by simp)]
  exact step_facts _ _

theorem lt_same (r : Role) (v : Nat) (s : State) (h2 : s.dieRole r = true) (h3 : r = .operator ∨ r = .verifier) (h4 : (v : Int) = s.die.legal.lt) : ltSet r v s = (.ok, s) := by
  rw [lt_eq, lt_r r s h2 h3, if_neg (by simp), if_pos (by omega)]

theorem lt_low (r : Role) (v : Nat) (s : State) (h2 : s.dieRole r = true) (h3 : r = .operator ∨ r = .verifier) (h4 : (v : Int) ≠ s.die.legal.lt) (h5 : r = .verifier ∨ s.die.legal.ltStat.getLsbD 0 = true ∨ s.stepSum + ((v : Int) - s.die.legal.lt).natAbs ≤ 60000) (h6 : s.logLow = true) : ltSet r v s = (.limit, s) := by
  rw [lt_eq, lt_r r s h2 h3, if_neg (by simp), if_neg (by omega), lt_q r s v h5, if_neg (by simp), h6, if_pos rfl]

theorem lt_denied (r : Role) (v : Nat) (s : State) (h : s.dieRole r = false ∨ ¬ (r = .operator ∨ r = .verifier) ∨ ((v : Int) ≠ s.die.legal.lt ∧ r ≠ .verifier ∧ s.die.legal.ltStat.getLsbD 0 = false ∧ 60000 < s.stepSum + ((v : Int) - s.die.legal.lt).natAbs)) : ltSet r v s = (.denied, s) := by
  rw [lt_eq]
  by_cases g : (!(s.dieRole r && (decide (r = .operator) || decide (r = .verifier)))) = true
  · rw [if_pos g]
  · rw [if_neg g]
    simp only [Bool.not_eq_true, Bool.not_eq_false', Bool.and_eq_true, Bool.or_eq_true, decide_eq_true_eq] at g
    rcases h with h | h | ⟨a, b, c, d⟩
    · rw [g.1] at h; cases h
    · exact absurd g.2 h
    · rw [if_neg (by omega), if_pos (by simp only [c, decide_eq_false b, decide_eq_true d]; rfl)]

theorem stage_legal (i j o n : Nat) (d : List Byte) (s : State) : (stagePart i j o n d s).2.2.die.legal = s.die.legal := by
  unfold stagePart; dsimp only
  repeat' (first | rfl | split)

def StP (m l : Nat) (t : State) : Prop := t.die.running = true ∧ t.die.inReset = false ∧ t.die.legal.mtk = m ∧ t.die.legal.lt = l

theorem startElems_eq (f : State) : startElems f = (fun w : State => { w with die.met.chan := w.die.met.chan.updRange 144 fun _ c => { c with low := 0, loud := false, hBand := none } }) ((List.range 128).foldl (fun t e => t.updElem e fun x => { test := x.test }) f) := rfl

theorem st_chan (m l : Nat) (w : State) (c : Bank Chan) (k : StP m l w) : StP m l { w with die.met.chan := c } := ⟨k.1, k.2.1, k.2.2.1, k.2.2.2⟩

theorem st_fold (m l : Nat) (w : State) (k : StP m l w) (xs : List Nat) : StP m l (xs.foldl (fun t e => t.updElem e fun x => { test := x.test }) w) := by
  induction xs generalizing w with
  | nil => exact k
  | cons a xs ih => exact ih _ ⟨k.1, k.2.1, k.2.2.1, k.2.2.2⟩

theorem st_el (m l : Nat) (f : State) (h : StP m l f) : StP m l (startElems f) := by
  rw [startElems_eq]; exact st_chan m l _ _ (st_fold m l f h _)

theorem start_tail (th : Bool) (m l n : Nat) (s2 : State) (ws : List ParamWrite) (d3 d15 : List Byte) (g : State) (hg : g = { commit (startElems (logAdd 15 d15 ((List.range 64).foldl (fun t p => creditExpire p t) (sealAbandon (offsetDue (activateDue (switchTariff (if th then ws.foldl (fun t w => applyParam w t) (startFresh th m l s2) else logAdd 3 d3 (ws.foldl (fun t w => applyParam w t) (startFresh th m l s2)))))))))) with die.pfSaved := false }) : g.die.running = true ∧ g.die.inReset = false ∧ g.die.pfSaved = false ∧ g.die.saved = g.die.cur ∧ g.die.legal.mtk = m ∧ g.die.legal.lt = l := by
  have log : ∀ k d (t : State), (StP m l) t → (StP m l) (logAdd k d t) := fun k d t h => by unfold logAdd; split <;> exact h
  have sw : ∀ t : State, (StP m l) t → (StP m l) (switchTariff t) := fun t h => by unfold switchTariff; dsimp only; split <;> exact h
  have ap : ∀ w (t : State), (StP m l) t → (StP m l) (applyParam w t) := fun w t h => by unfold applyParam; split <;> exact h
  have no : ∀ k o (t : State), (StP m l) t → (StP m l) (newOffset k o t) := fun k o t h => by
    unfold newOffset; split
    · exact h
    · exact sw _ (log _ _ _ h)
  have od : ∀ t : State, (StP m l) t → (StP m l) (offsetDue t) := fun t h => by
    unfold offsetDue; split
    · exact h
    · exact no _ _ _ h
  have ad : ∀ t : State, (StP m l) t → (StP m l) (activateDue t) := fun t h => by
    unfold activateDue; split
    · exact sw _ (log _ _ _ h)
    · exact h
  have sa : ∀ t : State, (StP m l) t → (StP m l) (sealAbandon t) := fun t h => by
    unfold sealAbandon; split
    · exact h
    · exact log _ _ _ h
  have ce : ∀ p (t : State), (StP m l) t → (StP m l) (creditExpire p t) := fun p t h => by
    unfold creditExpire; split
    · exact h
    · split
      · exact h
      · have q : ∀ c x (u : State), (StP m l) u → (StP m l) (dieSend c x u) := fun c x u hu => by
          refine ⟨?_, ?_, ?_, ?_⟩
          · rw [show (dieSend c x u).die.running = u.die.running from by simp]; exact hu.1
          · rw [show (dieSend c x u).die.inReset = u.die.inReset from by simp]; exact hu.2.1
          · rw [show (dieSend c x u).die.legal = u.die.legal from by simp]; exact hu.2.2.1
          · rw [show (dieSend c x u).die.legal = u.die.legal from by simp]; exact hu.2.2.2
        exact q _ _ _ (log _ _ _ h)
  have h9 : ∀ u, (StP m l) u → (StP m l) (startElems u) := fun f h => st_el m l f h
  have ap2 : ∀ (ll : List ParamWrite) (u : State), (StP m l) u → (StP m l) (ll.foldl (fun t w => applyParam w t) u) := fun ll u hu => foldl_keep _ (StP m l) (fun w t h => ap w t h) _ _ hu
  have h3 : (StP m l) (startFresh th m l s2) := by unfold startFresh; exact ⟨rfl, rfl, rfl, rfl⟩
  have h5 : (StP m l) (if th then ws.foldl (fun t w => applyParam w t) (startFresh th m l s2) else logAdd 3 d3 (ws.foldl (fun t w => applyParam w t) (startFresh th m l s2))) := by
    split
    · exact ap2 _ _ h3
    · exact log _ _ _ (ap2 _ _ h3)
  have h7 := foldl_keep (fun t p => creditExpire p t) (StP m l) (fun p u hu => ce p u hu) (List.range 64) _ (sa _ (od _ (ad _ (sw _ h5))))
  have h8 := h9 _ (log 15 d15 _ h7)
  rw [hg]
  have c : ∀ u : State, (StP m l) u → (StP m l) { commit u with die.pfSaved := false } := fun u hu => ⟨hu.1, hu.2.1, hu.2.2.1, hu.2.2.2⟩
  have h10 := c _ h8
  exact ⟨h10.1, h10.2.1, rfl, rfl, h10.2.2.1, h10.2.2.2⟩

theorem start_facts2 (b : Bool) (s : State) : (dieStart b s).die.running = true ∧ (dieStart b s).die.inReset = false ∧ (dieStart b s).die.pfSaved = false ∧ (dieStart b s).die.saved = (dieStart b s).die.cur ∧ (dieStart b s).die.legal.mtk = (if b && !s.die.legal.stopped then s.die.legal.mtk else s.die.saved.mtk) ∧ (dieStart b s).die.legal.lt = (if b && !s.die.legal.stopped then s.die.legal.lt else s.die.saved.lt) := by
  refine start_tail (b && !s.die.legal.stopped) _ _ 0 ?s2 ?ws ?d3 ?d15 _ ?hg
  case hg => unfold dieStart; with_reducible rfl

/-! ### PanelSequencesAndFrames -/

theorem flush_key (n : Nat) (s : State) : (linkFlush .sealed n s).die.link.key = s.die.link.key := by
  induction n generalizing s with
  | zero => rfl
  | succ n ih =>
    simp only [linkFlush]
    split
    · rfl
    · split
      · rw [ih]; simp [linkCount, State.updLink]
      · rfl

theorem offer_key (c : Nat) (g : Word) (p : List Byte) (s : State) : (linkOffer .sealed c g p s).die.link.key = s.die.link.key := by
  unfold linkOffer; split
  · rfl
  · rw [flush_key]; rfl

theorem panelTo_panels (m : Nat) (st : PanelSt) (s : State) : (panelTo m st s).die.panels = s.die.panels.upd m fun x => { x with st := st } := by
  unfold panelTo panelNotice
  have h : ∀ c p, (dieSend c p (s.updPanel m fun x => { x with st := st })).die.panels =
      (s.updPanel m fun x => { x with st := st }).die.panels := fun c p => by simp
  simp only [displayCheck, State.mapRecs, State.used, h]
  rfl

theorem panelTo_key2 (m : Nat) (st : PanelSt) (s : State) : (panelTo m st s).die.link.key = s.die.link.key := by
  unfold panelTo panelNotice displayCheck State.mapRecs State.used
  exact offer_key _ _ _ _

theorem panelTo_up (m : Nat) (st : PanelSt) (s : State) : (panelTo m st s).linkUp = s.linkUp := by
  simp only [State.linkUp, panelTo_key2, panelTo_same]

theorem stop_mid (m : Nat) (s : State) : ((psqDrive m 7 false (clearFrames m (psqDrive m 8 false s))).die.panels.get m).st = (s.panel m).st ∧ ((psqDrive m 7 false (clearFrames m (psqDrive m 8 false s))).die.panels.get m).clears = (s.panel m).clears + 2 := by
  simp only [psqDrive_same]
  simp [clearFrames, State.panel, State.updPanel]

theorem stopped_st (m : Nat) (s : State) (h : (s.panel m).st ≠ .stopping) : ((panelStopped m s).panel m).st = (s.panel m).st := by
  have e := stop_mid m s
  unfold panelStopped
  generalize psqDrive m 7 false (clearFrames m (psqDrive m 8 false s)) = u at e ⊢
  rw [← e.1] at h ⊢
  simp [State.panel, State.updPanel, h]

theorem stopped_off (m : Nat) (s : State) (h : (s.panel m).st = .stopping) : ((panelStopped m s).panel m).st = .off ∧ ((panelStopped m s).panel m).clears = (s.panel m).clears + 2 := by
  have e := stop_mid m s
  unfold panelStopped
  generalize psqDrive m 7 false (clearFrames m (psqDrive m 8 false s)) = u at e ⊢
  rw [← e.1] at h
  simp [State.panel, State.updPanel, h, panelTo_panels]
  exact e.2

theorem orderly_st (m : Nat) (s : State) (h : (s.panel m).st ≠ .stopping) : ((orderlyStop m s).panel m).st = (s.panel m).st := by
  unfold orderlyStop; split
  · exact stopped_st m s h
  · simp [State.panel, State.updPanel]

theorem fail_st (m : Nat) (s : State) : ((panelFail m s).panel m).st = .failed := by
  unfold panelFail
  have h := panelTo_st m .failed ((girthWithdraw (fun r => r.port = 21 && r.kind = 6 && r.unit = m) s).updPanel m fun x => { x with rearm := false, wait := .none, retry := false, newGeom := none, faulty := 0 })
  dsimp only
  rw [orderly_st]
  · exact h
  · rw [h]; decide

theorem submit_same (p : Nat) (c : Option Nat) (k u h : Nat) (s : State) : (girthSubmit p c k u h s).2.die = s.die ∧ (girthSubmit p c k u h s).2.power = s.power := by
  have a : (girthAccept p c k u h s).2.1.die = s.die ∧ (girthAccept p c k u h s).2.1.power = s.power := by
    unfold girthAccept; dsimp only
    (repeat' split) <;> exact ⟨rfl, rfl⟩
  unfold girthSubmit; dsimp only
  split
  · simp only [countEvents_same]; exact a
  · exact a

theorem request_panel (m : Nat) (s : State) : ((panelRequest m s).panel m) = { s.panel m with wait := .clear, retry := decide ((girthSubmit 21 none 6 m 0 s).1 = .busy) } ∧ (panelRequest m s).power = s.power ∧ (panelRequest m s).die.obj = s.die.obj := by
  simp [panelRequest, State.panel, State.updPanel, (submit_same 21 none 6 m 0 s).1, (submit_same 21 none 6 m 0 s).2]

def Elig (m : Nat) (s : State) : Prop := s.power.pfin = false ∧ ((s.panel m).st = .off ∨ ((s.panel m).st = .failed ∧ (s.panel m).rearm = true))

theorem panelTo_app (m : Nat) (st : PanelSt) (s : State) : (panelTo m st s).app = (panelTo m st s).app ∧ (panelTo m st s).power = s.power := ⟨rfl, by simp⟩

theorem enable_facts (m : Nat) (s : State) (h : s.power.pfin = false ∧ ((s.panel m).st = .off ∨ ((s.panel m).st = .failed ∧ (s.panel m).rearm = true))) : ((panelEnableSet m s).panel m).st = .starting ∧ ((panelEnableSet m s).panel m).wait = .none ∧ (panelEnableSet m s).linkUp = s.linkUp ∧ (panelEnableSet m s).power = s.power ∧ (panelEnableSet m s).app.lane = s.app.lane := by
  unfold panelEnableSet
  have q : (!s.power.pfin && (decide ((s.panel m).st = .off) || (decide ((s.panel m).st = .failed) && (s.panel m).rearm))) = true := by
    rw [h.1]; rcases h.2 with g | g
    · simp [g]
    · simp [g.1, g.2]
  simp only [q, if_true]
  refine ⟨panelTo_st _ _ _, ?_, ?_, ?_, ?_⟩
  · simp [State.panel, panelTo_panels, State.updPanel]
  · rw [panelTo_up]; rfl
  · simp [State.updPanel, State.setSobj]
  · unfold panelTo panelNotice displayCheck State.mapRecs State.used
    obtain ⟨x, hx⟩ := linkOffer_sealed_eq 8 0 [0xFF, 17, BitVec.ofNat 8 m, 0, BitVec.ofNat 8 m, BitVec.ofNat 8 (panelCode ((((s.setSobj (30720 + m) 1 [1]).updPanel m fun x => { x with wait := .none, retry := false, faulty := 0 }).updPanel m fun x => { x with st := .starting }).panel m).st), (((s.setSobj (30720 + m) 1 [1]).updPanel m fun x => { x with wait := .none, retry := false, faulty := 0 }).updPanel m fun x => { x with st := .starting }).freeBits 8] (((s.setSobj (30720 + m) 1 [1]).updPanel m fun x => { x with wait := .none, retry := false, faulty := 0 }).updPanel m fun x => { x with st := .starting })
    dsimp only [dieSend]
    rw [hx]; rfl

theorem enable_set (m : Nat) (s : State) (h : s.power.pfin = true ∨ ((s.panel m).st ≠ .off ∧ ¬ ((s.panel m).st = .failed ∧ (s.panel m).rearm = true))) : panelEnableSet m s = s.setSobj (0x7800 + m) 1 [1] := by
  have q : (!s.power.pfin && (decide ((s.panel m).st = .off) || (decide ((s.panel m).st = .failed) && (s.panel m).rearm))) = false := by
    rcases h with h | ⟨h, g⟩
    · rw [h]; rfl
    · rw [decide_eq_false h]
      have : (decide ((s.panel m).st = .failed) && (s.panel m).rearm) = false := by
        rw [Bool.eq_false_iff]; intro hh; simp only [Bool.and_eq_true, decide_eq_true_eq] at hh; exact g hh
      rw [this]; simp
  unfold panelEnableSet; simp only [q, Bool.false_eq_true, if_false]

theorem start_go (m : Nat) (b : Bool) (s : State) (h1 : ((panelEnableSet m s).panel m).st = .starting) (h2 : ((panelEnableSet m s).panel m).wait = .none) (h3 : (panelEnableSet m s).linkUp = true) :
    panelStart m b s = if b then panelRequest m (psqDrive m 7 true (panelEnableSet m s)) else panelFail m (psqDrive m 7 true (panelEnableSet m s)) := by
  unfold panelStart; dsimp only; rw [if_neg (by simp [h1, h2, h3])]

theorem psq_panel (m : Nat) (w : BitVec 4) (b : Bool) (s : State) (k : Nat) : (psqDrive m w b s).panel k = s.panel k := by simp [State.panel]

theorem start_wait (m : Nat) (s : State) (h1 : ((panelEnableSet m s).panel m).st = .starting) : ((panelRequest m (psqDrive m 7 true (panelEnableSet m s))).panel m).st = .starting ∧ ((panelRequest m (psqDrive m 7 true (panelEnableSet m s))).panel m).wait = .clear := by
  rw [(request_panel m _).1, psq_panel]; exact ⟨h1, rfl⟩

theorem disable_go (m : Nat) (s : State) (h : (s.panel m).st = .on ∨ (s.panel m).st = .starting) : panelDisable m s = orderlyStop m (panelTo m .stopping ((girthWithdraw (fun r => r.port = 21 && r.kind = 6 && r.unit = m) (s.setSobj (0x7800 + m) 1 [0])).updPanel m fun x => { x with wait := .none, retry := false, newGeom := none })) := by
  have q : (decide ((s.panel m).st = .on) || decide ((s.panel m).st = .starting)) = true := by rcases h with h | h <;> rw [h] <;> rfl
  unfold panelDisable; simp only [q, if_true]

theorem disable_mid (m : Nat) (s : State) : (panelTo m .stopping ((girthWithdraw (fun r => r.port = 21 && r.kind = 6 && r.unit = m) (s.setSobj (0x7800 + m) 1 [0])).updPanel m fun x => { x with wait := .none, retry := false, newGeom := none })).linkUp = s.linkUp ∧ ((panelTo m .stopping ((girthWithdraw (fun r => r.port = 21 && r.kind = 6 && r.unit = m) (s.setSobj (0x7800 + m) 1 [0])).updPanel m fun x => { x with wait := .none, retry := false, newGeom := none })).panel m).clears = (s.panel m).clears := by
  refine ⟨?_, ?_⟩
  · rw [panelTo_up]
    simp [State.linkUp, State.updPanel, State.setSobj]
  · simp [State.panel, panelTo_panels, State.updPanel]

theorem upd_const {α : Type} [DecidableEq α] (b : Bank α) (k : Nat) (f : α → α) : b.upd k f = b.upd k fun _ => f (b.get k) := by
  simp [Bank.upd]

theorem frame_run (m k : Nat) (l : List Nat) (s : State) (h2 : (s.panel m).st = .on) (h3 : (s.panel m).wait ≠ .stop) : ∃ x : Panel, frameStart m k l s = (if 3 ≤ x.faulty then panelFail m (s.updPanel m fun _ => x) else s.updPanel m fun _ => x) ∧ x.st = .on ∧ x.frames = ((s.panel m).frames + 1) % 2 ^ 32 ∧ x.faulty = (if 2 < k ∨ 16 < l.length then (s.panel m).faulty + 1 else 0) ∧ x.loopBad = stick 0xFFFFFFFF (s.panel m).loopBad k ∧ x.badLines = stick 0xFFFFFFFF (s.panel m).badLines l.length := by
  refine ⟨(fun x : Panel => let y := frameLines (s.panelH m) (decide (s.pobj m 9 = 1)) (blinkAge { x with halfRate := decide (s.pobj m 9 = 1), driveBand := s.die.met.band })
      { y with
        frames := (y.frames + 1) % 2 ^ 32, faulty := if 2 < k ∨ 16 < l.length then x.faulty + 1 else 0,
        loopBad := stick 0xFFFFFFFF y.loopBad k, badLines := stick 0xFFFFFFFF y.badLines l.length,
        lines := y.lines.updAll l fun _ l => { l with redraw := true } }) (s.panel m), ?_, h2, rfl, rfl, rfl, rfl⟩
  unfold frameStart
  rw [if_neg h3, if_neg (by rw [h2]; decide)]
  have u : ∀ f : Panel → Panel, s.updPanel m f = s.updPanel m fun _ => f (s.panel m) := fun f => by
    unfold State.updPanel State.panel; rw [upd_const]
  have g : ∀ x : Panel, (s.updPanel m fun _ => x).panel m = x := fun x => by simp [State.panel, State.updPanel]
  dsimp only
  rw [u, g]
  simp only [Bool.or_eq_true, decide_eq_true_eq]

theorem roll_panels (m : Nat) (s : State) : (rolloverCheck m s).die.panels = s.die.panels := by
  unfold rolloverCheck; split
  · rfl
  · dsimp only; split
    · have h : ∀ k d (u : State), (logAdd k d u).die.panels = u.die.panels := fun k d u => by unfold logAdd; split <;> rfl
      rw [h]; rfl
    · rfl

/-! ### OverlayEntriesAndKeypad -/

theorem ov_panel (g : Word) (o m : Nat) (r : Status × State) (k : Nat) : (ovReply g o m r).panel k = r.2.panel k := by simp [ovReply, State.panel]

theorem foldset_other (l : List Nat) (f : Nat → Nat) (v : Nat → Byte) (b : Bank Byte) (j : Nat) (h : ∀ i ∈ l, f i ≠ j) : (l.foldl (fun b i => b.set (f i) (v i)) b).get j = b.get j := by
  induction l generalizing b with
  | nil => rfl
  | cons a l ih =>
    rw [List.foldl_cons, ih _ (fun i hi => h i (List.mem_cons_of_mem _ hi)), Bank.get_set, if_neg (h a List.mem_cons_self)]

theorem foldset (n x : Nat) (v : Nat → Byte) (b : Bank Byte) (i : Nat) (hi : i < n) : ((List.range n).foldl (fun b i => b.set (x + i) (v i)) b).get (x + i) = v i := by
  induction n with
  | zero => omega
  | succ n ih =>
    rw [List.range_succ, List.foldl_append, List.foldl_cons, List.foldl_nil, Bank.get_set]
    by_cases h : i = n
    · subst h; simp
    · rw [if_neg (by omega), ih (by omega)]

theorem range_add_nodup (y h : Nat) : ((List.range h).map (y + ·)).Nodup := by
  refine List.Pairwise.map _ ?_ List.nodup_range
  intro a b hab; show y + a ≠ y + b; omega

theorem put_get (m x y w h : Nat) (v : Nat → Nat → Byte) (s : State) (i k : Nat) (hi : i < w) (hk : k < h) :
    ((((putRect m x y w h v s).panel m).lines.get (y + k)).mem.get (x + i)) = v i k ∧ (((putRect m x y w h v s).panel m).lines.get (y + k)).due = true := by
  simp only [putRect, State.panel, State.updPanel, Bank.get_upd_same]
  rw [Bank.get_updAll _ (range_add_nodup y h), if_pos (List.mem_map.mpr ⟨k, List.mem_range.mpr hk, rfl⟩)]
  refine ⟨?_, rfl⟩
  dsimp only
  rw [Nat.add_sub_cancel_left]
  exact foldset w x (fun i => v i k) _ i hi

theorem due_panel (m : Nat) (e : Byte) (s : State) : ((entryDue m e s).panel m).palette = (s.panel m).palette ∧ ((entryDue m e s).panel m).blink = (s.panel m).blink := by
  simp [entryDue, State.panel, State.updPanel]

theorem pal_fold (m f : Nat) (l : List (BitVec 24)) (n : Nat) (s : State) (j : Nat) :
    ((((l.zipIdx n).foldl (fun t c => entryDue m (BitVec.ofNat 8 (f + c.2)) (t.updPanel m fun x => { x with palette := x.palette.set (f + c.2) c.1 })) s).panel m).palette.get j) =
      if f + n ≤ j ∧ j < f + n + l.length then l.getD (j - (f + n)) 0 else (s.panel m).palette.get j := by
  induction l generalizing n s with
  | nil => simp <;> omega
  | cons a l ih =>
    rw [List.zipIdx_cons, List.foldl_cons, ih, (due_panel _ _ _).1]
    simp only [State.panel, State.updPanel, Bank.get_upd_same, Bank.get_set, List.length_cons]
    by_cases h1 : f + n = j
    · rw [if_neg (by omega), if_pos h1, if_pos (by omega), ← h1]; simp
    · by_cases h2 : f + n ≤ j ∧ j < f + n + (l.length + 1)
      · rw [if_pos (by omega), if_pos h2]
        have : j - (f + n) = (j - (f + (n + 1))) + 1 := by omega
        rw [this]; rfl
      · rw [if_neg (by omega), if_neg h1, if_neg h2]

/-! ### ReaderChannels -/

theorem rd_upd (s : State) (n : Nat) (f : Reader → Reader) : (s.updRd n f).rd n = f (s.rd n) := by simp [State.rd, State.updRd]

theorem rd_used (s : State) (n : Nat) : s.used.rd n = s.rd n := rfl

theorem rd_evt (n i : Nat) (s : State) : (rdEvt n i s).rd n = { s.rd n with evt := setEvt (s.rd n).evt i } := by
  simp [rdEvt, State.rd, State.updRd]

theorem rd_evt_part (n m i : Nat) (s : State) : ∃ e, (rdEvt m i s).rd n = { s.rd n with evt := e } := by
  by_cases h : m = n
  · subst h; exact ⟨_, rd_evt _ _ _⟩
  · exact ⟨(s.rd n).evt, by simp [rdEvt, State.rd, State.updRd, Bank.get_upd, h]⟩

theorem auth_rd (u : List Byte) (s : State) (n : Nat) : (cardAuth u s).rd n = s.rd n := by unfold cardAuth; split <;> rfl

theorem poll_one (n : Nat) (l : List CardId) (c : CardId) (s : State) (h : pollFinds (s.rd n).types l = [c]) : ((pollCycle n l s).rd n).st = .active ∧ ((pollCycle n l s).rd n).card = some c ∧ ((pollCycle n l s).rd n).cards = 1 ∧ ((pollCycle n l s).rd n).ids = idRecord c ∧ ((pollCycle n l s).rd n).status = .ok := by
  simp [pollCycle, h, auth_rd, rd_evt, rd_upd]

theorem pw_down (f : State → State) (s : State) : (s.app.lane.fault = true → powerWrite f s = busFail s) ∧ (s.app.lane.fault = false → s.power.clkOk = false → powerWrite f s = busOk 0 s) := by
  refine ⟨fun h => by simp [powerWrite, h], fun h g => by simp [powerWrite, h, g]⟩

theorem rd_busOk (v : Word) (s : State) (n : Nat) : (busOk v s).rd n = s.rd n := rfl

theorem rd_xch (n : Nat) (st : Status) (s : State) : (xchEnd n st s).rd n = { s.rd n with xch := none, status := st, st := .active, evt := setEvt (s.rd n).evt 2 } := by
  simp only [xchEnd, rd_evt, rd_upd]

theorem xch_fields (n : Nat) (st : Status) (s : State) : (xchEnd n st s).power.fields = s.power.fields := by
  simp [xchEnd, State.updRd]

theorem rd_off (n : Nat) (s : State) (h : s.fieldIsOn n = true) (h2 : (s.rd n).xch = none) : (fieldOff n s).rd n = { s.rd n with card := none, empty := 0, st := if (s.rd n).mode = 1 then .pinging else .off } ∧ (fieldOff n s).power.fields = putBit s.power.fields n false := by
  unfold fieldOff
  rw [if_neg (by simp [h])]
  dsimp only
  rw [if_neg (by simp [h2])]
  exact ⟨rd_upd _ _ _, rfl⟩

theorem off_fields (n : Nat) (s : State) (h : s.fieldIsOn n = true) : (fieldOff n s).power.fields = putBit s.power.fields n false ∧ ((fieldOff n s).rd n).card = none := by
  unfold fieldOff
  rw [if_neg (by simp [h])]
  dsimp only
  split
  · refine ⟨?_, ?_⟩
    · rw [xch_fields]; rfl
    · exact congrArg Reader.card (rd_upd _ _ _)
  · exact ⟨rfl, congrArg Reader.card (rd_upd _ _ _)⟩

theorem pw_rd (f : State → State) (s : State) (n : Nat) (h : s.app.lane.fault = false) (h' : s.power.clkOk = true) : (powerWrite f s).rd n = (f s).rd n ∧ (powerWrite f s).power = (f s).power := by
  rw [powerWrite_ok f s h h']; exact ⟨rfl, rfl⟩

/-! ### TagEmulation -/

theorem tag_busOk (v : Word) (s : State) (k : Nat) : (busOk v s).tag k = s.tag k := rfl

theorem fld_or (v : Word) : fld (v ||| 512#32) 16 11 = fld v 16 11 := by
  unfold fld
  rw [BitVec.toNat_or, ← Nat.shiftRight_eq_div_pow, ← Nat.shiftRight_eq_div_pow, Nat.shiftRight_or_distrib, show (512#32).toNat >>> 16 = 0 from rfl, Nat.or_zero]

theorem tag_upd (s : State) (k : Nat) (f : TagSlot → TagSlot) : (s.updTag k f).tag k = f (s.tag k) := by simp [State.tag, State.updTag]

theorem swap_rd (k n : Nat) (s : State) : ∃ e, (tagSwap k s).rd n = { s.rd n with evt := e } := by
  unfold tagSwap; dsimp only; split
  · exact ⟨(s.rd n).evt, rfl⟩
  · exact rd_evt_part _ _ _ _

theorem close_rd (n : Nat) (s : State) : ∃ e, (tagClose n s).rd n = { s.rd n with openT := false, evt := e } := by
  unfold tagClose; split
  · rename_i h
    exact ⟨(s.rd n).evt, by have : (s.rd n).openT = false := by simpa using h
                            rw [← this]⟩
  · dsimp only
    have b : ∃ e, (rdEvt n 7 (s.updRd n fun r => { r with openT := false })).rd n = { s.rd n with openT := false, evt := e } := ⟨_, by rw [rd_evt, rd_upd]⟩
    split
    · obtain ⟨e, he⟩ := b
      obtain ⟨e2, h2⟩ := swap_rd ‹Nat› n (rdEvt n 7 (s.updRd n fun r => { r with openT := false }))
      exact ⟨e2, by rw [h2, he]⟩
    · exact b

theorem rd_ans (n : Nat) (a : Option (List Byte)) (s : State) : (tagAnswer n a s).rd n = { s.rd n with ans := a } := rd_upd _ _ _

theorem swap_tag (k : Nat) (s : State) (h : (s.tag k).pending = true) : (tagSwap k s).tag k = { s.tag k with bank := !(s.tag k).bank, lenAct := (s.tag k).lenNext, pending := false } := by
  unfold tagSwap
  rw [if_neg (by simp [h])]
  simp only [State.tag, rdEvt_same]
  exact tag_upd _ _ _

theorem close_swap (n k : Nat) (s : State) (h : (s.rd n).openT = true) (h2 : s.slotOfChannel n = some k) (h3 : (s.tag k).pending = true) : (tagClose n s).tag k = { s.tag k with bank := !(s.tag k).bank, lenAct := (s.tag k).lenNext, pending := false } := by
  unfold tagClose
  rw [if_neg (by simp [h])]
  dsimp only
  have g : (rdEvt n 7 (s.updRd n fun r => { r with openT := false })).tag k = s.tag k := by simp only [State.tag, rdEvt_same]; rfl
  rw [h2]
  dsimp only
  rw [swap_tag _ _ (by rw [g]; exact h3), g]

theorem open_none (n : Nat) (s : State) (h : (s.rd n).openT = false) : tagClose n s = s := by simp [tagClose, h]

end Sys2Proof.Machine
end

