-- ==== Sys2Proof/Laws/AccessFacts.lean ====
section
/-!
SUPPORT. What operations of the harts and register accesses do, for the obligations about them.
-/
set_option Elab.async false
set_option linter.all false
namespace Sys2Proof.Machine

/-! ### HartInstructions -/

theorem slot_none (h : Nat) (s : State) (n : hartEngine h = none) : s.hartSlot h = none := by simp [State.hartSlot, n]

theorem hart_core (h : Nat) (s : State) (n : hartEngine h = none) : s.hart h = s.core h := by simp [State.hart, State.core, slot_none h s n]

theorem hart_upd (h : Nat) (f : Hart → Hart) (s : State) (n : hartEngine h = none) : (s.updHart h f).hart h = f (s.hart h) := by
  unfold State.updHart
  split
  · rename_i e; simp [State.hart, e]
  · rename_i e
    rw [slot_none h s n]
    rw [hart_core _ _ n, hart_core _ _ n]
    simp [State.core, e]

theorem hart_updCore (h : Nat) (f : Hart → Hart) (s : State) (n : hartEngine h = none) : (s.updCore h f).hart h = f (s.hart h) := by
  rw [hart_core _ _ n, hart_core _ _ n]
  unfold State.updCore State.core
  split <;> simp

theorem upd_mem (h : Nat) (f : Hart → Hart) (s : State) (n : hartEngine h = none) : (s.updHart h f).app.mem = s.app.mem ∧ (s.updCore h f).app.mem = s.app.mem := by
  unfold State.updHart State.updCore
  rw [slot_none h s n]
  constructor <;> split <;> rfl

theorem pass_hart (h : Nat) (s : State) (n : hartEngine h = none) : (passCycles h s).hart h = { s.hart h with csr := (s.hart h).csr.set 0xB00 ((s.hart h).csr.get 0xB00 + BitVec.ofNat 64 s.cycles) } ∧ (passCycles h s).app.mem = s.app.mem := by
  have e : passCycles h s = s.used.updCore h fun r => { r with csr := r.csr.set 0xB00 (r.csr.get 0xB00 + BitVec.ofNat 64 s.cycles) } := by
    unfold passCycles; dsimp only; rw [slot_none h _ n]
  rw [e, hart_updCore _ _ _ n, (upd_mem h _ _ n).2]
  exact ⟨rfl, rfl⟩

theorem find_eq {α : Type} (l : List α) (f g : α → Bool) (h : ∀ x ∈ l, f x = g x) : l.find? f = l.find? g := by
  induction l with
  | nil => rfl
  | cons a l ih =>
    rw [List.find?_cons, List.find?_cons, h a List.mem_cons_self, ih (fun x hx => h x (List.mem_cons_of_mem _ hx))]

theorem cfg_set (r : Hart) (v : Dword) (i : Nat) (hi : i < 16) : ({ r with csr := r.csr.set 0xB00 v } : Hart).pmpcfg i = r.pmpcfg i := by
  unfold Hart.pmpcfg
  rw [Bank.get_set_other _ _ (by omega)]

theorem range_set (r : Hart) (v : Dword) (i : Nat) (hi : i < 16) : ({ r with csr := r.csr.set 0xB00 v } : Hart).pmpRange i = r.pmpRange i := by
  unfold Hart.pmpRange
  dsimp only
  rw [cfg_set r v i hi, Bank.get_set_other _ _ (by omega), Bank.get_set_other _ _ (by omega)]

theorem pmp_set (h q : Nat) (r : Hart) (k : Acc) (a : Nat) (v : Dword) : pmpAllows h q { r with csr := r.csr.set 0xB00 v } k a = pmpAllows h q r k a := by
  have n : pmpCount h ≤ 16 := by unfold pmpCount; split; omega; split <;> omega
  have m : ({ r with csr := r.csr.set 0xB00 v } : Hart).pmpMatch (pmpCount h) a = r.pmpMatch (pmpCount h) a := by
    unfold Hart.pmpMatch
    refine find_eq _ _ _ fun i hi => ?_
    rw [range_set r v i (by have := List.mem_range.mp hi; omega)]
  unfold pmpAllows
  rw [m]
  cases e : r.pmpMatch (pmpCount h) a with
  | none => rfl
  | some i =>
    have hi : i < 16 := by have := List.mem_range.mp (List.mem_of_find?_eq_some e); omega
    simp only [Hart.pmpLocked, cfg_set r v i hi]

theorem walk_set (s t : State) (h q : Nat) (r : Hart) (k : Acc) (va : Nat) (v : Dword) (h1 : ∀ p a n b, t.reaches p a n b = s.reaches p a n b) (h2 : ∀ a, t.readByte a = s.readByte a) (n a : Nat) :
    t.walk h q { r with csr := r.csr.set 0xB00 v } k va n a = s.walk h q r k va n a := by
  induction n generalizing a with
  | zero => rfl
  | succ n ih =>
    simp only [State.walk, pmp_set, h1, h2, ih, Bank.get_set_other r.csr v (show 0xB00 ≠ 0x300 by decide)]

theorem pass_same (h : Nat) (s : State) (n : hartEngine h = none) : (∀ p a m b, (passCycles h s).reaches p a m b = s.reaches p a m b) ∧ (∀ a, (passCycles h s).readByte a = s.readByte a) ∧ (passCycles h s).app.eng = s.app.eng ∧ (∀ p r, (passCycles h s).reads p r = s.reads p r) := by
  have e : passCycles h s = s.used.updCore h fun r => { r with csr := r.csr.set 0xB00 (r.csr.get 0xB00 + BitVec.ofNat 64 s.cycles) } := by
    unfold passCycles; dsimp only; rw [slot_none h _ n]
  rw [e]
  unfold State.updCore
  split <;> exact ⟨fun _ _ _ _ => rfl, fun _ => rfl, rfl, fun _ _ => rfl⟩

theorem pass_translate (h : Nat) (s : State) (va : Dword) (k : Acc) (n : hartEngine h = none) : (passCycles h s).translate h k va = s.translate h k va := by
  obtain ⟨q1, q2, q3, q4⟩ := pass_same h s n
  have p := (pass_hart h s n).1
  have a : ∀ v, accessPriv { s.hart h with csr := (s.hart h).csr.set 0xB00 v } k = accessPriv (s.hart h) k := fun v => by
    simp only [accessPriv, Bank.get_set_other _ v (show 0xB00 ≠ 0x300 by decide)]
  unfold State.translate
  dsimp only
  rw [p]
  simp only [a, pmp_set, Bank.get_set_other _ _ (show 0xB00 ≠ 0x180 by decide), walk_set s _ _ _ _ _ _ _ q1 q2]

theorem pass_fetch (h a m : Nat) (s : State) (n : hartEngine h = none) : (passCycles h s).fetchOk h a m = s.fetchOk h a m := by
  obtain ⟨q1, q2, q3, q4⟩ := pass_same h s n
  simp only [State.fetchOk, State.hartMay, State.ctxMay, q1, q3, q4]

theorem pass_part (h m : Nat) (va : Dword) (s : State) (n : hartEngine h = none) : (passCycles h s).fetchPart h va m = s.fetchPart h va m := by
  unfold State.fetchPart
  rw [pass_translate h s _ _ n]
  simp only [pass_fetch h _ _ s n]

theorem pass_fault (h m : Nat) (pc : Dword) (s : State) (n : hartEngine h = none) : (passCycles h s).fetchFault h pc m = s.fetchFault h pc m := by
  unfold State.fetchFault
  simp only [pass_part h _ _ s n]

theorem ecc_good (h : Nat) (s : State) : hartEcc h .good s = s := by unfold hartEcc eccReport; split <;> rfl

theorem stepHalt_free (h : Nat) (s t : State) (f : (s.debugs h && dbit ((s.core h).csr.get 0x7B0) 2) = false) : stepHalt h s t = t := by
  unfold stepHalt
  rw [Bool.and_assoc (s.hartRuns h), f]
  simp

theorem step_eq (h : Nat) (w i : Word) (n : Nat) (s : State) (f : Fetches h w i n s) (g : hartEngine h = none) :
    stepHalt h s (rvStep h w .good s) = match rvExec h i (rvFit h ((s.hart h).pc + BitVec.ofNat 64 n)) (passCycles h s) with
      | .done t => retire h i t
      | .exc c v t => rvException h c w v t := by
  obtain ⟨h1, h2, h3, h4, h6, h7⟩ := f
  rw [stepHalt_free h s _ h7]
  have wk : rvWake h s = s := by simp [rvWake, h2]
  unfold rvStep
  rw [if_neg (by simp [h1])]
  dsimp only
  rw [wk, if_neg (by simp [h2]), h3]
  dsimp only
  have p := (pass_hart h s g).1
  have o : rvOutcome h w (passCycles h s) = rvExec h i (rvFit h ((s.hart h).pc + BitVec.ofNat 64 n)) (passCycles h s) := by
    unfold rvOutcome
    dsimp only
    rw [pass_fault h _ _ s g, p, h6]
    dsimp only
    rw [h4]
  unfold rvFetched
  rw [o, h6]
  simp only [ecc_good]
  rfl

theorem retire_hart (h : Nat) (i : Word) (s : State) (n : hartEngine h = none) (k : writesInstret i = false) : (retire h i s).hart h = { s.hart h with csr := (s.hart h).csr.set 0xB02 ((s.hart h).csr.get 0xB02 + 1) } ∧ (retire h i s).app.mem = s.app.mem := by
  unfold retire
  rw [if_neg (by simp [k]), hart_updCore _ _ _ n, (upd_mem h _ _ n).2]
  exact ⟨rfl, rfl⟩

theorem fit_add (h : Nat) (a b : Dword) : rvFit h (aluX h 0 false a b) = rvFit h (a + b) := by
  unfold rvFit aluX aluOp
  split
  · rfl
  · simp [BitVec.setWidth_add]

theorem not_instret (i : Word) (k : rvOp i ≠ 0x73) : writesInstret i = false := by simp [writesInstret, k]

theorem hall_range (a : Nat) : regionOf a = .hall ↔ 0x1000000 ≤ a ∧ a ≤ 0x1FFFFFF := by
  constructor
  · intro h
    unfold regionOf at h
    (repeat' split at h) <;> simp_all [within]
  · intro h
    unfold regionOf
    rw [if_neg (by omega), if_pos (by simp [within, h.1, h.2])]

theorem put_hall (a : Nat) (b : Byte) (s : State) (h : regionOf a = .hall) : memPut a b s = s.setByte a b := by
  simp [memPut, ctxOffset, h]

theorem puts_hall (l : List Byte) (a : Nat) (s : State) (h : ∀ k, k < l.length → regionOf (a + k) = .hall) (j : Nat) :
    (memPuts a l s).byte j = if a ≤ j ∧ j < a + l.length then l.getD (j - a) 0 else s.byte j := by
  induction l generalizing a s with
  | nil => simp [memPuts] <;> omega
  | cons b r ih =>
    have h0 := h 0 (by simp)
    rw [Nat.add_zero] at h0
    simp only [memPuts]
    rw [ih (a + 1) _ (fun k hk => by have := h (k + 1) (by simp; omega); rwa [show a + (k + 1) = a + 1 + k from by omega] at this), put_hall _ _ _ h0]
    simp only [State.byte, State.setByte, Bank.get_set, List.length_cons]
    by_cases e : a = j
    · subst e; rw [if_neg (by omega), if_pos rfl, if_pos (by omega)]; simp
    · by_cases g : a ≤ j ∧ j < a + (r.length + 1)
      · rw [if_pos (by omega), if_pos g, show j - a = (j - (a + 1)) + 1 from by omega]; rfl
      · rw [if_neg (by omega), if_neg e, if_neg g]

theorem puts_harts (l : List Byte) (a : Nat) (s : State) : (memPuts a l s).app.harts = s.app.harts := by
  induction l generalizing a s with
  | nil => rfl
  | cons b r ih =>
    simp only [memPuts]; rw [ih]
    unfold memPut
    split
    · split <;> rfl
    · rfl

theorem toLE_len (n v : Nat) : (toLE n v).length = n := by
  induction n generalizing v with
  | zero => rfl
  | succ n ih => simp [toLE, ih]

theorem region_hall (a : Nat) (s : State) (h : regionOf a = .hall) : s.region a = .hall := by
  unfold State.region; rw [h]; rfl

theorem store_hall (h a v : Nat) (s : State) (hQ : h < 4) (h1 : regionOf a = .hall) (h2 : regionOf (a + 3) = .hall) :
    ∃ t, physStore h a 4 v s = (t, true) ∧ t.hart h = s.hart h ∧ ∀ j, t.byte j = if a ≤ j ∧ j < a + 4 then (toLE 4 v).getD (j - a) 0 else s.byte j := by
  have r1 := (hall_range a).mp h1
  have r2 := (hall_range (a + 3)).mp h2
  have he : hartEngine h = none := by simp [hartEngine, within]; omega
  have hm : s.hartMay h .store a 4 = true := by
    unfold State.hartMay; rw [if_neg (by omega), he]
  have ms : s.mayStore (hartPort h) a 4 = true := by
    have h3 : s.region (a + 4 - 1) = .hall := region_hall _ s h2
    have h4 : s.region a = .hall := region_hall _ s h1
    simp only [State.mayStore, State.reaches, h4, h3, codeOf, h1]
    simp [State.reads, Region.writable, hartPort, hQ]
  have bs : busStore (hartPort h) a 4 v s = (takeAt a v (memPuts a (toLE 4 v) s), true) := by
    unfold busStore; rw [if_neg (by rw [h1]; decide), if_pos ms]
  have tk : takeAt a v (memPuts a (toLE 4 v) s) = memPuts a (toLE 4 v) s := by
    unfold takeAt; rw [h1]
  refine ⟨breakReservations h a 4 (markBytes (if isCantle h then 2 else 0) a 4 (memPuts a (toLE 4 v) s)), ?_, ?_, ?_⟩
  · unfold physStore
    rw [if_neg (by simp [hm]), if_neg (by omega)]
    dsimp only
    rw [bs, tk, h1]
    rfl
  · rw [hart_core _ _ he, hart_core _ _ he]
    unfold State.core breakReservations
    dsimp only
    rw [if_neg (show h ≠ 14 by omega), if_neg (show h ≠ 14 by omega)]
    rw [Bank.get_updAll _ (List.Pairwise.filter _ List.nodup_range), if_neg (by simp)]
    show (memPuts a (toLE 4 v) s).app.harts.get h = _
    rw [puts_harts]
  · intro j
    have := puts_hall (toLE 4 v) a s (fun k hk => by rw [toLE_len] at hk; exact (hall_range _).mpr (by omega)) j
    rw [toLE_len] at this
    exact this

theorem wake_csr (h : Nat) (s : State) : ((rvWake h s).core h).csr = (s.core h).csr := by
  have tr : (transferSleep s).app.harts = s.app.harts ∧ (transferSleep s).bridle = s.bridle := by
    unfold transferSleep
    dsimp only
    constructor <;> simp
  unfold rvWake
  split
  · split
    · unfold State.updCore State.core; split <;> simp [tr]
    · unfold State.updCore State.core; split <;> simp
  · rfl

/-! ### RegisterAndObjectAccess -/

theorem submit_j (p : Nat) (c : Option Nat) (k u h : Nat) (s : State) : (girthSubmit p c k u h s).2.app.journal = s.app.journal ∧ (girthSubmit p c k u h s).2.flash = s.flash := by
  have a : (girthAccept p c k u h s).2.1.app.journal = s.app.journal ∧ (girthAccept p c k u h s).2.1.flash = s.flash := by
    unfold girthAccept; dsimp only
    (repeat' split) <;> exact ⟨rfl, rfl⟩
  unfold girthSubmit; dsimp only
  split
  · simp only [countEvents_same]; exact a
  · exact a

theorem request_j (s : State) : (batchRequest s).app.journal.batches.map (fun b => (b.num, b.area)) = s.app.journal.batches.map (fun b => (b.num, b.area)) ∧ (batchRequest s).app.journal.staged = s.app.journal.staged ∧ (batchRequest s).flash = s.flash := by
  unfold batchRequest
  split
  · exact ⟨rfl, rfl, rfl⟩
  · rename_i b r e
    split
    · exact ⟨rfl, rfl, rfl⟩
    · have j := submit_j 0 none 8 0 0 s
      dsimp only
      split
      · exact ⟨by rw [j.1], by rw [j.1], j.2⟩
      · split
        · exact ⟨by rw [← j.1], by rw [← j.1], j.2⟩
        · rw [e]
          refine ⟨by simp, ?_, j.2⟩
          rw [← j.1]

theorem rel_j (p : Nat) (v : Word) (s : State) : (girthRelWrite p v s).app.journal = s.app.journal ∧ (girthRelWrite p v s).flash = s.flash := by
  simp [girthRelWrite]

theorem level_j (k : Nat) (b : Bool) (s : State) : (setLevel k b s).app.journal = s.app.journal ∧ (setLevel k b s).app.girth = s.app.girth ∧ (setLevel k b s).flash = s.flash := by simp

end Sys2Proof.Machine
end

