-- ==== Sys2Proof/Laws/FusePrograms.lean ====
section
/-!
SUPPORT. What the commands that program fuses do to them: each lemma says that a function leaves every fuse
programmed that was, for the obligation that fuses only rise (16 R395, R397).
-/
set_option Elab.async false
namespace Sys2Proof.Machine

theorem FuseLe.refl (a : Fuses) : FuseLe a a := by constructor <;> simp

theorem FuseLe.ofEq {a b : Fuses} (h : b = a) : FuseLe a b := h ▸ FuseLe.refl a

theorem and_and_of_le {w : Nat} {a b c : BitVec w} (h1 : a &&& b = a) (h2 : b &&& c = b) : a &&& c = a := by
  rw [← h1, BitVec.and_assoc, h2]

theorem FuseLe.trans {a b c : Fuses} (h : FuseLe a b) (k : FuseLe b c) : FuseLe a c where
  vendor := k.vendor.trans h.vendor
  serial := k.serial.trans h.serial
  mac := k.mac.trans h.mac
  roleOff := k.roleOff.trans h.roleOff
  prod := k.prod.trans h.prod
  mfg := k.mfg.trans h.mfg
  ptOff := k.ptOff.trans h.ptOff
  blkOff := k.blkOff.trans h.blkOff
  root := k.root.trans h.root
  huk := k.huk.trans h.huk
  pairing := k.pairing.trans h.pairing
  decom := fun x => k.decom (h.decom x)
  dbg := and_and_of_le h.dbg k.dbg
  svn := Nat.le_trans h.svn k.svn
  rrev := and_and_of_le h.rrev k.rrev
  safe := fun i => and_and_of_le (h.safe i) (k.safe i)

theorem and_or_self_left {w : Nat} (a b : BitVec w) : a &&& (a ||| b) = a := by
  ext i; simp; cases a[i] <;> simp

theorem fuseLe_dbg (f : Fuses) (v : BitVec 6) : FuseLe f { f with dbg := f.dbg ||| v } := by
  constructor <;> simp [and_or_self_left]

theorem fuseLe_safe (f : Fuses) (k : Nat) (v : BitVec 384) (h : f.safe.get k = 0) :
    FuseLe f { f with safe := f.safe.set k v } := by
  constructor <;> try (simp; done)
  intro i
  by_cases hi : i = k
  · subst hi; simp [h]
  · simp [Bank.get_set, Ne.symm hi]

theorem fuseLe_decom (f : Fuses) : FuseLe f { f with decom := true } := by constructor <;> simp

theorem fuseLe_confirm (f : Fuses) (c : Prop) [Decidable c] (n : Nat) (v : BitVec 4) :
    FuseLe f { f with svn := if c then max f.svn n else f.svn, rrev := f.rrev ||| v } := by
  constructor <;> try (simp [and_or_self_left]; done)
  dsimp only; split
  · exact Nat.le_max_left _ _
  · exact Nat.le_refl _

theorem fuseDebug_fuseLe (v : BitVec 384) (s : State) : FuseLe s.fuses (fuseDebug v s).2.fuses := by
  unfold fuseDebug; repeat' split
  · exact .refl _
  · exact .refl _
  · simpa using fuseLe_dbg s.fuses (v.setWidth 6)

theorem fuseSafe_fuseLe (v d : BitVec 384) (s : State) : FuseLe s.fuses (fuseSafe v d s).2.fuses := by
  unfold fuseSafe; repeat' split
  · exact .refl _
  · exact .refl _
  · rename_i k hk
    exact fuseLe_safe s.fuses k v (by simpa using List.find?_some hk)

theorem decommission_fuseLe (r : Role) (v : Word) (s : State) : FuseLe s.fuses (decommission r v s).2.fuses := by
  unfold decommission; repeat' split
  all_goals first | exact .refl _ | exact fuseLe_decom _

theorem underGrants_fuseLe (port : Nat) (kinds : List Nat) (f : State → Status × State) (s : State)
    (h : ∀ t, FuseLe t.fuses (f t).2.fuses) : FuseLe s.fuses (underGrants port kinds f s).2.fuses := by
  unfold underGrants
  dsimp only
  split
  · exact h s
  · split
    · exact .refl _
    · next t e => rw [← girthRun_fuses _ _ _ _ e]; exact h t

theorem tackServe_fuseLe (cmd slot : Nat) (kinds : List Nat) (f : State → Status × State) (s : State)
    (h : ∀ t, FuseLe t.fuses (f t).2.fuses) : FuseLe s.fuses (tackServe cmd slot kinds f s).fuses := by
  unfold tackServe; split
  · simpa using underGrants_fuseLe 14 kinds f s h
  · exact .refl _

theorem tackFuse_fuseLe (f : FuseField) (v : BitVec 384) (s : State) : FuseLe s.fuses (tackFuse f v s).2.fuses := by
  cases f
  all_goals first | exact .refl _ | exact fuseDebug_fuseLe _ _ | exact fuseSafe_fuseLe _ _ _

theorem confirmUpdate_fuseLe (m : Manifest) (s : State) : FuseLe s.fuses (confirmUpdate m s).fuses := by
  have key : ∃ t : State, t.fuses = s.fuses ∧
      (confirmUpdate m s).fuses = { t.fuses with svn := if m.raiseFloor then max t.fuses.svn m.svn else t.fuses.svn,
                                                 rrev := t.fuses.rrev ||| m.revoke } := by
    refine ⟨_, ?_, by simp only [confirmUpdate, eraseSpare_fuses]; rfl⟩
    simp only [State.updUpd]; simp
  obtain ⟨t, h1, h2⟩ := key
  rw [h2, h1]; exact fuseLe_confirm _ _ _ _

theorem tackConfirm_fuseLe (s : State) : FuseLe s.fuses (tackConfirm s).2.fuses := by
  unfold tackConfirm; split
  · exact FuseLe.refl s.fuses
  · next m _ =>
    split
    · exact (confirmUpdate_fuseLe m s :)
    · exact (FuseLe.refl s.fuses :)

theorem writeSec_fuseLe (a : Asker) (idx sub : Nat) (d : List Byte) (s : State) :
    FuseLe s.fuses (writeSec a idx sub d s).2.fuses := by
  have h1 := fuseDebug_fuseLe (BitVec.ofNat 384 (ofLE d)) s
  have h2 := decommission_fuseLe a.role (BitVec.ofNat 32 (ofLE d)) s
  have h3 := fuseSafe_fuseLe (BitVec.ofNat 384 (ofLE d.reverse)) s.stagedDigest s
  unfold writeSec; dsimp only; repeat' split
  all_goals first
    | (apply FuseLe.ofEq; simp; done)
    | exact h1
    | exact h2
    | exact h3

theorem writeOwn_fuseLe (a : Asker) (o : Obj) (idx sub : Nat) (d : List Byte) (s : State) :
    FuseLe s.fuses (writeOwn a o idx sub d s).2.fuses := by
  unfold writeOwn; repeat' split
  all_goals first
    | exact writeSec_fuseLe _ _ _ _ _
    | (apply FuseLe.ofEq; simp)

theorem serveWrite_fuseLe (a : Asker) (idx sub : Nat) (d : List Byte) (s : State) :
    FuseLe s.fuses (serveWrite a idx sub d s).2.fuses := by
  unfold serveWrite
  cases s.entry idx sub with
  | none => exact FuseLe.refl s.fuses
  | some o =>
    have hw : FuseLe s.fuses (if isSealedEntry idx then writeSealed a idx sub d s else writeOwn a o idx sub d s).2.fuses := by
      split
      · exact .ofEq (by simp)
      · exact writeOwn_fuseLe a o idx sub d s
    dsimp only
    generalize (if isSealedEntry idx then writeSealed a idx sub d s else writeOwn a o idx sub d s) = r at hw ⊢
    repeat' split
    all_goals first
      | exact FuseLe.refl s.fuses
      | (apply FuseLe.ofEq; simp; done)
      | exact hw
      | (rw [makeBinding_fuses]; exact hw)

theorem writeRequest_fuseLe (a : Asker) (idx sub : Nat) (d : List Byte) (s : State) :
    FuseLe s.fuses (writeRequest a idx sub d s).2.fuses := by
  unfold writeRequest; simpa using serveWrite_fuseLe a idx sub d s

theorem sdoWrite_fuseLe (f ch : Nat) (role : Role) (cmd : Byte) (idx sub : Nat) (d : List Byte) (s : State) :
    FuseLe s.fuses (sdoWrite f ch role cmd idx sub d s).fuses := by
  have h := writeRequest_fuseLe (s.canAsker f ch role) idx sub d s
  unfold sdoWrite; dsimp only; repeat' split
  all_goals simpa using h

theorem sdoDownSeg_fuseLe (f ch : Nat) (g l : Bool) (d : List Byte) (s : State) :
    FuseLe s.fuses (sdoDownSeg f ch g l d s).fuses := by
  unfold sdoDownSeg
  split
  · apply FuseLe.ofEq; simp
  · next x _ =>
    have hw := sdoWrite_fuseLe f ch x.role (if g then 0x30 else 0x20) x.idx x.sub (x.data ++ d) (setSdo f ch none s)
    rw [setSdo_fuses] at hw
    dsimp only
    repeat' split
    all_goals first
      | (apply FuseLe.ofEq; simp; done)
      | simpa [*] using hw

theorem usdoWrite_fuseLe (f node : Nat) (role : Role) (idx sub : Nat) (d : List Byte) (s : State) :
    FuseLe s.fuses (usdoWrite f node role idx sub d s).fuses := by
  unfold usdoWrite; simpa using writeRequest_fuseLe (s.canAsker f (8 + node) role) idx sub d s

theorem usdoServe_fuseLe (f node : Nat) (role : Role) (r : UsdoReq) (s : State) :
    FuseLe s.fuses (usdoServe f node role r s).fuses := by
  cases r with
  | read idx sub => apply FuseLe.ofEq; unfold usdoServe; dsimp only; (repeat' split) <;> simp
  | write idx sub d =>
    have hw := usdoWrite_fuseLe f node role idx.toNat sub.toNat d (usdoFresh f node s)
    rwa [usdoFresh_fuses] at hw
  | downInit idx sub n d => apply FuseLe.ofEq; simp [usdoServe]
  | downSeg l d =>
    unfold usdoServe
    dsimp only
    split
    · apply FuseLe.ofEq; simp
    · next x _ =>
      have hw := usdoWrite_fuseLe f node x.role x.idx x.sub (x.data ++ d) (setUsdo f node none s)
      rw [setUsdo_fuses] at hw
      repeat' split
      all_goals first
        | (apply FuseLe.ofEq; simp; done)
        | exact hw
  | upSeg => apply FuseLe.ofEq; unfold usdoServe; dsimp only; (repeat' split) <;> simp

theorem execFuse_fuseLe (f : FuseField) (v : BitVec 384) (s t : State) (h : execFuse f v s = .next t) :
    FuseLe s.fuses t.fuses := by
  cases h; exact tackServe_fuseLe _ _ _ _ _ (tackFuse_fuseLe _ _)

theorem execDecommission_fuseLe (r : Role) (v : Word) (s t : State) (h : execDecommission r v s = .next t) :
    FuseLe s.fuses t.fuses := by
  cases h; split
  · exact decommission_fuseLe _ _ _
  · exact .refl _

theorem execConfirm_fuseLe (s t : State) (h : execConfirm s = .next t) : FuseLe s.fuses t.fuses := by
  cases h; exact tackServe_fuseLe _ _ _ _ _ tackConfirm_fuseLe

theorem execLatigoWrite_fuseLe (c : Fin 16) (r : LatigoReq) (d : List Byte) (s t : State)
    (h : execLatigoWrite c r d s = .next t) : FuseLe s.fuses t.fuses := by
  cases h; unfold onFrame onConn; split
  · exact .refl _
  · rename_i x _
    have hw := writeRequest_fuseLe (latAsker c x r) r.idx.toNat r.sub.toNat d (s.updConn c fun z => { z with heard := s.ht })
    simpa using hw

theorem execSdoInitiateDownload_fuseLe (f : Fin 2) (ch : Fin 8) (idx : BitVec 16) (sub : BitVec 8) (e : Bool) (n : Nat)
    (d : List Byte) (s t : State) (h : execSdoInitiateDownload f ch idx sub e n d s = .next t) :
    FuseLe s.fuses t.fuses := by
  have hw := sdoWrite_fuseLe f ch ((sdoFresh f ch s).sdoRole f ch) 0x60 idx.toNat sub.toNat d (sdoFresh f ch s)
  rw [sdoFresh_fuses] at hw
  cases h; dsimp only; repeat' split
  all_goals first
    | (apply FuseLe.ofEq; simp; done)
    | exact hw

theorem execSdoDownloadSegment_fuseLe (f : Fin 2) (ch : Fin 8) (g l : Bool) (d : List Byte) (s t : State)
    (h : execSdoDownloadSegment f ch g l d s = .next t) : FuseLe s.fuses t.fuses := by
  cases h; split
  · exact sdoDownSeg_fuseLe _ _ _ _ _ _
  · exact .refl _

theorem execUsdoRequest_fuseLe (f : Fin 2) (node : Fin 128) (r : UsdoReq) (s t : State)
    (h : execUsdoRequest f node r s = .next t) : FuseLe s.fuses t.fuses := by
  cases h; dsimp only; repeat' split
  · exact FuseLe.refl s.fuses
  · exact usdoServe_fuseLe f node .operator r s
  · exact usdoServe_fuseLe f node .pub r s

end Sys2Proof.Machine
end

