-- ==== Sys2Proof/WellFormed.lean ====
section
/-!
DEFINITION. The commands that can be sent at all: bounds the manual gives on the shape of an operand that
its type does not say already. A value outside a bound the manual answers with a status is well formed:
the command's meaning answers it.
-/
set_option Elab.async false
namespace Sys2Proof

/-- A sealed-link message: at most 240 bytes of payload, a 64-bit number (R28). -/
def LinkMsg.wf (m : LinkMsg) : Bool := decide (m.payload.length ≤ 240) && decide (m.seq < 2 ^ 64)

/-- The bounds on a command's operands. -/
def Instr.wf : Instr → Bool
  | .sealedLinkMessageReceive _ m _ => m.wf
  | .linkAckReceive _ acked credit _ => decide (acked < 2 ^ 64) && decide (credit ≤ 32)
  | .sdoInitiateDownload _ _ _ _ expedited size data =>
    if expedited then decide (data.length ≤ 4) && decide (data.length = size)
    else decide (size < 2 ^ 32) && data.isEmpty
  | .sdoDownloadSegment _ _ _ _ data => decide (1 ≤ data.length) && decide (data.length ≤ 7)
  | .slacSound _ _ groups => decide (groups.length = 58)
  | .plcMpduReceive _ m => decide (m.data.length ≤ 1518)
  | .vcanFrame _ _ data => decide (data.length ≤ 8)
  | .harnessBurst _ b => decide (b.reqs.length ≤ 24) && b.reqs.all fun r => decide (1 ≤ r.beats)
  | .pilotPlateauEvaluation _ _ samples => decide (samples.length = 8)
  | .elementCycleEnd _ c => decide (1 ≤ c.x.length)
  | .harmonicWindowEnd _ re im => decide (re.length ≤ 1024) && decide (im.length ≤ 1024)
  | .certificateInstallationReq _ stream => decide (stream.length < 2 ^ 32)
  | .sealedObjectWrite _ _ _ _ total data => decide (data.length ≤ 240) && decide (total < 2 ^ 32)
  | .terminalObjectWrite _ _ _ data => decide (data.length ≤ 240)
  | .overlayWrite _ _ _ _ _ _ data => decide (data.length ≤ 240)
  | .paletteWrite _ _ _ rgb => decide (rgb.length ≤ 80)
  | .calendarWrite _ _ total data => decide (data.length ≤ 240) && decide (total < 2 ^ 32)
  | .sealParameterWrite _ _ _ data => decide (data.length ≤ 240)
  | .blinkSet _ _ _ _ half _ => decide (half < 65536)
  | .outputSumOver sum => decide (sum < 2 ^ 32)
  | _ => true

end Sys2Proof
end

