-- ==== Sys2Proof/Tests/Slice0.lean ====
section
/-!
SUPPORT. The model's own tests: ill-formed commands, the manual's worked examples, and for every obligation with
hypotheses a state and operands that meet them.
-/
set_option Elab.async false
set_option linter.all false
namespace Sys2Proof.Tests
open Sys2Proof Sys2Proof.Machine

/-! ### Ill-formed commands are refused (WellFormed) -/

theorem test_wf_message_payload : (Instr.sealedLinkMessageReceive .sealed ⟨1, 1, 0, List.replicate 241 0⟩ true).wf = false := by
  decide +kernel
theorem test_wf_message_number : (Instr.sealedLinkMessageReceive .sealed ⟨1, 2 ^ 64, 0, []⟩ true).wf = false := by
  decide +kernel
theorem test_wf_message_good : (Instr.sealedLinkMessageReceive .sealed ⟨1, 1, 0, List.replicate 240 0⟩ true).wf = true := by
  decide +kernel
theorem test_wf_ack_number : (Instr.linkAckReceive .sealed (2 ^ 64) 32 true).wf = false := by decide +kernel
theorem test_wf_ack_credit : (Instr.linkAckReceive .sealed 1 33 true).wf = false := by decide +kernel
theorem test_wf_sdo_expedited_long : (Instr.sdoInitiateDownload 0 0 0x2000 1 true 5 [0, 0, 0, 0, 0]).wf = false := by
  decide +kernel
theorem test_wf_sdo_expedited_size : (Instr.sdoInitiateDownload 0 0 0x2000 1 true 2 [0]).wf = false := by decide +kernel
theorem test_wf_sdo_segmented_size : (Instr.sdoInitiateDownload 0 0 0x2000 1 false (2 ^ 32) []).wf = false := by
  decide +kernel
theorem test_wf_sdo_segmented_data : (Instr.sdoInitiateDownload 0 0 0x2000 1 false 8 [0]).wf = false := by decide +kernel
theorem test_wf_sdo_segment_empty : (Instr.sdoDownloadSegment 0 0 false true []).wf = false := by decide +kernel
theorem test_wf_sdo_segment_long : (Instr.sdoDownloadSegment 0 0 false true (List.replicate 8 0)).wf = false := by
  decide +kernel
theorem test_wf_slac_groups : (Instr.slacSound 0 1 (List.replicate 57 0)).wf = false := by decide +kernel
theorem test_wf_mpdu_length :
    (Instr.plcMpduReceive 0 ⟨true, false, 0, true, true, .data, List.replicate 1519 0, 0⟩).wf = false := by decide +kernel
theorem test_wf_can_length : (Instr.vcanFrame 0 0x100 (List.replicate 9 0)).wf = false := by decide +kernel
theorem test_wf_burst_ports : (Instr.harnessBurst 0 ⟨List.replicate 25 ⟨0, 0, false, 0, 1⟩, .good⟩).wf = false := by decide +kernel
theorem test_wf_burst_beats : (Instr.harnessBurst 0 ⟨[⟨0, 0, false, 0, 0⟩], .good⟩).wf = false := by decide +kernel
theorem test_wf_plateau_samples : (Instr.pilotPlateauEvaluation 0 false [(0, 0)]).wf = false := by decide +kernel
theorem test_wf_cycle_samples : (Instr.elementCycleEnd 0 ⟨[], 0, 0, 0, []⟩).wf = false := by decide +kernel
theorem test_wf_harmonics : (Instr.harmonicWindowEnd 0 (List.replicate 1025 0) []).wf = false := by decide +kernel
theorem test_wf_sealed_write_data :
    (Instr.sealedObjectWrite ⟨.operator, 0⟩ 0x5000 1 0 241 (List.replicate 241 0)).wf = false := by decide +kernel
theorem test_wf_sealed_write_total : (Instr.sealedObjectWrite ⟨.operator, 0⟩ 0x5000 1 0 (2 ^ 32) []).wf = false := by
  decide +kernel
theorem test_wf_terminal_write_data :
    (Instr.terminalObjectWrite ⟨.operator, 0⟩ 0x7800 1 (List.replicate 241 0)).wf = false := by decide +kernel
theorem test_wf_overlay_data :
    (Instr.overlayWrite ⟨.operator, 0⟩ 0 0 0 241 1 (List.replicate 241 0)).wf = false := by decide +kernel
theorem test_wf_palette_length : (Instr.paletteWrite ⟨.operator, 0⟩ 0 0 (List.replicate 81 0)).wf = false := by
  decide +kernel
theorem test_wf_calendar_data : (Instr.calendarWrite ⟨.operator, 0⟩ 0 241 (List.replicate 241 0)).wf = false := by
  decide +kernel
theorem test_wf_calendar_total : (Instr.calendarWrite ⟨.operator, 0⟩ 0 (2 ^ 32) []).wf = false := by decide +kernel
theorem test_wf_seal_parameter_data :
    (Instr.sealParameterWrite ⟨.verifier, 0⟩ 0x5000 1 (List.replicate 241 0)).wf = false := by decide +kernel
theorem test_wf_blink_half : (Instr.blinkSet ⟨.operator, 0⟩ 0 40 41 65536 true).wf = false := by decide +kernel
theorem test_wf_certificate :
    (Instr.certificateInstallationReq 0 []).wf = true := by decide +kernel
theorem test_wf_output_sum : (Instr.outputSumOver (2 ^ 32)).wf = false := by decide +kernel
theorem test_wf_plain_command : (Instr.pmcSnapshot 1).wf = true := by decide

/-! ### The manual's worked examples -/

/-- 00, example under session identity: slot 165, point P05, generation 258 has handle A501_0205h (R11). -/
theorem test_handle_example :
    ({ State.reset with app.ctx := State.reset.app.ctx.upd 165 fun c => { c with gen := 258, point := 5 } } : State).handleOf 165
      = 0xA5010205 := by decide +kernel

/-- 05, example "a lost pilot edge": with GUARD the edge of P53, source 101, survives the write of 0 that followed a
read of 0000_0010h (R111). -/
theorem test_guard_example :
    (match exec (.buckleCPendWrite 1 3 0) { State.reset with
        app.bkl.kx := true
        app.bkl.guard := true
        app.bkl.lastRead := State.reset.app.bkl.lastRead.set (16 * 1 + 3) 0x10
        app.bkl.src := (State.reset.app.bkl.src.upd 100 fun e => { e with latch := true }).upd 101 fun e =>
          { e with latch := true } } with
      | .next t => ((t.app.bkl.src.get 100).latch, (t.app.bkl.src.get 101).latch)
      | _ => (true, true)) = (false, true) := by decide +kernel

/-- 07, example "a 32 A Type 2 cable": 32 A clamp the duty to 53.3 % (R154, R167). -/
theorem test_clamp_example : clampDuty 32 = 533 := by decide

/-- 07, the same example: V1 = 721.3 mV and V2 = 360.7 mV are class 3 under form 1, in whole mV. -/
theorem test_cable_example : proxClass { cfg := 1 } (721 - 361) = 3 := by decide +kernel

/-- 11, example "meter constant for a 350 kW DC point". -/
theorem test_pulse_constant_example :
    pulseRateOk 400000 100 20 = true ∧ pulseRateOk 400000 1000 20 = false ∧ pulseRateOk 400000 1000 4 = true := by decide

/-- 12, example "decoding a credit token": the check of the block 039C_6564_00FA_9605h (R306). -/
theorem test_token_check_example : tokChk 0x039C656400FA9605 = 0x9605 := by decide

/-- 13, example "a blink phase under half rate": the codes at the end of frames 0 to 3, where the change fell due in
frame 2, and the frame in which the new index is shown (R322 to R324). -/
theorem test_ledger_example :
    let frame := fun (l : PLine) => if mayHold true l then { l with code := l.code + 1 } else driveLine {} l
    let l3 := frame { code := 1, mem := ⟨0, [(10, 41)]⟩, shown := ⟨0, [(10, 40)]⟩, due := true }
    (frame { code := 2 }).code = 3 ∧ (frame { code := 3 }).code = 0 ∧ (frame { code := 0 }).code = 1 ∧
      l3.code = 2 ∧ l3.shown.get 10 = 40 ∧ (frame l3).code = 1 ∧ (frame l3).shown.get 10 = 41 := by decide +kernel

/-- 17 R425: 0001h follows FFFFh. -/
theorem test_generation_wrap : wrap16From1 0xFFFF = 1 ∧ wrap16From1 1 = 2 := by decide

/-- The check values of the two published checksums for the digits 1 to 9 (06 R130, 15 R386). -/
theorem test_checksum_examples : crc32 [49, 50, 51, 52, 53, 54, 55, 56, 57] = 0xCBF43926 ∧
    crc16 0xFFFF [49, 50, 51, 52, 53, 54, 55, 56, 57] = 0x29B1 := by decide +kernel

/-! ### Instruction words, from the published encodings (05 R99) -/

/-- `addi a0, x0, 5`, bits 31 to 20 the immediate, 19 to 15 rs1, 14 to 12 funct3, 11 to 7 rd, 6 to 0 the opcode. -/
theorem test_immediate_addi : immI 0b000000000101_00000_000_01010_0010011 = 5 := by decide

/-- `sw x5, -4(x6)`: the immediate lies in bits 31 to 25 and 11 to 7. -/
theorem test_immediate_store : immS 0b1111111_00101_00110_010_11100_0100011 = -4 := by decide

/-- `c.li a0, 5` is `addi a0, x0, 5`. -/
theorem test_compressed_li :
    rvExpand false 0b010_0_01010_00101_01 = (some 0b000000000101_00000_000_01010_0010011, 2) := by decide +kernel

/-- `c.lw a0, 4(a1)` is `lw a0, 4(a1)`. -/
theorem test_compressed_lw :
    rvExpand true 0b010_000_011_1_0_010_00 = (some 0b000000000100_01011_010_01010_0000011, 2) := by decide +kernel

/-- `c.j -2` is `jal x0, -2`. -/
theorem test_compressed_jump : immJ (((rvExpand false 0b101_1_1_11_1_1_1_111_1_01).1).getD 0) = -2 := by decide +kernel

/-! ### One command each, on small states -/

/-- 05 R120: a selection that the table does not list leaves the register unchanged. -/
theorem test_select_unlisted :
    (match exec (.pmcSelect 0 0x0E00) State.reset with | .next t => decide (t.app = State.reset.app) | _ => false) = true := by
  decide +kernel

/-- 95: a step with a command in front is the command on the queue's rest. -/
theorem test_step_takes_front :
    (match step { State.reset with pending := [.pmcSnapshot 1, .pmcSnapshot 0] } with
      | .next t => (t.pending, t.app.pmc.taken)
      | _ => ([], 0)) = ([.pmcSnapshot 0], 1) := by decide +kernel

/-! ### Witnesses of the obligations -/

/-- The hypotheses of `Obligations.HarnessGrantsAndCounters` are met. -/
theorem witness_harnessGrantsAndCounters :
  (∃ g : Fin 30, ∃ reqs : List BurstReq, ∃ e : Ecc, ∃ s : State, (∃ r ∈ reqs, BurstReq.atTarget g r = true ∧
    isSafePort r.port = true ∧ isTestReq r = false ∧ safeEligible (s.app.hrn.get g) r.port = true)) ∧
  (∃ g : Fin 30, ∃ reqs : List BurstReq, ∃ e : Ecc, ∃ s : State, reqs ≠ [] ∧ (∀ r ∈ reqs, BurstReq.atTarget g
    r = true ∧ isSafePort r.port = false ∧ isTestReq r = false)) ∧
  (∃ i : Fin 128, ∃ v : Word, ∃ s : State, pmcListed (fld v 8 8) (fld v 0 8) = true) ∧
  (∃ i : Fin 128, ∃ v : Word, ∃ s : State, pmcListed (fld v 8 8) (fld v 0 8) = false) ∧
  (∃ v : Word, ∃ s : State, bit v 0 = true) ∧
  (∃ i : Fin 128, ∃ s : State, s.app.pmc.cnt.get i < 2 ^ 32 ∧ (i.val = 127 ∨ (s.app.pmc.sel.get (i.val +
    1)).chain = false) ∧ (s.app.bkl.src.get 500).latch = false) ∧
  (∃ i : Fin 128, ∃ s : State, s.app.pmc.cnt.get i < 2 ^ 32 ∧ i.val < 127 ∧ (s.app.pmc.sel.get (i.val +
    1)).chain = true ∧ s.app.pmc.cnt.get (i.val + 1) < 2 ^ 32 - 1) ∧
  (∃ v : Word, ∃ s : State, bit v 0 = false) :=
  ⟨⟨0, [⟨0x01000000, 20, false, 1, 1⟩], .good, State.reset, ⟨0x01000000, 20, false, 1, 1⟩, by decide +kernel⟩,
   ⟨0, [⟨0x01000000, 7, false, 1, 8⟩], .good, State.reset, by decide +kernel⟩,
   ⟨0, 0x100, State.reset, by decide⟩,
   ⟨0, 0xFF00, State.reset, by decide⟩,
   ⟨1, State.reset, by decide⟩,
   ⟨127, State.reset, by decide⟩,
   ⟨0, { State.reset with app.pmc.sel := State.reset.app.pmc.sel.set 1 { chain := true } }, by decide⟩,
   ⟨0, State.reset, by decide +kernel⟩⟩

/-- The hypotheses of `Obligations.GirthAdmissionAndGrants` are met. -/
theorem witness_girthAdmissionAndGrants :
  (∃ p : Fin 24, ∃ v : Word, ∃ s : State, s.app.girth.rebuilding = true) ∧
  (∃ p : Fin 24, ∃ v : Word, ∃ s : State, s.app.girth.rebuilding = false ∧ (10 < fld v 28 4 ∨ girthUnits (fld
    v 28 4) ≤ fld v 16 8 ∨ (s.cold.kinds.get (fld v 28 4)).maxHold < fld v 0 16)) ∧
  (∃ p : Fin 24, ∃ v : Word, ∃ s : State, s.app.girth.rebuilding = false ∧ fld v 28 4 ≤ 10 ∧ fld v 16 8 <
    girthUnits (fld v 28 4) ∧ fld v 0 16 ≤ (s.cold.kinds.get (fld v 28 4)).maxHold ∧ s.unitAbsent (fld v 28 4)
    (fld v 16 8) = true) ∧
  (∃ p : Fin 24, ∃ v : Word, ∃ s : State, s.app.girth.rebuilding = false ∧ fld v 28 4 ≤ 10 ∧ fld v 16 8 <
    girthUnits (fld v 28 4) ∧ fld v 0 16 ≤ (s.cold.kinds.get (fld v 28 4)).maxHold ∧ s.unitAbsent (fld v 28 4)
    (fld v 16 8) = false ∧ s.unitTaken (fld v 28 4) (fld v 16 8) = true) ∧
  (∃ p : Fin 24, ∃ v : Word, ∃ r : GirthReq, ∃ s : State, (girthAccept p (s.runningSlot p) (fld v 28 4) (fld v
    16 8) (fld v 0 16) s).1 = .ok ∧ (girthAccept p (s.runningSlot p) (fld v 28 4) (fld v 16 8) (fld v 0 16)
    s).2.2 = some r) ∧
  (∃ c : Fin 3, ∃ r : GirthReq, ∃ q : List GirthReq, ∃ s : State, s.app.girth.queue.get c = r :: q ∧
    (s.fitsNow s.app.girth.dissEff r = true ∨ (r.pred ≤ s.ht ∧ s.hardCap r.kind = true)) ∧ sendsOn r.kind =
    false ∧ r.kind ≠ 6 ∧ r.gone = false ∧ r.port < 24) ∧
  (∃ p : Fin 24, ∃ v : Word, ∃ s : State, fld v 0 16 ≠ 0) ∧
  (∃ k : BitVec 16, ∃ s : State, k ≠ 0) ∧
  (∃ c : Fin 3, ∃ r : GirthReq, ∃ q : List GirthReq, ∃ s : State, s.app.girth.queue.get c = r :: q ∧
    (s.fitsNow s.app.girth.dissEff r = true ∨ (r.pred ≤ s.ht ∧ s.hardCap r.kind = true))) ∧
  (∃ k : Fin 16, ∃ u : Nat, ∃ s : State, s.unitOn k u = false) ∧
  (∃ k : Fin 16, ∃ u : Nat, ∃ s : State, s.unitOn k u = true) ∧
  (∃ c : Fin 3, ∃ s : State, s.app.girth.queue.get c = []) ∧
  (∃ c : Fin 3, ∃ r : GirthReq, ∃ q : List GirthReq, ∃ s : State, s.app.girth.queue.get c = r :: q ∧ s.fitsNow
    s.app.girth.dissEff r = false ∧ (s.ht < r.pred ∨ s.hardCap r.kind = false)) :=
  ⟨⟨0, 0, State.reset, by decide⟩,
   ⟨0, 0xB0000000, { State.reset with app.girth.rebuilding := false }, by decide⟩,
   ⟨0, 0x10000000, { State.reset with app.girth.rebuilding := false }, by decide⟩,
   ⟨0, 0x40000000, { State.reset with app.girth.rebuilding := false, power.loads := State.reset.power.loads.set 0 { cfg := 0x22000010, st := .on } }, by decide⟩,
   ⟨0, 0x90000000, { ticket := 1, port := 0, kind := 9, unit := 0, hold := 100, pred := 0 }, { State.reset with app.girth.rebuilding := false }, by decide +kernel⟩,
   ⟨2, { ticket := 1, port := 0, kind := 9, unit := 0, hold := 100 }, [], { State.reset with app.girth.queue := State.reset.app.girth.queue.set 2 [{ ticket := 1, port := 0, kind := 9, unit := 0, hold := 100 }] }, by decide⟩,
   ⟨0, 1, State.reset, by decide⟩,
   ⟨1, State.reset, by decide⟩,
   ⟨2, { ticket := 1, port := 0, kind := 9, unit := 0, hold := 100 }, [], { State.reset with app.girth.queue := State.reset.app.girth.queue.set 2 [{ ticket := 1, port := 0, kind := 9, unit := 0, hold := 100 }] }, by decide⟩,
   ⟨0, 0, State.reset, by decide⟩,
   ⟨4, 0, { State.reset with power.loads := State.reset.power.loads.set 0 { cfg := 0x22000010, st := .on } }, by decide⟩,
   ⟨0, State.reset, by decide +kernel⟩,
   ⟨0, { ticket := 1, port := 0, kind := 5, unit := 0, hold := 10, pred := 5 }, [], { State.reset with app.girth.queue := State.reset.app.girth.queue.set 0 [{ ticket := 1, port := 0, kind := 5, unit := 0, hold := 10, pred := 5 }], app.girth.dissEff := 0 }, by decide +kernel⟩⟩

/-- The hypotheses of `Obligations.GirthSettings` are met. -/
theorem witness_girthSettings :
  (∃ c : Fin 3, ∃ v : Word, ∃ s : State, s.cold.grtLock = false ∧ sharesOk (s.cold.share.set c (v &&&
    0x3FFFFFFF)) = false) ∧
  (∃ c : Fin 3, ∃ v : Word, ∃ s : State, s.cold.grtLock = false ∧ sharesOk (s.cold.share.set c (v &&&
    0x3FFFFFFF)) = true) ∧
  (∃ c : Fin 3, ∃ v : Word, ∃ s : State, s.cold.grtLock = true) ∧
  (∃ s : State, s.app.girth.rebuilding = true ∧ s.inReset = false) ∧
  (∃ s : State, s.app.girth.rebuilding = false ∨ s.inReset = true) :=
  ⟨⟨0, 0x3FFFFFFF, State.reset, by decide⟩,
   ⟨0, 0, State.reset, by decide⟩,
   ⟨0, 0, { State.reset with cold.grtLock := true }, by decide⟩,
   ⟨State.reset, by decide⟩,
   ⟨{ State.reset with app.girth.rebuilding := false }, by decide +kernel⟩⟩

/-- The hypotheses of `Obligations.BuckleSources` are met. -/
theorem witness_buckleSources :
  (∃ g : Fin 18, ∃ s : State, g.val < 10 ∧ s.app.bkl.kx = false ∧ s.claimable g ≠ 0 ∧ s.claimable g ≠ 500) ∧
  (∃ g : Fin 18, ∃ s : State, 10 ≤ g.val ∨ s.app.bkl.kx = true ∨ s.claimable g = 0) ∧
  (∃ g : Fin 18, ∃ v : Word, ∃ s : State, g.val < 10 ∧ s.app.bkl.kx = false ∧ (s.app.bkl.src.get (fld v 0
    9)).insvc = true ∧ (s.app.bkl.src.get (fld v 0 9)).target = g.val) ∧
  (∃ n : Fin 512, ∃ s : State, isReserved n = false ∧ isLevel n = false ∧ s.inReset = false ∧ s.gated = false
    ∧ (s.app.bkl.src.get n).latch = false) ∧
  (∃ n : Fin 512, ∃ s : State, isReserved n = false ∧ isLevel n = false ∧ s.inReset = false ∧ s.gated = false
    ∧ (s.app.bkl.src.get n).latch = true ∧ n.val ≠ 500) ∧
  (∃ n : Fin 512, ∃ b : Bool, ∃ s : State, isReserved n = false ∧ isLevel n = true) ∧
  (∃ v : Word, ∃ s : State, s.inReset = false ∧ s.gated = false) ∧
  (∃ g : Fin 18, ∃ v : Word, ∃ s : State, 10 ≤ g.val ∨ s.app.bkl.kx = true ∨ (s.app.bkl.src.get (fld v 0
    9)).insvc = false ∨ (s.app.bkl.src.get (fld v 0 9)).target ≠ g.val) ∧
  (∃ v : Word, ∃ s : State, s.app.bkl.lock = false ∧ s.anyInService = false) ∧
  (∃ v : Word, ∃ s : State, s.app.bkl.lock = false ∧ s.anyInService = true ∧ bit v 0 ≠ s.app.bkl.kx) ∧
  (∃ g : Fin 18, ∃ s : State, s.kxTarget g = true) ∧
  (∃ p : Fin 24, ∃ k : Fin 16, ∃ v : Word, ∃ s : State, s.app.bkl.kx = true ∧ s.app.bkl.guard = true) ∧
  (∃ p : Fin 24, ∃ k : Fin 16, ∃ v : Word, ∃ s : State, s.app.bkl.kx = true ∧ s.app.bkl.guard = false) ∧
  (∃ n : Fin 512, ∃ s : State, s.gated = true ∧ s.waking.contains n.val = true) ∧
  (∃ n : Fin 512, ∃ s : State, s.gated = false) ∧
  (∃ p : Fin 24, ∃ k : Fin 16, ∃ v : Word, ∃ s : State, s.app.bkl.kx = false) ∧
  (∃ g : Fin 18, ∃ s : State, s.kxTarget g = false) :=
  ⟨⟨0, { State.reset with app.bkl.src := State.reset.app.bkl.src.set 504 { latch := true, level := 1 } }, by decide +kernel⟩,
   ⟨10, State.reset, by decide⟩,
   ⟨0, 504, { State.reset with app.bkl.src := State.reset.app.bkl.src.set 504 { insvc := true, level := 1 } }, by decide⟩,
   ⟨504, State.reset, by decide +kernel⟩,
   ⟨504, { State.reset with app.bkl.src := State.reset.app.bkl.src.set 504 { latch := true } }, by decide +kernel⟩,
   ⟨384, true, State.reset, by decide⟩,
   ⟨0x81, State.reset, by decide +kernel⟩,
   ⟨0, 1, State.reset, by decide +kernel⟩,
   ⟨1, State.reset, by decide +kernel⟩,
   ⟨1, { State.reset with app.bkl.src := State.reset.app.bkl.src.set 504 { insvc := true } }, by decide +kernel⟩,
   ⟨0, { State.reset with app.bkl.kx := true }, by decide⟩,
   ⟨0, 0, 0, { State.reset with app.bkl.kx := true, app.bkl.guard := true }, by decide⟩,
   ⟨0, 0, 0, { State.reset with app.bkl.kx := true }, by decide⟩,
   ⟨504, { State.reset with app.bkl.src := State.reset.app.bkl.src.set 504 { slp := true, wake := true }, app.harts := ⟨{ wfi := true }, []⟩ }, by decide +kernel⟩,
   ⟨0, State.reset, by decide +kernel⟩,
   ⟨0, 0, 1, State.reset, by decide +kernel⟩,
   ⟨0, State.reset, by decide +kernel⟩⟩

/-- The hypotheses of `Obligations.Mailboxes` are met. -/
theorem witness_mailboxes :
  (∃ p : Fin 24, ∃ m : Fin 20, ∃ v : Word, ∃ s : State, s.pairWriter m = p.val ∧ (s.app.mbx.pair.get
    m).queue.length < 8) ∧
  (∃ p : Fin 24, ∃ m : Fin 20, ∃ v : Word, ∃ s : State, s.pairWriter m = p.val ∧ 8 ≤ (s.app.mbx.pair.get
    m).queue.length) ∧
  (∃ p : Fin 24, ∃ m : Fin 20, ∃ g : List Word, ∃ r : List (List Word), ∃ s : State, (s.app.mbx.pair.get
    m).queue = g :: r) ∧
  (∃ p : Fin 24, ∃ m : Fin 8, ∃ s : State, (s.app.mbx.hub.get m).holder = none ∧ (s.app.mbx.hub.get
    m).queue.length < 32) ∧
  (∃ p : Fin 24, ∃ m : Fin 8, ∃ q : Nat, ∃ s : State, (s.app.mbx.hub.get m).holder = some q ∧ q ≠ p.val) ∧
  (∃ p : Fin 24, ∃ m : Fin 8, ∃ v : Word, ∃ s : State, (s.app.mbx.hub.get m).holder = some p.val) ∧
  (∃ p : Fin 24, ∃ m : Fin 8, ∃ s : State, (s.app.mbx.hub.get m).holder = some p.val) ∧
  (∃ m : Fin 8, ∃ q : Nat, ∃ s : State, (s.app.mbx.hub.get m).holder = some q) ∧
  (∃ p : Fin 24, ∃ m : Fin 8, ∃ g : List Word, ∃ r : List (List Word), ∃ s : State, (s.app.mbx.hub.get
    m).queue = g :: r ∧ (s.app.mbx.hub.get m).reader = p.val) ∧
  (∃ p : Fin 24, ∃ m : Fin 8, ∃ s : State, (s.app.mbx.hub.get m).reader ≠ p.val) ∧
  (∃ p : Fin 24, ∃ m : Fin 20, ∃ v : Word, ∃ s : State, p.val ≠ s.pairWriter m) ∧
  (∃ p : Fin 24, ∃ m : Fin 20, ∃ s : State, (s.app.mbx.pair.get m).queue = []) ∧
  (∃ p : Fin 24, ∃ m : Fin 8, ∃ s : State, (s.app.mbx.hub.get m).holder = none ∧ 32 ≤ (s.app.mbx.hub.get
    m).queue.length) ∧
  (∃ p : Fin 24, ∃ m : Fin 8, ∃ s : State, (s.app.mbx.hub.get m).holder = some p.val) ∧
  (∃ p : Fin 24, ∃ m : Fin 8, ∃ v : Word, ∃ s : State, (s.app.mbx.hub.get m).holder ≠ some p.val) ∧
  (∃ p : Fin 24, ∃ m : Fin 8, ∃ s : State, (s.app.mbx.hub.get m).holder ≠ some p.val) ∧
  (∃ m : Fin 8, ∃ s : State, (s.app.mbx.hub.get m).holder = none) :=
  ⟨⟨0, 0, 5, State.reset, by decide⟩,
   ⟨0, 0, 5, { State.reset with app.mbx.pair := State.reset.app.mbx.pair.set 0 { queue := [[], [], [], [], [], [], [], []] } }, by decide⟩,
   ⟨0, 0, [1], [], { State.reset with app.mbx.pair := State.reset.app.mbx.pair.set 0 { queue := [[1]] } }, by decide⟩,
   ⟨0, 0, State.reset, by decide⟩,
   ⟨0, 0, 1, { State.reset with app.mbx.hub := State.reset.app.mbx.hub.set 0 { holder := some 1 } }, by decide⟩,
   ⟨0, 0, 5, { State.reset with app.mbx.hub := State.reset.app.mbx.hub.set 0 { holder := some 0 } }, by decide⟩,
   ⟨0, 0, { State.reset with app.mbx.hub := State.reset.app.mbx.hub.set 0 { holder := some 0 } }, by decide⟩,
   ⟨0, 0, { State.reset with app.mbx.hub := State.reset.app.mbx.hub.set 0 { holder := some 0 } }, by decide⟩,
   ⟨0, 0, [1], [], { State.reset with app.mbx.hub := State.reset.app.mbx.hub.set 0 { queue := [[1]] } }, by decide⟩,
   ⟨1, 0, State.reset, by decide⟩,
   ⟨9, 0, 1, State.reset, by decide +kernel⟩,
   ⟨0, 0, State.reset, by decide +kernel⟩,
   ⟨0, 0, { State.reset with app.mbx.hub := State.reset.app.mbx.hub.upd 0 fun b => { b with queue := List.replicate 32 [] } }, by decide +kernel⟩,
   ⟨0, 0, { State.reset with app.mbx.hub := State.reset.app.mbx.hub.upd 0 fun b => { b with holder := some 0 } }, by decide +kernel⟩,
   ⟨0, 0, 1, State.reset, by decide +kernel⟩,
   ⟨0, 0, State.reset, by decide +kernel⟩,
   ⟨0, State.reset, by decide +kernel⟩⟩

/-- The hypotheses of `Obligations.OutputsAndRestarts` are met. -/
theorem witness_outputsAndRestarts :
  (∃ x : Fin 96, ∃ s : State, s.app.lane.fault = false ∧ s.power.clkOk = true ∧ s.outBlocked x = false ∧
    (outIsOn (s.out x) = true ∨ (s.out x).st = .thermWait)) ∧
  (∃ x : Fin 96, ∃ s : State, s.app.lane.fault = false ∧ s.power.clkOk = true ∧ s.outBlocked x = false ∧
    (s.out x).st = .latched ∧ (s.out x).hot = false) ∧
  (∃ x : Fin 96, ∃ s : State, s.app.lane.fault = false ∧ s.power.clkOk = true ∧ s.outBlocked x = false ∧
    ¬((s.out x).st = .latched ∧ (s.out x).hot = false)) ∧
  (∃ x : Fin 96, ∃ s : State, s.app.lane.fault = false ∧ s.power.clkOk = true ∧ (s.outBlocked x = true ∨
    (outIsOn (s.out x) = false ∧ (s.out x).st ≠ .thermWait))) ∧
  (∃ x : Fin 96, ∃ s : State, s.app.lane.fault = false ∧ s.power.clkOk = true ∧ s.outBlocked x = true) ∧
  (∃ n : Fin 64, ∃ s : State, (s.out n).pulling = true) ∧
  (∃ x : Fin 96, ∃ s : State, (s.out x).st = .pullIn ∨ (s.out x).st = .on) ∧
  (∃ x : Fin 96, ∃ s : State, (s.out x).st = .limit) ∧
  (∃ x : Fin 96, ∃ s : State, outIsOn (s.out x) = true ∧ outLatchMode s (s.out x) = true) ∧
  (∃ x : Fin 96, ∃ s : State, outIsOn (s.out x) = true ∧ outLatchMode s (s.out x) = false) ∧
  (∃ n : Fin 64, ∃ s : State, (s.out n).pulling = false) ∧
  (∃ x : Fin 96, ∃ s : State, (s.out x).st ≠ .pullIn ∧ (s.out x).st ≠ .on) ∧
  (∃ x : Fin 96, ∃ s : State, (s.out x).st ≠ .limit) ∧
  (∃ x : Fin 96, ∃ s : State, outIsOn (s.out x) = false) ∧
  (∃ x : Fin 96, ∃ s : State, (s.out x).st = .thermWait ∧ (s.out x).restartQ = false ∧ s.power.retryMax ≤
    (s.out x).retries) ∧
  (∃ x : Fin 96, ∃ s : State, (s.out x).st = .thermWait ∧ (s.out x).restartQ = false ∧ (s.out x).hot = false ∧
    (s.out x).retries < s.power.retryMax ∧ (girthAccept restartPort none (outGirthKind x) (outUnit x) 0 s).1 ≠
    .ok ∧ (girthAccept restartPort none (outGirthKind x) (outUnit x) 0 s).1 ≠ .busy) ∧
  (∃ x : Fin 96, ∃ s : State, (s.out x).st = .thermWait ∧ (s.out x).restartQ = false ∧ (s.out x).hot = false ∧
    (s.out x).retries < s.power.retryMax ∧ (girthAccept restartPort none (outGirthKind x) (outUnit x) 0 s).1 =
    .ok) ∧
  (∃ x : Fin 96, ∃ s : State, (s.out x).st ≠ .latched) ∧
  (∃ x : Fin 96, ∃ s : State, (s.out x).st = .latched) :=
  ⟨⟨0, { State.reset with power.coils := State.reset.power.coils.set 0 { st := .on } }, by decide⟩,
   ⟨0, { State.reset with power.coils := State.reset.power.coils.set 0 { st := .latched, cause := 1 } }, by decide⟩,
   ⟨0, State.reset, by decide⟩,
   ⟨0, State.reset, by decide⟩,
   ⟨0, { State.reset with bridle.window := true, bridle.pts := State.reset.bridle.pts.upd 0 (fun b => { b with active := true }) }, by decide +kernel⟩,
   ⟨0, { State.reset with power.coils := State.reset.power.coils.set 0 { st := .pullIn, pulling := true } }, by decide⟩,
   ⟨0, { State.reset with power.coils := State.reset.power.coils.set 0 { st := .on } }, by decide⟩,
   ⟨0, { State.reset with power.coils := State.reset.power.coils.set 0 { st := .limit } }, by decide⟩,
   ⟨0, { State.reset with power.coils := State.reset.power.coils.set 0 { st := .on } }, by decide⟩,
   ⟨0, { State.reset with power.run := true, power.coils := State.reset.power.coils.set 0 { st := .on } }, by decide⟩,
   ⟨0, State.reset, by decide +kernel⟩,
   ⟨0, State.reset, by decide +kernel⟩,
   ⟨0, State.reset, by decide +kernel⟩,
   ⟨0, State.reset, by decide +kernel⟩,
   ⟨0, { State.reset with power.coils := State.reset.power.coils.set 0 { st := .thermWait, hot := true, retries := 4 } }, by decide⟩,
   ⟨0, { State.reset with app.girth.rebuilding := false, obj.unfit := ⟨0xFF, []⟩, power.coils := State.reset.power.coils.set 0 { st := .thermWait } }, by decide +kernel⟩,
   ⟨0, { State.reset with app.girth.rebuilding := false, power.coils := State.reset.power.coils.set 0 { st := .thermWait } }, by decide +kernel⟩,
   ⟨0, State.reset, by decide⟩,
   ⟨0, { State.reset with power.coils := State.reset.power.coils.set 0 { st := .latched } }, by decide⟩⟩

/-- The hypotheses of `Obligations.OutputSettingsAndTests` are met. -/
theorem witness_outputSettingsAndTests :
  (∃ x : Fin 96, ∃ v : Word, ∃ s : State, s.app.lane.fault = false ∧ s.power.clkOk = true ∧ ((s.out x).st =
    .off ∨ (s.out x).st = .latched) ∧ outCfgOk x (outCfgNext x (s.out x).cfg v) = true) ∧
  (∃ x : Fin 96, ∃ v : Word, ∃ s : State, s.app.lane.fault = false ∧ s.power.clkOk = true ∧ ((s.out x).st ≠
    .off ∧ (s.out x).st ≠ .latched ∨ outCfgOk x (outCfgNext x (s.out x).cfg v) = false)) ∧
  (∃ v : Word, ∃ s : State, s.app.lane.fault = false ∧ s.power.clkOk = true ∧ s.power.protLock = false ∧ fld v
    8 4 ≠ 0 ∧ 10 ≤ fld v 16 8 ∧ s.power.run = false ∧ bit v 1 = false) ∧
  (∃ v : Word, ∃ s : State, s.app.lane.fault = false ∧ s.power.clkOk = true ∧ s.power.run = true ∧ bit v 0 =
    false) ∧
  (∃ x : Fin 96, ∃ a b : Int, ∃ s : State, s.app.lane.fault = false ∧ s.power.clkOk = true ∧ s.outBlocked x =
    false ∧ (s.out x).st = .on ∧ outKind (s.out x) ≠ 2 ∧ testSuspended s x = false) ∧
  (∃ x : Fin 96, ∃ a b : Int, ∃ s : State, fld (s.out x).cfg 24 4 = 0) ∧
  (∃ x : Fin 96, ∃ a b : Int, ∃ s : State, fld (s.out x).cfg 24 4 ≠ 0 ∧ (s.out x).st = .on ∧ outKind (s.out x)
    ≠ 2 ∧ testSuspended s x = false) ∧
  (∃ x : Fin 96, ∃ a b : Int, ∃ s : State, fld (s.out x).cfg 24 4 ≠ 0 ∧ ((s.out x).st ≠ .on ∨ outKind (s.out
    x) = 2 ∨ testSuspended s x = true)) :=
  ⟨⟨0, 0x22322890, State.reset, by decide⟩,
   ⟨0, 0, State.reset, by decide⟩,
   ⟨0x3C0401, State.reset, by decide⟩,
   ⟨0, { State.reset with power.run := true }, by decide⟩,
   ⟨0, 0, 0, { State.reset with power.qband := ⟨0, []⟩, power.coils := State.reset.power.coils.set 0 { st := .on } }, by simp [testSuspended, State.out, outKind]; decide⟩,
   ⟨0, 0, 0, { State.reset with power.coils := State.reset.power.coils.set 0 { cfg := 0 } }, by decide⟩,
   ⟨0, 0, 0, { State.reset with power.qband := ⟨0, []⟩, power.coils := State.reset.power.coils.set 0 { st := .on } }, by simp [testSuspended, State.out, outKind]; decide⟩,
   ⟨0, 0, 0, { State.reset with power.coils := State.reset.power.coils.upd 0 fun o => { o with cfg := 0x01000000 } }, by decide +kernel⟩⟩

/-- The hypotheses of `Obligations.SupplyEvents` are met. -/
theorem witness_supplyEvents :
  (∃ s : State, s.app.clk.vana = false) ∧
  (∃ neg : Bool, ∃ s : State, (if neg then s.power.vpiln else s.power.vpilp) = false) :=
  ⟨⟨State.reset, by decide⟩,
   ⟨true, State.reset, by decide⟩⟩

/-- The hypotheses of `Obligations.PowerFailAndSealedSupply` are met. -/
theorem witness_powerFailAndSealedSupply :
  (∃ s : State, s.power.pfin = false ∧ s.die.running = true) ∧
  (∃ s : State, s.power.pfin = true ∧ s.die.running = true) ∧
  (∃ mv : Nat, ∃ s : State, s.die.running = true ∧ mv < 1850 ∧ s.die.legal.ltStat.getLsbD 1 = false ∧
    s.logFree ≠ 0) ∧
  (∃ mv : Nat, ∃ s : State, s.die.running = true ∧ 1900 ≤ mv) ∧
  (∃ s : State, s.die.running = true ∧ s.die.met.refFail = false) ∧
  (∃ s : State, s.die.running = true) ∧
  (∃ s : State, s.die.running = true) :=
  ⟨⟨{ State.reset with die.running := true }, by decide⟩,
   ⟨{ State.reset with power.pfin := true, die.running := true }, by decide⟩,
   ⟨1849, { State.reset with die.running := true }, by decide⟩,
   ⟨1900, { State.reset with die.running := true }, by decide⟩,
   ⟨{ State.reset with die.running := true }, by decide⟩,
   ⟨{ State.reset with die.running := true }, by decide⟩,
   ⟨{ State.reset with die.running := true }, by decide⟩⟩

/-- The hypotheses of `Obligations.ResetsAndHoldWindow` are met. -/
theorem witness_resetsAndHoldWindow :
  (∃ s : State, s.cold.coldHeld = false) ∧
  (∃ v : Word, ∃ s : State, s.cold.coldHeld = false ∧ fld v 16 16 = 0x5A3C ∧ bit v 0 = true) ∧
  (∃ v : Word, ∃ s : State, fld v 16 16 ≠ 0x5A3C) ∧
  (∃ s : State, s.cold.coldHeld = false ∧ s.fuses.dbg.getLsbD 4 = false) ∧
  (∃ s : State, s.inReset = false ∧ s.app.clk.wdPeriod ≠ 0) ∧
  (∃ s : State, s.cold.coldHeld = false) ∧
  (∃ b : Bool, ∃ s : State, s.cold.coldHeld = false) ∧
  (∃ s : State, s.cold.coldHeld = false ∧ s.cold.started = true) ∧
  (∃ s : State, s.cold.coldHeld = true) ∧
  (∃ s : State, s.cold.coldHeld = false ∧ s.cold.started = true) ∧
  (∃ s : State, s.cold.coldHeld = true) ∧
  (∃ s : State, s.bridle.window = true) ∧
  (∃ p : Fin 64, ∃ s : State, s.bridleRuns = true ∧ ((s.bp p).shut = 2 ∨ (s.bp p).shut = 3)) ∧
  (∃ p : Fin 64, ∃ s : State, (s.bp p).shut ≠ 2 ∧ (s.bp p).shut ≠ 3) ∧
  (∃ p : Fin 64, ∃ s : State, s.bridleRuns = true ∧ (s.bp p).shut = 4) ∧
  (∃ p : Fin 64, ∃ s : State, (s.bp p).shut ≠ 4) ∧
  (∃ s : State, s.bridle.window = false) ∧
  (∃ hi : Bool, ∃ v : Word, ∃ s : State, s.bridle.fifo = [] ∧ s.bridleRuns = true ∧ s.bridle.inReset = false) ∧
  (∃ hi : Bool, ∃ v a b c : Word, ∃ r : List BrMsg, ∃ s : State, s.bridle.fifo = .post a b c :: r ∧ r.length <
    7) ∧
  (∃ hi : Bool, ∃ v : Word, ∃ s : State, 8 ≤ s.bridle.fifo.length) :=
  ⟨⟨State.reset, by decide⟩,
   ⟨0x5A3C0001, State.reset, by decide⟩,
   ⟨1, State.reset, by decide⟩,
   ⟨State.reset, by decide⟩,
   ⟨{ State.reset with app.clk.wdPeriod := 1 }, by decide⟩,
   ⟨State.reset, by decide⟩,
   ⟨true, State.reset, by decide⟩,
   ⟨{ State.reset with cold.started := true }, by decide⟩,
   ⟨{ State.reset with cold.coldHeld := true }, by decide⟩,
   ⟨{ State.reset with cold.started := true }, by decide⟩,
   ⟨{ State.reset with cold.coldHeld := true }, by decide⟩,
   ⟨{ State.reset with bridle.window := true }, by decide +kernel⟩,
   ⟨3, { State.reset with bridle.st := .run, bridle.pts := State.reset.bridle.pts.upd 3 (fun b => { b with shut := 2 }) }, by decide +kernel⟩,
   ⟨3, State.reset, by decide +kernel⟩,
   ⟨3, { State.reset with bridle.st := .run, bridle.pts := State.reset.bridle.pts.upd 3 (fun b => { b with shut := 4 }) }, by decide +kernel⟩,
   ⟨3, State.reset, by decide +kernel⟩,
   ⟨State.reset, by decide +kernel⟩,
   ⟨true, 0, { State.reset with bridle.st := .run }, by decide +kernel⟩,
   ⟨true, 0, 0, 0, 0, [], { State.reset with bridle.fifo := [.post 0 0 0] }, by decide +kernel⟩,
   ⟨true, 0, { State.reset with bridle.fifo := List.replicate 8 (.post 0 0 0) }, by decide +kernel⟩⟩

/-- The hypotheses of `Obligations.WatchdogTrialAndSpread` are met. -/
theorem witness_watchdogTrialAndSpread :
  (∃ v : Word, ∃ s : State, s.app.clk.wdPeriod = 0) ∧
  (∃ v : Word, ∃ s : State, s.app.clk.wdPeriod ≠ 0) ∧
  (∃ v : Word, ∃ s : State, fld v 24 8 = 0xA5) ∧
  (∃ s : State, s.app.clk.wdPeriod ≠ 0 ∧ s.inReset = false ∧ s.gated = false ∧ (s.app.bkl.src.get 3).latch =
    false) ∧
  (∃ v : Word, ∃ s : State, s.cold.sscLock = false) ∧
  (∃ v : Word, ∃ s : State, s.cold.sscLock = true) ∧
  (∃ s : State, s.cold.sscHold = true) ∧
  (∃ v : Word, ∃ s : State, s.trial.active = false ∧ bit v 28 = true ∧ bit v 29 = false) ∧
  (∃ v : Word, ∃ s : State, bit v 29 = true) ∧
  (∃ s : State, s.trial.active = true ∧ s.cold.coldHeld = false) ∧
  (∃ s : State, s.app.clk.pllP = true) :=
  ⟨⟨5, State.reset, by decide⟩,
   ⟨5, { State.reset with app.clk.wdPeriod := 1 }, by decide⟩,
   ⟨0xA5000000, State.reset, by decide⟩,
   ⟨{ State.reset with app.clk.wdPeriod := 2 }, by decide +kernel⟩,
   ⟨1, State.reset, by decide⟩,
   ⟨1, { State.reset with cold.sscLock := true }, by decide⟩,
   ⟨{ State.reset with cold.sscHold := true }, by decide⟩,
   ⟨0x10000005, State.reset, by decide⟩,
   ⟨0x20000000, State.reset, by decide⟩,
   ⟨{ State.reset with trial.active := true }, by decide⟩,
   ⟨{ State.reset with app.clk.pllP := true }, by decide⟩⟩

/-- The hypotheses of `Obligations.DeliveryPortsAndEngines` are met. -/
theorem witness_deliveryPortsAndEngines :
  (∃ port : Fin 2, ∃ up : Bool, ∃ s : State, s.inReset = false ∧ (up = true → s.app.server.ethMode.get port ≠
    0)) ∧
  (∃ port : Fin 2, ∃ up : Bool, ∃ s : State, s.inReset = true ∨ (up = true ∧ s.app.server.ethMode.get port =
    0)) ∧
  (∃ q : Fin 14, ∃ s : State, s.inReset = false ∧ q = 7 ∧ s.app.sl.timedOut.length ≤ 64) ∧
  (∃ q : Fin 14, ∃ s : State, s.inReset = false) ∧
  (∃ q : Fin 14, ∃ s : State, s.inReset = true) ∧
  (∃ v : Word, ∃ e : Fin 9, ∃ s : State, bit v e = true ∧ s.app.clk.run.getLsbD e = false ∧
    s.app.clk.loaded.getLsbD e = false) :=
  ⟨⟨1, false, State.reset, by decide +kernel⟩,
   ⟨1, true, { State.reset with app.clk.appHeld := true }, by decide +kernel⟩,
   ⟨7, State.reset, by decide +kernel⟩,
   ⟨3, State.reset, by decide +kernel⟩,
   ⟨3, { State.reset with app.clk.appHeld := true }, by decide +kernel⟩,
   ⟨1, 0, State.reset, by decide⟩⟩

/-- The hypotheses of `Obligations.SealedLink` are met. -/
theorem witness_sealedLink :
  (∃ m : LinkMsg, ∃ s : State, s.endUp .control = true ∧ m.seq = s.app.link.rxNext ∧ s.app.link.rx.length < 32) ∧
  (∃ m : LinkMsg, ∃ s : State, s.endUp .control = true ∧ m.seq < s.app.link.rxNext) ∧
  (∃ side : Side, ∃ m : LinkMsg, ∃ s : State, s.endUp side = true ∧ (s.linkEnd side).rxNext < m.seq) ∧
  (∃ side : Side, ∃ m : LinkMsg, ∃ macOk : Bool, ∃ s : State, s.endUp side = false) ∧
  (∃ side : Side, ∃ acked credit : Nat, ∃ s : State, s.endUp side = true ∧ (s.linkEnd side).acked ≤ acked) ∧
  (∃ side : Side, ∃ acked credit : Nat, ∃ s : State, s.endUp side = true ∧ acked < (s.linkEnd side).acked) ∧
  (∃ side : Side, ∃ acked credit : Nat, ∃ macOk : Bool, ∃ s : State, s.endUp side = false) ∧
  (∃ side : Side, ∃ s : State, (s.linkEnd side).key.isSome = true ∧ (s.linkEnd side).spent = false) ∧
  (∃ side : Side, ∃ s : State, (s.linkEnd side).key = none) ∧
  (∃ side : Side, ∃ u : SentMsg, ∃ r : List SentMsg, ∃ s : State, (s.linkEnd side).unacked = u :: r ∧ u.sends
    < 3) ∧
  (∃ side : Side, ∃ s : State, (s.linkEnd side).unacked = []) ∧
  (∃ side : Side, ∃ u : SentMsg, ∃ r : List SentMsg, ∃ s : State, (s.linkEnd side).unacked = u :: r ∧ 3 ≤
    u.sends) ∧
  (∃ side : Side, ∃ s : State, s.endUp side = true) ∧
  (∃ side : Side, ∃ s : State, s.endUp side = false) ∧
  (∃ s : State, s.mayAgree = true ∧ s.mayRequest = true) ∧
  (∃ s : State, s.mayAgree = true ∧ s.mayRequest = true) ∧
  (∃ k : Bool, ∃ s : State, (s.mayRequest && s.mayAgree) = false) ∧
  (∃ port : Fin 24, ∃ v : Word, ∃ s : State, slMaster port = true ∧ s.slStatus port (fld v 16 16) (fld v 0 8)
    = .ok) ∧
  (∃ port : Fin 24, ∃ v : Word, ∃ s : State, slMaster port = true ∧ s.slStatus port (fld v 16 16) (fld v 0 8)
    ≠ .ok) ∧
  (∃ port : Fin 24, ∃ v : Word, ∃ s : State, slMaster port = false) ∧
  (∃ port : Fin 24, ∃ m : LinkMsg, ∃ r : List LinkMsg, ∃ s : State, slMaster port = true ∧ s.app.link.rx = m
    :: r) ∧
  (∃ port : Fin 24, ∃ s : State, slMaster port = true ∧ s.app.link.rx = []) ∧
  (∃ port : Fin 24, ∃ s : State, slMaster port = false) :=
  ⟨⟨{ cls := 3, seq := 1, tag := 0, payload := [] }, { State.reset with app.link := { State.reset.app.link with key := some 5 }, die.link := { State.reset.die.link with key := some 5 }, die.running := true }, by decide +kernel⟩,
   ⟨{ cls := 3, seq := 0, tag := 0, payload := [] }, { State.reset with app.link := { State.reset.app.link with key := some 5 }, die.link := { State.reset.die.link with key := some 5 }, die.running := true }, by decide +kernel⟩,
   ⟨.sealed, { cls := 3, seq := 2, tag := 0, payload := [] }, { State.reset with app.link := { State.reset.app.link with key := some 5 }, die.link := { State.reset.die.link with key := some 5 }, die.running := true }, by decide +kernel⟩,
   ⟨.sealed, { cls := 3, seq := 2, tag := 0, payload := [] }, true, State.reset, by decide +kernel⟩,
   ⟨.control, 3, 32, { State.reset with app.link := { State.reset.app.link with key := some 5 }, die.link := { State.reset.die.link with key := some 5 }, die.running := true }, by decide +kernel⟩,
   ⟨.control, 0, 32, { State.reset with app.link := { State.reset.app.link with key := some 5, acked := 4 } }, by decide +kernel⟩,
   ⟨.control, 0, 32, true, State.reset, by decide +kernel⟩,
   ⟨.sealed, { State.reset with app.link := { State.reset.app.link with key := some 5 }, die.link := { State.reset.die.link with key := some 5 }, die.running := true }, by decide +kernel⟩,
   ⟨.sealed, State.reset, by decide +kernel⟩,
   ⟨.control, ⟨{ cls := 3, seq := 1, tag := 0, payload := [] }, 1, []⟩, [], { State.reset with app.link := { State.reset.app.link with unacked := [⟨{ cls := 3, seq := 1, tag := 0, payload := [] }, 1, []⟩] } }, by decide +kernel⟩,
   ⟨.control, State.reset, by decide +kernel⟩,
   ⟨.control, ⟨{ cls := 3, seq := 1, tag := 0, payload := [] }, 3, []⟩, [], { State.reset with app.link := { State.reset.app.link with unacked := [⟨{ cls := 3, seq := 1, tag := 0, payload := [] }, 3, []⟩] } }, by decide +kernel⟩,
   ⟨.sealed, { State.reset with app.link := { State.reset.app.link with key := some 5 }, die.link := { State.reset.die.link with key := some 5 }, die.running := true }, by decide +kernel⟩,
   ⟨.sealed, State.reset, by decide +kernel⟩,
   ⟨{ State.reset with die.running := true, app.tack.st := 2 }, by decide +kernel⟩,
   ⟨{ State.reset with die.running := true, app.tack.st := 2 }, by decide +kernel⟩,
   ⟨true, State.reset, by decide +kernel⟩,
   ⟨0, 0x30000, { State.reset with app.link := { State.reset.app.link with key := some 5 }, app.sl.port := State.reset.app.sl.port.set 0 { tag := 7 } }, by decide +kernel⟩,
   ⟨0, 0x30000, State.reset, by decide +kernel⟩,
   ⟨5, 0, State.reset, by decide⟩,
   ⟨22, { cls := 3, seq := 1, tag := 0, payload := [] }, [], { State.reset with app.link.rx := [{ cls := 3, seq := 1, tag := 0, payload := [] }] }, by decide +kernel⟩,
   ⟨22, State.reset, by decide +kernel⟩,
   ⟨5, State.reset, by decide⟩⟩

/-- The hypotheses of `Obligations.SafetyLane` are met. -/
theorem witness_safetyLane :
  (∃ s : State, s.power.clkOk = true ∧ s.bridle.hbOn = true) ∧
  (∃ s : State, s.power.clkOk = true ∧ s.bridle.hbOn = true) ∧
  (∃ crcOk : Bool, ∃ s : State, s.power.clkOk = false ∨ s.bridle.hbOn = false) ∧
  (∃ s : State, s.power.clkOk = true) ∧
  (∃ s : State, s.power.clkOk = false) ∧
  (∃ s : State, s.bridleRuns = true ∧ s.power.report = true ∧ s.power.clkOk = true) ∧
  (∃ s : State, s.bridleRuns = false ∨ s.power.report = false ∨ s.power.clkOk = false) ∧
  (∃ s : State, s.bridleRuns = true ∧ s.power.safe = true ∧ s.power.clkOk = true ∧ s.power.report = false ∧ 10
    ≤ s.power.hbRun) ∧
  (∃ s : State, s.mayReleaseSafe = false) ∧
  (∃ crcOk : Bool, ∃ c : SafeCmd, ∃ s : State, (crcOk && s.power.clkOk) = false) ∧
  (∃ c : SafeCmd, ∃ s : State, s.power.clkOk = true) ∧
  (∃ x : Fin 96, ∃ s : State, s.power.clkOk = true) ∧
  (∃ n : Fin 8, ∃ b on : Bool, ∃ s : State, s.power.clkOk = true) ∧
  (∃ k : Fin 8, ∃ s : State, s.power.clkOk = true) :=
  ⟨⟨{ State.reset with bridle.hbOn := true }, by decide +kernel⟩,
   ⟨{ State.reset with bridle.hbOn := true }, by decide +kernel⟩,
   ⟨true, State.reset, by decide +kernel⟩,
   ⟨State.reset, by decide +kernel⟩,
   ⟨{ State.reset with power.clkOk := false }, by decide +kernel⟩,
   ⟨{ State.reset with bridle.st := .run, power.report := true }, by decide +kernel⟩,
   ⟨State.reset, by decide +kernel⟩,
   ⟨{ State.reset with bridle.st := .run, power.safe := true, power.hbRun := 10 }, by decide +kernel⟩,
   ⟨State.reset, by decide +kernel⟩,
   ⟨false, .seqOff 0, State.reset, by decide +kernel⟩,
   ⟨.seqOff 0, State.reset, by decide +kernel⟩,
   ⟨3, State.reset, by decide +kernel⟩,
   ⟨3, true, false, State.reset, by decide +kernel⟩,
   ⟨3, State.reset, by decide +kernel⟩⟩

/-- The hypotheses of `Obligations.ApplicationLaneAndPowerDie` are met. -/
theorem witness_applicationLaneAndPowerDie :
  (∃ c : LaneCmd, ∃ s : State, s.power.clkOk = true) ∧
  (∃ c : LaneCmd, ∃ s : State, s.power.clkOk = true) ∧
  (∃ crcOk : Bool, ∃ c : LaneCmd, ∃ s : State, s.power.clkOk = false) ∧
  (∃ k : Fin 8, ∃ d2 v : Bool, ∃ s : State, s.power.clkOk = true ∧ (s.obj.unfit.get 7).getLsbD k = false) ∧
  (∃ src : Fin 512, ∃ s : State, s.inReset = false ∧ s.power.clkOk = true) ∧
  (∃ src : Fin 512, ∃ s : State, s.inReset = false ∧ s.power.clkOk = true) ∧
  (∃ crcOk : Bool, ∃ src : Fin 512, ∃ s : State, s.inReset = true ∨ s.power.clkOk = false) ∧
  (∃ s : State, s.power.clkOk = false) ∧
  (∃ s : State, s.power.clkOk = true) :=
  ⟨⟨.psq 0, State.reset, by decide +kernel⟩,
   ⟨.psq 0, State.reset, by decide +kernel⟩,
   ⟨true, .psq 0, { State.reset with power.clkOk := false }, by decide +kernel⟩,
   ⟨3, true, true, State.reset, by decide +kernel⟩,
   ⟨280, State.reset, by decide +kernel⟩,
   ⟨280, State.reset, by decide +kernel⟩,
   ⟨true, 280, { State.reset with power.clkOk := false }, by decide +kernel⟩,
   ⟨{ State.reset with power.clkOk := false }, by decide +kernel⟩,
   ⟨State.reset, by decide +kernel⟩⟩

/-- The hypotheses of `Obligations.PilotCommands` are met. -/
theorem witness_pilotCommands :
  (∃ p : Fin 64, ∃ v : Word, ∃ s : State, bit v 15 = false ∧ s.power.clkOk = true ∧ s.power.safe = false ∧
    (s.pil p).held = false ∧ s.blocked p = false ∧ (BitVec.ofNat 2 (fld v 0 2) = 2 → dutyOk (BitVec.ofNat 10
    (fld v 4 10)).toNat = true)) ∧
  (∃ p : Fin 64, ∃ v : Word, ∃ s : State, bit v 15 = false ∧ ((s.pil p).held = true ∨ s.blocked p = true)) ∧
  (∃ p : Fin 64, ∃ v : Word, ∃ s : State, bit v 15 = true ∧ s.power.clkOk = true ∧ pilEd17 (s.pil p) = true ∧
    (s.pil p).modeAct = 2 ∧ (s.pil p).held = false ∧ s.blocked p = false) ∧
  (∃ s : State, s.power.clkOk = false) ∧
  (∃ s : State, s.power.clkOk = true ∧ s.power.safe = false) ∧
  (∃ p : Fin 64, ∃ s : State, (s.pil p).waking = true) ∧
  (∃ n : Nat, ∃ s : State, s.inReset = false ∧ s.power.clkOk = true) ∧
  (∃ p : Fin 64, ∃ v : Word, ∃ s : State, s.power.clkOk = true ∧ within 100 (fld v 16 16) 5000 = true ∧ within
    9800 (fld v 0 16) 10200 = true) ∧
  (∃ port : Fin 24, ∃ p : Fin 64, ∃ s : State, s.power.pilRebuilt = true) :=
  ⟨⟨3, 1, { State.reset with power.safe := false }, by decide +kernel⟩,
   ⟨3, 1, { State.reset with power.pilots := State.reset.power.pilots.upd 3 (fun q => { q with held := true }) }, by decide +kernel⟩,
   ⟨3, 0x8000, { State.reset with power.pilots := State.reset.power.pilots.upd 3 (fun q => { q with cfg := 4, modeAct := 2 }) }, by decide +kernel⟩,
   ⟨{ State.reset with power.clkOk := false }, by decide +kernel⟩,
   ⟨{ State.reset with power.safe := false }, by decide +kernel⟩,
   ⟨3, { State.reset with power.pilots := State.reset.power.pilots.upd 3 (fun q => { q with waking := true }) }, by decide +kernel⟩,
   ⟨10, State.reset, by decide +kernel⟩,
   ⟨3, 0x0FA02710, State.reset, by decide +kernel⟩,
   ⟨0, 3, { State.reset with power.pilRebuilt := true }, by decide +kernel⟩⟩

/-- The hypotheses of `Obligations.PilotFaultsAndProximity` are met. -/
theorem witness_pilotFaultsAndProximity :
  (∃ p : Fin 64, ∃ w : List (Int × Int), ∃ s : State, s.power.clkOk = true ∧ pilJudged (s.pil p) = true ∧
    (s.pil p).skipPos = false ∧ efCond (pilEd17 (s.pil p)) (w.map (vCable (s.pil p))) = true ∧ 1 ≤ (s.pil
    p).efRun) ∧
  (∃ p : Fin 64, ∃ w : List (Int × Int), ∃ s : State, s.power.clkOk = true ∧ pilJudged (s.pil p) = true ∧
    (s.pil p).skipPos = false ∧ efCond (pilEd17 (s.pil p)) (w.map (vCable (s.pil p))) = false ∧ within 2
    (posResult (pilEd17 (s.pil p)) (w.map (vCable (s.pil p)))) 6 = true ∧ (s.pil p).cand = posResult (pilEd17
    (s.pil p)) (w.map (vCable (s.pil p))) ∧ 2 ≤ (s.pil p).candRun ∧ posState (posResult (pilEd17 (s.pil p))
    (w.map (vCable (s.pil p)))) ≠ (s.pil p).st) ∧
  (∃ p : Fin 64, ∃ w : List (Int × Int), ∃ s : State, s.power.clkOk = true ∧ pilJudged (s.pil p) = true ∧
    (s.pil p).modeAct = 2 ∧ (s.pil p).skipNeg = false ∧ fiveOf (fun v => bandOf (pilEd17 (s.pil p)) v = .f)
    (w.map (vCable (s.pil p))) = false ∧ 1 ≤ (s.pil p).negRun) ∧
  (∃ p : Fin 64, ∃ c : Fin 3, ∃ s : State, s.bridleRuns = true) ∧
  (∃ p : Fin 64, ∃ c : Fin 3, ∃ s : State, s.bridleRuns = false) ∧
  (∃ p : Fin 64, ∃ neg : Bool, ∃ w : List (Int × Int), ∃ s : State, s.power.clkOk = false ∨ pilJudged (s.pil
    p) = false) ∧
  (∃ p : Fin 64, ∃ s : State, (s.pil p).modeAct = 1 ∧ (s.pil p).st = .c ∧ (s.pil p).offWait = false) ∧
  (∃ p : Fin 64, ∃ v1 v2 : Int, ∃ s : State, pilForm (s.pil p) = 0) ∧
  (∃ p : Fin 64, ∃ v1 v2 : Int, ∃ s : State, pilForm (s.pil p) ≠ 0 ∧ (s.pil p).pcand = proxClass (s.pil p) (v1
    - v2) ∧ proxClass (s.pil p) (v1 - v2) ≠ (s.pil p).cls ∧ 2 ≤ (s.pil p).prun) :=
  ⟨⟨3, List.replicate 8 (0, 0), { State.reset with power.pilots := State.reset.power.pilots.upd 3 (fun q => { q with st := .a, modeAct := 1, efRun := 1 }) }, by decide +kernel⟩,
   ⟨3, List.replicate 8 (9000, 0), { State.reset with power.pilots := State.reset.power.pilots.upd 3 (fun q => { q with st := .a, modeAct := 1, cand := 3, candRun := 2 }) }, by decide +kernel⟩,
   ⟨3, List.replicate 8 (0, 0), { State.reset with power.pilots := State.reset.power.pilots.upd 3 (fun q => { q with st := .a, modeAct := 2, negRun := 1 }) }, by decide +kernel⟩,
   ⟨3, 1, { State.reset with bridle.st := .run }, by decide +kernel⟩,
   ⟨3, 1, State.reset, by decide +kernel⟩,
   ⟨3, true, [], State.reset, by decide +kernel⟩,
   ⟨3, { State.reset with power.pilots := State.reset.power.pilots.upd 3 (fun q => { q with st := .c, modeAct := 1 }) }, by decide +kernel⟩,
   ⟨3, 100, 0, State.reset, by decide +kernel⟩,
   ⟨3, 2000, 0, { State.reset with power.pilots := State.reset.power.pilots.upd 3 (fun q => { q with cfg := 1, pcand := 7, prun := 2 }) }, by decide +kernel⟩⟩

/-- The hypotheses of `Obligations.EarthSupervision` are met. -/
theorem witness_earthSupervision :
  (∃ n : Fin 64, ∃ u : Int, ∃ r : Nat, ∃ row : Nat, ∃ s : State, bit (s.power.rc.get n).cfg 0 = true ∧
    rcTripped (s.power.rc.get n) = false ∧ rcDecides (rcRows (s.power.rc.get n).cfg (rcWindow u r)) (rcRuns
    (rcRows (s.power.rc.get n).cfg (rcWindow u r)) (s.power.rc.get n).runs) 0 = some row) ∧
  (∃ n : Fin 64, ∃ u : Int, ∃ r : Nat, ∃ s : State, bit (s.power.rc.get n).cfg 0 = true ∧ rcTripped
    (s.power.rc.get n) = false ∧ rcDecides (rcRows (s.power.rc.get n).cfg (rcWindow u r)) (rcRuns (rcRows
    (s.power.rc.get n).cfg (rcWindow u r)) (s.power.rc.get n).runs) 0 = none) ∧
  (∃ n : Fin 64, ∃ u : Int, ∃ r : Nat, ∃ s : State, rcTripped (s.power.rc.get n) = true ∨ bit (s.power.rc.get
    n).cfg 0 = false) ∧
  (∃ n : Fin 64, ∃ s : State, s.app.lane.fault = false ∧ s.power.clkOk = true ∧ rcTripped (s.power.rc.get n) =
    true ∧ (s.power.rc.get n).low = 5 ∧ (s.power.rc.get n).inRange = true) ∧
  (∃ n : Fin 64, ∃ s : State, s.app.lane.fault = false ∧ s.power.clkOk = true ∧ ((s.power.rc.get n).low ≠ 5 ∨
    (s.power.rc.get n).inRange = false)) ∧
  (∃ n : Fin 64, ∃ v : Word, ∃ s : State, s.app.lane.fault = false ∧ s.power.clkOk = true ∧ rcTripped
    (s.power.rc.get n) = true) ∧
  (∃ n : Fin 64, ∃ s : State, s.app.lane.fault = false ∧ s.power.clkOk = true ∧ rcTripped (s.power.rc.get n) =
    false) ∧
  (∃ k : Fin 16, ∃ vp vn : Int, ∃ span : Nat, ∃ s : State, imInjects (s.power.im.get k) = false) ∧
  (∃ k : Fin 16, ∃ vp vn : Int, ∃ span : Nat, ∃ s : State, imInjects (s.power.im.get k) = true ∧
    (s.power.im.get k).plat = none) ∧
  (∃ k : Fin 16, ∃ s : State, s.app.lane.fault = false ∧ s.power.clkOk = true ∧ (s.power.im.get k).st = .off) ∧
  (∃ k : Fin 16, ∃ s : State, s.app.lane.fault = false ∧ s.power.clkOk = true ∧ (s.power.im.get k).st ≠ .fault) ∧
  (∃ k : Fin 16, ∃ s : State, s.app.lane.fault = false ∧ s.power.clkOk = true ∧ (s.power.im.get k).st = .fault) ∧
  (∃ k : Fin 16, ∃ s : State, s.app.lane.fault = false ∧ s.power.clkOk = true ∧ (s.power.im.get k).st ≠ .fault) ∧
  (∃ k : Fin 16, ∃ s : State, s.app.lane.fault = false ∧ s.power.clkOk = true) ∧
  (∃ k : Fin 16, ∃ s : State, s.app.lane.fault = false ∧ s.power.clkOk = true ∧ (s.power.im.get k).st = .fault
    ∧ (s.power.im.get k).results.length = 2 ∧ (s.power.im.get k).results.all (fun r => decide (fld
    (s.power.im.get k).thr 0 16 ≤ r)) = true) ∧
  (∃ k : Fin 16, ∃ s : State, s.app.lane.fault = false ∧ s.power.clkOk = true ∧ (s.power.im.get
    k).results.length ≠ 2) ∧
  (∃ u : EarthUnit, ∃ s : State, s.bridleRuns = false) ∧
  (∃ k : Fin 16, ∃ s : State, s.bridleRuns = true) ∧
  (∃ n : Fin 64, ∃ s : State, s.bridleRuns = true) :=
  ⟨⟨3, 0, 0, 5, { State.reset with power.rc := State.reset.power.rc.upd 3 (fun c => { c with cfg := c.cfg ||| 1, st := 1, runs := [0, 0, 0, 0, 0, 1] }) }, by decide +kernel⟩,
   ⟨3, 1650000, 0, { State.reset with power.rc := State.reset.power.rc.upd 3 (fun c => { c with cfg := c.cfg ||| 1, st := 1 }) }, by decide +kernel⟩,
   ⟨3, 0, 0, State.reset, by decide +kernel⟩,
   ⟨3, { State.reset with power.rc := State.reset.power.rc.upd 3 (fun c => { c with cfg := c.cfg ||| 1, st := 3, low := 5 }) }, by decide +kernel⟩,
   ⟨3, State.reset, by decide +kernel⟩,
   ⟨3, 0, { State.reset with power.rc := State.reset.power.rc.upd 3 (fun c => { c with st := 3 }) }, by decide +kernel⟩,
   ⟨3, State.reset, by decide +kernel⟩,
   ⟨3, 0, 0, 0, State.reset, by decide +kernel⟩,
   ⟨3, 0, 0, 0, { State.reset with power.im := State.reset.power.im.upd 3 (fun c => { c with en := true, st := .settling }) }, by decide +kernel⟩,
   ⟨3, State.reset, by decide +kernel⟩,
   ⟨3, State.reset, by decide +kernel⟩,
   ⟨3, { State.reset with power.im := State.reset.power.im.upd 3 (fun c => { c with en := true, st := .fault }) }, by decide +kernel⟩,
   ⟨3, State.reset, by decide +kernel⟩,
   ⟨3, State.reset, by decide +kernel⟩,
   ⟨3, { State.reset with power.im := State.reset.power.im.upd 3 (fun c => { c with en := true, st := .fault, results := [5000, 5000] }) }, by decide +kernel⟩,
   ⟨3, State.reset, by decide +kernel⟩,
   ⟨.rc 3, State.reset, by decide +kernel⟩,
   ⟨3, { State.reset with bridle.st := .run }, by decide +kernel⟩,
   ⟨3, { State.reset with bridle.st := .run }, by decide +kernel⟩⟩

/-- The hypotheses of `Obligations.BridleFaultsAndStart` are met. -/
theorem witness_bridleFaultsAndStart :
  (∃ s : State, s.bridle.st = .load ∧ s.bridle.loaded = true ∧ s.safeSlot = none) ∧
  (∃ k : Bool, ∃ s : State, s.bridle.st = .load ∧ s.bridle.loaded = false) ∧
  (∃ k : Bool, ∃ s : State, s.bridle.st ≠ .load) ∧
  (∃ s : State, s.bridle.st ≠ .load ∧ s.bridle.st ≠ .safe ∧ s.bridle.inReset = false) ∧
  (∃ s : State, s.bridle.st ≠ .load ∧ s.bridle.st ≠ .safe ∧ s.bridle.inReset = false) ∧
  (∃ s : State, s.bridle.st ≠ .load ∧ s.bridle.st ≠ .safe ∧ s.bridle.inReset = false) ∧
  (∃ s : State, s.bridle.st ≠ .load ∧ s.bridle.st ≠ .safe ∧ s.bridle.inReset = false) ∧
  (∃ s : State, s.bridle.st = .load ∨ s.bridle.st = .safe ∨ s.bridle.inReset = true) ∧
  (∃ s : State, s.bridle.st = .load ∨ s.bridle.st = .safe ∨ s.bridle.inReset = true) ∧
  (∃ s : State, s.bridle.inReset = true ∧ s.bridle.cfg.isNone = false) :=
  ⟨⟨{ State.reset with bridle.loaded := true }, by decide +kernel⟩,
   ⟨true, State.reset, by decide +kernel⟩,
   ⟨true, { State.reset with bridle.st := .run }, by decide +kernel⟩,
   ⟨{ State.reset with bridle.st := .run }, by decide +kernel⟩,
   ⟨{ State.reset with bridle.st := .run }, by decide +kernel⟩,
   ⟨{ State.reset with bridle.st := .run }, by decide +kernel⟩,
   ⟨{ State.reset with bridle.st := .run }, by decide +kernel⟩,
   ⟨State.reset, by decide⟩,
   ⟨State.reset, by decide⟩,
   ⟨{ State.reset with bridle.inReset := true, bridle.cfg := some {} }, by decide +kernel⟩⟩

/-- The hypotheses of `Obligations.MirrorsAndSafetyInputs` are met. -/
theorem witness_mirrorsAndSafetyInputs :
  (∃ p : Fin 64, ∃ high : Bool, ∃ s : State, s.bridleRuns = true) ∧
  (∃ p : Fin 64, ∃ high : Bool, ∃ s : State, s.bridleRuns = true ∧ (s.ptCfg p).supervised = true ∧ s.coilOn p
    = false ∧ (s.bp p).mirror = true ∧ (mainOpen (s.ptCfg p) high && !s.bridle.mirBad.getLsbD p) = false) ∧
  (∃ p : Fin 64, ∃ high : Bool, ∃ s : State, s.bridleRuns = true ∧ (s.ptCfg p).supervised = true ∧ s.coilOn p
    = true ∧ (s.bp p).mirror = false ∧ (s.bp p).seenClosed = true ∧ (mainOpen (s.ptCfg p) high &&
    !s.bridle.mirBad.getLsbD p) = true) ∧
  (∃ p : Fin 64, ∃ s : State, s.bridleRuns = true ∧ (s.ptCfg p).supervised = true ∧ s.coilOn p = false ∧ (s.bp
    p).mirror = false) ∧
  (∃ p : Fin 64, ∃ s : State, s.bridleRuns = true ∧ (s.ptCfg p).supervised = true ∧ s.coilOn p = true ∧ (s.bp
    p).mirror = true ∧ (s.bp p).seenClosed = false) ∧
  (∃ n : Fin 64, ∃ s : State, s.bridleRuns = true) ∧
  (∃ k : Fin 16, ∃ a b : Bool, ∃ s : State, s.bridleRuns = true) ∧
  (∃ k : Fin 16, ∃ s : State, s.bridleRuns = true ∧ (s.bridle.si.get k).a ≠ (s.bridle.si.get k).b ∧
    (s.bridle.si.get k).fault = false) ∧
  (∃ k : Fin 16, ∃ pass : Bool, ∃ s : State, s.bridleRuns = true) ∧
  (∃ p : Fin 64, ∃ s : State, s.bridleRuns = true) ∧
  (∃ p : Fin 64, ∃ b : Bool, ∃ s : State, s.bridleRuns = false) ∧
  (∃ p : Fin 64, ∃ s : State, s.bridleRuns = false) ∧
  (∃ p : Fin 64, ∃ s : State, s.bridleRuns = false) ∧
  (∃ n : Fin 64, ∃ s : State, s.bridleRuns = false) ∧
  (∃ k : Fin 16, ∃ a b : Bool, ∃ s : State, s.bridleRuns = false) ∧
  (∃ k : Fin 16, ∃ s : State, s.bridleRuns = false) ∧
  (∃ k : PathUnit, ∃ b : Bool, ∃ s : State, s.bridleRuns = false) :=
  ⟨⟨3, true, { State.reset with bridle.st := .run }, by decide +kernel⟩,
   ⟨3, false, { State.reset with bridle.st := .run, bridle.cfg := some { pts := (⟨{}, []⟩ : Bank PtCfg).upd 3 (fun c => { c with coil := 3, supervised := true }) }, bridle.pts := State.reset.bridle.pts.upd 3 (fun b => { b with mirror := true }) }, by decide +kernel⟩,
   ⟨3, true, { State.reset with bridle.st := .run, bridle.cfg := some { pts := (⟨{}, []⟩ : Bank PtCfg).upd 3 (fun c => { c with coil := 3, supervised := true }) }, power.coils := State.reset.power.coils.upd 3 (fun o => { o with st := .on }), bridle.pts := State.reset.bridle.pts.upd 3 (fun b => { b with mirror := false, seenClosed := true }) }, by decide +kernel⟩,
   ⟨3, { State.reset with bridle.st := .run, bridle.cfg := some { pts := (⟨{}, []⟩ : Bank PtCfg).upd 3 (fun c => { c with coil := 3, supervised := true }) }, bridle.pts := State.reset.bridle.pts.upd 3 (fun b => { b with mirror := false }) }, by decide +kernel⟩,
   ⟨3, { State.reset with bridle.st := .run, bridle.cfg := some { pts := (⟨{}, []⟩ : Bank PtCfg).upd 3 (fun c => { c with coil := 3, supervised := true }) }, power.coils := State.reset.power.coils.upd 3 (fun o => { o with st := .on }), bridle.pts := State.reset.bridle.pts.upd 3 (fun b => { b with mirror := true }) }, by decide +kernel⟩,
   ⟨3, { State.reset with bridle.st := .run }, by decide +kernel⟩,
   ⟨3, true, false, { State.reset with bridle.st := .run }, by decide +kernel⟩,
   ⟨3, { State.reset with bridle.st := .run, bridle.si := State.reset.bridle.si.upd 3 (fun v => { v with a := true, b := false }) }, by decide +kernel⟩,
   ⟨3, false, { State.reset with bridle.st := .run }, by decide +kernel⟩,
   ⟨3, { State.reset with bridle.st := .run }, by decide +kernel⟩,
   ⟨0, true, State.reset, by decide +kernel⟩,
   ⟨0, State.reset, by decide +kernel⟩,
   ⟨0, State.reset, by decide +kernel⟩,
   ⟨0, State.reset, by decide +kernel⟩,
   ⟨0, true, true, State.reset, by decide +kernel⟩,
   ⟨0, State.reset, by decide +kernel⟩,
   ⟨.mir 0, true, State.reset, by decide +kernel⟩⟩

/-- The hypotheses of `Obligations.DevicesAndTorque` are met. -/
theorem witness_devicesAndTorque :
  (∃ d : Fin 8, ∃ m : MotionSample, ∃ s : State, s.bridleRuns = true ∧ s.hasDev d = true) ∧
  (∃ d : Fin 8, ∃ m : MotionSample, ∃ s : State, s.bridleRuns = true ∧ s.hasDev d = true ∧ (m.illegal || zOff
    (s.encCfg (s.devCfg d).enc) m.z) = true) ∧
  (∃ d : Fin 8, ∃ m : MotionSample, ∃ s : State, s.bridleRuns = false ∨ s.hasDev d = false) ∧
  (∃ d : Fin 8, ∃ s : State, s.bridleRuns = true ∧ (s.device d).st = .stopping ∧ 50 ≤ (s.device d).still) ∧
  (∃ d : Fin 8, ∃ s : State, (s.device d).st ≠ .stopping ∨ (s.device d).still < 50) ∧
  (∃ d : Fin 8, ∃ s : State, s.bridleRuns = true ∧ (s.device d).st = .stopping ∧ (s.devCfg d).tss1 ≤ (s.device
    d).tStop) ∧
  (∃ d : Fin 8, ∃ s : State, (s.device d).st ≠ .stopping ∨ (s.device d).tStop < (s.devCfg d).tss1) ∧
  (∃ d : Fin 8, ∃ s : State, s.bridleRuns = true ∧ ((s.device d).st = .extending ∨ (s.device d).st =
    .retracting) ∧ 100 * (s.devCfg d).tmove ≤ (s.device d).tMove) ∧
  (∃ d : Fin 8, ∃ s : State, (s.device d).tMove < 100 * (s.devCfg d).tmove) ∧
  (∃ n : Fin 8, ∃ b : Bool, ∃ s : State, s.bridleRuns = true ∧ (if b then (s.power.sto.get n).b else
    (s.power.sto.get n).a) = true) ∧
  (∃ n : Fin 8, ∃ s : State, s.bridleRuns = true) :=
  ⟨⟨3, ⟨5, false, none⟩, { State.reset with bridle.st := .run, bridle.cfg := some { dev := (⟨{}, []⟩ : Bank DevCfg).upd 3 (fun c => { c with vmax := 100 }) } }, by decide +kernel⟩,
   ⟨3, ⟨5, true, none⟩, { State.reset with bridle.st := .run, bridle.cfg := some { dev := (⟨{}, []⟩ : Bank DevCfg).upd 3 (fun c => { c with vmax := 100 }) } }, by decide +kernel⟩,
   ⟨3, ⟨5, false, none⟩, State.reset, by decide +kernel⟩,
   ⟨3, { State.reset with bridle.st := .run, bridle.dev := State.reset.bridle.dev.upd 3 (fun v => { v with st := .stopping, still := 50 }) }, by decide +kernel⟩,
   ⟨3, State.reset, by decide +kernel⟩,
   ⟨3, { State.reset with bridle.st := .run, bridle.dev := State.reset.bridle.dev.upd 3 (fun v => { v with st := .stopping }) }, by decide +kernel⟩,
   ⟨3, State.reset, by decide +kernel⟩,
   ⟨3, { State.reset with bridle.st := .run, bridle.dev := State.reset.bridle.dev.upd 3 (fun v => { v with st := .extending }) }, by decide +kernel⟩,
   ⟨3, { State.reset with bridle.st := .run, bridle.cfg := some { dev := (⟨{}, []⟩ : Bank DevCfg).upd 3 (fun c => { c with tmove := 100 }) } }, by decide +kernel⟩,
   ⟨3, true, { State.reset with bridle.st := .run, power.sto := State.reset.power.sto.set 3 ⟨true, true⟩ }, by decide +kernel⟩,
   ⟨3, { State.reset with bridle.st := .run }, by decide +kernel⟩⟩

/-- The hypotheses of `Obligations.SafeMessages` are met. -/
theorem witness_safeMessages :
  (∃ k : Fin 16, ∃ f1 : Bool, ∃ d : Word, ∃ c : Byte, ∃ x : SafeTail, ∃ s : State, s.bridleRuns = true ∧
    (s.rxCfg k).enabled = true ∧ (s.bridle.rx.get k).first = none ∧ s.safeCrcOk k f1 d c x = true ∧
    ((s.bridle.rx.get k).last = 0 ∨ c ≠ (s.bridle.rx.get k).last)) ∧
  (∃ k : Fin 16, ∃ f1 g1 : Bool, ∃ d e1 : Word, ∃ c : Byte, ∃ x : SafeTail, ∃ s : State, s.bridleRuns = true ∧
    (s.rxCfg k).enabled = true ∧ s.safeCrcOk k f1 d c x = true ∧ (s.bridle.rx.get k).first = some (g1, c, e1) ∧
    g1 ≠ f1 ∧ d = ~~~e1 ∧ c ≠ 0 ∧ c ≠ (s.bridle.rx.get k).last ∧ ((s.bridle.rx.get k).last = 0 ∨ c = succ8
    (s.bridle.rx.get k).last)) ∧
  (∃ k : Fin 16, ∃ f1 : Bool, ∃ d : Word, ∃ c : Byte, ∃ x : SafeTail, ∃ s : State, s.bridleRuns = true ∧
    (s.rxCfg k).enabled = true ∧ (s.bridle.rx.get k).first = none ∧ s.safeCrcOk k f1 d c x = false) ∧
  (∃ k : Fin 16, ∃ f1 : Bool, ∃ d : Word, ∃ c : Byte, ∃ x : SafeTail, ∃ s : State, s.bridleRuns = false ∨
    (s.rxCfg k).enabled = false) ∧
  (∃ k : Fin 16, ∃ s : State, s.bridleRuns = true ∧ (s.bridle.rx.get k).first.isSome = true) ∧
  (∃ k : Fin 16, ∃ s : State, s.bridleRuns = true ∧ (s.rxCfg k).enabled = true) ∧
  (∃ j : Fin 8, ∃ s : State, s.bridleRuns = true ∧ (s.txCfg j).enabled = true ∧ s.inReset = false) ∧
  (∃ j : Fin 8, ∃ f1 : Bool, ∃ s : State, s.bridleRuns = true ∧ (s.txCfg j).enabled = true) :=
  ⟨⟨3, false, 0, 7, ⟨0, safeCrc 0 0 [0, 0, 0, 0, 7, 0]⟩, { State.reset with bridle.st := .run, bridle.cfg := some { rx := (⟨{}, []⟩ : Bank RxCfg).upd 3 (fun c => { c with enabled := true }), tx := (⟨{}, []⟩ : Bank TxCfg).upd 3 (fun c => { c with enabled := true }) } }, by decide +kernel⟩,
   ⟨3, false, true, 0xFFFFFFFF, 0, 7, ⟨0, safeCrc 0 0 [255, 255, 255, 255, 7, 0]⟩, { State.reset with bridle.st := .run, bridle.cfg := some { rx := (⟨{}, []⟩ : Bank RxCfg).upd 3 (fun c => { c with enabled := true }), tx := (⟨{}, []⟩ : Bank TxCfg).upd 3 (fun c => { c with enabled := true }) }, bridle.rx := State.reset.bridle.rx.upd 3 (fun r => { r with first := some (true, 7, 0) }) }, by decide +kernel⟩,
   ⟨3, false, 0, 7, ⟨0, 0⟩, { State.reset with bridle.st := .run, bridle.cfg := some { rx := (⟨{}, []⟩ : Bank RxCfg).upd 3 (fun c => { c with enabled := true }), tx := (⟨{}, []⟩ : Bank TxCfg).upd 3 (fun c => { c with enabled := true }) } }, by decide +kernel⟩,
   ⟨3, false, 0, 7, ⟨0, 0⟩, State.reset, by decide +kernel⟩,
   ⟨3, { State.reset with bridle.st := .run, bridle.rx := State.reset.bridle.rx.upd 3 (fun r => { r with first := some (true, 7, 0) }) }, by decide +kernel⟩,
   ⟨3, { State.reset with bridle.st := .run, bridle.cfg := some { rx := (⟨{}, []⟩ : Bank RxCfg).upd 3 (fun c => { c with enabled := true }), tx := (⟨{}, []⟩ : Bank TxCfg).upd 3 (fun c => { c with enabled := true }) } }, by decide +kernel⟩,
   ⟨3, { State.reset with bridle.st := .run, bridle.cfg := some { rx := (⟨{}, []⟩ : Bank RxCfg).upd 3 (fun c => { c with enabled := true }), tx := (⟨{}, []⟩ : Bank TxCfg).upd 3 (fun c => { c with enabled := true }) } }, by decide +kernel⟩,
   ⟨3, true, { State.reset with bridle.st := .run, bridle.cfg := some { rx := (⟨{}, []⟩ : Bank RxCfg).upd 3 (fun c => { c with enabled := true }), tx := (⟨{}, []⟩ : Bank TxCfg).upd 3 (fun c => { c with enabled := true }) } }, by decide +kernel⟩⟩

/-- The hypotheses of `Obligations.BridleMessages` are met. -/
theorem witness_bridleMessages :
  (∃ u : BitVec 8, ∃ c : BitVec 16, ∃ g : Word, ∃ s : State, s.bridleRuns = true ∧ s.bridle.inReset = false ∧
    u.toNat < 64 ∧ c ≠ s.bridle.chal) ∧
  (∃ u : BitVec 8, ∃ c : BitVec 16, ∃ g : Word, ∃ s : State, s.bridleRuns = true ∧ s.bridle.inReset = false ∧
    64 ≤ u.toNat) ∧
  (∃ u : BitVec 8, ∃ g : Word, ∃ s : State, s.bridleRuns = true ∧ s.bridle.inReset = false ∧ u.toNat < 64 ∧
    s.holds u.toNat .pilot = true ∧ (s.bp u.toNat).faultAt + 1000000 ≤ s.bridle.time ∧ (s.holds u.toNat .earth
    || s.holds u.toNat .group || s.holds u.toNat .weld || s.holds u.toNat .restart) = false) ∧
  (∃ u : BitVec 8, ∃ c : BitVec 16, ∃ g : Word, ∃ s : State, s.bridleRuns = true ∧ s.bridle.inReset = false ∧
    u.toNat < 80 ∧ c ≠ s.bridle.chal) ∧
  (∃ u : BitVec 8, ∃ c : BitVec 16, ∃ g : Word, ∃ s : State, s.bridleRuns = true ∧ s.bridle.inReset = false ∧
    80 ≤ u.toNat) ∧
  (∃ u : BitVec 8, ∃ g : Word, ∃ s : State, s.bridleRuns = true ∧ s.bridle.inReset = false ∧ u.toNat < 64 ∧
    (s.power.rc.get u.toNat).st < 3 ∧ (s.bp u.toNat).earthRc = true) ∧
  (∃ u : BitVec 8, ∃ ma g : Word, ∃ s : State, s.bridleRuns = true ∧ s.bridle.inReset = false ∧ u.toNat < 64 ∧
    ((s.bp u.toNat).shut = 2 ∨ (s.bp u.toNat).shut = 3)) ∧
  (∃ u : BitVec 8, ∃ ma g : Word, ∃ s : State, s.bridleRuns = true ∧ s.bridle.inReset = false ∧ u.toNat < 64 ∧
    (s.bp u.toNat).shut ≠ 2 ∧ (s.bp u.toNat).shut ≠ 3) ∧
  (∃ u : BitVec 8, ∃ g : Word, ∃ s : State, s.bridleRuns = true ∧ s.bridle.inReset = false ∧ 24 ≤ u.toNat) ∧
  (∃ u : BitVec 8, ∃ g : Word, ∃ s : State, s.bridleRuns = true ∧ s.bridle.inReset = false ∧ u.toNat < 16 ∧
    s.bridle.running.getLsbD u.toNat = false) ∧
  (∃ u : BitVec 8, ∃ g : Word, ∃ s : State, s.bridleRuns = true ∧ s.bridle.inReset = false ∧ 16 ≤ u.toNat ∧
    u.toNat < 24 ∧ s.hasDev (u.toNat - 16) = true ∧ (s.devCfg (u.toNat - 16)).ss1 = false ∧ ((s.device (u.toNat
    - 16)).st = .extending ∨ (s.device (u.toNat - 16)).st = .retracting)) ∧
  (∃ u : BitVec 8, ∃ dir g : Word, ∃ s : State, s.bridleRuns = true ∧ s.bridle.inReset = false ∧ (8 ≤ u.toNat
    ∨ (dir ≠ 1 ∧ dir ≠ 2))) ∧
  (∃ u : BitVec 8, ∃ dir g : Word, ∃ s : State, s.bridleRuns = true ∧ s.bridle.inReset = false ∧ u.toNat < 8 ∧
    (dir = 1 ∨ dir = 2) ∧ s.motionOk u.toNat = false) ∧
  (∃ u : BitVec 8, ∃ g : Word, ∃ s : State, s.bridleRuns = true ∧ s.bridle.inReset = false ∧ u.toNat < 8 ∧
    s.motionOk u.toNat = true ∧ ((s.device u.toNat).st = .retracted ∨ (s.device u.toNat).st = .stopped)) ∧
  (∃ u : BitVec 8, ∃ c : BitVec 16, ∃ g : Word, ∃ s : State, s.bridleRuns = true ∧ s.bridle.inReset = false ∧
    u.toNat < 64 ∧ c ≠ s.bridle.chal) ∧
  (∃ u : BitVec 8, ∃ c : BitVec 16, ∃ g : Word, ∃ s : State, s.bridleRuns = true ∧ s.bridle.inReset = false ∧
    64 ≤ u.toNat) ∧
  (∃ u : BitVec 8, ∃ g : Word, ∃ s : State, s.bridleRuns = true ∧ s.bridle.inReset = false ∧ u.toNat < 64 ∧
    (s.holds u.toNat .noclose || s.holds u.toNat .drop || s.holds u.toNat .restart) = true) ∧
  (∃ q g : Word, ∃ s : State, s.bridleRuns = true ∧ s.bridle.inReset = false ∧ q.toNat ≤ 65535 ∧ (q.setWidth
    16 - s.bridle.acked).toNat ≤ (s.bridle.newest - s.bridle.acked).toNat) ∧
  (∃ q g : Word, ∃ s : State, s.bridleRuns = true ∧ s.bridle.inReset = false ∧ (65535 < q.toNat ∨
    (s.bridle.newest - s.bridle.acked).toNat < (q.setWidth 16 - s.bridle.acked).toNat)) ∧
  (∃ ty : BitVec 8, ∃ g : Word, ∃ s : State, s.bridleRuns = true ∧ s.bridle.inReset = false) ∧
  (∃ u : BitVec 8, ∃ c : BitVec 16, ∃ g : Word, ∃ s : State, (s.bridle.st = .verify ∨ s.bridle.st = .safe) ∧
    s.bridle.inReset = false) ∧
  (∃ u : BitVec 8, ∃ c : BitVec 16, ∃ g : Word, ∃ s : State, (s.bridle.st = .verify ∨ s.bridle.st = .safe) ∧
    s.bridle.inReset = false) ∧
  (∃ u : BitVec 8, ∃ ma g : Word, ∃ s : State, (s.bridle.st = .verify ∨ s.bridle.st = .safe) ∧
    s.bridle.inReset = false) ∧
  (∃ u : BitVec 8, ∃ g : Word, ∃ s : State, (s.bridle.st = .verify ∨ s.bridle.st = .safe) ∧ s.bridle.inReset =
    false) ∧
  (∃ u : BitVec 8, ∃ dir g : Word, ∃ s : State, (s.bridle.st = .verify ∨ s.bridle.st = .safe) ∧
    s.bridle.inReset = false) ∧
  (∃ u : BitVec 8, ∃ c : BitVec 16, ∃ g : Word, ∃ s : State, (s.bridle.st = .verify ∨ s.bridle.st = .safe) ∧
    s.bridle.inReset = false) ∧
  (∃ q g : Word, ∃ s : State, (s.bridle.st = .verify ∨ s.bridle.st = .safe) ∧ s.bridle.inReset = false) ∧
  (∃ ty : BitVec 8, ∃ g : Word, ∃ s : State, (s.bridle.st = .verify ∨ s.bridle.st = .safe) ∧ s.bridle.inReset
    = false) :=
  ⟨⟨3, 1, 0, { State.reset with bridle.st := .run }, by decide +kernel⟩,
   ⟨64, 1, 0, { State.reset with bridle.st := .run }, by decide +kernel⟩,
   ⟨3, 0, { State.reset with bridle.st := .run, bridle.time := 1000000, bridle.pts := State.reset.bridle.pts.upd 3 (fun b => { b with hold := 1 }) }, by decide +kernel⟩,
   ⟨3, 1, 0, { State.reset with bridle.st := .run }, by decide +kernel⟩,
   ⟨80, 1, 0, { State.reset with bridle.st := .run }, by decide +kernel⟩,
   ⟨3, 0, { State.reset with bridle.st := .run, bridle.pts := State.reset.bridle.pts.upd 3 (fun b => { b with hold := 2, earthRc := true }) }, by decide +kernel⟩,
   ⟨3, 5, 0, { State.reset with bridle.st := .run, bridle.pts := State.reset.bridle.pts.upd 3 (fun b => { b with shut := 2 }) }, by decide +kernel⟩,
   ⟨3, 5, 0, { State.reset with bridle.st := .run }, by decide +kernel⟩,
   ⟨30, 0, { State.reset with bridle.st := .run }, by decide +kernel⟩,
   ⟨3, 0, { State.reset with bridle.st := .run }, by decide +kernel⟩,
   ⟨19, 0, { State.reset with bridle.st := .run, bridle.cfg := some { dev := (⟨{}, []⟩ : Bank DevCfg).upd 3 (fun c => { c with vmax := 100 }) }, bridle.dev := State.reset.bridle.dev.upd 3 (fun v => { v with st := .extending, permit := true }) }, by decide +kernel⟩,
   ⟨3, 0, 0, { State.reset with bridle.st := .run }, by decide +kernel⟩,
   ⟨3, 1, 0, { State.reset with bridle.st := .run }, by decide +kernel⟩,
   ⟨3, 0, { State.reset with bridle.st := .run, bridle.running := 0xFFFF, bridle.cfg := some { dev := (⟨{}, []⟩ : Bank DevCfg).upd 3 (fun c => { c with vmax := 100 }) }, bridle.dev := State.reset.bridle.dev.upd 3 (fun v => { v with st := .stopped }), bridle.pts := State.reset.bridle.pts.upd 0 (fun b => { b with mirror := true }) }, by decide +kernel⟩,
   ⟨3, 1, 0, { State.reset with bridle.st := .run }, by decide +kernel⟩,
   ⟨64, 1, 0, { State.reset with bridle.st := .run }, by decide +kernel⟩,
   ⟨3, 0, { State.reset with bridle.st := .run, bridle.pts := State.reset.bridle.pts.upd 3 (fun b => { b with hold := 0x10 }) }, by decide +kernel⟩,
   ⟨0, 0, { State.reset with bridle.st := .run }, by decide +kernel⟩,
   ⟨5, 0, { State.reset with bridle.st := .run }, by decide +kernel⟩,
   ⟨9, 1, { State.reset with bridle.st := .run }, by decide +kernel⟩,
   ⟨3, 1, 0, { State.reset with bridle.st := .safe }, by decide +kernel⟩,
   ⟨3, 1, 0, { State.reset with bridle.st := .safe }, by decide +kernel⟩,
   ⟨3, 1, 0, { State.reset with bridle.st := .safe }, by decide +kernel⟩,
   ⟨3, 1, { State.reset with bridle.st := .safe }, by decide +kernel⟩,
   ⟨3, 1, 0, { State.reset with bridle.st := .safe }, by decide +kernel⟩,
   ⟨3, 1, 0, { State.reset with bridle.st := .safe }, by decide +kernel⟩,
   ⟨3, 1, { State.reset with bridle.st := .safe }, by decide +kernel⟩,
   ⟨9, 1, { State.reset with bridle.st := .safe }, by decide +kernel⟩⟩

/-- The hypotheses of `Obligations.PlcLifecycleAndFrames` are met. -/
theorem witness_plcLifecycleAndFrames :
  (∃ n : Fin 66, ∃ v : Word, ∃ s : State, n.val < 64 ∧ (plcTake n s).plcStartStatus n (fld v 16 16) = .ok) ∧
  (∃ n : Fin 66, ∃ v : Word, ∃ s : State, 64 ≤ n.val ∧ (plcTake n s).plcStartStatus n (fld v 16 16) = .ok) ∧
  (∃ n : Fin 66, ∃ v : Word, ∃ s : State, (plcTake n s).plcStartStatus n (fld v 16 16) ≠ .ok) ∧
  (∃ n : Fin 66, ∃ s : State, (s.plc n).st ≠ .off ∧ (s.plc n).st ≠ .stopping) ∧
  (∃ n : Fin 66, ∃ s : State, (s.plc n).st = .off ∨ (s.plc n).st = .stopping) ∧
  (∃ n : Fin 66, ∃ s : State, (s.plc n).st = .stopping) ∧
  (∃ n : Fin 66, ∃ s : State, (s.plc n).st ≠ .stopping) ∧
  (∃ n : Fin 66, ∃ s : State, n.val < 64 ∧ ((s.plc n).st = .slacRun ∨ (s.plc n).st = .matched ∨ (s.plc n).st =
    .linked)) ∧
  (∃ n : Fin 66, ∃ s : State, 64 ≤ n.val ∨ ((s.plc n).st ≠ .slacRun ∧ (s.plc n).st ≠ .matched ∧ (s.plc n).st ≠
    .linked)) ∧
  (∃ n : Fin 66, ∃ s : State, (s.plc n).halted = true ∧ s.txDisabled = true) ∧
  (∃ n : Fin 66, ∃ s : State, ((s.plc n).halted && s.txDisabled) = false ∧ (s.plc n).on = true ∧ s.gridTime n
    = true) ∧
  (∃ n : Fin 66, ∃ s : State, ((s.plc n).halted && s.txDisabled) = false ∧ ((s.plc n).on = false ∨ s.gridTime
    n = false)) ∧
  (∃ n : Fin 66, ∃ s : State, n.val < 64 ∧ ((s.plc n).st = .matched ∨ (s.plc n).st = .linked)) ∧
  (∃ n : Fin 66, ∃ s : State, 64 ≤ n.val ∨ ((s.plc n).st ≠ .matched ∧ (s.plc n).st ≠ .linked)) ∧
  (∃ n : Fin 66, ∃ s : State, (s.plc n).st = .matched ∨ (s.plc n).st = .linked) ∧
  (∃ n : Fin 66, ∃ s : State, (s.plc n).st ≠ .matched ∧ (s.plc n).st ≠ .linked) ∧
  (∃ n : Fin 66, ∃ m : Mpdu, ∃ s : State, m.fcOk = false ∨ (s.plc n).st = .off) ∧
  (∃ n : Fin 66, ∃ m : Mpdu, ∃ s : State, (s.plc n).st ≠ .off ∧ m.fcOk = true ∧ m.robo = false) ∧
  (∃ n : Fin 66, ∃ m : Mpdu, ∃ s : State, (s.plc n).fromStation n m = true ∧ m.fcOk = true ∧ m.robo = true ∧
    m.badPbs = 0 ∧ m.unicast = true ∧ m.kind = .data ∧ (s.plc n).rx.length < 16) ∧
  (∃ n : Fin 66, ∃ m : Mpdu, ∃ s : State, (s.plc n).st ≠ .off ∧ (s.plc n).fromStation n m = false ∧ m.fcOk =
    true ∧ m.robo = true ∧ m.badPbs = 0 ∧ m.unicast = false ∧ m.kind = .handled) ∧
  (∃ n : Fin 66, ∃ m : Mpdu, ∃ s : State, (s.plc n).st ≠ .off ∧ (s.plc n).fromStation n m = false ∧ m.fcOk =
    true ∧ m.robo = true ∧ m.badPbs = 0 ∧ m.unicast = false ∧ m.kind = .unsupported true) ∧
  (∃ n : Fin 66, ∃ m : Mpdu, ∃ s : State, (s.plc n).st ≠ .off ∧ (s.plc n).fromStation n m = false ∧ m.fcOk =
    true ∧ m.robo = true ∧ m.badPbs = 0 ∧ m.unicast = false ∧ (m.kind = .unknown ∨ m.kind = .unsupported false)) ∧
  (∃ n : Fin 66, ∃ m : Mpdu, ∃ s : State, n.val < 64 ∧ (s.plc n).st = .linked ∧ m.fcOk = true ∧ m.robo = true
    ∧ m.badPbs = 0 ∧ m.unicast = false ∧ m.kind = .associate) ∧
  (∃ n : Fin 66, ∃ x : PlcTx, ∃ r : List PlcTx, ∃ s : State, (s.plc n).txq = x :: r ∧ x.phase ≠ .waiting ∧
    (s.plc n).done.length < 16) ∧
  (∃ n : Fin 66, ∃ b : BitVec 4, ∃ s : State, (s.plc n).txq = []) ∧
  (∃ n : Fin 66, ∃ x : PlcTx, ∃ s : State, (s.plc n).txq.find? PlcTx.unsent = some x ∧ (s.plc n).done.length <
    16) ∧
  (∃ n : Fin 66, ∃ s : State, (s.plc n).txq.find? PlcTx.unsent = none) :=
  ⟨⟨3, 0x10001, { State.reset with app.girth.grants := [{ ticket := 1, port := 0, kind := 1, unit := 3, hold := 100 }] }, by decide +kernel⟩,
   ⟨65, 1, { State.reset with power.lines := 2 }, by decide +kernel⟩,
   ⟨3, 1, State.reset, by decide +kernel⟩,
   ⟨3, { State.reset with app.plc.ch := State.reset.app.plc.ch.upd 3 (fun c => { c with st := .linked }) }, by decide +kernel⟩,
   ⟨3, State.reset, by decide +kernel⟩,
   ⟨3, { State.reset with app.plc.ch := State.reset.app.plc.ch.upd 3 (fun c => { c with st := .stopping }) }, by decide +kernel⟩,
   ⟨3, State.reset, by decide +kernel⟩,
   ⟨3, { State.reset with app.plc.ch := State.reset.app.plc.ch.upd 3 (fun c => { c with st := .linked }) }, by decide +kernel⟩,
   ⟨3, State.reset, by decide +kernel⟩,
   ⟨3, { State.reset with app.clk.vana := true, app.plc.ch := State.reset.app.plc.ch.upd 3 (fun c => { c with halted := true }) }, by decide +kernel⟩,
   ⟨65, { State.reset with app.plc.ch := State.reset.app.plc.ch.upd 65 (fun c => { c with started := true }) }, by decide +kernel⟩,
   ⟨3, State.reset, by decide +kernel⟩,
   ⟨3, { State.reset with app.plc.ch := State.reset.app.plc.ch.upd 3 (fun c => { c with st := .linked }) }, by decide +kernel⟩,
   ⟨3, State.reset, by decide +kernel⟩,
   ⟨3, { State.reset with app.plc.ch := State.reset.app.plc.ch.upd 3 (fun c => { c with st := .linked }) }, by decide +kernel⟩,
   ⟨3, State.reset, by decide +kernel⟩,
   ⟨3, ⟨true, true, 0, false, false, .data, [1], 9⟩, State.reset, by decide +kernel⟩,
   ⟨3, ⟨true, false, 0, true, true, .data, [1], 9⟩, { State.reset with app.plc.ch := State.reset.app.plc.ch.upd 3 (fun c => { c with st := .linked }) }, by decide +kernel⟩,
   ⟨3, ⟨true, true, 0, true, true, .data, [1], 9⟩, { State.reset with app.plc.ch := State.reset.app.plc.ch.upd 3 (fun c => { c with st := .linked, mac := some 9 }) }, by decide +kernel⟩,
   ⟨3, ⟨true, true, 0, false, false, .handled, [1], 9⟩, { State.reset with app.plc.ch := State.reset.app.plc.ch.upd 3 (fun c => { c with st := .linked }) }, by decide +kernel⟩,
   ⟨3, ⟨true, true, 0, false, false, (.unsupported true), [1], 9⟩, { State.reset with app.plc.ch := State.reset.app.plc.ch.upd 3 (fun c => { c with st := .linked }) }, by decide +kernel⟩,
   ⟨3, ⟨true, true, 0, false, false, .unknown, [1], 9⟩, { State.reset with app.plc.ch := State.reset.app.plc.ch.upd 3 (fun c => { c with st := .linked }) }, by decide +kernel⟩,
   ⟨3, ⟨true, true, 0, false, false, .associate, [1], 9⟩, { State.reset with app.plc.ch := State.reset.app.plc.ch.upd 3 (fun c => { c with st := .linked }) }, by decide +kernel⟩,
   ⟨3, { tag := 1, cap := 0, len := 60, addr := 0, phase := .onAir }, [], { State.reset with app.plc.ch := State.reset.app.plc.ch.upd 3 (fun c => { c with txq := [{ tag := 1, cap := 0, len := 60, addr := 0, phase := .onAir }] }) }, by decide +kernel⟩,
   ⟨3, 0, State.reset, by decide +kernel⟩,
   ⟨3, { tag := 1, cap := 0, len := 60, addr := 0 }, { State.reset with app.plc.ch := State.reset.app.plc.ch.upd 3 (fun c => { c with txq := [{ tag := 1, cap := 0, len := 60, addr := 0 }] }) }, by decide +kernel⟩,
   ⟨3, State.reset, by decide +kernel⟩⟩

/-- The hypotheses of `Obligations.SlacMatching` are met. -/
theorem witness_slacMatching :
  (∃ n : Fin 66, ∃ r : BitVec 64, ∃ s : State, s.slacEligible n r = true) ∧
  (∃ n : Fin 66, ∃ r : BitVec 64, ∃ s : State, s.slacEligible n r = false) ∧
  (∃ n : Fin 66, ∃ r : BitVec 64, ∃ k : Nat, ∃ s : State, s.slacHears n = true ∧ s.coll r = none) ∧
  (∃ n : Fin 66, ∃ r : BitVec 64, ∃ k : Nat, ∃ s : State, s.slacHears n = false ∨ (s.coll r).isSome = true) ∧
  (∃ n : Fin 66, ∃ r : BitVec 64, ∃ g : List Nat, ∃ s : State, s.slacHears n = true ∧ (soundAdd n r g
    s).collFull n r = false) ∧
  (∃ n : Fin 66, ∃ r : BitVec 64, ∃ g : List Nat, ∃ s : State, s.slacHears n = true ∧ (soundAdd n r g
    s).collFull n r = true) ∧
  (∃ n : Fin 66, ∃ r : BitVec 64, ∃ g : List Nat, ∃ s : State, s.slacHears n = false) ∧
  (∃ r : BitVec 64, ∃ s : State, s.collOld r = true) ∧
  (∃ r : BitVec 64, ∃ s : State, s.collOld r = false) ∧
  (∃ n : Fin 66, ∃ r : BitVec 64, ∃ s : State, (s.plc n).sel = some r ∧ (s.plc n).valReq = true) ∧
  (∃ n : Fin 66, ∃ r : BitVec 64, ∃ s : State, (s.plc n).sel ≠ some r ∨ (s.plc n).valReq = false) ∧
  (∃ n : Fin 66, ∃ k : Nat, ∃ w : ValWin, ∃ s : State, (s.plc n).win = some w) ∧
  (∃ n : Fin 66, ∃ k : Nat, ∃ s : State, (s.plc n).win = none) ∧
  (∃ n : Fin 66, ∃ r : BitVec 64, ∃ m : BitVec 48, ∃ s : State, (s.plc n).st = .slacRun ∧ (s.plc n).sel = some
    r ∧ ((s.plc n).valReq = false ∨ (s.plc n).valid = true)) ∧
  (∃ n : Fin 66, ∃ r : BitVec 64, ∃ m : BitVec 48, ∃ s : State, (s.plc n).st ≠ .slacRun ∨ (s.plc n).sel ≠ some
    r ∨ ((s.plc n).valReq = true ∧ (s.plc n).valid = false)) ∧
  (∃ n : Fin 66, ∃ s : State, (s.plc n).sel.isSome = true) ∧
  (∃ n : Fin 66, ∃ s : State, (s.plc n).sel = none) :=
  ⟨⟨3, 7, { State.reset with power.pilots := State.reset.power.pilots.upd 3 (fun q => { q with st := .b, dutyAct := 50 }), app.plc.ch := State.reset.app.plc.ch.upd 3 (fun c => { c with st := .slacWait }) }, by decide +kernel⟩,
   ⟨3, 7, State.reset, by decide +kernel⟩,
   ⟨3, 7, 10, { State.reset with app.plc.ch := State.reset.app.plc.ch.upd 3 (fun c => { c with st := .slacRun }) }, by decide +kernel⟩,
   ⟨3, 7, 10, State.reset, by decide +kernel⟩,
   ⟨3, 7, [], { State.reset with app.plc.ch := State.reset.app.plc.ch.upd 3 (fun c => { c with st := .slacRun }) }, by decide +kernel⟩,
   ⟨3, 7, [], { State.reset with app.plc.colls := [{ run := 7, sounds := 1, opened := 0 }], app.plc.ch := State.reset.app.plc.ch.upd 3 (fun c => { c with st := .slacRun }) }, by decide +kernel⟩,
   ⟨3, 7, [], State.reset, by decide +kernel⟩,
   ⟨7, { State.reset with app.plc.colls := [{ run := 7, sounds := 10, opened := 0 }], app.clk.ht := 600000000 }, by decide +kernel⟩,
   ⟨7, State.reset, by decide +kernel⟩,
   ⟨3, 7, { State.reset with app.plc.ch := State.reset.app.plc.ch.upd 3 (fun c => { c with sel := some 7, valReq := true }) }, by decide +kernel⟩,
   ⟨3, 7, State.reset, by decide +kernel⟩,
   ⟨3, 2, ⟨[(3, 0)]⟩, { State.reset with app.plc.ch := State.reset.app.plc.ch.upd 3 (fun c => { c with win := some ⟨[(3, 0)]⟩ }) }, by decide +kernel⟩,
   ⟨3, 2, State.reset, by decide +kernel⟩,
   ⟨3, 7, 9, { State.reset with app.plc.ch := State.reset.app.plc.ch.upd 3 (fun c => { c with st := .slacRun, sel := some 7 }) }, by decide +kernel⟩,
   ⟨3, 7, 9, State.reset, by decide +kernel⟩,
   ⟨3, { State.reset with app.plc.ch := State.reset.app.plc.ch.upd 3 (fun c => { c with st := .slacRun, sel := some 7 }) }, by decide +kernel⟩,
   ⟨3, State.reset, by decide +kernel⟩⟩

/-- The hypotheses of `Obligations.SessionActivations` are met. -/
theorem witness_sessionActivations :
  (∃ e : Fin 8, ∃ k p slot : Nat, ∃ s : State, s.engRuns e = true ∧ s.engineClaim e ≠ 0 ∧ pointSource
    (s.engineClaim e) = some (k, p) ∧ p % 8 = e ∧ s.holder p = some slot ∧ (s.app.ctx.get slot).st ≠ .free ∧ k
    < 16) ∧
  (∃ e : Fin 8, ∃ k p : Nat, ∃ s : State, s.engRuns e = true ∧ s.engineClaim e ≠ 0 ∧ pointSource
    (s.engineClaim e) = some (k, p) ∧ p % 8 ≠ e) ∧
  (∃ e : Fin 8, ∃ s : State, s.engRuns e = true ∧ s.engineClaim e ≠ 0 ∧ pointSource (s.engineClaim e) = none ∧
    s.xrOf e (s.engineClaim e) = none) ∧
  (∃ e : Fin 8, ∃ s : State, s.engRuns e = false ∨ s.engineClaim e = 0) ∧
  (∃ e : Fin 8, ∃ s : State, (s.app.mbx.pair.get (2 + e)).queue = [] ∨ s.engRuns e = false) ∧
  (∃ e : Fin 8, ∃ m : List Word, ∃ r : List (List Word), ∃ slot : Nat, ∃ s : State, (s.app.mbx.pair.get (2 +
    e)).queue = m :: r ∧ slot = 32 * e + fld (m.getD 0 0) 0 5 ∧ (s.app.ctx.get slot).st ≠ .free ∧
    ((s.app.ctx.get slot).st = .running ∨ 8 ≤ (s.app.ctx.get slot).stash.length)) ∧
  (∃ e : Fin 8, ∃ m : List Word, ∃ r : List (List Word), ∃ s : State, (s.app.mbx.pair.get (2 + e)).queue = m
    :: r ∧ s.engRuns e = true ∧ (s.app.ctx.get (32 * e + fld (m.getD 0 0) 0 5)).st = .free) ∧
  (∃ e : Fin 8, ∃ m : List Word, ∃ r : List (List Word), ∃ slot : Nat, ∃ s : State, (s.app.mbx.pair.get (2 +
    e)).queue = m :: r ∧ s.engRuns e = true ∧ slot = 32 * e + fld (m.getD 0 0) 0 5 ∧ (s.app.ctx.get slot).st ≠
    .free ∧ (s.app.ctx.get slot).st ≠ .running ∧ (s.app.ctx.get slot).stash.length < 8) ∧
  (∃ e : Fin 8, ∃ k : Nat, ∃ s : State, s.engRuns e = true ∧ s.engHalted e = false ∧ (s.app.eng.get e).running
    = none ∧ s.nextReady e = some k) ∧
  (∃ e : Fin 8, ∃ s : State, s.engRuns e = false ∨ s.engHalted e = true ∨ (s.app.eng.get e).running.isSome =
    true ∨ s.nextReady e = none) ∧
  (∃ e : Fin 8, ∃ s : State, (s.app.eng.get e).running.isSome = true) ∧
  (∃ e : Fin 8, ∃ s : State, (s.app.eng.get e).running = none) ∧
  (∃ e : Fin 8, ∃ k : Nat, ∃ s : State, (s.app.eng.get e).running = some k ∧ ((s.app.ctx.get (32 * e +
    k)).evWord.setWidth 16 ||| (s.app.ctx.get (32 * e + k)).taken) = 0 ∧ (s.vc (s.app.ctx.get (32 * e +
    k)).point).waiting = false ∧ s.phase (32 * e + k) ≠ 8 ∧ s.phase (32 * e + k) ≠ 9 ∧ (sesDone e
    s).sessionEnded (32 * e + k) = false) ∧
  (∃ e : Fin 8, ∃ k : Nat, ∃ s : State, s.engHalted e = false ∧ (s.app.eng.get e).running = some k ∧
    (s.app.ctx.get (32 * e + k)).left = 0) ∧
  (∃ e : Fin 8, ∃ s : State, s.engHalted e = true ∨ s.budgetGone e = false) ∧
  (∃ e : Fin 8, ∃ s : State, 8 ≤ (s.app.mbx.pair.get (12 + e)).queue.length) ∧
  (∃ e : Fin 8, ∃ m : List Word, ∃ s : State, (s.app.eng.get e).notices = [m] ∧ (s.app.mbx.pair.get (12 +
    e)).queue.length < 8) ∧
  (∃ e : Fin 8, ∃ v : Word, ∃ k : Nat, ∃ s : State, (s.app.eng.get e).running = some k ∧ (s.app.ctx.get (32 *
    e + fld v 0 5)).st ≠ .free ∧ (s.app.ctx.get (32 * e + fld v 0 5)).codes.length < 8) ∧
  (∃ e : Fin 8, ∃ v : Word, ∃ k : Nat, ∃ s : State, (s.app.eng.get e).running = some k ∧ ((s.app.ctx.get (32 *
    e + fld v 0 5)).st = .free ∨ 8 ≤ (s.app.ctx.get (32 * e + fld v 0 5)).codes.length)) ∧
  (∃ e : Fin 8, ∃ v : Word, ∃ s : State, (s.app.eng.get e).running = none) ∧
  (∃ port : Fin 24, ∃ e : Fin 8, ∃ v : Word, ∃ s : State, sesWriter port e = true ∧ port.val ≠ 4 + e ∧
    (s.app.ctx.get (32 * e + fld v 0 5)).st ≠ .free ∧ (s.app.ctx.get (32 * e + fld v 0 5)).codes.length < 8) ∧
  (∃ port : Fin 24, ∃ e : Fin 8, ∃ v : Word, ∃ s : State, sesWriter port e = false) ∧
  (∃ port : Fin 24, ∃ e : Fin 8, ∃ v : Word, ∃ s : State, sesWriter port e = true ∧ port.val ≠ 4 + e ∧
    ((s.app.ctx.get (32 * e + fld v 0 5)).st = .free ∨ 8 ≤ (s.app.ctx.get (32 * e + fld v 0 5)).codes.length)) ∧
  (∃ e : Fin 8, ∃ v : Word, ∃ k : Nat, ∃ s : State, (s.app.eng.get e).running = some k) ∧
  (∃ e : Fin 8, ∃ v : Word, ∃ s : State, (s.app.eng.get e).running = none) ∧
  (∃ slot : Fin 256, ∃ s : State, s.num (ctxBase slot + 0x28) 8 = 0 ∨ s.ht < s.num (ctxBase slot + 0x28) 8 ∨
    (s.app.ctx.get slot).st = .free) ∧
  (∃ slot : Fin 256, ∃ s : State, s.num (ctxBase slot + 0x28) 8 ≠ 0 ∧ s.num (ctxBase slot + 0x28) 8 ≤ s.ht ∧
    (s.app.ctx.get slot).st ≠ .free) :=
  ⟨⟨1, 1, 1, 35, { State.reset with app.clk.run := 0xFF, app.ctx := State.reset.app.ctx.upd 35 (fun c => { c with st := .idle, role := 1, point := 1 }), app.bkl.src := State.reset.app.bkl.src.upd 49 (fun x => { x with latch := true, level := 1, target := 11 }) }, by decide +kernel⟩,
   ⟨1, 1, 2, { State.reset with app.clk.run := 0xFF, app.ctx := State.reset.app.ctx.upd 35 (fun c => { c with st := .idle }), app.bkl.src := State.reset.app.bkl.src.upd 50 (fun x => { x with latch := true, level := 1, target := 11 }) }, by decide +kernel⟩,
   ⟨1, { State.reset with app.clk.run := 0xFF, app.ctx := State.reset.app.ctx.upd 35 (fun c => { c with st := .idle }), app.bkl.src := State.reset.app.bkl.src.upd 5 (fun x => { x with latch := true, level := 1, target := 11 }) }, by decide +kernel⟩,
   ⟨1, State.reset, by decide +kernel⟩,
   ⟨1, State.reset, by decide +kernel⟩,
   ⟨1, [3], [], 35, { State.reset with app.clk.run := 0xFF, app.ctx := State.reset.app.ctx.upd 35 (fun c => { c with st := .running }), app.mbx.pair := State.reset.app.mbx.pair.upd 3 (fun b => { b with queue := [[3]] }) }, by decide +kernel⟩,
   ⟨1, [0], [], { State.reset with app.clk.run := 0xFF, app.mbx.pair := State.reset.app.mbx.pair.upd 3 (fun b => { b with queue := [[0]] }) }, by decide +kernel⟩,
   ⟨1, [3], [], 35, { State.reset with app.clk.run := 0xFF, app.ctx := State.reset.app.ctx.upd 35 (fun c => { c with st := .idle }), app.mbx.pair := State.reset.app.mbx.pair.upd 3 (fun b => { b with queue := [[3]] }) }, by decide +kernel⟩,
   ⟨1, 3, { State.reset with app.clk.run := 0xFF, app.ctx := State.reset.app.ctx.upd 35 (fun c => { c with st := .ready, pend := 1 }) }, by decide +kernel⟩,
   ⟨1, State.reset, by decide +kernel⟩,
   ⟨1, { State.reset with app.clk.run := 0xFF, app.eng := State.reset.app.eng.upd 1 (fun x => { x with running := some 3 }) }, by decide +kernel⟩,
   ⟨1, State.reset, by decide +kernel⟩,
   ⟨1, 3, { State.reset with app.clk.run := 0xFF, app.eng := State.reset.app.eng.upd 1 (fun x => { x with running := some 3 }) }, by decide +kernel⟩,
   ⟨1, 3, { State.reset with app.clk.run := 0xFF, app.eng := State.reset.app.eng.upd 1 (fun x => { x with running := some 3 }) }, by decide +kernel⟩,
   ⟨1, State.reset, by decide +kernel⟩,
   ⟨1, { State.reset with app.mbx.pair := State.reset.app.mbx.pair.upd 13 (fun b => { b with queue := List.replicate 8 [0] }) }, by decide +kernel⟩,
   ⟨1, [0], { State.reset with app.clk.run := 0xFF, app.eng := State.reset.app.eng.upd 1 (fun x => { x with notices := [[0]] }) }, by decide +kernel⟩,
   ⟨1, 0x103, 4, { State.reset with app.clk.run := 0xFF, app.eng := State.reset.app.eng.upd 1 (fun x => { x with running := some 4 }), app.ctx := State.reset.app.ctx.upd 35 (fun c => { c with st := .idle }) }, by decide +kernel⟩,
   ⟨1, 0x103, 4, { State.reset with app.clk.run := 0xFF, app.eng := State.reset.app.eng.upd 1 (fun x => { x with running := some 4 }) }, by decide +kernel⟩,
   ⟨1, 0x103, State.reset, by decide +kernel⟩,
   ⟨0, 1, 0x103, { State.reset with app.clk.run := 0xFF, app.ctx := State.reset.app.ctx.upd 35 (fun c => { c with st := .idle }) }, by decide +kernel⟩,
   ⟨12, 1, 0, State.reset, by decide +kernel⟩,
   ⟨0, 1, 0x103, State.reset, by decide +kernel⟩,
   ⟨1, 1, 3, { State.reset with app.clk.run := 0xFF, app.eng := State.reset.app.eng.upd 1 (fun x => { x with running := some 3 }) }, by decide +kernel⟩,
   ⟨1, 1, State.reset, by decide +kernel⟩,
   ⟨35, State.reset, by decide +kernel⟩,
   ⟨35, { State.reset with app.clk.ht := 10, app.mem := State.reset.app.mem.set (ctxBase 35 + 0x28) 1, app.ctx := State.reset.app.ctx.upd 35 (fun c => { c with st := .idle }) }, by decide +kernel⟩⟩

/-- The hypotheses of `Obligations.ContextCommands` are met. -/
theorem witness_contextCommands :
  (∃ port : Fin 24, ∃ e : Fin 8, ∃ v : Word, ∃ s : State, sesWriter port e = true ∧ s.startStatus e (fld v 0
    5) (fld v 8 6) (fld v 6 2) = .ok) ∧
  (∃ port : Fin 24, ∃ e : Fin 8, ∃ v : Word, ∃ s : State, sesWriter port e = true ∧ s.startStatus e (fld v 0
    5) (fld v 8 6) (fld v 6 2) ≠ .ok) ∧
  (∃ port : Fin 24, ∃ e : Fin 8, ∃ v : Word, ∃ s : State, sesWriter port e = false) ∧
  (∃ port : Fin 24, ∃ e : Fin 8, ∃ v : Word, ∃ s : State, sesWriter port e = true ∧ (s.app.ctx.get (32 * e +
    fld v 0 5)).st = .trapped ∧ (s.app.ctx.get (32 * e + fld v 0 5)).cause ≠ 3) ∧
  (∃ port : Fin 24, ∃ e : Fin 8, ∃ v : Word, ∃ s : State, sesWriter port e = true ∧ ((s.app.ctx.get (32 * e +
    fld v 0 5)).st ≠ .trapped ∨ (s.app.ctx.get (32 * e + fld v 0 5)).cause = 3)) ∧
  (∃ port : Fin 24, ∃ e : Fin 8, ∃ v : Word, ∃ s : State, sesWriter port e = false) ∧
  (∃ port : Fin 24, ∃ e : Fin 8, ∃ v : Word, ∃ s : State, sesWriter port e = true ∧ (s.app.ctx.get (32 * e +
    fld v 0 5)).st ≠ .free ∧ (s.app.ctx.get (32 * e + fld v 0 5)).st ≠ .running) ∧
  (∃ port : Fin 24, ∃ e : Fin 8, ∃ v : Word, ∃ s : State, sesWriter port e = true ∧ ((s.app.ctx.get (32 * e +
    fld v 0 5)).st = .free ∨ (s.app.ctx.get (32 * e + fld v 0 5)).st = .running)) ∧
  (∃ port : Fin 24, ∃ e : Fin 8, ∃ v : Word, ∃ s : State, sesWriter port e = false) ∧
  (∃ port : Fin 24, ∃ e : Fin 8, ∃ v : Word, ∃ s : State, sesWriter port e = true ∧ (s.app.ctx.get (32 * e +
    fld v 0 5)).st ≠ .free ∧ roleStep (s.app.ctx.get (32 * e + fld v 0 5)).role (fld v 6 2) = true ∧
    s.slotOfRole (s.app.ctx.get (32 * e + fld v 0 5)).point (fld v 6 2) = none) ∧
  (∃ port : Fin 24, ∃ e : Fin 8, ∃ v : Word, ∃ s : State, sesWriter port e = true ∧ ((s.app.ctx.get (32 * e +
    fld v 0 5)).st = .free ∨ roleStep (s.app.ctx.get (32 * e + fld v 0 5)).role (fld v 6 2) = false ∨
    (s.slotOfRole (s.app.ctx.get (32 * e + fld v 0 5)).point (fld v 6 2)).isSome = true)) ∧
  (∃ port : Fin 24, ∃ e : Fin 8, ∃ v : Word, ∃ s : State, sesWriter port e = false) :=
  ⟨⟨0, 1, 0x103, { State.reset with obj.live := State.reset.obj.live.set (ptBase 1 * 256 + 1) (some [1]) }, by decide +kernel⟩,
   ⟨0, 1, 0x003, State.reset, by decide +kernel⟩,
   ⟨12, 1, 0, State.reset, by decide +kernel⟩,
   ⟨0, 1, 3, { State.reset with app.clk.run := 0xFF, app.ctx := State.reset.app.ctx.upd 35 (fun c => { c with st := .trapped, cause := 1 }) }, by decide +kernel⟩,
   ⟨0, 1, 3, State.reset, by decide +kernel⟩,
   ⟨12, 1, 0, State.reset, by decide +kernel⟩,
   ⟨0, 1, 3, { State.reset with app.clk.run := 0xFF, app.ctx := State.reset.app.ctx.upd 35 (fun c => { c with st := .idle }) }, by decide +kernel⟩,
   ⟨0, 1, 3, State.reset, by decide +kernel⟩,
   ⟨12, 1, 0, State.reset, by decide +kernel⟩,
   ⟨0, 1, 0x43, { State.reset with app.clk.run := 0xFF, app.ctx := State.reset.app.ctx.upd 35 (fun c => { c with st := .idle, role := 0 }) }, by decide +kernel⟩,
   ⟨0, 1, 0x43, State.reset, by decide +kernel⟩,
   ⟨12, 1, 0, State.reset, by decide +kernel⟩⟩

/-- The hypotheses of `Obligations.SdoAndUsdoTransfers` are met. -/
theorem witness_sdoAndUsdoTransfers :
  (∃ f : Fin 2, ∃ ch : Fin 8, ∃ i : BitVec 16, ∃ j : BitVec 8, ∃ n : Nat, ∃ d : List Byte, ∃ s : State,
    s.sdoOn f ch = true ∧ (s.fport f).sdo.get ch = none) ∧
  (∃ f : Fin 2, ∃ ch : Fin 8, ∃ i : BitVec 16, ∃ j : BitVec 8, ∃ n : Nat, ∃ d : List Byte, ∃ s : State,
    s.sdoOn f ch = true ∧ (s.fport f).sdo.get ch = none) ∧
  (∃ f : Fin 2, ∃ ch : Fin 8, ∃ i : BitVec 16, ∃ j : BitVec 8, ∃ x : Bool, ∃ n : Nat, ∃ d : List Byte, ∃ s :
    State, s.sdoOn f ch = false) ∧
  (∃ f : Fin 2, ∃ ch : Fin 8, ∃ g : Bool, ∃ d : List Byte, ∃ x : SdoXfer, ∃ s : State, s.sdoOn f ch = true ∧
    (s.fport f).sdo.get ch = some x ∧ x.down = true ∧ g = x.toggle) ∧
  (∃ f : Fin 2, ∃ ch : Fin 8, ∃ g last : Bool, ∃ d : List Byte, ∃ x : SdoXfer, ∃ s : State, s.sdoOn f ch =
    true ∧ (s.fport f).sdo.get ch = some x ∧ (x.down = false ∨ g ≠ x.toggle)) ∧
  (∃ f : Fin 2, ∃ ch : Fin 8, ∃ g last : Bool, ∃ d : List Byte, ∃ s : State, s.sdoOn f ch = false) ∧
  (∃ f : Fin 2, ∃ ch : Fin 8, ∃ i : BitVec 16, ∃ j : BitVec 8, ∃ s : State, s.sdoOn f ch = true ∧ (s.fport
    f).sdo.get ch = none ∧ (readRequest (s.canAsker f ch (s.sdoRole f ch)) i.toNat j.toNat s).1 = .ok ∧ within
    1 (readRequest (s.canAsker f ch (s.sdoRole f ch)) i.toNat j.toNat s).2.1.length 4 = true) ∧
  (∃ f : Fin 2, ∃ ch : Fin 8, ∃ i : BitVec 16, ∃ j : BitVec 8, ∃ s : State, s.sdoOn f ch = false) ∧
  (∃ f : Fin 2, ∃ ch : Fin 8, ∃ g : Bool, ∃ x : SdoXfer, ∃ s : State, s.sdoOn f ch = true ∧ (s.fport
    f).sdo.get ch = some x ∧ (x.down = true ∨ g ≠ x.toggle ∨ x.data.length ≤ 7)) ∧
  (∃ f : Fin 2, ∃ ch : Fin 8, ∃ g : Bool, ∃ s : State, s.sdoOn f ch = false) ∧
  (∃ f : Fin 2, ∃ ch : Fin 8, ∃ s : State, s.sdoOn f ch = true) ∧
  (∃ f : Fin 2, ∃ ch : Fin 8, ∃ s : State, s.sdoOn f ch = false) ∧
  (∃ f : Fin 2, ∃ n : Fin 128, ∃ r : UsdoReq, ∃ s : State, (s.fport f).mode ≠ 2 ∨ n.val = 0 ∨ s.onum (0x2024 +
    f) n = 255 ∨ s.portServes f = false) ∧
  (∃ f : Fin 2, ∃ n : Fin 128, ∃ i : BitVec 16, ∃ j : BitVec 8, ∃ role : Role, ∃ s : State, s.portServes f =
    true ∧ (s.fport f).mode = 2 ∧ n.val ≠ 0 ∧ s.onum (0x2024 + f) n ≠ 255 ∧ role = (if s.onum (0x2024 + f) n =
    2 then .operator else .pub) ∧ (s.fport f).usdo.get n = none ∧ (readRequest (s.canAsker f (8 + n) role)
    i.toNat j.toNat s).1 = .ok ∧ (readRequest (s.canAsker f (8 + n) role) i.toNat j.toNat s).2.1.length ≤ 56) ∧
  (∃ f : Fin 2, ∃ n : Fin 128, ∃ i : BitVec 16, ∃ j : BitVec 8, ∃ d : List Byte, ∃ s : State, s.portServes f =
    true ∧ (s.fport f).mode = 2 ∧ n.val ≠ 0 ∧ s.onum (0x2024 + f) n ≠ 255 ∧ (s.fport f).usdo.get n = none) ∧
  (∃ f : Fin 2, ∃ n : Fin 128, ∃ i : BitVec 16, ∃ j : BitVec 8, ∃ k : Nat, ∃ d : List Byte, ∃ s : State,
    s.portServes f = true ∧ (s.fport f).mode = 2 ∧ n.val ≠ 0 ∧ s.onum (0x2024 + f) n ≠ 255 ∧ (s.fport
    f).usdo.get n = none ∧ s.usdoOpen f < 8) ∧
  (∃ f : Fin 2, ∃ n : Fin 128, ∃ l : Bool, ∃ d : List Byte, ∃ s : State, s.portServes f = true ∧ (s.fport
    f).mode = 2 ∧ n.val ≠ 0 ∧ s.onum (0x2024 + f) n ≠ 255 ∧ (s.fport f).usdo.get n = none) ∧
  (∃ f : Fin 2, ∃ n : Fin 128, ∃ d : List Byte, ∃ x : SdoXfer, ∃ s : State, s.portServes f = true ∧ (s.fport
    f).mode = 2 ∧ n.val ≠ 0 ∧ s.onum (0x2024 + f) n ≠ 255 ∧ (s.fport f).usdo.get n = some x ∧ x.down = true) ∧
  (∃ f : Fin 2, ∃ n : Fin 128, ∃ s : State, s.portServes f = true ∧ (s.fport f).mode = 2 ∧ n.val ≠ 0 ∧ s.onum
    (0x2024 + f) n ≠ 255 ∧ (s.fport f).usdo.get n = none) ∧
  (∃ f : Fin 2, ∃ n : Fin 128, ∃ x : SdoXfer, ∃ s : State, s.portServes f = true ∧ (s.fport f).mode = 2 ∧
    n.val ≠ 0 ∧ s.onum (0x2024 + f) n ≠ 255 ∧ (s.fport f).usdo.get n = some x ∧ x.down = false ∧ x.data.length
    ≤ 56) ∧
  (∃ f : Fin 2, ∃ ch : Fin 8, ∃ x : SdoXfer, ∃ s : State, (s.fport f).sdo.get ch = some x) ∧
  (∃ f : Fin 2, ∃ n : Fin 128, ∃ s : State, ((s.fport f).usdo.get n).isSome = true) ∧
  (∃ f : Fin 2, ∃ ch : Fin 8, ∃ s : State, (s.fport f).sdo.get ch = none) ∧
  (∃ f : Fin 2, ∃ n : Fin 128, ∃ s : State, (s.fport f).usdo.get n = none) :=
  ⟨⟨1, 0, 0x3000, 1, 8, [], { State.reset with app.clk.appHeld := false, app.server.port := State.reset.app.server.port.upd 1 (fun p => { p with mode := 1, node := 5, nmt := .preop, cobs := (⟨(0x80000000, 0x80000000), []⟩ : Bank (Nat × Nat)).set 0 (0x605, 0x585) }) }, by decide +kernel⟩,
   ⟨1, 0, 0x3000, 1, 8, [], { State.reset with app.clk.appHeld := false, app.server.port := State.reset.app.server.port.upd 1 (fun p => { p with mode := 1, node := 5, nmt := .preop, cobs := (⟨(0x80000000, 0x80000000), []⟩ : Bank (Nat × Nat)).set 0 (0x605, 0x585) }) }, by decide +kernel⟩,
   ⟨1, 0, 0x3000, 1, true, 8, [], State.reset, by decide +kernel⟩,
   ⟨1, 0, false, [2], { idx := 0x3000, sub := 1, down := true, role := .pub, data := [1], total := 8 }, { State.reset with app.clk.appHeld := false, app.server.port := State.reset.app.server.port.upd 1 (fun p => { p with mode := 1, node := 5, nmt := .preop, cobs := (⟨(0x80000000, 0x80000000), []⟩ : Bank (Nat × Nat)).set 0 (0x605, 0x585), sdo := (⟨none, []⟩ : Bank (Option SdoXfer)).set 0 (some { idx := 0x3000, sub := 1, down := true, role := .pub, data := [1], total := 8 }) }) }, by decide +kernel⟩,
   ⟨1, 0, true, false, [2], { idx := 0x3000, sub := 1, down := true, role := .pub, data := [1], total := 8 }, { State.reset with app.clk.appHeld := false, app.server.port := State.reset.app.server.port.upd 1 (fun p => { p with mode := 1, node := 5, nmt := .preop, cobs := (⟨(0x80000000, 0x80000000), []⟩ : Bank (Nat × Nat)).set 0 (0x605, 0x585), sdo := (⟨none, []⟩ : Bank (Option SdoXfer)).set 0 (some { idx := 0x3000, sub := 1, down := true, role := .pub, data := [1], total := 8 }) }) }, by decide +kernel⟩,
   ⟨1, 0, false, true, [2], State.reset, by decide +kernel⟩,
   ⟨1, 0, 0x1000, 0, { State.reset with app.clk.appHeld := false, app.server.port := State.reset.app.server.port.upd 1 (fun p => { p with mode := 1, node := 5, nmt := .preop, cobs := (⟨(0x80000000, 0x80000000), []⟩ : Bank (Nat × Nat)).set 0 (0x605, 0x585) }) }, by decide +kernel⟩,
   ⟨1, 0, 0x1000, 0, State.reset, by decide +kernel⟩,
   ⟨1, 0, false, { idx := 0x3000, sub := 1, down := false, role := .pub, data := [1, 2] }, { State.reset with app.clk.appHeld := false, app.server.port := State.reset.app.server.port.upd 1 (fun p => { p with mode := 1, node := 5, nmt := .preop, cobs := (⟨(0x80000000, 0x80000000), []⟩ : Bank (Nat × Nat)).set 0 (0x605, 0x585), sdo := (⟨none, []⟩ : Bank (Option SdoXfer)).set 0 (some { idx := 0x3000, sub := 1, down := false, role := .pub, data := [1, 2] }) }) }, by decide +kernel⟩,
   ⟨1, 0, false, State.reset, by decide +kernel⟩,
   ⟨1, 0, { State.reset with app.clk.appHeld := false, app.server.port := State.reset.app.server.port.upd 1 (fun p => { p with mode := 1, node := 5, nmt := .preop, cobs := (⟨(0x80000000, 0x80000000), []⟩ : Bank (Nat × Nat)).set 0 (0x605, 0x585) }) }, by decide +kernel⟩,
   ⟨1, 0, State.reset, by decide +kernel⟩,
   ⟨1, 5, .upSeg, { State.reset with app.clk.appHeld := false, app.server.port := State.reset.app.server.port.upd 1 (fun p => { p with mode := 1, node := 5, nmt := .preop }) }, by decide +kernel⟩,
   ⟨1, 5, 0x1000, 0, .pub, { State.reset with app.clk.appHeld := false, obj.live := State.reset.obj.live.set (0x2025 * 256 + 5) (some [0]), app.server.port := State.reset.app.server.port.upd 1 (fun p => { p with mode := 2, node := 5, nmt := .preop }) }, by decide +kernel⟩,
   ⟨1, 5, 0x1000, 0, [], { State.reset with app.clk.appHeld := false, obj.live := State.reset.obj.live.set (0x2025 * 256 + 5) (some [0]), app.server.port := State.reset.app.server.port.upd 1 (fun p => { p with mode := 2, node := 5, nmt := .preop }) }, by decide +kernel⟩,
   ⟨1, 5, 0x1000, 0, 100, [1], { State.reset with app.clk.appHeld := false, obj.live := State.reset.obj.live.set (0x2025 * 256 + 5) (some [0]), app.server.port := State.reset.app.server.port.upd 1 (fun p => { p with mode := 2, node := 5, nmt := .preop }) }, by decide +kernel⟩,
   ⟨1, 5, false, [], { State.reset with app.clk.appHeld := false, obj.live := State.reset.obj.live.set (0x2025 * 256 + 5) (some [0]), app.server.port := State.reset.app.server.port.upd 1 (fun p => { p with mode := 2, node := 5, nmt := .preop }) }, by decide +kernel⟩,
   ⟨1, 5, [2], { idx := 0x3000, sub := 1, down := true, role := .pub, data := [1], total := 8 }, { State.reset with app.clk.appHeld := false, obj.live := State.reset.obj.live.set (0x2025 * 256 + 5) (some [0]), app.server.port := State.reset.app.server.port.upd 1 (fun p => { p with mode := 2, node := 5, nmt := .preop, usdo := (⟨none, []⟩ : Bank (Option SdoXfer)).set 5 (some { idx := 0x3000, sub := 1, down := true, role := .pub, data := [1], total := 8 }) }) }, by decide +kernel⟩,
   ⟨1, 5, { State.reset with app.clk.appHeld := false, obj.live := State.reset.obj.live.set (0x2025 * 256 + 5) (some [0]), app.server.port := State.reset.app.server.port.upd 1 (fun p => { p with mode := 2, node := 5, nmt := .preop }) }, by decide +kernel⟩,
   ⟨1, 5, { idx := 0x3000, sub := 1, down := false, role := .pub, data := [1, 2] }, { State.reset with app.clk.appHeld := false, obj.live := State.reset.obj.live.set (0x2025 * 256 + 5) (some [0]), app.server.port := State.reset.app.server.port.upd 1 (fun p => { p with mode := 2, node := 5, nmt := .preop, usdo := (⟨none, []⟩ : Bank (Option SdoXfer)).set 5 (some { idx := 0x3000, sub := 1, down := false, role := .pub, data := [1, 2] }) }) }, by decide +kernel⟩,
   ⟨1, 0, { idx := 0x3000, sub := 1, down := true, role := .pub, data := [1], total := 8 }, { State.reset with app.clk.appHeld := false, app.server.port := State.reset.app.server.port.upd 1 (fun p => { p with mode := 1, node := 5, nmt := .preop, cobs := (⟨(0x80000000, 0x80000000), []⟩ : Bank (Nat × Nat)).set 0 (0x605, 0x585), sdo := (⟨none, []⟩ : Bank (Option SdoXfer)).set 0 (some { idx := 0x3000, sub := 1, down := true, role := .pub, data := [1], total := 8 }) }) }, by decide +kernel⟩,
   ⟨1, 5, { State.reset with app.clk.appHeld := false, obj.live := State.reset.obj.live.set (0x2025 * 256 + 5) (some [0]), app.server.port := State.reset.app.server.port.upd 1 (fun p => { p with mode := 2, node := 5, nmt := .preop, usdo := (⟨none, []⟩ : Bank (Option SdoXfer)).set 5 (some { idx := 0x3000, sub := 1, down := false, role := .pub, data := [1, 2] }) }) }, by decide +kernel⟩,
   ⟨1, 0, State.reset, by decide +kernel⟩,
   ⟨1, 5, State.reset, by decide +kernel⟩⟩

/-- The hypotheses of `Obligations.FieldPortStatesAndPdos` are met. -/
theorem witness_fieldPortStatesAndPdos :
  (∃ f : Fin 2, ∃ s : State, s.portHears f = true) ∧
  (∃ f : Fin 2, ∃ s : State, s.portHears f = false) ∧
  (∃ f : Fin 2, ∃ s : State, s.portHears f = true) ∧
  (∃ f : Fin 2, ∃ s : State, s.portHears f = false) ∧
  (∃ f : Fin 2, ∃ s : State, s.portHears f = true) ∧
  (∃ f : Fin 2, ∃ s : State, s.portHears f = false) ∧
  (∃ f : Fin 2, ∃ s : State, s.portHears f = true) ∧
  (∃ f : Fin 2, ∃ s : State, s.portHears f = false) ∧
  (∃ f : Fin 2, ∃ s : State, s.portHears f = true) ∧
  (∃ f : Fin 2, ∃ s : State, s.portHears f = false) ∧
  (∃ f : Fin 2, ∃ s : State, s.comm f 0x1017 0 = 0) ∧
  (∃ f : Fin 2, ∃ s : State, s.comm f 0x1017 0 ≠ 0 ∧ s.portSends f = true) ∧
  (∃ f : Fin 2, ∃ s : State, s.portHears f = false ∨ (s.fport f).nmt ≠ .oper) ∧
  (∃ f : Fin 2, ∃ s : State, s.portHears f = true ∧ (s.fport f).nmt = .oper) ∧
  (∃ f : Fin 2, ∃ n : Fin 32, ∃ s : State, s.portHears f = false ∨ (s.fport f).nmt ≠ .oper ∨ ((s.fport
    f).tpdo.get n).on = false ∨ ((s.fport f).tpdo.get n).type < 254 ∨ ((s.fport f).tpdo.get n).timer = 0 ∨
    s.uninhibited ((s.fport f).tpdo.get n) ((s.fport f).trun.get n) = false) ∧
  (∃ f : Fin 2, ∃ n : Fin 32, ∃ s : State, s.portHears f = true ∧ (s.fport f).nmt = .oper ∧ ((s.fport
    f).tpdo.get n).on = true ∧ 254 ≤ ((s.fport f).tpdo.get n).type ∧ ((s.fport f).tpdo.get n).timer ≠ 0 ∧
    s.uninhibited ((s.fport f).tpdo.get n) ((s.fport f).trun.get n) = true) ∧
  (∃ f : Fin 2, ∃ s : State, (s.fport f).busOff = true) ∧
  (∃ f : Fin 2, ∃ s : State, (s.fport f).busOff = false) ∧
  (∃ f : Fin 2, ∃ s : State, (s.fport f).passive = true) :=
  ⟨⟨1, { State.reset with app.clk.appHeld := false, app.server.port := State.reset.app.server.port.upd 1 (fun p => { p with mode := 1, node := 5, nmt := .preop }) }, by decide +kernel⟩,
   ⟨1, State.reset, by decide +kernel⟩,
   ⟨1, { State.reset with app.clk.appHeld := false, app.server.port := State.reset.app.server.port.upd 1 (fun p => { p with mode := 1, node := 5, nmt := .preop }) }, by decide +kernel⟩,
   ⟨1, State.reset, by decide +kernel⟩,
   ⟨1, { State.reset with app.clk.appHeld := false, app.server.port := State.reset.app.server.port.upd 1 (fun p => { p with mode := 1, node := 5, nmt := .preop }) }, by decide +kernel⟩,
   ⟨1, State.reset, by decide +kernel⟩,
   ⟨1, { State.reset with app.clk.appHeld := false, app.server.port := State.reset.app.server.port.upd 1 (fun p => { p with mode := 1, node := 5, nmt := .preop }) }, by decide +kernel⟩,
   ⟨1, State.reset, by decide +kernel⟩,
   ⟨1, { State.reset with app.clk.appHeld := false, app.server.port := State.reset.app.server.port.upd 1 (fun p => { p with mode := 1, node := 5, nmt := .preop }) }, by decide +kernel⟩,
   ⟨1, State.reset, by decide +kernel⟩,
   ⟨0, { State.reset with obj.live := State.reset.obj.live.set (0x1017 * 256) (some [0, 0]) }, by decide +kernel⟩,
   ⟨0, { State.reset with obj.live := State.reset.obj.live.set (0x1017 * 256) (some [5, 0]), app.server.port := State.reset.app.server.port.upd 0 (fun p => { p with mode := 1, nmt := .preop }) }, by decide +kernel⟩,
   ⟨1, State.reset, by decide +kernel⟩,
   ⟨1, { State.reset with app.clk.appHeld := false, app.server.port := State.reset.app.server.port.upd 1 (fun p => { p with mode := 1, node := 5, nmt := .oper }) }, by decide +kernel⟩,
   ⟨1, 0, { State.reset with app.clk.appHeld := false, app.server.port := State.reset.app.server.port.upd 1 (fun p => { p with mode := 1, node := 5, nmt := .preop, tpdo := (⟨{}, []⟩ : Bank TpdoCfg).set 0 { cob := 0x80000000 } }) }, by decide +kernel⟩,
   ⟨1, 0, { State.reset with app.clk.appHeld := false, app.server.port := State.reset.app.server.port.upd 1 (fun p => { p with mode := 1, node := 5, nmt := .oper, tpdo := (⟨{}, []⟩ : Bank TpdoCfg).set 0 { cob := 0x185, type := 254, timer := 5 } }) }, by decide +kernel⟩,
   ⟨1, { State.reset with app.clk.appHeld := false, app.server.port := State.reset.app.server.port.upd 1 (fun p => { p with mode := 1, node := 5, nmt := .preop, busOff := true }) }, by decide +kernel⟩,
   ⟨1, State.reset, by decide +kernel⟩,
   ⟨1, { State.reset with app.clk.appHeld := false, app.server.port := State.reset.app.server.port.upd 1 (fun p => { p with mode := 1, node := 5, nmt := .preop, passive := true }) }, by decide +kernel⟩⟩

/-- The hypotheses of `Obligations.LatigoConnections` are met. -/
theorem witness_latigoConnections :
  (∃ k : TlsHello, ∃ c a : Nat, ∃ s : State, s.latUp k.port = true ∧ k.tcpPort.toNat = s.onum 0x2030 2 ∧
    (List.range 16).find? (fun c => (s.conn c).isNone) = some c ∧ s.connCount < s.onum 0x2030 3 ∧
    s.roleAnchorOf k.anchors = some a ∧ s.tlsOk k = true) ∧
  (∃ k : TlsHello, ∃ s : State, s.latUp k.port = true ∧ (k.tcpPort.toNat ≠ s.onum 0x2030 2 ∨ (List.range
    16).find? (fun c => (s.conn c).isNone) = none ∨ s.onum 0x2030 3 ≤ s.connCount)) ∧
  (∃ k : TlsHello, ∃ c : Nat, ∃ s : State, s.latUp k.port = true ∧ k.tcpPort.toNat = s.onum 0x2030 2 ∧
    (List.range 16).find? (fun c => (s.conn c).isNone) = some c ∧ s.connCount < s.onum 0x2030 3 ∧
    (s.roleAnchorOf k.anchors = none ∨ s.tlsOk k = false)) ∧
  (∃ k : TlsHello, ∃ s : State, s.latUp k.port = false) ∧
  (∃ c : Fin 16, ∃ r : LatigoReq, ∃ x : Conn, ∃ w : State, ∃ s : State, s.conn c = some x ∧ w = s.updConn c
    (fun z => { z with heard := s.ht })) ∧
  (∃ c : Fin 16, ∃ r : LatigoReq, ∃ s : State, s.conn c = none) ∧
  (∃ c : Fin 16, ∃ r : LatigoReq, ∃ d : List Byte, ∃ x : Conn, ∃ w : State, ∃ s : State, s.conn c = some x ∧ w
    = s.updConn c (fun z => { z with heard := s.ht })) ∧
  (∃ c : Fin 16, ∃ r : LatigoReq, ∃ d : List Byte, ∃ s : State, s.conn c = none) ∧
  (∃ c : Fin 16, ∃ r : LatigoReq, ∃ n : Nat, ∃ x : Conn, ∃ w : State, ∃ y : Status × List Byte × State, ∃ s :
    State, s.conn c = some x ∧ w = s.updConn c (fun z => { z with heard := s.ht }) ∧ y = serveRead (latAsker c
    x r) r.idx.toNat r.sub.toNat w ∧ w.subStatus x y.1 n = .ok) ∧
  (∃ c : Fin 16, ∃ r : LatigoReq, ∃ n : Nat, ∃ x : Conn, ∃ w : State, ∃ y : Status × List Byte × State, ∃ s :
    State, s.conn c = some x ∧ w = s.updConn c (fun z => { z with heard := s.ht }) ∧ y = serveRead (latAsker c
    x r) r.idx.toNat r.sub.toNat w ∧ w.subStatus x y.1 n ≠ .ok) ∧
  (∃ c : Fin 16, ∃ r : LatigoReq, ∃ n : Nat, ∃ s : State, s.conn c = none) ∧
  (∃ c : Fin 16, ∃ id : Word, ∃ x : Conn, ∃ s : State, s.conn c = some x ∧ x.subs.any (·.id = id) = true ∧
    s.app.clk.ethUp.getLsbD x.port = true) ∧
  (∃ c : Fin 16, ∃ id : Word, ∃ x : Conn, ∃ w : State, ∃ s : State, s.conn c = some x ∧ w = s.updConn c (fun z
    => { z with heard := s.ht }) ∧ x.subs.any (·.id = id) = false) ∧
  (∃ c : Fin 16, ∃ id : Word, ∃ s : State, s.conn c = none) ∧
  (∃ c : Fin 16, ∃ id : Word, ∃ x : Conn, ∃ s : State, s.conn c = some x ∧ s.app.clk.ethUp.getLsbD x.port =
    true) ∧
  (∃ c : Fin 16, ∃ id : Word, ∃ s : State, s.conn c = none) ∧
  (∃ c : Fin 16, ∃ id : Word, ∃ e : Bool, ∃ x : Conn, ∃ u : LatSub, ∃ s : State, s.conn c = some x ∧
    x.subs.find? (·.id = id) = some u ∧ (serveRead
    { via := .latigo c, role := x.role, handle := u.handle, serial := u.serial } u.idx u.sub s).1 = .stale ∧
    s.app.clk.ethUp.getLsbD x.port = true) ∧
  (∃ c : Fin 16, ∃ id : Word, ∃ e : Bool, ∃ x : Conn, ∃ s : State, s.conn c = some x ∧ x.subs.find? (·.id =
    id) = none) ∧
  (∃ c : Fin 16, ∃ id : Word, ∃ e : Bool, ∃ s : State, s.conn c = none) ∧
  (∃ c : Fin 16, ∃ k : LatHead, ∃ x : Conn, ∃ s : State, s.conn c = some x ∧ badHead k = true ∧
    s.app.clk.ethUp.getLsbD x.port = true) ∧
  (∃ c : Fin 16, ∃ k : LatHead, ∃ x : Conn, ∃ s : State, s.conn c = some x ∧ badHead k = false ∧ unknownOp k =
    true ∧ s.app.clk.ethUp.getLsbD x.port = true) ∧
  (∃ c : Fin 16, ∃ k : LatHead, ∃ s : State, s.conn c = none) ∧
  (∃ c : Fin 16, ∃ x : Conn, ∃ s : State, s.conn c = some x ∧ x.quiet s.ht = true) ∧
  (∃ c : Fin 16, ∃ x : Conn, ∃ s : State, s.conn c = some x ∧ x.quiet s.ht = false) ∧
  (∃ c : Fin 16, ∃ s : State, s.conn c = none) ∧
  (∃ c : Fin 16, ∃ x : Conn, ∃ s : State, s.conn c = some x) ∧
  (∃ c : Fin 16, ∃ s : State, s.conn c = none) :=
  ⟨⟨⟨0, 7146, false, true, true, [16], 1000, []⟩, 0, 16, { State.reset with app.server.ready := true, app.server.ethMode := State.reset.app.server.ethMode.set 0 1, app.clk.appHeld := false, app.clk.ethUp := 3, obj.live := State.reset.obj.live.set (0x2030 * 256 + 1) (some [1]), app.tack.st := 2, app.tack.slots := (State.reset.app.tack.slots.set 16 { attr := 0xFF00A100 }).set 0 { attr := 0x1000 } }, by decide +kernel⟩,
   ⟨⟨0, 1, false, true, true, [16], 1000, []⟩, { State.reset with app.server.ready := true, app.server.ethMode := State.reset.app.server.ethMode.set 0 1, app.clk.appHeld := false, app.clk.ethUp := 3, obj.live := State.reset.obj.live.set (0x2030 * 256 + 1) (some [1]) }, by decide +kernel⟩,
   ⟨⟨0, 7146, false, true, true, [16], 1000, []⟩, 0, { State.reset with app.server.ready := true, app.server.ethMode := State.reset.app.server.ethMode.set 0 1, app.clk.appHeld := false, app.clk.ethUp := 3, obj.live := State.reset.obj.live.set (0x2030 * 256 + 1) (some [1]) }, by decide +kernel⟩,
   ⟨⟨0, 0, false, true, true, [16], 1000, []⟩, State.reset, by decide +kernel⟩,
   ⟨2, ⟨7, 0x1000, 0, 0, 0⟩, { port := 0, role := .pub, expiry := 5, name := [] }, _, { State.reset with app.clk.ethUp := 3, app.server.conn := State.reset.app.server.conn.set 2 (some { port := 0, role := .pub, expiry := 5, name := [] }) }, by decide +kernel, rfl⟩,
   ⟨3, ⟨7, 0x1000, 0, 0, 0⟩, State.reset, by decide +kernel⟩,
   ⟨2, ⟨7, 0x1000, 0, 0, 0⟩, [], { port := 0, role := .pub, expiry := 5, name := [] }, _, { State.reset with app.clk.ethUp := 3, app.server.conn := State.reset.app.server.conn.set 2 (some { port := 0, role := .pub, expiry := 5, name := [] }) }, by decide +kernel, rfl⟩,
   ⟨3, ⟨7, 0x1000, 0, 0, 0⟩, [], State.reset, by decide +kernel⟩,
   ⟨2, ⟨7, 0x1000, 0, 0, 0⟩, 100, { port := 0, role := .pub, expiry := 5, name := [] }, _, _, { State.reset with app.clk.ethUp := 3, app.server.conn := State.reset.app.server.conn.set 2 (some { port := 0, role := .pub, expiry := 5, name := [] }) }, by decide +kernel, rfl, rfl, by decide +kernel⟩,
   ⟨2, ⟨7, 0x1000, 0, 0, 0⟩, 99, { port := 0, role := .pub, expiry := 5, name := [] }, _, _, { State.reset with app.clk.ethUp := 3, app.server.conn := State.reset.app.server.conn.set 2 (some { port := 0, role := .pub, expiry := 5, name := [] }) }, by decide +kernel, rfl, rfl, by decide +kernel⟩,
   ⟨3, ⟨7, 0x1000, 0, 0, 0⟩, 100, State.reset, by decide +kernel⟩,
   ⟨2, 7, { port := 0, role := .pub, expiry := 5, name := [], subs := [{ id := 7, idx := 0x4000, sub := 1, handle := 0, serial := 0, interval := 100, at_ := none, value := [] }] }, { State.reset with app.clk.ethUp := 3, app.server.conn := State.reset.app.server.conn.set 2 (some { port := 0, role := .pub, expiry := 5, name := [], subs := [{ id := 7, idx := 0x4000, sub := 1, handle := 0, serial := 0, interval := 100, at_ := none, value := [] }] }) }, by decide +kernel⟩,
   ⟨2, 7, { port := 0, role := .pub, expiry := 5, name := [] }, _, { State.reset with app.clk.ethUp := 3, app.server.conn := State.reset.app.server.conn.set 2 (some { port := 0, role := .pub, expiry := 5, name := [] }) }, by decide +kernel, rfl, by decide⟩,
   ⟨3, 7, State.reset, by decide +kernel⟩,
   ⟨2, 7, { port := 0, role := .pub, expiry := 5, name := [] }, { State.reset with app.clk.ethUp := 3, app.server.conn := State.reset.app.server.conn.set 2 (some { port := 0, role := .pub, expiry := 5, name := [] }) }, by decide +kernel⟩,
   ⟨3, 7, State.reset, by decide +kernel⟩,
   ⟨2, 7, true, { port := 0, role := .operator, expiry := 5, name := [], subs := [{ id := 7, idx := 0x4000, sub := 1, handle := 0, serial := 0, interval := 100, at_ := none, value := [] }] }, { id := 7, idx := 0x4000, sub := 1, handle := 0, serial := 0, interval := 100, at_ := none, value := [] }, { State.reset with app.clk.run := 255, app.clk.ethUp := 3, app.server.conn := State.reset.app.server.conn.set 2 (some { port := 0, role := .operator, expiry := 5, name := [], subs := [{ id := 7, idx := 0x4000, sub := 1, handle := 0, serial := 0, interval := 100, at_ := none, value := [] }] }) }, by decide +kernel⟩,
   ⟨2, 7, true, { port := 0, role := .pub, expiry := 5, name := [] }, { State.reset with app.clk.ethUp := 3, app.server.conn := State.reset.app.server.conn.set 2 (some { port := 0, role := .pub, expiry := 5, name := [] }) }, by decide +kernel⟩,
   ⟨3, 7, true, State.reset, by decide +kernel⟩,
   ⟨2, ⟨2, 1, 0, 0, 7⟩, { port := 0, role := .pub, expiry := 5, name := [] }, { State.reset with app.clk.ethUp := 3, app.server.conn := State.reset.app.server.conn.set 2 (some { port := 0, role := .pub, expiry := 5, name := [] }) }, by decide +kernel⟩,
   ⟨2, ⟨1, 9, 0, 0, 7⟩, { port := 0, role := .pub, expiry := 5, name := [] }, { State.reset with app.clk.ethUp := 3, app.server.conn := State.reset.app.server.conn.set 2 (some { port := 0, role := .pub, expiry := 5, name := [] }) }, by decide +kernel⟩,
   ⟨3, ⟨2, 1, 0, 0, 7⟩, State.reset, by decide +kernel⟩,
   ⟨2, { port := 0, role := .pub, expiry := 5, name := [] }, { State.reset with app.clk.ethUp := 3, app.server.conn := State.reset.app.server.conn.set 2 (some { port := 0, role := .pub, expiry := 5, name := [] }), app.clk.ht := 60000000000 }, by decide +kernel⟩,
   ⟨2, { port := 0, role := .pub, expiry := 5, name := [] }, { State.reset with app.clk.ethUp := 3, app.server.conn := State.reset.app.server.conn.set 2 (some { port := 0, role := .pub, expiry := 5, name := [] }) }, by decide +kernel⟩,
   ⟨3, State.reset, by decide +kernel⟩,
   ⟨2, { port := 0, role := .pub, expiry := 5, name := [] }, { State.reset with app.clk.ethUp := 3, app.server.conn := State.reset.app.server.conn.set 2 (some { port := 0, role := .pub, expiry := 5, name := [] }) }, by decide +kernel⟩,
   ⟨3, State.reset, by decide +kernel⟩⟩

/-- The hypotheses of `Obligations.TackSlots` are met. -/
theorem witness_tackSlots :
  (∃ i : BitVec 8, ∃ a : Word, ∃ u : State, ∃ s : State, s.tackUp = true ∧ girthRun 14 ([7] ++ wrapKinds (bit
    a 6)) s = some u ∧ s.slotFillable i.toNat .firmware = .ok ∧ s.fuses.decom = false ∧ within 16 i.toNat 47 =
    false ∧ attrOk a = true ∧ secretType (fld a 12 4) = true ∧ fld a 24 8 = 0xFF) ∧
  (∃ i : BitVec 8, ∃ a : Word, ∃ p n : Nat, ∃ r : Role, ∃ o : Bool, ∃ d : List Byte, ∃ u : State, ∃ s : State,
    s.tackUp = true ∧ girthRun 14 (wrapKinds (bit a 6)) s = some u ∧ s.slotFillable i.toNat r = .ok ∧ (within
    16 i.toNat 47 = true → anchorRole a r = true) ∧ secretType (fld a 12 4) = false ∧ attrOk a = true ∧
    importKind i.toNat (fld a 12 4) = true ∧ s.tackBuf p n = some d ∧ fld a 24 8 = 0xFF ∧ n ≤ 4096 ∧ d.length ≤
    4096) ∧
  (∃ i : BitVec 8, ∃ a : Word, ∃ p n : Nat, ∃ r : Role, ∃ d : List Byte, ∃ u : State, ∃ s : State, s.tackUp =
    true ∧ girthRun 14 (wrapKinds (bit a 6)) s = some u ∧ s.slotFillable i.toNat r = .ok ∧ (within 16 i.toNat
    47 = true → anchorRole a r = true) ∧ secretType (fld a 12 4) = true ∧ s.fuses.decom = false ∧ attrOk a =
    true ∧ importKind i.toNat (fld a 12 4) = true ∧ s.tackBuf p n = some d ∧ n ≤ 4096 ∧ (s.slot (fld a 24
    8)).isEmpty = false ∧ fld a 24 8 < 128 ∧ (s.slot (fld a 24 8)).use 3 = true ∧ (s.slot (fld a 24 8)).orphan
    = false ∧ (s.slot (fld a 24 8)).type = 1 ∧ (s.slot (fld a 24 8)).bind = false) ∧
  (∃ i q : BitVec 8, ∃ la ln : Nat, ∃ a : Word, ∃ d : List Byte, ∃ u : State, ∃ s : State, s.tackUp = true ∧
    girthRun 14 ([10] ++ wrapKinds (bit a 6)) s = some u ∧ s.slotFillable i.toNat .firmware = .ok ∧ (s.slot
    q.toNat).isEmpty = false ∧ q.toNat < 128 ∧ (s.slot q.toNat).use 2 = true ∧ s.fuses.decom = false ∧ (s.slot
    q.toNat).orphan = false ∧ s.tackBuf la ln = some d ∧ ln ≤ 4096 ∧ within 16 i.toNat 47 = false ∧ attrOk a =
    true ∧ secretType (fld a 12 4) = true ∧ ((s.slot q.toNat).bind = true → bit a 7 = true)) ∧
  (∃ i : BitVec 8, ∃ r : Role, ∃ u : State, ∃ s : State, s.tackUp = true ∧ girthRun 14 (wrapKinds (s.slot
    i.toNat).persist) s = some u ∧ s.slotWritable i.toNat r ≠ .absent ∧ s.slotWritable i.toNat r ≠ .denied ∧
    (s.slot i.toNat).isEmpty = false) ∧
  (∃ i : BitVec 8, ∃ a : Word, ∃ s : State, s.tackUp = false) ∧
  (∃ i : BitVec 8, ∃ a : Word, ∃ p n : Nat, ∃ r : Role, ∃ o : Bool, ∃ s : State, s.tackUp = false) ∧
  (∃ i q : BitVec 8, ∃ la ln : Nat, ∃ a : Word, ∃ s : State, s.tackUp = false) ∧
  (∃ i : BitVec 8, ∃ r : Role, ∃ s : State, s.tackUp = false) :=
  ⟨⟨50, 0xFFFF1000, _, { State.reset with app.clk.appHeld := false, app.tack.st := 2, app.girth.rebuilding := false }, by decide +kernel, rfl, by decide +kernel⟩,
   ⟨16, 0xFF00A100, 0, 0, .operator, true, [], _, { State.reset with app.clk.appHeld := false, app.tack.st := 2, app.girth.rebuilding := false }, by decide +kernel, rfl, by decide +kernel⟩,
   ⟨51, 0x32FF1000, 0, 0, .firmware, [], _, { State.reset with app.clk.appHeld := false, app.tack.st := 2, app.girth.rebuilding := false, app.tack.slots := (State.reset.app.tack.slots.set 50 { attr := 0xFFFF1008 }) }, by decide +kernel, rfl, by decide +kernel⟩,
   ⟨51, 50, 0, 0, 0xFFFF1000, [], _, { State.reset with app.clk.appHeld := false, app.tack.st := 2, app.girth.rebuilding := false, app.tack.slots := (State.reset.app.tack.slots.set 50 { attr := 0xFFFF1004 }) }, by decide +kernel, rfl, by decide +kernel⟩,
   ⟨50, .operator, _, { State.reset with app.clk.appHeld := false, app.tack.st := 2, app.girth.rebuilding := false, app.tack.slots := (State.reset.app.tack.slots.set 50 { attr := 0xFFFF1004 }) }, by decide +kernel, rfl, by decide +kernel⟩,
   ⟨50, 0, State.reset, by decide +kernel⟩,
   ⟨16, 0, 0, 0, .operator, true, State.reset, by decide +kernel⟩,
   ⟨51, 50, 0, 0, 0, State.reset, by decide +kernel⟩,
   ⟨50, .operator, State.reset, by decide +kernel⟩⟩

/-- The hypotheses of `Obligations.TackUses` are met. -/
theorem witness_tackUses :
  (∃ i : BitVec 8, ∃ a : Word, ∃ s : State, s.tackUp = true ∧ i.toNat < 128 ∧ (s.slot i.toNat).isEmpty = false
    ∧ (s.slot i.toNat).orphan = false ∧ (s.slot i.toNat).pub = []) ∧
  (∃ i : BitVec 8, ∃ a : Word, ∃ s : State, s.tackUp = true ∧ i.toNat < 128 ∧ (s.slot i.toNat).isEmpty = false
    ∧ (s.slot i.toNat).orphan = false ∧ (s.slot i.toNat).pub ≠ [] ∧ s.mayStore 14 a.toNat (s.slot
    i.toNat).pub.length = true) ∧
  (∃ i : BitVec 8, ∃ a : Word, ∃ d : List Byte, ∃ u : State, ∃ s : State, s.tackUp = true ∧ girthRun 14 [7] s
    = some u ∧ s.slotUse i.toNat 0 true = .ok ∧ s.tackBuf a.toNat 48 = some d ∧ s.mayStore 14 a.toNat 96 = true) ∧
  (∃ i : BitVec 8, ∃ a : Word, ∃ s : State, s.tackUp = true ∧ s.slotUse i.toNat 0 true ≠ .ok) ∧
  (∃ i : BitVec 8, ∃ a : Word, ∃ u : State, ∃ s : State, s.tackUp = true ∧ girthRun 14 [7] s = some u ∧
    s.slotUse i.toNat 1 false = .ok ∧ (s.tackBuf a.toNat 48).isSome = true) ∧
  (∃ i : BitVec 8, ∃ a : Word, ∃ s : State, s.tackUp = true ∧ s.slotUse i.toNat 1 false = .ok ∧ (s.tackBuf
    a.toNat 48).isSome = true) ∧
  (∃ i : BitVec 8, ∃ a : Word, ∃ g : Bool, ∃ s : State, s.tackUp = true ∧ s.slotUse i.toNat 1 false ≠ .ok) ∧
  (∃ i : BitVec 8, ∃ a : Word, ∃ u : State, ∃ s : State, s.tackUp = true ∧ girthRun 14 [7] s = some u ∧
    s.slotUse i.toNat 2 true = .ok ∧ (s.tackBuf a.toNat 48).isSome = true ∧ s.used.mayStore 14 a.toNat 48 =
    true) ∧
  (∃ i : BitVec 8, ∃ a : Word, ∃ s : State, s.tackUp = true ∧ s.slotUse i.toNat 2 true ≠ .ok) ∧
  (∃ a : Word, ∃ n : Nat, ∃ s : State, s.tackUp = true ∧ n ≤ 256 ∧ s.used.mayStore 14 a.toNat n = true) ∧
  (∃ a : Word, ∃ n : Nat, ∃ s : State, s.tackUp = true ∧ 256 < n) ∧
  (∃ u : BitVec 8, ∃ a n : Nat, ∃ s : State, s.tackUp = true ∧ within 4 u.toNat 15 = true ∧ n ≤ 0x800000 ∧
    s.reads 15 (regionOf a) = true) ∧
  (∃ a : Word, ∃ m : Manifest, ∃ u : State, ∃ s : State, s.tackUp = true ∧ girthRun 14 [8] s = some u ∧
    s.fuses.decom = false ∧ s.sec.upd.man = some m ∧ (s.sec.upd.st = .prepared ∨ s.sec.upd.st = .copying ∨
    s.sec.upd.st = .written)) ∧
  (∃ a : Word, ∃ s : State, s.tackUp = true ∧ s.sec.upd.st = .idle) ∧
  (∃ i : BitVec 8, ∃ a : Word, ∃ s : State, s.tackUp = false) ∧
  (∃ i : BitVec 8, ∃ a : Word, ∃ s : State, s.tackUp = false) ∧
  (∃ i : BitVec 8, ∃ a : Word, ∃ g : Bool, ∃ s : State, s.tackUp = false) ∧
  (∃ i : BitVec 8, ∃ a : Word, ∃ s : State, s.tackUp = false) ∧
  (∃ u : BitVec 8, ∃ a n : Nat, ∃ s : State, s.tackUp = false) ∧
  (∃ a : Word, ∃ n : Nat, ∃ s : State, s.tackUp = false) ∧
  (∃ a : Word, ∃ s : State, s.tackUp = false) :=
  ⟨⟨50, 0, { State.reset with app.clk.appHeld := false, app.tack.st := 2, app.girth.rebuilding := false, app.tack.slots := (State.reset.app.tack.slots.set 50 { attr := 0xFFFF1004 }) }, by decide +kernel⟩,
   ⟨50, 0x01000000, { State.reset with app.clk.appHeld := false, app.tack.st := 2, app.girth.rebuilding := false, app.tack.slots := (State.reset.app.tack.slots.set 50 { attr := 0xFFFF1004, pub := [1] }) }, by decide +kernel⟩,
   ⟨50, 0x01000000, List.replicate 48 0, _, { State.reset with app.clk.appHeld := false, app.tack.st := 2, app.girth.rebuilding := false, app.tack.slots := (State.reset.app.tack.slots.set 50 { attr := 0xFFFF1001 }) }, by decide +kernel, rfl, by decide +kernel⟩,
   ⟨50, 0, { State.reset with app.clk.appHeld := false, app.tack.st := 2, app.girth.rebuilding := false, app.tack.slots := (State.reset.app.tack.slots.set 50 { attr := 0xFFFF1004 }) }, by decide +kernel⟩,
   ⟨50, 0x01000000, _, { State.reset with app.clk.appHeld := false, app.tack.st := 2, app.girth.rebuilding := false, app.tack.slots := (State.reset.app.tack.slots.set 50 { attr := 0xFFFF1002 }) }, by decide +kernel, rfl, by decide +kernel⟩,
   ⟨50, 0x01000000, { State.reset with app.clk.appHeld := false, app.tack.st := 2, app.girth.rebuilding := false, app.tack.slots := (State.reset.app.tack.slots.set 50 { attr := 0xFFFF1002 }) }, by decide +kernel⟩,
   ⟨50, 0, true, { State.reset with app.clk.appHeld := false, app.tack.st := 2, app.girth.rebuilding := false, app.tack.slots := (State.reset.app.tack.slots.set 50 { attr := 0xFFFF1004 }) }, by decide +kernel⟩,
   ⟨50, 0x01000000, _, { State.reset with app.clk.appHeld := false, app.tack.st := 2, app.girth.rebuilding := false, app.tack.slots := (State.reset.app.tack.slots.set 50 { attr := 0xFFFF1004 }) }, by decide +kernel, rfl, by decide +kernel⟩,
   ⟨50, 0, { State.reset with app.clk.appHeld := false, app.tack.st := 2, app.girth.rebuilding := false, app.tack.slots := (State.reset.app.tack.slots.set 50 { attr := 0xFFFF1001 }) }, by decide +kernel⟩,
   ⟨0x01000000, 4, { State.reset with app.clk.appHeld := false, app.tack.st := 2, app.girth.rebuilding := false }, by decide +kernel⟩,
   ⟨0, 257, { State.reset with app.clk.appHeld := false, app.tack.st := 2, app.girth.rebuilding := false }, by decide +kernel⟩,
   ⟨4, 0x01000000, 4, { State.reset with app.clk.appHeld := false, app.tack.st := 2, app.girth.rebuilding := false }, by decide +kernel⟩,
   ⟨0, ⟨true, 1, 0, false, 0, 0, true, [], true, []⟩, _, { State.reset with app.clk.appHeld := false, app.tack.st := 2, app.girth.rebuilding := false, sec.upd := { State.reset.sec.upd with man := some ⟨true, 1, 0, false, 0, 0, true, [], true, []⟩, st := .written } }, by decide +kernel, rfl, by decide +kernel⟩,
   ⟨0, { State.reset with app.clk.appHeld := false, app.tack.st := 2, app.girth.rebuilding := false }, by decide +kernel⟩,
   ⟨50, 0, State.reset, by decide +kernel⟩,
   ⟨50, 0, State.reset, by decide +kernel⟩,
   ⟨50, 0, true, State.reset, by decide +kernel⟩,
   ⟨50, 0, State.reset, by decide +kernel⟩,
   ⟨4, 0, 0, State.reset, by decide +kernel⟩,
   ⟨0, 0, State.reset, by decide +kernel⟩,
   ⟨0, State.reset, by decide +kernel⟩⟩

/-- The hypotheses of `Obligations.TackFusesAndDecommission` are met. -/
theorem witness_tackFusesAndDecommission :
  (∃ v : BitVec 384, ∃ u : State, ∃ s : State, s.tackUp = true ∧ girthRun 14 [8, 10] s = some u ∧ v &&&
    ~~~(0x3B : BitVec 384) = 0 ∧ s.sec.upd.st = .idle) ∧
  (∃ v : BitVec 384, ∃ s : State, s.tackUp = true) ∧
  (∃ v : BitVec 384, ∃ s : State, s.tackUp = true) ∧
  (∃ v : BitVec 384, ∃ s : State, s.tackUp = true) ∧
  (∃ v : BitVec 384, ∃ s : State, s.tackUp = true) ∧
  (∃ v : BitVec 384, ∃ k : Nat, ∃ u : State, ∃ s : State, s.tackUp = true ∧ girthRun 14 [10] s = some u ∧ v =
    s.stagedDigest ∧ (List.range 4).find? (fun k => s.fuses.safe.get k = 0) = some k) ∧
  (∃ f : FuseField, ∃ v : BitVec 384, ∃ s : State, s.tackUp = false) ∧
  (∃ r : Role, ∃ s : State, s.tackUp = true ∧ s.rolePresent r = true ∧ (r = .operator ∨ r = .verifier) ∧
    s.fuses.decom = false ∧ s.openCount = 0 ∧ s.app.tack.decomBy = none) ∧
  (∃ r q : Role, ∃ u : Nat, ∃ s : State, s.tackUp = true ∧ s.rolePresent r = true ∧ (r = .operator ∨ r =
    .verifier) ∧ s.fuses.decom = false ∧ s.openCount = 0 ∧ s.app.tack.decomBy = some (q, u) ∧ q ≠ r ∧ s.ht ≤ u
    + 600000000000) ∧
  (∃ r : Role, ∃ v : Word, ∃ s : State, (s.rolePresent r = false ∨ v ≠ 0x444D4F43 ∨ (r ≠ .operator ∧ r ≠
    .verifier) ∨ s.fuses.decom = true ∨ s.openCount ≠ 0)) ∧
  (∃ r : Role, ∃ v : Word, ∃ s : State, s.tackUp = false) :=
  ⟨⟨1, _, { State.reset with app.clk.appHeld := false, app.tack.st := 2, app.girth.rebuilding := false }, by decide +kernel, rfl, by decide +kernel⟩,
   ⟨1, { State.reset with app.clk.appHeld := false, app.tack.st := 2, app.girth.rebuilding := false }, by decide +kernel⟩,
   ⟨1, { State.reset with app.clk.appHeld := false, app.tack.st := 2, app.girth.rebuilding := false }, by decide +kernel⟩,
   ⟨1, { State.reset with app.clk.appHeld := false, app.tack.st := 2, app.girth.rebuilding := false }, by decide +kernel⟩,
   ⟨1, { State.reset with app.clk.appHeld := false, app.tack.st := 2, app.girth.rebuilding := false }, by decide +kernel⟩,
   ⟨({ State.reset with app.clk.appHeld := false, app.tack.st := 2, app.girth.rebuilding := false }).stagedDigest, 0, _, { State.reset with app.clk.appHeld := false, app.tack.st := 2, app.girth.rebuilding := false }, by decide +kernel, rfl, rfl, by decide +kernel⟩,
   ⟨.dbg, 1, State.reset, by decide +kernel⟩,
   ⟨.operator, { State.reset with app.clk.appHeld := false, app.tack.st := 2, app.girth.rebuilding := false }, by decide +kernel⟩,
   ⟨.operator, .verifier, 0, { State.reset with app.clk.appHeld := false, app.tack.st := 2, app.girth.rebuilding := false, app.tack.decomBy := some (.verifier, 0) }, by decide +kernel⟩,
   ⟨.operator, 0, State.reset, by decide +kernel⟩,
   ⟨.operator, 0, State.reset, by decide +kernel⟩⟩

/-- The hypotheses of `Obligations.UpdateLifecycle` are met. -/
theorem witness_updateLifecycle :
  (∃ r : Role, ∃ l : Bool, ∃ m : Manifest, ∃ u : State, ∃ s : State, s.inReset = false ∧ girthRun 14 [7, 8] s
    = some u ∧ s.manifestStatus r l m = .ok ∧ s.fuses.decom = false) ∧
  (∃ r : Role, ∃ l : Bool, ∃ m : Manifest, ∃ s : State, s.inReset = false ∧ s.manifestStatus r l m ≠ .ok) ∧
  (∃ r : Role, ∃ l : Bool, ∃ m : Manifest, ∃ s : State, s.inReset = true) ∧
  (∃ b : BlockData, ∃ m : Manifest, ∃ u : State, ∃ s : State, s.inReset = false ∧ girthRun 14 [8] s = some u ∧
    s.sec.upd.man = some m ∧ (s.sec.upd.st = .prepared ∨ s.sec.upd.st = .copying) ∧ s.nextBlock = some b.blk ∧
    b.hash = s.blockWanted b.blk ∧ b.readBack = b.hash ∧ s.sec.upd.saved.contains b.blk = false ∧
    (s.manifestBlocks m).find? (fun k => !(s.sec.upd.written ++ [b.blk]).contains k) = none ∧ b.compsOk = true) ∧
  (∃ b : BlockData, ∃ m : Manifest, ∃ u : State, ∃ k : Nat, ∃ s : State, s.inReset = false ∧ girthRun 14 [8] s
    = some u ∧ s.sec.upd.man = some m ∧ (s.sec.upd.st = .prepared ∨ s.sec.upd.st = .copying) ∧ s.nextBlock =
    some b.blk ∧ b.hash = s.blockWanted b.blk ∧ b.readBack = b.hash ∧ s.sec.upd.saved.contains b.blk = false ∧
    (s.manifestBlocks m).find? (fun k => !(s.sec.upd.written ++ [b.blk]).contains k) = some k) ∧
  (∃ b : BlockData, ∃ s : State, s.inReset = false ∧ (s.sec.upd.st = .prepared ∨ s.sec.upd.st = .copying) ∧
    s.nextBlock = some b.blk ∧ b.hash ≠ s.blockWanted b.blk) ∧
  (∃ b : BlockData, ∃ s : State, s.inReset = false ∧ (s.sec.upd.st = .prepared ∨ s.sec.upd.st = .copying) ∧
    s.nextBlock ≠ some b.blk) ∧
  (∃ b : BlockData, ∃ s : State, s.inReset = false ∧ s.sec.upd.st ≠ .prepared ∧ s.sec.upd.st ≠ .copying) ∧
  (∃ b : BlockData, ∃ s : State, s.inReset = false ∧ (s.sec.upd.st = .prepared ∨ s.sec.upd.st = .copying) ∧
    s.nextBlock = some b.blk ∧ b.hash = s.blockWanted b.blk ∧ b.readBack ≠ b.hash ∧ s.sec.upd.saved.contains
    b.blk = false) ∧
  (∃ b : BlockData, ∃ s : State, s.inReset = true) ∧
  (∃ s : State, s.inReset = false ∧ s.sec.upd.st ≠ .idle ∧ s.sec.upd.st ≠ .rollback) ∧
  (∃ v : BitVec 8, ∃ s : State, (s.inReset = true ∨ s.sec.upd.st = .idle ∨ s.sec.upd.st = .rollback ∨ v.toNat
    ≠ 1)) ∧
  (∃ s : State, s.inReset = false ∧ s.sec.upd.st = .written) ∧
  (∃ v : BitVec 8, ∃ s : State, (s.inReset = true ∨ s.sec.upd.st ≠ .written ∨ v.toNat ≠ 1)) ∧
  (∃ m : Manifest, ∃ u : State, ∃ s : State, s.tackUp = true ∧ girthRun 14 [8] s = some u ∧ s.sec.upd.man =
    some m ∧ s.mayConfirm m = true) ∧
  (∃ s : State, s.tackUp = true ∧ ∀ m, s.sec.upd.man = some m → s.mayConfirm m = false) ∧
  (∃ s : State, s.tackUp = false) :=
  ⟨⟨.operator, true, ⟨true, 1, 0, false, 0, 0, true, [⟨1, 0, 0, 0⟩], true, []⟩, _, { State.reset with app.clk.appHeld := false, app.girth.rebuilding := false }, by decide +kernel, rfl, by decide +kernel⟩,
   ⟨.pub, true, ⟨true, 1, 0, false, 0, 0, true, [⟨1, 0, 0, 0⟩], true, []⟩, { State.reset with app.clk.appHeld := false, app.girth.rebuilding := false }, by decide +kernel⟩,
   ⟨.pub, true, ⟨true, 1, 0, false, 0, 0, true, [⟨1, 0, 0, 0⟩], true, []⟩, { State.reset with app.clk.appHeld := true }, by decide +kernel⟩,
   ⟨⟨3, 5, 5, true⟩, ⟨true, 1, 0, false, 0, 0, true, [⟨1, 0, 0, 0⟩], true, [(3, 5)]⟩, _, { State.reset with app.clk.appHeld := false, app.girth.rebuilding := false, sec.upd := { State.reset.sec.upd with st := .prepared, man := some ⟨true, 1, 0, false, 0, 0, true, [⟨1, 0, 0, 0⟩], true, [(3, 5)]⟩ } }, by decide +kernel, rfl, by decide +kernel⟩,
   ⟨⟨3, 5, 5, true⟩, ⟨true, 1, 0, false, 0, 0, true, [⟨1, 0, 0, 0⟩], true, [(3, 5), (4, 6)]⟩, _, 4, { State.reset with app.clk.appHeld := false, app.girth.rebuilding := false, sec.upd := { State.reset.sec.upd with st := .prepared, man := some ⟨true, 1, 0, false, 0, 0, true, [⟨1, 0, 0, 0⟩], true, [(3, 5), (4, 6)]⟩ } }, by decide +kernel, rfl, by decide +kernel⟩,
   ⟨⟨3, 4, 5, true⟩, { State.reset with app.clk.appHeld := false, app.girth.rebuilding := false, sec.upd := { State.reset.sec.upd with st := .prepared, man := some ⟨true, 1, 0, false, 0, 0, true, [⟨1, 0, 0, 0⟩], true, [(3, 5)]⟩ } }, by decide +kernel⟩,
   ⟨⟨7, 4, 5, true⟩, { State.reset with app.clk.appHeld := false, app.girth.rebuilding := false, sec.upd := { State.reset.sec.upd with st := .prepared, man := some ⟨true, 1, 0, false, 0, 0, true, [⟨1, 0, 0, 0⟩], true, [(3, 5)]⟩ } }, by decide +kernel⟩,
   ⟨⟨7, 4, 5, true⟩, { State.reset with app.clk.appHeld := false, app.girth.rebuilding := false }, by decide +kernel⟩,
   ⟨⟨3, 5, 6, true⟩, { State.reset with app.clk.appHeld := false, app.girth.rebuilding := false, sec.upd := { State.reset.sec.upd with st := .prepared, man := some ⟨true, 1, 0, false, 0, 0, true, [⟨1, 0, 0, 0⟩], true, [(3, 5)]⟩ } }, by decide +kernel⟩,
   ⟨⟨3, 5, 6, true⟩, { State.reset with app.clk.appHeld := true }, by decide +kernel⟩,
   ⟨{ State.reset with app.clk.appHeld := false, app.girth.rebuilding := false, sec.upd := { State.reset.sec.upd with st := .prepared } }, by decide +kernel⟩,
   ⟨1, State.reset, by decide +kernel⟩,
   ⟨{ State.reset with app.clk.appHeld := false, app.girth.rebuilding := false, sec.upd := { State.reset.sec.upd with st := .written } }, by decide +kernel⟩,
   ⟨1, State.reset, by decide +kernel⟩,
   ⟨⟨true, 1, 0, false, 0, 0, true, [⟨1, 0, 0, 0⟩], true, []⟩, _, { State.reset with app.clk.appHeld := false, app.girth.rebuilding := false, app.tack.st := 2, sec.upd := { State.reset.sec.upd with st := .trial, man := some ⟨true, 1, 0, false, 0, 0, true, [⟨1, 0, 0, 0⟩], true, []⟩ }, trial.active := true, app.clk.htDisciplined := true, bridle.st := .run, app.server.ready := true }, by decide +kernel, rfl, by decide +kernel⟩,
   ⟨{ State.reset with app.clk.appHeld := false, app.girth.rebuilding := false, app.tack.st := 2 }, rfl, fun _ h => nomatch h⟩,
   ⟨State.reset, by decide +kernel⟩⟩

/-- The hypotheses of `Obligations.StartSequences` are met. -/
theorem witness_startSequences :
  (∃ boot : BitVec 4, ∃ b : BootChecks, ∃ s : State, (s.cold.mainFail = false ∧ (s.cold.started = false ∨
    s.cold.coldHeld = true)) ∧ s.debugBoot boot = true) ∧
  (∃ boot : BitVec 4, ∃ b : BootChecks, ∃ s : State, (s.cold.mainFail = false ∧ (s.cold.started = false ∨
    s.cold.coldHeld = true)) ∧ s.fuses.prod = false ∧ s.fuses.mfg = true ∧ s.debugBoot boot = false) ∧
  (∃ boot : BitVec 4, ∃ b : BootChecks, ∃ s : State, (s.cold.mainFail = false ∧ (s.cold.started = false ∨
    s.cold.coldHeld = true)) ∧ (s.fuses.prod = true ∨ s.fuses.mfg = false) ∧ s.debugBoot boot = false ∧
    s.recoveryBoot boot = true ∧ b.recoveryOk = true) ∧
  (∃ boot : BitVec 4, ∃ b : BootChecks, ∃ s : State, (s.cold.mainFail = false ∧ (s.cold.started = false ∨
    s.cold.coldHeld = true)) ∧ (s.fuses.prod = true ∨ s.fuses.mfg = false) ∧ s.debugBoot boot = false ∧
    s.recoveryBoot boot = true ∧ b.recoveryOk = false) ∧
  (∃ boot : BitVec 4, ∃ b : BootChecks, ∃ s : State, (s.cold.mainFail = false ∧ (s.cold.started = false ∨
    s.cold.coldHeld = true)) ∧ (s.fuses.prod = true ∨ s.fuses.mfg = false) ∧ s.debugBoot boot = false ∧
    s.recoveryBoot boot = false ∧ b.flashOk = false) ∧
  (∃ boot : BitVec 4, ∃ b : BootChecks, ∃ s : State, (s.cold.mainFail = false ∧ (s.cold.started = false ∨
    s.cold.coldHeld = true)) ∧ (s.fuses.prod = true ∨ s.fuses.mfg = false) ∧ s.debugBoot boot = false ∧
    s.recoveryBoot boot = false ∧ b.flashOk = true ∧ b.dirOk = false) ∧
  (∃ boot : BitVec 4, ∃ b : BootChecks, ∃ s : State, (s.cold.mainFail = false ∧ (s.cold.started = false ∨
    s.cold.coldHeld = true)) ∧ (s.fuses.prod = true ∨ s.fuses.mfg = false) ∧ s.debugBoot boot = false ∧
    s.recoveryBoot boot = false ∧ b.flashOk = true ∧ b.dirOk = true ∧ s.bootLoader boot b = none) ∧
  (∃ boot : BitVec 4, ∃ b : BootChecks, ∃ s : State, (s.cold.mainFail = false ∧ (s.cold.started = false ∨
    s.cold.coldHeld = true)) ∧ (s.fuses.prod = true ∨ s.fuses.mfg = false) ∧ s.debugBoot boot = false ∧
    s.recoveryBoot boot = false ∧ b.flashOk = true ∧ b.dirOk = true ∧ (s.bootLoader boot b).isSome = true ∧
    (s.sec.upd.st = .copying ∨ s.sec.upd.st = .rollback)) ∧
  (∃ boot : BitVec 4, ∃ b : BootChecks, ∃ s : State, (s.cold.mainFail = false ∧ (s.cold.started = false ∨
    s.cold.coldHeld = true)) ∧ (s.fuses.prod = true ∨ s.fuses.mfg = false) ∧ s.debugBoot boot = false ∧
    s.recoveryBoot boot = false ∧ b.flashOk = true ∧ b.dirOk = true ∧ (s.bootLoader boot b).isSome = true ∧
    (s.sec.upd.st = .idle ∨ s.sec.upd.st = .prepared) ∧ b.manifestOk = false) ∧
  (∃ boot : BitVec 4, ∃ b : BootChecks, ∃ s : State, (s.cold.mainFail = false ∧ (s.cold.started = false ∨
    s.cold.coldHeld = true)) ∧ (s.fuses.prod = true ∨ s.fuses.mfg = false) ∧ s.debugBoot boot = false ∧
    s.recoveryBoot boot = false ∧ b.flashOk = true ∧ b.dirOk = true ∧ (s.bootLoader boot b).isSome = true ∧
    (s.sec.upd.st = .idle ∨ s.sec.upd.st = .prepared) ∧ b.manifestOk = true ∧ b.tackRoomOk = false) ∧
  (∃ boot : BitVec 4, ∃ b : BootChecks, ∃ s : State, (s.cold.mainFail = false ∧ (s.cold.started = false ∨
    s.cold.coldHeld = true)) ∧ (s.fuses.prod = true ∨ s.fuses.mfg = false) ∧ s.debugBoot boot = false ∧
    s.recoveryBoot boot = false ∧ b.flashOk = true ∧ b.dirOk = true ∧ (s.bootLoader boot b).isSome = true ∧
    (s.sec.upd.st = .idle ∨ s.sec.upd.st = .prepared) ∧ b.manifestOk = true ∧ b.tackRoomOk = true ∧ b.cantleOk
    = false) ∧
  (∃ boot : BitVec 4, ∃ b : BootChecks, ∃ s : State, (s.cold.mainFail = false ∧ (s.cold.started = false ∨
    s.cold.coldHeld = true)) ∧ (s.fuses.prod = true ∨ s.fuses.mfg = false) ∧ s.debugBoot boot = false ∧
    s.recoveryBoot boot = false ∧ b.flashOk = true ∧ b.dirOk = true ∧ (s.bootLoader boot b).isSome = true ∧
    (s.sec.upd.st = .idle ∨ s.sec.upd.st = .prepared) ∧ b.manifestOk = true ∧ b.tackRoomOk = true ∧ b.cantleOk
    = true) ∧
  (∃ boot : BitVec 4, ∃ b : BootChecks, ∃ s : State, (s.app.clk.appHeld = true ∧ s.cold.mainFail = false ∧
    s.cold.coldHeld = false) ∧ s.debugBoot boot = true) ∧
  (∃ boot : BitVec 4, ∃ b : BootChecks, ∃ s : State, (s.app.clk.appHeld = true ∧ s.cold.mainFail = false ∧
    s.cold.coldHeld = false) ∧ s.fuses.prod = false ∧ s.fuses.mfg = true ∧ s.debugBoot boot = false) ∧
  (∃ boot : BitVec 4, ∃ b : BootChecks, ∃ s : State, (s.app.clk.appHeld = true ∧ s.cold.mainFail = false ∧
    s.cold.coldHeld = false) ∧ (s.fuses.prod = true ∨ s.fuses.mfg = false) ∧ s.debugBoot boot = false ∧
    s.recoveryBoot boot = true ∧ b.recoveryOk = true) ∧
  (∃ boot : BitVec 4, ∃ b : BootChecks, ∃ s : State, (s.app.clk.appHeld = true ∧ s.cold.mainFail = false ∧
    s.cold.coldHeld = false) ∧ (s.fuses.prod = true ∨ s.fuses.mfg = false) ∧ s.debugBoot boot = false ∧
    s.recoveryBoot boot = true ∧ b.recoveryOk = false) ∧
  (∃ boot : BitVec 4, ∃ b : BootChecks, ∃ s : State, (s.app.clk.appHeld = true ∧ s.cold.mainFail = false ∧
    s.cold.coldHeld = false) ∧ (s.fuses.prod = true ∨ s.fuses.mfg = false) ∧ s.debugBoot boot = false ∧
    s.recoveryBoot boot = false ∧ b.flashOk = false) ∧
  (∃ boot : BitVec 4, ∃ b : BootChecks, ∃ s : State, (s.app.clk.appHeld = true ∧ s.cold.mainFail = false ∧
    s.cold.coldHeld = false) ∧ (s.fuses.prod = true ∨ s.fuses.mfg = false) ∧ s.debugBoot boot = false ∧
    s.recoveryBoot boot = false ∧ b.flashOk = true ∧ b.dirOk = false) ∧
  (∃ boot : BitVec 4, ∃ b : BootChecks, ∃ s : State, (s.app.clk.appHeld = true ∧ s.cold.mainFail = false ∧
    s.cold.coldHeld = false) ∧ (s.fuses.prod = true ∨ s.fuses.mfg = false) ∧ s.debugBoot boot = false ∧
    s.recoveryBoot boot = false ∧ b.flashOk = true ∧ b.dirOk = true ∧ s.bootLoader boot b = none) ∧
  (∃ boot : BitVec 4, ∃ b : BootChecks, ∃ s : State, (s.app.clk.appHeld = true ∧ s.cold.mainFail = false ∧
    s.cold.coldHeld = false) ∧ (s.fuses.prod = true ∨ s.fuses.mfg = false) ∧ s.debugBoot boot = false ∧
    s.recoveryBoot boot = false ∧ b.flashOk = true ∧ b.dirOk = true ∧ (s.bootLoader boot b).isSome = true ∧
    (s.sec.upd.st = .copying ∨ s.sec.upd.st = .rollback)) ∧
  (∃ boot : BitVec 4, ∃ b : BootChecks, ∃ s : State, (s.app.clk.appHeld = true ∧ s.cold.mainFail = false ∧
    s.cold.coldHeld = false) ∧ (s.fuses.prod = true ∨ s.fuses.mfg = false) ∧ s.debugBoot boot = false ∧
    s.recoveryBoot boot = false ∧ b.flashOk = true ∧ b.dirOk = true ∧ (s.bootLoader boot b).isSome = true ∧
    (s.sec.upd.st = .idle ∨ s.sec.upd.st = .prepared) ∧ b.manifestOk = false) ∧
  (∃ boot : BitVec 4, ∃ b : BootChecks, ∃ s : State, (s.app.clk.appHeld = true ∧ s.cold.mainFail = false ∧
    s.cold.coldHeld = false) ∧ (s.fuses.prod = true ∨ s.fuses.mfg = false) ∧ s.debugBoot boot = false ∧
    s.recoveryBoot boot = false ∧ b.flashOk = true ∧ b.dirOk = true ∧ (s.bootLoader boot b).isSome = true ∧
    (s.sec.upd.st = .idle ∨ s.sec.upd.st = .prepared) ∧ b.manifestOk = true ∧ b.tackRoomOk = false) ∧
  (∃ boot : BitVec 4, ∃ b : BootChecks, ∃ s : State, (s.app.clk.appHeld = true ∧ s.cold.mainFail = false ∧
    s.cold.coldHeld = false) ∧ (s.fuses.prod = true ∨ s.fuses.mfg = false) ∧ s.debugBoot boot = false ∧
    s.recoveryBoot boot = false ∧ b.flashOk = true ∧ b.dirOk = true ∧ (s.bootLoader boot b).isSome = true ∧
    (s.sec.upd.st = .idle ∨ s.sec.upd.st = .prepared) ∧ b.manifestOk = true ∧ b.tackRoomOk = true ∧ b.cantleOk
    = false) ∧
  (∃ boot : BitVec 4, ∃ b : BootChecks, ∃ s : State, (s.app.clk.appHeld = true ∧ s.cold.mainFail = false ∧
    s.cold.coldHeld = false) ∧ (s.fuses.prod = true ∨ s.fuses.mfg = false) ∧ s.debugBoot boot = false ∧
    s.recoveryBoot boot = false ∧ b.flashOk = true ∧ b.dirOk = true ∧ (s.bootLoader boot b).isSome = true ∧
    (s.sec.upd.st = .idle ∨ s.sec.upd.st = .prepared) ∧ b.manifestOk = true ∧ b.tackRoomOk = true ∧ b.cantleOk
    = true) ∧
  (∃ boot : BitVec 4, ∃ b : BootChecks, ∃ s : State, (s.cold.mainFail = true ∨ (s.cold.started = true ∧
    s.cold.coldHeld = false))) ∧
  (∃ boot : BitVec 4, ∃ b : BootChecks, ∃ s : State, (s.app.clk.appHeld = false ∨ s.cold.mainFail = true ∨
    s.cold.coldHeld = true)) :=
  ⟨⟨3, ⟨true, true, true, true, true, true, true, true, true, 0, true, true, true, true, []⟩, { State.reset with app.clk.appHeld := true }, by decide +kernel⟩,
   ⟨0, ⟨true, true, true, true, true, true, true, true, true, 0, true, true, true, true, []⟩, { State.reset with app.clk.appHeld := true, fuses.mfg := true, fuses.prod := false }, by decide +kernel⟩,
   ⟨1, ⟨true, true, true, true, true, true, true, true, true, 0, true, true, true, true, []⟩, { State.reset with app.clk.appHeld := true, fuses.prod := true }, by decide +kernel⟩,
   ⟨1, ⟨true, true, true, true, false, true, true, true, true, 0, true, true, true, true, []⟩, { State.reset with app.clk.appHeld := true, fuses.prod := true }, by decide +kernel⟩,
   ⟨0, ⟨false, true, true, true, true, true, true, true, true, 0, true, true, true, true, []⟩, { State.reset with app.clk.appHeld := true, fuses.prod := true }, by decide +kernel⟩,
   ⟨0, ⟨true, false, true, true, true, true, true, true, true, 0, true, true, true, true, []⟩, { State.reset with app.clk.appHeld := true, fuses.prod := true }, by decide +kernel⟩,
   ⟨0, ⟨true, true, false, false, true, true, true, true, true, 0, true, true, true, true, []⟩, { State.reset with app.clk.appHeld := true, fuses.prod := true }, by decide +kernel⟩,
   ⟨0, ⟨true, true, true, true, true, true, true, true, true, 0, true, true, true, true, []⟩, { State.reset with app.clk.appHeld := true, fuses.prod := true, sec.upd := { State.reset.sec.upd with st := .copying } }, by decide +kernel⟩,
   ⟨0, ⟨true, true, true, true, true, false, true, true, true, 0, true, true, true, true, []⟩, { State.reset with app.clk.appHeld := true, fuses.prod := true }, by decide +kernel⟩,
   ⟨0, ⟨true, true, true, true, true, true, false, true, true, 0, true, true, true, true, []⟩, { State.reset with app.clk.appHeld := true, fuses.prod := true }, by decide +kernel⟩,
   ⟨0, ⟨true, true, true, true, true, true, true, false, true, 0, true, true, true, true, []⟩, { State.reset with app.clk.appHeld := true, fuses.prod := true }, by decide +kernel⟩,
   ⟨0, ⟨true, true, true, true, true, true, true, true, true, 0, true, true, true, true, []⟩, { State.reset with app.clk.appHeld := true, fuses.prod := true }, by decide +kernel⟩,
   ⟨3, ⟨true, true, true, true, true, true, true, true, true, 0, true, true, true, true, []⟩, { State.reset with app.clk.appHeld := true }, by decide +kernel⟩,
   ⟨0, ⟨true, true, true, true, true, true, true, true, true, 0, true, true, true, true, []⟩, { State.reset with app.clk.appHeld := true, fuses.mfg := true, fuses.prod := false }, by decide +kernel⟩,
   ⟨1, ⟨true, true, true, true, true, true, true, true, true, 0, true, true, true, true, []⟩, { State.reset with app.clk.appHeld := true, fuses.prod := true }, by decide +kernel⟩,
   ⟨1, ⟨true, true, true, true, false, true, true, true, true, 0, true, true, true, true, []⟩, { State.reset with app.clk.appHeld := true, fuses.prod := true }, by decide +kernel⟩,
   ⟨0, ⟨false, true, true, true, true, true, true, true, true, 0, true, true, true, true, []⟩, { State.reset with app.clk.appHeld := true, fuses.prod := true }, by decide +kernel⟩,
   ⟨0, ⟨true, false, true, true, true, true, true, true, true, 0, true, true, true, true, []⟩, { State.reset with app.clk.appHeld := true, fuses.prod := true }, by decide +kernel⟩,
   ⟨0, ⟨true, true, false, false, true, true, true, true, true, 0, true, true, true, true, []⟩, { State.reset with app.clk.appHeld := true, fuses.prod := true }, by decide +kernel⟩,
   ⟨0, ⟨true, true, true, true, true, true, true, true, true, 0, true, true, true, true, []⟩, { State.reset with app.clk.appHeld := true, fuses.prod := true, sec.upd := { State.reset.sec.upd with st := .copying } }, by decide +kernel⟩,
   ⟨0, ⟨true, true, true, true, true, false, true, true, true, 0, true, true, true, true, []⟩, { State.reset with app.clk.appHeld := true, fuses.prod := true }, by decide +kernel⟩,
   ⟨0, ⟨true, true, true, true, true, true, false, true, true, 0, true, true, true, true, []⟩, { State.reset with app.clk.appHeld := true, fuses.prod := true }, by decide +kernel⟩,
   ⟨0, ⟨true, true, true, true, true, true, true, false, true, 0, true, true, true, true, []⟩, { State.reset with app.clk.appHeld := true, fuses.prod := true }, by decide +kernel⟩,
   ⟨0, ⟨true, true, true, true, true, true, true, true, true, 0, true, true, true, true, []⟩, { State.reset with app.clk.appHeld := true, fuses.prod := true }, by decide +kernel⟩,
   ⟨0, ⟨true, true, true, true, true, true, true, true, true, 0, true, true, true, true, []⟩, { State.reset with cold.started := true }, by decide +kernel⟩,
   ⟨0, ⟨true, true, true, true, true, true, true, true, true, 0, true, true, true, true, []⟩, { State.reset with app.clk.appHeld := false }, by decide +kernel⟩⟩

/-- The hypotheses of `Obligations.VehicleConnections` are met. -/
theorem witness_vehicleConnections :
  (∃ n : Fin 64, ∃ b : Bool, ∃ s : State, s.vLinked n = true) ∧
  (∃ n : Fin 64, ∃ b : Bool, ∃ s : State, s.vLinked n = false) ∧
  (∃ n : Fin 64, ∃ b : Bool, ∃ s : State, s.vLinked n = true ∧ (s.vc n).isOpen = false) ∧
  (∃ n : Fin 64, ∃ b : Bool, ∃ s : State, s.vLinked n = false ∨ (s.vc n).isOpen = true) ∧
  (∃ n : Fin 64, ∃ a : V2gHello, ∃ u : State, ∃ s : State, (s.vc n).isOpen = true ∧ (s.vc n).tls = true ∧
    (s.vc n).tlsUp = false ∧ s.helloOk (s.vc n) a = true ∧ girthRun pkaPort (List.replicate (helloOps (s.vc n)
    a) 3) s = some u) ∧
  (∃ n : Fin 64, ∃ a : V2gHello, ∃ k : Nat, ∃ s : State, (s.vc n).isOpen = true ∧ (s.vc n).tls = true ∧ (s.vc
    n).tlsUp = false ∧ (s.helloOk (s.vc n) a = false ∨ girthRun pkaPort (List.replicate (helloOps (s.vc n) a)
    3) s = none) ∧ s.session n = some k ∧ within 2 (s.phase k) 7 = true) ∧
  (∃ n : Fin 64, ∃ a : V2gHello, ∃ s : State, ((s.vc n).isOpen = false ∨ (s.vc n).tls = false ∨ (s.vc n).tlsUp
    = true)) ∧
  (∃ n : Fin 64, ∃ ty : BitVec 16, ∃ l j : Nat, ∃ s : State, (s.vc n).up = true ∧ schemaOf (s.vc n).proto
    ty.toNat = some j ∧ l ≤ 8192) ∧
  (∃ n : Fin 64, ∃ ve iv : BitVec 8, ∃ ty : BitVec 16, ∃ l k : Nat, ∃ s : State, (s.vc n).up = true ∧
    (schemaOf (s.vc n).proto ty.toNat = none ∨ ve ≠ 1 ∨ iv ≠ 0xFE ∨ 8192 < l) ∧ s.session n = some k ∧ within 2
    (s.phase k) 7 = true) ∧
  (∃ n : Fin 64, ∃ ve iv : BitVec 8, ∃ ty : BitVec 16, ∃ l : Nat, ∃ s : State, (s.vc n).up = false) ∧
  (∃ n : Fin 64, ∃ l : List ProtoOffer, ∃ k : Nat, ∃ o : ProtoOffer, ∃ s : State, s.session n = some k ∧ (s.vc
    n).up = true ∧ (s.vc n).proto = none ∧ bestOffer (l.filter fun o => o.major && s.offers n k (s.vc n).tls
    o.proto) = some o) ∧
  (∃ n : Fin 64, ∃ l : List ProtoOffer, ∃ k : Nat, ∃ s : State, (s.vc n).up = true ∧ (s.vc n).proto = none ∧
    bestOffer (l.filter fun o => o.major && s.offers n k (s.vc n).tls o.proto) = none ∧ s.session n = some k ∧
    within 2 (s.phase k) 7 = true) ∧
  (∃ n : Fin 64, ∃ l : List ProtoOffer, ∃ k : Nat, ∃ s : State, (s.vc n).up = true ∧ (s.vc n).proto.isSome =
    true ∧ s.session n = some k ∧ within 2 (s.phase k) 7 = true) ∧
  (∃ n : Fin 64, ∃ l : List ProtoOffer, ∃ s : State, (s.session n = none ∨ (s.vc n).up = false)) ∧
  (∃ n : Fin 64, ∃ k : Nat, ∃ s : State, (s.vc n).isOpen = true ∧ (s.vc n).waiting = false ∧ s.session n =
    some k ∧ within 2 (s.phase k) 7 = true) ∧
  (∃ n : Fin 64, ∃ s : State, ((s.vc n).isOpen = false ∨ (s.vc n).waiting = true)) ∧
  (∃ n : Fin 64, ∃ k : Nat, ∃ s : State, s.session n = some k ∧ s.phase k = 3) ∧
  (∃ n : Fin 64, ∃ s : State, s.pointPhase n ≠ 3) ∧
  (∃ n : Fin 64, ∃ x : Proto, ∃ m : V2gMsg, ∃ s : State, (s.vc n).waiting = true ∧ (s.vc n).proto = some x ∧
    (s.vc n).prev = some m ∧ ongoingAllowed x m = true) ∧
  (∃ n : Fin 64, ∃ x : Proto, ∃ k : Nat, ∃ s : State, (s.vc n).waiting = true ∧ (s.vc n).proto = some x ∧
    (s.vc n).prev = some .certificateInstallation ∧ s.session n = some k) ∧
  (∃ n : Fin 64, ∃ s : State, (s.vc n).waiting = false) :=
  ⟨⟨0, true, { State.reset with app.plc.ch := State.reset.app.plc.ch.set 0 { State.reset.app.plc.ch.get 0 with st := .linked } }, by decide +kernel⟩,
   ⟨0, true, State.reset, by decide +kernel⟩,
   ⟨0, true, { State.reset with app.plc.ch := State.reset.app.plc.ch.set 0 { State.reset.app.plc.ch.get 0 with st := .linked } }, by decide +kernel⟩,
   ⟨0, true, State.reset, by decide +kernel⟩,
   ⟨0, ⟨true, true, true, true, true, true, false, none⟩, _, { State.reset with app.veh.conn := State.reset.app.veh.conn.set 0 { isOpen := true, tls := true }, app.tack.st := 2, app.girth.rebuilding := false, app.tack.slots := (State.reset.app.tack.slots.set 2 { attr := 0xFFFF5001 }).set 3 { attr := 0xFFFF9000 } }, by decide +kernel, by decide +kernel, by decide +kernel, by decide +kernel, rfl⟩,
   ⟨0, ⟨false, true, true, true, true, true, true, none⟩, 0, { State.reset with app.ctx := State.reset.app.ctx.set 0 { st := .ready, role := 1, point := 0 }, app.mem := State.reset.app.mem.set (0x04020030) 3, app.veh.conn := State.reset.app.veh.conn.set 0 { isOpen := true, tls := true } }, rfl, rfl, rfl, Or.inl rfl, by decide +kernel⟩,
   ⟨0, ⟨true, true, true, true, true, true, false, none⟩, State.reset, by decide +kernel⟩,
   ⟨0, 0x8001, 100, 0, { State.reset with app.veh.conn := State.reset.app.veh.conn.set 0 { isOpen := true } }, by decide +kernel⟩,
   ⟨0, 1, 0xFF, 0x8001, 100, 0, { State.reset with app.ctx := State.reset.app.ctx.set 0 { st := .ready, role := 1, point := 0 }, app.mem := State.reset.app.mem.set (0x04020030) 3, app.veh.conn := State.reset.app.veh.conn.set 0 { isOpen := true } }, by decide +kernel⟩,
   ⟨0, 1, 0xFE, 0x8001, 100, State.reset, by decide +kernel⟩,
   ⟨0, [⟨.iso2, true, true, 1⟩], 0, ⟨.iso2, true, true, 1⟩, { State.reset with app.ctx := State.reset.app.ctx.set 0 { st := .ready, role := 1, point := 0 }, app.mem := State.reset.app.mem.set (0x04020030) 3, app.veh.conn := State.reset.app.veh.conn.set 0 { isOpen := true }, obj.live := State.reset.obj.live.set (0x3000 * 256 + 1) (some [3]) }, by decide +kernel⟩,
   ⟨0, [], 0, { State.reset with app.ctx := State.reset.app.ctx.set 0 { st := .ready, role := 1, point := 0 }, app.mem := State.reset.app.mem.set (0x04020030) 3, app.veh.conn := State.reset.app.veh.conn.set 0 { isOpen := true } }, by decide +kernel⟩,
   ⟨0, [], 0, { State.reset with app.ctx := State.reset.app.ctx.set 0 { st := .ready, role := 1, point := 0 }, app.mem := State.reset.app.mem.set (0x04020030) 3, app.veh.conn := State.reset.app.veh.conn.set 0 { isOpen := true, proto := some .din } }, by decide +kernel⟩,
   ⟨0, [], State.reset, by decide +kernel⟩,
   ⟨0, 0, { State.reset with app.ctx := State.reset.app.ctx.set 0 { st := .ready, role := 1, point := 0 }, app.mem := State.reset.app.mem.set (0x04020030) 3, app.veh.conn := State.reset.app.veh.conn.set 0 { isOpen := true } }, by decide +kernel⟩,
   ⟨0, State.reset, by decide +kernel⟩,
   ⟨0, 0, { State.reset with app.ctx := State.reset.app.ctx.set 0 { st := .ready, role := 1, point := 0 }, app.mem := State.reset.app.mem.set (0x04020030) 3 }, by decide +kernel⟩,
   ⟨0, State.reset, by decide +kernel⟩,
   ⟨0, .din, .authorization, { State.reset with app.veh.conn := State.reset.app.veh.conn.set 0 { waiting := true, proto := some .din, prev := some .authorization } }, by decide +kernel⟩,
   ⟨0, .iso20dc, 0, { State.reset with app.ctx := State.reset.app.ctx.set 0 { st := .ready, role := 1, point := 0 }, app.mem := State.reset.app.mem.set (0x04020030) 3, app.veh.conn := State.reset.app.veh.conn.set 0 { waiting := true, proto := some .iso20dc, prev := some .certificateInstallation } }, by decide +kernel⟩,
   ⟨0, State.reset, by decide +kernel⟩⟩

/-- The hypotheses of `Obligations.VehicleRequests` are met. -/
theorem witness_vehicleRequests :
  (∃ n : Fin 64, ∃ a : V2gVals, ∃ k : Nat, ∃ x : Proto, ∃ s : State, s.session n = some k ∧ (s.vc n).up = true
    ∧ (s.vc n).proto = some x ∧ s.inOrder n x .sessionSetup = true) ∧
  (∃ n : Fin 64, ∃ a : V2gVals, ∃ k : Nat, ∃ x : Proto, ∃ s : State, s.session n = some k ∧ (s.vc n).up = true
    ∧ (s.vc n).proto = some x ∧ s.inOrder n x .serviceDiscovery = true) ∧
  (∃ n : Fin 64, ∃ a : V2gVals, ∃ k : Nat, ∃ x : Proto, ∃ m : V2gMsg, ∃ s : State, s.session n = some k ∧
    (s.vc n).up = true ∧ (s.vc n).proto = some x ∧ s.inOrder n x m = true ∧ (m = .preCharge ∨ m =
    .currentDemand ∨ m = .chargeLoop)) ∧
  (∃ n : Fin 64, ∃ a : V2gVals, ∃ k : Nat, ∃ x : Proto, ∃ s : State, s.session n = some k ∧ (s.vc n).up = true
    ∧ (s.vc n).proto = some x ∧ s.inOrder n x .paymentSelection = true ∧ a.contract = false) ∧
  (∃ n : Fin 64, ∃ a : V2gVals, ∃ k : Nat, ∃ x : Proto, ∃ s : State, s.session n = some k ∧ (s.vc n).up = true
    ∧ (s.vc n).proto = some x ∧ s.inOrder n x .paymentSelection = true ∧ a.contract = true ∧ within 2 (s.phase
    k) 7 = true) ∧
  (∃ n : Fin 64, ∃ a : V2gVals, ∃ k : Nat, ∃ x : Proto, ∃ s : State, s.session n = some k ∧ (s.vc n).up = true
    ∧ (s.vc n).proto = some x ∧ s.inOrder n x .serviceSelection = true ∧ (s.services n k x).contains a.mode =
    true) ∧
  (∃ n : Fin 64, ∃ a : V2gVals, ∃ k : Nat, ∃ x : Proto, ∃ s : State, s.session n = some k ∧ (s.vc n).up = true
    ∧ (s.vc n).proto = some x ∧ s.inOrder n x .serviceSelection = true ∧ (s.services n k x).contains a.mode =
    false) ∧
  (∃ n : Fin 64, ∃ a : V2gVals, ∃ k : Nat, ∃ x : Proto, ∃ s : State, s.session n = some k ∧ (s.vc n).up = true
    ∧ (s.vc n).proto = some x ∧ s.inOrder n x .cableCheck = true ∧ s.isolation n = some true) ∧
  (∃ n : Fin 64, ∃ a : V2gVals, ∃ k : Nat, ∃ x : Proto, ∃ s : State, s.session n = some k ∧ (s.vc n).up = true
    ∧ (s.vc n).proto = some x ∧ s.inOrder n x .cableCheck = true ∧ s.isolation n = some false) ∧
  (∃ n : Fin 64, ∃ a : V2gVals, ∃ k : Nat, ∃ x : Proto, ∃ s : State, s.session n = some k ∧ (s.vc n).up = true
    ∧ (s.vc n).proto = some x ∧ s.inOrder n x .cableCheck = true ∧ s.isolation n = none) ∧
  (∃ n : Fin 64, ∃ a : V2gVals, ∃ k : Nat, ∃ x : Proto, ∃ s : State, s.session n = some k ∧ (s.vc n).up = true
    ∧ (s.vc n).proto = some x ∧ s.inOrder n x .chargeParameterDiscovery = true ∧ ((s.services n k x).contains
    a.mode = true ∨ (x ≠ .din ∧ x ≠ .iso2)) ∧ s.linkUp = true) ∧
  (∃ n : Fin 64, ∃ a : V2gVals, ∃ k : Nat, ∃ x : Proto, ∃ s : State, s.session n = some k ∧ (s.vc n).up = true
    ∧ (s.vc n).proto = some x ∧ s.inOrder n x .chargeParameterDiscovery = true ∧ ((s.services n k x).contains
    a.mode = true ∨ (x ≠ .din ∧ x ≠ .iso2)) ∧ s.linkUp = false) ∧
  (∃ n : Fin 64, ∃ a : V2gVals, ∃ k : Nat, ∃ x : Proto, ∃ s : State, s.session n = some k ∧ (s.vc n).up = true
    ∧ (s.vc n).proto = some x ∧ s.inOrder n x .chargeParameterDiscovery = true ∧ (x = .din ∨ x = .iso2) ∧
    (s.services n k x).contains a.mode = false) ∧
  (∃ n : Fin 64, ∃ a : V2gVals, ∃ k : Nat, ∃ x : Proto, ∃ s : State, s.session n = some k ∧ (s.vc n).up = true
    ∧ (s.vc n).proto = some x ∧ s.inOrder n x .scheduleExchange = true ∧ s.linkUp = true) ∧
  (∃ n : Fin 64, ∃ a : V2gVals, ∃ k : Nat, ∃ x : Proto, ∃ s : State, s.session n = some k ∧ (s.vc n).up = true
    ∧ (s.vc n).proto = some x ∧ s.inOrder n x .scheduleExchange = true ∧ s.linkUp = false) ∧
  (∃ n : Fin 64, ∃ a : V2gVals, ∃ k : Nat, ∃ x : Proto, ∃ s : State, s.session n = some k ∧ (s.vc n).up = true
    ∧ (s.vc n).proto = some x ∧ s.inOrder n x .powerDelivery = true ∧ x ≠ .din ∧ s.phase k = 7) ∧
  (∃ n : Fin 64, ∃ a : V2gVals, ∃ k : Nat, ∃ x : Proto, ∃ s : State, s.session n = some k ∧ (s.vc n).up = true
    ∧ (s.vc n).proto = some x ∧ s.inOrder n x .powerDelivery = true ∧ (x = .din ∨ s.phase k ≠ 7) ∧ within 2
    (s.phase k) 7 = true) ∧
  (∃ n : Fin 64, ∃ a : V2gVals, ∃ k : Nat, ∃ x : Proto, ∃ s : State, s.session n = some k ∧ (s.vc n).up = true
    ∧ (s.vc n).proto = some x ∧ s.inOrder n x .powerDeliveryStop = true ∧ within 2 (s.phase k) 7 = true) ∧
  (∃ n : Fin 64, ∃ a : V2gVals, ∃ k : Nat, ∃ x : Proto, ∃ s : State, s.session n = some k ∧ (s.vc n).up = true
    ∧ (s.vc n).proto = some x ∧ s.inOrder n x .powerDeliveryPause = true) ∧
  (∃ n : Fin 64, ∃ a : V2gVals, ∃ k : Nat, ∃ x : Proto, ∃ s : State, s.session n = some k ∧ (s.vc n).up = true
    ∧ (s.vc n).proto = some x ∧ s.inOrder n x .meteringConfirmation = true) ∧
  (∃ n : Fin 64, ∃ a : V2gVals, ∃ k : Nat, ∃ x : Proto, ∃ m : V2gMsg, ∃ s : State, s.session n = some k ∧
    (s.vc n).up = true ∧ (s.vc n).proto = some x ∧ s.inOrder n x m = true ∧ (m = .acdpConnect ∨ m =
    .acdpSystemStatus)) ∧
  (∃ n : Fin 64, ∃ a : V2gVals, ∃ k : Nat, ∃ x : Proto, ∃ s : State, s.session n = some k ∧ (s.vc n).up = true
    ∧ (s.vc n).proto = some x ∧ s.inOrder n x .sessionStop = true ∧ within 2 (s.phase k) 7 = true) ∧
  (∃ n : Fin 64, ∃ a : V2gVals, ∃ k : Nat, ∃ x : Proto, ∃ s : State, s.session n = some k ∧ (s.vc n).up = true
    ∧ (s.vc n).proto = some x ∧ s.inOrder n x .sessionStop = true ∧ s.phase k = 8) ∧
  (∃ n : Fin 64, ∃ a : V2gVals, ∃ k : Nat, ∃ x : Proto, ∃ s : State, s.session n = some k ∧ (s.vc n).up = true
    ∧ (s.vc n).proto = some x ∧ s.inOrder n x .authorization = true ∧ within 5 (s.phase k) 8 = false ∧ ((s.vs
    k).preAuth = true ∨ (s.vs k).decided = 1)) ∧
  (∃ n : Fin 64, ∃ a : V2gVals, ∃ k : Nat, ∃ x : Proto, ∃ s : State, s.session n = some k ∧ (s.vc n).up = true
    ∧ (s.vc n).proto = some x ∧ s.inOrder n x .authorization = true ∧ within 5 (s.phase k) 8 = false ∧ (s.vs
    k).preAuth = false ∧ (s.vs k).decided = 2) ∧
  (∃ n : Fin 64, ∃ a : V2gVals, ∃ k : Nat, ∃ x : Proto, ∃ s : State, s.session n = some k ∧ (s.vc n).up = true
    ∧ (s.vc n).proto = some x ∧ s.inOrder n x .authorization = true ∧ within 5 (s.phase k) 8 = false ∧ (s.vs
    k).preAuth = false ∧ (s.vs k).decided = 0) ∧
  (∃ n : Fin 64, ∃ a : V2gVals, ∃ k : Nat, ∃ x : Proto, ∃ s : State, s.session n = some k ∧ (s.vc n).up = true
    ∧ (s.vc n).proto = some x ∧ s.inOrder n x .authorization = true ∧ within 5 (s.phase k) 8 = true) ∧
  (∃ n : Fin 64, ∃ a : V2gVals, ∃ k : Nat, ∃ x : Proto, ∃ s : State, s.session n = some k ∧ (s.vc n).up = true
    ∧ (s.vc n).proto = some x ∧ s.inOrder n x .authorizationSetup = true) ∧
  (∃ n : Fin 64, ∃ a : V2gVals, ∃ k : Nat, ∃ x : Proto, ∃ s : State, s.session n = some k ∧ (s.vc n).up = true
    ∧ (s.vc n).proto = some x ∧ s.inOrder n x .certificateInstallation = true) ∧
  (∃ n : Fin 64, ∃ a : V2gVals, ∃ k : Nat, ∃ x : Proto, ∃ m : V2gMsg, ∃ s : State, s.session n = some k ∧
    (s.vc n).up = true ∧ (s.vc n).proto = some x ∧ s.inOrder n x m = true ∧ m ∈ [V2gMsg.serviceDetail,
    .chargingStatus, .weldingDetection, .vehicleCheckIn, .vehicleCheckOut, .vehiclePositioning]) ∧
  (∃ n : Fin 64, ∃ a : V2gVals, ∃ k : Nat, ∃ x : Proto, ∃ m : V2gMsg, ∃ s : State, s.session n = some k ∧
    (s.vc n).up = true ∧ (s.vc n).proto = some x ∧ s.inOrder n x m = false ∧ within 2 (s.phase k) 7 = true) ∧
  (∃ n : Fin 64, ∃ a : V2gVals, ∃ k : Nat, ∃ m : V2gMsg, ∃ s : State, s.session n = some k ∧ (s.vc n).up =
    true ∧ (s.vc n).proto = none ∧ within 2 (s.phase k) 7 = true) ∧
  (∃ n : Fin 64, ∃ a : V2gVals, ∃ m : V2gMsg, ∃ s : State, (s.session n = none ∨ (s.vc n).up = false)) :=
  ⟨⟨0, ⟨[1], .acSinglePhaseCore, false, 50, 4000, 100, []⟩, 0, .iso2, { State.reset with app.ctx := State.reset.app.ctx.set 0 { st := .ready, role := 1, point := 0 }, app.mem := State.reset.app.mem.set (0x04020030) 3, app.veh.conn := State.reset.app.veh.conn.set 0 { isOpen := true, proto := some .iso2 }, obj.live := State.reset.obj.live.set (0x3000 * 256 + 1) (some [3]) }, by decide +kernel⟩,
   ⟨0, ⟨[1], .acSinglePhaseCore, false, 50, 4000, 100, []⟩, 0, .iso2, { State.reset with app.ctx := State.reset.app.ctx.set 0 { st := .ready, role := 1, point := 0 }, app.mem := State.reset.app.mem.set (0x04020030) 4, app.veh.conn := State.reset.app.veh.conn.set 0 { isOpen := true, proto := some .iso2, prev := some .sessionSetup }, obj.live := State.reset.obj.live.set (0x3000 * 256 + 1) (some [3]) }, by decide +kernel⟩,
   ⟨0, ⟨[1], .acSinglePhaseCore, false, 50, 4000, 100, []⟩, 0, .iso2, .preCharge, { State.reset with app.ctx := State.reset.app.ctx.set 0 { st := .ready, role := 1, point := 0 }, app.mem := State.reset.app.mem.set (0x04020030) 4, app.veh.conn := State.reset.app.veh.conn.set 0 { isOpen := true, proto := some .iso2, prev := some .cableCheck }, obj.live := State.reset.obj.live.set (0x3000 * 256 + 1) (some [3]) }, by decide +kernel⟩,
   ⟨0, ⟨[1], .acSinglePhaseCore, false, 50, 4000, 100, []⟩, 0, .iso2, { State.reset with app.ctx := State.reset.app.ctx.set 0 { st := .ready, role := 1, point := 0 }, app.mem := State.reset.app.mem.set (0x04020030) 4, app.veh.conn := State.reset.app.veh.conn.set 0 { isOpen := true, proto := some .iso2, prev := some .serviceDiscovery }, obj.live := State.reset.obj.live.set (0x3000 * 256 + 1) (some [3]) }, by decide +kernel⟩,
   ⟨0, ⟨[1], .acSinglePhaseCore, true, 50, 4000, 100, []⟩, 0, .iso2, { State.reset with app.ctx := State.reset.app.ctx.set 0 { st := .ready, role := 1, point := 0 }, app.mem := State.reset.app.mem.set (0x04020030) 4, app.veh.conn := State.reset.app.veh.conn.set 0 { isOpen := true, proto := some .iso2, prev := some .serviceDiscovery }, obj.live := State.reset.obj.live.set (0x3000 * 256 + 1) (some [3]) }, by decide +kernel⟩,
   ⟨0, ⟨[1], .dc, true, 50, 4000, 100, []⟩, 0, .iso20dc, { State.reset with app.ctx := State.reset.app.ctx.set 0 { st := .ready, role := 1, point := 0 }, app.mem := State.reset.app.mem.set (0x04020030) 4, app.veh.conn := State.reset.app.veh.conn.set 0 { isOpen := true, proto := some .iso20dc, prev := some .serviceDetail }, obj.live := State.reset.obj.live.set (0x3000 * 256 + 1) (some [3]), app.veh.sess := State.reset.app.veh.sess.set 0 { State.reset.app.veh.sess.get 0 with protoEn := 7 } }, by decide +kernel⟩,
   ⟨0, ⟨[1], .ac, true, 50, 4000, 100, []⟩, 0, .iso20dc, { State.reset with app.ctx := State.reset.app.ctx.set 0 { st := .ready, role := 1, point := 0 }, app.mem := State.reset.app.mem.set (0x04020030) 4, app.veh.conn := State.reset.app.veh.conn.set 0 { isOpen := true, proto := some .iso20dc, prev := some .serviceDetail }, obj.live := State.reset.obj.live.set (0x3000 * 256 + 1) (some [3]) }, by decide +kernel⟩,
   ⟨0, ⟨[1], .acSinglePhaseCore, false, 50, 4000, 100, []⟩, 0, .iso2, { State.reset with app.ctx := State.reset.app.ctx.set 0 { st := .ready, role := 1, point := 0 }, app.mem := State.reset.app.mem.set (0x04020030) 4, app.veh.conn := State.reset.app.veh.conn.set 0 { isOpen := true, proto := some .iso2, prev := some .chargeParameterDiscovery }, obj.live := State.reset.obj.live.set (0x3000 * 256 + 1) (some [3]), power.im := State.reset.power.im.set 0 { State.reset.power.im.get 0 with st := .ok }, bridle.cfg := some { im := (⟨0, []⟩ : Bank (BitVec 64)).set 0 1 } }, by decide +kernel⟩,
   ⟨0, ⟨[1], .acSinglePhaseCore, false, 50, 4000, 100, []⟩, 0, .iso2, { State.reset with app.ctx := State.reset.app.ctx.set 0 { st := .ready, role := 1, point := 0 }, app.mem := State.reset.app.mem.set (0x04020030) 4, app.veh.conn := State.reset.app.veh.conn.set 0 { isOpen := true, proto := some .iso2, prev := some .chargeParameterDiscovery }, obj.live := State.reset.obj.live.set (0x3000 * 256 + 1) (some [3]), power.im := State.reset.power.im.set 0 { State.reset.power.im.get 0 with st := .fault }, bridle.cfg := some { im := (⟨0, []⟩ : Bank (BitVec 64)).set 0 1 } }, by decide +kernel⟩,
   ⟨0, ⟨[1], .acSinglePhaseCore, false, 50, 4000, 100, []⟩, 0, .iso2, { State.reset with app.ctx := State.reset.app.ctx.set 0 { st := .ready, role := 1, point := 0 }, app.mem := State.reset.app.mem.set (0x04020030) 4, app.veh.conn := State.reset.app.veh.conn.set 0 { isOpen := true, proto := some .iso2, prev := some .chargeParameterDiscovery }, obj.live := State.reset.obj.live.set (0x3000 * 256 + 1) (some [3]) }, by decide +kernel⟩,
   ⟨0, ⟨[1], .acSinglePhaseCore, false, 50, 4000, 100, []⟩, 0, .iso2, { State.reset with app.ctx := State.reset.app.ctx.set 0 { st := .ready, role := 1, point := 0 }, app.mem := State.reset.app.mem.set (0x04020030) 4, app.veh.conn := State.reset.app.veh.conn.set 0 { isOpen := true, proto := some .iso2, prev := some .authorization }, obj.live := State.reset.obj.live.set (0x3000 * 256 + 1) (some [1]), app.link.key := some 1, die.link.key := some 1, die.running := true }, by decide +kernel⟩,
   ⟨0, ⟨[1], .acSinglePhaseCore, false, 50, 4000, 100, []⟩, 0, .iso2, { State.reset with app.ctx := State.reset.app.ctx.set 0 { st := .ready, role := 1, point := 0 }, app.mem := State.reset.app.mem.set (0x04020030) 4, app.veh.conn := State.reset.app.veh.conn.set 0 { isOpen := true, proto := some .iso2, prev := some .authorization }, obj.live := State.reset.obj.live.set (0x3000 * 256 + 1) (some [1]) }, by decide +kernel⟩,
   ⟨0, ⟨[1], .acSinglePhaseCore, false, 50, 4000, 100, []⟩, 0, .iso2, { State.reset with app.ctx := State.reset.app.ctx.set 0 { st := .ready, role := 1, point := 0 }, app.mem := State.reset.app.mem.set (0x04020030) 4, app.veh.conn := State.reset.app.veh.conn.set 0 { isOpen := true, proto := some .iso2, prev := some .authorization }, obj.live := State.reset.obj.live.set (0x3000 * 256 + 1) (some [2]) }, by decide +kernel⟩,
   ⟨0, ⟨[1], .acSinglePhaseCore, false, 50, 4000, 100, []⟩, 0, .iso20dc, { State.reset with app.ctx := State.reset.app.ctx.set 0 { st := .ready, role := 1, point := 0 }, app.mem := State.reset.app.mem.set (0x04020030) 4, app.veh.conn := State.reset.app.veh.conn.set 0 { isOpen := true, proto := some .iso20dc, prev := some .chargeParameterDiscovery }, obj.live := State.reset.obj.live.set (0x3000 * 256 + 1) (some [3]), app.link.key := some 1, die.link.key := some 1, die.running := true }, by decide +kernel⟩,
   ⟨0, ⟨[1], .acSinglePhaseCore, false, 50, 4000, 100, []⟩, 0, .iso20dc, { State.reset with app.ctx := State.reset.app.ctx.set 0 { st := .ready, role := 1, point := 0 }, app.mem := State.reset.app.mem.set (0x04020030) 4, app.veh.conn := State.reset.app.veh.conn.set 0 { isOpen := true, proto := some .iso20dc, prev := some .chargeParameterDiscovery }, obj.live := State.reset.obj.live.set (0x3000 * 256 + 1) (some [3]) }, by decide +kernel⟩,
   ⟨0, ⟨[1], .acSinglePhaseCore, false, 50, 4000, 100, []⟩, 0, .iso2, { State.reset with app.ctx := State.reset.app.ctx.set 0 { st := .ready, role := 1, point := 0 }, app.mem := State.reset.app.mem.set (0x04020030) 7, app.veh.conn := State.reset.app.veh.conn.set 0 { isOpen := true, proto := some .iso2, prev := some .currentDemand }, obj.live := State.reset.obj.live.set (0x3000 * 256 + 1) (some [3]) }, by decide +kernel⟩,
   ⟨0, ⟨[1], .acSinglePhaseCore, false, 50, 4000, 100, []⟩, 0, .iso2, { State.reset with app.ctx := State.reset.app.ctx.set 0 { st := .ready, role := 1, point := 0 }, app.mem := State.reset.app.mem.set (0x04020030) 4, app.veh.conn := State.reset.app.veh.conn.set 0 { isOpen := true, proto := some .iso2, prev := some .preCharge }, obj.live := State.reset.obj.live.set (0x3000 * 256 + 1) (some [3]) }, by decide +kernel⟩,
   ⟨0, ⟨[1], .acSinglePhaseCore, false, 50, 4000, 100, []⟩, 0, .iso2, { State.reset with app.ctx := State.reset.app.ctx.set 0 { st := .ready, role := 1, point := 0 }, app.mem := State.reset.app.mem.set (0x04020030) 7, app.veh.conn := State.reset.app.veh.conn.set 0 { isOpen := true, proto := some .iso2, prev := some .currentDemand }, obj.live := State.reset.obj.live.set (0x3000 * 256 + 1) (some [3]) }, by decide +kernel⟩,
   ⟨0, ⟨[1], .acSinglePhaseCore, false, 50, 4000, 100, []⟩, 0, .iso2, { State.reset with app.ctx := State.reset.app.ctx.set 0 { st := .ready, role := 1, point := 0 }, app.mem := State.reset.app.mem.set (0x04020030) 7, app.veh.conn := State.reset.app.veh.conn.set 0 { isOpen := true, proto := some .iso2, prev := some .currentDemand }, obj.live := State.reset.obj.live.set (0x3000 * 256 + 1) (some [3]) }, by decide +kernel⟩,
   ⟨0, ⟨[1], .acSinglePhaseCore, false, 50, 4000, 100, []⟩, 0, .iso20dc, { State.reset with app.ctx := State.reset.app.ctx.set 0 { st := .ready, role := 1, point := 0 }, app.mem := State.reset.app.mem.set (0x04020030) 4, app.veh.conn := State.reset.app.veh.conn.set 0 { isOpen := true, proto := some .iso20dc, prev := some .chargeLoop }, obj.live := State.reset.obj.live.set (0x3000 * 256 + 1) (some [3]) }, by decide +kernel⟩,
   ⟨0, ⟨[1], .acSinglePhaseCore, false, 50, 4000, 100, []⟩, 0, .iso20acdp, .acdpConnect, { State.reset with app.ctx := State.reset.app.ctx.set 0 { st := .ready, role := 1, point := 0 }, app.mem := State.reset.app.mem.set (0x04020030) 4, app.veh.conn := State.reset.app.veh.conn.set 0 { isOpen := true, proto := some .iso20acdp, prev := some .vehiclePositioning }, obj.live := State.reset.obj.live.set (0x3000 * 256 + 1) (some [4]) }, by decide +kernel⟩,
   ⟨0, ⟨[1], .acSinglePhaseCore, false, 50, 4000, 100, []⟩, 0, .iso2, { State.reset with app.ctx := State.reset.app.ctx.set 0 { st := .ready, role := 1, point := 0 }, app.mem := State.reset.app.mem.set (0x04020030) 4, app.veh.conn := State.reset.app.veh.conn.set 0 { isOpen := true, proto := some .iso2, prev := some .currentDemand }, obj.live := State.reset.obj.live.set (0x3000 * 256 + 1) (some [3]) }, by decide +kernel⟩,
   ⟨0, ⟨[1], .acSinglePhaseCore, false, 50, 4000, 100, []⟩, 0, .iso2, { State.reset with app.ctx := State.reset.app.ctx.set 0 { st := .ready, role := 1, point := 0 }, app.mem := State.reset.app.mem.set (0x04020030) 8, app.veh.conn := State.reset.app.veh.conn.set 0 { isOpen := true, proto := some .iso2, prev := some .currentDemand }, obj.live := State.reset.obj.live.set (0x3000 * 256 + 1) (some [3]) }, by decide +kernel⟩,
   ⟨0, ⟨[1], .acSinglePhaseCore, false, 50, 4000, 100, []⟩, 0, .iso2, { State.reset with app.ctx := State.reset.app.ctx.set 0 { st := .ready, role := 1, point := 0 }, app.mem := State.reset.app.mem.set (0x04020030) 4, app.veh.conn := State.reset.app.veh.conn.set 0 { isOpen := true, proto := some .iso2, prev := some .paymentSelection }, obj.live := State.reset.obj.live.set (0x3000 * 256 + 1) (some [3]), app.veh.sess := State.reset.app.veh.sess.set 0 { State.reset.app.veh.sess.get 0 with preAuth := true } }, by decide +kernel⟩,
   ⟨0, ⟨[1], .acSinglePhaseCore, false, 50, 4000, 100, []⟩, 0, .iso2, { State.reset with app.ctx := State.reset.app.ctx.set 0 { st := .ready, role := 1, point := 0 }, app.mem := State.reset.app.mem.set (0x04020030) 4, app.veh.conn := State.reset.app.veh.conn.set 0 { isOpen := true, proto := some .iso2, prev := some .paymentSelection }, obj.live := State.reset.obj.live.set (0x3000 * 256 + 1) (some [3]), app.veh.sess := State.reset.app.veh.sess.set 0 { State.reset.app.veh.sess.get 0 with decided := 2 } }, by decide +kernel⟩,
   ⟨0, ⟨[1], .acSinglePhaseCore, false, 50, 4000, 100, []⟩, 0, .iso2, { State.reset with app.ctx := State.reset.app.ctx.set 0 { st := .ready, role := 1, point := 0 }, app.mem := State.reset.app.mem.set (0x04020030) 4, app.veh.conn := State.reset.app.veh.conn.set 0 { isOpen := true, proto := some .iso2, prev := some .paymentSelection }, obj.live := State.reset.obj.live.set (0x3000 * 256 + 1) (some [3]) }, by decide +kernel⟩,
   ⟨0, ⟨[1], .acSinglePhaseCore, false, 50, 4000, 100, []⟩, 0, .iso2, { State.reset with app.ctx := State.reset.app.ctx.set 0 { st := .ready, role := 1, point := 0 }, app.mem := State.reset.app.mem.set (0x04020030) 6, app.veh.conn := State.reset.app.veh.conn.set 0 { isOpen := true, proto := some .iso2, prev := some .paymentSelection }, obj.live := State.reset.obj.live.set (0x3000 * 256 + 1) (some [3]) }, by decide +kernel⟩,
   ⟨0, ⟨[1], .acSinglePhaseCore, false, 50, 4000, 100, []⟩, 0, .iso20dc, { State.reset with app.ctx := State.reset.app.ctx.set 0 { st := .ready, role := 1, point := 0 }, app.mem := State.reset.app.mem.set (0x04020030) 4, app.veh.conn := State.reset.app.veh.conn.set 0 { isOpen := true, proto := some .iso20dc, prev := some .sessionSetup }, obj.live := State.reset.obj.live.set (0x3000 * 256 + 1) (some [3]) }, by decide +kernel⟩,
   ⟨0, ⟨[1], .acSinglePhaseCore, false, 50, 4000, 100, []⟩, 0, .iso20dc, { State.reset with app.ctx := State.reset.app.ctx.set 0 { st := .ready, role := 1, point := 0 }, app.mem := State.reset.app.mem.set (0x04020030) 4, app.veh.conn := State.reset.app.veh.conn.set 0 { isOpen := true, proto := some .iso20dc, prev := some .authorizationSetup }, obj.live := State.reset.obj.live.set (0x3000 * 256 + 1) (some [3]) }, by decide +kernel⟩,
   ⟨0, ⟨[1], .acSinglePhaseCore, false, 50, 4000, 100, []⟩, 0, .iso2, .serviceDetail, { State.reset with app.ctx := State.reset.app.ctx.set 0 { st := .ready, role := 1, point := 0 }, app.mem := State.reset.app.mem.set (0x04020030) 4, app.veh.conn := State.reset.app.veh.conn.set 0 { isOpen := true, proto := some .iso2, prev := some .serviceDiscovery }, obj.live := State.reset.obj.live.set (0x3000 * 256 + 1) (some [3]) }, by decide +kernel⟩,
   ⟨0, ⟨[1], .acSinglePhaseCore, false, 50, 4000, 100, []⟩, 0, .iso2, .chargeLoop, { State.reset with app.ctx := State.reset.app.ctx.set 0 { st := .ready, role := 1, point := 0 }, app.mem := State.reset.app.mem.set (0x04020030) 4, app.veh.conn := State.reset.app.veh.conn.set 0 { isOpen := true, proto := some .iso2, prev := some .sessionSetup }, obj.live := State.reset.obj.live.set (0x3000 * 256 + 1) (some [3]) }, by decide +kernel⟩,
   ⟨0, ⟨[1], .acSinglePhaseCore, false, 50, 4000, 100, []⟩, 0, .chargeLoop, { State.reset with app.ctx := State.reset.app.ctx.set 0 { st := .ready, role := 1, point := 0 }, app.mem := State.reset.app.mem.set (0x04020030) 3, app.veh.conn := State.reset.app.veh.conn.set 0 { isOpen := true } }, by decide +kernel⟩,
   ⟨0, ⟨[1], .acSinglePhaseCore, false, 50, 4000, 100, []⟩, .chargeLoop, State.reset, by decide +kernel⟩⟩

/-- The hypotheses of `Obligations.VehicleAuthorisation` are met. -/
theorem witness_vehicleAuthorisation :
  (∃ n : Fin 64, ∃ k : Nat, ∃ x : Proto, ∃ s : State, s.session n = some k ∧ (s.vc n).up = true ∧ (s.vc
    n).proto = some x ∧ s.inOrder n x .authorizationSetup = true) ∧
  (∃ n : Fin 64, ∃ a : PncCheck, ∃ k : Nat, ∃ x : Proto, ∃ u : State, ∃ s : State, s.session n = some k ∧
    (s.vc n).up = true ∧ (s.vc n).proto = some x ∧ s.inOrder n x .authorization = true ∧ x ≠ .din ∧ x ≠ .iso2 ∧
    (s.vs k).pendDec ≠ 1 ∧ (s.vs k).decided = 0 ∧ within 5 (s.phase k) 8 = false ∧ girthRun pkaPort
    (List.replicate (1 + min 3 a.chain.sizes.length) 3) s = some u ∧ u.chainCheck a = none ∧ u.pncSigned n a =
    true ∧ (u.vs k).confirm = (s.vs k).confirm) ∧
  (∃ n : Fin 64, ∃ a : PncCheck, ∃ k : Nat, ∃ x : Proto, ∃ e : V2gAns, ∃ u : State, ∃ s : State, s.session n =
    some k ∧ (s.vc n).up = true ∧ (s.vc n).proto = some x ∧ s.inOrder n x .authorization = true ∧ x ≠ .din ∧ x
    ≠ .iso2 ∧ (s.vs k).pendDec ≠ 1 ∧ (s.vs k).decided = 0 ∧ within 5 (s.phase k) 8 = false ∧ girthRun pkaPort
    (List.replicate (1 + min 3 a.chain.sizes.length) 3) s = some u ∧ u.chainCheck a = some e) ∧
  (∃ n : Fin 64, ∃ a : PncCheck, ∃ k : Nat, ∃ x : Proto, ∃ u : State, ∃ s : State, s.session n = some k ∧
    (s.vc n).up = true ∧ (s.vc n).proto = some x ∧ s.inOrder n x .authorization = true ∧ x ≠ .din ∧ x ≠ .iso2 ∧
    (s.vs k).pendDec ≠ 1 ∧ (s.vs k).decided = 0 ∧ within 5 (s.phase k) 8 = false ∧ girthRun pkaPort
    (List.replicate (1 + min 3 a.chain.sizes.length) 3) s = some u ∧ u.chainCheck a = none ∧ u.pncSigned n a =
    false) ∧
  (∃ n : Fin 64, ∃ a : PncCheck, ∃ k : Nat, ∃ x : Proto, ∃ s : State, s.session n = some k ∧ (s.vc n).up =
    true ∧ (s.vc n).proto = some x ∧ s.inOrder n x .authorization = true ∧ x ≠ .din ∧ x ≠ .iso2 ∧ (s.vs
    k).pendDec ≠ 1 ∧ (s.vs k).decided = 0 ∧ within 5 (s.phase k) 8 = false ∧ girthRun pkaPort (List.replicate
    (1 + min 3 a.chain.sizes.length) 3) s = none) ∧
  (∃ n : Fin 64, ∃ a : PncCheck, ∃ k : Nat, ∃ x : Proto, ∃ s : State, s.session n = some k ∧ (s.vc n).up =
    true ∧ (s.vc n).proto = some x ∧ s.inOrder n x .authorization = true ∧ x ≠ .din ∧ x ≠ .iso2 ∧ ((s.vs
    k).pendDec = 1 ∨ (s.vs k).decided ≠ 0 ∨ within 5 (s.phase k) 8 = true)) ∧
  (∃ n : Fin 64, ∃ a : PncCheck, ∃ k : Nat, ∃ x : Proto, ∃ s : State, s.session n = some k ∧ (s.vc n).up =
    true ∧ (s.vc n).proto = some x ∧ s.inOrder n x .authorization = true ∧ (x = .din ∨ x = .iso2)) ∧
  (∃ n : Fin 64, ∃ l : List Byte, ∃ k : Nat, ∃ x : Proto, ∃ s : State, s.session n = some k ∧ (s.vc n).up =
    true ∧ (s.vc n).proto = some x ∧ s.inOrder n x .certificateInstallation = true ∧ (s.vs k).decided = 0 ∧
    (s.vs k).pendDec ≠ 2) ∧
  (∃ n : Fin 64, ∃ l : List Byte, ∃ k : Nat, ∃ x : Proto, ∃ s : State, s.session n = some k ∧ (s.vc n).up =
    true ∧ (s.vc n).proto = some x ∧ s.inOrder n x .certificateInstallation = true ∧ (s.vs k).decided = 0 ∧
    (s.vs k).pendDec = 2) ∧
  (∃ n : Fin 64, ∃ l : List Byte, ∃ k : Nat, ∃ x : Proto, ∃ s : State, s.session n = some k ∧ (s.vc n).up =
    true ∧ (s.vc n).proto = some x ∧ s.inOrder n x .certificateInstallation = true ∧ (s.vs k).decided = 1) ∧
  (∃ n : Fin 64, ∃ l : List Byte, ∃ k : Nat, ∃ x : Proto, ∃ s : State, s.session n = some k ∧ (s.vc n).up =
    true ∧ (s.vc n).proto = some x ∧ s.inOrder n x .certificateInstallation = true ∧ (s.vs k).decided ≠ 0 ∧
    (s.vs k).decided ≠ 1) ∧
  (∃ n : Fin 64, ∃ l : Bool, ∃ k : Nat, ∃ x : Proto, ∃ s : State, s.session n = some k ∧ (s.vc n).up = true ∧
    (s.vc n).proto = some x ∧ s.inOrder n x .powerDelivery = true ∧ s.phase k = 6 ∧ s.mayEnergise n = true ∧
    s.contactorClosed n = true) ∧
  (∃ n : Fin 64, ∃ k : Nat, ∃ x : Proto, ∃ s : State, s.session n = some k ∧ (s.vc n).up = true ∧ (s.vc
    n).proto = some x ∧ s.inOrder n x .powerDelivery = true ∧ s.phase k = 6 ∧ s.mayEnergise n = true ∧
    s.contactorClosed n = false) ∧
  (∃ n : Fin 64, ∃ l : Bool, ∃ k : Nat, ∃ x : Proto, ∃ s : State, s.session n = some k ∧ (s.vc n).up = true ∧
    (s.vc n).proto = some x ∧ s.inOrder n x .powerDelivery = true ∧ (s.phase k ≠ 6 ∨ s.mayEnergise n = false ∨
    (l = true ∧ s.contactorClosed n = false))) ∧
  (∃ n : Fin 64, ∃ k : Nat, ∃ s : State, s.session n = some k ∧ (s.vs k).pendDec = 1 ∧ (s.vc n).waiting = true
    ∧ (s.vc n).prev = some .authorization ∧ within 2 (s.phase k) 4 = true ∧ s.phase k ≠ 1 ∧ (s.vs k).proto ≠ 1
    ∧ (s.vs k).proto ≠ 5 ∧ (s.vs k).preAuth = false ∧ s.onum 0x2200 2 = 1) ∧
  (∃ n : Fin 64, ∃ k : Nat, ∃ s : State, s.session n = some k ∧ (s.vs k).pendDec = 1 ∧ (s.vc n).waiting = true
    ∧ (s.vc n).prev = some .authorization ∧ within 2 (s.phase k) 4 = true ∧ s.phase k ≠ 1 ∧ (s.vs k).proto ≠ 1
    ∧ (s.vs k).proto ≠ 5 ∧ (s.vs k).preAuth = false ∧ s.onum 0x2200 2 ≠ 1) ∧
  (∃ n : Fin 64, ∃ s : State, (s.session n = none ∨ ∃ k, s.session n = some k ∧ (s.vs k).pendDec = 0)) ∧
  (∃ k : Fin 256, ∃ a : Word, ∃ b : BitVec 64, ∃ n : Nat, ∃ s : State, s.namesSession a.toNat b.toNat = some
    k.val ∧ (s.app.ctx.get k).point = n ∧ (s.vs k).pendDec = 1 ∧ (s.vc n).waiting = true ∧ (s.vc n).prev = some
    .authorization ∧ within 2 (s.phase k) 4 = true ∧ s.phase k ≠ 1 ∧ (s.vs k).proto ≠ 1 ∧ (s.vs k).proto ≠ 5 ∧
    (s.vs k).preAuth = false) ∧
  (∃ k : Fin 256, ∃ a : Word, ∃ b : BitVec 64, ∃ s : State, s.namesSession a.toNat b.toNat = some k.val ∧
    (s.vs k).pendDec = 1 ∧ (s.vc (s.app.ctx.get k).point).waiting = true ∧ (s.vc (s.app.ctx.get k).point).prev
    = some .authorization ∧ within 2 (s.phase k) 4 = true ∧ s.phase k ≠ 1 ∧ (s.vs k).proto ≠ 1 ∧ (s.vs k).proto
    ≠ 5 ∧ (s.vs k).preAuth = false) ∧
  (∃ k : Fin 256, ∃ a : Word, ∃ b : BitVec 64, ∃ d : BitVec 8, ∃ s : State, s.namesSession a.toNat b.toNat =
    some k.val ∧ s.decisionStatus k d.toNat ≠ .ok) ∧
  (∃ k : Fin 256, ∃ a : Word, ∃ b : BitVec 64, ∃ d : BitVec 8, ∃ s : State, s.namesSession a.toNat b.toNat ≠
    some k.val) ∧
  (∃ n : Fin 64, ∃ k : Nat, ∃ x : Proto, ∃ s : State, s.session n = some k ∧ (s.vc n).up = true ∧ (s.vc
    n).proto = some x ∧ s.inOrder n x .authorizationSetup = false ∧ within 2 (s.phase k) 7 = true) ∧
  (∃ n : Fin 64, ∃ k : Nat, ∃ s : State, s.session n = some k ∧ (s.vc n).up = true ∧ (s.vc n).proto = none ∧
    within 2 (s.phase k) 7 = true) ∧
  (∃ n : Fin 64, ∃ s : State, (s.session n = none ∨ (s.vc n).up = false)) ∧
  (∃ n : Fin 64, ∃ a : PncCheck, ∃ k : Nat, ∃ x : Proto, ∃ s : State, s.session n = some k ∧ (s.vc n).up =
    true ∧ (s.vc n).proto = some x ∧ s.inOrder n x .authorization = false ∧ within 2 (s.phase k) 7 = true) ∧
  (∃ n : Fin 64, ∃ a : PncCheck, ∃ k : Nat, ∃ s : State, s.session n = some k ∧ (s.vc n).up = true ∧ (s.vc
    n).proto = none ∧ within 2 (s.phase k) 7 = true) ∧
  (∃ n : Fin 64, ∃ a : PncCheck, ∃ s : State, (s.session n = none ∨ (s.vc n).up = false)) ∧
  (∃ n : Fin 64, ∃ l : List Byte, ∃ k : Nat, ∃ x : Proto, ∃ s : State, s.session n = some k ∧ (s.vc n).up =
    true ∧ (s.vc n).proto = some x ∧ s.inOrder n x .certificateInstallation = false ∧ within 2 (s.phase k) 7 =
    true) ∧
  (∃ n : Fin 64, ∃ l : List Byte, ∃ k : Nat, ∃ s : State, s.session n = some k ∧ (s.vc n).up = true ∧ (s.vc
    n).proto = none ∧ within 2 (s.phase k) 7 = true) ∧
  (∃ n : Fin 64, ∃ l : List Byte, ∃ s : State, (s.session n = none ∨ (s.vc n).up = false)) ∧
  (∃ n : Fin 64, ∃ l : Bool, ∃ k : Nat, ∃ x : Proto, ∃ s : State, s.session n = some k ∧ (s.vc n).up = true ∧
    (s.vc n).proto = some x ∧ s.inOrder n x .powerDelivery = false ∧ within 2 (s.phase k) 7 = true) ∧
  (∃ n : Fin 64, ∃ l : Bool, ∃ k : Nat, ∃ s : State, s.session n = some k ∧ (s.vc n).up = true ∧ (s.vc
    n).proto = none ∧ within 2 (s.phase k) 7 = true) ∧
  (∃ n : Fin 64, ∃ l : Bool, ∃ s : State, (s.session n = none ∨ (s.vc n).up = false)) :=
  ⟨⟨0, 0, .iso20dc, { State.reset with app.ctx := State.reset.app.ctx.set 0 { st := .ready, role := 1, point := 0 }, app.mem := State.reset.app.mem.set (0x04020030) 4, app.veh.conn := State.reset.app.veh.conn.set 0 { isOpen := true, proto := some .iso20dc, prev := some .sessionSetup }, obj.live := State.reset.obj.live.set (0x3000 * 256 + 1) (some [3]) }, by decide +kernel⟩,
   ⟨0, ⟨true, ⟨[100], 5, true, true⟩, [7], true, 9⟩, 0, .iso20dc, _, { State.reset with app.ctx := State.reset.app.ctx.set 0 { st := .ready, role := 1, point := 0 }, app.mem := State.reset.app.mem.set (0x04020030) 4, app.veh.conn := State.reset.app.veh.conn.set 0 { isOpen := true, proto := some .iso20dc, prev := some .authorizationSetup, chal := some 9 }, obj.live := State.reset.obj.live.set (0x3000 * 256 + 1) (some [3]), app.tack.st := 2, app.girth.rebuilding := false, app.tack.slots := State.reset.app.tack.slots.set 5 { attr := 0xFFFFA200 }, die.legal.ltStat := 0 }, by decide +kernel, by decide +kernel, by decide +kernel, by decide +kernel, by decide, by decide, by decide +kernel, by decide +kernel, by decide +kernel, rfl, by decide +kernel, by decide +kernel, by decide +kernel⟩,
   ⟨0, ⟨true, ⟨[100], 5, true, true⟩, [7], true, 9⟩, 0, .iso20dc, .chainFailed, _, { State.reset with app.ctx := State.reset.app.ctx.set 0 { st := .ready, role := 1, point := 0 }, app.mem := State.reset.app.mem.set (0x04020030) 4, app.veh.conn := State.reset.app.veh.conn.set 0 { isOpen := true, proto := some .iso20dc, prev := some .authorizationSetup, chal := some 9 }, obj.live := State.reset.obj.live.set (0x3000 * 256 + 1) (some [3]), app.tack.st := 2, app.girth.rebuilding := false, app.tack.slots := State.reset.app.tack.slots.set 5 { attr := 0xFFFFA200 }, die.legal.ltStat := 1 }, by decide +kernel, by decide +kernel, by decide +kernel, by decide +kernel, by decide, by decide, by decide +kernel, by decide +kernel, by decide +kernel, rfl, by decide +kernel⟩,
   ⟨0, ⟨true, ⟨[100], 5, true, true⟩, [7], true, 8⟩, 0, .iso20dc, _, { State.reset with app.ctx := State.reset.app.ctx.set 0 { st := .ready, role := 1, point := 0 }, app.mem := State.reset.app.mem.set (0x04020030) 4, app.veh.conn := State.reset.app.veh.conn.set 0 { isOpen := true, proto := some .iso20dc, prev := some .authorizationSetup, chal := some 9 }, obj.live := State.reset.obj.live.set (0x3000 * 256 + 1) (some [3]), app.tack.st := 2, app.girth.rebuilding := false, app.tack.slots := State.reset.app.tack.slots.set 5 { attr := 0xFFFFA200 }, die.legal.ltStat := 0 }, by decide +kernel, by decide +kernel, by decide +kernel, by decide +kernel, by decide, by decide, by decide +kernel, by decide +kernel, by decide +kernel, rfl, by decide +kernel, by decide +kernel⟩,
   ⟨0, ⟨true, ⟨[100], 5, true, true⟩, [7], true, 9⟩, 0, .iso20dc, { State.reset with app.ctx := State.reset.app.ctx.set 0 { st := .ready, role := 1, point := 0 }, app.mem := State.reset.app.mem.set (0x04020030) 4, app.veh.conn := State.reset.app.veh.conn.set 0 { isOpen := true, proto := some .iso20dc, prev := some .authorizationSetup, chal := some 9 }, obj.live := State.reset.obj.live.set (0x3000 * 256 + 1) (some [3]) }, by decide +kernel, by decide +kernel, by decide +kernel, by decide +kernel, by decide, by decide, by decide +kernel, by decide +kernel, by decide +kernel, rfl⟩,
   ⟨0, ⟨true, ⟨[100], 5, true, true⟩, [7], true, 9⟩, 0, .iso20dc, { State.reset with app.ctx := State.reset.app.ctx.set 0 { st := .ready, role := 1, point := 0 }, app.mem := State.reset.app.mem.set (0x04020030) 4, app.veh.conn := State.reset.app.veh.conn.set 0 { isOpen := true, proto := some .iso20dc, prev := some .authorization }, obj.live := State.reset.obj.live.set (0x3000 * 256 + 1) (some [3]), app.veh.sess := State.reset.app.veh.sess.set 0 { State.reset.app.veh.sess.get 0 with pendDec := 1 } }, by decide +kernel⟩,
   ⟨0, ⟨true, ⟨[100], 5, true, true⟩, [7], true, 9⟩, 0, .din, { State.reset with app.ctx := State.reset.app.ctx.set 0 { st := .ready, role := 1, point := 0 }, app.mem := State.reset.app.mem.set (0x04020030) 4, app.veh.conn := State.reset.app.veh.conn.set 0 { isOpen := true, proto := some .din, prev := some .paymentSelection }, obj.live := State.reset.obj.live.set (0x3000 * 256 + 1) (some [3]) }, by decide +kernel⟩,
   ⟨0, [1], 0, .iso20dc, { State.reset with app.ctx := State.reset.app.ctx.set 0 { st := .ready, role := 1, point := 0 }, app.mem := State.reset.app.mem.set (0x04020030) 4, app.veh.conn := State.reset.app.veh.conn.set 0 { isOpen := true, proto := some .iso20dc, prev := some .authorizationSetup }, obj.live := State.reset.obj.live.set (0x3000 * 256 + 1) (some [3]) }, by decide +kernel⟩,
   ⟨0, [1], 0, .iso20dc, { State.reset with app.ctx := State.reset.app.ctx.set 0 { st := .ready, role := 1, point := 0 }, app.mem := State.reset.app.mem.set (0x04020030) 4, app.veh.conn := State.reset.app.veh.conn.set 0 { isOpen := true, proto := some .iso20dc, prev := some .certificateInstallation }, obj.live := State.reset.obj.live.set (0x3000 * 256 + 1) (some [3]), app.veh.sess := State.reset.app.veh.sess.set 0 { State.reset.app.veh.sess.get 0 with pendDec := 2 } }, by decide +kernel⟩,
   ⟨0, [1], 0, .iso20dc, { State.reset with app.ctx := State.reset.app.ctx.set 0 { st := .ready, role := 1, point := 0 }, app.mem := State.reset.app.mem.set (0x04020030) 4, app.veh.conn := State.reset.app.veh.conn.set 0 { isOpen := true, proto := some .iso20dc, prev := some .authorizationSetup }, obj.live := State.reset.obj.live.set (0x3000 * 256 + 1) (some [3]), app.veh.sess := State.reset.app.veh.sess.set 0 { State.reset.app.veh.sess.get 0 with decided := 1 } }, by decide +kernel⟩,
   ⟨0, [1], 0, .iso20dc, { State.reset with app.ctx := State.reset.app.ctx.set 0 { st := .ready, role := 1, point := 0 }, app.mem := State.reset.app.mem.set (0x04020030) 4, app.veh.conn := State.reset.app.veh.conn.set 0 { isOpen := true, proto := some .iso20dc, prev := some .authorizationSetup }, obj.live := State.reset.obj.live.set (0x3000 * 256 + 1) (some [3]), app.veh.sess := State.reset.app.veh.sess.set 0 { State.reset.app.veh.sess.get 0 with decided := 2 } }, by decide +kernel⟩,
   ⟨0, false, 0, .iso2, { State.reset with app.ctx := State.reset.app.ctx.set 0 { st := .ready, role := 1, point := 0 }, app.mem := State.reset.app.mem.set (0x04020030) 6, app.veh.conn := State.reset.app.veh.conn.set 0 { isOpen := true, proto := some .iso2, prev := some .preCharge }, obj.live := ((State.reset.obj.live.set (0x3000 * 256 + 1) (some [3])).set (0x3008 * 256 + 4) (some [1])).set (0x3008 * 256 + 5) (some [1]), power.coils := State.reset.power.coils.set 0 { State.reset.power.coils.get 0 with st := .on } }, by decide +kernel⟩,
   ⟨0, 0, .iso2, { State.reset with app.ctx := State.reset.app.ctx.set 0 { st := .ready, role := 1, point := 0 }, app.mem := State.reset.app.mem.set (0x04020030) 6, app.veh.conn := State.reset.app.veh.conn.set 0 { isOpen := true, proto := some .iso2, prev := some .preCharge }, obj.live := ((State.reset.obj.live.set (0x3000 * 256 + 1) (some [3])).set (0x3008 * 256 + 4) (some [1])).set (0x3008 * 256 + 5) (some [1]) }, by decide +kernel⟩,
   ⟨0, true, 0, .iso2, { State.reset with app.ctx := State.reset.app.ctx.set 0 { st := .ready, role := 1, point := 0 }, app.mem := State.reset.app.mem.set (0x04020030) 6, app.veh.conn := State.reset.app.veh.conn.set 0 { isOpen := true, proto := some .iso2, prev := some .preCharge }, obj.live := State.reset.obj.live.set (0x3000 * 256 + 1) (some [3]) }, by decide +kernel⟩,
   ⟨0, 0, { State.reset with app.ctx := State.reset.app.ctx.set 0 { st := .ready, role := 1, point := 0 }, app.mem := State.reset.app.mem.set (0x04020030) 4, app.veh.conn := State.reset.app.veh.conn.set 0 { isOpen := true, proto := some .iso20dc, prev := some .authorization, waiting := true }, app.veh.sess := State.reset.app.veh.sess.set 0 { State.reset.app.veh.sess.get 0 with pendDec := 1, proto := 4 }, obj.live := State.reset.obj.live.set (0x2200 * 256 + 2) (some [1]) }, by decide +kernel⟩,
   ⟨0, 0, { State.reset with app.ctx := State.reset.app.ctx.set 0 { st := .ready, role := 1, point := 0 }, app.mem := State.reset.app.mem.set (0x04020030) 4, app.veh.conn := State.reset.app.veh.conn.set 0 { isOpen := true, proto := some .iso20dc, prev := some .authorization, waiting := true }, app.veh.sess := State.reset.app.veh.sess.set 0 { State.reset.app.veh.sess.get 0 with pendDec := 1, proto := 4 }, obj.live := State.reset.obj.live.set (0x2200 * 256 + 2) (some [2]) }, by decide +kernel⟩,
   ⟨0, State.reset, Or.inl (by decide +kernel)⟩,
   ⟨0, 0, 0, 0, { State.reset with app.ctx := State.reset.app.ctx.set 0 { st := .ready, role := 1, point := 0 }, app.mem := State.reset.app.mem.set (0x04020030) 4, app.veh.conn := State.reset.app.veh.conn.set 0 { isOpen := true, proto := some .iso20dc, prev := some .authorization, waiting := true }, obj.live := State.reset.obj.live.set (0x3000 * 256 + 1) (some [3]), app.veh.sess := State.reset.app.veh.sess.set 0 { State.reset.app.veh.sess.get 0 with pendDec := 1, proto := 4, method := 2 } }, by decide +kernel⟩,
   ⟨0, 0, 0, { State.reset with app.ctx := State.reset.app.ctx.set 0 { st := .ready, role := 1, point := 0 }, app.mem := State.reset.app.mem.set (0x04020030) 4, app.veh.conn := State.reset.app.veh.conn.set 0 { isOpen := true, proto := some .iso20dc, prev := some .authorization, waiting := true }, obj.live := State.reset.obj.live.set (0x3000 * 256 + 1) (some [3]), app.veh.sess := State.reset.app.veh.sess.set 0 { State.reset.app.veh.sess.get 0 with pendDec := 1, proto := 4 } }, by decide +kernel⟩,
   ⟨0, 0, 0, 1, { State.reset with app.ctx := State.reset.app.ctx.set 0 { st := .ready, role := 1, point := 0 }, app.mem := State.reset.app.mem.set (0x04020030) 4, app.veh.conn := State.reset.app.veh.conn.set 0 { isOpen := true }, obj.live := State.reset.obj.live.set (0x3000 * 256 + 1) (some [3]) }, by decide +kernel⟩,
   ⟨0, 5, 0, 1, State.reset, by decide +kernel⟩,
   ⟨0, 0, .iso2, { State.reset with app.ctx := State.reset.app.ctx.set 0 { st := .ready, role := 1, point := 0 }, app.mem := State.reset.app.mem.set (0x04020030) 4, app.veh.conn := State.reset.app.veh.conn.set 0 { isOpen := true, proto := some .iso2, prev := some .vehicleCheckIn }, obj.live := State.reset.obj.live.set (0x3000 * 256 + 1) (some [3]) }, by decide +kernel⟩,
   ⟨0, 0, { State.reset with app.ctx := State.reset.app.ctx.set 0 { st := .ready, role := 1, point := 0 }, app.mem := State.reset.app.mem.set (0x04020030) 3, app.veh.conn := State.reset.app.veh.conn.set 0 { isOpen := true } }, by decide +kernel⟩,
   ⟨0, State.reset, by decide +kernel⟩,
   ⟨0, ⟨true, ⟨[100], 5, true, true⟩, [7], true, 9⟩, 0, .iso2, { State.reset with app.ctx := State.reset.app.ctx.set 0 { st := .ready, role := 1, point := 0 }, app.mem := State.reset.app.mem.set (0x04020030) 4, app.veh.conn := State.reset.app.veh.conn.set 0 { isOpen := true, proto := some .iso2, prev := some .vehicleCheckIn }, obj.live := State.reset.obj.live.set (0x3000 * 256 + 1) (some [3]) }, by decide +kernel⟩,
   ⟨0, ⟨true, ⟨[100], 5, true, true⟩, [7], true, 9⟩, 0, { State.reset with app.ctx := State.reset.app.ctx.set 0 { st := .ready, role := 1, point := 0 }, app.mem := State.reset.app.mem.set (0x04020030) 3, app.veh.conn := State.reset.app.veh.conn.set 0 { isOpen := true } }, by decide +kernel⟩,
   ⟨0, ⟨true, ⟨[100], 5, true, true⟩, [7], true, 9⟩, State.reset, by decide +kernel⟩,
   ⟨0, [1], 0, .iso2, { State.reset with app.ctx := State.reset.app.ctx.set 0 { st := .ready, role := 1, point := 0 }, app.mem := State.reset.app.mem.set (0x04020030) 4, app.veh.conn := State.reset.app.veh.conn.set 0 { isOpen := true, proto := some .iso2, prev := some .vehicleCheckIn }, obj.live := State.reset.obj.live.set (0x3000 * 256 + 1) (some [3]) }, by decide +kernel⟩,
   ⟨0, [1], 0, { State.reset with app.ctx := State.reset.app.ctx.set 0 { st := .ready, role := 1, point := 0 }, app.mem := State.reset.app.mem.set (0x04020030) 3, app.veh.conn := State.reset.app.veh.conn.set 0 { isOpen := true } }, by decide +kernel⟩,
   ⟨0, [1], State.reset, by decide +kernel⟩,
   ⟨0, false, 0, .iso2, { State.reset with app.ctx := State.reset.app.ctx.set 0 { st := .ready, role := 1, point := 0 }, app.mem := State.reset.app.mem.set (0x04020030) 4, app.veh.conn := State.reset.app.veh.conn.set 0 { isOpen := true, proto := some .iso2, prev := some .vehicleCheckIn }, obj.live := State.reset.obj.live.set (0x3000 * 256 + 1) (some [3]) }, by decide +kernel⟩,
   ⟨0, false, 0, { State.reset with app.ctx := State.reset.app.ctx.set 0 { st := .ready, role := 1, point := 0 }, app.mem := State.reset.app.mem.set (0x04020030) 3, app.veh.conn := State.reset.app.veh.conn.set 0 { isOpen := true } }, by decide +kernel⟩,
   ⟨0, false, State.reset, by decide +kernel⟩⟩

/-- The hypotheses of `Obligations.SkiverAndSequencePorts` are met. -/
theorem witness_skiverAndSequencePorts :
  (∃ p : Fin 24, ∃ a : Word, ∃ s : State, s.skvStatus p a.toNat = .ok ∧ a.toNat % 16 = 0) ∧
  (∃ p : Fin 24, ∃ a : Word, ∃ s : State, s.skvStatus p a.toNat ≠ .ok) ∧
  (∃ g : BitVec 16, ∃ r : SkvResult, ∃ j : SkvJob, ∃ s : State, (s.app.veh.skv.jobs.take 4).find? (fun j =>
    j.tag = g.toNat) = some j ∧ j.notify = true ∧ (s.app.ctx.get j.target).st ≠ .free) ∧
  (∃ g : BitVec 16, ∃ r : SkvResult, ∃ j : SkvJob, ∃ s : State, (s.app.veh.skv.jobs.take 4).find? (fun j =>
    j.tag = g.toNat) = some j ∧ j.notify = false ∧ s.app.veh.skv.cpl.length < 64) ∧
  (∃ g : BitVec 16, ∃ r : SkvResult, ∃ s : State, (s.app.veh.skv.jobs.take 4).find? (fun j => j.tag = g.toNat)
    = none) ∧
  (∃ x : Nat × Status, ∃ l : List (Nat × Status), ∃ s : State, s.app.veh.skv.cpl = x :: l) ∧
  (∃ s : State, s.app.veh.skv.cpl = []) ∧
  (∃ a b : Bool, ∃ k : Fin 256, ∃ s : State, (s.app.ctx.get k).st ≠ .free) ∧
  (∃ k : Fin 8, ∃ q l : Bool, ∃ s : State, (if q then s.power.seqProx.get k else s.power.seqPerm.get k) = l) ∧
  (∃ k : Fin 8, ∃ q l : Bool, ∃ s : State, (if q then s.power.seqProx.get k else s.power.seqPerm.get k) ≠ l ∧
    s.pointOfPort k = none) ∧
  (∃ k : Fin 8, ∃ l : Bool, ∃ p : Nat, ∃ s : State, s.power.seqProx.get k ≠ l ∧ s.pointOfPort k = some p) ∧
  (∃ k : Fin 8, ∃ p : Nat, ∃ s : State, s.power.seqPerm.get k = true ∧ s.pointOfPort k = some p) ∧
  (∃ k : Fin 8, ∃ p : Nat, ∃ s : State, s.power.seqPerm.get k = false ∧ s.pointOfPort k = some p) ∧
  (∃ k : Fin 8, ∃ i : BitVec 11, ∃ d : List Byte, ∃ p j : Nat, ∃ s : State, within 0x100 i.toNat 0x102 = true
    ∧ s.vpUp k = true ∧ s.pointOfPort k = some p ∧ s.session p = some j) ∧
  (∃ k : Fin 8, ∃ d : List Byte, ∃ p j : Nat, ∃ s : State, s.vpUp k = true ∧ s.pointOfPort k = some p ∧
    s.session p = some j ∧ s.frameFits p (frameV d) (frameI d) = true ∧ d.getD 4 0 = 0 ∧ s.phase j = 7 ∧ frameI
    d ≠ 0) ∧
  (∃ k : Fin 8, ∃ i : BitVec 11, ∃ d : List Byte, ∃ s : State, (within 0x100 i.toNat 0x102 = false ∨ s.vpUp k
    = false ∨ s.pointOfPort k = none)) ∧
  (∃ k : Fin 8, ∃ p : Nat, ∃ s : State, s.vpUp k = true ∧ s.pointOfPort k = some p ∧ within 5 (s.pointPhase p)
    9 = true) ∧
  (∃ k : Fin 8, ∃ s : State, (s.vpUp k = false ∨ s.pointOfPort k = none)) ∧
  (∃ k : Fin 8, ∃ p j : Nat, ∃ s : State, s.pointOfPort k = some p ∧ s.session p = some j ∧ (s.vp k).got ≠ 7 ∧
    within 5 (s.phase j) 6 = true) ∧
  (∃ k : Fin 8, ∃ s : State, (s.pointOfPort k = none ∨ (s.vp k).got = 7)) ∧
  (∃ k : Fin 8, ∃ p j : Nat, ∃ s : State, s.pointOfPort k = some p ∧ s.session p = some j ∧ within 4 (s.phase
    j) 7 = true) ∧
  (∃ k : Fin 8, ∃ s : State, s.pointOfPort k = none) :=
  ⟨⟨0, 0x01000000, { State.reset with app.clk.appHeld := false, app.mem := State.reset.app.mem.set 0x01000000 1 }, by decide +kernel⟩,
   ⟨0, 1, State.reset, by decide +kernel⟩,
   ⟨9, ⟨true, 0, [], [], []⟩, { op := 1, schema := 0, notify := true, target := 35, tag := 9, dalg := 0, dcount := 0, inAddr := 0, inLen := 4, outAddr := 0, outCap := 9, spillAddr := 0, spillCap := 9, dlistAddr := 0, resAddr := 0, port := 0 }, { State.reset with app.veh.skv.jobs := [{ op := 1, schema := 0, notify := true, target := 35, tag := 9, dalg := 0, dcount := 0, inAddr := 0, inLen := 4, outAddr := 0, outCap := 9, spillAddr := 0, spillCap := 9, dlistAddr := 0, resAddr := 0, port := 0 }], app.ctx := State.reset.app.ctx.set 35 { st := .ready } }, by decide +kernel⟩,
   ⟨9, ⟨true, 0, [], [], []⟩, { op := 1, schema := 0, notify := false, target := 35, tag := 9, dalg := 0, dcount := 0, inAddr := 0, inLen := 4, outAddr := 0, outCap := 9, spillAddr := 0, spillCap := 9, dlistAddr := 0, resAddr := 0, port := 0 }, { State.reset with app.veh.skv := { State.reset.app.veh.skv with jobs := [{ op := 1, schema := 0, notify := false, target := 35, tag := 9, dalg := 0, dcount := 0, inAddr := 0, inLen := 4, outAddr := 0, outCap := 9, spillAddr := 0, spillCap := 9, dlistAddr := 0, resAddr := 0, port := 0 }] } }, by decide +kernel⟩,
   ⟨9, ⟨true, 0, [], [], []⟩, State.reset, by decide +kernel⟩,
   ⟨(9, .ok), [], { State.reset with app.veh.skv := { State.reset.app.veh.skv with cpl := [(9, .ok)] } }, by decide +kernel⟩,
   ⟨State.reset, by decide +kernel⟩,
   ⟨true, true, 35, { State.reset with app.ctx := State.reset.app.ctx.set 35 { st := .ready } }, by decide +kernel⟩,
   ⟨1, true, false, State.reset, by decide +kernel⟩,
   ⟨1, true, true, State.reset, by decide +kernel⟩,
   ⟨0, true, 0, { State.reset with app.ctx := State.reset.app.ctx.set 0 { st := .ready, role := 1, point := 0 }, app.mem := State.reset.app.mem.set (0x04020030) 7, obj.live := (((State.reset.obj.live.set (0x3000 * 256 + 1) (some [5])).set (0x2100 * 256 + 1) (some [1])).set (0x3008 * 256 + 4) (some [0xFF, 0xFF])).set (0x3008 * 256 + 5) (some [0xFF, 0xFF]) }, by decide +kernel⟩,
   ⟨0, 0, { State.reset with app.ctx := State.reset.app.ctx.set 0 { st := .ready, role := 1, point := 0 }, app.mem := State.reset.app.mem.set (0x04020030) 7, obj.live := (((State.reset.obj.live.set (0x3000 * 256 + 1) (some [5])).set (0x2100 * 256 + 1) (some [1])).set (0x3008 * 256 + 4) (some [0xFF, 0xFF])).set (0x3008 * 256 + 5) (some [0xFF, 0xFF]), power.seqPerm := State.reset.power.seqPerm.set 0 true }, by decide +kernel⟩,
   ⟨0, 0, { State.reset with app.ctx := State.reset.app.ctx.set 0 { st := .ready, role := 1, point := 0 }, app.mem := State.reset.app.mem.set (0x04020030) 7, obj.live := (((State.reset.obj.live.set (0x3000 * 256 + 1) (some [5])).set (0x2100 * 256 + 1) (some [1])).set (0x3008 * 256 + 4) (some [0xFF, 0xFF])).set (0x3008 * 256 + 5) (some [0xFF, 0xFF]) }, by decide +kernel⟩,
   ⟨0, 0x100, [], 0, 0, { State.reset with app.ctx := State.reset.app.ctx.set 0 { st := .ready, role := 1, point := 0 }, app.mem := State.reset.app.mem.set (0x04020030) 7, obj.live := (((State.reset.obj.live.set (0x3000 * 256 + 1) (some [5])).set (0x2100 * 256 + 1) (some [1])).set (0x3008 * 256 + 4) (some [0xFF, 0xFF])).set (0x3008 * 256 + 5) (some [0xFF, 0xFF]) }, by decide +kernel⟩,
   ⟨0, [0, 1, 0, 5, 0, 0, 40], 0, 0, { State.reset with app.ctx := State.reset.app.ctx.set 0 { st := .ready, role := 1, point := 0 }, app.mem := State.reset.app.mem.set (0x04020030) 7, obj.live := (((State.reset.obj.live.set (0x3000 * 256 + 1) (some [5])).set (0x2100 * 256 + 1) (some [1])).set (0x3008 * 256 + 4) (some [0xFF, 0xFF])).set (0x3008 * 256 + 5) (some [0xFF, 0xFF]) }, by decide +kernel⟩,
   ⟨0, 5, [], State.reset, by decide +kernel⟩,
   ⟨0, 0, { State.reset with app.ctx := State.reset.app.ctx.set 0 { st := .ready, role := 1, point := 0 }, app.mem := State.reset.app.mem.set (0x04020030) 7, obj.live := (((State.reset.obj.live.set (0x3000 * 256 + 1) (some [5])).set (0x2100 * 256 + 1) (some [1])).set (0x3008 * 256 + 4) (some [0xFF, 0xFF])).set (0x3008 * 256 + 5) (some [0xFF, 0xFF]) }, by decide +kernel⟩,
   ⟨0, State.reset, by decide +kernel⟩,
   ⟨0, 0, 0, { State.reset with app.ctx := State.reset.app.ctx.set 0 { st := .ready, role := 1, point := 0 }, app.mem := State.reset.app.mem.set (0x04020030) 5, obj.live := (((State.reset.obj.live.set (0x3000 * 256 + 1) (some [5])).set (0x2100 * 256 + 1) (some [1])).set (0x3008 * 256 + 4) (some [0xFF, 0xFF])).set (0x3008 * 256 + 5) (some [0xFF, 0xFF]) }, by decide +kernel⟩,
   ⟨0, State.reset, by decide +kernel⟩,
   ⟨0, 0, 0, { State.reset with app.ctx := State.reset.app.ctx.set 0 { st := .ready, role := 1, point := 0 }, app.mem := State.reset.app.mem.set (0x04020030) 7, obj.live := (((State.reset.obj.live.set (0x3000 * 256 + 1) (some [5])).set (0x2100 * 256 + 1) (some [1])).set (0x3008 * 256 + 4) (some [0xFF, 0xFF])).set (0x3008 * 256 + 5) (some [0xFF, 0xFF]) }, by decide +kernel⟩,
   ⟨0, State.reset, by decide +kernel⟩⟩

/-- The hypotheses of `Obligations.MetrologyChannels` are met. -/
theorem witness_metrologyChannels :
  (∃ c : Fin 80, ∃ v a : BitVec 12, ∃ l : List (BitVec 12), ∃ s : State, s.die.running = true ∧ s.rangeMode c
    = 0 ∧ 1 < (s.die.met.chan.get c).gain) ∧
  (∃ c : Fin 80, ∃ v a : BitVec 12, ∃ l : List (BitVec 12), ∃ s : State, s.die.running = true ∧ ¬ (s.rangeMode
    c = 0 ∧ 1 < (s.die.met.chan.get c).gain)) ∧
  (∃ c : Fin 80, ∃ s : State, s.die.running = true ∧ s.rangeMode c = 0 ∧ 2 ≤ (s.die.met.chan.get c).low) ∧
  (∃ c : Fin 80, ∃ s : State, s.rangeMode c ≠ 0 ∨ (s.die.met.chan.get c).low < 2) ∧
  (∃ b : Fin 64, ∃ s : State, s.die.running = true) ∧
  (∃ c : Fin 144, ∃ re im : List Int, ∃ s : State, s.die.running = true ∧ s.snum (0x5100 + c) 1 ≠ 0) ∧
  (∃ c : Fin 144, ∃ re im : List Int, ∃ s : State, s.snum (0x5100 + c) 1 = 0) ∧
  (∃ v : Int, ∃ s : State, s.die.running = true) ∧
  (∃ k : Fin 8, ∃ c : Fin 80, ∃ a b d : Nat, ∃ s : State, s.die.running = true ∧ s.checker c = some k.val ∧
    s.snum (0x5100 + c) 1 ≠ 0 ∧ s.highMember c = false ∧ (s.die.met.chan.get c).check ≠ 3 ∧ (s.die.met.chan.get
    c).suspectBy = none ∧ s.shadowPass c a b d = false) ∧
  (∃ k : Fin 8, ∃ c : Fin 80, ∃ a b d : Nat, ∃ s : State, s.die.running = true ∧ s.checker c = some k.val ∧
    s.snum (0x5100 + c) 1 ≠ 0 ∧ s.highMember c = false ∧ (s.die.met.chan.get c).check ≠ 3 ∧ (s.die.met.chan.get
    c).suspectBy = none ∧ s.shadowPass c a b d = true) ∧
  (∃ k : Fin 8, ∃ c : Fin 80, ∃ a b d j : Nat, ∃ s : State, s.die.running = true ∧ s.checker c = some k.val ∧
    s.snum (0x5100 + c) 1 ≠ 0 ∧ s.highMember c = false ∧ (s.die.met.chan.get c).check ≠ 3 ∧ (s.die.met.chan.get
    c).suspectBy = some j ∧ s.shadowPass c a b d = false) ∧
  (∃ k : Fin 8, ∃ c : Fin 80, ∃ a b d j : Nat, ∃ s : State, s.die.running = true ∧ s.checker c = some k.val ∧
    s.snum (0x5100 + c) 1 ≠ 0 ∧ s.highMember c = false ∧ (s.die.met.chan.get c).check ≠ 3 ∧ (s.die.met.chan.get
    c).suspectBy = some j ∧ s.shadowPass c a b d = true) ∧
  (∃ k : Fin 8, ∃ c : Fin 80, ∃ a b d : Nat, ∃ s : State, s.checker c ≠ some k.val ∨ s.snum (0x5100 + c) 1 = 0
    ∨ s.highMember c = true ∨ (s.die.met.chan.get c).check = 3) ∧
  (∃ k : Fin 8, ∃ s : State, s.die.running = true ∧ s.pulseOwed k = true ∧ (s.die.met.pls.get k).high = false) ∧
  (∃ k : Fin 8, ∃ s : State, s.die.running = true ∧ s.pulseOwed k = true ∧ (s.die.met.pls.get k).high = true) ∧
  (∃ k : Fin 8, ∃ s : State, s.pulseOwed k = false) ∧
  (∃ k : Fin 8, ∃ s : State, s.die.running = true) ∧
  (∃ q : Rq, ∃ a p : BitVec 8, ∃ u : BitVec 16, ∃ s : State, s.die.running = true) ∧
  (∃ c : Fin 80, ∃ v a : BitVec 12, ∃ l : List (BitVec 12), ∃ s : State, s.die.running = false) ∧
  (∃ c : Fin 80, ∃ s : State, s.die.running = false) ∧
  (∃ b : Fin 64, ∃ s : State, s.die.running = false) ∧
  (∃ c : Fin 144, ∃ re im : List Int, ∃ s : State, s.die.running = false) ∧
  (∃ v : Int, ∃ s : State, s.die.running = false) ∧
  (∃ k : Fin 8, ∃ c : Fin 80, ∃ a b d : Nat, ∃ s : State, s.die.running = false) ∧
  (∃ k : Fin 8, ∃ s : State, s.die.running = false) ∧
  (∃ k : Fin 8, ∃ s : State, s.die.running = false) ∧
  (∃ q : Rq, ∃ a p : BitVec 8, ∃ u : BitVec 16, ∃ s : State, s.die.running = false) :=
  ⟨⟨3, 0x800, 0xFFF, [], { State.reset with die.running := true, die.obj := (State.reset.die.obj.set ((0x5103) * 256 + 3) (some [0])), die.met.chan := State.reset.die.met.chan.set 3 { gain := 64 } }, by decide +kernel⟩,
   ⟨3, 0x800, 0xFFF, [], { State.reset with die.running := true }, by decide +kernel⟩,
   ⟨3, { State.reset with die.running := true, die.obj := (State.reset.die.obj.set ((0x5103) * 256 + 3) (some [0])), die.met.chan := State.reset.die.met.chan.set 3 { low := 2 } }, by decide +kernel⟩,
   ⟨3, { State.reset with die.running := true }, by decide +kernel⟩,
   ⟨3, { State.reset with die.running := true }, by decide +kernel⟩,
   ⟨3, [7], [7], { State.reset with die.running := true, die.obj := (State.reset.die.obj.set ((0x5103) * 256 + 1) (some [1])) }, by decide +kernel⟩,
   ⟨3, [7], [7], { State.reset with die.running := true }, by decide +kernel⟩,
   ⟨25, { State.reset with die.running := true }, by decide +kernel⟩,
   ⟨1, 1, 9000, 0, 0, { State.reset with die.running := true, die.obj := (State.reset.die.obj.set ((0x5101) * 256 + 1) (some [1])) }, by decide +kernel⟩,
   ⟨1, 1, 0, 0, 0, { State.reset with die.running := true, die.obj := (State.reset.die.obj.set ((0x5101) * 256 + 1) (some [1])) }, by decide +kernel⟩,
   ⟨1, 1, 9000, 0, 0, 0, { State.reset with die.running := true, die.obj := (State.reset.die.obj.set ((0x5101) * 256 + 1) (some [1])), die.met.chan := State.reset.die.met.chan.set 1 { check := 2, suspectBy := some 0 } }, by decide +kernel⟩,
   ⟨1, 1, 0, 0, 0, 0, { State.reset with die.running := true, die.obj := (State.reset.die.obj.set ((0x5101) * 256 + 1) (some [1])), die.met.chan := State.reset.die.met.chan.set 1 { check := 2, suspectBy := some 0 } }, by decide +kernel⟩,
   ⟨1, 1, 0, 0, 0, { State.reset with die.running := true }, by decide +kernel⟩,
   ⟨2, { State.reset with die.running := true, die.met.pls := State.reset.die.met.pls.set 2 { follows := some (0, 0, 1, false) }, die.cur.reg := Bank.set ⟨0, []⟩ 0 (10 ^ 30), die.obj := ((State.reset.die.obj.set ((0x530A) * 256 + 3) (some [1])).set ((0x530A) * 256 + 4) (some [1])) }, by decide +kernel⟩,
   ⟨2, { State.reset with die.running := true, die.met.pls := State.reset.die.met.pls.set 2 { high := true, follows := some (0, 0, 1, false) }, die.cur.reg := Bank.set ⟨0, []⟩ 0 (10 ^ 30), die.obj := (State.reset.die.obj.set ((0x530A) * 256 + 3) (some [1])) }, by decide +kernel⟩,
   ⟨2, State.reset, by decide +kernel⟩,
   ⟨2, { State.reset with die.running := true, die.met.pls := State.reset.die.met.pls.set 2 { high := true } }, by decide +kernel⟩,
   ⟨⟨.pub, 7⟩, 0, 0, 3, { State.reset with die.running := true }, by decide +kernel⟩,
   ⟨0, 0, 0, [], State.reset, by decide +kernel⟩,
   ⟨0, State.reset, by decide +kernel⟩,
   ⟨0, State.reset, by decide +kernel⟩,
   ⟨0, [], [], State.reset, by decide +kernel⟩,
   ⟨0, State.reset, by decide +kernel⟩,
   ⟨0, 0, 0, 0, 0, State.reset, by decide +kernel⟩,
   ⟨0, State.reset, by decide +kernel⟩,
   ⟨0, State.reset, by decide +kernel⟩,
   ⟨⟨.pub, 7⟩, 0, 0, 0, State.reset, by decide +kernel⟩⟩

/-- The hypotheses of `Obligations.MetrologyCyclesAndSeal` are met. -/
theorem witness_metrologyCyclesAndSeal :
  (∃ e : Fin 128, ∃ r : CycleRaw, ∃ s : State, s.die.running = true ∧ s.elemOn e = true ∧ s.die.met.refFail =
    false ∧ s.warned = false ∧ s.cycleOk e r = true) ∧
  (∃ e : Fin 128, ∃ r : CycleRaw, ∃ s : State, s.die.running = true ∧ (s.elemOn e = false ∨ s.die.met.refFail
    = true) ∧ s.warned = false ∧ s.cycleOk e r = true) ∧
  (∃ e : Fin 128, ∃ r : CycleRaw, ∃ s : State, s.warned = true ∨ s.cycleOk e r = false) ∧
  (∃ e : Fin 128, ∃ r : CycleRaw, ∃ s : State, s.die.running = true ∧ s.snum (0x5000 + e) 1 = 1 ∧
    (s.die.met.elem.get e).block = false ∧ s.warned = false ∧ 400 ≤ r.x.length ∧ s.die.met.refFail = false) ∧
  (∃ e : Fin 128, ∃ r : CycleRaw, ∃ s : State, s.die.running = true ∧ s.snum (0x5000 + e) 1 = 1 ∧
    (s.die.met.elem.get e).block = false ∧ s.warned = false ∧ 400 ≤ r.x.length ∧ s.die.met.refFail = true) ∧
  (∃ e : Fin 128, ∃ r : CycleRaw, ∃ s : State, ¬ (s.snum (0x5000 + e) 1 = 1 ∧ (s.die.met.elem.get e).block =
    false ∧ s.warned = false ∧ 400 ≤ r.x.length)) ∧
  (∃ e : Fin 128, ∃ r : CycleRaw, ∃ l : List CycleRaw, ∃ s : State, s.die.running = true ∧ (s.die.met.elem.get
    e).block = true ∧ s.warned = false ∧ l.length = 10 ∧ l.all (s.qualifies e) = true ∧ s.elemOn e = true ∧
    s.die.met.refFail = false) ∧
  (∃ e : Fin 128, ∃ r : CycleRaw, ∃ l : List CycleRaw, ∃ s : State, s.die.running = true ∧ (s.die.met.elem.get
    e).block = true ∧ s.warned = false ∧ l.length = 10 ∧ l.all (s.qualifies e) = true ∧ (s.elemOn e = false ∨
    s.die.met.refFail = true)) ∧
  (∃ e : Fin 128, ∃ r : CycleRaw, ∃ l : List CycleRaw, ∃ s : State, ¬ ((s.die.met.elem.get e).block = true ∧
    s.warned = false ∧ l.length = 10 ∧ l.all (s.qualifies e) = true)) ∧
  (∃ e : Fin 128, ∃ r : CycleRaw, ∃ s : State, s.die.running = true ∧ s.elemOn e = true ∧ s.die.met.refFail =
    false ∧ s.die.pf ≠ .none) ∧
  (∃ e : Fin 128, ∃ r : CycleRaw, ∃ s : State, s.die.running = true ∧ (s.elemOn e = false ∨ s.die.met.refFail
    = true) ∧ s.die.pf ≠ .none) ∧
  (∃ e : Fin 128, ∃ r : CycleRaw, ∃ s : State, s.die.pf = .none) ∧
  (∃ e : Fin 128, ∃ r : CycleRaw, ∃ s : State, s.die.running = true ∧ (s.die.pf = .landed ∨ s.die.pf =
    .released)) ∧
  (∃ e : Fin 128, ∃ r : CycleRaw, ∃ s : State, s.die.pf ≠ .landed ∧ s.die.pf ≠ .released) ∧
  (∃ s : State, s.die.running = true ∧ s.warned = false) ∧
  (∃ s : State, s.warned = true) ∧
  (∃ q : Rq, ∃ z : BitVec 144, ∃ s : State, s.die.running = true ∧ s.dieRole q.role = true ∧ q.role =
    .verifier ∧ s.die.met.sealSel = none ∧ (((List.range 128).filter (s.elemSelected z)).any fun e =>
    ((s.elemPoint e).bind s.openRec).isSome) = false) ∧
  (∃ q : Rq, ∃ z : BitVec 144, ∃ s : State, s.die.running = true ∧ s.dieRole q.role = true ∧ q.role =
    .verifier ∧ (s.die.met.sealSel.isSome = true ∨ (((List.range 128).filter (s.elemSelected z)).any fun e =>
    ((s.elemPoint e).bind s.openRec).isSome) = true)) ∧
  (∃ q : Rq, ∃ z : BitVec 144, ∃ s : State, s.die.running = true ∧ (s.dieRole q.role = false ∨ q.role ≠
    .verifier)) ∧
  (∃ q : Rq, ∃ i : BitVec 16, ∃ j : BitVec 8, ∃ d : List Byte, ∃ z : BitVec 144, ∃ s : State, s.die.running =
    true ∧ s.dieRole q.role = true ∧ q.role = .verifier ∧ s.die.met.sealSel = some z ∧ isLegalParam i.toNat
    j.toNat = true ∧ i ≠ 0x5310 ∧ ((objAt (s.elemDc i.toNat) i.toNat j.toNat).map (·.valOk d)).getD false =
    true ∧ s.inSelection z ⟨i.toNat, j.toNat, 8 * s.die.met.coefOff, d⟩ = true) ∧
  (∃ q : Rq, ∃ i : BitVec 16, ∃ j : BitVec 8, ∃ d : List Byte, ∃ z : BitVec 144, ∃ s : State, s.die.running =
    true ∧ s.dieRole q.role = true ∧ q.role = .verifier ∧ s.die.met.sealSel = some z ∧ isLegalParam i.toNat
    j.toNat = true ∧ i = 0x5310 ∧ ((objAt (s.elemDc i.toNat) i.toNat j.toNat).map (·.valOk d)).getD false =
    true ∧ 8 * s.die.met.coefOff + d.length ≤ 17280 ∧ coefOk (applyParam ⟨i.toNat, j.toNat, 8 *
    s.die.met.coefOff, d⟩ s.staged) = true ∧ s.inSelection z ⟨i.toNat, j.toNat, 8 * s.die.met.coefOff, d⟩ =
    true) ∧
  (∃ q : Rq, ∃ i : BitVec 16, ∃ j : BitVec 8, ∃ d : List Byte, ∃ z : BitVec 144, ∃ s : State, s.die.running =
    true ∧ s.dieRole q.role = true ∧ q.role = .verifier ∧ s.die.met.sealSel = some z ∧ isLegalParam i.toNat
    j.toNat = true ∧ (((objAt (s.elemDc i.toNat) i.toNat j.toNat).map (·.valOk d)).getD false = false ∨ (i =
    0x5310 ∧ (17280 < 8 * s.die.met.coefOff + d.length ∨ coefOk (applyParam ⟨i.toNat, j.toNat, 8 *
    s.die.met.coefOff, d⟩ s.staged) = false)))) ∧
  (∃ q : Rq, ∃ i : BitVec 16, ∃ j : BitVec 8, ∃ d : List Byte, ∃ z : BitVec 144, ∃ s : State, s.die.running =
    true ∧ s.dieRole q.role = true ∧ q.role = .verifier ∧ s.die.met.sealSel = some z ∧ isLegalParam i.toNat
    j.toNat = true ∧ i ≠ 0x5310 ∧ ((objAt (s.elemDc i.toNat) i.toNat j.toNat).map (·.valOk d)).getD false =
    true ∧ s.inSelection z ⟨i.toNat, j.toNat, 8 * s.die.met.coefOff, d⟩ = false) ∧
  (∃ q : Rq, ∃ i : BitVec 16, ∃ j : BitVec 8, ∃ d : List Byte, ∃ s : State, s.die.running = true ∧ s.dieRole
    q.role = true ∧ isLegalParam i.toNat j.toNat = true ∧ (s.die.met.sealSel = none ∨ q.role ≠ .verifier)) ∧
  (∃ q : Rq, ∃ i : BitVec 16, ∃ j : BitVec 8, ∃ d : List Byte, ∃ s : State, s.die.running = true ∧ (s.dieRole
    q.role = false ∨ isLegalParam i.toNat j.toNat = false)) ∧
  (∃ q : Rq, ∃ w z : BitVec 144, ∃ s : State, s.die.running = true ∧ s.dieRole q.role = true ∧ q.role =
    .verifier ∧ s.die.met.sealSel = some z ∧ s.staged.paramsOk = true) ∧
  (∃ q : Rq, ∃ w z : BitVec 144, ∃ s : State, s.die.running = true ∧ s.dieRole q.role = true ∧ q.role =
    .verifier ∧ s.die.met.sealSel = some z ∧ s.staged.paramsOk = false) ∧
  (∃ q : Rq, ∃ w : BitVec 144, ∃ s : State, s.die.running = true ∧ s.dieRole q.role = true ∧ q.role =
    .verifier ∧ s.die.met.sealSel = none) ∧
  (∃ q : Rq, ∃ w : BitVec 144, ∃ s : State, s.die.running = true ∧ (s.dieRole q.role = false ∨ q.role ≠
    .verifier)) ∧
  (∃ q : Rq, ∃ z : BitVec 144, ∃ s : State, s.die.running = true ∧ s.dieRole q.role = true ∧ q.role =
    .verifier ∧ s.die.met.sealSel = some z) ∧
  (∃ q : Rq, ∃ s : State, s.die.running = true ∧ s.dieRole q.role = true ∧ q.role = .verifier ∧
    s.die.met.sealSel = none) ∧
  (∃ q : Rq, ∃ s : State, s.die.running = true ∧ (s.dieRole q.role = false ∨ q.role ≠ .verifier)) ∧
  (∃ z : BitVec 144, ∃ s : State, s.die.running = true ∧ s.die.met.sealSel = some z) ∧
  (∃ s : State, s.die.met.sealSel = none) ∧
  (∃ e : Fin 128, ∃ r : CycleRaw, ∃ s : State, s.die.running = false) ∧
  (∃ e : Fin 128, ∃ r : CycleRaw, ∃ s : State, s.die.running = false) ∧
  (∃ e : Fin 128, ∃ r : CycleRaw, ∃ l : List CycleRaw, ∃ s : State, s.die.running = false) ∧
  (∃ e : Fin 128, ∃ r : CycleRaw, ∃ s : State, s.die.running = false) ∧
  (∃ e : Fin 128, ∃ r : CycleRaw, ∃ s : State, s.die.running = false) ∧
  (∃ s : State, s.die.running = false) ∧
  (∃ q : Rq, ∃ z : BitVec 144, ∃ s : State, s.die.running = false) ∧
  (∃ q : Rq, ∃ i : BitVec 16, ∃ j : BitVec 8, ∃ d : List Byte, ∃ s : State, s.die.running = false) ∧
  (∃ q : Rq, ∃ w : BitVec 144, ∃ s : State, s.die.running = false) ∧
  (∃ q : Rq, ∃ s : State, s.die.running = false) ∧
  (∃ s : State, s.die.running = false) :=
  ⟨⟨0, ⟨List.replicate 320 (0, 0), 64, 64, 0, []⟩, { State.reset with die.running := true, die.obj := (State.reset.die.obj.set (0x5000 * 256 + 1) (some [2])) }, by decide +kernel⟩,
   ⟨0, ⟨List.replicate 320 (0, 0), 64, 64, 0, []⟩, { State.reset with die.running := true, die.met.refFail := true, die.obj := (State.reset.die.obj.set (0x5000 * 256 + 1) (some [2])) }, by decide +kernel⟩,
   ⟨0, ⟨[], 0, 0, 0, []⟩, { State.reset with die.running := true, die.pf := .warned }, by decide +kernel⟩,
   ⟨0, ⟨List.replicate 400 (0, 0), 64, 64, 0, []⟩, { State.reset with die.running := true, die.obj := (State.reset.die.obj.set (0x5000 * 256 + 1) (some [1])) }, by decide +kernel⟩,
   ⟨0, ⟨List.replicate 400 (0, 0), 64, 64, 0, []⟩, { State.reset with die.running := true, die.met.refFail := true, die.obj := (State.reset.die.obj.set (0x5000 * 256 + 1) (some [1])) }, by decide +kernel⟩,
   ⟨0, ⟨[], 0, 0, 0, []⟩, { State.reset with die.running := true }, by decide +kernel⟩,
   ⟨0, ⟨List.replicate 320 (0, 0), 64, 64, 0, []⟩, List.replicate 10 ⟨List.replicate 320 (0, 0), 64, 64, 0, []⟩, { State.reset with die.running := true, die.obj := (State.reset.die.obj.set (0x5000 * 256 + 1) (some [1])), die.met.elem := State.reset.die.met.elem.set 0 { block := true } }, by decide +kernel⟩,
   ⟨0, ⟨List.replicate 320 (0, 0), 64, 64, 0, []⟩, List.replicate 10 ⟨List.replicate 320 (0, 0), 64, 64, 0, []⟩, { State.reset with die.running := true, die.met.refFail := true, die.obj := (State.reset.die.obj.set (0x5000 * 256 + 1) (some [1])), die.met.elem := State.reset.die.met.elem.set 0 { block := true } }, by decide +kernel⟩,
   ⟨0, ⟨[], 0, 0, 0, []⟩, [], { State.reset with die.running := true }, by decide +kernel⟩,
   ⟨0, ⟨[], 0, 0, 0, []⟩, { State.reset with die.running := true, die.obj := (State.reset.die.obj.set (0x5000 * 256 + 1) (some [1])), die.pf := .warned }, by decide +kernel⟩,
   ⟨0, ⟨[], 0, 0, 0, []⟩, { State.reset with die.running := true, die.pf := .warned }, by decide +kernel⟩,
   ⟨0, ⟨[], 0, 0, 0, []⟩, { State.reset with die.running := true }, by decide +kernel⟩,
   ⟨0, ⟨[], 0, 0, 0, []⟩, { State.reset with die.running := true, die.pf := .landed }, by decide +kernel⟩,
   ⟨0, ⟨[], 0, 0, 0, []⟩, { State.reset with die.running := true }, by decide +kernel⟩,
   ⟨{ State.reset with die.running := true }, by decide +kernel⟩,
   ⟨{ State.reset with die.running := true, die.pf := .landed }, by decide +kernel⟩,
   ⟨⟨.verifier, 7⟩, 0, { State.reset with die.running := true }, by decide +kernel⟩,
   ⟨⟨.verifier, 7⟩, 0, { State.reset with die.running := true, die.met.sealSel := some 0 }, by decide +kernel⟩,
   ⟨⟨.pub, 7⟩, 0, { State.reset with die.running := true }, by decide +kernel⟩,
   ⟨⟨.verifier, 7⟩, 0x5103, 1, [1], 8, { State.reset with die.running := true, die.met.sealSel := some 8 }, by decide +kernel⟩,
   ⟨⟨.verifier, 7⟩, 0x5310, 1, [], 8, { State.reset with die.running := true, die.met.sealSel := some 8 }, by decide +kernel⟩,
   ⟨⟨.verifier, 7⟩, 0x5103, 1, [9], 8, { State.reset with die.running := true, die.met.sealSel := some 8 }, by decide +kernel⟩,
   ⟨⟨.verifier, 7⟩, 0x5103, 1, [1], 0, { State.reset with die.running := true, die.met.sealSel := some 0 }, by decide +kernel⟩,
   ⟨⟨.verifier, 7⟩, 0x5103, 1, [1], { State.reset with die.running := true }, by decide +kernel⟩,
   ⟨⟨.verifier, 7⟩, 0, 1, [1], { State.reset with die.running := true }, by decide +kernel⟩,
   ⟨⟨.verifier, 7⟩, 0, 0, { State.reset with die.running := true, die.met.sealSel := some 0 }, by decide +kernel⟩,
   ⟨⟨.verifier, 7⟩, 0, 0, { State.reset with die.running := true, die.met.sealSel := some 0, die.obj := ((State.reset.die.obj.set (0x5000 * 256 + 1) (some [1])).set (0x5000 * 256 + 5) (some [1, 0])) }, by decide +kernel⟩,
   ⟨⟨.verifier, 7⟩, 0, { State.reset with die.running := true }, by decide +kernel⟩,
   ⟨⟨.pub, 7⟩, 0, { State.reset with die.running := true }, by decide +kernel⟩,
   ⟨⟨.verifier, 7⟩, 0, { State.reset with die.running := true, die.met.sealSel := some 0 }, by decide +kernel⟩,
   ⟨⟨.verifier, 7⟩, { State.reset with die.running := true }, by decide +kernel⟩,
   ⟨⟨.pub, 7⟩, { State.reset with die.running := true }, by decide +kernel⟩,
   ⟨0, { State.reset with die.running := true, die.met.sealSel := some 0 }, by decide +kernel⟩,
   ⟨{ State.reset with die.running := true }, by decide +kernel⟩,
   ⟨0, ⟨[], 0, 0, 0, []⟩, State.reset, by decide +kernel⟩,
   ⟨0, ⟨[], 0, 0, 0, []⟩, State.reset, by decide +kernel⟩,
   ⟨0, ⟨[], 0, 0, 0, []⟩, [], State.reset, by decide +kernel⟩,
   ⟨0, ⟨[], 0, 0, 0, []⟩, State.reset, by decide +kernel⟩,
   ⟨0, ⟨[], 0, 0, 0, []⟩, State.reset, by decide +kernel⟩,
   ⟨State.reset, by decide +kernel⟩,
   ⟨⟨.verifier, 7⟩, 0, State.reset, by decide +kernel⟩,
   ⟨⟨.verifier, 7⟩, 0, 0, [], State.reset, by decide +kernel⟩,
   ⟨⟨.verifier, 7⟩, 0, State.reset, by decide +kernel⟩,
   ⟨⟨.verifier, 7⟩, State.reset, by decide +kernel⟩,
   ⟨State.reset, by decide +kernel⟩⟩

/-- The hypotheses of `Obligations.BillingRecordsAndNotices` are met. -/
theorem witness_billingRecordsAndNotices :
  (∃ g : Word, ∃ p : Fin 64, ∃ a : Word, ∃ m : BitVec 8, ∃ d : List Byte, ∃ s : State, s.die.running = true ∧
    (settle s).refusals p = [] ∧ (settle s).die.legal.lastSerial < 2 ^ 64 - 1) ∧
  (∃ g : Word, ∃ p : Fin 64, ∃ a : Word, ∃ m : BitVec 8, ∃ d : List Byte, ∃ k : Nat, ∃ s : State,
    s.die.running = true ∧ ((settle s).refusals p).head? = some k) ∧
  (∃ g : Word, ∃ p : Fin 64, ∃ a : Word, ∃ n : BitVec 64, ∃ c : BitVec 8, ∃ r : Rec, ∃ s : State,
    s.die.running = true ∧ (settle s).bill n.toNat = some r ∧ r.point = p.val ∧ r.handle = a.toNat ∧ r.st =
    .open) ∧
  (∃ g : Word, ∃ p : Fin 64, ∃ a : Word, ∃ n : BitVec 64, ∃ c : BitVec 8, ∃ s : State, s.die.running = true ∧
    (settle s).named p a.toNat n.toNat = none) ∧
  (∃ g : Word, ∃ p : Fin 64, ∃ a : Word, ∃ n : BitVec 64, ∃ s : State, s.die.running = true) ∧
  (∃ n : BitVec 64, ∃ r : Rec, ∃ s : State, s.die.running = true ∧ s.bill n.toNat = some r ∧ r.st = .closing) ∧
  (∃ q : Rq, ∃ n : BitVec 64, ∃ s : State, s.die.running = true ∧ s.mayWrite q.role rO = true) ∧
  (∃ g : Word, ∃ p : Fin 64, ∃ a : Word, ∃ s : State, s.die.running = true) ∧
  (∃ g : Word, ∃ p : Fin 64, ∃ a : Word, ∃ n : BitVec 64, ∃ r : Rec, ∃ s : State, s.die.running = true ∧
    s.bill n.toNat = some r ∧ r.st ≠ .signed) ∧
  (∃ g : Word, ∃ p : Fin 64, ∃ a : Word, ∃ n : BitVec 64, ∃ r : Rec, ∃ s : State, s.die.running = true ∧
    s.bill n.toNat = some r ∧ r.st = .open ∧ s.basis1 = true ∧ r.since = none) ∧
  (∃ g : Word, ∃ p : Fin 64, ∃ a : Word, ∃ n : BitVec 64, ∃ c : BitVec 8, ∃ r : Rec, ∃ s : State,
    s.die.running = true ∧ s.bill n.toNat = some r ∧ r.st ≠ .signed ∧ s.basis1 = true) ∧
  (∃ g : Word, ∃ p : Fin 64, ∃ a : Word, ∃ n : BitVec 64, ∃ i : BitVec 16, ∃ d : List Byte, ∃ r : Rec, ∃ s :
    State, s.die.running = true ∧ s.bill n.toNat = some r ∧ r.st ≠ .signed) ∧
  (∃ q : Rq, ∃ k : Fin 256, ∃ n : BitVec 64, ∃ r : Rec, ∃ s : State, s.die.running = true ∧ s.bill n.toNat =
    some r ∧ q.role = .firmware ∧ r.st = .open) ∧
  (∃ q : Rq, ∃ k : Fin 256, ∃ n : BitVec 64, ∃ s : State, s.die.running = true ∧ s.bill n.toNat = none) ∧
  (∃ q : Rq, ∃ p : Fin 64, ∃ n : BitVec 64, ∃ r : Rec, ∃ s : State, s.die.running = true ∧ s.bill n.toNat =
    some r ∧ r.point = p.val ∧ (q.role = .firmware ∨ q.role = .customer ∨ q.role = .operator) ∧ s.dieRole
    q.role = true) ∧
  (∃ g : Word, ∃ p : Fin 64, ∃ a : Word, ∃ m : BitVec 8, ∃ d : List Byte, ∃ s : State, s.die.running = true ∧
    (settle s).refusals p = [] ∧ 2 ^ 64 - 1 ≤ (settle s).die.legal.lastSerial) ∧
  (∃ g : Word, ∃ p : Fin 64, ∃ a : Word, ∃ n : BitVec 64, ∃ c : BitVec 8, ∃ r : Rec, ∃ s : State,
    s.die.running = true ∧ (settle s).bill n.toNat = some r ∧ r.point = p.val ∧ r.handle = a.toNat ∧ r.st ≠
    .open) ∧
  (∃ n : BitVec 64, ∃ s : State, ∀ r, s.bill n.toNat = some r → r.st ≠ .closing) ∧
  (∃ q : Rq, ∃ n : BitVec 64, ∃ s : State, s.die.running = true ∧ s.mayWrite q.role rO = false) ∧
  (∃ g : Word, ∃ p : Fin 64, ∃ a : Word, ∃ n : BitVec 64, ∃ r : Rec, ∃ s : State, s.die.running = true ∧
    s.bill n.toNat = some r ∧ r.st ≠ .signed ∧ (r.st ≠ .open ∨ s.basis1 = false ∨ r.since ≠ none)) ∧
  (∃ g : Word, ∃ p : Fin 64, ∃ a : Word, ∃ n : BitVec 64, ∃ c : BitVec 8, ∃ r : Rec, ∃ s : State,
    s.die.running = true ∧ s.bill n.toNat = some r ∧ r.st ≠ .signed ∧ s.basis1 = false) ∧
  (∃ q : Rq, ∃ k : Fin 256, ∃ n : BitVec 64, ∃ r : Rec, ∃ s : State, s.die.running = true ∧ s.bill n.toNat =
    some r ∧ s.dieRole q.role = true ∧ (q.role = .firmware ∨ granted rCOV q.role = true) ∧ ¬ (q.role =
    .firmware ∧ r.st = .open)) ∧
  (∃ q : Rq, ∃ k : Fin 256, ∃ n : BitVec 64, ∃ r : Rec, ∃ s : State, s.die.running = true ∧ s.bill n.toNat =
    some r ∧ (s.dieRole q.role = false ∨ (q.role ≠ .firmware ∧ granted rCOV q.role = false))) ∧
  (∃ q : Rq, ∃ p : Fin 64, ∃ n : BitVec 64, ∃ s : State, s.die.running = true ∧ (s.bill n.toNat).filter (fun r
    => r.point = p.val) = none ∧ (q.role = .firmware ∨ q.role = .customer ∨ q.role = .operator) ∧ s.dieRole
    q.role = true) ∧
  (∃ q : Rq, ∃ p : Fin 64, ∃ n : BitVec 64, ∃ s : State, s.die.running = true ∧ (s.dieRole q.role = false ∨
    (q.role ≠ .firmware ∧ q.role ≠ .customer ∧ q.role ≠ .operator))) ∧
  (∃ g : Word, ∃ p : Fin 64, ∃ a : Word, ∃ n : BitVec 64, ∃ s : State, s.die.running = true ∧ (s.bill
    n.toNat).filter (fun r => r.st ≠ .signed) = none) ∧
  (∃ g : Word, ∃ p : Fin 64, ∃ a : Word, ∃ n : BitVec 64, ∃ s : State, s.die.running = true ∧ (s.bill
    n.toNat).filter (fun r => r.st ≠ .signed) = none) ∧
  (∃ g : Word, ∃ p : Fin 64, ∃ a : Word, ∃ n : BitVec 64, ∃ c : BitVec 8, ∃ s : State, s.die.running = true ∧
    (s.bill n.toNat).filter (fun r => r.st ≠ .signed) = none) ∧
  (∃ g : Word, ∃ p : Fin 64, ∃ a : Word, ∃ n : BitVec 64, ∃ i : BitVec 16, ∃ d : List Byte, ∃ s : State,
    s.die.running = true ∧ (s.bill n.toNat).filter (fun r => r.st ≠ .signed) = none) ∧
  (∃ g : Word, ∃ p : Fin 64, ∃ a : Word, ∃ n : BitVec 64, ∃ s : State, s.die.running = false) ∧
  (∃ g : Word, ∃ p : Fin 64, ∃ a : Word, ∃ n : BitVec 64, ∃ s : State, s.die.running = false) ∧
  (∃ g : Word, ∃ p : Fin 64, ∃ a : Word, ∃ n : BitVec 64, ∃ c : BitVec 8, ∃ s : State, s.die.running = false) ∧
  (∃ g : Word, ∃ p : Fin 64, ∃ a : Word, ∃ n : BitVec 64, ∃ i : BitVec 16, ∃ d : List Byte, ∃ s : State,
    s.die.running = false) ∧
  (∃ g : Word, ∃ p : Fin 64, ∃ a : Word, ∃ m : BitVec 8, ∃ d : List Byte, ∃ s : State, s.die.running = false) ∧
  (∃ g : Word, ∃ p : Fin 64, ∃ a : Word, ∃ n : BitVec 64, ∃ c : BitVec 8, ∃ s : State, s.die.running = false) ∧
  (∃ g : Word, ∃ p : Fin 64, ∃ a : Word, ∃ n : BitVec 64, ∃ s : State, s.die.running = false) ∧
  (∃ n : BitVec 64, ∃ s : State, s.die.running = false) ∧
  (∃ q : Rq, ∃ n : BitVec 64, ∃ s : State, s.die.running = false) ∧
  (∃ g : Word, ∃ p : Fin 64, ∃ a : Word, ∃ s : State, s.die.running = false) ∧
  (∃ q : Rq, ∃ k : Fin 256, ∃ n : BitVec 64, ∃ s : State, s.die.running = false) ∧
  (∃ q : Rq, ∃ p : Fin 64, ∃ n : BitVec 64, ∃ s : State, s.die.running = false) :=
  ⟨⟨1, 2, 7, 1, [], { State.reset with die.running := true, die.legal.active := [1], die.panels := State.reset.die.panels.set 0 { st := .on }, die.obj := (State.reset.die.obj.set (0x5322 * 256 + 1) (some [1])).set (0x7800 * 256 + 8) (some [4]) }, by decide +kernel⟩,
   ⟨1, 2, 7, 1, [], 1, { State.reset with die.running := true }, by decide +kernel⟩,
   ⟨1, 2, 7, 5, 1, { serial := 5, point := 2, handle := 7 }, { State.reset with die.running := true, die.cur.recs := [{ serial := 5, point := 2, handle := 7 }] }, by decide +kernel⟩,
   ⟨1, 2, 7, 6, 1, { State.reset with die.running := true, die.cur.recs := [{ serial := 5, point := 2, handle := 7 }] }, by decide +kernel⟩,
   ⟨1, 2, 7, 5, { State.reset with die.running := true, die.cur.recs := [{ serial := 5, point := 2, handle := 7 }] }, by decide +kernel⟩,
   ⟨5, { serial := 5, point := 2, handle := 7, st := .closing }, { State.reset with die.running := true, die.cur.recs := [{ serial := 5, point := 2, handle := 7, st := .closing }] }, by decide +kernel⟩,
   ⟨⟨.operator, 7⟩, 5, { State.reset with die.running := true, die.cur.recs := [{ serial := 5, point := 2, handle := 7 }] }, by decide +kernel⟩,
   ⟨1, 2, 7, { State.reset with die.running := true }, by decide +kernel⟩,
   ⟨1, 2, 7, 5, { serial := 5, point := 2, handle := 7 }, { State.reset with die.running := true, die.cur.recs := [{ serial := 5, point := 2, handle := 7 }] }, by decide +kernel⟩,
   ⟨1, 2, 7, 5, { serial := 5, point := 2, handle := 7 }, { State.reset with die.running := true, die.cur.recs := [{ serial := 5, point := 2, handle := 7 }], die.legal.active := List.replicate 14 0 ++ [1] }, by decide +kernel⟩,
   ⟨1, 2, 7, 5, 1, { serial := 5, point := 2, handle := 7 }, { State.reset with die.running := true, die.cur.recs := [{ serial := 5, point := 2, handle := 7 }], die.legal.active := List.replicate 14 0 ++ [1] }, by decide +kernel⟩,
   ⟨1, 2, 7, 5, 1, [], { serial := 5, point := 2, handle := 7 }, { State.reset with die.running := true, die.cur.recs := [{ serial := 5, point := 2, handle := 7 }] }, by decide +kernel⟩,
   ⟨⟨.firmware, 7⟩, 3, 5, { serial := 5, point := 2, handle := 7 }, { State.reset with die.running := true, die.cur.recs := [{ serial := 5, point := 2, handle := 7 }] }, by decide +kernel⟩,
   ⟨⟨.firmware, 7⟩, 3, 6, { State.reset with die.running := true, die.cur.recs := [{ serial := 5, point := 2, handle := 7 }] }, by decide +kernel⟩,
   ⟨⟨.operator, 7⟩, 2, 5, { serial := 5, point := 2, handle := 7 }, { State.reset with die.running := true, die.cur.recs := [{ serial := 5, point := 2, handle := 7 }] }, by decide +kernel⟩,
   ⟨1, 2, 7, 1, [], { State.reset with die.running := true, die.legal.lastSerial := 2 ^ 64 - 1, die.legal.active := [1], die.panels := State.reset.die.panels.set 0 { st := .on }, die.obj := (State.reset.die.obj.set (0x5322 * 256 + 1) (some [1])).set (0x7800 * 256 + 8) (some [4]) }, by decide +kernel⟩,
   ⟨1, 2, 7, 5, 1, { serial := 5, point := 2, handle := 7, st := .closing }, { State.reset with die.running := true, die.cur.recs := [{ serial := 5, point := 2, handle := 7, st := .closing }] }, by decide +kernel⟩,
   ⟨6, State.reset, fun r h => by cases h⟩,
   ⟨⟨.pub, 7⟩, 5, { State.reset with die.running := true }, by decide +kernel⟩,
   ⟨1, 2, 7, 5, { serial := 5, point := 2, handle := 7 }, { State.reset with die.running := true, die.cur.recs := [{ serial := 5, point := 2, handle := 7 }] }, by decide +kernel⟩,
   ⟨1, 2, 7, 5, 1, { serial := 5, point := 2, handle := 7 }, { State.reset with die.running := true, die.cur.recs := [{ serial := 5, point := 2, handle := 7 }] }, by decide +kernel⟩,
   ⟨⟨.operator, 7⟩, 3, 5, { serial := 5, point := 2, handle := 7 }, { State.reset with die.running := true, die.cur.recs := [{ serial := 5, point := 2, handle := 7 }] }, by decide +kernel⟩,
   ⟨⟨.pub, 7⟩, 3, 5, { serial := 5, point := 2, handle := 7 }, { State.reset with die.running := true, die.cur.recs := [{ serial := 5, point := 2, handle := 7 }] }, by decide +kernel⟩,
   ⟨⟨.operator, 7⟩, 2, 6, { State.reset with die.running := true, die.cur.recs := [{ serial := 5, point := 2, handle := 7 }] }, by decide +kernel⟩,
   ⟨⟨.pub, 7⟩, 2, 6, { State.reset with die.running := true, die.cur.recs := [{ serial := 5, point := 2, handle := 7 }] }, by decide +kernel⟩,
   ⟨1, 2, 7, 5, { State.reset with die.running := true }, by decide +kernel⟩,
   ⟨1, 2, 7, 5, { State.reset with die.running := true }, by decide +kernel⟩,
   ⟨1, 2, 7, 5, 1, { State.reset with die.running := true }, by decide +kernel⟩,
   ⟨1, 2, 7, 5, 1, [], { State.reset with die.running := true }, by decide +kernel⟩,
   ⟨1, 2, 7, 5, State.reset, by decide +kernel⟩,
   ⟨1, 2, 7, 5, State.reset, by decide +kernel⟩,
   ⟨1, 2, 7, 5, 1, State.reset, by decide +kernel⟩,
   ⟨1, 2, 7, 5, 1, [], State.reset, by decide +kernel⟩,
   ⟨1, 2, 7, 1, [], State.reset, by decide +kernel⟩,
   ⟨1, 2, 7, 5, 1, State.reset, by decide +kernel⟩,
   ⟨1, 2, 7, 5, State.reset, by decide +kernel⟩,
   ⟨5, State.reset, by decide +kernel⟩,
   ⟨⟨.pub, 7⟩, 5, State.reset, by decide +kernel⟩,
   ⟨1, 2, 7, State.reset, by decide +kernel⟩,
   ⟨⟨.pub, 7⟩, 3, 5, State.reset, by decide +kernel⟩,
   ⟨⟨.pub, 7⟩, 2, 5, State.reset, by decide +kernel⟩⟩

/-- The hypotheses of `Obligations.LegalTimeCalendarAndTokens` are met. -/
theorem witness_legalTimeCalendarAndTokens :
  (∃ q : Rq, ∃ v : Nat, ∃ s : State, s.die.running = true ∧ s.dieRole q.role = true ∧ (q.role = .operator ∨
    q.role = .verifier) ∧ (v : Int) ≠ s.die.legal.lt ∧ (q.role = .verifier ∨ s.die.legal.ltStat.getLsbD 0 =
    true ∨ s.stepSum + ((v : Int) - s.die.legal.lt).natAbs ≤ 60000) ∧ s.logLow = false) ∧
  (∃ q : Rq, ∃ v : Nat, ∃ s : State, s.die.running = true ∧ s.dieRole q.role = true ∧ (q.role = .operator ∨
    q.role = .verifier) ∧ (v : Int) = s.die.legal.lt) ∧
  (∃ q : Rq, ∃ v : Nat, ∃ s : State, s.die.running = true ∧ (s.dieRole q.role = false ∨ ¬ (q.role = .operator
    ∨ q.role = .verifier) ∨ ((v : Int) ≠ s.die.legal.lt ∧ q.role ≠ .verifier ∧ s.die.legal.ltStat.getLsbD 0 =
    false ∧ 60000 < s.stepSum + ((v : Int) - s.die.legal.lt).natAbs))) ∧
  (∃ q : Rq, ∃ v : Nat, ∃ s : State, s.die.running = true ∧ s.dieRole q.role = true ∧ (q.role = .operator ∨
    q.role = .verifier) ∧ (v : Int) ≠ s.die.legal.lt ∧ (q.role = .verifier ∨ s.die.legal.ltStat.getLsbD 0 =
    true ∨ s.stepSum + ((v : Int) - s.die.legal.lt).natAbs ≤ 60000) ∧ s.logLow = true) ∧
  (∃ q : Rq, ∃ m : Int, ∃ s : State, s.die.running = true ∧ s.mayWrite q.role rO = true ∧ -720 ≤ m ∧ m ≤ 840 ∧
    m % 15 = 0) ∧
  (∃ q : Rq, ∃ m : Int, ∃ s : State, s.die.running = true ∧ s.mayWrite q.role rO = true ∧ ¬ (-720 ≤ m ∧ m ≤
    840 ∧ m % 15 = 0)) ∧
  (∃ q : Rq, ∃ m : Int, ∃ s : State, s.die.running = true ∧ s.mayWrite q.role rO = false) ∧
  (∃ c : Nat × Int, ∃ s : State, s.die.running = true ∧ (settle s).dueChange = some c) ∧
  (∃ s : State, s.die.running = true ∧ (settle s).dueChange = none) ∧
  (∃ q : Rq, ∃ o n : Nat, ∃ d v : List Byte, ∃ u : State, ∃ s : State, s.die.running = true ∧ s.mayWrite
    q.role rO = true ∧ n ≤ 3712 ∧ stagePart 0x5600 1 o n d s = (.ok, some v, u)) ∧
  (∃ q : Rq, ∃ o n : Nat, ∃ d : List Byte, ∃ x : Status, ∃ u : State, ∃ s : State, s.die.running = true ∧
    s.mayWrite q.role rO = true ∧ n ≤ 3712 ∧ stagePart 0x5600 1 o n d s = (x, none, u)) ∧
  (∃ q : Rq, ∃ o n : Nat, ∃ d : List Byte, ∃ s : State, s.die.running = true ∧ s.mayWrite q.role rO = true ∧
    3712 < n) ∧
  (∃ q : Rq, ∃ o n : Nat, ∃ d : List Byte, ∃ s : State, s.die.running = true ∧ s.mayWrite q.role rO = false) ∧
  (∃ q : Rq, ∃ v : Nat, ∃ s : State, s.die.running = true ∧ s.mayWrite q.role rO = true ∧
    (s.die.legal.passiveSt = 1 ∨ s.die.legal.passiveSt = 2) ∧ s.logLow = false ∧ s.die.legal.lt < v * 1000) ∧
  (∃ q : Rq, ∃ v : Nat, ∃ s : State, s.die.running = true ∧ s.mayWrite q.role rO = true ∧
    (s.die.legal.passiveSt = 1 ∨ s.die.legal.passiveSt = 2) ∧ s.logLow = false ∧ v * 1000 ≤ s.die.legal.lt) ∧
  (∃ q : Rq, ∃ v : Nat, ∃ s : State, s.die.running = true ∧ s.mayWrite q.role rO = true ∧
    (s.die.legal.passiveSt = 1 ∨ s.die.legal.passiveSt = 2) ∧ s.logLow = true) ∧
  (∃ q : Rq, ∃ v : Nat, ∃ s : State, s.die.running = true ∧ s.mayWrite q.role rO = true ∧ ¬
    (s.die.legal.passiveSt = 1 ∨ s.die.legal.passiveSt = 2)) ∧
  (∃ q : Rq, ∃ v : Nat, ∃ s : State, s.die.running = true ∧ s.mayWrite q.role rO = false) ∧
  (∃ s : State, s.die.running = true ∧ s.die.legal.passiveSt = 2 ∧ s.die.legal.actAt * 1000 ≤ s.die.legal.lt ∧
    s.logLow = false) ∧
  (∃ s : State, s.die.running = true ∧ (s.die.legal.passiveSt ≠ 2 ∨ s.die.legal.lt < s.die.legal.actAt * 1000
    ∨ s.logLow = true)) ∧
  (∃ s : State, s.die.running = true) ∧
  (∃ s : State, s.die.running = true ∧ s.die.cur.intEnd ≤ s.die.legal.lt) ∧
  (∃ s : State, s.die.running = true ∧ s.die.legal.lt < s.die.cur.intEnd) ∧
  (∃ q : Rq, ∃ p : Fin 64, ∃ s : State, s.die.running = true ∧ (s.mayWrite q.role rO = false ∨ s.logLow =
    true)) ∧
  (∃ q : Rq, ∃ d : List Byte, ∃ s : State, s.die.running = true ∧ (s.mayWrite q.role rO = false ∨ d.length ≠
    32 ∨ s.logLow = true ∨ 255 ≤ s.die.legal.tkGen)) ∧
  (∃ b : Bool, ∃ s : State, s.die.inReset = true) ∧
  (∃ b : Bool, ∃ s : State, s.die.inReset = false) ∧
  (∃ q : Rq, ∃ p : Fin 64, ∃ s : State, s.die.running = true ∧ s.mayWrite q.role rO = true ∧ s.logLow = false) ∧
  (∃ q : Rq, ∃ d : List Byte, ∃ s : State, s.die.running = true ∧ s.mayWrite q.role rO = true ∧ d.length = 32
    ∧ s.logLow = false ∧ s.die.legal.tkGen < 255) ∧
  (∃ q : Rq, ∃ n : Nat, ∃ s : State, s.die.running = true ∧ s.mayWrite q.role rV = true) ∧
  (∃ q : Rq, ∃ n : Nat, ∃ s : State, s.die.running = true ∧ s.mayWrite q.role rV = false) ∧
  (∃ p : Fin 64, ∃ x : Nat × Nat × Nat × Nat, ∃ s : State, s.die.running = true ∧ (s.die.cur.pts.get
    p).pending = some x ∧ x.2.2.2 + 1000 * s.snum 0x5800 6 < s.die.legal.mtk) ∧
  (∃ p : Fin 64, ∃ s : State, s.die.running = true ∧ (s.die.cur.pts.get p).pending = none) ∧
  (∃ p : Fin 64, ∃ x : Nat × Nat × Nat × Nat, ∃ s : State, s.die.running = true ∧ (s.die.cur.pts.get
    p).pending = some x ∧ s.die.legal.mtk ≤ x.2.2.2 + 1000 * s.snum 0x5800 6) ∧
  (∃ k : Nat, ∃ s : State, s.die.running = true ∧ s.die.legal.lockEnd = some k ∧ k ≤ s.die.legal.mtk) ∧
  (∃ s : State, ∀ k, s.die.legal.lockEnd = some k → s.die.legal.mtk < k) ∧
  (∃ s : State, s.die.running = true) ∧
  (∃ q : Rq, ∃ v : Nat, ∃ s : State, s.die.running = false) ∧
  (∃ q : Rq, ∃ m : Int, ∃ s : State, s.die.running = false) ∧
  (∃ s : State, s.die.running = false) ∧
  (∃ q : Rq, ∃ o n : Nat, ∃ d : List Byte, ∃ s : State, s.die.running = false) ∧
  (∃ q : Rq, ∃ v : Nat, ∃ s : State, s.die.running = false) ∧
  (∃ s : State, s.die.running = false) ∧
  (∃ s : State, s.die.running = false) ∧
  (∃ s : State, s.die.running = false) ∧
  (∃ q : Rq, ∃ p : Fin 64, ∃ s : State, s.die.running = false) ∧
  (∃ q : Rq, ∃ d : List Byte, ∃ s : State, s.die.running = false) ∧
  (∃ q : Rq, ∃ n : Nat, ∃ s : State, s.die.running = false) ∧
  (∃ p : Fin 64, ∃ s : State, s.die.running = false) ∧
  (∃ s : State, s.die.running = false) ∧
  (∃ s : State, s.die.running = false) :=
  ⟨⟨⟨.operator, 7⟩, 1000, { State.reset with die.running := true }, by decide +kernel⟩,
   ⟨⟨.operator, 7⟩, 0, { State.reset with die.running := true }, by decide +kernel⟩,
   ⟨⟨.pub, 7⟩, 0, { State.reset with die.running := true }, by decide +kernel⟩,
   ⟨⟨.operator, 7⟩, 1000, { State.reset with die.running := true, die.legal.log := (List.replicate 8200 ⟨0, 0, 0, 0, []⟩) }, by decide +kernel⟩,
   ⟨⟨.operator, 7⟩, 60, { State.reset with die.running := true }, by decide +kernel⟩,
   ⟨⟨.operator, 7⟩, 61, { State.reset with die.running := true }, by decide +kernel⟩,
   ⟨⟨.pub, 7⟩, 60, { State.reset with die.running := true }, by decide +kernel⟩,
   ⟨(5, 60), { State.reset with die.running := true, die.legal.lt := 10000, die.legal.active := List.replicate 20 0 ++ [1] ++ List.replicate 11 0 ++ [5, 0, 0, 0, 0, 0, 0, 0, 60, 0, 0, 0] }, by decide +kernel⟩,
   ⟨{ State.reset with die.running := true }, by decide +kernel⟩,
   ⟨⟨.operator, 7⟩, 0, 1, [1], [1], _, { State.reset with die.running := true }, ⟨by decide +kernel, by decide +kernel, by decide +kernel, rfl⟩⟩,
   ⟨⟨.operator, 7⟩, 0, 2, [1], _, _, { State.reset with die.running := true }, ⟨by decide +kernel, by decide +kernel, by decide +kernel, rfl⟩⟩,
   ⟨⟨.operator, 7⟩, 0, 4000, [1], { State.reset with die.running := true }, by decide +kernel⟩,
   ⟨⟨.pub, 7⟩, 0, 1, [1], { State.reset with die.running := true }, by decide +kernel⟩,
   ⟨⟨.operator, 7⟩, 5, { State.reset with die.running := true, die.legal.passiveSt := 1 }, by decide +kernel⟩,
   ⟨⟨.operator, 7⟩, 0, { State.reset with die.running := true, die.legal.passiveSt := 1 }, by decide +kernel⟩,
   ⟨⟨.operator, 7⟩, 0, { State.reset with die.running := true, die.legal.passiveSt := 1, die.legal.log := (List.replicate 8200 ⟨0, 0, 0, 0, []⟩) }, by decide +kernel⟩,
   ⟨⟨.operator, 7⟩, 0, { State.reset with die.running := true }, by decide +kernel⟩,
   ⟨⟨.pub, 7⟩, 0, { State.reset with die.running := true }, by decide +kernel⟩,
   ⟨{ State.reset with die.running := true, die.legal.passiveSt := 2 }, by decide +kernel⟩,
   ⟨{ State.reset with die.running := true }, by decide +kernel⟩,
   ⟨{ State.reset with die.running := true }, by decide +kernel⟩,
   ⟨{ State.reset with die.running := true, die.cur.intEnd := 0 }, by decide +kernel⟩,
   ⟨{ State.reset with die.running := true, die.cur.intEnd := 5 }, by decide +kernel⟩,
   ⟨⟨.pub, 7⟩, 3, { State.reset with die.running := true }, by decide +kernel⟩,
   ⟨⟨.pub, 7⟩, [], { State.reset with die.running := true }, by decide +kernel⟩,
   ⟨true, { State.reset with die.inReset := true }, by decide +kernel⟩,
   ⟨true, { State.reset with die.inReset := false }, by decide +kernel⟩,
   ⟨⟨.operator, 7⟩, 3, { State.reset with die.running := true }, by decide +kernel⟩,
   ⟨⟨.operator, 7⟩, List.replicate 32 0, { State.reset with die.running := true }, by decide +kernel⟩,
   ⟨⟨.verifier, 7⟩, 5, { State.reset with die.running := true }, by decide +kernel⟩,
   ⟨⟨.operator, 7⟩, 5, { State.reset with die.running := true }, by decide +kernel⟩,
   ⟨3, (1, 5, 1, 0), { State.reset with die.running := true, die.legal.mtk := 100000000000, die.cur.pts := State.reset.die.cur.pts.set 3 { pending := some (1, 5, 1, 0) } }, by decide +kernel⟩,
   ⟨3, { State.reset with die.running := true }, by decide +kernel⟩,
   ⟨3, (1, 5, 1, 0), { State.reset with die.running := true, die.cur.pts := State.reset.die.cur.pts.set 3 { pending := some (1, 5, 1, 0) } }, by decide +kernel⟩,
   ⟨0, { State.reset with die.running := true, die.legal.lockEnd := some 0 }, by decide +kernel⟩,
   ⟨State.reset, fun k h => by cases h⟩,
   ⟨{ State.reset with die.running := true }, by decide +kernel⟩,
   ⟨⟨.pub, 7⟩, 0, State.reset, by decide +kernel⟩,
   ⟨⟨.pub, 7⟩, 0, State.reset, by decide +kernel⟩,
   ⟨State.reset, by decide +kernel⟩,
   ⟨⟨.pub, 7⟩, 0, 0, [], State.reset, by decide +kernel⟩,
   ⟨⟨.pub, 7⟩, 0, State.reset, by decide +kernel⟩,
   ⟨State.reset, by decide +kernel⟩,
   ⟨State.reset, by decide +kernel⟩,
   ⟨State.reset, by decide +kernel⟩,
   ⟨⟨.pub, 7⟩, 0, State.reset, by decide +kernel⟩,
   ⟨⟨.pub, 7⟩, [], State.reset, by decide +kernel⟩,
   ⟨⟨.pub, 7⟩, 0, State.reset, by decide +kernel⟩,
   ⟨0, State.reset, by decide +kernel⟩,
   ⟨State.reset, by decide +kernel⟩,
   ⟨State.reset, by decide +kernel⟩⟩

/-- The hypotheses of `Obligations.PanelSequencesAndFrames` are met. -/
theorem witness_panelSequencesAndFrames :
  (∃ m : Fin 2, ∃ s : State, s.die.running = true ∧ s.power.pfin = false ∧ ((s.panel m).st = .off ∨ ((s.panel
    m).st = .failed ∧ (s.panel m).rearm = true)) ∧ s.linkUp = true) ∧
  (∃ m : Fin 2, ∃ s : State, s.die.running = true ∧ s.power.pfin = false ∧ ((s.panel m).st = .off ∨ ((s.panel
    m).st = .failed ∧ (s.panel m).rearm = true)) ∧ s.linkUp = true) ∧
  (∃ m : Fin 2, ∃ b : Bool, ∃ s : State, s.die.running = true ∧ s.power.pfin = false ∧ ((s.panel m).st = .off
    ∨ ((s.panel m).st = .failed ∧ (s.panel m).rearm = true)) ∧ s.linkUp = false) ∧
  (∃ m : Fin 2, ∃ b : Bool, ∃ s : State, s.die.running = true ∧ (s.panel m).st = .starting ∧ (s.panel m).wait
    = .none ∧ s.linkUp = true) ∧
  (∃ m : Fin 2, ∃ b : Bool, ∃ s : State, s.die.running = true ∧ (s.power.pfin = true ∨ ((s.panel m).st ≠ .off
    ∧ ¬ ((s.panel m).st = .failed ∧ (s.panel m).rearm = true))) ∧ ((s.panel m).st ≠ .starting ∨ (s.panel
    m).wait ≠ .none ∨ s.linkUp = false)) ∧
  (∃ m : Fin 2, ∃ s : State, s.die.running = true ∧ (s.panel m).wait = .clear ∧ (s.panel m).retry = true ∧
    s.linkUp = true) ∧
  (∃ m : Fin 2, ∃ s : State, s.die.running = true ∧ ((s.panel m).wait ≠ .clear ∨ (s.panel m).retry = false ∨
    s.linkUp = false)) ∧
  (∃ m : Fin 2, ∃ s : State, s.die.running = true ∧ (s.panel m).st = .starting) ∧
  (∃ m : Fin 2, ∃ s : State, s.die.running = true ∧ (s.panel m).st ≠ .starting) ∧
  (∃ m : Fin 2, ∃ s : State, s.die.running = true ∧ ((s.panel m).st = .on ∨ (s.panel m).st = .starting) ∧
    s.linkUp = true) ∧
  (∃ m : Fin 2, ∃ s : State, s.die.running = true ∧ ((s.panel m).st = .on ∨ (s.panel m).st = .starting) ∧
    s.linkUp = false) ∧
  (∃ m : Fin 2, ∃ s : State, s.die.running = true ∧ (s.panel m).st ≠ .on ∧ (s.panel m).st ≠ .starting) ∧
  (∃ m : Fin 2, ∃ k : Nat, ∃ l : List (Fin 480), ∃ s : State, s.die.running = true ∧ (s.panel m).st = .on ∧
    (s.panel m).wait ≠ .stop ∧ (¬ (2 < k ∨ 16 < l.length) ∨ (s.panel m).faulty < 2)) ∧
  (∃ m : Fin 2, ∃ k : Nat, ∃ l : List (Fin 480), ∃ s : State, s.die.running = true ∧ (s.panel m).st = .on ∧
    (s.panel m).wait ≠ .stop ∧ (2 < k ∨ 16 < l.length) ∧ 2 ≤ (s.panel m).faulty) ∧
  (∃ m : Fin 2, ∃ k : Nat, ∃ l : List (Fin 480), ∃ s : State, s.die.running = true ∧ (s.panel m).wait = .stop) ∧
  (∃ m : Fin 2, ∃ k : Nat, ∃ l : List (Fin 480), ∃ s : State, s.die.running = true ∧ (s.panel m).st ≠ .on ∧
    (s.panel m).wait ≠ .stop) ∧
  (∃ m : Fin 2, ∃ e : BitVec 8, ∃ s : State, s.die.running = true ∧ ((s.panel m).blink.get e.toNat).due = true) ∧
  (∃ m : Fin 2, ∃ e : BitVec 8, ∃ s : State, s.die.running = true ∧ ((s.panel m).blink.get e.toNat).due =
    false) ∧
  (∃ m : Fin 2, ∃ s : State, s.die.running = true ∧ (s.panel m).st = .on) ∧
  (∃ m : Fin 2, ∃ s : State, s.die.running = true ∧ (s.panel m).st ≠ .on) ∧
  (∃ m : Fin 2, ∃ s : State, s.die.running = true ∧ (s.panel m).st = .on) ∧
  (∃ m : Fin 2, ∃ s : State, s.die.running = true ∧ (s.panel m).st ≠ .on) ∧
  (∃ q : Rq, ∃ m : Fin 2, ∃ x y w k : Nat, ∃ s : State, s.die.running = true ∧ (s.panel m).st ≠ .on ∧
    s.mayWrite q.role rO = true ∧ s.geomOk m x y w k = true ∧ s.panelBusy m = false) ∧
  (∃ q : Rq, ∃ m : Fin 2, ∃ x y w k : Nat, ∃ s : State, s.die.running = true ∧ (s.panel m).st = .on ∧
    s.mayWrite q.role rO = true ∧ s.geomOk m x y w k = true ∧ s.panelBusy m = false) ∧
  (∃ q : Rq, ∃ m : Fin 2, ∃ x y w k : Nat, ∃ s : State, s.die.running = true ∧ s.mayWrite q.role rO = true ∧
    s.geomOk m x y w k = true ∧ s.panelBusy m = true) ∧
  (∃ q : Rq, ∃ m : Fin 2, ∃ x y w k : Nat, ∃ s : State, s.die.running = true ∧ s.mayWrite q.role rO = true ∧
    s.geomOk m x y w k = false) ∧
  (∃ q : Rq, ∃ m : Fin 2, ∃ x y w k : Nat, ∃ s : State, s.die.running = true ∧ s.mayWrite q.role rO = false) ∧
  (∃ p : Fin 24, ∃ v : Word, ∃ s : State, p.val ≠ 21 ∨ s.app.lane.fault = true) ∧
  (∃ v : Word, ∃ s : State, s.app.lane.fault = false ∧ s.power.clkOk = true) ∧
  (∃ v : Word, ∃ s : State, s.app.lane.fault = false ∧ s.power.clkOk = false) ∧
  (∃ m : Fin 2, ∃ b : Bool, ∃ s : State, s.die.running = false) ∧
  (∃ m : Fin 2, ∃ s : State, s.die.running = false) ∧
  (∃ m : Fin 2, ∃ s : State, s.die.running = false) ∧
  (∃ m : Fin 2, ∃ s : State, s.die.running = false) ∧
  (∃ m : Fin 2, ∃ k : Nat, ∃ l : List (Fin 480), ∃ s : State, s.die.running = false) ∧
  (∃ m : Fin 2, ∃ e : BitVec 8, ∃ s : State, s.die.running = false) ∧
  (∃ m : Fin 2, ∃ s : State, s.die.running = false) ∧
  (∃ m : Fin 2, ∃ s : State, s.die.running = false) ∧
  (∃ q : Rq, ∃ m : Fin 2, ∃ x y w k : Nat, ∃ s : State, s.die.running = false) :=
  ⟨⟨1, { State.reset with die.running := true, app.link.key := some 0, die.link.key := some 0 }, by decide +kernel⟩,
   ⟨1, { State.reset with die.running := true, app.link.key := some 0, die.link.key := some 0 }, by decide +kernel⟩,
   ⟨1, true, { State.reset with die.running := true }, by decide +kernel⟩,
   ⟨1, true, { State.reset with die.running := true, die.panels := State.reset.die.panels.set 1 { st := .starting }, app.link.key := some 0, die.link.key := some 0 }, by decide +kernel⟩,
   ⟨1, true, { State.reset with die.running := true, die.panels := State.reset.die.panels.set 1 { st := .on } }, by decide +kernel⟩,
   ⟨1, { State.reset with die.running := true, die.panels := State.reset.die.panels.set 1 { st := .starting, wait := .clear, retry := true }, app.link.key := some 0, die.link.key := some 0 }, by decide +kernel⟩,
   ⟨1, { State.reset with die.running := true }, by decide +kernel⟩,
   ⟨1, { State.reset with die.running := true, die.panels := State.reset.die.panels.set 1 { st := .starting } }, by decide +kernel⟩,
   ⟨1, { State.reset with die.running := true }, by decide +kernel⟩,
   ⟨1, { State.reset with die.running := true, die.panels := State.reset.die.panels.set 1 { st := .on }, app.link.key := some 0, die.link.key := some 0 }, by decide +kernel⟩,
   ⟨1, { State.reset with die.running := true, die.panels := State.reset.die.panels.set 1 { st := .on } }, by decide +kernel⟩,
   ⟨1, { State.reset with die.running := true, die.panels := State.reset.die.panels.set 1 { st := .failed } }, by decide +kernel⟩,
   ⟨1, 0, [], { State.reset with die.running := true, die.panels := State.reset.die.panels.set 1 { st := .on } }, by decide +kernel⟩,
   ⟨1, 3, [], { State.reset with die.running := true, die.panels := State.reset.die.panels.set 1 { st := .on, faulty := 2 } }, by decide +kernel⟩,
   ⟨1, 3, [], { State.reset with die.running := true, die.panels := State.reset.die.panels.set 1 { st := .stopping, wait := .stop } }, by decide +kernel⟩,
   ⟨1, 3, [], { State.reset with die.running := true }, by decide +kernel⟩,
   ⟨1, 3, { State.reset with die.running := true, die.panels := State.reset.die.panels.set 1 { st := .on, blink := (Panel.blink {}).set 3 ⟨4, 8, true, false, 8⟩ } }, by decide +kernel⟩,
   ⟨1, 3, { State.reset with die.running := true }, by decide +kernel⟩,
   ⟨1, { State.reset with die.running := true, die.panels := State.reset.die.panels.set 1 { st := .on } }, by decide +kernel⟩,
   ⟨1, { State.reset with die.running := true }, by decide +kernel⟩,
   ⟨1, { State.reset with die.running := true, die.panels := State.reset.die.panels.set 1 { st := .on } }, by decide +kernel⟩,
   ⟨1, { State.reset with die.running := true }, by decide +kernel⟩,
   ⟨⟨.operator, 7⟩, 1, 4, 4, 400, 120, { State.reset with die.running := true, die.obj := ((State.reset.die.obj.set (0x7801 * 256 + 2) (some [64, 2])).set (0x7801 * 256 + 3) (some [64, 2])) }, by decide +kernel⟩,
   ⟨⟨.operator, 7⟩, 1, 4, 4, 400, 120, { State.reset with die.running := true, die.panels := State.reset.die.panels.set 1 { st := .on }, die.obj := ((State.reset.die.obj.set (0x7801 * 256 + 2) (some [64, 2])).set (0x7801 * 256 + 3) (some [64, 2])) }, by decide +kernel⟩,
   ⟨⟨.operator, 7⟩, 1, 4, 4, 400, 120, { State.reset with die.running := true, die.cur.recs := [{ serial := 5, point := 2, handle := 7 }], die.obj := (((State.reset.die.obj.set (0x7801 * 256 + 2) (some [64, 2])).set (0x7801 * 256 + 3) (some [64, 2])).set (0x7801 * 256 + 8) (some [4])) }, by decide +kernel⟩,
   ⟨⟨.operator, 7⟩, 1, 4, 4, 40, 120, { State.reset with die.running := true }, by decide +kernel⟩,
   ⟨⟨.pub, 7⟩, 1, 4, 4, 40, 120, { State.reset with die.running := true }, by decide +kernel⟩,
   ⟨3, 5, State.reset, by decide +kernel⟩,
   ⟨5, { State.reset with power.clkOk := true }, by decide +kernel⟩,
   ⟨5, { State.reset with power.clkOk := false }, by decide +kernel⟩,
   ⟨1, true, State.reset, by decide +kernel⟩,
   ⟨1, State.reset, by decide +kernel⟩,
   ⟨1, State.reset, by decide +kernel⟩,
   ⟨1, State.reset, by decide +kernel⟩,
   ⟨1, 0, [], State.reset, by decide +kernel⟩,
   ⟨1, 1, State.reset, by decide +kernel⟩,
   ⟨1, State.reset, by decide +kernel⟩,
   ⟨1, State.reset, by decide +kernel⟩,
   ⟨⟨.operator, 7⟩, 1, 4, 4, 400, 120, State.reset, by decide +kernel⟩⟩

/-- The hypotheses of `Obligations.OverlayEntriesAndKeypad` are met. -/
theorem witness_overlayEntriesAndKeypad :
  (∃ q : Rq, ∃ m : Fin 2, ∃ x y w k : Nat, ∃ d : List Byte, ∃ s : State, s.die.running = true ∧ s.overlayCheck
    q.role m x y w k = .ok ∧ w * k = d.length ∧ d.length ≤ 224) ∧
  (∃ q : Rq, ∃ m : Fin 2, ∃ x y w k : Nat, ∃ d : List Byte, ∃ s : State, s.die.running = true ∧
    (s.overlayCheck q.role m x y w k ≠ .ok ∨ (w * k ≠ d.length ∨ 224 < d.length))) ∧
  (∃ q : Rq, ∃ m : Fin 2, ∃ x y w k : Nat, ∃ v : BitVec 8, ∃ s : State, s.die.running = true ∧ s.overlayCheck
    q.role m x y w k = .ok) ∧
  (∃ q : Rq, ∃ m : Fin 2, ∃ x y w k : Nat, ∃ v : BitVec 8, ∃ s : State, s.die.running = true ∧ s.overlayCheck
    q.role m x y w k ≠ .ok) ∧
  (∃ q : Rq, ∃ m : Fin 2, ∃ f : Nat, ∃ l : List (BitVec 24), ∃ s : State, s.die.running = true ∧ s.mayDraw
    q.role = true ∧ l.length ≤ 56 ∧ f + l.length ≤ 192) ∧
  (∃ q : Rq, ∃ m : Fin 2, ∃ f : Nat, ∃ l : List (BitVec 24), ∃ s : State, s.die.running = true ∧ (s.mayDraw
    q.role = false ∨ 56 < l.length ∨ 192 < f + l.length)) ∧
  (∃ q : Rq, ∃ m : Fin 2, ∃ i p : BitVec 8, ∃ n : Nat, ∃ b : Bool, ∃ s : State, s.die.running = true ∧
    s.mayDraw q.role = true ∧ n % 2 = 0 ∧ 8 ≤ n ∧ n ≤ 120 ∧ i.toNat ≤ 191) ∧
  (∃ q : Rq, ∃ m : Fin 2, ∃ i p : BitVec 8, ∃ n : Nat, ∃ b : Bool, ∃ s : State, s.die.running = true ∧
    (s.mayDraw q.role = false ∨ ¬ (n % 2 = 0 ∧ 8 ≤ n ∧ n ≤ 120) ∨ 191 < i.toNat)) ∧
  (∃ g : Word, ∃ m : Fin 2, ∃ s : State, s.die.running = true ∧ s.dieRole .operator = true) ∧
  (∃ q : Rq, ∃ i : BitVec 16, ∃ j : BitVec 8, ∃ s : State, s.die.running = true ∧ s.termSender q.role = true) ∧
  (∃ q : Rq, ∃ i : BitVec 16, ∃ j : BitVec 8, ∃ s : State, s.die.running = true ∧ s.termSender q.role = false) ∧
  (∃ g : Word, ∃ v : Byte, ∃ s : State, s.die.running = true ∧ v.toNat ≤ 1 ∧ s.dieRole .operator = true) ∧
  (∃ q : Rq, ∃ i : BitVec 16, ∃ j : BitVec 8, ∃ d : List Byte, ∃ s : State, s.die.running = true ∧
    s.termSender q.role = true) ∧
  (∃ q : Rq, ∃ i : BitVec 16, ∃ j : BitVec 8, ∃ d : List Byte, ∃ s : State, s.die.running = true ∧
    s.termSender q.role = false) ∧
  (∃ g : Word, ∃ m : Fin 2, ∃ s : State, s.die.running = true) ∧
  (∃ q : Rq, ∃ m : Fin 2, ∃ s : State, s.die.running = true ∧ q.role ≠ .firmware) ∧
  (∃ d : Fin 10, ∃ s : State, s.die.running = true ∧ (s.die.key.st = .idle ∨ s.die.key.st = .selected)) ∧
  (∃ d : Fin 10, ∃ s : State, s.die.running = true ∧ (s.die.key.st = .select ∧ s.die.key.buf.length = 1 ∨
    s.die.key.st = .token ∧ s.die.key.buf.length < 20)) ∧
  (∃ d : Fin 10, ∃ s : State, s.die.running = true ∧ (s.die.key.st = .select ∧ s.die.key.buf.length ≠ 1 ∨
    s.die.key.st = .token ∧ 20 ≤ s.die.key.buf.length)) ∧
  (∃ s : State, s.die.running = true ∧ s.die.key.st = .select ∧ digitsNum s.die.key.buf < 64 ∧ s.panelServes
    (s.snum 0x7840 1) (digitsNum s.die.key.buf) = true) ∧
  (∃ s : State, s.die.running = true ∧ s.die.key.st = .select ∧ (64 ≤ digitsNum s.die.key.buf ∨ s.panelServes
    (s.snum 0x7840 1) (digitsNum s.die.key.buf) = false)) ∧
  (∃ s : State, s.die.running = true ∧ s.die.key.st = .token ∧ 20 ≤ s.die.key.buf.length) ∧
  (∃ s : State, s.die.running = true ∧ (s.die.key.st = .idle ∨ s.die.key.st = .selected ∨ (s.die.key.st =
    .token ∧ s.die.key.buf.length < 20))) ∧
  (∃ s : State, s.die.running = true ∧ s.die.key.st = .token) ∧
  (∃ s : State, s.die.running = true ∧ s.die.key.st ≠ .token) ∧
  (∃ s : State, s.die.running = true ∧ s.die.key.st = .selected) ∧
  (∃ s : State, s.die.running = true ∧ s.die.key.st ≠ .selected) ∧
  (∃ s : State, s.die.running = true ∧ s.die.key.st = .selected ∧ s.snum 0x7840 3 = 1 ∧ s.die.legal.lockEnd =
    none ∧ s.die.legal.ltStat.getLsbD 0 = false) ∧
  (∃ s : State, s.die.running = true ∧ s.die.key.st = .selected ∧ (s.snum 0x7840 3 ≠ 1 ∨ s.die.legal.lockEnd ≠
    none ∨ s.die.legal.ltStat.getLsbD 0 = true)) ∧
  (∃ s : State, s.die.running = true ∧ s.die.key.st ≠ .selected) ∧
  (∃ s : State, s.die.running = true ∧ (s.die.key.st = .select ∨ s.die.key.st = .selected)) ∧
  (∃ s : State, s.die.running = true ∧ s.die.key.st = .token) ∧
  (∃ s : State, s.die.running = true ∧ s.die.key.st = .idle) ∧
  (∃ s : State, s.die.running = true ∧ (s.die.key.st = .select ∨ s.die.key.st = .selected)) ∧
  (∃ s : State, s.die.running = true ∧ s.die.key.st = .token) ∧
  (∃ s : State, s.die.running = true ∧ s.die.key.st = .idle) ∧
  (∃ q : Rq, ∃ m : Fin 2, ∃ x y w k : Nat, ∃ d : List Byte, ∃ s : State, s.die.running = false) ∧
  (∃ q : Rq, ∃ m : Fin 2, ∃ x y w k : Nat, ∃ v : BitVec 8, ∃ s : State, s.die.running = false) ∧
  (∃ q : Rq, ∃ m : Fin 2, ∃ f : Nat, ∃ l : List (BitVec 24), ∃ s : State, s.die.running = false) ∧
  (∃ q : Rq, ∃ m : Fin 2, ∃ i p : BitVec 8, ∃ n : Nat, ∃ b : Bool, ∃ s : State, s.die.running = false) ∧
  (∃ q : Rq, ∃ i : BitVec 16, ∃ j : BitVec 8, ∃ s : State, s.die.running = false) ∧
  (∃ q : Rq, ∃ i : BitVec 16, ∃ j : BitVec 8, ∃ d : List Byte, ∃ s : State, s.die.running = false) ∧
  (∃ q : Rq, ∃ m : Fin 2, ∃ s : State, s.die.running = false) ∧
  (∃ d : Fin 10, ∃ s : State, s.die.running = false) ∧
  (∃ s : State, s.die.running = false) ∧
  (∃ s : State, s.die.running = false) ∧
  (∃ s : State, s.die.running = false) ∧
  (∃ s : State, s.die.running = false) ∧
  (∃ s : State, s.die.running = false) ∧
  (∃ s : State, s.die.running = false) :=
  ⟨⟨⟨.firmware, 7⟩, 1, 0, 200, 1, 1, [9], { State.reset with die.running := true }, by decide +kernel⟩,
   ⟨⟨.firmware, 7⟩, 1, 4, 4, 1, 1, [9], { State.reset with die.running := true }, by decide +kernel⟩,
   ⟨⟨.firmware, 7⟩, 1, 0, 200, 1, 1, 9, { State.reset with die.running := true }, by decide +kernel⟩,
   ⟨⟨.verifier, 7⟩, 1, 4, 4, 1, 1, 9, { State.reset with die.running := true }, by decide +kernel⟩,
   ⟨⟨.firmware, 7⟩, 1, 190, [1, 2], { State.reset with die.running := true }, by decide +kernel⟩,
   ⟨⟨.firmware, 7⟩, 1, 191, [1, 2], { State.reset with die.running := true }, by decide +kernel⟩,
   ⟨⟨.firmware, 7⟩, 1, 3, 4, 8, true, { State.reset with die.running := true }, by decide +kernel⟩,
   ⟨⟨.firmware, 7⟩, 1, 3, 4, 9, true, { State.reset with die.running := true }, by decide +kernel⟩,
   ⟨1, 1, { State.reset with die.running := true }, by decide +kernel⟩,
   ⟨⟨.operator, 7⟩, 0x5000, 1, { State.reset with die.running := true }, by decide +kernel⟩,
   ⟨⟨.firmware, 7⟩, 0x7800, 1, { State.reset with die.running := true }, by decide +kernel⟩,
   ⟨1, 1, { State.reset with die.running := true }, by decide +kernel⟩,
   ⟨⟨.operator, 7⟩, 0x5000, 1, [], { State.reset with die.running := true }, by decide +kernel⟩,
   ⟨⟨.firmware, 7⟩, 0x7800, 1, [], { State.reset with die.running := true }, by decide +kernel⟩,
   ⟨1, 1, { State.reset with die.running := true }, by decide +kernel⟩,
   ⟨⟨.operator, 7⟩, 1, { State.reset with die.running := true }, by decide +kernel⟩,
   ⟨3, { State.reset with die.running := true }, by decide +kernel⟩,
   ⟨3, { State.reset with die.running := true, die.key := { st := .select, buf := [1] } }, by decide +kernel⟩,
   ⟨3, { State.reset with die.running := true, die.key := { st := .select, buf := [1, 2] } }, by decide +kernel⟩,
   ⟨{ State.reset with die.running := true, die.key := { st := .select, buf := [2] }, die.obj := State.reset.die.obj.set (0x7800 * 256 + 8) (some [4]) }, by decide +kernel⟩,
   ⟨{ State.reset with die.running := true, die.key := { st := .select, buf := [2] } }, by decide +kernel⟩,
   ⟨{ State.reset with die.running := true, die.key := { st := .token, buf := List.replicate 20 1 } }, by decide +kernel⟩,
   ⟨{ State.reset with die.running := true }, by decide +kernel⟩,
   ⟨{ State.reset with die.running := true, die.key := { st := .token, buf := [1] } }, by decide +kernel⟩,
   ⟨{ State.reset with die.running := true }, by decide +kernel⟩,
   ⟨{ State.reset with die.running := true, die.key := { st := .selected } }, by decide +kernel⟩,
   ⟨{ State.reset with die.running := true }, by decide +kernel⟩,
   ⟨{ State.reset with die.running := true, die.key := { st := .selected }, die.legal.ltStat := 0, die.obj := State.reset.die.obj.set (0x7840 * 256 + 3) (some [1]) }, by decide +kernel⟩,
   ⟨{ State.reset with die.running := true, die.key := { st := .selected }, die.legal.lockEnd := some 5 }, by decide +kernel⟩,
   ⟨{ State.reset with die.running := true }, by decide +kernel⟩,
   ⟨{ State.reset with die.running := true, die.key := { st := .selected } }, by decide +kernel⟩,
   ⟨{ State.reset with die.running := true, die.key := { st := .token } }, by decide +kernel⟩,
   ⟨{ State.reset with die.running := true }, by decide +kernel⟩,
   ⟨{ State.reset with die.running := true, die.key := { st := .selected } }, by decide +kernel⟩,
   ⟨{ State.reset with die.running := true, die.key := { st := .token } }, by decide +kernel⟩,
   ⟨{ State.reset with die.running := true }, by decide +kernel⟩,
   ⟨⟨.firmware, 7⟩, 1, 0, 0, 0, 0, [], State.reset, by decide +kernel⟩,
   ⟨⟨.firmware, 7⟩, 1, 0, 0, 0, 0, 0, State.reset, by decide +kernel⟩,
   ⟨⟨.firmware, 7⟩, 1, 0, [], State.reset, by decide +kernel⟩,
   ⟨⟨.firmware, 7⟩, 1, 0, 0, 0, true, State.reset, by decide +kernel⟩,
   ⟨⟨.firmware, 7⟩, 1, 1, State.reset, by decide +kernel⟩,
   ⟨⟨.firmware, 7⟩, 1, 1, [], State.reset, by decide +kernel⟩,
   ⟨⟨.firmware, 7⟩, 1, State.reset, by decide +kernel⟩,
   ⟨1, State.reset, by decide +kernel⟩,
   ⟨State.reset, by decide +kernel⟩,
   ⟨State.reset, by decide +kernel⟩,
   ⟨State.reset, by decide +kernel⟩,
   ⟨State.reset, by decide +kernel⟩,
   ⟨State.reset, by decide +kernel⟩,
   ⟨State.reset, by decide +kernel⟩⟩

/-- The hypotheses of `Obligations.ReaderChannels` are met. -/
theorem witness_readerChannels :
  (∃ n : Fin 16, ∃ a p : Int, ∃ s : State, (s.rd n).st = .pinging ∧ s.power.fields = 0 ∧ (s.rd n).base = none) ∧
  (∃ n : Fin 16, ∃ a p b q : Int, ∃ k : Nat, ∃ s : State, (s.rd n).st = .pinging ∧ s.power.fields = 0 ∧ (s.rd
    n).base = some (b, q, k)) ∧
  (∃ n : Fin 16, ∃ a p : Int, ∃ s : State, (s.rd n).st ≠ .pinging ∨ s.power.fields ≠ 0) ∧
  (∃ n : Fin 16, ∃ l : List CardId, ∃ c : CardId, ∃ s : State, s.fieldIsOn n = true ∧ ((s.rd n).st =
    .fieldWait ∨ (s.rd n).st = .polling) ∧ pollFinds (s.rd n).types l = [c]) ∧
  (∃ n : Fin 16, ∃ l : List CardId, ∃ s : State, s.fieldIsOn n = true ∧ ((s.rd n).st = .fieldWait ∨ (s.rd
    n).st = .polling) ∧ 1 < (pollFinds (s.rd n).types l).length) ∧
  (∃ n : Fin 16, ∃ l : List CardId, ∃ s : State, s.fieldIsOn n = true ∧ ((s.rd n).st = .fieldWait ∨ (s.rd
    n).st = .polling) ∧ pollFinds (s.rd n).types l = [] ∧ (s.rd n).xch = none) ∧
  (∃ n : Fin 16, ∃ l : List CardId, ∃ s : State, s.fieldIsOn n = true ∧ ((s.rd n).st = .fieldWait ∨ (s.rd
    n).st = .polling)) ∧
  (∃ n : Fin 16, ∃ l : List CardId, ∃ s : State, ¬ (s.fieldIsOn n = true ∧ ((s.rd n).st = .fieldWait ∨ (s.rd
    n).st = .polling))) ∧
  (∃ n : Fin 16, ∃ l : List CardId, ∃ c : CardId, ∃ s : State, s.fieldIsOn n = true ∧ 1 < (s.rd n).cards ∧
    (s.rd n).xch = none ∧ pollFinds (s.rd n).types l = [c]) ∧
  (∃ n : Fin 16, ∃ l : List CardId, ∃ s : State, s.fieldIsOn n = true ∧ 1 < (s.rd n).cards ∧ (s.rd n).xch =
    none) ∧
  (∃ n : Fin 16, ∃ l : List CardId, ∃ s : State, ¬ (s.fieldIsOn n = true ∧ 1 < (s.rd n).cards ∧ (s.rd n).xch =
    none)) ∧
  (∃ n : Fin 16, ∃ s : State, s.fieldIsOn n = true ∧ (s.rd n).xch = none) ∧
  (∃ n : Fin 16, ∃ s : State, s.fieldIsOn n = false ∨ (s.rd n).xch ≠ none) ∧
  (∃ n : Fin 16, ∃ s : State, s.app.lane.fault = false ∧ s.power.clkOk = true ∧ s.fieldIsOn n = true ∧ (s.rd
    n).st = .active ∧ (s.rd n).card ≠ none ∧ (s.rd n).xch = none) ∧
  (∃ n : Fin 16, ∃ s : State, s.app.lane.fault = false ∧ s.power.clkOk = true ∧ ¬ (s.fieldIsOn n = true ∧
    (s.rd n).st = .active ∧ (s.rd n).card ≠ none) ∧ (s.rd n).xch = none) ∧
  (∃ n : Fin 16, ∃ s : State, s.app.lane.fault = false ∧ s.power.clkOk = true ∧ (s.rd n).xch ≠ none) ∧
  (∃ n : Fin 16, ∃ s : State, s.app.lane.fault = false ∧ s.power.clkOk = true ∧ (s.rd n).xch ≠ none) ∧
  (∃ n : Fin 16, ∃ s : State, s.app.lane.fault = false ∧ s.power.clkOk = true ∧ (s.rd n).xch = none ∧ ((s.rd
    n).st = .fieldWait ∨ (s.rd n).st = .polling)) ∧
  (∃ n : Fin 16, ∃ s : State, s.app.lane.fault = false ∧ s.power.clkOk = true ∧ (s.rd n).xch = none ∧ (s.rd
    n).st ≠ .fieldWait ∧ (s.rd n).st ≠ .polling) ∧
  (∃ n : Fin 16, ∃ s : State, s.app.lane.fault = false ∧ s.power.clkOk = true ∧ s.fieldIsOn n = true ∧ (s.rd
    n).xch = none) ∧
  (∃ n : Fin 16, ∃ s : State, s.app.lane.fault = false ∧ s.power.clkOk = true ∧ (s.fieldIsOn n = false ∨ (s.rd
    n).xch ≠ none)) ∧
  (∃ n : Fin 16, ∃ s : State, s.app.lane.fault = false ∧ s.power.clkOk = true ∧ s.fieldIsOn n = true) ∧
  (∃ n : Fin 16, ∃ s : State, s.app.lane.fault = false ∧ s.power.clkOk = true ∧ s.fieldIsOn n = false) ∧
  (∃ n : Fin 16, ∃ v : Word, ∃ s : State, s.app.lane.fault = false ∧ s.power.clkOk = true) ∧
  (∃ n : Fin 16, ∃ v : Word, ∃ s : State, s.app.lane.fault = false ∧ s.power.clkOk = true ∧ s.fieldIsOn n =
    false ∧ fld v 0 2 = 1 ∧ (s.rd n).mode = 0 ∧ (s.rd n).openT = false) ∧
  (∃ n : Fin 16, ∃ v : Word, ∃ s : State, s.app.lane.fault = false ∧ s.power.clkOk = true ∧ s.fieldIsOn n =
    true ∧ fld v 0 2 ≠ 3 ∧ fld v 0 2 ≠ (s.rd n).mode) ∧
  (∃ n : Fin 16, ∃ d : List Byte, ∃ x : Xchg, ∃ s : State, (s.rd n).xch = some x) ∧
  (∃ n : Fin 16, ∃ d : List Byte, ∃ x : Xchg, ∃ s : State, (s.rd n).xch = some x ∧ (x.data ++ d).length ≤ 256) ∧
  (∃ n : Fin 16, ∃ d : List Byte, ∃ x : Xchg, ∃ s : State, (s.rd n).xch = some x ∧ 256 < (x.data ++ d).length) ∧
  (∃ n : Fin 16, ∃ x : Xchg, ∃ s : State, (s.rd n).xch = some x) ∧
  (∃ n : Fin 16, ∃ s : State, (s.rd n).xch = none) ∧
  (∃ n : Fin 16, ∃ x : Xchg, ∃ s : State, (s.rd n).xch = some x) ∧
  (∃ n : Fin 16, ∃ x : Xchg, ∃ k : Nat, ∃ s : State, (s.rd n).xch = some x) ∧
  (∃ n : Fin 16, ∃ b : CardBlock, ∃ s : State, (s.rd n).xch = none) ∧
  (∃ n : Fin 16, ∃ x : Xchg, ∃ s : State, (s.rd n).xch = some x ∧ x.retries < 2) ∧
  (∃ n : Fin 16, ∃ x : Xchg, ∃ s : State, (s.rd n).xch = some x ∧ 2 ≤ x.retries ∧ x.full = false) ∧
  (∃ n : Fin 16, ∃ x : Xchg, ∃ s : State, (s.rd n).xch = some x ∧ 2 ≤ x.retries ∧ x.full = true) ∧
  (∃ n : Fin 16, ∃ s : State, (s.rd n).xch ≠ none) ∧
  (∃ n : Fin 16, ∃ s : State, (s.rd n).xch = none) ∧
  (∃ n : Fin 16, ∃ s : State, s.app.lane.fault = true) ∧
  (∃ n : Fin 16, ∃ s : State, s.app.lane.fault = false ∧ s.power.clkOk = false) ∧
  (∃ n : Fin 16, ∃ s : State, s.app.lane.fault = true) ∧
  (∃ n : Fin 16, ∃ s : State, s.app.lane.fault = false ∧ s.power.clkOk = false) ∧
  (∃ n : Fin 16, ∃ s : State, s.app.lane.fault = true) ∧
  (∃ n : Fin 16, ∃ s : State, s.app.lane.fault = false ∧ s.power.clkOk = false) ∧
  (∃ n : Fin 16, ∃ s : State, s.app.lane.fault = true) ∧
  (∃ n : Fin 16, ∃ s : State, s.app.lane.fault = false ∧ s.power.clkOk = false) ∧
  (∃ n : Fin 16, ∃ v : Word, ∃ s : State, s.app.lane.fault = true) ∧
  (∃ n : Fin 16, ∃ v : Word, ∃ s : State, s.app.lane.fault = false ∧ s.power.clkOk = false) :=
  ⟨⟨3, 5, 6, { State.reset with power.readers := State.reset.power.readers.set 3 { st := .pinging } }, by decide +kernel⟩,
   ⟨3, 5, 6, 5, 6, 0, { State.reset with power.readers := State.reset.power.readers.set 3 { st := .pinging, base := some (5, 6, 0) } }, by decide +kernel⟩,
   ⟨3, 5, 6, State.reset, by decide +kernel⟩,
   ⟨3, [⟨false, [1, 2, 3, 4], 0x20⟩], ⟨false, [1, 2, 3, 4], 0x20⟩, { State.reset with power.fields := 8, power.readers := State.reset.power.readers.set 3 { st := .polling, types := 1 } }, by decide +kernel⟩,
   ⟨3, [⟨false, [1, 2, 3, 4], 0x20⟩, ⟨false, [1, 2, 3, 5], 0x20⟩], { State.reset with power.fields := 8, power.readers := State.reset.power.readers.set 3 { st := .polling, types := 1 } }, by decide +kernel⟩,
   ⟨3, [], { State.reset with power.fields := 8, power.readers := State.reset.power.readers.set 3 { st := .polling, types := 1 } }, by decide +kernel⟩,
   ⟨3, [], { State.reset with power.fields := 8, power.readers := State.reset.power.readers.set 3 { st := .polling, types := 1 } }, by decide +kernel⟩,
   ⟨3, [], State.reset, by decide +kernel⟩,
   ⟨3, [⟨false, [1, 2, 3, 4], 0x20⟩], ⟨false, [1, 2, 3, 4], 0x20⟩, { State.reset with power.fields := 8, power.readers := State.reset.power.readers.set 3 { st := .polling, cards := 2, types := 1 } }, by decide +kernel⟩,
   ⟨3, [], { State.reset with power.fields := 8, power.readers := State.reset.power.readers.set 3 { st := .polling, cards := 2, types := 1 } }, by decide +kernel⟩,
   ⟨3, [], State.reset, by decide +kernel⟩,
   ⟨3, { State.reset with power.fields := 8 }, by decide +kernel⟩,
   ⟨3, State.reset, by decide +kernel⟩,
   ⟨3, { State.reset with power.fields := 8, power.clkOk := true, power.readers := State.reset.power.readers.set 3 { st := .active, card := some ⟨false, [], 0⟩ } }, by decide +kernel⟩,
   ⟨3, { State.reset with power.clkOk := true }, by decide +kernel⟩,
   ⟨3, { State.reset with power.clkOk := true, power.readers := State.reset.power.readers.set 3 { xch := some {} } }, by decide +kernel⟩,
   ⟨3, { State.reset with power.clkOk := true, power.readers := State.reset.power.readers.set 3 { xch := some {} } }, by decide +kernel⟩,
   ⟨3, { State.reset with power.clkOk := true, power.readers := State.reset.power.readers.set 3 { st := .polling } }, by decide +kernel⟩,
   ⟨3, { State.reset with power.clkOk := true }, by decide +kernel⟩,
   ⟨3, { State.reset with power.fields := 8, power.clkOk := true }, by decide +kernel⟩,
   ⟨3, { State.reset with power.clkOk := true }, by decide +kernel⟩,
   ⟨3, { State.reset with power.fields := 8, power.clkOk := true }, by decide +kernel⟩,
   ⟨3, { State.reset with power.clkOk := true }, by decide +kernel⟩,
   ⟨3, 1, { State.reset with power.clkOk := true }, by decide +kernel⟩,
   ⟨3, 0x10005, { State.reset with power.clkOk := true }, by decide +kernel⟩,
   ⟨3, 1, { State.reset with power.fields := 8, power.clkOk := true }, by decide +kernel⟩,
   ⟨3, [1], {}, { State.reset with power.readers := State.reset.power.readers.set 3 { xch := some {} } }, by decide +kernel⟩,
   ⟨3, [1], {}, { State.reset with power.readers := State.reset.power.readers.set 3 { xch := some {} } }, by decide +kernel⟩,
   ⟨3, List.replicate 300 0, {}, { State.reset with power.readers := State.reset.power.readers.set 3 { xch := some {} } }, by decide +kernel⟩,
   ⟨3, {}, { State.reset with power.readers := State.reset.power.readers.set 3 { xch := some {} } }, by decide +kernel⟩,
   ⟨3, State.reset, by decide +kernel⟩,
   ⟨3, {}, { State.reset with power.readers := State.reset.power.readers.set 3 { xch := some {} } }, by decide +kernel⟩,
   ⟨3, {}, 2, { State.reset with power.readers := State.reset.power.readers.set 3 { xch := some {} } }, by decide +kernel⟩,
   ⟨3, .ack, State.reset, by decide +kernel⟩,
   ⟨3, {}, { State.reset with power.readers := State.reset.power.readers.set 3 { xch := some {} } }, by decide +kernel⟩,
   ⟨3, { retries := 2 }, { State.reset with power.readers := State.reset.power.readers.set 3 { xch := some { retries := 2 } } }, by decide +kernel⟩,
   ⟨3, { retries := 2, full := true }, { State.reset with power.readers := State.reset.power.readers.set 3 { xch := some { retries := 2, full := true } } }, by decide +kernel⟩,
   ⟨3, { State.reset with power.readers := State.reset.power.readers.set 3 { xch := some {} } }, by decide +kernel⟩,
   ⟨3, State.reset, by decide +kernel⟩,
   ⟨3, { State.reset with app.lane.fault := true }, by decide +kernel⟩,
   ⟨3, { State.reset with power.clkOk := false }, by decide +kernel⟩,
   ⟨3, { State.reset with app.lane.fault := true }, by decide +kernel⟩,
   ⟨3, { State.reset with power.clkOk := false }, by decide +kernel⟩,
   ⟨3, { State.reset with app.lane.fault := true }, by decide +kernel⟩,
   ⟨3, { State.reset with power.clkOk := false }, by decide +kernel⟩,
   ⟨3, { State.reset with app.lane.fault := true }, by decide +kernel⟩,
   ⟨3, { State.reset with power.clkOk := false }, by decide +kernel⟩,
   ⟨3, 1, { State.reset with app.lane.fault := true }, by decide +kernel⟩,
   ⟨3, 1, { State.reset with power.clkOk := false }, by decide +kernel⟩⟩

/-- The hypotheses of `Obligations.TagEmulation` are met. -/
theorem witness_tagEmulation :
  (∃ n : Fin 16, ∃ s : State, (s.rd n).mode = 2) ∧
  (∃ n : Fin 16, ∃ k : Nat, ∃ s : State, (s.rd n).mode = 2 ∧ s.slotOfChannel n = some k ∧ (s.tag k).typeB =
    false) ∧
  (∃ n : Fin 16, ∃ s : State, (s.rd n).mode ≠ 2) ∧
  (∃ n : Fin 16, ∃ k : Nat, ∃ s : State, s.tagHears n = some k ∧ (s.tag k).typeB = false) ∧
  (∃ n : Fin 16, ∃ k : Nat, ∃ s : State, s.tagHears n = some k ∧ (s.tag k).typeB = false) ∧
  (∃ n : Fin 16, ∃ k : Nat, ∃ s : State, s.tagHears n = some k ∧ (s.tag k).typeB = true ∧ (s.rd n).halt =
    false) ∧
  (∃ n : Fin 16, ∃ c : TagAct, ∃ k : Nat, ∃ s : State, s.tagHears n = some k) ∧
  (∃ n : Fin 16, ∃ c : TagAct, ∃ s : State, s.tagHears n = none) ∧
  (∃ n : Fin 16, ∃ s : State, s.tagActive n = true) ∧
  (∃ n : Fin 16, ∃ s : State, s.tagActive n = true ∧ (s.rd n).appSel = true) ∧
  (∃ n : Fin 16, ∃ s : State, s.tagActive n = true ∧ (s.rd n).appSel = true) ∧
  (∃ n : Fin 16, ∃ f : TagFile, ∃ s : State, s.tagActive n = true ∧ (f = .unknown ∨ (f ≠ .app ∧ (s.rd
    n).appSel = false))) ∧
  (∃ n : Fin 16, ∃ f : TagFile, ∃ s : State, s.tagActive n = false) ∧
  (∃ n : Fin 16, ∃ o l : Nat, ∃ s : State, s.tagActive n = false) ∧
  (∃ n : Fin 16, ∃ s : State, s.tagActive n = false) ∧
  (∃ n : Fin 16, ∃ b : Bool, ∃ s : State, s.tagActive n = false) ∧
  (∃ n : Fin 16, ∃ s : State, (s.rd n).mode ≠ 2) ∧
  (∃ k : Fin 4, ∃ v : Word, ∃ s : State, s.app.lane.fault = false ∧ s.power.clkOk = true ∧ (s.tag k).pending =
    false ∧ (s.tag k).en = true ∧ bit v 8 = true ∧ (s.rd (s.tag k).channel).openT = true ∧ within 2 (fld v 16
    11) 1024 = true) ∧
  (∃ k : Fin 4, ∃ v : Word, ∃ s : State, s.app.lane.fault = false ∧ s.power.clkOk = true) ∧
  (∃ k : Fin 4, ∃ s : State, (s.tag k).pending = true ∧ s.tagOpen k = true) ∧
  (∃ n : Fin 16, ∃ o l k : Nat, ∃ f : List Byte, ∃ s : State, s.tagHears n = some k ∧ (s.rd n).activated =
    true ∧ s.tagFile n k = some f) ∧
  (∃ n : Fin 16, ∃ o l : Nat, ∃ s : State, s.tagActive n = true ∧ (s.rd n).file = none) ∧
  (∃ n : Fin 16, ∃ s : State, s.tagActive n = true) ∧
  (∃ n : Fin 16, ∃ s : State, s.tagActive n = true) ∧
  (∃ n : Fin 16, ∃ s : State, s.tagActive n = true) ∧
  (∃ n : Fin 16, ∃ s : State, (s.rd n).mode = 2) ∧
  (∃ n : Fin 16, ∃ k : Nat, ∃ s : State, (s.rd n).openT = true ∧ s.slotOfChannel n = some k ∧ (s.tag
    k).pending = true) ∧
  (∃ k : Fin 4, ∃ v : Word, ∃ s : State, s.app.lane.fault = false ∧ s.power.clkOk = true ∧ (s.tag k).pending =
    true) ∧
  (∃ k : Fin 4, ∃ v : Word, ∃ s : State, s.app.lane.fault = false ∧ s.power.clkOk = true ∧ (s.tag k).pending =
    false ∧ (s.tag k).en = true ∧ (s.rd (s.tag k).channel).openT = false ∧ within 2 (fld v 16 11) 1024 = true) ∧
  (∃ k : Fin 4, ∃ s : State, (s.tag k).pending = true ∧ s.tagOpen k = true ∧ s.slotOfChannel (s.tag k).channel
    = some k.val) ∧
  (∃ k : Fin 4, ∃ s : State, (s.tag k).pending = false ∨ s.tagOpen k = false) ∧
  (∃ k : Fin 4, ∃ v : Word, ∃ s : State, s.app.lane.fault = true) ∧
  (∃ k : Fin 4, ∃ v : Word, ∃ s : State, s.app.lane.fault = false ∧ s.power.clkOk = false) :=
  ⟨⟨3, { State.reset with power.readers := State.reset.power.readers.set 3 { mode := 2 } }, by decide +kernel⟩,
   ⟨3, 1, { State.reset with power.readers := State.reset.power.readers.set 3 { mode := 2 }, power.tags := State.reset.power.tags.set 1 { en := true, channel := 3 } }, by decide +kernel⟩,
   ⟨3, State.reset, by decide +kernel⟩,
   ⟨3, 1, { State.reset with power.readers := State.reset.power.readers.set 3 { mode := 2, ext := true, activated := true }, power.tags := State.reset.power.tags.set 1 { en := true, channel := 3 } }, by decide +kernel⟩,
   ⟨3, 1, { State.reset with power.readers := State.reset.power.readers.set 3 { mode := 2, ext := true, activated := true }, power.tags := State.reset.power.tags.set 1 { en := true, channel := 3 } }, by decide +kernel⟩,
   ⟨3, 1, { State.reset with power.readers := State.reset.power.readers.set 3 { mode := 2, ext := true, activated := true }, power.tags := State.reset.power.tags.set 1 { en := true, channel := 3, typeB := true } }, by decide +kernel⟩,
   ⟨3, .reqa, 1, { State.reset with power.readers := State.reset.power.readers.set 3 { mode := 2, ext := true, activated := true }, power.tags := State.reset.power.tags.set 1 { en := true, channel := 3 } }, by decide +kernel⟩,
   ⟨3, .reqa, State.reset, by decide +kernel⟩,
   ⟨3, { State.reset with power.readers := State.reset.power.readers.set 3 { mode := 2, ext := true, activated := true }, power.tags := State.reset.power.tags.set 1 { en := true, channel := 3 } }, by decide +kernel⟩,
   ⟨3, { State.reset with power.readers := State.reset.power.readers.set 3 { mode := 2, ext := true, activated := true, appSel := true }, power.tags := State.reset.power.tags.set 1 { en := true, channel := 3 } }, by decide +kernel⟩,
   ⟨3, { State.reset with power.readers := State.reset.power.readers.set 3 { mode := 2, ext := true, activated := true, appSel := true }, power.tags := State.reset.power.tags.set 1 { en := true, channel := 3 } }, by decide +kernel⟩,
   ⟨3, .cc, { State.reset with power.readers := State.reset.power.readers.set 3 { mode := 2, ext := true, activated := true }, power.tags := State.reset.power.tags.set 1 { en := true, channel := 3 } }, by decide +kernel⟩,
   ⟨3, .cc, State.reset, by decide +kernel⟩,
   ⟨3, 0, 4, State.reset, by decide +kernel⟩,
   ⟨3, State.reset, by decide +kernel⟩,
   ⟨3, true, State.reset, by decide +kernel⟩,
   ⟨3, State.reset, by decide +kernel⟩,
   ⟨1, 0x100100, { State.reset with power.clkOk := true, power.readers := State.reset.power.readers.set 3 { openT := true }, power.tags := State.reset.power.tags.set 1 { en := true, channel := 3 } }, by decide +kernel⟩,
   ⟨1, 0x100100, { State.reset with power.clkOk := true }, by decide +kernel⟩,
   ⟨1, { State.reset with power.readers := State.reset.power.readers.set 3 { mode := 2, ext := true, activated := true, openT := true }, power.tags := State.reset.power.tags.set 1 { en := true, channel := 3, pending := true } }, by decide +kernel⟩,
   ⟨3, 0, 4, 1, ccFile, { State.reset with power.readers := State.reset.power.readers.set 3 { mode := 2, ext := true, activated := true, file := some 1 }, power.tags := State.reset.power.tags.set 1 { en := true, channel := 3 } }, by decide +kernel⟩,
   ⟨3, 0, 4, { State.reset with power.readers := State.reset.power.readers.set 3 { mode := 2, ext := true, activated := true }, power.tags := State.reset.power.tags.set 1 { en := true, channel := 3 } }, by decide +kernel⟩,
   ⟨3, { State.reset with power.readers := State.reset.power.readers.set 3 { mode := 2, ext := true, activated := true }, power.tags := State.reset.power.tags.set 1 { en := true, channel := 3 } }, by decide +kernel⟩,
   ⟨3, { State.reset with power.readers := State.reset.power.readers.set 3 { mode := 2, ext := true, activated := true }, power.tags := State.reset.power.tags.set 1 { en := true, channel := 3 } }, by decide +kernel⟩,
   ⟨3, { State.reset with power.readers := State.reset.power.readers.set 3 { mode := 2, ext := true, activated := true }, power.tags := State.reset.power.tags.set 1 { en := true, channel := 3 } }, by decide +kernel⟩,
   ⟨3, { State.reset with power.readers := State.reset.power.readers.set 3 { mode := 2, ext := true, activated := true }, power.tags := State.reset.power.tags.set 1 { en := true, channel := 3 } }, by decide +kernel⟩,
   ⟨3, 1, { State.reset with power.readers := State.reset.power.readers.set 3 { mode := 2, ext := true, activated := true, openT := true }, power.tags := State.reset.power.tags.set 1 { en := true, channel := 3, pending := true } }, by decide +kernel⟩,
   ⟨1, 0x100, { State.reset with power.clkOk := true, power.tags := State.reset.power.tags.set 1 { pending := true } }, by decide +kernel⟩,
   ⟨1, 0x100100, { State.reset with power.clkOk := true, power.tags := State.reset.power.tags.set 1 { en := true, channel := 3 } }, by decide +kernel⟩,
   ⟨1, { State.reset with power.readers := State.reset.power.readers.set 3 { mode := 2, ext := true, activated := true, openT := true }, power.tags := State.reset.power.tags.set 1 { en := true, channel := 3, pending := true } }, by decide +kernel⟩,
   ⟨1, State.reset, by decide +kernel⟩,
   ⟨1, 1, { State.reset with app.lane.fault := true }, by decide +kernel⟩,
   ⟨1, 1, { State.reset with power.clkOk := false }, by decide +kernel⟩⟩

/-- The hypotheses of `Obligations.HartInstructions` are met. -/
theorem witness_hartInstructions :
  (∃ h : Fin 15, ∃ w i : Word, ∃ n : Nat, ∃ s : State, hartEngine h = none ∧ Fetches h w i n s ∧ rvOp i = 0x13
    ∧ rvF3 i = 0) ∧
  (∃ h : Fin 15, ∃ w i : Word, ∃ n a : Nat, ∃ s : State, h.val < 4 ∧ Fetches h w i n s ∧ rvOp i = 0x23 ∧ rvF3
    i = 2 ∧ s.accessAt h .store ((s.hart h).get (rvRs1 i) + immS i) 4 = .ok a ∧ regionOf a = .hall ∧ regionOf
    (a + 3) = .hall) ∧
  (∃ h : Fin 15, ∃ w : Word, ∃ n : Nat, ∃ s : State, hartEngine h = none ∧ Fetches h w 0x30200073 n s ∧
    (s.hart h).priv = 3) ∧
  (∃ h : Fin 15, ∃ w : Word, ∃ n : Nat, ∃ s : State, hartEngine h = none ∧ Fetches h w 0x00000073 n s ∧
    (s.hart h).priv = 3) ∧
  (∃ h : Fin 15, ∃ w : Word, ∃ c : Nat, ∃ s : State, hartEngine h = none ∧ s.hartRuns h = true ∧ (s.core
    h).wfi = false ∧ s.interrupt h = some (c, false) ∧ (s.debugs h && dbit ((s.core h).csr.get 0x7B0) 2) =
    false) ∧
  (∃ h : Fin 15, ∃ w : Word, ∃ e : Ecc, ∃ s : State, s.hartRuns h = false) ∧
  (∃ h : Fin 15, ∃ w : Word, ∃ e : Nat, ∃ v : Dword, ∃ u : State, ∃ s : State, hartEngine h = some e ∧
    s.hartRuns h = true ∧ (s.core h).wfi = false ∧ s.interrupt h = none ∧ (s.debugs h && dbit ((s.core
    h).csr.get 0x7B0) 2) = false ∧ rvOutcome h w (passCycles h s) = .exc 2 v u) ∧
  (∃ h : Fin 15, ∃ w : Word, ∃ e : Nat, ∃ s : State, hartEngine h = some e ∧ s.hartRuns h = true ∧ (s.core
    h).wfi = false ∧ s.interrupt h = none ∧ (s.debugs h && dbit ((s.core h).csr.get 0x7B0) 2) = false) ∧
  (∃ h : Fin 15, ∃ s : State, s.debugs h = true ∧ (s.core h).halted = false) ∧
  (∃ h : Fin 15, ∃ s : State, s.debugs h = false ∨ (s.core h).halted = true) ∧
  (∃ h : Fin 15, ∃ s : State, s.debugHalted h = true) ∧
  (∃ h : Fin 15, ∃ s : State, s.debugHalted h = false) ∧
  (∃ h : Fin 15, ∃ n : Fin 32, ∃ v : BitVec 64, ∃ s : State, s.debugHalted h = true ∧ hartEngine h = none) :=
  ⟨⟨0, 0x00500093, 0x00500093, 4, { State.reset with app.harts := State.reset.app.harts.set 0 { pc := 0x01000000, priv := 3 } }, by decide +kernel, ⟨by decide +kernel, by decide +kernel, by decide +kernel, by decide +kernel, by decide +kernel, by decide +kernel⟩, by decide +kernel, by decide +kernel⟩,
   ⟨0, 0x0020A023, 0x0020A023, 4, 0x01000100, { State.reset with app.harts := State.reset.app.harts.set 0 { pc := 0x01000000, priv := 3, x := (Hart.x {}).set 1 0x01000100 } }, by decide +kernel, ⟨by decide +kernel, by decide +kernel, by decide +kernel, by decide +kernel, by decide +kernel, by decide +kernel⟩, by decide +kernel, by decide +kernel, rfl, by decide +kernel, by decide +kernel⟩,
   ⟨0, 0x30200073, 4, { State.reset with app.harts := State.reset.app.harts.set 0 { pc := 0x01000000, priv := 3 } }, by decide +kernel, ⟨by decide +kernel, by decide +kernel, by decide +kernel, by decide +kernel, by decide +kernel, by decide +kernel⟩, by decide +kernel⟩,
   ⟨0, 0x00000073, 4, { State.reset with app.harts := State.reset.app.harts.set 0 { pc := 0x01000000, priv := 3 } }, by decide +kernel, ⟨by decide +kernel, by decide +kernel, by decide +kernel, by decide +kernel, by decide +kernel, by decide +kernel⟩, by decide +kernel⟩,
   ⟨0, 0x00000073, 7, { State.reset with app.clk.mtimecmp := ⟨0, []⟩, app.harts := State.reset.app.harts.set 0 { pc := 0x01000000, priv := 3, csr := ((Hart.csr {}).set 0x304 0x80).set 0x300 8 } }, by decide +kernel⟩,
   ⟨4, 0x00000073, .failed, State.reset, by decide +kernel⟩,
   ⟨5, 0, 0, 0, _, { State.reset with app.clk.run := 1, app.clk.appHeld := false, app.eng := State.reset.app.eng.set 0 { running := some 0 }, app.ctx := State.reset.app.ctx.set 0 { st := .running, regs := { pc := 0x04000000 } } }, by decide +kernel, by decide +kernel, by decide +kernel, by decide +kernel, by decide +kernel, rfl⟩,
   ⟨5, 0, 0, { State.reset with app.clk.run := 1, app.clk.appHeld := false, app.eng := State.reset.app.eng.set 0 { running := some 0 }, app.ctx := State.reset.app.ctx.set 0 { st := .running, regs := { pc := 0x04000000 } } }, by decide +kernel, by decide +kernel, by decide +kernel, by decide +kernel, by decide +kernel⟩,
   ⟨0, State.reset, by decide +kernel⟩,
   ⟨14, State.reset, by decide +kernel⟩,
   ⟨0, { State.reset with app.harts := State.reset.app.harts.set 0 { halted := true } }, by decide +kernel⟩,
   ⟨14, State.reset, by decide +kernel⟩,
   ⟨0, 3, 7, { State.reset with app.harts := State.reset.app.harts.set 0 { halted := true } }, by decide +kernel⟩⟩

/-- The hypotheses of `Obligations.RegisterAndObjectAccess` are met. -/
theorem witness_registerAndObjectAccess :
  (∃ p : Fin 24, ∃ a v : Word, ∃ s : State, s.regAllowed p a.toNat true = false) ∧
  (∃ p : Fin 24, ∃ a v : Word, ∃ s : State, s.regAllowed p a.toNat true = true) ∧
  (∃ p : Fin 24, ∃ a v : Word, ∃ n o : Nat, ∃ s : State, s.regAllowed p a.toNat true = true ∧ plcOf a.toNat =
    some (n, o)) ∧
  (∃ p : Fin 24, ∃ a v : Word, ∃ s : State, s.regAllowed p a.toNat true = true ∧ plcOf a.toNat = none ∧
    a.toNat / 0x10000 = 0x1040) ∧
  (∃ p : Fin 24, ∃ a v : Word, ∃ s : State, s.regAllowed p a.toNat true = true ∧ plcOf a.toNat = none ∧
    a.toNat / 0x10000 = 0x1000) ∧
  (∃ p : Fin 24, ∃ a v : Word, ∃ s : State, s.regAllowed p a.toNat true = true ∧ plcOf a.toNat = none ∧
    a.toNat / 0x10000 = 0x1003) ∧
  (∃ p : Fin 24, ∃ a v : Word, ∃ s : State, s.regAllowed p a.toNat true = true ∧ plcOf a.toNat = none ∧
    a.toNat / 0x10000 = 0x1004) ∧
  (∃ p : Fin 24, ∃ a v : Word, ∃ s : State, s.regAllowed p a.toNat true = true ∧ plcOf a.toNat = none ∧
    a.toNat / 0x10000 = 0x1006) ∧
  (∃ p : Fin 24, ∃ a v : Word, ∃ s : State, s.regAllowed p a.toNat true = true ∧ plcOf a.toNat = none ∧
    a.toNat / 0x10000 = 0x100A) ∧
  (∃ b : Bool, ∃ s : State, s.app.server.ready = true ∧ s.app.journal.staged ≠ []) ∧
  (∃ b : Bool, ∃ s : State, s.app.server.ready = false) ∧
  (∃ s : State, s.inReset = false) ∧
  (∃ b : Batch, ∃ r : List Batch, ∃ s : State, s.inReset = false ∧ s.app.journal.batches = b :: r ∧
    s.flashGrant b.ticket = true ∧ b.area = 0 ∧ s.app.journal.compact = none) ∧
  (∃ b : Batch, ∃ r : List Batch, ∃ s : State, s.inReset = false ∧ s.app.journal.batches = b :: r ∧
    s.flashGrant b.ticket = true ∧ b.area = 1 ∧ s.app.journal.compact = none) ∧
  (∃ b : Batch, ∃ r : List Batch, ∃ s : State, s.inReset = false ∧ s.app.journal.batches = b :: r ∧
    s.flashGrant b.ticket = false ∧ s.app.journal.compact = none) ∧
  (∃ a k : Nat, ∃ s : State, s.inReset = false ∧ s.app.journal.compact = some (a, k) ∧ s.flashGrant k = true) ∧
  (∃ b : Bool, ∃ s : State, s.inReset = true) ∧
  (∃ g : Word, ∃ i : BitVec 16, ∃ j : BitVec 8, ∃ o l : Nat, ∃ k : BitVec 64, ∃ b : Obj, ∃ s : State,
    s.die.running = true ∧ 0x5000 ≤ i.toNat ∧ i.toNat ≤ 0x5FFF ∧ i.toNat ≠ 0x5480 ∧ objSealed (s.elemDc
    i.toNat) i.toNat j.toNat = some b ∧ s.chanUnfit i.toNat j.toNat = false ∧ o ≤ (s.sealedValue .firmware
    i.toNat j.toNat).length) ∧
  (∃ q : Rq, ∃ i : BitVec 16, ∃ j : BitVec 8, ∃ o l : Nat, ∃ k : BitVec 64, ∃ s : State, s.die.running = true
    ∧ (i.toNat < 0x4000 ∨ 0x6000 ≤ i.toNat)) ∧
  (∃ q : Rq, ∃ i : BitVec 16, ∃ j : BitVec 8, ∃ o l : Nat, ∃ k : BitVec 64, ∃ c : Status, ∃ v : List Byte, ∃ u
    : State, ∃ s : State, s.die.running = true ∧ sealedRead q.role i.toNat j.toNat k.toNat s = (c, v, u)) ∧
  (∃ q : Rq, ∃ i : BitVec 16, ∃ j : BitVec 8, ∃ o l : Nat, ∃ k : BitVec 64, ∃ s : State, s.die.running = false) ∧
  (∃ q : Rq, ∃ i : BitVec 16, ∃ j : BitVec 8, ∃ o n : Nat, ∃ d : List Byte, ∃ s : State, s.die.running = false) ∧
  (∃ q : Rq, ∃ i : BitVec 16, ∃ j : BitVec 8, ∃ o n : Nat, ∃ d : List Byte, ∃ s : State, s.die.running = true
    ∧ s.dieRole q.role = false) ∧
  (∃ q : Rq, ∃ i : BitVec 16, ∃ j : BitVec 8, ∃ o n : Nat, ∃ d v : List Byte, ∃ u : State, ∃ s : State,
    s.die.running = true ∧ s.dieRole q.role = true ∧ stagePart i.toNat j.toNat o n d s = (.ok, some v, u)) ∧
  (∃ q : Rq, ∃ i : BitVec 16, ∃ j : BitVec 8, ∃ o n : Nat, ∃ d : List Byte, ∃ c : Status, ∃ u : State, ∃ s :
    State, s.die.running = true ∧ s.dieRole q.role = true ∧ stagePart i.toNat j.toNat o n d s = (c, none, u)) ∧
  (∃ g : Word, ∃ v : Byte, ∃ s : State, s.die.running = true ∧ [5, 10, 15, 30, 60].contains v.toNat = true ∧
    s.dieRole .operator = true) :=
  ⟨⟨20, 0x10000000, 1, State.reset, by decide +kernel⟩,
   ⟨0, 0x10000000, 1, State.reset, by decide +kernel⟩,
   ⟨0, 0x10080000, 1, 0, 0, State.reset, by decide +kernel⟩,
   ⟨0, 0x10400000, 1, State.reset, by decide +kernel⟩,
   ⟨0, 0x10000000, 1, State.reset, by decide +kernel⟩,
   ⟨0, 0x10030000, 1, State.reset, by decide +kernel⟩,
   ⟨0, 0x10040000, 1, State.reset, by decide +kernel⟩,
   ⟨0, 0x10060000, 1, State.reset, by decide +kernel⟩,
   ⟨0, 0x100A0000, 1, State.reset, by decide +kernel⟩,
   ⟨true, { State.reset with app.server.ready := true, app.journal.staged := [(1, none)] }, by decide +kernel⟩,
   ⟨true, { State.reset with app.server.ready := false }, by decide +kernel⟩,
   ⟨{ State.reset with app.clk.appHeld := false, cold.coldHeld := false }, by decide +kernel⟩,
   ⟨{ num := 4, recs := [], ticket := 9 }, [], { State.reset with app.girth.grants := [{ ticket := 9, port := 0, kind := 8, unit := 0, hold := 1 }], app.journal.batches := [{ num := 4, recs := [], ticket := 9, area := 0 }], app.clk.appHeld := false, cold.coldHeld := false }, by decide +kernel⟩,
   ⟨{ num := 4, recs := [], ticket := 9, area := 1 }, [], { State.reset with app.girth.grants := [{ ticket := 9, port := 0, kind := 8, unit := 0, hold := 1 }], app.journal.batches := [{ num := 4, recs := [], ticket := 9, area := 1 }], app.clk.appHeld := false, cold.coldHeld := false }, by decide +kernel⟩,
   ⟨{ num := 4, recs := [], ticket := 0 }, [], { State.reset with app.journal.batches := [{ num := 4, recs := [], ticket := 0 }], app.clk.appHeld := false, cold.coldHeld := false }, by decide +kernel⟩,
   ⟨0, 9, { State.reset with app.girth.grants := [{ ticket := 9, port := 0, kind := 8, unit := 0, hold := 1 }], app.journal.compact := some (0, 9), app.clk.appHeld := false, cold.coldHeld := false }, by decide +kernel⟩,
   ⟨true, { State.reset with app.clk.appHeld := true }, by decide +kernel⟩,
   ⟨1, 0x5500, 1, 0, 8, 0, oStat 8 rAll, { State.reset with die.running := true }, by decide +kernel⟩,
   ⟨⟨.operator, 1⟩, 0x6000, 1, 0, 8, 0, { State.reset with die.running := true }, by decide +kernel⟩,
   ⟨⟨.operator, 1⟩, 0x6000, 1, 0, 8, 0, _, _, _, { State.reset with die.running := true }, by decide +kernel, rfl⟩,
   ⟨⟨.operator, 1⟩, 0x6000, 1, 0, 8, 0, { State.reset with die.running := false }, by decide +kernel⟩,
   ⟨⟨.operator, 1⟩, 0x6000, 1, 0, 8, [], { State.reset with die.running := false }, by decide +kernel⟩,
   ⟨⟨.operator, 1⟩, 0x5500, 1, 0, 1, [1], { State.reset with die.running := true, die.legal.roleOff := 0xFF }, by decide +kernel⟩,
   ⟨⟨.operator, 1⟩, 0x5480, 1, 0, 1, [1], [1], _, { State.reset with die.running := true }, by decide +kernel, by decide +kernel, rfl⟩,
   ⟨⟨.operator, 1⟩, 0x5480, 1, 0, 2, [1], _, _, { State.reset with die.running := true }, by decide +kernel, by decide +kernel, rfl⟩,
   ⟨1, 30, { State.reset with die.running := true }, by decide +kernel⟩⟩

/-- The hypotheses of `Obligations.StepTakesTheFront` are met. -/
theorem witness_stepTakesTheFront : ∃ s : State, s.pending = [] := ⟨State.reset, rfl⟩

/-- The hypotheses of `Obligations.QueueOnlyAdvances` are met. -/
theorem witness_queueOnlyAdvances : ∃ (i : Instr) (s t : State), exec i s = .next t ∧ step { s with pending := [i] } = .next t :=
  ⟨.pmcSnapshot 1, State.reset, _, rfl, rfl⟩

/-- The hypotheses of `Obligations.FusesOnlyRise` are met. -/
theorem witness_fusesOnlyRise : ∃ (i : Instr) (s t : State), exec i s = .next t ∧ step { s with pending := [i] } = .next t :=
  ⟨.pmcSnapshot 1, State.reset, _, rfl, rfl⟩

/-- The hypotheses of `Obligations.SealedDieFrame` are met. -/
theorem witness_sealedDieFrame : ∃ (i : Instr) (s t : State), i.writesDie = false ∧ exec i s = .next t ∧ t ≠ s :=
  ⟨.pmcSnapshot 1, State.reset, _, rfl, rfl, by decide +kernel⟩

/-- The hypotheses of `Obligations.BridleFrame` are met. -/
theorem witness_bridleFrame : ∃ (i : Instr) (s t : State), i.writesBridle = false ∧ exec i s = .next t ∧ t ≠ s :=
  ⟨.pmcSnapshot 1, State.reset, _, rfl, rfl, by decide +kernel⟩

/-- The hypotheses of `Obligations.CounterSnapshot` are met. -/
theorem witness_counterSnapshot : (∃ v : Word, bit v 0 = true) ∧ ∃ v : Word, bit v 0 = false :=
  ⟨⟨1, by decide⟩, ⟨0, by decide⟩⟩

/-- The hypotheses of `Obligations.IdentityRegisters` are met. -/
theorem witness_identityRegisters : ∃ (c : Nat) (r : Hart), c = 0xF13 ∧ r.priv = 3 := ⟨0xF13, { priv := 3 }, rfl, rfl⟩

/-- The hypotheses of `Obligations.RecurringGenerations` are met. -/
theorem witness_recurringGenerations :
    (∃ (port : Fin 24) (e : Fin 8) (v : Word) (s : State), sesWriter port e = true ∧
      s.startStatus e (fld v 0 5) (fld v 8 6) (fld v 6 2) = .ok ∧ (s.app.ctx.get (32 * e + fld v 0 5)).gen < 0xFFFF) ∧
    (∃ (port : Fin 24) (e : Fin 8) (v : Word) (s : State), sesWriter port e = true ∧
      s.startStatus e (fld v 0 5) (fld v 8 6) (fld v 6 2) = .ok ∧ (s.app.ctx.get (32 * e + fld v 0 5)).gen = 0xFFFF) ∧
    ∃ (s : State) (a : Asker) (idx sub slot : Nat) (o : Obj), s.entry idx sub = some o ∧ s.carries a = true ∧
      isSession idx = true ∧ slot = (idx - 0x4000) / 8 ∧ a.handle = s.handleOf slot ∧ a.serial ≠ s.serialOf slot ∧
      granted o.rd a.role = true ∧ granted o.wr a.role = true ∧ (o.latigo && overCan a.via) = false :=
  ⟨⟨0, 1, 0x103, { State.reset with obj.live := State.reset.obj.live.set (ptBase 1 * 256 + 1) (some [1]) }, by decide +kernel⟩,
   ⟨0, 1, 0x103, { State.reset with
      obj.live := State.reset.obj.live.set (ptBase 1 * 256 + 1) (some [1])
      app.ctx := State.reset.app.ctx.upd 35 (fun c => { c with gen := 0xFFFF }) }, by decide +kernel⟩,
   ⟨{ State.reset with app.clk.run := 0xFF }, { via := .can 0 0, role := .operator, handle := 0, serial := 5 }, 0x4001, 2, 0,
     _, rfl, by decide +kernel⟩⟩

/-- The hypotheses of `Obligations.PowerDieFrame` are met. -/
theorem witness_powerDieFrame : ∃ (i : Instr) (s t : State), i.writesPower = false ∧ exec i s = .next t ∧ t ≠ s :=
  ⟨.pmcSnapshot 1, State.reset, _, rfl, rfl, by decide +kernel⟩

end Sys2Proof.Tests
end

section
/-!
SUPPORT. Proofs about the performance-counter snapshot (05 R119) and the identity CSRs of the harts (05 R100).
-/
set_option Elab.async false
namespace Sys2Proof.Machine

/-! ### The performance counters -/

/-- The bus data of a good read are the word read. -/
theorem busOk_busData (v : Word) (s : State) : (busOk v s).app.clk.busData = v := rfl

/-- The command is the write of PMC_SNAP. -/
theorem exec_pmcSnapshot (v : Word) (s : State) : exec (.pmcSnapshot v) s = .next (pmcSnapshot v s) := rfl

/-- A 1 in TAKE copies the bank of counters and counts the snapshot. -/
theorem pmcSnapshot_of_take {v : Word} (h : bit v 0 = true) (s : State) :
    pmcSnapshot v s = { s with app.pmc.snap := s.app.pmc.cnt, app.pmc.taken := wrap16 s.app.pmc.taken } :=
  if_pos h

/-- Without TAKE the write has no effect. -/
theorem pmcSnapshot_of_not_take {v : Word} (h : bit v 0 = false) (s : State) : pmcSnapshot v s = s := by
  simp [pmcSnapshot, h]

/-- The first 128 words of the block are the live counters. -/
theorem pmcRead_counter (i : Fin 128) (s : State) :
    (pmcRead (4 * i) s).app.clk.busData = BitVec.ofNat 32 (s.app.pmc.cnt.get i) := by
  have hlow : 4 * i.val ≤ 0x1FC := by omega
  have hword : 4 * i.val / 4 = i.val := by omega
  rw [pmcRead, if_pos hlow, busOk_busData, hword]

/-- The 128 words from 600h on are the snapshot registers. -/
theorem pmcRead_snapshot (i : Fin 128) (s : State) :
    (pmcRead (0x600 + 4 * i) s).app.clk.busData = BitVec.ofNat 32 (s.app.pmc.snap.get i) := by
  have hcnt : ¬ 0x600 + 4 * i.val ≤ 0x1FC := by omega
  have hsel : ¬ within 0x200 (0x600 + 4 * i.val) 0x3FC = true := by simp [within]; omega
  have hsnap : ¬ 0x600 + 4 * i.val = 0x400 := by omega
  have hwin : within 0x600 (0x600 + 4 * i.val) 0x7FC = true := by simp [within]; omega
  have hword : (0x600 + 4 * i.val - 0x600) / 4 = i.val := by omega
  rw [pmcRead, if_neg hcnt, if_neg hsel, if_neg hsnap, if_pos hwin, busOk_busData, hword]

/-- Settles O56: TAKE copies the whole bank in the one command, and the two read windows are disjoint. -/
theorem counterSnapshot : Obligations.CounterSnapshot := by
  unfold Obligations.CounterSnapshot
  constructor
  · intro v s htake
    refine ⟨_, exec_pmcSnapshot v s, ?_⟩
    rw [pmcSnapshot_of_take htake]
    exact ⟨rfl, fun _ => rfl, fun later i => ⟨pmcRead_snapshot i _, pmcRead_counter i _⟩⟩
  · intro v s hkeep
    rw [exec_pmcSnapshot, pmcSnapshot_of_not_take hkeep]

/-! ### The identity CSRs -/

/-- A CSR of value 0 reads 0, whatever the core's own CSR bank holds. -/
theorem csrRead_of_zeroCsr {h c : Nat} (hz : zeroCsr h c = true) (s : State) : s.csrRead h c = 0 := by
  simp [State.csrRead, hz]

/-- mvendorid (F11h) and marchid (F12h) are CSRs of value 0 on every hart. -/
theorem zeroCsr_vendor_arch {h c : Nat} (hc : c = 0xF11 ∨ c = 0xF12) : zeroCsr h c = true := by
  rcases hc with rfl | rfl <;> simp [zeroCsr, within]

/-- mimpid (F13h) and mhartid (F14h) are not CSRs of value 0. -/
theorem zeroCsr_impid_hartid {h c : Nat} (hc : c = 0xF13 ∨ c = 0xF14) : zeroCsr h c = false := by
  rcases hc with rfl | rfl <;> simp [zeroCsr, within]

/-- mimpid is the stepping's word on every hart. -/
theorem csrRead_mimpid (h : Nat) (s : State) : s.csrRead h 0xF13 = mimpid := by
  simp [State.csrRead, zeroCsr_impid_hartid, within]

/-- mhartid is the hart's own number. -/
theorem csrRead_mhartid (h : Nat) (s : State) : s.csrRead h 0xF14 = BitVec.ofNat 64 h := by
  simp [State.csrRead, zeroCsr_impid_hartid, within]

/-- The four identity CSRs exist on every hart. -/
theorem csrExists_identity {c : Nat} (h : Nat) (hc : c = 0xF11 ∨ c = 0xF12 ∨ c = 0xF13 ∨ c = 0xF14) :
    csrExists h c = true := by
  rcases hc with rfl | rfl | rfl | rfl
  · simp [csrExists, zeroCsr_vendor_arch]
  · simp [csrExists, zeroCsr_vendor_arch]
  · simp [csrExists, within]
  · simp [csrExists, within]

/-- Machine mode may reach every CSR outside 001h to 003h: the guards on satp and time bind the lower modes only,
the guard of the floating-point CSRs (mstatus.FS) binds machine mode as well. -/
theorem csrAllowed_of_machine {h c : Nat} {r : Hart} (hm : r.priv = 3) (hf : within 1 c 3 = false) :
    csrAllowed h r c = true := by
  have hlevel : c / 256 % 4 ≤ 3 := by omega
  simp [csrAllowed, hm, hf, hlevel]

/-- Settles O57: one reading rule for each of the four numbers, and all four lie outside the floating-point CSRs. -/
theorem identityRegisters : Obligations.IdentityRegisters := by
  unfold Obligations.IdentityRegisters
  intro h s r
  have hvendor : s.csrRead h 0xF11 = 0 := csrRead_of_zeroCsr (zeroCsr_vendor_arch (.inl rfl)) s
  have harch : s.csrRead h 0xF12 = 0 := csrRead_of_zeroCsr (zeroCsr_vendor_arch (.inr rfl)) s
  refine ⟨csrRead_mhartid h s, hvendor, harch, csrRead_mimpid h s,
    fun c hc => ⟨csrExists_identity h hc, fun hm => ?_⟩⟩
  have hf : within 1 c 3 = false := by
    rcases hc with rfl | rfl | rfl | rfl <;> rfl
  exact csrAllowed_of_machine hm hf

end Sys2Proof.Machine
end

section
/-!
SUPPORT. Proofs about the generations of the session slots (17 R425; 09 R209) and the handles that recur (00 R11).
-/
set_option Elab.async false
namespace Sys2Proof.Machine

/-! ### The next generation -/

/-- FFFFh is followed by 1. -/
theorem wrap16From1_of_max : wrap16From1 0xFFFF = 1 := rfl

/-- Below FFFFh the identifier counts up by one. -/
theorem wrap16From1_of_lt {n : Nat} (h : n < 0xFFFF) : wrap16From1 n = n + 1 :=
  if_neg (by omega)

/-- 0 is never a next identifier: it stands only for a slot not yet started. -/
theorem wrap16From1_ne_zero (n : Nat) : wrap16From1 n ≠ 0 := by
  unfold wrap16From1
  split <;> omega

/-- The command is a write of SES_CMD with CMD 1. -/
theorem exec_sesStart (port : Fin 24) (e : Fin 8) (v : Word) (s : State) :
    exec (.sesStart port e v) s = .next (sesCmd 1 port e v s) := rfl

/-- A START that meets no check gives the slot its next generation. -/
theorem sesCmd_start_gen {port e : Nat} {v : Word} {s : State} (hw : sesWriter port e = true)
    (hok : s.startStatus e (fld v 0 5) (fld v 8 6) (fld v 6 2) = .ok) :
    ((sesCmd 1 port e v s).app.ctx.get (32 * e + fld v 0 5)).gen =
      wrap16From1 (s.app.ctx.get (32 * e + fld v 0 5)).gen := by
  obtain ⟨-, -, -, hgen, -⟩ := start_facts port e v s hw hok
  exact hgen

/-! ### A handle with another serial -/

/-- A request names the session that it finds by its serial too. -/
theorem serial_eq_of_namesSession {s : State} {handle serial slot : Nat}
    (h : s.namesSession handle serial = some slot) : serial = s.serialOf slot := by
  simp only [State.namesSession, Option.ite_none_right_eq_some, Bool.and_eq_true, decide_eq_true_eq,
    Option.some.injEq] at h
  obtain ⟨⟨-, hserial⟩, hslot⟩ := h
  rw [← hslot, hserial]

/-- Check 4 of R126 fails for a session entry where the serial is not the slot's, whatever the handle. -/
theorem namesSlot_of_serial_ne {s : State} {a : Asker} {idx : Nat} (hses : isSession idx = true)
    (hne : a.serial ≠ s.serialOf ((idx - 0x4000) / 8)) : s.namesSlot a idx = false := by
  have hother : s.namesSession a.handle a.serial ≠ some ((idx - 0x4000) / 8) :=
    fun h => hne (serial_eq_of_namesSession h)
  simp [State.namesSlot, hses, hother]

/-- A read that passes the checks of existence, transport and role, and then names no live session of the entry's
slot, is STALE and has no effect (R126). -/
theorem serveRead_of_not_namesSlot {s : State} {a : Asker} {idx sub : Nat} {o : Obj} (hentry : s.entry idx sub = some o)
    (hcarries : s.carries a = true) (hrole : granted o.rd a.role = true) (hnames : s.namesSlot a idx = false) :
    serveRead a idx sub s = (.stale, [], s) := by
  simp [serveRead, hentry, hcarries, hrole, hnames]

/-- The same for a write, whose transport check has a further part for the entries written over Latigo only. -/
theorem serveWrite_of_not_namesSlot {s : State} {a : Asker} {idx sub : Nat} {o : Obj} (d : List Byte)
    (hentry : s.entry idx sub = some o) (hcarries : s.carries a = true) (hrole : granted o.wr a.role = true)
    (hvia : (o.latigo && overCan a.via) = false) (hnames : s.namesSlot a idx = false) :
    serveWrite a idx sub d s = (.stale, s) := by
  simp [serveWrite, hentry, hcarries, hrole, hvia, hnames]

/-- Settles O58: a START takes `wrap16From1` of the generation, and check 4 of R126 compares the serial as well as the
handle, so that a recurred handle alone passes neither for a read nor for a write. -/
theorem recurringGenerations : Obligations.RecurringGenerations := by
  unfold Obligations.RecurringGenerations
  constructor
  · intro port e v s hw hok
    refine ⟨_, exec_sesStart port e v s, ?_⟩
    rw [sesCmd_start_gen hw hok]
    exact ⟨wrap16From1_ne_zero _, fun hmax => by rw [hmax, wrap16From1_of_max], wrap16From1_of_lt⟩
  · rintro s a idx sub slot o d hentry hcarries hses rfl - hserial
    have hnames : s.namesSlot a idx = false := namesSlot_of_serial_ne hses hserial
    exact ⟨fun hrole => serveRead_of_not_namesSlot hentry hcarries hrole hnames,
      fun hrole hvia => serveWrite_of_not_namesSlot d hentry hcarries hrole hvia hnames⟩

end Sys2Proof.Machine
end

section
/-!
SUPPORT. Proofs about the queue of waiting commands and the fuses, over every command and the tick (00 R8; 16 R395). Each table
names, for one command, the law about its own effect.
-/
set_option Elab.async false
namespace Sys2Proof.Machine

/-! ### The queue -/

/-- A command leaves the queue of waiting commands as it was: for every constructor of `Instr` its own law. -/
theorem exec_pending {i : Instr} {s t : State} (ht : exec i s = .next t) : t.pending = s.pending := by
  cases i with
  | registerWrite => exact execRegisterWrite_pending (ht := ht)
  | sealedLinkMessageReceive => exact execSealedLinkMessageReceive_pending (ht := ht)
  | linkKeyAgreement => exact execLinkKeyAgreement_pending (ht := ht)
  | linkAckReceive => exact execLinkAckReceive_pending (ht := ht)
  | sealedLinkHeartbeat => exact execSealedLinkHeartbeat_pending (ht := ht)
  | sealedLinkResendTimeout => exact execSealedLinkResendTimeout_pending (ht := ht)
  | sealedLinkSilenceTimeout => exact execSealedLinkSilenceTimeout_pending (ht := ht)
  | bridleHeartbeat => exact execBridleHeartbeat_pending (ht := ht)
  | safetyLaneHeartbeatLoss => exact execSafetyLaneHeartbeatLoss_pending (ht := ht)
  | safeStateReport => exact execSafeStateReport_pending (ht := ht)
  | safeStateRelease => exact execSafeStateRelease_pending (ht := ht)
  | appLaneCommand => exact execAppLaneCommand_pending (ht := ht)
  | safetyLaneCommand => exact execSafetyLaneCommand_pending (ht := ht)
  | powerDieClockFail => exact execPowerDieClockFail_pending (ht := ht)
  | powerDieClockReturn => exact execPowerDieClockReturn_pending (ht := ht)
  | powerDieReset => exact execPowerDieReset_pending (ht := ht)
  | vcoreTrip => exact execVcoreTrip_pending (ht := ht)
  | vioTrip => exact execVioTrip_pending (ht := ht)
  | vanaTrip => exact execVanaTrip_pending (ht := ht)
  | sealedSupplyTrip vmio => exact execSealedSupplyTrip_pending vmio s t ht
  | sealedWatchdogExpiry => exact execSealedWatchdogExpiry_pending (ht := ht)
  | vbatSample => exact execVbatSample_pending (ht := ht)
  | legalClockStop => exact execLegalClockStop_pending (ht := ht)
  | vloadTrip above => exact execVloadTrip_pending above s t ht
  | vloadRelease => exact execVloadRelease_pending (ht := ht)
  | pilotSupplyTrip => exact execPilotSupplyTrip_pending (ht := ht)
  | pilotSupplyRelease => exact execPilotSupplyRelease_pending (ht := ht)
  | vdrvTrip => exact execVdrvTrip_pending (ht := ht)
  | powerFailWarning => exact execPowerFailWarning_pending (ht := ht)
  | powerFailRelease => exact execPowerFailRelease_pending (ht := ht)
  | powerOnStart => exact execPowerOnStart_pending (ht := ht)
  | warmStart => exact execWarmStart_pending (ht := ht)
  | clkSscWrite => exact execClkSscWrite_pending (ht := ht)
  | spreadDisableHoldExpiry => exact execSpreadDisableHoldExpiry_pending (ht := ht)
  | mainRefFail => exact execMainRefFail_pending (ht := ht)
  | mainRefRecovered => exact execMainRefRecovered_pending (ht := ht)
  | pllChUnlock h => exact execPllChUnlock_pending h s t ht
  | pllPUnlock => exact execPllPUnlock_pending (ht := ht)
  | pllEUnlock => exact execPllEUnlock_pending (ht := ht)
  | bridleOscFail => exact execBridleOscFail_pending (ht := ht)
  | metrologyRefFail => exact execMetrologyRefFail_pending (ht := ht)
  | metrologyRefReturn => exact execMetrologyRefReturn_pending (ht := ht)
  | legalCrystalFail => exact execLegalCrystalFail_pending (ht := ht)
  | resetPin => exact execResetPin_pending (ht := ht)
  | watchdogExpiry => exact execWatchdogExpiry_pending (ht := ht)
  | watchdogHalfPeriod => exact execWatchdogHalfPeriod_pending (ht := ht)
  | watchdogKick => exact execWatchdogKick_pending (ht := ht)
  | watchdogPeriodSet => exact execWatchdogPeriodSet_pending (ht := ht)
  | appResetRequest => exact execAppResetRequest_pending (ht := ht)
  | jtagResetRequest => exact execJtagResetRequest_pending (ht := ht)
  | engineRun => exact execEngineRun_pending (ht := ht)
  | engineReset => exact execEngineReset_pending (ht := ht)
  | reclaim => exact execReclaim_pending (ht := ht)
  | holdWindowExpiry => exact execHoldWindowExpiry_pending (ht := ht)
  | shutdownCurrentTimeout => exact execShutdownCurrentTimeout_pending (ht := ht)
  | shutdownLockRelease => exact execShutdownLockRelease_pending (ht := ht)
  | harnessBurst => exact execHarnessBurst_pending (ht := ht)
  | hrnWaitmaxRead => exact execHrnWaitmaxRead_pending (ht := ht)
  | girthRequest => exact execGirthRequest_pending (ht := ht)
  | girthGrant => exact execGirthGrant_pending (ht := ht)
  | girthRelease => exact execGirthRelease_pending (ht := ht)
  | girthHoldExpiry => exact execGirthHoldExpiry_pending (ht := ht)
  | unitOffReport => exact execUnitOffReport_pending (ht := ht)
  | girthDerateSample => exact execGirthDerateSample_pending (ht := ht)
  | girthShareWrite => exact execGirthShareWrite_pending (ht := ht)
  | girthRebuild => exact execGirthRebuild_pending (ht := ht)
  | grtBypassRead => exact execGrtBypassRead_pending (ht := ht)
  | deliveryTimeout => exact execDeliveryTimeout_pending (ht := ht)
  | instruction => exact execInstruction_pending (ht := ht)
  | timerCompareMatch => exact execTimerCompareMatch_pending (ht := ht)
  | debugAccess => exact execDebugAccess_pending (ht := ht)
  | buckleSourceEdge => exact execBuckleSourceEdge_pending (ht := ht)
  | buckleLevelChange => exact execBuckleLevelChange_pending (ht := ht)
  | buckleClaim => exact execBuckleClaim_pending (ht := ht)
  | buckleComplete => exact execBuckleComplete_pending (ht := ht)
  | buckleCPendRead => exact execBuckleCPendRead_pending (ht := ht)
  | buckleCPendWrite => exact execBuckleCPendWrite_pending (ht := ht)
  | buckleCVecRead => exact execBuckleCVecRead_pending (ht := ht)
  | bucklePendClear => exact execBucklePendClear_pending (ht := ht)
  | buckleSoftwareSet => exact execBuckleSoftwareSet_pending (ht := ht)
  | buckleCfgWrite => exact execBuckleCfgWrite_pending (ht := ht)
  | sleepLatchWake => exact execSleepLatchWake_pending (ht := ht)
  | pairMailboxCommit => exact execPairMailboxCommit_pending (ht := ht)
  | pairMailboxRemove port m => exact execPairMailboxRemove_pending port m s t ht
  | hubMailboxAcquire => exact execHubMailboxAcquire_pending (ht := ht)
  | hubMailboxCommit => exact execHubMailboxCommit_pending (ht := ht)
  | hubMailboxRelease => exact execHubMailboxRelease_pending (ht := ht)
  | keeperTimeout => exact execKeeperTimeout_pending (ht := ht)
  | hubMailboxRemove => exact execHubMailboxRemove_pending (ht := ht)
  | mbxDroppedRead => exact execMbxDroppedRead_pending (ht := ht)
  | counterWrap => exact execCounterWrap_pending (ht := ht)
  | pmcSelect => exact execPmcSelect_pending (ht := ht)
  | pmcSnapshot => exact execPmcSnapshot_pending (ht := ht)
  | sdoInitiateDownload => exact execSdoInitiateDownload_pending (ht := ht)
  | sdoDownloadSegment => exact execSdoDownloadSegment_pending (ht := ht)
  | sdoInitiateUpload => exact execSdoInitiateUpload_pending (ht := ht)
  | sdoUploadSegment => exact execSdoUploadSegment_pending (ht := ht)
  | sdoUnsupportedCommand => exact execSdoUnsupportedCommand_pending (ht := ht)
  | usdoRequest => exact execUsdoRequest_pending (ht := ht)
  | sdoSegmentTimeout => exact execSdoSegmentTimeout_pending (ht := ht)
  | nmtStart => exact execNmtStart_pending (ht := ht)
  | nmtStop => exact execNmtStop_pending (ht := ht)
  | nmtEnterPreoperational => exact execNmtEnterPreoperational_pending (ht := ht)
  | nmtResetCommunication => exact execNmtResetCommunication_pending (ht := ht)
  | nmtResetNode => exact execNmtResetNode_pending (ht := ht)
  | canopenHeartbeat => exact execCanopenHeartbeat_pending (ht := ht)
  | sync => exact execSync_pending (ht := ht)
  | tpdoEventTimer => exact execTpdoEventTimer_pending (ht := ht)
  | canBusOff => exact execCanBusOff_pending (ht := ht)
  | canBusOffRecovery => exact execCanBusOffRecovery_pending (ht := ht)
  | latigoConnect => exact execLatigoConnect_pending (ht := ht)
  | latigoRead => exact execLatigoRead_pending (ht := ht)
  | latigoWrite => exact execLatigoWrite_pending (ht := ht)
  | latigoSubscribe => exact execLatigoSubscribe_pending (ht := ht)
  | latigoUnsubscribe => exact execLatigoUnsubscribe_pending (ht := ht)
  | latigoKeepalive => exact execLatigoKeepalive_pending (ht := ht)
  | latigoNotify => exact execLatigoNotify_pending (ht := ht)
  | latigoBadFrame => exact execLatigoBadFrame_pending (ht := ht)
  | latigoIdleTimeout => exact execLatigoIdleTimeout_pending (ht := ht)
  | latigoCertExpiry => exact execLatigoCertExpiry_pending (ht := ht)
  | latigoClose => exact execLatigoClose_pending (ht := ht)
  | journalBatchClose save => exact execJournalBatchClose_pending save s t ht
  | xspiOperationDone => exact execXspiOperationDone_pending (ht := ht)
  | pilotCommand => exact execPilotCommand_pending (ht := ht)
  | pilotPeriodStart => exact execPilotPeriodStart_pending (ht := ht)
  | pilotWake => exact execPilotWake_pending (ht := ht)
  | pilotWakeEnd => exact execPilotWakeEnd_pending (ht := ht)
  | pilotPeriodTrim => exact execPilotPeriodTrim_pending (ht := ht)
  | pilotPlateauEvaluation => exact execPilotPlateauEvaluation_pending (ht := ht)
  | pilotFaultFrame p cause => exact execPilotFaultFrame_pending p cause s t ht
  | offWaitExpiry => exact execOffWaitExpiry_pending (ht := ht)
  | proximityMeasurement => exact execProximityMeasurement_pending (ht := ht)
  | pilotCfgWrite => exact execPilotCfgWrite_pending (ht := ht)
  | pilTsRead => exact execPilTsRead_pending (ht := ht)
  | plcStart => exact execPlcStart_pending (ht := ht)
  | plcStop => exact execPlcStop_pending (ht := ht)
  | plcStoppingEnd => exact execPlcStoppingEnd_pending (ht := ht)
  | plcReslac => exact execPlcReslac_pending (ht := ht)
  | beacon => exact execBeacon_pending (ht := ht)
  | slacParmReq => exact execSlacParmReq_pending (ht := ht)
  | startAttenChar => exact execStartAttenChar_pending (ht := ht)
  | slacSound => exact execSlacSound_pending (ht := ht)
  | slacCollectionClose => exact execSlacCollectionClose_pending (ht := ht)
  | slacValidateReq => exact execSlacValidateReq_pending (ht := ht)
  | slacValidateWindowEnd => exact execSlacValidateWindowEnd_pending (ht := ht)
  | slacMatchReq => exact execSlacMatchReq_pending (ht := ht)
  | slacMatchTimeout => exact execSlacMatchTimeout_pending (ht := ht)
  | plcMpduReceive => exact execPlcMpduReceive_pending (ht := ht)
  | plcLinkLost => exact execPlcLinkLost_pending (ht := ht)
  | nekRenewal => exact execNekRenewal_pending (ht := ht)
  | plcTxPost => exact execPlcTxPost_pending (ht := ht)
  | plcSackReceived => exact execPlcSackReceived_pending (ht := ht)
  | plcTxTimeout => exact execPlcTxTimeout_pending (ht := ht)
  | plcRxPop => exact execPlcRxPop_pending (ht := ht)
  | plcTxdoneRead => exact execPlcTxdoneRead_pending (ht := ht)
  | plcNtbRead => exact execPlcNtbRead_pending (ht := ht)
  | reinSourceClaim => exact execReinSourceClaim_pending (ht := ht)
  | reinMailboxStash => exact execReinMailboxStash_pending (ht := ht)
  | reinActivation => exact execReinActivation_pending (ht := ht)
  | sesDone => exact execSesDone_pending (ht := ht)
  | sesPost => exact execSesPost_pending (ht := ht)
  | sesPostr => exact execSesPostr_pending (ht := ht)
  | evTake => exact execEvTake_pending (ht := ht)
  | budgetExhausted => exact execBudgetExhausted_pending (ht := ht)
  | trapNoticeCommit => exact execTrapNoticeCommit_pending (ht := ht)
  | reinTimerExpiry => exact execReinTimerExpiry_pending (ht := ht)
  | sesStart => exact execSesStart_pending (ht := ht)
  | sesRestart => exact execSesRestart_pending (ht := ht)
  | sesFree => exact execSesFree_pending (ht := ht)
  | sesSetrole => exact execSesSetrole_pending (ht := ht)
  | sesUseRead => exact execSesUseRead_pending (ht := ht)
  | sdpRequest => exact execSdpRequest_pending (ht := ht)
  | v2gTcpConnect => exact execV2gTcpConnect_pending (ht := ht)
  | v2gTlsHandshake => exact execV2gTlsHandshake_pending (ht := ht)
  | v2gtpMessage => exact execV2gtpMessage_pending (ht := ht)
  | supportedAppProtocolReq => exact execSupportedAppProtocolReq_pending (ht := ht)
  | v2gRequest => exact execV2gRequest_pending (ht := ht)
  | authorizationSetupReq => exact execAuthorizationSetupReq_pending (ht := ht)
  | authorizationReq => exact execAuthorizationReq_pending (ht := ht)
  | certificateInstallationReq => exact execCertificateInstallationReq_pending (ht := ht)
  | powerDeliveryStart => exact execPowerDeliveryStart_pending (ht := ht)
  | ongoingTimeExpiry => exact execOngoingTimeExpiry_pending (ht := ht)
  | hostDecisionTimeout => exact execHostDecisionTimeout_pending (ht := ht)
  | hostDecision => exact execHostDecision_pending (ht := ht)
  | v2gSequenceTimeout => exact execV2gSequenceTimeout_pending (ht := ht)
  | v2gSetupTimeout => exact execV2gSetupTimeout_pending (ht := ht)
  | skiverSubmit => exact execSkiverSubmit_pending (ht := ht)
  | skiverComplete => exact execSkiverComplete_pending (ht := ht)
  | skiverCplRead => exact execSkiverCplRead_pending (ht := ht)
  | awlJobComplete => exact execAwlJobComplete_pending (ht := ht)
  | sequenceSignalChange => exact execSequenceSignalChange_pending (ht := ht)
  | vcanFrame => exact execVcanFrame_pending (ht := ht)
  | chargerFramePeriod => exact execChargerFramePeriod_pending (ht := ht)
  | vcanFirstFrameTimeout => exact execVcanFirstFrameTimeout_pending (ht := ht)
  | vcanFrameTimeout => exact execVcanFrameTimeout_pending (ht := ht)
  | adcOverload => exact execAdcOverload_pending (ht := ht)
  | gainRaise => exact execGainRaise_pending (ht := ht)
  | bitstreamModfail => exact execBitstreamModfail_pending (ht := ht)
  | elementCycleEnd => exact execElementCycleEnd_pending (ht := ht)
  | blockModeEntry => exact execBlockModeEntry_pending (ht := ht)
  | blockModeReturn => exact execBlockModeReturn_pending (ht := ht)
  | harmonicWindowEnd => exact execHarmonicWindowEnd_pending (ht := ht)
  | temperatureBandSample => exact execTemperatureBandSample_pending (ht := ht)
  | shadowCheckEnd => exact execShadowCheckEnd_pending (ht := ht)
  | pulseDue => exact execPulseDue_pending (ht := ht)
  | pulseOnTimeEnd => exact execPulseOnTimeEnd_pending (ht := ht)
  | sliceEnd => exact execSliceEnd_pending (ht := ht)
  | residueUpdate => exact execResidueUpdate_pending (ht := ht)
  | periodicCommit => exact execPeriodicCommit_pending (ht := ht)
  | metrologyRead => exact execMetrologyRead_pending (ht := ht)
  | sealOpen => exact execSealOpen_pending (ht := ht)
  | sealParameterWrite => exact execSealParameterWrite_pending (ht := ht)
  | sealCloseCommit => exact execSealCloseCommit_pending (ht := ht)
  | sealCloseAbandon => exact execSealCloseAbandon_pending (ht := ht)
  | sealTimeout => exact execSealTimeout_pending (ht := ht)
  | sealedLinkSend => exact execSealedLinkSend_pending (ht := ht)
  | sealedLinkPop => exact execSealedLinkPop_pending (ht := ht)
  | sealedObjectRead => exact execSealedObjectRead_pending (ht := ht)
  | sealedObjectWrite => exact execSealedObjectWrite_pending (ht := ht)
  | recordOpen => exact execRecordOpen_pending (ht := ht)
  | recordClose => exact execRecordClose_pending (ht := ht)
  | recordQuery => exact execRecordQuery_pending (ht := ht)
  | recordSigned => exact execRecordSigned_pending (ht := ht)
  | recordCollectionAck => exact execRecordCollectionAck_pending (ht := ht)
  | sessionNoticePlug tag p handle => exact execSessionNoticePlug_pending tag p handle s t ht
  | sessionNoticeAuthorise tag p handle serial => exact execSessionNoticeAuthorise_pending tag p handle serial s t ht
  | sessionNoticeEnergyFlow tag p handle serial =>
    exact execSessionNoticeEnergyFlow_pending tag p handle serial s t ht
  | sessionNoticeStop tag p handle serial reason =>
    exact execSessionNoticeStop_pending tag p handle serial reason s t ht
  | sessionNoticeMeteringConfirmation tag p handle serial reading sig =>
    exact execSessionNoticeMeteringConfirmation_pending tag p handle serial reading sig s t ht
  | signedReading => exact execSignedReading_pending (ht := ht)
  | purseQuery => exact execPurseQuery_pending (ht := ht)
  | calendarWrite => exact execCalendarWrite_pending (ht := ht)
  | calendarActivateSet => exact execCalendarActivateSet_pending (ht := ht)
  | calendarActivation => exact execCalendarActivation_pending (ht := ht)
  | ltSet => exact execLtSet_pending (ht := ht)
  | offsetSet => exact execOffsetSet_pending (ht := ht)
  | offsetChangeScheduled => exact execOffsetChangeScheduled_pending (ht := ht)
  | tariffSwitch => exact execTariffSwitch_pending (ht := ht)
  | demandIntervalEnd => exact execDemandIntervalEnd_pending (ht := ht)
  | sealedDieStart => exact execSealedDieStart_pending (ht := ht)
  | maxDemandReset => exact execMaxDemandReset_pending (ht := ht)
  | tokenKeyChange => exact execTokenKeyChange_pending (ht := ht)
  | legalLogArchive => exact execLegalLogArchive_pending (ht := ht)
  | pendingCreditExpiry => exact execPendingCreditExpiry_pending (ht := ht)
  | tokenLockoutEnd => exact execTokenLockoutEnd_pending (ht := ht)
  | ledgerAgeOut => exact execLedgerAgeOut_pending (ht := ht)
  | panelEnable => exact execPanelEnable_pending (ht := ht)
  | panelClearRequestRetry => exact execPanelClearRequestRetry_pending (ht := ht)
  | panelStartTimeout => exact execPanelStartTimeout_pending (ht := ht)
  | panelDisable => exact execPanelDisable_pending (ht := ht)
  | panelFrameStart => exact execPanelFrameStart_pending (ht := ht)
  | blinkHalfPeriod => exact execBlinkHalfPeriod_pending (ht := ht)
  | legalRegionRedraw => exact execLegalRegionRedraw_pending (ht := ht)
  | sealBorderAdvance => exact execSealBorderAdvance_pending (ht := ht)
  | legalRegionGeometryWrite => exact execLegalRegionGeometryWrite_pending (ht := ht)
  | overlayWrite => exact execOverlayWrite_pending (ht := ht)
  | overlayFill => exact execOverlayFill_pending (ht := ht)
  | paletteWrite => exact execPaletteWrite_pending (ht := ht)
  | blinkSet => exact execBlinkSet_pending (ht := ht)
  | terminalObjectRead => exact execTerminalObjectRead_pending (ht := ht)
  | terminalObjectWrite => exact execTerminalObjectWrite_pending (ht := ht)
  | panelStatusQuery => exact execPanelStatusQuery_pending (ht := ht)
  | outPsqWrite => exact execOutPsqWrite_pending (ht := ht)
  | keyDigit => exact execKeyDigit_pending (ht := ht)
  | keyAccept => exact execKeyAccept_pending (ht := ht)
  | keyDelete => exact execKeyDelete_pending (ht := ht)
  | keyCancel => exact execKeyCancel_pending (ht := ht)
  | keyStop => exact execKeyStop_pending (ht := ht)
  | keyStar => exact execKeyStar_pending (ht := ht)
  | keypadEntryTimeout => exact execKeypadEntryTimeout_pending (ht := ht)
  | readerPing => exact execReaderPing_pending (ht := ht)
  | readerPollCycle => exact execReaderPollCycle_pending (ht := ht)
  | readerMultiRepoll => exact execReaderMultiRepoll_pending (ht := ht)
  | readerFieldIdle => exact execReaderFieldIdle_pending (ht := ht)
  | readerExchange => exact execReaderExchange_pending (ht := ht)
  | readerAbort => exact execReaderAbort_pending (ht := ht)
  | readerPoll => exact execReaderPoll_pending (ht := ht)
  | readerFieldOff => exact execReaderFieldOff_pending (ht := ht)
  | readerModeWrite => exact execReaderModeWrite_pending (ht := ht)
  | cardBlockReceive => exact execCardBlockReceive_pending (ht := ht)
  | cardFwtExpiry => exact execCardFwtExpiry_pending (ht := ht)
  | readerExchangeTimeout => exact execReaderExchangeTimeout_pending (ht := ht)
  | tagFieldEntry => exact execTagFieldEntry_pending (ht := ht)
  | tagActivation => exact execTagActivation_pending (ht := ht)
  | tagSelect => exact execTagSelect_pending (ht := ht)
  | tagReadBinary => exact execTagReadBinary_pending (ht := ht)
  | tagUpdateBinary => exact execTagUpdateBinary_pending (ht := ht)
  | tagOtherCommand => exact execTagOtherCommand_pending (ht := ht)
  | tagFieldLoss => exact execTagFieldLoss_pending (ht := ht)
  | tagTransactionIdle => exact execTagTransactionIdle_pending (ht := ht)
  | tagCommit => exact execTagCommit_pending (ht := ht)
  | tagForcedSwap => exact execTagForcedSwap_pending (ht := ht)
  | outputOff => exact execOutputOff_pending (ht := ht)
  | outputClear => exact execOutputClear_pending (ht := ht)
  | outputTestPulse => exact execOutputTestPulse_pending (ht := ht)
  | outputTestPeriod => exact execOutputTestPeriod_pending (ht := ht)
  | coilPullInEnd => exact execCoilPullInEnd_pending (ht := ht)
  | outputCurrentLimit => exact execOutputCurrentLimit_pending (ht := ht)
  | outputLimitExit => exact execOutputLimitExit_pending (ht := ht)
  | outputThermalTrip => exact execOutputThermalTrip_pending (ht := ht)
  | outputRestartLevel => exact execOutputRestartLevel_pending (ht := ht)
  | outputRestartRetry => exact execOutputRestartRetry_pending (ht := ht)
  | outputWarningBand => exact execOutputWarningBand_pending (ht := ht)
  | outputSumOver => exact execOutputSumOver_pending (ht := ht)
  | outputCfgWrite => exact execOutputCfgWrite_pending (ht := ht)
  | outProtWrite => exact execOutProtWrite_pending (ht := ht)
  | rcWindowEnd => exact execRcWindowEnd_pending (ht := ht)
  | rcClear => exact execRcClear_pending (ht := ht)
  | rcCfgWrite => exact execRcCfgWrite_pending (ht := ht)
  | imHalfPeriodEnd => exact execImHalfPeriodEnd_pending (ht := ht)
  | imEnable => exact execImEnable_pending (ht := ht)
  | imDisable => exact execImDisable_pending (ht := ht)
  | imPause => exact execImPause_pending (ht := ht)
  | imResume => exact execImResume_pending (ht := ht)
  | imClear => exact execImClear_pending (ht := ht)
  | earthFaultFrame => exact execEarthFaultFrame_pending (ht := ht)
  | bridleRelease => exact execBridleRelease_pending (ht := ht)
  | lockstepMismatch => exact execLockstepMismatch_pending (ht := ht)
  | bridleWatchdogExpiry => exact execBridleWatchdogExpiry_pending (ht := ht)
  | bridleRestart => exact execBridleRestart_pending (ht := ht)
  | mirrorChange => exact execMirrorChange_pending (ht := ht)
  | mirrorOpenTimeout => exact execMirrorOpenTimeout_pending (ht := ht)
  | mirrorCloseTimeout => exact execMirrorCloseTimeout_pending (ht := ht)
  | tpStuckReport => exact execTpStuckReport_pending (ht := ht)
  | safetyInputChange => exact execSafetyInputChange_pending (ht := ht)
  | safetyInputDiscrepancy => exact execSafetyInputDiscrepancy_pending (ht := ht)
  | deviceMotionMonitor => exact execDeviceMotionMonitor_pending (ht := ht)
  | ss1Standstill => exact execSs1Standstill_pending (ht := ht)
  | ss1Timeout => exact execSs1Timeout_pending (ht := ht)
  | deviceMoveTimeout => exact execDeviceMoveTimeout_pending (ht := ht)
  | stoOffPulse => exact execStoOffPulse_pending (ht := ht)
  | stoDiscrepancy => exact execStoDiscrepancy_pending (ht := ht)
  | safeMessageReceive => exact execSafeMessageReceive_pending (ht := ht)
  | safeMessageWindowExpiry => exact execSafeMessageWindowExpiry_pending (ht := ht)
  | safeMessageTimeout => exact execSafeMessageTimeout_pending (ht := ht)
  | safeMessageTransmit => exact execSafeMessageTransmit_pending (ht := ht)
  | safeMessageReadbackMissing => exact execSafeMessageReadbackMissing_pending (ht := ht)
  | pilotRelease => exact execPilotRelease_pending (ht := ht)
  | earthRelease => exact execEarthRelease_pending (ht := ht)
  | current => exact execCurrent_pending (ht := ht)
  | stopReq => exact execStopReq_pending (ht := ht)
  | motionReq => exact execMotionReq_pending (ht := ht)
  | holdRelease => exact execHoldRelease_pending (ht := ht)
  | noteAck => exact execNoteAck_pending (ht := ht)
  | unknownSafeMessage => exact execUnknownSafeMessage_pending (ht := ht)
  | marchTest => exact execMarchTest_pending (ht := ht)
  | bridleCodeCheck => exact execBridleCodeCheck_pending (ht := ht)
  | inputPathTest => exact execInputPathTest_pending (ht := ht)
  | generate => exact execGenerate_pending (ht := ht)
  | importKey => exact execImportKey_pending (ht := ht)
  | derive => exact execDerive_pending (ht := ht)
  | delete => exact execDelete_pending (ht := ht)
  | publicKey => exact execPublicKey_pending (ht := ht)
  | sign => exact execSign_pending (ht := ht)
  | verify => exact execVerify_pending (ht := ht)
  | agree => exact execAgree_pending (ht := ht)
  | measure => exact execMeasure_pending (ht := ht)
  | successor addr => exact execSuccessor_pending addr s t ht
  | confirm => exact execConfirm_pending (ht := ht)
  | random => exact execRandom_pending (ht := ht)
  | fuse => exact execFuse_pending (ht := ht)
  | decommission => exact execDecommission_pending (ht := ht)
  | manifestAccept => exact execManifestAccept_pending (ht := ht)
  | updateBlock => exact execUpdateBlock_pending (ht := ht)
  | updateAbandon => exact execUpdateAbandon_pending (ht := ht)
  | handover => exact execHandover_pending (ht := ht)
  | ldrTrialStart => exact execLdrTrialStart_pending (ht := ht)
  | ldrTrialStop => exact execLdrTrialStop_pending (ht := ht)
  | trialExpiry => exact execTrialExpiry_pending (ht := ht)
  | ethernetLinkChange => exact execEthernetLinkChange_pending (ht := ht)
  | gpioEdge => exact execGpioEdge_pending (ht := ht)
  | pllPRelock => exact execPllPRelock_pending (ht := ht)
  | vanaRelease => exact execVanaRelease_pending (ht := ht)
  | vdrvRelease => exact execVdrvRelease_pending (ht := ht)
  | canErrorPassive => exact execCanErrorPassive_pending (ht := ht)
  | appLaneEventFrame => exact execAppLaneEventFrame_pending (ht := ht)
  | retryWindowExpiry => exact execRetryWindowExpiry_pending (ht := ht)

/-- Every arm of `exec` answers a next state: the command's effect, whatever its operands. -/
theorem exec_completes (i : Instr) (s : State) : ∃ t, exec i s = .next t := by
  cases i <;> exact ⟨_, rfl⟩

/-- A tick of 1 ms leaves the queue as it was: each of its parts does. -/
theorem tick_pending (s : State) : (tick s).pending = s.pending := by simp [tick]

/-- With an empty queue a step is a tick. -/
theorem step_of_empty {s : State} (h : s.pending = []) : step s = .next (tick s) := by
  simp [step, h]

/-- With a command at the front of the queue a step is that command, run on the rest of the queue. -/
theorem step_of_cons {s : State} {c : Instr} {rest : List Instr} (h : s.pending = c :: rest) :
    step s = exec c { s with pending := rest } := by
  simp [step, h]

/-- What a step can do: a tick where nothing waits, else the command at the front. -/
theorem step_cases {s t : State} (h : step s = .next t) :
    (s.pending = [] ∧ t = tick s) ∨
      ∃ c rest, s.pending = c :: rest ∧ exec c { s with pending := rest } = .next t := by
  cases hq : s.pending with
  | nil =>
    rw [step_of_empty hq] at h
    cases h
    exact .inl ⟨rfl, rfl⟩
  | cons c rest => exact .inr ⟨c, rest, rfl, step_of_cons hq ▸ h⟩

/-- Settles O50: the two arms of `step`. -/
theorem stepTakesTheFront : Obligations.StepTakesTheFront := by
  unfold Obligations.StepTakesTheFront
  exact ⟨fun _ _ _ => step_of_cons rfl, fun _ => step_of_empty⟩

/-- Settles O51: every arm of `exec` answers a next state, and keeps the queue. -/
theorem everyCommandCompletes : Obligations.EveryCommandCompletes := by
  unfold Obligations.EveryCommandCompletes
  intro i s
  obtain ⟨t, ht⟩ := exec_completes i s
  exact ⟨t, ht, exec_pending ht⟩

/-- Settles O52: a command keeps the queue it ran on, which a step shortens by the command it takes. -/
theorem queueOnlyAdvances : Obligations.QueueOnlyAdvances := by
  unfold Obligations.QueueOnlyAdvances
  refine ⟨fun i s t h => exec_pending h, fun s t h => ?_⟩
  rcases step_cases h with ⟨hq, rfl⟩ | ⟨c, rest, hq, hc⟩
  · rw [tick_pending, hq, List.tail_nil]
  · rw [exec_pending hc, hq, List.tail_cons]

/-! ### The fuses -/

/-- A command programs the fuses at most further: seven commands reach a fuse-programming operation, every other
one leaves the fuses as they were. -/
theorem exec_fuseLe {i : Instr} {s t : State} (ht : exec i s = .next t) : FuseLe s.fuses t.fuses := by
  cases i with
  | registerWrite => exact .ofEq (execRegisterWrite_fuses (ht := ht))
  | sealedLinkMessageReceive => exact .ofEq (execSealedLinkMessageReceive_fuses (ht := ht))
  | linkKeyAgreement => exact .ofEq (execLinkKeyAgreement_fuses (ht := ht))
  | linkAckReceive => exact .ofEq (execLinkAckReceive_fuses (ht := ht))
  | sealedLinkHeartbeat => exact .ofEq (execSealedLinkHeartbeat_fuses (ht := ht))
  | sealedLinkResendTimeout => exact .ofEq (execSealedLinkResendTimeout_fuses (ht := ht))
  | sealedLinkSilenceTimeout => exact .ofEq (execSealedLinkSilenceTimeout_fuses (ht := ht))
  | bridleHeartbeat => exact .ofEq (execBridleHeartbeat_fuses (ht := ht))
  | safetyLaneHeartbeatLoss => exact .ofEq (execSafetyLaneHeartbeatLoss_fuses (ht := ht))
  | safeStateReport => exact .ofEq (execSafeStateReport_fuses (ht := ht))
  | safeStateRelease => exact .ofEq (execSafeStateRelease_fuses (ht := ht))
  | appLaneCommand => exact .ofEq (execAppLaneCommand_fuses (ht := ht))
  | safetyLaneCommand => exact .ofEq (execSafetyLaneCommand_fuses (ht := ht))
  | powerDieClockFail => exact .ofEq (execPowerDieClockFail_fuses (ht := ht))
  | powerDieClockReturn => exact .ofEq (execPowerDieClockReturn_fuses (ht := ht))
  | powerDieReset => exact .ofEq (execPowerDieReset_fuses (ht := ht))
  | vcoreTrip => exact .ofEq (execVcoreTrip_fuses (ht := ht))
  | vioTrip => exact .ofEq (execVioTrip_fuses (ht := ht))
  | vanaTrip => exact .ofEq (execVanaTrip_fuses (ht := ht))
  | sealedSupplyTrip vmio => exact .ofEq (execSealedSupplyTrip_fuses vmio s t ht)
  | sealedWatchdogExpiry => exact .ofEq (execSealedWatchdogExpiry_fuses (ht := ht))
  | vbatSample => exact .ofEq (execVbatSample_fuses (ht := ht))
  | legalClockStop => exact .ofEq (execLegalClockStop_fuses (ht := ht))
  | vloadTrip above => exact .ofEq (execVloadTrip_fuses above s t ht)
  | vloadRelease => exact .ofEq (execVloadRelease_fuses (ht := ht))
  | pilotSupplyTrip => exact .ofEq (execPilotSupplyTrip_fuses (ht := ht))
  | pilotSupplyRelease => exact .ofEq (execPilotSupplyRelease_fuses (ht := ht))
  | vdrvTrip => exact .ofEq (execVdrvTrip_fuses (ht := ht))
  | powerFailWarning => exact .ofEq (execPowerFailWarning_fuses (ht := ht))
  | powerFailRelease => exact .ofEq (execPowerFailRelease_fuses (ht := ht))
  | powerOnStart => exact .ofEq (execPowerOnStart_fuses (ht := ht))
  | warmStart => exact .ofEq (execWarmStart_fuses (ht := ht))
  | clkSscWrite => exact .ofEq (execClkSscWrite_fuses (ht := ht))
  | spreadDisableHoldExpiry => exact .ofEq (execSpreadDisableHoldExpiry_fuses (ht := ht))
  | mainRefFail => exact .ofEq (execMainRefFail_fuses (ht := ht))
  | mainRefRecovered => exact .ofEq (execMainRefRecovered_fuses (ht := ht))
  | pllChUnlock h => exact .ofEq (execPllChUnlock_fuses h s t ht)
  | pllPUnlock => exact .ofEq (execPllPUnlock_fuses (ht := ht))
  | pllEUnlock => exact .ofEq (execPllEUnlock_fuses (ht := ht))
  | bridleOscFail => exact .ofEq (execBridleOscFail_fuses (ht := ht))
  | metrologyRefFail => exact .ofEq (execMetrologyRefFail_fuses (ht := ht))
  | metrologyRefReturn => exact .ofEq (execMetrologyRefReturn_fuses (ht := ht))
  | legalCrystalFail => exact .ofEq (execLegalCrystalFail_fuses (ht := ht))
  | resetPin => exact .ofEq (execResetPin_fuses (ht := ht))
  | watchdogExpiry => exact .ofEq (execWatchdogExpiry_fuses (ht := ht))
  | watchdogHalfPeriod => exact .ofEq (execWatchdogHalfPeriod_fuses (ht := ht))
  | watchdogKick => exact .ofEq (execWatchdogKick_fuses (ht := ht))
  | watchdogPeriodSet => exact .ofEq (execWatchdogPeriodSet_fuses (ht := ht))
  | appResetRequest => exact .ofEq (execAppResetRequest_fuses (ht := ht))
  | jtagResetRequest => exact .ofEq (execJtagResetRequest_fuses (ht := ht))
  | engineRun => exact .ofEq (execEngineRun_fuses (ht := ht))
  | engineReset => exact .ofEq (execEngineReset_fuses (ht := ht))
  | reclaim => exact .ofEq (execReclaim_fuses (ht := ht))
  | holdWindowExpiry => exact .ofEq (execHoldWindowExpiry_fuses (ht := ht))
  | shutdownCurrentTimeout => exact .ofEq (execShutdownCurrentTimeout_fuses (ht := ht))
  | shutdownLockRelease => exact .ofEq (execShutdownLockRelease_fuses (ht := ht))
  | harnessBurst => exact .ofEq (execHarnessBurst_fuses (ht := ht))
  | hrnWaitmaxRead => exact .ofEq (execHrnWaitmaxRead_fuses (ht := ht))
  | girthRequest => exact .ofEq (execGirthRequest_fuses (ht := ht))
  | girthGrant => exact .ofEq (execGirthGrant_fuses (ht := ht))
  | girthRelease => exact .ofEq (execGirthRelease_fuses (ht := ht))
  | girthHoldExpiry => exact .ofEq (execGirthHoldExpiry_fuses (ht := ht))
  | unitOffReport => exact .ofEq (execUnitOffReport_fuses (ht := ht))
  | girthDerateSample => exact .ofEq (execGirthDerateSample_fuses (ht := ht))
  | girthShareWrite => exact .ofEq (execGirthShareWrite_fuses (ht := ht))
  | girthRebuild => exact .ofEq (execGirthRebuild_fuses (ht := ht))
  | grtBypassRead => exact .ofEq (execGrtBypassRead_fuses (ht := ht))
  | deliveryTimeout => exact .ofEq (execDeliveryTimeout_fuses (ht := ht))
  | instruction => exact .ofEq (execInstruction_fuses (ht := ht))
  | timerCompareMatch => exact .ofEq (execTimerCompareMatch_fuses (ht := ht))
  | debugAccess => exact .ofEq (execDebugAccess_fuses (ht := ht))
  | buckleSourceEdge => exact .ofEq (execBuckleSourceEdge_fuses (ht := ht))
  | buckleLevelChange => exact .ofEq (execBuckleLevelChange_fuses (ht := ht))
  | buckleClaim => exact .ofEq (execBuckleClaim_fuses (ht := ht))
  | buckleComplete => exact .ofEq (execBuckleComplete_fuses (ht := ht))
  | buckleCPendRead => exact .ofEq (execBuckleCPendRead_fuses (ht := ht))
  | buckleCPendWrite => exact .ofEq (execBuckleCPendWrite_fuses (ht := ht))
  | buckleCVecRead => exact .ofEq (execBuckleCVecRead_fuses (ht := ht))
  | bucklePendClear => exact .ofEq (execBucklePendClear_fuses (ht := ht))
  | buckleSoftwareSet => exact .ofEq (execBuckleSoftwareSet_fuses (ht := ht))
  | buckleCfgWrite => exact .ofEq (execBuckleCfgWrite_fuses (ht := ht))
  | sleepLatchWake => exact .ofEq (execSleepLatchWake_fuses (ht := ht))
  | pairMailboxCommit => exact .ofEq (execPairMailboxCommit_fuses (ht := ht))
  | pairMailboxRemove port m => exact .ofEq (execPairMailboxRemove_fuses port m s t ht)
  | hubMailboxAcquire => exact .ofEq (execHubMailboxAcquire_fuses (ht := ht))
  | hubMailboxCommit => exact .ofEq (execHubMailboxCommit_fuses (ht := ht))
  | hubMailboxRelease => exact .ofEq (execHubMailboxRelease_fuses (ht := ht))
  | keeperTimeout => exact .ofEq (execKeeperTimeout_fuses (ht := ht))
  | hubMailboxRemove => exact .ofEq (execHubMailboxRemove_fuses (ht := ht))
  | mbxDroppedRead => exact .ofEq (execMbxDroppedRead_fuses (ht := ht))
  | counterWrap => exact .ofEq (execCounterWrap_fuses (ht := ht))
  | pmcSelect => exact .ofEq (execPmcSelect_fuses (ht := ht))
  | pmcSnapshot => exact .ofEq (execPmcSnapshot_fuses (ht := ht))
  | sdoInitiateDownload => exact execSdoInitiateDownload_fuseLe (h := ht)
  | sdoDownloadSegment => exact execSdoDownloadSegment_fuseLe (h := ht)
  | sdoInitiateUpload => exact .ofEq (execSdoInitiateUpload_fuses (ht := ht))
  | sdoUploadSegment => exact .ofEq (execSdoUploadSegment_fuses (ht := ht))
  | sdoUnsupportedCommand => exact .ofEq (execSdoUnsupportedCommand_fuses (ht := ht))
  | usdoRequest => exact execUsdoRequest_fuseLe (h := ht)
  | sdoSegmentTimeout => exact .ofEq (execSdoSegmentTimeout_fuses (ht := ht))
  | nmtStart => exact .ofEq (execNmtStart_fuses (ht := ht))
  | nmtStop => exact .ofEq (execNmtStop_fuses (ht := ht))
  | nmtEnterPreoperational => exact .ofEq (execNmtEnterPreoperational_fuses (ht := ht))
  | nmtResetCommunication => exact .ofEq (execNmtResetCommunication_fuses (ht := ht))
  | nmtResetNode => exact .ofEq (execNmtResetNode_fuses (ht := ht))
  | canopenHeartbeat => exact .ofEq (execCanopenHeartbeat_fuses (ht := ht))
  | sync => exact .ofEq (execSync_fuses (ht := ht))
  | tpdoEventTimer => exact .ofEq (execTpdoEventTimer_fuses (ht := ht))
  | canBusOff => exact .ofEq (execCanBusOff_fuses (ht := ht))
  | canBusOffRecovery => exact .ofEq (execCanBusOffRecovery_fuses (ht := ht))
  | latigoConnect => exact .ofEq (execLatigoConnect_fuses (ht := ht))
  | latigoRead => exact .ofEq (execLatigoRead_fuses (ht := ht))
  | latigoWrite => exact execLatigoWrite_fuseLe (h := ht)
  | latigoSubscribe => exact .ofEq (execLatigoSubscribe_fuses (ht := ht))
  | latigoUnsubscribe => exact .ofEq (execLatigoUnsubscribe_fuses (ht := ht))
  | latigoKeepalive => exact .ofEq (execLatigoKeepalive_fuses (ht := ht))
  | latigoNotify => exact .ofEq (execLatigoNotify_fuses (ht := ht))
  | latigoBadFrame => exact .ofEq (execLatigoBadFrame_fuses (ht := ht))
  | latigoIdleTimeout => exact .ofEq (execLatigoIdleTimeout_fuses (ht := ht))
  | latigoCertExpiry => exact .ofEq (execLatigoCertExpiry_fuses (ht := ht))
  | latigoClose => exact .ofEq (execLatigoClose_fuses (ht := ht))
  | journalBatchClose save => exact .ofEq (execJournalBatchClose_fuses save s t ht)
  | xspiOperationDone => exact .ofEq (execXspiOperationDone_fuses (ht := ht))
  | pilotCommand => exact .ofEq (execPilotCommand_fuses (ht := ht))
  | pilotPeriodStart => exact .ofEq (execPilotPeriodStart_fuses (ht := ht))
  | pilotWake => exact .ofEq (execPilotWake_fuses (ht := ht))
  | pilotWakeEnd => exact .ofEq (execPilotWakeEnd_fuses (ht := ht))
  | pilotPeriodTrim => exact .ofEq (execPilotPeriodTrim_fuses (ht := ht))
  | pilotPlateauEvaluation => exact .ofEq (execPilotPlateauEvaluation_fuses (ht := ht))
  | pilotFaultFrame p cause => exact .ofEq (execPilotFaultFrame_fuses p cause s t ht)
  | offWaitExpiry => exact .ofEq (execOffWaitExpiry_fuses (ht := ht))
  | proximityMeasurement => exact .ofEq (execProximityMeasurement_fuses (ht := ht))
  | pilotCfgWrite => exact .ofEq (execPilotCfgWrite_fuses (ht := ht))
  | pilTsRead => exact .ofEq (execPilTsRead_fuses (ht := ht))
  | plcStart => exact .ofEq (execPlcStart_fuses (ht := ht))
  | plcStop => exact .ofEq (execPlcStop_fuses (ht := ht))
  | plcStoppingEnd => exact .ofEq (execPlcStoppingEnd_fuses (ht := ht))
  | plcReslac => exact .ofEq (execPlcReslac_fuses (ht := ht))
  | beacon => exact .ofEq (execBeacon_fuses (ht := ht))
  | slacParmReq => exact .ofEq (execSlacParmReq_fuses (ht := ht))
  | startAttenChar => exact .ofEq (execStartAttenChar_fuses (ht := ht))
  | slacSound => exact .ofEq (execSlacSound_fuses (ht := ht))
  | slacCollectionClose => exact .ofEq (execSlacCollectionClose_fuses (ht := ht))
  | slacValidateReq => exact .ofEq (execSlacValidateReq_fuses (ht := ht))
  | slacValidateWindowEnd => exact .ofEq (execSlacValidateWindowEnd_fuses (ht := ht))
  | slacMatchReq => exact .ofEq (execSlacMatchReq_fuses (ht := ht))
  | slacMatchTimeout => exact .ofEq (execSlacMatchTimeout_fuses (ht := ht))
  | plcMpduReceive => exact .ofEq (execPlcMpduReceive_fuses (ht := ht))
  | plcLinkLost => exact .ofEq (execPlcLinkLost_fuses (ht := ht))
  | nekRenewal => exact .ofEq (execNekRenewal_fuses (ht := ht))
  | plcTxPost => exact .ofEq (execPlcTxPost_fuses (ht := ht))
  | plcSackReceived => exact .ofEq (execPlcSackReceived_fuses (ht := ht))
  | plcTxTimeout => exact .ofEq (execPlcTxTimeout_fuses (ht := ht))
  | plcRxPop => exact .ofEq (execPlcRxPop_fuses (ht := ht))
  | plcTxdoneRead => exact .ofEq (execPlcTxdoneRead_fuses (ht := ht))
  | plcNtbRead => exact .ofEq (execPlcNtbRead_fuses (ht := ht))
  | reinSourceClaim => exact .ofEq (execReinSourceClaim_fuses (ht := ht))
  | reinMailboxStash => exact .ofEq (execReinMailboxStash_fuses (ht := ht))
  | reinActivation => exact .ofEq (execReinActivation_fuses (ht := ht))
  | sesDone => exact .ofEq (execSesDone_fuses (ht := ht))
  | sesPost => exact .ofEq (execSesPost_fuses (ht := ht))
  | sesPostr => exact .ofEq (execSesPostr_fuses (ht := ht))
  | evTake => exact .ofEq (execEvTake_fuses (ht := ht))
  | budgetExhausted => exact .ofEq (execBudgetExhausted_fuses (ht := ht))
  | trapNoticeCommit => exact .ofEq (execTrapNoticeCommit_fuses (ht := ht))
  | reinTimerExpiry => exact .ofEq (execReinTimerExpiry_fuses (ht := ht))
  | sesStart => exact .ofEq (execSesStart_fuses (ht := ht))
  | sesRestart => exact .ofEq (execSesRestart_fuses (ht := ht))
  | sesFree => exact .ofEq (execSesFree_fuses (ht := ht))
  | sesSetrole => exact .ofEq (execSesSetrole_fuses (ht := ht))
  | sesUseRead => exact .ofEq (execSesUseRead_fuses (ht := ht))
  | sdpRequest => exact .ofEq (execSdpRequest_fuses (ht := ht))
  | v2gTcpConnect => exact .ofEq (execV2gTcpConnect_fuses (ht := ht))
  | v2gTlsHandshake => exact .ofEq (execV2gTlsHandshake_fuses (ht := ht))
  | v2gtpMessage => exact .ofEq (execV2gtpMessage_fuses (ht := ht))
  | supportedAppProtocolReq => exact .ofEq (execSupportedAppProtocolReq_fuses (ht := ht))
  | v2gRequest => exact .ofEq (execV2gRequest_fuses (ht := ht))
  | authorizationSetupReq => exact .ofEq (execAuthorizationSetupReq_fuses (ht := ht))
  | authorizationReq => exact .ofEq (execAuthorizationReq_fuses (ht := ht))
  | certificateInstallationReq => exact .ofEq (execCertificateInstallationReq_fuses (ht := ht))
  | powerDeliveryStart => exact .ofEq (execPowerDeliveryStart_fuses (ht := ht))
  | ongoingTimeExpiry => exact .ofEq (execOngoingTimeExpiry_fuses (ht := ht))
  | hostDecisionTimeout => exact .ofEq (execHostDecisionTimeout_fuses (ht := ht))
  | hostDecision => exact .ofEq (execHostDecision_fuses (ht := ht))
  | v2gSequenceTimeout => exact .ofEq (execV2gSequenceTimeout_fuses (ht := ht))
  | v2gSetupTimeout => exact .ofEq (execV2gSetupTimeout_fuses (ht := ht))
  | skiverSubmit => exact .ofEq (execSkiverSubmit_fuses (ht := ht))
  | skiverComplete => exact .ofEq (execSkiverComplete_fuses (ht := ht))
  | skiverCplRead => exact .ofEq (execSkiverCplRead_fuses (ht := ht))
  | awlJobComplete => exact .ofEq (execAwlJobComplete_fuses (ht := ht))
  | sequenceSignalChange => exact .ofEq (execSequenceSignalChange_fuses (ht := ht))
  | vcanFrame => exact .ofEq (execVcanFrame_fuses (ht := ht))
  | chargerFramePeriod => exact .ofEq (execChargerFramePeriod_fuses (ht := ht))
  | vcanFirstFrameTimeout => exact .ofEq (execVcanFirstFrameTimeout_fuses (ht := ht))
  | vcanFrameTimeout => exact .ofEq (execVcanFrameTimeout_fuses (ht := ht))
  | adcOverload => exact .ofEq (execAdcOverload_fuses (ht := ht))
  | gainRaise => exact .ofEq (execGainRaise_fuses (ht := ht))
  | bitstreamModfail => exact .ofEq (execBitstreamModfail_fuses (ht := ht))
  | elementCycleEnd => exact .ofEq (execElementCycleEnd_fuses (ht := ht))
  | blockModeEntry => exact .ofEq (execBlockModeEntry_fuses (ht := ht))
  | blockModeReturn => exact .ofEq (execBlockModeReturn_fuses (ht := ht))
  | harmonicWindowEnd => exact .ofEq (execHarmonicWindowEnd_fuses (ht := ht))
  | temperatureBandSample => exact .ofEq (execTemperatureBandSample_fuses (ht := ht))
  | shadowCheckEnd => exact .ofEq (execShadowCheckEnd_fuses (ht := ht))
  | pulseDue => exact .ofEq (execPulseDue_fuses (ht := ht))
  | pulseOnTimeEnd => exact .ofEq (execPulseOnTimeEnd_fuses (ht := ht))
  | sliceEnd => exact .ofEq (execSliceEnd_fuses (ht := ht))
  | residueUpdate => exact .ofEq (execResidueUpdate_fuses (ht := ht))
  | periodicCommit => exact .ofEq (execPeriodicCommit_fuses (ht := ht))
  | metrologyRead => exact .ofEq (execMetrologyRead_fuses (ht := ht))
  | sealOpen => exact .ofEq (execSealOpen_fuses (ht := ht))
  | sealParameterWrite => exact .ofEq (execSealParameterWrite_fuses (ht := ht))
  | sealCloseCommit => exact .ofEq (execSealCloseCommit_fuses (ht := ht))
  | sealCloseAbandon => exact .ofEq (execSealCloseAbandon_fuses (ht := ht))
  | sealTimeout => exact .ofEq (execSealTimeout_fuses (ht := ht))
  | sealedLinkSend => exact .ofEq (execSealedLinkSend_fuses (ht := ht))
  | sealedLinkPop => exact .ofEq (execSealedLinkPop_fuses (ht := ht))
  | sealedObjectRead => exact .ofEq (execSealedObjectRead_fuses (ht := ht))
  | sealedObjectWrite => exact .ofEq (execSealedObjectWrite_fuses (ht := ht))
  | recordOpen => exact .ofEq (execRecordOpen_fuses (ht := ht))
  | recordClose => exact .ofEq (execRecordClose_fuses (ht := ht))
  | recordQuery => exact .ofEq (execRecordQuery_fuses (ht := ht))
  | recordSigned => exact .ofEq (execRecordSigned_fuses (ht := ht))
  | recordCollectionAck => exact .ofEq (execRecordCollectionAck_fuses (ht := ht))
  | sessionNoticePlug tag p handle => exact .ofEq (execSessionNoticePlug_fuses tag p handle s t ht)
  | sessionNoticeAuthorise tag p handle serial =>
    exact .ofEq (execSessionNoticeAuthorise_fuses tag p handle serial s t ht)
  | sessionNoticeEnergyFlow tag p handle serial =>
    exact .ofEq (execSessionNoticeEnergyFlow_fuses tag p handle serial s t ht)
  | sessionNoticeStop tag p handle serial reason =>
    exact .ofEq (execSessionNoticeStop_fuses tag p handle serial reason s t ht)
  | sessionNoticeMeteringConfirmation tag p handle serial reading sig =>
    exact .ofEq (execSessionNoticeMeteringConfirmation_fuses tag p handle serial reading sig s t ht)
  | signedReading => exact .ofEq (execSignedReading_fuses (ht := ht))
  | purseQuery => exact .ofEq (execPurseQuery_fuses (ht := ht))
  | calendarWrite => exact .ofEq (execCalendarWrite_fuses (ht := ht))
  | calendarActivateSet => exact .ofEq (execCalendarActivateSet_fuses (ht := ht))
  | calendarActivation => exact .ofEq (execCalendarActivation_fuses (ht := ht))
  | ltSet => exact .ofEq (execLtSet_fuses (ht := ht))
  | offsetSet => exact .ofEq (execOffsetSet_fuses (ht := ht))
  | offsetChangeScheduled => exact .ofEq (execOffsetChangeScheduled_fuses (ht := ht))
  | tariffSwitch => exact .ofEq (execTariffSwitch_fuses (ht := ht))
  | demandIntervalEnd => exact .ofEq (execDemandIntervalEnd_fuses (ht := ht))
  | sealedDieStart => exact .ofEq (execSealedDieStart_fuses (ht := ht))
  | maxDemandReset => exact .ofEq (execMaxDemandReset_fuses (ht := ht))
  | tokenKeyChange => exact .ofEq (execTokenKeyChange_fuses (ht := ht))
  | legalLogArchive => exact .ofEq (execLegalLogArchive_fuses (ht := ht))
  | pendingCreditExpiry => exact .ofEq (execPendingCreditExpiry_fuses (ht := ht))
  | tokenLockoutEnd => exact .ofEq (execTokenLockoutEnd_fuses (ht := ht))
  | ledgerAgeOut => exact .ofEq (execLedgerAgeOut_fuses (ht := ht))
  | panelEnable => exact .ofEq (execPanelEnable_fuses (ht := ht))
  | panelClearRequestRetry => exact .ofEq (execPanelClearRequestRetry_fuses (ht := ht))
  | panelStartTimeout => exact .ofEq (execPanelStartTimeout_fuses (ht := ht))
  | panelDisable => exact .ofEq (execPanelDisable_fuses (ht := ht))
  | panelFrameStart => exact .ofEq (execPanelFrameStart_fuses (ht := ht))
  | blinkHalfPeriod => exact .ofEq (execBlinkHalfPeriod_fuses (ht := ht))
  | legalRegionRedraw => exact .ofEq (execLegalRegionRedraw_fuses (ht := ht))
  | sealBorderAdvance => exact .ofEq (execSealBorderAdvance_fuses (ht := ht))
  | legalRegionGeometryWrite => exact .ofEq (execLegalRegionGeometryWrite_fuses (ht := ht))
  | overlayWrite => exact .ofEq (execOverlayWrite_fuses (ht := ht))
  | overlayFill => exact .ofEq (execOverlayFill_fuses (ht := ht))
  | paletteWrite => exact .ofEq (execPaletteWrite_fuses (ht := ht))
  | blinkSet => exact .ofEq (execBlinkSet_fuses (ht := ht))
  | terminalObjectRead => exact .ofEq (execTerminalObjectRead_fuses (ht := ht))
  | terminalObjectWrite => exact .ofEq (execTerminalObjectWrite_fuses (ht := ht))
  | panelStatusQuery => exact .ofEq (execPanelStatusQuery_fuses (ht := ht))
  | outPsqWrite => exact .ofEq (execOutPsqWrite_fuses (ht := ht))
  | keyDigit => exact .ofEq (execKeyDigit_fuses (ht := ht))
  | keyAccept => exact .ofEq (execKeyAccept_fuses (ht := ht))
  | keyDelete => exact .ofEq (execKeyDelete_fuses (ht := ht))
  | keyCancel => exact .ofEq (execKeyCancel_fuses (ht := ht))
  | keyStop => exact .ofEq (execKeyStop_fuses (ht := ht))
  | keyStar => exact .ofEq (execKeyStar_fuses (ht := ht))
  | keypadEntryTimeout => exact .ofEq (execKeypadEntryTimeout_fuses (ht := ht))
  | readerPing => exact .ofEq (execReaderPing_fuses (ht := ht))
  | readerPollCycle => exact .ofEq (execReaderPollCycle_fuses (ht := ht))
  | readerMultiRepoll => exact .ofEq (execReaderMultiRepoll_fuses (ht := ht))
  | readerFieldIdle => exact .ofEq (execReaderFieldIdle_fuses (ht := ht))
  | readerExchange => exact .ofEq (execReaderExchange_fuses (ht := ht))
  | readerAbort => exact .ofEq (execReaderAbort_fuses (ht := ht))
  | readerPoll => exact .ofEq (execReaderPoll_fuses (ht := ht))
  | readerFieldOff => exact .ofEq (execReaderFieldOff_fuses (ht := ht))
  | readerModeWrite => exact .ofEq (execReaderModeWrite_fuses (ht := ht))
  | cardBlockReceive => exact .ofEq (execCardBlockReceive_fuses (ht := ht))
  | cardFwtExpiry => exact .ofEq (execCardFwtExpiry_fuses (ht := ht))
  | readerExchangeTimeout => exact .ofEq (execReaderExchangeTimeout_fuses (ht := ht))
  | tagFieldEntry => exact .ofEq (execTagFieldEntry_fuses (ht := ht))
  | tagActivation => exact .ofEq (execTagActivation_fuses (ht := ht))
  | tagSelect => exact .ofEq (execTagSelect_fuses (ht := ht))
  | tagReadBinary => exact .ofEq (execTagReadBinary_fuses (ht := ht))
  | tagUpdateBinary => exact .ofEq (execTagUpdateBinary_fuses (ht := ht))
  | tagOtherCommand => exact .ofEq (execTagOtherCommand_fuses (ht := ht))
  | tagFieldLoss => exact .ofEq (execTagFieldLoss_fuses (ht := ht))
  | tagTransactionIdle => exact .ofEq (execTagTransactionIdle_fuses (ht := ht))
  | tagCommit => exact .ofEq (execTagCommit_fuses (ht := ht))
  | tagForcedSwap => exact .ofEq (execTagForcedSwap_fuses (ht := ht))
  | outputOff => exact .ofEq (execOutputOff_fuses (ht := ht))
  | outputClear => exact .ofEq (execOutputClear_fuses (ht := ht))
  | outputTestPulse => exact .ofEq (execOutputTestPulse_fuses (ht := ht))
  | outputTestPeriod => exact .ofEq (execOutputTestPeriod_fuses (ht := ht))
  | coilPullInEnd => exact .ofEq (execCoilPullInEnd_fuses (ht := ht))
  | outputCurrentLimit => exact .ofEq (execOutputCurrentLimit_fuses (ht := ht))
  | outputLimitExit => exact .ofEq (execOutputLimitExit_fuses (ht := ht))
  | outputThermalTrip => exact .ofEq (execOutputThermalTrip_fuses (ht := ht))
  | outputRestartLevel => exact .ofEq (execOutputRestartLevel_fuses (ht := ht))
  | outputRestartRetry => exact .ofEq (execOutputRestartRetry_fuses (ht := ht))
  | outputWarningBand => exact .ofEq (execOutputWarningBand_fuses (ht := ht))
  | outputSumOver => exact .ofEq (execOutputSumOver_fuses (ht := ht))
  | outputCfgWrite => exact .ofEq (execOutputCfgWrite_fuses (ht := ht))
  | outProtWrite => exact .ofEq (execOutProtWrite_fuses (ht := ht))
  | rcWindowEnd => exact .ofEq (execRcWindowEnd_fuses (ht := ht))
  | rcClear => exact .ofEq (execRcClear_fuses (ht := ht))
  | rcCfgWrite => exact .ofEq (execRcCfgWrite_fuses (ht := ht))
  | imHalfPeriodEnd => exact .ofEq (execImHalfPeriodEnd_fuses (ht := ht))
  | imEnable => exact .ofEq (execImEnable_fuses (ht := ht))
  | imDisable => exact .ofEq (execImDisable_fuses (ht := ht))
  | imPause => exact .ofEq (execImPause_fuses (ht := ht))
  | imResume => exact .ofEq (execImResume_fuses (ht := ht))
  | imClear => exact .ofEq (execImClear_fuses (ht := ht))
  | earthFaultFrame => exact .ofEq (execEarthFaultFrame_fuses (ht := ht))
  | bridleRelease => exact .ofEq (execBridleRelease_fuses (ht := ht))
  | lockstepMismatch => exact .ofEq (execLockstepMismatch_fuses (ht := ht))
  | bridleWatchdogExpiry => exact .ofEq (execBridleWatchdogExpiry_fuses (ht := ht))
  | bridleRestart => exact .ofEq (execBridleRestart_fuses (ht := ht))
  | mirrorChange => exact .ofEq (execMirrorChange_fuses (ht := ht))
  | mirrorOpenTimeout => exact .ofEq (execMirrorOpenTimeout_fuses (ht := ht))
  | mirrorCloseTimeout => exact .ofEq (execMirrorCloseTimeout_fuses (ht := ht))
  | tpStuckReport => exact .ofEq (execTpStuckReport_fuses (ht := ht))
  | safetyInputChange => exact .ofEq (execSafetyInputChange_fuses (ht := ht))
  | safetyInputDiscrepancy => exact .ofEq (execSafetyInputDiscrepancy_fuses (ht := ht))
  | deviceMotionMonitor => exact .ofEq (execDeviceMotionMonitor_fuses (ht := ht))
  | ss1Standstill => exact .ofEq (execSs1Standstill_fuses (ht := ht))
  | ss1Timeout => exact .ofEq (execSs1Timeout_fuses (ht := ht))
  | deviceMoveTimeout => exact .ofEq (execDeviceMoveTimeout_fuses (ht := ht))
  | stoOffPulse => exact .ofEq (execStoOffPulse_fuses (ht := ht))
  | stoDiscrepancy => exact .ofEq (execStoDiscrepancy_fuses (ht := ht))
  | safeMessageReceive => exact .ofEq (execSafeMessageReceive_fuses (ht := ht))
  | safeMessageWindowExpiry => exact .ofEq (execSafeMessageWindowExpiry_fuses (ht := ht))
  | safeMessageTimeout => exact .ofEq (execSafeMessageTimeout_fuses (ht := ht))
  | safeMessageTransmit => exact .ofEq (execSafeMessageTransmit_fuses (ht := ht))
  | safeMessageReadbackMissing => exact .ofEq (execSafeMessageReadbackMissing_fuses (ht := ht))
  | pilotRelease => exact .ofEq (execPilotRelease_fuses (ht := ht))
  | earthRelease => exact .ofEq (execEarthRelease_fuses (ht := ht))
  | current => exact .ofEq (execCurrent_fuses (ht := ht))
  | stopReq => exact .ofEq (execStopReq_fuses (ht := ht))
  | motionReq => exact .ofEq (execMotionReq_fuses (ht := ht))
  | holdRelease => exact .ofEq (execHoldRelease_fuses (ht := ht))
  | noteAck => exact .ofEq (execNoteAck_fuses (ht := ht))
  | unknownSafeMessage => exact .ofEq (execUnknownSafeMessage_fuses (ht := ht))
  | marchTest => exact .ofEq (execMarchTest_fuses (ht := ht))
  | bridleCodeCheck => exact .ofEq (execBridleCodeCheck_fuses (ht := ht))
  | inputPathTest => exact .ofEq (execInputPathTest_fuses (ht := ht))
  | generate => exact .ofEq (execGenerate_fuses (ht := ht))
  | importKey => exact .ofEq (execImportKey_fuses (ht := ht))
  | derive => exact .ofEq (execDerive_fuses (ht := ht))
  | delete => exact .ofEq (execDelete_fuses (ht := ht))
  | publicKey => exact .ofEq (execPublicKey_fuses (ht := ht))
  | sign => exact .ofEq (execSign_fuses (ht := ht))
  | verify => exact .ofEq (execVerify_fuses (ht := ht))
  | agree => exact .ofEq (execAgree_fuses (ht := ht))
  | measure => exact .ofEq (execMeasure_fuses (ht := ht))
  | successor addr => exact .ofEq (execSuccessor_fuses addr s t ht)
  | confirm => exact execConfirm_fuseLe (h := ht)
  | random => exact .ofEq (execRandom_fuses (ht := ht))
  | fuse => exact execFuse_fuseLe (h := ht)
  | decommission => exact execDecommission_fuseLe (h := ht)
  | manifestAccept => exact .ofEq (execManifestAccept_fuses (ht := ht))
  | updateBlock => exact .ofEq (execUpdateBlock_fuses (ht := ht))
  | updateAbandon => exact .ofEq (execUpdateAbandon_fuses (ht := ht))
  | handover => exact .ofEq (execHandover_fuses (ht := ht))
  | ldrTrialStart => exact .ofEq (execLdrTrialStart_fuses (ht := ht))
  | ldrTrialStop => exact .ofEq (execLdrTrialStop_fuses (ht := ht))
  | trialExpiry => exact .ofEq (execTrialExpiry_fuses (ht := ht))
  | ethernetLinkChange => exact .ofEq (execEthernetLinkChange_fuses (ht := ht))
  | gpioEdge => exact .ofEq (execGpioEdge_fuses (ht := ht))
  | pllPRelock => exact .ofEq (execPllPRelock_fuses (ht := ht))
  | vanaRelease => exact .ofEq (execVanaRelease_fuses (ht := ht))
  | vdrvRelease => exact .ofEq (execVdrvRelease_fuses (ht := ht))
  | canErrorPassive => exact .ofEq (execCanErrorPassive_fuses (ht := ht))
  | appLaneEventFrame => exact .ofEq (execAppLaneEventFrame_fuses (ht := ht))
  | retryWindowExpiry => exact .ofEq (execRetryWindowExpiry_fuses (ht := ht))

/-- A tick of 1 ms programs no fuse. -/
theorem tick_fuses (s : State) : (tick s).fuses = s.fuses := by simp [tick]

/-- Settles O53: by the table over the commands; a step is a command run on another queue, or a tick. -/
theorem fusesOnlyRise : Obligations.FusesOnlyRise := by
  unfold Obligations.FusesOnlyRise
  refine ⟨fun i s t h => exec_fuseLe h, fun s t h => ?_⟩
  rcases step_cases h with ⟨-, rfl⟩ | ⟨c, rest, -, hc⟩
  · exact .ofEq (tick_fuses s)
  · have hle := exec_fuseLe hc
    exact hle

end Sys2Proof.Machine
end

section
/-!
SUPPORT. Proofs of the three frames: a command outside a list leaves the sealed die, the Bridle or the power die as it was
(01 R17, R20 to R26). Each table names, for a command outside the list, the law about its effect.
-/
set_option Elab.async false
namespace Sys2Proof.Machine

/-! ### The sealed die -/

/-- Settles O54: a command of the list is excluded, and every other one has a law that it leaves the sealed die as it was. -/
theorem sealedDieFrame : Obligations.SealedDieFrame := by
  unfold Obligations.SealedDieFrame
  intro i s t hi ht
  cases i with
  | registerWrite => exact execRegisterWrite_die (ht := ht)
  | bridleHeartbeat => exact execBridleHeartbeat_die (ht := ht)
  | safetyLaneHeartbeatLoss => exact execSafetyLaneHeartbeatLoss_die (ht := ht)
  | safeStateReport => exact execSafeStateReport_die (ht := ht)
  | safeStateRelease => exact execSafeStateRelease_die (ht := ht)
  | appLaneCommand => exact execAppLaneCommand_die (ht := ht)
  | safetyLaneCommand => exact execSafetyLaneCommand_die (ht := ht)
  | powerDieClockFail => exact execPowerDieClockFail_die (ht := ht)
  | powerDieClockReturn => exact execPowerDieClockReturn_die (ht := ht)
  | powerDieReset => exact execPowerDieReset_die (ht := ht)
  | vcoreTrip => exact execVcoreTrip_die (ht := ht)
  | vioTrip => exact execVioTrip_die (ht := ht)
  | vanaTrip => exact execVanaTrip_die (ht := ht)
  | vloadTrip above => exact execVloadTrip_die above s t ht
  | vloadRelease => exact execVloadRelease_die (ht := ht)
  | pilotSupplyTrip => exact execPilotSupplyTrip_die (ht := ht)
  | pilotSupplyRelease => exact execPilotSupplyRelease_die (ht := ht)
  | vdrvTrip => exact execVdrvTrip_die (ht := ht)
  | clkSscWrite => exact execClkSscWrite_die (ht := ht)
  | spreadDisableHoldExpiry => exact execSpreadDisableHoldExpiry_die (ht := ht)
  | mainRefFail => exact execMainRefFail_die (ht := ht)
  | mainRefRecovered => exact execMainRefRecovered_die (ht := ht)
  | pllChUnlock h => exact execPllChUnlock_die h s t ht
  | pllPUnlock => exact execPllPUnlock_die (ht := ht)
  | pllEUnlock => exact execPllEUnlock_die (ht := ht)
  | bridleOscFail => exact execBridleOscFail_die (ht := ht)
  | resetPin => exact execResetPin_die (ht := ht)
  | watchdogExpiry => exact execWatchdogExpiry_die (ht := ht)
  | watchdogHalfPeriod => exact execWatchdogHalfPeriod_die (ht := ht)
  | watchdogKick => exact execWatchdogKick_die (ht := ht)
  | watchdogPeriodSet => exact execWatchdogPeriodSet_die (ht := ht)
  | appResetRequest => exact execAppResetRequest_die (ht := ht)
  | jtagResetRequest => exact execJtagResetRequest_die (ht := ht)
  | engineRun => exact execEngineRun_die (ht := ht)
  | engineReset => exact execEngineReset_die (ht := ht)
  | reclaim => exact execReclaim_die (ht := ht)
  | holdWindowExpiry => exact execHoldWindowExpiry_die (ht := ht)
  | shutdownCurrentTimeout => exact execShutdownCurrentTimeout_die (ht := ht)
  | shutdownLockRelease => exact execShutdownLockRelease_die (ht := ht)
  | harnessBurst => exact execHarnessBurst_die (ht := ht)
  | hrnWaitmaxRead => exact execHrnWaitmaxRead_die (ht := ht)
  | girthRequest => exact execGirthRequest_die (ht := ht)
  | girthRelease => exact execGirthRelease_die (ht := ht)
  | girthHoldExpiry => exact execGirthHoldExpiry_die (ht := ht)
  | unitOffReport => exact execUnitOffReport_die (ht := ht)
  | girthDerateSample => exact execGirthDerateSample_die (ht := ht)
  | girthShareWrite => exact execGirthShareWrite_die (ht := ht)
  | girthRebuild => exact execGirthRebuild_die (ht := ht)
  | grtBypassRead => exact execGrtBypassRead_die (ht := ht)
  | deliveryTimeout => exact execDeliveryTimeout_die (ht := ht)
  | instruction => exact execInstruction_die (ht := ht)
  | timerCompareMatch => exact execTimerCompareMatch_die (ht := ht)
  | debugAccess => exact execDebugAccess_die (ht := ht)
  | buckleSourceEdge => exact execBuckleSourceEdge_die (ht := ht)
  | buckleLevelChange => exact execBuckleLevelChange_die (ht := ht)
  | buckleClaim => exact execBuckleClaim_die (ht := ht)
  | buckleComplete => exact execBuckleComplete_die (ht := ht)
  | buckleCPendRead => exact execBuckleCPendRead_die (ht := ht)
  | buckleCPendWrite => exact execBuckleCPendWrite_die (ht := ht)
  | buckleCVecRead => exact execBuckleCVecRead_die (ht := ht)
  | bucklePendClear => exact execBucklePendClear_die (ht := ht)
  | buckleSoftwareSet => exact execBuckleSoftwareSet_die (ht := ht)
  | buckleCfgWrite => exact execBuckleCfgWrite_die (ht := ht)
  | sleepLatchWake => exact execSleepLatchWake_die (ht := ht)
  | pairMailboxCommit => exact execPairMailboxCommit_die (ht := ht)
  | pairMailboxRemove port m => exact execPairMailboxRemove_die port m s t ht
  | hubMailboxAcquire => exact execHubMailboxAcquire_die (ht := ht)
  | hubMailboxCommit => exact execHubMailboxCommit_die (ht := ht)
  | hubMailboxRelease => exact execHubMailboxRelease_die (ht := ht)
  | keeperTimeout => exact execKeeperTimeout_die (ht := ht)
  | hubMailboxRemove => exact execHubMailboxRemove_die (ht := ht)
  | mbxDroppedRead => exact execMbxDroppedRead_die (ht := ht)
  | counterWrap => exact execCounterWrap_die (ht := ht)
  | pmcSelect => exact execPmcSelect_die (ht := ht)
  | pmcSnapshot => exact execPmcSnapshot_die (ht := ht)
  | sdoUploadSegment => exact execSdoUploadSegment_die (ht := ht)
  | sdoUnsupportedCommand => exact execSdoUnsupportedCommand_die (ht := ht)
  | sdoSegmentTimeout => exact execSdoSegmentTimeout_die (ht := ht)
  | nmtStart => exact execNmtStart_die (ht := ht)
  | nmtStop => exact execNmtStop_die (ht := ht)
  | nmtEnterPreoperational => exact execNmtEnterPreoperational_die (ht := ht)
  | nmtResetCommunication => exact execNmtResetCommunication_die (ht := ht)
  | nmtResetNode => exact execNmtResetNode_die (ht := ht)
  | canopenHeartbeat => exact execCanopenHeartbeat_die (ht := ht)
  | sync => exact execSync_die (ht := ht)
  | tpdoEventTimer => exact execTpdoEventTimer_die (ht := ht)
  | canBusOff => exact execCanBusOff_die (ht := ht)
  | canBusOffRecovery => exact execCanBusOffRecovery_die (ht := ht)
  | latigoConnect => exact execLatigoConnect_die (ht := ht)
  | latigoUnsubscribe => exact execLatigoUnsubscribe_die (ht := ht)
  | latigoKeepalive => exact execLatigoKeepalive_die (ht := ht)
  | latigoBadFrame => exact execLatigoBadFrame_die (ht := ht)
  | latigoIdleTimeout => exact execLatigoIdleTimeout_die (ht := ht)
  | latigoCertExpiry => exact execLatigoCertExpiry_die (ht := ht)
  | latigoClose => exact execLatigoClose_die (ht := ht)
  | journalBatchClose save => exact execJournalBatchClose_die save s t ht
  | xspiOperationDone => exact execXspiOperationDone_die (ht := ht)
  | pilotCommand => exact execPilotCommand_die (ht := ht)
  | pilotPeriodStart => exact execPilotPeriodStart_die (ht := ht)
  | pilotWake => exact execPilotWake_die (ht := ht)
  | pilotWakeEnd => exact execPilotWakeEnd_die (ht := ht)
  | pilotPeriodTrim => exact execPilotPeriodTrim_die (ht := ht)
  | pilotPlateauEvaluation => exact execPilotPlateauEvaluation_die (ht := ht)
  | pilotFaultFrame p cause => exact execPilotFaultFrame_die p cause s t ht
  | offWaitExpiry => exact execOffWaitExpiry_die (ht := ht)
  | proximityMeasurement => exact execProximityMeasurement_die (ht := ht)
  | pilotCfgWrite => exact execPilotCfgWrite_die (ht := ht)
  | pilTsRead => exact execPilTsRead_die (ht := ht)
  | plcStart => exact execPlcStart_die (ht := ht)
  | plcStop => exact execPlcStop_die (ht := ht)
  | plcStoppingEnd => exact execPlcStoppingEnd_die (ht := ht)
  | plcReslac => exact execPlcReslac_die (ht := ht)
  | beacon => exact execBeacon_die (ht := ht)
  | slacParmReq => exact execSlacParmReq_die (ht := ht)
  | startAttenChar => exact execStartAttenChar_die (ht := ht)
  | slacSound => exact execSlacSound_die (ht := ht)
  | slacCollectionClose => exact execSlacCollectionClose_die (ht := ht)
  | slacValidateReq => exact execSlacValidateReq_die (ht := ht)
  | slacValidateWindowEnd => exact execSlacValidateWindowEnd_die (ht := ht)
  | slacMatchReq => exact execSlacMatchReq_die (ht := ht)
  | slacMatchTimeout => exact execSlacMatchTimeout_die (ht := ht)
  | plcMpduReceive => exact execPlcMpduReceive_die (ht := ht)
  | plcLinkLost => exact execPlcLinkLost_die (ht := ht)
  | nekRenewal => exact execNekRenewal_die (ht := ht)
  | plcTxPost => exact execPlcTxPost_die (ht := ht)
  | plcSackReceived => exact execPlcSackReceived_die (ht := ht)
  | plcTxTimeout => exact execPlcTxTimeout_die (ht := ht)
  | plcRxPop => exact execPlcRxPop_die (ht := ht)
  | plcTxdoneRead => exact execPlcTxdoneRead_die (ht := ht)
  | plcNtbRead => exact execPlcNtbRead_die (ht := ht)
  | reinSourceClaim => exact execReinSourceClaim_die (ht := ht)
  | reinMailboxStash => exact execReinMailboxStash_die (ht := ht)
  | reinActivation => exact execReinActivation_die (ht := ht)
  | sesDone => exact execSesDone_die (ht := ht)
  | sesPost => exact execSesPost_die (ht := ht)
  | sesPostr => exact execSesPostr_die (ht := ht)
  | evTake => exact execEvTake_die (ht := ht)
  | budgetExhausted => exact execBudgetExhausted_die (ht := ht)
  | trapNoticeCommit => exact execTrapNoticeCommit_die (ht := ht)
  | reinTimerExpiry => exact execReinTimerExpiry_die (ht := ht)
  | sesStart => exact execSesStart_die (ht := ht)
  | sesRestart => exact execSesRestart_die (ht := ht)
  | sesFree => exact execSesFree_die (ht := ht)
  | sesSetrole => exact execSesSetrole_die (ht := ht)
  | sesUseRead => exact execSesUseRead_die (ht := ht)
  | sdpRequest => exact execSdpRequest_die (ht := ht)
  | v2gTcpConnect => exact execV2gTcpConnect_die (ht := ht)
  | v2gTlsHandshake => exact execV2gTlsHandshake_die (ht := ht)
  | v2gtpMessage => exact execV2gtpMessage_die (ht := ht)
  | supportedAppProtocolReq => exact execSupportedAppProtocolReq_die (ht := ht)
  | authorizationSetupReq => exact execAuthorizationSetupReq_die (ht := ht)
  | authorizationReq => exact execAuthorizationReq_die (ht := ht)
  | certificateInstallationReq => exact execCertificateInstallationReq_die (ht := ht)
  | powerDeliveryStart => exact execPowerDeliveryStart_die (ht := ht)
  | ongoingTimeExpiry => exact execOngoingTimeExpiry_die (ht := ht)
  | hostDecisionTimeout => exact execHostDecisionTimeout_die (ht := ht)
  | hostDecision => exact execHostDecision_die (ht := ht)
  | v2gSequenceTimeout => exact execV2gSequenceTimeout_die (ht := ht)
  | v2gSetupTimeout => exact execV2gSetupTimeout_die (ht := ht)
  | skiverSubmit => exact execSkiverSubmit_die (ht := ht)
  | skiverComplete => exact execSkiverComplete_die (ht := ht)
  | skiverCplRead => exact execSkiverCplRead_die (ht := ht)
  | awlJobComplete => exact execAwlJobComplete_die (ht := ht)
  | sequenceSignalChange => exact execSequenceSignalChange_die (ht := ht)
  | vcanFrame => exact execVcanFrame_die (ht := ht)
  | chargerFramePeriod => exact execChargerFramePeriod_die (ht := ht)
  | vcanFirstFrameTimeout => exact execVcanFirstFrameTimeout_die (ht := ht)
  | vcanFrameTimeout => exact execVcanFrameTimeout_die (ht := ht)
  | sealedLinkSend => exact execSealedLinkSend_die (ht := ht)
  | sealedLinkPop => exact execSealedLinkPop_die (ht := ht)
  | outPsqWrite => exact execOutPsqWrite_die (ht := ht)
  | readerPing => exact execReaderPing_die (ht := ht)
  | readerPollCycle => exact execReaderPollCycle_die (ht := ht)
  | readerMultiRepoll => exact execReaderMultiRepoll_die (ht := ht)
  | readerFieldIdle => exact execReaderFieldIdle_die (ht := ht)
  | readerExchange => exact execReaderExchange_die (ht := ht)
  | readerAbort => exact execReaderAbort_die (ht := ht)
  | readerPoll => exact execReaderPoll_die (ht := ht)
  | readerFieldOff => exact execReaderFieldOff_die (ht := ht)
  | readerModeWrite => exact execReaderModeWrite_die (ht := ht)
  | cardBlockReceive => exact execCardBlockReceive_die (ht := ht)
  | cardFwtExpiry => exact execCardFwtExpiry_die (ht := ht)
  | readerExchangeTimeout => exact execReaderExchangeTimeout_die (ht := ht)
  | tagFieldEntry => exact execTagFieldEntry_die (ht := ht)
  | tagActivation => exact execTagActivation_die (ht := ht)
  | tagSelect => exact execTagSelect_die (ht := ht)
  | tagReadBinary => exact execTagReadBinary_die (ht := ht)
  | tagUpdateBinary => exact execTagUpdateBinary_die (ht := ht)
  | tagOtherCommand => exact execTagOtherCommand_die (ht := ht)
  | tagFieldLoss => exact execTagFieldLoss_die (ht := ht)
  | tagTransactionIdle => exact execTagTransactionIdle_die (ht := ht)
  | tagCommit => exact execTagCommit_die (ht := ht)
  | tagForcedSwap => exact execTagForcedSwap_die (ht := ht)
  | outputOff => exact execOutputOff_die (ht := ht)
  | outputClear => exact execOutputClear_die (ht := ht)
  | outputTestPulse => exact execOutputTestPulse_die (ht := ht)
  | outputTestPeriod => exact execOutputTestPeriod_die (ht := ht)
  | coilPullInEnd => exact execCoilPullInEnd_die (ht := ht)
  | outputCurrentLimit => exact execOutputCurrentLimit_die (ht := ht)
  | outputLimitExit => exact execOutputLimitExit_die (ht := ht)
  | outputThermalTrip => exact execOutputThermalTrip_die (ht := ht)
  | outputRestartLevel => exact execOutputRestartLevel_die (ht := ht)
  | outputRestartRetry => exact execOutputRestartRetry_die (ht := ht)
  | outputWarningBand => exact execOutputWarningBand_die (ht := ht)
  | outputSumOver => exact execOutputSumOver_die (ht := ht)
  | outputCfgWrite => exact execOutputCfgWrite_die (ht := ht)
  | outProtWrite => exact execOutProtWrite_die (ht := ht)
  | rcWindowEnd => exact execRcWindowEnd_die (ht := ht)
  | rcClear => exact execRcClear_die (ht := ht)
  | rcCfgWrite => exact execRcCfgWrite_die (ht := ht)
  | imHalfPeriodEnd => exact execImHalfPeriodEnd_die (ht := ht)
  | imEnable => exact execImEnable_die (ht := ht)
  | imDisable => exact execImDisable_die (ht := ht)
  | imPause => exact execImPause_die (ht := ht)
  | imResume => exact execImResume_die (ht := ht)
  | imClear => exact execImClear_die (ht := ht)
  | earthFaultFrame => exact execEarthFaultFrame_die (ht := ht)
  | bridleRelease => exact execBridleRelease_die (ht := ht)
  | lockstepMismatch => exact execLockstepMismatch_die (ht := ht)
  | bridleWatchdogExpiry => exact execBridleWatchdogExpiry_die (ht := ht)
  | bridleRestart => exact execBridleRestart_die (ht := ht)
  | mirrorChange => exact execMirrorChange_die (ht := ht)
  | mirrorOpenTimeout => exact execMirrorOpenTimeout_die (ht := ht)
  | mirrorCloseTimeout => exact execMirrorCloseTimeout_die (ht := ht)
  | tpStuckReport => exact execTpStuckReport_die (ht := ht)
  | safetyInputChange => exact execSafetyInputChange_die (ht := ht)
  | safetyInputDiscrepancy => exact execSafetyInputDiscrepancy_die (ht := ht)
  | deviceMotionMonitor => exact execDeviceMotionMonitor_die (ht := ht)
  | ss1Standstill => exact execSs1Standstill_die (ht := ht)
  | ss1Timeout => exact execSs1Timeout_die (ht := ht)
  | deviceMoveTimeout => exact execDeviceMoveTimeout_die (ht := ht)
  | stoOffPulse => exact execStoOffPulse_die (ht := ht)
  | stoDiscrepancy => exact execStoDiscrepancy_die (ht := ht)
  | safeMessageReceive => exact execSafeMessageReceive_die (ht := ht)
  | safeMessageWindowExpiry => exact execSafeMessageWindowExpiry_die (ht := ht)
  | safeMessageTimeout => exact execSafeMessageTimeout_die (ht := ht)
  | safeMessageTransmit => exact execSafeMessageTransmit_die (ht := ht)
  | safeMessageReadbackMissing => exact execSafeMessageReadbackMissing_die (ht := ht)
  | pilotRelease => exact execPilotRelease_die (ht := ht)
  | earthRelease => exact execEarthRelease_die (ht := ht)
  | current => exact execCurrent_die (ht := ht)
  | stopReq => exact execStopReq_die (ht := ht)
  | motionReq => exact execMotionReq_die (ht := ht)
  | holdRelease => exact execHoldRelease_die (ht := ht)
  | noteAck => exact execNoteAck_die (ht := ht)
  | unknownSafeMessage => exact execUnknownSafeMessage_die (ht := ht)
  | marchTest => exact execMarchTest_die (ht := ht)
  | bridleCodeCheck => exact execBridleCodeCheck_die (ht := ht)
  | inputPathTest => exact execInputPathTest_die (ht := ht)
  | generate => exact execGenerate_die (ht := ht)
  | importKey => exact execImportKey_die (ht := ht)
  | derive => exact execDerive_die (ht := ht)
  | delete => exact execDelete_die (ht := ht)
  | publicKey => exact execPublicKey_die (ht := ht)
  | sign => exact execSign_die (ht := ht)
  | verify => exact execVerify_die (ht := ht)
  | agree => exact execAgree_die (ht := ht)
  | measure => exact execMeasure_die (ht := ht)
  | successor addr => exact execSuccessor_die addr s t ht
  | confirm => exact execConfirm_die (ht := ht)
  | random => exact execRandom_die (ht := ht)
  | fuse => exact execFuse_die (ht := ht)
  | decommission => exact execDecommission_die (ht := ht)
  | manifestAccept => exact execManifestAccept_die (ht := ht)
  | updateBlock => exact execUpdateBlock_die (ht := ht)
  | updateAbandon => exact execUpdateAbandon_die (ht := ht)
  | handover => exact execHandover_die (ht := ht)
  | ldrTrialStart => exact execLdrTrialStart_die (ht := ht)
  | ldrTrialStop => exact execLdrTrialStop_die (ht := ht)
  | trialExpiry => exact execTrialExpiry_die (ht := ht)
  | ethernetLinkChange => exact execEthernetLinkChange_die (ht := ht)
  | gpioEdge => exact execGpioEdge_die (ht := ht)
  | pllPRelock => exact execPllPRelock_die (ht := ht)
  | vanaRelease => exact execVanaRelease_die (ht := ht)
  | vdrvRelease => exact execVdrvRelease_die (ht := ht)
  | canErrorPassive => exact execCanErrorPassive_die (ht := ht)
  | appLaneEventFrame => exact execAppLaneEventFrame_die (ht := ht)
  | retryWindowExpiry => exact execRetryWindowExpiry_die (ht := ht)
  | _ => nomatch hi

/-! ### The Bridle -/

/-- Settles O55: a command of the list is excluded, and every other one has a law that it leaves the Bridle as it was. -/
theorem bridleFrame : Obligations.BridleFrame := by
  unfold Obligations.BridleFrame
  intro i s t hi ht
  cases i with
  | sealedLinkMessageReceive => exact execSealedLinkMessageReceive_bridle (ht := ht)
  | linkKeyAgreement => exact execLinkKeyAgreement_bridle (ht := ht)
  | linkAckReceive => exact execLinkAckReceive_bridle (ht := ht)
  | sealedLinkHeartbeat => exact execSealedLinkHeartbeat_bridle (ht := ht)
  | sealedLinkResendTimeout => exact execSealedLinkResendTimeout_bridle (ht := ht)
  | sealedLinkSilenceTimeout => exact execSealedLinkSilenceTimeout_bridle (ht := ht)
  | bridleHeartbeat => exact execBridleHeartbeat_bridle (ht := ht)
  | safetyLaneHeartbeatLoss => exact execSafetyLaneHeartbeatLoss_bridle (ht := ht)
  | safeStateReport => exact execSafeStateReport_bridle (ht := ht)
  | safeStateRelease => exact execSafeStateRelease_bridle (ht := ht)
  | safetyLaneCommand => exact execSafetyLaneCommand_bridle (ht := ht)
  | powerDieClockFail => exact execPowerDieClockFail_bridle (ht := ht)
  | powerDieClockReturn => exact execPowerDieClockReturn_bridle (ht := ht)
  | powerDieReset => exact execPowerDieReset_bridle (ht := ht)
  | vanaTrip => exact execVanaTrip_bridle (ht := ht)
  | sealedSupplyTrip vmio => exact execSealedSupplyTrip_bridle vmio s t ht
  | sealedWatchdogExpiry => exact execSealedWatchdogExpiry_bridle (ht := ht)
  | vbatSample => exact execVbatSample_bridle (ht := ht)
  | legalClockStop => exact execLegalClockStop_bridle (ht := ht)
  | vloadTrip above => exact execVloadTrip_bridle above s t ht
  | vloadRelease => exact execVloadRelease_bridle (ht := ht)
  | pilotSupplyRelease => exact execPilotSupplyRelease_bridle (ht := ht)
  | vdrvTrip => exact execVdrvTrip_bridle (ht := ht)
  | powerFailWarning => exact execPowerFailWarning_bridle (ht := ht)
  | powerFailRelease => exact execPowerFailRelease_bridle (ht := ht)
  | clkSscWrite => exact execClkSscWrite_bridle (ht := ht)
  | spreadDisableHoldExpiry => exact execSpreadDisableHoldExpiry_bridle (ht := ht)
  | mainRefRecovered => exact execMainRefRecovered_bridle (ht := ht)
  | pllPUnlock => exact execPllPUnlock_bridle (ht := ht)
  | pllEUnlock => exact execPllEUnlock_bridle (ht := ht)
  | metrologyRefFail => exact execMetrologyRefFail_bridle (ht := ht)
  | metrologyRefReturn => exact execMetrologyRefReturn_bridle (ht := ht)
  | legalCrystalFail => exact execLegalCrystalFail_bridle (ht := ht)
  | watchdogHalfPeriod => exact execWatchdogHalfPeriod_bridle (ht := ht)
  | watchdogKick => exact execWatchdogKick_bridle (ht := ht)
  | watchdogPeriodSet => exact execWatchdogPeriodSet_bridle (ht := ht)
  | harnessBurst => exact execHarnessBurst_bridle (ht := ht)
  | hrnWaitmaxRead => exact execHrnWaitmaxRead_bridle (ht := ht)
  | girthRequest => exact execGirthRequest_bridle (ht := ht)
  | girthRelease => exact execGirthRelease_bridle (ht := ht)
  | girthHoldExpiry => exact execGirthHoldExpiry_bridle (ht := ht)
  | unitOffReport => exact execUnitOffReport_bridle (ht := ht)
  | girthDerateSample => exact execGirthDerateSample_bridle (ht := ht)
  | girthShareWrite => exact execGirthShareWrite_bridle (ht := ht)
  | girthRebuild => exact execGirthRebuild_bridle (ht := ht)
  | grtBypassRead => exact execGrtBypassRead_bridle (ht := ht)
  | buckleSourceEdge => exact execBuckleSourceEdge_bridle (ht := ht)
  | buckleLevelChange => exact execBuckleLevelChange_bridle (ht := ht)
  | buckleClaim => exact execBuckleClaim_bridle (ht := ht)
  | buckleComplete => exact execBuckleComplete_bridle (ht := ht)
  | buckleCPendRead => exact execBuckleCPendRead_bridle (ht := ht)
  | buckleCPendWrite => exact execBuckleCPendWrite_bridle (ht := ht)
  | buckleCVecRead => exact execBuckleCVecRead_bridle (ht := ht)
  | bucklePendClear => exact execBucklePendClear_bridle (ht := ht)
  | buckleSoftwareSet => exact execBuckleSoftwareSet_bridle (ht := ht)
  | buckleCfgWrite => exact execBuckleCfgWrite_bridle (ht := ht)
  | sleepLatchWake => exact execSleepLatchWake_bridle (ht := ht)
  | pairMailboxCommit => exact execPairMailboxCommit_bridle (ht := ht)
  | pairMailboxRemove port m => exact execPairMailboxRemove_bridle port m s t ht
  | hubMailboxAcquire => exact execHubMailboxAcquire_bridle (ht := ht)
  | hubMailboxCommit => exact execHubMailboxCommit_bridle (ht := ht)
  | hubMailboxRelease => exact execHubMailboxRelease_bridle (ht := ht)
  | keeperTimeout => exact execKeeperTimeout_bridle (ht := ht)
  | hubMailboxRemove => exact execHubMailboxRemove_bridle (ht := ht)
  | mbxDroppedRead => exact execMbxDroppedRead_bridle (ht := ht)
  | counterWrap => exact execCounterWrap_bridle (ht := ht)
  | pmcSelect => exact execPmcSelect_bridle (ht := ht)
  | pmcSnapshot => exact execPmcSnapshot_bridle (ht := ht)
  | sdoInitiateUpload => exact execSdoInitiateUpload_bridle (ht := ht)
  | sdoUploadSegment => exact execSdoUploadSegment_bridle (ht := ht)
  | sdoUnsupportedCommand => exact execSdoUnsupportedCommand_bridle (ht := ht)
  | sdoSegmentTimeout => exact execSdoSegmentTimeout_bridle (ht := ht)
  | nmtStart => exact execNmtStart_bridle (ht := ht)
  | nmtStop => exact execNmtStop_bridle (ht := ht)
  | nmtEnterPreoperational => exact execNmtEnterPreoperational_bridle (ht := ht)
  | nmtResetCommunication => exact execNmtResetCommunication_bridle (ht := ht)
  | nmtResetNode => exact execNmtResetNode_bridle (ht := ht)
  | canopenHeartbeat => exact execCanopenHeartbeat_bridle (ht := ht)
  | sync => exact execSync_bridle (ht := ht)
  | tpdoEventTimer => exact execTpdoEventTimer_bridle (ht := ht)
  | canBusOff => exact execCanBusOff_bridle (ht := ht)
  | canBusOffRecovery => exact execCanBusOffRecovery_bridle (ht := ht)
  | latigoConnect => exact execLatigoConnect_bridle (ht := ht)
  | latigoRead => exact execLatigoRead_bridle (ht := ht)
  | latigoSubscribe => exact execLatigoSubscribe_bridle (ht := ht)
  | latigoUnsubscribe => exact execLatigoUnsubscribe_bridle (ht := ht)
  | latigoKeepalive => exact execLatigoKeepalive_bridle (ht := ht)
  | latigoNotify => exact execLatigoNotify_bridle (ht := ht)
  | latigoBadFrame => exact execLatigoBadFrame_bridle (ht := ht)
  | latigoIdleTimeout => exact execLatigoIdleTimeout_bridle (ht := ht)
  | latigoCertExpiry => exact execLatigoCertExpiry_bridle (ht := ht)
  | latigoClose => exact execLatigoClose_bridle (ht := ht)
  | journalBatchClose save => exact execJournalBatchClose_bridle save s t ht
  | xspiOperationDone => exact execXspiOperationDone_bridle (ht := ht)
  | pilotCommand => exact execPilotCommand_bridle (ht := ht)
  | pilotPeriodStart => exact execPilotPeriodStart_bridle (ht := ht)
  | pilotWake => exact execPilotWake_bridle (ht := ht)
  | pilotWakeEnd => exact execPilotWakeEnd_bridle (ht := ht)
  | pilotPeriodTrim => exact execPilotPeriodTrim_bridle (ht := ht)
  | pilotPlateauEvaluation => exact execPilotPlateauEvaluation_bridle (ht := ht)
  | offWaitExpiry => exact execOffWaitExpiry_bridle (ht := ht)
  | proximityMeasurement => exact execProximityMeasurement_bridle (ht := ht)
  | pilotCfgWrite => exact execPilotCfgWrite_bridle (ht := ht)
  | pilTsRead => exact execPilTsRead_bridle (ht := ht)
  | plcStart => exact execPlcStart_bridle (ht := ht)
  | plcStop => exact execPlcStop_bridle (ht := ht)
  | plcStoppingEnd => exact execPlcStoppingEnd_bridle (ht := ht)
  | plcReslac => exact execPlcReslac_bridle (ht := ht)
  | beacon => exact execBeacon_bridle (ht := ht)
  | slacParmReq => exact execSlacParmReq_bridle (ht := ht)
  | startAttenChar => exact execStartAttenChar_bridle (ht := ht)
  | slacSound => exact execSlacSound_bridle (ht := ht)
  | slacCollectionClose => exact execSlacCollectionClose_bridle (ht := ht)
  | slacValidateReq => exact execSlacValidateReq_bridle (ht := ht)
  | slacValidateWindowEnd => exact execSlacValidateWindowEnd_bridle (ht := ht)
  | slacMatchReq => exact execSlacMatchReq_bridle (ht := ht)
  | slacMatchTimeout => exact execSlacMatchTimeout_bridle (ht := ht)
  | plcMpduReceive => exact execPlcMpduReceive_bridle (ht := ht)
  | plcLinkLost => exact execPlcLinkLost_bridle (ht := ht)
  | nekRenewal => exact execNekRenewal_bridle (ht := ht)
  | plcTxPost => exact execPlcTxPost_bridle (ht := ht)
  | plcSackReceived => exact execPlcSackReceived_bridle (ht := ht)
  | plcTxTimeout => exact execPlcTxTimeout_bridle (ht := ht)
  | plcRxPop => exact execPlcRxPop_bridle (ht := ht)
  | plcTxdoneRead => exact execPlcTxdoneRead_bridle (ht := ht)
  | plcNtbRead => exact execPlcNtbRead_bridle (ht := ht)
  | reinSourceClaim => exact execReinSourceClaim_bridle (ht := ht)
  | reinMailboxStash => exact execReinMailboxStash_bridle (ht := ht)
  | reinActivation => exact execReinActivation_bridle (ht := ht)
  | sesDone => exact execSesDone_bridle (ht := ht)
  | sesPost => exact execSesPost_bridle (ht := ht)
  | sesPostr => exact execSesPostr_bridle (ht := ht)
  | evTake => exact execEvTake_bridle (ht := ht)
  | budgetExhausted => exact execBudgetExhausted_bridle (ht := ht)
  | trapNoticeCommit => exact execTrapNoticeCommit_bridle (ht := ht)
  | reinTimerExpiry => exact execReinTimerExpiry_bridle (ht := ht)
  | sesStart => exact execSesStart_bridle (ht := ht)
  | sesRestart => exact execSesRestart_bridle (ht := ht)
  | sesFree => exact execSesFree_bridle (ht := ht)
  | sesSetrole => exact execSesSetrole_bridle (ht := ht)
  | sesUseRead => exact execSesUseRead_bridle (ht := ht)
  | sdpRequest => exact execSdpRequest_bridle (ht := ht)
  | v2gTcpConnect => exact execV2gTcpConnect_bridle (ht := ht)
  | v2gTlsHandshake => exact execV2gTlsHandshake_bridle (ht := ht)
  | v2gtpMessage => exact execV2gtpMessage_bridle (ht := ht)
  | supportedAppProtocolReq => exact execSupportedAppProtocolReq_bridle (ht := ht)
  | v2gRequest => exact execV2gRequest_bridle (ht := ht)
  | authorizationSetupReq => exact execAuthorizationSetupReq_bridle (ht := ht)
  | authorizationReq => exact execAuthorizationReq_bridle (ht := ht)
  | certificateInstallationReq => exact execCertificateInstallationReq_bridle (ht := ht)
  | powerDeliveryStart => exact execPowerDeliveryStart_bridle (ht := ht)
  | ongoingTimeExpiry => exact execOngoingTimeExpiry_bridle (ht := ht)
  | hostDecisionTimeout => exact execHostDecisionTimeout_bridle (ht := ht)
  | hostDecision => exact execHostDecision_bridle (ht := ht)
  | v2gSequenceTimeout => exact execV2gSequenceTimeout_bridle (ht := ht)
  | v2gSetupTimeout => exact execV2gSetupTimeout_bridle (ht := ht)
  | skiverSubmit => exact execSkiverSubmit_bridle (ht := ht)
  | skiverComplete => exact execSkiverComplete_bridle (ht := ht)
  | skiverCplRead => exact execSkiverCplRead_bridle (ht := ht)
  | awlJobComplete => exact execAwlJobComplete_bridle (ht := ht)
  | sequenceSignalChange => exact execSequenceSignalChange_bridle (ht := ht)
  | vcanFrame => exact execVcanFrame_bridle (ht := ht)
  | chargerFramePeriod => exact execChargerFramePeriod_bridle (ht := ht)
  | vcanFirstFrameTimeout => exact execVcanFirstFrameTimeout_bridle (ht := ht)
  | vcanFrameTimeout => exact execVcanFrameTimeout_bridle (ht := ht)
  | adcOverload => exact execAdcOverload_bridle (ht := ht)
  | gainRaise => exact execGainRaise_bridle (ht := ht)
  | bitstreamModfail => exact execBitstreamModfail_bridle (ht := ht)
  | elementCycleEnd => exact execElementCycleEnd_bridle (ht := ht)
  | blockModeEntry => exact execBlockModeEntry_bridle (ht := ht)
  | blockModeReturn => exact execBlockModeReturn_bridle (ht := ht)
  | harmonicWindowEnd => exact execHarmonicWindowEnd_bridle (ht := ht)
  | temperatureBandSample => exact execTemperatureBandSample_bridle (ht := ht)
  | shadowCheckEnd => exact execShadowCheckEnd_bridle (ht := ht)
  | pulseDue => exact execPulseDue_bridle (ht := ht)
  | pulseOnTimeEnd => exact execPulseOnTimeEnd_bridle (ht := ht)
  | sliceEnd => exact execSliceEnd_bridle (ht := ht)
  | residueUpdate => exact execResidueUpdate_bridle (ht := ht)
  | periodicCommit => exact execPeriodicCommit_bridle (ht := ht)
  | metrologyRead => exact execMetrologyRead_bridle (ht := ht)
  | sealOpen => exact execSealOpen_bridle (ht := ht)
  | sealParameterWrite => exact execSealParameterWrite_bridle (ht := ht)
  | sealCloseCommit => exact execSealCloseCommit_bridle (ht := ht)
  | sealCloseAbandon => exact execSealCloseAbandon_bridle (ht := ht)
  | sealTimeout => exact execSealTimeout_bridle (ht := ht)
  | sealedLinkSend => exact execSealedLinkSend_bridle (ht := ht)
  | sealedLinkPop => exact execSealedLinkPop_bridle (ht := ht)
  | sealedObjectRead => exact execSealedObjectRead_bridle (ht := ht)
  | sealedObjectWrite => exact execSealedObjectWrite_bridle (ht := ht)
  | recordOpen => exact execRecordOpen_bridle (ht := ht)
  | recordClose => exact execRecordClose_bridle (ht := ht)
  | recordQuery => exact execRecordQuery_bridle (ht := ht)
  | recordSigned => exact execRecordSigned_bridle (ht := ht)
  | recordCollectionAck => exact execRecordCollectionAck_bridle (ht := ht)
  | sessionNoticePlug tag p handle => exact execSessionNoticePlug_bridle tag p handle s t ht
  | sessionNoticeAuthorise tag p handle serial => exact execSessionNoticeAuthorise_bridle tag p handle serial s t ht
  | sessionNoticeEnergyFlow tag p handle serial => exact execSessionNoticeEnergyFlow_bridle tag p handle serial s t ht
  | sessionNoticeStop tag p handle serial reason =>
    exact execSessionNoticeStop_bridle tag p handle serial reason s t ht
  | sessionNoticeMeteringConfirmation tag p handle serial reading sig =>
    exact execSessionNoticeMeteringConfirmation_bridle tag p handle serial reading sig s t ht
  | signedReading => exact execSignedReading_bridle (ht := ht)
  | purseQuery => exact execPurseQuery_bridle (ht := ht)
  | calendarWrite => exact execCalendarWrite_bridle (ht := ht)
  | calendarActivateSet => exact execCalendarActivateSet_bridle (ht := ht)
  | calendarActivation => exact execCalendarActivation_bridle (ht := ht)
  | ltSet => exact execLtSet_bridle (ht := ht)
  | offsetSet => exact execOffsetSet_bridle (ht := ht)
  | offsetChangeScheduled => exact execOffsetChangeScheduled_bridle (ht := ht)
  | tariffSwitch => exact execTariffSwitch_bridle (ht := ht)
  | demandIntervalEnd => exact execDemandIntervalEnd_bridle (ht := ht)
  | sealedDieStart => exact execSealedDieStart_bridle (ht := ht)
  | maxDemandReset => exact execMaxDemandReset_bridle (ht := ht)
  | tokenKeyChange => exact execTokenKeyChange_bridle (ht := ht)
  | legalLogArchive => exact execLegalLogArchive_bridle (ht := ht)
  | pendingCreditExpiry => exact execPendingCreditExpiry_bridle (ht := ht)
  | tokenLockoutEnd => exact execTokenLockoutEnd_bridle (ht := ht)
  | ledgerAgeOut => exact execLedgerAgeOut_bridle (ht := ht)
  | panelEnable => exact execPanelEnable_bridle (ht := ht)
  | panelClearRequestRetry => exact execPanelClearRequestRetry_bridle (ht := ht)
  | panelStartTimeout => exact execPanelStartTimeout_bridle (ht := ht)
  | panelDisable => exact execPanelDisable_bridle (ht := ht)
  | panelFrameStart => exact execPanelFrameStart_bridle (ht := ht)
  | blinkHalfPeriod => exact execBlinkHalfPeriod_bridle (ht := ht)
  | legalRegionRedraw => exact execLegalRegionRedraw_bridle (ht := ht)
  | sealBorderAdvance => exact execSealBorderAdvance_bridle (ht := ht)
  | legalRegionGeometryWrite => exact execLegalRegionGeometryWrite_bridle (ht := ht)
  | overlayWrite => exact execOverlayWrite_bridle (ht := ht)
  | overlayFill => exact execOverlayFill_bridle (ht := ht)
  | paletteWrite => exact execPaletteWrite_bridle (ht := ht)
  | blinkSet => exact execBlinkSet_bridle (ht := ht)
  | terminalObjectRead => exact execTerminalObjectRead_bridle (ht := ht)
  | terminalObjectWrite => exact execTerminalObjectWrite_bridle (ht := ht)
  | panelStatusQuery => exact execPanelStatusQuery_bridle (ht := ht)
  | outPsqWrite => exact execOutPsqWrite_bridle (ht := ht)
  | keyDigit => exact execKeyDigit_bridle (ht := ht)
  | keyAccept => exact execKeyAccept_bridle (ht := ht)
  | keyDelete => exact execKeyDelete_bridle (ht := ht)
  | keyCancel => exact execKeyCancel_bridle (ht := ht)
  | keyStop => exact execKeyStop_bridle (ht := ht)
  | keyStar => exact execKeyStar_bridle (ht := ht)
  | keypadEntryTimeout => exact execKeypadEntryTimeout_bridle (ht := ht)
  | readerPing => exact execReaderPing_bridle (ht := ht)
  | readerPollCycle => exact execReaderPollCycle_bridle (ht := ht)
  | readerMultiRepoll => exact execReaderMultiRepoll_bridle (ht := ht)
  | readerFieldIdle => exact execReaderFieldIdle_bridle (ht := ht)
  | readerExchange => exact execReaderExchange_bridle (ht := ht)
  | readerAbort => exact execReaderAbort_bridle (ht := ht)
  | readerPoll => exact execReaderPoll_bridle (ht := ht)
  | readerFieldOff => exact execReaderFieldOff_bridle (ht := ht)
  | readerModeWrite => exact execReaderModeWrite_bridle (ht := ht)
  | cardBlockReceive => exact execCardBlockReceive_bridle (ht := ht)
  | cardFwtExpiry => exact execCardFwtExpiry_bridle (ht := ht)
  | readerExchangeTimeout => exact execReaderExchangeTimeout_bridle (ht := ht)
  | tagFieldEntry => exact execTagFieldEntry_bridle (ht := ht)
  | tagActivation => exact execTagActivation_bridle (ht := ht)
  | tagSelect => exact execTagSelect_bridle (ht := ht)
  | tagReadBinary => exact execTagReadBinary_bridle (ht := ht)
  | tagUpdateBinary => exact execTagUpdateBinary_bridle (ht := ht)
  | tagOtherCommand => exact execTagOtherCommand_bridle (ht := ht)
  | tagFieldLoss => exact execTagFieldLoss_bridle (ht := ht)
  | tagTransactionIdle => exact execTagTransactionIdle_bridle (ht := ht)
  | tagCommit => exact execTagCommit_bridle (ht := ht)
  | tagForcedSwap => exact execTagForcedSwap_bridle (ht := ht)
  | outputOff => exact execOutputOff_bridle (ht := ht)
  | outputClear => exact execOutputClear_bridle (ht := ht)
  | outputTestPulse => exact execOutputTestPulse_bridle (ht := ht)
  | outputTestPeriod => exact execOutputTestPeriod_bridle (ht := ht)
  | coilPullInEnd => exact execCoilPullInEnd_bridle (ht := ht)
  | outputCurrentLimit => exact execOutputCurrentLimit_bridle (ht := ht)
  | outputLimitExit => exact execOutputLimitExit_bridle (ht := ht)
  | outputThermalTrip => exact execOutputThermalTrip_bridle (ht := ht)
  | outputRestartLevel => exact execOutputRestartLevel_bridle (ht := ht)
  | outputRestartRetry => exact execOutputRestartRetry_bridle (ht := ht)
  | outputWarningBand => exact execOutputWarningBand_bridle (ht := ht)
  | outputSumOver => exact execOutputSumOver_bridle (ht := ht)
  | outputCfgWrite => exact execOutputCfgWrite_bridle (ht := ht)
  | outProtWrite => exact execOutProtWrite_bridle (ht := ht)
  | rcWindowEnd => exact execRcWindowEnd_bridle (ht := ht)
  | rcClear => exact execRcClear_bridle (ht := ht)
  | rcCfgWrite => exact execRcCfgWrite_bridle (ht := ht)
  | imHalfPeriodEnd => exact execImHalfPeriodEnd_bridle (ht := ht)
  | imEnable => exact execImEnable_bridle (ht := ht)
  | imDisable => exact execImDisable_bridle (ht := ht)
  | imPause => exact execImPause_bridle (ht := ht)
  | imResume => exact execImResume_bridle (ht := ht)
  | imClear => exact execImClear_bridle (ht := ht)
  | generate => exact execGenerate_bridle (ht := ht)
  | importKey => exact execImportKey_bridle (ht := ht)
  | derive => exact execDerive_bridle (ht := ht)
  | delete => exact execDelete_bridle (ht := ht)
  | publicKey => exact execPublicKey_bridle (ht := ht)
  | sign => exact execSign_bridle (ht := ht)
  | verify => exact execVerify_bridle (ht := ht)
  | agree => exact execAgree_bridle (ht := ht)
  | successor addr => exact execSuccessor_bridle addr s t ht
  | confirm => exact execConfirm_bridle (ht := ht)
  | random => exact execRandom_bridle (ht := ht)
  | fuse => exact execFuse_bridle (ht := ht)
  | decommission => exact execDecommission_bridle (ht := ht)
  | manifestAccept => exact execManifestAccept_bridle (ht := ht)
  | ldrTrialStart => exact execLdrTrialStart_bridle (ht := ht)
  | ldrTrialStop => exact execLdrTrialStop_bridle (ht := ht)
  | ethernetLinkChange => exact execEthernetLinkChange_bridle (ht := ht)
  | gpioEdge => exact execGpioEdge_bridle (ht := ht)
  | pllPRelock => exact execPllPRelock_bridle (ht := ht)
  | vanaRelease => exact execVanaRelease_bridle (ht := ht)
  | vdrvRelease => exact execVdrvRelease_bridle (ht := ht)
  | canErrorPassive => exact execCanErrorPassive_bridle (ht := ht)
  | appLaneEventFrame => exact execAppLaneEventFrame_bridle (ht := ht)
  | retryWindowExpiry => exact execRetryWindowExpiry_bridle (ht := ht)
  | _ => nomatch hi

/-! ### The power die -/

/-- Settles O59: a command of the list is excluded, and every other one has a law that it leaves the power die as it was. -/
theorem powerDieFrame : Obligations.PowerDieFrame := by
  unfold Obligations.PowerDieFrame
  intro i s t hi ht
  cases i with
  | vanaTrip => exact execVanaTrip_power (ht := ht)
  | sealedSupplyTrip vmio => exact execSealedSupplyTrip_power vmio s t ht
  | sealedWatchdogExpiry => exact execSealedWatchdogExpiry_power (ht := ht)
  | vbatSample => exact execVbatSample_power (ht := ht)
  | legalClockStop => exact execLegalClockStop_power (ht := ht)
  | clkSscWrite => exact execClkSscWrite_power (ht := ht)
  | spreadDisableHoldExpiry => exact execSpreadDisableHoldExpiry_power (ht := ht)
  | mainRefRecovered => exact execMainRefRecovered_power (ht := ht)
  | pllPUnlock => exact execPllPUnlock_power (ht := ht)
  | pllEUnlock => exact execPllEUnlock_power (ht := ht)
  | metrologyRefFail => exact execMetrologyRefFail_power (ht := ht)
  | metrologyRefReturn => exact execMetrologyRefReturn_power (ht := ht)
  | legalCrystalFail => exact execLegalCrystalFail_power (ht := ht)
  | watchdogHalfPeriod => exact execWatchdogHalfPeriod_power (ht := ht)
  | watchdogKick => exact execWatchdogKick_power (ht := ht)
  | watchdogPeriodSet => exact execWatchdogPeriodSet_power (ht := ht)
  | reclaim => exact execReclaim_power (ht := ht)
  | harnessBurst => exact execHarnessBurst_power (ht := ht)
  | hrnWaitmaxRead => exact execHrnWaitmaxRead_power (ht := ht)
  | girthRequest => exact execGirthRequest_power (ht := ht)
  | girthRelease => exact execGirthRelease_power (ht := ht)
  | girthHoldExpiry => exact execGirthHoldExpiry_power (ht := ht)
  | unitOffReport => exact execUnitOffReport_power (ht := ht)
  | girthDerateSample => exact execGirthDerateSample_power (ht := ht)
  | girthShareWrite => exact execGirthShareWrite_power (ht := ht)
  | girthRebuild => exact execGirthRebuild_power (ht := ht)
  | grtBypassRead => exact execGrtBypassRead_power (ht := ht)
  | deliveryTimeout => exact execDeliveryTimeout_power (ht := ht)
  | timerCompareMatch => exact execTimerCompareMatch_power (ht := ht)
  | buckleSourceEdge => exact execBuckleSourceEdge_power (ht := ht)
  | buckleLevelChange => exact execBuckleLevelChange_power (ht := ht)
  | buckleClaim => exact execBuckleClaim_power (ht := ht)
  | buckleComplete => exact execBuckleComplete_power (ht := ht)
  | buckleCPendRead => exact execBuckleCPendRead_power (ht := ht)
  | buckleCPendWrite => exact execBuckleCPendWrite_power (ht := ht)
  | buckleCVecRead => exact execBuckleCVecRead_power (ht := ht)
  | bucklePendClear => exact execBucklePendClear_power (ht := ht)
  | buckleSoftwareSet => exact execBuckleSoftwareSet_power (ht := ht)
  | buckleCfgWrite => exact execBuckleCfgWrite_power (ht := ht)
  | sleepLatchWake => exact execSleepLatchWake_power (ht := ht)
  | pairMailboxCommit => exact execPairMailboxCommit_power (ht := ht)
  | pairMailboxRemove port m => exact execPairMailboxRemove_power port m s t ht
  | hubMailboxAcquire => exact execHubMailboxAcquire_power (ht := ht)
  | hubMailboxCommit => exact execHubMailboxCommit_power (ht := ht)
  | hubMailboxRelease => exact execHubMailboxRelease_power (ht := ht)
  | keeperTimeout => exact execKeeperTimeout_power (ht := ht)
  | hubMailboxRemove => exact execHubMailboxRemove_power (ht := ht)
  | mbxDroppedRead => exact execMbxDroppedRead_power (ht := ht)
  | counterWrap => exact execCounterWrap_power (ht := ht)
  | pmcSelect => exact execPmcSelect_power (ht := ht)
  | pmcSnapshot => exact execPmcSnapshot_power (ht := ht)
  | sdoInitiateUpload => exact execSdoInitiateUpload_power (ht := ht)
  | sdoUploadSegment => exact execSdoUploadSegment_power (ht := ht)
  | sdoUnsupportedCommand => exact execSdoUnsupportedCommand_power (ht := ht)
  | sdoSegmentTimeout => exact execSdoSegmentTimeout_power (ht := ht)
  | nmtStart => exact execNmtStart_power (ht := ht)
  | nmtStop => exact execNmtStop_power (ht := ht)
  | nmtEnterPreoperational => exact execNmtEnterPreoperational_power (ht := ht)
  | nmtResetCommunication => exact execNmtResetCommunication_power (ht := ht)
  | nmtResetNode => exact execNmtResetNode_power (ht := ht)
  | canopenHeartbeat => exact execCanopenHeartbeat_power (ht := ht)
  | sync => exact execSync_power (ht := ht)
  | tpdoEventTimer => exact execTpdoEventTimer_power (ht := ht)
  | canBusOff => exact execCanBusOff_power (ht := ht)
  | canBusOffRecovery => exact execCanBusOffRecovery_power (ht := ht)
  | latigoConnect => exact execLatigoConnect_power (ht := ht)
  | latigoRead => exact execLatigoRead_power (ht := ht)
  | latigoSubscribe => exact execLatigoSubscribe_power (ht := ht)
  | latigoUnsubscribe => exact execLatigoUnsubscribe_power (ht := ht)
  | latigoKeepalive => exact execLatigoKeepalive_power (ht := ht)
  | latigoNotify => exact execLatigoNotify_power (ht := ht)
  | latigoBadFrame => exact execLatigoBadFrame_power (ht := ht)
  | latigoIdleTimeout => exact execLatigoIdleTimeout_power (ht := ht)
  | latigoCertExpiry => exact execLatigoCertExpiry_power (ht := ht)
  | latigoClose => exact execLatigoClose_power (ht := ht)
  | journalBatchClose save => exact execJournalBatchClose_power save s t ht
  | xspiOperationDone => exact execXspiOperationDone_power (ht := ht)
  | plcStart => exact execPlcStart_power (ht := ht)
  | plcStop => exact execPlcStop_power (ht := ht)
  | plcStoppingEnd => exact execPlcStoppingEnd_power (ht := ht)
  | plcReslac => exact execPlcReslac_power (ht := ht)
  | beacon => exact execBeacon_power (ht := ht)
  | slacParmReq => exact execSlacParmReq_power (ht := ht)
  | startAttenChar => exact execStartAttenChar_power (ht := ht)
  | slacSound => exact execSlacSound_power (ht := ht)
  | slacCollectionClose => exact execSlacCollectionClose_power (ht := ht)
  | slacValidateReq => exact execSlacValidateReq_power (ht := ht)
  | slacValidateWindowEnd => exact execSlacValidateWindowEnd_power (ht := ht)
  | slacMatchReq => exact execSlacMatchReq_power (ht := ht)
  | slacMatchTimeout => exact execSlacMatchTimeout_power (ht := ht)
  | plcMpduReceive => exact execPlcMpduReceive_power (ht := ht)
  | plcLinkLost => exact execPlcLinkLost_power (ht := ht)
  | nekRenewal => exact execNekRenewal_power (ht := ht)
  | plcTxPost => exact execPlcTxPost_power (ht := ht)
  | plcSackReceived => exact execPlcSackReceived_power (ht := ht)
  | plcTxTimeout => exact execPlcTxTimeout_power (ht := ht)
  | plcRxPop => exact execPlcRxPop_power (ht := ht)
  | plcTxdoneRead => exact execPlcTxdoneRead_power (ht := ht)
  | plcNtbRead => exact execPlcNtbRead_power (ht := ht)
  | reinSourceClaim => exact execReinSourceClaim_power (ht := ht)
  | reinMailboxStash => exact execReinMailboxStash_power (ht := ht)
  | reinActivation => exact execReinActivation_power (ht := ht)
  | sesPost => exact execSesPost_power (ht := ht)
  | sesPostr => exact execSesPostr_power (ht := ht)
  | evTake => exact execEvTake_power (ht := ht)
  | budgetExhausted => exact execBudgetExhausted_power (ht := ht)
  | trapNoticeCommit => exact execTrapNoticeCommit_power (ht := ht)
  | reinTimerExpiry => exact execReinTimerExpiry_power (ht := ht)
  | sesUseRead => exact execSesUseRead_power (ht := ht)
  | sdpRequest => exact execSdpRequest_power (ht := ht)
  | v2gTcpConnect => exact execV2gTcpConnect_power (ht := ht)
  | skiverSubmit => exact execSkiverSubmit_power (ht := ht)
  | skiverComplete => exact execSkiverComplete_power (ht := ht)
  | skiverCplRead => exact execSkiverCplRead_power (ht := ht)
  | awlJobComplete => exact execAwlJobComplete_power (ht := ht)
  | chargerFramePeriod => exact execChargerFramePeriod_power (ht := ht)
  | adcOverload => exact execAdcOverload_power (ht := ht)
  | gainRaise => exact execGainRaise_power (ht := ht)
  | bitstreamModfail => exact execBitstreamModfail_power (ht := ht)
  | elementCycleEnd => exact execElementCycleEnd_power (ht := ht)
  | blockModeEntry => exact execBlockModeEntry_power (ht := ht)
  | blockModeReturn => exact execBlockModeReturn_power (ht := ht)
  | harmonicWindowEnd => exact execHarmonicWindowEnd_power (ht := ht)
  | temperatureBandSample => exact execTemperatureBandSample_power (ht := ht)
  | shadowCheckEnd => exact execShadowCheckEnd_power (ht := ht)
  | pulseDue => exact execPulseDue_power (ht := ht)
  | pulseOnTimeEnd => exact execPulseOnTimeEnd_power (ht := ht)
  | sliceEnd => exact execSliceEnd_power (ht := ht)
  | residueUpdate => exact execResidueUpdate_power (ht := ht)
  | periodicCommit => exact execPeriodicCommit_power (ht := ht)
  | metrologyRead => exact execMetrologyRead_power (ht := ht)
  | sealOpen => exact execSealOpen_power (ht := ht)
  | sealParameterWrite => exact execSealParameterWrite_power (ht := ht)
  | sealCloseCommit => exact execSealCloseCommit_power (ht := ht)
  | sealCloseAbandon => exact execSealCloseAbandon_power (ht := ht)
  | sealTimeout => exact execSealTimeout_power (ht := ht)
  | sealedLinkSend => exact execSealedLinkSend_power (ht := ht)
  | sealedObjectRead => exact execSealedObjectRead_power (ht := ht)
  | sealedObjectWrite => exact execSealedObjectWrite_power (ht := ht)
  | recordOpen => exact execRecordOpen_power (ht := ht)
  | recordClose => exact execRecordClose_power (ht := ht)
  | recordQuery => exact execRecordQuery_power (ht := ht)
  | recordSigned => exact execRecordSigned_power (ht := ht)
  | recordCollectionAck => exact execRecordCollectionAck_power (ht := ht)
  | sessionNoticePlug tag p handle => exact execSessionNoticePlug_power tag p handle s t ht
  | sessionNoticeAuthorise tag p handle serial => exact execSessionNoticeAuthorise_power tag p handle serial s t ht
  | sessionNoticeEnergyFlow tag p handle serial => exact execSessionNoticeEnergyFlow_power tag p handle serial s t ht
  | sessionNoticeStop tag p handle serial reason =>
    exact execSessionNoticeStop_power tag p handle serial reason s t ht
  | sessionNoticeMeteringConfirmation tag p handle serial reading sig =>
    exact execSessionNoticeMeteringConfirmation_power tag p handle serial reading sig s t ht
  | signedReading => exact execSignedReading_power (ht := ht)
  | purseQuery => exact execPurseQuery_power (ht := ht)
  | calendarWrite => exact execCalendarWrite_power (ht := ht)
  | calendarActivateSet => exact execCalendarActivateSet_power (ht := ht)
  | calendarActivation => exact execCalendarActivation_power (ht := ht)
  | ltSet => exact execLtSet_power (ht := ht)
  | offsetSet => exact execOffsetSet_power (ht := ht)
  | offsetChangeScheduled => exact execOffsetChangeScheduled_power (ht := ht)
  | tariffSwitch => exact execTariffSwitch_power (ht := ht)
  | demandIntervalEnd => exact execDemandIntervalEnd_power (ht := ht)
  | sealedDieStart => exact execSealedDieStart_power (ht := ht)
  | maxDemandReset => exact execMaxDemandReset_power (ht := ht)
  | tokenKeyChange => exact execTokenKeyChange_power (ht := ht)
  | legalLogArchive => exact execLegalLogArchive_power (ht := ht)
  | pendingCreditExpiry => exact execPendingCreditExpiry_power (ht := ht)
  | tokenLockoutEnd => exact execTokenLockoutEnd_power (ht := ht)
  | ledgerAgeOut => exact execLedgerAgeOut_power (ht := ht)
  | panelClearRequestRetry => exact execPanelClearRequestRetry_power (ht := ht)
  | blinkHalfPeriod => exact execBlinkHalfPeriod_power (ht := ht)
  | legalRegionRedraw => exact execLegalRegionRedraw_power (ht := ht)
  | sealBorderAdvance => exact execSealBorderAdvance_power (ht := ht)
  | legalRegionGeometryWrite => exact execLegalRegionGeometryWrite_power (ht := ht)
  | overlayWrite => exact execOverlayWrite_power (ht := ht)
  | overlayFill => exact execOverlayFill_power (ht := ht)
  | paletteWrite => exact execPaletteWrite_power (ht := ht)
  | blinkSet => exact execBlinkSet_power (ht := ht)
  | terminalObjectRead => exact execTerminalObjectRead_power (ht := ht)
  | panelStatusQuery => exact execPanelStatusQuery_power (ht := ht)
  | keyDigit => exact execKeyDigit_power (ht := ht)
  | keyAccept => exact execKeyAccept_power (ht := ht)
  | keyDelete => exact execKeyDelete_power (ht := ht)
  | keyCancel => exact execKeyCancel_power (ht := ht)
  | keyStop => exact execKeyStop_power (ht := ht)
  | keyStar => exact execKeyStar_power (ht := ht)
  | keypadEntryTimeout => exact execKeypadEntryTimeout_power (ht := ht)
  | safeMessageWindowExpiry => exact execSafeMessageWindowExpiry_power (ht := ht)
  | safeMessageTransmit => exact execSafeMessageTransmit_power (ht := ht)
  | safeMessageReadbackMissing => exact execSafeMessageReadbackMissing_power (ht := ht)
  | noteAck => exact execNoteAck_power (ht := ht)
  | unknownSafeMessage => exact execUnknownSafeMessage_power (ht := ht)
  | generate => exact execGenerate_power (ht := ht)
  | importKey => exact execImportKey_power (ht := ht)
  | derive => exact execDerive_power (ht := ht)
  | delete => exact execDelete_power (ht := ht)
  | publicKey => exact execPublicKey_power (ht := ht)
  | sign => exact execSign_power (ht := ht)
  | verify => exact execVerify_power (ht := ht)
  | agree => exact execAgree_power (ht := ht)
  | measure => exact execMeasure_power (ht := ht)
  | successor addr => exact execSuccessor_power addr s t ht
  | confirm => exact execConfirm_power (ht := ht)
  | random => exact execRandom_power (ht := ht)
  | fuse => exact execFuse_power (ht := ht)
  | decommission => exact execDecommission_power (ht := ht)
  | manifestAccept => exact execManifestAccept_power (ht := ht)
  | ldrTrialStart => exact execLdrTrialStart_power (ht := ht)
  | ldrTrialStop => exact execLdrTrialStop_power (ht := ht)
  | ethernetLinkChange => exact execEthernetLinkChange_power (ht := ht)
  | gpioEdge => exact execGpioEdge_power (ht := ht)
  | pllPRelock => exact execPllPRelock_power (ht := ht)
  | vanaRelease => exact execVanaRelease_power (ht := ht)
  | canErrorPassive => exact execCanErrorPassive_power (ht := ht)
  | appLaneEventFrame => exact execAppLaneEventFrame_power (ht := ht)
  | _ => nomatch hi

end Sys2Proof.Machine
end

section
/-!
SUPPORT. Proofs about the Harness and the performance counters (04 R79 to R84; 05 R118 to R120).
-/
set_option Elab.async false
namespace Sys2Proof.Machine

/-! ### The harness -/

/-- Requests that all lie at the target stay all, however the target filters them. -/
theorem filter_atTarget_of_all {g : Nat} {reqs : List BurstReq} (h : ∀ r ∈ reqs, BurstReq.atTarget g r = true) :
    reqs.filter (BurstReq.atTarget g) = reqs :=
  List.filter_eq_self.2 h

/-- A read of a target's longest wait clears it with its port, and touches no other target. -/
theorem waitMaxRead_hrn (g : Nat) (s : State) :
    (waitMaxRead g s).app.hrn = s.app.hrn.set g { s.app.hrn.get g with waitMax := 0, waitPort := 0 } := rfl

/-! ### The performance counters -/

/-- A counter whose chain ends with it and that passes its largest value reads the rest and sets OVF; with source 500
not latched no edge is merged, and so no counter counts. -/
theorem pmcAdd_overflow {n i k : Nat} {s : State} (hc : (s.app.pmc.cnt.get i + k) / 2 ^ 32 ≠ 0)
    (hchain : ¬ (i + 1 < 128 ∧ (s.app.pmc.sel.get (i + 1)).chain = true)) (hl : (s.app.bkl.src.get 500).latch = false) :
    (pmcAdd (n + 1) i k s).app.pmc.cnt.get i = (s.app.pmc.cnt.get i + k) % 2 ^ 32 ∧
      ((pmcAdd (n + 1) i k s).app.pmc.sel.get i).ovf = true := by
  have hc' : (s.app.pmc.cnt.get i + k) / 4294967296 ≠ 0 := hc
  have hchain' : (decide (i + 1 < 128) && (s.app.pmc.sel.get (i + 1)).chain) = false := by
    simpa using hchain
  simp [pmcAdd, hc', hchain', hl, State.updSrc]

/-- A counter of a chain that passes its largest value hands the carry to its successor, which takes it without
passing its own. -/
theorem pmcAdd_carry {n i k : Nat} {s : State} (hc : (s.app.pmc.cnt.get i + k) / 2 ^ 32 = 1)
    (hi : i + 1 < 128) (hchain : (s.app.pmc.sel.get (i + 1)).chain = true)
    (hnext : s.app.pmc.cnt.get (i + 1) + 1 < 2 ^ 32) :
    (pmcAdd (n + 2) i k s).app.pmc.cnt.get i = (s.app.pmc.cnt.get i + k) % 2 ^ 32 ∧
      (pmcAdd (n + 2) i k s).app.pmc.cnt.get (i + 1) = s.app.pmc.cnt.get (i + 1) + 1 := by
  have hq : (s.app.pmc.cnt.get (i + 1) + 1) / 4294967296 = 0 := by omega
  have hr : (s.app.pmc.cnt.get (i + 1) + 1) % 4294967296 = s.app.pmc.cnt.get (i + 1) + 1 := by omega
  have hc' : (s.app.pmc.cnt.get i + k) / 4294967296 = 1 := hc
  simp [pmcAdd, hc', hi, hchain, hq, hr, Bank.get_set]

/-- The counter passes its largest value by exactly the rest to it, which leaves 0 and a carry of 1. -/
theorem cnt_add_rest {c : Nat} (h : c < 2 ^ 32) : c + (2 ^ 32 - c) = 2 ^ 32 := by omega

/-- Settles O1: the arbiter's decision through `harnessPick`, and the counters through the two cases of a carry. -/
theorem harnessGrantsAndCounters : Obligations.HarnessGrantsAndCounters := by
  unfold Obligations.HarnessGrantsAndCounters
  refine ⟨?_, ?_, ?_, ?_, ?_, ?_, ?_, ?_, ?_, ?_⟩
  · intro g reqs e s
    obtain ⟨t, ht, hrn⟩ := burst_hrn g reqs e s
    refine ⟨t, ht, ?_⟩
    rw [hrn]
    exact ⟨harnessBurst_pick _ _ s, harnessBurst_other _ _ s⟩
  · rintro g reqs e s ⟨r, hr, hat, hsafe, htest, helig⟩
    obtain ⟨t, ht, hrn⟩ := burst_hrn g reqs e s
    refine ⟨t, ht, ?_⟩
    rw [hrn]
    exact harnessBurst_safe _ _ s ⟨r, List.mem_filter.2 ⟨hr, hat⟩, hsafe, htest, helig⟩
  · rintro g reqs e s ⟨hne, hall⟩
    obtain ⟨t, ht, hrn⟩ := burst_hrn g reqs e s
    refine ⟨t, ht, ?_⟩
    rw [hrn, filter_atTarget_of_all fun r hr => (hall r hr).1]
    exact harnessBurst_main _ _ s ⟨hne, fun r hr => (hall r hr).2⟩
  · intro g s
    refine ⟨_, rfl, rfl, rfl, ?_⟩
    rw [waitMaxRead_hrn]
    exact ⟨by simp, by simp, fun u hu => Bank.get_set_other _ _ (Ne.symm hu)⟩
  · intro i v s h
    exact ⟨_, rfl, by simp [pmcSelect, h]⟩
  · intro i v s h
    exact ⟨_, rfl, by simp [pmcSelect, h]⟩
  · intro v s h
    refine ⟨_, exec_pmcSnapshot v s, ?_⟩
    rw [pmcSnapshot_of_take h]
    exact ⟨rfl, rfl, rfl⟩
  · rintro i s ⟨hcnt, hend, hlatch⟩
    have hsum := cnt_add_rest hcnt
    have hchain : ¬ (i.val + 1 < 128 ∧ (s.app.pmc.sel.get (i.val + 1)).chain = true) := by
      rintro ⟨hi, hc⟩
      rcases hend with h | h
      · omega
      · simp [h] at hc
    obtain ⟨n, hn⟩ : ∃ n, 256 - i.val = n + 1 := ⟨255 - i.val, by omega⟩
    obtain ⟨hzero, hovf⟩ := pmcAdd_overflow (n := n) (by rw [hsum]; decide) hchain hlatch
    rw [hsum] at hzero
    refine ⟨_, rfl, ?_⟩
    rw [hn]
    exact ⟨hzero, hovf⟩
  · rintro i s ⟨hcnt, hi, hchain, hnext⟩
    have hsum := cnt_add_rest hcnt
    obtain ⟨n, hn⟩ : ∃ n, 256 - i.val = n + 2 := ⟨254 - i.val, by omega⟩
    obtain ⟨hzero, hcarry⟩ := pmcAdd_carry (n := n)
      ((congrArg (· / 2 ^ 32) hsum).trans (Nat.div_self (by decide))) (by omega) hchain
      (Nat.add_lt_of_lt_sub hnext)
    rw [hsum] at hzero
    refine ⟨_, rfl, ?_⟩
    rw [hn]
    exact ⟨hzero, hcarry⟩
  · intro v s h
    exact ⟨_, exec_pmcSnapshot v s, pmcSnapshot_of_not_take h s⟩

end Sys2Proof.Machine
end

section
/-!
SUPPORT. Proofs about Girth's settings, admission and grants (04 R85 to R94).
-/
set_option Elab.async false
namespace Sys2Proof.Machine

/-! ### Settings -/

/-- A sample sets the dissipation total to 270 less the step for each whole degree above the threshold, whether or not
the change is signalled. -/
theorem girthDerate_girth (k : Int) (s : State) :
    (girthDerate k s).app.girth.dissEff = 270 - s.cold.derateStep * (k - (s.cold.derateT : Int)).toNat ∧
      (girthDerate k s).app.girth.grants = s.app.girth.grants := by
  unfold girthDerate
  dsimp only
  split
  · exact ⟨rfl, rfl⟩
  · simp

/-- Settles O3: the settings field by field; the rebuild appends one standing grant for each unit that is on. -/
theorem girthSettings : Obligations.GirthSettings := by
  unfold Obligations.GirthSettings
  refine ⟨?_, ?_, ?_, ?_, ?_, ?_, ?_⟩
  · exact fun k s => ⟨_, rfl, girthDerate_girth k s⟩
  · rintro c v s ⟨hlock, hover⟩
    exact ⟨_, rfl, by simp_all [girthShareWrite]⟩
  · rintro c v s ⟨hlock, hfits⟩
    exact ⟨_, rfl, by simp_all [girthShareWrite]⟩
  · intro c v s hlock
    exact ⟨_, rfl, by simp [girthShareWrite, hlock]⟩
  · rintro s ⟨hreb, hrun⟩
    refine ⟨_, rfl, ?_⟩
    simp only [girthRebuild, hreb, hrun, Bool.not_true, Bool.or_false, Bool.false_eq_true, if_false, true_and, and_true]
    intro x hx
    exact ⟨_, List.mem_append_right _ (List.mem_map_of_mem hx), rfl, rfl, rfl⟩
  · intro s
    exact ⟨_, rfl, by simp [girthBypassRead, busOk]⟩
  · intro s h
    exact ⟨_, rfl, by simp [girthRebuild, h]⟩

/-! ### Admission -/

/-- The shape a request must have: no reserved kind, a unit in range, and a hold the kind allows. -/
def girthShaped (s : State) (kind unit hold : Nat) : Prop :=
  kind ≤ 10 ∧ unit < girthUnits kind ∧ hold ≤ (s.girthKind kind).maxHold

/-- A request out of shape is RANGE and is not kept. -/
theorem girthAccept_of_not_shaped {port kind unit hold : Nat} {ctx : Option Nat} {s : State}
    (hreb : s.app.girth.rebuilding = false)
    (h : 10 < kind ∨ girthUnits kind ≤ unit ∨ (s.girthKind kind).maxHold < hold) :
    girthAccept port ctx kind unit hold s = (.range, s, none) := by
  have hbad : (decide (10 < kind) || decide (girthUnits kind ≤ unit) ||
      decide ((s.girthKind kind).maxHold < hold)) = true := by
    simpa [or_assoc] using h
  simp only [girthAccept, hreb, hbad, Bool.false_eq_true, if_false, if_true]

/-- Past the check of its shape a request meets the checks of its unit: an absent one is ABSENT, one on, granted or
queued is STATE, and neither is kept. -/
theorem girthAccept_of_shaped {port kind unit hold : Nat} {ctx : Option Nat} {s : State}
    (hreb : s.app.girth.rebuilding = false) (h : girthShaped s kind unit hold) :
    (s.unitAbsent kind unit = true → girthAccept port ctx kind unit hold s = (.absent, s, none)) ∧
      (s.unitAbsent kind unit = false → s.unitTaken kind unit = true →
        girthAccept port ctx kind unit hold s = (.state, s, none)) := by
  obtain ⟨hkind, hunit, hhold⟩ := h
  have hgood : (decide (10 < kind) || decide (girthUnits kind ≤ unit) ||
      decide ((s.girthKind kind).maxHold < hold)) = false := by
    simp [hkind, hunit, hhold]
  constructor
  · intro habs
    simp only [girthAccept, hreb, hgood, habs, Bool.false_eq_true, if_false, if_true]
  · intro habs htaken
    simp only [girthAccept, hreb, hgood, habs, htaken, Bool.false_eq_true, if_false, if_true]

/-- A refused request leaves the queues, and its port reads the status with ticket 0. -/
theorem girthSubmit_refused {port kind unit hold : Nat} {ctx : Option Nat} {s : State} {c : Status}
    (hbusy : c ≠ .busy) (h : girthAccept port ctx kind unit hold s = (c, s, none)) :
    let t := (girthSubmit port ctx kind unit hold s).2
    (t.app.girth.ports.get port).status = statusCode c ∧ (t.app.girth.ports.get port).ticket = 0 ∧
      t.app.girth.queue = s.app.girth.queue := by
  simp [girthSubmit, h, hbusy]

/-- An accepted request is the last of its class queue, and is the request that was asked for. -/
theorem girthAccept_ok {port kind unit hold : Nat} {ctx : Option Nat} {s : State} {r : GirthReq}
    (hok : (girthAccept port ctx kind unit hold s).1 = .ok)
    (hr : (girthAccept port ctx kind unit hold s).2.2 = some r) :
    (girthAccept port ctx kind unit hold s).2.1.app.girth.queue.get (s.girthKind kind).cls =
        s.app.girth.queue.get (s.girthKind kind).cls ++ [r] ∧
      r.kind = kind ∧ r.unit = unit ∧ r.port = port := by
  revert hok hr
  simp only [girthAccept]
  repeat' split
  all_goals simp only [reduceCtorEq, false_implies, Option.some.injEq, forall_const]
  all_goals
    rintro rfl
    exact ⟨by simp, rfl, rfl, rfl⟩

/-- The port of an accepted request reads OK and the ticket, in state queued; the queues are those of the
acceptance. -/
theorem girthSubmit_ok {port kind unit hold : Nat} {ctx : Option Nat} {s : State} {r : GirthReq}
    (hok : (girthAccept port ctx kind unit hold s).1 = .ok)
    (hr : (girthAccept port ctx kind unit hold s).2.2 = some r) :
    let t := (girthSubmit port ctx kind unit hold s).2
    (t.app.girth.ports.get port).status = statusCode .ok ∧ (t.app.girth.ports.get port).state = 1 ∧
      (t.app.girth.ports.get port).ticket = r.ticket ∧
      t.app.girth.queue = (girthAccept port ctx kind unit hold s).2.1.app.girth.queue := by
  simp [girthSubmit, hok, hr]

/-! ### Grants -/

/-- A grant is due for the oldest request once it fits, or at its predicted time within the hard limits. -/
def girthDue (s : State) (r : GirthReq) : Prop :=
  s.fitsNow s.app.girth.dissEff r = true ∨ (r.pred ≤ s.ht ∧ s.hardCap r.kind = true)

/-- A grant that is due takes the oldest request off its queue and grants it. -/
theorem girthGrant_of_due {c : Nat} {r : GirthReq} {q : List GirthReq} {s : State}
    (hq : s.app.girth.queue.get c = r :: q) (h : girthDue s r) :
    girthGrant c s = girthGrantReq r { s with app.girth.queue := s.app.girth.queue.set c q } := by
  have hdue : (s.fitsNow s.app.girth.dissEff r || (decide (r.pred ≤ s.ht) && s.hardCap r.kind)) = true := by
    simpa [girthDue] using h
  simp only [girthGrant, hq, hdue, if_true]

/-- A grant that is not due, for the oldest request, changes nothing. -/
theorem girthGrant_of_not_due {c : Nat} {r : GirthReq} {q : List GirthReq} {s : State}
    (hq : s.app.girth.queue.get c = r :: q) (h : ¬ girthDue s r) : girthGrant c s = s := by
  have hdue : (s.fitsNow s.app.girth.dissEff r || (decide (r.pred ≤ s.ht) && s.hardCap r.kind)) = false := by
    simpa [girthDue] using h
  simp only [girthGrant, hq, hdue, Bool.false_eq_true, if_false]

/-- A kind whose start takes no command of the power die and no panel is granted on the spot: the grant is in force
with its hold running, and the port of its ticket reads granted. -/
theorem girthGrantReq_immediate {r : GirthReq} {s : State} (hsend : sendsOn r.kind = false) (hkind : r.kind ≠ 6)
    (hgone : r.gone = false) (hport : r.port < 24) :
    (girthGrantReq r s).app.girth.queue = s.app.girth.queue ∧
      (∃ g ∈ (girthGrantReq r s).app.girth.grants,
        g.ticket = r.ticket ∧ g.kind = r.kind ∧ g.unit = r.unit ∧ g.holdEnd = s.ht + r.hold * 1000000) ∧
      (r.ticket ≠ 0 → (s.app.girth.ports.get r.port).ticket = r.ticket →
        ((girthGrantReq r s).app.girth.ports.get r.port).state = 2) := by
  have hown : r.port ≠ restartPort := by simp only [restartPort]; omega
  simp only [girthGrantReq, girthStart, girthMark, girthSignal_girth', hsend, hgone, hown, hkind, if_false,
    Bool.and_false, Bool.false_eq_true, Bool.false_and, decide_false, countEvents_same, Bank.get_upd_same]
  refine ⟨trivial, ⟨_, List.mem_append_right _ (List.mem_singleton.2 rfl), rfl, rfl, rfl, rfl⟩, fun ht hp => ?_⟩
  simp [ht, hp]

/-! ### Ends -/

/-- Ending the standing or transient part of the grants that `f` picks leaves no such part with the picked ones, keeps
the other grants in force, and touches no queue. -/
theorem girthEnd_hold {k : Nat} (hk : k ≠ 0) (s : State) :
    let t := girthEnd (fun g => g.ticket = k && k ≠ 0) true s
    (∀ g ∈ t.app.girth.grants, g.ticket = k → g.tIn = false) ∧
      (∀ g ∈ s.app.girth.grants, g.ticket ≠ k → (g.tIn = true ∨ g.sIn = true) → g ∈ t.app.girth.grants) ∧
      t.app.girth.queue = s.app.girth.queue := by
  refine ⟨fun g hg he => ?_, fun g hg hne hin => girthEnd_keep _ _ _ _ hg (by simp [hne]) hin, girthEnd_queue _ _ _⟩
  simpa using girthEnd_off _ true _ g hg (by simp [he, hk])

/-- A unit that is off keeps no standing part of its grants. -/
theorem girthUnitOff_parts (k u : Nat) (s : State) :
    (∀ g ∈ (girthUnitOff k u s).app.girth.grants, g.kind = k → g.unit = u → g.sIn = false) ∧
      (∀ g ∈ s.app.girth.grants, (g.kind ≠ k ∨ g.unit ≠ u) → (g.tIn = true ∨ g.sIn = true) →
        g ∈ (girthUnitOff k u s).app.girth.grants) ∧
      (girthUnitOff k u s).app.girth.queue = s.app.girth.queue := by
  refine ⟨fun g hg hkind hunit => ?_, fun g hg hne hin => girthEnd_keep _ _ _ _ hg ?_ hin, girthEnd_queue _ _ _⟩
  · simpa using girthEnd_off _ false _ g hg (by simp [hkind, hunit])
  · rcases hne with h | h <;> simp [h]

/-- Settles O2: the refusals and the acceptance from the cases of `girthAccept`, the grants from the two cases of
`girthGrant`, the ends from what `girthEnd` leaves. -/
theorem girthAdmissionAndGrants : Obligations.GirthAdmissionAndGrants := by
  unfold Obligations.GirthAdmissionAndGrants
  refine ⟨?_, ?_, ?_, ?_, ?_, ?_, ?_, ?_, ?_, ?_, ?_, ?_, ?_⟩
  · intro p v s hreb
    refine ⟨_, rfl, ?_⟩
    have hacc : girthAccept p (s.runningSlot p) (fld v 28 4) (fld v 16 8) (fld v 0 16) s = (.busy, s, none) := by
      simp only [girthAccept, hreb, if_true]
    simp [girthReqWrite, girthSubmit, hacc]
  · rintro p v s ⟨hreb, hbad⟩
    exact ⟨_, rfl, girthSubmit_refused (by decide) (girthAccept_of_not_shaped hreb hbad)⟩
  · rintro p v s ⟨hreb, hkind, hunit, hhold, habs⟩
    exact ⟨_, rfl, girthSubmit_refused (by decide) ((girthAccept_of_shaped hreb ⟨hkind, hunit, hhold⟩).1 habs)⟩
  · rintro p v s ⟨hreb, hkind, hunit, hhold, habs, htaken⟩
    exact ⟨_, rfl, girthSubmit_refused (by decide) ((girthAccept_of_shaped hreb ⟨hkind, hunit, hhold⟩).2 habs htaken)⟩
  · rintro p v r s ⟨hok, hr⟩
    obtain ⟨hstatus, hstate, hticket, hqueue⟩ := girthSubmit_ok hok hr
    obtain ⟨hlast, hreq⟩ := girthAccept_ok hok hr
    exact ⟨_, rfl, hstatus, hstate, hticket, (congrArg (Bank.get · _) hqueue).trans hlast, hreq⟩
  · rintro c r q s ⟨hq, hdue, hsend, hkind, hgone, hport⟩
    obtain ⟨hqueue, hgrant, hstate⟩ := girthGrantReq_immediate
      (s := { s with app.girth.queue := s.app.girth.queue.set c q }) hsend hkind hgone hport
    refine ⟨_, congrArg Host.Outcome.next (girthGrant_of_due hq hdue), ?_, hgrant, hstate⟩
    rw [hqueue, Bank.get_set_same]
  · exact fun p v s h => girthRelease_all p v s h
  · intro k s hk
    have hne : k.toNat ≠ 0 := fun h0 => hk (BitVec.eq_of_toNat_eq h0)
    exact ⟨_, rfl, girthEnd_hold hne s⟩
  · rintro c r q s ⟨hq, hdue⟩
    exact ⟨_, rfl, girthGrant_of_due hq hdue⟩
  · intro k u s hoff
    refine ⟨_, rfl, ?_⟩
    simp only [hoff, Bool.false_eq_true, if_false]
    exact girthUnitOff_parts k u s
  · intro k u s hon
    exact ⟨_, rfl, if_pos hon⟩
  · intro c s hq
    exact ⟨_, rfl, by simp [girthGrant, hq]⟩
  · rintro c r q s ⟨hq, hfits, hlate⟩
    refine ⟨_, rfl, girthGrant_of_not_due hq ?_⟩
    rintro (h | ⟨hpred, hcap⟩)
    · simp [hfits] at h
    · rcases hlate with h | h
      · omega
      · simp [hcap] at h

end Sys2Proof.Machine
end

section
/-!
SUPPORT. Proofs about the Buckle's sources (05 R106 to R114) and the mailboxes (05 R115 to R117).
-/
set_option Elab.async false
namespace Sys2Proof.Machine

/-! ### Claims and completions -/

/-- A claim in native mode returns the eligible source and takes it into service, its latch cleared. -/
theorem claimSource_sets {n : Nat} (hn : n ≠ 500) (s : State) :
    ((claimSource n s).app.bkl.src.get n).insvc = true ∧ ((claimSource n s).app.bkl.src.get n).latch = false := by
  simp [claimSource, countEvents_src _ _ _ _ _ hn]

/-- A claim where nothing can be claimed returns 0 and leaves the Buckle. -/
theorem bklClaim_none {g : Nat} {s : State} (h : 10 ≤ g ∨ s.app.bkl.kx = true ∨ s.claimable g = 0) :
    bklClaim g s = busOk 0 s := by
  rcases h with h | h | h <;> simp [bklClaim, h]

/-- A completion of the target's own source in service, in native mode, is the completion of that source. -/
theorem completeSource_in_service {g n : Nat} {s : State} (hin : (s.app.bkl.src.get n).insvc = true)
    (hown : (s.app.bkl.src.get n).target = g) :
    ((completeSource g n s).app.bkl.src.get n).insvc = false ∧
      ∀ m, m ≠ n → (completeSource g n s).app.bkl.src.get m = s.app.bkl.src.get m := by
  simp only [completeSource, hin, hown, decide_true, Bool.and_self, if_true, updSrc_get]
  exact ⟨trivial, fun m hm => if_neg (Ne.symm hm)⟩

/-- Any other completion does nothing. -/
theorem bklComplete_other {g : Nat} {v : Word} {s : State} (h : 10 ≤ g ∨ s.app.bkl.kx = true ∨
    (s.app.bkl.src.get (fld v 0 9)).insvc = false ∨ (s.app.bkl.src.get (fld v 0 9)).target ≠ g) :
    bklComplete g v s = s := by
  rcases h with h | h | h | h <;> simp [bklComplete, completeSource, h]

/-! ### Edges and levels -/

/-- An edge latches an edge source outside reset while the clock runs, and says so where it was latched already; only
source 500, which the counted merge may itself set, is left out. -/
theorem raise_src {n : Nat} {s : State} (hres : isReserved n = false) (hlev : isLevel n = false)
    (hrst : s.inReset = false) (hclk : s.gated = false) (hn : (s.app.bkl.src.get n).latch = false ∨ n ≠ 500) :
    (raise n s).app.bkl.src.get n = edgeLatch false (s.app.bkl.src.get n) := by
  have hraise : raise n s = if (s.app.bkl.src.get n).latch then countEvents 5 1 1 (s.updSrc n (edgeLatch false))
      else s.updSrc n (edgeLatch false) := by
    simp [raise, hres, hlev, hrst, hclk]
  rw [hraise]
  rcases hn with h | h
  · simp [h]
  · split <;> simp [countEvents_src _ _ _ _ _ h]

/-- A level source follows its level, and no other source moves. -/
theorem setLevel_src {n : Nat} (b : Bool) {s : State} (hres : isReserved n = false) (hlev : isLevel n = true) :
    ((setLevel n b s).app.bkl.src.get n).lvl = b ∧
      ∀ k, k ≠ n → (setLevel n b s).app.bkl.src.get k = s.app.bkl.src.get k := by
  simp only [setLevel, hres, hlev, Bool.not_true, Bool.or_false, Bool.false_eq_true, if_false, updSrc_get, if_true]
  exact ⟨trivial, fun k hk => if_neg (Ne.symm hk)⟩

/-! ### The sleep latches -/

/-- With the clock stopped and source `n` captured, every core that a captured source with WAKE targets wakes. -/
theorem sleepWake_of_captured {n : Nat} {s : State} (hclk : s.gated = true) (hn : s.waking.contains n = true) :
    (∀ m ∈ s.waking, (s.app.bkl.src.get m).target < 10 →
        ((sleepWake n s).app.harts.get (targetHart (s.app.bkl.src.get m).target)).wfi = false) ∧
      (sleepWake n s).app.mbx = s.app.mbx ∧ (sleepWake n s).power = s.power := by
  have hrun : sleepWake n s = s.waking.foldl (fun t m => wakeTarget (s.app.bkl.src.get m).target t)
      (transferSleep (countEvents 5 2 s.waking.length s)) := by
    simp only [sleepWake, hclk, hn, Bool.and_self, if_true]
  obtain ⟨hmbx, hpower⟩ := wake_rest s s.waking (transferSleep (countEvents 5 2 s.waking.length s))
  obtain ⟨hmbx', -⟩ := transfer_rest (countEvents 5 2 s.waking.length s)
  rw [hrun]
  exact ⟨wake_all s _ _, by simp [hmbx, hmbx'], by simp [hpower]⟩

/-- Settles O4: the laws of claims, completions, edges, levels and clears, and the registers of the KX7064 interface. -/
theorem buckleSources : Obligations.BuckleSources := by
  unfold Obligations.BuckleSources
  refine ⟨?_, ?_, ?_, ?_, ?_, ?_, ?_, ?_, ?_, ?_, ?_, ?_, ?_, ?_, ?_, ?_, ?_, ?_, ?_⟩
  · rintro g s ⟨hg, hkx, hsome, hn⟩
    refine ⟨_, rfl, ?_⟩
    have hclaim : bklClaim g s = busOk (BitVec.ofNat 32 (s.claimable g)) (claimSource (s.claimable g) s) := by
      simp [bklClaim, hkx, hsome, Nat.not_le.2 hg]
    rw [hclaim]
    exact ⟨rfl, claimSource_sets hn s⟩
  · intro g s h
    refine ⟨_, rfl, ?_⟩
    rw [bklClaim_none h]
    exact ⟨rfl, rfl⟩
  · rintro g v s ⟨hg, hkx, hin, hown⟩
    refine ⟨_, rfl, ?_⟩
    have hcomp : bklComplete g v s = completeSource g (fld v 0 9) s := by
      simp [bklComplete, hkx, Nat.not_le.2 hg]
    rw [hcomp]
    exact completeSource_in_service hin hown
  · rintro n s ⟨hres, hlev, hrst, hclk, hfree⟩
    refine ⟨_, rfl, ?_⟩
    rw [raise_src hres hlev hrst hclk (.inl hfree)]
    simp [edgeLatch, hfree]
  · rintro n s ⟨hres, hlev, hrst, hclk, hset, hn⟩
    refine ⟨_, rfl, ?_⟩
    rw [raise_src hres hlev hrst hclk (.inr hn)]
    simp [edgeLatch, hset]
  · rintro n b s ⟨hres, hlev⟩
    exact ⟨_, rfl, setLevel_src b hres hlev⟩
  · intro k v s
    exact ⟨_, rfl, clearLatches_clears k v s, clearLatches_insvc k v s⟩
  · exact fun v s h => swset_all v s h
  · intro g v s h
    exact ⟨_, rfl, bklComplete_other h⟩
  · rintro v s ⟨hlock, hidle⟩
    exact ⟨_, rfl, by simp_all [bklCfgWrite]⟩
  · rintro v s ⟨hlock, hbusy, hmode⟩
    exact ⟨_, rfl, by simp [bklCfgWrite, hlock, hbusy, hmode]⟩
  · intro g s h
    refine ⟨_, rfl, ?_⟩
    by_cases hnext : s.kxNext g = 0 <;> simp [bklVec, busOk, h, hnext]
  · intro p k s
    refine ⟨_, rfl, ?_⟩
    cases hkx : s.app.bkl.kx <;> simp [bklPendRead, busOk, hkx]
  · rintro p k v s ⟨hkx, hguard⟩
    exact ⟨_, rfl, by simp [bklPendWrite, hkx, hguard]⟩
  · rintro p k v s ⟨hkx, hguard⟩
    have hall : ~~~v &&& 0xFFFFFFFF#32 = ~~~v := BitVec.and_allOnes
    exact ⟨_, rfl, by simp only [bklPendWrite, hkx, hguard, hall, Bool.not_true, Bool.false_eq_true, if_false]⟩
  · rintro n s ⟨hclk, hn⟩
    exact ⟨_, rfl, sleepWake_of_captured hclk hn⟩
  · intro n s h
    exact ⟨_, rfl, by simp [sleepWake, h]⟩
  · intro p k v s h
    exact ⟨_, rfl, by simp [bklPendWrite, h]⟩
  · intro g s h
    exact ⟨_, rfl, by simp [bklVec, h]⟩

/-! ### Mailboxes -/

/-- Settles O5: each clause runs one register operation on one mailbox. -/
theorem mailboxes : Obligations.Mailboxes := by
  unfold Obligations.Mailboxes
  refine ⟨?_, ?_, ?_, ?_, ?_, ?_, ?_, ?_, ?_, ?_, ?_, ?_, ?_, ?_, ?_, ?_, ?_, ?_⟩
  · rintro p m v s ⟨hw, hroom⟩
    refine ⟨_, rfl, ?_⟩
    simp [pairWrite, hw, pairPut, Nat.not_le.2 hroom, busOk, State.updPair, wrap16]
  · intro p m v s h
    exact ⟨_, rfl, by simp_all [pairWrite, State.pairWriter, busFail, State.updPair, pairPut]⟩
  · intro p m g r s h
    exact ⟨_, rfl, by simp [pairRead, busOk, State.updPair, h]⟩
  · rintro p m s ⟨hfree, hroom⟩
    refine ⟨_, rfl, ?_⟩
    simp [hubAcquire, hfree, Nat.not_le.2 hroom, busOk, State.updHub]
  · intro p m q s h
    exact ⟨_, rfl, by simp [hubAcquire, busOk, h]⟩
  · intro p m v s h
    exact ⟨_, rfl, by simp [hubWrite, busOk, State.updHub, h]⟩
  · intro p m s h
    exact ⟨_, rfl, by simp [hubRelease, State.updHub, h]⟩
  · intro m q s h
    exact ⟨_, rfl, by simp [keeperTimeout, State.updHub, h]⟩
  · intro p m g r s h
    exact ⟨_, rfl, by simp [hubRead, busOk, State.updHub, h]⟩
  · intro p m s h
    exact ⟨_, rfl, by simp [hubRead, busOk, Ne.symm h]⟩
  · intro s
    exact ⟨_, rfl, by simp [mbxCtrlRead, busOk]⟩
  · intro p m v s h
    exact ⟨_, rfl, by simp [pairWrite, h]⟩
  · intro p m s h
    exact ⟨_, rfl, by simp [pairRead, h]⟩
  · intro p m s h
    exact ⟨_, rfl, by simp [hubAcquire, h]⟩
  · intro p m s h
    exact ⟨_, rfl, by simp [hubAcquire, h]⟩
  · intro p m v s h
    exact ⟨_, rfl, by simp [hubWrite, h]⟩
  · intro p m s h
    exact ⟨_, rfl, by simp [hubRelease, h]⟩
  · intro m s h
    exact ⟨_, rfl, by simp [keeperTimeout, h]⟩

end Sys2Proof.Machine
end

section
/-!
SUPPORT. Proofs about the output channels (14 R343 to R357).
-/
set_option Elab.async false
namespace Sys2Proof.Machine

/-! ### Laws of the output channels -/

/-- An event bit leaves the event's channel in its state, with its test results and its restarts. -/
@[simp] theorem outEvt_out_fields (x i : Nat) (s : State) (y : Nat) :
    ((outEvt x i s).out y).st = (s.out y).st ∧ ((outEvt x i s).out y).cause = (s.out y).cause ∧
      ((outEvt x i s).out y).hot = (s.out y).hot ∧ ((outEvt x i s).out y).cfg = (s.out y).cfg ∧
      ((outEvt x i s).out y).pulling = (s.out y).pulling ∧ ((outEvt x i s).out y).tpRes = (s.out y).tpRes ∧
      ((outEvt x i s).out y).vtp = (s.out y).vtp ∧ ((outEvt x i s).out y).warn = (s.out y).warn := by
  rw [outEvt_out]
  split <;> simp

/-- Setting a bit of an event register sets it. -/
theorem bit_setEvt (w : Word) {i : Nat} (h : i < 32) : bit (setEvt w i) i = true := by
  simp [bit, setEvt, h]

/-- The event bit is set afterwards, whether it was set before or not. -/
theorem bit_outEvt (x : Nat) {i : Nat} (h : i < 32) (s : State) : bit ((outEvt x i s).out x).evt i = true := by
  rw [outEvt_out]
  cases hb : bit (s.out x).evt i
  · simp [bit_setEvt, h]
  · simp [hb]

/-- Latching a channel gives it the state and the cause. -/
theorem outLatch_out (x cause : Nat) (s : State) :
    ((outLatch x cause s).out x).st = .latched ∧ ((outLatch x cause s).out x).cause = cause ∧
      ((outLatch x cause s).out x).hot = (s.out x).hot := by
  simp [outLatch, outTo_out]

/-- The end of a Girth grant leaves every channel. -/
@[simp] theorem girthUnitOff_out (k u : Nat) (s : State) (x : Nat) : (girthUnitOff k u s).out x = s.out x :=
  girthEnd_out _ _ s x

/-- The same for its transient part. -/
@[simp] theorem girthTransientEnd_out (k u : Nat) (s : State) (x : Nat) : (girthTransientEnd k u s).out x = s.out x :=
  girthEnd_out _ _ s x

/-! ### Commands of the firmware -/

/-- A command to a channel of a point that was not reclaimed does nothing. -/
theorem outFirmware_of_blocked {x : Nat} {s : State} (f : State → State) (h : s.outBlocked x = true) :
    outFirmware x f s = s := if_pos h

/-- Any other command has its effect. -/
theorem outFirmware_of_free {x : Nat} {s : State} (f : State → State) (h : s.outBlocked x = false) :
    outFirmware x f s = f s := by simp [outFirmware, h]

/-- Switching off takes a channel that is on or waits to OFF, no restart of it stays queued, and no other channel
moves. -/
theorem outSwitchOff_on {x : Nat} {s : State} (h : outIsOn (s.out x) = true ∨ (s.out x).st = .thermWait) :
    ((outSwitchOff x s).out x).st = .off ∧ ((outSwitchOff x s).out x).restartQ = false ∧
      ∀ y, y ≠ x → (outSwitchOff x s).out y = s.out y := by
  have hgo : outSwitchOff x s = outTo x .off s := by
    simp only [outSwitchOff, Bool.or_eq_true, decide_eq_true_eq, h, if_true]
  rw [hgo]
  exact ⟨by simp [outTo_out], by simp [outTo_out], fun y hy => by simp [outTo_out, Ne.symm hy]⟩

/-- A channel that is neither on nor waiting is left. -/
theorem outSwitchOff_off {x : Nat} {s : State} (hon : outIsOn (s.out x) = false) (hw : (s.out x).st ≠ .thermWait) :
    outSwitchOff x s = s := by
  simp [outSwitchOff, hon, hw]

/-- A cool latched channel is cleared. -/
theorem outClear_cool {x : Nat} {s : State} (hl : (s.out x).st = .latched) (hc : (s.out x).hot = false) :
    outClear x s = s.updOut x fun o => { o with st := .off, retries := 0, restartAt := [], cause := 0 } := by
  simp [outClear, hl, hc]

/-- Of any other channel the clear is ignored, which is its event. -/
theorem outClear_ignored {x : Nat} {s : State} (h : ¬ ((s.out x).st = .latched ∧ (s.out x).hot = false)) :
    outClear x s = outEvt x 11 s := by
  unfold outClear
  dsimp only
  rw [if_neg (by simpa using h)]

/-! ### Restarts -/

/-- A waiting channel with no request queued, at its last retry, is latched with cause 2. -/
theorem outRestartDue_last {x : Nat} {s : State} (hw : (s.out x).st = .thermWait) (hq : (s.out x).restartQ = false)
    (hc : (s.out x).hot = false) (hr : s.power.retryMax ≤ (s.out x).retries) : outRestartDue x s = outLatch x 2 s := by
  simp [outRestartDue, hw, hq, hc, hr]

/-- Before its last retry it asks Girth. -/
theorem outRestartDue_asks {x : Nat} {s : State} (hw : (s.out x).st = .thermWait) (hq : (s.out x).restartQ = false)
    (hc : (s.out x).hot = false) (hr : (s.out x).retries < s.power.retryMax) : outRestartDue x s = outRestart x s := by
  simp [outRestartDue, hw, hq, hc, Nat.not_le.2 hr]

/-- A refusal other than BUSY latches the channel with cause 3. -/
theorem outRestart_refused {x : Nat} {s : State}
    (hok : (girthAccept restartPort none (outGirthKind x) (outUnit x) 0 s).1 ≠ .ok)
    (hbusy : (girthAccept restartPort none (outGirthKind x) (outUnit x) 0 s).1 ≠ .busy) :
    outRestart x s = outLatch x 3 s := by
  unfold outRestart
  split
  · next heq => simp [heq] at hok
  · next heq => simp [heq] at hbusy
  · rfl

/-- An accepted request is remembered at the channel. -/
theorem outRestart_ok {x : Nat} {s : State}
    (hok : (girthAccept restartPort none (outGirthKind x) (outUnit x) 0 s).1 = .ok) :
    outRestart x s = (girthAccept restartPort none (outGirthKind x) (outUnit x) 0 s).2.1.updOut x
      fun o => { o with restartQ := true } := by
  unfold outRestart
  split
  · next heq => simp [heq]
  · next heq => simp [heq] at hok
  · next hno _ => exact (hno _ _ (Prod.ext hok rfl)).elim

/-- Settles O6: the commands of the firmware through `outFirmware`, the power die's own events through the laws of one
channel, the restarts through Girth's answer. -/
theorem outputsAndRestarts : Obligations.OutputsAndRestarts := by
  unfold Obligations.OutputsAndRestarts
  refine ⟨?_, ?_, ?_, ?_, ?_, ?_, ?_, ?_, ?_, ?_, ?_, ?_, ?_, ?_, ?_, ?_, ?_, ?_, ?_, ?_, ?_, ?_⟩
  · rintro x s ⟨hlane, hclk, hfree, hon⟩
    refine ⟨_, rfl, ?_⟩
    rw [powerWrite_ok _ s hlane hclk, outCmdOff, outFirmware_of_free _ hfree]
    simpa using outSwitchOff_on hon
  · rintro x s ⟨hlane, hclk, hfree, hl, hc⟩
    refine ⟨_, rfl, ?_⟩
    rw [powerWrite_ok _ s hlane hclk, outCmdClear, outFirmware_of_free _ hfree, outClear_cool hl hc]
    simp only [busOk_out, out_updOut_same, true_and]
    exact fun y hy => by simp [out_updOut, Ne.symm hy]
  · rintro x s ⟨hlane, hclk, hfree, hno⟩
    refine ⟨_, rfl, ?_⟩
    rw [powerWrite_ok _ s hlane hclk, outCmdClear, outFirmware_of_free _ hfree, outClear_ignored hno]
    simp [bit_outEvt]
  · rintro x s ⟨hlane, hclk, hno⟩
    refine ⟨_, rfl, fun y => ?_⟩
    rw [powerWrite_ok _ s hlane hclk, outCmdOff, busOk_out]
    rcases hno with hb | ⟨hon, hw⟩
    · rw [outFirmware_of_blocked _ hb]
    · rw [outFirmware, outSwitchOff_off hon hw, ite_self]
  · rintro x s ⟨hlane, hclk, hb⟩
    refine ⟨_, rfl, fun y => ?_⟩
    rw [powerWrite_ok _ s hlane hclk, outCmdClear, busOk_out, outFirmware_of_blocked _ hb]
  · intro n s h
    exact ⟨_, rfl, by simp +contextual [h]⟩
  · intro x s h
    exact ⟨_, rfl, by simp [h]⟩
  · intro x s h
    exact ⟨_, rfl, by simp [h]⟩
  · rintro x s ⟨hon, hmode⟩
    refine ⟨_, rfl, ?_⟩
    simp only [hon, hmode, Bool.not_true, Bool.false_eq_true, if_false, if_true]
    obtain ⟨hst, hcause, hhot⟩ := outLatch_out x 1 (outEvt x 1 (s.updOut x fun o =>
      { o with hot := true, trips := stick 65535 o.trips 1 }))
    exact ⟨hst, hcause, by rw [hhot]; simp⟩
  · rintro x s ⟨hon, hmode⟩
    refine ⟨_, rfl, ?_⟩
    simp only [hon, hmode, Bool.not_true, Bool.false_eq_true, if_false]
    simp [outTo_out, outIsOn]
  · intro n s h
    exact ⟨_, rfl, by simp [h]⟩
  · intro x s h
    exact ⟨_, rfl, by simp [h]⟩
  · intro x s h
    exact ⟨_, rfl, by simp [h]⟩
  · intro x s h
    exact ⟨_, rfl, by simp [h]⟩
  · rintro x s ⟨hw, hq, hr⟩
    refine ⟨_, rfl, ?_⟩
    rw [outRestartDue_last (by simp [hw]) (by simp [hq]) (by simp) (by simpa using hr)]
    obtain ⟨hst, hcause, -⟩ := outLatch_out x 2 (s.updOut x fun o => { o with hot := false })
    exact ⟨hst, hcause⟩
  · rintro x s ⟨hw, hq, hc, hr, hok, hbusy⟩
    refine ⟨_, rfl, ?_⟩
    rw [outRestartDue_asks hw hq hc hr, outRestart_refused hok hbusy]
    obtain ⟨hst, hcause, -⟩ := outLatch_out x 3 s
    exact ⟨hst, hcause⟩
  · rintro x s ⟨hw, hq, hc, hr, hok⟩
    refine ⟨_, rfl, ?_⟩
    rw [outRestartDue_asks hw hq hc hr, outRestart_ok hok]
    simp
  · intro x s h
    refine ⟨_, rfl, ?_⟩
    simp only [h, if_false, out_updOut_same, retryAge, true_and]
    exact fun y hy => by simp [out_updOut, Ne.symm hy]
  · intro x s h
    exact ⟨_, rfl, by simp [h]⟩
  · intro x w s
    refine ⟨_, rfl, ?_⟩
    by_cases hw : (s.out x).warn = w
    · simp [hw]
    · simp [hw]
  · intro q k s
    refine ⟨_, rfl, ?_⟩
    by_cases hband : s.power.qband.get q = quadBand (s.power.qband.get q) k.toInt
    · simp only [hband.symm, if_true, Bank.get_set_same, true_and]
      exact fun x => rfl
    · simp only [hband, if_false, laneRaise_same, laneRaise_out, Bank.get_set_same, true_and]
      exact fun x => rfl
  · intro v s
    exact ⟨_, rfl, rfl, fun h => by simp [h], fun x => rfl⟩

/-! ### Settings and tests -/

/-- A write to the configuration of a channel that is not off, or of a bad value, is the event of a rejected
configuration. -/
theorem outCfgWrite_rejected {x : Nat} {v : Word} {s : State}
    (h : (s.out x).st ≠ .off ∧ (s.out x).st ≠ .latched ∨ outCfgOk x (outCfgNext x (s.out x).cfg v) = false) :
    outCfgWrite x v s = outEvt x 10 s := by
  unfold outCfgWrite
  dsimp only
  rw [if_neg]
  rcases h with ⟨h1, h2⟩ | h <;> simp [*]

/-- A test pulse of a channel ON of a kind that is tested, not suspended, stores the sample and the result. -/
theorem outTest_on {x : Nat} (a b : Int) {s : State} (hon : (s.out x).st = .on) (hkind : outKind (s.out x) ≠ 2)
    (hfree : testSuspended s x = false) :
    ((outTest x a b s).out x).tpRes = (testResult x (s.out x) a b).1 ∧
      ((outTest x a b s).out x).vtp = clampInt (-32768) 32767 a ∧ ((outTest x a b s).out x).st = (s.out x).st := by
  simp only [outTest, hon, hkind, hfree, ne_eq, not_true_eq_false, decide_false, Bool.or_self, Bool.false_eq_true, if_false]
  split <;> simp [hon]

/-- Any other test pulse does nothing. -/
theorem outTest_off {x : Nat} (a b : Int) {s : State}
    (h : (s.out x).st ≠ .on ∨ outKind (s.out x) = 2 ∨ testSuspended s x = true) : outTest x a b s = s := by
  rcases h with h | h | h <;> simp [outTest, h]

/-- Settles O7: settings by the guard of their register, test pulses through `outTest`. -/
theorem outputSettingsAndTests : Obligations.OutputSettingsAndTests := by
  unfold Obligations.OutputSettingsAndTests
  refine ⟨?_, ?_, ?_, ?_, ?_, ?_, ?_, ?_⟩
  · rintro x v s ⟨hlane, hclk, hst, hok⟩
    refine ⟨_, rfl, ?_⟩
    rw [powerWrite_ok _ s hlane hclk]
    simp [outCfgWrite, hst, hok]
  · rintro x v s ⟨hlane, hclk, hno⟩
    refine ⟨_, rfl, ?_⟩
    rw [powerWrite_ok _ s hlane hclk, outCfgWrite_rejected hno]
    simp [bit_outEvt]
  · rintro v s ⟨hlane, hclk, hlock, hmx, hwin, hrun, htest⟩
    refine ⟨_, rfl, ?_⟩
    rw [powerWrite_ok _ s hlane hclk]
    simp [outProtWrite, busOk, hlock, hmx, Nat.not_lt.2 hwin, hrun, htest]
  · rintro v s ⟨hlane, hclk, hrun, hoff⟩
    refine ⟨_, rfl, fun x hx => ?_⟩
    rw [powerWrite_ok _ s hlane hclk, busOk_out]
    simp only [outProtWrite, hrun, hoff, Bool.not_false, Bool.and_self, Bool.true_or, if_true]
    exact waitLatchAll_none _ x hx
  · rintro x a b s ⟨hlane, hclk, hb, hon, hkind, hfree⟩
    refine ⟨_, rfl, ?_⟩
    rw [powerWrite_ok _ s hlane hclk, outFirmware_of_free _ hb]
    simpa using outTest_on a b hon hkind hfree
  · intro x a b s h
    exact ⟨_, rfl, if_pos h⟩
  · rintro x a b s ⟨hper, hon, hkind, hfree⟩
    refine ⟨_, rfl, ?_⟩
    obtain ⟨hres, -, hst⟩ := outTest_on a b hon hkind hfree
    rw [if_neg hper]
    exact ⟨hres, hst⟩
  · rintro x a b s ⟨hper, hno⟩
    refine ⟨_, rfl, ?_⟩
    rw [if_neg hper, outTest_off a b hno]

end Sys2Proof.Machine
end

section
/-!
SUPPORT. Proofs about supplies, the power-fail sequence and the sealed die's own supply (02 R50 to R52; 03 R66; 17 R427).
-/
set_option Elab.async false
namespace Sys2Proof.Machine

/-! ### Supplies -/

/-- Settles O8: each trip through the law of its rail; a release writes one flag of its rail. -/
theorem supplyEvents : Obligations.SupplyEvents := by
  unfold Obligations.SupplyEvents
  refine ⟨?_, ?_, ?_, ?_, ?_, ?_, ?_, ?_⟩
  · intro s h
    have hplc : ∀ (b : Bool) (t : State) (n : Nat), State.plc { t with app.clk.vana := b } n = t.plc n := fun _ _ _ => rfl
    refine ⟨_, rfl, ?_⟩
    simp only [h, Bool.false_eq_true, if_false, hplc]
    exact ⟨trivial, plcHalt_off (raise 280 s)⟩
  · intro s
    exact ⟨_, rfl, rfl, rfl⟩
  · intro above s
    exact ⟨_, rfl, vloadTrip_flag s, vloadTrip_off s⟩
  · intro s
    exact ⟨_, rfl, rfl, fun x => rfl⟩
  · intro neg s h
    exact ⟨_, rfl, pilotSupplyTrip_all neg s h⟩
  · intro neg s
    exact ⟨_, rfl, pilotSupplyRelease_all neg s⟩
  · intro s
    exact ⟨_, rfl, vdrvTrip_all s⟩
  · intro s
    exact ⟨_, rfl, rfl, rfl, rfl⟩

/-! ### The power-fail sequence -/

/-- A warned sealed die is in its sequence, and none of its panels' ends lands the commit. -/
theorem dieWarned_pf (s : State) : (dieWarned s).die.pf = .warned ∧ (dieWarned s).die.pfSaved = false := by
  unfold dieWarned
  exact foldl_keep _ (fun t : State => t.die.pf = .warned ∧ t.die.pfSaved = false)
    (fun m t h => ⟨(ppf_pf m t).trans h.1, (ppf_saved m t).trans h.2⟩) _ _ ⟨rfl, rfl⟩

/-- Starting the enabled panels again leaves the sequence as it is. -/
theorem panelsAgain_pf (l : List Nat) (s : State) :
    (l.foldl (fun t m => if t.pobj m 1 = 1 then panelEnableSet m t else t) s).die.pf = s.die.pf := by
  refine foldl_keep _ (fun t : State => t.die.pf = s.die.pf) (fun m t h => ?_) l s rfl
  split
  · exact (pes_pf m t).trans h
  · exact h

/-! ### The sealed die's supply, clocks and reference -/

/-- A battery that falls below 1.85 V is flagged and logged. -/
theorem vbatSample_low {mv : Nat} {s : State} (hmv : mv < 1850) (hok : s.die.legal.ltStat.getLsbD 1 = false)
    (hlog : s.logFree ≠ 0) :
    (vbatSample mv s).die.legal.ltStat.getLsbD 1 = true ∧
      (vbatSample mv s).die.legal.logNext = s.die.legal.logNext + 1 := by
  have hfree : State.logFree { s with die.legal.ltStat := putBit s.die.legal.ltStat 1 true } ≠ 0 := hlog
  simp only [vbatSample, hmv, hok, decide_true, Bool.not_false, Bool.and_self, if_true, logAdd, hfree, if_false, and_true]
  simp [putBit]

/-- From 1.90 V on the battery is not flagged, and nothing is logged. -/
theorem vbatSample_good {mv : Nat} {s : State} (hmv : 1900 ≤ mv) :
    (vbatSample mv s).die.legal.ltStat.getLsbD 1 = false ∧ (vbatSample mv s).die.legal.log = s.die.legal.log := by
  have hlow : ¬ mv < 1850 := by omega
  unfold vbatSample
  cases h : s.die.legal.ltStat.getLsbD 1
  · simpa [hlow] using h
  · simp [hlow, hmv, putBit]

/-- An entry of the legal log leaves the state of the legal time. -/
theorem logAdd_ltStat (k : Nat) (d : List Byte) (s : State) :
    (logAdd k d s).die.legal.ltStat = s.die.legal.ltStat := by
  unfold logAdd
  split <;> rfl

/-- A flag given to every open record stands in each of them. -/
theorem flagAllOpen_flags {i : Nat} (hi : i < 32) (s : State) :
    ∀ r ∈ (flagAllOpen i s).die.cur.recs, r.st = .open → r.flags.getLsbD i = true := by
  intro r hr hopen
  simp only [flagAllOpen, State.mapRecs, List.mem_map] at hr
  obtain ⟨q, -, rfl⟩ := hr
  by_cases h : q.st = .open
  · simp [h, Rec.flag, putBit, hi]
  · simp [h] at hopen

/-- Settles O9: the sequence of a warned die, and the flags and log entries of its supply and references. -/
theorem powerFailAndSealedSupply : Obligations.PowerFailAndSealedSupply := by
  unfold Obligations.PowerFailAndSealedSupply
  refine ⟨?_, ?_, ?_, ?_, ?_, ?_, ?_, ?_, ?_, ?_⟩
  · rintro s ⟨hpf, hrun⟩
    refine ⟨_, rfl, ?_⟩
    simp [hpf, whenDie, psqSelfRelease, hrun, dieWarned_pf]
  · rintro s ⟨hpf, hrun⟩
    refine ⟨_, rfl, ?_⟩
    simp [hpf, whenDie, hrun, panelsAgain_pf]
  · intro v s
    exact ⟨_, rfl, rfl, rfl, rfl, rfl⟩
  · intro s
    refine ⟨_, rfl, ?_⟩
    cases hrun : s.die.running <;> simp [dieReset, hrun]
  · rintro mv s ⟨hrun, hmv, hok, hlog⟩
    refine ⟨_, rfl, ?_⟩
    simp only [whenDie, hrun, if_true]
    exact vbatSample_low hmv hok hlog
  · rintro mv s ⟨hrun, hmv⟩
    refine ⟨_, rfl, ?_⟩
    simp only [whenDie, hrun, if_true]
    exact vbatSample_good hmv
  · intro s
    refine ⟨_, rfl, ?_⟩
    cases hrun : s.die.running <;> simp
  · rintro s ⟨hrun, hok⟩
    refine ⟨_, rfl, ?_⟩
    simp only [whenDie, hrun, hok, Bool.false_eq_true, if_false, if_true, logAdd_met]
    exact ⟨rfl, flagAllOpen_flags (by decide) _⟩
  · intro s hrun
    refine ⟨_, rfl, ?_⟩
    cases href : s.die.met.refFail <;> simp [whenDie, hrun, href]
  · intro s hrun
    refine ⟨_, rfl, ?_⟩
    cases hflag : s.die.legal.ltStat.getLsbD 2 <;> simp only [whenDie, hrun, hflag, logAdd_ltStat, if_true, Bool.false_eq_true, if_false]
    simp [putBit]

end Sys2Proof.Machine
end

section
/-!
SUPPORT. Proofs about resets, the hold window, the watchdog, LDR_TRIAL and the PLLs (03 R63 to R77; 15 R380; 16 R417).
-/
set_option Elab.async false
namespace Sys2Proof.Machine

/-! ### Resets -/

/-- A supply trip of a started part leaves the trip as the only cause. -/
theorem coldReset_of_free {b : Nat} {s : State} (hfree : s.cold.coldHeld = false) (hst : s.cold.started = true) :
    ColdReset (putBit 0 b true) s (coldReset b s) := by
  simpa [hfree, hst] using coldReset_done b s

/-- A trip during a cold reset adds its cause. -/
theorem coldReset_of_held {b : Nat} {s : State} (hheld : s.cold.coldHeld = true) :
    ColdReset (putBit s.cold.cause b true) s (coldReset b s) := by
  simpa [hheld] using coldReset_done b s

/-- An application reset keeps the flag of a failed main reference. -/
theorem appReset_mainFail (b : Nat) (s : State) : (appReset b s).cold.mainFail = s.cold.mainFail := by
  unfold appReset
  split
  · rfl
  · obtain ⟨-, -, hcold, -⟩ := hws_frame s
    obtain ⟨-, hcold', -⟩ := par_frame (holdWindowStart s)
    simp [hcold', hcold]

/-! ### The hold window -/

/-- The end of the window stops every active point that was neither reclaimed nor shutting down. -/
theorem holdWindowExpiry_stops {s t : State} (hwin : s.bridle.window = true)
    (ht : execHoldWindowExpiry s = .next t) :
    t.bridle.window = false ∧ ∀ p, p < 64 → (s.bp p).active = true → (s.bp p).reclaimed = false →
      (s.bp p).shut = 0 → (t.bp p).shut = 2 ∧ (t.bp p).stopReq = true := by
  simp only [execHoldWindowExpiry, hwin, Bool.not_true, Bool.false_eq_true, if_false] at ht
  cases ht
  refine ⟨?_, fun p hp hact hrec hshut => expiry_facts _ _ p (by simp [hp, hact, hrec, hshut])⟩
  exact foldl_keep _ (fun t : State => t.bridle.window = false) (fun p t h => (shut_window p t).trans h) _ _ rfl

/-- The coil's shutdown leaves the point at step 4. -/
theorem shutdownCoil_shut (p : Nat) (s : State) : ((shutdownCoil p s).bp p).shut = 4 := by
  unfold shutdownCoil
  dsimp only
  split <;> simp [State.bp]

/-! ### Reclaims -/

/-- A FIFO whose head is a safe message holds the reclaims behind it back. -/
theorem takeReclaims_behind_post {s : State} {a b c : Word} {r : List BrMsg} (h : s.bridle.fifo = .post a b c :: r) :
    takeReclaims s = s := by
  unfold takeReclaims
  split
  · rfl
  · rw [h]
    simp only [reclaimFront]
    rw [← h]

/-- A reclaim alone in the FIFO of a Bridle that listens is taken at once. -/
theorem takeReclaims_alone {s : State} {hi : Bool} {v : Word} (hdeaf : s.bridleDeaf = false)
    (h : s.bridle.fifo = [.reclaim hi v]) :
    takeReclaims s = { reclaimTake hi v s with bridle.fifo := [] } := by
  simp [takeReclaims, hdeaf, h, reclaimFront]

/-- A reclaim that a running Bridle takes within the window reclaims each active point of its bits that is not shutting
down. -/
theorem reclaimTake_reclaims {s : State} (hi : Bool) {v : Word} {k : Nat} (hrun : s.bridleRuns = true) (hk : k < 32)
    (hv : v.getLsbD k = true) (hwin : s.bridle.window = true)
    (hact : (s.bp ((if hi then 32 else 0) + k)).active = true) (hshut : (s.bp ((if hi then 32 else 0) + k)).shut = 0) :
    ((reclaimTake hi v s).bp ((if hi then 32 else 0) + k)).reclaimed = true := by
  unfold reclaimTake
  rw [hrun]
  exact reclaim_facts v _ s k hk hv hwin hact hshut

/-- Settles O10: resets through what an application or cold reset leaves, the window and the shutdown through the laws
of one point, reclaims through the FIFO's head. -/
theorem resetsAndHoldWindow : Obligations.ResetsAndHoldWindow := by
  unfold Obligations.ResetsAndHoldWindow
  refine ⟨?_, ?_, ?_, ?_, ?_, ?_, ?_, ?_, ?_, ?_, ?_, ?_, ?_, ?_, ?_, ?_, ?_, ?_, ?_, ?_, ?_⟩
  · intro s hfree
    exact ⟨_, rfl, appReset_done 3 s hfree⟩
  · rintro v s ⟨hfree, hkey, hbit⟩
    refine ⟨_, rfl, ?_⟩
    simpa [rstCtrlWrite, hkey, hbit] using appReset_done 5 s hfree
  · intro v s hkey
    exact ⟨_, rfl, by simp [rstCtrlWrite, hkey]⟩
  · rintro s ⟨hfree, hdbg⟩
    refine ⟨_, rfl, ?_⟩
    rw [hdbg]
    exact appReset_done 7 s hfree
  · rintro s ⟨hrun, hper⟩
    have hfree : s.cold.coldHeld = false := (Bool.or_eq_false_iff.1 hrun).2
    refine ⟨_, rfl, ?_⟩
    simpa [hrun, hper] using appReset_done 4 s hfree
  · intro s hfree
    refine ⟨_, rfl, rfl, ?_⟩
    have hkeep : ({ appReset 6 s with cold.mainFail := s.cold.mainFail } : State) = appReset 6 s := by
      rw [← appReset_mainFail 6 s]
    exact hkeep ▸ appReset_done 6 s hfree
  · exact fun s => ⟨_, rfl, rfl⟩
  · intro b s hfree
    exact ⟨_, rfl, appReset_done 6 s hfree⟩
  · rintro s ⟨hfree, hst⟩
    have hcause : (putBit 0 1 true : BitVec 8) = 2 := by decide
    exact ⟨_, rfl, hcause ▸ coldReset_of_free hfree hst⟩
  · intro s hheld
    exact ⟨_, rfl, coldReset_of_held hheld⟩
  · rintro s ⟨hfree, hst⟩
    have hcause : (putBit 0 2 true : BitVec 8) = 4 := by decide
    exact ⟨_, rfl, hcause ▸ coldReset_of_free hfree hst⟩
  · intro s hheld
    exact ⟨_, rfl, coldReset_of_held hheld⟩
  · intro s hwin
    exact ⟨_, rfl, holdWindowExpiry_stops hwin rfl⟩
  · rintro p s ⟨hrun, hshut⟩
    refine ⟨_, rfl, ?_⟩
    have hgo : (s.bridleRuns && (decide ((s.bp p).shut = 2) || decide ((s.bp p).shut = 3))) = true := by
      simpa [hrun] using hshut
    rw [if_pos hgo, shutdownCoil_shut]
  · rintro p s ⟨h2, h3⟩
    exact ⟨_, rfl, by simp [h2, h3]⟩
  · rintro p s ⟨hrun, hshut⟩
    refine ⟨_, rfl, ?_⟩
    rw [if_neg (by simp [hrun, hshut])]
    simp [State.bp]
  · intro p s h
    exact ⟨_, rfl, by simp [h]⟩
  · intro s h
    exact ⟨_, rfl, by simp [h]⟩
  · rintro hi v s ⟨hempty, hrun, hok⟩
    refine ⟨_, rfl, ?_⟩
    have hload : s.bridle.st ≠ .load := fun h => by simp [State.bridleRuns, h] at hrun
    have htake : reclaimWrite hi v s = busOk 0 { reclaimTake hi v { s with bridle.fifo := [.reclaim hi v] } with
        bridle.fifo := [] } := by
      rw [reclaimWrite, hempty, ← takeReclaims_alone (s := { s with bridle.fifo := [.reclaim hi v] }) (hi := hi) (v := v)
        (by simp [State.bridleDeaf, hload, hok]) rfl]
      rfl
    rw [htake]
    exact ⟨rfl, fun k hk hv hwin hact hshut =>
      reclaimTake_reclaims hi (s := { s with bridle.fifo := [.reclaim hi v] }) hrun hk hv hwin hact hshut⟩
  · rintro hi v a b c r s ⟨hpost, hroom⟩
    refine ⟨_, rfl, ?_⟩
    have hlen : ¬ 8 ≤ s.bridle.fifo.length := by simp [hpost]; omega
    rw [reclaimWrite, if_neg hlen, takeReclaims_behind_post (a := a) (b := b) (c := c) (r := r ++ [.reclaim hi v])]
    simp [hpost]
  · intro hi v s h
    exact ⟨_, rfl, by simp [reclaimWrite, h]⟩

/-! ### The watchdog, LDR_TRIAL and the PLLs -/

/-- Settles O11: each register by its guard, the relock by what a restart of the ports leaves. -/
theorem watchdogTrialAndSpread : Obligations.WatchdogTrialAndSpread := by
  unfold Obligations.WatchdogTrialAndSpread
  refine ⟨?_, ?_, ?_, ?_, ?_, ?_, ?_, ?_, ?_, ?_, ?_, ?_, ?_⟩
  · intro v s hper
    refine ⟨_, rfl, ?_⟩
    by_cases hkick : fld v 24 8 = 0xA5 <;> simp [wdogWrite, hkick, hper]
  · intro v s hper
    refine ⟨_, rfl, ?_⟩
    by_cases hkick : fld v 24 8 = 0xA5 <;> simp [wdogWrite, hkick, hper]
  · intro v s hkick
    refine ⟨_, rfl, ?_⟩
    by_cases hper : s.app.clk.wdPeriod = 0 <;> simp [wdogWrite, hkick, hper]
  · rintro s ⟨hper, hrun, hclk, hfree⟩
    refine ⟨_, rfl, ?_⟩
    rw [if_neg hper]
    exact raise_sets 3 s (by decide) (by decide) hrun hclk (by decide)
  · intro v s h
    exact ⟨_, congrArg Host.Outcome.next (if_neg (by simp [h])), rfl, rfl, rfl, rfl, Nat.le_max_left _ _⟩
  · intro v s h
    exact ⟨_, rfl, by simp [sscWrite, h]⟩
  · intro s h
    exact ⟨_, rfl, by simp [State.spreadNow, h]⟩
  · intro v s h
    exact ⟨_, rfl, by simp [trialWrite, h]⟩
  · intro v s h
    exact ⟨_, rfl, by simp [trialWrite, h]⟩
  · rintro s ⟨hact, hfree⟩
    refine ⟨_, rfl, ?_⟩
    rw [if_pos hact]
    have hreset := appReset_done 5 { s with trial := { active := false, expired := true, remain := 0 } } hfree
    exact ⟨by rw [hreset.trial], by rw [hreset.trial], hreset.held⟩
  · intro s
    exact ⟨_, rfl, by simp⟩
  · intro s h
    refine ⟨_, rfl, ?_⟩
    rw [if_pos h]
    exact pllBack_same s
  · intro a b s
    refine ⟨_, rfl, ?_⟩
    have hall : ∀ x : BitVec 2, x &&& 3#2 = x := by decide
    cases a <;> cases b <;> simp [putBit, hall]

end Sys2Proof.Machine
end

section
/-!
SUPPORT. Proofs about Ethernet links, the delivery monitors and the engine run bits (01 R14; 03 R64; 04 R96; 05 R107).
-/
set_option Elab.async false
namespace Sys2Proof.Machine

/-! ### What leaves the engine run bits -/

/-- The bits of RST_ENGRUN: which engines run and are loaded, and RUN_ERR. -/
def State.engBits (s : State) : BitVec 9 × BitVec 9 × Bool := (s.app.clk.run, s.app.clk.loaded, s.app.clk.runErr)

/-- What leaves the clock and reset block leaves the bits. -/
theorem engBits_of_clk {s t : State} (h : t.app.clk = s.app.clk) : t.engBits = s.engBits := by
  simp [State.engBits, h]

@[simp] theorem busOk_engBits (v : Word) (s : State) : (busOk v s).engBits = s.engBits := rfl

@[simp] theorem busFail_engBits (s : State) : (busFail s).engBits = s.engBits := rfl

/-- A write of a power-die register leaves them where its effect does. -/
theorem powerWrite_engBits {f : State → State} (h : ∀ s, (f s).engBits = s.engBits) (s : State) :
    (powerWrite f s).engBits = s.engBits := by
  unfold powerWrite
  repeat' split
  · rfl
  · exact h s
  · rfl

/-- A fold leaves them where each of its steps does. -/
theorem foldl_engBits {α : Type} {g : State → α → State} (h : ∀ s a, (g s a).engBits = s.engBits) (l : List α) (s : State) :
    (l.foldl g s).engBits = s.engBits :=
  foldl_keep g (fun t => t.engBits = s.engBits) (fun a t ht => (h t a).trans ht) l s rfl

theorem outCmdOff_engBits (x : Nat) (s : State) : (outCmdOff x s).engBits = s.engBits := by
  unfold outCmdOff outFirmware outSwitchOff
  dsimp only
  repeat' split
  all_goals exact engBits_of_clk (by simp)

theorem pilCommand_engBits (p : Nat) (v : Word) (s : State) : (pilCommand p v s).engBits = s.engBits := by
  unfold pilCommand
  dsimp only
  repeat' split
  all_goals exact engBits_of_clk (by simp)

theorem contactorOff_engBits (p : Nat) (s : State) : (contactorOff p s).engBits = s.engBits := by
  unfold contactorOff
  dsimp only
  split
  · exact powerWrite_engBits (outCmdOff_engBits _) s
  · rfl

theorem cantleShutdown_engBits (p : Nat) (s : State) : (cantleShutdown p s).engBits = s.engBits := by
  have hdown : (contactorOff p (powerWrite (pilCommand p 1) s)).engBits = s.engBits :=
    (contactorOff_engBits _ _).trans (powerWrite_engBits (pilCommand_engBits p 1) s)
  unfold cantleShutdown
  dsimp only
  repeat' split
  · rfl
  · exact (powerWrite_engBits (outCmdOff_engBits _) _).trans hdown
  · exact hdown

/-- A conditional leaves them where both of its branches do. -/
theorem ite_engBits {c : Prop} [Decidable c] {a b s : State} (ha : a.engBits = s.engBits) (hb : b.engBits = s.engBits) :
    (if c then a else b).engBits = s.engBits := by
  split
  · exact ha
  · exact hb

theorem pilCfgWrite_engBits (p : Nat) (v : Word) (s : State) : (pilCfgWrite p v s).engBits = s.engBits :=
  ite_engBits (engBits_of_clk (by simp)) (engBits_of_clk (by simp))

theorem pilTakes_engBits (p : Nat) (s : State) : (pilTakes p s).engBits = s.engBits :=
  ite_engBits rfl (pilCfgWrite_engBits p _ { s with app.server.pilDue := putBit s.app.server.pilDue p false })

theorem setBytes_engBits (s : State) (a : Nat) (l : List Byte) : (s.setBytes a l).engBits = s.engBits := by
  induction l generalizing s a with
  | nil => rfl
  | cons b r ih => exact (ih _ _).trans rfl

theorem setNum_engBits (s : State) (a n v : Nat) : (s.setNum a n v).engBits = s.engBits := engBits_of_clk (by simp)

theorem syncCtx_engBits (slot : Nat) (s : State) : (syncCtx slot s).engBits = s.engBits := engBits_of_clk (by simp)

theorem sessionTakes_engBits (slot p : Nat) (s : State) : (sessionTakes slot p s).engBits = s.engBits :=
  pilTakes_engBits p _

theorem updCtx_engBits (s : State) (slot : Nat) (f : Ctx → Ctx) : (s.updCtx slot f).engBits = s.engBits := rfl

theorem ctxBytes_engBits (slot off : Nat) (l : List Byte) (s : State) : (ctxBytes slot off l s).engBits = s.engBits :=
  setBytes_engBits s _ l

theorem ctxStart_engBits (slot p r : Nat) (s : State) : (ctxStart slot p r s).engBits = s.engBits := by
  unfold ctxStart
  dsimp only
  rw [sessionTakes_engBits, syncCtx_engBits, setNum_engBits, updCtx_engBits, ctxBytes_engBits]

theorem reclaimWrite_engBits (hi : Bool) (v : Word) (s : State) : (reclaimWrite hi v s).engBits = s.engBits := by
  unfold reclaimWrite
  split
  · rfl
  · obtain ⟨x, y, h⟩ := takeReclaims_eq { s with bridle.fifo := s.bridle.fifo ++ [.reclaim hi v] }
    rw [h]
    rfl

theorem rebuildRecord_engBits (p serial slot : Nat) (s : State) : (rebuildRecord p serial slot s).engBits = s.engBits := by
  have hvs : ∀ (f : VSess → VSess) (t : State), (t.updVs slot f).engBits = t.engBits := fun _ _ => rfl
  unfold rebuildRecord setReason setPhase
  dsimp only
  split
  · rw [reclaimWrite_engBits, setNum_engBits, hvs, setNum_engBits, ctxStart_engBits]
  · rw [setNum_engBits, setNum_engBits, setNum_engBits, ctxStart_engBits]

theorem startQueued_engBits (p : Nat) (s : State) : (startQueued p s).engBits = s.engBits := by
  unfold startQueued
  repeat' split
  · exact ctxStart_engBits _ _ _ _
  · rfl
  · rfl

theorem rebuildPoint_engBits (p : Nat) (s : State) : (rebuildPoint p s).engBits = s.engBits := by
  unfold rebuildPoint
  split
  · rfl
  · dsimp only
    split <;> (repeat' split) <;> simp only [startQueued_engBits, rebuildRecord_engBits]

/-- An engine that comes back rebuilds its contexts and shuts down what has none; neither moves the bits. -/
theorem engineBack_engBits (e : Nat) (s : State) : (engineBack e s).engBits = s.engBits := by
  unfold engineBack
  refine (foldl_engBits (fun t k => ?_) _ _).trans (foldl_engBits (fun t k => rebuildPoint_engBits _ t) _ s)
  dsimp only
  split
  · exact cantleShutdown_engBits _ _
  · rfl

theorem completeLevels_clk (slot : Nat) (s : State) : (completeLevels slot s).app.clk = s.app.clk := by
  have hsrc : ∀ (l : List Nat), (completeSources l s).app.clk = s.app.clk := fun l =>
    foldl_fix (fun t : State => t.app.clk) _ (fun t n => by simp) l s
  simp [completeLevels, hsrc]

theorem girthOrphan_clk (slot : Nat) (s : State) : (girthOrphan slot s).app.clk = s.app.clk := by
  unfold girthOrphan
  refine foldl_fix (fun t : State => t.app.clk) _ ?_ _ _
  intro _ _
  rfl

/-- A reset of an engine, or of the Stitcher (8), clears its run and loaded bits and moves no other bit. -/
theorem anyEngineReset_engBits (e : Nat) (s : State) : (anyEngineReset e s).engBits =
    (putBit s.app.clk.run e false, putBit s.app.clk.loaded e false, s.app.clk.runErr) := by
  have hctx : ∀ (f : Nat → Ctx → Ctx) (l : List Nat),
      (l.foldl (fun t i => State.updCtx t i (f i)) (l.foldl (fun t i => girthOrphan i (completeLevels i t)) s)).app.clk =
        s.app.clk := fun f l =>
    (foldl_fix (fun t : State => t.app.clk) _ (fun t i => by simp) _ _).trans
      (foldl_fix (fun t : State => t.app.clk) _ (fun t i => (girthOrphan_clk i _).trans (completeLevels_clk i t)) _ s)
  have hsleep : (if s.gated then transferSleep s else s).app.clk = s.app.clk := by
    split
    · simp [transferSleep]
    · rfl
  unfold anyEngineReset
  split
  · next he => simp only [stitcherReset, State.engBits, hsleep, he]
  · simp only [engineReset, State.engBits, hctx (fun _ => Ctx.blank)]

/-! ### RST_ENGRUN -/

/-- What a write of RST_ENGRUN does for engine `e`. -/
def engRunStep (v : Word) (t : State) (e : Nat) : State :=
  if bit v e then
    if t.app.clk.run.getLsbD e then t
    else if t.app.clk.loaded.getLsbD e then
      (let t1 := { t with app.clk.run := putBit t.app.clk.run e true }
       if e < 8 && t1.app.server.ready then engineBack e t1 else t1)
    else raise 4 { t with app.clk.runErr := true }
  else anyEngineReset e t

theorem engRunWrite_eq (v : Word) (s : State) : engRunWrite v s =
    (List.range 9).foldl (engRunStep v) { s with app.clk.runErr := s.app.clk.runErr && !bit v 31 } := rfl

/-- The step of an engine gives it its new bits: it runs where the bit asks for it and it ran or was loaded, else RUN_ERR
is set; a 0 stops and unloads it. -/
theorem engRunStep_engBits (v : Word) (t : State) (e : Nat) : (engRunStep v t e).engBits =
    if bit v e then
      if t.app.clk.run.getLsbD e then t.engBits
      else if t.app.clk.loaded.getLsbD e then (putBit t.app.clk.run e true, t.app.clk.loaded, t.app.clk.runErr)
      else (t.app.clk.run, t.app.clk.loaded, true)
    else (putBit t.app.clk.run e false, putBit t.app.clk.loaded e false, t.app.clk.runErr) := by
  unfold engRunStep
  by_cases hb : bit v e = true
  · simp only [if_pos hb]
    by_cases hr : t.app.clk.run.getLsbD e = true
    · simp only [if_pos hr]
    simp only [if_neg hr]
    by_cases hl : t.app.clk.loaded.getLsbD e = true
    · simp only [if_pos hl]
      exact ite_engBits (engineBack_engBits e _) rfl
    · simp only [if_neg hl]
      simp [State.engBits]
  · simp only [if_neg hb]
    exact anyEngineReset_engBits e t

/-- Whether engine `e` runs and is loaded. -/
def State.engRunLoad (e : Nat) (s : State) : Bool × Bool := (s.app.clk.run.getLsbD e, s.app.clk.loaded.getLsbD e)

/-- The bits of one engine after a write of its bit `b`. -/
def engRunNext (b : Bool) (x : Bool × Bool) : Bool × Bool := (b && (x.1 || x.2), x.2 && b)

theorem engRunLoad_of_engBits {t : State} {r l : BitVec 9} {x : Bool} (h : t.engBits = (r, l, x)) (e : Nat) :
    t.engRunLoad e = (r.getLsbD e, l.getLsbD e) := by
  simp only [State.engBits, Prod.mk.injEq] at h
  simp [State.engRunLoad, h]

theorem putBit_getLsbD {w : Nat} (m : BitVec w) (i j : Nat) (b : Bool) :
    (putBit m i b).getLsbD j = if i = j ∧ j < w then b else m.getLsbD j := by
  unfold putBit
  cases b <;> by_cases hij : i = j <;> by_cases hj : j < w <;> simp [BitVec.getLsbD_one, hij, hj] <;> grind

/-- The step of engine `e` moves its own bits as its bit says, and no other engine's. -/
theorem engRunStep_runLoad (v : Word) (t : State) {e f : Nat} (he : e < 9) :
    (engRunStep v t e).engRunLoad f = if e = f then engRunNext (bit v e) (t.engRunLoad e) else t.engRunLoad f := by
  have h := engRunStep_engBits v t e
  by_cases hb : bit v e = true
  · rw [if_pos hb] at h
    by_cases hr : t.app.clk.run.getLsbD e = true
    · rw [if_pos hr] at h
      rw [engRunLoad_of_engBits (t := engRunStep v t e) h]
      split
      · next hef =>
        subst hef
        simp only [engRunNext, State.engRunLoad, hb, hr, Bool.true_or, Bool.and_true]
      · rfl
    rw [if_neg hr] at h
    by_cases hl : t.app.clk.loaded.getLsbD e = true
    · rw [if_pos hl] at h
      rw [engRunLoad_of_engBits h, putBit_getLsbD]
      by_cases hef : e = f
      · subst hef
        rw [if_pos ⟨rfl, he⟩, if_pos rfl]
        simp only [engRunNext, State.engRunLoad, hb, hl, Bool.or_true, Bool.and_true]
      · rw [if_neg (fun x => hef x.1), if_neg hef]
        rfl
    · rw [if_neg hl] at h
      rw [engRunLoad_of_engBits h]
      split
      · next hef =>
        subst hef
        simp only [engRunNext, State.engRunLoad, eq_false_of_ne_true hr, eq_false_of_ne_true hl,
          Bool.or_false, Bool.and_false, Bool.false_and]
      · rfl
  · rw [if_neg hb] at h
    rw [engRunLoad_of_engBits h, putBit_getLsbD, putBit_getLsbD]
    by_cases hef : e = f
    · subst hef
      rw [if_pos ⟨rfl, he⟩, if_pos ⟨rfl, he⟩, if_pos rfl]
      simp only [engRunNext, eq_false_of_ne_true hb, Bool.false_and, Bool.and_false]
    · rw [if_neg (fun x => hef x.1), if_neg (fun x => hef x.1), if_neg hef]
      rfl

/-- A write of RST_ENGRUN gives each engine of the list the bits that its own bit asks for. -/
theorem foldl_engRunStep_runLoad (v : Word) {l : List Nat} (hl : ∀ e ∈ l, e < 9) (hnd : l.Nodup) (t : State) (f : Nat) :
    (l.foldl (engRunStep v) t).engRunLoad f =
      if f ∈ l then engRunNext (bit v f) (t.engRunLoad f) else t.engRunLoad f := by
  induction l generalizing t with
  | nil => simp
  | cons e r ih =>
    obtain ⟨her, hr⟩ := List.nodup_cons.mp hnd
    rw [List.foldl_cons, ih (fun x hx => hl x (List.mem_cons_of_mem _ hx)) hr,
      engRunStep_runLoad v t (hl e List.mem_cons_self)]
    by_cases hef : e = f
    · subst hef
      simp [her]
    · simp [hef, Ne.symm hef]

/-- After a write of RST_ENGRUN engine `e` runs where its bit was 1 and it ran or was loaded, and stays loaded where it was
loaded and its bit was 1. -/
theorem engRunWrite_runLoad (v : Word) (s : State) {e : Nat} (he : e < 9) :
    (engRunWrite v s).engRunLoad e = engRunNext (bit v e) (s.engRunLoad e) := by
  rw [engRunWrite_eq, foldl_engRunStep_runLoad v (fun x hx => List.mem_range.mp hx) List.nodup_range]
  simp [he, State.engRunLoad]

/-- RUN_ERR, once set, stays through every step. -/
theorem engRunStep_runErr (v : Word) (t : State) (e : Nat) (h : t.app.clk.runErr = true) :
    (engRunStep v t e).app.clk.runErr = true := by
  have hb : (engRunStep v t e).engBits.2.2 = true := by
    rw [engRunStep_engBits]
    repeat' split
    all_goals simp [State.engBits, h]
  exact hb

/-- A 1 for an engine of the list that neither runs nor is loaded sets RUN_ERR. -/
theorem foldl_engRunStep_runErr (v : Word) {l : List Nat} (hl : ∀ e ∈ l, e < 9) (hnd : l.Nodup) {e : Nat} (he : e ∈ l)
    (hb : bit v e = true) (t : State) (ht : t.engRunLoad e = (false, false)) :
    (l.foldl (engRunStep v) t).app.clk.runErr = true := by
  induction l generalizing t with
  | nil => exact absurd he List.not_mem_nil
  | cons f r ih =>
    obtain ⟨hfr, hr⟩ := List.nodup_cons.mp hnd
    rw [List.foldl_cons]
    by_cases hef : f = e
    · subst hef
      refine foldl_keep _ (fun t => t.app.clk.runErr = true) (fun x t h => engRunStep_runErr v t x h) r _ ?_
      have hbits := engRunStep_engBits v t f
      simp only [State.engRunLoad, Prod.mk.injEq] at ht
      simp only [hb, ht, if_true, Bool.false_eq_true, if_false] at hbits
      exact congrArg (·.2.2) hbits
    · refine ih (fun x hx => hl x (List.mem_cons_of_mem _ hx)) hr ?_ _ ?_
      · exact (List.mem_cons.mp he).resolve_left (Ne.symm hef)
      · rw [engRunStep_runLoad v t (hl f List.mem_cons_self), if_neg hef, ht]

theorem engRunWrite_runErr (v : Word) (s : State) {e : Nat} (he : e < 9) (hb : bit v e = true)
    (h : s.engRunLoad e = (false, false)) : (engRunWrite v s).app.clk.runErr = true :=
  foldl_engRunStep_runErr v (fun _ hx => List.mem_range.mp hx) List.nodup_range (List.mem_range.mpr he) hb _ h

theorem engRunWrite_bits (v : Word) (s : State) {e : Nat} (he : e < 9) :
    (engRunWrite v s).app.clk.run.getLsbD e = (bit v e && (s.app.clk.run.getLsbD e || s.app.clk.loaded.getLsbD e)) ∧
    (engRunWrite v s).app.clk.loaded.getLsbD e = (s.app.clk.loaded.getLsbD e && bit v e) := by
  have h := engRunWrite_runLoad v s he
  simpa only [State.engRunLoad, engRunNext, Prod.mk.injEq] using h

/-! ### Links and delivery monitors -/

theorem ipTaken_clk (port : Nat) (s : State) : (ipTaken port s).app.clk = s.app.clk := by
  unfold ipTaken
  dsimp only
  split <;> rfl

theorem linkChange_ethUp (port : Fin 2) (up : Bool) (s : State) :
    (linkChange port up s).app.clk.ethUp.getLsbD port = up := by
  unfold linkChange
  rw [(raise_same _ _).1]
  exact (putBit_getLsbD _ _ _ _).trans (if_pos ⟨rfl, port.isLt⟩)

theorem deliveryTimeout_sl (q : Nat) (s : State) : (deliveryTimeout q s).app.sl = s.app.sl := by
  simp [deliveryTimeout]

theorem monitored_seven (s : State) : monitored 7 s = sealedTimeout s := rfl

theorem sealedTimeout_sl (s : State) (h : s.app.sl.timedOut.length ≤ 64) :
    (sealedTimeout s).app.sl.outst = s.app.sl.outst.drop 1 ∧
    (sealedTimeout s).app.sl.timedOut = (s.app.sl.outst.take 1 ++ s.app.sl.timedOut).take 64 := by
  unfold sealedTimeout
  cases ho : s.app.sl.outst with
  | nil => exact ⟨ho, (List.take_of_length_le h).symm⟩
  | cons x r => exact ⟨rfl, rfl⟩

/-! ### The obligation -/

/-- Settles O12: the run and loaded bits move as `engRunStep_engBits` says of each engine, whose own step alone moves its
bits, and the restart of an engine leaves every bit of RST_ENGRUN. -/
theorem deliveryPortsAndEngines : Obligations.DeliveryPortsAndEngines := by
  unfold Obligations.DeliveryPortsAndEngines
  refine ⟨?_, ?_, ?_, ?_, ?_, ?_, ?_, ?_, ?_⟩
  · rintro port up s ⟨hrst, hmode⟩
    refine ⟨_, rfl, ?_⟩
    rw [if_neg]
    · exact linkChange_ethUp port up s
    · cases up <;> simp_all
  · intro port up s h
    refine ⟨_, rfl, if_pos ?_⟩
    simpa using h
  · intro n s
    exact ⟨_, rfl, rfl⟩
  · rintro q s ⟨hrst, rfl, hlen⟩
    refine ⟨_, rfl, ?_⟩
    rw [hrst, if_neg Bool.false_ne_true, deliveryTimeout_sl]
    exact sealedTimeout_sl s hlen
  · intro q s h
    refine ⟨_, rfl, if_neg ?_⟩
    simp [h]
  · intro q s h
    exact ⟨_, rfl, if_pos h⟩
  · intro v s
    exact ⟨_, rfl, fun _ he => engRunWrite_bits v s he⟩
  · rintro v e s ⟨hb, hr, hl⟩
    exact ⟨_, rfl, engRunWrite_runErr v s e.isLt hb (by simp only [State.engRunLoad, hr, hl])⟩
  · intro v s
    exact ⟨_, rfl, fun _ he => engRunWrite_bits v s he⟩

end Sys2Proof.Machine
end

section
/-!
SUPPORT. Proofs about the sealed link (01 R16; 06 R131; 12 R275, R276).
-/
set_option Elab.async false
namespace Sys2Proof.Machine

/-! ### What leaves the control end's key and failure mark -/

/-- The key of the control end and whether the link has failed. -/
def State.linkState (s : State) : Option (BitVec 384) × Bool := (s.app.link.key, s.app.link.failed)

theorem linkState_of_link {s t : State} (h : t.app.link = s.app.link) : t.linkState = s.linkState := by
  simp [State.linkState, h]

@[simp] theorem raise_linkState (n : Nat) (s : State) : (raise n s).linkState = s.linkState := linkState_of_link (by simp)

@[simp] theorem emcyBoth_linkState (c : Nat) (b : Byte) (s : State) : (emcyBoth c b s).linkState = s.linkState :=
  linkState_of_link (by simp)

@[simp] theorem setNum_linkState (s : State) (a n v : Nat) : (s.setNum a n v).linkState = s.linkState :=
  linkState_of_link (by simp)

@[simp] theorem setVol_linkState (s : State) (i x : Nat) (v : List Byte) : (s.setVol i x v).linkState = s.linkState := rfl

@[simp] theorem updVs_linkState (s : State) (k : Nat) (f : VSess → VSess) : (s.updVs k f).linkState = s.linkState := rfl

@[simp] theorem updCtx_linkState (s : State) (k : Nat) (f : Ctx → Ctx) : (s.updCtx k f).linkState = s.linkState := rfl

@[simp] theorem syncCtx_linkState (k : Nat) (s : State) : (syncCtx k s).linkState = s.linkState :=
  linkState_of_link (by simp)

/-- Sending what is held takes messages off and leaves key and mark. -/
theorem linkFlush_linkState (n : Nat) (s : State) : (linkFlush .control n s).linkState = s.linkState := by
  induction n generalizing s with
  | zero => rfl
  | succ n ih =>
    simp only [linkFlush]
    repeat' split
    · rfl
    · rw [ih]
      simp [State.linkState, linkCount, State.updLink]
    · rfl

@[simp] theorem linkOffer_linkState (c : Nat) (k : Word) (p : List Byte) (s : State) :
    (linkOffer .control c k p s).linkState = s.linkState := by
  unfold linkOffer
  split
  · rfl
  · rw [linkFlush_linkState]
    rfl

@[simp] theorem fwSend_linkState (c : Nat) (k : Word) (b : List Byte) (s : State) : (fwSend c k b s).linkState = s.linkState := by
  unfold fwSend
  split
  · rfl
  · rw [linkOffer_linkState]
    rfl

@[simp] theorem sessionNotice_linkState (k slot r : Nat) (s : State) : (sessionNotice k slot r s).linkState = s.linkState := by
  unfold sessionNotice
  dsimp only
  repeat' split
  all_goals simp

@[simp] theorem closeRecord_linkState (slot : Nat) (s : State) : (closeRecord slot s).linkState = s.linkState := by
  unfold closeRecord
  split <;> simp

@[simp] theorem setPhase_linkState (k v : Nat) (s : State) : (setPhase k v s).linkState = s.linkState := by simp [setPhase]

@[simp] theorem setReason_linkState (k v : Nat) (s : State) : (setReason k v s).linkState = s.linkState := by simp [setReason]

@[simp] theorem setTimer_linkState (k v : Nat) (s : State) : (setTimer k v s).linkState = s.linkState := by simp [setTimer]

@[simp] theorem ctxSetRole_linkState (k r : Nat) (s : State) : (ctxSetRole k r s).2.linkState = s.linkState := by
  unfold ctxSetRole
  dsimp only
  split
  · rfl
  · simp [putCtx]

@[simp] theorem publish_linkState (p v : Nat) (i : Int) (en : Bool) (s : State) : (publish p v i en s).linkState = s.linkState := by
  unfold publish
  dsimp only
  repeat' split
  all_goals simp

/-- A pilot command, which is a write of a power-die register, leaves them. -/
@[simp] theorem pilWrite_linkState (p : Nat) (v : Word) (s : State) : (powerWrite (pilCommand p v) s).linkState = s.linkState := by
  unfold powerWrite pilCommand
  dsimp only
  repeat' split
  all_goals exact linkState_of_link (by simp [busOk, busFail])

@[simp] theorem toClosing_linkState (slot r : Nat) (b : Bool) (s : State) : (toClosing slot r b s).linkState = s.linkState := by
  unfold toClosing
  dsimp only
  repeat' split
  all_goals simp

@[simp] theorem toStopping_linkState (slot r : Nat) (s : State) : (toStopping slot r s).linkState = s.linkState := by
  unfold toStopping dutyOff setpointOff
  dsimp only
  repeat' split
  all_goals simp

@[simp] theorem endSlot_linkState (slot r : Nat) (s : State) : (endSlot slot r s).linkState = s.linkState := by
  unfold endSlot
  dsimp only
  repeat' split
  all_goals simp

@[simp] theorem openReply_linkState (slot : Nat) (ok : Bool) (serial : Nat) (s : State) :
    (openReply slot ok serial s).linkState = s.linkState := by
  unfold openReply dutyOn
  dsimp only
  repeat' split
  all_goals simp

/-- The sessions that lose the link leave its key and mark, as do those that get it again. -/
theorem sessionsUnlinked_linkState (s : State) : (sessionsUnlinked s).linkState = s.linkState :=
  foldl_keep _ (fun t : State => t.linkState = s.linkState) (fun _ t h => by
    repeat' split
    all_goals simpa using h) _ s rfl

theorem sessionsRelinked_linkState (s : State) : (sessionsRelinked s).linkState = s.linkState :=
  foldl_keep _ (fun t : State => t.linkState = s.linkState) (fun _ t h => by simpa using h) _ s rfl

/-! ### Failure and agreement -/

/-- A failed link leaves both ends without the key, the control end marked failed. -/
theorem linkFail_facts (c : Nat) (s : State) : (linkFail c s).app.link.key = none ∧ (linkFail c s).app.link.failed = true ∧
    (linkFail c s).die.link.key = none := by
  have hdie : ∀ t : State, (if t.die.running then dieLinkFailed c t else t).app.link = t.app.link ∧
      (if t.die.running then dieLinkFailed c t else t).die.link = t.die.link := by
    intro t
    split <;> simp
  unfold linkFail
  dsimp only
  rw [(hdie _).1, (hdie _).2]
  simp only [emcyBoth_same, raise_same, sessionsUnlinked_die, and_true]
  exact Prod.mk.injEq _ _ _ _ ▸ sessionsUnlinked_linkState _

/-- An agreement gives both ends the key derived from the shares and the shared secret. -/
theorem linkAgree_key (s : State) : (linkAgree s).app.link.key = some (BitVec.ofNat 384 (ofLE (linkKeyOf
      (digestBytes (s.used.used.freeBits 384)) s.freePoint s.used.freePoint).reverse)) ∧
    (linkAgree s).die.link.key = (linkAgree s).app.link.key := by
  have hkey : ∀ t : State, (sessionsRelinked (panelsLinked t)).app.link.key = t.app.link.key := fun t =>
    (congrArg Prod.fst (sessionsRelinked_linkState (panelsLinked t))).trans (by simp [State.linkState])
  have hdie : ∀ t : State, (sessionsRelinked (panelsLinked t)).die.link.key = t.die.link.key := fun t => by
    rw [sessionsRelinked_die, panelsLinked_key]
  unfold linkAgree
  dsimp only
  rw [hkey, hdie]
  simp

/-! ### Messages of the control end -/

theorem slQueue_link (l : List LinkMsg) (s : State) : (slQueue l s).app.link = { s.app.link with rx := l } := by simp [slQueue]

/-- The control end takes the next message: it is last in the queue, and the next number is one higher. -/
theorem linkReceive_next (m : LinkMsg) (s : State) (hup : s.endUp .control = true) (hseq : m.seq = s.app.link.rxNext)
    (hroom : s.app.link.rx.length < 32) : (linkReceive .control m true s).app.link.rx = s.app.link.rx ++ [m] ∧
    (linkReceive .control m true s).app.link.rxNext = s.app.link.rxNext + 1 := by
  have hfree : s.app.link.room ≠ 0 := by
    unfold LinkEnd.room
    omega
  obtain ⟨hrx, hnext, -⟩ := linkBeat_rx .control
    (linkTake .control m (linkCount .control 1 1 (s.updLink .control fun e => { e with rxNext := e.rxNext + 1 })))
  simp only [linkReceive, hup, State.linkEnd, hseq, hfree, Bool.not_true, Bool.false_eq_true, if_false, if_true]
  rw [hrx, hnext]
  simp only [linkTake, slQueue_link, linkCount, State.updLink, countEvents_same, and_self]

/-- A message already taken is only acknowledged again. -/
theorem linkReceive_again (m : LinkMsg) (s : State) (hup : s.endUp .control = true) (hseq : m.seq < s.app.link.rxNext) :
    linkReceive .control m true s = linkBeat .control s := by
  simp only [linkReceive, hup, State.linkEnd, Nat.ne_of_lt hseq, hseq, Bool.not_true, Bool.false_eq_true, if_false, if_true]

/-- A message ahead of the next one is dropped. -/
theorem linkReceive_ahead (d : Side) (m : LinkMsg) (s : State) (hup : s.endUp d = true) (hseq : (s.linkEnd d).rxNext < m.seq) :
    linkReceive d m true s = s := by
  simp only [linkReceive, hup, Nat.ne_of_gt hseq, Nat.lt_asymm hseq, Bool.not_true, Bool.false_eq_true, if_false]

theorem slPop_some (port : Nat) (m : LinkMsg) (r : List LinkMsg) (s : State) (hm : slMaster port = true)
    (hrx : s.app.link.rx = m :: r) : slPop port s =
      (if port < 4 then cantleTakes m else id) (busOk 0 (setLevel 456 (!r.isEmpty) { s with app.link.rx := r })) := by
  simp only [slPop, hm, hrx, slQueue, List.drop_one, List.tail_cons, Bool.not_true, Bool.false_eq_true, if_false]
  split <;> rfl

theorem slPop_none (port : Nat) (s : State) (hm : slMaster port = true) (hrx : s.app.link.rx = []) :
    slPop port s = busOk 0 (slQueue [] s) := by
  simp only [slPop, hm, hrx, List.drop_nil, Bool.not_true, Bool.false_eq_true, if_false]

/-! ### The obligation -/

/-- Settles O13: the key and the failure mark of the control end are changed by no session that loses or regains the link. -/
theorem sealedLink : Obligations.SealedLink := by
  unfold Obligations.SealedLink
  refine ⟨?_, ?_, ?_, ?_, ?_, ?_, ?_, ?_, ?_, ?_, ?_, ?_, ?_, ?_, ?_, ?_, ?_, ?_, ?_, ?_, ?_, ?_, ?_⟩
  · rintro m s ⟨hup, hseq, hroom⟩
    exact ⟨_, rfl, linkReceive_next m s hup hseq hroom⟩
  · rintro m s ⟨hup, hseq⟩
    refine ⟨_, rfl, ?_⟩
    rw [linkReceive_again m s hup hseq]
    exact ⟨(linkBeat_rx .control s).1, (linkBeat_rx .control s).2.1⟩
  · rintro side m s ⟨hup, hseq⟩
    exact ⟨_, rfl, linkReceive_ahead side m s hup hseq⟩
  · intro side m macOk s h
    exact ⟨_, rfl, by simp [linkReceive, h]⟩
  · rintro side acked credit s ⟨hup, hle⟩
    refine ⟨_, rfl, ?_⟩
    simp only [linkAck, hup, Nat.not_lt.mpr hle, Bool.not_true, Bool.false_eq_true, if_false]
    rw [(linkFlush_keep side 33 _).1, (linkFlush_keep side 33 _).2.1, linkEnd_upd]
    exact ⟨rfl, rfl⟩
  · rintro side acked credit s ⟨hup, hlt⟩
    exact ⟨_, rfl, by simp [linkAck, hup, hlt]⟩
  · intro side acked credit macOk s h
    exact ⟨_, rfl, by simp [linkAck, h]⟩
  · rintro side s ⟨hkey, hspent⟩
    refine ⟨_, rfl, ?_⟩
    have hnone : (s.linkEnd side).key.isNone = false := by simpa using hkey
    simp only [linkHeart, hspent, Bool.and_false, Bool.false_eq_true, if_false, linkBeat, hnone, linkEnd_upd]
    rfl
  · intro side s h
    exact ⟨_, rfl, by simp [linkHeart, linkBeat, State.endUp, h]⟩
  · rintro side u r s ⟨hun, hlt⟩
    refine ⟨_, rfl, ?_⟩
    simp only [linkResend, hun, Nat.not_le.mpr hlt, if_false, linkCount_end, linkEnd_upd]
  · intro side s h
    exact ⟨_, rfl, by simp [linkResend, h]⟩
  · rintro side u r s ⟨hun, hle⟩
    refine ⟨_, rfl, ?_⟩
    simp only [linkResend, hun, hle, if_true]
    exact linkFail_facts 1 s
  · intro side s h
    refine ⟨_, rfl, ?_⟩
    rw [if_pos h]
    exact linkFail_facts 3 s
  · intro side s h
    exact ⟨_, rfl, if_neg (by simp [h])⟩
  · rintro s ⟨hagree, hreq⟩
    refine ⟨_, rfl, ?_⟩
    simp only [hagree, hreq, Bool.and_true, if_true, linkRequest]
    exact linkAgree_key s
  · rintro s ⟨hagree, hreq⟩
    exact ⟨_, rfl, by simp [hagree, hreq, linkRequest]⟩
  · intro k s h
    exact ⟨_, rfl, if_neg (by simp [h])⟩
  · rintro port v s ⟨hm, hst⟩
    refine ⟨_, rfl, ?_⟩
    simp only [slSend, hm, hst, linkOffer_sl, Bool.not_true, Bool.false_eq_true, if_false, ne_eq, not_true_eq_false]
    simp [State.updSl]
  · rintro port v s ⟨hm, hst⟩
    refine ⟨_, rfl, ?_⟩
    simp only [slSend, hm, hst, Bool.not_true, Bool.false_eq_true, if_false, ne_eq, not_false_eq_true, if_true]
    simp [State.updSl]
  · intro port v s h
    exact ⟨_, rfl, by simp [slSend, h]⟩
  · rintro port m r s ⟨hm, hrx⟩
    exact ⟨_, rfl, slPop_some port m r s hm hrx⟩
  · rintro port s ⟨hm, hrx⟩
    refine ⟨_, rfl, ?_⟩
    rw [slPop_none port s hm hrx]
    simp [slQueue_link]
  · intro port s h
    exact ⟨_, rfl, by simp [slPop, h]⟩

end Sys2Proof.Machine
end

section
/-!
SUPPORT. Proofs about the safety lane (01 R15; 03 R73).
-/
set_option Elab.async false
namespace Sys2Proof.Machine

/-- What the release of the safe state needs (03 R73). -/
theorem mayReleaseSafe_iff (s : State) : s.mayReleaseSafe = true ↔ s.bridleRuns = true ∧ s.power.safe = true ∧
    s.power.clkOk = true ∧ s.power.report = false ∧ 10 ≤ s.power.hbRun := by
  simp [State.mayReleaseSafe, and_assoc]

theorem safeIfNot_off (s : State) (h : s.power.safe = false) (x : Nat) (hx : x < 96) :
    outIsOn ((safeIfNot s).out x) = false := by
  unfold safeIfNot
  rw [if_neg (by simp [h])]
  exact (safeEnter_flag s).2.2 x hx

/-- Settles O14. -/
theorem safetyLane : Obligations.SafetyLane := by
  unfold Obligations.SafetyLane
  refine ⟨?_, ?_, ?_, ?_, ?_, ?_, ?_, ?_, ?_, ?_, ?_, ?_, ?_, ?_⟩
  · rintro s ⟨hclk, hhb⟩
    exact ⟨_, rfl, by simp [heartbeat, hclk, hhb]⟩
  · rintro s ⟨hclk, hhb⟩
    exact ⟨_, rfl, by simp [heartbeat, hclk, hhb]⟩
  · intro crcOk s h
    exact ⟨_, rfl, by simp [heartbeat, h]⟩
  · intro s h
    refine ⟨_, rfl, ?_⟩
    rw [if_pos h]
    exact ⟨(safeIfNot_flag s).1, (safeIfNot_flag s).2, safeIfNot_off s⟩
  · intro s h
    exact ⟨_, rfl, if_neg (by simp [h])⟩
  · rintro s ⟨hrun, hrep, hclk⟩
    exact ⟨_, rfl, if_pos (by simp [hrun, hrep, hclk])⟩
  · intro s h
    refine ⟨_, rfl, if_neg ?_⟩
    rcases h with h | h | h <;> simp [h]
  · intro s h
    refine ⟨_, rfl, ?_⟩
    rw [if_pos ((mayReleaseSafe_iff s).mpr h)]
    exact ⟨rfl, fun _ => rfl, rfl, rfl⟩
  · intro s h
    exact ⟨_, rfl, if_neg (by simp [h])⟩
  · intro crcOk c s h
    exact ⟨_, rfl, if_neg (by simp [h])⟩
  · intro c s h
    exact ⟨_, rfl, if_pos (by simp [h])⟩
  · intro x s h
    refine ⟨_, rfl, ?_⟩
    rw [if_pos (by simp [h])]
    exact outHold_off x s
  · intro n b on s h
    refine ⟨_, rfl, ?_⟩
    cases b <;> simp [safetyCommand, stoLane, h]
  · intro k s h
    refine ⟨_, rfl, ?_⟩
    rw [if_pos (by simp [h])]
    simp [safetyCommand, seqSet]

end Sys2Proof.Machine
end

section
/-!
SUPPORT. Proofs about the application lane and the power die's clock and reset (01 R12, R13; 03 R73, R74).
-/
set_option Elab.async false
namespace Sys2Proof.Machine

/-- A bad frame counts, and from the third in a row the lane's fault flag is set. -/
theorem laneFault_lane (s : State) : (laneFault s).app.lane = { s.app.lane with fault := true } := by simp [laneFault]

theorem laneArrives_bad (c : LaneCmd) (s : State) (hclk : s.power.clkOk = true) : (laneArrives false c s).power = s.power ∧
    (laneArrives false c s).app.lane.repReq = min 3 (s.app.lane.repReq + 1) ∧
    (2 ≤ s.app.lane.repReq → (laneArrives false c s).app.lane.fault = true) := by
  simp only [laneArrives, hclk, Bool.not_true, Bool.false_eq_true, if_false]
  split
  · exact ⟨laneFault_power _, by rw [laneFault_lane], fun _ => by rw [laneFault_lane]⟩
  · next hfew => exact ⟨rfl, rfl, fun hmany => absurd hmany (by omega)⟩

theorem laneArrives_good (c : LaneCmd) (s : State) (hclk : s.power.clkOk = true) :
    laneArrives true c s = laneCommand c { s with app.lane.repReq := 0 } := by
  simp [laneArrives, hclk]

theorem laneEvent_bad (src : Nat) (s : State) (hrst : s.inReset = false) (hclk : s.power.clkOk = true) :
    (laneEvent false src s).app.lane.badRx = min 3 (s.app.lane.badRx + 1) ∧
    (2 ≤ s.app.lane.badRx → (laneEvent false src s).app.lane.fault = true) ∧ (laneEvent false src s).power = s.power := by
  simp only [laneEvent, hrst, hclk, Bool.not_true, Bool.or_false, Bool.false_eq_true, if_false]
  split
  · exact ⟨by rw [laneFault_lane], fun _ => by rw [laneFault_lane], laneFault_power _⟩
  · next hfew => exact ⟨rfl, fun hmany => absurd hmany (by omega), rfl⟩

theorem laneEvent_good (src : Nat) (s : State) (hrst : s.inReset = false) (hclk : s.power.clkOk = true) :
    laneEvent true src s = laneRaise src { s with app.lane.badRx := 0 } := by
  simp [laneEvent, hrst, hclk]

theorem seqSet_latch (k : Nat) (d2 v : Bool) (s : State) (hfit : (s.obj.unfit.get 7).getLsbD k = false) :
    (if d2 then ((seqSet k d2 v s).power.seq.get k).d2 else ((seqSet k d2 v s).power.seq.get k).d1) =
      (v && !s.power.safe) := by
  simp only [seqSet, hfit, Bool.and_false, Bool.false_eq_true, if_false, Bank.get_upd_same]
  cases d2 <;> rfl

/-- The failed clock leaves the power die in its safe state, unreported, with no run of heartbeats. -/
theorem powerClockFail_facts (s : State) : (powerClockFail s).power.safe = true ∧ (powerClockFail s).power.clkOk = false ∧
    (powerClockFail s).power.report = false ∧ (powerClockFail s).power.hbRun = 0 := by
  have hsafe : (if s.power.safe then s else safeLatches s).power.safe = true := by
    split
    · next h => exact h
    · exact (safeLatches_flag s).1
  exact ⟨hsafe, rfl, rfl, rfl⟩

/-- The reset power die is in its safe state with every channel off. -/
theorem powerDieReset_facts (s : State) : (powerDieReset s).power.safe = true ∧
    (∀ x, x < 96 → outIsOn ((powerDieReset s).out x) = false) ∧ (powerDieReset s).die = s.die ∧
    (powerDieReset s).app.mem = s.app.mem ∧ (powerDieReset s).app.clk = s.app.clk := by
  refine ⟨?_, fun x hx => ?_, ?_, ?_, ?_⟩
  · simp [powerDieReset, safeReport_keep]
  · rw [powerDieReset, safeReport_out, girthEnd_out, girthWithdraw_out]
    simp only [State.out, Bank.get_empty]
    split <;> rfl
  · simp [powerDieReset]
  · simp [powerDieReset, safeReport]
  · simp [powerDieReset, safeReport]

/-- Settles O15. -/
theorem applicationLaneAndPowerDie : Obligations.ApplicationLaneAndPowerDie := by
  unfold Obligations.ApplicationLaneAndPowerDie
  refine ⟨?_, ?_, ?_, ?_, ?_, ?_, ?_, ?_, ?_, ?_, ?_⟩
  · intro c s h
    exact ⟨_, rfl, laneArrives_bad c s h⟩
  · intro c s h
    exact ⟨_, rfl, laneArrives_good c s h⟩
  · intro crcOk c s h
    exact ⟨_, rfl, by simp [laneArrives, h]⟩
  · rintro k d2 v s ⟨hclk, hfit⟩
    refine ⟨_, rfl, ?_⟩
    rw [laneArrives_good _ _ hclk]
    exact seqSet_latch k d2 v { s with app.lane.repReq := 0 } hfit
  · rintro src s ⟨hrst, hclk⟩
    exact ⟨_, rfl, laneEvent_bad src s hrst hclk⟩
  · rintro src s ⟨hrst, hclk⟩
    refine ⟨_, rfl, ?_⟩
    rw [laneEvent_good _ _ hrst hclk]
    simp
  · intro crcOk src s h
    exact ⟨_, rfl, by simp [laneEvent, h]⟩
  · intro s
    exact ⟨_, rfl, powerClockFail_facts s⟩
  · intro s h
    exact ⟨_, rfl, by simp [safeReport, h]⟩
  · intro s h
    exact ⟨_, rfl, by simp [h]⟩
  · intro s
    exact ⟨_, rfl, powerDieReset_facts s⟩

end Sys2Proof.Machine
end

section
/-!
SUPPORT. Proofs about pilot commands, wakes and period starts (07 R142 to R150).
-/
set_option Elab.async false
namespace Sys2Proof.Machine

/-- A command that is accepted waits for the next period start. -/
theorem pilCommand_accepted (p : Nat) (v : Word) (s : State) (hclk : s.power.clkOk = true) (hsafe : s.power.safe = false)
    (hheld : (s.pil p).held = false) (hblk : s.blocked p = false)
    (hduty : BitVec.ofNat 2 (fld v 0 2) = 2 → dutyOk (BitVec.ofNat 10 (fld v 4 10)).toNat = true) :
    ((pilCommand p v s).pil p).pend = some (BitVec.ofNat 2 (fld v 0 2), BitVec.ofNat 10 (fld v 4 10)) ∧
    ((pilCommand p v s).pil p).modeAct = (s.pil p).modeAct ∧ ((pilCommand p v s).pil p).dutyAct = (s.pil p).dutyAct := by
  have hok : ¬((decide (BitVec.ofNat 2 (fld v 0 2) = 2) && !dutyOk (BitVec.ofNat 10 (fld v 4 10)).toNat) = true) := by
    simpa using hduty
  simp only [pilCommand, hclk, hheld, hblk, hsafe, hok, Bool.not_true, Bool.or_self, Bool.false_eq_true, if_false,
    pil_updPil_same]
  split <;> exact ⟨rfl, rfl, rfl⟩

/-- A command to a held or blocked point only sets its event. -/
theorem pilCommand_barred (p : Nat) (v : Word) (s : State) (h : (s.pil p).held = true ∨ s.blocked p = true) :
    ((pilCommand p v s).pil p).pend = (s.pil p).pend ∧ ((pilCommand p v s).pil p).modeAct = (s.pil p).modeAct := by
  have hbar : ((s.pil p).held || s.blocked p) = true := by simpa using h
  simp only [pilCommand, hbar, if_true]
  split
  · exact ⟨rfl, rfl⟩
  · rw [pilEvt_pil, if_pos rfl]
    exact ⟨rfl, rfl⟩

/-- The masks of both halves are a whole word. -/
theorem wRW_all (old v : Word) : wRW (mask 16 16 ||| mask 0 16) old v = v := by
  have hmask : mask 16 16 ||| mask 0 16 = BitVec.allOnes 32 := by decide
  rw [wRW, hmask, BitVec.and_allOnes]
  simp

/-- Settles O16. -/
theorem pilotCommands : Obligations.PilotCommands := by
  unfold Obligations.PilotCommands
  refine ⟨?_, ?_, ?_, ?_, ?_, ?_, ?_, ?_, ?_⟩
  · rintro p v s ⟨hbit, hclk, hsafe, hheld, hblk, hduty⟩
    refine ⟨_, rfl, ?_⟩
    rw [if_neg (by simp [hbit])]
    exact pilCommand_accepted p v s hclk hsafe hheld hblk hduty
  · rintro p v s ⟨hbit, hbar⟩
    refine ⟨_, rfl, ?_⟩
    rw [if_neg (by simp [hbit])]
    exact pilCommand_barred p v s hbar
  · rintro p v s ⟨hbit, hclk, hed, hmode, hheld, hblk⟩
    refine ⟨_, rfl, ?_⟩
    rw [if_pos hbit]
    simp [pilWakeReq, hclk, hed, hmode, hheld, hblk, modeAct_pilMode]
  · intro s h
    exact ⟨_, rfl, by simp [h]⟩
  · rintro s ⟨hclk, hsafe⟩
    refine ⟨_, rfl, ?_⟩
    rw [if_pos hclk]
    exact fun p hp hu hheld hdis hwake hpend => period_x1 s hsafe p hp hu hheld hdis hwake hpend
  · intro p s h
    refine ⟨_, rfl, ?_⟩
    rw [if_neg (by simp [h])]
    rw [pilEvt_pil, if_pos rfl, pil_updPil_same]
    exact ⟨rfl, (modeAct_pilMode _ _).1, bit_setEvt _ (by decide)⟩
  · rintro n s ⟨hrst, hclk⟩
    exact ⟨_, rfl, by simp_all [State.inReset]⟩
  · rintro p v s ⟨hclk, hw, hr⟩
    refine ⟨_, rfl, ?_⟩
    rw [if_neg (by simp [hclk]), if_pos rfl]
    simp [pilRsrcWrite, hw, hr, wRW_all]
  · intro port p s h
    exact ⟨_, rfl, by simp [pilTsRead, State.pil, busOk, h]⟩

end Sys2Proof.Machine
end

section
/-!
SUPPORT. Proofs about what pilot plateaus, off-wait and proximity measurements lead to (07 R151 to R167).
-/
set_option Elab.async false
namespace Sys2Proof.Machine

/-- A second window with the E/F condition puts the point into FAULT_EF; the Bridle hears of it by its own frame. -/
theorem pilPositive_ef (p : Nat) (mv : List Int) (s : State) (hskip : (s.pil p).skipPos = false)
    (hef : efCond (pilEd17 (s.pil p)) mv = true) (hrun : 1 ≤ (s.pil p).efRun) :
    ((pilPositive p mv s).pil p).st = .faultEf ∧ (pilPositive p mv s).bridle = s.bridle := by
  have h2 : 2 ≤ (s.pil p).efRun + 1 := by omega
  simp only [pilPositive, hskip, hef, h2, decide_true, Bool.and_self, Bool.false_eq_true, if_false, if_true]
  refine ⟨pilFault_st _ _ _ _ _, ?_⟩
  rw [pilFault_bridle, updPil_same_bridle]
  split
  · exact countPt_bridle _ _ _
  · rfl

/-- A third equal result of another state puts the point into it. -/
theorem pilPositive_third (p : Nat) (mv : List Int) (s : State) (hskip : (s.pil p).skipPos = false)
    (hef : efCond (pilEd17 (s.pil p)) mv = false) (hr : within 2 (posResult (pilEd17 (s.pil p)) mv) 6 = true)
    (hcand : (s.pil p).cand = posResult (pilEd17 (s.pil p)) mv) (hrun : 2 ≤ (s.pil p).candRun)
    (hnew : posState (posResult (pilEd17 (s.pil p)) mv) ≠ (s.pil p).st) :
    ((pilPositive p mv s).pil p).st = posState (posResult (pilEd17 (s.pil p)) mv) := by
  have h3 : 3 ≤ (s.pil p).candRun + 1 := by omega
  simp only [pilPositive, hskip, hef, hr, hcand, hnew, h3, Bool.false_and, Bool.and_true, decide_true, ne_eq,
    not_false_eq_true, Bool.false_eq_true, if_false, if_true]
  exact (pilGo_st _ _ _).1

/-- A second bad negative window in X2 puts the point into FAULT_NEG. -/
theorem pilNegative_second (p : Nat) (mv : List Int) (s : State) (hmode : (s.pil p).modeAct = 2)
    (hskip : (s.pil p).skipNeg = false) (hbad : fiveOf (fun v => bandOf (pilEd17 (s.pil p)) v = .f) mv = false)
    (hrun : 1 ≤ (s.pil p).negRun) : ((pilNegative p mv s).pil p).st = .faultNeg := by
  have h2 : 2 ≤ (s.pil p).negRun + 1 := by omega
  simp only [pilNegative, hmode, hskip, hbad, h2, ne_eq, not_true_eq_false, Bool.not_false, Bool.and_self, decide_true,
    Bool.false_eq_true, if_false, if_true]
  exact pilFault_st _ _ _ _ _

/-- A third equal new class is taken. -/
theorem proxMeasure_third (p : Nat) (v1 v2 : Int) (s : State) (hform : pilForm (s.pil p) ≠ 0)
    (hcand : (s.pil p).pcand = proxClass (s.pil p) (v1 - v2)) (hnew : proxClass (s.pil p) (v1 - v2) ≠ (s.pil p).cls)
    (hrun : 2 ≤ (s.pil p).prun) : ((proxMeasure p v1 v2 s).pil p).cls = proxClass (s.pil p) (v1 - v2) := by
  have h3 : 3 ≤ (s.pil p).prun + 1 := by omega
  simp only [proxMeasure, hform, ← hcand, if_false, if_true]
  simp only [hcand, hnew, h3, if_false, if_true, pilEvt_pil, pil_updPil_same]

/-- A fault frame gives the point the hold cause PILOT and leaves every other point. -/
theorem pilotFaultFrame_run (p : Nat) (s : State) (hrun : s.bridleRuns = true) :
    (pilotFaultFrame p s).holds p .pilot = true ∧ ∀ q, p ≠ q → (pilotFaultFrame p s).bp q = s.bp q := by
  simp only [pilotFaultFrame, hrun, Bool.not_true, Bool.false_eq_true, if_false]
  refine ⟨setCause_holds _ _ _, fun q hq => ?_⟩
  rw [setCause_hold, if_neg hq, State.bp, updBp_get, if_neg hq]
  rfl

/-- Settles O17. -/
theorem pilotFaultsAndProximity : Obligations.PilotFaultsAndProximity := by
  unfold Obligations.PilotFaultsAndProximity
  refine ⟨?_, ?_, ?_, ?_, ?_, ?_, ?_, ?_, ?_⟩
  · rintro p w s ⟨hclk, hj, hskip, hef, hrun⟩
    refine ⟨_, rfl, ?_⟩
    simp only [hclk, hj, Bool.not_true, Bool.or_self, Bool.false_eq_true, if_false]
    exact pilPositive_ef p _ s hskip hef hrun
  · rintro p w s ⟨hclk, hj, hskip, hef, hr, hcand, hrun, hnew⟩
    refine ⟨_, rfl, ?_⟩
    simp only [hclk, hj, Bool.not_true, Bool.or_self, Bool.false_eq_true, if_false]
    exact pilPositive_third p _ s hskip hef hr hcand hrun hnew
  · rintro p w s ⟨hclk, hj, hmode, hskip, hbad, hrun⟩
    refine ⟨_, rfl, ?_⟩
    simp only [hclk, hj, Bool.not_true, Bool.or_self, Bool.false_eq_true, if_false, if_true]
    exact pilNegative_second p _ s hmode hskip hbad hrun
  · intro p c s h
    exact ⟨_, rfl, pilotFaultFrame_run p s h⟩
  · intro p c s h
    exact ⟨_, rfl, by simp [pilotFaultFrame, h]⟩
  · intro p neg w s h
    refine ⟨_, rfl, if_pos ?_⟩
    simpa using h
  · rintro p s ⟨hmode, hst, hoff⟩
    refine ⟨_, rfl, ?_⟩
    rw [if_pos (by simp [hmode, hst, hoff]), pilEvt_pil, if_pos rfl, pil_updPil_same]
    exact ⟨rfl, bit_setEvt _ (by decide)⟩
  · intro p v1 v2 s h
    exact ⟨_, rfl, by simp [proxMeasure, h]⟩
  · rintro p v1 v2 s ⟨hform, hcand, hnew, hrun⟩
    exact ⟨_, rfl, proxMeasure_third p v1 v2 s hform hcand hnew hrun⟩

end Sys2Proof.Machine
end

section
/-!
SUPPORT. Proofs about residual-current windows and insulation channels (14 R349 to R363; 15 R383).
-/
set_option Elab.async false
namespace Sys2Proof.Machine

/-! ### Events change no other field of their channel -/

/-- An event of a residual-current input changes its event bits only. -/
@[simp] theorem rcEvt_self (n i : Nat) (s : State) : ((rcEvt n i s).power.rc.get n).st = (s.power.rc.get n).st ∧
    ((rcEvt n i s).power.rc.get n).trips = (s.power.rc.get n).trips ∧
    ((rcEvt n i s).power.rc.get n).runs = (s.power.rc.get n).runs ∧
    ((rcEvt n i s).power.rc.get n).cfg = (s.power.rc.get n).cfg := by
  rw [rcEvt_rc, if_pos rfl]
  exact ⟨rfl, rfl, rfl, rfl⟩

/-- An event of an insulation channel changes its event bits only. -/
@[simp] theorem imEvt_self (k i : Nat) (s : State) : ((imEvt k i s).power.im.get k).st = (s.power.im.get k).st ∧
    ((imEvt k i s).power.im.get k).en = (s.power.im.get k).en ∧
    ((imEvt k i s).power.im.get k).pause = (s.power.im.get k).pause := by
  rw [imEvt_im, if_pos rfl]
  exact ⟨rfl, rfl, rfl⟩

/-! ### Residual-current windows -/

theorem rcEnd_decided (n : Nat) (u : Int) (r row : Nat) (s : State) (hen : bit (s.power.rc.get n).cfg 0 = true)
    (htrip : rcTripped (s.power.rc.get n) = false)
    (hrow : rcDecides (rcRows (s.power.rc.get n).cfg (rcWindow u r))
      (rcRuns (rcRows (s.power.rc.get n).cfg (rcWindow u r)) (s.power.rc.get n).runs) 0 = some row) :
    ((rcEnd n u r s).power.rc.get n).st = rcTripState row ∧
    ((rcEnd n u r s).power.rc.get n).trips = stick 65535 (s.power.rc.get n).trips 1 := by
  simp only [rcEnd, hen, htrip, hrow, Bool.not_true, Bool.false_eq_true, if_false, rcEvt_self, updRc_get, if_true,
    and_self]

theorem rcEnd_undecided (n : Nat) (u : Int) (r : Nat) (s : State) (hen : bit (s.power.rc.get n).cfg 0 = true)
    (htrip : rcTripped (s.power.rc.get n) = false)
    (hrow : rcDecides (rcRows (s.power.rc.get n).cfg (rcWindow u r))
      (rcRuns (rcRows (s.power.rc.get n).cfg (rcWindow u r)) (s.power.rc.get n).runs) 0 = none) :
    ((rcEnd n u r s).power.rc.get n).st = if rcLow (s.power.rc.get n).cfg (rcWindow u r) then 1 else 2 := by
  simp only [rcEnd, hen, htrip, hrow, Bool.not_true, Bool.false_eq_true, if_false]
  split <;> simp only [rcEvt_self, updRc_get, if_true]

theorem rcEnd_tripped (n : Nat) (u : Int) (r : Nat) (s : State) (h : rcTripped (s.power.rc.get n) = true ∨
    bit (s.power.rc.get n).cfg 0 = false) : ((rcEnd n u r s).power.rc.get n).st = (s.power.rc.get n).st ∧
    ((rcEnd n u r s).power.rc.get n).trips = (s.power.rc.get n).trips := by
  by_cases hen : bit (s.power.rc.get n).cfg 0 = true
  · have htrip : rcTripped (s.power.rc.get n) = true := h.resolve_right (by simp [hen])
    simp only [rcEnd, hen, htrip, Bool.not_true, Bool.false_eq_true, if_false, if_true, updRc_get, and_self]
  · simp [rcEnd, hen]

theorem rcClear_done (n : Nat) (s : State) (htrip : rcTripped (s.power.rc.get n) = true) (hlow : (s.power.rc.get n).low = 5)
    (hin : (s.power.rc.get n).inRange = true) : ((rcClear n s).power.rc.get n).st = 1 ∧
    ((rcClear n s).power.rc.get n).runs = [0, 0, 0, 0, 0, 0] := by
  simp [rcClear, htrip, hlow, hin]

theorem rcClear_early (n : Nat) (s : State) (h : (s.power.rc.get n).low ≠ 5 ∨ (s.power.rc.get n).inRange = false) :
    ((rcClear n s).power.rc.get n).st = (s.power.rc.get n).st ∧
    ((rcClear n s).power.rc.get n).runs = (s.power.rc.get n).runs := by
  have hno : ¬(rcTripped (s.power.rc.get n) && (s.power.rc.get n).low = 5 && (s.power.rc.get n).inRange) = true := by
    rcases h with h | h <;> simp [h]
  simp only [rcClear, hno, Bool.false_eq_true, if_false, rcEvt_self, and_self]

/-- A configuration write of 0 clears the enable bit, whatever fields of it are taken. -/
theorem bit_wRW_zero (m old : Word) : bit (wRW (m ||| 1) old 0) 0 = false := by
  simp [bit, wRW]

theorem rcCfgWrite_zero (n : Nat) (s : State) (htrip : rcTripped (s.power.rc.get n) = false) :
    bit ((rcCfgWrite n 0 s).power.rc.get n).cfg 0 = false ∧ ((rcCfgWrite n 0 s).power.rc.get n).st = 0 := by
  unfold rcCfgWrite
  simp only [htrip, Bool.false_eq_true, if_false]
  split <;> simp only [rcEvt_self, updRc_get, if_true, bit_wRW_zero, Bool.false_eq_true, if_false, and_self]

/-! ### The obligation -/

/-- Settles O18: an event of a channel changes no field that the clauses speak of. -/
theorem earthSupervision : Obligations.EarthSupervision := by
  unfold Obligations.EarthSupervision
  refine ⟨?_, ?_, ?_, ?_, ?_, ?_, ?_, ?_, ?_, ?_, ?_, ?_, ?_, ?_, ?_, ?_, ?_, ?_, ?_⟩
  · rintro n u r row s ⟨hen, htrip, hrow⟩
    exact ⟨_, rfl, rcEnd_decided n u r row s hen htrip hrow⟩
  · rintro n u r s ⟨hen, htrip, hrow⟩
    exact ⟨_, rfl, rcEnd_undecided n u r s hen htrip hrow⟩
  · intro n u r s h
    exact ⟨_, rfl, rcEnd_tripped n u r s h⟩
  · rintro n s ⟨hlane, hclk, htrip, hlow, hin⟩
    refine ⟨_, rfl, ?_⟩
    rw [powerWrite_ok _ _ hlane hclk]
    exact rcClear_done n s htrip hlow hin
  · rintro n s ⟨hlane, hclk, h⟩
    refine ⟨_, rfl, ?_⟩
    rw [powerWrite_ok _ _ hlane hclk]
    exact rcClear_early n s h
  · rintro n v s ⟨hlane, hclk, htrip⟩
    refine ⟨_, rfl, ?_⟩
    rw [powerWrite_ok _ _ hlane hclk]
    simp [rcCfgWrite, htrip]
  · rintro n s ⟨hlane, hclk, htrip⟩
    refine ⟨_, rfl, ?_⟩
    rw [powerWrite_ok _ _ hlane hclk]
    exact rcCfgWrite_zero n s htrip
  · intro k vp vn span s h
    exact ⟨_, rfl, by simp [imHalf, h]⟩
  · rintro k vp vn span s ⟨hinj, hplat⟩
    exact ⟨_, rfl, by simp [imHalf, hinj, hplat]⟩
  · rintro k s ⟨hlane, hclk, hst⟩
    refine ⟨_, rfl, ?_⟩
    rw [powerWrite_ok _ _ hlane hclk]
    simp [imEnable, imStart, hst]
  · rintro k s ⟨hlane, hclk, hst⟩
    refine ⟨_, rfl, ?_⟩
    rw [powerWrite_ok _ _ hlane hclk]
    simp [imDisable, imStart, hst]
  · rintro k s ⟨hlane, hclk, hst⟩
    refine ⟨_, rfl, ?_⟩
    rw [powerWrite_ok _ _ hlane hclk]
    simp [imDisable, hst]
  · rintro k s ⟨hlane, hclk, hst⟩
    refine ⟨_, rfl, ?_⟩
    rw [powerWrite_ok _ _ hlane hclk]
    by_cases hoff : (s.power.im.get k).st = .off
    · simp [imPause, hoff]
    by_cases hp : (s.power.im.get k).st = .paused
    · simp [imPause, hp]
    · simp [imPause, imStart, hst, hoff, hp]
  · rintro k s ⟨hlane, hclk⟩
    refine ⟨_, rfl, ?_⟩
    rw [powerWrite_ok _ _ hlane hclk]
    by_cases hp : (s.power.im.get k).st = .paused <;> simp [imResume, imStart, hp]
  · rintro k s ⟨hlane, hclk, hst, hlen, hall⟩
    refine ⟨_, rfl, ?_⟩
    rw [powerWrite_ok _ _ hlane hclk]
    simp only [imClear, hst, hlen, hall, decide_true, Bool.and_self, if_true, busOk_same, imEvt_self, updIm_get]
  · rintro k s ⟨hlane, hclk, hlen⟩
    refine ⟨_, rfl, ?_⟩
    rw [powerWrite_ok _ _ hlane hclk]
    simp [imClear, hlen]
  · intro u s h
    exact ⟨_, rfl, by simp [earthFrame, h]⟩
  · intro k s h
    exact ⟨_, rfl, by simp [earthFrame, h]⟩
  · intro n s h
    refine ⟨_, rfl, ?_⟩
    simp only [earthFrame, h, Bool.not_true, Bool.false_eq_true, if_false]
    refine ⟨setCause_holds _ _ _, ?_⟩
    rw [setCause_hold, if_pos rfl, State.bp, updBp_get, if_pos rfl]

end Sys2Proof.Machine
end

section
/-!
SUPPORT. Proofs about Bridle faults and the Bridle's start (03 R66 to R72; 15 R364 to R370).
-/
set_option Elab.async false
namespace Sys2Proof.Machine

/-- A fault in LOAD, in SAFE or in the Bridle's own reset changes nothing. -/
theorem bridleFault_ignored (k : Nat) (s : State) (h : s.bridle.st = .load ∨ s.bridle.st = .safe ∨ s.bridle.inReset = true) :
    bridleFault k s = s := by
  unfold bridleFault
  rw [if_pos (by simpa [or_assoc] using h)]

theorem bridleSafe_facts (k : Nat) (s : State) : (bridleSafe k s).bridle.st = .safe ∧ (bridleSafe k s).bridle.cause = k ∧
    (bridleSafe k s).bridle.safeNLow = true ∧ (bridleSafe k s).bridle.hbOn = false ∧
    (bridleSafe k s).bridle.oscFail = s.bridle.oscFail ∧ (bridleSafe k s).bridle.cfg = s.bridle.cfg := by
  simp [bridleSafe]

/-- With no sealed slot the loaded configuration runs when it is in range. -/
theorem bridleRelease_unsealed (s : State) (hst : s.bridle.st = .load) (hload : s.bridle.loaded = true)
    (hslot : s.safeSlot = none) : (bridleRelease true s).bridle.st = (if cfgInRange s.bridle.cfgBytes then .run else .safe) ∧
    (bridleRelease true s).bridle.hbOn = cfgInRange s.bridle.cfgBytes ∧
    (bridleRelease true s).bridle.cfg =
      (if cfgInRange s.bridle.cfgBytes then some (parseCfg s.bridle.cfgBytes) else s.bridle.cfg) := by
  have hrel : bridleRelease true s = if cfgInRange s.bridle.cfgBytes then
      bridleRun (parseCfg s.bridle.cfgBytes) true 0 { s with bridle.st := .verify }
      else bridleSafe 5 { s with bridle.st := .verify } := by
    unfold bridleRelease
    rw [if_neg (by simp [hst]), if_neg (by simp [hload])]
    simp only [hslot]
    rfl
  rw [hrel]
  by_cases hok : cfgInRange s.bridle.cfgBytes = true
  · obtain ⟨hrun, hhb, -, hcfg⟩ := run_facts (parseCfg s.bridle.cfgBytes) true 0 { s with bridle.st := .verify }
    rw [if_pos hok, if_pos hok, if_pos hok, hok]
    exact ⟨hrun, hhb, hcfg⟩
  · obtain ⟨hsafe, -, -, hhb, -, hcfg⟩ := bridleSafe_facts 5 { s with bridle.st := .verify }
    rw [if_neg hok, if_neg hok, if_neg hok, eq_false_of_ne_true hok]
    exact ⟨hsafe, hhb, hcfg⟩

/-- Taking the waiting reclaims leaves the state, the heartbeat and the configuration. -/
theorem takeReclaims_run (s : State) : (takeReclaims s).bridle.st = s.bridle.st ∧
    (takeReclaims s).bridle.hbOn = s.bridle.hbOn ∧ (takeReclaims s).bridle.cfg = s.bridle.cfg := by
  obtain ⟨x, y, h⟩ := takeReclaims_eq s
  rw [h]
  exact ⟨rfl, rfl, rfl⟩

/-- A restart with good code and configuration runs again, and every point with a coil channel carries RESTART. -/
theorem bridleRestart_good (s : State) (hrst : s.bridle.inReset = true) (hcfg : s.bridle.cfg.isNone = false) :
    (bridleRestart true true s).bridle.st = .run ∧ (bridleRestart true true s).bridle.hbOn = true ∧
    ∀ p, p < 64 → ((bridleRestart true true s).ptCfg p).coil ≠ 0xFF → (bridleRestart true true s).holds p .restart = true := by
  simp only [bridleRestart, hrst, hcfg, Bool.not_true, Bool.false_eq_true, if_false, bridleStatus_parts, bs_ptCfg, bs_holds]
  obtain ⟨hst, hhb, -, hhold⟩ := restart_facts (List.range 64) _ _ rfl
  rw [hst, hhb, (begin_facts _ _).1, (begin_facts _ _).2]
  refine ⟨?_, ?_, fun p hp => hhold p (List.mem_range.mpr hp)⟩ <;> simp [note]

/-- Settles O19. -/
theorem bridleFaultsAndStart : Obligations.BridleFaultsAndStart := by
  unfold Obligations.BridleFaultsAndStart
  refine ⟨?_, ?_, ?_, ?_, ?_, ?_, ?_, ?_, ?_, ?_, ?_, ?_, ?_⟩
  · rintro s ⟨hst, hload, hslot⟩
    refine ⟨_, rfl, ?_⟩
    obtain ⟨h1, h2, h3⟩ := takeReclaims_run (bridleRelease true s)
    rw [h1, h2, h3]
    exact bridleRelease_unsealed s hst hload hslot
  · rintro k s ⟨hst, hload⟩
    exact ⟨_, rfl, by simp [takeReclaims, bridleRelease, State.bridleDeaf, hst, hload]⟩
  · intro k s h
    refine ⟨_, rfl, ?_⟩
    rw [bridleRelease, if_pos h]
  · intro s h
    exact ⟨_, rfl, fault_facts 1 s h⟩
  · intro s h
    exact ⟨_, rfl, fault_facts 2 s h⟩
  · intro s h
    exact ⟨_, rfl, fault_facts 6 s h⟩
  · intro s h
    exact ⟨_, rfl, fault_facts 3 s h⟩
  · intro s
    exact ⟨_, rfl, rfl⟩
  · intro s
    exact ⟨_, rfl, rfl⟩
  · intro s h
    exact ⟨_, rfl, bridleFault_ignored 1 s h⟩
  · intro s h
    exact ⟨_, rfl, bridleFault_ignored 2 s h⟩
  · intro s
    obtain ⟨hst, hcause, hlow, hhb, hosc, -⟩ := bridleSafe_facts 7 { s with bridle.oscFail := true, bridle.inReset := false }
    exact ⟨_, rfl, hst, hcause, hlow, hhb, hosc⟩
  · rintro s ⟨hrst, hcfg⟩
    exact ⟨_, rfl, bridleRestart_good s hrst hcfg⟩

end Sys2Proof.Machine
end

section
/-!
SUPPORT. Proofs about contact mirrors, stuck test pulses and safety inputs (15 R371 to R381).
-/
set_option Elab.async false
namespace Sys2Proof.Machine

/-! ### Mirrors -/

/-- Outside RUN a mirror changes nothing; in RUN its changed state is taken and checked. -/
theorem execMirrorChange_run (p : Fin 64) (high : Bool) (s : State) (h : s.bridleRuns = true) :
    execMirrorChange p high s = .next (
      if (s.bp p).mirror = (mainOpen (s.ptCfg p) high && !s.bridle.mirBad.getLsbD p) then s
      else mirrorCheck p (s.updBp p fun b =>
        { b with mirror := mainOpen (s.ptCfg p) high && !s.bridle.mirBad.getLsbD p })) := by
  unfold execMirrorChange
  rw [if_neg (by simp [h])]

/-- A mirror that the point's configuration, its coil and its own last state make a fault sets the hold cause. -/
theorem mirrorCheck_weld (p : Nat) (s : State) (hsup : (s.ptCfg p).supervised = true) (hcoil : s.coilOn p = false)
    (hmir : (s.bp p).mirror = false) : (mirrorCheck p s).holds p .weld = true := by
  simp only [mirrorCheck, hsup, hcoil, hmir, Bool.not_true, Bool.not_false, Bool.false_eq_true, if_false, if_true]
  exact setCause_holds _ _ _

theorem mirrorCheck_drop (p : Nat) (s : State) (hsup : (s.ptCfg p).supervised = true) (hcoil : s.coilOn p = true)
    (hmir : (s.bp p).mirror = true) (hseen : (s.bp p).seenClosed = true) : (mirrorCheck p s).holds p .drop = true := by
  simp only [mirrorCheck, hsup, hcoil, hmir, hseen, Bool.not_true, Bool.false_eq_true, if_false, if_true]
  exact setCause_holds _ _ _

theorem bp_updBp_same (s : State) (p : Nat) (f : BrPt → BrPt) : (s.updBp p f).bp p = f (s.bp p) := by
  simp [State.bp]

/-- A stuck test pulse of a coil marks every point of that coil. -/
theorem tpStuck_bp (s : State) (n p : Nat) (hp : p ∈ s.coilPoints n) :
    (((s.coilPoints n).foldl (fun t p => if (t.bp p).switchFail then t
      else syncPoint p (note 9 p 0 (t.updBp p fun b => { b with switchFail := true }))) s).bp p).switchFail = true := by
  refine foldl_each _ (fun p (t : State) => (t.bp p).switchFail = true) (fun a b t h => ?_) (fun a t => ?_) _ s p hp
  · split
    · exact h
    · rw [stuck_bp]
      split
      · rfl
      · exact h
  · split
    · next h => exact h
    · rw [stuck_bp, if_pos rfl]

/-! ### Safety inputs -/

theorem safetyInput_ab (k : Nat) (a b : Bool) (s : State) (h : s.bridleRuns = true) :
    ((safetyInput k a b s).bridle.si.get k).a = a ∧ ((safetyInput k a b s).bridle.si.get k).b = b := by
  simp only [safetyInput, h, Bool.not_true, Bool.false_eq_true, if_false]
  refine siReact_ab _ _ _ _ _ _ _ ?_
  rw [Bank.get_set_same]
  exact ⟨rfl, rfl⟩

theorem note_si (k u : Nat) (d : Word) (s : State) : (note k u d s).bridle.si = s.bridle.si := by simp [note]

theorem note_mirBad (k u : Nat) (d : Word) (s : State) : (note k u d s).bridle.mirBad = s.bridle.mirBad := by simp [note]

theorem inputPathTest_si (k : Nat) (hk : k < 16) (pass : Bool) (s : State) (h : s.bridleRuns = true) :
    ((inputPathTest (.si ⟨k, hk⟩) pass s).bridle.si.get k).testBad = !pass := by
  simp only [inputPathTest, h, Bool.not_true, Bool.false_eq_true, if_false]
  split
  · rw [Bank.get_set_same]
  · rw [(siReact_none _ _ _).1]
    split
    · rw [Bank.get_set_same]
    · rw [note_si, Bank.get_set_same]

theorem inputPathTest_mir (p : Fin 64) (s : State) (h : s.bridleRuns = true) :
    (inputPathTest (.mir p) false s).bridle.mirBad.getLsbD p = true := by
  have hbit : (putBit s.bridle.mirBad p true).getLsbD p = true :=
    (putBit_getLsbD _ _ _ _).trans (if_pos ⟨rfl, p.isLt⟩)
  simp only [inputPathTest, h, Bool.not_true, Bool.not_false, Bool.false_or, Bool.false_eq_true, if_false]
  split
  · exact hbit
  split
  · rw [mirChange_mir p _ true 0]
    simpa only [State.updBp, note_mirBad] using hbit
  · rw [note_mirBad]
    exact hbit

/-! ### The obligation -/

/-- Settles O20. -/
theorem mirrorsAndSafetyInputs : Obligations.MirrorsAndSafetyInputs := by
  unfold Obligations.MirrorsAndSafetyInputs
  refine ⟨?_, ?_, ?_, ?_, ?_, ?_, ?_, ?_, ?_, ?_, ?_, ?_, ?_, ?_, ?_, ?_, ?_⟩
  · intro p high s h
    refine ⟨_, execMirrorChange_run p high s h, ?_⟩
    split
    · next hsame => exact hsame
    · rw [mirrorCheck_mirror, bp_updBp_same]
  · rintro p high s ⟨hrun, hsup, hcoil, hmir, hnew⟩
    refine ⟨_, execMirrorChange_run p high s hrun, ?_⟩
    rw [if_neg (by rw [hmir, hnew]; decide)]
    exact mirrorCheck_weld p _ hsup hcoil (by rw [bp_updBp_same]; exact hnew)
  · rintro p high s ⟨hrun, hsup, hcoil, hmir, hseen, hnew⟩
    refine ⟨_, execMirrorChange_run p high s hrun, ?_⟩
    rw [if_neg (by rw [hmir, hnew]; decide)]
    exact mirrorCheck_drop p _ hsup hcoil (by rw [bp_updBp_same]; exact hnew) (by rw [bp_updBp_same]; exact hseen)
  · rintro p s ⟨hrun, hsup, hcoil, hmir⟩
    refine ⟨_, rfl, ?_⟩
    rw [if_pos (by simp [hrun, hsup, hcoil, hmir])]
    exact setCause_holds _ _ _
  · rintro p s ⟨hrun, hsup, hcoil, hmir, hseen⟩
    refine ⟨_, rfl, ?_⟩
    rw [if_pos (by simp [hrun, hsup, hcoil, hmir, hseen])]
    exact setCause_holds _ _ _
  · intro n s h
    refine ⟨_, rfl, fun p hp hcoil => ?_⟩
    rw [if_neg (by simp [h])]
    exact tpStuck_bp s n p (by simp [State.coilPoints, hp, hcoil])
  · intro k a b s h
    exact ⟨_, rfl, safetyInput_ab k a b s h⟩
  · rintro k s ⟨hrun, hdiff, hnew⟩
    refine ⟨_, rfl, ?_⟩
    rw [if_neg (by simp [hrun, hdiff, hnew]), (siReact_none _ _ _).1, note_si, Bank.get_set_same]
  · intro k pass s h
    exact ⟨_, rfl, inputPathTest_si k k.isLt pass s h⟩
  · intro p s h
    exact ⟨_, rfl, inputPathTest_mir p s h⟩
  · intro p b s h
    exact ⟨_, rfl, if_pos (by simp [h])⟩
  · intro p s h
    exact ⟨_, rfl, if_neg (by simp [h])⟩
  · intro p s h
    exact ⟨_, rfl, if_neg (by simp [h])⟩
  · intro n s h
    exact ⟨_, rfl, if_pos (by simp [h])⟩
  · intro k a b s h
    exact ⟨_, rfl, by simp [safetyInput, h]⟩
  · intro k s h
    exact ⟨_, rfl, if_pos (by simp [h])⟩
  · intro k b s h
    exact ⟨_, rfl, by simp [inputPathTest, h]⟩

end Sys2Proof.Machine
end

section
/-!
SUPPORT. Proofs about connection devices, torque-off read-backs and safe messages (15 R382 to R397).
-/
set_option Elab.async false
namespace Sys2Proof.Machine

/-! ### Devices -/

/-- The monitor keeps the position and speed that the sample gives. -/
theorem motionMonitor_sample (d : Nat) (m : MotionSample) (s : State) (hrun : s.bridleRuns = true) (hdev : s.hasDev d = true) :
    ((motionMonitor d m s).device d).pos = encPos (s.encCfg (s.devCfg d).enc) m.count (toInt 32 (s.freeBits 32).toNat) ∧
    ((motionMonitor d m s).device d).speed =
      encSpeed (s.encCfg (s.devCfg d).enc) m.count (s.device d).counts (toInt 32 (s.freeBits 32).toNat) := by
  obtain ⟨hpos, hspeed, -⟩ := sample_dev d m s
  simp only [motionMonitor, hrun, hdev, Bool.not_true, Bool.or_self, Bool.false_eq_true, if_false]
  exact ⟨(judge_keep d _).1.trans hpos, (judge_keep d _).2.trans hspeed⟩

theorem motionMonitor_bad (d : Nat) (m : MotionSample) (s : State) (hrun : s.bridleRuns = true) (hdev : s.hasDev d = true)
    (hbad : (m.illegal || zOff (s.encCfg (s.devCfg d).enc) m.z) = true) :
    ((motionMonitor d m s).device d).st = .fault ∧ ((motionMonitor d m s).device d).fcause = 5 ∧
    ((motionMonitor d m s).device d).permit = false := by
  have henc := (sample_dev d m s).2.2.trans hbad
  simp only [motionMonitor, hrun, hdev, Bool.not_true, Bool.or_self, Bool.false_eq_true, if_false, motionJudge, henc,
    if_true, devFault_dev, and_self]

/-- A stop of a device that stops ends it, with the permit removed; of another it changes nothing. -/
theorem ss1End_stopping (d : Nat) (s : State) (hrun : s.bridleRuns = true) (hst : (s.device d).st = .stopping) :
    ((ss1End d s).device d).st = .stopped ∧ ((ss1End d s).device d).permit = false := by
  simp only [ss1End, hrun, hst, decide_true, Bool.and_self, if_true, devGo_dev, devOff_dev, and_self]

theorem ss1End_other (d : Nat) (s : State) (hst : (s.device d).st ≠ .stopping) : ss1End d s = s := by
  simp [ss1End, hst]

/-- Settles O21. -/
theorem devicesAndTorque : Obligations.DevicesAndTorque := by
  unfold Obligations.DevicesAndTorque
  refine ⟨?_, ?_, ?_, ?_, ?_, ?_, ?_, ?_, ?_, ?_, ?_, ?_⟩
  · rintro d m s ⟨hrun, hdev⟩
    exact ⟨_, rfl, motionMonitor_sample d m s hrun hdev⟩
  · rintro d m s ⟨hrun, hdev, hbad⟩
    exact ⟨_, rfl, motionMonitor_bad d m s hrun hdev hbad⟩
  · intro d m s h
    exact ⟨_, rfl, by simp [motionMonitor, h]⟩
  · rintro d s ⟨hrun, hst, hstill⟩
    refine ⟨_, rfl, ?_⟩
    rw [if_pos hstill]
    exact ss1End_stopping d s hrun hst
  · intro d s h
    refine ⟨_, rfl, ?_⟩
    split
    · next hstill => exact ss1End_other d s (h.resolve_right (Nat.not_lt.mpr hstill))
    · rfl
  · rintro d s ⟨hrun, hst, htime⟩
    refine ⟨_, rfl, ?_⟩
    rw [if_pos htime]
    exact ss1End_stopping d s hrun hst
  · intro d s h
    refine ⟨_, rfl, ?_⟩
    split
    · next htime => exact ss1End_other d s (h.resolve_right (Nat.not_lt.mpr htime))
    · rfl
  · rintro d s ⟨hrun, hst, htime⟩
    refine ⟨_, rfl, ?_⟩
    rw [if_pos (by simp [hrun, hst, htime])]
    simp only [devFault_dev, if_true, and_self]
  · intro d s h
    exact ⟨_, rfl, if_neg (by simp [Nat.not_le.mpr h])⟩
  · rintro n b s ⟨hrun, hstage⟩
    refine ⟨_, rfl, ?_⟩
    rw [if_pos (by simp [hrun, hstage])]
    exact stoFault_bit n n.isLt s
  · intro n b s
    exact ⟨_, rfl, if_neg (by simp)⟩
  · intro n s h
    refine ⟨_, rfl, ?_⟩
    rw [if_pos h]
    exact stoFault_bit n n.isLt s

end Sys2Proof.Machine
end

section
/-!
SUPPORT. Proofs about safe messages (15 R385 to R390).
-/
set_option Elab.async false
namespace Sys2Proof.Machine

/-- What is taken of a copy that does not repeat the last counter, by the copy that waits. -/
theorem safeReceive_new (i : Nat) (onF1 crcOk : Bool) (c : Byte) (d : Word) (s : State) (hrun : s.bridleRuns = true)
    (hen : (s.rxCfg i).enabled = true)
    (hnew : crcOk = false ∨ (s.bridle.rx.get i).last = 0 ∨ c ≠ (s.bridle.rx.get i).last) :
    safeReceive i onF1 crcOk c d s = match (s.bridle.rx.get i).first with
      | none => if crcOk then s.updRx i fun r => { r with first := some (onF1, c, d) } else discardPair s
      | some (f1, c1, d1) =>
        if !crcOk then discardPair (s.updRx i fun r => { r with first := none })
        else if f1 = onF1 || c1 ≠ c then
          discardPair ((s.updRx i fun r => { r with first := none }).updRx i fun r => { r with first := some (onF1, c, d) })
        else if d ≠ ~~~d1 then safeValue i (discardPair (s.updRx i fun r => { r with first := none }))
        else if c ≠ 0 && ((s.bridle.rx.get i).last = 0 || c = succ8 (s.bridle.rx.get i).last) then
          acceptPair i c (if onF1 then d1 else d) (s.updRx i fun r => { r with first := none })
        else discardPair (s.updRx i fun r => { r with first := none }) := by
  have hrep : ¬(crcOk && decide ((s.bridle.rx.get i).last ≠ 0) && decide (c = (s.bridle.rx.get i).last)) = true := by
    rcases hnew with h | h | h <;> simp [h]
  unfold safeReceive
  rw [if_neg (by simp [hrun, hen]), if_neg hrep] <;>
    cases (s.bridle.rx.get i).first <;> rfl

theorem safeReceive_first (i : Nat) (onF1 : Bool) (c : Byte) (d : Word) (s : State) (hrun : s.bridleRuns = true)
    (hen : (s.rxCfg i).enabled = true) (hfirst : (s.bridle.rx.get i).first = none)
    (hnew : (s.bridle.rx.get i).last = 0 ∨ c ≠ (s.bridle.rx.get i).last) :
    safeReceive i onF1 true c d s = s.updRx i fun r => { r with first := some (onF1, c, d) } := by
  rw [safeReceive_new i onF1 true c d s hrun hen (.inr hnew), hfirst]
  rfl

theorem safeReceive_badFirst (i : Nat) (onF1 : Bool) (c : Byte) (d : Word) (s : State) (hrun : s.bridleRuns = true)
    (hen : (s.rxCfg i).enabled = true) (hfirst : (s.bridle.rx.get i).first = none) :
    safeReceive i onF1 false c d s = discardPair s := by
  rw [safeReceive_new i onF1 false c d s hrun hen (.inl rfl), hfirst]
  rfl

/-- The second copy of a pair, from the other port, is accepted. -/
theorem safeReceive_second (i : Nat) (onF1 g1 : Bool) (c : Byte) (d e1 : Word) (s : State) (hrun : s.bridleRuns = true)
    (hen : (s.rxCfg i).enabled = true) (hfirst : (s.bridle.rx.get i).first = some (g1, c, e1)) (hport : g1 ≠ onF1)
    (hcomp : d = ~~~e1) (hc : c ≠ 0) (hnew : c ≠ (s.bridle.rx.get i).last)
    (hnext : (s.bridle.rx.get i).last = 0 ∨ c = succ8 (s.bridle.rx.get i).last) :
    safeReceive i onF1 true c d s = acceptPair i c (if onF1 then e1 else d) (s.updRx i fun r => { r with first := none }) := by
  rw [safeReceive_new i onF1 true c d s hrun hen (.inr (.inr hnew)), hfirst]
  simp only [Bool.not_true, Bool.false_eq_true, if_false]
  rw [if_neg (by simp [hport]), if_neg (by simp [hcomp]), if_pos (by simpa using ⟨hc, hnext⟩)]

theorem discardPair_rx (s : State) : (discardPair s).bridle.rx = s.bridle.rx := rfl

theorem safeValue_rx (i : Nat) (s : State) : ((safeValue i s).bridle.rx.get i).d = 0 ∧
    ((safeValue i s).bridle.rx.get i).valid = (s.bridle.rx.get i).valid := by
  simp [safeValue, State.updRx]

/-- Settles O22. -/
theorem safeMessages : Obligations.SafeMessages := by
  unfold Obligations.SafeMessages
  refine ⟨?_, ?_, ?_, ?_, ?_, ?_, ?_, ?_⟩
  · rintro k f1 d c x s ⟨hrun, hen, hfirst, hcrc, hnew⟩
    refine ⟨_, rfl, ?_⟩
    rw [hcrc, safeReceive_first k f1 c d s hrun hen hfirst hnew]
    simp [State.updRx]
  · rintro k f1 g1 d e1 c x s ⟨hrun, hen, hcrc, hfirst, hport, hcomp, hc, hnew, hnext⟩
    refine ⟨_, rfl, ?_⟩
    rw [hcrc, safeReceive_second k f1 g1 c d e1 s hrun hen hfirst hport hcomp hc hnew hnext]
    exact acceptPair_rx k c _ _
  · rintro k f1 d c x s ⟨hrun, hen, hfirst, hcrc⟩
    refine ⟨_, rfl, ?_⟩
    rw [hcrc, safeReceive_badFirst k f1 c d s hrun hen hfirst]
    exact ⟨rfl, rfl⟩
  · intro k f1 d c x s h
    exact ⟨_, rfl, by simp [safeReceive, h]⟩
  · rintro k s ⟨hrun, hfirst⟩
    refine ⟨_, rfl, ?_⟩
    rw [if_pos (by simp [hrun, hfirst])]
    exact ⟨by simp [discardPair_rx, State.updRx], rfl⟩
  · rintro k s ⟨hrun, hen⟩
    refine ⟨_, rfl, ?_⟩
    rw [if_pos (by simp [hrun, hen]), (safeValue_rx _ _).1, (safeValue_rx _ _).2]
    exact ⟨by simp [note, State.updRx], rfl⟩
  · rintro j s ⟨hrun, hen, hrst⟩
    refine ⟨_, rfl, ?_⟩
    rw [if_pos (by simp [hrun, hen, hrst]), Bank.get_upd_same]
    exact ⟨rfl, rfl⟩
  · rintro j f1 s ⟨hrun, hen⟩
    refine ⟨_, rfl, ?_⟩
    rw [if_pos (by simp [hrun, hen])]
    simp [note]

end Sys2Proof.Machine
end

section
/-!
SUPPORT. Proofs about the safe messages of firmware (03 R70, R71; 14 R362; 15 R391 to R397).
-/
set_option Elab.async false
namespace Sys2Proof.Machine

/-! ### One message -/

/-- `t` reports the message: its tag, its type and the outcome. -/
structure Reported (ty : BitVec 8) (tag : Word) (st : Status) (t : State) : Prop where
  tag : t.bridle.postTag = tag.setWidth 16
  type : t.bridle.postType = ty
  status : t.bridle.postSt = st

/-- `t` keeps what the messages act on as it is in `u`, but for the reclaim marks of the points. -/
structure MsgSame (u t : State) : Prop where
  bp : ∀ q, ∃ b, t.bp q = { u.bp q with reclaimed := b }
  dev : t.bridle.dev = u.bridle.dev
  running : t.bridle.running = u.bridle.running
  acked : t.bridle.acked = u.bridle.acked
  overrun : t.bridle.overrun = u.bridle.overrun

theorem MsgSame.hold {u t : State} (h : MsgSame u t) (q : Nat) : (t.bp q).hold = (u.bp q).hold := by
  obtain ⟨b, hb⟩ := h.bp q
  rw [hb]

theorem MsgSame.holds {u t : State} (h : MsgSame u t) (q : Nat) (c : HoldCause) : t.holds q c = u.holds q c := by
  rw [State.holds, h.hold, State.holds]

theorem MsgSame.shut {u t : State} (h : MsgSame u t) (q : Nat) : (t.bp q).shut = (u.bp q).shut := by
  obtain ⟨b, hb⟩ := h.bp q
  rw [hb]

theorem MsgSame.earthRc {u t : State} (h : MsgSame u t) (q : Nat) : (t.bp q).earthRc = (u.bp q).earthRc := by
  obtain ⟨b, hb⟩ := h.bp q
  rw [hb]

theorem MsgSame.pilKeep {u t : State} (h : MsgSame u t) (q : Nat) : (t.bp q).pilKeep = (u.bp q).pilKeep := by
  obtain ⟨b, hb⟩ := h.bp q
  rw [hb]

theorem MsgSame.device {u t : State} (h : MsgSame u t) (d : Nat) : t.device d = u.device d := by
  rw [State.device, h.dev, State.device]

/-- In RUN a message reports the outcome of its operation and keeps what that leaves. -/
theorem bridleTake_run (ty : BitVec 8) (tag : Word) (f : State → Status × State) (s : State) (hrun : s.bridleRuns = true)
    (hrst : s.bridle.inReset = false) :
    Reported ty tag (f { s with bridle.fifo := s.bridle.fifo.drop 1 }).1 (bridleTake ty tag f s) ∧
    MsgSame (f { s with bridle.fifo := s.bridle.fifo.drop 1 }).2 (bridleTake ty tag f s) := by
  obtain ⟨w, x, y, rfl, ht, hx⟩ := take_run ty tag f s hrun hrst
  rw [ht]
  exact ⟨⟨rfl, rfl, rfl⟩, ⟨hx, rfl, rfl, rfl, rfl⟩⟩

/-- An operation that only answers `st` changes nothing that messages act on. -/
theorem bridleTake_answer (ty : BitVec 8) (tag : Word) {f : State → Status × State} {s : State} {st : Status}
    (hrun : s.bridleRuns = true) (hrst : s.bridle.inReset = false)
    (hf : f { s with bridle.fifo := s.bridle.fifo.drop 1 } = (st, { s with bridle.fifo := s.bridle.fifo.drop 1 })) :
    Reported ty tag st (bridleTake ty tag f s) ∧ MsgSame s (bridleTake ty tag f s) := by
  obtain ⟨hrep, hsame⟩ := bridleTake_run ty tag f s hrun hrst
  rw [hf] at hrep hsame
  obtain ⟨hbp, hdev, hrunning, hacked, hover⟩ := hsame
  exact ⟨hrep, hbp, hdev, hrunning, hacked, hover⟩

/-- An operation that answers OK is reported OK, and what it leaves is kept. -/
theorem bridleTake_ok (ty : BitVec 8) (tag : Word) {f : State → Status × State} {s : State}
    (hrun : s.bridleRuns = true) (hrst : s.bridle.inReset = false)
    (hf : (f { s with bridle.fifo := s.bridle.fifo.drop 1 }).1 = .ok) :
    Reported ty tag .ok (bridleTake ty tag f s) ∧
    MsgSame (f { s with bridle.fifo := s.bridle.fifo.drop 1 }).2 (bridleTake ty tag f s) :=
  hf ▸ bridleTake_run ty tag f s hrun hrst

/-- In VERIFY and SAFE every message is answered STATE, and no hold changes. -/
theorem bridleTake_state (ty : BitVec 8) (tag : Word) (f : State → Status × State) (s : State)
    (hst : s.bridle.st = .verify ∨ s.bridle.st = .safe) (hrst : s.bridle.inReset = false) :
    (bridleTake ty tag f s).bridle.postTag = tag.setWidth 16 ∧ (bridleTake ty tag f s).bridle.postType = ty ∧
    (bridleTake ty tag f s).bridle.postSt = .state ∧ ∀ q, ((bridleTake ty tag f s).bp q).hold = (s.bp q).hold := by
  obtain ⟨x, y, ht, hx⟩ := take_other ty tag f s hst hrst
  rw [ht]
  refine ⟨rfl, rfl, rfl, fun q => ?_⟩
  obtain ⟨b, hb⟩ := hx q
  simp only [State.bp] at hb ⊢
  rw [hb]

/-- What a message that is only answered shows, as the clauses list it. -/
theorem answered_holds {ty : BitVec 8} {tag : Word} {st : Status} {s t : State} (h : Reported ty tag st t ∧ MsgSame s t) :
    t.bridle.postTag = tag.setWidth 16 ∧ t.bridle.postType = ty ∧ t.bridle.postSt = st ∧ ∀ q, (t.bp q).hold = (s.bp q).hold :=
  ⟨h.1.tag, h.1.type, h.1.status, h.2.hold⟩

/-! ### When a message is only answered -/

theorem pilotReleaseMsg_stale (u : Nat) (c : BitVec 16) (s : State) (hu : u < 64) (hc : c ≠ s.bridle.chal) :
    pilotReleaseMsg u c s = (.stale, s) := by
  simp [pilotReleaseMsg, Nat.not_le.mpr hu, hc]

theorem pilotReleaseMsg_range (u : Nat) (c : BitVec 16) (s : State) (hu : 64 ≤ u) : pilotReleaseMsg u c s = (.range, s) := by
  simp [pilotReleaseMsg, hu]

theorem earthReleaseMsg_stale (u : Nat) (c : BitVec 16) (s : State) (hu : u < 80) (hc : c ≠ s.bridle.chal) :
    earthReleaseMsg u c s = (.stale, s) := by
  simp [earthReleaseMsg, Nat.not_le.mpr hu, hc]

theorem earthReleaseMsg_range (u : Nat) (c : BitVec 16) (s : State) (hu : 80 ≤ u) : earthReleaseMsg u c s = (.range, s) := by
  simp [earthReleaseMsg, hu]

theorem currentMsg_state (u : Nat) (ma : Word) (s : State) (hu : u < 64) (h2 : (s.bp u).shut ≠ 2) (h3 : (s.bp u).shut ≠ 3) :
    currentMsg u ma s = (.state, s) := by
  simp [currentMsg, Nat.not_le.mpr hu, h2, h3]

theorem stopReqMsg_range (u : Nat) (s : State) (hu : 24 ≤ u) : stopReqMsg u s = (.range, s) := by
  simp [stopReqMsg, Nat.not_lt.mpr hu, Nat.not_lt.mpr (Nat.le_trans (by decide : 16 ≤ 24) hu)]

theorem stopReqMsg_idle (u : Nat) (s : State) (hu : u < 16) (hrun : s.bridle.running.getLsbD u = false) :
    stopReqMsg u s = (.ok, s) := by
  unfold stopReqMsg
  rw [if_pos hu, if_neg (by rw [hrun]; decide)]

theorem motionReqMsg_range (d : Nat) (dir : Word) (s : State) (h : 8 ≤ d ∨ (dir ≠ 1 ∧ dir ≠ 2)) :
    motionReqMsg d dir s = (.range, s) := by
  unfold motionReqMsg
  exact if_pos (by simpa using h)

theorem motionReqMsg_state (d : Nat) (dir : Word) (s : State) (hd : d < 8) (hdir : dir = 1 ∨ dir = 2)
    (hok : s.motionOk d = false) : motionReqMsg d dir s = (.state, s) := by
  unfold motionReqMsg
  have hin : ¬((decide (8 ≤ d) || (decide (dir ≠ 1) && decide (dir ≠ 2))) = true) := by
    rcases hdir with h | h <;> simp [Nat.not_le.mpr hd, h]
  exact (if_neg hin).trans (if_pos (by simp [hok]))

theorem holdReleaseMsg_stale (u : Nat) (c : BitVec 16) (s : State) (hu : u < 64) (hc : c ≠ s.bridle.chal) :
    holdReleaseMsg u c s = (.stale, s) := by
  simp [holdReleaseMsg, Nat.not_le.mpr hu, hc]

theorem holdReleaseMsg_range (u : Nat) (c : BitVec 16) (s : State) (hu : 64 ≤ u) : holdReleaseMsg u c s = (.range, s) := by
  simp [holdReleaseMsg, hu]

theorem noteAckMsg_ok (q : Word) (s : State) (hq : q.toNat ≤ 65535)
    (hold : (q.setWidth 16 - s.bridle.acked).toNat ≤ (s.bridle.newest - s.bridle.acked).toNat) :
    (noteAckMsg q s).1 = .ok ∧ (noteAckMsg q s).2.bridle.acked = q.setWidth 16 ∧ (noteAckMsg q s).2.bridle.overrun = false := by
  unfold noteAckMsg
  dsimp only
  have hin : ¬((decide (65535 < q.toNat) || decide ((s.bridle.newest - s.bridle.acked).toNat <
      (q.setWidth 16 - s.bridle.acked).toNat)) = true) := by
    rw [decide_eq_false (Nat.not_lt.mpr hq), decide_eq_false (Nat.not_lt.mpr hold)]
    decide
  rw [if_neg hin]
  simp

theorem noteAckMsg_range (q : Word) (s : State) (h : 65535 < q.toNat ∨
    (s.bridle.newest - s.bridle.acked).toNat < (q.setWidth 16 - s.bridle.acked).toNat) : noteAckMsg q s = (.range, s) := by
  unfold noteAckMsg
  refine if_pos ?_
  rcases h with h | h
  · rw [decide_eq_true h, Bool.true_or]
  · rw [decide_eq_true h, Bool.or_true]

/-! ### The obligation -/

/-- Settles O23: a message reports tag, type and outcome; one that its operation only answers changes no hold, and of one
that is OK the operation's own effects stay. -/
theorem bridleMessages : Obligations.BridleMessages := by
  unfold Obligations.BridleMessages
  refine ⟨?_, ?_, ?_, ?_, ?_, ?_, ?_, ?_, ?_, ?_, ?_, ?_, ?_, ?_, ?_, ?_, ?_, ?_, ?_, ?_, ?_, ?_, ?_, ?_, ?_, ?_, ?_, ?_⟩
  · rintro u c g s ⟨hrun, hrst, hu, hc⟩
    exact ⟨_, rfl, answered_holds (bridleTake_answer 1 g hrun hrst (pilotReleaseMsg_stale _ _ _ hu hc))⟩
  · rintro u c g s ⟨hrun, hrst, hu⟩
    exact ⟨_, rfl, answered_holds (bridleTake_answer 1 g hrun hrst (pilotReleaseMsg_range _ _ _ hu))⟩
  · rintro u g s ⟨hrun, hrst, hu, hpil, hold, hno⟩
    obtain ⟨hok, hrel, hkeep⟩ := release_facts u.toNat g s hu hpil hold hno
    obtain ⟨hrep, hsame⟩ := bridleTake_ok 1 g hrun hrst hok
    exact ⟨_, rfl, hrep.tag, hrep.type, hrep.status, (hsame.holds _ _).trans hrel, (hsame.pilKeep _).trans hkeep⟩
  · rintro u c g s ⟨hrun, hrst, hu, hc⟩
    exact ⟨_, rfl, answered_holds (bridleTake_answer 2 g hrun hrst (earthReleaseMsg_stale _ _ _ hu hc))⟩
  · rintro u c g s ⟨hrun, hrst, hu⟩
    exact ⟨_, rfl, answered_holds (bridleTake_answer 2 g hrun hrst (earthReleaseMsg_range _ _ _ hu))⟩
  · rintro u g s ⟨hrun, hrst, hu, hlow, hrc⟩
    obtain ⟨hok, hrel, hearth⟩ := earth_facts u.toNat g s hu hlow hrc
    obtain ⟨hrep, hsame⟩ := bridleTake_ok 2 g hrun hrst hok
    exact ⟨_, rfl, hrep.tag, hrep.type, hrep.status, (hsame.earthRc _).trans hrel,
      fun him => (hsame.holds _ _).trans (hearth him)⟩
  · rintro u ma g s ⟨hrun, hrst, hu, hshut⟩
    obtain ⟨hok, hnext⟩ := current_facts u.toNat ma s hu hshut
    obtain ⟨hrep, hsame⟩ := bridleTake_ok 3 g hrun hrst hok
    exact ⟨_, rfl, hrep.tag, hrep.type, hrep.status, (hsame.shut _).trans hnext⟩
  · rintro u ma g s ⟨hrun, hrst, hu, h2, h3⟩
    exact ⟨_, rfl, answered_holds (bridleTake_answer 3 g hrun hrst (currentMsg_state _ _ _ hu h2 h3))⟩
  · rintro u g s ⟨hrun, hrst, hu⟩
    obtain ⟨hrep, hsame⟩ := bridleTake_answer 4 g hrun hrst (stopReqMsg_range _ _ hu)
    exact ⟨_, rfl, hrep.tag, hrep.type, hrep.status, hsame.hold, hsame.running, hsame.dev⟩
  · rintro u g s ⟨hrun, hrst, hu, hidle⟩
    obtain ⟨hrep, hsame⟩ := bridleTake_answer 4 g hrun hrst (stopReqMsg_idle _ _ hu hidle)
    exact ⟨_, rfl, hrep.tag, hrep.type, hrep.status, hsame.hold, hsame.running, hsame.dev⟩
  · rintro u g s ⟨hrun, hrst, h16, h24, hdev, hss1, hst⟩
    obtain ⟨hok, hstop, hpermit⟩ := stop_facts u.toNat g s h16 h24 hdev hss1 hst
    obtain ⟨hrep, hsame⟩ := bridleTake_ok 4 g hrun hrst hok
    refine ⟨_, rfl, hrep.tag, hrep.type, hrep.status, ?_⟩
    rw [hsame.device]
    exact ⟨hstop, hpermit⟩
  · rintro u dir g s ⟨hrun, hrst, h⟩
    obtain ⟨hrep, hsame⟩ := bridleTake_answer 5 g hrun hrst (motionReqMsg_range _ dir _ h)
    exact ⟨_, rfl, hrep.tag, hrep.type, hrep.status, hsame.hold, hsame.dev⟩
  · rintro u dir g s ⟨hrun, hrst, hu, hdir, hok⟩
    obtain ⟨hrep, hsame⟩ := bridleTake_answer 5 g hrun hrst (motionReqMsg_state _ dir _ hu hdir hok)
    exact ⟨_, rfl, hrep.tag, hrep.type, hrep.status, hsame.hold, hsame.dev⟩
  · rintro u g s ⟨hrun, hrst, hu, hmay, hst⟩
    obtain ⟨hok, hext, hpermit⟩ := motion_facts u.toNat g s hu hmay hst
    obtain ⟨hrep, hsame⟩ := bridleTake_ok 5 g hrun hrst hok
    refine ⟨_, rfl, hrep.tag, hrep.type, hrep.status, ?_⟩
    rw [hsame.device]
    exact ⟨hext, hpermit⟩
  · rintro u c g s ⟨hrun, hrst, hu, hc⟩
    exact ⟨_, rfl, answered_holds (bridleTake_answer 6 g hrun hrst (holdReleaseMsg_stale _ _ _ hu hc))⟩
  · rintro u c g s ⟨hrun, hrst, hu⟩
    exact ⟨_, rfl, answered_holds (bridleTake_answer 6 g hrun hrst (holdReleaseMsg_range _ _ _ hu))⟩
  · rintro u g s ⟨hrun, hrst, hu, hcause⟩
    obtain ⟨hok, hno, hdrop, hre⟩ := hold_facts u.toNat g s hu hcause
    obtain ⟨hrep, hsame⟩ := bridleTake_ok 6 g hrun hrst hok
    exact ⟨_, rfl, hrep.tag, hrep.type, hrep.status, (hsame.holds _ _).trans hno, (hsame.holds _ _).trans hdrop,
      (hsame.holds _ _).trans hre⟩
  · rintro q g s ⟨hrun, hrst, hq, hold⟩
    obtain ⟨hok, hack, hover⟩ := noteAckMsg_ok q { s with bridle.fifo := s.bridle.fifo.drop 1 } hq hold
    obtain ⟨hrep, hsame⟩ := bridleTake_ok 7 g hrun hrst hok
    exact ⟨_, rfl, hrep.tag, hrep.type, hrep.status, hsame.acked.trans hack, hsame.overrun.trans hover⟩
  · rintro q g s ⟨hrun, hrst, h⟩
    obtain ⟨hrep, hsame⟩ := bridleTake_answer 7 g hrun hrst (noteAckMsg_range q _ h)
    exact ⟨_, rfl, hrep.tag, hrep.type, hrep.status, hsame.acked⟩
  · rintro ty g s ⟨hrun, hrst⟩
    exact ⟨_, rfl, answered_holds (bridleTake_answer ty g hrun hrst rfl)⟩
  · rintro u c g s ⟨hst, hrst⟩
    exact ⟨_, rfl, bridleTake_state 1 g _ s hst hrst⟩
  · rintro u c g s ⟨hst, hrst⟩
    exact ⟨_, rfl, bridleTake_state 2 g _ s hst hrst⟩
  · rintro u ma g s ⟨hst, hrst⟩
    exact ⟨_, rfl, bridleTake_state 3 g _ s hst hrst⟩
  · rintro u g s ⟨hst, hrst⟩
    exact ⟨_, rfl, bridleTake_state 4 g _ s hst hrst⟩
  · rintro u dir g s ⟨hst, hrst⟩
    exact ⟨_, rfl, bridleTake_state 5 g _ s hst hrst⟩
  · rintro u c g s ⟨hst, hrst⟩
    exact ⟨_, rfl, bridleTake_state 6 g _ s hst hrst⟩
  · rintro q g s ⟨hst, hrst⟩
    exact ⟨_, rfl, bridleTake_state 7 g _ s hst hrst⟩
  · rintro ty g s ⟨hst, hrst⟩
    exact ⟨_, rfl, bridleTake_state ty g _ s hst hrst⟩

end Sys2Proof.Machine
end

section
/-!
SUPPORT. Proofs about the Green PHY channels and their frames (08 R168 to R192).
-/
set_option Elab.async false
namespace Sys2Proof.Machine

/-! ### One channel -/

@[simp] theorem updPlc_plc_same (s : State) (n : Nat) (f : PlcCh → PlcCh) : (s.updPlc n f).plc n = f (s.plc n) := by
  rw [updPlc_plc, if_pos rfl]

@[simp] theorem deliveryTimeout_plc (q n : Nat) (s : State) : (deliveryTimeout q s).plc n = s.plc n := by
  simp [deliveryTimeout, State.plc]

@[simp] theorem busOk_plc (v : Word) (n : Nat) (s : State) : (busOk v s).plc n = s.plc n := rfl

/-- A forgotten channel holds no network key and no station. -/
theorem plcForget_fields (c : PlcCh) : (plcForget c).nmk = none ∧ (plcForget c).mac = none := ⟨rfl, rfl⟩

theorem plcFailAll_fields (c : PlcCh) : (plcFailAll c).txq = [] ∧ (plcFailAll c).nmk = c.nmk := ⟨rfl, fold_txq _ _⟩

theorem isMains_iff (n : Nat) : isMains n = true ↔ 64 ≤ n := by simp [isMains]

theorem isMains_of_lt {n : Nat} (h : n < 64) : isMains n = false := by simp [isMains, h]

theorem isMains_of_le {n : Nat} (h : 64 ≤ n) : isMains n = true := by simp [isMains, h]

/-! ### Starts, stops and re-matches -/

theorem plcStart_pilot (n : Nat) (v : Word) (s : State) (hn : n < 64) (hok : s.plcStartStatus n (fld v 16 16) = .ok) :
    ((plcStart n v s).plc n).st = .slacWait ∧ ((plcStart n v s).plc n).status = .ok ∧
    ((plcStart n v s).plc n).nmk = none ∧ ((plcStart n v s).plc n).halted = false := by
  simp [plcStart, hok, isMains_of_lt hn, plcGo_st, plcForget_fields]

theorem plcStart_mains (n : Nat) (v : Word) (s : State) (hn : 64 ≤ n) (hok : s.plcStartStatus n (fld v 16 16) = .ok) :
    ((plcStart n v s).plc n).started = true ∧ ((plcStart n v s).plc n).status = .ok ∧
    ((plcStart n v s).plc n).nmk = s.mainsNmk n ∧ ((plcStart n v s).plc n).halted = false := by
  simp [plcStart, hok, isMains_of_le hn, plcAny_used]

theorem plcStart_barred (n : Nat) (v : Word) (s : State) (hbar : s.plcStartStatus n (fld v 16 16) ≠ .ok) :
    ((plcStart n v s).plc n).status = s.plcStartStatus n (fld v 16 16) ∧ ((plcStart n v s).plc n).st = (s.plc n).st := by
  simp [plcStart, hbar]

/-! ### Frames -/

/-- What a clean, addressed management message leaves to its kind (08 R183). -/
theorem plcReceive_multicast (n : Nat) (m : Mpdu) (s : State) (hst : (s.plc n).st ≠ .off)
    (hfrom : (s.plc n).st ≠ .matched ∨ (s.plc n).fromStation n m = false) (hfc : m.fcOk = true) (hrobo : m.robo = true)
    (hpbs : m.badPbs = 0) (huni : m.unicast = false) : plcReceive n m s = plcKind n m s := by
  have hno : ¬((decide ((s.plc n).st = .matched) && (s.plc n).fromStation n m) = true) := by
    rcases hfrom with h | h <;> simp [h]
  unfold plcReceive
  dsimp only
  rw [if_neg (by simp [hst, hfc]), if_neg (by simp [hrobo]), if_pos hpbs, if_neg hno, if_neg (by simp [huni])]

theorem plcTxTimeout_oldest (n : Nat) (x : PlcTx) (s : State) (hx : (s.plc n).txq.find? PlcTx.unsent = some x)
    (hroom : (s.plc n).done.length < 16) : ((plcTxTimeout n s).plc n).txq = (s.plc n).txq.erase x ∧
    ((plcTxTimeout n s).plc n).done = (s.plc n).done ++ [⟨x.tag, 0, .timeout⟩] := by
  obtain ⟨hdone, htxq⟩ := plcDone_keep ⟨x.tag, 0, .timeout⟩ { s.plc n with txq := (s.plc n).txq.erase x } hroom
  simp only [plcTxTimeout, hx, deliveryTimeout_plc, updPlc_plc_same]
  exact ⟨htxq, hdone⟩

/-- What is on the air stays so until its acknowledgement. -/
theorem plcSend_onAir (n : Nat) (x : PlcTx) (r : List PlcTx) (s : State) (hq : (s.plc n).txq = x :: r)
    (hx : x.phase ≠ .waiting) : plcSend n s = s := by
  simp [plcSend, hq, hx]

theorem plcSack_clean (n : Nat) (x : PlcTx) (r : List PlcTx) (s : State) (hq : (s.plc n).txq = x :: r)
    (hx : x.phase ≠ .waiting) (hroom : (s.plc n).done.length < 16) : ((plcSack n 0 s).plc n).txq = r ∧
    ((plcSack n 0 s).plc n).done = (s.plc n).done ++ [⟨x.tag, x.tries + 1, .ok⟩] := by
  obtain ⟨hdone, htxq⟩ := plcDone_keep ⟨x.tag, x.tries + 1, .ok⟩ { s.plc n with txq := r } hroom
  have hall : (x.pbs.filter fun i => (0 : BitVec 4).getLsbD i).isEmpty = true := by simp
  simp only [plcSack, plcSend_onAir n x r s hq hx, hq, hx, if_false, hall, if_true, updPlc_plc_same, countEvents_plc]
  exact ⟨htxq, hdone⟩

theorem beacon_sends (n : Nat) (s : State) (hrun : ((s.plc n).halted && s.txDisabled) = false) (hon : (s.plc n).on = true)
    (hgrid : s.gridTime n = true) : (((beacon n s).plc n).lastBeacon.map (·.time)) = some (s.plc n).beaconAt ∧
    ((beacon n s).plc n).beaconAt = (s.plc n).beaconAt + beaconTicks (s.plc n) ∧
    ((beacon n s).plc n).st = (if 64 ≤ n ∧ (s.plc n).started = true then .linked else (s.plc n).st) := by
  obtain ⟨hst, hstart, hat, hlast⟩ := sendBeacon_keep s (s.plc n)
  simp only [beacon, hrun, hon, hgrid, Bool.not_true, Bool.or_self, Bool.false_eq_true, if_false, plcAny_used,
    updPlc_plc_same]
  by_cases hm : 64 ≤ n ∧ (s.plc n).started = true
  · rw [if_pos (by rw [isMains_of_le hm.1, hm.2]; rfl), if_pos hm]
    simp only [plcGo_st, plcGo_more]
    exact ⟨hlast, hat, trivial⟩
  · rw [if_neg (by simpa [isMains_iff] using hm), if_neg hm]
    exact ⟨hlast, hat, hst⟩

/-! ### The obligation -/

/-- Settles O24. -/
theorem plcLifecycleAndFrames : Obligations.PlcLifecycleAndFrames := by
  unfold Obligations.PlcLifecycleAndFrames
  refine ⟨?_, ?_, ?_, ?_, ?_, ?_, ?_, ?_, ?_, ?_, ?_, ?_, ?_, ?_, ?_, ?_, ?_, ?_, ?_, ?_, ?_, ?_, ?_, ?_, ?_, ?_, ?_, ?_,
    ?_, ?_, ?_⟩
  · rintro n v s ⟨hn, hok⟩
    exact ⟨_, rfl, plcStart_pilot n v _ hn hok⟩
  · rintro n v s ⟨hn, hok⟩
    exact ⟨_, rfl, plcStart_mains n v _ hn hok⟩
  · intro n v s h
    exact ⟨_, rfl, plcStart_barred n v _ h⟩
  · rintro n s ⟨hoff, hstop⟩
    exact ⟨_, rfl, by simp [plcStop, hoff, hstop, plcGo_st]⟩
  · intro n s h
    exact ⟨_, rfl, by simp [plcStop, h]⟩
  · intro n s h
    refine ⟨_, rfl, ?_⟩
    rw [if_pos h, plcOff_plc, if_pos rfl]
    simp only [plcGo_st, plcFailAll_fields, plcForget_fields, and_self]
  · intro n s h
    exact ⟨_, rfl, if_neg h⟩
  · rintro n s ⟨hn, hst⟩
    refine ⟨_, rfl, ?_⟩
    rw [plcReslac, if_neg (by rcases hst with h | h | h <;> simp [isMains_of_lt hn, h])]
    simp [plcGo_st, plcForget_fields]
  · intro n s h
    refine ⟨_, rfl, if_pos ?_⟩
    rcases h with h | h
    · simp [isMains_of_le h]
    · simp [h]
  · rintro n s ⟨hhalt, htx⟩
    exact ⟨_, rfl, by simp [beacon, hhalt, htx, plcEvt]⟩
  · rintro n s ⟨hrun, hon, hgrid⟩
    exact ⟨_, rfl, beacon_sends n s hrun hon hgrid⟩
  · rintro n s ⟨hrun, h⟩
    refine ⟨_, rfl, ?_⟩
    rw [beacon, if_neg (by simp [hrun]), if_pos (by simpa using h)]
  · rintro n s ⟨hn, hst⟩
    refine ⟨_, rfl, ?_⟩
    rw [plcLinkLost, if_neg (by rcases hst with h | h <;> simp [isMains_of_lt hn, h])]
    simp [plcEvt, plcGo_st, plcForget_fields]
  · intro n s h
    refine ⟨_, rfl, if_pos ?_⟩
    rcases h with h | h
    · simp [isMains_of_le h]
    · simp [h]
  · intro n s h
    refine ⟨_, congrArg Host.Outcome.next (if_pos (by simpa using h)), ?_⟩
    simp [plcAny_used]
  · intro n s h
    exact ⟨_, congrArg Host.Outcome.next (if_neg (by simp [h])), rfl⟩
  · intro n m s h
    refine ⟨_, rfl, if_pos ?_⟩
    rcases h with h | h <;> simp [h]
  · rintro n m s ⟨hst, hfc, hrobo⟩
    exact ⟨_, rfl, by simp [plcReceive, hst, hfc, hrobo]⟩
  · intro n m s h
    exact ⟨_, rfl, data_facts n m s h⟩
  · rintro n m s ⟨hst, hfrom, hfc, hrobo, hpbs, huni, hkind⟩
    refine ⟨_, rfl, ?_⟩
    rw [plcReceive_multicast n m s hst (.inr hfrom) hfc hrobo hpbs huni]
    simp [plcKind, hkind]
  · rintro n m s ⟨hst, hfrom, hfc, hrobo, hpbs, huni, hkind⟩
    refine ⟨_, rfl, ?_⟩
    rw [plcReceive_multicast n m s hst (.inr hfrom) hfc hrobo hpbs huni]
    simp [plcKind, hkind]
  · rintro n m s ⟨hst, hfrom, hfc, hrobo, hpbs, huni, hkind⟩
    refine ⟨_, rfl, ?_⟩
    rw [plcReceive_multicast n m s hst (.inr hfrom) hfc hrobo hpbs huni]
    rcases hkind with hkind | hkind <;> simp [plcKind, hkind]
  · rintro n m s ⟨hn, hst, hfc, hrobo, hpbs, huni, hkind⟩
    refine ⟨_, rfl, ?_⟩
    rw [plcReceive_multicast n m s (by simp [hst]) (.inl (by simp [hst])) hfc hrobo hpbs huni]
    simp [plcKind, hkind, plcAssociate, isMains_of_lt hn]
  · intro n v s
    refine ⟨_, rfl, ?_⟩
    by_cases hok : (s.plc n).postStatus n (fld v 0 11) = .ok <;> simp [plcPost, hok]
  · rintro n x r s ⟨hq, hx, hroom⟩
    exact ⟨_, rfl, plcSack_clean n x r s hq hx hroom⟩
  · intro n b s h
    exact ⟨_, rfl, by simp [plcSack, plcSend, h]⟩
  · rintro n x s ⟨hx, hroom⟩
    exact ⟨_, rfl, plcTxTimeout_oldest n x s hx hroom⟩
  · intro n s h
    exact ⟨_, rfl, by simp [plcTxTimeout, h]⟩
  · intro n s
    refine ⟨_, rfl, ?_⟩
    unfold plcRxPop
    split
    · next h => simp [h]
    · next h => simp [h]
  · intro n s
    refine ⟨_, rfl, ?_⟩
    unfold plcDoneRead
    split
    · next h => exact ⟨by simp [h], rfl⟩
    · next h => exact ⟨by simp [h], rfl⟩
  · intro port n s
    refine ⟨_, rfl, rfl, ?_⟩
    simp [ntbRead]

end Sys2Proof.Machine
end

section
/-!
SUPPORT. Proofs about SLAC matching (08 R173 to R180).
-/
set_option Elab.async false
namespace Sys2Proof.Machine

/-- An eligible channel runs SLAC and holds the RunID. -/
theorem slacParm_eligible (n : Nat) (r : BitVec 64) (s : State) (h : s.slacEligible n r = true) :
    ((slacParm n r s).plc n).st = .slacRun ∧ r ∈ ((slacParm n r s).plc n).runs := by
  have hmem : r ∈ (if (s.plc n).runs.contains r then (s.plc n).runs else (s.plc n).runs ++ [r]) := by
    split
    · next hc => simpa using hc
    · simp
  rw [slacParm, if_pos h, updPlc_plc, if_pos rfl]
  simp only [plcGo_st, true_and]
  exact hmem

/-- The collection that a start indication opens is the one found under its RunID. -/
theorem startAtten_coll (n : Nat) (r : BitVec 64) (k : Nat) (s : State) (hhear : s.slacHears n = true)
    (hnone : s.coll r = none) :
    (startAttenChar n r k s).coll r = some { run := r, sounds := k, opened := s.ht } := by
  have hold : s.app.plc.colls.find? (·.run = r) = none := hnone
  rw [startAttenChar, if_pos (by simp [hhear, hnone])]
  simp [State.coll, hold]

/-- A collection whose last sound came, or that is old enough, is one. -/
theorem coll_of_full (n : Nat) (r : BitVec 64) (s : State) (h : s.collFull n r = true) : (s.coll r).isSome = true := by
  unfold State.collFull at h
  split at h
  · next hc => simp [hc]
  · exact absurd h (by decide)

theorem coll_of_old (r : BitVec 64) (s : State) (h : s.collOld r = true) : (s.coll r).isSome = true := by
  unfold State.collOld at h
  split at h
  · next hc => simp [hc]
  · exact absurd h (by decide)

/-- Settles O25. -/
theorem slacMatching : Obligations.SlacMatching := by
  unfold Obligations.SlacMatching
  refine ⟨?_, ?_, ?_, ?_, ?_, ?_, ?_, ?_, ?_, ?_, ?_, ?_, ?_, ?_, ?_, ?_, ?_⟩
  · intro n r s h
    exact ⟨_, rfl, slacParm_eligible n r s h⟩
  · intro n r s h
    exact ⟨_, rfl, by simp [slacParm, h]⟩
  · rintro n r k s ⟨hhear, hnone⟩
    exact ⟨_, rfl, startAtten_coll n r k s hhear hnone⟩
  · intro n r k s h
    refine ⟨_, rfl, if_neg ?_⟩
    rcases h with h | h
    · simp [h]
    · simp [Option.isNone_eq_false_iff.mpr h]
  · rintro n r g s ⟨hhear, hmore⟩
    refine ⟨_, rfl, ?_⟩
    simp only [slacSound, hhear, hmore, Bool.not_true, Bool.false_eq_true, if_false]
    rfl
  · rintro n r g s ⟨hhear, hfull⟩
    refine ⟨_, rfl, ?_⟩
    simp only [slacSound, hhear, hfull, Bool.not_true, Bool.false_eq_true, if_false, if_true]
    exact (close_facts r _ (coll_of_full n r _ hfull)).1
  · intro n r g s h
    exact ⟨_, rfl, by simp [slacSound, h]⟩
  · intro r s h
    refine ⟨_, rfl, ?_⟩
    rw [if_pos h]
    exact close_facts r s (coll_of_old r s h)
  · intro r s h
    exact ⟨_, rfl, if_neg (by simp [h])⟩
  · rintro n r s ⟨hsel, hreq⟩
    exact ⟨_, rfl, by simp [slacValidate, hsel, hreq, updPlc_plc]⟩
  · intro n r s h
    refine ⟨_, rfl, if_neg ?_⟩
    rcases h with h | h <;> simp [h]
  · intro n k w s h
    exact ⟨_, rfl, by simp [slacWindowEnd, h, updPlc_plc]⟩
  · intro n k s h
    exact ⟨_, rfl, by simp [slacWindowEnd, h]⟩
  · rintro n r m s ⟨hst, hsel, hval⟩
    refine ⟨_, rfl, ?_⟩
    rw [slacMatch, if_pos (by simpa [hst, hsel] using hval), plcAny_used, updPlc_plc, if_pos rfl]
    simp only [plcEvt, plcGo_st, plcUnselect, and_self]
  · intro n r m s h
    refine ⟨_, rfl, if_neg ?_⟩
    rcases h with h | h | ⟨hreq, hval⟩
    · simp [h]
    · simp [h]
    · simp [hreq, hval]
  · intro n s h
    refine ⟨_, rfl, ?_⟩
    rw [slacMatchTimeout, if_neg (by simp [Option.isNone_eq_false_iff.mpr h]), updPlc_plc, if_pos rfl]
    by_cases hrun : (s.plc n).st = .slacRun <;> simp [plcUnselect, hrun, plcGo_st]
  · intro n s h
    exact ⟨_, rfl, by simp [slacMatchTimeout, h]⟩

end Sys2Proof.Machine
end

section
/-!
SUPPORT. Proofs about the activations of the Rein engines (09 R193 to R206).
-/
set_option Elab.async false
namespace Sys2Proof.Machine

/-! ### Claims -/

/-- A claim that reaches no context is completed and counted. -/
theorem claimMisroute_facts (e n : Nat) (s : State) :
    ((claimMisroute e n s).app.eng.get e).misroute = stick 255 (s.app.eng.get e).misroute 1 ∧
    (claimMisroute e n s).app.ctx = s.app.ctx := by
  simp [claimMisroute, claimSource]

/-- A claim of a source of the engine's own point reaches the context that holds the point. -/
theorem reinClaim_own (e k p slot : Nat) (s : State) (hrun : s.engRuns e = true) (hn : s.engineClaim e ≠ 0)
    (hsrc : pointSource (s.engineClaim e) = some (k, p)) (hown : p % 8 = e) (hhold : s.holder p = some slot) :
    reinClaim e s = claimFor (s.engineClaim e) slot k s := by
  simp only [reinClaim, hrun, hn, hsrc, hown, hhold, Bool.not_true, Bool.false_eq_true, if_false, if_true]

theorem reinClaim_other (e k p : Nat) (s : State) (hrun : s.engRuns e = true) (hn : s.engineClaim e ≠ 0)
    (hsrc : pointSource (s.engineClaim e) = some (k, p)) (hother : p % 8 ≠ e) :
    reinClaim e s = claimMisroute e (s.engineClaim e) s := by
  simp only [reinClaim, hrun, hn, hsrc, hother, Bool.not_true, Bool.false_eq_true, if_false]

theorem reinClaim_unnamed (e : Nat) (s : State) (hrun : s.engRuns e = true) (hn : s.engineClaim e ≠ 0)
    (hsrc : pointSource (s.engineClaim e) = none) (hxr : s.xrOf e (s.engineClaim e) = none) :
    reinClaim e s = claimMisroute e (s.engineClaim e) s := by
  simp [reinClaim, hrun, hn, hsrc, hxr]

/-! ### Messages -/

theorem reinStash_free (e : Nat) (m : List Word) (r : List (List Word)) (s : State)
    (hq : (s.app.mbx.pair.get (2 + e)).queue = m :: r) (hrun : s.engRuns e = true)
    (hfree : (s.app.ctx.get (32 * e + fld (m.getD 0 0) 0 5)).st = .free) :
    ((reinStash e s).app.mbx.pair.get (2 + e)).queue = r ∧
    ((reinStash e s).app.eng.get e).dropMsg = stick 63 (s.app.eng.get e).dropMsg 1 := by
  simp only [reinStash, hq, hrun, hfree, Bool.not_true, Bool.false_eq_true, if_false, if_true]
  simp [State.updPair]

theorem reinStash_stays (e : Nat) (m : List Word) (r : List (List Word)) (s : State)
    (hq : (s.app.mbx.pair.get (2 + e)).queue = m :: r)
    (hused : (s.app.ctx.get (32 * e + fld (m.getD 0 0) 0 5)).st ≠ .free)
    (hbusy : (s.app.ctx.get (32 * e + fld (m.getD 0 0) 0 5)).st = .running ∨
      8 ≤ (s.app.ctx.get (32 * e + fld (m.getD 0 0) 0 5)).stash.length) : reinStash e s = s := by
  have hbar : (decide ((s.app.ctx.get (32 * e + fld (m.getD 0 0) 0 5)).st = .running) ||
      decide (8 ≤ (s.app.ctx.get (32 * e + fld (m.getD 0 0) 0 5)).stash.length)) = true := by
    rcases hbusy with h | h
    · rw [decide_eq_true h, Bool.true_or]
    · rw [decide_eq_true h, Bool.or_true]
  simp only [reinStash, hq, hused, hbar, if_false, if_true, ite_self]

/-! ### The end of an activation -/

/-- After SES_DONE the engine runs no context, whatever the state it finds. -/
theorem sesDone_running (e : Nat) (s : State) : ((sesDone e s).app.eng.get e).running = none := by
  unfold sesDone
  split
  · next h => exact h
  · simp only [putCtx_engs, endAct_eng, if_true]

theorem ctxFree_eng (slot : Nat) (s : State) : (ctxFree slot s).2.app.eng = s.app.eng := by
  have horphan : ∀ t : State, (girthOrphan slot t).app.eng = t.app.eng := by
    intro t
    unfold girthOrphan
    refine foldl_fix (fun t : State => t.app.eng) _ ?_ _ _
    intro _ _
    rfl
  have hlevels : (completeLevels slot s).app.eng = s.app.eng := by
    unfold completeLevels
    simp only [updCtx_same, compSrc_same]
  unfold ctxFree
  dsimp only
  split
  · rfl
  · rw [(putCtx_engs _ _ _).1, horphan, hlevels]

theorem doneServed_running (e : Nat) (s : State) : ((doneServed e s).app.eng.get e).running = none := by
  unfold doneServed
  split
  · next h => exact h
  · dsimp only
    split
    · rw [ctxFree_eng]
      exact sesDone_running e _
    · exact sesDone_running e _

/-- With no class delivered, no request waiting and the session neither stopping nor closing there is nothing to serve. -/
theorem serveAll_idle (slot : Nat) (s : State)
    (hcls : (s.app.ctx.get slot).evWord.setWidth 16 ||| (s.app.ctx.get slot).taken = 0)
    (hwait : (s.vc (s.app.ctx.get slot).point).waiting = false) (h8 : s.phase slot ≠ 8) (h9 : s.phase slot ≠ 9) :
    serveAll slot s = s := by
  have hbits : bitsOf (0 : BitVec 16) = [] := by decide
  have hans : answerWaiting (s.app.ctx.get slot).point slot s = s := by simp [answerWaiting, hwait]
  simp only [serveAll, hcls, hbits, List.foldl_nil, hans, h8, h9, if_false]

/-- Such an activation leaves its context idle, or ready with something pending. -/
theorem doneServed_idle (e k : Nat) (s : State) (hrun : (s.app.eng.get e).running = some k)
    (hserve : serveAll (32 * e + k) s = s) (hend : (sesDone e s).sessionEnded (32 * e + k) = false) :
    ((doneServed e s).app.eng.get e).running = none ∧
    ((doneServed e s).app.ctx.get (32 * e + k)).st =
      (if (s.app.ctx.get (32 * e + k)).pend = 0 then .idle else .ready) := by
  refine ⟨doneServed_running e s, ?_⟩
  have hdone : doneServed e s = sesDone e s := by
    simp only [doneServed, hrun, hserve, hend, Bool.false_eq_true, if_false]
  rw [hdone]
  simp only [sesDone, hrun, putCtx_ctx, endAct_ctx, if_true]

theorem commitNotices_full (e n : Nat) (s : State) (h : 8 ≤ (s.app.mbx.pair.get (12 + e)).queue.length) :
    commitNotices e n s = s := by
  cases n with
  | zero => rfl
  | succ n =>
    simp only [commitNotices]
    split
    · rfl
    · rw [if_pos h]

/-! ### Software events -/

/-- A software event that is not taken is answered STATE to a FREE context and BUSY to a full one. -/
theorem postCode_barred (e k : Nat) (code : Byte) (s : State) (h : (s.app.ctx.get (32 * e + k)).st = .free ∨
    8 ≤ (s.app.ctx.get (32 * e + k)).codes.length) :
    (postCode e k code s).1 = if (s.app.ctx.get (32 * e + k)).st = .free then .state else .busy := by
  unfold postCode
  by_cases hfree : (s.app.ctx.get (32 * e + k)).st = .free
  · simp [hfree]
  · simp [hfree, h.resolve_left hfree]

theorem sesPost_status (e : Nat) (v : Word) (k : Nat) (s : State) (hrun : (s.app.eng.get e).running = some k) :
    ((sesPost e v s).app.ctx.get (32 * e + k)).postSt = (postCode e (fld v 0 5) (BitVec.ofNat 8 (fld v 8 8)) s).1 := by
  simp only [sesPost, hrun, putCtx_ctx, if_true]

theorem sesPostr_status (port e : Nat) (v : Word) (s : State) (hw : sesWriter port e = true) (hp : port ≠ 4 + e) :
    ((sesPostr port e v s).app.eng.get e).postrSt.get port = (postCode e (fld v 0 5) (BitVec.ofNat 8 (fld v 8 8)) s).1 := by
  simp [sesPostr, hw, hp]

/-! ### Timers -/

theorem timerExpiry_early (slot : Nat) (s : State) (h : s.num (ctxBase slot + 0x28) 8 = 0 ∨
    s.ht < s.num (ctxBase slot + 0x28) 8 ∨ (s.app.ctx.get slot).st = .free) : timerExpiry slot s = s := by
  unfold timerExpiry
  rw [if_pos (by simpa [or_assoc] using h)]

theorem timerExpiry_reached (slot : Nat) (s : State) (hset : s.num (ctxBase slot + 0x28) 8 ≠ 0)
    (hreach : s.num (ctxBase slot + 0x28) 8 ≤ s.ht) (hused : (s.app.ctx.get slot).st ≠ .free) :
    ((timerExpiry slot s).app.ctx.get slot).pend.getLsbD 5 = true := by
  unfold timerExpiry
  rw [if_neg (by simp [hset, Nat.not_lt.mpr hreach, hused])]
  exact (postClass_pend slot 5 (by decide) _ (by simpa using hused)).1

/-! ### The obligation -/

/-- Settles O26. -/
theorem sessionActivations : Obligations.SessionActivations := by
  unfold Obligations.SessionActivations
  refine ⟨?_, ?_, ?_, ?_, ?_, ?_, ?_, ?_, ?_, ?_, ?_, ?_, ?_, ?_, ?_, ?_, ?_, ?_, ?_, ?_, ?_, ?_, ?_, ?_, ?_, ?_, ?_⟩
  · rintro e k p slot s ⟨hrun, hn, hsrc, hown, hhold, hused, hk⟩
    refine ⟨_, rfl, ?_⟩
    rw [reinClaim_own e k p slot s hrun hn hsrc hown hhold]
    exact claimFor_pend _ slot k hk s hused
  · rintro e k p s ⟨hrun, hn, hsrc, hother⟩
    refine ⟨_, rfl, ?_⟩
    rw [reinClaim_other e k p s hrun hn hsrc hother]
    exact claimMisroute_facts _ _ s
  · rintro e s ⟨hrun, hn, hsrc, hxr⟩
    refine ⟨_, rfl, ?_⟩
    rw [reinClaim_unnamed e s hrun hn hsrc hxr]
    exact claimMisroute_facts _ _ s
  · intro e s h
    refine ⟨_, rfl, ?_⟩
    rcases h with h | h <;> simp [reinClaim, h]
  · intro e s h
    refine ⟨_, rfl, ?_⟩
    unfold reinStash
    split
    · rfl
    · next hq =>
      rcases h with h | h
      · rw [h] at hq
        cases hq
      · rw [if_pos (by simp [h])]
  · rintro e m r slot s ⟨hq, rfl, hused, hbusy⟩
    exact ⟨_, rfl, reinStash_stays e m r s hq hused hbusy⟩
  · rintro e m r s ⟨hq, hrun, hfree⟩
    exact ⟨_, rfl, reinStash_free e m r s hq hrun hfree⟩
  · intro e m r slot s h
    exact ⟨_, rfl, stash_facts e m r slot s h⟩
  · rintro e k s ⟨hrun, hhalt, hnone, hnext⟩
    refine ⟨_, rfl, ?_⟩
    rw [reinActivate, if_neg (by simp [hrun, hhalt, hnone]), hnext]
    exact deliver_facts e k s
  · intro e s h
    refine ⟨_, rfl, ?_⟩
    unfold reinActivate
    split
    · rfl
    · next hgo =>
      have hnext : s.nextReady e = none := by
        rcases h with h | h | h | h
        · simp [h] at hgo
        · simp [h] at hgo
        · simp [Option.isSome_iff_ne_none.mp h] at hgo
        · exact h
      rw [hnext]
  · intro e s _
    exact ⟨_, rfl, doneServed_running e s⟩
  · intro e s h
    exact ⟨_, rfl, by simp [doneServed, h]⟩
  · rintro e k s ⟨hrun, hcls, hwait, h8, h9, hend⟩
    exact ⟨_, rfl, doneServed_idle e k s hrun (serveAll_idle _ s hcls hwait h8 h9) hend⟩
  · rintro e k s ⟨hhalt, hrun, hleft⟩
    refine ⟨_, rfl, ?_⟩
    rw [if_neg (by simp [hhalt, State.budgetGone, hrun, hleft])]
    exact trap_facts e k 1 _ s hrun
  · intro e s h
    exact ⟨_, rfl, if_pos (by simpa using h)⟩
  · intro e s h
    exact ⟨_, rfl, commitNotices_full e 33 s h⟩
  · rintro e m s ⟨hone, hroom⟩
    exact ⟨_, rfl, commit_one e m s hone hroom⟩
  · rintro e v k s ⟨hrun, hused, hroom⟩
    exact ⟨_, rfl, post_facts e v k s hrun hused hroom⟩
  · rintro e v k s ⟨hrun, hbar⟩
    exact ⟨_, rfl, (sesPost_status e v k s hrun).trans (postCode_barred e _ _ s hbar)⟩
  · intro e v s h
    exact ⟨_, rfl, by simp [sesPost, h]⟩
  · rintro port e v s ⟨hw, hp, hused, hroom⟩
    exact ⟨_, rfl, postr_facts port e v s hw hp hused hroom⟩
  · intro port e v s h
    exact ⟨_, rfl, by simp [sesPostr, h]⟩
  · rintro port e v s ⟨hw, hp, hbar⟩
    exact ⟨_, rfl, (sesPostr_status port e v s hw hp).trans (postCode_barred e _ _ s hbar)⟩
  · intro e v k s h
    exact ⟨_, rfl, by simp [evTake, h, putCtx_ctx]⟩
  · intro e v s h
    exact ⟨_, rfl, by simp [evTake, h]⟩
  · intro slot s h
    exact ⟨_, rfl, timerExpiry_early slot s h⟩
  · rintro slot s ⟨hset, hreach, hused⟩
    exact ⟨_, rfl, timerExpiry_reached slot s hset hreach hused⟩

end Sys2Proof.Machine
end

section
/-!
SUPPORT. Proofs about the commands to contexts (09 R207 to R216).
-/
set_option Elab.async false
namespace Sys2Proof.Machine

/-! ### The state of a command -/

/-- A command of a writer is the operation of its number, and its status shows beside it. -/
theorem sesCmd_restart (port e : Nat) (v : Word) (s : State) (h : sesWriter port e = true) : sesCmd 2 port e v s =
    busOk 0 (putCmdSt port e (0, fld v 0 5, (ctxRestart (32 * e + fld v 0 5) s).1) (ctxRestart (32 * e + fld v 0 5) s).2) := by
  simp only [sesCmd, h, Bool.not_true, Bool.false_eq_true, if_false]

theorem sesCmd_free (port e : Nat) (v : Word) (s : State) (h : sesWriter port e = true) : sesCmd 3 port e v s =
    busOk 0 (putCmdSt port e (0, fld v 0 5, (freeCmd port (32 * e + fld v 0 5) s).1) (freeCmd port (32 * e + fld v 0 5) s).2) := by
  simp only [sesCmd, h, Bool.not_true, Bool.false_eq_true, if_false]

theorem sesCmd_role (port e : Nat) (v : Word) (s : State) (h : sesWriter port e = true) : sesCmd 4 port e v s =
    busOk 0 (putCmdSt port e (0, fld v 0 5, (ctxSetRole (32 * e + fld v 0 5) (fld v 6 2) s).1)
      (ctxSetRole (32 * e + fld v 0 5) (fld v 6 2) s).2) := by
  simp only [sesCmd, h, Bool.not_true, Bool.false_eq_true, if_false]

theorem sesCmd_barred (cmd port e : Nat) (v : Word) (s : State) (h : sesWriter port e = false) :
    sesCmd cmd port e v s = busFail s := by
  simp only [sesCmd, h, Bool.not_false, if_true]

/-- The shown status changes of no context its state, its role or what is pending there. -/
theorem cmdShown_ctx (port e : Nat) (x : Nat × Nat × Status) (s : State) (j : Nat) :
    ((busOk 0 (putCmdSt port e x s)).app.ctx.get j).st = (s.app.ctx.get j).st ∧
    ((busOk 0 (putCmdSt port e x s)).app.ctx.get j).role = (s.app.ctx.get j).role ∧
    ((busOk 0 (putCmdSt port e x s)).app.ctx.get j).pend = (s.app.ctx.get j).pend := by
  obtain ⟨hst, hrole, -, -, hpend⟩ := cmdSt_ctx port e x s j
  exact ⟨hst, hrole, hpend⟩

/-! ### The operations -/

theorem ctxRestart_ok (slot : Nat) (s : State) (hst : (s.app.ctx.get slot).st = .trapped)
    (hcause : (s.app.ctx.get slot).cause ≠ 3) : ((ctxRestart slot s).2.app.ctx.get slot).st = .ready ∧
    ((ctxRestart slot s).2.app.ctx.get slot).pend.getLsbD 0 = true := by
  rw [ctxRestart, if_pos (by simp [hst, hcause])]
  simp [putCtx_ctx, putBit]

theorem ctxRestart_refused (slot : Nat) (s : State) (h : (s.app.ctx.get slot).st ≠ .trapped ∨
    (s.app.ctx.get slot).cause = 3) : (ctxRestart slot s).2 = s := by
  rw [ctxRestart, if_neg (by rcases h with h | h <;> simp [h])]

theorem freeCmd_refused (port slot : Nat) (s : State) (h : (s.app.ctx.get slot).st = .free ∨
    (s.app.ctx.get slot).st = .running) : (freeCmd port slot s).2 = s := by
  rcases h with h | h <;> simp [freeCmd, ctxFree, h]

theorem ctxSetRole_ok (slot r : Nat) (s : State) (hst : (s.app.ctx.get slot).st ≠ .free)
    (hstep : roleStep (s.app.ctx.get slot).role r = true) (hnone : s.slotOfRole (s.app.ctx.get slot).point r = none) :
    ((ctxSetRole slot r s).2.app.ctx.get slot).role = r ∧
    ((ctxSetRole slot r s).2.app.ctx.get slot).st = (s.app.ctx.get slot).st := by
  rw [ctxSetRole, if_neg (by simp [hst, hstep, hnone])]
  simp [putCtx_ctx]

theorem ctxSetRole_refused (slot r : Nat) (s : State) (h : (s.app.ctx.get slot).st = .free ∨
    roleStep (s.app.ctx.get slot).role r = false ∨ (s.slotOfRole (s.app.ctx.get slot).point r).isSome = true) :
    (ctxSetRole slot r s).2 = s := by
  rw [ctxSetRole, if_pos (by simpa [or_assoc] using h)]

/-! ### The obligation -/

/-- Settles O27. -/
theorem contextCommands : Obligations.ContextCommands := by
  unfold Obligations.ContextCommands
  refine ⟨?_, ?_, ?_, ?_, ?_, ?_, ?_, ?_, ?_, ?_, ?_, ?_, ?_⟩
  · rintro port e v s ⟨hw, hok⟩
    exact ⟨_, rfl, start_facts port e v s hw hok⟩
  · rintro port e v s ⟨hw, hbar⟩
    exact ⟨_, rfl, start_refused port e v s hw hbar⟩
  · intro port e v s h
    exact ⟨_, rfl, sesCmd_barred 1 port e v s h⟩
  · rintro port e v s ⟨hw, hst, hcause⟩
    obtain ⟨hready, hpend⟩ := ctxRestart_ok _ s hst hcause
    refine ⟨_, congrArg Host.Outcome.next (sesCmd_restart port e v s hw), ?_⟩
    rw [(cmdShown_ctx _ _ _ _ _).1, (cmdShown_ctx _ _ _ _ _).2.2]
    exact ⟨hready, hpend⟩
  · rintro port e v s ⟨hw, h⟩
    refine ⟨_, congrArg Host.Outcome.next (sesCmd_restart port e v s hw), fun j => ?_⟩
    rw [(cmdShown_ctx _ _ _ _ j).1, ctxRestart_refused _ s h]
  · intro port e v s h
    exact ⟨_, rfl, sesCmd_barred 2 port e v s h⟩
  · rintro port e v s ⟨hw, hfree, hrun⟩
    obtain ⟨u, hu, hst, hpend⟩ := free_eq port _ s hfree hrun
    refine ⟨_, congrArg Host.Outcome.next (sesCmd_free port e v s hw), ?_⟩
    rw [(cmdShown_ctx _ _ _ _ _).1, (cmdShown_ctx _ _ _ _ _).2.2, hu]
    exact ⟨hst, hpend⟩
  · rintro port e v s ⟨hw, h⟩
    refine ⟨_, congrArg Host.Outcome.next (sesCmd_free port e v s hw), fun j => ?_⟩
    rw [(cmdShown_ctx _ _ _ _ j).1, freeCmd_refused port _ s h]
  · intro port e v s h
    exact ⟨_, rfl, sesCmd_barred 3 port e v s h⟩
  · rintro port e v s ⟨hw, hst, hstep, hnone⟩
    obtain ⟨hrole, hkeep⟩ := ctxSetRole_ok _ _ s hst hstep hnone
    refine ⟨_, congrArg Host.Outcome.next (sesCmd_role port e v s hw), ?_⟩
    rw [(cmdShown_ctx _ _ _ _ _).1, (cmdShown_ctx _ _ _ _ _).2.1]
    exact ⟨hrole, hkeep⟩
  · rintro port e v s ⟨hw, h⟩
    refine ⟨_, congrArg Host.Outcome.next (sesCmd_role port e v s hw), fun j => ?_⟩
    rw [(cmdShown_ctx _ _ _ _ j).2.1, ctxSetRole_refused _ _ s h]
  · intro port e v s h
    exact ⟨_, rfl, sesCmd_barred 4 port e v s h⟩
  · intro slot s
    exact ⟨_, rfl, rfl, by simp [sesUseRead]⟩

end Sys2Proof.Machine
end

section
/-!
SUPPORT. Proofs about SDO and USDO transfers (06 R157 to R160).
-/
set_option Elab.async false
namespace Sys2Proof.Machine

/-! ### SDO channels -/

/-- A channel without an open transfer has nothing to give up. -/
theorem sdoFresh_none (f ch : Nat) (s : State) (h : (s.fport f).sdo.get ch = none) : sdoFresh f ch s = s := by
  simp only [sdoFresh, h]

theorem setSdo_same (f ch : Nat) (x : Option SdoXfer) (s : State) : ((setSdo f ch x s).fport f).sdo.get ch = x := by
  rw [setSdo_get, if_pos rfl]

theorem setUsdo_same (f n : Nat) (x : Option SdoXfer) (s : State) : ((setUsdo f n x s).fport f).usdo.get n = x := by
  rw [setUsdo_get, if_pos rfl]

theorem sdoDownSeg_more (f ch : Nat) (d : List Byte) (x : SdoXfer) (s : State)
    (hx : (s.fport f).sdo.get ch = some x) (hdown : x.down = true) : ((sdoDownSeg f ch x.toggle false d s).fport f).sdo.get ch =
      some { x with data := x.data ++ d, toggle := !x.toggle } := by
  simp only [sdoDownSeg, hx, hdown, Bool.not_true, Bool.false_eq_true, if_false, ne_eq, not_true_eq_false, Bool.not_false,
    if_true, sendS_sdo, setSdo_same]

/-- A segment of an upload, or of the wrong toggle, ends the transfer. -/
theorem sdoDownSeg_wrong (f ch : Nat) (g last : Bool) (d : List Byte) (x : SdoXfer) (s : State)
    (hx : (s.fport f).sdo.get ch = some x) (h : x.down = false ∨ g ≠ x.toggle) :
    ((sdoDownSeg f ch g last d s).fport f).sdo.get ch = none := by
  unfold sdoDownSeg
  simp only [hx]
  split
  · rw [abort_sdo, setSdo_same]
  · next hdown =>
    rw [if_pos (h.resolve_left (by simpa using hdown)), abort_sdo, setSdo_same]

/-- So does a segment of a download, one of the wrong toggle, and the one that takes the last bytes. -/
theorem sdoUpSeg_ends (f ch : Nat) (g : Bool) (x : SdoXfer) (s : State) (hx : (s.fport f).sdo.get ch = some x)
    (h : x.down = true ∨ g ≠ x.toggle ∨ x.data.length ≤ 7) : ((sdoUpSeg f ch g s).fport f).sdo.get ch = none := by
  unfold sdoUpSeg
  simp only [hx]
  split
  · rw [abort_sdo, setSdo_same]
  split
  · rw [abort_sdo, setSdo_same]
  · next hdown htog =>
    have hlast : (x.data.drop 7).isEmpty = true := by
      simpa using (h.resolve_left hdown).resolve_left htog
    rw [sendS_sdo, setSdo_same, if_pos hlast]

/-! ### USDO clients -/

/-- What a client asks is served with the role that the port gives its node. -/
theorem execUsdoRequest_served (f : Fin 2) (n : Fin 128) (r : UsdoReq) (s : State) (hserve : s.portServes f = true)
    (hmode : (s.fport f).mode = 2) (hn : n.val ≠ 0) (hnode : s.onum (0x2024 + f) n ≠ 255) : execUsdoRequest f n r s =
      .next (usdoServe f n (if s.onum (0x2024 + f) n = 2 then .operator else .pub) r s) := by
  unfold execUsdoRequest
  rw [if_neg (by simp [hserve, hmode, hn, hnode])]

/-- A client without an open transfer has nothing to give up. -/
theorem usdoFresh_none (f n : Nat) (s : State) (h : (s.fport f).usdo.get n = none) : usdoFresh f n s = s := by
  simp [usdoFresh, h]

theorem usdoServe_read (f n : Nat) (role : Role) (i : BitVec 16) (j : BitVec 8) (s : State)
    (hnone : (s.fport f).usdo.get n = none)
    (hok : (readRequest (s.canAsker f (8 + n) role) i.toNat j.toNat s).1 = .ok)
    (hlen : (readRequest (s.canAsker f (8 + n) role) i.toNat j.toNat s).2.1.length ≤ 56) :
    usdoServe f n role (.read i j) s = usdoSend f n 0 (readRequest (s.canAsker f (8 + n) role) i.toNat j.toNat s).2.1
      (readRequest (s.canAsker f (8 + n) role) i.toNat j.toNat s).2.2 := by
  simp only [usdoServe, usdoFresh_none f n s hnone, hok, ne_eq, not_true_eq_false, if_false]
  exact if_pos hlen

theorem usdoServe_write (f n : Nat) (role : Role) (i : BitVec 16) (j : BitVec 8) (d : List Byte) (s : State)
    (hnone : (s.fport f).usdo.get n = none) :
    usdoServe f n role (.write i j d) s = usdoWrite f n role i.toNat j.toNat d s := by
  simp only [usdoServe, usdoFresh_none f n s hnone]

/-- A segmented download is opened while fewer than 8 transfers are open. -/
theorem usdoServe_downInit (f n : Nat) (role : Role) (i : BitVec 16) (j : BitVec 8) (k : Nat) (d : List Byte) (s : State)
    (hnone : (s.fport f).usdo.get n = none) (hroom : s.usdoOpen f < 8) :
    ((usdoServe f n role (.downInit i j k d) s).fport f).usdo.get n =
      some { idx := i.toNat, sub := j.toNat, down := true, role := role, data := d, total := k } := by
  simp only [usdoServe, usdoFresh_none f n s hnone, usdoBegin, Nat.not_le.mpr hroom, if_false, usend_usdo, setUsdo_same]

theorem usdoServe_downSeg (f n : Nat) (role : Role) (d : List Byte) (x : SdoXfer) (s : State)
    (hx : (s.fport f).usdo.get n = some x) (hdown : x.down = true) :
    ((usdoServe f n role (.downSeg false d) s).fport f).usdo.get n = some { x with data := x.data ++ d } := by
  simp only [usdoServe, hx, hdown, Bool.not_true, Bool.not_false, Bool.false_eq_true, if_false, if_true, usend_usdo,
    setUsdo_same]

/-- The segment that takes the last bytes ends the transfer. -/
theorem usdoServe_upLast (f n : Nat) (role : Role) (x : SdoXfer) (s : State) (hx : (s.fport f).usdo.get n = some x)
    (hdown : x.down = false) (hlen : x.data.length ≤ 56) : ((usdoServe f n role .upSeg s).fport f).usdo.get n = none := by
  have hlast : (x.data.drop usdoPart).isEmpty = true := by simpa [usdoPart] using hlen
  simp only [usdoServe, hx, hdown, Bool.false_eq_true, if_false, usend_usdo, setUsdo_same, hlast, if_true]

/-! ### Timeouts -/

/-- The status of a lost transfer moves no transfer and no count. -/
theorem setLast_can (f c : Nat) (st : Status) (s : State) :
    (∀ k, ((setLast (.can f c) st s).fport k).sdo = (s.fport k).sdo ∧ ((setLast (.can f c) st s).fport k).usdo = (s.fport k).usdo) ∧
    (setLast (.can f c) st s).app.server.timeouts = s.app.server.timeouts := by
  refine ⟨fun k => ?_, rfl⟩
  simp only [setLast, fport_upd]
  split <;> exact ⟨rfl, rfl⟩

/-- What the end of a transfer of client `c` by a timeout leaves before its abort is sent. -/
def canLost (f c : Nat) (s : State) : State :=
  let t := setLast (.can f c) .timeout s
  { t with app.server.timeouts := stick (2 ^ 32 - 1) t.app.server.timeouts 1 }

theorem canLost_fport (f c k : Nat) (s : State) : ((canLost f c s).fport k).sdo = (s.fport k).sdo ∧
    ((canLost f c s).fport k).usdo = (s.fport k).usdo :=
  (setLast_can f c .timeout s).1 k

theorem canLost_timeouts (f c : Nat) (s : State) :
    (canLost f c s).app.server.timeouts = stick (2 ^ 32 - 1) s.app.server.timeouts 1 := by
  simp only [canLost, (setLast_can f c .timeout s).2]

theorem execSegmentTimeout_sdo (f : Fin 2) (ch : Fin 8) (x : SdoXfer) (s : State) (hx : (s.fport f).sdo.get ch = some x) :
    execSdoSegmentTimeout f (.sdo ch) s = .next (sdoAbort f ch x.idx x.sub 0x05040000 (canLost f ch (setSdo f ch none s))) := by
  simp only [execSdoSegmentTimeout, hx]
  rfl

theorem execSegmentTimeout_usdo (f : Fin 2) (n : Fin 128) (s : State) (h : ((s.fport f).usdo.get n).isSome = true) :
    execSdoSegmentTimeout f (.usdo n) s = .next (usdoSend f n 0x05040000 [] (canLost f (8 + n) (setUsdo f n none s))) := by
  simp only [execSdoSegmentTimeout, h, if_true]
  rfl

/-! ### The obligation -/

/-- Settles O28. -/
theorem sdoAndUsdoTransfers : Obligations.SdoAndUsdoTransfers := by
  unfold Obligations.SdoAndUsdoTransfers
  refine ⟨?_, ?_, ?_, ?_, ?_, ?_, ?_, ?_, ?_, ?_, ?_, ?_, ?_, ?_, ?_, ?_, ?_, ?_, ?_, ?_, ?_, ?_, ?_, ?_⟩
  · rintro f ch i j n d s ⟨hon, hnone⟩
    refine ⟨_, rfl, ?_⟩
    rw [if_neg (by simp [hon]), sdoFresh_none f ch s hnone]
    simp only [Bool.false_eq_true, if_false, reply_sdo, setSdo_same]
  · rintro f ch i j n d s ⟨hon, hnone⟩
    refine ⟨_, rfl, ?_⟩
    rw [if_neg (by simp [hon]), sdoFresh_none f ch s hnone, if_pos rfl]
  · intro f ch i j x n d s h
    exact ⟨_, rfl, if_pos (by simp [h])⟩
  · rintro f ch g d x s ⟨hon, hx, hdown, rfl⟩
    refine ⟨_, rfl, ?_⟩
    rw [if_pos hon]
    exact sdoDownSeg_more f ch d x s hx hdown
  · rintro f ch g last d x s ⟨hon, hx, h⟩
    refine ⟨_, rfl, ?_⟩
    rw [if_pos hon]
    exact sdoDownSeg_wrong f ch g last d x s hx h
  · intro f ch g last d s h
    exact ⟨_, rfl, if_neg (by simp [h])⟩
  · rintro f ch i j s ⟨hon, hnone, hok, hlen⟩
    refine ⟨_, rfl, ?_⟩
    rw [if_neg (by simp [hon]), sdoFresh_none f ch s hnone]
    simp only [hok, hlen, ne_eq, not_true_eq_false, if_false, if_true]
  · intro f ch i j s h
    exact ⟨_, rfl, if_pos (by simp [h])⟩
  · rintro f ch g x s ⟨hon, hx, h⟩
    refine ⟨_, rfl, ?_⟩
    rw [if_pos hon]
    exact sdoUpSeg_ends f ch g x s hx h
  · intro f ch g s h
    exact ⟨_, rfl, if_neg (by simp [h])⟩
  · intro f ch s h
    refine ⟨_, rfl, ?_⟩
    rw [if_pos h, abort_sdo, setSdo_same]
  · intro f ch s h
    exact ⟨_, rfl, if_neg (by simp [h])⟩
  · intro f n r s h
    refine ⟨_, rfl, if_pos ?_⟩
    rcases h with h | h | h | h <;> simp [h]
  · rintro f n i j role s ⟨hserve, hmode, hn, hnode, rfl, hnone, hok, hlen⟩
    exact ⟨_, execUsdoRequest_served f n _ s hserve hmode hn hnode, usdoServe_read f n _ i j s hnone hok hlen⟩
  · rintro f n i j d s ⟨hserve, hmode, hn, hnode, hnone⟩
    exact ⟨_, execUsdoRequest_served f n _ s hserve hmode hn hnode, usdoServe_write f n _ i j d s hnone⟩
  · rintro f n i j k d s ⟨hserve, hmode, hn, hnode, hnone, hroom⟩
    exact ⟨_, execUsdoRequest_served f n _ s hserve hmode hn hnode, usdoServe_downInit f n _ i j k d s hnone hroom⟩
  · rintro f n l d s ⟨hserve, hmode, hn, hnode, hnone⟩
    exact ⟨_, execUsdoRequest_served f n _ s hserve hmode hn hnode, by simp only [usdoServe, hnone]⟩
  · rintro f n d x s ⟨hserve, hmode, hn, hnode, hx, hdown⟩
    exact ⟨_, execUsdoRequest_served f n _ s hserve hmode hn hnode, usdoServe_downSeg f n _ d x s hx hdown⟩
  · rintro f n s ⟨hserve, hmode, hn, hnode, hnone⟩
    exact ⟨_, execUsdoRequest_served f n _ s hserve hmode hn hnode, by simp only [usdoServe, hnone]⟩
  · rintro f n x s ⟨hserve, hmode, hn, hnode, hx, hdown, hlen⟩
    exact ⟨_, execUsdoRequest_served f n _ s hserve hmode hn hnode, usdoServe_upLast f n _ x s hx hdown hlen⟩
  · intro f ch x s h
    refine ⟨_, execSegmentTimeout_sdo f ch x s h, ?_, ?_⟩
    · rw [abort_sdo, (canLost_fport _ _ _ _).1, setSdo_same]
    · exact (send_timeouts _ _ _).trans (canLost_timeouts _ _ _)
  · intro f n s h
    refine ⟨_, execSegmentTimeout_usdo f n s h, ?_, ?_⟩
    · rw [usend_usdo, (canLost_fport _ _ _ _).2, setUsdo_same]
    · exact (send_timeouts _ _ _).trans (canLost_timeouts _ _ _)
  · intro f ch s h
    refine ⟨s, ?_, rfl⟩
    exact congrArg Host.Outcome.next (by simp only [h])
  · intro f n s h
    refine ⟨s, ?_, rfl⟩
    exact congrArg Host.Outcome.next (if_neg (by simp [h]))

end Sys2Proof.Machine
end

section
/-!
SUPPORT. Proofs about the states and process data of the field ports (06 R149 to R156, R161).
-/
set_option Elab.async false
namespace Sys2Proof.Machine

theorem fport_upd_same (s : State) (x : Nat) (f : FieldPort → FieldPort) : (s.updPort x f).fport x = f (s.fport x) := by
  rw [fport_upd, if_pos rfl]

/-- A process data object that is sent notes when and what. -/
theorem tpdoSend_run (f n : Nat) (s : State) : ((tpdoSend f n s).fport f).trun.get n =
    { syncs := 0, sent := some s.ht, last := s.tpdoValue ((s.fport f).tpdo.get n) } := by
  obtain ⟨sent, txq, full, hsend⟩ := send_some f
    { id := ((s.fport f).tpdo.get n).cob % 2048, fd := (s.fport f).mode = 2, data := s.tpdoValue ((s.fport f).tpdo.get n) }
    (s.updPort f fun p => { p with
      trun := p.trun.set n { syncs := 0, sent := some s.ht, last := s.tpdoValue ((s.fport f).tpdo.get n) } }) f
  unfold tpdoSend
  dsimp only
  rw [hsend, fport_upd_same, Bank.get_set_same]

/-- Settles O29. -/
theorem fieldPortStatesAndPdos : Obligations.FieldPortStatesAndPdos := by
  unfold Obligations.FieldPortStatesAndPdos
  refine ⟨?_, ?_, ?_, ?_, ?_, ?_, ?_, ?_, ?_, ?_, ?_, ?_, ?_, ?_, ?_, ?_, ?_, ?_, ?_, ?_, ?_⟩
  · intro f s h
    refine ⟨_, rfl, ?_⟩
    rw [if_pos h]
    simp [enterOper, fport_upd_same]
  · intro f s h
    exact ⟨_, rfl, if_neg (by simp [h])⟩
  · intro f s h
    refine ⟨_, rfl, ?_⟩
    rw [if_pos h, fport_upd_same]
    exact ⟨rfl, fun _ => ⟨rfl, rfl⟩⟩
  · intro f s h
    exact ⟨_, rfl, if_neg (by simp [h])⟩
  · intro f s h
    refine ⟨_, rfl, ?_⟩
    rw [if_pos h, fport_upd_same]
  · intro f s h
    exact ⟨_, rfl, if_neg (by simp [h])⟩
  · intro f s h
    refine ⟨_, rfl, ?_⟩
    rw [if_pos h]
    exact boot_facts f s
  · intro f s h
    exact ⟨_, rfl, if_neg (by simp [h])⟩
  · intro f s h
    refine ⟨_, rfl, ?_⟩
    rw [if_pos h]
    exact boot_facts f s
  · intro f s h
    exact ⟨_, rfl, if_neg (by simp [h])⟩
  · intro f s h
    exact ⟨_, rfl, if_pos h⟩
  · rintro f s ⟨hper, hsend⟩
    refine ⟨_, rfl, ?_⟩
    rw [if_neg hper]
    exact send_now f _ s hsend
  · intro f s h
    refine ⟨_, rfl, if_neg ?_⟩
    rcases h with h | h <;> simp [h]
  · rintro f s ⟨hhear, hoper⟩
    exact ⟨_, rfl, if_pos (by simp [hhear, hoper])⟩
  · intro f n s h
    refine ⟨_, rfl, if_neg ?_⟩
    rcases h with h | h | h | h | h | h
    case inr.inr.inr.inl => simp [Nat.not_le.mpr h]
    all_goals simp [h]
  · rintro f n s ⟨hhear, hoper, hon, htype, htimer, hfree⟩
    refine ⟨_, rfl, ?_⟩
    rw [if_pos (by simp [hhear, hoper, hon, htype, htimer, hfree])]
    exact tpdoSend_run f n s
  · intro f s
    refine ⟨_, rfl, ?_⟩
    rw [fport_upd_same]
    exact ⟨rfl, fun _ => ⟨rfl, rfl⟩⟩
  · intro f s h
    refine ⟨_, rfl, ?_⟩
    rw [if_pos h, (emcy_keep _ _ _ _ _).1, (emcy_keep _ _ _ _ _).2, (resume_keep _ _).1, (resume_keep _ _).2, fport_upd_same]
    exact ⟨rfl, rfl⟩
  · intro f s h
    exact ⟨_, rfl, if_neg (by simp [h])⟩
  · intro f s
    refine ⟨_, rfl, ?_⟩
    split
    · next h => exact h
    · rw [(emcy_keep _ _ _ _ _).2, fport_upd_same]
  · intro f s h
    exact ⟨_, rfl, if_pos h⟩

end Sys2Proof.Machine
end

section
/-!
SUPPORT. Proofs about the connections of Latigo (06 R162 to R169).
-/
set_option Elab.async false
namespace Sys2Proof.Machine

/-! ### One connection -/

theorem onConn_some {c : Nat} {x : Conn} {s : State} (h : s.conn c = some x) (f : Conn → State → State) :
    onConn c f s = f x s := by
  simp only [onConn, h]

theorem onConn_none {c : Nat} {s : State} (h : s.conn c = none) (f : Conn → State → State) : onConn c f s = s := by
  simp only [onConn, h]

/-- A frame on an open connection is served at the time it was heard. -/
theorem onFrame_some {c : Nat} {x : Conn} {s : State} (h : s.conn c = some x) (f : Conn → State → State) :
    onFrame c f s = f x (s.updConn c fun z => { z with heard := s.ht }) := onConn_some h _

theorem onFrame_none {c : Nat} {s : State} (h : s.conn c = none) (f : Conn → State → State) : onFrame c f s = s :=
  onConn_none h _

theorem conn_upd_same {c : Nat} {x : Conn} {s : State} (h : s.conn c = some x) (f : Conn → Conn) :
    (s.updConn c f).conn c = some (f x) := by
  rw [conn_upd, if_pos rfl, h, Option.map_some]

theorem answered_same {c : Nat} {x : Conn} {s : State} (h : s.conn c = some x) (st : Status) :
    (answered (.latigo c) st s).conn c = some { x with last := st } := by
  rw [answered_conn, h, Option.map_some]

/-- A plain answer leaves the connection and is the newest frame sent while the port's link is up. -/
theorem latPlain_sent {c op : Nat} {id : Word} {st : Status} {x : Conn} {s : State} (h : s.conn c = some x)
    (hup : s.app.clk.ethUp.getLsbD x.port = true) : (latPlain c op id st s).conn c = some x ∧
    (latPlain c op id st s).app.server.lat.head? = some { conn := c, op := op, reply := true, id := id, status := st } :=
  ⟨(latSend_conn _ _ _).trans h, latSend_head _ _ x h hup⟩

theorem latClose_conn (c : Nat) (s : State) : (latClose c s).conn c = none ∧ ∀ d, d ≠ c → (latClose c s).conn d = s.conn d :=
  ⟨Bank.get_set_same _ _ _, fun _ hd => Bank.get_set_other _ _ (Ne.symm hd)⟩

/-! ### Openings -/

/-- What a handshake meets on a server that is up, at the TCP port, with a free connection below the limit. -/
theorem execLatigoConnect_free (k : TlsHello) (c : Nat) (s : State) (hup : s.latUp k.port = true)
    (htcp : k.tcpPort.toNat = s.onum 0x2030 2) (hfree : (List.range 16).find? (fun c => (s.conn c).isNone) = some c)
    (hroom : s.connCount < s.onum 0x2030 3) : execLatigoConnect k s = .next (
      match s.roleAnchorOf k.anchors with
      | none => { s with app.server.latOpen := .alert }
      | some i =>
        if s.tlsOk k then
          { s with
            app.server.conn := s.app.server.conn.set c (some
              { port := k.port, role := anchorClient (s.slot i), expiry := k.expiryMs, name := k.commonName,
                idle := s.onum 0x2030 5, heard := s.ht }),
            app.server.latOpen := .opened }
        else { s with app.server.latOpen := .alert }) := by
  unfold execLatigoConnect
  rw [if_neg (by simp [hup]), if_neg (by simp [htcp])]
  simp only [hfree, Nat.not_le.mpr hroom, if_false] <;>
    cases s.roleAnchorOf k.anchors <;> rfl

/-- With another TCP port, no free connection or the limit reached the connection is reset. -/
theorem execLatigoConnect_reset (k : TlsHello) (s : State) (hup : s.latUp k.port = true)
    (h : k.tcpPort.toNat ≠ s.onum 0x2030 2 ∨ (List.range 16).find? (fun c => (s.conn c).isNone) = none ∨
      s.onum 0x2030 3 ≤ s.connCount) : execLatigoConnect k s = .next { s with app.server.latOpen := .reset } := by
  unfold execLatigoConnect
  rw [if_neg (by simp [hup])]
  by_cases htcp : k.tcpPort.toNat ≠ s.onum 0x2030 2
  · rw [if_pos htcp]
  rw [if_neg htcp]
  cases hfree : (List.range 16).find? (fun c => (s.conn c).isNone) with
  | none => rfl
  | some c =>
    have hfull : s.onum 0x2030 3 ≤ s.connCount := by
      rcases h with h | h | h
      · exact absurd h htcp
      · rw [hfree] at h
        cases h
      · exact h
    exact congrArg Host.Outcome.next (if_pos hfull)

/-! ### Notifications -/

theorem execLatigoNotify_stale (c : Fin 16) (id : Word) (e : Bool) (x : Conn) (u : LatSub) (s : State)
    (hc : s.conn c = some x) (hu : x.subs.find? (·.id = id) = some u)
    (hst : (serveRead { via := .latigo c, role := x.role, handle := u.handle, serial := u.serial } u.idx u.sub s).1 = .stale) :
    execLatigoNotify c id e s = .next (latNotify c u .stale false []
      (s.updConn c fun z => { z with subs := z.subs.filter (·.id ≠ id) })) := by
  unfold execLatigoNotify
  rw [onConn_some hc]
  simp only [hu, hst]

/-! ### The obligation -/

/-- Settles O30. -/
theorem latigoConnections : Obligations.LatigoConnections := by
  unfold Obligations.LatigoConnections
  refine ⟨?_, ?_, ?_, ?_, ?_, ?_, ?_, ?_, ?_, ?_, ?_, ?_, ?_, ?_, ?_, ?_, ?_, ?_, ?_, ?_, ?_, ?_, ?_, ?_, ?_, ?_, ?_, ?_⟩
  · rintro k c a s ⟨hup, htcp, hfree, hroom, hanchor, htls⟩
    refine ⟨_, execLatigoConnect_free k c s hup htcp hfree hroom, ?_⟩
    simp only [hanchor, htls, if_true, State.conn, Bank.get_set_same, and_self]
  · rintro k s ⟨hup, h⟩
    exact ⟨_, execLatigoConnect_reset k s hup h, rfl⟩
  · rintro k c s ⟨hup, htcp, hfree, hroom, h⟩
    refine ⟨_, execLatigoConnect_free k c s hup htcp hfree hroom, ?_⟩
    cases hanchor : s.roleAnchorOf k.anchors with
    | none => rfl
    | some a =>
      have htls : s.tlsOk k = false := by simpa [hanchor] using h
      simp only [htls, Bool.false_eq_true, if_false]
  · intro k s h
    exact ⟨_, rfl, if_pos (by simp [h])⟩
  · rintro c r x w s ⟨hc, rfl⟩
    exact ⟨_, rfl, onFrame_some hc _⟩
  · intro c r s h
    exact ⟨_, rfl, onFrame_none h _⟩
  · rintro c r d x w s ⟨hc, rfl⟩
    exact ⟨_, rfl, onFrame_some hc _⟩
  · intro c r d s h
    exact ⟨_, rfl, onFrame_none h _⟩
  · rintro c r n x w y s ⟨hc, rfl, rfl, hok⟩
    refine ⟨_, rfl, (onFrame_some hc _).trans ?_⟩
    simp only [hok, if_true]
  · rintro c r n x w y s ⟨hc, rfl, rfl, hno⟩
    refine ⟨_, rfl, (onFrame_some hc _).trans ?_⟩
    simp only [hno, if_false]
  · intro c r n s h
    exact ⟨_, rfl, onFrame_none h _⟩
  · rintro c id x s ⟨hc, hkept, hup⟩
    refine ⟨_, congrArg Host.Outcome.next ((onFrame_some hc _).trans (if_pos hkept)), ?_⟩
    refine latPlain_sent (answered_same (conn_upd_same (conn_upd_same hc _) _) _) ?_
    rw [answered_ethUp]
    exact hup
  · rintro c id x w s ⟨hc, rfl, hno⟩
    exact ⟨_, rfl, (onFrame_some hc _).trans (if_neg (by simp [hno]))⟩
  · intro c id s h
    exact ⟨_, rfl, onFrame_none h _⟩
  · rintro c id x s ⟨hc, hup⟩
    refine ⟨_, congrArg Host.Outcome.next (onFrame_some hc _), ?_⟩
    refine latPlain_sent (answered_same (conn_upd_same hc _) _) ?_
    rw [answered_ethUp]
    exact hup
  · intro c id s h
    exact ⟨_, rfl, onFrame_none h _⟩
  · rintro c id e x u s ⟨hc, hu, hst, hup⟩
    refine ⟨_, execLatigoNotify_stale c id e x u s hc hu hst, ?_⟩
    exact ⟨(latSend_conn _ _ _).trans (conn_upd_same hc _), latSend_head _ _ _ (conn_upd_same hc _) hup⟩
  · rintro c id e x s ⟨hc, hno⟩
    refine ⟨_, rfl, (onConn_some hc _).trans ?_⟩
    simp only [hno]
  · intro c id e s h
    exact ⟨_, rfl, onConn_none h _⟩
  · rintro c k x s ⟨hc, hbad, hup⟩
    refine ⟨_, congrArg Host.Outcome.next ((onFrame_some hc _).trans (if_pos hbad)), ?_⟩
    have hheard := conn_upd_same hc (fun z : Conn => { z with heard := s.ht })
    exact ⟨(latClose_conn _ _).1, (latPlain_sent (s := s.updConn c fun z => { z with heard := s.ht }) hheard hup).2⟩
  · rintro c k x s ⟨hc, hgood, hop, hup⟩
    refine ⟨_, congrArg Host.Outcome.next ((onFrame_some hc _).trans ((if_neg (by simp [hgood])).trans (if_pos hop))), ?_⟩
    refine latPlain_sent (answered_same (conn_upd_same hc _) _) ?_
    rw [answered_ethUp]
    exact hup
  · intro c k s h
    exact ⟨_, rfl, onFrame_none h _⟩
  · rintro c x s ⟨hc, hquiet⟩
    exact ⟨_, congrArg Host.Outcome.next ((onConn_some hc _).trans (if_pos hquiet)), latClose_conn c s⟩
  · rintro c x s ⟨hc, hquiet⟩
    exact ⟨_, rfl, (onConn_some hc _).trans (if_neg (by simp [hquiet]))⟩
  · intro c s h
    exact ⟨_, rfl, onConn_none h _⟩
  · intro c x s hc
    refine ⟨_, congrArg Host.Outcome.next (onConn_some hc _), ?_⟩
    split
    · exact (latClose_conn c s).1
    · exact hc
  · intro c s h
    exact ⟨_, rfl, onConn_none h _⟩
  · intro c s
    exact ⟨_, rfl, latClose_conn c s⟩

end Sys2Proof.Machine
end

section
/-!
SUPPORT. What the slot services of the Tack room do once their grants are obtained, and TackSlots.
-/
set_option Elab.async false
namespace Sys2Proof.Machine

/-- Grants leave the bytes that a service reads. -/
theorem tackBuf_girthRun {p : Nat} {l : List Nat} {s u : State} (h : girthRun p l s = some u) (a n : Nat) :
    u.tackBuf a n = s.tackBuf a n := by
  obtain ⟨g, m, b, rfl⟩ := girthRun_eq p l s u h
  simp only [State.tackBuf, bytes_of_mem { s with app.girth := g, app.pmc := m, app.bkl := b } s rfl]
  rfl

/-- A buffer of at most 4096 bytes is taken. -/
theorem tackBuf_capped {s : State} {a n : Nat} {d : List Byte} (hn : n ≤ 4096) (h : s.tackBuf a n = some d) :
    (if 4096 < n then none else s.tackBuf a n) = some d :=
  (if_neg (Nat.not_lt.mpr hn)).trans h

/-- A service that ends in a new content of slot `i` answers, and has changed no other slot. -/
theorem served_putSlot {c i : Nat} {ks : List Nat} {f : State → Status × State} {s u v : State} {k : KeySlot}
    (hup : s.tackUp = true) (hrun : girthRun 14 ks s = some u) (hok : (f s).1 = .ok)
    (hput : f u = (.ok, putSlot i k v)) (hv : v.app.tack.slots = s.app.tack.slots) :
    ((tackServe c i ks f s).slot i).gen = stick 65535 (s.slot i).gen 1 ∧
    ((tackServe c i ks f s).slot i).content = k.content ∧ ((tackServe c i ks f s).slot i).pub = k.pub ∧
    ∀ j, j ≠ i → ((tackServe c i ks f s).slot j).content = (s.slot j).content ∧
      ((tackServe c i ks f s).slot j).pub = (s.slot j).pub ∧ ((tackServe c i ks f s).slot j).gen = (s.slot j).gen := by
  have hslot : ∀ j, v.slot j = s.slot j := fun j => congrArg (fun b : Bank KeySlot => b.get j) hv
  have hserve : ∀ j, (tackServe c i ks f s).slot j = (putSlot i k v).slot j := fun j => by
    rw [served_ok c i ks f s u _ hup hrun hok hput, reply_slot]
  have hnew := putSlot_same i k v i
  rw [if_pos rfl, ← hserve] at hnew
  refine ⟨by rw [hnew.gen, hslot], hnew.content, hnew.pub, fun j hj => ?_⟩
  rw [hserve, ← hslot]
  exact putSlot_other i k v j hj

/-- GENERATE that meets no check writes 66 free bytes. -/
theorem tackGenerate_ok {i : Nat} {a : Word} {s : State} (hfill : s.slotFillable i .firmware = .ok)
    (hdecom : s.fuses.decom = false) (hout : within 16 i 47 = false) (hattr : attrOk a = true)
    (hsecret : secretType (fld a 12 4) = true) (hparent : fld a 24 8 = 0xFF) :
    ∃ pub, tackGenerate i a s = (.ok, putSlot i
      { attr := a, pub := pub, content := (List.range 66).map fun k => (s.freeBits 1056).extractLsb' (8 * k) 8 }
      s.used.used) := by
  simp only [tackGenerate, hfill, State.secretsOff, hdecom, hout, hattr, hsecret, hparent]
  exact ⟨_, rfl⟩

/-- IMPORT of a certificate or an anchor makes the bytes the slot's public part. -/
theorem tackImport_public {i : Nat} {a : Word} {d : List Byte} {r : Role} {o : Bool} {s : State}
    (hfill : s.slotFillable i r = .ok) (hrole : within 16 i 47 = true → anchorRole a r = true)
    (hsecret : secretType (fld a 12 4) = false) (hattr : attrOk a = true) (hkind : importKind i (fld a 12 4) = true)
    (hparent : fld a 24 8 = 0xFF) (hlen : d.length ≤ 4096) :
    tackImport i a (some d) r o s = (.ok, putSlot i { attr := a, pub := d } s) := by
  have hallowed : (within 16 i 47 && !anchorRole a r) = false := by
    cases hin : within 16 i 47
    · rfl
    · simp [hrole hin]
  simp [tackImport, hfill, hallowed, hsecret, hattr, hkind, hparent, Nat.not_lt.mpr hlen]

/-- IMPORT of a key wrapped under a parent that grants it makes the bytes the slot's content. -/
theorem tackImport_wrapped {i : Nat} {a : Word} {d : List Byte} {r : Role} {s : State}
    (hfill : s.slotFillable i r = .ok) (hrole : within 16 i 47 = true → anchorRole a r = true)
    (hsecret : secretType (fld a 12 4) = true) (hdecom : s.fuses.decom = false) (hattr : attrOk a = true)
    (hkind : importKind i (fld a 12 4) = true) (hused : (s.slot (fld a 24 8)).isEmpty = false)
    (hslot : fld a 24 8 < 128) (huse : (s.slot (fld a 24 8)).use 3 = true)
    (hlive : (s.slot (fld a 24 8)).orphan = false) (htype : (s.slot (fld a 24 8)).type = 1)
    (hbind : (s.slot (fld a 24 8)).bind = false) :
    tackImport i a (some d) r true s =
      (.ok, putSlot i { attr := a, pgen := (s.slot (fld a 24 8)).gen, content := d } s) := by
  have hallowed : (within 16 i 47 && !anchorRole a r) = false := by
    cases hin : within 16 i 47
    · rfl
    · simp [hrole hin]
  simp [tackImport, hfill, hallowed, hsecret, State.secretsOff, hdecom, hattr, hkind, hused, Nat.not_le.mpr hslot,
    huse, hlive, htype, hbind]

/-- DERIVE under a parent with that use makes the derived bytes the slot's content. -/
theorem tackDerive_ok {i p : Nat} {d : List Byte} {a : Word} {s : State}
    (hfill : s.slotFillable i .firmware = .ok) (hused : (s.slot p).isEmpty = false) (hslot : p < 128)
    (huse : (s.slot p).use 2 = true) (hdecom : s.fuses.decom = false) (hlive : (s.slot p).orphan = false)
    (hout : within 16 i 47 = false) (hattr : attrOk a = true) (hsecret : secretType (fld a 12 4) = true)
    (hbind : (s.slot p).bind = true → bit a 7 = true) :
    tackDerive i p (some d) a s = (.ok, putSlot i
      { attr := putFld a 24 8 p, pgen := (s.slot p).gen, content := kdf (s.slot p).content d [] (keyBits (fld a 12 4)) }
      s) := by
  have hbound : ((s.slot p).bind && !bit a 7) = false := by
    cases hb : (s.slot p).bind
    · rfl
    · simp [hbind hb]
  simp [tackDerive, hfill, hused, Nat.not_le.mpr hslot, huse, State.secretsOff, hdecom, hlive, hout, hattr, hsecret,
    hbound]

/-- DELETE of a slot that holds something empties it. -/
theorem tackDelete_ok {i : Nat} {r : Role} {s : State} (hthere : s.slotWritable i r ≠ .absent)
    (hmay : s.slotWritable i r ≠ .denied) (hused : (s.slot i).isEmpty = false) :
    tackDelete i r s = (.ok, putSlot i {} s) := by
  simp [tackDelete, hthere, hmay, hused]

/-- Settles O31: each service ends in `putSlot` of its slot (`served_putSlot`), in the state before the grants
and in the one with them, which has the same slots and the same bytes. -/
theorem tackSlots : Obligations.TackSlots := by
  refine ⟨?_, ?_, ?_, ?_, ?_, ?_, ?_, ?_, ?_, ?_, ?_, ?_, ?_⟩
  · rintro i a u s ⟨hup, hrun, hfill, hdecom, hout, hattr, hsecret, hparent⟩
    have hgrants := girthRun_eq _ _ _ _ hrun
    obtain ⟨pub, hs⟩ := tackGenerate_ok hfill hdecom hout hattr hsecret hparent
    obtain ⟨g, m, b, rfl⟩ := hgrants
    obtain ⟨pub', hu⟩ := tackGenerate_ok (s := { s with app.girth := g, app.pmc := m, app.bkl := b })
      hfill hdecom hout hattr hsecret hparent
    obtain ⟨hgen, hcontent, -, hother⟩ := served_putSlot (c := 1) hup hrun (congrArg Prod.fst hs) hu rfl
    exact ⟨_, rfl, hgen, hcontent, hother⟩
  · rintro i a p n r o d u s ⟨hup, hrun, hfill, hrole, hsecret, hattr, hkind, hbuf, hparent, hn, hlen⟩
    have hbuf' := (tackBuf_girthRun hrun p n).trans hbuf
    obtain ⟨g, m, b, rfl⟩ := girthRun_eq _ _ _ _ hrun
    have hs := tackImport_public (o := o) hfill hrole hsecret hattr hkind hparent hlen
    have hu := tackImport_public (o := o) (s := { s with app.girth := g, app.pmc := m, app.bkl := b })
      hfill hrole hsecret hattr hkind hparent hlen
    rw [← tackBuf_capped hn hbuf] at hs
    rw [← tackBuf_capped hn hbuf'] at hu
    obtain ⟨hgen, -, hpub, hother⟩ := served_putSlot (c := 2)
      (f := fun v => tackImport i.toNat a (if 4096 < n then none else v.tackBuf p n) r o v)
      hup hrun (congrArg Prod.fst hs) hu rfl
    exact ⟨_, rfl, hgen, hpub, hother⟩
  · rintro i a p n r d u s ⟨hup, hrun, hfill, hrole, hsecret, hdecom, hattr, hkind, hbuf, hn, hused, hslot, huse,
      hlive, htype, hbind⟩
    have hbuf' := (tackBuf_girthRun hrun p n).trans hbuf
    obtain ⟨g, m, b, rfl⟩ := girthRun_eq _ _ _ _ hrun
    have hs := tackImport_wrapped (d := d) hfill hrole hsecret hdecom hattr hkind hused hslot huse hlive htype hbind
    have hu := tackImport_wrapped (d := d) (s := { s with app.girth := g, app.pmc := m, app.bkl := b })
      hfill hrole hsecret hdecom hattr hkind hused hslot huse hlive htype hbind
    rw [← tackBuf_capped hn hbuf] at hs
    rw [← tackBuf_capped hn hbuf'] at hu
    obtain ⟨hgen, hcontent, -, hother⟩ := served_putSlot (c := 2)
      (f := fun v => tackImport i.toNat a (if 4096 < n then none else v.tackBuf p n) r true v)
      hup hrun (congrArg Prod.fst hs) hu rfl
    exact ⟨_, rfl, hgen, hcontent, hother⟩
  · rintro i q la ln a d u s ⟨hup, hrun, hfill, hused, hslot, huse, hdecom, hlive, hbuf, hn, hout, hattr, hsecret,
      hbind⟩
    have hbuf' := (tackBuf_girthRun hrun la ln).trans hbuf
    obtain ⟨g, m, b, rfl⟩ := girthRun_eq _ _ _ _ hrun
    have hs := tackDerive_ok (d := d) hfill hused hslot huse hdecom hlive hout hattr hsecret hbind
    have hu := tackDerive_ok (d := d) (s := { s with app.girth := g, app.pmc := m, app.bkl := b })
      hfill hused hslot huse hdecom hlive hout hattr hsecret hbind
    rw [← tackBuf_capped hn hbuf] at hs
    rw [← tackBuf_capped hn hbuf'] at hu
    obtain ⟨hgen, hcontent, -, hother⟩ := served_putSlot (c := 3)
      (f := fun v => tackDerive i.toNat q.toNat (if 4096 < ln then none else v.tackBuf la ln) a v)
      hup hrun (congrArg Prod.fst hs) hu rfl
    exact ⟨_, rfl, hgen, hcontent, hother⟩
  · rintro i r u s ⟨hup, hrun, hthere, hmay, hused⟩
    have hgrants := girthRun_eq _ _ _ _ hrun
    have hs := tackDelete_ok hthere hmay hused
    obtain ⟨g, m, b, rfl⟩ := hgrants
    have hu := tackDelete_ok (s := { s with app.girth := g, app.pmc := m, app.bkl := b }) hthere hmay hused
    obtain ⟨hgen, hcontent, -, hother⟩ := served_putSlot (c := 4) hup hrun (congrArg Prod.fst hs) hu rfl
    exact ⟨_, rfl, hgen, hcontent, hother⟩
  · exact fun i a s => ⟨_, rfl, rfl⟩
  · exact fun i a s h => ⟨_, rfl, served_down _ _ _ _ s h⟩
  · exact fun i a p n r o s => ⟨_, rfl, rfl⟩
  · exact fun i a p n r o s h => ⟨_, rfl, served_down _ _ _ _ s h⟩
  · exact fun i q la ln a s => ⟨_, rfl, rfl⟩
  · exact fun i q la ln a s h => ⟨_, rfl, served_down _ _ _ _ s h⟩
  · exact fun i r s => ⟨_, rfl, rfl⟩
  · exact fun i r s h => ⟨_, rfl, served_down _ _ _ _ s h⟩

end Sys2Proof.Machine
end

section
/-!
SUPPORT. What the services of the Tack room that use a key, measure, re-wrap and draw random bytes do, and TackUses.
-/
set_option Elab.async false
namespace Sys2Proof.Machine

/-- A service without Girth kinds answers what its operation gives. -/
theorem served_free {c i : Nat} {f : State → Status × State} {s v : State} {st : Status} (hup : s.tackUp = true)
    (h : f s = (st, v)) : tackServe c i [] f s = tackReply c i st v := by
  simp [tackServe, hup, underGrants, h]

theorem tackPut_ok {a : Nat} {l : List Byte} {s : State} (h : s.mayStore 14 a l.length = true) :
    tackPut a l s = (.ok, memPuts a l s) :=
  if_pos h

theorem signature_length (k d : BitVec 384) : (signature k d).length = 96 := by simp [signature]

theorem digestBytes_length (d : BitVec 384) : (digestBytes d).length = 48 := by simp [digestBytes]

theorem tackPublic_none {i a : Nat} {s : State} (hi : i < 128) (hused : (s.slot i).isEmpty = false)
    (hlive : (s.slot i).orphan = false) (hpub : (s.slot i).pub = []) : tackPublic i a s = (.ok, s) := by
  simp [tackPublic, Nat.not_le.mpr hi, hused, hlive, hpub]

theorem tackPublic_some {i a : Nat} {s : State} (hi : i < 128) (hused : (s.slot i).isEmpty = false)
    (hlive : (s.slot i).orphan = false) (hpub : (s.slot i).pub ≠ [])
    (hstore : s.mayStore 14 a (s.slot i).pub.length = true) :
    tackPublic i a s = (.ok, memPuts a (s.slot i).pub s) := by
  simp [tackPublic, Nat.not_le.mpr hi, hused, hlive, hpub, tackPut_ok hstore]

theorem tackSign_ok {i a : Nat} {d : List Byte} {s : State} (huse : s.slotUse i 0 true = .ok)
    (hbuf : s.tackBuf a 48 = some d) (hstore : s.mayStore 14 a 96 = true) :
    tackSign i a s = (.ok, memPuts a (signature (BitVec.ofNat 384 (ofLE (s.slot i).content))
      (BitVec.ofNat 384 (ofLE d))) s) := by
  simp only [tackSign, huse, hbuf]
  exact tackPut_ok (by rw [signature_length]; exact hstore)

theorem tackSign_refused {i a : Nat} {s : State} (h : s.slotUse i 0 true ≠ .ok) :
    tackSign i a s = (s.slotUse i 0 true, s) := by
  unfold tackSign
  split
  · next hok => exact absurd hok h
  · rfl

theorem tackVerify_judged {i a : Nat} {good : Bool} {s : State} (huse : s.slotUse i 1 false = .ok)
    (hbuf : (s.tackBuf a 48).isSome = true) :
    tackVerify i a good s = (if good then .ok else .integrity, s) := by
  obtain ⟨d, hd⟩ := Option.isSome_iff_exists.mp hbuf
  simp [tackVerify, huse, hd]

theorem tackVerify_refused {i a : Nat} {good : Bool} {s : State} (h : s.slotUse i 1 false ≠ .ok) :
    tackVerify i a good s = (s.slotUse i 1 false, s) := by
  unfold tackVerify
  split
  · next hok => exact absurd hok h
  · rfl

theorem tackAgree_ok {i a : Nat} {s : State} (huse : s.slotUse i 2 true = .ok)
    (hbuf : (s.tackBuf a 48).isSome = true) (hstore : s.used.mayStore 14 a 48 = true) :
    tackAgree i a s = (.ok, memPuts a (digestBytes (s.freeBits 384)) s.used) := by
  obtain ⟨d, hd⟩ := Option.isSome_iff_exists.mp hbuf
  simp only [tackAgree, huse, hd, Option.isNone_some, Bool.false_eq_true, ↓reduceIte]
  exact tackPut_ok (by rw [digestBytes_length]; exact hstore)

theorem tackAgree_refused {i a : Nat} {s : State} (h : s.slotUse i 2 true ≠ .ok) :
    tackAgree i a s = (s.slotUse i 2 true, s) := by
  unfold tackAgree
  split
  · next hok => exact absurd hok h
  · rfl

theorem tackRandom_ok {a n : Nat} {s : State} (hn : n ≤ 256) (hstore : s.used.mayStore 14 a n = true) :
    tackRandom a n s =
      (.ok, memPuts a ((List.range n).map fun k => (s.freeBits 2048).extractLsb' (8 * k) 8) s.used) := by
  simp only [tackRandom, if_neg (Nat.not_lt.mpr hn)]
  exact tackPut_ok (by simpa using hstore)

theorem tackMeasure_ok {k a n : Nat} {s : State} (hk : within 4 k 15 = true) (hn : n ≤ 0x800000)
    (hread : s.reads 15 (regionOf a) = true) :
    tackMeasure k a n s = (.ok, measureInto k (Config.sha384 (s.bytes a n)) s) :=
  if_neg (by simp [hk, hread, hn])

/-- SUCCESSOR in an update whose manifest passed writes the successor wrap set. -/
theorem tackSuccessor_ok {m : Manifest} {s : State} (hdecom : s.fuses.decom = false)
    (hman : s.sec.upd.man = some m)
    (hst : s.sec.upd.st = .prepared ∨ s.sec.upd.st = .copying ∨ s.sec.upd.st = .written) :
    tackSuccessor s = (.ok, successorWrite m s) := by
  rcases hst with hst | hst | hst <;> simp [tackSuccessor, State.secretsOff, hdecom, hman, hst]

theorem tackSuccessor_idle {s : State} (h : s.sec.upd.st = .idle) : tackSuccessor s = (.state, s) := by
  unfold tackSuccessor
  split
  · rfl
  · cases s.sec.upd.man <;> simp [h]

/-- Settles O32: each operation's value with its conditions met, in the state without and with the grants, which
have the same slots, fuses and bytes; a refused operation answers its own status. -/
theorem tackUses : Obligations.TackUses := by
  refine ⟨?_, ?_, ?_, ?_, ?_, ?_, ?_, ?_, ?_, ?_, ?_, ?_, ?_, ?_, ?_, ?_, ?_, ?_, ?_, ?_, ?_, ?_, ?_, ?_, ?_, ?_, ?_, ?_⟩
  · rintro i a s ⟨hup, hi, hused, hlive, hpub⟩
    exact ⟨_, rfl, served_free hup (tackPublic_none hi hused hlive hpub)⟩
  · rintro i a s ⟨hup, hi, hused, hlive, hpub, hstore⟩
    exact ⟨_, rfl, served_free hup (tackPublic_some hi hused hlive hpub hstore)⟩
  · rintro i a d u s ⟨hup, hrun, huse, hbuf, hstore⟩
    have hbuf' := (tackBuf_girthRun hrun a.toNat 48).trans hbuf
    have hs := congrArg Prod.fst (tackSign_ok huse hbuf hstore)
    obtain ⟨g, m, b, rfl⟩ := girthRun_eq _ _ _ _ hrun
    exact ⟨_, rfl, served_ok 6 _ _ _ _ _ _ hup hrun hs (tackSign_ok huse hbuf' hstore)⟩
  · rintro i a s ⟨hup, huse⟩
    exact ⟨_, rfl, served_refused 6 _ _ _ _ _ _ hup (tackSign_refused huse) huse⟩
  · rintro i a u s ⟨hup, hrun, huse, hbuf⟩
    have hbuf' := (congrArg Option.isSome (tackBuf_girthRun hrun a.toNat 48)).trans hbuf
    have hs := congrArg Prod.fst (tackVerify_judged (good := true) huse hbuf)
    obtain ⟨g, m, b, rfl⟩ := girthRun_eq _ _ _ _ hrun
    exact ⟨_, rfl, served_ok 7 _ _ _ _ _ _ hup hrun hs (tackVerify_judged huse hbuf')⟩
  · rintro i a s ⟨hup, huse, hbuf⟩
    exact ⟨_, rfl, served_refused 7 _ _ _ _ _ .integrity hup (tackVerify_judged huse hbuf) (by decide)⟩
  · rintro i a g s ⟨hup, huse⟩
    exact ⟨_, rfl, served_refused 7 _ _ _ _ _ _ hup (tackVerify_refused huse) huse⟩
  · rintro i a u s ⟨hup, hrun, huse, hbuf, hstore⟩
    have hbuf' := (congrArg Option.isSome (tackBuf_girthRun hrun a.toNat 48)).trans hbuf
    have hs := congrArg Prod.fst (tackAgree_ok huse hbuf hstore)
    obtain ⟨g, m, b, rfl⟩ := girthRun_eq _ _ _ _ hrun
    exact ⟨_, rfl, served_ok 8 _ _ _ _ _ _ hup hrun hs (tackAgree_ok huse hbuf' hstore)⟩
  · rintro i a s ⟨hup, huse⟩
    exact ⟨_, rfl, served_refused 8 _ _ _ _ _ _ hup (tackAgree_refused huse) huse⟩
  · rintro a n s ⟨hup, hn, hstore⟩
    exact ⟨_, rfl, served_free hup (tackRandom_ok hn hstore)⟩
  · rintro a n s ⟨hup, hn⟩
    exact ⟨_, rfl, served_free hup (if_pos hn)⟩
  · rintro k a n s ⟨hup, hk, hn, hread⟩
    refine ⟨_, congrArg Host.Outcome.next (served_free hup (tackMeasure_ok hk hn hread)), ?_, fun j hj => ?_⟩
    · rw [reply_mrOf, measure_mr]
    · rw [reply_mrOf, measure_mr_other _ _ _ _ hj]
  · rintro a m u s ⟨hup, hrun, hdecom, hman, hst⟩
    have hs := congrArg Prod.fst (tackSuccessor_ok hdecom hman hst)
    obtain ⟨g, p, b, rfl⟩ := girthRun_eq _ _ _ _ hrun
    refine ⟨_, congrArg Host.Outcome.next
      (served_ok 10 0 _ _ _ _ _ hup hrun hs (tackSuccessor_ok hdecom hman hst)), ?_, ?_⟩
    · rw [reply_sec]; rfl
    · rw [reply_tack]; rfl
  · rintro a s ⟨hup, hst⟩
    exact ⟨_, rfl, served_refused 10 0 _ _ _ _ .state hup (tackSuccessor_idle hst) (by decide)⟩
  · exact fun i a s => ⟨_, rfl, rfl⟩
  · exact fun i a s h => ⟨_, rfl, served_down _ _ _ _ s h⟩
  · exact fun i a s => ⟨_, rfl, rfl⟩
  · exact fun i a s h => ⟨_, rfl, served_down _ _ _ _ s h⟩
  · exact fun i a g s => ⟨_, rfl, rfl⟩
  · exact fun i a g s h => ⟨_, rfl, served_down _ _ _ _ s h⟩
  · exact fun i a s => ⟨_, rfl, rfl⟩
  · exact fun i a s h => ⟨_, rfl, served_down _ _ _ _ s h⟩
  · exact fun u a n s => ⟨_, rfl, rfl⟩
  · exact fun u a n s h => ⟨_, rfl, served_down _ _ _ _ s h⟩
  · exact fun a n s => ⟨_, rfl, rfl⟩
  · exact fun a n s h => ⟨_, rfl, served_down _ _ _ _ s h⟩
  · exact fun a s => ⟨_, rfl, rfl⟩
  · exact fun a s h => ⟨_, rfl, served_down _ _ _ _ s h⟩

end Sys2Proof.Machine
end

section
/-!
SUPPORT. The fuses that the Tack room blows and the pair of decommission writes, and TackFusesAndDecommission.
-/
set_option Elab.async false
namespace Sys2Proof.Machine

theorem fuseDebug_ok {v : BitVec 384} {s : State} (hbits : v &&& ~~~(0x3B : BitVec 384) = 0)
    (hidle : s.sec.upd.st = .idle) :
    fuseDebug v s = (.ok, { rewrap (mr0Of s.fuses (s.fuses.dbg ||| v.setWidth 6)) (s.mrOf 2) (s.mrOf 3) s with
      fuses.dbg := s.fuses.dbg ||| v.setWidth 6 }) :=
  (if_neg fun hne => hne hbits).trans (if_neg (by simp [hidle]))

theorem fuseSafe_ok {v : BitVec 384} {k : Nat} {s : State}
    (hfree : (List.range 4).find? (fun k => s.fuses.safe.get k = 0) = some k) :
    fuseSafe v v s = (.ok, { s with fuses.safe := s.fuses.safe.set k v }) := by
  simp only [fuseSafe, hfree, ne_eq, not_true_eq_false, ↓reduceIte]

/-- A decommission write that passes the checks is judged by the write remembered before it. -/
theorem decommission_counted {r : Role} {s : State} (hpresent : s.rolePresent r = true)
    (hrole : r = .operator ∨ r = .verifier) (hdecom : s.fuses.decom = false) (hopen : s.openCount = 0) :
    decommission r 0x444D4F43 s = match s.app.tack.decomBy with
      | some (r0, t) =>
        if r0 ≠ r && decide (s.ht ≤ t + 600000000000) then
          (.ok, { s with fuses.decom := true, app.tack.decomBy := none, app.tack.st := 3 })
        else (.ok, { s with app.tack.decomBy := some (r, s.ht) })
      | none => (.ok, { s with app.tack.decomBy := some (r, s.ht) }) := by
  unfold decommission
  rw [if_neg (by simpa [hpresent] using Or.resolve_left hrole), if_neg (by simp [hdecom, hopen]),
    if_neg (fun hne => hne rfl)] <;>
    cases s.app.tack.decomBy <;> rfl

/-- A decommission write that a check stops changes nothing. -/
theorem decommission_barred {r : Role} {v : Word} {s : State}
    (h : s.rolePresent r = false ∨ v ≠ 0x444D4F43 ∨ (r ≠ .operator ∧ r ≠ .verifier) ∨ s.fuses.decom = true ∨
      s.openCount ≠ 0) : (decommission r v s).2 = s := by
  unfold decommission
  split
  · rfl
  · next hallowed =>
    split
    · rfl
    · next hready =>
      simp only [Bool.or_eq_true, Bool.not_eq_true', Bool.or_eq_false_iff, decide_eq_true_eq, not_or, not_and] at hallowed hready
      split
      · rfl
      · next hv =>
        obtain h | h | ⟨hop, hve⟩ | h | h := h
        · exact absurd h hallowed.1
        · exact absurd h hv
        · exact absurd (decide_eq_false hve) (hallowed.2 (decide_eq_false hop))
        · exact absurd h hready.1
        · exact absurd h hready.2

/-- Settles O33: the fuse operation has one value per field; a decommission write is judged by the write
remembered before it. -/
theorem tackFusesAndDecommission : Obligations.TackFusesAndDecommission := by
  refine ⟨?_, ?_, ?_, ?_, ?_, ?_, ?_, ?_, ?_, ?_, ?_, ?_⟩
  · rintro v u s ⟨hup, hrun, hbits, hidle⟩
    have hs := congrArg Prod.fst (fuseDebug_ok hbits hidle)
    obtain ⟨g, m, b, rfl⟩ := girthRun_eq _ _ _ _ hrun
    refine ⟨_, congrArg Host.Outcome.next (served_ok 13 0 [8, 10] (tackFuse .dbg v) _ _ _ hup hrun hs
      (fuseDebug_ok hbits hidle)), ?_, ?_⟩
    · rw [reply_fuses]; rfl
    · rw [reply_sec]
      exact congrArg WrapSet.under (Bank.get_set_same _ _ _)
  · exact fun v s hup => ⟨_, rfl, served_refused 13 0 [10] (tackFuse .svn v) s s .denied hup rfl (by decide)⟩
  · exact fun v s hup => ⟨_, rfl, served_refused 13 0 [10] (tackFuse .rrev v) s s .denied hup rfl (by decide)⟩
  · exact fun v s hup => ⟨_, rfl, served_refused 13 0 [10] (tackFuse .decom v) s s .denied hup rfl (by decide)⟩
  · exact fun v s hup => ⟨_, rfl, served_refused 13 0 [10] (tackFuse .other v) s s .range hup rfl (by decide)⟩
  · rintro v k u s ⟨hup, hrun, rfl, hfree⟩
    have hs := congrArg Prod.fst (fuseSafe_ok (v := s.stagedDigest) hfree)
    obtain ⟨g, m, b, rfl⟩ := girthRun_eq _ _ _ _ hrun
    refine ⟨_, congrArg Host.Outcome.next (served_ok 13 0 [10] (tackFuse .safe s.stagedDigest) _ _ _ hup hrun hs
      (fuseSafe_ok hfree)), ?_⟩
    rw [reply_fuses]
  · exact fun f v s => ⟨_, rfl, rfl⟩
  · exact fun f v s h => ⟨_, rfl, served_down _ _ _ _ s h⟩
  · rintro r s ⟨hup, hpresent, hrole, hdecom, hopen, hfirst⟩
    have hput := decommission_counted hpresent hrole hdecom hopen
    rw [hfirst] at hput
    exact ⟨_, congrArg Host.Outcome.next ((if_pos hup).trans (congrArg Prod.snd hput)), rfl, rfl⟩
  · rintro r q u s ⟨hup, hpresent, hrole, hdecom, hopen, hfirst, hother, htime⟩
    have hput := decommission_counted hpresent hrole hdecom hopen
    rw [hfirst] at hput
    refine ⟨_, congrArg Host.Outcome.next ((if_pos hup).trans (congrArg Prod.snd
      (hput.trans (if_pos (by simp [hother, htime]))))), rfl⟩
  · intro r v s h
    refine ⟨_, rfl, ?_⟩
    split
    · exact decommission_barred h
    · rfl
  · exact fun r v s h => ⟨_, rfl, if_neg (by simp [h])⟩

end Sys2Proof.Machine
end

section
/-!
SUPPORT. The operations of an update and the states they leave, and UpdateLifecycle.
-/
set_option Elab.async false
namespace Sys2Proof.Machine

/-- A refused operation needs no grant. -/
theorem underGrants_refused {p : Nat} {ks : List Nat} {f : State → Status × State} {s : State}
    (h : (f s).1 ≠ .ok) : underGrants p ks f s = f s :=
  if_pos (by simp [h])

theorem manifestAccept_ok {r : Role} {l : Bool} {m : Manifest} {s : State} (hst : s.manifestStatus r l m = .ok)
    (hdecom : s.fuses.decom = false) :
    manifestAccept r l m s = (.ok, updatePrepare m { s with app.tack.lastSt := .ok }) := by
  simp [manifestAccept, hst, State.secretsOff, hdecom]

theorem manifestAccept_refused {r : Role} {l : Bool} {m : Manifest} {s : State} (hst : s.manifestStatus r l m ≠ .ok) :
    manifestAccept r l m s = (s.manifestStatus r l m, { s with app.tack.lastSt := s.manifestStatus r l m }) := by
  simp [manifestAccept, hst]

/-- A block is taken in PREPARED and COPYING. -/
theorem takesBlocks {s : State} (h : s.sec.upd.st = .prepared ∨ s.sec.upd.st = .copying) :
    (decide (s.sec.upd.st ≠ .prepared) && decide (s.sec.upd.st ≠ .copying)) = false := by
  rcases h with h | h <;> simp [h]

theorem updateBlock_outOfTurn {b : BlockData} {s : State}
    (hst : s.sec.upd.st = .prepared ∨ s.sec.upd.st = .copying) (hnext : s.nextBlock ≠ some b.blk) :
    updateBlock b s = (.range, s) :=
  (if_neg (by rw [takesBlocks hst]; decide)).trans (if_pos hnext)

theorem updateBlock_wrongHash {b : BlockData} {s : State}
    (hst : s.sec.upd.st = .prepared ∨ s.sec.upd.st = .copying) (hnext : s.nextBlock = some b.blk)
    (hhash : b.hash ≠ s.blockWanted b.blk) : updateBlock b s = (.integrity, s) :=
  (if_neg (by rw [takesBlocks hst]; decide)).trans ((if_neg (fun hne => hne hnext)).trans (if_pos hhash))

theorem updateBlock_outside {b : BlockData} {s : State} (hprep : s.sec.upd.st ≠ .prepared)
    (hcopy : s.sec.upd.st ≠ .copying) : updateBlock b s = (.state, s) :=
  if_pos (by simp [hprep, hcopy])

/-- A block that reads back wrong rolls the update back. -/
theorem updateBlock_misread {b : BlockData} {s : State}
    (hst : s.sec.upd.st = .prepared ∨ s.sec.upd.st = .copying) (hnext : s.nextBlock = some b.blk)
    (hhash : b.hash = s.blockWanted b.blk) (hread : b.readBack ≠ b.hash) :
    updateBlock b s = (.integrity, rollback (blockJournal b s)) :=
  (if_neg (by rw [takesBlocks hst]; decide)).trans
    ((if_neg (fun hne => hne hnext)).trans ((if_neg (fun hne => hne hhash)).trans (if_pos hread)))

/-- A good block that is not the last leaves the update COPYING. -/
theorem updateBlock_more {b : BlockData} {m : Manifest} {k : Nat} {s : State} (hman : s.sec.upd.man = some m)
    (hst : s.sec.upd.st = .prepared ∨ s.sec.upd.st = .copying) (hnext : s.nextBlock = some b.blk)
    (hhash : b.hash = s.blockWanted b.blk) (hread : b.readBack = b.hash)
    (hnew : s.sec.upd.saved.contains b.blk = false)
    (hleft : (s.manifestBlocks m).find? (fun k => !(s.sec.upd.written ++ [b.blk]).contains k) = some k) :
    updateBlock b s = (.ok, blockSaved b s) := by
  rw [updateBlock_ok b s m hman (takesBlocks hst) hnext hhash hread hnew, if_pos (by rw [hleft]; rfl)]

/-- The last good block, with good components, leaves the update WRITTEN. -/
theorem updateBlock_last {b : BlockData} {m : Manifest} {s : State} (hman : s.sec.upd.man = some m)
    (hst : s.sec.upd.st = .prepared ∨ s.sec.upd.st = .copying) (hnext : s.nextBlock = some b.blk)
    (hhash : b.hash = s.blockWanted b.blk) (hread : b.readBack = b.hash)
    (hnew : s.sec.upd.saved.contains b.blk = false)
    (hleft : (s.manifestBlocks m).find? (fun k => !(s.sec.upd.written ++ [b.blk]).contains k) = none)
    (hcomps : b.compsOk = true) :
    updateBlock b s = (.ok, upLog .allWritten 0xFFFF 0 ((blockSaved b s).updUpd fun u => { u with st := .written })) := by
  rw [updateBlock_ok b s m hman (takesBlocks hst) hnext hhash hread hnew, if_neg (by rw [hleft]; decide), if_pos hcomps]

theorem updateAbandon_ok {s : State} (hidle : s.sec.upd.st ≠ .idle) (hroll : s.sec.upd.st ≠ .rollback) :
    (updateAbandon 1 s).2 = rollback s := by
  simp [updateAbandon, hidle, hroll]

theorem updateAbandon_barred {v : Nat} {s : State}
    (h : s.sec.upd.st = .idle ∨ s.sec.upd.st = .rollback ∨ v ≠ 1) : (updateAbandon v s).2 = s := by
  unfold updateAbandon
  dsimp only
  split
  · rfl
  · next hst =>
    simp only [Bool.or_eq_true, decide_eq_true_eq] at hst
    rw [if_pos (((or_assoc.mpr h).resolve_left hst))]

/-- The update in its first trial, before the reset of the handover. -/
def onTrial (s : State) : State := upLog .trial 0xFFFF 1 (s.updUpd fun u => { u with st := .trial, count := 1 })

theorem handover_ok {s : State} (hst : s.sec.upd.st = .written) : (handover 1 s).2 = appReset 5 (onTrial s) := by
  simp [handover, hst, onTrial]

theorem handover_barred {v : Nat} {s : State} (h : s.sec.upd.st ≠ .written ∨ v ≠ 1) : (handover v s).2 = s := by
  unfold handover
  rcases h with h | h
  · rw [if_pos h]
  · split
    · rfl
    · rfl

theorem tackConfirm_ok {m : Manifest} {s : State} (hman : s.sec.upd.man = some m) (hmay : s.mayConfirm m = true) :
    tackConfirm s = (.ok, confirmUpdate m s) := by
  simp [tackConfirm, hman, hmay]

theorem tackConfirm_barred {s : State} (h : ∀ m, s.sec.upd.man = some m → s.mayConfirm m = false) :
    tackConfirm s = (.state, s) := by
  unfold tackConfirm
  split
  · rfl
  · next m hman => simp [h m hman]

/-- An application reset of a state that differs only in its stored values is one of that state. -/
theorem AppReset.of_sec {b : Nat} {s v t : State} (h : AppReset b v t) (hcold : v.cold = s.cold)
    (hdie : v.die = s.die) (htrial : v.trial = s.trial) (hmr : v.coldMr = s.coldMr) (hpower : v.power = s.power) :
    AppReset b s t where
  held := h.held
  cause := by rw [h.cause, hcold]
  count := by rw [h.count, hcold]
  contexts := h.contexts
  engines := h.engines
  girth := h.girth
  memory := h.memory
  sealed := h.sealed.trans hdie
  trial := h.trial.trans htrial
  registers := h.registers.trans hmr
  outputs := fun x hx hon => h.outputs x hx (by rw [State.out, hpower]; exact hon)

theorem AppReset.setLastSt {b : Nat} {s t : State} (h : AppReset b s t) (st : Status) :
    AppReset b s { t with app.tack.lastSt := st } :=
  ⟨h.held, h.cause, h.count, h.contexts, h.engines, h.girth, h.memory, h.sealed, h.trial, h.registers, h.outputs⟩

/-- Settles O34: each operation's value with its conditions met, run with its grants (`underGrants_ok`) or refused
without them (`underGrants_refused`); a rollback leaves what `rollback_done` says. -/
theorem updateLifecycle : Obligations.UpdateLifecycle := by
  refine ⟨?_, ?_, ?_, ?_, ?_, ?_, ?_, ?_, ?_, ?_, ?_, ?_, ?_, ?_, ?_, ?_, ?_⟩
  · rintro r l m u s ⟨hreset, hrun, hst, hdecom⟩
    have hs := congrArg Prod.fst (manifestAccept_ok hst hdecom)
    obtain ⟨g, p, b, rfl⟩ := girthRun_eq _ _ _ _ hrun
    have hdone := underGrants_ok _ _ _ _ _ hrun hs (manifestAccept_ok hst hdecom)
    refine ⟨_, congrArg Host.Outcome.next (if_neg (by simp [hreset])), ?_⟩
    rw [hdone]
    obtain ⟨hnum, hst', hman, hwrap⟩ := updatePrepare_facts m
      { s with app.girth := g, app.pmc := p, app.bkl := b, app.tack.lastSt := .ok }
    exact ⟨hnum, hst', hman, hwrap, rfl⟩
  · rintro r l m s ⟨hreset, hst⟩
    refine ⟨_, congrArg Host.Outcome.next (if_neg (by simp [hreset])), ?_⟩
    rw [underGrants_refused (by rw [manifestAccept_refused hst]; exact hst), manifestAccept_refused hst]
  · exact fun r l m s h => ⟨_, rfl, if_pos h⟩
  · rintro b m u s ⟨hreset, hrun, hman, hst, hnext, hhash, hread, hnew, hleft, hcomps⟩
    have hs := congrArg Prod.fst (updateBlock_last hman hst hnext hhash hread hnew hleft hcomps)
    obtain ⟨g, p, k, rfl⟩ := girthRun_eq _ _ _ _ hrun
    have hdone := underGrants_ok _ _ _ _ _ hrun hs (updateBlock_last hman hst hnext hhash hread hnew hleft hcomps)
    refine ⟨_, congrArg Host.Outcome.next (if_neg (by simp [hreset])), ?_⟩
    rw [hdone]
    exact ⟨rfl, rfl, rfl, rfl, rfl⟩
  · rintro b m u k s ⟨hreset, hrun, hman, hst, hnext, hhash, hread, hnew, hleft⟩
    have hs := congrArg Prod.fst (updateBlock_more hman hst hnext hhash hread hnew hleft)
    obtain ⟨g, p, q, rfl⟩ := girthRun_eq _ _ _ _ hrun
    have hdone := underGrants_ok _ _ _ _ _ hrun hs (updateBlock_more hman hst hnext hhash hread hnew hleft)
    refine ⟨_, congrArg Host.Outcome.next (if_neg (by simp [hreset])), ?_⟩
    rw [hdone]
    exact ⟨rfl, rfl, rfl, rfl, rfl⟩
  · rintro b s ⟨hreset, hst, hnext, hhash⟩
    have hbad := updateBlock_wrongHash hst hnext hhash
    refine ⟨_, congrArg Host.Outcome.next (if_neg (by simp [hreset])), ?_⟩
    rw [underGrants_refused (by rw [hbad]; simp), hbad]
  · rintro b s ⟨hreset, hst, hnext⟩
    have hbad := updateBlock_outOfTurn hst hnext
    refine ⟨_, congrArg Host.Outcome.next (if_neg (by simp [hreset])), ?_⟩
    rw [underGrants_refused (by rw [hbad]; simp), hbad]
  · rintro b s ⟨hreset, hprep, hcopy⟩
    have hbad := updateBlock_outside (b := b) hprep hcopy
    refine ⟨_, congrArg Host.Outcome.next (if_neg (by simp [hreset])), ?_⟩
    rw [underGrants_refused (by rw [hbad]; simp), hbad]
  · rintro b s ⟨hreset, hst, hnext, hhash, hread, hnew⟩
    have hbad := updateBlock_misread hst hnext hhash hread
    refine ⟨_, congrArg Host.Outcome.next (if_neg (by simp [hreset])), ?_⟩
    rw [underGrants_refused (by rw [hbad]; simp), hbad]
    obtain ⟨hdone, hidle, hman, hwritten, -, hdir, hfuses, himage⟩ :=
      rollback_done (blockJournal b s) (inReset_cold s hreset)
    exact ⟨rfl, hidle, hman, hwritten, hdir, hfuses, fun k hk => (himage k hk).trans (journal_was b s k hnew),
      ((hdone.of_sec (s := s) rfl rfl rfl rfl rfl).setLastSt _).setLastSt _⟩
  · exact fun b s h => ⟨_, rfl, if_pos h⟩
  · rintro s ⟨hreset, hidle, hroll⟩
    refine ⟨_, congrArg Host.Outcome.next ((if_neg (by simp [hreset])).trans (updateAbandon_ok hidle hroll)), ?_⟩
    obtain ⟨hdone, hidle', hman, hwritten, hwrap, hdir, hfuses, himage⟩ := rollback_done s (inReset_cold s hreset)
    exact ⟨hdone, hidle', hman, hwritten, hwrap, hdir, hfuses, himage⟩
  · intro v s h
    refine ⟨_, rfl, ?_⟩
    split
    · rfl
    · next hreset => exact updateAbandon_barred (h.resolve_left hreset)
  · rintro s ⟨hreset, hst⟩
    refine ⟨_, congrArg Host.Outcome.next ((if_neg (by simp [hreset])).trans (handover_ok hst)), ?_, ?_, ?_⟩
    · exact (appReset_done 5 (onTrial s) (inReset_cold s hreset)).of_sec rfl rfl rfl rfl rfl
    · rw [(appReset_sec _ _).1]; rfl
    · rw [(appReset_sec _ _).1]; rfl
  · intro v s h
    refine ⟨_, rfl, ?_⟩
    split
    · rfl
    · next hreset => exact handover_barred (h.resolve_left hreset)
  · rintro m u s ⟨hup, hrun, hman, hmay⟩
    have hs := congrArg Prod.fst (tackConfirm_ok hman hmay)
    obtain ⟨g, p, b, rfl⟩ := girthRun_eq _ _ _ _ hrun
    refine ⟨_, congrArg Host.Outcome.next (served_ok 11 0 _ _ _ _ _ hup hrun hs (tackConfirm_ok hman hmay)), ?_⟩
    rw [reply_sec, reply_trial, reply_fuses]
    exact confirm_facts m _
  · rintro s ⟨hup, hbar⟩
    exact ⟨_, rfl, served_refused 11 0 _ _ _ _ .state hup (tackConfirm_barred hbar) (by decide)⟩
  · exact fun s h => ⟨_, rfl, served_down _ _ _ _ s h⟩

end Sys2Proof.Machine
end

section
/-!
SUPPORT. When a power-on or warm start runs its steps, and StartSequences.
-/
set_option Elab.async false
namespace Sys2Proof.Machine

/-- The state in which a power-on start runs its steps. -/
def poweredOn (s : State) : State := { s with cold.coldHeld := false, cold.started := true, cold.grid := 0 }

/-- A power-on start that may run ends as its steps end. -/
theorem powerOnStart_runs {boot : BitVec 4} {b : BootChecks} {s : State} {P : State → Prop}
    (hmay : s.cold.mainFail = false ∧ (s.cold.started = false ∨ s.cold.coldHeld = true))
    (hend : P (startFrom false boot b (poweredOn s))) : ∃ t, exec (.powerOnStart boot b) s = .next t ∧ P t := by
  obtain ⟨hmain, hheld⟩ := hmay
  refine ⟨_, congrArg Host.Outcome.next (if_neg ?_), hend⟩
  rcases hheld with h | h <;> simp [hmain, h]

/-- A warm start that may run ends as its steps end. -/
theorem warmStart_runs {boot : BitVec 4} {b : BootChecks} {s : State} {P : State → Prop}
    (hmay : s.app.clk.appHeld = true ∧ s.cold.mainFail = false ∧ s.cold.coldHeld = false)
    (hend : P (startFrom true boot b s)) : ∃ t, exec (.warmStart boot b) s = .next t ∧ P t := by
  obtain ⟨happ, hmain, hcold⟩ := hmay
  exact ⟨_, congrArg Host.Outcome.next (if_pos (by simp [happ, hmain, hcold])), hend⟩

/-- Settles O35: both starts run the same steps (`powerOnStart_runs`, `warmStart_runs`), and each check of the
steps ends them as the `start_…` lemma of its step says. -/
theorem startSequences : Obligations.StartSequences := by
  refine ⟨?_, ?_, ?_, ?_, ?_, ?_, ?_, ?_, ?_, ?_, ?_, ?_, ?_, ?_, ?_, ?_, ?_, ?_, ?_, ?_, ?_, ?_, ?_, ?_, ?_, ?_⟩
  · exact fun boot b s ⟨hmay, h⟩ => powerOnStart_runs hmay (start_debug false boot b (poweredOn s) h)
  · exact fun boot b s ⟨hmay, h⟩ => powerOnStart_runs hmay (start_mfg false boot b (poweredOn s) h)
  · exact fun boot b s ⟨hmay, h⟩ => powerOnStart_runs hmay (start_recovery false boot b (poweredOn s) h)
  · exact fun boot b s ⟨hmay, h⟩ => powerOnStart_runs hmay (start_norecovery false boot b (poweredOn s) h)
  · exact fun boot b s ⟨hmay, h⟩ => powerOnStart_runs hmay (start_flash false boot b (poweredOn s) h)
  · exact fun boot b s ⟨hmay, h⟩ => powerOnStart_runs hmay (start_dir false boot b (poweredOn s) h)
  · exact fun boot b s ⟨hmay, h⟩ => powerOnStart_runs hmay (start_loader false boot b (poweredOn s) h)
  · exact fun boot b s ⟨hmay, h⟩ => powerOnStart_runs hmay (start_undo false boot b (poweredOn s) h rfl)
  · exact fun boot b s ⟨hmay, h⟩ => powerOnStart_runs hmay (start_manifest false boot b (poweredOn s) h)
  · exact fun boot b s ⟨hmay, h⟩ => powerOnStart_runs hmay (start_tack false boot b (poweredOn s) h)
  · exact fun boot b s ⟨hmay, h⟩ => powerOnStart_runs hmay (start_cantle false boot b (poweredOn s) h)
  · exact fun boot b s ⟨hmay, h⟩ => powerOnStart_runs hmay (start_done false boot b (poweredOn s) h)
  · exact fun boot b s ⟨hmay, h⟩ => warmStart_runs hmay (start_debug true boot b s h)
  · exact fun boot b s ⟨hmay, h⟩ => warmStart_runs hmay (start_mfg true boot b s h)
  · exact fun boot b s ⟨hmay, h⟩ => warmStart_runs hmay (start_recovery true boot b s h)
  · exact fun boot b s ⟨hmay, h⟩ => warmStart_runs hmay (start_norecovery true boot b s h)
  · exact fun boot b s ⟨hmay, h⟩ => warmStart_runs hmay (start_flash true boot b s h)
  · exact fun boot b s ⟨hmay, h⟩ => warmStart_runs hmay (start_dir true boot b s h)
  · exact fun boot b s ⟨hmay, h⟩ => warmStart_runs hmay (start_loader true boot b s h)
  · exact fun boot b s ⟨⟨happ, hmain, hcold⟩, h⟩ =>
      warmStart_runs ⟨happ, hmain, hcold⟩ (start_undo true boot b s h hcold)
  · exact fun boot b s ⟨hmay, h⟩ => warmStart_runs hmay (start_manifest true boot b s h)
  · exact fun boot b s ⟨hmay, h⟩ => warmStart_runs hmay (start_tack true boot b s h)
  · exact fun boot b s ⟨hmay, h⟩ => warmStart_runs hmay (start_cantle true boot b s h)
  · exact fun boot b s ⟨hmay, h⟩ => warmStart_runs hmay (start_done true boot b s h)
  · intro boot b s h
    refine ⟨_, rfl, if_pos ?_⟩
    rcases h with hmain | ⟨hstarted, hheld⟩
    · simp [hmain]
    · simp [hstarted, hheld]
  · intro boot b s h
    refine ⟨_, rfl, if_neg ?_⟩
    rcases h with h | h | h <;> simp [h]

end Sys2Proof.Machine
end

section
/-!
SUPPORT. How a vehicle connection opens, is secured, negotiates and fails, and VehicleConnections.
-/
set_option Elab.async false
namespace Sys2Proof.Machine

theorem vc_updVc_same (s : State) (n : Nat) (f : V2gConn → V2gConn) : (s.updVc n f).vc n = f (s.vc n) :=
  (updVc_vc s n n f).trans (if_pos rfl)

theorem vc_updVc_other {n m : Nat} (s : State) (f : V2gConn → V2gConn) (h : m ≠ n) : (s.updVc n f).vc m = s.vc m :=
  (updVc_vc s n m f).trans (if_neg (Ne.symm h))

theorem vs_updVs_same (s : State) (k : Nat) (f : VSess → VSess) : (s.updVs k f).vs k = f (s.vs k) :=
  (updVs_vs s k k f).trans (if_pos rfl)

/-- A failed connection ends its session. -/
theorem connFail_phase {n k : Nat} {s : State} (hsession : s.session n = some k)
    (hphase : within 2 (s.phase k) 7 = true) : (connFail n s).phase k = if s.phase k = 7 then 8 else 9 :=
  end_phase n 8 k ((connClose n s).updVc n fun c => { c with ans := .closed }) hsession hphase

theorem withSession_some {p k : Nat} {f : Nat → State → State} {s : State} (h : s.session p = some k) :
    withSession p f s = f k s := by
  simp only [withSession, h]

theorem toStopping_phase (k r : Nat) (s : State) : (toStopping k r s).phase k = 8 :=
  setPhase_phase k 8 _

/-- A handshake on a connection that waits for one is accepted, or is an alert. -/
theorem tlsHandshake_awaited {n : Nat} {a : V2gHello} {s : State} (hopen : (s.vc n).isOpen = true)
    (htls : (s.vc n).tls = true) (hup : (s.vc n).tlsUp = false) :
    tlsHandshake n a s = if !s.helloOk (s.vc n) a then connFail n (s.updVc n fun c => { c with tcp := .alert })
      else match girthRun pkaPort (List.replicate (helloOps (s.vc n) a) 3) s with
        | none => connFail n (s.updVc n fun c => { c with tcp := .alert })
        | some u => u.updVc n fun c => { c with tlsUp := true, tcp := .tlsUp, stapled := s.staples a } := by
  refine (if_neg (by simp [hopen, htls, hup])).trans ?_
  cases girthRun pkaPort (List.replicate (helloOps (s.vc n) a) 3) s <;> rfl

theorem tlsHandshake_alert {n : Nat} {a : V2gHello} {s : State} (hopen : (s.vc n).isOpen = true)
    (htls : (s.vc n).tls = true) (hup : (s.vc n).tlsUp = false)
    (hbad : s.helloOk (s.vc n) a = false ∨ girthRun pkaPort (List.replicate (helloOps (s.vc n) a) 3) s = none) :
    tlsHandshake n a s = connFail n (s.updVc n fun c => { c with tcp := .alert }) := by
  rw [tlsHandshake_awaited hopen htls hup]
  split
  · rfl
  · next hok =>
    rw [hbad.resolve_left (by simpa using hok)]

theorem v2gtp_good {n ty len j : Nat} {s : State} (hup : (s.vc n).up = true)
    (hschema : schemaOf (s.vc n).proto ty = some j) (hlen : len ≤ 8192) :
    v2gtp n 1 0xFE ty len s = withSession n (fun slot s => handOver n slot
      (s.updVc n fun c => { c with area := some (v2gArea slot) })) (s.updVc n fun c => { c with schema := some j }) := by
  simp [v2gtp, hup, hschema, Nat.not_lt.mpr hlen]

theorem v2gtp_bad {n ver inv ty len : Nat} {s : State} (hup : (s.vc n).up = true)
    (hbad : schemaOf (s.vc n).proto ty = none ∨ ver ≠ 1 ∨ inv ≠ 0xFE ∨ 8192 < len) :
    v2gtp n ver inv ty len s = connFail n s := by
  refine (if_neg (by simp [hup])).trans ?_
  split
  · rfl
  · next hhead =>
    split
    · rfl
    · next k hschema =>
      refine if_pos ?_
      simp only [Bool.or_eq_true, decide_eq_true_eq, not_or] at hhead
      obtain hb | hb | hb | hb := hbad
      · exact absurd (hb.symm.trans hschema) (by simp)
      · exact absurd hb hhead.1
      · exact absurd hb hhead.2
      · exact hb

theorem sapRequest_first {n k : Nat} {l : List ProtoOffer} {s : State} (hsession : s.session n = some k)
    (hup : (s.vc n).up = true) (hproto : (s.vc n).proto = none) :
    sapRequest n l s = match bestOffer (l.filter fun o => o.major && s.offers n k (s.vc n).tls o.proto) with
      | none => endSession n 8 ((connClose n s).updVc n fun c => { c with ans := .noNegotiation })
      | some o =>
        (s.updVc n fun c => { c with proto := some o.proto, ans := if o.minor then .ok else .okMinor }).updVs k
          fun v => { v with proto := protoCode o.proto } := by
  simp only [sapRequest, hsession, hup, hproto, Bool.not_true, Bool.false_eq_true, ↓reduceIte, Option.isSome_none] <;>
    cases bestOffer (l.filter fun o => o.major && s.offers n k (s.vc n).tls o.proto) <;> rfl

theorem sapRequest_again {n k : Nat} {l : List ProtoOffer} {s : State} (hsession : s.session n = some k)
    (hup : (s.vc n).up = true) (hproto : (s.vc n).proto.isSome = true) : sapRequest n l s = connFail n s := by
  simp only [sapRequest, hsession, hup, hproto, Bool.not_true, Bool.false_eq_true, ↓reduceIte]

theorem sapRequest_unheard {n : Nat} {l : List ProtoOffer} {s : State}
    (h : s.session n = none ∨ (s.vc n).up = false) : sapRequest n l s = s := by
  unfold sapRequest
  split
  · rfl
  · next hsession =>
    exact if_pos (by simp [h.resolve_left (by rw [hsession]; simp)])

theorem ongoingExpiry_waiting {n : Nat} {x : Proto} {m : V2gMsg} {s : State} (hwait : (s.vc n).waiting = true)
    (hproto : (s.vc n).proto = some x) (hprev : (s.vc n).prev = some m) :
    ongoingExpiry n s =
      if ongoingAllowed x m then s.updVc n fun c => { c with ans := .ongoing, waiting := false }
      else if m = .certificateInstallation then
        withSession n (fun slot s =>
          failStop n slot m .failed (s.updVs slot fun v => { v with pendDec := 0, decided := 0 })) s
      else s := by
  simp only [ongoingExpiry, hproto, hprev, hwait, Bool.not_true, Bool.false_eq_true, ↓reduceIte]

theorem ongoingExpiry_idle {n : Nat} {s : State} (h : (s.vc n).waiting = false) : ongoingExpiry n s = s := by
  unfold ongoingExpiry
  dsimp only
  split
  · exact if_pos (by simp [h])
  · rfl

theorem certificateInstallation_not_ongoing (x : Proto) : ongoingAllowed x .certificateInstallation = false := by
  cases x <;> rfl

/-- Settles O36: each step of a connection has one value with its conditions met; every failure is `connFail`, whose
end of the session is `connFail_phase`. -/
theorem vehicleConnections : Obligations.VehicleConnections := by
  refine ⟨?_, ?_, ?_, ?_, ?_, ?_, ?_, ?_, ?_, ?_, ?_, ?_, ?_, ?_, ?_, ?_, ?_, ?_, ?_, ?_, ?_⟩
  · intro n b s h
    refine ⟨_, congrArg Host.Outcome.next (if_pos h), ?_, ?_, fun m hm => vc_updVc_other _ _ hm⟩
    · exact congrArg V2gConn.sdp (vc_updVc_same s n _)
    · exact congrArg V2gConn.sdpAddr (vc_updVc_same s n _)
  · exact fun n b s h => ⟨_, rfl, if_neg (by simp [h])⟩
  · rintro n b s ⟨hlinked, hopen⟩
    exact ⟨_, rfl, if_neg (by simp [hlinked, hopen])⟩
  · intro n b s h
    refine ⟨_, congrArg Host.Outcome.next (if_pos ?_), vc_updVc_same s n _⟩
    rcases h with h | h <;> simp [h]
  · rintro n a u s ⟨hopen, htls, hup, hok, hrun⟩
    refine ⟨_, rfl, (tlsHandshake_awaited hopen htls hup).trans ?_⟩
    rw [if_neg (by simp [hok]), hrun]
  · rintro n a k s ⟨hopen, htls, hup, hbad, hsession, hphase⟩
    have halert := tlsHandshake_alert hopen htls hup hbad
    refine ⟨_, rfl, halert, ?_⟩
    rw [halert]
    exact connFail_phase (s := s.updVc n fun c => { c with tcp := .alert }) hsession hphase
  · intro n a s h
    refine ⟨_, rfl, if_pos ?_⟩
    rcases h with h | h | h <;> simp [h]
  · rintro n ty l j s ⟨hup, hschema, hlen⟩
    exact ⟨_, rfl, v2gtp_good hup hschema hlen⟩
  · rintro n ve iv ty l k s ⟨hup, hbad, hsession, hphase⟩
    have hfail : v2gtp n ve.toNat iv.toNat ty.toNat l s = connFail n s := by
      refine v2gtp_bad hup (hbad.imp_right (Or.imp ?_ (Or.imp_left ?_)))
      · exact fun hne he => hne (BitVec.eq_of_toNat_eq he)
      · exact fun hne he => hne (BitVec.eq_of_toNat_eq he)
    refine ⟨_, rfl, hfail, ?_⟩
    rw [hfail]
    exact connFail_phase hsession hphase
  · exact fun n ve iv ty l s h => ⟨_, rfl, if_pos (by simp [h])⟩
  · rintro n l k o s ⟨hsession, hup, hproto, hbest⟩
    have hfirst := sapRequest_first (l := l) hsession hup hproto
    rw [hbest] at hfirst
    refine ⟨_, congrArg Host.Outcome.next hfirst, ?_, ?_, ?_⟩
    · exact congrArg V2gConn.proto (vc_updVc_same s n _)
    · exact congrArg V2gConn.ans (vc_updVc_same s n _)
    · exact congrArg VSess.proto (vs_updVs_same _ k _)
  · rintro n l k s ⟨hup, hproto, hbest, hsession, hphase⟩
    have hfirst := sapRequest_first (l := l) hsession hup hproto
    rw [hbest] at hfirst
    refine ⟨_, congrArg Host.Outcome.next hfirst, rfl, ?_⟩
    exact end_phase n 8 k ((connClose n s).updVc n fun c => { c with ans := .noNegotiation }) hsession hphase
  · rintro n l k s ⟨hup, hproto, hsession, hphase⟩
    exact ⟨_, congrArg Host.Outcome.next (sapRequest_again hsession hup hproto), rfl, connFail_phase hsession hphase⟩
  · exact fun n l s h => ⟨_, rfl, sapRequest_unheard h⟩
  · rintro n k s ⟨hopen, hwait, hsession, hphase⟩
    exact ⟨_, congrArg Host.Outcome.next (if_pos (by simp [hopen, hwait])), rfl, connFail_phase hsession hphase⟩
  · intro n s h
    refine ⟨_, rfl, if_neg ?_⟩
    rcases h with h | h <;> simp [h]
  · rintro n k s ⟨hsession, hphase⟩
    have hpoint : s.pointPhase n = 3 := by simp [State.pointPhase, hsession, hphase]
    refine ⟨_, congrArg Host.Outcome.next (if_pos hpoint), rfl, ?_⟩
    rw [end_phase n 8 k s hsession (by rw [hphase]; rfl), hphase]
    rfl
  · exact fun n s h => ⟨_, rfl, if_neg h⟩
  · rintro n x m s ⟨hwait, hproto, hprev, hallowed⟩
    exact ⟨_, rfl, (ongoingExpiry_waiting hwait hproto hprev).trans (if_pos hallowed)⟩
  · rintro n x k s ⟨hwait, hproto, hprev, hsession⟩
    have hfail := ((ongoingExpiry_waiting hwait hproto hprev).trans
      (if_neg (by simp [certificateInstallation_not_ongoing]))).trans ((if_pos rfl).trans (withSession_some hsession))
    exact ⟨_, congrArg Host.Outcome.next hfail, rfl, toStopping_phase _ _ _⟩
  · exact fun n s h => ⟨_, rfl, ongoingExpiry_idle h⟩

end Sys2Proof.Machine
end

section
/-!
SUPPORT. What a request of a V2G session does in its order and out of it, and VehicleRequests.
-/
set_option Elab.async false
namespace Sys2Proof.Machine

/-- A session's phase lies in the memory. -/
theorem phase_of_mem {u s : State} (h : u.app.mem = s.app.mem) (k : Nat) : u.phase k = s.phase k := by
  simp only [State.phase, State.num, bytes_of_mem u s h]

/-- The session of a point is found among the contexts. -/
theorem session_of_ctx {u s : State} (h : u.app.ctx = s.app.ctx) (p : Nat) : u.session p = s.session p := by
  simp only [State.session, State.slotOfRole, State.pointSlots, h]

/-- A request that comes in its order is served. -/
theorem v2gRequest_served {n : Fin 64} {m : V2gMsg} {a : V2gVals} {k : Nat} {x : Proto} {s t : State}
    (hsession : s.session n = some k) (hup : (s.vc n).up = true) (hproto : (s.vc n).proto = some x)
    (horder : s.inOrder n x m = true) (hserve : v2gServe n m a k x s = t) :
    exec (.v2gRequest n m a) s = .next t :=
  congrArg Host.Outcome.next ((on_ok n k m x _ s ⟨hsession, hup, hproto, horder⟩).trans hserve)

/-- A sequence error under a negotiated standard ends the session with reason 8. -/
theorem seqError_negotiated {n : Nat} {x : Proto} {s : State} (h : (s.vc n).proto = some x) :
    seqError n s = endSession n 8 (s.updVc n fun c => { c with ans := .sequenceError, waiting := false }) :=
  if_neg (by simp [h])

theorem sequenceError_phase {n k : Nat} {s : State} (hsession : s.session n = some k)
    (hphase : within 2 (s.phase k) 7 = true) :
    (endSession n 8 (s.updVc n fun c => { c with ans := .sequenceError, waiting := false })).phase k =
      if s.phase k = 7 then 8 else 9 :=
  end_phase n 8 k (s.updVc n fun c => { c with ans := .sequenceError, waiting := false }) hsession hphase

theorem setpointOff_phase (p k : Nat) (s : State) : (setpointOff p s).phase k = s.phase k := by
  obtain ⟨-, hmem, -⟩ := publish_veh p 0 0 false s
  exact phase_of_mem hmem k

theorem setpointOff_session (p q : Nat) (s : State) : (setpointOff p s).session q = s.session q := by
  obtain ⟨-, -, hctx⟩ := publish_veh p 0 0 false s
  exact session_of_ctx hctx q

/-- The end of a session whose setpoint was taken off first. -/
theorem stopped_phase {p k : Nat} {s : State} (r : Nat) (hsession : s.session p = some k)
    (hphase : within 2 (s.phase k) 7 = true) :
    (endSession p r (setpointOff p s)).phase k = if s.phase k = 7 then 8 else 9 := by
  rw [end_phase p r k _ ((setpointOff_session p p s).trans hsession) (by rw [setpointOff_phase]; exact hphase),
    setpointOff_phase]

/-- The requests that carry voltage, current and state of charge keep them. -/
theorem demand_vs (n k : Nat) (m : V2gMsg) (a : V2gVals) (s : State) :
    ((demand n k m a s).vs k).soc = a.soc % 256 ∧ ((demand n k m a s).vs k).reqV = min 65535 a.v ∧
    ((demand n k m a s).vs k).reqI = clampInt (-2147483648) 2147483647 a.i := by
  have hvs : (demand n k m a s).vs k =
      (vehicleRequest n k a.v a.i (s.updVs k fun v => { v with soc := a.soc % 256 })).vs k := rfl
  rw [hvs, vreq_vs, vs_updVs_same]
  exact ⟨rfl, rfl, rfl⟩

theorem v2gServe_demand {n k : Nat} {m : V2gMsg} {a : V2gVals} {x : Proto} {s : State}
    (hm : m = .preCharge ∨ m = .currentDemand ∨ m = .chargeLoop) : v2gServe n m a k x s = demand n k m a s := by
  rcases hm with rfl | rfl | rfl <;> rfl

theorem v2gServe_acdp {n k : Nat} {m : V2gMsg} {a : V2gVals} {x : Proto} {s : State}
    (hm : m = .acdpConnect ∨ m = .acdpSystemStatus) :
    v2gServe n m a k x s = answer n m .ok (s.updVc n fun c => { c with acdp := s.acdpState n }) := by
  rcases hm with rfl | rfl <;> rfl

/-- The messages that are answered OK with the values they carry. -/
theorem v2gServe_plain {n k : Nat} {m : V2gMsg} {a : V2gVals} {x : Proto} {s : State}
    (hm : m ∈ [V2gMsg.serviceDetail, .chargingStatus, .weldingDetection, .vehicleCheckIn, .vehicleCheckOut,
      .vehiclePositioning]) : v2gServe n m a k x s = answerWith n m .ok s := by
  simp only [List.mem_cons, List.not_mem_nil, or_false] at hm
  rcases hm with rfl | rfl | rfl | rfl | rfl | rfl <;> rfl

theorem cableCheck_result {n : Nat} {good : Bool} {s : State} (h : s.isolation n = some good) :
    cableCheck n s = answerWith n .cableCheck (if good then .ok else .failed) s := by
  cases good <;> simp [cableCheck, h]

theorem cableCheck_none {n : Nat} {s : State} (h : s.isolation n = none) : cableCheck n s = waitFor n .cableCheck s := by
  simp only [cableCheck, h]

theorem chargeParams_offered {n k : Nat} {x : Proto} {a : V2gVals} {s : State}
    (h : (s.services n k x).contains a.mode = true ∨ (x ≠ .din ∧ x ≠ .iso2)) :
    chargeParams n k x a s = withTariff n .chargeParameterDiscovery
      (fun s => requestCoil n k (answerWith n .chargeParameterDiscovery .ok s)) s := by
  refine if_neg ?_
  rcases h with h | ⟨hdin, hiso⟩
  · simp only [h, Bool.not_true, Bool.and_false, Bool.false_eq_true, not_false_eq_true]
  · simp [hdin, hiso]

theorem chargeParams_otherMode {n k : Nat} {x : Proto} {a : V2gVals} {s : State} (hx : x = .din ∨ x = .iso2)
    (hmode : (s.services n k x).contains a.mode = false) :
    chargeParams n k x a s = answer n .chargeParameterDiscovery .failed s := by
  refine if_pos ?_
  rw [hmode]
  rcases hx with rfl | rfl <;> rfl

/-- SessionSetup takes LINKING to AUTHORISING and keeps the EVCCID. -/
theorem v2gServe_setup (n k : Nat) (a : V2gVals) (x : Proto) (s : State) :
    ((v2gServe n .sessionSetup a k x s).vs k).evccid = a.evccid ∧
    (v2gServe n .sessionSetup a k x s).phase k = if s.phase k = 3 then 4 else s.phase k := by
  have hserve : v2gServe n .sessionSetup a k x s = answer n .sessionSetup .ok
      (if s.phase k = 3 then setPhase k 4 (s.updVs k fun v => { v with evccid := a.evccid })
        else s.updVs k fun v => { v with evccid := a.evccid }) := rfl
  rw [hserve]
  by_cases hphase : s.phase k = 3
  · rw [if_pos hphase, if_pos hphase]
    exact ⟨congrArg VSess.evccid (vs_updVs_same s k _), setPhase_phase k 4 _⟩
  · rw [if_neg hphase, if_neg hphase]
    exact ⟨congrArg VSess.evccid (vs_updVs_same s k _), rfl⟩

/-- Settles O37: a request in its order is served (`v2gRequest_served`) as its message says; one out of order or
before a standard is the error of `on_bad` and `on_early`, whose end of the session is known. -/
theorem vehicleRequests : Obligations.VehicleRequests := by
  refine ⟨?_, ?_, ?_, ?_, ?_, ?_, ?_, ?_, ?_, ?_, ?_, ?_, ?_, ?_, ?_, ?_, ?_, ?_, ?_, ?_, ?_, ?_, ?_, ?_, ?_, ?_, ?_,
    ?_, ?_, ?_, ?_, ?_, ?_⟩
  · rintro n a k x s ⟨hsession, hup, hproto, horder⟩
    obtain ⟨hevccid, hphase⟩ := v2gServe_setup n k a x s
    refine ⟨_, v2gRequest_served hsession hup hproto horder rfl, ?_, ?_, hevccid, hphase⟩
    · exact congrArg V2gConn.ans (answer_vc n .sessionSetup .ok _)
    · exact congrArg V2gConn.prev (answer_vc n .sessionSetup .ok _)
  · rintro n a k x s ⟨hsession, hup, hproto, horder⟩
    exact ⟨_, v2gRequest_served hsession hup hproto horder rfl, rfl⟩
  · rintro n a k x m s ⟨hsession, hup, hproto, horder, hm⟩
    exact ⟨_, v2gRequest_served hsession hup hproto horder (v2gServe_demand hm), rfl, demand_vs n k m a s⟩
  · rintro n a k x s ⟨hsession, hup, hproto, horder, hcontract⟩
    exact ⟨_, v2gRequest_served hsession hup hproto horder (if_neg (by simp [hcontract])), rfl⟩
  · rintro n a k x s ⟨hsession, hup, hproto, horder, hcontract, hphase⟩
    exact ⟨_, v2gRequest_served hsession hup hproto horder ((if_pos hcontract).trans (seqError_negotiated hproto)), rfl,
      sequenceError_phase hsession hphase⟩
  · rintro n a k x s ⟨hsession, hup, hproto, horder, hoffer⟩
    exact ⟨_, v2gRequest_served hsession hup hproto horder (if_pos hoffer), rfl⟩
  · rintro n a k x s ⟨hsession, hup, hproto, horder, hoffer⟩
    exact ⟨_, v2gRequest_served hsession hup hproto horder (if_neg (by rw [hoffer]; decide)), rfl⟩
  · rintro n a k x s ⟨hsession, hup, hproto, horder, hisolation⟩
    exact ⟨_, v2gRequest_served hsession hup hproto horder (cableCheck_result hisolation), rfl⟩
  · rintro n a k x s ⟨hsession, hup, hproto, horder, hisolation⟩
    exact ⟨_, v2gRequest_served hsession hup hproto horder (cableCheck_result hisolation), rfl⟩
  · rintro n a k x s ⟨hsession, hup, hproto, horder, hisolation⟩
    exact ⟨_, v2gRequest_served hsession hup hproto horder (cableCheck_none hisolation), rfl⟩
  · rintro n a k x s ⟨hsession, hup, hproto, horder, hoffer, hlink⟩
    exact ⟨_, v2gRequest_served hsession hup hproto horder ((chargeParams_offered hoffer).trans (if_pos hlink)), rfl⟩
  · rintro n a k x s ⟨hsession, hup, hproto, horder, hoffer, hlink⟩
    exact ⟨_, v2gRequest_served hsession hup hproto horder
      ((chargeParams_offered hoffer).trans (if_neg (by simp [hlink]))), rfl⟩
  · rintro n a k x s ⟨hsession, hup, hproto, horder, hx, hmode⟩
    exact ⟨_, v2gRequest_served hsession hup hproto horder (chargeParams_otherMode hx hmode), rfl⟩
  · rintro n a k x s ⟨hsession, hup, hproto, horder, hlink⟩
    exact ⟨_, v2gRequest_served hsession hup hproto horder (if_pos hlink), rfl⟩
  · rintro n a k x s ⟨hsession, hup, hproto, horder, hlink⟩
    exact ⟨_, v2gRequest_served hsession hup hproto horder (if_neg (by simp [hlink])), rfl⟩
  · rintro n a k x s ⟨hsession, hup, hproto, horder, hx, hphase⟩
    exact ⟨_, v2gRequest_served hsession hup hproto horder (if_neg (by simp [hx, hphase])), rfl⟩
  · rintro n a k x s ⟨hsession, hup, hproto, horder, hx, hphase⟩
    have herror : (x = .din || s.phase k ≠ 7) = true := by
      rcases hx with h | h <;> simp [h]
    exact ⟨_, v2gRequest_served hsession hup hproto horder ((if_pos herror).trans (seqError_negotiated hproto)), rfl,
      sequenceError_phase hsession hphase⟩
  · rintro n a k x s ⟨hsession, hup, hproto, horder, hphase⟩
    exact ⟨_, v2gRequest_served hsession hup hproto horder rfl, rfl, end_phase n 1 k s hsession hphase⟩
  · rintro n a k x s ⟨hsession, hup, hproto, horder⟩
    exact ⟨_, v2gRequest_served hsession hup hproto horder rfl, rfl, setPhase_phase k 6 _⟩
  · rintro n a k x s ⟨hsession, hup, hproto, horder⟩
    exact ⟨_, v2gRequest_served hsession hup hproto horder rfl, rfl⟩
  · rintro n a k x m s ⟨hsession, hup, hproto, horder, hm⟩
    exact ⟨_, v2gRequest_served hsession hup hproto horder (v2gServe_acdp hm), rfl⟩
  · rintro n a k x s ⟨hsession, hup, hproto, horder, hphase⟩
    have hopen : s.phase k ≠ 8 := by
      intro h
      rw [h] at hphase
      exact absurd hphase (by decide)
    refine ⟨_, v2gRequest_served hsession hup hproto horder (if_neg hopen), rfl, ?_⟩
    exact stopped_phase (s := connClose n (answer n .sessionStop .ok s)) 1 hsession hphase
  · rintro n a k x s ⟨hsession, hup, hproto, horder, hphase⟩
    exact ⟨_, v2gRequest_served hsession hup hproto horder (if_pos hphase), rfl⟩
  · rintro n a k x s ⟨hsession, hup, hproto, horder, hphase, hgranted⟩
    exact ⟨_, v2gRequest_served hsession hup hproto horder (auth_go n k s hphase hgranted), rfl⟩
  · rintro n a k x s ⟨hsession, hup, hproto, horder, hphase, hpre, hdecided⟩
    exact ⟨_, v2gRequest_served hsession hup hproto horder (auth_no n k s hphase hpre hdecided), rfl⟩
  · rintro n a k x s ⟨hsession, hup, hproto, horder, hphase, hpre, hdecided⟩
    exact ⟨_, v2gRequest_served hsession hup hproto horder (auth_wait n k s hphase hpre hdecided), rfl⟩
  · rintro n a k x s ⟨hsession, hup, hproto, horder, hphase⟩
    exact ⟨_, v2gRequest_served hsession hup hproto horder (if_pos hphase), rfl⟩
  · rintro n a k x s ⟨hsession, hup, hproto, horder⟩
    exact ⟨_, v2gRequest_served hsession hup hproto horder rfl, rfl⟩
  · rintro n a k x s ⟨hsession, hup, hproto, horder⟩
    exact ⟨_, v2gRequest_served hsession hup hproto horder rfl, rfl⟩
  · rintro n a k x m s ⟨hsession, hup, hproto, horder, hm⟩
    exact ⟨_, v2gRequest_served hsession hup hproto horder (v2gServe_plain hm), rfl⟩
  · rintro n a k x m s ⟨hsession, hup, hproto, horder, hphase⟩
    exact ⟨_, congrArg Host.Outcome.next (on_bad n k m x _ s ⟨hsession, hup, hproto, horder⟩), rfl,
      sequenceError_phase hsession hphase⟩
  · rintro n a k m s ⟨hsession, hup, hproto, hphase⟩
    exact ⟨_, congrArg Host.Outcome.next (on_early n k m _ s ⟨hsession, hup, hproto⟩), rfl,
      connFail_phase hsession hphase⟩
  · exact fun n a m s h => ⟨_, rfl, on_none n m _ s h⟩

end Sys2Proof.Machine
end

section
/-!
SUPPORT. The checks of PnC, the start of the energy transfer and the decisions of the host, and VehicleAuthorisation.
-/
set_option Elab.async false
namespace Sys2Proof.Machine

/-- A request out of its order is a sequence error, which ends the session. -/
theorem onRequest_outOfOrder {n k : Nat} {m : V2gMsg} {x : Proto} {f : Nat → Proto → State → State} {s : State}
    (hsession : s.session n = some k) (hup : (s.vc n).up = true) (hproto : (s.vc n).proto = some x)
    (horder : s.inOrder n x m = false) (hphase : within 2 (s.phase k) 7 = true) :
    ∃ t, (Host.Outcome.next (onRequest n m f s) : Res) = .next t ∧
      t = endSession n 8 (s.updVc n fun c => { c with ans := .sequenceError, waiting := false }) ∧
      t.phase k = if s.phase k = 7 then 8 else 9 :=
  ⟨_, congrArg Host.Outcome.next (on_bad n k m x f s ⟨hsession, hup, hproto, horder⟩), rfl,
    sequenceError_phase hsession hphase⟩

/-- A request before a standard is negotiated closes the connection, which ends the session. -/
theorem onRequest_early {n k : Nat} {m : V2gMsg} {f : Nat → Proto → State → State} {s : State}
    (hsession : s.session n = some k) (hup : (s.vc n).up = true) (hproto : (s.vc n).proto = none)
    (hphase : within 2 (s.phase k) 7 = true) :
    ∃ t, (Host.Outcome.next (onRequest n m f s) : Res) = .next t ∧ t = connFail n s ∧
      t.phase k = if s.phase k = 7 then 8 else 9 :=
  ⟨_, congrArg Host.Outcome.next (on_early n k m f s ⟨hsession, hup, hproto⟩), rfl, connFail_phase hsession hphase⟩

/-- A PnC request that is due a check is checked under its grants. -/
theorem authorizationReq_checked {n : Fin 64} {a : PncCheck} {k : Nat} {x : Proto} {s : State}
    (hsession : s.session n = some k) (hup : (s.vc n).up = true) (hproto : (s.vc n).proto = some x)
    (horder : s.inOrder n x .authorization = true) (hdin : x ≠ .din) (hiso : x ≠ .iso2) :
    exec (.authorizationReq n a) s = .next (pncAuth n k a s) :=
  congrArg Host.Outcome.next ((on_ok n k .authorization x _ s ⟨hsession, hup, hproto, horder⟩).trans
    (if_neg (by simp [hdin, hiso])))

theorem pncAuth_granted {n k : Nat} {a : PncCheck} {s u : State} (hpend : (s.vs k).pendDec ≠ 1)
    (hdecided : (s.vs k).decided = 0) (hphase : within 5 (s.phase k) 8 = false)
    (hrun : girthRun pkaPort (List.replicate (1 + min 3 a.chain.sizes.length) 3) s = some u) :
    pncAuth n k a s = pncRun n k a u := by
  simp [pncAuth, hpend, hdecided, hphase, hrun]

theorem pncAuth_waits {n k : Nat} {a : PncCheck} {s : State} (hpend : (s.vs k).pendDec ≠ 1)
    (hdecided : (s.vs k).decided = 0) (hphase : within 5 (s.phase k) 8 = false)
    (hrun : girthRun pkaPort (List.replicate (1 + min 3 a.chain.sizes.length) 3) s = none) :
    pncAuth n k a s = waitFor n .authorization s := by
  simp [pncAuth, hpend, hdecided, hphase, hrun]

theorem pncAuth_repeated {n k : Nat} {a : PncCheck} {s : State}
    (h : (s.vs k).pendDec = 1 ∨ (s.vs k).decided ≠ 0 ∨ within 5 (s.phase k) 8 = true) :
    pncAuth n k a s = authDecide n k s := by
  refine if_pos ?_
  rcases h with h | h | h <;> simp [h]

/-- The EMAID taken and the challenge used, once the chain is good. -/
def pncTaken (n k : Nat) (a : PncCheck) (u : State) : State :=
  (u.updVc n fun c => { c with chal := none }).updVs k fun v => { v with ident := a.emaid, method := 2 }

theorem pncRun_signed {n k : Nat} {a : PncCheck} {u : State} (hchain : u.chainCheck a = none)
    (hsigned : u.pncSigned n a = true) :
    pncRun n k a u = authDecide n k
      (if (u.vs k).confirm then pncTaken n k a u else (pncTaken n k a u).updVs k fun v => { v with decided := 1 }) := by
  simp only [pncRun, hchain, hsigned, ↓reduceIte]
  rfl

theorem pncRun_unsigned {n k : Nat} {a : PncCheck} {u : State} (hchain : u.chainCheck a = none)
    (hsigned : u.pncSigned n a = false) :
    pncRun n k a u = endSession n 7 (answer n .authorization .failed (pncTaken n k a u)) := by
  simp only [pncRun, hchain, hsigned, Bool.false_eq_true, ↓reduceIte]
  rfl

theorem pncRun_chainFails {n k : Nat} {a : PncCheck} {e : V2gAns} {u : State} (hchain : u.chainCheck a = some e) :
    pncRun n k a u = endSession n 7 (answer n .authorization e u) := by
  simp only [pncRun, hchain]

theorem certificateInstallationReq_served {n : Fin 64} {l : List Byte} {k : Nat} {x : Proto} {s : State}
    (hsession : s.session n = some k) (hup : (s.vc n).up = true) (hproto : (s.vc n).proto = some x)
    (horder : s.inOrder n x .certificateInstallation = true) :
    exec (.certificateInstallationReq n l) s = .next (certInstall n k l (certAnswer n k) s) :=
  congrArg Host.Outcome.next (on_ok n k .certificateInstallation x _ s ⟨hsession, hup, hproto, horder⟩)

theorem powerDeliveryStart_served {n : Fin 64} {l : Bool} {k : Nat} {x : Proto} {s : State}
    (hsession : s.session n = some k) (hup : (s.vc n).up = true) (hproto : (s.vc n).proto = some x)
    (horder : s.inOrder n x .powerDelivery = true) :
    exec (.powerDeliveryStart n l) s = .next (powerStart n k l s) :=
  congrArg Host.Outcome.next (on_ok n k .powerDelivery x _ s ⟨hsession, hup, hproto, horder⟩)

theorem powerStart_closed {n k : Nat} {l : Bool} {s : State} (hphase : s.phase k = 6)
    (hmay : s.mayEnergise n = true) (hclosed : s.contactorClosed n = true) :
    powerStart n k l s =
      answer n .powerDelivery .ok (energise k (s.updVs k fun v => { v with coilRetry := false })) := by
  simp [powerStart, hphase, hmay, hclosed]

theorem powerStart_open {n k : Nat} {s : State} (hphase : s.phase k = 6) (hmay : s.mayEnergise n = true)
    (hclosed : s.contactorClosed n = false) : powerStart n k false s = waitFor n .powerDelivery s := by
  simp [powerStart, hphase, hmay, hclosed]

theorem powerStart_fails {n k : Nat} {l : Bool} {s : State}
    (h : s.phase k ≠ 6 ∨ s.mayEnergise n = false ∨ (l = true ∧ s.contactorClosed n = false)) :
    powerStart n k l s = failStop n k .powerDelivery .powerNotApplied s := by
  rcases h with h | h | ⟨hlate, hclosed⟩
  · simp [powerStart, h]
  · simp [powerStart, h]
  · simp [powerStart, hlate, hclosed]

/-- A session that negotiates V2G, whose vehicle waits for the authorisation, in state `u`. -/
structure AwaitsDecision (n k : Nat) (u : State) : Prop where
  phase : within 2 (u.phase k) 4 = true
  notAnalog : (u.vs k).proto ≠ 1
  notSequence : (u.vs k).proto ≠ 5
  waiting : (u.vc n).waiting = true
  request : (u.vc n).prev = some .authorization

theorem AwaitsDecision.taken {n k : Nat} {u : State} (h : AwaitsDecision n k u) (hdecided : (u.vs k).decided ≠ 0) :
    decisionTaken n k u = authDecide n k u := by
  refine decided_waiting n k u ?_ h.notAnalog h.notSequence h.waiting h.request hdecided
  intro hone
  have hphase := h.phase
  rw [hone] at hphase
  exact absurd hphase (by decide)

theorem AwaitsDecision.before {n k : Nat} {u : State} (h : AwaitsDecision n k u) : within 5 (u.phase k) 8 = false := by
  have hphase := h.phase
  simp only [within, Bool.and_eq_true, decide_eq_true_eq, Bool.and_eq_false_iff, decide_eq_false_iff_not] at hphase ⊢
  omega

/-- A decision for acceptance opens the record. -/
theorem AwaitsDecision.accepted {n k : Nat} {u : State} (h : AwaitsDecision n k u) (hdecided : (u.vs k).decided = 1) :
    decisionTaken n k u = openRecord k (answer n .authorization .ok (u.updVs k fun v =>
      { v with method := if v.method = 0 then 4 else v.method })) :=
  (h.taken (by rw [hdecided]; decide)).trans (auth_go n k u h.before (.inr hdecided))

/-- A decision for refusal ends the session with reason 7. -/
theorem AwaitsDecision.refused {n k : Nat} {u : State} (h : AwaitsDecision n k u) (hpre : (u.vs k).preAuth = false)
    (hdecided : (u.vs k).decided = 2) :
    decisionTaken n k u = endSession n 7 (answer n .authorization .failed u) :=
  (h.taken (by rw [hdecided]; decide)).trans (auth_no n k u h.before hpre hdecided)

/-- A change of a session's decision fields keeps what it waits for. -/
theorem AwaitsDecision.updVs {n k : Nat} {u : State} {f : VSess → VSess} (h : AwaitsDecision n k u)
    (hproto : ∀ v, (f v).proto = v.proto) : AwaitsDecision n k (u.updVs k f) where
  phase := h.phase
  notAnalog := by rw [vs_updVs_same, hproto]; exact h.notAnalog
  notSequence := by rw [vs_updVs_same, hproto]; exact h.notSequence
  waiting := h.waiting
  request := h.request

/-- The identifier of the host keeps what the session waits for. -/
theorem AwaitsDecision.hostIdent {n k : Nat} {s : State} (h : AwaitsDecision n k s) :
    AwaitsDecision n k (hostIdent k s) := by
  obtain ⟨hconn, hphase, hproto⟩ := hostIdent_facts k n s
  exact ⟨by rw [hphase]; exact h.phase, by rw [hproto]; exact h.notAnalog, by rw [hproto]; exact h.notSequence,
    by rw [hconn]; exact h.waiting, by rw [hconn]; exact h.request⟩

theorem hostDecisionTimeout_none {n : Nat} {s : State} {f : Nat → State → State}
    (h : s.session n = none ∨ ∃ k, s.session n = some k ∧ (s.vs k).pendDec = 0)
    (hf : ∀ k, (s.vs k).pendDec = 0 → f k s = s) : withSession n f s = s := by
  rcases h with h | ⟨k, hsession, hpend⟩
  · simp only [withSession, h]
  · exact (withSession_some hsession).trans (hf k hpend)

theorem decisionStatus_ok {k d : Nat} {s : State} (hpend : (s.vs k).pendDec = 1) (hd : d = 1 ∨ d = 2) :
    s.decisionStatus k d = .ok := by
  rcases hd with rfl | rfl <;> simp [State.decisionStatus, hpend]

/-- An acceptance by the host of a pending authorisation. -/
theorem hostDecide_accept {k : Nat} {s : State} (hpend : (s.vs k).pendDec = 1) :
    (hostDecide k 1 s).2 = decisionTaken (s.app.ctx.get k).point k ((hostIdent k s).updVs k fun v =>
      { v with pendDec := 0, decided := 1, decSt := .ok }) := by
  simp [hostDecide, decisionStatus_ok hpend (.inl rfl), hpend]

/-- A refusal by the host of a pending authorisation. -/
theorem hostDecide_refuse {k : Nat} {s : State} (hpend : (s.vs k).pendDec = 1) :
    (hostDecide k 2 s).2 = decisionTaken (s.app.ctx.get k).point k (s.updVs k fun v =>
      { v with pendDec := 0, decided := 2, decSt := .ok }) := by
  simp [hostDecide, decisionStatus_ok hpend (.inr rfl)]

theorem hostDecide_barred {k d : Nat} {s : State} (h : s.decisionStatus k d ≠ .ok) :
    (hostDecide k d s).2 = s.updVs k fun v => { v with decSt := s.decisionStatus k d } := by
  simp [hostDecide, h]

/-- The timeout of a pending authorisation decides as 2200h.02 says. -/
theorem hostDecisionTimeout_pending {n : Fin 64} {k : Nat} {s : State} (hsession : s.session n = some k)
    (hpend : (s.vs k).pendDec = 1) :
    exec (.hostDecisionTimeout n) s = .next (decisionTaken n k (s.updVs k fun v =>
      { v with pendDec := 0, decided := if s.onum 0x2200 2 = 1 then 1 else 2 })) := by
  refine congrArg Host.Outcome.next ((withSession_some hsession).trans ((if_neg (by simp [hpend])).trans ?_))
  by_cases haccept : s.onum 0x2200 2 = 1
  · simp [haccept, hpend]
  · simp [haccept]

/-- Settles O38: in order each request is its own operation; the decisions are `AwaitsDecision.accepted` and
`AwaitsDecision.refused`; out of order, early and unheard are the three cases of every request. -/
theorem vehicleAuthorisation : Obligations.VehicleAuthorisation := by
  refine ⟨?_, ?_, ?_, ?_, ?_, ?_, ?_, ?_, ?_, ?_, ?_, ?_, ?_, ?_, ?_, ?_, ?_, ?_, ?_, ?_, ?_, ?_, ?_, ?_, ?_, ?_, ?_,
    ?_, ?_, ?_, ?_, ?_, ?_⟩
  · rintro n k x s ⟨hsession, hup, hproto, horder⟩
    refine ⟨_, congrArg Host.Outcome.next (on_ok n k .authorizationSetup x _ s ⟨hsession, hup, hproto, horder⟩), ?_⟩
    have hconn : (authSetup n s).vc n =
        { s.vc n with chal := some (s.freeBits 128), ans := .ok, prev := some .authorizationSetup, waiting := false } :=
      (answer_vc n .authorizationSetup .ok _).trans (by rw [vc_updVc_same])
    rw [hconn]
    exact ⟨rfl, rfl, rfl⟩
  · rintro n a k x u s ⟨hsession, hup, hproto, horder, hdin, hiso, hpend, hdecided, hphase, hrun, hchain, hsigned,
      hconfirm⟩
    refine ⟨_, authorizationReq_checked hsession hup hproto horder hdin hiso, ?_⟩
    rw [pncAuth_granted hpend hdecided hphase hrun, pncRun_signed hchain hsigned, hconfirm]
    rfl
  · rintro n a k x e u s ⟨hsession, hup, hproto, horder, hdin, hiso, hpend, hdecided, hphase, hrun, hchain⟩
    exact ⟨_, authorizationReq_checked hsession hup hproto horder hdin hiso,
      (pncAuth_granted hpend hdecided hphase hrun).trans (pncRun_chainFails hchain)⟩
  · rintro n a k x u s ⟨hsession, hup, hproto, horder, hdin, hiso, hpend, hdecided, hphase, hrun, hchain, hsigned⟩
    exact ⟨_, authorizationReq_checked hsession hup hproto horder hdin hiso,
      (pncAuth_granted hpend hdecided hphase hrun).trans (pncRun_unsigned hchain hsigned)⟩
  · rintro n a k x s ⟨hsession, hup, hproto, horder, hdin, hiso, hpend, hdecided, hphase, hrun⟩
    exact ⟨_, authorizationReq_checked hsession hup hproto horder hdin hiso, pncAuth_waits hpend hdecided hphase hrun⟩
  · rintro n a k x s ⟨hsession, hup, hproto, horder, hdin, hiso, hrepeat⟩
    exact ⟨_, authorizationReq_checked hsession hup hproto horder hdin hiso, pncAuth_repeated hrepeat⟩
  · rintro n a k x s ⟨hsession, hup, hproto, horder, hx⟩
    refine ⟨_, congrArg Host.Outcome.next (on_ok n k .authorization x _ s ⟨hsession, hup, hproto, horder⟩),
      if_pos ?_⟩
    rcases hx with h | h <;> simp [h]
  · rintro n l k x s ⟨hsession, hup, hproto, horder, hdecided, hpend⟩
    exact ⟨_, certificateInstallationReq_served hsession hup hproto horder,
      (if_neg (fun hne => hne hdecided)).trans (if_neg hpend)⟩
  · rintro n l k x s ⟨hsession, hup, hproto, horder, hdecided, hpend⟩
    exact ⟨_, certificateInstallationReq_served hsession hup hproto horder,
      (if_neg (fun hne => hne hdecided)).trans (if_pos hpend)⟩
  · rintro n l k x s ⟨hsession, hup, hproto, horder, hdecided⟩
    exact ⟨_, certificateInstallationReq_served hsession hup hproto horder,
      (if_pos (by rw [hdecided]; decide)).trans (if_pos hdecided)⟩
  · rintro n l k x s ⟨hsession, hup, hproto, horder, hdecided, hrefused⟩
    exact ⟨_, certificateInstallationReq_served hsession hup hproto horder,
      (if_pos hdecided).trans (if_neg hrefused)⟩
  · rintro n l k x s ⟨hsession, hup, hproto, horder, hphase, hmay, hclosed⟩
    exact ⟨_, powerDeliveryStart_served hsession hup hproto horder, powerStart_closed hphase hmay hclosed⟩
  · rintro n k x s ⟨hsession, hup, hproto, horder, hphase, hmay, hclosed⟩
    exact ⟨_, powerDeliveryStart_served hsession hup hproto horder, powerStart_open hphase hmay hclosed⟩
  · rintro n l k x s ⟨hsession, hup, hproto, horder, hfail⟩
    refine ⟨_, (powerDeliveryStart_served hsession hup hproto horder).trans
      (congrArg Host.Outcome.next (powerStart_fails hfail)), rfl, toStopping_phase _ _ _⟩
  · rintro n k s ⟨hsession, hpend, hwait, hprev, hphase, -, hanalog, hseq, -, haccept⟩
    have hawaits : AwaitsDecision n k s := ⟨hphase, hanalog, hseq, hwait, hprev⟩
    refine ⟨_, hostDecisionTimeout_pending hsession hpend, ?_⟩
    rw [haccept]
    exact (hawaits.updVs (f := fun v => { v with pendDec := 0, decided := 1 }) fun _ => rfl).accepted
      (by rw [vs_updVs_same])
  · rintro n k s ⟨hsession, hpend, hwait, hprev, hphase, -, hanalog, hseq, hpre, hrefuse⟩
    have hawaits : AwaitsDecision n k s := ⟨hphase, hanalog, hseq, hwait, hprev⟩
    refine ⟨_, hostDecisionTimeout_pending hsession hpend, ?_⟩
    simp only [if_neg hrefuse]
    exact (hawaits.updVs (f := fun v => { v with pendDec := 0, decided := 2 }) fun _ => rfl).refused
      (by rw [vs_updVs_same]; exact hpre) (by rw [vs_updVs_same])
  · exact fun n s h => ⟨_, rfl, hostDecisionTimeout_none h fun k hpend => if_pos hpend⟩
  · rintro k a b n s ⟨hnames, rfl, hpend, hwait, hprev, hphase, -, hanalog, hseq, -⟩
    have hawaits : AwaitsDecision (s.app.ctx.get k).point k s := ⟨hphase, hanalog, hseq, hwait, hprev⟩
    refine ⟨_, congrArg Host.Outcome.next ((if_pos hnames).trans (hostDecide_accept hpend)), ?_⟩
    exact (hawaits.hostIdent.updVs (f := fun v => { v with pendDec := 0, decided := 1, decSt := .ok })
      fun _ => rfl).accepted (by rw [vs_updVs_same])
  · rintro k a b s ⟨hnames, hpend, hwait, hprev, hphase, -, hanalog, hseq, hpre⟩
    have hawaits : AwaitsDecision (s.app.ctx.get k).point k s := ⟨hphase, hanalog, hseq, hwait, hprev⟩
    refine ⟨_, congrArg Host.Outcome.next ((if_pos hnames).trans (hostDecide_refuse hpend)), ?_⟩
    exact (hawaits.updVs (f := fun v => { v with pendDec := 0, decided := 2, decSt := .ok }) fun _ => rfl).refused
      (by rw [vs_updVs_same]; exact hpre) (by rw [vs_updVs_same])
  · rintro k a b d s ⟨hnames, hbarred⟩
    exact ⟨_, rfl, (if_pos hnames).trans (hostDecide_barred hbarred)⟩
  · exact fun k a b d s h => ⟨_, rfl, if_neg h⟩
  · exact fun n k x s ⟨hsession, hup, hproto, horder, hphase⟩ =>
      onRequest_outOfOrder hsession hup hproto horder hphase
  · exact fun n k s ⟨hsession, hup, hproto, hphase⟩ => onRequest_early hsession hup hproto hphase
  · exact fun n s h => ⟨_, rfl, on_none n _ _ s h⟩
  · exact fun n a k x s ⟨hsession, hup, hproto, horder, hphase⟩ =>
      onRequest_outOfOrder hsession hup hproto horder hphase
  · exact fun n a k s ⟨hsession, hup, hproto, hphase⟩ => onRequest_early hsession hup hproto hphase
  · exact fun n a s h => ⟨_, rfl, on_none n _ _ s h⟩
  · exact fun n l k x s ⟨hsession, hup, hproto, horder, hphase⟩ =>
      onRequest_outOfOrder hsession hup hproto horder hphase
  · exact fun n l k s ⟨hsession, hup, hproto, hphase⟩ => onRequest_early hsession hup hproto hphase
  · exact fun n l s h => ⟨_, rfl, on_none n _ _ s h⟩
  · exact fun n l k x s ⟨hsession, hup, hproto, horder, hphase⟩ =>
      onRequest_outOfOrder hsession hup hproto horder hphase
  · exact fun n l k s ⟨hsession, hup, hproto, hphase⟩ => onRequest_early hsession hup hproto hphase
  · exact fun n l s h => ⟨_, rfl, on_none n _ _ s h⟩

end Sys2Proof.Machine
end

section
/-!
SUPPORT. Skiver's jobs and completions, the sequence signals and the frames of a type-5 point, and
SkiverAndSequencePorts.
-/
set_option Elab.async false
namespace Sys2Proof.Machine

theorem skvSubmit_ok {p a : Nat} {s : State} (hst : s.skvStatus p a = .ok) (haligned : a % 16 = 0) :
    (skvSubmit p a s).app.veh.skv.jobs = s.app.veh.skv.jobs ++ [s.skvDesc p a] ∧
    (skvSubmit p a s).app.veh.skv.subst.get p = (s.num (a + 4) 2, .ok) := by
  simp [skvSubmit, hst, haligned]

theorem skvSubmit_refused {p a : Nat} {s : State} (hst : s.skvStatus p a ≠ .ok) :
    (skvSubmit p a s).app.veh.skv.jobs = s.app.veh.skv.jobs ∧
    ((skvSubmit p a s).app.veh.skv.subst.get p).2 = s.skvStatus p a := by
  simp [skvSubmit, hst]

/-- A completed job is one no more, and tells its context or joins the queue. -/
theorem skvRun_facts (j : SkvJob) (r : SkvResult) (s : State) :
    (j.notify = true → (s.app.ctx.get j.target).st ≠ .free →
      ((skvRun j r s).app.ctx.get j.target).pend.getLsbD 8 = true) ∧
    (skvRun j r s).app.veh.skv.jobs = s.app.veh.skv.jobs.erase j ∧
    (j.notify = false → s.app.veh.skv.cpl.length < 64 →
      ∃ st, (skvRun j r s).app.veh.skv.cpl = s.app.veh.skv.cpl ++ [(j.tag, st)]) := by
  obtain ⟨e, v, hrun, happ⟩ := run_facts2 j r s
  obtain ⟨hnotify, hjobs, hqueue⟩ := done_facts j e v
  rw [hrun]
  rw [happ] at hnotify hjobs hqueue
  exact ⟨hnotify, hjobs, fun hn hlen => ⟨e.status, hqueue hn hlen⟩⟩

theorem skiverComplete_job {g : BitVec 16} {r : SkvResult} {j : SkvJob} {s : State}
    (h : (s.app.veh.skv.jobs.take 4).find? (fun j => j.tag = g.toNat) = some j) :
    exec (.skiverComplete g r) s = .next (skvRun j r s) := by
  show (Host.Outcome.next _ : Res) = _
  rw [h]

theorem skiverComplete_none {g : BitVec 16} {r : SkvResult} {s : State}
    (h : (s.app.veh.skv.jobs.take 4).find? (fun j => j.tag = g.toNat) = none) :
    exec (.skiverComplete g r) s = .next s := by
  show (Host.Outcome.next _ : Res) = _
  rw [h]

theorem skvCplRead_cons {x : Nat × Status} {l : List (Nat × Status)} {s : State} (h : s.app.veh.skv.cpl = x :: l) :
    skvCplRead s = busOk (pack [(x.1, 16), (statusCode x.2, 0)]) (skvCpl l s) := by
  simp only [skvCplRead, h]

theorem skvCplRead_nil {s : State} (h : s.app.veh.skv.cpl = []) : skvCplRead s = busOk 0 s := by
  simp only [skvCplRead, h]

theorem skvCpl_cpl (l : List (Nat × Status)) (s : State) : (skvCpl l s).app.veh.skv.cpl = l := by
  simp [skvCpl]

/-- A sequence signal as the port shows it. -/
def seqShown (k : Nat) (prox level : Bool) (s : State) : State :=
  if prox then { s with power.seqProx := s.power.seqProx.set k level }
  else { s with power.seqPerm := s.power.seqPerm.set k level }

/-- What a change of a sequence signal does for the point of the port. -/
def seqHeard (k : Nat) (prox level : Bool) (p : Nat) (s : State) : State :=
  if !prox && !level then faultStop k p 1 (laneRaise (48 + p) s)
  else if !prox then withSession p (seqAdvance k p) (laneRaise (48 + p) s)
  else laneRaise (48 + p) s

theorem sequenceSignalChange_same {k : Fin 8} {q l : Bool} {s : State}
    (h : (if q then s.power.seqProx.get k else s.power.seqPerm.get k) = l) :
    exec (.sequenceSignalChange k q l) s = .next s :=
  congrArg Host.Outcome.next (if_pos h)

theorem sequenceSignalChange_heard {k : Fin 8} {q l : Bool} {s : State}
    (h : (if q then s.power.seqProx.get k else s.power.seqPerm.get k) ≠ l) :
    exec (.sequenceSignalChange k q l) s = .next (withPort k (seqHeard k q l) (seqShown k q l s)) :=
  congrArg Host.Outcome.next (if_neg h)

theorem pointOfPort_seqShown (k : Nat) (q l : Bool) (s : State) (j : Nat) :
    (seqShown k q l s).pointOfPort j = s.pointOfPort j := by
  cases q <;> rfl

/-- A frame of a port in use is taken by the point's session. -/
theorem vcanFrame_taken {k : Fin 8} {i : BitVec 11} {d : List Byte} {p j : Nat} {s : State}
    (hid : within 0x100 i.toNat 0x102 = true) (hup : s.vpUp k = true) (hpoint : s.pointOfPort k = some p)
    (hsession : s.session p = some j) :
    exec (.vcanFrame k i d) s = .next (vcanTake k p j (i.toNat - 0x100) d s) :=
  congrArg Host.Outcome.next ((if_neg (by simp [hid, hup])).trans
    ((port_go k p _ s hpoint).trans (withSession_some hsession)))

theorem vcanFrame_ignored {k : Fin 8} {i : BitVec 11} {d : List Byte} {s : State}
    (h : within 0x100 i.toNat 0x102 = false ∨ s.vpUp k = false ∨ s.pointOfPort k = none) :
    exec (.vcanFrame k i d) s = .next s := by
  refine congrArg Host.Outcome.next ?_
  split
  · rfl
  · next hheard =>
    simp only [Bool.or_eq_true, Bool.not_eq_true', not_or] at hheard
    obtain ⟨hid, hup⟩ := hheard
    exact port_none k _ s ((h.resolve_left hid).resolve_left hup)

/-- Settles O39: each command has one value with its conditions met; a completion is described by `skvRun_facts`, a
changed signal by `seqHeard`, a fault stop by `fault_phase`. -/
theorem skiverAndSequencePorts : Obligations.SkiverAndSequencePorts := by
  refine ⟨?_, ?_, ?_, ?_, ?_, ?_, ?_, ?_, ?_, ?_, ?_, ?_, ?_, ?_, ?_, ?_, ?_, ?_, ?_, ?_, ?_, ?_, ?_⟩
  · exact fun p a s ⟨hst, haligned⟩ => ⟨_, rfl, skvSubmit_ok hst haligned⟩
  · exact fun p a s hst => ⟨_, rfl, skvSubmit_refused hst⟩
  · rintro g r j s ⟨hjob, hnotify, hused⟩
    obtain ⟨hpend, hjobs, -⟩ := skvRun_facts j r s
    exact ⟨_, skiverComplete_job hjob, rfl, hpend hnotify hused, hjobs⟩
  · rintro g r j s ⟨hjob, hnotify, hlen⟩
    obtain ⟨-, hjobs, hqueue⟩ := skvRun_facts j r s
    exact ⟨_, skiverComplete_job hjob, rfl, hjobs, hqueue hnotify hlen⟩
  · exact fun g r s h => ⟨_, skiverComplete_none h, rfl⟩
  · intro x l s h
    refine ⟨_, congrArg Host.Outcome.next (skvCplRead_cons h), ?_, ?_⟩
    · simp only [busOk]
    · exact skvCpl_cpl l s
  · exact fun s h => ⟨_, rfl, skvCplRead_nil h⟩
  · intro a b k s h
    refine ⟨_, rfl, postClass_pend2 k 8 (by decide) _ ?_⟩
    cases b
    · simpa using h
    · exact h
  · intro a b s
    refine ⟨_, rfl, setLevel_lvl _ true _ ?_⟩
    cases a <;> rfl
  · exact fun k q l s h => ⟨_, sequenceSignalChange_same h, rfl⟩
  · rintro k q l s ⟨hchange, hpoint⟩
    exact ⟨_, sequenceSignalChange_heard hchange, port_none k _ _ ((pointOfPort_seqShown k q l s k).trans hpoint)⟩
  · rintro k l p s ⟨hchange, hpoint⟩
    exact ⟨_, sequenceSignalChange_heard (q := true) hchange,
      port_go k p _ _ ((pointOfPort_seqShown k true l s k).trans hpoint)⟩
  · rintro k p s ⟨hwas, hpoint⟩
    exact ⟨_, sequenceSignalChange_heard (q := false) (by simp [hwas]),
      port_go k p _ _ ((pointOfPort_seqShown k false false s k).trans hpoint)⟩
  · rintro k p s ⟨hwas, hpoint⟩
    exact ⟨_, sequenceSignalChange_heard (q := false) (by simp [hwas]),
      port_go k p _ _ ((pointOfPort_seqShown k false true s k).trans hpoint)⟩
  · rintro k i d p j s ⟨hid, hup, hpoint, hsession⟩
    exact ⟨_, vcanFrame_taken hid hup hpoint hsession, rfl⟩
  · rintro k d p j s ⟨hup, hpoint, hsession, hfits, hok, hphase, hcurrent⟩
    exact ⟨_, vcanFrame_taken (by decide) hup hpoint hsession, can_facts k p j d s hfits hok hphase hcurrent⟩
  · exact fun k i d s h => ⟨_, vcanFrame_ignored h, rfl⟩
  · rintro k p s ⟨hup, hpoint, hphase⟩
    exact ⟨_, rfl, (if_neg (by simp [hup])).trans ((port_go k p _ s hpoint).trans (if_pos hphase))⟩
  · intro k s h
    refine ⟨_, rfl, ?_⟩
    split
    · rfl
    · next hup => exact port_none k _ s (h.resolve_left (by simpa using hup))
  · rintro k p j s ⟨hpoint, hsession, hgot, hphase⟩
    have hpp : s.pointPhase p = s.phase j := by simp [State.pointPhase, hsession]
    have hend := end_phase p 8 j s hsession (by simp [within] at hphase ⊢; omega)
    have hmissing : ((s.vp k).got ≠ 7 && within 5 (s.pointPhase p) 6) = true := by
      rw [hpp, hphase, Bool.and_true]
      exact decide_eq_true hgot
    refine ⟨_, rfl, (port_go k p _ s hpoint).trans (if_pos hmissing), ?_⟩
    rw [port_go k p _ s hpoint, if_pos hmissing, hend, if_neg (by simp [within] at hphase; omega)]
  · intro k s h
    refine ⟨_, rfl, ?_⟩
    rcases h with hpoint | hgot
    · exact port_none k _ s hpoint
    · cases hpoint : s.pointOfPort k with
      | none => exact port_none k _ s hpoint
      | some p => exact (port_go k p _ s hpoint).trans (if_neg (by simp [hgot]))
  · rintro k p j s ⟨hpoint, hsession, hphase⟩
    exact ⟨_, congrArg Host.Outcome.next (port_go k p _ s hpoint), fault_phase k p 8 j s hsession hphase⟩
  · exact fun k s h => ⟨_, rfl, port_none k _ s h⟩

end Sys2Proof.Machine
end

section
/-!
SUPPORT. The rules of the metrology channels, of the shadow comparisons and of the pulse outputs, and
MetrologyChannels.
-/
set_option Elab.async false
namespace Sys2Proof.Machine

/-- A sealed die that does not run does nothing. -/
theorem die_off {f : State → State} {s : State} (h : s.die.running = false) : whenDie f s = s :=
  if_neg (by simp [h])

/-- What changes nothing while the die runs changes nothing. -/
theorem die_idle {f : State → State} {s : State} (h : f s = s) : whenDie f s = s := by
  unfold whenDie
  split
  · exact h
  · rfl

/-- A command of the running die is its operation. -/
theorem die_next {f : State → State} {s t : State} (hrun : s.die.running = true) (h : f s = t) :
    (Host.Outcome.next (whenDie f s) : Res) = .next t :=
  congrArg Host.Outcome.next ((die_on f s hrun).trans h)

theorem chan_upd_same (s : State) (c : Nat) (f : Chan → Chan) :
    (s.updChan c f).die.met.chan.get c = f (s.die.met.chan.get c) :=
  (chan_get s c c f).trans (if_pos rfl)

theorem chan_upd_other {c j : Nat} (s : State) (f : Chan → Chan) (h : j ≠ c) :
    (s.updChan c f).die.met.chan.get j = s.die.met.chan.get j :=
  (chan_get s c j f).trans (if_neg (Ne.symm h))

theorem pls_upd_same (s : State) (k : Nat) (f : Pulse → Pulse) :
    (s.updPls k f).die.met.pls.get k = f (s.die.met.pls.get k) :=
  (pls_get s k k f).trans (if_pos rfl)

/-- What an overload does to its channel, by whether the gain drops; other channels keep theirs. -/
theorem adcOverload_chan (c : Nat) (v : BitVec 12) (l : List (BitVec 12)) (s : State) :
    (adcOverload c v l s).die.met.chan.get c =
      { s.die.met.chan.get c with
        gain := if s.rangeMode c = 0 && decide (1 < (s.die.met.chan.get c).gain)
          then dropGain (s.die.met.chan.get c).gain ((s.die.met.chan.get c).sarFitted v).natAbs
          else (s.die.met.chan.get c).gain
        drops := if s.rangeMode c = 0 && decide (1 < (s.die.met.chan.get c).gain)
          then stick 0xFFFFFFFF (s.die.met.chan.get c).drops 1 else (s.die.met.chan.get c).drops
        replaced := stick 0xFFFFFFFF (s.die.met.chan.get c).replaced
          (if s.rangeMode c = 0 && decide (1 < (s.die.met.chan.get c).gain) then l.take 3 else l).length
        overs := stick 0xFFFFFFFF (s.die.met.chan.get c).overs (if s.rangeMode c = 2 then 0 else
          ((if s.rangeMode c = 0 && decide (1 < (s.die.met.chan.get c).gain) then l.take 3 else l).filter
            sarClipped).length)
        low := 0, loud := true } ∧
    ∀ j, j ≠ c → (adcOverload c v l s).die.met.chan.get j = s.die.met.chan.get j := by
  rw [overload_chan]
  exact ⟨chan_upd_same s c _, fun j hj => chan_upd_other s _ hj⟩

/-- A comparison that a shadow is due, on a channel it may judge. -/
structure Judged (k c : Nat) (s : State) : Prop where
  due : s.checker c = some k
  used : s.snum (0x5100 + c) 1 ≠ 0
  low : s.highMember c = false
  working : (s.die.met.chan.get c).check ≠ 3

theorem Judged.first {k c : Nat} {p : Bool} {s : State} (h : Judged k c s)
    (hfirst : (s.die.met.chan.get c).suspectBy = none) :
    shadowCheck k c p s = if p then shadowAgree k (s.updChan c fun x => { x with check := 1 })
      else s.updChan c fun x => { x with check := 2, suspectBy := some k } := by
  rw [check_on k c p s h.due h.used h.low h.working, hfirst]

theorem Judged.again {k c j : Nat} {p : Bool} {s : State} (h : Judged k c s)
    (hsuspect : (s.die.met.chan.get c).suspectBy = some j) :
    shadowCheck k c p s =
      if p then shadowDisagree j (s.updChan c fun x => { x with check := 1, suspectBy := none })
      else shadowAgree j (chanFail c s) := by
  rw [check_on k c p s h.due h.used h.low h.working, hsuspect]

theorem shadowCheck_barred {k c : Nat} {p : Bool} {s : State}
    (h : s.checker c ≠ some k ∨ s.snum (0x5100 + c) 1 = 0 ∨ s.highMember c = true ∨
      (s.die.met.chan.get c).check = 3) : shadowCheck k c p s = s := by
  refine if_pos ?_
  rcases h with h | h | h | h <;> simp [h]

theorem metrologyAnswer_same (r : Role) (a p u : Nat) (s : State) : metrologyAnswer r a p u s =
    (if s.mayMeter r then s.metrology a p u else readHead .denied a p u, s) := by
  unfold metrologyAnswer
  split <;> rfl

/-- Settles O40: while the die runs each command is its operation on one channel or one pulse output; a comparison
of a channel that may be judged is `Judged.first` or `Judged.again`. -/
theorem metrologyChannels : Obligations.MetrologyChannels := by
  refine ⟨?_, ?_, ?_, ?_, ?_, ?_, ?_, ?_, ?_, ?_, ?_, ?_, ?_, ?_, ?_, ?_, ?_, ?_, ?_, ?_, ?_, ?_, ?_, ?_, ?_, ?_, ?_⟩
  · rintro c v a l s ⟨hrun, hmode, hgain⟩
    refine ⟨_, die_next hrun rfl, ?_⟩
    obtain ⟨hchan, hother⟩ := adcOverload_chan c v (a :: l) s
    have hdrop : (s.rangeMode c = 0 && decide (1 < (s.die.met.chan.get c).gain)) = true := by simp [hmode, hgain]
    have hmode' : s.rangeMode c ≠ 2 := by rw [hmode]; decide
    rw [hchan, hdrop, if_neg hmode']
    exact ⟨rfl, rfl, rfl, rfl, hother⟩
  · rintro c v a l s ⟨hrun, hkeep⟩
    refine ⟨_, die_next hrun rfl, ?_⟩
    obtain ⟨hchan, hother⟩ := adcOverload_chan c v (a :: l) s
    have hdrop : (s.rangeMode c = 0 && decide (1 < (s.die.met.chan.get c).gain)) = false := by simpa using hkeep
    rw [hchan, hdrop]
    exact ⟨rfl, rfl, rfl, rfl, hother⟩
  · rintro c s ⟨hrun, hmode, hlow⟩
    refine ⟨_, die_next hrun (if_pos (by simp [hmode, hlow])), ?_⟩
    rw [chan_upd_same]
    exact ⟨rfl, rfl, fun j hj => chan_upd_other s _ hj⟩
  · intro c s h
    refine ⟨_, rfl, die_idle (if_neg ?_)⟩
    rcases h with h | h
    · simp [h]
    · simp [Nat.not_le.mpr h]
  · intro b s hrun
    refine ⟨_, die_next hrun rfl, ?_⟩
    by_cases hfailed : (s.die.met.chan.get (80 + b)).check = 3
    · rw [if_pos hfailed, chan_upd_same]
      exact ⟨hfailed, rfl⟩
    · rw [if_neg hfailed, (fail_check _ _).1, (fail_check _ _).2, chan_upd_same]
      exact ⟨rfl, rfl⟩
  · rintro c re im s ⟨hrun, hused⟩
    refine ⟨_, die_next hrun (if_neg hused), ?_, ?_, ?_, fun j hj => chan_upd_other s _ hj⟩
    · exact congrArg Chan.gMtk (chan_upd_same s c _)
    · exact congrArg Chan.hBand (chan_upd_same s c _)
    · exact congrArg Chan.g (chan_upd_same s c _)
  · exact fun c re im s h => ⟨_, rfl, die_idle (if_pos h)⟩
  · exact fun v s hrun => ⟨_, die_next hrun rfl, rfl⟩
  · rintro k c a b d s ⟨hrun, hdue, hused, hlow, hworking, hfirst, hfail⟩
    have hjudged : Judged k c s := ⟨hdue, hused, hlow, hworking⟩
    refine ⟨_, die_next hrun (hjudged.first hfirst), ?_⟩
    rw [if_neg (by rw [hfail]; decide), chan_upd_same]
    exact ⟨rfl, rfl, fun j hj => chan_upd_other s _ hj⟩
  · rintro k c a b d s ⟨hrun, hdue, hused, hlow, hworking, hfirst, hpass⟩
    have hjudged : Judged k c s := ⟨hdue, hused, hlow, hworking⟩
    refine ⟨_, die_next hrun ((hjudged.first hfirst).trans (if_pos hpass)), ?_, ?_, fun j hj => chan_upd_other s _ hj⟩
    · exact congrArg Chan.check (chan_upd_same s c _)
    · exact Bank.get_set_same _ _ _
  · rintro k c a b d j s ⟨hrun, hdue, hused, hlow, hworking, hsuspect, hfail⟩
    have hjudged : Judged k c s := ⟨hdue, hused, hlow, hworking⟩
    refine ⟨_, die_next hrun ((hjudged.again hsuspect).trans (if_neg (by rw [hfail]; decide))), ?_, ?_⟩
    · obtain ⟨hcheck, -⟩ := fail_check c s
      exact hcheck
    · exact Bank.get_set_same _ _ _
  · rintro k c a b d j s ⟨hrun, hdue, hused, hlow, hworking, hsuspect, hpass⟩
    have hjudged : Judged k c s := ⟨hdue, hused, hlow, hworking⟩
    refine ⟨_, die_next hrun ((hjudged.again hsuspect).trans (if_pos hpass)), ?_⟩
    obtain ⟨hchan, hcount, hretired⟩ :=
      disagree_facts j c (s.updChan c fun x => { x with check := 1, suspectBy := none })
    rw [hchan, chan_upd_same]
    exact ⟨rfl, rfl, hcount, hretired, fun j hj => chan_upd_other s _ hj⟩
  · exact fun k c a b d s h => ⟨_, rfl, die_idle (shadowCheck_barred h)⟩
  · rintro k s ⟨hrun, howed, hlow⟩
    refine ⟨_, die_next hrun (if_neg (by simp [howed])), ?_⟩
    rw [pls_upd_same, hlow]
    rfl
  · rintro k s ⟨hrun, howed, hhigh⟩
    refine ⟨_, die_next hrun (if_neg (by simp [howed])), ?_⟩
    rw [pls_upd_same, if_pos hhigh]
  · exact fun k s h => ⟨_, rfl, die_idle (if_pos (by simp [h]))⟩
  · intro k s hrun
    refine ⟨_, die_next hrun rfl, ?_⟩
    rw [pulseEnd, pls_upd_same]
    cases (s.die.met.pls.get k).high <;> rfl
  · intro q a p u s hrun
    refine ⟨_, die_next hrun rfl, ?_⟩
    rw [metrologyAnswer_same]
  · exact fun c v a l s h => ⟨_, rfl, die_off h⟩
  · exact fun c s h => ⟨_, rfl, die_off h⟩
  · exact fun b s h => ⟨_, rfl, die_off h⟩
  · exact fun c re im s h => ⟨_, rfl, die_off h⟩
  · exact fun v s h => ⟨_, rfl, die_off h⟩
  · exact fun k c a b d s h => ⟨_, rfl, die_off h⟩
  · exact fun k s h => ⟨_, rfl, die_off h⟩
  · exact fun k s h => ⟨_, rfl, die_off h⟩
  · exact fun q a p u s h => ⟨_, rfl, die_off h⟩

end Sys2Proof.Machine
end

section
/-!
SUPPORT. How a cycle is routed when it ends, enters or leaves block mode or is a slice, and what the seal procedure
does; MetrologyCyclesAndSeal.
-/
set_option Elab.async false
namespace Sys2Proof.Machine

theorem elem_upd_same (s : State) (e : Nat) (f : Elem → Elem) :
    (s.updElem e f).die.met.elem.get e = f (s.die.met.elem.get e) :=
  (elem_get s e e f).trans (if_pos rfl)

/-- A cycle is kept with its time, and its energies are added where the element routes them. -/
def Routed (e : Nat) (r : CycleRaw) (s t : State) : Prop :=
  t.die.cur.reg = (if s.creeps e (s.cycleOf e r) || s.quiesced e then s.die.cur.reg
    else addCycle (6 * e) (s.cycleOf e r) s.die.cur.reg) ∧
  (t.die.met.elem.get e).last = some (s.cycleOf e r, s.die.legal.mtk) ∧
  (t.die.met.elem.get e).test = (if s.quiesced e && !s.creeps e (s.cycleOf e r)
    then addCycle 0 (s.cycleOf e r) (s.die.met.elem.get e).test else (s.die.met.elem.get e).test)

theorem closeCycle_routed {e : Nat} {r : CycleRaw} {s : State} (b h : Bool) (hon : s.elemOn e = true)
    (href : s.die.met.refFail = false) :
    Routed e r s (closeCycle e r b h s) ∧ (closeCycle e r b h s).die.pf = s.die.pf := by
  obtain ⟨hreg, hlast, -, htest, -, hpf⟩ := close_facts2 e r b h s hon href
  exact ⟨⟨hreg, hlast, htest⟩, hpf⟩

/-- A change of block mode of the element leaves what was routed. -/
theorem Routed.setBlock {e : Nat} {r : CycleRaw} {s t : State} (h : Routed e r s t) (b : Bool) :
    Routed e r s (t.updElem e fun x => { x with block := b }) := by
  obtain ⟨hreg, hlast, htest⟩ := h
  exact ⟨hreg, (congrArg Elem.last (elem_upd_same t e _)).trans hlast,
    (congrArg Elem.test (elem_upd_same t e _)).trans htest⟩

theorem setBlock_block (e : Nat) (b : Bool) (s : State) :
    ((s.updElem e fun x => { x with block := b }).die.met.elem.get e).block = b :=
  congrArg Elem.block (elem_upd_same s e _)

theorem cycleEnd_due {e : Nat} {r : CycleRaw} {s : State} (hwarn : s.warned = false) (hok : s.cycleOk e r = true) :
    cycleEnd e r s = closeCycle e r false false { s with die.pf := .none } :=
  if_neg (by simp [hwarn, hok])

theorem blockEntry_due {e : Nat} {r : CycleRaw} {s : State} (hac : s.snum (0x5000 + e) 1 = 1)
    (hblock : (s.die.met.elem.get e).block = false) (hwarn : s.warned = false) (hlen : 400 ≤ r.x.length) :
    blockEntry e r s = (closeCycle e r true false s).updElem e fun x => { x with block := true } :=
  if_neg (by simp [hac, hblock, hwarn, hlen])

theorem elemOn_of_ac {e : Nat} {s : State} (h : s.snum (0x5000 + e) 1 = 1) : s.elemOn e = true := by
  simp [State.elemOn, h]

theorem blockEntry_barred {e : Nat} {r : CycleRaw} {s : State}
    (h : ¬ (s.snum (0x5000 + e) 1 = 1 ∧ (s.die.met.elem.get e).block = false ∧ s.warned = false ∧
      400 ≤ r.x.length)) : blockEntry e r s = s := by
  refine if_pos (Decidable.byContradiction fun hdue => ?_)
  simp only [Bool.or_eq_true, decide_eq_true_eq, not_or, ne_eq, Decidable.not_not, Nat.not_lt, Bool.not_eq_true] at hdue
  obtain ⟨⟨⟨hac, hblock⟩, hwarn⟩, hlen⟩ := hdue
  exact h ⟨hac, hblock, hwarn, hlen⟩

theorem blockReturn_due {e : Nat} {r : CycleRaw} {l : List CycleRaw} {s : State}
    (hblock : (s.die.met.elem.get e).block = true) (hwarn : s.warned = false) (hlen : l.length = 10)
    (hall : l.all (s.qualifies e) = true) :
    blockReturn e r l s = (closeCycle e r true false s).updElem e fun x => { x with block := false } := by
  refine if_neg ?_
  rw [hall]
  simp [hblock, hwarn, hlen]

theorem blockReturn_barred {e : Nat} {r : CycleRaw} {l : List CycleRaw} {s : State}
    (h : ¬ ((s.die.met.elem.get e).block = true ∧ s.warned = false ∧ l.length = 10 ∧
      l.all (s.qualifies e) = true)) : blockReturn e r l s = s := by
  refine if_pos (Decidable.byContradiction fun hdue => ?_)
  simp only [Bool.or_eq_true, Bool.not_eq_true', decide_eq_true_eq, not_or, ne_eq, Decidable.not_not, Bool.not_eq_true,
    Bool.not_eq_false] at hdue
  obtain ⟨⟨⟨hblock, hwarn⟩, hlen⟩, hall⟩ := hdue
  exact h ⟨hblock, hwarn, hlen, hall⟩

/-- A slice after a power-fail warning commits and starts the residue anew. -/
theorem sliceEnd_commits {e : Nat} {r : CycleRaw} {s : State} (h : s.die.pf ≠ .none) :
    (sliceEnd e r s).die.cur.reg = (closeCycle e r false true s).die.cur.reg ∧
    (sliceEnd e r s).die.saved = (sliceEnd e r s).die.cur ∧ (sliceEnd e r s).die.pfSaved = true ∧
    (sliceEnd e r s).die.pf = (if s.die.pf = .warned then .landed else s.die.pf) ∧
    ((sliceEnd e r s).die.met.elem.get e).residue = 0 := by
  unfold sliceEnd
  rw [if_neg h]
  exact ⟨rfl, rfl, rfl, rfl, congrArg Elem.residue (elem_upd_same _ e _)⟩

/-- A request that only the Verifier may make. -/
theorem asVerifier {s : State} {r : Role} {x : Status × State} (hmay : s.dieRole r = true) (hrole : r = .verifier) :
    (if !s.dieRole r || r ≠ .verifier then (.denied, s) else x) = x :=
  if_neg (by rw [ver_hv s r ⟨hmay, hrole⟩]; decide)

theorem asOther {s : State} {r : Role} {x : Status × State} (h : s.dieRole r = false ∨ r ≠ .verifier) :
    (if !s.dieRole r || r ≠ .verifier then (.denied, s) else x) = (.denied, s) :=
  if_pos (denied_hv s r h)

/-- An answer leaves the metrology, the objects and the ledger that it is given. -/
theorem writeReply_kept (k : Word) (i j n : Nat) (r : Status × State) :
    (writeReply k i j n r).die.met = r.2.die.met ∧ (writeReply k i j n r).die.obj = r.2.die.obj ∧
    (writeReply k i j n r).die.cur = r.2.die.cur := by
  refine ⟨?_, ?_, ?_⟩ <;> simp only [writeReply_same]

theorem sealOpen_ok {z : BitVec 144} {s : State} (hnone : s.die.met.sealSel = none)
    (hfree : (((List.range 128).filter (s.elemSelected z)).any fun e =>
      ((s.elemPoint e).bind s.openRec).isSome) = false) :
    (sealOpen z s).2.die.met.sealSel = some z ∧ (sealOpen z s).2.die.met.staged = [] ∧
    ∀ e, e < 128 → s.elemSelected z e = true → ((sealOpen z s).2.die.met.elem.get e).test = ⟨0, []⟩ := by
  unfold sealOpen
  rw [if_neg (by simp [hnone])]
  dsimp only
  rw [hfree, if_neg (by decide)]
  refine ⟨rfl, rfl, fun e he hsel => (open_tests z _ s e).trans (if_pos ?_)⟩
  exact List.mem_filter.mpr ⟨List.mem_range.mpr he, hsel⟩

theorem sealOpen_barred {z : BitVec 144} {s : State}
    (h : s.die.met.sealSel.isSome = true ∨ (((List.range 128).filter (s.elemSelected z)).any fun e =>
      ((s.elemPoint e).bind s.openRec).isSome) = true) : sealOpen z s = (.state, s) := by
  unfold sealOpen
  split
  · rfl
  · next hnone => exact if_pos (h.resolve_left hnone)

/-- The write that a staged legal parameter waits as. -/
def stagedWrite (i j : Nat) (d : List Byte) (s : State) : ParamWrite := ⟨i, j, 8 * s.die.met.coefOff, d⟩

/-- A legal parameter's value is not one it may have. -/
def paramBad (i j : Nat) (d : List Byte) (s : State) : Bool :=
  !((objAt (s.elemDc i) i j).map (·.valOk d)).getD false ||
  (i = 0x5310 && decide (17280 < 8 * s.die.met.coefOff + d.length)) ||
  (i = 0x5310 && !coefOk (applyParam (stagedWrite i j d s) s.staged))

/-- A parameter write under an open procedure, by the Verifier. -/
theorem paramWrite_open {i j : Nat} {d : List Byte} {z : BitVec 144} {s : State}
    (hopen : s.die.met.sealSel = some z) :
    paramWrite .verifier i j d s = if paramBad i j d s then (.range, s)
      else if !s.inSelection z (stagedWrite i j d s) then (.state, s)
      else (.ok, { s with die.met.staged := s.die.met.staged ++ [stagedWrite i j d s] }) := by
  unfold paramWrite
  rw [hopen]
  exact if_neg (fun hne => hne rfl)

theorem paramBad_plain {i j : Nat} {d : List Byte} {s : State} (hi : i ≠ 0x5310)
    (hval : ((objAt (s.elemDc i) i j).map (·.valOk d)).getD false = true) : paramBad i j d s = false := by
  simp [paramBad, hi, hval]

theorem paramBad_coef {j : Nat} {d : List Byte} {s : State}
    (hval : ((objAt (s.elemDc 0x5310) 0x5310 j).map (·.valOk d)).getD false = true)
    (hlen : 8 * s.die.met.coefOff + d.length ≤ 17280)
    (hcoef : coefOk (applyParam (stagedWrite 0x5310 j d s) s.staged) = true) :
    paramBad 0x5310 j d s = false := by
  simp [paramBad, hval, hcoef, hlen]

theorem paramBad_of {i j : Nat} {d : List Byte} {s : State}
    (h : ((objAt (s.elemDc i) i j).map (·.valOk d)).getD false = false ∨ (i = 0x5310 ∧
      (17280 < 8 * s.die.met.coefOff + d.length ∨ coefOk (applyParam (stagedWrite i j d s) s.staged) = false))) :
    paramBad i j d s = true := by
  unfold paramBad
  rcases h with hval | ⟨hi, hlen | hcoef⟩
  · rw [hval]; rfl
  · simp [hi, hlen]
  · rw [hcoef]; simp [hi]

theorem paramWrite_staged {i j : Nat} {d : List Byte} {z : BitVec 144} {s : State}
    (hopen : s.die.met.sealSel = some z) (hrange : paramBad i j d s = false)
    (hsel : s.inSelection z (stagedWrite i j d s) = true) :
    (paramWrite .verifier i j d s).2 = { s with die.met.staged := s.die.met.staged ++ [stagedWrite i j d s] } := by
  rw [paramWrite_open hopen, if_neg (by simp [hrange]), if_neg (by simp [hsel])]

theorem paramWrite_sealed {r : Role} {i j : Nat} {d : List Byte} {s : State}
    (h : s.die.met.sealSel = none ∨ r ≠ .verifier) : paramWrite r i j d s = (.sealed, s) := by
  unfold paramWrite
  split
  · rfl
  · next hopen => exact if_pos (h.resolve_left (by rw [hopen]; simp))

/-- A parameter request of a role that may write, to a legal parameter. -/
theorem sealParameterWrite_legal {q : Rq} {i : BitVec 16} {j : BitVec 8} {d : List Byte} {s : State}
    (hrun : s.die.running = true) (hmay : s.dieRole q.role = true) (hlegal : isLegalParam i.toNat j.toNat = true) :
    exec (.sealParameterWrite q i j d) s =
      .next (writeReply q.tag i.toNat j.toNat d.length (paramWrite q.role i.toNat j.toNat d s)) :=
  die_next hrun (congrArg (writeReply q.tag i.toNat j.toNat d.length)
    ((if_neg (by simp [hmay])).trans (if_pos hlegal)))

theorem sealCommit_none {w : BitVec 144} {s : State} (h : s.die.met.sealSel = none) :
    sealCommit w s = (.state, s) := by
  simp only [sealCommit, h]

theorem sealCommit_range {w z : BitVec 144} {s : State} (h : s.die.met.sealSel = some z)
    (hbad : s.staged.paramsOk = false) : sealCommit w s = (.range, s) := by
  simp only [sealCommit, h, hbad, Bool.not_false, ↓reduceIte]

theorem logAdd_obj (k : Nat) (d : List Byte) (s : State) : (logAdd k d s).die.obj = s.die.obj := by
  unfold logAdd
  split <;> rfl

/-- An abandoned procedure is closed with nothing staged, and the parameters stay. -/
theorem sealAbandon_open {z : BitVec 144} {s : State} (h : s.die.met.sealSel = some z) :
    (sealAbandon s).die.met.sealSel = none ∧ (sealAbandon s).die.met.staged = [] ∧
    (sealAbandon s).die.obj = s.die.obj := by
  simp only [sealAbandon, h, (logAdd_met _ _ _).1, logAdd_obj]
  trivial

theorem sealAbandon_none {s : State} (h : s.die.met.sealSel = none) : sealAbandon s = s := by
  simp only [sealAbandon, h]

theorem sealClose_open {z : BitVec 144} {s : State} (h : s.die.met.sealSel = some z) :
    sealClose s = (.ok, sealAbandon s) :=
  if_neg (by simp [h])

theorem sealClose_none {s : State} (h : s.die.met.sealSel = none) : sealClose s = (.state, s) :=
  if_pos (by simp [h])

/-- Settles O41: every cycle that ends is routed by `closeCycle_routed`; the seal procedure is one operation per
request, for the Verifier (`asVerifier`) and for others (`asOther`). -/
theorem metrologyCyclesAndSeal : Obligations.MetrologyCyclesAndSeal := by
  refine ⟨?_, ?_, ?_, ?_, ?_, ?_, ?_, ?_, ?_, ?_, ?_, ?_, ?_, ?_, ?_, ?_, ?_, ?_, ?_, ?_, ?_, ?_, ?_, ?_, ?_, ?_, ?_,
    ?_, ?_, ?_, ?_, ?_, ?_, ?_, ?_, ?_, ?_, ?_, ?_, ?_, ?_, ?_, ?_, ?_, ?_⟩
  · rintro e r s ⟨hrun, hon, href, hwarn, hok⟩
    obtain ⟨⟨hreg, hlast, htest⟩, hpf⟩ :=
      closeCycle_routed (e := e) (r := r) (s := { s with die.pf := .none }) false false hon href
    exact ⟨_, die_next hrun (cycleEnd_due hwarn hok), hreg, hlast, htest, hpf⟩
  · rintro e r s ⟨hrun, hoff, hwarn, hok⟩
    exact ⟨_, die_next hrun (cycleEnd_due hwarn hok), close_off e r false false { s with die.pf := .none } hoff⟩
  · intro e r s h
    refine ⟨_, rfl, die_idle (if_pos ?_)⟩
    rcases h with h | h <;> simp [h]
  · rintro e r s ⟨hrun, hac, hblock, hwarn, hlen, href⟩
    obtain ⟨hrouted, -⟩ := closeCycle_routed (r := r) true false (elemOn_of_ac hac) href
    obtain ⟨hreg, hlast, htest⟩ := hrouted.setBlock true
    exact ⟨_, die_next hrun (blockEntry_due hac hblock hwarn hlen), hreg, hlast, htest, setBlock_block _ _ _⟩
  · rintro e r s ⟨hrun, hac, hblock, hwarn, hlen, href⟩
    refine ⟨_, die_next hrun (blockEntry_due hac hblock hwarn hlen), ?_⟩
    rw [close_off e r true false s (.inr href)]
  · exact fun e r s h => ⟨_, rfl, die_idle (blockEntry_barred h)⟩
  · rintro e r l s ⟨hrun, hblock, hwarn, hlen, hall, hon, href⟩
    obtain ⟨hrouted, -⟩ := closeCycle_routed (r := r) true false hon href
    obtain ⟨hreg, hlast, htest⟩ := hrouted.setBlock false
    exact ⟨_, die_next hrun (blockReturn_due hblock hwarn hlen hall), hreg, hlast, htest, setBlock_block _ _ _⟩
  · rintro e r l s ⟨hrun, hblock, hwarn, hlen, hall, hoff⟩
    refine ⟨_, die_next hrun (blockReturn_due hblock hwarn hlen hall), ?_⟩
    rw [close_off e r true false s hoff]
  · exact fun e r l s h => ⟨_, rfl, die_idle (blockReturn_barred h)⟩
  · rintro e r s ⟨hrun, hon, href, hpf⟩
    obtain ⟨⟨hreg, -, -⟩, -⟩ := closeCycle_routed (r := r) false true hon href
    obtain ⟨hcur, hsaved, hpfSaved, hpf', hresidue⟩ := sliceEnd_commits (e := e) (r := r) hpf
    exact ⟨_, die_next hrun rfl, hcur.trans hreg, hsaved, hpfSaved, hpf', hresidue⟩
  · rintro e r s ⟨hrun, hoff, hpf⟩
    obtain ⟨hcur, hsaved, hpfSaved, hpf', hresidue⟩ := sliceEnd_commits (e := e) (r := r) hpf
    rw [close_off e r false true s hoff] at hcur
    exact ⟨_, die_next hrun rfl, hcur, hsaved, hpfSaved, hpf', hresidue⟩
  · exact fun e r s h => ⟨_, rfl, die_idle (if_pos h)⟩
  · rintro e r s ⟨hrun, hpf⟩
    refine ⟨_, die_next hrun (if_pos ?_), rfl⟩
    rcases hpf with h | h <;> simp [h]
  · rintro e r s ⟨hlanded, hreleased⟩
    exact ⟨_, rfl, die_idle (if_neg (by simp [hlanded, hreleased]))⟩
  · rintro s ⟨hrun, hwarn⟩
    exact ⟨_, die_next hrun (if_neg (by simp [hwarn])), rfl⟩
  · exact fun s h => ⟨_, rfl, die_idle (if_pos h)⟩
  · rintro q z s ⟨hrun, hmay, hrole, hnone, hfree⟩
    refine ⟨_, die_next hrun (congrArg _ (asVerifier hmay hrole)), ?_⟩
    obtain ⟨hmet, -, -⟩ := writeReply_kept q.tag 0x53F0 2 18 (sealOpen z s)
    rw [hmet]
    exact sealOpen_ok hnone hfree
  · rintro q z s ⟨hrun, hmay, hrole, hbar⟩
    exact ⟨_, die_next hrun (congrArg _ ((asVerifier hmay hrole).trans (sealOpen_barred hbar))), rfl⟩
  · rintro q z s ⟨hrun, hother⟩
    exact ⟨_, die_next hrun (congrArg _ (asOther hother)), rfl⟩
  · rintro q i j d z s ⟨hrun, hmay, hrole, hopen, hlegal, hi, hval, hsel⟩
    refine ⟨_, sealParameterWrite_legal hrun hmay hlegal, ?_⟩
    have hi' : i.toNat ≠ 0x5310 := fun he => hi (BitVec.eq_of_toNat_eq he)
    obtain ⟨hmet, hobj, -⟩ := writeReply_kept q.tag i.toNat j.toNat d.length (paramWrite q.role i.toNat j.toNat d s)
    rw [hmet, hobj, hrole, paramWrite_staged hopen (paramBad_plain hi' hval) hsel]
    exact ⟨rfl, rfl⟩
  · rintro q i j d z s ⟨hrun, hmay, hrole, hopen, hlegal, rfl, hval, hlen, hcoef, hsel⟩
    refine ⟨_, sealParameterWrite_legal hrun hmay hlegal, ?_⟩
    have hstaged := paramWrite_staged hopen (paramBad_coef hval hlen hcoef) hsel
    obtain ⟨hmet, hobj, -⟩ := writeReply_kept q.tag 0x5310 j.toNat d.length (paramWrite .verifier 0x5310 j.toNat d s)
    rw [hstaged] at hmet hobj
    rw [hrole]
    exact ⟨congrArg Metro.staged hmet, hobj⟩
  · rintro q i j d z s ⟨hrun, hmay, hrole, hopen, hlegal, hbad⟩
    have hbad' : paramBad i.toNat j.toNat d s = true :=
      paramBad_of (hbad.imp_right (And.imp_left fun he => congrArg BitVec.toNat he))
    refine ⟨_, sealParameterWrite_legal hrun hmay hlegal, ?_⟩
    rw [hrole, paramWrite_open hopen, if_pos hbad']
  · rintro q i j d z s ⟨hrun, hmay, hrole, hopen, hlegal, hi, hval, hsel⟩
    have hi' : i.toNat ≠ 0x5310 := fun he => hi (BitVec.eq_of_toNat_eq he)
    refine ⟨_, sealParameterWrite_legal hrun hmay hlegal, ?_⟩
    rw [hrole, paramWrite_open hopen, if_neg (by simp [paramBad_plain hi' hval]),
      if_pos (by rw [stagedWrite, hsel]; rfl)]
  · rintro q i j d s ⟨hrun, hmay, hlegal, hsealed⟩
    refine ⟨_, sealParameterWrite_legal hrun hmay hlegal, ?_⟩
    rw [paramWrite_sealed hsealed]
  · rintro q i j d s ⟨hrun, hbar⟩
    refine ⟨_, die_next hrun rfl, congrArg (writeReply q.tag i.toNat j.toNat d.length) ?_⟩
    cases hmay : s.dieRole q.role
    · rfl
    · have hother : isLegalParam i.toNat j.toNat = false := hbar.resolve_left (by simp [hmay])
      rw [hother]
      rfl
  · rintro q w z s ⟨hrun, hmay, hrole, hopen, hok⟩
    refine ⟨_, die_next hrun (congrArg _ (asVerifier hmay hrole)), ?_⟩
    obtain ⟨hmet, -, hcur⟩ := writeReply_kept q.tag 0x53F0 3 1 (sealCommit w s)
    rw [hmet, hcur]
    exact commit_facts2 w z s hopen hok
  · rintro q w z s ⟨hrun, hmay, hrole, hopen, hbad⟩
    exact ⟨_, die_next hrun (congrArg _ ((asVerifier hmay hrole).trans (sealCommit_range hopen hbad))), rfl⟩
  · rintro q w s ⟨hrun, hmay, hrole, hnone⟩
    exact ⟨_, die_next hrun (congrArg _ ((asVerifier hmay hrole).trans (sealCommit_none hnone))), rfl⟩
  · rintro q w s ⟨hrun, hother⟩
    exact ⟨_, die_next hrun (congrArg _ (asOther hother)), rfl⟩
  · rintro q z s ⟨hrun, hmay, hrole, hopen⟩
    refine ⟨_, die_next hrun (congrArg _ ((asVerifier hmay hrole).trans (sealClose_open hopen))), ?_⟩
    obtain ⟨hmet, hobj, -⟩ := writeReply_kept q.tag 0x53F0 3 1 (.ok, sealAbandon s)
    rw [hmet, hobj]
    exact sealAbandon_open hopen
  · rintro q s ⟨hrun, hmay, hrole, hnone⟩
    exact ⟨_, die_next hrun (congrArg _ ((asVerifier hmay hrole).trans (sealClose_none hnone))), rfl⟩
  · rintro q s ⟨hrun, hother⟩
    exact ⟨_, die_next hrun (congrArg _ (asOther hother)), rfl⟩
  · rintro z s ⟨hrun, hopen⟩
    exact ⟨_, die_next hrun rfl, sealAbandon_open hopen⟩
  · exact fun s h => ⟨_, rfl, die_idle (sealAbandon_none h)⟩
  · exact fun e r s h => ⟨_, rfl, die_off h⟩
  · exact fun e r s h => ⟨_, rfl, die_off h⟩
  · exact fun e r l s h => ⟨_, rfl, die_off h⟩
  · exact fun e r s h => ⟨_, rfl, die_off h⟩
  · exact fun e r s h => ⟨_, rfl, die_off h⟩
  · exact fun s h => ⟨_, rfl, die_off h⟩
  · exact fun q z s h => ⟨_, rfl, die_off h⟩
  · exact fun q i j d s h => ⟨_, rfl, die_off h⟩
  · exact fun q w s h => ⟨_, rfl, die_off h⟩
  · exact fun q s h => ⟨_, rfl, die_off h⟩
  · exact fun s h => ⟨_, rfl, die_off h⟩

end Sys2Proof.Machine
end

section
/-!
SUPPORT. Opening, closing, signing, collecting and reading of records, and the notices of a session;
BillingRecordsAndNotices.
-/
set_option Elab.async false
namespace Sys2Proof.Machine

/-- A changed record is found under its serial. -/
theorem bill_updRec {s : State} {k : Nat} {r : Rec} {g : Rec → Rec} (h : s.bill k = some r)
    (hg : ∀ x, (g x).serial = x.serial) : (s.updRec k g).bill k = some (g r) := by
  rw [bill_upd s k g fun x hx => (hg x).trans hx, h, Option.map_some]

/-- The same, for a change that names the record by the serial it carries. -/
theorem bill_updRec_serial {s : State} {k : Nat} {r : Rec} {g : Rec → Rec} (h : s.bill k = some r)
    (hg : ∀ x, (g x).serial = x.serial) : (s.updRec r.serial g).bill k = some (g r) := by
  rw [bill_serial s k r h]
  exact bill_updRec h hg

theorem recTime_serial (r : Rec) (a b : Nat) : (r.time a b).serial = r.serial := by
  unfold Rec.time
  split <;> rfl

theorem recOpen_refused {p a m k : Nat} {d : List Byte} {s : State} (h : (s.refusals p).head? = some k) :
    recOpen p a m d s = (causeStatus k, k, none, s) := by
  simp only [recOpen, h]

theorem recOpen_full {p a m : Nat} {d : List Byte} {s : State} (h : s.refusals p = [])
    (hfull : 2 ^ 64 - 1 ≤ s.die.legal.lastSerial) :
    recOpen p a m d s = (.limit, (s.freeBits 8).toNat, none, s.used) := by
  simp only [recOpen, h, List.head?_nil]
  exact if_pos hfull

/-- An open that nothing refuses appends the new record, with the next serial, and counts it. -/
theorem recOpen_ok {p a m : Nat} {d : List Byte} {s : State} (h : s.refusals p = [])
    (hleft : s.die.legal.lastSerial < 2 ^ 64 - 1) :
    (recOpen p a m d s).2.2.2.die.cur.recs = s.die.cur.recs ++ [s.newRec p a m d] ∧
    (recOpen p a m d s).2.2.2.die.legal.lastSerial = s.die.legal.lastSerial + 1 ∧
    ((recOpen p a m d s).2.2.2.die.cur.pts.get p).opened = (s.die.cur.pts.get p).opened + 1 := by
  simp only [recOpen, h, List.head?_nil]
  rw [if_neg (Nat.not_le.mpr hleft)]
  exact ⟨rfl, rfl, congrArg PointBill.opened (Bank.get_upd_same _ _ _)⟩

theorem named_some {p a k : Nat} {r : Rec} {s : State} (h : s.bill k = some r) (hp : r.point = p)
    (ha : r.handle = a) : s.named p a k = some r := by
  simp [State.named, h, Option.filter, hp, ha]

theorem recClose_none {p a k c : Nat} {s : State} (h : s.named p a k = none) :
    recClose p a k c s = (.stale, none, s) := by
  simp only [recClose, h]

theorem recClose_some {p a k c : Nat} {r : Rec} {s : State} (h : s.named p a k = some r) :
    recClose p a k c s = (.ok, (closeRec k c id s).bill k, closeRec k c id s) := by
  simp only [recClose, h]

theorem closeRec_closed {k c : Nat} {r : Rec} {s : State} (h : s.bill k = some r) (hst : r.st ≠ .open) :
    closeRec k c id s = s := by
  simp only [closeRec, h]
  exact if_pos hst

/-- A closing record is signed. -/
theorem recSigned_closing {k : Nat} {r : Rec} {s : State} (h : s.bill k = some r) (hst : r.st = .closing) :
    (recSigned k s).bill k = some { r with
      st := .signed, bytes := s.recBody r ++ signature s.die.legal.recordKey (Config.sha384 (s.recBody r)) } := by
  simp only [recSigned, h]
  rw [if_neg (fun hne => hne hst), bill_of_cur (dieSend_cur _ _ _)]
  exact bill_updRec h fun _ => rfl

theorem recSigned_other {k : Nat} {s : State} (h : ∀ r, s.bill k = some r → r.st ≠ .closing) :
    recSigned k s = s := by
  unfold recSigned
  split
  · rfl
  · next r hr => exact if_pos (h r hr)

/-- A notice about a record that is not signed has its effect and is answered. -/
theorem notice_taken {g : Word} {k : Nat} {f : Rec → State → State} {r : Rec} {s : State} (h : s.bill k = some r)
    (hst : r.st ≠ .signed) : notice g k f s = noticeReply g .ok (f r s) := by
  simp [notice, h, Option.filter, hst]

theorem notice_stale {g : Word} {k : Nat} {f : Rec → State → State} {s : State}
    (h : (s.bill k).filter (fun r => r.st ≠ .signed) = none) : notice g k f s = noticeReply g .stale s := by
  simp only [notice, h]

theorem bill_noticeReply (g : Word) (st : Status) (s : State) (k : Nat) : (noticeReply g st s).bill k = s.bill k := by
  obtain ⟨hcur, -⟩ := notice_cur g st s
  exact bill_of_cur hcur k

theorem takeReading_none {r : Role} {k : Nat} {s : State} (h : s.bill k = none) :
    takeReading r k s = (.stale, [], s) := by
  simp only [takeReading, h]

theorem takeReading_next {k : Nat} {r : Rec} {s : State} (h : s.bill k = some r) (hst : r.st = .open) :
    takeReading .firmware k s = (.ok, s.newReading r, s.updRec k fun x =>
      { x with reading := wrap16From1 x.reading, lastReading := s.newReading r }) := by
  simp [takeReading, h, State.dieRole, hst]

theorem takeReading_last {q : Role} {k : Nat} {r : Rec} {s : State} (h : s.bill k = some r)
    (hmay : s.dieRole q = true) (hgrant : q = .firmware ∨ granted rCOV q = true)
    (hother : ¬ (q = .firmware ∧ r.st = .open)) : takeReading q k s = (.ok, r.lastReading, s) := by
  simp only [takeReading, h]
  rw [if_neg, if_neg]
  · simpa using hother
  · rw [hmay]
    rcases hgrant with h | h <;> simp [h]

theorem takeReading_denied {q : Role} {k : Nat} {r : Rec} {s : State} (h : s.bill k = some r)
    (hdenied : s.dieRole q = false ∨ (q ≠ .firmware ∧ granted rCOV q = false)) :
    takeReading q k s = (.denied, [], s) := by
  simp only [takeReading, h]
  refine if_pos ?_
  rcases hdenied with h | ⟨hfw, hgrant⟩
  · simp [h]
  · simp [hfw, hgrant]

/-- A role that may ask for a purse. -/
theorem mayAskPurse {q : Role} {s : State} (hrole : q = .firmware ∨ q = .customer ∨ q = .operator)
    (hmay : s.dieRole q = true) :
    (s.dieRole q && (q = .firmware || q = .customer || q = .operator)) = true := by
  rw [hmay]
  rcases hrole with rfl | rfl | rfl <;> rfl

/-- Settles O42: each request is its operation on the record of its serial; a notice is `notice_taken` or
`notice_stale`, a reading one of the four cases of `takeReading`. -/
theorem billingRecordsAndNotices : Obligations.BillingRecordsAndNotices := by
  refine ⟨?_, ?_, ?_, ?_, ?_, ?_, ?_, ?_, ?_, ?_, ?_, ?_, ?_, ?_, ?_, ?_, ?_, ?_, ?_, ?_, ?_, ?_, ?_, ?_, ?_, ?_, ?_,
    ?_, ?_, ?_, ?_, ?_, ?_, ?_, ?_, ?_, ?_, ?_, ?_, ?_, ?_⟩
  · rintro g p a m d s ⟨hrun, hfree, hleft⟩
    refine ⟨_, die_next hrun rfl, ?_⟩
    rw [(reply_cur _ _ _ _ _).1, (reply_cur _ _ _ _ _).2]
    exact recOpen_ok hfree hleft
  · rintro g p a m d k s ⟨hrun, hrefused⟩
    refine ⟨_, die_next hrun rfl, ?_⟩
    rw [recOpen_refused hrefused]
  · rintro g p a n c r s ⟨hrun, hbill, hp, ha, hst⟩
    obtain ⟨r2, hbill2, hrest⟩ := close_bill n.toNat c.toNat (settle s) r hbill hst
    refine ⟨_, die_next hrun rfl, r2, ?_, hrest⟩
    rw [recClose_some (named_some hbill hp ha), bill_of_cur (reply_cur _ _ _ _ _).1]
    exact hbill2
  · rintro g p a n c s ⟨hrun, hnone⟩
    refine ⟨_, die_next hrun rfl, ?_⟩
    rw [recClose_none hnone]
  · exact fun g p a n s hrun => ⟨_, die_next hrun rfl, rfl⟩
  · rintro n r s ⟨hrun, hbill, hst⟩
    exact ⟨_, die_next hrun rfl, recSigned_closing hbill hst⟩
  · rintro q n s ⟨hrun, hmay⟩
    refine ⟨_, die_next hrun (congrArg _ (if_pos hmay)), ?_⟩
    simp only [writeReply_same]
    exact ⟨rfl, rfl⟩
  · intro g p a s hrun
    exact ⟨_, die_next hrun rfl, (notice_cur _ _ _).2⟩
  · rintro g p a n r s ⟨hrun, hbill, hst⟩
    exact ⟨_, die_next hrun (notice_taken hbill hst), (notice_cur _ _ _).2⟩
  · rintro g p a n r s ⟨hrun, hbill, hst, hbasis, hsince⟩
    refine ⟨_, die_next hrun (notice_taken hbill (by rw [hst]; decide)), ?_⟩
    rw [bill_noticeReply, if_pos (by simp [hbasis, hst, hsince])]
    refine bill_updRec_serial hbill ?_
    exact fun _ => rfl
  · rintro g p a n c r s ⟨hrun, hbill, hst, hbasis⟩
    refine ⟨_, die_next hrun (notice_taken hbill hst), ?_⟩
    rw [bill_noticeReply, if_pos hbasis]
    exact bill_updRec_serial hbill fun x => recTime_serial x _ _
  · rintro g p a n i d r s ⟨hrun, hbill, hst⟩
    refine ⟨_, die_next hrun (notice_taken hbill hst), ?_⟩
    rw [bill_noticeReply]
    refine bill_updRec_serial hbill ?_
    exact fun _ => rfl
  · rintro q k n r s ⟨hrun, hbill, hrole, hst⟩
    refine ⟨_, die_next hrun rfl, ?_⟩
    rw [bill_of_cur (objReply_cur _ _ _ _ _ _ _ _ _ _), hrole, takeReading_next hbill hst]
    refine bill_updRec hbill ?_
    exact fun _ => rfl
  · rintro q k n s ⟨hrun, hnone⟩
    refine ⟨_, die_next hrun rfl, ?_⟩
    rw [takeReading_none hnone]
    rfl
  · rintro q p n r s ⟨hrun, hbill, hp, hrole, hmay⟩
    refine ⟨_, die_next hrun rfl, ?_⟩
    have hfound : (s.bill n.toNat).filter (fun r => r.point = p.val) = some r := by
      simp [hbill, Option.filter, hp]
    dsimp only
    rw [mayAskPurse hrole hmay, if_pos rfl, hfound]
    rfl
  · rintro g p a m d s ⟨hrun, hfree, hfull⟩
    refine ⟨_, die_next hrun rfl, ?_⟩
    rw [recOpen_full hfree hfull]
  · rintro g p a n c r s ⟨hrun, hbill, hp, ha, hst⟩
    refine ⟨_, die_next hrun rfl, ?_⟩
    rw [recClose_some (named_some hbill hp ha), closeRec_closed hbill hst, hbill]
  · exact fun n s h => ⟨_, rfl, die_idle (recSigned_other h)⟩
  · rintro q n s ⟨hrun, hdenied⟩
    exact ⟨_, die_next hrun (congrArg _ (if_neg (by simp [hdenied]))), rfl⟩
  · rintro g p a n r s ⟨hrun, hbill, hst, hkeep⟩
    refine ⟨_, die_next hrun (notice_taken hbill hst), ?_⟩
    rw [if_neg]
    rcases hkeep with h | h | h <;> simp [h]
  · rintro g p a n c r s ⟨hrun, hbill, hst, hbasis⟩
    refine ⟨_, die_next hrun (notice_taken hbill hst), ?_⟩
    rw [if_neg (by simp [hbasis])]
  · rintro q k n r s ⟨hrun, hbill, hmay, hgrant, hother⟩
    refine ⟨_, die_next hrun rfl, ?_⟩
    rw [takeReading_last hbill hmay hgrant hother]
  · rintro q k n r s ⟨hrun, hbill, hdenied⟩
    refine ⟨_, die_next hrun rfl, ?_⟩
    rw [takeReading_denied hbill hdenied]
    rfl
  · rintro q p n s ⟨hrun, hnone, hrole, hmay⟩
    refine ⟨_, die_next hrun rfl, ?_⟩
    dsimp only
    rw [mayAskPurse hrole hmay, if_pos rfl, hnone]
    rfl
  · rintro q p n s ⟨hrun, hdenied⟩
    refine ⟨_, die_next hrun rfl, ?_⟩
    have hbar : (s.dieRole q.role && (q.role = .firmware || q.role = .customer || q.role = .operator)) = false := by
      rcases hdenied with h | ⟨hfw, hcustomer, hoperator⟩
      · simp [h]
      · simp [hfw, hcustomer, hoperator]
    dsimp only
    rw [hbar]
    rfl
  · rintro g p a n s ⟨hrun, hnone⟩
    exact ⟨_, die_next hrun (notice_stale hnone), rfl⟩
  · rintro g p a n s ⟨hrun, hnone⟩
    exact ⟨_, die_next hrun (notice_stale hnone), rfl⟩
  · rintro g p a n c s ⟨hrun, hnone⟩
    exact ⟨_, die_next hrun (notice_stale hnone), rfl⟩
  · rintro g p a n i d s ⟨hrun, hnone⟩
    exact ⟨_, die_next hrun (notice_stale hnone), rfl⟩
  · exact fun g p a n s h => ⟨_, rfl, die_off h⟩
  · exact fun g p a n s h => ⟨_, rfl, die_off h⟩
  · exact fun g p a n c s h => ⟨_, rfl, die_off h⟩
  · exact fun g p a n i d s h => ⟨_, rfl, die_off h⟩
  · exact fun g p a m d s h => ⟨_, rfl, die_off h⟩
  · exact fun g p a n c s h => ⟨_, rfl, die_off h⟩
  · exact fun g p a n s h => ⟨_, rfl, die_off h⟩
  · exact fun n s h => ⟨_, rfl, die_off h⟩
  · exact fun q n s h => ⟨_, rfl, die_off h⟩
  · exact fun g p a s h => ⟨_, rfl, die_off h⟩
  · exact fun q k n s h => ⟨_, rfl, die_off h⟩
  · exact fun q p n s h => ⟨_, rfl, die_off h⟩

end Sys2Proof.Machine
end

section
/-!
SUPPORT. Legal time, offset, calendar, demand, tokens and ledger of the sealed die, and LegalTimeCalendarAndTokens.
-/
set_option Elab.async false
namespace Sys2Proof.Machine

/-- An answer leaves the legal part and the ledgers that it is given. -/
theorem writeReply_legal (k : Word) (i j n : Nat) (r : Status × State) :
    (writeReply k i j n r).die.legal = r.2.die.legal ∧ (writeReply k i j n r).die.cur = r.2.die.cur := by
  refine ⟨?_, ?_⟩ <;> simp only [writeReply_same]

theorem objReply_legal (k : Word) (o : Nat) (st : Status) (i j f n m : Nat) (d : List Byte) (s : State) :
    (objReply k o st i j f n m d s).die.legal = s.die.legal := by
  simp only [objReply_same]

/-- The log leaves the rest of the legal part. -/
theorem logAdd_legal (k : Nat) (d : List Byte) (s : State) :
    (logAdd k d s).die.legal.tk = s.die.legal.tk ∧ (logAdd k d s).die.legal.tkGen = s.die.legal.tkGen ∧
    (logAdd k d s).die.legal.ledger = s.die.legal.ledger := by
  unfold logAdd
  split <;> exact ⟨rfl, rfl, rfl⟩

theorem offsetSet_denied {q : Role} {m : Int} {s : State} (h : s.mayWrite q rO = false) :
    offsetSet q m s = (.denied, s) :=
  if_pos (by simp [h])

theorem offsetSet_range {q : Role} {m : Int} {s : State} (hmay : s.mayWrite q rO = true)
    (h : ¬ (-720 ≤ m ∧ m ≤ 840 ∧ m % 15 = 0)) : offsetSet q m s = (.range, s) :=
  (if_neg (by simp [hmay])).trans (if_pos (by simp; omega))

theorem offsetSet_ok {q : Role} {m : Int} {s : State} (hmay : s.mayWrite q rO = true) (hlow : -720 ≤ m)
    (hhigh : m ≤ 840) (hstep : m % 15 = 0) : offsetSet q m s = (.ok, newOffset 1 m (settle s)) :=
  (if_neg (by simp [hmay])).trans (if_neg (by simp [hlow, hhigh, hstep]))

theorem offsetDue_some {c : Nat × Int} {s : State} (h : s.dueChange = some c) :
    offsetDue s = newOffset 0 c.2 { s with die.legal.chgDone := c.1 } := by
  simp only [offsetDue, h]

theorem offsetDue_none {s : State} (h : s.dueChange = none) : offsetDue s = s := by
  simp only [offsetDue, h]

/-- A calendar written whole is passive, or marked wrong; the active one stays. -/
theorem calendarWritten_facts (v : List Byte) (u : State) :
    (if calendarOk v then (calendarWritten v u).2.die.legal.passive = v ∧ (calendarWritten v u).2.die.legal.passiveSt = 1
      else (calendarWritten v u).2.die.legal.passive = u.die.legal.passive ∧
        (calendarWritten v u).2.die.legal.passiveSt = 3) ∧
    (calendarWritten v u).2.die.legal.active = u.die.legal.active := by
  unfold calendarWritten
  cases calendarOk v <;> exact ⟨⟨rfl, rfl⟩, rfl⟩

theorem activateSet_denied {q : Role} {v : Nat} {s : State} (h : s.mayWrite q rO = false) :
    activateSet q v s = (.denied, s) :=
  if_pos (by simp [h])

theorem activateSet_state {q : Role} {v : Nat} {s : State} (hmay : s.mayWrite q rO = true)
    (h : ¬ (s.die.legal.passiveSt = 1 ∨ s.die.legal.passiveSt = 2)) : activateSet q v s = (.state, s) :=
  (if_neg (by simp [hmay])).trans (if_pos (by simpa using h))

/-- An activation of a passive calendar, by the room in the log and its time. -/
theorem activateSet_passive {q : Role} {v : Nat} {s : State} (hmay : s.mayWrite q rO = true)
    (h : s.die.legal.passiveSt = 1 ∨ s.die.legal.passiveSt = 2) :
    activateSet q v s = if s.logLow then (.limit, s)
      else if decide (v * 1000 ≤ s.die.legal.lt) then (.ok, activate (settle s))
      else (.ok, { s with die.legal.passiveSt := 2, die.legal.actAt := v }) :=
  (if_neg (by simp [hmay])).trans (if_neg (by rcases h with h | h <;> simp [h]))

/-- What an activation makes of the calendars, after the interval and the tariff have been settled. -/
theorem activate_settled (s : State) :
    (activate (settle s)).die.legal.active = s.die.legal.passive ∧ (activate (settle s)).die.legal.passiveSt = 0 ∧
    (activate (settle s)).die.legal.passive = [] := by
  obtain ⟨hactive, hst, hpassive⟩ := act_facts (settle s)
  exact ⟨by rw [hactive, settle_legal], hst, hpassive⟩

theorem activateDue_due {s : State} (hst : s.die.legal.passiveSt = 2) (htime : s.die.legal.actAt * 1000 ≤ s.die.legal.lt)
    (hlog : s.logLow = false) : activateDue (settle s) = activate (settle s) :=
  if_pos (by simp [settle_low, hst, htime, hlog])

theorem activateDue_notDue {s : State}
    (h : s.die.legal.passiveSt ≠ 2 ∨ s.die.legal.lt < s.die.legal.actAt * 1000 ∨ s.logLow = true) :
    activateDue (settle s) = settle s := by
  refine if_neg ?_
  rw [settle_legal, settle_low]
  rcases h with h | h | h
  · simp [h]
  · simp [Nat.not_le.mpr h]
  · simp [h]

/-- At the end of a demand interval the next begins. -/
theorem settle_closed {s : State} (h : s.die.cur.intEnd ≤ s.die.legal.lt) :
    settle s = switchTariff (closeInterval s.coincident 0 s) := by
  unfold settle
  rw [if_pos h]

theorem settle_running {s : State} (h : s.die.legal.lt < s.die.cur.intEnd) : settle s = switchTariff s := by
  unfold settle
  rw [if_neg (Nat.not_le.mpr h)]

theorem demandReset_barred {q : Role} {p : Nat} {s : State} (h : s.mayWrite q rO = false ∨ s.logLow = true) :
    demandReset q p s = (if s.mayWrite q rO then .limit else .denied, s) := by
  unfold demandReset
  cases hmay : s.mayWrite q rO
  · rfl
  · exact if_pos (h.resolve_left (by simp [hmay]))

/-- A demand reset clears the maximum of its point and no other. -/
theorem demandReset_ok {q : Role} {p : Nat} {s : State} (hmay : s.mayWrite q rO = true) (hlog : s.logLow = false) :
    ((demandReset q p s).2.die.cur.pts.get p).maxW = 0 ∧ ((demandReset q p s).2.die.cur.pts.get p).maxMtk = 0 ∧
    ∀ j, j ≠ p → (demandReset q p s).2.die.cur.pts.get j = s.die.cur.pts.get j := by
  unfold demandReset
  rw [if_neg (by simp [hmay]), if_neg (by simp [hlog])]
  refine ⟨congrArg PointBill.maxW (Bank.get_upd_same _ _ _), congrArg PointBill.maxMtk (Bank.get_upd_same _ _ _),
    fun j hj => ?_⟩
  refine (Bank.get_upd _ _ _ _).trans ((if_neg (Ne.symm hj)).trans ?_)
  rw [log_cur]

theorem tokenKey_barred {q : Role} {d : List Byte} {s : State}
    (h : s.mayWrite q rO = false ∨ d.length ≠ 32 ∨ s.logLow = true ∨ 255 ≤ s.die.legal.tkGen) :
    tokenKey q d s =
      (if s.mayWrite q rO = false then .denied else if d.length ≠ 32 then .range else .limit, s) := by
  unfold tokenKey
  cases hmay : s.mayWrite q rO
  · rfl
  · simp only [Bool.not_true, Bool.false_eq_true, Bool.true_eq_false, ↓reduceIte]
    by_cases hlen : d.length ≠ 32
    · rw [if_pos hlen, if_pos hlen]
    · rw [if_neg hlen, if_neg hlen]
      exact if_pos (by simpa using (h.resolve_left (by simp [hmay])).resolve_left hlen)

/-- A token-key change takes the key with the next generation and keeps the ledger. -/
theorem tokenKey_ok {q : Role} {d : List Byte} {s : State} (hmay : s.mayWrite q rO = true) (hlen : d.length = 32)
    (hlog : s.logLow = false) (hgen : s.die.legal.tkGen < 255) :
    (tokenKey q d s).2.die.legal.tk = some d ∧ (tokenKey q d s).2.die.legal.tkGen = s.die.legal.tkGen + 1 ∧
    (tokenKey q d s).2.die.legal.ledger = s.die.legal.ledger := by
  unfold tokenKey
  rw [if_neg (by simp [hmay]), if_neg (fun hne => hne hlen), if_neg (by simp [hlog, hgen])]
  exact logAdd_legal _ _ _

theorem creditExpire_none {p : Nat} {s : State} (h : (s.die.cur.pts.get p).pending = none) : creditExpire p s = s := by
  simp only [creditExpire, h]

theorem creditExpire_early {p : Nat} {x : Nat × Nat × Nat × Nat} {s : State}
    (h : (s.die.cur.pts.get p).pending = some x) (htime : s.die.legal.mtk ≤ x.2.2.2 + 1000 * s.snum 0x5800 6) :
    creditExpire p s = s := by
  obtain ⟨u, a, k, t⟩ := x
  simp only [creditExpire, h]
  exact if_pos htime

/-- A pending credit past its time is pending in neither ledger. -/
theorem creditExpire_due {p : Nat} {x : Nat × Nat × Nat × Nat} {s : State}
    (h : (s.die.cur.pts.get p).pending = some x) (htime : x.2.2.2 + 1000 * s.snum 0x5800 6 < s.die.legal.mtk) :
    ((creditExpire p s).die.cur.pts.get p).pending = none ∧ ((creditExpire p s).die.saved.pts.get p).pending = none := by
  obtain ⟨u, a, k, t⟩ := x
  simp only [creditExpire, h]
  rw [if_neg (Nat.not_le.mpr htime)]
  simp only [dieSend_same, log_cur, log_saved]
  exact ⟨congrArg PointBill.pending (Bank.get_upd_same _ _ _), congrArg PointBill.pending (Bank.get_upd_same _ _ _)⟩

/-- Settles O43: each request is its operation with its checks; what is due is done after the interval and the
tariff are settled (`settle_legal`). -/
theorem legalTimeCalendarAndTokens : Obligations.LegalTimeCalendarAndTokens := by
  refine ⟨?_, ?_, ?_, ?_, ?_, ?_, ?_, ?_, ?_, ?_, ?_, ?_, ?_, ?_, ?_, ?_, ?_, ?_, ?_, ?_, ?_, ?_, ?_, ?_, ?_, ?_, ?_,
    ?_, ?_, ?_, ?_, ?_, ?_, ?_, ?_, ?_, ?_, ?_, ?_, ?_, ?_, ?_, ?_, ?_, ?_, ?_, ?_, ?_, ?_, ?_, ?_⟩
  · rintro q v s ⟨hrun, hmay, hrole, hnew, hbound, hlog⟩
    refine ⟨_, die_next hrun rfl, ?_⟩
    rw [(writeReply_legal _ _ _ _ _).1]
    exact lt_facts q.role v s hmay hrole hnew hbound hlog
  · rintro q v s ⟨hrun, hmay, hrole, hsame⟩
    exact ⟨_, die_next hrun (congrArg _ (lt_same q.role v s hmay hrole hsame)), rfl⟩
  · rintro q v s ⟨hrun, hdenied⟩
    exact ⟨_, die_next hrun (congrArg _ (lt_denied q.role v s hdenied)), rfl⟩
  · rintro q v s ⟨hrun, hmay, hrole, hnew, hbound, hlog⟩
    exact ⟨_, die_next hrun (congrArg _ (lt_low q.role v s hmay hrole hnew hbound hlog)), rfl⟩
  · rintro q m s ⟨hrun, hmay, hlow, hhigh, hstep⟩
    refine ⟨_, die_next hrun (congrArg _ (offsetSet_ok hmay hlow hhigh hstep)), ?_⟩
    rw [(writeReply_legal _ _ _ _ _).1]
    exact new_offset _ _ _
  · rintro q m s ⟨hrun, hmay, hbad⟩
    exact ⟨_, die_next hrun (congrArg _ (offsetSet_range hmay hbad)), rfl⟩
  · rintro q m s ⟨hrun, hdenied⟩
    exact ⟨_, die_next hrun (congrArg _ (offsetSet_denied hdenied)), rfl⟩
  · rintro c s ⟨hrun, hdue⟩
    exact ⟨_, die_next hrun (offsetDue_some hdue), new_offset _ _ _, new_done _ _ _⟩
  · rintro s ⟨hrun, hdue⟩
    exact ⟨_, die_next hrun (offsetDue_none hdue), rfl⟩
  · rintro q o n d v u s ⟨hrun, hmay, hlen, hstage⟩
    have hkept : u.die.legal = s.die.legal := by
      rw [← stage_legal 0x5600 1 o n d s, hstage]
    refine ⟨objReply q.tag 2 (calendarWritten v u).1 0x5600 1 o d.length n [] (calendarWritten v u).2,
      die_next hrun ?_, ?_⟩
    · dsimp only
      rw [if_neg (by simp [hmay]), if_neg (Nat.not_lt.mpr hlen), hstage]
    · rw [objReply_legal, ← hkept]
      exact calendarWritten_facts v u
  · rintro q o n d x u s ⟨hrun, hmay, hlen, hstage⟩
    refine ⟨_, die_next hrun rfl, ?_⟩
    rw [if_neg (by simp [hmay]), if_neg (Nat.not_lt.mpr hlen), hstage]
    cases x <;> rfl
  · rintro q o n d s ⟨hrun, hmay, hlen⟩
    refine ⟨_, die_next hrun rfl, ?_⟩
    rw [if_neg (by simp [hmay]), if_pos hlen]
  · rintro q o n d s ⟨hrun, hdenied⟩
    refine ⟨_, die_next hrun rfl, ?_⟩
    rw [if_pos (by simp [hdenied])]
  · rintro q v s ⟨hrun, hmay, hpassive, hlog, htime⟩
    refine ⟨_, die_next hrun (congrArg _ ((activateSet_passive hmay hpassive).trans
      ((if_neg (by simp [hlog])).trans (if_neg (by simpa using htime))))), ?_⟩
    rw [(writeReply_legal _ _ _ _ _).1]
    exact ⟨rfl, rfl, rfl⟩
  · rintro q v s ⟨hrun, hmay, hpassive, hlog, htime⟩
    refine ⟨_, die_next hrun (congrArg _ ((activateSet_passive hmay hpassive).trans
      ((if_neg (by simp [hlog])).trans (if_pos (decide_eq_true htime))))), ?_⟩
    rw [(writeReply_legal _ _ _ _ _).1]
    exact activate_settled s
  · rintro q v s ⟨hrun, hmay, hpassive, hlog⟩
    exact ⟨_, die_next hrun (congrArg _ ((activateSet_passive hmay hpassive).trans (if_pos hlog))), rfl⟩
  · rintro q v s ⟨hrun, hmay, hnone⟩
    exact ⟨_, die_next hrun (congrArg _ (activateSet_state hmay hnone)), rfl⟩
  · rintro q v s ⟨hrun, hdenied⟩
    exact ⟨_, die_next hrun (congrArg _ (activateSet_denied hdenied)), rfl⟩
  · rintro s ⟨hrun, hst, htime, hlog⟩
    exact ⟨_, die_next hrun (activateDue_due hst htime hlog), activate_settled s⟩
  · rintro s ⟨hrun, hnot⟩
    exact ⟨_, die_next hrun (activateDue_notDue hnot), rfl⟩
  · exact fun s hrun => ⟨_, die_next hrun rfl, settle_tariff s, settle_legal s⟩
  · rintro s ⟨hrun, hend⟩
    refine ⟨_, die_next hrun (settle_closed hend), ?_⟩
    obtain ⟨hstart, hlen, hend'⟩ := close_int s.coincident 0 s
    obtain ⟨hstart', hlen', hend''⟩ := switch_int (closeInterval s.coincident 0 s)
    exact ⟨hstart'.trans hstart, hlen'.trans hlen, by rw [hend'', hend', hlen', hlen],
      (switch_legal _).trans (close_legal _ _ _)⟩
  · rintro s ⟨hrun, hrunning⟩
    exact ⟨_, die_next hrun (settle_running hrunning), rfl⟩
  · rintro q p s ⟨hrun, hbar⟩
    exact ⟨_, die_next hrun (congrArg _ (demandReset_barred hbar)), rfl⟩
  · rintro q d s ⟨hrun, hbar⟩
    exact ⟨_, die_next hrun (congrArg _ (tokenKey_barred hbar)), rfl⟩
  · intro b s h
    exact ⟨_, congrArg Host.Outcome.next (if_pos h), start_facts2 b s⟩
  · exact fun b s h => ⟨_, rfl, if_neg (by simp [h])⟩
  · rintro q p s ⟨hrun, hmay, hlog⟩
    refine ⟨_, die_next hrun rfl, ?_⟩
    rw [(writeReply_legal _ _ _ _ _).2]
    exact demandReset_ok hmay hlog
  · rintro q d s ⟨hrun, hmay, hlen, hlog, hgen⟩
    refine ⟨_, die_next hrun rfl, ?_⟩
    rw [(writeReply_legal _ _ _ _ _).1]
    exact tokenKey_ok hmay hlen hlog hgen
  · rintro q n s ⟨hrun, hmay⟩
    refine ⟨_, die_next hrun (congrArg _ (if_neg (by simp [hmay]))), ?_⟩
    rw [(writeReply_legal _ _ _ _ _).1]
  · rintro q n s ⟨hrun, hdenied⟩
    exact ⟨_, die_next hrun (congrArg _ (if_pos (by simp [hdenied]))), rfl⟩
  · rintro p x s ⟨hrun, hpending, htime⟩
    exact ⟨_, die_next hrun rfl, creditExpire_due hpending htime⟩
  · rintro p s ⟨hrun, hnone⟩
    exact ⟨_, die_next hrun (creditExpire_none hnone), rfl⟩
  · rintro p x s ⟨hrun, hpending, htime⟩
    exact ⟨_, die_next hrun (creditExpire_early hpending htime), rfl⟩
  · rintro k s ⟨hrun, hlock, htime⟩
    refine ⟨_, die_next hrun rfl, ?_⟩
    rw [hlock]
    exact if_pos htime
  · intro s h
    refine ⟨_, rfl, die_idle ?_⟩
    cases hlock : s.die.legal.lockEnd with
    | none => rfl
    | some k => exact if_neg (Nat.not_le.mpr (h k hlock))
  · exact fun s hrun => ⟨_, die_next hrun rfl, rfl⟩
  · exact fun q v s h => ⟨_, rfl, die_off h⟩
  · exact fun q m s h => ⟨_, rfl, die_off h⟩
  · exact fun s h => ⟨_, rfl, die_off h⟩
  · exact fun q o n d s h => ⟨_, rfl, die_off h⟩
  · exact fun q v s h => ⟨_, rfl, die_off h⟩
  · exact fun s h => ⟨_, rfl, die_off h⟩
  · exact fun s h => ⟨_, rfl, die_off h⟩
  · exact fun s h => ⟨_, rfl, die_off h⟩
  · exact fun q p s h => ⟨_, rfl, die_off h⟩
  · exact fun q d s h => ⟨_, rfl, die_off h⟩
  · exact fun q n s h => ⟨_, rfl, die_off h⟩
  · exact fun p s h => ⟨_, rfl, die_off h⟩
  · exact fun s h => ⟨_, rfl, die_off h⟩
  · exact fun s h => ⟨_, rfl, die_off h⟩

end Sys2Proof.Machine
end

section
/-!
SUPPORT. How a panel starts, asks again, fails, stops and draws its frames, and what its legal region is;
PanelSequencesAndFrames.
-/
set_option Elab.async false
namespace Sys2Proof.Machine

theorem panel_upd_same (s : State) (m : Nat) (f : Panel → Panel) : (s.updPanel m f).panel m = f (s.panel m) :=
  Bank.get_upd_same _ _ _

theorem sobj_setSobj_same (s : State) (i j : Nat) (v : List Byte) : (s.setSobj i j v).sobj i j = v := by
  simp [State.sobj, State.setSobj]

/-- Another subindex of an index that is no element keeps its value. -/
theorem sobj_setSobj_other {i j k : Nat} (s : State) (v : List Byte) (hi : within 0x5000 i 0x507F = false)
    (h : j ≠ k) : (s.setSobj i j v).sobj i k = s.sobj i k := by
  have hkey : i * 256 + j ≠ i * 256 + k := fun he => h (Nat.add_left_cancel he)
  unfold State.sobj State.setSobj State.elemDc
  simp only [hi, Bool.false_and, Bank.get_set, if_neg hkey]

/-- The latches that a start drives, where the lane, the clock and the safe state allow it. -/
theorem psqDrive_start {m : Nat} {s : State} (hlane : s.app.lane.fault = false) (hclk : s.power.clkOk = true)
    (hlink : s.linkUp = true) (hsafe : s.power.safe = false) :
    (psqDrive m 7 true s).power.psq = s.power.psq ||| (7 : BitVec 8) <<< (4 * m) := by
  unfold psqDrive
  dsimp only
  rw [if_neg (by simp [hlane, hclk, hlink, hsafe])]
  rfl

/-- A start whose panel is starting, waits for nothing and has the link goes on with the crack loop. -/
theorem panelStart_good {m : Nat} {s : State} (hst : ((panelEnableSet m s).panel m).st = .starting)
    (hwait : ((panelEnableSet m s).panel m).wait = .none) (hlink : (panelEnableSet m s).linkUp = true) :
    panelStart m true s = panelRequest m (psqDrive m 7 true (panelEnableSet m s)) :=
  (start_go m true s hst hwait hlink).trans (if_pos rfl)

theorem panelStart_bad {m : Nat} {s : State} (hst : ((panelEnableSet m s).panel m).st = .starting)
    (hwait : ((panelEnableSet m s).panel m).wait = .none) (hlink : (panelEnableSet m s).linkUp = true) :
    panelStart m false s = panelFail m (psqDrive m 7 true (panelEnableSet m s)) :=
  (start_go m false s hst hwait hlink).trans (if_neg (by decide))

/-- A start that cannot go on is only recorded. -/
theorem panelStart_recorded {m : Nat} {b : Bool} {s : State}
    (h : ((panelEnableSet m s).panel m).st ≠ .starting ∨ ((panelEnableSet m s).panel m).wait ≠ .none ∨
      (panelEnableSet m s).linkUp = false) : panelStart m b s = panelEnableSet m s := by
  refine if_pos ?_
  rcases h with h | h | h <;> simp [h]

/-- Enabling a panel that is starting changes its enable entry only. -/
theorem enable_starting {m : Nat} {s : State} (hst : (s.panel m).st = .starting) :
    panelEnableSet m s = s.setSobj (0x7800 + m) 1 [1] :=
  enable_set m s (.inr ⟨by rw [hst]; decide, fun ⟨hfailed, _⟩ => by rw [hst] at hfailed; cases hfailed⟩)

/-- Disabling with the link agreed draws two clearing frames and ends OFF. -/
theorem panelDisable_linked {m : Nat} {s : State} (h : (s.panel m).st = .on ∨ (s.panel m).st = .starting)
    (hlink : s.linkUp = true) :
    ((panelDisable m s).panel m).st = .off ∧ ((panelDisable m s).panel m).clears = (s.panel m).clears + 2 := by
  obtain ⟨hup, hclears⟩ := disable_mid m s
  rw [disable_go m s h]
  unfold orderlyStop
  rw [if_pos (hup.trans hlink), ← hclears]
  exact stopped_off m _ (panelTo_st m .stopping _)

/-- Disabling with the link down waits for it. -/
theorem panelDisable_unlinked {m : Nat} {s : State} (h : (s.panel m).st = .on ∨ (s.panel m).st = .starting)
    (hlink : s.linkUp = false) :
    ((panelDisable m s).panel m).st = .stopping ∧ ((panelDisable m s).panel m).wait = .stop := by
  obtain ⟨hup, -⟩ := disable_mid m s
  rw [disable_go m s h]
  unfold orderlyStop
  rw [if_neg (by rw [hup, hlink]; decide)]
  simp only [panel_upd_same]
  exact ⟨panelTo_st m .stopping _, trivial⟩

theorem panelDisable_other {m : Nat} {s : State} (hon : (s.panel m).st ≠ .on) (hstart : (s.panel m).st ≠ .starting) :
    panelDisable m s = (s.setSobj (0x7800 + m) 1 [0]).updPanel m fun x => { x with rearm := true } :=
  if_neg (by simp [hon, hstart])

/-- A frame of a panel that stays on counts itself, its mismatches and its bad lines. -/
theorem frameStart_counts {m k : Nat} {l : List Nat} {s : State} (hon : (s.panel m).st = .on)
    (hwait : (s.panel m).wait ≠ .stop) (hgood : ¬ (2 < k ∨ 16 < l.length) ∨ (s.panel m).faulty < 2) :
    ((frameStart m k l s).panel m).frames = ((s.panel m).frames + 1) % 2 ^ 32 ∧
    ((frameStart m k l s).panel m).faulty = (if 2 < k ∨ 16 < l.length then (s.panel m).faulty + 1 else 0) ∧
    ((frameStart m k l s).panel m).loopBad = stick 0xFFFFFFFF (s.panel m).loopBad k ∧
    ((frameStart m k l s).panel m).badLines = stick 0xFFFFFFFF (s.panel m).badLines l.length ∧
    ((frameStart m k l s).panel m).st = .on := by
  obtain ⟨x, hframe, hst, hframes, hfaulty, hloop, hlines⟩ := frame_run m k l s hon hwait
  have hfew : ¬ 3 ≤ x.faulty := by
    rw [hfaulty]
    rcases hgood with h | h
    · rw [if_neg h]; decide
    · split <;> omega
  rw [hframe, if_neg hfew, panel_upd_same]
  exact ⟨hframes, hfaulty, hloop, hlines, hst⟩

/-- The third faulty frame in a row fails the panel. -/
theorem frameStart_fails {m k : Nat} {l : List Nat} {s : State} (hon : (s.panel m).st = .on)
    (hwait : (s.panel m).wait ≠ .stop) (hbad : 2 < k ∨ 16 < l.length) (hrow : 2 ≤ (s.panel m).faulty) :
    ((frameStart m k l s).panel m).st = .failed := by
  obtain ⟨x, hframe, -, -, hfaulty, -, -⟩ := frame_run m k l s hon hwait
  rw [if_pos hbad] at hfaulty
  rw [hframe, if_pos (by omega)]
  exact fail_st m _

/-- A geometry in its range, by the Operator, is STATE while a record is open, waits on a panel that is on, and is
stored on another. -/
theorem geomWrite_checked {q : Role} {m x y w k : Nat} {s : State} (hmay : s.mayWrite q rO = true)
    (hgeom : s.geomOk m x y w k = true) :
    geomWrite q m x y w k s = if s.panelBusy m then (.state, s)
      else if (s.panel m).st = .on then
        (.ok, panelRequest m (s.updPanel m fun q => { q with newGeom := some (x, y, w, k) }))
      else (.ok, ((((s.setSobj (0x7800 + m) 4 (toLE 2 x)).setSobj (0x7800 + m) 5 (toLE 2 y)).setSobj
        (0x7800 + m) 6 (toLE 2 w)).setSobj (0x7800 + m) 7 (toLE 2 k))) :=
  (if_neg (by simp [hmay])).trans (if_neg (by simp [hgeom]))

theorem panelEntry_noElement (m : Fin 2) : within 0x5000 (0x7800 + m) 0x507F = false := by
  simp [within]
  omega

/-- An answer of the panels leaves the panels and the objects. -/
theorem ovReply_kept (g : Word) (o m : Nat) (r : Status × State) :
    (ovReply g o m r).die.panels = r.2.die.panels ∧ (ovReply g o m r).die.obj = r.2.die.obj := by
  unfold ovReply
  refine ⟨?_, ?_⟩ <;> simp only [dieReply_same]

theorem ovReply_panel (g : Word) (o m : Nat) (r : Status × State) (j : Nat) :
    (ovReply g o m r).panel j = r.2.panel j := by
  simp only [State.panel, (ovReply_kept g o m r).1]

theorem ovReply_sobj (g : Word) (o m : Nat) (r : Status × State) (i j : Nat) :
    (ovReply g o m r).sobj i j = r.2.sobj i j := by
  simp only [State.sobj, State.elemDc, (ovReply_kept g o m r).2]

/-- Settles O44: an enable is recorded, goes on or fails by the crack loop (`panelStart_good`, `panelStart_bad`,
`panelStart_recorded`); frames are `frameStart_counts` and `frameStart_fails`. -/
theorem panelSequencesAndFrames : Obligations.PanelSequencesAndFrames := by
  refine ⟨?_, ?_, ?_, ?_, ?_, ?_, ?_, ?_, ?_, ?_, ?_, ?_, ?_, ?_, ?_, ?_, ?_, ?_, ?_, ?_, ?_, ?_, ?_, ?_, ?_, ?_, ?_,
    ?_, ?_, ?_, ?_, ?_, ?_, ?_, ?_, ?_, ?_, ?_, ?_⟩
  · rintro m s ⟨hrun, hpfin, hpanel, hlink⟩
    obtain ⟨hst, hwait, hup, hpower, hlane⟩ := enable_facts m s ⟨hpfin, hpanel⟩
    obtain ⟨hst', hwait'⟩ := start_wait m s hst
    refine ⟨_, die_next hrun (panelStart_good hst hwait (hup.trans hlink)), hst', hwait', fun hfault hclk hsafe => ?_⟩
    rw [(request_panel m _).2.1, psqDrive_start (by rw [hlane]; exact hfault) (by rw [hpower]; exact hclk)
      (hup.trans hlink) (by rw [hpower]; exact hsafe), hpower]
  · rintro m s ⟨hrun, hpfin, hpanel, hlink⟩
    obtain ⟨hst, hwait, hup, -, -⟩ := enable_facts m s ⟨hpfin, hpanel⟩
    exact ⟨_, die_next hrun (panelStart_bad hst hwait (hup.trans hlink)), fail_st m _⟩
  · rintro m b s ⟨hrun, hpfin, hpanel, hlink⟩
    obtain ⟨hst, hwait, hup, -, -⟩ := enable_facts m s ⟨hpfin, hpanel⟩
    exact ⟨_, die_next hrun (panelStart_recorded (.inr (.inr (hup.trans hlink)))), hst, hwait⟩
  · rintro m b s ⟨hrun, hst, hwait, hlink⟩
    have hset := enable_starting hst
    have hst' : ((panelEnableSet m s).panel m).st = .starting := by rw [hset]; exact hst
    have hwait' : ((panelEnableSet m s).panel m).wait = .none := by rw [hset]; exact hwait
    have hlink' : (panelEnableSet m s).linkUp = true := by rw [hset]; exact hlink
    cases b with
    | false =>
      refine ⟨_, die_next hrun (panelStart_bad hst' hwait' hlink'), fail_st m _, fun h => by cases h⟩
    | true =>
      obtain ⟨hstart, hclear⟩ := start_wait m s hst'
      exact ⟨_, die_next hrun (panelStart_good hst' hwait' hlink'), hstart, fun _ => hclear⟩
  · rintro m b s ⟨hrun, hnot, hbar⟩
    have hset := enable_set m s hnot
    refine ⟨_, die_next hrun (panelStart_recorded ?_), hset⟩
    rw [hset]
    exact hbar
  · rintro m s ⟨hrun, hwait, hretry, hlink⟩
    refine ⟨_, die_next hrun (if_pos (by simp [hwait, hretry, hlink])), ?_⟩
    rw [(request_panel m s).1]
    exact ⟨rfl, rfl⟩
  · rintro m s ⟨hrun, hbar⟩
    refine ⟨_, die_next hrun (if_neg ?_), rfl⟩
    rcases hbar with h | h | h <;> simp [h]
  · rintro m s ⟨hrun, hst⟩
    exact ⟨_, die_next hrun (if_pos hst), fail_st m s⟩
  · rintro m s ⟨hrun, hst⟩
    exact ⟨_, die_next hrun (if_neg hst), rfl⟩
  · rintro m s ⟨hrun, hst, hlink⟩
    exact ⟨_, die_next hrun rfl, panelDisable_linked hst hlink⟩
  · rintro m s ⟨hrun, hst, hlink⟩
    exact ⟨_, die_next hrun rfl, panelDisable_unlinked hst hlink⟩
  · rintro m s ⟨hrun, hon, hstart⟩
    exact ⟨_, die_next hrun (panelDisable_other hon hstart), rfl⟩
  · rintro m k l s ⟨hrun, hon, hwait, hgood⟩
    have hcounts := frameStart_counts (k := k) (l := l.map (·.val)) hon hwait (by rw [List.length_map]; exact hgood)
    rw [List.length_map] at hcounts
    exact ⟨_, die_next hrun rfl, hcounts⟩
  · rintro m k l s ⟨hrun, hon, hwait, hbad, hrow⟩
    exact ⟨_, die_next hrun rfl, frameStart_fails hon hwait (by rw [List.length_map]; exact hbad) hrow⟩
  · rintro m k l s ⟨hrun, hwait⟩
    exact ⟨_, die_next hrun (if_pos hwait), rfl⟩
  · rintro m k l s ⟨hrun, hon, hwait⟩
    exact ⟨_, die_next hrun ((if_neg hwait).trans (if_pos hon)), rfl⟩
  · rintro m e s ⟨hrun, hdue⟩
    refine ⟨_, die_next hrun (if_pos hdue), ?_⟩
    rw [entryDue, panel_upd_same, panel_upd_same]
    exact Bank.get_upd_same _ _ _
  · rintro m e s ⟨hrun, hdue⟩
    exact ⟨_, die_next hrun (if_neg (by simp [hdue])), rfl⟩
  · rintro m s ⟨hrun, hon⟩
    refine ⟨_, die_next hrun (if_neg (fun hne => hne hon)), ?_⟩
    rw [linesDue, panel_upd_same]
    show ((rolloverCheck m _).panel m).view = _
    rw [State.panel, roll_panels]
    exact congrArg Panel.view (panel_upd_same s m _)
  · rintro m s ⟨hrun, hon⟩
    exact ⟨_, die_next hrun (if_pos hon), rfl⟩
  · rintro m s ⟨hrun, hon⟩
    refine ⟨_, die_next hrun (if_neg (fun hne => hne hon)), ?_⟩
    rw [linesDue, panel_upd_same]
    exact congrArg Panel.border (panel_upd_same s m _)
  · rintro m s ⟨hrun, hon⟩
    exact ⟨_, die_next hrun (if_pos hon), rfl⟩
  · rintro q m x y w k s ⟨hrun, hon, hmay, hgeom, hbusy⟩
    refine ⟨_, die_next hrun (congrArg _ ((geomWrite_checked hmay hgeom).trans
      ((if_neg (by simp [hbusy])).trans (if_neg hon)))), ?_⟩
    have hentry := panelEntry_noElement m
    simp only [ovReply_sobj]
    refine ⟨?_, ?_, ?_, sobj_setSobj_same _ _ _ _⟩
    · rw [sobj_setSobj_other _ _ hentry (by decide), sobj_setSobj_other _ _ hentry (by decide),
        sobj_setSobj_other _ _ hentry (by decide), sobj_setSobj_same]
    · rw [sobj_setSobj_other _ _ hentry (by decide), sobj_setSobj_other _ _ hentry (by decide), sobj_setSobj_same]
    · rw [sobj_setSobj_other _ _ hentry (by decide), sobj_setSobj_same]
  · rintro q m x y w k s ⟨hrun, hon, hmay, hgeom, hbusy⟩
    refine ⟨_, die_next hrun (congrArg _ ((geomWrite_checked hmay hgeom).trans
      ((if_neg (by simp [hbusy])).trans (if_pos hon)))), ?_⟩
    obtain ⟨hpanel, -, hobj⟩ := request_panel m (s.updPanel m fun q => { q with newGeom := some (x, y, w, k) })
    rw [ovReply_panel, (ovReply_kept _ _ _ _).2, hpanel, hobj, panel_upd_same]
    exact ⟨rfl, rfl, rfl⟩
  · rintro q m x y w k s ⟨hrun, hmay, hgeom, hbusy⟩
    exact ⟨_, die_next hrun (congrArg _ ((geomWrite_checked hmay hgeom).trans (if_pos hbusy))), rfl⟩
  · rintro q m x y w k s ⟨hrun, hmay, hgeom⟩
    exact ⟨_, die_next hrun (congrArg _ ((if_neg (by simp [hmay])).trans (if_pos (by simp [hgeom])))), rfl⟩
  · rintro q m x y w k s ⟨hrun, hdenied⟩
    exact ⟨_, die_next hrun (congrArg _ (if_pos (by simp [hdenied]))), rfl⟩
  · intro p v s h
    refine ⟨_, rfl, ?_⟩
    unfold psqWrite
    split
    · rfl
    · next hport => exact if_pos (h.resolve_left hport)
  · rintro v s ⟨hlane, hclk⟩
    exact ⟨_, rfl, (if_neg (fun hne => hne rfl)).trans (powerWrite_ok _ s hlane hclk)⟩
  · rintro v s ⟨hlane, hclk⟩
    exact ⟨_, rfl, (if_neg (fun hne => hne rfl)).trans ((if_neg (by simp [hlane])).trans (if_neg (by simp [hclk])))⟩
  · exact fun m b s h => ⟨_, rfl, die_off h⟩
  · exact fun m s h => ⟨_, rfl, die_off h⟩
  · exact fun m s h => ⟨_, rfl, die_off h⟩
  · exact fun m s h => ⟨_, rfl, die_off h⟩
  · exact fun m k l s h => ⟨_, rfl, die_off h⟩
  · exact fun m e s h => ⟨_, rfl, die_off h⟩
  · exact fun m s h => ⟨_, rfl, die_off h⟩
  · exact fun m s h => ⟨_, rfl, die_off h⟩
  · exact fun q m x y w k s h => ⟨_, rfl, die_off h⟩

end Sys2Proof.Machine
end

section
/-!
SUPPORT. What overlay, palette and blink writes draw, what the terminal's entries answer, and what each key does in each
state of the keypad; OverlayEntriesAndKeypad.
-/
set_option Elab.async false
namespace Sys2Proof.Machine

/-- A notice leaves the keypad as it is. -/
theorem keyNotice_key (k : Nat) (p : Option Nat) (s : State) : (keyNotice k p s).die.key = s.die.key := by
  unfold keyNotice
  simp only [dieSend_same]

theorem termRead_granted {i j : Nat} {q : Role} {s : State} {o : Obj} (hentry : isTermEntry i = true)
    (hobj : objTerm i j = some o) (hmay : s.mayRead q o = true) : termRead q i j s = (.ok, s.termValue i j) := by
  unfold termRead
  rw [if_neg (by simp [hentry]), hobj]
  exact if_neg (by simp [hmay])

theorem termWrite_granted {i j : Nat} {q : Role} {d : List Byte} {s : State} {o : Obj} (hentry : isTermEntry i = true)
    (hobj : objTerm i j = some o) (hmay : s.mayWrite q o.wr = true) (hval : o.valOk d = true)
    (hstep : stepOk i j (ofLE d) = true) : termWrite q i j d s = termApply q i j d s := by
  unfold termWrite
  rw [if_neg (by simp [hentry]), hobj]
  exact (if_neg (by simp [hmay])).trans (if_neg (by simp [hval, hstep]))

/-- The panel's state is read by every role that the fuses leave on. -/
theorem termRead_code {s : State} (m : Fin 2) (h : s.dieRole .operator = true) :
    termRead .operator (0x7800 + m) 0x0A s = (.ok, [BitVec.ofNat 8 (panelCode (s.panel m).st)]) := by
  have hmay : s.mayRead .operator (oStat 1 rAll 0 true) = true := by unfold State.mayRead; rw [h]; decide
  match m with
  | 0 => exact termRead_granted rfl rfl hmay
  | 1 => exact termRead_granted rfl rfl hmay

/-- The Operator sets whether tokens are entered at the keypad. -/
theorem termWrite_tokens {s : State} {v : Byte} (hv : v.toNat ≤ 1) (h : s.dieRole .operator = true) :
    termWrite .operator 0x7840 3 [v] s = (.ok, s.setSobj 0x7840 3 [v]) :=
  termWrite_granted (o := { oSeal 1 rAll rO 1 0 1 with ty := .bool }) rfl rfl
    (by unfold State.mayWrite; rw [h]; decide) (by simp [Obj.valOk, Obj.lenOk, ofLE, oSeal, hv]) rfl

theorem termRead_absent {q : Role} {i j : Nat} {s : State} (h : isTermEntry i = false) :
    termRead q i j s = (.absent, []) :=
  if_pos (by simp [h])

theorem termWrite_absent {q : Role} {i j : Nat} {d : List Byte} {s : State} (h : isTermEntry i = false) :
    termWrite q i j d s = (.absent, s) :=
  if_pos (by simp [h])

section
variable {q : Rq} {i : BitVec 16} {j : BitVec 8} {d : List Byte} {s : State} (hrun : s.die.running = true)
include hrun

theorem objectRead_sender (h : s.termSender q.role = true) :
    execTerminalObjectRead q i j s = .next (termReply q.tag 5 (termRead q.role i.toNat j.toNat s).1 i.toNat j.toNat
      (termRead q.role i.toNat j.toNat s).2 s) :=
  die_next hrun (congrArg (fun r : Status × List Byte => termReply q.tag 5 r.1 i.toNat j.toNat r.2 s) (if_pos h))

theorem objectRead_denied (h : s.termSender q.role = false) :
    execTerminalObjectRead q i j s = .next (termReply q.tag 5 .denied i.toNat j.toNat [] s) :=
  die_next hrun (congrArg (a₂ := (Status.denied, []))
    (fun r : Status × List Byte => termReply q.tag 5 r.1 i.toNat j.toNat r.2 s) (if_neg (by simp [h])))

theorem objectWrite_sender (h : s.termSender q.role = true) :
    execTerminalObjectWrite q i j d s = .next (termReply q.tag 6 (termWrite q.role i.toNat j.toNat d s).1 i.toNat
      j.toNat [] (termWrite q.role i.toNat j.toNat d s).2) :=
  die_next hrun (congrArg (fun r : Status × State => termReply q.tag 6 r.1 i.toNat j.toNat [] r.2) (if_pos h))

theorem objectWrite_denied (h : s.termSender q.role = false) :
    execTerminalObjectWrite q i j d s = .next (termReply q.tag 6 .denied i.toNat j.toNat [] s) :=
  die_next hrun (congrArg (a₂ := (Status.denied, s))
    (fun r : Status × State => termReply q.tag 6 r.1 i.toNat j.toNat [] r.2) (if_neg (by simp [h])))

end

theorem keyDigit_selects {d : Nat} {s : State} (h : s.die.key.st = .idle ∨ s.die.key.st = .selected) :
    keyDigit d s = s.updKey fun k => { k with st := .select, buf := [d], msg := 0 } := by
  unfold keyDigit
  rcases h with h | h <;> simp only [h]

/-- A digit is taken while the number of the point has one digit, or the token fewer than twenty. -/
theorem keyDigit_takes {d : Nat} {s : State} (h : s.die.key.st = .select ∧ s.die.key.buf.length = 1 ∨
    s.die.key.st = .token ∧ s.die.key.buf.length < 20) :
    keyDigit d s = s.updKey fun k => { k with buf := k.buf ++ [d] } := by
  unfold keyDigit
  rcases h with ⟨h, hlen⟩ | ⟨h, hlen⟩ <;> simp only [h] <;> exact if_pos hlen

theorem keyDigit_ignored {d : Nat} {s : State} (h : s.die.key.st = .select ∧ s.die.key.buf.length ≠ 1 ∨
    s.die.key.st = .token ∧ 20 ≤ s.die.key.buf.length) : keyDigit d s = s := by
  unfold keyDigit
  rcases h with ⟨h, hlen⟩ | ⟨h, hlen⟩ <;> simp only [h]
  · exact if_neg hlen
  · exact if_neg (by omega)

/-- In the state `select` the number entered selects its point when the panel serves it, else message 1 shows. -/
theorem keyAccept_select {s : State} (h : s.die.key.st = .select) :
    keyAccept s = if digitsNum s.die.key.buf < 64 && s.panelServes (s.snum 0x7840 1) (digitsNum s.die.key.buf) then
        keyNotice 1 (some (digitsNum s.die.key.buf))
          (s.updKey fun k => { k with st := .selected, buf := [], point := some (digitsNum s.die.key.buf), msg := 0 })
      else s.updKey fun k => { k with msg := 1 } := by
  unfold keyAccept
  simp only [h]

/-- A whole token is submitted for the selected point. -/
theorem keyAccept_token {s : State} (h : s.die.key.st = .token) (hlen : 20 ≤ s.die.key.buf.length) :
    keyAccept s = (tokenEnter (s.die.key.point.getD 0) (digitsNum s.die.key.buf) s).2.2.updKey fun k =>
      { k with
        st := .selected, buf := [], msg := 3
        result := ((tokenEnter (s.die.key.point.getD 0) (digitsNum s.die.key.buf) s).1,
          (tokenEnter (s.die.key.point.getD 0) (digitsNum s.die.key.buf) s).2.1) } := by
  unfold keyAccept
  simp only [h]
  exact if_neg (by omega)

theorem keyAccept_ignored {s : State} (h : s.die.key.st = .idle ∨ s.die.key.st = .selected ∨
    (s.die.key.st = .token ∧ s.die.key.buf.length < 20)) : keyAccept s = s := by
  unfold keyAccept
  rcases h with h | h | ⟨h, hlen⟩ <;> simp only [h]
  exact if_pos hlen

/-- C outside the token entry ends the selection. -/
theorem keyCancel_selection {s : State} (h : s.die.key.st = .select ∨ s.die.key.st = .selected) :
    (keyCancel s).die.key = { s.die.key with st := .idle, buf := [], point := none, msg := 0 } := by
  have hcancel : keyCancel s = keyNotice 3 s.die.key.point
      (s.updKey fun k => { k with st := .idle, buf := [], point := none, msg := 0 }) := by
    unfold keyCancel
    rcases h with h | h <;> simp only [h]
  rw [hcancel, keyNotice_key]
  rfl

theorem keyCancel_token {s : State} (h : s.die.key.st = .token) :
    keyCancel s = s.updKey fun k => { k with st := .selected, buf := [] } := by
  unfold keyCancel
  simp only [h]

theorem keyCancel_idle {s : State} (h : s.die.key.st = .idle) : keyCancel s = s := by
  unfold keyCancel
  simp only [h]

/-- Settles O45: a drawn rectangle by `put_get`, palette entries by `pal_fold`, the terminal's entries by
`termRead_code` and `termWrite_tokens`, the keypad by what each key does in each of its states. -/
theorem overlayEntriesAndKeypad : Obligations.OverlayEntriesAndKeypad := by
  unfold Obligations.OverlayEntriesAndKeypad
  refine ⟨?_, ?_, ?_, ?_, ?_, ?_, ?_, ?_, ?_, ?_, ?_, ?_, ?_, ?_, ?_, ?_, ?_, ?_, ?_, ?_, ?_, ?_, ?_, ?_, ?_, ?_, ?_,
    ?_, ?_, ?_, ?_, ?_, ?_, ?_, ?_, ?_, ?_, ?_, ?_, ?_, ?_, ?_, ?_, ?_, ?_, ?_, ?_, ?_, ?_, ?_⟩
  · rintro q m x y w k d s ⟨hrun, hcheck, hsize, hlen⟩
    have hst : (if s.overlayCheck q.role m x y w k ≠ .denied && (w * k ≠ d.length || 224 < d.length) then .range
        else s.overlayCheck q.role m x y w k) = Status.ok := by
      rw [if_neg (by simp [hsize]; omega), hcheck]
    refine ⟨_, die_next hrun (congrArg (ovReply q.tag 1 m) (congr (congrArg Prod.mk hst) (if_pos hst))), fun i j hi hj => ?_⟩
    rw [ovReply_panel]
    exact put_get m x y w k _ s i j hi hj
  · rintro q m x y w k d s ⟨hrun, hbad⟩
    have hst : (if s.overlayCheck q.role m x y w k ≠ .denied && (w * k ≠ d.length || 224 < d.length) then .range
        else s.overlayCheck q.role m x y w k) = if s.overlayCheck q.role m x y w k = .denied then Status.denied
        else if w * k ≠ d.length ∨ 224 < d.length then .range else s.overlayCheck q.role m x y w k := by
      by_cases hdenied : s.overlayCheck q.role m x y w k = .denied
      · simp [hdenied]
      · simp [hdenied]
    refine ⟨_, die_next hrun (congrArg (ovReply q.tag 1 m) (congr (congrArg Prod.mk hst) (if_neg ?_))), rfl⟩
    rw [hst]
    split
    · decide
    · split
      · decide
      · next hsize => exact hbad.resolve_right hsize
  · rintro q m x y w k v s ⟨hrun, hcheck⟩
    refine ⟨_, die_next hrun (congrArg (ovReply q.tag 2 m) (congr (congrArg Prod.mk hcheck) (if_pos hcheck))), fun i j hi hj => ?_⟩
    rw [ovReply_panel]
    exact put_get m x y w k _ s i j hi hj
  · rintro q m x y w k v s ⟨hrun, hcheck⟩
    exact ⟨_, die_next hrun (congrArg (ovReply q.tag 2 m) (congr (congrArg Prod.mk rfl) (if_neg hcheck))), rfl⟩
  · rintro q m f l s ⟨hrun, hdraw, hlen, htop⟩
    have hst : (if !s.mayDraw q.role then Status.denied else if 56 < l.length then .range
        else if 191 < f + l.length - 1 then .sealed else .ok) = .ok := by
      rw [if_neg (by simp [hdraw]), if_neg (by omega), if_neg (by omega)]
    refine ⟨_, die_next hrun (congrArg (ovReply q.tag 3 m) (congr (congrArg Prod.mk hst) (if_pos hst))), fun j => ?_⟩
    rw [ovReply_panel]
    exact pal_fold m f l 0 s j
  · rintro q m f l s ⟨hrun, hbad⟩
    have hst : (if !s.mayDraw q.role then Status.denied else if 56 < l.length then .range
        else if 191 < f + l.length - 1 then .sealed else .ok) =
        if s.mayDraw q.role = false then .denied else if 56 < l.length then .range else .sealed := by
      by_cases hdraw : s.mayDraw q.role = false
      · simp [hdraw]
      · rw [if_neg (by simpa using hdraw), if_neg hdraw]
        by_cases hlen : 56 < l.length
        · rw [if_pos hlen, if_pos hlen]
        · rw [if_neg hlen, if_neg hlen, if_pos (by have := (hbad.resolve_left hdraw).resolve_left hlen; omega)]
    refine ⟨_, die_next hrun (congrArg (ovReply q.tag 3 m) (congr (congrArg Prod.mk hst) (if_neg ?_))), rfl⟩
    rw [hst]
    split
    · decide
    · split <;> decide
  · rintro q m i p n b s ⟨hrun, hdraw, heven, hlow, hhigh, htop⟩
    have hst : (if !s.mayDraw q.role then Status.denied
        else if n % 2 ≠ 0 || !within 8 n 120 then .range
        else if 191 < i.toNat then .sealed else .ok) = .ok := by
      rw [if_neg (by simp [hdraw]), if_neg (by simp [heven, within, hlow, hhigh]), if_neg (by omega)]
    refine ⟨_, die_next hrun (congrArg (ovReply q.tag 4 m) (congr (congrArg Prod.mk hst) (if_pos hst))), ?_⟩
    rw [ovReply_panel, (due_panel _ _ _).2, panel_upd_same]
    exact Bank.get_set_same _ _ _
  · rintro q m i p n b s ⟨hrun, hbad⟩
    have hst : (if !s.mayDraw q.role then Status.denied
        else if n % 2 ≠ 0 || !within 8 n 120 then .range
        else if 191 < i.toNat then .sealed else .ok) =
        if s.mayDraw q.role = false then .denied else if n % 2 = 0 ∧ 8 ≤ n ∧ n ≤ 120 then .sealed else .range := by
      by_cases hdraw : s.mayDraw q.role = false
      · simp [hdraw]
      · rw [if_neg (by simpa using hdraw), if_neg hdraw]
        by_cases hper : n % 2 = 0 ∧ 8 ≤ n ∧ n ≤ 120
        · rw [if_neg (by simp [within, hper]), if_pos hper,
            if_pos ((hbad.resolve_left hdraw).resolve_left (fun hno => hno hper))]
        · rw [if_pos (by simp only [within]; simp; omega), if_neg hper]
    refine ⟨_, die_next hrun (congrArg (ovReply q.tag 4 m) (congr (congrArg Prod.mk hst) (if_neg ?_))), rfl⟩
    rw [hst]
    split
    · decide
    · split <;> decide
  · rintro g m s ⟨hrun, hrole⟩
    have hidx : (BitVec.ofNat 16 (0x7800 + m)).toNat = 0x7800 + m := by
      rw [BitVec.toNat_ofNat]; omega
    have hsender : s.termSender .operator = true := by unfold State.termSender; rw [hrole]; decide
    refine ⟨_, objectRead_sender hrun hsender, ?_⟩
    rw [hidx, show (0x0A : BitVec 8).toNat = 0x0A from rfl, termRead_code m hrole]
  · rintro q i j s ⟨hrun, hsender⟩
    exact ⟨_, objectRead_sender hrun hsender, rfl, termRead_absent⟩
  · rintro q i j s ⟨hrun, hsender⟩
    exact ⟨_, objectRead_denied hrun hsender, rfl⟩
  · rintro g v s ⟨hrun, hv, hrole⟩
    have hsender : s.termSender .operator = true := by unfold State.termSender; rw [hrole]; decide
    refine ⟨_, objectWrite_sender hrun hsender, ?_⟩
    rw [show (0x7840 : BitVec 16).toNat = 0x7840 from rfl, show (3 : BitVec 8).toNat = 3 from rfl,
      termWrite_tokens hv hrole]
    refine Eq.trans ?_ (sobj_setSobj_same s 0x7840 3 [v])
    simp only [State.sobj, State.elemDc, termReply, dieReply_same]
  · rintro q i j d s ⟨hrun, hsender⟩
    exact ⟨_, objectWrite_sender hrun hsender, rfl, termWrite_absent⟩
  · rintro q i j d s ⟨hrun, hsender⟩
    exact ⟨_, objectWrite_denied hrun hsender, rfl⟩
  · exact fun g m s hrun => ⟨_, die_next hrun rfl, rfl⟩
  · rintro q m s ⟨hrun, hrole⟩
    refine ⟨_, die_next hrun ?_, rfl⟩
    simp [hrole]
  · rintro d s ⟨hrun, hkey⟩
    exact ⟨_, die_next hrun (keyDigit_selects hkey), rfl⟩
  · rintro d s ⟨hrun, hkey⟩
    exact ⟨_, die_next hrun (keyDigit_takes hkey), rfl⟩
  · rintro d s ⟨hrun, hkey⟩
    exact ⟨_, rfl, die_idle (keyDigit_ignored hkey)⟩
  · rintro s ⟨hrun, hkey, hnum, hserves⟩
    exact ⟨_, die_next hrun ((keyAccept_select hkey).trans (if_pos (by simp [hnum, hserves]))), keyNotice_key _ _ _⟩
  · rintro s ⟨hrun, hkey, hno⟩
    refine ⟨_, die_next hrun ((keyAccept_select hkey).trans (if_neg ?_)), rfl⟩
    rcases hno with hno | hno
    · simp [Nat.not_lt.mpr hno]
    · simp [hno]
  · rintro s ⟨hrun, hkey, hlen⟩
    exact ⟨_, die_next hrun (keyAccept_token hkey hlen), rfl, rfl, rfl⟩
  · rintro s ⟨hrun, hkey⟩
    exact ⟨_, rfl, die_idle (keyAccept_ignored hkey)⟩
  · rintro s ⟨hrun, hkey⟩
    exact ⟨_, die_next hrun (if_pos hkey), rfl⟩
  · rintro s ⟨hrun, hkey⟩
    exact ⟨_, rfl, die_idle (if_neg hkey)⟩
  · rintro s ⟨hrun, hkey⟩
    exact ⟨_, die_next hrun (if_pos hkey), rfl⟩
  · rintro s ⟨hrun, hkey⟩
    exact ⟨_, rfl, die_idle (if_neg hkey)⟩
  · rintro s ⟨hrun, hkey, htok, hlock, hlt⟩
    exact ⟨_, die_next hrun ((if_neg (fun hne => hne hkey)).trans (if_pos (by rw [htok, hlock, hlt]; decide))), rfl⟩
  · rintro s ⟨hrun, hkey, hno⟩
    refine ⟨_, die_next hrun ((if_neg (fun hne => hne hkey)).trans (if_neg ?_)), rfl⟩
    rcases hno with hno | hno | hno <;> simp [hno]
  · rintro s ⟨hrun, hkey⟩
    exact ⟨_, rfl, die_idle (if_pos hkey)⟩
  · rintro s ⟨hrun, hkey⟩
    exact ⟨_, die_next hrun rfl, keyCancel_selection hkey⟩
  · rintro s ⟨hrun, hkey⟩
    exact ⟨_, die_next hrun (keyCancel_token hkey), rfl⟩
  · rintro s ⟨hrun, hkey⟩
    exact ⟨_, rfl, die_idle (keyCancel_idle hkey)⟩
  · rintro s ⟨hrun, hkey⟩
    exact ⟨_, die_next hrun rfl, keyCancel_selection hkey⟩
  · rintro s ⟨hrun, hkey⟩
    exact ⟨_, die_next hrun (keyCancel_token hkey), rfl⟩
  · rintro s ⟨hrun, hkey⟩
    exact ⟨_, rfl, die_idle (keyCancel_idle hkey)⟩
  · exact fun q m x y w k d s h => ⟨_, rfl, die_off h⟩
  · exact fun q m x y w k v s h => ⟨_, rfl, die_off h⟩
  · exact fun q m f l s h => ⟨_, rfl, die_off h⟩
  · exact fun q m i p n b s h => ⟨_, rfl, die_off h⟩
  · exact fun q i j s h => ⟨_, rfl, die_off h⟩
  · exact fun q i j d s h => ⟨_, rfl, die_off h⟩
  · exact fun q m s h => ⟨_, rfl, die_off h⟩
  · exact fun d s h => ⟨_, rfl, die_off h⟩
  · exact fun s h => ⟨_, rfl, die_off h⟩
  · exact fun s h => ⟨_, rfl, die_off h⟩
  · exact fun s h => ⟨_, rfl, die_off h⟩
  · exact fun s h => ⟨_, rfl, die_off h⟩
  · exact fun s h => ⟨_, rfl, die_off h⟩
  · exact fun s h => ⟨_, rfl, die_off h⟩

end Sys2Proof.Machine
end

section
/-!
SUPPORT. What a reader channel's ping, poll, exchange, blocks and register writes make of the channel; ReaderChannels.
-/
set_option Elab.async false
namespace Sys2Proof.Machine

/-- A ping while the channel pings and every field is off. -/
theorem readerPing_first {n : Nat} {a p : Int} {s : State} (hst : (s.rd n).st = .pinging) (hoff : s.power.fields = 0)
    (hbase : (s.rd n).base = none) :
    readerPing n a p s = s.updRd n fun r => { r with base := some (a, p, 0) } := by
  unfold readerPing
  dsimp only
  rw [if_neg (by simp [hst, hoff]), hbase]

theorem readerPing_next {n k : Nat} {a p b q : Int} {s : State} (hst : (s.rd n).st = .pinging)
    (hoff : s.power.fields = 0) (hbase : (s.rd n).base = some (b, q, k)) :
    readerPing n a p s = if pingDetects (s.rd n).cfg b q k a p then
        rdEvt n 0 (s.updRd n fun r => { r with st := .detected })
      else s.updRd n fun r => { r with base := some (15 * b + a * 16 ^ k, 15 * q + p * 16 ^ k, k + 1) } := by
  unfold readerPing
  dsimp only
  rw [if_neg (by simp [hst, hoff]), hbase]

/-- Several cards: the channel polls on and shows how many and the first four. -/
theorem pollCycle_many {n : Nat} {l : List CardId} {s : State} (h : 1 < (pollFinds (s.rd n).types l).length) :
    ((pollCycle n l s).rd n).st = .polling ∧ ((pollCycle n l s).rd n).card = none ∧
    ((pollCycle n l s).rd n).cards = min 15 (pollFinds (s.rd n).types l).length ∧
    ((pollCycle n l s).rd n).ids = (((pollFinds (s.rd n).types l).take 4).map idRecord).flatten := by
  unfold pollCycle
  dsimp only
  generalize pollFinds (s.rd n).types l = found at h
  match found, h with
  | c :: d :: rest, _ => simp [rd_evt, rd_upd]

/-- No card, less than the third time in a row: the channel polls on. -/
theorem pollCycle_empty {n : Nat} {l : List CardId} {s : State} (h : pollFinds (s.rd n).types l = [])
    (hfew : (s.rd n).empty < 2) :
    pollCycle n l s = s.updRd n fun r =>
      { r with empty := r.empty + 1, cards := 0, ids := [], card := none, st := .polling } := by
  unfold pollCycle
  simp only [h]
  exact if_neg (by omega)

/-- The third time: the field goes off and the baseline is forgotten. -/
theorem pollCycle_gone {n : Nat} {l : List CardId} {s : State} (h : pollFinds (s.rd n).types l = [])
    (hthird : 2 ≤ (s.rd n).empty) (hon : s.fieldIsOn n = true) (hxch : (s.rd n).xch = none) :
    ((pollCycle n l s).rd n).cards = 0 ∧ (pollCycle n l s).power.fields = putBit s.power.fields n false ∧
    ((pollCycle n l s).rd n).base = none := by
  unfold pollCycle
  simp only [h]
  rw [if_pos (by omega)]
  obtain ⟨hrd, hfields⟩ := rd_off n
    (s.updRd n fun r => { r with empty := r.empty + 1, cards := 0, ids := [], card := none, st := .polling }) hon
    ((congrArg Reader.xch (rd_upd _ _ _)).trans hxch)
  refine ⟨?_, ?_, ?_⟩
  · rw [rd_used, rd_upd, rd_evt, rd_evt, hrd, rd_upd]
  · refine Eq.trans ?_ hfields
    simp [rdEvt, State.updRd, State.used]
  · rw [rd_used, rd_upd]

theorem pollFinds_one_cards {n : Nat} {l : List CardId} {c : CardId} {s : State}
    (h : pollFinds (s.rd n).types l = [c]) :
    ((pollCycle n l s).rd n).st = .active ∧ ((pollCycle n l s).rd n).card = some c ∧
    ((pollCycle n l s).rd n).cards = 1 := by
  obtain ⟨hst, hcard, hcards, -, -⟩ := poll_one n l c s h
  exact ⟨hst, hcard, hcards⟩

/-- A complete response of at most 256 bytes is placed whole. -/
theorem xchDone_fits {n : Nat} {d : List Byte} {s : State} (h : d.length ≤ 256) :
    (xchDone n d s).rd n =
      { s.rd n with
        rx := d.zipIdx.foldl (fun b x => b.set x.2 x.1) (s.rd n).rx, rxlen := d.length, xch := none
        status := .ok, st := .active, evt := setEvt (s.rd n).evt 2 } := by
  unfold xchDone
  dsimp only
  rw [if_pos h, rd_xch, rd_upd, List.take_of_length_le h]

/-- Of a longer one the first 256 bytes are placed. -/
theorem xchDone_long {n : Nat} {d : List Byte} {s : State} (h : 256 < d.length) :
    ((xchDone n d s).rd n).xch = none ∧ ((xchDone n d s).rd n).status = .ok ∧ ((xchDone n d s).rd n).st = .active ∧
    ((xchDone n d s).rd n).rx = (d.take 256).zipIdx.foldl (fun b x => b.set x.2 x.1) (s.rd n).rx := by
  unfold xchDone
  dsimp only
  rw [if_neg (by omega), rd_used, rd_upd, rd_xch, rd_upd]
  exact ⟨rfl, rfl, rfl, rfl⟩

theorem cardBlock_none {n : Nat} {b : CardBlock} {s : State} (h : (s.rd n).xch = none) : cardBlock n b s = s := by
  unfold cardBlock
  simp only [h]

section
variable {n : Nat} {x : Xchg} {s : State} (h : (s.rd n).xch = some x)
include h

theorem cardBlock_chained (d : List Byte) :
    cardBlock n (.info d true) s =
      s.updRd n fun r => { r with xch := some { x with data := x.data ++ d, retries := 0, wtx := 1 } } := by
  unfold cardBlock
  simp only [h, ↓reduceIte]

theorem cardBlock_last (d : List Byte) : cardBlock n (.info d false) s = xchDone n (x.data ++ d) s := by
  unfold cardBlock
  simp only [h, Bool.false_eq_true, ↓reduceIte]

theorem cardBlock_ack :
    cardBlock n .ack s = s.updRd n fun r => { r with xch := some { x with retries := 0, wtx := 1 } } := by
  unfold cardBlock
  simp only [h]

theorem cardBlock_wtx (k : Nat) :
    cardBlock n (.wtx k) s = s.updRd n fun r => { r with xch := some { x with retries := 0, wtx := k } } := by
  unfold cardBlock
  simp only [h]

theorem cardBlock_bad : cardBlock n .bad s = xchBad n x s := by
  unfold cardBlock
  simp only [h]

end

/-- A bad block is retried twice. -/
theorem xchBad_retry {n : Nat} {x : Xchg} {s : State} (h : x.retries < 2) :
    xchBad n x s = s.updRd n fun r => { r with xch := some { x with retries := x.retries + 1, wtx := 1 } } :=
  if_pos h

/-- Then the exchange is repeated once in full. -/
theorem xchBad_full {n : Nat} {x : Xchg} {s : State} (h : 2 ≤ x.retries) (hfull : x.full = false) :
    xchBad n x s = s.updRd n fun r => { r with xch := some { cmd := x.cmd, full := true } } :=
  (if_neg (by omega)).trans (if_pos (by simp [hfull]))

/-- Then it ends with INTEGRITY. -/
theorem xchBad_ends {n : Nat} {x : Xchg} {s : State} (h : 2 ≤ x.retries) (hfull : x.full = true) :
    xchBad n x s = xchEnd n .integrity s :=
  (if_neg (by omega)).trans (if_neg (by simp [hfull]))

theorem readerExchange_starts {n : Nat} {s : State} (hon : s.fieldIsOn n = true) (hst : (s.rd n).st = .active)
    (hcard : (s.rd n).card ≠ none) (hxch : (s.rd n).xch = none) :
    readerExchange n s = s.updRd n fun r =>
      { r with st := .exchange, xch := some { cmd := (List.range (min 256 r.txlen)).map r.tx.get } } :=
  (if_neg (by simp [hxch])).trans (if_pos (by simp [hon, hst, Option.isSome_iff_ne_none, hcard]))

theorem readerExchange_state {n : Nat} {s : State}
    (hno : ¬ (s.fieldIsOn n = true ∧ (s.rd n).st = .active ∧ (s.rd n).card ≠ none)) (hxch : (s.rd n).xch = none) :
    readerExchange n s = rdEvt n 2 (s.updRd n fun r => { r with status := .state }) :=
  (if_neg (by simp [hxch])).trans (if_neg (fun h => hno (by simpa [Option.isSome_iff_ne_none, and_assoc] using h)))

/-- A change of mode with the field on is refused with its event. -/
theorem readerModeWrite_refused {n : Nat} {v : Word} {s : State} (hon : s.fieldIsOn n = true) (hfld : fld v 0 2 ≠ 3)
    (hmode : fld v 0 2 ≠ (s.rd n).mode) :
    readerModeWrite n v s = rdEvt n 8 (s.updRd n fun r => { r with txlen := fld v 16 9 }) := by
  unfold readerModeWrite
  dsimp only
  rw [if_neg hfld, if_neg (by simp [hmode]), if_pos hon]

/-- The detection mode of a channel that was off starts pinging. -/
theorem readerModeWrite_detects {n : Nat} {v : Word} {s : State} (hoff : s.fieldIsOn n = false) (hfld : fld v 0 2 = 1)
    (hmode : (s.rd n).mode = 0) (hopen : (s.rd n).openT = false) :
    (readerModeWrite n v s).rd n =
      { s.rd n with
        txlen := fld v 16 9, types := BitVec.ofNat 2 (fld v 2 2), mode := 1, st := .pinging, base := none, empty := 0
        card := none, ext := false, activated := false, appSel := false, file := none } := by
  have hset : readerModeWrite n v s = readerMode n 1 ((s.updRd n fun r => { r with txlen := fld v 16 9 }).updRd n
      fun r => { r with types := BitVec.ofNat 2 (fld v 2 2) }) := by
    unfold readerModeWrite
    simp [hfld, hmode, hoff]
  rw [hset]
  unfold readerMode
  rw [tagClose, if_pos (by simp [rd_upd, hopen])]
  simp only [rd_upd]
  rfl

/-- Settles O46: a ping by `readerPing_first` and `readerPing_next`, a poll by what it finds (`poll_one`,
`pollCycle_many`, `pollCycle_empty`, `pollCycle_gone`), a block by its kind and what came before it, the register
writes over the power die's window by `powerWrite_ok`. -/
theorem readerChannels : Obligations.ReaderChannels := by
  unfold Obligations.ReaderChannels
  refine ⟨?_, ?_, ?_, ?_, ?_, ?_, ?_, ?_, ?_, ?_, ?_, ?_, ?_, ?_, ?_, ?_, ?_, ?_, ?_, ?_, ?_, ?_, ?_, ?_, ?_, ?_, ?_,
    ?_, ?_, ?_, ?_, ?_, ?_, ?_, ?_, ?_, ?_, ?_, ?_, ?_, ?_, ?_, ?_, ?_, ?_, ?_, ?_, ?_, ?_⟩
  · rintro n a p s ⟨hst, hoff, hbase⟩
    refine ⟨_, congrArg Host.Outcome.next (readerPing_first hst hoff hbase), ?_⟩
    rw [rd_upd]
  · rintro n a p b q k s ⟨hst, hoff, hbase⟩
    refine ⟨_, congrArg Host.Outcome.next (readerPing_next hst hoff hbase), ?_⟩
    split
    · rw [rd_evt, rd_upd]
      exact ⟨rfl, rfl⟩
    · rw [rd_upd]
  · intro n a p s h
    exact ⟨_, rfl, if_pos (by simpa using h)⟩
  · rintro n l c s ⟨hon, hst, hone⟩
    refine ⟨_, congrArg Host.Outcome.next (if_pos ?_), poll_one n l c s hone⟩
    simpa [hon] using hst
  · rintro n l s ⟨hon, hst, hmany⟩
    refine ⟨_, congrArg Host.Outcome.next (if_pos ?_), pollCycle_many hmany⟩
    simpa [hon] using hst
  · rintro n l s ⟨hon, hst, hnone, hxch⟩
    refine ⟨pollCycle n l s, congrArg Host.Outcome.next (if_pos (by simpa [hon] using hst)), ?_⟩
    by_cases hfew : (s.rd n).empty < 2
    · rw [if_pos hfew, pollCycle_empty hnone hfew, rd_upd]
      exact ⟨rfl, rfl, rfl⟩
    · obtain ⟨hcards, hfields, hbase⟩ := pollCycle_gone hnone (Nat.not_lt.mp hfew) hon hxch
      rw [if_neg hfew]
      exact ⟨hcards, hfields, hbase⟩
  · rintro n l s ⟨hon, hst⟩
    exact ⟨_, congrArg Host.Outcome.next (if_pos (by simpa [hon] using hst)), rfl⟩
  · intro n l s h
    exact ⟨_, congrArg Host.Outcome.next (if_neg (fun hyes => h (by simpa using hyes))), rfl⟩
  · rintro n l c s ⟨hon, hcards, hxch, hone⟩
    exact ⟨_, congrArg Host.Outcome.next (if_pos (by simp [hon, hcards, hxch])), pollFinds_one_cards hone⟩
  · rintro n l s ⟨hon, hcards, hxch⟩
    exact ⟨_, congrArg Host.Outcome.next (if_pos (by simp [hon, hcards, hxch])), rfl⟩
  · intro n l s h
    exact ⟨_, congrArg Host.Outcome.next (if_neg (fun hyes => h (by simpa [and_assoc] using hyes))), rfl⟩
  · rintro n s ⟨hon, hxch⟩
    obtain ⟨hrd, hfields⟩ := rd_off n s hon hxch
    refine ⟨_, congrArg Host.Outcome.next (if_pos (by simp [hon, hxch])), ?_⟩
    rw [rd_evt, hrd]
    refine ⟨Eq.trans ?_ hfields, rfl, rfl⟩
    simp [rdEvt, State.updRd]
  · intro n s h
    refine ⟨_, congrArg Host.Outcome.next (if_neg ?_), rfl⟩
    rcases h with h | h <;> simp [h]
  · rintro n s ⟨hlane, hclk, hon, hst, hcard, hxch⟩
    refine ⟨_, congrArg Host.Outcome.next (powerWrite_ok _ s hlane hclk), ?_⟩
    rw [rd_busOk, readerExchange_starts hon hst hcard hxch, rd_upd]
    exact ⟨rfl, rfl⟩
  · rintro n s ⟨hlane, hclk, hno, hxch⟩
    refine ⟨_, congrArg Host.Outcome.next (powerWrite_ok _ s hlane hclk), ?_⟩
    rw [rd_busOk, readerExchange_state hno hxch, rd_evt, rd_upd]
    exact ⟨rfl, rfl, hxch⟩
  · rintro n s ⟨hlane, hclk, hxch⟩
    exact ⟨_, rfl, (powerWrite_ok _ s hlane hclk).trans
      (congrArg (busOk 0) (if_pos (Option.isSome_iff_ne_none.mpr hxch)))⟩
  · rintro n s ⟨hlane, hclk, hxch⟩
    refine ⟨_, congrArg Host.Outcome.next (powerWrite_ok _ s hlane hclk), ?_⟩
    rw [rd_busOk, readerAbort, if_pos (Option.isSome_iff_ne_none.mpr hxch), rd_xch]
    exact ⟨rfl, rfl, rfl, rfl⟩
  · rintro n s ⟨hlane, hclk, hxch, hst⟩
    refine ⟨_, congrArg Host.Outcome.next (powerWrite_ok _ s hlane hclk), ?_⟩
    rw [rd_busOk, readerAbort, if_neg (by simp [hxch]), if_pos (by simpa using hst), rd_evt, rd_upd]
    exact ⟨rfl, rfl, rfl⟩
  · rintro n s ⟨hlane, hclk, hxch, hwait, hpoll⟩
    exact ⟨_, rfl, (powerWrite_ok _ s hlane hclk).trans
      (congrArg (busOk 0) ((if_neg (by simp [hxch])).trans (if_neg (by simp [hwait, hpoll]))))⟩
  · rintro n s ⟨hlane, hclk, hon, hxch⟩
    refine ⟨_, congrArg Host.Outcome.next (powerWrite_ok _ s hlane hclk), ?_⟩
    rw [rd_busOk, readerPoll, if_pos (by simp [hon, hxch]), rd_upd]
    exact ⟨rfl, rfl⟩
  · rintro n s ⟨hlane, hclk, h⟩
    refine ⟨_, rfl, (powerWrite_ok _ s hlane hclk).trans (congrArg (busOk 0) (if_neg ?_))⟩
    rcases h with h | h <;> simp [h]
  · rintro n s ⟨hlane, hclk, hon⟩
    exact ⟨_, congrArg Host.Outcome.next (powerWrite_ok _ s hlane hclk), off_fields n s hon⟩
  · rintro n s ⟨hlane, hclk, hoff⟩
    exact ⟨_, rfl, (powerWrite_ok _ s hlane hclk).trans (congrArg (busOk 0) (if_pos (by simp [hoff])))⟩
  · rintro n v s ⟨hlane, hclk⟩
    exact ⟨_, rfl, powerWrite_ok _ s hlane hclk⟩
  · rintro n v s ⟨hlane, hclk, hoff, hfld, hmode, hopen⟩
    refine ⟨_, congrArg Host.Outcome.next (powerWrite_ok _ s hlane hclk), ?_⟩
    rw [rd_busOk, readerModeWrite_detects hoff hfld hmode hopen]
    exact ⟨rfl, rfl, rfl, rfl, rfl⟩
  · rintro n v s ⟨hlane, hclk, hon, hfld, hmode⟩
    refine ⟨_, congrArg Host.Outcome.next (powerWrite_ok _ s hlane hclk), ?_⟩
    rw [rd_busOk, readerModeWrite_refused hon hfld hmode, rd_evt, rd_upd]
    exact ⟨rfl, rfl, rfl⟩
  · intro n d x s h
    refine ⟨_, congrArg Host.Outcome.next (cardBlock_chained h d), ?_⟩
    rw [rd_upd]
  · rintro n d x s ⟨h, hlen⟩
    refine ⟨_, congrArg Host.Outcome.next (cardBlock_last h d), ?_⟩
    rw [xchDone_fits hlen]
    exact ⟨rfl, rfl, rfl, rfl, rfl⟩
  · rintro n d x s ⟨h, hlen⟩
    exact ⟨_, congrArg Host.Outcome.next (cardBlock_last h d), xchDone_long hlen⟩
  · exact fun n x s h => ⟨_, rfl, cardBlock_bad h⟩
  · exact fun n s h => ⟨_, rfl, cardBlock_none h⟩
  · intro n x s h
    refine ⟨_, congrArg Host.Outcome.next (cardBlock_ack h), ?_⟩
    rw [rd_upd]
  · intro n x k s h
    refine ⟨_, congrArg Host.Outcome.next (cardBlock_wtx h k), ?_⟩
    rw [rd_upd]
  · exact fun n b s h => ⟨_, rfl, cardBlock_none h⟩
  · rintro n x s ⟨h, hretry⟩
    refine ⟨_, congrArg Host.Outcome.next ((cardBlock_bad h).trans (xchBad_retry hretry)), ?_⟩
    rw [rd_upd]
  · rintro n x s ⟨h, hretry, hfull⟩
    refine ⟨_, congrArg Host.Outcome.next ((cardBlock_bad h).trans (xchBad_full hretry hfull)), ?_⟩
    rw [rd_upd]
  · rintro n x s ⟨h, hretry, hfull⟩
    refine ⟨_, congrArg Host.Outcome.next ((cardBlock_bad h).trans (xchBad_ends hretry hfull)), ?_⟩
    rw [rd_xch]
    exact ⟨rfl, rfl, rfl⟩
  · intro n s h
    refine ⟨_, congrArg Host.Outcome.next (if_pos (Option.isSome_iff_ne_none.mpr h)), ?_⟩
    rw [rd_xch]
    exact ⟨rfl, rfl, rfl⟩
  · exact fun n s h => ⟨_, rfl, if_neg (by simp [h])⟩
  · exact fun n s h => ⟨_, rfl, (pw_down _ s).1 h⟩
  · exact fun n s h => ⟨_, rfl, (pw_down _ s).2 h.1 h.2⟩
  · exact fun n s h => ⟨_, rfl, (pw_down _ s).1 h⟩
  · exact fun n s h => ⟨_, rfl, (pw_down _ s).2 h.1 h.2⟩
  · exact fun n s h => ⟨_, rfl, (pw_down _ s).1 h⟩
  · exact fun n s h => ⟨_, rfl, (pw_down _ s).2 h.1 h.2⟩
  · exact fun n s h => ⟨_, rfl, (pw_down _ s).1 h⟩
  · exact fun n s h => ⟨_, rfl, (pw_down _ s).2 h.1 h.2⟩
  · exact fun n v s h => ⟨_, rfl, (pw_down _ s).1 h⟩
  · exact fun n v s h => ⟨_, rfl, (pw_down _ s).2 h.1 h.2⟩

end Sys2Proof.Machine
end

section
/-!
SUPPORT. What an emulated tag answers to the reader in its field, and how its banks are exchanged; TagEmulation.
-/
set_option Elab.async false
namespace Sys2Proof.Machine

/-- A channel that closes its transaction keeps everything but the transaction and its events. -/
theorem tagClose_rd (n : Nat) (s : State) :
    ((tagClose n s).rd n).openT = false ∧ ((tagClose n s).rd n).appSel = (s.rd n).appSel ∧
    ((tagClose n s).rd n).halt = (s.rd n).halt ∧ ((tagClose n s).rd n).file = (s.rd n).file := by
  obtain ⟨e, h⟩ := close_rd n s
  rw [h]
  exact ⟨rfl, rfl, rfl, rfl⟩

theorem tagEntry_rd {n : Nat} {s : State} (h : (s.rd n).mode = 2) :
    ((tagEntry n s).rd n).ext = true ∧ ((tagEntry n s).rd n).activated = false ∧
    ((tagEntry n s).rd n).appSel = false ∧ ((tagEntry n s).rd n).file = none := by
  unfold tagEntry
  rw [if_neg (fun hne => hne h)]
  dsimp only
  rw [rd_used, rd_upd]
  exact ⟨rfl, rfl, rfl, rfl⟩

theorem low_byte_08 (f : BitVec 32) : ((f &&& 0xFFFFFF00) ||| 0x08).setWidth 8 = 8 := by
  rw [BitVec.setWidth_or, BitVec.setWidth_and, show (0xFFFFFF00 : BitVec 32).setWidth 8 = 0#8 from rfl, BitVec.and_zero,
    BitVec.zero_or]
  rfl

/-- The identity of a type A tag begins with 08h. -/
theorem tagEntry_typeA {n k : Nat} {s : State} (h : (s.rd n).mode = 2) (hslot : s.slotOfChannel n = some k)
    (htype : (s.tag k).typeB = false) : ((tagEntry n s).rd n).uid.setWidth 8 = 8 := by
  unfold tagEntry
  rw [if_neg (fun hne => hne h), hslot]
  dsimp only
  rw [rd_used, rd_upd, if_neg (by simp [htype])]
  exact low_byte_08 _

/-- A tag in a field closes its transaction and answers by its type. -/
theorem tagAct_heard {n k : Nat} {c : TagAct} {s : State} (h : s.tagHears n = some k) :
    tagAct n c s = if (s.tag k).typeB then tagActB n c (tagClose n s) else tagActA n c (tagClose n s) := by
  unfold tagAct
  simp only [h]

theorem tagAct_typeA {n k : Nat} {c : TagAct} {s : State} (h : s.tagHears n = some k)
    (htype : (s.tag k).typeB = false) : tagAct n c s = tagActA n c (tagClose n s) :=
  (tagAct_heard h).trans (if_neg (by simp [htype]))

theorem tagAct_typeB {n k : Nat} {c : TagAct} {s : State} (h : s.tagHears n = some k)
    (htype : (s.tag k).typeB = true) : tagAct n c s = tagActB n c (tagClose n s) :=
  (tagAct_heard h).trans (if_pos htype)

theorem tagAct_unheard {n : Nat} {c : TagAct} {s : State} (h : s.tagHears n = none) : tagAct n c s = s := by
  unfold tagAct
  simp only [h]

theorem tagSelect_unknown {n : Nat} {f : TagFile} {s : State} (hactive : s.tagActive n = true)
    (h : f = .unknown ∨ (f ≠ .app ∧ (s.rd n).appSel = false)) : tagSelect n f s = freeSw n (tagClose n s) := by
  unfold tagSelect
  rw [if_neg (by simp [hactive])]
  rcases h with rfl | ⟨happ, hsel⟩
  · rfl
  · cases f with
    | app => exact absurd rfl happ
    | unknown => rfl
    | cc => exact if_neg (by simp [hsel])
    | ndef => exact if_neg (by simp [hsel])

/-- The application is selected without a file. -/
theorem tagSelect_app {n : Nat} {s : State} (hactive : s.tagActive n = true) :
    tagSelect n .app s = tagAnswer n (some [0x90, 0x00])
      ((tagClose n s).updRd n fun r => { r with appSel := true, file := none }) :=
  if_neg (by simp [hactive])

section
variable {n : Nat} {s : State} (hactive : s.tagActive n = true) (hsel : (s.rd n).appSel = true)
include hactive hsel

/-- A file selected within the application opens a transaction. -/
theorem tagSelect_cc : tagSelect n .cc s = tagAnswer n (some [0x90, 0x00])
    ((tagClose n s).updRd n fun r => { r with file := some 1, openT := true }) :=
  (if_neg (by simp [hactive])).trans (if_pos hsel)

theorem tagSelect_ndef : tagSelect n .ndef s = tagAnswer n (some [0x90, 0x00])
    ((tagClose n s).updRd n fun r => { r with file := some 2, openT := true }) :=
  (if_neg (by simp [hactive])).trans (if_pos hsel)

end

theorem tagActive_iff {n : Nat} {s : State} :
    s.tagActive n = true ↔ ∃ k, s.tagHears n = some k ∧ (s.rd n).activated = true := by
  unfold State.tagActive
  rw [Bool.and_eq_true, Option.isSome_iff_exists]
  exact exists_and_right.symm

/-- An activated tag reads its selected file from the offset. -/
theorem tagRead_file {n o l k : Nat} {f : List Byte} {s : State} (h : s.tagHears n = some k)
    (hact : (s.rd n).activated = true) (hfile : s.tagFile n k = some f) :
    tagRead n o l s =
      tagAnswer n (some (if f.length ≤ o then [0x6B, 0x00] else (f.drop o).take l ++ [0x90, 0x00])) s := by
  unfold tagRead
  simp only [h, hfile]
  exact if_neg (by simp [hact])

theorem tagRead_unselected {n o l : Nat} {s : State} (hactive : s.tagActive n = true) (hfile : (s.rd n).file = none) :
    tagRead n o l s = tagAnswer n (some [0x69, 0x86]) s := by
  obtain ⟨k, h, hact⟩ := tagActive_iff.mp hactive
  unfold tagRead
  simp only [h, State.tagFile, hfile, Option.map_none]
  exact if_neg (by simp [hact])

theorem tagRead_inactive {n o l : Nat} {s : State} (h : s.tagActive n = false) : tagRead n o l s = s := by
  unfold tagRead
  cases hears : s.tagHears n with
  | none => rfl
  | some k => exact if_pos (by simpa [State.tagActive, hears] using h)

/-- An activated tag answers another command with its transaction closed. -/
theorem tagOther_rd {n : Nat} {a : List Byte} {s : State} (hactive : s.tagActive n = true) :
    ((tagOther n a s).rd n).ans = some a ∧ ((tagOther n a s).rd n).openT = false := by
  obtain ⟨hopen, -, -, -⟩ := tagClose_rd n s
  unfold tagOther
  rw [if_neg (by simp [hactive]), rd_ans]
  exact ⟨rfl, hopen⟩

theorem tagOtherCommand_deselect {n : Nat} {s : State} (hactive : s.tagActive n = true) :
    tagOtherCommand n true s =
      (tagOther n [0xC2] s).updRd n fun r => { r with activated := false, appSel := false, file := none } :=
  (if_neg (by simp [hactive])).trans (if_pos rfl)

theorem tagOtherCommand_unknown {n : Nat} {s : State} (hactive : s.tagActive n = true) :
    tagOtherCommand n false s = tagOther n [0x6D, 0x00] s :=
  (if_neg (by simp [hactive])).trans (if_neg (by decide))

/-- The slot of a control write: its length, and for a slot that is enabled its type and channel as they were. -/
def tagSet (v : Word) (t : TagSlot) : TagSlot :=
  { t with
    len := if within 2 (fld v 16 11) 1024 then fld v 16 11 else t.len
    typeB := if t.en then t.typeB else bit v 13
    channel := if t.en then t.channel else fld v 0 4
    wrErr := t.wrErr && !bit v 12, en := bit v 8 }

theorem tagCtlWrite_eq (k : Nat) (v : Word) (s : State) :
    tagCtlWrite k v s =
      if !bit v 9 then s.updTag k (tagSet v)
      else if (s.tag k).pending then (s.updTag k (tagSet v)).updTag k fun t => { t with wrErr := true }
      else if ((s.updTag k (tagSet v)).updTag k fun t => { t with pending := true, lenNext := t.len }).tagOpen k then
        (s.updTag k (tagSet v)).updTag k fun t => { t with pending := true, lenNext := t.len }
      else tagSwap k ((s.updTag k (tagSet v)).updTag k fun t => { t with pending := true, lenNext := t.len }) := rfl

/-- The COMMIT bit is set in what the register takes. -/
theorem bit_commit (v : Word) : bit (v ||| 0x200) 9 = true ∧ bit (v ||| 0x200) 8 = bit v 8 := by
  simp [bit]

/-- A COMMIT while a swap is pending sets WR_ERR. -/
theorem tagCommit_pending {k : Nat} {v : Word} {s : State} (h : (s.tag k).pending = true) :
    (tagCtlWrite k (v ||| 0x200) s).tag k = { tagSet (v ||| 0x200) (s.tag k) with wrErr := true } := by
  obtain ⟨hcommit, -⟩ := bit_commit v
  rw [tagCtlWrite_eq, if_neg (by rw [hcommit]; decide), if_pos h, tag_upd, tag_upd]

/-- With a transaction open it waits. -/
theorem tagCommit_waits {k : Nat} {v : Word} {s : State} (hpend : (s.tag k).pending = false) (hen : (s.tag k).en = true)
    (hbit : bit v 8 = true) (hopen : (s.rd (s.tag k).channel).openT = true) :
    (tagCtlWrite k (v ||| 0x200) s).tag k =
      { tagSet (v ||| 0x200) (s.tag k) with pending := true, lenNext := (tagSet (v ||| 0x200) (s.tag k)).len } := by
  obtain ⟨hcommit, henable⟩ := bit_commit v
  have hset : ((s.updTag k (tagSet (v ||| 0x200))).updTag k fun t => { t with pending := true, lenNext := t.len }).tag k =
      { tagSet (v ||| 0x200) (s.tag k) with pending := true, lenNext := (tagSet (v ||| 0x200) (s.tag k)).len } := by
    rw [tag_upd, tag_upd]
  have hsees : ((s.updTag k (tagSet (v ||| 0x200))).updTag k
      fun t => { t with pending := true, lenNext := t.len }).tagOpen k = true := by
    unfold State.tagOpen
    rw [hset]
    dsimp only [tagSet]
    rw [henable, hbit, if_pos hen]
    exact hopen
  rw [tagCtlWrite_eq, if_neg (by rw [hcommit]; decide), if_neg (by simp [hpend]), if_pos hsees, hset]

/-- Without one it exchanges the banks at once. -/
theorem tagCommit_swaps {k : Nat} {v : Word} {s : State} (hpend : (s.tag k).pending = false) (hen : (s.tag k).en = true)
    (hopen : (s.rd (s.tag k).channel).openT = false) :
    (tagCtlWrite k (v ||| 0x200) s).tag k =
      { tagSet (v ||| 0x200) (s.tag k) with
        lenNext := (tagSet (v ||| 0x200) (s.tag k)).len, bank := !(s.tag k).bank
        lenAct := (tagSet (v ||| 0x200) (s.tag k)).len, pending := false } := by
  obtain ⟨hcommit, -⟩ := bit_commit v
  have hset : ((s.updTag k (tagSet (v ||| 0x200))).updTag k fun t => { t with pending := true, lenNext := t.len }).tag k =
      { tagSet (v ||| 0x200) (s.tag k) with pending := true, lenNext := (tagSet (v ||| 0x200) (s.tag k)).len } := by
    rw [tag_upd, tag_upd]
  have hsees : ((s.updTag k (tagSet (v ||| 0x200))).updTag k
      fun t => { t with pending := true, lenNext := t.len }).tagOpen k = false := by
    unfold State.tagOpen
    rw [hset]
    dsimp only [tagSet]
    rw [if_pos hen]
    exact Bool.and_eq_false_iff.mpr (.inr hopen)
  rw [tagCtlWrite_eq, if_neg (by rw [hcommit]; decide), if_neg (by simp [hpend]), if_neg (by rw [hsees]; decide),
    swap_tag _ _ (congrArg TagSlot.pending hset), hset]
  rfl

theorem tagSet_len {v : Word} {t : TagSlot} (h : within 2 (fld v 16 11) 1024 = true) :
    (tagSet (v ||| 0x200) t).len = fld v 16 11 := by
  dsimp only [tagSet]
  rw [show fld (v ||| 0x200) 16 11 = fld v 16 11 from fld_or v, if_pos h]

theorem tagForced_swaps {k : Nat} {s : State} (hpend : (s.tag k).pending = true) (hopen : s.tagOpen k = true) :
    tagForced k s = tagClose (s.tag k).channel (s.updRd (s.tag k).channel fun r => { r with file := none }) :=
  if_neg (by simp [hpend, hopen])

/-- Settles O47: activation and commands of a tag in its field by `tagAct_heard` and the equations of each command, the
exchange of banks by `close_swap`, `tagCommit_pending`, `tagCommit_waits` and `tagCommit_swaps`. -/
theorem tagEmulation : Obligations.TagEmulation := by
  unfold Obligations.TagEmulation
  refine ⟨?_, ?_, ?_, ?_, ?_, ?_, ?_, ?_, ?_, ?_, ?_, ?_, ?_, ?_, ?_, ?_, ?_, ?_, ?_, ?_, ?_, ?_, ?_, ?_, ?_, ?_, ?_,
    ?_, ?_, ?_, ?_, ?_, ?_, ?_⟩
  · exact fun n s h => ⟨_, rfl, tagEntry_rd h⟩
  · rintro n k s ⟨hmode, hslot, htype⟩
    exact ⟨_, rfl, tagEntry_typeA hmode hslot htype⟩
  · exact fun n s h => ⟨_, rfl, if_pos h⟩
  · rintro n k s ⟨h, htype⟩
    refine ⟨_, congrArg Host.Outcome.next (tagAct_typeA h htype), ?_⟩
    rw [tagActA, rd_ans]
  · rintro n k s ⟨h, htype⟩
    obtain ⟨hopen, -, -, -⟩ := tagClose_rd n s
    refine ⟨_, congrArg Host.Outcome.next (tagAct_typeA h htype), ?_⟩
    rw [tagActA, rd_ans, rd_upd]
    exact ⟨rfl, rfl, hopen⟩
  · rintro n k s ⟨h, htype, hhalt⟩
    obtain ⟨-, -, hkept, -⟩ := tagClose_rd n s
    refine ⟨_, congrArg Host.Outcome.next (tagAct_typeB h htype), ?_⟩
    rw [tagActB, if_pos (by simp [hkept, hhalt]), rd_ans, rd_upd]
    exact ⟨rfl, rfl⟩
  · exact fun n c k s h => ⟨_, rfl, tagAct_heard h⟩
  · exact fun n c s h => ⟨_, rfl, tagAct_unheard h⟩
  · intro n s hactive
    obtain ⟨hopen, -, -, -⟩ := tagClose_rd n s
    refine ⟨_, congrArg Host.Outcome.next (tagSelect_app hactive), ?_⟩
    rw [rd_ans, rd_upd]
    exact ⟨rfl, rfl, rfl, hopen⟩
  · rintro n s ⟨hactive, hsel⟩
    refine ⟨_, congrArg Host.Outcome.next (tagSelect_cc hactive hsel), ?_⟩
    rw [rd_ans, rd_upd]
    exact ⟨rfl, rfl, rfl⟩
  · rintro n s ⟨hactive, hsel⟩
    refine ⟨_, congrArg Host.Outcome.next (tagSelect_ndef hactive hsel), ?_⟩
    rw [rd_ans, rd_upd]
    exact ⟨rfl, rfl, rfl⟩
  · rintro n f s ⟨hactive, h⟩
    exact ⟨_, rfl, tagSelect_unknown hactive h⟩
  · exact fun n f s h => ⟨_, rfl, if_pos (by simp [h])⟩
  · exact fun n o l s h => ⟨_, rfl, tagRead_inactive h⟩
  · exact fun n s h => ⟨_, rfl, if_pos (by simp [h])⟩
  · exact fun n b s h => ⟨_, rfl, if_pos (by simp [h])⟩
  · exact fun n s h => ⟨_, rfl, if_pos h⟩
  · intro n s
    obtain ⟨hopen, -, -, -⟩ := tagClose_rd n s
    exact ⟨_, rfl, hopen⟩
  · rintro k v s ⟨hlane, hclk, hpend, hen, hbit, hopen, hlen⟩
    refine ⟨_, congrArg Host.Outcome.next (powerWrite_ok _ s hlane hclk), ?_⟩
    rw [tag_busOk, tagCommit_waits hpend hen hbit hopen]
    exact ⟨rfl, tagSet_len hlen, rfl⟩
  · rintro k v s ⟨hlane, hclk⟩
    exact ⟨_, rfl, powerWrite_ok _ s hlane hclk⟩
  · rintro k s ⟨hpend, hopen⟩
    exact ⟨_, rfl, tagForced_swaps hpend hopen⟩
  · rintro n o l k f s ⟨h, hact, hfile⟩
    refine ⟨_, congrArg Host.Outcome.next (tagRead_file h hact hfile), ?_⟩
    rw [rd_ans]
  · rintro n o l s ⟨hactive, hfile⟩
    refine ⟨_, congrArg Host.Outcome.next (tagRead_unselected hactive hfile), ?_⟩
    rw [rd_ans]
  · exact fun n s hactive => ⟨_, rfl, tagOther_rd hactive⟩
  · intro n s hactive
    obtain ⟨hans, hopen⟩ := tagOther_rd (a := [0xC2]) hactive
    refine ⟨_, congrArg Host.Outcome.next (tagOtherCommand_deselect hactive), ?_⟩
    rw [rd_upd]
    exact ⟨rfl, hans, hopen⟩
  · exact fun n s hactive => ⟨_, congrArg Host.Outcome.next (tagOtherCommand_unknown hactive), tagOther_rd hactive⟩
  · intro n s hmode
    obtain ⟨hopen, -, -, -⟩ := tagClose_rd n s
    refine ⟨_, congrArg Host.Outcome.next (if_neg (fun hne => hne hmode)), ?_⟩
    rw [rd_upd]
    exact ⟨rfl, rfl, hopen, rfl⟩
  · rintro n k s ⟨hopen, hslot, hpend⟩
    obtain ⟨hclosed, -, -, -⟩ := tagClose_rd n s
    refine ⟨tagClose n s, rfl, hclosed, ?_⟩
    rw [close_swap n k s hopen hslot hpend]
    exact ⟨rfl, rfl, rfl⟩
  · rintro k v s ⟨hlane, hclk, hpend⟩
    refine ⟨_, congrArg Host.Outcome.next (powerWrite_ok _ s hlane hclk), ?_⟩
    rw [tag_busOk, tagCommit_pending hpend]
    exact ⟨rfl, hpend, rfl⟩
  · rintro k v s ⟨hlane, hclk, hpend, hen, hopen, hlen⟩
    refine ⟨_, congrArg Host.Outcome.next (powerWrite_ok _ s hlane hclk), ?_⟩
    rw [tag_busOk, tagCommit_swaps hpend hen hopen]
    exact ⟨rfl, tagSet_len hlen, rfl⟩
  · rintro k s ⟨hpend, hopen, hslot⟩
    have hrd := congrArg Reader.openT (rd_upd s (s.tag k).channel fun r => { r with file := none })
    have hopenT : (s.rd (s.tag k).channel).openT = true := (Bool.and_eq_true_iff.mp hopen).2
    obtain ⟨hclosed, -, -, hfile⟩ := tagClose_rd (s.tag k).channel
      (s.updRd (s.tag k).channel fun r => { r with file := none })
    refine ⟨_, congrArg Host.Outcome.next (tagForced_swaps hpend hopen), ?_⟩
    rw [close_swap _ k.val _ (hrd.trans hopenT) hslot hpend, hclosed, hfile, rd_upd]
    exact ⟨rfl, rfl, rfl, rfl, rfl⟩
  · rintro k s h
    refine ⟨_, rfl, if_pos ?_⟩
    rcases h with h | h <;> simp [h]
  · exact fun k v s h => ⟨_, rfl, (pw_down _ s).1 h⟩
  · exact fun k v s h => ⟨_, rfl, (pw_down _ s).2 h.1 h.2⟩

end Sys2Proof.Machine
end

section
/-!
SUPPORT. What a hart's instruction, a trap, an interrupt and an access of the debug module make of its registers;
HartInstructions.
-/
set_option Elab.async false
namespace Sys2Proof.Machine

/-! ### Registers of a hart -/

theorem core_updCore (h : Nat) (f : Hart → Hart) (s : State) : (s.updCore h f).core h = f (s.core h) := by
  unfold State.updCore State.core
  split <;> simp

/-- A change of the registers of a hart or of its context that keeps whether it is halted. -/
theorem halted_updHart {h : Nat} {f : Hart → Hart} {s : State} (hf : ∀ r, (f r).halted = r.halted) :
    ((s.updHart h f).core h).halted = (s.core h).halted := by
  unfold State.updHart State.core
  by_cases h14 : h = 14
  · rw [if_pos h14, if_pos h14, if_pos h14]
    exact hf _
  · rw [if_neg h14, if_neg h14, if_neg h14]
    cases s.hartSlot h with
    | none => exact (congrArg Hart.halted (Bank.get_upd_same _ _ _)).trans (hf _)
    | some k => rfl

theorem get_put (r : Hart) (i : Nat) (v : Dword) (k : Nat) :
    (r.put i v).get k = if k = i ∧ k ≠ 0 then v else r.get k := by
  unfold Hart.put Hart.get
  by_cases hk : k = 0
  · simp [hk]
  · by_cases hi : i = 0
    · simp [hi, hk]
    · by_cases he : i = k
      · simp [hk, he]
      · rw [if_neg hi, if_neg hk, if_neg (fun hc => he hc.1.symm), if_neg hk]
        exact Bank.get_set_other _ _ he

/-- The cycles of an instruction count in mcycle and nowhere else. -/
theorem passCycles_hart {h : Nat} {s : State} (g : hartEngine h = none) :
    ((passCycles h s).hart h).pc = (s.hart h).pc ∧ ((passCycles h s).hart h).priv = (s.hart h).priv ∧
    (∀ k, ((passCycles h s).hart h).get k = (s.hart h).get k) ∧
    (∀ c, c ≠ 0xB00 → ((passCycles h s).hart h).csr.get c = (s.hart h).csr.get c) := by
  obtain ⟨hhart, -⟩ := pass_hart h s g
  rw [hhart]
  exact ⟨rfl, rfl, fun k => rfl, fun c hc => Bank.get_set_other _ _ (Ne.symm hc)⟩

/-! ### What an instruction that is fetched does -/

section
variable {h : Nat} {w i : Word} {n : Nat} {s : State} (f : Fetches h w i n s) (g : hartEngine h = none)
include f g

theorem step_done {t : State}
    (hex : rvExec h i (rvFit h ((s.hart h).pc + BitVec.ofNat 64 n)) (passCycles h s) = .done t) :
    stepHalt h s (rvStep h w .good s) = retire h i t := by
  rw [step_eq h w i n s f g, hex]

theorem step_exc {t : State} {c : Nat} {v : Dword}
    (hex : rvExec h i (rvFit h ((s.hart h).pc + BitVec.ofNat 64 n)) (passCycles h s) = .exc c v t) :
    stepHalt h s (rvStep h w .good s) = rvException h c w v t := by
  rw [step_eq h w i n s f g, hex]

end

/-- What an instruction leaves is what it retires with, but for minstret. -/
theorem retire_facts {h : Nat} {i : Word} {s : State} (g : hartEngine h = none) (hi : writesInstret i = false) :
    ((retire h i s).hart h).pc = (s.hart h).pc ∧ ((retire h i s).hart h).priv = (s.hart h).priv ∧
    (∀ k, ((retire h i s).hart h).get k = (s.hart h).get k) ∧
    ((retire h i s).hart h).csr.get 0xB02 = (s.hart h).csr.get 0xB02 + 1 ∧ (retire h i s).app.mem = s.app.mem := by
  obtain ⟨hhart, hmem⟩ := retire_hart h i s g hi
  rw [hhart]
  exact ⟨rfl, rfl, fun k => rfl, Bank.get_set_same _ _ _, hmem⟩

/-- ADDI puts the sum into its register and goes on behind it. -/
theorem exec_addi {h : Nat} {i : Word} {next : Dword} {s : State} (hop : rvOp i = 0x13) (hf3 : rvF3 i = 0) :
    rvExec h i next s = rvRet h (rvRd i) (aluX h 0 false ((s.hart h).get (rvRs1 i)) (immI i)) next s := by
  have himm : rvOpImm h i next s = rvRet h (rvRd i) (aluX h 0 false ((s.hart h).get (rvRs1 i)) (immI i)) next s := by
    simp [rvOpImm, hf3]
  unfold rvExec
  simp only [hop, himm]

/-- SW of a Cantle hart stores the low four bytes of its register at the address that is translated. -/
theorem exec_sw {h a : Nat} {i : Word} {next : Dword} {s t : State} (hop : rvOp i = 0x23) (hf3 : rvF3 i = 2)
    (hcantle : h < 4) (hacc : s.accessAt h .store ((s.hart h).get (rvRs1 i) + immS i) 4 = .ok a)
    (hstore : physStore h a 4 (((s.hart h).get (rvRs2 i)).toNat % 256 ^ 4) s = (t, true)) :
    rvExec h i next s = rvRet h 0 0 next t := by
  have hfit : ∀ v, rvFit h v = v := fun v => if_pos (decide_eq_true hcantle)
  have hst : rvStore h i next s = rvRet h 0 0 next t := by
    unfold rvStore
    dsimp only
    rw [hf3, if_neg (by simp), hfit]
    unfold rvStoreAt
    rw [show 2 ^ 2 = 4 from rfl, hacc]
    dsimp only
    rw [hstore]
  unfold rvExec
  simp only [hop, hst]

theorem exec_mret {h : Nat} {next : Dword} {s : State} (hpriv : (s.hart h).priv = 3) :
    rvExec h 0x30200073 next s = .done (s.updHart h (mretTo h)) := by
  rw [show rvExec h 0x30200073 next s = rvSystem h 0x30200073 next s from rfl]
  unfold rvSystem
  dsimp only
  rw [if_neg (by decide), if_neg (by decide), if_neg (by decide), if_neg (by decide), if_pos rfl, if_pos hpriv]

theorem exec_ecall {h : Nat} {next : Dword} {s : State} :
    rvExec h 0x00000073 next s = .exc (8 + (s.hart h).priv) 0 s := by
  rw [show rvExec h 0x00000073 next s = rvSystem h 0x00000073 next s from rfl]
  unfold rvSystem
  dsimp only
  rw [if_neg (by decide), if_neg (by decide), if_pos rfl]

/-- An exception in M mode enters M mode. -/
theorem rvException_machine {h c : Nat} {w : Word} {v : Dword} {s : State} (g : hartEngine h = none)
    (hpriv : (s.hart h).priv = 3) :
    (rvException h c w v s).hart h = trapM h false c (rvFit h (trapVal c w v s)) (s.hart h) ∧
    (rvException h c w v s).app.mem = s.app.mem := by
  have hexc : rvException h c w v s = hartTrap h c (trapVal c w v s) s.used := by
    unfold rvException
    rw [g]
  rw [hexc]
  unfold hartTrap
  refine ⟨?_, (upd_mem h _ _ g).1⟩
  rw [hart_upd _ _ _ g]
  exact if_neg (by rw [show (s.used.hart h).priv = 3 from hpriv]; simp)

/-- M mode is entered at the vector, with mepc at the pc and mcause the cause; the registers stay. -/
theorem trapM_facts (h c : Nat) (intr : Bool) (v : Dword) (r : Hart) :
    (trapM h intr c v r).pc = vectorOf (r.csr.get 0x305) intr c ∧ (trapM h intr c v r).priv = 3 ∧
    (trapM h intr c v r).csr.get 0x341 = r.pc ∧ (trapM h intr c v r).csr.get 0x342 = causeWordOf h intr c ∧
    (∀ k, (trapM h intr c v r).get k = r.get k) := by
  refine ⟨rfl, rfl, ?_, ?_, fun k => rfl⟩ <;> simp [trapM, Bank.get_set]

/-! ### Interrupts and contexts -/

section
variable {h : Nat} {s : State} (hruns : s.hartRuns h = true) (hawake : (s.core h).wfi = false)
  (hfree : (s.debugs h && dbit ((s.core h).csr.get 0x7B0) 2) = false)
include hruns hawake hfree

/-- A hart that runs, is awake and has nothing due takes the word it fetched. -/
theorem step_fetched {w : Word} {e : Ecc} (hquiet : s.interrupt h = none) :
    stepHalt h s (rvStep h w e s) = rvFetched h w e (passCycles h s) := by
  have hwake : rvWake h s = s := if_neg (by simp [hawake])
  rw [stepHalt_free h s _ hfree]
  unfold rvStep
  rw [if_neg (by simp [hruns])]
  dsimp only
  rw [hwake, if_neg (by simp [hawake]), hquiet]

/-- With an interrupt due it takes that instead. -/
theorem step_interrupt {w : Word} {e : Ecc} {c : Nat} {sm : Bool} (hdue : s.interrupt h = some (c, sm)) :
    stepHalt h s (rvStep h w e s) = takeInterrupt h c sm s := by
  have hwake : rvWake h s = s := if_neg (by simp [hawake])
  rw [stepHalt_free h s _ hfree]
  unfold rvStep
  rw [if_neg (by simp [hruns])]
  dsimp only
  rw [hwake, if_neg (by simp [hawake]), hdue]

end

theorem takeInterrupt_machine {h c : Nat} {s : State} (g : hartEngine h = none) :
    (takeInterrupt h c false s).hart h = trapM h true c 0 (s.hart h) ∧
    (takeInterrupt h c false s).app.mem = s.app.mem := by
  unfold takeInterrupt
  exact ⟨(hart_upd _ _ _ g).trans (if_neg (by decide)), (upd_mem h _ _ g).1⟩

/-- A hart that does not run does nothing. -/
theorem step_stopped {h : Nat} {w : Word} {e : Ecc} {s : State} (hruns : s.hartRuns h = false) :
    stepHalt h s (rvStep h w e s) = s := by
  have hstep : rvStep h w e s = s := if_pos (by simp [hruns])
  rw [hstep]
  exact if_neg (by simp [hruns])

/-- An illegal instruction traps the context of a Rein hart with its cause. -/
theorem rvFetched_illegal {h e : Nat} {w : Word} {v : Dword} {s u : State} (g : hartEngine h = some e)
    (hex : rvOutcome h w s = .exc 2 v u) : rvFetched h w .good s = ctxTrap e 2 2 u := by
  unfold rvFetched
  simp only [hex, ecc_good, rvException, g]
  rfl

theorem rvFetched_uncorrected {h e : Nat} {w : Word} {s : State} (g : hartEngine h = some e) :
    rvFetched h w .failed s = ctxTrap e 3 (s.ctxMtval e) s := by
  unfold rvFetched
  simp only [g]

/-! ### The debug module -/

/-- A halt puts the hart into debug mode and keeps its registers. -/
theorem debugHalt_takes {h : Nat} {s : State} (hdebug : s.debugs h = true) (hrun : (s.core h).halted = false) :
    debugHalt h s = enterDebug h 3 s :=
  if_pos (by simp [hdebug, hrun])

theorem enterDebug_core (h cause : Nat) (s : State) :
    ((enterDebug h cause s).core h).halted = true ∧ ((enterDebug h cause s).core h).x = (s.core h).x := by
  unfold enterDebug
  dsimp only
  rw [core_updCore]
  exact ⟨rfl, rfl⟩

theorem debugResume_takes {h : Nat} {s : State} (hhalted : s.debugHalted h = true) :
    ((debugResume h s).core h).halted = false ∧ (debugResume h s).app.clk.resumeAck = true := by
  have hcore := congrArg Hart.halted (core_updCore h (fun r => { r with halted := false }) s)
  unfold debugResume
  rw [if_pos hhalted]
  refine ⟨?_, rfl⟩
  dsimp only
  split
  · exact (halted_updHart (f := fun r => { r with priv := dfld ((s.core h).csr.get 0x7B0) 0 2 }) (fun r => rfl)).trans
      hcore
  · exact hcore

/-- Settles O48: an instruction by what `rvExec` makes of it (`exec_addi`, `exec_sw`, `exec_mret`, `exec_ecall`) and
`step_done` or `step_exc`, traps by `trapM_facts`, accesses of the debug module by their conditions. -/
theorem hartInstructions : Obligations.HartInstructions := by
  unfold Obligations.HartInstructions
  refine ⟨?_, ?_, ?_, ?_, ?_, ?_, ?_, ?_, ?_, ?_, ?_, ?_, ?_, ?_, ?_, ?_, ?_, ?_, ?_, ?_, ?_, ?_, ?_, ?_, ?_, ?_, ?_⟩
  · rintro h w i n s ⟨g, hfetch, hop, hf3⟩
    obtain ⟨-, -, hregs, hcsrs⟩ := passCycles_hart (s := s) g
    have hhart := hart_upd h
      (fun r => { r.put (rvRd i) (rvFit h (aluX h 0 false (((passCycles h s).hart h).get (rvRs1 i)) (immI i))) with
        pc := rvFit h ((s.hart h).pc + BitVec.ofNat 64 n) }) (passCycles h s) g
    refine ⟨_, congrArg Host.Outcome.next (step_done hfetch g (exec_addi hop hf3)), ?_⟩
    obtain ⟨hpc, -, hget, hcount, hmem⟩ := retire_facts (h := h) (i := i)
      (s := (passCycles h s).updHart h fun r =>
        { r.put (rvRd i) (rvFit h (aluX h 0 false (((passCycles h s).hart h).get (rvRs1 i)) (immI i))) with
          pc := rvFit h ((s.hart h).pc + BitVec.ofNat 64 n) }) g (not_instret i (by rw [hop]; decide))
    refine ⟨?_, fun k => ?_, ?_, ?_⟩
    · rw [hpc, hhart]
    · rw [hget, hhart]
      refine (get_put ((passCycles h s).hart h) _ _ k).trans ?_
      rw [fit_add, hregs, hregs]
    · rw [hcount, hhart, ← hcsrs 0xB02 (by decide)]
      congr 1
      unfold Hart.put
      dsimp only
      split <;> rfl
    · rw [hmem, (upd_mem h _ _ g).1, (pass_hart h s g).2]
  · rintro h w i n a s ⟨hcantle, hfetch, hop, hf3, hacc, hlow, hhigh⟩
    have g : hartEngine h = none := if_neg (by simp [within]; omega)
    obtain ⟨-, -, hregs, -⟩ := passCycles_hart (s := s) g
    obtain ⟨t, hstore, hhart, hbytes⟩ := store_hall h a (((s.hart h).get (rvRs2 i)).toNat % 256 ^ 4) (passCycles h s)
      hcantle hlow hhigh
    have hexec : rvExec h i (rvFit h ((s.hart h).pc + BitVec.ofNat 64 n)) (passCycles h s) =
        rvRet h 0 0 (rvFit h ((s.hart h).pc + BitVec.ofNat 64 n)) t := by
      refine exec_sw hop hf3 hcantle ?_ (by rw [hregs]; exact hstore)
      rw [hregs]
      unfold State.accessAt
      rw [pass_translate h s _ _ g]
      exact hacc
    have hupd := hart_upd h
      (fun r => { r.put 0 (rvFit h 0) with pc := rvFit h ((s.hart h).pc + BitVec.ofNat 64 n) }) t g
    obtain ⟨hpc, -, hget, -, hmem⟩ := retire_facts (h := h) (i := i)
      (s := t.updHart h fun r => { r.put 0 (rvFit h 0) with pc := rvFit h ((s.hart h).pc + BitVec.ofNat 64 n) })
      g (not_instret i (by rw [hop]; decide))
    refine ⟨_, congrArg Host.Outcome.next (step_done hfetch g hexec), ?_, fun k => ?_, fun j => ?_⟩
    · rw [hpc, hupd]
    · rw [hget, hupd, ← hregs, ← hhart]
      rfl
    · have hkept : (passCycles h s).byte j = s.byte j := by
        unfold State.byte
        rw [(pass_hart h s g).2]
      rw [← hkept, ← hbytes]
      unfold State.byte
      rw [hmem, (upd_mem h _ _ g).1]
  · rintro h w n s ⟨g, hfetch, hpriv⟩
    obtain ⟨-, hmode, hregs, hcsrs⟩ := passCycles_hart (s := s) g
    have hupd := hart_upd h (mretTo h) (passCycles h s) g
    obtain ⟨hpc, hto, hget, -, hmem⟩ := retire_facts (h := h) (i := 0x30200073)
      (s := (passCycles h s).updHart h (mretTo h)) g (by decide)
    refine ⟨_, congrArg Host.Outcome.next (step_done hfetch g (exec_mret (hmode.trans hpriv))), ?_, ?_, fun k => ?_, ?_⟩
    · rw [hpc, hupd]
      exact hcsrs 0x341 (by decide)
    · rw [hto, hupd, ← hcsrs 0x300 (by decide)]
      rfl
    · rw [hget, hupd, ← hregs]
      rfl
    · rw [hmem, (upd_mem h _ _ g).1, (pass_hart h s g).2]
  · rintro h w n s ⟨g, hfetch, hpriv⟩
    obtain ⟨hpc, hmode, hregs, hcsrs⟩ := passCycles_hart (s := s) g
    obtain ⟨htrap, hmem⟩ := rvException_machine (c := 8 + ((passCycles h s).hart h).priv) (w := w) (v := 0) g
      (hmode.trans hpriv)
    refine ⟨_, congrArg Host.Outcome.next (step_exc hfetch g exec_ecall), ?_⟩
    obtain ⟨htopc, htopriv, hepc, hcause, hget⟩ := trapM_facts h (8 + ((passCycles h s).hart h).priv) false
      (rvFit h (trapVal (8 + ((passCycles h s).hart h).priv) w 0 (passCycles h s))) ((passCycles h s).hart h)
    rw [htrap, hmem]
    refine ⟨?_, htopriv, hepc.trans hpc, ?_, fun k => (hget k).trans (hregs k), (pass_hart h s g).2⟩
    · rw [htopc, hcsrs 0x305 (by decide), hmode, hpriv]
    · rw [hcause, hmode, hpriv]
      rfl
  · rintro h w c s ⟨g, hruns, hawake, hdue, hfree⟩
    obtain ⟨htrap, hmem⟩ := takeInterrupt_machine (c := c) (s := s) g
    obtain ⟨htopc, htopriv, hepc, hcause, hget⟩ := trapM_facts h c true 0 (s.hart h)
    refine ⟨_, congrArg Host.Outcome.next (step_interrupt hruns hawake hfree hdue), ?_⟩
    rw [htrap]
    exact ⟨htopc, htopriv, hepc, hcause, hget, hmem⟩
  · exact fun h w e s hruns => ⟨_, rfl, step_stopped hruns⟩
  · rintro h w e v u s ⟨g, hruns, hawake, hquiet, hfree, hex⟩
    exact ⟨_, rfl, (step_fetched hruns hawake hfree hquiet).trans (rvFetched_illegal g hex)⟩
  · rintro h w e s ⟨g, hruns, hawake, hquiet, hfree⟩
    exact ⟨_, rfl, (step_fetched hruns hawake hfree hquiet).trans (rvFetched_uncorrected g)⟩
  · exact fun h w e s => ⟨_, rfl, rfl⟩
  · intro k s
    refine ⟨_, rfl, ?_⟩
    unfold timerMatch
    dsimp only
    rw [wake_csr, core_updCore]
    exact Bank.get_set_same _ _ _
  · rintro h s ⟨hdebug, hrun⟩
    obtain ⟨hhalted, hx⟩ := enterDebug_core h 3 s
    exact ⟨_, congrArg Host.Outcome.next (debugHalt_takes hdebug hrun), hhalted, hx, rfl⟩
  · intro h s hno
    refine ⟨_, rfl, if_neg ?_⟩
    rcases hno with hno | hno <;> simp [hno]
  · exact fun h s hhalted => ⟨_, rfl, debugResume_takes hhalted⟩
  · exact fun h s hno => ⟨_, rfl, if_neg (by simp [hno])⟩
  · exact fun h n s => ⟨_, rfl, rfl⟩
  · rintro h n v s ⟨hhalted, g⟩
    refine ⟨_, congrArg Host.Outcome.next (if_pos hhalted), ?_⟩
    rw [hart_upd _ _ _ g, get_put]
    by_cases hn : n.val = 0
    · rw [if_neg (fun hc => hc.2 hn), if_pos hn]
      exact if_pos hn
    · rw [if_pos ⟨rfl, hn⟩, if_neg hn]
  · exact fun h n v s => ⟨_, rfl, rfl⟩
  · exact fun h n s => ⟨_, rfl, rfl⟩
  · exact fun h n v s => ⟨_, rfl, rfl⟩
  · exact fun h n s => ⟨_, rfl, rfl⟩
  · exact fun h n v s => ⟨_, rfl, rfl⟩
  · exact fun h s => ⟨_, rfl, rfl⟩
  · exact fun a s => ⟨_, rfl, rfl⟩
  · exact fun a v s => ⟨_, rfl, rfl⟩
  · exact fun i v s => ⟨_, rfl, rfl⟩
  · exact fun a s => ⟨_, rfl, rfl⟩
  · exact fun a v s => ⟨_, rfl, rfl⟩

end Sys2Proof.Machine
end

section
/-!
SUPPORT. What the journal's batches and flash operations leave, and how the sealed die answers reads and writes of its
entries; RegisterAndObjectAccess.
-/
set_option Elab.async false
namespace Sys2Proof.Machine

/-! ### Register writes -/

theorem busWrite_block {p a : Nat} {v : Word} {s : State} (h : s.regAllowed p a true = true) :
    busWrite p a v s = blockWrite p a v s :=
  if_pos h

theorem blockWrite_plc {p a n o : Nat} {v : Word} {s : State} (h : plcOf a = some (n, o)) :
    blockWrite p a v s = plcWrite n o v s := by
  simp only [blockWrite, h]

/-- Outside the Green PHY windows the write goes to the block of its address. -/
theorem blockWrite_blocks {p a : Nat} (v : Word) (s : State) (h : plcOf a = none) :
    (a / 0x10000 = 0x1040 → blockWrite p a v s = busFail s) ∧
    (a / 0x10000 = 0x1000 → blockWrite p a v s = busOk 0 (bklWrite p (a % 0x10000) v s)) ∧
    (a / 0x10000 = 0x1003 → blockWrite p a v s = busOk 0 (grtWrite (a % 0x10000) v s)) ∧
    (a / 0x10000 = 0x1004 → blockWrite p a v s = busOk 0 (pmcWrite (a % 0x10000) v s)) ∧
    (a / 0x10000 = 0x1006 → blockWrite p a v s = busOk 0 (pilWrite (a % 0x10000) v s)) ∧
    (a / 0x10000 = 0x100A → blockWrite p a v s = busOk 0 (skvWrite (a % 0x10000) v s)) := by
  refine ⟨?_, ?_, ?_, ?_, ?_, ?_⟩ <;> intro hblock <;> simp only [blockWrite, h, hblock]

/-! ### The journal -/

/-- What the queue of batches shows: number and area next to write. -/
def queued (s : State) : List (Nat × Nat) := s.app.journal.batches.map fun b => (b.num, b.area)

theorem batchClose_staged {s : State} (h : s.app.journal.staged ≠ []) :
    (batchClose s).app.journal.staged = [] ∧ (batchClose s).flash.lastNo = s.flash.lastNo + 1 ∧
    queued (batchClose s) = queued s ++ [(s.flash.lastNo + 1, 0)] := by
  unfold batchClose
  dsimp only
  rw [if_neg (by simpa using h)]
  obtain ⟨hqueue, hstaged, hflash⟩ := request_j
    { s with
      flash.lastNo := s.flash.lastNo + 1, app.journal.staged := []
      app.journal.batches := s.app.journal.batches ++
        [{ num := s.flash.lastNo + 1, recs := s.app.journal.staged }] }
  refine ⟨hstaged, congrArg Flash.lastNo hflash, hqueue.trans ?_⟩
  rw [queued, List.map_append]
  rfl

theorem batchProgrammed_a {b : Batch} {r : List Batch} {s : State} (hqueue : s.app.journal.batches = b :: r)
    (hgrant : s.flashGrant b.ticket = true) (harea : b.area = 0) :
    queued (batchProgrammed s) = (b.num, 1) :: r.map (fun b => (b.num, b.area)) ∧
    (batchProgrammed s).flash.a = b.recs.foldl (Area.put b.num) s.flash.a ∧
    (batchProgrammed s).flash.both = s.flash.both := by
  have hset : setArea b.area (b.recs.foldl (Area.put b.num) (s.area b.area)) s =
      { s with flash.a := b.recs.foldl (Area.put b.num) s.flash.a } := by
    rw [harea]
    rfl
  obtain ⟨-, hrel⟩ := rel_j 0 (BitVec.ofNat 32 b.ticket) { s with flash.a := b.recs.foldl (Area.put b.num) s.flash.a }
  unfold batchProgrammed
  simp only [hqueue]
  rw [if_neg (by simp [hgrant]), if_pos harea, hset]
  generalize girthRelWrite 0 (BitVec.ofNat 32 b.ticket)
    { s with flash.a := b.recs.foldl (Area.put b.num) s.flash.a } = u at hrel ⊢
  obtain ⟨hq, -, hflash⟩ := request_j { u with app.journal.batches := { b with area := 1, ticket := 0 } :: r }
  have hkept := congrArg Flash.both hrel
  exact ⟨hq, (congrArg Flash.a hflash).trans (congrArg Flash.a hrel), (congrArg Flash.both hflash).trans hkept⟩

theorem batchProgrammed_b {b : Batch} {r : List Batch} {s : State} (hqueue : s.app.journal.batches = b :: r)
    (hgrant : s.flashGrant b.ticket = true) (harea : b.area = 1) :
    queued (batchProgrammed s) = r.map (fun b => (b.num, b.area)) ∧
    (batchProgrammed s).flash.b = b.recs.foldl (Area.put b.num) s.flash.b ∧
    (batchProgrammed s).flash.both = b.num := by
  have hset : setArea b.area (b.recs.foldl (Area.put b.num) (s.area b.area)) s =
      { s with flash.b := b.recs.foldl (Area.put b.num) s.flash.b } := by
    rw [harea]
    rfl
  obtain ⟨-, hrel⟩ := rel_j 0 (BitVec.ofNat 32 b.ticket) { s with flash.b := b.recs.foldl (Area.put b.num) s.flash.b }
  unfold batchProgrammed
  simp only [hqueue]
  rw [if_neg (by simp [hgrant]), if_neg (by simp [harea]), hset]
  generalize girthRelWrite 0 (BitVec.ofNat 32 b.ticket)
    { s with flash.b := b.recs.foldl (Area.put b.num) s.flash.b } = u at hrel ⊢
  obtain ⟨hq, -, hflash⟩ := request_j { u with app.journal.batches := r, flash.both := b.num }
  exact ⟨hq, (congrArg Flash.b hflash).trans (congrArg Flash.b hrel), congrArg Flash.both hflash⟩

theorem setArea_flash (k : Nat) (a : Area) {s t : State} (h : s.flash = t.flash) :
    (setArea k a s).flash = (setArea k a t).flash := by
  unfold setArea
  split <;> simp only [h]

theorem setArea_compactions (k : Nat) (a : Area) (s : State) :
    (setArea k a s).flash.compactions = s.flash.compactions := by
  unfold setArea
  split <;> rfl

theorem areaCompacted_facts (k ticket : Nat) (s : State) :
    queued (areaCompacted k ticket s) = queued s ∧
    (areaCompacted k ticket s).flash =
      { (setArea k (s.area k).compacted s).flash with compactions := stick (2 ^ 32 - 1) s.flash.compactions 1 } := by
  obtain ⟨hjournal, hflash⟩ := rel_j 0 (BitVec.ofNat 32 ticket) (setArea k (s.area k).compacted s)
  unfold areaCompacted
  refine ⟨?_, ?_⟩
  · unfold queued
    dsimp only
    rw [hjournal]
    unfold setArea
    split <;> rfl
  · dsimp only
    rw [hflash, setArea_compactions]

/-! ### Operations done -/

/-- The journal's part of an operation done sees what the level leaves: the journal, the flash and the grants. -/
theorem level_queue (s : State) :
    (setLevel 482 true s).app.journal = s.app.journal ∧ (setLevel 482 true s).flash = s.flash ∧
    ∀ k, (setLevel 482 true s).flashGrant k = s.flashGrant k := by
  obtain ⟨hjournal, hgirth, hflash⟩ := level_j 482 true s
  refine ⟨hjournal, hflash, fun k => ?_⟩
  unfold State.flashGrant
  rw [hgirth]

theorem xspi_done {s : State} (h : s.inReset = false) :
    execXspiOperationDone false s = .next (journalDone (setLevel 482 true s)) :=
  congrArg Host.Outcome.next ((if_neg (by simp [h])).trans (if_neg (by decide)))

theorem journalDone_batch {s : State} (h : s.app.journal.compact = none) : journalDone s = batchProgrammed s := by
  unfold journalDone
  rw [h]

theorem journalDone_compaction {a k : Nat} {s : State} (h : s.app.journal.compact = some (a, k))
    (hgrant : s.flashGrant k = true) : journalDone s = batchRequest (areaCompacted a k s) := by
  unfold journalDone
  rw [h]
  exact if_pos hgrant

theorem batchProgrammed_ungranted {b : Batch} {r : List Batch} {s : State} (hqueue : s.app.journal.batches = b :: r)
    (hgrant : s.flashGrant b.ticket = false) : batchProgrammed s = s := by
  unfold batchProgrammed
  simp only [hqueue]
  exact if_pos (by simp [hgrant])

/-! ### Entries of the sealed die -/

/-- Every entry that exists outside the measured ones is read by the firmware. -/
theorem sealedRead_firmware {i j k : Nat} {b : Obj} {s : State} (hlow : 0x5000 ≤ i) (hhigh : i ≤ 0x5FFF)
    (hplain : i ≠ 0x5480) (hobj : objSealed (s.elemDc i) i j = some b) (hfit : s.chanUnfit i j = false) :
    sealedRead .firmware i j k s = (.ok, s.sealedValue .firmware i j, s) := by
  have hmay : s.mayRead .firmware b = true := rfl
  unfold sealedRead
  rw [if_neg (by simp only [within]; simp; omega), if_neg (by simp [within, hlow, hhigh]), if_neg (by simp [hfit]), hobj]
  exact (if_neg (by simp [hmay])).trans (if_neg (by simp [hplain]))

theorem sealedRead_absent {q : Role} {i j k : Nat} {s : State} (h : i < 0x4000 ∨ 0x6000 ≤ i) :
    sealedRead q i j k s = (.absent, [], s) := by
  unfold sealedRead
  rw [if_neg (by simp only [within]; simp; omega), if_pos (by simp only [within]; simp; omega)]

/-- A read is answered with what `sealedRead` gives; an offset beyond the value is RANGE. -/
theorem sealedObjectRead_answer {q : Rq} {i : BitVec 16} {j : BitVec 8} {k : BitVec 64} {c : Status} {v : List Byte}
    {u s : State} (o l : Nat) (hrun : s.die.running = true)
    (hread : sealedRead q.role i.toNat j.toNat k.toNat s = (c, v, u)) :
    execSealedObjectRead q i j o l k s = .next (objReply q.tag 1
      (if c = .ok && decide (v.length < o) then .range else c) i.toNat j.toNat o v.length k.toNat
      (if (if c = .ok && decide (v.length < o) then .range else c) = Status.ok then partOf v o l else []) u) := by
  refine die_next hrun ?_
  dsimp only
  rw [hread]

section
variable {q : Rq} {i : BitVec 16} {j : BitVec 8} {o n : Nat} {d : List Byte} {s u : State} (hrun : s.die.running = true)
  (hrole : s.dieRole q.role = true)
include hrun hrole

/-- A value that is whole is written. -/
theorem sealedObjectWrite_value {v : List Byte} (hstage : stagePart i.toNat j.toNat o n d s = (.ok, some v, u)) :
    execSealedObjectWrite q i j o n d s = .next (objReply q.tag 2 (sealedWrite q.role i.toNat j.toNat v u).1 i.toNat
      j.toNat o d.length n [] (sealedWrite q.role i.toNat j.toNat v u).2) := by
  refine die_next hrun ?_
  dsimp only
  rw [if_neg (by simp [hrole]), hstage]

/-- One that is not is answered with what staging gives. -/
theorem sealedObjectWrite_staged {c : Status} (hstage : stagePart i.toNat j.toNat o n d s = (c, none, u)) :
    execSealedObjectWrite q i j o n d s =
      .next (objReply q.tag 2 c i.toNat j.toNat o d.length n [] u) := by
  have hanswer : ∀ r : Status × State, r = (c, u) →
      objReply q.tag 2 r.1 i.toNat j.toNat o d.length n [] r.2 = objReply q.tag 2 c i.toNat j.toNat o d.length n [] u :=
    fun r hr => by rw [hr]
  refine die_next hrun (hanswer _ ?_)
  rw [if_neg (by simp [hrole]), hstage]
  cases c <;> rfl

end

/-- A value given whole in one part is not staged. -/
theorem stagePart_whole {i j : Nat} {d : List Byte} {s : State} (h : d.length ≤ 216) :
    (stagePart i j 0 d.length d s).1 = .ok ∧ (stagePart i j 0 d.length d s).2.1 = some d ∧
    (stagePart i j 0 d.length d s).2.2.die.legal = s.die.legal := by
  refine ⟨?_, ?_, stage_legal i j 0 d.length d s⟩ <;>
  · unfold stagePart
    dsimp only
    rw [if_neg (by simp; omega), if_neg (by simp), if_pos rfl, List.nil_append, if_pos rfl]

theorem sealedObjectWrite_whole {q : Rq} {i : BitVec 16} {j : BitVec 8} {n : Nat} {d : List Byte} {s : State}
    (hrun : s.die.running = true) (hrole : s.dieRole q.role = true) (hn : n = d.length) (hlen : d.length ≤ 216) :
    ∃ u, u.die.legal = s.die.legal ∧ execSealedObjectWrite q i j 0 n d s =
      .next (objReply q.tag 2 (sealedWrite q.role i.toNat j.toNat d u).1 i.toNat j.toNat 0 d.length n []
        (sealedWrite q.role i.toNat j.toNat d u).2) := by
  obtain ⟨hok, hwhole, hlegal⟩ := stagePart_whole (i := i.toNat) (j := j.toNat) (s := s) hlen
  rw [hn]
  exact ⟨_, hlegal, sealedObjectWrite_value hrun hrole (Prod.ext hok (Prod.ext hwhole rfl))⟩

/-- The Operator sets the demand interval to one of the five values. -/
theorem sealedWrite_interval {v : Byte} {s : State} (hv : [5, 10, 15, 30, 60].contains v.toNat = true)
    (hrole : s.dieRole .operator = true) :
    sealedWrite .operator 0x5480 1 [v] s = (.ok, s.setSobj 0x5480 1 [v]) := by
  have hle : ofLE [v] = v.toNat := by simp [ofLE]
  have hval : (oSeal 1 rAll rO 15 5 60).valOk [v] = true := by
    have hrange : 5 ≤ v.toNat ∧ v.toNat ≤ 60 := by
      rw [List.contains_iff_mem] at hv
      simp only [List.mem_cons, List.not_mem_nil, or_false] at hv
      omega
    have hlow : (5 : Int) ≤ (ofLE [v] : Nat) := by rw [hle]; omega
    have hhigh : ((ofLE [v] : Nat) : Int) ≤ 60 := by rw [hle]; omega
    exact Bool.and_eq_true_iff.mpr ⟨rfl, Bool.and_eq_true_iff.mpr ⟨decide_eq_true hlow, decide_eq_true hhigh⟩⟩
  unfold sealedWrite
  rw [if_neg (by decide), show objSealed (s.elemDc 0x5480) 0x5480 1 = some (oSeal 1 rAll rO 15 5 60) from rfl]
  dsimp only
  rw [if_neg (by simp [hrole]), if_neg (by decide), if_neg (by decide), if_neg (by decide), if_neg (by simp [hval])]
  exact if_pos (by rw [hle]; exact hv)

/-- Settles O49: a register write goes to the block of its address (`blockWrite_blocks`), an operation done to the
compaction or the oldest batch (`journalDone_batch`, `journalDone_compaction`), a read or write of the sealed die to
`sealedRead` and, where the parts make a value, `sealedWrite`. -/
theorem registerAndObjectAccess : Obligations.RegisterAndObjectAccess := by
  unfold Obligations.RegisterAndObjectAccess
  refine ⟨?_, ?_, ?_, ?_, ?_, ?_, ?_, ?_, ?_, ?_, ?_, ?_, ?_, ?_, ?_, ?_, ?_, ?_, ?_, ?_, ?_, ?_, ?_, ?_, ?_, ?_⟩
  · exact fun p a v s h => ⟨_, rfl, if_neg (by simp [h])⟩
  · exact fun p a v s h => ⟨_, rfl, busWrite_block h⟩
  · rintro p a v n o s ⟨hallowed, hplc⟩
    exact ⟨_, rfl, (busWrite_block hallowed).trans (blockWrite_plc hplc)⟩
  · rintro p a v s ⟨hallowed, hplc, hblock⟩
    obtain ⟨hfuses, -, -, -, -, -⟩ := blockWrite_blocks (p := p) v s hplc
    exact ⟨_, rfl, (busWrite_block hallowed).trans (hfuses hblock)⟩
  · rintro p a v s ⟨hallowed, hplc, hblock⟩
    obtain ⟨-, hbuckle, -, -, -, -⟩ := blockWrite_blocks (p := p) v s hplc
    exact ⟨_, rfl, (busWrite_block hallowed).trans (hbuckle hblock)⟩
  · rintro p a v s ⟨hallowed, hplc, hblock⟩
    obtain ⟨-, -, hgirth, -, -, -⟩ := blockWrite_blocks (p := p) v s hplc
    exact ⟨_, rfl, (busWrite_block hallowed).trans (hgirth hblock)⟩
  · rintro p a v s ⟨hallowed, hplc, hblock⟩
    obtain ⟨-, -, -, hpmc, -, -⟩ := blockWrite_blocks (p := p) v s hplc
    exact ⟨_, rfl, (busWrite_block hallowed).trans (hpmc hblock)⟩
  · rintro p a v s ⟨hallowed, hplc, hblock⟩
    obtain ⟨-, -, -, -, hpilot, -⟩ := blockWrite_blocks (p := p) v s hplc
    exact ⟨_, rfl, (busWrite_block hallowed).trans (hpilot hblock)⟩
  · rintro p a v s ⟨hallowed, hplc, hblock⟩
    obtain ⟨-, -, -, -, -, hskiver⟩ := blockWrite_blocks (p := p) v s hplc
    exact ⟨_, rfl, (busWrite_block hallowed).trans (hskiver hblock)⟩
  · rintro b s ⟨hready, hstaged⟩
    exact ⟨_, congrArg Host.Outcome.next (if_pos hready), batchClose_staged hstaged⟩
  · exact fun b s h => ⟨_, rfl, if_neg (by simp [h])⟩
  · exact fun s h => ⟨_, rfl, (if_neg (by simp [h])).trans (if_pos rfl)⟩
  · rintro b r s ⟨hreset, hqueue, hgrant, harea, hcompact⟩
    obtain ⟨hjournal, hflash, hgrants⟩ := level_queue s
    rw [← hflash]
    exact ⟨_, (xspi_done hreset).trans (congrArg Host.Outcome.next (journalDone_batch (by rw [hjournal, hcompact]))),
      batchProgrammed_a (by rw [hjournal, hqueue]) (by rw [hgrants, hgrant]) harea⟩
  · rintro b r s ⟨hreset, hqueue, hgrant, harea, hcompact⟩
    obtain ⟨hjournal, hflash, hgrants⟩ := level_queue s
    rw [← hflash]
    exact ⟨_, (xspi_done hreset).trans (congrArg Host.Outcome.next (journalDone_batch (by rw [hjournal, hcompact]))),
      batchProgrammed_b (by rw [hjournal, hqueue]) (by rw [hgrants, hgrant]) harea⟩
  · rintro b r s ⟨hreset, hqueue, hgrant, hcompact⟩
    obtain ⟨hjournal, -, hgrants⟩ := level_queue s
    exact ⟨_, xspi_done hreset, (journalDone_batch (by rw [hjournal, hcompact])).trans
      (batchProgrammed_ungranted (by rw [hjournal, hqueue]) (by rw [hgrants, hgrant]))⟩
  · rintro a k s ⟨hreset, hcompact, hgrant⟩
    obtain ⟨hjournal, hflash, hgrants⟩ := level_queue s
    obtain ⟨hqueue, hcompacted⟩ := areaCompacted_facts a k (setLevel 482 true s)
    obtain ⟨hrequest, -, hkept⟩ := request_j (areaCompacted a k (setLevel 482 true s))
    have harea : (setLevel 482 true s).area a = s.area a := by simp only [State.area, hflash]
    refine ⟨_, (xspi_done hreset).trans (congrArg Host.Outcome.next
      (journalDone_compaction (by rw [hjournal, hcompact]) (by rw [hgrants, hgrant]))), ?_, ?_⟩
    · exact hrequest.trans (hqueue.trans (by rw [queued, hjournal]))
    · rw [hkept, hcompacted, harea, setArea_flash a _ hflash, hflash]
  · exact fun b s h => ⟨_, rfl, if_pos h⟩
  · rintro g i j o l k b s ⟨hrun, hlow, hhigh, hplain, hobj, hfit, hlen⟩
    have hst : (if Status.ok = .ok && decide ((s.sealedValue .firmware i.toNat j.toNat).length < o) then Status.range
        else .ok) = .ok := if_neg (by simp [hlen])
    refine ⟨_, sealedObjectRead_answer o l hrun (sealedRead_firmware hlow hhigh hplain hobj hfit), ?_⟩
    rw [hst, if_pos rfl]
  · rintro q i j o l k s ⟨hrun, hout⟩
    exact ⟨_, sealedObjectRead_answer o l hrun (sealedRead_absent hout), rfl⟩
  · rintro q i j o l k c v u s ⟨hrun, hread⟩
    exact ⟨_, sealedObjectRead_answer o l hrun hread, rfl⟩
  · exact fun q i j o l k s h => ⟨_, rfl, die_off h⟩
  · exact fun q i j o n d s h => ⟨_, rfl, die_off h⟩
  · rintro q i j o n d s ⟨hrun, hrole⟩
    refine ⟨_, die_next hrun ?_, rfl⟩
    dsimp only
    rw [if_pos (by simp [hrole])]
  · rintro q i j o n d v u s ⟨hrun, hrole, hstage⟩
    exact ⟨_, sealedObjectWrite_value hrun hrole hstage, rfl⟩
  · rintro q i j o n d c u s ⟨hrun, hrole, hstage⟩
    exact ⟨_, sealedObjectWrite_staged hrun hrole hstage, rfl⟩
  · rintro g v s ⟨hrun, hv, hrole⟩
    obtain ⟨u, hlegal, hwrite⟩ := sealedObjectWrite_whole (q := ⟨.operator, g⟩) (i := 0x5480) (j := 1) (n := 1)
      (d := [v]) hrun hrole rfl (by simp)
    have hoperator : u.dieRole .operator = true := by
      unfold State.dieRole
      rw [hlegal]
      exact hrole
    refine ⟨_, hwrite, ?_⟩
    rw [show (0x5480 : BitVec 16).toNat = 0x5480 from rfl, show (1 : BitVec 8).toNat = 1 from rfl,
      sealedWrite_interval hv hoperator]
    refine Eq.trans ?_ (sobj_setSobj_same u 0x5480 1 [v])
    simp only [State.sobj, State.elemDc, objReply, dieReply_same]

end Sys2Proof.Machine
end
